-- ==== Sys2Proof/Word.lean ====
section
/-! DEFINITION. The word types of the FD-7140 and the shape of a sparse table. -/

namespace Sys2Proof

/-- One byte. -/
abbrev Byte := BitVec 8

/-- One 32-bit register (R5). -/
abbrev Word := BitVec 32

/-- One 64-bit Lofts register (R333). -/
abbrev Word64 := BitVec 64

/-- A sparse table: (index, value) pairs, the indices strictly rising. What an index that is not
listed holds is said by each reader. -/
abbrev Tbl (α : Type) := List (Nat × α)

end Sys2Proof
end

