-- ==== Sys2Proof/Syntax.lean ====
section
/-! DEFINITION. The commands: one constructor per row of the opcode table. An operand is what the
outside world brings: an address or a value written, a frame that arrives, which instance an event
happens to, what a physical check finds. -/

namespace Sys2Proof

/-- What an error-correcting code finds in the word that a step reads: no error, an error it
corrects, or an error it cannot correct. -/
inductive Ecc where
  | ok
  | corr
  | uncorr
deriving DecidableEq, Repr

/-- The fields of a Lofts instruction word other than its opcode (R340). -/
structure LFields where
  d : BitVec 5
  a : BitVec 5
  b : BitVec 5
  imm : BitVec 41
deriving DecidableEq, Repr

/-- What resets Doorway (R421), and the rise of PERST_N that ends it. -/
inductive PerstEvent where
  | low
  | high
  | linkLoss
deriving DecidableEq, Repr

/-- A bit of a function's configuration space that the part acts on (R418, R420, R437). -/
inductive CfgField where
  | msixEnable
  | msixMask
  | busMaster
  | pmeEnable
  | vfEnable
deriving DecidableEq, Repr

/-- The commands and events of the FD-7140: one constructor per row of the opcode table, in the
table's order; each docstring names the rule of the row. -/
inductive Instr where
  /-- REGISTER_WRITE (R12). -/
  | registerWrite (a : Nat) (v : Word)
  /-- MISALIGNED_REGISTER_ACCESS (R5). -/
  | misalignedRegisterAccess (fn : Nat) (write : Bool) (a size : Nat)
  /-- RESERVED_OFFSET_ACCESS (R6). -/
  | reservedOffsetAccess (write : Bool) (a : Nat)
  /-- PAIR_LOWER_READ (R11). -/
  | pairLowerRead (a : Nat)
  /-- PAIR_UPPER_WRITE (R11). -/
  | pairUpperWrite (a : Nat) (v : Word)
  /-- RC_FIELD_READ (R13). -/
  | rcFieldRead (a : Nat)
  /-- SET_REGISTER_WRITE (R12). -/
  | setRegisterWrite (a : Nat) (v : Word)
  /-- CLR_REGISTER_WRITE (R12). -/
  | clrRegisterWrite (a : Nat) (v : Word)
  /-- FRAME_RECEIVE (R41). -/
  | frameReceive (n : Nat) (bytes : List Byte) (err : Bool) (total fecC fecU : Nat)
  /-- SLICE_WAKE (R29). -/
  | sliceWake (sl : Nat)
  /-- FRAME_BEGIN (R42). -/
  | frameBegin (n : Nat)
  /-- FRAME_END (R17). -/
  | frameEnd (n : Nat)
  /-- LINK_UP (R39). -/
  | linkUp (n : Nat)
  /-- LINK_DOWN (R39). -/
  | linkDown (n : Nat)
  /-- AUTO_NEGOTIATION (R37). -/
  | autoNegotiation (n : Nat) (ok : Bool)
  /-- LINK_TRAINING (R38). -/
  | linkTraining (n : Nat)
  /-- LANE_RATE_WRITE (R32). -/
  | laneRateWrite (o : Nat) (v : Word)
  /-- PORT_CFG_WRITE (R36). -/
  | portCfgWrite (n : Nat) (v : Word)
  /-- PORT_MTU_WRITE (R40). -/
  | portMtuWrite (n : Nat) (v : Word)
  /-- PFC_RECEIVE (R49). -/
  | pfcReceive (n vec : Nat) (times : List Nat)
  /-- PAUSE_RECEIVE (R47). -/
  | pauseReceive (n time : Nat)
  /-- PAUSE_TIMER_EXPIRE (R49). -/
  | pauseTimerExpire (n k : Nat)
  /-- PFC_GENERATE (R50). -/
  | pfcGenerate (n : Nat)
  /-- PFC_REFRESH (R50). -/
  | pfcRefresh (n : Nat)
  /-- TS_TAG_READ (R54). -/
  | tsTagRead (n : Nat)
  /-- HELLO_RECEIVE (R58). -/
  | helloReceive (n : Nat) (frame : List Byte)
  /-- PARTNER_HOLD_EXPIRE (R59). -/
  | partnerHoldExpire (n : Nat)
  /-- PARTNER_STATE_POST (R59). -/
  | partnerStatePost (n : Nat)
  /-- HELLO_SEND (R61). -/
  | helloSend (n : Nat)
  /-- HELLO_REPLY (R61). -/
  | helloReply (n : Nat)
  /-- HEAD_ACCEPT (R64). -/
  | headAccept (f : Nat)
  /-- PARSE_COMPLETE (R64). -/
  | parseComplete (f : Nat) (upset : Option (Nat × Ecc))
  /-- UC_WRITE (R89). -/
  | ucWrite (v : Word)
  /-- UC_READ (R90). -/
  | ucRead (v : Word)
  /-- STORE_SCRUB (R93). -/
  | storeScrub (sl a : Nat) (e : Ecc)
  /-- STAGE_LOOKUP (R99). -/
  | stageLookup (f : Nat) (upset : Option (Nat × Ecc))
  /-- REMOTE_ANSWER_ARRIVE (R110). -/
  | remoteAnswerArrive (f k : Nat)
  /-- PARK_RELEASE (R111). -/
  | parkRelease (f : Nat)
  /-- HEAD_SLOT_ARBITRATE (R122). -/
  | headSlotArbitrate (sl : Nat)
  /-- REENTRY_AGE_LIMIT (R122). -/
  | reentryAgeLimit (sl : Nat)
  /-- CHAIN_END (R97). -/
  | chainEnd (f : Nat)
  /-- STAGE_CFG_WRITE (R100). -/
  | stageCfgWrite (sl st : Nat) (v : Word)
  /-- GEN_OPEN (R128). -/
  | genOpen
  /-- GEN_COMMIT (R129). -/
  | genCommit
  /-- GEN_ABORT (R128). -/
  | genAbort
  /-- DRAIN_END (R130). -/
  | drainEnd
  /-- DRAIN_TIMEOUT (R130). -/
  | drainTimeout
  /-- SETTLING_END (R130). -/
  | settlingEnd
  /-- ACTION_WRITE (R133). -/
  | actionWrite (v : Word)
  /-- ACTION_READ (R133). -/
  | actionRead (v : Word)
  /-- DEFINITION_WRITE (R105). -/
  | definitionWrite (v : Word)
  /-- DEFINITION_READ (R133). -/
  | definitionRead (v : Word)
  /-- EXACT_INSERT (R133). -/
  | exactInsert (v : Word)
  /-- EXACT_DELETE (R133). -/
  | exactDelete (v : Word)
  /-- EXACT_SEARCH (R133). -/
  | exactSearch (v : Word)
  /-- PORT_DEFAULT_WRITE (R136). -/
  | portDefaultWrite (n c : Nat) (v : Word)
  /-- STAGE_SRAM_SCRUB (R101). -/
  | stageSramScrub (sl a : Nat) (e : Ecc)
  /-- GAL_INSERT (R148). -/
  | galInsert (v : Word)
  /-- GAL_DELETE (R149). -/
  | galDelete (v : Word)
  /-- GAL_FIND (R154). -/
  | galFind (v : Word)
  /-- GAL_PROBE (R154). -/
  | galProbe (v : Word)
  /-- GAL_JOB_START (R157). -/
  | galJobStart (v : Word)
  /-- GAL_JOB_ABORT (R157). -/
  | galJobAbort (v : Word)
  /-- GAL_JOB_RECORD (R156). -/
  | galJobRecord
  /-- GAL_SCRUB_VISIT (R159). -/
  | galScrubVisit (sl bank row : Nat) (bad : Bool)
  /-- GAL_REPAIR (R160). -/
  | galRepair (sl bank row : Nat) (e : Ecc)
  /-- LRD_TABLE_CFG_WRITE (R167). -/
  | lrdTableCfgWrite (t : Nat) (v : Word)
  /-- LRD_AGE_WRITE (R182). -/
  | lrdAgeWrite (t : Nat) (v : Word)
  /-- LARDER_SEARCH (R169). -/
  | larderSearch (f j : Nat)
  /-- CELLAR_SEARCH_RELEASE (R170). -/
  | cellarSearchRelease
  /-- LEARN_REQUEST_APPLY (R178). -/
  | learnRequestApply
  /-- SWEEP_VISIT (R181). -/
  | sweepVisit (t b : Nat)
  /-- LRD_INSERT (R184). -/
  | lrdInsert (v : Word)
  /-- LRD_DELETE (R183). -/
  | lrdDelete (v : Word)
  /-- LRD_READ (R183). -/
  | lrdRead (v : Word)
  /-- LRD_COMPARE_REPLACE (R183). -/
  | lrdCompareReplace (v : Word)
  /-- LRD_TOUCH (R183). -/
  | lrdTouch (v : Word)
  /-- LRD_JOB_START (R186). -/
  | lrdJobStart (v : Word)
  /-- LRD_JOB_ABORT (R186). -/
  | lrdJobAbort (v : Word)
  /-- LRD_JOB_STEP (R187). -/
  | lrdJobStep
  /-- LRD_SCRUB (R191). -/
  | lrdScrub (u : Nat) (e : Ecc)
  /-- LRD_ECC_FREE (R192). -/
  | lrdEccFree
  /-- LRD_TEMPLATE_WRITE (R194). -/
  | lrdTemplateWrite (lrn : Bool) (t : Nat) (v : Word)
  /-- CROWSNEST_CALL (R212). -/
  | crowsnestCall
  /-- CALL_TIMEOUT (R212). -/
  | callTimeout (f j : Nat)
  /-- CACHE_MISS_FILL (R211). -/
  | cacheMissFill (g : Nat)
  /-- CRW_CACHE_SCRUB (R210). -/
  | crwCacheScrub (g : Nat) (e : Ecc)
  /-- ROSTER_WRITE (R202). -/
  | rosterWrite (v : Word)
  /-- ROSTER_READ (R232). -/
  | rosterRead (v : Word)
  /-- SET_HEALTH (R204). -/
  | setHealth (v : Word)
  /-- SET_LOAD (R219). -/
  | setLoad (v : Word)
  /-- GROUP_READ (R232). -/
  | groupRead (v : Word)
  /-- GROUP_WRITE (R232). -/
  | groupWrite (v : Word)
  /-- PROBE (R200). -/
  | probe (v : Word)
  /-- RANK (R207). -/
  | rank (v : Word)
  /-- CRW_CFG_WRITE (R233). -/
  | crwCfgWrite (v : Word)
  /-- BUILD_START (R228). -/
  | buildStart (v : Word)
  /-- BUILD_ABORT (R229). -/
  | buildAbort (v : Word)
  /-- BUILD_GROUP (R229). -/
  | buildGroup (g : Nat)
  /-- LOAD_SAMPLE_RECEIVE (R325). -/
  | loadSampleReceive (sl : Nat)
  /-- MIG_BEGIN (R251). -/
  | migBegin (v : Word)
  /-- MIG_FINISH (R251). -/
  | migFinish (v : Word)
  /-- MIG_ABORT (R251). -/
  | migAbort (v : Word)
  /-- MIG_STEP (R250). -/
  | migStep
  /-- MIG_DRAIN_END (R252). -/
  | migDrainEnd
  /-- MIG_DRAIN_TIMEOUT (R252). -/
  | migDrainTimeout
  /-- MIG_MARK (R253). -/
  | migMark (v : Word)
  /-- NOTICE_DECIDE (R243). -/
  | noticeDecide (f : Nat)
  /-- NOTICE_TOKEN_REFILL (R247). -/
  | noticeTokenRefill (sl : Nat)
  /-- COPY_OUTCOME (R240). -/
  | copyOutcome (c : Nat)
  /-- CHECK_VERIFY (R261). -/
  | checkVerify (f : Nat)
  /-- CHECK_APPEND (R262). -/
  | checkAppend (c : Nat)
  /-- CHECK_PROFILE_WRITE (R267). -/
  | checkProfileWrite (p : Nat) (v : Word)
  /-- VOQ_ADMIT (R275). -/
  | voqAdmit (f : Nat)
  /-- SPILL_WRITE (R279). -/
  | spillWrite (sl q : Nat)
  /-- SPILL_READBACK (R279). -/
  | spillReadback (sl q : Nat) (chainBad : Bool)
  /-- GRANT_ROUND (R284). -/
  | grantRound (grants : List (Nat × Nat))
  /-- CELL_ARRIVE (R284). -/
  | cellArrive (src q : Nat) (crcBad : Bool)
  /-- COPY_FINISH_REPORT (R290). -/
  | copyFinishReport (f e : Nat)
  /-- DOWN_HOLD_EXPIRE (R291). -/
  | downHoldExpire (n : Nat)
  /-- STW_SET_WRITE (R302). -/
  | stwSetWrite (v : Word)
  /-- STW_SET_READ (R302). -/
  | stwSetRead (v : Word)
  /-- STW_GROUP_WRITE (R302). -/
  | stwGroupWrite (v : Word)
  /-- STW_GROUP_READ (R302). -/
  | stwGroupRead (v : Word)
  /-- STW_MEMBER_WRITE (R302). -/
  | stwMemberWrite (v : Word)
  /-- STW_MEMBER_READ (R302). -/
  | stwMemberRead (v : Word)
  /-- FLUSH (R292). -/
  | flush (v : Word)
  /-- HASH_PROFILE_COMMIT (R303). -/
  | hashProfileCommit (k : Nat) (v : Word)
  /-- PANTRY_SCRUB (R301). -/
  | pantryScrub (sl f : Nat) (e : Ecc)
  /-- REFILL_TICK (R305). -/
  | refillTick
  /-- POLICER_WRITE (R329). -/
  | policerWrite (v : Word)
  /-- POLICER_READ (R329). -/
  | policerRead (v : Word)
  /-- SCHED_DECISION (R314). -/
  | schedDecision (n : Nat)
  /-- SHAPER_RATE_WRITE (R320). -/
  | shaperRateWrite (j : Nat) (v : Word)
  /-- SHAPER_BURST_WRITE (R320). -/
  | shaperBurstWrite (j : Nat) (v : Word)
  /-- SAMPLE_INSTANT (R324). -/
  | sampleInstant
  /-- SHEET_SCRUB (R328). -/
  | sheetScrub (shaper : Bool) (sl ix : Nat) (e : Ecc)
  /-- NOP (R340). -/
  | nop (t : Nat) (f : LFields)
  /-- ADD (R340). -/
  | add (t : Nat) (f : LFields)
  /-- SUB (R340). -/
  | sub (t : Nat) (f : LFields)
  /-- AND (R340). -/
  | and (t : Nat) (f : LFields)
  /-- OR (R340). -/
  | or (t : Nat) (f : LFields)
  /-- XOR (R340). -/
  | xor (t : Nat) (f : LFields)
  /-- SHL (R340). -/
  | shl (t : Nat) (f : LFields)
  /-- SHR (R340). -/
  | shr (t : Nat) (f : LFields)
  /-- SAR (R340). -/
  | sar (t : Nat) (f : LFields)
  /-- MUL (R340). -/
  | mul (t : Nat) (f : LFields)
  /-- MULH (R340). -/
  | mulh (t : Nat) (f : LFields)
  /-- SLT (R340). -/
  | slt (t : Nat) (f : LFields)
  /-- SLTU (R340). -/
  | sltu (t : Nat) (f : LFields)
  /-- BEXT (R340). -/
  | bext (t : Nat) (f : LFields)
  /-- BINS (R340). -/
  | bins (t : Nat) (f : LFields)
  /-- POPC (R340). -/
  | popc (t : Nat) (f : LFields)
  /-- CLZ (R340). -/
  | clz (t : Nat) (f : LFields)
  /-- ADDI (R340). -/
  | addi (t : Nat) (f : LFields)
  /-- ANDI (R340). -/
  | andi (t : Nat) (f : LFields)
  /-- ORI (R340). -/
  | ori (t : Nat) (f : LFields)
  /-- XORI (R340). -/
  | xori (t : Nat) (f : LFields)
  /-- SHLI (R340). -/
  | shli (t : Nat) (f : LFields)
  /-- SHRI (R340). -/
  | shri (t : Nat) (f : LFields)
  /-- SARI (R340). -/
  | sari (t : Nat) (f : LFields)
  /-- LI (R340). -/
  | li (t : Nat) (f : LFields)
  /-- LIH (R340). -/
  | lih (t : Nat) (f : LFields)
  /-- BSWAP (R340). -/
  | bswap (t : Nat) (f : LFields)
  /-- BEQ (R340). -/
  | beq (t : Nat) (f : LFields)
  /-- BNE (R340). -/
  | bne (t : Nat) (f : LFields)
  /-- BLT (R340). -/
  | blt (t : Nat) (f : LFields)
  /-- BGE (R340). -/
  | bge (t : Nat) (f : LFields)
  /-- BLTU (R340). -/
  | bltu (t : Nat) (f : LFields)
  /-- BGEU (R340). -/
  | bgeu (t : Nat) (f : LFields)
  /-- JAL (R340). -/
  | jal (t : Nat) (f : LFields)
  /-- JALR (R340). -/
  | jalr (t : Nat) (f : LFields)
  /-- LD (R340). -/
  | ld (t : Nat) (f : LFields)
  /-- LDS (R340). -/
  | lds (t : Nat) (f : LFields)
  /-- ST (R340). -/
  | st (t : Nat) (f : LFields)
  /-- AMO_ADD (R338). -/
  | amoAdd (t : Nat) (f : LFields)
  /-- AMO_SWAP (R338). -/
  | amoSwap (t : Nat) (f : LFields)
  /-- AMO_CAS (R338). -/
  | amoCas (t : Nat) (f : LFields)
  /-- TK_NEXT (R346). -/
  | tkNext (t : Nat) (f : LFields)
  /-- PKT_RD (R347). -/
  | pktRd (t : Nat) (f : LFields)
  /-- PKT_WR (R347). -/
  | pktWr (t : Nat) (f : LFields)
  /-- TK_EMIT (R349). -/
  | tkEmit (t : Nat) (f : LFields)
  /-- TK_REINJECT (R350). -/
  | tkReinject (t : Nat) (f : LFields)
  /-- TK_HOST (R415). -/
  | tkHost (t : Nat) (f : LFields)
  /-- TK_DONE (R350). -/
  | tkDone (t : Nat) (f : LFields)
  /-- TBL (R352). -/
  | tbl (t : Nat) (f : LFields)
  /-- CHK (R353). -/
  | chk (t : Nat) (f : LFields)
  /-- DMA (R354). -/
  | dma (t : Nat) (f : LFields)
  /-- LB_PUT (R358). -/
  | lbPut (t : Nat) (f : LFields)
  /-- LB_SEND (R358). -/
  | lbSend (t : Nat) (f : LFields)
  /-- LB_DROP (R340). -/
  | lbDrop (t : Nat) (f : LFields)
  /-- LB_RECV (R359). -/
  | lbRecv (t : Nat) (f : LFields)
  /-- WFE (R360). -/
  | wfe (t : Nat) (f : LFields)
  /-- EV_SET (R360). -/
  | evSet (t : Nat) (f : LFields)
  /-- EV_CLR (R360). -/
  | evClr (t : Nat) (f : LFields)
  /-- TMR (R360). -/
  | tmr (t : Nat) (f : LFields)
  /-- TIME (R340). -/
  | time (t : Nat) (f : LFields)
  /-- THR_WREG (R355). -/
  | thrWreg (t : Nat) (f : LFields)
  /-- THR_RREG (R355). -/
  | thrRreg (t : Nat) (f : LFields)
  /-- THR_START (R355). -/
  | thrStart (t : Nat) (f : LFields)
  /-- THR_STOP (R355). -/
  | thrStop (t : Nat) (f : LFields)
  /-- THR_RESET (R356). -/
  | thrReset (t : Nat) (f : LFields)
  /-- THR_STAT (R355). -/
  | thrStat (t : Nat) (f : LFields)
  /-- BELL (R428). -/
  | bell (t : Nat) (f : LFields)
  /-- VRET (R364). -/
  | vret (t : Nat) (f : LFields)
  /-- TRAP (R340). -/
  | trap (t : Nat) (f : LFields)
  /-- BRK (R370). -/
  | brk (t : Nat) (f : LFields)
  /-- STOP (R340). -/
  | stop (t : Nat) (f : LFields)
  /-- W_INSTRUCTION_COMPLETE (R335). -/
  | wInstructionComplete (t : Nat)
  /-- TIMER_DEADLINE (R360). -/
  | timerDeadline (t : Nat)
  /-- TICKET_ENQUEUE (R344). -/
  | ticketEnqueue (id : Nat)
  /-- WAIT_DEADLOCK (R361). -/
  | waitDeadlock (e : Nat)
  /-- BREAKPOINT_HALT (R370). -/
  | breakpointHalt (t : Nat)
  /-- ENGINE_STOP (R365). -/
  | engineStop (e : Nat)
  /-- ENGINE_RESTART (R366). -/
  | engineRestart (e : Nat)
  /-- DBG_HALT (R368). -/
  | dbgHalt
  /-- DBG_RESUME (R368). -/
  | dbgResume
  /-- DBG_STEP (R368). -/
  | dbgStep
  /-- DBG_READ (R368). -/
  | dbgRead (reg : Nat)
  /-- DBG_WRITE (R368). -/
  | dbgWrite (reg : Nat)
  /-- DBG_HALT_ENGINE (R368). -/
  | dbgHaltEngine
  /-- DBG_RESUME_ENGINE (R368). -/
  | dbgResumeEngine
  /-- HOST_IS_WRITE (R373). -/
  | hostIsWrite (addr : Nat)
  /-- HOST_IS_READ (R373). -/
  | hostIsRead (addr : Nat)
  /-- HOST_SH_WRITE (R373). -/
  | hostShWrite (addr : Nat)
  /-- HOST_SH_READ (R373). -/
  | hostShRead (addr : Nat)
  /-- HOST_THR_START (R373). -/
  | hostThrStart (t : Nat)
  /-- HOST_THR_STOP (R373). -/
  | hostThrStop (t : Nat)
  /-- HOST_THR_RESET (R373). -/
  | hostThrReset (t : Nat)
  /-- LOFT_WAKE (R371). -/
  | loftWake (l : Nat)
  /-- LOFTS_SCRUB (R367). -/
  | loftsScrub (m ix : Nat) (e : Ecc)
  /-- CRW_RESERVE_WRITE (R372). -/
  | crwReserveWrite (v : Word)
  /-- POOL_VALID_WRITE (R377). -/
  | poolValidWrite (k : Nat) (v : Word)
  /-- POOL_FORMAT_DONE (R377). -/
  | poolFormatDone (k : Nat)
  /-- BUFFER_REQUEST (R379). -/
  | bufferRequest (id : Nat)
  /-- CACHE_REFILL (R380). -/
  | cacheRefill (k : Nat)
  /-- GRANT_QUEUE_TIMEOUT (R382). -/
  | grantQueueTimeout (id : Nat)
  /-- BUFFER_FREE (R386). -/
  | bufferFree (f : Nat) (v : Word)
  /-- BUFFER_SHARE (R385). -/
  | bufferShare (f : Nat) (v : Word)
  /-- GRANT_REGISTER_READ (R390). -/
  | grantRegisterRead (f k : Nat)
  /-- GRANT_REGISTER_REFILL (R390). -/
  | grantRegisterRefill (f k : Nat)
  /-- RECLAIM_START (R391). -/
  | reclaimStart (v : Word)
  /-- RECLAIM_VISIT (R391). -/
  | reclaimVisit
  /-- CUPBOARD_SCRUB (R389). -/
  | cupboardScrub (k w : Nat) (e : Ecc)
  /-- HOST_LINK_TRAIN (R394). -/
  | hostLinkTrain (mode speed width : Nat) (lopt : Bool)
  /-- PERST_RESET (R421). -/
  | perstReset (e : PerstEvent)
  /-- FUNCTION_LEVEL_RESET (R420). -/
  | functionLevelReset (f : Nat)
  /-- SQ_DOORBELL (R400). -/
  | sqDoorbell (q : Nat) (v : Word)
  /-- CQ_CI_WRITE (R400). -/
  | cqCiWrite (q : Nat) (v : Word)
  /-- ENTRY_FETCH (R408). -/
  | entryFetch (q : Nat) (words : List Word)
  /-- NOP_ENTRY (R407). -/
  | nopEntry (q : Nat)
  /-- SEND_PIPELINE (R407). -/
  | sendPipeline (q : Nat)
  /-- SEND_DIRECT (R407). -/
  | sendDirect (q : Nat)
  /-- TICKET_ENTRY (R407). -/
  | ticketEntry (q : Nat)
  /-- RECV_ENTRY (R407). -/
  | recvEntry (q : Nat)
  /-- COMPLETION_WRITE (R412). -/
  | completionWrite (q : Nat)
  /-- COMPLETION_SIGNAL (R416). -/
  | completionSignal (q : Nat)
  /-- QP_PAUSE (R409). -/
  | qpPause (q : Nat)
  /-- QP_RESUME (R409). -/
  | qpResume (q : Nat)
  /-- QP_RESET (R419). -/
  | qpReset (q : Nat)
  /-- HALT_CLEAR (R411). -/
  | haltClear
  /-- FORMAT_GEN_WRITE (R403). -/
  | formatGenWrite (f : Nat) (v : Word)
  /-- QP_ENABLE (R423). -/
  | qpEnable (q : Nat) (v : Word)
  /-- FN_QP_WRITE (R398). -/
  | fnQpWrite (f : Nat) (v : Word)
  /-- HOST_SLEEP_ENTER (R418). -/
  | hostSleepEnter (f : Nat) (l2 : Bool)
  /-- HOST_WAKE (R418). -/
  | hostWake (f : Nat)
  /-- HOST_MEM_ACCESS (R396). -/
  | hostMemAccess (bar4 : Bool) (range off : Nat) (write : Option (List Byte × Bool)) (len : Nat) (hold : Bool)
  /-- SOURCE_ASSERT (R427). -/
  | sourceAssert (src : Nat)
  /-- BELL_PULL (R428). -/
  | bellPull (v : Word)
  /-- ARBITRATE (R431). -/
  | arbitrate (t : Nat) (parity : List Nat)
  /-- VECTOR_COMMIT (R432). -/
  | vectorCommit (e : Nat)
  /-- ATTIC_VECTOR (R435). -/
  | atticVector
  /-- MSIX_SEND (R437). -/
  | msixSend (fn vec : Nat)
  /-- EOI_WRITE (R436). -/
  | eoiWrite (fn : Nat) (v : Word)
  /-- ROUTE_WRITE (R430). -/
  | routeWrite (src : Nat) (v : Word)
  /-- ROUTE_SCRUB (R439). -/
  | routeScrub (src : Nat) (e : Ecc)
  /-- CELLAR_READ (R448). -/
  | cellarRead (req addr len : Nat) (e : Ecc)
  /-- CELLAR_WRITE (R447). -/
  | cellarWrite (req addr : Nat) (data : List Byte) (poison : Bool)
  /-- BANK_REFRESH (R451). -/
  | bankRefresh (stack pch bank : Nat)
  /-- SELF_REFRESH_ENTRY (R452). -/
  | selfRefreshEntry (k : Nat)
  /-- SELF_REFRESH_EXIT (R453). -/
  | selfRefreshExit (k : Nat)
  /-- ACTIVATION_WINDOW_END (R455). -/
  | activationWindowEnd
  /-- CA_PARITY_ALERT (R456). -/
  | caParityAlert (stack ch : Nat)
  /-- PATROL_SCRUB (R460). -/
  | patrolScrub (stack pch : Nat) (e : Ecc)
  /-- SCRUB_WAKE (R461). -/
  | scrubWake (k : Nat)
  /-- CEL_PART_WRITE (R445). -/
  | celPartWrite (v : Word)
  /-- CEL_LOCK_WRITE (R445). -/
  | celLockWrite (v : Word)
  /-- COLD_START (R495). -/
  | coldStart (slotStrap flashStrap : Nat) (testMode : Bool)
  /-- VDD_AON_LOSS (R544). -/
  | vddAonLoss
  /-- BOOT_STAGE_END (R477). -/
  | bootStageEnd (ok progOk : Bool)
  /-- CONFIG_RECORD (R473). -/
  | configRecord
  /-- POLL_TIMEOUT (R473). -/
  | pollTimeout
  /-- DELAY_EXPIRE (R473). -/
  | delayExpire
  /-- RESERVED_LOFT_START (R479). -/
  | reservedLoftStart
  /-- FL_READ (R484). -/
  | flRead (a : Nat)
  /-- FL_PROGRAM (R484). -/
  | flProgram (a : Nat)
  /-- FL_ERASE_4K (R484). -/
  | flErase4k (a : Nat)
  /-- FL_ERASE_64K (R484). -/
  | flErase64k (a : Nat)
  /-- SLOT_TRY (R485). -/
  | slotTry (tries : Nat) (ok : Bool)
  /-- SLOT_CONFIRM (R485). -/
  | slotConfirm (tries : Nat) (ok fuseOk : Bool)
  /-- SLOT_REVERT (R485). -/
  | slotRevert (tries : Nat) (ok : Bool)
  /-- AUTO_CONFIRM (R486). -/
  | autoConfirm (ok fuseOk : Bool)
  /-- TIME_TICK (R487). -/
  | timeTick
  /-- TIME_ADJ_WRITE (R488). -/
  | timeAdjWrite (v : Word)
  /-- TIME_SET_WRITE (R488). -/
  | timeSetWrite (v : Word)
  /-- TIME_INCR_WRITE (R487). -/
  | timeIncrWrite (v : Word)
  /-- POWER_TARGET_WRITE (R490). -/
  | powerTargetWrite (v : Word)
  /-- SHUTTER_COMPLETE (R493). -/
  | shutterComplete
  /-- SHUTTERED_WAKE (R494). -/
  | shutteredWake (cause : Nat)
  /-- SLICE_GATE (R491). -/
  | sliceGate (sl : Nat)
  /-- PERIODIC_SCRUB_WAKE (R492). -/
  | periodicScrubWake
  /-- DEVICE_RESTART (R495). -/
  | deviceRestart
  /-- SLICE_RESTART (R496). -/
  | sliceRestart (sl : Nat)
  /-- SIDEBAND_ACCESS (R500). -/
  | sidebandAccess (addr : Nat) (write : Bool) (off : Nat) (v : Word)
  /-- REPORT_PRESENT (R503). -/
  | reportPresent (src inst : Nat) (info : Word)
  /-- REPORT_TAKE (R507). -/
  | reportTake
  /-- SAFE_ENTER_WRITE (R513). -/
  | safeEnterWrite
  /-- SAFE_EXIT_WRITE (R515). -/
  | safeExitWrite
  /-- SAFE_AUTO_EXIT (R515). -/
  | safeAutoExit
  /-- ISOLATION_RELEASE (R509). -/
  | isolationRelease (v : Word)
  /-- MONITOR_DETECT (R511). -/
  | monitorDetect (src inst : Nat) (info : Word)
  /-- SELF_CHECK (R517). -/
  | selfCheck (parityBad heartbeatLost : Bool)
  /-- ALIVE_TOGGLE (R518). -/
  | aliveToggle
  /-- INJECT_ONE_BIT (R520). -/
  | injectOneBit (v : Word)
  /-- INJECT_TWO_BITS (R520). -/
  | injectTwoBits (v : Word)
  /-- INJECT_REPORT (R520). -/
  | injectReport (v : Word)
  /-- INJECT_PARITY (R520). -/
  | injectParity (v : Word)
  /-- LOG_SELECT (R522). -/
  | logSelect (v : Word)
  /-- COUNTER_SNAPSHOT (R527). -/
  | counterSnapshot
  /-- SNAP_WRITE (R527). -/
  | snapWrite
  /-- DUMP_COMPLETE (R529). -/
  | dumpComplete
  /-- COUNTER_READ (R526). -/
  | counterRead
  /-- COUNTER_DIRECTORY_SELECT (R525). -/
  | counterDirectorySelect (v : Word)
  /-- DUMP_CFG_WRITE (R533). -/
  | dumpCfgWrite (a : Nat) (v : Word)
  /-- COUNTER_SCRUB (R528). -/
  | counterScrub (ev o ix : Nat) (e : Ecc)
  /-- MONITOR_CLEAR (R511). -/
  | monitorClear (src inst : Nat)
  /-- STACK_TEMPERATURE_CHANGE (R451). -/
  | stackTemperatureChange (k temp : Nat)
  /-- CONFIG_REQUEST (R482). -/
  | configRequest (f : Nat) (field : CfgField) (write : Option Bool)
  /-- FLASH_COMMAND_END (R484). -/
  | flashCommandEnd (ok : Bool)
  /-- HOST_DMA_COMPLETION (R413). -/
  | hostDmaCompletion (q idx : Nat) (data : Option (List Byte × Bool))
  /-- BACK_INVALIDATE_RESPONSE (R397). -/
  | backInvalidateResponse (line : Nat)
  /-- JTAG_ACCESS (R554). -/
  | jtagAccess (ir : Nat) (tdi : List Bool)
  /-- DYNAMIC_ADDRESS_ASSIGN (R553). -/
  | dynamicAddressAssign (a : Option Nat)
deriving DecidableEq, Repr

end Sys2Proof
end

