-- ==== Sys2Proof/Decode.lean ====
section
/-! DEFINITION. Decoding: no row of the opcode table has bits. -/

namespace Sys2Proof

/-- The command that a word spells by the table's bits: none, since the table gives no row any. -/
def decodeTableWord (_nbits _w : Nat) : Option Instr := none

end Sys2Proof
end

