-- ==== Sys2Proof/Machine/Table.lean ====
section
/-! DEFINITION. Operations over sparse tables and sorted sets of numbers. -/

namespace Sys2Proof.Machine

/-- The entry listed at index `k`, if one is. -/
def tfind {α : Type} : Tbl α → Nat → Option α
  | [], _ => none
  | (j, v) :: t, k => if k = j then some v else tfind t k

/-- The value at index `k`, `d` where none is listed. -/
def tget {α : Type} (d : α) (t : Tbl α) (k : Nat) : α := (tfind t k).getD d

/-- Lists `v` at index `k`, in place of what stood there. -/
def tput {α : Type} : Tbl α → Nat → α → Tbl α
  | [], k, v => [(k, v)]
  | (j, w) :: t, k, v =>
    if k < j then (k, v) :: (j, w) :: t
    else if k = j then (k, v) :: t
    else (j, w) :: tput t k v

/-- Takes index `k` out of the table. -/
def tdel {α : Type} (t : Tbl α) (k : Nat) : Tbl α := t.filter fun p => p.1 != k

/-- Writes `v` at index `k`; the value `d` an unlisted index holds is never listed. -/
def tset {α : Type} [DecidableEq α] (d : α) (t : Tbl α) (k : Nat) (v : α) : Tbl α :=
  if v = d then tdel t k else tput t k v

/-- Changes the value at index `k`. -/
def tmod {α : Type} (d : α) (t : Tbl α) (k : Nat) (f : α → α) : Tbl α := tput t k (f (tget d t k))

/-- The indices of a table. -/
def tkeys {α : Type} (t : Tbl α) : List Nat := t.map (·.1)

/-- The entries of the indices in `lo ≤ k < hi` taken out. -/
def tclear {α : Type} (t : Tbl α) (lo hi : Nat) : Tbl α := t.filter fun p => !(lo ≤ p.1 && p.1 < hi)

/-- Indices strictly rising. -/
def rising {α : Type} : Tbl α → Bool
  | [] => true
  | [_] => true
  | (i, _) :: (j, w) :: t => decide (i < j) && rising ((j, w) :: t)

/-- A number put into a sorted set. -/
def sadd : List Nat → Nat → List Nat
  | [], k => [k]
  | j :: t, k => if k < j then k :: j :: t else if k = j then j :: t else j :: sadd t k

/-- A number taken out of a set. -/
def sdel (l : List Nat) (k : Nat) : List Nat := l.filter (· != k)

/-- Membership in a set of numbers. -/
def shas (l : List Nat) (k : Nat) : Bool := l.any (· == k)

/-- The numbers below `n`, smallest first. -/
def upto (n : Nat) : List Nat := List.range n

/-- The element at position `i` of a list replaced. -/
def lset {α : Type} (l : List α) (i : Nat) (v : α) : List α := l.set i v

end Sys2Proof.Machine
end

