-- ==== Sys2Proof/Machine/Memory.lean ====
section
/-! DEFINITION. Byte memories: a sparse table of bytes in one canonical form. `d` is what an
unlisted address reads as. -/

namespace Sys2Proof.Machine

/-- The canonical form: addresses strictly rising, and no entry equal to what an unlisted address
reads as (DESIGN CHOICE, unsafe: log entry 6). -/
def Memory.wf (d : Byte) (m : Tbl Byte) : Bool := rising m && m.all fun p => p.2 != d

/-- `n` bytes from address `a`. -/
def memRead (d : Byte) (m : Tbl Byte) (a n : Nat) : List Byte := (upto n).map fun i => tget d m (a + i)

/-- Bytes written from address `a` on. -/
def memWrite (d : Byte) (m : Tbl Byte) (a : Nat) : List Byte → Tbl Byte
  | [] => m
  | b :: bs => memWrite d (tset d m a b) (a + 1) bs

/-- Every byte in `a ≤ x < a + n` returned to what an unlisted address reads as. -/
def memErase (m : Tbl Byte) (a n : Nat) : Tbl Byte := tclear m a (a + n)

/-- The number that little-endian bytes spell. -/
def leNat : List Byte → Nat
  | [] => 0
  | b :: bs => b.toNat + 256 * leNat bs

/-- The number that big-endian bytes spell. -/
def beNat (bs : List Byte) : Nat := leNat bs.reverse

/-- A number as `n` little-endian bytes. -/
def natLe : Nat → Nat → List Byte
  | 0, _ => []
  | n + 1, v => BitVec.ofNat 8 v :: natLe n (v / 256)

/-- A number as `n` big-endian bytes. -/
def natBe (n v : Nat) : List Byte := (natLe n v).reverse

/-- A byte string cut into pieces that end at multiples of `blk`, from address `a`; `fuel` bounds
the number of pieces. -/
def pieces (blk : Nat) : Nat → Nat → Nat → List (Nat × Nat)
  | 0, _, _ => []
  | fuel + 1, a, n =>
    if n = 0 then [] else
    let k := min n (blk - a % blk)
    (a, k) :: pieces blk fuel (a + k) (n - k)

/-- The bytes `lo ≤ i < lo + n` of a string, 0 beyond its end. -/
def slice (bs : List Byte) (lo n : Nat) : List Byte := (upto n).map fun i => bs.getD (lo + i) 0

/-- A string with `new` written over it from position `i`; it does not grow. -/
def splice (bs : List Byte) (i : Nat) (new : List Byte) : List Byte :=
  bs.take i ++ new.take (bs.length - i) ++ bs.drop (i + new.length)

end Sys2Proof.Machine
end

