-- ==== Sys2Proof/Machine/Crc.lean ====
section
/-! DEFINITION. Cyclic redundancy checks in their reflected form, and ones'-complement sums. -/

namespace Sys2Proof.Machine

/-- One bit of a reflected CRC. -/
def crcBit (poly crc : Nat) : Nat := if crc % 2 = 1 then Nat.xor (crc / 2) poly else crc / 2

/-- `n` bits of a reflected CRC. -/
def crcBits (poly : Nat) : Nat → Nat → Nat
  | 0, crc => crc
  | n + 1, crc => crcBits poly n (crcBit poly crc)

/-- A reflected CRC over bytes, without its final inversion. -/
def crcRefl (poly init : Nat) (bs : List Byte) : Nat :=
  bs.foldl (fun c b => crcBits poly 8 (Nat.xor c b.toNat)) init

/-- The CRC-32 of IEEE 802.3 (PRESUMED, unsafe: log entry 19). -/
def crc32 (bs : List Byte) : Nat := Nat.xor (crcRefl 0xEDB88320 0xFFFFFFFF bs) 0xFFFFFFFF

/-- The CRC-32C, Castagnoli polynomial, with initial value `seed` and final inversion. -/
def crc32cSeed (seed : Nat) (bs : List Byte) : Nat := Nat.xor (crcRefl 0x82F63B78 seed bs) 0xFFFFFFFF

def crc32c (bs : List Byte) : Nat := crc32cSeed 0xFFFFFFFF bs

/-- The FCS bytes of a frame, in the order they stand on the wire; inverted where it is poisoned. -/
def fcsOf (bs : List Byte) (bad : Bool) : List Byte :=
  natLe 4 (if bad then Nat.xor (crc32 bs) 0xFFFFFFFF else crc32 bs)

/-- 16-bit ones'-complement addition. -/
def onesAdd (a b : Nat) : Nat := let t := a + b; if 65536 ≤ t then t - 65535 else t

/-- The ones'-complement sum of 16-bit big-endian words; an odd byte stands high. -/
def onesSum : List Byte → Nat
  | [] => 0
  | [a] => a.toNat * 256
  | a :: b :: t => onesAdd (a.toNat * 256 + b.toNat) (onesSum t)

/-- A 16-bit checksum after a 16-bit word `old` of its span became `new` (incremental update). -/
def csumUpdate (sum old new : Nat) : Nat :=
  65535 - onesAdd (onesAdd (65535 - sum) (65535 - old)) new

end Sys2Proof.Machine
end

