-- ==== Sys2Proof/Config.lean ====
section
/-! DEFINITION. What an implementation fixes and what the spec leaves open. Every constant here is
opaque: no proof can see its value. -/

namespace Sys2Proof.Config

/-- Value number `n` of a bit string that the spec leaves open (DESIGN CHOICE, safe: log entry 2). -/
opaque freeBits : Nat → Nat

/-- BASE of an event in CNT_DIR: the spec names the fields of CNT_DIR_BASE and no values
(DESIGN CHOICE, safe: log entry 7). -/
opaque counterBase : Nat → Nat

/-- SHA-384 under FIPS 180-4 of a byte string: 384 bits (UNVERIFIED, safe: log entry 30). -/
opaque sha384Bits : List Byte → BitVec 384

/-- The same as a number, the first byte of the digest highest. -/
def sha384 (b : List Byte) : Nat := (sha384Bits b).toNat

/-- Verification of an ECDSA P-384 signature under FIPS 186-5: public key, digest, signature
(UNVERIFIED, safe: log entry 30). -/
opaque ecdsaOk : List Byte → Nat → List Byte → Bool

/-- Decryption and authentication of a PATCH section under AES-256-GCM with the family key:
header, nonce, ciphertext, tag (UNVERIFIED, safe: log entry 30). -/
opaque aesGcmOk : List Byte → List Byte → List Byte → List Byte → Bool

/-- The 64-bit test key in the fuses (R519). -/
opaque testKey : Nat

end Sys2Proof.Config
end

