-- ==== Sys2Proof/Machine/Events.lean ====
section
/-! DEFINITION. The counted events and the counter directory (R523 to R525): in each window the
events take ordinals from 0 in the order of that window's counted-event tables, each with its
OUTER and INNER counts. An event is named by window × 256 + ordinal. -/

namespace Sys2Proof.Machine


/-! ## Window 0x00 (R502) -/

def evAtcBoot : Nat := 0x0000
def evAtcSlotDefect : Nat := 0x0001
def evAtcGate : Nat := 0x0002
def evAtcScrubWakeSlice : Nat := 0x0003
def evAtcScrubWakeLoft : Nat := 0x0004
def evAtcShutter : Nat := 0x0005
def evAtcShutterDiscard : Nat := 0x0006
def evAtcSliceRestart : Nat := 0x0007
def evAtcRestartDiscard : Nat := 0x0008
def evAtcTimeStep : Nat := 0x0009

/-- OUTER and INNER of the events of window 0x00, in ordinal order. -/
def dir00 : List (Nat × Nat) :=
  [(1, 1), (2, 1), (16, 1), (16, 1), (64, 1), (1, 1), (1, 1), (16, 1),
   (16, 1), (1, 1)]

/-! ## Window 0x01 (R534) -/

def evMstReport : Nat := 0x0100
def evMstMerged : Nat := 0x0101
def evMstSafeEntry : Nat := 0x0102
def evMstRecovery : Nat := 0x0103
def evMstSafeDiscard : Nat := 0x0104
def evMstIsoDiscard : Nat := 0x0105

/-- OUTER and INNER of the events of window 0x01, in ordinal order. -/
def dir01 : List (Nat × Nat) :=
  [(1, 256), (1, 1), (1, 1), (1, 1), (512, 1), (512, 1)]

/-! ## Window 0x02 (R534) -/

def evCntDump : Nat := 0x0200
def evCntDumpSkip : Nat := 0x0201

/-- OUTER and INNER of the events of window 0x02, in ordinal order. -/
def dir02 : List (Nat × Nat) :=
  [(1, 1), (1, 1)]

/-! ## Window 0x03 (R424) -/

def evDwyTaken : Nat := 0x0300
def evDwyCmpl : Nat := 0x0301
def evDwyHeld : Nat := 0x0302
def evDwyCqFull : Nat := 0x0303
def evDwyMalformed : Nat := 0x0304
def evDwyHalted : Nat := 0x0305
def evDwyStatus : Nat := 0x0306
def evDwyCmplDiscard : Nat := 0x0307
def evDwyFetchWaitPool : Nat := 0x0308
def evDwySignal : Nat := 0x0309
def evDwySignalDeferred : Nat := 0x030a
def evDwyPme : Nat := 0x030b
def evDwyBisnp : Nat := 0x030c
def evDwyLinkDown : Nat := 0x030d

/-- OUTER and INNER of the events of window 0x03, in ordinal order. -/
def dir03 : List (Nat × Nat) :=
  [(16384, 1), (16384, 1), (16384, 1), (16384, 1), (64, 1), (1, 1), (64, 16), (64, 1),
   (64, 1), (64, 1), (64, 1), (64, 1), (1, 1), (1, 1)]

/-! ## Window 0x04 (R441) -/

def evBelClaim : Nat := 0x0400
def evBelSwitch : Nat := 0x0401
def evBelTailchain : Nat := 0x0402
def evBelRearm : Nat := 0x0403
def evBelBellCoalesced : Nat := 0x0404
def evBelBellBad : Nat := 0x0405
def evBelMsixSent : Nat := 0x0406
def evBelMsixCoalesced : Nat := 0x0407
def evBelEoiBad : Nat := 0x0408
def evBelEccCorr : Nat := 0x0409
def evBelEccUncorr : Nat := 0x040a
def evBelParErr : Nat := 0x040b

/-- OUTER and INNER of the events of window 0x04, in ordinal order. -/
def dir04 : List (Nat × Nat) :=
  [(4096, 1), (577, 1), (577, 1), (4096, 1), (1, 1), (1, 1), (64, 1), (64, 1),
   (64, 1), (1, 1), (1, 1), (1, 1)]

/-! ## Window 0x05 (R63) -/

def evPchRxFrames : Nat := 0x0500
def evPchRxBytes : Nat := 0x0501
def evPchRxFcsErr : Nat := 0x0502
def evPchRxPoison : Nat := 0x0503
def evPchRxRunt : Nat := 0x0504
def evPchRxOversize : Nat := 0x0505
def evPchTxFrames : Nat := 0x0506
def evPchTxBytes : Nat := 0x0507
def evPchTxPoisonFcs : Nat := 0x0508
def evPchTxPoisonUnderrun : Nat := 0x0509
def evPchTxPoisonBuffer : Nat := 0x050a
def evPchTxLinkAbort : Nat := 0x050b
def evPchTxOversize : Nat := 0x050c
def evPchFecCorrected : Nat := 0x050d
def evPchFecUncorrectable : Nat := 0x050e
def evPchPfcRx : Nat := 0x050f
def evPchPfcTx : Nat := 0x0510
def evPchMacctlDiscard : Nat := 0x0511
def evPchHelloRx : Nat := 0x0512
def evPchHelloTx : Nat := 0x0513
def evPchHelloMalformed : Nat := 0x0514
def evPchHelloRateDrop : Nat := 0x0515
def evPchHelloSeqGap : Nat := 0x0516
def evPchHelloHealthUnknown : Nat := 0x0517
def evPchPeerDown : Nat := 0x0518
def evPchTsLost : Nat := 0x0519
def evPchLinkDown : Nat := 0x051a

/-- OUTER and INNER of the events of window 0x05, in ordinal order. -/
def dir05 : List (Nat × Nat) :=
  [(512, 1), (512, 1), (512, 1), (512, 1), (512, 1), (512, 1), (512, 1), (512, 1),
   (512, 1), (512, 1), (512, 1), (512, 1), (512, 1), (512, 1), (512, 1), (512, 8),
   (512, 8), (512, 1), (512, 1), (512, 1), (512, 1), (512, 1), (512, 1), (512, 1),
   (512, 1), (512, 1), (512, 1)]

/-! ## Window 0x06 (R95) -/

def evThrHeads : Nat := 0x0600
def evThrComplete : Nat := 0x0601
def evThrSlow : Nat := 0x0602
def evThrFail : Nat := 0x0603
def evThrReason : Nat := 0x0604
def evThrCsumBad : Nat := 0x0605
def evThrStepsHigh : Nat := 0x0606
def evThrEccCorr : Nat := 0x0607
def evThrEccUncorr : Nat := 0x0608
def evThrUcReject : Nat := 0x0609

/-- OUTER and INNER of the events of window 0x06, in ordinal order. -/
def dir06 : List (Nat × Nat) :=
  [(16, 1), (16, 1), (16, 1), (16, 1), (16, 255), (16, 1), (16, 1), (16, 1),
   (16, 1), (1, 1)]

/-! ## Window 0x07 (R137) -/

def evHlwHit : Nat := 0x0700
def evHlwMiss : Nat := 0x0701
def evHlwCause : Nat := 0x0702
def evHlwDrop : Nat := 0x0703
def evHlwLofts : Nat := 0x0704
def evHlwPass2 : Nat := 0x0705
def evHlwPass3 : Nat := 0x0706
def evHlwParked : Nat := 0x0707
def evHlwHeld : Nat := 0x0708
def evHlwReentryWait : Nat := 0x0709
def evHlwHeadqDrop : Nat := 0x070a
def evHlwEccCorr : Nat := 0x070b
def evHlwEccUncorr : Nat := 0x070c
def evHlwGenCommit : Nat := 0x070d
def evHlwGenForced : Nat := 0x070e
def evHlwCmdRefused : Nat := 0x070f

/-- OUTER and INNER of the events of window 0x07, in ordinal order. -/
def dir07 : List (Nat × Nat) :=
  [(16, 192), (16, 192), (512, 14), (512, 1), (16, 1), (16, 1), (16, 1), (16, 1),
   (16, 1), (16, 1), (512, 1), (16, 1), (16, 1), (1, 1), (1, 1), (1, 1)]

/-! ## Window 0x08 (R163) -/

def evGalMoves : Nat := 0x0800
def evGalCmdDone : Nat := 0x0801
def evGalCmdRefused : Nat := 0x0802
def evGalResultRange : Nat := 0x0803
def evGalScrubMismatch : Nat := 0x0804
def evGalRepaired : Nat := 0x0805
def evGalShadowUncorr : Nat := 0x0806
def evGalJobRecords : Nat := 0x0807

/-- OUTER and INNER of the events of window 0x08, in ordinal order. -/
def dir08 : List (Nat × Nat) :=
  [(16, 1), (16, 1), (16, 1), (16, 1), (16, 1), (16, 1), (16, 1), (1, 1)]

/-! ## Window 0x09 (R195) -/

def evLrdHit : Nat := 0x0900
def evLrdMiss : Nat := 0x0901
def evLrdSearchErr : Nat := 0x0902
def evLrdCellarBusy : Nat := 0x0903
def evLrdLearn : Nat := 0x0904
def evLrdMove : Nat := 0x0905
def evLrdLearnFull : Nat := 0x0906
def evLrdLearnLateFull : Nat := 0x0907
def evLrdLearnConflict : Nat := 0x0908
def evLrdLearnDrop : Nat := 0x0909
def evLrdStaticMove : Nat := 0x090a
def evLrdMoveDamped : Nat := 0x090b
def evLrdAged : Nat := 0x090c
def evLrdFlushed : Nat := 0x090d
def evLrdCmdDone : Nat := 0x090e
def evLrdCmdRefused : Nat := 0x090f
def evLrdEccCorr : Nat := 0x0910
def evLrdEccUncorr : Nat := 0x0911

/-- OUTER and INNER of the events of window 0x09, in ordinal order. -/
def dir09 : List (Nat × Nat) :=
  [(64, 1), (64, 1), (64, 1), (1, 1), (64, 1), (64, 1), (64, 1), (64, 1),
   (64, 1), (1, 1), (64, 1), (64, 1), (64, 1), (64, 1), (1, 1), (1, 1),
   (1, 1), (1, 1)]

/-! ## Window 0x0A (R234) -/

def evCrwCalls : Nat := 0x0a00
def evCrwCacheHit : Nat := 0x0a01
def evCrwCacheMiss : Nat := 0x0a02
def evCrwClass : Nat := 0x0a03
def evCrwReason : Nat := 0x0a04
def evCrwEpochStale : Nat := 0x0a05
def evCrwSetAlloc : Nat := 0x0a06
def evCrwXlateUp : Nat := 0x0a07
def evCrwXlateDown : Nat := 0x0a08
def evCrwXlateDrop : Nat := 0x0a09
def evCrwXlateNomark : Nat := 0x0a0a
def evCrwTgtMismatch : Nat := 0x0a0b
def evCrwRecordBad : Nat := 0x0a0c
def evCrwEccCorr : Nat := 0x0a0d
def evCrwEccUncorr : Nat := 0x0a0e
def evCrwBuildGroups : Nat := 0x0a0f
def evCrwSubstitute : Nat := 0x0a10
def evCrwDownMissing : Nat := 0x0a11
def evCrwCopyOutcome : Nat := 0x0a12
def evCrwNoticeSent : Nat := 0x0a13
def evCrwNoticeRateDrop : Nat := 0x0a14
def evCrwNoticeUnbuilt : Nat := 0x0a15
def evCrwMigMarked : Nat := 0x0a16
def evCrwMigDrainTimeout : Nat := 0x0a17

/-- OUTER and INNER of the events of window 0x0A, in ordinal order. -/
def dir0A : List (Nat × Nat) :=
  [(1, 1), (1, 1), (1, 1), (16, 8), (1, 256), (1, 1), (1, 1), (512, 1),
   (512, 1), (512, 1), (512, 1), (512, 1), (1, 1), (1, 1), (1, 1), (1, 1),
   (1, 1), (1, 1), (512, 7), (16, 5), (16, 1), (16, 1), (1, 1), (1, 1)]

/-! ## Window 0x0B (R268) -/

def evChkAppend : Nat := 0x0b00
def evChkStrip : Nat := 0x0b01
def evChkVerifyPass : Nat := 0x0b02
def evChkVerifyFail : Nat := 0x0b03
def evChkAppendFail : Nat := 0x0b04
def evChkSkip : Nat := 0x0b05
def evChkRespMarked : Nat := 0x0b06

/-- OUTER and INNER of the events of window 0x0B, in ordinal order. -/
def dir0B : List (Nat × Nat) :=
  [(16, 1), (16, 1), (64, 1), (64, 5), (16, 1), (16, 1), (512, 1)]

/-! ## Window 0x0C (R304) -/

def evStwEnqUc : Nat := 0x0c00
def evStwEnqMc : Nat := 0x0c01
def evStwRefuseQfull : Nat := 0x0c02
def evStwRefuseBuffull : Nat := 0x0c03
def evStwHeadroomDrop : Nat := 0x0c04
def evStwRxNobuf : Nat := 0x0c05
def evStwXoff : Nat := 0x0c06
def evStwBadDest : Nat := 0x0c07
def evStwMcEmpty : Nat := 0x0c08
def evStwGroupEmpty : Nat := 0x0c09
def evStwSpillFrames : Nat := 0x0c0a
def evStwSpillReturn : Nat := 0x0c0b
def evStwLatch : Nat := 0x0c0c
def evStwSpillLost : Nat := 0x0c0d
def evStwMcCopyDrop : Nat := 0x0c0e
def evStwPortDownDrop : Nat := 0x0c0f
def evStwFlushed : Nat := 0x0c10
def evStwCtFrames : Nat := 0x0c11
def evStwCtLenMismatch : Nat := 0x0c12
def evStwMirrorCopy : Nat := 0x0c13
def evStwMirrorDrop : Nat := 0x0c14
def evStwSample : Nat := 0x0c15
def evStwSampleDrop : Nat := 0x0c16
def evStwBufCorr : Nat := 0x0c17
def evStwBufUncorr : Nat := 0x0c18
def evStwXbarCrc : Nat := 0x0c19

/-- OUTER and INNER of the events of window 0x0C, in ordinal order. -/
def dir0C : List (Nat × Nat) :=
  [(16, 1), (16, 1), (512, 8), (512, 8), (512, 1), (512, 1), (512, 8), (16, 1),
   (16, 1), (16, 1), (16, 1), (16, 1), (16, 1), (16, 1), (512, 1), (512, 1),
   (512, 1), (512, 1), (512, 1), (8, 1), (8, 1), (16, 64), (16, 64), (16, 1),
   (16, 1), (16, 1)]

/-! ## Window 0x0D (R331) -/

def evShtPolGreen : Nat := 0x0d00
def evShtPolYellow : Nat := 0x0d01
def evShtPolRed : Nat := 0x0d02
def evShtYellowSkip : Nat := 0x0d03
def evShtEcnMark : Nat := 0x0d04
def evShtEcnNotEct : Nat := 0x0d05
def evShtAgeDrop : Nat := 0x0d06
def evShtHoldDecision : Nat := 0x0d07
def evShtSampRecord : Nat := 0x0d08
def evShtEccCorr : Nat := 0x0d09
def evShtPolUncorr : Nat := 0x0d0a
def evShtShaperUncorr : Nat := 0x0d0b

/-- OUTER and INNER of the events of window 0x0D, in ordinal order. -/
def dir0D : List (Nat × Nat) :=
  [(16, 1), (16, 16384), (16, 16384), (16, 1), (4096, 1), (4096, 1), (4096, 1), (512, 1),
   (1, 1), (16, 1), (16, 1), (16, 1)]

/-! ## Window 0x0E (R375) -/

def evLftTickets : Nat := 0x0e00
def evLftTicketDrop : Nat := 0x0e01
def evLftTicketDead : Nat := 0x0e02
def evLftBadProg : Nat := 0x0e03
def evLftTicketAbandoned : Nat := 0x0e04
def evLftEmit : Nat := 0x0e05
def evLftReinject : Nat := 0x0e06
def evLftHost : Nat := 0x0e07
def evLftDone : Nat := 0x0e08
def evLftEndFull : Nat := 0x0e09
def evLftIssue : Nat := 0x0e0a
def evLftIdleSlot : Nat := 0x0e0b
def evLftFault : Nat := 0x0e0c
def evLftEngineStop : Nat := 0x0e0d
def evLftDeadlock : Nat := 0x0e0e
def evLftLbSent : Nat := 0x0e0f
def evLftLbFull : Nat := 0x0e10
def evLftLbDiscard : Nat := 0x0e11
def evLftTblCmd : Nat := 0x0e12
def evLftWake : Nat := 0x0e13
def evLftEccCorr : Nat := 0x0e14
def evLftEccUncorr : Nat := 0x0e15

/-- OUTER and INNER of the events of window 0x0E, in ordinal order. -/
def dir0E : List (Nat × Nat) :=
  [(64, 1), (64, 1), (64, 1), (1, 1), (512, 1), (64, 1), (64, 1), (64, 1),
   (64, 1), (64, 1), (512, 1), (512, 1), (512, 10), (512, 1), (512, 1), (512, 1),
   (512, 1), (512, 1), (64, 1), (64, 1), (64, 1), (64, 1)]

/-! ## Window 0x0F (R392) -/

def evCupGrant : Nat := 0x0f00
def evCupFree : Nat := 0x0f01
def evCupUp : Nat := 0x0f02
def evCupNofit : Nat := 0x0f03
def evCupTicketNobuf : Nat := 0x0f04
def evCupWaited : Nat := 0x0f05
def evCupLevelEntry : Nat := 0x0f06
def evCupMisuse : Nat := 0x0f07
def evCupThreadExcess : Nat := 0x0f08
def evCupRingBad : Nat := 0x0f09
def evCupEccCorr : Nat := 0x0f0a
def evCupEccUncorr : Nat := 0x0f0b

/-- OUTER and INNER of the events of window 0x0F, in ordinal order. -/
def dir0F : List (Nat × Nat) :=
  [(8, 1), (8, 1), (8, 1), (1, 1), (16, 8), (16, 1), (8, 3), (64, 8),
   (512, 1), (8, 1), (1, 1), (1, 1)]

/-! ## Window 0x10 (R463) -/

def evCelRd : Nat := 0x1000
def evCelWr : Nat := 0x1001
def evCelRmw : Nat := 0x1002
def evCelRowHit : Nat := 0x1003
def evCelRowMiss : Nat := 0x1004
def evCelRefresh : Nat := 0x1005
def evCelRfm : Nat := 0x1006
def evCelSrEntry : Nat := 0x1007
def evCelSrWake : Nat := 0x1008
def evCelScrubWake : Nat := 0x1009
def evCelThrottle : Nat := 0x100a
def evCelCaAlert : Nat := 0x100b
def evCelCaReplayCmds : Nat := 0x100c
def evCelEccCorr : Nat := 0x100d
def evCelEccUncorr : Nat := 0x100e
def evCelPoisonRead : Nat := 0x100f
def evCelAccessRefused : Nat := 0x1010

/-- OUTER and INNER of the events of window 0x10, in ordinal order. -/
def dir10 : List (Nat × Nat) :=
  [(128, 1), (128, 1), (4, 1), (4, 1), (4, 1), (4, 1), (4, 1), (4, 1),
   (4, 1), (4, 1), (128, 1), (4, 1), (4, 1), (4, 1), (4, 1), (128, 1),
   (128, 1)]

/-- The events of a window, in ordinal order. -/
def dirOf (w : Nat) : List (Nat × Nat) :=
  match w with
  | 0x00 => dir00
  | 0x01 => dir01
  | 0x02 => dir02
  | 0x03 => dir03
  | 0x04 => dir04
  | 0x05 => dir05
  | 0x06 => dir06
  | 0x07 => dir07
  | 0x08 => dir08
  | 0x09 => dir09
  | 0x0A => dir0A
  | 0x0B => dir0B
  | 0x0C => dir0C
  | 0x0D => dir0D
  | 0x0E => dir0E
  | 0x0F => dir0F
  | 0x10 => dir10
  | _ => []

/-- OUTER and INNER of ordinal `n` of window `w`; `none` where the ordinal names no event. -/
def dirShape (w n : Nat) : Option (Nat × Nat) := (dirOf w)[n]?

/-- The key of the counter of event `e`, instance (o, i). -/
def ctrKey (e o i : Nat) : Nat := (e * 0x100000 + o) * 0x100000 + i

end Sys2Proof.Machine
end

