-- ==== Sys2Proof/Machine/RegMap.lean ====
section
/-! DEFINITION. The register map (R4, R10): one row per register or replicated register, with the
masks of its RW and RC bits, its reset value and its place. PF0 BAR0 offset `a` names a register
of a window; the function page of function `f` (R395) stands at 0x2000_0000 + 0x20_0000 × f. -/

namespace Sys2Proof.Machine

/-- How a register takes a write (R11, R12). -/
inductive RegKind where
  | plain
  | pairLo
  | pairHi
  | set
  | clr (back : Nat)
deriving DecidableEq, Repr

/-- A reset value that depends on the instance. -/
inductive RegRst where
  | mstSrcCfgReset
  | belRouteReset
  | thrConstReset
  | hlwPortDfltReset
  | actReset
  | cupPoolCfgReset
  | fnIdReset
deriving DecidableEq, Repr

/-- One row of the register map. -/
structure RegRow where
  base : Nat
  n : Nat := 1
  st : Nat := 4
  n2 : Nat := 1
  st2 : Nat := 4
  rw : Nat := 0
  rc : Nat := 0
  rst : Nat := 0
  rstf : Option RegRst := none
  kind : RegKind := .plain
deriving DecidableEq, Repr

/-- The indices of address `a` in a row, if the row holds it. -/
def RegRow.hit (r : RegRow) (a : Nat) : Option (Nat × Nat) :=
  if a < r.base then none else
  let d := a - r.base
  let i := if r.n = 1 then 0 else d / r.st
  let e := d - i * r.st
  let j := if r.n2 = 1 then 0 else e / r.st2
  if i < r.n ∧ j < r.n2 ∧ e = j * r.st2 then some (i, j) else none

/-- MST_SRC_CFG[s].ACTION at reset (R504). -/
def srcDefaultAction (s : Nat) : Nat :=
  if s = 0 ∨ s = 2 ∨ s = 3 ∨ s = 6 ∨ s = 8 then 3
  else if s = 4 ∨ s = 5 ∨ s = 0x24 ∨ s = 0x2C then 2
  else if s = 7 ∨ s = 0x11 ∨ s = 0x13 ∨ s = 0x15 ∨ s = 0x17 ∨ s = 0x1A ∨ s = 0x1C
      ∨ s = 0x1D ∨ s = 0x1E ∨ s = 0x20 ∨ s = 0x21 ∨ s = 0x23 ∨ s = 0x26 ∨ s = 0x27 ∨ s = 0x29
      ∨ s = 0x2A ∨ s = 0x2E ∨ s = 0x2F ∨ s = 0x31 ∨ s = 0x32 ∨ s = 0x33 then 1
  else 0

/-- The fixed target of a Bellboard source (R426): TKIND and TINDEX; `none` where it is routable. -/
def fixedTarget (s : Nat) : Option (Nat × Nat) :=
  if s < 512 then some (1, s)
  else if s < 1024 then some (1, s - 512)
  else if s < 1088 then some (3, s - 1024)
  else if s < 1152 then some (3, s - 1088)
  else if s < 1216 then some (3, s - 1152)
  else if s = 1216 then some (3, 0)
  else none

/-- The reset value of instance (i, j) of a row. -/
def RegRow.resetVal (r : RegRow) (i j : Nat) : Nat :=
  match r.rstf with
  | none => r.rst
  | some .mstSrcCfgReset => srcDefaultAction i * 2 ^ 29
  | some .belRouteReset =>
    match fixedTarget i with
    | some (k, t) => k * 2 ^ 25 + t * 2 ^ 16
    | none => 0
  | some .thrConstReset => if i = 0 then 0xB9AA else 0
  | some .hlwPortDfltReset => if j = 3 then 0xFF200000 else 0
  | some .actReset => if j = 3 then 0xFF000000 else 0
  | some .cupPoolCfgReset => 0x40000000 + 10 + i
  | some .fnIdReset => i

/-! ## Window 00: Attic (R501) -/

/-- ATC_VERSION. -/
def atcVersion : Nat := 0x00000000
/-- ATC_DEVID. -/
def atcDevid : Nat := 0x00000004
/-- ATC_STRAPS. -/
def atcStraps : Nat := 0x00000008
/-- ATC_BOOT_STATUS. -/
def atcBootStatus : Nat := 0x00000010
/-- ATC_BOOT_IMAGE. -/
def atcBootImage : Nat := 0x00000014
/-- ATC_BOOT_ERR. -/
def atcBootErr : Nat := 0x00000018
/-- ATC_FUSE. -/
def atcFuse : Nat := 0x0000001c
/-- ATC_SLOT_CTL. -/
def atcSlotCtl : Nat := 0x00000020
/-- ATC_FL_CMD. -/
def atcFlCmd : Nat := 0x00000030
/-- ATC_FL_STATUS. -/
def atcFlStatus : Nat := 0x00000034
/-- ATC_FL_DATA. -/
def atcFlData (i : Nat) : Nat := 0x00000100 + 0x4 * i
/-- ATC_PWR_CTL. -/
def atcPwrCtl : Nat := 0x00000200
/-- ATC_PWR_STATUS. -/
def atcPwrStatus : Nat := 0x00000204
/-- ATC_PWR_CFG. -/
def atcPwrCfg : Nat := 0x00000208
/-- ATC_GATED_LOFTS_LO. -/
def atcGatedLoftsLo : Nat := 0x00000210
/-- ATC_GATED_LOFTS_HI. -/
def atcGatedLoftsHi : Nat := 0x00000214
/-- ATC_WAKE_TIME_LO. -/
def atcWakeTimeLo : Nat := 0x00000218
/-- ATC_WAKE_TIME_HI. -/
def atcWakeTimeHi : Nat := 0x0000021c
/-- ATC_WAKE_SRC. -/
def atcWakeSrc : Nat := 0x00000220
/-- ATC_RESET. -/
def atcReset : Nat := 0x00000224
/-- ATC_RESET_STATUS. -/
def atcResetStatus : Nat := 0x00000228
/-- ATC_TIME_LO. -/
def atcTimeLo : Nat := 0x00000300
/-- ATC_TIME_HI. -/
def atcTimeHi : Nat := 0x00000304
/-- ATC_TIME_SET_LO. -/
def atcTimeSetLo : Nat := 0x00000308
/-- ATC_TIME_SET_HI. -/
def atcTimeSetHi : Nat := 0x0000030c
/-- ATC_TIME_INCR. -/
def atcTimeIncr : Nat := 0x00000310
/-- ATC_TIME_ADJ. -/
def atcTimeAdj : Nat := 0x00000314
/-- ATC_TIME_STATUS. -/
def atcTimeStatus : Nat := 0x00000318
/-- ATC_CTRL. -/
def atcCtrl : Nat := 0x00000320

/-- The registers of window 00 (R501). -/
def rowsAttic : List RegRow :=
  [ { base := 0x00000000, rst := 0x10000 }
  , { base := 0x00000004, rst := 0x71400101 }
  , { base := 0x00000008 }
  , { base := 0x00000010, rst := 0x10000000 }
  , { base := 0x00000014 }
  , { base := 0x00000018 }
  , { base := 0x0000001c }
  , { base := 0x00000020, rw := 0x7000000, rst := 0x3000000 }
  , { base := 0x00000030, rw := 0x7fffffff }
  , { base := 0x00000034, rc := 0x3, rst := 0x1a00 }
  , { base := 0x00000100, n := 64, st := 0x4, rw := 0xffffffff }
  , { base := 0x00000200, rw := 0x3 }
  , { base := 0x00000204, rc := 0x20000000 }
  , { base := 0x00000208, rw := 0xffff, rst := 0xa }
  , { base := 0x00000210, kind := .pairLo }
  , { base := 0x00000214, kind := .pairHi }
  , { base := 0x00000218, rw := 0xffffffff, kind := .pairLo }
  , { base := 0x0000021c, rw := 0xffffffff, kind := .pairHi }
  , { base := 0x00000220 }
  , { base := 0x00000224 }
  , { base := 0x00000228 }
  , { base := 0x00000300, kind := .pairLo }
  , { base := 0x00000304, kind := .pairHi }
  , { base := 0x00000308, kind := .pairLo }
  , { base := 0x0000030c, kind := .pairHi }
  , { base := 0x00000310, rw := 0xffffffff, rst := 0x28000000 }
  , { base := 0x00000314 }
  , { base := 0x00000318, rc := 0x40000000 }
  , { base := 0x00000320 } ]

/-! ## Window 01: Masthead (R533) -/

/-- MST_VERSION. -/
def mstVersion : Nat := 0x01000000
/-- MST_STATUS. -/
def mstStatus : Nat := 0x01000010
/-- MST_SAFE_CTL. -/
def mstSafeCtl : Nat := 0x01000014
/-- MST_SAFE_CFG. -/
def mstSafeCfg : Nat := 0x01000018
/-- MST_RECOV_CFG. -/
def mstRecovCfg : Nat := 0x0100001c
/-- MST_RECOV. -/
def mstRecov : Nat := 0x01000020
/-- MST_ALIVE_CFG. -/
def mstAliveCfg : Nat := 0x01000024
/-- MST_ESC_WINDOW. -/
def mstEscWindow : Nat := 0x01000028
/-- MST_TEMP. -/
def mstTemp : Nat := 0x0100002c
/-- MST_MON. -/
def mstMon : Nat := 0x01000030
/-- MST_NOTIFY. -/
def mstNotify : Nat := 0x01000034
/-- MST_ERR. -/
def mstErr : Nat := 0x01000038
/-- MST_LOG_NEXT. -/
def mstLogNext : Nat := 0x01000040
/-- MST_LOG_SEL. -/
def mstLogSel : Nat := 0x01000044
/-- MST_LOG_DATA. -/
def mstLogData (i : Nat) : Nat := 0x01000060 + 0x4 * i
/-- MST_FIRST. -/
def mstFirst (i : Nat) : Nat := 0x01000080 + 0x4 * i
/-- MST_SRC_CFG[i]. -/
def mstSrcCfg (i : Nat) : Nat := 0x01000100 + 0x4 * i
/-- MST_ISO_STATUS. -/
def mstIsoStatus : Nat := 0x01000600
/-- MST_ISO_CLR. -/
def mstIsoClr : Nat := 0x01000604
/-- MST_INJ_KEY_LO. -/
def mstInjKeyLo : Nat := 0x01000700
/-- MST_INJ_KEY_HI. -/
def mstInjKeyHi : Nat := 0x01000704
/-- MST_INJ_CTL. -/
def mstInjCtl : Nat := 0x01000708
/-- MST_INJ_TARGET. -/
def mstInjTarget : Nat := 0x0100070c

/-- The registers of window 01 (R533). -/
def rowsMasthead : List RegRow :=
  [ { base := 0x01000000, rst := 0x10000 }
  , { base := 0x01000010 }
  , { base := 0x01000014, rc := 0x4 }
  , { base := 0x01000018, rw := 0x8000ffff, rst := 0x800003e8 }
  , { base := 0x0100001c, rw := 0xffff, rst := 0x258 }
  , { base := 0x01000020 }
  , { base := 0x01000024, rw := 0xffff, rst := 0x1f4 }
  , { base := 0x01000028, rw := 0xffff, rst := 0x3e8 }
  , { base := 0x0100002c, rw := 0xff, rst := 0x64 }
  , { base := 0x01000030 }
  , { base := 0x01000034, rc := 0xf }
  , { base := 0x01000038, rc := 0x3 }
  , { base := 0x01000040 }
  , { base := 0x01000044, rw := 0x7fffffff }
  , { base := 0x01000060, n := 8, st := 0x4 }
  , { base := 0x01000080, n := 8, st := 0x4 }
  , { base := 0x01000100, n := 256, st := 0x4, rw := 0xfc00ffff, rstf := some .mstSrcCfgReset }
  , { base := 0x01000600 }
  , { base := 0x01000604 }
  , { base := 0x01000700, kind := .pairLo }
  , { base := 0x01000704, kind := .pairHi }
  , { base := 0x01000708, rw := 0x7ffffff }
  , { base := 0x0100070c, rw := 0x1fffffff } ]

/-! ## Window 02: Counters (R533) -/

/-- CNT_VERSION. -/
def cntVersion : Nat := 0x02000000
/-- CNT_DUMP_CFG. -/
def cntDumpCfg : Nat := 0x02000010
/-- CNT_DUMP_CTL. -/
def cntDumpCtl : Nat := 0x02000014
/-- CNT_DUMP_BASE_LO. -/
def cntDumpBaseLo : Nat := 0x02000018
/-- CNT_DUMP_BASE_HI. -/
def cntDumpBaseHi : Nat := 0x0200001c
/-- CNT_RD_SEL. -/
def cntRdSel : Nat := 0x02000020
/-- CNT_RD_LO. -/
def cntRdLo : Nat := 0x02000024
/-- CNT_RD_HI. -/
def cntRdHi : Nat := 0x02000028
/-- CNT_DIR_SEL. -/
def cntDirSel : Nat := 0x02000030
/-- CNT_DIR_BASE. -/
def cntDirBase : Nat := 0x02000034
/-- CNT_DIR_SHAPE. -/
def cntDirShape : Nat := 0x02000038
/-- CNT_VIEW_CFG[v]. -/
def cntViewCfg (i : Nat) : Nat := 0x02001000 + 0x40 * i
/-- CNT_VIEW_DEST_LO. -/
def cntViewDestLo (i : Nat) : Nat := 0x02001008 + 0x40 * i
/-- CNT_VIEW_DEST_HI. -/
def cntViewDestHi (i : Nat) : Nat := 0x0200100c + 0x40 * i
/-- CNT_VIEW_RANGE[v][r]. -/
def cntViewRange (i : Nat) (j : Nat) : Nat := 0x02001010 + 0x40 * i + 0x4 * j
/-- CNT_EXT. -/
def cntExt (i : Nat) : Nat := 0x02100000 + 0x4 * i
/-- CNT_EXT_CLR. -/
def cntExtClr (i : Nat) : Nat := 0x02200000 + 0x4 * i
/-- CNT_WRAP. -/
def cntWrap (i : Nat) : Nat := 0x02300000 + 0x4 * i

/-- The registers of window 02 (R533). -/
def rowsCounters : List RegRow :=
  [ { base := 0x02000000, rst := 0x10000 }
  , { base := 0x02000010, rw := 0xff003fff, rst := 0x200000a }
  , { base := 0x02000014, rc := 0x60000000 }
  , { base := 0x02000018, rw := 0xffffffff, kind := .pairLo }
  , { base := 0x0200001c, rw := 0xffffffff, kind := .pairHi }
  , { base := 0x02000020, rw := 0x1fffff }
  , { base := 0x02000024, kind := .pairLo }
  , { base := 0x02000028, kind := .pairHi }
  , { base := 0x02000030, rw := 0x1fffff }
  , { base := 0x02000034 }
  , { base := 0x02000038 }
  , { base := 0x02001000, n := 64, st := 0x40, rw := 0x8000003f }
  , { base := 0x02001008, n := 64, st := 0x40, rw := 0xffffffff, kind := .pairLo }
  , { base := 0x0200100c, n := 64, st := 0x40, rw := 0xffffffff, kind := .pairHi }
  , { base := 0x02001010, n := 64, st := 0x40, n2 := 8, st2 := 0x4, rw := 0xffffffff }
  , { base := 0x02100000, n := 32768, st := 0x4, rw := 0xffffffff, rst := 0xffffffff, kind := .set }
  , { base := 0x02200000, n := 32768, st := 0x4, rw := 0xffffffff, rst := 0xffffffff, kind := .clr 0x100000 }
  , { base := 0x02300000, n := 32768, st := 0x4, rc := 0xffffffff } ]

/-! ## Window 03: Doorway (R423) -/

/-- DWY_VERSION. -/
def dwyVersion : Nat := 0x03000000
/-- DWY_LINK_CAP. -/
def dwyLinkCap : Nat := 0x03000010
/-- DWY_LINK_STATUS. -/
def dwyLinkStatus : Nat := 0x03000014
/-- DWY_HALT. -/
def dwyHalt : Nat := 0x03000018
/-- DWY_HALT_LOC. -/
def dwyHaltLoc : Nat := 0x0300001c
/-- DWY_HOLD_BASE_LO. -/
def dwyHoldBaseLo : Nat := 0x03000020
/-- DWY_HOLD_BASE_HI. -/
def dwyHoldBaseHi : Nat := 0x03000024
/-- DWY_FMT_DEFAULT_LO. -/
def dwyFmtDefaultLo : Nat := 0x03000028
/-- DWY_FMT_DEFAULT_HI. -/
def dwyFmtDefaultHi : Nat := 0x0300002c
/-- DWY_FN_QP[f]. -/
def dwyFnQp (i : Nat) : Nat := 0x03000100 + 0x4 * i
/-- DWY_QP_CFG. -/
def dwyQpCfg (i : Nat) : Nat := 0x03100000 + 0x40 * i
/-- DWY_QP_CTL. -/
def dwyQpCtl (i : Nat) : Nat := 0x03100004 + 0x40 * i
/-- DWY_QP_STATUS. -/
def dwyQpStatus (i : Nat) : Nat := 0x03100008 + 0x40 * i
/-- DWY_CQ_MOD. -/
def dwyCqMod (i : Nat) : Nat := 0x0310000c + 0x40 * i
/-- DWY_SQ_BASE_LO. -/
def dwySqBaseLo (i : Nat) : Nat := 0x03100010 + 0x40 * i
/-- DWY_SQ_BASE_HI. -/
def dwySqBaseHi (i : Nat) : Nat := 0x03100014 + 0x40 * i
/-- DWY_CQ_BASE_LO. -/
def dwyCqBaseLo (i : Nat) : Nat := 0x03100018 + 0x40 * i
/-- DWY_CQ_BASE_HI. -/
def dwyCqBaseHi (i : Nat) : Nat := 0x0310001c + 0x40 * i
/-- DWY_IDX_BASE_LO. -/
def dwyIdxBaseLo (i : Nat) : Nat := 0x03100020 + 0x40 * i
/-- DWY_IDX_BASE_HI. -/
def dwyIdxBaseHi (i : Nat) : Nat := 0x03100024 + 0x40 * i
/-- DWY_SQ_PI. -/
def dwySqPi (i : Nat) : Nat := 0x03100028 + 0x40 * i
/-- DWY_SQ_CI. -/
def dwySqCi (i : Nat) : Nat := 0x0310002c + 0x40 * i
/-- DWY_CQ_PI. -/
def dwyCqPi (i : Nat) : Nat := 0x03100030 + 0x40 * i
/-- DWY_CQ_CI. -/
def dwyCqCi (i : Nat) : Nat := 0x03100034 + 0x40 * i
/-- DWY_QP_PORT. -/
def dwyQpPort (i : Nat) : Nat := 0x03100038 + 0x40 * i

/-- The registers of window 03 (R423). -/
def rowsDoorway : List RegRow :=
  [ { base := 0x03000000, rst := 0x10000 }
  , { base := 0x03000010, rw := 0xff, rst := 0xb4 }
  , { base := 0x03000014 }
  , { base := 0x03000018 }
  , { base := 0x0300001c }
  , { base := 0x03000020, rw := 0xffffffff, kind := .pairLo }
  , { base := 0x03000024, rw := 0xffffffff, kind := .pairHi }
  , { base := 0x03000028, rw := 0xffffffff, kind := .pairLo }
  , { base := 0x0300002c, rw := 0xffffffff, kind := .pairHi }
  , { base := 0x03000100, n := 64, st := 0x4, rw := 0x7fff3fff }
  , { base := 0x03100000, n := 16384, st := 0x40, rw := 0xffff07ff }
  , { base := 0x03100004, n := 16384, st := 0x40 }
  , { base := 0x03100008, n := 16384, st := 0x40, rc := 0x10000000 }
  , { base := 0x0310000c, n := 16384, st := 0x40, rw := 0xffffffff }
  , { base := 0x03100010, n := 16384, st := 0x40, rw := 0xffffffff, kind := .pairLo }
  , { base := 0x03100014, n := 16384, st := 0x40, rw := 0xffffffff, kind := .pairHi }
  , { base := 0x03100018, n := 16384, st := 0x40, rw := 0xffffffff, kind := .pairLo }
  , { base := 0x0310001c, n := 16384, st := 0x40, rw := 0xffffffff, kind := .pairHi }
  , { base := 0x03100020, n := 16384, st := 0x40, rw := 0xffffffff, kind := .pairLo }
  , { base := 0x03100024, n := 16384, st := 0x40, rw := 0xffffffff, kind := .pairHi }
  , { base := 0x03100028, n := 16384, st := 0x40, rw := 0xffff }
  , { base := 0x0310002c, n := 16384, st := 0x40 }
  , { base := 0x03100030, n := 16384, st := 0x40 }
  , { base := 0x03100034, n := 16384, st := 0x40, rw := 0xffff }
  , { base := 0x03100038, n := 16384, st := 0x40, rw := 0x1ff } ]

/-! ## Window 04: Bellboard (R440) -/

/-- BEL_VERSION. -/
def belVersion : Nat := 0x04000000
/-- BEL_BELL_PULL. -/
def belBellPull : Nat := 0x04000010
/-- BEL_ERR. -/
def belErr : Nat := 0x04000014
/-- BEL_ERR_LOC. -/
def belErrLoc : Nat := 0x04000018
/-- BEL_PEND. -/
def belPend (i : Nat) : Nat := 0x04001000 + 0x4 * i
/-- BEL_PEND_CLR. -/
def belPendClr (i : Nat) : Nat := 0x04001200 + 0x4 * i
/-- BEL_MASK. -/
def belMask (i : Nat) : Nat := 0x04001400 + 0x4 * i
/-- BEL_MASK_CLR. -/
def belMaskClr (i : Nat) : Nat := 0x04001600 + 0x4 * i
/-- BEL_ACTIVE[w]. -/
def belActive (i : Nat) : Nat := 0x04001800 + 0x4 * i
/-- BEL_COND[w]. -/
def belCond (i : Nat) : Nat := 0x04001a00 + 0x4 * i
/-- BEL_ROUTE[s]. -/
def belRoute (i : Nat) : Nat := 0x04004000 + 0x4 * i
/-- BEL_TGT[t]. -/
def belTgt (i : Nat) : Nat := 0x04008000 + 0x4 * i
/-- BEL_FN_MOD[f]. -/
def belFnMod (i : Nat) : Nat := 0x04009000 + 0x4 * i

/-- The registers of window 04 (R440). -/
def rowsBellboard : List RegRow :=
  [ { base := 0x04000000, rst := 0x10000 }
  , { base := 0x04000010 }
  , { base := 0x04000014, rc := 0xf }
  , { base := 0x04000018 }
  , { base := 0x04001000, n := 128, st := 0x4, rw := 0xffffffff, kind := .set }
  , { base := 0x04001200, n := 128, st := 0x4, rw := 0xffffffff, kind := .clr 0x200 }
  , { base := 0x04001400, n := 128, st := 0x4, rw := 0xffffffff, rst := 0xffffffff, kind := .set }
  , { base := 0x04001600, n := 128, st := 0x4, rw := 0xffffffff, rst := 0xffffffff, kind := .clr 0x200 }
  , { base := 0x04001800, n := 128, st := 0x4 }
  , { base := 0x04001a00, n := 128, st := 0x4 }
  , { base := 0x04004000, n := 4096, st := 0x4, rw := 0xffffffff, rstf := some .belRouteReset }
  , { base := 0x04008000, n := 577, st := 0x4 }
  , { base := 0x04009000, n := 64, st := 0x4, rw := 0xffff } ]

/-! ## Window 05: Porch (R62) -/

/-- PCH_VERSION. -/
def pchVersion : Nat := 0x05000000
/-- PCH_HELLO_GLOBAL. -/
def pchHelloGlobal : Nat := 0x05000010
/-- PCH_NODE_ID_LO. -/
def pchNodeIdLo : Nat := 0x05000018
/-- PCH_NODE_ID_HI. -/
def pchNodeIdHi : Nat := 0x0500001c
/-- PCH_OCT_CFG. -/
def pchOctCfg (i : Nat) : Nat := 0x05000100 + 0x4 * i
/-- PCH_PORT_CFG. -/
def pchPortCfg (i : Nat) : Nat := 0x05010000 + 0x80 * i
/-- PCH_PORT_MTU[n]. -/
def pchPortMtu (i : Nat) : Nat := 0x05010004 + 0x80 * i
/-- PCH_PORT_MAC_LO. -/
def pchPortMacLo (i : Nat) : Nat := 0x05010008 + 0x80 * i
/-- PCH_PORT_MAC_HI. -/
def pchPortMacHi (i : Nat) : Nat := 0x0501000c + 0x80 * i
/-- PCH_PORT_STATUS[n]. -/
def pchPortStatus (i : Nat) : Nat := 0x05010010 + 0x80 * i
/-- PCH_PORT_ERR[n]. -/
def pchPortErr (i : Nat) : Nat := 0x05010014 + 0x80 * i
/-- PCH_PFC_CFG[n]. -/
def pchPfcCfg (i : Nat) : Nat := 0x05010018 + 0x80 * i
/-- PCH_PFC_MAP[n]. -/
def pchPfcMap (i : Nat) : Nat := 0x0501001c + 0x80 * i
/-- PCH_PFC_STATE[n]. -/
def pchPfcState (i : Nat) : Nat := 0x05010020 + 0x80 * i
/-- PCH_HELLO_CFG[n]. -/
def pchHelloCfg (i : Nat) : Nat := 0x05010024 + 0x80 * i
/-- PCH_PEER_STATE[n]. -/
def pchPeerState (i : Nat) : Nat := 0x05010028 + 0x80 * i
/-- PCH_PEER_TARGET[n]. -/
def pchPeerTarget (i : Nat) : Nat := 0x0501002c + 0x80 * i
/-- PCH_TS_ADJ[n]. -/
def pchTsAdj (i : Nat) : Nat := 0x05010030 + 0x80 * i
/-- PCH_TS_TAG. -/
def pchTsTag (i : Nat) : Nat := 0x05010034 + 0x80 * i
/-- PCH_TS_LO. -/
def pchTsLo (i : Nat) : Nat := 0x05010038 + 0x80 * i
/-- PCH_TS_HI. -/
def pchTsHi (i : Nat) : Nat := 0x0501003c + 0x80 * i

/-- The registers of window 05 (R62). -/
def rowsPorch : List RegRow :=
  [ { base := 0x05000000, rst := 0x10000 }
  , { base := 0x05000010, rw := 0xe, rst := 0xe }
  , { base := 0x05000018, rw := 0xffffffff, kind := .pairLo }
  , { base := 0x0500001c, rw := 0xffffffff, kind := .pairHi }
  , { base := 0x05000100, n := 64, st := 0x4, rw := 0x7, rc := 0x10 }
  , { base := 0x05010000, n := 512, st := 0x80, rw := 0x7ff }
  , { base := 0x05010004, n := 512, st := 0x80, rw := 0x7fff, rst := 0x5ee }
  , { base := 0x05010008, n := 512, st := 0x80, rw := 0xffffffff, kind := .pairLo }
  , { base := 0x0501000c, n := 512, st := 0x80, rw := 0xffff, kind := .pairHi }
  , { base := 0x05010010, n := 512, st := 0x80 }
  , { base := 0x05010014, n := 512, st := 0x80, rc := 0x3f }
  , { base := 0x05010018, n := 512, st := 0x80, rw := 0xffffffff, rst := 0xff00ffff }
  , { base := 0x0501001c, n := 512, st := 0x80, rw := 0xffffff, rst := 0xfac688 }
  , { base := 0x05010020, n := 512, st := 0x80 }
  , { base := 0x05010024, n := 512, st := 0x80, rw := 0x7fffff, rst := 0x13000a }
  , { base := 0x05010028, n := 512, st := 0x80, rst := 0x310 }
  , { base := 0x0501002c, n := 512, st := 0x80, rst := 0xffffffff }
  , { base := 0x05010030, n := 512, st := 0x80, rw := 0xffffffff }
  , { base := 0x05010034, n := 512, st := 0x80 }
  , { base := 0x05010038, n := 512, st := 0x80 }
  , { base := 0x0501003c, n := 512, st := 0x80 } ]

/-! ## Window 06: Threshold (R94) -/

/-- THR_VERSION. -/
def thrVersion : Nat := 0x06000000
/-- THR_UC_CMD. -/
def thrUcCmd : Nat := 0x06000010
/-- THR_UC_STATUS. -/
def thrUcStatus : Nat := 0x06000014
/-- THR_UC_DATA. -/
def thrUcData (i : Nat) : Nat := 0x06000020 + 0x4 * i
/-- THR_CONST. -/
def thrConst (i : Nat) : Nat := 0x06000040 + 0x4 * i
/-- THR_SLICE_CTL. -/
def thrSliceCtl (i : Nat) : Nat := 0x06000100 + 0x10 * i
/-- THR_SLICE_ERR. -/
def thrSliceErr (i : Nat) : Nat := 0x06000104 + 0x10 * i
/-- THR_PORT_CFG. -/
def thrPortCfg (i : Nat) : Nat := 0x06001000 + 0x4 * i

/-- The registers of window 06 (R94). -/
def rowsThreshold : List RegRow :=
  [ { base := 0x06000000, rst := 0x10000 }
  , { base := 0x06000010, rw := 0x7fffffff }
  , { base := 0x06000014, rc := 0x7 }
  , { base := 0x06000020, n := 8, st := 0x4, rw := 0xffffffff }
  , { base := 0x06000040, n := 16, st := 0x4, rw := 0xffff, rstf := some .thrConstReset }
  , { base := 0x06000100, n := 16, st := 0x10, rw := 0x1 }
  , { base := 0x06000104, n := 16, st := 0x10, rc := 0x3 }
  , { base := 0x06001000, n := 512, st := 0x4, rw := 0xff1fff } ]

/-! ## Window 07: Hallway (R135) -/

/-- HLW_VERSION. -/
def hlwVersion : Nat := 0x07000000
/-- HLW_CMD. -/
def hlwCmd : Nat := 0x07000010
/-- HLW_CMD_SLICES. -/
def hlwCmdSlices : Nat := 0x07000014
/-- HLW_CMD_STATUS. -/
def hlwCmdStatus : Nat := 0x07000018
/-- HLW_DATA. -/
def hlwData (i : Nat) : Nat := 0x07000020 + 0x4 * i
/-- HLW_GEN_CTL. -/
def hlwGenCtl : Nat := 0x07000040
/-- HLW_GEN_STATUS. -/
def hlwGenStatus : Nat := 0x07000044
/-- HLW_GEN_STAGED. -/
def hlwGenStaged : Nat := 0x07000048
/-- HLW_STAGE_CFG. -/
def hlwStageCfg (i : Nat) (j : Nat) : Nat := 0x07000100 + 0x80 * i + 0x4 * j
/-- HLW_SLICE_CTL. -/
def hlwSliceCtl (i : Nat) : Nat := 0x07001000 + 0x10 * i
/-- HLW_SLICE_ERR. -/
def hlwSliceErr (i : Nat) : Nat := 0x07001004 + 0x10 * i
/-- HLW_PORT_CFG. -/
def hlwPortCfg (i : Nat) : Nat := 0x07002000 + 0x4 * i
/-- HLW_PORT_DFLT. -/
def hlwPortDflt (i : Nat) (j : Nat) : Nat := 0x07100000 + 0x10 * i + 0x4 * j

/-- The registers of window 07 (R135). -/
def rowsHallway : List RegRow :=
  [ { base := 0x07000000, rst := 0x10000 }
  , { base := 0x07000010, rw := 0x7c03ffff }
  , { base := 0x07000014, rw := 0xffff }
  , { base := 0x07000018, rc := 0x30000 }
  , { base := 0x07000020, n := 8, st := 0x4, rw := 0xffffffff }
  , { base := 0x07000040 }
  , { base := 0x07000044, rc := 0x18 }
  , { base := 0x07000048 }
  , { base := 0x07000100, n := 16, st := 0x80, n2 := 24, st2 := 0x4, rw := 0x1ffff07 }
  , { base := 0x07001000, n := 16, st := 0x10, rw := 0x1 }
  , { base := 0x07001004, n := 16, st := 0x10, rc := 0x7 }
  , { base := 0x07002000, n := 512, st := 0x4, rw := 0xfff, rst := 0xff }
  , { base := 0x07100000, n := 2048, st := 0x10, n2 := 4, st2 := 0x4, rw := 0xffffffff, rstf := some .hlwPortDfltReset } ]

/-! ## Window 08: Gallery (R162) -/

/-- GAL_VERSION. -/
def galVersion : Nat := 0x08000000
/-- GAL_CMD. -/
def galCmd : Nat := 0x08000010
/-- GAL_CMD_SLICES. -/
def galCmdSlices : Nat := 0x08000014
/-- GAL_CMD_STATUS. -/
def galCmdStatus : Nat := 0x08000018
/-- GAL_RESULT. -/
def galResult : Nat := 0x0800001c
/-- GAL_SLOT. -/
def galSlot : Nat := 0x08000020
/-- GAL_KEY. -/
def galKey (i : Nat) : Nat := 0x08000100 + 0x4 * i
/-- GAL_MASK. -/
def galMask (i : Nat) : Nat := 0x08000180 + 0x4 * i
/-- GAL_JOB_CTL. -/
def galJobCtl : Nat := 0x08000200
/-- GAL_JOB_COUNT. -/
def galJobCount : Nat := 0x08000204
/-- GAL_JOB_ADDR_LO. -/
def galJobAddrLo : Nat := 0x08000208
/-- GAL_JOB_ADDR_HI. -/
def galJobAddrHi : Nat := 0x0800020c
/-- GAL_JOB_STATUS_LO. -/
def galJobStatusLo : Nat := 0x08000210
/-- GAL_JOB_STATUS_HI. -/
def galJobStatusHi : Nat := 0x08000214
/-- GAL_SCRUB_CTL. -/
def galScrubCtl : Nat := 0x08000300
/-- GAL_SLICE_ERR. -/
def galSliceErr (i : Nat) : Nat := 0x08001000 + 0x10 * i
/-- GAL_SLICE_USE. -/
def galSliceUse (i : Nat) : Nat := 0x08001004 + 0x10 * i

/-- The registers of window 08 (R162). -/
def rowsGallery : List RegRow :=
  [ { base := 0x08000000, rst := 0x10000 }
  , { base := 0x08000010, rw := 0x780000ff }
  , { base := 0x08000014, rw := 0xffff }
  , { base := 0x08000018, rc := 0x30000 }
  , { base := 0x0800001c, rw := 0x3ffff }
  , { base := 0x08000020 }
  , { base := 0x08000100, n := 20, st := 0x4, rw := 0xffffffff }
  , { base := 0x08000180, n := 20, st := 0x4, rw := 0xffffffff }
  , { base := 0x08000200, rw := 0x1000ffff, rc := 0x8000000, rst := 0x10000000 }
  , { base := 0x08000204, rw := 0x1fffff }
  , { base := 0x08000208, rw := 0xffffffff, kind := .pairLo }
  , { base := 0x0800020c, rw := 0xffffffff, kind := .pairHi }
  , { base := 0x08000210, rw := 0xffffffff, kind := .pairLo }
  , { base := 0x08000214, rw := 0xffffffff, kind := .pairHi }
  , { base := 0x08000300, rw := 0x1, rst := 0x1 }
  , { base := 0x08001000, n := 16, st := 0x10, rc := 0x7 }
  , { base := 0x08001004, n := 16, st := 0x10 } ]

/-! ## Window 09: Larder (R193) -/

/-- LRD_VERSION. -/
def lrdVersion : Nat := 0x09000000
/-- LRD_CMD. -/
def lrdCmd : Nat := 0x09000010
/-- LRD_CMD_STATUS. -/
def lrdCmdStatus : Nat := 0x09000014
/-- LRD_ENT. -/
def lrdEnt : Nat := 0x09000018
/-- LRD_KEY. -/
def lrdKey (i : Nat) : Nat := 0x09000040 + 0x4 * i
/-- LRD_ACT. -/
def lrdAct (i : Nat) : Nat := 0x09000080 + 0x4 * i
/-- LRD_CMP. -/
def lrdCmp (i : Nat) : Nat := 0x09000090 + 0x4 * i
/-- LRD_JOB_CTL. -/
def lrdJobCtl : Nat := 0x09000100
/-- LRD_JOB_FILT_DEST. -/
def lrdJobFiltDest : Nat := 0x09000104
/-- LRD_JOB_FILT_KEY. -/
def lrdJobFiltKey : Nat := 0x09000108
/-- LRD_JOB_START. -/
def lrdJobStart : Nat := 0x0900010c
/-- LRD_JOB_LIMIT. -/
def lrdJobLimit : Nat := 0x09000110
/-- LRD_JOB_OUT_LO. -/
def lrdJobOutLo : Nat := 0x09000118
/-- LRD_JOB_OUT_HI. -/
def lrdJobOutHi : Nat := 0x0900011c
/-- LRD_JOB_STATUS_LO. -/
def lrdJobStatusLo : Nat := 0x09000120
/-- LRD_JOB_STATUS_HI. -/
def lrdJobStatusHi : Nat := 0x09000124
/-- LRD_ERR. -/
def lrdErr : Nat := 0x09000200
/-- LRD_ERR_LOC. -/
def lrdErrLoc : Nat := 0x09000204
/-- LRD_TBL_CFG. -/
def lrdTblCfg (i : Nat) : Nat := 0x09001000 + 0x40 * i
/-- LRD_TBL_BASE_LO. -/
def lrdTblBaseLo (i : Nat) : Nat := 0x09001004 + 0x40 * i
/-- LRD_TBL_BASE_HI. -/
def lrdTblBaseHi (i : Nat) : Nat := 0x09001008 + 0x40 * i
/-- LRD_TBL_AGE. -/
def lrdTblAge (i : Nat) : Nat := 0x0900100c + 0x40 * i
/-- LRD_TBL_SEED. -/
def lrdTblSeed (i : Nat) : Nat := 0x09001010 + 0x40 * i
/-- LRD_TBL_USE. -/
def lrdTblUse (i : Nat) : Nat := 0x09001014 + 0x40 * i
/-- LRD_FULL_ACT. -/
def lrdFullAct (i : Nat) (j : Nat) : Nat := 0x09001020 + 0x40 * i + 0x4 * j
/-- LRD_LRN_ACT. -/
def lrdLrnAct (i : Nat) (j : Nat) : Nat := 0x09001030 + 0x40 * i + 0x4 * j
/-- LRD_PORT_CFG. -/
def lrdPortCfg (i : Nat) : Nat := 0x09002000 + 0x4 * i

/-- The registers of window 09 (R193). -/
def rowsLarder : List RegRow :=
  [ { base := 0x09000000, rst := 0x10000 }
  , { base := 0x09000010, rw := 0x7c00003f }
  , { base := 0x09000014, rc := 0x3 }
  , { base := 0x09000018, rw := 0xfff80000 }
  , { base := 0x09000040, n := 10, st := 0x4, rw := 0xffffffff }
  , { base := 0x09000080, n := 4, st := 0x4, rw := 0xffffffff }
  , { base := 0x09000090, n := 4, st := 0x4, rw := 0xffffffff }
  , { base := 0x09000100, rw := 0xc3fffff, rc := 0x10000000 }
  , { base := 0x09000104, rw := 0x8007ffff }
  , { base := 0x09000108, rw := 0xe000ffff, rst := 0x20000000 }
  , { base := 0x0900010c, rw := 0xffffff }
  , { base := 0x09000110, rw := 0x1fffff }
  , { base := 0x09000118, rw := 0xffffffff, kind := .pairLo }
  , { base := 0x0900011c, rw := 0xffffffff, kind := .pairHi }
  , { base := 0x09000120, rw := 0xffffffff, kind := .pairLo }
  , { base := 0x09000124, rw := 0xffffffff, kind := .pairHi }
  , { base := 0x09000200, rc := 0x7 }
  , { base := 0x09000204 }
  , { base := 0x09001000, n := 64, st := 0x40, rw := 0xffffff00 }
  , { base := 0x09001004, n := 64, st := 0x40, rw := 0xffffffff, kind := .pairLo }
  , { base := 0x09001008, n := 64, st := 0x40, rw := 0xffffffff, kind := .pairHi }
  , { base := 0x0900100c, n := 64, st := 0x40, rw := 0xffffff00, rst := 0x2585400 }
  , { base := 0x09001010, n := 64, st := 0x40, rw := 0xffffffff }
  , { base := 0x09001014, n := 64, st := 0x40 }
  , { base := 0x09001020, n := 64, st := 0x40, n2 := 4, st2 := 0x4, rw := 0xffffffff, rstf := some .actReset }
  , { base := 0x09001030, n := 64, st := 0x40, n2 := 4, st2 := 0x4, rw := 0xffffffff, rstf := some .actReset }
  , { base := 0x09002000, n := 512, st := 0x4, rw := 0xcfff, rst := 0x8000 } ]

/-! ## Window 0A: Crowsnest (R233) -/

/-- CRW_VERSION. -/
def crwVersion : Nat := 0x0a000000
/-- CRW_CFG. -/
def crwCfg : Nat := 0x0a000010
/-- CRW_KSEED_LO. -/
def crwKseedLo : Nat := 0x0a000018
/-- CRW_KSEED_HI. -/
def crwKseedHi : Nat := 0x0a00001c
/-- CRW_RSEED. -/
def crwRseed : Nat := 0x0a000020
/-- CRW_PGT_BASE_LO. -/
def crwPgtBaseLo : Nat := 0x0a000028
/-- CRW_PGT_BASE_HI. -/
def crwPgtBaseHi : Nat := 0x0a00002c
/-- CRW_ROSTER_BASE_LO. -/
def crwRosterBaseLo : Nat := 0x0a000030
/-- CRW_ROSTER_BASE_HI. -/
def crwRosterBaseHi : Nat := 0x0a000034
/-- CRW_ROSTER_COUNT. -/
def crwRosterCount : Nat := 0x0a000038
/-- CRW_READ_CFG. -/
def crwReadCfg : Nat := 0x0a000040
/-- CRW_READ_PEN. -/
def crwReadPen : Nat := 0x0a000044
/-- CRW_CHK. -/
def crwChk : Nat := 0x0a000048
/-- CRW_EPOCH. -/
def crwEpoch : Nat := 0x0a000050
/-- CRW_CMD. -/
def crwCmd : Nat := 0x0a000100
/-- CRW_CMD_STATUS. -/
def crwCmdStatus : Nat := 0x0a000104
/-- CRW_DATA. -/
def crwData (i : Nat) : Nat := 0x0a000200 + 0x4 * i
/-- CRW_BUILD_CTL. -/
def crwBuildCtl : Nat := 0x0a000300
/-- CRW_BUILD_FIRST. -/
def crwBuildFirst : Nat := 0x0a000304
/-- CRW_BUILD_COUNT. -/
def crwBuildCount : Nat := 0x0a000308
/-- CRW_BUILD_LIMIT. -/
def crwBuildLimit : Nat := 0x0a00030c
/-- CRW_BUILD_OUT_LO. -/
def crwBuildOutLo : Nat := 0x0a000310
/-- CRW_BUILD_OUT_HI. -/
def crwBuildOutHi : Nat := 0x0a000314
/-- CRW_BUILD_STATUS_LO. -/
def crwBuildStatusLo : Nat := 0x0a000318
/-- CRW_BUILD_STATUS_HI. -/
def crwBuildStatusHi : Nat := 0x0a00031c
/-- CRW_BUILD_INFO. -/
def crwBuildInfo : Nat := 0x0a000320
/-- CRW_ERR. -/
def crwErr : Nat := 0x0a000400
/-- CRW_ERR_LOC. -/
def crwErrLoc : Nat := 0x0a000404
/-- CRW_MIG_CTL. -/
def crwMigCtl : Nat := 0x0a000600
/-- CRW_MIG_STATUS. -/
def crwMigStatus : Nat := 0x0a000604
/-- CRW_MIG_MARK. -/
def crwMigMark : Nat := 0x0a000608
/-- CRW_MIG_LEFT. -/
def crwMigLeft : Nat := 0x0a00060c
/-- CRW_MIG_CFG. -/
def crwMigCfg : Nat := 0x0a000610
/-- CRW_MIG_STATUS_ADDR_LO. -/
def crwMigStatusAddrLo : Nat := 0x0a000618
/-- CRW_MIG_STATUS_ADDR_HI. -/
def crwMigStatusAddrHi : Nat := 0x0a00061c
/-- CRW_MIG_INFLIGHT. -/
def crwMigInflight (i : Nat) : Nat := 0x0a000620 + 0x4 * i
/-- CRW_NOTICE_CFG. -/
def crwNoticeCfg : Nat := 0x0a000640
/-- CRW_NOTICE_RATE. -/
def crwNoticeRate : Nat := 0x0a000644
/-- CRW_PORT_XLATE. -/
def crwPortXlate (i : Nat) : Nat := 0x0a001000 + 0x4 * i

/-- The registers of window 0A (R233). -/
def rowsCrowsnest : List RegRow :=
  [ { base := 0x0a000000, rst := 0x10000 }
  , { base := 0x0a000010, rw := 0xfffffe00, rst := 0x50981000 }
  , { base := 0x0a000018, rw := 0xffffffff, kind := .pairLo }
  , { base := 0x0a00001c, rw := 0xffffffff, kind := .pairHi }
  , { base := 0x0a000020, rw := 0xffffffff }
  , { base := 0x0a000028, rw := 0xffffffff, kind := .pairLo }
  , { base := 0x0a00002c, rw := 0xffffffff, kind := .pairHi }
  , { base := 0x0a000030, rw := 0xffffffff, kind := .pairLo }
  , { base := 0x0a000034, rw := 0xffffffff, kind := .pairHi }
  , { base := 0x0a000038, rw := 0x1ffff }
  , { base := 0x0a000040, rw := 0x7ffff, rst := 0x1f4 }
  , { base := 0x0a000044, rw := 0xffff, rst := 0x7d0 }
  , { base := 0x0a000048, rw := 0xbfbf }
  , { base := 0x0a000050, rst := 0x1 }
  , { base := 0x0a000100, rw := 0x783fffff }
  , { base := 0x0a000104, rc := 0x3 }
  , { base := 0x0a000200, n := 48, st := 0x4, rw := 0xffffffff }
  , { base := 0x0a000300, rw := 0x800ffff, rc := 0x10000000 }
  , { base := 0x0a000304, rw := 0x3fffff }
  , { base := 0x0a000308, rw := 0x7fffff }
  , { base := 0x0a00030c, rw := 0x7fffff }
  , { base := 0x0a000310, rw := 0xffffffff, kind := .pairLo }
  , { base := 0x0a000314, rw := 0xffffffff, kind := .pairHi }
  , { base := 0x0a000318, rw := 0xffffffff, kind := .pairLo }
  , { base := 0x0a00031c, rw := 0xffffffff, kind := .pairHi }
  , { base := 0x0a000320 }
  , { base := 0x0a000400, rc := 0xf }
  , { base := 0x0a000404 }
  , { base := 0x0a000600, rw := 0xffff, rc := 0x10000000 }
  , { base := 0x0a000604 }
  , { base := 0x0a000608 }
  , { base := 0x0a00060c }
  , { base := 0x0a000610, rw := 0xffff, rst := 0x3e8 }
  , { base := 0x0a000618, rw := 0xffffffff, kind := .pairLo }
  , { base := 0x0a00061c, rw := 0xffffffff, kind := .pairHi }
  , { base := 0x0a000620, n := 2, st := 0x4 }
  , { base := 0x0a000640, rw := 0x3fff, rst := 0x3013 }
  , { base := 0x0a000644, rw := 0xffff, rst := 0x3e8 }
  , { base := 0x0a001000, n := 512, st := 0x4, rw := 0x3 } ]

/-! ## Window 0B: Check (R266) -/

/-- CHK_VERSION. -/
def chkVersion : Nat := 0x0b000000
/-- CHK_ERR. -/
def chkErr : Nat := 0x0b000010
/-- CHK_PROF_CFG. -/
def chkProfCfg (i : Nat) : Nat := 0x0b000100 + 0x20 * i
/-- CHK_PROF_POLY_LO. -/
def chkProfPolyLo (i : Nat) : Nat := 0x0b000104 + 0x20 * i
/-- CHK_PROF_POLY_HI. -/
def chkProfPolyHi (i : Nat) : Nat := 0x0b000108 + 0x20 * i
/-- CHK_PROF_INIT_LO. -/
def chkProfInitLo (i : Nat) : Nat := 0x0b00010c + 0x20 * i
/-- CHK_PROF_INIT_HI. -/
def chkProfInitHi (i : Nat) : Nat := 0x0b000110 + 0x20 * i
/-- CHK_PORT_CFG. -/
def chkPortCfg (i : Nat) : Nat := 0x0b001000 + 0x4 * i

/-- The registers of window 0B (R266). -/
def rowsCheck : List RegRow :=
  [ { base := 0x0b000000, rst := 0x10000 }
  , { base := 0x0b000010, rc := 0x1 }
  , { base := 0x0b000100, n := 64, st := 0x20, rw := 0x8007030f }
  , { base := 0x0b000104, n := 64, st := 0x20, rw := 0xffffffff, kind := .pairLo }
  , { base := 0x0b000108, n := 64, st := 0x20, rw := 0xffffffff, kind := .pairHi }
  , { base := 0x0b00010c, n := 64, st := 0x20, rw := 0xffffffff, kind := .pairLo }
  , { base := 0x0b000110, n := 64, st := 0x20, rw := 0xffffffff, kind := .pairHi }
  , { base := 0x0b001000, n := 512, st := 0x4, rw := 0x3 } ]

/-! ## Window 0C: Stairwell (R303) -/

/-- STW_VERSION. -/
def stwVersion : Nat := 0x0c000000
/-- STW_CMD. -/
def stwCmd : Nat := 0x0c000010
/-- STW_CMD_STATUS. -/
def stwCmdStatus : Nat := 0x0c000014
/-- STW_DATA. -/
def stwData (i : Nat) : Nat := 0x0c000020 + 0x4 * i
/-- STW_BUF_CFG. -/
def stwBufCfg : Nat := 0x0c000100
/-- STW_TC_CFG[c]. -/
def stwTcCfg (i : Nat) : Nat := 0x0c000110 + 0x4 * i
/-- STW_ERR. -/
def stwErr : Nat := 0x0c000140
/-- STW_ERR_LOC. -/
def stwErrLoc : Nat := 0x0c000144
/-- STW_SLICE_FREE[s]. -/
def stwSliceFree (i : Nat) : Nat := 0x0c000200 + 0x10 * i
/-- STW_SLICE_SPILL[s]. -/
def stwSliceSpill (i : Nat) : Nat := 0x0c000204 + 0x10 * i
/-- STW_HASH_PIECE[k][j]. -/
def stwHashPiece (i : Nat) (j : Nat) : Nat := 0x0c000400 + 0x20 * i + 0x4 * j
/-- STW_HASH_CTL[k]. -/
def stwHashCtl (i : Nat) : Nat := 0x0c000410 + 0x20 * i
/-- STW_HASH_SEED[k]. -/
def stwHashSeed (i : Nat) : Nat := 0x0c000414 + 0x20 * i
/-- STW_MIRROR[m]. -/
def stwMirror (i : Nat) : Nat := 0x0c000600 + 0x10 * i
/-- STW_SAMP_CFG[k]. -/
def stwSampCfg (i : Nat) : Nat := 0x0c000800 + 0x10 * i
/-- STW_SAMP_PROG[k]. -/
def stwSampProg (i : Nat) : Nat := 0x0c000804 + 0x10 * i
/-- STW_PORT_CFG[n]. -/
def stwPortCfg (i : Nat) : Nat := 0x0c010000 + 0x20 * i
/-- STW_PORT_PFC[n]. -/
def stwPortPfc (i : Nat) : Nat := 0x0c010004 + 0x20 * i
/-- STW_PORT_HEADROOM[n]. -/
def stwPortHeadroom (i : Nat) : Nat := 0x0c010008 + 0x20 * i
/-- STW_PORT_EQ[n]. -/
def stwPortEq (i : Nat) : Nat := 0x0c01000c + 0x20 * i
/-- STW_PORT_STATUS[n]. -/
def stwPortStatus (i : Nat) : Nat := 0x0c010010 + 0x20 * i

/-- The registers of window 0C (R303). -/
def rowsStairwell : List RegRow :=
  [ { base := 0x0c000000, rst := 0x10000 }
  , { base := 0x0c000010, rw := 0x78003fff }
  , { base := 0x0c000014, rc := 0x3 }
  , { base := 0x0c000020, n := 18, st := 0x4, rw := 0xffffffff }
  , { base := 0x0c000100, rw := 0x1f, rst := 0x4 }
  , { base := 0x0c000110, n := 8, st := 0x4, rw := 0xfff1000f, rst := 0x10010005 }
  , { base := 0x0c000140, rc := 0x1f }
  , { base := 0x0c000144 }
  , { base := 0x0c000200, n := 16, st := 0x10 }
  , { base := 0x0c000204, n := 16, st := 0x10 }
  , { base := 0x0c000400, n := 8, st := 0x20, n2 := 4, st2 := 0x4, rw := 0xffffffff }
  , { base := 0x0c000410, n := 8, st := 0x20, rw := 0x80000000 }
  , { base := 0x0c000414, n := 8, st := 0x20, rw := 0xffffffff, rst := 0xffffffff }
  , { base := 0x0c000600, n := 8, st := 0x10, rw := 0xfffeffff }
  , { base := 0x0c000800, n := 64, st := 0x10, rw := 0xffffffff, rst := 0x2000000 }
  , { base := 0x0c000804, n := 64, st := 0x10, rw := 0xffff }
  , { base := 0x0c010000, n := 512, st := 0x20, rw := 0xfffff0ff }
  , { base := 0x0c010004, n := 512, st := 0x20, rw := 0xffffffff, rst := 0x4000200 }
  , { base := 0x0c010008, n := 512, st := 0x20, rw := 0xffff }
  , { base := 0x0c01000c, n := 512, st := 0x20, rw := 0xffffffff, rst := 0x200 }
  , { base := 0x0c010010, n := 512, st := 0x20 } ]

/-! ## Window 0D: Sheet (R330) -/

/-- SHT_VERSION. -/
def shtVersion : Nat := 0x0d000000
/-- SHT_CMD. -/
def shtCmd : Nat := 0x0d000010
/-- SHT_CMD_SLICES. -/
def shtCmdSlices : Nat := 0x0d000014
/-- SHT_CMD_STATUS. -/
def shtCmdStatus : Nat := 0x0d000018
/-- SHT_DATA. -/
def shtData (i : Nat) : Nat := 0x0d000020 + 0x4 * i
/-- SHT_SAMP_CTL. -/
def shtSampCtl : Nat := 0x0d000100
/-- SHT_SAMP_RECORDS. -/
def shtSampRecords : Nat := 0x0d000104
/-- SHT_SAMP_BASE_LO. -/
def shtSampBaseLo : Nat := 0x0d000108
/-- SHT_SAMP_BASE_HI. -/
def shtSampBaseHi : Nat := 0x0d00010c
/-- SHT_SAMP_WIDX. -/
def shtSampWidx : Nat := 0x0d000110
/-- SHT_ECN_SEED. -/
def shtEcnSeed : Nat := 0x0d000120
/-- SHT_ERR. -/
def shtErr : Nat := 0x0d000140
/-- SHT_ERR_LOC. -/
def shtErrLoc : Nat := 0x0d000144
/-- SHT_ECN_THR[k]. -/
def shtEcnThr (i : Nat) : Nat := 0x0d000208 + 0x8 * i
/-- SHT_ECN_P[k]. -/
def shtEcnP (i : Nat) : Nat := 0x0d00020c + 0x8 * i
/-- SHT_PORT_CFG[n]. -/
def shtPortCfg (i : Nat) : Nat := 0x0d010000 + 0x10 * i
/-- SHT_PSHAPE_RATE[n]. -/
def shtPshapeRate (i : Nat) : Nat := 0x0d010004 + 0x10 * i
/-- SHT_PSHAPE_BURST[n]. -/
def shtPshapeBurst (i : Nat) : Nat := 0x0d010008 + 0x10 * i
/-- SHT_PORT_STATUS[n]. -/
def shtPortStatus (i : Nat) : Nat := 0x0d01000c + 0x10 * i
/-- SHT_QCFG[q]. -/
def shtQcfg (i : Nat) : Nat := 0x0d020000 + 0x10 * i
/-- SHT_QSHAPE_RATE[q]. -/
def shtQshapeRate (i : Nat) : Nat := 0x0d020004 + 0x10 * i
/-- SHT_QSHAPE_BURST[q]. -/
def shtQshapeBurst (i : Nat) : Nat := 0x0d020008 + 0x10 * i
/-- SHT_QSTATUS[q]. -/
def shtQstatus (i : Nat) : Nat := 0x0d02000c + 0x10 * i

/-- The registers of window 0D (R330). -/
def rowsSheet : List RegRow :=
  [ { base := 0x0d000000, rst := 0x10000 }
  , { base := 0x0d000010, rw := 0x78003fff }
  , { base := 0x0d000014, rw := 0xffff }
  , { base := 0x0d000018, rc := 0x3 }
  , { base := 0x0d000020, n := 8, st := 0x4, rw := 0xffffffff }
  , { base := 0x0d000100, rw := 0xffff }
  , { base := 0x0d000104, rw := 0x1ffff, rst := 0x10 }
  , { base := 0x0d000108, rw := 0xffffffff, kind := .pairLo }
  , { base := 0x0d00010c, rw := 0xffffffff, kind := .pairHi }
  , { base := 0x0d000110 }
  , { base := 0x0d000120, rw := 0xffffffff, rst := 0x1 }
  , { base := 0x0d000140, rc := 0xf }
  , { base := 0x0d000144 }
  , { base := 0x0d000208, n := 15, st := 0x8, rw := 0xffffffff, rst := 0x1000010 }
  , { base := 0x0d00020c, n := 15, st := 0x8, rw := 0xffff, rst := 0x1999 }
  , { base := 0x0d010000, n := 512, st := 0x10, rw := 0x800000ff, rst := 0x14 }
  , { base := 0x0d010004, n := 512, st := 0x10, rw := 0xffffffff }
  , { base := 0x0d010008, n := 512, st := 0x10, rw := 0xffffff }
  , { base := 0x0d01000c, n := 512, st := 0x10 }
  , { base := 0x0d020000, n := 4096, st := 0x10, rw := 0x8fffffff, rst := 0x180000 }
  , { base := 0x0d020004, n := 4096, st := 0x10, rw := 0xffffffff }
  , { base := 0x0d020008, n := 4096, st := 0x10, rw := 0xffffff }
  , { base := 0x0d02000c, n := 4096, st := 0x10 } ]

/-! ## Window 0E: Lofts (R374) -/

/-- LFT_VERSION. -/
def lftVersion : Nat := 0x0e000000
/-- LFT_CMD. -/
def lftCmd : Nat := 0x0e000010
/-- LFT_CMD_STATUS. -/
def lftCmdStatus : Nat := 0x0e000014
/-- LFT_CMD_LOFTS_LO. -/
def lftCmdLoftsLo : Nat := 0x0e000018
/-- LFT_CMD_LOFTS_HI. -/
def lftCmdLoftsHi : Nat := 0x0e00001c
/-- LFT_DATA. -/
def lftData (i : Nat) : Nat := 0x0e000020 + 0x4 * i
/-- LFT_ERR. -/
def lftErr : Nat := 0x0e000100
/-- LFT_ERR_LOC. -/
def lftErrLoc : Nat := 0x0e000104
/-- LFT_CRW_CFG. -/
def lftCrwCfg : Nat := 0x0e000110
/-- LFT_GROUP[g]. -/
def lftGroup (i : Nat) : Nat := 0x0e000200 + 0x4 * i
/-- LFT_DBG_SEL. -/
def lftDbgSel : Nat := 0x0e000300
/-- LFT_DBG_CMD. -/
def lftDbgCmd : Nat := 0x0e000304
/-- LFT_DBG_STATUS. -/
def lftDbgStatus : Nat := 0x0e000308
/-- LFT_DBG_DATA_LO. -/
def lftDbgDataLo : Nat := 0x0e000310
/-- LFT_DBG_DATA_HI. -/
def lftDbgDataHi : Nat := 0x0e000314
/-- LFT_DBG_BP[k]. -/
def lftDbgBp (i : Nat) : Nat := 0x0e000320 + 0x4 * i
/-- LFT_PROG[p]. -/
def lftProg (i : Nat) : Nat := 0x0e001000 + 0x4 * i
/-- LFT_LOFT_CFG[l]. -/
def lftLoftCfg (i : Nat) : Nat := 0x0e008000 + 0x80 * i
/-- LFT_PAGE_PERM[l][p]. -/
def lftPagePerm (i : Nat) (j : Nat) : Nat := 0x0e008040 + 0x80 * i + 0x4 * j
/-- LFT_ENG_CFG[e]. -/
def lftEngCfg (i : Nat) : Nat := 0x0e00a000 + 0x10 * i
/-- LFT_ENG_CTL[e]. -/
def lftEngCtl (i : Nat) : Nat := 0x0e00a004 + 0x10 * i
/-- LFT_ENG_STATUS[e]. -/
def lftEngStatus (i : Nat) : Nat := 0x0e00a008 + 0x10 * i
/-- LFT_THR_STATUS[i]. -/
def lftThrStatus (i : Nat) : Nat := 0x0e010000 + 0x4 * i

/-- The registers of window 0E (R374). -/
def rowsLofts : List RegRow :=
  [ { base := 0x0e000000, rst := 0x10000 }
  , { base := 0x0e000010, rw := 0x78007fff }
  , { base := 0x0e000014, rc := 0x3 }
  , { base := 0x0e000018, rw := 0xffffffff, kind := .pairLo }
  , { base := 0x0e00001c, rw := 0xffffffff, kind := .pairHi }
  , { base := 0x0e000020, n := 16, st := 0x4, rw := 0xffffffff }
  , { base := 0x0e000100, rc := 0x7 }
  , { base := 0x0e000104 }
  , { base := 0x0e000110, rw := 0x7003f }
  , { base := 0x0e000200, n := 64, st := 0x4, rw := 0xc1ffffff }
  , { base := 0x0e000300, rw := 0x80000fff }
  , { base := 0x0e000304, rw := 0x7800003f }
  , { base := 0x0e000308 }
  , { base := 0x0e000310, rw := 0xffffffff, kind := .pairLo }
  , { base := 0x0e000314, rw := 0xffffffff, kind := .pairHi }
  , { base := 0x0e000320, n := 8, st := 0x4, rw := 0xfe7fffff }
  , { base := 0x0e001000, n := 4096, st := 0x4, rw := 0x8000003f }
  , { base := 0x0e008000, n := 64, st := 0x80, rw := 0x7f, rst := 0x60 }
  , { base := 0x0e008040, n := 64, st := 0x80, n2 := 16, st2 := 0x4, rw := 0xffff, rst := 0xffff }
  , { base := 0x0e00a000, n := 512, st := 0x10, rw := 0x80ff7fff, rst := 0x100000 }
  , { base := 0x0e00a004, n := 512, st := 0x10 }
  , { base := 0x0e00a008, n := 512, st := 0x10, rst := 0x40000000 }
  , { base := 0x0e010000, n := 4096, st := 0x4 } ]

/-! ## Window 0F: Cupboard (R392) -/

/-- CUP_VERSION. -/
def cupVersion : Nat := 0x0f000000
/-- CUP_CFG. -/
def cupCfg : Nat := 0x0f000010
/-- CUP_ERR. -/
def cupErr : Nat := 0x0f000014
/-- CUP_ERR_LOC. -/
def cupErrLoc : Nat := 0x0f000018
/-- CUP_CTL_BASE_LO. -/
def cupCtlBaseLo : Nat := 0x0f000020
/-- CUP_CTL_BASE_HI. -/
def cupCtlBaseHi : Nat := 0x0f000024
/-- CUP_RECLAIM. -/
def cupReclaim : Nat := 0x0f000030
/-- CUP_RECLAIM_COUNT. -/
def cupReclaimCount : Nat := 0x0f000034
/-- CUP_POOL_CFG[k]. -/
def cupPoolCfg (i : Nat) : Nat := 0x0f000100 + 0x40 * i
/-- CUP_POOL_BASE_LO. -/
def cupPoolBaseLo (i : Nat) : Nat := 0x0f000104 + 0x40 * i
/-- CUP_POOL_BASE_HI. -/
def cupPoolBaseHi (i : Nat) : Nat := 0x0f000108 + 0x40 * i
/-- CUP_POOL_COUNT[k]. -/
def cupPoolCount (i : Nat) : Nat := 0x0f00010c + 0x40 * i
/-- CUP_POOL_RING_LO. -/
def cupPoolRingLo (i : Nat) : Nat := 0x0f000110 + 0x40 * i
/-- CUP_POOL_RING_HI. -/
def cupPoolRingHi (i : Nat) : Nat := 0x0f000114 + 0x40 * i
/-- CUP_POOL_LOW[k]. -/
def cupPoolLow (i : Nat) : Nat := 0x0f000118 + 0x40 * i
/-- CUP_POOL_TIGHT. -/
def cupPoolTight (i : Nat) : Nat := 0x0f00011c + 0x40 * i
/-- CUP_POOL_CRIT. -/
def cupPoolCrit (i : Nat) : Nat := 0x0f000120 + 0x40 * i
/-- CUP_POOL_STATUS[k]. -/
def cupPoolStatus (i : Nat) : Nat := 0x0f000124 + 0x40 * i
/-- CUP_FN_GRANT. -/
def cupFnGrant (i : Nat) (j : Nat) : Nat := 0x0f010000 + 0x100 * i + 0x4 * j
/-- CUP_FN_FREE[f]. -/
def cupFnFree (i : Nat) : Nat := 0x0f010020 + 0x100 * i
/-- CUP_FN_SHARE_REF. -/
def cupFnShareRef (i : Nat) : Nat := 0x0f010024 + 0x100 * i
/-- CUP_FN_SHARE[f]. -/
def cupFnShare (i : Nat) : Nat := 0x0f010028 + 0x100 * i
/-- CUP_FN_STATUS[f]. -/
def cupFnStatus (i : Nat) : Nat := 0x0f01002c + 0x100 * i
/-- CUP_FN_ERR[f]. -/
def cupFnErr (i : Nat) : Nat := 0x0f010030 + 0x100 * i

/-- The registers of window 0F (R392). -/
def rowsCupboard : List RegRow :=
  [ { base := 0x0f000000, rst := 0x10000 }
  , { base := 0x0f000010, rw := 0xffff, rst := 0x64 }
  , { base := 0x0f000014, rc := 0xf }
  , { base := 0x0f000018 }
  , { base := 0x0f000020, rw := 0xffffffff, kind := .pairLo }
  , { base := 0x0f000024, rw := 0xffffffff, kind := .pairHi }
  , { base := 0x0f000030, rw := 0xffff }
  , { base := 0x0f000034 }
  , { base := 0x0f000100, n := 8, st := 0x40, rw := 0xc000001f, rst := 0x40000000, rstf := some .cupPoolCfgReset }
  , { base := 0x0f000104, n := 8, st := 0x40, rw := 0xffffffff, kind := .pairLo }
  , { base := 0x0f000108, n := 8, st := 0x40, rw := 0xffffffff, kind := .pairHi }
  , { base := 0x0f00010c, n := 8, st := 0x40, rw := 0x3fffff }
  , { base := 0x0f000110, n := 8, st := 0x40, rw := 0xffffffff, kind := .pairLo }
  , { base := 0x0f000114, n := 8, st := 0x40, rw := 0xffffffff, kind := .pairHi }
  , { base := 0x0f000118, n := 8, st := 0x40, rw := 0x3fffff, rst := 0x1000 }
  , { base := 0x0f00011c, n := 8, st := 0x40, rw := 0x3fffff, rst := 0x400 }
  , { base := 0x0f000120, n := 8, st := 0x40, rw := 0x3fffff, rst := 0x100 }
  , { base := 0x0f000124, n := 8, st := 0x40 }
  , { base := 0x0f010000, n := 64, st := 0x100, n2 := 8, st2 := 0x4, rc := 0xffffffff }
  , { base := 0x0f010020, n := 64, st := 0x100 }
  , { base := 0x0f010024, n := 64, st := 0x100, rw := 0xffffffff }
  , { base := 0x0f010028, n := 64, st := 0x100 }
  , { base := 0x0f01002c, n := 64, st := 0x100, rc := 0x80 }
  , { base := 0x0f010030, n := 64, st := 0x100, rc := 0x1fe } ]

/-! ## Window 10: Cellar (R462) -/

/-- CEL_VERSION. -/
def celVersion : Nat := 0x10000000
/-- CEL_PART. -/
def celPart : Nat := 0x10000010
/-- CEL_LOCK. -/
def celLock : Nat := 0x10000014
/-- CEL_SR_CFG. -/
def celSrCfg : Nat := 0x10000018
/-- CEL_ACT_CFG. -/
def celActCfg : Nat := 0x1000001c
/-- CEL_SCRUB_CTL. -/
def celScrubCtl : Nat := 0x10000020
/-- CEL_SCRUB_STATUS. -/
def celScrubStatus : Nat := 0x10000024
/-- CEL_ERR. -/
def celErr : Nat := 0x10000030
/-- CEL_ERR_INFO. -/
def celErrInfo : Nat := 0x10000034
/-- CEL_ERR_ADDR_LO. -/
def celErrAddrLo : Nat := 0x10000038
/-- CEL_ERR_ADDR_HI. -/
def celErrAddrHi : Nat := 0x1000003c
/-- CEL_STK_STATUS[k]. -/
def celStkStatus (i : Nat) : Nat := 0x10000100 + 0x10 * i
/-- CEL_STK_CHFAIL[k]. -/
def celStkChfail (i : Nat) : Nat := 0x10000104 + 0x10 * i

/-- The registers of window 10 (R462). -/
def rowsCellar : List RegRow :=
  [ { base := 0x10000000, rst := 0x10000 }
  , { base := 0x10000010, rw := 0xffffffff, rst := 0x18082040 }
  , { base := 0x10000014, rw := 0x1 }
  , { base := 0x10000018, rw := 0xffff, rst := 0x32 }
  , { base := 0x1000001c, rw := 0xffffffff, rst := 0xc0f0064 }
  , { base := 0x10000020, rw := 0x1, rst := 0x1 }
  , { base := 0x10000024 }
  , { base := 0x10000030, rc := 0x7f }
  , { base := 0x10000034 }
  , { base := 0x10000038, kind := .pairLo }
  , { base := 0x1000003c, kind := .pairHi }
  , { base := 0x10000100, n := 4, st := 0x10 }
  , { base := 0x10000104, n := 4, st := 0x10 } ]

/-! ## Window FN: FnPage (R423) -/

/-- DWY_FN_ID. -/
def dwyFnId (i : Nat) : Nat := 0x20000000 + 0x200000 * i
/-- DWY_FN_FMT. -/
def dwyFnFmt (i : Nat) : Nat := 0x20000004 + 0x200000 * i
/-- DWY_FN_PM. -/
def dwyFnPm (i : Nat) : Nat := 0x20000008 + 0x200000 * i
/-- DWY_FN_ERR. -/
def dwyFnErr (i : Nat) : Nat := 0x2000000c + 0x200000 * i
/-- BEL_FN_EOI. -/
def belFnEoi (i : Nat) : Nat := 0x20000800 + 0x200000 * i

/-- The registers of window FN (R423). -/
def rowsFnPage : List RegRow :=
  [ { base := 0x20000000, n := 64, st := 0x200000, rstf := some .fnIdReset }
  , { base := 0x20000004, n := 64, st := 0x200000, rw := 0x3, rst := 0x602 }
  , { base := 0x20000008, n := 64, st := 0x200000, rw := 0x1 }
  , { base := 0x2000000c, n := 64, st := 0x200000, rc := 0xf }
  , { base := 0x20000800, n := 64, st := 0x200000 } ]

/-- The rows of the window that holds address `a`: windows 0x00 to 0x10 under R4, and the function
pages of R395 from 0x2000_0000; a reserved window has none. -/
def rowsOf (a : Nat) : List RegRow :=
  if 0x20000000 ≤ a then rowsFnPage else
  match a / 0x1000000 with
  | 0x00 => rowsAttic
  | 0x01 => rowsMasthead
  | 0x02 => rowsCounters
  | 0x03 => rowsDoorway
  | 0x04 => rowsBellboard
  | 0x05 => rowsPorch
  | 0x06 => rowsThreshold
  | 0x07 => rowsHallway
  | 0x08 => rowsGallery
  | 0x09 => rowsLarder
  | 0x0A => rowsCrowsnest
  | 0x0B => rowsCheck
  | 0x0C => rowsStairwell
  | 0x0D => rowsSheet
  | 0x0E => rowsLofts
  | 0x0F => rowsCupboard
  | 0x10 => rowsCellar
  | _ => []

/-- The register at an address: its row and its index within the row; `none` where R6 holds. -/
def regAt (a : Nat) : Option (RegRow × Nat × Nat) :=
  (rowsOf a).findSome? fun r => (r.hit a).map fun p => (r, p.1, p.2)

/-- The value of the register at `a` right after reset. -/
def regReset (a : Nat) : Word :=
  match regAt a with
  | some (r, i, j) => BitVec.ofNat 32 (r.resetVal i j)
  | none => 0

end Sys2Proof.Machine
end

