-- ==== Sys2Proof/Machine/State.lean ====
section
/-! DEFINITION. The state of the FD-7140, all plain data. Registers stand in one sparse table keyed
by their PF0 BAR0 offset; what the units hold beyond registers stands in one record a unit. -/

namespace Sys2Proof.Machine

/-- Why the machine stops with a fault. No meaning of this model ends in one. -/
inductive Fault where
  /-- Raised by no meaning: the part reports errors in its registers and goes on (safe). -/
  | none
deriving DecidableEq, Repr

/-- Why a command has no meaning. -/
inductive Refusal where
  /-- Raised by a dispatch arm whose command has no meaning yet (safe). -/
  | notModelled (mnemonic : String)
  /-- Raised by JTAG_ACCESS for an instruction beyond IEEE 1149.1 that R475 lets through: the spec
  gives it no effect (safe). -/
  | jtagBeyond
deriving DecidableEq, Repr

/-- Which error-correcting memory a flagged word is in. -/
inductive EccMem where
  | thr
  | hlw
  | galRow
  | galShadow
  | lrdShelf
  | crwCache
  | pantry
  | wakeBuf
  | policer
  | shaper
  | lftLocal
  | lftShared
  | lftIs
  | cupBitmap
  | cupCache
  | belRoute
  | counter
  | cellar
deriving DecidableEq, Repr

/-- What leaves the part: the model's own record of it, newest last. -/
inductive Emission where
  /-- A frame sent on a port, its FCS included; `bad` where it is poisoned. -/
  | frame (port : Nat) (bytes : List Byte) (bad : Bool)
  /-- A write of the part into host memory. -/
  | hostWrite (addr : Nat) (bytes : List Byte)
  /-- A read of host memory that the part asks for. -/
  | hostRead (addr len : Nat)
  /-- An MSI-X message. -/
  | msix (fn vec : Nat) (addr : Nat) (data : Word)
  /-- A back-invalidation of one 64-byte line of the memory window. -/
  | backInvalidate (line : Nat)
  /-- PM_PME of a function. -/
  | pme (fn : Nat)
  /-- An answer to a configuration request. -/
  | config (fn : Nat) (retry : Bool)
deriving DecidableEq, Repr

/-- A report that waits at the Masthead arbiter (R503). -/
structure Report where
  src : Nat
  inst : Nat
  info : Word
  merged : Nat
deriving DecidableEq, Repr

/-- An entry of the Masthead log (R522) and whether MST_LOG_SEL has read it. -/
structure LogEntry where
  n : Nat
  words : List Word
  read : Bool
deriving DecidableEq, Repr

/-- A counter snapshot that is being dumped (R527, R529). -/
structure Snap where
  time : Nat
  manual : Bool
  skipped : Bool
  period : Nat
  slots : Nat
  base : Nat
  ctrs : Tbl (Nat × Nat)
  wraps : Tbl Word
deriving DecidableEq, Repr

/-- Masthead and the counters beyond their registers (R503 to R534). -/
structure Mast where
  waiting : List Report
  log : List LogEntry
  firstHeld : Bool
  recov : List Nat
  esc : Tbl Nat
  escWindow : Nat
  quietFrom : Nat
  mons : List (Nat × Nat)
  injectKey : Nat
  checkerFired : Bool
  alivePin : Bool
  reservedAccesses : Nat
  ctrs : Tbl (Nat × Nat)
  snap : Option Snap
  snapSkipped : Bool
  snapPeriod : Nat
  dumpSeq : Nat
deriving DecidableEq, Repr

/-- Bellboard beyond its registers (R425 to R440). -/
structure Bell where
  pulses : List Nat
  condSeen : List Nat
  unrouted : List Nat
  arb : Tbl Nat
  msix : List Nat
  msixLast : Tbl Nat
deriving DecidableEq, Repr

/-- A burst command that a Cellar retry buffer keeps (R456). -/
structure CelCmd where
  write : Bool
  req : Nat
  addr : Nat
  len : Nat
deriving DecidableEq, Repr

/-- A throttle in force (R455). -/
structure Throttle where
  bank : Nat
  req : Nat
  untilUs : Nat
deriving DecidableEq, Repr

/-- A write that waits for back-invalidations (R397). -/
structure HeldWrite where
  req : Nat
  addr : Nat
  bytes : List Byte
  poison : Bool
  lines : List Nat
deriving DecidableEq, Repr

/-- Cellar beyond its registers (R442 to R461). A bank is numbered over all stacks:
(stack × 32 + pseudo-channel) × 64 + bank. -/
structure Cel where
  mem : List Host.Cell
  poison : List Nat
  openRow : Tbl Nat
  raa : Tbl Nat
  raaimt : Nat
  raammt : Nat
  acts : Tbl Nat
  throttles : List Throttle
  retry : Tbl (List CelCmd)
  alerts : Tbl (Nat × Nat)
  scrubPos : Tbl Nat
  scrubDone : Nat
  held : List HeldWrite
deriving DecidableEq, Repr

/-- A key slot in the fuses (R475). -/
structure KeySlot where
  hash : Nat
  isSet : Bool
  revoked : Bool
deriving DecidableEq, Repr

/-- The step of the boot ROM (R467, R473, R477): the slots not yet tried, the section and the
record reached, and what the sections have loaded. -/
structure Boot where
  order : List Nat
  sect : Nat
  record : Nat
  waiting : Bool
  thrSlices : Nat
  code : Bool
  reservedStarted : Bool
  wake : Bool
deriving DecidableEq, Repr

/-- Crowsnest state saved over Shuttered (R493). -/
structure SavedCrw where
  epoch : Word
  migStatus : Word
  left : Word
  marked : Bool
deriving DecidableEq, Repr

/-- Attic beyond its registers, with the fuses, the flash, the straps and the low-speed pins
(R464 to R501, R541, R553, R554). `bootFrom` and `doneFrom` are instants of `State.cycles`: where this boot
began, and where the count of R486 did. `saved` is there while the part is fully Shuttered. -/
structure Attic where
  flash : List Host.Cell
  flashLog2 : Nat
  fuseSvn : Nat
  keys : List KeySlot
  testFuse : Bool
  testPin : Bool
  strapSlot : Nat
  strapFlash : Nat
  perstN : Bool
  wakeN : Bool
  boot : Boot
  bootFrom : Nat
  doneFrom : Nat
  flCmd : Option (Nat × Nat)
  restartDeferred : Bool
  slew : Int
  timeSet : Option Nat
  saved : Option SavedCrw
  mem : List Host.Cell
  sbDyn : Option Nat
  jtagIr : Nat
  jtagDr : List Bool
deriving DecidableEq, Repr


/-- A Cupboard pool beyond its registers (R380, R383, R389): the cached indices, the ring's head,
tail and count, the allocated buffers, and the bitmap words out of service. -/
structure Pool where
  cache : List Nat
  head : Nat
  tail : Nat
  cnt : Nat
  alloc : List Nat
  oos : List Nat
deriving DecidableEq, Repr

/-- Cupboard beyond its registers: the pools, each slice's grant queue of ticket ids (R382), the
slice served last, and how far the reclaim has come (R391). -/
structure Cup where
  pools : Tbl Pool
  grantQ : Tbl (List Nat)
  rr : Nat
  reclaimPos : Nat
deriving DecidableEq, Repr

/-- A ticket (R341, R345): what its record and its buffer are made of. `buf` is 0 until Cupboard
has granted a buffer. -/
structure Ticket where
  src : Nat
  prog : Nat
  flow16 : Nat
  cause : Nat
  inPort : Nat
  data : List Byte
  md : Nat
  rxTs : Nat
  qp : Nat
  slice : Nat
  fid : Nat
  pool : Nat
  buf : Nat
  cap : Nat
  shared : Bool
  sampler : Nat
  dataLen : Nat
  headLen : Nat
  owed : Nat
deriving DecidableEq, Repr

/-- An entry that Doorway has taken and whose completion is not yet written (R402, R412).
`wait` says what it waits for: 0 nothing, 1 host memory, 2 its ticket. -/
structure Taken where
  idx : Nat
  typ : Nat
  words : List Word
  gen : Nat
  wait : Nat
  status : Nat
  len : Nat
  tag : Nat
  buf : Nat
  handle : Nat
  inPort : Nat
  off : Nat
  ticket : Nat
  copy : Option (Nat × List Byte)
deriving DecidableEq, Repr

/-- A completion: its 16 bytes, the buffer of a BUF FRAME, and the data of a COPY delivery. -/
structure Cmpl where
  bytes : List Byte
  buf : Nat
  copy : Option (Nat × List Byte)
deriving DecidableEq, Repr

/-- A queue pair beyond its registers (R398 to R419). -/
structure DwyQ where
  prefetch : List (List Word)
  taken : List Taken
  held : List Cmpl
  recv : List (Nat × List Word)
  since : Nat
  sinceNs : Nat
  sigPending : Bool
  mirrorDue : Bool
  prev : Nat
  waited : Bool
deriving DecidableEq, Repr

/-- A function beyond its registers: its configuration space bits and its host's power state
(R393, R418, R437). `asleep` is host sleep. -/
structure DwyFn where
  enabled : Bool
  msixEn : Bool
  msixMask : Bool
  busMaster : Bool
  pmeEn : Bool
  asleep : Bool
deriving DecidableEq, Repr

/-- An entry of the MSI-X table. -/
structure MsixEnt where
  addr : Nat
  data : Word
  masked : Bool
deriving DecidableEq, Repr

/-- Doorway beyond its registers (R394 to R421). -/
structure Dwy where
  tracker : List Nat
  queues : Tbl DwyQ
  fns : Tbl DwyFn
  msix : Tbl MsixEnt
  linkL2 : Bool
  perstRose : Nat
deriving DecidableEq, Repr

/-- A message in a letterbox (R358). -/
structure Letter where
  sender : Nat
  words : List Word64
deriving DecidableEq, Repr

/-- The W instruction a thread waits in (R335): the register its result goes to and the result, or
for a wfe the mask it waits on. -/
structure WaitOp where
  d : Nat
  result : Word64
  wfe : Option Nat
deriving DecidableEq, Repr

/-- A hardware thread (R333 to R364); thread 4,096 is the Attic controller (R498). `state` is
numbered as in R334. -/
structure Thread where
  x : Tbl Word64
  pc : Nat
  finfo : Word64
  vret : Nat
  timer : Nat
  staging : Tbl Word64
  letters : List Letter
  queue : List Nat
  ticket : Option Nat
  state : Nat
  wait : Option WaitOp
  inVector : Bool
  tail : Bool
deriving DecidableEq, Repr

/-- An engine beyond its registers: its event flags, whether the deadlock detector has fired since a
thread last became RUNNABLE, and the other threads' state that a debugger command holds. -/
structure Engine where
  flags : Nat
  dlFired : Bool
deriving DecidableEq, Repr

/-- Lofts beyond its registers (R332 to R373). Engine-local byte a of engine e is at 65,536 e + a,
shared byte a of loft l at 262,144 l + a, instruction i of loft l at 32,768 l + i. `ports`
holds the CMD_STATUS of each loft's command ports (R352), that of window w for loft l at 256 l + w. -/
structure Lft where
  threads : Tbl Thread
  engines : Tbl Engine
  localMem : Tbl Byte
  shared : Tbl Byte
  istore : Tbl Word64
  tickets : Tbl Ticket
  nextTicket : Nat
  ports : Tbl Word
deriving DecidableEq, Repr

/-- Where a frame's head stands (R96 to R123): nowhere (no head, or done with Hallway), in the wake
buffer, in the head queue, in a head slot, in Threshold, in the chain, parked (R110, R111), parked on
leaving stage 23, or in the re-entry queue. -/
inductive HeadAt where
  | none
  | wake
  | queued
  | slot
  | parsing
  | chain
  | parked
  | parkedOut
  | reentry
deriving DecidableEq, Repr

/-- A member of a placement set, and of the copies that follow it (R221 to R223, R286). `dest` is its
egress: a port below 512, or 512 + a group; `outVer` its out version; `pend` its list marker. -/
structure Member where
  target : Nat
  dest : Nat
  pos : Nat
  pend : Bool
  outVer : Nat
deriving DecidableEq, Repr

/-- What a remote lookup brings back (R108). -/
inductive Answer where
  | hit (action : BitVec 128)
  | miss
  | crow (cls : Nat) (place : BitVec 128) (members : List Member) (report : List (Nat × Nat × Nat))
  | error
deriving DecidableEq, Repr

/-- A remote lookup that a head has outstanding: its number, the Hallway table that issued it, its JOIN
stage, whether it goes to Crowsnest, the Larder table, the key; the answer on its way, and the answer that
has come. `taken` says that the unit has taken it up. -/
structure Remote where
  id : Nat
  table : Nat
  join : Nat
  crow : Bool
  target : Nat
  key : List Byte
  taken : Bool
  found : Option Answer
  answer : Option Answer
deriving DecidableEq, Repr

/-- How a chain has ended, before the head leaves Hallway (R97). -/
inductive Ending where
  | dest
  | drop
  | lofts (prog : Nat)
  | again (flow addr : Nat)
  | cause (c : Nat)
deriving DecidableEq, Repr

/-- The head of a frame in its slice (R64 to R126). `entry` is how it re-enters: 0 at stage 0, 1 at
its JOIN, 2 at Threshold word `start`. `stage` is the next stage it meets. -/
structure Head where
  pos : HeadAt
  seq : Nat
  entry : Nat
  start : Nat
  profile : Nat
  consts : List Nat
  running : Bool
  hv : List Byte
  md : BitVec 1024
  parityBad : Bool
  stage : Nat
  remote : List Remote
  crow : Bool
  members : List Member
  report : List (Nat × Nat × Nat)
  edits : Nat
  ending : Option Ending
deriving DecidableEq, Repr

/-- What Stairwell has made of a frame (R269 to R304). `queues` are the queues it is to enter or is in,
`ports` its copies with their members of a placement, `counts` whether those take outcomes, `owed` the
egress slices that have not reported, `verify` 0 no check, 1 awaiting the ingress check unit, 2 done;
`mirror` the session of a mirror copy and `mirrorOf`
the frame it copies, until its bytes are taken. -/
structure Fab where
  kind : Nat
  dest : Nat
  tc : Nat
  ct : Bool
  declared : Nat
  hash : Nat
  queues : List Nat
  ports : List (Nat × Option Member)
  counts : Bool
  owed : List Nat
  admitted : Bool
  refused : Nat
  verify : Nat
  mirror : Option Nat
  mirrorOf : Option Nat
deriving DecidableEq, Repr

/-- A frame, from its first byte to the release of what it holds. `len` is its length L of R40,
`data` its bytes without FCS as the edits have left them, `orig` as received; `units` and `hr` are
the shared-pool and headroom units it holds; `sets` and `mark` the placement-set references and the
in-flight count it owes (R223, R252), `events` the notice types and reasons that have befallen it and
`settled` that its ingress is over (R243), `buf` a buffer that is freed with it (R384). -/
structure Frame where
  port : Nat
  len : Nat
  data : List Byte
  orig : List Byte
  complete : Bool
  bad : Bool
  lost : Bool
  origin : Nat
  rxTs : Nat
  units : Nat
  hr : Nat
  counted : Option Nat
  head : Head
  fab : Fab
  sets : List Nat
  mark : Option Bool
  events : List (Nat × Nat)
  settled : Bool
  noticed : Bool
  isOver : Bool
  buf : Nat
deriving DecidableEq, Repr

/-- The pipeline state of a slice: lists of frame numbers, oldest first. `aged` says that the oldest
re-entry has waited 16 core cycles. -/
structure Slice where
  wake : List Nat
  headQ : List Nat
  slots : List Nat
  park : List Nat
  reentry : List Nat
  hostQ : List Nat
  aged : Bool
deriving DecidableEq, Repr

/-- What Porch records of a partner (R59). -/
structure Peer where
  up : Bool
  vers : Nat
  health : Nat
  target : Nat
  isTarget : Bool
  isDevice : Bool
  node : Nat
deriving DecidableEq, Repr

/-- A frame that is arriving at a port. -/
structure RxPart where
  bytes : List Byte
  err : Bool
  total : Nat
  ts : Nat
  fid : Option Nat
  discard : Bool
deriving DecidableEq, Repr

/-- A copy that Sheet has chosen for a port: its declared length, its out version (R224), and whether and
when Porch has begun it. -/
structure Tx where
  copy : Nat
  declared : Nat
  out : Nat
  begun : Bool
  startNs : Nat
deriving DecidableEq, Repr

/-- Porch's state of a port beyond its registers. `pause` holds a timer for each priority (p) and,
for PAUSE, each class (8 + c); `xoff` is what Stairwell has posted; `pfcDue` and `helloDue` (2: with
REPLY_REQ) what is to be sent; `posts` the partner changes on their way to Crowsnest. -/
structure Port where
  rx : Option RxPart
  tx : Option Tx
  pause : Tbl Nat
  xoff : Nat
  pfcDue : Nat
  helloDue : Nat
  replyDue : Bool
  helloSeq : Nat
  peer : Peer
  peerSeq : Option Nat
  lastHelloNs : Option Nat
  holdMs : Nat
  posts : List Peer
  ts : List (Nat × Nat)
  disableDue : Bool
  downSince : Nat
deriving DecidableEq, Repr

/-- Porch, Threshold and the frames. Word a of the store of slice s is at 8,192 s + a. -/
structure Pipe where
  frames : Tbl Frame
  nextFid : Nat
  nextSeq : Nat
  slices : Tbl Slice
  ports : Tbl Port
  store : Tbl (BitVec 256)
  lastHold : Tbl Nat
deriving DecidableEq, Repr

/-- Hallway's tables (R99 to R131). Word a of the stage SRAM of slice s is at 2^18 s + a, table t at
192 s + t. The staged tables hold the batch's writes until it settles. -/
structure Hlw where
  sram : Tbl (BitVec 128)
  defs : Tbl (BitVec 256)
  newSram : Tbl (BitVec 128)
  newDefs : Tbl (BitVec 256)
  committed : Bool
deriving DecidableEq, Repr

/-- A placement set (R222, R223). -/
structure PSet where
  members : List Member
  refs : Nat
deriving DecidableEq, Repr

/-- A frame of a VOQ that is in its spill order (R279, R281): `kept` while it stays on die in its place
there, `written` once its copy is written, `pieces` where (Cellar address, bytes), `size` its bytes. -/
structure SpillRec where
  fid : Nat
  kept : Bool
  written : Bool
  pieces : List (Nat × Nat)
  size : Nat
deriving DecidableEq, Repr

/-- A queue of an ingress slice (R269, R279): `st` 0 DIE, 1 SPILL, 2 LATCH; `die` its frames on die,
`latch` those behind the spill latch, `blocks` its spill blocks, oldest first, `fill` the bytes taken
in the newest. `sent` is how far the first frame has been granted. -/
structure Voq where
  st : Nat
  die : List Nat
  spill : List SpillRec
  latch : List Nat
  blocks : List Nat
  fill : Nat
  sent : Nat
deriving DecidableEq, Repr

/-- A cell on its way: its queue and the parts of frames it carries (frame, bytes). -/
structure Cell where
  src : Nat
  dst : Nat
  q : Nat
  segs : List (Nat × Nat)
deriving DecidableEq, Repr

/-- A frame at an egress slice (R284, R288): the queue it came through, the bytes of cell space expected
and come, the units reserved and held; `bad` the poison reason of a copy. -/
structure EgFrame where
  fid : Nat
  dst : Nat
  q : Nat
  want : Nat
  got : Nat
  resv : Nat
  hold : Nat
  bad : Nat
deriving DecidableEq, Repr

/-- A copy at the egress (R286 to R291, R239): `counts` says that it takes an outcome, `chk` 1 while it
waits for its append check unit and 2 once appended, when `bytes` are its bytes; `st` 0 queued, 1 chosen,
2 begun, 3 sent or abandoned with `result`; `told` once its outcome is decided; `poison` 0 for none, 1
ingress FCS, 2 underrun, 3 buffer. -/
structure Copy where
  fid : Nat
  dst : Nat
  port : Nat
  tc : Nat
  kind : Nat
  member : Option Member
  counts : Bool
  units : Nat
  chk : Nat
  bytes : List Byte
  marked : Bool
  st : Nat
  result : Nat
  told : Bool
  poison : Nat
deriving DecidableEq, Repr

/-- A generic multicast set (R302). -/
structure GSet where
  bitmap : BitVec 512
  groups : List Nat
deriving DecidableEq, Repr

/-- A LAG or ECMP group (R302). -/
structure Group where
  auto : Bool
  count : Nat
  base : Nat
  live : BitVec 64
deriving DecidableEq, Repr

/-- A group member (R302). -/
structure GMember where
  nhEn : Bool
  port : Nat
  nh : Nat
deriving DecidableEq, Repr

/-- Stairwell (R269 to R304). Queue q of slice s is at 4,224 s + q, egress queue (p, c) at 8 p + c,
the egress frame of frame f at slice e at 16 f + e, sampler k of slice s at 64 s + k; `egCur` names the
ingress slice whose frame queue q is in the midst of. -/
structure Stw where
  voqs : Tbl Voq
  cells : List Cell
  eg : Tbl EgFrame
  egq : Tbl (List Nat)
  copies : Tbl Copy
  nextCopy : Nat
  rr : Tbl Nat
  egCur : Tbl Nat
  spillUsed : Tbl (List Nat)
  sets : Tbl GSet
  groups : Tbl Group
  members : Tbl GMember
  samp : Tbl (Nat × Nat)
deriving DecidableEq, Repr

/-- The live state of a roster entry (R202, R204): `health` is what SET_HEALTH gave, 4 before that. -/
structure CrwTgt where
  valid : Bool
  vers : Nat
  hsrc : Bool
  legacy : Bool
  kind : Nat
  dest : Nat
  node : Nat
  health : Nat
deriving DecidableEq, Repr

/-- A target as the map builder ranks it (R206, R207). -/
structure RankEnt where
  id : Nat
  weight : Nat
  dom : List Nat
deriving DecidableEq, Repr

/-- A map build (R228 to R231): `low` is the lowest group not yet built, `ahead` the groups built above
it. -/
structure CrwBuild where
  initial : Bool
  first : Nat
  count : Nat
  low : Nat
  ahead : List Nat
  done : Nat
  limit : Nat
  out : Nat
  stAddr : Nat
  tag : Nat
  changed : Nat
  plan : Nat
  roster : List RankEnt
deriving DecidableEq, Repr

/-- A migration job (R251, R252, R256). -/
structure CrwMig where
  op : Nat
  tag : Nat
  stAddr : Nat
  next : Nat
  stop : Nat
  moved : Nat
  draining : Bool
  oldBit : Nat
deriving DecidableEq, Repr

/-- Crowsnest beyond its registers (R197 to R256). A cache set holds (group, record) pairs, the most
recently used first; `peers` is the partner state as posted; `loads` is by egress queue 8 p + c;
`setLru` holds the placement sets that have been used, the least recently used first; `tokens` are in
millionths of a notice token. -/
structure Crw where
  sets : Tbl PSet
  setLru : List Nat
  roster : Tbl CrwTgt
  setLoads : Tbl Nat
  peers : Tbl Peer
  cache : Tbl (List (Nat × List Byte))
  missQ : List (Nat × List (Nat × Nat))
  rr : Nat
  loads : Tbl Nat
  flying : Tbl (List Nat)
  build : Option CrwBuild
  mig : Option CrwMig
  marked : Bool
  tokens : Tbl Nat
deriving DecidableEq, Repr


/-- An entry of a Gallery copy (R143, R151). `vis` holds its visibility in parity 0 and in parity 1 as
its shadow records it; `hidden` while a mismatch keeps it invisible (R160); `staged` while the batch
has a staged write on it (R131). -/
structure GalEnt where
  table : Nat
  value : Nat
  mask : Nat
  result : Nat
  vis0 : Bool
  vis1 : Bool
  hidden : Bool
  staged : Bool
deriving DecidableEq, Repr

/-- A bulk-load job (R156 to R158). -/
structure GalJob where
  addr : Nat
  count : Nat
  done : Nat
  failed : Nat
  first : Nat
  last : Nat
  tag : Nat
  stop : Bool
  stAddr : Nat
  aborting : Bool
deriving DecidableEq, Repr

/-- Gallery: the entry whose first row is row r of bank b of slice s is at 2^17 s + 2,048 b + r; and
the table regions whose rows go in SETTLING, as 192 s + t (R142). -/
structure Gal where
  ents : Tbl GalEnt
  job : Option GalJob
  clearing : List Nat
deriving DecidableEq, Repr
/-- An entry of a Larder slot (R165): its padded key, its action word and its state word. -/
structure LrdEnt where
  key : List Byte
  act : BitVec 128
  st : Word
deriving DecidableEq, Repr

/-- A search that waits in the Cellar-tier queue (R170): the head, its lookup, and what it carries. -/
structure LrdSearch where
  fid : Nat
  id : Nat
  table : Nat
  key : List Byte
  port : Nat
  par : Nat
deriving DecidableEq, Repr

/-- A request in the learn queue (R175): the layer-2 table, the key and the learned destination. -/
structure LearnReq where
  table : Nat
  key : List Byte
  kind : Nat
  dest : Nat
deriving DecidableEq, Repr

/-- A Larder job (R186 to R190). -/
structure LrdJob where
  kind : Nat
  table : Nat
  next : Nat
  stop : Nat
  out : Nat
  stAddr : Nat
  limit : Nat
  count : Nat
  ecc : Nat
  skips : Nat
  tag : Nat
  filtDest : Word
  filtKey : Word
  steps : Nat
deriving DecidableEq, Repr

/-- Larder (R164 to R195): the entry of slot i of bucket b of Shelf table t is at 2^28 t + 8 b + i; the
keys of the batch's staged writes; the slots to be freed for an uncorrectable error. Cellar tables lie
in Cellar. -/
structure Lrd where
  ents : Tbl LrdEnt
  staged : List (Nat × List Byte)
  cq : List LrdSearch
  learnQ : List LearnReq
  toFree : List Nat
  job : Option LrdJob
deriving DecidableEq, Repr


/-- A policer (R308 to R313): its five configuration words, its buckets in units of R305, the refill tick
it stands at, and whether an uncorrectable error has made it red (R328). -/
structure Pol where
  cfg : List Word
  tc : Nat
  te : Nat
  tick : Nat
  bad : Bool
deriving DecidableEq, Repr

/-- A shaper (R318 to R320): its tokens, the refill tick it stands at, whether its next tick fills it or
cuts it to its burst, and whether an uncorrectable error makes it hold. -/
structure Shp where
  tokens : Int
  tick : Nat
  fill : Bool
  cut : Bool
  bad : Bool
deriving DecidableEq, Repr

/-- The DWRR group of a port (R315). -/
structure Dwrr where
  ptr : Nat
  fresh : Bool
  deficit : Tbl Nat
deriving DecidableEq, Repr

/-- Sheet beyond its registers. Policer k of slice s is at 16,384 s + k; the shaper of queue q is at q, of
port n at 0x2000 + n. `gens` holds each slice's generator of R322, `sampN` the sample instants since DIV
was last set, `seq` the ring instants. -/
structure Sht where
  pols : Tbl Pol
  shps : Tbl Shp
  dwrr : Tbl Dwrr
  gens : Tbl Nat
  sampN : Nat
  seq : Nat
deriving DecidableEq, Repr

/-- The whole state. -/
structure State where
  /-- Registers that differ from their reset values, by BAR0 offset. -/
  regs : Tbl Word
  /-- Writes that are held until another register is written (R11, R136, R194, R303, R320). -/
  held : Tbl Word
  /-- Upper halves latched by a read of a lower register (R11). -/
  latch : Tbl Word
  /-- What the last read access returned. -/
  rdata : Nat
  /-- Device time: nanoseconds with 24 fractional bits (R487). -/
  time : Nat
  /-- Attic cycles since the model's reset; the model's own clock for rate windows. -/
  cycles : Nat
  /-- The number of the next free value (Config.freeBits); the model's own. -/
  freeCtr : Nat
  /-- Words in which an error stands: which memory, which word, whether it is uncorrectable. -/
  ecc : List (EccMem × Nat × Bool)
  mast : Mast
  bell : Bell
  cel : Cel
  attic : Attic
  cup : Cup
  dwy : Dwy
  lft : Lft
  pipe : Pipe
  hlw : Hlw
  gal : Gal
  lrd : Lrd
  stw : Stw
  sht : Sht
  crw : Crw
  /-- What has left the part; the model's own record. -/
  outbox : List Emission
  /-- The commands that wait, first in, first out. -/
  pending : List Instr
deriving DecidableEq, Repr

def Mast.reset : Mast :=
  { waiting := [], log := [], firstHeld := false, recov := [], esc := [], escWindow := 0, quietFrom := 0,
    mons := [], injectKey := 0, checkerFired := false, alivePin := false,
    reservedAccesses := 0, ctrs := [], snap := none, snapSkipped := false, snapPeriod := 0, dumpSeq := 0 }

def Bell.reset : Bell :=
  { pulses := [], condSeen := [], unrouted := [], arb := [], msix := [], msixLast := [] }

def Cel.reset : Cel :=
  { mem := [], poison := [], openRow := [], raa := [], raaimt := 32, raammt := 96, acts := [],
    throttles := [], retry := [], alerts := [], scrubPos := [], scrubDone := 0, held := [] }

def KeySlot.reset : KeySlot := { hash := 0, isSet := false, revoked := false }

def Boot.reset : Boot :=
  { order := [], sect := 0, record := 0, waiting := false, thrSlices := 0, code := false,
    reservedStarted := false, wake := false }

def Attic.reset : Attic :=
  { flash := [], flashLog2 := 26, fuseSvn := 0,
    keys := [KeySlot.reset, KeySlot.reset, KeySlot.reset, KeySlot.reset], testFuse := false,
    testPin := false, strapSlot := 0, strapFlash := 0, perstN := false, wakeN := true,
    boot := Boot.reset, bootFrom := 0, doneFrom := 0, flCmd := none, restartDeferred := false, slew := 0,
    timeSet := none, saved := none, mem := [], sbDyn := none, jtagIr := 1, jtagDr := [] }

def Cup.reset : Cup := { pools := [], grantQ := [], rr := 0, reclaimPos := 0 }

def Dwy.reset : Dwy :=
  { tracker := [], queues := [], fns := [], msix := [], linkL2 := false, perstRose := 0 }

def Lft.reset : Lft :=
  { threads := [], engines := [], localMem := [], shared := [], istore := [], tickets := [], nextTicket := 1,
    ports := [] }

def Pipe.reset : Pipe :=
  { frames := [], nextFid := 1, nextSeq := 1, slices := [], ports := [], store := [], lastHold := [] }

def Hlw.reset : Hlw := { sram := [], defs := [], newSram := [], newDefs := [], committed := false }

def Gal.reset : Gal := { ents := [], job := none, clearing := [] }

def Lrd.reset : Lrd := { ents := [], staged := [], cq := [], learnQ := [], toFree := [], job := none }

def Stw.reset : Stw :=
  { voqs := [], cells := [], eg := [], egq := [], copies := [], nextCopy := 1, rr := [], egCur := [],
    spillUsed := [], sets := [], groups := [], members := [], samp := [] }

def Sht.reset : Sht := { pols := [], shps := [], dwrr := [], gens := [], sampN := 0, seq := 0 }

def Crw.reset : Crw :=
  { sets := [], setLru := [], roster := [], setLoads := [], peers := [], cache := [], missQ := [], rr := 15,
    loads := [], flying := [], build := none, mig := none, marked := false, tokens := [] }

/-- The machine right after reset: every register at its reset value, nothing held anywhere. -/
def State.reset : State :=
  { regs := [], held := [], latch := [], rdata := 0, time := 0, cycles := 0, freeCtr := 0, ecc := [],
    mast := Mast.reset, bell := Bell.reset, cel := Cel.reset, attic := Attic.reset,
    cup := Cup.reset, dwy := Dwy.reset, lft := Lft.reset,
    pipe := Pipe.reset, hlw := Hlw.reset, gal := Gal.reset, lrd := Lrd.reset, stw := Stw.reset, sht := Sht.reset, crw := Crw.reset, outbox := [],
    pending := [] }

end Sys2Proof.Machine
end

