-- ==== Sys2Proof/Machine/Ops.lean ====
section
/-! DEFINITION. The named operations that every unit shares: registers and their fields, counters,
reports, pulses, error flags, free values. -/

namespace Sys2Proof.Machine

/-! ## Bit fields -/

/-- Bits [hi:lo] of a number. -/
def bits (v hi lo : Nat) : Nat := v / 2 ^ lo % 2 ^ (hi + 1 - lo)

/-- Bit `i` of a number. -/
def bitOf (v i : Nat) : Bool := v.testBit i

/-- Bits [hi:lo] of a number replaced. -/
def putBits (v hi lo x : Nat) : Nat :=
  v - bits v hi lo * 2 ^ lo + x % 2 ^ (hi + 1 - lo) * 2 ^ lo

/-- Bits [hi:lo] of a register value. -/
def fld (w : Word) (hi lo : Nat) : Nat := bits w.toNat hi lo

/-- Bits [hi:lo] of a register value replaced. -/
def setFld (w : Word) (hi lo v : Nat) : Word :=
  let m := BitVec.ofNat 32 ((2 ^ (hi + 1 - lo) - 1) * 2 ^ lo)
  (w &&& ~~~m) ||| (BitVec.ofNat 32 (v * 2 ^ lo) &&& m)

/-- 1 for true, 0 for false. -/
def nat (b : Bool) : Nat := if b then 1 else 0

/-! ## Registers -/

/-- The value held at a register address. -/
def State.rd (s : State) (a : Nat) : Word := tget (regReset a) s.regs a

/-- The value held at a register address, replaced. -/
def State.wr (s : State) (a : Nat) (v : Word) : State := { s with regs := tset (regReset a) s.regs a v }

/-- The value held at a register address, as a number. -/
def State.rdN (s : State) (a : Nat) : Nat := (s.rd a).toNat

/-- Bits [hi:lo] of a register. -/
def State.rf (s : State) (a hi lo : Nat) : Nat := fld (s.rd a) hi lo

/-- Bit `i` of a register. -/
def State.rb (s : State) (a i : Nat) : Bool := (s.rd a).getLsbD i

/-- Bits [hi:lo] of a register replaced. -/
def State.wf (s : State) (a hi lo v : Nat) : State := s.wr a (setFld (s.rd a) hi lo v)

/-- A register replaced by a number. -/
def State.wrN (s : State) (a v : Nat) : State := s.wr a (BitVec.ofNat 32 v)

/-- A status or error bit set. -/
def State.setB (s : State) (a i : Nat) : State := s.wf a i i 1

/-- A bit given a value. -/
def State.putB (s : State) (a i : Nat) (b : Bool) : State := s.wf a i i (nat b)

/-- The 64-bit value of a register pair, by the address of its lower register (R11). -/
def State.rd64 (s : State) (lo : Nat) : Nat := s.rdN lo + 2 ^ 32 * s.rdN (lo + 4)

/-- A register pair replaced. -/
def State.wr64 (s : State) (lo v : Nat) : State := (s.wrN lo v).wrN (lo + 4) (v / 2 ^ 32)

/-- The number that `n` registers from address `a` hold, the first lowest. -/
def State.rdWide (s : State) (a n : Nat) : Nat :=
  (upto n).foldr (fun i acc => s.rdN (a + 4 * i) + 2 ^ 32 * acc) 0

/-- A number written over `n` registers from address `a`. -/
def State.wrWide (s : State) (a n v : Nat) : State :=
  (upto n).foldl (fun t i => t.wrN (a + 4 * i) (v / 2 ^ (32 * i))) s

/-- The RW bits of a register take a written value; its other bits stand (R12). -/
def State.plainWrite (s : State) (a : Nat) (v : Word) : State :=
  match regAt a with
  | some (r, _, _) =>
    let m := BitVec.ofNat 32 r.rw
    s.wr a ((s.rd a &&& ~~~m) ||| (v &&& m))
  | none => s

/-- The RC bits of a register cleared by a read (R12). -/
def State.clearRc (s : State) (a : Nat) : State :=
  match regAt a with
  | some (r, _, _) => s.wr a (s.rd a &&& ~~~(BitVec.ofNat 32 r.rc))
  | none => s

/-- Every register of the addresses lo ≤ a < hi back at its reset value. -/
def State.resetRegs (s : State) (lo hi : Nat) : State := { s with regs := tclear s.regs lo hi }

/-! ## Counters (R523 to R525) -/

/-- The pair index of the event with key `k`: BASE + o × INNER + i (R525). -/
def pairOf (k : Nat) : Nat :=
  let e := k / 2 ^ 40
  let inner := ((dirShape (e / 256) (e % 256)).getD (1, 1)).2
  (Config.counterBase e + k / 2 ^ 20 % 2 ^ 20 * inner + k % 2 ^ 20) % 2 ^ 20

/-- Sets WRAP of pair `p` (R524). -/
def State.setWrap (s : State) (p : Nat) : State := s.setB (cntWrap (p / 32)) (p % 32)

/-- Event `e` of instance (o, i) counted `n` times; a counter that overflows carries into its
extension, or wraps and sets WRAP (R524). -/
def State.countBy (s : State) (e o i n : Nat) : State :=
  let k := ctrKey e o i
  let (lo, ext) := tget (0, 0) s.mast.ctrs k
  let v := lo + n
  if v < 2 ^ 32 then { s with mast := { s.mast with ctrs := tput s.mast.ctrs k (v, ext) } }
  else
    let p := pairOf k
    if s.rb (cntExt (p / 32)) (p % 32) then
      let s1 := { s with mast := { s.mast with ctrs := tput s.mast.ctrs k (v % 2 ^ 32, (ext + v / 2 ^ 32) % 2 ^ 32) } }
      if ext + v / 2 ^ 32 < 2 ^ 32 then s1 else s1.setWrap p
    else
      { s with mast := { s.mast with ctrs := tput s.mast.ctrs k (v % 2 ^ 32, ext) } }.setWrap p

/-- One event of instance (o, i) counted. -/
def State.count (s : State) (e o i : Nat) : State := s.countBy e o i 1

/-! ## Reports to Masthead (R503) -/

/-- A report put in its place among those that wait, merged with one of the same source and
instance. -/
def mergeReport (r : Report) : List Report → List Report × Bool
  | [] => ([r], false)
  | q :: t =>
    if q.src = r.src ∧ q.inst = r.inst then
      ({ q with merged := min 65535 (q.merged + 1) } :: t, true)
    else if r.src < q.src ∨ (r.src = q.src ∧ r.inst < q.inst) then (r :: q :: t, false)
    else
      let p := mergeReport r t
      (q :: p.1, p.2)

/-- A unit presents a report to the Masthead event arbiter. -/
def State.report (s : State) (src inst : Nat) (info : Word) : State :=
  let p := mergeReport ⟨src, inst, info, 0⟩ s.mast.waiting
  let s1 := { s with mast := { s.mast with waiting := p.1 } }
  if p.2 then s1.count evMstMerged 0 0 else s1

/-! ## Bellboard pulses, error flags, free values, emissions -/

/-- A one-cycle pulse of an edge-latched source (R427). -/
def State.pulse (s : State) (src : Nat) : State :=
  { s with bell := { s.bell with pulses := sadd s.bell.pulses src } }

/-- The error that stands in a word (DESIGN CHOICE, safe: log entry 23). -/
def State.eccOf (s : State) (m : EccMem) (i : Nat) : Ecc :=
  match s.ecc.find? fun p => p.1 == m && p.2.1 == i with
  | none => .ok
  | some (_, _, u) => if u then .uncorr else .corr

/-- A word written whole, or found good: no error stands in it. -/
def State.eccClear (s : State) (m : EccMem) (i : Nat) : State :=
  { s with ecc := s.ecc.filter fun p => !(p.1 == m && p.2.1 == i) }

/-- An error comes to stand in a word; an uncorrectable one is not made less by a correctable one. -/
def State.eccFlag (s : State) (m : EccMem) (i : Nat) (e : Ecc) : State :=
  match e with
  | .ok => s
  | .corr =>
    match s.eccOf m i with
    | .ok => { s with ecc := (m, i, false) :: s.ecc }
    | _ => s
  | .uncorr => { s.eccClear m i with ecc := (m, i, true) :: (s.eccClear m i).ecc }

/-- An injected error (R520, KINDs 1 and 2) lands in word `i` of memory `m` when the word is written
and MST_INJ_TARGET names a data register of the unit's window; KIND then returns to 0. -/
def State.inject (s : State) (win lo hi : Nat) (m : EccMem) (i : Nat) : State :=
  let k := s.rf mstInjCtl 26 24
  if (k = 1 ∨ k = 2) ∧ s.rb mstStatus 29 ∧ s.rf mstInjTarget 28 24 = win ∧ lo ≤ s.rf mstInjTarget 23 0
      ∧ s.rf mstInjTarget 23 0 < hi then
    (s.eccFlag m i (if k = 1 then .corr else .uncorr)).wf mstInjCtl 26 24 0
  else s

/-- The next free value, as a number below 2 ^ w (DESIGN CHOICE, safe: log entry 2). -/
def State.free (s : State) (w : Nat) : Nat × State :=
  (Config.freeBits s.freeCtr % 2 ^ w, { s with freeCtr := s.freeCtr + 1 })

/-- Something leaves the part (DESIGN CHOICE, safe: log entry 5). -/
def State.emit (s : State) (e : Emission) : State := { s with outbox := s.outbox ++ [e] }

/-- What a read access returns. -/
def State.answer (s : State) (v : Nat) : State := { s with rdata := v }

/-- Device time in ns. -/
def State.ns (s : State) : Nat := s.time / 2 ^ 24 % 2 ^ 64

/-- The value of a field of the header vector or another byte string, big-endian. -/
def beAt (bs : List Byte) (i n : Nat) : Nat := beNat (slice bs i n)

/-- The slice of port `n` (R15). -/
def sliceOf (port : Nat) : Nat := port / 32

/-- The steps of a list folded over a state. -/
def State.each {α : Type} (s : State) (l : List α) (f : State → α → State) : State := l.foldl f s

/-- The slices that a 16-bit mask names, lowest first. -/
def maskSlices (m : Nat) : List Nat := (upto 16).filter fun i => m.testBit i

end Sys2Proof.Machine
end

