-- ==== Sys2Proof/Machine/CellarOps.lean ====
section
/-! DEFINITION. Cellar requests (R442 to R459): the address decode, the partitions, reads and writes
with their error, poison and activation bookkeeping, and the writes that wait for a
back-invalidation. -/

namespace Sys2Proof.Machine

/-! ## Addresses (R443) -/

def celStack (a : Nat) : Nat := bits a 9 8
def celPch (a : Nat) : Nat := bits a 14 10
def celRow (a : Nat) : Nat := bits a 36 23
/-- The bank that receives an access: A[22:17] XOR A[28:23]. -/
def celBank (a : Nat) : Nat := Nat.xor (bits a 22 17) (bits a 28 23)
/-- A pseudo-channel numbered over all stacks. -/
def celPchId (a : Nat) : Nat := celStack a * 32 + celPch a
/-- A bank numbered over all stacks. -/
def celBankId (a : Nat) : Nat := celPchId a * 64 + celBank a

/-! ## Partitions (R444, R446) -/

def gib (n : Nat) : Nat := 2 ^ 30 * n

/-- The start and the size of partition `p`: 0 spill, 1 tables, 2 pools, 3 host window. -/
def State.part (s : State) (p : Nat) : Nat × Nat :=
  let spill := s.rf celPart 7 0
  let tables := s.rf celPart 15 8
  let pools := s.rf celPart 23 16
  let host := s.rf celPart 31 24
  match p with
  | 0 => (0, gib spill)
  | 1 => (gib spill, gib tables)
  | 2 => (gib (spill + tables), gib pools)
  | _ => (gib (spill + tables + pools), gib host)

/-- The bytes a ≤ x < a + n lie wholly inside partition `p`. -/
def State.inPart (s : State) (p a n : Nat) : Bool :=
  decide ((s.part p).1 ≤ a ∧ a + n ≤ (s.part p).1 + (s.part p).2)

/-- The bytes lie wholly inside the tables or the host window partition. -/
def State.inTablesOrHost (s : State) (a n : Nat) : Bool := s.inPart 1 a n || s.inPart 3 a n

/-- The requester may reach the bytes a ≤ x < a + n (R446). -/
def State.reach (s : State) (req a n : Nat) : Bool :=
  if req < 16 then
    let share := (s.part 0).2 / 16
    decide (req * share ≤ a ∧ a + n ≤ (req + 1) * share)
  else if req = 0x13 then s.inPart 2 a n
  else if req = 0x14 then s.inPart 1 a n || s.inPart 2 a n || s.inPart 3 a n
  else if req = 0x15 then s.inPart 2 a n || s.inPart 3 a n
  else if req = 0x18 then decide (a + n ≤ (s.part 3).1 + (s.part 3).2)
  else if 0x40 ≤ req ∧ req < 0x80 then
    let l := lftLoftCfg (req - 0x40)
    (s.rb l 4 && s.inPart 1 a n) || (s.rb l 5 && s.inPart 2 a n) || (s.rb l 6 && s.inPart 3 a n)
  else if req = 0x10 ∨ req = 0x11 ∨ req = 0x12 ∨ req = 0x16 ∨ req = 0x17 then s.inTablesOrHost a n
  else false

/-! ## Errors (R446, R457 to R459) -/

/-- The word of CEL_ERR_INFO for an event. -/
def celInfo (req kind a bank : Nat) : Word :=
  BitVec.ofNat 32 (req * 2 ^ 24 + kind * 2 ^ 21 + celStack a * 2 ^ 19 + celPch a * 2 ^ 14 + bank * 2 ^ 8)

/-- CEL_ERR_INFO and CEL_ERR_ADDR latch an event. -/
def State.celLatch (s : State) (req kind a bank : Nat) : State :=
  (s.wr celErrInfo (celInfo req kind a bank)).wr64 celErrAddrLo a

/-- The channel of an address has failed (R457). -/
def State.chFailed (s : State) (a : Nat) : Bool := s.rb (celStkChfail (celStack a)) (celPch a / 2)

/-- A request outside its requester's partitions is refused (R446). -/
def State.celRefuse (s : State) (req a : Nat) : State :=
  ((((s.setB celErr 3).celLatch req 2 a 0).report 0x2A req (celInfo req 2 a 0)).count evCelAccessRefused req 0)

/-- One burst is read and checked: corrected and written back (R458), or found uncorrectable,
poisoned and reported once (R459). -/
def State.celCheck (s : State) (req burst : Nat) : State :=
  let a := burst * 32
  let k := celStack a
  match s.eccOf .cellar burst with
  | .ok => s
  | .corr => (((s.eccClear .cellar burst).setB celErr 1).report 0x28 k (celInfo req 0 a 0)).count evCelEccCorr k 0
  | .uncorr =>
    let s1 := s.eccClear .cellar burst
    let s2 := { s1 with cel := { s1.cel with poison := sadd s1.cel.poison burst } }
    (((s2.setB celErr 2).celLatch req 1 a 0).report 0x29 k (celInfo req 1 a 0)).count evCelEccUncorr k 0

/-! ## Rows, activations, retry buffers (R450, R454, R456) -/

/-- An access finds its row open, or activates it. -/
def State.celActivate (s : State) (req a : Nat) : State :=
  let b := celBankId a
  let k := celStack a
  if tfind s.cel.openRow b = some (celRow a) then s.count evCelRowHit k 0
  else
    let raa := tget 0 s.cel.raa b + 1
    let s1 := { s with cel := { s.cel with
      openRow := tput s.cel.openRow b (celRow a)
      acts := tmod 0 s.cel.acts (b * 256 + req) (· + 1)
      raa := tset 0 s.cel.raa b (if s.cel.raaimt ≤ raa then raa - s.cel.raaimt else raa) } }
    let s2 := s1.count evCelRowMiss k 0
    if s.cel.raaimt ≤ raa then s2.count evCelRfm k 0 else s2

/-- A request reaches its controller: a stack in self-refresh starts its exit (R453), the row opens,
and the retry buffer keeps the command. -/
def State.celTouch (s : State) (write : Bool) (req a n : Nat) : State :=
  let k := celStack a
  let st := s.rf (celStkStatus k) 31 30
  let s1 := if st = 1 ∨ st = 2 then (s.wf (celStkStatus k) 31 30 3).count evCelSrWake k 0 else s
  let s2 := s1.celActivate req a
  let p := celPchId a
  { s2 with cel := { s2.cel with
      retry := tmod [] s2.cel.retry p fun l => (⟨write, req, a, n⟩ :: l).take 64 } }

/-! ## Reads -/

/-- Memory as a requester sees it: with its own writes that still wait (R448). -/
def State.celView (s : State) (req : Nat) : Tbl Byte :=
  s.cel.held.foldl (fun m h => if h.req = req ∧ !h.poison then memWrite 0 m h.addr h.bytes else m) s.cel.mem

/-- One request of a read (R446 to R459); the answer is `none` where it is poison. -/
def State.celRead1 (s : State) (req a n : Nat) : State × Option (List Byte) :=
  let s0 := s.count evCelRd req 0
  if !(s.reach req a n) then ((s0.celRefuse req a).count evCelPoisonRead req 0, none)
  else if s.chFailed a then (s0.count evCelPoisonRead req 0, none)
  else
    let bursts := (upto ((a + n - 1) / 32 + 1 - a / 32)).map (· + a / 32)
    let s1 := (s0.celTouch false req a n).each bursts fun t b => t.celCheck req b
    if bursts.any fun b => shas s1.cel.poison b then (s1.count evCelPoisonRead req 0, none)
    else (s1, some (memRead 0 (s1.celView req) a n))

/-- The requests of a read of any length, one for each 256-byte block. -/
def State.celReads (req : Nat) : List (Nat × Nat) → State → State × Option (List Byte)
  | [], s => (s, some [])
  | (a, n) :: t, s =>
    let p := s.celRead1 req a n
    let q := State.celReads req t p.1
    (q.1, match p.2, q.2 with
      | some x, some y => some (x ++ y)
      | _, _ => none)

/-- A read of `n` bytes by a requester; `none` where any burst answers poison (DESIGN CHOICE, safe: log entry 83). -/
def State.celRead (s : State) (req a n : Nat) : State × Option (List Byte) :=
  State.celReads req (pieces 256 (n / 256 + 2) a n) s

/-! ## Writes -/

/-- One burst takes a write: a partial write of a burst that cannot be trusted leaves it poisoned
(R447, R459), a whole write clears its poison and its errors. -/
def State.celBurstWrite (s : State) (req : Nat) (poison : Bool) (a n burst : Nat) : State :=
  let whole := decide (a ≤ burst * 32 ∧ burst * 32 + 32 ≤ a + n)
  let s1 := if whole then s.eccClear .cellar burst
    else (s.celCheck req burst).count evCelRmw (celStack (burst * 32)) 0
  let bad := poison || (!whole && shas s1.cel.poison burst)
  { s1 with cel := { s1.cel with
      poison := if bad then sadd s1.cel.poison burst else sdel s1.cel.poison burst } }

/-- A write takes effect in memory. -/
def State.celApply (s : State) (req a : Nat) (bytes : List Byte) (poison : Bool) : State :=
  let n := bytes.length
  let bursts := (upto ((a + n - 1) / 32 + 1 - a / 32)).map (· + a / 32)
  let s1 := s.each bursts fun t b => t.celBurstWrite req poison a n b
  { s1 with cel := { s1.cel with mem := memWrite 0 s1.cel.mem a bytes } }

/-- The 64-byte lines of a range that the host holds in CXL 3.1 mode (R397). -/
def State.hostLines (s : State) (a n : Nat) : List Nat :=
  if s.rb dwyLinkStatus 31 && s.rf dwyLinkStatus 7 6 == 2 && (s.inPart 2 a n || s.inPart 3 a n) then
    s.dwy.tracker.filter fun l => decide (a < (l + 1) * 64 ∧ l * 64 < a + n)
  else []

/-- Doorway back-invalidates a line that the host holds (R397). -/
def State.backInvalidate (s : State) (line : Nat) : State :=
  (s.emit (.backInvalidate line)).count evDwyBisnp 0 0

/-- A write of the same requester that still waits overlaps these bytes (R448). -/
def State.heldOverlap (s : State) (req a n : Nat) : Bool :=
  s.cel.held.any fun h => h.req == req && decide (a < h.addr + h.bytes.length ∧ h.addr < a + n)

/-- One request of a write (R446, R447, R457); one that must wait for the host waits (R397). -/
def State.celWrite1 (s : State) (req a : Nat) (bytes : List Byte) (poison : Bool) : State :=
  let n := bytes.length
  let s0 := s.count evCelWr req 0
  if !(s.reach req a n) then s0.celRefuse req a
  else if s.chFailed a then s0
  else
    let s1 := s0.celTouch true req a n
    let ls := if req = 0x15 then [] else s1.hostLines a n
    if ls.isEmpty && !(s1.heldOverlap req a n) then s1.celApply req a bytes poison
    else
      let s2 := s1.each ls State.backInvalidate
      { s2 with cel := { s2.cel with held := s2.cel.held ++ [⟨req, a, bytes, poison, ls⟩] } }

/-- A write of any length by a requester, one request for each 256-byte block. -/
def State.celWrite (s : State) (req a : Nat) (bytes : List Byte) : State :=
  s.each (pieces 256 (bytes.length / 256 + 2) a bytes.length) fun t p =>
    t.celWrite1 req p.1 ((bytes.drop (p.1 - a)).take p.2) false

/-- The waiting writes that no line holds back any more take effect, oldest first, each behind an
earlier one of its requester that it overlaps. -/
def State.heldRelease (s : State) : State :=
  let l := s.cel.held
  let s0 := { s with cel := { s.cel with held := [] } }
  s0.each l fun t h =>
    if h.lines.isEmpty && !(t.heldOverlap h.req h.addr h.bytes.length) then
      t.celApply h.req h.addr h.bytes h.poison
    else { t with cel := { t.cel with held := t.cel.held ++ [h] } }

/-- Bytes of memory set to 0 without a request: what a unit's own formatting leaves. -/
def State.celZero (s : State) (a n : Nat) : State :=
  { s with cel := { s.cel with mem := memErase s.cel.mem a n } }

/-- A channel fails (R457). -/
def State.channelFail (s : State) (stack ch : Nat) : State :=
  let a := stack * 256 + ch * 2 * 1024
  let s1 := (s.setB (celStkChfail stack) ch).setB celErr 5
  (s1.celLatch 0 3 a 0).report 0x2C (stack * 16 + ch) (celInfo 0 3 a 0)

end Sys2Proof.Machine
end

