-- ==== Sys2Proof/Machine/CupboardOps.lean ====
section
/-! DEFINITION. Cupboard's operations (R376 to R389): choosing a pool, the free store, grants, and
the checks on every free. -/

namespace Sys2Proof.Machine

/-! ## Pools (R376 to R378) -/

def Pool.empty : Pool := { cache := [], head := 0, tail := 0, cnt := 0, alloc := [], oos := [] }

def State.pool (s : State) (k : Nat) : Pool := tget Pool.empty s.cup.pools k
def State.poolCount (s : State) (k : Nat) : Nat := s.rf (cupPoolCount k) 21 0
def State.poolLog2 (s : State) (k : Nat) : Nat := s.rf (cupPoolCfg k) 4 0
def State.poolBase (s : State) (k : Nat) : Nat := s.rd64 (cupPoolBaseLo k)
def State.poolRing (s : State) (k : Nat) : Nat := s.rd64 (cupPoolRingLo k)
def State.poolValid (s : State) (k : Nat) : Bool := s.rb (cupPoolCfg k) 31
def State.poolReady (s : State) (k : Nat) : Bool :=
  s.poolValid k && s.rf (cupPoolStatus k) 31 30 == 2
def Pool.free (p : Pool) : Nat := p.cache.length + p.cnt
/-- The start of the pools partition, from which a BREF counts (R378). -/
def State.poolsStart (s : State) : Nat := (s.part 2).1
/-- The address of the owner record of a buffer (R383). -/
def State.ownerAddr (s : State) (buf : Nat) : Nat := s.rd64 cupCtlBaseLo + 8 * ((buf - s.poolsStart) / 1024)
/-- The address of buffer `i` of pool `k`. -/
def State.bufAddr (s : State) (k i : Nat) : Nat := s.poolBase k + i * 2 ^ s.poolLog2 k

/-- Level thresholds in the order LOW, TIGHT, CRIT. -/
def State.poolThr (s : State) (k l : Nat) : Nat :=
  s.rf (if l = 0 then cupPoolLow k else if l = 1 then cupPoolTight k else cupPoolCrit k) 21 0

/-- The pool is in level `l`. -/
def State.poolLevel (s : State) (k l : Nat) : Bool := s.rb (cupPoolStatus k) (27 + l)

/-- POOL_LEVEL_CHANGE (R381): a pool enters a level when FREE falls below its threshold and leaves
it when FREE rises to the threshold + 64. -/
def State.levels (s : State) (k : Nat) : State :=
  let free := (s.pool k).free
  let s0 := s.wf (cupPoolStatus k) 21 0 free
  s0.each (upto 3) fun t l =>
    let thr := t.poolThr k l
    if !(t.poolLevel k l) && decide (thr ≠ 0 ∧ free < thr) then
      (t.setB (cupPoolStatus k) (27 + l)).count evCupLevelEntry k l
    else if t.poolLevel k l && decide (thr + 64 ≤ free) then t.putB (cupPoolStatus k) (27 + l) false
    else t

/-- The dynamic part of a pool replaced, and its levels brought up to date. -/
def State.setPool (s : State) (k : Nat) (p : Pool) : State :=
  { s with cup := { s.cup with pools := tput s.cup.pools k p } }.levels k

/-! ## The bitmap's code (R389) -/

/-- A bitmap word is read: a single-bit error is corrected; an uncorrectable one takes its 64
buffers out of service. -/
def State.bitmapCheck (s : State) (k w : Nat) : State :=
  let i := k * 65536 + w
  match s.eccOf .cupBitmap i with
  | .ok => s
  | .corr => (((s.eccClear .cupBitmap i).setB cupErr 1).report 0x25 k (BitVec.ofNat 32 (k * 2 ^ 21 + w))).count evCupEccCorr 0 0
  | .uncorr =>
    let p := s.pool k
    let s1 := (s.eccClear .cupBitmap i).setPool k { p with oos := sadd p.oos w }
    let loc := BitVec.ofNat 32 (k * 2 ^ 21 + w)
    (((s1.setB cupErr 2).wr cupErrLoc loc).report 0x26 k loc).count evCupEccUncorr 0 0

/-! ## The free store (R380) -/

/-- The ring slots of pool `k` from slot `h` on: one read, or two where the ring wraps. -/
def State.ringRead (s : State) (k h n : Nat) : State × Option (List Byte) :=
  let n1 := min n (s.poolCount k - h)
  let p := s.celRead 0x13 (s.poolRing k + 4 * h) (4 * n1)
  if n1 = n then p else
  let q := p.1.celRead 0x13 (s.poolRing k) (4 * (n - n1))
  (q.1, match p.2, q.2 with
    | some x, some y => some (x ++ y)
    | _, _ => none)

/-- CACHE_REFILL: up to 64 indices in one 256-byte read from the ring's head go to the cache; those
of a read that answers poison are lost (DESIGN CHOICE, unsafe: log entry 41). -/
def State.cacheRefill (s : State) (k : Nat) : State :=
  let p := s.pool k
  let n := min 64 p.cnt
  if n = 0 then s else
  let r := s.ringRead k p.head n
  let got := match r.2 with
    | some bs => (upto n).map fun i => leNat (slice bs (4 * i) 4)
    | none => []
  let s1 := r.1.setPool k { p with
    cache := p.cache ++ got, head := (p.head + n) % s.poolCount k, cnt := p.cnt - n }
  if got.length = n then s1
  else ((s1.setB cupErr 3).report 0x27 k (BitVec.ofNat 32 (k * 2 ^ 21))).countBy evCupRingBad k 0 n

/-- 64 indices go from a cache that holds more than 448 to the ring's tail. -/
def State.cacheSpill (s : State) (k : Nat) : State :=
  let p := s.pool k
  if p.cache.length ≤ 448 then s else
  let count := s.poolCount k
  let out := p.cache.drop (p.cache.length - 64)
  let s1 := (upto 64).foldl (fun (t : State) i =>
      t.celWrite 0x13 (s.poolRing k + 4 * ((p.tail + i) % count)) (natLe 4 (out.getD i 0))) s
  s1.setPool k { p with cache := p.cache.take (p.cache.length - 64), tail := (p.tail + 64) % count,
                        cnt := p.cnt + 64 }

/-- The next index that may be granted: one out of range or allocated is discarded and reported
(RING_BAD), one of a word out of service is passed over. -/
def State.takeIndex (k : Nat) : Nat → State → State × Option Nat
  | 0, s => (s, none)
  | fuel + 1, s =>
    let s0 := if (s.pool k).cache.isEmpty then s.cacheRefill k else s
    match (s0.pool k).cache with
    | [] => (s0, none)
    | i :: rest =>
      let s1 := s0.setPool k { s0.pool k with cache := rest }
      let s2 := s1.bitmapCheck k (i / 64)
      if s.poolCount k ≤ i ∨ shas (s2.pool k).alloc i then
        State.takeIndex k fuel (((s2.setB cupErr 3).report 0x27 k (BitVec.ofNat 32 (k * 2 ^ 21 + i / 64))).count evCupRingBad k 0)
      else if shas (s2.pool k).oos (i / 64) then State.takeIndex k fuel s2
      else (s2, some i)

/-! ## Owner records (R383) -/

/-- An owner record. -/
structure OwnerRec where
  owner : Nat
  last : Nat
  gen : Nat
  holds : Nat
  mode : Nat
deriving DecidableEq, Repr

def OwnerRec.word (r : OwnerRec) : Nat :=
  r.owner + r.last * 2 ^ 16 + r.gen * 2 ^ 32 + r.holds * 2 ^ 40 + r.mode * 2 ^ 48

def OwnerRec.ofWord (w : Nat) : OwnerRec :=
  ⟨bits w 15 0, bits w 31 16, bits w 39 32, bits w 47 40, bits w 49 48⟩

def ownerThread (t : Nat) : Nat := 2 ^ 13 + t
def ownerFn (f : Nat) : Nat := 2 * 2 ^ 13 + f
def ownerSlice (sl : Nat) : Nat := 3 * 2 ^ 13 + sl

/-- The owner record of a buffer; `none` where it reads poisoned. -/
def State.ownerRead (s : State) (buf : Nat) : State × Option OwnerRec :=
  let q := s.celRead 0x13 (s.ownerAddr buf) 8
  (q.1, q.2.map fun bs => OwnerRec.ofWord (leNat bs))

def State.ownerWrite (s : State) (buf : Nat) (r : OwnerRec) : State :=
  s.celWrite 0x13 (s.ownerAddr buf) (natLe 8 r.word)

/-- Ownership of a plain buffer passes on (R384). -/
def State.ownerPass (s : State) (buf owner : Nat) : State :=
  match s.ownerRead buf with
  | (s1, some r) => if r.mode = 0 then s1.ownerWrite buf { r with owner := owner } else s1
  | (s1, none) => s1

/-! ## Grants (R379 to R382) -/

/-- Who asks for a buffer. -/
inductive CupAsker where
  | ticket0
  | ticket1
  | sample
  | grantReg
  | doorway
deriving DecidableEq, Repr

/-- A level of the pool refuses the asker (R381). -/
def State.levelRefuses (s : State) (k : Nat) (w : CupAsker) : Bool :=
  match w with
  | .ticket0 => false
  | .ticket1 => s.poolLevel k 2
  | .sample => s.poolLevel k 0
  | .grantReg => s.poolLevel k 1
  | .doorway => s.poolLevel k 1

/-- One pool grants a buffer to `owner`, or does not. The generation rises by 1 and wraps from 255
to 1. -/
def State.grantFrom (owner k : Nat) : Nat → State → State × Option Nat
  | 0, s => (s, none)
  | fuel + 1, s =>
    match State.takeIndex k ((s.pool k).free + 1) s with
    | (s1, none) => (s1, none)
    | (s1, some i) =>
      let buf := s1.bufAddr k i
      match s1.ownerRead buf with
      | (s2, none) => State.grantFrom owner k fuel s2
      | (s2, some r) =>
        let g := if r.gen = 255 then 1 else r.gen + 1
        let s3 := s2.setPool k { s2.pool k with alloc := sadd (s2.pool k).alloc i }
        ((s3.ownerWrite buf ⟨owner, 0, g, 0, 0⟩).count evCupGrant k 0, some buf)

/-- The next larger valid pool. -/
def State.nextPool (s : State) (k : Nat) : Option Nat :=
  (upto 8).find? fun j => decide (k < j) && s.poolValid j

/-- A request passes along the pool chain from pool `k` (R379). -/
def State.grantChain (w : CupAsker) (owner : Nat) : Nat → Nat → State → State × Option (Nat × Nat)
  | 0, _, s => (s, none)
  | fuel + 1, k, s =>
    let r := if s.poolReady k && !(s.levelRefuses k w) then State.grantFrom owner k ((s.pool k).free + 1) s else (s, none)
    match r with
    | (s1, some buf) => (s1, some (k, buf))
    | (s1, none) =>
      if s1.rb (cupPoolCfg k) 30 then
        match s1.nextPool k with
        | some j => State.grantChain w owner fuel j (s1.count evCupUp k 0)
        | none => (s1, none)
      else (s1, none)

/-- The valid, READY pool with the smallest buffer of at least `n` bytes. -/
def State.fitPool (s : State) (n : Nat) : Option Nat :=
  (upto 8).find? fun k => s.poolReady k && decide (n ≤ 2 ^ s.poolLog2 k)

/-- A request that states a size (R379); the first answer says whether a pool fits at all. -/
def State.cupGrant (s : State) (w : CupAsker) (owner n : Nat) : State × Bool × Option (Nat × Nat) :=
  match s.fitPool n with
  | none => (s.count evCupNofit 0 0, false, none)
  | some k =>
    let r := State.grantChain w owner 8 k s
    (r.1, true, r.2)

/-! ## Frees, releases, shares (R385, R386) -/

/-- The pool and index of a buffer address, and whether the address is aligned (R386 steps 1, 2). -/
def State.poolOf (s : State) (a : Nat) : Option (Nat × Nat × Bool) :=
  (upto 8).findSome? fun k =>
    let sz := 2 ^ s.poolLog2 k
    if s.poolReady k && decide (s.poolBase k ≤ a ∧ a < s.poolBase k + s.poolCount k * sz) then
      some (k, (a - s.poolBase k) / sz, decide ((a - s.poolBase k) % sz = 0))
    else none

/-- The checks of R386 up to the generation; an answer of `inl r` is the result on failure. -/
def State.cupCheck (s : State) (a : Nat) (gen : Option Nat) : State × (Nat ⊕ (Nat × Nat × OwnerRec)) :=
  match s.poolOf a with
  | none => (s, .inl 1)
  | some (k, i, aligned) =>
    if !aligned then (s, .inl 2) else
    let s1 := s.bitmapCheck k (i / 64)
    if shas (s1.pool k).oos (i / 64) then (s1, .inl 8)
    else if !(shas (s1.pool k).alloc i) then (s1, .inl 3)
    else match s1.ownerRead a with
      | (s2, none) => (s2, .inl 8)
      | (s2, some r) =>
        match gen with
        | some g => if g = r.gen then (s2, .inr (k, i, r)) else (s2, .inl 4)
        | none => (s2, .inr (k, i, r))

/-- A buffer returns to the cache: its bit clears and its record says NONE and plain. -/
def State.bufReturn (s : State) (k i : Nat) (r : OwnerRec) : State :=
  let s1 := s.ownerWrite (s.bufAddr k i) ⟨0, 0, r.gen, 0, 0⟩
  let p := s1.pool k
  ((s1.setPool k { p with alloc := sdel p.alloc i, cache := p.cache ++ [i] }).cacheSpill k).count evCupFree k 0

/-- A free or a release by the agent with owner value `agent` (R385, R386); the answer is the
result. -/
def State.cupFree (s : State) (agent a : Nat) (gen : Option Nat) : State × Nat :=
  match s.cupCheck a gen with
  | (s1, .inl r) => (s1, r)
  | (s1, .inr (k, i, r)) =>
    if r.mode = 0 then
      if r.owner = agent then (s1.bufReturn k i r, 0) else (s1, 5)
    else if r.last = agent then
      if r.holds = 0 then (s1.bufReturn k i r, 0) else (s1.ownerWrite a { r with mode := 2 }, 9)
    else if r.holds = 0 then (s1, 6)
    else if r.holds = 1 ∧ r.mode = 2 then (s1.bufReturn k i r, 0)
    else (s1.ownerWrite a { r with holds := r.holds - 1 }, 0)

/-- A share by the owner: last owner `l`, hold count `h` (R385, R386). -/
def State.cupShare (s : State) (agent a : Nat) (gen : Option Nat) (l h : Nat) : State × Nat :=
  match s.cupCheck a gen with
  | (s1, .inl r) => (s1, r)
  | (s1, .inr (_, _, r)) =>
    if r.owner ≠ agent then (s1, 5)
    else if r.mode ≠ 0 ∨ h = 0 then (s1, 7)
    else (s1.ownerWrite a { r with owner := l, last := l, holds := h, mode := 1 }, 0)

/-- Hardware frees a buffer as though its owner had freed it (R384). -/
def State.hwFree (s : State) (a : Nat) : State :=
  match s.cupCheck a none with
  | (s1, .inl _) => s1
  | (s1, .inr (_, _, r)) => (s1.cupFree (if r.mode = 0 then r.owner else 0) a none).1

/-- The handle of a granted buffer (R378). -/
def State.handleOf (s : State) (buf : Nat) : Nat :=
  let g := match (s.ownerRead buf).2 with | some r => r.gen | none => 0
  g * 2 ^ 24 + (buf - s.poolsStart) / 1024

/-- The address that a handle names. -/
def State.handleAddr (s : State) (h : Nat) : Nat := s.poolsStart + h % 2 ^ 24 * 1024

end Sys2Proof.Machine
end

