-- ==== Sys2Proof/Machine/PipeOps.lean ====
section
/-! DEFINITION. Frames, slices and ports: reading and replacing their records, the units of the
Pantry (R274 to R277), XOFF and XON, and the release of what a frame holds (R223, R252, R290). -/

namespace Sys2Proof.Machine

/-! ## Records -/

def Head.init : Head :=
  { pos := .none, seq := 0, entry := 2, start := 0, profile := 0, consts := [], running := false, hv := [],
    md := 0, parityBad := false, stage := 0, remote := [], crow := false, members := [], report := [], edits := 0,
    ending := none }

def Fab.init : Fab :=
  { kind := 0, dest := 0, tc := 0, ct := false, declared := 0, hash := 0, queues := [], ports := [],
    counts := false, owed := [], admitted := false, refused := 0, verify := 0, mirror := none, mirrorOf := none }

def Frame.init : Frame :=
  { port := 0, len := 0, data := [], orig := [], complete := true, bad := false, lost := false, origin := 0,
    rxTs := 0, units := 0, hr := 0, counted := none, head := Head.init, fab := Fab.init, sets := [],
    mark := none, events := [], settled := false, noticed := false, isOver := false, buf := 0 }

def Slice.init : Slice :=
  { wake := [], headQ := [], slots := [], park := [], reentry := [], hostQ := [], aged := false }

def Peer.init : Peer :=
  { up := false, vers := 0, health := 3, target := 0xFFFFFFFF, isTarget := false, isDevice := false, node := 0 }

def Port.init : Port :=
  { rx := none, tx := none, pause := [], xoff := 0, pfcDue := 0, helloDue := 0, replyDue := false,
    helloSeq := 0, peer := Peer.init, peerSeq := none, lastHelloNs := none, holdMs := 0, posts := [],
    ts := [], disableDue := false, downSince := 0 }

def State.frame (s : State) (f : Nat) : Frame := tget Frame.init s.pipe.frames f
def State.hasFrame (s : State) (f : Nat) : Bool := (tfind s.pipe.frames f).isSome
def State.setFrame (s : State) (f : Nat) (x : Frame) : State :=
  { s with pipe := { s.pipe with frames := tput s.pipe.frames f x } }
def State.setHead (s : State) (f : Nat) (h : Head) : State := s.setFrame f { s.frame f with head := h }
def State.setFab (s : State) (f : Nat) (x : Fab) : State := s.setFrame f { s.frame f with fab := x }
def State.head (s : State) (f : Nat) : Head := (s.frame f).head
def State.fab (s : State) (f : Nat) : Fab := (s.frame f).fab
def State.sl (s : State) (k : Nat) : Slice := tget Slice.init s.pipe.slices k
def State.setSl (s : State) (k : Nat) (x : Slice) : State :=
  { s with pipe := { s.pipe with slices := tput s.pipe.slices k x } }
def State.port (s : State) (n : Nat) : Port := tget Port.init s.pipe.ports n
def State.setPort (s : State) (n : Nat) (x : Port) : State :=
  { s with pipe := { s.pipe with ports := tput s.pipe.ports n x } }

def Copy.init : Copy :=
  { fid := 0, dst := 0, port := 0, tc := 0, kind := 0, member := none, counts := false, units := 0, chk := 0,
    bytes := [], marked := false, st := 0, result := 0, told := false, poison := 0 }

def State.copy (s : State) (c : Nat) : Copy := tget Copy.init s.stw.copies c
def State.setCopy (s : State) (c : Nat) (x : Copy) : State :=
  { s with stw := { s.stw with copies := tput s.stw.copies c x } }

/-- A new frame; the answer is its number. -/
def State.newFrame (s : State) (x : Frame) : State × Nat :=
  let f := s.pipe.nextFid
  ({ s with pipe := { s.pipe with frames := tput s.pipe.frames f x, nextFid := f + 1 } }, f)

/-- The slice of a frame. -/
def Frame.slice (x : Frame) : Nat := x.port / 32

/-! ## The metadata word (R86, R120) -/

def Head.get (h : Head) (hi lo : Nat) : Nat := bits h.md.toNat hi lo
def Head.put (h : Head) (hi lo v : Nat) : Head :=
  { h with md := BitVec.ofNat 1024 (putBits h.md.toNat hi lo v) }
/-- LAYER_OFF[k], k from 1 to 7. -/
def Head.layerOff (h : Head) (k : Nat) : Nat := h.get (137 + 10 * k) (128 + 10 * k)
def Head.scratch (h : Head) (i : Nat) : Nat := h.get (783 + 16 * i) (768 + 16 * i)
def Head.shimVer (h : Head) : Nat := h.get 218 216
def Head.pass (h : Head) : Nat := h.get 521 520
def Head.gen (h : Head) : Nat := h.get 522 522
def Head.tc (h : Head) : Nat := h.get 550 548
def Head.cause (h : Head) : Nat := h.get 527 524
/-- Byte k of the PLACE area, as bits [8k + 7 : 8k] of it. -/
def Head.place (h : Head) (hi lo : Nat) : Nat := h.get (640 + hi) (640 + lo)

/-! ## Ports (R34, R39) -/

def State.portEnabled (s : State) (n : Nat) : Bool := s.rb (pchPortStatus n) 5
def State.linkUp (s : State) (n : Nat) : Bool := s.rb (pchPortStatus n) 0
def State.mtu (s : State) (n : Nat) : Nat := s.rf (pchPortMtu n) 14 0
def State.laneRate (s : State) (n : Nat) : Nat := s.rf (pchOctCfg (n / 8)) 2 0
def State.portLanes (s : State) (n : Nat) : Nat := 2 ^ s.rf (pchPortCfg n) 2 1
/-- The speed of a port in Gb/s. -/
def State.portSpeed (s : State) (n : Nat) : Nat :=
  s.portLanes n * (match s.laneRate n with | 1 => 25 | 2 => 50 | 3 => 100 | 4 => 200 | _ => 0)
/-- The port address. -/
def State.portMac (s : State) (n : Nat) : List Byte :=
  natBe 6 (s.rf (pchPortMacHi n) 15 0 * 2 ^ 32 + s.rdN (pchPortMacLo n))
/-- A slice or a chiplet is isolated (R508, R509). -/
def State.isoSlice (s : State) (sl : Nat) : Bool := s.rb mstIsoStatus sl
def State.isoChiplet (s : State) (c : Nat) : Bool := s.rb mstIsoStatus (24 + c)
def State.inSafe (s : State) : Bool := s.rf mstStatus 31 30 != 0
def State.sliceGated (s : State) (sl : Nat) : Bool := s.rb atcPwrStatus sl

/-! ## The Pantry (R274 to R277) -/

/-- The units of a frame of L bytes. -/
def unitsOf (len : Nat) : Nat := (len + 63) / 64 + 1

def State.ingressUnits (s : State) : Nat := 241664 - 4096 * s.rf stwBufCfg 4 0
def State.egressUnits (s : State) : Nat := 4096 * s.rf stwBufCfg 4 0

/-- HEADROOM over the enabled ports of a slice. -/
def State.headroomSum (s : State) (sl : Nat) : Nat :=
  ((upto 32).map fun i =>
    if s.portEnabled (32 * sl + i) then s.rf (stwPortHeadroom (32 * sl + i)) 15 0 else 0).sum

/-- The frames of a slice. -/
def State.framesOf (s : State) (sl : Nat) : List (Nat × Frame) :=
  s.pipe.frames.filter fun p => p.2.slice == sl

/-- F: the shared-pool units of a slice that are not held. -/
def State.freeUnits (s : State) (sl : Nat) : Nat :=
  s.ingressUnits - s.headroomSum sl - ((s.framesOf sl).map (·.2.units)).sum

/-- The headroom units that frames of port n hold. -/
def State.hrUsed (s : State) (n : Nat) : Nat :=
  ((s.pipe.frames.filter fun p => p.2.port == n).map (·.2.hr)).sum

/-- The shared-pool units that frames of (port, class) hold. -/
def State.classUnits (s : State) (n c : Nat) : Nat :=
  ((s.pipe.frames.filter fun p => p.2.port == n && p.2.counted == some c).map (·.2.units)).sum

def State.lossless (s : State) (n c : Nat) : Bool := s.rb (stwPortCfg n) c

/-- `u` more units for frame f of port n, from the shared pool and then from the port's headroom;
`none` where it finds neither. -/
def State.takeUnits (s : State) (f u : Nat) : Option State :=
  let x := s.frame f
  let fromShared := min u (s.freeUnits x.slice)
  let rest := u - fromShared
  if s.hrUsed x.port + rest ≤ s.rf (stwPortHeadroom x.port) 15 0 ∨ rest = 0 then
    some (s.setFrame f { x with units := x.units + fromShared, hr := x.hr + rest })
  else none

/-! ## XOFF and XON (R276) -/

/-- XOFF or XON posted for the priorities of class c of port n. -/
def State.xoffClass (s : State) (n c : Nat) : State :=
  if !(s.lossless n c) then s else
  let u := s.classUnits n c
  let prios := (upto 8).filter fun p => s.rf (pchPfcMap n) (3 * p + 2) (3 * p) == c
  let th := s.rf (stwPortPfc n) 31 16
  let xon := s.rf (stwPortPfc n) 15 0
  if th ≤ u then if s.inSafe then s else
    s.each prios fun t p =>
      let q := t.port n
      if q.xoff.testBit p then t
      else (t.setPort n { q with xoff := q.xoff + 2 ^ p, pfcDue := Nat.lor q.pfcDue (2 ^ p) }).count evStwXoff n p
  else if u ≤ xon then
    s.each prios fun t p =>
      let q := t.port n
      if q.xoff.testBit p then t.setPort n { q with xoff := q.xoff - 2 ^ p, pfcDue := Nat.lor q.pfcDue (2 ^ p) } else t
  else s

def State.xoffUpdate (s : State) (n : Nat) : State := s.each (upto 8) fun t c => t.xoffClass n c

/-! ## What a frame holds (R223, R252, R290) -/

/-- A placement-set reference released. -/
def State.releaseSet (s : State) (k : Nat) : State :=
  { s with crw := { s.crw with sets := tmod ⟨[], 0⟩ s.crw.sets k fun p => { p with refs := p.refs - 1 } } }

/-- The in-flight count of a mark bit lowered. -/
def State.releaseMark (s : State) (b : Bool) : State :=
  s.wrN (crwMigInflight (nat b)) (s.rdN (crwMigInflight (nat b)) - 1)

/-- The frame's placement-set references are released, but for those on the sets that `keep` names. -/
def State.dropSets (s : State) (f : Nat) (keep : Nat → Bool) : State :=
  let x := s.frame f
  (s.each (x.sets.filter fun k => !(keep k)) State.releaseSet).setFrame f { x with sets := x.sets.filter keep }

/-- The frame's in-flight count is released. -/
def State.dropMark (s : State) (f : Nat) : State :=
  match (s.frame f).mark with
  | none => s
  | some b => (s.releaseMark b).setFrame f { s.frame f with mark := none }

/-- FRAME_RELEASE: the placement-set reference and the in-flight count. -/
def State.frameRelease (s : State) (f : Nat) : State := (s.dropSets f fun _ => false).dropMark f

/-- The units of a frame return to the pools they were taken from. -/
def State.freeFrameUnits (s : State) (f : Nat) : State :=
  let x := s.frame f
  if x.units = 0 ∧ x.hr = 0 then s
  else (s.setFrame f { x with units := 0, hr := 0, counted := none }).xoffUpdate x.port

/-- A ticket or a sample still stands for the frame. -/
def State.ticketHolds (s : State) (f : Nat) : Bool := s.lft.tickets.any fun p => p.2.fid == f

/-- The buffer that is freed with a frame is freed (R384). -/
def State.freeBuf (s : State) (f : Nat) : State :=
  let x := s.frame f
  if x.buf = 0 then s else (s.hwFree x.buf).setFrame f { x with buf := 0 }

/-- A mirror copy of frame f has yet to take its bytes. -/
def State.mirrorWaits (s : State) (f : Nat) : Bool := s.pipe.frames.any fun p => p.2.fab.mirrorOf == some f

/-- The record of a frame goes once nothing needs it: no head, no queue, no copy, no notice, no mirror. -/
def State.tidy (s : State) (f : Nat) : State :=
  let x := s.frame f
  if x.head.pos = .none ∧ x.fab.queues.isEmpty ∧ x.fab.owed.isEmpty ∧ x.complete ∧ x.isOver ∧
      (x.events.isEmpty ∨ x.noticed ∨ !x.settled) ∧ !(s.ticketHolds f) ∧ !(s.mirrorWaits f) ∧
      !(s.stw.eg.any fun p => p.2.fid == f) ∧ !(s.stw.copies.any fun p => p.2.fid == f) then
    { s with pipe := { s.pipe with frames := tdel s.pipe.frames f } }
  else s

/-- A frame number taken out of a slice's lists. -/
def Slice.without (x : Slice) (f : Nat) : Slice :=
  { x with wake := x.wake.filter (· != f), headQ := x.headQ.filter (· != f), slots := x.slots.filter (· != f),
           park := x.park.filter (· != f), reentry := x.reentry.filter (· != f), hostQ := x.hostQ.filter (· != f) }

/-- A frame number taken out of a queue. -/
def Voq.without (v : Voq) (f : Nat) : Voq :=
  { v with die := v.die.filter (· != f), latch := v.latch.filter (· != f),
           spill := v.spill.filter fun r => r.fid != f }

/-- A frame is discarded before it crosses: its units return, its references are released, and no
queue or list holds it (R223, R252, R278, R290). -/
def State.discardFrame (s : State) (f : Nat) : State :=
  if !(s.hasFrame f) then s else
  let s1 := ((s.frameRelease f).freeFrameUnits f).freeBuf f
  let x := s1.frame f
  let s2 := s1.setSl x.slice ((s1.sl x.slice).without f)
  let s3 := { s2 with stw := { s2.stw with voqs := s2.stw.voqs.map fun (p : Nat × Voq) => (p.1, p.2.without f) } }
  let y := s3.frame f
  (s3.setFrame f { y with isOver := true, head := { y.head with pos := .none, remote := [] },
                          fab := { y.fab with queues := [], owed := [] } }).tidy f

/-! ## Copies (R239, R288, R290) -/

def State.egFrame (s : State) (f e : Nat) : Option EgFrame := tfind s.stw.eg (16 * f + e)
def State.setEg (s : State) (x : EgFrame) : State :=
  { s with stw := { s.stw with eg := tput s.stw.eg (16 * x.fid + x.dst) x } }

/-- The copies of frame f at egress slice e. -/
def State.copiesAt (s : State) (f e : Nat) : List (Nat × Copy) :=
  s.stw.copies.filter fun p => p.2.fid == f && p.2.dst == e

/-- A copy's number taken out of its egress queue; the group's deficit goes with the queue's last copy
(R315). -/
def State.egLeave (s : State) (c : Nat) : State :=
  let y := s.copy c
  let k := 8 * y.port + y.tc
  let l := (tget [] s.stw.egq k).filter (· != c)
  let s1 := { s with stw := { s.stw with egq := tset [] s.stw.egq k l } }
  match tfind s1.sht.dwrr y.port with
  | some d =>
    if l.isEmpty then
      { s1 with sht := { s1.sht with dwrr := tput s1.sht.dwrr y.port { d with deficit := tdel d.deficit y.tc } } }
    else s1
  | none => s1

/-- The egress instance of a frame goes once every cell has come and no copy of it remains. -/
def State.egTidy (s : State) (f e : Nat) : State :=
  match s.egFrame f e with
  | none => s.tidy f
  | some g =>
    if g.got < g.want ∨ !((s.copiesAt f e).isEmpty) then s
    else { s with stw := { s.stw with eg := tdel s.stw.eg (16 * f + e) } }.tidy f

/-- A copy is sent or abandoned with result `r`; one that takes no outcome is done with. -/
def State.copyEnd (s : State) (c r : Nat) : State :=
  let s1 := s.egLeave c
  let y := s1.copy c
  s1.setCopy c { y with st := 3, result := r, told := y.told || !y.counts }

/-- A copy whose outcome is decided leaves the table once its frame needs it no more. -/
def State.copyGone (s : State) (c : Nat) : State :=
  let y := s.copy c
  if y.st = 3 ∧ y.told ∧ !(shas (s.fab y.fid).owed y.dst) then
    { s with stw := { s.stw with copies := tdel s.stw.copies c } }.egTidy y.fid y.dst
  else s

/-! ## Re-entry (R122) -/

/-- A head joins the re-entry queue of its slice. -/
def State.enterReentry (s : State) (f : Nat) : State :=
  let k := (s.frame f).slice
  (s.setHead f { s.head f with pos := .reentry }).setSl k { s.sl k with reentry := (s.sl k).reentry ++ [f] }

/-- The re-entry queue of a slice has room. -/
def State.reentryRoom (s : State) (k : Nat) : Bool := decide ((s.sl k).reentry.length < 256)

/-- A gated slice core runs again; the frames of its wake buffer take their units and join the head
queue in arrival order (R29). A frame that finds no unit, or no room, is lost (R123, R277). -/
def State.wakeSlice (s : State) (sl : Nat) : State :=
  if !(s.sliceGated sl) then s else
  let l := (s.sl sl).wake
  let s1 := (s.putB atcPwrStatus sl false).setSl sl { s.sl sl with wake := [] }
  s1.each l fun t f =>
    let x := t.frame f
    if 2048 ≤ (t.sl sl).headQ.length then (t.count evHlwHeadqDrop x.port 0).discardFrame f
    else
      match t.takeUnits f (unitsOf x.len) with
      | none => (t.count evStwRxNobuf x.port 0).discardFrame f
      | some u =>
        (u.setHead f { u.head f with pos := .queued }).setSl sl
          { u.sl sl with headQ := (u.sl sl).headQ ++ [f] }

end Sys2Proof.Machine
end

