-- ==== Sys2Proof/Machine/HallOps.lean ====
section
/-! DEFINITION. Hallway's tables (R99 to R136): generations, definitions, keys, action words, stage
SRAM, and the search of a Gallery copy (R138 to R145). -/

namespace Sys2Proof.Machine

/-! ## Generations (R127 to R131) -/

/-- HLW_GEN_STATUS.STATE. -/
def State.genState (s : State) : Nat := s.rf hlwGenStatus 2 0
/-- The current generation parity. -/
def State.genPar (s : State) : Nat := s.rf hlwGenStatus 16 16
/-- A head of parity `g` sees the contents of the committed batch. -/
def State.seesNew (s : State) (g : Nat) : Bool := s.hlw.committed && g == s.genPar
/-- What a command reads: the contents of a head accepted now, or of the open batch's commit. -/
def State.cmdSeesNew (s : State) (staged : Bool) : Bool := staged || s.hlw.committed
/-- The staged writes of the batch. -/
def State.stagedCount (s : State) : Nat := s.rf hlwGenStaged 18 0
/-- The parity that the open batch's commit creates, or that the committed batch created. -/
def State.newPar (s : State) : Nat := if s.hlw.committed then s.genPar else 1 - s.genPar

/-- A staged write of `n` entries is refused: NO_BATCH or BATCH_FULL, by the codes given; 0 otherwise. -/
def State.stageRefuse (s : State) (n full none : Nat) : Nat :=
  if s.genState ≠ 1 then none else if 262144 < s.stagedCount + n then full else 0

/-- `n` more staged writes in the batch. -/
def State.stageAdd (s : State) (n : Nat) : State := s.wrN hlwGenStaged (s.stagedCount + n)

/-! ## Stages (R99, R100) -/

def State.stageKind (s : State) (sl st : Nat) : Nat := s.rf (hlwStageCfg sl st) 2 0
/-- The first and the end address of a stage's SRAM. -/
def State.stageUnits (s : State) (sl st : Nat) : Nat × Nat :=
  let a := hlwStageCfg sl st
  (s.rf a 15 8 * 1024, (s.rf a 15 8 + s.rf a 24 16) * 1024)
def State.inStage (s : State) (sl st a n : Nat) : Bool :=
  decide ((s.stageUnits sl st).1 ≤ a ∧ a + n ≤ (s.stageUnits sl st).2)

/-! ## Definitions (R103 to R105) -/

def df (d : BitVec 256) (hi lo : Nat) : Nat := bits d.toNat hi lo
def dValid (d : BitVec 256) : Bool := d.getLsbD 192
def dForm (d : BitVec 256) : Nat := df d 242 240
def dBase (d : BitVec 256) : Nat := df d 221 204
def dMiss (d : BitVec 256) : Nat := df d 239 222
def dJoin (d : BitVec 256) : Nat := df d 247 243
def dCont (d : BitVec 256) : Nat := df d 255 248
def dSize (d : BitVec 256) : Nat := df d 132 128
def dPiece (d : BitVec 256) (p : Nat) : Nat := df d (16 * p + 15) (16 * p)

/-- The definition of table t of slice sl, as a head of the new or the old contents sees it. -/
def State.defOf (s : State) (sl t : Nat) (new : Bool) : BitVec 256 :=
  let k := 192 * sl + t
  let old := tget 0 s.hlw.defs k
  if new then tget old s.hlw.newDefs k else old

/-- A key piece keeps to R104. -/
def pieceOk (p : Nat) : Bool :=
  let len := bits p 4 0
  let off := bits p 14 5
  decide (len ≤ 16) && decide (len = 0 ∨ off + len ≤ (if bits p 15 15 = 0 then 512 else 128))

/-- The width in bytes of a key. -/
def keyWidth (pieces : List Nat) : Nat := (pieces.map fun p => bits p 4 0).sum

/-- A table id is END or names a stage and a slot. -/
def tableIdOk (t : Nat) : Bool := t < 0xC0 || t == 0xFF

/-- The words of the bank-select map of a GALLERY table (R139). -/
def gBase (d : BitVec 256) : Nat := df d 133 128
def gPartBanks (d : BitVec 256) : Nat := df d 137 134
def gPartLog2 (d : BitVec 256) : Nat := df d 140 138
def gSelLsb (d : BitVec 256) : Nat := df d 150 141
/-- W: the banks that an entry takes (R138). -/
def gW (d : BitVec 256) : Nat := 2 ^ (dForm d - 1)
/-- The banks of a GALLERY table's region: the first, and the end. -/
def gRegion (d : BitVec 256) : Nat × Nat := (gBase d, gBase d + 2 ^ gPartLog2 d * gPartBanks d)

/-- The valid GALLERY tables of a slice other than t, under the old contents and the new. -/
def State.galTables (s : State) (sl t : Nat) : List (BitVec 256) :=
  let ids := (tkeys s.hlw.defs ++ tkeys s.hlw.newDefs).filter fun k =>
    k / 192 == sl && k % 192 != t && s.stageKind sl (k % 192 / 8) == 2
  (ids.flatMap fun k => [s.defOf sl (k % 192) false, s.defOf sl (k % 192) true]).filter dValid

/-- The bank-select map keeps to R140. -/
def State.mapOk (s : State) (sl t : Nat) (d : BitVec 256) : Bool :=
  let pb := gPartBanks d
  let w := gW d
  let r := gRegion d
  decide (1 ≤ pb ∧ pb ≤ 8) && decide (gPartLog2 d ≤ 6) && decide (gBase d % w = 0 ∧ pb % w = 0) &&
    decide (r.2 ≤ 64) && decide (gSelLsb d + gPartLog2 d ≤ 80 * w) && df d 191 151 == 0 &&
    !((s.galTables sl t).any fun e => decide (r.1 < (gRegion e).2 ∧ (gRegion e).1 < r.2))

/-- A definition passes the checks of R105; one with VALID 0 need only keep its reserved bits 0
(DEDUCED, unsafe: log entry 42). -/
def State.defOk (s : State) (sl t : Nat) (d : BitVec 256) : Bool :=
  let st := t / 8
  let pieces := (upto 8).map (dPiece d)
  let width := keyWidth pieces
  let form := dForm d
  let remoteOk (dist : Nat) : Bool :=
    decide (st + dist ≤ dJoin d ∧ dJoin d ≤ 23) && (dCont d == 0xFF || decide (st < dCont d / 8 ∧ dCont d / 8 < dJoin d))
  if df d 203 193 ≠ 0 then false
  else if !(dValid d) then true
  else tableIdOk (dCont d) && pieces.all pieceOk && s.inStage sl st (dMiss d) 1 &&
    (match s.stageKind sl st with
     | 1 =>
       df d 191 133 == 0 &&
       (if form = 1 then decide (dSize d ≤ 18 ∧ 1 ≤ width ∧ width ≤ 4) && s.inStage sl st (dBase d) (2 ^ dSize d)
        else form == 2 && decide (dSize d ≤ 15 ∧ 1 ≤ width ∧ width ≤ 12) &&
          s.inStage sl st (dBase d) (8 * 2 ^ dSize d))
     | 2 =>
       decide (1 ≤ form ∧ form ≤ 4) && decide (1 ≤ width ∧ width ≤ 10 * gW d) && s.inStage sl st (dBase d) 1 &&
         s.mapOk sl t d
     | 3 => form == 1 && df d 191 136 == 0 && decide (1 ≤ width ∧ width ≤ 40) && remoteOk 6
     | 4 => form == 1 && df d 191 128 == 0 && width == 0 && s.inStage sl st (dBase d) 8 && remoteOk 8
     | _ => false)

/-! ## Keys (R104) -/

/-- The bytes that one piece takes. -/
def pieceBytes (h : Head) (p : Nat) : List Byte :=
  let len := bits p 4 0
  let off := bits p 14 5
  if bits p 15 15 = 0 then slice h.hv off len
  else (upto len).map fun j => BitVec.ofNat 8 (h.get (8 * (off + len - 1 - j) + 7) (8 * (off + len - 1 - j)))

/-- The key of a table. -/
def keyBytes (h : Head) (pieces : List Nat) : List Byte := pieces.flatMap (pieceBytes h)

def defKey (h : Head) (d : BitVec 256) : List Byte := keyBytes h ((upto 8).map (dPiece d))

/-! ## Action words (R112, R113, R124) -/

def af (a : BitVec 128) (hi lo : Nat) : Nat := bits a.toNat hi lo

/-- An action word passes R113. -/
def actionOk (a : BitVec 128) : Bool :=
  let flow := af a 119 117
  let place := af a 116 116
  let dk := af a 115 113
  let dest := af a 112 97
  let move := af a 37 36
  let edit := af a 53 51
  tableIdOk (af a 127 120) && decide (flow ≤ 4) && decide (dk ≤ 3) && decide (af a 77 71 ≤ 64) &&
    af a 55 54 != 3 && decide (edit ≤ 3) && move != 3 && !(dk == 1 && decide (511 < dest)) &&
    !(place == 1 && (dk != 0 || flow != 0)) && !(flow == 4 && decide (8192 ≤ dest)) &&
    !(move == 1 && af a 35 32 == 15) && !(edit == 3 && af a 35 32 == 15)

/-- A per-port default passes R124 as well. -/
def defaultOk (a : BitVec 128) : Bool :=
  actionOk a && af a 127 120 == 0xFF && af a 116 116 == 0 && decide (af a 119 117 ≤ 2)

/-! ## Stage SRAM (R101) -/

/-- Word k of the SRAM (2^18 × slice + address). -/
def State.sramAt (s : State) (k : Nat) (new : Bool) : BitVec 128 :=
  let old := tget 0 s.hlw.sram k
  if new then tget old s.hlw.newSram k else old

/-- A word is read and checked; `none` where its error is uncorrectable. -/
def State.sramRead (s : State) (k : Nat) (new : Bool) : State × Option (BitVec 128) :=
  let sl := k / 2 ^ 18
  let info : Word := BitVec.ofNat 32 (k % 2 ^ 18)
  match s.eccOf .hlw k with
  | .ok => (s, some (s.sramAt k new))
  | .corr =>
    ((((s.eccClear .hlw k).setB (hlwSliceErr sl) 0).report 0x12 sl info).count evHlwEccCorr sl 0, some (s.sramAt k new))
  | .uncorr =>
    ((((s.setB (hlwSliceErr sl) 1).wf (hlwSliceErr sl) 29 12 (k % 2 ^ 18)).report 0x13 sl info).count evHlwEccUncorr sl 0,
      none)

/-- A word is written, at once or in the batch. -/
def State.sramPut (s : State) (k : Nat) (v : BitVec 128) (staged : Bool) : State :=
  let s1 := s.eccClear .hlw k
  let s2 := if staged then { s1 with hlw := { s1.hlw with newSram := tput s1.hlw.newSram k v } }
    else { s1 with hlw := { s1.hlw with sram := tset 0 s1.hlw.sram k v } }
  s2.inject 0x07 0x20 0x40 .hlw k

/-- The batch, open or committed, has written word k: an immediate write of it is refused (R131). -/
def State.sramConflict (s : State) (k : Nat) : Bool := (tfind s.hlw.newSram k).isSome

/-! ## EXACT tables (R107) -/

/-- A key padded to 12 bytes. -/
def pad12 (k : List Byte) : List Byte := slice k 0 12

/-- The two candidate buckets of a key. -/
def exactBuckets (size : Nat) (key : List Byte) : Nat × Nat :=
  let h := crc32c (pad12 key)
  let b1 := h % 2 ^ size
  let b2 := h / 65536 % 2 ^ size
  (b1, if b2 = b1 ∧ size > 0 then Nat.xor b1 1 else b2)

/-- The slots of a key in the order an insert works through them: SRAM word indices of their actions. -/
def exactSlots (sl : Nat) (d : BitVec 256) (key : List Byte) : List Nat :=
  let b := exactBuckets (dSize d) key
  [b.1, b.2].flatMap fun bk => (upto 4).map fun w => 2 ^ 18 * sl + dBase d + 8 * bk + 2 * w

def slotValid (w : BitVec 128) : Bool := w.getLsbD 0
def slotKey (w : BitVec 128) : Nat := af w 127 32

/-- The slot words of a list read in turn; `none` where one cannot be read. The answers are the slots
with their key words. -/
def State.slotWords (s : State) (new : Bool) (l : List Nat) : State × Option (List (Nat × BitVec 128)) :=
  l.foldl (fun (acc : State × Option (List (Nat × BitVec 128))) k =>
    let q := acc.1.sramRead (k + 1) new
    (q.1, match acc.2, q.2 with
      | some x, some w => some (x ++ [(k, w)])
      | _, _ => none)) (s, some [])

/-- The slot that holds a key. -/
def slotOf (key : List Byte) (l : List (Nat × BitVec 128)) : Option Nat :=
  (l.find? fun p => slotValid p.2 && slotKey p.2 == beNat (pad12 key)).map (·.1)

/-! ## Gallery's search (R138 to R145) -/

/-- The key number of a GALLERY table. -/
def galKeyNum (d : BitVec 256) (key : List Byte) : Nat := beNat (slice key 0 (10 * gW d))

/-- The partition that a key selects. -/
def galSelect (d : BitVec 256) (k : Nat) : Nat := k / 2 ^ gSelLsb d % 2 ^ gPartLog2 d

/-- The slots of a partition (R147). -/
def galSlots (d : BitVec 256) : Nat := gPartBanks d / gW d * 2048

/-- The place of slot i of partition p of slice sl. -/
def galPlace (sl : Nat) (d : BitVec 256) (p i : Nat) : Nat :=
  2 ^ 17 * sl + 2048 * (gBase d + p * gPartBanks d + i / 2048 * gW d) + i % 2048

/-- The slot of a place in partition p; the place lies in it. -/
def galSlotOf (sl : Nat) (d : BitVec 256) (p k : Nat) : Nat :=
  let off := k - 2 ^ 17 * sl - 2048 * (gBase d + p * gPartBanks d)
  off / 2048 / gW d * 2048 + off % 2048

/-- The entries of partition p, with their slots, lowest first. -/
def State.galPart (s : State) (sl : Nat) (d : BitVec 256) (p : Nat) : List (Nat × GalEnt) :=
  let lo := 2 ^ 17 * sl + 2048 * (gBase d + p * gPartBanks d)
  let hi := lo + 2048 * gPartBanks d
  (s.gal.ents.filter fun e => decide (lo ≤ e.1 ∧ e.1 < hi)).map fun e => (galSlotOf sl d p e.1, e.2)

/-- An entry is seen by searches of parity g. -/
def GalEnt.sees (e : GalEnt) (g : Nat) : Bool := !e.hidden && (if g = 0 then e.vis0 else e.vis1)

/-- The number of care bits. -/
def popCount (n : Nat) : Nat := ((upto 640).filter n.testBit).length
def GalEnt.rank (e : GalEnt) : Nat := popCount e.mask

/-- The winner of a search of table t in parity g: its slot, partition and entry. -/
def State.galSearch (s : State) (sl : Nat) (d : BitVec 256) (t k g : Nat) : Option (Nat × Nat × GalEnt) :=
  let p := galSelect d k
  ((s.galPart sl d p).find? fun e => e.2.table == t && e.2.sees g && Nat.land k e.2.mask == e.2.value).map
    fun e => (p, e.1, e.2)

end Sys2Proof.Machine
end

