-- ==== Sys2Proof/Machine/PorchOps.lean ====
section
/-! DEFINITION. Porch's operations (R32 to R62): port modes, partner state, link state, pause. -/

namespace Sys2Proof.Machine

/-! ## Port modes (R33, R34, R36) -/

/-- Lanes, lane rate and FEC code form a port mode of R34. -/
def modeOk (lanes rate fec : Nat) : Bool :=
  if rate = 1 then (lanes == 4 && (fec == 0 || fec == 2)) || (lanes == 1 && fec ≤ 2)
  else decide (2 ≤ rate ∧ rate ≤ 4) && fec == 3

/-- Port n shares a lane with another enabled port. -/
def State.portOverlap (s : State) (n : Nat) : Bool :=
  (upto 8).any fun i =>
    let m := n / 8 * 8 + i
    m != n && s.rb (pchPortCfg m) 0 && decide (n < m + s.portLanes m ∧ m < n + s.portLanes n)

/-- The configuration of port n may be enabled. -/
def State.portCfgOk (s : State) (n : Nat) : Bool :=
  let lanes := s.portLanes n
  decide (n % lanes = 0) && s.laneRate n != 0 && modeOk lanes (s.laneRate n) (s.rf (pchPortCfg n) 4 3) &&
    !(s.portOverlap n) && decide (64 ≤ s.mtu n ∧ s.mtu n ≤ 16384) &&
    s.rf (pchPortCfg n) 8 7 != 3 && s.rf (pchPortCfg n) 10 9 != 3

/-- Porch's fixed receive and transmit delays in ns, by lane rate and FEC (R39) (DESIGN CHOICE, unsafe: log entry 20). -/
def portDelay (rate fec : Nat) : Nat × Nat :=
  match rate with
  | 4 => (110, 45)
  | 3 => (130, 50)
  | 2 => (170, 60)
  | _ => if fec = 2 then (260, 70) else if fec = 1 then (130, 45) else (40, 35)

/-- A signed 16-bit number of 1/16 ns, in units of device time. -/
def adjOf (v : Nat) : Int := ((BitVec.ofNat 16 v).toInt) * 2 ^ 20

/-- The receive stamp of a frame whose first bit is at the PCS now (R52). -/
def State.rxStamp (s : State) (n : Nat) : Nat :=
  let d := (portDelay (s.laneRate n) (s.rf (pchPortCfg n) 4 3)).1
  let t : Int := (s.time : Int) - (d : Int) * 2 ^ 24 + adjOf (s.rf (pchTsAdj n) 15 0)
  (t / 2 ^ 24).toNat % 2 ^ 64

/-- The transmit stamp of a frame that begins now (R53). -/
def State.txStamp (s : State) (n : Nat) : Nat :=
  let d := (portDelay (s.laneRate n) (s.rf (pchPortCfg n) 4 3)).2
  let t : Int := (s.time : Int) + (d : Int) * 2 ^ 24 + adjOf (s.rf (pchTsAdj n) 31 16)
  (t / 2 ^ 24).toNat % 2 ^ 64

/-! ## Partner state (R59, R60) -/

/-- The highest version whose bit is set in a mask, of 1 to 3; 0 where none is. -/
def topVersion (m : Nat) : Nat := if m.testBit 3 then 3 else if m.testBit 2 then 2 else if m.testBit 1 then 1 else 0

/-- COMMON of port n (R60). -/
def State.common (s : State) (n : Nat) : Nat :=
  let p := (s.port n).peer
  if p.up then topVersion (Nat.land p.vers (s.rf pchHelloGlobal 15 0)) else s.rf (pchHelloCfg n) 22 20

/-- PCH_PEER_STATE and PCH_PEER_TARGET show the partner. -/
def State.peerShow (s : State) (n : Nat) : State :=
  let p := (s.port n).peer
  let v := p.vers * 2 ^ 16 + (if p.up then p.health else 3) * 2 ^ 8 + s.common n * 2 ^ 4 + nat p.isTarget * 4
    + nat p.isDevice * 2 + nat p.up
  (s.wrN (pchPeerState n) v).wrN (pchPeerTarget n) p.target

/-- The recorded partner state becomes `p`; a change is posted, and a fall is counted. -/
def State.peerSet (s : State) (n : Nat) (p : Peer) : State :=
  let q := s.port n
  if q.peer = p then s else
  let s1 := (s.setPort n { q with peer := p, posts := q.posts ++ [p] }).peerShow n
  if q.peer.up ∧ !p.up then s1.count evPchPeerDown n 0 else s1

/-- The partner goes down. -/
def State.peerDown (s : State) (n : Nat) : State := s.peerSet n { (s.port n).peer with up := false }

/-! ## Pause (R49) -/

/-- PCH_PFC_STATE.TC_PAUSED shows the classes that are paused. -/
def State.pauseShow (s : State) (n : Nat) : State :=
  let t := (s.port n).pause
  let m := ((upto 8).map fun c =>
    let held := (tfind t (8 + c)).isSome || (upto 8).any fun p =>
      (tfind t p).isSome && s.rf (pchPfcMap n) (3 * p + 2) (3 * p) == c
    nat held * 2 ^ c).sum
  s.wf (pchPfcState n) 7 0 m

/-- A pause time loads timer k of port n, or clears it. -/
def State.pauseLoad (s : State) (n k quanta : Nat) : State :=
  let q := s.port n
  s.setPort n { q with pause := if quanta = 0 then tdel q.pause k else tput q.pause k quanta }

def State.tcPaused (s : State) (n c : Nat) : Bool := s.rb (pchPfcState n) c

/-- A PFC frame with class-enable vector `vec` and eight times (R47 to R49). -/
def State.pfcReceive (s : State) (n vec : Nat) (times : List Nat) : State :=
  if s.rf (pchPortCfg n) 8 7 ≠ 1 then s.count evPchMacctlDiscard n 0 else
  let ps := (upto 8).filter vec.testBit
  let s1 := s.each ps fun t p => t.count evPchPfcRx n p
  (s1.each (ps.filter fun p => s.rb (pchPfcCfg n) (24 + p)) fun t p =>
    t.pauseLoad n p (times.getD p 0)).pauseShow n

/-- A PAUSE frame. -/
def State.pauseReceive (s : State) (n time : Nat) : State :=
  if s.rf (pchPortCfg n) 8 7 ≠ 2 then s.count evPchMacctlDiscard n 0
  else (s.each (upto 8) fun t c => t.pauseLoad n (8 + c) time).pauseShow n

/-! ## Hellos (R56 to R61) -/

/-- A hello sends on port n: the part's state, with or without REPLY_REQ and LEAVING. -/
def State.sendHello (s : State) (n : Nat) (reply leaving : Bool) : State :=
  let q := s.port n
  let health := if s.inSafe || s.isoSlice (n / 32) then 3 else 0
  let body := natBe 6 0x0180C200000E ++ s.portMac n ++ natBe 2 0x88B5 ++ natBe 2 0x4B48 ++ natBe 1 1
    ++ natBe 1 (nat leaving * 8 + 2 + nat reply) ++ natBe 4 q.helloSeq ++ natBe 2 (s.rf pchHelloGlobal 15 0)
    ++ natBe 2 (s.rf (pchHelloCfg n) 15 0) ++ natBe 1 (s.rf (pchHelloCfg n) 19 16) ++ natBe 1 health
    ++ natBe 2 0 ++ natBe 4 0xFFFFFFFF ++ natBe 8 (s.rd64 pchNodeIdLo) ++ natBe 8 s.ns
  let frame := body ++ List.replicate (60 - body.length) 0
  let s1 := s.setPort n { q with helloSeq := (q.helloSeq + 1) % 2 ^ 32 }
  (((s1.emit (.frame n (frame ++ fcsOf frame false) false)).count evPchHelloTx n 0).count evPchTxFrames n 0).countBy
    evPchTxBytes n 0 64

/-- The payload of a received hello passes the checks of R58. -/
def helloOk (p : List Byte) : Bool :=
  decide (36 ≤ p.length) && beAt p 0 2 == 0x4B48 && beAt p 2 1 != 0 &&
    decide (1 ≤ beAt p 10 2 ∧ beAt p 10 2 ≤ 10000 ∧ 2 ≤ beAt p 12 1 ∧ beAt p 12 1 ≤ 15 ∧ beAt p 15 1 ≤ 200
      ∧ 36 + beAt p 15 1 ≤ p.length)

/-- A valid hello that the rate lets through updates the partner (DEDUCED, unsafe: log entry 22). -/
def State.helloAccept (s : State) (n : Nat) (p : List Byte) : State :=
  let q := s.port n
  let flags := beAt p 3 1
  let seq := beAt p 4 4
  let gap := match q.peerSeq with | some k => decide (seq ≠ (k + 1) % 2 ^ 32) | none => false
  let s1 := s.count evPchHelloRx n 0
  let s2 := if gap then s1.count evPchHelloSeqGap n 0 else s1
  let s3 := if 3 < beAt p 13 1 then s2.count evPchHelloHealthUnknown n 0 else s2
  let new : Peer := { up := true, vers := beAt p 8 2, health := min 3 (beAt p 13 1), target := beAt p 16 4,
                      isTarget := flags.testBit 2, isDevice := flags.testBit 1, node := beAt p 20 8 }
  let s4 := s3.setPort n { s3.port n with
    peerSeq := some seq, lastHelloNs := some s.ns, holdMs := beAt p 10 2 * beAt p 12 1,
    replyDue := q.replyDue || (flags.testBit 0 && s.rf (pchHelloCfg n) 15 0 != 0) }
  let s5 := if q.peer.up ∧ q.peer.node ≠ new.node then s4.peerDown n else s4
  let s6 := s5.peerSet n new
  if flags.testBit 3 then s6.peerDown n else s6

/-- HELLO_RECEIVE: `frame` is the frame without its FCS. -/
def State.helloReceive (s : State) (n : Nat) (frame : List Byte) : State :=
  let p := frame.drop 14
  if !(helloOk p) then s.count evPchHelloMalformed n 0 else
  let soon := match (s.port n).lastHelloNs with | some t => decide (s.ns < t + 100000) | none => false
  if soon then s.count evPchHelloRateDrop n 0 else s.helloAccept n p

/-! ## Link down, disable (R36, R39) -/

/-- The link of port n goes down (R39): the frame in flight is lost, the frame that is arriving is
closed as lost, pause timers clear, the partner goes down. -/
def State.portLinkDown (s : State) (n : Nat) : State :=
  if !(s.linkUp n) then s else
  let q := s.port n
  let s1 := (((s.putB (pchPortStatus n) 0 false).putB (pchPortStatus n) 4 false).putB (pchPortStatus n) 3 false).setB
    (pchPortErr n) 5
  let s2 := s1.count evPchLinkDown n 0
  let s3 := match q.rx with
    | some r =>
      (match r.fid with
       | some f => (s2.setFrame f { s2.frame f with complete := true, lost := true, bad := true }).tidy f
       | none => s2)
    | none => s2
  let flying := match q.tx with | some t => t.begun | none => false
  let s5 := match q.tx with
    | some t =>
      if t.begun then ((s3.count evPchTxLinkAbort n 0).copyEnd t.copy 0x15).copyGone t.copy
      else s3
    | none => s3
  let s6 := s5.setPort n { s5.port n with
    rx := none, pause := [], downSince := s.ns, helloDue := 0, replyDue := false,
    tx := if flying then none else q.tx }
  (s6.pauseShow n).peerDown n

/-- The port is disabled at a frame boundary (R36), with a LEAVING hello where it sends hellos. -/
def State.portDisable (s : State) (n : Nat) : State :=
  let s1 := if s.linkUp n ∧ s.rf (pchHelloCfg n) 15 0 ≠ 0 then s.sendHello n false true else s
  let s2 := s1.portLinkDown n
  let s3 := s2.wf (pchPortStatus n) 5 0 0
  s3.setPort n { s3.port n with disableDue := false, downSince := s.ns }

/-- A frame of port n has begun and not ended. -/
def State.txBusy (s : State) (n : Nat) : Bool :=
  match (s.port n).tx with | some t => t.begun | none => false

end Sys2Proof.Machine
end

