-- ==== Sys2Proof/Machine/CrowOps.lean ====
section
/-! DEFINITION. Crowsnest's operations (R196 to R226, R236): shims, the key hash, ranking, placement-group
records, the roster's live state, versions, and placement sets. -/

namespace Sys2Proof.Machine

/-! ## Shims (R196 to R199) -/

/-- The fixed part of a version, in bytes; 0 for no version. -/
def shimFixed (v : Nat) : Nat := if v = 1 then 24 else if v = 2 then 28 else if v = 3 then 40 else 0

def shimOp (b : List Byte) : Nat := beAt b 4 1
def shimFlags (b : List Byte) : Nat := beAt b 5 1
def shimKeyLen (b : List Byte) : Nat := beAt b 6 2
def shimVersion (b : List Byte) : Nat := beAt b 2 1
def shimKey (b : List Byte) : List Byte := slice b (shimFixed (shimVersion b)) (shimKeyLen b)
def shimReq (b : List Byte) : Nat := beAt b 8 8
def shimOffset (b : List Byte) : Nat := beAt b 16 8
/-- FRAG_IDX; a v1 frame is no fragment. -/
def shimFrag (b : List Byte) : Nat := if shimVersion b = 1 then 0xFF else beAt b 24 1
def shimStripe (b : List Byte) : Nat := if shimVersion b = 1 then 0 else beAt b 25 1
def shimRflags (b : List Byte) : Nat := if shimVersion b = 3 then beAt b 26 2 else 0
def shimEpoch (b : List Byte) : Nat := if shimVersion b = 3 then beAt b 28 4 else 0
def shimDataLen (b : List Byte) : Nat := if shimVersion b = 3 then beAt b 32 4 else 0xFFFFFFFF
def shimNoticePort (b : List Byte) : Nat := if shimVersion b = 3 then beAt b 36 2 else 0

/-- The shim container of a head (R84). -/
def Head.shim (h : Head) : List Byte := slice h.hv 320 192

def State.crwRun (s : State) : Bool := s.rb crwCfg 31
def State.crwLog2 (s : State) : Nat := s.rf crwCfg 30 26
def State.crwLevels (s : State) : Nat := s.rf crwCfg 25 23
def State.crwReplicas (s : State) : Nat := s.rf crwCfg 22 19
def State.crwStripe (s : State) : Nat := s.rf crwCfg 18 14
def State.crwListLen (s : State) : Nat := s.rf crwCfg 13 9
def State.crwGroups (s : State) : Nat := 2 ^ s.crwLog2

/-- The checks of R199 on shim b of a head whose SHIM_VER is ver; 0 where it passes. -/
def State.shimCheck (s : State) (ver : Nat) (b : List Byte) : Nat :=
  let len := beAt b 3 1
  let fixed := shimFixed ver
  let key := shimKeyLen b
  let frag := shimFrag b
  let w := shimStripe b
  if beAt b 0 2 ≠ 0x4B50 ∨ shimVersion b ≠ ver ∨ fixed = 0 ∨ 4 * len < fixed ∨ 48 < len then 0x10
  else if key = 0 ∨ 4 * len ≠ fixed + (key + 3) / 4 * 4 then 0x11
  else if shimOp b = 0 ∨ 5 < shimOp b then 0x12
  else if frag = 0xFF then (if w = 0 then 0 else 0x13)
  else if 24 ≤ frag ∨ w < 2 ∨ 24 < w ∨ w ≤ frag ∨ s.crwStripe = 0 ∨ w ≠ s.crwStripe then 0x13
  else 0

/-! ## The key hash (R200) -/

/-- FNV-1a over bytes, from an offset basis. -/
def fnv1a (basis : Nat) (bs : List Byte) : Nat :=
  bs.foldl (fun h b => Nat.xor h b.toNat * 0x100000001B3 % 2 ^ 64) basis

/-- h of a key under a seed. -/
def keyHash (seed : Nat) (key : List Byte) : Nat := fnv1a (Nat.xor 0xCBF29CE484222325 seed) key

/-- The group of a hash. -/
def State.groupOf (s : State) (h : Nat) : Nat := h / 2 ^ (64 - s.crwLog2)

/-! ## Ranking (R206, R207) -/

def m32 (n : Nat) : Nat := n % 2 ^ 32

/-- The score of a node in group g. -/
def rankScore (g nid w rseed : Nat) : Nat :=
  let h0 := Nat.xor (Nat.xor (m32 (g * 0x9E3779B1)) nid) rseed
  let h1 := m32 (Nat.xor h0 (h0 / 2 ^ 16) * 0x85EBCA6B)
  let h2 := m32 (Nat.xor h1 (h1 / 2 ^ 13) * 0xC2B2AE35)
  let x := Nat.xor h2 (h2 / 2 ^ 16) + 1
  let n := Nat.log2 x
  let m := x * 2 ^ 16 / 2 ^ n - 2 ^ 16
  let l := n * 2 ^ 16 + m + 11 * m * (2 ^ 16 - m) / 2 ^ 21
  w * 2 ^ 28 / (2 ^ 21 - l + 1)

/-- A child of a node: its score, its NID, and the targets below it. -/
structure RankChild where
  score : Nat
  nid : Nat
  below : List RankEnt
deriving DecidableEq, Repr

/-- A child put in its place: the highest score first, and of equal scores the lower NID. -/
def rankInsert (c : RankChild) : List RankChild → List RankChild
  | [] => [c]
  | d :: t => if d.score < c.score ∨ (d.score = c.score ∧ c.nid < d.nid) then c :: d :: t else d :: rankInsert c t

/-- The targets dealt from the children's orders in rounds. -/
def deal (ls : List (List Nat)) : List Nat :=
  let n := (ls.map List.length).foldl max 0
  (upto n).flatMap fun k => ls.filterMap fun l => l[k]?

/-- DOMAIN[l] of a target. -/
def RankEnt.domain (e : RankEnt) (l : Nat) : Nat := e.dom.getD (l - 1) 0

/-- The domain ids at level l among targets, each once. -/
def domainsAt (l : Nat) (es : List RankEnt) : List Nat := es.foldl (fun acc e => sadd acc (e.domain l)) []

/-- The order of a node whose children are at level l, `n` levels of domains remaining; the targets below
it have weight above 0. -/
def rankOrder (g rseed : Nat) : Nat → Nat → List RankEnt → List Nat
  | 0, _, es =>
    ((es.map fun e => (⟨rankScore g e.id e.weight rseed, e.id, [e]⟩ : RankChild)).foldl
      (fun acc c => rankInsert c acc) []).map (·.nid)
  | n + 1, l, es =>
    let cs := (domainsAt l es).map fun d =>
      let below := es.filter fun e => e.domain l == d
      let nid := l * 2 ^ 16 + d
      (⟨rankScore g nid ((below.map (·.weight)).sum) rseed, nid, below⟩ : RankChild)
    deal ((cs.foldl (fun acc c => rankInsert c acc) []).map fun c => rankOrder g rseed n (l + 1) c.below)

/-- The ranked list of group g over a roster. -/
def State.ranked (s : State) (es : List RankEnt) (g : Nat) : List Nat :=
  (rankOrder g (s.rdN crwRseed) s.crwLevels 1 (es.filter fun e => e.weight != 0)).take s.crwListLen

/-! ## The roster (R202 to R205) -/

/-- The fields of a roster entry's 32 bytes. -/
def entWeight (b : List Byte) : Nat := leNat (slice b 0 2)
def entFlags (b : List Byte) : Nat := leNat (slice b 2 2)
def entDomain (b : List Byte) (l : Nat) : Nat := leNat (slice b (2 * l + 2) 2)
def entDest (b : List Byte) : Nat := leNat (slice b 12 4)
def entValid (b : List Byte) : Bool := (entFlags b).testBit 0

def CrwTgt.none : CrwTgt :=
  { valid := false, vers := 0, hsrc := false, legacy := false, kind := 0, dest := 0, node := 0, health := 4 }

/-- The live state that a roster entry starts with. -/
def tgtOf (b : List Byte) : CrwTgt :=
  { valid := entValid b, vers := bits (entFlags b) 6 4 * 2, hsrc := (entFlags b).testBit 3,
    legacy := (entFlags b).testBit 2, kind := bits (entDest b) 2 0, dest := bits (entDest b) 18 3,
    node := leNat (slice b 16 8), health := 4 }

/-- An entry keeps to R202. -/
def State.entOk (s : State) (b : List Byte) : Bool :=
  let t := tgtOf b
  !(t.valid) ||
    (bits (entFlags b) 15 7 == 0 && !((entFlags b).testBit 1) && bits (entDest b) 31 19 == 0 &&
      (b.drop 24).all (· == 0) && (t.kind == 1 || t.kind == 3) && !(t.kind == 1 && decide (511 < t.dest)) &&
      !(!t.hsrc && t.kind != 1) && !(t.hsrc && t.vers == 0) &&
      (upto 4).all fun i => decide (i < s.crwLevels) || entDomain b (i + 1) == 0)

/-- The entry as the builder ranks it. -/
def State.rankOf (s : State) (id : Nat) (b : List Byte) : RankEnt :=
  ⟨id, if entValid b then entWeight b else 0, (upto s.crwLevels).map fun i => entDomain b (i + 1)⟩

def State.tgt (s : State) (id : Nat) : CrwTgt := tget CrwTgt.none s.crw.roster id
def State.crwPeer (s : State) (n : Nat) : Peer := tget Peer.init s.crw.peers n

/-- The live state of a target: 0 IN_SERVICE, 1 DEGRADED, 2 DRAINING, 3 DOWN (R204). -/
def State.live (s : State) (id : Nat) : Nat :=
  let t := s.tgt id
  let p := s.crwPeer t.dest
  if !t.valid then 3
  else if t.hsrc then min 3 t.health
  else if !p.up ∨ !p.isTarget ∨ p.target ≠ id ∨ (t.node ≠ 0 ∧ t.node ≠ p.node) then 3
  else min 3 p.health

def State.readOk (s : State) (id : Nat) : Bool := decide (s.live id < 3)
def State.writeOk (s : State) (id : Nat) : Bool := decide (s.live id < 2)

/-- The read load of a target (R219). -/
def State.readLoad (s : State) (id : Nat) : Nat :=
  let t := s.tgt id
  let base := if t.kind = 1 then min 65535 (tget 0 s.crw.loads (8 * t.dest + s.rf crwReadCfg 18 16))
    else tget 0 s.crw.setLoads id
  base + (if s.live id = 1 ∨ s.live id = 2 then s.rf crwReadPen 15 0 else 0)

/-! ## Versions (R224, R225) -/

/-- The first member's port of a LAG or ECMP group; none where its COUNT is 0. -/
def State.firstPort (s : State) (g : Nat) : Option Nat :=
  match tfind s.stw.groups g with
  | some x => if x.count = 0 then none else some (tget ⟨false, 0, 0⟩ s.stw.members x.base).port
  | none => none

/-- The versions that the receiver behind port n speaks, as a mask, and COMMON under R60, both as posted to
Crowsnest. -/
def State.portVers (s : State) (n : Nat) : Nat × Nat :=
  let p := s.crwPeer n
  let a := s.rf (pchHelloCfg n) 22 20
  if p.up then (p.vers, topVersion (Nat.land p.vers (s.rf pchHelloGlobal 15 0))) else (2 ^ a, a)

/-- The out version for a receiver that speaks the versions of a mask, `top` the highest (R224). -/
def outVersion (inVer mask top : Nat) : Nat := if mask.testBit inVer then inVer else top

/-- Why a copy cannot be translated; 0 where it can (R225). -/
def untranslatable (inVer out keyLen frag : Nat) (trailer legacy : Bool) : Nat :=
  if out = inVer then 0
  else if out = 0 then 0x22
  else if inVer < out then (if (if out = 2 then 164 else 152) < keyLen then 0x23 else 0)
  else if out = 1 ∧ frag ≠ 0xFF then 0x20
  else if inVer = 3 ∧ trailer ∧ !legacy then 0x21
  else 0

/-- A copy leaves with a check trailer (R260): `qual` says that the check units act on the frame. -/
def leavesWithTrailer (qual chkEn append received : Bool) : Bool :=
  if qual && chkEn then append else received

/-- The check units act on a frame with this shim (R259). -/
def shimQualifies (b : List Byte) : Bool := shimOp b == 2 || shimOp b == 4

/-- The out version of a placed copy to target id, and why it cannot be made; 0 where it can. -/
def State.placedVersion (s : State) (id : Nat) (b : List Byte) (chkEn : Bool) : Nat × Nat :=
  let t := s.tgt id
  let inVer := shimVersion b
  let port := if t.kind = 1 then some t.dest else s.firstPort t.dest
  match port with
  | none => (inVer, 0)
  | some n =>
    if !(s.rb (crwPortXlate n) 0) then (inVer, 0) else
    let sp := if t.hsrc then (t.vers, topVersion t.vers) else s.portVers n
    let out := outVersion inVer sp.1 sp.2
    let received := inVer == 3 && (shimFlags b).testBit 2
    let tr := leavesWithTrailer (shimQualifies b) chkEn (s.rb (chkPortCfg n) 0) received
    (out, untranslatable inVer out (shimKeyLen b) (shimFrag b) tr t.legacy)

/-! ## Records (R208 to R210) -/

def rCurLen (b : List Byte) : Nat := bits (leNat (slice b 100 4)) 6 2
def rPendLen (b : List Byte) : Nat := bits (leNat (slice b 100 4)) 11 7
def rState (b : List Byte) : Nat := leNat (slice b 100 4) % 4
def rEpoch (b : List Byte) : Nat := leNat (slice b 96 4)
def rMig (b : List Byte) : Nat := leNat (slice b 104 4)
def rEntry (b : List Byte) (base i : Nat) : Nat := leNat (slice b (base + 2 * i) 2)
def rCur (b : List Byte) : List Nat := (upto (min 24 (rCurLen b))).map (rEntry b 0)
def rPend (b : List Byte) : List Nat := (upto (min 24 (rPendLen b))).map (rEntry b 48)

/-- The 48 bytes of a list. -/
def listBytes (l : List Nat) : List Byte := (upto 24).flatMap fun i => natLe 2 (l.getD i 0xFFFF)

/-- Bytes 0 to 107 of a record. -/
def recBody (cur pend : List Nat) (epoch st mig : Nat) : List Byte :=
  listBytes cur ++ listBytes pend ++ natLe 4 epoch ++
    natLe 4 (pend.length * 2 ^ 7 + cur.length * 2 ^ 2 + st) ++ natLe 4 mig

/-- A record with GROUP and CHECK computed. -/
def recSeal (g : Nat) (body : List Byte) : List Byte :=
  let b := slice body 0 108 ++ natLe 4 g ++ List.replicate 12 0
  b ++ natLe 4 (crc32c b)

/-- GROUP and CHECK of a record hold. -/
def recOk (g : Nat) (b : List Byte) : Bool :=
  bits (leNat (slice b 108 4)) 21 0 == g && leNat (slice b 124 4) == crc32c (b.take 124)

def State.recAddr (s : State) (g : Nat) : Nat := s.rd64 crwPgtBaseLo + 128 * g

/-- A record is read from Cellar; a bad one is latched and reported (R209). -/
def State.recFromCellar (s : State) (g : Nat) : State × Option (List Byte) :=
  let r := s.celRead 0x11 (s.recAddr g) 128
  let bad := (((r.1.wrN crwErrLoc g).setB crwErr 2).report 0x1A 0 (BitVec.ofNat 32 g)).count evCrwRecordBad 0 0
  match r.2 with
  | some b => if recOk g b then (r.1, some b) else (bad, none)
  | none => (bad, none)

/-- The way of the cache that holds group g. -/
def State.cached (s : State) (g : Nat) : Option (List Byte) :=
  ((tget [] s.crw.cache (g % 8192)).find? fun p => p.1 == g).map (·.2)

def State.setCache (s : State) (i : Nat) (l : List (Nat × List Byte)) : State :=
  { s with crw := { s.crw with cache := tput s.crw.cache i l } }

/-- The way of group g goes. -/
def State.cacheDrop (s : State) (g : Nat) : State :=
  (s.eccClear .crwCache g).setCache (g % 8192) ((tget [] s.crw.cache (g % 8192)).filter fun p => p.1 != g)

/-- A record fills the cache, in place of the least recently used way (R210) (DESIGN CHOICE, unsafe: log entry 61). -/
def State.cacheFill (s : State) (g : Nat) (b : List Byte) : State :=
  let l := (tget [] s.crw.cache (g % 8192)).filter fun p => p.1 != g
  let s1 := match l[7]? with
    | some p => s.eccClear .crwCache p.1
    | none => s
  (s1.eccClear .crwCache g).setCache (g % 8192) (((g, b) :: l).take 8)

/-- A cached record is read: corrected, or dropped (R210). -/
def State.cacheCheck (s : State) (g : Nat) : State :=
  match s.eccOf .crwCache g with
  | .ok => s
  | .corr => (((s.eccClear .crwCache g).setB crwErr 0).report 0x18 0 (BitVec.ofNat 32 g)).count evCrwEccCorr 0 0
  | .uncorr => (((s.cacheDrop g).setB crwErr 1).report 0x19 0 (BitVec.ofNat 32 g)).count evCrwEccUncorr 0 0

/-- A record is read by a command or a job: from the cache where it is, else from Cellar. -/
def State.recRead (s : State) (g : Nat) : State × Option (List Byte) :=
  let s1 := if (s.cached g).isSome then s.cacheCheck g else s
  match s1.cached g with
  | some b => (s1, some b)
  | none => s1.recFromCellar g

/-- A record is written: to Cellar, and to the cache where the group is cached (R210). -/
def State.recWrite (s : State) (g : Nat) (body : List Byte) : State :=
  let b := recSeal g body
  let s1 := s.celWrite 0x11 (s.recAddr g) b
  if (s.cached g).isSome then
    ((s1.eccClear .crwCache g).setCache (g % 8192) ((tget [] s.crw.cache (g % 8192)).map fun p =>
      if p.1 = g then (g, b) else p)).inject 0x0A 0x200 0x2C0 .crwCache g
  else s1

/-! ## Placement sets (R222) -/

/-- A placement set with these members: one that holds them, or one taken; `none` where no set is free. -/
def State.setAlloc (s : State) (ms : List Member) : State × Option Nat :=
  let touch (t : State) (k : Nat) : State :=
    { t with crw := { t.crw with setLru := (t.crw.setLru.filter (· != k)) ++ [k] } }
  let take (k : Nat) : State × Option Nat :=
    let t := { s with crw := { s.crw with sets := tput s.crw.sets k ⟨ms, 0⟩ } }
    ((touch t k).count evCrwSetAlloc 0 0, some k)
  match s.crw.sets.find? fun p => p.2.members == ms with
  | some (k, _) => (touch s k, some k)
  | none =>
    let n := s.crw.setLru.length
    if n < 16384 then take n
    else match s.crw.setLru.find? fun k => (tget ⟨[], 0⟩ s.crw.sets k).refs == 0 with
      | some k => take k
      | none => (s, none)

end Sys2Proof.Machine
end

