-- ==== Sys2Proof/Machine/Hallway.lean ====
section
/-! DEFINITION. The commands of Hallway's tables (R100, R101, R133 to R136, window 0x07). -/

namespace Sys2Proof.Machine

/-! ## Results over slices (R134) -/

/-- RESULT and FAIL_MASK from the slices' codes, lowest slice first: `repl` and `nf` are the codes of
REPLACED and NOT_FOUND, which with 0 are no refusals (DEDUCED, unsafe: log entry 29). -/
def sliceResult (repl nf : Nat) (l : List (Nat × Nat)) : Nat × Nat :=
  let bad := l.filter fun p => p.2 != 0 && p.2 != repl && p.2 != nf
  let res := match bad with
    | p :: _ => p.2
    | [] => if l.any fun p => p.2 == nf then nf else if l.any fun p => p.2 == repl then repl else 0
  (res, (bad.map fun p => 2 ^ p.1).sum)

/-! ## The operations on one slice (R133) -/

/-- A GALLERY table's rows go and its banks are free (R142). -/
def State.galClear (s : State) (sl : Nat) (d : BitVec 256) : State :=
  let lo := 2 ^ 17 * sl + 2048 * (gRegion d).1
  { s with gal := { s.gal with ents := tclear s.gal.ents lo (2 ^ 17 * sl + 2048 * (gRegion d).2) } }

/-- Address a of slice sl lies in a defined EXACT table. -/
def State.inExact (s : State) (sl a : Nat) : Bool :=
  let ids := (tkeys s.hlw.defs ++ tkeys s.hlw.newDefs).filter fun k => k / 192 == sl && s.stageKind sl (k % 192 / 8) == 1
  ids.any fun k => [s.defOf sl (k % 192) false, s.defOf sl (k % 192) true].any fun d =>
    dValid d && dForm d == 2 && decide (dBase d ≤ a ∧ a < dBase d + 8 * 2 ^ dSize d)

/-- OP 1: an action word. -/
def State.hlwAction (s : State) (sl a : Nat) (staged : Bool) (v : BitVec 128) : State × Nat :=
  let k := 2 ^ 18 * sl + a
  if !(actionOk v) then (s, 1)
  else if s.inExact sl a ∨ !((upto 24).any fun st => s.inStage sl st a 1) then (s, 9)
  else if staged then
    let r := s.stageRefuse 1 7 8
    if r ≠ 0 then (s, r) else ((s.stageAdd 1).sramPut k v true, 0)
  else if s.sramConflict k then (s, 6)
  else (s.sramPut k v false, 0)

/-- OP 3: a definition. -/
def State.hlwDefine (s : State) (sl t : Nat) (staged : Bool) (d : BitVec 256) : State × Nat :=
  let k := 192 * sl + t
  if 192 ≤ t then (s, 9)
  else if !(s.defOk sl t d) then (s, 2)
  else
    let old := s.defOf sl t (s.cmdSeesNew staged)
    let galGone := s.stageKind sl (t / 8) == 2 && dValid old &&
      !(dValid d && dForm d == dForm old && df d 191 128 == df old 191 128)
    if staged then
      let r := s.stageRefuse 1 7 8
      if r ≠ 0 then (s, r)
      else if galGone && dValid d then (s, 2)
      else
        let s1 := s.stageAdd 1
        ({ s1 with
          hlw := { s1.hlw with newDefs := tput s1.hlw.newDefs k d }
          gal := { s1.gal with clearing := if galGone then sadd s1.gal.clearing k else s1.gal.clearing } }, 0)
    else if (tfind s.hlw.newDefs k).isSome then (s, 6)
    else
      let s1 := if galGone then s.galClear sl old else s
      ({ s1 with hlw := { s1.hlw with defs := tset 0 s1.hlw.defs k d } }, 0)

/-- OPs 5 to 7 on an EXACT table: the key is a 96-bit number, the answer of a search its action. -/
def State.hlwExact (s : State) (op sl t : Nat) (staged : Bool) (key : Nat) (v : BitVec 128) :
    State × Nat × Option (BitVec 128) :=
  let new := s.cmdSeesNew staged
  let d := s.defOf sl t new
  let kb := natBe 12 key
  if 192 ≤ t ∨ !(dValid d) ∨ s.stageKind sl (t / 8) ≠ 1 ∨ dForm d ≠ 2 then (s, 9, none)
  else if op = 5 ∧ !(actionOk v) then (s, 1, none)
  else
    match s.slotWords new (exactSlots sl d kb) with
    | (s1, none) => (s1, 0x0A, none)
    | (s1, some l) =>
      let found := slotOf kb l
      if op = 7 then
        match found with
        | none => (s1, 4, none)
        | some k =>
          let q := s1.sramRead k new
          (match q.2 with
           | some a => (q.1, 0, some a)
           | none => (q.1, 0x0A, none))
      else
        let target := if op = 5 then found.or ((l.find? fun p => !(slotValid p.2)).map (·.1)) else found
        match target with
        | none => (s1, if op = 5 then 3 else 4, none)
        | some k =>
          let r := if staged then s1.stageRefuse 1 7 8
            else if s1.sramConflict k ∨ s1.sramConflict (k + 1) then 6 else 0
          if r ≠ 0 then (s1, r, none) else
          let s2 := if staged then s1.stageAdd 1 else s1
          if op = 6 then (s2.sramPut (k + 1) 0 staged, 0, none)
          else
            let s3 := s2.sramPut k v staged
            if found.isSome then (s3, 5, none)
            else (s3.sramPut (k + 1) (BitVec.ofNat 128 (key * 2 ^ 32 + 1)) staged, 0, none)

/-- OP 2: a word read. -/
def State.hlwReadWord (s : State) (sl a : Nat) (staged : Bool) : State × Nat × Option (BitVec 128) :=
  let q := s.sramRead (2 ^ 18 * sl + a) (s.cmdSeesNew staged)
  match q.2 with
  | some v => (q.1, 0, some v)
  | none => (q.1, 0x0A, none)

/-- A Hallway command on the slices of a mask: its result, its FAIL_MASK, and what it returns. -/
def State.hlwRun (s0 : State) (op a : Nat) (staged : Bool) (mask : Nat) (data : Nat) :
    State × Nat × Nat × Option Nat :=
  let sls := maskSlices mask
  let s := s0.each sls State.wakeSlice
  let act : BitVec 128 := BitVec.ofNat 128 data
  let key := bits data 223 128
  let t := a % 256
  let r : State × Nat × Nat × Option Nat :=
    if op = 2 ∨ op = 4 ∨ op = 7 then
      let sl := sls.headD 0
      if staged ∧ s.genState ≠ 1 then (s, 8, 2 ^ sl, none)
      else if op = 4 then
        if 192 ≤ t then (s, 9, 2 ^ sl, none) else (s, 0, 0, some (s.defOf sl t (s.cmdSeesNew staged)).toNat)
      else
        let q := if op = 2 then s.hlwReadWord sl a staged else s.hlwExact 7 sl t staged key act
        let bad := q.2.1 != 0 && q.2.1 != 4
        (q.1, q.2.1, if bad then 2 ^ sl else 0, q.2.2.map (·.toNat))
    else
      let q := sls.foldl (fun (acc : State × List (Nat × Nat)) sl =>
        let one : State × Nat :=
          if op = 1 then acc.1.hlwAction sl a staged act
          else if op = 3 then acc.1.hlwDefine sl t staged (BitVec.ofNat 256 data)
          else
            let e := acc.1.hlwExact op sl t staged key act
            (e.1, e.2.1)
        (one.1, acc.2 ++ [(sl, one.2)])) (s, [])
      let res := sliceResult 5 4 q.2
      (q.1, res.1, res.2, none)
  if r.2.2.1 ≠ 0 then (r.1.count evHlwCmdRefused 0 0, r.2.1, r.2.2.1, r.2.2.2) else r

/-- A write of HLW_CMD (DESIGN CHOICE, unsafe: log entry 13). -/
def State.hlwCmdWrite (s : State) (v : Word) : State :=
  let op := fld v 29 26
  if s.rb hlwCmd 31 then s.setB hlwCmdStatus 16
  else if 8 ≤ op then s.setB hlwCmdStatus 17
  else
    let s1 := s.plainWrite hlwCmd v
    let mask := s1.rf hlwCmdSlices 15 0
    if op = 0 ∨ mask = 0 then s1 else
    let r := s1.hlwRun op (fld v 17 0) (v.getLsbD 30) mask (s1.rdWide (hlwData 0) 8)
    let s2 := (r.1.wf hlwCmdStatus 31 24 r.2.1).wf hlwCmdStatus 15 0 r.2.2.1
    match r.2.2.2 with
    | some d => s2.wrWide (hlwData 0) (if op = 4 then 8 else 4) d
    | none => s2

/-- The value of HLW_CMD with its operation replaced by `op`. -/
def hlwWord (op : Nat) (v : Word) : Word := setFld v 29 26 op

/-- ACTION_WRITE (R133). -/
def execActionWrite (v : Word) (s : State) : Host.Outcome State Fault Refusal := .next (s.hlwCmdWrite (hlwWord 1 v))
/-- ACTION_READ (R133). -/
def execActionRead (v : Word) (s : State) : Host.Outcome State Fault Refusal := .next (s.hlwCmdWrite (hlwWord 2 v))
/-- DEFINITION_WRITE (R105, R133). -/
def execDefinitionWrite (v : Word) (s : State) : Host.Outcome State Fault Refusal :=
  .next (s.hlwCmdWrite (hlwWord 3 v))
/-- DEFINITION_READ (R133). -/
def execDefinitionRead (v : Word) (s : State) : Host.Outcome State Fault Refusal :=
  .next (s.hlwCmdWrite (hlwWord 4 v))
/-- EXACT_INSERT (R107, R133). -/
def execExactInsert (v : Word) (s : State) : Host.Outcome State Fault Refusal := .next (s.hlwCmdWrite (hlwWord 5 v))
/-- EXACT_DELETE (R107, R133). -/
def execExactDelete (v : Word) (s : State) : Host.Outcome State Fault Refusal := .next (s.hlwCmdWrite (hlwWord 6 v))
/-- EXACT_SEARCH (R107, R133). -/
def execExactSearch (v : Word) (s : State) : Host.Outcome State Fault Refusal := .next (s.hlwCmdWrite (hlwWord 7 v))

/-! ## Stage configuration (R100) -/

/-- The stages of a slice of kind k, stage st counted as kind `mine`. -/
def State.kindCount (s : State) (sl st mine k : Nat) : Nat :=
  ((upto 24).filter fun i => (if i = st then mine else s.stageKind sl i) == k).length

/-- A write of HLW_STAGE_CFG. -/
def State.stageCfgWrite (s : State) (sl st : Nat) (v : Word) : State :=
  let a := hlwStageCfg sl st
  let kind := fld v 2 0
  let base := fld v 15 8
  let cnt := fld v 24 16
  let clash := (upto 24).any fun i =>
    i != st &&
      (let b := s.rf (hlwStageCfg sl i) 15 8
       let c := s.rf (hlwStageCfg sl i) 24 16
       decide (cnt ≠ 0 ∧ c ≠ 0 ∧ base < b + c ∧ b < base + cnt))
  if s.rb (hlwSliceCtl sl) 0 ∨ 5 ≤ kind ∨ 256 < base + cnt ∨ clash ∨ 2 < s.kindCount sl st kind 3
      ∨ 1 < s.kindCount sl st kind 4 ∨ ((kind = 1 ∨ kind = 2 ∨ kind = 4) ∧ cnt = 0) then
    s.setB (hlwSliceErr sl) 2
  else if kind = s.rf a 2 0 ∧ base = s.rf a 15 8 ∧ cnt = s.rf a 24 16 then s
  else
    let s1 := s.each (upto 8) fun t slot =>
      let k := 192 * sl + 8 * st + slot
      let d := t.defOf sl (8 * st + slot) false
      let t1 := if t.stageKind sl st = 2 ∧ dValid d then t.galClear sl d else t
      let inv (x : BitVec 256) : BitVec 256 := x &&& ~~~(BitVec.ofNat 256 (2 ^ 192))
      { t1 with hlw := { t1.hlw with
          defs := tset 0 t1.hlw.defs k (inv (tget 0 t1.hlw.defs k))
          newDefs := match tfind t1.hlw.newDefs k with
            | some x => tput t1.hlw.newDefs k (inv x)
            | none => t1.hlw.newDefs } }
    s1.plainWrite a v

/-- STAGE_CFG_WRITE (R100). -/
def execStageCfgWrite (sl st : Nat) (v : Word) (s : State) : Host.Outcome State Fault Refusal :=
  .next (s.stageCfgWrite sl st v)

/-! ## Port defaults (R136) -/

/-- A write of HLW_PORT_DFLT[n][c], word w: words 0 to 2 are held, word 3 applies them (DESIGN CHOICE, unsafe: log entry 24). -/
def State.portDfltWrite (s : State) (n c w : Nat) (v : Word) : State :=
  let a (i : Nat) : Nat := hlwPortDflt (4 * n + c) i
  if w < 3 then { s with held := tput s.held (a w) v } else
  let word (i : Nat) : Nat := (tget (s.rd (a i)) s.held (a i)).toNat
  let act := word 0 + word 1 * 2 ^ 32 + word 2 * 2 ^ 64 + v.toNat * 2 ^ 96
  let s1 := { s with held := tdel (tdel (tdel s.held (a 0)) (a 1)) (a 2) }
  if defaultOk (BitVec.ofNat 128 act) then s1.wrWide (a 0) 4 act else s1.wf hlwCmdStatus 31 24 1

/-- PORT_DEFAULT_WRITE (R136): word 3 of default c of port n. -/
def execPortDefaultWrite (n c : Nat) (v : Word) (s : State) : Host.Outcome State Fault Refusal :=
  .next (s.portDfltWrite n c 3 v)

/-- STAGE_SRAM_SCRUB (R101): `e` is what the check of the word finds. -/
def execStageSramScrub (sl a : Nat) (e : Ecc) (s : State) : Host.Outcome State Fault Refusal :=
  .next ((s.eccFlag .hlw (2 ^ 18 * sl + a) e).sramRead (2 ^ 18 * sl + a) false).1

end Sys2Proof.Machine
end

