-- ==== Sys2Proof/Machine/Gallery.lean ====
section
/-! DEFINITION. The commands, the bulk-load job and the scrubber of Gallery (chapter 5, window 0x08). -/

namespace Sys2Proof.Machine

/-! ## Slots and moves (R147 to R149) -/

/-- The copies of an entry with value v and mask m of table t in a slice that `keep` holds for: places. -/
def State.galCopies (s : State) (sl t v m : Nat) (keep : GalEnt → Bool) : List Nat :=
  (s.gal.ents.filter fun e => e.1 / 2 ^ 17 == sl && e.2.table == t && e.2.value == v && e.2.mask == m && keep e.2).map (·.1)

def State.setGal (s : State) (k : Nat) (e : GalEnt) : State :=
  { s with gal := { s.gal with ents := tput s.gal.ents k e } }
def State.delGal (s : State) (k : Nat) : State := { s with gal := { s.gal with ents := tdel s.gal.ents k } }

/-- The moves that bring a free slot to an insertion point, the far band's first: `l` holds the slots
between, nearest to the free slot first, with their ranks. The answer is (from, to) pairs and the slot
that is freed last. -/
def bandMoves : Nat → List (Nat × Nat) → List (Nat × Nat) × Nat
  | free, [] => ([], free)
  | free, (i, q) :: t =>
    match t with
    | [] => ([(i, free)], i)
    | (_, q2) :: _ =>
      if q = q2 then bandMoves free t
      else
        let r := bandMoves i t
        ((i, free) :: r.1, r.2)

/-- The slot for an entry of rank q in a partition of n slots, and the moves that free it; `none` where
no slot is free (R148, R150). -/
def galPlan (n q : Nat) (l : List (Nat × Nat)) : Option (List (Nat × Nat) × Nat) :=
  let hi := (l.filter fun e => decide (q ≤ e.2)).map (·.1 + 1)
  let start := hi.foldl max 0
  let stop := ((l.filter fun e => decide (e.2 < q)).map (·.1)).foldl min n
  if start < stop then some ([], start)
  else
    let used := l.map (·.1)
    let free := (upto n).filter fun i => !(used.any (· == i))
    let up := (free.filter fun i => decide (start ≤ i)).head?
    let down := (free.filter fun i => decide (i < start)).getLast?
    let goDown : Bool := match down, up with
      | some a, some b => decide (start - a ≤ b - (start - 1))
      | some _, none => true
      | none, _ => false
    if goDown then
      match down with
      | some a => some (bandMoves a (l.filter fun e => decide (a < e.1 ∧ e.1 < start)))
      | none => none
    else
      match up with
      | some b => some (bandMoves b (l.filter fun e => decide (start ≤ e.1 ∧ e.1 < b)).reverse)
      | none => none

/-- The partitions in which an entry belongs (R146). -/
def galParts (d : BitVec 256) (v m : Nat) : List Nat :=
  let vs := galSelect d v
  let ms := galSelect d m
  (upto (2 ^ gPartLog2 d)).filter fun p => Nat.land (Nat.xor p vs) ms == 0

/-- An entry goes into partition p: the moves, then its write. -/
def State.galPut (s : State) (sl : Nat) (d : BitVec 256) (p : Nat) (e : GalEnt) : State :=
  match galPlan (galSlots d) e.rank ((s.galPart sl d p).map fun x => (x.1, x.2.rank)) with
  | none => s
  | some (moves, i) =>
    let s1 := s.each moves fun t mv =>
      let a := galPlace sl d p mv.1
      let b := galPlace sl d p mv.2
      match tfind t.gal.ents a with
      | some x =>
        let e := t.eccOf .galShadow a
        (((t.setGal b x).delGal a).eccClear .galShadow a |>.eccFlag .galShadow b e).count evGalMoves sl 0
      | none => t
    s1.setGal (galPlace sl d p i) e

/-! ## Commands on one slice (R144 to R152) -/

/-- Two entries match a common key (R144). -/
def galOverlap (v1 m1 v2 m2 : Nat) : Bool := Nat.land v1 m2 == Nat.land v2 m1

/-- Some copy's shadow cannot be read. -/
def State.shadowBad (s : State) (l : List Nat) : Bool := l.any fun k => s.eccOf .galShadow k == .uncorr

/-- OP 1: an insert in slice sl; the answer is its result. -/
def State.galInsert (s : State) (sl t v m res : Nat) (staged : Bool) : State × Nat :=
  let d := s.defOf sl t (s.cmdSeesNew staged)
  let top := 2 ^ (80 * gW d)
  let np := s.newPar
  let inNew (e : GalEnt) : Bool := if np = 0 then e.vis0 else e.vis1
  let common (e : GalEnt) : Bool := if staged then inNew e else e.vis0 || e.vis1
  let parts := galParts d v m
  if 192 ≤ t ∨ !(dValid d) ∨ s.stageKind sl (t / 8) ≠ 2 then (s, 6)
  else if top ≤ v ∨ top ≤ m ∨ Nat.land v m ≠ v then (s, 7)
  else if !(s.inStage sl (t / 8) (dBase d + res) 1) then (s, 5)
  else if staged ∧ s.genState ≠ 1 then (s, 0x0A)
  else
    let same := s.galCopies sl t v m common
    let mk (st : Bool) : GalEnt :=
      { table := t, value := v, mask := m, result := res, hidden := false, staged := st,
        vis0 := if st then np == 0 else true, vis1 := if st then np == 1 else true }
    let clash := s.gal.ents.any fun e => e.1 / 2 ^ 17 == sl && e.2.table == t && common e.2 &&
      e.2.rank == popCount m && !(e.2.value == v && e.2.mask == m) && galOverlap v m e.2.value e.2.mask
    let busy := s.galCopies sl t v m fun e => e.staged
    let fits (u : State) : Bool := parts.all fun p =>
      (galPlan (galSlots d) (popCount m) ((u.galPart sl d p).map fun x => (x.1, x.2.rank))).isSome
    if !staged ∧ !busy.isEmpty then (s, 8)
    else if clash then (s, 4)
    else if s.shadowBad same then (s, 0x0C)
    else if !staged ∧ !same.isEmpty then
      (s.each same fun u k => match tfind u.gal.ents k with
        | some e => u.setGal k { e with result := res, vis0 := true, vis1 := true }
        | none => u, 1)
    else
      let r := if staged then s.stageRefuse parts.length 9 0x0A else 0
      if r ≠ 0 then (s, r)
      else if !(fits s) then (s, 3)
      else
        let s1 := s.each (if staged then same else []) fun u k => match tfind u.gal.ents k with
          | some e => u.setGal k { e with staged := true, vis0 := e.vis0 && np != 0, vis1 := e.vis1 && np != 1 }
          | none => u
        let s2 := if staged then s1.stageAdd parts.length else s1
        (s2.each parts fun u p => u.galPut sl d p (mk staged), if same.isEmpty then 0 else 1)

/-- OP 2: a delete in slice sl. -/
def State.galDelete (s : State) (sl t v m : Nat) (staged : Bool) : State × Nat :=
  let d := s.defOf sl t (s.cmdSeesNew staged)
  let top := 2 ^ (80 * gW d)
  let np := s.newPar
  if 192 ≤ t ∨ !(dValid d) ∨ s.stageKind sl (t / 8) ≠ 2 then (s, 6)
  else if top ≤ v ∨ top ≤ m ∨ Nat.land v m ≠ v then (s, 7)
  else if staged ∧ s.genState ≠ 1 then (s, 0x0A)
  else
    let same := s.galCopies sl t v m fun e => if staged then (if np = 0 then e.vis0 else e.vis1) else e.vis0 || e.vis1
    if same.isEmpty then (s, 2)
    else if !staged ∧ !(s.galCopies sl t v m fun e => e.staged).isEmpty then (s, 8)
    else if s.shadowBad same then (s, 0x0C)
    else if staged then
      let r := s.stageRefuse same.length 9 0x0A
      if r ≠ 0 then (s, r)
      else ((s.stageAdd same.length).each same fun u k => match tfind u.gal.ents k with
        | some e => u.setGal k { e with staged := true, vis0 := e.vis0 && np != 0, vis1 := e.vis1 && np != 1 }
        | none => u, 0)
    else (s.each same State.delGal, 0)

/-- What operations 3 and 4 return: the entry with its first bank and row. -/
def State.galLook (s : State) (op sl t v m : Nat) (staged : Bool) : Nat × Option (Nat × GalEnt) :=
  let new := s.cmdSeesNew staged
  let d := s.defOf sl t new
  let g := if staged then s.newPar else s.genPar
  if 192 ≤ t ∨ !(dValid d) ∨ s.stageKind sl (t / 8) ≠ 2 then (6, none)
  else if staged ∧ s.genState ≠ 1 then (0x0A, none)
  else if op = 3 then
    match s.galCopies sl t v m fun e => e.sees g with
    | [] => (2, none)
    | k :: _ => (0, (tfind s.gal.ents k).map fun e => (k, e))
  else
    match s.galSearch sl d t (v % 2 ^ (80 * gW d)) g with
    | none => (2, none)
    | some (p, i, e) => (0, some (galPlace sl d p i, e))

/-- A Gallery command on the slices of a mask: its result, its FAIL_MASK, and the entry returned. -/
def State.galRun (s0 : State) (op t : Nat) (staged : Bool) (mask v m res : Nat) :
    State × Nat × Nat × Option (Nat × GalEnt) :=
  let sls := maskSlices mask
  let s := s0.each sls State.wakeSlice
  if op = 3 ∨ op = 4 then
    let sl := sls.headD 0
    let q := s.galLook op sl t v m staged
    let bad := q.1 != 0 && q.1 != 2
    (s.count (if bad then evGalCmdRefused else evGalCmdDone) sl 0, q.1, if bad then 2 ^ sl else 0, q.2)
  else
    let q := sls.foldl (fun (acc : State × List (Nat × Nat)) sl =>
      let r := if op = 1 then acc.1.galInsert sl t v m res staged else acc.1.galDelete sl t v m staged
      let bad := r.2 != 0 && r.2 != 1 && r.2 != 2
      (r.1.count (if bad then evGalCmdRefused else evGalCmdDone) sl 0, acc.2 ++ [(sl, r.2)])) (s, [])
    let res := sliceResult 1 2 q.2
    (q.1, res.1, res.2, none)

/-- A write of GAL_CMD. -/
def State.galCmdWrite (s : State) (v : Word) : State :=
  let op := fld v 29 27
  if s.rb galCmd 31 then s.setB galCmdStatus 16
  else if 5 ≤ op then s.setB galCmdStatus 17
  else
    let s1 := s.plainWrite galCmd v
    let mask := s1.rf galCmdSlices 15 0
    if op = 0 ∨ mask = 0 then s1 else
    let r := s1.galRun op (fld v 7 0) (v.getLsbD 30) mask (s1.rdWide (galKey 0) 20) (s1.rdWide (galMask 0) 20)
      (s1.rf galResult 17 0)
    let s2 := (r.1.wf galCmdStatus 31 24 r.2.1).wf galCmdStatus 15 0 r.2.2.1
    if op < 3 then s2 else
    match r.2.2.2 with
    | some (k, e) =>
      (s2.wrN galResult (2 ^ 31 + e.result)).wrN galSlot (e.rank * 2 ^ 22 + k / 2048 % 64 * 2 ^ 16 + k % 2048)
    | none => s2.putB galResult 31 false

def galWord (op : Nat) (v : Word) : Word := setFld v 29 27 op

/-- GAL_INSERT (R148). -/
def execGalInsert (v : Word) (s : State) : Host.Outcome State Fault Refusal := .next (s.galCmdWrite (galWord 1 v))
/-- GAL_DELETE (R149). -/
def execGalDelete (v : Word) (s : State) : Host.Outcome State Fault Refusal := .next (s.galCmdWrite (galWord 2 v))
/-- GAL_FIND (R154). -/
def execGalFind (v : Word) (s : State) : Host.Outcome State Fault Refusal := .next (s.galCmdWrite (galWord 3 v))
/-- GAL_PROBE (R154). -/
def execGalProbe (v : Word) (s : State) : Host.Outcome State Fault Refusal := .next (s.galCmdWrite (galWord 4 v))

/-! ## The bulk-load job (R156 to R158) -/

/-- A 16-byte status word is written by a unit, as one write (R158, R422). -/
def State.jobStatus (s : State) (req addr w0 w1 w2 w3 : Nat) : State :=
  s.celWrite req addr (natLe 4 w0 ++ natLe 4 w1 ++ natLe 4 w2 ++ natLe 4 w3)

def State.galStatus (s : State) (j : GalJob) (st : Nat) : State :=
  s.jobStatus 0x12 j.stAddr (st * 2 ^ 28 + j.last * 2 ^ 16 + j.tag) j.done j.failed j.first

/-- The job ends in STATE st. -/
def State.galJobEnd (s : State) (j : GalJob) (st : Nat) : State :=
  let s1 := (s.galStatus j st).putB galJobCtl 31 false
  { s1 with gal := { s1.gal with job := none } }.pulse 1920

/-- A write of GAL_JOB_CTL: OP 1 starts a job or refuses it, OP 2 aborts it. -/
def State.galJobCtlWrite (s : State) (v : Word) : State :=
  let op := fld v 30 29
  let s1 := if op = 3 then s else s.plainWrite galJobCtl v
  let addr := s.rd64 galJobAddrLo
  let st := s.rd64 galJobStatusLo
  let n := s.rf galJobCount 20 0
  if op = 1 then
    if s.gal.job.isSome ∨ addr % 64 ≠ 0 ∨ !(s.inPart 1 addr (192 * n) || s.inPart 3 addr (192 * n)) ∨ st % 16 ≠ 0
        ∨ 1048576 < n then s1.setB galJobCtl 27
    else
      let j : GalJob := ⟨addr, n, 0, 0, 0xFFFFFFFF, 0, fld v 15 0, v.getLsbD 28, st, false⟩
      let s2 := { s1.setB galJobCtl 31 with gal := { s1.gal with job := some j } }.galStatus j 0
      if n = 0 then s2.galJobEnd j 1 else s2
  else if op = 2 then
    match s.gal.job with
    | some j => { s1 with gal := { s1.gal with job := some { j with aborting := true } } }
    | none => s1
  else s1

/-- GAL_JOB_START (R157). -/
def execGalJobStart (v : Word) (s : State) : Host.Outcome State Fault Refusal :=
  .next (s.galJobCtlWrite (setFld v 30 29 1))

/-- The job aborts after its current record (R157, R513): between records, at once. -/
def State.galAbort (s : State) : State :=
  match s.gal.job with
  | some j => s.galJobEnd j 3
  | none => s

/-- GAL_JOB_ABORT (R157). -/
def execGalJobAbort (v : Word) (s : State) : Host.Outcome State Fault Refusal :=
  .next (s.galJobCtlWrite (setFld v 30 29 2)).galAbort

/-- One record of a bulk load; the answer is its result. A record that reads poisoned is malformed
(DEDUCED, unsafe: log entry 43). -/
def State.galRecord (s : State) (bs : Option (List Byte)) : State × Nat :=
  match bs with
  | none => (s, 0x0B)
  | some b =>
    let ctl := leNat (slice b 160 4)
    let res := leNat (slice b 164 4)
    let op := bits ctl 31 30
    if op = 3 ∨ bits ctl 28 24 ≠ 0 ∨ bits res 31 18 ≠ 0 ∨ (b.drop 168).any (· != 0) then (s, 0x0B)
    else if op = 0 ∨ bits ctl 15 0 = 0 then (s, 0)
    else
      let r := s.galRun op (bits ctl 23 16) (ctl.testBit 29) (bits ctl 15 0) (leNat (b.take 80))
        (leNat (slice b 80 80)) (bits res 17 0)
      (r.1, if r.2.2.1 = 0 then 0 else r.2.1)

/-- GAL_JOB_RECORD (R156). -/
def execGalJobRecord (s : State) : Host.Outcome State Fault Refusal :=
  match s.gal.job with
  | none => .next s
  | some j =>
    let q := s.celRead 0x12 (j.addr + 192 * j.done) 192
    let r := q.1.galRecord q.2
    let s1 := r.1.count evGalJobRecords 0 0
    let bad := r.2 != 0
    let j1 := { j with
      done := j.done + 1, failed := j.failed + nat bad, last := if bad then r.2 else j.last
      first := if bad ∧ j.first = 0xFFFFFFFF then j.done else j.first }
    let s2 := { s1 with gal := { s1.gal with job := some j1 } }
    if bad ∧ j.stop then .next (s2.galJobEnd j1 2)
    else if j1.count ≤ j1.done then .next (s2.galJobEnd j1 1)
    else if j1.done % 4096 = 0 then .next (s2.galStatus j1 0)
    else .next s2

/-! ## Scrub and repair (R159 to R161) -/

/-- The entry that holds a row: its place; entries of W banks hold rows of W banks. -/
def State.galHolder (s : State) (sl bank row : Nat) : Option (Nat × GalEnt) :=
  s.gal.ents.find? fun e =>
    let d := s.defOf sl e.2.table false
    let d2 := s.defOf sl e.2.table true
    let w := if dValid d then gW d else gW d2
    e.1 / 2 ^ 17 == sl && e.1 % 2048 == row && decide (e.1 / 2048 % 64 ≤ bank ∧ bank < e.1 / 2048 % 64 + w)

/-- GAL_SCRUB_VISIT (R159, R160): `bad` where the row's check code does not match. -/
def execGalScrubVisit (sl bank row : Nat) (bad : Bool) (s : State) : Host.Outcome State Fault Refusal :=
  if !bad ∨ !(s.rb galScrubCtl 0) then .next s else
  let a := galSliceErr sl
  let s1 := (((s.setB a 0).wf a 22 17 bank).wf a 16 6 row).report 0x14 sl (BitVec.ofNat 32 (bank * 2 ^ 11 + row))
  let s2 := s1.count evGalScrubMismatch sl 0
  match s2.galHolder sl bank row with
  | some (k, e) => .next (s2.setGal k { e with hidden := true })
  | none => .next s2

/-- GAL_REPAIR (R160): the row comes back from the shadow, `e` being what the shadow's read finds. -/
def execGalRepair (sl bank row : Nat) (e : Ecc) (s : State) : Host.Outcome State Fault Refusal :=
  match s.galHolder sl bank row with
  | none => .next s
  | some (k, x) =>
    if !x.hidden then .next s else
    let s0 := s.eccFlag .galShadow k e
    if s0.eccOf .galShadow k = .uncorr then
      .next (((s0.setB (galSliceErr sl) 2).report 0x15 sl (BitVec.ofNat 32 (bank * 2 ^ 11 + row))).count
        evGalShadowUncorr sl 0)
    else .next ((((s0.eccClear .galShadow k).setGal k { x with hidden := false }).setB (galSliceErr sl) 1).count
      evGalRepaired sl 0)

/-! ## Settling (R142, R151) -/

/-- A staged entry once the batch settles (`ok`) or is undone: its bit for one parity takes the value of
the other. -/
def GalEnt.settle (e : GalEnt) (keep : Nat) : GalEnt :=
  let v := if keep = 0 then e.vis0 else e.vis1
  { e with vis0 := v, vis1 := v, staged := false }

/-- Every staged entry follows parity `keep`; entries seen in no parity are freed. -/
def State.galSettle (s : State) (keep : Nat) : State :=
  let l := s.gal.ents.map fun (p : Nat × GalEnt) => (p.1, if p.2.staged then p.2.settle keep else p.2)
  { s with gal := { s.gal with ents := l.filter fun p => p.2.vis0 || p.2.vis1 } }

/-! ## Registers (R162) -/

/-- GAL_SLICE_USE: bank rows in use in a slice. -/
def State.galUse (s : State) (sl : Nat) : Nat :=
  ((s.gal.ents.filter fun e => e.1 / 2 ^ 17 == sl).map fun e =>
    let d := s.defOf sl e.2.table false
    if dValid d then gW d else gW (s.defOf sl e.2.table true)).sum

/-- A write of a Gallery register. -/
def State.galRegWrite (s : State) (a : Nat) (v : Word) : State :=
  if a = galCmd then s.galCmdWrite v
  else if a = galJobCtl then
    let s1 := s.galJobCtlWrite v
    if fld v 30 29 = 2 then s1.galAbort else s1
  else if s.rb galCmd 31 ∧ (a = galResult ∨ (galKey 0 ≤ a ∧ a ≤ galMask 19)) then s.setB galCmdStatus 16
  else s.plainWrite a v

end Sys2Proof.Machine
end

