-- ==== Sys2Proof/Machine/LarderOps.lean ====
section
/-! DEFINITION. Larder's tables (R164 to R168, R185, R191, R192): buckets and slots in the Shelf and in
Cellar, their error handling, and displacement (R184). -/

namespace Sys2Proof.Machine

/-! ## Tables (R164, R166, R167) -/

def State.ltValid (s : State) (t : Nat) : Bool := t < 64 && s.rb (lrdTblCfg t) 31
def State.ltTier (s : State) (t : Nat) : Nat := s.rf (lrdTblCfg t) 30 29
def State.ltWide (s : State) (t : Nat) : Bool := s.rb (lrdTblCfg t) 28
def State.ltKeyLen (s : State) (t : Nat) : Nat := s.rf (lrdTblCfg t) 27 22
def State.ltSize (s : State) (t : Nat) : Nat := s.rf (lrdTblCfg t) 21 17
def State.ltRole (s : State) (t : Nat) : Nat := s.rf (lrdTblCfg t) 16 14
def State.ltAlias (s : State) (t : Nat) : Nat := s.rf (lrdTblCfg t) 13 8
def State.ltBase (s : State) (t : Nat) : Nat := s.rd64 (lrdTblBaseLo t)
def State.ltCellar (s : State) (t : Nat) : Bool := s.ltTier t == 1
def State.ltKeyRoom (s : State) (t : Nat) : Nat := if s.ltWide t then 40 else 8
/-- The slot and the bucket in bytes, and the slots of a bucket. -/
def State.ltSlotBytes (s : State) (t : Nat) : Nat := if s.ltWide t then 64 else 32
def State.ltBucketBytes (s : State) (t : Nat) : Nat :=
  if s.ltCellar t || s.ltWide t then 256 else 128
def State.ltSlots (s : State) (t : Nat) : Nat := s.ltBucketBytes t / s.ltSlotBytes t

/-- The place of slot i of bucket b of table t. -/
def lrdPos (t b i : Nat) : Nat := 2 ^ 28 * t + 8 * b + i
/-- The byte address of a place. -/
def State.lrdAddr (s : State) (k : Nat) : Nat :=
  let t := k / 2 ^ 28
  s.ltBase t + k % 2 ^ 28 / 8 * s.ltBucketBytes t + k % 8 * s.ltSlotBytes t

/-! ## Entries (R165) -/

def LrdEnt.vis (e : LrdEnt) (p : Nat) : Bool := e.st.getLsbD (30 + p)
def LrdEnt.static (e : LrdEnt) : Bool := e.st.getLsbD 29
def LrdEnt.hit (e : LrdEnt) : Bool := e.st.getLsbD 28
def LrdEnt.age (e : LrdEnt) : Nat := fld e.st 27 24
def LrdEnt.moves (e : LrdEnt) : Nat := fld e.st 23 20
def LrdEnt.damped (e : LrdEnt) : Bool := e.st.getLsbD 19
def LrdEnt.put (e : LrdEnt) (hi lo v : Nat) : LrdEnt := { e with st := setFld e.st hi lo v }
/-- DEST_KIND and DEST of the action word. -/
def LrdEnt.dest (e : LrdEnt) : Nat × Nat := (af e.act 115 113, af e.act 112 97)
/-- An action word with another destination. -/
def withDest (a : BitVec 128) (kind dest : Nat) : BitVec 128 :=
  BitVec.ofNat 128 (putBits (putBits a.toNat 115 113 kind) 112 97 dest)

/-- The bytes of a slot, and the entry that bytes spell. -/
def slotBytes (room : Nat) (e : Option LrdEnt) : List Byte :=
  match e with
  | none => List.replicate (room + 24) 0
  | some x => slice x.key 0 room ++ natLe 16 x.act.toNat ++ natLe 4 x.st.toNat ++ [0, 0, 0, 0]

def slotEntry (room : Nat) (b : List Byte) : Option LrdEnt :=
  let st : Word := BitVec.ofNat 32 (leNat (slice b (room + 16) 4))
  if fld st 31 30 = 0 then none
  else some ⟨b.take room, BitVec.ofNat 128 (leNat (slice b room 16)), st⟩

/-! ## Keys and buckets (R168) -/

/-- The padded key of a table. -/
def State.ltKey (s : State) (t : Nat) (key : List Byte) : List Byte :=
  slice (slice key 0 (s.ltKeyLen t)) 0 (s.ltKeyRoom t) |>.take (s.ltKeyRoom t)

/-- The candidate buckets of a padded key: b1 and b2, or b1 alone in Cellar. -/
def State.ltBuckets (s : State) (t : Nat) (k : List Byte) : List Nat :=
  let n := 2 ^ s.ltSize t
  let b1 := crc32c k % n
  let b2 := crc32cSeed (s.rdN (lrdTblSeed t)) k % n
  if s.ltCellar t then [b1] else [b1, if b2 = b1 then Nat.xor b1 1 else b2]

/-! ## Errors (R191, R192) -/

/-- A corrected error at a location. -/
def State.lrdCorr (s : State) (loc : Nat) : State :=
  ((s.setB lrdErr 0).report 0x16 0 (BitVec.ofNat 32 loc)).count evLrdEccCorr 0 0

/-- An uncorrectable error at a location; the slots named are freed in the next learn-arbiter event. -/
def State.lrdUncorr (s : State) (loc : Nat) (slots : List Nat) : State :=
  let s1 := (((s.wrN lrdErrLoc loc).setB lrdErr 1).report 0x17 0 (BitVec.ofNat 32 loc)).count evLrdEccUncorr 0 0
  { s1 with lrd := { s1.lrd with toFree := slots.foldl sadd s1.lrd.toFree } }

/-- TABLE and BUCKET of a place, as LRD_ERR_LOC holds them. -/
def lrdLoc (k : Nat) : Nat := k / 2 ^ 28 * 2 ^ 24 + k % 2 ^ 28 / 8

/-- The Shelf's 32-byte unit at which a place starts. -/
def State.shelfUnit (s : State) (k : Nat) : Nat := s.lrdAddr k / 32

/-- A Shelf slot is read: corrected and written back, or found uncorrectable. The answer says that it
can be used. -/
def State.shelfCheck (s : State) (k : Nat) : State × Bool :=
  match s.eccOf .lrdShelf (s.shelfUnit k) with
  | .ok => (s, true)
  | .corr => ((s.eccClear .lrdShelf (s.shelfUnit k)).lrdCorr (lrdLoc k), true)
  | .uncorr => (s.lrdUncorr (lrdLoc k) [k], false)

/-! ## Buckets -/

/-- The slots of a bucket, with what each holds; `none` where the bucket has an uncorrectable error. -/
def State.lrdBucket (s : State) (t b : Nat) : State × Option (List (Nat × Option LrdEnt)) :=
  let ks := (upto (s.ltSlots t)).map (lrdPos t b)
  if s.ltCellar t then
    let r := s.celRead 0x10 (s.ltBase t + 256 * b) 256
    match r.2 with
    | some d => (r.1, some (ks.map fun k =>
        (k, slotEntry (s.ltKeyRoom t) (slice d (k % 8 * s.ltSlotBytes t) (s.ltSlotBytes t)))))
    | none =>
      let bad := ks.filter fun k => (upto (s.ltSlotBytes t / 32)).any fun i =>
        shas r.1.cel.poison (s.lrdAddr k / 32 + i)
      (r.1.lrdUncorr (t * 2 ^ 24 + b) bad, none)
  else
    let r := ks.foldl (fun (acc : State × Bool) k =>
      let c := acc.1.shelfCheck k
      (c.1, acc.2 && c.2)) (s, true)
    (r.1, if r.2 then some (ks.map fun k => (k, tfind s.lrd.ents k)) else none)

/-- The slots of the candidate buckets of a key, b1 first. -/
def State.lrdSlots (s : State) (t : Nat) (bs : List Nat) : State × Option (List (Nat × Option LrdEnt)) :=
  bs.foldl (fun (acc : State × Option (List (Nat × Option LrdEnt))) b =>
    let r := acc.1.lrdBucket t b
    (r.1, match acc.2, r.2 with
      | some x, some y => some (x ++ y)
      | _, _ => none)) (s, some [])

/-- A slot is written whole. -/
def State.lrdPut (s : State) (k : Nat) (e : Option LrdEnt) : State :=
  let t := k / 2 ^ 28
  if s.ltCellar t then s.celWrite 0x10 (s.lrdAddr k) (slotBytes (s.ltKeyRoom t) e)
  else
    let s1 := s.eccClear .lrdShelf (s.shelfUnit k)
    { s1 with lrd := { s1.lrd with ents := match e with
        | some x => tput s1.lrd.ents k x
        | none => tdel s1.lrd.ents k } }.inject 0x09 0x40 0xA0 .lrdShelf (s.shelfUnit k)

/-- An entry of a list of slots, by a test. -/
def entryIn (l : List (Nat × Option LrdEnt)) (p : LrdEnt → Bool) : Option (Nat × LrdEnt) :=
  l.findSome? fun x => match x.2 with
    | some e => if p e then some (x.1, e) else none
    | none => none

/-- The first free slot. -/
def freeIn (l : List (Nat × Option LrdEnt)) : Option Nat := (l.find? fun x => x.2.isNone).map (·.1)

/-- The batch has a staged write on key k of table t (R185). -/
def State.lrdStaged (s : State) (t : Nat) (k : List Byte) : Bool :=
  s.lrd.staged.any fun p => p.1 == t && p.2 == k

/-! ## Displacement (R184) -/

/-- The slots of a Shelf bucket that displacement may look at: none where an error stands in one (DESIGN CHOICE, unsafe: log entry 46). -/
def State.shelfLook (s : State) (t b : Nat) : List (Nat × Option LrdEnt) :=
  let ks := (upto 4).map (lrdPos t b)
  if ks.any fun k => s.eccOf .lrdShelf (s.shelfUnit k) == .uncorr then []
  else ks.map fun k => (k, tfind s.lrd.ents k)

/-- The bucket other than b in which an entry may live. -/
def State.otherBucket (s : State) (t b : Nat) (e : LrdEnt) : Nat :=
  ((s.ltBuckets t e.key).find? (· != b)).getD b

/-- A path of exactly n moves that starts in bucket b, slots in ascending order: places from the slot to
be filled to the free slot. -/
def State.lrdPath (s : State) (t : Nat) : Nat → Nat → List Nat → Option (List Nat)
  | 0, _, _ => none
  | n + 1, b, seen =>
    (s.shelfLook t b).findSome? fun x => match x.2 with
      | none => none
      | some e =>
        if shas seen x.1 then none else
        let ob := s.otherBucket t b e
        if n = 0 then (freeIn (s.shelfLook t ob)).map fun k => [x.1, k]
        else (s.lrdPath t n ob (x.1 :: seen)).map (x.1 :: ·)

/-- The entries of a path move, the last first. -/
def State.lrdShift (s : State) : List Nat → State
  | a :: b :: rest =>
    let s1 := s.lrdShift (b :: rest)
    match tfind s1.lrd.ents a with
    | some e => (s1.lrdPut b (some e)).lrdPut a none
    | none => s1
  | _ => s

/-- A walk or a flush runs on table t. -/
def State.lrdWalking (s : State) (t : Nat) : Bool :=
  match s.lrd.job with
  | some j => j.table == t && j.kind != 3
  | none => false

/-- A slot for a new entry: a free one, or one that displacement frees. -/
def State.lrdRoom (s : State) (t : Nat) (bs : List Nat) (l : List (Nat × Option LrdEnt)) : State × Option Nat :=
  match freeIn l with
  | some k => (s, some k)
  | none =>
    if s.ltCellar t || s.lrdWalking t then (s, none) else
    match [1, 2, 3, 4].findSome? fun n => bs.findSome? fun b => s.lrdPath t n b [] with
    | some p => (s.lrdShift p, p.head?)
    | none => (s, none)

end Sys2Proof.Machine
end

