-- ==== Sys2Proof/Machine/Larder.lean ====
section
/-! DEFINITION. The searches, the learn arbiter, the commands and the jobs of Larder (chapter 6, window
0x09). -/

namespace Sys2Proof.Machine

/-! ## Remote lookups of a head (R108) -/

/-- Lookup `id` of frame f changed. -/
def State.setRemote (s : State) (f id : Nat) (g : Remote → Remote) : State :=
  let h := s.head f
  s.setHead f { h with remote := h.remote.map fun r => if r.id = id then g r else r }

/-- A lookup's answer is on its way to the slice. -/
def State.remoteFound (s : State) (f id : Nat) (a : Answer) : State :=
  s.setRemote f id fun r => { r with taken := true, found := some a }

/-! ## Searches (R169 to R175) -/

/-- The learned destination of a port (R173). -/
def State.learnedDest (s : State) (n : Nat) : Nat × Nat :=
  let c := lrdPortCfg n
  if s.rb c 14 then (3, s.rf c 11 0) else (1, n)

/-- A learn request joins the queue, or is dropped (R175). -/
def State.learnRequest (s : State) (r : LearnReq) : State :=
  if 4096 ≤ s.lrd.learnQ.length then s.count evLrdLearnDrop 0 0
  else { s with lrd := { s.lrd with learnQ := s.lrd.learnQ ++ [r] } }

def State.fullAct (s : State) (t : Nat) : BitVec 128 := BitVec.ofNat 128 (s.rdWide (lrdFullAct t 0) 4)
def State.lrnAct (s : State) (t : Nat) : BitVec 128 := BitVec.ofNat 128 (s.rdWide (lrdLrnAct t 0) 4)

/-- A source-view search of view v (R174): `l` holds the slots of b1 and b2 of table t. -/
def State.sourceSearch (s : State) (v t port par : Nat) (k : List Byte) (l : List (Nat × Option LrdEnt)) :
    State × Answer :=
  let d := s.learnedDest port
  let req : LearnReq := ⟨t, k, d.1, d.2⟩
  if !(s.rb (lrdPortCfg port) 15) then (s, .miss) else
  match entryIn l fun e => e.key == k && e.vis par with
  | some (_, e) =>
    if e.dest = d then (if e.hit && e.age == 0 then s else s.learnRequest req, .miss)
    else if e.static then (s.count evLrdStaticMove t 0, .miss)
    else if e.damped then (s.count evLrdMoveDamped t 0, .miss)
    else (s.learnRequest req, .miss)
  | none =>
    if (freeIn l).isSome then (s.learnRequest req, .miss)
    else (s.count evLrdLearnFull t 0, .hit (s.fullAct v))

/-- A search that reads its buckets. -/
def State.lrdSearch (s : State) (q : LrdSearch) : State × Answer :=
  let v := q.table
  if !(s.ltValid v) then (if v < 64 then s.count evLrdSearchErr v 0 else s, .error)
  else
    let t := if s.ltRole v = 2 then s.ltAlias v else v
    let k := s.ltKey t q.key
    let r := s.lrdSlots t (s.ltBuckets t k)
    match r.2 with
    | none => (r.1.count evLrdSearchErr v 0, .error)
    | some l =>
      let a : State × Answer :=
        if s.ltRole v = 2 then r.1.sourceSearch v t q.port q.par k l
        else match entryIn l fun e => e.key == k && e.vis q.par with
          | some (_, e) => (r.1, .hit e.act)
          | none => (r.1, .miss)
      (a.1.count (if a.2 = .miss then evLrdMiss else evLrdHit) v 0, a.2)

/-- A search is taken up: read at once in the Shelf, queued for Cellar, or answered with an error where
the queue is full (R170, R171). -/
def State.lrdTake (s : State) (q : LrdSearch) : State :=
  let v := q.table
  if s.ltValid v && s.ltCellar v && s.ltRole v != 2 then
    if 2048 ≤ s.lrd.cq.length then
      ((s.count evLrdCellarBusy 0 0).count evLrdSearchErr v 0).remoteFound q.fid q.id .error
    else
      { s with lrd := { s.lrd with cq := s.lrd.cq ++ [q] } }.setRemote q.fid q.id fun r => { r with taken := true }
  else
    let r := s.lrdSearch q
    r.1.remoteFound q.fid q.id r.2

/-- LARDER_SEARCH (R169): the lookup of frame f that joins at stage j is taken up. -/
def execLarderSearch (f j : Nat) (s : State) : Host.Outcome State Fault Refusal :=
  let x := s.frame f
  match x.head.remote.find? fun r => r.join == j && !r.crow && !r.taken with
  | none => .next s
  | some r => .next (s.lrdTake ⟨f, r.id, r.target, r.key, x.port, x.head.gen⟩)

/-- CELLAR_SEARCH_RELEASE (R170). -/
def execCellarSearchRelease (s : State) : Host.Outcome State Fault Refusal :=
  match s.lrd.cq with
  | [] => .next s
  | q :: t =>
    let r := { s with lrd := { s.lrd with cq := t } }.lrdSearch q
    .next (if r.1.hasFrame q.fid then r.1.remoteFound q.fid q.id r.2 else r.1)

/-! ## The learn arbiter (R177 to R181, R192) -/

/-- The slots with uncorrectable errors are freed, in the next learn-arbiter event (R192). -/
def State.lrdFrees (s : State) : State :=
  let l := s.lrd.toFree
  { s with lrd := { s.lrd with toFree := [] } }.each l fun t k => t.lrdPut k none

/-- LRD_ECC_FREE (R192). -/
def execLrdEccFree (s : State) : Host.Outcome State Fault Refusal := .next s.lrdFrees

/-- A learned entry (R176). -/
def State.learned (s : State) (r : LearnReq) : LrdEnt :=
  ⟨r.key, withDest (s.lrnAct r.table) r.kind r.dest, BitVec.ofNat 32 (2 ^ 31 + 2 ^ 30 + 2 ^ 28)⟩

/-- A request at the arbiter (R178). -/
def State.learnApply (s : State) (r : LearnReq) : State :=
  let t := r.table
  if !(s.ltValid t) ∨ s.ltRole t ≠ 1 then s else
  let q := s.lrdSlots t (s.ltBuckets t r.key)
  match q.2 with
  | none => q.1
  | some l =>
    let s1 := q.1
    match entryIn l fun e => e.key == r.key && (e.vis 0 || e.vis 1) with
    | none =>
      if s.lrdStaged t r.key then s1.count evLrdLearnConflict t 0
      else match freeIn l with
        | some k => (s1.lrdPut k (some (s1.learned r))).count evLrdLearn t 0
        | none => s1.count evLrdLearnLateFull t 0
    | some (k, e) =>
      if s.lrdStaged t r.key then s1.count evLrdLearnConflict t 0
      else if e.dest = (r.kind, r.dest) then s1.lrdPut k (some (e.put 28 28 1))
      else if e.static then s1.count evLrdStaticMove t 0
      else if e.damped then s1.count evLrdMoveDamped t 0
      else
        let m := min (e.moves + 1) 15
        let lim := s.rf (lrdTblAge t) 11 8
        let e1 := (({ e with act := withDest e.act r.kind r.dest }.put 28 28 1).put 27 24 0).put 23 20 m
        (s1.lrdPut k (some (if 0 < lim ∧ lim ≤ m then e1.put 19 19 1 else e1))).count evLrdMove t 0

/-- LEARN_REQUEST_APPLY (R178): the oldest request. -/
def execLearnRequestApply (s : State) : Host.Outcome State Fault Refusal :=
  match s.lrd.learnQ with
  | [] => .next s
  | r :: t => .next ({ s with lrd := { s.lrd with learnQ := t } }.lrdFrees.learnApply r)

/-- What a sweep visit makes of a learned entry; `none` where it ages out (R181). -/
def LrdEnt.visit (e : LrdEnt) (limit : Nat) : Option LrdEnt :=
  let e1 := (if e.damped && e.moves == 0 then e.put 19 19 0 else e).put 23 20 0
  let age := if e.hit then 0 else e.age + 1
  if limit ≤ age then none else some ((e1.put 28 28 0).put 27 24 age)

/-- A sweep visit of a bucket, and how many entries it frees; `none` where the bucket has an
uncorrectable error. -/
def State.lrdVisit (s : State) (t b : Nat) : State × Option Nat :=
  let r := s.lrdBucket t b
  match r.2 with
  | none => (r.1, none)
  | some l =>
    let lim := s.rf (lrdTblAge t) 15 12
    let q := l.foldl (fun (acc : State × Nat) x =>
      match x.2 with
      | none => acc
      | some e =>
        if e.static || s.lrdStaged t e.key then acc
        else match e.visit lim with
          | some e1 => (acc.1.lrdPut x.1 (some e1), acc.2)
          | none => ((acc.1.lrdPut x.1 none).count evLrdAged t 0, acc.2 + 1)) (r.1, 0)
    (q.1, some q.2)

/-- SWEEP_VISIT (R181): the automatic sweeper's visit of bucket b of table t falls due. -/
def execSweepVisit (t b : Nat) (s : State) : Host.Outcome State Fault Refusal :=
  if s.ltValid t ∧ s.ltRole t = 1 ∧ s.rf (lrdTblAge t) 31 16 ≠ 0 ∧ b < 2 ^ s.ltSize t then
    .next (s.lrdFrees.lrdVisit t b).1
  else .next s

/-! ## Commands (R183 to R185) -/

/-- The key of a command: byte 4k in bits [31:24] of LRD_KEY[k]. -/
def State.lrdCmdKey (s : State) : List Byte := (upto 10).flatMap fun k => natBe 4 (s.rdN (lrdKey k))

/-- The entry that a command works on: the one that a head accepted now sees, or any (DEDUCED, unsafe: log entry 50). -/
def State.lrdCmdEntry (s : State) (k : List Byte) (l : List (Nat × Option LrdEnt)) (par : Option Nat) :
    Option (Nat × LrdEnt) :=
  match par with
  | some p => entryIn l fun e => e.key == k && e.vis p
  | none => (entryIn l fun e => e.key == k && e.vis s.genPar).or (entryIn l fun e => e.key == k)

/-- A staged write of one entry: NO_BATCH, BATCH_FULL or none. -/
def State.lrdStage (s : State) (t : Nat) (k : List Byte) : State :=
  let s1 := s.stageAdd 1
  { s1 with lrd := { s1.lrd with staged := if s.lrdStaged t k then s1.lrd.staged else (t, k) :: s1.lrd.staged } }

/-- An entry leaves parity p; its slot is free once it is in none. -/
def State.lrdHide (s : State) (k : Nat) (e : LrdEnt) (p : Nat) : State :=
  s.lrdPut k (if e.vis (1 - p) then some (e.put (30 + p) (30 + p) 0) else none)

/-- Operations 1, 2 and 4 with STAGED set (R185, R151). -/
def State.lrdStagedCmd (s : State) (op t : Nat) (k : List Byte) (bs : List Nat)
    (l : List (Nat × Option LrdEnt)) (act cmp : BitVec 128) (static : Bool) : State × Nat :=
  let np := s.newPar
  let r := s.stageRefuse 1 9 0x0A
  if r ≠ 0 then (s, r) else
  match s.lrdCmdEntry k l (some np) with
  | none =>
    if op ≠ 1 then (s, 2) else
    let q := s.lrdRoom t bs l
    (match q.2 with
     | none => (s, 3)
     | some p => ((q.1.lrdStage t k).lrdPut p (some ⟨k, act, BitVec.ofNat 32 (2 ^ (30 + np) + nat static * 2 ^ 29)⟩), 0))
  | some (p, e) =>
    if op = 4 ∧ e.act ≠ cmp then (s.wrWide (lrdCmp 0) 4 e.act.toNat, 7)
    else if op = 2 then ((s.lrdStage t k).lrdHide p e np, 0)
    else
      let e0 : LrdEnt := if op = 1 then { e.put 29 29 (nat static) with act := act } else { e with act := act }
      let done := if op = 1 then 1 else 0
      if !(e.vis (1 - np)) then ((s.lrdStage t k).lrdPut p (some e0), done)
      else
        let q := s.lrdRoom t bs l
        (match q.2 with
         | none => (s, 3)
         | some p1 =>
           let s1 := (q.1.lrdStage t k)
           let old := if s.ltCellar t then some (p, e)
             else entryIn (bs.flatMap (s1.shelfLook t)) fun x => x.key == k && x.vis np
           let s2 := match old with
             | some (p2, x) => s1.lrdHide p2 x np
             | none => s1
           (s2.lrdPut p1 (some (e0.put (31 - np) (31 - np) 0)), done))

/-- A Larder command; the answer is its result, and what it returns in LRD_ACT and LRD_ENT. -/
def State.lrdRun (s0 : State) (op t : Nat) (staged : Bool) (key : List Byte) (act cmp : BitVec 128) (ent : Word) :
    State × Nat × Option LrdEnt :=
  let s := s0.lrdFrees
  if !(s.ltValid t) ∨ s.ltRole t = 2 then (s, 5, none)
  else if (key.drop (s.ltKeyLen t)).any (· != 0) then (s, 6, none)
  else if (op = 1 ∨ op = 4) ∧ !(actionOk act) then (s, 4, none)
  else
    let k := s.ltKey t key
    let bs := s.ltBuckets t k
    let r := s.lrdSlots t bs
    match r.2 with
    | none => (r.1, 0x0B, none)
    | some l =>
      let s1 := r.1
      let static := ent.getLsbD 29
      if staged ∧ (op = 1 ∨ op = 2 ∨ op = 4) then
        let q := s1.lrdStagedCmd op t k bs l act cmp static
        (q.1, q.2, none)
      else if op ≠ 3 ∧ s1.lrdStaged t k then (s1, 8, none)
      else
        match s1.lrdCmdEntry k l none with
        | none =>
          if op ≠ 1 then (s1, 2, none) else
          let q := s1.lrdRoom t bs l
          (match q.2 with
           | none => (s1, 3, none)
           | some p => (q.1.lrdPut p (some ⟨k, act, BitVec.ofNat 32 (2 ^ 31 + 2 ^ 30 + nat static * 2 ^ 29)⟩), 0, none))
        | some (p, e) =>
          if op = 1 then (s1.lrdPut p (some { e.put 29 29 (nat static) with act := act }), 1, none)
          else if op = 2 then (s1.lrdPut p none, 0, none)
          else if op = 3 then (s1, 0, some e)
          else if op = 4 then
            if e.act = cmp then (s1.lrdPut p (some { e with act := act }), 0, none)
            else (s1.wrWide (lrdCmp 0) 4 e.act.toNat, 7, none)
          else (if e.static then s1 else s1.lrdPut p (some (e.put 28 28 1)), 0, none)

/-- A write of LRD_CMD. -/
def State.lrdCmdWrite (s : State) (v : Word) : State :=
  let op := fld v 29 26
  if s.rb lrdCmd 31 then s.setB lrdCmdStatus 0
  else if 6 ≤ op then s.setB lrdCmdStatus 1
  else
    let s1 := s.plainWrite lrdCmd v
    if op = 0 then s1 else
    let r := s1.lrdRun op (fld v 5 0) (v.getLsbD 30) s1.lrdCmdKey (BitVec.ofNat 128 (s1.rdWide (lrdAct 0) 4))
      (BitVec.ofNat 128 (s1.rdWide (lrdCmp 0) 4)) (s1.rd lrdEnt)
    let done := r.2.1 = 0 ∨ r.2.1 = 1 ∨ r.2.1 = 2 ∨ r.2.1 = 7
    let s2 := (r.1.wf lrdCmdStatus 31 24 r.2.1).count (if done then evLrdCmdDone else evLrdCmdRefused) 0 0
    match r.2.2 with
    | some e => (s2.wrWide (lrdAct 0) 4 e.act.toNat).wr lrdEnt e.st
    | none => s2

def lrdWord (op : Nat) (v : Word) : Word := setFld v 29 26 op

/-- LRD_INSERT (R183, R184). -/
def execLrdInsert (v : Word) (s : State) : Host.Outcome State Fault Refusal := .next (s.lrdCmdWrite (lrdWord 1 v))
/-- LRD_DELETE (R183). -/
def execLrdDelete (v : Word) (s : State) : Host.Outcome State Fault Refusal := .next (s.lrdCmdWrite (lrdWord 2 v))
/-- LRD_READ (R183). -/
def execLrdRead (v : Word) (s : State) : Host.Outcome State Fault Refusal := .next (s.lrdCmdWrite (lrdWord 3 v))
/-- LRD_COMPARE_REPLACE (R183). -/
def execLrdCompareReplace (v : Word) (s : State) : Host.Outcome State Fault Refusal :=
  .next (s.lrdCmdWrite (lrdWord 4 v))
/-- LRD_TOUCH (R183). -/
def execLrdTouch (v : Word) (s : State) : Host.Outcome State Fault Refusal := .next (s.lrdCmdWrite (lrdWord 5 v))

/-! ## Settling (R185) -/

/-- The entries of a staged key follow parity `keep`; those in no parity are freed. -/
def State.lrdSettle (s : State) (keep : Nat) : State :=
  let l := s.lrd.staged
  let s1 := s.each l fun t p =>
    let bs := t.ltBuckets p.1 p.2
    let r := t.lrdSlots p.1 bs
    match r.2 with
    | none => r.1
    | some m => r.1.each m fun u x =>
        match x.2 with
        | some e =>
          if e.key ≠ p.2 then u
          else if e.vis keep then u.lrdPut x.1 (some (e.put 31 30 3))
          else u.lrdPut x.1 none
        | none => u
  { s1 with lrd := { s1.lrd with staged := [] } }

/-! ## Configuration (R167, R182, R194) -/

/-- LRD_TBL_AGE keeps to R182. -/
def ageOk (v : Word) : Bool :=
  !(fld v 31 16 != 0 && fld v 15 12 == 0) && !(fld v 31 16 == 0 && fld v 11 8 != 0)

/-- The bytes of a table's region. -/
def State.ltSpan (s : State) (t : Nat) : Nat := s.ltBucketBytes t * 2 ^ s.ltSize t

/-- The region of table t overlaps that of another valid table of its tier. -/
def State.ltOverlap (s : State) (t : Nat) : Bool :=
  (upto 64).any fun u => u != t && s.ltValid u && s.ltRole u != 2 && s.ltTier u == s.ltTier t &&
    decide (s.ltBase t < s.ltBase u + s.ltSpan u ∧ s.ltBase u < s.ltBase t + s.ltSpan t)

/-- The configuration held for table t may become valid (R167). -/
def State.ltOk (s : State) (t : Nat) : Bool :=
  let size := s.ltSize t
  let len := s.ltKeyLen t
  decide (s.ltTier t ≤ 1 ∧ s.ltRole t ≤ 2 ∧ 1 ≤ len ∧ len ≤ 40 ∧ (s.ltWide t = true ∨ len ≤ 8)) &&
    s.rdN (lrdTblSeed t) != 0xFFFFFFFF && ageOk (s.rd (lrdTblAge t)) &&
    (if s.ltRole t = 2 then
      let a := s.ltAlias t
      s.ltValid a && s.ltRole a == 1 && s.ltWide a == s.ltWide t && s.ltKeyLen a == len &&
        s.ltTier t == 0 && size == 0 && s.ltBase t == 0
     else if s.ltTier t = 0 then
      let lo := if s.ltWide t then 8 else 9
      decide (lo ≤ size ∧ size ≤ lo + 9) && s.ltBase t % 65536 == 0 &&
        decide (s.ltBase t + s.ltSpan t ≤ 48 * 2 ^ 20) && !(s.ltOverlap t)
     else
      decide (10 ≤ size ∧ size ≤ 24) && s.ltRole t != 1 && s.ltBase t % s.ltSpan t == 0 &&
        s.inPart 1 (s.ltBase t) (s.ltSpan t) && !(s.ltOverlap t))

/-- Every entry of table t goes, and its region is free (R167). -/
def State.ltDrop (s : State) (t : Nat) : State :=
  let s1 := if s.ltCellar t ∧ s.ltRole t ≠ 2 then s.celZero (s.ltBase t) (s.ltSpan t) else s
  { s1 with lrd := { s1.lrd with
      ents := tclear s1.lrd.ents (2 ^ 28 * t) (2 ^ 28 * (t + 1))
      staged := s1.lrd.staged.filter fun p => p.1 != t
      toFree := s1.lrd.toFree.filter fun k => k / 2 ^ 28 != t } }

/-- A write of LRD_TBL_CFG[t]. -/
def State.ltCfgWrite (s : State) (t : Nat) (v : Word) : State :=
  let a := lrdTblCfg t
  if s.rb a 31 then
    if fld v 30 8 ≠ s.rf a 30 8 ∨ v.getLsbD 31 then s
    else if (upto 64).any fun u => s.ltValid u && s.ltRole u == 2 && s.ltAlias u == t then s.setB lrdErr 2
    else (s.ltDrop t).putB a 31 false
  else
    let s1 := s.plainWrite a v
    if v.getLsbD 31 ∧ !(s1.ltOk t) then (s1.putB a 31 false).setB lrdErr 2 else s1

/-- LRD_TABLE_CFG_WRITE (R167). -/
def execLrdTableCfgWrite (t : Nat) (v : Word) (s : State) : Host.Outcome State Fault Refusal :=
  .next (s.ltCfgWrite t v)

/-- A write of LRD_TBL_AGE[t]. -/
def State.ltAgeWrite (s : State) (t : Nat) (v : Word) : State :=
  if ageOk v then s.plainWrite (lrdTblAge t) v else s.setB lrdErr 2

/-- LRD_AGE_WRITE (R182). -/
def execLrdAgeWrite (t : Nat) (v : Word) (s : State) : Host.Outcome State Fault Refusal := .next (s.ltAgeWrite t v)

/-- A write of word w of FULL_ACT or, with `lrn`, of LRN_ACT of table t. -/
def State.ltTemplateWrite (s : State) (lrn : Bool) (t w : Nat) (v : Word) : State :=
  let a (i : Nat) : Nat := if lrn then lrdLrnAct t i else lrdFullAct t i
  if w < 3 then { s with held := tput s.held (a w) v } else
  let word (i : Nat) : Nat := (tget (s.rd (a i)) s.held (a i)).toNat
  let act := word 0 + word 1 * 2 ^ 32 + word 2 * 2 ^ 64 + v.toNat * 2 ^ 96
  let x : BitVec 128 := BitVec.ofNat 128 act
  let s1 := { s with held := tdel (tdel (tdel s.held (a 0)) (a 1)) (a 2) }
  if actionOk x && !(lrn && (af x 115 113 != 0 || af x 119 117 != 0)) then s1.wrWide (a 0) 4 act
  else s1.setB lrdErr 2

/-- LRD_TEMPLATE_WRITE (R194): word 3. -/
def execLrdTemplateWrite (lrn : Bool) (t : Nat) (v : Word) (s : State) : Host.Outcome State Fault Refusal :=
  .next (s.ltTemplateWrite lrn t 3 v)

/-! ## Jobs (R186 to R190) -/

def State.lrdStatus (s : State) (j : LrdJob) (st : Nat) : State :=
  s.jobStatus 0x10 j.stAddr (st * 2 ^ 28 + j.kind * 2 ^ 26 + j.tag) j.next j.count
    (min 65535 j.ecc * 65536 + min 65535 j.skips)

def State.setLrdJob (s : State) (j : Option LrdJob) : State := { s with lrd := { s.lrd with job := j } }

/-- The job ends in STATE st. -/
def State.lrdJobEnd (s : State) (j : LrdJob) (st : Nat) : State :=
  (((s.lrdStatus j st).putB lrdJobCtl 31 false).setLrdJob none).pulse 1921

/-- The job aborts: between steps, at once. -/
def State.lrdAbort (s : State) : State :=
  match s.lrd.job with
  | some j => s.lrdJobEnd j 3
  | none => s

/-- A write of LRD_JOB_CTL (DESIGN CHOICE, unsafe: log entry 49). -/
def State.lrdJobCtlWrite (s : State) (v : Word) : State :=
  let op := fld v 30 29
  if op = 3 then s else
  let s1 := s.plainWrite lrdJobCtl v
  let kind := fld v 27 26
  let t := fld v 21 16
  let out := s.rd64 lrdJobOutLo
  let st := s.rd64 lrdJobStatusLo
  let lim := s.rf lrdJobLimit 20 0
  let start := s.rf lrdJobStart 23 0
  if op = 1 then
    if s.lrd.job.isSome ∨ kind = 0 ∨ !(s.ltValid t) ∨ s.ltRole t = 2 ∨ 2 ^ s.ltSize t ≤ start ∨ st % 16 ≠ 0 ∨
        (kind = 1 ∧ (out % 64 ≠ 0 ∨ lim < 8 ∨ 1048576 < lim ∨
          !(s.inPart 1 out (64 * lim) || s.inPart 3 out (64 * lim)))) ∨ (kind = 3 ∧ s.ltRole t ≠ 1) then
      s1.setB lrdJobCtl 28
    else
      let fk := s.rd lrdJobFiltKey
      let j : LrdJob := ⟨kind, t, start, 2 ^ s.ltSize t, out, st, lim, 0, 0, 0, fld v 15 0, s.rd lrdJobFiltDest, fk, 0⟩
      let s2 := ((s1.setB lrdJobCtl 31).setLrdJob (some j)).lrdStatus j 0
      if kind ≠ 3 ∧ fld fk 30 29 = 0 then s2.lrdJobEnd j 1 else s2
  else if op = 2 then s1.lrdAbort
  else s1

/-- LRD_JOB_START (R186). -/
def execLrdJobStart (v : Word) (s : State) : Host.Outcome State Fault Refusal :=
  .next (s.lrdJobCtlWrite (setFld v 30 29 1))
/-- LRD_JOB_ABORT (R186). -/
def execLrdJobAbort (v : Word) (s : State) : Host.Outcome State Fault Refusal :=
  .next (s.lrdJobCtlWrite (setFld v 30 29 2))

/-- An entry is selected (R187). -/
def LrdJob.selects (j : LrdJob) (e : LrdEnt) : Bool :=
  (if e.static then j.filtKey.getLsbD 30 else j.filtKey.getLsbD 29) &&
    (!(j.filtDest.getLsbD 31) || e.dest == (fld j.filtDest 18 16, fld j.filtDest 15 0)) &&
    (!(j.filtKey.getLsbD 31) || beAt e.key 0 2 == fld j.filtKey 15 0)

/-- A walk record (R189). -/
def walkRecord (k : Nat) (e : LrdEnt) : List Byte :=
  slice e.key 0 e.key.length ++ List.replicate (40 - e.key.length) 0 ++ natLe 16 e.act.toNat ++
    natLe 4 e.st.toNat ++ natLe 4 (k % 8 * 2 ^ 24 + k % 2 ^ 28 / 8)

/-- A step that has finished: the next bucket, the status word when it is due, the end. -/
def State.lrdStepDone (s : State) (j : LrdJob) : State :=
  let j1 := { j with next := j.next + 1, steps := j.steps + 1 }
  if j1.stop ≤ j1.next then s.lrdJobEnd j1 1
  else
    let s1 := s.setLrdJob (some j1)
    if j1.steps % 4096 = 0 then s1.lrdStatus j1 0 else s1

/-- One bucket of a job (R187). -/
def State.lrdJobStep (s : State) (j : LrdJob) : State :=
  if j.kind = 3 then
    let r := s.lrdVisit j.table j.next
    match r.2 with
    | none => r.1.lrdStepDone { j with ecc := j.ecc + 1 }
    | some n => r.1.lrdStepDone { j with count := j.count + n }
  else
    let r := s.lrdBucket j.table j.next
    match r.2 with
    | none => r.1.lrdStepDone { j with ecc := j.ecc + 1 }
    | some l =>
      let sel := l.filterMap fun x => match x.2 with
        | some e => if j.selects e then some (x.1, e) else none
        | none => none
      if j.kind = 1 then
        if j.limit < j.count + sel.length then r.1.lrdJobEnd j 2
        else (r.1.celWrite 0x10 (j.out + 64 * j.count) (sel.flatMap fun x => walkRecord x.1 x.2)).lrdStepDone
          { j with count := j.count + sel.length }
      else
        let go := sel.filter fun x => !(s.lrdStaged j.table x.2.key)
        (r.1.each go fun u x => (u.lrdPut x.1 none).count evLrdFlushed j.table 0).lrdStepDone
          { j with count := j.count + go.length, skips := j.skips + (sel.length - go.length) }

/-- LRD_JOB_STEP (R187). -/
def execLrdJobStep (s : State) : Host.Outcome State Fault Refusal :=
  match s.lrd.job with
  | none => .next s
  | some j => .next (s.lrdFrees.lrdJobStep j)

/-! ## Scrub (R191) -/

/-- The place whose slot holds 32-byte unit u of the Shelf, in a valid table. -/
def State.shelfPlace (s : State) (u : Nat) : Option Nat :=
  (upto 64).findSome? fun t =>
    let a := 32 * u
    let b := s.ltBase t
    if s.ltValid t && s.ltTier t == 0 && s.ltRole t != 2 && decide (b ≤ a ∧ a < b + s.ltSpan t) then
      some (lrdPos t ((a - b) / s.ltBucketBytes t) ((a - b) % s.ltBucketBytes t / s.ltSlotBytes t))
    else none

/-- LRD_SCRUB (R191): the scrubber reads the slot at 32-byte unit u of the Shelf; `e` is what the check
finds. The location of an error outside every table is a free value (DESIGN CHOICE, safe: log entry 47). -/
def execLrdScrub (u : Nat) (e : Ecc) (s : State) : Host.Outcome State Fault Refusal :=
  match s.shelfPlace u with
  | some k => .next ((s.eccFlag .lrdShelf (s.shelfUnit k) e).shelfCheck k).1
  | none =>
    let s0 := s.eccFlag .lrdShelf u e
    let q := s0.free 30
    match s0.eccOf .lrdShelf u with
    | .ok => .next s0
    | .corr => .next ((q.2.eccClear .lrdShelf u).lrdCorr q.1)
    | .uncorr => .next ((q.2.eccClear .lrdShelf u).lrdUncorr q.1 [])

/-! ## Registers (R193) -/

/-- LRD_TBL_USE: the slots in use. -/
def State.ltUse (s : State) (t : Nat) : Nat :=
  if !(s.ltValid t) ∨ s.ltRole t = 2 then 0
  else if s.ltCellar t then
    let lo := s.ltBase t
    (s.cel.mem.filter fun c => decide (lo ≤ c.1 ∧ c.1 < lo + s.ltSpan t) &&
      (c.1 - lo) % s.ltSlotBytes t == s.ltKeyRoom t + 19 && 64 ≤ c.2.toNat).length
  else (s.lrd.ents.filter fun p => p.1 / 2 ^ 28 == t).length

/-- A write of a Larder register. -/
def State.lrdRegWrite (s : State) (a : Nat) (v : Word) : State :=
  let t := (a - lrdTblCfg 0) / 0x40
  let inTbl := decide (lrdTblCfg 0 ≤ a ∧ a < lrdTblCfg 64)
  if a = lrdCmd then s.lrdCmdWrite v
  else if a = lrdJobCtl then s.lrdJobCtlWrite v
  else if s.rb lrdCmd 31 ∧ (a = lrdEnt ∨ (lrdKey 0 ≤ a ∧ a ≤ lrdCmp 3)) then s.setB lrdCmdStatus 0
  else if inTbl then
    if a = lrdTblCfg t then s.ltCfgWrite t v
    else if a = lrdTblAge t then s.ltAgeWrite t v
    else if a = lrdTblBaseLo t ∨ a = lrdTblBaseHi t ∨ a = lrdTblSeed t then
      (if s.rb (lrdTblCfg t) 31 then s else s.plainWrite a v)
    else if lrdFullAct t 0 ≤ a ∧ a ≤ lrdFullAct t 3 then s.ltTemplateWrite false t ((a - lrdFullAct t 0) / 4) v
    else if lrdLrnAct t 0 ≤ a ∧ a ≤ lrdLrnAct t 3 then s.ltTemplateWrite true t ((a - lrdLrnAct t 0) / 4) v
    else s.plainWrite a v
  else s.plainWrite a v

end Sys2Proof.Machine
end

