-- ==== Sys2Proof/Machine/Crowsnest.lean ====
section
/-! DEFINITION. Crowsnest's calls and answers (R199, R211 to R226, R236 to R238, R252), its commands and
configuration (R202, R232, R233), and the partner state that Porch posts. -/

namespace Sys2Proof.Machine

/-! ## Write sets (R236 to R238) -/

/-- What a fill makes: the set as (filled position, target, its position), and the report as (filled
position, target, position, outcome). -/
structure Fill where
  set : List (Nat × Nat × Nat)
  report : List (Nat × Nat × Nat × Nat)
  spares : List Nat

/-- One position of a fill. -/
def State.fillStep (s : State) (l : List Nat) (noSubst : Bool) (f : Fill) (i : Nat) : Fill :=
  match l[i]? with
  | none => { f with report := f.report ++ [(i, 0xFFFF, i, 3)] }
  | some t =>
    if s.writeOk t then { f with set := f.set ++ [(i, t, i)] }
    else
      match (if noSubst then none else f.spares.find? fun j => s.writeOk (l.getD j 0xFFFF)) with
      | some j =>
        let u := l.getD j 0xFFFF
        ⟨f.set ++ [(i, u, j)], f.report ++ [(i, t, i, 1), (i, u, j, 2)], f.spares.filter (· != j)⟩
      | none => { f with report := f.report ++ [(i, t, i, 3)] }

/-- The fill of a list for `count` positions; for a fragment only what concerns its position is kept. -/
def State.fill (s : State) (l : List Nat) (count frag : Nat) (noSubst : Bool) : Fill :=
  let spares := (upto l.length).filter fun j => decide (count ≤ j)
  let f := (upto count).foldl (s.fillStep l noSubst) ⟨[], [], spares⟩
  if frag = 0xFF then f
  else ⟨f.set.filter fun x => x.1 == frag, f.report.filter fun x => x.1 == frag, f.spares⟩

/-! ## Answers (R213 to R222) -/

/-- The PLACE area of an answer (R216): `g` and `rec` are those of the record that it reached. -/
def placeWord (kind dest chkEn prof count cls reason g epoch target st inVer pos stale outVer list mark : Nat) :
    BitVec 128 :=
  BitVec.ofNat 128 (kind + dest * 2 ^ 3 + chkEn * 2 ^ 19 + prof * 2 ^ 20 + count * 2 ^ 26 + cls * 2 ^ 31 +
    reason * 2 ^ 34 + g * 2 ^ 42 + epoch * 2 ^ 64 + target * 2 ^ 96 + st * 2 ^ 112 + inVer * 2 ^ 114 +
    pos * 2 ^ 116 + stale * 2 ^ 121 + outVer * 2 ^ 122 + list * 2 ^ 124 + mark * 2 ^ 125)

/-- A decision before it is an answer. -/
structure Verdict where
  cls : Nat
  reason : Nat
  stale : Bool
  members : List Member
  report : List (Nat × Nat × Nat)
  chkEn : Bool
  prof : Nat

def refusal (cls reason : Nat) (stale : Bool) : Verdict := ⟨cls, reason, stale, [], [], false, 0⟩

/-- The egress of a target as a copy's: a port, or 512 + a group. -/
def State.egressOf (s : State) (id : Nat) : Nat :=
  let t := s.tgt id
  if t.kind = 1 then t.dest else 512 + t.dest

/-- The target of a read among the first n of a list: its position (R219). -/
def State.readPick (s : State) (l : List Nat) (n : Nat) : Option Nat :=
  (upto (min n l.length)).foldl (fun best i =>
    let t := l.getD i 0xFFFF
    if !(s.readOk t) then best
    else match best with
      | none => some i
      | some b => if s.readLoad t + s.rf crwReadCfg 15 0 < s.readLoad (l.getD b 0xFFFF) then some i else best) none

/-- Members with their out versions, and the first reason against a translation. -/
def State.withVersions (s : State) (b : List Byte) (chkEn : Bool) (l : List (Nat × Nat × Bool)) : List Member × Nat :=
  l.foldl (fun (acc : List Member × Nat) x =>
    let v := s.placedVersion x.1 b chkEn
    (acc.1 ++ [⟨x.1, s.egressOf x.1, x.2.1, x.2.2, v.1⟩], if acc.2 = 0 then v.2 else acc.2)) ([], 0)

/-- The checks of R226 on a verdict's copies. -/
def versionCheck (b : List Byte) (stale : Bool) (m : List Member × Nat) (v : Verdict) : Verdict :=
  if (shimRflags b).testBit 1 ∧ m.1.any (fun x => x.outVer != 3) then refusal 5 0x18 stale
  else if m.2 ≠ 0 then refusal 4 m.2 stale
  else { v with members := m.1 }

/-- A GET (R219, R220). -/
def State.readVerdict (s : State) (b r : List Byte) (stale : Bool) : Verdict :=
  let pend := rState r == 3
  let l := if pend then rPend r else rCur r
  let frag := shimFrag b
  if l.isEmpty then refusal 3 0x01 stale else
  let pick := if frag ≠ 0xFF then (match l[frag]? with
      | some t => if s.readOk t then some frag else none
      | none => none)
    else s.readPick l (if (shimRflags b).testBit 3 then 1 else s.crwReplicas)
  match pick with
  | none => refusal 5 0x16 stale
  | some i =>
    versionCheck b stale (s.withVersions b false [(l.getD i 0xFFFF, i, pend)])
      ⟨if frag = 0xFF then 1 else 2, 0, stale, [], [], false, 0⟩

/-- A PUT or a DELETE (R221, R236 to R238). -/
def State.writeVerdict (s : State) (b r : List Byte) (stale : Bool) : Verdict :=
  let frag := shimFrag b
  let count := if frag = 0xFF then s.crwReplicas else s.crwStripe
  let ns := (shimRflags b).testBit 2
  let lists : List (List Nat × Bool) :=
    if rState r = 1 then [(rCur r, false)] else if rState r = 3 then [(rPend r, true)]
    else [(rCur r, false), (rPend r, true)]
  if lists.all (fun x => x.1.isEmpty) then refusal 3 0x01 stale else
  let fills := lists.map fun x => (s.fill x.1 count frag ns, x.2)
  let chosen := (fills.flatMap fun x => x.1.set.map fun y => (y.2.1, y.2.2, x.2)).foldl
    (fun (acc : List (Nat × Nat × Bool)) y => if acc.any fun z => z.1 == y.1 then acc else acc ++ [y]) []
  let report := fills.flatMap fun x => x.1.report.map fun y => (y.2.1, y.2.2.1, y.2.2.2 + nat x.2 * 128)
  if chosen.isEmpty then refusal 5 0x17 stale else
  let whole := frag == 0xFF
  let en := if whole then s.rb crwChk 15 else s.rb crwChk 7
  let prof := if whole then s.rf crwChk 13 8 else s.rf crwChk 5 0
  versionCheck b stale (s.withVersions b en chosen) ⟨if whole then 0 else 2, 0, stale, [], report, en, prof⟩

/-- What a record makes of a request (R218 to R221) (DEDUCED, unsafe: log entry 60). -/
def State.verdict (s : State) (b r : List Byte) : Verdict :=
  let e := shimEpoch b
  let ec := rEpoch r
  if rState r = 0 then refusal 3 0x01 false
  else if e ≠ 0 ∧ e < ec ∧ (shimRflags b).testBit 0 then refusal 5 0x14 false
  else if e ≠ 0 ∧ ec + 1 < e then refusal 5 0x15 false
  else
    let stale := decide (e ≠ 0 ∧ e < ec)
    if shimOp b = 1 then s.readVerdict b r stale else s.writeVerdict b r stale

/-- The frame's in-flight count passes to the answer: an earlier one is released, and a class that counts
takes one on the current mark bit (R252). -/
def State.takeMark (s : State) (f cls : Nat) : State :=
  let s1 := s.dropMark f
  if 2 < cls then s1 else
  let b := s.rb crwMigStatus 3
  let a := crwMigInflight (nat b)
  (s1.wrN a (min 0xFFFFFFFF (s1.rdN a + 1))).setFrame f { s1.frame f with mark := some b }

/-- An answer of class `cls` and reason `reason` is on its way to lookup id of frame f: `rec` is the group and
the record it reached. -/
def State.crwAnswer (s : State) (f id : Nat) (rc : Option (Nat × List Byte)) (v : Verdict) : State :=
  let x := s.frame f
  let alloc : State × Option Nat := if 2 ≤ v.members.length then s.setAlloc v.members else (s, none)
  let full := decide (2 ≤ v.members.length) && alloc.2.isNone
  let v1 := if full then refusal 6 0x31 v.stale else v
  let s1 := (if full then s else alloc.1).takeMark f v1.cls
  let s2 := match alloc.2 with
    | some k =>
      { s1 with crw := { s1.crw with sets := tmod ⟨[], 0⟩ s1.crw.sets k fun p => { p with refs := p.refs + 1 } } }.setFrame
        f { s1.frame f with sets := k :: (s1.frame f).sets }
    | none => s1
  let first : Member := v1.members.headD ⟨0, 0, 0, false, 0⟩
  let many := decide (2 ≤ v1.members.length)
  let kind := if v1.members.isEmpty then 0 else if many then 2 else if first.dest < 512 then 1 else 3
  let dest := match alloc.2 with
    | some k => 0xC000 + k
    | none => if first.dest < 512 then first.dest else first.dest - 512
  let st := match rc with | some (_, r) => rState r | none => 0
  let epoch := match rc with
    | some (_, r) => if st = 0 then 0 else if st = 1 then rEpoch r else (rEpoch r + 1) % 2 ^ 32
    | none => 0
  let counts := decide (v1.cls ≤ 2)
  let ver := x.head.shimVer % 4
  let place := placeWord kind dest (nat v1.chkEn) v1.prof v1.members.length v1.cls v1.reason
    (match rc with | some (g, _) => g | none => 0) epoch first.target st ver first.pos
    (nat v1.stale) (if many then 0 else first.outVer) (nat first.pend) (nat (counts && s.rb crwMigStatus 3))
  let s3 := s2.count evCrwClass x.slice v1.cls
  let s4 := if v1.reason ≠ 0 then s3.count evCrwReason 0 v1.reason else s3
  let s5 := if v1.stale then s4.count evCrwEpochStale 0 0 else s4
  let s6 := s5.each v.report fun t e =>
    if e.2.2 % 128 = 2 then t.count evCrwSubstitute 0 0
    else if e.2.2 % 128 = 3 then t.count evCrwDownMissing 0 0 else t
  let s7 := if v1.stale ∧ counts ∧ x.head.shimVer = 3 then
      s6.setFrame f { s6.frame f with events := (s6.frame f).events ++ [(4, 0)] }
    else s6
  s7.remoteFound f id (.crow v1.cls place v1.members (if counts then v1.report else []))

/-- An answer from a record. -/
def State.placeAnswer (s : State) (f id g : Nat) (r : List Byte) : State :=
  if !s.crwRun then s.crwAnswer f id none (refusal 3 0x02 false)
  else s.crwAnswer f id (some (g, r)) (s.verdict (s.head f).shim r)

/-- The way of group g becomes the most recently used. -/
def State.cacheUse (s : State) (g : Nat) : State :=
  let l := tget [] s.crw.cache (g % 8192)
  s.setCache (g % 8192) ((l.filter fun p => p.1 == g) ++ l.filter fun p => p.1 != g)

/-- A call is taken up (R199, R211 to R214) (DEDUCED, unsafe: log entry 59). -/
def State.crwCall (s0 : State) (f id : Nat) : State :=
  let s := (s0.count evCrwCalls 0 0).setRemote f id fun r => { r with taken := true }
  let h := s.head f
  let b := h.shim
  let c := s.shimCheck h.shimVer b
  if !s.crwRun then s.crwAnswer f id none (refusal 3 0x02 false)
  else if h.shimVer = 0 then s.crwAnswer f id none (refusal 7 0x41 false)
  else if c ≠ 0 then s.crwAnswer f id none (refusal 5 c false)
  else if 4 ≤ shimOp b then s.crwAnswer f id none (refusal 7 0x40 false)
  else
    let g := s.groupOf (keyHash (s.rd64 crwKseedLo) (shimKey b))
    let s1 := if (s.cached g).isSome then s.cacheCheck g else s
    match s1.cached g with
    | some r => (((s1.cacheUse g).count evCrwCacheHit 0 0).placeAnswer f id g r)
    | none =>
      let s2 := s1.count evCrwCacheMiss 0 0
      if s2.crw.missQ.any fun p => p.1 == g then
        { s2 with crw := { s2.crw with missQ := s2.crw.missQ.map fun p =>
          if p.1 = g then (g, p.2 ++ [(f, id)]) else p } }
      else if 4096 ≤ s2.crw.missQ.length then s2.crwAnswer f id none (refusal 6 0x32 false)
      else { s2 with crw := { s2.crw with missQ := s2.crw.missQ ++ [(g, [(f, id)])] } }
/-- The calls that wait in slice k, as (lookup, frame). -/
def State.callsOf (s : State) (k : Nat) : List (Nat × Nat) :=
  (s.framesOf k).flatMap fun p => (p.2.head.remote.filter fun r => r.crow && !r.taken).map fun r => (r.id, p.1)

/-- The oldest of the calls. -/
def oldestCall (l : List (Nat × Nat)) : Option (Nat × Nat) :=
  l.foldl (fun best c => match best with
    | none => some c
    | some b => if c.1 < b.1 then some c else some b) none

/-- CROWSNEST_CALL (R212): the oldest call of the next slice that has one. -/
def execCrowsnestCall (s : State) : Host.Outcome State Fault Refusal :=
  let order := (upto 16).map fun i => (s.crw.rr + 1 + i) % 16
  match order.findSome? fun k => (oldestCall (s.callsOf k)).map fun c => (k, c) with
  | none => .next s
  | some (k, id, f) => .next ({ s with crw := { s.crw with rr := k } }.crwCall f id)

/-- CALL_TIMEOUT (R212): the call of frame f that joins at stage j has not been taken up in 8 core
cycles. -/
def execCallTimeout (f j : Nat) (s : State) : Host.Outcome State Fault Refusal :=
  match (s.head f).remote.find? fun r => r.join == j && r.crow && !r.taken with
  | none => .next s
  | some r => .next (s.crwAnswer f r.id none (refusal 6 0x30 false))

/-- A call still waits for its answer. -/
def State.callWaits (s : State) (f id : Nat) : Bool :=
  s.hasFrame f && (s.head f).remote.any fun r => r.id == id && r.found.isNone && r.answer.isNone

/-- CACHE_MISS_FILL (R211): the record of group g arrives from Cellar. -/
def execCacheMissFill (g : Nat) (s : State) : Host.Outcome State Fault Refusal :=
  match s.crw.missQ.find? fun p => p.1 == g with
  | none => .next s
  | some (_, calls) =>
    let r := { s with crw := { s.crw with missQ := s.crw.missQ.filter fun p => p.1 != g } }.recFromCellar g
    match r.2 with
    | some b =>
      .next ((r.1.cacheFill g b).each calls fun t c => if t.callWaits c.1 c.2 then t.placeAnswer c.1 c.2 g b else t)
    | none => .next (r.1.each calls fun t c => if t.callWaits c.1 c.2 then t.remoteFound c.1 c.2 .error else t)

/-- CRW_CACHE_SCRUB (R210): the record of group g is read in the cache; `e` is what the check finds. -/
def execCrwCacheScrub (g : Nat) (e : Ecc) (s : State) : Host.Outcome State Fault Refusal :=
  .next (if (s.cached g).isSome then (s.eccFlag .crwCache g e).cacheCheck g else s)

/-! ## Partner state (R59, R204) -/

/-- PARTNER_STATE_POST: the oldest change that port n has posted takes effect in Crowsnest. -/
def execPartnerStatePost (n : Nat) (s : State) : Host.Outcome State Fault Refusal :=
  let q := s.port n
  match q.posts with
  | [] => .next s
  | p :: rest =>
    let s1 := s.setPort n { q with posts := rest }
    let s2 := { s1 with crw := { s1.crw with peers := tput s1.crw.peers n p } }
    let wrong := s.crw.roster.filter fun e =>
      e.2.valid && !e.2.hsrc && e.2.kind == 1 && e.2.dest == n && e.1 != p.target
    .next (if p.up then s2.countBy evCrwTgtMismatch n 0 wrong.length else s2)

/-- LOAD_SAMPLE_RECEIVE (R325): the samples of slice sl replace the previous values. -/
def execLoadSampleReceive (sl : Nat) (s : State) : Host.Outcome State Fault Refusal :=
  match tfind s.crw.flying sl with
  | none => .next s
  | some l =>
    let loads := (upto 256).foldl (fun m i => tset 0 m (256 * sl + i) (l.getD i 0)) s.crw.loads
    .next { s with crw := { s.crw with loads := loads, flying := tdel s.crw.flying sl } }

/-! ## Commands (R202, R232) -/

/-- The bytes of CRW_DATA. -/
def State.crwBuf (s : State) (n : Nat) : List Byte := (natLe n (s.rdWide (crwData 0) 48))

/-- Bytes put into CRW_DATA from word 0 on. -/
def State.putCrwBuf (s : State) (bs : List Byte) : State := s.wrWide (crwData 0) (bs.length / 4) (leNat bs)

def State.rosterAddr (s : State) (id : Nat) : Nat := s.rd64 crwRosterBaseLo + 32 * id
def State.rosterCount (s : State) : Nat := s.rf crwRosterCount 16 0

/-- The whole roster as Cellar holds it, ids rising; `none` where an entry cannot be read. -/
def State.rosterRead (s : State) : State × Option (List (List Byte)) :=
  let r := s.celRead 0x11 (s.rosterAddr 0) (32 * s.rosterCount)
  (r.1, r.2.map fun b => (upto s.rosterCount).map fun i => slice b (32 * i) 32)

/-- The targets of a roster. -/
def State.rankEnts (s : State) (l : List (List Byte)) : List RankEnt :=
  ((upto l.length).map fun i => s.rankOf i (l.getD i [])).filter fun e => entValid (l.getD e.id [])

/-- OP 6: a record keeps to R232. -/
def State.groupOk (s : State) (b : List Byte) : Bool :=
  let st := leNat (slice b 100 4)
  let mig := rMig b
  let okList (base n : Nat) : Bool := (upto 24).all fun i =>
    let e := rEntry b base i
    if i < n then decide (e ≠ 0xFFFF ∧ e < s.rosterCount) else e == 0xFFFF
  decide (rCurLen b ≤ 24 ∧ rPendLen b ≤ 24) && okList 0 (rCurLen b) && okList 48 (rPendLen b) &&
    !(rState b != 0 && rCurLen b == 0) && decide (st < 2 ^ 12) && decide (mig < 2 ^ 13) && bits mig 7 2 == 0

/-- A Crowsnest command; the answer is its result. -/
def State.crwRunCmd (s : State) (op a : Nat) : State × Nat :=
  let d0 := s.rdN (crwData 0)
  let t := s.tgt a
  let put (x : CrwTgt) : State := { s with crw := { s.crw with roster := tput s.crw.roster a x } }
  if (1 ≤ op ∧ op ≤ 4 ∧ s.rosterCount ≤ a) ∨ ((op = 5 ∨ op = 6 ∨ op = 8) ∧ s.crwGroups ≤ a) then (s, 1)
  else match op with
  | 1 =>
    let b := s.crwBuf 32
    if s.crw.build.isSome then (s, 4)
    else if !(s.entOk b) then (s, 2)
    else ((put (tgtOf b)).celWrite 0x11 (s.rosterAddr a) b, 0)
  | 2 =>
    let r := s.celRead 0x11 (s.rosterAddr a) 32
    (match r.2 with
     | some b => (r.1.putCrwBuf b, 0)
     | none => (r.1, 6))
  | 3 =>
    if !t.valid then (s, 8) else if !t.hsrc then (s, 3) else if 5 ≤ d0 % 8 then (s, 7)
    else (put { t with health := d0 % 8 }, 0)
  | 4 =>
    if !t.valid then (s, 8) else if t.kind = 1 then (s, 3)
    else ({ s with crw := { s.crw with setLoads := tput s.crw.setLoads a (d0 % 65536) } }, 0)
  | 5 =>
    let r := s.recRead a
    (match r.2 with
     | some b => (r.1.putCrwBuf b, 0)
     | none => (r.1, 6))
  | 6 =>
    let b := s.crwBuf 108
    if s.groupOk b then (s.recWrite a b, 0) else (s, 5)
  | 7 =>
    let n := a % 256
    if n = 0 ∨ 168 < n then (s, 1)
    else
      let h := keyHash (s.rd64 crwKseedLo) (s.crwBuf n)
      (s.putCrwBuf (natLe 8 h ++ natLe 4 (s.groupOf h)), 0)
  | 8 =>
    let r := s.rosterRead
    (match r.2 with
     | some l =>
       let x := s.ranked (s.rankEnts l) a
       (r.1.putCrwBuf (listBytes x ++ natLe 4 x.length), 0)
     | none => (r.1, 6))
  | _ => (s, 0)

/-- A write of CRW_CMD. -/
def State.crwCmdWrite (s : State) (v : Word) : State :=
  let op := fld v 30 27
  if s.rb crwCmd 31 then s.setB crwCmdStatus 0
  else if 9 ≤ op then s.setB crwCmdStatus 1
  else
    let s1 := s.plainWrite crwCmd v
    if op = 0 then s1 else
    let r := s1.crwRunCmd op (fld v 21 0)
    r.1.wf crwCmdStatus 31 24 r.2

def crwWord (op : Nat) (v : Word) : Word := setFld v 30 27 op

/-- ROSTER_WRITE (R202). -/
def execRosterWrite (v : Word) (s : State) : Host.Outcome State Fault Refusal := .next (s.crwCmdWrite (crwWord 1 v))
/-- ROSTER_READ (R232). -/
def execRosterRead (v : Word) (s : State) : Host.Outcome State Fault Refusal := .next (s.crwCmdWrite (crwWord 2 v))
/-- SET_HEALTH (R204, R232). -/
def execSetHealth (v : Word) (s : State) : Host.Outcome State Fault Refusal := .next (s.crwCmdWrite (crwWord 3 v))
/-- SET_LOAD (R219, R232). -/
def execSetLoad (v : Word) (s : State) : Host.Outcome State Fault Refusal := .next (s.crwCmdWrite (crwWord 4 v))
/-- GROUP_READ (R232). -/
def execGroupRead (v : Word) (s : State) : Host.Outcome State Fault Refusal := .next (s.crwCmdWrite (crwWord 5 v))
/-- GROUP_WRITE (R232). -/
def execGroupWrite (v : Word) (s : State) : Host.Outcome State Fault Refusal := .next (s.crwCmdWrite (crwWord 6 v))
/-- PROBE (R200, R232). -/
def execProbe (v : Word) (s : State) : Host.Outcome State Fault Refusal := .next (s.crwCmdWrite (crwWord 7 v))
/-- RANK (R207, R232). -/
def execRank (v : Word) (s : State) : Host.Outcome State Fault Refusal := .next (s.crwCmdWrite (crwWord 8 v))

/-! ## Configuration (R233) -/

/-- A value of CRW_CFG may set RUN. -/
def State.crwCfgOk (s : State) (v : Word) : Bool :=
  let g := fld v 30 26
  let lv := fld v 25 23
  let r := fld v 22 19
  let w := fld v 18 14
  let n := fld v 13 9
  let pgt := s.rd64 crwPgtBaseLo
  let ros := s.rd64 crwRosterBaseLo
  decide (10 ≤ g ∧ g ≤ 22 ∧ 1 ≤ lv ∧ lv ≤ 4 ∧ 1 ≤ r ∧ r ≤ 8 ∧ w ≠ 1 ∧ w ≤ 24 ∧ 1 ≤ n ∧ n ≤ 24 ∧ r ≤ n ∧ w ≤ n) &&
    pgt % (128 * 2 ^ g) == 0 && s.inPart 1 pgt (128 * 2 ^ g) && ros % 2 ^ 21 == 0 &&
    s.inPart 1 ros (32 * s.rosterCount) && decide (1 ≤ s.rosterCount ∧ s.rosterCount ≤ 65536)

/-- A write of CRW_CFG. -/
def State.crwCfgWrite (s : State) (v : Word) : State :=
  if s.crwRun ∧ fld v 30 9 ≠ s.rf crwCfg 30 9 then s.setB crwErr 3
  else if v.getLsbD 31 ∧ !s.crwRun ∧ !(s.crwCfgOk v) then s.setB crwErr 3
  else s.plainWrite crwCfg v

/-- CRW_CFG_WRITE (R233). -/
def execCrwCfgWrite (v : Word) (s : State) : Host.Outcome State Fault Refusal := .next (s.crwCfgWrite v)

end Sys2Proof.Machine
end

