-- ==== Sys2Proof/Machine/CrowJobs.lean ====
section
/-! DEFINITION. The map builder and the migration jobs of Crowsnest (R228 to R231, R248 to R256), and the
registers of window 0x0A. -/

namespace Sys2Proof.Machine

/-! ## Builds (R228 to R231) -/

def State.setBuild (s : State) (b : Option CrwBuild) : State := { s with crw := { s.crw with build := b } }

/-- The build's status word. -/
def State.buildStatus (s : State) (b : CrwBuild) (st err : Nat) : State :=
  s.jobStatus 0x11 b.stAddr (st * 2 ^ 28 + err * 2 ^ 16 + b.tag) b.low b.changed b.plan

/-- The build ends. -/
def State.buildEnd (s : State) (b : CrwBuild) (st err : Nat) : State :=
  (((s.buildStatus b st err).putB crwBuildCtl 31 false).setBuild none).pulse 1922

/-- R203 holds over the valid entries. -/
def treeOk (levels : Nat) (es : List RankEnt) : Bool :=
  es.all fun a => es.all fun b => (upto levels).all fun i =>
    !(a.domain (i + 1) == b.domain (i + 1)) || (upto i).all fun j => a.domain (j + 1) == b.domain (j + 1)

/-- No node has more than 256 children of weight above 0. -/
def fanoutOk : Nat → Nat → List RankEnt → Bool
  | 0, _, es => decide (es.length ≤ 256)
  | n + 1, l, es =>
    decide ((domainsAt l es).length ≤ 256) &&
      (domainsAt l es).all fun d => fanoutOk n (l + 1) (es.filter fun e => e.domain l == d)

/-- The first roster check that fails (R228), ERROR 0x06 to 0x09; 0 where none does. -/
def State.rosterError (s : State) (l : List (List Byte)) : Nat :=
  let es := s.rankEnts l
  if es.all fun e => e.weight == 0 then 6
  else if !(treeOk s.crwLevels es) then 7
  else if !(fanoutOk s.crwLevels 1 (es.filter fun e => e.weight != 0)) then 8
  else if !(l.all s.entOk) then 9
  else 0

/-- A build's start is refused with an ERROR. -/
def State.buildRefuse (s : State) (e : Nat) : State := (s.wf crwBuildCtl 23 16 e).setB crwBuildCtl 28

/-- OP 1 of CRW_BUILD_CTL. -/
def State.buildStart (s : State) (initial : Bool) (tag : Nat) : State :=
  let first := s.rf crwBuildFirst 21 0
  let count := s.rf crwBuildCount 22 0
  let limit := s.rf crwBuildLimit 22 0
  let out := s.rd64 crwBuildOutLo
  let st := s.rd64 crwBuildStatusLo
  let idle := s.rf crwMigStatus 2 0 == 0
  let noThreads := s.rf crwBuildInfo 8 0 = 0 ∨ !s.attic.boot.reservedStarted
  let b : CrwBuild := ⟨initial, first, count, first, [], 0, limit, out, st, tag, 0, 0, []⟩
  if s.crw.build.isSome then s.buildRefuse 1
  else if (initial ∧ s.crwRun) ∨ !idle then s.buildRefuse 2
  else if s.crwGroups < first + count then s.buildRefuse 3
  else if st % 16 ≠ 0 ∨ (!initial ∧ 0 < limit ∧ (out % 128 ≠ 0 ∨ !(s.inPart 1 out (128 * limit) || s.inPart 3 out (128 * limit)))) then
    s.buildRefuse 4
  else if 2 ^ 22 < limit then s.buildRefuse 5
  else if count = 0 then (if noThreads then s.buildRefuse 0x0B else (s.buildStatus b 1 0).pulse 1922)
  else
    let r := s.rosterRead
    match r.2 with
    | none => r.1.buildRefuse 0x0A
    | some l =>
      let e := s.rosterError l
      if e ≠ 0 then r.1.buildRefuse e
      else if noThreads then r.1.buildRefuse 0x0B
      else
        let b1 := { b with roster := s.rankEnts l }
        ((r.1.setB crwBuildCtl 31).setBuild (some b1)).buildStatus b1 0 0

/-- OP 2: the build ends after the groups in hand. -/
def State.buildAbort (s : State) : State :=
  match s.crw.build with
  | some b => s.buildEnd b 3 0
  | none => s

/-- A write of CRW_BUILD_CTL. -/
def State.buildCtlWrite (s : State) (v : Word) : State :=
  let op := fld v 30 29
  if op = 3 then s else
  let s1 := s.plainWrite crwBuildCtl v
  if op = 1 then s1.buildStart (v.getLsbD 27) (fld v 15 0) else if op = 2 then s1.buildAbort else s1

/-- BUILD_START (R228). -/
def execBuildStart (v : Word) (s : State) : Host.Outcome State Fault Refusal :=
  .next (s.buildCtlWrite (setFld v 30 29 1))
/-- BUILD_ABORT (R229). -/
def execBuildAbort (v : Word) (s : State) : Host.Outcome State Fault Refusal :=
  .next (s.buildCtlWrite (setFld v 30 29 2))

/-- The positions at which two lists differ. -/
def listDiff (a b : List Nat) : List Nat := (upto 24).filter fun i => a.getD i 0xFFFF != b.getD i 0xFFFF

/-- A plan record (R230). -/
def planRecord (g : Nat) (cur pend : List Nat) : List Byte :=
  let d := listDiff cur pend
  natLe 4 g ++ natLe 4 (cur.length + pend.length * 2 ^ 5 + d.length * 2 ^ 10) ++
    natLe 4 ((d.map fun i => 2 ^ i).sum) ++ natLe 4 0 ++ listBytes cur ++ listBytes pend ++ List.replicate 16 0

/-- The lowest group from `low` on that is not among those built above it. -/
def lowFrom : Nat → Nat → List Nat → Nat
  | 0, low, _ => low
  | n + 1, low, ahead => if shas ahead low then lowFrom n (low + 1) ahead else low

/-- A group is written: the build goes on, or ends. -/
def State.buildNext (s : State) (b : CrwBuild) (g : Nat) : State :=
  let ahead := sadd b.ahead g
  let low := lowFrom (ahead.length + 1) b.low ahead
  let b1 := { b with low := low, ahead := ahead.filter fun k => decide (low ≤ k), done := b.done + 1 }
  let s1 := s.count evCrwBuildGroups 0 0
  if b.count ≤ b1.done then s1.buildEnd b1 1 0
  else
    let s2 := s1.setBuild (some b1)
    if b1.done % 65536 = 0 then s2.buildStatus b1 0 0 else s2

/-- A record that an initial build replaces: it is read for its MIG word alone, and a bad one is no event. -/
def State.recPeek (s : State) (g : Nat) : State × Option (List Byte) :=
  match s.cached g with
  | some b => (s, some b)
  | none =>
    let r := s.celRead 0x11 (s.recAddr g) 128
    (r.1, r.2.bind fun b => if recOk g b then some b else none)

/-- BUILD_GROUP (R228 to R230): the build finishes group g. The MIG word of a record that cannot be read is a
free value in its defined fields (DESIGN CHOICE, safe: log entry 48). -/
def execBuildGroup (g : Nat) (s : State) : Host.Outcome State Fault Refusal :=
  match s.crw.build with
  | none => .next s
  | some b =>
    if g < b.low ∨ b.first + b.count ≤ g ∨ shas b.ahead g then .next s else
    let l := s.ranked b.roster g
    let r := if b.initial then s.recPeek g else s.recRead g
    if b.initial then
      let q := match r.2 with
        | some x => (rMig x, r.1)
        | none => (let p := r.1.free 7; (p.1 / 4 % 25 * 2 ^ 8 + p.1 % 4, p.2))
      .next ((q.2.recWrite g (recBody l [] (s.rdN crwEpoch) (if l.isEmpty then 0 else 1) q.1)).buildNext b g)
    else
      match r.2 with
      | none => .next (r.1.buildEnd b 4 0x0A)
      | some x =>
        let cur := rCur x
        let changed := !(listDiff cur l).isEmpty
        if changed ∧ 0 < b.limit ∧ b.limit ≤ b.plan then .next (r.1.buildEnd b 2 0)
        else
          let s1 := if changed ∧ 0 < b.limit then r.1.celWrite 0x11 (b.out + 128 * b.plan) (planRecord g cur l) else r.1
          let b1 := { b with changed := b.changed + nat changed
                             plan := if changed ∧ 0 < b.limit then b.plan + 1 else b.plan }
          .next ((s1.recWrite g (recBody cur l (rEpoch x) (rState x) (rMig x))).buildNext b1 g)

/-! ## Migration (R248 to R256) -/

def State.migPhase (s : State) : Nat := s.rf crwMigStatus 2 0
def State.markBit (s : State) : Bool := s.rb crwMigStatus 3
def State.inFlight (s : State) (b : Nat) : Nat := s.rdN (crwMigInflight b)
def State.setMig (s : State) (j : Option CrwMig) : State := { s with crw := { s.crw with mig := j } }

def State.migWord (s : State) (j : CrwMig) (st left : Nat) : State :=
  s.jobStatus 0x11 j.stAddr (st * 2 ^ 28 + j.op * 2 ^ 26 + j.tag) j.next j.moved left

/-- The start of a migration job, or its refusal (R251). -/
def State.migStart (s : State) (op tag : Nat) : State :=
  let st := s.rd64 crwMigStatusAddrLo
  let ph := s.migPhase
  let e := if s.crw.mig.isSome then 1
    else if (op = 1 ∧ ph ≠ 0) ∨ (op ≠ 1 ∧ ph ≠ 2) then 2
    else if op = 2 ∧ s.rf crwMigLeft 22 0 ≠ 0 then 3
    else if op = 3 ∧ s.crw.marked then 4
    else if op = 1 ∧ s.rdN crwEpoch = 0xFFFFFFFF then 5
    else if st % 16 ≠ 0 then 6
    else if !s.crwRun then 7
    else if s.crw.build.isSome then 8
    else 0
  if e ≠ 0 then (s.wf crwMigCtl 23 16 e).setB crwMigCtl 28
  else
    let j : CrwMig := ⟨op, tag, st, 0, s.crwGroups, 0, false, 0⟩
    let s1 := ((s.setB crwMigCtl 31).wf crwMigStatus 2 0 (if op = 1 then 1 else if op = 2 then 3 else 4)).setMig (some j)
    let s2 := if op = 1 then { s1 with crw := { s1.crw with marked := false } } else s1
    s2.migWord j 0 0

/-- A write of CRW_MIG_CTL; a refused start changes nothing else. -/
def State.migCtlWrite (s : State) (v : Word) : State :=
  let op := fld v 30 29
  let s1 := s.plainWrite crwMigCtl v
  if op = 0 then s1 else s1.migStart op (fld v 15 0)

/-- MIG_BEGIN (R251). -/
def execMigBegin (v : Word) (s : State) : Host.Outcome State Fault Refusal := .next (s.migCtlWrite (setFld v 30 29 1))
/-- MIG_FINISH (R251). -/
def execMigFinish (v : Word) (s : State) : Host.Outcome State Fault Refusal := .next (s.migCtlWrite (setFld v 30 29 2))
/-- MIG_ABORT (R251). -/
def execMigAbort (v : Word) (s : State) : Host.Outcome State Fault Refusal := .next (s.migCtlWrite (setFld v 30 29 3))

/-- The move that a step of job `op` makes of a record (R250): the new body, what LEFT and MOVED gain. -/
def migMove (op : Nat) (x : List Byte) : Option (List Byte × Int × Nat) :=
  let cur := rCur x
  let pend := rPend x
  let e := rEpoch x
  let st := rState x
  let d := (listDiff cur pend).length
  if op = 1 ∧ st = 1 ∧ rPendLen x ≠ 0 then
    if d ≠ 0 then some (recBody cur pend e 2 (d * 2 ^ 8 + 1), 1, 1) else some (recBody cur pend e 3 0, 0, 0)
  else if op = 2 ∧ st = 3 then some (recBody pend [] (e + 1) 1 0, 0, 1)
  else if op = 2 ∧ st = 1 then some (recBody cur pend (e + 1) 1 (rMig x), 0, 0)
  else if op = 3 ∧ st = 2 then some (recBody cur [] e 1 0, -1, 1)
  else if op = 3 ∧ st = 3 ∧ !((rMig x).testBit 0) then some (recBody cur [] e 1 0, 0, 1)
  else none

/-- CRW_MIG_LEFT changed. -/
def State.addLeft (s : State) (d : Int) : State := s.wrN crwMigLeft ((s.rf crwMigLeft 22 0 : Int) + d).toNat

/-- The job ends with STATE st and the phase moves on (R251, R252). -/
def State.migEnd (s : State) (j : CrwMig) (st : Nat) : State :=
  let s1 := s.migWord j st (if st = 2 then s.inFlight j.oldBit else 0)
  let s2 := ((s1.putB crwMigCtl 31 false).setMig none).wf crwMigStatus 2 0 (if j.op = 1 then 2 else 0)
  (if j.op = 2 then s2.wrN crwEpoch (min 0xFFFFFFFF (s.rdN crwEpoch + 1)) else s2).pulse 1923

/-- The mark bit flips, and the job drains (R252). -/
def State.markFlip (s : State) (j : CrwMig) : State :=
  let j1 := { j with draining := true, oldBit := nat s.markBit }
  ((s.putB crwMigStatus 3 (!s.markBit)).setMig (some j1)).migWord j1 3 0

/-- MIG_STEP (R250): the job steps its next group. -/
def execMigStep (s : State) : Host.Outcome State Fault Refusal :=
  match s.crw.mig with
  | none => .next s
  | some j =>
    if j.draining then .next s else
    let r := s.recRead j.next
    let mv := r.2.bind (migMove j.op)
    let s1 := match mv with
      | some (b, d, _) => (r.1.recWrite j.next b).addLeft d
      | none => r.1
    let j1 := { j with next := j.next + 1, moved := j.moved + (match mv with | some (_, _, n) => n | none => 0) }
    if j1.stop ≤ j1.next then .next (s1.markFlip j1)
    else
      let s2 := s1.setMig (some j1)
      .next (if j1.next % 65536 = 0 then s2.migWord j1 0 0 else s2)

/-- MIG_DRAIN_END (R252): the in-flight count of the old mark bit is 0. -/
def execMigDrainEnd (s : State) : Host.Outcome State Fault Refusal :=
  match s.crw.mig with
  | none => .next s
  | some j => .next (if j.draining ∧ s.inFlight j.oldBit = 0 then s.migEnd j 1 else s)

/-- MIG_DRAIN_TIMEOUT (R252): DRAIN_MS has passed before the count is 0. -/
def execMigDrainTimeout (s : State) : Host.Outcome State Fault Refusal :=
  match s.crw.mig with
  | none => .next s
  | some j =>
    .next (if j.draining ∧ s.inFlight j.oldBit ≠ 0 then (s.migEnd j 2).count evCrwMigDrainTimeout 0 0 else s)

/-- A write of CRW_MIG_MARK (R253). -/
def State.migMark (s : State) (v : Word) : State :=
  let g := fld v 21 0
  let res (t : State) (n : Nat) : State := t.wf crwMigStatus 10 8 n
  if s.rb crwMigStatus 7 then res s 5
  else if s.migPhase ≠ 2 then res s 1
  else if s.crwGroups ≤ g then res s 3
  else
    let r := s.recRead g
    match r.2 with
    | none => res r.1 4
    | some x =>
      if rState x ≠ 2 then res r.1 2
      else
        let s1 := ((r.1.recWrite g (recBody (rCur x) (rPend x) (rEpoch x) 3 (Nat.lor (rMig x) 2))).addLeft (-1)).count
          evCrwMigMarked 0 0
        res { s1 with crw := { s1.crw with marked := true } } 0

/-- MIG_MARK (R253). -/
def execMigMark (v : Word) (s : State) : Host.Outcome State Fault Refusal := .next (s.migMark v)

/-! ## Registers (R233, R266) -/

/-- A write of a Crowsnest register. -/
def State.crwRegWrite (s : State) (a : Nat) (v : Word) : State :=
  if a = crwCfg then s.crwCfgWrite v
  else if a = crwCmd then s.crwCmdWrite v
  else if a = crwBuildCtl then s.buildCtlWrite v
  else if a = crwMigCtl then s.migCtlWrite v
  else if a = crwMigMark then s.migMark v
  else if a = crwMigCfg then
    if 1 ≤ fld v 15 0 ∧ fld v 15 0 ≤ 60000 then s.plainWrite a v else s.setB crwErr 3
  else if s.rb crwCmd 31 ∧ crwData 0 ≤ a ∧ a ≤ crwData 47 then s.setB crwCmdStatus 0
  else s.plainWrite a v

end Sys2Proof.Machine
end

