-- ==== Sys2Proof/Machine/BellOps.lean ====
section
/-! DEFINITION. Bellboard's operations (R425 to R439): the conditions of the edge-latched sources,
arbitration, claim, completion, and vectors raised towards the host. -/

namespace Sys2Proof.Machine

/-! ## Conditions (R426, R499, R531) -/

/-- The first addresses of the error registers of a unit whose RC bits drive its summary source
(DEDUCED, unsafe: log entry 34). -/
def errBase (w : Nat) : Nat :=
  match w with
  | 0x01 => mstErr
  | 0x03 => dwyFnErr 0
  | 0x04 => belErr
  | 0x05 => pchPortErr 0
  | 0x06 => thrSliceErr 0
  | 0x07 => hlwSliceErr 0
  | 0x08 => galSliceErr 0
  | 0x09 => lrdErr
  | 0x0A => crwErr
  | 0x0B => chkErr
  | 0x0C => stwErr
  | 0x0D => shtErr
  | 0x0E => lftErr
  | 0x0F => cupErr
  | 0x10 => celErr
  | _ => 0

/-- An RC bit of the error register of window `w` is set. -/
def State.errSummary (s : State) (w : Nat) : Bool :=
  s.regs.any fun p =>
    match regAt p.1 with
    | some (r, _, _) => r.base == errBase w && errBase w != 0 && (p.2 &&& BitVec.ofNat 32 r.rc) != 0
    | none => false

/-- The function that owns global queue `q` (R398). -/
def State.fnOfQ (s : State) (q : Nat) : Option Nat :=
  (upto 64).find? fun f =>
    let b := s.rf (dwyFnQp f) 13 0
    decide (b ≤ q ∧ q < b + s.rf (dwyFnQp f) 30 16)

/-- CQ_FULL is set on a queue of function `f`. -/
def State.anyCqFull (s : State) (f : Nat) : Bool :=
  s.regs.any fun p =>
    match regAt p.1 with
    | some (r, q, _) => r.base == dwyQpStatus 0 && p.2.getLsbD 28 && s.fnOfQ q == some f
    | none => false

/-- A WRAP bit is set. -/
def State.anyWrap (s : State) : Bool :=
  s.regs.any fun p => decide (cntWrap 0 ≤ p.1 ∧ p.1 < cntWrap 0 + 0x20000) && p.2 != 0

/-- The current condition of an edge-latched source that watches a level; a source that pulses, a
reserved source and a message source have none. -/
def State.cond (s : State) (src : Nat) : Bool :=
  if src < 512 then s.rf (lftEngStatus src) 15 9 != 0
  else if src < 1024 then false
  else if src < 1088 then s.rd (dwyFnErr (src - 1024)) != 0
  else if src < 1152 then s.anyCqFull (src - 1088)
  else if src < 1216 then s.rf (cupFnErr (src - 1152)) 8 1 != 0
  else if src = 1216 then s.rb dwyHalt 31
  else if 1224 ≤ src ∧ src < 1248 then s.rb (cupPoolStatus ((src - 1224) / 3)) (27 + (src - 1224) % 3)
  else if src = 1280 then s.rd mstNotify != 0
  else if src = 1282 then s.rf mstStatus 31 30 != 0
  else if src = 1286 then s.anyWrap
  else if src = 1345 then s.rf atcBootStatus 31 28 == 9
  else if src = 1346 then s.rb atcBootStatus 26
  else if src = 1351 then s.rf atcCtrl 31 30 == 3
  else if 1408 ≤ src ∧ src < 1920 then s.rd (pchPortErr (src - 1408)) != 0
  else if 1936 ≤ src ∧ src < 1953 then s.errSummary (src - 1936)
  else false

/-- The sources whose condition has fallen are no longer held as seen, so that the next rise is one
(R427). -/
def State.condPrune (s : State) : State :=
  { s with bell := { s.bell with condSeen := s.bell.condSeen.filter s.cond } }

/-! ## Pending, mask, active (R429) -/

def State.isPending (s : State) (src : Nat) : Bool := s.rb (belPend (src / 32)) (src % 32)
def State.isMasked (s : State) (src : Nat) : Bool := s.rb (belMask (src / 32)) (src % 32)
def State.isActive (s : State) (src : Nat) : Bool := s.rb (belActive (src / 32)) (src % 32)
def State.putPending (s : State) (src : Nat) (b : Bool) : State := s.putB (belPend (src / 32)) (src % 32) b

/-- The pending sources, lowest first. -/
def State.pendingSources (s : State) : List Nat :=
  s.regs.flatMap fun p =>
    if belPend 0 ≤ p.1 ∧ p.1 < belPend 0 + 0x200 then
      ((upto 32).filter fun i => p.2.getLsbD i).map fun i => (p.1 - belPend 0) / 4 * 32 + i
    else []

/-! ## Routes (R430, R439) -/

/-- The route word is read: a single-bit error is corrected, an uncorrectable one leaves the source
unrouted until the route is rewritten. -/
def State.routeCheck (s : State) (src : Nat) : State :=
  match s.eccOf .belRoute src with
  | .ok => s
  | .corr => (((s.eccClear .belRoute src).setB belErr 1).report 0x2D 0 (BitVec.ofNat 32 src)).count evBelEccCorr 0 0
  | .uncorr =>
    let s1 := s.eccClear .belRoute src
    let s2 := { s1 with bell := { s1.bell with unrouted := sadd s1.bell.unrouted src } }
    (((s2.setB belErr 2).wrN belErrLoc src).report 0x2E 0 (BitVec.ofNat 32 src)).count evBelEccUncorr 0 0

/-- The target number of source `src`: engine, 512 for the Attic controller, 513 + f for function f. -/
def State.targetOf (s : State) (src : Nat) : Option Nat :=
  if shas s.bell.unrouted src then none else
  let k := s.rf (belRoute src) 27 25
  let i := s.rf (belRoute src) 24 16
  if k = 1 then some i else if k = 2 then some 512 else if k = 3 then some (513 + i) else none

/-- The state of a function whose configuration nothing has written: enabled where it is a physical
function (PRESUMED, unsafe: log entry 11). -/
def DwyFn.init (f : Nat) : DwyFn :=
  { enabled := decide (f < 2), msixEn := false, msixMask := false, busMaster := false, pmeEn := false,
    asleep := false }

def State.fn (s : State) (f : Nat) : DwyFn := tget (DwyFn.init f) s.dwy.fns f

/-- The target can be presented with a source at all (R438). -/
def State.targetOpen (s : State) (t : Nat) : Bool :=
  if t < 512 then s.rf (lftEngStatus t) 31 30 == 0
  else if t = 512 then s.rf atcCtrl 31 30 == 1
  else (s.fn (t - 513)).enabled

/-- A source is a candidate for target `t` (R431). -/
def State.candidate (s : State) (t src : Nat) : Bool :=
  s.isPending src && !(s.isMasked src) && s.targetOf src == some t && !(s.rb (belTgt t) 31) && s.targetOpen t

/-- The candidate of highest PRIO; of equals the one of lowest number. -/
def State.winner (s : State) (t : Nat) : Option Nat :=
  (s.pendingSources.filter (s.candidate t)).foldl (fun best src =>
    match best with
    | none => some src
    | some b => if s.rf (belRoute b) 31 28 < s.rf (belRoute src) 31 28 then some src else some b) none

/-! ## Claim and completion (R432, R434) -/

/-- A source is claimed: its pending bit clears and it becomes active. -/
def State.claim (s : State) (t src : Nat) : State :=
  let s1 := (s.putPending src false).setB (belActive (src / 32)) (src % 32)
  (s1.wrN (belTgt t) (2 ^ 31 + src)).count evBelClaim src 0

/-- The active source of target `t` completes; a condition that is still there is presented again. -/
def State.complete (s : State) (t : Nat) : State :=
  if !(s.rb (belTgt t) 31) then s else
  let src := s.rf (belTgt t) 11 0
  let s1 := (s.putB (belActive (src / 32)) (src % 32) false).wrN (belTgt t) 0
  if s1.cond src && !(s1.isPending src) then (s1.putPending src true).count evBelRearm src 0 else s1

/-! ## Towards the host (R436, R437) -/

/-- MSI-X vector `vec` of function `f` is raised; a further raise merges into the one that waits. -/
def State.raiseVector (s : State) (f vec : Nat) : State :=
  let k := f * 2048 + vec
  if shas s.bell.msix k then s.count evBelMsixCoalesced f 0
  else { s with bell := { s.bell with msix := sadd s.bell.msix k } }

/-- The sources active for function `f` complete, and its raised vectors are discarded (R438). -/
def State.bellFnReset (s : State) (f : Nat) : State :=
  let s1 := s.complete (513 + f)
  { s1 with bell := { s1.bell with
      msix := s1.bell.msix.filter fun k => k / 2048 != f
      msixLast := tclear s1.bell.msixLast (f * 2048) (f * 2048 + 2048) } }

/-- A write of a bell number (R428). -/
def State.bellPull (s : State) (v : Word) : State :=
  if fld v 31 10 ≠ 0 then s.count evBelBellBad 0 0 else
  let src := 3072 + fld v 9 0
  if s.isPending src then s.count evBelBellCoalesced 0 0 else s.putPending src true

end Sys2Proof.Machine
end

