-- ==== Sys2Proof/Machine/LoftsOps.lean ====
section
/-! DEFINITION. Lofts' operations (R332 to R372): threads and their registers, loft memory and its
errors, the fault ladder, engine stop and restart, thread reset, and the choice of a ticket's
thread. -/

namespace Sys2Proof.Machine

/-! ## Threads (R332 to R334) -/

/-- A thread that nothing has set: STOPPED, every register 0. -/
def Thread.init : Thread :=
  { x := [], pc := 0, finfo := 0, vret := 0, timer := 0, staging := [], letters := [], queue := [],
    ticket := none, state := 0, wait := none, inVector := false, tail := false }

def Engine.init : Engine := { flags := 0, dlFired := false }

/-- The thread number of the Attic controller. -/
def atcThread : Nat := 4096

def State.thr (s : State) (t : Nat) : Thread := tget Thread.init s.lft.threads t
def State.eng (s : State) (e : Nat) : Engine := tget Engine.init s.lft.engines e

/-- Register x`i`; x0 reads as zero. -/
def Thread.get (th : Thread) (i : Nat) : Word64 := if i = 0 then 0 else tget 0 th.x i

/-- Register x`i` written; writes to x0 are discarded. -/
def Thread.set (th : Thread) (i : Nat) (v : Word64) : Thread :=
  if i = 0 then th else { th with x := tset 0 th.x i v }

/-- Loft `l` belongs to the map builder (R372). -/
def State.loftReserved (s : State) (l : Nat) : Bool :=
  let n := s.rf lftCrwCfg 18 16
  let f := s.rf lftCrwCfg 5 0
  decide (f ≤ l ∧ l < f + n)

def State.thrReserved (s : State) (t : Nat) : Bool := s.loftReserved (t / 64)

/-- Engine `e` runs: RUNNING, or RESERVED for the builder. -/
def State.engRunning (s : State) (e : Nat) : Bool := s.rf (lftEngStatus e) 31 30 != 1

/-- No thread of loft `l` is RUNNABLE and none waits in an instruction other than wfe (R371). -/
def State.loftIdle (s : State) (l : Nat) : Bool :=
  (upto 64).all fun i =>
    let th := s.thr (64 * l + i)
    th.state != 1 && (th.state != 2 ||
      (match th.wait with
       | some w => w.wfe.isSome
       | none => true))

def gatedLoft (l : Nat) : Nat := if l < 32 then atcGatedLoftsLo else atcGatedLoftsHi

/-- Loft `l` is gated. -/
def State.loftGated (s : State) (l : Nat) : Bool := s.rb (gatedLoft l) (l % 32)

/-- In Dozing an idle loft gates (R371). -/
def State.gateLoft (s : State) (l : Nat) : State :=
  if s.rf atcPwrStatus 31 30 = 1 ∧ s.loftIdle l then s.setB (gatedLoft l) (l % 32) else s

/-- A gated loft runs again, counted as LFT_WAKE. -/
def State.wakeLoft (s : State) (l : Nat) : State :=
  if s.loftGated l then (s.putB (gatedLoft l) (l % 32) false).count evLftWake l 0 else s

/-- A thread replaced; LFT_ENG_STATUS shows which threads are FAULTED and HALTED, and the deadlock
detector re-arms when a thread is RUNNABLE (R361). -/
def State.setThr (s : State) (t : Nat) (th : Thread) : State :=
  let s1 := { s with lft := { s.lft with threads := tput s.lft.threads t th } }
  if t = atcThread then s1 else
  let e := t / 8
  let s2 := (s1.putB (lftEngStatus e) (8 + t % 8) (th.state == 4)).putB (lftEngStatus e) (t % 8) (th.state == 3)
  let s3 := if th.state = 1 ∧ (s2.eng e).dlFired then
      { s2 with lft := { s2.lft with engines := tput s2.lft.engines e { s2.eng e with dlFired := false } } }
    else s2
  if th.state = 1 then s3 else s3.gateLoft (t / 64)

/-- LFT_THR_STATUS (R374). -/
def Thread.status (th : Thread) : Word :=
  BitVec.ofNat 32 (th.pc * 2 ^ 17 + nat th.ticket.isSome * 2 ^ 16 + th.finfo.toNat % 256 * 2 ^ 8 + th.state)

/-! ## Loft memory (R336, R337, R367, R498) -/

/-- A place in memory that a thread reaches: engine-local, loft-shared, Attic controller memory, a
register, or an inbox that belongs to the ticket unit. -/
inductive LftRef where
  | loc (a : Nat)
  | sh (a : Nat)
  | atc (a : Nat)
  | reg (a : Nat)
  | noInbox
deriving DecidableEq, Repr

/-- An engine-local byte of engine `e`: the inbox of a thread that holds no ticket belongs to the
ticket unit (R346). -/
def State.locRef (s : State) (e a : Nat) : LftRef :=
  let t := e * 8 + a / 0x2000
  if 0x1800 ≤ a % 0x2000 ∧ a % 0x2000 < 0x1B00 ∧ (s.thr t).ticket = none then .noInbox
  else .loc (e * 65536 + a)

/-- Where thread `t` finds `n` bytes at address `a`; `none` where the access faults ACCESS. -/
def State.lftRef (s : State) (t a n : Nat) (rd wr : Bool) : Option LftRef :=
  if t = atcThread then
    if 0x20000 ≤ a ∧ a + n ≤ 0x40000 then some (.atc a)
    else if 0x80000000 ≤ a ∧ a + n ≤ 0x80000000 + 0x20000000 then some (.reg (a - 0x80000000))
    else none
  else
    let e := t / 8
    if a + n ≤ 0x2000 then some (s.locRef e (t % 8 * 0x2000 + a))
    else if 0x10000 ≤ a ∧ a + n ≤ 0x20000 ∧ t % 8 = 0 then some (s.locRef e (a - 0x10000))
    else if 0x40000 ≤ a ∧ a + n ≤ 0x7F000 ∧ a / 0x4000 = (a + n - 1) / 0x4000 then
      let p := lftPagePerm (t / 64) ((a - 0x40000) / 0x4000)
      if (!rd || s.rb p (e % 8)) && (!wr || s.rb p (8 + e % 8)) then some (.sh (t / 64 * 262144 + (a - 0x40000)))
      else none
    else none

/-- Bytes of memory read as they stand. -/
def State.refBytes (s : State) (r : LftRef) (n : Nat) : List Byte :=
  match r with
  | .loc a => memRead 0 s.lft.localMem a n
  | .sh a => memRead 0 s.lft.shared a n
  | .atc a => memRead 0 s.attic.mem a n
  | _ => List.replicate n 0

/-- Bytes of memory written. -/
def State.refWrite (s : State) (r : LftRef) (bs : List Byte) : State :=
  match r with
  | .loc a =>
    let s1 := { s with lft := { s.lft with localMem := memWrite 0 s.lft.localMem a bs } }
    if bs.length % 8 = 0 ∧ a % 8 = 0 then
      s1.each (upto (bs.length / 8)) fun t i => t.eccClear .lftLocal (a / 8 + i)
    else s1
  | .sh a =>
    let s1 := { s with lft := { s.lft with shared := memWrite 0 s.lft.shared a bs } }
    if bs.length % 8 = 0 ∧ a % 8 = 0 then
      s1.each (upto (bs.length / 8)) fun t i => t.eccClear .lftShared (a / 8 + i)
    else s1
  | .atc a => { s with attic := { s.attic with mem := memWrite 0 s.attic.mem a bs } }
  | _ => s

/-- The loft, and LFT_ERR_LOC, of word `i` of a Lofts memory. -/
def lftErrWord (m : EccMem) (i : Nat) : Nat × Word :=
  match m with
  | .lftLocal => (i / 65536, BitVec.ofNat 32 (i / 65536 * 2 ^ 26 + i / 8192 % 8 * 2 ^ 21 + i % 8192))
  | .lftShared => (i / 32768, BitVec.ofNat 32 (i / 32768 * 2 ^ 26 + 2 ^ 24 + i % 32768))
  | _ => (i / 32768, BitVec.ofNat 32 (i / 32768 * 2 ^ 26 + 2 * 2 ^ 24 + i % 32768))

/-- A 64-bit word of a Lofts memory is read and checked (R367); an uncorrectable one stays in error
until it is written. -/
def State.lftCheck (s : State) (m : EccMem) (i : Nat) : State × Bool :=
  let (l, loc) := lftErrWord m i
  match s.eccOf m i with
  | .ok => (s, true)
  | .corr => ((((s.eccClear m i).setB lftErr 1).report 0x22 l loc).count evLftEccCorr l 0, true)
  | .uncorr => ((((s.setB lftErr 2).wr lftErrLoc loc).report 0x23 l loc).count evLftEccUncorr l 0, false)

/-- `n` words of a Lofts memory from word `i` are read and checked. -/
def State.lftChecks (s : State) (m : EccMem) (i n : Nat) : State × Bool :=
  (upto n).foldl (fun (acc : State × Bool) j =>
    let q := acc.1.lftCheck m (i + j)
    (q.1, acc.2 && q.2)) (s, true)

/-- Bytes of memory read; `none` where an uncorrectable error stands in one of their words. -/
def State.refRead (s : State) (r : LftRef) (n : Nat) : State × Option (List Byte) :=
  let words (a : Nat) := (a + n - 1) / 8 + 1 - a / 8
  let q := match r with
    | .loc a => s.lftChecks .lftLocal (a / 8) (words a)
    | .sh a => s.lftChecks .lftShared (a / 8) (words a)
    | _ => (s, true)
  (q.1, if q.2 then some (s.refBytes r n) else none)

/-- Every byte of a longer run that a thread may reach, piece by piece within one region: the
references of its 8-byte pieces; `none` where one of them is not reachable. -/
def State.lftRefs (s : State) (t a n : Nat) (rd wr : Bool) : Option (List (LftRef × Nat)) :=
  (pieces 8 (n / 8 + 2) a n).foldr (fun p acc =>
    match s.lftRef t p.1 p.2 rd wr, acc with
    | some r, some l => some ((r, p.2) :: l)
    | _, _ => none) (some [])

/-- A longer run read. -/
def State.refsRead (s : State) (l : List (LftRef × Nat)) : State × Option (List Byte) :=
  l.foldl (fun (acc : State × Option (List Byte)) p =>
    let q := acc.1.refRead p.1 p.2
    (q.1, match acc.2, q.2 with
      | some x, some y => some (x ++ y)
      | _, _ => none)) (s, some [])

/-- A longer run written. -/
def State.refsWrite (s : State) : List (LftRef × Nat) → List Byte → State
  | [], _ => s
  | p :: t, bs => State.refsWrite (s.refWrite p.1 (bs.take p.2)) t (bs.drop p.2)

/-! ## Tickets: their group, their buffer (R342, R343) -/

def Ticket.init : Ticket :=
  { src := 0, prog := 0, flow16 := 0, cause := 0, inPort := 0, data := [], md := 0, rxTs := 0, qp := 0,
    slice := 0, fid := 0, pool := 0, buf := 0, cap := 0, shared := false, sampler := 0, dataLen := 0,
    headLen := 0, owed := 0 }

def State.ticket (s : State) (id : Nat) : Ticket := tget Ticket.init s.lft.tickets id

def State.setTicket (s : State) (id : Nat) (k : Ticket) : State :=
  { s with lft := { s.lft with tickets := tput s.lft.tickets id k } }

def State.dropTicket (s : State) (id : Nat) : State :=
  { s with lft := { s.lft with tickets := tdel s.lft.tickets id } }

/-- A new ticket; the answer is its id. -/
def State.newTicket (s : State) (k : Ticket) : State × Nat :=
  let id := s.lft.nextTicket
  ({ s.setTicket id k with lft := { (s.setTicket id k).lft with nextTicket := id + 1 } }, id)

/-- The group of a program (R342). -/
def State.progGroup (s : State) (prog : Nat) : Nat := s.rf (lftProg prog) 5 0

/-- A ticket's buffer is freed by hardware and the ticket is gone (R384). -/
def State.freeTicket (s : State) (id : Nat) : State :=
  let k := s.ticket id
  (if k.buf = 0 then s else s.hwFree k.buf).dropTicket id

/-- A thread is live: neither STOPPED nor FAULTED, in an engine that runs (R343). -/
def State.threadLive (s : State) (t : Nat) : Bool :=
  let th := s.thr t
  th.state != 0 && th.state != 4 && s.engRunning (t / 8)

/-- The thread of FLOW16 `f` in group `g`; `none` where the ticket is dead. -/
def State.chooseThread (s : State) (g f : Nat) : Option Nat :=
  let w := lftGroup g
  let base := s.rf w 11 0
  let count := s.rf w 24 12
  if s.rb w 30 then
    let l := ((upto count).map (· + base)).filter s.threadLive
    l[f * l.length / 65536]?
  else
    let t := base + f * count / 65536
    if s.engRunning (t / 8) then some t else none

/-! ## Reset, fault, stop, restart (R355, R356, R362, R365, R366) -/

/-- A thread reset (R356): its queue, its memory slice and the engine's flags stand. -/
def State.threadReset (s : State) (t : Nat) : State :=
  let th := s.thr t
  let s1 := s.countBy evLftLbDiscard (t / 8) 0 th.letters.length
  let s2 := match th.ticket with
    | some id => (s1.freeTicket id).count evLftTicketAbandoned (t / 8) 0
    | none => s1
  let s3 := s2.setThr t { Thread.init with queue := th.queue, state := 0 }
  if t % 8 = 0 ∧ t ≠ atcThread then s3.complete (t / 8) else s3

/-- An engine stops (R365): every thread ends in STOPPED, its tickets are dead, its messages and its
staging are gone, and the supervisor's active source completes (R438). -/
def State.engineStop (s : State) (e cause : Nat) : State :=
  if s.rf (lftEngStatus e) 31 30 = 1 then s else
  let s1 := s.each (upto 8) fun u i =>
    let t := e * 8 + i
    let th := u.thr t
    let ids := (match th.ticket with | some id => [id] | none => []) ++ th.queue
    let u1 := u.each ids fun v id => (v.count evLftTicketDead (v.progGroup (v.ticket id).prog) 0).freeTicket id
    let u2 := u1.countBy evLftLbDiscard e 0 th.letters.length
    u2.setThr t { th with letters := [], staging := [], ticket := none, queue := [], state := 0,
                          wait := none, inVector := false, tail := false }
  let s2 := ((s1.wf (lftEngStatus e) 31 30 1).wf (lftEngStatus e) 23 16 cause).complete e
  (s2.report 0x24 e (s2.rd (lftEngStatus e))).count evLftEngineStop e 0

/-- Thread `t` faults (R362): it enters FAULTED with pc at the instruction; a supervisor's fault
stops its engine, the Attic controller's fault stops the controller (R498). -/
def State.thrFault (s : State) (t code : Nat) (detail : Nat) : State :=
  let th := s.thr t
  let s1 := s.setThr t { th with state := 4, wait := none, finfo := BitVec.ofNat 64 (code + detail * 256) }
  if t = atcThread then
    ((s1.wf atcCtrl 31 30 3).wf atcCtrl 7 0 code).report 0x32 0 (BitVec.ofNat 32 (code + detail * 256))
  else
    let s2 := s1.count evLftFault (t / 8) (code - 1)
    if t % 8 = 0 then s2.engineStop (t / 8) 1 else s2

/-- A STOPPED engine starts again: threads reset, local memory and flags zero, STATE RUNNING, thread
0 started at BOOT_PC if BOOT is 1 (R366). A reserved engine shows RESERVED (R372). -/
def State.engineStart (s : State) (e : Nat) : State :=
  let s1 := s.each (upto 8) fun u i => u.threadReset (e * 8 + i)
  let s2 := { s1 with
    ecc := s1.ecc.filter fun p => !(p.1 == EccMem.lftLocal && p.2.1 / 8192 == e)
    lft := { s1.lft with
      localMem := memErase s1.lft.localMem (e * 65536) 65536
      engines := tput s1.lft.engines e Engine.init } }
  let s3 := (s2.wf (lftEngStatus e) 31 30 (if s2.loftReserved (e / 8) then 2 else 0)).wf (lftEngStatus e) 23 16 0
  if s3.rb (lftEngCfg e) 31 then
    s3.setThr (e * 8) { s3.thr (e * 8) with pc := s3.rf (lftEngCfg e) 14 0, state := 1 }
  else s3

/-- RESTART (R366): of an engine that is not STOPPED, or of a reserved one, it is discarded. -/
def State.engineRestart (s : State) (e : Nat) : State :=
  if s.rf (lftEngStatus e) 31 30 = 1 ∧ !(s.loftReserved (e / 8)) then s.engineStart e else s.setB lftErr 0

/-! ## Waiting (R335, R360) -/

/-- The events present for thread `t`: engine flags, TICKET, LETTER, TIMER. -/
def State.events (s : State) (t : Nat) : Nat :=
  let th := s.thr t
  (if t = atcThread then 0 else (s.eng (t / 8)).flags)
    + nat (th.ticket.isNone && !th.queue.isEmpty) * 2 ^ 16
    + nat (!th.letters.isEmpty) * 2 ^ 17
    + nat (decide (th.timer ≠ 0 ∧ th.timer ≤ s.ns)) * 2 ^ 18

/-- The instruction a thread waits in completes: xd takes its result, pc moves on, the thread is
RUNNABLE (R335). A wfe completes only when an event of its mask is present (R360). -/
def State.completeWait (s : State) (t : Nat) : State :=
  let th := s.thr t
  match th.wait with
  | none => s
  | some w =>
    match w.wfe with
    | none => s.setThr t { (th.set w.d w.result) with pc := (th.pc + 1) % 32768, state := 1, wait := none }
    | some m =>
      let ev := Nat.land m (s.events t)
      if ev = 0 then s
      else s.setThr t { (th.set w.d (BitVec.ofNat 64 ev)) with pc := (th.pc + 1) % 32768, state := 1, wait := none }

/-- A thread at the end of its current instruction: a W instruction completes, a wfe is abandoned
with pc at it. -/
def State.endCurrent (s : State) (t : Nat) : State :=
  let th := s.thr t
  match th.wait with
  | none => s
  | some w => if w.wfe.isSome then s.setThr t { th with wait := none } else s.completeWait t

/-! ## Tickets reach their threads (R342 to R344) -/

/-- The result of choosing a ticket's thread: none where the ticket is discarded, and counted. -/
def State.enqueueTicket (s : State) (id : Nat) : State × Bool :=
  let k := s.ticket id
  if 4096 ≤ k.prog ∨ !(s.rb (lftProg k.prog) 31) then ((s.count evLftBadProg 0 0).freeTicket id, false)
  else
    let g := s.progGroup k.prog
    match (if s.rb (lftGroup g) 31 then s.chooseThread g k.flow16 else none) with
    | none => ((s.count evLftTicketDead g 0).freeTicket id, false)
    | some t =>
      let th := s.thr t
      if 8 ≤ th.queue.length then ((s.count evLftTicketDrop g 0).freeTicket id, false)
      else
        let s1 := (s.setThr t { th with queue := th.queue ++ [id] }).count evLftTickets g 0
        (if k.shared then s1 else s1.ownerPass k.buf (ownerThread t), true)

end Sys2Proof.Machine
end

