-- ==== Sys2Proof/Machine/LoftsHost.lean ====
section
/-! DEFINITION. Lofts seen from outside its threads: host commands (R373), the debugger (R368 to
R370), stops and restarts, waits, vectors (R364, R432 to R435), errors, and Lofts' registers. -/

namespace Sys2Proof.Machine

/-! ## Thread registers by number (R340) -/

/-- Register `n` of a thread; `none` where the number gives REG. -/
def Thread.byNumber (th : Thread) (n : Nat) : Option Word64 :=
  if n < 32 then some (th.get n)
  else if n = 32 then some (BitVec.ofNat 64 th.pc)
  else if n = 33 then some th.finfo
  else if n = 34 then some (BitVec.ofNat 64 th.vret)
  else if n < 43 then some (tget 0 th.staging (n - 35))
  else none

/-- Register `n` of a thread written; `none` where the number gives REG. -/
def Thread.setByNumber (th : Thread) (n : Nat) (v : Word64) : Option Thread :=
  if n < 32 then some (th.set n v)
  else if n = 32 then some { th with pc := v.toNat % 32768 }
  else if n = 33 then some { th with finfo := v }
  else if n = 34 then some { th with vret := v.toNat % 32768 }
  else none

/-! ## Thread control (R355) -/

/-- thr.start: a STOPPED thread of an engine that runs becomes RUNNABLE. -/
def State.thrStart (s : State) (t : Nat) : State × Nat :=
  if (s.thr t).state = 0 ∧ s.engRunning (t / 8) then (s.setThr t { s.thr t with state := 1 }, 0) else (s, 2)

/-- thr.stop: a RUNNABLE or WAITING thread ends its instruction and enters STOPPED. -/
def State.thrStop (s : State) (t : Nat) : State × Nat :=
  if (s.thr t).state = 1 ∨ (s.thr t).state = 2 then
    let s1 := s.endCurrent t
    (s1.setThr t { s1.thr t with state := 0 }, 0)
  else (s, 2)

/-- thr.reset: a STOPPED or FAULTED thread is reset (R356). -/
def State.thrResetOp (s : State) (t : Nat) : State × Nat :=
  if (s.thr t).state = 0 ∨ (s.thr t).state = 4 then (s.threadReset t, 0) else (s, 2)

/-! ## LFT_CMD (R373) -/

/-- The lofts of LFT_CMD_LOFTS, lowest first. -/
def State.cmdLofts (s : State) : List Nat := (upto 64).filter fun l => (s.rd64 lftCmdLoftsLo).testBit l

/-- 64-bit word `j` of LFT_DATA. -/
def State.lftWord (s : State) (j : Nat) : Word64 := BitVec.ofNat 64 (s.rd64 (lftData (2 * j)))

/-- A word of an instruction store written. -/
def State.isWrite (s : State) (l i : Nat) (v : Word64) : State :=
  let k := l * 32768 + i
  ({ s.eccClear .lftIs k with lft := { s.lft with istore := tset 0 s.lft.istore k v } }).inject 0x0E 0x20 0x60 .lftIs k

/-- Eight words of an instruction store, or 64 shared bytes, checked and read into LFT_DATA. -/
def State.cmdRead (s : State) (m : EccMem) (i : Nat) (words : List Word64) : State × Nat :=
  let q := s.lftChecks m i 8
  if q.2 then (q.1.each (upto 8) fun t j => t.wr64 (lftData (2 * j)) (words.getD j 0).toNat, 0)
  else (q.1, 4)

/-- The effect of a command and its RESULT. -/
def State.lftCmdOp (s : State) (op addr : Nat) : State × Nat :=
  let lofts := s.cmdLofts
  match op with
  | 1 =>
    if lofts.isEmpty then (s, 0)
    else if addr % 8 ≠ 0 then (s, 1)
    else if lofts.any s.loftReserved then (s, 3)
    else (s.each lofts fun t l => (t.wakeLoft l).each (upto 8) fun u j => u.isWrite l (addr + j) (s.lftWord j), 0)
  | 2 =>
    match lofts with
    | [] => (s, 0)
    | l :: _ =>
      if addr % 8 ≠ 0 then (s, 1)
      else (s.wakeLoft l).cmdRead .lftIs (l * 32768 + addr) ((upto 8).map fun j => tget 0 s.lft.istore (l * 32768 + addr + j))
  | 3 =>
    if lofts.isEmpty then (s, 0)
    else if 4096 ≤ addr then (s, 1)
    else if lofts.any s.loftReserved then (s, 3)
    else (s.each lofts fun t l =>
      let t1 := (t.wakeLoft l).refWrite (.sh (l * 262144 + 64 * addr)) ((upto 8).flatMap fun j => natLe 8 (s.lftWord j).toNat)
      t1.inject 0x0E 0x20 0x60 .lftShared (l * 32768 + 8 * addr), 0)
  | 4 =>
    match lofts with
    | [] => (s, 0)
    | l :: _ =>
      if 4096 ≤ addr then (s, 1)
      else (s.wakeLoft l).cmdRead .lftShared (l * 32768 + 8 * addr)
        ((upto 8).map fun j => BitVec.ofNat 64 (leNat (memRead 0 s.lft.shared (l * 262144 + 64 * addr + 8 * j) 8)))
  | _ =>
    if 4096 ≤ addr then (s, 1)
    else if s.thrReserved addr then (s, 3)
    else
      let s0 := s.wakeLoft (addr / 64)
      if op = 5 then
        if (s0.thr addr).state = 0 then
          (s0.setThr addr { s0.thr addr with pc := s0.rf (lftData 0) 14 0 }).thrStart addr
        else (s0, 2)
      else if op = 6 then s0.thrStop addr
      else s0.thrResetOp addr

/-- A write of LFT_CMD. -/
def State.lftCmdWrite (s : State) (v : Word) : State :=
  if s.rb lftCmd 31 then s.setB lftCmdStatus 0 else
  let op := fld v 30 27
  if 8 ≤ op then s.setB lftCmdStatus 1 else
  let s1 := s.plainWrite lftCmd v
  if op = 0 then s1 else
  let r := s1.lftCmdOp op (fld v 14 0)
  r.1.wf lftCmdStatus 31 24 r.2

/-- The value of LFT_CMD for an operation. -/
def lftCmdWord (op addr : Nat) : Word := BitVec.ofNat 32 (op * 2 ^ 27 + addr % 2 ^ 15)

/-- HOST_IS_WRITE (R373). -/
def execHostIsWrite (addr : Nat) (s : State) : Host.Outcome State Fault Refusal :=
  .next (s.lftCmdWrite (lftCmdWord 1 addr))
/-- HOST_IS_READ (R373). -/
def execHostIsRead (addr : Nat) (s : State) : Host.Outcome State Fault Refusal :=
  .next (s.lftCmdWrite (lftCmdWord 2 addr))
/-- HOST_SH_WRITE (R373). -/
def execHostShWrite (addr : Nat) (s : State) : Host.Outcome State Fault Refusal :=
  .next (s.lftCmdWrite (lftCmdWord 3 addr))
/-- HOST_SH_READ (R373). -/
def execHostShRead (addr : Nat) (s : State) : Host.Outcome State Fault Refusal :=
  .next (s.lftCmdWrite (lftCmdWord 4 addr))
/-- HOST_THR_START (R373). -/
def execHostThrStart (t : Nat) (s : State) : Host.Outcome State Fault Refusal :=
  .next (s.lftCmdWrite (lftCmdWord 5 t))
/-- HOST_THR_STOP (R373). -/
def execHostThrStop (t : Nat) (s : State) : Host.Outcome State Fault Refusal :=
  .next (s.lftCmdWrite (lftCmdWord 6 t))
/-- HOST_THR_RESET (R373). -/
def execHostThrReset (t : Nat) (s : State) : Host.Outcome State Fault Refusal :=
  .next (s.lftCmdWrite (lftCmdWord 7 t))

/-! ## The debugger (R368, R369), but for STEP -/

/-- HALT of one thread. -/
def State.dbgHaltThr (s : State) (t : Nat) : State × Nat :=
  if (s.thr t).state = 1 ∨ (s.thr t).state = 2 then
    let s1 := s.endCurrent t
    (s1.setThr t { s1.thr t with state := 3 }, 0)
  else (s, 1)

/-- RESUME of one thread. -/
def State.dbgResumeThr (s : State) (t : Nat) : State × Nat :=
  if (s.thr t).state = 3 then (s.setThr t { s.thr t with state := 1 }, 0) else (s, 1)

/-- The effect of a debugger command other than STEP on thread `t`, and its RESULT. -/
def State.dbgOp (s : State) (op reg t : Nat) : State × Nat :=
  match op with
  | 1 => s.dbgHaltThr t
  | 2 => s.dbgResumeThr t
  | 4 =>
    if (s.thr t).state ≠ 3 then (s, 1) else
    match (s.thr t).byNumber reg with
    | some v => (s.wr64 lftDbgDataLo v.toNat, 0)
    | none => (s, 3)
  | 5 =>
    if (s.thr t).state ≠ 3 then (s, 1) else
    match (s.thr t).setByNumber reg (BitVec.ofNat 64 (s.rd64 lftDbgDataLo)) with
    | some th => (s.setThr t th, 0)
    | none => (s, 3)
  | 6 => (s.each (upto 8) fun u i => (u.dbgHaltThr (t / 8 * 8 + i)).1, 0)
  | _ => (s.each (upto 8) fun u i => (u.dbgResumeThr (t / 8 * 8 + i)).1, 0)

/-- A debugger command: reserved lofts cannot be debugged. `f` is its effect on the selected
thread. -/
def State.dbgRun (s : State) (op reg : Nat) (f : State → Nat → State × Nat) : State :=
  if s.rb lftDbgCmd 31 then s else
  let s1 := s.plainWrite lftDbgCmd (BitVec.ofNat 32 (op * 2 ^ 27 + reg % 64))
  let t := s1.rf lftDbgSel 11 0
  if s1.thrReserved t then s1.wf lftDbgStatus 31 24 2
  else
    let r := f (s1.wakeLoft (t / 64)) t
    r.1.wf lftDbgStatus 31 24 r.2

/-- DBG_HALT (R368). -/
def execDbgHalt (s : State) : Host.Outcome State Fault Refusal := .next (s.dbgRun 1 0 fun u t => u.dbgOp 1 0 t)
/-- DBG_RESUME (R368). -/
def execDbgResume (s : State) : Host.Outcome State Fault Refusal := .next (s.dbgRun 2 0 fun u t => u.dbgOp 2 0 t)
/-- DBG_READ (R368). -/
def execDbgRead (reg : Nat) (s : State) : Host.Outcome State Fault Refusal :=
  .next (s.dbgRun 4 reg fun u t => u.dbgOp 4 (reg % 64) t)
/-- DBG_WRITE (R368). -/
def execDbgWrite (reg : Nat) (s : State) : Host.Outcome State Fault Refusal :=
  .next (s.dbgRun 5 reg fun u t => u.dbgOp 5 (reg % 64) t)
/-- DBG_HALT_ENGINE (R368). -/
def execDbgHaltEngine (s : State) : Host.Outcome State Fault Refusal := .next (s.dbgRun 6 0 fun u t => u.dbgOp 6 0 t)
/-- DBG_RESUME_ENGINE (R368). -/
def execDbgResumeEngine (s : State) : Host.Outcome State Fault Refusal := .next (s.dbgRun 7 0 fun u t => u.dbgOp 7 0 t)

/-- An enabled breakpoint names thread `t` at its pc (R370). -/
def State.atBreakpoint (s : State) (t : Nat) : Bool :=
  s.rb lftDbgSel 31 && (upto 8).any fun k =>
    let b := s.rd (lftDbgBp k)
    b.getLsbD 31 && fld b 30 25 == t / 64 && b.getLsbD (15 + t / 8 % 8) && fld b 14 0 == (s.thr t).pc

/-- BREAKPOINT_HALT (R370): a RUNNABLE thread at an enabled breakpoint halts before issuing. -/
def execBreakpointHalt (t : Nat) (s : State) : Host.Outcome State Fault Refusal :=
  if (s.thr t).state = 1 ∧ s.atBreakpoint t then .next (s.setThr t { s.thr t with state := 3 }) else .next s

/-! ## Stops, restarts, waits -/

/-- ENGINE_STOP (R365) by LFT_ENG_CTL. -/
def execEngineStop (e : Nat) (s : State) : Host.Outcome State Fault Refusal := .next (s.engineStop e 3)

/-- ENGINE_RESTART (R366) by LFT_ENG_CTL. -/
def execEngineRestart (e : Nat) (s : State) : Host.Outcome State Fault Refusal := .next (s.engineRestart e)

/-- A thread waits in a wfe of flags alone, none of which is set (R361). -/
def State.deadWait (s : State) (t : Nat) : Bool :=
  let th := s.thr t
  th.state == 2 &&
    (match th.wait with
     | some w =>
       (match w.wfe with
        | some m => decide (m < 65536) && Nat.land m (s.eng (t / 8)).flags == 0
        | none => false)
     | none => false)

/-- Engine `e` is in wait-deadlock (R361). -/
def State.deadlocked (s : State) (e : Nat) : Bool :=
  let ts := (upto 8).map (e * 8 + ·)
  ts.any s.deadWait && ts.all fun t => s.deadWait t || (s.thr t).state == 0 || (s.thr t).state == 4

/-- WAIT_DEADLOCK (R361): the deadlock source rises, or the engine stops if the source is masked. -/
def execWaitDeadlock (e : Nat) (s : State) : Host.Outcome State Fault Refusal :=
  if s.rf (lftEngCfg e) 23 16 ≠ 0 ∧ s.deadlocked e ∧ !(s.eng e).dlFired ∧ s.engRunning e then
    let s1 := { s with lft := { s.lft with
      engines := tput s.lft.engines e { s.eng e with dlFired := true } } }.count evLftDeadlock e 0
    .next (if s1.isMasked (512 + e) then s1.engineStop e 2 else s1.pulse (512 + e))
  else .next s

/-- W_INSTRUCTION_COMPLETE (R335). -/
def execWInstructionComplete (t : Nat) (s : State) : Host.Outcome State Fault Refusal :=
  if (s.thr t).state = 2 ∧ (t = atcThread ∨ !(s.loftGated (t / 64))) then .next (s.completeWait t) else .next s

/-- TIMER_DEADLINE (R360): device time has reached a thread's deadline; a gated loft wakes (R371)
and a wfe that masks TIMER completes. -/
def execTimerDeadline (t : Nat) (s : State) : Host.Outcome State Fault Refusal :=
  let th := s.thr t
  if th.timer = 0 ∨ s.ns < th.timer then .next s else
  let s1 := if t = atcThread then s else s.wakeLoft (t / 64)
  .next (match th.wait with
    | some w => if (w.wfe.getD 0).testBit 18 then s1.completeWait t else s1
    | none => s1)

/-- LOFT_WAKE (R371): a gated loft for which an event has come issues again. -/
def execLoftWake (l : Nat) (s : State) : Host.Outcome State Fault Refusal :=
  let woken := (upto 64).any fun i =>
    let t := 64 * l + i
    let th := s.thr t
    !th.letters.isEmpty || decide (th.timer ≠ 0 ∧ th.timer ≤ s.ns) || (tfind s.bell.arb (t / 8)).isSome ||
    (match th.wait with
     | some w => Nat.land (w.wfe.getD 0) (s.events t) != 0
     | none => false)
  .next (if woken then s.wakeLoft l else s)

/-! ## Vectors (R364, R432, R435) -/

/-- A thread takes the arbitration result that has reached target `tgt`: the source is claimed, pc
goes to VRET and the thread goes on at VEC. -/
def State.takeVector (s : State) (tgt t : Nat) : State :=
  match tfind s.bell.arb tgt with
  | none => s
  | some src =>
    let th := s.thr t
    let ready := th.state == 1 || (th.state == 2 &&
      (match th.wait with
       | some w => w.wfe.isSome
       | none => false))
    if ready && !th.inVector && s.candidate tgt src then
      let s0 := { s with bell := { s.bell with arb := tdel s.bell.arb tgt } }
      let s1 := if t = atcThread then s0 else s0.wakeLoft (t / 64)
      let s2 := if th.tail then s1.count evBelTailchain tgt 0 else s1
      (s2.claim tgt src).setThr t { th with
        vret := th.pc, pc := s.rf (belRoute src) 14 0, state := 1, wait := none, inVector := true, tail := false }
    else s

/-- VECTOR_COMMIT (R432): engine `e`'s supervisor takes its vector. -/
def execVectorCommit (e : Nat) (s : State) : Host.Outcome State Fault Refusal := .next (s.takeVector e (e * 8))

/-- ATTIC_VECTOR (R435). -/
def execAtticVector (s : State) : Host.Outcome State Fault Refusal := .next (s.takeVector 512 atcThread)

/-! ## Tickets -/

/-- The ticket is in a thread's queue, or held by a thread. -/
def State.ticketPlaced (s : State) (id : Nat) : Bool :=
  (tkeys s.lft.threads).any fun t => (s.thr t).queue.any (· == id) || (s.thr t).ticket == some id

/-- An earlier ticket that the same slice made for the same group and FLOW16 is still on its way (R351). -/
def State.ticketBehind (s : State) (id : Nat) : Bool :=
  let k := s.ticket id
  decide (k.src < 3) && s.lft.tickets.any fun p =>
    decide (p.1 < id ∧ p.2.src < 3) && p.2.slice == k.slice && p.2.flow16 == k.flow16 &&
      s.progGroup p.2.prog == s.progGroup k.prog && !(s.ticketPlaced p.1)

/-- A queue pair with nothing in it. -/
def DwyQ.init : DwyQ :=
  { prefetch := [], taken := [], held := [], recv := [], since := 0, sinceNs := 0, sigPending := false,
    mirrorDue := false, prev := 0, waited := false }

/-- TICKET_ENQUEUE (R342 to R344): a ticket that has its buffer chooses its thread. A host ticket's
entry ends with DONE, or TICKET_DROP where the ticket is discarded (R413). -/
def State.ticketEnqueue (s : State) (id : Nat) : State :=
  let k := s.ticket id
  if k.buf = 0 ∨ (tfind s.lft.tickets id).isNone ∨ s.ticketBehind id ∨
      s.ticketPlaced id then s
  else
    let r := s.enqueueTicket id
    if k.src = 3 then
      let q := tget DwyQ.init r.1.dwy.queues k.qp
      let taken := q.taken.map fun e =>
        if e.wait = 2 ∧ e.ticket = id then { e with wait := 0, status := if r.2 then 0 else 4 } else e
      { r.1 with dwy := { r.1.dwy with queues := tput r.1.dwy.queues k.qp { q with taken := taken } } }
    else r.1

def execTicketEnqueue (id : Nat) (s : State) : Host.Outcome State Fault Refusal := .next (s.ticketEnqueue id)

/-! ## Scrub, reservation, registers -/

/-- LOFTS_SCRUB (R367): word `i` of memory `m` (0 engine-local, 1 shared, 2 instruction store) is
read; `e` is what the check finds. -/
def execLoftsScrub (m i : Nat) (e : Ecc) (s : State) : Host.Outcome State Fault Refusal :=
  let k := if m = 0 then EccMem.lftLocal else if m = 1 then .lftShared else .lftIs
  .next ((s.eccFlag k i e).lftCheck k i).1

/-- CRW_RESERVE_WRITE (R372). -/
def State.crwReserveWrite (s : State) (v : Word) : State :=
  let n := fld v 18 16
  let f := fld v 5 0
  let old := (s.rf lftCrwCfg 5 0, s.rf lftCrwCfg 18 16)
  let engines := (upto 64).filter fun l => decide ((f ≤ l ∧ l < f + n) ∨ (old.1 ≤ l ∧ l < old.1 + old.2))
  let stopped := engines.all fun l => (upto 8).all fun i => !(s.engRunning (l * 8 + i))
  if n ≤ 4 ∧ f + n ≤ 64 ∧ stopped then (s.plainWrite lftCrwCfg v).wrN crwBuildInfo (64 * n)
  else s.setB lftErr 0

def execCrwReserveWrite (v : Word) (s : State) : Host.Outcome State Fault Refusal := .next (s.crwReserveWrite v)

/-- A write of LFT_GROUP (R374): refused where VALID is 1 and the range is malformed or overlaps a
reserved loft. -/
def State.lftGroupWrite (s : State) (a : Nat) (v : Word) : State :=
  let count := fld v 24 12
  let base := fld v 11 0
  let bad := v.getLsbD 31 && (decide (count = 0 ∨ 4096 < count ∨ 4096 < base + count) ||
    (upto 64).any fun l => s.loftReserved l && decide (base < 64 * l + 64 ∧ 64 * l < base + count))
  if bad then s.setB lftErr 0 else s.plainWrite a v

/-- A write of a Lofts register other than LFT_DBG_CMD. -/
def State.lftRegWrite (s : State) (a : Nat) (v : Word) : State :=
  if a = lftCmd then s.lftCmdWrite v
  else if lftData 0 ≤ a ∧ a < lftData 16 then
    if s.rb lftCmd 31 then s.setB lftCmdStatus 0 else s.plainWrite a v
  else if a = lftCrwCfg then s.crwReserveWrite v
  else if lftGroup 0 ≤ a ∧ a < lftGroup 64 then s.lftGroupWrite a v
  else if lftEngCtl 0 ≤ a ∧ a < lftEngCtl 512 ∧ (a - lftEngCtl 0) % 16 = 0 then
    let e := (a - lftEngCtl 0) / 16
    if fld v 1 0 = 1 then s.engineStop e 3
    else if fld v 1 0 = 2 then s.engineRestart e
    else if fld v 1 0 = 3 then s.setB lftErr 0
    else s
  else s.plainWrite a v

end Sys2Proof.Machine
end

