-- ==== Sys2Proof/Machine/Cupboard.lean ====
section
/-! DEFINITION. The commands and events of Cupboard (chapter 12, window 0x0F). -/

namespace Sys2Proof.Machine

/-! ## Pools (R376, R377, R381) -/

/-- Two regions, each a start and a size, share a byte. -/
def overlaps (a b : Nat × Nat) : Bool := decide (a.1 < b.1 + b.2 ∧ b.1 < a.1 + a.2)

/-- The buffer region and the ring region of a pool. -/
def State.poolRegions (s : State) (k : Nat) : List (Nat × Nat) :=
  [(s.poolBase k, s.poolCount k * 2 ^ s.poolLog2 k), (s.poolRing k, 4 * s.poolCount k)]

/-- The owner-record area (R383). -/
def State.ownerArea (s : State) : Nat × Nat := (s.rd64 cupCtlBaseLo, (s.part 2).2 / 128)

/-- R377 lets pool k become valid. -/
def State.poolOk (s : State) (k : Nat) : Bool :=
  let others := (upto 8).filter fun j => j != k && s.poolValid j
  let taken := s.ownerArea :: others.flatMap s.poolRegions
  let log2 := s.poolLog2 k
  decide (s.poolCount k ≠ 0 ∧ s.poolCount k + (others.map s.poolCount).sum ≤ 2097152 ∧ 10 ≤ log2 ∧ log2 ≤ 17 ∧
    s.poolBase k % 2 ^ log2 = 0 ∧ s.poolRing k % 256 = 0) &&
  (others.all fun j => if j < k then decide (s.poolLog2 j < log2) else decide (log2 < s.poolLog2 j)) &&
  (s.poolRegions k).all fun r => s.inPart 2 r.1 r.2 && taken.all fun t => !(overlaps r t)

/-- POOL_VALID_WRITE (R377): a write of CUP_POOL_CFG. VALID changes alone, and the other fields change only
while it is 0 (DEDUCED, unsafe: log entry 63). -/
def State.poolCfgWrite (s : State) (k : Nat) (v : Word) : State :=
  let a := cupPoolCfg k
  let same := fld v 30 30 == s.rf a 30 30 && fld v 4 0 == s.poolLog2 k
  let reject := s.setB cupErr 0
  if s.poolValid k then
    if v.getLsbD 31 then (if same then s else reject)
    else if !same ∨ (s.pool k).free < s.poolCount k ∨ s.rf (cupPoolStatus k) 31 30 ≠ 2 then reject
    else
      { (s.putB a 31 false).wr (cupPoolStatus k) 0 with
        cup := { s.cup with pools := tput s.cup.pools k Pool.empty } }
  else if v.getLsbD 31 then
    if same && s.poolOk k then (s.setB a 31).wf (cupPoolStatus k) 31 30 1 else reject
  else s.plainWrite a v

def execPoolValidWrite (k : Nat) (v : Word) (s : State) : Host.Outcome State Fault Refusal :=
  .next (s.poolCfgWrite k v)

/-- POOL_FORMAT_DONE (R377): the ring, the bitmap and the owner records are written, the cache is filled, and
the pool is READY. -/
def State.poolFormat (s : State) (k : Nat) : State :=
  let n := s.poolCount k
  let s1 := s.celWrite 0x13 (s.poolRing k) ((upto n).flatMap (natLe 4))
  let s2 := s1.each (upto n) fun t i => t.ownerWrite (t.bufAddr k i) ⟨0, 0, 1, 0, 0⟩
  let s3 := s2.each (upto ((n + 63) / 64)) fun t w => t.eccClear .cupBitmap (k * 65536 + w)
  let c := min 512 n
  (s3.wf (cupPoolStatus k) 31 30 2).setPool k
    { cache := upto c, head := c % n, tail := 0, cnt := n - c, alloc := [], oos := [] }

def execPoolFormatDone (k : Nat) (s : State) : Host.Outcome State Fault Refusal :=
  .next (if s.poolValid k && s.rf (cupPoolStatus k) 31 30 == 1 then s.poolFormat k else s)

/-- A threshold write: level `l` of pool k (0 LOW, 1 TIGHT, 2 CRIT) (R381). -/
def State.thresholdWrite (s : State) (k l : Nat) (a : Nat) (v : Word) : State :=
  let n := fld v 21 0
  let thr (i : Nat) : Nat := if i = l then n else s.poolThr k i
  let bad (hi lo : Nat) : Bool := decide (hi ≠ 0 ∧ lo ≠ 0 ∧ hi < lo)
  if bad (thr 0) (thr 1) || bad (thr 1) (thr 2) || bad (thr 0) (thr 2) then s.setB cupErr 0
  else
    let s1 := s.plainWrite a v
    if s1.poolReady k then s1.levels k else s1

/-! ## Tickets and samples ask for their buffers (R345, R379, R382, R384) -/

/-- The descriptor of a ticket's record (R345). -/
def Ticket.descriptor (k : Ticket) : List Byte :=
  natLe 4 ((if k.src < 2 then k.cause else 0) * 2 ^ 20 + k.src * 2 ^ 16 + k.prog) ++
    natLe 4 (k.dataLen * 2 ^ 9 + k.inPort) ++ natLe 4 (k.flow16 * 2 ^ 16 + k.headLen) ++
    natLe 4 (nat k.shared * 8 + k.pool) ++ natLe 8 k.buf ++ natLe 8 k.rxTs ++ natLe 4 k.qp ++ natLe 4 k.cap ++
    List.replicate 24 0

/-- The 768 bytes of a ticket's record; `frame` is the frame's bytes. -/
def Ticket.record (k : Ticket) (frame : List Byte) : List Byte :=
  k.descriptor ++ natLe 128 (if k.src < 2 then k.md else 0) ++ Sys2Proof.Machine.slice (frame.take k.headLen) 0 512 ++ List.replicate 64 0

/-- A ticket is granted a buffer: the record and the frame are stored in it, and what the slice held of the
frame is released. -/
def State.ticketGrant (s : State) (id pool buf : Nat) (frame : List Byte) : State :=
  let k := s.ticket id
  let k1 := { k with
    pool := pool, buf := buf, cap := 2 ^ s.poolLog2 pool - 768, dataLen := frame.length,
    headLen := min 512 frame.length, data := [], fid := 0 }
  let s1 := (s.celWrite 0x13 buf (k1.record frame)).celWrite 0x13 (buf + 768) frame
  (s1.setTicket id k1)

/-- The frame of a slice ticket is wholly in its buffer: it leaves the Pantry. -/
def State.frameStored (s : State) (f : Nat) : State :=
  let s1 := s.freeFrameUnits f
  (s1.setFrame f { s1.frame f with isOver := true }).tidy f

/-- A slice ticket finds no buffer: the ticket and its frame are discarded (R382). -/
def State.ticketNoBuf (s : State) (id : Nat) : State :=
  let k := s.ticket id
  let s1 := (s.dropTicket id).discardFrame k.fid
  match s.fitPool (768 + (s.frame k.fid).data.length) with
  | some p => s1.count evCupTicketNobuf p k.slice
  | none => s1

def State.grantQ (s : State) (sl : Nat) : List Nat := tget [] s.cup.grantQ sl
def State.setGrantQ (s : State) (sl : Nat) (l : List Nat) : State :=
  { s with cup := { s.cup with grantQ := tset [] s.cup.grantQ sl l } }

/-- A pool of the chain from pool k could grant to `w`. -/
def State.chainCan (s : State) (w : CupAsker) : Nat → Nat → Bool
  | 0, _ => false
  | fuel + 1, k =>
    (s.poolReady k && !(s.levelRefuses k w) && decide (0 < (s.pool k).free)) ||
    (s.rb (cupPoolCfg k) 30 &&
      (match s.nextPool k with
       | some j => s.chainCan w fuel j
       | none => false))

/-- Who a slice ticket asks as. -/
def Ticket.asker (k : Ticket) : CupAsker := if k.src = 0 then .ticket0 else .ticket1

/-- The chain of a slice ticket could grant to it. -/
def State.ticketCan (s : State) (id : Nat) : Bool :=
  let k := s.ticket id
  match s.fitPool (768 + (s.frame k.fid).data.length) with
  | some p => s.chainCan k.asker 8 p
  | none => false

/-- The slice whose waiting ticket is served next: round-robin over those whose first ticket can be. -/
def State.grantNext (s : State) : Option Nat :=
  ((upto 16).map fun i => (s.cup.rr + 1 + i) % 16).find? fun sl =>
    match s.grantQ sl with
    | id :: _ => s.ticketCan id
    | [] => false

/-- A slice ticket is granted a buffer if its chain has one. -/
def State.ticketAsk (s : State) (id : Nat) : State × Bool × Bool :=
  let k := s.ticket id
  let d := (s.frame k.fid).data
  match s.cupGrant k.asker (ownerSlice k.slice) (768 + d.length) with
  | (s1, fits, some (p, buf)) => ((s1.ticketGrant id p buf d).frameStored k.fid, fits, true)
  | (s1, fits, none) => (s1, fits, false)

/-- A slice ticket asks for the first time. -/
def State.ticketRequest (s : State) (id : Nat) : State :=
  let k := s.ticket id
  let sl := k.slice
  let waits (t : State) (fits : Bool) : State :=
    let crit := match t.fitPool (768 + (t.frame k.fid).data.length) with
      | some p => k.src == 1 && t.poolLevel p 2
      | none => false
    if !fits || crit || t.rf cupCfg 15 0 == 0 || decide (64 ≤ (t.grantQ sl).length) then t.ticketNoBuf id
    else (t.setGrantQ sl (t.grantQ sl ++ [id])).count evCupWaited sl 0
  if !((s.grantQ sl).isEmpty) then
    waits s (s.fitPool (768 + (s.frame k.fid).data.length)).isSome
  else
    match s.ticketAsk id with
    | (s1, _, true) => s1
    | (s1, fits, false) => waits s1 fits

/-- A waiting slice ticket is served. -/
def State.ticketServe (s : State) (id : Nat) : State :=
  let sl := (s.ticket id).slice
  if s.grantNext = some sl ∧ (s.grantQ sl).head? = some id then
    match s.ticketAsk id with
    | (s1, _, true) => { s1.setGrantQ sl ((s1.grantQ sl).drop 1) with cup := { (s1.setGrantQ sl ((s1.grantQ sl).drop 1)).cup with rr := sl } }
    | (s1, _, false) => s1
  else s

/-- A sample asks: it takes the frame's bytes with it, or is dropped (R299). -/
def State.sampleRequest (s : State) (id : Nat) : State :=
  let k := s.ticket id
  let d := k.data ++ (s.frame k.fid).orig.take k.cap
  match s.cupGrant .sample (ownerSlice k.slice) (768 + 32 + k.cap) with
  | (s1, _, some (p, buf)) => (s1.ticketGrant id p buf d).tidy k.fid
  | (s1, _, none) => ((s1.dropTicket id).tidy k.fid).count evStwSampleDrop k.slice k.sampler

/-- BUFFER_REQUEST (R379, R382): ticket `id` asks for its buffer, once its frame is whole. A frame found bad
takes its ticket with it. -/
def execBufferRequest (id : Nat) (s : State) : Host.Outcome State Fault Refusal :=
  let k := s.ticket id
  let x := s.frame k.fid
  if (tfind s.lft.tickets id).isNone ∨ k.buf ≠ 0 ∨ 3 ≤ k.src ∨ !x.complete then .next s
  else if k.src = 2 then .next (if k.owed = 4 then s else s.sampleRequest id)
  else if shas (s.grantQ k.slice) id then .next (s.ticketServe id)
  else if x.bad ∨ x.lost then .next ((s.dropTicket id).discardFrame k.fid)
  else .next (s.ticketRequest id)

/-- GRANT_QUEUE_TIMEOUT (R382): a ticket that has waited CUP_CFG.WAIT is discarded. -/
def execGrantQueueTimeout (id : Nat) (s : State) : Host.Outcome State Fault Refusal :=
  let sl := (s.ticket id).slice
  .next (if shas (s.grantQ sl) id then (s.setGrantQ sl ((s.grantQ sl).filter (· != id))).ticketNoBuf id else s)

/-- CACHE_REFILL (R380): a cache that holds fewer than 128 indices. -/
def execCacheRefill (k : Nat) (s : State) : Host.Outcome State Fault Refusal :=
  .next (if s.poolReady k && decide ((s.pool k).cache.length < 128) then s.cacheRefill k else s)

/-! ## The function pages (R385 to R387, R390) -/

/-- The result of an operation of function f (R387). -/
def State.fnResult (s : State) (f r : Nat) : State :=
  let s1 := s.wf (cupFnStatus f) 3 0 r
  if 1 ≤ r ∧ r ≤ 8 then (s1.setB (cupFnErr f) r).count evCupMisuse f (r - 1) else s1

/-- A write of CUP_FN_FREE by function f. -/
def State.fnFree (s : State) (f : Nat) (v : Word) : State :=
  let r := s.cupFree (ownerFn f) (s.handleAddr v.toNat) (some (fld v 31 24))
  r.1.fnResult f r.2

/-- A write of CUP_FN_SHARE by function f. -/
def State.fnShare (s : State) (f : Nat) (v : Word) : State :=
  let h := s.rdN (cupFnShareRef f)
  let r := s.cupShare (ownerFn f) (s.handleAddr h) (some (h / 2 ^ 24)) (fld v 15 0) (fld v 31 24)
  r.1.fnResult f r.2

/-- BUFFER_FREE (R386) by function f. -/
def execBufferFree (f : Nat) (v : Word) (s : State) : Host.Outcome State Fault Refusal := .next (s.fnFree f v)

/-- BUFFER_SHARE (R385) by function f. -/
def execBufferShare (f : Nat) (v : Word) (s : State) : Host.Outcome State Fault Refusal := .next (s.fnShare f v)

/-- A read of CUP_FN_GRANT[f][k]. -/
def State.grantRead (s : State) (f k : Nat) : State :=
  let v := s.rdN (cupFnGrant f k)
  let s1 := (s.answer v).wr (cupFnGrant f k) 0
  if v = 0 then s1.setB (cupFnStatus f) 7 else s1

/-- GRANT_REGISTER_READ (R390). -/
def execGrantRegisterRead (f k : Nat) (s : State) : Host.Outcome State Fault Refusal := .next (s.grantRead f k)

/-- GRANT_REGISTER_REFILL (R390): an empty register takes a buffer of its pool. -/
def execGrantRegisterRefill (f k : Nat) (s : State) : Host.Outcome State Fault Refusal :=
  if s.rdN (cupFnGrant f k) = 0 && s.poolReady k && !(s.poolLevel k 1) && decide (0 < (s.pool k).free) then
    match State.grantChain .grantReg (ownerFn f) 8 k s with
    | (s1, some (_, buf)) => .next (s1.wrN (cupFnGrant f k) (s1.handleOf buf))
    | (s1, none) => .next s1
  else .next s

/-! ## Reclaim (R391) -/

/-- A write of CUP_RECLAIM. -/
def State.reclaimWrite (s : State) (v : Word) : State :=
  let kind := fld v 15 13
  if s.rb cupReclaim 31 then s.setB cupErr 0
  else if !(v.getLsbD 30) then s.plainWrite cupReclaim v
  else if kind = 1 ∨ kind = 2 then
    let s1 := ((s.wf cupReclaim 15 0 (fld v 15 0)).setB cupReclaim 31).wrN cupReclaimCount 0
    { s1 with cup := { s1.cup with reclaimPos := 0 } }
  else s.setB cupErr 0

/-- RECLAIM_START (R391). -/
def execReclaimStart (v : Word) (s : State) : Host.Outcome State Fault Refusal :=
  .next (s.reclaimWrite (setFld v 30 30 1))

/-- The pool and the index of the p-th buffer of the READY pools. -/
def State.bufferAt (s : State) (p : Nat) : Option (Nat × Nat) :=
  ((upto 8).foldl (fun (acc : Nat × Option (Nat × Nat)) k =>
    match acc with
    | (_, some r) => (0, some r)
    | (n, none) =>
      if !(s.poolReady k) then (n, none)
      else if n < s.poolCount k then (0, some (k, n))
      else (n - s.poolCount k, none)) (p, none)).2

/-- The reclaim visits one owner record: a buffer that OWNER owns is freed, and one whose last owner it is
is freed as by that owner. -/
def State.reclaimOne (s : State) (k i : Nat) : State :=
  let owner := s.rf cupReclaim 15 0
  let a := s.bufAddr k i
  match s.cupCheck a none with
  | (s1, .inl _) => s1
  | (s1, .inr (_, _, r)) =>
    if (if r.mode = 0 then r.owner else r.last) = owner then
      let q := s1.cupFree owner a none
      if q.2 = 0 ∨ q.2 = 9 then q.1.wrN cupReclaimCount (q.1.rdN cupReclaimCount + 1) else q.1
    else s1

/-- RECLAIM_VISIT (R391): the next record, or the end of the reclaim. -/
def execReclaimVisit (s : State) : Host.Outcome State Fault Refusal :=
  if !(s.rb cupReclaim 31) then .next s
  else match s.bufferAt s.cup.reclaimPos with
    | some (k, i) =>
      let s1 := s.reclaimOne k i
      .next { s1 with cup := { s1.cup with reclaimPos := s1.cup.reclaimPos + 1 } }
    | none => .next ((s.putB cupReclaim 31 false).pulse 1924)

/-! ## Scrub and registers -/

/-- A cached index is checked: an uncorrectable one may be any index from now on (DESIGN CHOICE, safe: log entry 52). -/
def State.cupCacheCheck (s : State) (k i : Nat) (e : Ecc) : State :=
  let loc := BitVec.ofNat 32 (k * 2 ^ 21)
  match e with
  | .ok => s
  | .corr => ((s.setB cupErr 1).report 0x25 k loc).count evCupEccCorr 0 0
  | .uncorr =>
    let p := s.pool k
    let r := s.free 22
    let s1 := { r.2 with cup := { r.2.cup with pools := tput r.2.cup.pools k { p with cache := lset p.cache i r.1 } } }
    ((s1.setB cupErr 2).report 0x26 k loc).count evCupEccUncorr 0 0

/-- CUPBOARD_SCRUB (R389): word w of pool k's bitmap, or of its cache from 65,536 on; `e` is what the check
finds. -/
def execCupboardScrub (k w : Nat) (e : Ecc) (s : State) : Host.Outcome State Fault Refusal :=
  .next (if w < 65536 then (s.eccFlag .cupBitmap (k * 65536 + w) e).bitmapCheck k w else s.cupCacheCheck k (w - 65536) e)

/-- A write of a Cupboard register. -/
def State.cupRegWrite (s : State) (a : Nat) (v : Word) : State :=
  if a = cupReclaim then s.reclaimWrite v
  else if a = cupCtlBaseLo ∨ a = cupCtlBaseHi then
    if (upto 8).any s.poolValid then s.setB cupErr 0 else s.plainWrite a v
  else if cupPoolCfg 0 ≤ a ∧ a < cupPoolCfg 8 then
    let k := (a - cupPoolCfg 0) / 0x40
    if a = cupPoolCfg k then s.poolCfgWrite k v
    else if a = cupPoolLow k then s.thresholdWrite k 0 a v
    else if a = cupPoolTight k then s.thresholdWrite k 1 a v
    else if a = cupPoolCrit k then s.thresholdWrite k 2 a v
    else if s.poolValid k then s.setB cupErr 0
    else s.plainWrite a v
  else if cupFnGrant 0 0 ≤ a ∧ a < cupFnGrant 64 0 then
    let f := (a - cupFnGrant 0 0) / 0x100
    if a = cupFnFree f then s.fnFree f v
    else if a = cupFnShare f then s.fnShare f v
    else s.plainWrite a v
  else s.plainWrite a v

end Sys2Proof.Machine
end

