-- ==== Sys2Proof/Machine/CheckOps.lean ====
section
/-! DEFINITION. Check values and the rewriting of frames (R225, R227, R257 to R262): the parametric CRC, the
fold, trailers put on and taken off, and shims translated. -/

namespace Sys2Proof.Machine

/-! ## Check values (R257, R258) -/

/-- The bits of a byte in the order a CRC takes them. -/
def byteBits (reflect : Bool) (b : Byte) : List Bool :=
  (upto 8).map fun i => b.getLsbD (if reflect then i else 7 - i)

/-- One bit of a parametric CRC of w bits. -/
def crcGenBit (w poly reg : Nat) (b : Bool) : Nat :=
  let top := reg.testBit (w - 1) != b
  let sh := reg * 2 % 2 ^ w
  if top then Nat.xor sh poly else sh

/-- A w-bit number with its bits in the opposite order. -/
def reverseBits (w n : Nat) : Nat := ((upto w).map fun i => nat (n.testBit i) * 2 ^ (w - 1 - i)).sum

/-- A check profile's fields. -/
structure Profile where
  valid : Bool
  silent : Bool
  fold : Nat
  inv : Bool
  reflect : Bool
  width : Nat
  poly : Nat
  init : Nat
deriving DecidableEq, Repr

def State.profile (s : State) (p : Nat) : Profile :=
  let a := chkProfCfg p
  { valid := s.rb a 31, silent := s.rb a 18, fold := s.rf a 17 16, inv := s.rb a 9, reflect := s.rb a 8,
    width := s.rf a 3 0, poly := s.rd64 (chkProfPolyLo p), init := s.rd64 (chkProfInitLo p) }

/-- crc(D) under a profile. -/
def Profile.crc (p : Profile) (d : List Byte) : Nat :=
  let w := 8 * p.width
  let reg := d.foldl (fun r b => (byteBits p.reflect b).foldl (crcGenBit w p.poly) r) p.init
  let out := if p.reflect then reverseBits w reg else reg
  if p.inv then Nat.xor out (2 ^ w - 1) else out

/-- The fold of 64 bits to w bits. -/
def foldBits (w f : Nat) : Nat :=
  if w = 0 then 0 else (upto ((63 + w) / w)).foldl (fun v k => Nat.xor v (f / 2 ^ (k * w) % 2 ^ w)) 0

/-- The fold input f of a shim (R258). -/
def Profile.foldInput (p : Profile) (shim : List Byte) : Nat :=
  let hk := keyHash 0 (shimKey shim)
  if p.fold = 1 then Nat.xor hk (shimOffset shim) else if p.fold = 2 then Nat.xor hk (shimReq shim) else 0

/-- The check value of data under a profile, with fold input f. -/
def Profile.check (p : Profile) (d : List Byte) (f : Nat) : Nat := Nat.xor (p.crc d) (foldBits (8 * p.width) f)

/-! ## Where a frame's layers are (R85, R259) -/

/-- LAYER_OFF[2], [3] and [7], and whether all are marked. -/
structure Layers where
  ip : Nat
  udp : Nat
  shim : Nat
deriving DecidableEq, Repr

def Head.layers (h : Head) : Layers := ⟨h.layerOff 2, h.layerOff 3, h.layerOff 7⟩
def unmarked : Nat := 0x3FF
def Layers.marked (l : Layers) : Bool := l.ip != unmarked && l.udp != unmarked && l.shim != unmarked
/-- The version nibble of the IP header at o; 0 beyond the frame. -/
def ipVersion (bs : List Byte) (o : Nat) : Nat := (bs.getD o 0).toNat / 16
def ipKnown (bs : List Byte) (o : Nat) : Bool := ipVersion bs o == 4 || ipVersion bs o == 6
/-- S: the first byte after the shim. -/
def Layers.dataStart (l : Layers) (bs : List Byte) : Nat := l.shim + 4 * beAt bs (l.shim + 3) 1
/-- U: the byte after the UDP payload. -/
def Layers.dataEnd (l : Layers) (bs : List Byte) : Nat := l.udp + beAt bs (l.udp + 4) 2

/-! ## Rewrites -/

/-- A 16-bit big-endian field. -/
def put16 (bs : List Byte) (i v : Nat) : List Byte := splice bs i (natBe 2 v)

/-- A 16-bit big-endian field changed by a signed number. -/
def add16 (bs : List Byte) (i : Nat) (d : Int) : List Byte := put16 bs i (((beAt bs i 2 : Int) + d) % 65536).toNat

/-- The lengths and checksums of `new` once d bytes came into the UDP payload of `old` (R227, R261, R262):
the IPv4 header checksum and a UDP checksum that is not 0 are updated incrementally. -/
def relength (old new : List Byte) (l : Layers) (d : Int) : List Byte :=
  let v := ipVersion old l.ip
  let n1 := if v = 4 then add16 new (l.ip + 2) d else if v = 6 then add16 new (l.ip + 4) d else new
  let n2 := add16 n1 (l.udp + 4) d
  let n3 := if v = 4 then
      put16 n2 (l.ip + 10) (csumUpdate (beAt old (l.ip + 10) 2) (beAt old (l.ip + 2) 2) (beAt n2 (l.ip + 2) 2))
    else n2
  let ck := beAt old (l.udp + 6) 2
  if ck = 0 then n3 else
  let sum (bs : List Byte) : Nat := onesAdd (onesSum (slice bs l.udp (beAt bs (l.udp + 4) 2))) (beAt bs (l.udp + 4) 2)
  let c := csumUpdate ck (sum old) (sum n3)
  put16 n3 (l.udp + 6) (if c = 0 then 65535 else c)

/-- A frame with its trailer of w bytes taken off (R261); `err` sets FLAGS.ERR (R265). -/
def stripTrailer (bs : List Byte) (l : Layers) (ver w : Nat) (err : Bool) : List Byte :=
  let u := l.dataEnd bs
  let n := min w (u - l.dataStart bs)
  let cut := bs.take (u - n) ++ bs.drop u
  let f0 := (bs.getD (l.shim + 5) 0).toNat
  let f1 := if ver = 3 then Nat.land f0 0xFB else f0
  let f2 := if err then Nat.lor f1 8 else f1
  relength bs (splice cut (l.shim + 5) (natBe 1 f2)) l (-(n : Int))

/-- A frame with its trailer put on at U (R262). -/
def appendTrailer (bs : List Byte) (l : Layers) (ver : Nat) (p : Profile) : List Byte :=
  let u := l.dataEnd bs
  let sh := bs.drop l.shim
  let val := p.check (slice bs (l.dataStart bs) (u - l.dataStart bs)) (p.foldInput sh)
  let put := bs.take u ++ natBe p.width val ++ bs.drop u
  let f := (bs.getD (l.shim + 5) 0).toNat
  let put2 := if ver = 3 then splice put (l.shim + 5) (natBe 1 (Nat.lor f 4)) else put
  relength bs put2 l p.width

/-- The bytes that a translation adds to the shim (R225). -/
def shimDelta (inVer out : Nat) : Int := (shimFixed out : Int) - (shimFixed inVer : Int)

/-- A shim translated (R225): `tr` where the copy leaves with a trailer, `epoch` the answer's. -/
def translateShim (sh : List Byte) (inVer out : Nat) (tr : Bool) (epoch : Nat) : List Byte :=
  let flags := Nat.lor (Nat.land (shimFlags sh) 0x0B) (if out = 3 ∧ tr then 4 else 0)
  let frag := if inVer = 1 then 0xFF else beAt sh 24 1
  let width := if inVer = 1 then 0 else beAt sh 25 1
  let ext := if out = 1 then [] else if out = 2 then natBe 1 frag ++ natBe 1 width ++ natBe 2 0
    else natBe 1 frag ++ natBe 1 width ++ natBe 2 0 ++ natBe 4 epoch ++ natBe 4 0xFFFFFFFF ++ natBe 2 0 ++ natBe 2 0
  let rest := slice sh (shimFixed inVer) (4 * beAt sh 3 1 - shimFixed inVer)
  let len := (24 + ext.length + rest.length) / 4
  natBe 2 (beAt sh 0 2) ++ natBe 1 out ++ natBe 1 len ++ natBe 1 (shimOp sh) ++ natBe 1 flags ++ slice sh 6 18 ++
    ext ++ rest

/-- A frame with its shim translated (R227). -/
def translateFrame (bs : List Byte) (l : Layers) (inVer out : Nat) (tr : Bool) (epoch : Nat) : List Byte :=
  let s := l.dataStart bs
  let new := translateShim (slice bs l.shim (s - l.shim)) inVer out tr epoch
  relength bs (bs.take l.shim ++ new ++ bs.drop s) l ((new.length : Int) - ((s - l.shim : Nat) : Int))

/-- The check units act on a frame (R259). -/
def Head.checkable (h : Head) : Bool := h.shimVer != 0 && shimQualifies h.shim
def Head.chkEn (h : Head) : Bool := h.md.getLsbD 551
def Head.chkProfile (h : Head) : Nat := h.get 557 552

/-- The received frame carries a trailer (R260). -/
def State.hasTrailer (s : State) (x : Frame) : Bool :=
  let h := x.head
  if h.shimVer = 3 then (shimFlags h.shim).testBit 2
  else h.shimVer != 0 && s.rb (chkPortCfg x.port) 1 && h.chkEn

/-- Why a verify fails; 0 where it passes (R264). -/
def State.verifyReason (s : State) (x : Frame) : Nat :=
  let h := x.head
  let p := s.profile h.chkProfile
  let l := h.layers
  let d := x.data
  let st := l.dataStart d
  let u := l.dataEnd d
  if !p.valid then 0x63
  else if !l.marked ∨ !(ipKnown d l.ip) then 0x64
  else if u < st + p.width then 0x61
  else
    let n := u - p.width - st
    let dl := shimDataLen (d.drop l.shim)
    if h.shimVer = 3 ∧ dl ≠ 0xFFFFFFFF ∧ dl ≠ n then 0x62
    else if p.check (slice d st n) (p.foldInput (d.drop l.shim)) = beAt d (st + n) p.width then 0 else 0x60

end Sys2Proof.Machine
end

