-- ==== Sys2Proof/Machine/SheetOps.lean ====
section
/-! DEFINITION. Sheet's arithmetic (R305 to R323, R328): policers, shapers, the DWRR group, the IP header's
traffic class byte and congestion marks. -/

namespace Sys2Proof.Machine

/-- The refill tick of device time (R305). -/
def State.tick (s : State) : Nat := s.ns / 128

/-! ## The traffic class byte of an IP header (R312, R323) -/

/-- The byte that holds DSCP and ECN of the IP header at o. -/
def ipTos (bs : List Byte) (o : Nat) : Nat :=
  if ipVersion bs o = 4 then beAt bs (o + 1) 1 else beAt bs o 2 / 16 % 256

/-- The same byte replaced; an IPv4 header checksum is updated incrementally. -/
def setTos (bs : List Byte) (o t : Nat) : List Byte :=
  let old := beAt bs o 2
  if ipVersion bs o = 4 then
    let new := old / 256 * 256 + t % 256
    put16 (put16 bs o new) (o + 10) (csumUpdate (beAt bs (o + 10) 2) old new)
  else put16 bs o (old / 4096 * 4096 + t % 256 * 16 + old % 16)

/-- ECN 0b01 or 0b10 becomes 0b11. -/
def markCe (bs : List Byte) (o : Nat) : List Byte :=
  let t := ipTos bs o
  if t % 4 = 1 ∨ t % 4 = 2 then setTos bs o (t / 4 * 4 + 3) else bs

/-- The frame carries an extension (R286). -/
def Frame.hasExt (x : Frame) : Bool :=
  x.head.shimVer != 0 || x.fab.kind == 1 || x.fab.kind == 2 || x.head.chkEn || x.head.get 559 558 != 0

/-- The offset past at most n tags. -/
def pastTags (bs : List Byte) : Nat → Nat → Nat
  | 0, o => o
  | n + 1, o => let t := beAt bs o 2; if t = 0x8100 ∨ t = 0x88A8 ∨ t = 0x9100 then pastTags bs n (o + 4) else o

/-- Where Sheet finds a frame's IP header (R323). -/
def Frame.ipAt (x : Frame) : Option Nat :=
  if x.hasExt then
    let o := x.head.layerOff 2
    if o != unmarked && ipKnown x.data o then some o else none
  else
    let o := pastTags x.data 2 12
    let t := beAt x.data o 2
    if (t == 0x0800 || t == 0x86DD) && ipKnown x.data (o + 2) then some (o + 2) else none

/-! ## Policers (R307 to R313) -/

def Pol.init : Pol := { cfg := [], tc := 0, te := 0, tick := 0, bad := false }
def Pol.w (p : Pol) (i : Nat) : Word := p.cfg.getD i 0
def Pol.mode (p : Pol) : Nat := fld (p.w 0) 31 30
def Pol.wire (p : Pol) : Bool := (p.w 0).getLsbD 29
def Pol.yellowAct (p : Pol) : Nat := fld (p.w 0) 28 27
def Pol.cir (p : Pol) : Nat := (p.w 1).toNat
def Pol.pir (p : Pol) : Nat := (p.w 2).toNat
/-- CBS, and EBS or PBS, in units of R305. -/
def Pol.cbs (p : Pol) : Nat := fld (p.w 3) 23 0 * 65536
def Pol.ebs (p : Pol) : Nat := fld (p.w 4) 23 0 * 65536

def State.pol (s : State) (sl k : Nat) : Pol := tget Pol.init s.sht.pols (16384 * sl + k)
def State.setPol (s : State) (sl k : Nat) (p : Pol) : State :=
  { s with sht := { s.sht with pols := tput s.sht.pols (16384 * sl + k) p } }

/-- The buckets after every tick up to tick t (R306, R309). In srTCM the ticks fill Tc and then Te. -/
def Pol.refill (p : Pol) (t : Nat) : Pol :=
  let n := t - p.tick
  if p.mode = 1 then
    let need := if p.cir = 0 then n else (p.cbs - p.tc + p.cir - 1) / p.cir
    { p with tick := t, tc := if p.tc < p.cbs then min (p.tc + n * p.cir) p.cbs else p.tc,
             te := min (p.te + (n - need) * p.cir) p.ebs }
  else { p with tick := t, tc := min (p.tc + n * p.cir) p.cbs, te := min (p.te + n * p.pir) p.ebs }

/-- A frame of b units is metered: its colour, 0 green, 1 yellow, 2 red (R309). -/
def Pol.colour (p : Pol) (b : Nat) : Pol × Nat :=
  if p.mode = 1 then
    if p.cir = 0 then (p, 2)
    else if b ≤ p.tc then ({ p with tc := p.tc - b }, 0)
    else if b ≤ p.te then ({ p with te := p.te - b }, 1)
    else (p, 2)
  else if p.pir = 0 ∨ p.cir = 0 ∨ p.te < b then (p, 2)
  else if p.tc < b then ({ p with te := p.te - b }, 1)
  else ({ p with te := p.te - b, tc := p.tc - b }, 0)

/-- A policer's five words keep to R308 and R310, and their reserved bits are 0. -/
def Pol.ok (p : Pol) : Bool :=
  p.mode != 3 && fld (p.w 0) 17 0 == 0 && fld (p.w 3) 31 24 == 0 && fld (p.w 4) 31 24 == 0 &&
    (p.mode == 0 || p.cbs != 0) && (p.mode != 2 || (p.ebs != 0 && decide (p.cir ≤ p.pir))) &&
    (p.mode != 1 || p.pir == 0)

/-- A policer word is read and checked (R328). -/
def State.polCheck (s : State) (sl k : Nat) : State :=
  let i := 16384 * sl + k
  let loc := BitVec.ofNat 32 (sl * 2 ^ 24 + k)
  match s.eccOf .policer i with
  | .ok => s
  | .corr => (((s.eccClear .policer i).setB shtErr 1).report 0x1F sl loc).count evShtEccCorr sl 0
  | .uncorr =>
    let s1 := (s.eccClear .policer i).setPol sl k { s.pol sl k with bad := true }
    (((s1.setB shtErr 2).wr shtErrLoc loc).report 0x20 sl loc).count evShtPolUncorr sl 0

/-- The action on a yellow frame (R312). -/
def State.yellow (s : State) (f : Nat) (p : Pol) : State :=
  let x := s.frame f
  let o := x.head.layerOff 2
  let known := o != unmarked && ipKnown x.data o
  if p.yellowAct = 2 then s.setHead f (x.head.put 550 548 (fld (p.w 0) 26 24))
  else if p.yellowAct = 0 then s
  else if !known then s.count evShtYellowSkip x.slice 0
  else if p.yellowAct = 1 then
    s.setFrame f { x with data := setTos x.data o (fld (p.w 0) 23 18 * 4 + ipTos x.data o % 4) }
  else s.setFrame f { x with data := markCe x.data o }

/-- POLICER_METER: the answer is that the frame is red. -/
def State.meter (s : State) (f : Nat) : State × Bool :=
  let x := s.frame f
  let sl := x.slice
  let k := x.head.get 589 576
  if !(x.head.md.getLsbD 575) then (s, false) else
  let s1 := s.polCheck sl k
  let p := (s1.pol sl k).refill s1.tick
  if p.bad then (s1.count evShtPolRed sl k, true)
  else if p.mode = 0 then (s1.count evShtPolGreen sl 0, false)
  else
    let q := p.colour ((x.len + if p.wire then 20 else 0) * 65536)
    let s2 := s1.setPol sl k q.1
    if q.2 = 0 then (s2.count evShtPolGreen sl 0, false)
    else if q.2 = 1 then ((s2.count evShtPolYellow sl k).yellow f p, false)
    else (s2.count evShtPolRed sl k, true)

/-! ## Shapers (R318 to R320). Shaper j is queue j, or 0x2000 + n for port n. -/

def Shp.init : Shp := { tokens := 0, tick := 0, fill := false, cut := false, bad := false }
def shpPort (j : Nat) : Bool := decide (0x2000 ≤ j)
def State.shpEn (s : State) (j : Nat) : Bool := s.rb (if shpPort j then shtPortCfg (j - 0x2000) else shtQcfg j) 31
def shpRateReg (j : Nat) : Nat := if shpPort j then shtPshapeRate (j - 0x2000) else shtQshapeRate j
def shpBurstReg (j : Nat) : Nat := if shpPort j then shtPshapeBurst (j - 0x2000) else shtQshapeBurst j
def State.shpRate (s : State) (j : Nat) : Nat := s.rdN (shpRateReg j)
def State.shpBurst (s : State) (j : Nat) : Nat := s.rf (shpBurstReg j) 23 0 * 65536
def shpSlice (j : Nat) : Nat := if shpPort j then (j - 0x2000) / 32 else j / 256
def State.shp (s : State) (j : Nat) : Shp := tget Shp.init s.sht.shps j
def State.setShp (s : State) (j : Nat) (x : Shp) : State :=
  { s with sht := { s.sht with shps := tput s.sht.shps j x } }

/-- The bucket after every tick up to now (R306, R318, R320). -/
def State.shpUpdate (s : State) (j : Nat) : State :=
  let x := s.shp j
  let n := s.tick - x.tick
  if n = 0 then s else
  let b : Int := s.shpBurst j
  let t : Int :=
    if x.fill then b
    else if 0 < s.shpRate j then min (x.tokens + (n * s.shpRate j : Nat)) b
    else if x.cut then min x.tokens b else x.tokens
  s.setShp j { x with tokens := t, tick := s.tick, fill := false, cut := false }

/-- A shaper word is read and checked (R328); what an uncorrectable one held is a free value
(DESIGN CHOICE, unsafe: log entry 51). -/
def State.shpCheck (s : State) (j : Nat) : State :=
  let sl := shpSlice j
  let loc := BitVec.ofNat 32 (sl * 2 ^ 24 + 2 ^ 16 + j)
  match s.eccOf .shaper j with
  | .ok => s
  | .corr => (((s.eccClear .shaper j).setB shtErr 1).report 0x1F sl loc).count evShtEccCorr sl 0
  | .uncorr =>
    let v := (s.eccClear .shaper j).free 40
    let s1 := v.2.setShp j { v.2.shp j with bad := true, tokens := v.1 }
    (((s1.setB shtErr 3).wr shtErrLoc loc).report 0x21 sl loc).count evShtShaperUncorr sl 0

/-- The shaper holds (R319, R328). -/
def State.shpHolds (s : State) (j : Nat) : Bool := s.shpEn j && (s.shpRate j == 0 || (s.shp j).bad)
/-- The shaper allows a frame; its bucket is up to date. -/
def State.shpAllows (s : State) (j : Nat) : Bool :=
  !(s.shpEn j) || (!(s.shpHolds j) && decide (0 ≤ (s.shp j).tokens))

/-- LEN_ADJ of a port, signed. -/
def State.lenAdj (s : State) (n : Nat) : Int := (BitVec.ofNat 8 (s.rf (shtPortCfg n) 7 0)).toInt

/-- A frame of d bytes on port n charges shaper j. -/
def State.shpCharge (s : State) (j n d : Nat) : State :=
  if s.shpEn j then
    let x := s.shp j
    s.setShp j { x with tokens := x.tokens - 65536 * (d + s.lenAdj n) }
  else s

/-- The new RATE and BURST of a shaper take effect together (R320). -/
def State.burstWrite (s : State) (j : Nat) (v : Word) : State :=
  let s1 := (s.eccClear .shaper j).shpUpdate j
  let r := shpRateReg j
  let s2 := match tfind s1.held r with
    | some w => { s1.wr r w with held := tdel s1.held r }
    | none => s1
  (s2.plainWrite (shpBurstReg j) v).setShp j { s2.shp j with cut := true, bad := false }

/-- A shaper is switched on or off by a configuration write (R320). -/
def State.shapeEnWrite (s : State) (a j : Nat) (v : Word) : State :=
  let s1 := s.shpUpdate j
  let s2 := s1.plainWrite a v
  if v.getLsbD 31 ∧ !(s.rb a 31) then s2.setShp j { s2.shp j with fill := true } else s2

/-! ## The DWRR group (R315, R316) -/

def Dwrr.init : Dwrr := { ptr := 0, fresh := true, deficit := [] }
def State.dwrrOf (s : State) (n : Nat) : Dwrr := tget Dwrr.init s.sht.dwrr n
def State.setDwrr (s : State) (n : Nat) (d : Dwrr) : State :=
  { s with sht := { s.sht with dwrr := tput s.sht.dwrr n d } }
def Dwrr.advance (d : Dwrr) : Dwrr := { d with ptr := (d.ptr + 1) % 6, fresh := true }

/-- The loop of R315: `quantum` of each class and `len` of the head of each eligible one. The answer is
the class to serve. -/
def dwrrLoop (quantum : Nat → Nat) (len : Nat → Option Nat) : Nat → Dwrr → Dwrr × Option Nat
  | 0, d => (d, none)
  | fuel + 1, d =>
    match len d.ptr with
    | none => dwrrLoop quantum len fuel d.advance
    | some l =>
      if quantum d.ptr = 0 then dwrrLoop quantum len fuel d.advance
      else
        let have' := tget 0 d.deficit d.ptr + (if d.fresh then 64 * quantum d.ptr else 0)
        let d1 := { d with fresh := false, deficit := tput d.deficit d.ptr have' }
        if l ≤ have' then (d1, some d.ptr) else dwrrLoop quantum len fuel d1.advance

def State.quantum (s : State) (n c : Nat) : Nat := s.rf (shtQcfg (8 * n + c)) 27 16

/-- The class that the group of port n serves (R315, R316). -/
def State.dwrrPick (s : State) (n : Nat) (len : Nat → Option Nat) : State × Option Nat :=
  if (upto 6).any fun c => (len c).isSome && s.quantum n c != 0 then
    let r := dwrrLoop (s.quantum n) len 4096 (s.dwrrOf n)
    (s.setDwrr n r.1, r.2)
  else (s, [5, 4, 3, 2, 1, 0].find? fun c => (len c).isSome)

/-- The group pays for the frame it serves; a class with QUANTUM 0 keeps no deficit. -/
def State.dwrrPay (s : State) (n c len : Nat) : State :=
  if 6 ≤ c ∨ s.quantum n c = 0 then s else
  let d := s.dwrrOf n
  s.setDwrr n { d with deficit := tput d.deficit c (tget 0 d.deficit c - len) }

/-! ## Congestion marking (R322) -/

/-- One step of the generator (DESIGN CHOICE, unsafe: log entry 44). -/
def genStep (g : Nat) : Nat := if g % 2 = 1 then Nat.xor (g / 2) 0x80200003 else g / 2

def State.gen (s : State) (sl : Nat) : Nat := tget (s.rdN shtEcnSeed) s.sht.gens sl

/-- Sojourn of a frame. -/
def State.sojourn (s : State) (x : Frame) : Nat := s.ns - x.rxTs

/-- The frame that begins from queue q is judged under the queue's profile; the answer is that it is
selected for a mark. -/
def State.ecnJudge (s : State) (q sojourn : Nat) : State × Bool :=
  let k := s.rf (shtQcfg q) 15 12
  if k = 0 then (s, false) else
  let sl := q / 256
  let g := genStep (s.gen sl)
  let s1 := { s with sht := { s.sht with gens := tput s.sht.gens sl g } }
  let mx := s.rf (shtEcnThr (k - 1)) 31 16
  let mn := s.rf (shtEcnThr (k - 1)) 15 0
  if sojourn ≤ 64 * mn then (s1, false)
  else if 64 * mx ≤ sojourn then (s1, true)
  else
    let p := s.rf (shtEcnP (k - 1)) 15 0 * (sojourn - 64 * mn) / (64 * (mx - mn))
    (s1, decide (g % 65536 < p))

/-- The copy c begins from its queue: it is marked, or counted as not ECT (R323). -/
def State.ecnMark (s : State) (c : Nat) : State :=
  let y := s.copy c
  let q := 8 * y.port + y.tc
  let x := s.frame y.fid
  let r := s.ecnJudge q (s.sojourn x)
  if !r.2 then r.1 else
  match x.ipAt with
  | none => r.1.count evShtEcnNotEct q 0
  | some o =>
    let e := ipTos x.data o % 4
    if e = 0 then r.1.count evShtEcnNotEct q 0
    else if e = 3 then r.1
    else (r.1.setCopy c { y with marked := true }).count evShtEcnMark q 0

end Sys2Proof.Machine
end

