-- ==== Sys2Proof/Machine/StairOps.lean ====
section
/-! DEFINITION. Stairwell's ingress (R269 to R282, R297 to R300): flow hash, groups and sets, destinations,
mirrors, samplers, admission, and what follows the end of a frame's ingress. -/

namespace Sys2Proof.Machine

/-! ## Flow hash and groups (R271, R272) -/

/-- The pieces of hash profile k. -/
def State.hashPieces (s : State) (k : Nat) : List Nat :=
  (upto 8).map fun p => if p % 2 = 0 then s.rf (stwHashPiece k (p / 2)) 15 0 else s.rf (stwHashPiece k (p / 2)) 31 16

/-- The flow hash of a head of port n. -/
def State.flowHash (s : State) (n : Nat) (h : Head) : Nat :=
  let k := s.rf (stwPortCfg n) 15 13
  let v := crc32cSeed (s.rdN (stwHashSeed k)) (slice (keyBytes h (s.hashPieces k)) 0 40)
  if s.rb (stwHashCtl k) 31 ∧ h.shimVer ≠ 0 then
    Nat.xor v (Nat.xor (beAt h.hv 328 4) (beAt h.hv 332 4))
  else v

/-- f16 of a flow hash. -/
def fold16 (h : Nat) : Nat := Nat.xor (h / 65536 % 65536) (h % 65536)

def State.gmember (s : State) (m : Nat) : GMember := tget ⟨false, 0, 0⟩ s.stw.members m
def State.sgroup (s : State) (g : Nat) : Group := tget ⟨false, 0, 0, 0⟩ s.stw.groups g

/-- The member that group g chooses for f16; `none` where no member is live. -/
def State.groupPick (s : State) (g f16 : Nat) : Option Nat :=
  let x := s.sgroup g
  let live := (upto x.count).filter fun i =>
    let n := (s.gmember (x.base + i)).port
    x.live.getLsbD i && (!x.auto || (s.portEnabled n && s.linkUp n))
  if live.isEmpty then none else some (x.base + live.getD (f16 * live.length / 65536) 0)

/-- The port of a member's egress: itself, or the group's choice. -/
def State.memberPort (s : State) (m : Member) (f16 : Nat) : Option Nat :=
  if m.dest < 512 then some m.dest else (s.groupPick (m.dest - 512) f16).map fun k => (s.gmember k).port

/-! ## Destinations (R270) -/

/-- What a destination resolves to. -/
inductive Resolved where
  | bad
  | noGroup
  | empty
  | copies (kind : Nat) (nh : Option Nat) (ports : List (Nat × Option Member))
deriving DecidableEq, Repr

/-- The ports of generic set k, each once. -/
def State.setPorts (s : State) (k f16 : Nat) : List Nat :=
  let g := tget ⟨0, []⟩ s.stw.sets k
  let own := (upto 512).filter fun n => g.bitmap.getLsbD n
  let more := (g.groups.filter fun w => w.testBit 15).filterMap fun w =>
    (s.groupPick (w % 4096) f16).map fun m => (s.gmember m).port
  more.foldl sadd own

/-- The destination of a head in its stage region, and f16. -/
def State.resolve (s : State) (h : Head) (f16 : Nat) : Resolved :=
  let kind := h.get 530 528
  let dest := h.get 547 532
  let placed := h.crow && decide (h.place 30 26 ≠ 0) && h.place 2 0 == kind && h.place 18 3 == dest
  let one := if placed then h.members.head? else none
  if kind = 1 then (if dest < 512 then .copies 0 none [(dest, one)] else .bad)
  else if kind = 3 then
    if 4096 ≤ dest then .bad else
    match s.groupPick dest f16 with
    | none => .noGroup
    | some m => .copies 0 (some m) [((s.gmember m).port, one)]
  else if kind = 2 then
    if dest < 0x400 then
      let l := s.setPorts dest f16
      if l.isEmpty then .empty else .copies 1 none (l.map fun n => (n, none))
    else if 0xC000 ≤ dest ∧ placed then
      let l := h.members.filterMap fun m => (s.memberPort m f16).map fun n => (n, some m)
      if l.isEmpty then .empty else .copies 2 none l
    else .bad
  else .bad

/-- The queues of a frame of kind k and class c with these copies (R269). -/
def queuesOf (k c : Nat) (ports : List (Nat × Option Member)) : List Nat :=
  if k = 0 ∨ k = 3 then (ports.map fun p => 8 * p.1 + c).take 1
  else (ports.foldl (fun acc p => sadd acc (p.1 / 32)) []).map fun e => 4096 + 8 * e + c

/-- The egress slices of a frame. -/
def egressOfPorts (ports : List (Nat × Option Member)) : List Nat := ports.foldl (fun acc p => sadd acc (p.1 / 32)) []

/-- The egress slice of queue q. -/
def queueSlice (q : Nat) : Nat := if q < 4096 then q / 256 else (q - 4096) / 8
def queueTc (q : Nat) : Nat := q % 8

/-- The bytes of a next-hop address. -/
def GMember.mac (m : GMember) : List Byte := natBe 6 m.nh

/-! ## Samples and mirrors (R297 to R300) -/

/-- The header of a sample without its ADMIT (R300). -/
def sampleHeader (sl k seq : Nat) (x : Frame) (trunc : Nat) : List Byte :=
  let h := x.head
  natLe 4 (sl * 2 ^ 22 + k * 2 ^ 16 + seq % 65536) ++ natLe 4 (x.len * 2 ^ 9 + x.port) ++
    natLe 4 (h.get 547 532 * 2 ^ 16 + h.tc * 2 ^ 8 + h.cause * 2 ^ 4 + h.get 523 523 * 8 + h.get 530 528) ++
    natLe 4 (min (64 * trunc) (x.len - 4)) ++ natLe 8 x.rxTs ++ natLe 8 0

/-- SAMPLER_SELECT (R299): a frame that selects a sampler raises its count, and the Nth becomes a
sample ticket, which waits to learn its ADMIT (DESIGN CHOICE, unsafe: log entry 39). -/
def State.samplerSelect (s : State) (f : Nat) : State :=
  let x := s.frame f
  let sel := x.head.get 574 568
  if sel = 0 ∨ 64 < sel then s else
  let k := sel - 1
  let n := s.rf (stwSampCfg k) 23 0
  if n = 0 then s else
  let sl := x.slice
  let c := tget (0, 0) s.stw.samp (64 * sl + k)
  if c.1 + 1 < n then { s with stw := { s.stw with samp := tput s.stw.samp (64 * sl + k) (c.1 + 1, c.2) } }
  else
    let s1 := { s with stw := { s.stw with samp := tput s.stw.samp (64 * sl + k) (0, (c.2 + 1) % 65536) } }
    let trunc := s.rf (stwSampCfg k) 31 24
    let t : Ticket := { Ticket.init with
      src := 2, prog := s.rf (stwSampProg k) 15 0, flow16 := x.fab.hash, cause := x.head.cause, inPort := x.port,
      data := sampleHeader sl k c.2 x trunc, md := x.head.md.toNat, rxTs := x.rxTs, slice := sl, fid := f, sampler := k,
      cap := 64 * trunc, owed := 4 }
    (s1.newTicket t).1.count evStwSample sl k

/-- The ingress mirror copies of frame f for the sessions of a set (R297). -/
def State.mirrorsOf (s : State) (f set : Nat) : State :=
  let x := s.frame f
  s.each ((upto 8).filter fun m => set.testBit m && s.rb (stwMirror m) 31) fun t m =>
    let a := stwMirror m
    let c := t.rf a 30 28
    let dest := t.rf a 15 0
    let port := if t.rf a 19 17 = 1 then some (dest % 512) else (t.groupPick dest x.fab.hash).map fun g => (t.gmember g).port
    match port with
    | none => t.count evStwGroupEmpty x.slice 0
    | some n =>
      (t.newFrame { Frame.init with
        port := x.port, origin := 4, settled := true, noticed := true,
        fab := { Fab.init with kind := 3, dest := m, tc := c, queues := [8 * n + c], ports := [(n, none)],
                               mirror := some m, mirrorOf := some f } }).1

/-- INGRESS_MIRROR (R297): the mirror copies that a frame yields when its chain has ended. -/
def State.mirrors (s : State) (f : Nat) : State :=
  let x := s.frame f
  s.mirrorsOf f (Nat.lor (x.head.get 567 560) (s.rf (stwPortCfg x.port) 23 16))

/-! ## The end of a frame's ingress (R243) -/

/-- The frame's ingress is over: its samples learn their ADMIT. -/
def State.settle (s : State) (f admitBy : Nat) : State :=
  let s1 := s.setFrame f { s.frame f with settled := true }
  { s1 with lft := { s1.lft with tickets := s1.lft.tickets.map fun p =>
      if p.2.src = 2 ∧ p.2.fid = f ∧ p.2.owed = 4 then
        (p.1, { p.2 with owed := admitBy, data := splice p.2.data 9 (natLe 1 ((p.2.data.getD 9 0).toNat % 8 + 8 * admitBy)) })
      else p } }

/-- The shim OP is GET, PUT or DELETE, and the frame carries a shim. -/
def Head.isRequest (h : Head) : Bool :=
  h.shimVer != 0 && decide (1 ≤ shimOp h.shim ∧ shimOp h.shim ≤ 3)

/-- A notice event befalls a frame with OP GET, PUT or DELETE. -/
def State.befall (s : State) (f typ reason : Nat) : State :=
  let x := s.frame f
  if x.head.isRequest then s.setFrame f { x with events := x.events ++ [(typ, reason)] } else s

/-- A frame ends without crossing: its ingress is over with that ADMIT, and what it holds is released. -/
def State.endIngress (s : State) (f admitBy : Nat) : State := (s.settle f admitBy).discardFrame f

/-! ## Admission (R275 to R279) -/

def Voq.init : Voq := { st := 0, die := [], spill := [], latch := [], blocks := [], fill := 0, sent := 0 }
def State.voq (s : State) (sl q : Nat) : Voq := tget Voq.init s.stw.voqs (4224 * sl + q)
def State.setVoq (s : State) (sl q : Nat) (v : Voq) : State :=
  { s with stw := { s.stw with voqs := tput s.stw.voqs (4224 * sl + q) v } }

/-- The Pantry units that frames hold. -/
def State.unitsIn (s : State) (l : List Nat) : Nat :=
  (l.map fun f => (s.frame f).units + (s.frame f).hr).sum

def State.alpha (s : State) (c : Nat) : Nat := s.rf (stwTcCfg c) 3 0
/-- depth + u ≤ α × F. -/
def State.alphaOk (s : State) (sl c depth u : Nat) : Bool :=
  decide ((depth + u) * 64 ≤ s.freeUnits sl * 2 ^ s.alpha c)

/-- Spill blocks of a slice, and those it holds (R281). -/
def State.spillBlocks (s : State) : Nat := (s.part 0).2 / 16 / 4096
def State.spillHeld (s : State) (sl : Nat) : List Nat := tget [] s.stw.spillUsed sl
def State.spillFull (s : State) (sl : Nat) : Bool := decide (s.spillBlocks ≤ (s.spillHeld sl).length)
def Voq.spillDepth (v : Voq) : Nat := (v.spill.map (·.size)).sum

/-- R275 lets frame f spill from queue q. -/
def State.maySpill (s : State) (sl q : Nat) : Bool :=
  let c := queueTc q
  decide (q < 4096) && s.rb (stwTcCfg c) 16 &&
    decide ((s.voq sl q).spillDepth < s.rf (stwTcCfg c) 31 20 * 2 ^ 20) && !(s.spillFull sl)

/-- How a queue takes a frame of u units: 0 refused, 1 on die, 2 to spill, 3 on die by force. -/
def State.admitTo (s : State) (sl q u : Nat) (lossless spillable : Bool) : Nat :=
  let v := s.voq sl q
  let c := queueTc q
  if 4096 ≤ q then (if s.alphaOk sl c (s.unitsIn v.die) u || lossless then 1 else 0)
  else if v.st = 0 ∧ s.alphaOk sl c (s.unitsIn v.die) u then 1
  else if spillable ∧ s.maySpill sl q then 2
  else if lossless then 3
  else 0

/-- A frame joins queue q as `how` says (R279). -/
def State.enqueue (s : State) (sl q f how : Nat) : State :=
  let v := s.voq sl q
  let x := s.frame f
  let r : SpillRec := ⟨f, how == 3, false, [], 64 * (x.units + x.hr)⟩
  let v1 :=
    if how = 1 ∨ (how = 3 ∧ v.st = 0) then { v with die := v.die ++ [f] }
    else if v.st = 2 then { v with latch := v.latch ++ [f] }
    else { v with st := 1, spill := v.spill ++ [r] }
  let s1 := s.setVoq sl q v1
  if how = 2 ∧ v.st ≠ 2 then s1.count evStwSpillFrames sl 0 else s1

/-- The declared length of a frame that may be cut through (R295). -/
def Frame.ctLength (x : Frame) : Option Nat :=
  let o := x.head.layerOff 2
  let v := ipVersion x.data o
  if o = unmarked then none
  else if v = 4 then some (max 64 (o + beAt x.data (o + 2) 2 + 4))
  else if v = 6 then some (max 64 (o + 40 + beAt x.data (o + 4) 2 + 4))
  else none

/-- The copies that wait in egress queue k = 8 × port + class, and their units. -/
def State.egList (s : State) (k : Nat) : List Nat := tget [] s.stw.egq k
def State.egDepth (s : State) (k : Nat) : Nat := ((s.egList k).map fun c => (s.copy c).units).sum

/-- A copy to port n takes an append (R262). -/
def State.takesAppend (s : State) (x : Frame) (n : Nat) : Bool :=
  x.fab.kind != 3 && x.head.chkEn && x.head.checkable && s.rb (chkPortCfg n) 0 && x.origin != 5

/-- The length under R295 with which a frame is marked CT (R294). -/
def State.ctMark (s : State) (x : Frame) (q : Nat) : Option Nat :=
  let n := q / 8
  if !x.complete && decide (q < 4096) && s.rb (stwPortCfg n) 12 && decide (s.portSpeed n ≤ s.portSpeed x.port) &&
      (s.voq x.slice q).die.isEmpty && (s.voq x.slice q).st == 0 && (s.egList q).isEmpty && x.fab.verify == 0 &&
      !(s.takesAppend x n) && x.fab.kind == 0 && x.origin == 0 && !x.bad then
    match x.ctLength with
    | some d => if d ≤ s.mtu n then some d else none
    | none => none
  else none

/-- A frame is refused at admission (R278): 1 QUEUE_FULL, 2 BUFFER_FULL. -/
def State.refuse (s : State) (f why : Nat) : State :=
  let x := s.frame f
  let s1 := s.setFab f { x.fab with refused := why }
  match x.fab.mirror with
  | some m => (s1.count evStwMirrorDrop m 0).discardFrame f
  | none =>
    let s2 := s1.count (if why = 1 then evStwRefuseQfull else evStwRefuseBuffull) x.port x.fab.tc
    let s3 := if why = 2 ∧ s.lossless x.port x.fab.tc ∧ x.origin < 4 then s2.count evStwHeadroomDrop x.port 0 else s2
    (s3.befall f 1 (0x50 + why)).endIngress f why

/-- A mirror copy takes its bytes: the frame as received, truncated (DESIGN CHOICE, unsafe: log entry 38). -/
def State.mirrorFill (s : State) (f : Nat) : State :=
  let x := s.frame f
  match x.fab.mirrorOf, x.fab.mirror with
  | some o, some m =>
    let y := s.frame o
    let t := s.rf (stwMirror m) 27 20
    let d := if t = 0 then y.orig else y.orig.take (64 * t)
    (s.setFrame f { x with data := d, orig := d, len := max 64 (d.length + 4), rxTs := s.ns, bad := y.bad,
                           fab := { x.fab with mirrorOf := none, hash := y.fab.hash } }).tidy o
  | _, _ => s

/-- The units that a frame not of Porch holds from its admission on; `none` where the pool has too few. -/
def State.admitUnits (s : State) (f : Nat) : Option State :=
  let x := s.frame f
  if x.units + x.hr ≠ 0 then some s else
  let u := unitsOf x.len
  if u ≤ s.freeUnits x.slice then some (s.setFrame f { x with units := u }) else none

/-- A session's port is down. -/
def State.portDown (s : State) (n : Nat) : Bool := !(s.portEnabled n && s.linkUp n) || s.isoSlice (n / 32)

/-- The frame enters its queues (R275 to R279, R294) (DESIGN CHOICE, unsafe: log entry 35). -/
def State.intake (s : State) (f : Nat) : State :=
  let x := s.frame f
  let sl := x.slice
  let c := x.fab.tc
  let u := if x.units + x.hr = 0 then unitsOf x.len else x.units + x.hr
  let loss := s.lossless x.port c && decide (x.origin < 4)
  let hows := x.fab.queues.map fun q => (q, s.admitTo sl q u loss (x.fab.kind != 3))
  if hows.any fun p => p.2 == 0 then
    s.refuse f (if s.freeUnits sl = 0 ∨ s.spillFull sl then 2 else 1)
  else
    match s.admitUnits f with
    | none => s.refuse f 2
    | some s1 =>
      let y := s1.frame f
      let ct := s1.ctMark y (x.fab.queues.headD 0)
      let s2 := s1.setFrame f { y with
        counted := some c
        fab := { y.fab with admitted := true, ct := ct.isSome, declared := ct.getD y.len, owed := egressOfPorts y.fab.ports } }
      let s3 := s2.each hows fun t p => t.enqueue sl p.1 f p.2
      let s4 := s3.each hows fun t _ => t.count (if x.fab.kind = 0 ∨ x.fab.kind = 3 then evStwEnqUc else evStwEnqMc) sl 0
      let s5 := match x.fab.mirror with
        | some m => s4.count evStwMirrorCopy m 0
        | none => s4
      (s5.settle f 0).xoffUpdate x.port

/-! ## Direct frames and notices (R270, R246) -/

/-- A frame that Stairwell is given whole, with the copies it is to make: it is offered to its queues. -/
def State.directEnter (s : State) (x : Frame) (kind c hash : Nat) (ports : List (Nat × Option Member)) :
    State × Nat :=
  let r := s.newFrame { x with
    rxTs := s.ns
    fab := { Fab.init with kind := kind, tc := c, hash := hash, ports := ports, queues := queuesOf kind c ports,
                           dest := (ports.headD (0, none)).1 } }
  ({ r.1 with pipe := { r.1.pipe with nextSeq := r.1.pipe.nextSeq + 1 } }.setHead r.2
    { (r.1.frame r.2).head with seq := r.1.pipe.nextSeq }, r.2)

end Sys2Proof.Machine
end

