-- ==== Sys2Proof/Machine/FabricOps.lean ====
section
/-! DEFINITION. Stairwell's spill, crossbar and egress (R279 to R292, R301). -/

namespace Sys2Proof.Machine

/-! ## Spill (R279 to R282) -/

/-- The base of a slice's spill region. -/
def State.spillBase (s : State) (sl : Nat) : Nat := sl * ((s.part 0).2 / 16)

/-- depth_die is below α × F / 2. -/
def State.shallow (s : State) (sl q : Nat) : Bool :=
  decide (s.unitsIn (s.voq sl q).die * 128 < s.freeUnits sl * 2 ^ s.alpha (queueTc q))

/-- The VOQ leaves SPILL or LATCH where R279 says so. -/
def State.voqSettle (s : State) (sl q : Nat) : State :=
  let v := s.voq sl q
  let latch := v.st == 1 && s.shallow sl q && decide (v.blocks.length ≤ 16)
  let s1 := if latch then s.count evStwLatch sl 0 else s
  let v1 := if latch then { v with st := 2 } else v
  if v1.st = 2 ∧ v1.spill.isEmpty then
    s1.setVoq sl q { v1 with st := 0, die := v1.die ++ v1.latch, latch := [] }
  else if latch then s1.setVoq sl q v1
  else s1

/-- A free block of a slice's region, lowest first. -/
def State.freeBlock (s : State) (sl : Nat) : Option Nat :=
  let held := s.spillHeld sl
  (upto (held.length + 1)).find? fun b => !(shas held b) && decide (b < s.spillBlocks)

/-- Bytes are packed behind those of the VOQ, in blocks taken as they are needed: the pieces, or none
where the region is full. -/
def State.spillPack (sl q : Nat) : Nat → Nat → State → Option (State × List (Nat × Nat))
  | 0, n, s => if n = 0 then some (s, []) else none
  | fuel + 1, n, s =>
    if n = 0 then some (s, []) else
    let v := s.voq sl q
    if v.blocks.isEmpty ∨ v.fill = 4096 then
      match s.freeBlock sl with
      | none => none
      | some b =>
        let s1 := { s with stw := { s.stw with spillUsed := tput s.stw.spillUsed sl (sadd (s.spillHeld sl) b) } }
        let k := min n 4096
        (State.spillPack sl q fuel (n - k) (s1.setVoq sl q { v with blocks := v.blocks ++ [b], fill := k })).map fun r =>
          (r.1, (s.spillBase sl + 4096 * b, k) :: r.2)
    else
      let k := min n (4096 - v.fill)
      let b := v.blocks.getLastD 0
      (State.spillPack sl q fuel (n - k) (s.setVoq sl q { v with fill := v.fill + k })).map fun r =>
        (r.1, (s.spillBase sl + 4096 * b + v.fill, k) :: r.2)

/-- A string cut into pieces of these lengths. -/
def cutAt : List Byte → List (Nat × Nat) → List (Nat × List Byte)
  | _, [] => []
  | bs, (a, k) :: t => (a, bs.take k) :: cutAt (bs.drop k) t

/-- The record of a frame in a VOQ's spill order replaced. -/
def Voq.mapSpill (v : Voq) (f : Nat) (g : SpillRec → SpillRec) : Voq :=
  { v with spill := v.spill.map fun r => if r.fid = f then g r else r }

/-- The blocks that no unreturned record needs go back to the slice. -/
def State.freeBlocks (s : State) (sl q : Nat) : State :=
  let v := s.voq sl q
  let need := v.spill.flatMap fun r => r.pieces.map fun p => (p.1 - s.spillBase sl) / 4096
  let last := v.blocks.getLastD 0
  let keep := v.blocks.filter fun b => shas need b || (b == last && !v.spill.isEmpty)
  let used := tset [] s.stw.spillUsed sl ((s.spillHeld sl).filter fun b => shas keep b || !(shas v.blocks b))
  let s1 := { s with stw := { s.stw with spillUsed := used } }
  s1.setVoq sl q { v with blocks := keep, fill := if keep.isEmpty then 0 else v.fill }

/-- A spilled frame is lost (R282). -/
def State.spillLost (s : State) (sl q f : Nat) : State :=
  let loc := BitVec.ofNat 32 (sl * 2 ^ 16 + q)
  ((((s.setB stwErr 3).wr stwErrLoc loc).report 0x1E sl loc).count evStwSpillLost sl 0).discardFrame f

/-! ## The crossbar (R283 to R287) -/

/-- The cell space of a frame, and how much of it can be sent by now. -/
def Frame.headSpace (x : Frame) : Nat := 16 + if x.hasExt then 48 else 0
def Frame.space (x : Frame) : Nat := x.headSpace + x.fab.declared
def Frame.spaceReady (x : Frame) : Nat :=
  if x.complete then x.space else x.headSpace + min x.fab.declared x.data.length

/-- Units of slice e's egress store that are neither held nor reserved. -/
def State.egFree (s : State) (e : Nat) : Nat :=
  s.egressUnits - ((s.stw.eg.filter fun p => p.2.dst == e).map fun p => p.2.resv + p.2.hold).sum

/-- The head of a queue may take its first cell's grant, but for the round-robin order (R284). -/
def State.firstCellOk (s : State) (sl q : Nat) : Bool :=
  let v := s.voq sl q
  match v.die with
  | [] => false
  | f :: _ =>
    let x := s.frame f
    v.sent == 0 && (x.complete || x.fab.ct) && !(x.complete && x.bad) &&
      decide (unitsOf x.fab.declared ≤ s.egFree (queueSlice q)) &&
      (decide (4096 ≤ q) || decide (s.egDepth q < s.rf (stwPortEq (q / 8)) 15 0)) &&
      (tfind s.stw.egCur q).isNone

/-- The next slice in turn among those that pass for queue q. -/
def State.turnOf (s : State) (q : Nat) : Option Nat :=
  let last := tget 15 s.stw.rr q
  ((upto 16).map fun i => (last + 1 + i) % 16).find? fun sl => s.firstCellOk sl q

/-- A copy of the frame has been begun at slice e. -/
def State.begunAt (s : State) (f e : Nat) : Bool := (s.copiesAt f e).any fun p => p.2.st == 2

/-- A begun cut-through frame of egress slice e has cells to send (R284). -/
def State.ctUrgent (s : State) (e : Nat) : Option (Nat × Nat) :=
  (s.stw.egCur.find? fun p =>
    queueSlice p.1 == e && (match (s.voq p.2 p.1).die with
      | f :: _ => (s.frame f).fab.ct && s.begunAt f e && decide ((s.voq p.2 p.1).sent < (s.frame f).spaceReady)
      | [] => false)).map fun p => (p.2, p.1)

/-- An uncorrectable error in a frame at egress slice e: copies begun are poisoned, the others end (R287,
R301) (DESIGN CHOICE, unsafe: log entry 37). -/
def State.egError (s : State) (f e why : Nat) : State :=
  s.each (s.copiesAt f e) fun t p =>
    let y := t.copy p.1
    if y.st = 2 then (if y.poison = 0 then t.setCopy p.1 { y with poison := why } else t)
    else if y.st = 3 then t
    else (t.copyEnd p.1 0x11).copyGone p.1

/-- An uncorrectable error in a frame at its ingress slice (R301): it is discarded, or what has crossed
is poisoned or ended. -/
def State.inError (s : State) (f : Nat) : State :=
  let x := s.frame f
  let crossed := x.fab.owed.filter fun e => (s.egFrame f e).isSome
  if crossed.isEmpty then (if x.settled then s.discardFrame f else s.endIngress f 3)
  else
    let s1 := s.each crossed fun t e => t.egError f e 3
    let y := s1.frame f
    let voqs := s1.stw.voqs.map fun (p : Nat × Voq) =>
      (p.1, if p.2.die.head? = some f then { p.2.without f with sent := 0 } else p.2.without f)
    let cur := s1.stw.egCur.filter fun (p : Nat × Nat) => (s1.voq p.2 p.1).die.head? != some f
    let eg := s1.stw.eg.map fun (p : Nat × EgFrame) => if p.2.fid = f then (p.1, { p.2 with want := p.2.got }) else p
    let s3 := { s1 with stw := { s1.stw with voqs := voqs, egCur := cur, eg := eg } }
    (s3.setFrame f { y with complete := true, bad := true, fab := { y.fab with queues := [], owed := crossed } }).freeFrameUnits f

/-- BUF_CORR and BUF_UNCORR of slice sl. -/
def State.bufCorr (s : State) (sl : Nat) : State := ((s.setB stwErr 1).report 0x1B sl 0).count evStwBufCorr sl 0
def State.bufUncorr (s : State) (sl : Nat) : State :=
  (((s.setB stwErr 2).wf stwErrLoc 19 16 sl).report 0x1C sl 0).count evStwBufUncorr sl 0

/-- A frame is read in a slice's packet buffer (R301): the answer is that it can go on. -/
def State.pantryRead (s : State) (sl key : Nat) : State × Bool :=
  match s.eccOf .pantry key with
  | .ok => (s, true)
  | .corr => ((s.eccClear .pantry key).bufCorr sl, true)
  | .uncorr => ((s.eccClear .pantry key).bufUncorr sl, false)

/-- The key of a frame's words in a packet buffer: its ingress slice's, or egress slice e's. -/
def pantryIn (f : Nat) : Nat := 2 * f
def pantryEg (f e : Nat) : Nat := 2 * (16 * f + e) + 1

/-- The last cell of a frame has left queue q. -/
def State.frameSent (s : State) (sl q f : Nat) : State :=
  let v := s.voq sl q
  let s1 := s.setVoq sl q { v with die := v.die.drop 1, sent := 0 }
  let s2 := { s1 with stw := { s1.stw with egCur := tdel s1.stw.egCur q, rr := tput s1.stw.rr q sl } }
  let x := s2.frame f
  let l := x.fab.queues.filter (· != q)
  let s3 := s2.setFab f { x.fab with queues := l }
  if l.isEmpty then s3.freeFrameUnits f else s3

/-- The egress slice reserves the units of a frame with its first cell's grant. -/
def State.egReserve (s : State) (f q : Nat) : State :=
  let x := s.frame f
  s.setEg ⟨f, queueSlice q, q, x.space, 0, unitsOf x.fab.declared, 0, 0⟩

/-- The bytes of one cell of queue q of slice sl: the parts of frames that it takes. A frame that has
not begun to cross is taken where `first` allows. -/
def State.cellFill (sl q : Nat) : Nat → Nat → State → State × List (Nat × Nat)
  | 0, _, s => (s, [])
  | fuel + 1, room, s =>
    let v := s.voq sl q
    match v.die with
    | [] => (s, [])
    | f :: _ =>
      let x := s.frame f
      if room = 0 ∨ (v.sent = 0 ∧ !(s.firstCellOk sl q)) then (s, [])
      else
        let n := min room (x.spaceReady - v.sent)
        if n = 0 then (s, []) else
        let s1 := if v.sent = 0 then
            let t := s.egReserve f q
            { t with stw := { t.stw with egCur := tput t.stw.egCur q sl } }
          else s
        let s2 := s1.setVoq sl q { v with sent := v.sent + n }
        if v.sent + n < x.space then (s2, [(f, n)])
        else
          let r := State.cellFill sl q fuel (room - n) (s2.frameSent sl q f)
          (r.1, (f, n) :: r.2)

/-- Queue heads that cannot go on leave: a frame that ended bad before any of it crossed, and one with an
uncorrectable error. -/
def State.voqClean (s : State) (sl q : Nat) : State :=
  match (s.voq sl q).die with
  | [] => s
  | f :: _ =>
    let x := s.frame f
    if x.complete ∧ x.bad ∧ (s.voq sl q).sent = 0 ∧ (x.fab.owed.all fun e => (s.egFrame f e).isNone) then s.discardFrame f
    else
      let r := s.pantryRead sl (pantryIn f)
      if r.2 then r.1 else r.1.inError f

/-- One grant of a round: one cell of queue q of slice sl, where R284 allows it. -/
def State.grantOne (s0 : State) (sl q : Nat) : State :=
  let s := s0.voqClean sl q
  let mid := tfind s.stw.egCur q == some sl
  let urgent := match s.ctUrgent (queueSlice q) with
    | some k => k == (sl, q)
    | none => true
  if !urgent || !(mid || s.turnOf q == some sl) then s
  else
    let r := State.cellFill sl q 32 256 s
    if r.2.isEmpty then r.1
    else { r.1 with stw := { r.1.stw with cells := r.1.stw.cells ++ [⟨sl, queueSlice q, q, r.2⟩] } }

/-! ## Egress (R288 to R291) -/

/-- The port drops the copies that fall due on it (R291, R508, R509). -/
def State.portGone (s : State) (n : Nat) : Bool :=
  !(s.portEnabled n) || s.isoSlice (n / 32) ||
    (!(s.linkUp n) && (s.rf (stwPortEq n) 31 16 == 0 || (tfind s.pipe.lastHold n).isSome))

/-- The copies of a frame at its egress slice enter their egress queues (R288, R289). -/
def State.egEnqueue (s : State) (f e : Nat) : State :=
  let x := s.frame f
  let c := x.fab.tc
  s.each (x.fab.ports.filter fun p => p.1 / 32 == e) fun t p =>
    let n := p.1
    let k := 8 * n + c
    let id := t.stw.nextCopy
    let y : Copy := { Copy.init with
      fid := f, dst := e, port := n, tc := c, kind := x.fab.kind, member := p.2, counts := x.fab.counts && p.2.isSome,
      units := unitsOf x.fab.declared, chk := nat (t.takesAppend x n) }
    let t1 := { t with stw := { t.stw with nextCopy := id + 1, copies := tput t.stw.copies id y } }
    if (x.fab.kind = 1 ∨ x.fab.kind = 2) ∧ t.rf (stwPortEq n) 15 0 ≤ t.egDepth k then
      (t1.copyEnd id 0x11).count evStwMcCopyDrop n 0
    else { t1 with stw := { t1.stw with egq := tput t1.stw.egq k (t1.egList k ++ [id]) } }

/-- `n` bytes of frame f arrive at egress slice e. -/
def State.cellPart (s : State) (f e n : Nat) (crcBad : Bool) : State :=
  match s.egFrame f e with
  | none => s
  | some g =>
    let got := g.got + n
    let all := g.resv + g.hold
    let hold := if g.want ≤ got then all else min all (max g.hold (got / 64))
    let s1 := s.setEg { g with got := got, hold := hold, resv := all - hold }
    let s2 := if g.got = 0 then s1.egEnqueue f e else s1
    let s3 := if crcBad then s2.egError f e 3 else s2
    s3.egTidy f e

/-- Every copy of a frame at egress slice e is finished (R290). -/
def State.copiesFinished (s : State) (f e : Nat) : Bool :=
  let l := s.copiesAt f e
  let come := match s.egFrame f e with
    | some g => decide (0 < g.got)
    | none => !l.isEmpty
  come && l.all fun p => if p.2.counts then p.2.told else decide (2 ≤ p.2.st)

/-- Queued copies of port n that are due on it end with result PORT_DOWN (R291). -/
def State.portPurge (s : State) (n : Nat) : State :=
  s.each (upto 8) fun t c =>
    t.each (t.egList (8 * n + c)) fun u k =>
      if (u.copy k).st ≤ 1 then ((u.copyEnd k 0x10).count evStwPortDownDrop n 0).copyGone k else u

/-! ## FLUSH (R292) -/

/-- A frame in a VOQ is flushed; a placed copy takes outcome QUEUE_DROP. -/
def State.flushFrame (s : State) (f n : Nat) : State :=
  let x := s.frame f
  let e := n / 32
  if s.begunAt f e then s
  else
    let s0 := s.count evStwFlushed n 0
    if !(s.copiesAt f e).isEmpty then
      let s1 := s0.each (s.copiesAt f e) fun t p => if p.2.st ≤ 1 then t.copyEnd p.1 0x11 else t
      let s2 := { s1 with stw := { s1.stw with eg := tdel s1.stw.eg (16 * f + e) } }
      s2.inError f
    else if x.fab.counts then
      let id := s0.stw.nextCopy
      let y : Copy := { Copy.init with
        fid := f, dst := e, port := n, tc := x.fab.tc, member := (x.fab.ports.headD (0, none)).2, counts := true, st := 3,
        result := 0x11 }
      let s1 := { s0 with stw := { s0.stw with nextCopy := id + 1, copies := tput s0.stw.copies id y
                                               eg := tdel s0.stw.eg (16 * f + e) } }
      let voqs := s1.stw.voqs.map fun (p : Nat × Voq) => (p.1, p.2.without f)
      let s2 := { s1 with stw := { s1.stw with voqs := voqs } }
      (s2.setFab f { (s2.fab f) with queues := [] }).freeFrameUnits f
    else { s0 with stw := { s0.stw with eg := tdel s0.stw.eg (16 * f + e) } }.discardFrame f

/-- FLUSH of port n in the classes of a mask. -/
def State.flush (s : State) (n mask : Nat) : State :=
  s.each ((upto 8).filter fun c => mask.testBit c) fun t c =>
    let q := 8 * n + c
    let t1 := t.each (upto 16) fun u sl =>
      let v := u.voq sl q
      let w := u.each (v.die ++ v.spill.map (·.fid) ++ v.latch) fun w f => w.flushFrame f n
      let v1 := w.voq sl q
      let stays := v1.die.head? == v.die.head? && !v1.die.isEmpty
      let cur := if tfind w.stw.egCur q = some sl ∧ !stays then tdel w.stw.egCur q else w.stw.egCur
      let w1 := { w with stw := { w.stw with egCur := cur } }
      ((w1.setVoq sl q { v1 with sent := if stays then v1.sent else 0 }).freeBlocks sl q).voqSettle sl q
    t1.each (t1.egList q) fun u k =>
      if (u.copy k).st ≤ 1 then
        let w := if ((u.port n).tx.map (·.copy)) = some k then u.setPort n { u.port n with tx := none } else u
        ((w.copyEnd k 0x11).count evStwFlushed n 0).copyGone k
      else u

end Sys2Proof.Machine
end

