-- ==== Sys2Proof/Machine/ThresholdOps.lean ====
section
/-! DEFINITION. Threshold's microcode (R64 to R93): the word's fields, its load-time checks, one step
of a parse, and the parse of a head. -/

namespace Sys2Proof.Machine

/-! ## The microcode word (R71, R82) -/

/-- Bits [hi:lo] of a microcode word. -/
def ucf (w : BitVec 256) (hi lo : Nat) : Nat := bits w.toNat hi lo

/-- Extractor k: offset, length, destination. -/
def ucExt (w : BitVec 256) (k : Nat) : Nat × Nat × Nat :=
  (ucf w (27 + 24 * k) (19 + 24 * k), ucf w (18 + 24 * k) (13 + 24 * k), ucf w (12 + 24 * k) (4 + 24 * k))

/-- The first check of R82 that a word fails; 0 where it fails none. -/
def ucCheck (w : BitVec 256) : Nat :=
  let op := ucf w 229 227
  let dsp := ucf w 167 165
  let ex := (upto 4).map (ucExt w)
  if 4 ≤ op then 1
  else if 5 ≤ dsp then 2
  else if ucf w 255 243 % 2 ^ dsp ≠ 0 then 3
  else if ex.any fun e => decide (33 ≤ e.2.1) then 4
  else if ex.any fun e => decide (512 < e.2.2 + e.2.1) then 5
  else if ucf w 188 188 = 1 ∧ ucf w 187 176 ≠ 0 then 6
  else if 18 ≤ ucf w 120 116 ∨ (ucf w 120 116 = 1 ∧ ucf w 115 103 ≠ 0) then 7
  else if ucf w 2 0 ≠ 0 then 8
  else if (op ≤ 1 ∧ ucf w 226 219 ≠ 0) ∨ (2 ≤ op ∧ ucf w 226 219 < 0x10) then 9
  else 0

/-! ## One step (R72 to R81) -/

/-- A parse under way: cursor, next word, header vector, and what it has gathered for the parse
region. -/
structure Parse where
  cur : Nat
  addr : Nat
  last : Nat
  steps : Nat
  hv : List Byte
  csumBad : Bool
  marks : Tbl Nat
  user : Tbl Nat
  flags : Nat
  shim : Nat
deriving DecidableEq, Repr

/-- What a head brings to its parse: its bytes, D, constants, profile. -/
structure ParseIn where
  head : List Byte
  dlen : Nat
  consts : List Nat
  profile : Nat

def ParseIn.h (i : ParseIn) : Nat := i.head.length

/-- DEPTH or TRUNCATED, with its status (R76). -/
def ParseIn.bound (i : ParseIn) : Nat × Nat := if 512 < i.dlen then (1, 2) else (2, 3)

/-- The comparison of R74. -/
def ucCompare (op t v : Nat) : Bool :=
  match op with
  | 0 => false
  | 1 => t == v
  | 2 => t != v
  | 3 => decide (t < v)
  | 4 => decide (v ≤ t)
  | 5 => t != 0
  | 6 => t == 0
  | _ => true

/-- A word executes (R80); the answer's second part is the end of the parse: status and reason. -/
def ucStep (w : BitVec 256) (i : ParseIn) (p : Parse) : Parse × Option (Nat × Nat) :=
  let cmp := ucf w 191 189
  let dsp := ucf w 167 165
  let src := ucf w 218 217
  let h := i.h
  let p0 := { p with steps := p.steps + 1, last := p.addr }
  let reads := (cmp != 0 && cmp != 7) || dsp != 0
  let tOff := (if src = 0 then p.cur else 0) + ucf w 216 208
  let advFld := ucf w 155 155 == 1
  let fOff := p.cur + ucf w 154 146
  if (reads && decide (src < 2 ∧ h < tOff + 2)) || (advFld && decide (h ≤ fOff)) then (p0, some i.bound)
  else
    let byte (k : Nat) : Nat := (i.head.getD k 0).toNat
    let t0 := if src < 2 then byte tOff * 256 + byte (tOff + 1) else if src = 2 then p.flags else i.profile
    let t := Nat.land t0 (ucf w 207 192)
    let v0 := if ucf w 188 188 = 1 then i.consts.getD (ucf w 175 172) 0 else ucf w 187 172
    let v := Nat.land v0 (ucf w 207 192)
    let cond := ucCompare cmp t v
    let a := ucf w 164 156 +
      (if advFld then Nat.land (byte fOff / 2 ^ ucf w 145 143) (ucf w 142 135) * 2 ^ ucf w 134 133 else 0)
    let csum := ucf w 132 132 == 1
    if csum && (decide (a = 0 ∨ a % 2 = 1 ∨ 64 < a)) then (p0, some (2, 4))
    else if csum && decide (h < p.cur + a) then (p0, some i.bound)
    else
      let next := if cond then ucf w 242 230
        else Nat.lor (ucf w 255 243) (t / 2 ^ ucf w 171 168 % 2 ^ dsp)
      let hv := (upto 4).foldl (fun hv k =>
        let e := ucExt w k
        splice hv e.2.2 (slice i.head (p.cur + e.1) e.2.1)) p.hv
      let mark := ucf w 123 121
      let idx := ucf w 120 116
      let val := ucf w 115 100
      let bad := csum && onesSum (slice i.head p.cur a) != 65535
      let p1 := { p0 with
        addr := next, hv := hv
        marks := if mark = 0 then p.marks else tput p.marks mark p.cur
        user := if idx < 2 then p.user else tput p.user idx val
        shim := if idx = 1 then val % 8 else p.shim
        flags := Nat.lor p.flags (ucf w 131 124)
        csumBad := p.csumBad || bad }
      let cur := if ucf w 3 3 = 0 ∨ cond then p.cur + a else p.cur
      if h < cur then (p1, some i.bound)
      else
        let p2 := { p1 with cur := cur }
        match ucf w 229 227 with
        | 1 => (p2, some (0, 0))
        | 2 => (p2, some (1, ucf w 226 219))
        | 3 => (p2, some (2, ucf w 226 219))
        | _ => (p2, none)

/-! ## The store (R92) -/

def State.ucWord (s : State) (k : Nat) : BitVec 256 := tget 0 s.pipe.store k

/-- Word `k` of the stores is read and checked; the answer is whether it can be used. -/
def State.ucRead (s : State) (k : Nat) : State × Bool :=
  let sl := k / 8192
  let info : Word := BitVec.ofNat 32 (k % 8192)
  match s.eccOf .thr k with
  | .ok => (s, true)
  | .corr => (((s.setB (thrSliceErr sl) 0).report 0x10 sl info).count evThrEccCorr sl 0, true)
  | .uncorr =>
    ((((s.setB (thrSliceErr sl) 1).wf (thrSliceErr sl) 28 16 (k % 8192)).report 0x11 sl info).count evThrEccUncorr sl 0,
      false)

/-! ## The parse (R70) -/

/-- The words of a parse, at most `fuel` of them. -/
def parseRun (sl : Nat) (i : ParseIn) : Nat → State → Parse → State × Parse × Nat × Nat
  | 0, s, p => (s, p, 1, 1)
  | fuel + 1, s, p =>
    let k := sl * 8192 + p.addr
    match s.ucRead k with
    | (s1, false) => (s1, { p with steps := p.steps + 1, last := p.addr }, 2, 6)
    | (s1, true) =>
      match ucStep (s1.ucWord k) i p with
      | (q, some (st, r)) => (s1, q, st, r)
      | (q, none) => parseRun sl i fuel s1 q

/-- The header vector that a parse begins with. -/
def hvZero : List Byte := List.replicate 512 0

def Parse.start (a : Nat) : Parse :=
  { cur := 0, addr := a, last := 0, steps := 0, hv := hvZero, csumBad := false, marks := [], user := [],
    flags := 0, shim := 0 }

/-- The parse region that a finished parse leaves (R86); the stage region stands. -/
def Head.parseRegion (h : Head) (x : Frame) (p : Parse) (hlen st reason : Nat) : Head :=
  let offs := (upto 7).foldl (fun acc k => acc + tget 0x3FF p.marks (k + 1) * 2 ^ (10 * k)) 0
  let users := (upto 16).foldl (fun acc k => acc + tget 0 p.user (k + 2) * 2 ^ (16 * k)) 0
  let region := x.rxTs % 2 ^ 64 + x.port * 2 ^ 64 + x.len * 2 ^ 73 + hlen * 2 ^ 88 + st * 2 ^ 98 + reason * 2 ^ 100
    + p.last * 2 ^ 108 + p.steps * 2 ^ 121 + nat p.csumBad * 2 ^ 127 + p.cur * 2 ^ 128 + offs * 2 ^ 138
    + p.flags * 2 ^ 208 + p.shim * 2 ^ 216 + users * 2 ^ 224 + h.profile * 2 ^ 480
  { h.put 511 0 region with hv := p.hv }

/-- The bytes of a frame that enter the parser. -/
def Frame.headBytes (x : Frame) : List Byte := x.data.take (min 512 (x.len - 4))

/-- A head is parsed from its start address (R64 to R87). -/
def State.parseHead (s : State) (f : Nat) : State :=
  let x := s.frame f
  let h := x.head
  let sl := x.slice
  let i : ParseIn := ⟨x.headBytes, x.len - 4, h.consts, h.profile⟩
  let (s1, p, st, reason) :=
    if h.running then parseRun sl i 48 s (Parse.start h.start)
    else (s, { Parse.start 0 with steps := 1 }, 2, 7)
  let s2 := s1.setHead f (h.parseRegion x p i.h st reason)
  let s3 := s2.count (if st = 0 then evThrComplete else if st = 1 then evThrSlow else evThrFail) sl 0
  let s4 := if reason ≠ 0 then s3.count evThrReason sl (reason - 1) else s3
  let s5 := if p.csumBad then s4.count evThrCsumBad sl 0 else s4
  if 40 < p.steps then s5.count evThrStepsHigh sl 0 else s5

end Sys2Proof.Machine
end

