-- ==== Sys2Proof/Machine/Threshold.lean ====
section
/-! DEFINITION. The commands and events of Threshold (chapter 3, window 0x06), and a head's entry into
Hallway (R114, R125, R126). -/

namespace Sys2Proof.Machine

/-! ## Heads -/

/-- The slice takes heads: neither safe state nor isolation keeps it from them (R509, R513). -/
def State.takesHeads (s : State) (sl : Nat) : Bool :=
  !s.inSafe && s.rf atcPwrStatus 31 30 != 2 && !(s.isoSlice sl) && !(s.sliceGated sl)

/-- The stage region at the start of a first pass (R114); a head that Lofts re-injects keeps its PASS count
(R118), its TS_MODE, MIRROR_SET and SCRATCH[15] (R348), and in MODE 1 its NEXT (R350). -/
def State.firstPass (s : State) (h : Head) (n : Nat) : Head :=
  let c := hlwPortCfg n
  let h0 := ((h.put 1023 512 0).put 559 558 (h.get 559 558)).put 567 560 (h.get 567 560)
  let h1 := h0.put 1023 1008 (h.scratch 15)
  (((h1.put 519 512 (if h.entry = 4 then h.get 519 512 else s.rf c 7 0)).put 550 548 (s.rf c 11 9)).put 522 522 s.genPar).put
    521 520 h.pass

/-- HEAD_ACCEPT (R64, R69): the head takes what it keeps for its parse; one that re-enters at a stage
goes straight to it (R121, R122). -/
def execHeadAccept (f : Nat) (s : State) : Host.Outcome State Fault Refusal :=
  let x := s.frame f
  let h := x.head
  let sl := x.slice
  if h.pos ≠ .slot ∨ !(s.takesHeads sl) then .next s else
  let s1 := s.setSl sl { s.sl sl with slots := (s.sl sl).slots.filter (· != f) }
  let bad := s.rb mstStatus 29 && s.rf mstInjCtl 26 24 == 4 && s.rf mstInjCtl 15 0 == sl
  let s2 := { (if bad then s1.wf mstInjCtl 26 24 0 else s1) with
    pipe := { s1.pipe with nextSeq := s1.pipe.nextSeq + 1 } }
  if h.entry < 2 then .next (s2.setHead f { h with pos := .chain, parityBad := h.parityBad || bad })
  else
    let n := x.port
    let h1 := { h with
      pos := .parsing
      parityBad := h.parityBad || bad
      start := if h.entry = 2 then s.rf (thrPortCfg n) 12 0 else h.start
      profile := s.rf (thrPortCfg n) 23 16
      consts := (upto 16).map fun c => s.rf (thrConst c) 15 0
      running := s.rb (thrSliceCtl sl) 0 }
    let h2 := if h.entry = 2 ∨ h.entry = 4 then { s.firstPass h1 n with seq := s.pipe.nextSeq } else h1
    .next (((s2.setHead f h2).freeBuf f).count evThrHeads sl 0)

/-- A parsed head enters Hallway (R96, R125, R126): `done` is how its chain ends at once, where it
does. -/
def State.chainEnter (s : State) (f : Nat) : State :=
  let x := s.frame f
  let h := x.head
  let sl := x.slice
  let st := h.get 99 98
  let done : Option Ending :=
    if h.ending.isSome then h.ending
    else if !(s.rb (hlwSliceCtl sl) 0) then some (.cause 14)
    else if 2 ≤ st then some (.cause 4)
    else if st = 1 ∧ !(s.rb (hlwPortCfg x.port) 8) then some (.cause 3)
    else none
  s.setHead f { h with pos := .chain, stage := 0, remote := [], crow := false, members := [], ending := done }

/-- PARSE_COMPLETE (R64): `upset` is a store word in which an error has come about. -/
def execParseComplete (f : Nat) (upset : Option (Nat × Ecc)) (s : State) : Host.Outcome State Fault Refusal :=
  let x := s.frame f
  if x.head.pos ≠ .parsing then .next s else
  let s1 := match upset with
    | some (a, e) => s.eccFlag .thr (x.slice * 8192 + a % 8192) e
    | none => s
  .next ((s1.parseHead f).chainEnter f)

/-! ## The store (R89, R90, R93) -/

/-- A microcode word checked and written to the slices of a mask; the answer is the failed check. -/
def State.ucPut (s : State) (a mask : Nat) (w : BitVec 256) : State × Nat :=
  let c := ucCheck w
  if c ≠ 0 then (((s.setB thrUcStatus 0).wf thrUcStatus 15 8 c).count evThrUcReject 0 0, c)
  else
    (s.each (maskSlices mask) fun t sl =>
      let k := sl * 8192 + a
      let t1 := (t.wakeSlice sl).eccClear .thr k
      ({ t1 with pipe := { t1.pipe with store := tset 0 t1.pipe.store k w } }).inject 0x06 0x20 0x40 .thr k, 0)

/-- A write of THR_UC_CMD. -/
def State.ucCmdWrite (s : State) (v : Word) : State :=
  let op := fld v 30 29
  if s.rb thrUcCmd 31 then s.setB thrUcStatus 1
  else if op = 3 then s.setB thrUcStatus 2
  else
    let s1 := s.plainWrite thrUcCmd v
    let mask := fld v 15 0
    if op = 0 ∨ mask = 0 then s1
    else if op = 1 then (s1.ucPut (fld v 28 16) mask (BitVec.ofNat 256 (s1.rdWide (thrUcData 0) 8))).1
    else
      let sl := (maskSlices mask).headD 0
      let s2 := s1.wakeSlice sl
      s2.wrWide (thrUcData 0) 8 (s2.ucWord (sl * 8192 + fld v 28 16)).toNat

/-- UC_WRITE (R89). -/
def execUcWrite (v : Word) (s : State) : Host.Outcome State Fault Refusal := .next (s.ucCmdWrite (setFld v 30 29 1))
/-- UC_READ (R90). -/
def execUcRead (v : Word) (s : State) : Host.Outcome State Fault Refusal := .next (s.ucCmdWrite (setFld v 30 29 2))

/-- STORE_SCRUB (R93): `e` is what the check of the word finds; a corrected word is written back. -/
def execStoreScrub (sl a : Nat) (e : Ecc) (s : State) : Host.Outcome State Fault Refusal :=
  let k := sl * 8192 + a
  let s1 := ((s.eccFlag .thr k e).ucRead k).1
  .next (if s1.eccOf .thr k = .corr then s1.eccClear .thr k else s1)

/-- A write of a Threshold register. -/
def State.thrRegWrite (s : State) (a : Nat) (v : Word) : State :=
  if a = thrUcCmd then s.ucCmdWrite v
  else if thrUcData 0 ≤ a ∧ a ≤ thrUcData 7 ∧ s.rb thrUcCmd 31 then s.setB thrUcStatus 1
  else s.plainWrite a v

end Sys2Proof.Machine
end

