-- ==== Sys2Proof/Machine/HallChain.lean ====
section
/-! DEFINITION. The chain of a head (R96 to R126): lookups, actions, joins, the park, the re-entry queue, and
the end of the chain. -/

namespace Sys2Proof.Machine

/-! ## Actions (R112 to R119) -/

/-- How many bytes of the head an edit may reach (R115). -/
def Frame.headLen (x : Frame) : Nat := x.headBytes.length

/-- The edit of an action (R115, R116): the cause where it fails (DESIGN CHOICE, unsafe: log entry 27). -/
def editApply (x : Frame) (a : BitVec 128) : Frame × Option Nat :=
  let h := x.head
  let op := af a 53 51
  let layer := af a 50 48
  let base := if layer = 0 then 0 else h.layerOff layer
  let n := af a 39 38 + 1
  let idx := af a 35 32
  let done (d : List Byte) : Frame × Option Nat := ({ x with data := d, head := { h with edits := h.edits + 1 } }, none)
  if op = 0 then (x, none)
  else if 16 ≤ h.edits ∨ base = unmarked then (x, some 11)
  else if op = 2 then
    if x.headLen ≤ base then (x, some 11)
    else
      let v := ipVersion x.data base
      let at' := if v = 4 then base + 8 else base + 7
      if !(ipKnown x.data base) ∨ x.headLen < (if v = 4 then base + 12 else base + 8) then (x, some 11)
      else
        let t := beAt x.data at' 1
        if t ≤ 1 then (x, some 12)
        else if v = 4 then
          let w := beAt x.data at' 2
          done (put16 (put16 x.data at' (w - 256)) (base + 10) (csumUpdate (beAt x.data (base + 10) 2) w (w - 256)))
        else done (splice x.data at' (natBe 1 (t - 1)))
  else
    let off := base + af a 47 40
    if x.headLen < off + n then (x, some 11)
    else done (splice x.data off (natBe n (if op = 1 then af a 31 0 else h.scratch idx * 65536 + h.scratch (idx + 1))))

/-- PLACE (R117): the cause where nothing is placed. -/
def placeApply (h : Head) (a : BitVec 128) : Head × Option Nat :=
  if af a 116 116 = 0 then (h, none)
  else if !h.crow ∨ h.place 30 26 = 0 then (h, some 2)
  else
    let h1 := (h.put 530 528 (h.place 2 0)).put 547 532 (h.place 18 3)
    ((h1.put 551 551 (h.place 19 19)).put 557 552 (h.place 25 20), none)

/-- The replacements and ORs of R114. -/
def replaceApply (h : Head) (a : BitVec 128) : Head :=
  let h1 := if af a 115 113 = 0 then h else (h.put 530 528 (af a 115 113)).put 547 532 (af a 112 97)
  let h2 := if af a 96 96 = 1 then h1.put 550 548 (af a 95 93) else h1
  let h3 := if af a 92 92 = 1 then (h2.put 551 551 1).put 557 552 (af a 91 86) else h2
  let h4 := h3.put 567 560 (Nat.lor (h3.get 567 560) (af a 85 78))
  let h5 := if af a 77 71 = 0 then h4 else h4.put 574 568 (af a 77 71)
  let h6 := if af a 70 70 = 1 then (h5.put 575 575 1).put 589 576 (af a 69 56) else h5
  if af a 55 54 = 0 then h6 else h6.put 559 558 (af a 55 54)

/-- MOVE (R114). -/
def moveApply (h : Head) (a : BitVec 128) : Head :=
  let i := af a 35 32
  let put (h : Head) (k v : Nat) : Head := h.put (783 + 16 * k) (768 + 16 * k) v
  if af a 37 36 = 1 then put (put h i (af a 31 16)) (i + 1) (af a 15 0)
  else if af a 37 36 = 2 then put h i (af a 15 0)
  else h

/-- The effects of an action before NEXT and FLOW, in the order of R114; the first cause ends them (DEDUCED, unsafe: log entry 26). -/
def actionEffects (x : Frame) (a : BitVec 128) : Frame × Option Nat :=
  let p := placeApply x.head a
  match p.2 with
  | some c => ({ x with head := p.1 }, some c)
  | none =>
    let e := editApply { x with head := replaceApply p.1 a } a
    match e.2 with
    | some c => (e.1, some c)
    | none => ({ e.1 with head := moveApply e.1.head a }, none)

/-- The chain of a head ends; lookups that are outstanding are given up. -/
def Head.finish (h : Head) (e : Ending) : Head := { h with ending := some e, remote := [] }

/-- NEXT and FLOW of an action (R109, R119, R121). -/
def Head.flow (h : Head) (a : BitVec 128) : Head :=
  let next := af a 127 120
  let h1 := h.put 519 512 next
  match af a 119 117 with
  | 1 => h1.finish .drop
  | 2 => h1.finish (.lofts (af a 112 97))
  | 3 => if 2 ≤ h.pass then h1.finish (.cause 5) else h1.finish (.again 3 0)
  | 4 => if 2 ≤ h.pass then h1.finish (.cause 5) else h1.finish (.again 4 (af a 109 97))
  | _ =>
    if next ≠ 0xFF ∨ !h.remote.isEmpty then h1
    else if h.get 530 528 ≠ 0 then h1.finish .dest
    else h1.finish (.cause (if h.get 99 98 = 1 then 3 else 1))

/-- ACTION_APPLY. -/
def State.actionApply (s : State) (f : Nat) (a : BitVec 128) : State :=
  let r := actionEffects (s.frame f) a
  match r.2 with
  | some c => s.setFrame f { r.1 with head := r.1.head.finish (.cause c) }
  | none => s.setFrame f { r.1 with head := r.1.head.flow a }

/-- The chain ends with a cause. -/
def State.causeEnd (s : State) (f c : Nat) : State := s.setHead f ((s.head f).finish (.cause c))

/-- The action at a stage SRAM address is read and applied (R101). -/
def State.actionAt (s : State) (f a : Nat) : State :=
  let x := s.frame f
  let r := s.sramRead (2 ^ 18 * x.slice + a) (s.seesNew x.head.gen)
  match r.2 with
  | some v => r.1.actionApply f v
  | none => r.1.causeEnd f 9

/-! ## Lookups (R106 to R108, R153) -/

/-- An EXACT lookup: the SRAM index of the action of the slot that hits. -/
def State.exactLookup (s : State) (sl : Nat) (d : BitVec 256) (key : List Byte) (new : Bool) :
    State × Option (Option Nat) :=
  let r := s.slotWords new (exactSlots sl d key)
  (r.1, r.2.map fun l => slotOf key l)

/-- A hit or a miss of table t is counted, and its action is applied. -/
def State.hitOrMiss (s : State) (f t : Nat) (d : BitVec 256) (hit : Option Nat) : State :=
  let sl := (s.frame f).slice
  match hit with
  | some a => (s.count evHlwHit sl t).actionAt f a
  | none => (s.count evHlwMiss sl t).actionAt f (dMiss d)

/-- A search of the slice's Gallery copy (R153) (DESIGN CHOICE, unsafe: log entry 28). -/
def State.galleryLookup (s : State) (f t : Nat) (d : BitVec 256) : State :=
  let x := s.frame f
  let sl := x.slice
  match s.galSearch sl d t (galKeyNum d (defKey x.head d)) x.head.gen with
  | none => s.hitOrMiss f t d none
  | some (_, _, e) =>
    let a := dBase d + e.result
    if s.inStage sl (t / 8) a 1 then s.hitOrMiss f t d (some a)
    else ((s.count evHlwHit sl t).count evGalResultRange sl 0).actionAt f (dMiss d)

/-- REMOTE_LOOKUP_ISSUE (R108). -/
def State.remoteIssue (s : State) (f t : Nat) (d : BitVec 256) (crow : Bool) : State :=
  let h := s.head f
  if 2 ≤ h.remote.length ∨ h.remote.any (fun r => decide (dJoin d ≤ r.join)) then s.causeEnd f 10
  else
    let r : Remote := ⟨s.pipe.nextSeq, t, dJoin d, crow, df d 135 128, defKey h d, false, none, none⟩
    ({ s with pipe := { s.pipe with nextSeq := s.pipe.nextSeq + 1 } }).setHead f
      { h.put 519 512 (dCont d) with remote := h.remote ++ [r] }

/-- A head applies table t at its stage. -/
def State.tableApply (s : State) (f t : Nat) : State :=
  let x := s.frame f
  let sl := x.slice
  let new := s.seesNew x.head.gen
  let d := s.defOf sl t new
  let s1 := s.setHead f { x.head with stage := t / 8 + 1 }
  if 192 ≤ t ∨ !(dValid d) then s1.causeEnd f 10 else
  match s.stageKind sl (t / 8) with
  | 1 =>
    let key := defKey x.head d
    if dForm d = 1 then
      let i := beNat key
      s1.hitOrMiss f t d (if i < 2 ^ dSize d then some (dBase d + i) else none)
    else
      match s1.exactLookup sl d key new with
      | (s2, none) => s2.causeEnd f 9
      | (s2, some r) => s2.hitOrMiss f t d (r.map fun k => k % 2 ^ 18)
  | 2 => s1.galleryLookup f t d
  | 3 => s1.remoteIssue f t d false
  | 4 => s1.remoteIssue f t d true
  | _ => s1.causeEnd f 10

/-! ## The join and the park (R108 to R111) -/

/-- The outstanding lookup with the earliest JOIN. -/
def Head.firstJoin (h : Head) : Option Remote :=
  h.remote.foldl (fun best r => match best with
    | none => some r
    | some b => if r.join < b.join then some r else some b) none

/-- A head of the same port, accepted before head f, for which `p` holds. -/
def State.earlier (s : State) (f : Nat) (p : Frame → Bool) : Bool :=
  let x := s.frame f
  s.pipe.frames.any fun y => y.1 != f && y.2.port == x.port && decide (y.2.head.seq < x.head.seq) && p y.2

/-- The head is in the park, or has left it and not yet re-entered the chain. -/
def Frame.parkedStill (x : Frame) : Bool :=
  x.head.pos == .parked || ((x.head.pos == .reentry || x.head.pos == .slot) && x.head.entry == 1)

/-- The head parks, held or for want of its answer; a full park ends its chain with PARK_FULL. -/
def State.parkHead (s : State) (f ev : Nat) : State :=
  let x := s.frame f
  let sl := x.slice
  if 1024 ≤ (s.sl sl).park.length then s.causeEnd f 6
  else ((s.setHead f { x.head with pos := .parked }).setSl sl { s.sl sl with park := (s.sl sl).park ++ [f] }).count ev sl 0

/-- JOIN_APPLY: the answer of lookup r is applied. -/
def State.joinApply (s : State) (f : Nat) (r : Remote) (a : Answer) : State :=
  let x := s.frame f
  let sl := x.slice
  let d := s.defOf sl r.table (s.seesNew x.head.gen)
  let h := { x.head with remote := x.head.remote.filter (fun q => q.id != r.id), stage := r.join + 1, entry := 0 }
  let s1 := s.setHead f h
  match a with
  | .hit v => (s1.count evHlwHit sl r.table).actionApply f v
  | .miss => (s1.count evHlwMiss sl r.table).actionAt f (dMiss d)
  | .error => s1.causeEnd f 8
  | .crow cls place ms rep =>
    (s1.setHead f { h.put 767 640 place.toNat with crow := true, members := ms, report := rep }).actionAt f (dBase d + cls)

/-- The head enters stage JOIN of lookup r. -/
def State.joinStage (s : State) (f : Nat) (r : Remote) : State :=
  let h := s.head f
  match r.answer with
  | none => s.parkHead f evHlwParked
  | some a =>
    if h.entry ≠ 1 ∧ s.earlier f Frame.parkedStill then s.parkHead f evHlwHeld
    else s.joinApply f r a

/-- A head whose metadata word or header vector fails its parity is discarded (R512) (DESIGN CHOICE, unsafe: log entry 32). -/
def State.parityDiscard (s : State) (f : Nat) : State :=
  let sl := (s.frame f).slice
  (s.report 0x33 sl 0).endIngress f 3

/-- The next stage of a head. -/
def State.stageStep (s : State) (f : Nat) : State :=
  let h := s.head f
  let next := h.get 519 512
  match h.firstJoin with
  | some r =>
    if next = 0xFF ∨ r.join ≤ next / 8 then s.joinStage f r
    else if next / 8 < h.stage then s.causeEnd f 10
    else s.tableApply f next
  | none =>
    if next = 0xFF then s.setHead f (h.flow (BitVec.ofNat 128 (0xFF * 2 ^ 120)))
    else if next / 8 < h.stage then s.causeEnd f 10
    else s.tableApply f next

/-- STAGE_LOOKUP (R99, R108): the head meets its next table or its JOIN; `upset` is a word of its
slice's stage SRAM in which an error has come about (DESIGN CHOICE, safe: log entry 14). -/
def execStageLookup (f : Nat) (upset : Option (Nat × Ecc)) (s : State) : Host.Outcome State Fault Refusal :=
  let x := s.frame f
  if x.head.pos ≠ .chain ∨ x.head.ending.isSome then .next s
  else
    let s1 := match upset with
      | some (a, e) => s.eccFlag .hlw (2 ^ 18 * x.slice + a % 2 ^ 18) e
      | none => s
    .next (if x.head.parityBad then s1.parityDiscard f else s1.stageStep f)

/-- REMOTE_ANSWER_ARRIVE (R108, R110): the answer that joins at stage k reaches the slice. -/
def execRemoteAnswerArrive (f k : Nat) (s : State) : Host.Outcome State Fault Refusal :=
  let h := s.head f
  if !(s.hasFrame f) then .next s else
  .next (s.setHead f { h with remote := h.remote.map fun r =>
    if r.join = k ∧ r.found.isSome then { r with answer := r.found, found := none } else r })

/-! ## The end of a chain (R97, R121 to R125) -/

/-- The default action of a cause (R124): its class. -/
def causeClass (c : Nat) : Nat := if c ≤ 2 then 0 else if c = 3 then 1 else if c = 4 then 2 else 3

def State.portDefault (s : State) (n c : Nat) : BitVec 128 :=
  BitVec.ofNat 128 (s.rdWide (hlwPortDflt (4 * n + causeClass c) 0) 4)

/-- The default of cause c is applied; the answer is the outcome. -/
def State.defaultApply (s : State) (f c : Nat) : State × Ending :=
  let x := s.frame f
  let a := s.portDefault x.port c
  let s1 := s.count evHlwCause x.port (c - 1)
  let r := actionEffects { x with head := x.head.put 527 524 c } a
  let s2 := s1.setFrame f r.1
  if r.2.isSome then (s2, .drop)
  else match af a 119 117 with
    | 1 => (s2, .drop)
    | 2 => (s2, .lofts (af a 112 97))
    | _ => (s2, if r.1.head.get 530 528 = 0 then .drop else .dest)

/-- A frame's last chain ends in a drop. -/
def State.chainDrop (s : State) (f : Nat) : State :=
  let x := s.frame f
  let h := x.head
  let cls := h.place 33 31
  let s1 := s.setFrame f { x with head := h.put 523 523 1, fab := { x.fab with hash := fold16 (s.flowHash x.port h) } }
  let s2 := if h.crow ∧ (cls = 3 ∨ cls = 5 ∨ cls = 6) then s1.befall f 1 (h.place 41 34) else s1
  (((s2.mirrors f).samplerSelect f).endIngress f 3)

/-- A frame is handed to Lofts (R118, R344): it waits as a ticket for its buffer. -/
def State.chainLofts (s : State) (f prog : Nat) : State :=
  let x := s.frame f
  let h := x.head
  let hash := fold16 (s.flowHash x.port h)
  let s1 := (s.setFrame f { x with head := { h with pos := .none, remote := [] }, fab := { x.fab with hash := hash } }).count
    evHlwLofts x.slice 0
  let t : Ticket := { Ticket.init with
    src := if h.cause = 0 then 0 else 1, prog := prog, flow16 := hash, cause := h.cause, inPort := x.port,
    md := h.md.toNat, rxTs := x.rxTs, slice := x.slice, fid := f }
  let s2 := ((s1.newTicket t).1.samplerSelect f).frameRelease f
  s2.settle f 3

/-- The frame's report calls for a WRITE_REPORT (R242). -/
def State.reportDue (s : State) (h : Head) : Bool :=
  h.crow && (h.place 33 31 == 0 || h.place 33 31 == 2) &&
    h.report.any fun e =>
      (e.2.2 % 128 == 3 && s.rb crwNoticeCfg 1) || (e.2.2 % 128 == 1 && s.rb crwNoticeCfg 2)

/-- A frame goes on to Stairwell (R270 to R272, R307). -/
def State.chainDest (s : State) (f : Nat) : State :=
  let x := s.frame f
  let sl := x.slice
  let h := x.head
  let hash := fold16 (s.flowHash x.port h)
  let keep (k : Nat) : Bool := h.get 530 528 == 2 && h.get 547 532 == 0xC000 + k
  let s0 := s.setFrame f { x with fab := { x.fab with hash := hash }, head := { h with pos := .none, remote := [] } }
  let s1 := s0.dropSets f keep
  let s2 := if h.chkEn ∧ !h.checkable then s1.count evChkSkip sl 0 else s1
  let m := s2.meter f
  let s3 := (m.1.mirrors f).samplerSelect f
  if m.2 then (s3.befall f 1 0x50).endIngress f 3
  else
    let s4 := if s3.reportDue h then s3.setFrame f { s3.frame f with events := (s3.frame f).events ++ [(2, 0)] } else s3
    let y := s4.frame f
    match s4.resolve y.head hash with
    | .bad => (s4.count evStwBadDest sl 0).endIngress f 3
    | .noGroup => (s4.count evStwGroupEmpty sl 0).endIngress f 3
    | .empty => (s4.count evStwMcEmpty sl 0).endIngress f 3
    | .copies kind nh ports =>
      let data := match nh with
        | some k =>
          let g := s4.gmember k
          if g.nhEn then splice y.data 0 (g.mac ++ s4.portMac g.port) else y.data
        | none => y.data
      let placed := ports.any fun p => p.2.isSome
      let cls := y.head.place 33 31
      let verify := y.head.chkEn && y.head.checkable && s4.hasTrailer y
      let c := y.head.tc
      s4.setFrame f { y with
        data := data
        fab := { y.fab with kind := kind, dest := h.get 547 532, tc := c, ports := ports, queues := queuesOf kind c ports,
                            counts := placed && (cls == 0 || cls == 2), verify := nat verify } }

/-- A frame's head leaves Hallway with its outcome. -/
def State.chainFinish (s : State) (f : Nat) (e : Ending) : State :=
  match e with
  | .dest => s.chainDest f
  | .lofts p => s.chainLofts f p
  | _ => s.chainDrop f

/-- FURTHER_PASS (R121): the head joins the re-entry queue; it has room. -/
def State.furtherPass (s : State) (f flow addr : Nat) : State :=
  let x := s.frame f
  let h := x.head
  let p := h.pass + 1
  let h1 := { h.put 521 520 p with crow := false, members := [], report := [], ending := none, remote := [], stage := 0,
                                   entry := if flow = 3 then 0 else 3, start := if flow = 3 then h.start else addr }
  ((s.setHead f h1).enterReentry f).count (if p = 1 then evHlwPass2 else evHlwPass3) x.slice 0

/-- The head is held behind an earlier one of its port (R111). -/
def State.heldBack (s : State) (f : Nat) : Bool :=
  s.earlier f fun y => y.parkedStill || y.head.pos == .parkedOut

/-- R98 orders the head: a first pass of a frame that came from Porch or from Doorway. -/
def Frame.ordered (x : Frame) : Bool := (x.origin == 0 || x.origin == 2) && x.head.pass == 0

/-- An earlier head of the port has yet to end its chain (R98) (DESIGN CHOICE, safe: log entry 25). -/
def State.orderWaits (s : State) (f : Nat) : Bool :=
  let x := s.frame f
  x.ordered && s.earlier f fun y =>
    y.ordered && (y.head.pos == .parsing || y.head.pos == .chain)

/-- The head leaves with outcome e, or parks on leaving stage 23 (R111). `caused` says that its chain
ended with a cause. -/
def State.chainLeave (s : State) (f : Nat) (e : Ending) (caused : Bool) : State :=
  let x := s.frame f
  let sl := x.slice
  match e with
  | .lofts p => s.chainLofts f p
  | _ =>
    if s.heldBack f then
      if (s.sl sl).park.length < 1024 then
        ((s.setHead f { x.head with pos := .parkedOut, ending := some e, remote := [] }).setSl sl
          { s.sl sl with park := (s.sl sl).park ++ [f] }).count evHlwHeld sl 0
      else if caused then s.chainFinish f e
      else
        let d := s.defaultApply f 6
        d.1.chainFinish f d.2
    else s.chainFinish f e

/-- A head whose chain ends with cause c leaves with its port's default. -/
def State.causeLeave (s : State) (f c : Nat) : State :=
  let d := s.defaultApply f c
  d.1.chainLeave f d.2 true

/-- The head is handed to Lofts or takes a further pass: the order of R98 does not bind it. -/
def State.unordered (s : State) (f : Nat) (e : Ending) : Bool :=
  match e with
  | .lofts _ => true
  | .again _ _ => true
  | .cause c => af (s.portDefault (s.frame f).port c) 119 117 == 2
  | _ => false

/-- CHAIN_END (R97): a head whose chain has ended leaves Hallway, in the order of R98. -/
def execChainEnd (f : Nat) (s : State) : Host.Outcome State Fault Refusal :=
  let x := s.frame f
  match x.head.ending with
  | none => .next s
  | some e =>
    if x.head.pos ≠ .chain then .next s
    else if x.head.parityBad then .next (s.parityDiscard f)
    else if !(s.unordered f e) && s.orderWaits f then .next s
    else
      match e with
      | .cause c => .next (s.causeLeave f c)
      | .again flow addr => .next (if s.reentryRoom x.slice then s.furtherPass f flow addr else s.causeLeave f 7)
      | .drop => .next ((s.count evHlwDrop x.port 0).chainLeave f .drop false)
      | _ => .next (s.chainLeave f e false)

/-! ## Release and arbitration (R110, R111, R122) -/

/-- Head f is the first of its port in the park. -/
def State.firstParked (s : State) (f : Nat) : Bool :=
  let x := s.frame f
  ((s.sl x.slice).park.find? fun g => (s.frame g).port == x.port) == some f

/-- PARK_RELEASE: a parked head whose answer has come joins the re-entry queue; one that has finished its
chain passes to Stairwell. -/
def execParkRelease (f : Nat) (s : State) : Host.Outcome State Fault Refusal :=
  let x := s.frame f
  let sl := x.slice
  let out := s.setSl sl { s.sl sl with park := (s.sl sl).park.filter (· != f) }
  if !(s.firstParked f) then .next s
  else if x.head.pos = .parkedOut then
    if s.orderWaits f ∨ s.earlier f Frame.parkedStill then .next s
    else .next (out.chainFinish f (x.head.ending.getD .drop))
  else
    match x.head.firstJoin with
    | some r =>
      if r.answer.isSome && s.reentryRoom sl then
        .next ((out.setHead f { x.head with entry := 1 }).enterReentry f)
      else .next s
    | none => .next s

/-- HEAD_SLOT_ARBITRATE (R122): the three head slots of a core cycle of slice sl; heads that have a slot
wait to be accepted. -/
def execHeadSlotArbitrate (sl : Nat) (s : State) : Host.Outcome State Fault Refusal :=
  let x := s.sl sl
  if !(s.takesHeads sl) ∨ !x.slots.isEmpty then .next s
  else
    let late := x.aged && !x.reentry.isEmpty
    let new := x.headQ.take (if late then 2 else 3)
    let re := if late ∨ new.length < 3 then x.reentry.take 1 else []
    let got := new ++ re
    let s1 := s.setSl sl { x with
      headQ := x.headQ.drop new.length, reentry := x.reentry.drop re.length, slots := got,
      aged := x.aged && re.isEmpty }
    let s2 := s1.each got fun t f => t.setHead f { t.head f with pos := .slot }
    .next (if late then s2.count evHlwReentryWait sl 0 else s2)

/-- REENTRY_AGE_LIMIT (R122): the oldest re-entry of slice sl has waited 16 core cycles (DESIGN CHOICE, safe: log entry 15). -/
def execReentryAgeLimit (sl : Nat) (s : State) : Host.Outcome State Fault Refusal :=
  let x := s.sl sl
  .next (if x.reentry.isEmpty then s else s.setSl sl { x with aged := true })

end Sys2Proof.Machine
end

