-- ==== Sys2Proof/Machine/Stairwell.lean ====
section
/-! DEFINITION. The commands and events of Stairwell (R269 to R304, window 0x0C). -/

namespace Sys2Proof.Machine

/-! ## Admission -/

/-- The frame waits to be offered to its queues. -/
def Frame.offered (x : Frame) : Bool :=
  x.head.pos == .none && !x.isOver && !x.fab.queues.isEmpty && !x.fab.admitted && x.fab.refused == 0

/-- A frame handed over directly waits in its slice's host queue. -/
def State.inHostQ (s : State) (sl f : Nat) : Bool := (s.sl sl).hostQ.any (· == f)

/-- An earlier frame has yet to be offered: of the port (R98, R261, R293), or of the slice's Lofts or host
queue for a frame handed over directly (R351, R402). -/
def State.offerWaits (s : State) (f : Nat) : Bool :=
  let x := s.frame f
  if x.origin = 3 then
    s.pipe.frames.any fun p => decide (p.1 < f) && p.2.origin == 3 && p.2.slice == x.slice &&
      s.inHostQ x.slice p.1 == s.inHostQ x.slice f && p.2.offered
  else x.ordered && s.earlier f fun y => y.ordered && y.offered

/-- A mirror copy is offered once its frame is complete (R297). -/
def State.mirrorAdmit (s : State) (f m : Nat) : State :=
  let s1 := s.mirrorFill f
  let x := s1.frame f
  let n := (x.fab.ports.headD (0, none)).1
  if x.bad ∨ s1.portDown n then (s1.count evStwMirrorDrop m 0).discardFrame f else s1.intake f

/-- VOQ_ADMIT (R275): frame f is offered to its queues. -/
def execVoqAdmit (f : Nat) (s : State) : Host.Outcome State Fault Refusal :=
  let x := s.frame f
  let sl := x.slice
  if !x.offered ∨ x.fab.verify = 1 ∨ s.offerWaits f then .next s
  else
    match x.fab.mirror with
    | some m =>
      let waits := match x.fab.mirrorOf with
        | some o => !(s.frame o).complete
        | none => false
      .next (if waits then s else s.mirrorAdmit f m)
    | none =>
      if x.complete ∧ x.bad then .next (s.endIngress f 3)
      else
        let s1 := s.setSl sl { s.sl sl with hostQ := (s.sl sl).hostQ.filter (· != f) }
        .next ((s1.intake f).each x.fab.queues fun t q => t.voqSettle sl q)

/-! ## Spill -/

/-- SPILL_WRITE (R281): the oldest frame of queue q of slice sl that waits for its spill write is
written, and its units are freed. -/
def execSpillWrite (sl q : Nat) (s : State) : Host.Outcome State Fault Refusal :=
  match (s.voq sl q).spill.find? fun r => !r.kept && !r.written with
  | none => .next s
  | some r =>
    let x := s.frame r.fid
    if !x.complete then .next s
    else if x.bad then .next ((s.discardFrame r.fid).voqSettle sl q)
    else
      match State.spillPack sl q 16 x.data.length s with
      | none => .next s
      | some (s1, ps) =>
        let s2 := s1.each (cutAt x.data ps) fun t p => t.celWrite sl p.1 p.2
        let s3 := s2.setVoq sl q ((s2.voq sl q).mapSpill r.fid fun e => { e with written := true, pieces := ps })
        .next ((s3.freeFrameUnits r.fid).voqSettle sl q)

/-- The bytes of a spilled frame read back. -/
def State.spillRead (s : State) (sl : Nat) (ps : List (Nat × Nat)) : State × Option (List Byte) :=
  ps.foldl (fun (acc : State × Option (List Byte)) p =>
    let r := acc.1.celRead sl p.1 p.2
    (r.1, match acc.2, r.2 with
      | some a, some b => some (a ++ b)
      | _, _ => none)) (s, some [])

/-- The block chain of a VOQ is unreadable (R282). -/
def State.spillChainLost (s : State) (sl q : Nat) : State :=
  let v := s.voq sl q
  let kept := (v.spill.filter (·.kept)).map (·.fid)
  let lost := (v.spill.filter fun r => !r.kept).map (·.fid)
  let s1 := s.setVoq sl q { v with st := 0, die := v.die ++ kept ++ v.latch, latch := [], spill := [] }
  (s1.each lost fun t f => t.spillLost sl q f).freeBlocks sl q

/-- SPILL_READBACK (R279, R282): the oldest spilled frame of queue q of slice sl returns on die;
`chainBad` says that the block chain cannot be read. -/
def execSpillReadback (sl q : Nat) (chainBad : Bool) (s : State) : Host.Outcome State Fault Refusal :=
  let v := s.voq sl q
  match v.spill with
  | [] => .next (s.voqSettle sl q)
  | r :: rest =>
    if v.st = 0 ∨ !(s.shallow sl q) then .next s
    else if r.kept then .next ((s.setVoq sl q { v with die := v.die ++ [r.fid], spill := rest }).voqSettle sl q)
    else if !r.written then .next s
    else if chainBad then .next (s.spillChainLost sl q)
    else
      let x := s.frame r.fid
      let u := unitsOf x.len
      if s.freeUnits sl < u then .next s
      else
        let g := s.spillRead sl r.pieces
        match g.2 with
        | none => .next (((g.1.spillLost sl q r.fid).freeBlocks sl q).voqSettle sl q)
        | some bs =>
          let s1 := g.1.setFrame r.fid { x with data := bs, units := u, counted := some x.fab.tc }
          let s2 := (s1.setVoq sl q { v with die := v.die ++ [r.fid], spill := rest }).count evStwSpillReturn sl 0
          .next (((s2.freeBlocks sl q).voqSettle sl q).xoffUpdate x.port)

/-! ## The crossbar -/

/-- The grants of a round that R284 lets an ingress and an egress slice make: at most 7 each. -/
def roundGrants : List (Nat × Nat) → List (Nat × Nat) → List (Nat × Nat)
  | _, [] => []
  | done, g :: t =>
    if (done.filter fun d => d.1 == g.1).length < 7 ∧ (done.filter fun d => queueSlice d.2 == queueSlice g.2).length < 7 then
      g :: roundGrants (g :: done) t
    else roundGrants done t

/-- GRANT_ROUND (R284): the cells that are granted and accepted, as (ingress slice, queue) pairs; a pair
that the rules of the round do not allow sends nothing (DESIGN CHOICE, safe: log entry 36). -/
def execGrantRound (grants : List (Nat × Nat)) (s : State) : Host.Outcome State Fault Refusal :=
  .next (s.each (roundGrants [] grants) fun t g => (t.grantOne g.1 g.2).voqSettle g.1 g.2)

/-- The first cell of a list that is of queue q from slice src, and the list without it. -/
def takeCell (src q : Nat) : List Cell → Option (Cell × List Cell)
  | [] => none
  | c :: t => if c.src = src ∧ c.q = q then some (c, t) else (takeCell src q t).map fun r => (r.1, c :: r.2)

/-- CELL_ARRIVE (R287 to R289): the oldest cell of queue q from slice src reaches its egress slice;
`crcBad` says that its internal CRC does not match. -/
def execCellArrive (src q : Nat) (crcBad : Bool) (s : State) : Host.Outcome State Fault Refusal :=
  match takeCell src q s.stw.cells with
  | none => .next s
  | some (c, rest) =>
    let s1 := { s with stw := { s.stw with cells := rest } }
    let s2 := if crcBad then ((s1.setB stwErr 4).report 0x1D c.dst 0).count evStwXbarCrc c.dst 0 else s1
    .next (s2.each c.segs fun t p => t.cellPart p.1 c.dst p.2 crcBad)

/-! ## The egress -/

/-- Egress slice e has finished with frame f; with the last report the frame's references are released. -/
def State.copyFinish (s : State) (f e : Nat) : State :=
  let owed := sdel (s.fab f).owed e
  let s1 := s.setFab f { s.fab f with owed := owed }
  let s2 := if owed.isEmpty then
      let t := (s1.frameRelease f).freeBuf f
      t.setFrame f { t.frame f with isOver := true }
    else s1
  (s2.each (s2.copiesAt f e) fun t p => t.copyGone p.1).egTidy f e

/-- COPY_FINISH_REPORT (R290): egress slice e reports that its copies of frame f are finished. -/
def execCopyFinishReport (f e : Nat) (s : State) : Host.Outcome State Fault Refusal :=
  if !(shas (s.fab f).owed e) ∨ !(s.copiesFinished f e) then .next s else .next (s.copyFinish f e)

/-- DOWN_HOLD_EXPIRE (R291): the link of port n has been down for DOWN_HOLD. -/
def execDownHoldExpire (n : Nat) (s : State) : Host.Outcome State Fault Refusal :=
  if s.linkUp n then .next s
  else .next ({ s with pipe := { s.pipe with lastHold := tput s.pipe.lastHold n 1 } }.portPurge n)

/-! ## Commands (R302) -/

/-- SET_WRITE and SET_READ: the words of a set. -/
def State.setWords (s : State) (k : Nat) : Nat :=
  let g := tget ⟨0, []⟩ s.stw.sets k
  g.bitmap.toNat + 2 ^ 512 * (g.groups.getD 0 0 + g.groups.getD 1 0 * 2 ^ 16 + g.groups.getD 2 0 * 2 ^ 32 + g.groups.getD 3 0 * 2 ^ 48)

def State.groupWords (s : State) (k : Nat) : Nat :=
  let g := s.sgroup k
  nat g.auto * 2 ^ 31 + g.count * 2 ^ 16 + g.base + 2 ^ 32 * g.live.toNat

def State.memberWords (s : State) (k : Nat) : Nat :=
  let m := s.gmember k
  nat m.nhEn * 2 ^ 31 + m.port + 2 ^ 32 * (m.nh % 2 ^ 32) + 2 ^ 64 * (m.nh / 2 ^ 32)

/-- The result of an operation at address a on data words d: 1 ADDR, 2 VALUE. -/
def stwCheck (op a d : Nat) : Nat :=
  if (op ≤ 2 ∧ 1024 ≤ a) ∨ ((op = 3 ∨ op = 4) ∧ 4096 ≤ a) then 1
  else if op = 1 ∧ (upto 4).any (fun i => bits d (526 + 16 * i) (524 + 16 * i) != 0) then 2
  else if op = 3 ∧ (bits d 30 23 ≠ 0 ∨ bits d 15 14 ≠ 0 ∨ 64 < bits d 22 16 ∨ 16384 < bits d 13 0 + bits d 22 16) then 2
  else if op = 5 ∧ (bits d 30 9 ≠ 0 ∨ bits d 95 80 ≠ 0) then 2
  else if op = 7 ∧ (bits d 31 24 ≠ 0 ∨ bits d 15 9 ≠ 0) then 2
  else 0

/-- The effect of an operation that passes. -/
def State.stwApply (s : State) (op a d : Nat) : State :=
  match op with
  | 1 =>
    let g : GSet := ⟨BitVec.ofNat 512 d, (upto 4).map fun i => bits d (527 + 16 * i) (512 + 16 * i)⟩
    { s with stw := { s.stw with sets := tput s.stw.sets a g } }
  | 2 => s.wrWide (stwData 0) 18 (s.setWords a)
  | 3 =>
    let g : Group := ⟨d.testBit 31, bits d 22 16, bits d 13 0, BitVec.ofNat 64 (d / 2 ^ 32)⟩
    { s with stw := { s.stw with groups := tput s.stw.groups a g } }
  | 4 => s.wrWide (stwData 0) 3 (s.groupWords a)
  | 5 =>
    let m : GMember := ⟨d.testBit 31, bits d 8 0, bits d 63 32 + bits d 79 64 * 2 ^ 32⟩
    { s with stw := { s.stw with members := tput s.stw.members a m } }
  | 6 => s.wrWide (stwData 0) 3 (s.memberWords a)
  | 7 => s.flush (bits d 8 0) (bits d 23 16)
  | _ => s

/-- An operation run on its address and data; the answer is its RESULT. -/
def State.stwRun (s : State) (op a d : Nat) : State × Nat :=
  let r := stwCheck op a d
  (if r = 0 then s.stwApply op a d else s, r)

/-- A write of STW_CMD. -/
def State.stwCmdWrite (s : State) (v : Word) : State :=
  let op := fld v 30 27
  if s.rb stwCmd 31 then s.setB stwCmdStatus 0
  else if 8 ≤ op then s.setB stwCmdStatus 1
  else
    let s1 := s.plainWrite stwCmd v
    if op = 0 then s1 else
    let r := s1.stwRun op (fld v 13 0) (s1.rdWide (stwData 0) 18)
    r.1.wf stwCmdStatus 31 24 r.2

/-- SET_WRITE (R302). -/
def execStwSetWrite (v : Word) (s : State) : Host.Outcome State Fault Refusal := .next (s.stwCmdWrite (setFld v 30 27 1))
/-- SET_READ (R302). -/
def execStwSetRead (v : Word) (s : State) : Host.Outcome State Fault Refusal := .next (s.stwCmdWrite (setFld v 30 27 2))
/-- GROUP_WRITE (R302). -/
def execStwGroupWrite (v : Word) (s : State) : Host.Outcome State Fault Refusal := .next (s.stwCmdWrite (setFld v 30 27 3))
/-- GROUP_READ (R302). -/
def execStwGroupRead (v : Word) (s : State) : Host.Outcome State Fault Refusal := .next (s.stwCmdWrite (setFld v 30 27 4))
/-- MEMBER_WRITE (R302). -/
def execStwMemberWrite (v : Word) (s : State) : Host.Outcome State Fault Refusal := .next (s.stwCmdWrite (setFld v 30 27 5))
/-- MEMBER_READ (R302). -/
def execStwMemberRead (v : Word) (s : State) : Host.Outcome State Fault Refusal := .next (s.stwCmdWrite (setFld v 30 27 6))
/-- FLUSH (R292, R302). -/
def execFlush (v : Word) (s : State) : Host.Outcome State Fault Refusal := .next (s.stwCmdWrite (setFld v 30 27 7))

/-! ## Hash profiles, scrub, registers (R272, R301, R303) -/

/-- A write of STW_HASH_CTL[k]: the held pieces take effect, or are refused (DESIGN CHOICE, unsafe: log entry 40). -/
def State.hashCommit (s : State) (k : Nat) (v : Word) : State :=
  let a (j : Nat) := stwHashPiece k j
  let w := (upto 4).map fun j => tget (s.rd (a j)) s.held (a j)
  let ps := w.flatMap fun x => [fld x 15 0, fld x 31 16]
  let s1 := { s with held := (upto 4).foldl (fun h j => tdel h (a j)) s.held }
  let s2 := if ps.all pieceOk ∧ keyWidth ps ≤ 40 then
      (upto 4).foldl (fun (t : State) j => t.wr (a j) (w.getD j 0)) s1
    else s1.setB stwErr 0
  s2.plainWrite (stwHashCtl k) v

/-- HASH_PROFILE_COMMIT (R303). -/
def execHashProfileCommit (k : Nat) (v : Word) (s : State) : Host.Outcome State Fault Refusal := .next (s.hashCommit k v)

/-- PANTRY_SCRUB (R301): a unit of slice sl's packet buffer or wake buffer is read; `f` is the frame that
holds it, 0 for a free unit, and `e` what the check finds. -/
def execPantryScrub (sl f : Nat) (e : Ecc) (s : State) : Host.Outcome State Fault Refusal :=
  match e with
  | .ok => .next s
  | .corr => .next (s.bufCorr sl)
  | .uncorr =>
    let s1 := s.bufUncorr sl
    let x := s.frame f
    .next (if !(s.hasFrame f) then s1
      else if x.slice = sl ∧ (x.units + x.hr ≠ 0 ∨ x.head.pos = .wake) then s1.inError f
      else if (s.egFrame f sl).isSome then s1.egError f sl 3
      else s1)

/-- The sum of HEADROOM over the ports of a slice. -/
def State.headroomAll (s : State) (sl : Nat) : Nat := ((upto 32).map fun i => s.rf (stwPortHeadroom (32 * sl + i)) 15 0).sum

/-- A write of a port block register. -/
def State.stwPortWrite (s : State) (n a : Nat) (v : Word) : State :=
  let bad := s.setB stwErr 0
  if a = stwPortPfc n then
    (if fld v 31 16 = 0 ∨ fld v 31 16 ≤ fld v 15 0 then bad else (s.plainWrite a v).xoffUpdate n)
  else if a = stwPortHeadroom n then
    (if s.ingressUnits / 2 < s.headroomAll (n / 32) - s.rf a 15 0 + fld v 15 0 then bad else s.plainWrite a v)
  else if a = stwPortEq n then
    (if fld v 15 0 < 272 ∨ 4096 < fld v 15 0 then bad else s.plainWrite a v)
  else s.plainWrite a v

/-- A write of a Stairwell register. -/
def State.stwRegWrite (s : State) (a : Nat) (v : Word) : State :=
  let bad := s.setB stwErr 0
  if a = stwCmd then s.stwCmdWrite v
  else if stwData 0 ≤ a ∧ a < stwData 18 then (if s.rb stwCmd 31 then s.setB stwCmdStatus 0 else s.plainWrite a v)
  else if a = stwBufCfg then
    (if fld v 4 0 < 2 ∨ 16 < fld v 4 0 ∨ (upto 16).any (fun sl => s.rb (hlwSliceCtl sl) 0) then bad else s.plainWrite a v)
  else if stwTcCfg 0 ≤ a ∧ a < stwTcCfg 8 then
    (if fld v 31 20 = 0 ∨ 8 < fld v 3 0 then bad else s.plainWrite a v)
  else if stwHashPiece 0 0 ≤ a ∧ a < stwHashPiece 8 0 then
    let k := (a - stwHashPiece 0 0) / 0x20
    if a = stwHashCtl k then s.hashCommit k v
    else if a = stwHashSeed k then s.plainWrite a v
    else { s with held := tput s.held a v }
  else if stwMirror 0 ≤ a ∧ a < stwMirror 8 then
    (if v.getLsbD 31 ∧ fld v 19 17 ≠ 1 ∧ fld v 19 17 ≠ 3 then bad else s.plainWrite a v)
  else if stwSampCfg 0 ≤ a ∧ a < stwSampCfg 64 ∧ a % 16 = 0 then
    (if fld v 31 24 = 0 ∨ 16 < fld v 31 24 then bad else s.plainWrite a v)
  else if stwPortCfg 0 ≤ a ∧ a < stwPortCfg 512 then s.stwPortWrite ((a - stwPortCfg 0) / 0x20) a v
  else s.plainWrite a v

end Sys2Proof.Machine
end

