-- ==== Sys2Proof/Machine/HandOver.lean ====
section
/-! DEFINITION. Frames that Lofts and Doorway hand to a slice: directly to Stairwell (R270, R349), or as a head
through the re-entry queue (R122, R350, R407). -/

namespace Sys2Proof.Machine

/-- A DEST_KIND and DEST that R349 accepts. -/
def destOk (kind dest : Nat) : Bool :=
  decide ((kind = 1 ∧ dest < 512) ∨ (kind = 2 ∧ dest < 0x400) ∨ (kind = 3 ∧ dest < 4096))

/-- The frames handed over directly that wait in the host queue (`host`) or the Lofts queue of slice sl. -/
def State.handedCount (s : State) (sl : Nat) (host : Bool) : Nat :=
  (s.pipe.frames.filter fun p =>
    p.2.origin == 3 && p.2.slice == sl && p.2.offered && s.inHostQ sl p.1 == host).length

/-- The buffer of a frame that goes no further is freed (R384). -/
def State.handDrop (s : State) (x : Frame) : State := if x.buf = 0 then s else s.hwFree x.buf

/-- What a frame handed over directly brings: its port, its bytes without FCS, its metadata word, the buffer
that is freed with it. -/
structure Handed where
  port : Nat
  data : List Byte
  md : BitVec 1024
  buf : Nat
deriving DecidableEq, Repr

/-- A head whose shim container holds the frame's own shim, for the check units. -/
def Handed.head (x : Handed) : Head :=
  let h := { Head.init with md := x.md }
  { h with hv := splice (List.replicate 512 0) 320 (if h.shimVer = 0 then [] else slice x.data (h.layerOff 7) 192) }

/-- A direct frame with its copies known. -/
def State.handRouted (s : State) (x : Handed) (y : Frame) (tc hash dest : Nat) (host : Bool) (r : Resolved) : State :=
  let sl := x.port / 32
  match r with
  | .bad => (s.count evStwBadDest sl 0).handDrop y
  | .noGroup => (s.count evStwGroupEmpty sl 0).handDrop y
  | .empty => (s.count evStwMcEmpty sl 0).handDrop y
  | .copies k nh ports =>
    let data := match nh with
      | some m =>
        let g := s.gmember m
        if g.nhEn then splice x.data 0 (g.mac ++ s.portMac g.port) else x.data
      | none => x.data
    let e := s.directEnter { y with data := data } k tc hash ports
    let s1 := if host then e.1.setSl sl { e.1.sl sl with hostQ := (e.1.sl sl).hostQ ++ [e.2] } else e.1
    let z := s1.frame e.2
    let s2 := if z.head.chkEn ∧ !z.head.checkable then s1.count evChkSkip sl 0 else s1
    let verify := z.head.chkEn && z.head.checkable && s2.hasTrailer z
    (s2.setFab e.2 { z.fab with dest := dest, verify := nat verify }).mirrorsOf e.2 (z.head.get 567 560)

/-- A frame is handed to Stairwell at the slice of its port (R270, R349). Its flow hash is a free value (DESIGN CHOICE, safe: log entry 53) (DESIGN CHOICE, unsafe: log entry 70). -/
def State.handDirect (s0 : State) (x : Handed) (kind dest tc : Nat) (host : Bool) : State :=
  let r := s0.free 16
  let y : Frame := { Frame.init with
    port := x.port, data := x.data, orig := x.data, len := x.data.length + 4, origin := 3, buf := x.buf,
    settled := true, noticed := true, head := ((x.head.put 530 528 kind).put 547 532 dest).put 550 548 tc }
  r.2.handRouted x y tc r.1 dest host (r.2.resolve y.head r.1)

/-- A frame joins the re-entry queue of its slice as a new head: `entry` 2 at its port's START, 4 at `start`
with the NEXT of its metadata word. -/
def State.handHead (s : State) (x : Handed) (origin entry start rxTs : Nat) : State :=
  let r := s.newFrame { Frame.init with
    port := x.port, data := x.data, orig := x.data, len := x.data.length + 4, origin := origin, buf := x.buf,
    rxTs := rxTs, head := { Head.init with md := x.md, entry := entry, start := start } }
  r.1.enterReentry r.2

end Sys2Proof.Machine
end

