-- ==== Sys2Proof/Machine/DoorwayOps.lean ====
section
/-! DEFINITION. Doorway's operations (R398 to R419): queue pairs, entries and their checks, completions, the
holding buffer, signals, and the reset of a queue. -/

namespace Sys2Proof.Machine

/-! ## Queue pairs (R398 to R400) -/

def State.dq (s : State) (q : Nat) : DwyQ := tget DwyQ.init s.dwy.queues q
def State.setDq (s : State) (q : Nat) (x : DwyQ) : State :=
  { s with dwy := { s.dwy with queues := tput s.dwy.queues q x } }
def State.setFn (s : State) (f : Nat) (x : DwyFn) : State :=
  { s with dwy := { s.dwy with fns := tput s.dwy.fns f x } }

def State.qState (s : State) (q : Nat) : Nat := s.rf (dwyQpStatus q) 31 29
def State.setQState (s : State) (q st : Nat) : State := s.wf (dwyQpStatus q) 31 29 st
def State.qEn (s : State) (q : Nat) : Bool := s.rb (dwyQpCfg q) 31
def State.qKind (s : State) (q : Nat) : Nat := s.rf (dwyQpCfg q) 30 28
def State.sqWindow (s : State) (q : Nat) : Bool := s.rb (dwyQpCfg q) 27
def State.cqWindow (s : State) (q : Nat) : Bool := s.rb (dwyQpCfg q) 26
def State.qCopy (s : State) (q : Nat) : Bool := s.rb (dwyQpCfg q) 25
def State.sqSize (s : State) (q : Nat) : Nat := 2 ^ s.rf (dwyQpCfg q) 23 20
def State.cqSize (s : State) (q : Nat) : Nat := 2 ^ s.rf (dwyQpCfg q) 19 16
def State.sqPi (s : State) (q : Nat) : Nat := s.rf (dwySqPi q) 15 0
def State.sqCi (s : State) (q : Nat) : Nat := s.rf (dwySqCi q) 15 0
def State.cqPi (s : State) (q : Nat) : Nat := s.rf (dwyCqPi q) 15 0
def State.cqCi (s : State) (q : Nat) : Nat := s.rf (dwyCqCi q) 15 0
def State.qPort (s : State) (q : Nat) : Nat := s.rf (dwyQpPort q) 8 0

/-- The distance from index `b` to index `a` of a 16-bit count. -/
def idxSub (a b : Nat) : Nat := (a + 65536 - b) % 65536

/-- The entries posted and not yet taken. -/
def State.sqPosted (s : State) (q : Nat) : Nat := idxSub (s.sqPi q) (s.sqCi q)
/-- The CQ slots that the host has freed. -/
def State.cqFree (s : State) (q : Nat) : Nat := s.cqSize q - idxSub (s.cqPi q) (s.cqCi q)

/-- The function of a queue; 0 where none has it. -/
def State.fnOf (s : State) (q : Nat) : Nat := (s.fnOfQ q).getD 0
/-- The descriptor generation of a function (R403). -/
def State.fnGen (s : State) (f : Nat) : Nat := s.rf (dwyFnFmt f) 1 0
def State.qGen (s : State) (q : Nat) : Nat := s.fnGen (s.fnOf q)
/-- Queue q of function f takes no access of host memory: host sleep (R418), or no bus mastering. -/
def State.fnAway (s : State) (f : Nat) : Bool := (s.fn f).asleep || !(s.fn f).busMaster
/-- What the queue writes to its CQ must wait for the host. -/
def State.cqAway (s : State) (q : Nat) : Bool := !(s.cqWindow q) && s.fnAway (s.fnOf q)

/-- The queues of function f in which anything stands. -/
def State.fnQueues (s : State) (f : Nat) : List Nat :=
  (tkeys s.dwy.queues).filter fun q => s.fnOfQ q == some f

/-- A queue of function f is enabled or not yet DISABLED. -/
def State.fnBusy (s : State) (f : Nat) : Bool := (s.fnQueues f).any fun q => s.qEn q || s.qState q != 0

/-! ## Entries (R404 to R406) -/

/-- The fields of an entry, whatever its generation. -/
structure Entry where
  typ : Nat
  len : Nat
  buf : Bool
  suppress : Bool
  tag : Nat
  addr : Nat
  handle : Nat
  direct : Bool
  port : Nat
  kind : Nat
  dest : Nat
  tc : Nat
  prog : Nat
  flow : Nat
  chk : Nat
  bad : Bool
deriving DecidableEq, Repr

/-- A generation 2 entry; `bad` says that it breaks a rule that does not depend on its queue. -/
def entry2 (ws : List Word) : Entry :=
  let w (i : Nat) : Word := ws.getD i 0
  let typ := fld (w 0) 7 0
  let len := fld (w 0) 29 16
  let buf := (w 0).getLsbD 10
  let direct := (w 4).getLsbD 0
  let kind := fld (w 4) 12 10
  let dest := fld (w 4) 28 13
  let tc := fld (w 4) 31 29
  let w5 := fld (w 5) 6 0
  let reserved := fld (w 0) 31 30 != 0 || fld (w 0) 15 11 != 0 || (w 0).getLsbD 8 || fld (w 5) 31 7 != 0 ||
    (ws.drop 6).any (· != 0)
  let lenBad := if typ = 0 then len != 0 else if typ = 2 then decide (len < 1 ∨ 16380 < len) else decide (len < 60 ∨ 16380 < len)
  let nopBad := typ == 0 && (buf || w 2 != 0 || w 3 != 0 || w 4 != 0 || w 5 != 0)
  let bufBad := buf && (w 2 == 0 || w 3 != 0 || typ == 3)
  let sendBad := typ == 1 && (if direct then !(destOk kind dest) else decide (tc ≠ 0 ∨ kind ≠ 0 ∨ dest ≠ 0 ∨ w5 ≠ 0))
  { typ := typ, len := len, buf := buf, suppress := (w 0).getLsbD 9, tag := (w 1).toNat,
    addr := (w 2).toNat + 2 ^ 32 * (w 3).toNat, handle := (w 2).toNat, direct := direct, port := fld (w 4) 9 1,
    kind := kind, dest := dest, tc := tc, prog := fld (w 4) 15 0, flow := fld (w 4) 31 16, chk := w5,
    bad := decide (3 < typ) || reserved || lenBad || nopBad || bufBad || sendBad }

/-- A generation 1 entry of a queue whose DWY_QP_PORT is `qport` (DEDUCED, unsafe: log entry 65). -/
def entry1 (ws : List Word) (qport : Nat) : Entry :=
  let w (i : Nat) : Word := ws.getD i 0
  let typ := fld (w 0) 7 0
  let len := fld (w 0) 29 16
  let direct := (w 4).getLsbD 0
  let port := fld (w 1) 24 16
  let reserved := fld (w 0) 31 30 != 0 || fld (w 0) 15 9 != 0 || fld (w 1) 31 25 != 0 || (ws.drop 5).any (· != 0) ||
    (typ == 1 && fld (w 4) 31 4 != 0) || (typ == 2 && fld (w 4) 15 12 != 0)
  let lenBad := if typ = 0 then len != 0 else if typ = 2 then decide (len < 1 ∨ 9212 < len) else decide (len < 60 ∨ 9212 < len)
  let nopBad := typ == 0 && (port != 0 || w 2 != 0 || w 3 != 0 || w 4 != 0)
  let sendBad := typ == 1 && !direct && fld (w 4) 3 1 != 0
  { typ := typ, len := len, buf := false, suppress := (w 0).getLsbD 8, tag := fld (w 1) 15 0,
    addr := (w 2).toNat + 2 ^ 32 * (w 3).toNat, handle := 0, direct := direct, port := if direct then qport else port,
    kind := 1, dest := port, tc := fld (w 4) 3 1, prog := fld (w 4) 11 0, flow := fld (w 4) 31 16, chk := 0,
    bad := decide (3 < typ) || reserved || lenBad || nopBad || sendBad }

def State.entryOf (s : State) (q : Nat) (ws : List Word) : Entry :=
  if s.qGen q = 1 then entry1 ws (s.qPort q) else entry2 ws

/-- The TYPE is allowed on the queue (R398). -/
def State.typeOk (s : State) (q typ : Nat) : Bool :=
  typ == 0 || (typ == 1 && s.qKind q == 1) || (typ == 2 && s.qKind q == 2) ||
    (typ == 3 && s.qKind q == 3 && s.qCopy q)

/-! ## Stops (R410, R411) -/

/-- The completion of a taken entry, or of a malformed one. -/
def Entry.taken (e : Entry) (idx : Nat) : Taken :=
  { idx := idx, typ := e.typ, words := [], gen := 0, wait := 0, status := 0, len := e.len, tag := e.tag, buf := 0,
    handle := 0, inPort := 0, off := 0, ticket := 0, copy := none }

/-- Every SQ that is neither disabled nor in reset is HALTED. -/
def State.haltAll (s : State) : State :=
  s.each (tkeys s.dwy.queues) fun t q =>
    let st := t.qState q
    if st = 0 ∨ st = 5 ∨ st = 6 then t else (t.setDq q { t.dq q with prev := st }).setQState q 5

/-- A malformed entry, or an index violation (`cause` 1 or 2), at queue q: generation 2 stops the queue,
generation 1 halts Doorway. -/
def State.dwyStop (s : State) (q cause : Nat) (t : Taken) : State :=
  let f := s.fnOf q
  let s1 := (s.count evDwyMalformed f 0).wf (dwyQpStatus q) 23 16 cause
  if s.fnGen f = 1 then
    (((s1.haltAll.wrN dwyHaltLoc (t.idx * 2 ^ 16 + q)).setB dwyHalt 31).count evDwyHalted 0 0).pulse (1024 + f)
  else
    let x := s1.dq q
    ((s1.setDq q { x with prefetch := [], taken := x.taken ++ [{ t with status := 1, words := [] }] }).setQState q 4).setB
      (dwyFnErr f) 1

/-! ## Completions (R412 to R417) -/

/-- The 16 bytes of a completion. -/
def Taken.bytes (t : Taken) (gen : Nat) : List Byte :=
  if gen = 1 then
    natLe 4 (t.tag % 65536 * 2 ^ 16 + t.typ * 2 ^ 8 + t.status) ++ natLe 4 (t.idx * 2 ^ 16 + t.len) ++ natLe 4 t.inPort ++
      natLe 4 0
  else
    natLe 4 (t.len * 2 ^ 16 + t.typ * 2 ^ 8 + t.status) ++ natLe 4 t.tag ++ natLe 4 t.handle ++
      natLe 4 (t.inPort * 2 ^ 16 + (if t.typ = 4 ∧ t.handle ≠ 0 then t.off else t.idx))

/-- A write of the part to where a queue's CQ and mirror lie. -/
def State.cqWrite (s : State) (q a : Nat) (bs : List Byte) : State :=
  if s.cqWindow q then s.celWrite 0x14 a bs else s.emit (.hostWrite a bs)

/-- INDEX_MIRROR_WRITE (R401), where it is due and the host can take it. -/
def State.mirrorWrite (s : State) (q : Nat) : State :=
  if !(s.dq q).mirrorDue || s.cqAway q then s
  else
    (s.cqWrite q (s.rd64 (dwyIdxBaseLo q)) (natLe 2 (s.sqCi q) ++ natLe 2 (s.cqPi q) ++ natLe 4 0)).setDq q
      { s.dq q with mirrorDue := false }

/-- A signal of queue q falls due: it is sent, or stays pending while the host sleeps (R416, R418). -/
def State.qSignal (s : State) (q : Nat) : State :=
  let f := s.fnOf q
  let x := s.dq q
  if s.fnAway f then
    let s1 := (s.setDq q { x with since := 0, sigPending := true }).count evDwySignalDeferred f 0
    if !(s.fn f).asleep || !(s.fn f).pmeEn then s1
    else if s1.dwy.linkL2 then { s1 with attic := { s1.attic with wakeN := false } }.count evDwyPme f 0
    else (s1.emit (.pme f)).count evDwyPme f 0
  else
    ((s.setDq q { x with since := 0, sigPending := false }).raiseVector f (s.rf (dwyQpCfg q) 10 0)).count evDwySignal f 0

/-- A completion has been written: the moderation of R416 and R417. -/
def State.moderate (s : State) (q : Nat) : State :=
  if !(s.rb (dwyQpCfg q) 24) then s else
  let x := s.dq q
  let n := x.since + 1
  let s1 := s.setDq q { x with since := n, sinceNs := if x.since = 0 then s.ns else x.sinceNs }
  let count := s.rf (dwyCqMod q) 15 0
  if s.rb (dwyFnPm (s.fnOf q)) 0 ∨ s.rf (dwyCqMod q) 31 16 = 0 ∨ (count ≠ 0 ∧ count ≤ n) then s1.qSignal q else s1

/-- A completion goes to its CQ slot, after the data it covers; the buffer of a BUF FRAME becomes the
function's (R384) (DEDUCED, unsafe: log entry 69). -/
def State.cmplPost (s : State) (q : Nat) (c : Cmpl) : State :=
  let s1 := match c.copy with
    | some (a, d) => s.emit (.hostWrite a d)
    | none => s
  let s2 := if c.buf = 0 then s1 else s1.ownerPass c.buf (ownerFn (s1.fnOf q))
  let s3 := s2.cqWrite q (s2.rd64 (dwyCqBaseLo q) + 16 * (s2.cqPi q % s2.cqSize q)) c.bytes
  let s4 := (s3.wrN (dwyCqPi q) ((s3.cqPi q + 1) % 65536)).count evDwyCmpl q 0
  (s4.setDq q { s4.dq q with mirrorDue := true }).moderate q

/-- The data of a COPY delivery, or the completion itself, must wait for the host. -/
def State.cmplAway (s : State) (q : Nat) (c : Cmpl) : Bool := s.cqAway q || (c.copy.isSome && s.fnAway (s.fnOf q))

def State.showHeld (s : State) (q : Nat) : State := s.wf (dwyQpStatus q) 6 0 (s.dq q).held.length

/-- CQ_FULL rises (R414). -/
def State.cqFullSet (s : State) (q : Nat) : State := (s.setB (dwyQpStatus q) 28).count evDwyCqFull q 0

/-- Held completions are written as far as the CQ has room. -/
def State.heldFlush (q : Nat) : Nat → State → State
  | 0, s => s
  | fuel + 1, s =>
    match (s.dq q).held with
    | [] => s.wf (dwyQpStatus q) 27 27 0
    | c :: rest =>
      if s.cmplAway q c ∨ s.cqFree q = 0 then s
      else State.heldFlush q fuel (((s.setDq q { s.dq q with held := rest }).showHeld q).cmplPost q c)

/-- A completion is written, or held (R414, R418). -/
def State.cmplGive (s : State) (q : Nat) (c : Cmpl) : State :=
  let x := s.dq q
  if x.held.isEmpty && !(s.cmplAway q c) && decide (s.cqFree q ≠ 0) then s.cmplPost q c
  else
    let s1 := ((s.setDq q { x with held := x.held ++ [c] }).showHeld q).count evDwyHeld q 0
    let s2 := if s.cmplAway q c then s1.setB (dwyQpStatus q) 27 else s1
    if !(s.cmplAway q c) && s.cqFree q == 0 && x.held.isEmpty then s2.cqFullSet q else s2

/-- The inner index of a STATUS other than DONE in its counter. -/
def statusIdx (st : Nat) : Nat := if st < 0x11 then st - 1 else st - 0x11 + 5

/-! ## The reset of a queue (R419) -/

/-- A completion is discarded: its BUF FRAME's buffer is freed. -/
def State.cmplDiscard (s : State) (q buf : Nat) : State :=
  (if buf = 0 then s else s.hwFree buf).count evDwyCmplDiscard (s.fnOf q) 0

/-- No entry is outstanding any more: the queue is DISABLED. -/
def State.resetDone (s : State) (q : Nat) : State :=
  if s.qState q ≠ 6 ∨ !(s.dq q).taken.isEmpty then s
  else
    let s1 := ((((s.wr (dwySqPi q) 0).wr (dwySqCi q) 0).wr (dwyCqPi q) 0).wr (dwyCqCi q) 0).putB (dwyQpCfg q) 31 false
    (s1.wf (dwyQpStatus q) 27 0 0).setQState q 0

/-- DWY_QP_CTL.RESET. -/
def State.qReset (s : State) (q : Nat) : State :=
  if s.qState q = 0 then s else
  let x := s.dq q
  let done := x.taken.filter (·.wait == 0)
  let s1 := s.setDq q { DwyQ.init with taken := x.taken.filter (·.wait != 0) }
  let s2 := s1.each x.held fun t c => t.cmplDiscard q c.buf
  let s3 := s2.each done fun t e => t.cmplDiscard q e.buf
  (s3.setQState q 6).resetDone q

end Sys2Proof.Machine
end

