-- ==== Sys2Proof/Machine/Doorway.lean ====
section
/-! DEFINITION. The commands and events of Doorway (chapter 13, window 0x03). -/

namespace Sys2Proof.Machine

/-! ## Taking entries (R402, R406, R407, R414) -/

/-- R414 leaves room for one more completion of queue q. -/
def State.cmplRoom (s : State) (q : Nat) : Bool :=
  let x := s.dq q
  decide (x.taken.length + x.recv.length < s.cqFree q + (64 - x.held.length))

/-- The first prefetched entry is taken: SQ_CI moves past it. -/
def State.sqPass (s : State) (q : Nat) : State :=
  let x := s.dq q
  ((s.wrN (dwySqCi q) ((s.sqCi q + 1) % 65536)).setDq q
    { x with prefetch := x.prefetch.drop 1, mirrorDue := true, waited := false }).count evDwyTaken q 0

/-- A taken entry owes its completion. -/
def State.owe (s : State) (q : Nat) (t : Taken) : State :=
  s.setDq q { s.dq q with taken := (s.dq q).taken ++ [t] }

/-- What a taken entry of these words is recorded as. -/
def State.takenOf (s : State) (q : Nat) (e : Entry) (ws : List Word) : Taken :=
  { e.taken (s.sqCi q) with words := ws, gen := s.qGen q }

/-- Cupboard's checks on a handle that function f hands over, for a SEND (R384, R386): the result on failure,
or the buffer. -/
def State.sendHandle (s : State) (f h : Nat) : State × (Nat ⊕ Nat) :=
  match s.cupCheck (s.handleAddr h) (some (h / 2 ^ 24)) with
  | (s1, .inl r) => (s1, .inl r)
  | (s1, .inr (_, _, r)) => (s1, if r.mode = 0 ∧ r.owner = ownerFn f then .inr (s.handleAddr h) else .inl 5)

/-- The same for a TICKET, which may carry a shared buffer (R385); the answer says whether it is shared. -/
def State.ticketHandle (s : State) (f h : Nat) : State × (Nat ⊕ (Nat × Bool)) :=
  match s.cupCheck (s.handleAddr h) (some (h / 2 ^ 24)) with
  | (s1, .inl r) => (s1, .inl r)
  | (s1, .inr (_, _, r)) =>
    (s1, if r.mode = 0 then (if r.owner = ownerFn f then .inr (s.handleAddr h, false) else .inl 5)
      else if r.holds = 0 then .inl 6 else .inr (s.handleAddr h, true))

/-- The slice queue that a SEND enters has room. -/
def State.sendRoom (s : State) (e : Entry) : Bool :=
  if e.direct then decide (s.handedCount (e.port / 32) true < 256) else s.reentryRoom (e.port / 32)

/-- The metadata word of a DIRECT SEND: no layer is marked. -/
def Entry.directMd (e : Entry) : BitVec 1024 :=
  BitVec.ofNat 1024 ((2 ^ 70 - 1) * 2 ^ 138 + e.chk % 2 * 2 ^ 551 + e.chk / 2 * 2 ^ 552)

/-- The frame of a SEND reaches its slice from buffer `buf`, which hardware then owns (R384, R407). -/
def State.sendHand (s : State) (e : Entry) (buf : Nat) (d : List Byte) : State :=
  let s1 := s.ownerPass buf (ownerSlice (e.port / 32))
  if e.direct then s1.handDirect ⟨e.port, d, e.directMd, buf⟩ e.kind e.dest e.tc true
  else s1.handHead ⟨e.port, d, 0, buf⟩ 2 2 0 s1.ns

/-- A host ticket in buffer `buf`, whose frame stands there and begins with `head` (R341, R345, R407). Its
receive stamp is a free value (DESIGN CHOICE, safe: log entry 54). -/
def State.hostTicket (s : State) (q : Nat) (e : Entry) (port buf : Nat) (shared : Bool) (head : List Byte) :
    State × Nat :=
  let pool := match s.poolOf buf with
    | some (k, _, _) => k
    | none => 0
  let r := s.free 64
  let k : Ticket := { Ticket.init with
    src := 3, prog := e.prog, flow16 := e.flow, inPort := port, rxTs := r.1, qp := q, pool := pool, buf := buf,
    cap := 2 ^ s.poolLog2 pool - 768, shared := shared, dataLen := e.len, headLen := min 512 e.len }
  (r.2.celWrite 0x14 buf (k.record head)).newTicket k

/-- An entry that would draw on a pool that gives nothing waits, and is counted once. -/
def State.poolWait (s : State) (q : Nat) : State :=
  if (s.dq q).waited then s
  else (s.setDq q { s.dq q with waited := true }).count evDwyFetchWaitPool (s.fnOf q) 0

/-- The taking of an entry whose data Doorway reads from host memory, into a buffer of `n` bytes that it
draws. -/
def State.takeDraw (s : State) (q : Nat) (e : Entry) (ws : List Word) (n : Nat) : State :=
  let f := s.fnOf q
  if s.fnAway f then s else
  let can := match s.fitPool n with
    | some k => s.chainCan .doorway 8 k
    | none => false
  if !can then s.poolWait q else
  match s.cupGrant .doorway (ownerFn f) n with
  | (s1, _, some (_, buf)) =>
    ((s1.sqPass q).owe q { s.takenOf q e ws with wait := 1, buf := buf, inPort := s.qPort q }).emit (.hostRead e.addr e.len)
  | (s1, _, none) => s1.poolWait q

/-- A SEND is taken. -/
def State.takeSend (s : State) (q : Nat) (e : Entry) (ws : List Word) : State :=
  let t := s.takenOf q e ws
  if !(s.sendRoom e) then s
  else if !e.buf then s.takeDraw q e ws e.len
  else if (s.dq q).taken.any fun u => u.wait == 1 then s
  else match s.sendHandle (s.fnOf q) e.handle with
    | (s1, .inl r) => (s1.sqPass q).owe q { t with status := 0x10 + r }
    | (s1, .inr buf) =>
      match s1.celRead 0x14 buf e.len with
      | (s2, none) => (s2.sqPass q).owe q { t with status := 3 }
      | (s2, some d) => ((s2.sqPass q).owe q t).sendHand e buf d

/-- A TICKET is taken. -/
def State.takeTicket (s : State) (q : Nat) (e : Entry) (ws : List Word) : State :=
  let t := s.takenOf q e ws
  if !e.buf then s.takeDraw q e ws (768 + e.len)
  else match s.ticketHandle (s.fnOf q) e.handle with
    | (s1, .inl r) => (s1.sqPass q).owe q { t with status := 0x10 + r }
    | (s1, .inr (buf, shared)) =>
      match s1.celRead 0x14 (buf + 768) (min 512 e.len) with
      | (s2, none) => (s2.sqPass q).owe q { t with status := 3 }
      | (s2, some d) =>
        let r := s2.hostTicket q e (s.qPort q) buf shared d
        (r.1.sqPass q).owe q { t with wait := 2, ticket := r.2 }

/-- The next entry of queue q is taken, if the step is the one for its TYPE (ENTRY_CHECK, R406). -/
def State.takeEntry (s : State) (q : Nat) (mine : Entry → Bool)
    (act : State → Entry → List Word → State) : State :=
  match (s.dq q).prefetch with
  | [] => s
  | ws :: _ =>
    let e := s.entryOf q ws
    if s.qState q ≠ 1 ∨ !(mine e) ∨ !(s.cmplRoom q) then s
    else if e.bad || !(s.typeOk q e.typ) then s.dwyStop q 1 (e.taken (s.sqCi q))
    else act s e ws

/-- NOP_ENTRY (R407). -/
def execNopEntry (q : Nat) (s : State) : Host.Outcome State Fault Refusal :=
  .next (s.takeEntry q (fun e => e.typ == 0 || decide (3 < e.typ)) fun t e ws => (t.sqPass q).owe q (t.takenOf q e ws))

/-- SEND_PIPELINE (R407). -/
def execSendPipeline (q : Nat) (s : State) : Host.Outcome State Fault Refusal :=
  .next (s.takeEntry q (fun e => e.typ == 1 && !e.direct) fun t e ws => t.takeSend q e ws)

/-- SEND_DIRECT (R407). -/
def execSendDirect (q : Nat) (s : State) : Host.Outcome State Fault Refusal :=
  .next (s.takeEntry q (fun e => e.typ == 1 && e.direct) fun t e ws => t.takeSend q e ws)

/-- TICKET_ENTRY (R407). -/
def execTicketEntry (q : Nat) (s : State) : Host.Outcome State Fault Refusal :=
  .next (s.takeEntry q (fun e => e.typ == 2) fun t e ws => t.takeTicket q e ws)

/-- RECV_ENTRY (R407, R415): a host buffer for the next COPY delivery. -/
def execRecvEntry (q : Nat) (s : State) : Host.Outcome State Fault Refusal :=
  .next (s.takeEntry q (fun e => e.typ == 3) fun t _ ws =>
    (t.sqPass q).setDq q { (t.sqPass q).dq q with recv := (t.dq q).recv ++ [(t.sqCi q, ws)] })

/-- ENTRY_FETCH (R408): the next posted entry is fetched: from the window, or from host memory, which answers
`words` (DESIGN CHOICE, unsafe: log entry 66). -/
def execEntryFetch (q : Nat) (words : List Word) (s : State) : Host.Outcome State Fault Refusal :=
  let x := s.dq q
  let n := if s.qGen q = 1 then 8 else 16
  let i := (s.sqCi q + x.prefetch.length) % 65536
  let a := s.rd64 (dwySqBaseLo q) + 4 * n * (i % s.sqSize q)
  if s.qState q ≠ 1 ∨ (s.qKind q = 3 ∧ !(s.qCopy q)) ∨ s.sqPosted q ≤ x.prefetch.length ∨ 64 ≤ x.prefetch.length then .next s
  else if s.sqWindow q then
    match s.celRead 0x14 a (4 * n) with
    | (s1, some bs) =>
      .next (s1.setDq q { x with
        prefetch := x.prefetch ++ [(upto n).map fun k => BitVec.ofNat 32 (leNat (slice bs (4 * k) 4))] })
    | (s1, none) => .next s1
  else if s.fnAway (s.fnOf q) then .next s
  else
    let s1 := s.emit (.hostRead a (4 * n))
    .next (s1.setDq q { x with prefetch := x.prefetch ++ [(upto n).map fun k => words.getD k 0] })

/-- The entry of a taken record. -/
def Taken.entry (t : Taken) : Entry := if t.gen = 1 then entry1 t.words t.inPort else entry2 t.words

/-- The oldest entry of a queue that waits for host memory, replaced. -/
def setWaiting (f : Taken → Taken) : List Taken → List Taken
  | [] => []
  | t :: rest => if t.wait = 1 then f t :: rest else t :: setWaiting f rest

/-- HOST_DMA_COMPLETION (R407, R413): the read of entry `idx` of queue q returns its data and whether they are
poisoned, or fails. -/
def execHostDmaCompletion (q idx : Nat) (data : Option (List Byte × Bool)) (s : State) :
    Host.Outcome State Fault Refusal :=
  let x := s.dq q
  match x.taken.find? fun t => t.wait == 1 with
  | none => .next s
  | some t =>
    let e := t.entry
    if t.idx ≠ idx then .next s
    else
      let fail := (s.setDq q { x with
        taken := setWaiting (fun u => { u with wait := 0, status := 2, buf := 0 }) x.taken }).hwFree t.buf
      match data with
      | none => .next fail
      | some (bytes, poison) =>
        let d := slice bytes 0 e.len
        if poison then .next fail
        else if e.typ = 2 then
          let r := (s.celWrite 0x14 (t.buf + 768) d).hostTicket q e t.inPort t.buf false d
          .next (r.1.setDq q { x with
            taken := setWaiting (fun u => { u with wait := 2, buf := 0, ticket := r.2 }) x.taken })
        else if !(s.sendRoom e) then .next s
        else
          let s1 := (s.celWrite 0x14 t.buf d).sendHand e t.buf d
          .next (s1.setDq q { s1.dq q with taken := setWaiting (fun u => { u with wait := 0, buf := 0 }) x.taken })

/-! ## Completions (R412 to R418) -/

/-- The entry asks for no completion where it ends DONE. -/
def Taken.suppressed (t : Taken) : Bool :=
  t.status == 0 && (t.words.getD 0 0).getLsbD (if t.gen = 1 then 8 else 9)

/-- COMPLETION_WRITE (R412): the oldest taken entry of queue q has ended; without one, the mirror is written
where it is due. -/
def execCompletionWrite (q : Nat) (s : State) : Host.Outcome State Fault Refusal :=
  let x := s.dq q
  match x.taken with
  | [] => .next (s.mirrorWrite q)
  | t :: rest =>
    if t.wait ≠ 0 then .next (s.mirrorWrite q)
    else
      let s1 := s.setDq q { x with taken := rest }
      if s.qState q = 6 then .next ((s1.cmplDiscard q t.buf).resetDone q)
      else
        let f := s.fnOf q
        let s2 := if t.status ≠ 0 then s1.count evDwyStatus f (statusIdx t.status) else s1
        if t.suppressed then .next (s2.mirrorWrite q)
        else .next ((s2.cmplGive q ⟨t.bytes (s.qGen q), t.buf, t.copy⟩).mirrorWrite q)

/-- COMPLETION_SIGNAL (R416): TIME has passed since the first completion after the last signal. -/
def execCompletionSignal (q : Nat) (s : State) : Host.Outcome State Fault Refusal :=
  let x := s.dq q
  let time := s.rf (dwyCqMod q) 31 16
  if s.rb (dwyQpCfg q) 24 && decide (x.since ≠ 0 ∧ time ≠ 0 ∧ x.sinceNs + time * 1000 ≤ s.ns) then .next (s.qSignal q)
  else .next s

/-- tk.host (R415): ticket `k`'s frame, `hl` bytes of which are `head`, goes to queue q; the answer is the
result of R348. -/
def State.hostDeliver (s : State) (q : Nat) (k : Ticket) (hl : Nat) (head : List Byte) : State × Nat :=
  let x := s.dq q
  let n := if hl = 0 then k.dataLen else hl + k.dataLen - k.headLen
  let frame : Taken := { Entry.taken (entry2 []) 0 with typ := 4, len := n, inPort := k.inPort }
  if !(s.qEn q) ∨ s.qKind q ≠ 3 ∨ s.qState q = 0 ∨ s.qState q = 6 then (s, 6)
  else if !(s.qCopy q) then
    if !(s.cmplRoom q) then (s, 1)
    else
      let off := if hl = 0 then 768 else 768 + k.headLen - hl
      let s1 := if hl = 0 then s else s.celWrite 0x13 (k.buf + off) head
      (s1.owe q { frame with buf := k.buf, handle := s1.handleOf k.buf, off := off }, 0)
  else
    match x.recv with
    | [] => (s, 1)
    | (idx, ws) :: rest =>
      let e := s.entryOf q ws
      let s1 := s.setDq q { x with recv := rest }
      if e.len < n then
        ((s1.owe q { frame with idx := idx, tag := e.tag, status := 5 }).hwFree k.buf, 0)
      else
        let off := if hl = 0 then 0 else k.headLen
        match s1.celRead 0x14 (k.buf + 768 + off) (k.dataLen - off) with
        | (s2, none) => (s2.setDq q x, 5)
        | (s2, some d) =>
          ((s2.owe q { frame with idx := idx, tag := e.tag, copy := some (e.addr, head ++ d) }).hwFree k.buf, 0)

/-! ## Doorbells and queue control (R400, R409, R411, R419) -/

/-- A write of DWY_SQ_PI. -/
def State.sqPiWrite (s : State) (q : Nat) (v : Word) : State :=
  let st := s.qState q
  if !(s.qEn q) ∨ (s.qKind q = 3 ∧ !(s.qCopy q)) then s.plainWrite (dwySqPi q) v
  else if st = 6 then s
  else if s.sqSize q < idxSub (fld v 15 0) (s.sqCi q) then
    if st = 1 ∨ st = 3 then s.dwyStop q 2 (Entry.taken (entry2 []) (s.sqCi q)) else s
  else s.plainWrite (dwySqPi q) v

/-- SQ_DOORBELL (R400). -/
def execSqDoorbell (q : Nat) (v : Word) (s : State) : Host.Outcome State Fault Refusal := .next (s.sqPiWrite q v)

/-- A write of DWY_CQ_CI: held completions go to the slots it frees. -/
def State.cqCiWrite (s : State) (q : Nat) (v : Word) : State :=
  if !(s.qEn q) then s.plainWrite (dwyCqCi q) v
  else if s.cqSize q < idxSub (s.cqPi q) (fld v 15 0) then s.setB (dwyFnErr (s.fnOf q)) 3
  else (State.heldFlush q 64 (s.plainWrite (dwyCqCi q) v)).mirrorWrite q

/-- CQ_CI_WRITE (R400, R414). -/
def execCqCiWrite (q : Nat) (v : Word) (s : State) : Host.Outcome State Fault Refusal := .next (s.cqCiWrite q v)

/-- DWY_QP_CTL.OP 1 (R409): entries are taken whole, so the queue is PAUSED at once (DEDUCED, unsafe: log entry 64). -/
def State.qPause (s : State) (q : Nat) : State := if s.qState q = 1 then s.setQState q 3 else s

/-- DWY_QP_CTL.OP 2 (R409, R410): prefetched entries are discarded. -/
def State.qResume (s : State) (q : Nat) : State :=
  if s.qState q = 3 ∨ s.qState q = 4 then
    ((s.setDq q { s.dq q with prefetch := [], waited := false }).wf (dwyQpStatus q) 23 16 0).setQState q 1
  else s.setB (dwyFnErr (s.fnOf q)) 0

/-- QP_PAUSE (R409). -/
def execQpPause (q : Nat) (s : State) : Host.Outcome State Fault Refusal := .next (s.qPause q)
/-- QP_RESUME (R409). -/
def execQpResume (q : Nat) (s : State) : Host.Outcome State Fault Refusal := .next (s.qResume q)
/-- QP_RESET (R419). -/
def execQpReset (q : Nat) (s : State) : Host.Outcome State Fault Refusal := .next (s.qReset q)

/-- A write of DWY_HALT.CLEAR (R411): halted queues return to their states; the offending one is STOPPED. -/
def State.haltClear (s : State) : State :=
  if !(s.rb dwyHalt 31) then s else
  let bad := s.rf dwyHaltLoc 13 0
  let s1 := s.each (tkeys s.dwy.queues) fun t q =>
    if t.qState q = 5 then t.setQState q (if q = bad then 4 else (t.dq q).prev) else t
  s1.putB dwyHalt 31 false

/-- HALT_CLEAR (R411). -/
def execHaltClear (s : State) : Host.Outcome State Fault Refusal := .next s.haltClear

/-! ## Configuration (R398, R399, R403, R423) -/

/-- A ring lies wholly inside one range of the window. -/
def State.inRange (s : State) (a n : Nat) : Bool := s.inPart 2 a n || s.inPart 3 a n

/-- R423 lets queue q be enabled with the value v of DWY_QP_CFG. -/
def State.qpOk (s : State) (q : Nat) (v : Word) : Bool :=
  let f := s.fnOf q
  let kind := fld v 30 28
  let copy := v.getLsbD 25
  let sq := !(kind == 3 && !copy)
  let sqLog := fld v 23 20
  let cqLog := fld v 19 16
  let gen := s.fnGen f
  let sqb := s.rd64 (dwySqBaseLo q)
  let cqb := s.rd64 (dwyCqBaseLo q)
  let idx := s.rd64 (dwyIdxBaseLo q)
  (s.fnOfQ q).isSome && (s.fn f).enabled && decide (1 ≤ kind ∧ kind ≤ 3) && (!sq || decide (4 ≤ sqLog ∧ sqLog ≤ 12)) &&
    decide (4 ≤ cqLog ∧ cqLog ≤ 12) && (!copy || kind == 3) && !(gen == 1 && kind == 3 && !copy) &&
    (!sq || decide (sqb % 64 = 0)) && decide (cqb % 64 = 0 ∧ idx % 64 = 0) &&
    (!(sq && v.getLsbD 27) || s.inRange sqb ((if gen = 1 then 32 else 64) * 2 ^ sqLog)) &&
    (!(v.getLsbD 26) || (s.inRange cqb (16 * 2 ^ cqLog) && s.inRange idx 8))

/-- A write of DWY_QP_CFG. A write that clears EN acts as RESET. -/
def State.qpCfgWrite (s : State) (q : Nat) (v : Word) : State :=
  let a := dwyQpCfg q
  let reject := s.setB (dwyFnErr (s.fnOf q)) 0
  let same := v &&& 0x7FFF07FF == s.rd a &&& 0x7FFF07FF
  if s.qEn q then
    if !same then reject else if v.getLsbD 31 then s else s.qReset q
  else if !(v.getLsbD 31) then s.plainWrite a v
  else if s.qState q ≠ 0 ∨ !(s.qpOk q v) then reject
  else
    let s1 := ((((s.plainWrite a v).wr (dwySqPi q) 0).wr (dwySqCi q) 0).wr (dwyCqPi q) 0).wr (dwyCqCi q) 0
    let s2 := s1.setDq q { DwyQ.init with prev := 1 }
    s2.setQState q (if s.rb dwyHalt 31 then 5 else 1)

/-- QP_ENABLE (R423). -/
def execQpEnable (q : Nat) (v : Word) (s : State) : Host.Outcome State Fault Refusal := .next (s.qpCfgWrite q v)

/-- A write of DWY_FN_QP (R398). -/
def State.fnQpWrite (s : State) (f : Nat) (v : Word) : State :=
  let base := fld v 13 0
  let count := fld v 30 16
  let clash := (upto 64).any fun g => g != f &&
    overlaps (base, count) (s.rf (dwyFnQp g) 13 0, s.rf (dwyFnQp g) 30 16) &&
    decide (count ≠ 0 ∧ s.rf (dwyFnQp g) 30 16 ≠ 0)
  if 16384 < base + count ∨ clash ∨ s.fnBusy f then s.setB (dwyFnErr f) 0
  else (s.plainWrite (dwyFnQp f) v).wf (dwyFnId f) 30 16 count

/-- FN_QP_WRITE (R398). -/
def execFnQpWrite (f : Nat) (v : Word) (s : State) : Host.Outcome State Fault Refusal := .next (s.fnQpWrite f v)

/-- A write of DWY_FN_FMT (R403). -/
def State.fnFmtWrite (s : State) (f : Nat) (v : Word) : State :=
  let g := fld v 1 0
  if g = 0 ∨ g = 3 ∨ s.fnBusy f then s.setB (dwyFnErr f) 2 else s.wf (dwyFnFmt f) 1 0 g

/-- FORMAT_GEN_WRITE (R403). -/
def execFormatGenWrite (f : Nat) (v : Word) (s : State) : Host.Outcome State Fault Refusal := .next (s.fnFmtWrite f v)

/-- A write of the pair DWY_HOLD_BASE (R423). -/
def State.holdBaseWrite (s : State) (v : Nat) : State :=
  if v % 4096 = 0 && s.inPart 1 v (16 * 2 ^ 20) && !((tkeys s.dwy.queues).any s.qEn) then s.wr64 dwyHoldBaseLo v else s

/-- A write of DWY_LINK_CAP (R394). -/
def State.linkCapWrite (s : State) (v : Word) : State :=
  if fld v 7 6 = 3 ∨ fld v 5 3 = 0 ∨ fld v 5 3 = 7 ∨ 4 < fld v 2 0 then s else s.plainWrite dwyLinkCap v

/-- A write of a Doorway register: of window 0x03, or of a function's own. -/
def State.dwyRegWrite (s : State) (a : Nat) (v : Word) : State :=
  if a = dwyLinkCap then s.linkCapWrite v
  else if a = dwyHalt then (if v.getLsbD 30 then s.haltClear else s)
  else if a = dwyHoldBaseLo then s.holdBaseWrite (v.toNat + 2 ^ 32 * s.rdN dwyHoldBaseHi)
  else if a = dwyHoldBaseHi then s.holdBaseWrite (s.rdN dwyHoldBaseLo + 2 ^ 32 * v.toNat)
  else if dwyFnQp 0 ≤ a ∧ a < dwyFnQp 64 then s.fnQpWrite ((a - dwyFnQp 0) / 4) v
  else if dwyQpCfg 0 ≤ a ∧ a < dwyQpCfg 16384 then
    let q := (a - dwyQpCfg 0) / 0x40
    if a = dwyQpCfg q then s.qpCfgWrite q v
    else if a = dwyQpCtl q then
      (match fld v 1 0 with
       | 1 => s.qPause q
       | 2 => s.qResume q
       | 3 => s.qReset q
       | _ => s)
    else if a = dwySqPi q then s.sqPiWrite q v
    else if a = dwyCqCi q then s.cqCiWrite q v
    else s.plainWrite a v
  else if dwyFnId 0 ≤ a then
    let f := (a - dwyFnId 0) / 0x200000
    if a = dwyFnFmt f then s.fnFmtWrite f v else s.plainWrite a v
  else s.plainWrite a v

/-! ## Host sleep (R418) -/

/-- HOST_SLEEP_ENTER (R418): function f leaves D0, or its link enters L1; `l2` says that the link is in L2. -/
def execHostSleepEnter (f : Nat) (l2 : Bool) (s : State) : Host.Outcome State Fault Refusal :=
  if !(s.fn f).enabled then .next s
  else
    let s1 := s.setFn f { s.fn f with asleep := true }
    .next { s1 with dwy := { s1.dwy with linkL2 := l2 } }

/-- What waits for the host goes to it, queue by queue: held completions, the mirror, the pending signal. -/
def State.fnCatchUp (s : State) (f : Nat) : State :=
  s.each (s.fnQueues f) fun t q =>
    let t1 := State.heldFlush q 64 t
    let t2 := if (t1.dq q).held.isEmpty then t1 else (t1.wf (dwyQpStatus q) 27 27 0).cqFullSet q
    let t3 := t2.mirrorWrite q
    if (t3.dq q).sigPending then t3.qSignal q else t3

/-- HOST_WAKE (R418): function f returns to D0. -/
def execHostWake (f : Nat) (s : State) : Host.Outcome State Fault Refusal :=
  let s1 := s.setFn f { s.fn f with asleep := false }
  let s2 := { s1 with dwy := { s1.dwy with linkL2 := false }, attic := { s1.attic with wakeN := true } }
  .next (if (s2.fn f).enabled && (s2.fn f).busMaster then s2.fnCatchUp f else s2)

/-! ## Resets (R420, R421) -/

/-- What a function level reset does to function f. -/
def State.fnReset (s : State) (f : Nat) : State :=
  let s1 := s.each (s.fnQueues f) State.qReset
  let b := s.rf (dwyFnQp f) 13 0
  let s2 := s1.resetRegs (dwyQpCfg b) (dwyQpCfg (b + s.rf (dwyFnQp f) 30 16))
  let s3 := s2.each (s.fnQueues f) fun t q => t.setQState q (s1.qState q)
  let s4 := ((s3.bellFnReset f).wf (dwyFnFmt f) 1 0 (if (s.rd64 dwyFmtDefaultLo).testBit f then 1 else 2)).resetRegs
    (dwyFnPm f) (dwyFnErr f + 4)
  let s5 := s4.setFn f { DwyFn.init f with enabled := (s.fn f).enabled }
  let s6 := { s5 with dwy := { s5.dwy with msix := tclear s5.dwy.msix (f * 2048) (f * 2048 + 2048) } }
  s6.each (upto 8) fun t k =>
    let h := t.rdN (cupFnGrant f k)
    if h = 0 then t else (t.cupFree (ownerFn f) (t.handleAddr h) (some (h / 2 ^ 24))).1.wr (cupFnGrant f k) 0

/-- The VFs go with VF Enable. -/
def State.vfsOff (s : State) : State :=
  s.each ((upto 62).map (· + 2)) fun t f =>
    if (t.fn f).enabled then
      let t1 := t.fnReset f
      t1.setFn f { t1.fn f with enabled := false }
    else t

/-- FUNCTION_LEVEL_RESET (R420). -/
def execFunctionLevelReset (f : Nat) (s : State) : Host.Outcome State Fault Refusal :=
  if !(s.fn f).enabled then .next s
  else
    let s1 := s.fnReset f
    .next (if f = 1 then s1.vfsOff else s1)

/-- PERST_N low, or the loss of the link, resets Doorway alone (R421, R497). -/
def State.dwyReset (s : State) : State :=
  let s1 := if s.rb dwyLinkStatus 31 then s.count evDwyLinkDown 0 0 else s
  let s2 := (s1.wr dwyHalt 0).wr dwyHaltLoc 0
  let s3 := ((s2.fnReset 0).fnReset 1).vfsOff
  let s4 := s3.wr dwyLinkStatus 0
  let s5 := { s4 with
    dwy := { s4.dwy with tracker := [], fns := [], linkL2 := false }
    cel := { s4.cel with held := s4.cel.held.map fun (h : HeldWrite) => { h with lines := [] } } }
  s5.heldRelease

/-- PERST_RESET (R421): PERST_N falls or rises, or the link is lost. -/
def execPerstReset (e : PerstEvent) (s : State) : Host.Outcome State Fault Refusal :=
  match e with
  | .low => .next (let t := s.dwyReset; { t with attic := { t.attic with perstN := false } })
  | .high => .next { s with attic := { s.attic with perstN := true, wakeN := true }, dwy := { s.dwy with perstRose := s.cycles } }
  | .linkLoss => .next (if s.rb dwyLinkStatus 31 then s.dwyReset else s)

/-- HOST_LINK_TRAIN (R394, R482, R508): the partner offers mode, speed and width as DWY_LINK_CAP encodes them. -/
def execHostLinkTrain (mode speed width : Nat) (lopt : Bool) (s : State) : Host.Outcome State Fault Refusal :=
  let sp := min (s.rf dwyLinkCap 5 3) (max 1 (min speed 6))
  let m0 := min (s.rf dwyLinkCap 7 6) mode
  let m := if m0 = 2 ∧ 5 ≤ sp then 2 else if 1 ≤ m0 ∧ 3 ≤ sp then 1 else 0
  let sp1 := if m = 1 then min 5 sp else sp
  let w := min (s.rf dwyLinkCap 2 0) width
  if s.rb dwyLinkStatus 31 ∨ !s.attic.perstN ∨ s.rf atcBootStatus 31 28 < 5 ∨ s.rb mstIsoStatus 16 ∨
      s.rf atcPwrStatus 31 30 = 2 then .next s
  else .next (s.wrN dwyLinkStatus (2 ^ 31 + nat (lopt && m == 2) * 2 ^ 8 + m * 2 ^ 6 + sp1 * 8 + w))

/-- CONFIG_REQUEST (R418, R420, R482): a configuration request for function f that reads `field` or writes it. -/
def execConfigRequest (f : Nat) (field : CfgField) (write : Option Bool) (s : State) :
    Host.Outcome State Fault Refusal :=
  let stage := s.rf atcBootStatus 31 28
  let retry := decide (stage ≠ 8 ∧ stage ≠ 9 ∧ stage ≠ 10 ∧ s.cycles < s.dwy.perstRose + 22500000)
  if !(s.rb dwyLinkStatus 31) ∨ !(s.fn f).enabled then .next s
  else if retry then .next (s.emit (.config f true))
  else
    let x := s.fn f
    let s1 := s.emit (.config f false)
    let s2 := match write with
      | none =>
        s1.answer (nat (match field with
          | .msixEnable => x.msixEn
          | .msixMask => x.msixMask
          | .busMaster => x.busMaster
          | .pmeEnable => x.pmeEn
          | .vfEnable => f == 1 && (s.fn 2).enabled))
      | some b =>
        match field with
        | .msixEnable => s1.setFn f { x with msixEn := b }
        | .msixMask => s1.setFn f { x with msixMask := b }
        | .busMaster =>
          let t := s1.setFn f { x with busMaster := b }
          if b && !x.asleep then t.fnCatchUp f else t
        | .pmeEnable => s1.setFn f { x with pmeEn := b }
        | .vfEnable =>
          if f ≠ 1 then s1
          else if b then s1.each ((upto 62).map (· + 2)) fun t g => t.setFn g { t.fn g with enabled := true }
          else s1.vfsOff
    .next s2

/-! ## The memory window (R395 to R397) -/

/-- The Cellar address of an access of `n` bytes through decoder `range`, or through BAR4. -/
def State.windowAddr (s : State) (bar4 : Bool) (range off n : Nat) : Option Nat :=
  let r := if bar4 then (if off < gib 32 then 0 else 1) else range
  let o := if bar4 then off % (gib 32) else off
  let p := s.part (if r = 0 then 3 else 2)
  let modeOk := s.rb dwyLinkStatus 31 && (if bar4 then s.rf dwyLinkStatus 7 6 == 0 else s.rf dwyLinkStatus 7 6 != 0)
  if modeOk && decide (r < 2 ∧ off < gib 64 ∧ o + n ≤ p.2) then some (p.1 + o) else none

/-- The host is granted a line: a full tracker back-invalidates its least recently granted one (R397). -/
def State.trackLine (s : State) (l : Nat) : State :=
  let t := s.dwy.tracker.filter (· != l)
  if t.length < 1048576 then { s with dwy := { s.dwy with tracker := t ++ [l] } }
  else
    let s1 := s.backInvalidate (t.headD 0)
    { s1 with dwy := { s1.dwy with tracker := t.drop 1 ++ [l] } }

/-- HOST_MEM_ACCESS (R396, R397): the host writes bytes, poisoned or not, or reads `len` bytes; `hold` says that
it keeps the lines it reads. A poisoned read answers 2 ^ (8 × len) (DESIGN CHOICE, unsafe: log entry 67). -/
def execHostMemAccess (bar4 : Bool) (range off : Nat) (write : Option (List Byte × Bool)) (len : Nat) (hold : Bool)
    (s : State) : Host.Outcome State Fault Refusal :=
  match write with
  | some (bs, poison) =>
    match s.windowAddr bar4 range off bs.length with
    | none => .next s
    | some a =>
      .next (s.each (pieces 256 (bs.length / 256 + 2) a bs.length) fun t p =>
        t.celWrite1 0x15 p.1 ((bs.drop (p.1 - a)).take p.2) poison)
  | none =>
    match s.windowAddr bar4 range off len with
    | none => .next (s.answer (2 ^ (8 * len) - 1))
    | some a =>
      let r := s.celRead 0x15 a len
      let s1 := r.1.answer (match r.2 with
        | some bs => leNat bs
        | none => 2 ^ (8 * len))
      if hold && s.rf dwyLinkStatus 7 6 == 2 && !bar4 then
        .next (s1.each ((upto ((a + len + 63) / 64 - a / 64)).map (· + a / 64)) State.trackLine)
      else .next s1

/-- BACK_INVALIDATE_RESPONSE (R397): the host gives up a line, and what waited for it proceeds. -/
def execBackInvalidateResponse (line : Nat) (s : State) : Host.Outcome State Fault Refusal :=
  let s1 := { s with
    dwy := { s.dwy with tracker := s.dwy.tracker.filter (· != line) }
    cel := { s.cel with held := s.cel.held.map fun (h : HeldWrite) => { h with lines := h.lines.filter (· != line) } } }
  .next s1.heldRelease

end Sys2Proof.Machine
end

