-- ==== Sys2Proof/Machine/HallGen.lean ====
section
/-! DEFINITION. The batch and its generations (R127 to R131), and the registers of Hallway (window
0x07). -/

namespace Sys2Proof.Machine

def State.putGenState (s : State) (st : Nat) : State := s.wf hlwGenStatus 2 0 st

/-- A head that still runs under the old parity (R130) (DESIGN CHOICE, unsafe: log entry 31). -/
def State.oldHead (s : State) (x : Frame) : Bool :=
  let h := x.head
  let inside := h.pos == .parsing || h.pos == .chain || h.pos == .parked || h.pos == .parkedOut ||
    ((h.pos == .reentry || h.pos == .slot) && h.entry != 2 && h.entry != 4)
  inside && h.gen != s.genPar

/-- HLW_GEN_CTL.OP 1 (R128). -/
def State.genOpen (s : State) : State :=
  if s.genState = 0 then s.putGenState 1 else s.setB hlwGenStatus 3

/-- HLW_GEN_CTL.OP 2 (R128, R129): an empty batch returns to IDLE. -/
def State.genCommit (s : State) : State :=
  if s.genState ≠ 1 then s.setB hlwGenStatus 3
  else if s.stagedCount = 0 then s.putGenState 0
  else
    let s1 := ((s.putGenState 2).wf hlwGenStatus 31 16 (s.rf hlwGenStatus 31 16 + 1)).count evHlwGenCommit 0 0
    { s1 with hlw := { s1.hlw with committed := true } }

/-- HLW_GEN_CTL.OP 3 (R128): every staged write is undone, and the batch settles. -/
def State.genAbort (s : State) : State :=
  if s.genState ≠ 1 then s.setB hlwGenStatus 3
  else
    let s1 := (((s.galSettle s.genPar).lrdSettle s.genPar).wrN hlwGenStaged 0).putGenState 3
    { s1 with hlw := { s1.hlw with newSram := [], newDefs := [], committed := false }
              gal := { s1.gal with clearing := [] } }

/-- GEN_OPEN (R128). -/
def execGenOpen (s : State) : Host.Outcome State Fault Refusal := .next s.genOpen
/-- GEN_COMMIT (R128, R129). -/
def execGenCommit (s : State) : Host.Outcome State Fault Refusal := .next s.genCommit
/-- GEN_ABORT (R128). -/
def execGenAbort (s : State) : Host.Outcome State Fault Refusal := .next s.genAbort

/-- DRAIN_END (R130): no head of the old parity remains. -/
def execDrainEnd (s : State) : Host.Outcome State Fault Refusal :=
  if s.genState = 2 ∧ !(s.pipe.frames.any fun p => s.oldHead p.2) then .next (s.putGenState 3) else .next s

/-- A head is ended with a cause, wherever it stands in Hallway. -/
def State.forceEnd (s : State) (f c : Nat) : State :=
  let x := s.frame f
  let h := x.head
  if h.pos = .parkedOut then s else
  let sl := s.sl x.slice
  let s1 := s.setSl x.slice { sl with
    slots := sl.slots.filter (· != f), park := sl.park.filter (· != f), reentry := sl.reentry.filter (· != f) }
  s1.setHead f { h with pos := .chain, remote := [], ending := h.ending.or (some (.cause c)) }

/-- DRAIN_TIMEOUT (R130): 100 µs have passed. -/
def execDrainTimeout (s : State) : Host.Outcome State Fault Refusal :=
  if s.genState ≠ 2 then .next s else
  let s1 := s.each (s.pipe.frames.filter fun p => s.oldHead p.2) fun t p => t.forceEnd p.1 13
  .next (((s1.setB hlwGenStatus 4).count evHlwGenForced 0 0).putGenState 3)

/-- SETTLING_END (R130, R151, R185): the committed contents become the only contents; the batch is IDLE. -/
def execSettlingEnd (s : State) : Host.Outcome State Fault Refusal :=
  if s.genState ≠ 3 then .next s
  else if !s.hlw.committed then .next (s.putGenState 0)
  else
    let s1 := (s.galSettle s.genPar).lrdSettle s.genPar
    let s2 := s1.each s1.gal.clearing fun t k => t.galClear (k / 192) (t.defOf (k / 192) (k % 192) false)
    let s3 := { s2 with
      hlw := { s2.hlw with
        sram := s2.hlw.newSram.foldl (fun m (p : Nat × _) => tset 0 m p.1 p.2) s2.hlw.sram
        defs := s2.hlw.newDefs.foldl (fun m (p : Nat × _) => tset 0 m p.1 p.2) s2.hlw.defs
        newSram := [], newDefs := [], committed := false }
      gal := { s2.gal with clearing := [] } }
    .next ((s3.wrN hlwGenStaged 0).putGenState 0)

/-- A write of a Hallway register. -/
def State.hlwRegWrite (s : State) (a : Nat) (v : Word) : State :=
  let k := (a - hlwPortDflt 0 0) / 4
  if a = hlwCmd then s.hlwCmdWrite v
  else if a = hlwGenCtl then
    match fld v 1 0 with
    | 1 => s.genOpen
    | 2 => s.genCommit
    | 3 => s.genAbort
    | _ => s
  else if hlwData 0 ≤ a ∧ a ≤ hlwData 7 ∧ s.rb hlwCmd 31 then s.setB hlwCmdStatus 16
  else if hlwStageCfg 0 0 ≤ a ∧ a < hlwSliceCtl 0 then
    let sl := (a - hlwStageCfg 0 0) / 0x80
    let st := (a - hlwStageCfg sl 0) / 4
    if a = hlwStageCfg sl st ∧ st < 24 ∧ sl < 16 then s.stageCfgWrite sl st v else s.plainWrite a v
  else if hlwPortCfg 0 ≤ a ∧ a ≤ hlwPortCfg 511 then
    if 0xC0 ≤ fld v 7 0 ∧ fld v 7 0 < 0xFF then s else s.plainWrite a v
  else if hlwPortDflt 0 0 ≤ a ∧ a < hlwPortDflt 2048 0 then s.portDfltWrite (k / 16) (k / 4 % 4) (k % 4) v
  else s.plainWrite a v

end Sys2Proof.Machine
end

