-- ==== Sys2Proof/Machine/Porch.lean ====
section
/-! DEFINITION. The commands and events of Porch's receive side, links, flow control, hellos and
configuration (chapter 2, window 0x05), and the wake of a gated slice. -/

namespace Sys2Proof.Machine

/-! ## Frames that arrive (R40, R41, R45, R52, R123, R277) -/

/-- The slice does not take frames: safe state or isolation; the event that counts the discard. -/
def State.rxShut (s : State) (n : Nat) : Option Nat :=
  if s.inSafe then some evMstSafeDiscard else if s.isoSlice (n / 32) then some evMstIsoDiscard else none

/-- A frame enters its slice: the wake buffer of a gated slice, or the head queue with its units. The
answer is its number where it is kept. -/
def State.frameEnter (s : State) (n len got : Nat) (data : List Byte) (ts : Nat) : State × Option Nat :=
  let sl := n / 32
  match s.rxShut n with
  | some ev => (s.count ev n 0, none)
  | none =>
    let x : Frame := { Frame.init with
      port := n, len := len, data := data, orig := data, complete := false, rxTs := ts,
      head := { Head.init with pos := if s.sliceGated sl then .wake else .queued } }
    if s.sliceGated sl then
      let r := s.newFrame x
      (r.1.setSl sl { r.1.sl sl with wake := (r.1.sl sl).wake ++ [r.2] }, some r.2)
    else if 2048 ≤ (s.sl sl).headQ.length then (s.count evHlwHeadqDrop n 0, none)
    else
      let r := s.newFrame x
      match r.1.takeUnits r.2 (unitsOf got) with
      | none => (s.count evStwRxNobuf n 0, none)
      | some t => (t.setSl sl { t.sl sl with headQ := (t.sl sl).headQ ++ [r.2] }, some r.2)

/-- More bytes of a frame that is kept: the units it takes more. -/
def State.frameGrow (s : State) (f len got : Nat) (data : List Byte) (done bad : Bool) : State :=
  if !(s.hasFrame f) then s else
  let x := s.frame f
  let y := { x with len := len, data := x.data ++ data.drop x.orig.length, orig := data, complete := done,
                    bad := x.bad || bad }
  let more := unitsOf got - (x.units + x.hr)
  let s1 := s.setFrame f y
  if x.head.pos = .wake ∨ x.fab.refused ≠ 0 ∨ (x.units + x.hr = 0) then s1
  else
    match s1.takeUnits f more with
    | some t => t
    | none => ((s1.count evStwRxNobuf x.port 0).setFrame f { y with complete := true }).discardFrame f

/-- A frame that Porch consumes (R48, R555): MAC Control and hellos. -/
def consumed (bs : List Byte) : Bool :=
  beAt bs 12 2 == 0x8808 || (beAt bs 12 2 == 0x88B5 && beAt bs 0 6 == 0x0180C200000E)

/-- A good frame that Porch consumes is acted on. -/
def State.consume (s : State) (n : Nat) (bs : List Byte) : State :=
  if beAt bs 12 2 = 0x88B5 then s.helloReceive n bs
  else if beAt bs 14 2 = 0x0101 then
    s.pfcReceive n (beAt bs 16 2 % 256) ((upto 8).map fun p => beAt bs (18 + 2 * p) 2)
  else if beAt bs 14 2 = 0x0001 then s.pauseReceive n (beAt bs 16 2)
  else s.count evPchMacctlDiscard n 0

/-- The counters of a frame that has wholly arrived, and whether its status is bad. -/
def State.rxCount (s : State) (n total : Nat) (all : List Byte) (err : Bool) : State × Bool :=
  let body := all.take (total - 4)
  let fcs := all.drop (total - 4)
  let poisoned := err || fcs == fcsOf body true
  let fcsBad := !(fcs == fcsOf body false)
  let overrun := decide (s.mtu n < total)
  let s1 := if poisoned then s.count evPchRxPoison n 0 else if fcsBad then s.count evPchRxFcsErr n 0 else s
  let s2 := if overrun then s1.count evPchRxOversize n 0 else s1
  if poisoned || fcsBad || overrun then (s2, true)
  else ((s2.count evPchRxFrames n 0).countBy evPchRxBytes n 0 total, false)

/-- The bytes that have come join the frame that is kept, or begin it; the answer is the frame. -/
def State.rxPlace (s : State) (n : Nat) (r0 : RxPart) (len got : Nat) (data : List Byte) (done bad keep : Bool) :
    State × Option Nat :=
  match r0.fid with
  | some f => (s.frameGrow f len got data done bad, some f)
  | none => if keep then s.frameEnter n len got data r0.ts else (s, none)

/-- A frame that begins and ends with the same bytes is complete. -/
def State.rxWhole (s : State) (fid old : Option Nat) (done bad : Bool) : State :=
  match fid, old with
  | some f, none => if done then s.setFrame f { s.frame f with complete := true, bad := bad } else s
  | _, _ => s

/-- A frame that has ended is let go of where nothing holds it. -/
def State.rxTidy (s : State) (fid : Option Nat) (done : Bool) : State :=
  match fid with
  | some f => if done then s.tidy f else s
  | none => s

/-- FRAME_RECEIVE: the next bytes of a frame of `total` bytes, FCS included; `err` an /E/ character
among them; `fecC` and `fecU` the FEC codewords corrected and found uncorrectable. -/
def execFrameReceive (n : Nat) (bytes : List Byte) (err : Bool) (total fecC fecU : Nat) (s : State) :
    Host.Outcome State Fault Refusal :=
  if !(s.portEnabled n && s.linkUp n) then .next s else
  let s0 := (s.countBy evPchFecCorrected n 0 fecC).countBy evPchFecUncorrectable n 0 fecU
  let r0 : RxPart := ((s0.port n).rx).getD ⟨[], false, total, s0.rxStamp n, none, false⟩
  let all := (r0.bytes ++ bytes).take r0.total
  let bad := r0.err || err
  let done := decide (r0.total ≤ all.length)
  let len := min r0.total (s0.mtu n)
  let data := all.take (len - 4)
  let runt := decide (r0.total < 64)
  let r := if done && !runt then s0.rxCount n r0.total all bad else (s0, bad)
  let s1 := if done && runt then r.1.count evPchRxRunt n 0 else r.1
  let skip := runt || consumed all || r0.discard
  let ready := done || decide (512 ≤ all.length)
  let p := s1.rxPlace n r0 len (min all.length len) data done r.2 (!skip && ready)
  let s3 := p.1.rxWhole p.2 r0.fid done r.2
  let s4 := if done && !runt && consumed all && !r.2 then s3.consume n all else s3
  let discard := r0.discard || (ready && !skip && p.2.isNone)
  let s5 := s4.rxTidy p.2 done
  .next (s5.setPort n { s5.port n with
    rx := if done then none else some ⟨all, bad, r0.total, r0.ts, p.2, discard⟩ })

/-- SLICE_WAKE (R29, R30). -/
def execSliceWake (sl : Nat) (s : State) : Host.Outcome State Fault Refusal := .next (s.wakeSlice sl)

/-! ## Links (R36 to R39) -/

/-- LINK_UP: the PCS has held its locks for 1 ms; negotiation and training, where they are on, are
complete. -/
def execLinkUp (n : Nat) (s : State) : Host.Outcome State Fault Refusal :=
  let ok := s.portEnabled n && !(s.linkUp n) && !(s.isoChiplet (n / 64)) &&
    (!(s.rb (pchPortCfg n) 5) || s.rb (pchPortStatus n) 1) && (!(s.rb (pchPortCfg n) 6) || s.rb (pchPortStatus n) 2)
  if !ok then .next s else
  let s1 := (s.setB (pchPortStatus n) 0).setB (pchPortStatus n) 4
  let s2 := if s.rf (pchPortCfg n) 4 3 ≠ 0 then s1.setB (pchPortStatus n) 3 else s1
  let q := s2.port n
  let s3 := s2.setPort n { q with
    pfcDue := Nat.lor q.pfcDue q.xoff
    helloDue := if s.rf (pchHelloCfg n) 15 0 ≠ 0 then 2 else 0
    downSince := 0 }
  .next { s3 with pipe := { s3.pipe with lastHold := tdel s3.pipe.lastHold n } }

/-- LINK_DOWN (R39). -/
def execLinkDown (n : Nat) (s : State) : Host.Outcome State Fault Refusal := .next (s.portLinkDown n)

/-- AUTO_NEGOTIATION (R37): complete, or failed where the partner does not advertise the configured
ability. -/
def execAutoNegotiation (n : Nat) (ok : Bool) (s : State) : Host.Outcome State Fault Refusal :=
  if s.portEnabled n && s.rb (pchPortCfg n) 5 && !(s.linkUp n) then
    .next (if ok then s.setB (pchPortStatus n) 1
      else (s.putB (pchPortStatus n) 1 false).setB (pchPortErr n) 4)
  else .next s

/-- LINK_TRAINING (R38): after negotiation where that is on. -/
def execLinkTraining (n : Nat) (s : State) : Host.Outcome State Fault Refusal :=
  if s.portEnabled n && s.rb (pchPortCfg n) 6 && (!(s.rb (pchPortCfg n) 5) || s.rb (pchPortStatus n) 1) then
    .next (s.setB (pchPortStatus n) 2)
  else .next s

/-! ## Configuration (R32, R36, R40) -/

/-- A write of PCH_OCT_CFG. -/
def State.laneRateWrite (s : State) (o : Nat) (v : Word) : State :=
  if fld v 2 0 = s.rf (pchOctCfg o) 2 0 then s
  else if 5 ≤ fld v 2 0 ∨ (upto 8).any (fun i => s.rb (pchPortCfg (8 * o + i)) 0) then s.setB (pchOctCfg o) 4
  else s.wf (pchOctCfg o) 2 0 (fld v 2 0)

/-- LANE_RATE_WRITE (R32). -/
def execLaneRateWrite (o : Nat) (v : Word) (s : State) : Host.Outcome State Fault Refusal :=
  .next (s.laneRateWrite o v)

/-- A write of PCH_PORT_CFG. -/
def State.portCfgWrite (s : State) (n : Nat) (v : Word) : State :=
  let a := pchPortCfg n
  let same := decide (fld v 10 1 = s.rf a 10 1)
  if s.rb a 0 then
    if v.getLsbD 0 ∨ !same then s
    else
      let s1 := s.wf a 0 0 0
      if s1.txBusy n then s1.setPort n { s1.port n with disableDue := true } else s1.portDisable n
  else if v.getLsbD 0 then
    if same && s.portCfgOk n then
      let s1 := (s.setB a 0).wrN (pchPortStatus n) 0x20
      s1.setPort n { s1.port n with disableDue := false, downSince := s.ns }
    else s.setB (pchPortErr n) 0
  else s.plainWrite a v

/-- PORT_CFG_WRITE (R36). -/
def execPortCfgWrite (n : Nat) (v : Word) (s : State) : Host.Outcome State Fault Refusal :=
  .next (s.portCfgWrite n v)

/-- A write of PCH_PORT_MTU. -/
def State.portMtuWrite (s : State) (n : Nat) (v : Word) : State :=
  if 64 ≤ fld v 14 0 ∧ fld v 14 0 ≤ 16384 then s.plainWrite (pchPortMtu n) v else s.setB (pchPortErr n) 1

/-- PORT_MTU_WRITE (R40). -/
def execPortMtuWrite (n : Nat) (v : Word) (s : State) : Host.Outcome State Fault Refusal :=
  .next (s.portMtuWrite n v)

/-! ## Flow control (R47 to R50) -/

/-- PFC_RECEIVE (R49). -/
def execPfcReceive (n vec : Nat) (times : List Nat) (s : State) : Host.Outcome State Fault Refusal :=
  if s.linkUp n then .next (s.pfcReceive n vec times) else .next s

/-- PAUSE_RECEIVE (R47, R49). -/
def execPauseReceive (n time : Nat) (s : State) : Host.Outcome State Fault Refusal :=
  if s.linkUp n then .next (s.pauseReceive n time) else .next s

/-- PAUSE_TIMER_EXPIRE (R49): timer k (a priority, or 8 + a class in mode 2) runs out. -/
def execPauseTimerExpire (n k : Nat) (s : State) : Host.Outcome State Fault Refusal :=
  .next ((s.setPort n { s.port n with pause := tdel (s.port n).pause k }).pauseShow n)

/-- PFC_GENERATE (R50): the changes that are pending go into one frame, at a frame boundary (DEDUCED, unsafe: log entry 21). -/
def State.pfcGenerate (s : State) (n : Nat) : State :=
  let q := s.port n
  let mode := s.rf (pchPortCfg n) 8 7
  let gen := s.rf (pchPfcCfg n) 23 16
  let vec := if mode = 1 ∨ mode = 2 then Nat.land q.pfcDue gen else 0
  if vec = 0 ∨ !(s.linkUp n) ∨ s.txBusy n then s else
  let quanta := s.rf (pchPfcCfg n) 15 0
  let times := (upto 8).flatMap fun p => natBe 2 (if vec.testBit p ∧ q.xoff.testBit p then quanta else 0)
  let body := natBe 6 0x0180C2000001 ++ s.portMac n ++ natBe 2 0x8808 ++
    (if mode = 1 then natBe 2 0x0101 ++ natBe 2 vec ++ times
     else natBe 2 0x0001 ++ natBe 2 (if Nat.land q.xoff gen = 0 then 0 else quanta))
  let frame := body ++ List.replicate (60 - body.length) 0
  let shown := if mode = 1 then Nat.lor (Nat.land (s.rf (pchPfcState n) 15 8) (255 - vec)) (Nat.land vec q.xoff)
    else Nat.land q.xoff gen
  let s1 := (s.setPort n { q with pfcDue := q.pfcDue - vec }).wf (pchPfcState n) 15 8 shown
  let s2 := ((s1.emit (.frame n (frame ++ fcsOf frame false) false)).count evPchTxFrames n 0).countBy evPchTxBytes n 0 64
  if mode = 1 then s2.each ((upto 8).filter vec.testBit) fun t p => t.count evPchPfcTx n p else s2

def execPfcGenerate (n : Nat) (s : State) : Host.Outcome State Fault Refusal := .next (s.pfcGenerate n)

/-- PFC_REFRESH (R50): another frame is due for every priority that stays in XOFF. -/
def execPfcRefresh (n : Nat) (s : State) : Host.Outcome State Fault Refusal :=
  let q := s.port n
  let m := Nat.land q.xoff (s.rf (pchPfcState n) 15 8)
  .next (s.setPort n { q with pfcDue := Nat.lor q.pfcDue m })

/-! ## Stamps (R54) -/

/-- The oldest stamp entry is read out; the answer is PCH_TS_TAG. -/
def State.tsTagRead (s : State) (n : Nat) : State :=
  let q := s.port n
  match q.ts with
  | [] => s.answer 0
  | (tag, ts) :: rest =>
    (((s.setPort n { q with ts := rest }).wrN (pchTsLo n) ts).wrN (pchTsHi n) (ts / 2 ^ 32)).answer (2 ^ 31 + tag)

/-- TS_TAG_READ (R54). -/
def execTsTagRead (n : Nat) (s : State) : Host.Outcome State Fault Refusal := .next (s.tsTagRead n)

/-! ## Hellos (R56 to R61) -/

/-- HELLO_RECEIVE (R58): a hello frame without its FCS. -/
def execHelloReceive (n : Nat) (frame : List Byte) (s : State) : Host.Outcome State Fault Refusal :=
  if s.linkUp n then .next (s.helloReceive n frame) else .next s

/-- PARTNER_HOLD_EXPIRE (R59). -/
def execPartnerHoldExpire (n : Nat) (s : State) : Host.Outcome State Fault Refusal :=
  if (s.port n).peer.up then .next (s.peerDown n) else .next s

/-- HELLO_SEND (R61): the first after link up asks for a reply. -/
def execHelloSend (n : Nat) (s : State) : Host.Outcome State Fault Refusal :=
  if s.linkUp n && s.rf (pchHelloCfg n) 15 0 != 0 && !(s.txBusy n) then
    let q := s.port n
    .next ((s.setPort n { q with helloDue := 0 }).sendHello n (q.helloDue == 2) false)
  else .next s

/-- HELLO_REPLY (R61). -/
def execHelloReply (n : Nat) (s : State) : Host.Outcome State Fault Refusal :=
  let q := s.port n
  if s.linkUp n && q.replyDue && !(s.txBusy n) then
    .next ((s.setPort n { q with replyDue := false }).sendHello n false false)
  else .next s

/-! ## Registers (R51, R62) -/

/-- A write of a Porch register. -/
def State.pchRegWrite (s : State) (a : Nat) (v : Word) : State :=
  if pchPortCfg 0 ≤ a ∧ a < pchPortCfg 512 then
    let n := (a - pchPortCfg 0) / 0x80
    if a = pchPortCfg n then s.portCfgWrite n v
    else if a = pchPortMtu n then s.portMtuWrite n v
    else if a = pchPfcCfg n then
      if fld v 15 0 < 1024 then s.setB (pchPortErr n) 2 else s.plainWrite a v
    else if a = pchPfcMap n then (s.plainWrite a v).pauseShow n
    else if a = pchHelloCfg n then
      if fld v 22 20 < 1 ∨ 3 < fld v 22 20 ∨ fld v 19 16 < 2 ∨ 10000 < fld v 15 0 then s
      else (s.plainWrite a v).peerShow n
    else s.plainWrite a v
  else if pchOctCfg 0 ≤ a ∧ a < pchOctCfg 64 then s.laneRateWrite ((a - pchOctCfg 0) / 4) v
  else if a = pchHelloGlobal then (s.plainWrite a v).each (tkeys s.pipe.ports) State.peerShow
  else s.plainWrite a v

end Sys2Proof.Machine
end

