-- ==== Sys2Proof/Machine/PorchTx.lean ====
section
/-! DEFINITION. A copy on its way out: its preparation (R224 to R227), the scheduler's decision (R314 to R323),
and Porch's transmission of it (R42, R44, R53, R54, R296, R298). -/

namespace Sys2Proof.Machine

/-! ## The out version and the declared length (R224, R227) -/

/-- The versions that the receiver behind port n speaks now, and the highest that both sides speak. -/
def State.portVersNow (s : State) (n : Nat) : Nat × Nat :=
  let p := (s.port n).peer
  let a := s.rf (pchHelloCfg n) 22 20
  if p.up then (p.vers, topVersion (Nat.land p.vers (s.rf pchHelloGlobal 15 0))) else (2 ^ a, a)

/-- The bytes that the egress rewriter takes up: those of the frame, or of the append unit. -/
def Copy.base (y : Copy) (x : Frame) : List Byte := if y.chk = 2 then y.bytes else x.data

/-- The copy leaves with a check trailer (R260). -/
def Copy.leavesTrailer (y : Copy) (x : Frame) : Bool :=
  y.chk == 2 || (x.head.shimVer == 3 && (shimFlags (x.data.drop x.head.layers.shim)).testBit 2)

/-- How a copy is to leave: its declared length, its out version, and why it cannot: 1 untranslatable, 2
a layer unmarked. -/
structure Plan where
  len : Nat
  out : Nat
  bad : Nat
deriving DecidableEq, Repr

/-- The out version of a copy, and whether it can be made from a frame that was not placed. -/
def State.copyVersion (s : State) (y : Copy) (x : Frame) : Nat × Bool :=
  let inVer := x.head.shimVer
  match y.member with
  | some m => (m.outVer, true)
  | none =>
    if inVer = 0 ∨ !(s.rb (crwPortXlate y.port) 0) then (inVer, true)
    else
      let sp := s.portVersNow y.port
      let out := outVersion inVer sp.1 sp.2
      let sh := x.data.drop x.head.layers.shim
      (out, untranslatable inVer out (shimKeyLen x.head.shim) (shimFrag x.head.shim) (y.leavesTrailer x)
        (s.rb (crwPortXlate y.port) 1) == 0 && (decide (out = inVer) || decide (x.head.layers.shim = unmarked) || !sh.isEmpty))

def State.plan (s : State) (c : Nat) : Plan :=
  let y := s.copy c
  let x := s.frame y.fid
  let l := x.head.layers
  let v := s.copyVersion y x
  let len := if y.chk = 2 then max 64 (y.bytes.length + 4) else x.fab.declared
  if v.1 = x.head.shimVer then ⟨len, v.1, 0⟩
  else if !v.2 then ⟨len, v.1, 1⟩
  else if !l.marked ∨ !(ipKnown x.data l.ip) then ⟨len, v.1, 2⟩
  else ⟨max 64 ((len : Int) + shimDelta x.head.shimVer v.1).toNat, v.1, 0⟩

/-! ## The decision (R314 to R323) -/

/-- The head of queue (n, c). -/
def State.egHead (s : State) (n c : Nat) : Option Nat := (s.egList (8 * n + c)).head?

/-- The copy may begin (R294, R262). -/
def State.copyReady (s : State) (c : Nat) : Bool :=
  let y := s.copy c
  y.chk != 1 && (match s.egFrame y.fid y.dst with
    | some g => decide (g.want ≤ g.got) || ((s.fab y.fid).ct && decide (512 ≤ g.got))
    | none => false)

/-- The heads of queue (n, c) that are past the queue's sojourn limit, or of a frame found bad, go. -/
def State.queueClean (n c : Nat) : Nat → State → State
  | 0, s => s
  | fuel + 1, s =>
    match s.egHead n c with
    | none => s
    | some k =>
      let y := s.copy k
      let x := s.frame y.fid
      let q := 8 * n + c
      let age := s.rf (shtQcfg q) 11 0
      if x.complete ∧ x.bad then State.queueClean n c fuel ((s.copyEnd k 0x11).copyGone k)
      else if age ≠ 0 ∧ age * 16000 < s.sojourn x then
        State.queueClean n c fuel (((s.copyEnd k 0x11).count evShtAgeDrop q 0).copyGone k)
      else s

def State.portClean (s : State) (n : Nat) : State :=
  s.each (upto 8) fun t c => State.queueClean n c (t.egList (8 * n + c)).length t

/-- The declared length of the head of queue (n, c), where the class is eligible (R314). -/
def State.eligible (s : State) (n c : Nat) : Option Nat :=
  match s.egHead n c with
  | some k => if s.copyReady k && !(s.tcPaused n c) && s.shpAllows (8 * n + c) then some (s.plan k).len else none
  | none => none

/-- The class that port n serves next. -/
def State.choose (s : State) (n : Nat) : State × Option Nat :=
  if (s.eligible n 7).isSome then (s, some 7)
  else if (s.eligible n 6).isSome then (s, some 6)
  else s.dwrrPick n (s.eligible n)

/-- The head of queue (n, c) is chosen: it pays, and it is judged for a mark, unless Porch will not
begin it. -/
def State.serve (s : State) (n c : Nat) : State :=
  match s.egHead n c with
  | none => s
  | some k =>
    let p := s.plan k
    let q := 8 * n + c
    let s1 := if p.bad ≠ 0 ∨ s.mtu n < p.len then s
      else (((s.dwrrPay n c p.len).shpCharge q n p.len).shpCharge (0x2000 + n) n p.len).ecnMark k
    let s2 := s1.egLeave k
    (s2.setCopy k { s2.copy k with st := 1 }).setPort n { s2.port n with tx := some ⟨k, p.len, p.out, false, 0⟩ }

/-- Every queue of the port is empty. -/
def State.portEmpty (s : State) (n : Nat) : Bool := (upto 8).all fun c => (s.egList (8 * n + c)).isEmpty

/-- SCHED_DECISION (R314): Sheet decides the next frame of port n. -/
def execSchedDecision (n : Nat) (s : State) : Host.Outcome State Fault Refusal :=
  if (s.port n).tx.isSome ∨ s.inSafe then .next s
  else if s.portGone n then .next (s.portPurge n)
  else
    let s1 := s.portClean n
    if s1.portEmpty n then .next s1
    else
      let js := (0x2000 + n) :: (upto 8).map fun c => 8 * n + c
      let s2 := s1.each js fun t j => (t.shpCheck j).shpUpdate j
      let idle := (upto 8).all fun c => (s2.eligible n c).isNone
      if idle then .next (s2.count evShtHoldDecision n 0)
      else if !(s2.shpAllows (0x2000 + n)) then .next s2
      else
        let r := s2.choose n
        .next (match r.2 with
          | some c => r.1.serve n c
          | none => r.1)

/-! ## The first byte (R17, R42, R53, R54) -/

/-- A chosen copy is not begun. -/
def State.txDrop (s : State) (n c r : Nat) : State := ((s.setPort n { s.port n with tx := none }).copyEnd c r).copyGone c

/-- A two-step stamp enters the FIFO, or is lost (R53, R54). -/
def State.stampPut (s : State) (n tag ts : Nat) : State :=
  let q := s.port n
  if 64 ≤ q.ts.length then (s.setB (pchPortErr n) 4).count evPchTsLost n 0
  else s.setPort n { q with ts := q.ts ++ [(tag, ts)] }

/-- FRAME_BEGIN: Porch puts the first byte of the chosen copy on port n, or discards it. -/
def execFrameBegin (n : Nat) (s : State) : Host.Outcome State Fault Refusal :=
  match (s.port n).tx with
  | none => .next s
  | some t =>
    if t.begun ∨ s.inSafe then .next s
    else if (s.copy t.copy).st ≠ 1 then .next (s.setPort n { s.port n with tx := none })
    else
      let c := t.copy
      let y := s.copy c
      let x := s.frame y.fid
      let p := s.plan c
      if s.portGone n then .next ((s.count evStwPortDownDrop n 0).txDrop n c 0x10)
      else if !(s.linkUp n) then .next s
      else if x.complete ∧ x.bad then .next (s.txDrop n c 0x11)
      else if p.bad = 1 then .next ((s.count evCrwXlateDrop n 0).txDrop n c 0x13)
      else if p.bad = 2 then .next ((s.count evCrwXlateNomark n 0).txDrop n c 0x13)
      else if s.mtu n < p.len then .next ((s.count evPchTxOversize n 0).txDrop n c 0x12)
      else
        let early := match s.egFrame y.fid y.dst with
          | some g => decide (g.got < g.want)
          | none => false
        let s1 := (s.setCopy c { y with st := 2 }).setPort n { s.port n with tx := some ⟨c, p.len, p.out, true, s.txStamp n⟩ }
        let s2 := if early then s1.count evStwCtFrames n 0 else s1
        let s3 := if x.head.shimVer < p.out then s2.count evCrwXlateUp n 0
          else if p.out < x.head.shimVer then s2.count evCrwXlateDown n 0 else s2
        .next (if x.head.get 559 558 = 1 ∧ y.kind ≠ 3 then s3.stampPut n (x.head.scratch 15) (s.txStamp n) else s3)

/-! ## The last byte (R44, R296, R298) -/

/-- A one-step stamp: the difference d ns is added to the correctionField (R53). -/
def oneStep (bs : List Byte) (h : Head) (d : Nat) : List Byte :=
  let o := pastTags bs 2 12
  let add (i : Nat) : List Byte := splice bs i (natBe 8 ((beAt bs i 8 + d * 65536) % 2 ^ 64))
  if beAt bs o 2 = 0x88F7 then add (o + 10)
  else
    let u := h.layerOff 3
    if u = unmarked then bs
    else
      let new := add (u + 16)
      let ck := beAt bs (u + 6) 2
      if ck = 0 then new
      else
        let c := csumUpdate ck (onesSum (slice bs (u + 16) 8)) (onesSum (slice new (u + 16) 8))
        put16 new (u + 6) (if c = 0 then 65535 else c)

/-- The bytes of a copy as it leaves, without FCS. -/
def State.copyBytes (s : State) (c : Nat) (t : Tx) : List Byte :=
  let y := s.copy c
  let x := s.frame y.fid
  let h := x.head
  let b0 := y.base x
  let b1 := if t.out = h.shimVer then b0
    else translateFrame b0 h.layers h.shimVer t.out (y.leavesTrailer x) (if y.member.isSome then h.place 95 64 else 0)
  let b2 := match y.marked, x.ipAt with
    | true, some o => markCe b1 o
    | _, _ => b1
  let b3 := if h.get 559 558 = 2 ∧ y.kind ≠ 3 then oneStep b2 h (t.startNs - x.rxTs) else b2
  slice b3 0 (t.declared - 4)

/-- Why a copy is poisoned as it ends; 0 where it is not (R296). -/
def State.poisonOf (s : State) (c : Nat) : Nat :=
  let y := s.copy c
  let x := s.frame y.fid
  if y.poison ≠ 0 then y.poison else if x.lost then 2 else if x.bad then 1
  else if x.fab.ct ∧ x.data.length + 4 ≠ x.fab.declared then 1 else 0

/-- EGRESS_MIRROR (R298): the mirror copies of a frame as port n sent it. -/
def State.egressMirrors (s : State) (n : Nat) (y : Copy) (bs : List Byte) (bad : Bool) : State :=
  let x := s.frame y.fid
  if y.kind = 3 ∨ x.origin = 5 then s else
  s.each ((upto 8).filter fun m => (s.rf (stwPortCfg n) 31 24).testBit m && s.rb (stwMirror m) 31) fun t m =>
    if bad then t.count evStwMirrorDrop m 0 else
    let a := stwMirror m
    let c := t.rf a 30 28
    let dest := t.rf a 15 0
    let port := if t.rf a 19 17 = 1 then some (dest % 512) else (t.groupPick dest x.fab.hash).map fun g => (t.gmember g).port
    match port with
    | none => t.count evStwGroupEmpty (n / 32) 0
    | some p =>
      let k := t.rf a 27 20
      let d := if k = 0 then bs else bs.take (64 * k)
      (t.newFrame { Frame.init with
        port := n, origin := 4, data := d, orig := d, len := max 64 (d.length + 4), rxTs := t.ns, settled := true, noticed := true,
        fab := { Fab.init with kind := 3, dest := m, tc := c, queues := [8 * p + c], ports := [(p, none)],
                               mirror := some m, hash := x.fab.hash } }).1

/-- The whole frame has reached the egress slice, or is closed. -/
def State.copyWhole (s : State) (c : Nat) : Bool :=
  let y := s.copy c
  (s.frame y.fid).complete && (match s.egFrame y.fid y.dst with
    | some g => decide (g.want ≤ g.got)
    | none => true)

/-- FRAME_END: the last byte of the frame that port n is sending leaves. -/
def execFrameEnd (n : Nat) (s : State) : Host.Outcome State Fault Refusal :=
  match (s.port n).tx with
  | none => .next s
  | some t =>
    if !t.begun ∨ !(s.copyWhole t.copy) then .next s
    else
      let c := t.copy
      let y := s.copy c
      let x := s.frame y.fid
      let why := s.poisonOf c
      let bs := s.copyBytes c t
      let bad := why != 0
      let s1 := s.emit (.frame n (bs ++ fcsOf bs bad) bad)
      let s2 := match why with
        | 0 => (s1.count evPchTxFrames n 0).countBy evPchTxBytes n 0 t.declared
        | 1 => s1.count evPchTxPoisonFcs n 0
        | 2 => s1.count evPchTxPoisonUnderrun n 0
        | _ => s1.count evPchTxPoisonBuffer n 0
      let s3 := if x.fab.ct ∧ !x.bad ∧ x.data.length + 4 ≠ x.fab.declared then s2.count evStwCtLenMismatch n 0 else s2
      let s4 := s3.egressMirrors n y bs bad
      let s5 := ((s4.setPort n { s4.port n with tx := none }).copyEnd c (if bad then 0x14 else 0)).copyGone c
      .next (if (s5.port n).disableDue then s5.portDisable n else s5)

end Sys2Proof.Machine
end

