-- ==== Sys2Proof/Machine/Sheet.lean ====
section
/-! DEFINITION. The commands and events of Sheet (R305 to R331, window 0x0D). -/

namespace Sys2Proof.Machine

/-! ## Ticks (R306) -/

/-- REFILL_TICK: every bucket stands as after the ticks that have begun. -/
def execRefillTick (s : State) : Host.Outcome State Fault Refusal :=
  let pols := s.sht.pols.map fun p => (p.1, p.2.refill s.tick)
  .next ((tkeys s.sht.shps).foldl State.shpUpdate { s with sht := { s.sht with pols := pols } })

/-! ## Policers (R329) -/

/-- POLICER_WRITE on one slice: the buckets are filled. -/
def State.policerPut (s : State) (sl k : Nat) (ws : List Word) : State :=
  let p : Pol := { Pol.init with cfg := ws, tick := s.tick }
  (((s.wakeSlice sl).eccClear .policer (16384 * sl + k)).setPol sl k { p with tc := p.cbs, te := p.ebs }).inject
    0x0D 0x20 0x40 .policer (16384 * sl + k)

/-- A Sheet operation at policer k on the slices of a mask: its RESULT, and what a read returns. -/
def State.shtRun (s : State) (op k mask : Nat) (ws : List Word) : State × Nat × Option (List Nat) :=
  let sls := maskSlices mask
  if op = 1 then
    if !({ Pol.init with cfg := ws } : Pol).ok then (s, 1, none)
    else (s.each sls fun t sl => t.policerPut sl k ws, 0, none)
  else
    let sl := sls.headD 0
    let s1 := (s.wakeSlice sl).polCheck sl k
    let p := (s1.pol sl k).refill s1.tick
    let s2 := s1.setPol sl k p
    if s.eccOf .policer (16384 * sl + k) = .uncorr then (s2, 2, none)
    else (s2, 0, some ((upto 5).map (fun i => (p.w i).toNat) ++ [nat p.bad * 2 ^ 31 + p.tc / 65536, p.te / 65536]))

/-- A write of SHT_CMD. -/
def State.shtCmdWrite (s : State) (v : Word) : State :=
  let op := fld v 30 27
  if s.rb shtCmd 31 then s.setB shtCmdStatus 0
  else if 3 ≤ op then s.setB shtCmdStatus 1
  else
    let s1 := s.plainWrite shtCmd v
    let mask := s1.rf shtCmdSlices 15 0
    if op = 0 ∨ mask = 0 then s1 else
    let r := s1.shtRun op (fld v 13 0) mask ((upto 5).map fun i => s1.rd (shtData i))
    let s2 := r.1.wf shtCmdStatus 31 24 r.2.1
    match r.2.2 with
    | some l => (upto 7).foldl (fun (t : State) i => t.wrN (shtData i) (l.getD i 0)) s2
    | none => s2

/-- POLICER_WRITE (R309, R313). -/
def execPolicerWrite (v : Word) (s : State) : Host.Outcome State Fault Refusal := .next (s.shtCmdWrite (setFld v 30 27 1))
/-- POLICER_READ (R329). -/
def execPolicerRead (v : Word) (s : State) : Host.Outcome State Fault Refusal := .next (s.shtCmdWrite (setFld v 30 27 2))

/-! ## Shapers (R320) -/

/-- SHAPER_RATE_WRITE: the RATE is held. -/
def State.rateWrite (s : State) (j : Nat) (v : Word) : State := { s with held := tput s.held (shpRateReg j) v }

def execShaperRateWrite (j : Nat) (v : Word) (s : State) : Host.Outcome State Fault Refusal := .next (s.rateWrite j v)
/-- SHAPER_BURST_WRITE: the held RATE and the BURST take effect together. -/
def execShaperBurstWrite (j : Nat) (v : Word) (s : State) : Host.Outcome State Fault Refusal := .next (s.burstWrite j v)

/-! ## Samples (R324 to R326) -/

/-- The sojourn of the head of queue q, as a sample holds it. -/
def State.queueSojourn (s : State) (q : Nat) : Nat :=
  match (s.egList q).head? with
  | some c => min 0xFFFFFF (s.sojourn (s.frame (s.copy c).fid))
  | none => 0

/-- The flags of queue q: PAUSED, HELD, SHAPED, PORT_SHAPED (DEDUCED, unsafe: log entry 45). -/
def State.queueFlags (s : State) (q : Nat) : Nat :=
  let n := q / 8
  nat (s.tcPaused n (q % 8)) + 2 * nat (s.shpHolds q) + 4 * nat (decide ((s.shp q).tokens < 0)) +
    8 * nat (decide ((s.shp (0x2000 + n)).tokens < 0))

/-- A slice's samples go to Crowsnest (R325). -/
def State.sendLoads (s : State) (sl : Nat) (l : List Nat) : State :=
  { s with crw := { s.crw with flying := tput s.crw.flying sl l } }

/-- The record of slice sl (R326). -/
def State.ringRecord (s : State) (sl : Nat) : List Byte :=
  natLe 4 (sl * 2 ^ 16 + s.rf shtSampCtl 15 0) ++ natLe 4 s.sht.seq ++ natLe 8 s.ns ++ List.replicate 48 (0 : Byte) ++
    (upto 256).flatMap fun i =>
      let q := 256 * sl + i
      natLe 4 (s.queueSojourn q) ++ natLe 4 (min 65535 (s.egDepth q) + 65536 * s.queueFlags q)

/-- A record enters the sample ring. -/
def State.ringPut (s : State) (sl : Nat) : State :=
  let i := s.rf shtSampWidx 16 0
  let last := decide (s.rf shtSampRecords 16 0 ≤ i + 1)
  let s1 := s.celWrite 0x16 (s.rd64 shtSampBaseLo + 2112 * i) (s.ringRecord sl)
  let s2 := s1.wf shtSampWidx 16 0 (if last then 0 else i + 1)
  let s3 := if last then s2.wf shtSampWidx 31 24 (s2.rf shtSampWidx 31 24 + 1) else s2
  s3.count evShtSampRecord 0 0

/-- SAMPLE_INSTANT (R324): every running slice samples its 256 queues. -/
def execSampleInstant (s : State) : Host.Outcome State Fault Refusal :=
  let run := (upto 16).filter fun sl => !(s.sliceGated sl)
  let s1 := s.each run fun t sl => t.each (upto 32) fun u i => u.portClean (32 * sl + i)
  let s2 := s1.each (tkeys s1.sht.shps) State.shpUpdate
  let s3 := s2.each run fun t sl => t.sendLoads sl ((upto 256).map fun i => s2.queueSojourn (256 * sl + i))
  let div := s.rf shtSampCtl 15 0
  let n := s.sht.sampN + 1
  if div = 0 then .next s3
  else if n % div ≠ 0 then .next { s3 with sht := { s3.sht with sampN := n } }
  else
    let s4 := s3.each run State.ringPut
    .next { s4 with sht := { s4.sht with sampN := n, seq := (s4.sht.seq + 1) % 2 ^ 32 } }

/-- The sample of a slice that is about to be gated (R324). -/
def State.zeroSample (s : State) (sl : Nat) : State := s.sendLoads sl (List.replicate 256 0)

/-! ## Scrub and registers (R328, R330) -/

/-- SHEET_SCRUB: policer i of slice sl, or shaper i, is read; `e` is what the check finds. -/
def execSheetScrub (shaper : Bool) (sl i : Nat) (e : Ecc) (s : State) : Host.Outcome State Fault Refusal :=
  .next (if shaper then (s.eccFlag .shaper i e).shpCheck i
    else (s.eccFlag .policer (16384 * sl + i) e).polCheck sl i)

/-- A write of a sampling or marking register. -/
def State.shtGlobalWrite (s : State) (a : Nat) (v : Word) : State :=
  let bad := s.setB shtErr 0
  let div := s.rf shtSampCtl 15 0
  if a = shtSampCtl then
    if 0 < fld v 15 0 ∧ fld v 15 0 < 16 then bad
    else { s.plainWrite a v with sht := { s.sht with sampN := 0, seq := 0 } }
  else if a = shtSampRecords then
    (if div ≠ 0 ∨ fld v 16 0 < 16 ∨ 65536 < fld v 16 0 then bad else s.plainWrite a v)
  else if a = shtSampBaseLo ∨ a = shtSampBaseHi then (if div ≠ 0 then bad else s.plainWrite a v)
  else if a = shtEcnSeed then
    (if v = 0 then bad else { s.plainWrite a v with sht := { s.sht with gens := [] } })
  else if shtEcnThr 0 ≤ a ∧ a < shtEcnThr 15 ∧ a % 8 = 0 then
    (if fld v 31 16 ≤ fld v 15 0 then bad else s.plainWrite a v)
  else s.plainWrite a v

/-- A write of a Sheet register. -/
def State.shtRegWrite (s : State) (a : Nat) (v : Word) : State :=
  if a = shtCmd then s.shtCmdWrite v
  else if shtData 0 ≤ a ∧ a < shtData 8 then
    if s.rb shtCmd 31 then s.setB shtCmdStatus 0
    else if a = shtData 5 ∨ a = shtData 6 then s else s.plainWrite a v
  else if shtPortCfg 0 ≤ a ∧ a < shtPortCfg 512 then
    let n := (a - shtPortCfg 0) / 16
    if a = shtPortCfg n then s.shapeEnWrite a (0x2000 + n) v
    else if a = shtPshapeRate n then s.rateWrite (0x2000 + n) v
    else if a = shtPshapeBurst n then s.burstWrite (0x2000 + n) v
    else s
  else if shtQcfg 0 ≤ a ∧ a < shtQcfg 4096 then
    let q := (a - shtQcfg 0) / 16
    if a = shtQcfg q then s.shapeEnWrite a q v
    else if a = shtQshapeRate q then s.rateWrite q v
    else if a = shtQshapeBurst q then s.burstWrite q v
    else s
  else s.shtGlobalWrite a v

end Sys2Proof.Machine
end

