-- ==== Sys2Proof/Machine/LoftsInstr.lean ====
section
/-! DEFINITION. The Lofts instructions (R338 to R360): their words, their issue, the effect of each, and the
debugger's STEP. A register access of the Attic controller goes through a port that the caller gives. -/

namespace Sys2Proof

/-- The signed immediate. -/
def LFields.simm (f : LFields) : Word64 := f.imm.signExtend 64
/-- The immediate as a number. -/
def LFields.uimm (f : LFields) : Nat := f.imm.toNat
/-- SIZE of a load or store in bytes (R339). -/
def LFields.size (f : LFields) : Nat := 2 ^ (f.uimm / 2 ^ 39 % 4)
/-- The signed offset of a load or store (R339). -/
def LFields.offset (f : LFields) : Word64 := (BitVec.ofNat 39 f.uimm).signExtend 64

end Sys2Proof

namespace Sys2Proof.Machine

/-- How a load or a store of the Attic controller reaches register space: a read of so many bytes at an
address, and a write. -/
structure RegPort where
  rd : Nat → Nat → State → State × Nat
  wr : Nat → List Byte → State → State

/-- The effect of an instruction on its thread. -/
abbrev LBody := State → Nat → LFields → State

/-! ## Instruction words (R339, R340) -/

/-- The word of opcode `op` with fields `f`. -/
def lftEncode (op : Nat) (f : LFields) : Word64 :=
  BitVec.ofNat 64 (op * 2 ^ 56 + f.d.toNat * 2 ^ 51 + f.a.toNat * 2 ^ 46 + f.b.toNat * 2 ^ 41 + f.imm.toNat)

/-- The fields of a word. -/
def lftFields (w : Word64) : LFields :=
  { d := BitVec.ofNat 5 (bits w.toNat 55 51), a := BitVec.ofNat 5 (bits w.toNat 50 46),
    b := BitVec.ofNat 5 (bits w.toNat 45 41), imm := BitVec.ofNat 41 (bits w.toNat 40 0) }

/-- A defined opcode. -/
def opDefined (op : Nat) : Bool :=
  op ≤ 0x1A || (0x20 ≤ op && op ≤ 0x27) || (0x30 ≤ op && op ≤ 0x35) || (0x40 ≤ op && op ≤ 0x46) ||
  (0x50 ≤ op && op ≤ 0x52) || (0x60 ≤ op && op ≤ 0x63) || (0x70 ≤ op && op ≤ 0x7F)

/-- Which of D, A and B an instruction uses. -/
def opUses (op : Nat) : Bool × Bool × Bool :=
  if op = 0 ∨ op = 0x62 ∨ op = 0x71 ∨ op = 0x72 ∨ (0x7C ≤ op ∧ op ≤ 0x7F) then (false, false, false)
  else if op = 0x18 ∨ op = 0x19 ∨ op = 0x26 ∨ op = 0x40 ∨ op = 0x46 ∨ op = 0x70 ∨ op = 0x74 then (true, false, false)
  else if op = 0x60 ∨ op = 0x73 ∨ op = 0x7B then (false, true, false)
  else if (0x20 ≤ op ∧ op ≤ 0x25) ∨ op = 0x32 then (false, true, true)
  else if (1 ≤ op ∧ op ≤ 0x0C) ∨ (0x33 ≤ op ∧ op ≤ 0x35) ∨ op = 0x41 ∨ op = 0x42 ∨ op = 0x51 ∨ op = 0x75 then
    (true, true, true)
  else (true, true, false)

/-- The immediate lies in the range that R339 and R340 state. -/
def immOk (op n : Nat) : Bool :=
  if op = 0x0D ∨ op = 0x0E then
    decide (n < 2 ^ 13 ∧ 1 ≤ bits n 12 6 ∧ bits n 12 6 ≤ 64 ∧ n % 64 + bits n 12 6 ≤ 64)
  else if (0x11 ≤ op ∧ op ≤ 0x14) ∨ op = 0x18 ∨ op = 0x19 ∨ (0x20 ≤ op ∧ op ≤ 0x27) ∨ (0x30 ≤ op ∧ op ≤ 0x32) ∨
      op = 0x7D then true
  else if (0x15 ≤ op ∧ op ≤ 0x17) ∨ op = 0x51 ∨ op = 0x75 ∨ op = 0x76 then decide (n < 64)
  else if op = 0x1A then decide (n < 4)
  else if op = 0x41 ∨ op = 0x42 then decide (1 ≤ n ∧ n ≤ 4096)
  else if op = 0x60 then decide (n < 8)
  else if op = 0x61 then decide (1 ≤ n ∧ n ≤ 8)
  else if op = 0x70 then decide (1 ≤ n ∧ n < 2 ^ 19)
  else if op = 0x71 ∨ op = 0x72 then decide (n < 65536)
  else n == 0

/-- No reserved field is set and the immediate is in range (DEDUCED, unsafe: log entry 71). -/
def fieldsOk (op : Nat) (f : LFields) : Bool :=
  ((opUses op).1 || f.d == 0) && ((opUses op).2.1 || f.a == 0) && ((opUses op).2.2 || f.b == 0) && immOk op f.imm.toNat

/-- The Attic controller executes it (R498): not the ticket, packet, table, check, dma, letterbox,
thread-control and event-flag instructions, and no wfe but for TIMER. -/
def atcRuns (op : Nat) (f : LFields) : Bool :=
  !(0x40 ≤ op && op ≤ 0x63) && !(op = 0x71 || op = 0x72 || (0x75 ≤ op && op ≤ 0x7A)) && (op != 0x70 || f.imm == 0x40000#41)

/-! ## Issue (R333, R334, R371) -/

/-- Thread `t` may issue: it is RUNNABLE, its engine runs, its loft is not gated, and no breakpoint is at its
pc. -/
def State.mayIssue (s : State) (t : Nat) : Bool :=
  (s.thr t).state == 1 &&
    (if t = atcThread then s.rf atcCtrl 31 30 == 1
     else decide (t < 4096) && s.engRunning (t / 8) && !(s.loftGated (t / 64)) && !(s.atBreakpoint t))

/-- The word at the pc of thread `t`. -/
def State.wordAt (s : State) (t : Nat) : Word64 :=
  let pc := (s.thr t).pc
  if t = atcThread then BitVec.ofNat 64 (leNat (memRead 0 s.attic.mem (8 * pc) 8))
  else tget 0 s.lft.istore (t / 64 * 32768 + pc)

/-- The word at the pc of thread `t` is opcode `op` with fields `f`; a word of no defined opcode, and a pc of
the Attic controller beyond its code, stand under opcode 0. -/
def State.wordIs (s : State) (t op : Nat) (f : LFields) : Bool :=
  let w := s.wordAt t
  if t = atcThread ∧ 16384 ≤ (s.thr t).pc then op == 0
  else if opDefined (bits w.toNat 63 56) then w == lftEncode op f
  else op == 0

/-- Thread `t` issues opcode `op` with fields `f`, whose effect is `body` (DEDUCED, unsafe: log entry 72). -/
def State.issueWord (s : State) (t op : Nat) (f : LFields) (body : LBody) : State :=
  let pc := (s.thr t).pc
  if t = atcThread ∧ 16384 ≤ pc then s.thrFault t 3 (8 * pc) else
  let q := if t = atcThread then (s, true) else s.lftCheck .lftIs (t / 64 * 32768 + pc)
  if !q.2 then q.1.thrFault t 0x0A pc else
  let s1 := if t = atcThread then q.1 else q.1.count evLftIssue (t / 8) 0
  let s2 := s1.setThr t { s1.thr t with tail := false }
  if !(opDefined (bits (s2.wordAt t).toNat 63 56)) || !(fieldsOk op f) || (t == atcThread && !(atcRuns op f)) then
    s2.thrFault t 1 0
  else body s2 t f

/-- An issue slot of thread `t` with opcode `op`: nothing where the thread may not issue or its next
instruction is another. -/
def State.issue (s : State) (t op : Nat) (f : LFields) (body : LBody) : State :=
  if s.mayIssue t && s.wordIs t op f then s.issueWord t op f body else s

/-! ## The thread goes on -/

/-- The thread goes to instruction `pc`. -/
def State.goTo (s : State) (t pc : Nat) : State := s.setThr t { s.thr t with pc := pc % 32768 }

/-- The thread goes to its next instruction. -/
def State.goOn (s : State) (t : Nat) : State := s.goTo t ((s.thr t).pc + 1)

/-- Register xd takes a value and the thread goes on. -/
def State.result (s : State) (t : Nat) (f : LFields) (v : Word64) : State :=
  (s.setThr t ((s.thr t).set f.d.toNat v)).goOn t

/-- The thread waits in a W instruction whose result is `v` (R335). -/
def State.waits (s : State) (t : Nat) (f : LFields) (v : Nat) : State :=
  s.setThr t { s.thr t with state := 2, wait := some ⟨f.d.toNat, BitVec.ofNat 64 v, none⟩ }

def State.xa (s : State) (t : Nat) (f : LFields) : Word64 := (s.thr t).get f.a.toNat
def State.xb (s : State) (t : Nat) (f : LFields) : Word64 := (s.thr t).get f.b.toNat
def State.xd (s : State) (t : Nat) (f : LFields) : Word64 := (s.thr t).get f.d.toNat
/-- Bit 63 of a result. -/
def bit63 : Word64 := 0x8000000000000000#64

/-! ## Arithmetic -/

/-- xd ← xa op xb. -/
def lftAlu (op : Word64 → Word64 → Word64) : LBody := fun s t f => s.result t f (op (s.xa t f) (s.xb t f))
/-- xd ← xa op IMM, IMM signed. -/
def lftAluImm (op : Word64 → Word64 → Word64) : LBody := fun s t f => s.result t f (op (s.xa t f) f.simm)
def opShl (x y : Word64) : Word64 := x <<< (y.toNat % 64)
def opShr (x y : Word64) : Word64 := x >>> (y.toNat % 64)
def opSar (x y : Word64) : Word64 := x.sshiftRight (y.toNat % 64)
def opMulh (x y : Word64) : Word64 := BitVec.ofNat 64 (x.toNat * y.toNat / 2 ^ 64)
def opSlt (x y : Word64) : Word64 := if x.slt y then 1 else 0
def opSltu (x y : Word64) : Word64 := if x.ult y then 1 else 0
def lftNop : LBody := fun s t _ => s.goOn t
def lftBext : LBody := fun s t f =>
  s.result t f (BitVec.ofNat 64 ((s.xa t f).toNat / 2 ^ (f.uimm % 64) % 2 ^ bits f.uimm 12 6))
def lftBins : LBody := fun s t f =>
  let pos := f.uimm % 64
  s.result t f (BitVec.ofNat 64 (putBits (s.xd t f).toNat (pos + bits f.uimm 12 6 - 1) pos (s.xa t f).toNat))
def lftPopc : LBody := fun s t f =>
  s.result t f (BitVec.ofNat 64 ((upto 64).filter fun i => (s.xa t f).getLsbD i).length)
/-- The number of leading zero bits. -/
def leadingZeros (x : Word64) : Nat := ((upto 64).takeWhile fun i => !(x.getLsbD (63 - i))).length
def lftClz : LBody := fun s t f => s.result t f (BitVec.ofNat 64 (leadingZeros (s.xa t f)))
def lftLi : LBody := fun s t f => s.result t f f.simm
def lftLih : LBody := fun s t f =>
  s.result t f ((s.xd t f &&& 0x7FFFFF#64) ||| (BitVec.ofNat 64 f.uimm <<< 23))
def lftBswap : LBody := fun s t f =>
  s.result t f (BitVec.ofNat 64 (beNat (natLe (2 ^ (f.uimm % 4)) (s.xa t f).toNat)))

/-! ## Branches -/

def lftBranch (c : Word64 → Word64 → Bool) : LBody := fun s t f =>
  if c (s.xa t f) (s.xb t f) then s.goTo t (BitVec.ofNat 64 (s.thr t).pc + f.simm).toNat else s.goOn t

/-- A jump to `target` that leaves the next pc in xd. -/
def State.link (s : State) (t : Nat) (f : LFields) (target : Word64) : State :=
  let pc := (s.thr t).pc
  (s.setThr t ((s.thr t).set f.d.toNat (BitVec.ofNat 64 ((pc + 1) % 32768)))).goTo t target.toNat
def lftJal : LBody := fun s t f => s.link t f (BitVec.ofNat 64 (s.thr t).pc + f.simm)
def lftJalr : LBody := fun s t f => s.link t f (s.xa t f + f.simm)

/-! ## Loads, stores, atomics (R336 to R338, R498) -/


/-- The place of an access, or the fault it causes. -/
def State.access (s : State) (t : Nat) (addr : Word64) (n : Nat) (rd wr : Bool) : State ⊕ LftRef :=
  if addr.toNat % n ≠ 0 then .inl (s.thrFault t 2 addr.toNat) else
  match s.lftRef t addr.toNat n rd wr with
  | none => .inl (s.thrFault t 3 addr.toNat)
  | some r => .inr r

/-- The value of `n` bytes, zero- or sign-extended. -/
def loadValue (signed : Bool) (n v : Nat) : Word64 :=
  if signed ∧ v.testBit (8 * n - 1) then BitVec.ofNat 64 (2 ^ 64 - 2 ^ (8 * n) + v) else BitVec.ofNat 64 v

def lftLoad (p : RegPort) (signed : Bool) : LBody := fun s t f =>
  let addr := s.xa t f + f.offset
  match s.access t addr f.size true false with
  | .inl u => u
  | .inr (.reg a) =>
    let q := p.rd a f.size s
    q.1.result t f (loadValue signed f.size q.2)
  | .inr r =>
    match s.refRead r f.size with
    | (u, none) => u.thrFault t 9 addr.toNat
    | (u, some bs) => u.result t f (loadValue signed f.size (leNat bs))

def lftStore (p : RegPort) : LBody := fun s t f =>
  let addr := s.xa t f + f.offset
  let bs := natLe f.size (s.xb t f).toNat
  match s.access t addr f.size false true with
  | .inl u => u
  | .inr (.reg a) => (p.wr a bs s).goOn t
  | .inr r => (s.refWrite r bs).goOn t

/-- An atomic operation: `new` of the old value, xb and xd; none where nothing is written. -/
def lftAmo (new : Word64 → Word64 → Word64 → Option Word64) : LBody := fun s t f =>
  let addr := s.xa t f
  match s.access t addr 8 true true with
  | .inl u => u
  | .inr (.reg _) => s.thrFault t 3 addr.toNat
  | .inr r =>
    match s.refRead r 8 with
    | (u, none) => u.thrFault t 9 addr.toNat
    | (u, some bs) =>
      let old := BitVec.ofNat 64 (leNat bs)
      (match new old (u.xb t f) (u.xd t f) with
       | some v => u.refWrite r (natLe 8 v.toNat)
       | none => u).result t f old

/-! ## Tickets (R346, R347) -/

/-- The inbox of a thread, byte `i`, as a place in engine-local memory (DESIGN CHOICE, safe: log entry 55). -/
def inboxAt (t i : Nat) : LftRef := .loc (t / 8 * 65536 + t % 8 * 0x2000 + 0x1800 + i)

def lftTkNext : LBody := fun s t f =>
  let th := s.thr t
  if th.ticket.isSome then s.thrFault t 5 0 else
  match th.queue with
  | [] => s.result t f bit63
  | id :: rest =>
    let k := s.ticket id
    let q := s.celRead 0x13 k.buf 768
    let s1 := match q.2 with
      | some bs => q.1.refWrite (inboxAt t 0) bs
      | none =>
        let v := q.1.free 6144
        v.2.refWrite (inboxAt t 0) (natLe 768 v.1)
    (s1.setThr t { s1.thr t with ticket := some id, queue := rest }).waits t f (k.src % 16 * 65536 + k.prog % 65536)

/-- The effect of a ticket instruction on the ticket that the thread holds; TICKET where it holds none. -/
def State.withTicket (s : State) (t : Nat) (g : Nat → Ticket → State) : State :=
  match (s.thr t).ticket with
  | none => s.thrFault t 5 0
  | some id => g id (s.ticket id)

def lftPktRd : LBody := fun s t f => s.withTicket t fun _ k =>
  let n := f.uimm
  let off := (s.xb t f).toNat
  if k.dataLen < off + n then s.waits t f 1 else
  match s.lftRefs t (s.xa t f).toNat n false true with
  | none => s.waits t f 3
  | some refs =>
    match s.celRead 0x13 (k.buf + 768 + off) n with
    | (u, none) => u.waits t f 2
    | (u, some bs) => (u.refsWrite refs bs).waits t f 0

/-- DATA_LEN of the held ticket becomes `n`, in the inbox too. -/
def State.raiseLen (s : State) (t id n : Nat) : State :=
  let k := s.ticket id
  if n ≤ k.dataLen then s else
  let old := leNat (s.refBytes (inboxAt t 4) 4)
  (s.setTicket id { k with dataLen := n }).refWrite (inboxAt t 4) (natLe 4 (putBits old 23 9 n))

def lftPktWr : LBody := fun s t f => s.withTicket t fun id k =>
  let n := f.uimm
  let off := (s.xb t f).toNat
  let a := (s.xa t f).toNat
  if k.cap < off + n then s.waits t f 1 else
  match s.lftRefs t a n true false with
  | none => s.waits t f 3
  | some refs =>
    match s.refsRead refs with
    | (u, none) => u.thrFault t 9 a
    | (u, some bs) => ((u.celWrite 0x13 (k.buf + 768 + off) bs).raiseLen t id (off + n)).waits t f 0

/-! ## Ending a ticket (R348 to R350, R415) -/

/-- The metadata word that goes with a frame: the parse region, TS_MODE, MIRROR_SET and SCRATCH[15] of the
inbox, and the fields that `more` names besides. -/
def inboxMd (m : Nat) (more : List (Nat × Nat)) : BitVec 1024 :=
  BitVec.ofNat 1024 ((([(559, 558), (567, 560), (1023, 1008)] ++ more).foldl
    (fun (v : Nat) (p : Nat × Nat) => putBits v p.1 p.2 (bits m p.1 p.2)) (m % 2 ^ 512)))

/-- The metadata word in the inbox. -/
def State.inboxMdWord (s : State) (t : Nat) : Nat := leNat (s.refBytes (inboxAt t 64) 128)

/-- The bytes of the frame that an ending instruction sends with HL inbox bytes. -/
def Ticket.sendLen (k : Ticket) (hl : Nat) : Nat := if hl = 0 then k.dataLen else hl + k.dataLen - k.headLen

/-- The HL bytes of the inbox head; none where one of their words is uncorrectable. -/
def State.inboxHead (s : State) (t hl : Nat) : State × Option (List Byte) :=
  if hl = 0 then (s, some []) else s.refRead (inboxAt t 192) hl

/-- The frame that tk.emit and tk.reinject send; none where the buffer cannot be read whole. -/
def State.sendFrame (s : State) (k : Ticket) (head : List Byte) : State × Option (List Byte) :=
  let off := if head.isEmpty then 0 else k.headLen
  if k.dataLen ≤ off then (s, some head) else
  let q := s.celRead 0x13 (k.buf + 768 + off) (k.dataLen - off)
  (q.1, q.2.map (head ++ ·))

/-- An ending instruction of thread `t` ends with result `r`: on DONE the thread lets the ticket go. -/
def State.tkEnd (s : State) (t id : Nat) (f : LFields) (ev r : Nat) : State :=
  if r = 0 then
    (((s.dropTicket id).setThr t { (s.thr t) with ticket := none }).count ev (t / 64) 0).waits t f 0
  else if r = 1 then (s.count evLftEndFull (t / 64) 0).waits t f 1
  else s.waits t f r

/-- The frame length R348 allows, with its FCS. -/
def sendLenOk (n : Nat) : Bool := decide (64 ≤ n + 4 ∧ n + 4 ≤ 16384)

def lftTkEmit : LBody := fun s t f => s.withTicket t fun id k =>
  let x := (s.xa t f).toNat
  let hl := bits x 31 22
  let kind := bits x 2 0
  let dest := bits x 18 3
  if bits x 63 39 ≠ 0 ∨ 512 < hl then s.tkEnd t id f evLftEmit 4
  else if !(destOk kind dest) then s.tkEnd t id f evLftEmit 2
  else if !(sendLenOk (k.sendLen hl)) then s.tkEnd t id f evLftEmit 3
  else if 256 ≤ s.handedCount (k.inPort / 32) false then s.tkEnd t id f evLftEmit 1
  else
    match s.inboxHead t hl with
    | (u, none) => u.thrFault t 9 (0x1800 + 192)
    | (u, some head) =>
      match u.sendFrame k head with
      | (v, none) => v.tkEnd t id f evLftEmit 5
      | (v, some d) =>
        let md := BitVec.ofNat 1024 (putBits (putBits (inboxMd (v.inboxMdWord t) []).toNat 551 551 (bits x 32 32))
          557 552 (bits x 38 33))
        let v1 := v.ownerPass k.buf (ownerSlice (k.inPort / 32))
        (v1.handDirect ⟨k.inPort, d, md, k.buf⟩ kind dest (bits x 21 19) false).tkEnd t id f evLftEmit 0

def lftTkReinject : LBody := fun s t f => s.withTicket t fun id k =>
  let x := (s.xa t f).toNat
  let hl := bits x 31 22
  let mode := x % 2
  if bits x 63 32 ≠ 0 ∨ 512 < hl then s.tkEnd t id f evLftReinject 4
  else if !(sendLenOk (k.sendLen hl)) then s.tkEnd t id f evLftReinject 3
  else if !(s.reentryRoom (k.inPort / 32)) then s.tkEnd t id f evLftReinject 1
  else
    match s.inboxHead t hl with
    | (u, none) => u.thrFault t 9 (0x1800 + 192)
    | (u, some head) =>
      match u.sendFrame k head with
      | (v, none) => v.tkEnd t id f evLftReinject 5
      | (v, some d) =>
        let m := v.inboxMdWord t
        let md0 := inboxMd m [(521, 520)]
        let md := if mode = 1 then BitVec.ofNat 1024 (putBits md0.toNat 519 512 (bits x 21 14)) else md0
        let v1 := v.ownerPass k.buf (ownerSlice (k.inPort / 32))
        (v1.handHead ⟨k.inPort, d, md, k.buf⟩ 1 (if mode = 1 then 4 else 2) (bits x 13 1)
          (if k.src < 2 then m % 2 ^ 64 else v1.ns)).tkEnd t id f evLftReinject 0

def lftTkHost : LBody := fun s t f => s.withTicket t fun id k =>
  let x := (s.xa t f).toNat
  let hl := bits x 31 22
  if bits x 21 14 ≠ 0 ∨ bits x 63 32 ≠ 0 ∨ 512 < hl then s.tkEnd t id f evLftHost 4
  else
    match s.inboxHead t hl with
    | (u, none) => u.thrFault t 9 (0x1800 + 192)
    | (u, some head) =>
      let r := u.hostDeliver (bits x 13 0) k hl head
      r.1.tkEnd t id f evLftHost r.2

def lftTkDone : LBody := fun s t f => s.withTicket t fun id k =>
  let r := s.cupFree (ownerThread t) k.buf none
  (if r.2 = 6 then r.1.count evCupThreadExcess (t / 8) 0 else r.1).tkEnd t id f evLftDone 0

/-! ## Table commands (R352) -/

/-- The command port of a unit: its CMD, SLICES and STATUS registers, its data registers in ascending order,
and what a write of CMD does. -/
structure CmdPort where
  cmd : Nat
  slices : Option Nat
  status : Nat
  data : List Nat
  run : State → Word → State

/-- The port of window `w`. -/
def cmdPort (w : Nat) : Option CmdPort :=
  match w with
  | 0x06 => some ⟨thrUcCmd, none, thrUcStatus, (upto 8).map thrUcData, State.ucCmdWrite⟩
  | 0x07 => some ⟨hlwCmd, some hlwCmdSlices, hlwCmdStatus, (upto 8).map hlwData, State.hlwCmdWrite⟩
  | 0x08 => some ⟨galCmd, some galCmdSlices, galCmdStatus,
      [galResult, galSlot] ++ (upto 20).map galKey ++ (upto 20).map galMask, State.galCmdWrite⟩
  | 0x09 => some ⟨lrdCmd, none, lrdCmdStatus,
      [lrdEnt] ++ (upto 10).map lrdKey ++ (upto 4).map lrdAct ++ (upto 4).map lrdCmp, State.lrdCmdWrite⟩
  | 0x0A => some ⟨crwCmd, none, crwCmdStatus, (upto 48).map crwData, State.crwCmdWrite⟩
  | 0x0C => some ⟨stwCmd, none, stwCmdStatus, (upto 18).map stwData, State.stwCmdWrite⟩
  | 0x0D => some ⟨shtCmd, some shtCmdSlices, shtCmdStatus, (upto 8).map shtData, State.shtCmdWrite⟩
  | _ => none

/-- A command through the port of loft `l` to window `w`: the host's registers of the unit stand aside while the
port's are in their place; the answer is STATUS and the data registers. -/
def State.portCommand (s : State) (l w : Nat) (u : CmdPort) (cmd slices : Word) (data : List Word) :
    State × Word × List Word :=
  let addrs := [u.cmd, u.status] ++ u.slices.toList ++ u.data
  let saved := addrs.map fun a => (a, s.rd a)
  let s1 := (s.wrN u.cmd 0).wr u.status (tget 0 s.lft.ports (256 * l + w))
  let s2 := match u.slices with
    | some a => s1.plainWrite a slices
    | none => s1
  let s3 := u.data.zip data |>.foldl (fun v p => v.plainWrite p.1 p.2) s2
  let s4 := u.run s3 cmd
  let st := s4.rd u.status
  let out := u.data.map s4.rd
  let s5 := s4.clearRc u.status
  let s6 := { s5 with lft := { s5.lft with ports := tset 0 s5.lft.ports (256 * l + w) (s5.rd u.status) } }
  (saved.foldl (fun v p => v.wr p.1 p.2) s6, st, out)

/-- A write of CMD to HLW_GEN_CTL. -/
def State.genCommand (s : State) (v : Word) : State :=
  match fld v 1 0 with
  | 1 => s.genOpen
  | 2 => s.genCommit
  | 3 => s.genAbort
  | _ => s

def blockWord (bs : List Byte) (i : Nat) : Word := BitVec.ofNat 32 (leNat (slice bs (4 * i) 4))

def lftTbl : LBody := fun s t f =>
  let a := (s.xa t f).toNat
  if a % 16 ≠ 0 then s.thrFault t 2 a else
  match s.lftRefs t a 208 true true with
  | none => s.thrFault t 3 a
  | some refs =>
    match s.refsRead refs with
    | (u, none) => u.thrFault t 9 a
    | (u, some blk) =>
      let unit := blockWord blk 0
      let w := fld unit 7 0
      let gen := unit.getLsbD 16
      if fld unit 15 8 ≠ 0 ∨ fld unit 31 17 ≠ 0 ∨ (gen ∧ w ≠ 7) then u.result t f bit63 else
      match cmdPort w with
      | none => u.result t f bit63
      | some p =>
        let u1 := u.count evLftTblCmd (t / 64) 0
        let r := if gen then
            let g := u1.genCommand (blockWord blk 1)
            (g, g.rd hlwGenStatus, [])
          else u1.portCommand (t / 64) w p (blockWord blk 1) (blockWord blk 2)
            ((upto p.data.length).map fun i => blockWord blk (4 + i))
        let out := splice (splice blk 12 (natLe 4 r.2.1.toNat)) 16 (r.2.2.flatMap fun x => natLe 4 x.toNat)
        (r.1.refsWrite refs out).waits t f r.2.1.toNat

/-! ## Check values and Cellar (R353, R354) -/

def lftChk : LBody := fun s t f =>
  let p := s.profile f.uimm
  let a := (s.xa t f).toNat
  let n := (s.xb t f).toNat % 2 ^ 13
  if !p.valid then s.thrFault t 6 f.uimm else
  match s.lftRefs t a n true false with
  | none => s.thrFault t 3 a
  | some refs =>
    match s.refsRead refs with
    | (u, none) => u.thrFault t 9 a
    | (u, some bs) => u.waits t f (p.check bs (u.xd t f).toNat)

/-- The Cellar range lies in a partition that loft `l` may reach. -/
def State.dmaPart (s : State) (l a n : Nat) : Bool :=
  [1, 2, 3].any fun p => s.rb (lftLoftCfg l) (3 + p) && s.inPart p a n

def lftDma : LBody := fun s t f =>
  let a := (s.xa t f).toNat
  if a % 16 ≠ 0 then s.thrFault t 2 a else
  match s.lftRefs t a 16 true false with
  | none => s.thrFault t 3 a
  | some refs =>
    match s.refsRead refs with
    | (u, none) => u.thrFault t 9 a
    | (u, some blk) =>
      let cel := leNat (slice blk 0 8)
      let loc := leNat (slice blk 8 4)
      let n := fld (blockWord blk 3) 12 0
      let out := (blockWord blk 3).getLsbD 16
      if n = 0 ∨ 4096 < n then u.waits t f 1
      else if !(u.dmaPart (t / 64) cel n) then u.waits t f 2
      else if cel % 8 ≠ 0 ∨ loc % 8 ≠ 0 then u.waits t f 3
      else
        match u.lftRefs t loc n out (!out) with
        | none => u.waits t f 5
        | some rs =>
          if out then
            match u.refsRead rs with
            | (v, none) => v.waits t f 4
            | (v, some bs) => (v.celWrite (0x40 + t / 64) cel bs).waits t f 0
          else
            match u.celRead (0x40 + t / 64) cel n with
            | (v, none) => v.waits t f 4
            | (v, some bs) => (v.refsWrite rs bs).waits t f 0

/-! ## Letterboxes (R358, R359) -/

def lftLbPut : LBody := fun s t f =>
  (s.setThr t { s.thr t with staging := tset 0 (s.thr t).staging (f.uimm % 8) (s.xa t f) }).goOn t

def lftLbSend : LBody := fun s t f =>
  let u := (s.xa t f).toNat % 4096
  if !(s.engRunning (u / 8)) ∨ (s.thrReserved u ∧ !(s.thrReserved t)) then s.waits t f 2
  else if 4 ≤ (s.thr u).letters.length then (s.count evLftLbFull (t / 8) 0).waits t f 1
  else
    let m : Letter := ⟨t, (upto f.uimm).map fun i => tget 0 (s.thr t).staging i⟩
    ((s.setThr u { s.thr u with letters := (s.thr u).letters ++ [m] }).count evLftLbSent (t / 8) 0).waits t f 0

def lftLbDrop : LBody := fun s t _ => (s.setThr t { s.thr t with staging := [] }).goOn t

def lftLbRecv : LBody := fun s t f =>
  let a := (s.xa t f).toNat
  if a % 8 ≠ 0 then s.thrFault t 2 a else
  match (s.thr t).letters with
  | [] => s.result t f bit63
  | m :: rest =>
    match s.lftRefs t a 64 false true with
    | none => s.thrFault t 3 a
    | some refs =>
      let s1 := s.refsWrite refs ((upto 8).flatMap fun i => natLe 8 (m.words.getD i 0).toNat)
      (s1.setThr t { s1.thr t with letters := rest }).result t f (BitVec.ofNat 64 (m.words.length * 65536 + m.sender))

/-! ## Waiting, time, thread control (R355, R360) -/

def lftWfe : LBody := fun s t f =>
  let ev := Nat.land f.uimm (s.events t)
  if ev ≠ 0 then s.result t f (BitVec.ofNat 64 ev)
  else s.setThr t { s.thr t with state := 2, wait := some ⟨f.d.toNat, 0, some f.uimm⟩ }

/-- The engine's event flags changed. -/
def State.setFlags (s : State) (e v : Nat) : State :=
  { s with lft := { s.lft with engines := tput s.lft.engines e { s.eng e with flags := v } } }
def lftEvSet : LBody := fun s t f => (s.setFlags (t / 8) (Nat.lor (s.eng (t / 8)).flags f.uimm)).goOn t
def lftEvClr : LBody := fun s t f =>
  (s.setFlags (t / 8) (Nat.land (s.eng (t / 8)).flags (65535 - f.uimm % 65536))).goOn t
def lftTmr : LBody := fun s t f => (s.setThr t { s.thr t with timer := (s.xa t f).toNat }).goOn t
def lftTime : LBody := fun s t f => s.result t f (BitVec.ofNat 64 s.ns)

/-- Thread `t` is master of thread `u`. -/
def State.isMaster (s : State) (t u : Nat) : Bool :=
  t % 8 == 0 && u != t && (u / 8 == t / 8 || (u / 64 == t / 64 && s.rf (lftLoftCfg (t / 64)) 3 0 == t / 8 % 8))

/-- A thread-control operation of thread `t`: the answer of `op` on the target. -/
def State.control (s : State) (t : Nat) (f : LFields) (op : Nat → State × Nat) : State :=
  let u := (s.xa t f).toNat % 4096
  if s.thrReserved u && !(s.thrReserved t) then s.waits t f 3
  else if !(s.isMaster t u) then s.waits t f 1
  else
    let r := op u
    r.1.waits t f r.2

def State.stopped (s : State) (u : Nat) : Bool := (s.thr u).state == 0 || (s.thr u).state == 4
def lftThrWreg : LBody := fun s t f => s.control t f fun u =>
  if !(s.stopped u) then (s, 2) else
  match (s.thr u).setByNumber f.uimm (s.xb t f) with
  | some th => (s.setThr u th, 0)
  | none => (s, 5)
def lftThrRreg : LBody := fun s t f => s.control t f fun u =>
  if !(s.stopped u) then (s, 2) else
  match (s.thr u).byNumber f.uimm with
  | some v => (s, v.toNat)
  | none => (s, 5)
def lftThrStart : LBody := fun s t f => s.control t f fun u => s.thrStart u
def lftThrStop : LBody := fun s t f => s.control t f fun u => s.thrStop u
def lftThrReset : LBody := fun s t f => s.control t f fun u => s.thrResetOp u
def lftThrStat : LBody := fun s t f => s.control t f fun u => (s, (s.thr u).status.toNat)

/-! ## Bells, vectors, traps, stops (R362, R364, R370) -/

def lftBell : LBody := fun s t f => (s.bellPull (BitVec.ofNat 32 ((s.xa t f).toNat % 1024))).goOn t

def lftVret : LBody := fun s t _ =>
  let th := s.thr t
  if !th.inVector ∨ (t ≠ atcThread ∧ t % 8 ≠ 0) then s.thrFault t 4 0
  else ((s.setThr t { th with inVector := false, tail := true }).goTo t th.vret).complete
    (if t = atcThread then 512 else t / 8)

def lftTrap : LBody := fun s t f => s.thrFault t 7 f.uimm

def lftBrk : LBody := fun s t _ =>
  if t ≠ atcThread ∧ s.rb lftDbgSel 31 then s.setThr t { s.thr t with state := 3 } else s.thrFault t 8 0

def lftStop : LBody := fun s t _ => (s.goOn t).setThr t { (s.goOn t).thr t with state := 0 }

/-! ## Every opcode -/

/-- The effect of opcode `op`. -/
def lftBody (p : RegPort) (op : Nat) : LBody :=
  match op with
  | 0x01 => lftAlu (· + ·)
  | 0x02 => lftAlu (· - ·)
  | 0x03 => lftAlu (· &&& ·)
  | 0x04 => lftAlu (· ||| ·)
  | 0x05 => lftAlu (· ^^^ ·)
  | 0x06 => lftAlu opShl
  | 0x07 => lftAlu opShr
  | 0x08 => lftAlu opSar
  | 0x09 => lftAlu (· * ·)
  | 0x0A => lftAlu opMulh
  | 0x0B => lftAlu opSlt
  | 0x0C => lftAlu opSltu
  | 0x0D => lftBext
  | 0x0E => lftBins
  | 0x0F => lftPopc
  | 0x10 => lftClz
  | 0x11 => lftAluImm (· + ·)
  | 0x12 => lftAluImm (· &&& ·)
  | 0x13 => lftAluImm (· ||| ·)
  | 0x14 => lftAluImm (· ^^^ ·)
  | 0x15 => lftAluImm opShl
  | 0x16 => lftAluImm opShr
  | 0x17 => lftAluImm opSar
  | 0x18 => lftLi
  | 0x19 => lftLih
  | 0x1A => lftBswap
  | 0x20 => lftBranch (· == ·)
  | 0x21 => lftBranch (· != ·)
  | 0x22 => lftBranch BitVec.slt
  | 0x23 => lftBranch fun x y => !(x.slt y)
  | 0x24 => lftBranch BitVec.ult
  | 0x25 => lftBranch fun x y => !(x.ult y)
  | 0x26 => lftJal
  | 0x27 => lftJalr
  | 0x30 => lftLoad p false
  | 0x31 => lftLoad p true
  | 0x32 => lftStore p
  | 0x33 => lftAmo fun old b _ => some (old + b)
  | 0x34 => lftAmo fun _ b _ => some b
  | 0x35 => lftAmo fun old b d => if old = d then some b else none
  | 0x40 => lftTkNext
  | 0x41 => lftPktRd
  | 0x42 => lftPktWr
  | 0x43 => lftTkEmit
  | 0x44 => lftTkReinject
  | 0x45 => lftTkHost
  | 0x46 => lftTkDone
  | 0x50 => lftTbl
  | 0x51 => lftChk
  | 0x52 => lftDma
  | 0x60 => lftLbPut
  | 0x61 => lftLbSend
  | 0x62 => lftLbDrop
  | 0x63 => lftLbRecv
  | 0x70 => lftWfe
  | 0x71 => lftEvSet
  | 0x72 => lftEvClr
  | 0x73 => lftTmr
  | 0x74 => lftTime
  | 0x75 => lftThrWreg
  | 0x76 => lftThrRreg
  | 0x77 => lftThrStart
  | 0x78 => lftThrStop
  | 0x79 => lftThrReset
  | 0x7A => lftThrStat
  | 0x7B => lftBell
  | 0x7C => lftVret
  | 0x7D => lftTrap
  | 0x7E => lftBrk
  | 0x7F => lftStop
  | _ => lftNop

/-! ## The debugger's STEP (R368) -/

/-- A port without registers, for threads that have none. -/
def noPort : RegPort := ⟨fun _ _ s => (s, 0), fun _ _ s => s⟩

/-- STEP of one thread: one instruction, which completes if it is a W instruction; a wfe that finds no event is
abandoned. The thread then halts, unless the instruction left it STOPPED or FAULTED. -/
def State.dbgStepThr (s : State) (t : Nat) : State × Nat :=
  if (s.thr t).state ≠ 3 then (s, 1) else
  let s1 := s.setThr t { s.thr t with state := 1 }
  let w := s1.wordAt t
  let op := bits w.toNat 63 56
  let s2 := (s1.issueWord t op (lftFields w) (lftBody noPort op)).endCurrent t
  let th := s2.thr t
  (if th.state = 1 ∨ th.state = 2 then s2.setThr t { th with state := 3 } else s2, 0)

/-- DBG_STEP (R368). -/
def execDbgStep (s : State) : Host.Outcome State Fault Refusal := .next (s.dbgRun 3 0 State.dbgStepThr)

/-- A write of LFT_DBG_CMD (R374). -/
def State.dbgCmdWrite (s : State) (v : Word) : State :=
  let op := fld v 30 27
  if s.rb lftDbgCmd 31 then s
  else if 8 ≤ op then s.setB lftErr 0
  else if op = 0 then s.plainWrite lftDbgCmd v
  else if op = 3 then s.dbgRun 3 (fld v 5 0) State.dbgStepThr
  else s.dbgRun op (fld v 5 0) fun u t => u.dbgOp op (fld v 5 0) t

end Sys2Proof.Machine
end

