-- ==== Sys2Proof/Machine/Resets.lean ====
section
/-! DEFINITION. What resets, isolation and safe state share (R495, R496, R508, R513): a slice's frames
discarded, a slice restarted, jobs aborted, engines stopped. -/

namespace Sys2Proof.Machine

/-- XON for every priority that port n holds in XOFF. -/
def State.portXon (s : State) (n : Nat) : State :=
  let q := s.port n
  if q.xoff = 0 then s else s.setPort n { q with xoff := 0, pfcDue := Nat.lor q.pfcDue q.xoff }

/-- The ports of a slice. -/
def slicePorts (sl : Nat) : List Nat := (upto 32).map (32 * sl + ·)

/-- A slice holds a frame on its ingress side. -/
def Frame.held (x : Frame) : Bool :=
  !x.isOver && (!x.complete || x.units + x.hr != 0 || x.head.pos != .none || !x.fab.queues.isEmpty)

/-- The frames that a slice holds on its ingress side. -/
def State.sliceFrames (s : State) (sl : Nat) : List Nat := ((s.framesOf sl).filter fun p => p.2.held).map (·.1)

/-- A frame that its slice holds is discarded; what has crossed of it is poisoned or ended. -/
def State.frameCast (s : State) (f : Nat) : State :=
  if !(s.hasFrame f) then s else
  let x := s.frame f
  (s.setFrame f { x with complete := true, bad := x.bad || !x.complete }).inError f

/-- A frame on its way into egress slice g.dst, or in it, as that slice is restarted: one whose crossing is
still under way crosses again; the copies of another end, and a copy begun is poisoned (R496). -/
def State.egDrop (s : State) (g : EgFrame) : State :=
  let f := g.fid
  let src := (s.frame f).slice
  let v := s.voq src g.q
  let crossing := v.die.head? == some f && decide (0 < v.sent)
  let gone (t : State) : State := { t with stw := { t.stw with eg := tdel t.stw.eg (16 * f + g.dst) } }
  if crossing && !(s.begunAt f g.dst) then
    let s1 := s.each (s.copiesAt f g.dst) fun t p =>
      let u := t.egLeave p.1
      { u with stw := { u.stw with copies := tdel u.stw.copies p.1 } }
    let s2 := s1.setVoq src g.q { v with sent := 0 }
    gone { s2 with stw := { s2.stw with egCur := tdel s2.stw.egCur g.q } }
  else
    let s1 := if crossing then s.inError f else s
    let s2 := if g.got = 0 then s1.egEnqueue f g.dst else s1
    gone (s2.egError f g.dst 3)

/-- Everything that slice sl holds is discarded: its frames, its share of spill, its egress queues, and the
tickets that wait for a buffer. `lost` counts a frame that is arriving at a port. -/
def State.sliceDiscard (s : State) (lost : State → Nat → State) (sl : Nat) : State :=
  let s1 := s.wakeSlice sl
  let s2 := s1.each (slicePorts sl) fun t n =>
    match (t.port n).rx with
    | some r => lost (t.setPort n { t.port n with rx := some { r with fid := none, discard := true } }) n
    | none => t
  let s3 := s2.each (s2.sliceFrames sl) State.frameCast
  let s4 := s3.each (s3.lft.tickets.filter fun p => p.2.slice == sl && p.2.buf == 0 && decide (p.2.src < 3)) fun t p =>
    t.dropTicket p.1
  let s5 := { s4 with
    cup := { s4.cup with grantQ := tdel s4.cup.grantQ sl }
    stw := { s4.stw with
      voqs := tclear s4.stw.voqs (4224 * sl) (4224 * sl + 4224)
      spillUsed := tdel s4.stw.spillUsed sl
      egCur := s4.stw.egCur.filter fun (p : Nat × Nat) => p.2 != sl
      cells := s4.stw.cells.filter fun c => c.dst != sl && c.src != sl }
    pipe := { s4.pipe with slices := tput s4.pipe.slices sl Slice.init } }
  s5.each ((s5.stw.eg.filter fun p => p.2.dst == sl).map (·.2)) State.egDrop

/-- Buckets full, deficits clear, XON everywhere. -/
def State.sliceRefill (s : State) (sl : Nat) : State :=
  let pols := s.sht.pols.map fun (p : Nat × Pol) =>
    if p.1 / 16384 = sl then (p.1, { p.2 with tc := p.2.cbs, te := p.2.ebs, tick := s.tick }) else p
  let shps := s.sht.shps.map fun (p : Nat × Shp) =>
    if shpSlice p.1 = sl then (p.1, { p.2 with tokens := (s.shpBurst p.1 : Int), tick := s.tick, fill := false, cut := false })
    else p
  let dwrr := s.sht.dwrr.filter fun (p : Nat × Dwrr) => p.1 / 32 != sl
  { s with sht := { s.sht with pols := pols, shps := shps, dwrr := dwrr } }.each (slicePorts sl) State.portXon

/-- A slice restart (R496), done at once (DESIGN CHOICE, safe: log entry 56). -/
def State.sliceRestart (s : State) (sl : Nat) : State :=
  ((s.sliceDiscard (fun t n => t.count evAtcRestartDiscard (n / 32) 0) sl).sliceRefill sl).count evAtcSliceRestart sl 0

/-- Every engine stops (R513). -/
def State.stopEngines (s : State) (cause : Nat) : State :=
  s.each (upto 512) fun t e => t.engineStop e cause

/-- The reserved lofts start (R479): every engine of theirs, with thread 0 at its BOOT_PC where BOOT is 1. -/
def State.startReserved (s : State) : State :=
  let f := s.rf lftCrwCfg 5 0
  s.each (upto (8 * s.rf lftCrwCfg 18 16)) fun t i =>
    let e := 8 * f + i
    if t.rf (lftEngStatus e) 31 30 = 1 then t.engineStart e else t

/-- The reset of a safe-state exit (R495, R515): every slice restarts, and every engine that is STOPPED. -/
def State.safeExitReset (s : State) : State :=
  let s1 := s.each (upto 16) State.sliceRestart
  let s2 := s1.each (upto 512) fun t e => if t.rf (lftEngStatus e) 31 30 = 1 ∧ !(t.loftReserved (e / 8)) then t.engineStart e else t
  s2.startReserved

end Sys2Proof.Machine
end

