-- ==== Sys2Proof/Machine/Masthead.lean ====
section
/-! DEFINITION. Masthead and the event counters (R503 to R534, windows 0x01 and 0x02): reports taken, isolation,
safe state, the monitors, injection, the log, snapshots and dumps. -/

namespace Sys2Proof.Machine

/-! ## Sources (R504, R505) -/

/-- The source is reserved and never reports. -/
def srcReserved (s : Nat) : Bool := s == 1 || (9 ≤ s && s ≤ 0x0F) || 0x36 ≤ s

/-- The class of a source: 0 corrected, 1 contained, 2 unit isolated, 3 fatal. -/
def srcClass (s : Nat) : Nat :=
  if s = 0 ∨ s = 2 ∨ s = 3 ∨ s = 6 ∨ s = 8 then 3
  else if s = 4 ∨ s = 5 ∨ s = 0x24 ∨ s = 0x2C then 2
  else if s = 0x10 ∨ s = 0x12 ∨ s = 0x16 ∨ s = 0x18 ∨ s = 0x1B ∨ s = 0x1F ∨ s = 0x22 ∨ s = 0x25 ∨ s = 0x28 ∨ s = 0x2B ∨
      s = 0x2D ∨ s = 0x34 then 0
  else 1

/-- What an ISOLATE of a source's instance acts on (R508). -/
inductive IsoKind where
  | engine
  | loft
  | slice
  | channel
  | chiplet
  | doorway
  | none
deriving DecidableEq, Repr

def isoKind (s : Nat) : IsoKind :=
  if s = 0x24 then .engine
  else if s = 0x22 ∨ s = 0x23 then .loft
  else if (0x10 ≤ s ∧ s ≤ 0x15) ∨ s = 0x1B ∨ s = 0x1C ∨ s = 0x1E ∨ s = 0x1F ∨ s = 0x20 ∨ s = 0x21 ∨ s = 0x33 then .slice
  else if s = 0x2C then .channel
  else if s = 5 then .chiplet
  else if s = 4 then .doorway
  else .none

/-! ## Isolation (R508, R509) -/

/-- The instance of a source is taken out of service (DESIGN CHOICE, unsafe: log entry 74). -/
def State.isolate (s : State) (src inst : Nat) : State :=
  match isoKind src with
  | .engine => if inst < 512 then s.engineStop inst 4 else s
  | .loft => if inst < 64 then s.each (upto 8) fun t j => t.engineStop (8 * inst + j) 4 else s
  | .slice =>
    if inst < 16 then (s.setB mstIsoStatus inst).sliceDiscard (fun t n => t.count evMstIsoDiscard n 0) inst else s
  | .channel => if inst < 64 ∧ !(s.rb (celStkChfail (inst / 16)) (inst % 16)) then s.channelFail (inst / 16) (inst % 16) else s
  | .chiplet =>
    if inst < 8 then (s.setB mstIsoStatus (24 + inst)).each (upto 64) fun t i => t.portLinkDown (64 * inst + i) else s
  | .doorway => (s.setB mstIsoStatus 16).dwyReset
  | .none => s

/-! ## Safe state (R513 to R516) -/

/-- FAULT_ALIVE is held low. -/
def State.aliveLow (s : State) : State :=
  { s.putB mstStatus 28 false with mast := { s.mast with alivePin := false } }

/-- The recoveries within the preceding WINDOW_S seconds. -/
def State.recoveries (s : State) : Nat :=
  (s.mast.recov.filter fun t => decide (s.ns ≤ t + s.rf mstRecovCfg 15 0 * 1000000000)).length

/-- What safe state stops: engines, jobs and builds, FAULT_ALIVE; every port's XOFF is released. -/
def State.safeStops (s : State) : State :=
  let s1 := ((((s.stopEngines 4).galAbort).lrdAbort).buildAbort).aliveLow
  let s2 := s1.each (upto 512) State.portXon
  { s2 with mast := { s2.mast with quietFrom := s2.cycles }, attic := { s2.attic with doneFrom := s2.cycles } }

/-- Safe state is entered by a report of `src`, or by software with 0x01. -/
def State.safeEnter (s : State) (src : Nat) : State :=
  if s.inSafe then s else
  let st := if 8 ≤ s.recoveries then 2 else 1
  (((s.wf mstStatus 31 30 st).wf mstStatus 7 0 src).count evMstSafeEntry 0 0).safeStops

/-- Safe state is left: the exit reset, then NORMAL, and the recovery is recorded. -/
def State.safeExit (s : State) : State :=
  let s1 := (s.safeExitReset.wf mstStatus 31 30 0).putB mstStatus 28 (s.rf atcBootStatus 31 28 == 8)
  let s2 := s1.wf mstRecov 31 16 (min 65535 (s1.rf mstRecov 31 16 + 1))
  let s3 := { s2 with mast := { s2.mast with recov := (s2.ns :: s2.mast.recov).take 8 } }
  (s3.count evMstRecovery 0 0).pulse 1283

/-- A write of MST_SAFE_CTL. -/
def State.safeCtlWrite (s : State) (op : Nat) : State :=
  match op with
  | 1 => s.safeEnter 1
  | 2 =>
    if !s.inSafe then s
    else if s.rf mstStatus 31 30 = 2 ∨ s.rd mstMon ≠ 0 then s.setB mstSafeCtl 2
    else s.safeExit
  | 3 => s.setB mstErr 0
  | _ => s

/-- SAFE_ENTER_WRITE (R513). -/
def execSafeEnterWrite (s : State) : Host.Outcome State Fault Refusal := .next (s.safeCtlWrite 1)
/-- SAFE_EXIT_WRITE (R515). -/
def execSafeExitWrite (s : State) : Host.Outcome State Fault Refusal := .next (s.safeCtlWrite 2)

/-- SAFE_AUTO_EXIT (R515): QUIET_MS has passed. -/
def execSafeAutoExit (s : State) : Host.Outcome State Fault Refusal :=
  if s.rf mstStatus 31 30 = 1 ∧ s.rb mstSafeCfg 31 ∧ s.rd mstMon = 0 ∧
      s.mast.quietFrom + s.rf mstSafeCfg 15 0 * 25000 ≤ s.cycles then .next s.safeExit
  else .next s

/-! ## Reports (R503, R506, R507, R522) -/

/-- REPORT_PRESENT (R503): a unit presents a report; a reserved source never does. -/
def execReportPresent (src inst : Nat) (info : Word) (s : State) : Host.Outcome State Fault Refusal :=
  .next (if srcReserved src ∨ 65536 ≤ inst then s else s.report src inst info)

/-- The report counts in its source's escalation window; the answer is how many that makes. -/
def State.escCount (s : State) (src : Nat) : State × Nat :=
  let w := s.ns / (max 1 (s.rf mstEscWindow 15 0) * 1000000)
  let esc := if w = s.mast.escWindow then s.mast.esc else []
  let n := tget 0 esc src + 1
  ({ s with mast := { s.mast with esc := tput esc src n, escWindow := w } }, n)

/-- The action of a report that is the n-th of its window, and whether escalation gave it. -/
def State.actionFor (s : State) (src n : Nat) : Nat × Bool :=
  let c := mstSrcCfg src
  let a := s.rf c 31 29
  let e := s.rf c 28 26
  let lim := s.rf c 15 0
  let r := if lim ≠ 0 ∧ lim ≤ n ∧ a < e then (e, true) else (a, false)
  if r.1 = 2 ∧ isoKind src = .none then (3, r.2) else r

/-- A report written into the log, and into MST_FIRST where it is the first of class fatal. -/
def State.logReport (s : State) (r : Report) (act : Nat) (esc : Bool) : State :=
  let n := s.rdN mstLogNext
  let cls := srcClass r.src
  let t := s.ns
  let words : List Word := [r.inst * 2 ^ 16 + nat esc * 2 ^ 14 + act * 2 ^ 11 + cls * 2 ^ 8 + r.src, r.info.toNat, t % 2 ^ 32,
    t / 2 ^ 32, r.merged, 0, 0, 0].map (BitVec.ofNat 32 ·)
  let overrun := s.mast.log.any fun (e : LogEntry) => e.n + 256 == n && !e.read
  let log : List LogEntry := (s.mast.log.filter fun (e : LogEntry) => e.n + 256 != n) ++ [⟨n, words, false⟩]
  let s1 := { s with mast := { s.mast with log := log } }
  let s2 := (if overrun then s1.setB mstErr 1 else s1).wrN mstLogNext (n + 1)
  if cls = 3 ∧ !s2.mast.firstHeld then
    let s3 := s2.each (upto 8) fun u i => u.wr (mstFirst i) (words.getD i 0)
    { s3 with mast := { s3.mast with firstHeld := true } }
  else s2

/-- The action of a report. A SAFE that comes of an ISOLATE sets its class bit too. -/
def State.reportAction (s : State) (r : Report) (act : Nat) (fromIsolate : Bool) : State :=
  let cls := srcClass r.src
  match act with
  | 1 => s.setB mstNotify cls
  | 2 => ((s.setB mstNotify cls).isolate r.src r.inst).pulse 1281
  | 3 => (if fromIsolate then s.setB mstNotify cls else s).safeEnter r.src
  | _ => s

/-- The Masthead event arbiter takes a report: log, count, action. -/
def State.takeReport (s : State) (r : Report) : State :=
  let p := s.escCount r.src
  let a := p.1.actionFor r.src p.2
  let c := mstSrcCfg r.src
  let fromIsolate := a.1 == 3 && (if a.2 then s.rf c 28 26 == 2 else s.rf c 31 29 == 2)
  let s1 := (p.1.logReport r a.1 a.2).count evMstReport 0 r.src
  let s2 := if s1.inSafe ∧ 1 ≤ srcClass r.src then { s1 with mast := { s1.mast with quietFrom := s1.cycles } } else s1
  s2.reportAction r a.1 fromIsolate

/-- REPORT_TAKE (R507): of the reports that wait, the one of lowest source and then instance. -/
def execReportTake (s : State) : Host.Outcome State Fault Refusal :=
  match s.mast.waiting with
  | [] => .next s
  | r :: rest => .next ({ s with mast := { s.mast with waiting := rest } }.takeReport r)

/-! ## Monitors, Masthead's own state, FAULT_ALIVE (R511, R517, R518) -/

/-- The bit of MST_MON that shows a monitor's condition. -/
def monBit (src : Nat) : Option Nat :=
  if src = 2 then some 0 else if src = 3 ∨ src = 4 then some 1 else if src = 5 then some 2 else if src = 6 then some 3
  else if src = 8 then some 4 else none

/-- MST_MON shows the conditions that hold. -/
def State.monShow (s : State) : State :=
  s.wrN mstMon (((upto 5).filter fun b => s.mast.mons.any fun m => monBit m.1 == some b).map (2 ^ ·)).sum

/-- MONITOR_DETECT (R511): the condition of source `src` at an instance rises. -/
def execMonitorDetect (src inst : Nat) (info : Word) (s : State) : Host.Outcome State Fault Refusal :=
  if src < 2 ∨ 8 < src ∨ 65536 ≤ inst ∨ s.mast.mons.any (· == (src, inst)) then .next s
  else .next ({ s with mast := { s.mast with mons := (src, inst) :: s.mast.mons } }.monShow.report src inst info)

/-- MONITOR_CLEAR (R511). -/
def execMonitorClear (src inst : Nat) (s : State) : Host.Outcome State Fault Refusal :=
  let had := s.rd mstMon != 0
  let s1 := { s with mast := { s.mast with mons := s.mast.mons.filter (· != (src, inst)) } }.monShow
  .next (if had ∧ s1.rd mstMon = 0 ∧ s1.inSafe then { s1 with mast := { s1.mast with quietFrom := s1.cycles } } else s1)

/-- SELF_CHECK (R517): the checker's reading of Masthead's parity and of the arbiter's heartbeat. -/
def execSelfCheck (parityBad heartbeatLost : Bool) (s : State) : Host.Outcome State Fault Refusal :=
  if !parityBad ∧ !heartbeatLost then .next s
  else
    let v := s.free 32
    let s1 := { v.2 with mast := { v.2.mast with checkerFired := true } }
    let s2 := s1.report 0 0 (BitVec.ofNat 32 v.1)
    .next (if s2.inSafe then (s2.wf mstStatus 31 30 2).aliveLow
      else (((s2.wf mstStatus 31 30 2).wf mstStatus 7 0 0).count evMstSafeEntry 0 0).safeStops)

/-- ALIVE_TOGGLE (R518): each half-period, FAULT_ALIVE toggles, or stays low. -/
def execAliveToggle (s : State) : Host.Outcome State Fault Refusal :=
  .next { s with mast := { s.mast with alivePin := s.rb mstStatus 28 && !s.inSafe && !s.mast.checkerFired && !s.mast.alivePin } }

/-- ISOLATION_RELEASE (R508, R509): a write of MST_ISO_CLR. -/
def State.isoRelease (s : State) (v : Word) : State :=
  let r := s.rd mstIsoStatus &&& v
  let s1 := s.wr mstIsoStatus (s.rd mstIsoStatus &&& ~~~v)
  s1.each (maskSlices (fld r 15 0)) State.sliceRestart

def execIsolationRelease (v : Word) (s : State) : Host.Outcome State Fault Refusal := .next (s.isoRelease v)

/-! ## Injection (R519, R520) -/

def State.testMode (s : State) : Bool := s.rb mstStatus 29

/-- The test key as written: test mode is active while the ball, the fuse and the key allow it (DESIGN CHOICE, safe: log entry 75). -/
def State.injKeyWrite (s : State) (k : Nat) : State :=
  let on := s.attic.testPin && s.attic.testFuse && k == Config.testKey % 2 ^ 64
  { s with mast := { s.mast with injectKey := k } }.putB mstStatus 29 on

/-- A write of MST_INJ_CTL. -/
def State.injCtlWrite (s : State) (v : Word) : State :=
  let k := fld v 26 24
  if !s.testMode then s
  else if 5 ≤ k then s.setB mstErr 0
  else
    let s1 := s.plainWrite mstInjCtl v
    if k = 3 then
      let x := s1.free 32
      let s2 := if srcReserved (fld v 23 16) then s1 else x.2.report (fld v 23 16) (fld v 15 0) (BitVec.ofNat 32 x.1)
      s2.wf mstInjCtl 26 24 0
    else s1

/-- INJECT_ONE_BIT (R520). -/
def execInjectOneBit (v : Word) (s : State) : Host.Outcome State Fault Refusal := .next (s.injCtlWrite (setFld v 26 24 1))
/-- INJECT_TWO_BITS (R520). -/
def execInjectTwoBits (v : Word) (s : State) : Host.Outcome State Fault Refusal := .next (s.injCtlWrite (setFld v 26 24 2))
/-- INJECT_REPORT (R520). -/
def execInjectReport (v : Word) (s : State) : Host.Outcome State Fault Refusal := .next (s.injCtlWrite (setFld v 26 24 3))
/-- INJECT_PARITY (R520). -/
def execInjectParity (v : Word) (s : State) : Host.Outcome State Fault Refusal := .next (s.injCtlWrite (setFld v 26 24 4))

/-! ## The log (R522) and the registers of window 0x01 -/

/-- A write of MST_LOG_SEL. -/
def State.logSelect (s : State) (v : Word) : State :=
  let n := fld v 30 0
  match s.mast.log.find? fun e => e.n == n with
  | none => s.wrN mstLogSel n
  | some e =>
    let s1 := s.each (upto 8) fun t i => t.wr (mstLogData i) (e.words.getD i 0)
    let log := s1.mast.log.map fun (x : LogEntry) => if x.n = n then { x with read := true } else x
    { s1.wrN mstLogSel (2 ^ 31 + n) with mast := { s1.mast with log := log } }

/-- LOG_SELECT (R522). -/
def execLogSelect (v : Word) (s : State) : Host.Outcome State Fault Refusal := .next (s.logSelect v)

/-- A value that R506 and R533 accept for a register of window 0x01. -/
def mstValueOk (a : Nat) (v : Word) : Bool :=
  let n := fld v 15 0
  if a = mstSafeCfg then decide (10 ≤ n ∧ n ≤ 60000)
  else if a = mstRecovCfg ∨ a = mstEscWindow then n != 0
  else if a = mstAliveCfg then decide (50 ≤ n ∧ n ≤ 50000)
  else if a = mstTemp then decide (60 ≤ fld v 7 0 ∧ fld v 7 0 ≤ 110)
  else if mstSrcCfg 0 ≤ a ∧ a < mstSrcCfg 256 then
    decide (fld v 31 29 ≤ 3 ∧ fld v 28 26 ≤ 3) && (srcClass ((a - mstSrcCfg 0) / 4) != 3 || fld v 31 29 == 3)
  else true

/-- A write of a register of window 0x01. -/
def State.mstRegWrite (s : State) (a : Nat) (v : Word) : State :=
  if a = mstSafeCtl then s.safeCtlWrite (fld v 1 0)
  else if a = mstLogSel then s.logSelect v
  else if a = mstIsoClr then s.isoRelease v
  else if a = mstInjCtl then s.injCtlWrite v
  else if mstValueOk a v then s.plainWrite a v
  else s.setB mstErr 0

/-! ## Counters (R523 to R530) -/

/-- What the counters of pair k hold: the counter and its extension. -/
def pairValue (l : Tbl (Nat × Nat)) (k : Nat) : Nat × Nat :=
  match l.find? fun p => pairOf p.1 == k with
  | some p => p.2
  | none => (0, 0)

/-- A write of CNT_DIR_SEL (R525). -/
def State.dirSelect (s : State) (v : Word) : State :=
  let s1 := s.plainWrite cntDirSel v
  let w := fld v 20 16
  let o := fld v 15 0
  match dirShape w o with
  | some (x, y) => (s1.wrN cntDirBase (2 ^ 31 + Config.counterBase (w * 256 + o) % 2 ^ 20)).wrN cntDirShape (x * 2 ^ 16 + y)
  | none => (s1.wrN cntDirBase 0).wrN cntDirShape 0

/-- COUNTER_DIRECTORY_SELECT (R525). -/
def execCounterDirectorySelect (v : Word) (s : State) : Host.Outcome State Fault Refusal := .next (s.dirSelect v)

/-- Marks cleared in the extension map: an unmarked slot holds 0 (R524). -/
def State.extClear (s : State) (w : Nat) (v : Word) : State :=
  let s1 := s.wr (cntExt w) (s.rd (cntExt w) &&& ~~~v)
  let ctrs := s1.mast.ctrs.map fun (p : Nat × Nat × Nat) =>
    if pairOf p.1 / 32 = w ∧ v.getLsbD (pairOf p.1 % 32) then (p.1, p.2.1, 0) else p
  { s1 with mast := { s1.mast with ctrs := ctrs } }

/-- The die whose bank holds an event's counters (R16, R528). -/
def dieOf (e o : Nat) : Nat :=
  let w := e / 256
  let outer := ((dirShape w (e % 256)).getD (1, 1)).1
  if outer ≤ 1 ∨ !((5 ≤ w && w ≤ 8) || (0x0B ≤ w && w ≤ 0x0E)) then 4 else min 3 (4 * o / outer)

/-- COUNTER_SCRUB (R528): the pair of an event's instance is read; `x` is what the check finds. -/
def execCounterScrub (ev o i : Nat) (x : Ecc) (s : State) : Host.Outcome State Fault Refusal :=
  let k := ctrKey ev o i
  let p := pairOf k
  let s1 := s.eccFlag .counter k x
  .next (match s1.eccOf .counter k with
    | .ok => s1
    | .corr => (s1.eccClear .counter k).report 0x34 (dieOf ev o) (BitVec.ofNat 32 p)
    | .uncorr =>
      let s2 := s1.eccClear .counter k
      ({ s2 with mast := { s2.mast with ctrs := tdel s2.mast.ctrs k } }.setWrap p).report 0x35 (dieOf ev o) (BitVec.ofNat 32 p))

/-- The bytes of a dump slot (R529). -/
def dumpSlot : Nat := 8392704

/-- The area lies wholly inside the tables or the host window partition. -/
def State.dumpArea (s : State) (a n align : Nat) : Bool := decide (a % align = 0) && s.inTablesOrHost a n

/-- A snapshot at T (R527, R529) (DESIGN CHOICE, unsafe: log entry 76). -/
def State.snapshot (s : State) (t : Nat) (manual : Bool) : State :=
  let slots := s.rf cntDumpCfg 31 24
  let base := s.rd64 cntDumpBaseLo
  let skip (u : State) : State :=
    { (u.count evCntDumpSkip 0 0).pulse 1285 with mast := { (u.count evCntDumpSkip 0 0).mast with snapSkipped := true } }
  if s.mast.snap.isSome then (if manual then s.setB cntDumpCtl 30 else skip s)
  else if !(s.dumpArea base (slots * dumpSlot) 4096) then (skip s).setB cntDumpCtl 29
  else
    let wraps := s.regs.filter fun (p : Nat × Word) => decide (cntWrap 0 ≤ p.1 ∧ p.1 < cntWrap 32768)
    let x : Snap :=
      { time := t, manual := manual, skipped := s.mast.snapSkipped, period := s.rf cntDumpCfg 13 0, slots := slots,
        base := base, ctrs := s.mast.ctrs, wraps := wraps.map fun (p : Nat × Word) => ((p.1 - cntWrap 0) / 4, p.2) }
    { s.setB cntDumpCtl 31 with mast := { s.mast with snap := some x, snapSkipped := false } }

/-- COUNTER_SNAPSHOT (R527): device time has reached the next multiple of PERIOD_MS ms. -/
def execCounterSnapshot (s : State) : Host.Outcome State Fault Refusal :=
  let p := s.rf cntDumpCfg 13 0 * 1000000
  if p = 0 ∨ s.ns / p * p ≤ s.mast.snapPeriod then .next s
  else .next ({ s with mast := { s.mast with snapPeriod := s.ns / p * p } }.snapshot (s.ns / p * p) false)

/-- SNAP_WRITE (R527). -/
def execSnapWrite (s : State) : Host.Outcome State Fault Refusal := .next (s.snapshot s.ns true)

/-- The number of bits set in a word. -/
def ones (w : Word) : Nat := ((upto 32).filter fun i => w.getLsbD i).length

/-- The header of a dump but for SEQ_END (R529). -/
def Snap.header (x : Snap) (seq : Nat) : List Byte :=
  let map := (upto 512).map fun i =>
    ((upto 8).map fun b => nat (x.wraps.any fun p => p.1 / 8 == 8 * i + b && p.2 != 0) * 2 ^ b).sum
  natLe 4 seq ++ natLe 4 (nat x.manual + 2 * nat x.skipped) ++ natLe 8 x.time ++ natLe 4 x.period ++ natLe 4 2097152 ++
    natLe 4 ((x.wraps.map fun p => ones p.2).sum) ++ List.replicate 36 0 ++ map.flatMap fun m => natLe 1 m

/-- A region of Cellar is overwritten whole with zeros by the counter dump: poison and errors go with it. -/
def State.dumpZero (s : State) (a n : Nat) : State :=
  let inside (b : Nat) : Bool := decide (a ≤ 32 * b ∧ 32 * b + 32 ≤ a + n)
  let s1 := (s.celZero a n).countBy evCelWr 0x17 0 (n / 256)
  { s1 with
    cel := { s1.cel with poison := s1.cel.poison.filter fun b => !(inside b) }
    ecc := s1.ecc.filter fun p => !(p.1 == EccMem.cellar && inside p.2.1) }

/-- View v of a snapshot (R530). -/
def State.viewWrite (s : State) (x : Snap) (seq v : Nat) : State :=
  if !(s.rb (cntViewCfg v) 31) then s else
  let pairs := (upto 8).flatMap fun r =>
    (upto (s.rf (cntViewRange v r) 31 20)).map (s.rf (cntViewRange v r) 19 0 + ·)
  let dest := s.rd64 (cntViewDestLo v)
  if !(s.dumpArea dest (68 + 8 * pairs.length) 64) then s.setB cntDumpCtl 29
  else
    let head := natLe 4 seq ++ natLe 1 v ++ natLe 1 0 ++ natLe 2 (s.rf (cntViewCfg v) 5 0) ++ natLe 4 pairs.length ++
      natLe 8 x.time ++ List.replicate 44 0
    let vals := pairs.flatMap fun k =>
      let y := pairValue x.ctrs k
      natLe 4 y.1 ++ natLe 4 (if s.rb (cntExt (k / 32)) (k % 32) then y.2 else 0)
    s.celWrite 0x17 dest (head ++ vals ++ natLe 4 seq)

/-- DUMP_COMPLETE (R529, R530): the dump of the snapshot is written to its slot, and then every enabled view. -/
def execDumpComplete (s : State) : Host.Outcome State Fault Refusal :=
  match s.mast.snap with
  | none => .next s
  | some x =>
    let seq := s.mast.dumpSeq
    let slot := x.base + seq % x.slots * dumpSlot
    let s1 := (s.dumpZero slot dumpSlot).celWrite 0x17 slot (x.header seq)
    let s2 := s1.each (x.ctrs.foldl (fun l p => sadd l (pairOf p.1 / 4)) []) fun t b =>
      t.celWrite 0x17 (slot + 4096 + 32 * b) ((upto 4).flatMap fun i =>
        natLe 4 (pairValue x.ctrs (4 * b + i)).1 ++ natLe 4 (pairValue x.ctrs (4 * b + i)).2)
    let s3 := (s2.celWrite 0x17 (slot + 4064) (List.replicate 28 0 ++ natLe 4 seq)).count evCntDump 0 0
    let s4 := s3.each (upto 64) fun t v => t.viewWrite x seq v
    .next ({ s4.putB cntDumpCtl 31 false with
      mast := { s4.mast with snap := none, dumpSeq := (seq + 1) % 2 ^ 32 } }.pulse 1284)

/-- A write of CNT_DUMP_CFG or of the dump base (R533). -/
def State.dumpCfgWrite (s : State) (a : Nat) (v : Word) : State :=
  let free := s.rf cntDumpCfg 13 0 == 0 && !(s.rb cntDumpCtl 31)
  let ok := if a = cntDumpCfg then
      fld v 31 24 != 0 && decide (fld v 13 0 ≤ 10000) && (fld v 31 24 == s.rf cntDumpCfg 31 24 || free)
    else free
  if ok then s.plainWrite a v else s.setB mstErr 0

/-- A write of a register of window 0x02. -/
def State.cntRegWrite (s : State) (a : Nat) (v : Word) : State :=
  if a = cntDumpCfg ∨ a = cntDumpBaseLo ∨ a = cntDumpBaseHi then s.dumpCfgWrite a v
  else if a = cntDumpCtl then (if v.getLsbD 0 then s.snapshot s.ns true else s)
  else if a = cntDirSel then s.dirSelect v
  else if cntExtClr 0 ≤ a ∧ a < cntExtClr 32768 then s.extClear ((a - cntExtClr 0) / 4) v
  else if cntViewCfg 0 ≤ a ∧ a < cntViewCfg 64 ∧ 0x10 ≤ (a - cntViewCfg 0) % 0x40 then
    if 2 ^ 20 < fld v 19 0 + fld v 31 20 then s.setB mstErr 0 else s.plainWrite a v
  else s.plainWrite a v

end Sys2Proof.Machine
end

