-- ==== Sys2Proof/Machine/AtticOps.lean ====
section
/-! DEFINITION. The boot flash, the control records and the checks of an image (R464 to R476, R480). -/

namespace Sys2Proof.Machine

/-! ## The flash (R464, R465) -/

/-- What an erased byte of the flash reads as (PRESUMED, unsafe: log entry 57). -/
def flashErased : Byte := 0xFF

/-- The size S of the flash. -/
def State.flashSize (s : State) : Nat := 2 ^ s.attic.flashLog2

def State.flashRead (s : State) (a n : Nat) : List Byte := memRead flashErased s.attic.flash a n

/-- Bytes of the flash take new values. -/
def State.flashPut (s : State) (a : Nat) (bs : List Byte) : State :=
  { s with attic := { s.attic with flash := memWrite flashErased s.attic.flash a bs } }

/-- Programming: only bits that are 1 become 0. -/
def State.flashProgram (s : State) (a : Nat) (bs : List Byte) : State :=
  s.flashPut a (List.zipWith (· &&& ·) (s.flashRead a bs.length) bs)

/-- Erasure: the bytes read as erased. -/
def State.flashErase (s : State) (a n : Nat) : State :=
  { s with attic := { s.attic with flash := memErase s.attic.flash a n } }

/-- A program or an erase that fails leaves free values. -/
def State.flashSpoil (s : State) (a n : Nat) : State :=
  let r := s.free (8 * n)
  r.2.flashPut a (natLe n r.1)

/-- The start of half c. -/
def State.half (s : State) (c : Nat) : Nat := c * (s.flashSize / 2)

/-- The bytes of a half before its slot. -/
def slotHead : Nat := 0x10000

/-- The first byte of slot c, and the bytes it has. -/
def State.slotAt (s : State) (c : Nat) : Nat := s.half c + slotHead
def State.slotLen (s : State) : Nat := s.flashSize / 2 - slotHead

/-! ## Control records (R466, R467) -/

/-- A control record. `try?` is the slot under trial. -/
structure CtlRec where
  seq : Nat
  active : Nat
  try? : Option Nat
  tries : Nat
  tally : Nat
deriving DecidableEq, Repr

/-- The control record of half c, where it is valid. -/
def State.ctlRec (s : State) (c : Nat) : Option CtlRec :=
  let b := s.flashRead (s.half c) 64
  let f (o n : Nat) : Nat := leNat (slice b o n)
  if f 0 4 = 0x544F4C53 ∧ f 4 4 ≠ 0xFFFFFFFF ∧ f 8 1 < 2 ∧
      f 60 4 = crc32c (slice b 0 12 ++ slice b 20 40) then
    some ⟨f 4 4, f 8 1, if f 9 1 < 2 then some (f 9 1) else none, f 10 1, f 12 8⟩
  else none

/-- The half whose record is valid and of higher SEQ. -/
def State.recHalf (s : State) : Option Nat :=
  match s.ctlRec 0, s.ctlRec 1 with
  | some a, some b => some (if a.seq < b.seq then 1 else 0)
  | some _, none => some 0
  | none, some _ => some 1
  | none, none => none

/-- The record in force; with no valid one, ACTIVE A and no trial. -/
def State.recNow (s : State) : CtlRec :=
  (s.recHalf.bind s.ctlRec).getD ⟨0, 0, none, 0, 2 ^ 64 - 1⟩

/-- The bytes of a record. -/
def CtlRec.bytes (r : CtlRec) : List Byte :=
  let lo := natLe 4 0x544F4C53 ++ natLe 4 r.seq ++ natLe 1 r.active ++ natLe 1 (r.try?.getD 0xFF) ++ natLe 1 r.tries ++ natLe 1 0
  let hi := List.replicate 40 0
  lo ++ natLe 8 r.tally ++ hi ++ natLe 4 (crc32c (lo ++ hi))

/-- A record written with SEQ + 1 into the block that holds the lower SEQ, erased first (R485). -/
def State.ctlWrite (s : State) (r : CtlRec) : State :=
  let c := match s.recHalf with | some h => 1 - h | none => 0
  ((s.flashErase (s.half c) 0x10000).flashProgram (s.half c) { r with seq := s.recNow.seq + 1 }.bytes)

/-- The zeros of a TALLY, and TALLY with its lowest bit that is 1 at 0. -/
def tallyZeros (t : Nat) : Nat := 64 - ((upto 64).filter fun i => t.testBit i).length
def tallyNext (t : Nat) : Nat := match (upto 64).find? fun i => t.testBit i with | some i => t - 2 ^ i | none => t

/-! ## The image (R468 to R474) -/

/-- Bytes of the image of slot c, and a little-endian field of it. -/
def State.img (s : State) (c o n : Nat) : List Byte := s.flashRead (s.slotAt c + o) n
def State.imgN (s : State) (c o n : Nat) : Nat := leNat (s.img c o n)

/-- Fields of the header (R468). -/
def State.imgSects (s : State) (c : Nat) : Nat := s.imgN c 14 2
def State.imgSvn (s : State) (c : Nat) : Nat := s.imgN c 20 1
def State.imgKey (s : State) (c : Nat) : Nat := s.imgN c 21 1
def State.imgFlag (s : State) (c i : Nat) : Bool := (s.imgN c 22 2).testBit i
def State.imgLen (s : State) (c : Nat) : Nat := s.imgN c 36 4

/-- An entry of the section table (R469). -/
structure Sect where
  typ : Nat
  flags : Nat
  off : Nat
  len : Nat
  dlist : Nat
  hash : Nat
deriving DecidableEq, Repr

def State.sect (s : State) (c i : Nat) : Sect :=
  let o := 256 + 64 * i
  ⟨s.imgN c o 1, s.imgN c (o + 1) 1, s.imgN c (o + 4) 4, s.imgN c (o + 8) 4, s.imgN c (o + 12) 4, beNat (s.img c (o + 16) 48)⟩

def State.sects (s : State) (c : Nat) : List Sect := (upto (s.imgSects c)).map (s.sect c)

/-- The blocks of a section (R470). -/
def Sect.blocks (x : Sect) : Nat := (x.len + 65535) / 65536

def State.sectBytes (s : State) (c : Nat) (x : Sect) : List Byte := s.img c x.off x.len

/-- The first check of a list that fails; 0 where none does (R480) (DEDUCED, unsafe: log entry 77). -/
def firstDefect : List (Bool × Nat) → Nat
  | [] => 0
  | (ok, d) :: t => if ok then firstDefect t else d

/-- FORMAT, PART and LENGTH: the header and the table's bounds. -/
def State.headerCheck (s : State) (c : Nat) : Nat :=
  let n (o k : Nat) : Nat := s.imgN c o k
  let rev := s.rdN atcDevid % 65536
  let inside (o k : Nat) : Bool := decide (o + k ≤ s.imgLen c)
  firstDefect
    [ (n 0 4 == 0x5852594C && n 4 2 == 1 && n 6 2 == 256, 2)
    , (decide (1 ≤ n 14 2 ∧ n 14 2 ≤ 64 ∧ n 21 1 ≤ 3 ∧ n 22 2 < 8 ∧ n 32 1 ≤ 1 ∧ n 40 1 < 16), 2)
    , (n 33 3 == 0 && n 41 7 == 0 && n 144 112 == 0, 2)
    , (n 8 2 == 0x7140 && decide (n 10 2 ≤ rev ∧ rev ≤ n 12 2), 3)
    , (decide (s.imgLen c ≤ s.slotLen) && inside 256 (64 * n 14 2 + 96), 4)
    , ((s.sects c).all fun x => inside x.off x.len && inside x.dlist (48 * x.blocks), 4) ]

/-- KEY, SIGNATURE and ROLLBACK (R471, R475, R476). -/
def State.signCheck (s : State) (c : Nat) : Nat :=
  let key := s.img c 48 96
  let slot := s.attic.keys.getD (s.imgKey c) KeySlot.reset
  let openPart := !(s.attic.keys.any (·.isSet))
  let n := 256 + 64 * s.imgSects c
  firstDefect
    [ (openPart || (slot.isSet && !slot.revoked && slot.hash == Config.sha384 key), 5)
    , (Config.ecdsaOk key (Config.sha384 (s.img c 0 n)) (s.img c n 96), 6)
    , (decide (s.attic.fuseSvn ≤ s.imgSvn c ∧ s.imgSvn c ≤ 128), 7) ]

/-- An entry of the section table is well formed (R469, R472, R474). -/
def State.entryOk (s : State) (c i : Nat) : Bool :=
  let x := s.sect c i
  decide (1 ≤ x.typ ∧ x.typ ≤ 8 ∧ x.flags < 4 ∧ x.len ≠ 0 ∧ x.off % 64 = 0 ∧ x.dlist % 64 = 0) &&
    (x.flags.testBit 1 == (x.typ == 6)) && !(x.typ == 6 && x.flags.testBit 0) && s.imgN c (256 + 64 * i + 2) 2 == 0

/-- The digest list and every block of a section (R470). -/
def State.digestOk (s : State) (c : Nat) (x : Sect) : Bool :=
  let l := s.img c x.dlist (48 * x.blocks)
  let b := s.sectBytes c x
  x.hash == Config.sha384 l &&
    (upto x.blocks).all fun k => beNat (slice l (48 * k) 48) == Config.sha384 ((b.drop (65536 * k)).take 65536)

/-- A partition under a value of CEL_PART that holds the bytes a ≤ x < a + n (R444, R472). -/
def partHolds (v a n : Nat) : Bool :=
  let size (k : Nat) : Nat := gib (bits v (8 * k + 7) (8 * k))
  (upto 4).any fun k =>
    let b := ((upto k).map size).sum
    decide (b ≤ a ∧ a + n ≤ b + size k)

/-- A CONFIG record: OP, ADDR, VALUE, MASK (R473). -/
structure CfgRec where
  op : Nat
  addr : Nat
  value : Nat
  mask : Nat
deriving DecidableEq, Repr

def cfgRec (b : List Byte) (k : Nat) : CfgRec :=
  let f (o : Nat) : Nat := leNat (slice b (16 * k + o) 4)
  ⟨f 0, f 4, f 8, f 12⟩

/-- The register is closed to CONFIG records (R473). -/
def cfgClosed (a : Nat) : Bool :=
  a < 0x1000000 || 0x11000000 ≤ a || a == celPart || a == celLock || a == lftCmd ||
    (upto 16).any (fun k => a == thrSliceCtl k || a == hlwSliceCtl k) ||
    (decide (lftEngCtl 0 ≤ a ∧ a ≤ lftEngCtl 511) && (a - lftEngCtl 0) % 16 == 0)

/-- The defect of a CONFIG record; 0 for none. -/
def CfgRec.check (r : CfgRec) : Nat :=
  if r.op = 3 then (if 1 ≤ r.value ∧ r.value ≤ 1000000 then 0 else 0x0A)
  else if (r.op = 1 ∨ r.op = 2) ∧ r.addr % 4 = 0 then (if cfgClosed r.addr then 0x0B else 0)
  else 0x0A

/-- Word k of a THR_STORE section (R472). -/
def thrWord (b : List Byte) (k : Nat) : BitVec 256 := BitVec.ofNat 256 (leNat (slice b (8 + 32 * k) 32))

/-- The form of a section's prefix and payload (R472 to R474); the records of a CONFIG section are checked as
they are reached. -/
def State.formCheck (s : State) (c : Nat) (x : Sect) : Nat :=
  let b := s.sectBytes c x
  let n (o k : Nat) : Nat := leNat (slice b o k)
  match x.typ with
  | 1 => if x.len % 16 = 0 then 0 else 0x0A
  | 2 => firstDefect
      [ (decide (8 ≤ x.len ∧ (x.len - 8) % 32 = 0 ∧ bits (n 0 8) 28 16 + (x.len - 8) / 32 ≤ 8192), 0x0A)
      , ((upto ((x.len - 8) / 32)).all fun k => ucCheck (thrWord b k) == 0, 0x0D) ]
  | 3 => if 16 ≤ x.len ∧ (x.len - 16) % 64 = 0 ∧ n 8 4 % 8 = 0 ∧ n 8 4 + (x.len - 16) / 8 ≤ 32768 ∧ n 12 4 = 0 then 0 else 0x0A
  | 4 => if 16 ≤ x.len ∧ (x.len - 16) % 64 = 0 ∧ n 8 4 % 64 = 0 ∧ n 8 4 + (x.len - 16) ≤ 262144 ∧ n 12 4 = 0 then 0 else 0x0A
  | 5 => firstDefect
      [ (decide (16 ≤ x.len ∧ n 0 8 % 256 = 0 ∧ n 8 8 = 0), 0x0A)
      , (partHolds (s.imgN c 28 4) (n 0 8) (x.len - 16), 0x0E) ]
  | 6 => firstDefect
      [ (decide (44 ≤ x.len ∧ x.len = 44 + n 4 4 ∧ n 8 8 = 0), 0x0A)
      , ((n 0 2 == 1 || n 0 2 == 2) &&
          Config.aesGcmOk (slice b 0 16) (slice b 16 12) (slice b 28 (n 4 4)) (slice b (28 + n 4 4) 16), 9) ]
  | 7 => if x.len % 8 = 0 ∧ x.len ≤ 131072 then 0 else 0x0A
  | _ => if x.len = 48 ∨ x.len = 96 ∨ x.len = 144 then 0 else 0x0A

/-- Digests and form of a section. -/
def State.sectCheck (s : State) (c : Nat) (x : Sect) : Nat :=
  if !(s.digestOk c x) then 8 else s.formCheck c x

/-- What AUTH checks: the header, the signature, the table, every PATCH section (R477). -/
def State.authCheck (s : State) (c : Nat) : Nat :=
  let h := s.headerCheck c
  if h ≠ 0 then h else
  let k := s.signCheck c
  if k ≠ 0 then k else
  firstDefect (((upto (s.imgSects c)).map fun i => (s.entryOk c i, 0x0A)) ++
    ((s.sects c).filter (·.typ == 6)).map fun x => (s.sectCheck c x == 0, s.sectCheck c x))

/-- A verification in full, as a boot would make it (R485). -/
def State.fullCheck (s : State) (c : Nat) : Nat :=
  let a := s.authCheck c
  if a ≠ 0 then a else
  firstDefect ((s.sects c).flatMap fun x =>
    (s.sectCheck c x == 0, s.sectCheck c x) ::
      (if x.typ = 1 then
        let b := s.sectBytes c x
        (upto (x.len / 16)).map fun k => ((cfgRec b k).check == 0, (cfgRec b k).check)
       else []))

/-- ATC_FUSE, as the fuses stand (DESIGN CHOICE, unsafe: log entry 9). -/
def State.fuseShow (s : State) : State :=
  let m (f : KeySlot → Bool) : Nat := ((upto 4).map fun i => nat (f (s.attic.keys.getD i KeySlot.reset)) * 2 ^ i).sum
  s.wrN atcFuse (m (·.revoked) * 2 ^ 20 + m (·.isSet) * 2 ^ 16 + s.attic.fuseSvn)

end Sys2Proof.Machine
end

