-- ==== Sys2Proof/Machine/Cellar.lean ====
section
/-! DEFINITION. The commands and events of Cellar (chapter 15, window 0x10). -/

namespace Sys2Proof.Machine

/-! ## Requests -/

/-- CELLAR_READ (R448): `e` is what the read finds in its first burst. -/
def execCellarRead (req addr len : Nat) (e : Ecc) (s : State) : Host.Outcome State Fault Refusal :=
  let p := (s.eccFlag .cellar (addr / 32) e).celRead req addr len
  .next (p.1.answer (match p.2 with | some bs => leNat bs | none => 0))

/-- CELLAR_WRITE (R447). -/
def execCellarWrite (req addr : Nat) (data : List Byte) (poison : Bool) (s : State) :
    Host.Outcome State Fault Refusal :=
  .next (s.each (pieces 256 (data.length / 256 + 2) addr data.length) fun t p =>
    t.celWrite1 req p.1 ((data.drop (p.1 - addr)).take p.2) poison)

/-! ## Refresh and self-refresh -/

/-- The banks of a stack. -/
def stackBanks (k : Nat) : Nat × Nat := (k * 2048, k * 2048 + 2048)

/-- BANK_REFRESH (R451, R454): the bank closes and its RAA count falls by RAAIMT (PRESUMED, unsafe: log entry 8). -/
def execBankRefresh (stack pch bank : Nat) (s : State) : Host.Outcome State Fault Refusal :=
  if s.rf (celStkStatus stack) 31 30 ≠ 0 then .next s else
  let b := (stack * 32 + pch) * 64 + bank
  let s1 := { s with cel := { s.cel with
    openRow := tdel s.cel.openRow b
    raa := tset 0 s.cel.raa b (tget 0 s.cel.raa b - s.cel.raaimt) } }
  .next (s1.count evCelRefresh stack 0)

/-- A stack enters self-refresh: every open row closes (R452). -/
def State.selfRefresh (s : State) (k : Nat) : State :=
  let (lo, hi) := stackBanks k
  let s1 := { s with cel := { s.cel with openRow := tclear s.cel.openRow lo hi } }
  ((s1.wf (celStkStatus k) 31 30 2).wf (celStkStatus k) 15 0 0).count evCelSrEntry k 0

/-- SELF_REFRESH_ENTRY (R28, R452, R490): in Dozing; an IDLE_US of 0 means that the stack never enters on its own. -/
def execSelfRefreshEntry (k : Nat) (s : State) : Host.Outcome State Fault Refusal :=
  if s.rf (celStkStatus k) 31 30 = 0 ∧ s.rf celSrCfg 15 0 ≠ 0 ∧ s.rf atcPwrStatus 31 30 = 1 then .next (s.selfRefresh k)
  else .next s

/-- SELF_REFRESH_EXIT (R453). -/
def execSelfRefreshExit (k : Nat) (s : State) : Host.Outcome State Fault Refusal :=
  let st := s.rf (celStkStatus k) 31 30
  let s1 := s.wf (celStkStatus k) 31 30 0
  .next (if st = 1 ∨ st = 2 then s1.count evCelSrWake k 0 else s1)

/-- SCRUB_WAKE (R461). -/
def execScrubWake (k : Nat) (s : State) : Host.Outcome State Fault Refusal :=
  if s.rf (celStkStatus k) 31 30 = 2 then
    .next (((s.wf (celStkStatus k) 31 30 0).wf (celStkStatus k) 15 0 64).count evCelScrubWake k 0)
  else .next s

/-- STACK_TEMPERATURE_CHANGE (R451): HOT from 85 °C, no longer HOT below 80 °C. -/
def execStackTemperatureChange (k temp : Nat) (s : State) : Host.Outcome State Fault Refusal :=
  let s1 := s.wf (celStkStatus k) 23 16 temp
  .next (if 85 ≤ temp then s1.putB (celStkStatus k) 29 true
    else if temp < 80 then s1.putB (celStkStatus k) 29 false else s1)

/-! ## Activation windows (R455) -/

/-- The requesters of bank `b` in this window with their activations. -/
def bankActs (acts : Tbl Nat) (b : Nat) : List (Nat × Nat) :=
  (acts.filter fun p => p.1 / 256 == b).map fun p => (p.1 % 256, p.2)

/-- The requester with the most activations; of equals the one of lowest ID. -/
def heaviest : List (Nat × Nat) → Nat × Nat
  | [] => (0, 0)
  | p :: t => if p.2 < (heaviest t).2 then heaviest t else p

/-- A throttle begins, or the one in force is extended. -/
def State.throttle (s : State) (b req : Nat) : State :=
  let stop := s.ns / 1000 + s.rf celActCfg 11 0
  let l := s.cel.throttles.filter fun t => !(t.bank == b && t.req == req)
  let a := b / 2048 * 256 + b / 64 % 32 * 1024
  let s1 := { s with cel := { s.cel with throttles := ⟨b, req, stop⟩ :: l } }
  ((s1.setB celErr 6).celLatch req 4 a (b % 64)).count evCelThrottle req 0

/-- ACTIVATION_WINDOW_END (R455): a bank over LIMIT throttles its heaviest requester. -/
def execActivationWindowEnd (s : State) : Host.Outcome State Fault Refusal :=
  let limit := s.rf celActCfg 31 24
  let banks := (tkeys s.cel.acts).foldl (fun l k => sadd l (k / 256)) []
  let overrun := banks.filter fun b => limit < ((bankActs s.cel.acts b).map (·.2)).sum
  let s1 := if limit = 0 then s else s.each overrun fun t b => t.throttle b (heaviest (bankActs s.cel.acts b)).1
  .next { s1 with cel := { s1.cel with
    acts := []
    throttles := s1.cel.throttles.filter fun t => decide (s.ns / 1000 < t.untilUs) } }

/-! ## Command parity (R456, R457) -/

/-- CA_PARITY_ALERT: the channel's unconfirmed commands are replayed in order; a fourth alert within
1 ms of the first fails the channel. -/
def execCaParityAlert (stack ch : Nat) (s : State) : Host.Outcome State Fault Refusal :=
  let p := stack * 32 + 2 * ch
  let cmds := (tget [] s.cel.retry p).reverse ++ (tget [] s.cel.retry (p + 1)).reverse
  let (n, t0) := tget (0, 0) s.cel.alerts (stack * 16 + ch)
  let (n1, t1) := if n = 0 ∨ t0 + 1000000 ≤ s.ns then (1, s.ns) else (n + 1, t0)
  let rows := cmds.foldl (fun m c => tput m (celBankId c.addr) (celRow c.addr))
    (tclear s.cel.openRow (p * 64) (p * 64 + 128))
  let s1 := { s with cel := { s.cel with
    openRow := rows, alerts := tput s.cel.alerts (stack * 16 + ch) (n1, t1) } }
  let s2 := (((s1.setB celErr 4).report 0x2B stack (celInfo 0 0 (stack * 256 + ch * 2048) 0)).count
    evCelCaAlert stack 0).countBy evCelCaReplayCmds stack 0 cmds.length
  .next (if 4 ≤ n1 then s2.channelFail stack ch else s2)

/-! ## Patrol scrub (R460) -/

/-- The address of block `i` of a pseudo-channel, the blocks in ascending address order. -/
def scrubAddr (stack pch i : Nat) : Nat :=
  stack * 2 ^ 8 + pch * 2 ^ 10 + i % 4 * 2 ^ 15 + i / 4 % 64 * 2 ^ 17 + i / 256 % 16384 * 2 ^ 23

/-- Completed passes of every pseudo-channel. -/
def scrubPasses (pos : Tbl Nat) : Nat :=
  (upto 128).foldl (fun m p => min m (tget 0 pos p / 4194304)) (tget 0 pos 0 / 4194304)

/-- PATROL_SCRUB: the next block is read; `e` is what the check finds in its first burst. -/
def execPatrolScrub (stack pch : Nat) (e : Ecc) (s : State) : Host.Outcome State Fault Refusal :=
  if !(s.rb celScrubCtl 0) then .next s else
  let p := stack * 32 + pch
  let i := tget 0 s.cel.scrubPos p
  let a := scrubAddr stack pch i
  let s1 := (s.eccFlag .cellar (a / 32) e).each (upto 8) fun t j => t.celCheck 0x18 (a / 32 + j)
  let pos := tput s1.cel.scrubPos p (i + 1)
  .next ({ s1 with cel := { s1.cel with scrubPos := pos } }.wrN celScrubStatus (scrubPasses pos))

/-! ## Registers (R462) -/

/-- CEL_PART_WRITE (R445): discarded while LOCKED, or where it breaks R444. -/
def State.celPartWrite (s : State) (v : Word) : State :=
  let host := fld v 31 24; let pools := fld v 23 16; let tables := fld v 15 8; let spill := fld v 7 0
  if !(s.rb celLock 0) && decide (spill ≤ 128 ∧ 1 ≤ tables ∧ tables ≤ 128 ∧ pools ≤ 32 ∧ host ≤ 32
      ∧ spill + tables + pools + host ≤ 128) then s.wr celPart v
  else s.setB celErr 0

def execCelPartWrite (v : Word) (s : State) : Host.Outcome State Fault Refusal := .next (s.celPartWrite v)

/-- CEL_LOCK_WRITE (R445): a write of 0 is discarded. -/
def State.celLockWrite (s : State) (v : Word) : State :=
  if v.getLsbD 0 then s.setB celLock 0 else s.setB celErr 0

def execCelLockWrite (v : Word) (s : State) : Host.Outcome State Fault Refusal := .next (s.celLockWrite v)

/-- A write of a Cellar register. -/
def State.celRegWrite (s : State) (a : Nat) (v : Word) : State :=
  if a = celPart then s.celPartWrite v
  else if a = celLock then s.celLockWrite v
  else if a = celActCfg then
    if fld v 23 12 = 0 ∨ fld v 11 0 = 0 then s.setB celErr 0 else s.plainWrite a v
  else s.plainWrite a v

end Sys2Proof.Machine
end

