-- ==== Sys2Proof/Machine/Boot.lean ====
section
/-! DEFINITION. Start-up and the resets of the whole part (R467, R477 to R483, R494, R495, R497). -/

namespace Sys2Proof.Machine

/-! ## What a reset of the part leaves (R497, R532) -/

/-- The part at reset but for the model's own records, the flash, the fuses, the pins and JTAG. -/
def State.blank (s : State) : State :=
  let a := s.attic
  { State.reset with
    cycles := s.cycles
    freeCtr := s.freeCtr
    outbox := s.outbox
    pending := s.pending
    attic := { Attic.reset with
      flash := a.flash, flashLog2 := a.flashLog2, fuseSvn := a.fuseSvn, keys := a.keys, testFuse := a.testFuse, testPin := a.testPin, strapSlot := a.strapSlot, strapFlash := a.strapFlash, perstN := a.perstN, bootFrom := s.cycles, jtagIr := a.jtagIr, jtagDr := a.jtagDr }
    dwy := { Dwy.reset with perstRose := s.dwy.perstRose } }

/-- The registers that straps, fuses and the flash give (R501), and stage and cause. -/
def State.bootRegs (s : State) (stage cause : Nat) : State :=
  let s1 := (s.wrN atcStraps (s.attic.strapSlot * 4 + s.attic.strapFlash)).fuseShow
  (s1.wf atcFlStatus 15 8 s.attic.flashLog2).wrN atcBootStatus (stage * 2 ^ 28 + cause * 2 ^ 20)

/-- A flash program or erase that is cut off leaves free values where it acted (R552). -/
def State.flashCut (s : State) : State :=
  match s.attic.flCmd with
  | some (2, a) => s.flashSpoil a 256
  | some (3, a) => s.flashSpoil a 4096
  | some (4, a) => s.flashSpoil a 65536
  | _ => s

/-- A cold start (R495, R497). -/
def State.coldStart (s : State) (slotStrap flashStrap : Nat) (testPin : Bool) : State :=
  let b := s.flashCut.blank
  { b with attic := { b.attic with testPin := testPin, strapSlot := slotStrap % 4, strapFlash := flashStrap % 4 } }.bootRegs 1 0

/-- COLD_START (R495, R541, R552): RESET_N has been pulsed, or power applied. -/
def execColdStart (slotStrap flashStrap : Nat) (testMode : Bool) (s : State) : Host.Outcome State Fault Refusal :=
  .next (s.coldStart slotStrap flashStrap testMode)

/-- VDD_AON_LOSS (R544): a cold start, as though RESET_N had been pulsed; the pins stand as they did. -/
def execVddAonLoss (s : State) : Host.Outcome State Fault Refusal :=
  .next (s.coldStart s.attic.strapSlot s.attic.strapFlash s.attic.testPin)

/-- What a device restart keeps beyond a cold start: device time, the log, the recoveries, the monitors, test mode. -/
def State.restart (s : State) : State :=
  let b := s.blank
  let t := { b with
    time := s.time
    mast := { b.mast with
      log := s.mast.log, recov := s.mast.recov, mons := s.mast.mons, injectKey := s.mast.injectKey }
    attic := { b.attic with sbDyn := s.attic.sbDyn } }
  let t1 := [atcTimeIncr, mstLogNext, mstRecov, mstMon].foldl (fun (u : State) a => u.wr a (s.rd a)) t
  (t1.putB mstStatus 29 (s.rb mstStatus 29)).bootRegs 1 1

/-- A device restart; one that comes during a flash command waits for its end (R484). -/
def State.deviceRestart (s : State) : State :=
  if s.attic.flCmd.isSome then { s with attic := { s.attic with restartDeferred := true } } else s.restart

/-- DEVICE_RESTART (R495). -/
def execDeviceRestart (s : State) : Host.Outcome State Fault Refusal := .next s.deviceRestart

/-! ## Defects (R480) -/

/-- The register is Masthead or counter configuration, which an image loads (R532). -/
def mastConfig (a : Nat) : Bool :=
  decide (mstSrcCfg 0 ≤ a ∧ a ≤ mstSrcCfg 255) || a == mstSafeCfg || a == mstRecovCfg || a == mstAliveCfg || a == mstEscWindow || a == mstTemp ||
    (a / 0x1000000 == 2 && !(decide (cntWrap 0 ≤ a ∧ a < cntWrap 32768)))

/-- Every domain but Attic back at reset, with what Masthead keeps of its own (R532): a slot's work undone (DESIGN CHOICE, unsafe: log entry 78). -/
def State.undoSlot (s : State) : State :=
  let regs := s.regs.filter fun (p : Nat × Word) => decide (p.1 < 0x3000000) && !(mastConfig p.1)
  { s.blank with
    regs := regs
    rdata := s.rdata
    time := s.time
    mast := s.mast
    attic := { s.attic with mem := [] } }

def State.stage (s : State) : Nat := s.rf atcBootStatus 31 28
def State.setStage (s : State) (n : Nat) : State := s.wf atcBootStatus 31 28 n
def State.setBoot (s : State) (b : Boot) : State := { s with attic := { s.attic with boot := b } }

/-- The defect of slot c recorded. -/
def State.slotDefect (s : State) (c d : Nat) : State :=
  (s.wf atcBootErr (8 * c + 7) (8 * c) d).count evAtcSlotDefect c 0

/-- A check of the slot in hand has failed: its work is undone, and the next slot of the order goes on from AUTH;
when none remains, boot has FAILED. -/
def State.bootDefect (s : State) (d : Nat) : State :=
  let c := s.attic.boot.order.headD 0
  let s1 := (s.slotDefect c d).undoSlot
  let rest := s.attic.boot.order.drop 1
  let s2 := s1.setBoot { Boot.reset with order := rest, wake := s.attic.boot.wake }
  if rest.isEmpty then
    let s3 := if s2.rf atcPwrStatus 31 30 = 3 then (s2.wf atcPwrStatus 31 30 0).wf atcPwrCtl 1 0 0 else s2
    ((s3.setStage 9).putB mstStatus 28 false).report 0x31 0 (s3.rd atcBootErr)
  else s2.setStage 3

/-! ## The stages (R467, R477, R478) -/

/-- FLASH ends: the order of the slots; `ok` is that the flash answers, `progOk` that a tally bit takes. -/
def State.flashStage (s : State) (ok progOk : Bool) : State :=
  let r := s.recNow
  let go (t : State) (l : List Nat) : State := (t.setBoot { s.attic.boot with order := l }).setStage 3
  let s1 := if s.attic.boot.wake then s.setStage 3
    else if s.attic.strapSlot = 1 then go s [0]
    else if s.attic.strapSlot = 2 then go s [1]
    else
      match r.try? with
      | some c =>
        if tallyZeros r.tally < r.tries then
          if progOk then
            go (s.flashProgram (s.half (s.recHalf.getD 0) + 12) (natLe 8 (tallyNext r.tally))) [c, r.active]
          else (go s [r.active]).slotDefect c 1
        else go s [r.active, 1 - r.active]
      | none => go s [r.active, 1 - r.active]
  if ok then s1 else
  s1.attic.boot.order.foldl (fun (t : State) _ => t.bootDefect 1) s1

/-- AUTH ends: every check of the header, the table, the signature and the PATCH sections. -/
def State.authStage (s : State) : State :=
  let c := s.attic.boot.order.headD 0
  let d := s.authCheck c
  if d ≠ 0 then s.bootDefect d else
  let r := s.recNow
  let trial := if s.attic.boot.wake then s.rb atcBootStatus 26
    else s.attic.strapSlot == 0 && r.try? == some c && s.attic.boot.order.length == 2
  let s1 := ((s.wf atcBootStatus 27 27 c).putB atcBootStatus 26 trial).putB atcBootStatus 25 (!(s.attic.keys.any (·.isSet)))
  (((s1.putB atcBootStatus 24 (s.imgFlag c 2)).wrN atcBootImage (s.imgN c 16 4)).setStage 4)

/-- CELLAR ends: CEL_PART written and locked, HBM trained or out of self-refresh; on a wake the Crowsnest state
saved in R493 is restored. -/
def State.cellarStage (s : State) (ok : Bool) : State :=
  let c := s.attic.boot.order.headD 0
  if !ok then s.bootDefect 0x0E else
  let s1 := if s.rb celLock 0 then s else (s.celPartWrite (BitVec.ofNat 32 (s.imgN c 28 4))).celLockWrite 1
  let s2 := s1.each (upto 4) fun t k => t.wf (celStkStatus k) 31 30 0
  let s3 := match s2.attic.saved with
    | some x =>
      let t := ((s2.wr crwEpoch x.epoch).wf crwMigStatus 3 0 (fld x.migStatus 3 0)).wr crwMigLeft x.left
      { t with attic := { t.attic with saved := none }, crw := { t.crw with marked := x.marked } }
    | none => s2
  s3.setStage 6

/-! ## Sections (R472, R478, R479) -/

/-- Words put into the Threshold stores, a row of them (R82, R472). -/
def State.loadThr (s : State) (b : List Byte) : State :=
  let m := leNat (slice b 0 2)
  let a := bits (leNat (slice b 0 4)) 28 16
  let s1 := s.each (upto ((b.length - 8) / 32)) fun t k => (t.ucPut (a + k) m (thrWord b k)).1
  s1.setBoot { s1.attic.boot with thrSlices := Nat.lor s1.attic.boot.thrSlices m }

/-- The lofts that a mask of 8 bytes names. -/
def maskLofts (b : List Byte) : List Nat := let m := leNat (slice b 0 8); (upto 64).filter fun l => m.testBit l

def State.loadIs (s : State) (b : List Byte) : State :=
  let i := leNat (slice b 8 4)
  let words := (upto ((b.length - 16) / 8)).map fun k => (i + k, BitVec.ofNat 64 (leNat (slice b (16 + 8 * k) 8)))
  s.each (maskLofts b) fun t l =>
    let m := words.foldl (fun (m : Tbl Word64) p => tset 0 m (32768 * l + p.1) p.2) t.lft.istore
    { t with lft := { t.lft with istore := m } }

def State.loadShared (s : State) (b : List Byte) : State :=
  let o := leNat (slice b 8 4)
  s.each (maskLofts b) fun t l =>
    { t with lft := { t.lft with shared := memWrite 0 t.lft.shared (262144 * l + o) (b.drop 16) } }

/-- The requester as which Attic writes CELLAR sections: none of R446 (DESIGN CHOICE, unsafe: log entry 58). -/
def bootRequester : Nat := 0x1F

/-- A section that is not CONFIG applied. -/
def State.applySection (s : State) (x : Sect) (b : List Byte) : State :=
  match x.typ with
  | 2 => s.loadThr b
  | 3 => s.loadIs b
  | 4 => s.loadShared b
  | 5 => s.celApply bootRequester (leNat (slice b 0 8)) (b.drop 16) false
  | 7 =>
    let t := s.setBoot { s.attic.boot with code := true }
    { t with attic := { t.attic with mem := memWrite 0 t.attic.mem 0 b } }
  | _ => s

/-- The section is passed over in SECTIONS: a PATCH was applied in AUTH; COLD_ONLY on a wake. -/
def State.skipSection (s : State) (x : Sect) : Bool := x.typ == 6 || (s.attic.boot.wake && x.flags.testBit 0)

/-- The image in hand, and the section reached. -/
def State.bootSlot (s : State) : Nat := s.attic.boot.order.headD 0
def State.bootSect (s : State) : Sect := s.sect s.bootSlot s.attic.boot.sect

/-- Sections are applied in table order up to a CONFIG section with records left; a defect ends it. -/
def State.loadSections : Nat → State → State
  | 0, s => s
  | n + 1, s =>
    let c := s.bootSlot
    let bt := s.attic.boot
    if s.imgSects c ≤ bt.sect then s else
    let x := s.bootSect
    let next := { bt with sect := bt.sect + 1, record := 0, waiting := false }
    if s.skipSection x then State.loadSections n (s.setBoot next) else
    let d := s.sectCheck c x
    if d ≠ 0 then (if d = 0x0D then s.count evThrUcReject 0 0 else s).bootDefect d
    else if x.typ = 1 then
      if bt.record < x.len / 16 then s else State.loadSections n (s.setBoot next)
    else
      let t := s.applySection x (s.sectBytes c x)
      State.loadSections n (t.setBoot { t.attic.boot with sect := bt.sect + 1, record := 0, waiting := false })

/-- The sections up to the next CONFIG record. -/
def State.toRecord (s : State) : State := State.loadSections 65 s

/-- Every section has been applied. -/
def State.sectionsDone (s : State) : Bool := decide (s.imgSects s.bootSlot ≤ s.attic.boot.sect)

/-- The sections of the reserved lofts have all been applied, and there are reserved lofts (R479). -/
def State.reservedReady (s : State) : Bool :=
  let c := s.bootSlot
  s.rf lftCrwCfg 18 16 != 0 && !s.attic.boot.reservedStarted &&
    (upto (s.imgSects c)).all fun i =>
      let x := s.sect c i
      decide (i < s.attic.boot.sect) || s.skipSection x || !(x.typ == 3 || x.typ == 4) ||
        !((maskLofts (s.sectBytes c x)).any fun l => s.loftReserved l)

/-- RESERVED_LOFT_START (R479). -/
def execReservedLoftStart (s : State) : Host.Outcome State Fault Refusal :=
  if s.stage = 6 ∧ s.reservedReady then
    .next (s.startReserved.setBoot { s.attic.boot with reservedStarted := true })
  else .next s

/-! ## START (R481) -/

/-- START: RUN of the slices loaded, the engines with BOOT, the reserved lofts, the Attic controller, the power
target, DONE. -/
def State.startStage (s : State) : State :=
  let c := s.bootSlot
  let bt := s.attic.boot
  let s1 := s.each (maskSlices bt.thrSlices) fun t sl => (t.setB (thrSliceCtl sl) 0).setB (hlwSliceCtl sl) 0
  let s2 := s1.each (upto 512) fun t e =>
    if t.rb (lftEngCfg e) 31 ∧ !(t.loftReserved (e / 8)) ∧ t.rf (lftEngStatus e) 31 30 = 1 then t.engineStart e else t
  let s3 := if bt.reservedStarted then s2 else s2.startReserved
  let s4 := if bt.code then (s3.setThr atcThread { Thread.init with state := 1 }).wrN atcCtrl (2 ^ 30) else s3.wrN atcCtrl (2 ^ 31)
  let power := s.imgN c 32 1
  let s5 := (s4.wf atcPwrCtl 1 0 power).wf atcPwrStatus 31 30 power
  let ms := (s.cycles - s.attic.bootFrom) * 40 / 1000000
  let s6 := (((s5.wf atcBootStatus 15 0 (min 65535 ms)).setStage 8).pulse 1344).count evAtcBoot 0 0
  let s7 := if bt.wake then s6.pulse 1347 else s6
  let s8 := { s7 with attic := { s7.attic with doneFrom := s7.cycles, boot := { bt with wake := false, order := [c] } } }
  let s9 := s8.putB mstStatus 28 (!s8.inSafe)
  if power = 1 then s9.each (upto 64) State.gateLoft else s9

/-- BOOT_STAGE_END (R477): the stage in hand ends. `ok` is what the flash, the clocks or HBM training give, and
`progOk` whether a tally bit takes. While the SUPPLY condition of MST_MON holds, no stage ends (R544). -/
def execBootStageEnd (ok progOk : Bool) (s : State) : Host.Outcome State Fault Refusal :=
  if s.rb mstMon 3 then .next s else
  .next (match s.stage with
    | 1 => if s.attic.strapSlot = 3 then s.setStage 10 else s.setStage 2
    | 2 => s.flashStage ok progOk
    | 3 => s.authStage
    | 4 => if ok then s.setStage 5 else s
    | 5 => s.cellarStage ok
    | 6 =>
      let t := s.toRecord
      if t.stage = 6 ∧ t.sectionsDone then t.setStage 7 else t
    | 7 => s.startStage
    | _ => s)

end Sys2Proof.Machine
end

