-- ==== Sys2Proof/Machine/Attic.lean ====
section
/-! DEFINITION. Attic (R484 to R501, R553, R554, window 0x00): flash commands, slots, device time, power states, resets,
the sideband's address and JTAG. -/

namespace Sys2Proof.Machine

/-! ## Flash commands (R484) -/

/-- The unit of a flash command. -/
def flUnit (op : Nat) : Nat := match op with | 3 => 4096 | 4 => 65536 | _ => 256

/-- A command touches a control block, or the slot booted in DONE. -/
def State.flProtected (s : State) (a n : Nat) : Bool :=
  let hit (lo len : Nat) : Bool := decide (a < lo + len ∧ lo < a + n)
  hit (s.half 0) 0x10000 || hit (s.half 1) 0x10000 ||
    (s.stage == 8 && hit (s.slotAt (s.rf atcBootStatus 27 27)) s.slotLen)

/-- A write of ATC_FL_CMD. -/
def State.flCmdWrite (s : State) (v : Word) : State :=
  let op := fld v 30 28
  let a := fld v 27 0
  let n := flUnit op
  if s.rb atcFlCmd 31 then s.setB atcFlStatus 0
  else if 5 ≤ op then s.setB atcFlStatus 1
  else
    let s1 := s.plainWrite atcFlCmd v
    let res (r : Nat) : State := s1.wf atcFlStatus 31 24 r
    if op = 0 then s1
    else if !(s.stage = 8 ∨ s.stage = 9 ∨ s.stage = 10) then res 5
    else if a % n ≠ 0 then res 2
    else if s.flashSize < a + n then res 3
    else if s.flProtected a n then res 1
    else { s1.setB atcFlCmd 31 with attic := { s1.attic with flCmd := some (op, a) } }

/-- The word of ATC_FL_CMD with OP and ADDR. -/
def flWord (op a : Nat) : Word := BitVec.ofNat 32 (op * 2 ^ 28 + a % 2 ^ 28)

/-- FL_READ (R484). -/
def execFlRead (a : Nat) (s : State) : Host.Outcome State Fault Refusal := .next (s.flCmdWrite (flWord 1 a))
/-- FL_PROGRAM (R484). -/
def execFlProgram (a : Nat) (s : State) : Host.Outcome State Fault Refusal := .next (s.flCmdWrite (flWord 2 a))
/-- FL_ERASE_4K (R484). -/
def execFlErase4k (a : Nat) (s : State) : Host.Outcome State Fault Refusal := .next (s.flCmdWrite (flWord 3 a))
/-- FL_ERASE_64K (R484). -/
def execFlErase64k (a : Nat) (s : State) : Host.Outcome State Fault Refusal := .next (s.flCmdWrite (flWord 4 a))

/-- What the command in hand does at the flash. A read that fails leaves ATC_FL_DATA as it was; a program or an erase
that fails leaves free values. -/
def State.flPerform (s : State) (op a : Nat) (ok : Bool) : State :=
  match op, ok with
  | 1, true => s.wrWide (atcFlData 0) 64 (leNat (s.flashRead a 256))
  | 2, true => s.flashProgram a (natLe 256 (s.rdWide (atcFlData 0) 64))
  | 1, false => s
  | 2, false => s.flashSpoil a 256
  | _, true => s.flashErase a (flUnit op)
  | _, false => s.flashSpoil a (flUnit op)

/-- FLASH_COMMAND_END (R484): the command ends, and a device restart that waited for it takes effect. -/
def execFlashCommandEnd (ok : Bool) (s : State) : Host.Outcome State Fault Refusal :=
  match s.attic.flCmd with
  | none => .next s
  | some (op, a) =>
    let s1 := (((s.flPerform op a ok).putB atcFlCmd 31 false).wf atcFlStatus 31 24 (if ok then 0 else 4)).pulse 1348
    let s2 := { s1 with attic := { s1.attic with flCmd := none, restartDeferred := false } }
    .next (if s.attic.restartDeferred then s2.restart else s2)

/-! ## Slots (R485, R486) -/

/-- The KEYS section of an image: its hashes. -/
def State.imgKeys (s : State) (c : Nat) : List Nat :=
  match (s.sects c).find? (·.typ == 8) with
  | some x => let b := s.sectBytes c x; (upto (x.len / 48)).map fun k => beNat (slice b (48 * k) 48)
  | none => []

/-- The fuse actions of a confirmation, by the booted image. -/
def State.fuseAct (s : State) (c : Nat) : State :=
  let a := s.attic
  let svn := if s.imgFlag c 0 then max a.fuseSvn (s.imgSvn c) else a.fuseSvn
  let prov := s.imgFlag c 1 && !(a.keys.any (·.isSet))
  let more := s.imgKeys c
  let keys1 := if prov then (upto 4).map fun i =>
      let old := a.keys.getD i KeySlot.reset
      if i = 0 then { old with hash := Config.sha384 (s.img c 48 96), isSet := true }
      else match more[i - 1]? with
        | some h => { old with hash := h, isSet := true }
        | none => old
    else a.keys
  let revoke := s.imgN c 40 1
  let keys2 := (upto 4).map fun i =>
    let k := keys1.getD i KeySlot.reset
    if revoke.testBit i ∧ i ≠ s.imgKey c then { k with revoked := true } else k
  { s with attic := { a with fuseSvn := svn, keys := keys2 } }.fuseShow

/-- Fuse actions that fail: how far they came is free. -/
def State.fuseFail (s : State) (c : Nat) : State :=
  let t := s.fuseAct c
  let r := s.free 8
  let q := r.2.free 1
  let svn := s.attic.fuseSvn + r.1 % (t.attic.fuseSvn - s.attic.fuseSvn + 1)
  { q.2 with attic := { s.attic with fuseSvn := svn, keys := if q.1 = 1 then t.attic.keys else s.attic.keys } }.fuseShow

/-- A control record that cannot be written leaves free values in its block. -/
def State.ctlFail (s : State) : State :=
  s.flashSpoil (s.half (match s.recHalf with | some h => 1 - h | none => 0)) 64

/-- CONFIRM; the answer is RESULT. `ok` is what the flash gives, `fuseOk` the fuses. -/
def State.confirm (s : State) (ok fuseOk : Bool) : State × Nat :=
  let c := s.rf atcBootStatus 27 27
  let trial := s.rb atcBootStatus 26
  if trial ∧ !ok then (s.ctlFail, 3) else
  let s1 := if trial then
      (s.ctlWrite { s.recNow with active := c, try? := none, tally := 2 ^ 64 - 1 }).putB atcBootStatus 26 false
    else s
  if fuseOk then (s1.fuseAct c, 0) else (s1.fuseFail c, 5)

/-- A write of ATC_SLOT_CTL; `ok` and `fuseOk` are what the flash and the fuses give (DEDUCED, unsafe: log entry 79). -/
def State.slotCtlWrite (s : State) (v : Word) (ok fuseOk : Bool) : State :=
  let tries := fld v 26 24
  let res (t : State) (r : Nat) : State := (t.wf atcSlotCtl 23 16 r).pulse 1349
  if s.rb atcSlotCtl 31 then s
  else if tries = 0 then res s 4
  else
    let s1 := s.plainWrite atcSlotCtl v
    match fld v 30 29 with
    | 1 =>
      let c := 1 - s1.rf atcBootStatus 27 27
      let d := s1.fullCheck c
      if d ≠ 0 then res (s1.slotDefect c d) 2
      else if ok then res (s1.ctlWrite { s1.recNow with try? := some c, tries := tries, tally := 2 ^ 64 - 1 }) 0
      else res s1.ctlFail 3
    | 2 =>
      if s1.stage ≠ 8 then res s1 1 else
      let p := s1.confirm ok fuseOk
      res p.1 p.2
    | 3 =>
      if s1.stage ≠ 8 ∨ s1.recNow.try? = none then res s1 1
      else if ok then res ((s1.ctlWrite { s1.recNow with try? := none }).putB atcBootStatus 26 false) 0
      else res s1.ctlFail 3
    | _ => s1

/-- The word of ATC_SLOT_CTL with OP and TRIES. -/
def slotWord (op tries : Nat) : Word := BitVec.ofNat 32 (op * 2 ^ 29 + tries % 8 * 2 ^ 24)

/-- SLOT_TRY (R485). -/
def execSlotTry (tries : Nat) (ok : Bool) (s : State) : Host.Outcome State Fault Refusal :=
  .next (s.slotCtlWrite (slotWord 1 tries) ok true)
/-- SLOT_CONFIRM (R485). -/
def execSlotConfirm (tries : Nat) (ok fuseOk : Bool) (s : State) : Host.Outcome State Fault Refusal :=
  .next (s.slotCtlWrite (slotWord 2 tries) ok fuseOk)
/-- SLOT_REVERT (R485). -/
def execSlotRevert (tries : Nat) (ok : Bool) (s : State) : Host.Outcome State Fault Refusal :=
  .next (s.slotCtlWrite (slotWord 3 tries) ok true)

/-- AUTO_CONFIRM (R486): the part has been in DONE for CONFIRM_S seconds without safe state. -/
def execAutoConfirm (ok fuseOk : Bool) (s : State) : Host.Outcome State Fault Refusal :=
  let n := s.imgN (s.rf atcBootStatus 27 27) 24 4
  if s.stage = 8 ∧ s.rb atcBootStatus 26 ∧ !s.inSafe ∧ n ≠ 0 ∧ s.attic.doneFrom + n * 25000000 ≤ s.cycles then
    .next (s.confirm ok fuseOk).1
  else .next s

/-! ## Device time (R487, R488) -/

/-- The most by which a slew changes the gain of one Attic cycle: 2.5 ns. -/
def slewMax : Int := 41943040

/-- TIME_TICK (R487, R488): one Attic cycle. A value set steps device time; else it gains INCR and its share of a
slew (DESIGN CHOICE, unsafe: log entry 4) (DEDUCED, unsafe: log entry 80). -/
def execTimeTick (s : State) : Host.Outcome State Fault Refusal :=
  let s0 := { s with cycles := s.cycles + 1 }
  match s.attic.timeSet with
  | some v =>
    .next ({ ((s0.putB atcTimeStatus 31 false).setB atcTimeStatus 30).count evAtcTimeStep 0 0 with
      time := v * 2 ^ 24
      attic := { s.attic with timeSet := none, slew := 0 } }.pulse 1350)
  | none =>
    let d := max (-slewMax) (min slewMax s.attic.slew)
    let left := s.attic.slew - d
    .next { s0.putB atcTimeStatus 31 (left != 0) with
      time := (Int.toNat (s.time + s.rdN atcTimeIncr + d)) % 2 ^ 88
      attic := { s.attic with slew := left } }

/-- A write of ATC_TIME_ADJ: a slew begins, in place of what is left of the old. -/
def State.timeAdjWrite (s : State) (v : Word) : State :=
  let d : Int := v.toInt * 2 ^ 24
  { s.putB atcTimeStatus 31 (d != 0) with attic := { s.attic with slew := d } }

/-- TIME_ADJ_WRITE (R488). -/
def execTimeAdjWrite (v : Word) (s : State) : Host.Outcome State Fault Refusal := .next (s.timeAdjWrite v)

/-- A write of ATC_TIME_INCR: discarded outside 1 %. -/
def State.timeIncrWrite (s : State) (v : Word) : State :=
  if 0x2799999A ≤ v.toNat ∧ v.toNat ≤ 0x28666666 then s.wr atcTimeIncr v else s

/-- TIME_INCR_WRITE (R487). -/
def execTimeIncrWrite (v : Word) (s : State) : Host.Outcome State Fault Refusal := .next (s.timeIncrWrite v)

/-- The pair ATC_TIME_SET written: it takes effect at the next Attic cycle. -/
def State.timeSetPair (s : State) (v : Nat) : State := { s with attic := { s.attic with timeSet := some v } }

/-! ## Power states (R490 to R494) -/

/-- The part is fully Shuttered. -/
def State.shuttered (s : State) : Bool := s.attic.saved.isSome && s.rf atcPwrStatus 31 30 == 2

/-- A stack leaves self-refresh as its domain wakes. -/
def State.wakeStack (s : State) (k : Nat) : State :=
  let st := s.rf (celStkStatus k) 31 30
  if st = 1 ∨ st = 2 then (s.wf (celStkStatus k) 31 30 0).count evCelSrWake k 0 else s

/-- A Gallery, Larder or Crowsnest job or build runs, or a migration that a Shuttered entry may not meet. -/
def State.jobsRun (s : State) : Bool :=
  s.gal.job.isSome || s.lrd.job.isSome || s.crw.build.isSome || s.crw.mig.isSome ||
    !(s.rf crwMigStatus 2 0 == 0 || s.rf crwMigStatus 2 0 == 2)

/-- A Shuttered entry begins: every port goes down at its next frame boundary. -/
def State.shutterBegin (s : State) : State :=
  let s1 := (s.wf atcPwrCtl 1 0 2).wf atcPwrStatus 31 30 2
  s1.each (upto 512) fun t n => if t.portEnabled n then t.portCfgWrite n (setFld (t.rd (pchPortCfg n)) 0 0 0) else t

/-- A write of ATC_PWR_CTL. -/
def State.powerWrite (s : State) (v : Word) : State :=
  let t := fld v 1 0
  let refuse := s.setB atcPwrStatus 29
  if t = 3 then s
  else if s.shuttered then s.wf atcPwrCtl 1 0 t
  else if 2 ≤ s.rf atcPwrStatus 31 30 then refuse
  else if t = 2 then (if s.jobsRun || s.inSafe then refuse else s.shutterBegin)
  else
    let s1 := (s.wf atcPwrCtl 1 0 t).wf atcPwrStatus 31 30 t
    if t = 1 then s1.each (upto 64) State.gateLoft
    else ((s1.each (upto 16) State.wakeSlice).each (upto 64) State.wakeLoft).each (upto 4) State.wakeStack

/-- POWER_TARGET_WRITE (R490, R493). -/
def execPowerTargetWrite (v : Word) (s : State) : Host.Outcome State Fault Refusal := .next (s.powerWrite v)

/-- The registers that stand in Shuttered (R497, R532): the always-on windows but WRAP, and CEL_PART with its lock. -/
def shutterKeeps (a : Nat) : Bool :=
  (a < 0x3000000 && !(decide (cntWrap 0 ≤ a ∧ a < cntWrap 32768))) || a == celPart || a == celLock

/-- What is held anywhere as the part goes into Shuttered: frames and tickets. -/
def State.heldCount (s : State) : Nat :=
  (s.pipe.frames.filter fun p => !p.2.isOver).length + (s.lft.tickets.filter fun p => p.2.buf != 0).length

/-- Shuttered is entered: what is held is discarded, Doorway resets, the Crowsnest state is saved, the stacks go into
self-refresh and the other domains lose power. The counters of the entry stand after the reset of the rest. -/
def State.shutter (s : State) : State :=
  let n := s.heldCount
  let s1 := s.dwyReset
  let saved : SavedCrw := ⟨s1.rd crwEpoch, s1.rd crwMigStatus, s1.rd crwMigLeft, s1.crw.marked⟩
  let b := { s1.blank with
    regs := s1.regs.filter fun (p : Nat × Word) => shutterKeeps p.1
    rdata := s1.rdata
    time := s1.time
    ecc := s1.ecc.filter fun (p : EccMem × Nat × Bool) => p.1 == EccMem.cellar
    mast := { s1.mast with ctrs := [], snap := none, dumpSeq := 0 }
    cel := { Cel.reset with mem := s1.cel.mem, poison := s1.cel.poison }
    attic := { s1.attic with mem := [], saved := some saved } }
  let b1 := (((b.wf atcPwrStatus 15 0 0).wr atcGatedLoftsLo 0).wr atcGatedLoftsHi 0).putB cntDumpCtl 31 false
  let b2 := b1.each (upto 4) fun t k => t.wf (celStkStatus k) 31 30 2
  (b2.count evAtcShutter 0 0).countBy evAtcShutterDiscard 0 0 n

/-- SHUTTER_COMPLETE (R493): due once every port is down. -/
def execShutterComplete (s : State) : Host.Outcome State Fault Refusal :=
  if s.rf atcPwrStatus 31 30 = 2 ∧ s.attic.saved = none ∧ !(s.pipe.ports.any fun p => p.2.disableDue) then .next s.shutter
  else .next s

/-- SHUTTERED_WAKE (R494): by device time (0), a rise of PERST_N (1) or the sideband (2); boot goes on from FLASH on the
slot booted last. -/
def execShutteredWake (cause : Nat) (s : State) : Host.Outcome State Fault Refusal :=
  let due := match cause with
    | 0 => s.rd64 atcWakeTimeLo != 0 && decide (s.rd64 atcWakeTimeLo ≤ s.ns)
    | 1 => s.attic.perstN
    | 2 => decide (s.rf atcPwrCtl 1 0 < 2)
    | _ => false
  if !(s.shuttered && due) then .next s else
  let slot := s.rf atcBootStatus 27 27
  let s1 := ((s.wf atcPwrStatus 31 30 3).wrN atcWakeSrc cause).wr atcCtrl 0
  let s2 := ((s1.setStage 2).wf atcBootStatus 23 20 2).wf atcBootStatus 15 0 0
  .next { s2 with attic := { s2.attic with bootFrom := s2.cycles, boot := { Boot.reset with order := [slot], wake := true } } }

/-- A slice is idle (R491). -/
def State.sliceIdle (s : State) (sl : Nat) : Bool :=
  let k := s.sl sl
  (s.sliceFrames sl).isEmpty && k.wake.isEmpty && k.headQ.isEmpty && k.slots.isEmpty && k.park.isEmpty &&
    k.reentry.isEmpty && k.hostQ.isEmpty &&
    (s.stw.copies.all fun p => p.2.dst != sl || p.2.st == 3) &&
    (s.stw.eg.all fun p => p.2.dst != sl) &&
    (s.stw.cells.all fun c => c.src != sl && c.dst != sl) &&
    (s.stw.voqs.all fun p => p.1 / 4224 != sl || (p.2.die.isEmpty && p.2.spill.isEmpty && p.2.latch.isEmpty))

/-- SLICE_GATE (R491): in Dozing, an idle slice core gates. -/
def execSliceGate (sl : Nat) (s : State) : Host.Outcome State Fault Refusal :=
  if sl < 16 ∧ s.rf atcPwrStatus 31 30 = 1 ∧ !(s.sliceGated sl) ∧ s.sliceIdle sl then
    .next ((s.setB atcPwrStatus sl).count evAtcGate sl 0)
  else .next s

/-- PERIODIC_SCRUB_WAKE (R492): each gated slice and loft wakes for its scrubbers and gates again (DEDUCED, safe: log entry 82). -/
def execPeriodicScrubWake (s : State) : Host.Outcome State Fault Refusal :=
  let s1 := s.each (upto 16) fun t sl => if t.sliceGated sl then t.count evAtcScrubWakeSlice sl 0 else t
  .next (s1.each (upto 64) fun t l => if t.loftGated l then t.count evAtcScrubWakeLoft l 0 else t)

/-! ## Resets (R495, R496) -/

/-- SLICE_RESTART (R496). -/
def execSliceRestart (sl : Nat) (s : State) : Host.Outcome State Fault Refusal := .next (s.sliceRestart (sl % 16))

/-- A write of ATC_RESET. -/
def State.resetWrite (s : State) (v : Word) : State :=
  if fld v 31 24 ≠ 0x5A then s
  else match fld v 17 16 with
    | 1 => s.deviceRestart
    | 2 => s.sliceRestart (fld v 3 0)
    | _ => s

/-! ## Sideband address and JTAG (R553, R554) -/

/-- DYNAMIC_ADDRESS_ASSIGN (R553): SETDASA or ENTDAA gives an address; RESETDAA (`none`) takes it away. -/
def execDynamicAddressAssign (a : Option Nat) (s : State) : Host.Outcome State Fault Refusal :=
  .next { s with attic := { s.attic with sbDyn := a.map (· % 128) } }

/-- The sideband answers at an address (R500, R553). -/
def State.sbAnswers (s : State) (a : Nat) : Bool :=
  match s.attic.sbDyn with
  | some d => a == d
  | none => a == 0x5C

/-- The number that scanned bits spell, the first lowest. -/
def bitsNat (l : List Bool) : Nat := l.foldr (fun b n => nat b + 2 * n) 0

/-- JTAG_ACCESS (R554): instruction 0 BYPASS, 1 IDCODE, 2 SAMPLE/PRELOAD, 3 EXTEST, 4 CLAMP, 5 HIGHZ, and a scan of `tdi`; the
read data are what TDO gives. What the boundary-scan register captures is free. An instruction beyond these reaches the part
only with DEBUG_EN or in the open state (PRESUMED, unsafe: log entry 10) (DESIGN CHOICE, safe: log entry 81). -/
def execJtagAccess (ir : Nat) (tdi : List Bool) (s : State) : Host.Outcome State Fault Refusal :=
  let n := tdi.length
  let put (t : State) (out : Nat) : State := { t with rdata := out, attic := { t.attic with jtagIr := ir, jtagDr := tdi } }
  if ir = 1 then .next (put s (0x17140001 % 2 ^ n + bitsNat (tdi.take (n - 32)) * 2 ^ 32))
  else if ir = 0 ∨ ir = 4 ∨ ir = 5 then .next (put s (bitsNat tdi * 2 % 2 ^ n))
  else if ir < 6 then let r := s.free n; .next (put r.2 r.1)
  else if s.rb atcBootStatus 24 ∨ !(s.attic.keys.any (·.isSet)) then .refused .jtagBeyond
  else .next s

/-! ## Registers (R501) -/

/-- A write of an Attic register that is no half of a held pair. -/
def State.atcRegWrite (s : State) (a : Nat) (v : Word) : State :=
  if a = atcSlotCtl then s.slotCtlWrite v true true
  else if a = atcFlCmd then s.flCmdWrite v
  else if atcFlData 0 ≤ a ∧ a ≤ atcFlData 63 ∧ s.rb atcFlCmd 31 then s.setB atcFlStatus 0
  else if a = atcPwrCtl then s.powerWrite v
  else if a = atcReset then s.resetWrite v
  else if a = atcTimeIncr then s.timeIncrWrite v
  else if a = atcTimeAdj then s.timeAdjWrite v
  else s.plainWrite a v

end Sys2Proof.Machine
end

