-- ==== Sys2Proof/Machine/Bellboard.lean ====
section
/-! DEFINITION. The commands and events of Bellboard (chapter 14, window 0x04) but for the vectors
that Lofts and the Attic controller take. -/

namespace Sys2Proof.Machine

/-- SOURCE_ASSERT (R427): a pulse, or a condition that has risen since it was last seen, sets
PENDING once. -/
def execSourceAssert (src : Nat) (s : State) : Host.Outcome State Fault Refusal :=
  let s1 := s.condPrune
  if shas s1.bell.pulses src then
    .next ({ s1 with bell := { s1.bell with pulses := sdel s1.bell.pulses src } }.putPending src true)
  else if s1.cond src && !(shas s1.bell.condSeen src) then
    .next ({ s1 with bell := { s1.bell with condSeen := sadd s1.bell.condSeen src } }.putPending src true)
  else .next s1

/-- BELL_PULL (R428). -/
def execBellPull (v : Word) (s : State) : Host.Outcome State Fault Refusal := .next (s.bellPull v)

/-- A parity error in the bits of a source sets PENDING and clears MASK (R439). -/
def State.bellParity (s : State) (srcs : List Nat) : State :=
  if srcs.isEmpty then s else
  let s1 := s.each srcs fun t src => (t.putPending src true).putB (belMask (src / 32)) (src % 32) false
  ((s1.setB belErr 3).report 0x2F 0 0).count evBelParErr 0 0

/-- ARBITRATE (R431, R436): `parity` names the sources whose bits fail parity. For a host function
the winner is claimed at once and raises its vector; for the others it is the result that reaches
the target, in place of an earlier one. -/
def execArbitrate (t : Nat) (parity : List Nat) (s : State) : Host.Outcome State Fault Refusal :=
  let s0 := s.bellParity parity
  let s1 := s0.each s0.pendingSources State.routeCheck
  match s1.winner t with
  | none => .next { s1 with bell := { s1.bell with arb := tdel s1.bell.arb t } }
  | some src =>
    if 513 ≤ t then .next ((s1.claim t src).raiseVector (t - 513) (s1.rf (belRoute src) 15 0))
    else
      let s2 := match tfind s1.bell.arb t with
        | some old => if old ≠ src then s1.count evBelSwitch t 0 else s1
        | none => s1
      .next { s2 with bell := { s2.bell with arb := tput s2.bell.arb t src } }

/-- EOI_WRITE (R436) by function `fn`. -/
def State.eoiWrite (s : State) (fn : Nat) (v : Word) : State :=
  if s.rb (belTgt (513 + fn)) 31 && s.rf (belTgt (513 + fn)) 11 0 == fld v 11 0 then s.complete (513 + fn)
  else s.count evBelEoiBad fn 0

def execEoiWrite (fn : Nat) (v : Word) (s : State) : Host.Outcome State Fault Refusal := .next (s.eoiWrite fn v)

/-- MSIX_SEND (R437): a raised vector is sent once enables, masks, host sleep and the moderation gap
allow. -/
def execMsixSend (fn vec : Nat) (s : State) : Host.Outcome State Fault Refusal :=
  let k := fn * 2048 + vec
  let f := s.fn fn
  let e := tget ⟨0, 0, true⟩ s.dwy.msix k
  let gap := s.rf (belFnMod fn) 15 0
  let gapOk := gap == 0 || s.rb (dwyFnPm fn) 0 ||
    (match tfind s.bell.msixLast k with
     | none => true
     | some t => decide (t + gap * 1000 ≤ s.ns))
  if shas s.bell.msix k && f.msixEn && f.busMaster && !f.msixMask && !e.masked && !f.asleep && gapOk then
    let s1 := { s with bell := { s.bell with
      msix := sdel s.bell.msix k, msixLast := tput s.bell.msixLast k s.ns } }
    .next ((s1.emit (.msix fn vec e.addr e.data)).count evBelMsixSent fn 0)
  else .next s

/-- ROUTE_WRITE (R430): a fixed source keeps its target; a malformed value is discarded. -/
def State.routeWrite (s : State) (src : Nat) (v : Word) : State :=
  let k := fld v 27 25; let i := fld v 24 16; let vec := fld v 15 0
  let fixedOk := match fixedTarget src with
    | some (fk, ft) => decide (k = fk ∧ i = ft)
    | none => true
  let wellFormed := decide (k ≤ 3 ∧ (k = 2 → i = 0) ∧ (k = 3 → i < 64) ∧ (k = 1 → vec ≤ 32767) ∧ (k = 3 → vec ≤ 2047))
  if fixedOk && wellFormed then
    let s1 := { s with bell := { s.bell with unrouted := sdel s.bell.unrouted src } }
    ((s1.eccClear .belRoute src).wr (belRoute src) v).inject 0x04 0x4000 0x8000 .belRoute src
  else s.setB belErr 0

def execRouteWrite (src : Nat) (v : Word) (s : State) : Host.Outcome State Fault Refusal :=
  .next (s.routeWrite src v)

/-- ROUTE_SCRUB (R439): `e` is what the check of the route word finds. -/
def execRouteScrub (src : Nat) (e : Ecc) (s : State) : Host.Outcome State Fault Refusal :=
  .next ((s.eccFlag .belRoute src e).routeCheck src)

/-- A write of a Bellboard register. -/
def State.belRegWrite (s : State) (a : Nat) (v : Word) : State :=
  if a = belBellPull then s.bellPull v
  else if belRoute 0 ≤ a ∧ a < belRoute 4096 then s.routeWrite ((a - belRoute 0) / 4) v
  else s.plainWrite a v

end Sys2Proof.Machine
end

