-- ==== Sys2Proof/Machine/Check.lean ====
section
/-! DEFINITION. The commands and events of the check units (R257 to R268, window 0x0B). -/

namespace Sys2Proof.Machine

/-! ## Verify and strip (R261, R264, R265) -/

/-- The frame's verdict is given. -/
def State.verified (s : State) (f : Nat) : State :=
  let x := s.frame f
  s.setFab f { x.fab with verify := 2 }

/-- A frame leaves the ingress unit stripped. -/
def State.strip (s : State) (f : Nat) (err : Bool) : State :=
  let x := s.frame f
  let d := stripTrailer x.data x.head.layers x.head.shimVer (s.profile x.head.chkProfile).width err
  (s.setFrame f { x with data := d, len := max 64 (d.length + 4) }).count evChkStrip x.slice 0

/-- A frame that fails is discarded, with a CHECK_FAIL notice due where it is a PUT and its profile is
not silent. -/
def State.verifyDiscard (s : State) (f reason : Nat) (notice : Bool) : State :=
  (if notice then s.befall f 5 reason else s).endIngress f 3

/-- A verify fails (R265) (DEDUCED, unsafe: log entry 62). -/
def State.verifyFail (s : State) (f reason : Nat) : State :=
  let x := s.frame f
  let p := s.profile x.head.chkProfile
  let s1 := s.count evChkVerifyFail x.head.chkProfile (reason - 0x60)
  if shimOp x.head.shim = 2 then s1.verifyDiscard f reason (!p.silent)
  else if p.silent ∨ reason = 0x64 then s1.verifyDiscard f reason false
  else ((s1.strip f true).verified f).count evChkRespMarked x.port 0

/-- CHECK_VERIFY (R261): the verdict on frame f. -/
def execCheckVerify (f : Nat) (s : State) : Host.Outcome State Fault Refusal :=
  let x := s.frame f
  if x.fab.verify ≠ 1 ∨ !x.complete ∨ x.isOver then .next s
  else if x.bad then .next (s.verified f)
  else
    let r := s.verifyReason x
    .next (if r = 0 then ((s.count evChkVerifyPass x.head.chkProfile 0).strip f false).verified f else s.verifyFail f r)

/-! ## Append (R262) -/

/-- CHECK_APPEND (R262): the append unit of copy c finishes. -/
def execCheckAppend (c : Nat) (s : State) : Host.Outcome State Fault Refusal :=
  let y := s.copy c
  let x := s.frame y.fid
  let arrived := match s.egFrame y.fid y.dst with
    | some g => decide (g.want ≤ g.got)
    | none => false
  if y.chk ≠ 1 ∨ 2 ≤ y.st ∨ !arrived then .next s
  else
    let p := s.profile x.head.chkProfile
    let l := x.head.layers
    if !p.valid ∨ !l.marked ∨ !(ipKnown x.data l.ip) then
      .next (((s.count evChkAppendFail y.dst 0).copyEnd c 0x16).copyGone c)
    else
      .next ((s.setCopy c { y with chk := 2, bytes := appendTrailer x.data l x.head.shimVer p }).count evChkAppend y.dst 0)

/-! ## Profiles (R263, R266, R267) -/

/-- The fields that may change only while VALID is 0 stand in these bits of CHK_PROF_CFG. -/
def profFixed (v : Word) : Nat × Nat × Nat := (fld v 17 16, fld v 9 8, fld v 3 0)

/-- CHK_PROF_CFG[p] written. -/
def State.profileWrite (s : State) (p : Nat) (v : Word) : State :=
  let a := chkProfCfg p
  let w := fld v 3 0
  let poly := s.rd64 (chkProfPolyLo p)
  let init := s.rd64 (chkProfInitLo p)
  let good := decide (1 ≤ w ∧ w ≤ 8) && fld v 17 16 != 3 && poly % 2 == 1 && decide (poly < 2 ^ (8 * w) ∧ init < 2 ^ (8 * w))
  if s.rb a 31 then
    if profFixed v = profFixed (s.rd a) then s.plainWrite a v else s.setB chkErr 0
  else if v.getLsbD 31 ∧ !good then s.setB chkErr 0
  else s.plainWrite a v

/-- CHECK_PROFILE_WRITE (R267). -/
def execCheckProfileWrite (p : Nat) (v : Word) (s : State) : Host.Outcome State Fault Refusal :=
  .next (s.profileWrite p v)

/-- A write of a check register. -/
def State.chkRegWrite (s : State) (a : Nat) (v : Word) : State :=
  if chkProfCfg 0 ≤ a ∧ a < chkProfCfg 64 then
    let p := (a - chkProfCfg 0) / 0x20
    if a = chkProfCfg p then s.profileWrite p v
    else if s.rb (chkProfCfg p) 31 then (if s.rd a = v then s else s.setB chkErr 0)
    else s.plainWrite a v
  else s.plainWrite a v

end Sys2Proof.Machine
end

