-- ==== Sys2Proof/Machine/Bus.lean ====
section
/-! DEFINITION. Register accesses (R4 to R13, R395, R482): which unit takes a write, what a read returns, pairs, SET
and CLR registers, the function pages; and CONFIG records, which make the same accesses (R473). -/

namespace Sys2Proof.Machine

/-! ## What a read returns -/

/-- STW_PORT_STATUS.SPILL: the classes for which a VOQ of egress port n is not on die alone. -/
def State.spillClasses (s : State) (n : Nat) : Nat :=
  ((upto 8).map fun c =>
    nat ((upto 16).any fun sl => (s.voq sl (8 * n + c)).st != 0) * 2 ^ c).sum

/-- SHT_PORT_STATUS and SHT_QSTATUS. -/
def State.shtPortShow (s : State) (n : Nat) : Nat :=
  let j := 0x2000 + n
  nat (s.shpHolds j) * 2 ^ 31 + nat (decide ((s.shp j).tokens < 0)) * 2 ^ 30 +
    ((upto 8).map fun c => nat (s.eligible n c).isSome * 2 ^ c).sum
def State.shtQueueShow (s : State) (q : Nat) : Nat :=
  nat (s.shpHolds q) * 2 ^ 31 + nat (decide ((s.shp q).tokens < 0)) * 2 ^ 30 + nat (s.tcPaused (q / 8) (q % 8)) * 2 ^ 29 +
    min 65535 (s.egDepth q)

/-- BEL_COND[w]. -/
def State.condWord (s : State) (w : Nat) : Nat := ((upto 32).map fun i => nat (s.cond (32 * w + i)) * 2 ^ i).sum

/-- The index of address `a` in a run of `n` registers from `base`, `st` apart. -/
def runIdx (a base st n : Nat) : Option Nat :=
  if base ≤ a ∧ (a - base) % st = 0 ∧ (a - base) / st < n then some ((a - base) / st) else none

/-- A register that shows the state of its unit as it stands; `none` where the register holds its value itself. -/
def State.liveAt (s : State) (a : Nat) : Option Nat :=
  match a / 0x1000000 with
  | 0x00 => if a = atcTimeLo then some (s.ns % 2 ^ 32) else if a = atcTimeHi then some (s.ns / 2 ^ 32) else none
  | 0x01 =>
    if a = mstRecov then some (putBits (s.rdN a) 3 0 (min 8 s.recoveries))
    else if a = mstInjCtl ∧ !s.testMode then some 0
    else none
  | 0x02 =>
    let v := pairValue s.mast.ctrs (s.rf cntRdSel 19 0)
    if a = cntRdLo then some v.1 else if a = cntRdHi then some v.2
    else if cntExtClr 0 ≤ a ∧ a < cntExtClr 32768 then some (s.rdN (a - 0x100000)) else none
  | 0x04 =>
    match runIdx a (belCond 0) 4 128 with
    | some w => some (s.condWord w)
    | none =>
      if (belPendClr 0 ≤ a ∧ a ≤ belPendClr 127) ∨ (belMaskClr 0 ≤ a ∧ a ≤ belMaskClr 127) then some (s.rdN (a - 0x200)) else none
  | 0x08 => (runIdx a (galSliceUse 0) 16 16).map s.galUse
  | 0x09 => (runIdx a (lrdTblUse 0) 0x40 64).map s.ltUse
  | 0x0C =>
    match runIdx a (stwSliceFree 0) 16 16, runIdx a (stwSliceSpill 0) 16 16, runIdx a (stwPortStatus 0) 0x20 512 with
    | some sl, _, _ => some (s.freeUnits sl)
    | _, some sl, _ => some (s.spillHeld sl).length
    | _, _, some n => some (s.hrUsed n * 2 ^ 16 + s.spillClasses n)
    | _, _, _ => none
  | 0x0D =>
    match runIdx a (shtPortStatus 0) 16 512, runIdx a (shtQstatus 0) 16 4096 with
    | some n, _ => some (s.shtPortShow n)
    | _, some q => some (s.shtQueueShow q)
    | _, _ => none
  | 0x0E =>
    if a = lftDbgStatus then some (putBits (s.rdN a) 2 0 (s.thr (s.rf lftDbgSel 11 0)).state)
    else (runIdx a (lftThrStatus 0) 4 4096).map fun t => (s.thr t).status.toNat
  | _ => none

/-- The value of a register as it stands. -/
def State.shows (s : State) (a : Nat) : Nat := (s.liveAt a).getD (s.rdN a)

/-- A read of a register: a lower half latches its upper half; a latched upper half is returned once; RC fields
clear (R11, R13) (DEDUCED, unsafe: log entry 16). -/
def State.regRead (s : State) (a : Nat) : State :=
  match runIdx a (pchTsTag 0) 0x80 512 with
  | some n => s.tsTagRead n
  | none =>
  if cupFnGrant 0 0 ≤ a ∧ a < cupFnGrant 64 0 ∧ (a - cupFnGrant 0 0) % 0x100 < 0x20 then
    (s.grantRead ((a - cupFnGrant 0 0) / 0x100) ((a - cupFnGrant 0 0) % 0x100 / 4)).condPrune
  else
    match regAt a with
    | none => s.answer 0
    | some (r, _, _) =>
      match r.kind with
      | .pairLo => { s.answer (s.shows a) with latch := tput s.latch (a + 4) (BitVec.ofNat 32 (s.shows (a + 4))) }
      | .pairHi =>
        match tfind s.latch a with
        | some v => { s.answer v.toNat with latch := tdel s.latch a }
        | none => s.answer (s.shows a)
      | _ => if r.rc = 0 then s.answer (s.shows a) else ((s.answer (s.shows a)).clearRc a).condPrune

/-! ## What takes a write -/

/-- The unit that owns the register takes the write. -/
def State.unitWrite (s : State) (a : Nat) (v : Word) : State :=
  if 0x20000000 ≤ a then
    let f := (a - 0x20000000) / 0x200000
    if a = belFnEoi f then s.eoiWrite f v else s.dwyRegWrite a v
  else
    match a / 0x1000000 with
    | 0x00 => s.atcRegWrite a v
    | 0x01 => s.mstRegWrite a v
    | 0x02 => s.cntRegWrite a v
    | 0x03 => s.dwyRegWrite a v
    | 0x04 => s.belRegWrite a v
    | 0x05 => s.pchRegWrite a v
    | 0x06 => s.thrRegWrite a v
    | 0x07 => s.hlwRegWrite a v
    | 0x08 => s.galRegWrite a v
    | 0x09 => s.lrdRegWrite a v
    | 0x0A => s.crwRegWrite a v
    | 0x0B => s.chkRegWrite a v
    | 0x0C => s.stwRegWrite a v
    | 0x0D => s.shtRegWrite a v
    | 0x0E => if a = lftDbgCmd then s.dbgCmdWrite v else s.lftRegWrite a v
    | 0x0F => s.cupRegWrite a v
    | 0x10 => s.celRegWrite a v
    | _ => s

/-- A pair takes effect, both halves together. -/
def State.pairWrite (s : State) (lo v : Nat) : State :=
  if lo = atcTimeSetLo then s.timeSetPair v
  else if lo = mstInjKeyLo then s.injKeyWrite v
  else if lo = dwyHoldBaseLo then s.holdBaseWrite v
  else (s.unitWrite lo (BitVec.ofNat 32 v)).unitWrite (lo + 4) (BitVec.ofNat 32 (v / 2 ^ 32))

/-- A write of a register: a lower half is held, an upper half applies the pair, SET and CLR act on their bits. -/
def State.regWrite (s : State) (a : Nat) (v : Word) : State :=
  match regAt a with
  | none => s
  | some (r, _, _) =>
    match r.kind with
    | .plain => (s.unitWrite a v).condPrune
    | .pairLo => { s with held := tput s.held a v }
    | .pairHi =>
      let lo := (tget (s.rd (a - 4)) s.held (a - 4)).toNat
      ({ s with held := tdel s.held (a - 4) }.pairWrite (a - 4) (lo + 2 ^ 32 * v.toNat)).condPrune
    | .set => (s.unitWrite a (s.rd a ||| v)).condPrune
    | .clr back =>
      if a / 0x1000000 = 2 then s.unitWrite a v
      else (s.unitWrite (a - back) (s.rd (a - back) &&& ~~~v)).condPrune

/-! ## Accesses of PF0 BAR0 (R4 to R6, R482) -/

/-- The part is not at DONE, and the window is one of those that are shut until then (DEDUCED, safe: log entry 18). -/
def State.windowShut (s : State) (a : Nat) : Bool :=
  s.stage != 8 && decide (0x5000000 ≤ a ∧ a < 0x11000000)

/-- No register answers at address `a`. -/
def State.noReg (s : State) (a : Nat) : Bool := s.windowShut a || (regAt a).isNone

/-- Masthead counts an access to a reserved window or offset. -/
def State.reservedAccess (s : State) : State :=
  { s with mast := { s.mast with reservedAccesses := s.mast.reservedAccesses + 1 } }

/-- The access is no aligned 32-bit access: a host access error against function `fn`. -/
def State.accessError (s : State) (fn a : Nat) : State := s.report 0x30 fn (BitVec.ofNat 32 a)

/-! ## The function page (R395) -/

/-- What stands at an offset of a function page: a register, a byte of the MSI-X table, a byte of its pending bits, or
nothing. -/
inductive PageAt where
  | reg (a : Nat)
  | msix (o : Nat)
  | pba (o : Nat)
  | hole
deriving DecidableEq, Repr

/-- Offset `o` of the page of function f (DESIGN CHOICE, unsafe: log entry 17). -/
def State.pageAt (s : State) (f o : Nat) : PageAt :=
  if o < 0x1000 then
    (if o / 4 = 0x201 then .reg (belFnMod f + o % 4) else .reg (0x20000000 + 0x200000 * f + o))
  else if o < 0x1100 then .reg (cupFnGrant f 0 + (o - 0x1000))
  else if 0x2000 ≤ o ∧ o < 0xA000 then .msix (o - 0x2000)
  else if 0xA000 ≤ o ∧ o < 0xA100 then .pba (o - 0xA000)
  else if 0x100000 ≤ o ∧ (o - 0x100000) / 0x40 < s.rf (dwyFnQp f) 30 16 then
    .reg (dwyQpCfg (s.rf (dwyFnQp f) 13 0 + (o - 0x100000) / 0x40) + o % 0x40)
  else .hole

/-- The 16 bytes of an MSI-X table entry. -/
def State.msixBytes (s : State) (k : Nat) : List Byte :=
  let e := tget ⟨0, 0, true⟩ s.dwy.msix k
  natLe 8 e.addr ++ natLe 4 e.data.toNat ++ natLe 4 (nat e.masked)

/-- A write into the MSI-X table. -/
def State.msixWrite (s : State) (f o : Nat) (bs : List Byte) : State :=
  let k := f * 2048 + o / 16
  let b := splice (s.msixBytes k) (o % 16) bs
  let e : MsixEnt := ⟨leNat (slice b 0 8) / 4 * 4, BitVec.ofNat 32 (leNat (slice b 8 4)), (b.getD 12 0).getLsbD 0⟩
  { s with dwy := { s.dwy with msix := tput s.dwy.msix k e } }

/-- The bytes of the pending-bit array from byte `o`. -/
def State.pbaBytes (s : State) (f o n : Nat) : Nat :=
  ((upto (8 * n)).map fun i => nat (shas s.bell.msix (f * 2048 + 8 * o + i)) * 2 ^ i).sum

/-- A read of `n` bytes at BAR address `a` by function `fn`; the state holds what it returns. -/
def State.busRead (s : State) (fn a n : Nat) : State :=
  let aligned := n == 4 && a % 4 == 0
  let onesOf : Nat := 2 ^ (8 * n) - 1
  if a < 0x20000000 then
    (if !aligned then (s.accessError 0 a).answer onesOf
     else if s.noReg a then s.reservedAccess.answer 0
     else s.regRead a)
  else
    let f := (a - 0x20000000) / 0x200000
    if 64 ≤ f ∨ !(s.fn f).enabled then s else
    let o := (a - 0x20000000) % 0x200000
    let quad := (n == 4 || n == 8) && o % n == 0
    match s.pageAt f o with
    | .msix o => s.answer (if quad then leNat (slice (s.msixBytes (f * 2048 + o / 16)) (o % 16) n) else onesOf)
    | .pba o => s.answer (if quad then s.pbaBytes f o n else onesOf)
    | .reg a =>
      if !aligned then (s.accessError fn a).answer onesOf
      else if (regAt a).isNone then s.reservedAccess.answer 0
      else s.regRead a
    | .hole => if !aligned then (s.accessError fn a).answer onesOf else s.reservedAccess.answer 0

/-- A write of bytes at BAR address `a` by function `fn`. -/
def State.busWrite (s : State) (fn a : Nat) (bs : List Byte) : State :=
  let n := bs.length
  let aligned := n == 4 && a % 4 == 0
  let v : Word := BitVec.ofNat 32 (leNat bs)
  if a < 0x20000000 then
    (if !aligned then s.accessError 0 a
     else if s.noReg a then s.reservedAccess
     else s.regWrite a v)
  else
    let f := (a - 0x20000000) / 0x200000
    if 64 ≤ f ∨ !(s.fn f).enabled then s else
    let o := (a - 0x20000000) % 0x200000
    match s.pageAt f o with
    | .msix o => if (n == 4 || n == 8) && o % n == 0 then s.msixWrite f o bs else s
    | .pba _ => s
    | .reg a =>
      if !aligned then s.accessError fn a
      else if (regAt a).isNone then s.reservedAccess
      else s.regWrite a v
    | .hole => if !aligned then s.accessError fn a else s.reservedAccess

/-- A 32-bit write. -/
def State.write32 (s : State) (a : Nat) (v : Word) : State := s.busWrite 0 a (natLe 4 v.toNat)

/-- How the Attic controller reaches PF0 register space (R498). -/
def busPort : RegPort where
  rd a n s := let t := s.busRead 0 a n; (t, t.rdata)
  wr a bs s := s.busWrite 0 a bs

/-! ## The rows -/

/-- The kind of the register at an address. -/
def kindAt (a : Nat) : Option RegKind := (regAt a).map fun r => r.1.kind

/-- REGISTER_WRITE (R12). -/
def execRegisterWrite (a : Nat) (v : Word) (s : State) : Host.Outcome State Fault Refusal := .next (s.write32 a v)

/-- MISALIGNED_REGISTER_ACCESS (R5). -/
def execMisalignedRegisterAccess (fn : Nat) (write : Bool) (a size : Nat) (s : State) :
    Host.Outcome State Fault Refusal :=
  if size = 4 ∧ a % 4 = 0 then .next s
  else .next (if write then s.busWrite fn a (List.replicate size 0) else s.busRead fn a size)

/-- RESERVED_OFFSET_ACCESS (R6). -/
def execReservedOffsetAccess (write : Bool) (a : Nat) (s : State) : Host.Outcome State Fault Refusal :=
  if a < 0x20000000 ∧ a % 4 = 0 ∧ !(s.noReg a) then .next s
  else .next (if write then s.write32 a 0 else s.busRead 0 a 4)

/-- PAIR_LOWER_READ (R11). -/
def execPairLowerRead (a : Nat) (s : State) : Host.Outcome State Fault Refusal :=
  if kindAt a = some .pairLo then .next (s.busRead 0 a 4) else .next s

/-- PAIR_UPPER_WRITE (R11). -/
def execPairUpperWrite (a : Nat) (v : Word) (s : State) : Host.Outcome State Fault Refusal :=
  if kindAt a = some .pairHi then .next (s.write32 a v) else .next s

/-- RC_FIELD_READ (R13). -/
def execRcFieldRead (a : Nat) (s : State) : Host.Outcome State Fault Refusal :=
  match regAt a with
  | some (r, _, _) => if r.rc = 0 then .next s else .next (s.busRead 0 a 4)
  | none => .next s

/-- SET_REGISTER_WRITE (R12). -/
def execSetRegisterWrite (a : Nat) (v : Word) (s : State) : Host.Outcome State Fault Refusal :=
  if kindAt a = some .set then .next (s.write32 a v) else .next s

/-- CLR_REGISTER_WRITE (R12). -/
def execClrRegisterWrite (a : Nat) (v : Word) (s : State) : Host.Outcome State Fault Refusal :=
  match kindAt a with
  | some (.clr _) => .next (s.write32 a v)
  | _ => .next s

/-- COUNTER_READ (R526). -/
def execCounterRead (s : State) : Host.Outcome State Fault Refusal := .next (s.busRead 0 cntRdLo 4)

/-- DUMP_CFG_WRITE (R533): CNT_DUMP_CFG, or a half of the base. -/
def execDumpCfgWrite (a : Nat) (v : Word) (s : State) : Host.Outcome State Fault Refusal :=
  if a = cntDumpCfg ∨ a = cntDumpBaseLo ∨ a = cntDumpBaseHi then .next (s.write32 a v) else .next s

/-- TIME_SET_WRITE (R488): the upper half of ATC_TIME_SET. -/
def execTimeSetWrite (v : Word) (s : State) : Host.Outcome State Fault Refusal := .next (s.write32 atcTimeSetHi v)

/-- SIDEBAND_ACCESS (R500, R553): an access of window 0x00 at the sideband's address. -/
def execSidebandAccess (addr : Nat) (write : Bool) (off : Nat) (v : Word) (s : State) :
    Host.Outcome State Fault Refusal :=
  if !(s.sbAnswers addr) then .next s
  else .next (if write then s.write32 (off % 65536) v else s.busRead 0 (off % 65536) 4)

/-! ## CONFIG records (R473) -/

/-- A CONFIG record's access: window by window, whatever the stage; an unimplemented offset falls under R6. -/
def State.cfgWrite (s : State) (a v : Nat) : State :=
  if (regAt a).isNone then s.reservedAccess else s.regWrite a (BitVec.ofNat 32 v)
def State.cfgRead (s : State) (a : Nat) : State :=
  if (regAt a).isNone then s.reservedAccess.answer 0 else s.regRead a

/-- The record reached. -/
def State.cfgNow (s : State) : CfgRec := cfgRec (s.sectBytes s.bootSlot s.bootSect) s.attic.boot.record

/-- The next record is in hand. -/
def State.cfgNext (s : State) : State :=
  s.setBoot { s.attic.boot with record := s.attic.boot.record + 1, waiting := false }
def State.cfgWait (s : State) : State := s.setBoot { s.attic.boot with waiting := true }

/-- CONFIG_RECORD (R473): the sections before it are applied, and then the record; a POLL reads once, and its record stays
in hand until it matches; a DELAY waits (DEDUCED, safe: log entry 68). -/
def execConfigRecord (s : State) : Host.Outcome State Fault Refusal :=
  if s.stage ≠ 6 then .next s else
  let t := s.toRecord
  if t.stage ≠ 6 ∨ t.sectionsDone then .next t else
  let r := t.cfgNow
  if r.check ≠ 0 then .next (t.bootDefect r.check)
  else if r.op = 1 then .next (t.cfgWrite r.addr r.value).cfgNext
  else if r.op = 2 then
    let u := t.cfgRead r.addr
    .next (if Nat.land u.rdata r.mask = r.value then u.cfgNext else u.cfgWait)
  else .next t.cfgWait

/-- POLL_TIMEOUT (R473, R480). -/
def execPollTimeout (s : State) : Host.Outcome State Fault Refusal :=
  if s.stage = 6 ∧ s.attic.boot.waiting ∧ s.cfgNow.op = 2 then .next (s.bootDefect 0x0C) else .next s

/-- DELAY_EXPIRE (R473). -/
def execDelayExpire (s : State) : Host.Outcome State Fault Refusal :=
  if s.stage = 6 ∧ s.attic.boot.waiting ∧ s.cfgNow.op = 3 then .next s.cfgNext else .next s

end Sys2Proof.Machine
end

