-- ==== Sys2Proof/Machine/Lofts.lean ====
section
/-! DEFINITION. The Lofts instructions (R333 to R373), a row each: an issue slot of thread `t` at whose pc the
instruction with fields `f` stands. Thread 4,096 is the Attic controller, whose loads and stores reach PF0's
registers. -/

namespace Sys2Proof.Machine

/-- An issue slot with opcode `op`. -/
def State.lofts (s : State) (t op : Nat) (f : LFields) : State := s.issue t op f (lftBody busPort op)

/-- NOP (R340). -/
def execNop (t : Nat) (f : LFields) (s : State) : Host.Outcome State Fault Refusal := .next (s.lofts t 0x00 f)

/-- ADD (R340). -/
def execAdd (t : Nat) (f : LFields) (s : State) : Host.Outcome State Fault Refusal := .next (s.lofts t 0x01 f)

/-- SUB (R340). -/
def execSub (t : Nat) (f : LFields) (s : State) : Host.Outcome State Fault Refusal := .next (s.lofts t 0x02 f)

/-- AND (R340). -/
def execAnd (t : Nat) (f : LFields) (s : State) : Host.Outcome State Fault Refusal := .next (s.lofts t 0x03 f)

/-- OR (R340). -/
def execOr (t : Nat) (f : LFields) (s : State) : Host.Outcome State Fault Refusal := .next (s.lofts t 0x04 f)

/-- XOR (R340). -/
def execXor (t : Nat) (f : LFields) (s : State) : Host.Outcome State Fault Refusal := .next (s.lofts t 0x05 f)

/-- SHL (R340). -/
def execShl (t : Nat) (f : LFields) (s : State) : Host.Outcome State Fault Refusal := .next (s.lofts t 0x06 f)

/-- SHR (R340). -/
def execShr (t : Nat) (f : LFields) (s : State) : Host.Outcome State Fault Refusal := .next (s.lofts t 0x07 f)

/-- SAR (R340). -/
def execSar (t : Nat) (f : LFields) (s : State) : Host.Outcome State Fault Refusal := .next (s.lofts t 0x08 f)

/-- MUL (R340). -/
def execMul (t : Nat) (f : LFields) (s : State) : Host.Outcome State Fault Refusal := .next (s.lofts t 0x09 f)

/-- MULH (R340). -/
def execMulh (t : Nat) (f : LFields) (s : State) : Host.Outcome State Fault Refusal := .next (s.lofts t 0x0A f)

/-- SLT (R340). -/
def execSlt (t : Nat) (f : LFields) (s : State) : Host.Outcome State Fault Refusal := .next (s.lofts t 0x0B f)

/-- SLTU (R340). -/
def execSltu (t : Nat) (f : LFields) (s : State) : Host.Outcome State Fault Refusal := .next (s.lofts t 0x0C f)

/-- BEXT (R340). -/
def execBext (t : Nat) (f : LFields) (s : State) : Host.Outcome State Fault Refusal := .next (s.lofts t 0x0D f)

/-- BINS (R340). -/
def execBins (t : Nat) (f : LFields) (s : State) : Host.Outcome State Fault Refusal := .next (s.lofts t 0x0E f)

/-- POPC (R340). -/
def execPopc (t : Nat) (f : LFields) (s : State) : Host.Outcome State Fault Refusal := .next (s.lofts t 0x0F f)

/-- CLZ (R340). -/
def execClz (t : Nat) (f : LFields) (s : State) : Host.Outcome State Fault Refusal := .next (s.lofts t 0x10 f)

/-- ADDI (R340). -/
def execAddi (t : Nat) (f : LFields) (s : State) : Host.Outcome State Fault Refusal := .next (s.lofts t 0x11 f)

/-- ANDI (R340). -/
def execAndi (t : Nat) (f : LFields) (s : State) : Host.Outcome State Fault Refusal := .next (s.lofts t 0x12 f)

/-- ORI (R340). -/
def execOri (t : Nat) (f : LFields) (s : State) : Host.Outcome State Fault Refusal := .next (s.lofts t 0x13 f)

/-- XORI (R340). -/
def execXori (t : Nat) (f : LFields) (s : State) : Host.Outcome State Fault Refusal := .next (s.lofts t 0x14 f)

/-- SHLI (R340). -/
def execShli (t : Nat) (f : LFields) (s : State) : Host.Outcome State Fault Refusal := .next (s.lofts t 0x15 f)

/-- SHRI (R340). -/
def execShri (t : Nat) (f : LFields) (s : State) : Host.Outcome State Fault Refusal := .next (s.lofts t 0x16 f)

/-- SARI (R340). -/
def execSari (t : Nat) (f : LFields) (s : State) : Host.Outcome State Fault Refusal := .next (s.lofts t 0x17 f)

/-- LI (R340). -/
def execLi (t : Nat) (f : LFields) (s : State) : Host.Outcome State Fault Refusal := .next (s.lofts t 0x18 f)

/-- LIH (R340). -/
def execLih (t : Nat) (f : LFields) (s : State) : Host.Outcome State Fault Refusal := .next (s.lofts t 0x19 f)

/-- BSWAP (R340). -/
def execBswap (t : Nat) (f : LFields) (s : State) : Host.Outcome State Fault Refusal := .next (s.lofts t 0x1A f)

/-- BEQ (R340). -/
def execBeq (t : Nat) (f : LFields) (s : State) : Host.Outcome State Fault Refusal := .next (s.lofts t 0x20 f)

/-- BNE (R340). -/
def execBne (t : Nat) (f : LFields) (s : State) : Host.Outcome State Fault Refusal := .next (s.lofts t 0x21 f)

/-- BLT (R340). -/
def execBlt (t : Nat) (f : LFields) (s : State) : Host.Outcome State Fault Refusal := .next (s.lofts t 0x22 f)

/-- BGE (R340). -/
def execBge (t : Nat) (f : LFields) (s : State) : Host.Outcome State Fault Refusal := .next (s.lofts t 0x23 f)

/-- BLTU (R340). -/
def execBltu (t : Nat) (f : LFields) (s : State) : Host.Outcome State Fault Refusal := .next (s.lofts t 0x24 f)

/-- BGEU (R340). -/
def execBgeu (t : Nat) (f : LFields) (s : State) : Host.Outcome State Fault Refusal := .next (s.lofts t 0x25 f)

/-- JAL (R340). -/
def execJal (t : Nat) (f : LFields) (s : State) : Host.Outcome State Fault Refusal := .next (s.lofts t 0x26 f)

/-- JALR (R340). -/
def execJalr (t : Nat) (f : LFields) (s : State) : Host.Outcome State Fault Refusal := .next (s.lofts t 0x27 f)

/-- LD (R340). -/
def execLd (t : Nat) (f : LFields) (s : State) : Host.Outcome State Fault Refusal := .next (s.lofts t 0x30 f)

/-- LDS (R340). -/
def execLds (t : Nat) (f : LFields) (s : State) : Host.Outcome State Fault Refusal := .next (s.lofts t 0x31 f)

/-- ST (R340). -/
def execSt (t : Nat) (f : LFields) (s : State) : Host.Outcome State Fault Refusal := .next (s.lofts t 0x32 f)

/-- AMO_ADD (R338). -/
def execAmoAdd (t : Nat) (f : LFields) (s : State) : Host.Outcome State Fault Refusal := .next (s.lofts t 0x33 f)

/-- AMO_SWAP (R338). -/
def execAmoSwap (t : Nat) (f : LFields) (s : State) : Host.Outcome State Fault Refusal := .next (s.lofts t 0x34 f)

/-- AMO_CAS (R338). -/
def execAmoCas (t : Nat) (f : LFields) (s : State) : Host.Outcome State Fault Refusal := .next (s.lofts t 0x35 f)

/-- TK_NEXT (R346). -/
def execTkNext (t : Nat) (f : LFields) (s : State) : Host.Outcome State Fault Refusal := .next (s.lofts t 0x40 f)

/-- PKT_RD (R347). -/
def execPktRd (t : Nat) (f : LFields) (s : State) : Host.Outcome State Fault Refusal := .next (s.lofts t 0x41 f)

/-- PKT_WR (R347). -/
def execPktWr (t : Nat) (f : LFields) (s : State) : Host.Outcome State Fault Refusal := .next (s.lofts t 0x42 f)

/-- TK_EMIT (R349). -/
def execTkEmit (t : Nat) (f : LFields) (s : State) : Host.Outcome State Fault Refusal := .next (s.lofts t 0x43 f)

/-- TK_REINJECT (R350). -/
def execTkReinject (t : Nat) (f : LFields) (s : State) : Host.Outcome State Fault Refusal := .next (s.lofts t 0x44 f)

/-- TK_HOST (R415). -/
def execTkHost (t : Nat) (f : LFields) (s : State) : Host.Outcome State Fault Refusal := .next (s.lofts t 0x45 f)

/-- TK_DONE (R350). -/
def execTkDone (t : Nat) (f : LFields) (s : State) : Host.Outcome State Fault Refusal := .next (s.lofts t 0x46 f)

/-- TBL (R352). -/
def execTbl (t : Nat) (f : LFields) (s : State) : Host.Outcome State Fault Refusal := .next (s.lofts t 0x50 f)

/-- CHK (R353). -/
def execChk (t : Nat) (f : LFields) (s : State) : Host.Outcome State Fault Refusal := .next (s.lofts t 0x51 f)

/-- DMA (R354). -/
def execDma (t : Nat) (f : LFields) (s : State) : Host.Outcome State Fault Refusal := .next (s.lofts t 0x52 f)

/-- LB_PUT (R358). -/
def execLbPut (t : Nat) (f : LFields) (s : State) : Host.Outcome State Fault Refusal := .next (s.lofts t 0x60 f)

/-- LB_SEND (R358). -/
def execLbSend (t : Nat) (f : LFields) (s : State) : Host.Outcome State Fault Refusal := .next (s.lofts t 0x61 f)

/-- LB_DROP (R340). -/
def execLbDrop (t : Nat) (f : LFields) (s : State) : Host.Outcome State Fault Refusal := .next (s.lofts t 0x62 f)

/-- LB_RECV (R359). -/
def execLbRecv (t : Nat) (f : LFields) (s : State) : Host.Outcome State Fault Refusal := .next (s.lofts t 0x63 f)

/-- WFE (R360). -/
def execWfe (t : Nat) (f : LFields) (s : State) : Host.Outcome State Fault Refusal := .next (s.lofts t 0x70 f)

/-- EV_SET (R360). -/
def execEvSet (t : Nat) (f : LFields) (s : State) : Host.Outcome State Fault Refusal := .next (s.lofts t 0x71 f)

/-- EV_CLR (R360). -/
def execEvClr (t : Nat) (f : LFields) (s : State) : Host.Outcome State Fault Refusal := .next (s.lofts t 0x72 f)

/-- TMR (R360). -/
def execTmr (t : Nat) (f : LFields) (s : State) : Host.Outcome State Fault Refusal := .next (s.lofts t 0x73 f)

/-- TIME (R340). -/
def execTime (t : Nat) (f : LFields) (s : State) : Host.Outcome State Fault Refusal := .next (s.lofts t 0x74 f)

/-- THR_WREG (R355). -/
def execThrWreg (t : Nat) (f : LFields) (s : State) : Host.Outcome State Fault Refusal := .next (s.lofts t 0x75 f)

/-- THR_RREG (R355). -/
def execThrRreg (t : Nat) (f : LFields) (s : State) : Host.Outcome State Fault Refusal := .next (s.lofts t 0x76 f)

/-- THR_START (R355). -/
def execThrStart (t : Nat) (f : LFields) (s : State) : Host.Outcome State Fault Refusal := .next (s.lofts t 0x77 f)

/-- THR_STOP (R355). -/
def execThrStop (t : Nat) (f : LFields) (s : State) : Host.Outcome State Fault Refusal := .next (s.lofts t 0x78 f)

/-- THR_RESET (R356). -/
def execThrReset (t : Nat) (f : LFields) (s : State) : Host.Outcome State Fault Refusal := .next (s.lofts t 0x79 f)

/-- THR_STAT (R355). -/
def execThrStat (t : Nat) (f : LFields) (s : State) : Host.Outcome State Fault Refusal := .next (s.lofts t 0x7A f)

/-- BELL (R428). -/
def execBell (t : Nat) (f : LFields) (s : State) : Host.Outcome State Fault Refusal := .next (s.lofts t 0x7B f)

/-- VRET (R364). -/
def execVret (t : Nat) (f : LFields) (s : State) : Host.Outcome State Fault Refusal := .next (s.lofts t 0x7C f)

/-- TRAP (R340). -/
def execTrap (t : Nat) (f : LFields) (s : State) : Host.Outcome State Fault Refusal := .next (s.lofts t 0x7D f)

/-- BRK (R370). -/
def execBrk (t : Nat) (f : LFields) (s : State) : Host.Outcome State Fault Refusal := .next (s.lofts t 0x7E f)

/-- STOP (R340). -/
def execStop (t : Nat) (f : LFields) (s : State) : Host.Outcome State Fault Refusal := .next (s.lofts t 0x7F f)

end Sys2Proof.Machine
end

