-- ==== Sys2Proof/Machine/Notice.lean ====
section
/-! DEFINITION. Notices (R239 to R247): which one a frame causes, how it is built, its token, and the outcome
of a placed copy. -/

namespace Sys2Proof.Machine

/-! ## Building (R244) -/

/-- An entry of a notice: target, list position, outcome with its list marker. -/
abbrev NoticeEntry := Nat × Nat × Nat

/-- The answer reached a record (R216). -/
def Head.reached (h : Head) : Bool :=
  let cls := h.place 33 31
  let r := h.place 41 34
  h.crow && ((decide (cls ≤ 2) && h.place 30 26 != 0) || r == 0x01 || decide (0x14 ≤ r ∧ r ≤ 0x18) ||
    decide (0x20 ≤ r ∧ r ≤ 0x23) || r == 0x31)

/-- The body of a notice. -/
def State.noticeBody (s : State) (h : Head) (shim : List Byte) (typ reason port : Nat) (es : List NoticeEntry) :
    List Byte :=
  let hit := h.reached
  natBe 1 1 ++ natBe 1 typ ++ natBe 1 reason ++ natBe 1 es.length ++
    natBe 4 (if hit then h.place 63 42 else 0xFFFFFFFF) ++ natBe 4 (if hit then h.place 95 64 else 0) ++
    natBe 2 port ++ natBe 1 (shimOp shim) ++ natBe 1 0 ++ natBe 8 (s.rd64 pchNodeIdLo) ++
    es.flatMap fun e => natBe 2 e.1 ++ natBe 1 e.2.1 ++ natBe 1 e.2.2

/-- The shim of a notice: that of the frame with its fixed fields replaced. -/
def noticeShim (ver : Nat) (shim body : List Byte) : List Byte :=
  let key := shimKey shim
  let pad := List.replicate ((4 - key.length % 4) % 4) (0 : Byte)
  let len := (shimFixed ver + key.length + pad.length) / 4
  natBe 2 0x4B50 ++ natBe 1 ver ++ natBe 1 len ++ natBe 1 5 ++ natBe 1 3 ++ slice shim 6 18 ++
    (if ver = 1 then [] else natBe 1 (shimFrag shim) ++ natBe 1 (shimStripe shim) ++ natBe 2 0) ++
    (if ver = 3 then slice body 8 4 ++ natBe 4 body.length ++ natBe 2 0 ++ natBe 2 0 else []) ++
    key ++ pad

/-- The UDP segment with its checksum, from the pseudo header's sum. -/
def udpSeal (pseudo : List Byte) (sp dp : Nat) (payload : List Byte) : List Byte :=
  let len := 8 + payload.length
  let seg (c : Nat) : List Byte := natBe 2 sp ++ natBe 2 dp ++ natBe 2 len ++ natBe 2 c ++ payload
  let c := 65535 - onesSum (pseudo ++ seg 0)
  seg (if c = 0 then 65535 else c)

/-- The bytes of a notice without FCS: `d` the frame's bytes, `src` its source address as received, `shim`
its shim, `inp` its IN_PORT. -/
def State.noticeBytes (s : State) (h : Head) (d src shim : List Byte) (inp : Nat) (body : List Byte) : List Byte :=
  let l := h.layers
  let v4 := ipVersion d l.ip == 4
  let dscp := s.rf crwNoticeCfg 10 5
  let ver := h.shimVer
  let payload := noticeShim ver shim body ++ body
  let sp := beAt d (l.udp + 2) 2
  let np := shimNoticePort shim
  let dp := if np ≠ 0 then np else beAt d l.udp 2
  let eth := src ++ s.portMac inp ++ slice d 12 (l.ip - 12)
  let ulen := 8 + payload.length
  if v4 then
    let a := slice d (l.ip + 16) 4
    let b := slice d (l.ip + 12) 4
    let hd (c : Nat) : List Byte := natBe 1 0x45 ++ natBe 1 (dscp * 4) ++ natBe 2 (20 + ulen) ++ natBe 2 0 ++
      natBe 2 0x4000 ++ natBe 1 64 ++ natBe 1 17 ++ natBe 2 c ++ a ++ b
    eth ++ hd (65535 - onesSum (hd 0)) ++ udpSeal (a ++ b ++ natBe 2 17 ++ natBe 2 ulen) sp dp payload
  else
    let a := slice d (l.ip + 24) 16
    let b := slice d (l.ip + 8) 16
    eth ++ natBe 4 (6 * 2 ^ 28 + dscp * 2 ^ 22) ++ natBe 2 ulen ++ natBe 1 17 ++ natBe 1 64 ++ a ++ b ++
      udpSeal (a ++ b ++ natBe 4 ulen ++ natBe 4 17) sp dp payload

/-! ## Sending (R246, R247) -/

/-- A full bucket, in millionths of a token. -/
def fullTokens : Nat := 64000000

def State.noticeTokens (s : State) (sl : Nat) : Nat := tget fullTokens s.crw.tokens sl
def State.setTokens (s : State) (sl v : Nat) : State :=
  { s with crw := { s.crw with tokens := tset fullTokens s.crw.tokens sl v } }

/-- NOTICE_BUILD: a notice of type `typ` leaves slice sl by the frame's IN_PORT, or is counted. `via` is the
port it enters Stairwell from. -/
def State.sendNotice (s : State) (sl via : Nat) (h : Head) (d src shim : List Byte) (inp typ reason port : Nat)
    (es : List NoticeEntry) : State :=
  let l := h.layers
  let bs := s.noticeBytes h d src shim inp (s.noticeBody h shim typ reason port es)
  let whole := bs ++ List.replicate (60 - bs.length) (0 : Byte)
  if !l.marked ∨ !(ipKnown d l.ip) ∨ s.mtu inp < whole.length + 4 then s.count evCrwNoticeUnbuilt sl 0
  else if s.rf crwNoticeRate 15 0 = 0 ∨ s.noticeTokens sl < 1000000 then s.count evCrwNoticeRateDrop sl 0
  else
    let s1 := (s.setTokens sl (s.noticeTokens sl - 1000000)).count evCrwNoticeSent sl (typ - 1)
    (s1.directEnter { Frame.init with
      port := via, origin := 5, data := whole, orig := whole, len := whole.length + 4, settled := true, noticed := true }
      0 (s.rf crwNoticeCfg 13 11) 0 [(inp, none)]).1

/-- A notice of this type is enabled (R243). -/
def State.noticeOn (s : State) (typ : Nat) : Bool :=
  if typ = 1 then s.rb crwNoticeCfg 0 else if typ = 4 then s.rb crwNoticeCfg 3
  else if typ = 5 then s.rb crwNoticeCfg 4 else typ == 2

/-- The event that wins: CHECK_FAIL, or the lowest type. -/
def winEvent (l : List (Nat × Nat)) : Option (Nat × Nat) :=
  match l.find? fun e => e.1 == 5 with
  | some e => some e
  | none => l.foldl (fun best e => match best with
    | none => some e
    | some b => if e.1 < b.1 then some e else some b) none

/-- The entries of a WRITE_REPORT (R242). -/
def Head.reportEntries (h : Head) : List NoticeEntry := h.report.take 24

/-- NOTICE_DECIDE (R243): the ingress of frame f is over; the slice sends at most one notice. -/
def execNoticeDecide (f : Nat) (s : State) : Host.Outcome State Fault Refusal :=
  let x := s.frame f
  if !(s.hasFrame f) ∨ !x.settled ∨ x.noticed then .next s
  else
    let h := x.head
    let s1 := match winEvent (x.events.filter fun e => s.noticeOn e.1) with
      | none => s
      | some (t, r) =>
        s.sendNotice x.slice x.port h x.orig (slice x.orig 6 6) h.shim x.port t r x.port
          (if t = 2 then h.reportEntries else [])
    .next ((s1.setFrame f { s1.frame f with noticed := true }).tidy f)

/-- NOTICE_TOKEN_REFILL (R247): a refill tick adds RATE × 128 millionths of a token, to at most 64. -/
def execNoticeTokenRefill (sl : Nat) (s : State) : Host.Outcome State Fault Refusal :=
  .next (s.setTokens sl (min fullTokens (s.noticeTokens sl + s.rf crwNoticeRate 15 0 * 128)))

/-! ## Outcomes of placed copies (R239 to R241) -/

/-- COPY_OUTCOME (R239): the outcome of a placed copy that has been sent or abandoned. -/
def execCopyOutcome (c : Nat) (s : State) : Host.Outcome State Fault Refusal :=
  let y := s.copy c
  if y.st ≠ 3 ∨ y.told ∨ !y.counts then .next s
  else
    let r := y.result
    let x := s.frame y.fid
    let s1 := s.setCopy c { y with told := true }
    if r < 0x10 then .next (s1.copyGone c)
    else
      let s2 := s1.count evCrwCopyOutcome y.port (r - 0x10)
      let m := y.member.getD ⟨0, 0, 0, false, 0⟩
      let e : NoticeEntry := (m.target, m.pos, r + 128 * nat m.pend)
      let s3 := if s.rb crwNoticeCfg 1 ∧ x.head.isRequest then
          s2.sendNotice y.dst y.port x.head x.data (slice x.orig 6 6) (slice x.data x.head.layers.shim 192) x.port 3 0 y.port [e]
        else s2
      .next (s3.copyGone c)

end Sys2Proof.Machine
end

