-- ==== Sys2Proof/Machine/Dispatch.lean ====
section
/-! DEFINITION. The dispatch: one arm per command, one direct call of its meaning. -/

namespace Sys2Proof.Machine

/-- The effect of command `i` on everything but the queue. -/
def exec (i : Instr) (s : State) : Host.Outcome State Fault Refusal :=
  match i with
  | .registerWrite a v => Sys2Proof.Machine.execRegisterWrite a v s
  | .misalignedRegisterAccess fn write a size => Sys2Proof.Machine.execMisalignedRegisterAccess fn write a size s
  | .reservedOffsetAccess write a => Sys2Proof.Machine.execReservedOffsetAccess write a s
  | .pairLowerRead a => Sys2Proof.Machine.execPairLowerRead a s
  | .pairUpperWrite a v => Sys2Proof.Machine.execPairUpperWrite a v s
  | .rcFieldRead a => Sys2Proof.Machine.execRcFieldRead a s
  | .setRegisterWrite a v => Sys2Proof.Machine.execSetRegisterWrite a v s
  | .clrRegisterWrite a v => Sys2Proof.Machine.execClrRegisterWrite a v s
  | .frameReceive n bytes err total fecC fecU => Sys2Proof.Machine.execFrameReceive n bytes err total fecC fecU s
  | .sliceWake sl => Sys2Proof.Machine.execSliceWake sl s
  | .frameBegin n => Sys2Proof.Machine.execFrameBegin n s
  | .frameEnd n => Sys2Proof.Machine.execFrameEnd n s
  | .linkUp n => Sys2Proof.Machine.execLinkUp n s
  | .linkDown n => Sys2Proof.Machine.execLinkDown n s
  | .autoNegotiation n ok => Sys2Proof.Machine.execAutoNegotiation n ok s
  | .linkTraining n => Sys2Proof.Machine.execLinkTraining n s
  | .laneRateWrite o v => Sys2Proof.Machine.execLaneRateWrite o v s
  | .portCfgWrite n v => Sys2Proof.Machine.execPortCfgWrite n v s
  | .portMtuWrite n v => Sys2Proof.Machine.execPortMtuWrite n v s
  | .pfcReceive n vec times => Sys2Proof.Machine.execPfcReceive n vec times s
  | .pauseReceive n time => Sys2Proof.Machine.execPauseReceive n time s
  | .pauseTimerExpire n k => Sys2Proof.Machine.execPauseTimerExpire n k s
  | .pfcGenerate n => Sys2Proof.Machine.execPfcGenerate n s
  | .pfcRefresh n => Sys2Proof.Machine.execPfcRefresh n s
  | .tsTagRead n => Sys2Proof.Machine.execTsTagRead n s
  | .helloReceive n frame => Sys2Proof.Machine.execHelloReceive n frame s
  | .partnerHoldExpire n => Sys2Proof.Machine.execPartnerHoldExpire n s
  | .partnerStatePost n => Sys2Proof.Machine.execPartnerStatePost n s
  | .helloSend n => Sys2Proof.Machine.execHelloSend n s
  | .helloReply n => Sys2Proof.Machine.execHelloReply n s
  | .headAccept f => Sys2Proof.Machine.execHeadAccept f s
  | .parseComplete f upset => Sys2Proof.Machine.execParseComplete f upset s
  | .ucWrite v => Sys2Proof.Machine.execUcWrite v s
  | .ucRead v => Sys2Proof.Machine.execUcRead v s
  | .storeScrub sl a e => Sys2Proof.Machine.execStoreScrub sl a e s
  | .stageLookup f upset => Sys2Proof.Machine.execStageLookup f upset s
  | .remoteAnswerArrive f k => Sys2Proof.Machine.execRemoteAnswerArrive f k s
  | .parkRelease f => Sys2Proof.Machine.execParkRelease f s
  | .headSlotArbitrate sl => Sys2Proof.Machine.execHeadSlotArbitrate sl s
  | .reentryAgeLimit sl => Sys2Proof.Machine.execReentryAgeLimit sl s
  | .chainEnd f => Sys2Proof.Machine.execChainEnd f s
  | .stageCfgWrite sl st v => Sys2Proof.Machine.execStageCfgWrite sl st v s
  | .genOpen => Sys2Proof.Machine.execGenOpen s
  | .genCommit => Sys2Proof.Machine.execGenCommit s
  | .genAbort => Sys2Proof.Machine.execGenAbort s
  | .drainEnd => Sys2Proof.Machine.execDrainEnd s
  | .drainTimeout => Sys2Proof.Machine.execDrainTimeout s
  | .settlingEnd => Sys2Proof.Machine.execSettlingEnd s
  | .actionWrite v => Sys2Proof.Machine.execActionWrite v s
  | .actionRead v => Sys2Proof.Machine.execActionRead v s
  | .definitionWrite v => Sys2Proof.Machine.execDefinitionWrite v s
  | .definitionRead v => Sys2Proof.Machine.execDefinitionRead v s
  | .exactInsert v => Sys2Proof.Machine.execExactInsert v s
  | .exactDelete v => Sys2Proof.Machine.execExactDelete v s
  | .exactSearch v => Sys2Proof.Machine.execExactSearch v s
  | .portDefaultWrite n c v => Sys2Proof.Machine.execPortDefaultWrite n c v s
  | .stageSramScrub sl a e => Sys2Proof.Machine.execStageSramScrub sl a e s
  | .galInsert v => Sys2Proof.Machine.execGalInsert v s
  | .galDelete v => Sys2Proof.Machine.execGalDelete v s
  | .galFind v => Sys2Proof.Machine.execGalFind v s
  | .galProbe v => Sys2Proof.Machine.execGalProbe v s
  | .galJobStart v => Sys2Proof.Machine.execGalJobStart v s
  | .galJobAbort v => Sys2Proof.Machine.execGalJobAbort v s
  | .galJobRecord => Sys2Proof.Machine.execGalJobRecord s
  | .galScrubVisit sl bank row bad => Sys2Proof.Machine.execGalScrubVisit sl bank row bad s
  | .galRepair sl bank row e => Sys2Proof.Machine.execGalRepair sl bank row e s
  | .lrdTableCfgWrite t v => Sys2Proof.Machine.execLrdTableCfgWrite t v s
  | .lrdAgeWrite t v => Sys2Proof.Machine.execLrdAgeWrite t v s
  | .larderSearch f j => Sys2Proof.Machine.execLarderSearch f j s
  | .cellarSearchRelease => Sys2Proof.Machine.execCellarSearchRelease s
  | .learnRequestApply => Sys2Proof.Machine.execLearnRequestApply s
  | .sweepVisit t b => Sys2Proof.Machine.execSweepVisit t b s
  | .lrdInsert v => Sys2Proof.Machine.execLrdInsert v s
  | .lrdDelete v => Sys2Proof.Machine.execLrdDelete v s
  | .lrdRead v => Sys2Proof.Machine.execLrdRead v s
  | .lrdCompareReplace v => Sys2Proof.Machine.execLrdCompareReplace v s
  | .lrdTouch v => Sys2Proof.Machine.execLrdTouch v s
  | .lrdJobStart v => Sys2Proof.Machine.execLrdJobStart v s
  | .lrdJobAbort v => Sys2Proof.Machine.execLrdJobAbort v s
  | .lrdJobStep => Sys2Proof.Machine.execLrdJobStep s
  | .lrdScrub u e => Sys2Proof.Machine.execLrdScrub u e s
  | .lrdEccFree => Sys2Proof.Machine.execLrdEccFree s
  | .lrdTemplateWrite lrn t v => Sys2Proof.Machine.execLrdTemplateWrite lrn t v s
  | .crowsnestCall => Sys2Proof.Machine.execCrowsnestCall s
  | .callTimeout f j => Sys2Proof.Machine.execCallTimeout f j s
  | .cacheMissFill g => Sys2Proof.Machine.execCacheMissFill g s
  | .crwCacheScrub g e => Sys2Proof.Machine.execCrwCacheScrub g e s
  | .rosterWrite v => Sys2Proof.Machine.execRosterWrite v s
  | .rosterRead v => Sys2Proof.Machine.execRosterRead v s
  | .setHealth v => Sys2Proof.Machine.execSetHealth v s
  | .setLoad v => Sys2Proof.Machine.execSetLoad v s
  | .groupRead v => Sys2Proof.Machine.execGroupRead v s
  | .groupWrite v => Sys2Proof.Machine.execGroupWrite v s
  | .probe v => Sys2Proof.Machine.execProbe v s
  | .rank v => Sys2Proof.Machine.execRank v s
  | .crwCfgWrite v => Sys2Proof.Machine.execCrwCfgWrite v s
  | .buildStart v => Sys2Proof.Machine.execBuildStart v s
  | .buildAbort v => Sys2Proof.Machine.execBuildAbort v s
  | .buildGroup g => Sys2Proof.Machine.execBuildGroup g s
  | .loadSampleReceive sl => Sys2Proof.Machine.execLoadSampleReceive sl s
  | .migBegin v => Sys2Proof.Machine.execMigBegin v s
  | .migFinish v => Sys2Proof.Machine.execMigFinish v s
  | .migAbort v => Sys2Proof.Machine.execMigAbort v s
  | .migStep => Sys2Proof.Machine.execMigStep s
  | .migDrainEnd => Sys2Proof.Machine.execMigDrainEnd s
  | .migDrainTimeout => Sys2Proof.Machine.execMigDrainTimeout s
  | .migMark v => Sys2Proof.Machine.execMigMark v s
  | .noticeDecide f => Sys2Proof.Machine.execNoticeDecide f s
  | .noticeTokenRefill sl => Sys2Proof.Machine.execNoticeTokenRefill sl s
  | .copyOutcome c => Sys2Proof.Machine.execCopyOutcome c s
  | .checkVerify f => Sys2Proof.Machine.execCheckVerify f s
  | .checkAppend c => Sys2Proof.Machine.execCheckAppend c s
  | .checkProfileWrite p v => Sys2Proof.Machine.execCheckProfileWrite p v s
  | .voqAdmit f => Sys2Proof.Machine.execVoqAdmit f s
  | .spillWrite sl q => Sys2Proof.Machine.execSpillWrite sl q s
  | .spillReadback sl q chainBad => Sys2Proof.Machine.execSpillReadback sl q chainBad s
  | .grantRound grants => Sys2Proof.Machine.execGrantRound grants s
  | .cellArrive src q crcBad => Sys2Proof.Machine.execCellArrive src q crcBad s
  | .copyFinishReport f e => Sys2Proof.Machine.execCopyFinishReport f e s
  | .downHoldExpire n => Sys2Proof.Machine.execDownHoldExpire n s
  | .stwSetWrite v => Sys2Proof.Machine.execStwSetWrite v s
  | .stwSetRead v => Sys2Proof.Machine.execStwSetRead v s
  | .stwGroupWrite v => Sys2Proof.Machine.execStwGroupWrite v s
  | .stwGroupRead v => Sys2Proof.Machine.execStwGroupRead v s
  | .stwMemberWrite v => Sys2Proof.Machine.execStwMemberWrite v s
  | .stwMemberRead v => Sys2Proof.Machine.execStwMemberRead v s
  | .flush v => Sys2Proof.Machine.execFlush v s
  | .hashProfileCommit k v => Sys2Proof.Machine.execHashProfileCommit k v s
  | .pantryScrub sl f e => Sys2Proof.Machine.execPantryScrub sl f e s
  | .refillTick => Sys2Proof.Machine.execRefillTick s
  | .policerWrite v => Sys2Proof.Machine.execPolicerWrite v s
  | .policerRead v => Sys2Proof.Machine.execPolicerRead v s
  | .schedDecision n => Sys2Proof.Machine.execSchedDecision n s
  | .shaperRateWrite j v => Sys2Proof.Machine.execShaperRateWrite j v s
  | .shaperBurstWrite j v => Sys2Proof.Machine.execShaperBurstWrite j v s
  | .sampleInstant => Sys2Proof.Machine.execSampleInstant s
  | .sheetScrub shaper sl ix e => Sys2Proof.Machine.execSheetScrub shaper sl ix e s
  | .nop t f => Sys2Proof.Machine.execNop t f s
  | .add t f => Sys2Proof.Machine.execAdd t f s
  | .sub t f => Sys2Proof.Machine.execSub t f s
  | .and t f => Sys2Proof.Machine.execAnd t f s
  | .or t f => Sys2Proof.Machine.execOr t f s
  | .xor t f => Sys2Proof.Machine.execXor t f s
  | .shl t f => Sys2Proof.Machine.execShl t f s
  | .shr t f => Sys2Proof.Machine.execShr t f s
  | .sar t f => Sys2Proof.Machine.execSar t f s
  | .mul t f => Sys2Proof.Machine.execMul t f s
  | .mulh t f => Sys2Proof.Machine.execMulh t f s
  | .slt t f => Sys2Proof.Machine.execSlt t f s
  | .sltu t f => Sys2Proof.Machine.execSltu t f s
  | .bext t f => Sys2Proof.Machine.execBext t f s
  | .bins t f => Sys2Proof.Machine.execBins t f s
  | .popc t f => Sys2Proof.Machine.execPopc t f s
  | .clz t f => Sys2Proof.Machine.execClz t f s
  | .addi t f => Sys2Proof.Machine.execAddi t f s
  | .andi t f => Sys2Proof.Machine.execAndi t f s
  | .ori t f => Sys2Proof.Machine.execOri t f s
  | .xori t f => Sys2Proof.Machine.execXori t f s
  | .shli t f => Sys2Proof.Machine.execShli t f s
  | .shri t f => Sys2Proof.Machine.execShri t f s
  | .sari t f => Sys2Proof.Machine.execSari t f s
  | .li t f => Sys2Proof.Machine.execLi t f s
  | .lih t f => Sys2Proof.Machine.execLih t f s
  | .bswap t f => Sys2Proof.Machine.execBswap t f s
  | .beq t f => Sys2Proof.Machine.execBeq t f s
  | .bne t f => Sys2Proof.Machine.execBne t f s
  | .blt t f => Sys2Proof.Machine.execBlt t f s
  | .bge t f => Sys2Proof.Machine.execBge t f s
  | .bltu t f => Sys2Proof.Machine.execBltu t f s
  | .bgeu t f => Sys2Proof.Machine.execBgeu t f s
  | .jal t f => Sys2Proof.Machine.execJal t f s
  | .jalr t f => Sys2Proof.Machine.execJalr t f s
  | .ld t f => Sys2Proof.Machine.execLd t f s
  | .lds t f => Sys2Proof.Machine.execLds t f s
  | .st t f => Sys2Proof.Machine.execSt t f s
  | .amoAdd t f => Sys2Proof.Machine.execAmoAdd t f s
  | .amoSwap t f => Sys2Proof.Machine.execAmoSwap t f s
  | .amoCas t f => Sys2Proof.Machine.execAmoCas t f s
  | .tkNext t f => Sys2Proof.Machine.execTkNext t f s
  | .pktRd t f => Sys2Proof.Machine.execPktRd t f s
  | .pktWr t f => Sys2Proof.Machine.execPktWr t f s
  | .tkEmit t f => Sys2Proof.Machine.execTkEmit t f s
  | .tkReinject t f => Sys2Proof.Machine.execTkReinject t f s
  | .tkHost t f => Sys2Proof.Machine.execTkHost t f s
  | .tkDone t f => Sys2Proof.Machine.execTkDone t f s
  | .tbl t f => Sys2Proof.Machine.execTbl t f s
  | .chk t f => Sys2Proof.Machine.execChk t f s
  | .dma t f => Sys2Proof.Machine.execDma t f s
  | .lbPut t f => Sys2Proof.Machine.execLbPut t f s
  | .lbSend t f => Sys2Proof.Machine.execLbSend t f s
  | .lbDrop t f => Sys2Proof.Machine.execLbDrop t f s
  | .lbRecv t f => Sys2Proof.Machine.execLbRecv t f s
  | .wfe t f => Sys2Proof.Machine.execWfe t f s
  | .evSet t f => Sys2Proof.Machine.execEvSet t f s
  | .evClr t f => Sys2Proof.Machine.execEvClr t f s
  | .tmr t f => Sys2Proof.Machine.execTmr t f s
  | .time t f => Sys2Proof.Machine.execTime t f s
  | .thrWreg t f => Sys2Proof.Machine.execThrWreg t f s
  | .thrRreg t f => Sys2Proof.Machine.execThrRreg t f s
  | .thrStart t f => Sys2Proof.Machine.execThrStart t f s
  | .thrStop t f => Sys2Proof.Machine.execThrStop t f s
  | .thrReset t f => Sys2Proof.Machine.execThrReset t f s
  | .thrStat t f => Sys2Proof.Machine.execThrStat t f s
  | .bell t f => Sys2Proof.Machine.execBell t f s
  | .vret t f => Sys2Proof.Machine.execVret t f s
  | .trap t f => Sys2Proof.Machine.execTrap t f s
  | .brk t f => Sys2Proof.Machine.execBrk t f s
  | .stop t f => Sys2Proof.Machine.execStop t f s
  | .wInstructionComplete t => Sys2Proof.Machine.execWInstructionComplete t s
  | .timerDeadline t => Sys2Proof.Machine.execTimerDeadline t s
  | .ticketEnqueue id => Sys2Proof.Machine.execTicketEnqueue id s
  | .waitDeadlock e => Sys2Proof.Machine.execWaitDeadlock e s
  | .breakpointHalt t => Sys2Proof.Machine.execBreakpointHalt t s
  | .engineStop e => Sys2Proof.Machine.execEngineStop e s
  | .engineRestart e => Sys2Proof.Machine.execEngineRestart e s
  | .dbgHalt => Sys2Proof.Machine.execDbgHalt s
  | .dbgResume => Sys2Proof.Machine.execDbgResume s
  | .dbgStep => Sys2Proof.Machine.execDbgStep s
  | .dbgRead reg => Sys2Proof.Machine.execDbgRead reg s
  | .dbgWrite reg => Sys2Proof.Machine.execDbgWrite reg s
  | .dbgHaltEngine => Sys2Proof.Machine.execDbgHaltEngine s
  | .dbgResumeEngine => Sys2Proof.Machine.execDbgResumeEngine s
  | .hostIsWrite addr => Sys2Proof.Machine.execHostIsWrite addr s
  | .hostIsRead addr => Sys2Proof.Machine.execHostIsRead addr s
  | .hostShWrite addr => Sys2Proof.Machine.execHostShWrite addr s
  | .hostShRead addr => Sys2Proof.Machine.execHostShRead addr s
  | .hostThrStart t => Sys2Proof.Machine.execHostThrStart t s
  | .hostThrStop t => Sys2Proof.Machine.execHostThrStop t s
  | .hostThrReset t => Sys2Proof.Machine.execHostThrReset t s
  | .loftWake l => Sys2Proof.Machine.execLoftWake l s
  | .loftsScrub m ix e => Sys2Proof.Machine.execLoftsScrub m ix e s
  | .crwReserveWrite v => Sys2Proof.Machine.execCrwReserveWrite v s
  | .poolValidWrite k v => Sys2Proof.Machine.execPoolValidWrite k v s
  | .poolFormatDone k => Sys2Proof.Machine.execPoolFormatDone k s
  | .bufferRequest id => Sys2Proof.Machine.execBufferRequest id s
  | .cacheRefill k => Sys2Proof.Machine.execCacheRefill k s
  | .grantQueueTimeout id => Sys2Proof.Machine.execGrantQueueTimeout id s
  | .bufferFree f v => Sys2Proof.Machine.execBufferFree f v s
  | .bufferShare f v => Sys2Proof.Machine.execBufferShare f v s
  | .grantRegisterRead f k => Sys2Proof.Machine.execGrantRegisterRead f k s
  | .grantRegisterRefill f k => Sys2Proof.Machine.execGrantRegisterRefill f k s
  | .reclaimStart v => Sys2Proof.Machine.execReclaimStart v s
  | .reclaimVisit => Sys2Proof.Machine.execReclaimVisit s
  | .cupboardScrub k w e => Sys2Proof.Machine.execCupboardScrub k w e s
  | .hostLinkTrain mode speed width lopt => Sys2Proof.Machine.execHostLinkTrain mode speed width lopt s
  | .perstReset e => Sys2Proof.Machine.execPerstReset e s
  | .functionLevelReset f => Sys2Proof.Machine.execFunctionLevelReset f s
  | .sqDoorbell q v => Sys2Proof.Machine.execSqDoorbell q v s
  | .cqCiWrite q v => Sys2Proof.Machine.execCqCiWrite q v s
  | .entryFetch q words => Sys2Proof.Machine.execEntryFetch q words s
  | .nopEntry q => Sys2Proof.Machine.execNopEntry q s
  | .sendPipeline q => Sys2Proof.Machine.execSendPipeline q s
  | .sendDirect q => Sys2Proof.Machine.execSendDirect q s
  | .ticketEntry q => Sys2Proof.Machine.execTicketEntry q s
  | .recvEntry q => Sys2Proof.Machine.execRecvEntry q s
  | .completionWrite q => Sys2Proof.Machine.execCompletionWrite q s
  | .completionSignal q => Sys2Proof.Machine.execCompletionSignal q s
  | .qpPause q => Sys2Proof.Machine.execQpPause q s
  | .qpResume q => Sys2Proof.Machine.execQpResume q s
  | .qpReset q => Sys2Proof.Machine.execQpReset q s
  | .haltClear => Sys2Proof.Machine.execHaltClear s
  | .formatGenWrite f v => Sys2Proof.Machine.execFormatGenWrite f v s
  | .qpEnable q v => Sys2Proof.Machine.execQpEnable q v s
  | .fnQpWrite f v => Sys2Proof.Machine.execFnQpWrite f v s
  | .hostSleepEnter f l2 => Sys2Proof.Machine.execHostSleepEnter f l2 s
  | .hostWake f => Sys2Proof.Machine.execHostWake f s
  | .hostMemAccess bar4 range off write len hold => Sys2Proof.Machine.execHostMemAccess bar4 range off write len hold s
  | .sourceAssert src => Sys2Proof.Machine.execSourceAssert src s
  | .bellPull v => Sys2Proof.Machine.execBellPull v s
  | .arbitrate t parity => Sys2Proof.Machine.execArbitrate t parity s
  | .vectorCommit e => Sys2Proof.Machine.execVectorCommit e s
  | .atticVector => Sys2Proof.Machine.execAtticVector s
  | .msixSend fn vec => Sys2Proof.Machine.execMsixSend fn vec s
  | .eoiWrite fn v => Sys2Proof.Machine.execEoiWrite fn v s
  | .routeWrite src v => Sys2Proof.Machine.execRouteWrite src v s
  | .routeScrub src e => Sys2Proof.Machine.execRouteScrub src e s
  | .cellarRead req addr len e => Sys2Proof.Machine.execCellarRead req addr len e s
  | .cellarWrite req addr data poison => Sys2Proof.Machine.execCellarWrite req addr data poison s
  | .bankRefresh stack pch bank => Sys2Proof.Machine.execBankRefresh stack pch bank s
  | .selfRefreshEntry k => Sys2Proof.Machine.execSelfRefreshEntry k s
  | .selfRefreshExit k => Sys2Proof.Machine.execSelfRefreshExit k s
  | .activationWindowEnd => Sys2Proof.Machine.execActivationWindowEnd s
  | .caParityAlert stack ch => Sys2Proof.Machine.execCaParityAlert stack ch s
  | .patrolScrub stack pch e => Sys2Proof.Machine.execPatrolScrub stack pch e s
  | .scrubWake k => Sys2Proof.Machine.execScrubWake k s
  | .celPartWrite v => Sys2Proof.Machine.execCelPartWrite v s
  | .celLockWrite v => Sys2Proof.Machine.execCelLockWrite v s
  | .coldStart slotStrap flashStrap testMode => Sys2Proof.Machine.execColdStart slotStrap flashStrap testMode s
  | .vddAonLoss => Sys2Proof.Machine.execVddAonLoss s
  | .bootStageEnd ok progOk => Sys2Proof.Machine.execBootStageEnd ok progOk s
  | .configRecord => Sys2Proof.Machine.execConfigRecord s
  | .pollTimeout => Sys2Proof.Machine.execPollTimeout s
  | .delayExpire => Sys2Proof.Machine.execDelayExpire s
  | .reservedLoftStart => Sys2Proof.Machine.execReservedLoftStart s
  | .flRead a => Sys2Proof.Machine.execFlRead a s
  | .flProgram a => Sys2Proof.Machine.execFlProgram a s
  | .flErase4k a => Sys2Proof.Machine.execFlErase4k a s
  | .flErase64k a => Sys2Proof.Machine.execFlErase64k a s
  | .slotTry tries ok => Sys2Proof.Machine.execSlotTry tries ok s
  | .slotConfirm tries ok fuseOk => Sys2Proof.Machine.execSlotConfirm tries ok fuseOk s
  | .slotRevert tries ok => Sys2Proof.Machine.execSlotRevert tries ok s
  | .autoConfirm ok fuseOk => Sys2Proof.Machine.execAutoConfirm ok fuseOk s
  | .timeTick => Sys2Proof.Machine.execTimeTick s
  | .timeAdjWrite v => Sys2Proof.Machine.execTimeAdjWrite v s
  | .timeSetWrite v => Sys2Proof.Machine.execTimeSetWrite v s
  | .timeIncrWrite v => Sys2Proof.Machine.execTimeIncrWrite v s
  | .powerTargetWrite v => Sys2Proof.Machine.execPowerTargetWrite v s
  | .shutterComplete => Sys2Proof.Machine.execShutterComplete s
  | .shutteredWake cause => Sys2Proof.Machine.execShutteredWake cause s
  | .sliceGate sl => Sys2Proof.Machine.execSliceGate sl s
  | .periodicScrubWake => Sys2Proof.Machine.execPeriodicScrubWake s
  | .deviceRestart => Sys2Proof.Machine.execDeviceRestart s
  | .sliceRestart sl => Sys2Proof.Machine.execSliceRestart sl s
  | .sidebandAccess addr write off v => Sys2Proof.Machine.execSidebandAccess addr write off v s
  | .reportPresent src inst info => Sys2Proof.Machine.execReportPresent src inst info s
  | .reportTake => Sys2Proof.Machine.execReportTake s
  | .safeEnterWrite => Sys2Proof.Machine.execSafeEnterWrite s
  | .safeExitWrite => Sys2Proof.Machine.execSafeExitWrite s
  | .safeAutoExit => Sys2Proof.Machine.execSafeAutoExit s
  | .isolationRelease v => Sys2Proof.Machine.execIsolationRelease v s
  | .monitorDetect src inst info => Sys2Proof.Machine.execMonitorDetect src inst info s
  | .selfCheck parityBad heartbeatLost => Sys2Proof.Machine.execSelfCheck parityBad heartbeatLost s
  | .aliveToggle => Sys2Proof.Machine.execAliveToggle s
  | .injectOneBit v => Sys2Proof.Machine.execInjectOneBit v s
  | .injectTwoBits v => Sys2Proof.Machine.execInjectTwoBits v s
  | .injectReport v => Sys2Proof.Machine.execInjectReport v s
  | .injectParity v => Sys2Proof.Machine.execInjectParity v s
  | .logSelect v => Sys2Proof.Machine.execLogSelect v s
  | .counterSnapshot => Sys2Proof.Machine.execCounterSnapshot s
  | .snapWrite => Sys2Proof.Machine.execSnapWrite s
  | .dumpComplete => Sys2Proof.Machine.execDumpComplete s
  | .counterRead => Sys2Proof.Machine.execCounterRead s
  | .counterDirectorySelect v => Sys2Proof.Machine.execCounterDirectorySelect v s
  | .dumpCfgWrite a v => Sys2Proof.Machine.execDumpCfgWrite a v s
  | .counterScrub ev o ix e => Sys2Proof.Machine.execCounterScrub ev o ix e s
  | .monitorClear src inst => Sys2Proof.Machine.execMonitorClear src inst s
  | .stackTemperatureChange k temp => Sys2Proof.Machine.execStackTemperatureChange k temp s
  | .configRequest f field write => Sys2Proof.Machine.execConfigRequest f field write s
  | .flashCommandEnd ok => Sys2Proof.Machine.execFlashCommandEnd ok s
  | .hostDmaCompletion q idx data => Sys2Proof.Machine.execHostDmaCompletion q idx data s
  | .backInvalidateResponse line => Sys2Proof.Machine.execBackInvalidateResponse line s
  | .jtagAccess ir tdi => Sys2Proof.Machine.execJtagAccess ir tdi s
  | .dynamicAddressAssign a => Sys2Proof.Machine.execDynamicAddressAssign a s

end Sys2Proof.Machine
end

