-- ==== Sys2Proof/Machine/Step.lean ====
section
/-! DEFINITION. The step: the command at the front of the queue, done on the rest. -/

namespace Sys2Proof.Machine

/-- One step: the command at the front of the queue is taken and done; on an empty queue the block idles (DESIGN CHOICE, safe: log entry 1). -/
def step (s : State) : Host.Outcome State Fault Refusal :=
  match s.pending with
  | [] => .next s
  | c :: rest => exec c { s with pending := rest }

/-- The command that a word spells, put at the front of the queue: the table gives no row bits, so no word spells one (DESIGN CHOICE, safe: log entry 12). -/
def State.withFetchWord (s : State) (nbits w : Nat) : State :=
  match decodeTableWord nbits w with
  | some c => { s with pending := c :: s.pending }
  | none => s

end Sys2Proof.Machine
end

