-- ==== Sys2Proof/Safety.lean ====
section
/-! DEFINITION. What claims are stated in: the outcome is a next state (no meaning faults; the one refusal is JTAG_ACCESS
beyond IEEE 1149.1, R475, R554); which pieces of the state a command may change; the byte memories in their canonical
form; fuses that never unblow. -/

namespace Sys2Proof.Machine

/-- The outcome is a next state. -/
def completes (o : Host.Outcome State Fault Refusal) : Bool :=
  match o with
  | .next _ => true
  | .fault _ => false
  | .refused _ => false

/-- The pieces of the state beside the queue of waiting commands. -/
inductive Part where
  | regs
  | held
  | latch
  | rdata
  | time
  | cycles
  | freeCtr
  | ecc
  | mast
  | bell
  | cel
  | attic
  | cup
  | dwy
  | lft
  | pipe
  | hlw
  | gal
  | lrd
  | stw
  | sht
  | crw
  | outbox
deriving DecidableEq, Repr

/-- The piece is in `t` as it is in `s`. -/
def Part.same (p : Part) (s t : State) : Prop :=
  match p with
  | .regs => t.regs = s.regs
  | .held => t.held = s.held
  | .latch => t.latch = s.latch
  | .rdata => t.rdata = s.rdata
  | .time => t.time = s.time
  | .cycles => t.cycles = s.cycles
  | .freeCtr => t.freeCtr = s.freeCtr
  | .ecc => t.ecc = s.ecc
  | .mast => t.mast = s.mast
  | .bell => t.bell = s.bell
  | .cel => t.cel = s.cel
  | .attic => t.attic = s.attic
  | .cup => t.cup = s.cup
  | .dwy => t.dwy = s.dwy
  | .lft => t.lft = s.lft
  | .pipe => t.pipe = s.pipe
  | .hlw => t.hlw = s.hlw
  | .gal => t.gal = s.gal
  | .lrd => t.lrd = s.lrd
  | .stw => t.stw = s.stw
  | .sht => t.sht = s.sht
  | .crw => t.crw = s.crw
  | .outbox => t.outbox = s.outbox

/-- Every piece of the state that `l` does not name is in `t` as it is in `s`. -/
def onlyIn (l : List Part) (s t : State) : Prop := ∀ p, p ∉ l → p.same s t

/-- Every byte memory is in its canonical form: Cellar, the Attic controller's memory, the flash, and the local and
shared memories of the lofts. -/
def State.sound (s : State) : Prop :=
  Memory.wf 0 s.cel.mem = true ∧ Memory.wf 0 s.attic.mem = true ∧ Memory.wf flashErased s.attic.flash = true ∧
    Memory.wf 0 s.lft.localMem = true ∧ Memory.wf 0 s.lft.shared = true

/-- No fuse that is blown in `s` is whole in `t` (R469, R475, R486): the security version does not fall, the test fuse
stays, a key that is set stays set with its hash, a revoked key stays revoked. -/
def fusesStand (s t : State) : Prop :=
  s.attic.fuseSvn ≤ t.attic.fuseSvn ∧ (s.attic.testFuse = true → t.attic.testFuse = true) ∧
    ∀ i, i < 4 →
      ((s.attic.keys.getD i KeySlot.reset).isSet = true →
        (t.attic.keys.getD i KeySlot.reset).isSet = true ∧
        (t.attic.keys.getD i KeySlot.reset).hash = (s.attic.keys.getD i KeySlot.reset).hash) ∧
      ((s.attic.keys.getD i KeySlot.reset).revoked = true → (t.attic.keys.getD i KeySlot.reset).revoked = true)

/-- The register is none of the counters' WRAP registers, which any counted event may set (R524). -/
def noWrap (a : Nat) : Prop := a < cntWrap 0 ∨ cntWrap 32768 ≤ a

/-! ## Threads of the lofts -/

/-- Thread `t` issues opcode `op` with fields `f` next (R333, R334, R340, R371, R498): it may issue, the word at its pc is
that instruction with no reserved field set, the thread may run it, and the word can be read. -/
def State.issues (s : State) (t op : Nat) (f : LFields) : Prop :=
  s.mayIssue t = true ∧ s.wordAt t = lftEncode op f ∧ fieldsOk op f = true ∧
    (if t = atcThread then (s.thr t).pc < 16384 ∧ atcRuns op f = true
     else s.eccOf .lftIs (t / 64 * 32768 + (s.thr t).pc) ≠ .uncorr)

/-- Between `s` and `u` nothing of the lofts but thread `t` changed, and no register but LFT_ENG_STATUS of its engine,
LFT_ERR, which a corrected instruction word sets, and the WRAP registers. -/
def onlyThread (s u : State) (t : Nat) : Prop :=
  (∀ k, k ≠ t → u.thr k = s.thr k) ∧ (∀ e, (u.eng e).flags = (s.eng e).flags) ∧
    u.lft.localMem = s.lft.localMem ∧ u.lft.shared = s.lft.shared ∧ u.lft.istore = s.lft.istore ∧
    u.lft.tickets = s.lft.tickets ∧ u.lft.ports = s.lft.ports ∧
    (∀ a, a ≠ lftEngStatus (t / 8) → a ≠ lftErr → noWrap a → u.rd a = s.rd a) ∧
    onlyIn [.regs, .ecc, .mast, .lft] s u

/-- Thread `t` has executed its instruction at once: register `d` holds `v`, unless it is x0, which stays zero, its pc is
`p`, its other registers and all else of it stand, and so does the rest of the lofts. -/
def retires (s u : State) (t d : Nat) (v : Word64) (p : Nat) : Prop :=
  (∃ x, u.thr t = { s.thr t with x := x, pc := p, tail := false }) ∧
    (∀ i, (u.thr t).get i = if i = d ∧ d ≠ 0 then v else (s.thr t).get i) ∧ onlyThread s u t

/-- The instruction after that of thread `t` (R332). -/
def State.nextPc (s : State) (t : Nat) : Nat := ((s.thr t).pc + 1) % 32768

/-- The state in which an instruction of thread `t` that issues takes effect: its word has been read and the issue
counted, and a tail-chain is no longer in hand (R334, R367, R433). -/
def State.fetched (s : State) (t : Nat) : State :=
  let q := if t = atcThread then (s, true) else s.lftCheck .lftIs (t / 64 * 32768 + (s.thr t).pc)
  let s1 := if t = atcThread then q.1 else q.1.count evLftIssue (t / 8) 0
  s1.setThr t { s1.thr t with tail := false }

/-- Thread `t` waits in a W instruction whose result `v` goes to register `d` when it completes (R335). -/
def waitsWith (u : State) (t d v : Nat) : Prop :=
  (u.thr t).state = 2 ∧ (u.thr t).wait = some ⟨d, BitVec.ofNat 64 v, none⟩

/-- Thread `t` has faulted with a code and a detail (R362, R498): it is FAULTED; the fault of a supervisor has stopped its
engine, and that of the Attic controller the controller. -/
def faults (u : State) (t code detail : Nat) : Prop :=
  (u.thr t).finfo = BitVec.ofNat 64 (code + detail * 256) ∧
    (if t = atcThread then (u.thr t).state = 4 ∧ u.rf atcCtrl 31 30 = 3
     else if t % 8 = 0 then (u.thr t).state = 0 ∧ u.rf (lftEngStatus (t / 8)) 31 30 = 1
     else (u.thr t).state = 4)

/-- An ending instruction of thread `t` has ended with DONE (R348): the thread waits with result 0 and holds no ticket, and
the ticket is gone. -/
def letGo (u : State) (t d id : Nat) : Prop :=
  waitsWith u t d 0 ∧ (u.thr t).ticket = none ∧ tfind u.lft.tickets id = none

/-- A byte memory holds `bs` from address `b` on if `hit`, and is otherwise as it was. -/
def tookBytes (m m' : Tbl Byte) (hit : Option Nat) (bs : List Byte) : Prop :=
  ∀ x, tget 0 m' x = match hit with
    | some b => if b ≤ x ∧ x < b + bs.length then bs.getD (x - b) 0 else tget 0 m x
    | none => tget 0 m x

/-- Of every byte a thread can reach, those at place `r` hold `bs` and all others are as they were. -/
def stored (s u : State) (r : LftRef) (bs : List Byte) : Prop :=
  tookBytes s.lft.localMem u.lft.localMem (match r with | .loc a => some a | _ => none) bs ∧
    tookBytes s.lft.shared u.lft.shared (match r with | .sh a => some a | _ => none) bs ∧
    tookBytes s.attic.mem u.attic.mem (match r with | .atc a => some a | _ => none) bs

/-- The words of the place are free of uncorrectable errors, and the place is no register (R336, R337, R346, R367, R498). -/
def State.wordGood (s : State) (r : LftRef) : Prop :=
  match r with
  | .loc a => s.eccOf .lftLocal (a / 8) ≠ .uncorr
  | .sh a => s.eccOf .lftShared (a / 8) ≠ .uncorr
  | .atc _ => True
  | .reg _ => False
  | .noInbox => True

end Sys2Proof.Machine
end

