-- ==== Sys2Proof/Certificates/Slice0/Obligations.lean ====
section
/-! DEFINITION. The statements for the provers. -/

section

open Sys2Proof Sys2Proof.Machine

/-- A step takes the command at the front of the queue and does it on the rest. For every command, state and rest of
the queue, a step of the state with the command in front of the rest is exec of the command on the state with the
rest; on an empty queue a step changes nothing. The queue and the idling are the model's own (log entry 1). -/
def Obligations.StepRunsFrontCommand : Prop :=
  (∀ (c : Instr) (rest : List Instr) (s : State),
    step { s with pending := c :: rest } = exec c { s with pending := rest }) ∧
  (∀ s : State, s.pending = [] → step s = .next s)

/-- Every command completes in every state, but a JTAG access that the spec hands to the debug unit. Every command on
every state has a next state, whose waiting commands are those of the state before and whose emissions are those
before with none taken back. The one exception is JTAG_ACCESS with an instruction beyond IEEE 1149.1 that the fuses
and the image permit, which is refused by name and by nothing else. -/
def Obligations.EveryCommandCompletes : Prop :=
  ∀ (c : Instr) (s : State),
    (∃ t, exec c s = .next t ∧ t.pending = s.pending ∧ s.outbox <+: t.outbox) ∨
      (∃ ir tdi, c = .jtagAccess ir tdi ∧ 6 ≤ ir ∧
        (s.rb atcBootStatus 24 = true ∨ ∀ k ∈ s.attic.keys, k.isSet = false) ∧ exec c s = .refused .jtagBeyond)

/-- Every step keeps every byte memory in its one canonical form. From every state in which Cellar, the Attic
controller's memory, the flash and the local and shared memories of the lofts list strictly rising addresses and no
byte equal to what an unlisted address reads as, every step that answers a next state leads to such a state, whatever
command is in front: equal memories stay equal data. -/
def Obligations.StepKeepsMemoriesCanonical : Prop :=
  ∀ s t : State, s.sound → step s = .next t → t.sound

/-- The state after reset has every byte memory in canonical form. Every byte memory of the state after reset is in
canonical form, and no command waits. That memories list nothing at reset is the model's choice (log entries 6 and
57). -/
def Obligations.ResetIsCanonical : Prop :=
  State.reset.sound ∧ State.reset.pending = []

/-- No step unblows a fuse. In every state and for whatever command is in front, a step that answers a next state
leaves every blown fuse blown: the security version in fuses does not fall, the test fuse stays, a key that is set
stays set with the same hash, and a revoked key stays revoked; cold starts, restarts, failed fuse actions and image
loads included. -/
def Obligations.FusesNeverUnblow : Prop :=
  ∀ s t : State, step s = .next t → fusesStand s t

/-- A Lofts instruction word gives back its opcode and every field, and no two instructions share a word. For every
opcode of 8 bits and all fields D, A, B and IMM, bits 63 to 56 of the encoded word are the opcode and the word's
fields are the fields; so two encoded words are equal only if opcode and fields are. -/
def Obligations.LoftsWordsRoundTrip : Prop :=
  (∀ (op : Nat) (f : LFields), op < 256 →
    bits (lftEncode op f).toNat 63 56 = op ∧ lftFields (lftEncode op f) = f) ∧
  (∀ (o p : Nat) (f g : LFields), o < 256 → p < 256 → lftEncode o f = lftEncode p g → o = p ∧ f = g)

/-- The three-register instructions of the lofts write xd and touch nothing else. When thread t issues ADD, SUB, AND,
OR, XOR, SHL, SHR, SAR, MUL, MULH, SLT or SLTU, the command completes: xd takes the result of xa and xb (shifts by xb
modulo 64, MUL the low and MULH the high 64 bits of the unsigned product, SLT signed and SLTU unsigned comparison),
writes to x0 are discarded, the pc moves on by one, and nothing else of the lofts changes: no other thread or
register, no memory, no ticket, no flag. -/
def Obligations.LoftsRegisterArithmetic : Prop :=
  ∀ (t : Nat) (f : LFields) (s : State),
    (s.issues t 0x01 f → ∃ u, exec (.add t f) s = .next u ∧
      retires s u t f.d.toNat (s.xa t f + s.xb t f) (s.nextPc t)) ∧
    (s.issues t 0x02 f → ∃ u, exec (.sub t f) s = .next u ∧
      retires s u t f.d.toNat (s.xa t f - s.xb t f) (s.nextPc t)) ∧
    (s.issues t 0x03 f → ∃ u, exec (.and t f) s = .next u ∧
      retires s u t f.d.toNat (s.xa t f &&& s.xb t f) (s.nextPc t)) ∧
    (s.issues t 0x04 f → ∃ u, exec (.or t f) s = .next u ∧
      retires s u t f.d.toNat (s.xa t f ||| s.xb t f) (s.nextPc t)) ∧
    (s.issues t 0x05 f → ∃ u, exec (.xor t f) s = .next u ∧
      retires s u t f.d.toNat (s.xa t f ^^^ s.xb t f) (s.nextPc t)) ∧
    (s.issues t 0x06 f → ∃ u, exec (.shl t f) s = .next u ∧
      retires s u t f.d.toNat (s.xa t f <<< ((s.xb t f).toNat % 64)) (s.nextPc t)) ∧
    (s.issues t 0x07 f → ∃ u, exec (.shr t f) s = .next u ∧
      retires s u t f.d.toNat (s.xa t f >>> ((s.xb t f).toNat % 64)) (s.nextPc t)) ∧
    (s.issues t 0x08 f → ∃ u, exec (.sar t f) s = .next u ∧
      retires s u t f.d.toNat ((s.xa t f).sshiftRight ((s.xb t f).toNat % 64)) (s.nextPc t)) ∧
    (s.issues t 0x09 f → ∃ u, exec (.mul t f) s = .next u ∧
      retires s u t f.d.toNat (BitVec.ofNat 64 ((s.xa t f).toNat * (s.xb t f).toNat)) (s.nextPc t)) ∧
    (s.issues t 0x0A f → ∃ u, exec (.mulh t f) s = .next u ∧
      retires s u t f.d.toNat (BitVec.ofNat 64 ((s.xa t f).toNat * (s.xb t f).toNat / 2 ^ 64)) (s.nextPc t)) ∧
    (s.issues t 0x0B f → ∃ u, exec (.slt t f) s = .next u ∧
      retires s u t f.d.toNat (if (s.xa t f).toInt < (s.xb t f).toInt then 1 else 0) (s.nextPc t)) ∧
    (s.issues t 0x0C f → ∃ u, exec (.sltu t f) s = .next u ∧
      retires s u t f.d.toNat (if (s.xa t f).toNat < (s.xb t f).toNat then 1 else 0) (s.nextPc t))

/-- Bit fields, counts, immediates and byte swaps of the lofts write xd and touch nothing else. When thread t issues
BEXT, BINS, POPC, CLZ, ADDI, ANDI, ORI, XORI, SHLI, SHRI, SARI, LI, LIH or BSWAP, the command completes with xd
holding the value R340 gives, the immediate sign-extended where it is signed; BEXT and BINS act on LEN bits from POS;
LIH keeps the low 23 bits; BSWAP reverses the low 2 to the power IMM bytes into a zero-extended value; the pc moves on
by one and nothing else of the lofts changes. -/
def Obligations.LoftsBitFieldsAndImmediates : Prop :=
  ∀ (t : Nat) (f : LFields) (s : State),
    (s.issues t 0x0D f → ∃ u, exec (.bext t f) s = .next u ∧
      retires s u t f.d.toNat (BitVec.ofNat 64 ((s.xa t f).toNat / 2 ^ (f.uimm % 64) % 2 ^ bits f.uimm 12 6)) (s.nextPc t)) ∧
    (s.issues t 0x0E f → ∃ (u : State) (v : Word64), exec (.bins t f) s = .next u ∧
      retires s u t f.d.toNat v (s.nextPc t) ∧
      ∀ i, i < 64 → v.getLsbD i =
        if f.uimm % 64 ≤ i ∧ i < f.uimm % 64 + bits f.uimm 12 6 then (s.xa t f).getLsbD (i - f.uimm % 64)
        else (s.xd t f).getLsbD i) ∧
    (s.issues t 0x0F f → ∃ u, exec (.popc t f) s = .next u ∧
      retires s u t f.d.toNat (BitVec.ofNat 64 ((upto 64).filter fun i => (s.xa t f).getLsbD i).length) (s.nextPc t)) ∧
    (s.issues t 0x10 f → ∃ (u : State) (n : Nat), exec (.clz t f) s = .next u ∧
      retires s u t f.d.toNat (BitVec.ofNat 64 n) (s.nextPc t) ∧ n ≤ 64 ∧
      (∀ i, i < n → (s.xa t f).getLsbD (63 - i) = false) ∧ (n < 64 → (s.xa t f).getLsbD (63 - n) = true)) ∧
    (s.issues t 0x11 f → ∃ u, exec (.addi t f) s = .next u ∧
      retires s u t f.d.toNat (s.xa t f + f.imm.signExtend 64) (s.nextPc t)) ∧
    (s.issues t 0x12 f → ∃ u, exec (.andi t f) s = .next u ∧
      retires s u t f.d.toNat (s.xa t f &&& f.imm.signExtend 64) (s.nextPc t)) ∧
    (s.issues t 0x13 f → ∃ u, exec (.ori t f) s = .next u ∧
      retires s u t f.d.toNat (s.xa t f ||| f.imm.signExtend 64) (s.nextPc t)) ∧
    (s.issues t 0x14 f → ∃ u, exec (.xori t f) s = .next u ∧
      retires s u t f.d.toNat (s.xa t f ^^^ f.imm.signExtend 64) (s.nextPc t)) ∧
    (s.issues t 0x15 f → ∃ u, exec (.shli t f) s = .next u ∧
      retires s u t f.d.toNat (s.xa t f <<< f.imm.toNat) (s.nextPc t)) ∧
    (s.issues t 0x16 f → ∃ u, exec (.shri t f) s = .next u ∧
      retires s u t f.d.toNat (s.xa t f >>> f.imm.toNat) (s.nextPc t)) ∧
    (s.issues t 0x17 f → ∃ u, exec (.sari t f) s = .next u ∧
      retires s u t f.d.toNat ((s.xa t f).sshiftRight f.imm.toNat) (s.nextPc t)) ∧
    (s.issues t 0x18 f → ∃ u, exec (.li t f) s = .next u ∧
      retires s u t f.d.toNat (f.imm.signExtend 64) (s.nextPc t)) ∧
    (s.issues t 0x19 f → ∃ (u : State) (v : Word64), exec (.lih t f) s = .next u ∧
      retires s u t f.d.toNat v (s.nextPc t) ∧
      ∀ i, i < 64 → v.getLsbD i = if i < 23 then (s.xd t f).getLsbD i else f.imm.getLsbD (i - 23)) ∧
    (s.issues t 0x1A f → ∃ u, exec (.bswap t f) s = .next u ∧
      retires s u t f.d.toNat (BitVec.ofNat 64 (beNat (natLe (2 ^ f.imm.toNat) (s.xa t f).toNat))) (s.nextPc t))

/-- Branches and jumps of the lofts move the pc as R340 says and touch nothing else but a link register. When thread t
issues NOP, BEQ, BNE, BLT, BGE, BLTU, BGEU, JAL or JALR, the command completes: a branch whose condition on xa and xb
holds goes to pc plus the signed immediate, another goes on; JAL goes to pc plus the immediate and JALR to xa plus the
immediate, both with the pc after the instruction in xd; the pc is kept modulo 32,768, and nothing else of the lofts
changes. -/
def Obligations.LoftsBranchesAndJumps : Prop :=
  ∀ (t : Nat) (f : LFields) (s : State),
    let hop : Nat := (BitVec.ofNat 64 (s.thr t).pc + f.imm.signExtend 64).toNat % 32768
    let link : Word64 := BitVec.ofNat 64 (s.nextPc t)
    (s.issues t 0x00 f → ∃ u, exec (.nop t f) s = .next u ∧ retires s u t 0 0 (s.nextPc t)) ∧
    (s.issues t 0x20 f → ∃ u, exec (.beq t f) s = .next u ∧
      retires s u t 0 0 (if s.xa t f = s.xb t f then hop else s.nextPc t)) ∧
    (s.issues t 0x21 f → ∃ u, exec (.bne t f) s = .next u ∧
      retires s u t 0 0 (if s.xa t f = s.xb t f then s.nextPc t else hop)) ∧
    (s.issues t 0x22 f → ∃ u, exec (.blt t f) s = .next u ∧
      retires s u t 0 0 (if (s.xa t f).toInt < (s.xb t f).toInt then hop else s.nextPc t)) ∧
    (s.issues t 0x23 f → ∃ u, exec (.bge t f) s = .next u ∧
      retires s u t 0 0 (if (s.xa t f).toInt < (s.xb t f).toInt then s.nextPc t else hop)) ∧
    (s.issues t 0x24 f → ∃ u, exec (.bltu t f) s = .next u ∧
      retires s u t 0 0 (if (s.xa t f).toNat < (s.xb t f).toNat then hop else s.nextPc t)) ∧
    (s.issues t 0x25 f → ∃ u, exec (.bgeu t f) s = .next u ∧
      retires s u t 0 0 (if (s.xa t f).toNat < (s.xb t f).toNat then s.nextPc t else hop)) ∧
    (s.issues t 0x26 f → ∃ u, exec (.jal t f) s = .next u ∧ retires s u t f.d.toNat link hop) ∧
    (s.issues t 0x27 f → ∃ u, exec (.jalr t f) s = .next u ∧
      retires s u t f.d.toNat link ((s.xa t f + f.imm.signExtend 64).toNat % 32768))

/-- Loads, stores and atomics of the lofts reach the one place they name and no other byte. When thread t issues LD,
LDS, ST, AMO_ADD, AMO_SWAP or AMO_CAS at an aligned address that it may reach (the address is xa plus the offset for
LD, LDS and ST, and xa for the atomics) and whose word has no uncorrectable error, the command completes. LD
zero-extends and LDS sign-extends the bytes there into xd; ST stores the low bytes of xb; an atomic returns the old
64-bit word in xd and stores the sum, xb, or xb if the old word equals xd. Every byte of local, shared and controller
memory but those stored is as before (a store to an inbox that belongs to the ticket unit stores none, and a load of
it reads zero), and so are every other thread and register. Loads and stores of registers, which the Attic controller
alone can make, are the register accesses of R498 followed by the thread going on. -/
def Obligations.LoftsLoadsStoresAtomics : Prop :=
  ∀ (t : Nat) (f : LFields) (s : State) (r : LftRef),
    let at' : Nat := (s.xa t f + f.offset).toNat
    let old : Word64 := BitVec.ofNat 64 (leNat (s.refBytes r 8))
    (s.issues t 0x30 f → at' % f.size = 0 → s.lftRef t at' f.size true false = some r → s.wordGood r →
      ∃ u, exec (.ld t f) s = .next u ∧
        retires s u t f.d.toNat (BitVec.ofNat 64 (leNat (s.refBytes r f.size))) (s.nextPc t)) ∧
    (s.issues t 0x31 f → at' % f.size = 0 → s.lftRef t at' f.size true false = some r → s.wordGood r →
      ∃ u, exec (.lds t f) s = .next u ∧
        retires s u t f.d.toNat ((BitVec.ofNat (8 * f.size) (leNat (s.refBytes r f.size))).signExtend 64) (s.nextPc t)) ∧
    (s.issues t 0x32 f → at' % f.size = 0 → s.lftRef t at' f.size false true = some r → s.wordGood r →
      ∃ u, exec (.st t f) s = .next u ∧ stored s u r (natLe f.size (s.xb t f).toNat) ∧
        u.thr t = { s.thr t with pc := s.nextPc t, tail := false } ∧ (∀ k, k ≠ t → u.thr k = s.thr k) ∧
        onlyIn [.regs, .ecc, .mast, .lft, .attic] s u) ∧
    (s.issues t 0x33 f → (s.xa t f).toNat % 8 = 0 → s.lftRef t (s.xa t f).toNat 8 true true = some r → s.wordGood r →
      ∃ u, exec (.amoAdd t f) s = .next u ∧ stored s u r (natLe 8 (old + s.xb t f).toNat) ∧
        (∀ i, (u.thr t).get i = if i = f.d.toNat ∧ f.d.toNat ≠ 0 then old else (s.thr t).get i) ∧
        (u.thr t).pc = s.nextPc t ∧ (∀ k, k ≠ t → u.thr k = s.thr k)) ∧
    (s.issues t 0x34 f → (s.xa t f).toNat % 8 = 0 → s.lftRef t (s.xa t f).toNat 8 true true = some r → s.wordGood r →
      ∃ u, exec (.amoSwap t f) s = .next u ∧ stored s u r (natLe 8 (s.xb t f).toNat) ∧
        (∀ i, (u.thr t).get i = if i = f.d.toNat ∧ f.d.toNat ≠ 0 then old else (s.thr t).get i) ∧
        (u.thr t).pc = s.nextPc t ∧ (∀ k, k ≠ t → u.thr k = s.thr k)) ∧
    (s.issues t 0x35 f → (s.xa t f).toNat % 8 = 0 → s.lftRef t (s.xa t f).toNat 8 true true = some r → s.wordGood r →
      ∃ u, exec (.amoCas t f) s = .next u ∧
        stored s u r (natLe 8 (if old = s.xd t f then s.xb t f else old).toNat) ∧
        (∀ i, (u.thr t).get i = if i = f.d.toNat ∧ f.d.toNat ≠ 0 then old else (s.thr t).get i) ∧
        (u.thr t).pc = s.nextPc t ∧ (∀ k, k ≠ t → u.thr k = s.thr k)) ∧
    (∀ a, s.issues t 0x30 f → at' % f.size = 0 → s.lftRef t at' f.size true false = some (.reg a) →
      exec (.ld t f) s = .next (((s.fetched t).busRead 0 a f.size).result t f
        (BitVec.ofNat 64 ((s.fetched t).busRead 0 a f.size).rdata))) ∧
    (∀ a, s.issues t 0x32 f → at' % f.size = 0 → s.lftRef t at' f.size false true = some (.reg a) →
      exec (.st t f) s = .next (((s.fetched t).busWrite 0 a (natLe f.size (s.xb t f).toNat)).goOn t))

/-- Misaligned, unreachable and uncorrectable accesses of the lofts fault with the code and detail of R362. When
thread t issues LD, ST or AMO_ADD, an address that is not a multiple of the access size faults ALIGN (2), an address
it may not reach faults ACCESS (3), and for LD and AMO_ADD a word with an uncorrectable error faults MEM (9), each
with the address as detail; the thread is FAULTED, a supervisor's engine has stopped, and the Attic controller has
stopped. -/
def Obligations.LoftsMemoryFaults : Prop :=
  ∀ (t : Nat) (f : LFields) (s : State),
    let at' : Nat := (s.xa t f + f.offset).toNat
    (s.issues t 0x30 f → at' % f.size ≠ 0 → ∃ u, exec (.ld t f) s = .next u ∧ faults u t 2 at') ∧
    (s.issues t 0x30 f → at' % f.size = 0 → s.lftRef t at' f.size true false = none →
      ∃ u, exec (.ld t f) s = .next u ∧ faults u t 3 at') ∧
    (∀ a, s.issues t 0x30 f → at' % f.size = 0 → s.lftRef t at' f.size true false = some (.loc a) →
      s.eccOf .lftLocal (a / 8) = .uncorr → ∃ u, exec (.ld t f) s = .next u ∧ faults u t 9 at') ∧
    (s.issues t 0x32 f → at' % f.size ≠ 0 → ∃ u, exec (.st t f) s = .next u ∧ faults u t 2 at') ∧
    (s.issues t 0x32 f → at' % f.size = 0 → s.lftRef t at' f.size false true = none →
      ∃ u, exec (.st t f) s = .next u ∧ faults u t 3 at') ∧
    (s.issues t 0x33 f → (s.xa t f).toNat % 8 ≠ 0 →
      ∃ u, exec (.amoAdd t f) s = .next u ∧ faults u t 2 (s.xa t f).toNat) ∧
    (s.issues t 0x33 f → (s.xa t f).toNat % 8 = 0 → s.lftRef t (s.xa t f).toNat 8 true true = none →
      ∃ u, exec (.amoAdd t f) s = .next u ∧ faults u t 3 (s.xa t f).toNat)

/-- tk.next takes the oldest ticket, packet instructions move frame bytes, and ending instructions let the ticket go.
TK_NEXT with no ticket held takes the oldest queued ticket, copies its record into the inbox and waits with SRC and
PROG; with an empty queue it ends at once with bit 63. PKT_RD and PKT_WR move IMM bytes between the frame in the
ticket's buffer and thread memory when they lie inside DATA_LEN or the buffer, and give result RANGE otherwise.
TK_EMIT with a well-formed xa, room and a readable frame hands the frame, its head bytes from the inbox, to the slice
of its port; TK_REINJECT hands it to the re-entry queue; TK_HOST hands it to the host queue that takes it; TK_DONE
frees the buffer; each then ends with DONE: the thread waits with result 0 and holds no ticket, and the ticket is
gone. Without a ticket TK_DONE faults TICKET. (fetched names the state after the instruction word was read and
counted.) -/
def Obligations.LoftsTicketInstructions : Prop :=
  ∀ (t : Nat) (f : LFields) (s : State),
    let hl : Nat := bits (s.xa t f).toNat 31 22
    (s.issues t 0x40 f → (s.thr t).ticket = none → (s.thr t).queue = [] →
      ∃ u, exec (.tkNext t f) s = .next u ∧ retires s u t f.d.toNat bit63 (s.nextPc t)) ∧
    (∀ id rest v bs, s.issues t 0x40 f → (s.thr t).ticket = none → (s.thr t).queue = id :: rest →
      (s.fetched t).celRead 0x13 (s.ticket id).buf 768 = (v, some bs) →
      ∃ u, exec (.tkNext t f) s = .next u ∧ (u.thr t).ticket = some id ∧ (u.thr t).queue = rest ∧
        waitsWith u t f.d.toNat ((s.ticket id).src % 16 * 65536 + (s.ticket id).prog % 65536) ∧
        tookBytes s.lft.localMem u.lft.localMem (some (t / 8 * 65536 + t % 8 * 0x2000 + 0x1800)) bs) ∧
    (∀ id, s.issues t 0x40 f → (s.thr t).ticket = some id → ∃ u, exec (.tkNext t f) s = .next u ∧ faults u t 5 0) ∧
    (∀ id refs v bs, s.issues t 0x41 f → (s.thr t).ticket = some id →
      (s.xb t f).toNat + f.uimm ≤ (s.ticket id).dataLen →
      s.lftRefs t (s.xa t f).toNat f.uimm false true = some refs →
      (s.fetched t).celRead 0x13 ((s.ticket id).buf + 768 + (s.xb t f).toNat) f.uimm = (v, some bs) →
      exec (.pktRd t f) s = .next ((v.refsWrite refs bs).waits t f 0)) ∧
    (∀ id, s.issues t 0x41 f → (s.thr t).ticket = some id → (s.ticket id).dataLen < (s.xb t f).toNat + f.uimm →
      ∃ u, exec (.pktRd t f) s = .next u ∧ waitsWith u t f.d.toNat 1 ∧ onlyIn [.regs, .ecc, .mast, .lft] s u) ∧
    (∀ id refs v bs, s.issues t 0x42 f → (s.thr t).ticket = some id → (s.xb t f).toNat + f.uimm ≤ (s.ticket id).cap →
      s.lftRefs t (s.xa t f).toNat f.uimm true false = some refs → (s.fetched t).refsRead refs = (v, some bs) →
      exec (.pktWr t f) s = .next (((v.celWrite 0x13 ((s.ticket id).buf + 768 + (s.xb t f).toNat) bs).raiseLen t id
        ((s.xb t f).toNat + f.uimm)).waits t f 0)) ∧
    (∀ id u1 v head d, s.issues t 0x43 f → (s.thr t).ticket = some id → bits (s.xa t f).toNat 63 39 = 0 → hl ≤ 512 →
      destOk (bits (s.xa t f).toNat 2 0) (bits (s.xa t f).toNat 18 3) = true → sendLenOk ((s.ticket id).sendLen hl) = true →
      (s.fetched t).handedCount ((s.ticket id).inPort / 32) false < 256 → (s.fetched t).inboxHead t hl = (u1, some head) →
      u1.sendFrame (s.ticket id) head = (v, some d) →
      ∃ u h, exec (.tkEmit t f) s = .next u ∧ letGo u t f.d.toNat id ∧ h.data = d ∧ h.port = (s.ticket id).inPort ∧
        u = (((v.ownerPass (s.ticket id).buf (ownerSlice ((s.ticket id).inPort / 32))).handDirect h
          (bits (s.xa t f).toNat 2 0) (bits (s.xa t f).toNat 18 3) (bits (s.xa t f).toNat 21 19) false).tkEnd t id f
          evLftEmit 0)) ∧
    (∀ id u1 v head d, s.issues t 0x44 f → (s.thr t).ticket = some id → bits (s.xa t f).toNat 63 32 = 0 → hl ≤ 512 →
      sendLenOk ((s.ticket id).sendLen hl) = true → (s.fetched t).reentryRoom ((s.ticket id).inPort / 32) = true →
      (s.fetched t).inboxHead t hl = (u1, some head) → u1.sendFrame (s.ticket id) head = (v, some d) →
      ∃ u h entry start rx, exec (.tkReinject t f) s = .next u ∧ letGo u t f.d.toNat id ∧ h.data = d ∧
        h.port = (s.ticket id).inPort ∧
        u = (((v.ownerPass (s.ticket id).buf (ownerSlice ((s.ticket id).inPort / 32))).handHead h 1 entry start rx).tkEnd t
          id f evLftReinject 0)) ∧
    (∀ id u1 v head, s.issues t 0x45 f → (s.thr t).ticket = some id → bits (s.xa t f).toNat 21 14 = 0 →
      bits (s.xa t f).toNat 63 32 = 0 → hl ≤ 512 → (s.fetched t).inboxHead t hl = (u1, some head) →
      u1.hostDeliver (bits (s.xa t f).toNat 13 0) (s.ticket id) hl head = (v, 0) →
      ∃ u, exec (.tkHost t f) s = .next u ∧ letGo u t f.d.toNat id ∧ u = v.tkEnd t id f evLftHost 0) ∧
    (∀ id, s.issues t 0x46 f → (s.thr t).ticket = some id → ∃ u, exec (.tkDone t f) s = .next u ∧
      letGo u t f.d.toNat id) ∧
    (s.issues t 0x46 f → (s.thr t).ticket = none → ∃ u, exec (.tkDone t f) s = .next u ∧ faults u t 5 0)

/-- Table, check-value, Cellar-copy and letterbox instructions do what they name. TBL with an aligned readable block
that names unit w issues that unit's command on the loft's own port, writes STATUS and the data back into the block
and waits with STATUS; CHK with a valid profile waits with the check value of its bytes; DMA outward writes Cellar
with the local bytes and inward writes memory with Cellar's, and waits with result 0; LB_PUT stages one word, LB_DROP
discards the staged words; LB_SEND to a thread of a running engine with room appends one message of IMM words with its
sender, and to a full letterbox gives FULL (1) and leaves it; LB_RECV takes the oldest message, and with none ends at
once with bit 63. (fetched names the state after the instruction word was read and counted.) -/
def Obligations.LoftsUnitsAndLetterboxes : Prop :=
  ∀ (t : Nat) (f : LFields) (s : State),
    (∀ refs v blk p, s.issues t 0x50 f → (s.xa t f).toNat % 16 = 0 →
      s.lftRefs t (s.xa t f).toNat 208 true true = some refs → (s.fetched t).refsRead refs = (v, some blk) →
      fld (blockWord blk 0) 15 8 = 0 → fld (blockWord blk 0) 31 17 = 0 → (blockWord blk 0).getLsbD 16 = false →
      cmdPort (fld (blockWord blk 0) 7 0) = some p →
      ∃ u w st out, exec (.tbl t f) s = .next u ∧
        (v.count evLftTblCmd (t / 64) 0).portCommand (t / 64) (fld (blockWord blk 0) 7 0) p (blockWord blk 1)
          (blockWord blk 2) ((upto p.data.length).map fun i => blockWord blk (4 + i)) = (w, st, out) ∧
        u = (w.refsWrite refs (splice (splice blk 12 (natLe 4 st.toNat)) 16
          (out.flatMap fun x => natLe 4 x.toNat))).waits t f st.toNat ∧ waitsWith u t f.d.toNat st.toNat) ∧
    (∀ refs v bs, s.issues t 0x51 f → ((s.fetched t).profile f.uimm).valid = true →
      s.lftRefs t (s.xa t f).toNat ((s.xb t f).toNat % 2 ^ 13) true false = some refs →
      (s.fetched t).refsRead refs = (v, some bs) →
      ∃ u, exec (.chk t f) s = .next u ∧ onlyIn [.regs, .ecc, .mast, .lft] s u ∧
        waitsWith u t f.d.toNat (((s.fetched t).profile f.uimm).check bs (s.xd t f).toNat)) ∧
    (∀ refs v blk refs' w bs, s.issues t 0x52 f → (s.xa t f).toNat % 16 = 0 →
      s.lftRefs t (s.xa t f).toNat 16 true false = some refs → (s.fetched t).refsRead refs = (v, some blk) →
      let cel := leNat (slice blk 0 8)
      let n := fld (blockWord blk 3) 12 0
      1 ≤ n → n ≤ 4096 → v.dmaPart (t / 64) cel n = true → cel % 8 = 0 → leNat (slice blk 8 4) % 8 = 0 →
      ((blockWord blk 3).getLsbD 16 = true → v.lftRefs t (leNat (slice blk 8 4)) n true false = some refs' →
        v.refsRead refs' = (w, some bs) →
        exec (.dma t f) s = .next ((w.celWrite (0x40 + t / 64) cel bs).waits t f 0)) ∧
      ((blockWord blk 3).getLsbD 16 = false → v.lftRefs t (leNat (slice blk 8 4)) n false true = some refs' →
        v.celRead (0x40 + t / 64) cel n = (w, some bs) →
        exec (.dma t f) s = .next ((w.refsWrite refs' bs).waits t f 0))) ∧
    (s.issues t 0x60 f → ∃ u, exec (.lbPut t f) s = .next u ∧ onlyThread s u t ∧ u.thr t =
      { s.thr t with staging := tset 0 (s.thr t).staging f.imm.toNat (s.xa t f), pc := s.nextPc t, tail := false }) ∧
    (s.issues t 0x62 f → ∃ u, exec (.lbDrop t f) s = .next u ∧ onlyThread s u t ∧
      u.thr t = { s.thr t with staging := [], pc := s.nextPc t, tail := false }) ∧
    (∀ k, s.issues t 0x61 f → k = (s.xa t f).toNat % 4096 → k ≠ t → s.engRunning (k / 8) = true →
      (s.thrReserved k = true → s.thrReserved t = true) → (s.thr k).letters.length < 4 →
      ∃ u, exec (.lbSend t f) s = .next u ∧ waitsWith u t f.d.toNat 0 ∧
        (u.thr k).letters = (s.thr k).letters ++ [⟨t, (upto f.imm.toNat).map fun i => tget 0 (s.thr t).staging i⟩]) ∧
    (∀ k, s.issues t 0x61 f → k = (s.xa t f).toNat % 4096 → k ≠ t → s.engRunning (k / 8) = true →
      (s.thrReserved k = true → s.thrReserved t = true) → 4 ≤ (s.thr k).letters.length →
      ∃ u, exec (.lbSend t f) s = .next u ∧ waitsWith u t f.d.toNat 1 ∧ (u.thr k).letters = (s.thr k).letters) ∧
    (s.issues t 0x63 f → (s.xa t f).toNat % 8 = 0 → (s.thr t).letters = [] →
      ∃ u, exec (.lbRecv t f) s = .next u ∧ retires s u t f.d.toNat bit63 (s.nextPc t)) ∧
    (∀ m rest refs, s.issues t 0x63 f → (s.xa t f).toNat % 8 = 0 → (s.thr t).letters = m :: rest →
      s.lftRefs t (s.xa t f).toNat 64 false true = some refs →
      ∃ u, exec (.lbRecv t f) s = .next u ∧ (u.thr t).letters = rest ∧ (u.thr t).pc = s.nextPc t ∧
        (f.d ≠ 0 → (u.thr t).get f.d.toNat = BitVec.ofNat 64 (m.words.length * 65536 + m.sender)))

/-- Waiting, event flags, timers, time, bells, vector return, traps, breakpoints and stops. WFE with an event of its
mask present ends at once with those events in xd, and with none leaves the thread WAITING on its mask with its pc in
place; EV_SET and EV_CLR set and clear the engine's flags that IMM names; TMR sets the deadline and TIME reads device
time in ns; BELL pulls the bell that xa names; VRET in a vector, by a supervisor or the Attic controller, returns to
VRET; TRAP faults with code 7 and IMM as detail; BRK faults with code 8 unless a debugger is armed, which halts the
thread in place; STOP leaves the thread STOPPED after the instruction. -/
def Obligations.LoftsWaitingTimeAndStops : Prop :=
  ∀ (t : Nat) (f : LFields) (s : State),
    (s.issues t 0x70 f → Nat.land f.imm.toNat (s.events t) ≠ 0 → ∃ u, exec (.wfe t f) s = .next u ∧
      retires s u t f.d.toNat (BitVec.ofNat 64 (Nat.land f.imm.toNat (s.events t))) (s.nextPc t)) ∧
    (s.issues t 0x70 f → Nat.land f.imm.toNat (s.events t) = 0 → ∃ u, exec (.wfe t f) s = .next u ∧
      u.thr t = { s.thr t with state := 2, wait := some ⟨f.d.toNat, 0, some f.imm.toNat⟩, tail := false }) ∧
    (t ≠ atcThread → s.issues t 0x71 f → ∃ u, exec (.evSet t f) s = .next u ∧ (u.thr t).pc = s.nextPc t ∧
      (u.eng (t / 8)).flags = Nat.lor (s.eng (t / 8)).flags f.imm.toNat ∧
      (∀ e, e ≠ t / 8 → (u.eng e).flags = (s.eng e).flags)) ∧
    (t ≠ atcThread → s.issues t 0x72 f → ∃ u, exec (.evClr t f) s = .next u ∧ (u.thr t).pc = s.nextPc t ∧
      (u.eng (t / 8)).flags = Nat.land (s.eng (t / 8)).flags (65535 - f.imm.toNat) ∧
      (∀ e, e ≠ t / 8 → (u.eng e).flags = (s.eng e).flags)) ∧
    (s.issues t 0x73 f → ∃ u, exec (.tmr t f) s = .next u ∧ onlyThread s u t ∧
      u.thr t = { s.thr t with timer := (s.xa t f).toNat, pc := s.nextPc t, tail := false }) ∧
    (s.issues t 0x74 f → ∃ u, exec (.time t f) s = .next u ∧
      retires s u t f.d.toNat (BitVec.ofNat 64 s.ns) (s.nextPc t)) ∧
    (s.issues t 0x7B f → exec (.bell t f) s =
      .next (((s.fetched t).bellPull (BitVec.ofNat 32 ((s.xa t f).toNat % 1024))).goOn t)) ∧
    (s.issues t 0x7C f → (s.thr t).inVector = true → t = atcThread ∨ t % 8 = 0 → ∃ u, exec (.vret t f) s = .next u ∧
      u.thr t = { s.thr t with inVector := false, tail := true, pc := (s.thr t).vret % 32768 }) ∧
    (s.issues t 0x7C f → (s.thr t).inVector = false → ∃ u, exec (.vret t f) s = .next u ∧ faults u t 4 0) ∧
    (s.issues t 0x7D f → ∃ u, exec (.trap t f) s = .next u ∧ faults u t 7 f.imm.toNat) ∧
    (s.issues t 0x7E f → t = atcThread ∨ s.rb lftDbgSel 31 = false → ∃ u, exec (.brk t f) s = .next u ∧ faults u t 8 0) ∧
    (s.issues t 0x7E f → t ≠ atcThread → s.rb lftDbgSel 31 = true → ∃ u, exec (.brk t f) s = .next u ∧
      u.thr t = { s.thr t with state := 3, tail := false }) ∧
    (s.issues t 0x7F f → ∃ u, exec (.stop t f) s = .next u ∧
      u.thr t = { s.thr t with state := 0, pc := s.nextPc t, tail := false })

/-- A master thread writes, reads, starts, stops, resets and looks at its threads. When thread t issues a
thread-control instruction on a thread k that it is master of and that is not reserved against it: THR_WREG sets the
named register of a STOPPED or FAULTED k to xb, THR_RREG waits with the register's value, THR_START makes a STOPPED k
of a running engine RUNNABLE, THR_STOP ends the instruction of a RUNNABLE k and leaves it STOPPED, THR_RESET puts a
STOPPED or FAULTED k at pc 0 with all registers 0, its queue standing, and THR_STAT waits with LFT_THR_STATUS of k;
each but THR_RREG and THR_STAT waits with result 0. On a thread that t is not master of the result is 1 and k stands.
-/
def Obligations.LoftsThreadControl : Prop :=
  ∀ (t k : Nat) (f : LFields) (s : State), k = (s.xa t f).toNat % 4096 → k ≠ t →
    (s.thrReserved k = true → s.thrReserved t = true) →
    (s.issues t 0x75 f → s.isMaster t k = true → s.stopped k = true → f.imm.toNat < 32 →
      ∃ u, exec (.thrWreg t f) s = .next u ∧ waitsWith u t f.d.toNat 0 ∧
        u.thr k = (s.thr k).set f.imm.toNat (s.xb t f)) ∧
    (s.issues t 0x76 f → s.isMaster t k = true → s.stopped k = true → f.imm.toNat < 32 →
      ∃ u, exec (.thrRreg t f) s = .next u ∧ waitsWith u t f.d.toNat ((s.thr k).get f.imm.toNat).toNat ∧
        u.thr k = s.thr k) ∧
    (s.issues t 0x77 f → s.isMaster t k = true → (s.thr k).state = 0 → s.engRunning (k / 8) = true →
      ∃ u, exec (.thrStart t f) s = .next u ∧ waitsWith u t f.d.toNat 0 ∧ u.thr k = { s.thr k with state := 1 }) ∧
    (s.issues t 0x78 f → s.isMaster t k = true → (s.thr k).state = 1 → (s.thr k).wait = none →
      ∃ u, exec (.thrStop t f) s = .next u ∧ waitsWith u t f.d.toNat 0 ∧ u.thr k = { s.thr k with state := 0 }) ∧
    (s.issues t 0x79 f → s.isMaster t k = true → s.stopped k = true →
      ∃ u, exec (.thrReset t f) s = .next u ∧ waitsWith u t f.d.toNat 0 ∧
        u.thr k = { Thread.init with queue := (s.thr k).queue, state := 0 }) ∧
    (s.issues t 0x7A f → s.isMaster t k = true → ∃ u, exec (.thrStat t f) s = .next u ∧
      waitsWith u t f.d.toNat (s.thr k).status.toNat ∧ u.thr k = s.thr k) ∧
    (s.issues t 0x77 f → s.isMaster t k = false → ∃ u, exec (.thrStart t f) s = .next u ∧
      waitsWith u t f.d.toNat 1 ∧ u.thr k = s.thr k)

/-- What happens to threads, engines and tickets of the lofts beside their instructions. W_INSTRUCTION_COMPLETE gives
a waiting thread its result, moves its pc on and makes it RUNNABLE; TIMER_DEADLINE completes a wfe that masks TIMER
once device time has reached the deadline; TICKET_ENQUEUE puts a ticket that has its buffer at the end of its thread's
queue; WAIT_DEADLOCK raises the deadlock source of a deadlocked engine whose source is unmasked, once; BREAKPOINT_HALT
halts a RUNNABLE thread at an enabled breakpoint; ENGINE_STOP leaves a running engine STOPPED with cause 3;
ENGINE_RESTART of a STOPPED engine with no reserved loft leaves it running with memory and flags zero and thread 0
started at BOOT_PC if BOOT is 1; LOFT_WAKE ungates a gated loft that has a message waiting; LOFTS_SCRUB corrects a
correctable word and counts it; CRW_RESERVE_WRITE with every engine concerned STOPPED takes the range. -/
def Obligations.LoftsEngineEvents : Prop :=
  (∀ (t : Nat) (s : State) (w : WaitOp), (s.thr t).state = 2 → t = atcThread ∨ s.loftGated (t / 64) = false →
    (s.thr t).wait = some w → w.wfe = none → ∃ u, exec (.wInstructionComplete t) s = .next u ∧
      u.thr t = { (s.thr t).set w.d w.result with pc := s.nextPc t, state := 1, wait := none }) ∧
  (∀ (t m : Nat) (s : State) (w : WaitOp), (s.thr t).timer ≠ 0 → (s.thr t).timer ≤ s.ns → (s.thr t).wait = some w →
    w.wfe = some m → m.testBit 18 = true → (s.eng (t / 8)).flags < 65536 → ∃ u, exec (.timerDeadline t) s = .next u ∧
      (u.thr t).state = 1 ∧ (u.thr t).pc = s.nextPc t ∧ (u.thr t).wait = none) ∧
  (∀ (id t : Nat) (s : State), (tfind s.lft.tickets id).isSome = true → (s.ticket id).buf ≠ 0 →
    (s.ticket id).src ≠ 3 → s.ticketBehind id = false → s.ticketPlaced id = false → (s.ticket id).prog < 4096 →
    s.rb (lftProg (s.ticket id).prog) 31 = true → s.rb (lftGroup (s.progGroup (s.ticket id).prog)) 31 = true →
    s.chooseThread (s.progGroup (s.ticket id).prog) (s.ticket id).flow16 = some t → (s.thr t).queue.length < 8 →
    ∃ u, exec (.ticketEnqueue id) s = .next u ∧ (u.thr t).queue = (s.thr t).queue ++ [id]) ∧
  (∀ (e : Nat) (s : State), s.rf (lftEngCfg e) 23 16 ≠ 0 → s.deadlocked e = true → (s.eng e).dlFired = false →
    s.engRunning e = true → s.isMasked (512 + e) = false → ∃ u, exec (.waitDeadlock e) s = .next u ∧
      (u.eng e).dlFired = true ∧ shas u.bell.pulses (512 + e) = true ∧ onlyIn [.regs, .mast, .bell, .lft] s u) ∧
  (∀ (t : Nat) (s : State), (s.thr t).state = 1 → s.atBreakpoint t = true → ∃ u, exec (.breakpointHalt t) s = .next u ∧
    u.thr t = { s.thr t with state := 3 } ∧ ∀ k, k ≠ t → u.thr k = s.thr k) ∧
  (∀ (e : Nat) (s : State), e < 512 → s.engRunning e = true → ∃ u, exec (.engineStop e) s = .next u ∧
    u.rf (lftEngStatus e) 31 30 = 1 ∧ ∀ i, i < 8 → (u.thr (8 * e + i)).state = 0 ∧ (u.thr (8 * e + i)).ticket = none ∧
      (u.thr (8 * e + i)).queue = [] ∧ (u.thr (8 * e + i)).letters = []) ∧
  (∀ (e : Nat) (s : State), e < 512 → s.rf (lftEngStatus e) 31 30 = 1 → s.loftReserved (e / 8) = false →
    ∃ u, exec (.engineRestart e) s = .next u ∧ u.rf (lftEngStatus e) 31 30 = 0 ∧ u.eng e = Engine.init ∧
      (∀ x, e * 65536 ≤ x → x < e * 65536 + 65536 → tget 0 u.lft.localMem x = 0) ∧
      (s.rb (lftEngCfg e) 31 = true → (u.thr (e * 8)).state = 1 ∧ (u.thr (e * 8)).pc = s.rf (lftEngCfg e) 14 0)) ∧
  (∀ (l t : Nat) (s : State), s.loftGated l = true → t / 64 = l → (s.thr t).letters ≠ [] →
    ∃ u, exec (.loftWake l) s = .next u ∧ u.loftGated l = false) ∧
  (∀ (m ix : Nat) (s : State), m < 3 → s.eccOf (if m = 0 then .lftLocal else if m = 1 then .lftShared else .lftIs) ix = .ok →
    ∃ u, exec (.loftsScrub m ix .corr) s = .next u ∧ u.rb lftErr 1 = true ∧
      u.eccOf (if m = 0 then .lftLocal else if m = 1 then .lftShared else .lftIs) ix = .ok ∧
      onlyIn [.regs, .ecc, .mast] s u) ∧
  (∀ (v : Word) (s : State), fld v 18 16 ≤ 4 → fld v 5 0 + fld v 18 16 ≤ 64 →
    (∀ e, e < 512 → s.engRunning e = false) → ∃ u, exec (.crwReserveWrite v) s = .next u ∧
      u.rf lftCrwCfg 18 16 = fld v 18 16 ∧ u.rf lftCrwCfg 5 0 = fld v 5 0 ∧
      u.rdN crwBuildInfo = 64 * fld v 18 16 ∧ onlyIn [.regs] s u)

/-- Host commands write and read instruction stores and shared memory and control threads. With LFT_CMD idle and the
lofts it names not reserved: HOST_IS_WRITE writes eight words of LFT_DATA into the instruction store of every loft
that LFT_CMD_LOFTS names, HOST_IS_READ reads eight words of the lowest such loft into LFT_DATA, HOST_SH_WRITE and
HOST_SH_READ do the same with 64 bytes of shared memory, HOST_THR_START starts a STOPPED thread of a running engine at
the pc in LFT_DATA, HOST_THR_STOP stops a RUNNABLE thread and HOST_THR_RESET resets a STOPPED or FAULTED one; each
leaves RESULT 0 in LFT_CMD_STATUS. -/
def Obligations.LoftsHostCommands : Prop :=
  (∀ (a : Nat) (s : State), s.rb lftCmd 31 = false → a < 32768 → a % 8 = 0 → s.cmdLofts ≠ [] →
    (∀ l ∈ s.cmdLofts, s.loftReserved l = false) → s.rf mstInjCtl 26 24 = 0 →
    ∃ u, exec (.hostIsWrite a) s = .next u ∧ u.rf lftCmdStatus 31 24 = 0 ∧
      (∀ l ∈ s.cmdLofts, ∀ j, j < 8 → tget 0 u.lft.istore (l * 32768 + (a + j)) = s.lftWord j) ∧
      (∀ x, (∀ l ∈ s.cmdLofts, x < l * 32768 + a ∨ l * 32768 + a + 8 ≤ x) →
        tget 0 u.lft.istore x = tget 0 s.lft.istore x)) ∧
  (∀ (a l : Nat) (rest : List Nat) (s : State), s.rb lftCmd 31 = false → a < 32768 → a % 8 = 0 →
    s.cmdLofts = l :: rest → (∀ j, j < 8 → s.eccOf .lftIs (l * 32768 + a + j) ≠ .uncorr) →
    ∃ u, exec (.hostIsRead a) s = .next u ∧ u.rf lftCmdStatus 31 24 = 0 ∧
      (∀ j, j < 8 → u.lftWord j = tget 0 s.lft.istore (l * 32768 + a + j)) ∧ onlyIn [.regs, .ecc, .mast] s u) ∧
  (∀ (a : Nat) (s : State), s.rb lftCmd 31 = false → a < 4096 → s.cmdLofts ≠ [] →
    (∀ l ∈ s.cmdLofts, s.loftReserved l = false) → s.rf mstInjCtl 26 24 = 0 →
    ∃ u, exec (.hostShWrite a) s = .next u ∧ u.rf lftCmdStatus 31 24 = 0 ∧
      (∀ l ∈ s.cmdLofts, memRead 0 u.lft.shared (l * 262144 + 64 * a) 64 =
        (upto 8).flatMap fun j => natLe 8 (s.lftWord j).toNat) ∧
      (∀ x, (∀ l ∈ s.cmdLofts, x < l * 262144 + 64 * a ∨ l * 262144 + 64 * a + 64 ≤ x) →
        tget 0 u.lft.shared x = tget 0 s.lft.shared x)) ∧
  (∀ (a l : Nat) (rest : List Nat) (s : State), s.rb lftCmd 31 = false → a < 4096 → s.cmdLofts = l :: rest →
    (∀ j, j < 8 → s.eccOf .lftShared (l * 32768 + 8 * a + j) ≠ .uncorr) →
    ∃ u, exec (.hostShRead a) s = .next u ∧ u.rf lftCmdStatus 31 24 = 0 ∧
      (∀ j, j < 8 → u.lftWord j = BitVec.ofNat 64 (leNat (memRead 0 s.lft.shared (l * 262144 + 64 * a + 8 * j) 8))) ∧
      onlyIn [.regs, .ecc, .mast] s u) ∧
  (∀ (t : Nat) (s : State), s.rb lftCmd 31 = false → t < 4096 → s.thrReserved t = false → (s.thr t).state = 0 →
    s.engRunning (t / 8) = true → ∃ u, exec (.hostThrStart t) s = .next u ∧ u.rf lftCmdStatus 31 24 = 0 ∧
      u.thr t = { s.thr t with pc := s.rf (lftData 0) 14 0, state := 1 } ∧ ∀ k, k ≠ t → u.thr k = s.thr k) ∧
  (∀ (t : Nat) (s : State), s.rb lftCmd 31 = false → t < 4096 → s.thrReserved t = false → (s.thr t).state = 1 →
    (s.thr t).wait = none → ∃ u, exec (.hostThrStop t) s = .next u ∧ u.rf lftCmdStatus 31 24 = 0 ∧
      u.thr t = { s.thr t with state := 0 } ∧ ∀ k, k ≠ t → u.thr k = s.thr k) ∧
  (∀ (t : Nat) (s : State), s.rb lftCmd 31 = false → t < 4096 → s.thrReserved t = false →
    (s.thr t).state = 0 ∨ (s.thr t).state = 4 → ∃ u, exec (.hostThrReset t) s = .next u ∧
      u.rf lftCmdStatus 31 24 = 0 ∧ u.thr t = { Thread.init with queue := (s.thr t).queue, state := 0 } ∧
      ∀ k, k ≠ t → u.thr k = s.thr k)

/-- The debugger halts, resumes, steps, reads and writes the selected thread. With LFT_DBG_CMD idle and the selected
thread t, of a loft not reserved: DBG_HALT halts a RUNNABLE thread, DBG_RESUME makes a HALTED one RUNNABLE, DBG_STEP
of a HALTED thread whose next instruction is a register addition performs it and leaves the thread HALTED, DBG_READ
puts register REG of a HALTED thread into LFT_DBG_DATA, DBG_WRITE takes it from there, DBG_HALT_ENGINE halts every
RUNNABLE thread of the engine and DBG_RESUME_ENGINE resumes every HALTED one; each leaves RESULT 0 in LFT_DBG_STATUS.
On a reserved loft the result is 2 and no thread changes. -/
def Obligations.LoftsDebugger : Prop :=
  ∀ (t : Nat) (s : State), s.rb lftDbgCmd 31 = false → t = s.rf lftDbgSel 11 0 →
    (s.thrReserved t = false →
      ((s.thr t).state = 1 → (s.thr t).wait = none → ∃ u, exec .dbgHalt s = .next u ∧ u.rf lftDbgStatus 31 24 = 0 ∧
        u.thr t = { s.thr t with state := 3 }) ∧
      ((s.thr t).state = 3 → ∃ u, exec .dbgResume s = .next u ∧ u.rf lftDbgStatus 31 24 = 0 ∧
        u.thr t = { s.thr t with state := 1 }) ∧
      (∀ f, (s.thr t).state = 3 → (s.thr t).wait = none → s.wordAt t = lftEncode 0x01 f → f.imm = 0 →
        s.eccOf .lftIs (t / 64 * 32768 + (s.thr t).pc) = .ok → ∃ u, exec .dbgStep s = .next u ∧
        u.rf lftDbgStatus 31 24 = 0 ∧ (u.thr t).state = 3 ∧ (u.thr t).pc = s.nextPc t ∧
        ∀ i, (u.thr t).get i = if i = f.d.toNat ∧ f.d.toNat ≠ 0 then s.xa t f + s.xb t f else (s.thr t).get i) ∧
      (∀ r, (s.thr t).state = 3 → r < 32 → ∃ u, exec (.dbgRead r) s = .next u ∧ u.rf lftDbgStatus 31 24 = 0 ∧
        u.rd64 lftDbgDataLo = ((s.thr t).get r).toNat ∧ u.thr t = s.thr t) ∧
      (∀ r, (s.thr t).state = 3 → r < 32 → ∃ u, exec (.dbgWrite r) s = .next u ∧ u.rf lftDbgStatus 31 24 = 0 ∧
        u.thr t = (s.thr t).set r (BitVec.ofNat 64 (s.rd64 lftDbgDataLo))) ∧
      (∃ u, exec .dbgHaltEngine s = .next u ∧ u.rf lftDbgStatus 31 24 = 0 ∧ ∀ i, i < 8 →
        (s.thr (t / 8 * 8 + i)).state = 1 → (s.thr (t / 8 * 8 + i)).wait = none →
        u.thr (t / 8 * 8 + i) = { s.thr (t / 8 * 8 + i) with state := 3 }) ∧
      (∃ u, exec .dbgResumeEngine s = .next u ∧ u.rf lftDbgStatus 31 24 = 0 ∧ ∀ i, i < 8 →
        (s.thr (t / 8 * 8 + i)).state = 3 → u.thr (t / 8 * 8 + i) = { s.thr (t / 8 * 8 + i) with state := 1 })) ∧
    (s.thrReserved t = true → ∃ u, exec .dbgHalt s = .next u ∧ u.rf lftDbgStatus 31 24 = 2 ∧ ∀ k, u.thr k = s.thr k)

/-- Accesses of PF0 BAR0 that are no aligned 32-bit accesses, and accesses where no register is. At an address of PF0
BAR0 (all windows end below 0x2000_0000), an access of another size or alignment than an aligned 32-bit one changes no
register: a read returns all ones over its bytes, a write is discarded, and both report a host access error against
PF0. An aligned access of a reserved window or an unimplemented offset returns 0 or is discarded, is counted, and does
nothing else; windows 0x11 to 0x1F have no register. An aligned 32-bit write elsewhere is a register write of its four
bytes, least significant first. (That the report's INFO is the address is the model's choice, log entry 3.) -/
def Obligations.MisalignedAndReservedAccesses : Prop :=
  (∀ (fn a size : Nat) (s : State), a < 0x20000000 → ¬(size = 4 ∧ a % 4 = 0) →
    exec (.misalignedRegisterAccess fn false a size) s =
      .next { s.report 0x30 0 (BitVec.ofNat 32 a) with rdata := 2 ^ (8 * size) - 1 } ∧
    exec (.misalignedRegisterAccess fn true a size) s = .next (s.report 0x30 0 (BitVec.ofNat 32 a)) ∧
    (∀ b, (s.report 0x30 0 (BitVec.ofNat 32 a)).rd b = s.rd b ∨ ¬noWrap b)) ∧
  (∀ (a : Nat) (s : State), a < 0x20000000 → a % 4 = 0 → s.noReg a = true →
    exec (.reservedOffsetAccess false a) s = .next { s with
      mast := { s.mast with reservedAccesses := s.mast.reservedAccesses + 1 }, rdata := 0 } ∧
    exec (.reservedOffsetAccess true a) s = .next { s with
      mast := { s.mast with reservedAccesses := s.mast.reservedAccesses + 1 } }) ∧
  (∀ (a : Nat) (s : State), 0x11000000 ≤ a → a < 0x20000000 → s.noReg a = true) ∧
  (∀ (a : Nat) (bs : List Byte) (s : State), a < 0x20000000 → a % 4 = 0 → bs.length = 4 → s.noReg a = false →
    s.busWrite 0 a bs = s.regWrite a (BitVec.ofNat 32 (leNat bs)))

/-- Plain, read-only, paired, read-clearing, SET and CLR registers. With the window open: a write of LFT_DATA with
LFT_CMD idle gives the register its value and with LFT_CMD busy changes only LFT_CMD_STATUS; a write of a VERSION
register changes no register; a read of a lower register answers it and latches its upper part, which the next read of
the upper register returns once; a write of a lower register is held, and a write of the upper register gives the pair
LFT_BP its 64 bits with the held lower half; a read of a register with RC bits answers it and clears those bits;
writes of the SET and CLR registers of PENDING and MASK set and clear exactly the bits written as 1. -/
def Obligations.RegisterAccessCodes : Prop :=
  (∀ (i : Nat) (v : Word) (s : State), i < 16 → s.windowShut (lftData i) = false → s.rb lftCmd 31 = false →
    ∃ t, exec (.registerWrite (lftData i) v) s = .next t ∧ t.rd (lftData i) = v ∧
      (∀ b, b ≠ lftData i → t.rd b = s.rd b) ∧ onlyIn [.regs, .bell] s t) ∧
  (∀ (i : Nat) (v : Word) (s : State), i < 16 → s.windowShut (lftData i) = false → s.rb lftCmd 31 = true →
    ∃ t, exec (.registerWrite (lftData i) v) s = .next t ∧ (∀ b, b ≠ lftCmdStatus → t.rd b = s.rd b) ∧
      onlyIn [.regs, .bell] s t) ∧
  (∀ (w : Nat) (v : Word) (s : State), w ≤ 16 → s.windowShut (w * 0x1000000) = false →
    ∃ t, exec (.registerWrite (w * 0x1000000) v) s = .next t ∧ ∀ b, t.rd b = s.rd b) ∧
  (∀ (a : Nat) (s : State), kindAt a = some .pairLo → a < 0x11000000 → a % 4 = 0 → s.windowShut a = false →
    runIdx a (pchTsTag 0) 0x80 512 = none →
    ∃ t, exec (.pairLowerRead a) s = .next t ∧ t.rdata = s.shows a ∧ onlyIn [.latch, .rdata] s t ∧
      tfind t.latch (a + 4) = some (BitVec.ofNat 32 (s.shows (a + 4))) ∧
      (kindAt (a + 4) = some .pairHi → a + 4 < 0x11000000 → s.windowShut (a + 4) = false →
        runIdx (a + 4) (pchTsTag 0) 0x80 512 = none → (t.busRead 0 (a + 4) 4).rdata = s.shows (a + 4) % 2 ^ 32 ∧
          tfind (t.busRead 0 (a + 4) 4).latch (a + 4) = none)) ∧
  (∀ (a : Nat) (v : Word) (s : State), kindAt a = some .pairLo → a < 0x11000000 → a % 4 = 0 → s.windowShut a = false →
    exec (.registerWrite a v) s = .next { s with held := tput s.held a v }) ∧
  (∀ (v w : Word) (s : State), s.windowShut lftDbgDataLo = false → ∃ t u,
    exec (.registerWrite lftDbgDataLo v) s = .next t ∧ exec (.pairUpperWrite lftDbgDataHi w) t = .next u ∧
      u.rd64 lftDbgDataLo = v.toNat + 2 ^ 32 * w.toNat ∧ t.regs = s.regs ∧
      (∀ b, b ≠ lftDbgDataLo → b ≠ lftDbgDataHi → u.rd b = s.rd b) ∧ tfind u.held lftDbgDataLo = none) ∧
  (∀ (a i j : Nat) (r : RegRow) (s : State), regAt a = some (r, i, j) → r.rc ≠ 0 → r.kind = .plain → a < 0x11000000 →
    a % 4 = 0 → s.windowShut a = false → runIdx a (pchTsTag 0) 0x80 512 = none →
    ¬(cupFnGrant 0 0 ≤ a ∧ a < cupFnGrant 64 0 ∧ (a - cupFnGrant 0 0) % 0x100 < 0x20) →
    ∃ t, exec (.rcFieldRead a) s = .next t ∧ t.rdata = s.shows a ∧ t.rd a = s.rd a &&& ~~~(BitVec.ofNat 32 r.rc) ∧
      (∀ b, b ≠ a → t.rd b = s.rd b) ∧ onlyIn [.regs, .rdata, .bell] s t) ∧
  (∀ (k : Nat) (v : Word) (s : State), k < 128 →
    (∃ t, exec (.setRegisterWrite (belPend k) v) s = .next t ∧ t.rd (belPend k) = s.rd (belPend k) ||| v ∧
      (∀ b, b ≠ belPend k → t.rd b = s.rd b) ∧ onlyIn [.regs, .bell] s t) ∧
    (∃ t, exec (.setRegisterWrite (belMask k) v) s = .next t ∧ t.rd (belMask k) = s.rd (belMask k) ||| v ∧
      (∀ b, b ≠ belMask k → t.rd b = s.rd b) ∧ onlyIn [.regs, .bell] s t) ∧
    (∃ t, exec (.clrRegisterWrite (belPendClr k) v) s = .next t ∧ t.rd (belPend k) = s.rd (belPend k) &&& ~~~v ∧
      (∀ b, b ≠ belPend k → t.rd b = s.rd b) ∧ onlyIn [.regs, .bell] s t) ∧
    (∃ t, exec (.clrRegisterWrite (belMaskClr k) v) s = .next t ∧ t.rd (belMask k) = s.rd (belMask k) &&& ~~~v ∧
      (∀ b, b ≠ belMask k → t.rd b = s.rd b) ∧ onlyIn [.regs, .bell] s t))

/-- How a source becomes pending, which source wins, and what is claimed. A pulse sets its source PENDING once and is
consumed, and a condition that has risen since it was last seen sets its source PENDING; a bell with a number below
1024 sets source 3072 plus it PENDING, one that is pending already is counted as coalesced and a number of 1024 or
more as bad. A winner of target t is a candidate of t with the highest PRIO, the lowest number among equals, and there
is none only if nothing is a candidate. ARBITRATE of a target that is no host function leaves the winner as the result
that reaches it and drops an earlier result when there is none; for host function f it claims the winner (PENDING
cleared, ACTIVE set, the target occupied) and raises its vector. -/
def Obligations.BellboardSourcesAndArbitration : Prop :=
  (∀ (n : Nat) (s : State), n < 4096 → shas s.bell.pulses n = true →
    ∃ t, exec (.sourceAssert n) s = .next t ∧ t.isPending n = true ∧ shas t.bell.pulses n = false ∧
      (∀ k, k < 4096 → k ≠ n → t.isPending k = s.isPending k) ∧ onlyIn [.regs, .bell] s t) ∧
  (∀ (n : Nat) (s : State), n < 4096 → shas s.bell.pulses n = false → s.cond n = true →
    shas s.bell.condSeen n = false → ∃ t, exec (.sourceAssert n) s = .next t ∧ t.isPending n = true ∧
      shas t.bell.condSeen n = true ∧ (∀ k, k < 4096 → k ≠ n → t.isPending k = s.isPending k) ∧ onlyIn [.regs, .bell] s t) ∧
  (∀ (v : Word) (s : State),
    (v.toNat < 1024 → s.isPending (3072 + v.toNat) = false → ∃ t, exec (.bellPull v) s = .next t ∧
      t.isPending (3072 + v.toNat) = true ∧ (∀ k, k < 4096 → k ≠ 3072 + v.toNat → t.isPending k = s.isPending k) ∧
      onlyIn [.regs] s t) ∧
    (v.toNat < 1024 → s.isPending (3072 + v.toNat) = true →
      exec (.bellPull v) s = .next (s.count evBelBellCoalesced 0 0)) ∧
    (1024 ≤ v.toNat → exec (.bellPull v) s = .next (s.count evBelBellBad 0 0))) ∧
  (∀ (t n : Nat) (s : State), s.winner t = some n → s.candidate t n = true ∧
    (∀ k, k < 4096 → s.candidate t k = true → s.rf (belRoute k) 31 28 ≤ s.rf (belRoute n) 31 28) ∧
    (rising s.regs = true → ∀ k, k < 4096 → s.candidate t k = true →
      s.rf (belRoute k) 31 28 = s.rf (belRoute n) 31 28 → n ≤ k)) ∧
  (∀ (t : Nat) (s : State), s.winner t = none → ∀ k, k < 4096 → s.candidate t k = false) ∧
  (∀ (t : Nat) (s : State), (∀ k, k ∈ s.pendingSources → s.eccOf .belRoute k = .ok) →
    (t < 513 → s.winner t = none → exec (.arbitrate t []) s =
      .next { s with bell := { s.bell with arb := tdel s.bell.arb t } }) ∧
    (∀ n, t < 513 → s.winner t = some n → (tfind s.bell.arb t = none ∨ tfind s.bell.arb t = some n) →
      exec (.arbitrate t []) s = .next { s with bell := { s.bell with arb := tput s.bell.arb t n } }) ∧
    (∀ n m, t < 513 → s.winner t = some n → tfind s.bell.arb t = some m → m ≠ n →
      ∃ u, exec (.arbitrate t []) s = .next u ∧ u.bell = { s.bell with arb := tput s.bell.arb t n } ∧
        u.regs = (s.count evBelSwitch t 0).regs ∧ u.mast = (s.count evBelSwitch t 0).mast) ∧
    (∀ n, 513 ≤ t → s.winner t = some n → exec (.arbitrate t []) s =
      .next ((s.claim t n).raiseVector (t - 513) (s.rf (belRoute n) 15 0)))) ∧
  (∀ (t n : Nat) (s : State), t ≤ 576 → n < 4096 → (s.claim t n).isPending n = false ∧ (s.claim t n).isActive n = true ∧
    (s.claim t n).rb (belTgt t) 31 = true ∧ (s.claim t n).rf (belTgt t) 11 0 = n)

/-- Vectors of engines and the Attic controller, MSI-X messages, EOI, and route words. VECTOR_COMMIT of an engine
whose thread 0 is RUNNABLE outside a vector claims the result that reached it, saves pc in VRET and goes on at the
route's VEC; ATTIC_VECTOR does the same for the Attic controller; MSIX_SEND of a raised vector that enables, masks,
sleep and moderation allow sends it once and records the time; an EOI that names the active source of its function
completes it and frees the target, any other is counted as bad; a well-formed route is written and routes the source
again, a malformed one and one that moves a fixed source are refused with ERR.CFG; ROUTE_SCRUB corrects a correctable
word and makes a source with an uncorrectable word unrouted. -/
def Obligations.BellboardVectorsRoutesAndCompletion : Prop :=
  (∀ (e n : Nat) (s : State), e < 512 → tfind s.bell.arb e = some n → (s.thr (e * 8)).state = 1 →
    (s.thr (e * 8)).inVector = false → (s.thr (e * 8)).tail = false → s.candidate e n = true → n < 4096 →
    s.loftGated (e * 8 / 64) = false → ∃ u, exec (.vectorCommit e) s = .next u ∧ tfind u.bell.arb e = none ∧
      u.thr (e * 8) = { s.thr (e * 8) with
        vret := (s.thr (e * 8)).pc, pc := s.rf (belRoute n) 14 0, state := 1, wait := none, inVector := true } ∧ u.isPending n = false ∧ u.isActive n = true ∧
      u.rd (belTgt e) = BitVec.ofNat 32 (2 ^ 31 + n)) ∧
  (∀ (n : Nat) (s : State), tfind s.bell.arb 512 = some n → (s.thr atcThread).state = 1 →
    (s.thr atcThread).inVector = false → (s.thr atcThread).tail = false → s.candidate 512 n = true → n < 4096 →
    ∃ u, exec .atticVector s = .next u ∧ u.thr atcThread = { s.thr atcThread with
        vret := (s.thr atcThread).pc, pc := s.rf (belRoute n) 14 0, state := 1, wait := none, inVector := true } ∧
      u.isPending n = false ∧ u.isActive n = true ∧ u.rd (belTgt 512) = BitVec.ofNat 32 (2 ^ 31 + n)) ∧
  (∀ (t : Nat) (s : State), tfind s.bell.arb t = none → exec (.vectorCommit t) s = .next s) ∧
  (∀ (fn vec : Nat) (s : State), shas s.bell.msix (fn * 2048 + vec) = true → (s.fn fn).msixEn = true →
    (s.fn fn).busMaster = true → (s.fn fn).msixMask = false → (s.fn fn).asleep = false →
    (tget ⟨0, 0, true⟩ s.dwy.msix (fn * 2048 + vec)).masked = false →
    let last := tfind s.bell.msixLast (fn * 2048 + vec)
    (s.rf (belFnMod fn) 15 0 = 0 ∨ s.rb (dwyFnPm fn) 0 = true ∨
        (∀ x, last = some x → x + s.rf (belFnMod fn) 15 0 * 1000 ≤ s.ns) →
      ∃ u, exec (.msixSend fn vec) s = .next u ∧ shas u.bell.msix (fn * 2048 + vec) = false ∧
        tfind u.bell.msixLast (fn * 2048 + vec) = some s.ns ∧
        (let e := tget ⟨0, 0, true⟩ s.dwy.msix (fn * 2048 + vec)
         u.outbox = s.outbox ++ [.msix fn vec e.addr e.data]) ∧ onlyIn [.regs, .mast, .bell, .outbox] s u) ∧
    (∀ x, s.rf (belFnMod fn) 15 0 ≠ 0 → s.rb (dwyFnPm fn) 0 = false → last = some x →
      s.ns < x + s.rf (belFnMod fn) 15 0 * 1000 → exec (.msixSend fn vec) s = .next s)) ∧
  (∀ (fn n : Nat) (v : Word) (s : State), fn < 64 →
    (s.rb (belTgt (513 + fn)) 31 = true → s.rf (belTgt (513 + fn)) 11 0 = n → fld v 11 0 = n →
      ∃ u, exec (.eoiWrite fn v) s = .next u ∧ u.isActive n = false ∧ u.rd (belTgt (513 + fn)) = 0 ∧
        (∀ k, k < 4096 → k ≠ n → u.isActive k = s.isActive k ∧ u.isPending k = s.isPending k) ∧
        (s.isPending n = true → u.isPending n = true) ∧
        (((s.putB (belActive (n / 32)) (n % 32) false).wrN (belTgt (513 + fn)) 0).cond n = true → u.isPending n = true) ∧
        onlyIn [.regs, .mast] s u) ∧
    (s.rb (belTgt (513 + fn)) 31 = false ∨ s.rf (belTgt (513 + fn)) 11 0 ≠ fld v 11 0 →
      exec (.eoiWrite fn v) s = .next (s.count evBelEoiBad fn 0))) ∧
  (∀ (n : Nat) (v : Word) (s : State), n < 4096 → s.rf mstInjCtl 26 24 = 0 →
    (fixedTarget n = none ∨ fixedTarget n = some (fld v 27 25, fld v 24 16) →
      fld v 27 25 = 0 ∨ (fld v 27 25 = 1 ∧ fld v 15 0 ≤ 32767) ∨ (fld v 27 25 = 2 ∧ fld v 24 16 = 0) ∨
        (fld v 27 25 = 3 ∧ fld v 24 16 < 64 ∧ fld v 15 0 ≤ 2047) →
      ∃ u, exec (.routeWrite n v) s = .next u ∧ u.rd (belRoute n) = v ∧ shas u.bell.unrouted n = false ∧
        u.eccOf .belRoute n = .ok ∧ (∀ b, b ≠ belRoute n → u.rd b = s.rd b) ∧ onlyIn [.regs, .ecc, .bell] s u) ∧
    ((∃ p, fixedTarget n = some p ∧ p ≠ (fld v 27 25, fld v 24 16)) ∨ 3 < fld v 27 25 ∨
        (fld v 27 25 = 1 ∧ 32767 < fld v 15 0) ∨ (fld v 27 25 = 2 ∧ fld v 24 16 ≠ 0) ∨
        (fld v 27 25 = 3 ∧ (64 ≤ fld v 24 16 ∨ 2047 < fld v 15 0)) →
      exec (.routeWrite n v) s = .next (s.setB belErr 0))) ∧
  (∀ (n : Nat) (s : State), n < 4096 → s.eccOf .belRoute n = .ok →
    exec (.routeScrub n .ok) s = .next s ∧
    (∃ u, exec (.routeScrub n .corr) s = .next u ∧ u.rb belErr 1 = true ∧ u.eccOf .belRoute n = .ok ∧
      u.targetOf n = s.targetOf n ∧ onlyIn [.regs, .ecc, .mast] s u) ∧
    (∃ u, exec (.routeScrub n .uncorr) s = .next u ∧ u.rb belErr 2 = true ∧ u.rdN belErrLoc = n ∧
      u.targetOf n = none ∧ onlyIn [.regs, .ecc, .mast, .bell] s u))

/-- Frames that arrive, gated slices that wake, and links that come up and go down. On a port that is not enabled or
whose link is down nothing arrives. A whole frame of 64 bytes to the MTU that Porch does not consume enters the head
queue of its slice with its bytes but the FCS, and takes its units; it is bad if and only if its FCS is not the good
one. A runt leaves no frame. A gated slice that wakes is no longer gated and its waiting frame joins the head queue. A
link comes up on an enabled port once negotiation and training, where on, are complete; a link that goes down is
reported in PORT_ERR, ends pause and the partner, and drops what was arriving and the frame in flight. Negotiation and
training set their status bits, failed negotiation its error bit. -/
def Obligations.PorchReceiveAndLinks : Prop :=
  (∀ (n : Nat) (bytes : List Byte) (err : Bool) (total c1 c2 : Nat) (s : State),
    (s.portEnabled n = false ∨ s.linkUp n = false → exec (.frameReceive n bytes err total c1 c2) s = .next s) ∧
    (s.portEnabled n = true → s.linkUp n = true → (s.port n).rx = none → bytes.length = total → 64 ≤ total →
      total ≤ s.mtu n → consumed bytes = false → s.inSafe = false → s.isoSlice (n / 32) = false →
      s.sliceGated (n / 32) = false → (s.sl (n / 32)).headQ.length < 2048 → unitsOf total ≤ s.freeUnits (n / 32) →
      ∃ u, exec (.frameReceive n bytes false total c1 c2) s = .next u ∧
        let f := s.pipe.nextFid
        let body := bytes.take (total - 4)
        u.hasFrame f = true ∧ (u.frame f).data = body ∧ (u.frame f).port = n ∧ (u.frame f).complete = true ∧
        (u.frame f).units = unitsOf total ∧ (u.sl (n / 32)).headQ = (s.sl (n / 32)).headQ ++ [f] ∧
        u.pipe.nextFid = f + 1 ∧ (u.port n).rx = none ∧
        (bytes.drop (total - 4) = fcsOf body false → bytes.drop (total - 4) ≠ fcsOf body true → (u.frame f).bad = false) ∧
        (bytes.drop (total - 4) ≠ fcsOf body false → (u.frame f).bad = true)) ∧
    (s.portEnabled n = true → s.linkUp n = true → (s.port n).rx = none → bytes.length = total → total < 64 →
      ∃ u, exec (.frameReceive n bytes err total c1 c2) s = .next u ∧ u.pipe.frames = s.pipe.frames ∧
        u.pipe.slices = s.pipe.slices ∧ (u.port n).rx = none ∧ onlyIn [.regs, .mast, .pipe] s u)) ∧
  (∀ (sl f : Nat) (s : State), sl < 16 →
    (s.sliceGated sl = false → exec (.sliceWake sl) s = .next s) ∧
    (s.sliceGated sl = true → (s.sl sl).wake = [] → ∃ u, exec (.sliceWake sl) s = .next u ∧ u.sliceGated sl = false) ∧
    (s.sliceGated sl = true → (s.sl sl).wake = [f] → (s.sl sl).headQ.length < 2048 →
      unitsOf (s.frame f).len ≤ s.freeUnits (s.frame f).slice → ∃ u, exec (.sliceWake sl) s = .next u ∧
        u.sliceGated sl = false ∧ (u.sl sl).wake = [] ∧ (u.sl sl).headQ = (s.sl sl).headQ ++ [f] ∧
        (u.frame f).units = (s.frame f).units + unitsOf (s.frame f).len ∧ (u.frame f).head.pos = .queued)) ∧
  (∀ (n : Nat) (s : State),
    (s.portEnabled n = true → s.linkUp n = false → s.isoChiplet (n / 64) = false →
      s.rb (pchPortCfg n) 5 = false ∨ s.rb (pchPortStatus n) 1 = true →
      s.rb (pchPortCfg n) 6 = false ∨ s.rb (pchPortStatus n) 2 = true →
      ∃ u, exec (.linkUp n) s = .next u ∧ u.linkUp n = true ∧ u.rb (pchPortStatus n) 4 = true ∧
        (s.rf (pchPortCfg n) 4 3 ≠ 0 → u.rb (pchPortStatus n) 3 = true) ∧
        (u.port n).pfcDue = Nat.lor (s.port n).pfcDue (s.port n).xoff ∧
        (u.port n).helloDue = (if s.rf (pchHelloCfg n) 15 0 ≠ 0 then 2 else 0) ∧ onlyIn [.regs, .pipe] s u) ∧
    (s.portEnabled n = false ∨ s.linkUp n = true ∨ s.isoChiplet (n / 64) = true → exec (.linkUp n) s = .next s) ∧
    (s.linkUp n = false → exec (.linkDown n) s = .next s) ∧
    (s.linkUp n = true → ∃ u, exec (.linkDown n) s = .next u ∧ u.linkUp n = false ∧ u.rb (pchPortErr n) 5 = true ∧
      (u.port n).rx = none ∧ (u.port n).pause = [] ∧ (u.port n).peer.up = false ∧ (u.port n).downSince = s.ns ∧
      u.rf (pchPfcState n) 7 0 = 0 ∧ (∀ x, (s.port n).tx = some x → x.begun = true → (u.port n).tx = none)) ∧
    (s.portEnabled n = true → s.rb (pchPortCfg n) 5 = true → s.linkUp n = false →
      exec (.autoNegotiation n true) s = .next (s.setB (pchPortStatus n) 1) ∧
      ∃ u, exec (.autoNegotiation n false) s = .next u ∧ u.rb (pchPortStatus n) 1 = false ∧
        u.rb (pchPortErr n) 4 = true ∧ onlyIn [.regs] s u) ∧
    (∀ ok, s.portEnabled n = false ∨ s.rb (pchPortCfg n) 5 = false ∨ s.linkUp n = true →
      exec (.autoNegotiation n ok) s = .next s) ∧
    (s.portEnabled n = true → s.rb (pchPortCfg n) 6 = true →
      s.rb (pchPortCfg n) 5 = false ∨ s.rb (pchPortStatus n) 1 = true →
      exec (.linkTraining n) s = .next (s.setB (pchPortStatus n) 2)) ∧
    (s.portEnabled n = false ∨ s.rb (pchPortCfg n) 6 = false → exec (.linkTraining n) s = .next s))

/-- Lane rates, port enables, MTU, and pause in both directions. A lane rate is taken only while no port of the octet
is enabled; a port is enabled only with its other fields as written before and a configuration that R36 allows, and is
disabled at once unless a frame is under way; an enabled port refuses other writes. An MTU outside 64 to 16384 is
refused. PFC and PAUSE frames load or clear the timers of the classes they name in the mode that takes them and are
discarded in others; a class is paused exactly while a timer that maps to it runs. A generated frame carries the
priorities that are due, with PAUSE_QUANTA for those in XOFF and 0 for the others. -/
def Obligations.PorchConfigurationAndFlowControl : Prop :=
  (∀ (o : Nat) (v : Word) (s : State), o < 64 →
    (fld v 2 0 = s.rf (pchOctCfg o) 2 0 → exec (.laneRateWrite o v) s = .next s) ∧
    (fld v 2 0 ≠ s.rf (pchOctCfg o) 2 0 → 5 ≤ fld v 2 0 ∨ (∃ i, i < 8 ∧ s.rb (pchPortCfg (8 * o + i)) 0 = true) →
      exec (.laneRateWrite o v) s = .next (s.setB (pchOctCfg o) 4)) ∧
    (fld v 2 0 < 5 → (∀ i, i < 8 → s.rb (pchPortCfg (8 * o + i)) 0 = false) →
      ∃ u, exec (.laneRateWrite o v) s = .next u ∧ u.rf (pchOctCfg o) 2 0 = fld v 2 0 ∧
        (∀ b, b ≠ pchOctCfg o → u.rd b = s.rd b) ∧ onlyIn [.regs] s u)) ∧
  (∀ (n : Nat) (v : Word) (s : State), n < 512 →
    (s.rb (pchPortCfg n) 0 = true → v.getLsbD 0 = true ∨ fld v 10 1 ≠ s.rf (pchPortCfg n) 10 1 →
      exec (.portCfgWrite n v) s = .next s) ∧
    (s.rb (pchPortCfg n) 0 = true → v.getLsbD 0 = false → fld v 10 1 = s.rf (pchPortCfg n) 10 1 →
      ∃ u, exec (.portCfgWrite n v) s = .next u ∧ u.rb (pchPortCfg n) 0 = false ∧
        (s.txBusy n = false → u.portEnabled n = false ∧ u.linkUp n = false) ∧
        (s.txBusy n = true → (u.port n).disableDue = true ∧ u.portEnabled n = s.portEnabled n)) ∧
    (s.rb (pchPortCfg n) 0 = false → v.getLsbD 0 = true → fld v 10 1 = s.rf (pchPortCfg n) 10 1 → s.portCfgOk n = true →
      ∃ u, exec (.portCfgWrite n v) s = .next u ∧ u.rb (pchPortCfg n) 0 = true ∧ u.portEnabled n = true ∧
        u.linkUp n = false ∧ (u.port n).downSince = s.ns ∧ onlyIn [.regs, .pipe] s u) ∧
    (s.rb (pchPortCfg n) 0 = false → v.getLsbD 0 = true →
      fld v 10 1 ≠ s.rf (pchPortCfg n) 10 1 ∨ s.portCfgOk n = false →
      exec (.portCfgWrite n v) s = .next (s.setB (pchPortErr n) 0)) ∧
    (s.rb (pchPortCfg n) 0 = false → v.getLsbD 0 = false → ∃ u, exec (.portCfgWrite n v) s = .next u ∧
      u.rf (pchPortCfg n) 10 1 = fld v 10 1 ∧ u.rb (pchPortCfg n) 0 = false ∧
      (∀ b, b ≠ pchPortCfg n → u.rd b = s.rd b) ∧ onlyIn [.regs] s u) ∧
    (64 ≤ fld v 14 0 → fld v 14 0 ≤ 16384 → ∃ u, exec (.portMtuWrite n v) s = .next u ∧ u.mtu n = fld v 14 0 ∧
      (∀ b, b ≠ pchPortMtu n → u.rd b = s.rd b) ∧ onlyIn [.regs] s u) ∧
    (fld v 14 0 < 64 ∨ 16384 < fld v 14 0 → exec (.portMtuWrite n v) s = .next (s.setB (pchPortErr n) 1))) ∧
  (∀ (n vec time k : Nat) (times : List Nat) (s : State),
    let shown (u : State) : Prop := ∀ c, c < 8 → u.tcPaused n c = ((tfind (u.port n).pause (8 + c)).isSome ||
      (upto 8).any fun p => (tfind (u.port n).pause p).isSome && u.rf (pchPfcMap n) (3 * p + 2) (3 * p) == c)
    (s.linkUp n = false → exec (.pfcReceive n vec times) s = .next s ∧ exec (.pauseReceive n time) s = .next s) ∧
    (s.linkUp n = true → s.rf (pchPortCfg n) 8 7 = 1 → ∃ u, exec (.pfcReceive n vec times) s = .next u ∧ shown u ∧
      onlyIn [.regs, .mast, .pipe] s u ∧ ∀ p, p < 8 → tfind (u.port n).pause p =
        if vec.testBit p = true ∧ s.rb (pchPfcCfg n) (24 + p) = true then
          (if times.getD p 0 = 0 then none else some (times.getD p 0))
        else tfind (s.port n).pause p) ∧
    (s.linkUp n = true → s.rf (pchPortCfg n) 8 7 ≠ 1 →
      exec (.pfcReceive n vec times) s = .next (s.count evPchMacctlDiscard n 0)) ∧
    (s.linkUp n = true → s.rf (pchPortCfg n) 8 7 = 2 → ∃ u, exec (.pauseReceive n time) s = .next u ∧ shown u ∧
      (∀ c, c < 8 → tfind (u.port n).pause (8 + c) = if time = 0 then none else some time) ∧
      (∀ p, p < 8 → tfind (u.port n).pause p = tfind (s.port n).pause p)) ∧
    (s.linkUp n = true → s.rf (pchPortCfg n) 8 7 ≠ 2 →
      exec (.pauseReceive n time) s = .next (s.count evPchMacctlDiscard n 0)) ∧
    (∃ u, exec (.pauseTimerExpire n k) s = .next u ∧ shown u ∧ tfind (u.port n).pause k = none ∧
      (∀ j, j ≠ k → tfind (u.port n).pause j = tfind (s.port n).pause j) ∧ onlyIn [.regs, .pipe] s u)) ∧
  (∀ (n : Nat) (s : State),
    let vec := Nat.land (s.port n).pfcDue (s.rf (pchPfcCfg n) 23 16)
    (vec = 0 ∨ s.linkUp n = false ∨ s.txBusy n = true → exec (.pfcGenerate n) s = .next s) ∧
    (vec ≠ 0 → s.linkUp n = true → s.txBusy n = false → s.rf (pchPortCfg n) 8 7 = 1 →
      ∃ u bs, exec (.pfcGenerate n) s = .next u ∧ u.outbox = s.outbox ++ [.frame n bs false] ∧ bs.length = 64 ∧
        beAt bs 0 6 = 0x0180C2000001 ∧ beAt bs 12 2 = 0x8808 ∧ beAt bs 14 2 = 0x0101 ∧ beAt bs 16 2 = vec ∧
        (∀ p, p < 8 → beAt bs (18 + 2 * p) 2 =
          if vec.testBit p = true ∧ (s.port n).xoff.testBit p = true then s.rf (pchPfcCfg n) 15 0 else 0) ∧
        (u.port n).pfcDue = (s.port n).pfcDue - vec) ∧
    (vec ≠ 0 → s.linkUp n = true → s.txBusy n = false → s.rf (pchPortCfg n) 8 7 = 2 →
      ∃ u bs, exec (.pfcGenerate n) s = .next u ∧ u.outbox = s.outbox ++ [.frame n bs false] ∧ bs.length = 64 ∧
        beAt bs 12 2 = 0x8808 ∧ beAt bs 14 2 = 0x0001 ∧ beAt bs 16 2 =
          (if Nat.land (s.port n).xoff (s.rf (pchPfcCfg n) 23 16) = 0 then 0 else s.rf (pchPfcCfg n) 15 0)) ∧
    (exec (.pfcRefresh n) s = .next (s.setPort n { s.port n with
      pfcDue := Nat.lor (s.port n).pfcDue (Nat.land (s.port n).xoff (s.rf (pchPfcState n) 15 8)) })))

/-- Stamps, hellos, partner state, and the first and last byte of a frame. A read of TS_TAG takes the oldest stamp,
whose time then stands in TS_LO and TS_HI, and reads 0 with none. A malformed hello and one within 100 µs of the last
are counted and dropped; another sets the partner to what it says and posts the change; one with LEAVING, and a hold
time that runs out, take the partner down. A posted change reaches Crowsnest oldest first. A hello sends the part's
sequence number and flags and steps the number. The chosen copy begins with its declared length unless it is longer
than the MTU, when it is dropped; once wholly there it ends with its bytes and the FCS, the poisoned one if the frame
was found bad, and the port is free. -/
def Obligations.PorchHellosStampsAndTransmission : Prop :=
  (∀ (n tag ts : Nat) (rest : List (Nat × Nat)) (s : State), n < 512 →
    ((s.port n).ts = [] → exec (.tsTagRead n) s = .next { s with rdata := 0 }) ∧
    ((s.port n).ts = (tag, ts) :: rest → ts < 2 ^ 64 → ∃ u, exec (.tsTagRead n) s = .next u ∧ u.rdata = 2 ^ 31 + tag ∧
      (u.port n).ts = rest ∧ u.rd64 (pchTsLo n) = ts ∧ onlyIn [.regs, .rdata, .pipe] s u)) ∧
  (∀ (n : Nat) (frame : List Byte) (s : State),
    let p := frame.drop 14
    let q := s.port n
    (s.linkUp n = false → exec (.helloReceive n frame) s = .next s) ∧
    (s.linkUp n = true → helloOk p = false → exec (.helloReceive n frame) s = .next (s.count evPchHelloMalformed n 0)) ∧
    (∀ x, s.linkUp n = true → helloOk p = true → q.lastHelloNs = some x → s.ns < x + 100000 →
      exec (.helloReceive n frame) s = .next (s.count evPchHelloRateDrop n 0)) ∧
    (s.linkUp n = true → helloOk p = true → (∀ x, q.lastHelloNs = some x → x + 100000 ≤ s.ns) →
      ∃ u, exec (.helloReceive n frame) s = .next u ∧ (u.port n).lastHelloNs = some s.ns ∧
        (u.port n).peerSeq = some (beAt p 4 4) ∧ (u.port n).holdMs = beAt p 10 2 * beAt p 12 1 ∧
        onlyIn [.regs, .mast, .pipe] s u ∧
        (u.port n).replyDue = (q.replyDue || ((beAt p 3 1).testBit 0 && s.rf (pchHelloCfg n) 15 0 != 0)) ∧
        ((beAt p 3 1).testBit 3 = true → (u.port n).peer.up = false) ∧
        ((beAt p 3 1).testBit 3 = false → (u.port n).peer = ⟨true, beAt p 8 2, min 3 (beAt p 13 1), beAt p 16 4,
            (beAt p 3 1).testBit 2, (beAt p 3 1).testBit 1, beAt p 20 8⟩ ∧
          (q.peer.up = false ∨ q.peer.node = beAt p 20 8 → (u.port n).posts =
            if q.peer = (u.port n).peer then q.posts else q.posts ++ [(u.port n).peer])))) ∧
  (∀ (n : Nat) (s : State),
    ((s.port n).peer.up = false → exec (.partnerHoldExpire n) s = .next s) ∧
    ((s.port n).peer.up = true → ∃ u, exec (.partnerHoldExpire n) s = .next u ∧
      (u.port n).peer = { (s.port n).peer with up := false } ∧
      (u.port n).posts = (s.port n).posts ++ [(u.port n).peer] ∧ u.rb (pchPeerState n) 0 = false ∧
      onlyIn [.regs, .mast, .pipe] s u) ∧
    ((s.port n).posts = [] → exec (.partnerStatePost n) s = .next s) ∧
    (∀ x rest, (s.port n).posts = x :: rest → ∃ u, exec (.partnerStatePost n) s = .next u ∧
      (u.port n).posts = rest ∧ tfind u.crw.peers n = some x ∧ onlyIn [.regs, .mast, .pipe, .crw] s u)) ∧
  (∀ (n : Nat) (s : State), s.linkUp n = true → s.txBusy n = false →
    (s.rf (pchHelloCfg n) 15 0 ≠ 0 → ∃ u bs, exec (.helloSend n) s = .next u ∧
      u.outbox = s.outbox ++ [.frame n bs false] ∧ bs.length = 64 ∧ beAt bs 12 2 = 0x88B5 ∧ beAt bs 14 2 = 0x4B48 ∧
      beAt bs 17 1 = 2 + nat ((s.port n).helloDue == 2) ∧ beAt bs 18 4 = (s.port n).helloSeq % 2 ^ 32 ∧
      (u.port n).helloSeq = ((s.port n).helloSeq + 1) % 2 ^ 32 ∧ (u.port n).helloDue = 0) ∧
    (s.rf (pchHelloCfg n) 15 0 = 0 → exec (.helloSend n) s = .next s) ∧
    ((s.port n).replyDue = true → ∃ u bs, exec (.helloReply n) s = .next u ∧
      u.outbox = s.outbox ++ [.frame n bs false] ∧ bs.length = 64 ∧ beAt bs 12 2 = 0x88B5 ∧ beAt bs 17 1 = 2 ∧
      (u.port n).helloSeq = ((s.port n).helloSeq + 1) % 2 ^ 32 ∧ (u.port n).replyDue = false) ∧
    ((s.port n).replyDue = false → exec (.helloReply n) s = .next s)) ∧
  (∀ (n : Nat) (s : State),
    ((s.port n).tx = none → exec (.frameBegin n) s = .next s ∧ exec (.frameEnd n) s = .next s) ∧
    (∀ x, (s.port n).tx = some x → x.begun = false → s.inSafe = false → (s.copy x.copy).st = 1 → s.portGone n = false →
      s.linkUp n = true → ¬((s.frame (s.copy x.copy).fid).complete = true ∧ (s.frame (s.copy x.copy).fid).bad = true) →
      (s.plan x.copy).bad = 0 →
      ((s.plan x.copy).len ≤ s.mtu n → ∃ u, exec (.frameBegin n) s = .next u ∧ (u.copy x.copy).st = 2 ∧
        (u.port n).tx = some ⟨x.copy, (s.plan x.copy).len, (s.plan x.copy).out, true, s.txStamp n⟩) ∧
      (s.mtu n < (s.plan x.copy).len → exec (.frameBegin n) s =
        .next ((s.count evPchTxOversize n 0).txDrop n x.copy 0x12))) ∧
    (∀ x, (s.port n).tx = some x → x.begun = true → s.copyWhole x.copy = true → (s.port n).disableDue = false →
      ∃ u, exec (.frameEnd n) s = .next u ∧ (u.port n).tx = none ∧
        let bad := s.poisonOf x.copy != 0
        u.outbox = s.outbox ++ [.frame n (s.copyBytes x.copy x ++ fcsOf (s.copyBytes x.copy x) bad) bad]) ∧
    (∀ x, (s.port n).tx = some x → x.begun = true → s.copyWhole x.copy = true → (s.port n).disableDue = true →
      ∃ u, exec (.frameEnd n) s = .next u ∧ (u.port n).tx = none ∧ u.portEnabled n = false))

/-- Heads accepted and parsed, and the microcode store written, read and scrubbed. A head that has a slot of a slice
that takes heads starts its parse at its port's START with the port's profile, the next sequence number and the stage
region of a first pass; one that re-enters at a stage goes to its chain. A head whose parser is off ends with status
FAIL and cause 4 (14 with Hallway off), and a head whose first word ends the parse COMPLETE enters the chain with
status 0 and that word's header vector. UC_WRITE puts a word that passes the load-time checks into every named slice's
store and nowhere else, and refuses any other with its reason; UC_READ reads the lowest named slice's word;
STORE_SCRUB corrects what it can and reports what it cannot. -/
def Obligations.ThresholdHeadsAndStore : Prop :=
  (∀ (f : Nat) (s : State),
    let x := s.frame f
    (x.head.pos ≠ .slot ∨ s.takesHeads x.slice = false → exec (.headAccept f) s = .next s) ∧
    (x.head.pos = .slot → s.takesHeads x.slice = true → x.head.entry < 2 →
      ∃ u, exec (.headAccept f) s = .next u ∧ (u.head f).pos = .chain ∧
        (u.sl x.slice).slots = (s.sl x.slice).slots.filter (· != f)) ∧
    (x.head.pos = .slot → s.takesHeads x.slice = true → x.head.entry = 2 →
      ∃ u, exec (.headAccept f) s = .next u ∧ (u.head f).pos = .parsing ∧ (u.head f).seq = s.pipe.nextSeq ∧
        u.pipe.nextSeq = s.pipe.nextSeq + 1 ∧ (u.head f).start = s.rf (thrPortCfg x.port) 12 0 ∧
        (u.head f).profile = s.rf (thrPortCfg x.port) 23 16 ∧ (u.head f).running = s.rb (thrSliceCtl x.slice) 0 ∧
        (u.head f).get 519 512 = s.rf (hlwPortCfg x.port) 7 0 ∧ (u.head f).tc = s.rf (hlwPortCfg x.port) 11 9 ∧
        (u.head f).gen = s.genPar ∧ (u.head f).cause = 0 ∧
        (u.sl x.slice).slots = (s.sl x.slice).slots.filter (· != f))) ∧
  (∀ (f : Nat) (s : State),
    let x := s.frame f
    let w := s.ucWord (x.slice * 8192 + x.head.start)
    (∀ upset, x.head.pos ≠ .parsing → exec (.parseComplete f upset) s = .next s) ∧
    (x.head.pos = .parsing → x.head.running = false → x.head.ending = none → x.port < 512 → x.len < 2 ^ 15 →
      ∃ u, exec (.parseComplete f none) s = .next u ∧ (u.head f).pos = .chain ∧ (u.head f).get 99 98 = 2 ∧
        (u.head f).ending = some (.cause (if s.rb (hlwSliceCtl x.slice) 0 = true then 4 else 14)) ∧
        (u.frame f).data = x.data) ∧
    (∀ q, x.head.pos = .parsing → x.head.running = true → x.head.ending = none → x.port < 512 → x.len < 2 ^ 15 →
      s.eccOf .thr (x.slice * 8192 + x.head.start) = .ok → s.rb (hlwSliceCtl x.slice) 0 = true →
      ucStep w ⟨x.headBytes, x.len - 4, x.head.consts, x.head.profile⟩ (Parse.start x.head.start) = (q, some (0, 0)) →
      ∃ u, exec (.parseComplete f none) s = .next u ∧ (u.head f).pos = .chain ∧ (u.head f).get 99 98 = 0 ∧
        (u.head f).hv = q.hv ∧ (u.head f).ending = none ∧ (u.head f).stage = 0 ∧ (u.frame f).data = x.data)) ∧
  (∀ (v : Word) (s : State),
    let mask := fld v 15 0
    let a := fld v 28 16
    let w : BitVec 256 := BitVec.ofNat 256 (s.rdWide (thrUcData 0) 8)
    let sl := (maskSlices mask).headD 0
    (s.rb thrUcCmd 31 = true → exec (.ucWrite v) s = .next (s.setB thrUcStatus 1) ∧
      exec (.ucRead v) s = .next (s.setB thrUcStatus 1)) ∧
    (s.rb thrUcCmd 31 = false → mask ≠ 0 → ucCheck w ≠ 0 → ∃ u, exec (.ucWrite v) s = .next u ∧
      u.pipe.store = s.pipe.store ∧ u.rb thrUcStatus 0 = true ∧ u.rf thrUcStatus 15 8 = ucCheck w ∧
      onlyIn [.regs, .mast] s u) ∧
    (s.rb thrUcCmd 31 = false → mask ≠ 0 → ucCheck w = 0 → s.rf mstInjCtl 26 24 = 0 →
      (∀ k, k < 16 → mask.testBit k = true → s.sliceGated k = false) → ∃ u, exec (.ucWrite v) s = .next u ∧
        (∀ k, k < 16 → mask.testBit k = true → u.ucWord (k * 8192 + a) = w ∧ u.eccOf .thr (k * 8192 + a) = .ok) ∧
        (∀ j, (∀ k, k < 16 → mask.testBit k = true → j ≠ k * 8192 + a) → u.ucWord j = s.ucWord j) ∧
        onlyIn [.regs, .ecc, .pipe] s u) ∧
    (s.rb thrUcCmd 31 = false → mask ≠ 0 → s.sliceGated sl = false → ∃ u, exec (.ucRead v) s = .next u ∧
      u.rdWide (thrUcData 0) 8 = (s.ucWord (sl * 8192 + a)).toNat ∧ onlyIn [.regs] s u)) ∧
  (∀ (sl a : Nat) (s : State), a < 8192 → s.eccOf .thr (sl * 8192 + a) = .ok →
    exec (.storeScrub sl a .ok) s = .next s ∧
    (∃ u, exec (.storeScrub sl a .corr) s = .next u ∧ u.eccOf .thr (sl * 8192 + a) = .ok ∧
      u.rb (thrSliceErr sl) 0 = true ∧ onlyIn [.regs, .ecc, .mast] s u) ∧
    (∃ u, exec (.storeScrub sl a .uncorr) s = .next u ∧ u.eccOf .thr (sl * 8192 + a) = .uncorr ∧
      u.rb (thrSliceErr sl) 1 = true ∧ u.rf (thrSliceErr sl) 28 16 = a ∧ onlyIn [.regs, .ecc, .mast] s u))

/-- A head's lookups, its park and re-entry, its slots, and the end of its chain. In the chain, NEXT END with nothing
outstanding ends it with its destination, or with cause 1 or 3 where it has none; a NEXT that does not go on ends it
with cause 10; a direct table that hits applies its action, which sets NEXT and the destination it names; a remote
table issues its lookup. An answer found reaches its lookup; the first parked head of a port whose answer has come
joins the re-entry queue, and one that has finished leaves. A core cycle gives at most three slots, the last to a
re-entry if it has waited 16 cycles. A chain that ends in Lofts makes a ticket of its program; one with a further pass
re-enters with PASS one more; one that drops holds nothing more. -/
def Obligations.HallwayChains : Prop :=
  (∀ (f : Nat) (s : State),
    let x := s.frame f
    let h := x.head
    let t := h.get 519 512
    (∀ up, h.pos ≠ .chain ∨ h.ending.isSome = true → exec (.stageLookup f up) s = .next s) ∧
    (h.pos = .chain → h.ending = none → h.parityBad = false → h.remote = [] →
      (t = 0xFF → ∃ u, exec (.stageLookup f none) s = .next u ∧ (u.head f).ending = some
        (if h.get 530 528 ≠ 0 then .dest else .cause (if h.get 99 98 = 1 then 3 else 1)) ∧ onlyIn [.pipe] s u) ∧
      (t ≠ 0xFF → t / 8 < h.stage → ∃ u, exec (.stageLookup f none) s = .next u ∧
        (u.head f).ending = some (.cause 10) ∧ onlyIn [.pipe] s u) ∧
      (let d := s.defOf x.slice t (s.seesNew h.gen)
       let k := beNat (defKey h d)
       let v := s.sramAt (2 ^ 18 * x.slice + (dBase d + k)) (s.seesNew h.gen)
       t < 192 → h.stage ≤ t / 8 → dValid d = true → s.stageKind x.slice (t / 8) = 1 → dForm d = 1 → k < 2 ^ dSize d →
       s.eccOf .hlw (2 ^ 18 * x.slice + (dBase d + k)) = .ok → af v 116 116 = 0 → af v 53 51 = 0 → af v 119 117 = 0 →
       af v 127 120 ≠ 0xFF → ∃ u, exec (.stageLookup f none) s = .next u ∧ (u.head f).get 519 512 = af v 127 120 ∧
        (u.head f).ending = none ∧ (u.head f).pos = .chain ∧ (u.head f).stage = t / 8 + 1 ∧
        (u.head f).get 530 528 = (if af v 115 113 = 0 then h.get 530 528 else af v 115 113) ∧
        (u.head f).get 547 532 = (if af v 115 113 = 0 then h.get 547 532 else af v 112 97) ∧
        (u.frame f).data = x.data ∧ onlyIn [.regs, .mast, .pipe] s u) ∧
      (let d := s.defOf x.slice t (s.seesNew h.gen)
       t < 192 → h.stage ≤ t / 8 → dValid d = true → s.stageKind x.slice (t / 8) = 3 →
       ∃ u, exec (.stageLookup f none) s = .next u ∧ (u.head f).get 519 512 = dCont d ∧ (u.head f).ending = none ∧
        (u.head f).remote = [⟨s.pipe.nextSeq, t, dJoin d, false, df d 135 128, defKey h d, false, none, none⟩] ∧
        onlyIn [.pipe] s u))) ∧
  (∀ (f k : Nat) (s : State),
    (s.hasFrame f = false → exec (.remoteAnswerArrive f k) s = .next s) ∧
    (s.hasFrame f = true → ∃ u, exec (.remoteAnswerArrive f k) s = .next u ∧ onlyIn [.pipe] s u ∧
      (∀ j a, ((s.head f).remote.getD j ⟨0, 0, 0, false, 0, [], false, none, none⟩).join = k →
        ((s.head f).remote.getD j ⟨0, 0, 0, false, 0, [], false, none, none⟩).found = some a → j < (s.head f).remote.length →
        ((u.head f).remote.getD j ⟨0, 0, 0, false, 0, [], false, none, none⟩).answer = some a) ∧
      (u.head f).remote.length = (s.head f).remote.length)) ∧
  (∀ (f : Nat) (s : State),
    let x := s.frame f
    (s.firstParked f = false → exec (.parkRelease f) s = .next s) ∧
    (∀ r, s.firstParked f = true → x.head.pos = .parked → x.head.firstJoin = some r → r.answer.isSome = true →
      s.reentryRoom x.slice = true → ∃ u, exec (.parkRelease f) s = .next u ∧ (u.head f).pos = .reentry ∧
        (u.head f).entry = 1 ∧ (u.sl x.slice).reentry = (s.sl x.slice).reentry ++ [f] ∧
        (u.sl x.slice).park = (s.sl x.slice).park.filter (· != f) ∧ onlyIn [.pipe] s u) ∧
    (∀ r, x.head.pos = .parked → x.head.firstJoin = some r → r.answer = none → exec (.parkRelease f) s = .next s) ∧
    (s.firstParked f = true → x.head.pos = .parkedOut → s.orderWaits f = true ∨ s.earlier f Frame.parkedStill = true →
      exec (.parkRelease f) s = .next s) ∧
    (s.firstParked f = true → x.head.pos = .parkedOut → s.orderWaits f = false → s.earlier f Frame.parkedStill = false →
      x.head.ending = some .drop → ∃ u, exec (.parkRelease f) s = .next u ∧
        (u.hasFrame f = true → (u.frame f).isOver = true ∧ (u.frame f).units = 0 ∧ (u.head f).pos = .none))) ∧
  (∀ (k : Nat) (s : State),
    let x := s.sl k
    let late := x.aged && !x.reentry.isEmpty
    let new := x.headQ.take (if late = true then 2 else 3)
    let re := if late = true ∨ new.length < 3 then x.reentry.take 1 else []
    (s.takesHeads k = false ∨ x.slots ≠ [] → exec (.headSlotArbitrate k) s = .next s) ∧
    (s.takesHeads k = true → x.slots = [] → ∃ u, exec (.headSlotArbitrate k) s = .next u ∧ (u.sl k).slots = new ++ re ∧
      (u.sl k).headQ = x.headQ.drop new.length ∧ (u.sl k).reentry = x.reentry.drop re.length ∧
      (∀ f ∈ new ++ re, (u.head f).pos = .slot) ∧ (∀ f, f ∉ new ++ re → u.frame f = s.frame f) ∧
      onlyIn [.regs, .mast, .pipe] s u) ∧
    (x.reentry = [] → exec (.reentryAgeLimit k) s = .next s) ∧
    (x.reentry ≠ [] → exec (.reentryAgeLimit k) s = .next (s.setSl k { x with aged := true }))) ∧
  (∀ (f : Nat) (s : State),
    let x := s.frame f
    (x.head.ending = none ∨ x.head.pos ≠ .chain → exec (.chainEnd f) s = .next s) ∧
    (x.head.pos = .chain → x.head.parityBad = false →
      (∀ p, x.head.ending = some (.lofts p) → ∃ u k, exec (.chainEnd f) s = .next u ∧
        tfind u.lft.tickets s.lft.nextTicket = some k ∧ k.prog = p ∧ k.fid = f ∧ k.inPort = x.port ∧ k.buf = 0 ∧
        k.src = (if x.head.cause = 0 then 0 else 1)) ∧
      (∀ a, x.head.ending = some (.again 3 a) → s.reentryRoom x.slice = true → x.head.pass ≤ 2 →
        ∃ u, exec (.chainEnd f) s = .next u ∧ (u.head f).pos = .reentry ∧ (u.head f).pass = x.head.pass + 1 ∧
          (u.head f).entry = 0 ∧ (u.head f).ending = none ∧ (u.sl x.slice).reentry = (s.sl x.slice).reentry ++ [f]) ∧
      (x.head.ending = some .drop → s.orderWaits f = false → s.heldBack f = false → ∃ u, exec (.chainEnd f) s = .next u ∧
        (u.hasFrame f = true → (u.frame f).isOver = true ∧ (u.frame f).units = 0 ∧ (u.head f).pos = .none)) ∧
      (x.head.ending = some .drop → s.orderWaits f = true → exec (.chainEnd f) s = .next s)))

/-- Hallway's table commands write and read action words, definitions and exact entries in every named slice. With
HLW_CMD idle, its slices awake and no injection due: ACTION_WRITE at once puts a word that R113 allows at its address
in every named slice and nowhere else, a staged one puts it in the batch, and one that R113 forbids is refused (1)
with every slice in FAIL_MASK; ACTION_READ reads the lowest slice's word; DEFINITION_WRITE at once puts a definition
that passes its checks in every named slice and refuses (2) one that passes in none; DEFINITION_READ reads it.
EXACT_INSERT puts a new key and its action in the first free candidate slot, and gives a key that is there the action
with result 5; EXACT_DELETE empties its slot; EXACT_SEARCH returns its action; the last two answer 4 for a key that is
not there. A command while HLW_CMD is busy only sets a status bit. -/
def Obligations.HallwayTableCommands : Prop :=
  (∀ (v : Word) (s : State), s.rb hlwCmd 31 = true → ∀ c ∈ [Instr.actionWrite v, .actionRead v, .definitionWrite v,
    .definitionRead v, .exactInsert v, .exactDelete v, .exactSearch v], exec c s = .next (s.setB hlwCmdStatus 16)) ∧
  (∀ (v : Word) (s : State),
    let mask := s.rf hlwCmdSlices 15 0
    let named (k : Nat) : Prop := k < 16 ∧ mask.testBit k = true
    let sl := (maskSlices mask).headD 0
    let a := fld v 17 0
    let t := a % 256
    let staged := v.getLsbD 30
    let data := s.rdWide (hlwData 0) 8
    let act : BitVec 128 := BitVec.ofNat 128 data
    let d : BitVec 256 := BitVec.ofNat 256 data
    let did (u : State) (r fail : Nat) : Prop := u.rf hlwCmdStatus 31 24 = r ∧ u.rf hlwCmdStatus 15 0 = fail
    s.rb hlwCmd 31 = false → mask ≠ 0 → s.rf mstInjCtl 26 24 = 0 → (∀ k, named k → s.sliceGated k = false) →
    (staged = false → actionOk act = true → (∀ k, named k → s.inExact k a = false ∧
        (∃ st, st < 24 ∧ s.inStage k st a 1 = true) ∧ s.sramConflict (2 ^ 18 * k + a) = false) →
      ∃ u, exec (.actionWrite v) s = .next u ∧ did u 0 0 ∧
        (∀ k, named k → tget 0 u.hlw.sram (2 ^ 18 * k + a) = act ∧ u.eccOf .hlw (2 ^ 18 * k + a) = .ok) ∧
        (∀ j, (∀ k, named k → j ≠ 2 ^ 18 * k + a) → tget 0 u.hlw.sram j = tget 0 s.hlw.sram j) ∧
        u.hlw.newSram = s.hlw.newSram ∧ u.hlw.defs = s.hlw.defs ∧ onlyIn [.regs, .ecc, .hlw] s u) ∧
    (staged = true → actionOk act = true → s.genState = 1 → s.stagedCount + (maskSlices mask).length ≤ 262144 →
      (∀ k, named k → s.inExact k a = false ∧ ∃ st, st < 24 ∧ s.inStage k st a 1 = true) →
      ∃ u, exec (.actionWrite v) s = .next u ∧ did u 0 0 ∧ u.hlw.sram = s.hlw.sram ∧
        u.stagedCount = s.stagedCount + (maskSlices mask).length ∧
        (∀ k, named k → tfind u.hlw.newSram (2 ^ 18 * k + a) = some act)) ∧
    (actionOk act = false → ∃ u, exec (.actionWrite v) s = .next u ∧ did u 1 mask ∧ u.hlw = s.hlw) ∧
    ((staged = true → s.genState = 1) → s.eccOf .hlw (2 ^ 18 * sl + a) = .ok → ∃ u, exec (.actionRead v) s = .next u ∧
      did u 0 0 ∧ u.rdWide (hlwData 0) 4 = (s.sramAt (2 ^ 18 * sl + a) (s.cmdSeesNew staged)).toNat ∧
      onlyIn [.regs] s u) ∧
    (staged = false → t < 192 → (∀ k, named k → s.defOk k t d = true ∧ tfind s.hlw.newDefs (192 * k + t) = none) →
      ∃ u, exec (.definitionWrite v) s = .next u ∧ did u 0 0 ∧
        (∀ k, named k → tget 0 u.hlw.defs (192 * k + t) = d) ∧
        (∀ j, (∀ k, named k → j ≠ 192 * k + t) → tget 0 u.hlw.defs j = tget 0 s.hlw.defs j) ∧
        u.hlw.sram = s.hlw.sram ∧ onlyIn [.regs, .hlw, .gal] s u) ∧
    (t < 192 → (∀ k, named k → s.defOk k t d = false) → ∃ u, exec (.definitionWrite v) s = .next u ∧ did u 2 mask ∧
      u.hlw = s.hlw) ∧
    (t < 192 → (staged = true → s.genState = 1) → ∃ u, exec (.definitionRead v) s = .next u ∧ did u 0 0 ∧
      u.rdWide (hlwData 0) 8 = (s.defOf sl t (s.cmdSeesNew staged)).toNat ∧ onlyIn [.regs] s u) ∧
    (let new := s.cmdSeesNew staged
     let kb := natBe 12 (bits data 223 128)
     let cand (k : Nat) : List Nat := exactSlots k (s.defOf k t new) kb
     let ready (k : Nat) : Prop := dValid (s.defOf k t new) = true ∧ s.stageKind k (t / 8) = 1 ∧
       dForm (s.defOf k t new) = 2 ∧ dBase (s.defOf k t new) + 8 * 2 ^ dSize (s.defOf k t new) ≤ 2 ^ 18 ∧
       (∀ j ∈ cand k, s.eccOf .hlw j = .ok ∧ s.eccOf .hlw (j + 1) = .ok ∧ s.sramConflict j = false ∧
         s.sramConflict (j + 1) = false)
     let holds (k : Nat) : List (Nat × BitVec 128) := (cand k).map fun j => (j, s.sramAt (j + 1) new)
     staged = false → t < 192 → (∀ k, named k → ready k) →
     (∀ p : Nat → Nat, actionOk act = true → (∀ k, named k → slotOf kb (holds k) = none ∧
         ((holds k).find? fun q => !(slotValid q.2)).map (·.1) = some (p k)) →
       ∃ u, exec (.exactInsert v) s = .next u ∧ did u 0 0 ∧ ∀ k, named k → u.sramAt (p k) new = act ∧
         slotValid (u.sramAt (p k + 1) new) = true ∧ slotKey (u.sramAt (p k + 1) new) = bits data 223 128) ∧
     (∀ p : Nat → Nat, actionOk act = true → (∀ k, named k → slotOf kb (holds k) = some (p k)) →
       ∃ u, exec (.exactInsert v) s = .next u ∧ did u 5 0 ∧ ∀ k, named k → u.sramAt (p k) new = act ∧
         u.sramAt (p k + 1) new = s.sramAt (p k + 1) new) ∧
     (∀ p : Nat → Nat, (∀ k, named k → slotOf kb (holds k) = some (p k)) →
       (∃ u, exec (.exactDelete v) s = .next u ∧ did u 0 0 ∧ ∀ k, named k → u.sramAt (p k + 1) new = 0 ∧
         u.sramAt (p k) new = s.sramAt (p k) new) ∧
       (∃ u, exec (.exactSearch v) s = .next u ∧ did u 0 0 ∧
         u.rdWide (hlwData 0) 4 = (s.sramAt (p sl) new).toNat ∧ onlyIn [.regs] s u)) ∧
     ((∀ k, named k → slotOf kb (holds k) = none) →
       (∃ u, exec (.exactDelete v) s = .next u ∧ did u 4 0 ∧ u.hlw = s.hlw) ∧
       (∃ u, exec (.exactSearch v) s = .next u ∧ did u 4 0 ∧ onlyIn [.regs] s u))))

/-- The batch opens, commits, aborts, drains and settles; stages and port defaults are configured. GEN_OPEN opens a
batch when idle; a commit with staged writes makes them what new heads see, steps the generation and drains, with none
it returns to idle; an abort drops every staged write and settles; any of them in another state only sets a status
bit. The drain ends when no head of the old parity remains; at its time limit every head still inside is ended with a
cause. Settling makes the committed contents the only contents and the batch idle. A stage of a disabled slice takes a
configuration that R100 allows, and its tables become invalid; any other is refused. Word 3 of a port default applies
it with the held words if R124 allows it; a scrubbed word is corrected or reported. -/
def Obligations.HallwayGenerationsAndConfiguration : Prop :=
  (∀ s : State,
    (s.genState = 0 → ∃ u, exec .genOpen s = .next u ∧ u.genState = 1 ∧ u.genPar = s.genPar ∧ onlyIn [.regs] s u) ∧
    (s.genState ≠ 0 → exec .genOpen s = .next (s.setB hlwGenStatus 3)) ∧
    (s.genState ≠ 1 → exec .genCommit s = .next (s.setB hlwGenStatus 3) ∧
      exec .genAbort s = .next (s.setB hlwGenStatus 3)) ∧
    (s.genState = 1 → s.stagedCount = 0 → ∃ u, exec .genCommit s = .next u ∧ u.genState = 0 ∧ u.genPar = s.genPar ∧
      onlyIn [.regs] s u) ∧
    (s.genState = 1 → s.stagedCount ≠ 0 → ∃ u, exec .genCommit s = .next u ∧ u.genState = 2 ∧
      u.genPar = 1 - s.genPar ∧ u.hlw = { s.hlw with committed := true } ∧ onlyIn [.regs, .mast, .hlw] s u) ∧
    (s.genState = 1 → ∃ u, exec .genAbort s = .next u ∧ u.genState = 3 ∧ u.stagedCount = 0 ∧
      u.hlw = { s.hlw with newSram := [], newDefs := [], committed := false } ∧ u.gal.clearing = []) ∧
    (s.genState = 2 → (∀ p ∈ s.pipe.frames, s.oldHead p.2 = false) → ∃ u, exec .drainEnd s = .next u ∧
      u.genState = 3 ∧ onlyIn [.regs] s u) ∧
    (s.genState ≠ 2 ∨ (∃ p ∈ s.pipe.frames, s.oldHead p.2 = true) → exec .drainEnd s = .next s) ∧
    (s.genState = 2 → rising s.pipe.frames = true → ∃ u, exec .drainTimeout s = .next u ∧ u.genState = 3 ∧
      u.rb hlwGenStatus 4 = true ∧ onlyIn [.regs, .mast, .pipe] s u ∧
      ∀ f, s.hasFrame f = true → s.oldHead (s.frame f) = true → (s.head f).pos ≠ .parkedOut →
        (u.head f).pos = .chain ∧ (u.head f).remote = [] ∧ (u.head f).ending = (s.head f).ending.or (some (.cause 13))) ∧
    (s.genState ≠ 2 → exec .drainTimeout s = .next s) ∧
    (s.genState ≠ 3 → exec .settlingEnd s = .next s) ∧
    (s.genState = 3 → s.hlw.committed = false → exec .settlingEnd s = .next (s.putGenState 0)) ∧
    (s.genState = 3 → s.hlw.committed = true → rising s.hlw.newSram = true → rising s.hlw.newDefs = true →
      ∃ u, exec .settlingEnd s = .next u ∧ u.genState = 0 ∧ u.stagedCount = 0 ∧ u.hlw.committed = false ∧
        u.hlw.newSram = [] ∧ u.hlw.newDefs = [] ∧ (∀ k b, u.sramAt k b = s.sramAt k true) ∧
        (∀ sl t b, t < 192 → u.defOf sl t b = s.defOf sl t true))) ∧
  (∀ (sl st : Nat) (v : Word) (s : State), sl < 16 → st < 24 →
    let kind := fld v 2 0
    let base := fld v 15 8
    let cnt := fld v 24 16
    let a (i : Nat) : Nat := hlwStageCfg sl i
    let clash (i : Nat) : Prop := cnt ≠ 0 ∧ s.rf (a i) 24 16 ≠ 0 ∧ base < s.rf (a i) 15 8 + s.rf (a i) 24 16 ∧
      s.rf (a i) 15 8 < base + cnt
    let bad : Prop := s.rb (hlwSliceCtl sl) 0 = true ∨ 5 ≤ kind ∨ 256 < base + cnt ∨ (∃ i, i < 24 ∧ i ≠ st ∧ clash i) ∨
      2 < s.kindCount sl st kind 3 ∨ 1 < s.kindCount sl st kind 4 ∨ ((kind = 1 ∨ kind = 2 ∨ kind = 4) ∧ cnt = 0)
    (bad → exec (.stageCfgWrite sl st v) s = .next (s.setB (hlwSliceErr sl) 2)) ∧
    (¬bad → kind = s.rf (a st) 2 0 → base = s.rf (a st) 15 8 → cnt = s.rf (a st) 24 16 →
      exec (.stageCfgWrite sl st v) s = .next s) ∧
    (¬bad → kind ≠ s.rf (a st) 2 0 ∨ base ≠ s.rf (a st) 15 8 ∨ cnt ≠ s.rf (a st) 24 16 →
      ∃ u, exec (.stageCfgWrite sl st v) s = .next u ∧ u.stageKind sl st = kind ∧ u.rf (a st) 15 8 = base ∧
        u.rf (a st) 24 16 = cnt ∧ (∀ i b, i < 8 → dValid (u.defOf sl (8 * st + i) b) = false) ∧
        (∀ k b, k < 192 → k / 8 ≠ st → u.defOf sl k b = s.defOf sl k b) ∧
        (∀ b, b ≠ a st → u.rd b = s.rd b) ∧ onlyIn [.regs, .hlw, .gal] s u)) ∧
  (∀ (n c : Nat) (v : Word) (s : State),
    let a (i : Nat) : Nat := hlwPortDflt (4 * n + c) i
    let w (i : Nat) : Nat := (tget (s.rd (a i)) s.held (a i)).toNat
    let act := w 0 + w 1 * 2 ^ 32 + w 2 * 2 ^ 64 + v.toNat * 2 ^ 96
    (defaultOk (BitVec.ofNat 128 act) = true → ∃ u, exec (.portDefaultWrite n c v) s = .next u ∧
      u.rdWide (a 0) 4 = act ∧ (∀ i, i < 3 → tfind u.held (a i) = none) ∧ onlyIn [.regs, .held] s u) ∧
    (defaultOk (BitVec.ofNat 128 act) = false → ∃ u, exec (.portDefaultWrite n c v) s = .next u ∧
      u.rf hlwCmdStatus 31 24 = 1 ∧ (∀ b, b ≠ hlwCmdStatus → u.rd b = s.rd b) ∧ onlyIn [.regs, .held] s u)) ∧
  (∀ (sl a : Nat) (s : State), a < 2 ^ 18 → s.eccOf .hlw (2 ^ 18 * sl + a) = .ok →
    exec (.stageSramScrub sl a .ok) s = .next s ∧
    (∃ u, exec (.stageSramScrub sl a .corr) s = .next u ∧ u.eccOf .hlw (2 ^ 18 * sl + a) = .ok ∧
      u.rb (hlwSliceErr sl) 0 = true ∧ onlyIn [.regs, .ecc, .mast] s u) ∧
    (∃ u, exec (.stageSramScrub sl a .uncorr) s = .next u ∧ u.eccOf .hlw (2 ^ 18 * sl + a) = .uncorr ∧
      u.rb (hlwSliceErr sl) 1 = true ∧ u.rf (hlwSliceErr sl) 29 12 = a ∧ onlyIn [.regs, .ecc, .mast] s u))

/-- Gallery inserts, deletes, finds and probes entries, loads them in bulk, scrubs and repairs them. With GAL_CMD
idle, one slice named and awake, and a valid Gallery table: an insert at once of an entry of one partition that
clashes with nothing puts it in the slot of its plan and answers 0, one of a key and mask that are there gives them
the result and answers 1; a delete frees every copy and answers 0, or answers 2 with none; FIND and PROBE return the
entry that a head accepted now sees, or answer 2. A bulk load starts or is refused, takes its records one by one,
counts the bad ones and the first and last of them, and ends after the last, at a bad one where it is to stop, or on
abort, with a pulse of source 1920. A row found bad is hidden and comes back from the shadow unless that cannot be
read. -/
def Obligations.GalleryEntriesAndJobs : Prop :=
  (∀ (v : Word) (s : State), s.rb galCmd 31 = true → exec (.galInsert v) s = .next (s.setB galCmdStatus 16) ∧
    exec (.galDelete v) s = .next (s.setB galCmdStatus 16) ∧ exec (.galFind v) s = .next (s.setB galCmdStatus 16) ∧
    exec (.galProbe v) s = .next (s.setB galCmdStatus 16)) ∧
  (∀ (sl : Nat) (v : Word) (s : State),
    let t := fld v 7 0
    let d := s.defOf sl t (s.cmdSeesNew false)
    let val := s.rdWide (galKey 0) 20
    let mask := s.rdWide (galMask 0) 20
    let res := s.rf galResult 17 0
    let top := 2 ^ (80 * gW d)
    let same := s.galCopies sl t val mask fun e => e.vis0 || e.vis1
    let did (u : State) (r : Nat) : Prop := u.rf galCmdStatus 31 24 = r ∧ u.rf galCmdStatus 15 0 = 0
    s.rb galCmd 31 = false → sl < 16 → s.rf galCmdSlices 15 0 = 2 ^ sl → s.sliceGated sl = false → v.getLsbD 30 = false →
    t < 192 → dValid d = true → s.stageKind sl (t / 8) = 2 →
    (val < top → mask < top → Nat.land val mask = val → (s.galCopies sl t val mask fun e => e.staged) = [] →
      (s.inStage sl (t / 8) (dBase d + res) 1 = true →
       (∀ e ∈ s.gal.ents, e.1 / 2 ^ 17 = sl → e.2.table = t → e.2.vis0 = true ∨ e.2.vis1 = true →
         e.2.rank = popCount mask → galOverlap val mask e.2.value e.2.mask = true → e.2.value = val ∧ e.2.mask = mask) →
       (∀ p mv i, same = [] → galParts d val mask = [p] →
         galPlan (galSlots d) (popCount mask) ((s.galPart sl d p).map fun x => (x.1, x.2.rank)) = some (mv, i) →
         ∃ u, exec (.galInsert v) s = .next u ∧ did u 0 ∧
           tfind u.gal.ents (galPlace sl d p i) = some ⟨t, val, mask, res, true, true, false, false⟩ ∧
           (mv = [] → ∀ k, k ≠ galPlace sl d p i → tfind u.gal.ents k = tfind s.gal.ents k) ∧
           onlyIn [.regs, .ecc, .mast, .gal] s u) ∧
       (same ≠ [] → rising s.gal.ents = true → s.shadowBad same = false → ∃ u, exec (.galInsert v) s = .next u ∧ did u 1 ∧
         (∀ k e, k ∈ same → tfind s.gal.ents k = some e →
           tfind u.gal.ents k = some { e with result := res, vis0 := true, vis1 := true }) ∧
         (∀ k, k ∉ same → tfind u.gal.ents k = tfind s.gal.ents k) ∧ onlyIn [.regs, .mast, .gal] s u)) ∧
      (same ≠ [] → s.shadowBad same = false → ∃ u, exec (.galDelete v) s = .next u ∧ did u 0 ∧
        (∀ k, k ∈ same → tfind u.gal.ents k = none) ∧ (∀ k, k ∉ same → tfind u.gal.ents k = tfind s.gal.ents k) ∧
        onlyIn [.regs, .mast, .gal] s u) ∧
      (same = [] → ∃ u, exec (.galDelete v) s = .next u ∧ did u 2 ∧ u.gal = s.gal ∧ onlyIn [.regs, .mast] s u)) ∧
    (∀ k e rest, (s.galCopies sl t val mask fun x => x.sees s.genPar) = k :: rest → tfind s.gal.ents k = some e →
      ∃ u, exec (.galFind v) s = .next u ∧ did u 0 ∧ u.rd galResult = BitVec.ofNat 32 (2 ^ 31 + e.result) ∧
        u.rd galSlot = BitVec.ofNat 32 (e.rank * 2 ^ 22 + k / 2048 % 64 * 2 ^ 16 + k % 2048) ∧ onlyIn [.regs, .mast] s u) ∧
    ((s.galCopies sl t val mask fun x => x.sees s.genPar) = [] → ∃ u, exec (.galFind v) s = .next u ∧ did u 2 ∧
      u.rb galResult 31 = false ∧ onlyIn [.regs, .mast] s u) ∧
    (∀ p i e, s.galSearch sl d t (val % top) s.genPar = some (p, i, e) → ∃ u, exec (.galProbe v) s = .next u ∧ did u 0 ∧
      u.rd galResult = BitVec.ofNat 32 (2 ^ 31 + e.result) ∧ onlyIn [.regs, .mast] s u) ∧
    (s.galSearch sl d t (val % top) s.genPar = none → ∃ u, exec (.galProbe v) s = .next u ∧ did u 2 ∧
      u.rb galResult 31 = false ∧ onlyIn [.regs, .mast] s u)) ∧
  (∀ (v : Word) (s : State),
    let addr := s.rd64 galJobAddrLo
    let st := s.rd64 galJobStatusLo
    let n := s.rf galJobCount 20 0
    (s.gal.job.isSome = true ∨ addr % 64 ≠ 0 ∨ st % 16 ≠ 0 ∨ 1048576 < n ∨
        (s.inPart 1 addr (192 * n) = false ∧ s.inPart 3 addr (192 * n) = false) →
      ∃ u, exec (.galJobStart v) s = .next u ∧ u.gal = s.gal ∧ u.rb galJobCtl 27 = true ∧ onlyIn [.regs] s u) ∧
    (s.gal.job = none → addr % 64 = 0 → st % 16 = 0 → n ≤ 1048576 →
      s.inPart 1 addr (192 * n) = true ∨ s.inPart 3 addr (192 * n) = true → ∃ u, exec (.galJobStart v) s = .next u ∧
        (n ≠ 0 → u.gal.job = some ⟨addr, n, 0, 0, 0xFFFFFFFF, 0, fld v 15 0, v.getLsbD 28, st, false⟩ ∧
          u.rb galJobCtl 31 = true) ∧
        (n = 0 → u.gal.job = none ∧ u.rb galJobCtl 31 = false ∧ shas u.bell.pulses 1920 = true)) ∧
    (s.gal.job = none → ∃ u, exec (.galJobAbort v) s = .next u ∧ u.gal = s.gal ∧ onlyIn [.regs] s u) ∧
    (s.gal.job ≠ none → ∃ u, exec (.galJobAbort v) s = .next u ∧ u.gal.job = none ∧ u.gal.ents = s.gal.ents ∧
      u.rb galJobCtl 31 = false ∧ shas u.bell.pulses 1920 = true)) ∧
  (∀ s : State, (s.gal.job = none → exec .galJobRecord s = .next s) ∧
    (∀ j w x o r, s.gal.job = some j → s.celRead 0x12 (j.addr + 192 * j.done) 192 = (w, o) → w.galRecord o = (x, r) →
      ∃ u, exec .galJobRecord s = .next u ∧ u.gal.ents = x.gal.ents ∧
        ((r ≠ 0 ∧ j.stop = true) ∨ j.count ≤ j.done + 1 → u.gal.job = none ∧ shas u.bell.pulses 1920 = true) ∧
        (¬((r ≠ 0 ∧ j.stop = true) ∨ j.count ≤ j.done + 1) → u.gal.job = some (if r = 0 then { j with done := j.done + 1 }
          else { j with done := j.done + 1, failed := j.failed + 1, last := r,
                        first := if j.first = 0xFFFFFFFF then j.done else j.first }))) ∧
    s.galRecord none = (s, 0x0B) ∧
    (∀ b, bits (leNat (slice b 160 4)) 31 30 = 3 → s.galRecord (some b) = (s, 0x0B))) ∧
  (∀ (sl bank row : Nat) (s : State), bank < 64 → row < 2048 →
    (∀ bad, bad = false ∨ s.rb galScrubCtl 0 = false → exec (.galScrubVisit sl bank row bad) s = .next s) ∧
    (s.rb galScrubCtl 0 = true → ∃ u, exec (.galScrubVisit sl bank row true) s = .next u ∧
      u.rb (galSliceErr sl) 0 = true ∧ u.rf (galSliceErr sl) 22 17 = bank ∧ u.rf (galSliceErr sl) 16 6 = row ∧
      (s.galHolder sl bank row = none → u.gal = s.gal) ∧ onlyIn [.regs, .mast, .gal] s u ∧
      (∀ k e, s.galHolder sl bank row = some (k, e) → tfind u.gal.ents k = some { e with hidden := true } ∧
        ∀ j, j ≠ k → tfind u.gal.ents j = tfind s.gal.ents j)) ∧
    (∀ e, s.galHolder sl bank row = none → exec (.galRepair sl bank row e) s = .next s) ∧
    (∀ k e, s.galHolder sl bank row = some (k, e) → e.hidden = true → s.eccOf .galShadow k = .ok →
      (∃ u, exec (.galRepair sl bank row .ok) s = .next u ∧ tfind u.gal.ents k = some { e with hidden := false } ∧
        u.rb (galSliceErr sl) 1 = true ∧ onlyIn [.regs, .ecc, .mast, .gal] s u) ∧
      (∃ u, exec (.galRepair sl bank row .uncorr) s = .next u ∧ u.gal = s.gal ∧ u.rb (galSliceErr sl) 2 = true ∧
        onlyIn [.regs, .ecc, .mast] s u)))

/-- Larder's commands insert, delete, read, replace and touch an entry of a table. On a valid table that is no source
view, with a key no longer than the table's, readable candidate slots and no staged write of the key, a command works
on the entry that a head accepted now sees, or on any other entry of the key: an insert of a new key takes a free
slot, or one that displacement frees, and answers 0, or 3 with none; of a key that is there it replaces the action and
answers 1; a delete frees the slot; a read returns the entry; a compare-and-replace whose word matches replaces the
action, and otherwise answers 7 with the word there; a touch sets HIT of an entry that is not static; the four answer
2 for a key that is not there. A staged command without a batch answers 10. A slot of the Shelf holds what is put
there, and no other changes. -/
def Obligations.LarderCommands : Prop :=
  (∀ (v : Word) (s : State), s.rb lrdCmd 31 = true → exec (.lrdInsert v) s = .next (s.setB lrdCmdStatus 0) ∧
    exec (.lrdDelete v) s = .next (s.setB lrdCmdStatus 0) ∧ exec (.lrdRead v) s = .next (s.setB lrdCmdStatus 0) ∧
    exec (.lrdCompareReplace v) s = .next (s.setB lrdCmdStatus 0) ∧
    exec (.lrdTouch v) s = .next (s.setB lrdCmdStatus 0)) ∧
  (∀ (op : Nat) (c : Instr) (v : Word) (s w : State) (l : List (Nat × Option LrdEnt)),
    (op, c) ∈ [(1, Instr.lrdInsert v), (2, .lrdDelete v), (3, .lrdRead v), (4, .lrdCompareReplace v), (5, .lrdTouch v)] →
    let t := fld v 5 0
    let k := s.ltKey t s.lrdCmdKey
    let act : BitVec 128 := BitVec.ofNat 128 (s.rdWide (lrdAct 0) 4)
    let cmp : BitVec 128 := BitVec.ofNat 128 (s.rdWide (lrdCmp 0) 4)
    let e' := w.lrdCmdEntry k l none
    let gives (r : Nat) (x : State) : Prop := ∃ u, exec c s = .next u ∧ u.rf lrdCmdStatus 31 24 = r ∧
      u.lrd = x.lrd ∧ u.cel = x.cel ∧ onlyIn [.regs, .ecc, .mast, .cel, .lrd, .outbox] s u
    s.rb lrdCmd 31 = false → s.ltValid t = true → s.ltRole t ≠ 2 → s.lrd.toFree = [] →
    (s.lrdCmdKey.drop (s.ltKeyLen t)).all (· == 0) = true →
    (s.plainWrite lrdCmd (lrdWord op v)).lrdSlots t (s.ltBuckets t k) = (w, some l) →
    (v.getLsbD 30 = true → op = 1 ∨ op = 2 ∨ op = 4 → (op ≠ 2 → actionOk act = true) → w.genState ≠ 1 → gives 10 w) ∧
    (v.getLsbD 30 = false → w.lrdStaged t k = false →
      (op ≠ 1 → (op = 4 → actionOk act = true) → e' = none → gives 2 w) ∧
      (op = 1 → actionOk act = true → e' = none →
        (∀ q p, w.lrdRoom t (s.ltBuckets t k) l = (q, some p) → gives 0 (q.lrdPut p
          (some ⟨k, act, BitVec.ofNat 32 (2 ^ 31 + 2 ^ 30 + nat (s.rb lrdEnt 29) * 2 ^ 29)⟩))) ∧
        (∀ q, w.lrdRoom t (s.ltBuckets t k) l = (q, none) → gives 3 w)) ∧
      (op = 1 → actionOk act = false → gives 4 (s.plainWrite lrdCmd (lrdWord op v))) ∧
      (∀ p e, e' = some (p, e) →
        (op = 1 → actionOk act = true →
          gives 1 (w.lrdPut p (some { e.put 29 29 (nat (s.rb lrdEnt 29)) with act := act }))) ∧
        (op = 2 → gives 0 (w.lrdPut p none)) ∧
        (op = 3 → gives 0 w ∧ ∀ u, exec c s = .next u → u.rdWide (lrdAct 0) 4 = e.act.toNat ∧ u.rd lrdEnt = e.st) ∧
        (op = 4 → actionOk act = true → e.act = cmp → gives 0 (w.lrdPut p (some { e with act := act }))) ∧
        (op = 4 → actionOk act = true → e.act ≠ cmp → gives 7 w ∧
          ∀ u, exec c s = .next u → u.rdWide (lrdCmp 0) 4 = e.act.toNat) ∧
        (op = 5 → e.static = true → gives 0 w) ∧
        (op = 5 → e.static = false → gives 0 (w.lrdPut p (some (e.put 28 28 1))))))) ∧
  (∀ (v : Word) (s : State), exec (.lrdInsert v) s = .next (s.lrdCmdWrite (setFld v 29 26 1)) ∧
    exec (.lrdDelete v) s = .next (s.lrdCmdWrite (setFld v 29 26 2)) ∧
    exec (.lrdRead v) s = .next (s.lrdCmdWrite (setFld v 29 26 3)) ∧
    exec (.lrdCompareReplace v) s = .next (s.lrdCmdWrite (setFld v 29 26 4)) ∧
    exec (.lrdTouch v) s = .next (s.lrdCmdWrite (setFld v 29 26 5))) ∧
  (∀ (k : Nat) (e : LrdEnt) (s : State), s.ltCellar (k / 2 ^ 28) = false →
    tfind (s.lrdPut k (some e)).lrd.ents k = some e ∧ tfind (s.lrdPut k none).lrd.ents k = none ∧
    (∀ o j, j ≠ k → tfind (s.lrdPut k o).lrd.ents j = tfind s.lrd.ents j) ∧
    ∀ o, onlyIn [.regs, .ecc, .lrd] s (s.lrdPut k o))

/-- Searches of heads, learning, aging, freed slots and table configuration. A lookup of a head on a readable Shelf
table is answered with the action of the entry of its key that the head sees, or as a miss; on a table that is not
valid with an error; on a Cellar table it waits in the queue, and the oldest is answered when it is released. A learn
request enters an unknown key in a free slot with the learned destination, sets HIT of a key with that destination,
and otherwise moves it, unless it is static or damped. A sweep visit ages each learned entry of the bucket as R181
says and leaves static and staged ones. Slots found uncorrectable are freed. A table becomes valid with a
configuration that R167 allows and, invalid again, has no entry; bad ages and templates are refused. -/
def Obligations.LarderSearchesAndLearning : Prop :=
  (∀ (f j : Nat) (s : State),
    let x := s.frame f
    let found (r : Remote) (a : Answer) (u : State) : Prop := (u.head f).remote =
      x.head.remote.map fun q => if q.id = r.id then { q with taken := true, found := some a } else q
    let look := x.head.remote.find? fun r => r.join == j && !r.crow && !r.taken
    (look = none → exec (.larderSearch f j) s = .next s) ∧
    (∀ r, look = some r → s.ltValid r.target = false → ∃ u, exec (.larderSearch f j) s = .next u ∧ found r .error u ∧
      onlyIn [.regs, .mast, .pipe] s u) ∧
    (∀ r w l, look = some r → s.ltValid r.target = true → s.ltCellar r.target = false → s.ltRole r.target ≠ 2 →
      s.lrdSlots r.target (s.ltBuckets r.target (s.ltKey r.target r.key)) = (w, some l) →
      (∀ p e, entryIn l (fun e => e.key == s.ltKey r.target r.key && e.vis x.head.gen) = some (p, e) →
        ∃ u, exec (.larderSearch f j) s = .next u ∧ found r (.hit e.act) u ∧ u.lrd = w.lrd) ∧
      (entryIn l (fun e => e.key == s.ltKey r.target r.key && e.vis x.head.gen) = none →
        ∃ u, exec (.larderSearch f j) s = .next u ∧ found r .miss u ∧ u.lrd = w.lrd)) ∧
    (∀ r, look = some r → s.ltValid r.target = true → s.ltCellar r.target = true → s.ltRole r.target ≠ 2 →
      s.lrd.cq.length < 2048 → ∃ u, exec (.larderSearch f j) s = .next u ∧
        u.lrd = { s.lrd with cq := s.lrd.cq ++ [⟨f, r.id, r.target, r.key, x.port, x.head.gen⟩] } ∧
        (u.head f).remote = x.head.remote.map fun q => if q.id = r.id then { q with taken := true } else q)) ∧
  (∀ s : State, (s.lrd.cq = [] → exec .cellarSearchRelease s = .next s) ∧
    (∀ q rest w l p e, s.lrd.cq = q :: rest → s.ltValid q.table = true → s.ltRole q.table ≠ 2 →
      ({ s with lrd := { s.lrd with cq := rest } }).lrdSlots q.table
        (s.ltBuckets q.table (s.ltKey q.table q.key)) = (w, some l) → s.hasFrame q.fid = true →
      entryIn l (fun e => e.key == s.ltKey q.table q.key && e.vis q.par) = some (p, e) →
      ∃ u, exec .cellarSearchRelease s = .next u ∧ u.lrd = w.lrd ∧ (u.head q.fid).remote =
        (s.head q.fid).remote.map fun r => if r.id = q.id then { r with taken := true, found := some (.hit e.act) } else r)) ∧
  (∀ s : State, (s.lrd.learnQ = [] → exec .learnRequestApply s = .next s) ∧
    (∀ r rest w l, s.lrd.learnQ = r :: rest → s.lrd.toFree = [] → s.ltValid r.table = true → s.ltRole r.table = 1 →
      ({ s with lrd := { s.lrd with learnQ := rest } }).lrdSlots r.table (s.ltBuckets r.table r.key) = (w, some l) →
      s.lrdStaged r.table r.key = false →
      let e' := entryIn l fun e => e.key == r.key && (e.vis 0 || e.vis 1)
      let gives (x : State) : Prop := ∃ u, exec .learnRequestApply s = .next u ∧ u.lrd = x.lrd ∧ u.cel = x.cel
      (∀ k, e' = none → freeIn l = some k → gives (w.lrdPut k (some ⟨r.key, withDest (w.lrnAct r.table) r.kind r.dest,
        BitVec.ofNat 32 (2 ^ 31 + 2 ^ 30 + 2 ^ 28)⟩))) ∧
      (e' = none → freeIn l = none → gives w) ∧
      (∀ k e, e' = some (k, e) → e.dest = (r.kind, r.dest) → gives (w.lrdPut k (some (e.put 28 28 1)))) ∧
      (∀ k e, e' = some (k, e) → e.dest ≠ (r.kind, r.dest) → e.static = true ∨ e.damped = true → gives w) ∧
      (∀ k e, e' = some (k, e) → e.dest ≠ (r.kind, r.dest) → e.static = false → e.damped = false →
        ∃ x, gives (w.lrdPut k (some x)) ∧ x.key = e.key ∧ x.act = withDest e.act r.kind r.dest ∧ x.hit = true ∧
          x.age = 0 ∧ x.moves = min (e.moves + 1) 15))) ∧
  (∀ (t b : Nat) (s : State),
    (s.ltValid t = false ∨ s.ltRole t ≠ 1 ∨ s.rf (lrdTblAge t) 31 16 = 0 ∨ 2 ^ s.ltSize t ≤ b →
      exec (.sweepVisit t b) s = .next s) ∧
    (s.ltValid t = true → s.ltRole t = 1 → s.rf (lrdTblAge t) 31 16 ≠ 0 → b < 2 ^ s.ltSize t → b < 2 ^ 24 →
      s.ltCellar t = false → s.lrd.toFree = [] →
      (∀ i, i < s.ltSlots t → s.eccOf .lrdShelf (s.shelfUnit (lrdPos t b i)) = .ok) →
      ∃ u, exec (.sweepVisit t b) s = .next u ∧ (∀ i e, i < s.ltSlots t → tfind s.lrd.ents (lrdPos t b i) = some e →
          tfind u.lrd.ents (lrdPos t b i) = if e.static = true ∨ s.lrdStaged t e.key = true then some e
            else e.visit (s.rf (lrdTblAge t) 15 12)) ∧
        (∀ k, (∀ i, i < s.ltSlots t → k ≠ lrdPos t b i) → tfind u.lrd.ents k = tfind s.lrd.ents k))) ∧
  (∀ s : State, (∀ k ∈ s.lrd.toFree, s.ltCellar (k / 2 ^ 28) = false) → ∃ u, exec .lrdEccFree s = .next u ∧
    u.lrd.toFree = [] ∧ ∀ k, tfind u.lrd.ents k = if k ∈ s.lrd.toFree then none else tfind s.lrd.ents k) ∧
  (∀ (t : Nat) (v : Word) (s : State), t < 64 →
    (s.ltValid t = true → v.getLsbD 31 = true ∨ fld v 30 8 ≠ s.rf (lrdTblCfg t) 30 8 →
      exec (.lrdTableCfgWrite t v) s = .next s) ∧
    (s.ltValid t = true → v.getLsbD 31 = false → fld v 30 8 = s.rf (lrdTblCfg t) 30 8 →
      (∀ u, u < 64 → ¬(s.ltValid u = true ∧ s.ltRole u = 2 ∧ s.ltAlias u = t)) →
      ∃ u, exec (.lrdTableCfgWrite t v) s = .next u ∧ u.ltValid t = false ∧
        (∀ k, k / 2 ^ 28 = t → tfind u.lrd.ents k = none) ∧
        (∀ k, k / 2 ^ 28 ≠ t → tfind u.lrd.ents k = tfind s.lrd.ents k) ∧ onlyIn [.regs, .cel, .lrd] s u) ∧
    (s.ltValid t = false → ∃ u, exec (.lrdTableCfgWrite t v) s = .next u ∧ u.rf (lrdTblCfg t) 30 8 = fld v 30 8 ∧
      onlyIn [.regs] s u ∧ (v.getLsbD 31 = true → (s.plainWrite (lrdTblCfg t) v).ltOk t = true → u.ltValid t = true) ∧
      (v.getLsbD 31 = true → (s.plainWrite (lrdTblCfg t) v).ltOk t = false → u.ltValid t = false ∧ u.rb lrdErr 2 = true)) ∧
    (ageOk v = false → exec (.lrdAgeWrite t v) s = .next (s.setB lrdErr 2)) ∧
    (ageOk v = true → ∃ u, exec (.lrdAgeWrite t v) s = .next u ∧ u.rf (lrdTblAge t) 31 8 = fld v 31 8 ∧
      (∀ b, b ≠ lrdTblAge t → u.rd b = s.rd b) ∧ onlyIn [.regs] s u)) ∧
  (∀ (lrn : Bool) (t : Nat) (v : Word) (s : State),
    let a (i : Nat) : Nat := if lrn = true then lrdLrnAct t i else lrdFullAct t i
    let w (i : Nat) : Nat := (tget (s.rd (a i)) s.held (a i)).toNat
    let act := w 0 + w 1 * 2 ^ 32 + w 2 * 2 ^ 64 + v.toNat * 2 ^ 96
    let x : BitVec 128 := BitVec.ofNat 128 act
    let good : Prop := actionOk x = true ∧ (lrn = true → af x 115 113 = 0 ∧ af x 119 117 = 0)
    (good → ∃ u, exec (.lrdTemplateWrite lrn t v) s = .next u ∧ u.rdWide (a 0) 4 = act ∧ onlyIn [.regs, .held] s u) ∧
    (¬good → ∃ u, exec (.lrdTemplateWrite lrn t v) s = .next u ∧ u.rb lrdErr 2 = true ∧
      (∀ b, b ≠ lrdErr → u.rd b = s.rd b) ∧ onlyIn [.regs, .held] s u))

/-- Larder's bulk jobs start, step through buckets, and end; the scrubber corrects or reports. A job starts with its
kind, table, range and filters as its registers stand, or is refused with nothing changed; an abort ends it with a
pulse of source 1921. A step of a walk appends the bucket's selected entries to its output, or ends the job where they
do not fit; a step of a flush frees the selected entries that are not staged and counts the others as skipped; a step
of a sweep counts what it aged out; a bucket that cannot be read is counted; after the last bucket the job ends. A
scrubbed Shelf slot is corrected, or reported and put on the list of slots to free. (Where no table holds the unit,
the location is a free value, log entry 47.) -/
def Obligations.LarderJobsAndScrub : Prop :=
  (∀ (v : Word) (s : State),
    let kind := fld v 27 26
    let t := fld v 21 16
    let out := s.rd64 lrdJobOutLo
    let st := s.rd64 lrdJobStatusLo
    let lim := s.rf lrdJobLimit 20 0
    let start := s.rf lrdJobStart 23 0
    let fk := s.rd lrdJobFiltKey
    let bad : Prop := s.lrd.job.isSome = true ∨ kind = 0 ∨ s.ltValid t = false ∨ s.ltRole t = 2 ∨ 2 ^ s.ltSize t ≤ start ∨
      st % 16 ≠ 0 ∨ (kind = 1 ∧ (out % 64 ≠ 0 ∨ lim < 8 ∨ 1048576 < lim ∨
        (s.inPart 1 out (64 * lim) = false ∧ s.inPart 3 out (64 * lim) = false))) ∨ (kind = 3 ∧ s.ltRole t ≠ 1)
    (bad → ∃ u, exec (.lrdJobStart v) s = .next u ∧ u.lrd = s.lrd ∧ u.rb lrdJobCtl 28 = true ∧ onlyIn [.regs] s u) ∧
    (¬bad → kind = 3 ∨ fld fk 30 29 ≠ 0 → ∃ u, exec (.lrdJobStart v) s = .next u ∧ u.rb lrdJobCtl 31 = true ∧
      u.lrd.job = some ⟨kind, t, start, 2 ^ s.ltSize t, out, st, lim, 0, 0, 0, fld v 15 0, s.rd lrdJobFiltDest, fk, 0⟩) ∧
    (¬bad → kind ≠ 3 → fld fk 30 29 = 0 → ∃ u, exec (.lrdJobStart v) s = .next u ∧ u.lrd.job = none ∧
      shas u.bell.pulses 1921 = true) ∧
    (s.lrd.job = none → ∃ u, exec (.lrdJobAbort v) s = .next u ∧ u.lrd = s.lrd ∧ onlyIn [.regs] s u) ∧
    (s.lrd.job ≠ none → ∃ u, exec (.lrdJobAbort v) s = .next u ∧ u.lrd = { s.lrd with job := none } ∧
      u.rb lrdJobCtl 31 = false ∧ shas u.bell.pulses 1921 = true)) ∧
  (∀ s : State, (s.lrd.job = none → exec .lrdJobStep s = .next s) ∧
    (∀ j, s.lrd.job = some j → s.lrd.toFree = [] →
      let ends (u : State) (count ecc skips : Nat) : Prop :=
        (j.stop ≤ j.next + 1 → u.lrd.job = none ∧ shas u.bell.pulses 1921 = true) ∧
        (j.next + 1 < j.stop → u.lrd.job =
          some { j with next := j.next + 1, steps := j.steps + 1, count := count, ecc := ecc, skips := skips })
      (∀ w, j.kind ≠ 3 → s.lrdBucket j.table j.next = (w, none) → ∃ u, exec .lrdJobStep s = .next u ∧
        ends u j.count (j.ecc + 1) j.skips) ∧
      (∀ w, j.kind = 3 → s.lrdVisit j.table j.next = (w, none) → ∃ u, exec .lrdJobStep s = .next u ∧
        ends u j.count (j.ecc + 1) j.skips) ∧
      (∀ w n, j.kind = 3 → s.lrdVisit j.table j.next = (w, some n) → ∃ u, exec .lrdJobStep s = .next u ∧
        u.lrd.ents = w.lrd.ents ∧ ends u (j.count + n) j.ecc j.skips) ∧
      (∀ w l, s.lrdBucket j.table j.next = (w, some l) →
        let sel := l.filterMap fun x => match x.2 with
          | some e => if j.selects e then some (x.1, e) else none
          | none => none
        let go := sel.filter fun x => !(s.lrdStaged j.table x.2.key)
        (j.kind = 1 → j.count + sel.length ≤ j.limit → ∃ u, exec .lrdJobStep s = .next u ∧ u.lrd.ents = w.lrd.ents ∧
          ends u (j.count + sel.length) j.ecc j.skips) ∧
        (j.kind = 1 → j.limit < j.count + sel.length → ∃ u, exec .lrdJobStep s = .next u ∧ u.lrd.job = none ∧
          shas u.bell.pulses 1921 = true ∧ u.lrd.ents = w.lrd.ents) ∧
        (j.kind = 2 → ∃ u, exec .lrdJobStep s = .next u ∧
          ends u (j.count + go.length) j.ecc (j.skips + (sel.length - go.length)) ∧
          (s.ltCellar j.table = false → (∀ x ∈ l, x.1 / 2 ^ 28 = j.table) → ∀ k,
            tfind u.lrd.ents k = if k ∈ go.map (·.1) then none else tfind w.lrd.ents k))))) ∧
  (∀ (n k : Nat) (s : State),
    (s.shelfPlace n = some k → s.eccOf .lrdShelf (s.shelfUnit k) = .ok →
      exec (.lrdScrub n .ok) s = .next s ∧
      (∃ u, exec (.lrdScrub n .corr) s = .next u ∧ u.eccOf .lrdShelf (s.shelfUnit k) = .ok ∧ u.rb lrdErr 0 = true ∧
        u.lrd = s.lrd ∧ onlyIn [.regs, .ecc, .mast] s u) ∧
      (∃ u, exec (.lrdScrub n .uncorr) s = .next u ∧ u.rb lrdErr 1 = true ∧
        u.lrd = { s.lrd with toFree := sadd s.lrd.toFree k } ∧ onlyIn [.regs, .ecc, .mast, .lrd] s u)) ∧
    (s.shelfPlace n = none → s.eccOf .lrdShelf n = .ok → exec (.lrdScrub n .ok) s = .next s ∧
      (∃ u, exec (.lrdScrub n .corr) s = .next u ∧ u.rb lrdErr 0 = true ∧ u.lrd = s.lrd ∧
        onlyIn [.regs, .freeCtr, .ecc, .mast] s u) ∧
      (∃ u, exec (.lrdScrub n .uncorr) s = .next u ∧ u.rb lrdErr 1 = true ∧ u.lrd = s.lrd ∧
        onlyIn [.regs, .freeCtr, .ecc, .mast, .lrd] s u)))

/-- Crowsnest takes up calls, answers them, fills and scrubs its record cache, and takes load samples. A call not
taken up in time is answered with class 6, reason 0x30. The next slice that has a call gives its oldest: without RUN
it is answered with class 3 reason 2, with no shim class 7 reason 0x41, with a shim that fails its checks class 5 and
that check, for an operation that is not placed class 7 reason 0x40, and a record that is cached and EMPTY class 3
reason 1; a whole-object GET of a cached STABLE record with a readable target goes to the target that the read choice
gives, class 1; without a cached record it waits for it. A record that arrives is cached; one that cannot be read
answers the calls with an error. A scrubbed record is corrected or dropped; samples replace their slice's loads. -/
def Obligations.CrowsnestCalls : Prop :=
  let answered (s u : State) (f id cls reason : Nat) (ms : List Member) : Prop := ∃ place : BitVec 128,
    (u.head f).remote = ((s.head f).remote.map fun q =>
      if q.id = id then { q with taken := true, found := some (.crow cls place ms []) } else q) ∧
    bits place.toNat 33 31 = cls ∧ bits place.toNat 41 34 = reason
  (∀ (f j : Nat) (s : State),
    let look := (s.head f).remote.find? fun r => r.join == j && r.crow && !r.taken
    (look = none → exec (.callTimeout f j) s = .next s) ∧
    (∀ r, look = some r → ∃ u, exec (.callTimeout f j) s = .next u ∧ answered s u f r.id 6 0x30 [] ∧
      onlyIn [.regs, .mast, .pipe, .crw] s u)) ∧
  (∀ s : State, (∀ k, k < 16 → s.callsOf k = []) → exec .crowsnestCall s = .next s) ∧
  (∀ (k id f : Nat) (s : State),
    (((upto 16).map fun i => (s.crw.rr + 1 + i) % 16).findSome? fun j => (oldestCall (s.callsOf j)).map fun c => (j, c))
      = some (k, id, f) →
    let h := s.head f
    let b := h.shim
    let g := s.groupOf (keyHash (s.rd64 crwKseedLo) (shimKey b))
    let gives (cls reason : Nat) (ms : List Member) : Prop := ∃ u, exec .crowsnestCall s = .next u ∧ u.crw.rr = k ∧
      answered s u f id cls reason ms
    (s.crwRun = false → gives 3 2 []) ∧
    (s.crwRun = true → h.shimVer = 0 → gives 7 0x41 []) ∧
    (s.crwRun = true → h.shimVer ≠ 0 → s.shimCheck h.shimVer b ≠ 0 → gives 5 (s.shimCheck h.shimVer b) []) ∧
    (s.crwRun = true → h.shimVer ≠ 0 → s.shimCheck h.shimVer b = 0 →
      (4 ≤ shimOp b → gives 7 0x40 []) ∧
      (∀ r, shimOp b < 4 → s.cached g = some r → s.eccOf .crwCache g = .ok →
        (rState r = 0 → gives 3 1 []) ∧
        (∀ i t, rState r = 1 → shimOp b = 1 → shimEpoch b = 0 → shimFrag b = 0xFF → (shimRflags b).testBit 1 = false →
          s.readPick (rCur r) (if (shimRflags b).testBit 3 then 1 else s.crwReplicas) = some i →
          t = (rCur r).getD i 0xFFFF → (s.placedVersion t b false).2 = 0 → s.egressOf t < 512 →
          gives 1 0 [⟨t, s.egressOf t, i, false, (s.placedVersion t b false).1⟩])) ∧
      (shimOp b < 4 → s.cached g = none → (s.crw.missQ.any fun p => p.1 == g) = false → s.crw.missQ.length < 4096 →
        ∃ u, exec .crowsnestCall s = .next u ∧ u.crw = { s.crw with rr := k, missQ := s.crw.missQ ++ [(g, [(f, id)])] } ∧
          (u.head f).remote = (h.remote.map fun q => if q.id = id then { q with taken := true } else q)))) ∧
  (∀ (g : Nat) (s : State),
    ((s.crw.missQ.find? fun p => p.1 == g) = none → exec (.cacheMissFill g) s = .next s) ∧
    (∀ k calls, (s.crw.missQ.find? fun p => p.1 == g) = some (k, calls) →
      let z := { s with crw := { s.crw with missQ := s.crw.missQ.filter fun p => p.1 != g } }
      (∀ w b, z.recFromCellar g = (w, some b) → ∃ u, exec (.cacheMissFill g) s = .next u ∧ u.cached g = some b ∧
        (u.crw.missQ.find? fun p => p.1 == g) = none) ∧
      (∀ w f id, z.recFromCellar g = (w, none) → calls = [(f, id)] → s.callWaits f id = true →
        ∃ u, exec (.cacheMissFill g) s = .next u ∧ (u.head f).remote = ((s.head f).remote.map fun q =>
          if q.id = id then { q with taken := true, found := some .error } else q))) ∧
    (∀ e, s.cached g = none → exec (.crwCacheScrub g e) s = .next s) ∧
    ((s.cached g).isSome = true → s.eccOf .crwCache g = .ok →
      (∃ u, exec (.crwCacheScrub g .corr) s = .next u ∧ u.rb crwErr 0 = true ∧ u.crw = s.crw ∧
        u.eccOf .crwCache g = .ok ∧ onlyIn [.regs, .ecc, .mast] s u) ∧
      (∃ u, exec (.crwCacheScrub g .uncorr) s = .next u ∧ u.rb crwErr 1 = true ∧ u.cached g = none ∧
        onlyIn [.regs, .ecc, .mast, .crw] s u))) ∧
  (∀ (sl : Nat) (s : State),
    (tfind s.crw.flying sl = none → exec (.loadSampleReceive sl) s = .next s) ∧
    (∀ l, tfind s.crw.flying sl = some l → ∃ u, exec (.loadSampleReceive sl) s = .next u ∧
      (∀ i, i < 256 → tget 0 u.crw.loads (256 * sl + i) = l.getD i 0) ∧
      (∀ j, j < 256 * sl ∨ 256 * sl + 256 ≤ j → tget 0 u.crw.loads j = tget 0 s.crw.loads j) ∧
      tfind u.crw.flying sl = none ∧ onlyIn [.crw] s u))

/-- Crowsnest's commands on roster, records, keys and ranks, and its configuration. With CRW_CMD idle: ROSTER_WRITE of
an entry that R202 allows, with no build running, sets the target's live state and writes the entry, and answers 1 for
an id outside the roster, 4 during a build and 2 for a bad entry; ROSTER_READ returns the 32 bytes; SET_HEALTH and
SET_LOAD set what they name for a target that takes it, and answer 8, 3 or 7 otherwise; GROUP_READ returns a record,
GROUP_WRITE seals and writes one that R232 allows and answers 5 otherwise; PROBE returns hash and group of a key of 1
to 168 bytes, RANK the ranked list; a read that fails answers 6. CRW_CFG takes a value unless it changes fields while
running or starts with what R233 forbids. -/
def Obligations.CrowsnestCommands : Prop :=
  (∀ (v : Word) (s : State), s.rb crwCmd 31 = true → ∀ c ∈ [Instr.rosterWrite v, .rosterRead v, .setHealth v, .setLoad v,
    .groupRead v, .groupWrite v, .probe v, .rank v], exec c s = .next (s.setB crwCmdStatus 0)) ∧
  (∀ (v : Word) (s : State),
    let a := fld v 21 0
    let t := s.tgt a
    let d0 := s.rdN (crwData 0)
    let z (op : Nat) : State := s.plainWrite crwCmd (crwWord op v)
    let res (u : State) (r : Nat) : Prop := u.rf crwCmdStatus 31 24 = r
    let kept (u : State) : Prop := u.crw = s.crw ∧ u.cel = s.cel
    s.rb crwCmd 31 = false →
    (s.rosterCount ≤ a → (∃ u, exec (.rosterWrite v) s = .next u ∧ res u 1 ∧ kept u) ∧
      (∃ u, exec (.rosterRead v) s = .next u ∧ res u 1 ∧ kept u) ∧ (∃ u, exec (.setHealth v) s = .next u ∧ res u 1 ∧ kept u) ∧
      ∃ u, exec (.setLoad v) s = .next u ∧ res u 1 ∧ kept u) ∧
    (s.crwGroups ≤ a → (∃ u, exec (.groupRead v) s = .next u ∧ res u 1 ∧ kept u) ∧
      (∃ u, exec (.groupWrite v) s = .next u ∧ res u 1 ∧ kept u) ∧ ∃ u, exec (.rank v) s = .next u ∧ res u 1 ∧ kept u) ∧
    (a < s.rosterCount →
      (s.crw.build ≠ none → ∃ u, exec (.rosterWrite v) s = .next u ∧ res u 4 ∧ kept u) ∧
      (s.crw.build = none → s.entOk (s.crwBuf 32) = false → ∃ u, exec (.rosterWrite v) s = .next u ∧ res u 2 ∧ kept u) ∧
      (s.crw.build = none → s.entOk (s.crwBuf 32) = true → ∃ u, exec (.rosterWrite v) s = .next u ∧ res u 0 ∧
        u.tgt a = tgtOf (s.crwBuf 32) ∧ (∀ k, k ≠ a → u.tgt k = s.tgt k)) ∧
      (∀ w b, (z 2).celRead 0x11 (s.rosterAddr a) 32 = (w, some b) → b.length = 32 →
        ∃ u, exec (.rosterRead v) s = .next u ∧ res u 0 ∧ u.crwBuf 32 = b ∧ u.crw = s.crw) ∧
      (∀ w, (z 2).celRead 0x11 (s.rosterAddr a) 32 = (w, none) →
        ∃ u, exec (.rosterRead v) s = .next u ∧ res u 6 ∧ u.crw = s.crw) ∧
      (t.valid = false → (∃ u, exec (.setHealth v) s = .next u ∧ res u 8 ∧ kept u) ∧
        ∃ u, exec (.setLoad v) s = .next u ∧ res u 8 ∧ kept u) ∧
      (t.valid = true → t.hsrc = false → ∃ u, exec (.setHealth v) s = .next u ∧ res u 3 ∧ kept u) ∧
      (t.valid = true → t.hsrc = true → 5 ≤ d0 % 8 → ∃ u, exec (.setHealth v) s = .next u ∧ res u 7 ∧ kept u) ∧
      (t.valid = true → t.hsrc = true → d0 % 8 < 5 → ∃ u, exec (.setHealth v) s = .next u ∧ res u 0 ∧
        u.tgt a = { t with health := d0 % 8 } ∧ (∀ k, k ≠ a → u.tgt k = s.tgt k) ∧ onlyIn [.regs, .crw] s u) ∧
      (t.valid = true → t.kind = 1 → ∃ u, exec (.setLoad v) s = .next u ∧ res u 3 ∧ kept u) ∧
      (t.valid = true → t.kind ≠ 1 → ∃ u, exec (.setLoad v) s = .next u ∧ res u 0 ∧
        tfind u.crw.setLoads a = some (d0 % 65536) ∧ u.crw.roster = s.crw.roster ∧ onlyIn [.regs, .crw] s u)) ∧
    (a < s.crwGroups →
      (∀ w b, (z 5).recRead a = (w, some b) → b.length = 128 →
        ∃ u, exec (.groupRead v) s = .next u ∧ res u 0 ∧ u.crwBuf 128 = b) ∧
      (∀ w, (z 5).recRead a = (w, none) → ∃ u, exec (.groupRead v) s = .next u ∧ res u 6) ∧
      (s.groupOk (s.crwBuf 108) = false → ∃ u, exec (.groupWrite v) s = .next u ∧ res u 5 ∧ kept u) ∧
      (s.groupOk (s.crwBuf 108) = true → ∃ u, exec (.groupWrite v) s = .next u ∧ res u 0 ∧
        u.cel = ((z 6).celWrite 0x11 (s.recAddr a) (recSeal a (s.crwBuf 108))).cel ∧
        ((s.cached a).isSome = true → u.cached a = some (recSeal a (s.crwBuf 108)))) ∧
      (∀ w l, (z 8).rosterRead = (w, some l) → ∃ u, exec (.rank v) s = .next u ∧ res u 0 ∧
        u.crwBuf 48 = listBytes (s.ranked (s.rankEnts l) a) ∧
        u.rdN (crwData 12) = (s.ranked (s.rankEnts l) a).length) ∧
      (∀ w, (z 8).rosterRead = (w, none) → ∃ u, exec (.rank v) s = .next u ∧ res u 6)) ∧
    (a % 256 = 0 ∨ 168 < a % 256 → ∃ u, exec (.probe v) s = .next u ∧ res u 1 ∧ kept u) ∧
    (1 ≤ a % 256 → a % 256 ≤ 168 → ∃ u, exec (.probe v) s = .next u ∧ res u 0 ∧
      u.rd64 (crwData 0) = keyHash (s.rd64 crwKseedLo) (s.crwBuf (a % 256)) ∧
      u.rdN (crwData 2) = s.groupOf (keyHash (s.rd64 crwKseedLo) (s.crwBuf (a % 256))) ∧ onlyIn [.regs] s u)) ∧
  (∀ (v : Word) (s : State),
    let bad : Prop := (s.crwRun = true ∧ fld v 30 9 ≠ s.rf crwCfg 30 9) ∨
      (v.getLsbD 31 = true ∧ s.crwRun = false ∧ s.crwCfgOk v = false)
    (bad → exec (.crwCfgWrite v) s = .next (s.setB crwErr 3)) ∧
    (¬bad → ∃ u, exec (.crwCfgWrite v) s = .next u ∧ u.rf crwCfg 31 9 = fld v 31 9 ∧
      (∀ b, b ≠ crwCfg → u.rd b = s.rd b) ∧ onlyIn [.regs] s u))

/-- The map builder and the migration jobs start, step, drain and end. A build is refused with ERROR 1 while one runs,
2 out of its phase and 3 beyond the groups; with a readable roster that passes its checks and threads reserved for it,
it starts over the whole range with that roster. An initial build writes each group's ranked list as a sealed record;
a build ends after its last group, on abort or on a record it cannot read, with a pulse of source 1922. A migration
starts in its phase or is refused; a step makes the move of R250 of its group's record and counts it; after the last
group the mark bit flips and the job drains; it ends with the phase of R251 and a pulse of 1923 once no frame of the
old mark is in flight, or at its time limit; a mark of a MIGRATING record completes it and lowers LEFT. -/
def Obligations.CrowsnestBuildsAndMigrations : Prop :=
  (∀ (v : Word) (s : State),
    let initial := v.getLsbD 27
    let first := s.rf crwBuildFirst 21 0
    let count := s.rf crwBuildCount 22 0
    let limit := s.rf crwBuildLimit 22 0
    let out := s.rd64 crwBuildOutLo
    let st := s.rd64 crwBuildStatusLo
    let refused (e : Nat) : Prop := ∃ u, exec (.buildStart v) s = .next u ∧ u.crw = s.crw ∧ u.rb crwBuildCtl 28 = true ∧
      u.rf crwBuildCtl 23 16 = e
    let phaseBad : Prop := (initial = true ∧ s.crwRun = true) ∨ s.migPhase ≠ 0
    (s.crw.build ≠ none → refused 1) ∧
    (s.crw.build = none → phaseBad → refused 2) ∧
    (s.crw.build = none → ¬phaseBad → s.crwGroups < first + count → refused 3) ∧
    (∀ w l, s.crw.build = none → ¬phaseBad → first + count ≤ s.crwGroups → st % 16 = 0 →
      (initial = true ∨ limit = 0 ∨ (out % 128 = 0 ∧ (s.inPart 1 out (128 * limit) = true ∨ s.inPart 3 out (128 * limit) = true))) →
      limit ≤ 2 ^ 22 → count ≠ 0 → (s.plainWrite crwBuildCtl (setFld v 30 29 1)).rosterRead = (w, some l) →
      (s.rosterError l ≠ 0 → refused (s.rosterError l)) ∧
      (s.rosterError l = 0 → s.rf crwBuildInfo 8 0 = 0 ∨ s.attic.boot.reservedStarted = false → refused 0x0B) ∧
      (s.rosterError l = 0 → s.rf crwBuildInfo 8 0 ≠ 0 → s.attic.boot.reservedStarted = true →
        ∃ u, exec (.buildStart v) s = .next u ∧ u.rb crwBuildCtl 31 = true ∧ u.crw = { s.crw with
          build := some ⟨initial, first, count, first, [], 0, limit, out, st, fld v 15 0, 0, 0, s.rankEnts l⟩ })) ∧
    (s.crw.build = none → ∃ u, exec (.buildAbort v) s = .next u ∧ u.crw = s.crw ∧ onlyIn [.regs] s u) ∧
    (s.crw.build ≠ none → ∃ u, exec (.buildAbort v) s = .next u ∧ u.crw = { s.crw with build := none } ∧
      u.rb crwBuildCtl 31 = false ∧ shas u.bell.pulses 1922 = true)) ∧
  (∀ (g : Nat) (s : State), (s.crw.build = none → exec (.buildGroup g) s = .next s) ∧
    (∀ b, s.crw.build = some b →
      (g < b.low ∨ b.first + b.count ≤ g ∨ shas b.ahead g = true → exec (.buildGroup g) s = .next s) ∧
      (b.low ≤ g → g < b.first + b.count → shas b.ahead g = false →
        (∀ w x, b.initial = true → s.recPeek g = (w, some x) → ∃ u, exec (.buildGroup g) s = .next u ∧
          (b.count ≤ b.done + 1 → u.crw.build = none ∧ shas u.bell.pulses 1922 = true) ∧
          (b.done + 1 < b.count → ∃ b1, u.crw.build = some b1 ∧ b1.done = b.done + 1 ∧ b1.roster = b.roster ∧ b.low ≤ b1.low) ∧
          ((s.cached g).isSome = true → u.cached g = some (recSeal g (recBody (s.ranked b.roster g) [] (s.rdN crwEpoch)
            (if s.ranked b.roster g = [] then 0 else 1) (rMig x))))) ∧
        (∀ w, b.initial = false → s.recRead g = (w, none) → ∃ u, exec (.buildGroup g) s = .next u ∧
          u.crw.build = none ∧ shas u.bell.pulses 1922 = true)))) ∧
  (∀ (op : Nat) (c : Instr) (v : Word) (s : State), (op, c) ∈ [(1, Instr.migBegin v), (2, .migFinish v), (3, .migAbort v)] →
    let st := s.rd64 crwMigStatusAddrLo
    let bad : Prop := s.crw.mig ≠ none ∨ (op = 1 ∧ s.migPhase ≠ 0) ∨ (op ≠ 1 ∧ s.migPhase ≠ 2) ∨
      (op = 2 ∧ s.rf crwMigLeft 22 0 ≠ 0) ∨ (op = 3 ∧ s.crw.marked = true) ∨ (op = 1 ∧ s.rdN crwEpoch = 0xFFFFFFFF) ∨
      st % 16 ≠ 0 ∨ s.crwRun = false ∨ s.crw.build ≠ none
    (bad → ∃ u, exec c s = .next u ∧ u.crw = s.crw ∧ u.rb crwMigCtl 28 = true ∧ u.migPhase = s.migPhase ∧
      onlyIn [.regs] s u) ∧
    (¬bad → ∃ u, exec c s = .next u ∧ u.rb crwMigCtl 31 = true ∧ u.migPhase = (if op = 1 then 1 else if op = 2 then 3 else 4) ∧
      u.crw = { s.crw with mig := some ⟨op, fld v 15 0, st, 0, s.crwGroups, 0, false, 0⟩,
                           marked := if op = 1 then false else s.crw.marked })) ∧
  (∀ (v : Word) (s : State), exec (.migBegin v) s = .next (s.migCtlWrite (setFld v 30 29 1)) ∧
    exec (.migFinish v) s = .next (s.migCtlWrite (setFld v 30 29 2)) ∧
    exec (.migAbort v) s = .next (s.migCtlWrite (setFld v 30 29 3))) ∧
  (∀ s : State,
    (s.crw.mig = none → exec .migStep s = .next s ∧ exec .migDrainEnd s = .next s ∧ exec .migDrainTimeout s = .next s) ∧
    (∀ j, s.crw.mig = some j →
      (j.draining = true → exec .migStep s = .next s) ∧
      (∀ w x b d n, j.draining = false → s.recRead j.next = (w, some x) → migMove j.op x = some (b, d, n) →
        ∃ u, exec .migStep s = .next u ∧
          (j.next + 1 < j.stop → u.crw.mig = some { j with next := j.next + 1, moved := j.moved + n } ∧
            u.markBit = w.markBit ∧ u.rdN crwMigLeft = ((w.rf crwMigLeft 22 0 : Int) + d).toNat % 2 ^ 32) ∧
          (j.stop ≤ j.next + 1 → u.markBit = !w.markBit ∧ u.crw.mig = some { j with
            next := j.next + 1, moved := j.moved + n, draining := true, oldBit := nat w.markBit }) ∧
          ((w.cached j.next).isSome = true → u.cached j.next = some (recSeal j.next b))) ∧
      (j.draining = true → s.inFlight j.oldBit = 0 → ∃ u, exec .migDrainEnd s = .next u ∧ u.crw.mig = none ∧
        u.migPhase = (if j.op = 1 then 2 else 0) ∧ shas u.bell.pulses 1923 = true ∧ u.rb crwMigCtl 31 = false ∧
        u.rdN crwEpoch = if j.op = 2 then min 0xFFFFFFFF (s.rdN crwEpoch + 1) else s.rdN crwEpoch) ∧
      (j.draining = false ∨ s.inFlight j.oldBit ≠ 0 → exec .migDrainEnd s = .next s) ∧
      (j.draining = true → s.inFlight j.oldBit ≠ 0 → ∃ u, exec .migDrainTimeout s = .next u ∧ u.crw.mig = none ∧
        u.migPhase = (if j.op = 1 then 2 else 0) ∧ shas u.bell.pulses 1923 = true) ∧
      (j.draining = false ∨ s.inFlight j.oldBit = 0 → exec .migDrainTimeout s = .next s))) ∧
  (∀ (v : Word) (s : State),
    let g := fld v 21 0
    let res (u : State) (r : Nat) : Prop := u.rf crwMigStatus 10 8 = r
    s.rb crwMigStatus 7 = false →
    (s.migPhase ≠ 2 → ∃ u, exec (.migMark v) s = .next u ∧ res u 1 ∧ onlyIn [.regs] s u) ∧
    (s.migPhase = 2 → s.crwGroups ≤ g → ∃ u, exec (.migMark v) s = .next u ∧ res u 3 ∧ onlyIn [.regs] s u) ∧
    (s.migPhase = 2 → g < s.crwGroups →
      (∀ w, s.recRead g = (w, none) → ∃ u, exec (.migMark v) s = .next u ∧ res u 4 ∧ u.crw = w.crw) ∧
      (∀ w x, s.recRead g = (w, some x) → rState x ≠ 2 → ∃ u, exec (.migMark v) s = .next u ∧ res u 2 ∧ u.crw = w.crw) ∧
      (∀ w x, s.recRead g = (w, some x) → rState x = 2 → ∃ u, exec (.migMark v) s = .next u ∧ res u 0 ∧
        u.crw.marked = true ∧ u.rdN crwMigLeft = w.rf crwMigLeft 22 0 - 1 ∧ ((w.cached g).isSome = true →
          u.cached g = some (recSeal g (recBody (rCur x) (rPend x) (rEpoch x) 3 (Nat.lor (rMig x) 2)))))))

/-- The notice a frame causes and the one a lost copy causes; the tokens they take. When a frame's ingress is over,
the enabled event that wins causes one notice, built from the frame as received: it takes one token of the slice and
enters Stairwell whole, for the frame's port in the notice class; with no enabled event, with RATE 0, without a whole
token or where it cannot be built, nothing is sent and the tokens stand. A refill adds RATE times 128 millionths of a
token, to at most 64 tokens. A copy's outcome is told once; one lost with SHORT_EN set and a request's shim causes a
SHORTFALL notice of one entry. A decision or outcome that is not due changes nothing. -/
def Obligations.NoticesAndCopyOutcomes : Prop :=
  (∀ (f : Nat) (s : State),
    let x := s.frame f
    let h := x.head
    let won := winEvent (x.events.filter fun e => s.noticeOn e.1)
    let nf := s.pipe.nextFid
    let bytes (t r : Nat) : List Byte := s.noticeBytes h x.orig (slice x.orig 6 6) h.shim x.port
      (s.noticeBody h h.shim t r x.port (if t = 2 then h.reportEntries else []))
    let whole (t r : Nat) : List Byte := bytes t r ++ List.replicate (60 - (bytes t r).length) 0
    let built (t r : Nat) : Prop := h.layers.marked = true ∧ ipKnown x.orig h.layers.ip = true ∧
      (whole t r).length + 4 ≤ s.mtu x.port
    (s.hasFrame f = false ∨ x.settled = false ∨ x.noticed = true → exec (.noticeDecide f) s = .next s) ∧
    (s.hasFrame f = true → x.settled = true → x.noticed = false →
      (won = none → ∃ u, exec (.noticeDecide f) s = .next u ∧ (∀ g, g ≠ f → u.frame g = s.frame g) ∧
        (u.hasFrame f = true → u.frame f = { x with noticed := true }) ∧ onlyIn [.pipe] s u) ∧
      (∀ t r, won = some (t, r) → ¬built t r ∨ s.rf crwNoticeRate 15 0 = 0 ∨ s.noticeTokens x.slice < 1000000 →
        ∃ u, exec (.noticeDecide f) s = .next u ∧ u.pipe.nextFid = nf ∧ (∀ g, g ≠ f → u.frame g = s.frame g) ∧
          onlyIn [.regs, .mast, .pipe] s u) ∧
      (∀ t r, won = some (t, r) → built t r → s.rf crwNoticeRate 15 0 ≠ 0 → 1000000 ≤ s.noticeTokens x.slice → f ≠ nf →
        ∃ u, exec (.noticeDecide f) s = .next u ∧ u.noticeTokens x.slice = s.noticeTokens x.slice - 1000000 ∧
          (∀ k, k ≠ x.slice → u.noticeTokens k = s.noticeTokens k) ∧ u.pipe.nextFid = nf + 1 ∧
          (u.frame nf).data = whole t r ∧ (u.frame nf).len = (whole t r).length + 4 ∧
          (u.frame nf).fab.queues = [8 * x.port + s.rf crwNoticeCfg 13 11] ∧ (u.frame nf).events = [] ∧
          (∀ g, g ≠ f → g ≠ nf → u.frame g = s.frame g) ∧ onlyIn [.regs, .mast, .pipe, .crw] s u))) ∧
  (∀ (sl : Nat) (s : State), ∃ u, exec (.noticeTokenRefill sl) s = .next u ∧
    u.noticeTokens sl = min 64000000 (s.noticeTokens sl + 128 * s.rf crwNoticeRate 15 0) ∧
    (∀ k, k ≠ sl → u.noticeTokens k = s.noticeTokens k) ∧ onlyIn [.crw] s u) ∧
  (∀ (c : Nat) (s : State),
    let y := s.copy c
    let x := s.frame y.fid
    let h := x.head
    let nf := s.pipe.nextFid
    let due : Prop := y.st = 3 ∧ y.told = false ∧ y.counts = true
    let m := y.member.getD ⟨0, 0, 0, false, 0⟩
    let shim := slice x.data h.layers.shim 192
    let bytes := s.noticeBytes h x.data (slice x.orig 6 6) shim x.port
      (s.noticeBody h shim 3 0 y.port [(m.target, m.pos, y.result + (if m.pend = true then 128 else 0))])
    let whole := bytes ++ List.replicate (60 - bytes.length) (0 : Byte)
    let told (u : State) : Prop := (tfind u.stw.copies c).isNone = true ∨ (u.copy c).told = true
    (¬due → exec (.copyOutcome c) s = .next s) ∧
    (due → y.result < 16 → ∃ u, exec (.copyOutcome c) s = .next u ∧ told u ∧ u.pipe.nextFid = nf ∧
      onlyIn [.pipe, .stw] s u) ∧
    (due → 16 ≤ y.result → s.rb crwNoticeCfg 1 = false ∨ h.isRequest = false →
      ∃ u, exec (.copyOutcome c) s = .next u ∧ told u ∧ u.pipe.nextFid = nf ∧ onlyIn [.regs, .mast, .pipe, .stw] s u) ∧
    (due → 16 ≤ y.result → s.rb crwNoticeCfg 1 = true → h.isRequest = true → h.layers.marked = true →
      ipKnown x.data h.layers.ip = true → whole.length + 4 ≤ s.mtu x.port → s.rf crwNoticeRate 15 0 ≠ 0 →
      1000000 ≤ s.noticeTokens y.dst → y.fid ≠ nf →
      ∃ u, exec (.copyOutcome c) s = .next u ∧ told u ∧ u.noticeTokens y.dst = s.noticeTokens y.dst - 1000000 ∧
        u.pipe.nextFid = nf + 1 ∧ (u.frame nf).data = whole ∧ (u.frame nf).port = y.port ∧
        (u.frame nf).fab.queues = [8 * x.port + s.rf crwNoticeCfg 13 11]))

/-- The check units verify, strip, append and refuse; a profile takes its fields. A verify that is due and passes
strips the trailer and lets the frame go on; of one that fails, a PUT is discarded (with a CHECK_FAIL event unless its
profile is silent) and another is stripped with ERR and forwarded, but discarded under a silent profile or for LAYERS.
A copy whose cells have all come has its trailer put on, or ends with result CHECK where its profile is not VALID or
its layers are unknown. A profile write takes its fields while VALID is 0 if they are well formed when it sets VALID;
with VALID set only VALID and FAIL_SILENT change, and a write that would change another is discarded; each refusal
sets CFG_REJECT. -/
def Obligations.CheckUnits : Prop :=
  (∀ (f : Nat) (s : State),
    let x := s.frame f
    let h := x.head
    let p := s.profile h.chkProfile
    let r := s.verifyReason x
    let due : Prop := x.fab.verify = 1 ∧ x.complete = true ∧ x.isOver = false
    let stripped (e : Bool) : List Byte := stripTrailer x.data h.layers h.shimVer p.width e
    let gone (u : State) : Prop := u.hasFrame f = false ∨ ((u.frame f).isOver = true ∧ (u.frame f).fab.queues = [])
    (¬due → exec (.checkVerify f) s = .next s) ∧
    (due → x.bad = true → ∃ u, exec (.checkVerify f) s = .next u ∧ u.frame f = { x with fab := { x.fab with verify := 2 } } ∧
      onlyIn [.pipe] s u) ∧
    (due → x.bad = false → r = 0 → ∃ u, exec (.checkVerify f) s = .next u ∧ (u.frame f).data = stripped false ∧
      (u.fab f).verify = 2 ∧ (u.frame f).orig = x.orig ∧ onlyIn [.regs, .mast, .pipe] s u) ∧
    (due → x.bad = false → r ≠ 0 → shimOp h.shim = 2 → ∃ u, exec (.checkVerify f) s = .next u ∧ gone u ∧
      (p.silent = false → h.isRequest = true → x.noticed = false → (u.frame f).events = x.events ++ [(5, r)])) ∧
    (due → x.bad = false → r ≠ 0 → shimOp h.shim ≠ 2 → p.silent = true ∨ r = 0x64 →
      ∃ u, exec (.checkVerify f) s = .next u ∧ gone u) ∧
    (due → x.bad = false → r ≠ 0 → shimOp h.shim ≠ 2 → p.silent = false → r ≠ 0x64 →
      ∃ u, exec (.checkVerify f) s = .next u ∧ (u.frame f).data = stripped true ∧ (u.fab f).verify = 2 ∧
        onlyIn [.regs, .mast, .pipe] s u)) ∧
  (∀ (c : Nat) (s : State),
    let y := s.copy c
    let x := s.frame y.fid
    let h := x.head
    let p := s.profile h.chkProfile
    let known : Prop := p.valid = true ∧ h.layers.marked = true ∧ ipKnown x.data h.layers.ip = true
    let due : Prop := y.chk = 1 ∧ y.st < 2 ∧ ∃ g, s.egFrame y.fid y.dst = some g ∧ g.want ≤ g.got
    (¬due → exec (.checkAppend c) s = .next s) ∧
    (due → known → ∃ u, exec (.checkAppend c) s = .next u ∧
      u.copy c = { y with chk := 2, bytes := appendTrailer x.data h.layers h.shimVer p } ∧
      (∀ k, k ≠ c → u.copy k = s.copy k) ∧ onlyIn [.regs, .mast, .stw] s u) ∧
    (due → ¬known → ∃ u, exec (.checkAppend c) s = .next u ∧
      ((tfind u.stw.copies c).isNone = true ∨ ((u.copy c).st = 3 ∧ (u.copy c).result = 0x16)) ∧
      onlyIn [.regs, .mast, .pipe, .stw, .sht] s u)) ∧
  (∀ (p : Nat) (v : Word) (s : State), p < 64 →
    let a := chkProfCfg p
    let w := fld v 3 0
    let poly := s.rd64 (chkProfPolyLo p)
    let good : Prop := (1 ≤ w ∧ w ≤ 8) ∧ fld v 17 16 ≠ 3 ∧ poly % 2 = 1 ∧ poly < 2 ^ (8 * w) ∧
      s.rd64 (chkProfInitLo p) < 2 ^ (8 * w)
    let same : Prop := fld v 17 16 = s.rf a 17 16 ∧ fld v 9 8 = s.rf a 9 8 ∧ fld v 3 0 = s.rf a 3 0
    let takes : Prop := ∃ u, exec (.checkProfileWrite p v) s = .next u ∧ u.rb a 31 = v.getLsbD 31 ∧
      u.rb a 18 = v.getLsbD 18 ∧ u.rf a 17 16 = fld v 17 16 ∧ u.rb a 9 = v.getLsbD 9 ∧ u.rb a 8 = v.getLsbD 8 ∧
      u.rf a 3 0 = w ∧ (∀ b, b ≠ a → u.rd b = s.rd b) ∧ onlyIn [.regs] s u
    let refused : Prop := ∃ u, exec (.checkProfileWrite p v) s = .next u ∧ u.rb chkErr 0 = true ∧
      (∀ b, b ≠ chkErr → u.rd b = s.rd b) ∧ onlyIn [.regs] s u
    (s.rb a 31 = true → same → takes) ∧ (s.rb a 31 = true → ¬same → refused) ∧
    (s.rb a 31 = false → v.getLsbD 31 = false ∨ good → takes) ∧
    (s.rb a 31 = false → v.getLsbD 31 = true → ¬good → refused))

/-- A frame at its queue is taken on die, to spill, by force, or refused; spilled frames go out and return. A frame
with one unicast queue whose turn it is: it joins the queue on die where the queue is in DIE and its depth and units
fit α times the free pool; else to spill where its class may; else, lossless, by force; else it is refused, discarded,
and causes a REFUSE event. A frame found bad is discarded; one not due changes nothing. The oldest unwritten spilled
frame is written to Cellar and its units return. A spilled frame returns on die in order when the queue is shallow and
units are free; one that reads back poisoned is lost with STW_ERR and a report; an unreadable chain loses every
unreturned frame. -/
def Obligations.StairwellAdmissionAndSpill : Prop :=
  (∀ (f q : Nat) (s : State),
    let x := s.frame f
    let sl := x.slice
    let v := s.voq sl q
    let c := queueTc q
    let turn : Prop := x.offered = true ∧ x.fab.verify ≠ 1 ∧ s.offerWaits f = false
    let onDie : Prop := v.st = 0 ∧
      64 * (s.unitsIn v.die + (x.units + x.hr)) ≤ s.freeUnits sl * 2 ^ s.rf (stwTcCfg c) 3 0
    let spills : Prop := x.fab.kind ≠ 3 ∧ s.rb (stwTcCfg c) 16 = true ∧
      v.spillDepth < 1048576 * s.rf (stwTcCfg c) 31 20 ∧ s.spillFull sl = false
    let lossless : Prop := s.rb (stwPortCfg x.port) x.fab.tc = true ∧ x.origin < 4
    let one : Prop := turn ∧ x.fab.mirror = none ∧ (x.complete = false ∨ x.bad = false) ∧ x.fab.queues = [q] ∧ q < 4096 ∧
      x.units + x.hr ≠ 0
    let gone (u : State) : Prop := u.hasFrame f = false ∨ ((u.frame f).isOver = true ∧ (u.frame f).fab.queues = [])
    let stands (u : State) : Prop := (u.fab f).admitted = true ∧ (u.frame f).settled = true ∧ (u.frame f).data = x.data ∧
      (u.fab f).queues = [q] ∧ (u.fab f).owed = egressOfPorts x.fab.ports
    (¬turn → exec (.voqAdmit f) s = .next s) ∧
    (turn → x.fab.mirror = none → x.complete = true → x.bad = true → ∃ u, exec (.voqAdmit f) s = .next u ∧ gone u) ∧
    (one → onDie → ∃ u, exec (.voqAdmit f) s = .next u ∧ stands u ∧ (u.voq sl q).die = v.die ++ [f] ∧
      (u.voq sl q).spill = v.spill) ∧
    (one → ¬onDie → spills → ∃ u, exec (.voqAdmit f) s = .next u ∧ stands u ∧
      (v.st ≠ 2 → (u.voq sl q).st ≠ 0 ∧ (u.voq sl q).die = v.die ∧
        (u.voq sl q).spill.map (·.fid) = v.spill.map (·.fid) ++ [f]) ∧
      (v.st = 2 → v.spill ≠ [] → (u.voq sl q).st = 2 ∧ (u.voq sl q).latch = v.latch ++ [f] ∧ (u.voq sl q).die = v.die)) ∧
    (one → ¬onDie → ¬spills → lossless → v.st = 0 → ∃ u, exec (.voqAdmit f) s = .next u ∧ stands u ∧
      (u.voq sl q).die = v.die ++ [f]) ∧
    (one → ¬onDie → ¬spills → ¬lossless → ∃ u, exec (.voqAdmit f) s = .next u ∧ gone u ∧
      (x.head.isRequest = true → x.noticed = false → (u.frame f).events =
        x.events ++ [(1, if s.freeUnits sl = 0 ∨ s.spillFull sl = true then 0x52 else 0x51)]))) ∧
  (∀ (sl q : Nat) (s : State),
    let v := s.voq sl q
    let gone (u : State) (f : Nat) : Prop := u.hasFrame f = false ∨ ((u.frame f).isOver = true ∧ (u.frame f).fab.queues = [])
    ((∀ r ∈ v.spill, r.kept = true ∨ r.written = true) → exec (.spillWrite sl q) s = .next s) ∧
    (∀ r s1 ps, (v.spill.find? fun r => !r.kept && !r.written) = some r → (s.frame r.fid).complete = true →
      (s.frame r.fid).bad = false → State.spillPack sl q 16 (s.frame r.fid).data.length s = some (s1, ps) →
      ∃ u, exec (.spillWrite sl q) s = .next u ∧
        (u.voq sl q).spill = (v.mapSpill r.fid fun e => { e with written := true, pieces := ps }).spill ∧
        (u.frame r.fid).units = 0 ∧ (u.frame r.fid).hr = 0 ∧
        u.cel = (s1.each (cutAt (s.frame r.fid).data ps) fun t p => t.celWrite sl p.1 p.2).cel) ∧
    (∀ bad, v.spill ≠ [] → v.st = 0 ∨ s.shallow sl q = false → exec (.spillReadback sl q bad) s = .next s) ∧
    (∀ bad r rest, v.spill = r :: rest → v.st ≠ 0 → s.shallow sl q = true → r.kept = true →
      ∃ u l, exec (.spillReadback sl q bad) s = .next u ∧ (u.voq sl q).die = v.die ++ [r.fid] ++ l ∧
        (u.voq sl q).spill = rest) ∧
    (∀ r rest, v.spill = r :: rest → v.st ≠ 0 → s.shallow sl q = true → r.kept = false → r.written = true →
      unitsOf (s.frame r.fid).len ≤ s.freeUnits sl →
      (∀ bs, (s.spillRead sl r.pieces).2 = some bs → ∃ u l, exec (.spillReadback sl q false) s = .next u ∧
        (u.voq sl q).die = v.die ++ [r.fid] ++ l ∧ (u.voq sl q).spill = rest ∧ (u.frame r.fid).data = bs ∧
        (u.frame r.fid).units = unitsOf (s.frame r.fid).len) ∧
      ((s.spillRead sl r.pieces).2 = none → ∃ u, exec (.spillReadback sl q false) s = .next u ∧ gone u r.fid ∧
        u.rb stwErr 3 = true ∧ u.rd stwErrLoc = BitVec.ofNat 32 (65536 * sl + q))) ∧
    (∀ r rest, v.spill = r :: rest → v.st ≠ 0 → s.shallow sl q = true → r.kept = false → r.written = true →
      ∃ u, exec (.spillReadback sl q true) s = .next u ∧ (∀ e ∈ v.spill, e.kept = false → gone u e.fid) ∧
        (u.voq sl q).st = 0 ∧ (u.voq sl q).spill = [] ∧ (u.voq sl q).latch = [] ∧ (u.voq sl q).blocks = [] ∧
        u.rb stwErr 3 = true))

/-- Cells are granted and arrive; an egress slice queues the copy and reports; a dead port drops. The first cell of a
complete frame longer than a cell that the round's rules let through goes on the way, with its units reserved and its
slice holding the queue; the last cell of the frame in turn leaves the queue free. A cell that arrives counts on its
frame's bytes and turns reserved units into held ones, the first of a unicast frame queues the copy; one with a bad
CRC sets XBAR_CRC. Once an egress slice's copies are finished it owes the frame no more, and the last such report ends
the frame. When DOWN_HOLD ends on a dead link the copies not begun end with PORT_DOWN. A scrub corrects a unit or ends
the frame in it. -/
def Obligations.StairwellCrossbarAndEgress : Prop :=
  (∀ s : State, exec (.grantRound []) s = .next s) ∧
  (∀ (sl q f : Nat) (rest : List Nat) (s : State),
    let v := s.voq sl q
    let x := s.frame f
    let e := queueSlice q
    let free : Prop := s.ctUrgent e = none ∨ s.ctUrgent e = some (sl, q)
    let sends (n : Nat) (u : State) : Prop := u.stw.cells = s.stw.cells ++ [⟨sl, e, q, [(f, n)]⟩]
    v.die = f :: rest → x.complete = true → x.bad = false → s.eccOf .pantry (pantryIn f) = .ok → free →
    (s.turnOf q = some sl → 256 < x.space → ∃ u, exec (.grantRound [(sl, q)]) s = .next u ∧ sends 256 u ∧
      (u.voq sl q).sent = 256 ∧ tfind u.stw.egCur q = some sl ∧
      u.egFrame f e = some ⟨f, e, q, x.space, 0, unitsOf x.fab.declared, 0, 0⟩) ∧
    (tfind s.stw.egCur q ≠ some sl → s.turnOf q ≠ some sl → ∃ u, exec (.grantRound [(sl, q)]) s = .next u ∧
      u.stw.cells = s.stw.cells ∧ u.pipe = s.pipe) ∧
    (tfind s.stw.egCur q = some sl → rest = [] → v.st = 0 → 0 < v.sent → v.sent < x.space → x.space ≤ v.sent + 256 →
      ∃ u, exec (.grantRound [(sl, q)]) s = .next u ∧ sends (x.space - v.sent) u ∧ (u.voq sl q).die = [] ∧
        (u.voq sl q).sent = 0 ∧ tfind u.stw.egCur q = none ∧ tget 15 u.stw.rr q = sl ∧ q ∉ (u.fab f).queues)) ∧
  (∀ (src q : Nat) (s : State),
    (∀ bad, takeCell src q s.stw.cells = none → exec (.cellArrive src q bad) s = .next s) ∧
    (∀ c rest, takeCell src q s.stw.cells = some (c, rest) →
      (∃ u, exec (.cellArrive src q true) s = .next u ∧ u.rb stwErr 4 = true ∧ u.stw.cells = rest) ∧
      (∃ u, exec (.cellArrive src q false) s = .next u ∧ u.stw.cells = rest) ∧
      (∀ f n g, c.segs = [(f, n)] → s.egFrame f c.dst = some g → g.fid = f → g.dst = c.dst →
        (0 < g.got → g.got + n < g.want → ∃ u g', exec (.cellArrive src q false) s = .next u ∧
          u.egFrame f c.dst = some g' ∧ g'.got = g.got + n ∧ g'.hold + g'.resv = g.hold + g.resv ∧ g.hold ≤ g'.hold ∧
          u.stw.copies = s.stw.copies ∧ u.stw.egq = s.stw.egq) ∧
        (∀ p m, g.got = 0 → (s.fab f).kind = 0 → (s.fab f).ports = [(p, m)] → p / 32 = c.dst →
          ∃ u, exec (.cellArrive src q false) s = .next u ∧
            u.egList (8 * p + (s.fab f).tc) = s.egList (8 * p + (s.fab f).tc) ++ [s.stw.nextCopy] ∧
            (u.copy s.stw.nextCopy).fid = f ∧ (u.copy s.stw.nextCopy).port = p ∧ (u.copy s.stw.nextCopy).tc = (s.fab f).tc ∧
            (u.copy s.stw.nextCopy).member = m ∧ (u.copy s.stw.nextCopy).st = 0 ∧
            (u.copy s.stw.nextCopy).units = unitsOf (s.fab f).declared)))) ∧
  (∀ (f e : Nat) (s : State),
    let due : Prop := e ∈ (s.fab f).owed ∧ s.copiesFinished f e = true
    (¬due → exec (.copyFinishReport f e) s = .next s) ∧
    (due → ∃ u, exec (.copyFinishReport f e) s = .next u ∧ e ∉ (u.fab f).owed ∧
      ((∀ d ∈ (s.fab f).owed, d = e) → u.hasFrame f = false ∨ ((u.frame f).isOver = true ∧ (u.frame f).sets = [] ∧
        (u.frame f).mark = none)))) ∧
  (∀ (n : Nat) (s : State),
    (s.linkUp n = true → exec (.downHoldExpire n) s = .next s) ∧
    (s.linkUp n = false → ∃ u, exec (.downHoldExpire n) s = .next u ∧ (tfind u.pipe.lastHold n).isSome = true ∧
      (∀ c, c < 8 → ∀ k ∈ s.egList (8 * n + c), (s.copy k).st ≤ 1 → (tfind u.stw.copies k).isNone = true ∨
        ((u.copy k).st = 3 ∧ (u.copy k).result = 0x10)) ∧ onlyIn [.regs, .mast, .pipe, .stw, .sht] s u)) ∧
  (∀ (sl f : Nat) (s : State), sl < 16 →
    exec (.pantryScrub sl f .ok) s = .next s ∧
    (∃ u, exec (.pantryScrub sl f .corr) s = .next u ∧ u.rb stwErr 1 = true ∧ onlyIn [.regs, .mast] s u) ∧
    (∃ u, exec (.pantryScrub sl f .uncorr) s = .next u ∧ u.rb stwErr 2 = true ∧ u.rf stwErrLoc 19 16 = sl ∧
      (s.hasFrame f = false → onlyIn [.regs, .mast] s u) ∧
      (s.hasFrame f = true → (s.frame f).slice = sl → (s.frame f).units ≠ 0 →
        (∀ e ∈ (s.fab f).owed, s.egFrame f e = none) → u.hasFrame f = false ∨ (u.frame f).isOver = true)))

/-- Sets, groups and members are written and read; FLUSH empties a port; a hash profile commits. With STW_CMD idle:
SET_WRITE, GROUP_WRITE and MEMBER_WRITE put the record that STW_DATA spells at ADDR and change no other record, or are
refused with result ADDR (1) or VALUE (2) and change none; the reads put the record's words into STW_DATA; FLUSH ends
every copy of the port in the mask's classes that has not begun with QUEUE_DROP, or is refused with VALUE. While the
command register is busy any of them only sets OVERRUN. A write of STW_HASH_CTL makes the held piece registers the
profile's if they are well formed and at most 40 bytes, and drops them with CFG_REJECT otherwise. -/
def Obligations.StairwellCommandsAndProfiles : Prop :=
  (∀ (v : Word) (s : State), s.rb stwCmd 31 = true → ∀ c ∈ [Instr.stwSetWrite v, .stwSetRead v, .stwGroupWrite v,
    .stwGroupRead v, .stwMemberWrite v, .stwMemberRead v, .flush v], exec c s = .next (s.setB stwCmdStatus 0)) ∧
  (∀ (v : Word) (s : State), s.rb stwCmd 31 = false →
    let a := fld v 13 0
    let d := s.rdWide (stwData 0) 18
    let did (u : State) (r : Nat) : Prop := u.rf stwCmdStatus 31 24 = r
    let kept (u : State) : Prop := onlyIn [.regs] s u
    let setBad : Prop := bits d 526 524 ≠ 0 ∨ bits d 542 540 ≠ 0 ∨ bits d 558 556 ≠ 0 ∨ bits d 574 572 ≠ 0
    let groupBad : Prop := bits d 30 23 ≠ 0 ∨ bits d 15 14 ≠ 0 ∨ 64 < bits d 22 16 ∨ 16384 < bits d 13 0 + bits d 22 16
    let memberBad : Prop := bits d 30 9 ≠ 0 ∨ bits d 95 80 ≠ 0
    let flushBad : Prop := bits d 31 24 ≠ 0 ∨ bits d 15 9 ≠ 0
    (1024 ≤ a → (∃ u, exec (.stwSetWrite v) s = .next u ∧ did u 1 ∧ kept u) ∧
      (∃ u, exec (.stwSetRead v) s = .next u ∧ did u 1 ∧ kept u)) ∧
    (a < 1024 → setBad → ∃ u, exec (.stwSetWrite v) s = .next u ∧ did u 2 ∧ kept u) ∧
    (a < 1024 → ¬setBad → ∃ u, exec (.stwSetWrite v) s = .next u ∧ did u 0 ∧
      tfind u.stw.sets a = some ⟨BitVec.ofNat 512 d, [bits d 527 512, bits d 543 528, bits d 559 544, bits d 575 560]⟩ ∧
      (∀ k, k ≠ a → tfind u.stw.sets k = tfind s.stw.sets k) ∧
      u.stw = { s.stw with sets := u.stw.sets } ∧ onlyIn [.regs, .stw] s u) ∧
    (a < 1024 → ∃ u, exec (.stwSetRead v) s = .next u ∧ did u 0 ∧
      u.rdWide (stwData 0) 18 = s.setWords a % 2 ^ 576 ∧ kept u) ∧
    (4096 ≤ a → (∃ u, exec (.stwGroupWrite v) s = .next u ∧ did u 1 ∧ kept u) ∧
      (∃ u, exec (.stwGroupRead v) s = .next u ∧ did u 1 ∧ kept u)) ∧
    (a < 4096 → groupBad → ∃ u, exec (.stwGroupWrite v) s = .next u ∧ did u 2 ∧ kept u) ∧
    (a < 4096 → ¬groupBad → ∃ u, exec (.stwGroupWrite v) s = .next u ∧ did u 0 ∧
      tfind u.stw.groups a = some ⟨d.testBit 31, bits d 22 16, bits d 13 0, BitVec.ofNat 64 (bits d 95 32)⟩ ∧
      (∀ k, k ≠ a → tfind u.stw.groups k = tfind s.stw.groups k) ∧
      u.stw = { s.stw with groups := u.stw.groups } ∧ onlyIn [.regs, .stw] s u) ∧
    (a < 4096 → ∃ u, exec (.stwGroupRead v) s = .next u ∧ did u 0 ∧
      u.rdWide (stwData 0) 3 = s.groupWords a % 2 ^ 96 ∧ kept u) ∧
    (memberBad → ∃ u, exec (.stwMemberWrite v) s = .next u ∧ did u 2 ∧ kept u) ∧
    (¬memberBad → ∃ u, exec (.stwMemberWrite v) s = .next u ∧ did u 0 ∧
      tfind u.stw.members a = some ⟨d.testBit 31, bits d 8 0, bits d 63 32 + 2 ^ 32 * bits d 79 64⟩ ∧
      (∀ k, k ≠ a → tfind u.stw.members k = tfind s.stw.members k) ∧
      u.stw = { s.stw with members := u.stw.members } ∧ onlyIn [.regs, .stw] s u) ∧
    (∃ u, exec (.stwMemberRead v) s = .next u ∧ did u 0 ∧ u.rdWide (stwData 0) 3 = s.memberWords a % 2 ^ 96 ∧ kept u) ∧
    (flushBad → ∃ u, exec (.flush v) s = .next u ∧ did u 2 ∧ kept u) ∧
    (¬flushBad → ∃ u, exec (.flush v) s = .next u ∧ did u 0 ∧
      (bits d 23 16 = 0 → kept u) ∧
      ∀ c, c < 8 → d.testBit (16 + c) = true → ∀ k ∈ s.egList (8 * bits d 8 0 + c), (s.copy k).st ≤ 1 →
        (tfind u.stw.copies k).isNone = true ∨ ((u.copy k).st = 3 ∧ (u.copy k).result = 0x11))) ∧
  (∀ (k : Nat) (v : Word) (s : State), k < 8 →
    let a (j : Nat) : Nat := stwHashPiece k j
    let w (j : Nat) : Word := tget (s.rd (a j)) s.held (a j)
    let ps : List Nat := [fld (w 0) 15 0, fld (w 0) 31 16, fld (w 1) 15 0, fld (w 1) 31 16, fld (w 2) 15 0, fld (w 2) 31 16,
      fld (w 3) 15 0, fld (w 3) 31 16]
    let good : Prop := ps.all pieceOk = true ∧ keyWidth ps ≤ 40
    ∃ u, exec (.hashProfileCommit k v) s = .next u ∧ u.rb (stwHashCtl k) 31 = v.getLsbD 31 ∧
      (∀ j, j < 4 → tfind u.held (a j) = none) ∧ (good → ∀ j, j < 4 → u.rd (a j) = w j) ∧
      (¬good → u.rb stwErr 0 = true ∧ ∀ j, j < 4 → u.rd (a j) = s.rd (a j)) ∧ onlyIn [.regs, .held] s u)

/-- Buckets fill tick by tick; a policer is written full and read back; the scrubber finds errors. Bringing a
policer's buckets up to date over many ticks gives what ticking them one at a time gives, and REFILL_TICK brings every
policer and every shaper up to the present tick. A POLICER_WRITE that R308 and R310 allow gives every named slice that
policer with full buckets and changes no other policer; one they do not allow is refused with VALUE (1) and changes
nothing; POLICER_READ answers the lowest slice's words and buckets, or ECC (2) where its word is uncorrectable. A busy
command register only sets OVERRUN. A scrub corrects a word; an uncorrectable policer turns bad, an uncorrectable
shaper holds, each with its location and error bit. -/
def Obligations.SheetPolicersAndBuckets : Prop :=
  (∀ (p : Pol) (t : Nat), p.tick ≤ t → p.refill (t + 1) = (p.refill t).refill (t + 1)) ∧
  (∀ s : State, ∃ u, exec .refillTick s = .next u ∧ onlyIn [.sht] s u ∧ u.sht.dwrr = s.sht.dwrr ∧ u.sht.gens = s.sht.gens ∧
    (∀ k, tfind u.sht.pols k = (tfind s.sht.pols k).map fun p => p.refill s.tick) ∧
    (rising s.sht.shps = true → ∀ j x, tfind s.sht.shps j = some x → x.tick < s.tick → x.fill = false → x.cut = false →
      u.shp j = { x with
        tick := s.tick
        tokens := if 0 < s.shpRate j then min (x.tokens + ((s.tick - x.tick) * s.shpRate j : Nat)) (s.shpBurst j : Int)
          else x.tokens })) ∧
  (∀ (v : Word) (s : State), s.rb shtCmd 31 = true →
    exec (.policerWrite v) s = .next (s.setB shtCmdStatus 0) ∧ exec (.policerRead v) s = .next (s.setB shtCmdStatus 0)) ∧
  (∀ (v : Word) (s : State), s.rb shtCmd 31 = false →
    let mask := s.rf shtCmdSlices 15 0
    let named (sl : Nat) : Prop := sl < 16 ∧ mask.testBit sl = true
    let k := fld v 13 0
    let ws : List Word := [s.rd (shtData 0), s.rd (shtData 1), s.rd (shtData 2), s.rd (shtData 3), s.rd (shtData 4)]
    let new : Pol := ⟨ws, 65536 * fld (s.rd (shtData 3)) 23 0, 65536 * fld (s.rd (shtData 4)) 23 0, s.tick, false⟩
    let mode := s.rf (shtData 0) 31 30
    let bad : Prop := mode = 3 ∨ s.rf (shtData 0) 17 0 ≠ 0 ∨ s.rf (shtData 3) 31 24 ≠ 0 ∨ s.rf (shtData 4) 31 24 ≠ 0 ∨
      (mode ≠ 0 ∧ s.rf (shtData 3) 23 0 = 0) ∨ (mode = 2 ∧ s.rf (shtData 4) 23 0 = 0) ∨
      (mode = 2 ∧ s.rdN (shtData 2) < s.rdN (shtData 1)) ∨ (mode = 1 ∧ s.rdN (shtData 2) ≠ 0)
    let low := (maskSlices mask).headD 0
    let p := (s.pol low k).refill s.tick
    mask ≠ 0 →
    (bad → ∃ u, exec (.policerWrite v) s = .next u ∧ u.rf shtCmdStatus 31 24 = 1 ∧ onlyIn [.regs] s u) ∧
    (¬bad → (∀ sl, named sl → s.sliceGated sl = false) → s.rf mstInjCtl 26 24 = 0 →
      ∃ u, exec (.policerWrite v) s = .next u ∧ u.rf shtCmdStatus 31 24 = 0 ∧
        (∀ sl, named sl → u.pol sl k = new ∧ u.eccOf .policer (16384 * sl + k) = .ok) ∧
        (∀ i, (∀ sl, named sl → i ≠ 16384 * sl + k) → tfind u.sht.pols i = tfind s.sht.pols i) ∧
        onlyIn [.regs, .ecc, .sht] s u) ∧
    (s.sliceGated low = false → s.eccOf .policer (16384 * low + k) = .ok → ∃ u, exec (.policerRead v) s = .next u ∧
      u.rf shtCmdStatus 31 24 = 0 ∧ (∀ i, i < 5 → u.rd (shtData i) = p.w i) ∧
      u.rdN (shtData 5) = ((if p.bad = true then 2147483648 else 0) + p.tc / 65536) % 2 ^ 32 ∧
      u.rdN (shtData 6) = p.te / 65536 % 2 ^ 32 ∧ u.pol low k = p ∧ onlyIn [.regs, .sht] s u) ∧
    (s.sliceGated low = false → s.eccOf .policer (16384 * low + k) = .uncorr → ∃ u, exec (.policerRead v) s = .next u ∧
      u.rf shtCmdStatus 31 24 = 2 ∧ (u.pol low k).bad = true ∧ u.rb shtErr 2 = true ∧
      (∀ i, i < 7 → u.rd (shtData i) = s.rd (shtData i)))) ∧
  (∀ (sl i : Nat) (s : State), sl < 16 → i < 16384 →
    (s.eccOf .policer (16384 * sl + i) = .ok →
      exec (.sheetScrub false sl i .ok) s = .next s ∧
      (∃ u, exec (.sheetScrub false sl i .corr) s = .next u ∧ u.rb shtErr 1 = true ∧
        u.eccOf .policer (16384 * sl + i) = .ok ∧ onlyIn [.regs, .ecc, .mast] s u) ∧
      (∃ u, exec (.sheetScrub false sl i .uncorr) s = .next u ∧ u.rb shtErr 2 = true ∧ (u.pol sl i).bad = true ∧
        u.rdN shtErrLoc = 16777216 * sl + i ∧ onlyIn [.regs, .ecc, .mast, .sht] s u)) ∧
    (s.eccOf .shaper i = .ok → i < 0x2200 →
      exec (.sheetScrub true sl i .ok) s = .next s ∧
      (∃ u, exec (.sheetScrub true sl i .corr) s = .next u ∧ u.rb shtErr 1 = true ∧ u.eccOf .shaper i = .ok ∧
        onlyIn [.regs, .ecc, .mast] s u) ∧
      (∃ u, exec (.sheetScrub true sl i .uncorr) s = .next u ∧ u.rb shtErr 3 = true ∧ (u.shp i).bad = true ∧
        (s.shpEn i = true → u.shpHolds i = true ∧ u.shpAllows i = false) ∧
        onlyIn [.regs, .freeCtr, .ecc, .mast, .sht] s u)))

/-- A shaper takes RATE and BURST together; a port's next frame is chosen; queues are sampled. A RATE write is only
held; the BURST write that follows puts both in force and cuts the bucket at the next tick. A decision is taken only
for a port with nothing chosen outside safe state; a dead port drops its queue with PORT_DOWN; with no class eligible
none is chosen; else TC7, then TC6, then the class of the DWRR group is served: its head is chosen with its planned
length and leaves its queue. (The port's shapers are off and no head is over age here.) A sample instant sends every
running slice's 256 sojourns to Crowsnest; a ring record is written at every DIVth instant only, and the ring's index
steps and wraps. -/
def Obligations.SheetShapersDecisionsAndSamples : Prop :=
  (∀ (j : Nat) (v : Word) (s : State), j < 4096 ∨ (0x2000 ≤ j ∧ j < 0x2200) →
    (∃ u, exec (.shaperRateWrite j v) s = .next u ∧ tfind u.held (shpRateReg j) = some v ∧
      (∀ a, a ≠ shpRateReg j → tfind u.held a = tfind s.held a) ∧ onlyIn [.held] s u) ∧
    (∃ u, exec (.shaperBurstWrite j v) s = .next u ∧
      u.rd (shpRateReg j) = (tfind s.held (shpRateReg j)).getD (s.rd (shpRateReg j)) ∧ tfind u.held (shpRateReg j) = none ∧
      u.rf (shpBurstReg j) 23 0 = fld v 23 0 ∧ u.eccOf .shaper j = .ok ∧ (u.shp j).cut = true ∧ (u.shp j).bad = false ∧
      (u.shp j).tokens = ((s.shpUpdate j).shp j).tokens ∧ (∀ k, k ≠ j → u.shp k = s.shp k) ∧
      (∀ a, a ≠ shpRateReg j → a ≠ shpBurstReg j → u.rd a = s.rd a) ∧ onlyIn [.regs, .held, .ecc, .sht] s u)) ∧
  (∀ (n : Nat) (s : State), n < 512 →
    let clean : Prop := s.portClean n = s ∧ s.shpEn (0x2000 + n) = false ∧ s.eccOf .shaper (0x2000 + n) = .ok ∧
      ∀ c, c < 8 → s.shpEn (8 * n + c) = false ∧ s.eccOf .shaper (8 * n + c) = .ok
    let due : Prop := (s.port n).tx = none ∧ s.inSafe = false
    let pick : Option Nat := if (s.eligible n 7).isSome = true then some 7 else if (s.eligible n 6).isSome = true then some 6
      else (s.dwrrPick n (s.eligible n)).2
    (¬due → exec (.schedDecision n) s = .next s) ∧
    (due → s.portGone n = true → ∃ u, exec (.schedDecision n) s = .next u ∧ (u.port n).tx = none ∧
      ∀ c, c < 8 → ∀ k ∈ s.egList (8 * n + c), (s.copy k).st ≤ 1 → (tfind u.stw.copies k).isNone = true ∨
        ((u.copy k).st = 3 ∧ (u.copy k).result = 0x10)) ∧
    (due → s.portGone n = false → clean → (∀ c, c < 8 → s.egList (8 * n + c) = []) →
      exec (.schedDecision n) s = .next s) ∧
    (due → s.portGone n = false → clean → (∀ c, c < 8 → s.eligible n c = none) →
      ∃ u, exec (.schedDecision n) s = .next u ∧ u.pipe = s.pipe ∧ u.stw = s.stw) ∧
    (∀ c k, c < 8 → due → s.portGone n = false → clean → pick = some c → s.egHead n c = some k →
      (s.copy k).port = n → (s.copy k).tc = c → ∃ u, exec (.schedDecision n) s = .next u ∧
        (u.port n).tx = some ⟨k, (s.plan k).len, (s.plan k).out, false, 0⟩ ∧ (u.copy k).st = 1 ∧
        (u.copy k).fid = (s.copy k).fid ∧ u.egList (8 * n + c) = (s.egList (8 * n + c)).filter (· != k) ∧
        (∀ m, m ≠ n → u.port m = s.port m))) ∧
  (∀ s : State, (∀ n, n < 512 → s.portClean n = s) →
    let div := s.rf shtSampCtl 15 0
    let at_ := s.sht.sampN + 1
    let i := s.rf shtSampWidx 16 0
    let sent (u : State) : Prop := ∀ sl, sl < 16 →
      (s.sliceGated sl = false → tfind u.crw.flying sl = some ((upto 256).map fun i => s.queueSojourn (256 * sl + i))) ∧
      (s.sliceGated sl = true → tfind u.crw.flying sl = tfind s.crw.flying sl)
    (div = 0 → ∃ u, exec .sampleInstant s = .next u ∧ sent u ∧ u.sht.sampN = s.sht.sampN ∧ onlyIn [.sht, .crw] s u) ∧
    (div ≠ 0 → at_ % div ≠ 0 → ∃ u, exec .sampleInstant s = .next u ∧ sent u ∧ u.sht.sampN = at_ ∧
      u.sht.seq = s.sht.seq ∧ onlyIn [.sht, .crw] s u) ∧
    (div ≠ 0 → at_ % div = 0 → ∃ u, exec .sampleInstant s = .next u ∧ sent u ∧ u.sht.sampN = at_ ∧
      u.sht.seq = (s.sht.seq + 1) % 2 ^ 32 ∧
      (∀ sl, sl < 16 → s.sliceGated sl = false → (∀ k, k < 16 → k ≠ sl → s.sliceGated k = true) →
        u.rf shtSampWidx 16 0 = if s.rf shtSampRecords 16 0 ≤ i + 1 then 0 else i + 1)))

/-- A pool is made valid, formatted, refilled, scrubbed and retired; a reclaim starts, visits and ends. VALID is set
only alone and only for a pool that R377 allows, and cleared only alone on a READY pool with every buffer back; other
fields change only while it is clear; each refusal sets CFG_REJECT and changes nothing else. When formatting ends the
pool is READY with every buffer free. A refill moves up to 64 indices from the ring to a cache below 128; a poisoned
read loses them and sets RING_BAD. A scrub corrects a word; an uncorrectable bitmap word is out of service with its
location. A reclaim starts for a thread or a function, visits one buffer a step, frees one its owner owns, and ends
with RUNNING clear. -/
def Obligations.CupboardPoolsAndReclaim : Prop :=
  (∀ (k : Nat) (v : Word) (s : State), k < 8 →
    let a := cupPoolCfg k
    let same : Prop := fld v 30 30 = s.rf a 30 30 ∧ fld v 4 0 = s.rf a 4 0
    let others : Prop := ∃ j, j < 8 ∧ j ≠ k ∧ s.poolValid j = true
    let n := s.poolCount k
    let buffers : Nat × Nat := (s.poolBase k, n * 2 ^ s.rf a 4 0)
    let ring : Nat × Nat := (s.poolRing k, 4 * n)
    let inside (r : Nat × Nat) : Prop := (s.part 2).1 ≤ r.1 ∧ r.1 + r.2 ≤ (s.part 2).1 + (s.part 2).2
    let ill : Prop := n = 0 ∨ 2097152 < n ∨ s.rf a 4 0 < 10 ∨ 17 < s.rf a 4 0 ∨ s.poolBase k % 2 ^ s.rf a 4 0 ≠ 0 ∨
      s.poolRing k % 256 ≠ 0 ∨ ¬inside buffers ∨ ¬inside ring ∨ overlaps buffers s.ownerArea = true ∨
      overlaps ring s.ownerArea = true
    let out := exec (.poolValidWrite k v) s
    (s.poolValid k = true → v.getLsbD 31 = true → same → out = .next s) ∧
    (s.poolValid k = true → v.getLsbD 31 = true → ¬same → out = .next (s.setB cupErr 0)) ∧
    (s.poolValid k = true → v.getLsbD 31 = false → ¬same ∨ (s.pool k).free < n ∨ s.rf (cupPoolStatus k) 31 30 ≠ 2 →
      out = .next (s.setB cupErr 0)) ∧
    (s.poolValid k = true → v.getLsbD 31 = false → same → n ≤ (s.pool k).free → s.rf (cupPoolStatus k) 31 30 = 2 →
      ∃ u, out = .next u ∧ u.poolValid k = false ∧ u.poolReady k = false ∧ (u.pool k).free = 0 ∧
        (∀ j, j ≠ k → u.pool j = s.pool j) ∧ onlyIn [.regs, .cup] s u) ∧
    (s.poolValid k = false → v.getLsbD 31 = true → ¬same ∨ ill → out = .next (s.setB cupErr 0)) ∧
    (s.poolValid k = false → v.getLsbD 31 = true → same → ¬ill → ¬others → ∃ u, out = .next u ∧ u.poolValid k = true ∧
      u.rf (cupPoolStatus k) 31 30 = 1 ∧ u.poolReady k = false ∧ onlyIn [.regs] s u) ∧
    (s.poolValid k = false → v.getLsbD 31 = false → ∃ u, out = .next u ∧ u.poolValid k = false ∧
      u.rf a 30 30 = fld v 30 30 ∧ u.rf a 4 0 = fld v 4 0 ∧ onlyIn [.regs] s u)) ∧
  (∀ (k : Nat) (s : State), k < 8 →
    let n := s.poolCount k
    let p := s.pool k
    let m := min 64 p.cnt
    (s.poolValid k = false ∨ s.rf (cupPoolStatus k) 31 30 ≠ 1 → exec (.poolFormatDone k) s = .next s) ∧
    (s.poolValid k = true → s.rf (cupPoolStatus k) 31 30 = 1 → ∃ u, exec (.poolFormatDone k) s = .next u ∧
      u.poolReady k = true ∧ (u.pool k).free = n ∧ (u.pool k).alloc = [] ∧ (u.pool k).oos = [] ∧
      (u.pool k).cache = upto (min 512 n) ∧ u.rf (cupPoolStatus k) 21 0 = n ∧ (∀ j, j ≠ k → u.pool j = s.pool j)) ∧
    (s.poolReady k = false ∨ 128 ≤ p.cache.length ∨ p.cnt = 0 → exec (.cacheRefill k) s = .next s) ∧
    (s.poolReady k = true → p.cache.length < 128 → p.cnt ≠ 0 →
      (∀ bs, (s.ringRead k p.head m).2 = some bs → ∃ u, exec (.cacheRefill k) s = .next u ∧
        (u.pool k).cache = p.cache ++ (upto m).map (fun i => leNat (slice bs (4 * i) 4)) ∧ (u.pool k).cnt = p.cnt - m ∧
        (u.pool k).head = (p.head + m) % n ∧ (u.pool k).free = p.free ∧ (u.pool k).alloc = p.alloc) ∧
      ((s.ringRead k p.head m).2 = none → ∃ u, exec (.cacheRefill k) s = .next u ∧ (u.pool k).cache = p.cache ∧
        (u.pool k).cnt = p.cnt - m ∧ u.rb cupErr 3 = true))) ∧
  (∀ (k w : Nat) (s : State), k < 8 → w < 65536 → s.eccOf .cupBitmap (65536 * k + w) = .ok →
    exec (.cupboardScrub k w .ok) s = .next s ∧
    (∃ u, exec (.cupboardScrub k w .corr) s = .next u ∧ u.rb cupErr 1 = true ∧
      u.eccOf .cupBitmap (65536 * k + w) = .ok ∧ onlyIn [.regs, .ecc, .mast] s u) ∧
    (∃ u, exec (.cupboardScrub k w .uncorr) s = .next u ∧ u.rb cupErr 2 = true ∧ shas (u.pool k).oos w = true ∧
      (u.pool k).alloc = (s.pool k).alloc ∧ u.rdN cupErrLoc = 2097152 * k + w ∧ onlyIn [.regs, .ecc, .mast, .cup] s u) ∧
    (∃ u, exec (.cupboardScrub k (65536 + w) .corr) s = .next u ∧ u.rb cupErr 1 = true ∧ onlyIn [.regs, .mast] s u) ∧
    (∃ u, exec (.cupboardScrub k (65536 + w) .uncorr) s = .next u ∧ u.rb cupErr 2 = true ∧
      (u.pool k).cache.length = (s.pool k).cache.length ∧ onlyIn [.regs, .freeCtr, .mast, .cup] s u)) ∧
  (∀ (v : Word) (s : State),
    let kind := fld v 15 13
    (s.rb cupReclaim 31 = true ∨ (kind ≠ 1 ∧ kind ≠ 2) → exec (.reclaimStart v) s = .next (s.setB cupErr 0)) ∧
    (s.rb cupReclaim 31 = false → kind = 1 ∨ kind = 2 → ∃ u, exec (.reclaimStart v) s = .next u ∧
      u.rb cupReclaim 31 = true ∧ u.rf cupReclaim 15 0 = fld v 15 0 ∧ u.rdN cupReclaimCount = 0 ∧
      u.cup = { s.cup with reclaimPos := 0 } ∧ onlyIn [.regs, .cup] s u)) ∧
  (∀ s : State,
    (s.rb cupReclaim 31 = false → exec .reclaimVisit s = .next s) ∧
    (s.rb cupReclaim 31 = true → s.bufferAt s.cup.reclaimPos = none → ∃ u, exec .reclaimVisit s = .next u ∧
      u.rb cupReclaim 31 = false ∧ shas u.bell.pulses 1924 = true ∧ onlyIn [.regs, .bell] s u) ∧
    (∀ k i, s.rb cupReclaim 31 = true → s.bufferAt s.cup.reclaimPos = some (k, i) →
      ∃ u, exec .reclaimVisit s = .next u ∧ u.rb cupReclaim 31 = true ∧ u.cup.reclaimPos = s.cup.reclaimPos + 1 ∧
        (∀ s1 s2 p j r, s.cupCheck (s.bufAddr k i) none = (s1, .inr (p, j, r)) →
          s1.cupCheck (s.bufAddr k i) none = (s2, .inr (p, j, r)) → r.mode = 0 →
          (r.owner = s.rf cupReclaim 15 0 → shas (u.pool p).alloc j = false ∧
            (u.pool p).free = (s2.pool p).free + 1 ∧
            u.rdN cupReclaimCount = (s.rdN cupReclaimCount + 1) % 2 ^ 32) ∧
          (r.owner ≠ s.rf cupReclaim 15 0 → (u.pool p).alloc = (s1.pool p).alloc ∧
            u.rdN cupReclaimCount = s.rdN cupReclaimCount))))

/-- A ticket or sample asks for its buffer and is served, waits, or is dropped. A request that is not due changes
nothing. A sample that is granted a buffer has it at once and one that is not is dropped. A ticket of a frame found
bad goes with its frame. Where no ticket of its slice waits, a ticket is granted a buffer of its chain and its frame
leaves the Pantry; a deliberate one (SRC 0) that is granted none joins its slice's grant queue if a pool fits, WAIT is
not 0 and the queue has room, and is discarded with its frame otherwise; behind waiting tickets it queues. A waiting
ticket whose turn it is is served and leaves the queue. One that has waited WAIT is discarded with its frame. -/
def Obligations.CupboardRequestsAndTickets : Prop :=
  (∀ (id : Nat) (s : State),
    let k := s.ticket id
    let x := s.frame k.fid
    let sl := k.slice
    let exists_ : Prop := (tfind s.lft.tickets id).isSome = true
    let due : Prop := exists_ ∧ k.buf = 0 ∧ k.src < 3 ∧ x.complete = true
    let asks : Prop := due ∧ k.src ≠ 2 ∧ shas (s.grantQ sl) id = false ∧ x.bad = false ∧ x.lost = false
    let grant := s.cupGrant k.asker (ownerSlice sl) (768 + x.data.length)
    let fits : Prop := (s.fitPool (768 + x.data.length)).isSome = true
    let dropped (u : State) : Prop := tfind u.lft.tickets id = none ∧
      (u.hasFrame k.fid = false ∨ (u.frame k.fid).isOver = true)
    let out := exec (.bufferRequest id) s
    (¬due ∨ (k.src = 2 ∧ k.owed = 4) → out = .next s) ∧
    (due → k.src = 2 → k.owed ≠ 4 →
      let g := s.cupGrant .sample (ownerSlice sl) (800 + k.cap)
      (∀ p buf, g.2.2 = some (p, buf) → ∃ u, out = .next u ∧ (u.ticket id).buf = buf ∧ (u.ticket id).pool = p) ∧
      (g.2.2 = none → ∃ u, out = .next u ∧ tfind u.lft.tickets id = none)) ∧
    (due → k.src ≠ 2 → shas (s.grantQ sl) id = false → x.bad = true ∨ x.lost = true → ∃ u, out = .next u ∧ dropped u) ∧
    (∀ p buf, asks → s.grantQ sl = [] → grant.2.2 = some (p, buf) → ∃ u, out = .next u ∧
      (u.ticket id).buf = buf ∧ (u.ticket id).pool = p ∧ (u.ticket id).dataLen = x.data.length ∧ u.grantQ sl = [] ∧
      (u.hasFrame k.fid = false ∨ (u.frame k.fid).isOver = true)) ∧
    (asks → s.grantQ sl = [] → grant.2.2 = none → k.src = 0 → fits → s.rf cupCfg 15 0 ≠ 0 →
      ∃ u, out = .next u ∧ u.grantQ sl = [id] ∧ u.ticket id = k) ∧
    (asks → s.grantQ sl ≠ [] → k.src = 0 → fits → s.rf cupCfg 15 0 ≠ 0 → (s.grantQ sl).length < 64 →
      ∃ u, out = .next u ∧ u.grantQ sl = s.grantQ sl ++ [id] ∧ u.ticket id = k) ∧
    (asks → s.grantQ sl ≠ [] ∨ grant.2.2 = none → ¬fits ∨ s.rf cupCfg 15 0 = 0 ∨ 64 ≤ (s.grantQ sl).length →
      ∃ u, out = .next u ∧ dropped u) ∧
    (due → k.src ≠ 2 → shas (s.grantQ sl) id = true → s.grantNext ≠ some sl ∨ (s.grantQ sl).head? ≠ some id →
      out = .next s) ∧
    (∀ p buf, due → k.src ≠ 2 → shas (s.grantQ sl) id = true → s.grantNext = some sl → (s.grantQ sl).head? = some id →
      grant.2.2 = some (p, buf) → ∃ u, out = .next u ∧ (u.ticket id).buf = buf ∧ u.grantQ sl = (s.grantQ sl).drop 1 ∧
        u.cup.rr = sl) ∧
    (shas (s.grantQ sl) id = false → exec (.grantQueueTimeout id) s = .next s) ∧
    (shas (s.grantQ sl) id = true → ∃ u, exec (.grantQueueTimeout id) s = .next u ∧ dropped u ∧
      u.grantQ sl = (s.grantQ sl).filter (· != id)))

/-- A function frees and shares its buffers under the checks of R386 and reads its grant registers. A handle whose
address lies in no READY pool, is not a buffer's, or whose buffer is free is refused with RANGE, ALIGN or DOUBLE and
its error bit. A handle that passes: a free by the owner of a plain buffer, by the last owner with no holds, or the
last release of a pending one frees it (DONE, one more free); a free by the last owner with holds is PENDING; another
agent's free of a plain buffer is OWNER, a release with no holds EXCESS. A share by the owner of a plain buffer with a
count writes the record, else OWNER or VALUE. A read of a grant register returns the handle and clears it, or sets
EMPTY; a refill hands out only a buffer that was free. -/
def Obligations.CupboardFunctionPages : Prop :=
  (∀ (f : Nat) (v : Word) (s : State), f < 64 →
    let a := s.handleAddr v.toNat
    let out := exec (.bufferFree f v) s
    let did (u : State) (r : Nat) : Prop := u.rf (cupFnStatus f) 3 0 = r ∧ (1 ≤ r → r ≤ 8 → u.rb (cupFnErr f) r = true)
    (s.poolOf a = none → ∃ u, out = .next u ∧ did u 1 ∧ onlyIn [.regs, .mast] s u) ∧
    (∀ k i, s.poolOf a = some (k, i, false) → ∃ u, out = .next u ∧ did u 2 ∧ onlyIn [.regs, .mast] s u) ∧
    (∀ k i, s.poolOf a = some (k, i, true) → s.eccOf .cupBitmap (k * 65536 + i / 64) = .ok →
      shas (s.pool k).oos (i / 64) = false → shas (s.pool k).alloc i = false →
      ∃ u, out = .next u ∧ did u 3 ∧ onlyIn [.regs, .mast] s u) ∧
    (∀ s1 k i r, s.cupCheck a (some (fld v 31 24)) = (s1, .inr (k, i, r)) →
      let freed : Prop := ∃ u, out = .next u ∧ did u 0 ∧ shas (u.pool k).alloc i = false ∧
        (u.pool k).free = (s1.pool k).free + 1
      let kept (n : Nat) : Prop := ∃ u, out = .next u ∧ did u n ∧ u.cup = s1.cup
      (r.mode = 0 → r.owner = ownerFn f → freed) ∧
      (r.mode = 0 → r.owner ≠ ownerFn f → kept 5) ∧
      (r.mode ≠ 0 → r.last = ownerFn f → r.holds = 0 → freed) ∧
      (r.mode ≠ 0 → r.last = ownerFn f → r.holds ≠ 0 → kept 9) ∧
      (r.mode ≠ 0 → r.last ≠ ownerFn f → r.holds = 0 → kept 6) ∧
      (r.mode = 2 → r.last ≠ ownerFn f → r.holds = 1 → freed) ∧
      (r.mode ≠ 0 → r.last ≠ ownerFn f → 1 < r.holds ∨ (r.holds = 1 ∧ r.mode ≠ 2) →
        ∃ u, out = .next u ∧ did u 0 ∧ u.cup = s1.cup ∧ u.cel = (s1.ownerWrite a { r with holds := r.holds - 1 }).cel))) ∧
  (∀ (f : Nat) (v : Word) (s : State), f < 64 →
    let h := s.rdN (cupFnShareRef f)
    let a := s.handleAddr h
    let out := exec (.bufferShare f v) s
    let did (u : State) (r : Nat) : Prop := u.rf (cupFnStatus f) 3 0 = r ∧ (1 ≤ r → r ≤ 8 → u.rb (cupFnErr f) r = true)
    (∀ s1 r, s.cupCheck a (some (h / 2 ^ 24)) = (s1, .inl r) → r ≤ 8 → ∃ u, out = .next u ∧ did u r ∧ u.cup = s1.cup) ∧
    (∀ s1 k i r, s.cupCheck a (some (h / 2 ^ 24)) = (s1, .inr (k, i, r)) →
      (r.owner ≠ ownerFn f → ∃ u, out = .next u ∧ did u 5 ∧ u.cel = s1.cel ∧ u.cup = s1.cup) ∧
      (r.owner = ownerFn f → r.mode ≠ 0 ∨ fld v 31 24 = 0 → ∃ u, out = .next u ∧ did u 7 ∧ u.cel = s1.cel ∧
        u.cup = s1.cup) ∧
      (r.owner = ownerFn f → r.mode = 0 → fld v 31 24 ≠ 0 → ∃ u, out = .next u ∧ did u 0 ∧ u.cup = s1.cup ∧
        u.cel = (s1.ownerWrite a ⟨fld v 15 0, fld v 15 0, r.gen, fld v 31 24, 1⟩).cel))) ∧
  (∀ (f k : Nat) (s : State), f < 64 → k < 8 →
    (∃ u, exec (.grantRegisterRead f k) s = .next u ∧ u.rdata = s.rdN (cupFnGrant f k) ∧ u.rdN (cupFnGrant f k) = 0 ∧
      (s.rdN (cupFnGrant f k) = 0 → u.rb (cupFnStatus f) 7 = true) ∧
      (∀ b, b ≠ cupFnGrant f k → b ≠ cupFnStatus f → u.rd b = s.rd b) ∧ onlyIn [.regs, .rdata] s u) ∧
    (s.rdN (cupFnGrant f k) ≠ 0 ∨ s.poolReady k = false ∨ s.poolLevel k 1 = true ∨ (s.pool k).free = 0 →
      exec (.grantRegisterRefill f k) s = .next s) ∧
    (s.rdN (cupFnGrant f k) = 0 → s.poolReady k = true → s.poolLevel k 1 = false → (s.pool k).free ≠ 0 →
      (∀ p buf, (State.grantChain .grantReg (ownerFn f) 8 k s).2 = some (p, buf) →
        ∃ u i, exec (.grantRegisterRefill f k) s = .next u ∧ buf = s.bufAddr p i ∧ i < s.poolCount p ∧
          shas (s.pool p).alloc i = false ∧ shas (u.pool p).alloc i = true ∧ k ≤ p ∧
          u.rdN (cupFnGrant f k) = (State.grantChain .grantReg (ownerFn f) 8 k s).1.handleOf buf % 2 ^ 32) ∧
      ((State.grantChain .grantReg (ownerFn f) 8 k s).2 = none → ∃ u, exec (.grantRegisterRefill f k) s = .next u ∧
        u.rdN (cupFnGrant f k) = 0)))

/-- Posted entries are fetched, checked, taken and acted on by type; malformed ones stop or halt. Each taking step
acts only on a RUNNING queue with an entry of its type and room for its completion. A malformed entry stops a
generation 2 queue with CAUSE ENTRY, a MALFORMED completion and ERR.STOP, and in generation 1 halts every queue. A
taken entry leaves the prefetch, SQ_CI steps past it and it owes one completion: a NOP nothing more; a RECV posts its
buffer; a SEND or TICKET with BUF 0 draws a buffer and reads the host, waiting for a pool that gives none; with BUF 1
a refused handle ends it with 0x10 + the result and a good one hands on the frame, or makes the ticket. A fetch adds
one posted entry; a host read's data hands on the frame or makes the ticket, and its failure ends the entry with
DMA_ERR. -/
def Obligations.DoorwayEntriesTakenAndFetched : Prop :=
  (∀ (q : Nat) (s : State), q < 16384 →
    let x := s.dq q
    let f := s.fnOf q
    let room : Prop := x.taken.length + x.recv.length < s.cqFree q + (64 - x.held.length)
    let nf := s.pipe.nextFid
    ((x.prefetch = [] ∨ s.qState q ≠ 1 ∨ ¬room) → ∀ c ∈ [Instr.nopEntry q, .sendPipeline q, .sendDirect q, .ticketEntry q,
      .recvEntry q], exec c s = .next s) ∧
    (∀ ws rest, x.prefetch = ws :: rest → s.qState q = 1 → room →
      let e := s.entryOf q ws
      let t := s.takenOf q e ws
      let bad : Prop := e.bad = true ∨ s.typeOk q e.typ = false
      let took (u : State) (l : List Taken) : Prop := (u.dq q).prefetch = rest ∧ u.sqCi q = (s.sqCi q + 1) % 65536 ∧
        (u.dq q).taken = x.taken ++ l
      let frame (u : State) (d : List Byte) : Prop :=
        (e.direct = false → (u.frame nf).data = d ∧ (u.frame nf).port = e.port ∧ (u.head nf).pos = .reentry) ∧
        (e.direct = true → e.kind = 1 → e.dest < 512 → (u.frame nf).data = d ∧ (u.frame nf).port = e.port ∧
          (u.frame nf).fab.queues = [8 * e.dest + e.tc])
      let sends : List (Instr × Bool) := [(.sendPipeline q, e.typ == 1 && !e.direct), (.sendDirect q, e.typ == 1 && e.direct)]
      let all : List (Instr × Bool) := [(.nopEntry q, e.typ == 0 || decide (3 < e.typ)), (.ticketEntry q, e.typ == 2),
        (.recvEntry q, e.typ == 3)] ++ sends
      (∀ p ∈ all, p.2 = false → exec p.1 s = .next s) ∧
      (∀ p ∈ all, p.2 = true → bad → s.fnGen f ≠ 1 → ∃ u, exec p.1 s = .next u ∧ u.qState q = 4 ∧
        u.rf (dwyQpStatus q) 23 16 = 1 ∧ u.sqCi q = s.sqCi q ∧ (u.dq q).prefetch = [] ∧
        (u.dq q).taken = x.taken ++ [{ e.taken (s.sqCi q) with status := 1 }] ∧ u.rb (dwyFnErr f) 1 = true) ∧
      (∀ p ∈ all, p.2 = true → bad → s.fnGen f = 1 → ∃ u, exec p.1 s = .next u ∧ u.rb dwyHalt 31 = true ∧
        (u.dq q).taken = x.taken ∧ u.sqCi q = s.sqCi q ∧ ∀ k, k < 16384 → k ∈ tkeys s.dwy.queues → s.qState k ≠ 0 →
          s.qState k ≠ 6 → u.qState k = 5) ∧
      (¬bad → e.typ = 0 → ∃ u, exec (.nopEntry q) s = .next u ∧ took u [t] ∧ onlyIn [.regs, .mast, .dwy] s u) ∧
      (¬bad → e.typ = 3 → ∃ u, exec (.recvEntry q) s = .next u ∧ took u [] ∧
        (u.dq q).recv = x.recv ++ [(s.sqCi q, ws)] ∧ onlyIn [.regs, .mast, .dwy] s u) ∧
      (∀ p ∈ sends, p.2 = true → ¬bad →
        (s.sendRoom e = false → exec p.1 s = .next s) ∧
        (s.sendRoom e = true → e.buf = false →
          (s.fnAway f = true → exec p.1 s = .next s) ∧
          (s.fnAway f = false → s.fitPool e.len = none → ∃ u, exec p.1 s = .next u ∧ u.sqCi q = s.sqCi q ∧
            (u.dq q).taken = x.taken ∧ (u.dq q).waited = true) ∧
          (∀ k b buf, s.fnAway f = false → s.fitPool e.len = some k → s.chainCan .doorway 8 k = true →
            (s.cupGrant .doorway (ownerFn f) e.len).2 = (true, some (b, buf)) → ∃ u, exec p.1 s = .next u ∧
              took u [{ t with wait := 1, buf := buf, inPort := s.qPort q }] ∧
              u.outbox = (s.cupGrant .doorway (ownerFn f) e.len).1.outbox ++ [.hostRead e.addr e.len])) ∧
        (s.sendRoom e = true → e.buf = true → (∀ v ∈ x.taken, v.wait ≠ 1) →
          (∀ r, (s.sendHandle f e.handle).2 = .inl r → ∃ u, exec p.1 s = .next u ∧ took u [{ t with status := 16 + r }]) ∧
          (∀ buf d, (s.sendHandle f e.handle).2 = .inr buf →
            ((s.sendHandle f e.handle).1.celRead 0x14 buf e.len).2 = some d →
            ∃ u, exec p.1 s = .next u ∧ took u [t] ∧ frame u d))) ∧
      (¬bad → e.typ = 2 → e.buf = true →
        (∀ r, (s.ticketHandle f e.handle).2 = .inl r → ∃ u, exec (.ticketEntry q) s = .next u ∧
          took u [{ t with status := 16 + r }]) ∧
        (∀ buf sh d, (s.ticketHandle f e.handle).2 = .inr (buf, sh) →
          ((s.ticketHandle f e.handle).1.celRead 0x14 (buf + 768) (min 512 e.len)).2 = some d →
          ∃ u, exec (.ticketEntry q) s = .next u ∧ took u [{ t with wait := 2, ticket := s.lft.nextTicket }] ∧
            (u.ticket s.lft.nextTicket).src = 3 ∧ (u.ticket s.lft.nextTicket).prog = e.prog ∧
            (u.ticket s.lft.nextTicket).qp = q ∧ (u.ticket s.lft.nextTicket).buf = buf ∧
            (u.ticket s.lft.nextTicket).shared = sh ∧ u.lft.nextTicket = s.lft.nextTicket + 1)))) ∧
  (∀ (q : Nat) (words : List Word) (s : State), q < 16384 →
    let x := s.dq q
    let n := if s.qGen q = 1 then 8 else 16
    let a := s.rd64 (dwySqBaseLo q) + 4 * n * ((s.sqCi q + x.prefetch.length) % 65536 % s.sqSize q)
    let due : Prop := s.qState q = 1 ∧ (s.qKind q ≠ 3 ∨ s.qCopy q = true) ∧ x.prefetch.length < s.sqPosted q ∧
      x.prefetch.length < 64
    (¬due ∨ (s.sqWindow q = false ∧ s.fnAway (s.fnOf q) = true) → exec (.entryFetch q words) s = .next s) ∧
    (due → s.sqWindow q = false → s.fnAway (s.fnOf q) = false → ∃ u, exec (.entryFetch q words) s = .next u ∧
      (u.dq q).prefetch = x.prefetch ++ [(upto n).map fun k => words.getD k 0] ∧
      u.outbox = s.outbox ++ [.hostRead a (4 * n)] ∧ onlyIn [.dwy, .outbox] s u) ∧
    (due → s.sqWindow q = true →
      ((s.celRead 0x14 a (4 * n)).2 = none → ∃ u, exec (.entryFetch q words) s = .next u ∧ u.dwy = s.dwy) ∧
      (∀ bs, (s.celRead 0x14 a (4 * n)).2 = some bs → ∃ u, exec (.entryFetch q words) s = .next u ∧
        (u.dq q).prefetch = x.prefetch ++ [(upto n).map fun k => BitVec.ofNat 32 (leNat (slice bs (4 * k) 4))]))) ∧
  (∀ (q idx : Nat) (s : State),
    let x := s.dq q
    let set (g : Taken → Taken) : List Taken := setWaiting g x.taken
    let nf := s.pipe.nextFid
    (∀ data, (∀ t, (x.taken.find? fun t => t.wait == 1) = some t → t.idx ≠ idx) →
      exec (.hostDmaCompletion q idx data) s = .next s) ∧
    (∀ t, (x.taken.find? fun t => t.wait == 1) = some t → t.idx = idx →
      (∀ data, (data = none ∨ ∃ bs, data = some (bs, true)) → ∃ u, exec (.hostDmaCompletion q idx data) s = .next u ∧
        (u.dq q).taken = set fun v => { v with wait := 0, status := 2, buf := 0 }) ∧
      (∀ bs, t.entry.typ = 2 → ∃ u, exec (.hostDmaCompletion q idx (some (bs, false))) s = .next u ∧
        (u.dq q).taken = (set fun v => { v with wait := 2, buf := 0, ticket := s.lft.nextTicket }) ∧
        (u.ticket s.lft.nextTicket).src = 3 ∧ (u.ticket s.lft.nextTicket).qp = q ∧
        (u.ticket s.lft.nextTicket).buf = t.buf ∧ (u.ticket s.lft.nextTicket).dataLen = t.entry.len) ∧
      (∀ bs, t.entry.typ ≠ 2 → s.sendRoom t.entry = false →
        exec (.hostDmaCompletion q idx (some (bs, false))) s = .next s) ∧
      (∀ bs, t.entry.typ ≠ 2 → s.sendRoom t.entry = true → t.entry.direct = false →
        ∃ u, exec (.hostDmaCompletion q idx (some (bs, false))) s = .next u ∧
          (u.dq q).taken = (set fun v => { v with wait := 0, buf := 0 }) ∧
          (u.frame nf).data = slice bs 0 t.entry.len ∧ (u.frame nf).port = t.entry.port ∧ (u.head nf).pos = .reentry)))

/-- Completions are written in order ahead of their mirror, held when they cannot be; indices are checked. The oldest
entry that has ended completes: with the host there, room and nothing held, its 16 bytes go to the slot of CQ_PI,
CQ_PI steps, and the mirror follows; with the CQ full it is held and CQ_FULL is set; a suppressed DONE writes none; in
a reset it is discarded, and the last one leaves the queue DISABLED. The moderation time sends the signal, or leaves
it pending while the host sleeps. A doorbell posts entries, beyond the ring it stops the queue or halts Doorway, in a
reset it does nothing; a CQ_CI beyond the ring is discarded with ERR.INDEX. -/
def Obligations.DoorwayCompletionsAndIndices : Prop :=
  (∀ (q : Nat) (s : State), q < 16384 →
    let x := s.dq q
    let rest := x.taken.drop 1
    let host : Prop := s.cqWindow q = false ∧ s.fnAway (s.fnOf q) = false
    let entry (pi : Nat) (bs : List Byte) : Emission := .hostWrite (s.rd64 (dwyCqBaseLo q) + 16 * (pi % s.cqSize q)) bs
    let mirror (ci pi : Nat) : Emission := .hostWrite (s.rd64 (dwyIdxBaseLo q)) (natLe 2 ci ++ natLe 2 pi ++ natLe 4 0)
    let none_ : Prop := x.taken = [] ∨ ∃ t, x.taken.head? = some t ∧ t.wait ≠ 0
    (none_ → x.mirrorDue = false ∨ s.cqAway q = true → exec (.completionWrite q) s = .next s) ∧
    (none_ → x.mirrorDue = true → host → ∃ u, exec (.completionWrite q) s = .next u ∧
      u.outbox = s.outbox ++ [mirror (s.sqCi q) (s.cqPi q)] ∧ (u.dq q).mirrorDue = false ∧ onlyIn [.dwy, .outbox] s u) ∧
    (∀ t, x.taken.head? = some t → t.wait = 0 → s.qState q = 6 → t.buf = 0 → ∃ u, exec (.completionWrite q) s = .next u ∧
      (u.dq q).taken = rest ∧ u.outbox = s.outbox ∧
      (rest = [] → u.qState q = 0 ∧ u.qEn q = false ∧ u.sqPi q = 0 ∧ u.sqCi q = 0 ∧ u.cqPi q = 0 ∧ u.cqCi q = 0)) ∧
    (∀ t, x.taken.head? = some t → t.wait = 0 → s.qState q ≠ 6 →
      (t.suppressed = true → ∃ u, exec (.completionWrite q) s = .next u ∧ (u.dq q).taken = rest ∧ u.cqPi q = s.cqPi q) ∧
      (t.suppressed = false → host → x.held = [] → s.cqFree q ≠ 0 → t.buf = 0 → t.copy = none →
        ∃ u, exec (.completionWrite q) s = .next u ∧ (u.dq q).taken = rest ∧ u.cqPi q = (s.cqPi q + 1) % 65536 ∧
          (u.dq q).mirrorDue = false ∧ u.outbox = s.outbox ++
            [entry (s.cqPi q) (t.bytes (s.qGen q)), mirror (s.sqCi q) ((s.cqPi q + 1) % 65536)]) ∧
      (t.suppressed = false → host → x.held = [] → s.cqFree q = 0 → ∃ u, exec (.completionWrite q) s = .next u ∧
        (u.dq q).taken = rest ∧ (u.dq q).held = [⟨t.bytes (s.qGen q), t.buf, t.copy⟩] ∧ u.cqPi q = s.cqPi q ∧
        u.rb (dwyQpStatus q) 28 = true ∧ u.rf (dwyQpStatus q) 6 0 = 1) ∧
      (t.suppressed = false → s.cqAway q = true ∨ x.held ≠ [] → ∃ u, exec (.completionWrite q) s = .next u ∧
        (u.dq q).taken = rest ∧ (u.dq q).held = x.held ++ [⟨t.bytes (s.qGen q), t.buf, t.copy⟩] ∧ u.cqPi q = s.cqPi q)) ∧
    (let time := s.rf (dwyCqMod q) 31 16
     let due : Prop := s.rb (dwyQpCfg q) 24 = true ∧ x.since ≠ 0 ∧ time ≠ 0 ∧ x.sinceNs + 1000 * time ≤ s.ns
     (¬due → exec (.completionSignal q) s = .next s) ∧
     (due → s.fnAway (s.fnOf q) = false → ∃ u, exec (.completionSignal q) s = .next u ∧ (u.dq q).since = 0 ∧
       (u.dq q).sigPending = false ∧ shas u.bell.msix (2048 * s.fnOf q + s.rf (dwyQpCfg q) 10 0) = true) ∧
     (due → s.fnAway (s.fnOf q) = true → ∃ u, exec (.completionSignal q) s = .next u ∧ (u.dq q).since = 0 ∧
       (u.dq q).sigPending = true ∧ u.bell = s.bell))) ∧
  (∀ (q : Nat) (v : Word) (s : State), q < 16384 →
    let n := fld v 15 0
    let beyond : Prop := s.sqSize q < (n + 65536 - s.sqCi q) % 65536
    let noSq : Prop := s.qEn q = false ∨ (s.qKind q = 3 ∧ s.qCopy q = false)
    let st := s.qState q
    (noSq ∨ (st ≠ 6 ∧ ¬beyond) → ∃ u, exec (.sqDoorbell q v) s = .next u ∧ u.sqPi q = n ∧
      (∀ a, a ≠ dwySqPi q → u.rd a = s.rd a) ∧ onlyIn [.regs] s u) ∧
    (¬noSq → st = 6 ∨ (beyond ∧ st ≠ 1 ∧ st ≠ 3) → exec (.sqDoorbell q v) s = .next s) ∧
    (¬noSq → st = 1 ∨ st = 3 → beyond → s.fnGen (s.fnOf q) ≠ 1 → ∃ u, exec (.sqDoorbell q v) s = .next u ∧
      u.qState q = 4 ∧ u.rf (dwyQpStatus q) 23 16 = 2 ∧ u.sqPi q = s.sqPi q ∧ (u.dq q).prefetch = [] ∧
      u.rb (dwyFnErr (s.fnOf q)) 1 = true) ∧
    (¬noSq → st = 1 ∨ st = 3 → beyond → s.fnGen (s.fnOf q) = 1 → ∃ u, exec (.sqDoorbell q v) s = .next u ∧
      u.rb dwyHalt 31 = true ∧ u.sqPi q = s.sqPi q)) ∧
  (∀ (q : Nat) (v : Word) (s : State), q < 16384 →
    let n := fld v 15 0
    let beyond : Prop := s.cqSize q < (s.cqPi q + 65536 - n) % 65536
    (s.qEn q = false → ∃ u, exec (.cqCiWrite q v) s = .next u ∧ u.cqCi q = n ∧ onlyIn [.regs] s u) ∧
    (s.qEn q = true → beyond → exec (.cqCiWrite q v) s = .next (s.setB (dwyFnErr (s.fnOf q)) 3)) ∧
    (s.qEn q = true → ¬beyond → (s.dq q).held = [] → (s.dq q).mirrorDue = false → ∃ u, exec (.cqCiWrite q v) s = .next u ∧
      u.cqCi q = n ∧ u.cqPi q = s.cqPi q ∧ u.rb (dwyQpStatus q) 27 = false ∧ onlyIn [.regs] s u) ∧
    (∀ c, s.qEn q = true → ¬beyond → (s.dq q).held = [c] → s.cmplAway q c = false → c.copy = none → c.buf = 0 →
      s.cqWindow q = false → (s.cqPi q + 65536 - n) % 65536 < s.cqSize q → ∃ u, exec (.cqCiWrite q v) s = .next u ∧
        u.cqCi q = n ∧ (u.dq q).held = [] ∧ u.cqPi q = (s.cqPi q + 1) % 65536 ∧
        u.rb (dwyQpStatus q) 27 = false ∧ (u.outbox.drop s.outbox.length).head? =
          some (.hostWrite (s.rd64 (dwyCqBaseLo q) + 16 * (s.cqPi q % s.cqSize q)) c.bytes)))

/-- Queues are enabled, paused, resumed and reset; ranges and generations change only while idle. PAUSE takes a
RUNNING queue to PAUSED and leaves any other as it is; RESUME drops what was prefetched, clears CAUSE and lets a
PAUSED or STOPPED queue run, and sets ERR.CFG in another state. RESET with nothing outstanding leaves the queue
DISABLED with all indices 0 and EN clear; entries that wait keep it RESETTING. An enable that R423 allows starts it
RUNNING with indices 0, or HALTED during a halt; one that it refuses only sets ERR.CFG. CLEAR gives each halted queue
its former state back and stops the offending one. A range that overlaps another, runs past 16,384 or is in use, and a
generation that is neither 1 nor 2 or in use, are refused. -/
def Obligations.DoorwayQueuesAndGenerations : Prop :=
  (∀ (q : Nat) (s : State), q < 16384 →
    let x := s.dq q
    let st := s.qState q
    (st = 1 → ∃ u, exec (.qpPause q) s = .next u ∧ u.qState q = 3 ∧ onlyIn [.regs] s u) ∧
    (st ≠ 1 → exec (.qpPause q) s = .next s) ∧
    (st = 3 ∨ st = 4 → ∃ u, exec (.qpResume q) s = .next u ∧ u.qState q = 1 ∧ u.rf (dwyQpStatus q) 23 16 = 0 ∧
      u.dq q = { x with prefetch := [], waited := false } ∧ u.sqCi q = s.sqCi q ∧ onlyIn [.regs, .dwy] s u) ∧
    (st ≠ 3 → st ≠ 4 → exec (.qpResume q) s = .next (s.setB (dwyFnErr (s.fnOf q)) 0)) ∧
    (st = 0 → exec (.qpReset q) s = .next s) ∧
    (st ≠ 0 → (∀ t ∈ x.taken, t.wait = 0) → ∃ u, exec (.qpReset q) s = .next u ∧ u.qState q = 0 ∧ u.qEn q = false ∧
      u.sqPi q = 0 ∧ u.sqCi q = 0 ∧ u.cqPi q = 0 ∧ u.cqCi q = 0 ∧ (u.dq q).prefetch = [] ∧ (u.dq q).taken = [] ∧
      (u.dq q).held = [] ∧ (u.dq q).recv = []) ∧
    (st ≠ 0 → (∃ t ∈ x.taken, t.wait ≠ 0) → ∃ u, exec (.qpReset q) s = .next u ∧ u.qState q = 6 ∧
      (u.dq q).prefetch = [] ∧ (u.dq q).held = [] ∧ (u.dq q).taken = x.taken.filter (·.wait != 0))) ∧
  (∀ (q : Nat) (v : Word) (s : State), q < 16384 →
    let same : Prop := v &&& 0x7FFF07FF = s.rd (dwyQpCfg q) &&& 0x7FFF07FF
    let kind := fld v 30 28
    let ill : Prop := s.fnOfQ q = none ∨ kind = 0 ∨ 3 < kind ∨ fld v 19 16 < 4 ∨ 12 < fld v 19 16 ∨
      ((kind = 1 ∨ kind = 2 ∨ v.getLsbD 25 = true) ∧ (fld v 23 20 < 4 ∨ 12 < fld v 23 20 ∨ s.rd64 (dwySqBaseLo q) % 64 ≠ 0)) ∨
      (v.getLsbD 25 = true ∧ kind ≠ 3) ∨ s.rd64 (dwyCqBaseLo q) % 64 ≠ 0 ∨ s.rd64 (dwyIdxBaseLo q) % 64 ≠ 0
    let refused : Prop := exec (.qpEnable q v) s = .next (s.setB (dwyFnErr (s.fnOf q)) 0)
    (s.qEn q = true → ¬same → refused) ∧
    (s.qEn q = true → same → v.getLsbD 31 = true → exec (.qpEnable q v) s = .next s) ∧
    (s.qEn q = false → v.getLsbD 31 = true → s.qState q ≠ 0 ∨ ill → refused) ∧
    (s.qEn q = false → v.getLsbD 31 = true → s.qState q = 0 → s.qpOk q v = true → ∃ u, exec (.qpEnable q v) s = .next u ∧
      u.qEn q = true ∧ u.qState q = (if s.rb dwyHalt 31 = true then 5 else 1) ∧ u.qKind q = kind ∧ u.sqPi q = 0 ∧
      u.sqCi q = 0 ∧ u.cqPi q = 0 ∧ u.cqCi q = 0 ∧ u.dq q = { DwyQ.init with prev := 1 } ∧ onlyIn [.regs, .dwy] s u) ∧
    (s.qEn q = false → v.getLsbD 31 = false → ∃ u, exec (.qpEnable q v) s = .next u ∧ u.qEn q = false ∧ u.qKind q = kind ∧
      onlyIn [.regs] s u)) ∧
  (∀ s : State,
    let bad := s.rf dwyHaltLoc 13 0
    (s.rb dwyHalt 31 = false → exec .haltClear s = .next s) ∧
    (s.rb dwyHalt 31 = true → ∃ u, exec .haltClear s = .next u ∧ u.rb dwyHalt 31 = false ∧ onlyIn [.regs] s u ∧
      ∀ q, q < 16384 → q ∈ tkeys s.dwy.queues →
        (s.qState q = 5 → q = bad → u.qState q = 4) ∧
        (s.qState q = 5 → q ≠ bad → (s.dq q).prev < 8 → (s.dq q).prev ≠ 5 → u.qState q = (s.dq q).prev) ∧
        (s.qState q ≠ 5 → u.qState q = s.qState q))) ∧
  (∀ (f : Nat) (v : Word) (s : State), f < 64 →
    let base := fld v 13 0
    let count := fld v 30 16
    let b (g : Nat) : Nat := s.rf (dwyFnQp g) 13 0
    let n (g : Nat) : Nat := s.rf (dwyFnQp g) 30 16
    let clash : Prop := ∃ g, g < 64 ∧ g ≠ f ∧ count ≠ 0 ∧ n g ≠ 0 ∧ base < b g + n g ∧ b g < base + count
    let bad : Prop := 16384 < base + count ∨ clash ∨ s.fnBusy f = true
    (bad → exec (.fnQpWrite f v) s = .next (s.setB (dwyFnErr f) 0)) ∧
    (¬bad → ∃ u, exec (.fnQpWrite f v) s = .next u ∧ u.rf (dwyFnQp f) 13 0 = base ∧ u.rf (dwyFnQp f) 30 16 = count ∧
      u.rf (dwyFnId f) 30 16 = count ∧ (∀ a, a ≠ dwyFnQp f → a ≠ dwyFnId f → u.rd a = s.rd a) ∧ onlyIn [.regs] s u) ∧
    (let g := fld v 1 0
     (g = 0 ∨ g = 3 ∨ s.fnBusy f = true → exec (.formatGenWrite f v) s = .next (s.setB (dwyFnErr f) 2)) ∧
     (g = 1 ∨ g = 2 → s.fnBusy f = false → ∃ u, exec (.formatGenWrite f v) s = .next u ∧ u.fnGen f = g ∧
       (∀ a, a ≠ dwyFnFmt f → u.rd a = s.rd a) ∧ onlyIn [.regs] s u)))

/-- The link trains, functions sleep, wake, are reset and configured. Training with PERST_N high, from stage CLOCKS's
end on, settles on the highest mode, speed and width both ends offer; otherwise it does nothing. PERST_N low, and the
loss of an up link, reset Doorway: link and halt clear, no function asleep or bus master, no VF enabled, the tracker
empty. A function level reset leaves each queue of the function without prefetched or held work, its MSI-X table,
error register and configuration bits at reset; a disabled function takes none. Host sleep marks an enabled function;
a wake clears it and, with bus mastering, sends what waited. A configuration request is answered with a retry until
the boot ends or 900 ms pass, then reads or writes its bit. (900 ms as cycles of the Attic clock.) -/
def Obligations.DoorwayLinkSleepAndResets : Prop :=
  (∀ (mode speed width : Nat) (lopt : Bool) (s : State),
    let ready : Prop := s.rb dwyLinkStatus 31 = false ∧ s.attic.perstN = true ∧ 5 ≤ s.rf atcBootStatus 31 28 ∧
      s.rb mstIsoStatus 16 = false ∧ s.rf atcPwrStatus 31 30 ≠ 2
    let cap := s.rf dwyLinkCap 7 6
    let sp := min (s.rf dwyLinkCap 5 3) speed
    (¬ready → exec (.hostLinkTrain mode speed width lopt) s = .next s) ∧
    (ready → 1 ≤ speed → speed ≤ 6 → mode ≤ 2 → 1 ≤ s.rf dwyLinkCap 5 3 → width ≤ 4 →
      ∃ u, exec (.hostLinkTrain mode speed width lopt) s = .next u ∧ u.rb dwyLinkStatus 31 = true ∧
        u.rf dwyLinkStatus 2 0 = min (s.rf dwyLinkCap 2 0) width ∧ (∀ a, a ≠ dwyLinkStatus → u.rd a = s.rd a) ∧
        (5 ≤ sp → u.rf dwyLinkStatus 7 6 = min cap mode ∧
          u.rf dwyLinkStatus 5 3 = (if min cap mode = 1 then 5 else sp)) ∧
        (sp < 3 → u.rf dwyLinkStatus 7 6 = 0 ∧ u.rf dwyLinkStatus 5 3 = sp) ∧ onlyIn [.regs] s u)) ∧
  (∀ s : State,
    let dead (u : State) : Prop := u.rb dwyLinkStatus 31 = false ∧ u.rb dwyHalt 31 = false ∧ u.dwy.tracker = [] ∧
      u.dwy.linkL2 = false ∧ u.pipe = s.pipe ∧
      ∀ f, f < 64 → (u.fn f).asleep = false ∧ (u.fn f).busMaster = false ∧ (2 ≤ f → (u.fn f).enabled = false)
    (∃ u, exec (.perstReset .low) s = .next u ∧ u.attic.perstN = false ∧ dead u) ∧
    (∃ u, exec (.perstReset .high) s = .next u ∧ u.attic.perstN = true ∧ u.dwy.perstRose = s.cycles ∧
      onlyIn [.dwy, .attic] s u) ∧
    (s.rb dwyLinkStatus 31 = false → exec (.perstReset .linkLoss) s = .next s) ∧
    (s.rb dwyLinkStatus 31 = true → ∃ u, exec (.perstReset .linkLoss) s = .next u ∧ u.attic.perstN = s.attic.perstN ∧ dead u)) ∧
  (∀ (f : Nat) (s : State), f < 64 →
    ((s.fn f).enabled = false → exec (.functionLevelReset f) s = .next s) ∧
    ((s.fn f).enabled = true → ∃ u, exec (.functionLevelReset f) s = .next u ∧ u.rd (dwyFnErr f) = 0 ∧
      (u.fn f).enabled = true ∧ (u.fn f).msixEn = false ∧ (u.fn f).busMaster = false ∧ (u.fn f).asleep = false ∧
      (∀ v, v < 2048 → tfind u.dwy.msix (2048 * f + v) = none) ∧
      (∀ k, k < 8 → u.rdN (cupFnGrant f k) = 0) ∧ u.rd (dwyFnQp f) = s.rd (dwyFnQp f) ∧
      (∀ q, q < 16384 → s.fnOfQ q = some f → q ∈ tkeys s.dwy.queues → s.qState q ≠ 0 → (u.dq q).prefetch = [] ∧
        (u.dq q).held = [] ∧ (u.dq q).recv = []) ∧
      (f = 1 → ∀ g, 2 ≤ g → g < 64 → (u.fn g).enabled = false))) ∧
  (∀ (f : Nat) (s : State), f < 64 →
    (∀ l2, (s.fn f).enabled = false → exec (.hostSleepEnter f l2) s = .next s) ∧
    (∀ l2, (s.fn f).enabled = true → ∃ u, exec (.hostSleepEnter f l2) s = .next u ∧ u.fn f = { s.fn f with asleep := true } ∧
      (∀ g, g ≠ f → u.fn g = s.fn g) ∧ u.dwy.linkL2 = l2 ∧ onlyIn [.dwy] s u) ∧
    (∃ u, exec (.hostWake f) s = .next u ∧ (u.fn f).asleep = false ∧ u.dwy.linkL2 = false ∧
      ((s.fn f).enabled = false ∨ (s.fn f).busMaster = false → onlyIn [.dwy, .attic] s u ∧ u.dwy.queues = s.dwy.queues) ∧
      (∀ q, (s.fn f).enabled = true → (s.fn f).busMaster = true → s.fnQueues f = [q] → q < 16384 → (s.dq q).held = [] →
        (u.dq q).sigPending = false ∧ (u.dq q).mirrorDue = false ∧
        ((s.dq q).sigPending = true → shas u.bell.msix (2048 * f + s.rf (dwyQpCfg q) 10 0) = true)))) ∧
  (∀ (f : Nat) (s : State), f < 64 →
    let stage := s.rf atcBootStatus 31 28
    let live : Prop := s.rb dwyLinkStatus 31 = true ∧ (s.fn f).enabled = true
    let retry : Prop := stage ≠ 8 ∧ stage ≠ 9 ∧ stage ≠ 10 ∧ s.cycles < s.dwy.perstRose + 22500000
    let x := s.fn f
    (∀ c w, ¬live → exec (.configRequest f c w) s = .next s) ∧
    (∀ c w, live → retry → ∃ u, exec (.configRequest f c w) s = .next u ∧ u.outbox = s.outbox ++ [.config f true] ∧
      onlyIn [.outbox] s u) ∧
    (live → ¬retry →
      (∃ u, exec (.configRequest f .msixEnable none) s = .next u ∧ u.rdata = (if x.msixEn = true then 1 else 0) ∧
        onlyIn [.rdata, .outbox] s u) ∧
      (∃ u, exec (.configRequest f .busMaster none) s = .next u ∧ u.rdata = (if x.busMaster = true then 1 else 0) ∧
        onlyIn [.rdata, .outbox] s u) ∧
      (∀ b, ∃ u, exec (.configRequest f .msixEnable (some b)) s = .next u ∧ u.fn f = { x with msixEn := b } ∧
        (∀ g, g ≠ f → u.fn g = s.fn g) ∧ u.outbox = s.outbox ++ [.config f false] ∧ onlyIn [.dwy, .outbox] s u) ∧
      (∀ b, ∃ u, exec (.configRequest f .msixMask (some b)) s = .next u ∧ u.fn f = { x with msixMask := b } ∧
        onlyIn [.dwy, .outbox] s u) ∧
      (∀ b, ∃ u, exec (.configRequest f .pmeEnable (some b)) s = .next u ∧ u.fn f = { x with pmeEn := b } ∧
        onlyIn [.dwy, .outbox] s u) ∧
      (∃ u, exec (.configRequest f .busMaster (some false)) s = .next u ∧ u.fn f = { x with busMaster := false } ∧
        onlyIn [.dwy, .outbox] s u) ∧
      (f = 1 → ∃ u, exec (.configRequest f .vfEnable (some true)) s = .next u ∧ onlyIn [.dwy, .outbox] s u ∧
        ∀ g, 2 ≤ g → g < 64 → (u.fn g).enabled = true) ∧
      (f ≠ 1 → ∀ b, ∃ u, exec (.configRequest f .vfEnable (some b)) s = .next u ∧ onlyIn [.outbox] s u)))

/-- The host reads and writes the memory window; lines it holds come back before the part writes them. An access
outside a decoder range, or in the wrong link mode, reads all ones and discards writes. A write of one burst that the
host may make, with its line not held, puts its bytes in Cellar at the partition's start plus the offset and nowhere
else, and marks its burst poisoned where it is poisoned; a read returns the bytes there, a poisoned one says so, and a
read that keeps its line in CXL 3.1 mode is tracked. A back-invalidation response takes the line from the tracker and
lets a write that waited for it alone take effect. -/
def Obligations.DoorwayWindowAndLines : Prop :=
  (∀ (bar4 hold : Bool) (range off len : Nat) (w : Option (List Byte × Bool)) (s : State),
    let n (w : Option (List Byte × Bool)) : Nat := match w with
      | some p => p.1.length
      | none => len
    let up := s.rb dwyLinkStatus 31
    let pcie : Prop := s.rf dwyLinkStatus 7 6 = 0
    (up = false ∨ (bar4 = true ∧ ¬pcie) ∨ (bar4 = false ∧ pcie) ∨ (bar4 = false ∧ 2 ≤ range) ∨ 68719476736 ≤ off →
      s.windowAddr bar4 range off (n w) = none) ∧
    (bar4 = false → up = true → ¬pcie → range < 2 → off + n w ≤ (s.part (if range = 0 then 3 else 2)).2 → off < 68719476736 →
      s.windowAddr bar4 range off (n w) = some ((s.part (if range = 0 then 3 else 2)).1 + off)) ∧
    (s.windowAddr bar4 range off (n w) = none → match w with
      | some _ => exec (.hostMemAccess bar4 range off w len hold) s = .next s
      | none => exec (.hostMemAccess bar4 range off none len hold) s = .next { s with rdata := 2 ^ (8 * len) - 1 })) ∧
  (∀ (bar4 : Bool) (range off a : Nat) (bs : List Byte) (poison hold : Bool) (len : Nat) (s : State),
    s.windowAddr bar4 range off 32 = some a → bs.length = 32 → a % 32 = 0 → s.chFailed a = false →
    s.heldOverlap 0x15 a 32 = false → s.sound →
    ∃ u, exec (.hostMemAccess bar4 range off (some (bs, poison)) len hold) s = .next u ∧
      (∀ k, k < 32 → tget 0 u.cel.mem (a + k) = bs.getD k 0) ∧
      (∀ b, b < a ∨ a + 32 ≤ b → tget 0 u.cel.mem b = tget 0 s.cel.mem b) ∧
      shas u.cel.poison (a / 32) = poison ∧ u.sound ∧ onlyIn [.regs, .ecc, .mast, .cel] s u) ∧
  (∀ (range off a : Nat) (hold : Bool) (s : State),
    s.windowAddr false range off 32 = some a → a % 32 = 0 → s.chFailed a = false →
    s.eccOf .cellar (a / 32) = .ok → s.cel.held = [] →
    let bs := memRead 0 s.cel.mem a 32
    let poisoned := shas s.cel.poison (a / 32)
    ∃ u, exec (.hostMemAccess false range off none 32 hold) s = .next u ∧
      u.rdata = (if poisoned = true then 2 ^ 256 else leNat bs) ∧ u.cel.mem = s.cel.mem ∧
      (hold = false → u.dwy = s.dwy) ∧
      (hold = true → s.rf dwyLinkStatus 7 6 = 2 → (a / 64) ∈ u.dwy.tracker)) ∧
  (∀ (line : Nat) (s : State),
    (s.cel.held = [] → ∃ u, exec (.backInvalidateResponse line) s = .next u ∧
      u.dwy.tracker = s.dwy.tracker.filter (· != line) ∧ u.cel = s.cel ∧ onlyIn [.dwy] s u) ∧
    (∀ h, s.cel.held = [h] → h.lines = [line] → s.sound → h.addr % 32 = 0 → h.bytes.length = 32 →
      ∃ u, exec (.backInvalidateResponse line) s = .next u ∧ u.cel.held = [] ∧
        (∀ k, k < 32 → tget 0 u.cel.mem (h.addr + k) = h.bytes.getD k 0) ∧
        (∀ b, b < h.addr ∨ h.addr + 32 ≤ b → tget 0 u.cel.mem b = tget 0 s.cel.mem b)) ∧
    (∀ h, s.cel.held = [h] → (∃ l ∈ h.lines, l ≠ line) → ∃ u, exec (.backInvalidateResponse line) s = .next u ∧
      u.cel.held = [{ h with lines := h.lines.filter (· != line) }] ∧ u.cel.mem = s.cel.mem))

/-- One request of a Cellar read or write: partitions, failed channels, ECC, poison, and what memory holds after. For
a request within one 256-byte block. Outside its requester's partitions it is refused: ACCESS is set with the address
latched, nothing of Cellar changes, a read answers poison. On a failed channel a read answers poison and a write is
discarded. Else a read of sound bursts answers the bytes as its requester sees them and changes no memory; a
correctable error is corrected and flagged; an uncorrectable one poisons the burst, and a poisoned burst answers
poison (0 stands for it in rdata: the model's choice). A write that no host line and no waiting write of its requester
holds back replaces exactly its bytes; poison marks every burst it touches, a whole burst written without poison loses
poison and errors. Held back, memory stands and the write waits in order with its lines. -/
def Obligations.CellarRequestsOfARequester : Prop :=
  let inBlock (a n : Nat) : Prop := 0 < n ∧ a % 256 + n ≤ 256
  let touches (a n b : Nat) : Prop := a / 32 ≤ b ∧ b ≤ (a + n - 1) / 32
  (∀ (req addr len : Nat) (e : Ecc) (s : State), inBlock addr len → addr < 2 ^ 37 →
    let sound : Prop := ∀ b, touches addr len b → s.eccOf .cellar b = .ok
    let clean : Prop := ∀ b, touches addr len b → shas s.cel.poison b = false
    let gives (P : State → Prop) : Prop := ∃ u, exec (.cellarRead req addr len e) s = .next u ∧ u.cel.mem = s.cel.mem ∧
      u.cel.held = s.cel.held ∧ onlyIn [.regs, .rdata, .ecc, .mast, .cel] s u ∧ P u
    let data := leNat (memRead 0 (s.celView req) addr len)
    (s.reach req addr len = false → gives fun u => u.rdata = 0 ∧ u.rb celErr 3 = true ∧ u.rd64 celErrAddrLo = addr ∧
      u.rf celErrInfo 31 24 = req % 256 ∧ u.rf celErrInfo 23 21 = 2 ∧ u.cel = s.cel) ∧
    (s.reach req addr len = true → s.chFailed addr = true → gives fun u => u.rdata = 0 ∧ u.cel = s.cel) ∧
    (s.reach req addr len = true → s.chFailed addr = false → sound → clean → e = .ok → gives fun u => u.rdata = data ∧
      u.ecc = s.ecc ∧ u.cel.poison = s.cel.poison ∧
      (s.rf (celStkStatus (celStack addr)) 31 30 = 1 ∨ s.rf (celStkStatus (celStack addr)) 31 30 = 2 →
        u.rf (celStkStatus (celStack addr)) 31 30 = 3)) ∧
    (s.reach req addr len = true → s.chFailed addr = false → sound → clean → e = .corr → gives fun u => u.rdata = data ∧
      u.rb celErr 1 = true ∧ u.eccOf .cellar (addr / 32) = .ok ∧ u.cel.poison = s.cel.poison) ∧
    (s.reach req addr len = true → s.chFailed addr = false → sound → e = .uncorr → gives fun u => u.rdata = 0 ∧
      u.rb celErr 2 = true ∧ shas u.cel.poison (addr / 32) = true ∧
      (∀ b, b ≠ addr / 32 → shas u.cel.poison b = shas s.cel.poison b)) ∧
    (s.reach req addr len = true → s.chFailed addr = false → sound → e = .ok → ¬clean → gives fun u => u.rdata = 0 ∧
      u.cel.poison = s.cel.poison)) ∧
  (∀ (req addr : Nat) (data : List Byte) (poison : Bool) (s : State), inBlock addr data.length → addr < 2 ^ 37 →
    let n := data.length
    let lines := if req = 0x15 then [] else s.hostLines addr n
    let free : Bool := lines.isEmpty && !(s.heldOverlap req addr n)
    let out := exec (.cellarWrite req addr data poison) s
    (s.reach req addr n = false → ∃ u, out = .next u ∧ u.rb celErr 3 = true ∧ u.rd64 celErrAddrLo = addr ∧ u.cel = s.cel ∧
      onlyIn [.regs, .mast] s u) ∧
    (s.reach req addr n = true → s.chFailed addr = true → ∃ u, out = .next u ∧ u.cel = s.cel ∧ onlyIn [.regs, .mast] s u) ∧
    (s.reach req addr n = true → s.chFailed addr = false → free = true → ∃ u, out = .next u ∧
      (∀ x, tget 0 u.cel.mem x = if addr ≤ x ∧ x < addr + n then data.getD (x - addr) 0 else tget 0 s.cel.mem x) ∧
      u.cel.held = s.cel.held ∧ (poison = true → ∀ b, touches addr n b → shas u.cel.poison b = true) ∧
      (poison = false → ∀ b, addr ≤ 32 * b → 32 * b + 32 ≤ addr + n →
        shas u.cel.poison b = false ∧ u.eccOf .cellar b = .ok) ∧
      (∀ b, ¬touches addr n b → shas u.cel.poison b = shas s.cel.poison b ∧ u.eccOf .cellar b = s.eccOf .cellar b) ∧
      onlyIn [.regs, .ecc, .mast, .cel] s u) ∧
    (s.reach req addr n = true → s.chFailed addr = false → free = false → ∃ u, out = .next u ∧ u.cel.mem = s.cel.mem ∧
      u.cel.held = s.cel.held ++ [⟨req, addr, data, poison, lines⟩] ∧ u.cel.poison = s.cel.poison ∧
      onlyIn [.regs, .mast, .cel, .outbox] s u))

/-- Refresh, self-refresh, activation windows, command parity, patrol scrub, CEL_PART and CEL_LOCK. A bank refresh of
an active stack closes the bank's row and lowers its RAA by RAAIMT. Self-refresh entry closes a stack's rows where
IDLE_US allows it, exit makes it active, a scrub wake too. The temperature bounds set and clear HOT. At the end of an
activation window with a LIMIT each bank over it throttles one of its requesters, with the most activations there, for
THROTTLE_US; a LIMIT of 0 starts none; the counts start again. A parity alert sets CA_PARITY and leaves memory; a
fourth within 1 ms of the first marks the channel failed. The scrub takes the next block: corrects, or poisons.
CEL_PART takes sizes that R444 allows while unlocked; LOCKED is never cleared by a write. -/
def Obligations.CellarStacksAndRegisters : Prop :=
  (∀ (k pch bank : Nat) (s : State), k < 4 →
    (s.rf (celStkStatus k) 31 30 ≠ 0 → exec (.bankRefresh k pch bank) s = .next s) ∧
    (s.rf (celStkStatus k) 31 30 = 0 → ∃ u, exec (.bankRefresh k pch bank) s = .next u ∧
      let b := (k * 32 + pch) * 64 + bank
      tfind u.cel.openRow b = none ∧ tget 0 u.cel.raa b = tget 0 s.cel.raa b - s.cel.raaimt ∧ u.cel.mem = s.cel.mem ∧
      (∀ c, c ≠ b → tfind u.cel.openRow c = tfind s.cel.openRow c ∧ tget 0 u.cel.raa c = tget 0 s.cel.raa c) ∧
      onlyIn [.regs, .mast, .cel] s u)) ∧
  (∀ (k : Nat) (s : State), k < 4 →
    let st := celStkStatus k
    (¬(s.rf st 31 30 = 0 ∧ s.rf celSrCfg 15 0 ≠ 0 ∧ s.rf atcPwrStatus 31 30 = 1) →
      exec (.selfRefreshEntry k) s = .next s) ∧
    (s.rf st 31 30 = 0 → s.rf celSrCfg 15 0 ≠ 0 → s.rf atcPwrStatus 31 30 = 1 →
      ∃ u, exec (.selfRefreshEntry k) s = .next u ∧ u.rf st 31 30 = 2 ∧
        (∀ b, b / 2048 = k → tfind u.cel.openRow b = none) ∧
        (∀ b, b / 2048 ≠ k → tfind u.cel.openRow b = tfind s.cel.openRow b) ∧
        u.cel = { s.cel with openRow := u.cel.openRow } ∧ onlyIn [.regs, .mast, .cel] s u) ∧
    (∃ u, exec (.selfRefreshExit k) s = .next u ∧ u.rf st 31 30 = 0 ∧ onlyIn [.regs, .mast] s u) ∧
    (s.rf st 31 30 ≠ 2 → exec (.scrubWake k) s = .next s) ∧
    (s.rf st 31 30 = 2 → ∃ u, exec (.scrubWake k) s = .next u ∧ u.rf st 31 30 = 0 ∧ onlyIn [.regs, .mast] s u) ∧
    (∀ temp, temp < 256 → ∃ u, exec (.stackTemperatureChange k temp) s = .next u ∧ u.rf st 23 16 = temp ∧
      (85 ≤ temp → u.rb st 29 = true) ∧ (temp < 80 → u.rb st 29 = false) ∧
      (80 ≤ temp → temp < 85 → u.rb st 29 = s.rb st 29) ∧ (∀ a, a ≠ st → u.rd a = s.rd a) ∧ onlyIn [.regs] s u)) ∧
  (∀ s : State,
    let limit := s.rf celActCfg 31 24
    let us := s.ns / 1000
    let beyond (b : Nat) : Prop := limit < ((bankActs s.cel.acts b).map (·.2)).sum
    ∃ u, exec .activationWindowEnd s = .next u ∧ u.cel.acts = [] ∧ u.cel.mem = s.cel.mem ∧
      onlyIn [.regs, .mast, .cel] s u ∧
      (limit = 0 → u.cel.throttles = s.cel.throttles.filter fun t => decide (us < t.untilUs)) ∧
      (∀ b, limit ≠ 0 → beyond b → u.rb celErr 6 = true ∧ (s.rf celActCfg 11 0 ≠ 0 → ∃ r n, (r, n) ∈ bankActs s.cel.acts b ∧
        (∀ p ∈ bankActs s.cel.acts b, p.2 ≤ n) ∧ ⟨b, r, us + s.rf celActCfg 11 0⟩ ∈ u.cel.throttles)) ∧
      (∀ t ∈ u.cel.throttles, t ∈ s.cel.throttles ∨ (limit ≠ 0 ∧ beyond t.bank))) ∧
  (∀ (k ch : Nat) (s : State), k < 4 → ch < 16 →
    let n := (tget (0, 0) s.cel.alerts (k * 16 + ch)).1
    let t0 := (tget (0, 0) s.cel.alerts (k * 16 + ch)).2
    let again : Prop := n ≠ 0 ∧ s.ns < t0 + 1000000
    ∃ u, exec (.caParityAlert k ch) s = .next u ∧ u.rb celErr 4 = true ∧ u.cel.mem = s.cel.mem ∧
      u.cel.poison = s.cel.poison ∧ u.cel.retry = s.cel.retry ∧ onlyIn [.regs, .mast, .cel] s u ∧
      (again → tget (0, 0) u.cel.alerts (k * 16 + ch) = (n + 1, t0)) ∧
      (¬again → tget (0, 0) u.cel.alerts (k * 16 + ch) = (1, s.ns)) ∧
      (again → 3 ≤ n → u.rb (celStkChfail k) ch = true ∧ u.rb celErr 5 = true) ∧
      (again → n < 3 → u.rd (celStkChfail k) = s.rd (celStkChfail k)) ∧
      (¬again → u.rd (celStkChfail k) = s.rd (celStkChfail k))) ∧
  (∀ (k pch : Nat) (e : Ecc) (s : State),
    let p := k * 32 + pch
    let b := scrubAddr k pch (tget 0 s.cel.scrubPos p) / 32
    (s.rb celScrubCtl 0 = false → exec (.patrolScrub k pch e) s = .next s) ∧
    (s.rb celScrubCtl 0 = true → (∀ j, j < 8 → s.eccOf .cellar (b + j) = .ok) →
      ∃ u, exec (.patrolScrub k pch e) s = .next u ∧ tget 0 u.cel.scrubPos p = tget 0 s.cel.scrubPos p + 1 ∧
        u.cel.mem = s.cel.mem ∧ u.eccOf .cellar b = .ok ∧ onlyIn [.regs, .ecc, .mast, .cel] s u ∧
        (e ≠ .uncorr → u.cel.poison = s.cel.poison) ∧ (e = .corr → u.rb celErr 1 = true) ∧
        (e = .uncorr → u.rb celErr 2 = true ∧ shas u.cel.poison b = true))) ∧
  (∀ (v : Word) (s : State),
    let fits : Prop := 1 ≤ fld v 15 8 ∧ fld v 15 8 ≤ 128 ∧ fld v 7 0 ≤ 128 ∧ fld v 23 16 ≤ 32 ∧ fld v 31 24 ≤ 32 ∧
      fld v 7 0 + fld v 15 8 + fld v 23 16 + fld v 31 24 ≤ 128
    (s.rb celLock 0 = true ∨ ¬fits → exec (.celPartWrite v) s = .next (s.setB celErr 0)) ∧
    (s.rb celLock 0 = false → fits → ∃ u, exec (.celPartWrite v) s = .next u ∧ u.rd celPart = v ∧
      (∀ a, a ≠ celPart → u.rd a = s.rd a) ∧ onlyIn [.regs] s u) ∧
    (v.getLsbD 0 = false → exec (.celLockWrite v) s = .next (s.setB celErr 0)) ∧
    (v.getLsbD 0 = true → ∃ u, exec (.celLockWrite v) s = .next u ∧ u.rb celLock 0 = true ∧
      (∀ a, a ≠ celLock → u.rd a = s.rd a) ∧ onlyIn [.regs] s u))

/-- QUANTA takes values from 1,024 to 65,535; a smaller one is discarded and sets PFC_CFG_BAD. For every port whose
register answers: a write of PCH_PFC_CFG whose QUANTA is 1,024 to 65,535 (the field's 16 bits go no higher) gives the
field that value and changes no other register; a write whose QUANTA is below 1,024 leaves PCH_PFC_CFG and every other
register as they are, but for PFC_CFG_BAD of that port, which is 1 after it. -/
def Obligations.PfcQuantaBelowTheLimitAreRefused : Prop :=
  ∀ (n : Nat) (v : Word) (s : State), n < 512 → s.windowShut (pchPfcCfg n) = false →
    fld v 15 0 ≤ 65535 ∧
    (1024 ≤ fld v 15 0 → ∃ u, exec (.registerWrite (pchPfcCfg n) v) s = .next u ∧ u.rf (pchPfcCfg n) 15 0 = fld v 15 0 ∧
      (∀ a, a ≠ pchPfcCfg n → u.rd a = s.rd a) ∧ onlyIn [.regs, .bell] s u) ∧
    (fld v 15 0 < 1024 → ∃ u, exec (.registerWrite (pchPfcCfg n) v) s = .next u ∧ u.rd (pchPfcCfg n) = s.rd (pchPfcCfg n) ∧
      u.rd (pchPortErr n) = s.rd (pchPortErr n) ||| 4#32 ∧ (∀ a, a ≠ pchPortErr n → u.rd a = s.rd a) ∧
      onlyIn [.regs, .bell] s u)

/-- Words 0 to 2 of a port default are held and take effect with word 3, or the old default stands whole. For every
port and class: a write of word 0, 1 or 2 of HLW_PORT_DFLT changes no register and is held; a write of word 3 whose
four words (the held ones and its own) pass R113 and R124 puts all four in force at once; where they do not pass, all
four words of the old default stand and HLW_CMD_STATUS.RESULT is 0x01. No other register changes. -/
def Obligations.PortDefaultsAreWrittenWhole : Prop :=
  ∀ (n c : Nat) (v : Word) (s : State), n < 512 → c < 4 →
    let a (w : Nat) : Nat := hlwPortDflt (4 * n + c) w
    let act (h : Nat → Word) : Nat := (h 0).toNat + (h 1).toNat * 2 ^ 32 + (h 2).toNat * 2 ^ 64 + v.toNat * 2 ^ 96
    (∀ w, w < 3 → s.windowShut (a w) = false → ∃ u, exec (.registerWrite (a w) v) s = .next u ∧ (∀ b, u.rd b = s.rd b) ∧
      tfind u.held (a w) = some v ∧ (∀ b, b ≠ a w → tfind u.held b = tfind s.held b) ∧ onlyIn [.held, .bell] s u) ∧
    (∀ h : Nat → Word, (∀ w, w < 3 → tfind s.held (a w) = some (h w)) → defaultOk (BitVec.ofNat 128 (act h)) = true →
      ∃ u, exec (.portDefaultWrite n c v) s = .next u ∧ (∀ w, w < 3 → u.rd (a w) = h w) ∧ u.rd (a 3) = v ∧
      (∀ b, (∀ w, w < 4 → b ≠ a w) → u.rd b = s.rd b) ∧ onlyIn [.regs, .held] s u) ∧
    (∀ h : Nat → Word, (∀ w, w < 3 → tfind s.held (a w) = some (h w)) → defaultOk (BitVec.ofNat 128 (act h)) = false →
      ∃ u, exec (.portDefaultWrite n c v) s = .next u ∧
      (∀ w, w < 4 → u.rd (a w) = s.rd (a w)) ∧ u.rf hlwCmdStatus 31 24 = 1 ∧
      (∀ b, b ≠ hlwCmdStatus → u.rd b = s.rd b) ∧ onlyIn [.regs, .held] s u)

/-- Reports presented, taken, logged and acted on; the log read; monitors; the self-check; FAULT_ALIVE; injection;
isolations released. A report waits, or merges with the waiting one of its source and instance; a reserved source has
none. The lowest waiting report is taken: its entry is logged with the action that the source's configuration, its
count in the escalation window and R508 give; the class bit is set, the instance isolated, or safe state entered with
its first source kept; a first fatal one is held in MST_FIRST. A monitor reports once while its condition stands and
MST_MON shows conditions. A failed self-check latches safe state with FAULT_ALIVE low, which else toggles. Injection
acts only in test mode: KIND stands, or a report waits. A selected entry is copied if held. A release clears isolation
bits. (The INFO of an injected report is free.) -/
def Obligations.MastheadReportsLogAndMonitors : Prop :=
  let untold (s : State) (src inst : Nat) : Prop := ∀ r ∈ s.mast.waiting, ¬(r.src = src ∧ r.inst = inst)
  (∀ (src inst : Nat) (info : Word) (s : State),
    (srcReserved src = true ∨ 65536 ≤ inst → exec (.reportPresent src inst info) s = .next s) ∧
    (srcReserved src = false → inst < 65536 → ∃ u, exec (.reportPresent src inst info) s = .next u ∧
      (untold s src inst → ∀ q, q ∈ u.mast.waiting ↔ q = ⟨src, inst, info, 0⟩ ∨ q ∈ s.mast.waiting) ∧
      (∀ before q after, s.mast.waiting = before ++ q :: after → q.src = src → q.inst = inst →
        (∀ p ∈ before, p.src < src ∨ (p.src = src ∧ p.inst < inst)) →
        u.mast.waiting = before ++ { q with merged := min 65535 (q.merged + 1) } :: after) ∧
      onlyIn [.regs, .mast] s u)) ∧
  (∀ s : State, s.mast.waiting = [] → exec .reportTake s = .next s) ∧
  (∀ (r : Report) (rest : List Report) (s : State), s.mast.waiting = r :: rest →
    let c := mstSrcCfg r.src
    let k := srcClass r.src
    let w := s.ns / (max 1 (s.rf mstEscWindow 15 0) * 1000000)
    let n := (if w = s.mast.escWindow then tget 0 s.mast.esc r.src else 0) + 1
    let up : Bool := decide (s.rf c 15 0 ≠ 0 ∧ s.rf c 15 0 ≤ n ∧ s.rf c 31 29 < s.rf c 28 26)
    let named := if up then s.rf c 28 26 else s.rf c 31 29
    let act := if named = 2 ∧ isoKind r.src = .none then 3 else named
    let N := s.rdN mstLogNext
    let words : List Word := [r.inst * 2 ^ 16 + nat up * 2 ^ 14 + act * 2 ^ 11 + k * 2 ^ 8 + r.src, r.info.toNat,
      s.ns % 2 ^ 32, s.ns / 2 ^ 32, r.merged, 0, 0, 0].map (BitVec.ofNat 32 ·)
    ∃ u, exec .reportTake s = .next u ∧
      (∀ e, e ∈ u.mast.log ↔ e = ⟨N, words, false⟩ ∨ (e ∈ s.mast.log ∧ e.n + 256 ≠ N)) ∧
      u.rdN mstLogNext = (N + 1) % 2 ^ 32 ∧
      (k = 3 → s.mast.firstHeld = false → u.mast.firstHeld = true ∧ ∀ j, j < 8 → u.rd (mstFirst j) = words.getD j 0) ∧
      (k ≠ 3 ∨ s.mast.firstHeld = true → ∀ j, j < 8 → u.rd (mstFirst j) = s.rd (mstFirst j)) ∧
      (act = 0 → u.mast.waiting = rest ∧ u.rd mstNotify = s.rd mstNotify ∧ onlyIn [.regs, .mast] s u) ∧
      (act = 1 → u.mast.waiting = rest ∧ u.rb mstNotify k = true ∧ onlyIn [.regs, .mast] s u) ∧
      (act = 2 → u.rb mstNotify k = true ∧ shas u.bell.pulses 1281 = true ∧
        (isoKind r.src = .slice → r.inst < 16 → u.rb mstIsoStatus r.inst = true) ∧
        (isoKind r.src = .chiplet → r.inst < 8 → u.rb mstIsoStatus (24 + r.inst) = true) ∧
        (isoKind r.src = .doorway → u.rb mstIsoStatus 16 = true) ∧
        (isoKind r.src = .channel → r.inst < 64 → u.rb (celStkChfail (r.inst / 16)) (r.inst % 16) = true) ∧
        (isoKind r.src = .engine → r.inst < 512 → u.rf (lftEngStatus r.inst) 31 30 = 1)) ∧
      (act = 3 → r.src < 256 → (named = 2 → u.rb mstNotify k = true) ∧
        (s.inSafe = false → u.rf mstStatus 31 30 = (if 8 ≤ s.recoveries then 2 else 1) ∧ u.rf mstStatus 7 0 = r.src ∧
          u.mast.alivePin = false) ∧
        (s.inSafe = true → u.rd mstStatus = s.rd mstStatus)) ∧
      (s.inSafe = true → 1 ≤ k → u.mast.quietFrom = s.cycles)) ∧
  (∀ (v : Word) (s : State),
    (∀ e, s.mast.log.find? (fun e => e.n == fld v 30 0) = some e → ∃ u, exec (.logSelect v) s = .next u ∧
      u.rb mstLogSel 31 = true ∧ u.rf mstLogSel 30 0 = fld v 30 0 ∧
      (∀ j, j < 8 → u.rd (mstLogData j) = e.words.getD j 0) ∧ onlyIn [.regs, .mast] s u) ∧
    (s.mast.log.find? (fun e => e.n == fld v 30 0) = none → ∃ u, exec (.logSelect v) s = .next u ∧
      u.rb mstLogSel 31 = false ∧ u.rf mstLogSel 30 0 = fld v 30 0 ∧ onlyIn [.regs] s u)) ∧
  (∀ (src inst : Nat) (info : Word) (s : State),
    let there : Prop := (src, inst) ∈ s.mast.mons
    let shows (u : State) : Prop := ∀ b, b < 5 → u.rb mstMon b = u.mast.mons.any fun m => monBit m.1 == some b
    (src < 2 ∨ 8 < src ∨ 65536 ≤ inst ∨ there → exec (.monitorDetect src inst info) s = .next s) ∧
    (2 ≤ src → src ≤ 8 → inst < 65536 → ¬there → ∃ u, exec (.monitorDetect src inst info) s = .next u ∧
      u.mast.mons = (src, inst) :: s.mast.mons ∧ shows u ∧
      (untold s src inst → ⟨src, inst, info, 0⟩ ∈ u.mast.waiting) ∧ onlyIn [.regs, .mast] s u) ∧
    (∃ u, exec (.monitorClear src inst) s = .next u ∧ u.mast.mons = s.mast.mons.filter (· != (src, inst)) ∧ shows u ∧
      u.mast.waiting = s.mast.waiting ∧ onlyIn [.regs, .mast] s u ∧
      u.mast.quietFrom = if s.rd mstMon ≠ 0 ∧ u.rd mstMon = 0 ∧ s.inSafe = true then s.cycles else s.mast.quietFrom)) ∧
  (∀ (p h : Bool) (s : State),
    (p = false → h = false → exec (.selfCheck p h) s = .next s) ∧
    (p = true ∨ h = true → ∃ u, exec (.selfCheck p h) s = .next u ∧ u.rf mstStatus 31 30 = 2 ∧
      u.rb mstStatus 28 = false ∧ u.mast.alivePin = false ∧ u.mast.checkerFired = true ∧
      u.rf mstStatus 7 0 = if s.inSafe then s.rf mstStatus 7 0 else 0)) ∧
  (∀ s : State, ∃ u, exec .aliveToggle s = .next u ∧ onlyIn [.mast] s u ∧
    u.mast = { s.mast with alivePin := u.mast.alivePin } ∧
    (s.rb mstStatus 28 = true → s.inSafe = false → s.mast.checkerFired = false → u.mast.alivePin = !s.mast.alivePin) ∧
    (s.rb mstStatus 28 = false ∨ s.inSafe = true ∨ s.mast.checkerFired = true → u.mast.alivePin = false)) ∧
  (∀ (v : Word) (s : State), ∃ u, exec (.isolationRelease v) s = .next u ∧
    u.rd mstIsoStatus = s.rd mstIsoStatus &&& ~~~v ∧
    (fld (s.rd mstIsoStatus &&& v) 15 0 = 0 → (∀ a, a ≠ mstIsoStatus → u.rd a = s.rd a) ∧ onlyIn [.regs] s u)) ∧
  (∀ (v : Word) (s : State), s.rb mstStatus 29 = false →
    exec (.injectOneBit v) s = .next s ∧ exec (.injectTwoBits v) s = .next s ∧ exec (.injectReport v) s = .next s ∧
    exec (.injectParity v) s = .next s) ∧
  (∀ (v : Word) (s : State), s.rb mstStatus 29 = true →
    let armed (k : Nat) (o : Host.Outcome State Fault Refusal) : Prop := ∃ u, o = .next u ∧ u.rf mstInjCtl 26 24 = k ∧
      u.rf mstInjCtl 23 0 = fld v 23 0 ∧ (∀ a, a ≠ mstInjCtl → u.rd a = s.rd a) ∧ onlyIn [.regs] s u
    armed 1 (exec (.injectOneBit v) s) ∧ armed 2 (exec (.injectTwoBits v) s) ∧ armed 4 (exec (.injectParity v) s) ∧
    (∃ u, exec (.injectReport v) s = .next u ∧ u.rf mstInjCtl 26 24 = 0 ∧ onlyIn [.regs, .freeCtr, .mast] s u ∧
      (srcReserved (fld v 23 16) = true → u.mast.waiting = s.mast.waiting) ∧
      (srcReserved (fld v 23 16) = false → untold s (fld v 23 16) (fld v 15 0) →
        ∃ info, ⟨fld v 23 16, fld v 15 0, info, 0⟩ ∈ u.mast.waiting)))

/-- Safe state entered and left; counters read, found and scrubbed; snapshots taken, skipped and dumped. ENTER in
NORMAL enters SAFE, or SAFE_LATCHED after 8 recoveries in the window, with source 1, every engine stopped, FAULT_ALIVE
low, no port in XOFF; in safe state it changes nothing. EXIT is refused when latched or with a monitor condition, else
gives NORMAL and records the recovery; it leaves by itself only after the quiet period. A counter read answers the
pair and latches its upper word. A directory selection shows BASE and SHAPE, or VALID 0. A scrub mends a pair or
restarts it with WRAP. A snapshot copies the counters, is refused or skipped while one is written, or skipped where
the ring is bad; the dump writes SEQ at both ends of its slot around every pair. Ring changes wait for idle. -/
def Obligations.SafeStateSnapshotsAndCounters : Prop :=
  (∀ s : State,
    (s.inSafe = true → exec .safeEnterWrite s = .next s) ∧
    (s.inSafe = false → ∃ u, exec .safeEnterWrite s = .next u ∧
      u.rf mstStatus 31 30 = (if 8 ≤ s.recoveries then 2 else 1) ∧ u.rf mstStatus 7 0 = 1 ∧
      u.rb mstStatus 28 = false ∧ u.mast.alivePin = false ∧ u.mast.quietFrom = s.cycles ∧
      (∀ e, e < 512 → u.rf (lftEngStatus e) 31 30 = 1) ∧ (∀ n, n < 512 → (u.port n).xoff = 0))) ∧
  (∀ s : State,
    let left (o : Host.Outcome State Fault Refusal) : Prop := ∃ u, o = .next u ∧ u.rf mstStatus 31 30 = 0 ∧
      u.mast.recov = (s.ns :: s.mast.recov).take 8 ∧ u.rf mstRecov 31 16 = min 65535 (s.rf mstRecov 31 16 + 1) ∧
      shas u.bell.pulses 1283 = true ∧ u.rd mstIsoStatus = s.rd mstIsoStatus
    (s.inSafe = false → exec .safeExitWrite s = .next s) ∧
    (s.rf mstStatus 31 30 = 2 ∨ (s.inSafe = true ∧ s.rd mstMon ≠ 0) →
      exec .safeExitWrite s = .next (s.setB mstSafeCtl 2)) ∧
    (s.inSafe = true → s.rf mstStatus 31 30 ≠ 2 → s.rd mstMon = 0 → left (exec .safeExitWrite s)) ∧
    (s.rf mstStatus 31 30 ≠ 1 ∨ s.rb mstSafeCfg 31 = false ∨ s.rd mstMon ≠ 0 ∨
        s.cycles < s.mast.quietFrom + s.rf mstSafeCfg 15 0 * 25000 → exec .safeAutoExit s = .next s) ∧
    (s.rf mstStatus 31 30 = 1 → s.rb mstSafeCfg 31 = true → s.rd mstMon = 0 →
      s.mast.quietFrom + s.rf mstSafeCfg 15 0 * 25000 ≤ s.cycles → left (exec .safeAutoExit s))) ∧
  (∀ s : State,
    let v := pairValue s.mast.ctrs (s.rf cntRdSel 19 0)
    ∃ u, exec .counterRead s = .next u ∧ u.rdata = v.1 ∧ tfind u.latch cntRdHi = some (BitVec.ofNat 32 v.2) ∧
      onlyIn [.rdata, .latch] s u) ∧
  (∀ (v : Word) (s : State), ∃ u, exec (.counterDirectorySelect v) s = .next u ∧ onlyIn [.regs] s u ∧
    u.rf cntDirSel 20 0 = fld v 20 0 ∧
    (dirShape (fld v 20 16) (fld v 15 0) = none → u.rb cntDirBase 31 = false ∧ u.rdN cntDirShape = 0) ∧
    (∀ x y, dirShape (fld v 20 16) (fld v 15 0) = some (x, y) → u.rb cntDirBase 31 = true ∧
      u.rf cntDirBase 19 0 = Config.counterBase (fld v 20 16 * 256 + fld v 15 0) % 2 ^ 20 ∧
      u.rdN cntDirShape = (x * 2 ^ 16 + y) % 2 ^ 32)) ∧
  (∀ (ev o k : Nat) (s : State),
    let key := ctrKey ev o k
    let p := pairOf key
    s.eccOf .counter key = .ok →
    exec (.counterScrub ev o k .ok) s = .next s ∧
    (∃ u, exec (.counterScrub ev o k .corr) s = .next u ∧ u.eccOf .counter key = .ok ∧
      onlyIn [.regs, .ecc, .mast] s u ∧
      ((∀ r ∈ s.mast.waiting, r.src ≠ 0x34) → u.mast.ctrs = s.mast.ctrs ∧
        ⟨0x34, dieOf ev o, BitVec.ofNat 32 p, 0⟩ ∈ u.mast.waiting)) ∧
    (∃ u, exec (.counterScrub ev o k .uncorr) s = .next u ∧ u.eccOf .counter key = .ok ∧
      u.rb (cntWrap (p / 32)) (p % 32) = true ∧ onlyIn [.regs, .ecc, .mast] s u ∧
      ((∀ r ∈ s.mast.waiting, r.src ≠ 0x35) → tget (0, 0) u.mast.ctrs key = (0, 0) ∧
        (∀ j, j ≠ key → tget (0, 0) u.mast.ctrs j = tget (0, 0) s.mast.ctrs j) ∧
        ⟨0x35, dieOf ev o, BitVec.ofNat 32 p, 0⟩ ∈ u.mast.waiting))) ∧
  (∀ s : State,
    let ring : Bool := s.dumpArea (s.rd64 cntDumpBaseLo) (s.rf cntDumpCfg 31 24 * dumpSlot) 4096
    let per := s.rf cntDumpCfg 13 0 * 1000000
    let T := s.ns / per * per
    let due : Prop := per ≠ 0 ∧ s.mast.snapPeriod < T
    let taken (t : Nat) (manual : Bool) (u : State) : Prop := u.rb cntDumpCtl 31 = true ∧ u.mast.snapSkipped = false ∧
      ∃ x, u.mast.snap = some x ∧ x.time = t ∧ x.manual = manual ∧ x.skipped = s.mast.snapSkipped ∧
        x.period = s.rf cntDumpCfg 13 0 ∧ x.slots = s.rf cntDumpCfg 31 24 ∧ x.base = s.rd64 cntDumpBaseLo ∧
        x.ctrs = s.mast.ctrs
    let skipped (u : State) : Prop := u.mast.snap = s.mast.snap ∧ u.mast.snapSkipped = true ∧
      shas u.bell.pulses 1285 = true
    (s.mast.snap ≠ none → exec .snapWrite s = .next (s.setB cntDumpCtl 30)) ∧
    (s.mast.snap = none → ring = true → ∃ u, exec .snapWrite s = .next u ∧ taken s.ns true u ∧
      onlyIn [.regs, .mast] s u) ∧
    (s.mast.snap = none → ring = false → ∃ u, exec .snapWrite s = .next u ∧ skipped u ∧ u.rb cntDumpCtl 29 = true ∧
      onlyIn [.regs, .mast, .bell] s u) ∧
    (¬due → exec .counterSnapshot s = .next s) ∧
    (due → ∃ u, exec .counterSnapshot s = .next u ∧ u.mast.snapPeriod = T ∧ onlyIn [.regs, .mast, .bell] s u ∧
      (s.mast.snap ≠ none → skipped u) ∧ (s.mast.snap = none → ring = true → taken T false u) ∧
      (s.mast.snap = none → ring = false → skipped u ∧ u.rb cntDumpCtl 29 = true))) ∧
  (∀ s : State, s.mast.snap = none → exec .dumpComplete s = .next s) ∧
  (∀ (x : Snap) (s : State), s.mast.snap = some x →
    let slot := x.base + s.mast.dumpSeq % x.slots * dumpSlot
    ∃ u, exec .dumpComplete s = .next u ∧ u.mast.snap = none ∧ u.mast.dumpSeq = (s.mast.dumpSeq + 1) % 2 ^ 32 ∧
      u.rb cntDumpCtl 31 = false ∧ shas u.bell.pulses 1284 = true ∧
      onlyIn [.regs, .ecc, .mast, .bell, .cel, .outbox] s u ∧
      (x.slots ≠ 0 → s.dumpArea x.base (x.slots * dumpSlot) 4096 = true →
        (∀ k, k < 4 → s.rd (celStkChfail k) = 0#32) → s.rb dwyLinkStatus 31 = false → s.cel.held = [] →
        (∀ v, v < 64 → s.rb (cntViewCfg v) 31 = false) →
        memRead 0 u.cel.mem slot 4 = natLe 4 s.mast.dumpSeq ∧
        memRead 0 u.cel.mem (slot + 4092) 4 = natLe 4 s.mast.dumpSeq ∧
        memRead 0 u.cel.mem (slot + 8) 8 = natLe 8 x.time ∧
        (∀ k, k < 1048576 → memRead 0 u.cel.mem (slot + 4096 + 8 * k) 8 =
          natLe 4 (pairValue x.ctrs k).1 ++ natLe 4 (pairValue x.ctrs k).2) ∧
        (∀ y, y < slot ∨ slot + dumpSlot ≤ y → tget 0 u.cel.mem y = tget 0 s.cel.mem y))) ∧
  (∀ (v w : Word) (s : State),
    let idle : Prop := s.rf cntDumpCfg 13 0 = 0 ∧ s.rb cntDumpCtl 31 = false
    let ok : Prop := fld v 31 24 ≠ 0 ∧ fld v 13 0 ≤ 10000 ∧ (fld v 31 24 = s.rf cntDumpCfg 31 24 ∨ idle)
    let rejects (o : Host.Outcome State Fault Refusal) : Prop := ∃ u, o = .next u ∧ u.rb mstErr 0 = true ∧
      (∀ a, a ≠ mstErr → u.rd a = s.rd a) ∧ onlyIn [.regs, .held, .bell] s u
    (ok → ∃ u, exec (.dumpCfgWrite cntDumpCfg v) s = .next u ∧ u.rf cntDumpCfg 31 24 = fld v 31 24 ∧
      u.rf cntDumpCfg 13 0 = fld v 13 0 ∧ (∀ a, a ≠ cntDumpCfg → u.rd a = s.rd a) ∧ onlyIn [.regs, .bell] s u) ∧
    (¬ok → rejects (exec (.dumpCfgWrite cntDumpCfg v) s)) ∧
    (exec (.dumpCfgWrite cntDumpBaseLo v) s = .next { s with held := tput s.held cntDumpBaseLo v }) ∧
    (tfind s.held cntDumpBaseLo = some w → (¬idle → rejects (exec (.dumpCfgWrite cntDumpBaseHi v) s)) ∧
      (idle → ∃ u, exec (.dumpCfgWrite cntDumpBaseHi v) s = .next u ∧
        u.rd64 cntDumpBaseLo = w.toNat + 2 ^ 32 * v.toNat ∧
        (∀ a, a ≠ cntDumpBaseLo → a ≠ cntDumpBaseHi → u.rd a = s.rd a) ∧ onlyIn [.regs, .held, .bell] s u)))

/-- Cold start, device restart and slice restart; the boot stages; CONFIG records; reserved lofts. A cold start leaves
State.reset but for flash, fuses, straps and the registers that show them, in stage ROM; a device restart keeps device
time, the log, recoveries, test mode too, and waits for a flash command. A slice restart fills the slice's buckets,
clears its deficits and XOFFs. Each stage goes on as R477 says: the slot order by straps and control record, AUTH by
its checks, CELLAR locks CEL_PART, START ends in DONE with the image's power target; a check that fails records its
code and goes to the next slot or to FAILED with a report. The CONFIG record reached is checked, written, polled or
waited for; time-outs and delays act only while it waits. (That a CONFIG_RECORD step first applies the sections before
its record is the model's choice, log entry 68.) -/
def Obligations.ResetsAndBootStages : Prop :=
  let failed (c : Nat) (rest : List Nat) (d : Nat) (s u : State) : Prop := u.rf atcBootErr (8 * c + 7) (8 * c) = d % 256 ∧
    u.attic.flash = s.attic.flash ∧ (rest = [] → u.stage = 9 ∧ ∃ r, r ∈ u.mast.waiting ∧ r.src = 0x31) ∧
    (rest ≠ [] → u.stage = 3 ∧ u.attic.boot.order = rest ∧ u.attic.boot.sect = 0 ∧ u.attic.boot.record = 0)
  (∀ (sl fl : Nat) (tm : Bool) (s : State), ∃ u, exec (.coldStart sl fl tm) s = .next u ∧
    onlyIn [.regs, .cycles, .freeCtr, .attic, .dwy, .outbox] State.reset u ∧
    (∀ a, a ∉ [atcStraps, atcFuse, atcFlStatus, atcBootStatus] → u.rd a = State.reset.rd a) ∧
    u.stage = 1 ∧ u.rf atcBootStatus 23 20 = 0 ∧ u.attic.strapSlot = sl % 4 ∧ u.attic.strapFlash = fl % 4 ∧
    u.attic.testPin = tm ∧ u.attic.fuseSvn = s.attic.fuseSvn ∧ u.attic.keys = s.attic.keys ∧
    u.attic.testFuse = s.attic.testFuse ∧ (s.attic.flCmd = none → u.attic.flash = s.attic.flash)) ∧
  (∀ s : State, ∃ u, exec .vddAonLoss s = .next u ∧
    exec (.coldStart s.attic.strapSlot s.attic.strapFlash s.attic.testPin) s = .next u ∧ u.stage = 1 ∧
    u.attic.fuseSvn = s.attic.fuseSvn) ∧
  (∀ s : State,
    (s.attic.flCmd ≠ none → ∃ u, exec .deviceRestart s = .next u ∧ u.attic.restartDeferred = true ∧ onlyIn [.attic] s u) ∧
    (s.attic.flCmd = none → ∃ u, exec .deviceRestart s = .next u ∧
      onlyIn [.regs, .time, .cycles, .freeCtr, .mast, .attic, .dwy, .outbox] State.reset u ∧ u.time = s.time ∧
      u.mast.log = s.mast.log ∧ u.mast.recov = s.mast.recov ∧ u.mast.waiting = [] ∧ u.mast.ctrs = [] ∧
      (∀ a, a ∈ [atcTimeIncr, mstLogNext, mstRecov, mstMon] → u.rd a = s.rd a) ∧
      (∀ a, a ∉ [atcTimeIncr, mstLogNext, mstRecov, mstMon, mstStatus, atcStraps, atcFuse, atcFlStatus, atcBootStatus] →
        u.rd a = State.reset.rd a) ∧ u.rb mstStatus 29 = s.rb mstStatus 29 ∧ u.stage = 1 ∧ u.rf atcBootStatus 23 20 = 1 ∧
      u.attic.flash = s.attic.flash ∧ u.attic.keys = s.attic.keys ∧ u.attic.sbDyn = s.attic.sbDyn)) ∧
  (∀ (sl : Nat) (s : State), sl < 16 → ∃ u, exec (.sliceRestart sl) s = .next u ∧
    (∀ n, n / 32 = sl → (u.port n).xoff = 0) ∧
    (∀ p ∈ u.sht.pols, p.1 / 16384 = sl → p.2.tc = p.2.cbs ∧ p.2.te = p.2.ebs) ∧
    (∀ k, k / 32 = sl → tfind u.sht.dwrr k = none) ∧ u.rd mstIsoStatus = s.rd mstIsoStatus ∧
    onlyIn [.regs, .ecc, .mast, .cel, .cup, .lft, .pipe, .stw, .sht, .crw, .outbox] s u) ∧
  (∀ (ok pg : Bool) (s : State),
    let out := exec (.bootStageEnd ok pg) s
    let r := s.recNow
    let st := s.attic.strapSlot
    let moves (n : Nat) (u : State) : Prop := u.stage = n ∧ onlyIn [.regs] s u
    (s.rb mstMon 3 = true ∨ s.stage = 0 ∨ 8 ≤ s.stage → out = .next s) ∧
    (s.rb mstMon 3 = false → s.stage = 1 → ∃ u, out = .next u ∧ moves (if st = 3 then 10 else 2) u) ∧
    (s.rb mstMon 3 = false → s.stage = 2 → s.attic.boot.wake = false →
      (ok = false → ∃ u, out = .next u ∧ u.stage = 9) ∧
      (ok = true → ∃ u, out = .next u ∧ u.stage = 3 ∧ onlyIn [.regs, .mast, .attic] s u ∧
        (st = 1 → u.attic.boot.order = [0]) ∧ (st = 2 → u.attic.boot.order = [1]) ∧
        (st ≠ 1 → st ≠ 2 → r.try? = none → u.attic.boot.order = [r.active, 1 - r.active] ∧
          u.attic.flash = s.attic.flash) ∧
        (∀ c, st ≠ 1 → st ≠ 2 → r.try? = some c → u.attic.boot.order =
          if tallyZeros r.tally < r.tries then (if pg then [c, r.active] else [r.active]) else [r.active, 1 - r.active]))) ∧
    (∀ c rest, s.rb mstMon 3 = false → s.stage = 3 → s.attic.boot.order = c :: rest → c < 2 →
      (s.authCheck c = 0 → ∃ u, out = .next u ∧ moves 4 u ∧ u.rf atcBootStatus 27 27 = c ∧
        u.rdN atcBootImage = s.imgN c 16 4 ∧ u.rb atcBootStatus 25 = !(s.attic.keys.any (·.isSet))) ∧
      (s.authCheck c ≠ 0 → ∃ u, out = .next u ∧ failed c rest (s.authCheck c) s u)) ∧
    (s.rb mstMon 3 = false → s.stage = 4 → (ok = false → out = .next s) ∧
      (ok = true → ∃ u, out = .next u ∧ moves 5 u)) ∧
    (∀ c rest, s.rb mstMon 3 = false → s.stage = 5 → s.attic.boot.order = c :: rest → c < 2 →
      (ok = false → ∃ u, out = .next u ∧ failed c rest 0x0E s u) ∧
      (ok = true → s.attic.saved = none → ∃ u, out = .next u ∧ moves 6 u ∧ u.rb celLock 0 = true ∧
        (∀ k, k < 4 → u.rf (celStkStatus k) 31 30 = 0) ∧ (s.rb celLock 0 = true → u.rd celPart = s.rd celPart))) ∧
    (s.rb mstMon 3 = false → s.stage = 6 → (∃ u, out = .next u) ∧
      (s.sectionsDone = true → ∃ u, out = .next u ∧ moves 7 u)) ∧
    (s.rb mstMon 3 = false → s.stage = 7 → ∃ u, out = .next u ∧ u.stage = 8 ∧ shas u.bell.pulses 1344 = true ∧
      u.rf atcPwrStatus 31 30 = s.imgN s.bootSlot 32 1 % 4 ∧ u.rb mstStatus 28 = !s.inSafe ∧
      u.attic.doneFrom = s.cycles ∧ (s.attic.boot.wake = true → shas u.bell.pulses 1347 = true))) ∧
  (∀ s : State,
    let t := s.toRecord
    let r := t.cfgNow
    let here : Prop := s.stage = 6 ∧ t.stage = 6 ∧ t.sectionsDone = false
    let goes (w : Bool) (x u : State) : Prop := onlyIn [.attic] x u ∧ u.attic.boot.waiting = w ∧
      u.attic.boot.record = x.attic.boot.record + nat (!w)
    (s.stage ≠ 6 → exec .configRecord s = .next s) ∧
    (s.stage = 6 → t.stage ≠ 6 ∨ t.sectionsDone = true → exec .configRecord s = .next t) ∧
    (∀ c rest, here → t.attic.boot.order = c :: rest → c < 2 → r.check ≠ 0 → ∃ u, exec .configRecord s = .next u ∧
      failed c rest r.check t u) ∧
    (here → r.check = 0 → r.op = 1 → (regAt r.addr).isNone = false → ∃ u, exec .configRecord s = .next u ∧
      goes false (t.regWrite r.addr (BitVec.ofNat 32 r.value)) u) ∧
    (here → r.check = 0 → r.op = 1 → (regAt r.addr).isNone = true → ∃ u, exec .configRecord s = .next u ∧
      onlyIn [.mast, .attic] t u ∧ u.mast = { t.mast with reservedAccesses := t.mast.reservedAccesses + 1 }) ∧
    (here → r.check = 0 → r.op = 2 → ∃ u, exec .configRecord s = .next u ∧
      goes (decide (Nat.land (t.cfgRead r.addr).rdata r.mask ≠ r.value)) (t.cfgRead r.addr) u) ∧
    (here → r.check = 0 → r.op = 3 → ∃ u, exec .configRecord s = .next u ∧ goes true t u)) ∧
  (∀ s : State,
    let polls : Prop := s.stage = 6 ∧ s.attic.boot.waiting = true ∧ s.cfgNow.op = 2
    let delays : Prop := s.stage = 6 ∧ s.attic.boot.waiting = true ∧ s.cfgNow.op = 3
    (¬polls → exec .pollTimeout s = .next s) ∧
    (∀ c rest, polls → s.attic.boot.order = c :: rest → c < 2 → ∃ u, exec .pollTimeout s = .next u ∧
      failed c rest 0x0C s u) ∧
    (¬delays → exec .delayExpire s = .next s) ∧
    (delays → ∃ u, exec .delayExpire s = .next u ∧ onlyIn [.attic] s u ∧
      u.attic.boot.record = s.attic.boot.record + 1 ∧ u.attic.boot.waiting = false)) ∧
  (∀ s : State,
    (¬(s.stage = 6 ∧ s.reservedReady = true) → exec .reservedLoftStart s = .next s) ∧
    (s.stage = 6 → s.reservedReady = true → ∃ u, exec .reservedLoftStart s = .next u ∧
      u.attic.boot.reservedStarted = true ∧
      (∀ e, s.rf lftCrwCfg 5 0 ≤ e / 8 → e / 8 < s.rf lftCrwCfg 5 0 + s.rf lftCrwCfg 18 16 → e < 512 →
        u.rf (lftEngStatus e) 31 30 ≠ 1) ∧
      onlyIn [.regs, .ecc, .mast, .cel, .attic, .cup, .lft, .outbox] s u))

/-- Flash commands, trying, confirming and reverting a slot, and how device time runs, slews and is set. A flash
command that finds one in hand sets OVERRUN; out of stage, misaligned, beyond the flash or in a protected range it is
refused with its code; else it is in hand until its end, which reads 256 bytes, clears bits, or erases its unit, and
nothing beyond it; a deferred restart then happens. TRY checks the other slot in full and writes a record; CONFIRM
makes the booted slot active, raises the fuses as its image says; REVERT ends a trial; each refusal has its RESULT.
Device time gains INCR and at most 2.5 ns of a slew per Attic cycle, or steps to a value set; INCR beyond 1 percent is
discarded. (What a failed program, erase or fuse leaves is free.) -/
def Obligations.FlashSlotsAndDeviceTime : Prop :=
  let recAt (s : State) : Nat := s.half (s.recHalf.elim 0 (1 - ·))
  let recorded (r : CtlRec) (s u : State) : Prop := u.flashRead (recAt s) 64 = { r with seq := s.recNow.seq + 1 }.bytes ∧
    ∀ x, x < recAt s ∨ recAt s + 0x10000 ≤ x → tget flashErased u.attic.flash x = tget flashErased s.attic.flash x
  (∀ (op a : Nat) (c : Instr) (s : State), (op, c) ∈ [(1, .flRead a), (2, .flProgram a), (3, .flErase4k a),
      (4, .flErase64k a)] → a < 2 ^ 28 →
    let n := flUnit op
    let stageOk : Prop := s.stage = 8 ∨ s.stage = 9 ∨ s.stage = 10
    let refused (r : Nat) : Prop := ∃ u, exec c s = .next u ∧ u.rf atcFlStatus 31 24 = r ∧
      u.rb atcFlCmd 31 = false ∧ onlyIn [.regs] s u
    (s.rb atcFlCmd 31 = true → exec c s = .next (s.setB atcFlStatus 0)) ∧
    (s.rb atcFlCmd 31 = false → (¬stageOk → refused 5) ∧ (stageOk → a % n ≠ 0 → refused 2) ∧
      (stageOk → a % n = 0 → s.flashSize < a + n → refused 3) ∧
      (stageOk → a % n = 0 → a + n ≤ s.flashSize → s.flProtected a n = true → refused 1) ∧
      (stageOk → a % n = 0 → a + n ≤ s.flashSize → s.flProtected a n = false → ∃ u, exec c s = .next u ∧
        u.rb atcFlCmd 31 = true ∧ u.attic = { s.attic with flCmd := some (op, a) } ∧ onlyIn [.regs, .attic] s u))) ∧
  (∀ (ok : Bool) (s : State), s.attic.flCmd = none → exec (.flashCommandEnd ok) s = .next s) ∧
  (∀ (ok : Bool) (op a : Nat) (s : State), s.attic.flCmd = some (op, a) →
    let n := flUnit op
    let at1 (u : State) (x : Nat) : Byte := tget flashErased u.attic.flash x
    ∃ u, exec (.flashCommandEnd ok) s = .next u ∧ u.attic.flCmd = none ∧
      (∀ x, x < a ∨ a + n ≤ x → at1 u x = at1 s x) ∧
      (s.attic.restartDeferred = true → u.stage = 1 ∧ u.rf atcBootStatus 23 20 = 1) ∧
      (s.attic.restartDeferred = false → u.rb atcFlCmd 31 = false ∧ shas u.bell.pulses 1348 = true ∧
        u.rf atcFlStatus 31 24 = (if ok then 0 else 4) ∧
        (op = 1 → u.attic.flash = s.attic.flash ∧ (ok = true →
          ∀ j, j < 64 → (u.rd (atcFlData j)).toNat = leNat (s.flashRead (a + 4 * j) 4))) ∧
        (op = 2 → ok = true → ∀ j, j < 256 →
          at1 u (a + j) = at1 s (a + j) &&& BitVec.ofNat 8 ((s.rd (atcFlData (j / 4))).toNat / 2 ^ (8 * (j % 4)))) ∧
        (op = 3 ∨ op = 4 → ok = true → ∀ x, a ≤ x → x < a + n → at1 u x = flashErased))) ∧
  (∀ (tries : Nat) (ok fo : Bool) (s : State),
    let c := s.rf atcBootStatus 27 27
    let trial := s.rb atcBootStatus 26
    let ends (r : Nat) (o : Host.Outcome State Fault Refusal) (P : State → Prop) : Prop := ∃ u, o = .next u ∧
      u.rf atcSlotCtl 23 16 = r ∧ shas u.bell.pulses 1349 = true ∧ onlyIn [.regs, .freeCtr, .mast, .bell, .attic] s u ∧ P u
    let still (u : State) : Prop := u.attic = s.attic
    let tr := exec (.slotTry tries ok) s
    let co := exec (.slotConfirm tries ok fo) s
    let re := exec (.slotRevert tries ok) s
    (s.rb atcSlotCtl 31 = true → tr = .next s ∧ co = .next s ∧ re = .next s) ∧
    (s.rb atcSlotCtl 31 = false → tries % 8 = 0 → ends 4 tr still ∧ ends 4 co still ∧ ends 4 re still) ∧
    (s.rb atcSlotCtl 31 = false → tries % 8 ≠ 0 →
      (s.fullCheck (1 - c) ≠ 0 → ends 2 tr fun u => still u ∧
        u.rf atcBootErr (8 * (1 - c) + 7) (8 * (1 - c)) = s.fullCheck (1 - c) % 256) ∧
      (s.fullCheck (1 - c) = 0 → ok = true → ends 0 tr fun u =>
        recorded { s.recNow with try? := some (1 - c), tries := tries % 8, tally := 2 ^ 64 - 1 } s u) ∧
      (s.fullCheck (1 - c) = 0 → ok = false → ends 3 tr fun _ => True) ∧
      (s.stage ≠ 8 → ends 1 co still ∧ ends 1 re still) ∧
      (s.stage = 8 → trial = true → ok = false → ends 3 co fun u => u.attic.fuseSvn = s.attic.fuseSvn) ∧
      (s.stage = 8 → trial = true → ok = true → fo = true → ends 0 co fun u => u.rb atcBootStatus 26 = false ∧
        recorded { s.recNow with active := c, try? := none, tally := 2 ^ 64 - 1 } s u) ∧
      (s.stage = 8 → trial = false → fo = true → ends 0 co fun u => u.attic.flash = s.attic.flash ∧
        u.attic.fuseSvn = (if s.imgFlag c 0 then max s.attic.fuseSvn (s.imgSvn c) else s.attic.fuseSvn) ∧
        ∀ j, j < 4 → (s.imgN c 40 1).testBit j = true → j ≠ s.imgKey c →
          (u.attic.keys.getD j KeySlot.reset).revoked = true) ∧
      (s.stage = 8 → trial = false → fo = false → ends 5 co fun u => u.attic.flash = s.attic.flash) ∧
      (s.stage = 8 → s.recNow.try? = none → ends 1 re still) ∧
      (s.stage = 8 → s.recNow.try? ≠ none → ok = false → ends 3 re fun _ => True) ∧
      (s.stage = 8 → s.recNow.try? ≠ none → ok = true → ends 0 re fun u => u.rb atcBootStatus 26 = false ∧
        recorded { s.recNow with try? := none } s u)) ∧
    (let wait := s.imgN c 24 4
     let due : Prop := s.stage = 8 ∧ trial = true ∧ s.inSafe = false ∧ wait ≠ 0 ∧
       s.attic.doneFrom + wait * 25000000 ≤ s.cycles
     (¬due → exec (.autoConfirm ok fo) s = .next s) ∧
     (due → ∃ u, exec (.autoConfirm ok fo) s = .next u ∧ onlyIn [.regs, .freeCtr, .attic] s u ∧
       (ok = true → fo = true → u.rb atcBootStatus 26 = false ∧
         recorded { s.recNow with active := c, try? := none, tally := 2 ^ 64 - 1 } s u)))) ∧
  (∀ s : State, ∃ u, exec .timeTick s = .next u ∧ u.cycles = s.cycles + 1 ∧ u.attic.timeSet = none ∧
    u.rb atcTimeStatus 31 = decide (u.attic.slew ≠ 0) ∧ onlyIn [.regs, .time, .cycles, .mast, .bell, .attic] s u ∧
    (∀ v, s.attic.timeSet = some v → u.time = v * 2 ^ 24 ∧ u.attic.slew = 0 ∧ u.rb atcTimeStatus 30 = true ∧
      shas u.bell.pulses 1350 = true) ∧
    (s.attic.timeSet = none →
      let z := s.attic.slew
      let sum : Int := s.time + s.rdN atcTimeIncr + (z - u.attic.slew)
      (z.natAbs ≤ 41943040 → u.attic.slew = 0) ∧ (41943040 < z → u.attic.slew = z - 41943040) ∧
      (z < -41943040 → u.attic.slew = z + 41943040) ∧ (0 ≤ sum → (u.time : Int) = sum % 2 ^ 88))) ∧
  (∀ (v w : Word) (s : State),
    (∃ u, exec (.timeAdjWrite v) s = .next u ∧ u.attic = { s.attic with slew := v.toInt * 2 ^ 24 } ∧
      u.rb atcTimeStatus 31 = (v != 0#32) ∧ onlyIn [.regs, .attic] s u) ∧
    (tfind s.held atcTimeSetLo = some w → ∃ u, exec (.timeSetWrite v) s = .next u ∧
      u.attic = { s.attic with timeSet := some (w.toNat + 2 ^ 32 * v.toNat) } ∧ onlyIn [.held, .bell, .attic] s u) ∧
    (0x2799999A ≤ v.toNat → v.toNat ≤ 0x28666666 → ∃ u, exec (.timeIncrWrite v) s = .next u ∧ u.rd atcTimeIncr = v ∧
      (∀ a, a ≠ atcTimeIncr → u.rd a = s.rd a) ∧ onlyIn [.regs] s u) ∧
    (v.toNat < 0x2799999A ∨ 0x28666666 < v.toNat → exec (.timeIncrWrite v) s = .next s))

/-- Power targets, Shuttered and its wakes, gating, the sideband and its address, JTAG. A power target that may not be
taken sets REFUSED: on the way into or out of Shuttered, or Shuttered with jobs running or in safe state; target 3
does nothing. Running wakes slices and stacks; Shuttered disables every port; once none waits for its frame's end the
part is Shuttered: all but the always-on state at reset, Crowsnest state saved. A wake that is due boots from stage
FLASH on the slot booted. An idle slice gates only in Dozing; scrub wakes leave gating as it is. The sideband reaches
window 0x00 as PF0 does, at its dynamic or static address only. JTAG gives the IDCODE or a bypass bit; beyond IEEE
1149.1 it is refused where debug is allowed, else without effect. (Boundary-scan captures are free.) -/
def Obligations.PowerStatesSidebandAndJtag : Prop :=
  (∀ (v : Word) (s : State),
    let t := fld v 1 0
    let st := s.rf atcPwrStatus 31 30
    let out := exec (.powerTargetWrite v) s
    let refuses : Prop := out = .next (s.setB atcPwrStatus 29)
    (t = 3 → out = .next s) ∧
    (t ≠ 3 → s.shuttered = true → ∃ u, out = .next u ∧ u.rf atcPwrCtl 1 0 = t ∧
      (∀ a, a ≠ atcPwrCtl → u.rd a = s.rd a) ∧ onlyIn [.regs] s u) ∧
    (t ≠ 3 → s.shuttered = false → 2 ≤ st → refuses) ∧
    (t = 2 → st < 2 → s.jobsRun = true ∨ s.inSafe = true → refuses) ∧
    (t = 2 → st < 2 → s.jobsRun = false → s.inSafe = false → ∃ u, out = .next u ∧ u.rf atcPwrStatus 31 30 = 2 ∧
      u.rf atcPwrCtl 1 0 = 2 ∧ ∀ n, n < 512 → u.rb (pchPortCfg n) 0 = false) ∧
    (t < 2 → st < 2 → ∃ u, out = .next u ∧ u.rf atcPwrStatus 31 30 = t ∧ u.rf atcPwrCtl 1 0 = t ∧
      (t = 1 → onlyIn [.regs] s u) ∧
      (t = 0 → (∀ sl, sl < 16 → u.rb atcPwrStatus sl = false) ∧ ∀ k, k < 4 → u.rf (celStkStatus k) 31 30 ≠ 2))) ∧
  (∀ s : State,
    let due : Prop := s.rf atcPwrStatus 31 30 = 2 ∧ s.attic.saved = none ∧ (s.pipe.ports.any fun p => p.2.disableDue) = false
    (¬due → exec .shutterComplete s = .next s) ∧
    (due → ∃ u, exec .shutterComplete s = .next u ∧ u.shuttered = true ∧ u.rf atcPwrStatus 15 0 = 0 ∧
      (∀ k, k < 4 → u.rf (celStkStatus k) 31 30 = 2) ∧ u.time = s.time ∧ u.mast.log = s.mast.log ∧
      u.attic.flash = s.attic.flash ∧ u.attic.mem = [] ∧ u.rd celPart = s.rd celPart ∧
      (∀ a, a < 0x2000000 → a ∉ [atcPwrStatus, atcGatedLoftsLo, atcGatedLoftsHi] → u.rd a = s.rd a) ∧
      onlyIn [.regs, .rdata, .time, .cycles, .freeCtr, .ecc, .mast, .cel, .attic, .dwy, .outbox] State.reset u)) ∧
  (∀ (cause : Nat) (s : State),
    let due : Prop := s.shuttered = true ∧
      ((cause = 0 ∧ s.rd64 atcWakeTimeLo ≠ 0 ∧ s.rd64 atcWakeTimeLo ≤ s.ns) ∨ (cause = 1 ∧ s.attic.perstN = true) ∨
        (cause = 2 ∧ s.rf atcPwrCtl 1 0 < 2))
    (¬due → exec (.shutteredWake cause) s = .next s) ∧
    (due → ∃ u, exec (.shutteredWake cause) s = .next u ∧ u.stage = 2 ∧ u.rf atcBootStatus 23 20 = 2 ∧
      u.rf atcPwrStatus 31 30 = 3 ∧ u.rdN atcWakeSrc = cause ∧ u.attic.boot.wake = true ∧
      u.attic.boot.order = [s.rf atcBootStatus 27 27] ∧ u.attic.saved = s.attic.saved ∧ onlyIn [.regs, .attic] s u)) ∧
  (∀ (sl : Nat) (s : State),
    let due : Prop := sl < 16 ∧ s.rf atcPwrStatus 31 30 = 1 ∧ s.sliceGated sl = false ∧ s.sliceIdle sl = true
    (¬due → exec (.sliceGate sl) s = .next s) ∧
    (due → ∃ u, exec (.sliceGate sl) s = .next u ∧ u.sliceGated sl = true ∧
      (∀ k, k < 16 → k ≠ sl → u.sliceGated k = s.sliceGated k) ∧ onlyIn [.regs, .mast] s u)) ∧
  (∀ s : State, (∃ u, exec .periodicScrubWake s = .next u ∧ (∀ sl, sl < 16 → u.sliceGated sl = s.sliceGated sl) ∧
      (∀ a, noWrap a → u.rd a = s.rd a) ∧ onlyIn [.regs, .mast] s u) ∧
    ((∀ sl, sl < 16 → s.sliceGated sl = false) → (∀ l, l < 64 → s.loftGated l = false) →
      exec .periodicScrubWake s = .next s)) ∧
  (∀ (a off : Nat) (v : Word) (s : State),
    (s.sbAnswers a = false → exec (.sidebandAccess a false off v) s = .next s ∧
      exec (.sidebandAccess a true off v) s = .next s) ∧
    (s.sbAnswers a = true → (∃ u, exec (.sidebandAccess a true off v) s = .next u ∧
        exec (.registerWrite (off % 65536) v) s = .next u) ∧
      (∀ r i j, regAt (off % 65536) = some (r, i, j) → off % 4 = 0 → r.kind = .plain → r.rc = 0 →
        ∃ u, exec (.sidebandAccess a false off v) s = .next u ∧ u.rdata = s.shows (off % 65536) ∧ onlyIn [.rdata] s u))) ∧
  (∀ (d : Nat) (s : State), (∃ u, exec (.dynamicAddressAssign (some d)) s = .next u ∧ onlyIn [.attic] s u ∧
      u.attic = { s.attic with sbDyn := some (d % 128) } ∧ ∀ x, u.sbAnswers x = (x == d % 128)) ∧
    (∃ u, exec (.dynamicAddressAssign none) s = .next u ∧ onlyIn [.attic] s u ∧
      u.attic = { s.attic with sbDyn := none } ∧ ∀ x, u.sbAnswers x = (x == 0x5C))) ∧
  (∀ (ir : Nat) (tdi : List Bool) (s : State),
    let runs (P : State → Prop) : Prop := ∃ u, exec (.jtagAccess ir tdi) s = .next u ∧ u.attic.jtagIr = ir ∧
      u.attic.jtagDr = tdi ∧ P u
    let free1 : Prop := s.rb atcBootStatus 24 = true ∨ ∀ k ∈ s.attic.keys, k.isSet = false
    (ir = 1 → tdi.length = 32 → runs fun u => u.rdata = 0x17140001 ∧ onlyIn [.rdata, .attic] s u) ∧
    (ir = 1 → runs fun u => onlyIn [.rdata, .attic] s u) ∧
    (ir = 0 ∨ ir = 4 ∨ ir = 5 → runs fun u => u.rdata = bitsNat (false :: tdi) % 2 ^ tdi.length ∧
      onlyIn [.rdata, .attic] s u) ∧
    (ir = 2 ∨ ir = 3 → runs fun u => onlyIn [.rdata, .freeCtr, .attic] s u) ∧
    (6 ≤ ir → free1 → exec (.jtagAccess ir tdi) s = .refused .jtagBeyond) ∧
    (6 ≤ ir → ¬free1 → exec (.jtagAccess ir tdi) s = .next s))

end
end

