-- ==== Sys2Proof/Laws/Table.lean ====
section
/-! SUPPORT. Laws of sparse tables and byte memories: a read after a write, and the canonical form that every memory
operation keeps. -/

namespace Sys2Proof.Machine

/-! ## Reads after writes -/

theorem tfind_tput_same {α : Type} (t : Tbl α) (k : Nat) (v : α) : tfind (tput t k v) k = some v := by
  induction t with
  | nil => simp [tput, tfind]
  | cons p t ih =>
    obtain ⟨j, w⟩ := p
    unfold tput
    by_cases h1 : k < j
    · simp [h1, tfind]
    · by_cases h2 : k = j <;> simp [h1, h2, tfind, ih]

theorem tfind_tput_ne {α : Type} (t : Tbl α) (k j : Nat) (v : α) (h : j ≠ k) : tfind (tput t k v) j = tfind t j := by
  induction t with
  | nil => simp [tput, tfind, h]
  | cons p t ih =>
    obtain ⟨i, w⟩ := p
    unfold tput
    by_cases h1 : k < i
    · simp [h1, tfind, h]
    · by_cases h2 : k = i
      · subst h2; simp [tfind, h]
      · by_cases h3 : j = i <;> simp [h1, h2, h3, tfind, ih]

theorem tfind_tdel_same {α : Type} (t : Tbl α) (k : Nat) : tfind (tdel t k) k = none := by
  induction t with
  | nil => rfl
  | cons p t ih =>
    obtain ⟨i, w⟩ := p
    by_cases h : i = k
    · subst h; simpa [tdel] using ih
    · have h2 : (i != k) = true := by simp [h]
      simp only [tdel, List.filter_cons, h2, if_true, tfind]
      rw [if_neg (Ne.symm h)]; exact ih

theorem tfind_tdel_ne {α : Type} (t : Tbl α) (k j : Nat) (h : j ≠ k) : tfind (tdel t k) j = tfind t j := by
  induction t with
  | nil => rfl
  | cons p t ih =>
    obtain ⟨i, w⟩ := p
    by_cases h1 : i = k
    · subst h1
      simp only [tfind, if_neg h]
      simpa [tdel] using ih
    · have h2 : (i != k) = true := by simp [h1]
      simp only [tdel, List.filter_cons, h2, if_true, tfind]
      by_cases h3 : j = i
      · simp [h3]
      · rw [if_neg h3, if_neg h3]; exact ih

theorem tfind_tclear {α : Type} (t : Tbl α) (lo hi k : Nat) :
    tfind (tclear t lo hi) k = if lo ≤ k ∧ k < hi then none else tfind t k := by
  induction t with
  | nil => simp [tclear, tfind]
  | cons p t ih =>
    obtain ⟨i, w⟩ := p
    by_cases h1 : lo ≤ i ∧ i < hi
    · have h2 : (!(decide (lo ≤ i) && decide (i < hi))) = false := by simp [h1.1, h1.2]
      simp only [tclear, List.filter_cons, h2, Bool.false_eq_true, if_false, tfind]
      unfold tclear at ih
      rw [ih]
      by_cases h3 : k = i
      · subst h3; simp [h1]
      · simp [h3]
    · have h2 : (!(decide (lo ≤ i) && decide (i < hi))) = true := by
        simp only [Bool.not_eq_true', Bool.and_eq_false_iff, decide_eq_false_iff_not]; omega
      simp only [tclear, List.filter_cons, h2, if_true, tfind]
      unfold tclear at ih
      rw [ih]
      by_cases h3 : k = i
      · subst h3; simp [h1]
      · simp [h3]

@[simp] theorem tget_tput_same {α : Type} (d : α) (t : Tbl α) (k : Nat) (v : α) : tget d (tput t k v) k = v := by
  simp [tget, tfind_tput_same]

theorem tget_tput_ne {α : Type} (d : α) (t : Tbl α) (k j : Nat) (v : α) (h : j ≠ k) :
    tget d (tput t k v) j = tget d t j := by simp [tget, tfind_tput_ne, h]

@[simp] theorem tget_tset_same {α : Type} [DecidableEq α] (d : α) (t : Tbl α) (k : Nat) (v : α) :
    tget d (tset d t k v) k = v := by
  unfold tset
  split
  · next h => simp [tget, tfind_tdel_same, h]
  · exact tget_tput_same ..

theorem tget_tset_ne {α : Type} [DecidableEq α] (d d' : α) (t : Tbl α) (k j : Nat) (v : α) (h : j ≠ k) :
    tget d' (tset d t k v) j = tget d' t j := by
  unfold tset
  split
  · simp [tget, tfind_tdel_ne, h]
  · exact tget_tput_ne _ _ _ _ _ h

@[simp] theorem tget_tmod_same {α : Type} (d : α) (t : Tbl α) (k : Nat) (f : α → α) :
    tget d (tmod d t k f) k = f (tget d t k) := by simp [tmod]

theorem tget_tmod_ne {α : Type} (d : α) (t : Tbl α) (k j : Nat) (f : α → α) (h : j ≠ k) :
    tget d (tmod d t k f) j = tget d t j := tget_tput_ne _ _ _ _ _ h

/-! ## The canonical form -/

/-- Indices strictly rising, said over the list. -/
theorem rising_iff {α : Type} (t : Tbl α) : rising t = true ↔ t.Pairwise (fun a b => a.1 < b.1) := by
  induction t with
  | nil => simp [rising]
  | cons p t ih =>
    cases t with
    | nil => simp [rising]
    | cons q t =>
      obtain ⟨i, v⟩ := p
      obtain ⟨j, w⟩ := q
      simp only [rising, Bool.and_eq_true, decide_eq_true_eq, ih, List.pairwise_cons, List.mem_cons]
      constructor
      · rintro ⟨h, h2, h3⟩
        refine ⟨?_, h2, h3⟩
        rintro x (rfl | hx)
        · exact h
        · exact Nat.lt_trans h (h2 x hx)
      · rintro ⟨h, h2, h3⟩
        exact ⟨h _ (.inl rfl), h2, h3⟩

theorem rising_filter {α : Type} (t : Tbl α) (p : Nat × α → Bool) (h : rising t = true) :
    rising (t.filter p) = true := by
  rw [rising_iff] at *
  exact h.sublist List.filter_sublist

theorem mem_tput {α : Type} (t : Tbl α) (k : Nat) (v : α) (x : Nat × α) (h : x ∈ tput t k v) : x = (k, v) ∨ x ∈ t := by
  induction t with
  | nil => simpa [tput] using h
  | cons p t ih =>
    obtain ⟨j, w⟩ := p
    unfold tput at h
    split at h
    · simpa using h
    · split at h
      · simp only [List.mem_cons] at h ⊢
        exact h.imp id .inr
      · simp only [List.mem_cons] at h ⊢
        rcases h with h | h
        · exact .inr (.inl h)
        · rcases ih h with h | h
          · exact .inl h
          · exact .inr (.inr h)

theorem rising_tput {α : Type} (t : Tbl α) (k : Nat) (v : α) (h : rising t = true) : rising (tput t k v) = true := by
  rw [rising_iff] at *
  induction t with
  | nil => simp [tput]
  | cons p t ih =>
    obtain ⟨j, w⟩ := p
    rw [List.pairwise_cons] at h
    unfold tput
    split
    · next h1 =>
      refine List.pairwise_cons.2 ⟨?_, List.pairwise_cons.2 h⟩
      intro x hx
      rcases List.mem_cons.1 hx with rfl | hx
      · exact h1
      · exact Nat.lt_trans h1 (h.1 x hx)
    · split
      · next h2 => subst h2; exact List.pairwise_cons.2 h
      · next h1 h2 =>
        refine List.pairwise_cons.2 ⟨?_, ih h.2⟩
        intro x hx
        rcases mem_tput _ _ _ _ hx with rfl | hx
        · show j < k; omega
        · exact h.1 x hx

/-- A byte put in its place keeps the canonical form. -/
theorem Memory.wf_tset (d : Byte) (m : Tbl Byte) (k : Nat) (v : Byte) (h : Memory.wf d m = true) :
    Memory.wf d (tset d m k v) = true := by
  simp only [Memory.wf, Bool.and_eq_true, List.all_eq_true] at *
  unfold tset
  split
  · exact ⟨rising_filter _ _ h.1, fun x hx => h.2 x ((List.mem_filter.1 hx).1)⟩
  · next hv =>
    refine ⟨rising_tput _ _ _ h.1, fun x hx => ?_⟩
    rcases mem_tput _ _ _ _ hx with rfl | hx
    · simpa using hv
    · exact h.2 x hx

/-- A write keeps the canonical form. -/
theorem Memory.wf_write (d : Byte) (m : Tbl Byte) (a : Nat) (bs : List Byte) (h : Memory.wf d m = true) :
    Memory.wf d (memWrite d m a bs) = true := by
  induction bs generalizing m a with
  | nil => exact h
  | cons b bs ih => exact ih _ _ (Memory.wf_tset d m a b h)

/-- An erase keeps the canonical form. -/
theorem Memory.wf_erase (d : Byte) (m : Tbl Byte) (a n : Nat) (h : Memory.wf d m = true) :
    Memory.wf d (memErase m a n) = true := by
  simp only [Memory.wf, Bool.and_eq_true, List.all_eq_true] at *
  exact ⟨rising_filter _ _ h.1, fun x hx => h.2 x ((List.mem_filter.1 hx).1)⟩

/-- The empty memory is canonical. -/
@[simp] theorem Memory.wf_nil (d : Byte) : Memory.wf d [] = true := rfl

/-! ## What a memory holds after a write -/

/-- A byte outside the bytes written reads as before. -/
theorem tget_memWrite_out (d : Byte) (m : Tbl Byte) (a : Nat) (bs : List Byte) (x : Nat)
    (h : x < a ∨ a + bs.length ≤ x) : tget d (memWrite d m a bs) x = tget d m x := by
  induction bs generalizing m a with
  | nil => rfl
  | cons b bs ih =>
    simp only [List.length_cons] at h
    rw [memWrite, ih _ _ (by omega), tget_tset_ne _ _ _ _ _ _ (by omega)]

/-- A byte written reads as written. -/
theorem tget_memWrite_in (d : Byte) (m : Tbl Byte) (a : Nat) (bs : List Byte) (n : Nat) (h : n < bs.length) :
    tget d (memWrite d m a bs) (a + n) = bs[n] := by
  induction bs generalizing m a n with
  | nil => simp at h
  | cons b bs ih =>
    rw [memWrite]
    cases n with
    | zero => rw [tget_memWrite_out _ _ _ _ _ (by omega)]; simp
    | succ n =>
      have := ih (tset d m a b) (a + 1) n (by simpa using h)
      simpa [Nat.add_assoc, Nat.add_comm 1 n] using this

end Sys2Proof.Machine
end

