-- ==== Sys2Proof/Laws/Keeps.lean ====
section
/-! SUPPORT. What a function of the model can do to the state, said once: `Keeps l s t` says that `t` came from `s` by
changes in the pieces of `l` alone, that the queue stands, that what has left the part stands, that the byte memories
stay canonical and that fuses never unblow. The laws below are one for each way to change a piece. -/

namespace Sys2Proof.Machine

/-- Every piece of the state. -/
def allParts : List Part :=
  [.regs, .held, .latch, .rdata, .time, .cycles, .freeCtr, .ecc, .mast, .bell, .cel, .attic, .cup, .dwy, .lft, .pipe, .hlw,
    .gal, .lrd, .stw, .sht, .crw, .outbox]

/-- `t` came from `s` by changes in the pieces of `l`. -/
structure Keeps (l : List Part) (s t : State) : Prop where
  same : onlyIn l s t
  queue : t.pending = s.pending
  out : s.outbox <+: t.outbox
  sound : s.sound → t.sound
  fuses : fusesStand s t

theorem fusesStand.refl (s : State) : fusesStand s s :=
  ⟨Nat.le_refl _, id, fun _ _ => ⟨fun h => ⟨h, rfl⟩, id⟩⟩

theorem fusesStand.of_attic {s t : State} (h : t.attic.fuseSvn = s.attic.fuseSvn ∧ t.attic.testFuse = s.attic.testFuse ∧
    t.attic.keys = s.attic.keys) : fusesStand s t := by
  obtain ⟨h1, h2, h3⟩ := h
  unfold fusesStand
  rw [h1, h2, h3]
  exact ⟨Nat.le_refl _, id, fun _ _ => ⟨fun h => ⟨h, rfl⟩, id⟩⟩

theorem fusesStand.trans {s t u : State} (h : fusesStand s t) (k : fusesStand t u) : fusesStand s u := by
  refine ⟨Nat.le_trans h.1 k.1, fun x => k.2.1 (h.2.1 x), fun i hi => ⟨fun x => ?_, fun x => ?_⟩⟩
  · have a := (h.2.2 i hi).1 x
    have b := (k.2.2 i hi).1 a.1
    exact ⟨b.1, b.2.trans a.2⟩
  · exact (k.2.2 i hi).2 ((h.2.2 i hi).2 x)

theorem Part.same_trans (p : Part) {s t u : State} (h : p.same s t) (k : p.same t u) : p.same s u := by
  cases p <;> exact k.trans h

theorem Part.same_refl (p : Part) (s : State) : p.same s s := by cases p <;> rfl

theorem onlyIn.refl (l : List Part) (s : State) : onlyIn l s s := fun p _ => p.same_refl s

theorem onlyIn.mono {a b : List Part} {s t : State} (h : onlyIn a s t) (k : a.all (fun p => b.contains p) = true) :
    onlyIn b s t := by
  intro p hp
  refine h p fun hq => hp ?_
  simpa using List.all_eq_true.1 k p hq

theorem Keeps.refl {l : List Part} (s : State) : Keeps l s s :=
  ⟨onlyIn.refl l s, rfl, List.prefix_refl _, id, fusesStand.refl s⟩

theorem Keeps.trans {l : List Part} {s t u : State} (h : Keeps l s t) (k : Keeps l t u) : Keeps l s u :=
  ⟨fun p hp => p.same_trans (h.same p hp) (k.same p hp), k.queue.trans h.queue, h.out.trans k.out,
    fun x => k.sound (h.sound x), h.fuses.trans k.fuses⟩

theorem Keeps.mono {a b : List Part} {s t : State} (h : Keeps a s t) (k : a.all (fun p => b.contains p) = true) :
    Keeps b s t := ⟨h.same.mono k, h.queue, h.out, h.sound, h.fuses⟩

/-- A step of a function that keeps `a`, after what keeps `b`. -/
theorem Keeps.after {a b : List Part} {s t u : State} (h : Keeps a t u) (k : a.all (fun p => b.contains p) = true)
    (g : Keeps b s t) : Keeps b s u := g.trans (h.mono k)

theorem Keeps.ite {l : List Part} {s t u : State} {c : Prop} [Decidable c] (h : Keeps l s t) (k : Keeps l s u) :
    Keeps l s (if c then t else u) := by split <;> assumption

theorem Keeps.foldl {α : Type} {l : List Part} {s t : State} (xs : List α) {f : State → α → State} (h : Keeps l s t)
    (k : ∀ u x, Keeps l s u → Keeps l s (f u x)) : Keeps l s (xs.foldl f t) := by
  induction xs generalizing t with
  | nil => exact h
  | cons x xs ih => exact ih (k _ _ h)

theorem Keeps.each {α : Type} {l : List Part} {s t : State} {xs : List α} {f : State → α → State} (h : Keeps l s t)
    (k : ∀ u x, Keeps l s u → Keeps l s (f u x)) : Keeps l s (t.each xs f) := Keeps.foldl xs h k

theorem Keeps.foldl_fst {α β : Type} {l : List Part} {s : State} (xs : List α) {f : State × β → α → State × β}
    {t : State × β} (h : Keeps l s t.1) (k : ∀ u x, Keeps l s u.1 → Keeps l s (f u x).1) :
    Keeps l s (xs.foldl f t).1 := by
  induction xs generalizing t with
  | nil => exact h
  | cons x xs ih => exact ih (k _ _ h)

theorem Keeps.pair {α : Type} {l : List Part} {s t : State} {p : State × α} {x : α} (e : p = (t, x))
    (h : Keeps l s p.1) : Keeps l s t := by subst e; exact h

theorem Keeps.pair_snd {α : Type} {l : List Part} {s t : State} {p : α × State} {x : α} (e : p = (x, t))
    (h : Keeps l s p.2) : Keeps l s t := by subst e; exact h

theorem Keeps.fst_ite {α : Type} {l : List Part} {s : State} {c : Prop} [Decidable c] {a b : State × α}
    (h : Keeps l s a.1) (k : Keeps l s b.1) : Keeps l s (if c then a else b).1 := by split <;> assumption

theorem Keeps.next_ite {l : List Part} {s : State} {c : Prop} [Decidable c] {a b : Host.Outcome State Fault Refusal}
    (h : ∃ t, a = .next t ∧ Keeps l s t) (k : ∃ t, b = .next t ∧ Keeps l s t) :
    ∃ t, (if c then a else b) = .next t ∧ Keeps l s t := by split <;> assumption

theorem Keeps.next {l : List Part} {s t : State} (h : Keeps l s t) :
    ∃ u, (.next t : Host.Outcome State Fault Refusal) = .next u ∧ Keeps l s u := ⟨t, rfl, h⟩

/-- A change of pieces that hold neither memories nor fuses. -/
theorem Keeps.put {l : List Part} {s t u : State} (h : Keeps l s t) (ho : onlyIn l t u) (hq : u.pending = t.pending)
    (hx : u.outbox = t.outbox) (hc : u.cel = t.cel) (ha : u.attic = t.attic) (hl : u.lft = t.lft) : Keeps l s u :=
  h.trans ⟨ho, hq, hx ▸ List.prefix_refl _, by unfold State.sound; rw [hc, ha, hl]; exact id,
    .of_attic (by rw [ha]; exact ⟨rfl, rfl, rfl⟩)⟩

theorem Keeps.put_regs {l : List Part} {s t : State} {x : Tbl Word} (hl : l.contains .regs = true) (h : Keeps l s t) :
    Keeps l s { t with regs := x } := by
  refine h.put (fun p hp => ?_) rfl rfl rfl rfl rfl
  cases p <;> first | rfl | exact absurd (by simpa using hl) hp

theorem Keeps.put_held {l : List Part} {s t : State} {x : Tbl Word} (hl : l.contains .held = true) (h : Keeps l s t) :
    Keeps l s { t with held := x } := by
  refine h.put (fun p hp => ?_) rfl rfl rfl rfl rfl
  cases p <;> first | rfl | exact absurd (by simpa using hl) hp

theorem Keeps.put_latch {l : List Part} {s t : State} {x : Tbl Word} (hl : l.contains .latch = true) (h : Keeps l s t) :
    Keeps l s { t with latch := x } := by
  refine h.put (fun p hp => ?_) rfl rfl rfl rfl rfl
  cases p <;> first | rfl | exact absurd (by simpa using hl) hp

theorem Keeps.put_rdata {l : List Part} {s t : State} {x : Nat} (hl : l.contains .rdata = true) (h : Keeps l s t) :
    Keeps l s { t with rdata := x } := by
  refine h.put (fun p hp => ?_) rfl rfl rfl rfl rfl
  cases p <;> first | rfl | exact absurd (by simpa using hl) hp

theorem Keeps.put_time {l : List Part} {s t : State} {x : Nat} (hl : l.contains .time = true) (h : Keeps l s t) :
    Keeps l s { t with time := x } := by
  refine h.put (fun p hp => ?_) rfl rfl rfl rfl rfl
  cases p <;> first | rfl | exact absurd (by simpa using hl) hp

theorem Keeps.put_cycles {l : List Part} {s t : State} {x : Nat} (hl : l.contains .cycles = true) (h : Keeps l s t) :
    Keeps l s { t with cycles := x } := by
  refine h.put (fun p hp => ?_) rfl rfl rfl rfl rfl
  cases p <;> first | rfl | exact absurd (by simpa using hl) hp

theorem Keeps.put_freeCtr {l : List Part} {s t : State} {x : Nat} (hl : l.contains .freeCtr = true) (h : Keeps l s t) :
    Keeps l s { t with freeCtr := x } := by
  refine h.put (fun p hp => ?_) rfl rfl rfl rfl rfl
  cases p <;> first | rfl | exact absurd (by simpa using hl) hp

theorem Keeps.put_ecc {l : List Part} {s t : State} {x : List (EccMem × Nat × Bool)} (hl : l.contains .ecc = true) (h : Keeps l s t) :
    Keeps l s { t with ecc := x } := by
  refine h.put (fun p hp => ?_) rfl rfl rfl rfl rfl
  cases p <;> first | rfl | exact absurd (by simpa using hl) hp

theorem Keeps.put_mast {l : List Part} {s t : State} {x : Mast} (hl : l.contains .mast = true) (h : Keeps l s t) :
    Keeps l s { t with mast := x } := by
  refine h.put (fun p hp => ?_) rfl rfl rfl rfl rfl
  cases p <;> first | rfl | exact absurd (by simpa using hl) hp

theorem Keeps.put_bell {l : List Part} {s t : State} {x : Bell} (hl : l.contains .bell = true) (h : Keeps l s t) :
    Keeps l s { t with bell := x } := by
  refine h.put (fun p hp => ?_) rfl rfl rfl rfl rfl
  cases p <;> first | rfl | exact absurd (by simpa using hl) hp

theorem Keeps.put_cup {l : List Part} {s t : State} {x : Cup} (hl : l.contains .cup = true) (h : Keeps l s t) :
    Keeps l s { t with cup := x } := by
  refine h.put (fun p hp => ?_) rfl rfl rfl rfl rfl
  cases p <;> first | rfl | exact absurd (by simpa using hl) hp

theorem Keeps.put_dwy {l : List Part} {s t : State} {x : Dwy} (hl : l.contains .dwy = true) (h : Keeps l s t) :
    Keeps l s { t with dwy := x } := by
  refine h.put (fun p hp => ?_) rfl rfl rfl rfl rfl
  cases p <;> first | rfl | exact absurd (by simpa using hl) hp

theorem Keeps.put_pipe {l : List Part} {s t : State} {x : Pipe} (hl : l.contains .pipe = true) (h : Keeps l s t) :
    Keeps l s { t with pipe := x } := by
  refine h.put (fun p hp => ?_) rfl rfl rfl rfl rfl
  cases p <;> first | rfl | exact absurd (by simpa using hl) hp

theorem Keeps.put_hlw {l : List Part} {s t : State} {x : Hlw} (hl : l.contains .hlw = true) (h : Keeps l s t) :
    Keeps l s { t with hlw := x } := by
  refine h.put (fun p hp => ?_) rfl rfl rfl rfl rfl
  cases p <;> first | rfl | exact absurd (by simpa using hl) hp

theorem Keeps.put_gal {l : List Part} {s t : State} {x : Gal} (hl : l.contains .gal = true) (h : Keeps l s t) :
    Keeps l s { t with gal := x } := by
  refine h.put (fun p hp => ?_) rfl rfl rfl rfl rfl
  cases p <;> first | rfl | exact absurd (by simpa using hl) hp

theorem Keeps.put_lrd {l : List Part} {s t : State} {x : Lrd} (hl : l.contains .lrd = true) (h : Keeps l s t) :
    Keeps l s { t with lrd := x } := by
  refine h.put (fun p hp => ?_) rfl rfl rfl rfl rfl
  cases p <;> first | rfl | exact absurd (by simpa using hl) hp

theorem Keeps.put_stw {l : List Part} {s t : State} {x : Stw} (hl : l.contains .stw = true) (h : Keeps l s t) :
    Keeps l s { t with stw := x } := by
  refine h.put (fun p hp => ?_) rfl rfl rfl rfl rfl
  cases p <;> first | rfl | exact absurd (by simpa using hl) hp

theorem Keeps.put_sht {l : List Part} {s t : State} {x : Sht} (hl : l.contains .sht = true) (h : Keeps l s t) :
    Keeps l s { t with sht := x } := by
  refine h.put (fun p hp => ?_) rfl rfl rfl rfl rfl
  cases p <;> first | rfl | exact absurd (by simpa using hl) hp

theorem Keeps.put_crw {l : List Part} {s t : State} {x : Crw} (hl : l.contains .crw = true) (h : Keeps l s t) :
    Keeps l s { t with crw := x } := by
  refine h.put (fun p hp => ?_) rfl rfl rfl rfl rfl
  cases p <;> first | rfl | exact absurd (by simpa using hl) hp

theorem Keeps.put_cel {l : List Part} {s t : State} {x : Cel} (hl : l.contains .cel = true)
    (hm : Memory.wf 0 t.cel.mem = true → Memory.wf 0 x.mem = true) (h : Keeps l s t) : Keeps l s { t with cel := x } := by
  refine h.trans ⟨fun p hp => ?_, rfl, List.prefix_refl _, fun k => ⟨hm k.1, k.2⟩, .of_attic ⟨rfl, rfl, rfl⟩⟩
  cases p <;> first | rfl | exact absurd (by simpa using hl) hp

theorem Keeps.put_lft {l : List Part} {s t : State} {x : Lft} (hl : l.contains .lft = true)
    (hm : Memory.wf 0 t.lft.localMem = true → Memory.wf 0 x.localMem = true)
    (hs : Memory.wf 0 t.lft.shared = true → Memory.wf 0 x.shared = true) (h : Keeps l s t) :
    Keeps l s { t with lft := x } := by
  refine h.trans ⟨fun p hp => ?_, rfl, List.prefix_refl _, fun k => ⟨k.1, k.2.1, k.2.2.1, hm k.2.2.2.1, hs k.2.2.2.2⟩,
    .of_attic ⟨rfl, rfl, rfl⟩⟩
  cases p <;> first | rfl | exact absurd (by simpa using hl) hp

theorem Keeps.put_attic {l : List Part} {s t : State} {x : Attic} (hl : l.contains .attic = true)
    (hm : Memory.wf 0 t.attic.mem = true → Memory.wf 0 x.mem = true)
    (hs : Memory.wf flashErased t.attic.flash = true → Memory.wf flashErased x.flash = true)
    (hf : x.fuseSvn = t.attic.fuseSvn ∧ x.testFuse = t.attic.testFuse ∧ x.keys = t.attic.keys) (h : Keeps l s t) :
    Keeps l s { t with attic := x } := by
  refine h.trans ⟨fun p hp => ?_, rfl, List.prefix_refl _, fun k => ⟨k.1, hm k.2.1, hs k.2.2.1, k.2.2.2⟩, .of_attic hf⟩
  cases p <;> first | rfl | exact absurd (by simpa using hl) hp

theorem Keeps.put_outbox {l : List Part} {s t : State} {x : List Emission} (hl : l.contains .outbox = true)
    (h : Keeps l s t) : Keeps l s { t with outbox := t.outbox ++ x } := by
  refine h.trans ⟨fun p hp => ?_, rfl, List.prefix_append _ _, id, .of_attic ⟨rfl, rfl, rfl⟩⟩
  cases p <;> first | rfl | exact absurd (by simpa using hl) hp

/-! ## Several pieces at once -/

theorem Keeps.put_hlw_gal {l : List Part} {s t : State} {x' : Hlw} {y' : Gal}
    (hl_hlw : l.contains .hlw = true)
    (hl_gal : l.contains .gal = true)
    (h : Keeps l s t) : Keeps l s { t with hlw := x', gal := y' } := by
  refine h.trans ⟨fun p hp => ?_, rfl, List.prefix_refl _, fun k => ⟨k.1, k.2.1, k.2.2.1, k.2.2.2.1, k.2.2.2.2⟩, .of_attic ⟨rfl, rfl, rfl⟩⟩
  cases p <;> first | rfl | exact absurd (by simpa using hl_hlw) hp | exact absurd (by simpa using hl_gal) hp

theorem Keeps.put_stw_sht {l : List Part} {s t : State} {x' : Stw} {y' : Sht}
    (hl_stw : l.contains .stw = true)
    (hl_sht : l.contains .sht = true)
    (h : Keeps l s t) : Keeps l s { t with stw := x', sht := y' } := by
  refine h.trans ⟨fun p hp => ?_, rfl, List.prefix_refl _, fun k => ⟨k.1, k.2.1, k.2.2.1, k.2.2.2.1, k.2.2.2.2⟩, .of_attic ⟨rfl, rfl, rfl⟩⟩
  cases p <;> first | rfl | exact absurd (by simpa using hl_stw) hp | exact absurd (by simpa using hl_sht) hp

theorem Keeps.put_cup_pipe_stw {l : List Part} {s t : State} {x' : Cup} {y' : Pipe} {z' : Stw}
    (hl_cup : l.contains .cup = true)
    (hl_pipe : l.contains .pipe = true)
    (hl_stw : l.contains .stw = true)
    (h : Keeps l s t) : Keeps l s { t with cup := x', pipe := y', stw := z' } := by
  refine h.trans ⟨fun p hp => ?_, rfl, List.prefix_refl _, fun k => ⟨k.1, k.2.1, k.2.2.1, k.2.2.2.1, k.2.2.2.2⟩, .of_attic ⟨rfl, rfl, rfl⟩⟩
  cases p <;> first | rfl | exact absurd (by simpa using hl_cup) hp | exact absurd (by simpa using hl_pipe) hp | exact absurd (by simpa using hl_stw) hp

theorem Keeps.put_attic_dwy {l : List Part} {s t : State} {x' : Attic} {y' : Dwy}
    (hl_attic : l.contains .attic = true)
    (hl_dwy : l.contains .dwy = true)
    (ha : Memory.wf 0 t.attic.mem = true → Memory.wf 0 x'.mem = true)
    (hs : Memory.wf flashErased t.attic.flash = true → Memory.wf flashErased x'.flash = true)
    (hf : x'.fuseSvn = t.attic.fuseSvn ∧ x'.testFuse = t.attic.testFuse ∧ x'.keys = t.attic.keys)
    (h : Keeps l s t) : Keeps l s { t with attic := x', dwy := y' } := by
  refine h.trans ⟨fun p hp => ?_, rfl, List.prefix_refl _, fun k => ⟨k.1, ha k.2.1, hs k.2.2.1, k.2.2.2.1, k.2.2.2.2⟩, .of_attic hf⟩
  cases p <;> first | rfl | exact absurd (by simpa using hl_attic) hp | exact absurd (by simpa using hl_dwy) hp

theorem Keeps.put_mast_attic {l : List Part} {s t : State} {x' : Mast} {y' : Attic}
    (hl_mast : l.contains .mast = true)
    (hl_attic : l.contains .attic = true)
    (ha : Memory.wf 0 t.attic.mem = true → Memory.wf 0 y'.mem = true)
    (hs : Memory.wf flashErased t.attic.flash = true → Memory.wf flashErased y'.flash = true)
    (hf : y'.fuseSvn = t.attic.fuseSvn ∧ y'.testFuse = t.attic.testFuse ∧ y'.keys = t.attic.keys)
    (h : Keeps l s t) : Keeps l s { t with mast := x', attic := y' } := by
  refine h.trans ⟨fun p hp => ?_, rfl, List.prefix_refl _, fun k => ⟨k.1, ha k.2.1, hs k.2.2.1, k.2.2.2.1, k.2.2.2.2⟩, .of_attic hf⟩
  cases p <;> first | rfl | exact absurd (by simpa using hl_mast) hp | exact absurd (by simpa using hl_attic) hp

theorem Keeps.put_cel_dwy {l : List Part} {s t : State} {x' : Cel} {y' : Dwy}
    (hl_cel : l.contains .cel = true)
    (hl_dwy : l.contains .dwy = true)
    (hc : Memory.wf 0 t.cel.mem = true → Memory.wf 0 x'.mem = true)
    (h : Keeps l s t) : Keeps l s { t with cel := x', dwy := y' } := by
  refine h.trans ⟨fun p hp => ?_, rfl, List.prefix_refl _, fun k => ⟨hc k.1, k.2.1, k.2.2.1, k.2.2.2.1, k.2.2.2.2⟩, .of_attic ⟨rfl, rfl, rfl⟩⟩
  cases p <;> first | rfl | exact absurd (by simpa using hl_cel) hp | exact absurd (by simpa using hl_dwy) hp

theorem Keeps.put_ecc_lft {l : List Part} {s t : State} {x' : List (EccMem × Nat × Bool)} {y' : Lft}
    (hl_ecc : l.contains .ecc = true)
    (hl_lft : l.contains .lft = true)
    (hm : Memory.wf 0 t.lft.localMem = true → Memory.wf 0 y'.localMem = true)
    (hh : Memory.wf 0 t.lft.shared = true → Memory.wf 0 y'.shared = true)
    (h : Keeps l s t) : Keeps l s { t with ecc := x', lft := y' } := by
  refine h.trans ⟨fun p hp => ?_, rfl, List.prefix_refl _, fun k => ⟨k.1, k.2.1, k.2.2.1, hm k.2.2.2.1, hh k.2.2.2.2⟩, .of_attic ⟨rfl, rfl, rfl⟩⟩
  cases p <;> first | rfl | exact absurd (by simpa using hl_ecc) hp | exact absurd (by simpa using hl_lft) hp

theorem Keeps.put_ecc_cel {l : List Part} {s t : State} {x' : List (EccMem × Nat × Bool)} {y' : Cel}
    (hl_ecc : l.contains .ecc = true)
    (hl_cel : l.contains .cel = true)
    (hc : Memory.wf 0 t.cel.mem = true → Memory.wf 0 y'.mem = true)
    (h : Keeps l s t) : Keeps l s { t with ecc := x', cel := y' } := by
  refine h.trans ⟨fun p hp => ?_, rfl, List.prefix_refl _, fun k => ⟨hc k.1, k.2.1, k.2.2.1, k.2.2.2.1, k.2.2.2.2⟩, .of_attic ⟨rfl, rfl, rfl⟩⟩
  cases p <;> first | rfl | exact absurd (by simpa using hl_ecc) hp | exact absurd (by simpa using hl_cel) hp

theorem Keeps.put_attic_crw {l : List Part} {s t : State} {x' : Attic} {y' : Crw}
    (hl_attic : l.contains .attic = true)
    (hl_crw : l.contains .crw = true)
    (ha : Memory.wf 0 t.attic.mem = true → Memory.wf 0 x'.mem = true)
    (hs : Memory.wf flashErased t.attic.flash = true → Memory.wf flashErased x'.flash = true)
    (hf : x'.fuseSvn = t.attic.fuseSvn ∧ x'.testFuse = t.attic.testFuse ∧ x'.keys = t.attic.keys)
    (h : Keeps l s t) : Keeps l s { t with attic := x', crw := y' } := by
  refine h.trans ⟨fun p hp => ?_, rfl, List.prefix_refl _, fun k => ⟨k.1, ha k.2.1, hs k.2.2.1, k.2.2.2.1, k.2.2.2.2⟩, .of_attic hf⟩
  cases p <;> first | rfl | exact absurd (by simpa using hl_attic) hp | exact absurd (by simpa using hl_crw) hp

theorem Keeps.put_time_attic {l : List Part} {s t : State} {x' : Nat} {z' : Attic}
    (hl_time : l.contains .time = true)
    (hl_attic : l.contains .attic = true)
    (ha : Memory.wf 0 t.attic.mem = true → Memory.wf 0 z'.mem = true)
    (hs : Memory.wf flashErased t.attic.flash = true → Memory.wf flashErased z'.flash = true)
    (hf : z'.fuseSvn = t.attic.fuseSvn ∧ z'.testFuse = t.attic.testFuse ∧ z'.keys = t.attic.keys)
    (h : Keeps l s t) : Keeps l s { t with time := x', attic := z' } := by
  refine h.trans ⟨fun p hp => ?_, rfl, List.prefix_refl _, fun k => ⟨k.1, ha k.2.1, hs k.2.2.1, k.2.2.2.1, k.2.2.2.2⟩, .of_attic hf⟩
  cases p <;> first | rfl | exact absurd (by simpa using hl_time) hp | exact absurd (by simpa using hl_attic) hp

theorem Keeps.put_regs_attic {l : List Part} {s t : State} {x' : Tbl Word} {y' : Attic}
    (hl_regs : l.contains .regs = true)
    (hl_attic : l.contains .attic = true)
    (ha : Memory.wf 0 t.attic.mem = true → Memory.wf 0 y'.mem = true)
    (hs : Memory.wf flashErased t.attic.flash = true → Memory.wf flashErased y'.flash = true)
    (hf : y'.fuseSvn = t.attic.fuseSvn ∧ y'.testFuse = t.attic.testFuse ∧ y'.keys = t.attic.keys)
    (h : Keeps l s t) : Keeps l s { t with regs := x', attic := y' } := by
  refine h.trans ⟨fun p hp => ?_, rfl, List.prefix_refl _, fun k => ⟨k.1, ha k.2.1, hs k.2.2.1, k.2.2.2.1, k.2.2.2.2⟩, .of_attic hf⟩
  cases p <;> first | rfl | exact absurd (by simpa using hl_regs) hp | exact absurd (by simpa using hl_attic) hp

theorem Keeps.put_rdata_attic {l : List Part} {s t : State} {x' : Nat} {y' : Attic}
    (hl_rdata : l.contains .rdata = true)
    (hl_attic : l.contains .attic = true)
    (ha : Memory.wf 0 t.attic.mem = true → Memory.wf 0 y'.mem = true)
    (hs : Memory.wf flashErased t.attic.flash = true → Memory.wf flashErased y'.flash = true)
    (hf : y'.fuseSvn = t.attic.fuseSvn ∧ y'.testFuse = t.attic.testFuse ∧ y'.keys = t.attic.keys)
    (h : Keeps l s t) : Keeps l s { t with rdata := x', attic := y' } := by
  refine h.trans ⟨fun p hp => ?_, rfl, List.prefix_refl _, fun k => ⟨k.1, ha k.2.1, hs k.2.2.1, k.2.2.2.1, k.2.2.2.2⟩, .of_attic hf⟩
  cases p <;> first | rfl | exact absurd (by simpa using hl_rdata) hp | exact absurd (by simpa using hl_attic) hp

theorem Keeps.put_attic_lft {l : List Part} {s t : State} {x' : Attic} {y' : Lft}
    (hl_attic : l.contains .attic = true)
    (hl_lft : l.contains .lft = true)
    (ha : Memory.wf 0 t.attic.mem = true → Memory.wf 0 x'.mem = true)
    (hs : Memory.wf flashErased t.attic.flash = true → Memory.wf flashErased x'.flash = true)
    (hf : x'.fuseSvn = t.attic.fuseSvn ∧ x'.testFuse = t.attic.testFuse ∧ x'.keys = t.attic.keys)
    (hm : Memory.wf 0 t.lft.localMem = true → Memory.wf 0 y'.localMem = true)
    (hh : Memory.wf 0 t.lft.shared = true → Memory.wf 0 y'.shared = true)
    (h : Keeps l s t) : Keeps l s { t with attic := x', lft := y' } := by
  refine h.trans ⟨fun p hp => ?_, rfl, List.prefix_refl _, fun k => ⟨k.1, ha k.2.1, hs k.2.2.1, hm k.2.2.2.1, hh k.2.2.2.2⟩, .of_attic hf⟩
  cases p <;> first | rfl | exact absurd (by simpa using hl_attic) hp | exact absurd (by simpa using hl_lft) hp

end Sys2Proof.Machine
end

