-- ==== Sys2Proof/Laws/KeepsOps.lean ====
section
/-! SUPPORT. What each function of the model can do to the state, one law for each: functions that the units share. -/

namespace Sys2Proof.Machine

/-! ## Ops -/

theorem State.wr_keeps (s : State) : ∀ a1 a2, Keeps [.regs] s (State.wr s a1 a2) := by
  intro a1 a2
  have h : Keeps [.regs] s s := .refl s
  unfold State.wr
  repeat' (first
      | (with_reducible assumption)
      | ((with_reducible apply Keeps.put_regs); rfl; first | (with_reducible assumption)) | (dsimp only))

theorem State.wf_keeps (s : State) : ∀ a1 a2 a3 a4, Keeps [.regs] s (State.wf s a1 a2 a3 a4) := by
  intro a1 a2 a3 a4
  have h : Keeps [.regs] s s := .refl s
  unfold State.wf
  repeat' (first
      | (with_reducible assumption) | ((with_reducible apply Keeps.after (State.wr_keeps _ _ _)); rfl)
      | (dsimp only))

theorem State.wrN_keeps (s : State) : ∀ a1 a2, Keeps [.regs] s (State.wrN s a1 a2) := by
  intro a1 a2
  have h : Keeps [.regs] s s := .refl s
  unfold State.wrN
  repeat' (first
      | (with_reducible assumption) | ((with_reducible apply Keeps.after (State.wr_keeps _ _ _)); rfl)
      | (dsimp only))

theorem State.setB_keeps (s : State) : ∀ a1 a2, Keeps [.regs] s (State.setB s a1 a2) := by
  intro a1 a2
  have h : Keeps [.regs] s s := .refl s
  unfold State.setB
  repeat' (first
      | (with_reducible assumption) | ((with_reducible apply Keeps.after (State.wf_keeps _ _ _ _ _)); rfl)
      | (dsimp only))

theorem State.putB_keeps (s : State) : ∀ a1 a2 a3, Keeps [.regs] s (State.putB s a1 a2 a3) := by
  intro a1 a2 a3
  have h : Keeps [.regs] s s := .refl s
  unfold State.putB
  repeat' (first
      | (with_reducible assumption) | ((with_reducible apply Keeps.after (State.wf_keeps _ _ _ _ _)); rfl)
      | (dsimp only))

theorem State.wr64_keeps (s : State) : ∀ a1 a2, Keeps [.regs] s (State.wr64 s a1 a2) := by
  intro a1 a2
  have h : Keeps [.regs] s s := .refl s
  unfold State.wr64
  repeat' (first
      | (with_reducible assumption) | ((with_reducible apply Keeps.after (State.wrN_keeps _ _ _)); rfl)
      | (dsimp only))

theorem State.wrWide_keeps (s : State) : ∀ a1 a2 a3, Keeps [.regs] s (State.wrWide s a1 a2 a3) := by
  intro a1 a2 a3
  have h : Keeps [.regs] s s := .refl s
  unfold State.wrWide
  repeat' (first
      | (with_reducible assumption) | ((with_reducible apply Keeps.after (State.wrN_keeps _ _ _)); rfl)
      | (with_reducible refine Keeps.foldl _ ?_ fun _ _ _ => ?_)
      | (with_reducible refine Keeps.foldl_fst _ ?_ fun _ _ _ => ?_) | (dsimp only))

theorem State.plainWrite_keeps (s : State) : ∀ a1 a2, Keeps [.regs] s (State.plainWrite s a1 a2) := by
  intro a1 a2
  have h : Keeps [.regs] s s := .refl s
  unfold State.plainWrite
  repeat' (first
      | (with_reducible assumption) | ((with_reducible apply Keeps.after (State.wr_keeps _ _ _)); rfl)
      | (dsimp only) | split)

theorem State.clearRc_keeps (s : State) : ∀ a1, Keeps [.regs] s (State.clearRc s a1) := by
  intro a1
  have h : Keeps [.regs] s s := .refl s
  unfold State.clearRc
  repeat' (first
      | (with_reducible assumption) | ((with_reducible apply Keeps.after (State.wr_keeps _ _ _)); rfl)
      | (dsimp only) | split)

theorem State.resetRegs_keeps (s : State) : ∀ a1 a2, Keeps [.regs] s (State.resetRegs s a1 a2) := by
  intro a1 a2
  have h : Keeps [.regs] s s := .refl s
  unfold State.resetRegs
  repeat' (first
      | (with_reducible assumption)
      | ((with_reducible apply Keeps.put_regs); rfl; first | (with_reducible assumption)) | (dsimp only))

theorem State.setWrap_keeps (s : State) : ∀ a1, Keeps [.regs] s (State.setWrap s a1) := by
  intro a1
  have h : Keeps [.regs] s s := .refl s
  unfold State.setWrap
  repeat' (first
      | (with_reducible assumption) | ((with_reducible apply Keeps.after (State.setB_keeps _ _ _)); rfl)
      | (dsimp only))

theorem State.countBy_keeps (s : State) : ∀ a1 a2 a3 a4, Keeps [.regs, .mast] s (State.countBy s a1 a2 a3 a4) := by
  intro a1 a2 a3 a4
  have h : Keeps [.regs, .mast] s s := .refl s
  unfold State.countBy
  repeat' (first
      | (with_reducible assumption) | ((with_reducible apply Keeps.after (State.setWrap_keeps _ _)); rfl)
      | (with_reducible refine Keeps.ite ?_ ?_)
      | ((with_reducible apply Keeps.put_mast); rfl; first | (with_reducible assumption) | ((with_reducible apply Keeps.after (State.setWrap_keeps _ _)); rfl) | (with_reducible refine Keeps.ite ?_ ?_))
      | (dsimp only) | split)

theorem State.count_keeps (s : State) : ∀ a1 a2 a3, Keeps [.regs, .mast] s (State.count s a1 a2 a3) := by
  intro a1 a2 a3
  have h : Keeps [.regs, .mast] s s := .refl s
  unfold State.count
  repeat' (first
      | (with_reducible assumption) | ((with_reducible apply Keeps.after (State.countBy_keeps _ _ _ _ _)); rfl)
      | (dsimp only))

theorem State.report_keeps (s : State) : ∀ a1 a2 a3, Keeps [.regs, .mast] s (State.report s a1 a2 a3) := by
  intro a1 a2 a3
  have h : Keeps [.regs, .mast] s s := .refl s
  unfold State.report
  repeat' (first
      | (with_reducible assumption) | ((with_reducible apply Keeps.after (State.count_keeps _ _ _ _)); rfl)
      | (with_reducible refine Keeps.ite ?_ ?_)
      | ((with_reducible apply Keeps.put_mast); rfl; first | (with_reducible assumption) | ((with_reducible apply Keeps.after (State.count_keeps _ _ _ _)); rfl) | (with_reducible refine Keeps.ite ?_ ?_))
      | (dsimp only) | split)

theorem State.pulse_keeps (s : State) : ∀ a1, Keeps [.bell] s (State.pulse s a1) := by
  intro a1
  have h : Keeps [.bell] s s := .refl s
  unfold State.pulse
  repeat' (first
      | (with_reducible assumption)
      | ((with_reducible apply Keeps.put_bell); rfl; first | (with_reducible assumption)) | (dsimp only))

theorem State.eccClear_keeps (s : State) : ∀ a1 a2, Keeps [.ecc] s (State.eccClear s a1 a2) := by
  intro a1 a2
  have h : Keeps [.ecc] s s := .refl s
  unfold State.eccClear
  repeat' (first
      | (with_reducible assumption)
      | ((with_reducible apply Keeps.put_ecc); rfl; first | (with_reducible assumption)) | (dsimp only))

theorem State.eccFlag_keeps (s : State) : ∀ a1 a2 a3, Keeps [.ecc] s (State.eccFlag s a1 a2 a3) := by
  intro a1 a2 a3
  have h : Keeps [.ecc] s s := .refl s
  unfold State.eccFlag
  repeat' (first
      | (with_reducible assumption) | ((with_reducible apply Keeps.after (State.eccClear_keeps _ _ _)); rfl)
      | ((with_reducible apply Keeps.put_ecc); rfl; first | (with_reducible assumption) | ((with_reducible apply Keeps.after (State.eccClear_keeps _ _ _)); rfl))
      | (dsimp only) | split)

theorem State.inject_keeps (s : State) : ∀ a1 a2 a3 a4 a5, Keeps [.regs, .ecc] s (State.inject s a1 a2 a3 a4 a5) := by
  intro a1 a2 a3 a4 a5
  have h : Keeps [.regs, .ecc] s s := .refl s
  unfold State.inject
  repeat' (first
      | (with_reducible assumption) | ((with_reducible apply Keeps.after (State.eccFlag_keeps _ _ _ _)); rfl)
      | ((with_reducible apply Keeps.after (State.wf_keeps _ _ _ _ _)); rfl)
      | (with_reducible refine Keeps.ite ?_ ?_) | (dsimp only) | split)

theorem State.free_keeps (s : State) (w : Nat) : Keeps [.freeCtr] s (State.free s w).2 := Keeps.put_freeCtr rfl (.refl s)

theorem State.emit_keeps (s : State) : ∀ a1, Keeps [.outbox] s (State.emit s a1) := by
  intro a1
  have h : Keeps [.outbox] s s := .refl s
  unfold State.emit
  repeat' (first
      | (with_reducible assumption)
      | ((with_reducible apply Keeps.put_outbox); rfl; first | (with_reducible assumption)) | (dsimp only))

theorem State.answer_keeps (s : State) : ∀ a1, Keeps [.rdata] s (State.answer s a1) := by
  intro a1
  have h : Keeps [.rdata] s s := .refl s
  unfold State.answer
  repeat' (first
      | (with_reducible assumption)
      | ((with_reducible apply Keeps.put_rdata); rfl; first | (with_reducible assumption)) | (dsimp only))

/-! ## CellarOps -/

theorem State.celLatch_keeps (s : State) : ∀ a1 a2 a3 a4, Keeps [.regs] s (State.celLatch s a1 a2 a3 a4) := by
  intro a1 a2 a3 a4
  have h : Keeps [.regs] s s := .refl s
  unfold State.celLatch
  repeat' (first
      | (with_reducible assumption) | ((with_reducible apply Keeps.after (State.wr64_keeps _ _ _)); rfl)
      | ((with_reducible apply Keeps.after (State.wr_keeps _ _ _)); rfl) | (dsimp only))

theorem State.celRefuse_keeps (s : State) : ∀ a1 a2, Keeps [.regs, .mast] s (State.celRefuse s a1 a2) := by
  intro a1 a2
  have h : Keeps [.regs, .mast] s s := .refl s
  unfold State.celRefuse
  repeat' (first
      | (with_reducible assumption) | ((with_reducible apply Keeps.after (State.celLatch_keeps _ _ _ _ _)); rfl)
      | ((with_reducible apply Keeps.after (State.count_keeps _ _ _ _)); rfl)
      | ((with_reducible apply Keeps.after (State.report_keeps _ _ _ _)); rfl)
      | ((with_reducible apply Keeps.after (State.setB_keeps _ _ _)); rfl) | (dsimp only))

theorem State.celCheck_keeps (s : State) : ∀ a1 a2, Keeps [.regs, .ecc, .mast, .cel] s (State.celCheck s a1 a2) := by
  intro a1 a2
  have h : Keeps [.regs, .ecc, .mast, .cel] s s := .refl s
  unfold State.celCheck
  repeat' (first
      | (with_reducible assumption) | ((with_reducible apply Keeps.after (State.celLatch_keeps _ _ _ _ _)); rfl)
      | ((with_reducible apply Keeps.after (State.count_keeps _ _ _ _)); rfl)
      | ((with_reducible apply Keeps.after (State.eccClear_keeps _ _ _)); rfl)
      | ((with_reducible apply Keeps.after (State.report_keeps _ _ _ _)); rfl)
      | ((with_reducible apply Keeps.after (State.setB_keeps _ _ _)); rfl)
      | ((with_reducible apply Keeps.put_cel); rfl; (first | exact fun h => h | exact Memory.wf_write _ _ _ _ | exact Memory.wf_erase _ _ _ _); first | (with_reducible assumption) | ((with_reducible apply Keeps.after (State.celLatch_keeps _ _ _ _ _)); rfl) | ((with_reducible apply Keeps.after (State.count_keeps _ _ _ _)); rfl) | ((with_reducible apply Keeps.after (State.eccClear_keeps _ _ _)); rfl) | ((with_reducible apply Keeps.after (State.report_keeps _ _ _ _)); rfl) | ((with_reducible apply Keeps.after (State.setB_keeps _ _ _)); rfl))
      | (dsimp only) | split)

theorem State.celActivate_keeps (s : State) : ∀ a1 a2, Keeps [.regs, .mast, .cel] s (State.celActivate s a1 a2) := by
  intro a1 a2
  have h : Keeps [.regs, .mast, .cel] s s := .refl s
  unfold State.celActivate
  repeat' (first
      | (with_reducible assumption) | ((with_reducible apply Keeps.after (State.count_keeps _ _ _ _)); rfl)
      | (with_reducible refine Keeps.ite ?_ ?_)
      | ((with_reducible apply Keeps.put_cel); rfl; (first | exact fun h => h | exact Memory.wf_write _ _ _ _ | exact Memory.wf_erase _ _ _ _); first | (with_reducible assumption) | ((with_reducible apply Keeps.after (State.count_keeps _ _ _ _)); rfl) | (with_reducible refine Keeps.ite ?_ ?_))
      | (dsimp only) | split)

theorem State.celTouch_keeps (s : State) : ∀ a1 a2 a3 a4, Keeps [.regs, .mast,
    .cel] s (State.celTouch s a1 a2 a3 a4) := by
  intro a1 a2 a3 a4
  have h : Keeps [.regs, .mast, .cel] s s := .refl s
  unfold State.celTouch
  repeat' (first
      | (with_reducible assumption) | ((with_reducible apply Keeps.after (State.celActivate_keeps _ _ _)); rfl)
      | ((with_reducible apply Keeps.after (State.count_keeps _ _ _ _)); rfl)
      | ((with_reducible apply Keeps.after (State.wf_keeps _ _ _ _ _)); rfl)
      | (with_reducible refine Keeps.ite ?_ ?_)
      | ((with_reducible apply Keeps.put_cel); rfl; (first | exact fun h => h | exact Memory.wf_write _ _ _ _ | exact Memory.wf_erase _ _ _ _); first | (with_reducible assumption) | ((with_reducible apply Keeps.after (State.celActivate_keeps _ _ _)); rfl) | ((with_reducible apply Keeps.after (State.count_keeps _ _ _ _)); rfl) | ((with_reducible apply Keeps.after (State.wf_keeps _ _ _ _ _)); rfl) | (with_reducible refine Keeps.ite ?_ ?_))
      | (dsimp only) | split)

theorem State.celRead1_keeps (s : State) : ∀ a1 a2 a3, Keeps [.regs, .ecc, .mast,
    .cel] s (State.celRead1 s a1 a2 a3).1 := by
  intro a1 a2 a3
  have h : Keeps [.regs, .ecc, .mast, .cel] s s := .refl s
  unfold State.celRead1
  repeat' (first
      | (with_reducible assumption) | ((with_reducible apply Keeps.after (State.celCheck_keeps _ _ _)); rfl)
      | ((with_reducible apply Keeps.after (State.celRefuse_keeps _ _ _)); rfl)
      | ((with_reducible apply Keeps.after (State.celTouch_keeps _ _ _ _ _)); rfl)
      | ((with_reducible apply Keeps.after (State.count_keeps _ _ _ _)); rfl)
      | (with_reducible refine Keeps.each ?_ fun _ _ _ => ?_) | (with_reducible refine Keeps.ite ?_ ?_)
      | (with_reducible apply Keeps.fst_ite) | (dsimp only) | split)

theorem State.celReads_keeps (a0 : Nat) (a1 : List (Nat × Nat)) (s : State) : Keeps [.regs, .ecc, .mast,
    .cel] s (State.celReads a0 a1 s).1 := by
  induction a1 generalizing s with
  | nil => exact .refl s
  | cons p t ih => exact (State.celRead1_keeps s a0 p.1 p.2).trans (ih _)

theorem State.celRead_keeps (s : State) : ∀ a1 a2 a3, Keeps [.regs, .ecc, .mast,
    .cel] s (State.celRead s a1 a2 a3).1 := by
  intro a1 a2 a3
  have h : Keeps [.regs, .ecc, .mast, .cel] s s := .refl s
  unfold State.celRead
  repeat' (first
      | (with_reducible assumption) | ((with_reducible apply Keeps.after (State.celReads_keeps _ _ _)); rfl)
      | ((with_reducible apply Keeps.pair); with_reducible assumption) | (with_reducible apply Keeps.fst_ite)
      | (dsimp only))

theorem State.celBurstWrite_keeps (s : State) : ∀ a1 a2 a3 a4 a5, Keeps [.regs, .ecc, .mast,
    .cel] s (State.celBurstWrite s a1 a2 a3 a4 a5) := by
  intro a1 a2 a3 a4 a5
  have h : Keeps [.regs, .ecc, .mast, .cel] s s := .refl s
  unfold State.celBurstWrite
  repeat' (first
      | (with_reducible assumption) | ((with_reducible apply Keeps.after (State.celCheck_keeps _ _ _)); rfl)
      | ((with_reducible apply Keeps.after (State.count_keeps _ _ _ _)); rfl)
      | ((with_reducible apply Keeps.after (State.eccClear_keeps _ _ _)); rfl)
      | (with_reducible refine Keeps.ite ?_ ?_)
      | ((with_reducible apply Keeps.put_cel); rfl; (first | exact fun h => h | exact Memory.wf_write _ _ _ _ | exact Memory.wf_erase _ _ _ _); first | (with_reducible assumption) | ((with_reducible apply Keeps.after (State.celCheck_keeps _ _ _)); rfl) | ((with_reducible apply Keeps.after (State.count_keeps _ _ _ _)); rfl) | ((with_reducible apply Keeps.after (State.eccClear_keeps _ _ _)); rfl) | (with_reducible refine Keeps.ite ?_ ?_))
      | (dsimp only) | split)

theorem State.celApply_keeps (s : State) : ∀ a1 a2 a3 a4, Keeps [.regs, .ecc, .mast,
    .cel] s (State.celApply s a1 a2 a3 a4) := by
  intro a1 a2 a3 a4
  have h : Keeps [.regs, .ecc, .mast, .cel] s s := .refl s
  unfold State.celApply
  repeat' (first
      | (with_reducible assumption)
      | ((with_reducible apply Keeps.after (State.celBurstWrite_keeps _ _ _ _ _ _)); rfl)
      | (with_reducible refine Keeps.each ?_ fun _ _ _ => ?_)
      | ((with_reducible apply Keeps.put_cel); rfl; (first | exact fun h => h | exact Memory.wf_write _ _ _ _ | exact Memory.wf_erase _ _ _ _); first | (with_reducible assumption) | ((with_reducible apply Keeps.after (State.celBurstWrite_keeps _ _ _ _ _ _)); rfl) | (with_reducible refine Keeps.each ?_ fun _ _ _ => ?_))
      | (dsimp only))

theorem State.backInvalidate_keeps (s : State) : ∀ a1, Keeps [.regs, .mast,
    .outbox] s (State.backInvalidate s a1) := by
  intro a1
  have h : Keeps [.regs, .mast, .outbox] s s := .refl s
  unfold State.backInvalidate
  repeat' (first
      | (with_reducible assumption) | ((with_reducible apply Keeps.after (State.count_keeps _ _ _ _)); rfl)
      | ((with_reducible apply Keeps.after (State.emit_keeps _ _)); rfl) | (dsimp only))

theorem State.celWrite1_keeps (s : State) : ∀ a1 a2 a3 a4, Keeps [.regs, .ecc, .mast, .cel,
    .outbox] s (State.celWrite1 s a1 a2 a3 a4) := by
  intro a1 a2 a3 a4
  have h : Keeps [.regs, .ecc, .mast, .cel, .outbox] s s := .refl s
  unfold State.celWrite1
  repeat' (first
      | (with_reducible assumption) | ((with_reducible apply Keeps.after (State.backInvalidate_keeps _ _)); rfl)
      | ((with_reducible apply Keeps.after (State.celApply_keeps _ _ _ _ _)); rfl)
      | ((with_reducible apply Keeps.after (State.celRefuse_keeps _ _ _)); rfl)
      | ((with_reducible apply Keeps.after (State.celTouch_keeps _ _ _ _ _)); rfl)
      | ((with_reducible apply Keeps.after (State.count_keeps _ _ _ _)); rfl)
      | (with_reducible refine Keeps.each ?_ fun _ _ _ => ?_) | (with_reducible refine Keeps.ite ?_ ?_)
      | ((with_reducible apply Keeps.put_cel); rfl; (first | exact fun h => h | exact Memory.wf_write _ _ _ _ | exact Memory.wf_erase _ _ _ _); first | (with_reducible assumption) | ((with_reducible apply Keeps.after (State.backInvalidate_keeps _ _)); rfl) | ((with_reducible apply Keeps.after (State.celApply_keeps _ _ _ _ _)); rfl) | ((with_reducible apply Keeps.after (State.celRefuse_keeps _ _ _)); rfl) | ((with_reducible apply Keeps.after (State.celTouch_keeps _ _ _ _ _)); rfl) | ((with_reducible apply Keeps.after (State.count_keeps _ _ _ _)); rfl) | (with_reducible refine Keeps.each ?_ fun _ _ _ => ?_) | (with_reducible refine Keeps.ite ?_ ?_))
      | (dsimp only) | split)

theorem State.celWrite_keeps (s : State) : ∀ a1 a2 a3, Keeps [.regs, .ecc, .mast, .cel,
    .outbox] s (State.celWrite s a1 a2 a3) := by
  intro a1 a2 a3
  have h : Keeps [.regs, .ecc, .mast, .cel, .outbox] s s := .refl s
  unfold State.celWrite
  repeat' (first
      | (with_reducible assumption) | ((with_reducible apply Keeps.after (State.celWrite1_keeps _ _ _ _ _)); rfl)
      | (with_reducible refine Keeps.each ?_ fun _ _ _ => ?_) | (dsimp only))

theorem State.heldRelease_keeps (s : State) : Keeps [.regs, .ecc, .mast, .cel] s (State.heldRelease s) := by
  have h : Keeps [.regs, .ecc, .mast, .cel] s s := .refl s
  unfold State.heldRelease
  repeat' (first
      | (with_reducible assumption) | ((with_reducible apply Keeps.after (State.celApply_keeps _ _ _ _ _)); rfl)
      | (with_reducible refine Keeps.each ?_ fun _ _ _ => ?_) | (with_reducible refine Keeps.ite ?_ ?_)
      | ((with_reducible apply Keeps.put_cel); rfl; (first | exact fun h => h | exact Memory.wf_write _ _ _ _ | exact Memory.wf_erase _ _ _ _); first | (with_reducible assumption) | ((with_reducible apply Keeps.after (State.celApply_keeps _ _ _ _ _)); rfl) | (with_reducible refine Keeps.each ?_ fun _ _ _ => ?_) | (with_reducible refine Keeps.ite ?_ ?_))
      | (dsimp only) | split)

theorem State.celZero_keeps (s : State) : ∀ a1 a2, Keeps [.cel] s (State.celZero s a1 a2) := by
  intro a1 a2
  have h : Keeps [.cel] s s := .refl s
  unfold State.celZero
  repeat' (first
      | (with_reducible assumption)
      | ((with_reducible apply Keeps.put_cel); rfl; (first | exact fun h => h | exact Memory.wf_write _ _ _ _ | exact Memory.wf_erase _ _ _ _); first | (with_reducible assumption))
      | (dsimp only))

theorem State.channelFail_keeps (s : State) : ∀ a1 a2, Keeps [.regs, .mast] s (State.channelFail s a1 a2) := by
  intro a1 a2
  have h : Keeps [.regs, .mast] s s := .refl s
  unfold State.channelFail
  repeat' (first
      | (with_reducible assumption) | ((with_reducible apply Keeps.after (State.celLatch_keeps _ _ _ _ _)); rfl)
      | ((with_reducible apply Keeps.after (State.report_keeps _ _ _ _)); rfl)
      | ((with_reducible apply Keeps.after (State.setB_keeps _ _ _)); rfl) | (dsimp only))

/-! ## CupboardOps -/

theorem State.levels_keeps (s : State) : ∀ a1, Keeps [.regs, .mast] s (State.levels s a1) := by
  intro a1
  have h : Keeps [.regs, .mast] s s := .refl s
  unfold State.levels
  repeat' (first
      | (with_reducible assumption) | ((with_reducible apply Keeps.after (State.count_keeps _ _ _ _)); rfl)
      | ((with_reducible apply Keeps.after (State.putB_keeps _ _ _ _)); rfl)
      | ((with_reducible apply Keeps.after (State.setB_keeps _ _ _)); rfl)
      | ((with_reducible apply Keeps.after (State.wf_keeps _ _ _ _ _)); rfl)
      | (with_reducible refine Keeps.each ?_ fun _ _ _ => ?_) | (with_reducible refine Keeps.ite ?_ ?_)
      | (dsimp only) | split)

theorem State.setPool_keeps (s : State) : ∀ a1 a2, Keeps [.regs, .mast, .cup] s (State.setPool s a1 a2) := by
  intro a1 a2
  have h : Keeps [.regs, .mast, .cup] s s := .refl s
  unfold State.setPool
  repeat' (first
      | (with_reducible assumption) | ((with_reducible apply Keeps.after (State.levels_keeps _ _)); rfl)
      | ((with_reducible apply Keeps.put_cup); rfl; first | (with_reducible assumption) | ((with_reducible apply Keeps.after (State.levels_keeps _ _)); rfl))
      | (dsimp only))

theorem State.bitmapCheck_keeps (s : State) : ∀ a1 a2, Keeps [.regs, .ecc, .mast,
    .cup] s (State.bitmapCheck s a1 a2) := by
  intro a1 a2
  have h : Keeps [.regs, .ecc, .mast, .cup] s s := .refl s
  unfold State.bitmapCheck
  repeat' (first
      | (with_reducible assumption) | ((with_reducible apply Keeps.after (State.count_keeps _ _ _ _)); rfl)
      | ((with_reducible apply Keeps.after (State.eccClear_keeps _ _ _)); rfl)
      | ((with_reducible apply Keeps.after (State.report_keeps _ _ _ _)); rfl)
      | ((with_reducible apply Keeps.after (State.setB_keeps _ _ _)); rfl)
      | ((with_reducible apply Keeps.after (State.setPool_keeps _ _ _)); rfl)
      | ((with_reducible apply Keeps.after (State.wr_keeps _ _ _)); rfl) | (dsimp only) | split)

theorem State.ringRead_keeps (s : State) : ∀ a1 a2 a3, Keeps [.regs, .ecc, .mast,
    .cel] s (State.ringRead s a1 a2 a3).1 := by
  intro a1 a2 a3
  have h : Keeps [.regs, .ecc, .mast, .cel] s s := .refl s
  unfold State.ringRead
  repeat' (first
      | (with_reducible assumption) | ((with_reducible apply Keeps.after (State.celRead_keeps _ _ _ _)); rfl)
      | ((with_reducible apply Keeps.pair); with_reducible assumption) | (with_reducible refine Keeps.ite ?_ ?_)
      | (with_reducible apply Keeps.fst_ite) | (dsimp only) | split)

theorem State.cacheRefill_keeps (s : State) : ∀ a1, Keeps [.regs, .ecc, .mast, .cel,
    .cup] s (State.cacheRefill s a1) := by
  intro a1
  have h : Keeps [.regs, .ecc, .mast, .cel, .cup] s s := .refl s
  unfold State.cacheRefill
  repeat' (first
      | (with_reducible assumption) | ((with_reducible apply Keeps.after (State.countBy_keeps _ _ _ _ _)); rfl)
      | ((with_reducible apply Keeps.after (State.report_keeps _ _ _ _)); rfl)
      | ((with_reducible apply Keeps.after (State.ringRead_keeps _ _ _ _)); rfl)
      | ((with_reducible apply Keeps.after (State.setB_keeps _ _ _)); rfl)
      | ((with_reducible apply Keeps.after (State.setPool_keeps _ _ _)); rfl)
      | ((with_reducible apply Keeps.pair); with_reducible assumption) | (with_reducible refine Keeps.ite ?_ ?_)
      | (with_reducible apply Keeps.fst_ite) | (dsimp only) | split)

theorem State.cacheSpill_keeps (s : State) : ∀ a1, Keeps [.regs, .ecc, .mast, .cel, .cup,
    .outbox] s (State.cacheSpill s a1) := by
  intro a1
  have h : Keeps [.regs, .ecc, .mast, .cel, .cup, .outbox] s s := .refl s
  unfold State.cacheSpill
  repeat' (first
      | (with_reducible assumption) | ((with_reducible apply Keeps.after (State.celWrite_keeps _ _ _ _)); rfl)
      | ((with_reducible apply Keeps.after (State.setPool_keeps _ _ _)); rfl)
      | (with_reducible refine Keeps.foldl _ ?_ fun _ _ _ => ?_)
      | (with_reducible refine Keeps.foldl_fst _ ?_ fun _ _ _ => ?_) | (with_reducible refine Keeps.ite ?_ ?_)
      | (dsimp only) | split)

theorem State.takeIndex_keeps (k n : Nat) (s : State) : Keeps [.regs, .ecc, .mast, .cel,
    .cup] s (State.takeIndex k n s).1 := by
  induction n generalizing s with
  | zero => exact .refl s
  | succ n ih =>
    have h : Keeps [.regs, .ecc, .mast, .cel, .cup] s s := .refl s
    unfold State.takeIndex
    repeat' (first
        | with_reducible assumption | ((with_reducible apply Keeps.after (ih _)); rfl)
        | ((with_reducible apply Keeps.after (State.bitmapCheck_keeps _ _ _)); rfl)
        | ((with_reducible apply Keeps.after (State.cacheRefill_keeps _ _)); rfl)
        | ((with_reducible apply Keeps.after (State.count_keeps _ _ _ _)); rfl)
        | ((with_reducible apply Keeps.after (State.report_keeps _ _ _ _)); rfl)
        | ((with_reducible apply Keeps.after (State.setB_keeps _ _ _)); rfl)
        | ((with_reducible apply Keeps.after (State.setPool_keeps _ _ _)); rfl)
        | (with_reducible refine Keeps.ite ?_ ?_) | (with_reducible apply Keeps.fst_ite) | (dsimp only) | split)

theorem State.ownerRead_keeps (s : State) (a : Nat) : Keeps [.regs, .ecc, .mast, .cel] s (State.ownerRead s a).1 := by
  unfold State.ownerRead
  have h := State.celRead_keeps s 0x13 (s.ownerAddr a) 8
  revert h
  generalize s.celRead 0x13 (s.ownerAddr a) 8 = q
  exact id

theorem State.ownerWrite_keeps (s : State) : ∀ a1 a2, Keeps [.regs, .ecc, .mast, .cel,
    .outbox] s (State.ownerWrite s a1 a2) := by
  intro a1 a2
  have h : Keeps [.regs, .ecc, .mast, .cel, .outbox] s s := .refl s
  unfold State.ownerWrite
  repeat' (first
      | (with_reducible assumption) | ((with_reducible apply Keeps.after (State.celWrite_keeps _ _ _ _)); rfl)
      | (dsimp only))

theorem State.ownerPass_keeps (s : State) : ∀ a1 a2, Keeps [.regs, .ecc, .mast, .cel,
    .outbox] s (State.ownerPass s a1 a2) := by
  intro a1 a2
  have h : Keeps [.regs, .ecc, .mast, .cel, .outbox] s s := .refl s
  unfold State.ownerPass
  repeat' (first
      | (with_reducible assumption) | ((with_reducible apply Keeps.after (State.ownerRead_keeps _ _)); rfl)
      | ((with_reducible apply Keeps.after (State.ownerWrite_keeps _ _ _)); rfl)
      | ((with_reducible apply Keeps.pair); with_reducible assumption) | (with_reducible refine Keeps.ite ?_ ?_)
      | (with_reducible apply Keeps.fst_ite) | (dsimp only) | split)

theorem State.grantFrom_keeps (o k n : Nat) (s : State) : Keeps [.regs, .ecc, .mast, .cel, .cup,
    .outbox] s (State.grantFrom o k n s).1 := by
  induction n generalizing s with
  | zero => exact .refl s
  | succ n ih =>
    have h : Keeps [.regs, .ecc, .mast, .cel, .cup, .outbox] s s := .refl s
    unfold State.grantFrom
    repeat' (first
        | with_reducible assumption | ((with_reducible apply Keeps.after (ih _)); rfl)
        | ((with_reducible apply Keeps.after (State.count_keeps _ _ _ _)); rfl)
        | ((with_reducible apply Keeps.after (State.ownerRead_keeps _ _)); rfl)
        | ((with_reducible apply Keeps.after (State.ownerWrite_keeps _ _ _)); rfl)
        | ((with_reducible apply Keeps.after (State.setPool_keeps _ _ _)); rfl)
        | ((with_reducible apply Keeps.after (State.takeIndex_keeps _ _ _)); rfl)
        | ((with_reducible apply Keeps.pair); with_reducible assumption) | (with_reducible refine Keeps.ite ?_ ?_)
        | (with_reducible apply Keeps.fst_ite) | (dsimp only) | split)

theorem State.grantChain_keeps (w : CupAsker) (o n k : Nat) (s : State) : Keeps [.regs, .ecc, .mast, .cel, .cup,
    .outbox] s (State.grantChain w o n k s).1 := by
  induction n generalizing k s with
  | zero => exact .refl s
  | succ n ih =>
    have h : Keeps [.regs, .ecc, .mast, .cel, .cup, .outbox] s s := .refl s
    unfold State.grantChain
    repeat' (first
        | with_reducible assumption | ((with_reducible apply Keeps.after (ih _ _)); rfl)
        | ((with_reducible apply Keeps.after (State.count_keeps _ _ _ _)); rfl)
        | ((with_reducible apply Keeps.after (State.grantFrom_keeps _ _ _ _)); rfl)
        | ((with_reducible apply Keeps.pair); with_reducible assumption) | (with_reducible refine Keeps.ite ?_ ?_)
        | (with_reducible apply Keeps.fst_ite) | (dsimp only) | split)

theorem State.cupGrant_keeps (s : State) : ∀ a1 a2 a3, Keeps [.regs, .ecc, .mast, .cel, .cup,
    .outbox] s (State.cupGrant s a1 a2 a3).1 := by
  intro a1 a2 a3
  have h : Keeps [.regs, .ecc, .mast, .cel, .cup, .outbox] s s := .refl s
  unfold State.cupGrant
  repeat' (first
      | (with_reducible assumption) | ((with_reducible apply Keeps.after (State.count_keeps _ _ _ _)); rfl)
      | ((with_reducible apply Keeps.after (State.grantChain_keeps _ _ _ _ _)); rfl)
      | ((with_reducible apply Keeps.pair); with_reducible assumption) | (with_reducible apply Keeps.fst_ite)
      | (dsimp only) | split)

theorem State.cupCheck_keeps (s : State) : ∀ a1 a2, Keeps [.regs, .ecc, .mast, .cel,
    .cup] s (State.cupCheck s a1 a2).1 := by
  intro a1 a2
  have h : Keeps [.regs, .ecc, .mast, .cel, .cup] s s := .refl s
  unfold State.cupCheck
  repeat' (first
      | (with_reducible assumption) | ((with_reducible apply Keeps.after (State.bitmapCheck_keeps _ _ _)); rfl)
      | ((with_reducible apply Keeps.after (State.ownerRead_keeps _ _)); rfl)
      | ((with_reducible apply Keeps.pair); with_reducible assumption) | (with_reducible refine Keeps.ite ?_ ?_)
      | (with_reducible apply Keeps.fst_ite) | (dsimp only) | split)

theorem State.bufReturn_keeps (s : State) : ∀ a1 a2 a3, Keeps [.regs, .ecc, .mast, .cel, .cup,
    .outbox] s (State.bufReturn s a1 a2 a3) := by
  intro a1 a2 a3
  have h : Keeps [.regs, .ecc, .mast, .cel, .cup, .outbox] s s := .refl s
  unfold State.bufReturn
  repeat' (first
      | (with_reducible assumption) | ((with_reducible apply Keeps.after (State.cacheSpill_keeps _ _)); rfl)
      | ((with_reducible apply Keeps.after (State.count_keeps _ _ _ _)); rfl)
      | ((with_reducible apply Keeps.after (State.ownerWrite_keeps _ _ _)); rfl)
      | ((with_reducible apply Keeps.after (State.setPool_keeps _ _ _)); rfl) | (dsimp only))

theorem State.cupFree_keeps (s : State) : ∀ a1 a2 a3, Keeps [.regs, .ecc, .mast, .cel, .cup,
    .outbox] s (State.cupFree s a1 a2 a3).1 := by
  intro a1 a2 a3
  have h : Keeps [.regs, .ecc, .mast, .cel, .cup, .outbox] s s := .refl s
  unfold State.cupFree
  repeat' (first
      | (with_reducible assumption) | ((with_reducible apply Keeps.after (State.bufReturn_keeps _ _ _ _)); rfl)
      | ((with_reducible apply Keeps.after (State.cupCheck_keeps _ _ _)); rfl)
      | ((with_reducible apply Keeps.after (State.ownerWrite_keeps _ _ _)); rfl)
      | ((with_reducible apply Keeps.pair); with_reducible assumption) | (with_reducible refine Keeps.ite ?_ ?_)
      | (with_reducible apply Keeps.fst_ite) | (dsimp only) | split)

theorem State.cupShare_keeps (s : State) : ∀ a1 a2 a3 a4 a5, Keeps [.regs, .ecc, .mast, .cel, .cup,
    .outbox] s (State.cupShare s a1 a2 a3 a4 a5).1 := by
  intro a1 a2 a3 a4 a5
  have h : Keeps [.regs, .ecc, .mast, .cel, .cup, .outbox] s s := .refl s
  unfold State.cupShare
  repeat' (first
      | (with_reducible assumption) | ((with_reducible apply Keeps.after (State.cupCheck_keeps _ _ _)); rfl)
      | ((with_reducible apply Keeps.after (State.ownerWrite_keeps _ _ _)); rfl)
      | ((with_reducible apply Keeps.pair); with_reducible assumption) | (with_reducible refine Keeps.ite ?_ ?_)
      | (with_reducible apply Keeps.fst_ite) | (dsimp only) | split)

theorem State.hwFree_keeps (s : State) : ∀ a1, Keeps [.regs, .ecc, .mast, .cel, .cup,
    .outbox] s (State.hwFree s a1) := by
  intro a1
  have h : Keeps [.regs, .ecc, .mast, .cel, .cup, .outbox] s s := .refl s
  unfold State.hwFree
  repeat' (first
      | (with_reducible assumption) | ((with_reducible apply Keeps.after (State.cupCheck_keeps _ _ _)); rfl)
      | ((with_reducible apply Keeps.after (State.cupFree_keeps _ _ _ _)); rfl)
      | ((with_reducible apply Keeps.pair); with_reducible assumption) | (with_reducible refine Keeps.ite ?_ ?_)
      | (with_reducible apply Keeps.fst_ite) | (dsimp only) | split)

/-! ## PipeOps -/

theorem State.setFrame_keeps (s : State) : ∀ a1 a2, Keeps [.pipe] s (State.setFrame s a1 a2) := by
  intro a1 a2
  have h : Keeps [.pipe] s s := .refl s
  unfold State.setFrame
  repeat' (first
      | (with_reducible assumption)
      | ((with_reducible apply Keeps.put_pipe); rfl; first | (with_reducible assumption)) | (dsimp only))

theorem State.setHead_keeps (s : State) : ∀ a1 a2, Keeps [.pipe] s (State.setHead s a1 a2) := by
  intro a1 a2
  have h : Keeps [.pipe] s s := .refl s
  unfold State.setHead
  repeat' (first
      | (with_reducible assumption) | ((with_reducible apply Keeps.after (State.setFrame_keeps _ _ _)); rfl)
      | (dsimp only))

theorem State.setFab_keeps (s : State) : ∀ a1 a2, Keeps [.pipe] s (State.setFab s a1 a2) := by
  intro a1 a2
  have h : Keeps [.pipe] s s := .refl s
  unfold State.setFab
  repeat' (first
      | (with_reducible assumption) | ((with_reducible apply Keeps.after (State.setFrame_keeps _ _ _)); rfl)
      | (dsimp only))

theorem State.setSl_keeps (s : State) : ∀ a1 a2, Keeps [.pipe] s (State.setSl s a1 a2) := by
  intro a1 a2
  have h : Keeps [.pipe] s s := .refl s
  unfold State.setSl
  repeat' (first
      | (with_reducible assumption)
      | ((with_reducible apply Keeps.put_pipe); rfl; first | (with_reducible assumption)) | (dsimp only))

theorem State.setPort_keeps (s : State) : ∀ a1 a2, Keeps [.pipe] s (State.setPort s a1 a2) := by
  intro a1 a2
  have h : Keeps [.pipe] s s := .refl s
  unfold State.setPort
  repeat' (first
      | (with_reducible assumption)
      | ((with_reducible apply Keeps.put_pipe); rfl; first | (with_reducible assumption)) | (dsimp only))

theorem State.setCopy_keeps (s : State) : ∀ a1 a2, Keeps [.stw] s (State.setCopy s a1 a2) := by
  intro a1 a2
  have h : Keeps [.stw] s s := .refl s
  unfold State.setCopy
  repeat' (first
      | (with_reducible assumption)
      | ((with_reducible apply Keeps.put_stw); rfl; first | (with_reducible assumption)) | (dsimp only))

theorem State.newFrame_keeps (s : State) : ∀ a1, Keeps [.pipe] s (State.newFrame s a1).1 := by
  intro a1
  have h : Keeps [.pipe] s s := .refl s
  unfold State.newFrame
  repeat' (first
      | (with_reducible assumption) | (with_reducible apply Keeps.fst_ite)
      | ((with_reducible apply Keeps.put_pipe); rfl; first | (with_reducible assumption) | (with_reducible apply Keeps.fst_ite))
      | (dsimp only))

theorem State.takeUnits_keeps (s : State) (f n : Nat) (t : State) (e : s.takeUnits f n = some t) : Keeps [.pipe] s t := by
  unfold State.takeUnits at e
  dsimp only at e
  split at e
  · cases e
    exact State.setFrame_keeps _ _ _
  · cases e

theorem State.xoffClass_keeps (s : State) : ∀ a1 a2, Keeps [.regs, .mast, .pipe] s (State.xoffClass s a1 a2) := by
  intro a1 a2
  have h : Keeps [.regs, .mast, .pipe] s s := .refl s
  unfold State.xoffClass
  repeat' (first
      | (with_reducible assumption) | ((with_reducible apply Keeps.after (State.count_keeps _ _ _ _)); rfl)
      | ((with_reducible apply Keeps.after (State.setPort_keeps _ _ _)); rfl)
      | (with_reducible refine Keeps.each ?_ fun _ _ _ => ?_) | (with_reducible refine Keeps.ite ?_ ?_)
      | (dsimp only) | split)

theorem State.xoffUpdate_keeps (s : State) : ∀ a1, Keeps [.regs, .mast, .pipe] s (State.xoffUpdate s a1) := by
  intro a1
  have h : Keeps [.regs, .mast, .pipe] s s := .refl s
  unfold State.xoffUpdate
  repeat' (first
      | (with_reducible assumption) | ((with_reducible apply Keeps.after (State.xoffClass_keeps _ _ _)); rfl)
      | (with_reducible refine Keeps.each ?_ fun _ _ _ => ?_) | (dsimp only))

theorem State.releaseSet_keeps (s : State) : ∀ a1, Keeps [.crw] s (State.releaseSet s a1) := by
  intro a1
  have h : Keeps [.crw] s s := .refl s
  unfold State.releaseSet
  repeat' (first
      | (with_reducible assumption)
      | ((with_reducible apply Keeps.put_crw); rfl; first | (with_reducible assumption)) | (dsimp only))

theorem State.releaseMark_keeps (s : State) : ∀ a1, Keeps [.regs] s (State.releaseMark s a1) := by
  intro a1
  have h : Keeps [.regs] s s := .refl s
  unfold State.releaseMark
  repeat' (first
      | (with_reducible assumption) | ((with_reducible apply Keeps.after (State.wrN_keeps _ _ _)); rfl)
      | (dsimp only))

theorem State.dropSets_keeps (s : State) : ∀ a1 a2, Keeps [.pipe, .crw] s (State.dropSets s a1 a2) := by
  intro a1 a2
  have h : Keeps [.pipe, .crw] s s := .refl s
  unfold State.dropSets
  repeat' (first
      | (with_reducible assumption) | ((with_reducible apply Keeps.after (State.releaseSet_keeps _ _)); rfl)
      | ((with_reducible apply Keeps.after (State.setFrame_keeps _ _ _)); rfl)
      | (with_reducible refine Keeps.each ?_ fun _ _ _ => ?_) | (dsimp only))

theorem State.dropMark_keeps (s : State) : ∀ a1, Keeps [.regs, .pipe] s (State.dropMark s a1) := by
  intro a1
  have h : Keeps [.regs, .pipe] s s := .refl s
  unfold State.dropMark
  repeat' (first
      | (with_reducible assumption) | ((with_reducible apply Keeps.after (State.releaseMark_keeps _ _)); rfl)
      | ((with_reducible apply Keeps.after (State.setFrame_keeps _ _ _)); rfl) | (dsimp only) | split)

theorem State.frameRelease_keeps (s : State) : ∀ a1, Keeps [.regs, .pipe, .crw] s (State.frameRelease s a1) := by
  intro a1
  have h : Keeps [.regs, .pipe, .crw] s s := .refl s
  unfold State.frameRelease
  repeat' (first
      | (with_reducible assumption) | ((with_reducible apply Keeps.after (State.dropMark_keeps _ _)); rfl)
      | ((with_reducible apply Keeps.after (State.dropSets_keeps _ _ _)); rfl) | (dsimp only))

theorem State.freeFrameUnits_keeps (s : State) : ∀ a1, Keeps [.regs, .mast, .pipe] s (State.freeFrameUnits s a1) := by
  intro a1
  have h : Keeps [.regs, .mast, .pipe] s s := .refl s
  unfold State.freeFrameUnits
  repeat' (first
      | (with_reducible assumption) | ((with_reducible apply Keeps.after (State.setFrame_keeps _ _ _)); rfl)
      | ((with_reducible apply Keeps.after (State.xoffUpdate_keeps _ _)); rfl)
      | (with_reducible refine Keeps.ite ?_ ?_) | (dsimp only) | split)

theorem State.freeBuf_keeps (s : State) : ∀ a1, Keeps [.regs, .ecc, .mast, .cel, .cup, .pipe,
    .outbox] s (State.freeBuf s a1) := by
  intro a1
  have h : Keeps [.regs, .ecc, .mast, .cel, .cup, .pipe, .outbox] s s := .refl s
  unfold State.freeBuf
  repeat' (first
      | (with_reducible assumption) | ((with_reducible apply Keeps.after (State.hwFree_keeps _ _)); rfl)
      | ((with_reducible apply Keeps.after (State.setFrame_keeps _ _ _)); rfl)
      | (with_reducible refine Keeps.ite ?_ ?_) | (dsimp only) | split)

theorem State.tidy_keeps (s : State) : ∀ a1, Keeps [.pipe] s (State.tidy s a1) := by
  intro a1
  have h : Keeps [.pipe] s s := .refl s
  unfold State.tidy
  repeat' (first
      | (with_reducible assumption) | (with_reducible refine Keeps.ite ?_ ?_)
      | ((with_reducible apply Keeps.put_pipe); rfl; first | (with_reducible assumption) | (with_reducible refine Keeps.ite ?_ ?_))
      | (dsimp only) | split)

theorem State.discardFrame_keeps (s : State) : ∀ a1, Keeps [.regs, .ecc, .mast, .cel, .cup, .pipe, .stw, .crw,
    .outbox] s (State.discardFrame s a1) := by
  intro a1
  have h : Keeps [.regs, .ecc, .mast, .cel, .cup, .pipe, .stw, .crw, .outbox] s s := .refl s
  unfold State.discardFrame
  repeat' (first
      | (with_reducible assumption) | ((with_reducible apply Keeps.after (State.frameRelease_keeps _ _)); rfl)
      | ((with_reducible apply Keeps.after (State.freeBuf_keeps _ _)); rfl)
      | ((with_reducible apply Keeps.after (State.freeFrameUnits_keeps _ _)); rfl)
      | ((with_reducible apply Keeps.after (State.setFrame_keeps _ _ _)); rfl)
      | ((with_reducible apply Keeps.after (State.setSl_keeps _ _ _)); rfl)
      | ((with_reducible apply Keeps.after (State.tidy_keeps _ _)); rfl) | (with_reducible refine Keeps.ite ?_ ?_)
      | ((with_reducible apply Keeps.put_stw); rfl; first | (with_reducible assumption) | ((with_reducible apply Keeps.after (State.frameRelease_keeps _ _)); rfl) | ((with_reducible apply Keeps.after (State.freeBuf_keeps _ _)); rfl) | ((with_reducible apply Keeps.after (State.freeFrameUnits_keeps _ _)); rfl) | ((with_reducible apply Keeps.after (State.setFrame_keeps _ _ _)); rfl) | ((with_reducible apply Keeps.after (State.setSl_keeps _ _ _)); rfl) | ((with_reducible apply Keeps.after (State.tidy_keeps _ _)); rfl) | (with_reducible refine Keeps.ite ?_ ?_))
      | (dsimp only) | split)

theorem State.setEg_keeps (s : State) : ∀ a1, Keeps [.stw] s (State.setEg s a1) := by
  intro a1
  have h : Keeps [.stw] s s := .refl s
  unfold State.setEg
  repeat' (first
      | (with_reducible assumption)
      | ((with_reducible apply Keeps.put_stw); rfl; first | (with_reducible assumption)) | (dsimp only))

theorem State.egLeave_keeps (s : State) : ∀ a1, Keeps [.stw, .sht] s (State.egLeave s a1) := by
  intro a1
  have h : Keeps [.stw, .sht] s s := .refl s
  unfold State.egLeave
  repeat' (first
      | (with_reducible assumption) | (with_reducible refine Keeps.ite ?_ ?_)
      | (first | ((with_reducible apply Keeps.put_stw); rfl; first | (with_reducible assumption) | (with_reducible refine Keeps.ite ?_ ?_)) | ((with_reducible apply Keeps.put_sht); rfl; first | (with_reducible assumption) | (with_reducible refine Keeps.ite ?_ ?_)) | ((with_reducible apply Keeps.put_stw_sht); rfl; rfl; first | (with_reducible assumption) | (with_reducible refine Keeps.ite ?_ ?_)))
      | (dsimp only) | split)

theorem State.egTidy_keeps (s : State) : ∀ a1 a2, Keeps [.pipe, .stw] s (State.egTidy s a1 a2) := by
  intro a1 a2
  have h : Keeps [.pipe, .stw] s s := .refl s
  unfold State.egTidy
  repeat' (first
      | (with_reducible assumption) | ((with_reducible apply Keeps.after (State.tidy_keeps _ _)); rfl)
      | (with_reducible refine Keeps.ite ?_ ?_)
      | ((with_reducible apply Keeps.put_stw); rfl; first | (with_reducible assumption) | ((with_reducible apply Keeps.after (State.tidy_keeps _ _)); rfl) | (with_reducible refine Keeps.ite ?_ ?_))
      | (dsimp only) | split)

theorem State.copyEnd_keeps (s : State) : ∀ a1 a2, Keeps [.stw, .sht] s (State.copyEnd s a1 a2) := by
  intro a1 a2
  have h : Keeps [.stw, .sht] s s := .refl s
  unfold State.copyEnd
  repeat' (first
      | (with_reducible assumption) | ((with_reducible apply Keeps.after (State.egLeave_keeps _ _)); rfl)
      | ((with_reducible apply Keeps.after (State.setCopy_keeps _ _ _)); rfl) | (dsimp only))

theorem State.copyGone_keeps (s : State) : ∀ a1, Keeps [.pipe, .stw] s (State.copyGone s a1) := by
  intro a1
  have h : Keeps [.pipe, .stw] s s := .refl s
  unfold State.copyGone
  repeat' (first
      | (with_reducible assumption) | ((with_reducible apply Keeps.after (State.egTidy_keeps _ _ _)); rfl)
      | (with_reducible refine Keeps.ite ?_ ?_)
      | ((with_reducible apply Keeps.put_stw); rfl; first | (with_reducible assumption) | ((with_reducible apply Keeps.after (State.egTidy_keeps _ _ _)); rfl) | (with_reducible refine Keeps.ite ?_ ?_))
      | (dsimp only) | split)

theorem State.enterReentry_keeps (s : State) : ∀ a1, Keeps [.pipe] s (State.enterReentry s a1) := by
  intro a1
  have h : Keeps [.pipe] s s := .refl s
  unfold State.enterReentry
  repeat' (first
      | (with_reducible assumption) | ((with_reducible apply Keeps.after (State.setHead_keeps _ _ _)); rfl)
      | ((with_reducible apply Keeps.after (State.setSl_keeps _ _ _)); rfl) | (dsimp only))

theorem State.wakeSlice_keeps (s : State) : ∀ a1, Keeps [.regs, .ecc, .mast, .cel, .cup, .pipe, .stw, .crw,
    .outbox] s (State.wakeSlice s a1) := by
  intro a1
  have h : Keeps [.regs, .ecc, .mast, .cel, .cup, .pipe, .stw, .crw, .outbox] s s := .refl s
  unfold State.wakeSlice
  repeat' (first
      | (with_reducible assumption) | ((with_reducible apply Keeps.after (State.count_keeps _ _ _ _)); rfl)
      | ((with_reducible apply Keeps.after (State.discardFrame_keeps _ _)); rfl)
      | ((with_reducible apply Keeps.after (State.putB_keeps _ _ _ _)); rfl)
      | ((with_reducible apply Keeps.after (State.setHead_keeps _ _ _)); rfl)
      | ((with_reducible apply Keeps.after (State.setSl_keeps _ _ _)); rfl)
      | ((with_reducible apply Keeps.after (State.takeUnits_keeps _ _ _ _ (by assumption))); rfl)
      | (with_reducible refine Keeps.each ?_ fun _ _ _ => ?_) | (with_reducible refine Keeps.ite ?_ ?_)
      | (dsimp only) | split)

/-! ## ThresholdOps -/

theorem State.ucRead_keeps (s : State) : ∀ a1, Keeps [.regs, .mast] s (State.ucRead s a1).1 := by
  intro a1
  have h : Keeps [.regs, .mast] s s := .refl s
  unfold State.ucRead
  repeat' (first
      | (with_reducible assumption) | ((with_reducible apply Keeps.after (State.count_keeps _ _ _ _)); rfl)
      | ((with_reducible apply Keeps.after (State.report_keeps _ _ _ _)); rfl)
      | ((with_reducible apply Keeps.after (State.setB_keeps _ _ _)); rfl)
      | ((with_reducible apply Keeps.after (State.wf_keeps _ _ _ _ _)); rfl) | (with_reducible apply Keeps.fst_ite)
      | (dsimp only) | split)

theorem parseRun_keeps (sl : Nat) (i : ParseIn) (n : Nat) (s : State) (p : Parse) : Keeps [.regs,
    .mast] s (parseRun sl i n s p).1 := by
  induction n generalizing s p with
  | zero => exact .refl s
  | succ n ih =>
    have h : Keeps [.regs, .mast] s s := .refl s
    unfold parseRun
    repeat' (first
        | with_reducible assumption | ((with_reducible apply Keeps.after (ih _ _)); rfl)
        | ((with_reducible apply Keeps.after (State.ucRead_keeps _ _)); rfl)
        | ((with_reducible apply Keeps.pair); with_reducible assumption) | (with_reducible apply Keeps.fst_ite)
        | (dsimp only) | split)

theorem State.parseHead_keeps (s : State) : ∀ a1, Keeps [.regs, .mast, .pipe] s (State.parseHead s a1) := by
  intro a1
  have h : Keeps [.regs, .mast, .pipe] s s := .refl s
  unfold State.parseHead
  repeat' (first
      | (with_reducible assumption) | ((with_reducible apply Keeps.after (State.count_keeps _ _ _ _)); rfl)
      | ((with_reducible apply Keeps.after (State.setHead_keeps _ _ _)); rfl)
      | ((with_reducible apply Keeps.after (parseRun_keeps _ _ _ _ _)); rfl)
      | ((with_reducible apply Keeps.pair); with_reducible assumption) | (with_reducible refine Keeps.ite ?_ ?_)
      | (with_reducible apply Keeps.fst_ite) | (dsimp only) | split)

/-! ## HallOps -/

theorem State.stageAdd_keeps (s : State) : ∀ a1, Keeps [.regs] s (State.stageAdd s a1) := by
  intro a1
  have h : Keeps [.regs] s s := .refl s
  unfold State.stageAdd
  repeat' (first
      | (with_reducible assumption) | ((with_reducible apply Keeps.after (State.wrN_keeps _ _ _)); rfl)
      | (dsimp only))

theorem State.sramRead_keeps (s : State) : ∀ a1 a2, Keeps [.regs, .ecc, .mast] s (State.sramRead s a1 a2).1 := by
  intro a1 a2
  have h : Keeps [.regs, .ecc, .mast] s s := .refl s
  unfold State.sramRead
  repeat' (first
      | (with_reducible assumption) | ((with_reducible apply Keeps.after (State.count_keeps _ _ _ _)); rfl)
      | ((with_reducible apply Keeps.after (State.eccClear_keeps _ _ _)); rfl)
      | ((with_reducible apply Keeps.after (State.report_keeps _ _ _ _)); rfl)
      | ((with_reducible apply Keeps.after (State.setB_keeps _ _ _)); rfl)
      | ((with_reducible apply Keeps.after (State.wf_keeps _ _ _ _ _)); rfl) | (with_reducible apply Keeps.fst_ite)
      | (dsimp only) | split)

theorem State.sramPut_keeps (s : State) : ∀ a1 a2 a3, Keeps [.regs, .ecc, .hlw] s (State.sramPut s a1 a2 a3) := by
  intro a1 a2 a3
  have h : Keeps [.regs, .ecc, .hlw] s s := .refl s
  unfold State.sramPut
  repeat' (first
      | (with_reducible assumption) | ((with_reducible apply Keeps.after (State.eccClear_keeps _ _ _)); rfl)
      | ((with_reducible apply Keeps.after (State.inject_keeps _ _ _ _ _ _)); rfl)
      | (with_reducible refine Keeps.ite ?_ ?_)
      | ((with_reducible apply Keeps.put_hlw); rfl; first | (with_reducible assumption) | ((with_reducible apply Keeps.after (State.eccClear_keeps _ _ _)); rfl) | ((with_reducible apply Keeps.after (State.inject_keeps _ _ _ _ _ _)); rfl) | (with_reducible refine Keeps.ite ?_ ?_))
      | (dsimp only) | split)

theorem State.slotWords_keeps (s : State) : ∀ a1 a2, Keeps [.regs, .ecc, .mast] s (State.slotWords s a1 a2).1 := by
  intro a1 a2
  have h : Keeps [.regs, .ecc, .mast] s s := .refl s
  unfold State.slotWords
  repeat' (first
      | (with_reducible assumption) | ((with_reducible apply Keeps.after (State.sramRead_keeps _ _ _)); rfl)
      | (with_reducible refine Keeps.foldl _ ?_ fun _ _ _ => ?_)
      | (with_reducible refine Keeps.foldl_fst _ ?_ fun _ _ _ => ?_)
      | ((with_reducible apply Keeps.pair); with_reducible assumption) | (with_reducible apply Keeps.fst_ite)
      | (dsimp only) | split)

/-! ## PorchOps -/

theorem State.peerShow_keeps (s : State) : ∀ a1, Keeps [.regs] s (State.peerShow s a1) := by
  intro a1
  have h : Keeps [.regs] s s := .refl s
  unfold State.peerShow
  repeat' (first
      | (with_reducible assumption) | ((with_reducible apply Keeps.after (State.wrN_keeps _ _ _)); rfl)
      | (with_reducible refine Keeps.ite ?_ ?_) | (dsimp only) | split)

theorem State.peerSet_keeps (s : State) : ∀ a1 a2, Keeps [.regs, .mast, .pipe] s (State.peerSet s a1 a2) := by
  intro a1 a2
  have h : Keeps [.regs, .mast, .pipe] s s := .refl s
  unfold State.peerSet
  repeat' (first
      | (with_reducible assumption) | ((with_reducible apply Keeps.after (State.count_keeps _ _ _ _)); rfl)
      | ((with_reducible apply Keeps.after (State.peerShow_keeps _ _)); rfl)
      | ((with_reducible apply Keeps.after (State.setPort_keeps _ _ _)); rfl)
      | (with_reducible refine Keeps.ite ?_ ?_) | (dsimp only) | split)

theorem State.peerDown_keeps (s : State) : ∀ a1, Keeps [.regs, .mast, .pipe] s (State.peerDown s a1) := by
  intro a1
  have h : Keeps [.regs, .mast, .pipe] s s := .refl s
  unfold State.peerDown
  repeat' (first
      | (with_reducible assumption) | ((with_reducible apply Keeps.after (State.peerSet_keeps _ _ _)); rfl)
      | (dsimp only))

theorem State.pauseShow_keeps (s : State) : ∀ a1, Keeps [.regs] s (State.pauseShow s a1) := by
  intro a1
  have h : Keeps [.regs] s s := .refl s
  unfold State.pauseShow
  repeat' (first
      | (with_reducible assumption) | ((with_reducible apply Keeps.after (State.wf_keeps _ _ _ _ _)); rfl)
      | (dsimp only))

theorem State.pauseLoad_keeps (s : State) : ∀ a1 a2 a3, Keeps [.pipe] s (State.pauseLoad s a1 a2 a3) := by
  intro a1 a2 a3
  have h : Keeps [.pipe] s s := .refl s
  unfold State.pauseLoad
  repeat' (first
      | (with_reducible assumption) | ((with_reducible apply Keeps.after (State.setPort_keeps _ _ _)); rfl)
      | (with_reducible refine Keeps.ite ?_ ?_) | (dsimp only) | split)

theorem State.pfcReceive_keeps (s : State) : ∀ a1 a2 a3, Keeps [.regs, .mast,
    .pipe] s (State.pfcReceive s a1 a2 a3) := by
  intro a1 a2 a3
  have h : Keeps [.regs, .mast, .pipe] s s := .refl s
  unfold State.pfcReceive
  repeat' (first
      | (with_reducible assumption) | ((with_reducible apply Keeps.after (State.count_keeps _ _ _ _)); rfl)
      | ((with_reducible apply Keeps.after (State.pauseLoad_keeps _ _ _ _)); rfl)
      | ((with_reducible apply Keeps.after (State.pauseShow_keeps _ _)); rfl)
      | (with_reducible refine Keeps.each ?_ fun _ _ _ => ?_) | (with_reducible refine Keeps.ite ?_ ?_)
      | (dsimp only) | split)

theorem State.pauseReceive_keeps (s : State) : ∀ a1 a2, Keeps [.regs, .mast,
    .pipe] s (State.pauseReceive s a1 a2) := by
  intro a1 a2
  have h : Keeps [.regs, .mast, .pipe] s s := .refl s
  unfold State.pauseReceive
  repeat' (first
      | (with_reducible assumption) | ((with_reducible apply Keeps.after (State.count_keeps _ _ _ _)); rfl)
      | ((with_reducible apply Keeps.after (State.pauseLoad_keeps _ _ _ _)); rfl)
      | ((with_reducible apply Keeps.after (State.pauseShow_keeps _ _)); rfl)
      | (with_reducible refine Keeps.each ?_ fun _ _ _ => ?_) | (with_reducible refine Keeps.ite ?_ ?_)
      | (dsimp only) | split)

theorem State.sendHello_keeps (s : State) : ∀ a1 a2 a3, Keeps [.regs, .mast, .pipe,
    .outbox] s (State.sendHello s a1 a2 a3) := by
  intro a1 a2 a3
  have h : Keeps [.regs, .mast, .pipe, .outbox] s s := .refl s
  unfold State.sendHello
  repeat' (first
      | (with_reducible assumption) | ((with_reducible apply Keeps.after (State.countBy_keeps _ _ _ _ _)); rfl)
      | ((with_reducible apply Keeps.after (State.count_keeps _ _ _ _)); rfl)
      | ((with_reducible apply Keeps.after (State.emit_keeps _ _)); rfl)
      | ((with_reducible apply Keeps.after (State.setPort_keeps _ _ _)); rfl)
      | (with_reducible refine Keeps.ite ?_ ?_) | (dsimp only) | split)

theorem State.helloAccept_keeps (s : State) : ∀ a1 a2, Keeps [.regs, .mast, .pipe] s (State.helloAccept s a1 a2) := by
  intro a1 a2
  have h : Keeps [.regs, .mast, .pipe] s s := .refl s
  unfold State.helloAccept
  repeat' (first
      | (with_reducible assumption) | ((with_reducible apply Keeps.after (State.count_keeps _ _ _ _)); rfl)
      | ((with_reducible apply Keeps.after (State.peerDown_keeps _ _)); rfl)
      | ((with_reducible apply Keeps.after (State.peerSet_keeps _ _ _)); rfl)
      | ((with_reducible apply Keeps.after (State.setPort_keeps _ _ _)); rfl)
      | (with_reducible refine Keeps.ite ?_ ?_) | (dsimp only) | split)

theorem State.helloReceive_keeps (s : State) : ∀ a1 a2, Keeps [.regs, .mast,
    .pipe] s (State.helloReceive s a1 a2) := by
  intro a1 a2
  have h : Keeps [.regs, .mast, .pipe] s s := .refl s
  unfold State.helloReceive
  repeat' (first
      | (with_reducible assumption) | ((with_reducible apply Keeps.after (State.count_keeps _ _ _ _)); rfl)
      | ((with_reducible apply Keeps.after (State.helloAccept_keeps _ _ _)); rfl)
      | (with_reducible refine Keeps.ite ?_ ?_) | (dsimp only) | split)

theorem State.portLinkDown_keeps (s : State) : ∀ a1, Keeps [.regs, .mast, .pipe, .stw,
    .sht] s (State.portLinkDown s a1) := by
  intro a1
  have h : Keeps [.regs, .mast, .pipe, .stw, .sht] s s := .refl s
  unfold State.portLinkDown
  repeat' (first
      | (with_reducible assumption) | ((with_reducible apply Keeps.after (State.copyEnd_keeps _ _ _)); rfl)
      | ((with_reducible apply Keeps.after (State.copyGone_keeps _ _)); rfl)
      | ((with_reducible apply Keeps.after (State.count_keeps _ _ _ _)); rfl)
      | ((with_reducible apply Keeps.after (State.pauseShow_keeps _ _)); rfl)
      | ((with_reducible apply Keeps.after (State.peerDown_keeps _ _)); rfl)
      | ((with_reducible apply Keeps.after (State.putB_keeps _ _ _ _)); rfl)
      | ((with_reducible apply Keeps.after (State.setB_keeps _ _ _)); rfl)
      | ((with_reducible apply Keeps.after (State.setFrame_keeps _ _ _)); rfl)
      | ((with_reducible apply Keeps.after (State.setPort_keeps _ _ _)); rfl)
      | ((with_reducible apply Keeps.after (State.tidy_keeps _ _)); rfl) | (with_reducible refine Keeps.ite ?_ ?_)
      | (dsimp only) | split)

theorem State.portDisable_keeps (s : State) : ∀ a1, Keeps [.regs, .mast, .pipe, .stw, .sht,
    .outbox] s (State.portDisable s a1) := by
  intro a1
  have h : Keeps [.regs, .mast, .pipe, .stw, .sht, .outbox] s s := .refl s
  unfold State.portDisable
  repeat' (first
      | (with_reducible assumption) | ((with_reducible apply Keeps.after (State.portLinkDown_keeps _ _)); rfl)
      | ((with_reducible apply Keeps.after (State.sendHello_keeps _ _ _ _)); rfl)
      | ((with_reducible apply Keeps.after (State.setPort_keeps _ _ _)); rfl)
      | ((with_reducible apply Keeps.after (State.wf_keeps _ _ _ _ _)); rfl)
      | (with_reducible refine Keeps.ite ?_ ?_) | (dsimp only) | split)

/-! ## CrowOps -/

theorem State.recFromCellar_keeps (s : State) : ∀ a1, Keeps [.regs, .ecc, .mast,
    .cel] s (State.recFromCellar s a1).1 := by
  intro a1
  have h : Keeps [.regs, .ecc, .mast, .cel] s s := .refl s
  unfold State.recFromCellar
  repeat' (first
      | (with_reducible assumption) | ((with_reducible apply Keeps.after (State.celRead_keeps _ _ _ _)); rfl)
      | ((with_reducible apply Keeps.after (State.count_keeps _ _ _ _)); rfl)
      | ((with_reducible apply Keeps.after (State.report_keeps _ _ _ _)); rfl)
      | ((with_reducible apply Keeps.after (State.setB_keeps _ _ _)); rfl)
      | ((with_reducible apply Keeps.after (State.wrN_keeps _ _ _)); rfl)
      | ((with_reducible apply Keeps.pair); with_reducible assumption) | (with_reducible refine Keeps.ite ?_ ?_)
      | (with_reducible apply Keeps.fst_ite) | (dsimp only) | split)

theorem State.setCache_keeps (s : State) : ∀ a1 a2, Keeps [.crw] s (State.setCache s a1 a2) := by
  intro a1 a2
  have h : Keeps [.crw] s s := .refl s
  unfold State.setCache
  repeat' (first
      | (with_reducible assumption)
      | ((with_reducible apply Keeps.put_crw); rfl; first | (with_reducible assumption)) | (dsimp only))

theorem State.cacheDrop_keeps (s : State) : ∀ a1, Keeps [.ecc, .crw] s (State.cacheDrop s a1) := by
  intro a1
  have h : Keeps [.ecc, .crw] s s := .refl s
  unfold State.cacheDrop
  repeat' (first
      | (with_reducible assumption) | ((with_reducible apply Keeps.after (State.eccClear_keeps _ _ _)); rfl)
      | ((with_reducible apply Keeps.after (State.setCache_keeps _ _ _)); rfl) | (dsimp only))

theorem State.cacheFill_keeps (s : State) : ∀ a1 a2, Keeps [.ecc, .crw] s (State.cacheFill s a1 a2) := by
  intro a1 a2
  have h : Keeps [.ecc, .crw] s s := .refl s
  unfold State.cacheFill
  repeat' (first
      | (with_reducible assumption) | ((with_reducible apply Keeps.after (State.eccClear_keeps _ _ _)); rfl)
      | ((with_reducible apply Keeps.after (State.setCache_keeps _ _ _)); rfl) | (dsimp only) | split)

theorem State.cacheCheck_keeps (s : State) : ∀ a1, Keeps [.regs, .ecc, .mast, .crw] s (State.cacheCheck s a1) := by
  intro a1
  have h : Keeps [.regs, .ecc, .mast, .crw] s s := .refl s
  unfold State.cacheCheck
  repeat' (first
      | (with_reducible assumption) | ((with_reducible apply Keeps.after (State.cacheDrop_keeps _ _)); rfl)
      | ((with_reducible apply Keeps.after (State.count_keeps _ _ _ _)); rfl)
      | ((with_reducible apply Keeps.after (State.eccClear_keeps _ _ _)); rfl)
      | ((with_reducible apply Keeps.after (State.report_keeps _ _ _ _)); rfl)
      | ((with_reducible apply Keeps.after (State.setB_keeps _ _ _)); rfl) | (dsimp only) | split)

theorem State.recRead_keeps (s : State) : ∀ a1, Keeps [.regs, .ecc, .mast, .cel, .crw] s (State.recRead s a1).1 := by
  intro a1
  have h : Keeps [.regs, .ecc, .mast, .cel, .crw] s s := .refl s
  unfold State.recRead
  repeat' (first
      | (with_reducible assumption) | ((with_reducible apply Keeps.after (State.cacheCheck_keeps _ _)); rfl)
      | ((with_reducible apply Keeps.after (State.recFromCellar_keeps _ _)); rfl)
      | ((with_reducible apply Keeps.pair); with_reducible assumption) | (with_reducible refine Keeps.ite ?_ ?_)
      | (with_reducible apply Keeps.fst_ite) | (dsimp only) | split)

theorem State.recWrite_keeps (s : State) : ∀ a1 a2, Keeps [.regs, .ecc, .mast, .cel, .crw,
    .outbox] s (State.recWrite s a1 a2) := by
  intro a1 a2
  have h : Keeps [.regs, .ecc, .mast, .cel, .crw, .outbox] s s := .refl s
  unfold State.recWrite
  repeat' (first
      | (with_reducible assumption) | ((with_reducible apply Keeps.after (State.celWrite_keeps _ _ _ _)); rfl)
      | ((with_reducible apply Keeps.after (State.eccClear_keeps _ _ _)); rfl)
      | ((with_reducible apply Keeps.after (State.inject_keeps _ _ _ _ _ _)); rfl)
      | ((with_reducible apply Keeps.after (State.setCache_keeps _ _ _)); rfl)
      | (with_reducible refine Keeps.ite ?_ ?_) | (dsimp only) | split)

theorem State.setAlloc_keeps (s : State) : ∀ a1, Keeps [.regs, .mast, .crw] s (State.setAlloc s a1).1 := by
  intro a1
  have h : Keeps [.regs, .mast, .crw] s s := .refl s
  unfold State.setAlloc
  repeat' (first
      | (with_reducible assumption) | ((with_reducible apply Keeps.after (State.count_keeps _ _ _ _)); rfl)
      | (with_reducible refine Keeps.ite ?_ ?_) | (with_reducible apply Keeps.fst_ite)
      | ((with_reducible apply Keeps.put_crw); rfl; first | (with_reducible assumption) | ((with_reducible apply Keeps.after (State.count_keeps _ _ _ _)); rfl) | (with_reducible refine Keeps.ite ?_ ?_) | (with_reducible apply Keeps.fst_ite))
      | (dsimp only) | split)

/-! ## SheetOps -/

theorem State.setPol_keeps (s : State) : ∀ a1 a2 a3, Keeps [.sht] s (State.setPol s a1 a2 a3) := by
  intro a1 a2 a3
  have h : Keeps [.sht] s s := .refl s
  unfold State.setPol
  repeat' (first
      | (with_reducible assumption)
      | ((with_reducible apply Keeps.put_sht); rfl; first | (with_reducible assumption)) | (dsimp only))

theorem State.polCheck_keeps (s : State) : ∀ a1 a2, Keeps [.regs, .ecc, .mast, .sht] s (State.polCheck s a1 a2) := by
  intro a1 a2
  have h : Keeps [.regs, .ecc, .mast, .sht] s s := .refl s
  unfold State.polCheck
  repeat' (first
      | (with_reducible assumption) | ((with_reducible apply Keeps.after (State.count_keeps _ _ _ _)); rfl)
      | ((with_reducible apply Keeps.after (State.eccClear_keeps _ _ _)); rfl)
      | ((with_reducible apply Keeps.after (State.report_keeps _ _ _ _)); rfl)
      | ((with_reducible apply Keeps.after (State.setB_keeps _ _ _)); rfl)
      | ((with_reducible apply Keeps.after (State.setPol_keeps _ _ _ _)); rfl)
      | ((with_reducible apply Keeps.after (State.wr_keeps _ _ _)); rfl) | (dsimp only) | split)

theorem State.yellow_keeps (s : State) : ∀ a1 a2, Keeps [.regs, .mast, .pipe] s (State.yellow s a1 a2) := by
  intro a1 a2
  have h : Keeps [.regs, .mast, .pipe] s s := .refl s
  unfold State.yellow
  repeat' (first
      | (with_reducible assumption) | ((with_reducible apply Keeps.after (State.count_keeps _ _ _ _)); rfl)
      | ((with_reducible apply Keeps.after (State.setFrame_keeps _ _ _)); rfl)
      | ((with_reducible apply Keeps.after (State.setHead_keeps _ _ _)); rfl)
      | (with_reducible refine Keeps.ite ?_ ?_) | (dsimp only) | split)

theorem State.meter_keeps (s : State) : ∀ a1, Keeps [.regs, .ecc, .mast, .pipe, .sht] s (State.meter s a1).1 := by
  intro a1
  have h : Keeps [.regs, .ecc, .mast, .pipe, .sht] s s := .refl s
  unfold State.meter
  repeat' (first
      | (with_reducible assumption) | ((with_reducible apply Keeps.after (State.count_keeps _ _ _ _)); rfl)
      | ((with_reducible apply Keeps.after (State.polCheck_keeps _ _ _)); rfl)
      | ((with_reducible apply Keeps.after (State.setPol_keeps _ _ _ _)); rfl)
      | ((with_reducible apply Keeps.after (State.yellow_keeps _ _ _)); rfl)
      | (with_reducible refine Keeps.ite ?_ ?_) | (with_reducible apply Keeps.fst_ite) | (dsimp only) | split)

theorem State.setShp_keeps (s : State) : ∀ a1 a2, Keeps [.sht] s (State.setShp s a1 a2) := by
  intro a1 a2
  have h : Keeps [.sht] s s := .refl s
  unfold State.setShp
  repeat' (first
      | (with_reducible assumption)
      | ((with_reducible apply Keeps.put_sht); rfl; first | (with_reducible assumption)) | (dsimp only))

theorem State.shpUpdate_keeps (s : State) : ∀ a1, Keeps [.sht] s (State.shpUpdate s a1) := by
  intro a1
  have h : Keeps [.sht] s s := .refl s
  unfold State.shpUpdate
  repeat' (first
      | (with_reducible assumption) | ((with_reducible apply Keeps.after (State.setShp_keeps _ _ _)); rfl)
      | (with_reducible refine Keeps.ite ?_ ?_) | (dsimp only) | split)

theorem State.shpCheck_keeps (s : State) : ∀ a1, Keeps [.regs, .freeCtr, .ecc, .mast,
    .sht] s (State.shpCheck s a1) := by
  intro a1
  have h : Keeps [.regs, .freeCtr, .ecc, .mast, .sht] s s := .refl s
  unfold State.shpCheck
  repeat' (first
      | (with_reducible assumption) | ((with_reducible apply Keeps.after (State.count_keeps _ _ _ _)); rfl)
      | ((with_reducible apply Keeps.after (State.eccClear_keeps _ _ _)); rfl)
      | ((with_reducible apply Keeps.after (State.free_keeps _ _)); rfl)
      | ((with_reducible apply Keeps.after (State.report_keeps _ _ _ _)); rfl)
      | ((with_reducible apply Keeps.after (State.setB_keeps _ _ _)); rfl)
      | ((with_reducible apply Keeps.after (State.setShp_keeps _ _ _)); rfl)
      | ((with_reducible apply Keeps.after (State.wr_keeps _ _ _)); rfl)
      | ((with_reducible apply Keeps.pair_snd); with_reducible assumption) | (dsimp only) | split)

theorem State.shpCharge_keeps (s : State) : ∀ a1 a2 a3, Keeps [.sht] s (State.shpCharge s a1 a2 a3) := by
  intro a1 a2 a3
  have h : Keeps [.sht] s s := .refl s
  unfold State.shpCharge
  repeat' (first
      | (with_reducible assumption) | ((with_reducible apply Keeps.after (State.setShp_keeps _ _ _)); rfl)
      | (with_reducible refine Keeps.ite ?_ ?_) | (dsimp only) | split)

theorem State.burstWrite_keeps (s : State) : ∀ a1 a2, Keeps [.regs, .held, .ecc,
    .sht] s (State.burstWrite s a1 a2) := by
  intro a1 a2
  have h : Keeps [.regs, .held, .ecc, .sht] s s := .refl s
  unfold State.burstWrite
  repeat' (first
      | (with_reducible assumption) | ((with_reducible apply Keeps.after (State.eccClear_keeps _ _ _)); rfl)
      | ((with_reducible apply Keeps.after (State.plainWrite_keeps _ _ _)); rfl)
      | ((with_reducible apply Keeps.after (State.setShp_keeps _ _ _)); rfl)
      | ((with_reducible apply Keeps.after (State.shpUpdate_keeps _ _)); rfl)
      | ((with_reducible apply Keeps.after (State.wr_keeps _ _ _)); rfl)
      | ((with_reducible apply Keeps.put_held); rfl; first | (with_reducible assumption) | ((with_reducible apply Keeps.after (State.eccClear_keeps _ _ _)); rfl) | ((with_reducible apply Keeps.after (State.plainWrite_keeps _ _ _)); rfl) | ((with_reducible apply Keeps.after (State.setShp_keeps _ _ _)); rfl) | ((with_reducible apply Keeps.after (State.shpUpdate_keeps _ _)); rfl) | ((with_reducible apply Keeps.after (State.wr_keeps _ _ _)); rfl))
      | (dsimp only) | split)

theorem State.shapeEnWrite_keeps (s : State) : ∀ a1 a2 a3, Keeps [.regs, .sht] s (State.shapeEnWrite s a1 a2 a3) := by
  intro a1 a2 a3
  have h : Keeps [.regs, .sht] s s := .refl s
  unfold State.shapeEnWrite
  repeat' (first
      | (with_reducible assumption) | ((with_reducible apply Keeps.after (State.plainWrite_keeps _ _ _)); rfl)
      | ((with_reducible apply Keeps.after (State.setShp_keeps _ _ _)); rfl)
      | ((with_reducible apply Keeps.after (State.shpUpdate_keeps _ _)); rfl)
      | (with_reducible refine Keeps.ite ?_ ?_) | (dsimp only) | split)

theorem State.setDwrr_keeps (s : State) : ∀ a1 a2, Keeps [.sht] s (State.setDwrr s a1 a2) := by
  intro a1 a2
  have h : Keeps [.sht] s s := .refl s
  unfold State.setDwrr
  repeat' (first
      | (with_reducible assumption)
      | ((with_reducible apply Keeps.put_sht); rfl; first | (with_reducible assumption)) | (dsimp only))

theorem State.dwrrPick_keeps (s : State) : ∀ a1 a2, Keeps [.sht] s (State.dwrrPick s a1 a2).1 := by
  intro a1 a2
  have h : Keeps [.sht] s s := .refl s
  unfold State.dwrrPick
  repeat' (first
      | (with_reducible assumption) | ((with_reducible apply Keeps.after (State.setDwrr_keeps _ _ _)); rfl)
      | (with_reducible refine Keeps.ite ?_ ?_) | (with_reducible apply Keeps.fst_ite) | (dsimp only) | split)

theorem State.dwrrPay_keeps (s : State) : ∀ a1 a2 a3, Keeps [.sht] s (State.dwrrPay s a1 a2 a3) := by
  intro a1 a2 a3
  have h : Keeps [.sht] s s := .refl s
  unfold State.dwrrPay
  repeat' (first
      | (with_reducible assumption) | ((with_reducible apply Keeps.after (State.setDwrr_keeps _ _ _)); rfl)
      | (with_reducible refine Keeps.ite ?_ ?_) | (dsimp only) | split)

theorem State.ecnJudge_keeps (s : State) : ∀ a1 a2, Keeps [.sht] s (State.ecnJudge s a1 a2).1 := by
  intro a1 a2
  have h : Keeps [.sht] s s := .refl s
  unfold State.ecnJudge
  repeat' (first
      | (with_reducible assumption) | (with_reducible refine Keeps.ite ?_ ?_) | (with_reducible apply Keeps.fst_ite)
      | ((with_reducible apply Keeps.put_sht); rfl; first | (with_reducible assumption) | (with_reducible refine Keeps.ite ?_ ?_) | (with_reducible apply Keeps.fst_ite))
      | (dsimp only) | split)

theorem State.ecnMark_keeps (s : State) : ∀ a1, Keeps [.regs, .mast, .stw, .sht] s (State.ecnMark s a1) := by
  intro a1
  have h : Keeps [.regs, .mast, .stw, .sht] s s := .refl s
  unfold State.ecnMark
  repeat' (first
      | (with_reducible assumption) | ((with_reducible apply Keeps.after (State.count_keeps _ _ _ _)); rfl)
      | ((with_reducible apply Keeps.after (State.ecnJudge_keeps _ _ _)); rfl)
      | ((with_reducible apply Keeps.after (State.setCopy_keeps _ _ _)); rfl)
      | ((with_reducible apply Keeps.pair); with_reducible assumption) | (with_reducible refine Keeps.ite ?_ ?_)
      | (with_reducible apply Keeps.fst_ite) | (dsimp only) | split)

/-! ## BellOps -/

theorem State.condPrune_keeps (s : State) : Keeps [.bell] s (State.condPrune s) := by
  have h : Keeps [.bell] s s := .refl s
  unfold State.condPrune
  repeat' (first
      | (with_reducible assumption)
      | ((with_reducible apply Keeps.put_bell); rfl; first | (with_reducible assumption)) | (dsimp only))

theorem State.putPending_keeps (s : State) : ∀ a1 a2, Keeps [.regs] s (State.putPending s a1 a2) := by
  intro a1 a2
  have h : Keeps [.regs] s s := .refl s
  unfold State.putPending
  repeat' (first
      | (with_reducible assumption) | ((with_reducible apply Keeps.after (State.putB_keeps _ _ _ _)); rfl)
      | (dsimp only))

theorem State.routeCheck_keeps (s : State) : ∀ a1, Keeps [.regs, .ecc, .mast, .bell] s (State.routeCheck s a1) := by
  intro a1
  have h : Keeps [.regs, .ecc, .mast, .bell] s s := .refl s
  unfold State.routeCheck
  repeat' (first
      | (with_reducible assumption) | ((with_reducible apply Keeps.after (State.count_keeps _ _ _ _)); rfl)
      | ((with_reducible apply Keeps.after (State.eccClear_keeps _ _ _)); rfl)
      | ((with_reducible apply Keeps.after (State.report_keeps _ _ _ _)); rfl)
      | ((with_reducible apply Keeps.after (State.setB_keeps _ _ _)); rfl)
      | ((with_reducible apply Keeps.after (State.wrN_keeps _ _ _)); rfl)
      | ((with_reducible apply Keeps.put_bell); rfl; first | (with_reducible assumption) | ((with_reducible apply Keeps.after (State.count_keeps _ _ _ _)); rfl) | ((with_reducible apply Keeps.after (State.eccClear_keeps _ _ _)); rfl) | ((with_reducible apply Keeps.after (State.report_keeps _ _ _ _)); rfl) | ((with_reducible apply Keeps.after (State.setB_keeps _ _ _)); rfl) | ((with_reducible apply Keeps.after (State.wrN_keeps _ _ _)); rfl))
      | (dsimp only) | split)

theorem State.claim_keeps (s : State) : ∀ a1 a2, Keeps [.regs, .mast] s (State.claim s a1 a2) := by
  intro a1 a2
  have h : Keeps [.regs, .mast] s s := .refl s
  unfold State.claim
  repeat' (first
      | (with_reducible assumption) | ((with_reducible apply Keeps.after (State.count_keeps _ _ _ _)); rfl)
      | ((with_reducible apply Keeps.after (State.putPending_keeps _ _ _)); rfl)
      | ((with_reducible apply Keeps.after (State.setB_keeps _ _ _)); rfl)
      | ((with_reducible apply Keeps.after (State.wrN_keeps _ _ _)); rfl) | (dsimp only))

theorem State.complete_keeps (s : State) : ∀ a1, Keeps [.regs, .mast] s (State.complete s a1) := by
  intro a1
  have h : Keeps [.regs, .mast] s s := .refl s
  unfold State.complete
  repeat' (first
      | (with_reducible assumption) | ((with_reducible apply Keeps.after (State.count_keeps _ _ _ _)); rfl)
      | ((with_reducible apply Keeps.after (State.putB_keeps _ _ _ _)); rfl)
      | ((with_reducible apply Keeps.after (State.putPending_keeps _ _ _)); rfl)
      | ((with_reducible apply Keeps.after (State.wrN_keeps _ _ _)); rfl) | (with_reducible refine Keeps.ite ?_ ?_)
      | (dsimp only) | split)

theorem State.raiseVector_keeps (s : State) : ∀ a1 a2, Keeps [.regs, .mast, .bell] s (State.raiseVector s a1 a2) := by
  intro a1 a2
  have h : Keeps [.regs, .mast, .bell] s s := .refl s
  unfold State.raiseVector
  repeat' (first
      | (with_reducible assumption) | ((with_reducible apply Keeps.after (State.count_keeps _ _ _ _)); rfl)
      | (with_reducible refine Keeps.ite ?_ ?_)
      | ((with_reducible apply Keeps.put_bell); rfl; first | (with_reducible assumption) | ((with_reducible apply Keeps.after (State.count_keeps _ _ _ _)); rfl) | (with_reducible refine Keeps.ite ?_ ?_))
      | (dsimp only) | split)

theorem State.bellFnReset_keeps (s : State) : ∀ a1, Keeps [.regs, .mast, .bell] s (State.bellFnReset s a1) := by
  intro a1
  have h : Keeps [.regs, .mast, .bell] s s := .refl s
  unfold State.bellFnReset
  repeat' (first
      | (with_reducible assumption) | ((with_reducible apply Keeps.after (State.complete_keeps _ _)); rfl)
      | ((with_reducible apply Keeps.put_bell); rfl; first | (with_reducible assumption) | ((with_reducible apply Keeps.after (State.complete_keeps _ _)); rfl))
      | (dsimp only))

theorem State.bellPull_keeps (s : State) : ∀ a1, Keeps [.regs, .mast] s (State.bellPull s a1) := by
  intro a1
  have h : Keeps [.regs, .mast] s s := .refl s
  unfold State.bellPull
  repeat' (first
      | (with_reducible assumption) | ((with_reducible apply Keeps.after (State.count_keeps _ _ _ _)); rfl)
      | ((with_reducible apply Keeps.after (State.putPending_keeps _ _ _)); rfl)
      | (with_reducible refine Keeps.ite ?_ ?_) | (dsimp only) | split)

/-! ## LoftsOps -/

theorem State.gateLoft_keeps (s : State) : ∀ a1, Keeps [.regs] s (State.gateLoft s a1) := by
  intro a1
  have h : Keeps [.regs] s s := .refl s
  unfold State.gateLoft
  repeat' (first
      | (with_reducible assumption) | ((with_reducible apply Keeps.after (State.setB_keeps _ _ _)); rfl)
      | (with_reducible refine Keeps.ite ?_ ?_) | (dsimp only) | split)

theorem State.wakeLoft_keeps (s : State) : ∀ a1, Keeps [.regs, .mast] s (State.wakeLoft s a1) := by
  intro a1
  have h : Keeps [.regs, .mast] s s := .refl s
  unfold State.wakeLoft
  repeat' (first
      | (with_reducible assumption) | ((with_reducible apply Keeps.after (State.count_keeps _ _ _ _)); rfl)
      | ((with_reducible apply Keeps.after (State.putB_keeps _ _ _ _)); rfl)
      | (with_reducible refine Keeps.ite ?_ ?_) | (dsimp only) | split)

theorem State.setThr_keeps (s : State) : ∀ a1 a2, Keeps [.regs, .lft] s (State.setThr s a1 a2) := by
  intro a1 a2
  have h : Keeps [.regs, .lft] s s := .refl s
  unfold State.setThr
  repeat' (first
      | (with_reducible assumption) | ((with_reducible apply Keeps.after (State.gateLoft_keeps _ _)); rfl)
      | ((with_reducible apply Keeps.after (State.putB_keeps _ _ _ _)); rfl)
      | (with_reducible refine Keeps.ite ?_ ?_)
      | ((with_reducible apply Keeps.put_lft); rfl; (first | exact fun h => h | exact Memory.wf_write _ _ _ _ | exact Memory.wf_erase _ _ _ _); (first | exact fun h => h | exact Memory.wf_write _ _ _ _ | exact Memory.wf_erase _ _ _ _); first | (with_reducible assumption) | ((with_reducible apply Keeps.after (State.gateLoft_keeps _ _)); rfl) | ((with_reducible apply Keeps.after (State.putB_keeps _ _ _ _)); rfl) | (with_reducible refine Keeps.ite ?_ ?_))
      | (dsimp only) | split)

theorem State.refWrite_keeps (s : State) : ∀ a1 a2, Keeps [.ecc, .attic, .lft] s (State.refWrite s a1 a2) := by
  intro a1 a2
  have h : Keeps [.ecc, .attic, .lft] s s := .refl s
  unfold State.refWrite
  repeat' (first
      | (with_reducible assumption) | ((with_reducible apply Keeps.after (State.eccClear_keeps _ _ _)); rfl)
      | (with_reducible refine Keeps.each ?_ fun _ _ _ => ?_) | (with_reducible refine Keeps.ite ?_ ?_)
      | (first | ((with_reducible apply Keeps.put_attic); rfl; (first | exact fun h => h | exact Memory.wf_write _ _ _ _ | exact Memory.wf_erase _ _ _ _); (first | exact fun h => h | exact Memory.wf_write _ _ _ _ | exact Memory.wf_erase _ _ _ _); exact ⟨rfl, rfl, rfl⟩; first | (with_reducible assumption) | ((with_reducible apply Keeps.after (State.eccClear_keeps _ _ _)); rfl) | (with_reducible refine Keeps.each ?_ fun _ _ _ => ?_) | (with_reducible refine Keeps.ite ?_ ?_)) | ((with_reducible apply Keeps.put_lft); rfl; (first | exact fun h => h | exact Memory.wf_write _ _ _ _ | exact Memory.wf_erase _ _ _ _); (first | exact fun h => h | exact Memory.wf_write _ _ _ _ | exact Memory.wf_erase _ _ _ _); first | (with_reducible assumption) | ((with_reducible apply Keeps.after (State.eccClear_keeps _ _ _)); rfl) | (with_reducible refine Keeps.each ?_ fun _ _ _ => ?_) | (with_reducible refine Keeps.ite ?_ ?_)) | ((with_reducible apply Keeps.put_attic_lft); rfl; rfl; (first | exact fun h => h | exact Memory.wf_write _ _ _ _ | exact Memory.wf_erase _ _ _ _); (first | exact fun h => h | exact Memory.wf_write _ _ _ _ | exact Memory.wf_erase _ _ _ _); exact ⟨rfl, rfl, rfl⟩; (first | exact fun h => h | exact Memory.wf_write _ _ _ _ | exact Memory.wf_erase _ _ _ _); (first | exact fun h => h | exact Memory.wf_write _ _ _ _ | exact Memory.wf_erase _ _ _ _); first | (with_reducible assumption) | ((with_reducible apply Keeps.after (State.eccClear_keeps _ _ _)); rfl) | (with_reducible refine Keeps.each ?_ fun _ _ _ => ?_) | (with_reducible refine Keeps.ite ?_ ?_)))
      | (dsimp only) | split)

theorem State.lftCheck_keeps (s : State) : ∀ a1 a2, Keeps [.regs, .ecc, .mast] s (State.lftCheck s a1 a2).1 := by
  intro a1 a2
  have h : Keeps [.regs, .ecc, .mast] s s := .refl s
  unfold State.lftCheck
  repeat' (first
      | (with_reducible assumption) | ((with_reducible apply Keeps.after (State.count_keeps _ _ _ _)); rfl)
      | ((with_reducible apply Keeps.after (State.eccClear_keeps _ _ _)); rfl)
      | ((with_reducible apply Keeps.after (State.report_keeps _ _ _ _)); rfl)
      | ((with_reducible apply Keeps.after (State.setB_keeps _ _ _)); rfl)
      | ((with_reducible apply Keeps.after (State.wr_keeps _ _ _)); rfl) | (with_reducible apply Keeps.fst_ite)
      | (dsimp only) | split)

theorem State.lftChecks_keeps (s : State) : ∀ a1 a2 a3, Keeps [.regs, .ecc,
    .mast] s (State.lftChecks s a1 a2 a3).1 := by
  intro a1 a2 a3
  have h : Keeps [.regs, .ecc, .mast] s s := .refl s
  unfold State.lftChecks
  repeat' (first
      | (with_reducible assumption) | ((with_reducible apply Keeps.after (State.lftCheck_keeps _ _ _)); rfl)
      | (with_reducible refine Keeps.foldl _ ?_ fun _ _ _ => ?_)
      | (with_reducible refine Keeps.foldl_fst _ ?_ fun _ _ _ => ?_)
      | ((with_reducible apply Keeps.pair); with_reducible assumption) | (with_reducible apply Keeps.fst_ite)
      | (dsimp only))

theorem State.refRead_keeps (s : State) : ∀ a1 a2, Keeps [.regs, .ecc, .mast] s (State.refRead s a1 a2).1 := by
  intro a1 a2
  have h : Keeps [.regs, .ecc, .mast] s s := .refl s
  unfold State.refRead
  repeat' (first
      | (with_reducible assumption) | ((with_reducible apply Keeps.after (State.lftChecks_keeps _ _ _ _)); rfl)
      | ((with_reducible apply Keeps.pair); with_reducible assumption) | (with_reducible refine Keeps.ite ?_ ?_)
      | (with_reducible apply Keeps.fst_ite) | (dsimp only) | split)

theorem State.refsRead_keeps (s : State) : ∀ a1, Keeps [.regs, .ecc, .mast] s (State.refsRead s a1).1 := by
  intro a1
  have h : Keeps [.regs, .ecc, .mast] s s := .refl s
  unfold State.refsRead
  repeat' (first
      | (with_reducible assumption) | ((with_reducible apply Keeps.after (State.refRead_keeps _ _ _)); rfl)
      | (with_reducible refine Keeps.foldl _ ?_ fun _ _ _ => ?_)
      | (with_reducible refine Keeps.foldl_fst _ ?_ fun _ _ _ => ?_)
      | ((with_reducible apply Keeps.pair); with_reducible assumption) | (with_reducible apply Keeps.fst_ite)
      | (dsimp only) | split)

theorem State.refsWrite_keeps (s : State) (l : List (LftRef × Nat)) (bs : List Byte) : Keeps [.ecc, .attic,
    .lft] s (State.refsWrite s l bs) := by
  induction l generalizing s bs with
  | nil => exact .refl s
  | cons p t ih => exact ((State.refWrite_keeps s p.1 (bs.take p.2)).mono rfl).trans (ih _ _)

theorem State.setTicket_keeps (s : State) : ∀ a1 a2, Keeps [.lft] s (State.setTicket s a1 a2) := by
  intro a1 a2
  have h : Keeps [.lft] s s := .refl s
  unfold State.setTicket
  repeat' (first
      | (with_reducible assumption)
      | ((with_reducible apply Keeps.put_lft); rfl; (first | exact fun h => h | exact Memory.wf_write _ _ _ _ | exact Memory.wf_erase _ _ _ _); (first | exact fun h => h | exact Memory.wf_write _ _ _ _ | exact Memory.wf_erase _ _ _ _); first | (with_reducible assumption))
      | (dsimp only))

theorem State.dropTicket_keeps (s : State) : ∀ a1, Keeps [.lft] s (State.dropTicket s a1) := by
  intro a1
  have h : Keeps [.lft] s s := .refl s
  unfold State.dropTicket
  repeat' (first
      | (with_reducible assumption)
      | ((with_reducible apply Keeps.put_lft); rfl; (first | exact fun h => h | exact Memory.wf_write _ _ _ _ | exact Memory.wf_erase _ _ _ _); (first | exact fun h => h | exact Memory.wf_write _ _ _ _ | exact Memory.wf_erase _ _ _ _); first | (with_reducible assumption))
      | (dsimp only))

theorem State.newTicket_keeps (s : State) : ∀ a1, Keeps [.lft] s (State.newTicket s a1).1 := by
  intro a1
  have h : Keeps [.lft] s s := .refl s
  unfold State.newTicket
  repeat' (first
      | (with_reducible assumption) | ((with_reducible apply Keeps.after (State.setTicket_keeps _ _ _)); rfl)
      | (with_reducible apply Keeps.fst_ite)
      | ((with_reducible apply Keeps.put_lft); rfl; (first | exact fun h => h | exact Memory.wf_write _ _ _ _ | exact Memory.wf_erase _ _ _ _); (first | exact fun h => h | exact Memory.wf_write _ _ _ _ | exact Memory.wf_erase _ _ _ _); first | (with_reducible assumption) | ((with_reducible apply Keeps.after (State.setTicket_keeps _ _ _)); rfl) | (with_reducible apply Keeps.fst_ite))
      | (dsimp only))

theorem State.freeTicket_keeps (s : State) : ∀ a1, Keeps [.regs, .ecc, .mast, .cel, .cup, .lft,
    .outbox] s (State.freeTicket s a1) := by
  intro a1
  have h : Keeps [.regs, .ecc, .mast, .cel, .cup, .lft, .outbox] s s := .refl s
  unfold State.freeTicket
  repeat' (first
      | (with_reducible assumption) | ((with_reducible apply Keeps.after (State.dropTicket_keeps _ _)); rfl)
      | ((with_reducible apply Keeps.after (State.hwFree_keeps _ _)); rfl) | (with_reducible refine Keeps.ite ?_ ?_)
      | (dsimp only) | split)

theorem State.threadReset_keeps (s : State) : ∀ a1, Keeps [.regs, .ecc, .mast, .cel, .cup, .lft,
    .outbox] s (State.threadReset s a1) := by
  intro a1
  have h : Keeps [.regs, .ecc, .mast, .cel, .cup, .lft, .outbox] s s := .refl s
  unfold State.threadReset
  repeat' (first
      | (with_reducible assumption) | ((with_reducible apply Keeps.after (State.complete_keeps _ _)); rfl)
      | ((with_reducible apply Keeps.after (State.countBy_keeps _ _ _ _ _)); rfl)
      | ((with_reducible apply Keeps.after (State.count_keeps _ _ _ _)); rfl)
      | ((with_reducible apply Keeps.after (State.freeTicket_keeps _ _)); rfl)
      | ((with_reducible apply Keeps.after (State.setThr_keeps _ _ _)); rfl)
      | (with_reducible refine Keeps.ite ?_ ?_) | (dsimp only) | split)

theorem State.engineStop_keeps (s : State) : ∀ a1 a2, Keeps [.regs, .ecc, .mast, .cel, .cup, .lft,
    .outbox] s (State.engineStop s a1 a2) := by
  intro a1 a2
  have h : Keeps [.regs, .ecc, .mast, .cel, .cup, .lft, .outbox] s s := .refl s
  unfold State.engineStop
  repeat' (first
      | (with_reducible assumption) | ((with_reducible apply Keeps.after (State.complete_keeps _ _)); rfl)
      | ((with_reducible apply Keeps.after (State.countBy_keeps _ _ _ _ _)); rfl)
      | ((with_reducible apply Keeps.after (State.count_keeps _ _ _ _)); rfl)
      | ((with_reducible apply Keeps.after (State.freeTicket_keeps _ _)); rfl)
      | ((with_reducible apply Keeps.after (State.report_keeps _ _ _ _)); rfl)
      | ((with_reducible apply Keeps.after (State.setThr_keeps _ _ _)); rfl)
      | ((with_reducible apply Keeps.after (State.wf_keeps _ _ _ _ _)); rfl)
      | (with_reducible refine Keeps.each ?_ fun _ _ _ => ?_) | (with_reducible refine Keeps.ite ?_ ?_)
      | (dsimp only) | split)

theorem State.thrFault_keeps (s : State) : ∀ a1 a2 a3, Keeps [.regs, .ecc, .mast, .cel, .cup, .lft,
    .outbox] s (State.thrFault s a1 a2 a3) := by
  intro a1 a2 a3
  have h : Keeps [.regs, .ecc, .mast, .cel, .cup, .lft, .outbox] s s := .refl s
  unfold State.thrFault
  repeat' (first
      | (with_reducible assumption) | ((with_reducible apply Keeps.after (State.count_keeps _ _ _ _)); rfl)
      | ((with_reducible apply Keeps.after (State.engineStop_keeps _ _ _)); rfl)
      | ((with_reducible apply Keeps.after (State.report_keeps _ _ _ _)); rfl)
      | ((with_reducible apply Keeps.after (State.setThr_keeps _ _ _)); rfl)
      | ((with_reducible apply Keeps.after (State.wf_keeps _ _ _ _ _)); rfl)
      | (with_reducible refine Keeps.ite ?_ ?_) | (dsimp only) | split)

theorem State.engineStart_keeps (s : State) : ∀ a1, Keeps [.regs, .ecc, .mast, .cel, .cup, .lft,
    .outbox] s (State.engineStart s a1) := by
  intro a1
  have h : Keeps [.regs, .ecc, .mast, .cel, .cup, .lft, .outbox] s s := .refl s
  unfold State.engineStart
  repeat' (first
      | (with_reducible assumption) | ((with_reducible apply Keeps.after (State.setThr_keeps _ _ _)); rfl)
      | ((with_reducible apply Keeps.after (State.threadReset_keeps _ _)); rfl)
      | ((with_reducible apply Keeps.after (State.wf_keeps _ _ _ _ _)); rfl)
      | (with_reducible refine Keeps.each ?_ fun _ _ _ => ?_) | (with_reducible refine Keeps.ite ?_ ?_)
      | (first | ((with_reducible apply Keeps.put_ecc); rfl; first | (with_reducible assumption) | ((with_reducible apply Keeps.after (State.setThr_keeps _ _ _)); rfl) | ((with_reducible apply Keeps.after (State.threadReset_keeps _ _)); rfl) | ((with_reducible apply Keeps.after (State.wf_keeps _ _ _ _ _)); rfl) | (with_reducible refine Keeps.each ?_ fun _ _ _ => ?_) | (with_reducible refine Keeps.ite ?_ ?_)) | ((with_reducible apply Keeps.put_lft); rfl; (first | exact fun h => h | exact Memory.wf_write _ _ _ _ | exact Memory.wf_erase _ _ _ _); (first | exact fun h => h | exact Memory.wf_write _ _ _ _ | exact Memory.wf_erase _ _ _ _); first | (with_reducible assumption) | ((with_reducible apply Keeps.after (State.setThr_keeps _ _ _)); rfl) | ((with_reducible apply Keeps.after (State.threadReset_keeps _ _)); rfl) | ((with_reducible apply Keeps.after (State.wf_keeps _ _ _ _ _)); rfl) | (with_reducible refine Keeps.each ?_ fun _ _ _ => ?_) | (with_reducible refine Keeps.ite ?_ ?_)) | ((with_reducible apply Keeps.put_ecc_lft); rfl; rfl; (first | exact fun h => h | exact Memory.wf_write _ _ _ _ | exact Memory.wf_erase _ _ _ _); (first | exact fun h => h | exact Memory.wf_write _ _ _ _ | exact Memory.wf_erase _ _ _ _); first | (with_reducible assumption) | ((with_reducible apply Keeps.after (State.setThr_keeps _ _ _)); rfl) | ((with_reducible apply Keeps.after (State.threadReset_keeps _ _)); rfl) | ((with_reducible apply Keeps.after (State.wf_keeps _ _ _ _ _)); rfl) | (with_reducible refine Keeps.each ?_ fun _ _ _ => ?_) | (with_reducible refine Keeps.ite ?_ ?_)))
      | (dsimp only) | split)

theorem State.engineRestart_keeps (s : State) : ∀ a1, Keeps [.regs, .ecc, .mast, .cel, .cup, .lft,
    .outbox] s (State.engineRestart s a1) := by
  intro a1
  have h : Keeps [.regs, .ecc, .mast, .cel, .cup, .lft, .outbox] s s := .refl s
  unfold State.engineRestart
  repeat' (first
      | (with_reducible assumption) | ((with_reducible apply Keeps.after (State.engineStart_keeps _ _)); rfl)
      | ((with_reducible apply Keeps.after (State.setB_keeps _ _ _)); rfl) | (with_reducible refine Keeps.ite ?_ ?_)
      | (dsimp only) | split)

theorem State.completeWait_keeps (s : State) : ∀ a1, Keeps [.regs, .lft] s (State.completeWait s a1) := by
  intro a1
  have h : Keeps [.regs, .lft] s s := .refl s
  unfold State.completeWait
  repeat' (first
      | (with_reducible assumption) | ((with_reducible apply Keeps.after (State.setThr_keeps _ _ _)); rfl)
      | (with_reducible refine Keeps.ite ?_ ?_) | (dsimp only) | split)

theorem State.endCurrent_keeps (s : State) : ∀ a1, Keeps [.regs, .lft] s (State.endCurrent s a1) := by
  intro a1
  have h : Keeps [.regs, .lft] s s := .refl s
  unfold State.endCurrent
  repeat' (first
      | (with_reducible assumption) | ((with_reducible apply Keeps.after (State.completeWait_keeps _ _)); rfl)
      | ((with_reducible apply Keeps.after (State.setThr_keeps _ _ _)); rfl)
      | (with_reducible refine Keeps.ite ?_ ?_) | (dsimp only) | split)

theorem State.enqueueTicket_keeps (s : State) : ∀ a1, Keeps [.regs, .ecc, .mast, .cel, .cup, .lft,
    .outbox] s (State.enqueueTicket s a1).1 := by
  intro a1
  have h : Keeps [.regs, .ecc, .mast, .cel, .cup, .lft, .outbox] s s := .refl s
  unfold State.enqueueTicket
  repeat' (first
      | (with_reducible assumption) | ((with_reducible apply Keeps.after (State.count_keeps _ _ _ _)); rfl)
      | ((with_reducible apply Keeps.after (State.freeTicket_keeps _ _)); rfl)
      | ((with_reducible apply Keeps.after (State.ownerPass_keeps _ _ _)); rfl)
      | ((with_reducible apply Keeps.after (State.setThr_keeps _ _ _)); rfl)
      | (with_reducible refine Keeps.ite ?_ ?_) | (with_reducible apply Keeps.fst_ite) | (dsimp only) | split)

/-! ## StairOps -/

theorem State.samplerSelect_keeps (s : State) : ∀ a1, Keeps [.regs, .mast, .lft,
    .stw] s (State.samplerSelect s a1) := by
  intro a1
  have h : Keeps [.regs, .mast, .lft, .stw] s s := .refl s
  unfold State.samplerSelect
  repeat' (first
      | (with_reducible assumption) | ((with_reducible apply Keeps.after (State.count_keeps _ _ _ _)); rfl)
      | ((with_reducible apply Keeps.after (State.newTicket_keeps _ _)); rfl)
      | ((with_reducible apply Keeps.pair); with_reducible assumption) | (with_reducible refine Keeps.ite ?_ ?_)
      | (with_reducible apply Keeps.fst_ite)
      | ((with_reducible apply Keeps.put_stw); rfl; first | (with_reducible assumption) | ((with_reducible apply Keeps.after (State.count_keeps _ _ _ _)); rfl) | ((with_reducible apply Keeps.after (State.newTicket_keeps _ _)); rfl) | ((with_reducible apply Keeps.pair); with_reducible assumption) | (with_reducible refine Keeps.ite ?_ ?_) | (with_reducible apply Keeps.fst_ite))
      | (dsimp only) | split)

theorem State.mirrorsOf_keeps (s : State) : ∀ a1 a2, Keeps [.regs, .mast, .pipe] s (State.mirrorsOf s a1 a2) := by
  intro a1 a2
  have h : Keeps [.regs, .mast, .pipe] s s := .refl s
  unfold State.mirrorsOf
  repeat' (first
      | (with_reducible assumption) | ((with_reducible apply Keeps.after (State.count_keeps _ _ _ _)); rfl)
      | ((with_reducible apply Keeps.after (State.newFrame_keeps _ _)); rfl)
      | (with_reducible refine Keeps.each ?_ fun _ _ _ => ?_)
      | ((with_reducible apply Keeps.pair); with_reducible assumption) | (with_reducible refine Keeps.ite ?_ ?_)
      | (with_reducible apply Keeps.fst_ite) | (dsimp only) | split)

theorem State.mirrors_keeps (s : State) : ∀ a1, Keeps [.regs, .mast, .pipe] s (State.mirrors s a1) := by
  intro a1
  have h : Keeps [.regs, .mast, .pipe] s s := .refl s
  unfold State.mirrors
  repeat' (first
      | (with_reducible assumption) | ((with_reducible apply Keeps.after (State.mirrorsOf_keeps _ _ _)); rfl)
      | (dsimp only))

theorem State.settle_keeps (s : State) : ∀ a1 a2, Keeps [.lft, .pipe] s (State.settle s a1 a2) := by
  intro a1 a2
  have h : Keeps [.lft, .pipe] s s := .refl s
  unfold State.settle
  repeat' (first
      | (with_reducible assumption) | ((with_reducible apply Keeps.after (State.setFrame_keeps _ _ _)); rfl)
      | (with_reducible refine Keeps.ite ?_ ?_)
      | ((with_reducible apply Keeps.put_lft); rfl; (first | exact fun h => h | exact Memory.wf_write _ _ _ _ | exact Memory.wf_erase _ _ _ _); (first | exact fun h => h | exact Memory.wf_write _ _ _ _ | exact Memory.wf_erase _ _ _ _); first | (with_reducible assumption) | ((with_reducible apply Keeps.after (State.setFrame_keeps _ _ _)); rfl) | (with_reducible refine Keeps.ite ?_ ?_))
      | (dsimp only) | split)

theorem State.befall_keeps (s : State) : ∀ a1 a2 a3, Keeps [.pipe] s (State.befall s a1 a2 a3) := by
  intro a1 a2 a3
  have h : Keeps [.pipe] s s := .refl s
  unfold State.befall
  repeat' (first
      | (with_reducible assumption) | ((with_reducible apply Keeps.after (State.setFrame_keeps _ _ _)); rfl)
      | (with_reducible refine Keeps.ite ?_ ?_) | (dsimp only) | split)

theorem State.endIngress_keeps (s : State) : ∀ a1 a2, Keeps [.regs, .ecc, .mast, .cel, .cup, .lft, .pipe, .stw, .crw,
    .outbox] s (State.endIngress s a1 a2) := by
  intro a1 a2
  have h : Keeps [.regs, .ecc, .mast, .cel, .cup, .lft, .pipe, .stw, .crw, .outbox] s s := .refl s
  unfold State.endIngress
  repeat' (first
      | (with_reducible assumption) | ((with_reducible apply Keeps.after (State.discardFrame_keeps _ _)); rfl)
      | ((with_reducible apply Keeps.after (State.settle_keeps _ _ _)); rfl) | (dsimp only))

theorem State.setVoq_keeps (s : State) : ∀ a1 a2 a3, Keeps [.stw] s (State.setVoq s a1 a2 a3) := by
  intro a1 a2 a3
  have h : Keeps [.stw] s s := .refl s
  unfold State.setVoq
  repeat' (first
      | (with_reducible assumption)
      | ((with_reducible apply Keeps.put_stw); rfl; first | (with_reducible assumption)) | (dsimp only))

theorem State.enqueue_keeps (s : State) : ∀ a1 a2 a3 a4, Keeps [.regs, .mast,
    .stw] s (State.enqueue s a1 a2 a3 a4) := by
  intro a1 a2 a3 a4
  have h : Keeps [.regs, .mast, .stw] s s := .refl s
  unfold State.enqueue
  repeat' (first
      | (with_reducible assumption) | ((with_reducible apply Keeps.after (State.count_keeps _ _ _ _)); rfl)
      | ((with_reducible apply Keeps.after (State.setVoq_keeps _ _ _ _)); rfl)
      | (with_reducible refine Keeps.ite ?_ ?_) | (dsimp only) | split)

theorem State.refuse_keeps (s : State) : ∀ a1 a2, Keeps [.regs, .ecc, .mast, .cel, .cup, .lft, .pipe, .stw, .crw,
    .outbox] s (State.refuse s a1 a2) := by
  intro a1 a2
  have h : Keeps [.regs, .ecc, .mast, .cel, .cup, .lft, .pipe, .stw, .crw, .outbox] s s := .refl s
  unfold State.refuse
  repeat' (first
      | (with_reducible assumption) | ((with_reducible apply Keeps.after (State.befall_keeps _ _ _ _)); rfl)
      | ((with_reducible apply Keeps.after (State.count_keeps _ _ _ _)); rfl)
      | ((with_reducible apply Keeps.after (State.discardFrame_keeps _ _)); rfl)
      | ((with_reducible apply Keeps.after (State.endIngress_keeps _ _ _)); rfl)
      | ((with_reducible apply Keeps.after (State.setFab_keeps _ _ _)); rfl)
      | (with_reducible refine Keeps.ite ?_ ?_) | (dsimp only) | split)

theorem State.mirrorFill_keeps (s : State) : ∀ a1, Keeps [.pipe] s (State.mirrorFill s a1) := by
  intro a1
  have h : Keeps [.pipe] s s := .refl s
  unfold State.mirrorFill
  repeat' (first
      | (with_reducible assumption) | ((with_reducible apply Keeps.after (State.setFrame_keeps _ _ _)); rfl)
      | ((with_reducible apply Keeps.after (State.tidy_keeps _ _)); rfl) | (with_reducible refine Keeps.ite ?_ ?_)
      | (dsimp only) | split)

theorem State.admitUnits_keeps (s : State) (f : Nat) (t : State) (e : s.admitUnits f = some t) : Keeps [.pipe] s t := by
  unfold State.admitUnits at e
  dsimp only at e
  split at e
  · cases e; exact .refl s
  · split at e
    · cases e; exact State.setFrame_keeps _ _ _
    · cases e

theorem State.intake_keeps (s : State) : ∀ a1, Keeps [.regs, .ecc, .mast, .cel, .cup, .lft, .pipe, .stw, .crw,
    .outbox] s (State.intake s a1) := by
  intro a1
  have h : Keeps [.regs, .ecc, .mast, .cel, .cup, .lft, .pipe, .stw, .crw, .outbox] s s := .refl s
  unfold State.intake
  repeat' (first
      | (with_reducible assumption)
      | ((with_reducible apply Keeps.after (State.admitUnits_keeps _ _ _ (by assumption))); rfl)
      | ((with_reducible apply Keeps.after (State.count_keeps _ _ _ _)); rfl)
      | ((with_reducible apply Keeps.after (State.enqueue_keeps _ _ _ _ _)); rfl)
      | ((with_reducible apply Keeps.after (State.refuse_keeps _ _ _)); rfl)
      | ((with_reducible apply Keeps.after (State.setFrame_keeps _ _ _)); rfl)
      | ((with_reducible apply Keeps.after (State.settle_keeps _ _ _)); rfl)
      | ((with_reducible apply Keeps.after (State.xoffUpdate_keeps _ _)); rfl)
      | (with_reducible refine Keeps.each ?_ fun _ _ _ => ?_) | (with_reducible refine Keeps.ite ?_ ?_)
      | (dsimp only) | split)

theorem State.directEnter_keeps (s : State) : ∀ a1 a2 a3 a4 a5, Keeps [.pipe] s (State.directEnter s a1 a2 a3 a4 a5).1 := by
  intro a1 a2 a3 a4 a5
  have h : Keeps [.pipe] s s := .refl s
  unfold State.directEnter
  repeat' (first
      | (with_reducible assumption) | ((with_reducible apply Keeps.after (State.newFrame_keeps _ _)); rfl)
      | ((with_reducible apply Keeps.after (State.setHead_keeps _ _ _)); rfl)
      | ((with_reducible apply Keeps.pair); with_reducible assumption) | (with_reducible apply Keeps.fst_ite)
      | ((with_reducible apply Keeps.put_pipe); rfl; first | (with_reducible assumption) | ((with_reducible apply Keeps.after (State.newFrame_keeps _ _)); rfl) | ((with_reducible apply Keeps.after (State.setHead_keeps _ _ _)); rfl) | ((with_reducible apply Keeps.pair); with_reducible assumption) | (with_reducible apply Keeps.fst_ite))
      | (dsimp only))

/-! ## FabricOps -/

theorem State.voqSettle_keeps (s : State) : ∀ a1 a2, Keeps [.regs, .mast, .stw] s (State.voqSettle s a1 a2) := by
  intro a1 a2
  have h : Keeps [.regs, .mast, .stw] s s := .refl s
  unfold State.voqSettle
  repeat' (first
      | (with_reducible assumption) | ((with_reducible apply Keeps.after (State.count_keeps _ _ _ _)); rfl)
      | ((with_reducible apply Keeps.after (State.setVoq_keeps _ _ _ _)); rfl)
      | (with_reducible refine Keeps.ite ?_ ?_) | (dsimp only) | split)

theorem State.spillPack_keeps_pair (sl q k n : Nat) (s : State) (r : State × List (Nat × Nat))
    (e : State.spillPack sl q k n s = some r) : Keeps [.stw] s r.1 := by
  induction k generalizing n s r with
  | zero =>
    unfold State.spillPack at e
    split at e
    · cases e; exact .refl s
    · cases e
  | succ k ih =>
    unfold State.spillPack at e
    dsimp only at e
    split at e
    · cases e; exact .refl s
    · split at e
      · split at e
        · cases e
        · obtain ⟨x, hx, rfl⟩ := Option.map_eq_some_iff.1 e
          have h2 := ih _ _ _ hx
          refine Keeps.trans ?_ h2
          refine Keeps.after (State.setVoq_keeps _ _ _ _) rfl ?_
          exact Keeps.put_stw rfl (.refl s)
      · obtain ⟨x, hx, rfl⟩ := Option.map_eq_some_iff.1 e
        have h2 := ih _ _ _ hx
        exact ((State.setVoq_keeps _ _ _ _).mono rfl).trans h2

theorem State.spillPack_keeps (sl q k n : Nat) (s t : State) {ps : List (Nat × Nat)}
    (e : State.spillPack sl q k n s = some (t, ps)) : Keeps [.stw] s t := State.spillPack_keeps_pair sl q k n s _ e

theorem State.freeBlocks_keeps (s : State) : ∀ a1 a2, Keeps [.stw] s (State.freeBlocks s a1 a2) := by
  intro a1 a2
  have h : Keeps [.stw] s s := .refl s
  unfold State.freeBlocks
  repeat' (first
      | (with_reducible assumption) | ((with_reducible apply Keeps.after (State.setVoq_keeps _ _ _ _)); rfl)
      | (with_reducible refine Keeps.ite ?_ ?_)
      | ((with_reducible apply Keeps.put_stw); rfl; first | (with_reducible assumption) | ((with_reducible apply Keeps.after (State.setVoq_keeps _ _ _ _)); rfl) | (with_reducible refine Keeps.ite ?_ ?_))
      | (dsimp only) | split)

theorem State.spillLost_keeps (s : State) : ∀ a1 a2 a3, Keeps [.regs, .ecc, .mast, .cel, .cup, .pipe, .stw, .crw,
    .outbox] s (State.spillLost s a1 a2 a3) := by
  intro a1 a2 a3
  have h : Keeps [.regs, .ecc, .mast, .cel, .cup, .pipe, .stw, .crw, .outbox] s s := .refl s
  unfold State.spillLost
  repeat' (first
      | (with_reducible assumption) | ((with_reducible apply Keeps.after (State.count_keeps _ _ _ _)); rfl)
      | ((with_reducible apply Keeps.after (State.discardFrame_keeps _ _)); rfl)
      | ((with_reducible apply Keeps.after (State.report_keeps _ _ _ _)); rfl)
      | ((with_reducible apply Keeps.after (State.setB_keeps _ _ _)); rfl)
      | ((with_reducible apply Keeps.after (State.wr_keeps _ _ _)); rfl) | (dsimp only))

theorem State.egError_keeps (s : State) : ∀ a1 a2 a3, Keeps [.pipe, .stw, .sht] s (State.egError s a1 a2 a3) := by
  intro a1 a2 a3
  have h : Keeps [.pipe, .stw, .sht] s s := .refl s
  unfold State.egError
  repeat' (first
      | (with_reducible assumption) | ((with_reducible apply Keeps.after (State.copyEnd_keeps _ _ _)); rfl)
      | ((with_reducible apply Keeps.after (State.copyGone_keeps _ _)); rfl)
      | ((with_reducible apply Keeps.after (State.setCopy_keeps _ _ _)); rfl)
      | (with_reducible refine Keeps.each ?_ fun _ _ _ => ?_) | (with_reducible refine Keeps.ite ?_ ?_)
      | (dsimp only) | split)

theorem State.inError_keeps (s : State) : ∀ a1, Keeps [.regs, .ecc, .mast, .cel, .cup, .lft, .pipe, .stw, .sht, .crw,
    .outbox] s (State.inError s a1) := by
  intro a1
  have h : Keeps [.regs, .ecc, .mast, .cel, .cup, .lft, .pipe, .stw, .sht, .crw, .outbox] s s := .refl s
  unfold State.inError
  repeat' (first
      | (with_reducible assumption) | ((with_reducible apply Keeps.after (State.discardFrame_keeps _ _)); rfl)
      | ((with_reducible apply Keeps.after (State.egError_keeps _ _ _ _)); rfl)
      | ((with_reducible apply Keeps.after (State.endIngress_keeps _ _ _)); rfl)
      | ((with_reducible apply Keeps.after (State.freeFrameUnits_keeps _ _)); rfl)
      | ((with_reducible apply Keeps.after (State.setFrame_keeps _ _ _)); rfl)
      | (with_reducible refine Keeps.each ?_ fun _ _ _ => ?_) | (with_reducible refine Keeps.ite ?_ ?_)
      | ((with_reducible apply Keeps.put_stw); rfl; first | (with_reducible assumption) | ((with_reducible apply Keeps.after (State.discardFrame_keeps _ _)); rfl) | ((with_reducible apply Keeps.after (State.egError_keeps _ _ _ _)); rfl) | ((with_reducible apply Keeps.after (State.endIngress_keeps _ _ _)); rfl) | ((with_reducible apply Keeps.after (State.freeFrameUnits_keeps _ _)); rfl) | ((with_reducible apply Keeps.after (State.setFrame_keeps _ _ _)); rfl) | (with_reducible refine Keeps.each ?_ fun _ _ _ => ?_) | (with_reducible refine Keeps.ite ?_ ?_))
      | (dsimp only) | split)

theorem State.bufCorr_keeps (s : State) : ∀ a1, Keeps [.regs, .mast] s (State.bufCorr s a1) := by
  intro a1
  have h : Keeps [.regs, .mast] s s := .refl s
  unfold State.bufCorr
  repeat' (first
      | (with_reducible assumption) | ((with_reducible apply Keeps.after (State.count_keeps _ _ _ _)); rfl)
      | ((with_reducible apply Keeps.after (State.report_keeps _ _ _ _)); rfl)
      | ((with_reducible apply Keeps.after (State.setB_keeps _ _ _)); rfl) | (dsimp only))

theorem State.bufUncorr_keeps (s : State) : ∀ a1, Keeps [.regs, .mast] s (State.bufUncorr s a1) := by
  intro a1
  have h : Keeps [.regs, .mast] s s := .refl s
  unfold State.bufUncorr
  repeat' (first
      | (with_reducible assumption) | ((with_reducible apply Keeps.after (State.count_keeps _ _ _ _)); rfl)
      | ((with_reducible apply Keeps.after (State.report_keeps _ _ _ _)); rfl)
      | ((with_reducible apply Keeps.after (State.setB_keeps _ _ _)); rfl)
      | ((with_reducible apply Keeps.after (State.wf_keeps _ _ _ _ _)); rfl) | (dsimp only))

theorem State.pantryRead_keeps (s : State) : ∀ a1 a2, Keeps [.regs, .ecc, .mast] s (State.pantryRead s a1 a2).1 := by
  intro a1 a2
  have h : Keeps [.regs, .ecc, .mast] s s := .refl s
  unfold State.pantryRead
  repeat' (first
      | (with_reducible assumption) | ((with_reducible apply Keeps.after (State.bufCorr_keeps _ _)); rfl)
      | ((with_reducible apply Keeps.after (State.bufUncorr_keeps _ _)); rfl)
      | ((with_reducible apply Keeps.after (State.eccClear_keeps _ _ _)); rfl)
      | (with_reducible apply Keeps.fst_ite) | (dsimp only) | split)

theorem State.frameSent_keeps (s : State) : ∀ a1 a2 a3, Keeps [.regs, .mast, .pipe,
    .stw] s (State.frameSent s a1 a2 a3) := by
  intro a1 a2 a3
  have h : Keeps [.regs, .mast, .pipe, .stw] s s := .refl s
  unfold State.frameSent
  repeat' (first
      | (with_reducible assumption) | ((with_reducible apply Keeps.after (State.freeFrameUnits_keeps _ _)); rfl)
      | ((with_reducible apply Keeps.after (State.setFab_keeps _ _ _)); rfl)
      | ((with_reducible apply Keeps.after (State.setVoq_keeps _ _ _ _)); rfl)
      | (with_reducible refine Keeps.ite ?_ ?_)
      | ((with_reducible apply Keeps.put_stw); rfl; first | (with_reducible assumption) | ((with_reducible apply Keeps.after (State.freeFrameUnits_keeps _ _)); rfl) | ((with_reducible apply Keeps.after (State.setFab_keeps _ _ _)); rfl) | ((with_reducible apply Keeps.after (State.setVoq_keeps _ _ _ _)); rfl) | (with_reducible refine Keeps.ite ?_ ?_))
      | (dsimp only) | split)

theorem State.egReserve_keeps (s : State) : ∀ a1 a2, Keeps [.stw] s (State.egReserve s a1 a2) := by
  intro a1 a2
  have h : Keeps [.stw] s s := .refl s
  unfold State.egReserve
  repeat' (first
      | (with_reducible assumption) | ((with_reducible apply Keeps.after (State.setEg_keeps _ _)); rfl)
      | (dsimp only))

theorem State.cellFill_keeps (sl q n r : Nat) (s : State) : Keeps [.regs, .mast, .pipe,
    .stw] s (State.cellFill sl q n r s).1 := by
  induction n generalizing r s with
  | zero => exact .refl s
  | succ n ih =>
    have h : Keeps [.regs, .mast, .pipe, .stw] s s := .refl s
    unfold State.cellFill
    repeat' (first
        | with_reducible assumption
        | ((with_reducible apply Keeps.put_stw); rfl; (with_reducible apply Keeps.after (State.egReserve_keeps _ _ _)); rfl)
        | ((with_reducible apply Keeps.after (ih _ _)); rfl)
        | ((with_reducible apply Keeps.after (State.egReserve_keeps _ _ _)); rfl)
        | ((with_reducible apply Keeps.after (State.frameSent_keeps _ _ _ _)); rfl)
        | ((with_reducible apply Keeps.after (State.setVoq_keeps _ _ _ _)); rfl)
        | (with_reducible refine Keeps.ite ?_ ?_) | (with_reducible apply Keeps.fst_ite) | (dsimp only) | split)

theorem State.voqClean_keeps (s : State) : ∀ a1 a2, Keeps [.regs, .ecc, .mast, .cel, .cup, .lft, .pipe, .stw, .sht,
    .crw, .outbox] s (State.voqClean s a1 a2) := by
  intro a1 a2
  have h : Keeps [.regs, .ecc, .mast, .cel, .cup, .lft, .pipe, .stw, .sht, .crw, .outbox] s s := .refl s
  unfold State.voqClean
  repeat' (first
      | (with_reducible assumption) | ((with_reducible apply Keeps.after (State.discardFrame_keeps _ _)); rfl)
      | ((with_reducible apply Keeps.after (State.inError_keeps _ _)); rfl)
      | ((with_reducible apply Keeps.after (State.pantryRead_keeps _ _ _)); rfl)
      | ((with_reducible apply Keeps.pair); with_reducible assumption) | (with_reducible refine Keeps.ite ?_ ?_)
      | (with_reducible apply Keeps.fst_ite) | (dsimp only) | split)

theorem State.grantOne_keeps (s : State) : ∀ a1 a2, Keeps [.regs, .ecc, .mast, .cel, .cup, .lft, .pipe, .stw, .sht,
    .crw, .outbox] s (State.grantOne s a1 a2) := by
  intro a1 a2
  have h : Keeps [.regs, .ecc, .mast, .cel, .cup, .lft, .pipe, .stw, .sht, .crw, .outbox] s s := .refl s
  unfold State.grantOne
  repeat' (first
      | (with_reducible assumption) | ((with_reducible apply Keeps.after (State.cellFill_keeps _ _ _ _ _)); rfl)
      | ((with_reducible apply Keeps.after (State.voqClean_keeps _ _ _)); rfl)
      | ((with_reducible apply Keeps.pair); with_reducible assumption) | (with_reducible refine Keeps.ite ?_ ?_)
      | (with_reducible apply Keeps.fst_ite)
      | ((with_reducible apply Keeps.put_stw); rfl; first | (with_reducible assumption) | ((with_reducible apply Keeps.after (State.cellFill_keeps _ _ _ _ _)); rfl) | ((with_reducible apply Keeps.after (State.voqClean_keeps _ _ _)); rfl) | ((with_reducible apply Keeps.pair); with_reducible assumption) | (with_reducible refine Keeps.ite ?_ ?_) | (with_reducible apply Keeps.fst_ite))
      | (dsimp only) | split)

theorem State.egEnqueue_keeps (s : State) : ∀ a1 a2, Keeps [.regs, .mast, .stw,
    .sht] s (State.egEnqueue s a1 a2) := by
  intro a1 a2
  have h : Keeps [.regs, .mast, .stw, .sht] s s := .refl s
  unfold State.egEnqueue
  repeat' (first
      | (with_reducible assumption) | ((with_reducible apply Keeps.after (State.copyEnd_keeps _ _ _)); rfl)
      | ((with_reducible apply Keeps.after (State.count_keeps _ _ _ _)); rfl)
      | (with_reducible refine Keeps.each ?_ fun _ _ _ => ?_) | (with_reducible refine Keeps.ite ?_ ?_)
      | ((with_reducible apply Keeps.put_stw); rfl; first | (with_reducible assumption) | ((with_reducible apply Keeps.after (State.copyEnd_keeps _ _ _)); rfl) | ((with_reducible apply Keeps.after (State.count_keeps _ _ _ _)); rfl) | (with_reducible refine Keeps.each ?_ fun _ _ _ => ?_) | (with_reducible refine Keeps.ite ?_ ?_))
      | (dsimp only) | split)

theorem State.cellPart_keeps (s : State) : ∀ a1 a2 a3 a4, Keeps [.regs, .mast, .pipe, .stw,
    .sht] s (State.cellPart s a1 a2 a3 a4) := by
  intro a1 a2 a3 a4
  have h : Keeps [.regs, .mast, .pipe, .stw, .sht] s s := .refl s
  unfold State.cellPart
  repeat' (first
      | (with_reducible assumption) | ((with_reducible apply Keeps.after (State.egEnqueue_keeps _ _ _)); rfl)
      | ((with_reducible apply Keeps.after (State.egError_keeps _ _ _ _)); rfl)
      | ((with_reducible apply Keeps.after (State.egTidy_keeps _ _ _)); rfl)
      | ((with_reducible apply Keeps.after (State.setEg_keeps _ _)); rfl) | (with_reducible refine Keeps.ite ?_ ?_)
      | (dsimp only) | split)

theorem State.portPurge_keeps (s : State) : ∀ a1, Keeps [.regs, .mast, .pipe, .stw,
    .sht] s (State.portPurge s a1) := by
  intro a1
  have h : Keeps [.regs, .mast, .pipe, .stw, .sht] s s := .refl s
  unfold State.portPurge
  repeat' (first
      | (with_reducible assumption) | ((with_reducible apply Keeps.after (State.copyEnd_keeps _ _ _)); rfl)
      | ((with_reducible apply Keeps.after (State.copyGone_keeps _ _)); rfl)
      | ((with_reducible apply Keeps.after (State.count_keeps _ _ _ _)); rfl)
      | (with_reducible refine Keeps.each ?_ fun _ _ _ => ?_) | (with_reducible refine Keeps.ite ?_ ?_)
      | (dsimp only) | split)

theorem State.flushFrame_keeps (s : State) : ∀ a1 a2, Keeps [.regs, .ecc, .mast, .cel, .cup, .lft, .pipe, .stw, .sht,
    .crw, .outbox] s (State.flushFrame s a1 a2) := by
  intro a1 a2
  have h : Keeps [.regs, .ecc, .mast, .cel, .cup, .lft, .pipe, .stw, .sht, .crw, .outbox] s s := .refl s
  unfold State.flushFrame
  repeat' (first
      | (with_reducible assumption) | ((with_reducible apply Keeps.after (State.copyEnd_keeps _ _ _)); rfl)
      | ((with_reducible apply Keeps.after (State.count_keeps _ _ _ _)); rfl)
      | ((with_reducible apply Keeps.after (State.discardFrame_keeps _ _)); rfl)
      | ((with_reducible apply Keeps.after (State.freeFrameUnits_keeps _ _)); rfl)
      | ((with_reducible apply Keeps.after (State.inError_keeps _ _)); rfl)
      | ((with_reducible apply Keeps.after (State.setFab_keeps _ _ _)); rfl)
      | (with_reducible refine Keeps.each ?_ fun _ _ _ => ?_) | (with_reducible refine Keeps.ite ?_ ?_)
      | ((with_reducible apply Keeps.put_stw); rfl; first | (with_reducible assumption) | ((with_reducible apply Keeps.after (State.copyEnd_keeps _ _ _)); rfl) | ((with_reducible apply Keeps.after (State.count_keeps _ _ _ _)); rfl) | ((with_reducible apply Keeps.after (State.discardFrame_keeps _ _)); rfl) | ((with_reducible apply Keeps.after (State.freeFrameUnits_keeps _ _)); rfl) | ((with_reducible apply Keeps.after (State.inError_keeps _ _)); rfl) | ((with_reducible apply Keeps.after (State.setFab_keeps _ _ _)); rfl) | (with_reducible refine Keeps.each ?_ fun _ _ _ => ?_) | (with_reducible refine Keeps.ite ?_ ?_))
      | (dsimp only) | split)

theorem State.flush_keeps (s : State) : ∀ a1 a2, Keeps [.regs, .ecc, .mast, .cel, .cup, .lft, .pipe, .stw, .sht,
    .crw, .outbox] s (State.flush s a1 a2) := by
  intro a1 a2
  have h : Keeps [.regs, .ecc, .mast, .cel, .cup, .lft, .pipe, .stw, .sht, .crw, .outbox] s s := .refl s
  unfold State.flush
  repeat' (first
      | (with_reducible assumption) | ((with_reducible apply Keeps.after (State.copyEnd_keeps _ _ _)); rfl)
      | ((with_reducible apply Keeps.after (State.copyGone_keeps _ _)); rfl)
      | ((with_reducible apply Keeps.after (State.count_keeps _ _ _ _)); rfl)
      | ((with_reducible apply Keeps.after (State.flushFrame_keeps _ _ _)); rfl)
      | ((with_reducible apply Keeps.after (State.freeBlocks_keeps _ _ _)); rfl)
      | ((with_reducible apply Keeps.after (State.setPort_keeps _ _ _)); rfl)
      | ((with_reducible apply Keeps.after (State.setVoq_keeps _ _ _ _)); rfl)
      | ((with_reducible apply Keeps.after (State.voqSettle_keeps _ _ _)); rfl)
      | (with_reducible refine Keeps.each ?_ fun _ _ _ => ?_) | (with_reducible refine Keeps.ite ?_ ?_)
      | ((with_reducible apply Keeps.put_stw); rfl; first | (with_reducible assumption) | ((with_reducible apply Keeps.after (State.copyEnd_keeps _ _ _)); rfl) | ((with_reducible apply Keeps.after (State.copyGone_keeps _ _)); rfl) | ((with_reducible apply Keeps.after (State.count_keeps _ _ _ _)); rfl) | ((with_reducible apply Keeps.after (State.flushFrame_keeps _ _ _)); rfl) | ((with_reducible apply Keeps.after (State.freeBlocks_keeps _ _ _)); rfl) | ((with_reducible apply Keeps.after (State.setPort_keeps _ _ _)); rfl) | ((with_reducible apply Keeps.after (State.setVoq_keeps _ _ _ _)); rfl) | ((with_reducible apply Keeps.after (State.voqSettle_keeps _ _ _)); rfl) | (with_reducible refine Keeps.each ?_ fun _ _ _ => ?_) | (with_reducible refine Keeps.ite ?_ ?_))
      | (dsimp only) | split)

end Sys2Proof.Machine
end

