-- ==== Sys2Proof/Laws/KeepsTables.lean ====
section
/-! SUPPORT. What each function of the model can do to the state, one law for each: Hallway tables, Gallery, Larder and Crowsnest. -/

namespace Sys2Proof.Machine

/-! ## LarderOps -/

theorem State.lrdCorr_keeps (s : State) : ∀ a1, Keeps [.regs, .mast] s (State.lrdCorr s a1) := by
  intro a1
  have h : Keeps [.regs, .mast] s s := .refl s
  unfold State.lrdCorr
  repeat' (first
      | (with_reducible assumption) | ((with_reducible apply Keeps.after (State.count_keeps _ _ _ _)); rfl)
      | ((with_reducible apply Keeps.after (State.report_keeps _ _ _ _)); rfl)
      | ((with_reducible apply Keeps.after (State.setB_keeps _ _ _)); rfl) | (dsimp only))

theorem State.lrdUncorr_keeps (s : State) : ∀ a1 a2, Keeps [.regs, .mast, .lrd] s (State.lrdUncorr s a1 a2) := by
  intro a1 a2
  have h : Keeps [.regs, .mast, .lrd] s s := .refl s
  unfold State.lrdUncorr
  repeat' (first
      | (with_reducible assumption) | ((with_reducible apply Keeps.after (State.count_keeps _ _ _ _)); rfl)
      | ((with_reducible apply Keeps.after (State.report_keeps _ _ _ _)); rfl)
      | ((with_reducible apply Keeps.after (State.setB_keeps _ _ _)); rfl)
      | ((with_reducible apply Keeps.after (State.wrN_keeps _ _ _)); rfl)
      | (with_reducible refine Keeps.foldl _ ?_ fun _ _ _ => ?_)
      | (with_reducible refine Keeps.foldl_fst _ ?_ fun _ _ _ => ?_)
      | ((with_reducible apply Keeps.put_lrd); rfl; first | (with_reducible assumption) | ((with_reducible apply Keeps.after (State.count_keeps _ _ _ _)); rfl) | ((with_reducible apply Keeps.after (State.report_keeps _ _ _ _)); rfl) | ((with_reducible apply Keeps.after (State.setB_keeps _ _ _)); rfl) | ((with_reducible apply Keeps.after (State.wrN_keeps _ _ _)); rfl) | (with_reducible refine Keeps.foldl _ ?_ fun _ _ _ => ?_) | (with_reducible refine Keeps.foldl_fst _ ?_ fun _ _ _ => ?_))
      | (dsimp only))

theorem State.shelfCheck_keeps (s : State) : ∀ a1, Keeps [.regs, .ecc, .mast, .lrd] s (State.shelfCheck s a1).1 := by
  intro a1
  have h : Keeps [.regs, .ecc, .mast, .lrd] s s := .refl s
  unfold State.shelfCheck
  repeat' (first
      | (with_reducible assumption) | ((with_reducible apply Keeps.after (State.eccClear_keeps _ _ _)); rfl)
      | ((with_reducible apply Keeps.after (State.lrdCorr_keeps _ _)); rfl)
      | ((with_reducible apply Keeps.after (State.lrdUncorr_keeps _ _ _)); rfl)
      | (with_reducible apply Keeps.fst_ite) | (dsimp only) | split)

theorem State.lrdBucket_keeps (s : State) : ∀ a1 a2, Keeps [.regs, .ecc, .mast, .cel,
    .lrd] s (State.lrdBucket s a1 a2).1 := by
  intro a1 a2
  have h : Keeps [.regs, .ecc, .mast, .cel, .lrd] s s := .refl s
  unfold State.lrdBucket
  repeat' (first
      | (with_reducible assumption) | ((with_reducible apply Keeps.after (State.celRead_keeps _ _ _ _)); rfl)
      | ((with_reducible apply Keeps.after (State.lrdUncorr_keeps _ _ _)); rfl)
      | ((with_reducible apply Keeps.after (State.shelfCheck_keeps _ _)); rfl)
      | (with_reducible refine Keeps.foldl _ ?_ fun _ _ _ => ?_)
      | (with_reducible refine Keeps.foldl_fst _ ?_ fun _ _ _ => ?_)
      | ((with_reducible apply Keeps.pair); with_reducible assumption) | (with_reducible refine Keeps.ite ?_ ?_)
      | (with_reducible apply Keeps.fst_ite) | (dsimp only) | split)

theorem State.lrdSlots_keeps (s : State) : ∀ a1 a2, Keeps [.regs, .ecc, .mast, .cel,
    .lrd] s (State.lrdSlots s a1 a2).1 := by
  intro a1 a2
  have h : Keeps [.regs, .ecc, .mast, .cel, .lrd] s s := .refl s
  unfold State.lrdSlots
  repeat' (first
      | (with_reducible assumption) | ((with_reducible apply Keeps.after (State.lrdBucket_keeps _ _ _)); rfl)
      | (with_reducible refine Keeps.foldl _ ?_ fun _ _ _ => ?_)
      | (with_reducible refine Keeps.foldl_fst _ ?_ fun _ _ _ => ?_)
      | ((with_reducible apply Keeps.pair); with_reducible assumption) | (with_reducible apply Keeps.fst_ite)
      | (dsimp only) | split)

theorem State.lrdPut_keeps (s : State) : ∀ a1 a2, Keeps [.regs, .ecc, .mast, .cel, .lrd,
    .outbox] s (State.lrdPut s a1 a2) := by
  intro a1 a2
  have h : Keeps [.regs, .ecc, .mast, .cel, .lrd, .outbox] s s := .refl s
  unfold State.lrdPut
  repeat' (first
      | (with_reducible assumption) | ((with_reducible apply Keeps.after (State.celWrite_keeps _ _ _ _)); rfl)
      | ((with_reducible apply Keeps.after (State.eccClear_keeps _ _ _)); rfl)
      | ((with_reducible apply Keeps.after (State.inject_keeps _ _ _ _ _ _)); rfl)
      | (with_reducible refine Keeps.ite ?_ ?_)
      | ((with_reducible apply Keeps.put_lrd); rfl; first | (with_reducible assumption) | ((with_reducible apply Keeps.after (State.celWrite_keeps _ _ _ _)); rfl) | ((with_reducible apply Keeps.after (State.eccClear_keeps _ _ _)); rfl) | ((with_reducible apply Keeps.after (State.inject_keeps _ _ _ _ _ _)); rfl) | (with_reducible refine Keeps.ite ?_ ?_))
      | (dsimp only) | split)

theorem State.lrdShift_keeps (s : State) (l : List Nat) : Keeps [.regs, .ecc, .mast, .cel, .lrd,
    .outbox] s (State.lrdShift s l) := by
  induction l with
  | nil => exact .refl s
  | cons a t ih =>
    cases t with
    | nil => exact .refl s
    | cons b rest =>
      have h : Keeps [.regs, .ecc, .mast, .cel, .lrd, .outbox] s s := .refl s
      unfold State.lrdShift
      repeat' (first
          | with_reducible assumption | exact ih
          | ((with_reducible apply Keeps.after (State.lrdPut_keeps _ _ _)); rfl) | (dsimp only) | split)

theorem State.lrdRoom_keeps (s : State) : ∀ a1 a2 a3, Keeps [.regs, .ecc, .mast, .cel, .lrd,
    .outbox] s (State.lrdRoom s a1 a2 a3).1 := by
  intro a1 a2 a3
  have h : Keeps [.regs, .ecc, .mast, .cel, .lrd, .outbox] s s := .refl s
  unfold State.lrdRoom
  repeat' (first
      | (with_reducible assumption) | ((with_reducible apply Keeps.after (State.lrdShift_keeps _ _)); rfl)
      | (with_reducible refine Keeps.ite ?_ ?_) | (with_reducible apply Keeps.fst_ite) | (dsimp only) | split)

/-! ## Hallway -/

theorem State.galClear_keeps (s : State) : ∀ a1 a2, Keeps [.gal] s (State.galClear s a1 a2) := by
  intro a1 a2
  have h : Keeps [.gal] s s := .refl s
  unfold State.galClear
  repeat' (first
      | (with_reducible assumption)
      | ((with_reducible apply Keeps.put_gal); rfl; first | (with_reducible assumption)) | (dsimp only))

theorem State.hlwAction_keeps (s : State) : ∀ a1 a2 a3 a4, Keeps [.regs, .ecc,
    .hlw] s (State.hlwAction s a1 a2 a3 a4).1 := by
  intro a1 a2 a3 a4
  have h : Keeps [.regs, .ecc, .hlw] s s := .refl s
  unfold State.hlwAction
  repeat' (first
      | (with_reducible assumption) | ((with_reducible apply Keeps.after (State.sramPut_keeps _ _ _ _)); rfl)
      | ((with_reducible apply Keeps.after (State.stageAdd_keeps _ _)); rfl)
      | (with_reducible refine Keeps.ite ?_ ?_) | (with_reducible apply Keeps.fst_ite) | (dsimp only) | split)

theorem State.hlwDefine_keeps (s : State) : ∀ a1 a2 a3 a4, Keeps [.regs, .hlw,
    .gal] s (State.hlwDefine s a1 a2 a3 a4).1 := by
  intro a1 a2 a3 a4
  have h : Keeps [.regs, .hlw, .gal] s s := .refl s
  unfold State.hlwDefine
  repeat' (first
      | (with_reducible assumption) | ((with_reducible apply Keeps.after (State.galClear_keeps _ _ _)); rfl)
      | ((with_reducible apply Keeps.after (State.stageAdd_keeps _ _)); rfl)
      | (with_reducible refine Keeps.ite ?_ ?_) | (with_reducible apply Keeps.fst_ite)
      | (first | ((with_reducible apply Keeps.put_hlw); rfl; first | (with_reducible assumption) | ((with_reducible apply Keeps.after (State.galClear_keeps _ _ _)); rfl) | ((with_reducible apply Keeps.after (State.stageAdd_keeps _ _)); rfl) | (with_reducible refine Keeps.ite ?_ ?_) | (with_reducible apply Keeps.fst_ite)) | ((with_reducible apply Keeps.put_gal); rfl; first | (with_reducible assumption) | ((with_reducible apply Keeps.after (State.galClear_keeps _ _ _)); rfl) | ((with_reducible apply Keeps.after (State.stageAdd_keeps _ _)); rfl) | (with_reducible refine Keeps.ite ?_ ?_) | (with_reducible apply Keeps.fst_ite)) | ((with_reducible apply Keeps.put_hlw_gal); rfl; rfl; first | (with_reducible assumption) | ((with_reducible apply Keeps.after (State.galClear_keeps _ _ _)); rfl) | ((with_reducible apply Keeps.after (State.stageAdd_keeps _ _)); rfl) | (with_reducible refine Keeps.ite ?_ ?_) | (with_reducible apply Keeps.fst_ite)))
      | (dsimp only) | split)

theorem State.hlwExact_keeps (s : State) : ∀ a1 a2 a3 a4 a5 a6, Keeps [.regs, .ecc, .mast,
    .hlw] s (State.hlwExact s a1 a2 a3 a4 a5 a6).1 := by
  intro a1 a2 a3 a4 a5 a6
  have h : Keeps [.regs, .ecc, .mast, .hlw] s s := .refl s
  unfold State.hlwExact
  repeat' (first
      | (with_reducible assumption) | ((with_reducible apply Keeps.after (State.slotWords_keeps _ _ _)); rfl)
      | ((with_reducible apply Keeps.after (State.sramPut_keeps _ _ _ _)); rfl)
      | ((with_reducible apply Keeps.after (State.sramRead_keeps _ _ _)); rfl)
      | ((with_reducible apply Keeps.after (State.stageAdd_keeps _ _)); rfl)
      | ((with_reducible apply Keeps.pair); with_reducible assumption) | (with_reducible refine Keeps.ite ?_ ?_)
      | (with_reducible apply Keeps.fst_ite) | (dsimp only) | split)

theorem State.hlwReadWord_keeps (s : State) : ∀ a1 a2 a3, Keeps [.regs, .ecc,
    .mast] s (State.hlwReadWord s a1 a2 a3).1 := by
  intro a1 a2 a3
  have h : Keeps [.regs, .ecc, .mast] s s := .refl s
  unfold State.hlwReadWord
  repeat' (first
      | (with_reducible assumption) | ((with_reducible apply Keeps.after (State.sramRead_keeps _ _ _)); rfl)
      | ((with_reducible apply Keeps.pair); with_reducible assumption) | (with_reducible apply Keeps.fst_ite)
      | (dsimp only) | split)

theorem State.hlwRun_keeps (s : State) : ∀ a1 a2 a3 a4 a5, Keeps [.regs, .ecc, .mast, .cel, .cup, .pipe, .hlw, .gal,
    .stw, .crw, .outbox] s (State.hlwRun s a1 a2 a3 a4 a5).1 := by
  intro a1 a2 a3 a4 a5
  have h : Keeps [.regs, .ecc, .mast, .cel, .cup, .pipe, .hlw, .gal, .stw, .crw, .outbox] s s := .refl s
  unfold State.hlwRun
  repeat' (first
      | (with_reducible assumption) | ((with_reducible apply Keeps.after (State.count_keeps _ _ _ _)); rfl)
      | ((with_reducible apply Keeps.after (State.hlwAction_keeps _ _ _ _ _)); rfl)
      | ((with_reducible apply Keeps.after (State.hlwDefine_keeps _ _ _ _ _)); rfl)
      | ((with_reducible apply Keeps.after (State.hlwExact_keeps _ _ _ _ _ _ _)); rfl)
      | ((with_reducible apply Keeps.after (State.hlwReadWord_keeps _ _ _ _)); rfl)
      | ((with_reducible apply Keeps.after (State.wakeSlice_keeps _ _)); rfl)
      | (with_reducible refine Keeps.each ?_ fun _ _ _ => ?_)
      | (with_reducible refine Keeps.foldl _ ?_ fun _ _ _ => ?_)
      | (with_reducible refine Keeps.foldl_fst _ ?_ fun _ _ _ => ?_)
      | ((with_reducible apply Keeps.pair); with_reducible assumption) | (with_reducible refine Keeps.ite ?_ ?_)
      | (with_reducible apply Keeps.fst_ite) | (dsimp only) | split)

theorem State.hlwCmdWrite_keeps (s : State) : ∀ a1, Keeps [.regs, .ecc, .mast, .cel, .cup, .pipe, .hlw, .gal, .stw,
    .crw, .outbox] s (State.hlwCmdWrite s a1) := by
  intro a1
  have h : Keeps [.regs, .ecc, .mast, .cel, .cup, .pipe, .hlw, .gal, .stw, .crw, .outbox] s s := .refl s
  unfold State.hlwCmdWrite
  repeat' (first
      | (with_reducible assumption) | ((with_reducible apply Keeps.after (State.hlwRun_keeps _ _ _ _ _ _)); rfl)
      | ((with_reducible apply Keeps.after (State.plainWrite_keeps _ _ _)); rfl)
      | ((with_reducible apply Keeps.after (State.setB_keeps _ _ _)); rfl)
      | ((with_reducible apply Keeps.after (State.wf_keeps _ _ _ _ _)); rfl)
      | ((with_reducible apply Keeps.after (State.wrWide_keeps _ _ _ _)); rfl)
      | ((with_reducible apply Keeps.pair); with_reducible assumption) | (with_reducible refine Keeps.ite ?_ ?_)
      | (with_reducible apply Keeps.fst_ite) | (dsimp only) | split)

theorem execActionWrite_keeps (s : State) : ∀ a0, ∃ t, (execActionWrite a0 s) = .next t ∧ Keeps [.regs, .ecc, .mast,
    .cel, .cup, .pipe, .hlw, .gal, .stw, .crw, .outbox] s t := by
  intro a0
  have h : Keeps [.regs, .ecc, .mast, .cel, .cup, .pipe, .hlw, .gal, .stw, .crw, .outbox] s s := .refl s
  unfold execActionWrite
  repeat' (first | (with_reducible apply Keeps.next) | (with_reducible apply Keeps.next_ite) | dsimp only | split)
  all_goals repeat' (first
      | (with_reducible assumption) | ((with_reducible apply Keeps.after (State.hlwCmdWrite_keeps _ _)); rfl)
      | (with_reducible apply Keeps.fst_ite) | (dsimp only))

theorem execActionRead_keeps (s : State) : ∀ a0, ∃ t, (execActionRead a0 s) = .next t ∧ Keeps [.regs, .ecc, .mast,
    .cel, .cup, .pipe, .hlw, .gal, .stw, .crw, .outbox] s t := by
  intro a0
  have h : Keeps [.regs, .ecc, .mast, .cel, .cup, .pipe, .hlw, .gal, .stw, .crw, .outbox] s s := .refl s
  unfold execActionRead
  repeat' (first | (with_reducible apply Keeps.next) | (with_reducible apply Keeps.next_ite) | dsimp only | split)
  all_goals repeat' (first
      | (with_reducible assumption) | ((with_reducible apply Keeps.after (State.hlwCmdWrite_keeps _ _)); rfl)
      | (with_reducible apply Keeps.fst_ite) | (dsimp only))

theorem execDefinitionWrite_keeps (s : State) : ∀ a0, ∃ t, (execDefinitionWrite a0 s) = .next t ∧ Keeps [.regs, .ecc,
    .mast, .cel, .cup, .pipe, .hlw, .gal, .stw, .crw, .outbox] s t := by
  intro a0
  have h : Keeps [.regs, .ecc, .mast, .cel, .cup, .pipe, .hlw, .gal, .stw, .crw, .outbox] s s := .refl s
  unfold execDefinitionWrite
  repeat' (first | (with_reducible apply Keeps.next) | (with_reducible apply Keeps.next_ite) | dsimp only | split)
  all_goals repeat' (first
      | (with_reducible assumption) | ((with_reducible apply Keeps.after (State.hlwCmdWrite_keeps _ _)); rfl)
      | (with_reducible apply Keeps.fst_ite) | (dsimp only))

theorem execDefinitionRead_keeps (s : State) : ∀ a0, ∃ t, (execDefinitionRead a0 s) = .next t ∧ Keeps [.regs, .ecc,
    .mast, .cel, .cup, .pipe, .hlw, .gal, .stw, .crw, .outbox] s t := by
  intro a0
  have h : Keeps [.regs, .ecc, .mast, .cel, .cup, .pipe, .hlw, .gal, .stw, .crw, .outbox] s s := .refl s
  unfold execDefinitionRead
  repeat' (first | (with_reducible apply Keeps.next) | (with_reducible apply Keeps.next_ite) | dsimp only | split)
  all_goals repeat' (first
      | (with_reducible assumption) | ((with_reducible apply Keeps.after (State.hlwCmdWrite_keeps _ _)); rfl)
      | (with_reducible apply Keeps.fst_ite) | (dsimp only))

theorem execExactInsert_keeps (s : State) : ∀ a0, ∃ t, (execExactInsert a0 s) = .next t ∧ Keeps [.regs, .ecc, .mast,
    .cel, .cup, .pipe, .hlw, .gal, .stw, .crw, .outbox] s t := by
  intro a0
  have h : Keeps [.regs, .ecc, .mast, .cel, .cup, .pipe, .hlw, .gal, .stw, .crw, .outbox] s s := .refl s
  unfold execExactInsert
  repeat' (first | (with_reducible apply Keeps.next) | (with_reducible apply Keeps.next_ite) | dsimp only | split)
  all_goals repeat' (first
      | (with_reducible assumption) | ((with_reducible apply Keeps.after (State.hlwCmdWrite_keeps _ _)); rfl)
      | (with_reducible apply Keeps.fst_ite) | (dsimp only))

theorem execExactDelete_keeps (s : State) : ∀ a0, ∃ t, (execExactDelete a0 s) = .next t ∧ Keeps [.regs, .ecc, .mast,
    .cel, .cup, .pipe, .hlw, .gal, .stw, .crw, .outbox] s t := by
  intro a0
  have h : Keeps [.regs, .ecc, .mast, .cel, .cup, .pipe, .hlw, .gal, .stw, .crw, .outbox] s s := .refl s
  unfold execExactDelete
  repeat' (first | (with_reducible apply Keeps.next) | (with_reducible apply Keeps.next_ite) | dsimp only | split)
  all_goals repeat' (first
      | (with_reducible assumption) | ((with_reducible apply Keeps.after (State.hlwCmdWrite_keeps _ _)); rfl)
      | (with_reducible apply Keeps.fst_ite) | (dsimp only))

theorem execExactSearch_keeps (s : State) : ∀ a0, ∃ t, (execExactSearch a0 s) = .next t ∧ Keeps [.regs, .ecc, .mast,
    .cel, .cup, .pipe, .hlw, .gal, .stw, .crw, .outbox] s t := by
  intro a0
  have h : Keeps [.regs, .ecc, .mast, .cel, .cup, .pipe, .hlw, .gal, .stw, .crw, .outbox] s s := .refl s
  unfold execExactSearch
  repeat' (first | (with_reducible apply Keeps.next) | (with_reducible apply Keeps.next_ite) | dsimp only | split)
  all_goals repeat' (first
      | (with_reducible assumption) | ((with_reducible apply Keeps.after (State.hlwCmdWrite_keeps _ _)); rfl)
      | (with_reducible apply Keeps.fst_ite) | (dsimp only))

theorem State.stageCfgWrite_keeps (s : State) : ∀ a1 a2 a3, Keeps [.regs, .hlw,
    .gal] s (State.stageCfgWrite s a1 a2 a3) := by
  intro a1 a2 a3
  have h : Keeps [.regs, .hlw, .gal] s s := .refl s
  unfold State.stageCfgWrite
  repeat' (first
      | (with_reducible assumption) | ((with_reducible apply Keeps.after (State.galClear_keeps _ _ _)); rfl)
      | ((with_reducible apply Keeps.after (State.plainWrite_keeps _ _ _)); rfl)
      | ((with_reducible apply Keeps.after (State.setB_keeps _ _ _)); rfl)
      | (with_reducible refine Keeps.each ?_ fun _ _ _ => ?_) | (with_reducible refine Keeps.ite ?_ ?_)
      | ((with_reducible apply Keeps.put_hlw); rfl; first | (with_reducible assumption) | ((with_reducible apply Keeps.after (State.galClear_keeps _ _ _)); rfl) | ((with_reducible apply Keeps.after (State.plainWrite_keeps _ _ _)); rfl) | ((with_reducible apply Keeps.after (State.setB_keeps _ _ _)); rfl) | (with_reducible refine Keeps.each ?_ fun _ _ _ => ?_) | (with_reducible refine Keeps.ite ?_ ?_))
      | (dsimp only) | split)

theorem execStageCfgWrite_keeps (s : State) : ∀ a0 a1 a2, ∃ t, (execStageCfgWrite a0 a1 a2 s) = .next t ∧ Keeps [.regs,
    .hlw, .gal] s t := by
  intro a0 a1 a2
  have h : Keeps [.regs, .hlw, .gal] s s := .refl s
  unfold execStageCfgWrite
  repeat' (first | (with_reducible apply Keeps.next) | (with_reducible apply Keeps.next_ite) | dsimp only | split)
  all_goals repeat' (first
      | (with_reducible assumption) | ((with_reducible apply Keeps.after (State.stageCfgWrite_keeps _ _ _ _)); rfl)
      | (with_reducible apply Keeps.fst_ite) | (dsimp only))

theorem State.portDfltWrite_keeps (s : State) : ∀ a1 a2 a3 a4, Keeps [.regs,
    .held] s (State.portDfltWrite s a1 a2 a3 a4) := by
  intro a1 a2 a3 a4
  have h : Keeps [.regs, .held] s s := .refl s
  unfold State.portDfltWrite
  repeat' (first
      | (with_reducible assumption) | ((with_reducible apply Keeps.after (State.wf_keeps _ _ _ _ _)); rfl)
      | ((with_reducible apply Keeps.after (State.wrWide_keeps _ _ _ _)); rfl)
      | (with_reducible refine Keeps.ite ?_ ?_)
      | ((with_reducible apply Keeps.put_held); rfl; first | (with_reducible assumption) | ((with_reducible apply Keeps.after (State.wf_keeps _ _ _ _ _)); rfl) | ((with_reducible apply Keeps.after (State.wrWide_keeps _ _ _ _)); rfl) | (with_reducible refine Keeps.ite ?_ ?_))
      | (dsimp only) | split)

theorem execPortDefaultWrite_keeps (s : State) : ∀ a0 a1 a2, ∃ t, (execPortDefaultWrite a0 a1 a2 s) = .next t ∧ Keeps [.regs,
    .held] s t := by
  intro a0 a1 a2
  have h : Keeps [.regs, .held] s s := .refl s
  unfold execPortDefaultWrite
  repeat' (first | (with_reducible apply Keeps.next) | (with_reducible apply Keeps.next_ite) | dsimp only | split)
  all_goals repeat' (first
      | (with_reducible assumption)
      | ((with_reducible apply Keeps.after (State.portDfltWrite_keeps _ _ _ _ _)); rfl)
      | (with_reducible apply Keeps.fst_ite) | (dsimp only))

theorem execStageSramScrub_keeps (s : State) : ∀ a0 a1 a2, ∃ t, (execStageSramScrub a0 a1 a2 s) = .next t ∧ Keeps [.regs,
    .ecc, .mast] s t := by
  intro a0 a1 a2
  have h : Keeps [.regs, .ecc, .mast] s s := .refl s
  unfold execStageSramScrub
  repeat' (first | (with_reducible apply Keeps.next) | (with_reducible apply Keeps.next_ite) | dsimp only | split)
  all_goals repeat' (first
      | (with_reducible assumption) | ((with_reducible apply Keeps.after (State.eccFlag_keeps _ _ _ _)); rfl)
      | ((with_reducible apply Keeps.after (State.sramRead_keeps _ _ _)); rfl)
      | ((with_reducible apply Keeps.pair); with_reducible assumption) | (with_reducible apply Keeps.fst_ite)
      | (dsimp only))

/-! ## Gallery -/

theorem State.setGal_keeps (s : State) : ∀ a1 a2, Keeps [.gal] s (State.setGal s a1 a2) := by
  intro a1 a2
  have h : Keeps [.gal] s s := .refl s
  unfold State.setGal
  repeat' (first
      | (with_reducible assumption)
      | ((with_reducible apply Keeps.put_gal); rfl; first | (with_reducible assumption)) | (dsimp only))

theorem State.delGal_keeps (s : State) : ∀ a1, Keeps [.gal] s (State.delGal s a1) := by
  intro a1
  have h : Keeps [.gal] s s := .refl s
  unfold State.delGal
  repeat' (first
      | (with_reducible assumption)
      | ((with_reducible apply Keeps.put_gal); rfl; first | (with_reducible assumption)) | (dsimp only))

theorem State.galPut_keeps (s : State) : ∀ a1 a2 a3 a4, Keeps [.regs, .ecc, .mast,
    .gal] s (State.galPut s a1 a2 a3 a4) := by
  intro a1 a2 a3 a4
  have h : Keeps [.regs, .ecc, .mast, .gal] s s := .refl s
  unfold State.galPut
  repeat' (first
      | (with_reducible assumption) | ((with_reducible apply Keeps.after (State.count_keeps _ _ _ _)); rfl)
      | ((with_reducible apply Keeps.after (State.delGal_keeps _ _)); rfl)
      | ((with_reducible apply Keeps.after (State.eccClear_keeps _ _ _)); rfl)
      | ((with_reducible apply Keeps.after (State.eccFlag_keeps _ _ _ _)); rfl)
      | ((with_reducible apply Keeps.after (State.setGal_keeps _ _ _)); rfl)
      | (with_reducible refine Keeps.each ?_ fun _ _ _ => ?_) | (dsimp only) | split)

theorem State.galInsert_keeps (s : State) : ∀ a1 a2 a3 a4 a5 a6, Keeps [.regs, .ecc, .mast,
    .gal] s (State.galInsert s a1 a2 a3 a4 a5 a6).1 := by
  intro a1 a2 a3 a4 a5 a6
  have h : Keeps [.regs, .ecc, .mast, .gal] s s := .refl s
  unfold State.galInsert
  repeat' (first
      | (with_reducible assumption) | ((with_reducible apply Keeps.after (State.galPut_keeps _ _ _ _ _)); rfl)
      | ((with_reducible apply Keeps.after (State.setGal_keeps _ _ _)); rfl)
      | ((with_reducible apply Keeps.after (State.stageAdd_keeps _ _)); rfl)
      | (with_reducible refine Keeps.each ?_ fun _ _ _ => ?_) | (with_reducible refine Keeps.ite ?_ ?_)
      | (with_reducible apply Keeps.fst_ite) | (dsimp only) | split)

theorem State.galDelete_keeps (s : State) : ∀ a1 a2 a3 a4 a5, Keeps [.regs,
    .gal] s (State.galDelete s a1 a2 a3 a4 a5).1 := by
  intro a1 a2 a3 a4 a5
  have h : Keeps [.regs, .gal] s s := .refl s
  unfold State.galDelete
  repeat' (first
      | (with_reducible assumption) | ((with_reducible apply Keeps.after (State.delGal_keeps _ _)); rfl)
      | ((with_reducible apply Keeps.after (State.setGal_keeps _ _ _)); rfl)
      | ((with_reducible apply Keeps.after (State.stageAdd_keeps _ _)); rfl)
      | (with_reducible refine Keeps.each ?_ fun _ _ _ => ?_) | (with_reducible refine Keeps.ite ?_ ?_)
      | (with_reducible apply Keeps.fst_ite) | (dsimp only) | split)

theorem State.galRun_keeps (s : State) : ∀ a1 a2 a3 a4 a5 a6 a7, Keeps [.regs, .ecc, .mast, .cel, .cup, .pipe, .gal,
    .stw, .crw, .outbox] s (State.galRun s a1 a2 a3 a4 a5 a6 a7).1 := by
  intro a1 a2 a3 a4 a5 a6 a7
  have h : Keeps [.regs, .ecc, .mast, .cel, .cup, .pipe, .gal, .stw, .crw, .outbox] s s := .refl s
  unfold State.galRun
  repeat' (first
      | (with_reducible assumption) | ((with_reducible apply Keeps.after (State.count_keeps _ _ _ _)); rfl)
      | ((with_reducible apply Keeps.after (State.galDelete_keeps _ _ _ _ _ _)); rfl)
      | ((with_reducible apply Keeps.after (State.galInsert_keeps _ _ _ _ _ _ _)); rfl)
      | ((with_reducible apply Keeps.after (State.wakeSlice_keeps _ _)); rfl)
      | (with_reducible refine Keeps.each ?_ fun _ _ _ => ?_)
      | (with_reducible refine Keeps.foldl _ ?_ fun _ _ _ => ?_)
      | (with_reducible refine Keeps.foldl_fst _ ?_ fun _ _ _ => ?_)
      | ((with_reducible apply Keeps.pair); with_reducible assumption) | (with_reducible refine Keeps.ite ?_ ?_)
      | (with_reducible apply Keeps.fst_ite) | (dsimp only) | split)

theorem State.galCmdWrite_keeps (s : State) : ∀ a1, Keeps [.regs, .ecc, .mast, .cel, .cup, .pipe, .gal, .stw, .crw,
    .outbox] s (State.galCmdWrite s a1) := by
  intro a1
  have h : Keeps [.regs, .ecc, .mast, .cel, .cup, .pipe, .gal, .stw, .crw, .outbox] s s := .refl s
  unfold State.galCmdWrite
  repeat' (first
      | (with_reducible assumption) | ((with_reducible apply Keeps.after (State.galRun_keeps _ _ _ _ _ _ _ _)); rfl)
      | ((with_reducible apply Keeps.after (State.plainWrite_keeps _ _ _)); rfl)
      | ((with_reducible apply Keeps.after (State.putB_keeps _ _ _ _)); rfl)
      | ((with_reducible apply Keeps.after (State.setB_keeps _ _ _)); rfl)
      | ((with_reducible apply Keeps.after (State.wf_keeps _ _ _ _ _)); rfl)
      | ((with_reducible apply Keeps.after (State.wrN_keeps _ _ _)); rfl)
      | ((with_reducible apply Keeps.pair); with_reducible assumption) | (with_reducible refine Keeps.ite ?_ ?_)
      | (with_reducible apply Keeps.fst_ite) | (dsimp only) | split)

theorem execGalInsert_keeps (s : State) : ∀ a0, ∃ t, (execGalInsert a0 s) = .next t ∧ Keeps [.regs, .ecc, .mast,
    .cel, .cup, .pipe, .gal, .stw, .crw, .outbox] s t := by
  intro a0
  have h : Keeps [.regs, .ecc, .mast, .cel, .cup, .pipe, .gal, .stw, .crw, .outbox] s s := .refl s
  unfold execGalInsert
  repeat' (first | (with_reducible apply Keeps.next) | (with_reducible apply Keeps.next_ite) | dsimp only | split)
  all_goals repeat' (first
      | (with_reducible assumption) | ((with_reducible apply Keeps.after (State.galCmdWrite_keeps _ _)); rfl)
      | (with_reducible apply Keeps.fst_ite) | (dsimp only))

theorem execGalDelete_keeps (s : State) : ∀ a0, ∃ t, (execGalDelete a0 s) = .next t ∧ Keeps [.regs, .ecc, .mast,
    .cel, .cup, .pipe, .gal, .stw, .crw, .outbox] s t := by
  intro a0
  have h : Keeps [.regs, .ecc, .mast, .cel, .cup, .pipe, .gal, .stw, .crw, .outbox] s s := .refl s
  unfold execGalDelete
  repeat' (first | (with_reducible apply Keeps.next) | (with_reducible apply Keeps.next_ite) | dsimp only | split)
  all_goals repeat' (first
      | (with_reducible assumption) | ((with_reducible apply Keeps.after (State.galCmdWrite_keeps _ _)); rfl)
      | (with_reducible apply Keeps.fst_ite) | (dsimp only))

theorem execGalFind_keeps (s : State) : ∀ a0, ∃ t, (execGalFind a0 s) = .next t ∧ Keeps [.regs, .ecc, .mast, .cel,
    .cup, .pipe, .gal, .stw, .crw, .outbox] s t := by
  intro a0
  have h : Keeps [.regs, .ecc, .mast, .cel, .cup, .pipe, .gal, .stw, .crw, .outbox] s s := .refl s
  unfold execGalFind
  repeat' (first | (with_reducible apply Keeps.next) | (with_reducible apply Keeps.next_ite) | dsimp only | split)
  all_goals repeat' (first
      | (with_reducible assumption) | ((with_reducible apply Keeps.after (State.galCmdWrite_keeps _ _)); rfl)
      | (with_reducible apply Keeps.fst_ite) | (dsimp only))

theorem execGalProbe_keeps (s : State) : ∀ a0, ∃ t, (execGalProbe a0 s) = .next t ∧ Keeps [.regs, .ecc, .mast, .cel,
    .cup, .pipe, .gal, .stw, .crw, .outbox] s t := by
  intro a0
  have h : Keeps [.regs, .ecc, .mast, .cel, .cup, .pipe, .gal, .stw, .crw, .outbox] s s := .refl s
  unfold execGalProbe
  repeat' (first | (with_reducible apply Keeps.next) | (with_reducible apply Keeps.next_ite) | dsimp only | split)
  all_goals repeat' (first
      | (with_reducible assumption) | ((with_reducible apply Keeps.after (State.galCmdWrite_keeps _ _)); rfl)
      | (with_reducible apply Keeps.fst_ite) | (dsimp only))

theorem State.jobStatus_keeps (s : State) : ∀ a1 a2 a3 a4 a5 a6, Keeps [.regs, .ecc, .mast, .cel,
    .outbox] s (State.jobStatus s a1 a2 a3 a4 a5 a6) := by
  intro a1 a2 a3 a4 a5 a6
  have h : Keeps [.regs, .ecc, .mast, .cel, .outbox] s s := .refl s
  unfold State.jobStatus
  repeat' (first
      | (with_reducible assumption) | ((with_reducible apply Keeps.after (State.celWrite_keeps _ _ _ _)); rfl)
      | (dsimp only))

theorem State.galStatus_keeps (s : State) : ∀ a1 a2, Keeps [.regs, .ecc, .mast, .cel,
    .outbox] s (State.galStatus s a1 a2) := by
  intro a1 a2
  have h : Keeps [.regs, .ecc, .mast, .cel, .outbox] s s := .refl s
  unfold State.galStatus
  repeat' (first
      | (with_reducible assumption)
      | ((with_reducible apply Keeps.after (State.jobStatus_keeps _ _ _ _ _ _ _)); rfl) | (dsimp only))

theorem State.galJobEnd_keeps (s : State) : ∀ a1 a2, Keeps [.regs, .ecc, .mast, .bell, .cel, .gal,
    .outbox] s (State.galJobEnd s a1 a2) := by
  intro a1 a2
  have h : Keeps [.regs, .ecc, .mast, .bell, .cel, .gal, .outbox] s s := .refl s
  unfold State.galJobEnd
  repeat' (first
      | (with_reducible assumption) | ((with_reducible apply Keeps.after (State.galStatus_keeps _ _ _)); rfl)
      | ((with_reducible apply Keeps.after (State.pulse_keeps _ _)); rfl)
      | ((with_reducible apply Keeps.after (State.putB_keeps _ _ _ _)); rfl)
      | ((with_reducible apply Keeps.put_gal); rfl; first | (with_reducible assumption) | ((with_reducible apply Keeps.after (State.galStatus_keeps _ _ _)); rfl) | ((with_reducible apply Keeps.after (State.pulse_keeps _ _)); rfl) | ((with_reducible apply Keeps.after (State.putB_keeps _ _ _ _)); rfl))
      | (dsimp only))

theorem State.galJobCtlWrite_keeps (s : State) : ∀ a1, Keeps [.regs, .ecc, .mast, .bell, .cel, .gal,
    .outbox] s (State.galJobCtlWrite s a1) := by
  intro a1
  have h : Keeps [.regs, .ecc, .mast, .bell, .cel, .gal, .outbox] s s := .refl s
  unfold State.galJobCtlWrite
  repeat' (first
      | (with_reducible assumption) | ((with_reducible apply Keeps.after (State.galJobEnd_keeps _ _ _)); rfl)
      | ((with_reducible apply Keeps.after (State.galStatus_keeps _ _ _)); rfl)
      | ((with_reducible apply Keeps.after (State.plainWrite_keeps _ _ _)); rfl)
      | ((with_reducible apply Keeps.after (State.setB_keeps _ _ _)); rfl) | (with_reducible refine Keeps.ite ?_ ?_)
      | ((with_reducible apply Keeps.put_gal); rfl; first | (with_reducible assumption) | ((with_reducible apply Keeps.after (State.galJobEnd_keeps _ _ _)); rfl) | ((with_reducible apply Keeps.after (State.galStatus_keeps _ _ _)); rfl) | ((with_reducible apply Keeps.after (State.plainWrite_keeps _ _ _)); rfl) | ((with_reducible apply Keeps.after (State.setB_keeps _ _ _)); rfl) | (with_reducible refine Keeps.ite ?_ ?_))
      | (dsimp only) | split)

theorem execGalJobStart_keeps (s : State) : ∀ a0, ∃ t, (execGalJobStart a0 s) = .next t ∧ Keeps [.regs, .ecc, .mast,
    .bell, .cel, .gal, .outbox] s t := by
  intro a0
  have h : Keeps [.regs, .ecc, .mast, .bell, .cel, .gal, .outbox] s s := .refl s
  unfold execGalJobStart
  repeat' (first | (with_reducible apply Keeps.next) | (with_reducible apply Keeps.next_ite) | dsimp only | split)
  all_goals repeat' (first
      | (with_reducible assumption) | ((with_reducible apply Keeps.after (State.galJobCtlWrite_keeps _ _)); rfl)
      | (with_reducible apply Keeps.fst_ite) | (dsimp only))

theorem State.galAbort_keeps (s : State) : Keeps [.regs, .ecc, .mast, .bell, .cel, .gal,
    .outbox] s (State.galAbort s) := by
  have h : Keeps [.regs, .ecc, .mast, .bell, .cel, .gal, .outbox] s s := .refl s
  unfold State.galAbort
  repeat' (first
      | (with_reducible assumption) | ((with_reducible apply Keeps.after (State.galJobEnd_keeps _ _ _)); rfl)
      | (dsimp only) | split)

theorem execGalJobAbort_keeps (s : State) : ∀ a0, ∃ t, (execGalJobAbort a0 s) = .next t ∧ Keeps [.regs, .ecc, .mast,
    .bell, .cel, .gal, .outbox] s t := by
  intro a0
  have h : Keeps [.regs, .ecc, .mast, .bell, .cel, .gal, .outbox] s s := .refl s
  unfold execGalJobAbort
  repeat' (first | (with_reducible apply Keeps.next) | (with_reducible apply Keeps.next_ite) | dsimp only | split)
  all_goals repeat' (first
      | (with_reducible assumption) | ((with_reducible apply Keeps.after (State.galAbort_keeps _)); rfl)
      | ((with_reducible apply Keeps.after (State.galJobCtlWrite_keeps _ _)); rfl)
      | (with_reducible apply Keeps.fst_ite) | (dsimp only))

theorem State.galRecord_keeps (s : State) : ∀ a1, Keeps [.regs, .ecc, .mast, .cel, .cup, .pipe, .gal, .stw, .crw,
    .outbox] s (State.galRecord s a1).1 := by
  intro a1
  have h : Keeps [.regs, .ecc, .mast, .cel, .cup, .pipe, .gal, .stw, .crw, .outbox] s s := .refl s
  unfold State.galRecord
  repeat' (first
      | (with_reducible assumption) | ((with_reducible apply Keeps.after (State.galRun_keeps _ _ _ _ _ _ _ _)); rfl)
      | ((with_reducible apply Keeps.pair); with_reducible assumption) | (with_reducible refine Keeps.ite ?_ ?_)
      | (with_reducible apply Keeps.fst_ite) | (dsimp only) | split)

theorem execGalJobRecord_keeps (s : State) : ∃ t, (execGalJobRecord s) = .next t ∧ Keeps [.regs, .ecc, .mast, .bell,
    .cel, .cup, .pipe, .gal, .stw, .crw, .outbox] s t := by
  have h : Keeps [.regs, .ecc, .mast, .bell, .cel, .cup, .pipe, .gal, .stw, .crw, .outbox] s s := .refl s
  unfold execGalJobRecord
  repeat' (first | (with_reducible apply Keeps.next) | (with_reducible apply Keeps.next_ite) | dsimp only | split)
  all_goals repeat' (first
      | (with_reducible assumption) | ((with_reducible apply Keeps.after (State.celRead_keeps _ _ _ _)); rfl)
      | ((with_reducible apply Keeps.after (State.count_keeps _ _ _ _)); rfl)
      | ((with_reducible apply Keeps.after (State.galJobEnd_keeps _ _ _)); rfl)
      | ((with_reducible apply Keeps.after (State.galRecord_keeps _ _)); rfl)
      | ((with_reducible apply Keeps.after (State.galStatus_keeps _ _ _)); rfl)
      | ((with_reducible apply Keeps.pair); with_reducible assumption) | (with_reducible refine Keeps.ite ?_ ?_)
      | (with_reducible apply Keeps.fst_ite)
      | ((with_reducible apply Keeps.put_gal); rfl; first | (with_reducible assumption) | ((with_reducible apply Keeps.after (State.celRead_keeps _ _ _ _)); rfl) | ((with_reducible apply Keeps.after (State.count_keeps _ _ _ _)); rfl) | ((with_reducible apply Keeps.after (State.galJobEnd_keeps _ _ _)); rfl) | ((with_reducible apply Keeps.after (State.galRecord_keeps _ _)); rfl) | ((with_reducible apply Keeps.after (State.galStatus_keeps _ _ _)); rfl) | ((with_reducible apply Keeps.pair); with_reducible assumption) | (with_reducible refine Keeps.ite ?_ ?_) | (with_reducible apply Keeps.fst_ite))
      | (dsimp only) | split)

theorem execGalScrubVisit_keeps (s : State) : ∀ a0 a1 a2 a3, ∃ t, (execGalScrubVisit a0 a1 a2 a3 s) = .next t ∧ Keeps [.regs,
    .mast, .gal] s t := by
  intro a0 a1 a2 a3
  have h : Keeps [.regs, .mast, .gal] s s := .refl s
  unfold execGalScrubVisit
  repeat' (first | (with_reducible apply Keeps.next) | (with_reducible apply Keeps.next_ite) | dsimp only | split)
  all_goals repeat' (first
      | (with_reducible assumption) | ((with_reducible apply Keeps.after (State.count_keeps _ _ _ _)); rfl)
      | ((with_reducible apply Keeps.after (State.report_keeps _ _ _ _)); rfl)
      | ((with_reducible apply Keeps.after (State.setB_keeps _ _ _)); rfl)
      | ((with_reducible apply Keeps.after (State.setGal_keeps _ _ _)); rfl)
      | ((with_reducible apply Keeps.after (State.wf_keeps _ _ _ _ _)); rfl)
      | (with_reducible refine Keeps.ite ?_ ?_) | (with_reducible apply Keeps.fst_ite) | (dsimp only) | split)

theorem execGalRepair_keeps (s : State) : ∀ a0 a1 a2 a3, ∃ t, (execGalRepair a0 a1 a2 a3 s) = .next t ∧ Keeps [.regs,
    .ecc, .mast, .gal] s t := by
  intro a0 a1 a2 a3
  have h : Keeps [.regs, .ecc, .mast, .gal] s s := .refl s
  unfold execGalRepair
  repeat' (first | (with_reducible apply Keeps.next) | (with_reducible apply Keeps.next_ite) | dsimp only | split)
  all_goals repeat' (first
      | (with_reducible assumption) | ((with_reducible apply Keeps.after (State.count_keeps _ _ _ _)); rfl)
      | ((with_reducible apply Keeps.after (State.eccClear_keeps _ _ _)); rfl)
      | ((with_reducible apply Keeps.after (State.eccFlag_keeps _ _ _ _)); rfl)
      | ((with_reducible apply Keeps.after (State.report_keeps _ _ _ _)); rfl)
      | ((with_reducible apply Keeps.after (State.setB_keeps _ _ _)); rfl)
      | ((with_reducible apply Keeps.after (State.setGal_keeps _ _ _)); rfl)
      | (with_reducible refine Keeps.ite ?_ ?_) | (with_reducible apply Keeps.fst_ite) | (dsimp only) | split)

theorem State.galSettle_keeps (s : State) : ∀ a1, Keeps [.gal] s (State.galSettle s a1) := by
  intro a1
  have h : Keeps [.gal] s s := .refl s
  unfold State.galSettle
  repeat' (first
      | (with_reducible assumption) | (with_reducible refine Keeps.ite ?_ ?_)
      | ((with_reducible apply Keeps.put_gal); rfl; first | (with_reducible assumption) | (with_reducible refine Keeps.ite ?_ ?_))
      | (dsimp only) | split)

theorem State.galRegWrite_keeps (s : State) : ∀ a1 a2, Keeps [.regs, .ecc, .mast, .bell, .cel, .cup, .pipe, .gal,
    .stw, .crw, .outbox] s (State.galRegWrite s a1 a2) := by
  intro a1 a2
  have h : Keeps [.regs, .ecc, .mast, .bell, .cel, .cup, .pipe, .gal, .stw, .crw, .outbox] s s := .refl s
  unfold State.galRegWrite
  repeat' (first
      | (with_reducible assumption) | ((with_reducible apply Keeps.after (State.galAbort_keeps _)); rfl)
      | ((with_reducible apply Keeps.after (State.galCmdWrite_keeps _ _)); rfl)
      | ((with_reducible apply Keeps.after (State.galJobCtlWrite_keeps _ _)); rfl)
      | ((with_reducible apply Keeps.after (State.plainWrite_keeps _ _ _)); rfl)
      | ((with_reducible apply Keeps.after (State.setB_keeps _ _ _)); rfl) | (with_reducible refine Keeps.ite ?_ ?_)
      | (dsimp only) | split)

/-! ## Larder -/

theorem State.setRemote_keeps (s : State) : ∀ a1 a2 a3, Keeps [.pipe] s (State.setRemote s a1 a2 a3) := by
  intro a1 a2 a3
  have h : Keeps [.pipe] s s := .refl s
  unfold State.setRemote
  repeat' (first
      | (with_reducible assumption) | ((with_reducible apply Keeps.after (State.setHead_keeps _ _ _)); rfl)
      | (with_reducible refine Keeps.ite ?_ ?_) | (dsimp only) | split)

theorem State.remoteFound_keeps (s : State) : ∀ a1 a2 a3, Keeps [.pipe] s (State.remoteFound s a1 a2 a3) := by
  intro a1 a2 a3
  have h : Keeps [.pipe] s s := .refl s
  unfold State.remoteFound
  repeat' (first
      | (with_reducible assumption) | ((with_reducible apply Keeps.after (State.setRemote_keeps _ _ _ _)); rfl)
      | (dsimp only))

theorem State.learnRequest_keeps (s : State) : ∀ a1, Keeps [.regs, .mast, .lrd] s (State.learnRequest s a1) := by
  intro a1
  have h : Keeps [.regs, .mast, .lrd] s s := .refl s
  unfold State.learnRequest
  repeat' (first
      | (with_reducible assumption) | ((with_reducible apply Keeps.after (State.count_keeps _ _ _ _)); rfl)
      | (with_reducible refine Keeps.ite ?_ ?_)
      | ((with_reducible apply Keeps.put_lrd); rfl; first | (with_reducible assumption) | ((with_reducible apply Keeps.after (State.count_keeps _ _ _ _)); rfl) | (with_reducible refine Keeps.ite ?_ ?_))
      | (dsimp only) | split)

theorem State.sourceSearch_keeps (s : State) : ∀ a1 a2 a3 a4 a5 a6, Keeps [.regs, .mast,
    .lrd] s (State.sourceSearch s a1 a2 a3 a4 a5 a6).1 := by
  intro a1 a2 a3 a4 a5 a6
  have h : Keeps [.regs, .mast, .lrd] s s := .refl s
  unfold State.sourceSearch
  repeat' (first
      | (with_reducible assumption) | ((with_reducible apply Keeps.after (State.count_keeps _ _ _ _)); rfl)
      | ((with_reducible apply Keeps.after (State.learnRequest_keeps _ _)); rfl)
      | (with_reducible refine Keeps.ite ?_ ?_) | (with_reducible apply Keeps.fst_ite) | (dsimp only) | split)

theorem State.lrdSearch_keeps (s : State) : ∀ a1, Keeps [.regs, .ecc, .mast, .cel,
    .lrd] s (State.lrdSearch s a1).1 := by
  intro a1
  have h : Keeps [.regs, .ecc, .mast, .cel, .lrd] s s := .refl s
  unfold State.lrdSearch
  repeat' (first
      | (with_reducible assumption) | ((with_reducible apply Keeps.after (State.count_keeps _ _ _ _)); rfl)
      | ((with_reducible apply Keeps.after (State.lrdSlots_keeps _ _ _)); rfl)
      | ((with_reducible apply Keeps.after (State.sourceSearch_keeps _ _ _ _ _ _ _)); rfl)
      | ((with_reducible apply Keeps.pair); with_reducible assumption) | (with_reducible refine Keeps.ite ?_ ?_)
      | (with_reducible apply Keeps.fst_ite) | (dsimp only) | split)

theorem State.lrdTake_keeps (s : State) : ∀ a1, Keeps [.regs, .ecc, .mast, .cel, .pipe,
    .lrd] s (State.lrdTake s a1) := by
  intro a1
  have h : Keeps [.regs, .ecc, .mast, .cel, .pipe, .lrd] s s := .refl s
  unfold State.lrdTake
  repeat' (first
      | (with_reducible assumption) | ((with_reducible apply Keeps.after (State.count_keeps _ _ _ _)); rfl)
      | ((with_reducible apply Keeps.after (State.lrdSearch_keeps _ _)); rfl)
      | ((with_reducible apply Keeps.after (State.remoteFound_keeps _ _ _ _)); rfl)
      | ((with_reducible apply Keeps.after (State.setRemote_keeps _ _ _ _)); rfl)
      | ((with_reducible apply Keeps.pair); with_reducible assumption) | (with_reducible refine Keeps.ite ?_ ?_)
      | (with_reducible apply Keeps.fst_ite)
      | ((with_reducible apply Keeps.put_lrd); rfl; first | (with_reducible assumption) | ((with_reducible apply Keeps.after (State.count_keeps _ _ _ _)); rfl) | ((with_reducible apply Keeps.after (State.lrdSearch_keeps _ _)); rfl) | ((with_reducible apply Keeps.after (State.remoteFound_keeps _ _ _ _)); rfl) | ((with_reducible apply Keeps.after (State.setRemote_keeps _ _ _ _)); rfl) | ((with_reducible apply Keeps.pair); with_reducible assumption) | (with_reducible refine Keeps.ite ?_ ?_) | (with_reducible apply Keeps.fst_ite))
      | (dsimp only) | split)

theorem execLarderSearch_keeps (s : State) : ∀ a0 a1, ∃ t, (execLarderSearch a0 a1 s) = .next t ∧ Keeps [.regs, .ecc,
    .mast, .cel, .pipe, .lrd] s t := by
  intro a0 a1
  have h : Keeps [.regs, .ecc, .mast, .cel, .pipe, .lrd] s s := .refl s
  unfold execLarderSearch
  repeat' (first | (with_reducible apply Keeps.next) | (with_reducible apply Keeps.next_ite) | dsimp only | split)
  all_goals repeat' (first
      | (with_reducible assumption) | ((with_reducible apply Keeps.after (State.lrdTake_keeps _ _)); rfl)
      | (with_reducible apply Keeps.fst_ite) | (dsimp only) | split)

theorem execCellarSearchRelease_keeps (s : State) : ∃ t, (execCellarSearchRelease s) = .next t ∧ Keeps [.regs, .ecc,
    .mast, .cel, .pipe, .lrd] s t := by
  have h : Keeps [.regs, .ecc, .mast, .cel, .pipe, .lrd] s s := .refl s
  unfold execCellarSearchRelease
  repeat' (first | (with_reducible apply Keeps.next) | (with_reducible apply Keeps.next_ite) | dsimp only | split)
  all_goals repeat' (first
      | (with_reducible assumption) | ((with_reducible apply Keeps.after (State.lrdSearch_keeps _ _)); rfl)
      | ((with_reducible apply Keeps.after (State.remoteFound_keeps _ _ _ _)); rfl)
      | ((with_reducible apply Keeps.pair); with_reducible assumption) | (with_reducible refine Keeps.ite ?_ ?_)
      | (with_reducible apply Keeps.fst_ite)
      | ((with_reducible apply Keeps.put_lrd); rfl; first | (with_reducible assumption) | ((with_reducible apply Keeps.after (State.lrdSearch_keeps _ _)); rfl) | ((with_reducible apply Keeps.after (State.remoteFound_keeps _ _ _ _)); rfl) | ((with_reducible apply Keeps.pair); with_reducible assumption) | (with_reducible refine Keeps.ite ?_ ?_) | (with_reducible apply Keeps.fst_ite))
      | (dsimp only) | split)

theorem State.lrdFrees_keeps (s : State) : Keeps [.regs, .ecc, .mast, .cel, .lrd, .outbox] s (State.lrdFrees s) := by
  have h : Keeps [.regs, .ecc, .mast, .cel, .lrd, .outbox] s s := .refl s
  unfold State.lrdFrees
  repeat' (first
      | (with_reducible assumption) | ((with_reducible apply Keeps.after (State.lrdPut_keeps _ _ _)); rfl)
      | (with_reducible refine Keeps.each ?_ fun _ _ _ => ?_)
      | ((with_reducible apply Keeps.put_lrd); rfl; first | (with_reducible assumption) | ((with_reducible apply Keeps.after (State.lrdPut_keeps _ _ _)); rfl) | (with_reducible refine Keeps.each ?_ fun _ _ _ => ?_))
      | (dsimp only))

theorem execLrdEccFree_keeps (s : State) : ∃ t, (execLrdEccFree s) = .next t ∧ Keeps [.regs, .ecc, .mast, .cel, .lrd,
    .outbox] s t := by
  have h : Keeps [.regs, .ecc, .mast, .cel, .lrd, .outbox] s s := .refl s
  unfold execLrdEccFree
  repeat' (first | (with_reducible apply Keeps.next) | (with_reducible apply Keeps.next_ite) | dsimp only | split)
  all_goals repeat' (first
      | (with_reducible assumption) | ((with_reducible apply Keeps.after (State.lrdFrees_keeps _)); rfl)
      | (with_reducible apply Keeps.fst_ite) | (dsimp only))

theorem State.learnApply_keeps (s : State) : ∀ a1, Keeps [.regs, .ecc, .mast, .cel, .lrd,
    .outbox] s (State.learnApply s a1) := by
  intro a1
  have h : Keeps [.regs, .ecc, .mast, .cel, .lrd, .outbox] s s := .refl s
  unfold State.learnApply
  repeat' (first
      | (with_reducible assumption) | ((with_reducible apply Keeps.after (State.count_keeps _ _ _ _)); rfl)
      | ((with_reducible apply Keeps.after (State.lrdPut_keeps _ _ _)); rfl)
      | ((with_reducible apply Keeps.after (State.lrdSlots_keeps _ _ _)); rfl)
      | ((with_reducible apply Keeps.pair); with_reducible assumption) | (with_reducible refine Keeps.ite ?_ ?_)
      | (with_reducible apply Keeps.fst_ite) | (dsimp only) | split)

theorem execLearnRequestApply_keeps (s : State) : ∃ t, (execLearnRequestApply s) = .next t ∧ Keeps [.regs, .ecc,
    .mast, .cel, .lrd, .outbox] s t := by
  have h : Keeps [.regs, .ecc, .mast, .cel, .lrd, .outbox] s s := .refl s
  unfold execLearnRequestApply
  repeat' (first | (with_reducible apply Keeps.next) | (with_reducible apply Keeps.next_ite) | dsimp only | split)
  all_goals repeat' (first
      | (with_reducible assumption) | ((with_reducible apply Keeps.after (State.learnApply_keeps _ _)); rfl)
      | ((with_reducible apply Keeps.after (State.lrdFrees_keeps _)); rfl) | (with_reducible apply Keeps.fst_ite)
      | ((with_reducible apply Keeps.put_lrd); rfl; first | (with_reducible assumption) | ((with_reducible apply Keeps.after (State.learnApply_keeps _ _)); rfl) | ((with_reducible apply Keeps.after (State.lrdFrees_keeps _)); rfl) | (with_reducible apply Keeps.fst_ite))
      | (dsimp only) | split)

theorem State.lrdVisit_keeps (s : State) : ∀ a1 a2, Keeps [.regs, .ecc, .mast, .cel, .lrd,
    .outbox] s (State.lrdVisit s a1 a2).1 := by
  intro a1 a2
  have h : Keeps [.regs, .ecc, .mast, .cel, .lrd, .outbox] s s := .refl s
  unfold State.lrdVisit
  repeat' (first
      | (with_reducible assumption) | ((with_reducible apply Keeps.after (State.count_keeps _ _ _ _)); rfl)
      | ((with_reducible apply Keeps.after (State.lrdBucket_keeps _ _ _)); rfl)
      | ((with_reducible apply Keeps.after (State.lrdPut_keeps _ _ _)); rfl)
      | (with_reducible refine Keeps.foldl _ ?_ fun _ _ _ => ?_)
      | (with_reducible refine Keeps.foldl_fst _ ?_ fun _ _ _ => ?_)
      | ((with_reducible apply Keeps.pair); with_reducible assumption) | (with_reducible refine Keeps.ite ?_ ?_)
      | (with_reducible apply Keeps.fst_ite) | (dsimp only) | split)

theorem execSweepVisit_keeps (s : State) : ∀ a0 a1, ∃ t, (execSweepVisit a0 a1 s) = .next t ∧ Keeps [.regs, .ecc,
    .mast, .cel, .lrd, .outbox] s t := by
  intro a0 a1
  have h : Keeps [.regs, .ecc, .mast, .cel, .lrd, .outbox] s s := .refl s
  unfold execSweepVisit
  repeat' (first | (with_reducible apply Keeps.next) | (with_reducible apply Keeps.next_ite) | dsimp only | split)
  all_goals repeat' (first
      | (with_reducible assumption) | ((with_reducible apply Keeps.after (State.lrdFrees_keeps _)); rfl)
      | ((with_reducible apply Keeps.after (State.lrdVisit_keeps _ _ _)); rfl)
      | ((with_reducible apply Keeps.pair); with_reducible assumption) | (with_reducible refine Keeps.ite ?_ ?_)
      | (with_reducible apply Keeps.fst_ite) | (dsimp only) | split)

theorem State.lrdStage_keeps (s : State) : ∀ a1 a2, Keeps [.regs, .lrd] s (State.lrdStage s a1 a2) := by
  intro a1 a2
  have h : Keeps [.regs, .lrd] s s := .refl s
  unfold State.lrdStage
  repeat' (first
      | (with_reducible assumption) | ((with_reducible apply Keeps.after (State.stageAdd_keeps _ _)); rfl)
      | (with_reducible refine Keeps.ite ?_ ?_)
      | ((with_reducible apply Keeps.put_lrd); rfl; first | (with_reducible assumption) | ((with_reducible apply Keeps.after (State.stageAdd_keeps _ _)); rfl) | (with_reducible refine Keeps.ite ?_ ?_))
      | (dsimp only) | split)

theorem State.lrdHide_keeps (s : State) : ∀ a1 a2 a3, Keeps [.regs, .ecc, .mast, .cel, .lrd,
    .outbox] s (State.lrdHide s a1 a2 a3) := by
  intro a1 a2 a3
  have h : Keeps [.regs, .ecc, .mast, .cel, .lrd, .outbox] s s := .refl s
  unfold State.lrdHide
  repeat' (first
      | (with_reducible assumption) | ((with_reducible apply Keeps.after (State.lrdPut_keeps _ _ _)); rfl)
      | (with_reducible refine Keeps.ite ?_ ?_) | (dsimp only) | split)

theorem State.lrdStagedCmd_keeps (s : State) : ∀ a1 a2 a3 a4 a5 a6 a7 a8, Keeps [.regs, .ecc, .mast, .cel, .lrd,
    .outbox] s (State.lrdStagedCmd s a1 a2 a3 a4 a5 a6 a7 a8).1 := by
  intro a1 a2 a3 a4 a5 a6 a7 a8
  have h : Keeps [.regs, .ecc, .mast, .cel, .lrd, .outbox] s s := .refl s
  unfold State.lrdStagedCmd
  repeat' (first
      | (with_reducible assumption) | ((with_reducible apply Keeps.after (State.lrdHide_keeps _ _ _ _)); rfl)
      | ((with_reducible apply Keeps.after (State.lrdPut_keeps _ _ _)); rfl)
      | ((with_reducible apply Keeps.after (State.lrdRoom_keeps _ _ _ _)); rfl)
      | ((with_reducible apply Keeps.after (State.lrdStage_keeps _ _ _)); rfl)
      | ((with_reducible apply Keeps.after (State.wrWide_keeps _ _ _ _)); rfl)
      | ((with_reducible apply Keeps.pair); with_reducible assumption) | (with_reducible refine Keeps.ite ?_ ?_)
      | (with_reducible apply Keeps.fst_ite) | (dsimp only) | split)

theorem State.lrdRun_keeps (s : State) : ∀ a1 a2 a3 a4 a5 a6 a7, Keeps [.regs, .ecc, .mast, .cel, .lrd,
    .outbox] s (State.lrdRun s a1 a2 a3 a4 a5 a6 a7).1 := by
  intro a1 a2 a3 a4 a5 a6 a7
  have h : Keeps [.regs, .ecc, .mast, .cel, .lrd, .outbox] s s := .refl s
  unfold State.lrdRun
  repeat' (first
      | (with_reducible assumption) | ((with_reducible apply Keeps.after (State.lrdFrees_keeps _)); rfl)
      | ((with_reducible apply Keeps.after (State.lrdPut_keeps _ _ _)); rfl)
      | ((with_reducible apply Keeps.after (State.lrdRoom_keeps _ _ _ _)); rfl)
      | ((with_reducible apply Keeps.after (State.lrdSlots_keeps _ _ _)); rfl)
      | ((with_reducible apply Keeps.after (State.lrdStagedCmd_keeps _ _ _ _ _ _ _ _ _)); rfl)
      | ((with_reducible apply Keeps.after (State.wrWide_keeps _ _ _ _)); rfl)
      | ((with_reducible apply Keeps.pair); with_reducible assumption) | (with_reducible refine Keeps.ite ?_ ?_)
      | (with_reducible apply Keeps.fst_ite) | (dsimp only) | split)

theorem State.lrdCmdWrite_keeps (s : State) : ∀ a1, Keeps [.regs, .ecc, .mast, .cel, .lrd,
    .outbox] s (State.lrdCmdWrite s a1) := by
  intro a1
  have h : Keeps [.regs, .ecc, .mast, .cel, .lrd, .outbox] s s := .refl s
  unfold State.lrdCmdWrite
  repeat' (first
      | (with_reducible assumption) | ((with_reducible apply Keeps.after (State.count_keeps _ _ _ _)); rfl)
      | ((with_reducible apply Keeps.after (State.lrdRun_keeps _ _ _ _ _ _ _ _)); rfl)
      | ((with_reducible apply Keeps.after (State.plainWrite_keeps _ _ _)); rfl)
      | ((with_reducible apply Keeps.after (State.setB_keeps _ _ _)); rfl)
      | ((with_reducible apply Keeps.after (State.wf_keeps _ _ _ _ _)); rfl)
      | ((with_reducible apply Keeps.after (State.wrWide_keeps _ _ _ _)); rfl)
      | ((with_reducible apply Keeps.after (State.wr_keeps _ _ _)); rfl)
      | ((with_reducible apply Keeps.pair); with_reducible assumption) | (with_reducible refine Keeps.ite ?_ ?_)
      | (with_reducible apply Keeps.fst_ite) | (dsimp only) | split)

theorem execLrdInsert_keeps (s : State) : ∀ a0, ∃ t, (execLrdInsert a0 s) = .next t ∧ Keeps [.regs, .ecc, .mast,
    .cel, .lrd, .outbox] s t := by
  intro a0
  have h : Keeps [.regs, .ecc, .mast, .cel, .lrd, .outbox] s s := .refl s
  unfold execLrdInsert
  repeat' (first | (with_reducible apply Keeps.next) | (with_reducible apply Keeps.next_ite) | dsimp only | split)
  all_goals repeat' (first
      | (with_reducible assumption) | ((with_reducible apply Keeps.after (State.lrdCmdWrite_keeps _ _)); rfl)
      | (with_reducible apply Keeps.fst_ite) | (dsimp only))

theorem execLrdDelete_keeps (s : State) : ∀ a0, ∃ t, (execLrdDelete a0 s) = .next t ∧ Keeps [.regs, .ecc, .mast,
    .cel, .lrd, .outbox] s t := by
  intro a0
  have h : Keeps [.regs, .ecc, .mast, .cel, .lrd, .outbox] s s := .refl s
  unfold execLrdDelete
  repeat' (first | (with_reducible apply Keeps.next) | (with_reducible apply Keeps.next_ite) | dsimp only | split)
  all_goals repeat' (first
      | (with_reducible assumption) | ((with_reducible apply Keeps.after (State.lrdCmdWrite_keeps _ _)); rfl)
      | (with_reducible apply Keeps.fst_ite) | (dsimp only))

theorem execLrdRead_keeps (s : State) : ∀ a0, ∃ t, (execLrdRead a0 s) = .next t ∧ Keeps [.regs, .ecc, .mast, .cel,
    .lrd, .outbox] s t := by
  intro a0
  have h : Keeps [.regs, .ecc, .mast, .cel, .lrd, .outbox] s s := .refl s
  unfold execLrdRead
  repeat' (first | (with_reducible apply Keeps.next) | (with_reducible apply Keeps.next_ite) | dsimp only | split)
  all_goals repeat' (first
      | (with_reducible assumption) | ((with_reducible apply Keeps.after (State.lrdCmdWrite_keeps _ _)); rfl)
      | (with_reducible apply Keeps.fst_ite) | (dsimp only))

theorem execLrdCompareReplace_keeps (s : State) : ∀ a0, ∃ t, (execLrdCompareReplace a0 s) = .next t ∧ Keeps [.regs,
    .ecc, .mast, .cel, .lrd, .outbox] s t := by
  intro a0
  have h : Keeps [.regs, .ecc, .mast, .cel, .lrd, .outbox] s s := .refl s
  unfold execLrdCompareReplace
  repeat' (first | (with_reducible apply Keeps.next) | (with_reducible apply Keeps.next_ite) | dsimp only | split)
  all_goals repeat' (first
      | (with_reducible assumption) | ((with_reducible apply Keeps.after (State.lrdCmdWrite_keeps _ _)); rfl)
      | (with_reducible apply Keeps.fst_ite) | (dsimp only))

theorem execLrdTouch_keeps (s : State) : ∀ a0, ∃ t, (execLrdTouch a0 s) = .next t ∧ Keeps [.regs, .ecc, .mast, .cel,
    .lrd, .outbox] s t := by
  intro a0
  have h : Keeps [.regs, .ecc, .mast, .cel, .lrd, .outbox] s s := .refl s
  unfold execLrdTouch
  repeat' (first | (with_reducible apply Keeps.next) | (with_reducible apply Keeps.next_ite) | dsimp only | split)
  all_goals repeat' (first
      | (with_reducible assumption) | ((with_reducible apply Keeps.after (State.lrdCmdWrite_keeps _ _)); rfl)
      | (with_reducible apply Keeps.fst_ite) | (dsimp only))

theorem State.lrdSettle_keeps (s : State) : ∀ a1, Keeps [.regs, .ecc, .mast, .cel, .lrd,
    .outbox] s (State.lrdSettle s a1) := by
  intro a1
  have h : Keeps [.regs, .ecc, .mast, .cel, .lrd, .outbox] s s := .refl s
  unfold State.lrdSettle
  repeat' (first
      | (with_reducible assumption) | ((with_reducible apply Keeps.after (State.lrdPut_keeps _ _ _)); rfl)
      | ((with_reducible apply Keeps.after (State.lrdSlots_keeps _ _ _)); rfl)
      | (with_reducible refine Keeps.each ?_ fun _ _ _ => ?_)
      | ((with_reducible apply Keeps.pair); with_reducible assumption) | (with_reducible refine Keeps.ite ?_ ?_)
      | (with_reducible apply Keeps.fst_ite)
      | ((with_reducible apply Keeps.put_lrd); rfl; first | (with_reducible assumption) | ((with_reducible apply Keeps.after (State.lrdPut_keeps _ _ _)); rfl) | ((with_reducible apply Keeps.after (State.lrdSlots_keeps _ _ _)); rfl) | (with_reducible refine Keeps.each ?_ fun _ _ _ => ?_) | ((with_reducible apply Keeps.pair); with_reducible assumption) | (with_reducible refine Keeps.ite ?_ ?_) | (with_reducible apply Keeps.fst_ite))
      | (dsimp only) | split)

theorem State.ltDrop_keeps (s : State) : ∀ a1, Keeps [.cel, .lrd] s (State.ltDrop s a1) := by
  intro a1
  have h : Keeps [.cel, .lrd] s s := .refl s
  unfold State.ltDrop
  repeat' (first
      | (with_reducible assumption) | ((with_reducible apply Keeps.after (State.celZero_keeps _ _ _)); rfl)
      | (with_reducible refine Keeps.ite ?_ ?_)
      | ((with_reducible apply Keeps.put_lrd); rfl; first | (with_reducible assumption) | ((with_reducible apply Keeps.after (State.celZero_keeps _ _ _)); rfl) | (with_reducible refine Keeps.ite ?_ ?_))
      | (dsimp only) | split)

theorem State.ltCfgWrite_keeps (s : State) : ∀ a1 a2, Keeps [.regs, .cel, .lrd] s (State.ltCfgWrite s a1 a2) := by
  intro a1 a2
  have h : Keeps [.regs, .cel, .lrd] s s := .refl s
  unfold State.ltCfgWrite
  repeat' (first
      | (with_reducible assumption) | ((with_reducible apply Keeps.after (State.ltDrop_keeps _ _)); rfl)
      | ((with_reducible apply Keeps.after (State.plainWrite_keeps _ _ _)); rfl)
      | ((with_reducible apply Keeps.after (State.putB_keeps _ _ _ _)); rfl)
      | ((with_reducible apply Keeps.after (State.setB_keeps _ _ _)); rfl) | (with_reducible refine Keeps.ite ?_ ?_)
      | (dsimp only) | split)

theorem execLrdTableCfgWrite_keeps (s : State) : ∀ a0 a1, ∃ t, (execLrdTableCfgWrite a0 a1 s) = .next t ∧ Keeps [.regs,
    .cel, .lrd] s t := by
  intro a0 a1
  have h : Keeps [.regs, .cel, .lrd] s s := .refl s
  unfold execLrdTableCfgWrite
  repeat' (first | (with_reducible apply Keeps.next) | (with_reducible apply Keeps.next_ite) | dsimp only | split)
  all_goals repeat' (first
      | (with_reducible assumption) | ((with_reducible apply Keeps.after (State.ltCfgWrite_keeps _ _ _)); rfl)
      | (with_reducible apply Keeps.fst_ite) | (dsimp only))

theorem State.ltAgeWrite_keeps (s : State) : ∀ a1 a2, Keeps [.regs] s (State.ltAgeWrite s a1 a2) := by
  intro a1 a2
  have h : Keeps [.regs] s s := .refl s
  unfold State.ltAgeWrite
  repeat' (first
      | (with_reducible assumption) | ((with_reducible apply Keeps.after (State.plainWrite_keeps _ _ _)); rfl)
      | ((with_reducible apply Keeps.after (State.setB_keeps _ _ _)); rfl) | (with_reducible refine Keeps.ite ?_ ?_)
      | (dsimp only) | split)

theorem execLrdAgeWrite_keeps (s : State) : ∀ a0 a1, ∃ t, (execLrdAgeWrite a0 a1 s) = .next t ∧ Keeps [.regs] s t := by
  intro a0 a1
  have h : Keeps [.regs] s s := .refl s
  unfold execLrdAgeWrite
  repeat' (first | (with_reducible apply Keeps.next) | (with_reducible apply Keeps.next_ite) | dsimp only | split)
  all_goals repeat' (first
      | (with_reducible assumption) | ((with_reducible apply Keeps.after (State.ltAgeWrite_keeps _ _ _)); rfl)
      | (with_reducible apply Keeps.fst_ite) | (dsimp only))

theorem State.ltTemplateWrite_keeps (s : State) : ∀ a1 a2 a3 a4, Keeps [.regs,
    .held] s (State.ltTemplateWrite s a1 a2 a3 a4) := by
  intro a1 a2 a3 a4
  have h : Keeps [.regs, .held] s s := .refl s
  unfold State.ltTemplateWrite
  repeat' (first
      | (with_reducible assumption) | ((with_reducible apply Keeps.after (State.setB_keeps _ _ _)); rfl)
      | ((with_reducible apply Keeps.after (State.wrWide_keeps _ _ _ _)); rfl)
      | (with_reducible refine Keeps.ite ?_ ?_)
      | ((with_reducible apply Keeps.put_held); rfl; first | (with_reducible assumption) | ((with_reducible apply Keeps.after (State.setB_keeps _ _ _)); rfl) | ((with_reducible apply Keeps.after (State.wrWide_keeps _ _ _ _)); rfl) | (with_reducible refine Keeps.ite ?_ ?_))
      | (dsimp only) | split)

theorem execLrdTemplateWrite_keeps (s : State) : ∀ a0 a1 a2, ∃ t, (execLrdTemplateWrite a0 a1 a2 s) = .next t ∧ Keeps [.regs,
    .held] s t := by
  intro a0 a1 a2
  have h : Keeps [.regs, .held] s s := .refl s
  unfold execLrdTemplateWrite
  repeat' (first | (with_reducible apply Keeps.next) | (with_reducible apply Keeps.next_ite) | dsimp only | split)
  all_goals repeat' (first
      | (with_reducible assumption)
      | ((with_reducible apply Keeps.after (State.ltTemplateWrite_keeps _ _ _ _ _)); rfl)
      | (with_reducible apply Keeps.fst_ite) | (dsimp only))

theorem State.lrdStatus_keeps (s : State) : ∀ a1 a2, Keeps [.regs, .ecc, .mast, .cel,
    .outbox] s (State.lrdStatus s a1 a2) := by
  intro a1 a2
  have h : Keeps [.regs, .ecc, .mast, .cel, .outbox] s s := .refl s
  unfold State.lrdStatus
  repeat' (first
      | (with_reducible assumption)
      | ((with_reducible apply Keeps.after (State.jobStatus_keeps _ _ _ _ _ _ _)); rfl) | (dsimp only))

theorem State.setLrdJob_keeps (s : State) : ∀ a1, Keeps [.lrd] s (State.setLrdJob s a1) := by
  intro a1
  have h : Keeps [.lrd] s s := .refl s
  unfold State.setLrdJob
  repeat' (first
      | (with_reducible assumption)
      | ((with_reducible apply Keeps.put_lrd); rfl; first | (with_reducible assumption)) | (dsimp only))

theorem State.lrdJobEnd_keeps (s : State) : ∀ a1 a2, Keeps [.regs, .ecc, .mast, .bell, .cel, .lrd,
    .outbox] s (State.lrdJobEnd s a1 a2) := by
  intro a1 a2
  have h : Keeps [.regs, .ecc, .mast, .bell, .cel, .lrd, .outbox] s s := .refl s
  unfold State.lrdJobEnd
  repeat' (first
      | (with_reducible assumption) | ((with_reducible apply Keeps.after (State.lrdStatus_keeps _ _ _)); rfl)
      | ((with_reducible apply Keeps.after (State.pulse_keeps _ _)); rfl)
      | ((with_reducible apply Keeps.after (State.putB_keeps _ _ _ _)); rfl)
      | ((with_reducible apply Keeps.after (State.setLrdJob_keeps _ _)); rfl) | (dsimp only))

theorem State.lrdAbort_keeps (s : State) : Keeps [.regs, .ecc, .mast, .bell, .cel, .lrd,
    .outbox] s (State.lrdAbort s) := by
  have h : Keeps [.regs, .ecc, .mast, .bell, .cel, .lrd, .outbox] s s := .refl s
  unfold State.lrdAbort
  repeat' (first
      | (with_reducible assumption) | ((with_reducible apply Keeps.after (State.lrdJobEnd_keeps _ _ _)); rfl)
      | (dsimp only) | split)

theorem State.lrdJobCtlWrite_keeps (s : State) : ∀ a1, Keeps [.regs, .ecc, .mast, .bell, .cel, .lrd,
    .outbox] s (State.lrdJobCtlWrite s a1) := by
  intro a1
  have h : Keeps [.regs, .ecc, .mast, .bell, .cel, .lrd, .outbox] s s := .refl s
  unfold State.lrdJobCtlWrite
  repeat' (first
      | (with_reducible assumption) | ((with_reducible apply Keeps.after (State.lrdAbort_keeps _)); rfl)
      | ((with_reducible apply Keeps.after (State.lrdJobEnd_keeps _ _ _)); rfl)
      | ((with_reducible apply Keeps.after (State.lrdStatus_keeps _ _ _)); rfl)
      | ((with_reducible apply Keeps.after (State.plainWrite_keeps _ _ _)); rfl)
      | ((with_reducible apply Keeps.after (State.setB_keeps _ _ _)); rfl)
      | ((with_reducible apply Keeps.after (State.setLrdJob_keeps _ _)); rfl)
      | (with_reducible refine Keeps.ite ?_ ?_) | (dsimp only) | split)

theorem execLrdJobStart_keeps (s : State) : ∀ a0, ∃ t, (execLrdJobStart a0 s) = .next t ∧ Keeps [.regs, .ecc, .mast,
    .bell, .cel, .lrd, .outbox] s t := by
  intro a0
  have h : Keeps [.regs, .ecc, .mast, .bell, .cel, .lrd, .outbox] s s := .refl s
  unfold execLrdJobStart
  repeat' (first | (with_reducible apply Keeps.next) | (with_reducible apply Keeps.next_ite) | dsimp only | split)
  all_goals repeat' (first
      | (with_reducible assumption) | ((with_reducible apply Keeps.after (State.lrdJobCtlWrite_keeps _ _)); rfl)
      | (with_reducible apply Keeps.fst_ite) | (dsimp only))

theorem execLrdJobAbort_keeps (s : State) : ∀ a0, ∃ t, (execLrdJobAbort a0 s) = .next t ∧ Keeps [.regs, .ecc, .mast,
    .bell, .cel, .lrd, .outbox] s t := by
  intro a0
  have h : Keeps [.regs, .ecc, .mast, .bell, .cel, .lrd, .outbox] s s := .refl s
  unfold execLrdJobAbort
  repeat' (first | (with_reducible apply Keeps.next) | (with_reducible apply Keeps.next_ite) | dsimp only | split)
  all_goals repeat' (first
      | (with_reducible assumption) | ((with_reducible apply Keeps.after (State.lrdJobCtlWrite_keeps _ _)); rfl)
      | (with_reducible apply Keeps.fst_ite) | (dsimp only))

theorem State.lrdStepDone_keeps (s : State) : ∀ a1, Keeps [.regs, .ecc, .mast, .bell, .cel, .lrd,
    .outbox] s (State.lrdStepDone s a1) := by
  intro a1
  have h : Keeps [.regs, .ecc, .mast, .bell, .cel, .lrd, .outbox] s s := .refl s
  unfold State.lrdStepDone
  repeat' (first
      | (with_reducible assumption) | ((with_reducible apply Keeps.after (State.lrdJobEnd_keeps _ _ _)); rfl)
      | ((with_reducible apply Keeps.after (State.lrdStatus_keeps _ _ _)); rfl)
      | ((with_reducible apply Keeps.after (State.setLrdJob_keeps _ _)); rfl)
      | (with_reducible refine Keeps.ite ?_ ?_) | (dsimp only) | split)

theorem State.lrdJobStep_keeps (s : State) : ∀ a1, Keeps [.regs, .ecc, .mast, .bell, .cel, .lrd,
    .outbox] s (State.lrdJobStep s a1) := by
  intro a1
  have h : Keeps [.regs, .ecc, .mast, .bell, .cel, .lrd, .outbox] s s := .refl s
  unfold State.lrdJobStep
  repeat' (first
      | (with_reducible assumption) | ((with_reducible apply Keeps.after (State.celWrite_keeps _ _ _ _)); rfl)
      | ((with_reducible apply Keeps.after (State.count_keeps _ _ _ _)); rfl)
      | ((with_reducible apply Keeps.after (State.lrdBucket_keeps _ _ _)); rfl)
      | ((with_reducible apply Keeps.after (State.lrdJobEnd_keeps _ _ _)); rfl)
      | ((with_reducible apply Keeps.after (State.lrdPut_keeps _ _ _)); rfl)
      | ((with_reducible apply Keeps.after (State.lrdStepDone_keeps _ _)); rfl)
      | ((with_reducible apply Keeps.after (State.lrdVisit_keeps _ _ _)); rfl)
      | (with_reducible refine Keeps.each ?_ fun _ _ _ => ?_)
      | ((with_reducible apply Keeps.pair); with_reducible assumption) | (with_reducible refine Keeps.ite ?_ ?_)
      | (with_reducible apply Keeps.fst_ite) | (dsimp only) | split)

theorem execLrdJobStep_keeps (s : State) : ∃ t, (execLrdJobStep s) = .next t ∧ Keeps [.regs, .ecc, .mast, .bell,
    .cel, .lrd, .outbox] s t := by
  have h : Keeps [.regs, .ecc, .mast, .bell, .cel, .lrd, .outbox] s s := .refl s
  unfold execLrdJobStep
  repeat' (first | (with_reducible apply Keeps.next) | (with_reducible apply Keeps.next_ite) | dsimp only | split)
  all_goals repeat' (first
      | (with_reducible assumption) | ((with_reducible apply Keeps.after (State.lrdFrees_keeps _)); rfl)
      | ((with_reducible apply Keeps.after (State.lrdJobStep_keeps _ _)); rfl)
      | (with_reducible apply Keeps.fst_ite) | (dsimp only) | split)

theorem execLrdScrub_keeps (s : State) : ∀ a0 a1, ∃ t, (execLrdScrub a0 a1 s) = .next t ∧ Keeps [.regs, .freeCtr,
    .ecc, .mast, .lrd] s t := by
  intro a0 a1
  have h : Keeps [.regs, .freeCtr, .ecc, .mast, .lrd] s s := .refl s
  unfold execLrdScrub
  repeat' (first | (with_reducible apply Keeps.next) | (with_reducible apply Keeps.next_ite) | dsimp only | split)
  all_goals repeat' (first
      | (with_reducible assumption) | ((with_reducible apply Keeps.after (State.eccClear_keeps _ _ _)); rfl)
      | ((with_reducible apply Keeps.after (State.eccFlag_keeps _ _ _ _)); rfl)
      | ((with_reducible apply Keeps.after (State.free_keeps _ _)); rfl)
      | ((with_reducible apply Keeps.after (State.lrdCorr_keeps _ _)); rfl)
      | ((with_reducible apply Keeps.after (State.lrdUncorr_keeps _ _ _)); rfl)
      | ((with_reducible apply Keeps.after (State.shelfCheck_keeps _ _)); rfl)
      | ((with_reducible apply Keeps.pair); with_reducible assumption)
      | ((with_reducible apply Keeps.pair_snd); with_reducible assumption) | (with_reducible apply Keeps.fst_ite)
      | (dsimp only) | split)

theorem State.lrdRegWrite_keeps (s : State) : ∀ a1 a2, Keeps [.regs, .held, .ecc, .mast, .bell, .cel, .lrd,
    .outbox] s (State.lrdRegWrite s a1 a2) := by
  intro a1 a2
  have h : Keeps [.regs, .held, .ecc, .mast, .bell, .cel, .lrd, .outbox] s s := .refl s
  unfold State.lrdRegWrite
  repeat' (first
      | (with_reducible assumption) | ((with_reducible apply Keeps.after (State.lrdCmdWrite_keeps _ _)); rfl)
      | ((with_reducible apply Keeps.after (State.lrdJobCtlWrite_keeps _ _)); rfl)
      | ((with_reducible apply Keeps.after (State.ltAgeWrite_keeps _ _ _)); rfl)
      | ((with_reducible apply Keeps.after (State.ltCfgWrite_keeps _ _ _)); rfl)
      | ((with_reducible apply Keeps.after (State.ltTemplateWrite_keeps _ _ _ _ _)); rfl)
      | ((with_reducible apply Keeps.after (State.plainWrite_keeps _ _ _)); rfl)
      | ((with_reducible apply Keeps.after (State.setB_keeps _ _ _)); rfl) | (with_reducible refine Keeps.ite ?_ ?_)
      | (dsimp only) | split)

/-! ## Crowsnest -/

theorem State.takeMark_keeps (s : State) : ∀ a1 a2, Keeps [.regs, .pipe] s (State.takeMark s a1 a2) := by
  intro a1 a2
  have h : Keeps [.regs, .pipe] s s := .refl s
  unfold State.takeMark
  repeat' (first
      | (with_reducible assumption) | ((with_reducible apply Keeps.after (State.dropMark_keeps _ _)); rfl)
      | ((with_reducible apply Keeps.after (State.setFrame_keeps _ _ _)); rfl)
      | ((with_reducible apply Keeps.after (State.wrN_keeps _ _ _)); rfl) | (with_reducible refine Keeps.ite ?_ ?_)
      | (dsimp only) | split)

theorem State.crwAnswer_keeps (s : State) : ∀ a1 a2 a3 a4, Keeps [.regs, .mast, .pipe,
    .crw] s (State.crwAnswer s a1 a2 a3 a4) := by
  intro a1 a2 a3 a4
  have h : Keeps [.regs, .mast, .pipe, .crw] s s := .refl s
  unfold State.crwAnswer
  repeat' (first
      | (with_reducible assumption) | ((with_reducible apply Keeps.after (State.count_keeps _ _ _ _)); rfl)
      | ((with_reducible apply Keeps.after (State.remoteFound_keeps _ _ _ _)); rfl)
      | ((with_reducible apply Keeps.after (State.setAlloc_keeps _ _)); rfl)
      | ((with_reducible apply Keeps.after (State.setFrame_keeps _ _ _)); rfl)
      | ((with_reducible apply Keeps.after (State.takeMark_keeps _ _ _)); rfl)
      | (with_reducible refine Keeps.each ?_ fun _ _ _ => ?_)
      | ((with_reducible apply Keeps.pair); with_reducible assumption) | (with_reducible refine Keeps.ite ?_ ?_)
      | (with_reducible apply Keeps.fst_ite)
      | ((with_reducible apply Keeps.put_crw); rfl; first | (with_reducible assumption) | ((with_reducible apply Keeps.after (State.count_keeps _ _ _ _)); rfl) | ((with_reducible apply Keeps.after (State.remoteFound_keeps _ _ _ _)); rfl) | ((with_reducible apply Keeps.after (State.setAlloc_keeps _ _)); rfl) | ((with_reducible apply Keeps.after (State.setFrame_keeps _ _ _)); rfl) | ((with_reducible apply Keeps.after (State.takeMark_keeps _ _ _)); rfl) | (with_reducible refine Keeps.each ?_ fun _ _ _ => ?_) | ((with_reducible apply Keeps.pair); with_reducible assumption) | (with_reducible refine Keeps.ite ?_ ?_) | (with_reducible apply Keeps.fst_ite))
      | (dsimp only) | split)

theorem State.placeAnswer_keeps (s : State) : ∀ a1 a2 a3 a4, Keeps [.regs, .mast, .pipe,
    .crw] s (State.placeAnswer s a1 a2 a3 a4) := by
  intro a1 a2 a3 a4
  have h : Keeps [.regs, .mast, .pipe, .crw] s s := .refl s
  unfold State.placeAnswer
  repeat' (first
      | (with_reducible assumption) | ((with_reducible apply Keeps.after (State.crwAnswer_keeps _ _ _ _ _)); rfl)
      | (with_reducible refine Keeps.ite ?_ ?_) | (dsimp only) | split)

theorem State.cacheUse_keeps (s : State) : ∀ a1, Keeps [.crw] s (State.cacheUse s a1) := by
  intro a1
  have h : Keeps [.crw] s s := .refl s
  unfold State.cacheUse
  repeat' (first
      | (with_reducible assumption) | ((with_reducible apply Keeps.after (State.setCache_keeps _ _ _)); rfl)
      | (dsimp only))

theorem State.crwCall_keeps (s : State) : ∀ a1 a2, Keeps [.regs, .ecc, .mast, .pipe,
    .crw] s (State.crwCall s a1 a2) := by
  intro a1 a2
  have h : Keeps [.regs, .ecc, .mast, .pipe, .crw] s s := .refl s
  unfold State.crwCall
  repeat' (first
      | (with_reducible assumption) | ((with_reducible apply Keeps.after (State.cacheCheck_keeps _ _)); rfl)
      | ((with_reducible apply Keeps.after (State.cacheUse_keeps _ _)); rfl)
      | ((with_reducible apply Keeps.after (State.count_keeps _ _ _ _)); rfl)
      | ((with_reducible apply Keeps.after (State.crwAnswer_keeps _ _ _ _ _)); rfl)
      | ((with_reducible apply Keeps.after (State.placeAnswer_keeps _ _ _ _ _)); rfl)
      | ((with_reducible apply Keeps.after (State.setRemote_keeps _ _ _ _)); rfl)
      | (with_reducible refine Keeps.ite ?_ ?_)
      | ((with_reducible apply Keeps.put_crw); rfl; first | (with_reducible assumption) | ((with_reducible apply Keeps.after (State.cacheCheck_keeps _ _)); rfl) | ((with_reducible apply Keeps.after (State.cacheUse_keeps _ _)); rfl) | ((with_reducible apply Keeps.after (State.count_keeps _ _ _ _)); rfl) | ((with_reducible apply Keeps.after (State.crwAnswer_keeps _ _ _ _ _)); rfl) | ((with_reducible apply Keeps.after (State.placeAnswer_keeps _ _ _ _ _)); rfl) | ((with_reducible apply Keeps.after (State.setRemote_keeps _ _ _ _)); rfl) | (with_reducible refine Keeps.ite ?_ ?_))
      | (dsimp only) | split)

theorem execCrowsnestCall_keeps (s : State) : ∃ t, (execCrowsnestCall s) = .next t ∧ Keeps [.regs, .ecc, .mast,
    .pipe, .crw] s t := by
  have h : Keeps [.regs, .ecc, .mast, .pipe, .crw] s s := .refl s
  unfold execCrowsnestCall
  repeat' (first | (with_reducible apply Keeps.next) | (with_reducible apply Keeps.next_ite) | dsimp only | split)
  all_goals repeat' (first
      | (with_reducible assumption) | ((with_reducible apply Keeps.after (State.crwCall_keeps _ _ _)); rfl)
      | (with_reducible apply Keeps.fst_ite)
      | ((with_reducible apply Keeps.put_crw); rfl; first | (with_reducible assumption) | ((with_reducible apply Keeps.after (State.crwCall_keeps _ _ _)); rfl) | (with_reducible apply Keeps.fst_ite))
      | (dsimp only) | split)

theorem execCallTimeout_keeps (s : State) : ∀ a0 a1, ∃ t, (execCallTimeout a0 a1 s) = .next t ∧ Keeps [.regs, .mast,
    .pipe, .crw] s t := by
  intro a0 a1
  have h : Keeps [.regs, .mast, .pipe, .crw] s s := .refl s
  unfold execCallTimeout
  repeat' (first | (with_reducible apply Keeps.next) | (with_reducible apply Keeps.next_ite) | dsimp only | split)
  all_goals repeat' (first
      | (with_reducible assumption) | ((with_reducible apply Keeps.after (State.crwAnswer_keeps _ _ _ _ _)); rfl)
      | (with_reducible apply Keeps.fst_ite) | (dsimp only) | split)

theorem execCacheMissFill_keeps (s : State) : ∀ a0, ∃ t, (execCacheMissFill a0 s) = .next t ∧ Keeps [.regs, .ecc,
    .mast, .cel, .pipe, .crw] s t := by
  intro a0
  have h : Keeps [.regs, .ecc, .mast, .cel, .pipe, .crw] s s := .refl s
  unfold execCacheMissFill
  repeat' (first | (with_reducible apply Keeps.next) | (with_reducible apply Keeps.next_ite) | dsimp only | split)
  all_goals repeat' (first
      | (with_reducible assumption) | ((with_reducible apply Keeps.after (State.cacheFill_keeps _ _ _)); rfl)
      | ((with_reducible apply Keeps.after (State.placeAnswer_keeps _ _ _ _ _)); rfl)
      | ((with_reducible apply Keeps.after (State.recFromCellar_keeps _ _)); rfl)
      | ((with_reducible apply Keeps.after (State.remoteFound_keeps _ _ _ _)); rfl)
      | (with_reducible refine Keeps.each ?_ fun _ _ _ => ?_)
      | ((with_reducible apply Keeps.pair); with_reducible assumption) | (with_reducible refine Keeps.ite ?_ ?_)
      | (with_reducible apply Keeps.fst_ite)
      | ((with_reducible apply Keeps.put_crw); rfl; first | (with_reducible assumption) | ((with_reducible apply Keeps.after (State.cacheFill_keeps _ _ _)); rfl) | ((with_reducible apply Keeps.after (State.placeAnswer_keeps _ _ _ _ _)); rfl) | ((with_reducible apply Keeps.after (State.recFromCellar_keeps _ _)); rfl) | ((with_reducible apply Keeps.after (State.remoteFound_keeps _ _ _ _)); rfl) | (with_reducible refine Keeps.each ?_ fun _ _ _ => ?_) | ((with_reducible apply Keeps.pair); with_reducible assumption) | (with_reducible refine Keeps.ite ?_ ?_) | (with_reducible apply Keeps.fst_ite))
      | (dsimp only) | split)

theorem execCrwCacheScrub_keeps (s : State) : ∀ a0 a1, ∃ t, (execCrwCacheScrub a0 a1 s) = .next t ∧ Keeps [.regs,
    .ecc, .mast, .crw] s t := by
  intro a0 a1
  have h : Keeps [.regs, .ecc, .mast, .crw] s s := .refl s
  unfold execCrwCacheScrub
  repeat' (first | (with_reducible apply Keeps.next) | (with_reducible apply Keeps.next_ite) | dsimp only | split)
  all_goals repeat' (first
      | (with_reducible assumption) | ((with_reducible apply Keeps.after (State.cacheCheck_keeps _ _)); rfl)
      | ((with_reducible apply Keeps.after (State.eccFlag_keeps _ _ _ _)); rfl)
      | (with_reducible refine Keeps.ite ?_ ?_) | (with_reducible apply Keeps.fst_ite) | (dsimp only) | split)

theorem execPartnerStatePost_keeps (s : State) : ∀ a0, ∃ t, (execPartnerStatePost a0 s) = .next t ∧ Keeps [.regs,
    .mast, .pipe, .crw] s t := by
  intro a0
  have h : Keeps [.regs, .mast, .pipe, .crw] s s := .refl s
  unfold execPartnerStatePost
  repeat' (first | (with_reducible apply Keeps.next) | (with_reducible apply Keeps.next_ite) | dsimp only | split)
  all_goals repeat' (first
      | (with_reducible assumption) | ((with_reducible apply Keeps.after (State.countBy_keeps _ _ _ _ _)); rfl)
      | ((with_reducible apply Keeps.after (State.setPort_keeps _ _ _)); rfl)
      | (with_reducible refine Keeps.ite ?_ ?_) | (with_reducible apply Keeps.fst_ite)
      | ((with_reducible apply Keeps.put_crw); rfl; first | (with_reducible assumption) | ((with_reducible apply Keeps.after (State.countBy_keeps _ _ _ _ _)); rfl) | ((with_reducible apply Keeps.after (State.setPort_keeps _ _ _)); rfl) | (with_reducible refine Keeps.ite ?_ ?_) | (with_reducible apply Keeps.fst_ite))
      | (dsimp only) | split)

theorem execLoadSampleReceive_keeps (s : State) : ∀ a0, ∃ t, (execLoadSampleReceive a0 s) = .next t ∧ Keeps [.crw] s t := by
  intro a0
  have h : Keeps [.crw] s s := .refl s
  unfold execLoadSampleReceive
  repeat' (first | (with_reducible apply Keeps.next) | (with_reducible apply Keeps.next_ite) | dsimp only | split)
  all_goals repeat' (first
      | (with_reducible assumption) | (with_reducible refine Keeps.foldl _ ?_ fun _ _ _ => ?_)
      | (with_reducible refine Keeps.foldl_fst _ ?_ fun _ _ _ => ?_) | (with_reducible apply Keeps.fst_ite)
      | ((with_reducible apply Keeps.put_crw); rfl; first | (with_reducible assumption) | (with_reducible refine Keeps.foldl _ ?_ fun _ _ _ => ?_) | (with_reducible refine Keeps.foldl_fst _ ?_ fun _ _ _ => ?_) | (with_reducible apply Keeps.fst_ite))
      | (dsimp only) | split)

theorem State.putCrwBuf_keeps (s : State) : ∀ a1, Keeps [.regs] s (State.putCrwBuf s a1) := by
  intro a1
  have h : Keeps [.regs] s s := .refl s
  unfold State.putCrwBuf
  repeat' (first
      | (with_reducible assumption) | ((with_reducible apply Keeps.after (State.wrWide_keeps _ _ _ _)); rfl)
      | (dsimp only))

theorem State.rosterRead_keeps (s : State) : Keeps [.regs, .ecc, .mast, .cel] s (State.rosterRead s).1 := by
  have h : Keeps [.regs, .ecc, .mast, .cel] s s := .refl s
  unfold State.rosterRead
  repeat' (first
      | (with_reducible assumption) | ((with_reducible apply Keeps.after (State.celRead_keeps _ _ _ _)); rfl)
      | ((with_reducible apply Keeps.pair); with_reducible assumption) | (with_reducible apply Keeps.fst_ite)
      | (dsimp only))

theorem State.crwRunCmd_keeps (s : State) : ∀ a1 a2, Keeps [.regs, .ecc, .mast, .cel, .crw,
    .outbox] s (State.crwRunCmd s a1 a2).1 := by
  intro a1 a2
  have h : Keeps [.regs, .ecc, .mast, .cel, .crw, .outbox] s s := .refl s
  unfold State.crwRunCmd
  repeat' (first
      | (with_reducible assumption) | ((with_reducible apply Keeps.after (State.celRead_keeps _ _ _ _)); rfl)
      | ((with_reducible apply Keeps.after (State.celWrite_keeps _ _ _ _)); rfl)
      | ((with_reducible apply Keeps.after (State.putCrwBuf_keeps _ _)); rfl)
      | ((with_reducible apply Keeps.after (State.recRead_keeps _ _)); rfl)
      | ((with_reducible apply Keeps.after (State.recWrite_keeps _ _ _)); rfl)
      | ((with_reducible apply Keeps.after (State.rosterRead_keeps _)); rfl)
      | ((with_reducible apply Keeps.pair); with_reducible assumption) | (with_reducible refine Keeps.ite ?_ ?_)
      | (with_reducible apply Keeps.fst_ite)
      | ((with_reducible apply Keeps.put_crw); rfl; first | (with_reducible assumption) | ((with_reducible apply Keeps.after (State.celRead_keeps _ _ _ _)); rfl) | ((with_reducible apply Keeps.after (State.celWrite_keeps _ _ _ _)); rfl) | ((with_reducible apply Keeps.after (State.putCrwBuf_keeps _ _)); rfl) | ((with_reducible apply Keeps.after (State.recRead_keeps _ _)); rfl) | ((with_reducible apply Keeps.after (State.recWrite_keeps _ _ _)); rfl) | ((with_reducible apply Keeps.after (State.rosterRead_keeps _)); rfl) | ((with_reducible apply Keeps.pair); with_reducible assumption) | (with_reducible refine Keeps.ite ?_ ?_) | (with_reducible apply Keeps.fst_ite))
      | (dsimp only) | split)

theorem State.crwCmdWrite_keeps (s : State) : ∀ a1, Keeps [.regs, .ecc, .mast, .cel, .crw,
    .outbox] s (State.crwCmdWrite s a1) := by
  intro a1
  have h : Keeps [.regs, .ecc, .mast, .cel, .crw, .outbox] s s := .refl s
  unfold State.crwCmdWrite
  repeat' (first
      | (with_reducible assumption) | ((with_reducible apply Keeps.after (State.crwRunCmd_keeps _ _ _)); rfl)
      | ((with_reducible apply Keeps.after (State.plainWrite_keeps _ _ _)); rfl)
      | ((with_reducible apply Keeps.after (State.setB_keeps _ _ _)); rfl)
      | ((with_reducible apply Keeps.after (State.wf_keeps _ _ _ _ _)); rfl)
      | ((with_reducible apply Keeps.pair); with_reducible assumption) | (with_reducible refine Keeps.ite ?_ ?_)
      | (with_reducible apply Keeps.fst_ite) | (dsimp only) | split)

theorem execRosterWrite_keeps (s : State) : ∀ a0, ∃ t, (execRosterWrite a0 s) = .next t ∧ Keeps [.regs, .ecc, .mast,
    .cel, .crw, .outbox] s t := by
  intro a0
  have h : Keeps [.regs, .ecc, .mast, .cel, .crw, .outbox] s s := .refl s
  unfold execRosterWrite
  repeat' (first | (with_reducible apply Keeps.next) | (with_reducible apply Keeps.next_ite) | dsimp only | split)
  all_goals repeat' (first
      | (with_reducible assumption) | ((with_reducible apply Keeps.after (State.crwCmdWrite_keeps _ _)); rfl)
      | (with_reducible apply Keeps.fst_ite) | (dsimp only))

theorem execRosterRead_keeps (s : State) : ∀ a0, ∃ t, (execRosterRead a0 s) = .next t ∧ Keeps [.regs, .ecc, .mast,
    .cel, .crw, .outbox] s t := by
  intro a0
  have h : Keeps [.regs, .ecc, .mast, .cel, .crw, .outbox] s s := .refl s
  unfold execRosterRead
  repeat' (first | (with_reducible apply Keeps.next) | (with_reducible apply Keeps.next_ite) | dsimp only | split)
  all_goals repeat' (first
      | (with_reducible assumption) | ((with_reducible apply Keeps.after (State.crwCmdWrite_keeps _ _)); rfl)
      | (with_reducible apply Keeps.fst_ite) | (dsimp only))

theorem execSetHealth_keeps (s : State) : ∀ a0, ∃ t, (execSetHealth a0 s) = .next t ∧ Keeps [.regs, .ecc, .mast,
    .cel, .crw, .outbox] s t := by
  intro a0
  have h : Keeps [.regs, .ecc, .mast, .cel, .crw, .outbox] s s := .refl s
  unfold execSetHealth
  repeat' (first | (with_reducible apply Keeps.next) | (with_reducible apply Keeps.next_ite) | dsimp only | split)
  all_goals repeat' (first
      | (with_reducible assumption) | ((with_reducible apply Keeps.after (State.crwCmdWrite_keeps _ _)); rfl)
      | (with_reducible apply Keeps.fst_ite) | (dsimp only))

theorem execSetLoad_keeps (s : State) : ∀ a0, ∃ t, (execSetLoad a0 s) = .next t ∧ Keeps [.regs, .ecc, .mast, .cel,
    .crw, .outbox] s t := by
  intro a0
  have h : Keeps [.regs, .ecc, .mast, .cel, .crw, .outbox] s s := .refl s
  unfold execSetLoad
  repeat' (first | (with_reducible apply Keeps.next) | (with_reducible apply Keeps.next_ite) | dsimp only | split)
  all_goals repeat' (first
      | (with_reducible assumption) | ((with_reducible apply Keeps.after (State.crwCmdWrite_keeps _ _)); rfl)
      | (with_reducible apply Keeps.fst_ite) | (dsimp only))

theorem execGroupRead_keeps (s : State) : ∀ a0, ∃ t, (execGroupRead a0 s) = .next t ∧ Keeps [.regs, .ecc, .mast,
    .cel, .crw, .outbox] s t := by
  intro a0
  have h : Keeps [.regs, .ecc, .mast, .cel, .crw, .outbox] s s := .refl s
  unfold execGroupRead
  repeat' (first | (with_reducible apply Keeps.next) | (with_reducible apply Keeps.next_ite) | dsimp only | split)
  all_goals repeat' (first
      | (with_reducible assumption) | ((with_reducible apply Keeps.after (State.crwCmdWrite_keeps _ _)); rfl)
      | (with_reducible apply Keeps.fst_ite) | (dsimp only))

theorem execGroupWrite_keeps (s : State) : ∀ a0, ∃ t, (execGroupWrite a0 s) = .next t ∧ Keeps [.regs, .ecc, .mast,
    .cel, .crw, .outbox] s t := by
  intro a0
  have h : Keeps [.regs, .ecc, .mast, .cel, .crw, .outbox] s s := .refl s
  unfold execGroupWrite
  repeat' (first | (with_reducible apply Keeps.next) | (with_reducible apply Keeps.next_ite) | dsimp only | split)
  all_goals repeat' (first
      | (with_reducible assumption) | ((with_reducible apply Keeps.after (State.crwCmdWrite_keeps _ _)); rfl)
      | (with_reducible apply Keeps.fst_ite) | (dsimp only))

theorem execProbe_keeps (s : State) : ∀ a0, ∃ t, (execProbe a0 s) = .next t ∧ Keeps [.regs, .ecc, .mast, .cel, .crw,
    .outbox] s t := by
  intro a0
  have h : Keeps [.regs, .ecc, .mast, .cel, .crw, .outbox] s s := .refl s
  unfold execProbe
  repeat' (first | (with_reducible apply Keeps.next) | (with_reducible apply Keeps.next_ite) | dsimp only | split)
  all_goals repeat' (first
      | (with_reducible assumption) | ((with_reducible apply Keeps.after (State.crwCmdWrite_keeps _ _)); rfl)
      | (with_reducible apply Keeps.fst_ite) | (dsimp only))

theorem execRank_keeps (s : State) : ∀ a0, ∃ t, (execRank a0 s) = .next t ∧ Keeps [.regs, .ecc, .mast, .cel, .crw,
    .outbox] s t := by
  intro a0
  have h : Keeps [.regs, .ecc, .mast, .cel, .crw, .outbox] s s := .refl s
  unfold execRank
  repeat' (first | (with_reducible apply Keeps.next) | (with_reducible apply Keeps.next_ite) | dsimp only | split)
  all_goals repeat' (first
      | (with_reducible assumption) | ((with_reducible apply Keeps.after (State.crwCmdWrite_keeps _ _)); rfl)
      | (with_reducible apply Keeps.fst_ite) | (dsimp only))

theorem State.crwCfgWrite_keeps (s : State) : ∀ a1, Keeps [.regs] s (State.crwCfgWrite s a1) := by
  intro a1
  have h : Keeps [.regs] s s := .refl s
  unfold State.crwCfgWrite
  repeat' (first
      | (with_reducible assumption) | ((with_reducible apply Keeps.after (State.plainWrite_keeps _ _ _)); rfl)
      | ((with_reducible apply Keeps.after (State.setB_keeps _ _ _)); rfl) | (with_reducible refine Keeps.ite ?_ ?_)
      | (dsimp only) | split)

theorem execCrwCfgWrite_keeps (s : State) : ∀ a0, ∃ t, (execCrwCfgWrite a0 s) = .next t ∧ Keeps [.regs] s t := by
  intro a0
  have h : Keeps [.regs] s s := .refl s
  unfold execCrwCfgWrite
  repeat' (first | (with_reducible apply Keeps.next) | (with_reducible apply Keeps.next_ite) | dsimp only | split)
  all_goals repeat' (first
      | (with_reducible assumption) | ((with_reducible apply Keeps.after (State.crwCfgWrite_keeps _ _)); rfl)
      | (with_reducible apply Keeps.fst_ite) | (dsimp only))

/-! ## CrowJobs -/

theorem State.setBuild_keeps (s : State) : ∀ a1, Keeps [.crw] s (State.setBuild s a1) := by
  intro a1
  have h : Keeps [.crw] s s := .refl s
  unfold State.setBuild
  repeat' (first
      | (with_reducible assumption)
      | ((with_reducible apply Keeps.put_crw); rfl; first | (with_reducible assumption)) | (dsimp only))

theorem State.buildStatus_keeps (s : State) : ∀ a1 a2 a3, Keeps [.regs, .ecc, .mast, .cel,
    .outbox] s (State.buildStatus s a1 a2 a3) := by
  intro a1 a2 a3
  have h : Keeps [.regs, .ecc, .mast, .cel, .outbox] s s := .refl s
  unfold State.buildStatus
  repeat' (first
      | (with_reducible assumption)
      | ((with_reducible apply Keeps.after (State.jobStatus_keeps _ _ _ _ _ _ _)); rfl) | (dsimp only))

theorem State.buildEnd_keeps (s : State) : ∀ a1 a2 a3, Keeps [.regs, .ecc, .mast, .bell, .cel, .crw,
    .outbox] s (State.buildEnd s a1 a2 a3) := by
  intro a1 a2 a3
  have h : Keeps [.regs, .ecc, .mast, .bell, .cel, .crw, .outbox] s s := .refl s
  unfold State.buildEnd
  repeat' (first
      | (with_reducible assumption) | ((with_reducible apply Keeps.after (State.buildStatus_keeps _ _ _ _)); rfl)
      | ((with_reducible apply Keeps.after (State.pulse_keeps _ _)); rfl)
      | ((with_reducible apply Keeps.after (State.putB_keeps _ _ _ _)); rfl)
      | ((with_reducible apply Keeps.after (State.setBuild_keeps _ _)); rfl) | (dsimp only))

theorem State.buildRefuse_keeps (s : State) : ∀ a1, Keeps [.regs] s (State.buildRefuse s a1) := by
  intro a1
  have h : Keeps [.regs] s s := .refl s
  unfold State.buildRefuse
  repeat' (first
      | (with_reducible assumption) | ((with_reducible apply Keeps.after (State.setB_keeps _ _ _)); rfl)
      | ((with_reducible apply Keeps.after (State.wf_keeps _ _ _ _ _)); rfl) | (dsimp only))

theorem State.buildStart_keeps (s : State) : ∀ a1 a2, Keeps [.regs, .ecc, .mast, .bell, .cel, .crw,
    .outbox] s (State.buildStart s a1 a2) := by
  intro a1 a2
  have h : Keeps [.regs, .ecc, .mast, .bell, .cel, .crw, .outbox] s s := .refl s
  unfold State.buildStart
  repeat' (first
      | (with_reducible assumption) | ((with_reducible apply Keeps.after (State.buildRefuse_keeps _ _)); rfl)
      | ((with_reducible apply Keeps.after (State.buildStatus_keeps _ _ _ _)); rfl)
      | ((with_reducible apply Keeps.after (State.pulse_keeps _ _)); rfl)
      | ((with_reducible apply Keeps.after (State.rosterRead_keeps _)); rfl)
      | ((with_reducible apply Keeps.after (State.setB_keeps _ _ _)); rfl)
      | ((with_reducible apply Keeps.after (State.setBuild_keeps _ _)); rfl)
      | ((with_reducible apply Keeps.pair); with_reducible assumption) | (with_reducible refine Keeps.ite ?_ ?_)
      | (with_reducible apply Keeps.fst_ite) | (dsimp only) | split)

theorem State.buildAbort_keeps (s : State) : Keeps [.regs, .ecc, .mast, .bell, .cel, .crw,
    .outbox] s (State.buildAbort s) := by
  have h : Keeps [.regs, .ecc, .mast, .bell, .cel, .crw, .outbox] s s := .refl s
  unfold State.buildAbort
  repeat' (first
      | (with_reducible assumption) | ((with_reducible apply Keeps.after (State.buildEnd_keeps _ _ _ _)); rfl)
      | (dsimp only) | split)

theorem State.buildCtlWrite_keeps (s : State) : ∀ a1, Keeps [.regs, .ecc, .mast, .bell, .cel, .crw,
    .outbox] s (State.buildCtlWrite s a1) := by
  intro a1
  have h : Keeps [.regs, .ecc, .mast, .bell, .cel, .crw, .outbox] s s := .refl s
  unfold State.buildCtlWrite
  repeat' (first
      | (with_reducible assumption) | ((with_reducible apply Keeps.after (State.buildAbort_keeps _)); rfl)
      | ((with_reducible apply Keeps.after (State.buildStart_keeps _ _ _)); rfl)
      | ((with_reducible apply Keeps.after (State.plainWrite_keeps _ _ _)); rfl)
      | (with_reducible refine Keeps.ite ?_ ?_) | (dsimp only) | split)

theorem execBuildStart_keeps (s : State) : ∀ a0, ∃ t, (execBuildStart a0 s) = .next t ∧ Keeps [.regs, .ecc, .mast,
    .bell, .cel, .crw, .outbox] s t := by
  intro a0
  have h : Keeps [.regs, .ecc, .mast, .bell, .cel, .crw, .outbox] s s := .refl s
  unfold execBuildStart
  repeat' (first | (with_reducible apply Keeps.next) | (with_reducible apply Keeps.next_ite) | dsimp only | split)
  all_goals repeat' (first
      | (with_reducible assumption) | ((with_reducible apply Keeps.after (State.buildCtlWrite_keeps _ _)); rfl)
      | (with_reducible apply Keeps.fst_ite) | (dsimp only))

theorem execBuildAbort_keeps (s : State) : ∀ a0, ∃ t, (execBuildAbort a0 s) = .next t ∧ Keeps [.regs, .ecc, .mast,
    .bell, .cel, .crw, .outbox] s t := by
  intro a0
  have h : Keeps [.regs, .ecc, .mast, .bell, .cel, .crw, .outbox] s s := .refl s
  unfold execBuildAbort
  repeat' (first | (with_reducible apply Keeps.next) | (with_reducible apply Keeps.next_ite) | dsimp only | split)
  all_goals repeat' (first
      | (with_reducible assumption) | ((with_reducible apply Keeps.after (State.buildCtlWrite_keeps _ _)); rfl)
      | (with_reducible apply Keeps.fst_ite) | (dsimp only))

theorem State.buildNext_keeps (s : State) : ∀ a1 a2, Keeps [.regs, .ecc, .mast, .bell, .cel, .crw,
    .outbox] s (State.buildNext s a1 a2) := by
  intro a1 a2
  have h : Keeps [.regs, .ecc, .mast, .bell, .cel, .crw, .outbox] s s := .refl s
  unfold State.buildNext
  repeat' (first
      | (with_reducible assumption) | ((with_reducible apply Keeps.after (State.buildEnd_keeps _ _ _ _)); rfl)
      | ((with_reducible apply Keeps.after (State.buildStatus_keeps _ _ _ _)); rfl)
      | ((with_reducible apply Keeps.after (State.count_keeps _ _ _ _)); rfl)
      | ((with_reducible apply Keeps.after (State.setBuild_keeps _ _)); rfl)
      | (with_reducible refine Keeps.ite ?_ ?_) | (dsimp only) | split)

theorem State.recPeek_keeps (s : State) : ∀ a1, Keeps [.regs, .ecc, .mast, .cel] s (State.recPeek s a1).1 := by
  intro a1
  have h : Keeps [.regs, .ecc, .mast, .cel] s s := .refl s
  unfold State.recPeek
  repeat' (first
      | (with_reducible assumption) | ((with_reducible apply Keeps.after (State.celRead_keeps _ _ _ _)); rfl)
      | ((with_reducible apply Keeps.pair); with_reducible assumption) | (with_reducible refine Keeps.ite ?_ ?_)
      | (with_reducible apply Keeps.fst_ite) | (dsimp only) | split)

theorem execBuildGroup_keeps (s : State) : ∀ a0, ∃ t, (execBuildGroup a0 s) = .next t ∧ Keeps [.regs, .freeCtr, .ecc,
    .mast, .bell, .cel, .crw, .outbox] s t := by
  intro a0
  have h : Keeps [.regs, .freeCtr, .ecc, .mast, .bell, .cel, .crw, .outbox] s s := .refl s
  unfold execBuildGroup
  repeat' (first | (with_reducible apply Keeps.next) | (with_reducible apply Keeps.next_ite) | dsimp only | split)
  all_goals repeat' (first
      | (with_reducible assumption) | ((with_reducible apply Keeps.after (State.buildEnd_keeps _ _ _ _)); rfl)
      | ((with_reducible apply Keeps.after (State.buildNext_keeps _ _ _)); rfl)
      | ((with_reducible apply Keeps.after (State.celWrite_keeps _ _ _ _)); rfl)
      | ((with_reducible apply Keeps.after (State.free_keeps _ _)); rfl)
      | ((with_reducible apply Keeps.after (State.recPeek_keeps _ _)); rfl)
      | ((with_reducible apply Keeps.after (State.recRead_keeps _ _)); rfl)
      | ((with_reducible apply Keeps.after (State.recWrite_keeps _ _ _)); rfl)
      | ((with_reducible apply Keeps.pair); with_reducible assumption)
      | ((with_reducible apply Keeps.pair_snd); with_reducible assumption) | (with_reducible refine Keeps.ite ?_ ?_)
      | (with_reducible apply Keeps.fst_ite) | (dsimp only) | split)

theorem State.setMig_keeps (s : State) : ∀ a1, Keeps [.crw] s (State.setMig s a1) := by
  intro a1
  have h : Keeps [.crw] s s := .refl s
  unfold State.setMig
  repeat' (first
      | (with_reducible assumption)
      | ((with_reducible apply Keeps.put_crw); rfl; first | (with_reducible assumption)) | (dsimp only))

theorem State.migWord_keeps (s : State) : ∀ a1 a2 a3, Keeps [.regs, .ecc, .mast, .cel,
    .outbox] s (State.migWord s a1 a2 a3) := by
  intro a1 a2 a3
  have h : Keeps [.regs, .ecc, .mast, .cel, .outbox] s s := .refl s
  unfold State.migWord
  repeat' (first
      | (with_reducible assumption)
      | ((with_reducible apply Keeps.after (State.jobStatus_keeps _ _ _ _ _ _ _)); rfl) | (dsimp only))

theorem State.migStart_keeps (s : State) : ∀ a1 a2, Keeps [.regs, .ecc, .mast, .cel, .crw,
    .outbox] s (State.migStart s a1 a2) := by
  intro a1 a2
  have h : Keeps [.regs, .ecc, .mast, .cel, .crw, .outbox] s s := .refl s
  unfold State.migStart
  repeat' (first
      | (with_reducible assumption) | ((with_reducible apply Keeps.after (State.migWord_keeps _ _ _ _)); rfl)
      | ((with_reducible apply Keeps.after (State.setB_keeps _ _ _)); rfl)
      | ((with_reducible apply Keeps.after (State.setMig_keeps _ _)); rfl)
      | ((with_reducible apply Keeps.after (State.wf_keeps _ _ _ _ _)); rfl)
      | (with_reducible refine Keeps.ite ?_ ?_)
      | ((with_reducible apply Keeps.put_crw); rfl; first | (with_reducible assumption) | ((with_reducible apply Keeps.after (State.migWord_keeps _ _ _ _)); rfl) | ((with_reducible apply Keeps.after (State.setB_keeps _ _ _)); rfl) | ((with_reducible apply Keeps.after (State.setMig_keeps _ _)); rfl) | ((with_reducible apply Keeps.after (State.wf_keeps _ _ _ _ _)); rfl) | (with_reducible refine Keeps.ite ?_ ?_))
      | (dsimp only) | split)

theorem State.migCtlWrite_keeps (s : State) : ∀ a1, Keeps [.regs, .ecc, .mast, .cel, .crw,
    .outbox] s (State.migCtlWrite s a1) := by
  intro a1
  have h : Keeps [.regs, .ecc, .mast, .cel, .crw, .outbox] s s := .refl s
  unfold State.migCtlWrite
  repeat' (first
      | (with_reducible assumption) | ((with_reducible apply Keeps.after (State.migStart_keeps _ _ _)); rfl)
      | ((with_reducible apply Keeps.after (State.plainWrite_keeps _ _ _)); rfl)
      | (with_reducible refine Keeps.ite ?_ ?_) | (dsimp only) | split)

theorem execMigBegin_keeps (s : State) : ∀ a0, ∃ t, (execMigBegin a0 s) = .next t ∧ Keeps [.regs, .ecc, .mast, .cel,
    .crw, .outbox] s t := by
  intro a0
  have h : Keeps [.regs, .ecc, .mast, .cel, .crw, .outbox] s s := .refl s
  unfold execMigBegin
  repeat' (first | (with_reducible apply Keeps.next) | (with_reducible apply Keeps.next_ite) | dsimp only | split)
  all_goals repeat' (first
      | (with_reducible assumption) | ((with_reducible apply Keeps.after (State.migCtlWrite_keeps _ _)); rfl)
      | (with_reducible apply Keeps.fst_ite) | (dsimp only))

theorem execMigFinish_keeps (s : State) : ∀ a0, ∃ t, (execMigFinish a0 s) = .next t ∧ Keeps [.regs, .ecc, .mast,
    .cel, .crw, .outbox] s t := by
  intro a0
  have h : Keeps [.regs, .ecc, .mast, .cel, .crw, .outbox] s s := .refl s
  unfold execMigFinish
  repeat' (first | (with_reducible apply Keeps.next) | (with_reducible apply Keeps.next_ite) | dsimp only | split)
  all_goals repeat' (first
      | (with_reducible assumption) | ((with_reducible apply Keeps.after (State.migCtlWrite_keeps _ _)); rfl)
      | (with_reducible apply Keeps.fst_ite) | (dsimp only))

theorem execMigAbort_keeps (s : State) : ∀ a0, ∃ t, (execMigAbort a0 s) = .next t ∧ Keeps [.regs, .ecc, .mast, .cel,
    .crw, .outbox] s t := by
  intro a0
  have h : Keeps [.regs, .ecc, .mast, .cel, .crw, .outbox] s s := .refl s
  unfold execMigAbort
  repeat' (first | (with_reducible apply Keeps.next) | (with_reducible apply Keeps.next_ite) | dsimp only | split)
  all_goals repeat' (first
      | (with_reducible assumption) | ((with_reducible apply Keeps.after (State.migCtlWrite_keeps _ _)); rfl)
      | (with_reducible apply Keeps.fst_ite) | (dsimp only))

theorem State.addLeft_keeps (s : State) : ∀ a1, Keeps [.regs] s (State.addLeft s a1) := by
  intro a1
  have h : Keeps [.regs] s s := .refl s
  unfold State.addLeft
  repeat' (first
      | (with_reducible assumption) | ((with_reducible apply Keeps.after (State.wrN_keeps _ _ _)); rfl)
      | (dsimp only))

theorem State.migEnd_keeps (s : State) : ∀ a1 a2, Keeps [.regs, .ecc, .mast, .bell, .cel, .crw,
    .outbox] s (State.migEnd s a1 a2) := by
  intro a1 a2
  have h : Keeps [.regs, .ecc, .mast, .bell, .cel, .crw, .outbox] s s := .refl s
  unfold State.migEnd
  repeat' (first
      | (with_reducible assumption) | ((with_reducible apply Keeps.after (State.migWord_keeps _ _ _ _)); rfl)
      | ((with_reducible apply Keeps.after (State.pulse_keeps _ _)); rfl)
      | ((with_reducible apply Keeps.after (State.putB_keeps _ _ _ _)); rfl)
      | ((with_reducible apply Keeps.after (State.setMig_keeps _ _)); rfl)
      | ((with_reducible apply Keeps.after (State.wf_keeps _ _ _ _ _)); rfl)
      | ((with_reducible apply Keeps.after (State.wrN_keeps _ _ _)); rfl) | (with_reducible refine Keeps.ite ?_ ?_)
      | (dsimp only) | split)

theorem State.markFlip_keeps (s : State) : ∀ a1, Keeps [.regs, .ecc, .mast, .cel, .crw,
    .outbox] s (State.markFlip s a1) := by
  intro a1
  have h : Keeps [.regs, .ecc, .mast, .cel, .crw, .outbox] s s := .refl s
  unfold State.markFlip
  repeat' (first
      | (with_reducible assumption) | ((with_reducible apply Keeps.after (State.migWord_keeps _ _ _ _)); rfl)
      | ((with_reducible apply Keeps.after (State.putB_keeps _ _ _ _)); rfl)
      | ((with_reducible apply Keeps.after (State.setMig_keeps _ _)); rfl) | (dsimp only))

theorem execMigStep_keeps (s : State) : ∃ t, (execMigStep s) = .next t ∧ Keeps [.regs, .ecc, .mast, .cel, .crw,
    .outbox] s t := by
  have h : Keeps [.regs, .ecc, .mast, .cel, .crw, .outbox] s s := .refl s
  unfold execMigStep
  repeat' (first | (with_reducible apply Keeps.next) | (with_reducible apply Keeps.next_ite) | dsimp only | split)
  all_goals repeat' (first
      | (with_reducible assumption) | ((with_reducible apply Keeps.after (State.addLeft_keeps _ _)); rfl)
      | ((with_reducible apply Keeps.after (State.markFlip_keeps _ _)); rfl)
      | ((with_reducible apply Keeps.after (State.migWord_keeps _ _ _ _)); rfl)
      | ((with_reducible apply Keeps.after (State.recRead_keeps _ _)); rfl)
      | ((with_reducible apply Keeps.after (State.recWrite_keeps _ _ _)); rfl)
      | ((with_reducible apply Keeps.after (State.setMig_keeps _ _)); rfl)
      | ((with_reducible apply Keeps.pair); with_reducible assumption) | (with_reducible refine Keeps.ite ?_ ?_)
      | (with_reducible apply Keeps.fst_ite) | (dsimp only) | split)

theorem execMigDrainEnd_keeps (s : State) : ∃ t, (execMigDrainEnd s) = .next t ∧ Keeps [.regs, .ecc, .mast, .bell,
    .cel, .crw, .outbox] s t := by
  have h : Keeps [.regs, .ecc, .mast, .bell, .cel, .crw, .outbox] s s := .refl s
  unfold execMigDrainEnd
  repeat' (first | (with_reducible apply Keeps.next) | (with_reducible apply Keeps.next_ite) | dsimp only | split)
  all_goals repeat' (first
      | (with_reducible assumption) | ((with_reducible apply Keeps.after (State.migEnd_keeps _ _ _)); rfl)
      | (with_reducible refine Keeps.ite ?_ ?_) | (with_reducible apply Keeps.fst_ite) | (dsimp only) | split)

theorem execMigDrainTimeout_keeps (s : State) : ∃ t, (execMigDrainTimeout s) = .next t ∧ Keeps [.regs, .ecc, .mast,
    .bell, .cel, .crw, .outbox] s t := by
  have h : Keeps [.regs, .ecc, .mast, .bell, .cel, .crw, .outbox] s s := .refl s
  unfold execMigDrainTimeout
  repeat' (first | (with_reducible apply Keeps.next) | (with_reducible apply Keeps.next_ite) | dsimp only | split)
  all_goals repeat' (first
      | (with_reducible assumption) | ((with_reducible apply Keeps.after (State.count_keeps _ _ _ _)); rfl)
      | ((with_reducible apply Keeps.after (State.migEnd_keeps _ _ _)); rfl)
      | (with_reducible refine Keeps.ite ?_ ?_) | (with_reducible apply Keeps.fst_ite) | (dsimp only) | split)

theorem State.migMark_keeps (s : State) : ∀ a1, Keeps [.regs, .ecc, .mast, .cel, .crw,
    .outbox] s (State.migMark s a1) := by
  intro a1
  have h : Keeps [.regs, .ecc, .mast, .cel, .crw, .outbox] s s := .refl s
  unfold State.migMark
  repeat' (first
      | (with_reducible assumption) | ((with_reducible apply Keeps.after (State.addLeft_keeps _ _)); rfl)
      | ((with_reducible apply Keeps.after (State.count_keeps _ _ _ _)); rfl)
      | ((with_reducible apply Keeps.after (State.recRead_keeps _ _)); rfl)
      | ((with_reducible apply Keeps.after (State.recWrite_keeps _ _ _)); rfl)
      | ((with_reducible apply Keeps.after (State.wf_keeps _ _ _ _ _)); rfl)
      | ((with_reducible apply Keeps.pair); with_reducible assumption) | (with_reducible refine Keeps.ite ?_ ?_)
      | (with_reducible apply Keeps.fst_ite)
      | ((with_reducible apply Keeps.put_crw); rfl; first | (with_reducible assumption) | ((with_reducible apply Keeps.after (State.addLeft_keeps _ _)); rfl) | ((with_reducible apply Keeps.after (State.count_keeps _ _ _ _)); rfl) | ((with_reducible apply Keeps.after (State.recRead_keeps _ _)); rfl) | ((with_reducible apply Keeps.after (State.recWrite_keeps _ _ _)); rfl) | ((with_reducible apply Keeps.after (State.wf_keeps _ _ _ _ _)); rfl) | ((with_reducible apply Keeps.pair); with_reducible assumption) | (with_reducible refine Keeps.ite ?_ ?_) | (with_reducible apply Keeps.fst_ite))
      | (dsimp only) | split)

theorem execMigMark_keeps (s : State) : ∀ a0, ∃ t, (execMigMark a0 s) = .next t ∧ Keeps [.regs, .ecc, .mast, .cel,
    .crw, .outbox] s t := by
  intro a0
  have h : Keeps [.regs, .ecc, .mast, .cel, .crw, .outbox] s s := .refl s
  unfold execMigMark
  repeat' (first | (with_reducible apply Keeps.next) | (with_reducible apply Keeps.next_ite) | dsimp only | split)
  all_goals repeat' (first
      | (with_reducible assumption) | ((with_reducible apply Keeps.after (State.migMark_keeps _ _)); rfl)
      | (with_reducible apply Keeps.fst_ite) | (dsimp only))

theorem State.crwRegWrite_keeps (s : State) : ∀ a1 a2, Keeps [.regs, .ecc, .mast, .bell, .cel, .crw,
    .outbox] s (State.crwRegWrite s a1 a2) := by
  intro a1 a2
  have h : Keeps [.regs, .ecc, .mast, .bell, .cel, .crw, .outbox] s s := .refl s
  unfold State.crwRegWrite
  repeat' (first
      | (with_reducible assumption) | ((with_reducible apply Keeps.after (State.buildCtlWrite_keeps _ _)); rfl)
      | ((with_reducible apply Keeps.after (State.crwCfgWrite_keeps _ _)); rfl)
      | ((with_reducible apply Keeps.after (State.crwCmdWrite_keeps _ _)); rfl)
      | ((with_reducible apply Keeps.after (State.migCtlWrite_keeps _ _)); rfl)
      | ((with_reducible apply Keeps.after (State.migMark_keeps _ _)); rfl)
      | ((with_reducible apply Keeps.after (State.plainWrite_keeps _ _ _)); rfl)
      | ((with_reducible apply Keeps.after (State.setB_keeps _ _ _)); rfl) | (with_reducible refine Keeps.ite ?_ ?_)
      | (dsimp only) | split)

/-! ## HallGen -/

theorem State.putGenState_keeps (s : State) : ∀ a1, Keeps [.regs] s (State.putGenState s a1) := by
  intro a1
  have h : Keeps [.regs] s s := .refl s
  unfold State.putGenState
  repeat' (first
      | (with_reducible assumption) | ((with_reducible apply Keeps.after (State.wf_keeps _ _ _ _ _)); rfl)
      | (dsimp only))

theorem State.genOpen_keeps (s : State) : Keeps [.regs] s (State.genOpen s) := by
  have h : Keeps [.regs] s s := .refl s
  unfold State.genOpen
  repeat' (first
      | (with_reducible assumption) | ((with_reducible apply Keeps.after (State.putGenState_keeps _ _)); rfl)
      | ((with_reducible apply Keeps.after (State.setB_keeps _ _ _)); rfl) | (with_reducible refine Keeps.ite ?_ ?_)
      | (dsimp only) | split)

theorem State.genCommit_keeps (s : State) : Keeps [.regs, .mast, .hlw] s (State.genCommit s) := by
  have h : Keeps [.regs, .mast, .hlw] s s := .refl s
  unfold State.genCommit
  repeat' (first
      | (with_reducible assumption) | ((with_reducible apply Keeps.after (State.count_keeps _ _ _ _)); rfl)
      | ((with_reducible apply Keeps.after (State.putGenState_keeps _ _)); rfl)
      | ((with_reducible apply Keeps.after (State.setB_keeps _ _ _)); rfl)
      | ((with_reducible apply Keeps.after (State.wf_keeps _ _ _ _ _)); rfl)
      | (with_reducible refine Keeps.ite ?_ ?_)
      | ((with_reducible apply Keeps.put_hlw); rfl; first | (with_reducible assumption) | ((with_reducible apply Keeps.after (State.count_keeps _ _ _ _)); rfl) | ((with_reducible apply Keeps.after (State.putGenState_keeps _ _)); rfl) | ((with_reducible apply Keeps.after (State.setB_keeps _ _ _)); rfl) | ((with_reducible apply Keeps.after (State.wf_keeps _ _ _ _ _)); rfl) | (with_reducible refine Keeps.ite ?_ ?_))
      | (dsimp only) | split)

theorem State.genAbort_keeps (s : State) : Keeps [.regs, .ecc, .mast, .cel, .hlw, .gal, .lrd,
    .outbox] s (State.genAbort s) := by
  have h : Keeps [.regs, .ecc, .mast, .cel, .hlw, .gal, .lrd, .outbox] s s := .refl s
  unfold State.genAbort
  repeat' (first
      | (with_reducible assumption) | ((with_reducible apply Keeps.after (State.galSettle_keeps _ _)); rfl)
      | ((with_reducible apply Keeps.after (State.lrdSettle_keeps _ _)); rfl)
      | ((with_reducible apply Keeps.after (State.putGenState_keeps _ _)); rfl)
      | ((with_reducible apply Keeps.after (State.setB_keeps _ _ _)); rfl)
      | ((with_reducible apply Keeps.after (State.wrN_keeps _ _ _)); rfl) | (with_reducible refine Keeps.ite ?_ ?_)
      | (first | ((with_reducible apply Keeps.put_hlw); rfl; first | (with_reducible assumption) | ((with_reducible apply Keeps.after (State.galSettle_keeps _ _)); rfl) | ((with_reducible apply Keeps.after (State.lrdSettle_keeps _ _)); rfl) | ((with_reducible apply Keeps.after (State.putGenState_keeps _ _)); rfl) | ((with_reducible apply Keeps.after (State.setB_keeps _ _ _)); rfl) | ((with_reducible apply Keeps.after (State.wrN_keeps _ _ _)); rfl) | (with_reducible refine Keeps.ite ?_ ?_)) | ((with_reducible apply Keeps.put_gal); rfl; first | (with_reducible assumption) | ((with_reducible apply Keeps.after (State.galSettle_keeps _ _)); rfl) | ((with_reducible apply Keeps.after (State.lrdSettle_keeps _ _)); rfl) | ((with_reducible apply Keeps.after (State.putGenState_keeps _ _)); rfl) | ((with_reducible apply Keeps.after (State.setB_keeps _ _ _)); rfl) | ((with_reducible apply Keeps.after (State.wrN_keeps _ _ _)); rfl) | (with_reducible refine Keeps.ite ?_ ?_)) | ((with_reducible apply Keeps.put_hlw_gal); rfl; rfl; first | (with_reducible assumption) | ((with_reducible apply Keeps.after (State.galSettle_keeps _ _)); rfl) | ((with_reducible apply Keeps.after (State.lrdSettle_keeps _ _)); rfl) | ((with_reducible apply Keeps.after (State.putGenState_keeps _ _)); rfl) | ((with_reducible apply Keeps.after (State.setB_keeps _ _ _)); rfl) | ((with_reducible apply Keeps.after (State.wrN_keeps _ _ _)); rfl) | (with_reducible refine Keeps.ite ?_ ?_)))
      | (dsimp only) | split)

theorem execGenOpen_keeps (s : State) : ∃ t, (execGenOpen s) = .next t ∧ Keeps [.regs] s t := by
  have h : Keeps [.regs] s s := .refl s
  unfold execGenOpen
  repeat' (first | (with_reducible apply Keeps.next) | (with_reducible apply Keeps.next_ite) | dsimp only | split)
  all_goals repeat' (first
      | (with_reducible assumption) | ((with_reducible apply Keeps.after (State.genOpen_keeps _)); rfl)
      | (with_reducible apply Keeps.fst_ite) | (dsimp only))

theorem execGenCommit_keeps (s : State) : ∃ t, (execGenCommit s) = .next t ∧ Keeps [.regs, .mast, .hlw] s t := by
  have h : Keeps [.regs, .mast, .hlw] s s := .refl s
  unfold execGenCommit
  repeat' (first | (with_reducible apply Keeps.next) | (with_reducible apply Keeps.next_ite) | dsimp only | split)
  all_goals repeat' (first
      | (with_reducible assumption) | ((with_reducible apply Keeps.after (State.genCommit_keeps _)); rfl)
      | (with_reducible apply Keeps.fst_ite) | (dsimp only))

theorem execGenAbort_keeps (s : State) : ∃ t, (execGenAbort s) = .next t ∧ Keeps [.regs, .ecc, .mast, .cel, .hlw,
    .gal, .lrd, .outbox] s t := by
  have h : Keeps [.regs, .ecc, .mast, .cel, .hlw, .gal, .lrd, .outbox] s s := .refl s
  unfold execGenAbort
  repeat' (first | (with_reducible apply Keeps.next) | (with_reducible apply Keeps.next_ite) | dsimp only | split)
  all_goals repeat' (first
      | (with_reducible assumption) | ((with_reducible apply Keeps.after (State.genAbort_keeps _)); rfl)
      | (with_reducible apply Keeps.fst_ite) | (dsimp only))

theorem execDrainEnd_keeps (s : State) : ∃ t, (execDrainEnd s) = .next t ∧ Keeps [.regs] s t := by
  have h : Keeps [.regs] s s := .refl s
  unfold execDrainEnd
  repeat' (first | (with_reducible apply Keeps.next) | (with_reducible apply Keeps.next_ite) | dsimp only | split)
  all_goals repeat' (first
      | (with_reducible assumption) | ((with_reducible apply Keeps.after (State.putGenState_keeps _ _)); rfl)
      | (with_reducible refine Keeps.ite ?_ ?_) | (with_reducible apply Keeps.fst_ite) | (dsimp only) | split)

theorem State.forceEnd_keeps (s : State) : ∀ a1 a2, Keeps [.pipe] s (State.forceEnd s a1 a2) := by
  intro a1 a2
  have h : Keeps [.pipe] s s := .refl s
  unfold State.forceEnd
  repeat' (first
      | (with_reducible assumption) | ((with_reducible apply Keeps.after (State.setHead_keeps _ _ _)); rfl)
      | ((with_reducible apply Keeps.after (State.setSl_keeps _ _ _)); rfl)
      | (with_reducible refine Keeps.ite ?_ ?_) | (dsimp only) | split)

theorem execDrainTimeout_keeps (s : State) : ∃ t, (execDrainTimeout s) = .next t ∧ Keeps [.regs, .mast,
    .pipe] s t := by
  have h : Keeps [.regs, .mast, .pipe] s s := .refl s
  unfold execDrainTimeout
  repeat' (first | (with_reducible apply Keeps.next) | (with_reducible apply Keeps.next_ite) | dsimp only | split)
  all_goals repeat' (first
      | (with_reducible assumption) | ((with_reducible apply Keeps.after (State.count_keeps _ _ _ _)); rfl)
      | ((with_reducible apply Keeps.after (State.forceEnd_keeps _ _ _)); rfl)
      | ((with_reducible apply Keeps.after (State.putGenState_keeps _ _)); rfl)
      | ((with_reducible apply Keeps.after (State.setB_keeps _ _ _)); rfl)
      | (with_reducible refine Keeps.each ?_ fun _ _ _ => ?_) | (with_reducible refine Keeps.ite ?_ ?_)
      | (with_reducible apply Keeps.fst_ite) | (dsimp only) | split)

theorem execSettlingEnd_keeps (s : State) : ∃ t, (execSettlingEnd s) = .next t ∧ Keeps [.regs, .ecc, .mast, .cel,
    .hlw, .gal, .lrd, .outbox] s t := by
  have h : Keeps [.regs, .ecc, .mast, .cel, .hlw, .gal, .lrd, .outbox] s s := .refl s
  unfold execSettlingEnd
  repeat' (first | (with_reducible apply Keeps.next) | (with_reducible apply Keeps.next_ite) | dsimp only | split)
  all_goals repeat' (first
      | (with_reducible assumption) | ((with_reducible apply Keeps.after (State.galClear_keeps _ _ _)); rfl)
      | ((with_reducible apply Keeps.after (State.galSettle_keeps _ _)); rfl)
      | ((with_reducible apply Keeps.after (State.lrdSettle_keeps _ _)); rfl)
      | ((with_reducible apply Keeps.after (State.putGenState_keeps _ _)); rfl)
      | ((with_reducible apply Keeps.after (State.wrN_keeps _ _ _)); rfl)
      | (with_reducible refine Keeps.each ?_ fun _ _ _ => ?_)
      | (with_reducible refine Keeps.foldl _ ?_ fun _ _ _ => ?_)
      | (with_reducible refine Keeps.foldl_fst _ ?_ fun _ _ _ => ?_) | (with_reducible refine Keeps.ite ?_ ?_)
      | (with_reducible apply Keeps.fst_ite)
      | (first | ((with_reducible apply Keeps.put_hlw); rfl; first | (with_reducible assumption) | ((with_reducible apply Keeps.after (State.galClear_keeps _ _ _)); rfl) | ((with_reducible apply Keeps.after (State.galSettle_keeps _ _)); rfl) | ((with_reducible apply Keeps.after (State.lrdSettle_keeps _ _)); rfl) | ((with_reducible apply Keeps.after (State.putGenState_keeps _ _)); rfl) | ((with_reducible apply Keeps.after (State.wrN_keeps _ _ _)); rfl) | (with_reducible refine Keeps.each ?_ fun _ _ _ => ?_) | (with_reducible refine Keeps.foldl _ ?_ fun _ _ _ => ?_) | (with_reducible refine Keeps.foldl_fst _ ?_ fun _ _ _ => ?_) | (with_reducible refine Keeps.ite ?_ ?_) | (with_reducible apply Keeps.fst_ite)) | ((with_reducible apply Keeps.put_gal); rfl; first | (with_reducible assumption) | ((with_reducible apply Keeps.after (State.galClear_keeps _ _ _)); rfl) | ((with_reducible apply Keeps.after (State.galSettle_keeps _ _)); rfl) | ((with_reducible apply Keeps.after (State.lrdSettle_keeps _ _)); rfl) | ((with_reducible apply Keeps.after (State.putGenState_keeps _ _)); rfl) | ((with_reducible apply Keeps.after (State.wrN_keeps _ _ _)); rfl) | (with_reducible refine Keeps.each ?_ fun _ _ _ => ?_) | (with_reducible refine Keeps.foldl _ ?_ fun _ _ _ => ?_) | (with_reducible refine Keeps.foldl_fst _ ?_ fun _ _ _ => ?_) | (with_reducible refine Keeps.ite ?_ ?_) | (with_reducible apply Keeps.fst_ite)) | ((with_reducible apply Keeps.put_hlw_gal); rfl; rfl; first | (with_reducible assumption) | ((with_reducible apply Keeps.after (State.galClear_keeps _ _ _)); rfl) | ((with_reducible apply Keeps.after (State.galSettle_keeps _ _)); rfl) | ((with_reducible apply Keeps.after (State.lrdSettle_keeps _ _)); rfl) | ((with_reducible apply Keeps.after (State.putGenState_keeps _ _)); rfl) | ((with_reducible apply Keeps.after (State.wrN_keeps _ _ _)); rfl) | (with_reducible refine Keeps.each ?_ fun _ _ _ => ?_) | (with_reducible refine Keeps.foldl _ ?_ fun _ _ _ => ?_) | (with_reducible refine Keeps.foldl_fst _ ?_ fun _ _ _ => ?_) | (with_reducible refine Keeps.ite ?_ ?_) | (with_reducible apply Keeps.fst_ite)))
      | (dsimp only) | split)

theorem State.hlwRegWrite_keeps (s : State) : ∀ a1 a2, Keeps [.regs, .held, .ecc, .mast, .cel, .cup, .pipe, .hlw,
    .gal, .lrd, .stw, .crw, .outbox] s (State.hlwRegWrite s a1 a2) := by
  intro a1 a2
  have h : Keeps [.regs, .held, .ecc, .mast, .cel, .cup, .pipe, .hlw, .gal, .lrd, .stw, .crw, .outbox] s s := .refl s
  unfold State.hlwRegWrite
  repeat' (first
      | (with_reducible assumption) | ((with_reducible apply Keeps.after (State.genAbort_keeps _)); rfl)
      | ((with_reducible apply Keeps.after (State.genCommit_keeps _)); rfl)
      | ((with_reducible apply Keeps.after (State.genOpen_keeps _)); rfl)
      | ((with_reducible apply Keeps.after (State.hlwCmdWrite_keeps _ _)); rfl)
      | ((with_reducible apply Keeps.after (State.plainWrite_keeps _ _ _)); rfl)
      | ((with_reducible apply Keeps.after (State.portDfltWrite_keeps _ _ _ _ _)); rfl)
      | ((with_reducible apply Keeps.after (State.setB_keeps _ _ _)); rfl)
      | ((with_reducible apply Keeps.after (State.stageCfgWrite_keeps _ _ _ _)); rfl)
      | (with_reducible refine Keeps.ite ?_ ?_) | (dsimp only) | split)

/-! ## Threshold -/

theorem execHeadAccept_keeps (s : State) : ∀ a0, ∃ t, (execHeadAccept a0 s) = .next t ∧ Keeps [.regs, .ecc, .mast,
    .cel, .cup, .pipe, .outbox] s t := by
  intro a0
  have h : Keeps [.regs, .ecc, .mast, .cel, .cup, .pipe, .outbox] s s := .refl s
  unfold execHeadAccept
  repeat' (first | (with_reducible apply Keeps.next) | (with_reducible apply Keeps.next_ite) | dsimp only | split)
  all_goals repeat' (first
      | (with_reducible assumption) | ((with_reducible apply Keeps.after (State.count_keeps _ _ _ _)); rfl)
      | ((with_reducible apply Keeps.after (State.freeBuf_keeps _ _)); rfl)
      | ((with_reducible apply Keeps.after (State.setHead_keeps _ _ _)); rfl)
      | ((with_reducible apply Keeps.after (State.setSl_keeps _ _ _)); rfl)
      | ((with_reducible apply Keeps.after (State.wf_keeps _ _ _ _ _)); rfl)
      | (with_reducible refine Keeps.ite ?_ ?_) | (with_reducible apply Keeps.fst_ite)
      | ((with_reducible apply Keeps.put_pipe); rfl; first | (with_reducible assumption) | ((with_reducible apply Keeps.after (State.count_keeps _ _ _ _)); rfl) | ((with_reducible apply Keeps.after (State.freeBuf_keeps _ _)); rfl) | ((with_reducible apply Keeps.after (State.setHead_keeps _ _ _)); rfl) | ((with_reducible apply Keeps.after (State.setSl_keeps _ _ _)); rfl) | ((with_reducible apply Keeps.after (State.wf_keeps _ _ _ _ _)); rfl) | (with_reducible refine Keeps.ite ?_ ?_) | (with_reducible apply Keeps.fst_ite))
      | (dsimp only) | split)

theorem State.chainEnter_keeps (s : State) : ∀ a1, Keeps [.pipe] s (State.chainEnter s a1) := by
  intro a1
  have h : Keeps [.pipe] s s := .refl s
  unfold State.chainEnter
  repeat' (first
      | (with_reducible assumption) | ((with_reducible apply Keeps.after (State.setHead_keeps _ _ _)); rfl)
      | (with_reducible refine Keeps.ite ?_ ?_) | (dsimp only) | split)

theorem execParseComplete_keeps (s : State) : ∀ a0 a1, ∃ t, (execParseComplete a0 a1 s) = .next t ∧ Keeps [.regs,
    .ecc, .mast, .pipe] s t := by
  intro a0 a1
  have h : Keeps [.regs, .ecc, .mast, .pipe] s s := .refl s
  unfold execParseComplete
  repeat' (first | (with_reducible apply Keeps.next) | (with_reducible apply Keeps.next_ite) | dsimp only | split)
  all_goals repeat' (first
      | (with_reducible assumption) | ((with_reducible apply Keeps.after (State.chainEnter_keeps _ _)); rfl)
      | ((with_reducible apply Keeps.after (State.eccFlag_keeps _ _ _ _)); rfl)
      | ((with_reducible apply Keeps.after (State.parseHead_keeps _ _)); rfl)
      | (with_reducible refine Keeps.ite ?_ ?_) | (with_reducible apply Keeps.fst_ite) | (dsimp only) | split)

theorem State.ucPut_keeps (s : State) : ∀ a1 a2 a3, Keeps [.regs, .ecc, .mast, .cel, .cup, .pipe, .stw, .crw,
    .outbox] s (State.ucPut s a1 a2 a3).1 := by
  intro a1 a2 a3
  have h : Keeps [.regs, .ecc, .mast, .cel, .cup, .pipe, .stw, .crw, .outbox] s s := .refl s
  unfold State.ucPut
  repeat' (first
      | (with_reducible assumption) | ((with_reducible apply Keeps.after (State.count_keeps _ _ _ _)); rfl)
      | ((with_reducible apply Keeps.after (State.eccClear_keeps _ _ _)); rfl)
      | ((with_reducible apply Keeps.after (State.inject_keeps _ _ _ _ _ _)); rfl)
      | ((with_reducible apply Keeps.after (State.setB_keeps _ _ _)); rfl)
      | ((with_reducible apply Keeps.after (State.wakeSlice_keeps _ _)); rfl)
      | ((with_reducible apply Keeps.after (State.wf_keeps _ _ _ _ _)); rfl)
      | (with_reducible refine Keeps.each ?_ fun _ _ _ => ?_) | (with_reducible refine Keeps.ite ?_ ?_)
      | (with_reducible apply Keeps.fst_ite)
      | ((with_reducible apply Keeps.put_pipe); rfl; first | (with_reducible assumption) | ((with_reducible apply Keeps.after (State.count_keeps _ _ _ _)); rfl) | ((with_reducible apply Keeps.after (State.eccClear_keeps _ _ _)); rfl) | ((with_reducible apply Keeps.after (State.inject_keeps _ _ _ _ _ _)); rfl) | ((with_reducible apply Keeps.after (State.setB_keeps _ _ _)); rfl) | ((with_reducible apply Keeps.after (State.wakeSlice_keeps _ _)); rfl) | ((with_reducible apply Keeps.after (State.wf_keeps _ _ _ _ _)); rfl) | (with_reducible refine Keeps.each ?_ fun _ _ _ => ?_) | (with_reducible refine Keeps.ite ?_ ?_) | (with_reducible apply Keeps.fst_ite))
      | (dsimp only) | split)

theorem State.ucCmdWrite_keeps (s : State) : ∀ a1, Keeps [.regs, .ecc, .mast, .cel, .cup, .pipe, .stw, .crw,
    .outbox] s (State.ucCmdWrite s a1) := by
  intro a1
  have h : Keeps [.regs, .ecc, .mast, .cel, .cup, .pipe, .stw, .crw, .outbox] s s := .refl s
  unfold State.ucCmdWrite
  repeat' (first
      | (with_reducible assumption) | ((with_reducible apply Keeps.after (State.plainWrite_keeps _ _ _)); rfl)
      | ((with_reducible apply Keeps.after (State.setB_keeps _ _ _)); rfl)
      | ((with_reducible apply Keeps.after (State.ucPut_keeps _ _ _ _)); rfl)
      | ((with_reducible apply Keeps.after (State.wakeSlice_keeps _ _)); rfl)
      | ((with_reducible apply Keeps.after (State.wrWide_keeps _ _ _ _)); rfl)
      | ((with_reducible apply Keeps.pair); with_reducible assumption) | (with_reducible refine Keeps.ite ?_ ?_)
      | (with_reducible apply Keeps.fst_ite) | (dsimp only) | split)

theorem execUcWrite_keeps (s : State) : ∀ a0, ∃ t, (execUcWrite a0 s) = .next t ∧ Keeps [.regs, .ecc, .mast, .cel,
    .cup, .pipe, .stw, .crw, .outbox] s t := by
  intro a0
  have h : Keeps [.regs, .ecc, .mast, .cel, .cup, .pipe, .stw, .crw, .outbox] s s := .refl s
  unfold execUcWrite
  repeat' (first | (with_reducible apply Keeps.next) | (with_reducible apply Keeps.next_ite) | dsimp only | split)
  all_goals repeat' (first
      | (with_reducible assumption) | ((with_reducible apply Keeps.after (State.ucCmdWrite_keeps _ _)); rfl)
      | (with_reducible apply Keeps.fst_ite) | (dsimp only))

theorem execUcRead_keeps (s : State) : ∀ a0, ∃ t, (execUcRead a0 s) = .next t ∧ Keeps [.regs, .ecc, .mast, .cel,
    .cup, .pipe, .stw, .crw, .outbox] s t := by
  intro a0
  have h : Keeps [.regs, .ecc, .mast, .cel, .cup, .pipe, .stw, .crw, .outbox] s s := .refl s
  unfold execUcRead
  repeat' (first | (with_reducible apply Keeps.next) | (with_reducible apply Keeps.next_ite) | dsimp only | split)
  all_goals repeat' (first
      | (with_reducible assumption) | ((with_reducible apply Keeps.after (State.ucCmdWrite_keeps _ _)); rfl)
      | (with_reducible apply Keeps.fst_ite) | (dsimp only))

theorem execStoreScrub_keeps (s : State) : ∀ a0 a1 a2, ∃ t, (execStoreScrub a0 a1 a2 s) = .next t ∧ Keeps [.regs,
    .ecc, .mast] s t := by
  intro a0 a1 a2
  have h : Keeps [.regs, .ecc, .mast] s s := .refl s
  unfold execStoreScrub
  repeat' (first | (with_reducible apply Keeps.next) | (with_reducible apply Keeps.next_ite) | dsimp only | split)
  all_goals repeat' (first
      | (with_reducible assumption) | ((with_reducible apply Keeps.after (State.eccClear_keeps _ _ _)); rfl)
      | ((with_reducible apply Keeps.after (State.eccFlag_keeps _ _ _ _)); rfl)
      | ((with_reducible apply Keeps.after (State.ucRead_keeps _ _)); rfl)
      | ((with_reducible apply Keeps.pair); with_reducible assumption) | (with_reducible refine Keeps.ite ?_ ?_)
      | (with_reducible apply Keeps.fst_ite) | (dsimp only) | split)

theorem State.thrRegWrite_keeps (s : State) : ∀ a1 a2, Keeps [.regs, .ecc, .mast, .cel, .cup, .pipe, .stw, .crw,
    .outbox] s (State.thrRegWrite s a1 a2) := by
  intro a1 a2
  have h : Keeps [.regs, .ecc, .mast, .cel, .cup, .pipe, .stw, .crw, .outbox] s s := .refl s
  unfold State.thrRegWrite
  repeat' (first
      | (with_reducible assumption) | ((with_reducible apply Keeps.after (State.plainWrite_keeps _ _ _)); rfl)
      | ((with_reducible apply Keeps.after (State.setB_keeps _ _ _)); rfl)
      | ((with_reducible apply Keeps.after (State.ucCmdWrite_keeps _ _)); rfl)
      | (with_reducible refine Keeps.ite ?_ ?_) | (dsimp only) | split)

end Sys2Proof.Machine
end

