-- ==== Sys2Proof/Laws/KeepsPipe.lean ====
section
/-! SUPPORT. What each function of the model can do to the state, one law for each: the lookup chain, Stairwell, Cupboard and the hand-over to the host and the lofts. -/

namespace Sys2Proof.Machine

/-! ## HallChain -/

theorem State.actionApply_keeps (s : State) : ∀ a1 a2, Keeps [.pipe] s (State.actionApply s a1 a2) := by
  intro a1 a2
  have h : Keeps [.pipe] s s := .refl s
  unfold State.actionApply
  repeat' (first
      | (with_reducible assumption) | ((with_reducible apply Keeps.after (State.setFrame_keeps _ _ _)); rfl)
      | (dsimp only) | split)

theorem State.causeEnd_keeps (s : State) : ∀ a1 a2, Keeps [.pipe] s (State.causeEnd s a1 a2) := by
  intro a1 a2
  have h : Keeps [.pipe] s s := .refl s
  unfold State.causeEnd
  repeat' (first
      | (with_reducible assumption) | ((with_reducible apply Keeps.after (State.setHead_keeps _ _ _)); rfl)
      | (dsimp only))

theorem State.actionAt_keeps (s : State) : ∀ a1 a2, Keeps [.regs, .ecc, .mast, .pipe] s (State.actionAt s a1 a2) := by
  intro a1 a2
  have h : Keeps [.regs, .ecc, .mast, .pipe] s s := .refl s
  unfold State.actionAt
  repeat' (first
      | (with_reducible assumption) | ((with_reducible apply Keeps.after (State.actionApply_keeps _ _ _)); rfl)
      | ((with_reducible apply Keeps.after (State.causeEnd_keeps _ _ _)); rfl)
      | ((with_reducible apply Keeps.after (State.sramRead_keeps _ _ _)); rfl)
      | ((with_reducible apply Keeps.pair); with_reducible assumption) | (with_reducible apply Keeps.fst_ite)
      | (dsimp only) | split)

theorem State.exactLookup_keeps (s : State) : ∀ a1 a2 a3 a4, Keeps [.regs, .ecc,
    .mast] s (State.exactLookup s a1 a2 a3 a4).1 := by
  intro a1 a2 a3 a4
  have h : Keeps [.regs, .ecc, .mast] s s := .refl s
  unfold State.exactLookup
  repeat' (first
      | (with_reducible assumption) | ((with_reducible apply Keeps.after (State.slotWords_keeps _ _ _)); rfl)
      | ((with_reducible apply Keeps.pair); with_reducible assumption) | (with_reducible apply Keeps.fst_ite)
      | (dsimp only))

theorem State.hitOrMiss_keeps (s : State) : ∀ a1 a2 a3 a4, Keeps [.regs, .ecc, .mast,
    .pipe] s (State.hitOrMiss s a1 a2 a3 a4) := by
  intro a1 a2 a3 a4
  have h : Keeps [.regs, .ecc, .mast, .pipe] s s := .refl s
  unfold State.hitOrMiss
  repeat' (first
      | (with_reducible assumption) | ((with_reducible apply Keeps.after (State.actionAt_keeps _ _ _)); rfl)
      | ((with_reducible apply Keeps.after (State.count_keeps _ _ _ _)); rfl) | (dsimp only) | split)

theorem State.galleryLookup_keeps (s : State) : ∀ a1 a2 a3, Keeps [.regs, .ecc, .mast,
    .pipe] s (State.galleryLookup s a1 a2 a3) := by
  intro a1 a2 a3
  have h : Keeps [.regs, .ecc, .mast, .pipe] s s := .refl s
  unfold State.galleryLookup
  repeat' (first
      | (with_reducible assumption) | ((with_reducible apply Keeps.after (State.actionAt_keeps _ _ _)); rfl)
      | ((with_reducible apply Keeps.after (State.count_keeps _ _ _ _)); rfl)
      | ((with_reducible apply Keeps.after (State.hitOrMiss_keeps _ _ _ _ _)); rfl)
      | (with_reducible refine Keeps.ite ?_ ?_) | (dsimp only) | split)

theorem State.remoteIssue_keeps (s : State) : ∀ a1 a2 a3 a4, Keeps [.pipe] s (State.remoteIssue s a1 a2 a3 a4) := by
  intro a1 a2 a3 a4
  have h : Keeps [.pipe] s s := .refl s
  unfold State.remoteIssue
  repeat' (first
      | (with_reducible assumption) | ((with_reducible apply Keeps.after (State.causeEnd_keeps _ _ _)); rfl)
      | ((with_reducible apply Keeps.after (State.setHead_keeps _ _ _)); rfl)
      | (with_reducible refine Keeps.ite ?_ ?_)
      | ((with_reducible apply Keeps.put_pipe); rfl; first | (with_reducible assumption) | ((with_reducible apply Keeps.after (State.causeEnd_keeps _ _ _)); rfl) | ((with_reducible apply Keeps.after (State.setHead_keeps _ _ _)); rfl) | (with_reducible refine Keeps.ite ?_ ?_))
      | (dsimp only) | split)

theorem State.tableApply_keeps (s : State) : ∀ a1 a2, Keeps [.regs, .ecc, .mast,
    .pipe] s (State.tableApply s a1 a2) := by
  intro a1 a2
  have h : Keeps [.regs, .ecc, .mast, .pipe] s s := .refl s
  unfold State.tableApply
  repeat' (first
      | (with_reducible assumption) | ((with_reducible apply Keeps.after (State.causeEnd_keeps _ _ _)); rfl)
      | ((with_reducible apply Keeps.after (State.exactLookup_keeps _ _ _ _ _)); rfl)
      | ((with_reducible apply Keeps.after (State.galleryLookup_keeps _ _ _ _)); rfl)
      | ((with_reducible apply Keeps.after (State.hitOrMiss_keeps _ _ _ _ _)); rfl)
      | ((with_reducible apply Keeps.after (State.remoteIssue_keeps _ _ _ _ _)); rfl)
      | ((with_reducible apply Keeps.after (State.setHead_keeps _ _ _)); rfl)
      | ((with_reducible apply Keeps.pair); with_reducible assumption) | (with_reducible refine Keeps.ite ?_ ?_)
      | (with_reducible apply Keeps.fst_ite) | (dsimp only) | split)

theorem State.parkHead_keeps (s : State) : ∀ a1 a2, Keeps [.regs, .mast, .pipe] s (State.parkHead s a1 a2) := by
  intro a1 a2
  have h : Keeps [.regs, .mast, .pipe] s s := .refl s
  unfold State.parkHead
  repeat' (first
      | (with_reducible assumption) | ((with_reducible apply Keeps.after (State.causeEnd_keeps _ _ _)); rfl)
      | ((with_reducible apply Keeps.after (State.count_keeps _ _ _ _)); rfl)
      | ((with_reducible apply Keeps.after (State.setHead_keeps _ _ _)); rfl)
      | ((with_reducible apply Keeps.after (State.setSl_keeps _ _ _)); rfl)
      | (with_reducible refine Keeps.ite ?_ ?_) | (dsimp only) | split)

theorem State.joinApply_keeps (s : State) : ∀ a1 a2 a3, Keeps [.regs, .ecc, .mast,
    .pipe] s (State.joinApply s a1 a2 a3) := by
  intro a1 a2 a3
  have h : Keeps [.regs, .ecc, .mast, .pipe] s s := .refl s
  unfold State.joinApply
  repeat' (first
      | (with_reducible assumption) | ((with_reducible apply Keeps.after (State.actionApply_keeps _ _ _)); rfl)
      | ((with_reducible apply Keeps.after (State.actionAt_keeps _ _ _)); rfl)
      | ((with_reducible apply Keeps.after (State.causeEnd_keeps _ _ _)); rfl)
      | ((with_reducible apply Keeps.after (State.count_keeps _ _ _ _)); rfl)
      | ((with_reducible apply Keeps.after (State.setHead_keeps _ _ _)); rfl) | (dsimp only) | split)

theorem State.joinStage_keeps (s : State) : ∀ a1 a2, Keeps [.regs, .ecc, .mast,
    .pipe] s (State.joinStage s a1 a2) := by
  intro a1 a2
  have h : Keeps [.regs, .ecc, .mast, .pipe] s s := .refl s
  unfold State.joinStage
  repeat' (first
      | (with_reducible assumption) | ((with_reducible apply Keeps.after (State.joinApply_keeps _ _ _ _)); rfl)
      | ((with_reducible apply Keeps.after (State.parkHead_keeps _ _ _)); rfl)
      | (with_reducible refine Keeps.ite ?_ ?_) | (dsimp only) | split)

theorem State.parityDiscard_keeps (s : State) : ∀ a1, Keeps [.regs, .ecc, .mast, .cel, .cup, .lft, .pipe, .stw, .crw,
    .outbox] s (State.parityDiscard s a1) := by
  intro a1
  have h : Keeps [.regs, .ecc, .mast, .cel, .cup, .lft, .pipe, .stw, .crw, .outbox] s s := .refl s
  unfold State.parityDiscard
  repeat' (first
      | (with_reducible assumption) | ((with_reducible apply Keeps.after (State.endIngress_keeps _ _ _)); rfl)
      | ((with_reducible apply Keeps.after (State.report_keeps _ _ _ _)); rfl) | (dsimp only))

theorem State.stageStep_keeps (s : State) : ∀ a1, Keeps [.regs, .ecc, .mast, .pipe] s (State.stageStep s a1) := by
  intro a1
  have h : Keeps [.regs, .ecc, .mast, .pipe] s s := .refl s
  unfold State.stageStep
  repeat' (first
      | (with_reducible assumption) | ((with_reducible apply Keeps.after (State.causeEnd_keeps _ _ _)); rfl)
      | ((with_reducible apply Keeps.after (State.joinStage_keeps _ _ _)); rfl)
      | ((with_reducible apply Keeps.after (State.setHead_keeps _ _ _)); rfl)
      | ((with_reducible apply Keeps.after (State.tableApply_keeps _ _ _)); rfl)
      | (with_reducible refine Keeps.ite ?_ ?_) | (dsimp only) | split)

theorem execStageLookup_keeps (s : State) : ∀ a0 a1, ∃ t, (execStageLookup a0 a1 s) = .next t ∧ Keeps [.regs, .ecc,
    .mast, .cel, .cup, .lft, .pipe, .stw, .crw, .outbox] s t := by
  intro a0 a1
  have h : Keeps [.regs, .ecc, .mast, .cel, .cup, .lft, .pipe, .stw, .crw, .outbox] s s := .refl s
  unfold execStageLookup
  repeat' (first | (with_reducible apply Keeps.next) | (with_reducible apply Keeps.next_ite) | dsimp only | split)
  all_goals repeat' (first
      | (with_reducible assumption) | ((with_reducible apply Keeps.after (State.eccFlag_keeps _ _ _ _)); rfl)
      | ((with_reducible apply Keeps.after (State.parityDiscard_keeps _ _)); rfl)
      | ((with_reducible apply Keeps.after (State.stageStep_keeps _ _)); rfl)
      | (with_reducible refine Keeps.ite ?_ ?_) | (with_reducible apply Keeps.fst_ite) | (dsimp only) | split)

theorem execRemoteAnswerArrive_keeps (s : State) : ∀ a0 a1, ∃ t, (execRemoteAnswerArrive a0 a1 s) = .next t ∧ Keeps [.pipe] s t := by
  intro a0 a1
  have h : Keeps [.pipe] s s := .refl s
  unfold execRemoteAnswerArrive
  repeat' (first | (with_reducible apply Keeps.next) | (with_reducible apply Keeps.next_ite) | dsimp only | split)
  all_goals repeat' (first
      | (with_reducible assumption) | ((with_reducible apply Keeps.after (State.setHead_keeps _ _ _)); rfl)
      | (with_reducible refine Keeps.ite ?_ ?_) | (with_reducible apply Keeps.fst_ite) | (dsimp only) | split)

theorem State.defaultApply_keeps (s : State) : ∀ a1 a2, Keeps [.regs, .mast,
    .pipe] s (State.defaultApply s a1 a2).1 := by
  intro a1 a2
  have h : Keeps [.regs, .mast, .pipe] s s := .refl s
  unfold State.defaultApply
  repeat' (first
      | (with_reducible assumption) | ((with_reducible apply Keeps.after (State.count_keeps _ _ _ _)); rfl)
      | ((with_reducible apply Keeps.after (State.setFrame_keeps _ _ _)); rfl)
      | (with_reducible refine Keeps.ite ?_ ?_) | (with_reducible apply Keeps.fst_ite) | (dsimp only) | split)

theorem State.chainDrop_keeps (s : State) : ∀ a1, Keeps [.regs, .ecc, .mast, .cel, .cup, .lft, .pipe, .stw, .crw,
    .outbox] s (State.chainDrop s a1) := by
  intro a1
  have h : Keeps [.regs, .ecc, .mast, .cel, .cup, .lft, .pipe, .stw, .crw, .outbox] s s := .refl s
  unfold State.chainDrop
  repeat' (first
      | (with_reducible assumption) | ((with_reducible apply Keeps.after (State.befall_keeps _ _ _ _)); rfl)
      | ((with_reducible apply Keeps.after (State.endIngress_keeps _ _ _)); rfl)
      | ((with_reducible apply Keeps.after (State.mirrors_keeps _ _)); rfl)
      | ((with_reducible apply Keeps.after (State.samplerSelect_keeps _ _)); rfl)
      | ((with_reducible apply Keeps.after (State.setFrame_keeps _ _ _)); rfl)
      | (with_reducible refine Keeps.ite ?_ ?_) | (dsimp only) | split)

theorem State.chainLofts_keeps (s : State) : ∀ a1 a2, Keeps [.regs, .mast, .lft, .pipe, .stw,
    .crw] s (State.chainLofts s a1 a2) := by
  intro a1 a2
  have h : Keeps [.regs, .mast, .lft, .pipe, .stw, .crw] s s := .refl s
  unfold State.chainLofts
  repeat' (first
      | (with_reducible assumption) | ((with_reducible apply Keeps.after (State.count_keeps _ _ _ _)); rfl)
      | ((with_reducible apply Keeps.after (State.frameRelease_keeps _ _)); rfl)
      | ((with_reducible apply Keeps.after (State.newTicket_keeps _ _)); rfl)
      | ((with_reducible apply Keeps.after (State.samplerSelect_keeps _ _)); rfl)
      | ((with_reducible apply Keeps.after (State.setFrame_keeps _ _ _)); rfl)
      | ((with_reducible apply Keeps.after (State.settle_keeps _ _ _)); rfl)
      | ((with_reducible apply Keeps.pair); with_reducible assumption) | (with_reducible refine Keeps.ite ?_ ?_)
      | (with_reducible apply Keeps.fst_ite) | (dsimp only) | split)

theorem State.chainDest_keeps (s : State) : ∀ a1, Keeps [.regs, .ecc, .mast, .cel, .cup, .lft, .pipe, .stw, .sht,
    .crw, .outbox] s (State.chainDest s a1) := by
  intro a1
  have h : Keeps [.regs, .ecc, .mast, .cel, .cup, .lft, .pipe, .stw, .sht, .crw, .outbox] s s := .refl s
  unfold State.chainDest
  repeat' (first
      | (with_reducible assumption) | ((with_reducible apply Keeps.after (State.befall_keeps _ _ _ _)); rfl)
      | ((with_reducible apply Keeps.after (State.count_keeps _ _ _ _)); rfl)
      | ((with_reducible apply Keeps.after (State.dropSets_keeps _ _ _)); rfl)
      | ((with_reducible apply Keeps.after (State.endIngress_keeps _ _ _)); rfl)
      | ((with_reducible apply Keeps.after (State.meter_keeps _ _)); rfl)
      | ((with_reducible apply Keeps.after (State.mirrors_keeps _ _)); rfl)
      | ((with_reducible apply Keeps.after (State.samplerSelect_keeps _ _)); rfl)
      | ((with_reducible apply Keeps.after (State.setFrame_keeps _ _ _)); rfl)
      | ((with_reducible apply Keeps.pair); with_reducible assumption) | (with_reducible refine Keeps.ite ?_ ?_)
      | (with_reducible apply Keeps.fst_ite) | (dsimp only) | split)

theorem State.chainFinish_keeps (s : State) : ∀ a1 a2, Keeps [.regs, .ecc, .mast, .cel, .cup, .lft, .pipe, .stw,
    .sht, .crw, .outbox] s (State.chainFinish s a1 a2) := by
  intro a1 a2
  have h : Keeps [.regs, .ecc, .mast, .cel, .cup, .lft, .pipe, .stw, .sht, .crw, .outbox] s s := .refl s
  unfold State.chainFinish
  repeat' (first
      | (with_reducible assumption) | ((with_reducible apply Keeps.after (State.chainDest_keeps _ _)); rfl)
      | ((with_reducible apply Keeps.after (State.chainDrop_keeps _ _)); rfl)
      | ((with_reducible apply Keeps.after (State.chainLofts_keeps _ _ _)); rfl) | (dsimp only) | split)

theorem State.furtherPass_keeps (s : State) : ∀ a1 a2 a3, Keeps [.regs, .mast,
    .pipe] s (State.furtherPass s a1 a2 a3) := by
  intro a1 a2 a3
  have h : Keeps [.regs, .mast, .pipe] s s := .refl s
  unfold State.furtherPass
  repeat' (first
      | (with_reducible assumption) | ((with_reducible apply Keeps.after (State.count_keeps _ _ _ _)); rfl)
      | ((with_reducible apply Keeps.after (State.enterReentry_keeps _ _)); rfl)
      | ((with_reducible apply Keeps.after (State.setHead_keeps _ _ _)); rfl)
      | (with_reducible refine Keeps.ite ?_ ?_) | (dsimp only) | split)

theorem State.chainLeave_keeps (s : State) : ∀ a1 a2 a3, Keeps [.regs, .ecc, .mast, .cel, .cup, .lft, .pipe, .stw,
    .sht, .crw, .outbox] s (State.chainLeave s a1 a2 a3) := by
  intro a1 a2 a3
  have h : Keeps [.regs, .ecc, .mast, .cel, .cup, .lft, .pipe, .stw, .sht, .crw, .outbox] s s := .refl s
  unfold State.chainLeave
  repeat' (first
      | (with_reducible assumption) | ((with_reducible apply Keeps.after (State.chainFinish_keeps _ _ _)); rfl)
      | ((with_reducible apply Keeps.after (State.chainLofts_keeps _ _ _)); rfl)
      | ((with_reducible apply Keeps.after (State.count_keeps _ _ _ _)); rfl)
      | ((with_reducible apply Keeps.after (State.defaultApply_keeps _ _ _)); rfl)
      | ((with_reducible apply Keeps.after (State.setHead_keeps _ _ _)); rfl)
      | ((with_reducible apply Keeps.after (State.setSl_keeps _ _ _)); rfl)
      | ((with_reducible apply Keeps.pair); with_reducible assumption) | (with_reducible refine Keeps.ite ?_ ?_)
      | (with_reducible apply Keeps.fst_ite) | (dsimp only) | split)

theorem State.causeLeave_keeps (s : State) : ∀ a1 a2, Keeps [.regs, .ecc, .mast, .cel, .cup, .lft, .pipe, .stw, .sht,
    .crw, .outbox] s (State.causeLeave s a1 a2) := by
  intro a1 a2
  have h : Keeps [.regs, .ecc, .mast, .cel, .cup, .lft, .pipe, .stw, .sht, .crw, .outbox] s s := .refl s
  unfold State.causeLeave
  repeat' (first
      | (with_reducible assumption) | ((with_reducible apply Keeps.after (State.chainLeave_keeps _ _ _ _)); rfl)
      | ((with_reducible apply Keeps.after (State.defaultApply_keeps _ _ _)); rfl)
      | ((with_reducible apply Keeps.pair); with_reducible assumption) | (with_reducible apply Keeps.fst_ite)
      | (dsimp only))

theorem execChainEnd_keeps (s : State) : ∀ a0, ∃ t, (execChainEnd a0 s) = .next t ∧ Keeps [.regs, .ecc, .mast, .cel,
    .cup, .lft, .pipe, .stw, .sht, .crw, .outbox] s t := by
  intro a0
  have h : Keeps [.regs, .ecc, .mast, .cel, .cup, .lft, .pipe, .stw, .sht, .crw, .outbox] s s := .refl s
  unfold execChainEnd
  repeat' (first | (with_reducible apply Keeps.next) | (with_reducible apply Keeps.next_ite) | dsimp only | split)
  all_goals repeat' (first
      | (with_reducible assumption) | ((with_reducible apply Keeps.after (State.causeLeave_keeps _ _ _)); rfl)
      | ((with_reducible apply Keeps.after (State.chainLeave_keeps _ _ _ _)); rfl)
      | ((with_reducible apply Keeps.after (State.count_keeps _ _ _ _)); rfl)
      | ((with_reducible apply Keeps.after (State.furtherPass_keeps _ _ _ _)); rfl)
      | ((with_reducible apply Keeps.after (State.parityDiscard_keeps _ _)); rfl)
      | (with_reducible refine Keeps.ite ?_ ?_) | (with_reducible apply Keeps.fst_ite) | (dsimp only) | split)

theorem execParkRelease_keeps (s : State) : ∀ a0, ∃ t, (execParkRelease a0 s) = .next t ∧ Keeps [.regs, .ecc, .mast,
    .cel, .cup, .lft, .pipe, .stw, .sht, .crw, .outbox] s t := by
  intro a0
  have h : Keeps [.regs, .ecc, .mast, .cel, .cup, .lft, .pipe, .stw, .sht, .crw, .outbox] s s := .refl s
  unfold execParkRelease
  repeat' (first | (with_reducible apply Keeps.next) | (with_reducible apply Keeps.next_ite) | dsimp only | split)
  all_goals repeat' (first
      | (with_reducible assumption) | ((with_reducible apply Keeps.after (State.chainFinish_keeps _ _ _)); rfl)
      | ((with_reducible apply Keeps.after (State.enterReentry_keeps _ _)); rfl)
      | ((with_reducible apply Keeps.after (State.setHead_keeps _ _ _)); rfl)
      | ((with_reducible apply Keeps.after (State.setSl_keeps _ _ _)); rfl)
      | (with_reducible refine Keeps.ite ?_ ?_) | (with_reducible apply Keeps.fst_ite) | (dsimp only) | split)

theorem execHeadSlotArbitrate_keeps (s : State) : ∀ a0, ∃ t, (execHeadSlotArbitrate a0 s) = .next t ∧ Keeps [.regs,
    .mast, .pipe] s t := by
  intro a0
  have h : Keeps [.regs, .mast, .pipe] s s := .refl s
  unfold execHeadSlotArbitrate
  repeat' (first | (with_reducible apply Keeps.next) | (with_reducible apply Keeps.next_ite) | dsimp only | split)
  all_goals repeat' (first
      | (with_reducible assumption) | ((with_reducible apply Keeps.after (State.count_keeps _ _ _ _)); rfl)
      | ((with_reducible apply Keeps.after (State.setHead_keeps _ _ _)); rfl)
      | ((with_reducible apply Keeps.after (State.setSl_keeps _ _ _)); rfl)
      | (with_reducible refine Keeps.each ?_ fun _ _ _ => ?_) | (with_reducible refine Keeps.ite ?_ ?_)
      | (with_reducible apply Keeps.fst_ite) | (dsimp only) | split)

theorem execReentryAgeLimit_keeps (s : State) : ∀ a0, ∃ t, (execReentryAgeLimit a0 s) = .next t ∧ Keeps [.pipe] s t := by
  intro a0
  have h : Keeps [.pipe] s s := .refl s
  unfold execReentryAgeLimit
  repeat' (first | (with_reducible apply Keeps.next) | (with_reducible apply Keeps.next_ite) | dsimp only | split)
  all_goals repeat' (first
      | (with_reducible assumption) | ((with_reducible apply Keeps.after (State.setSl_keeps _ _ _)); rfl)
      | (with_reducible refine Keeps.ite ?_ ?_) | (with_reducible apply Keeps.fst_ite) | (dsimp only) | split)

/-! ## Stairwell -/

theorem State.mirrorAdmit_keeps (s : State) : ∀ a1 a2, Keeps [.regs, .ecc, .mast, .cel, .cup, .lft, .pipe, .stw,
    .crw, .outbox] s (State.mirrorAdmit s a1 a2) := by
  intro a1 a2
  have h : Keeps [.regs, .ecc, .mast, .cel, .cup, .lft, .pipe, .stw, .crw, .outbox] s s := .refl s
  unfold State.mirrorAdmit
  repeat' (first
      | (with_reducible assumption) | ((with_reducible apply Keeps.after (State.count_keeps _ _ _ _)); rfl)
      | ((with_reducible apply Keeps.after (State.discardFrame_keeps _ _)); rfl)
      | ((with_reducible apply Keeps.after (State.intake_keeps _ _)); rfl)
      | ((with_reducible apply Keeps.after (State.mirrorFill_keeps _ _)); rfl)
      | (with_reducible refine Keeps.ite ?_ ?_) | (dsimp only) | split)

theorem execVoqAdmit_keeps (s : State) : ∀ a0, ∃ t, (execVoqAdmit a0 s) = .next t ∧ Keeps [.regs, .ecc, .mast, .cel,
    .cup, .lft, .pipe, .stw, .crw, .outbox] s t := by
  intro a0
  have h : Keeps [.regs, .ecc, .mast, .cel, .cup, .lft, .pipe, .stw, .crw, .outbox] s s := .refl s
  unfold execVoqAdmit
  repeat' (first | (with_reducible apply Keeps.next) | (with_reducible apply Keeps.next_ite) | dsimp only | split)
  all_goals repeat' (first
      | (with_reducible assumption) | ((with_reducible apply Keeps.after (State.endIngress_keeps _ _ _)); rfl)
      | ((with_reducible apply Keeps.after (State.intake_keeps _ _)); rfl)
      | ((with_reducible apply Keeps.after (State.mirrorAdmit_keeps _ _ _)); rfl)
      | ((with_reducible apply Keeps.after (State.setSl_keeps _ _ _)); rfl)
      | ((with_reducible apply Keeps.after (State.voqSettle_keeps _ _ _)); rfl)
      | (with_reducible refine Keeps.each ?_ fun _ _ _ => ?_) | (with_reducible refine Keeps.ite ?_ ?_)
      | (with_reducible apply Keeps.fst_ite) | (dsimp only) | split)

theorem execSpillWrite_keeps (s : State) : ∀ a0 a1, ∃ t, (execSpillWrite a0 a1 s) = .next t ∧ Keeps [.regs, .ecc,
    .mast, .cel, .cup, .pipe, .stw, .crw, .outbox] s t := by
  intro a0 a1
  have h : Keeps [.regs, .ecc, .mast, .cel, .cup, .pipe, .stw, .crw, .outbox] s s := .refl s
  unfold execSpillWrite
  repeat' (first | (with_reducible apply Keeps.next) | (with_reducible apply Keeps.next_ite) | dsimp only | split)
  all_goals repeat' (first
      | (with_reducible assumption) | ((with_reducible apply Keeps.after (State.celWrite_keeps _ _ _ _)); rfl)
      | ((with_reducible apply Keeps.after (State.discardFrame_keeps _ _)); rfl)
      | ((with_reducible apply Keeps.after (State.freeFrameUnits_keeps _ _)); rfl)
      | ((with_reducible apply Keeps.after (State.setVoq_keeps _ _ _ _)); rfl)
      | ((with_reducible apply Keeps.after (State.spillPack_keeps _ _ _ _ _ _ (by assumption))); rfl)
      | ((with_reducible apply Keeps.after (State.voqSettle_keeps _ _ _)); rfl)
      | (with_reducible refine Keeps.each ?_ fun _ _ _ => ?_) | (with_reducible refine Keeps.ite ?_ ?_)
      | (with_reducible apply Keeps.fst_ite) | (dsimp only) | split)

theorem State.spillRead_keeps (s : State) : ∀ a1 a2, Keeps [.regs, .ecc, .mast,
    .cel] s (State.spillRead s a1 a2).1 := by
  intro a1 a2
  have h : Keeps [.regs, .ecc, .mast, .cel] s s := .refl s
  unfold State.spillRead
  repeat' (first
      | (with_reducible assumption) | ((with_reducible apply Keeps.after (State.celRead_keeps _ _ _ _)); rfl)
      | (with_reducible refine Keeps.foldl _ ?_ fun _ _ _ => ?_)
      | (with_reducible refine Keeps.foldl_fst _ ?_ fun _ _ _ => ?_)
      | ((with_reducible apply Keeps.pair); with_reducible assumption) | (with_reducible apply Keeps.fst_ite)
      | (dsimp only) | split)

theorem State.spillChainLost_keeps (s : State) : ∀ a1 a2, Keeps [.regs, .ecc, .mast, .cel, .cup, .pipe, .stw, .crw,
    .outbox] s (State.spillChainLost s a1 a2) := by
  intro a1 a2
  have h : Keeps [.regs, .ecc, .mast, .cel, .cup, .pipe, .stw, .crw, .outbox] s s := .refl s
  unfold State.spillChainLost
  repeat' (first
      | (with_reducible assumption) | ((with_reducible apply Keeps.after (State.freeBlocks_keeps _ _ _)); rfl)
      | ((with_reducible apply Keeps.after (State.setVoq_keeps _ _ _ _)); rfl)
      | ((with_reducible apply Keeps.after (State.spillLost_keeps _ _ _ _)); rfl)
      | (with_reducible refine Keeps.each ?_ fun _ _ _ => ?_) | (dsimp only))

theorem execSpillReadback_keeps (s : State) : ∀ a0 a1 a2, ∃ t, (execSpillReadback a0 a1 a2 s) = .next t ∧ Keeps [.regs,
    .ecc, .mast, .cel, .cup, .pipe, .stw, .crw, .outbox] s t := by
  intro a0 a1 a2
  have h : Keeps [.regs, .ecc, .mast, .cel, .cup, .pipe, .stw, .crw, .outbox] s s := .refl s
  unfold execSpillReadback
  repeat' (first | (with_reducible apply Keeps.next) | (with_reducible apply Keeps.next_ite) | dsimp only | split)
  all_goals repeat' (first
      | (with_reducible assumption) | ((with_reducible apply Keeps.after (State.count_keeps _ _ _ _)); rfl)
      | ((with_reducible apply Keeps.after (State.freeBlocks_keeps _ _ _)); rfl)
      | ((with_reducible apply Keeps.after (State.setFrame_keeps _ _ _)); rfl)
      | ((with_reducible apply Keeps.after (State.setVoq_keeps _ _ _ _)); rfl)
      | ((with_reducible apply Keeps.after (State.spillChainLost_keeps _ _ _)); rfl)
      | ((with_reducible apply Keeps.after (State.spillLost_keeps _ _ _ _)); rfl)
      | ((with_reducible apply Keeps.after (State.spillRead_keeps _ _ _)); rfl)
      | ((with_reducible apply Keeps.after (State.voqSettle_keeps _ _ _)); rfl)
      | ((with_reducible apply Keeps.after (State.xoffUpdate_keeps _ _)); rfl)
      | ((with_reducible apply Keeps.pair); with_reducible assumption) | (with_reducible refine Keeps.ite ?_ ?_)
      | (with_reducible apply Keeps.fst_ite) | (dsimp only) | split)

theorem execGrantRound_keeps (s : State) : ∀ a0, ∃ t, (execGrantRound a0 s) = .next t ∧ Keeps [.regs, .ecc, .mast,
    .cel, .cup, .lft, .pipe, .stw, .sht, .crw, .outbox] s t := by
  intro a0
  have h : Keeps [.regs, .ecc, .mast, .cel, .cup, .lft, .pipe, .stw, .sht, .crw, .outbox] s s := .refl s
  unfold execGrantRound
  repeat' (first | (with_reducible apply Keeps.next) | (with_reducible apply Keeps.next_ite) | dsimp only | split)
  all_goals repeat' (first
      | (with_reducible assumption) | ((with_reducible apply Keeps.after (State.grantOne_keeps _ _ _)); rfl)
      | ((with_reducible apply Keeps.after (State.voqSettle_keeps _ _ _)); rfl)
      | (with_reducible refine Keeps.each ?_ fun _ _ _ => ?_) | (with_reducible apply Keeps.fst_ite) | (dsimp only))

theorem execCellArrive_keeps (s : State) : ∀ a0 a1 a2, ∃ t, (execCellArrive a0 a1 a2 s) = .next t ∧ Keeps [.regs,
    .mast, .pipe, .stw, .sht] s t := by
  intro a0 a1 a2
  have h : Keeps [.regs, .mast, .pipe, .stw, .sht] s s := .refl s
  unfold execCellArrive
  repeat' (first | (with_reducible apply Keeps.next) | (with_reducible apply Keeps.next_ite) | dsimp only | split)
  all_goals repeat' (first
      | (with_reducible assumption) | ((with_reducible apply Keeps.after (State.cellPart_keeps _ _ _ _ _)); rfl)
      | ((with_reducible apply Keeps.after (State.count_keeps _ _ _ _)); rfl)
      | ((with_reducible apply Keeps.after (State.report_keeps _ _ _ _)); rfl)
      | ((with_reducible apply Keeps.after (State.setB_keeps _ _ _)); rfl)
      | (with_reducible refine Keeps.each ?_ fun _ _ _ => ?_) | (with_reducible refine Keeps.ite ?_ ?_)
      | (with_reducible apply Keeps.fst_ite)
      | ((with_reducible apply Keeps.put_stw); rfl; first | (with_reducible assumption) | ((with_reducible apply Keeps.after (State.cellPart_keeps _ _ _ _ _)); rfl) | ((with_reducible apply Keeps.after (State.count_keeps _ _ _ _)); rfl) | ((with_reducible apply Keeps.after (State.report_keeps _ _ _ _)); rfl) | ((with_reducible apply Keeps.after (State.setB_keeps _ _ _)); rfl) | (with_reducible refine Keeps.each ?_ fun _ _ _ => ?_) | (with_reducible refine Keeps.ite ?_ ?_) | (with_reducible apply Keeps.fst_ite))
      | (dsimp only) | split)

theorem State.copyFinish_keeps (s : State) : ∀ a1 a2, Keeps [.regs, .ecc, .mast, .cel, .cup, .pipe, .stw, .crw,
    .outbox] s (State.copyFinish s a1 a2) := by
  intro a1 a2
  have h : Keeps [.regs, .ecc, .mast, .cel, .cup, .pipe, .stw, .crw, .outbox] s s := .refl s
  unfold State.copyFinish
  repeat' (first
      | (with_reducible assumption) | ((with_reducible apply Keeps.after (State.copyGone_keeps _ _)); rfl)
      | ((with_reducible apply Keeps.after (State.egTidy_keeps _ _ _)); rfl)
      | ((with_reducible apply Keeps.after (State.frameRelease_keeps _ _)); rfl)
      | ((with_reducible apply Keeps.after (State.freeBuf_keeps _ _)); rfl)
      | ((with_reducible apply Keeps.after (State.setFab_keeps _ _ _)); rfl)
      | ((with_reducible apply Keeps.after (State.setFrame_keeps _ _ _)); rfl)
      | (with_reducible refine Keeps.each ?_ fun _ _ _ => ?_) | (with_reducible refine Keeps.ite ?_ ?_)
      | (dsimp only) | split)

theorem execCopyFinishReport_keeps (s : State) : ∀ a0 a1, ∃ t, (execCopyFinishReport a0 a1 s) = .next t ∧ Keeps [.regs,
    .ecc, .mast, .cel, .cup, .pipe, .stw, .crw, .outbox] s t := by
  intro a0 a1
  have h : Keeps [.regs, .ecc, .mast, .cel, .cup, .pipe, .stw, .crw, .outbox] s s := .refl s
  unfold execCopyFinishReport
  repeat' (first | (with_reducible apply Keeps.next) | (with_reducible apply Keeps.next_ite) | dsimp only | split)
  all_goals repeat' (first
      | (with_reducible assumption) | ((with_reducible apply Keeps.after (State.copyFinish_keeps _ _ _)); rfl)
      | (with_reducible refine Keeps.ite ?_ ?_) | (with_reducible apply Keeps.fst_ite) | (dsimp only) | split)

theorem execDownHoldExpire_keeps (s : State) : ∀ a0, ∃ t, (execDownHoldExpire a0 s) = .next t ∧ Keeps [.regs, .mast,
    .pipe, .stw, .sht] s t := by
  intro a0
  have h : Keeps [.regs, .mast, .pipe, .stw, .sht] s s := .refl s
  unfold execDownHoldExpire
  repeat' (first | (with_reducible apply Keeps.next) | (with_reducible apply Keeps.next_ite) | dsimp only | split)
  all_goals repeat' (first
      | (with_reducible assumption) | ((with_reducible apply Keeps.after (State.portPurge_keeps _ _)); rfl)
      | (with_reducible refine Keeps.ite ?_ ?_) | (with_reducible apply Keeps.fst_ite)
      | ((with_reducible apply Keeps.put_pipe); rfl; first | (with_reducible assumption) | ((with_reducible apply Keeps.after (State.portPurge_keeps _ _)); rfl) | (with_reducible refine Keeps.ite ?_ ?_) | (with_reducible apply Keeps.fst_ite))
      | (dsimp only) | split)

theorem State.stwApply_keeps (s : State) : ∀ a1 a2 a3, Keeps [.regs, .ecc, .mast, .cel, .cup, .lft, .pipe, .stw,
    .sht, .crw, .outbox] s (State.stwApply s a1 a2 a3) := by
  intro a1 a2 a3
  have h : Keeps [.regs, .ecc, .mast, .cel, .cup, .lft, .pipe, .stw, .sht, .crw, .outbox] s s := .refl s
  unfold State.stwApply
  repeat' (first
      | (with_reducible assumption) | ((with_reducible apply Keeps.after (State.flush_keeps _ _ _)); rfl)
      | ((with_reducible apply Keeps.after (State.wrWide_keeps _ _ _ _)); rfl)
      | ((with_reducible apply Keeps.put_stw); rfl; first | (with_reducible assumption) | ((with_reducible apply Keeps.after (State.flush_keeps _ _ _)); rfl) | ((with_reducible apply Keeps.after (State.wrWide_keeps _ _ _ _)); rfl))
      | (dsimp only) | split)

theorem State.stwRun_keeps (s : State) : ∀ a1 a2 a3, Keeps [.regs, .ecc, .mast, .cel, .cup, .lft, .pipe, .stw, .sht,
    .crw, .outbox] s (State.stwRun s a1 a2 a3).1 := by
  intro a1 a2 a3
  have h : Keeps [.regs, .ecc, .mast, .cel, .cup, .lft, .pipe, .stw, .sht, .crw, .outbox] s s := .refl s
  unfold State.stwRun
  repeat' (first
      | (with_reducible assumption) | ((with_reducible apply Keeps.after (State.stwApply_keeps _ _ _ _)); rfl)
      | (with_reducible refine Keeps.ite ?_ ?_) | (with_reducible apply Keeps.fst_ite) | (dsimp only) | split)

theorem State.stwCmdWrite_keeps (s : State) : ∀ a1, Keeps [.regs, .ecc, .mast, .cel, .cup, .lft, .pipe, .stw, .sht,
    .crw, .outbox] s (State.stwCmdWrite s a1) := by
  intro a1
  have h : Keeps [.regs, .ecc, .mast, .cel, .cup, .lft, .pipe, .stw, .sht, .crw, .outbox] s s := .refl s
  unfold State.stwCmdWrite
  repeat' (first
      | (with_reducible assumption) | ((with_reducible apply Keeps.after (State.plainWrite_keeps _ _ _)); rfl)
      | ((with_reducible apply Keeps.after (State.setB_keeps _ _ _)); rfl)
      | ((with_reducible apply Keeps.after (State.stwRun_keeps _ _ _ _)); rfl)
      | ((with_reducible apply Keeps.after (State.wf_keeps _ _ _ _ _)); rfl)
      | ((with_reducible apply Keeps.pair); with_reducible assumption) | (with_reducible refine Keeps.ite ?_ ?_)
      | (with_reducible apply Keeps.fst_ite) | (dsimp only) | split)

theorem execStwSetWrite_keeps (s : State) : ∀ a0, ∃ t, (execStwSetWrite a0 s) = .next t ∧ Keeps [.regs, .ecc, .mast,
    .cel, .cup, .lft, .pipe, .stw, .sht, .crw, .outbox] s t := by
  intro a0
  have h : Keeps [.regs, .ecc, .mast, .cel, .cup, .lft, .pipe, .stw, .sht, .crw, .outbox] s s := .refl s
  unfold execStwSetWrite
  repeat' (first | (with_reducible apply Keeps.next) | (with_reducible apply Keeps.next_ite) | dsimp only | split)
  all_goals repeat' (first
      | (with_reducible assumption) | ((with_reducible apply Keeps.after (State.stwCmdWrite_keeps _ _)); rfl)
      | (with_reducible apply Keeps.fst_ite) | (dsimp only))

theorem execStwSetRead_keeps (s : State) : ∀ a0, ∃ t, (execStwSetRead a0 s) = .next t ∧ Keeps [.regs, .ecc, .mast,
    .cel, .cup, .lft, .pipe, .stw, .sht, .crw, .outbox] s t := by
  intro a0
  have h : Keeps [.regs, .ecc, .mast, .cel, .cup, .lft, .pipe, .stw, .sht, .crw, .outbox] s s := .refl s
  unfold execStwSetRead
  repeat' (first | (with_reducible apply Keeps.next) | (with_reducible apply Keeps.next_ite) | dsimp only | split)
  all_goals repeat' (first
      | (with_reducible assumption) | ((with_reducible apply Keeps.after (State.stwCmdWrite_keeps _ _)); rfl)
      | (with_reducible apply Keeps.fst_ite) | (dsimp only))

theorem execStwGroupWrite_keeps (s : State) : ∀ a0, ∃ t, (execStwGroupWrite a0 s) = .next t ∧ Keeps [.regs, .ecc,
    .mast, .cel, .cup, .lft, .pipe, .stw, .sht, .crw, .outbox] s t := by
  intro a0
  have h : Keeps [.regs, .ecc, .mast, .cel, .cup, .lft, .pipe, .stw, .sht, .crw, .outbox] s s := .refl s
  unfold execStwGroupWrite
  repeat' (first | (with_reducible apply Keeps.next) | (with_reducible apply Keeps.next_ite) | dsimp only | split)
  all_goals repeat' (first
      | (with_reducible assumption) | ((with_reducible apply Keeps.after (State.stwCmdWrite_keeps _ _)); rfl)
      | (with_reducible apply Keeps.fst_ite) | (dsimp only))

theorem execStwGroupRead_keeps (s : State) : ∀ a0, ∃ t, (execStwGroupRead a0 s) = .next t ∧ Keeps [.regs, .ecc,
    .mast, .cel, .cup, .lft, .pipe, .stw, .sht, .crw, .outbox] s t := by
  intro a0
  have h : Keeps [.regs, .ecc, .mast, .cel, .cup, .lft, .pipe, .stw, .sht, .crw, .outbox] s s := .refl s
  unfold execStwGroupRead
  repeat' (first | (with_reducible apply Keeps.next) | (with_reducible apply Keeps.next_ite) | dsimp only | split)
  all_goals repeat' (first
      | (with_reducible assumption) | ((with_reducible apply Keeps.after (State.stwCmdWrite_keeps _ _)); rfl)
      | (with_reducible apply Keeps.fst_ite) | (dsimp only))

theorem execStwMemberWrite_keeps (s : State) : ∀ a0, ∃ t, (execStwMemberWrite a0 s) = .next t ∧ Keeps [.regs, .ecc,
    .mast, .cel, .cup, .lft, .pipe, .stw, .sht, .crw, .outbox] s t := by
  intro a0
  have h : Keeps [.regs, .ecc, .mast, .cel, .cup, .lft, .pipe, .stw, .sht, .crw, .outbox] s s := .refl s
  unfold execStwMemberWrite
  repeat' (first | (with_reducible apply Keeps.next) | (with_reducible apply Keeps.next_ite) | dsimp only | split)
  all_goals repeat' (first
      | (with_reducible assumption) | ((with_reducible apply Keeps.after (State.stwCmdWrite_keeps _ _)); rfl)
      | (with_reducible apply Keeps.fst_ite) | (dsimp only))

theorem execStwMemberRead_keeps (s : State) : ∀ a0, ∃ t, (execStwMemberRead a0 s) = .next t ∧ Keeps [.regs, .ecc,
    .mast, .cel, .cup, .lft, .pipe, .stw, .sht, .crw, .outbox] s t := by
  intro a0
  have h : Keeps [.regs, .ecc, .mast, .cel, .cup, .lft, .pipe, .stw, .sht, .crw, .outbox] s s := .refl s
  unfold execStwMemberRead
  repeat' (first | (with_reducible apply Keeps.next) | (with_reducible apply Keeps.next_ite) | dsimp only | split)
  all_goals repeat' (first
      | (with_reducible assumption) | ((with_reducible apply Keeps.after (State.stwCmdWrite_keeps _ _)); rfl)
      | (with_reducible apply Keeps.fst_ite) | (dsimp only))

theorem execFlush_keeps (s : State) : ∀ a0, ∃ t, (execFlush a0 s) = .next t ∧ Keeps [.regs, .ecc, .mast, .cel, .cup,
    .lft, .pipe, .stw, .sht, .crw, .outbox] s t := by
  intro a0
  have h : Keeps [.regs, .ecc, .mast, .cel, .cup, .lft, .pipe, .stw, .sht, .crw, .outbox] s s := .refl s
  unfold execFlush
  repeat' (first | (with_reducible apply Keeps.next) | (with_reducible apply Keeps.next_ite) | dsimp only | split)
  all_goals repeat' (first
      | (with_reducible assumption) | ((with_reducible apply Keeps.after (State.stwCmdWrite_keeps _ _)); rfl)
      | (with_reducible apply Keeps.fst_ite) | (dsimp only))

theorem State.hashCommit_keeps (s : State) : ∀ a1 a2, Keeps [.regs, .held] s (State.hashCommit s a1 a2) := by
  intro a1 a2
  have h : Keeps [.regs, .held] s s := .refl s
  unfold State.hashCommit
  repeat' (first
      | (with_reducible assumption) | ((with_reducible apply Keeps.after (State.plainWrite_keeps _ _ _)); rfl)
      | ((with_reducible apply Keeps.after (State.setB_keeps _ _ _)); rfl)
      | ((with_reducible apply Keeps.after (State.wr_keeps _ _ _)); rfl)
      | (with_reducible refine Keeps.foldl _ ?_ fun _ _ _ => ?_)
      | (with_reducible refine Keeps.foldl_fst _ ?_ fun _ _ _ => ?_) | (with_reducible refine Keeps.ite ?_ ?_)
      | ((with_reducible apply Keeps.put_held); rfl; first | (with_reducible assumption) | ((with_reducible apply Keeps.after (State.plainWrite_keeps _ _ _)); rfl) | ((with_reducible apply Keeps.after (State.setB_keeps _ _ _)); rfl) | ((with_reducible apply Keeps.after (State.wr_keeps _ _ _)); rfl) | (with_reducible refine Keeps.foldl _ ?_ fun _ _ _ => ?_) | (with_reducible refine Keeps.foldl_fst _ ?_ fun _ _ _ => ?_) | (with_reducible refine Keeps.ite ?_ ?_))
      | (dsimp only) | split)

theorem execHashProfileCommit_keeps (s : State) : ∀ a0 a1, ∃ t, (execHashProfileCommit a0 a1 s) = .next t ∧ Keeps [.regs,
    .held] s t := by
  intro a0 a1
  have h : Keeps [.regs, .held] s s := .refl s
  unfold execHashProfileCommit
  repeat' (first | (with_reducible apply Keeps.next) | (with_reducible apply Keeps.next_ite) | dsimp only | split)
  all_goals repeat' (first
      | (with_reducible assumption) | ((with_reducible apply Keeps.after (State.hashCommit_keeps _ _ _)); rfl)
      | (with_reducible apply Keeps.fst_ite) | (dsimp only))

theorem execPantryScrub_keeps (s : State) : ∀ a0 a1 a2, ∃ t, (execPantryScrub a0 a1 a2 s) = .next t ∧ Keeps [.regs,
    .ecc, .mast, .cel, .cup, .lft, .pipe, .stw, .sht, .crw, .outbox] s t := by
  intro a0 a1 a2
  have h : Keeps [.regs, .ecc, .mast, .cel, .cup, .lft, .pipe, .stw, .sht, .crw, .outbox] s s := .refl s
  unfold execPantryScrub
  repeat' (first | (with_reducible apply Keeps.next) | (with_reducible apply Keeps.next_ite) | dsimp only | split)
  all_goals repeat' (first
      | (with_reducible assumption) | ((with_reducible apply Keeps.after (State.bufCorr_keeps _ _)); rfl)
      | ((with_reducible apply Keeps.after (State.bufUncorr_keeps _ _)); rfl)
      | ((with_reducible apply Keeps.after (State.egError_keeps _ _ _ _)); rfl)
      | ((with_reducible apply Keeps.after (State.inError_keeps _ _)); rfl)
      | (with_reducible refine Keeps.ite ?_ ?_) | (with_reducible apply Keeps.fst_ite) | (dsimp only) | split)

theorem State.stwPortWrite_keeps (s : State) : ∀ a1 a2 a3, Keeps [.regs, .mast,
    .pipe] s (State.stwPortWrite s a1 a2 a3) := by
  intro a1 a2 a3
  have h : Keeps [.regs, .mast, .pipe] s s := .refl s
  unfold State.stwPortWrite
  repeat' (first
      | (with_reducible assumption) | ((with_reducible apply Keeps.after (State.plainWrite_keeps _ _ _)); rfl)
      | ((with_reducible apply Keeps.after (State.setB_keeps _ _ _)); rfl)
      | ((with_reducible apply Keeps.after (State.xoffUpdate_keeps _ _)); rfl)
      | (with_reducible refine Keeps.ite ?_ ?_) | (dsimp only) | split)

theorem State.stwRegWrite_keeps (s : State) : ∀ a1 a2, Keeps [.regs, .held, .ecc, .mast, .cel, .cup, .lft, .pipe,
    .stw, .sht, .crw, .outbox] s (State.stwRegWrite s a1 a2) := by
  intro a1 a2
  have h : Keeps [.regs, .held, .ecc, .mast, .cel, .cup, .lft, .pipe, .stw, .sht, .crw, .outbox] s s := .refl s
  unfold State.stwRegWrite
  repeat' (first
      | (with_reducible assumption) | ((with_reducible apply Keeps.after (State.hashCommit_keeps _ _ _)); rfl)
      | ((with_reducible apply Keeps.after (State.plainWrite_keeps _ _ _)); rfl)
      | ((with_reducible apply Keeps.after (State.setB_keeps _ _ _)); rfl)
      | ((with_reducible apply Keeps.after (State.stwCmdWrite_keeps _ _)); rfl)
      | ((with_reducible apply Keeps.after (State.stwPortWrite_keeps _ _ _ _)); rfl)
      | (with_reducible refine Keeps.ite ?_ ?_)
      | ((with_reducible apply Keeps.put_held); rfl; first | (with_reducible assumption) | ((with_reducible apply Keeps.after (State.hashCommit_keeps _ _ _)); rfl) | ((with_reducible apply Keeps.after (State.plainWrite_keeps _ _ _)); rfl) | ((with_reducible apply Keeps.after (State.setB_keeps _ _ _)); rfl) | ((with_reducible apply Keeps.after (State.stwCmdWrite_keeps _ _)); rfl) | ((with_reducible apply Keeps.after (State.stwPortWrite_keeps _ _ _ _)); rfl) | (with_reducible refine Keeps.ite ?_ ?_))
      | (dsimp only) | split)

/-! ## LoftsHost -/

theorem State.thrStart_keeps (s : State) : ∀ a1, Keeps [.regs, .lft] s (State.thrStart s a1).1 := by
  intro a1
  have h : Keeps [.regs, .lft] s s := .refl s
  unfold State.thrStart
  repeat' (first
      | (with_reducible assumption) | ((with_reducible apply Keeps.after (State.setThr_keeps _ _ _)); rfl)
      | (with_reducible refine Keeps.ite ?_ ?_) | (with_reducible apply Keeps.fst_ite) | (dsimp only) | split)

theorem State.thrStop_keeps (s : State) : ∀ a1, Keeps [.regs, .lft] s (State.thrStop s a1).1 := by
  intro a1
  have h : Keeps [.regs, .lft] s s := .refl s
  unfold State.thrStop
  repeat' (first
      | (with_reducible assumption) | ((with_reducible apply Keeps.after (State.endCurrent_keeps _ _)); rfl)
      | ((with_reducible apply Keeps.after (State.setThr_keeps _ _ _)); rfl)
      | (with_reducible refine Keeps.ite ?_ ?_) | (with_reducible apply Keeps.fst_ite) | (dsimp only) | split)

theorem State.thrResetOp_keeps (s : State) : ∀ a1, Keeps [.regs, .ecc, .mast, .cel, .cup, .lft,
    .outbox] s (State.thrResetOp s a1).1 := by
  intro a1
  have h : Keeps [.regs, .ecc, .mast, .cel, .cup, .lft, .outbox] s s := .refl s
  unfold State.thrResetOp
  repeat' (first
      | (with_reducible assumption) | ((with_reducible apply Keeps.after (State.threadReset_keeps _ _)); rfl)
      | (with_reducible refine Keeps.ite ?_ ?_) | (with_reducible apply Keeps.fst_ite) | (dsimp only) | split)

theorem State.isWrite_keeps (s : State) : ∀ a1 a2 a3, Keeps [.regs, .ecc, .lft] s (State.isWrite s a1 a2 a3) := by
  intro a1 a2 a3
  have h : Keeps [.regs, .ecc, .lft] s s := .refl s
  unfold State.isWrite
  repeat' (first
      | (with_reducible assumption) | ((with_reducible apply Keeps.after (State.eccClear_keeps _ _ _)); rfl)
      | ((with_reducible apply Keeps.after (State.inject_keeps _ _ _ _ _ _)); rfl)
      | ((with_reducible apply Keeps.put_lft); rfl; (first | exact fun h => h | exact Memory.wf_write _ _ _ _ | exact Memory.wf_erase _ _ _ _); (first | exact fun h => h | exact Memory.wf_write _ _ _ _ | exact Memory.wf_erase _ _ _ _); first | (with_reducible assumption) | ((with_reducible apply Keeps.after (State.eccClear_keeps _ _ _)); rfl) | ((with_reducible apply Keeps.after (State.inject_keeps _ _ _ _ _ _)); rfl))
      | (dsimp only))

theorem State.cmdRead_keeps (s : State) : ∀ a1 a2 a3, Keeps [.regs, .ecc, .mast] s (State.cmdRead s a1 a2 a3).1 := by
  intro a1 a2 a3
  have h : Keeps [.regs, .ecc, .mast] s s := .refl s
  unfold State.cmdRead
  repeat' (first
      | (with_reducible assumption) | ((with_reducible apply Keeps.after (State.lftChecks_keeps _ _ _ _)); rfl)
      | ((with_reducible apply Keeps.after (State.wr64_keeps _ _ _)); rfl)
      | (with_reducible refine Keeps.each ?_ fun _ _ _ => ?_)
      | ((with_reducible apply Keeps.pair); with_reducible assumption) | (with_reducible refine Keeps.ite ?_ ?_)
      | (with_reducible apply Keeps.fst_ite) | (dsimp only) | split)

theorem State.lftCmdOp_keeps (s : State) : ∀ a1 a2, Keeps [.regs, .ecc, .mast, .cel, .attic, .cup, .lft,
    .outbox] s (State.lftCmdOp s a1 a2).1 := by
  intro a1 a2
  have h : Keeps [.regs, .ecc, .mast, .cel, .attic, .cup, .lft, .outbox] s s := .refl s
  unfold State.lftCmdOp
  repeat' (first
      | (with_reducible assumption) | ((with_reducible apply Keeps.after (State.cmdRead_keeps _ _ _ _)); rfl)
      | ((with_reducible apply Keeps.after (State.inject_keeps _ _ _ _ _ _)); rfl)
      | ((with_reducible apply Keeps.after (State.isWrite_keeps _ _ _ _)); rfl)
      | ((with_reducible apply Keeps.after (State.refWrite_keeps _ _ _)); rfl)
      | ((with_reducible apply Keeps.after (State.setThr_keeps _ _ _)); rfl)
      | ((with_reducible apply Keeps.after (State.thrResetOp_keeps _ _)); rfl)
      | ((with_reducible apply Keeps.after (State.thrStart_keeps _ _)); rfl)
      | ((with_reducible apply Keeps.after (State.thrStop_keeps _ _)); rfl)
      | ((with_reducible apply Keeps.after (State.wakeLoft_keeps _ _)); rfl)
      | (with_reducible refine Keeps.each ?_ fun _ _ _ => ?_)
      | ((with_reducible apply Keeps.pair); with_reducible assumption) | (with_reducible refine Keeps.ite ?_ ?_)
      | (with_reducible apply Keeps.fst_ite) | (dsimp only) | split)

theorem State.lftCmdWrite_keeps (s : State) : ∀ a1, Keeps [.regs, .ecc, .mast, .cel, .attic, .cup, .lft,
    .outbox] s (State.lftCmdWrite s a1) := by
  intro a1
  have h : Keeps [.regs, .ecc, .mast, .cel, .attic, .cup, .lft, .outbox] s s := .refl s
  unfold State.lftCmdWrite
  repeat' (first
      | (with_reducible assumption) | ((with_reducible apply Keeps.after (State.lftCmdOp_keeps _ _ _)); rfl)
      | ((with_reducible apply Keeps.after (State.plainWrite_keeps _ _ _)); rfl)
      | ((with_reducible apply Keeps.after (State.setB_keeps _ _ _)); rfl)
      | ((with_reducible apply Keeps.after (State.wf_keeps _ _ _ _ _)); rfl)
      | ((with_reducible apply Keeps.pair); with_reducible assumption) | (with_reducible refine Keeps.ite ?_ ?_)
      | (with_reducible apply Keeps.fst_ite) | (dsimp only) | split)

theorem execHostIsWrite_keeps (s : State) : ∀ a0, ∃ t, (execHostIsWrite a0 s) = .next t ∧ Keeps [.regs, .ecc, .mast,
    .cel, .attic, .cup, .lft, .outbox] s t := by
  intro a0
  have h : Keeps [.regs, .ecc, .mast, .cel, .attic, .cup, .lft, .outbox] s s := .refl s
  unfold execHostIsWrite
  repeat' (first | (with_reducible apply Keeps.next) | (with_reducible apply Keeps.next_ite) | dsimp only | split)
  all_goals repeat' (first
      | (with_reducible assumption) | ((with_reducible apply Keeps.after (State.lftCmdWrite_keeps _ _)); rfl)
      | (with_reducible apply Keeps.fst_ite) | (dsimp only))

theorem execHostIsRead_keeps (s : State) : ∀ a0, ∃ t, (execHostIsRead a0 s) = .next t ∧ Keeps [.regs, .ecc, .mast,
    .cel, .attic, .cup, .lft, .outbox] s t := by
  intro a0
  have h : Keeps [.regs, .ecc, .mast, .cel, .attic, .cup, .lft, .outbox] s s := .refl s
  unfold execHostIsRead
  repeat' (first | (with_reducible apply Keeps.next) | (with_reducible apply Keeps.next_ite) | dsimp only | split)
  all_goals repeat' (first
      | (with_reducible assumption) | ((with_reducible apply Keeps.after (State.lftCmdWrite_keeps _ _)); rfl)
      | (with_reducible apply Keeps.fst_ite) | (dsimp only))

theorem execHostShWrite_keeps (s : State) : ∀ a0, ∃ t, (execHostShWrite a0 s) = .next t ∧ Keeps [.regs, .ecc, .mast,
    .cel, .attic, .cup, .lft, .outbox] s t := by
  intro a0
  have h : Keeps [.regs, .ecc, .mast, .cel, .attic, .cup, .lft, .outbox] s s := .refl s
  unfold execHostShWrite
  repeat' (first | (with_reducible apply Keeps.next) | (with_reducible apply Keeps.next_ite) | dsimp only | split)
  all_goals repeat' (first
      | (with_reducible assumption) | ((with_reducible apply Keeps.after (State.lftCmdWrite_keeps _ _)); rfl)
      | (with_reducible apply Keeps.fst_ite) | (dsimp only))

theorem execHostShRead_keeps (s : State) : ∀ a0, ∃ t, (execHostShRead a0 s) = .next t ∧ Keeps [.regs, .ecc, .mast,
    .cel, .attic, .cup, .lft, .outbox] s t := by
  intro a0
  have h : Keeps [.regs, .ecc, .mast, .cel, .attic, .cup, .lft, .outbox] s s := .refl s
  unfold execHostShRead
  repeat' (first | (with_reducible apply Keeps.next) | (with_reducible apply Keeps.next_ite) | dsimp only | split)
  all_goals repeat' (first
      | (with_reducible assumption) | ((with_reducible apply Keeps.after (State.lftCmdWrite_keeps _ _)); rfl)
      | (with_reducible apply Keeps.fst_ite) | (dsimp only))

theorem execHostThrStart_keeps (s : State) : ∀ a0, ∃ t, (execHostThrStart a0 s) = .next t ∧ Keeps [.regs, .ecc,
    .mast, .cel, .attic, .cup, .lft, .outbox] s t := by
  intro a0
  have h : Keeps [.regs, .ecc, .mast, .cel, .attic, .cup, .lft, .outbox] s s := .refl s
  unfold execHostThrStart
  repeat' (first | (with_reducible apply Keeps.next) | (with_reducible apply Keeps.next_ite) | dsimp only | split)
  all_goals repeat' (first
      | (with_reducible assumption) | ((with_reducible apply Keeps.after (State.lftCmdWrite_keeps _ _)); rfl)
      | (with_reducible apply Keeps.fst_ite) | (dsimp only))

theorem execHostThrStop_keeps (s : State) : ∀ a0, ∃ t, (execHostThrStop a0 s) = .next t ∧ Keeps [.regs, .ecc, .mast,
    .cel, .attic, .cup, .lft, .outbox] s t := by
  intro a0
  have h : Keeps [.regs, .ecc, .mast, .cel, .attic, .cup, .lft, .outbox] s s := .refl s
  unfold execHostThrStop
  repeat' (first | (with_reducible apply Keeps.next) | (with_reducible apply Keeps.next_ite) | dsimp only | split)
  all_goals repeat' (first
      | (with_reducible assumption) | ((with_reducible apply Keeps.after (State.lftCmdWrite_keeps _ _)); rfl)
      | (with_reducible apply Keeps.fst_ite) | (dsimp only))

theorem execHostThrReset_keeps (s : State) : ∀ a0, ∃ t, (execHostThrReset a0 s) = .next t ∧ Keeps [.regs, .ecc,
    .mast, .cel, .attic, .cup, .lft, .outbox] s t := by
  intro a0
  have h : Keeps [.regs, .ecc, .mast, .cel, .attic, .cup, .lft, .outbox] s s := .refl s
  unfold execHostThrReset
  repeat' (first | (with_reducible apply Keeps.next) | (with_reducible apply Keeps.next_ite) | dsimp only | split)
  all_goals repeat' (first
      | (with_reducible assumption) | ((with_reducible apply Keeps.after (State.lftCmdWrite_keeps _ _)); rfl)
      | (with_reducible apply Keeps.fst_ite) | (dsimp only))

theorem State.dbgHaltThr_keeps (s : State) : ∀ a1, Keeps [.regs, .lft] s (State.dbgHaltThr s a1).1 := by
  intro a1
  have h : Keeps [.regs, .lft] s s := .refl s
  unfold State.dbgHaltThr
  repeat' (first
      | (with_reducible assumption) | ((with_reducible apply Keeps.after (State.endCurrent_keeps _ _)); rfl)
      | ((with_reducible apply Keeps.after (State.setThr_keeps _ _ _)); rfl)
      | (with_reducible refine Keeps.ite ?_ ?_) | (with_reducible apply Keeps.fst_ite) | (dsimp only) | split)

theorem State.dbgResumeThr_keeps (s : State) : ∀ a1, Keeps [.regs, .lft] s (State.dbgResumeThr s a1).1 := by
  intro a1
  have h : Keeps [.regs, .lft] s s := .refl s
  unfold State.dbgResumeThr
  repeat' (first
      | (with_reducible assumption) | ((with_reducible apply Keeps.after (State.setThr_keeps _ _ _)); rfl)
      | (with_reducible refine Keeps.ite ?_ ?_) | (with_reducible apply Keeps.fst_ite) | (dsimp only) | split)

theorem State.dbgOp_keeps (s : State) : ∀ a1 a2 a3, Keeps [.regs, .lft] s (State.dbgOp s a1 a2 a3).1 := by
  intro a1 a2 a3
  have h : Keeps [.regs, .lft] s s := .refl s
  unfold State.dbgOp
  repeat' (first
      | (with_reducible assumption) | ((with_reducible apply Keeps.after (State.dbgHaltThr_keeps _ _)); rfl)
      | ((with_reducible apply Keeps.after (State.dbgResumeThr_keeps _ _)); rfl)
      | ((with_reducible apply Keeps.after (State.setThr_keeps _ _ _)); rfl)
      | ((with_reducible apply Keeps.after (State.wr64_keeps _ _ _)); rfl)
      | (with_reducible refine Keeps.each ?_ fun _ _ _ => ?_)
      | ((with_reducible apply Keeps.pair); with_reducible assumption) | (with_reducible refine Keeps.ite ?_ ?_)
      | (with_reducible apply Keeps.fst_ite) | (dsimp only) | split)

theorem State.dbgRun_keeps {l : List Part} {u s : State} {op reg : Nat} {f : State → Nat → State × Nat}
    (hl : [Part.regs, .mast].all (fun p => l.contains p) = true) (hf : ∀ t n, Keeps l u t → Keeps l u (f t n).1)
    (h : Keeps l u s) : Keeps l u (s.dbgRun op reg f) := by
  have k := fun {t v : State} (g : Keeps [.regs, .mast] t v) => g.mono hl
  unfold State.dbgRun
  dsimp only
  split
  · exact h
  · split
    · exact (h.trans (k ((State.plainWrite_keeps _ _ _).mono rfl))).trans (k ((State.wf_keeps _ _ _ _ _).mono rfl))
    · refine Keeps.trans (hf _ _ ?_) (k ((State.wf_keeps _ _ _ _ _).mono rfl))
      exact (h.trans (k ((State.plainWrite_keeps _ _ _).mono rfl))).trans (k ((State.wakeLoft_keeps _ _).mono rfl))

theorem execDbgHalt_keeps (s : State) : ∃ t, (execDbgHalt s) = .next t ∧ Keeps [.regs, .mast, .lft] s t := by
  have h : Keeps [.regs, .mast, .lft] s s := .refl s
  unfold execDbgHalt
  repeat' (first | (with_reducible apply Keeps.next) | (with_reducible apply Keeps.next_ite) | dsimp only | split)
  all_goals repeat' (first
      | (with_reducible assumption) | ((with_reducible apply Keeps.after (State.dbgOp_keeps _ _ _ _)); rfl)
      | (with_reducible refine State.dbgRun_keeps rfl (fun _ _ _ => ?_) ?_)
      | ((with_reducible apply Keeps.pair); with_reducible assumption) | (with_reducible apply Keeps.fst_ite)
      | (dsimp only))

theorem execDbgResume_keeps (s : State) : ∃ t, (execDbgResume s) = .next t ∧ Keeps [.regs, .mast, .lft] s t := by
  have h : Keeps [.regs, .mast, .lft] s s := .refl s
  unfold execDbgResume
  repeat' (first | (with_reducible apply Keeps.next) | (with_reducible apply Keeps.next_ite) | dsimp only | split)
  all_goals repeat' (first
      | (with_reducible assumption) | ((with_reducible apply Keeps.after (State.dbgOp_keeps _ _ _ _)); rfl)
      | (with_reducible refine State.dbgRun_keeps rfl (fun _ _ _ => ?_) ?_)
      | ((with_reducible apply Keeps.pair); with_reducible assumption) | (with_reducible apply Keeps.fst_ite)
      | (dsimp only))

theorem execDbgRead_keeps (s : State) : ∀ a0, ∃ t, (execDbgRead a0 s) = .next t ∧ Keeps [.regs, .mast, .lft] s t := by
  intro a0
  have h : Keeps [.regs, .mast, .lft] s s := .refl s
  unfold execDbgRead
  repeat' (first | (with_reducible apply Keeps.next) | (with_reducible apply Keeps.next_ite) | dsimp only | split)
  all_goals repeat' (first
      | (with_reducible assumption) | ((with_reducible apply Keeps.after (State.dbgOp_keeps _ _ _ _)); rfl)
      | (with_reducible refine State.dbgRun_keeps rfl (fun _ _ _ => ?_) ?_)
      | ((with_reducible apply Keeps.pair); with_reducible assumption) | (with_reducible apply Keeps.fst_ite)
      | (dsimp only))

theorem execDbgWrite_keeps (s : State) : ∀ a0, ∃ t, (execDbgWrite a0 s) = .next t ∧ Keeps [.regs, .mast,
    .lft] s t := by
  intro a0
  have h : Keeps [.regs, .mast, .lft] s s := .refl s
  unfold execDbgWrite
  repeat' (first | (with_reducible apply Keeps.next) | (with_reducible apply Keeps.next_ite) | dsimp only | split)
  all_goals repeat' (first
      | (with_reducible assumption) | ((with_reducible apply Keeps.after (State.dbgOp_keeps _ _ _ _)); rfl)
      | (with_reducible refine State.dbgRun_keeps rfl (fun _ _ _ => ?_) ?_)
      | ((with_reducible apply Keeps.pair); with_reducible assumption) | (with_reducible apply Keeps.fst_ite)
      | (dsimp only))

theorem execDbgHaltEngine_keeps (s : State) : ∃ t, (execDbgHaltEngine s) = .next t ∧ Keeps [.regs, .mast,
    .lft] s t := by
  have h : Keeps [.regs, .mast, .lft] s s := .refl s
  unfold execDbgHaltEngine
  repeat' (first | (with_reducible apply Keeps.next) | (with_reducible apply Keeps.next_ite) | dsimp only | split)
  all_goals repeat' (first
      | (with_reducible assumption) | ((with_reducible apply Keeps.after (State.dbgOp_keeps _ _ _ _)); rfl)
      | (with_reducible refine State.dbgRun_keeps rfl (fun _ _ _ => ?_) ?_)
      | ((with_reducible apply Keeps.pair); with_reducible assumption) | (with_reducible apply Keeps.fst_ite)
      | (dsimp only))

theorem execDbgResumeEngine_keeps (s : State) : ∃ t, (execDbgResumeEngine s) = .next t ∧ Keeps [.regs, .mast,
    .lft] s t := by
  have h : Keeps [.regs, .mast, .lft] s s := .refl s
  unfold execDbgResumeEngine
  repeat' (first | (with_reducible apply Keeps.next) | (with_reducible apply Keeps.next_ite) | dsimp only | split)
  all_goals repeat' (first
      | (with_reducible assumption) | ((with_reducible apply Keeps.after (State.dbgOp_keeps _ _ _ _)); rfl)
      | (with_reducible refine State.dbgRun_keeps rfl (fun _ _ _ => ?_) ?_)
      | ((with_reducible apply Keeps.pair); with_reducible assumption) | (with_reducible apply Keeps.fst_ite)
      | (dsimp only))

theorem execBreakpointHalt_keeps (s : State) : ∀ a0, ∃ t, (execBreakpointHalt a0 s) = .next t ∧ Keeps [.regs,
    .lft] s t := by
  intro a0
  have h : Keeps [.regs, .lft] s s := .refl s
  unfold execBreakpointHalt
  repeat' (first | (with_reducible apply Keeps.next) | (with_reducible apply Keeps.next_ite) | dsimp only | split)
  all_goals repeat' (first
      | (with_reducible assumption) | ((with_reducible apply Keeps.after (State.setThr_keeps _ _ _)); rfl)
      | (with_reducible refine Keeps.ite ?_ ?_) | (with_reducible apply Keeps.fst_ite) | (dsimp only) | split)

theorem execEngineStop_keeps (s : State) : ∀ a0, ∃ t, (execEngineStop a0 s) = .next t ∧ Keeps [.regs, .ecc, .mast,
    .cel, .cup, .lft, .outbox] s t := by
  intro a0
  have h : Keeps [.regs, .ecc, .mast, .cel, .cup, .lft, .outbox] s s := .refl s
  unfold execEngineStop
  repeat' (first | (with_reducible apply Keeps.next) | (with_reducible apply Keeps.next_ite) | dsimp only | split)
  all_goals repeat' (first
      | (with_reducible assumption) | ((with_reducible apply Keeps.after (State.engineStop_keeps _ _ _)); rfl)
      | (with_reducible apply Keeps.fst_ite) | (dsimp only))

theorem execEngineRestart_keeps (s : State) : ∀ a0, ∃ t, (execEngineRestart a0 s) = .next t ∧ Keeps [.regs, .ecc,
    .mast, .cel, .cup, .lft, .outbox] s t := by
  intro a0
  have h : Keeps [.regs, .ecc, .mast, .cel, .cup, .lft, .outbox] s s := .refl s
  unfold execEngineRestart
  repeat' (first | (with_reducible apply Keeps.next) | (with_reducible apply Keeps.next_ite) | dsimp only | split)
  all_goals repeat' (first
      | (with_reducible assumption) | ((with_reducible apply Keeps.after (State.engineRestart_keeps _ _)); rfl)
      | (with_reducible apply Keeps.fst_ite) | (dsimp only))

theorem execWaitDeadlock_keeps (s : State) : ∀ a0, ∃ t, (execWaitDeadlock a0 s) = .next t ∧ Keeps [.regs, .ecc,
    .mast, .bell, .cel, .cup, .lft, .outbox] s t := by
  intro a0
  have h : Keeps [.regs, .ecc, .mast, .bell, .cel, .cup, .lft, .outbox] s s := .refl s
  unfold execWaitDeadlock
  repeat' (first | (with_reducible apply Keeps.next) | (with_reducible apply Keeps.next_ite) | dsimp only | split)
  all_goals repeat' (first
      | (with_reducible assumption) | ((with_reducible apply Keeps.after (State.count_keeps _ _ _ _)); rfl)
      | ((with_reducible apply Keeps.after (State.engineStop_keeps _ _ _)); rfl)
      | ((with_reducible apply Keeps.after (State.pulse_keeps _ _)); rfl) | (with_reducible refine Keeps.ite ?_ ?_)
      | (with_reducible apply Keeps.fst_ite)
      | ((with_reducible apply Keeps.put_lft); rfl; (first | exact fun h => h | exact Memory.wf_write _ _ _ _ | exact Memory.wf_erase _ _ _ _); (first | exact fun h => h | exact Memory.wf_write _ _ _ _ | exact Memory.wf_erase _ _ _ _); first | (with_reducible assumption) | ((with_reducible apply Keeps.after (State.count_keeps _ _ _ _)); rfl) | ((with_reducible apply Keeps.after (State.engineStop_keeps _ _ _)); rfl) | ((with_reducible apply Keeps.after (State.pulse_keeps _ _)); rfl) | (with_reducible refine Keeps.ite ?_ ?_) | (with_reducible apply Keeps.fst_ite))
      | (dsimp only) | split)

theorem execWInstructionComplete_keeps (s : State) : ∀ a0, ∃ t, (execWInstructionComplete a0 s) = .next t ∧ Keeps [.regs,
    .lft] s t := by
  intro a0
  have h : Keeps [.regs, .lft] s s := .refl s
  unfold execWInstructionComplete
  repeat' (first | (with_reducible apply Keeps.next) | (with_reducible apply Keeps.next_ite) | dsimp only | split)
  all_goals repeat' (first
      | (with_reducible assumption) | ((with_reducible apply Keeps.after (State.completeWait_keeps _ _)); rfl)
      | (with_reducible refine Keeps.ite ?_ ?_) | (with_reducible apply Keeps.fst_ite) | (dsimp only) | split)

theorem execTimerDeadline_keeps (s : State) : ∀ a0, ∃ t, (execTimerDeadline a0 s) = .next t ∧ Keeps [.regs, .mast,
    .lft] s t := by
  intro a0
  have h : Keeps [.regs, .mast, .lft] s s := .refl s
  unfold execTimerDeadline
  repeat' (first | (with_reducible apply Keeps.next) | (with_reducible apply Keeps.next_ite) | dsimp only | split)
  all_goals repeat' (first
      | (with_reducible assumption) | ((with_reducible apply Keeps.after (State.completeWait_keeps _ _)); rfl)
      | ((with_reducible apply Keeps.after (State.wakeLoft_keeps _ _)); rfl)
      | (with_reducible refine Keeps.ite ?_ ?_) | (with_reducible apply Keeps.fst_ite) | (dsimp only) | split)

theorem execLoftWake_keeps (s : State) : ∀ a0, ∃ t, (execLoftWake a0 s) = .next t ∧ Keeps [.regs, .mast] s t := by
  intro a0
  have h : Keeps [.regs, .mast] s s := .refl s
  unfold execLoftWake
  repeat' (first | (with_reducible apply Keeps.next) | (with_reducible apply Keeps.next_ite) | dsimp only | split)
  all_goals repeat' (first
      | (with_reducible assumption) | ((with_reducible apply Keeps.after (State.wakeLoft_keeps _ _)); rfl)
      | (with_reducible refine Keeps.ite ?_ ?_) | (with_reducible apply Keeps.fst_ite) | (dsimp only) | split)

theorem State.takeVector_keeps (s : State) : ∀ a1 a2, Keeps [.regs, .mast, .bell,
    .lft] s (State.takeVector s a1 a2) := by
  intro a1 a2
  have h : Keeps [.regs, .mast, .bell, .lft] s s := .refl s
  unfold State.takeVector
  repeat' (first
      | (with_reducible assumption) | ((with_reducible apply Keeps.after (State.claim_keeps _ _ _)); rfl)
      | ((with_reducible apply Keeps.after (State.count_keeps _ _ _ _)); rfl)
      | ((with_reducible apply Keeps.after (State.setThr_keeps _ _ _)); rfl)
      | ((with_reducible apply Keeps.after (State.wakeLoft_keeps _ _)); rfl)
      | (with_reducible refine Keeps.ite ?_ ?_)
      | ((with_reducible apply Keeps.put_bell); rfl; first | (with_reducible assumption) | ((with_reducible apply Keeps.after (State.claim_keeps _ _ _)); rfl) | ((with_reducible apply Keeps.after (State.count_keeps _ _ _ _)); rfl) | ((with_reducible apply Keeps.after (State.setThr_keeps _ _ _)); rfl) | ((with_reducible apply Keeps.after (State.wakeLoft_keeps _ _)); rfl) | (with_reducible refine Keeps.ite ?_ ?_))
      | (dsimp only) | split)

theorem execVectorCommit_keeps (s : State) : ∀ a0, ∃ t, (execVectorCommit a0 s) = .next t ∧ Keeps [.regs, .mast,
    .bell, .lft] s t := by
  intro a0
  have h : Keeps [.regs, .mast, .bell, .lft] s s := .refl s
  unfold execVectorCommit
  repeat' (first | (with_reducible apply Keeps.next) | (with_reducible apply Keeps.next_ite) | dsimp only | split)
  all_goals repeat' (first
      | (with_reducible assumption) | ((with_reducible apply Keeps.after (State.takeVector_keeps _ _ _)); rfl)
      | (with_reducible apply Keeps.fst_ite) | (dsimp only))

theorem execAtticVector_keeps (s : State) : ∃ t, (execAtticVector s) = .next t ∧ Keeps [.regs, .mast, .bell,
    .lft] s t := by
  have h : Keeps [.regs, .mast, .bell, .lft] s s := .refl s
  unfold execAtticVector
  repeat' (first | (with_reducible apply Keeps.next) | (with_reducible apply Keeps.next_ite) | dsimp only | split)
  all_goals repeat' (first
      | (with_reducible assumption) | ((with_reducible apply Keeps.after (State.takeVector_keeps _ _ _)); rfl)
      | (with_reducible apply Keeps.fst_ite) | (dsimp only))

theorem State.ticketEnqueue_keeps (s : State) : ∀ a1, Keeps [.regs, .ecc, .mast, .cel, .cup, .dwy, .lft,
    .outbox] s (State.ticketEnqueue s a1) := by
  intro a1
  have h : Keeps [.regs, .ecc, .mast, .cel, .cup, .dwy, .lft, .outbox] s s := .refl s
  unfold State.ticketEnqueue
  repeat' (first
      | (with_reducible assumption) | ((with_reducible apply Keeps.after (State.enqueueTicket_keeps _ _)); rfl)
      | ((with_reducible apply Keeps.pair); with_reducible assumption) | (with_reducible refine Keeps.ite ?_ ?_)
      | (with_reducible apply Keeps.fst_ite)
      | ((with_reducible apply Keeps.put_dwy); rfl; first | (with_reducible assumption) | ((with_reducible apply Keeps.after (State.enqueueTicket_keeps _ _)); rfl) | ((with_reducible apply Keeps.pair); with_reducible assumption) | (with_reducible refine Keeps.ite ?_ ?_) | (with_reducible apply Keeps.fst_ite))
      | (dsimp only) | split)

theorem execTicketEnqueue_keeps (s : State) : ∀ a0, ∃ t, (execTicketEnqueue a0 s) = .next t ∧ Keeps [.regs, .ecc,
    .mast, .cel, .cup, .dwy, .lft, .outbox] s t := by
  intro a0
  have h : Keeps [.regs, .ecc, .mast, .cel, .cup, .dwy, .lft, .outbox] s s := .refl s
  unfold execTicketEnqueue
  repeat' (first | (with_reducible apply Keeps.next) | (with_reducible apply Keeps.next_ite) | dsimp only | split)
  all_goals repeat' (first
      | (with_reducible assumption) | ((with_reducible apply Keeps.after (State.ticketEnqueue_keeps _ _)); rfl)
      | (with_reducible apply Keeps.fst_ite) | (dsimp only))

theorem execLoftsScrub_keeps (s : State) : ∀ a0 a1 a2, ∃ t, (execLoftsScrub a0 a1 a2 s) = .next t ∧ Keeps [.regs,
    .ecc, .mast] s t := by
  intro a0 a1 a2
  have h : Keeps [.regs, .ecc, .mast] s s := .refl s
  unfold execLoftsScrub
  repeat' (first | (with_reducible apply Keeps.next) | (with_reducible apply Keeps.next_ite) | dsimp only | split)
  all_goals repeat' (first
      | (with_reducible assumption) | ((with_reducible apply Keeps.after (State.eccFlag_keeps _ _ _ _)); rfl)
      | ((with_reducible apply Keeps.after (State.lftCheck_keeps _ _ _)); rfl)
      | ((with_reducible apply Keeps.pair); with_reducible assumption) | (with_reducible refine Keeps.ite ?_ ?_)
      | (with_reducible apply Keeps.fst_ite) | (dsimp only) | split)

theorem State.crwReserveWrite_keeps (s : State) : ∀ a1, Keeps [.regs] s (State.crwReserveWrite s a1) := by
  intro a1
  have h : Keeps [.regs] s s := .refl s
  unfold State.crwReserveWrite
  repeat' (first
      | (with_reducible assumption) | ((with_reducible apply Keeps.after (State.plainWrite_keeps _ _ _)); rfl)
      | ((with_reducible apply Keeps.after (State.setB_keeps _ _ _)); rfl)
      | ((with_reducible apply Keeps.after (State.wrN_keeps _ _ _)); rfl) | (with_reducible refine Keeps.ite ?_ ?_)
      | (dsimp only) | split)

theorem execCrwReserveWrite_keeps (s : State) : ∀ a0, ∃ t, (execCrwReserveWrite a0 s) = .next t ∧ Keeps [.regs] s t := by
  intro a0
  have h : Keeps [.regs] s s := .refl s
  unfold execCrwReserveWrite
  repeat' (first | (with_reducible apply Keeps.next) | (with_reducible apply Keeps.next_ite) | dsimp only | split)
  all_goals repeat' (first
      | (with_reducible assumption) | ((with_reducible apply Keeps.after (State.crwReserveWrite_keeps _ _)); rfl)
      | (with_reducible apply Keeps.fst_ite) | (dsimp only))

theorem State.lftGroupWrite_keeps (s : State) : ∀ a1 a2, Keeps [.regs] s (State.lftGroupWrite s a1 a2) := by
  intro a1 a2
  have h : Keeps [.regs] s s := .refl s
  unfold State.lftGroupWrite
  repeat' (first
      | (with_reducible assumption) | ((with_reducible apply Keeps.after (State.plainWrite_keeps _ _ _)); rfl)
      | ((with_reducible apply Keeps.after (State.setB_keeps _ _ _)); rfl) | (with_reducible refine Keeps.ite ?_ ?_)
      | (dsimp only) | split)

theorem State.lftRegWrite_keeps (s : State) : ∀ a1 a2, Keeps [.regs, .ecc, .mast, .cel, .attic, .cup, .lft,
    .outbox] s (State.lftRegWrite s a1 a2) := by
  intro a1 a2
  have h : Keeps [.regs, .ecc, .mast, .cel, .attic, .cup, .lft, .outbox] s s := .refl s
  unfold State.lftRegWrite
  repeat' (first
      | (with_reducible assumption) | ((with_reducible apply Keeps.after (State.crwReserveWrite_keeps _ _)); rfl)
      | ((with_reducible apply Keeps.after (State.engineRestart_keeps _ _)); rfl)
      | ((with_reducible apply Keeps.after (State.engineStop_keeps _ _ _)); rfl)
      | ((with_reducible apply Keeps.after (State.lftCmdWrite_keeps _ _)); rfl)
      | ((with_reducible apply Keeps.after (State.lftGroupWrite_keeps _ _ _)); rfl)
      | ((with_reducible apply Keeps.after (State.plainWrite_keeps _ _ _)); rfl)
      | ((with_reducible apply Keeps.after (State.setB_keeps _ _ _)); rfl) | (with_reducible refine Keeps.ite ?_ ?_)
      | (dsimp only) | split)

/-! ## Cupboard -/

theorem State.poolCfgWrite_keeps (s : State) : ∀ a1 a2, Keeps [.regs, .cup] s (State.poolCfgWrite s a1 a2) := by
  intro a1 a2
  have h : Keeps [.regs, .cup] s s := .refl s
  unfold State.poolCfgWrite
  repeat' (first
      | (with_reducible assumption) | ((with_reducible apply Keeps.after (State.plainWrite_keeps _ _ _)); rfl)
      | ((with_reducible apply Keeps.after (State.putB_keeps _ _ _ _)); rfl)
      | ((with_reducible apply Keeps.after (State.setB_keeps _ _ _)); rfl)
      | ((with_reducible apply Keeps.after (State.wf_keeps _ _ _ _ _)); rfl)
      | ((with_reducible apply Keeps.after (State.wr_keeps _ _ _)); rfl) | (with_reducible refine Keeps.ite ?_ ?_)
      | ((with_reducible apply Keeps.put_cup); rfl; first | (with_reducible assumption) | ((with_reducible apply Keeps.after (State.plainWrite_keeps _ _ _)); rfl) | ((with_reducible apply Keeps.after (State.putB_keeps _ _ _ _)); rfl) | ((with_reducible apply Keeps.after (State.setB_keeps _ _ _)); rfl) | ((with_reducible apply Keeps.after (State.wf_keeps _ _ _ _ _)); rfl) | ((with_reducible apply Keeps.after (State.wr_keeps _ _ _)); rfl) | (with_reducible refine Keeps.ite ?_ ?_))
      | (dsimp only) | split)

theorem execPoolValidWrite_keeps (s : State) : ∀ a0 a1, ∃ t, (execPoolValidWrite a0 a1 s) = .next t ∧ Keeps [.regs,
    .cup] s t := by
  intro a0 a1
  have h : Keeps [.regs, .cup] s s := .refl s
  unfold execPoolValidWrite
  repeat' (first | (with_reducible apply Keeps.next) | (with_reducible apply Keeps.next_ite) | dsimp only | split)
  all_goals repeat' (first
      | (with_reducible assumption) | ((with_reducible apply Keeps.after (State.poolCfgWrite_keeps _ _ _)); rfl)
      | (with_reducible apply Keeps.fst_ite) | (dsimp only))

theorem State.poolFormat_keeps (s : State) : ∀ a1, Keeps [.regs, .ecc, .mast, .cel, .cup,
    .outbox] s (State.poolFormat s a1) := by
  intro a1
  have h : Keeps [.regs, .ecc, .mast, .cel, .cup, .outbox] s s := .refl s
  unfold State.poolFormat
  repeat' (first
      | (with_reducible assumption) | ((with_reducible apply Keeps.after (State.celWrite_keeps _ _ _ _)); rfl)
      | ((with_reducible apply Keeps.after (State.eccClear_keeps _ _ _)); rfl)
      | ((with_reducible apply Keeps.after (State.ownerWrite_keeps _ _ _)); rfl)
      | ((with_reducible apply Keeps.after (State.setPool_keeps _ _ _)); rfl)
      | ((with_reducible apply Keeps.after (State.wf_keeps _ _ _ _ _)); rfl)
      | (with_reducible refine Keeps.each ?_ fun _ _ _ => ?_) | (dsimp only))

theorem execPoolFormatDone_keeps (s : State) : ∀ a0, ∃ t, (execPoolFormatDone a0 s) = .next t ∧ Keeps [.regs, .ecc,
    .mast, .cel, .cup, .outbox] s t := by
  intro a0
  have h : Keeps [.regs, .ecc, .mast, .cel, .cup, .outbox] s s := .refl s
  unfold execPoolFormatDone
  repeat' (first | (with_reducible apply Keeps.next) | (with_reducible apply Keeps.next_ite) | dsimp only | split)
  all_goals repeat' (first
      | (with_reducible assumption) | ((with_reducible apply Keeps.after (State.poolFormat_keeps _ _)); rfl)
      | (with_reducible refine Keeps.ite ?_ ?_) | (with_reducible apply Keeps.fst_ite) | (dsimp only) | split)

theorem State.thresholdWrite_keeps (s : State) : ∀ a1 a2 a3 a4, Keeps [.regs,
    .mast] s (State.thresholdWrite s a1 a2 a3 a4) := by
  intro a1 a2 a3 a4
  have h : Keeps [.regs, .mast] s s := .refl s
  unfold State.thresholdWrite
  repeat' (first
      | (with_reducible assumption) | ((with_reducible apply Keeps.after (State.levels_keeps _ _)); rfl)
      | ((with_reducible apply Keeps.after (State.plainWrite_keeps _ _ _)); rfl)
      | ((with_reducible apply Keeps.after (State.setB_keeps _ _ _)); rfl) | (with_reducible refine Keeps.ite ?_ ?_)
      | (dsimp only) | split)

theorem State.ticketGrant_keeps (s : State) : ∀ a1 a2 a3 a4, Keeps [.regs, .ecc, .mast, .cel, .lft,
    .outbox] s (State.ticketGrant s a1 a2 a3 a4) := by
  intro a1 a2 a3 a4
  have h : Keeps [.regs, .ecc, .mast, .cel, .lft, .outbox] s s := .refl s
  unfold State.ticketGrant
  repeat' (first
      | (with_reducible assumption) | ((with_reducible apply Keeps.after (State.celWrite_keeps _ _ _ _)); rfl)
      | ((with_reducible apply Keeps.after (State.setTicket_keeps _ _ _)); rfl) | (dsimp only))

theorem State.frameStored_keeps (s : State) : ∀ a1, Keeps [.regs, .mast, .pipe] s (State.frameStored s a1) := by
  intro a1
  have h : Keeps [.regs, .mast, .pipe] s s := .refl s
  unfold State.frameStored
  repeat' (first
      | (with_reducible assumption) | ((with_reducible apply Keeps.after (State.freeFrameUnits_keeps _ _)); rfl)
      | ((with_reducible apply Keeps.after (State.setFrame_keeps _ _ _)); rfl)
      | ((with_reducible apply Keeps.after (State.tidy_keeps _ _)); rfl) | (dsimp only))

theorem State.ticketNoBuf_keeps (s : State) : ∀ a1, Keeps [.regs, .ecc, .mast, .cel, .cup, .lft, .pipe, .stw, .crw,
    .outbox] s (State.ticketNoBuf s a1) := by
  intro a1
  have h : Keeps [.regs, .ecc, .mast, .cel, .cup, .lft, .pipe, .stw, .crw, .outbox] s s := .refl s
  unfold State.ticketNoBuf
  repeat' (first
      | (with_reducible assumption) | ((with_reducible apply Keeps.after (State.count_keeps _ _ _ _)); rfl)
      | ((with_reducible apply Keeps.after (State.discardFrame_keeps _ _)); rfl)
      | ((with_reducible apply Keeps.after (State.dropTicket_keeps _ _)); rfl) | (dsimp only) | split)

theorem State.setGrantQ_keeps (s : State) : ∀ a1 a2, Keeps [.cup] s (State.setGrantQ s a1 a2) := by
  intro a1 a2
  have h : Keeps [.cup] s s := .refl s
  unfold State.setGrantQ
  repeat' (first
      | (with_reducible assumption)
      | ((with_reducible apply Keeps.put_cup); rfl; first | (with_reducible assumption)) | (dsimp only))

theorem State.ticketAsk_keeps (s : State) : ∀ a1, Keeps [.regs, .ecc, .mast, .cel, .cup, .lft, .pipe,
    .outbox] s (State.ticketAsk s a1).1 := by
  intro a1
  have h : Keeps [.regs, .ecc, .mast, .cel, .cup, .lft, .pipe, .outbox] s s := .refl s
  unfold State.ticketAsk
  repeat' (first
      | (with_reducible assumption) | ((with_reducible apply Keeps.after (State.cupGrant_keeps _ _ _ _)); rfl)
      | ((with_reducible apply Keeps.after (State.frameStored_keeps _ _)); rfl)
      | ((with_reducible apply Keeps.after (State.ticketGrant_keeps _ _ _ _ _)); rfl)
      | ((with_reducible apply Keeps.pair); with_reducible assumption) | (with_reducible apply Keeps.fst_ite)
      | (dsimp only) | split)

theorem State.ticketRequest_keeps (s : State) : ∀ a1, Keeps [.regs, .ecc, .mast, .cel, .cup, .lft, .pipe, .stw, .crw,
    .outbox] s (State.ticketRequest s a1) := by
  intro a1
  have h : Keeps [.regs, .ecc, .mast, .cel, .cup, .lft, .pipe, .stw, .crw, .outbox] s s := .refl s
  unfold State.ticketRequest
  repeat' (first
      | (with_reducible assumption) | ((with_reducible apply Keeps.after (State.count_keeps _ _ _ _)); rfl)
      | ((with_reducible apply Keeps.after (State.setGrantQ_keeps _ _ _)); rfl)
      | ((with_reducible apply Keeps.after (State.ticketAsk_keeps _ _)); rfl)
      | ((with_reducible apply Keeps.after (State.ticketNoBuf_keeps _ _)); rfl)
      | ((with_reducible apply Keeps.pair); with_reducible assumption) | (with_reducible refine Keeps.ite ?_ ?_)
      | (with_reducible apply Keeps.fst_ite) | (dsimp only) | split)

theorem State.ticketServe_keeps (s : State) : ∀ a1, Keeps [.regs, .ecc, .mast, .cel, .cup, .lft, .pipe,
    .outbox] s (State.ticketServe s a1) := by
  intro a1
  have h : Keeps [.regs, .ecc, .mast, .cel, .cup, .lft, .pipe, .outbox] s s := .refl s
  unfold State.ticketServe
  repeat' (first
      | (with_reducible assumption) | ((with_reducible apply Keeps.after (State.setGrantQ_keeps _ _ _)); rfl)
      | ((with_reducible apply Keeps.after (State.ticketAsk_keeps _ _)); rfl)
      | ((with_reducible apply Keeps.pair); with_reducible assumption) | (with_reducible refine Keeps.ite ?_ ?_)
      | (with_reducible apply Keeps.fst_ite)
      | ((with_reducible apply Keeps.put_cup); rfl; first | (with_reducible assumption) | ((with_reducible apply Keeps.after (State.setGrantQ_keeps _ _ _)); rfl) | ((with_reducible apply Keeps.after (State.ticketAsk_keeps _ _)); rfl) | ((with_reducible apply Keeps.pair); with_reducible assumption) | (with_reducible refine Keeps.ite ?_ ?_) | (with_reducible apply Keeps.fst_ite))
      | (dsimp only) | split)

theorem State.sampleRequest_keeps (s : State) : ∀ a1, Keeps [.regs, .ecc, .mast, .cel, .cup, .lft, .pipe,
    .outbox] s (State.sampleRequest s a1) := by
  intro a1
  have h : Keeps [.regs, .ecc, .mast, .cel, .cup, .lft, .pipe, .outbox] s s := .refl s
  unfold State.sampleRequest
  repeat' (first
      | (with_reducible assumption) | ((with_reducible apply Keeps.after (State.count_keeps _ _ _ _)); rfl)
      | ((with_reducible apply Keeps.after (State.cupGrant_keeps _ _ _ _)); rfl)
      | ((with_reducible apply Keeps.after (State.dropTicket_keeps _ _)); rfl)
      | ((with_reducible apply Keeps.after (State.ticketGrant_keeps _ _ _ _ _)); rfl)
      | ((with_reducible apply Keeps.after (State.tidy_keeps _ _)); rfl)
      | ((with_reducible apply Keeps.pair); with_reducible assumption) | (with_reducible apply Keeps.fst_ite)
      | (dsimp only) | split)

theorem execBufferRequest_keeps (s : State) : ∀ a0, ∃ t, (execBufferRequest a0 s) = .next t ∧ Keeps [.regs, .ecc,
    .mast, .cel, .cup, .lft, .pipe, .stw, .crw, .outbox] s t := by
  intro a0
  have h : Keeps [.regs, .ecc, .mast, .cel, .cup, .lft, .pipe, .stw, .crw, .outbox] s s := .refl s
  unfold execBufferRequest
  repeat' (first | (with_reducible apply Keeps.next) | (with_reducible apply Keeps.next_ite) | dsimp only | split)
  all_goals repeat' (first
      | (with_reducible assumption) | ((with_reducible apply Keeps.after (State.discardFrame_keeps _ _)); rfl)
      | ((with_reducible apply Keeps.after (State.dropTicket_keeps _ _)); rfl)
      | ((with_reducible apply Keeps.after (State.sampleRequest_keeps _ _)); rfl)
      | ((with_reducible apply Keeps.after (State.ticketRequest_keeps _ _)); rfl)
      | ((with_reducible apply Keeps.after (State.ticketServe_keeps _ _)); rfl)
      | (with_reducible refine Keeps.ite ?_ ?_) | (with_reducible apply Keeps.fst_ite) | (dsimp only) | split)

theorem execGrantQueueTimeout_keeps (s : State) : ∀ a0, ∃ t, (execGrantQueueTimeout a0 s) = .next t ∧ Keeps [.regs,
    .ecc, .mast, .cel, .cup, .lft, .pipe, .stw, .crw, .outbox] s t := by
  intro a0
  have h : Keeps [.regs, .ecc, .mast, .cel, .cup, .lft, .pipe, .stw, .crw, .outbox] s s := .refl s
  unfold execGrantQueueTimeout
  repeat' (first | (with_reducible apply Keeps.next) | (with_reducible apply Keeps.next_ite) | dsimp only | split)
  all_goals repeat' (first
      | (with_reducible assumption) | ((with_reducible apply Keeps.after (State.setGrantQ_keeps _ _ _)); rfl)
      | ((with_reducible apply Keeps.after (State.ticketNoBuf_keeps _ _)); rfl)
      | (with_reducible refine Keeps.ite ?_ ?_) | (with_reducible apply Keeps.fst_ite) | (dsimp only) | split)

theorem execCacheRefill_keeps (s : State) : ∀ a0, ∃ t, (execCacheRefill a0 s) = .next t ∧ Keeps [.regs, .ecc, .mast,
    .cel, .cup] s t := by
  intro a0
  have h : Keeps [.regs, .ecc, .mast, .cel, .cup] s s := .refl s
  unfold execCacheRefill
  repeat' (first | (with_reducible apply Keeps.next) | (with_reducible apply Keeps.next_ite) | dsimp only | split)
  all_goals repeat' (first
      | (with_reducible assumption) | ((with_reducible apply Keeps.after (State.cacheRefill_keeps _ _)); rfl)
      | (with_reducible refine Keeps.ite ?_ ?_) | (with_reducible apply Keeps.fst_ite) | (dsimp only) | split)

theorem State.fnResult_keeps (s : State) : ∀ a1 a2, Keeps [.regs, .mast] s (State.fnResult s a1 a2) := by
  intro a1 a2
  have h : Keeps [.regs, .mast] s s := .refl s
  unfold State.fnResult
  repeat' (first
      | (with_reducible assumption) | ((with_reducible apply Keeps.after (State.count_keeps _ _ _ _)); rfl)
      | ((with_reducible apply Keeps.after (State.setB_keeps _ _ _)); rfl)
      | ((with_reducible apply Keeps.after (State.wf_keeps _ _ _ _ _)); rfl)
      | (with_reducible refine Keeps.ite ?_ ?_) | (dsimp only) | split)

theorem State.fnFree_keeps (s : State) : ∀ a1 a2, Keeps [.regs, .ecc, .mast, .cel, .cup,
    .outbox] s (State.fnFree s a1 a2) := by
  intro a1 a2
  have h : Keeps [.regs, .ecc, .mast, .cel, .cup, .outbox] s s := .refl s
  unfold State.fnFree
  repeat' (first
      | (with_reducible assumption) | ((with_reducible apply Keeps.after (State.cupFree_keeps _ _ _ _)); rfl)
      | ((with_reducible apply Keeps.after (State.fnResult_keeps _ _ _)); rfl)
      | ((with_reducible apply Keeps.pair); with_reducible assumption) | (with_reducible apply Keeps.fst_ite)
      | (dsimp only))

theorem State.fnShare_keeps (s : State) : ∀ a1 a2, Keeps [.regs, .ecc, .mast, .cel, .cup,
    .outbox] s (State.fnShare s a1 a2) := by
  intro a1 a2
  have h : Keeps [.regs, .ecc, .mast, .cel, .cup, .outbox] s s := .refl s
  unfold State.fnShare
  repeat' (first
      | (with_reducible assumption) | ((with_reducible apply Keeps.after (State.cupShare_keeps _ _ _ _ _ _)); rfl)
      | ((with_reducible apply Keeps.after (State.fnResult_keeps _ _ _)); rfl)
      | ((with_reducible apply Keeps.pair); with_reducible assumption) | (with_reducible apply Keeps.fst_ite)
      | (dsimp only))

theorem execBufferFree_keeps (s : State) : ∀ a0 a1, ∃ t, (execBufferFree a0 a1 s) = .next t ∧ Keeps [.regs, .ecc,
    .mast, .cel, .cup, .outbox] s t := by
  intro a0 a1
  have h : Keeps [.regs, .ecc, .mast, .cel, .cup, .outbox] s s := .refl s
  unfold execBufferFree
  repeat' (first | (with_reducible apply Keeps.next) | (with_reducible apply Keeps.next_ite) | dsimp only | split)
  all_goals repeat' (first
      | (with_reducible assumption) | ((with_reducible apply Keeps.after (State.fnFree_keeps _ _ _)); rfl)
      | (with_reducible apply Keeps.fst_ite) | (dsimp only))

theorem execBufferShare_keeps (s : State) : ∀ a0 a1, ∃ t, (execBufferShare a0 a1 s) = .next t ∧ Keeps [.regs, .ecc,
    .mast, .cel, .cup, .outbox] s t := by
  intro a0 a1
  have h : Keeps [.regs, .ecc, .mast, .cel, .cup, .outbox] s s := .refl s
  unfold execBufferShare
  repeat' (first | (with_reducible apply Keeps.next) | (with_reducible apply Keeps.next_ite) | dsimp only | split)
  all_goals repeat' (first
      | (with_reducible assumption) | ((with_reducible apply Keeps.after (State.fnShare_keeps _ _ _)); rfl)
      | (with_reducible apply Keeps.fst_ite) | (dsimp only))

theorem State.grantRead_keeps (s : State) : ∀ a1 a2, Keeps [.regs, .rdata] s (State.grantRead s a1 a2) := by
  intro a1 a2
  have h : Keeps [.regs, .rdata] s s := .refl s
  unfold State.grantRead
  repeat' (first
      | (with_reducible assumption) | ((with_reducible apply Keeps.after (State.answer_keeps _ _)); rfl)
      | ((with_reducible apply Keeps.after (State.setB_keeps _ _ _)); rfl)
      | ((with_reducible apply Keeps.after (State.wr_keeps _ _ _)); rfl) | (with_reducible refine Keeps.ite ?_ ?_)
      | (dsimp only) | split)

theorem execGrantRegisterRead_keeps (s : State) : ∀ a0 a1, ∃ t, (execGrantRegisterRead a0 a1 s) = .next t ∧ Keeps [.regs,
    .rdata] s t := by
  intro a0 a1
  have h : Keeps [.regs, .rdata] s s := .refl s
  unfold execGrantRegisterRead
  repeat' (first | (with_reducible apply Keeps.next) | (with_reducible apply Keeps.next_ite) | dsimp only | split)
  all_goals repeat' (first
      | (with_reducible assumption) | ((with_reducible apply Keeps.after (State.grantRead_keeps _ _ _)); rfl)
      | (with_reducible apply Keeps.fst_ite) | (dsimp only))

theorem execGrantRegisterRefill_keeps (s : State) : ∀ a0 a1, ∃ t, (execGrantRegisterRefill a0 a1 s) = .next t ∧ Keeps [.regs,
    .ecc, .mast, .cel, .cup, .outbox] s t := by
  intro a0 a1
  have h : Keeps [.regs, .ecc, .mast, .cel, .cup, .outbox] s s := .refl s
  unfold execGrantRegisterRefill
  repeat' (first | (with_reducible apply Keeps.next) | (with_reducible apply Keeps.next_ite) | dsimp only | split)
  all_goals repeat' (first
      | (with_reducible assumption) | ((with_reducible apply Keeps.after (State.grantChain_keeps _ _ _ _ _)); rfl)
      | ((with_reducible apply Keeps.after (State.wrN_keeps _ _ _)); rfl)
      | ((with_reducible apply Keeps.pair); with_reducible assumption) | (with_reducible refine Keeps.ite ?_ ?_)
      | (with_reducible apply Keeps.fst_ite) | (dsimp only) | split)

theorem State.reclaimWrite_keeps (s : State) : ∀ a1, Keeps [.regs, .cup] s (State.reclaimWrite s a1) := by
  intro a1
  have h : Keeps [.regs, .cup] s s := .refl s
  unfold State.reclaimWrite
  repeat' (first
      | (with_reducible assumption) | ((with_reducible apply Keeps.after (State.plainWrite_keeps _ _ _)); rfl)
      | ((with_reducible apply Keeps.after (State.setB_keeps _ _ _)); rfl)
      | ((with_reducible apply Keeps.after (State.wf_keeps _ _ _ _ _)); rfl)
      | ((with_reducible apply Keeps.after (State.wrN_keeps _ _ _)); rfl) | (with_reducible refine Keeps.ite ?_ ?_)
      | ((with_reducible apply Keeps.put_cup); rfl; first | (with_reducible assumption) | ((with_reducible apply Keeps.after (State.plainWrite_keeps _ _ _)); rfl) | ((with_reducible apply Keeps.after (State.setB_keeps _ _ _)); rfl) | ((with_reducible apply Keeps.after (State.wf_keeps _ _ _ _ _)); rfl) | ((with_reducible apply Keeps.after (State.wrN_keeps _ _ _)); rfl) | (with_reducible refine Keeps.ite ?_ ?_))
      | (dsimp only) | split)

theorem execReclaimStart_keeps (s : State) : ∀ a0, ∃ t, (execReclaimStart a0 s) = .next t ∧ Keeps [.regs,
    .cup] s t := by
  intro a0
  have h : Keeps [.regs, .cup] s s := .refl s
  unfold execReclaimStart
  repeat' (first | (with_reducible apply Keeps.next) | (with_reducible apply Keeps.next_ite) | dsimp only | split)
  all_goals repeat' (first
      | (with_reducible assumption) | ((with_reducible apply Keeps.after (State.reclaimWrite_keeps _ _)); rfl)
      | (with_reducible apply Keeps.fst_ite) | (dsimp only))

theorem State.reclaimOne_keeps (s : State) : ∀ a1 a2, Keeps [.regs, .ecc, .mast, .cel, .cup,
    .outbox] s (State.reclaimOne s a1 a2) := by
  intro a1 a2
  have h : Keeps [.regs, .ecc, .mast, .cel, .cup, .outbox] s s := .refl s
  unfold State.reclaimOne
  repeat' (first
      | (with_reducible assumption) | ((with_reducible apply Keeps.after (State.cupCheck_keeps _ _ _)); rfl)
      | ((with_reducible apply Keeps.after (State.cupFree_keeps _ _ _ _)); rfl)
      | ((with_reducible apply Keeps.after (State.wrN_keeps _ _ _)); rfl)
      | ((with_reducible apply Keeps.pair); with_reducible assumption) | (with_reducible refine Keeps.ite ?_ ?_)
      | (with_reducible apply Keeps.fst_ite) | (dsimp only) | split)

theorem execReclaimVisit_keeps (s : State) : ∃ t, (execReclaimVisit s) = .next t ∧ Keeps [.regs, .ecc, .mast, .bell,
    .cel, .cup, .outbox] s t := by
  have h : Keeps [.regs, .ecc, .mast, .bell, .cel, .cup, .outbox] s s := .refl s
  unfold execReclaimVisit
  repeat' (first | (with_reducible apply Keeps.next) | (with_reducible apply Keeps.next_ite) | dsimp only | split)
  all_goals repeat' (first
      | (with_reducible assumption) | ((with_reducible apply Keeps.after (State.pulse_keeps _ _)); rfl)
      | ((with_reducible apply Keeps.after (State.putB_keeps _ _ _ _)); rfl)
      | ((with_reducible apply Keeps.after (State.reclaimOne_keeps _ _ _)); rfl)
      | (with_reducible refine Keeps.ite ?_ ?_) | (with_reducible apply Keeps.fst_ite)
      | ((with_reducible apply Keeps.put_cup); rfl; first | (with_reducible assumption) | ((with_reducible apply Keeps.after (State.pulse_keeps _ _)); rfl) | ((with_reducible apply Keeps.after (State.putB_keeps _ _ _ _)); rfl) | ((with_reducible apply Keeps.after (State.reclaimOne_keeps _ _ _)); rfl) | (with_reducible refine Keeps.ite ?_ ?_) | (with_reducible apply Keeps.fst_ite))
      | (dsimp only) | split)

theorem State.cupCacheCheck_keeps (s : State) : ∀ a1 a2 a3, Keeps [.regs, .freeCtr, .mast,
    .cup] s (State.cupCacheCheck s a1 a2 a3) := by
  intro a1 a2 a3
  have h : Keeps [.regs, .freeCtr, .mast, .cup] s s := .refl s
  unfold State.cupCacheCheck
  repeat' (first
      | (with_reducible assumption) | ((with_reducible apply Keeps.after (State.count_keeps _ _ _ _)); rfl)
      | ((with_reducible apply Keeps.after (State.free_keeps _ _)); rfl)
      | ((with_reducible apply Keeps.after (State.report_keeps _ _ _ _)); rfl)
      | ((with_reducible apply Keeps.after (State.setB_keeps _ _ _)); rfl)
      | ((with_reducible apply Keeps.pair_snd); with_reducible assumption)
      | ((with_reducible apply Keeps.put_cup); rfl; first | (with_reducible assumption) | ((with_reducible apply Keeps.after (State.count_keeps _ _ _ _)); rfl) | ((with_reducible apply Keeps.after (State.free_keeps _ _)); rfl) | ((with_reducible apply Keeps.after (State.report_keeps _ _ _ _)); rfl) | ((with_reducible apply Keeps.after (State.setB_keeps _ _ _)); rfl) | ((with_reducible apply Keeps.pair_snd); with_reducible assumption))
      | (dsimp only) | split)

theorem execCupboardScrub_keeps (s : State) : ∀ a0 a1 a2, ∃ t, (execCupboardScrub a0 a1 a2 s) = .next t ∧ Keeps [.regs,
    .freeCtr, .ecc, .mast, .cup] s t := by
  intro a0 a1 a2
  have h : Keeps [.regs, .freeCtr, .ecc, .mast, .cup] s s := .refl s
  unfold execCupboardScrub
  repeat' (first | (with_reducible apply Keeps.next) | (with_reducible apply Keeps.next_ite) | dsimp only | split)
  all_goals repeat' (first
      | (with_reducible assumption) | ((with_reducible apply Keeps.after (State.bitmapCheck_keeps _ _ _)); rfl)
      | ((with_reducible apply Keeps.after (State.cupCacheCheck_keeps _ _ _ _)); rfl)
      | ((with_reducible apply Keeps.after (State.eccFlag_keeps _ _ _ _)); rfl)
      | (with_reducible refine Keeps.ite ?_ ?_) | (with_reducible apply Keeps.fst_ite) | (dsimp only) | split)

theorem State.cupRegWrite_keeps (s : State) : ∀ a1 a2, Keeps [.regs, .ecc, .mast, .cel, .cup,
    .outbox] s (State.cupRegWrite s a1 a2) := by
  intro a1 a2
  have h : Keeps [.regs, .ecc, .mast, .cel, .cup, .outbox] s s := .refl s
  unfold State.cupRegWrite
  repeat' (first
      | (with_reducible assumption) | ((with_reducible apply Keeps.after (State.fnFree_keeps _ _ _)); rfl)
      | ((with_reducible apply Keeps.after (State.fnShare_keeps _ _ _)); rfl)
      | ((with_reducible apply Keeps.after (State.plainWrite_keeps _ _ _)); rfl)
      | ((with_reducible apply Keeps.after (State.poolCfgWrite_keeps _ _ _)); rfl)
      | ((with_reducible apply Keeps.after (State.reclaimWrite_keeps _ _)); rfl)
      | ((with_reducible apply Keeps.after (State.setB_keeps _ _ _)); rfl)
      | ((with_reducible apply Keeps.after (State.thresholdWrite_keeps _ _ _ _ _)); rfl)
      | (with_reducible refine Keeps.ite ?_ ?_) | (dsimp only) | split)

/-! ## HandOver -/

theorem State.handDrop_keeps (s : State) : ∀ a1, Keeps [.regs, .ecc, .mast, .cel, .cup,
    .outbox] s (State.handDrop s a1) := by
  intro a1
  have h : Keeps [.regs, .ecc, .mast, .cel, .cup, .outbox] s s := .refl s
  unfold State.handDrop
  repeat' (first
      | (with_reducible assumption) | ((with_reducible apply Keeps.after (State.hwFree_keeps _ _)); rfl)
      | (with_reducible refine Keeps.ite ?_ ?_) | (dsimp only) | split)

theorem State.handRouted_keeps (s : State) : ∀ a1 a2 a3 a4 a5 a6 a7, Keeps [.regs, .ecc, .mast, .cel, .cup, .pipe,
    .outbox] s (State.handRouted s a1 a2 a3 a4 a5 a6 a7) := by
  intro a1 a2 a3 a4 a5 a6 a7
  have h : Keeps [.regs, .ecc, .mast, .cel, .cup, .pipe, .outbox] s s := .refl s
  unfold State.handRouted
  repeat' (first
      | (with_reducible assumption) | ((with_reducible apply Keeps.after (State.count_keeps _ _ _ _)); rfl)
      | ((with_reducible apply Keeps.after (State.directEnter_keeps _ _ _ _ _ _)); rfl)
      | ((with_reducible apply Keeps.after (State.handDrop_keeps _ _)); rfl)
      | ((with_reducible apply Keeps.after (State.mirrorsOf_keeps _ _ _)); rfl)
      | ((with_reducible apply Keeps.after (State.setFab_keeps _ _ _)); rfl)
      | ((with_reducible apply Keeps.after (State.setSl_keeps _ _ _)); rfl)
      | ((with_reducible apply Keeps.pair); with_reducible assumption) | (with_reducible refine Keeps.ite ?_ ?_)
      | (with_reducible apply Keeps.fst_ite) | (dsimp only) | split)

theorem State.handDirect_keeps (s : State) : ∀ a1 a2 a3 a4 a5, Keeps [.regs, .freeCtr, .ecc, .mast, .cel, .cup,
    .pipe, .outbox] s (State.handDirect s a1 a2 a3 a4 a5) := by
  intro a1 a2 a3 a4 a5
  have h : Keeps [.regs, .freeCtr, .ecc, .mast, .cel, .cup, .pipe, .outbox] s s := .refl s
  unfold State.handDirect
  repeat' (first
      | (with_reducible assumption) | ((with_reducible apply Keeps.after (State.free_keeps _ _)); rfl)
      | ((with_reducible apply Keeps.after (State.handRouted_keeps _ _ _ _ _ _ _ _)); rfl)
      | ((with_reducible apply Keeps.pair_snd); with_reducible assumption) | (dsimp only))

theorem State.handHead_keeps (s : State) : ∀ a1 a2 a3 a4 a5, Keeps [.pipe] s (State.handHead s a1 a2 a3 a4 a5) := by
  intro a1 a2 a3 a4 a5
  have h : Keeps [.pipe] s s := .refl s
  unfold State.handHead
  repeat' (first
      | (with_reducible assumption) | ((with_reducible apply Keeps.after (State.enterReentry_keeps _ _)); rfl)
      | ((with_reducible apply Keeps.after (State.newFrame_keeps _ _)); rfl)
      | ((with_reducible apply Keeps.pair); with_reducible assumption) | (with_reducible apply Keeps.fst_ite)
      | (dsimp only))

end Sys2Proof.Machine
end

