-- ==== Sys2Proof/Laws/KeepsDoorway.lean ====
section
/-! SUPPORT. What each function of the model can do to the state, one law for each: Doorway. -/

namespace Sys2Proof.Machine

/-! ## DoorwayOps -/

theorem State.setDq_keeps (s : State) : ∀ a1 a2, Keeps [.dwy] s (State.setDq s a1 a2) := by
  intro a1 a2
  have h : Keeps [.dwy] s s := .refl s
  unfold State.setDq
  repeat' (first
      | (with_reducible assumption)
      | ((with_reducible apply Keeps.put_dwy); rfl; first | (with_reducible assumption)) | (dsimp only))

theorem State.setFn_keeps (s : State) : ∀ a1 a2, Keeps [.dwy] s (State.setFn s a1 a2) := by
  intro a1 a2
  have h : Keeps [.dwy] s s := .refl s
  unfold State.setFn
  repeat' (first
      | (with_reducible assumption)
      | ((with_reducible apply Keeps.put_dwy); rfl; first | (with_reducible assumption)) | (dsimp only))

theorem State.setQState_keeps (s : State) : ∀ a1 a2, Keeps [.regs] s (State.setQState s a1 a2) := by
  intro a1 a2
  have h : Keeps [.regs] s s := .refl s
  unfold State.setQState
  repeat' (first
      | (with_reducible assumption) | ((with_reducible apply Keeps.after (State.wf_keeps _ _ _ _ _)); rfl)
      | (dsimp only))

theorem State.haltAll_keeps (s : State) : Keeps [.regs, .dwy] s (State.haltAll s) := by
  have h : Keeps [.regs, .dwy] s s := .refl s
  unfold State.haltAll
  repeat' (first
      | (with_reducible assumption) | ((with_reducible apply Keeps.after (State.setDq_keeps _ _ _)); rfl)
      | ((with_reducible apply Keeps.after (State.setQState_keeps _ _ _)); rfl)
      | (with_reducible refine Keeps.each ?_ fun _ _ _ => ?_) | (with_reducible refine Keeps.ite ?_ ?_)
      | (dsimp only) | split)

theorem State.dwyStop_keeps (s : State) : ∀ a1 a2 a3, Keeps [.regs, .mast, .bell,
    .dwy] s (State.dwyStop s a1 a2 a3) := by
  intro a1 a2 a3
  have h : Keeps [.regs, .mast, .bell, .dwy] s s := .refl s
  unfold State.dwyStop
  repeat' (first
      | (with_reducible assumption) | ((with_reducible apply Keeps.after (State.count_keeps _ _ _ _)); rfl)
      | ((with_reducible apply Keeps.after (State.haltAll_keeps _)); rfl)
      | ((with_reducible apply Keeps.after (State.pulse_keeps _ _)); rfl)
      | ((with_reducible apply Keeps.after (State.setB_keeps _ _ _)); rfl)
      | ((with_reducible apply Keeps.after (State.setDq_keeps _ _ _)); rfl)
      | ((with_reducible apply Keeps.after (State.setQState_keeps _ _ _)); rfl)
      | ((with_reducible apply Keeps.after (State.wf_keeps _ _ _ _ _)); rfl)
      | ((with_reducible apply Keeps.after (State.wrN_keeps _ _ _)); rfl) | (with_reducible refine Keeps.ite ?_ ?_)
      | (dsimp only) | split)

theorem State.cqWrite_keeps (s : State) : ∀ a1 a2 a3, Keeps [.regs, .ecc, .mast, .cel,
    .outbox] s (State.cqWrite s a1 a2 a3) := by
  intro a1 a2 a3
  have h : Keeps [.regs, .ecc, .mast, .cel, .outbox] s s := .refl s
  unfold State.cqWrite
  repeat' (first
      | (with_reducible assumption) | ((with_reducible apply Keeps.after (State.celWrite_keeps _ _ _ _)); rfl)
      | ((with_reducible apply Keeps.after (State.emit_keeps _ _)); rfl) | (with_reducible refine Keeps.ite ?_ ?_)
      | (dsimp only) | split)

theorem State.mirrorWrite_keeps (s : State) : ∀ a1, Keeps [.regs, .ecc, .mast, .cel, .dwy,
    .outbox] s (State.mirrorWrite s a1) := by
  intro a1
  have h : Keeps [.regs, .ecc, .mast, .cel, .dwy, .outbox] s s := .refl s
  unfold State.mirrorWrite
  repeat' (first
      | (with_reducible assumption) | ((with_reducible apply Keeps.after (State.cqWrite_keeps _ _ _ _)); rfl)
      | ((with_reducible apply Keeps.after (State.setDq_keeps _ _ _)); rfl)
      | (with_reducible refine Keeps.ite ?_ ?_) | (dsimp only) | split)

theorem State.qSignal_keeps (s : State) : ∀ a1, Keeps [.regs, .mast, .bell, .attic, .dwy,
    .outbox] s (State.qSignal s a1) := by
  intro a1
  have h : Keeps [.regs, .mast, .bell, .attic, .dwy, .outbox] s s := .refl s
  unfold State.qSignal
  repeat' (first
      | (with_reducible assumption) | ((with_reducible apply Keeps.after (State.count_keeps _ _ _ _)); rfl)
      | ((with_reducible apply Keeps.after (State.emit_keeps _ _)); rfl)
      | ((with_reducible apply Keeps.after (State.raiseVector_keeps _ _ _)); rfl)
      | ((with_reducible apply Keeps.after (State.setDq_keeps _ _ _)); rfl)
      | (with_reducible refine Keeps.ite ?_ ?_)
      | ((with_reducible apply Keeps.put_attic); rfl; (first | exact fun h => h | exact Memory.wf_write _ _ _ _ | exact Memory.wf_erase _ _ _ _); (first | exact fun h => h | exact Memory.wf_write _ _ _ _ | exact Memory.wf_erase _ _ _ _); exact ⟨rfl, rfl, rfl⟩; first | (with_reducible assumption) | ((with_reducible apply Keeps.after (State.count_keeps _ _ _ _)); rfl) | ((with_reducible apply Keeps.after (State.emit_keeps _ _)); rfl) | ((with_reducible apply Keeps.after (State.raiseVector_keeps _ _ _)); rfl) | ((with_reducible apply Keeps.after (State.setDq_keeps _ _ _)); rfl) | (with_reducible refine Keeps.ite ?_ ?_))
      | (dsimp only) | split)

theorem State.moderate_keeps (s : State) : ∀ a1, Keeps [.regs, .mast, .bell, .attic, .dwy,
    .outbox] s (State.moderate s a1) := by
  intro a1
  have h : Keeps [.regs, .mast, .bell, .attic, .dwy, .outbox] s s := .refl s
  unfold State.moderate
  repeat' (first
      | (with_reducible assumption) | ((with_reducible apply Keeps.after (State.qSignal_keeps _ _)); rfl)
      | ((with_reducible apply Keeps.after (State.setDq_keeps _ _ _)); rfl)
      | (with_reducible refine Keeps.ite ?_ ?_) | (dsimp only) | split)

theorem State.cmplPost_keeps (s : State) : ∀ a1 a2, Keeps [.regs, .ecc, .mast, .bell, .cel, .attic, .dwy,
    .outbox] s (State.cmplPost s a1 a2) := by
  intro a1 a2
  have h : Keeps [.regs, .ecc, .mast, .bell, .cel, .attic, .dwy, .outbox] s s := .refl s
  unfold State.cmplPost
  repeat' (first
      | (with_reducible assumption) | ((with_reducible apply Keeps.after (State.count_keeps _ _ _ _)); rfl)
      | ((with_reducible apply Keeps.after (State.cqWrite_keeps _ _ _ _)); rfl)
      | ((with_reducible apply Keeps.after (State.emit_keeps _ _)); rfl)
      | ((with_reducible apply Keeps.after (State.moderate_keeps _ _)); rfl)
      | ((with_reducible apply Keeps.after (State.ownerPass_keeps _ _ _)); rfl)
      | ((with_reducible apply Keeps.after (State.setDq_keeps _ _ _)); rfl)
      | ((with_reducible apply Keeps.after (State.wrN_keeps _ _ _)); rfl) | (with_reducible refine Keeps.ite ?_ ?_)
      | (dsimp only) | split)

theorem State.showHeld_keeps (s : State) : ∀ a1, Keeps [.regs] s (State.showHeld s a1) := by
  intro a1
  have h : Keeps [.regs] s s := .refl s
  unfold State.showHeld
  repeat' (first
      | (with_reducible assumption) | ((with_reducible apply Keeps.after (State.wf_keeps _ _ _ _ _)); rfl)
      | (dsimp only))

theorem State.cqFullSet_keeps (s : State) : ∀ a1, Keeps [.regs, .mast] s (State.cqFullSet s a1) := by
  intro a1
  have h : Keeps [.regs, .mast] s s := .refl s
  unfold State.cqFullSet
  repeat' (first
      | (with_reducible assumption) | ((with_reducible apply Keeps.after (State.count_keeps _ _ _ _)); rfl)
      | ((with_reducible apply Keeps.after (State.setB_keeps _ _ _)); rfl) | (dsimp only))

theorem State.heldFlush_keeps (q n : Nat) (s : State) : Keeps [.regs, .ecc, .mast, .bell, .cel, .attic, .dwy,
    .outbox] s (State.heldFlush q n s) := by
  induction n generalizing s with
  | zero => exact .refl s
  | succ n ih =>
    have h : Keeps [.regs, .ecc, .mast, .bell, .cel, .attic, .dwy, .outbox] s s := .refl s
    unfold State.heldFlush
    repeat' (first
        | with_reducible assumption | ((with_reducible apply Keeps.after (ih _)); rfl)
        | ((with_reducible apply Keeps.after (State.cmplPost_keeps _ _ _)); rfl)
        | ((with_reducible apply Keeps.after (State.setDq_keeps _ _ _)); rfl)
        | ((with_reducible apply Keeps.after (State.showHeld_keeps _ _)); rfl)
        | ((with_reducible apply Keeps.after (State.wf_keeps _ _ _ _ _)); rfl)
        | (with_reducible refine Keeps.ite ?_ ?_) | (dsimp only) | split)

theorem State.cmplGive_keeps (s : State) : ∀ a1 a2, Keeps [.regs, .ecc, .mast, .bell, .cel, .attic, .dwy,
    .outbox] s (State.cmplGive s a1 a2) := by
  intro a1 a2
  have h : Keeps [.regs, .ecc, .mast, .bell, .cel, .attic, .dwy, .outbox] s s := .refl s
  unfold State.cmplGive
  repeat' (first
      | (with_reducible assumption) | ((with_reducible apply Keeps.after (State.cmplPost_keeps _ _ _)); rfl)
      | ((with_reducible apply Keeps.after (State.count_keeps _ _ _ _)); rfl)
      | ((with_reducible apply Keeps.after (State.cqFullSet_keeps _ _)); rfl)
      | ((with_reducible apply Keeps.after (State.setB_keeps _ _ _)); rfl)
      | ((with_reducible apply Keeps.after (State.setDq_keeps _ _ _)); rfl)
      | ((with_reducible apply Keeps.after (State.showHeld_keeps _ _)); rfl)
      | (with_reducible refine Keeps.ite ?_ ?_) | (dsimp only) | split)

theorem State.cmplDiscard_keeps (s : State) : ∀ a1 a2, Keeps [.regs, .ecc, .mast, .cel, .cup,
    .outbox] s (State.cmplDiscard s a1 a2) := by
  intro a1 a2
  have h : Keeps [.regs, .ecc, .mast, .cel, .cup, .outbox] s s := .refl s
  unfold State.cmplDiscard
  repeat' (first
      | (with_reducible assumption) | ((with_reducible apply Keeps.after (State.count_keeps _ _ _ _)); rfl)
      | ((with_reducible apply Keeps.after (State.hwFree_keeps _ _)); rfl) | (with_reducible refine Keeps.ite ?_ ?_)
      | (dsimp only) | split)

theorem State.resetDone_keeps (s : State) : ∀ a1, Keeps [.regs] s (State.resetDone s a1) := by
  intro a1
  have h : Keeps [.regs] s s := .refl s
  unfold State.resetDone
  repeat' (first
      | (with_reducible assumption) | ((with_reducible apply Keeps.after (State.putB_keeps _ _ _ _)); rfl)
      | ((with_reducible apply Keeps.after (State.setQState_keeps _ _ _)); rfl)
      | ((with_reducible apply Keeps.after (State.wf_keeps _ _ _ _ _)); rfl)
      | ((with_reducible apply Keeps.after (State.wr_keeps _ _ _)); rfl) | (with_reducible refine Keeps.ite ?_ ?_)
      | (dsimp only) | split)

theorem State.qReset_keeps (s : State) : ∀ a1, Keeps [.regs, .ecc, .mast, .cel, .cup, .dwy,
    .outbox] s (State.qReset s a1) := by
  intro a1
  have h : Keeps [.regs, .ecc, .mast, .cel, .cup, .dwy, .outbox] s s := .refl s
  unfold State.qReset
  repeat' (first
      | (with_reducible assumption) | ((with_reducible apply Keeps.after (State.cmplDiscard_keeps _ _ _)); rfl)
      | ((with_reducible apply Keeps.after (State.resetDone_keeps _ _)); rfl)
      | ((with_reducible apply Keeps.after (State.setDq_keeps _ _ _)); rfl)
      | ((with_reducible apply Keeps.after (State.setQState_keeps _ _ _)); rfl)
      | (with_reducible refine Keeps.each ?_ fun _ _ _ => ?_) | (with_reducible refine Keeps.ite ?_ ?_)
      | (dsimp only) | split)

/-! ## Doorway -/

theorem State.sqPass_keeps (s : State) : ∀ a1, Keeps [.regs, .mast, .dwy] s (State.sqPass s a1) := by
  intro a1
  have h : Keeps [.regs, .mast, .dwy] s s := .refl s
  unfold State.sqPass
  repeat' (first
      | (with_reducible assumption) | ((with_reducible apply Keeps.after (State.count_keeps _ _ _ _)); rfl)
      | ((with_reducible apply Keeps.after (State.setDq_keeps _ _ _)); rfl)
      | ((with_reducible apply Keeps.after (State.wrN_keeps _ _ _)); rfl) | (dsimp only))

theorem State.owe_keeps (s : State) : ∀ a1 a2, Keeps [.dwy] s (State.owe s a1 a2) := by
  intro a1 a2
  have h : Keeps [.dwy] s s := .refl s
  unfold State.owe
  repeat' (first
      | (with_reducible assumption) | ((with_reducible apply Keeps.after (State.setDq_keeps _ _ _)); rfl)
      | (dsimp only))

theorem State.sendHandle_keeps (s : State) : ∀ a1 a2, Keeps [.regs, .ecc, .mast, .cel,
    .cup] s (State.sendHandle s a1 a2).1 := by
  intro a1 a2
  have h : Keeps [.regs, .ecc, .mast, .cel, .cup] s s := .refl s
  unfold State.sendHandle
  repeat' (first
      | (with_reducible assumption) | ((with_reducible apply Keeps.after (State.cupCheck_keeps _ _ _)); rfl)
      | ((with_reducible apply Keeps.pair); with_reducible assumption) | (with_reducible refine Keeps.ite ?_ ?_)
      | (with_reducible apply Keeps.fst_ite) | (dsimp only) | split)

theorem State.ticketHandle_keeps (s : State) : ∀ a1 a2, Keeps [.regs, .ecc, .mast, .cel,
    .cup] s (State.ticketHandle s a1 a2).1 := by
  intro a1 a2
  have h : Keeps [.regs, .ecc, .mast, .cel, .cup] s s := .refl s
  unfold State.ticketHandle
  repeat' (first
      | (with_reducible assumption) | ((with_reducible apply Keeps.after (State.cupCheck_keeps _ _ _)); rfl)
      | ((with_reducible apply Keeps.pair); with_reducible assumption) | (with_reducible refine Keeps.ite ?_ ?_)
      | (with_reducible apply Keeps.fst_ite) | (dsimp only) | split)

theorem State.sendHand_keeps (s : State) : ∀ a1 a2 a3, Keeps [.regs, .freeCtr, .ecc, .mast, .cel, .cup, .pipe,
    .outbox] s (State.sendHand s a1 a2 a3) := by
  intro a1 a2 a3
  have h : Keeps [.regs, .freeCtr, .ecc, .mast, .cel, .cup, .pipe, .outbox] s s := .refl s
  unfold State.sendHand
  repeat' (first
      | (with_reducible assumption) | ((with_reducible apply Keeps.after (State.handDirect_keeps _ _ _ _ _ _)); rfl)
      | ((with_reducible apply Keeps.after (State.handHead_keeps _ _ _ _ _ _)); rfl)
      | ((with_reducible apply Keeps.after (State.ownerPass_keeps _ _ _)); rfl)
      | (with_reducible refine Keeps.ite ?_ ?_) | (dsimp only) | split)

theorem State.hostTicket_keeps (s : State) : ∀ a1 a2 a3 a4 a5 a6, Keeps [.regs, .freeCtr, .ecc, .mast, .cel, .lft,
    .outbox] s (State.hostTicket s a1 a2 a3 a4 a5 a6).1 := by
  intro a1 a2 a3 a4 a5 a6
  have h : Keeps [.regs, .freeCtr, .ecc, .mast, .cel, .lft, .outbox] s s := .refl s
  unfold State.hostTicket
  repeat' (first
      | (with_reducible assumption) | ((with_reducible apply Keeps.after (State.celWrite_keeps _ _ _ _)); rfl)
      | ((with_reducible apply Keeps.after (State.free_keeps _ _)); rfl)
      | ((with_reducible apply Keeps.after (State.newTicket_keeps _ _)); rfl)
      | ((with_reducible apply Keeps.pair); with_reducible assumption)
      | ((with_reducible apply Keeps.pair_snd); with_reducible assumption) | (with_reducible apply Keeps.fst_ite)
      | (dsimp only) | split)

theorem State.poolWait_keeps (s : State) : ∀ a1, Keeps [.regs, .mast, .dwy] s (State.poolWait s a1) := by
  intro a1
  have h : Keeps [.regs, .mast, .dwy] s s := .refl s
  unfold State.poolWait
  repeat' (first
      | (with_reducible assumption) | ((with_reducible apply Keeps.after (State.count_keeps _ _ _ _)); rfl)
      | ((with_reducible apply Keeps.after (State.setDq_keeps _ _ _)); rfl)
      | (with_reducible refine Keeps.ite ?_ ?_) | (dsimp only) | split)

theorem State.takeDraw_keeps (s : State) : ∀ a1 a2 a3 a4, Keeps [.regs, .ecc, .mast, .cel, .cup, .dwy,
    .outbox] s (State.takeDraw s a1 a2 a3 a4) := by
  intro a1 a2 a3 a4
  have h : Keeps [.regs, .ecc, .mast, .cel, .cup, .dwy, .outbox] s s := .refl s
  unfold State.takeDraw
  repeat' (first
      | (with_reducible assumption) | ((with_reducible apply Keeps.after (State.cupGrant_keeps _ _ _ _)); rfl)
      | ((with_reducible apply Keeps.after (State.emit_keeps _ _)); rfl)
      | ((with_reducible apply Keeps.after (State.owe_keeps _ _ _)); rfl)
      | ((with_reducible apply Keeps.after (State.poolWait_keeps _ _)); rfl)
      | ((with_reducible apply Keeps.after (State.sqPass_keeps _ _)); rfl)
      | ((with_reducible apply Keeps.pair); with_reducible assumption) | (with_reducible refine Keeps.ite ?_ ?_)
      | (with_reducible apply Keeps.fst_ite) | (dsimp only) | split)

theorem State.takeSend_keeps (s : State) : ∀ a1 a2 a3, Keeps [.regs, .freeCtr, .ecc, .mast, .cel, .cup, .dwy, .pipe,
    .outbox] s (State.takeSend s a1 a2 a3) := by
  intro a1 a2 a3
  have h : Keeps [.regs, .freeCtr, .ecc, .mast, .cel, .cup, .dwy, .pipe, .outbox] s s := .refl s
  unfold State.takeSend
  repeat' (first
      | (with_reducible assumption) | ((with_reducible apply Keeps.after (State.celRead_keeps _ _ _ _)); rfl)
      | ((with_reducible apply Keeps.after (State.owe_keeps _ _ _)); rfl)
      | ((with_reducible apply Keeps.after (State.sendHand_keeps _ _ _ _)); rfl)
      | ((with_reducible apply Keeps.after (State.sendHandle_keeps _ _ _)); rfl)
      | ((with_reducible apply Keeps.after (State.sqPass_keeps _ _)); rfl)
      | ((with_reducible apply Keeps.after (State.takeDraw_keeps _ _ _ _ _)); rfl)
      | ((with_reducible apply Keeps.pair); with_reducible assumption) | (with_reducible refine Keeps.ite ?_ ?_)
      | (with_reducible apply Keeps.fst_ite) | (dsimp only) | split)

theorem State.takeTicket_keeps (s : State) : ∀ a1 a2 a3, Keeps [.regs, .freeCtr, .ecc, .mast, .cel, .cup, .dwy, .lft,
    .outbox] s (State.takeTicket s a1 a2 a3) := by
  intro a1 a2 a3
  have h : Keeps [.regs, .freeCtr, .ecc, .mast, .cel, .cup, .dwy, .lft, .outbox] s s := .refl s
  unfold State.takeTicket
  repeat' (first
      | (with_reducible assumption) | ((with_reducible apply Keeps.after (State.celRead_keeps _ _ _ _)); rfl)
      | ((with_reducible apply Keeps.after (State.hostTicket_keeps _ _ _ _ _ _ _)); rfl)
      | ((with_reducible apply Keeps.after (State.owe_keeps _ _ _)); rfl)
      | ((with_reducible apply Keeps.after (State.sqPass_keeps _ _)); rfl)
      | ((with_reducible apply Keeps.after (State.takeDraw_keeps _ _ _ _ _)); rfl)
      | ((with_reducible apply Keeps.after (State.ticketHandle_keeps _ _ _)); rfl)
      | ((with_reducible apply Keeps.pair); with_reducible assumption) | (with_reducible refine Keeps.ite ?_ ?_)
      | (with_reducible apply Keeps.fst_ite) | (dsimp only) | split)

theorem State.takeEntry_keeps {l : List Part} {u s : State} {q : Nat} {mine : Entry → Bool}
    {act : State → Entry → List Word → State}
    (hl : [Part.regs, .mast, .bell, .dwy].all (fun p => l.contains p) = true)
    (hf : ∀ t e ws, Keeps l u t → Keeps l u (act t e ws)) (h : Keeps l u s) : Keeps l u (s.takeEntry q mine act) := by
  unfold State.takeEntry
  split
  · exact h
  · dsimp only
    split
    · exact h
    · split
      · exact h.trans ((State.dwyStop_keeps _ _ _ _).mono hl)
      · exact hf _ _ _ h

theorem execNopEntry_keeps (s : State) : ∀ a0, ∃ t, (execNopEntry a0 s) = .next t ∧ Keeps [.regs, .mast, .bell,
    .dwy] s t := by
  intro a0
  have h : Keeps [.regs, .mast, .bell, .dwy] s s := .refl s
  unfold execNopEntry
  repeat' (first | (with_reducible apply Keeps.next) | (with_reducible apply Keeps.next_ite) | dsimp only | split)
  all_goals repeat' (first
      | (with_reducible assumption) | ((with_reducible apply Keeps.after (State.owe_keeps _ _ _)); rfl)
      | ((with_reducible apply Keeps.after (State.sqPass_keeps _ _)); rfl)
      | (with_reducible refine State.takeEntry_keeps rfl (fun _ _ _ _ => ?_) ?_)
      | (with_reducible apply Keeps.fst_ite) | (dsimp only))

theorem execSendPipeline_keeps (s : State) : ∀ a0, ∃ t, (execSendPipeline a0 s) = .next t ∧ Keeps [.regs, .freeCtr,
    .ecc, .mast, .bell, .cel, .cup, .dwy, .pipe, .outbox] s t := by
  intro a0
  have h : Keeps [.regs, .freeCtr, .ecc, .mast, .bell, .cel, .cup, .dwy, .pipe, .outbox] s s := .refl s
  unfold execSendPipeline
  repeat' (first | (with_reducible apply Keeps.next) | (with_reducible apply Keeps.next_ite) | dsimp only | split)
  all_goals repeat' (first
      | (with_reducible assumption) | ((with_reducible apply Keeps.after (State.takeSend_keeps _ _ _ _)); rfl)
      | (with_reducible refine State.takeEntry_keeps rfl (fun _ _ _ _ => ?_) ?_)
      | (with_reducible apply Keeps.fst_ite) | (dsimp only))

theorem execSendDirect_keeps (s : State) : ∀ a0, ∃ t, (execSendDirect a0 s) = .next t ∧ Keeps [.regs, .freeCtr, .ecc,
    .mast, .bell, .cel, .cup, .dwy, .pipe, .outbox] s t := by
  intro a0
  have h : Keeps [.regs, .freeCtr, .ecc, .mast, .bell, .cel, .cup, .dwy, .pipe, .outbox] s s := .refl s
  unfold execSendDirect
  repeat' (first | (with_reducible apply Keeps.next) | (with_reducible apply Keeps.next_ite) | dsimp only | split)
  all_goals repeat' (first
      | (with_reducible assumption) | ((with_reducible apply Keeps.after (State.takeSend_keeps _ _ _ _)); rfl)
      | (with_reducible refine State.takeEntry_keeps rfl (fun _ _ _ _ => ?_) ?_)
      | (with_reducible apply Keeps.fst_ite) | (dsimp only))

theorem execTicketEntry_keeps (s : State) : ∀ a0, ∃ t, (execTicketEntry a0 s) = .next t ∧ Keeps [.regs, .freeCtr,
    .ecc, .mast, .bell, .cel, .cup, .dwy, .lft, .outbox] s t := by
  intro a0
  have h : Keeps [.regs, .freeCtr, .ecc, .mast, .bell, .cel, .cup, .dwy, .lft, .outbox] s s := .refl s
  unfold execTicketEntry
  repeat' (first | (with_reducible apply Keeps.next) | (with_reducible apply Keeps.next_ite) | dsimp only | split)
  all_goals repeat' (first
      | (with_reducible assumption) | ((with_reducible apply Keeps.after (State.takeTicket_keeps _ _ _ _)); rfl)
      | (with_reducible refine State.takeEntry_keeps rfl (fun _ _ _ _ => ?_) ?_)
      | (with_reducible apply Keeps.fst_ite) | (dsimp only))

theorem execRecvEntry_keeps (s : State) : ∀ a0, ∃ t, (execRecvEntry a0 s) = .next t ∧ Keeps [.regs, .mast, .bell,
    .dwy] s t := by
  intro a0
  have h : Keeps [.regs, .mast, .bell, .dwy] s s := .refl s
  unfold execRecvEntry
  repeat' (first | (with_reducible apply Keeps.next) | (with_reducible apply Keeps.next_ite) | dsimp only | split)
  all_goals repeat' (first
      | (with_reducible assumption) | ((with_reducible apply Keeps.after (State.setDq_keeps _ _ _)); rfl)
      | ((with_reducible apply Keeps.after (State.sqPass_keeps _ _)); rfl)
      | (with_reducible refine State.takeEntry_keeps rfl (fun _ _ _ _ => ?_) ?_)
      | (with_reducible apply Keeps.fst_ite) | (dsimp only))

theorem execEntryFetch_keeps (s : State) : ∀ a0 a1, ∃ t, (execEntryFetch a0 a1 s) = .next t ∧ Keeps [.regs, .ecc,
    .mast, .cel, .dwy, .outbox] s t := by
  intro a0 a1
  have h : Keeps [.regs, .ecc, .mast, .cel, .dwy, .outbox] s s := .refl s
  unfold execEntryFetch
  repeat' (first | (with_reducible apply Keeps.next) | (with_reducible apply Keeps.next_ite) | dsimp only | split)
  all_goals repeat' (first
      | (with_reducible assumption) | ((with_reducible apply Keeps.after (State.celRead_keeps _ _ _ _)); rfl)
      | ((with_reducible apply Keeps.after (State.emit_keeps _ _)); rfl)
      | ((with_reducible apply Keeps.after (State.setDq_keeps _ _ _)); rfl)
      | ((with_reducible apply Keeps.pair); with_reducible assumption) | (with_reducible refine Keeps.ite ?_ ?_)
      | (with_reducible apply Keeps.fst_ite) | (dsimp only) | split)

theorem execHostDmaCompletion_keeps (s : State) : ∀ a0 a1 a2, ∃ t, (execHostDmaCompletion a0 a1 a2 s) = .next t ∧ Keeps [.regs,
    .freeCtr, .ecc, .mast, .cel, .cup, .dwy, .lft, .pipe, .outbox] s t := by
  intro a0 a1 a2
  have h : Keeps [.regs, .freeCtr, .ecc, .mast, .cel, .cup, .dwy, .lft, .pipe, .outbox] s s := .refl s
  unfold execHostDmaCompletion
  repeat' (first | (with_reducible apply Keeps.next) | (with_reducible apply Keeps.next_ite) | dsimp only | split)
  all_goals repeat' (first
      | (with_reducible assumption) | ((with_reducible apply Keeps.after (State.celWrite_keeps _ _ _ _)); rfl)
      | ((with_reducible apply Keeps.after (State.hostTicket_keeps _ _ _ _ _ _ _)); rfl)
      | ((with_reducible apply Keeps.after (State.hwFree_keeps _ _)); rfl)
      | ((with_reducible apply Keeps.after (State.sendHand_keeps _ _ _ _)); rfl)
      | ((with_reducible apply Keeps.after (State.setDq_keeps _ _ _)); rfl)
      | ((with_reducible apply Keeps.pair); with_reducible assumption) | (with_reducible refine Keeps.ite ?_ ?_)
      | (with_reducible apply Keeps.fst_ite) | (dsimp only) | split)

theorem execCompletionWrite_keeps (s : State) : ∀ a0, ∃ t, (execCompletionWrite a0 s) = .next t ∧ Keeps [.regs, .ecc,
    .mast, .bell, .cel, .attic, .cup, .dwy, .outbox] s t := by
  intro a0
  have h : Keeps [.regs, .ecc, .mast, .bell, .cel, .attic, .cup, .dwy, .outbox] s s := .refl s
  unfold execCompletionWrite
  repeat' (first | (with_reducible apply Keeps.next) | (with_reducible apply Keeps.next_ite) | dsimp only | split)
  all_goals repeat' (first
      | (with_reducible assumption) | ((with_reducible apply Keeps.after (State.cmplDiscard_keeps _ _ _)); rfl)
      | ((with_reducible apply Keeps.after (State.cmplGive_keeps _ _ _)); rfl)
      | ((with_reducible apply Keeps.after (State.count_keeps _ _ _ _)); rfl)
      | ((with_reducible apply Keeps.after (State.mirrorWrite_keeps _ _)); rfl)
      | ((with_reducible apply Keeps.after (State.resetDone_keeps _ _)); rfl)
      | ((with_reducible apply Keeps.after (State.setDq_keeps _ _ _)); rfl)
      | (with_reducible refine Keeps.ite ?_ ?_) | (with_reducible apply Keeps.fst_ite) | (dsimp only) | split)

theorem execCompletionSignal_keeps (s : State) : ∀ a0, ∃ t, (execCompletionSignal a0 s) = .next t ∧ Keeps [.regs,
    .mast, .bell, .attic, .dwy, .outbox] s t := by
  intro a0
  have h : Keeps [.regs, .mast, .bell, .attic, .dwy, .outbox] s s := .refl s
  unfold execCompletionSignal
  repeat' (first | (with_reducible apply Keeps.next) | (with_reducible apply Keeps.next_ite) | dsimp only | split)
  all_goals repeat' (first
      | (with_reducible assumption) | ((with_reducible apply Keeps.after (State.qSignal_keeps _ _)); rfl)
      | (with_reducible refine Keeps.ite ?_ ?_) | (with_reducible apply Keeps.fst_ite) | (dsimp only) | split)

theorem State.hostDeliver_keeps (s : State) : ∀ a1 a2 a3 a4, Keeps [.regs, .ecc, .mast, .cel, .cup, .dwy,
    .outbox] s (State.hostDeliver s a1 a2 a3 a4).1 := by
  intro a1 a2 a3 a4
  have h : Keeps [.regs, .ecc, .mast, .cel, .cup, .dwy, .outbox] s s := .refl s
  unfold State.hostDeliver
  repeat' (first
      | (with_reducible assumption) | ((with_reducible apply Keeps.after (State.celRead_keeps _ _ _ _)); rfl)
      | ((with_reducible apply Keeps.after (State.celWrite_keeps _ _ _ _)); rfl)
      | ((with_reducible apply Keeps.after (State.hwFree_keeps _ _)); rfl)
      | ((with_reducible apply Keeps.after (State.owe_keeps _ _ _)); rfl)
      | ((with_reducible apply Keeps.after (State.setDq_keeps _ _ _)); rfl)
      | ((with_reducible apply Keeps.pair); with_reducible assumption) | (with_reducible refine Keeps.ite ?_ ?_)
      | (with_reducible apply Keeps.fst_ite) | (dsimp only) | split)

theorem State.sqPiWrite_keeps (s : State) : ∀ a1 a2, Keeps [.regs, .mast, .bell,
    .dwy] s (State.sqPiWrite s a1 a2) := by
  intro a1 a2
  have h : Keeps [.regs, .mast, .bell, .dwy] s s := .refl s
  unfold State.sqPiWrite
  repeat' (first
      | (with_reducible assumption) | ((with_reducible apply Keeps.after (State.dwyStop_keeps _ _ _ _)); rfl)
      | ((with_reducible apply Keeps.after (State.plainWrite_keeps _ _ _)); rfl)
      | (with_reducible refine Keeps.ite ?_ ?_) | (dsimp only) | split)

theorem execSqDoorbell_keeps (s : State) : ∀ a0 a1, ∃ t, (execSqDoorbell a0 a1 s) = .next t ∧ Keeps [.regs, .mast,
    .bell, .dwy] s t := by
  intro a0 a1
  have h : Keeps [.regs, .mast, .bell, .dwy] s s := .refl s
  unfold execSqDoorbell
  repeat' (first | (with_reducible apply Keeps.next) | (with_reducible apply Keeps.next_ite) | dsimp only | split)
  all_goals repeat' (first
      | (with_reducible assumption) | ((with_reducible apply Keeps.after (State.sqPiWrite_keeps _ _ _)); rfl)
      | (with_reducible apply Keeps.fst_ite) | (dsimp only))

theorem State.cqCiWrite_keeps (s : State) : ∀ a1 a2, Keeps [.regs, .ecc, .mast, .bell, .cel, .attic, .dwy,
    .outbox] s (State.cqCiWrite s a1 a2) := by
  intro a1 a2
  have h : Keeps [.regs, .ecc, .mast, .bell, .cel, .attic, .dwy, .outbox] s s := .refl s
  unfold State.cqCiWrite
  repeat' (first
      | (with_reducible assumption) | ((with_reducible apply Keeps.after (State.heldFlush_keeps _ _ _)); rfl)
      | ((with_reducible apply Keeps.after (State.mirrorWrite_keeps _ _)); rfl)
      | ((with_reducible apply Keeps.after (State.plainWrite_keeps _ _ _)); rfl)
      | ((with_reducible apply Keeps.after (State.setB_keeps _ _ _)); rfl) | (with_reducible refine Keeps.ite ?_ ?_)
      | (dsimp only) | split)

theorem execCqCiWrite_keeps (s : State) : ∀ a0 a1, ∃ t, (execCqCiWrite a0 a1 s) = .next t ∧ Keeps [.regs, .ecc,
    .mast, .bell, .cel, .attic, .dwy, .outbox] s t := by
  intro a0 a1
  have h : Keeps [.regs, .ecc, .mast, .bell, .cel, .attic, .dwy, .outbox] s s := .refl s
  unfold execCqCiWrite
  repeat' (first | (with_reducible apply Keeps.next) | (with_reducible apply Keeps.next_ite) | dsimp only | split)
  all_goals repeat' (first
      | (with_reducible assumption) | ((with_reducible apply Keeps.after (State.cqCiWrite_keeps _ _ _)); rfl)
      | (with_reducible apply Keeps.fst_ite) | (dsimp only))

theorem State.qPause_keeps (s : State) : ∀ a1, Keeps [.regs] s (State.qPause s a1) := by
  intro a1
  have h : Keeps [.regs] s s := .refl s
  unfold State.qPause
  repeat' (first
      | (with_reducible assumption) | ((with_reducible apply Keeps.after (State.setQState_keeps _ _ _)); rfl)
      | (with_reducible refine Keeps.ite ?_ ?_) | (dsimp only) | split)

theorem State.qResume_keeps (s : State) : ∀ a1, Keeps [.regs, .dwy] s (State.qResume s a1) := by
  intro a1
  have h : Keeps [.regs, .dwy] s s := .refl s
  unfold State.qResume
  repeat' (first
      | (with_reducible assumption) | ((with_reducible apply Keeps.after (State.setB_keeps _ _ _)); rfl)
      | ((with_reducible apply Keeps.after (State.setDq_keeps _ _ _)); rfl)
      | ((with_reducible apply Keeps.after (State.setQState_keeps _ _ _)); rfl)
      | ((with_reducible apply Keeps.after (State.wf_keeps _ _ _ _ _)); rfl)
      | (with_reducible refine Keeps.ite ?_ ?_) | (dsimp only) | split)

theorem execQpPause_keeps (s : State) : ∀ a0, ∃ t, (execQpPause a0 s) = .next t ∧ Keeps [.regs] s t := by
  intro a0
  have h : Keeps [.regs] s s := .refl s
  unfold execQpPause
  repeat' (first | (with_reducible apply Keeps.next) | (with_reducible apply Keeps.next_ite) | dsimp only | split)
  all_goals repeat' (first
      | (with_reducible assumption) | ((with_reducible apply Keeps.after (State.qPause_keeps _ _)); rfl)
      | (with_reducible apply Keeps.fst_ite) | (dsimp only))

theorem execQpResume_keeps (s : State) : ∀ a0, ∃ t, (execQpResume a0 s) = .next t ∧ Keeps [.regs, .dwy] s t := by
  intro a0
  have h : Keeps [.regs, .dwy] s s := .refl s
  unfold execQpResume
  repeat' (first | (with_reducible apply Keeps.next) | (with_reducible apply Keeps.next_ite) | dsimp only | split)
  all_goals repeat' (first
      | (with_reducible assumption) | ((with_reducible apply Keeps.after (State.qResume_keeps _ _)); rfl)
      | (with_reducible apply Keeps.fst_ite) | (dsimp only))

theorem execQpReset_keeps (s : State) : ∀ a0, ∃ t, (execQpReset a0 s) = .next t ∧ Keeps [.regs, .ecc, .mast, .cel,
    .cup, .dwy, .outbox] s t := by
  intro a0
  have h : Keeps [.regs, .ecc, .mast, .cel, .cup, .dwy, .outbox] s s := .refl s
  unfold execQpReset
  repeat' (first | (with_reducible apply Keeps.next) | (with_reducible apply Keeps.next_ite) | dsimp only | split)
  all_goals repeat' (first
      | (with_reducible assumption) | ((with_reducible apply Keeps.after (State.qReset_keeps _ _)); rfl)
      | (with_reducible apply Keeps.fst_ite) | (dsimp only))

theorem State.haltClear_keeps (s : State) : Keeps [.regs] s (State.haltClear s) := by
  have h : Keeps [.regs] s s := .refl s
  unfold State.haltClear
  repeat' (first
      | (with_reducible assumption) | ((with_reducible apply Keeps.after (State.putB_keeps _ _ _ _)); rfl)
      | ((with_reducible apply Keeps.after (State.setQState_keeps _ _ _)); rfl)
      | (with_reducible refine Keeps.each ?_ fun _ _ _ => ?_) | (with_reducible refine Keeps.ite ?_ ?_)
      | (dsimp only) | split)

theorem execHaltClear_keeps (s : State) : ∃ t, (execHaltClear s) = .next t ∧ Keeps [.regs] s t := by
  have h : Keeps [.regs] s s := .refl s
  unfold execHaltClear
  repeat' (first | (with_reducible apply Keeps.next) | (with_reducible apply Keeps.next_ite) | dsimp only | split)
  all_goals repeat' (first
      | (with_reducible assumption) | ((with_reducible apply Keeps.after (State.haltClear_keeps _)); rfl)
      | (with_reducible apply Keeps.fst_ite) | (dsimp only))

theorem State.qpCfgWrite_keeps (s : State) : ∀ a1 a2, Keeps [.regs, .ecc, .mast, .cel, .cup, .dwy,
    .outbox] s (State.qpCfgWrite s a1 a2) := by
  intro a1 a2
  have h : Keeps [.regs, .ecc, .mast, .cel, .cup, .dwy, .outbox] s s := .refl s
  unfold State.qpCfgWrite
  repeat' (first
      | (with_reducible assumption) | ((with_reducible apply Keeps.after (State.plainWrite_keeps _ _ _)); rfl)
      | ((with_reducible apply Keeps.after (State.qReset_keeps _ _)); rfl)
      | ((with_reducible apply Keeps.after (State.setB_keeps _ _ _)); rfl)
      | ((with_reducible apply Keeps.after (State.setDq_keeps _ _ _)); rfl)
      | ((with_reducible apply Keeps.after (State.setQState_keeps _ _ _)); rfl)
      | ((with_reducible apply Keeps.after (State.wr_keeps _ _ _)); rfl) | (with_reducible refine Keeps.ite ?_ ?_)
      | (dsimp only) | split)

theorem execQpEnable_keeps (s : State) : ∀ a0 a1, ∃ t, (execQpEnable a0 a1 s) = .next t ∧ Keeps [.regs, .ecc, .mast,
    .cel, .cup, .dwy, .outbox] s t := by
  intro a0 a1
  have h : Keeps [.regs, .ecc, .mast, .cel, .cup, .dwy, .outbox] s s := .refl s
  unfold execQpEnable
  repeat' (first | (with_reducible apply Keeps.next) | (with_reducible apply Keeps.next_ite) | dsimp only | split)
  all_goals repeat' (first
      | (with_reducible assumption) | ((with_reducible apply Keeps.after (State.qpCfgWrite_keeps _ _ _)); rfl)
      | (with_reducible apply Keeps.fst_ite) | (dsimp only))

theorem State.fnQpWrite_keeps (s : State) : ∀ a1 a2, Keeps [.regs] s (State.fnQpWrite s a1 a2) := by
  intro a1 a2
  have h : Keeps [.regs] s s := .refl s
  unfold State.fnQpWrite
  repeat' (first
      | (with_reducible assumption) | ((with_reducible apply Keeps.after (State.plainWrite_keeps _ _ _)); rfl)
      | ((with_reducible apply Keeps.after (State.setB_keeps _ _ _)); rfl)
      | ((with_reducible apply Keeps.after (State.wf_keeps _ _ _ _ _)); rfl)
      | (with_reducible refine Keeps.ite ?_ ?_) | (dsimp only) | split)

theorem execFnQpWrite_keeps (s : State) : ∀ a0 a1, ∃ t, (execFnQpWrite a0 a1 s) = .next t ∧ Keeps [.regs] s t := by
  intro a0 a1
  have h : Keeps [.regs] s s := .refl s
  unfold execFnQpWrite
  repeat' (first | (with_reducible apply Keeps.next) | (with_reducible apply Keeps.next_ite) | dsimp only | split)
  all_goals repeat' (first
      | (with_reducible assumption) | ((with_reducible apply Keeps.after (State.fnQpWrite_keeps _ _ _)); rfl)
      | (with_reducible apply Keeps.fst_ite) | (dsimp only))

theorem State.fnFmtWrite_keeps (s : State) : ∀ a1 a2, Keeps [.regs] s (State.fnFmtWrite s a1 a2) := by
  intro a1 a2
  have h : Keeps [.regs] s s := .refl s
  unfold State.fnFmtWrite
  repeat' (first
      | (with_reducible assumption) | ((with_reducible apply Keeps.after (State.setB_keeps _ _ _)); rfl)
      | ((with_reducible apply Keeps.after (State.wf_keeps _ _ _ _ _)); rfl)
      | (with_reducible refine Keeps.ite ?_ ?_) | (dsimp only) | split)

theorem execFormatGenWrite_keeps (s : State) : ∀ a0 a1, ∃ t, (execFormatGenWrite a0 a1 s) = .next t ∧ Keeps [.regs] s t := by
  intro a0 a1
  have h : Keeps [.regs] s s := .refl s
  unfold execFormatGenWrite
  repeat' (first | (with_reducible apply Keeps.next) | (with_reducible apply Keeps.next_ite) | dsimp only | split)
  all_goals repeat' (first
      | (with_reducible assumption) | ((with_reducible apply Keeps.after (State.fnFmtWrite_keeps _ _ _)); rfl)
      | (with_reducible apply Keeps.fst_ite) | (dsimp only))

theorem State.holdBaseWrite_keeps (s : State) : ∀ a1, Keeps [.regs] s (State.holdBaseWrite s a1) := by
  intro a1
  have h : Keeps [.regs] s s := .refl s
  unfold State.holdBaseWrite
  repeat' (first
      | (with_reducible assumption) | ((with_reducible apply Keeps.after (State.wr64_keeps _ _ _)); rfl)
      | (with_reducible refine Keeps.ite ?_ ?_) | (dsimp only) | split)

theorem State.linkCapWrite_keeps (s : State) : ∀ a1, Keeps [.regs] s (State.linkCapWrite s a1) := by
  intro a1
  have h : Keeps [.regs] s s := .refl s
  unfold State.linkCapWrite
  repeat' (first
      | (with_reducible assumption) | ((with_reducible apply Keeps.after (State.plainWrite_keeps _ _ _)); rfl)
      | (with_reducible refine Keeps.ite ?_ ?_) | (dsimp only) | split)

theorem State.dwyRegWrite_keeps (s : State) : ∀ a1 a2, Keeps [.regs, .ecc, .mast, .bell, .cel, .attic, .cup, .dwy,
    .outbox] s (State.dwyRegWrite s a1 a2) := by
  intro a1 a2
  have h : Keeps [.regs, .ecc, .mast, .bell, .cel, .attic, .cup, .dwy, .outbox] s s := .refl s
  unfold State.dwyRegWrite
  repeat' (first
      | (with_reducible assumption) | ((with_reducible apply Keeps.after (State.cqCiWrite_keeps _ _ _)); rfl)
      | ((with_reducible apply Keeps.after (State.fnFmtWrite_keeps _ _ _)); rfl)
      | ((with_reducible apply Keeps.after (State.fnQpWrite_keeps _ _ _)); rfl)
      | ((with_reducible apply Keeps.after (State.haltClear_keeps _)); rfl)
      | ((with_reducible apply Keeps.after (State.holdBaseWrite_keeps _ _)); rfl)
      | ((with_reducible apply Keeps.after (State.linkCapWrite_keeps _ _)); rfl)
      | ((with_reducible apply Keeps.after (State.plainWrite_keeps _ _ _)); rfl)
      | ((with_reducible apply Keeps.after (State.qPause_keeps _ _)); rfl)
      | ((with_reducible apply Keeps.after (State.qReset_keeps _ _)); rfl)
      | ((with_reducible apply Keeps.after (State.qResume_keeps _ _)); rfl)
      | ((with_reducible apply Keeps.after (State.qpCfgWrite_keeps _ _ _)); rfl)
      | ((with_reducible apply Keeps.after (State.sqPiWrite_keeps _ _ _)); rfl)
      | (with_reducible refine Keeps.ite ?_ ?_) | (dsimp only) | split)

theorem execHostSleepEnter_keeps (s : State) : ∀ a0 a1, ∃ t, (execHostSleepEnter a0 a1 s) = .next t ∧ Keeps [.dwy] s t := by
  intro a0 a1
  have h : Keeps [.dwy] s s := .refl s
  unfold execHostSleepEnter
  repeat' (first | (with_reducible apply Keeps.next) | (with_reducible apply Keeps.next_ite) | dsimp only | split)
  all_goals repeat' (first
      | (with_reducible assumption) | ((with_reducible apply Keeps.after (State.setFn_keeps _ _ _)); rfl)
      | (with_reducible refine Keeps.ite ?_ ?_) | (with_reducible apply Keeps.fst_ite)
      | ((with_reducible apply Keeps.put_dwy); rfl; first | (with_reducible assumption) | ((with_reducible apply Keeps.after (State.setFn_keeps _ _ _)); rfl) | (with_reducible refine Keeps.ite ?_ ?_) | (with_reducible apply Keeps.fst_ite))
      | (dsimp only) | split)

theorem State.fnCatchUp_keeps (s : State) : ∀ a1, Keeps [.regs, .ecc, .mast, .bell, .cel, .attic, .dwy,
    .outbox] s (State.fnCatchUp s a1) := by
  intro a1
  have h : Keeps [.regs, .ecc, .mast, .bell, .cel, .attic, .dwy, .outbox] s s := .refl s
  unfold State.fnCatchUp
  repeat' (first
      | (with_reducible assumption) | ((with_reducible apply Keeps.after (State.cqFullSet_keeps _ _)); rfl)
      | ((with_reducible apply Keeps.after (State.heldFlush_keeps _ _ _)); rfl)
      | ((with_reducible apply Keeps.after (State.mirrorWrite_keeps _ _)); rfl)
      | ((with_reducible apply Keeps.after (State.qSignal_keeps _ _)); rfl)
      | ((with_reducible apply Keeps.after (State.wf_keeps _ _ _ _ _)); rfl)
      | (with_reducible refine Keeps.each ?_ fun _ _ _ => ?_) | (with_reducible refine Keeps.ite ?_ ?_)
      | (dsimp only) | split)

theorem execHostWake_keeps (s : State) : ∀ a0, ∃ t, (execHostWake a0 s) = .next t ∧ Keeps [.regs, .ecc, .mast, .bell,
    .cel, .attic, .dwy, .outbox] s t := by
  intro a0
  have h : Keeps [.regs, .ecc, .mast, .bell, .cel, .attic, .dwy, .outbox] s s := .refl s
  unfold execHostWake
  repeat' (first | (with_reducible apply Keeps.next) | (with_reducible apply Keeps.next_ite) | dsimp only | split)
  all_goals repeat' (first
      | (with_reducible assumption) | ((with_reducible apply Keeps.after (State.fnCatchUp_keeps _ _)); rfl)
      | ((with_reducible apply Keeps.after (State.setFn_keeps _ _ _)); rfl)
      | (with_reducible refine Keeps.ite ?_ ?_) | (with_reducible apply Keeps.fst_ite)
      | (first | ((with_reducible apply Keeps.put_attic); rfl; (first | exact fun h => h | exact Memory.wf_write _ _ _ _ | exact Memory.wf_erase _ _ _ _); (first | exact fun h => h | exact Memory.wf_write _ _ _ _ | exact Memory.wf_erase _ _ _ _); exact ⟨rfl, rfl, rfl⟩; first | (with_reducible assumption) | ((with_reducible apply Keeps.after (State.fnCatchUp_keeps _ _)); rfl) | ((with_reducible apply Keeps.after (State.setFn_keeps _ _ _)); rfl) | (with_reducible refine Keeps.ite ?_ ?_) | (with_reducible apply Keeps.fst_ite)) | ((with_reducible apply Keeps.put_dwy); rfl; first | (with_reducible assumption) | ((with_reducible apply Keeps.after (State.fnCatchUp_keeps _ _)); rfl) | ((with_reducible apply Keeps.after (State.setFn_keeps _ _ _)); rfl) | (with_reducible refine Keeps.ite ?_ ?_) | (with_reducible apply Keeps.fst_ite)) | ((with_reducible apply Keeps.put_attic_dwy); rfl; rfl; (first | exact fun h => h | exact Memory.wf_write _ _ _ _ | exact Memory.wf_erase _ _ _ _); (first | exact fun h => h | exact Memory.wf_write _ _ _ _ | exact Memory.wf_erase _ _ _ _); exact ⟨rfl, rfl, rfl⟩; first | (with_reducible assumption) | ((with_reducible apply Keeps.after (State.fnCatchUp_keeps _ _)); rfl) | ((with_reducible apply Keeps.after (State.setFn_keeps _ _ _)); rfl) | (with_reducible refine Keeps.ite ?_ ?_) | (with_reducible apply Keeps.fst_ite)))
      | (dsimp only) | split)

theorem State.fnReset_keeps (s : State) : ∀ a1, Keeps [.regs, .ecc, .mast, .bell, .cel, .cup, .dwy,
    .outbox] s (State.fnReset s a1) := by
  intro a1
  have h : Keeps [.regs, .ecc, .mast, .bell, .cel, .cup, .dwy, .outbox] s s := .refl s
  unfold State.fnReset
  repeat' (first
      | (with_reducible assumption) | ((with_reducible apply Keeps.after (State.bellFnReset_keeps _ _)); rfl)
      | ((with_reducible apply Keeps.after (State.cupFree_keeps _ _ _ _)); rfl)
      | ((with_reducible apply Keeps.after (State.qReset_keeps _ _)); rfl)
      | ((with_reducible apply Keeps.after (State.resetRegs_keeps _ _ _)); rfl)
      | ((with_reducible apply Keeps.after (State.setFn_keeps _ _ _)); rfl)
      | ((with_reducible apply Keeps.after (State.setQState_keeps _ _ _)); rfl)
      | ((with_reducible apply Keeps.after (State.wf_keeps _ _ _ _ _)); rfl)
      | ((with_reducible apply Keeps.after (State.wr_keeps _ _ _)); rfl)
      | (with_reducible refine Keeps.each ?_ fun _ _ _ => ?_)
      | ((with_reducible apply Keeps.pair); with_reducible assumption) | (with_reducible refine Keeps.ite ?_ ?_)
      | (with_reducible apply Keeps.fst_ite)
      | ((with_reducible apply Keeps.put_dwy); rfl; first | (with_reducible assumption) | ((with_reducible apply Keeps.after (State.bellFnReset_keeps _ _)); rfl) | ((with_reducible apply Keeps.after (State.cupFree_keeps _ _ _ _)); rfl) | ((with_reducible apply Keeps.after (State.qReset_keeps _ _)); rfl) | ((with_reducible apply Keeps.after (State.resetRegs_keeps _ _ _)); rfl) | ((with_reducible apply Keeps.after (State.setFn_keeps _ _ _)); rfl) | ((with_reducible apply Keeps.after (State.setQState_keeps _ _ _)); rfl) | ((with_reducible apply Keeps.after (State.wf_keeps _ _ _ _ _)); rfl) | ((with_reducible apply Keeps.after (State.wr_keeps _ _ _)); rfl) | (with_reducible refine Keeps.each ?_ fun _ _ _ => ?_) | ((with_reducible apply Keeps.pair); with_reducible assumption) | (with_reducible refine Keeps.ite ?_ ?_) | (with_reducible apply Keeps.fst_ite))
      | (dsimp only) | split)

theorem State.vfsOff_keeps (s : State) : Keeps [.regs, .ecc, .mast, .bell, .cel, .cup, .dwy,
    .outbox] s (State.vfsOff s) := by
  have h : Keeps [.regs, .ecc, .mast, .bell, .cel, .cup, .dwy, .outbox] s s := .refl s
  unfold State.vfsOff
  repeat' (first
      | (with_reducible assumption) | ((with_reducible apply Keeps.after (State.fnReset_keeps _ _)); rfl)
      | ((with_reducible apply Keeps.after (State.setFn_keeps _ _ _)); rfl)
      | (with_reducible refine Keeps.each ?_ fun _ _ _ => ?_) | (with_reducible refine Keeps.ite ?_ ?_)
      | (dsimp only) | split)

theorem execFunctionLevelReset_keeps (s : State) : ∀ a0, ∃ t, (execFunctionLevelReset a0 s) = .next t ∧ Keeps [.regs,
    .ecc, .mast, .bell, .cel, .cup, .dwy, .outbox] s t := by
  intro a0
  have h : Keeps [.regs, .ecc, .mast, .bell, .cel, .cup, .dwy, .outbox] s s := .refl s
  unfold execFunctionLevelReset
  repeat' (first | (with_reducible apply Keeps.next) | (with_reducible apply Keeps.next_ite) | dsimp only | split)
  all_goals repeat' (first
      | (with_reducible assumption) | ((with_reducible apply Keeps.after (State.fnReset_keeps _ _)); rfl)
      | ((with_reducible apply Keeps.after (State.vfsOff_keeps _)); rfl) | (with_reducible refine Keeps.ite ?_ ?_)
      | (with_reducible apply Keeps.fst_ite) | (dsimp only) | split)

theorem State.dwyReset_keeps (s : State) : Keeps [.regs, .ecc, .mast, .bell, .cel, .cup, .dwy,
    .outbox] s (State.dwyReset s) := by
  have k4 : Keeps [.regs, .ecc, .mast, .bell, .cel, .cup, .dwy,
      .outbox] s (((((((if s.rb dwyLinkStatus 31 then s.count evDwyLinkDown 0 0 else s).wr dwyHalt 0).wr dwyHaltLoc 0).fnReset 0).fnReset 1).vfsOff).wr dwyLinkStatus 0) := by
    have h : Keeps [.regs, .ecc, .mast, .bell, .cel, .cup, .dwy, .outbox] s s := .refl s
    repeat' (first
        | with_reducible assumption | ((with_reducible apply Keeps.after (State.count_keeps _ _ _ _)); rfl)
        | ((with_reducible apply Keeps.after (State.fnReset_keeps _ _)); rfl)
        | ((with_reducible apply Keeps.after (State.heldRelease_keeps _)); rfl)
        | ((with_reducible apply Keeps.after (State.vfsOff_keeps _)); rfl)
        | ((with_reducible apply Keeps.after (State.wr_keeps _ _ _)); rfl) | (with_reducible refine Keeps.ite ?_ ?_)
        | (first | ((with_reducible apply Keeps.put_cel); rfl; (first | exact fun h => h | exact Memory.wf_write _ _ _ _ | exact Memory.wf_erase _ _ _ _); first | (with_reducible assumption) | ((with_reducible apply Keeps.after (State.count_keeps _ _ _ _)); rfl) | ((with_reducible apply Keeps.after (State.fnReset_keeps _ _)); rfl) | ((with_reducible apply Keeps.after (State.heldRelease_keeps _)); rfl) | ((with_reducible apply Keeps.after (State.vfsOff_keeps _)); rfl) | ((with_reducible apply Keeps.after (State.wr_keeps _ _ _)); rfl) | (with_reducible refine Keeps.ite ?_ ?_)) | ((with_reducible apply Keeps.put_dwy); rfl; first | (with_reducible assumption) | ((with_reducible apply Keeps.after (State.count_keeps _ _ _ _)); rfl) | ((with_reducible apply Keeps.after (State.fnReset_keeps _ _)); rfl) | ((with_reducible apply Keeps.after (State.heldRelease_keeps _)); rfl) | ((with_reducible apply Keeps.after (State.vfsOff_keeps _)); rfl) | ((with_reducible apply Keeps.after (State.wr_keeps _ _ _)); rfl) | (with_reducible refine Keeps.ite ?_ ?_)) | ((with_reducible apply Keeps.put_cel_dwy); rfl; rfl; (first | exact fun h => h | exact Memory.wf_write _ _ _ _ | exact Memory.wf_erase _ _ _ _); first | (with_reducible assumption) | ((with_reducible apply Keeps.after (State.count_keeps _ _ _ _)); rfl) | ((with_reducible apply Keeps.after (State.fnReset_keeps _ _)); rfl) | ((with_reducible apply Keeps.after (State.heldRelease_keeps _)); rfl) | ((with_reducible apply Keeps.after (State.vfsOff_keeps _)); rfl) | ((with_reducible apply Keeps.after (State.wr_keeps _ _ _)); rfl) | (with_reducible refine Keeps.ite ?_ ?_)))
        | (dsimp only) | split)
  unfold State.dwyReset
  revert k4
  dsimp only
  generalize State.wr _ dwyLinkStatus 0 = s4
  intro k4
  refine Keeps.after (State.heldRelease_keeps _) rfl ?_
  exact Keeps.put_cel_dwy rfl rfl (fun h => h) k4

theorem execPerstReset_keeps (a0 : PerstEvent) (s : State) : ∃ t, execPerstReset a0 s = .next t ∧ Keeps [.regs, .ecc,
    .mast, .bell, .cel, .attic, .cup, .dwy, .outbox] s t := by
  have k := s.dwyReset_keeps
  have h : Keeps [.regs, .ecc, .mast, .bell, .cel, .attic, .cup, .dwy, .outbox] s s := .refl s
  unfold execPerstReset
  cases a0
  · refine ⟨_, rfl, ?_⟩
    dsimp only
    revert k
    generalize s.dwyReset = t
    intro k
    exact Keeps.put_attic rfl (fun h => h) (fun h => h) ⟨rfl, rfl, rfl⟩ (k.mono rfl)
  · exact ⟨_, rfl, Keeps.put_attic_dwy rfl rfl (fun h => h) (fun h => h) ⟨rfl, rfl, rfl⟩ h⟩
  · refine ⟨_, rfl, ?_⟩
    split
    · exact k.mono rfl
    · exact h

theorem execHostLinkTrain_keeps (s : State) : ∀ a0 a1 a2 a3, ∃ t, (execHostLinkTrain a0 a1 a2 a3 s) = .next t ∧ Keeps [.regs] s t := by
  intro a0 a1 a2 a3
  have h : Keeps [.regs] s s := .refl s
  unfold execHostLinkTrain
  repeat' (first | (with_reducible apply Keeps.next) | (with_reducible apply Keeps.next_ite) | dsimp only | split)
  all_goals repeat' (first
      | (with_reducible assumption) | ((with_reducible apply Keeps.after (State.wrN_keeps _ _ _)); rfl)
      | (with_reducible refine Keeps.ite ?_ ?_) | (with_reducible apply Keeps.fst_ite) | (dsimp only) | split)

theorem execConfigRequest_keeps (s : State) : ∀ a0 a1 a2, ∃ t, (execConfigRequest a0 a1 a2 s) = .next t ∧ Keeps [.regs,
    .rdata, .ecc, .mast, .bell, .cel, .attic, .cup, .dwy, .outbox] s t := by
  intro a0 a1 a2
  have h : Keeps [.regs, .rdata, .ecc, .mast, .bell, .cel, .attic, .cup, .dwy, .outbox] s s := .refl s
  unfold execConfigRequest
  repeat' (first | (with_reducible apply Keeps.next) | (with_reducible apply Keeps.next_ite) | dsimp only | split)
  all_goals repeat' (first
      | (with_reducible assumption) | ((with_reducible apply Keeps.after (State.answer_keeps _ _)); rfl)
      | ((with_reducible apply Keeps.after (State.emit_keeps _ _)); rfl)
      | ((with_reducible apply Keeps.after (State.fnCatchUp_keeps _ _)); rfl)
      | ((with_reducible apply Keeps.after (State.setFn_keeps _ _ _)); rfl)
      | ((with_reducible apply Keeps.after (State.vfsOff_keeps _)); rfl)
      | (with_reducible refine Keeps.each ?_ fun _ _ _ => ?_) | (with_reducible refine Keeps.ite ?_ ?_)
      | (with_reducible apply Keeps.fst_ite) | (dsimp only) | split)

theorem State.trackLine_keeps (s : State) : ∀ a1, Keeps [.regs, .mast, .dwy, .outbox] s (State.trackLine s a1) := by
  intro a1
  have h : Keeps [.regs, .mast, .dwy, .outbox] s s := .refl s
  unfold State.trackLine
  repeat' (first
      | (with_reducible assumption) | ((with_reducible apply Keeps.after (State.backInvalidate_keeps _ _)); rfl)
      | (with_reducible refine Keeps.ite ?_ ?_)
      | ((with_reducible apply Keeps.put_dwy); rfl; first | (with_reducible assumption) | ((with_reducible apply Keeps.after (State.backInvalidate_keeps _ _)); rfl) | (with_reducible refine Keeps.ite ?_ ?_))
      | (dsimp only) | split)

theorem execHostMemAccess_keeps (s : State) : ∀ a0 a1 a2 a3 a4 a5, ∃ t, (execHostMemAccess a0 a1 a2 a3 a4 a5 s) = .next t ∧ Keeps [.regs,
    .rdata, .ecc, .mast, .cel, .dwy, .outbox] s t := by
  intro a0 a1 a2 a3 a4 a5
  have h : Keeps [.regs, .rdata, .ecc, .mast, .cel, .dwy, .outbox] s s := .refl s
  unfold execHostMemAccess
  repeat' (first | (with_reducible apply Keeps.next) | (with_reducible apply Keeps.next_ite) | dsimp only | split)
  all_goals repeat' (first
      | (with_reducible assumption) | ((with_reducible apply Keeps.after (State.answer_keeps _ _)); rfl)
      | ((with_reducible apply Keeps.after (State.celRead_keeps _ _ _ _)); rfl)
      | ((with_reducible apply Keeps.after (State.celWrite1_keeps _ _ _ _ _)); rfl)
      | ((with_reducible apply Keeps.after (State.trackLine_keeps _ _)); rfl)
      | (with_reducible refine Keeps.each ?_ fun _ _ _ => ?_)
      | ((with_reducible apply Keeps.pair); with_reducible assumption) | (with_reducible refine Keeps.ite ?_ ?_)
      | (with_reducible apply Keeps.fst_ite) | (dsimp only) | split)

theorem execBackInvalidateResponse_keeps (s : State) : ∀ a0, ∃ t, (execBackInvalidateResponse a0 s) = .next t ∧ Keeps [.regs,
    .ecc, .mast, .cel, .dwy] s t := by
  intro a0
  have h : Keeps [.regs, .ecc, .mast, .cel, .dwy] s s := .refl s
  unfold execBackInvalidateResponse
  repeat' (first | (with_reducible apply Keeps.next) | (with_reducible apply Keeps.next_ite) | dsimp only | split)
  all_goals repeat' (first
      | (with_reducible assumption) | ((with_reducible apply Keeps.after (State.heldRelease_keeps _)); rfl)
      | (with_reducible apply Keeps.fst_ite)
      | (first | ((with_reducible apply Keeps.put_cel); rfl; (first | exact fun h => h | exact Memory.wf_write _ _ _ _ | exact Memory.wf_erase _ _ _ _); first | (with_reducible assumption) | ((with_reducible apply Keeps.after (State.heldRelease_keeps _)); rfl) | (with_reducible apply Keeps.fst_ite)) | ((with_reducible apply Keeps.put_dwy); rfl; first | (with_reducible assumption) | ((with_reducible apply Keeps.after (State.heldRelease_keeps _)); rfl) | (with_reducible apply Keeps.fst_ite)) | ((with_reducible apply Keeps.put_cel_dwy); rfl; rfl; (first | exact fun h => h | exact Memory.wf_write _ _ _ _ | exact Memory.wf_erase _ _ _ _); first | (with_reducible assumption) | ((with_reducible apply Keeps.after (State.heldRelease_keeps _)); rfl) | (with_reducible apply Keeps.fst_ite)))
      | (dsimp only))

end Sys2Proof.Machine
end

