-- ==== Sys2Proof/Laws/KeepsPorch.lean ====
section
/-! SUPPORT. What each function of the model can do to the state, one law for each: Porch and Sheet. -/

namespace Sys2Proof.Machine

/-! ## Porch -/

theorem State.frameEnter_keeps (s : State) : ∀ a1 a2 a3 a4 a5, Keeps [.regs, .mast,
    .pipe] s (State.frameEnter s a1 a2 a3 a4 a5).1 := by
  intro a1 a2 a3 a4 a5
  have h : Keeps [.regs, .mast, .pipe] s s := .refl s
  unfold State.frameEnter
  repeat' (first
      | (with_reducible assumption) | ((with_reducible apply Keeps.after (State.count_keeps _ _ _ _)); rfl)
      | ((with_reducible apply Keeps.after (State.newFrame_keeps _ _)); rfl)
      | ((with_reducible apply Keeps.after (State.setSl_keeps _ _ _)); rfl)
      | ((with_reducible apply Keeps.after (State.takeUnits_keeps _ _ _ _ (by assumption))); rfl)
      | ((with_reducible apply Keeps.pair); with_reducible assumption) | (with_reducible refine Keeps.ite ?_ ?_)
      | (with_reducible apply Keeps.fst_ite) | (dsimp only) | split)

theorem State.frameGrow_keeps (s : State) : ∀ a1 a2 a3 a4 a5 a6, Keeps [.regs, .ecc, .mast, .cel, .cup, .pipe, .stw,
    .crw, .outbox] s (State.frameGrow s a1 a2 a3 a4 a5 a6) := by
  intro a1 a2 a3 a4 a5 a6
  have h : Keeps [.regs, .ecc, .mast, .cel, .cup, .pipe, .stw, .crw, .outbox] s s := .refl s
  unfold State.frameGrow
  repeat' (first
      | (with_reducible assumption) | ((with_reducible apply Keeps.after (State.count_keeps _ _ _ _)); rfl)
      | ((with_reducible apply Keeps.after (State.discardFrame_keeps _ _)); rfl)
      | ((with_reducible apply Keeps.after (State.setFrame_keeps _ _ _)); rfl)
      | ((with_reducible apply Keeps.after (State.takeUnits_keeps _ _ _ _ (by assumption))); rfl)
      | (with_reducible refine Keeps.ite ?_ ?_) | (dsimp only) | split)

theorem State.consume_keeps (s : State) : ∀ a1 a2, Keeps [.regs, .mast, .pipe] s (State.consume s a1 a2) := by
  intro a1 a2
  have h : Keeps [.regs, .mast, .pipe] s s := .refl s
  unfold State.consume
  repeat' (first
      | (with_reducible assumption) | ((with_reducible apply Keeps.after (State.count_keeps _ _ _ _)); rfl)
      | ((with_reducible apply Keeps.after (State.helloReceive_keeps _ _ _)); rfl)
      | ((with_reducible apply Keeps.after (State.pauseReceive_keeps _ _ _)); rfl)
      | ((with_reducible apply Keeps.after (State.pfcReceive_keeps _ _ _ _)); rfl)
      | (with_reducible refine Keeps.ite ?_ ?_) | (dsimp only) | split)

theorem State.rxCount_keeps (s : State) : ∀ a1 a2 a3 a4, Keeps [.regs, .mast] s (State.rxCount s a1 a2 a3 a4).1 := by
  intro a1 a2 a3 a4
  have h : Keeps [.regs, .mast] s s := .refl s
  unfold State.rxCount
  repeat' (first
      | (with_reducible assumption) | ((with_reducible apply Keeps.after (State.countBy_keeps _ _ _ _ _)); rfl)
      | ((with_reducible apply Keeps.after (State.count_keeps _ _ _ _)); rfl)
      | (with_reducible refine Keeps.ite ?_ ?_) | (with_reducible apply Keeps.fst_ite) | (dsimp only) | split)

theorem State.rxPlace_keeps (s : State) : ∀ a1 a2 a3 a4 a5 a6 a7 a8, Keeps [.regs, .ecc, .mast, .cel, .cup, .pipe,
    .stw, .crw, .outbox] s (State.rxPlace s a1 a2 a3 a4 a5 a6 a7 a8).1 := by
  intro a1 a2 a3 a4 a5 a6 a7 a8
  have h : Keeps [.regs, .ecc, .mast, .cel, .cup, .pipe, .stw, .crw, .outbox] s s := .refl s
  unfold State.rxPlace
  repeat' (first
      | (with_reducible assumption) | ((with_reducible apply Keeps.after (State.frameEnter_keeps _ _ _ _ _ _)); rfl)
      | ((with_reducible apply Keeps.after (State.frameGrow_keeps _ _ _ _ _ _ _)); rfl)
      | ((with_reducible apply Keeps.pair); with_reducible assumption) | (with_reducible refine Keeps.ite ?_ ?_)
      | (with_reducible apply Keeps.fst_ite) | (dsimp only) | split)

theorem State.rxWhole_keeps (s : State) : ∀ a1 a2 a3 a4, Keeps [.pipe] s (State.rxWhole s a1 a2 a3 a4) := by
  intro a1 a2 a3 a4
  have h : Keeps [.pipe] s s := .refl s
  unfold State.rxWhole
  repeat' (first
      | (with_reducible assumption) | ((with_reducible apply Keeps.after (State.setFrame_keeps _ _ _)); rfl)
      | (with_reducible refine Keeps.ite ?_ ?_) | (dsimp only) | split)

theorem State.rxTidy_keeps (s : State) : ∀ a1 a2, Keeps [.pipe] s (State.rxTidy s a1 a2) := by
  intro a1 a2
  have h : Keeps [.pipe] s s := .refl s
  unfold State.rxTidy
  repeat' (first
      | (with_reducible assumption) | ((with_reducible apply Keeps.after (State.tidy_keeps _ _)); rfl)
      | (with_reducible refine Keeps.ite ?_ ?_) | (dsimp only) | split)

theorem execFrameReceive_keeps (s : State) : ∀ a0 a1 a2 a3 a4 a5, ∃ t, (execFrameReceive a0 a1 a2 a3 a4 a5 s) = .next t ∧ Keeps [.regs,
    .ecc, .mast, .cel, .cup, .pipe, .stw, .crw, .outbox] s t := by
  intro a0 a1 a2 a3 a4 a5
  have h : Keeps [.regs, .ecc, .mast, .cel, .cup, .pipe, .stw, .crw, .outbox] s s := .refl s
  unfold execFrameReceive
  repeat' (first | (with_reducible apply Keeps.next) | (with_reducible apply Keeps.next_ite) | dsimp only | split)
  all_goals repeat' (first
      | (with_reducible assumption) | ((with_reducible apply Keeps.after (State.consume_keeps _ _ _)); rfl)
      | ((with_reducible apply Keeps.after (State.countBy_keeps _ _ _ _ _)); rfl)
      | ((with_reducible apply Keeps.after (State.count_keeps _ _ _ _)); rfl)
      | ((with_reducible apply Keeps.after (State.rxCount_keeps _ _ _ _ _)); rfl)
      | ((with_reducible apply Keeps.after (State.rxPlace_keeps _ _ _ _ _ _ _ _ _)); rfl)
      | ((with_reducible apply Keeps.after (State.rxTidy_keeps _ _ _)); rfl)
      | ((with_reducible apply Keeps.after (State.rxWhole_keeps _ _ _ _ _)); rfl)
      | ((with_reducible apply Keeps.after (State.setPort_keeps _ _ _)); rfl)
      | ((with_reducible apply Keeps.pair); with_reducible assumption) | (with_reducible refine Keeps.ite ?_ ?_)
      | (with_reducible apply Keeps.fst_ite) | (dsimp only) | split)

theorem execSliceWake_keeps (s : State) : ∀ a0, ∃ t, (execSliceWake a0 s) = .next t ∧ Keeps [.regs, .ecc, .mast,
    .cel, .cup, .pipe, .stw, .crw, .outbox] s t := by
  intro a0
  have h : Keeps [.regs, .ecc, .mast, .cel, .cup, .pipe, .stw, .crw, .outbox] s s := .refl s
  unfold execSliceWake
  repeat' (first | (with_reducible apply Keeps.next) | (with_reducible apply Keeps.next_ite) | dsimp only | split)
  all_goals repeat' (first
      | (with_reducible assumption) | ((with_reducible apply Keeps.after (State.wakeSlice_keeps _ _)); rfl)
      | (with_reducible apply Keeps.fst_ite) | (dsimp only))

theorem execLinkUp_keeps (s : State) : ∀ a0, ∃ t, (execLinkUp a0 s) = .next t ∧ Keeps [.regs, .pipe] s t := by
  intro a0
  have h : Keeps [.regs, .pipe] s s := .refl s
  unfold execLinkUp
  repeat' (first | (with_reducible apply Keeps.next) | (with_reducible apply Keeps.next_ite) | dsimp only | split)
  all_goals repeat' (first
      | (with_reducible assumption) | ((with_reducible apply Keeps.after (State.setB_keeps _ _ _)); rfl)
      | ((with_reducible apply Keeps.after (State.setPort_keeps _ _ _)); rfl)
      | (with_reducible refine Keeps.ite ?_ ?_) | (with_reducible apply Keeps.fst_ite)
      | ((with_reducible apply Keeps.put_pipe); rfl; first | (with_reducible assumption) | ((with_reducible apply Keeps.after (State.setB_keeps _ _ _)); rfl) | ((with_reducible apply Keeps.after (State.setPort_keeps _ _ _)); rfl) | (with_reducible refine Keeps.ite ?_ ?_) | (with_reducible apply Keeps.fst_ite))
      | (dsimp only) | split)

theorem execLinkDown_keeps (s : State) : ∀ a0, ∃ t, (execLinkDown a0 s) = .next t ∧ Keeps [.regs, .mast, .pipe, .stw,
    .sht] s t := by
  intro a0
  have h : Keeps [.regs, .mast, .pipe, .stw, .sht] s s := .refl s
  unfold execLinkDown
  repeat' (first | (with_reducible apply Keeps.next) | (with_reducible apply Keeps.next_ite) | dsimp only | split)
  all_goals repeat' (first
      | (with_reducible assumption) | ((with_reducible apply Keeps.after (State.portLinkDown_keeps _ _)); rfl)
      | (with_reducible apply Keeps.fst_ite) | (dsimp only))

theorem execAutoNegotiation_keeps (s : State) : ∀ a0 a1, ∃ t, (execAutoNegotiation a0 a1 s) = .next t ∧ Keeps [.regs] s t := by
  intro a0 a1
  have h : Keeps [.regs] s s := .refl s
  unfold execAutoNegotiation
  repeat' (first | (with_reducible apply Keeps.next) | (with_reducible apply Keeps.next_ite) | dsimp only | split)
  all_goals repeat' (first
      | (with_reducible assumption) | ((with_reducible apply Keeps.after (State.putB_keeps _ _ _ _)); rfl)
      | ((with_reducible apply Keeps.after (State.setB_keeps _ _ _)); rfl) | (with_reducible refine Keeps.ite ?_ ?_)
      | (with_reducible apply Keeps.fst_ite) | (dsimp only) | split)

theorem execLinkTraining_keeps (s : State) : ∀ a0, ∃ t, (execLinkTraining a0 s) = .next t ∧ Keeps [.regs] s t := by
  intro a0
  have h : Keeps [.regs] s s := .refl s
  unfold execLinkTraining
  repeat' (first | (with_reducible apply Keeps.next) | (with_reducible apply Keeps.next_ite) | dsimp only | split)
  all_goals repeat' (first
      | (with_reducible assumption) | ((with_reducible apply Keeps.after (State.setB_keeps _ _ _)); rfl)
      | (with_reducible refine Keeps.ite ?_ ?_) | (with_reducible apply Keeps.fst_ite) | (dsimp only) | split)

theorem State.laneRateWrite_keeps (s : State) : ∀ a1 a2, Keeps [.regs] s (State.laneRateWrite s a1 a2) := by
  intro a1 a2
  have h : Keeps [.regs] s s := .refl s
  unfold State.laneRateWrite
  repeat' (first
      | (with_reducible assumption) | ((with_reducible apply Keeps.after (State.setB_keeps _ _ _)); rfl)
      | ((with_reducible apply Keeps.after (State.wf_keeps _ _ _ _ _)); rfl)
      | (with_reducible refine Keeps.ite ?_ ?_) | (dsimp only) | split)

theorem execLaneRateWrite_keeps (s : State) : ∀ a0 a1, ∃ t, (execLaneRateWrite a0 a1 s) = .next t ∧ Keeps [.regs] s t := by
  intro a0 a1
  have h : Keeps [.regs] s s := .refl s
  unfold execLaneRateWrite
  repeat' (first | (with_reducible apply Keeps.next) | (with_reducible apply Keeps.next_ite) | dsimp only | split)
  all_goals repeat' (first
      | (with_reducible assumption) | ((with_reducible apply Keeps.after (State.laneRateWrite_keeps _ _ _)); rfl)
      | (with_reducible apply Keeps.fst_ite) | (dsimp only))

theorem State.portCfgWrite_keeps (s : State) : ∀ a1 a2, Keeps [.regs, .mast, .pipe, .stw, .sht,
    .outbox] s (State.portCfgWrite s a1 a2) := by
  intro a1 a2
  have h : Keeps [.regs, .mast, .pipe, .stw, .sht, .outbox] s s := .refl s
  unfold State.portCfgWrite
  repeat' (first
      | (with_reducible assumption) | ((with_reducible apply Keeps.after (State.plainWrite_keeps _ _ _)); rfl)
      | ((with_reducible apply Keeps.after (State.portDisable_keeps _ _)); rfl)
      | ((with_reducible apply Keeps.after (State.setB_keeps _ _ _)); rfl)
      | ((with_reducible apply Keeps.after (State.setPort_keeps _ _ _)); rfl)
      | ((with_reducible apply Keeps.after (State.wf_keeps _ _ _ _ _)); rfl)
      | ((with_reducible apply Keeps.after (State.wrN_keeps _ _ _)); rfl) | (with_reducible refine Keeps.ite ?_ ?_)
      | (dsimp only) | split)

theorem execPortCfgWrite_keeps (s : State) : ∀ a0 a1, ∃ t, (execPortCfgWrite a0 a1 s) = .next t ∧ Keeps [.regs,
    .mast, .pipe, .stw, .sht, .outbox] s t := by
  intro a0 a1
  have h : Keeps [.regs, .mast, .pipe, .stw, .sht, .outbox] s s := .refl s
  unfold execPortCfgWrite
  repeat' (first | (with_reducible apply Keeps.next) | (with_reducible apply Keeps.next_ite) | dsimp only | split)
  all_goals repeat' (first
      | (with_reducible assumption) | ((with_reducible apply Keeps.after (State.portCfgWrite_keeps _ _ _)); rfl)
      | (with_reducible apply Keeps.fst_ite) | (dsimp only))

theorem State.portMtuWrite_keeps (s : State) : ∀ a1 a2, Keeps [.regs] s (State.portMtuWrite s a1 a2) := by
  intro a1 a2
  have h : Keeps [.regs] s s := .refl s
  unfold State.portMtuWrite
  repeat' (first
      | (with_reducible assumption) | ((with_reducible apply Keeps.after (State.plainWrite_keeps _ _ _)); rfl)
      | ((with_reducible apply Keeps.after (State.setB_keeps _ _ _)); rfl) | (with_reducible refine Keeps.ite ?_ ?_)
      | (dsimp only) | split)

theorem execPortMtuWrite_keeps (s : State) : ∀ a0 a1, ∃ t, (execPortMtuWrite a0 a1 s) = .next t ∧ Keeps [.regs] s t := by
  intro a0 a1
  have h : Keeps [.regs] s s := .refl s
  unfold execPortMtuWrite
  repeat' (first | (with_reducible apply Keeps.next) | (with_reducible apply Keeps.next_ite) | dsimp only | split)
  all_goals repeat' (first
      | (with_reducible assumption) | ((with_reducible apply Keeps.after (State.portMtuWrite_keeps _ _ _)); rfl)
      | (with_reducible apply Keeps.fst_ite) | (dsimp only))

theorem execPfcReceive_keeps (s : State) : ∀ a0 a1 a2, ∃ t, (execPfcReceive a0 a1 a2 s) = .next t ∧ Keeps [.regs,
    .mast, .pipe] s t := by
  intro a0 a1 a2
  have h : Keeps [.regs, .mast, .pipe] s s := .refl s
  unfold execPfcReceive
  repeat' (first | (with_reducible apply Keeps.next) | (with_reducible apply Keeps.next_ite) | dsimp only | split)
  all_goals repeat' (first
      | (with_reducible assumption) | ((with_reducible apply Keeps.after (State.pfcReceive_keeps _ _ _ _)); rfl)
      | (with_reducible refine Keeps.ite ?_ ?_) | (with_reducible apply Keeps.fst_ite) | (dsimp only) | split)

theorem execPauseReceive_keeps (s : State) : ∀ a0 a1, ∃ t, (execPauseReceive a0 a1 s) = .next t ∧ Keeps [.regs,
    .mast, .pipe] s t := by
  intro a0 a1
  have h : Keeps [.regs, .mast, .pipe] s s := .refl s
  unfold execPauseReceive
  repeat' (first | (with_reducible apply Keeps.next) | (with_reducible apply Keeps.next_ite) | dsimp only | split)
  all_goals repeat' (first
      | (with_reducible assumption) | ((with_reducible apply Keeps.after (State.pauseReceive_keeps _ _ _)); rfl)
      | (with_reducible refine Keeps.ite ?_ ?_) | (with_reducible apply Keeps.fst_ite) | (dsimp only) | split)

theorem execPauseTimerExpire_keeps (s : State) : ∀ a0 a1, ∃ t, (execPauseTimerExpire a0 a1 s) = .next t ∧ Keeps [.regs,
    .pipe] s t := by
  intro a0 a1
  have h : Keeps [.regs, .pipe] s s := .refl s
  unfold execPauseTimerExpire
  repeat' (first | (with_reducible apply Keeps.next) | (with_reducible apply Keeps.next_ite) | dsimp only | split)
  all_goals repeat' (first
      | (with_reducible assumption) | ((with_reducible apply Keeps.after (State.pauseShow_keeps _ _)); rfl)
      | ((with_reducible apply Keeps.after (State.setPort_keeps _ _ _)); rfl) | (with_reducible apply Keeps.fst_ite)
      | (dsimp only))

theorem State.pfcGenerate_keeps (s : State) : ∀ a1, Keeps [.regs, .mast, .pipe,
    .outbox] s (State.pfcGenerate s a1) := by
  intro a1
  have h : Keeps [.regs, .mast, .pipe, .outbox] s s := .refl s
  unfold State.pfcGenerate
  repeat' (first
      | (with_reducible assumption) | ((with_reducible apply Keeps.after (State.countBy_keeps _ _ _ _ _)); rfl)
      | ((with_reducible apply Keeps.after (State.count_keeps _ _ _ _)); rfl)
      | ((with_reducible apply Keeps.after (State.emit_keeps _ _)); rfl)
      | ((with_reducible apply Keeps.after (State.setPort_keeps _ _ _)); rfl)
      | ((with_reducible apply Keeps.after (State.wf_keeps _ _ _ _ _)); rfl)
      | (with_reducible refine Keeps.each ?_ fun _ _ _ => ?_) | (with_reducible refine Keeps.ite ?_ ?_)
      | (dsimp only) | split)

theorem execPfcGenerate_keeps (s : State) : ∀ a0, ∃ t, (execPfcGenerate a0 s) = .next t ∧ Keeps [.regs, .mast, .pipe,
    .outbox] s t := by
  intro a0
  have h : Keeps [.regs, .mast, .pipe, .outbox] s s := .refl s
  unfold execPfcGenerate
  repeat' (first | (with_reducible apply Keeps.next) | (with_reducible apply Keeps.next_ite) | dsimp only | split)
  all_goals repeat' (first
      | (with_reducible assumption) | ((with_reducible apply Keeps.after (State.pfcGenerate_keeps _ _)); rfl)
      | (with_reducible apply Keeps.fst_ite) | (dsimp only))

theorem execPfcRefresh_keeps (s : State) : ∀ a0, ∃ t, (execPfcRefresh a0 s) = .next t ∧ Keeps [.pipe] s t := by
  intro a0
  have h : Keeps [.pipe] s s := .refl s
  unfold execPfcRefresh
  repeat' (first | (with_reducible apply Keeps.next) | (with_reducible apply Keeps.next_ite) | dsimp only | split)
  all_goals repeat' (first
      | (with_reducible assumption) | ((with_reducible apply Keeps.after (State.setPort_keeps _ _ _)); rfl)
      | (with_reducible apply Keeps.fst_ite) | (dsimp only))

theorem State.tsTagRead_keeps (s : State) : ∀ a1, Keeps [.regs, .rdata, .pipe] s (State.tsTagRead s a1) := by
  intro a1
  have h : Keeps [.regs, .rdata, .pipe] s s := .refl s
  unfold State.tsTagRead
  repeat' (first
      | (with_reducible assumption) | ((with_reducible apply Keeps.after (State.answer_keeps _ _)); rfl)
      | ((with_reducible apply Keeps.after (State.setPort_keeps _ _ _)); rfl)
      | ((with_reducible apply Keeps.after (State.wrN_keeps _ _ _)); rfl) | (dsimp only) | split)

theorem execTsTagRead_keeps (s : State) : ∀ a0, ∃ t, (execTsTagRead a0 s) = .next t ∧ Keeps [.regs, .rdata,
    .pipe] s t := by
  intro a0
  have h : Keeps [.regs, .rdata, .pipe] s s := .refl s
  unfold execTsTagRead
  repeat' (first | (with_reducible apply Keeps.next) | (with_reducible apply Keeps.next_ite) | dsimp only | split)
  all_goals repeat' (first
      | (with_reducible assumption) | ((with_reducible apply Keeps.after (State.tsTagRead_keeps _ _)); rfl)
      | (with_reducible apply Keeps.fst_ite) | (dsimp only))

theorem execHelloReceive_keeps (s : State) : ∀ a0 a1, ∃ t, (execHelloReceive a0 a1 s) = .next t ∧ Keeps [.regs,
    .mast, .pipe] s t := by
  intro a0 a1
  have h : Keeps [.regs, .mast, .pipe] s s := .refl s
  unfold execHelloReceive
  repeat' (first | (with_reducible apply Keeps.next) | (with_reducible apply Keeps.next_ite) | dsimp only | split)
  all_goals repeat' (first
      | (with_reducible assumption) | ((with_reducible apply Keeps.after (State.helloReceive_keeps _ _ _)); rfl)
      | (with_reducible refine Keeps.ite ?_ ?_) | (with_reducible apply Keeps.fst_ite) | (dsimp only) | split)

theorem execPartnerHoldExpire_keeps (s : State) : ∀ a0, ∃ t, (execPartnerHoldExpire a0 s) = .next t ∧ Keeps [.regs,
    .mast, .pipe] s t := by
  intro a0
  have h : Keeps [.regs, .mast, .pipe] s s := .refl s
  unfold execPartnerHoldExpire
  repeat' (first | (with_reducible apply Keeps.next) | (with_reducible apply Keeps.next_ite) | dsimp only | split)
  all_goals repeat' (first
      | (with_reducible assumption) | ((with_reducible apply Keeps.after (State.peerDown_keeps _ _)); rfl)
      | (with_reducible refine Keeps.ite ?_ ?_) | (with_reducible apply Keeps.fst_ite) | (dsimp only) | split)

theorem execHelloSend_keeps (s : State) : ∀ a0, ∃ t, (execHelloSend a0 s) = .next t ∧ Keeps [.regs, .mast, .pipe,
    .outbox] s t := by
  intro a0
  have h : Keeps [.regs, .mast, .pipe, .outbox] s s := .refl s
  unfold execHelloSend
  repeat' (first | (with_reducible apply Keeps.next) | (with_reducible apply Keeps.next_ite) | dsimp only | split)
  all_goals repeat' (first
      | (with_reducible assumption) | ((with_reducible apply Keeps.after (State.sendHello_keeps _ _ _ _)); rfl)
      | ((with_reducible apply Keeps.after (State.setPort_keeps _ _ _)); rfl)
      | (with_reducible refine Keeps.ite ?_ ?_) | (with_reducible apply Keeps.fst_ite) | (dsimp only) | split)

theorem execHelloReply_keeps (s : State) : ∀ a0, ∃ t, (execHelloReply a0 s) = .next t ∧ Keeps [.regs, .mast, .pipe,
    .outbox] s t := by
  intro a0
  have h : Keeps [.regs, .mast, .pipe, .outbox] s s := .refl s
  unfold execHelloReply
  repeat' (first | (with_reducible apply Keeps.next) | (with_reducible apply Keeps.next_ite) | dsimp only | split)
  all_goals repeat' (first
      | (with_reducible assumption) | ((with_reducible apply Keeps.after (State.sendHello_keeps _ _ _ _)); rfl)
      | ((with_reducible apply Keeps.after (State.setPort_keeps _ _ _)); rfl)
      | (with_reducible refine Keeps.ite ?_ ?_) | (with_reducible apply Keeps.fst_ite) | (dsimp only) | split)

theorem State.pchRegWrite_keeps (s : State) : ∀ a1 a2, Keeps [.regs, .mast, .pipe, .stw, .sht,
    .outbox] s (State.pchRegWrite s a1 a2) := by
  intro a1 a2
  have h : Keeps [.regs, .mast, .pipe, .stw, .sht, .outbox] s s := .refl s
  unfold State.pchRegWrite
  repeat' (first
      | (with_reducible assumption) | ((with_reducible apply Keeps.after (State.laneRateWrite_keeps _ _ _)); rfl)
      | ((with_reducible apply Keeps.after (State.pauseShow_keeps _ _)); rfl)
      | ((with_reducible apply Keeps.after (State.peerShow_keeps _ _)); rfl)
      | ((with_reducible apply Keeps.after (State.plainWrite_keeps _ _ _)); rfl)
      | ((with_reducible apply Keeps.after (State.portCfgWrite_keeps _ _ _)); rfl)
      | ((with_reducible apply Keeps.after (State.portMtuWrite_keeps _ _ _)); rfl)
      | ((with_reducible apply Keeps.after (State.setB_keeps _ _ _)); rfl)
      | (with_reducible refine Keeps.each ?_ fun _ _ _ => ?_) | (with_reducible refine Keeps.ite ?_ ?_)
      | (dsimp only) | split)

/-! ## PorchTx -/

theorem State.queueClean_keeps (n c k : Nat) (s : State) : Keeps [.regs, .mast, .pipe, .stw,
    .sht] s (State.queueClean n c k s) := by
  induction k generalizing s with
  | zero => exact .refl s
  | succ k ih =>
    have h : Keeps [.regs, .mast, .pipe, .stw, .sht] s s := .refl s
    unfold State.queueClean
    repeat' (first
        | with_reducible assumption | ((with_reducible apply Keeps.after (ih _)); rfl)
        | ((with_reducible apply Keeps.after (State.copyEnd_keeps _ _ _)); rfl)
        | ((with_reducible apply Keeps.after (State.copyGone_keeps _ _)); rfl)
        | ((with_reducible apply Keeps.after (State.count_keeps _ _ _ _)); rfl)
        | (with_reducible refine Keeps.ite ?_ ?_) | (dsimp only) | split)

theorem State.portClean_keeps (s : State) : ∀ a1, Keeps [.regs, .mast, .pipe, .stw,
    .sht] s (State.portClean s a1) := by
  intro a1
  have h : Keeps [.regs, .mast, .pipe, .stw, .sht] s s := .refl s
  unfold State.portClean
  repeat' (first
      | (with_reducible assumption) | ((with_reducible apply Keeps.after (State.queueClean_keeps _ _ _ _)); rfl)
      | (with_reducible refine Keeps.each ?_ fun _ _ _ => ?_) | (dsimp only))

theorem State.choose_keeps (s : State) : ∀ a1, Keeps [.sht] s (State.choose s a1).1 := by
  intro a1
  have h : Keeps [.sht] s s := .refl s
  unfold State.choose
  repeat' (first
      | (with_reducible assumption) | ((with_reducible apply Keeps.after (State.dwrrPick_keeps _ _ _)); rfl)
      | ((with_reducible apply Keeps.pair); with_reducible assumption) | (with_reducible refine Keeps.ite ?_ ?_)
      | (with_reducible apply Keeps.fst_ite) | (dsimp only) | split)

theorem State.serve_keeps (s : State) : ∀ a1 a2, Keeps [.regs, .mast, .pipe, .stw, .sht] s (State.serve s a1 a2) := by
  intro a1 a2
  have h : Keeps [.regs, .mast, .pipe, .stw, .sht] s s := .refl s
  unfold State.serve
  repeat' (first
      | (with_reducible assumption) | ((with_reducible apply Keeps.after (State.dwrrPay_keeps _ _ _ _)); rfl)
      | ((with_reducible apply Keeps.after (State.ecnMark_keeps _ _)); rfl)
      | ((with_reducible apply Keeps.after (State.egLeave_keeps _ _)); rfl)
      | ((with_reducible apply Keeps.after (State.setCopy_keeps _ _ _)); rfl)
      | ((with_reducible apply Keeps.after (State.setPort_keeps _ _ _)); rfl)
      | ((with_reducible apply Keeps.after (State.shpCharge_keeps _ _ _ _)); rfl)
      | (with_reducible refine Keeps.ite ?_ ?_) | (dsimp only) | split)

theorem execSchedDecision_keeps (s : State) : ∀ a0, ∃ t, (execSchedDecision a0 s) = .next t ∧ Keeps [.regs, .freeCtr,
    .ecc, .mast, .pipe, .stw, .sht] s t := by
  intro a0
  have h : Keeps [.regs, .freeCtr, .ecc, .mast, .pipe, .stw, .sht] s s := .refl s
  unfold execSchedDecision
  repeat' (first | (with_reducible apply Keeps.next) | (with_reducible apply Keeps.next_ite) | dsimp only | split)
  all_goals repeat' (first
      | (with_reducible assumption) | ((with_reducible apply Keeps.after (State.choose_keeps _ _)); rfl)
      | ((with_reducible apply Keeps.after (State.count_keeps _ _ _ _)); rfl)
      | ((with_reducible apply Keeps.after (State.portClean_keeps _ _)); rfl)
      | ((with_reducible apply Keeps.after (State.portPurge_keeps _ _)); rfl)
      | ((with_reducible apply Keeps.after (State.serve_keeps _ _ _)); rfl)
      | ((with_reducible apply Keeps.after (State.shpCheck_keeps _ _)); rfl)
      | ((with_reducible apply Keeps.after (State.shpUpdate_keeps _ _)); rfl)
      | (with_reducible refine Keeps.each ?_ fun _ _ _ => ?_)
      | ((with_reducible apply Keeps.pair); with_reducible assumption) | (with_reducible refine Keeps.ite ?_ ?_)
      | (with_reducible apply Keeps.fst_ite) | (dsimp only) | split)

theorem State.txDrop_keeps (s : State) : ∀ a1 a2 a3, Keeps [.pipe, .stw, .sht] s (State.txDrop s a1 a2 a3) := by
  intro a1 a2 a3
  have h : Keeps [.pipe, .stw, .sht] s s := .refl s
  unfold State.txDrop
  repeat' (first
      | (with_reducible assumption) | ((with_reducible apply Keeps.after (State.copyEnd_keeps _ _ _)); rfl)
      | ((with_reducible apply Keeps.after (State.copyGone_keeps _ _)); rfl)
      | ((with_reducible apply Keeps.after (State.setPort_keeps _ _ _)); rfl) | (dsimp only))

theorem State.stampPut_keeps (s : State) : ∀ a1 a2 a3, Keeps [.regs, .mast, .pipe] s (State.stampPut s a1 a2 a3) := by
  intro a1 a2 a3
  have h : Keeps [.regs, .mast, .pipe] s s := .refl s
  unfold State.stampPut
  repeat' (first
      | (with_reducible assumption) | ((with_reducible apply Keeps.after (State.count_keeps _ _ _ _)); rfl)
      | ((with_reducible apply Keeps.after (State.setB_keeps _ _ _)); rfl)
      | ((with_reducible apply Keeps.after (State.setPort_keeps _ _ _)); rfl)
      | (with_reducible refine Keeps.ite ?_ ?_) | (dsimp only) | split)

theorem execFrameBegin_keeps (s : State) : ∀ a0, ∃ t, (execFrameBegin a0 s) = .next t ∧ Keeps [.regs, .mast, .pipe,
    .stw, .sht] s t := by
  intro a0
  have h : Keeps [.regs, .mast, .pipe, .stw, .sht] s s := .refl s
  unfold execFrameBegin
  repeat' (first | (with_reducible apply Keeps.next) | (with_reducible apply Keeps.next_ite) | dsimp only | split)
  all_goals repeat' (first
      | (with_reducible assumption) | ((with_reducible apply Keeps.after (State.count_keeps _ _ _ _)); rfl)
      | ((with_reducible apply Keeps.after (State.setCopy_keeps _ _ _)); rfl)
      | ((with_reducible apply Keeps.after (State.setPort_keeps _ _ _)); rfl)
      | ((with_reducible apply Keeps.after (State.stampPut_keeps _ _ _ _)); rfl)
      | ((with_reducible apply Keeps.after (State.txDrop_keeps _ _ _ _)); rfl)
      | (with_reducible refine Keeps.ite ?_ ?_) | (with_reducible apply Keeps.fst_ite) | (dsimp only) | split)

theorem State.egressMirrors_keeps (s : State) : ∀ a1 a2 a3 a4, Keeps [.regs, .mast,
    .pipe] s (State.egressMirrors s a1 a2 a3 a4) := by
  intro a1 a2 a3 a4
  have h : Keeps [.regs, .mast, .pipe] s s := .refl s
  unfold State.egressMirrors
  repeat' (first
      | (with_reducible assumption) | ((with_reducible apply Keeps.after (State.count_keeps _ _ _ _)); rfl)
      | ((with_reducible apply Keeps.after (State.newFrame_keeps _ _)); rfl)
      | (with_reducible refine Keeps.each ?_ fun _ _ _ => ?_)
      | ((with_reducible apply Keeps.pair); with_reducible assumption) | (with_reducible refine Keeps.ite ?_ ?_)
      | (with_reducible apply Keeps.fst_ite) | (dsimp only) | split)

theorem execFrameEnd_keeps (s : State) : ∀ a0, ∃ t, (execFrameEnd a0 s) = .next t ∧ Keeps [.regs, .mast, .pipe, .stw,
    .sht, .outbox] s t := by
  intro a0
  have h : Keeps [.regs, .mast, .pipe, .stw, .sht, .outbox] s s := .refl s
  unfold execFrameEnd
  repeat' (first | (with_reducible apply Keeps.next) | (with_reducible apply Keeps.next_ite) | dsimp only | split)
  all_goals repeat' (first
      | (with_reducible assumption) | ((with_reducible apply Keeps.after (State.copyEnd_keeps _ _ _)); rfl)
      | ((with_reducible apply Keeps.after (State.copyGone_keeps _ _)); rfl)
      | ((with_reducible apply Keeps.after (State.countBy_keeps _ _ _ _ _)); rfl)
      | ((with_reducible apply Keeps.after (State.count_keeps _ _ _ _)); rfl)
      | ((with_reducible apply Keeps.after (State.egressMirrors_keeps _ _ _ _ _)); rfl)
      | ((with_reducible apply Keeps.after (State.emit_keeps _ _)); rfl)
      | ((with_reducible apply Keeps.after (State.portDisable_keeps _ _)); rfl)
      | ((with_reducible apply Keeps.after (State.setPort_keeps _ _ _)); rfl)
      | (with_reducible refine Keeps.ite ?_ ?_) | (with_reducible apply Keeps.fst_ite) | (dsimp only) | split)

/-! ## Sheet -/

theorem execRefillTick_keeps (s : State) : ∃ t, (execRefillTick s) = .next t ∧ Keeps [.sht] s t := by
  have h : Keeps [.sht] s s := .refl s
  unfold execRefillTick
  repeat' (first | (with_reducible apply Keeps.next) | (with_reducible apply Keeps.next_ite) | dsimp only | split)
  all_goals repeat' (first
      | (with_reducible assumption) | ((with_reducible apply Keeps.after (State.shpUpdate_keeps _ _)); rfl)
      | (with_reducible refine Keeps.foldl _ ?_ fun _ _ _ => ?_)
      | (with_reducible refine Keeps.foldl_fst _ ?_ fun _ _ _ => ?_) | (with_reducible apply Keeps.fst_ite)
      | ((with_reducible apply Keeps.put_sht); rfl; first | (with_reducible assumption) | ((with_reducible apply Keeps.after (State.shpUpdate_keeps _ _)); rfl) | (with_reducible refine Keeps.foldl _ ?_ fun _ _ _ => ?_) | (with_reducible refine Keeps.foldl_fst _ ?_ fun _ _ _ => ?_) | (with_reducible apply Keeps.fst_ite))
      | (dsimp only))

theorem State.policerPut_keeps (s : State) : ∀ a1 a2 a3, Keeps [.regs, .ecc, .mast, .cel, .cup, .pipe, .stw, .sht,
    .crw, .outbox] s (State.policerPut s a1 a2 a3) := by
  intro a1 a2 a3
  have h : Keeps [.regs, .ecc, .mast, .cel, .cup, .pipe, .stw, .sht, .crw, .outbox] s s := .refl s
  unfold State.policerPut
  repeat' (first
      | (with_reducible assumption) | ((with_reducible apply Keeps.after (State.eccClear_keeps _ _ _)); rfl)
      | ((with_reducible apply Keeps.after (State.inject_keeps _ _ _ _ _ _)); rfl)
      | ((with_reducible apply Keeps.after (State.setPol_keeps _ _ _ _)); rfl)
      | ((with_reducible apply Keeps.after (State.wakeSlice_keeps _ _)); rfl) | (dsimp only))

theorem State.shtRun_keeps (s : State) : ∀ a1 a2 a3 a4, Keeps [.regs, .ecc, .mast, .cel, .cup, .pipe, .stw, .sht,
    .crw, .outbox] s (State.shtRun s a1 a2 a3 a4).1 := by
  intro a1 a2 a3 a4
  have h : Keeps [.regs, .ecc, .mast, .cel, .cup, .pipe, .stw, .sht, .crw, .outbox] s s := .refl s
  unfold State.shtRun
  repeat' (first
      | (with_reducible assumption) | ((with_reducible apply Keeps.after (State.polCheck_keeps _ _ _)); rfl)
      | ((with_reducible apply Keeps.after (State.policerPut_keeps _ _ _ _)); rfl)
      | ((with_reducible apply Keeps.after (State.setPol_keeps _ _ _ _)); rfl)
      | ((with_reducible apply Keeps.after (State.wakeSlice_keeps _ _)); rfl)
      | (with_reducible refine Keeps.each ?_ fun _ _ _ => ?_) | (with_reducible refine Keeps.ite ?_ ?_)
      | (with_reducible apply Keeps.fst_ite) | (dsimp only) | split)

theorem State.shtCmdWrite_keeps (s : State) : ∀ a1, Keeps [.regs, .ecc, .mast, .cel, .cup, .pipe, .stw, .sht, .crw,
    .outbox] s (State.shtCmdWrite s a1) := by
  intro a1
  have h : Keeps [.regs, .ecc, .mast, .cel, .cup, .pipe, .stw, .sht, .crw, .outbox] s s := .refl s
  unfold State.shtCmdWrite
  repeat' (first
      | (with_reducible assumption) | ((with_reducible apply Keeps.after (State.plainWrite_keeps _ _ _)); rfl)
      | ((with_reducible apply Keeps.after (State.setB_keeps _ _ _)); rfl)
      | ((with_reducible apply Keeps.after (State.shtRun_keeps _ _ _ _ _)); rfl)
      | ((with_reducible apply Keeps.after (State.wf_keeps _ _ _ _ _)); rfl)
      | ((with_reducible apply Keeps.after (State.wrN_keeps _ _ _)); rfl)
      | (with_reducible refine Keeps.foldl _ ?_ fun _ _ _ => ?_)
      | (with_reducible refine Keeps.foldl_fst _ ?_ fun _ _ _ => ?_)
      | ((with_reducible apply Keeps.pair); with_reducible assumption) | (with_reducible refine Keeps.ite ?_ ?_)
      | (with_reducible apply Keeps.fst_ite) | (dsimp only) | split)

theorem execPolicerWrite_keeps (s : State) : ∀ a0, ∃ t, (execPolicerWrite a0 s) = .next t ∧ Keeps [.regs, .ecc,
    .mast, .cel, .cup, .pipe, .stw, .sht, .crw, .outbox] s t := by
  intro a0
  have h : Keeps [.regs, .ecc, .mast, .cel, .cup, .pipe, .stw, .sht, .crw, .outbox] s s := .refl s
  unfold execPolicerWrite
  repeat' (first | (with_reducible apply Keeps.next) | (with_reducible apply Keeps.next_ite) | dsimp only | split)
  all_goals repeat' (first
      | (with_reducible assumption) | ((with_reducible apply Keeps.after (State.shtCmdWrite_keeps _ _)); rfl)
      | (with_reducible apply Keeps.fst_ite) | (dsimp only))

theorem execPolicerRead_keeps (s : State) : ∀ a0, ∃ t, (execPolicerRead a0 s) = .next t ∧ Keeps [.regs, .ecc, .mast,
    .cel, .cup, .pipe, .stw, .sht, .crw, .outbox] s t := by
  intro a0
  have h : Keeps [.regs, .ecc, .mast, .cel, .cup, .pipe, .stw, .sht, .crw, .outbox] s s := .refl s
  unfold execPolicerRead
  repeat' (first | (with_reducible apply Keeps.next) | (with_reducible apply Keeps.next_ite) | dsimp only | split)
  all_goals repeat' (first
      | (with_reducible assumption) | ((with_reducible apply Keeps.after (State.shtCmdWrite_keeps _ _)); rfl)
      | (with_reducible apply Keeps.fst_ite) | (dsimp only))

theorem State.rateWrite_keeps (s : State) : ∀ a1 a2, Keeps [.held] s (State.rateWrite s a1 a2) := by
  intro a1 a2
  have h : Keeps [.held] s s := .refl s
  unfold State.rateWrite
  repeat' (first
      | (with_reducible assumption)
      | ((with_reducible apply Keeps.put_held); rfl; first | (with_reducible assumption)) | (dsimp only))

theorem execShaperRateWrite_keeps (s : State) : ∀ a0 a1, ∃ t, (execShaperRateWrite a0 a1 s) = .next t ∧ Keeps [.held] s t := by
  intro a0 a1
  have h : Keeps [.held] s s := .refl s
  unfold execShaperRateWrite
  repeat' (first | (with_reducible apply Keeps.next) | (with_reducible apply Keeps.next_ite) | dsimp only | split)
  all_goals repeat' (first
      | (with_reducible assumption) | ((with_reducible apply Keeps.after (State.rateWrite_keeps _ _ _)); rfl)
      | (with_reducible apply Keeps.fst_ite) | (dsimp only))

theorem execShaperBurstWrite_keeps (s : State) : ∀ a0 a1, ∃ t, (execShaperBurstWrite a0 a1 s) = .next t ∧ Keeps [.regs,
    .held, .ecc, .sht] s t := by
  intro a0 a1
  have h : Keeps [.regs, .held, .ecc, .sht] s s := .refl s
  unfold execShaperBurstWrite
  repeat' (first | (with_reducible apply Keeps.next) | (with_reducible apply Keeps.next_ite) | dsimp only | split)
  all_goals repeat' (first
      | (with_reducible assumption) | ((with_reducible apply Keeps.after (State.burstWrite_keeps _ _ _)); rfl)
      | (with_reducible apply Keeps.fst_ite) | (dsimp only))

theorem State.sendLoads_keeps (s : State) : ∀ a1 a2, Keeps [.crw] s (State.sendLoads s a1 a2) := by
  intro a1 a2
  have h : Keeps [.crw] s s := .refl s
  unfold State.sendLoads
  repeat' (first
      | (with_reducible assumption)
      | ((with_reducible apply Keeps.put_crw); rfl; first | (with_reducible assumption)) | (dsimp only))

theorem State.ringPut_keeps (s : State) : ∀ a1, Keeps [.regs, .ecc, .mast, .cel, .outbox] s (State.ringPut s a1) := by
  intro a1
  have h : Keeps [.regs, .ecc, .mast, .cel, .outbox] s s := .refl s
  unfold State.ringPut
  repeat' (first
      | (with_reducible assumption) | ((with_reducible apply Keeps.after (State.celWrite_keeps _ _ _ _)); rfl)
      | ((with_reducible apply Keeps.after (State.count_keeps _ _ _ _)); rfl)
      | ((with_reducible apply Keeps.after (State.wf_keeps _ _ _ _ _)); rfl)
      | (with_reducible refine Keeps.ite ?_ ?_) | (dsimp only) | split)

theorem execSampleInstant_keeps (s : State) : ∃ t, (execSampleInstant s) = .next t ∧ Keeps [.regs, .ecc, .mast, .cel,
    .pipe, .stw, .sht, .crw, .outbox] s t := by
  have h : Keeps [.regs, .ecc, .mast, .cel, .pipe, .stw, .sht, .crw, .outbox] s s := .refl s
  unfold execSampleInstant
  repeat' (first | (with_reducible apply Keeps.next) | (with_reducible apply Keeps.next_ite) | dsimp only | split)
  all_goals repeat' (first
      | (with_reducible assumption) | ((with_reducible apply Keeps.after (State.portClean_keeps _ _)); rfl)
      | ((with_reducible apply Keeps.after (State.ringPut_keeps _ _)); rfl)
      | ((with_reducible apply Keeps.after (State.sendLoads_keeps _ _ _)); rfl)
      | ((with_reducible apply Keeps.after (State.shpUpdate_keeps _ _)); rfl)
      | (with_reducible refine Keeps.each ?_ fun _ _ _ => ?_) | (with_reducible refine Keeps.ite ?_ ?_)
      | (with_reducible apply Keeps.fst_ite)
      | ((with_reducible apply Keeps.put_sht); rfl; first | (with_reducible assumption) | ((with_reducible apply Keeps.after (State.portClean_keeps _ _)); rfl) | ((with_reducible apply Keeps.after (State.ringPut_keeps _ _)); rfl) | ((with_reducible apply Keeps.after (State.sendLoads_keeps _ _ _)); rfl) | ((with_reducible apply Keeps.after (State.shpUpdate_keeps _ _)); rfl) | (with_reducible refine Keeps.each ?_ fun _ _ _ => ?_) | (with_reducible refine Keeps.ite ?_ ?_) | (with_reducible apply Keeps.fst_ite))
      | (dsimp only) | split)

theorem State.zeroSample_keeps (s : State) : ∀ a1, Keeps [.crw] s (State.zeroSample s a1) := by
  intro a1
  have h : Keeps [.crw] s s := .refl s
  unfold State.zeroSample
  repeat' (first
      | (with_reducible assumption) | ((with_reducible apply Keeps.after (State.sendLoads_keeps _ _ _)); rfl)
      | (dsimp only))

theorem execSheetScrub_keeps (s : State) : ∀ a0 a1 a2 a3, ∃ t, (execSheetScrub a0 a1 a2 a3 s) = .next t ∧ Keeps [.regs,
    .freeCtr, .ecc, .mast, .sht] s t := by
  intro a0 a1 a2 a3
  have h : Keeps [.regs, .freeCtr, .ecc, .mast, .sht] s s := .refl s
  unfold execSheetScrub
  repeat' (first | (with_reducible apply Keeps.next) | (with_reducible apply Keeps.next_ite) | dsimp only | split)
  all_goals repeat' (first
      | (with_reducible assumption) | ((with_reducible apply Keeps.after (State.eccFlag_keeps _ _ _ _)); rfl)
      | ((with_reducible apply Keeps.after (State.polCheck_keeps _ _ _)); rfl)
      | ((with_reducible apply Keeps.after (State.shpCheck_keeps _ _)); rfl)
      | (with_reducible refine Keeps.ite ?_ ?_) | (with_reducible apply Keeps.fst_ite) | (dsimp only) | split)

theorem State.shtGlobalWrite_keeps (s : State) : ∀ a1 a2, Keeps [.regs, .sht] s (State.shtGlobalWrite s a1 a2) := by
  intro a1 a2
  have h : Keeps [.regs, .sht] s s := .refl s
  unfold State.shtGlobalWrite
  repeat' (first
      | (with_reducible assumption) | ((with_reducible apply Keeps.after (State.plainWrite_keeps _ _ _)); rfl)
      | ((with_reducible apply Keeps.after (State.setB_keeps _ _ _)); rfl) | (with_reducible refine Keeps.ite ?_ ?_)
      | ((with_reducible apply Keeps.put_sht); rfl; first | (with_reducible assumption) | ((with_reducible apply Keeps.after (State.plainWrite_keeps _ _ _)); rfl) | ((with_reducible apply Keeps.after (State.setB_keeps _ _ _)); rfl) | (with_reducible refine Keeps.ite ?_ ?_))
      | (dsimp only) | split)

theorem State.shtRegWrite_keeps (s : State) : ∀ a1 a2, Keeps [.regs, .held, .ecc, .mast, .cel, .cup, .pipe, .stw,
    .sht, .crw, .outbox] s (State.shtRegWrite s a1 a2) := by
  intro a1 a2
  have h : Keeps [.regs, .held, .ecc, .mast, .cel, .cup, .pipe, .stw, .sht, .crw, .outbox] s s := .refl s
  unfold State.shtRegWrite
  repeat' (first
      | (with_reducible assumption) | ((with_reducible apply Keeps.after (State.burstWrite_keeps _ _ _)); rfl)
      | ((with_reducible apply Keeps.after (State.plainWrite_keeps _ _ _)); rfl)
      | ((with_reducible apply Keeps.after (State.rateWrite_keeps _ _ _)); rfl)
      | ((with_reducible apply Keeps.after (State.setB_keeps _ _ _)); rfl)
      | ((with_reducible apply Keeps.after (State.shapeEnWrite_keeps _ _ _ _)); rfl)
      | ((with_reducible apply Keeps.after (State.shtCmdWrite_keeps _ _)); rfl)
      | ((with_reducible apply Keeps.after (State.shtGlobalWrite_keeps _ _ _)); rfl)
      | (with_reducible refine Keeps.ite ?_ ?_) | (dsimp only) | split)

end Sys2Proof.Machine
end

