-- ==== Sys2Proof/Laws/KeepsInstr.lean ====
section
/-! SUPPORT. What each function of the model can do to the state, one law for each: the Lofts instructions. -/

namespace Sys2Proof.Machine

/-! ## LoftsInstr -/

/-- The pieces that an instruction can change beside what its port of registers changes. -/
def lftParts : List Part :=
  [.regs, .freeCtr, .ecc, .mast, .cel, .attic, .cup, .dwy, .lft, .pipe, .hlw, .gal, .lrd, .stw, .sht, .crw, .outbox]

theorem State.issueWord_keeps {l : List Part} (hl : lftParts.all (fun p => l.contains p) = true) {s : State} {t op : Nat}
    {f : LFields} {body : LBody} (hb : ∀ u, Keeps l s u → Keeps l s (body u t f)) :
    Keeps l s (s.issueWord t op f body) := by
  have m := fun {u v : State} (k : Keeps lftParts u v) => k.mono hl
  have h : Keeps l s s := .refl s
  have hq : Keeps l s (if t = atcThread then (s, true) else s.lftCheck .lftIs (t / 64 * 32768 + (s.thr t).pc)).1 := by
    split
    · exact h
    · exact m ((State.lftCheck_keeps _ _ _).mono rfl)
  unfold State.issueWord
  dsimp only
  revert hq
  generalize (if t = atcThread then (s, true) else s.lftCheck .lftIs (t / 64 * 32768 + (s.thr t).pc)) = q
  intro hq
  have h1 : Keeps l s (if t = atcThread then q.1 else q.1.count evLftIssue (t / 8) 0) := by
    split
    · exact hq
    · exact hq.trans (m ((State.count_keeps _ _ _ _).mono rfl))
  revert h1
  generalize (if t = atcThread then q.1 else q.1.count evLftIssue (t / 8) 0) = s1
  intro h1
  have h2 := h1.trans (m ((State.setThr_keeps s1 t { s1.thr t with tail := false }).mono rfl))
  split
  · exact m ((State.thrFault_keeps _ _ _ _).mono rfl)
  · split
    · exact hq.trans (m ((State.thrFault_keeps _ _ _ _).mono rfl))
    · split
      · exact h2.trans (m ((State.thrFault_keeps _ _ _ _).mono rfl))
      · exact hb _ h2

theorem State.issue_keeps {l : List Part} (hl : lftParts.all (fun p => l.contains p) = true) {s : State} {t op : Nat}
    {f : LFields} {body : LBody} (hb : ∀ u, Keeps l s u → Keeps l s (body u t f)) :
    Keeps l s (s.issue t op f body) := by
  unfold State.issue
  split
  · exact State.issueWord_keeps hl hb
  · exact .refl s

theorem State.goTo_keeps (s : State) : ∀ a1 a2, Keeps [.regs, .lft] s (State.goTo s a1 a2) := by
  intro a1 a2
  have h : Keeps [.regs, .lft] s s := .refl s
  unfold State.goTo
  repeat' (first
      | (with_reducible assumption) | ((with_reducible apply Keeps.after (State.setThr_keeps _ _ _)); rfl)
      | (dsimp only))

theorem State.goOn_keeps (s : State) : ∀ a1, Keeps [.regs, .lft] s (State.goOn s a1) := by
  intro a1
  have h : Keeps [.regs, .lft] s s := .refl s
  unfold State.goOn
  repeat' (first
      | (with_reducible assumption) | ((with_reducible apply Keeps.after (State.goTo_keeps _ _ _)); rfl)
      | (dsimp only))

theorem State.result_keeps (s : State) : ∀ a1 a2 a3, Keeps [.regs, .lft] s (State.result s a1 a2 a3) := by
  intro a1 a2 a3
  have h : Keeps [.regs, .lft] s s := .refl s
  unfold State.result
  repeat' (first
      | (with_reducible assumption) | ((with_reducible apply Keeps.after (State.goOn_keeps _ _)); rfl)
      | ((with_reducible apply Keeps.after (State.setThr_keeps _ _ _)); rfl) | (dsimp only))

theorem State.waits_keeps (s : State) : ∀ a1 a2 a3, Keeps [.regs, .lft] s (State.waits s a1 a2 a3) := by
  intro a1 a2 a3
  have h : Keeps [.regs, .lft] s s := .refl s
  unfold State.waits
  repeat' (first
      | (with_reducible assumption) | ((with_reducible apply Keeps.after (State.setThr_keeps _ _ _)); rfl)
      | (dsimp only))

theorem lftAlu_keeps (s : State) : ∀ a0 a2 a3, Keeps [.regs, .lft] s (lftAlu a0 s a2 a3) := by
  intro a0 a2 a3
  have h : Keeps [.regs, .lft] s s := .refl s
  unfold lftAlu
  repeat' (first
      | (with_reducible assumption) | ((with_reducible apply Keeps.after (State.result_keeps _ _ _ _)); rfl)
      | (dsimp only))

theorem lftAluImm_keeps (s : State) : ∀ a0 a2 a3, Keeps [.regs, .lft] s (lftAluImm a0 s a2 a3) := by
  intro a0 a2 a3
  have h : Keeps [.regs, .lft] s s := .refl s
  unfold lftAluImm
  repeat' (first
      | (with_reducible assumption) | ((with_reducible apply Keeps.after (State.result_keeps _ _ _ _)); rfl)
      | (dsimp only))

theorem lftNop_keeps (s : State) : ∀ a1 a2, Keeps [.regs, .lft] s (lftNop s a1 a2) := by
  intro a1 a2
  have h : Keeps [.regs, .lft] s s := .refl s
  unfold lftNop
  repeat' (first
      | (with_reducible assumption) | ((with_reducible apply Keeps.after (State.goOn_keeps _ _)); rfl)
      | (dsimp only))

theorem lftBext_keeps (s : State) : ∀ a1 a2, Keeps [.regs, .lft] s (lftBext s a1 a2) := by
  intro a1 a2
  have h : Keeps [.regs, .lft] s s := .refl s
  unfold lftBext
  repeat' (first
      | (with_reducible assumption) | ((with_reducible apply Keeps.after (State.result_keeps _ _ _ _)); rfl)
      | (dsimp only))

theorem lftBins_keeps (s : State) : ∀ a1 a2, Keeps [.regs, .lft] s (lftBins s a1 a2) := by
  intro a1 a2
  have h : Keeps [.regs, .lft] s s := .refl s
  unfold lftBins
  repeat' (first
      | (with_reducible assumption) | ((with_reducible apply Keeps.after (State.result_keeps _ _ _ _)); rfl)
      | (dsimp only))

theorem lftPopc_keeps (s : State) : ∀ a1 a2, Keeps [.regs, .lft] s (lftPopc s a1 a2) := by
  intro a1 a2
  have h : Keeps [.regs, .lft] s s := .refl s
  unfold lftPopc
  repeat' (first
      | (with_reducible assumption) | ((with_reducible apply Keeps.after (State.result_keeps _ _ _ _)); rfl)
      | (dsimp only))

theorem lftClz_keeps (s : State) : ∀ a1 a2, Keeps [.regs, .lft] s (lftClz s a1 a2) := by
  intro a1 a2
  have h : Keeps [.regs, .lft] s s := .refl s
  unfold lftClz
  repeat' (first
      | (with_reducible assumption) | ((with_reducible apply Keeps.after (State.result_keeps _ _ _ _)); rfl)
      | (dsimp only))

theorem lftLi_keeps (s : State) : ∀ a1 a2, Keeps [.regs, .lft] s (lftLi s a1 a2) := by
  intro a1 a2
  have h : Keeps [.regs, .lft] s s := .refl s
  unfold lftLi
  repeat' (first
      | (with_reducible assumption) | ((with_reducible apply Keeps.after (State.result_keeps _ _ _ _)); rfl)
      | (dsimp only))

theorem lftLih_keeps (s : State) : ∀ a1 a2, Keeps [.regs, .lft] s (lftLih s a1 a2) := by
  intro a1 a2
  have h : Keeps [.regs, .lft] s s := .refl s
  unfold lftLih
  repeat' (first
      | (with_reducible assumption) | ((with_reducible apply Keeps.after (State.result_keeps _ _ _ _)); rfl)
      | (dsimp only))

theorem lftBswap_keeps (s : State) : ∀ a1 a2, Keeps [.regs, .lft] s (lftBswap s a1 a2) := by
  intro a1 a2
  have h : Keeps [.regs, .lft] s s := .refl s
  unfold lftBswap
  repeat' (first
      | (with_reducible assumption) | ((with_reducible apply Keeps.after (State.result_keeps _ _ _ _)); rfl)
      | (dsimp only))

theorem lftBranch_keeps (s : State) : ∀ a0 a2 a3, Keeps [.regs, .lft] s (lftBranch a0 s a2 a3) := by
  intro a0 a2 a3
  have h : Keeps [.regs, .lft] s s := .refl s
  unfold lftBranch
  repeat' (first
      | (with_reducible assumption) | ((with_reducible apply Keeps.after (State.goOn_keeps _ _)); rfl)
      | ((with_reducible apply Keeps.after (State.goTo_keeps _ _ _)); rfl) | (with_reducible refine Keeps.ite ?_ ?_)
      | (dsimp only) | split)

theorem State.link_keeps (s : State) : ∀ a1 a2 a3, Keeps [.regs, .lft] s (State.link s a1 a2 a3) := by
  intro a1 a2 a3
  have h : Keeps [.regs, .lft] s s := .refl s
  unfold State.link
  repeat' (first
      | (with_reducible assumption) | ((with_reducible apply Keeps.after (State.goTo_keeps _ _ _)); rfl)
      | ((with_reducible apply Keeps.after (State.setThr_keeps _ _ _)); rfl) | (dsimp only))

theorem lftJal_keeps (s : State) : ∀ a1 a2, Keeps [.regs, .lft] s (lftJal s a1 a2) := by
  intro a1 a2
  have h : Keeps [.regs, .lft] s s := .refl s
  unfold lftJal
  repeat' (first
      | (with_reducible assumption) | ((with_reducible apply Keeps.after (State.link_keeps _ _ _ _)); rfl)
      | (dsimp only))

theorem lftJalr_keeps (s : State) : ∀ a1 a2, Keeps [.regs, .lft] s (lftJalr s a1 a2) := by
  intro a1 a2
  have h : Keeps [.regs, .lft] s s := .refl s
  unfold lftJalr
  repeat' (first
      | (with_reducible assumption) | ((with_reducible apply Keeps.after (State.link_keeps _ _ _ _)); rfl)
      | (dsimp only))

theorem State.access_keeps (s : State) (t : Nat) (a : Word64) (n : Nat) (rd wr : Bool) (u : State)
    (e : s.access t a n rd wr = .inl u) : Keeps [.regs, .ecc, .mast, .cel, .cup, .lft, .outbox] s u := by
  unfold State.access at e
  split at e
  · cases e; exact State.thrFault_keeps _ _ _ _
  · split at e
    · cases e; exact State.thrFault_keeps _ _ _ _
    · cases e

theorem State.refRead_fst {s u : State} {r : LftRef} {n : Nat} {o : Option (List Byte)} (e : s.refRead r n = (u, o)) :
    Keeps [.regs, .ecc, .mast] s u := by
  have k := State.refRead_keeps s r n
  rw [e] at k
  exact k

theorem lftLoad_keeps {l : List Part} (hl : lftParts.all (fun p => l.contains p) = true) (p : RegPort)
    (hr : ∀ a n s, Keeps l s (p.rd a n s).1) (sg : Bool) (s : State) (t : Nat) (f : LFields) :
    Keeps l s (lftLoad p sg s t f) := by
  have m := fun {u v : State} (k : Keeps lftParts u v) => k.mono hl
  unfold lftLoad
  dsimp only
  split
  · exact m ((State.access_keeps _ _ _ _ _ _ _ (by assumption)).mono rfl)
  · exact (hr _ _ _).trans (m ((State.result_keeps _ _ _ _).mono rfl))
  · split
    · exact m (((State.refRead_fst (by assumption)).mono rfl).trans ((State.thrFault_keeps _ _ _ _).mono rfl))
    · exact m (((State.refRead_fst (by assumption)).mono rfl).trans ((State.result_keeps _ _ _ _).mono rfl))

theorem lftStore_keeps {l : List Part} (hl : lftParts.all (fun p => l.contains p) = true) (p : RegPort)
    (hw : ∀ a b s, Keeps l s (p.wr a b s)) (s : State) (t : Nat) (f : LFields) : Keeps l s (lftStore p s t f) := by
  have m := fun {u v : State} (k : Keeps lftParts u v) => k.mono hl
  unfold lftStore
  dsimp only
  split
  · exact m ((State.access_keeps _ _ _ _ _ _ _ (by assumption)).mono rfl)
  · exact (hw _ _ _).trans (m ((State.goOn_keeps _ _).mono rfl))
  · exact m (((State.refWrite_keeps _ _ _).mono rfl).trans ((State.goOn_keeps _ _).mono rfl))

theorem lftAmo_keeps (s : State) : ∀ a0 a2 a3, Keeps [.regs, .ecc, .mast, .cel, .attic, .cup, .lft,
    .outbox] s (lftAmo a0 s a2 a3) := by
  intro a0 a2 a3
  have h : Keeps [.regs, .ecc, .mast, .cel, .attic, .cup, .lft, .outbox] s s := .refl s
  unfold lftAmo
  repeat' (first
      | (with_reducible assumption)
      | ((with_reducible apply Keeps.after (State.access_keeps _ _ _ _ _ _ _ (by assumption))); rfl)
      | ((with_reducible apply Keeps.after (State.refRead_keeps _ _ _)); rfl)
      | ((with_reducible apply Keeps.after (State.refWrite_keeps _ _ _)); rfl)
      | ((with_reducible apply Keeps.after (State.result_keeps _ _ _ _)); rfl)
      | ((with_reducible apply Keeps.after (State.thrFault_keeps _ _ _ _)); rfl)
      | ((with_reducible apply Keeps.pair); with_reducible assumption) | (with_reducible apply Keeps.fst_ite)
      | (dsimp only) | split)

theorem lftTkNext_keeps (s : State) : ∀ a1 a2, Keeps [.regs, .freeCtr, .ecc, .mast, .cel, .attic, .cup, .lft,
    .outbox] s (lftTkNext s a1 a2) := by
  intro a1 a2
  have h : Keeps [.regs, .freeCtr, .ecc, .mast, .cel, .attic, .cup, .lft, .outbox] s s := .refl s
  unfold lftTkNext
  repeat' (first
      | (with_reducible assumption) | ((with_reducible apply Keeps.after (State.celRead_keeps _ _ _ _)); rfl)
      | ((with_reducible apply Keeps.after (State.free_keeps _ _)); rfl)
      | ((with_reducible apply Keeps.after (State.refWrite_keeps _ _ _)); rfl)
      | ((with_reducible apply Keeps.after (State.result_keeps _ _ _ _)); rfl)
      | ((with_reducible apply Keeps.after (State.setThr_keeps _ _ _)); rfl)
      | ((with_reducible apply Keeps.after (State.thrFault_keeps _ _ _ _)); rfl)
      | ((with_reducible apply Keeps.after (State.waits_keeps _ _ _ _)); rfl)
      | ((with_reducible apply Keeps.pair); with_reducible assumption)
      | ((with_reducible apply Keeps.pair_snd); with_reducible assumption) | (with_reducible refine Keeps.ite ?_ ?_)
      | (with_reducible apply Keeps.fst_ite) | (dsimp only) | split)

theorem State.withTicket_keeps {l : List Part} {u s : State} {t : Nat} {g : Nat → Ticket → State}
    (hl : [Part.regs, .ecc, .mast, .cel, .cup, .lft, .outbox].all (fun p => l.contains p) = true)
    (hf : ∀ n k, Keeps l u (g n k)) (h : Keeps l u s) : Keeps l u (s.withTicket t g) := by
  unfold State.withTicket
  split
  · exact h.trans ((State.thrFault_keeps _ _ _ _).mono hl)
  · exact hf _ _

theorem lftPktRd_keeps (s : State) : ∀ a1 a2, Keeps [.regs, .ecc, .mast, .cel, .attic, .cup, .lft,
    .outbox] s (lftPktRd s a1 a2) := by
  intro a1 a2
  have h : Keeps [.regs, .ecc, .mast, .cel, .attic, .cup, .lft, .outbox] s s := .refl s
  unfold lftPktRd
  repeat' (first
      | (with_reducible assumption) | ((with_reducible apply Keeps.after (State.celRead_keeps _ _ _ _)); rfl)
      | ((with_reducible apply Keeps.after (State.refsWrite_keeps _ _ _)); rfl)
      | ((with_reducible apply Keeps.after (State.waits_keeps _ _ _ _)); rfl)
      | (with_reducible refine State.withTicket_keeps rfl (fun _ _ => ?_) ?_)
      | ((with_reducible apply Keeps.pair); with_reducible assumption) | (with_reducible refine Keeps.ite ?_ ?_)
      | (with_reducible apply Keeps.fst_ite) | (dsimp only) | split)

theorem State.raiseLen_keeps (s : State) : ∀ a1 a2 a3, Keeps [.ecc, .attic, .lft] s (State.raiseLen s a1 a2 a3) := by
  intro a1 a2 a3
  have h : Keeps [.ecc, .attic, .lft] s s := .refl s
  unfold State.raiseLen
  repeat' (first
      | (with_reducible assumption) | ((with_reducible apply Keeps.after (State.refWrite_keeps _ _ _)); rfl)
      | ((with_reducible apply Keeps.after (State.setTicket_keeps _ _ _)); rfl)
      | (with_reducible refine Keeps.ite ?_ ?_) | (dsimp only) | split)

theorem lftPktWr_keeps (s : State) : ∀ a1 a2, Keeps [.regs, .ecc, .mast, .cel, .attic, .cup, .lft,
    .outbox] s (lftPktWr s a1 a2) := by
  intro a1 a2
  have h : Keeps [.regs, .ecc, .mast, .cel, .attic, .cup, .lft, .outbox] s s := .refl s
  unfold lftPktWr
  repeat' (first
      | (with_reducible assumption) | ((with_reducible apply Keeps.after (State.celWrite_keeps _ _ _ _)); rfl)
      | ((with_reducible apply Keeps.after (State.raiseLen_keeps _ _ _ _)); rfl)
      | ((with_reducible apply Keeps.after (State.refsRead_keeps _ _)); rfl)
      | ((with_reducible apply Keeps.after (State.thrFault_keeps _ _ _ _)); rfl)
      | ((with_reducible apply Keeps.after (State.waits_keeps _ _ _ _)); rfl)
      | (with_reducible refine State.withTicket_keeps rfl (fun _ _ => ?_) ?_)
      | ((with_reducible apply Keeps.pair); with_reducible assumption) | (with_reducible refine Keeps.ite ?_ ?_)
      | (with_reducible apply Keeps.fst_ite) | (dsimp only) | split)

theorem State.inboxHead_keeps (s : State) : ∀ a1 a2, Keeps [.regs, .ecc, .mast] s (State.inboxHead s a1 a2).1 := by
  intro a1 a2
  have h : Keeps [.regs, .ecc, .mast] s s := .refl s
  unfold State.inboxHead
  repeat' (first
      | (with_reducible assumption) | ((with_reducible apply Keeps.after (State.refRead_keeps _ _ _)); rfl)
      | ((with_reducible apply Keeps.pair); with_reducible assumption) | (with_reducible refine Keeps.ite ?_ ?_)
      | (with_reducible apply Keeps.fst_ite) | (dsimp only) | split)

theorem State.sendFrame_keeps (s : State) : ∀ a1 a2, Keeps [.regs, .ecc, .mast,
    .cel] s (State.sendFrame s a1 a2).1 := by
  intro a1 a2
  have h : Keeps [.regs, .ecc, .mast, .cel] s s := .refl s
  unfold State.sendFrame
  repeat' (first
      | (with_reducible assumption) | ((with_reducible apply Keeps.after (State.celRead_keeps _ _ _ _)); rfl)
      | ((with_reducible apply Keeps.pair); with_reducible assumption) | (with_reducible refine Keeps.ite ?_ ?_)
      | (with_reducible apply Keeps.fst_ite) | (dsimp only) | split)

theorem State.tkEnd_keeps (s : State) : ∀ a1 a2 a3 a4 a5, Keeps [.regs, .mast,
    .lft] s (State.tkEnd s a1 a2 a3 a4 a5) := by
  intro a1 a2 a3 a4 a5
  have h : Keeps [.regs, .mast, .lft] s s := .refl s
  unfold State.tkEnd
  repeat' (first
      | (with_reducible assumption) | ((with_reducible apply Keeps.after (State.count_keeps _ _ _ _)); rfl)
      | ((with_reducible apply Keeps.after (State.dropTicket_keeps _ _)); rfl)
      | ((with_reducible apply Keeps.after (State.setThr_keeps _ _ _)); rfl)
      | ((with_reducible apply Keeps.after (State.waits_keeps _ _ _ _)); rfl)
      | (with_reducible refine Keeps.ite ?_ ?_) | (dsimp only) | split)

theorem lftTkEmit_keeps (s : State) : ∀ a1 a2, Keeps [.regs, .freeCtr, .ecc, .mast, .cel, .cup, .lft, .pipe,
    .outbox] s (lftTkEmit s a1 a2) := by
  intro a1 a2
  have h : Keeps [.regs, .freeCtr, .ecc, .mast, .cel, .cup, .lft, .pipe, .outbox] s s := .refl s
  unfold lftTkEmit
  repeat' (first
      | (with_reducible assumption) | ((with_reducible apply Keeps.after (State.handDirect_keeps _ _ _ _ _ _)); rfl)
      | ((with_reducible apply Keeps.after (State.inboxHead_keeps _ _ _)); rfl)
      | ((with_reducible apply Keeps.after (State.ownerPass_keeps _ _ _)); rfl)
      | ((with_reducible apply Keeps.after (State.sendFrame_keeps _ _ _)); rfl)
      | ((with_reducible apply Keeps.after (State.thrFault_keeps _ _ _ _)); rfl)
      | ((with_reducible apply Keeps.after (State.tkEnd_keeps _ _ _ _ _ _)); rfl)
      | (with_reducible refine State.withTicket_keeps rfl (fun _ _ => ?_) ?_)
      | ((with_reducible apply Keeps.pair); with_reducible assumption) | (with_reducible refine Keeps.ite ?_ ?_)
      | (with_reducible apply Keeps.fst_ite) | (dsimp only) | split)

theorem lftTkReinject_keeps (s : State) : ∀ a1 a2, Keeps [.regs, .ecc, .mast, .cel, .cup, .lft, .pipe,
    .outbox] s (lftTkReinject s a1 a2) := by
  intro a1 a2
  have h : Keeps [.regs, .ecc, .mast, .cel, .cup, .lft, .pipe, .outbox] s s := .refl s
  unfold lftTkReinject
  repeat' (first
      | (with_reducible assumption) | ((with_reducible apply Keeps.after (State.handHead_keeps _ _ _ _ _ _)); rfl)
      | ((with_reducible apply Keeps.after (State.inboxHead_keeps _ _ _)); rfl)
      | ((with_reducible apply Keeps.after (State.ownerPass_keeps _ _ _)); rfl)
      | ((with_reducible apply Keeps.after (State.sendFrame_keeps _ _ _)); rfl)
      | ((with_reducible apply Keeps.after (State.thrFault_keeps _ _ _ _)); rfl)
      | ((with_reducible apply Keeps.after (State.tkEnd_keeps _ _ _ _ _ _)); rfl)
      | (with_reducible refine State.withTicket_keeps rfl (fun _ _ => ?_) ?_)
      | ((with_reducible apply Keeps.pair); with_reducible assumption) | (with_reducible refine Keeps.ite ?_ ?_)
      | (with_reducible apply Keeps.fst_ite) | (dsimp only) | split)

theorem lftTkHost_keeps (s : State) : ∀ a1 a2, Keeps [.regs, .ecc, .mast, .cel, .cup, .dwy, .lft,
    .outbox] s (lftTkHost s a1 a2) := by
  intro a1 a2
  have h : Keeps [.regs, .ecc, .mast, .cel, .cup, .dwy, .lft, .outbox] s s := .refl s
  unfold lftTkHost
  repeat' (first
      | (with_reducible assumption) | ((with_reducible apply Keeps.after (State.hostDeliver_keeps _ _ _ _ _)); rfl)
      | ((with_reducible apply Keeps.after (State.inboxHead_keeps _ _ _)); rfl)
      | ((with_reducible apply Keeps.after (State.thrFault_keeps _ _ _ _)); rfl)
      | ((with_reducible apply Keeps.after (State.tkEnd_keeps _ _ _ _ _ _)); rfl)
      | (with_reducible refine State.withTicket_keeps rfl (fun _ _ => ?_) ?_)
      | ((with_reducible apply Keeps.pair); with_reducible assumption) | (with_reducible refine Keeps.ite ?_ ?_)
      | (with_reducible apply Keeps.fst_ite) | (dsimp only) | split)

theorem lftTkDone_keeps (s : State) : ∀ a1 a2, Keeps [.regs, .ecc, .mast, .cel, .cup, .lft,
    .outbox] s (lftTkDone s a1 a2) := by
  intro a1 a2
  have h : Keeps [.regs, .ecc, .mast, .cel, .cup, .lft, .outbox] s s := .refl s
  unfold lftTkDone
  repeat' (first
      | (with_reducible assumption) | ((with_reducible apply Keeps.after (State.count_keeps _ _ _ _)); rfl)
      | ((with_reducible apply Keeps.after (State.cupFree_keeps _ _ _ _)); rfl)
      | ((with_reducible apply Keeps.after (State.tkEnd_keeps _ _ _ _ _ _)); rfl)
      | (with_reducible refine State.withTicket_keeps rfl (fun _ _ => ?_) ?_)
      | ((with_reducible apply Keeps.pair); with_reducible assumption) | (with_reducible refine Keeps.ite ?_ ?_)
      | (with_reducible apply Keeps.fst_ite) | (dsimp only) | split)

theorem State.portCommand_keeps {l : List Part} (hl : [Part.regs,
    .lft].all (fun p => l.contains p) = true) (s : State)
    (a w : Nat) (u : CmdPort) (cmd slices : Word) (data : List Word) (hu : ∀ v, Keeps l v (u.run v cmd)) :
    Keeps l s (s.portCommand a w u cmd slices data).1 := by
  have m := fun {x y : State} (k : Keeps [Part.regs, .lft] x y) => k.mono hl
  obtain ⟨cm, sl, stt, da, rn⟩ := u
  have h1 : Keeps l s ((s.wrN cm 0).wr stt (tget 0 s.lft.ports (256 * a + w))) :=
    m ((((State.wrN_keeps _ _ _).mono rfl).trans ((State.wr_keeps _ _ _).mono rfl)))
  have fin : ∀ s2, Keeps l s s2 → ∀ saved : List (Nat × Word), Keeps l s (saved.foldl (fun v p => v.wr p.1 p.2)
      (let s5 := (rn ((da.zip data).foldl (fun v p => v.plainWrite p.1 p.2) s2) cmd).clearRc stt
       { s5 with lft := { s5.lft with ports := tset 0 s5.lft.ports (256 * a + w) (s5.rd stt) } })) := by
    intro s2 h2 saved
    refine Keeps.foldl _ ?_ fun _ _ k => k.trans (m ((State.wr_keeps _ _ _).mono rfl))
    have h3 : Keeps l s ((da.zip data).foldl (fun v p => v.plainWrite p.1 p.2) s2) :=
      Keeps.foldl _ h2 fun _ _ k => k.trans (m ((State.plainWrite_keeps _ _ _).mono rfl))
    have h5 : Keeps l s ((rn ((da.zip data).foldl (fun v p => v.plainWrite p.1 p.2) s2) cmd).clearRc stt) :=
      (h3.trans (hu _)).trans (m ((State.clearRc_keeps _ _).mono rfl))
    revert h5
    generalize (rn ((da.zip data).foldl (fun v p => v.plainWrite p.1 p.2) s2) cmd).clearRc stt = s5
    intro h5
    have k : Keeps [.regs,
        .lft] s5 { s5 with lft := { s5.lft with ports := tset 0 s5.lft.ports (256 * a + w) (s5.rd stt) } } :=
      Keeps.put_lft rfl (fun h => h) (fun h => h) (.refl s5)
    exact h5.trans (m k)
  unfold State.portCommand
  cases sl with
  | none => exact fin _ h1 _
  | some b => exact fin _ (h1.trans (m ((State.plainWrite_keeps _ _ _).mono rfl))) _

theorem State.genCommand_keeps (s : State) (v : Word) : Keeps [.regs, .ecc, .mast, .cel, .hlw, .gal, .lrd,
    .outbox] s (State.genCommand s v) := by
  have h : Keeps [.regs, .ecc, .mast, .cel, .hlw, .gal, .lrd, .outbox] s s := .refl s
  unfold State.genCommand
  repeat' (first
      | with_reducible assumption | ((with_reducible apply Keeps.after (State.genAbort_keeps _)); rfl)
      | ((with_reducible apply Keeps.after (State.genCommit_keeps _)); rfl)
      | ((with_reducible apply Keeps.after (State.genOpen_keeps _)); rfl) | (dsimp only) | split)

theorem cmdPort_keeps {w : Nat} {p : CmdPort} (e : cmdPort w = some p) (v : State) (cmd : Word) :
    Keeps [.regs, .ecc, .mast, .cel, .attic, .cup, .lft, .pipe, .hlw, .gal, .lrd, .stw, .sht, .crw,
        .outbox] v (p.run v cmd) := by
  unfold cmdPort at e
  split at e
  · cases e; exact (State.ucCmdWrite_keeps _ _).mono rfl
  · cases e; exact (State.hlwCmdWrite_keeps _ _).mono rfl
  · cases e; exact (State.galCmdWrite_keeps _ _).mono rfl
  · cases e; exact (State.lrdCmdWrite_keeps _ _).mono rfl
  · cases e; exact (State.crwCmdWrite_keeps _ _).mono rfl
  · cases e; exact (State.stwCmdWrite_keeps _ _).mono rfl
  · cases e; exact (State.shtCmdWrite_keeps _ _).mono rfl
  · cases e

theorem lftTbl_keeps (s : State) (t : Nat) (f : LFields) : Keeps [.regs, .ecc, .mast, .cel, .attic, .cup, .lft,
    .pipe, .hlw, .gal, .lrd, .stw, .sht, .crw, .outbox] s (lftTbl s t f) := by
  have h : Keeps [.regs, .ecc, .mast, .cel, .attic, .cup, .lft, .pipe, .hlw, .gal, .lrd, .stw, .sht, .crw,
      .outbox] s s := .refl s
  unfold lftTbl
  dsimp only
  split
  · repeat' (first
      | with_reducible assumption | ((with_reducible apply Keeps.after (State.count_keeps _ _ _ _)); rfl)
      | ((with_reducible apply Keeps.after (State.genCommand_keeps _ _)); rfl)
      | ((with_reducible apply Keeps.after (State.portCommand_keeps _ _ _ _ _ _ _)); rfl)
      | ((with_reducible apply Keeps.after (State.refsRead_keeps _ _)); rfl)
      | ((with_reducible apply Keeps.after (State.refsWrite_keeps _ _ _)); rfl)
      | ((with_reducible apply Keeps.after (State.result_keeps _ _ _ _)); rfl)
      | ((with_reducible apply Keeps.after (State.thrFault_keeps _ _ _ _)); rfl)
      | ((with_reducible apply Keeps.after (State.waits_keeps _ _ _ _)); rfl)
      | ((with_reducible apply Keeps.pair); with_reducible assumption) | (with_reducible refine Keeps.ite ?_ ?_)
      | (with_reducible apply Keeps.fst_ite) | (dsimp only) | split)
  · split
    · repeat' (first
        | with_reducible assumption | ((with_reducible apply Keeps.after (State.count_keeps _ _ _ _)); rfl)
        | ((with_reducible apply Keeps.after (State.genCommand_keeps _ _)); rfl)
        | ((with_reducible apply Keeps.after (State.portCommand_keeps _ _ _ _ _ _ _)); rfl)
        | ((with_reducible apply Keeps.after (State.refsRead_keeps _ _)); rfl)
        | ((with_reducible apply Keeps.after (State.refsWrite_keeps _ _ _)); rfl)
        | ((with_reducible apply Keeps.after (State.result_keeps _ _ _ _)); rfl)
        | ((with_reducible apply Keeps.after (State.thrFault_keeps _ _ _ _)); rfl)
        | ((with_reducible apply Keeps.after (State.waits_keeps _ _ _ _)); rfl)
        | ((with_reducible apply Keeps.pair); with_reducible assumption) | (with_reducible refine Keeps.ite ?_ ?_)
        | (with_reducible apply Keeps.fst_ite) | (dsimp only) | split)
    · split
      · repeat' (first
          | with_reducible assumption | ((with_reducible apply Keeps.after (State.count_keeps _ _ _ _)); rfl)
          | ((with_reducible apply Keeps.after (State.genCommand_keeps _ _)); rfl)
          | ((with_reducible apply Keeps.after (State.portCommand_keeps _ _ _ _ _ _ _)); rfl)
          | ((with_reducible apply Keeps.after (State.refsRead_keeps _ _)); rfl)
          | ((with_reducible apply Keeps.after (State.refsWrite_keeps _ _ _)); rfl)
          | ((with_reducible apply Keeps.after (State.result_keeps _ _ _ _)); rfl)
          | ((with_reducible apply Keeps.after (State.thrFault_keeps _ _ _ _)); rfl)
          | ((with_reducible apply Keeps.after (State.waits_keeps _ _ _ _)); rfl)
          | ((with_reducible apply Keeps.pair); with_reducible assumption) | (with_reducible refine Keeps.ite ?_ ?_)
          | (with_reducible apply Keeps.fst_ite) | (dsimp only) | split)
      · have hu := State.refsRead_keeps s ‹_›
        rw [‹s.refsRead _ = _›] at hu
        have hu := hu.mono (b := [.regs, .ecc, .mast, .cel, .attic, .cup, .lft, .pipe, .hlw, .gal, .lrd, .stw, .sht,
            .crw, .outbox]) rfl
        dsimp only at hu
        split
        · exact hu.trans ((State.result_keeps _ _ _ _).mono rfl)
        · split
          · exact hu.trans ((State.result_keeps _ _ _ _).mono rfl)
          · refine Keeps.trans ?_ ((State.waits_keeps _ _ _ _).mono rfl)
            refine Keeps.trans ?_ ((State.refsWrite_keeps _ _ _).mono rfl)
            refine Keeps.trans (hu.trans ((State.count_keeps _ evLftTblCmd (t / 64) 0).mono rfl)) ?_
            split
            · exact (State.genCommand_keeps _ _).mono rfl
            · exact State.portCommand_keeps rfl _ _ _ _ _ _ _ fun v => cmdPort_keeps ‹_› v _

theorem lftChk_keeps (s : State) : ∀ a1 a2, Keeps [.regs, .ecc, .mast, .cel, .cup, .lft,
    .outbox] s (lftChk s a1 a2) := by
  intro a1 a2
  have h : Keeps [.regs, .ecc, .mast, .cel, .cup, .lft, .outbox] s s := .refl s
  unfold lftChk
  repeat' (first
      | (with_reducible assumption) | ((with_reducible apply Keeps.after (State.refsRead_keeps _ _)); rfl)
      | ((with_reducible apply Keeps.after (State.thrFault_keeps _ _ _ _)); rfl)
      | ((with_reducible apply Keeps.after (State.waits_keeps _ _ _ _)); rfl)
      | ((with_reducible apply Keeps.pair); with_reducible assumption) | (with_reducible refine Keeps.ite ?_ ?_)
      | (with_reducible apply Keeps.fst_ite) | (dsimp only) | split)

theorem lftDma_keeps (s : State) : ∀ a1 a2, Keeps [.regs, .ecc, .mast, .cel, .attic, .cup, .lft,
    .outbox] s (lftDma s a1 a2) := by
  intro a1 a2
  have h : Keeps [.regs, .ecc, .mast, .cel, .attic, .cup, .lft, .outbox] s s := .refl s
  unfold lftDma
  repeat' (first
      | (with_reducible assumption) | ((with_reducible apply Keeps.after (State.celRead_keeps _ _ _ _)); rfl)
      | ((with_reducible apply Keeps.after (State.celWrite_keeps _ _ _ _)); rfl)
      | ((with_reducible apply Keeps.after (State.refsRead_keeps _ _)); rfl)
      | ((with_reducible apply Keeps.after (State.refsWrite_keeps _ _ _)); rfl)
      | ((with_reducible apply Keeps.after (State.thrFault_keeps _ _ _ _)); rfl)
      | ((with_reducible apply Keeps.after (State.waits_keeps _ _ _ _)); rfl)
      | ((with_reducible apply Keeps.pair); with_reducible assumption) | (with_reducible refine Keeps.ite ?_ ?_)
      | (with_reducible apply Keeps.fst_ite) | (dsimp only) | split)

theorem lftLbPut_keeps (s : State) : ∀ a1 a2, Keeps [.regs, .lft] s (lftLbPut s a1 a2) := by
  intro a1 a2
  have h : Keeps [.regs, .lft] s s := .refl s
  unfold lftLbPut
  repeat' (first
      | (with_reducible assumption) | ((with_reducible apply Keeps.after (State.goOn_keeps _ _)); rfl)
      | ((with_reducible apply Keeps.after (State.setThr_keeps _ _ _)); rfl) | (dsimp only))

theorem lftLbSend_keeps (s : State) : ∀ a1 a2, Keeps [.regs, .mast, .lft] s (lftLbSend s a1 a2) := by
  intro a1 a2
  have h : Keeps [.regs, .mast, .lft] s s := .refl s
  unfold lftLbSend
  repeat' (first
      | (with_reducible assumption) | ((with_reducible apply Keeps.after (State.count_keeps _ _ _ _)); rfl)
      | ((with_reducible apply Keeps.after (State.setThr_keeps _ _ _)); rfl)
      | ((with_reducible apply Keeps.after (State.waits_keeps _ _ _ _)); rfl)
      | (with_reducible refine Keeps.ite ?_ ?_) | (dsimp only) | split)

theorem lftLbDrop_keeps (s : State) : ∀ a1 a2, Keeps [.regs, .lft] s (lftLbDrop s a1 a2) := by
  intro a1 a2
  have h : Keeps [.regs, .lft] s s := .refl s
  unfold lftLbDrop
  repeat' (first
      | (with_reducible assumption) | ((with_reducible apply Keeps.after (State.goOn_keeps _ _)); rfl)
      | ((with_reducible apply Keeps.after (State.setThr_keeps _ _ _)); rfl) | (dsimp only))

theorem lftLbRecv_keeps (s : State) : ∀ a1 a2, Keeps [.regs, .ecc, .mast, .cel, .attic, .cup, .lft,
    .outbox] s (lftLbRecv s a1 a2) := by
  intro a1 a2
  have h : Keeps [.regs, .ecc, .mast, .cel, .attic, .cup, .lft, .outbox] s s := .refl s
  unfold lftLbRecv
  repeat' (first
      | (with_reducible assumption) | ((with_reducible apply Keeps.after (State.refsWrite_keeps _ _ _)); rfl)
      | ((with_reducible apply Keeps.after (State.result_keeps _ _ _ _)); rfl)
      | ((with_reducible apply Keeps.after (State.setThr_keeps _ _ _)); rfl)
      | ((with_reducible apply Keeps.after (State.thrFault_keeps _ _ _ _)); rfl)
      | (with_reducible refine Keeps.ite ?_ ?_) | (dsimp only) | split)

theorem lftWfe_keeps (s : State) : ∀ a1 a2, Keeps [.regs, .lft] s (lftWfe s a1 a2) := by
  intro a1 a2
  have h : Keeps [.regs, .lft] s s := .refl s
  unfold lftWfe
  repeat' (first
      | (with_reducible assumption) | ((with_reducible apply Keeps.after (State.result_keeps _ _ _ _)); rfl)
      | ((with_reducible apply Keeps.after (State.setThr_keeps _ _ _)); rfl)
      | (with_reducible refine Keeps.ite ?_ ?_) | (dsimp only) | split)

theorem State.setFlags_keeps (s : State) : ∀ a1 a2, Keeps [.lft] s (State.setFlags s a1 a2) := by
  intro a1 a2
  have h : Keeps [.lft] s s := .refl s
  unfold State.setFlags
  repeat' (first
      | (with_reducible assumption)
      | ((with_reducible apply Keeps.put_lft); rfl; (first | exact fun h => h | exact Memory.wf_write _ _ _ _ | exact Memory.wf_erase _ _ _ _); (first | exact fun h => h | exact Memory.wf_write _ _ _ _ | exact Memory.wf_erase _ _ _ _); first | (with_reducible assumption))
      | (dsimp only))

theorem lftEvSet_keeps (s : State) : ∀ a1 a2, Keeps [.regs, .lft] s (lftEvSet s a1 a2) := by
  intro a1 a2
  have h : Keeps [.regs, .lft] s s := .refl s
  unfold lftEvSet
  repeat' (first
      | (with_reducible assumption) | ((with_reducible apply Keeps.after (State.goOn_keeps _ _)); rfl)
      | ((with_reducible apply Keeps.after (State.setFlags_keeps _ _ _)); rfl) | (dsimp only))

theorem lftEvClr_keeps (s : State) : ∀ a1 a2, Keeps [.regs, .lft] s (lftEvClr s a1 a2) := by
  intro a1 a2
  have h : Keeps [.regs, .lft] s s := .refl s
  unfold lftEvClr
  repeat' (first
      | (with_reducible assumption) | ((with_reducible apply Keeps.after (State.goOn_keeps _ _)); rfl)
      | ((with_reducible apply Keeps.after (State.setFlags_keeps _ _ _)); rfl) | (dsimp only))

theorem lftTmr_keeps (s : State) : ∀ a1 a2, Keeps [.regs, .lft] s (lftTmr s a1 a2) := by
  intro a1 a2
  have h : Keeps [.regs, .lft] s s := .refl s
  unfold lftTmr
  repeat' (first
      | (with_reducible assumption) | ((with_reducible apply Keeps.after (State.goOn_keeps _ _)); rfl)
      | ((with_reducible apply Keeps.after (State.setThr_keeps _ _ _)); rfl) | (dsimp only))

theorem lftTime_keeps (s : State) : ∀ a1 a2, Keeps [.regs, .lft] s (lftTime s a1 a2) := by
  intro a1 a2
  have h : Keeps [.regs, .lft] s s := .refl s
  unfold lftTime
  repeat' (first
      | (with_reducible assumption) | ((with_reducible apply Keeps.after (State.result_keeps _ _ _ _)); rfl)
      | (dsimp only))

theorem State.control_keeps {l : List Part} {u s : State} {t : Nat} {f : LFields} {op : Nat → State × Nat}
    (hl : [Part.regs, .lft].all (fun p => l.contains p) = true)
    (hf : ∀ n, Keeps l u (op n).1) (h : Keeps l u s) : Keeps l u (s.control t f op) := by
  unfold State.control
  dsimp only
  split
  · exact h.trans ((State.waits_keeps _ _ _ _).mono hl)
  · split
    · exact h.trans ((State.waits_keeps _ _ _ _).mono hl)
    · exact (hf _).trans ((State.waits_keeps _ _ _ _).mono hl)

theorem lftThrWreg_keeps (s : State) : ∀ a1 a2, Keeps [.regs, .lft] s (lftThrWreg s a1 a2) := by
  intro a1 a2
  have h : Keeps [.regs, .lft] s s := .refl s
  unfold lftThrWreg
  repeat' (first
      | (with_reducible assumption) | ((with_reducible apply Keeps.after (State.setThr_keeps _ _ _)); rfl)
      | (with_reducible refine State.control_keeps rfl (fun _ => ?_) ?_) | (with_reducible refine Keeps.ite ?_ ?_)
      | (dsimp only) | split)

theorem lftThrRreg_keeps (s : State) : ∀ a1 a2, Keeps [.regs, .lft] s (lftThrRreg s a1 a2) := by
  intro a1 a2
  have h : Keeps [.regs, .lft] s s := .refl s
  unfold lftThrRreg
  repeat' (first
      | (with_reducible assumption) | (with_reducible refine State.control_keeps rfl (fun _ => ?_) ?_)
      | (with_reducible refine Keeps.ite ?_ ?_) | (dsimp only) | split)

theorem lftThrStart_keeps (s : State) : ∀ a1 a2, Keeps [.regs, .lft] s (lftThrStart s a1 a2) := by
  intro a1 a2
  have h : Keeps [.regs, .lft] s s := .refl s
  unfold lftThrStart
  repeat' (first
      | (with_reducible assumption) | ((with_reducible apply Keeps.after (State.thrStart_keeps _ _)); rfl)
      | (with_reducible refine State.control_keeps rfl (fun _ => ?_) ?_)
      | ((with_reducible apply Keeps.pair); with_reducible assumption) | (with_reducible apply Keeps.fst_ite)
      | (dsimp only))

theorem lftThrStop_keeps (s : State) : ∀ a1 a2, Keeps [.regs, .lft] s (lftThrStop s a1 a2) := by
  intro a1 a2
  have h : Keeps [.regs, .lft] s s := .refl s
  unfold lftThrStop
  repeat' (first
      | (with_reducible assumption) | ((with_reducible apply Keeps.after (State.thrStop_keeps _ _)); rfl)
      | (with_reducible refine State.control_keeps rfl (fun _ => ?_) ?_)
      | ((with_reducible apply Keeps.pair); with_reducible assumption) | (with_reducible apply Keeps.fst_ite)
      | (dsimp only))

theorem lftThrReset_keeps (s : State) : ∀ a1 a2, Keeps [.regs, .ecc, .mast, .cel, .cup, .lft,
    .outbox] s (lftThrReset s a1 a2) := by
  intro a1 a2
  have h : Keeps [.regs, .ecc, .mast, .cel, .cup, .lft, .outbox] s s := .refl s
  unfold lftThrReset
  repeat' (first
      | (with_reducible assumption) | ((with_reducible apply Keeps.after (State.thrResetOp_keeps _ _)); rfl)
      | (with_reducible refine State.control_keeps rfl (fun _ => ?_) ?_)
      | ((with_reducible apply Keeps.pair); with_reducible assumption) | (with_reducible apply Keeps.fst_ite)
      | (dsimp only))

theorem lftThrStat_keeps (s : State) : ∀ a1 a2, Keeps [.regs, .lft] s (lftThrStat s a1 a2) := by
  intro a1 a2
  have h : Keeps [.regs, .lft] s s := .refl s
  unfold lftThrStat
  repeat' (first
      | (with_reducible assumption) | (with_reducible refine State.control_keeps rfl (fun _ => ?_) ?_)
      | (dsimp only))

theorem lftBell_keeps (s : State) : ∀ a1 a2, Keeps [.regs, .mast, .lft] s (lftBell s a1 a2) := by
  intro a1 a2
  have h : Keeps [.regs, .mast, .lft] s s := .refl s
  unfold lftBell
  repeat' (first
      | (with_reducible assumption) | ((with_reducible apply Keeps.after (State.bellPull_keeps _ _)); rfl)
      | ((with_reducible apply Keeps.after (State.goOn_keeps _ _)); rfl) | (dsimp only))

theorem lftVret_keeps (s : State) : ∀ a1 a2, Keeps [.regs, .ecc, .mast, .cel, .cup, .lft,
    .outbox] s (lftVret s a1 a2) := by
  intro a1 a2
  have h : Keeps [.regs, .ecc, .mast, .cel, .cup, .lft, .outbox] s s := .refl s
  unfold lftVret
  repeat' (first
      | (with_reducible assumption) | ((with_reducible apply Keeps.after (State.complete_keeps _ _)); rfl)
      | ((with_reducible apply Keeps.after (State.goTo_keeps _ _ _)); rfl)
      | ((with_reducible apply Keeps.after (State.setThr_keeps _ _ _)); rfl)
      | ((with_reducible apply Keeps.after (State.thrFault_keeps _ _ _ _)); rfl)
      | (with_reducible refine Keeps.ite ?_ ?_) | (dsimp only) | split)

theorem lftTrap_keeps (s : State) : ∀ a1 a2, Keeps [.regs, .ecc, .mast, .cel, .cup, .lft,
    .outbox] s (lftTrap s a1 a2) := by
  intro a1 a2
  have h : Keeps [.regs, .ecc, .mast, .cel, .cup, .lft, .outbox] s s := .refl s
  unfold lftTrap
  repeat' (first
      | (with_reducible assumption) | ((with_reducible apply Keeps.after (State.thrFault_keeps _ _ _ _)); rfl)
      | (dsimp only))

theorem lftBrk_keeps (s : State) : ∀ a1 a2, Keeps [.regs, .ecc, .mast, .cel, .cup, .lft,
    .outbox] s (lftBrk s a1 a2) := by
  intro a1 a2
  have h : Keeps [.regs, .ecc, .mast, .cel, .cup, .lft, .outbox] s s := .refl s
  unfold lftBrk
  repeat' (first
      | (with_reducible assumption) | ((with_reducible apply Keeps.after (State.setThr_keeps _ _ _)); rfl)
      | ((with_reducible apply Keeps.after (State.thrFault_keeps _ _ _ _)); rfl)
      | (with_reducible refine Keeps.ite ?_ ?_) | (dsimp only) | split)

theorem lftStop_keeps (s : State) : ∀ a1 a2, Keeps [.regs, .lft] s (lftStop s a1 a2) := by
  intro a1 a2
  have h : Keeps [.regs, .lft] s s := .refl s
  unfold lftStop
  repeat' (first
      | (with_reducible assumption) | ((with_reducible apply Keeps.after (State.goOn_keeps _ _)); rfl)
      | ((with_reducible apply Keeps.after (State.setThr_keeps _ _ _)); rfl) | (dsimp only))

theorem lftBody_keeps {l : List Part} (hl : lftParts.all (fun p => l.contains p) = true) (p : RegPort)
    (hr : ∀ a n s, Keeps l s (p.rd a n s).1) (hw : ∀ a b s, Keeps l s (p.wr a b s)) (op : Nat) (s : State) (t : Nat)
    (f : LFields) : Keeps l s (lftBody p op s t f) := by
  have m := fun {u v : State} (k : Keeps lftParts u v) => k.mono hl
  have hs := lftStore_keeps hl p hw
  have hd := lftLoad_keeps hl p hr
  unfold lftBody
  split
  · exact m ((lftAlu_keeps s _ t f).mono rfl)
  · exact m ((lftAlu_keeps s _ t f).mono rfl)
  · exact m ((lftAlu_keeps s _ t f).mono rfl)
  · exact m ((lftAlu_keeps s _ t f).mono rfl)
  · exact m ((lftAlu_keeps s _ t f).mono rfl)
  · exact m ((lftAlu_keeps s _ t f).mono rfl)
  · exact m ((lftAlu_keeps s _ t f).mono rfl)
  · exact m ((lftAlu_keeps s _ t f).mono rfl)
  · exact m ((lftAlu_keeps s _ t f).mono rfl)
  · exact m ((lftAlu_keeps s _ t f).mono rfl)
  · exact m ((lftAlu_keeps s _ t f).mono rfl)
  · exact m ((lftAlu_keeps s _ t f).mono rfl)
  · exact m ((lftBext_keeps s t f).mono rfl)
  · exact m ((lftBins_keeps s t f).mono rfl)
  · exact m ((lftPopc_keeps s t f).mono rfl)
  · exact m ((lftClz_keeps s t f).mono rfl)
  · exact m ((lftAluImm_keeps s _ t f).mono rfl)
  · exact m ((lftAluImm_keeps s _ t f).mono rfl)
  · exact m ((lftAluImm_keeps s _ t f).mono rfl)
  · exact m ((lftAluImm_keeps s _ t f).mono rfl)
  · exact m ((lftAluImm_keeps s _ t f).mono rfl)
  · exact m ((lftAluImm_keeps s _ t f).mono rfl)
  · exact m ((lftAluImm_keeps s _ t f).mono rfl)
  · exact m ((lftLi_keeps s t f).mono rfl)
  · exact m ((lftLih_keeps s t f).mono rfl)
  · exact m ((lftBswap_keeps s t f).mono rfl)
  · exact m ((lftBranch_keeps s _ t f).mono rfl)
  · exact m ((lftBranch_keeps s _ t f).mono rfl)
  · exact m ((lftBranch_keeps s _ t f).mono rfl)
  · exact m ((lftBranch_keeps s _ t f).mono rfl)
  · exact m ((lftBranch_keeps s _ t f).mono rfl)
  · exact m ((lftBranch_keeps s _ t f).mono rfl)
  · exact m ((lftJal_keeps s t f).mono rfl)
  · exact m ((lftJalr_keeps s t f).mono rfl)
  · exact hd _ s t f
  · exact hd _ s t f
  · exact hs s t f
  · exact m ((lftAmo_keeps s _ t f).mono rfl)
  · exact m ((lftAmo_keeps s _ t f).mono rfl)
  · exact m ((lftAmo_keeps s _ t f).mono rfl)
  · exact m ((lftTkNext_keeps s t f).mono rfl)
  · exact m ((lftPktRd_keeps s t f).mono rfl)
  · exact m ((lftPktWr_keeps s t f).mono rfl)
  · exact m ((lftTkEmit_keeps s t f).mono rfl)
  · exact m ((lftTkReinject_keeps s t f).mono rfl)
  · exact m ((lftTkHost_keeps s t f).mono rfl)
  · exact m ((lftTkDone_keeps s t f).mono rfl)
  · exact m ((lftTbl_keeps s t f).mono rfl)
  · exact m ((lftChk_keeps s t f).mono rfl)
  · exact m ((lftDma_keeps s t f).mono rfl)
  · exact m ((lftLbPut_keeps s t f).mono rfl)
  · exact m ((lftLbSend_keeps s t f).mono rfl)
  · exact m ((lftLbDrop_keeps s t f).mono rfl)
  · exact m ((lftLbRecv_keeps s t f).mono rfl)
  · exact m ((lftWfe_keeps s t f).mono rfl)
  · exact m ((lftEvSet_keeps s t f).mono rfl)
  · exact m ((lftEvClr_keeps s t f).mono rfl)
  · exact m ((lftTmr_keeps s t f).mono rfl)
  · exact m ((lftTime_keeps s t f).mono rfl)
  · exact m ((lftThrWreg_keeps s t f).mono rfl)
  · exact m ((lftThrRreg_keeps s t f).mono rfl)
  · exact m ((lftThrStart_keeps s t f).mono rfl)
  · exact m ((lftThrStop_keeps s t f).mono rfl)
  · exact m ((lftThrReset_keeps s t f).mono rfl)
  · exact m ((lftThrStat_keeps s t f).mono rfl)
  · exact m ((lftBell_keeps s t f).mono rfl)
  · exact m ((lftVret_keeps s t f).mono rfl)
  · exact m ((lftTrap_keeps s t f).mono rfl)
  · exact m ((lftBrk_keeps s t f).mono rfl)
  · exact m ((lftStop_keeps s t f).mono rfl)
  · exact m ((lftNop_keeps s t f).mono rfl)

theorem noPort_rd {l : List Part} (a n : Nat) (s : State) : Keeps l s (noPort.rd a n s).1 := .refl s

theorem noPort_wr {l : List Part} (a : Nat) (b : List Byte) (s : State) : Keeps l s (noPort.wr a b s) := .refl s

theorem State.dbgStepThr_keeps (s : State) (t : Nat) : Keeps [.regs, .freeCtr, .ecc, .mast, .cel, .attic, .cup, .dwy,
    .lft, .pipe, .hlw, .gal, .lrd, .stw, .sht, .crw, .outbox] s (State.dbgStepThr s t).1 := by
  have h : Keeps [.regs, .freeCtr, .ecc, .mast, .cel, .attic, .cup, .dwy, .lft, .pipe, .hlw, .gal, .lrd, .stw, .sht,
      .crw, .outbox] s s := .refl s
  unfold State.dbgStepThr
  split
  · exact h
  · dsimp only
    have h1 : Keeps [.regs, .freeCtr, .ecc, .mast, .cel, .attic, .cup, .dwy, .lft, .pipe, .hlw, .gal, .lrd, .stw,
        .sht, .crw, .outbox] s (s.setThr t { s.thr t with state := 1 }) := (State.setThr_keeps _ _ _).mono rfl
    revert h1
    generalize s.setThr t { s.thr t with state := 1 } = s1
    intro h1
    have h2 : Keeps [.regs, .freeCtr, .ecc, .mast, .cel, .attic, .cup, .dwy, .lft, .pipe, .hlw, .gal, .lrd, .stw,
        .sht, .crw, .outbox] s ((s1.issueWord t (bits (s1.wordAt t).toNat 63 56) (lftFields (s1.wordAt t))
        (lftBody noPort (bits (s1.wordAt t).toNat 63 56))).endCurrent t) := by
      refine Keeps.trans ?_ ((State.endCurrent_keeps _ _).mono rfl)
      exact h1.trans (State.issueWord_keeps rfl fun u k => k.trans (lftBody_keeps rfl noPort noPort_rd noPort_wr _ u t _))
    revert h2
    generalize (s1.issueWord t (bits (s1.wordAt t).toNat 63 56) (lftFields (s1.wordAt t))
        (lftBody noPort (bits (s1.wordAt t).toNat 63 56))).endCurrent t = s2
    intro h2
    split
    · exact h2.trans ((State.setThr_keeps _ _ _).mono rfl)
    · exact h2

theorem execDbgStep_keeps (s : State) : ∃ t, (execDbgStep s) = .next t ∧ Keeps [.regs, .freeCtr, .ecc, .mast, .cel,
    .attic, .cup, .dwy, .lft, .pipe, .hlw, .gal, .lrd, .stw, .sht, .crw, .outbox] s t := by
  have h : Keeps [.regs, .freeCtr, .ecc, .mast, .cel, .attic, .cup, .dwy, .lft, .pipe, .hlw, .gal, .lrd, .stw, .sht,
      .crw, .outbox] s s := .refl s
  unfold execDbgStep
  repeat' (first | (with_reducible apply Keeps.next) | (with_reducible apply Keeps.next_ite) | dsimp only | split)
  all_goals repeat' (first
      | (with_reducible assumption) | ((with_reducible apply Keeps.after (State.dbgStepThr_keeps _ _)); rfl)
      | (with_reducible refine State.dbgRun_keeps rfl (fun _ _ _ => ?_) ?_)
      | ((with_reducible apply Keeps.pair); with_reducible assumption) | (with_reducible apply Keeps.fst_ite)
      | (dsimp only))

theorem State.dbgCmdWrite_keeps (s : State) : ∀ a1, Keeps [.regs, .freeCtr, .ecc, .mast, .cel, .attic, .cup, .dwy,
    .lft, .pipe, .hlw, .gal, .lrd, .stw, .sht, .crw, .outbox] s (State.dbgCmdWrite s a1) := by
  intro a1
  have h : Keeps [.regs, .freeCtr, .ecc, .mast, .cel, .attic, .cup, .dwy, .lft, .pipe, .hlw, .gal, .lrd, .stw, .sht,
      .crw, .outbox] s s := .refl s
  unfold State.dbgCmdWrite
  repeat' (first
      | (with_reducible assumption) | ((with_reducible apply Keeps.after (State.dbgOp_keeps _ _ _ _)); rfl)
      | ((with_reducible apply Keeps.after (State.dbgStepThr_keeps _ _)); rfl)
      | ((with_reducible apply Keeps.after (State.plainWrite_keeps _ _ _)); rfl)
      | ((with_reducible apply Keeps.after (State.setB_keeps _ _ _)); rfl)
      | (with_reducible refine State.dbgRun_keeps rfl (fun _ _ _ => ?_) ?_)
      | ((with_reducible apply Keeps.pair); with_reducible assumption) | (with_reducible refine Keeps.ite ?_ ?_)
      | (with_reducible apply Keeps.fst_ite) | (dsimp only) | split)

end Sys2Proof.Machine
end

