-- ==== Sys2Proof/Laws/KeepsMasthead.lean ====
section
/-! SUPPORT. What each function of the model can do to the state, one law for each: the resets, Masthead, Cellar and the boot. -/

namespace Sys2Proof.Machine

/-! ## Resets -/

theorem State.portXon_keeps (s : State) : ∀ a1, Keeps [.pipe] s (State.portXon s a1) := by
  intro a1
  have h : Keeps [.pipe] s s := .refl s
  unfold State.portXon
  repeat' (first
      | (with_reducible assumption) | ((with_reducible apply Keeps.after (State.setPort_keeps _ _ _)); rfl)
      | (with_reducible refine Keeps.ite ?_ ?_) | (dsimp only) | split)

theorem State.frameCast_keeps (s : State) : ∀ a1, Keeps [.regs, .ecc, .mast, .cel, .cup, .lft, .pipe, .stw, .sht,
    .crw, .outbox] s (State.frameCast s a1) := by
  intro a1
  have h : Keeps [.regs, .ecc, .mast, .cel, .cup, .lft, .pipe, .stw, .sht, .crw, .outbox] s s := .refl s
  unfold State.frameCast
  repeat' (first
      | (with_reducible assumption) | ((with_reducible apply Keeps.after (State.inError_keeps _ _)); rfl)
      | ((with_reducible apply Keeps.after (State.setFrame_keeps _ _ _)); rfl)
      | (with_reducible refine Keeps.ite ?_ ?_) | (dsimp only) | split)

theorem State.egDrop_keeps (s : State) : ∀ a1, Keeps [.regs, .ecc, .mast, .cel, .cup, .lft, .pipe, .stw, .sht, .crw,
    .outbox] s (State.egDrop s a1) := by
  intro a1
  have h : Keeps [.regs, .ecc, .mast, .cel, .cup, .lft, .pipe, .stw, .sht, .crw, .outbox] s s := .refl s
  unfold State.egDrop
  repeat' (first
      | (with_reducible assumption) | ((with_reducible apply Keeps.after (State.egEnqueue_keeps _ _ _)); rfl)
      | ((with_reducible apply Keeps.after (State.egError_keeps _ _ _ _)); rfl)
      | ((with_reducible apply Keeps.after (State.egLeave_keeps _ _)); rfl)
      | ((with_reducible apply Keeps.after (State.inError_keeps _ _)); rfl)
      | ((with_reducible apply Keeps.after (State.setVoq_keeps _ _ _ _)); rfl)
      | (with_reducible refine Keeps.each ?_ fun _ _ _ => ?_) | (with_reducible refine Keeps.ite ?_ ?_)
      | ((with_reducible apply Keeps.put_stw); rfl; first | (with_reducible assumption) | ((with_reducible apply Keeps.after (State.egEnqueue_keeps _ _ _)); rfl) | ((with_reducible apply Keeps.after (State.egError_keeps _ _ _ _)); rfl) | ((with_reducible apply Keeps.after (State.egLeave_keeps _ _)); rfl) | ((with_reducible apply Keeps.after (State.inError_keeps _ _)); rfl) | ((with_reducible apply Keeps.after (State.setVoq_keeps _ _ _ _)); rfl) | (with_reducible refine Keeps.each ?_ fun _ _ _ => ?_) | (with_reducible refine Keeps.ite ?_ ?_))
      | (dsimp only) | split)

theorem State.sliceDiscard_keeps {l : List Part} {u s : State} {lost : State → Nat → State} {sl : Nat}
    (hl : [Part.regs, .ecc, .mast, .cel, .cup, .lft, .pipe, .stw, .sht, .crw,
        .outbox].all (fun p => l.contains p) = true)
    (hf : ∀ t n, Keeps l u t → Keeps l u (lost t n)) (h : Keeps l u s) : Keeps l u (s.sliceDiscard lost sl) := by
  have m := fun {x y : State}
    (k : Keeps [.regs, .ecc, .mast, .cel, .cup, .lft, .pipe, .stw, .sht, .crw, .outbox] x y) => k.mono hl
  have h1 : Keeps l u (s.wakeSlice sl) := h.trans (m ((State.wakeSlice_keeps _ _).mono rfl))
  unfold State.sliceDiscard
  dsimp only
  refine Keeps.each ?_ fun _ _ k => k.trans (m ((State.egDrop_keeps _ _).mono rfl))
  revert h1
  generalize s.wakeSlice sl = s1
  intro h1
  have h2 : Keeps l u (s1.each (slicePorts sl) fun t n =>
      match (t.port n).rx with
      | some r => lost (t.setPort n { t.port n with rx := some { r with fid := none, discard := true } }) n
      | none => t) := by
    refine Keeps.each h1 fun _ _ k => ?_
    split
    · exact hf _ _ (k.trans (m ((State.setPort_keeps _ _ _).mono rfl)))
    · exact k
  have h3 := h2
  revert h3
  generalize (s1.each (slicePorts sl) fun t n =>
      match (t.port n).rx with
      | some r => lost (t.setPort n { t.port n with rx := some { r with fid := none, discard := true } }) n
      | none => t) = s2
  intro h2
  have h3 : Keeps l u (s2.each (s2.sliceFrames sl) State.frameCast) :=
    Keeps.each h2 fun _ _ k => k.trans (m ((State.frameCast_keeps _ _).mono rfl))
  revert h3
  generalize s2.each (s2.sliceFrames sl) State.frameCast = s3
  intro h3
  have h4 : Keeps l u (s3.each (s3.lft.tickets.filter fun p => p.2.slice == sl && p.2.buf == 0 && decide (p.2.src < 3)) fun t p =>
      t.dropTicket p.1) := Keeps.each h3 fun _ _ k => k.trans (m ((State.dropTicket_keeps _ _).mono rfl))
  revert h4
  generalize (s3.each (s3.lft.tickets.filter fun p => p.2.slice == sl && p.2.buf == 0 && decide (p.2.src < 3)) fun t p =>
      t.dropTicket p.1) = s4
  intro h4
  exact h4.trans (m (Keeps.put_cup_pipe_stw rfl rfl rfl (.refl s4)))

theorem State.sliceRefill_keeps (s : State) : ∀ a1, Keeps [.pipe, .sht] s (State.sliceRefill s a1) := by
  intro a1
  have h : Keeps [.pipe, .sht] s s := .refl s
  unfold State.sliceRefill
  repeat' (first
      | (with_reducible assumption) | ((with_reducible apply Keeps.after (State.portXon_keeps _ _)); rfl)
      | (with_reducible refine Keeps.each ?_ fun _ _ _ => ?_) | (with_reducible refine Keeps.ite ?_ ?_)
      | ((with_reducible apply Keeps.put_sht); rfl; first | (with_reducible assumption) | ((with_reducible apply Keeps.after (State.portXon_keeps _ _)); rfl) | (with_reducible refine Keeps.each ?_ fun _ _ _ => ?_) | (with_reducible refine Keeps.ite ?_ ?_))
      | (dsimp only) | split)

theorem State.sliceRestart_keeps (s : State) : ∀ a1, Keeps [.regs, .ecc, .mast, .cel, .cup, .lft, .pipe, .stw, .sht,
    .crw, .outbox] s (State.sliceRestart s a1) := by
  intro a1
  have h : Keeps [.regs, .ecc, .mast, .cel, .cup, .lft, .pipe, .stw, .sht, .crw, .outbox] s s := .refl s
  unfold State.sliceRestart
  repeat' (first
      | (with_reducible assumption) | ((with_reducible apply Keeps.after (State.count_keeps _ _ _ _)); rfl)
      | ((with_reducible apply Keeps.after (State.sliceRefill_keeps _ _)); rfl)
      | (with_reducible refine State.sliceDiscard_keeps rfl (fun _ _ _ => ?_) ?_) | (dsimp only))

theorem State.stopEngines_keeps (s : State) : ∀ a1, Keeps [.regs, .ecc, .mast, .cel, .cup, .lft,
    .outbox] s (State.stopEngines s a1) := by
  intro a1
  have h : Keeps [.regs, .ecc, .mast, .cel, .cup, .lft, .outbox] s s := .refl s
  unfold State.stopEngines
  repeat' (first
      | (with_reducible assumption) | ((with_reducible apply Keeps.after (State.engineStop_keeps _ _ _)); rfl)
      | (with_reducible refine Keeps.each ?_ fun _ _ _ => ?_) | (dsimp only))

theorem State.startReserved_keeps (s : State) : Keeps [.regs, .ecc, .mast, .cel, .cup, .lft,
    .outbox] s (State.startReserved s) := by
  have h : Keeps [.regs, .ecc, .mast, .cel, .cup, .lft, .outbox] s s := .refl s
  unfold State.startReserved
  repeat' (first
      | (with_reducible assumption) | ((with_reducible apply Keeps.after (State.engineStart_keeps _ _)); rfl)
      | (with_reducible refine Keeps.each ?_ fun _ _ _ => ?_) | (with_reducible refine Keeps.ite ?_ ?_)
      | (dsimp only) | split)

theorem State.safeExitReset_keeps (s : State) : Keeps [.regs, .ecc, .mast, .cel, .cup, .lft, .pipe, .stw, .sht, .crw,
    .outbox] s (State.safeExitReset s) := by
  have h : Keeps [.regs, .ecc, .mast, .cel, .cup, .lft, .pipe, .stw, .sht, .crw, .outbox] s s := .refl s
  unfold State.safeExitReset
  repeat' (first
      | (with_reducible assumption) | ((with_reducible apply Keeps.after (State.engineStart_keeps _ _)); rfl)
      | ((with_reducible apply Keeps.after (State.sliceRestart_keeps _ _)); rfl)
      | ((with_reducible apply Keeps.after (State.startReserved_keeps _)); rfl)
      | (with_reducible refine Keeps.each ?_ fun _ _ _ => ?_) | (with_reducible refine Keeps.ite ?_ ?_)
      | (dsimp only) | split)

/-! ## Masthead -/

theorem State.isolate_keeps (s : State) : ∀ a1 a2, Keeps [.regs, .ecc, .mast, .bell, .cel, .cup, .dwy, .lft, .pipe,
    .stw, .sht, .crw, .outbox] s (State.isolate s a1 a2) := by
  intro a1 a2
  have h : Keeps [.regs, .ecc, .mast, .bell, .cel, .cup, .dwy, .lft, .pipe, .stw, .sht, .crw, .outbox] s s := .refl s
  unfold State.isolate
  repeat' (first
      | (with_reducible assumption) | ((with_reducible apply Keeps.after (State.channelFail_keeps _ _ _)); rfl)
      | ((with_reducible apply Keeps.after (State.count_keeps _ _ _ _)); rfl)
      | ((with_reducible apply Keeps.after (State.dwyReset_keeps _)); rfl)
      | ((with_reducible apply Keeps.after (State.engineStop_keeps _ _ _)); rfl)
      | ((with_reducible apply Keeps.after (State.portLinkDown_keeps _ _)); rfl)
      | ((with_reducible apply Keeps.after (State.setB_keeps _ _ _)); rfl)
      | (with_reducible refine State.sliceDiscard_keeps rfl (fun _ _ _ => ?_) ?_)
      | (with_reducible refine Keeps.each ?_ fun _ _ _ => ?_) | (with_reducible refine Keeps.ite ?_ ?_)
      | (dsimp only) | split)

theorem State.aliveLow_keeps (s : State) : Keeps [.regs, .mast] s (State.aliveLow s) := by
  have h : Keeps [.regs, .mast] s s := .refl s
  unfold State.aliveLow
  repeat' (first
      | (with_reducible assumption) | ((with_reducible apply Keeps.after (State.putB_keeps _ _ _ _)); rfl)
      | ((with_reducible apply Keeps.put_mast); rfl; first | (with_reducible assumption) | ((with_reducible apply Keeps.after (State.putB_keeps _ _ _ _)); rfl))
      | (dsimp only))

theorem State.safeStops_keeps (s : State) : Keeps [.regs, .ecc, .mast, .bell, .cel, .attic, .cup, .lft, .pipe, .gal,
    .lrd, .crw, .outbox] s (State.safeStops s) := by
  have h1 : Keeps [.regs, .ecc, .mast, .bell, .cel, .attic, .cup, .lft, .pipe, .gal, .lrd, .crw,
      .outbox] s (((((s.stopEngines 4).galAbort).lrdAbort).buildAbort).aliveLow) := by
    have h : Keeps [.regs, .ecc, .mast, .bell, .cel, .attic, .cup, .lft, .pipe, .gal, .lrd, .crw,
        .outbox] s s := .refl s
    repeat' (first
        | with_reducible assumption | ((with_reducible apply Keeps.after (State.aliveLow_keeps _)); rfl)
        | ((with_reducible apply Keeps.after (State.buildAbort_keeps _)); rfl)
        | ((with_reducible apply Keeps.after (State.galAbort_keeps _)); rfl)
        | ((with_reducible apply Keeps.after (State.lrdAbort_keeps _)); rfl)
        | ((with_reducible apply Keeps.after (State.portXon_keeps _ _)); rfl)
        | ((with_reducible apply Keeps.after (State.stopEngines_keeps _ _)); rfl)
        | (with_reducible refine Keeps.each ?_ fun _ _ _ => ?_)
        | (first | ((with_reducible apply Keeps.put_mast); rfl; first | (with_reducible assumption) | ((with_reducible apply Keeps.after (State.aliveLow_keeps _)); rfl) | ((with_reducible apply Keeps.after (State.buildAbort_keeps _)); rfl) | ((with_reducible apply Keeps.after (State.galAbort_keeps _)); rfl) | ((with_reducible apply Keeps.after (State.lrdAbort_keeps _)); rfl) | ((with_reducible apply Keeps.after (State.portXon_keeps _ _)); rfl) | ((with_reducible apply Keeps.after (State.stopEngines_keeps _ _)); rfl) | (with_reducible refine Keeps.each ?_ fun _ _ _ => ?_)) | ((with_reducible apply Keeps.put_attic); rfl; (first | exact fun h => h | exact Memory.wf_write _ _ _ _ | exact Memory.wf_erase _ _ _ _); (first | exact fun h => h | exact Memory.wf_write _ _ _ _ | exact Memory.wf_erase _ _ _ _); exact ⟨rfl, rfl, rfl⟩; first | (with_reducible assumption) | ((with_reducible apply Keeps.after (State.aliveLow_keeps _)); rfl) | ((with_reducible apply Keeps.after (State.buildAbort_keeps _)); rfl) | ((with_reducible apply Keeps.after (State.galAbort_keeps _)); rfl) | ((with_reducible apply Keeps.after (State.lrdAbort_keeps _)); rfl) | ((with_reducible apply Keeps.after (State.portXon_keeps _ _)); rfl) | ((with_reducible apply Keeps.after (State.stopEngines_keeps _ _)); rfl) | (with_reducible refine Keeps.each ?_ fun _ _ _ => ?_)) | ((with_reducible apply Keeps.put_mast_attic); rfl; rfl; (first | exact fun h => h | exact Memory.wf_write _ _ _ _ | exact Memory.wf_erase _ _ _ _); (first | exact fun h => h | exact Memory.wf_write _ _ _ _ | exact Memory.wf_erase _ _ _ _); exact ⟨rfl, rfl, rfl⟩; first | (with_reducible assumption) | ((with_reducible apply Keeps.after (State.aliveLow_keeps _)); rfl) | ((with_reducible apply Keeps.after (State.buildAbort_keeps _)); rfl) | ((with_reducible apply Keeps.after (State.galAbort_keeps _)); rfl) | ((with_reducible apply Keeps.after (State.lrdAbort_keeps _)); rfl) | ((with_reducible apply Keeps.after (State.portXon_keeps _ _)); rfl) | ((with_reducible apply Keeps.after (State.stopEngines_keeps _ _)); rfl) | (with_reducible refine Keeps.each ?_ fun _ _ _ => ?_)))
        | (dsimp only))
  have fin : ∀ s2, Keeps [.regs, .ecc, .mast, .bell, .cel, .attic, .cup, .lft, .pipe, .gal, .lrd, .crw,
      .outbox] s s2 → Keeps [.regs, .ecc, .mast, .bell, .cel, .attic, .cup, .lft, .pipe, .gal, .lrd, .crw,
      .outbox] s { s2 with
      mast := { s2.mast with quietFrom := s2.cycles }, attic := { s2.attic with doneFrom := s2.cycles } } :=
    fun _ h => Keeps.put_mast_attic rfl rfl (fun h => h) (fun h => h) ⟨rfl, rfl, rfl⟩ h
  exact fin _ (Keeps.each h1 fun _ _ k => k.trans ((State.portXon_keeps _ _).mono rfl))

theorem State.safeEnter_keeps (s : State) : ∀ a1, Keeps [.regs, .ecc, .mast, .bell, .cel, .attic, .cup, .lft, .pipe,
    .gal, .lrd, .crw, .outbox] s (State.safeEnter s a1) := by
  intro a1
  have h : Keeps [.regs, .ecc, .mast, .bell, .cel, .attic, .cup, .lft, .pipe, .gal, .lrd, .crw,
      .outbox] s s := .refl s
  unfold State.safeEnter
  repeat' (first
      | (with_reducible assumption) | ((with_reducible apply Keeps.after (State.count_keeps _ _ _ _)); rfl)
      | ((with_reducible apply Keeps.after (State.safeStops_keeps _)); rfl)
      | ((with_reducible apply Keeps.after (State.wf_keeps _ _ _ _ _)); rfl)
      | (with_reducible refine Keeps.ite ?_ ?_) | (dsimp only) | split)

theorem State.safeExit_keeps (s : State) : Keeps [.regs, .ecc, .mast, .bell, .cel, .cup, .lft, .pipe, .stw, .sht,
    .crw, .outbox] s (State.safeExit s) := by
  have h : Keeps [.regs, .ecc, .mast, .bell, .cel, .cup, .lft, .pipe, .stw, .sht, .crw, .outbox] s s := .refl s
  unfold State.safeExit
  repeat' (first
      | (with_reducible assumption) | ((with_reducible apply Keeps.after (State.count_keeps _ _ _ _)); rfl)
      | ((with_reducible apply Keeps.after (State.pulse_keeps _ _)); rfl)
      | ((with_reducible apply Keeps.after (State.putB_keeps _ _ _ _)); rfl)
      | ((with_reducible apply Keeps.after (State.safeExitReset_keeps _)); rfl)
      | ((with_reducible apply Keeps.after (State.wf_keeps _ _ _ _ _)); rfl)
      | ((with_reducible apply Keeps.put_mast); rfl; first | (with_reducible assumption) | ((with_reducible apply Keeps.after (State.count_keeps _ _ _ _)); rfl) | ((with_reducible apply Keeps.after (State.pulse_keeps _ _)); rfl) | ((with_reducible apply Keeps.after (State.putB_keeps _ _ _ _)); rfl) | ((with_reducible apply Keeps.after (State.safeExitReset_keeps _)); rfl) | ((with_reducible apply Keeps.after (State.wf_keeps _ _ _ _ _)); rfl))
      | (dsimp only))

theorem State.safeCtlWrite_keeps (s : State) : ∀ a1, Keeps [.regs, .ecc, .mast, .bell, .cel, .attic, .cup, .lft,
    .pipe, .gal, .lrd, .stw, .sht, .crw, .outbox] s (State.safeCtlWrite s a1) := by
  intro a1
  have h : Keeps [.regs, .ecc, .mast, .bell, .cel, .attic, .cup, .lft, .pipe, .gal, .lrd, .stw, .sht, .crw,
      .outbox] s s := .refl s
  unfold State.safeCtlWrite
  repeat' (first
      | (with_reducible assumption) | ((with_reducible apply Keeps.after (State.safeEnter_keeps _ _)); rfl)
      | ((with_reducible apply Keeps.after (State.safeExit_keeps _)); rfl)
      | ((with_reducible apply Keeps.after (State.setB_keeps _ _ _)); rfl) | (with_reducible refine Keeps.ite ?_ ?_)
      | (dsimp only) | split)

theorem execSafeEnterWrite_keeps (s : State) : ∃ t, (execSafeEnterWrite s) = .next t ∧ Keeps [.regs, .ecc, .mast,
    .bell, .cel, .attic, .cup, .lft, .pipe, .gal, .lrd, .stw, .sht, .crw, .outbox] s t := by
  have h : Keeps [.regs, .ecc, .mast, .bell, .cel, .attic, .cup, .lft, .pipe, .gal, .lrd, .stw, .sht, .crw,
      .outbox] s s := .refl s
  unfold execSafeEnterWrite
  repeat' (first | (with_reducible apply Keeps.next) | (with_reducible apply Keeps.next_ite) | dsimp only | split)
  all_goals repeat' (first
      | (with_reducible assumption) | ((with_reducible apply Keeps.after (State.safeCtlWrite_keeps _ _)); rfl)
      | (with_reducible apply Keeps.fst_ite) | (dsimp only))

theorem execSafeExitWrite_keeps (s : State) : ∃ t, (execSafeExitWrite s) = .next t ∧ Keeps [.regs, .ecc, .mast,
    .bell, .cel, .attic, .cup, .lft, .pipe, .gal, .lrd, .stw, .sht, .crw, .outbox] s t := by
  have h : Keeps [.regs, .ecc, .mast, .bell, .cel, .attic, .cup, .lft, .pipe, .gal, .lrd, .stw, .sht, .crw,
      .outbox] s s := .refl s
  unfold execSafeExitWrite
  repeat' (first | (with_reducible apply Keeps.next) | (with_reducible apply Keeps.next_ite) | dsimp only | split)
  all_goals repeat' (first
      | (with_reducible assumption) | ((with_reducible apply Keeps.after (State.safeCtlWrite_keeps _ _)); rfl)
      | (with_reducible apply Keeps.fst_ite) | (dsimp only))

theorem execSafeAutoExit_keeps (s : State) : ∃ t, (execSafeAutoExit s) = .next t ∧ Keeps [.regs, .ecc, .mast, .bell,
    .cel, .cup, .lft, .pipe, .stw, .sht, .crw, .outbox] s t := by
  have h : Keeps [.regs, .ecc, .mast, .bell, .cel, .cup, .lft, .pipe, .stw, .sht, .crw, .outbox] s s := .refl s
  unfold execSafeAutoExit
  repeat' (first | (with_reducible apply Keeps.next) | (with_reducible apply Keeps.next_ite) | dsimp only | split)
  all_goals repeat' (first
      | (with_reducible assumption) | ((with_reducible apply Keeps.after (State.safeExit_keeps _)); rfl)
      | (with_reducible refine Keeps.ite ?_ ?_) | (with_reducible apply Keeps.fst_ite) | (dsimp only) | split)

theorem execReportPresent_keeps (s : State) : ∀ a0 a1 a2, ∃ t, (execReportPresent a0 a1 a2 s) = .next t ∧ Keeps [.regs,
    .mast] s t := by
  intro a0 a1 a2
  have h : Keeps [.regs, .mast] s s := .refl s
  unfold execReportPresent
  repeat' (first | (with_reducible apply Keeps.next) | (with_reducible apply Keeps.next_ite) | dsimp only | split)
  all_goals repeat' (first
      | (with_reducible assumption) | ((with_reducible apply Keeps.after (State.report_keeps _ _ _ _)); rfl)
      | (with_reducible refine Keeps.ite ?_ ?_) | (with_reducible apply Keeps.fst_ite) | (dsimp only) | split)

theorem State.escCount_keeps (s : State) : ∀ a1, Keeps [.mast] s (State.escCount s a1).1 := by
  intro a1
  have h : Keeps [.mast] s s := .refl s
  unfold State.escCount
  repeat' (first
      | (with_reducible assumption) | (with_reducible refine Keeps.ite ?_ ?_) | (with_reducible apply Keeps.fst_ite)
      | ((with_reducible apply Keeps.put_mast); rfl; first | (with_reducible assumption) | (with_reducible refine Keeps.ite ?_ ?_) | (with_reducible apply Keeps.fst_ite))
      | (dsimp only) | split)

theorem State.logReport_keeps (s : State) : ∀ a1 a2 a3, Keeps [.regs, .mast] s (State.logReport s a1 a2 a3) := by
  intro a1 a2 a3
  have h : Keeps [.regs, .mast] s s := .refl s
  unfold State.logReport
  repeat' (first
      | (with_reducible assumption) | ((with_reducible apply Keeps.after (State.setB_keeps _ _ _)); rfl)
      | ((with_reducible apply Keeps.after (State.wrN_keeps _ _ _)); rfl)
      | ((with_reducible apply Keeps.after (State.wr_keeps _ _ _)); rfl)
      | (with_reducible refine Keeps.each ?_ fun _ _ _ => ?_) | (with_reducible refine Keeps.ite ?_ ?_)
      | ((with_reducible apply Keeps.put_mast); rfl; first | (with_reducible assumption) | ((with_reducible apply Keeps.after (State.setB_keeps _ _ _)); rfl) | ((with_reducible apply Keeps.after (State.wrN_keeps _ _ _)); rfl) | ((with_reducible apply Keeps.after (State.wr_keeps _ _ _)); rfl) | (with_reducible refine Keeps.each ?_ fun _ _ _ => ?_) | (with_reducible refine Keeps.ite ?_ ?_))
      | (dsimp only) | split)

theorem State.reportAction_keeps (s : State) : ∀ a1 a2 a3, Keeps [.regs, .ecc, .mast, .bell, .cel, .attic, .cup,
    .dwy, .lft, .pipe, .gal, .lrd, .stw, .sht, .crw, .outbox] s (State.reportAction s a1 a2 a3) := by
  intro a1 a2 a3
  have h : Keeps [.regs, .ecc, .mast, .bell, .cel, .attic, .cup, .dwy, .lft, .pipe, .gal, .lrd, .stw, .sht, .crw,
      .outbox] s s := .refl s
  unfold State.reportAction
  repeat' (first
      | (with_reducible assumption) | ((with_reducible apply Keeps.after (State.isolate_keeps _ _ _)); rfl)
      | ((with_reducible apply Keeps.after (State.pulse_keeps _ _)); rfl)
      | ((with_reducible apply Keeps.after (State.safeEnter_keeps _ _)); rfl)
      | ((with_reducible apply Keeps.after (State.setB_keeps _ _ _)); rfl) | (with_reducible refine Keeps.ite ?_ ?_)
      | (dsimp only) | split)

theorem State.takeReport_keeps (s : State) : ∀ a1, Keeps [.regs, .ecc, .mast, .bell, .cel, .attic, .cup, .dwy, .lft,
    .pipe, .gal, .lrd, .stw, .sht, .crw, .outbox] s (State.takeReport s a1) := by
  intro a1
  have h : Keeps [.regs, .ecc, .mast, .bell, .cel, .attic, .cup, .dwy, .lft, .pipe, .gal, .lrd, .stw, .sht, .crw,
      .outbox] s s := .refl s
  unfold State.takeReport
  repeat' (first
      | (with_reducible assumption) | ((with_reducible apply Keeps.after (State.count_keeps _ _ _ _)); rfl)
      | ((with_reducible apply Keeps.after (State.escCount_keeps _ _)); rfl)
      | ((with_reducible apply Keeps.after (State.logReport_keeps _ _ _ _)); rfl)
      | ((with_reducible apply Keeps.after (State.reportAction_keeps _ _ _ _)); rfl)
      | ((with_reducible apply Keeps.pair); with_reducible assumption) | (with_reducible refine Keeps.ite ?_ ?_)
      | (with_reducible apply Keeps.fst_ite)
      | ((with_reducible apply Keeps.put_mast); rfl; first | (with_reducible assumption) | ((with_reducible apply Keeps.after (State.count_keeps _ _ _ _)); rfl) | ((with_reducible apply Keeps.after (State.escCount_keeps _ _)); rfl) | ((with_reducible apply Keeps.after (State.logReport_keeps _ _ _ _)); rfl) | ((with_reducible apply Keeps.after (State.reportAction_keeps _ _ _ _)); rfl) | ((with_reducible apply Keeps.pair); with_reducible assumption) | (with_reducible refine Keeps.ite ?_ ?_) | (with_reducible apply Keeps.fst_ite))
      | (dsimp only) | split)

theorem execReportTake_keeps (s : State) : ∃ t, (execReportTake s) = .next t ∧ Keeps [.regs, .ecc, .mast, .bell,
    .cel, .attic, .cup, .dwy, .lft, .pipe, .gal, .lrd, .stw, .sht, .crw, .outbox] s t := by
  have h : Keeps [.regs, .ecc, .mast, .bell, .cel, .attic, .cup, .dwy, .lft, .pipe, .gal, .lrd, .stw, .sht, .crw,
      .outbox] s s := .refl s
  unfold execReportTake
  repeat' (first | (with_reducible apply Keeps.next) | (with_reducible apply Keeps.next_ite) | dsimp only | split)
  all_goals repeat' (first
      | (with_reducible assumption) | ((with_reducible apply Keeps.after (State.takeReport_keeps _ _)); rfl)
      | (with_reducible apply Keeps.fst_ite)
      | ((with_reducible apply Keeps.put_mast); rfl; first | (with_reducible assumption) | ((with_reducible apply Keeps.after (State.takeReport_keeps _ _)); rfl) | (with_reducible apply Keeps.fst_ite))
      | (dsimp only) | split)

theorem State.monShow_keeps (s : State) : Keeps [.regs] s (State.monShow s) := by
  have h : Keeps [.regs] s s := .refl s
  unfold State.monShow
  repeat' (first
      | (with_reducible assumption) | ((with_reducible apply Keeps.after (State.wrN_keeps _ _ _)); rfl)
      | (dsimp only))

theorem execMonitorDetect_keeps (s : State) : ∀ a0 a1 a2, ∃ t, (execMonitorDetect a0 a1 a2 s) = .next t ∧ Keeps [.regs,
    .mast] s t := by
  intro a0 a1 a2
  have h : Keeps [.regs, .mast] s s := .refl s
  unfold execMonitorDetect
  repeat' (first | (with_reducible apply Keeps.next) | (with_reducible apply Keeps.next_ite) | dsimp only | split)
  all_goals repeat' (first
      | (with_reducible assumption) | ((with_reducible apply Keeps.after (State.monShow_keeps _)); rfl)
      | ((with_reducible apply Keeps.after (State.report_keeps _ _ _ _)); rfl)
      | (with_reducible refine Keeps.ite ?_ ?_) | (with_reducible apply Keeps.fst_ite)
      | ((with_reducible apply Keeps.put_mast); rfl; first | (with_reducible assumption) | ((with_reducible apply Keeps.after (State.monShow_keeps _)); rfl) | ((with_reducible apply Keeps.after (State.report_keeps _ _ _ _)); rfl) | (with_reducible refine Keeps.ite ?_ ?_) | (with_reducible apply Keeps.fst_ite))
      | (dsimp only) | split)

theorem execMonitorClear_keeps (s : State) : ∀ a0 a1, ∃ t, (execMonitorClear a0 a1 s) = .next t ∧ Keeps [.regs,
    .mast] s t := by
  intro a0 a1
  have h : Keeps [.regs, .mast] s s := .refl s
  unfold execMonitorClear
  repeat' (first | (with_reducible apply Keeps.next) | (with_reducible apply Keeps.next_ite) | dsimp only | split)
  all_goals repeat' (first
      | (with_reducible assumption) | ((with_reducible apply Keeps.after (State.monShow_keeps _)); rfl)
      | (with_reducible refine Keeps.ite ?_ ?_) | (with_reducible apply Keeps.fst_ite)
      | ((with_reducible apply Keeps.put_mast); rfl; first | (with_reducible assumption) | ((with_reducible apply Keeps.after (State.monShow_keeps _)); rfl) | (with_reducible refine Keeps.ite ?_ ?_) | (with_reducible apply Keeps.fst_ite))
      | (dsimp only) | split)

theorem execSelfCheck_keeps (s : State) : ∀ a0 a1, ∃ t, (execSelfCheck a0 a1 s) = .next t ∧ Keeps [.regs, .freeCtr,
    .ecc, .mast, .bell, .cel, .attic, .cup, .lft, .pipe, .gal, .lrd, .crw, .outbox] s t := by
  intro a0 a1
  have h : Keeps [.regs, .freeCtr, .ecc, .mast, .bell, .cel, .attic, .cup, .lft, .pipe, .gal, .lrd, .crw,
      .outbox] s s := .refl s
  unfold execSelfCheck
  repeat' (first | (with_reducible apply Keeps.next) | (with_reducible apply Keeps.next_ite) | dsimp only | split)
  all_goals repeat' (first
      | (with_reducible assumption) | ((with_reducible apply Keeps.after (State.aliveLow_keeps _)); rfl)
      | ((with_reducible apply Keeps.after (State.count_keeps _ _ _ _)); rfl)
      | ((with_reducible apply Keeps.after (State.free_keeps _ _)); rfl)
      | ((with_reducible apply Keeps.after (State.report_keeps _ _ _ _)); rfl)
      | ((with_reducible apply Keeps.after (State.safeStops_keeps _)); rfl)
      | ((with_reducible apply Keeps.after (State.wf_keeps _ _ _ _ _)); rfl)
      | ((with_reducible apply Keeps.pair_snd); with_reducible assumption) | (with_reducible refine Keeps.ite ?_ ?_)
      | (with_reducible apply Keeps.fst_ite)
      | ((with_reducible apply Keeps.put_mast); rfl; first | (with_reducible assumption) | ((with_reducible apply Keeps.after (State.aliveLow_keeps _)); rfl) | ((with_reducible apply Keeps.after (State.count_keeps _ _ _ _)); rfl) | ((with_reducible apply Keeps.after (State.free_keeps _ _)); rfl) | ((with_reducible apply Keeps.after (State.report_keeps _ _ _ _)); rfl) | ((with_reducible apply Keeps.after (State.safeStops_keeps _)); rfl) | ((with_reducible apply Keeps.after (State.wf_keeps _ _ _ _ _)); rfl) | ((with_reducible apply Keeps.pair_snd); with_reducible assumption) | (with_reducible refine Keeps.ite ?_ ?_) | (with_reducible apply Keeps.fst_ite))
      | (dsimp only) | split)

theorem execAliveToggle_keeps (s : State) : ∃ t, (execAliveToggle s) = .next t ∧ Keeps [.mast] s t := by
  have h : Keeps [.mast] s s := .refl s
  unfold execAliveToggle
  repeat' (first | (with_reducible apply Keeps.next) | (with_reducible apply Keeps.next_ite) | dsimp only | split)
  all_goals repeat' (first
      | (with_reducible assumption) | (with_reducible apply Keeps.fst_ite)
      | ((with_reducible apply Keeps.put_mast); rfl; first | (with_reducible assumption) | (with_reducible apply Keeps.fst_ite))
      | (dsimp only))

theorem State.isoRelease_keeps (s : State) : ∀ a1, Keeps [.regs, .ecc, .mast, .cel, .cup, .lft, .pipe, .stw, .sht,
    .crw, .outbox] s (State.isoRelease s a1) := by
  intro a1
  have h : Keeps [.regs, .ecc, .mast, .cel, .cup, .lft, .pipe, .stw, .sht, .crw, .outbox] s s := .refl s
  unfold State.isoRelease
  repeat' (first
      | (with_reducible assumption) | ((with_reducible apply Keeps.after (State.sliceRestart_keeps _ _)); rfl)
      | ((with_reducible apply Keeps.after (State.wr_keeps _ _ _)); rfl)
      | (with_reducible refine Keeps.each ?_ fun _ _ _ => ?_) | (dsimp only))

theorem execIsolationRelease_keeps (s : State) : ∀ a0, ∃ t, (execIsolationRelease a0 s) = .next t ∧ Keeps [.regs,
    .ecc, .mast, .cel, .cup, .lft, .pipe, .stw, .sht, .crw, .outbox] s t := by
  intro a0
  have h : Keeps [.regs, .ecc, .mast, .cel, .cup, .lft, .pipe, .stw, .sht, .crw, .outbox] s s := .refl s
  unfold execIsolationRelease
  repeat' (first | (with_reducible apply Keeps.next) | (with_reducible apply Keeps.next_ite) | dsimp only | split)
  all_goals repeat' (first
      | (with_reducible assumption) | ((with_reducible apply Keeps.after (State.isoRelease_keeps _ _)); rfl)
      | (with_reducible apply Keeps.fst_ite) | (dsimp only))

theorem State.injKeyWrite_keeps (s : State) : ∀ a1, Keeps [.regs, .mast] s (State.injKeyWrite s a1) := by
  intro a1
  have h : Keeps [.regs, .mast] s s := .refl s
  unfold State.injKeyWrite
  repeat' (first
      | (with_reducible assumption) | ((with_reducible apply Keeps.after (State.putB_keeps _ _ _ _)); rfl)
      | ((with_reducible apply Keeps.put_mast); rfl; first | (with_reducible assumption) | ((with_reducible apply Keeps.after (State.putB_keeps _ _ _ _)); rfl))
      | (dsimp only))

theorem State.injCtlWrite_keeps (s : State) : ∀ a1, Keeps [.regs, .freeCtr, .mast] s (State.injCtlWrite s a1) := by
  intro a1
  have h : Keeps [.regs, .freeCtr, .mast] s s := .refl s
  unfold State.injCtlWrite
  repeat' (first
      | (with_reducible assumption) | ((with_reducible apply Keeps.after (State.free_keeps _ _)); rfl)
      | ((with_reducible apply Keeps.after (State.plainWrite_keeps _ _ _)); rfl)
      | ((with_reducible apply Keeps.after (State.report_keeps _ _ _ _)); rfl)
      | ((with_reducible apply Keeps.after (State.setB_keeps _ _ _)); rfl)
      | ((with_reducible apply Keeps.after (State.wf_keeps _ _ _ _ _)); rfl)
      | ((with_reducible apply Keeps.pair_snd); with_reducible assumption) | (with_reducible refine Keeps.ite ?_ ?_)
      | (dsimp only) | split)

theorem execInjectOneBit_keeps (s : State) : ∀ a0, ∃ t, (execInjectOneBit a0 s) = .next t ∧ Keeps [.regs, .freeCtr,
    .mast] s t := by
  intro a0
  have h : Keeps [.regs, .freeCtr, .mast] s s := .refl s
  unfold execInjectOneBit
  repeat' (first | (with_reducible apply Keeps.next) | (with_reducible apply Keeps.next_ite) | dsimp only | split)
  all_goals repeat' (first
      | (with_reducible assumption) | ((with_reducible apply Keeps.after (State.injCtlWrite_keeps _ _)); rfl)
      | (with_reducible apply Keeps.fst_ite) | (dsimp only))

theorem execInjectTwoBits_keeps (s : State) : ∀ a0, ∃ t, (execInjectTwoBits a0 s) = .next t ∧ Keeps [.regs, .freeCtr,
    .mast] s t := by
  intro a0
  have h : Keeps [.regs, .freeCtr, .mast] s s := .refl s
  unfold execInjectTwoBits
  repeat' (first | (with_reducible apply Keeps.next) | (with_reducible apply Keeps.next_ite) | dsimp only | split)
  all_goals repeat' (first
      | (with_reducible assumption) | ((with_reducible apply Keeps.after (State.injCtlWrite_keeps _ _)); rfl)
      | (with_reducible apply Keeps.fst_ite) | (dsimp only))

theorem execInjectReport_keeps (s : State) : ∀ a0, ∃ t, (execInjectReport a0 s) = .next t ∧ Keeps [.regs, .freeCtr,
    .mast] s t := by
  intro a0
  have h : Keeps [.regs, .freeCtr, .mast] s s := .refl s
  unfold execInjectReport
  repeat' (first | (with_reducible apply Keeps.next) | (with_reducible apply Keeps.next_ite) | dsimp only | split)
  all_goals repeat' (first
      | (with_reducible assumption) | ((with_reducible apply Keeps.after (State.injCtlWrite_keeps _ _)); rfl)
      | (with_reducible apply Keeps.fst_ite) | (dsimp only))

theorem execInjectParity_keeps (s : State) : ∀ a0, ∃ t, (execInjectParity a0 s) = .next t ∧ Keeps [.regs, .freeCtr,
    .mast] s t := by
  intro a0
  have h : Keeps [.regs, .freeCtr, .mast] s s := .refl s
  unfold execInjectParity
  repeat' (first | (with_reducible apply Keeps.next) | (with_reducible apply Keeps.next_ite) | dsimp only | split)
  all_goals repeat' (first
      | (with_reducible assumption) | ((with_reducible apply Keeps.after (State.injCtlWrite_keeps _ _)); rfl)
      | (with_reducible apply Keeps.fst_ite) | (dsimp only))

theorem State.logSelect_keeps (s : State) : ∀ a1, Keeps [.regs, .mast] s (State.logSelect s a1) := by
  intro a1
  have h : Keeps [.regs, .mast] s s := .refl s
  unfold State.logSelect
  repeat' (first
      | (with_reducible assumption) | ((with_reducible apply Keeps.after (State.wrN_keeps _ _ _)); rfl)
      | ((with_reducible apply Keeps.after (State.wr_keeps _ _ _)); rfl)
      | (with_reducible refine Keeps.each ?_ fun _ _ _ => ?_) | (with_reducible refine Keeps.ite ?_ ?_)
      | ((with_reducible apply Keeps.put_mast); rfl; first | (with_reducible assumption) | ((with_reducible apply Keeps.after (State.wrN_keeps _ _ _)); rfl) | ((with_reducible apply Keeps.after (State.wr_keeps _ _ _)); rfl) | (with_reducible refine Keeps.each ?_ fun _ _ _ => ?_) | (with_reducible refine Keeps.ite ?_ ?_))
      | (dsimp only) | split)

theorem execLogSelect_keeps (s : State) : ∀ a0, ∃ t, (execLogSelect a0 s) = .next t ∧ Keeps [.regs, .mast] s t := by
  intro a0
  have h : Keeps [.regs, .mast] s s := .refl s
  unfold execLogSelect
  repeat' (first | (with_reducible apply Keeps.next) | (with_reducible apply Keeps.next_ite) | dsimp only | split)
  all_goals repeat' (first
      | (with_reducible assumption) | ((with_reducible apply Keeps.after (State.logSelect_keeps _ _)); rfl)
      | (with_reducible apply Keeps.fst_ite) | (dsimp only))

theorem State.mstRegWrite_keeps (s : State) : ∀ a1 a2, Keeps [.regs, .freeCtr, .ecc, .mast, .bell, .cel, .attic,
    .cup, .lft, .pipe, .gal, .lrd, .stw, .sht, .crw, .outbox] s (State.mstRegWrite s a1 a2) := by
  intro a1 a2
  have h : Keeps [.regs, .freeCtr, .ecc, .mast, .bell, .cel, .attic, .cup, .lft, .pipe, .gal, .lrd, .stw, .sht, .crw,
      .outbox] s s := .refl s
  unfold State.mstRegWrite
  repeat' (first
      | (with_reducible assumption) | ((with_reducible apply Keeps.after (State.injCtlWrite_keeps _ _)); rfl)
      | ((with_reducible apply Keeps.after (State.isoRelease_keeps _ _)); rfl)
      | ((with_reducible apply Keeps.after (State.logSelect_keeps _ _)); rfl)
      | ((with_reducible apply Keeps.after (State.plainWrite_keeps _ _ _)); rfl)
      | ((with_reducible apply Keeps.after (State.safeCtlWrite_keeps _ _)); rfl)
      | ((with_reducible apply Keeps.after (State.setB_keeps _ _ _)); rfl) | (with_reducible refine Keeps.ite ?_ ?_)
      | (dsimp only) | split)

theorem State.dirSelect_keeps (s : State) : ∀ a1, Keeps [.regs] s (State.dirSelect s a1) := by
  intro a1
  have h : Keeps [.regs] s s := .refl s
  unfold State.dirSelect
  repeat' (first
      | (with_reducible assumption) | ((with_reducible apply Keeps.after (State.plainWrite_keeps _ _ _)); rfl)
      | ((with_reducible apply Keeps.after (State.wrN_keeps _ _ _)); rfl) | (dsimp only) | split)

theorem execCounterDirectorySelect_keeps (s : State) : ∀ a0, ∃ t, (execCounterDirectorySelect a0 s) = .next t ∧ Keeps [.regs] s t := by
  intro a0
  have h : Keeps [.regs] s s := .refl s
  unfold execCounterDirectorySelect
  repeat' (first | (with_reducible apply Keeps.next) | (with_reducible apply Keeps.next_ite) | dsimp only | split)
  all_goals repeat' (first
      | (with_reducible assumption) | ((with_reducible apply Keeps.after (State.dirSelect_keeps _ _)); rfl)
      | (with_reducible apply Keeps.fst_ite) | (dsimp only))

theorem State.extClear_keeps (s : State) : ∀ a1 a2, Keeps [.regs, .mast] s (State.extClear s a1 a2) := by
  intro a1 a2
  have h : Keeps [.regs, .mast] s s := .refl s
  unfold State.extClear
  repeat' (first
      | (with_reducible assumption) | ((with_reducible apply Keeps.after (State.wr_keeps _ _ _)); rfl)
      | (with_reducible refine Keeps.ite ?_ ?_)
      | ((with_reducible apply Keeps.put_mast); rfl; first | (with_reducible assumption) | ((with_reducible apply Keeps.after (State.wr_keeps _ _ _)); rfl) | (with_reducible refine Keeps.ite ?_ ?_))
      | (dsimp only) | split)

theorem execCounterScrub_keeps (s : State) : ∀ a0 a1 a2 a3, ∃ t, (execCounterScrub a0 a1 a2 a3 s) = .next t ∧ Keeps [.regs,
    .ecc, .mast] s t := by
  intro a0 a1 a2 a3
  have h : Keeps [.regs, .ecc, .mast] s s := .refl s
  unfold execCounterScrub
  repeat' (first | (with_reducible apply Keeps.next) | (with_reducible apply Keeps.next_ite) | dsimp only | split)
  all_goals repeat' (first
      | (with_reducible assumption) | ((with_reducible apply Keeps.after (State.eccClear_keeps _ _ _)); rfl)
      | ((with_reducible apply Keeps.after (State.eccFlag_keeps _ _ _ _)); rfl)
      | ((with_reducible apply Keeps.after (State.report_keeps _ _ _ _)); rfl)
      | ((with_reducible apply Keeps.after (State.setWrap_keeps _ _)); rfl) | (with_reducible apply Keeps.fst_ite)
      | ((with_reducible apply Keeps.put_mast); rfl; first | (with_reducible assumption) | ((with_reducible apply Keeps.after (State.eccClear_keeps _ _ _)); rfl) | ((with_reducible apply Keeps.after (State.eccFlag_keeps _ _ _ _)); rfl) | ((with_reducible apply Keeps.after (State.report_keeps _ _ _ _)); rfl) | ((with_reducible apply Keeps.after (State.setWrap_keeps _ _)); rfl) | (with_reducible apply Keeps.fst_ite))
      | (dsimp only) | split)

theorem State.snapshot_keeps (s : State) : ∀ a1 a2, Keeps [.regs, .mast, .bell] s (State.snapshot s a1 a2) := by
  intro a1 a2
  have h : Keeps [.regs, .mast, .bell] s s := .refl s
  unfold State.snapshot
  repeat' (first
      | (with_reducible assumption) | ((with_reducible apply Keeps.after (State.count_keeps _ _ _ _)); rfl)
      | ((with_reducible apply Keeps.after (State.pulse_keeps _ _)); rfl)
      | ((with_reducible apply Keeps.after (State.setB_keeps _ _ _)); rfl) | (with_reducible refine Keeps.ite ?_ ?_)
      | ((with_reducible apply Keeps.put_mast); rfl; first | (with_reducible assumption) | ((with_reducible apply Keeps.after (State.count_keeps _ _ _ _)); rfl) | ((with_reducible apply Keeps.after (State.pulse_keeps _ _)); rfl) | ((with_reducible apply Keeps.after (State.setB_keeps _ _ _)); rfl) | (with_reducible refine Keeps.ite ?_ ?_))
      | (dsimp only) | split)

theorem execCounterSnapshot_keeps (s : State) : ∃ t, (execCounterSnapshot s) = .next t ∧ Keeps [.regs, .mast,
    .bell] s t := by
  have h : Keeps [.regs, .mast, .bell] s s := .refl s
  unfold execCounterSnapshot
  repeat' (first | (with_reducible apply Keeps.next) | (with_reducible apply Keeps.next_ite) | dsimp only | split)
  all_goals repeat' (first
      | (with_reducible assumption) | ((with_reducible apply Keeps.after (State.snapshot_keeps _ _ _)); rfl)
      | (with_reducible refine Keeps.ite ?_ ?_) | (with_reducible apply Keeps.fst_ite)
      | ((with_reducible apply Keeps.put_mast); rfl; first | (with_reducible assumption) | ((with_reducible apply Keeps.after (State.snapshot_keeps _ _ _)); rfl) | (with_reducible refine Keeps.ite ?_ ?_) | (with_reducible apply Keeps.fst_ite))
      | (dsimp only) | split)

theorem execSnapWrite_keeps (s : State) : ∃ t, (execSnapWrite s) = .next t ∧ Keeps [.regs, .mast, .bell] s t := by
  have h : Keeps [.regs, .mast, .bell] s s := .refl s
  unfold execSnapWrite
  repeat' (first | (with_reducible apply Keeps.next) | (with_reducible apply Keeps.next_ite) | dsimp only | split)
  all_goals repeat' (first
      | (with_reducible assumption) | ((with_reducible apply Keeps.after (State.snapshot_keeps _ _ _)); rfl)
      | (with_reducible apply Keeps.fst_ite) | (dsimp only))

theorem State.dumpZero_keeps (s : State) : ∀ a1 a2, Keeps [.regs, .ecc, .mast, .cel] s (State.dumpZero s a1 a2) := by
  intro a1 a2
  have h : Keeps [.regs, .ecc, .mast, .cel] s s := .refl s
  unfold State.dumpZero
  repeat' (first
      | (with_reducible assumption) | ((with_reducible apply Keeps.after (State.celZero_keeps _ _ _)); rfl)
      | ((with_reducible apply Keeps.after (State.countBy_keeps _ _ _ _ _)); rfl)
      | (first | ((with_reducible apply Keeps.put_ecc); rfl; first | (with_reducible assumption) | ((with_reducible apply Keeps.after (State.celZero_keeps _ _ _)); rfl) | ((with_reducible apply Keeps.after (State.countBy_keeps _ _ _ _ _)); rfl)) | ((with_reducible apply Keeps.put_cel); rfl; (first | exact fun h => h | exact Memory.wf_write _ _ _ _ | exact Memory.wf_erase _ _ _ _); first | (with_reducible assumption) | ((with_reducible apply Keeps.after (State.celZero_keeps _ _ _)); rfl) | ((with_reducible apply Keeps.after (State.countBy_keeps _ _ _ _ _)); rfl)) | ((with_reducible apply Keeps.put_ecc_cel); rfl; rfl; (first | exact fun h => h | exact Memory.wf_write _ _ _ _ | exact Memory.wf_erase _ _ _ _); first | (with_reducible assumption) | ((with_reducible apply Keeps.after (State.celZero_keeps _ _ _)); rfl) | ((with_reducible apply Keeps.after (State.countBy_keeps _ _ _ _ _)); rfl)))
      | (dsimp only))

theorem State.viewWrite_keeps (s : State) : ∀ a1 a2 a3, Keeps [.regs, .ecc, .mast, .cel,
    .outbox] s (State.viewWrite s a1 a2 a3) := by
  intro a1 a2 a3
  have h : Keeps [.regs, .ecc, .mast, .cel, .outbox] s s := .refl s
  unfold State.viewWrite
  repeat' (first
      | (with_reducible assumption) | ((with_reducible apply Keeps.after (State.celWrite_keeps _ _ _ _)); rfl)
      | ((with_reducible apply Keeps.after (State.setB_keeps _ _ _)); rfl) | (with_reducible refine Keeps.ite ?_ ?_)
      | (dsimp only) | split)

theorem execDumpComplete_keeps (s : State) : ∃ t, (execDumpComplete s) = .next t ∧ Keeps [.regs, .ecc, .mast, .bell,
    .cel, .outbox] s t := by
  have h : Keeps [.regs, .ecc, .mast, .bell, .cel, .outbox] s s := .refl s
  unfold execDumpComplete
  repeat' (first | (with_reducible apply Keeps.next) | (with_reducible apply Keeps.next_ite) | dsimp only | split)
  all_goals repeat' (first
      | (with_reducible assumption) | ((with_reducible apply Keeps.after (State.celWrite_keeps _ _ _ _)); rfl)
      | ((with_reducible apply Keeps.after (State.count_keeps _ _ _ _)); rfl)
      | ((with_reducible apply Keeps.after (State.dumpZero_keeps _ _ _)); rfl)
      | ((with_reducible apply Keeps.after (State.pulse_keeps _ _)); rfl)
      | ((with_reducible apply Keeps.after (State.putB_keeps _ _ _ _)); rfl)
      | ((with_reducible apply Keeps.after (State.viewWrite_keeps _ _ _ _)); rfl)
      | (with_reducible refine Keeps.each ?_ fun _ _ _ => ?_)
      | (with_reducible refine Keeps.foldl _ ?_ fun _ _ _ => ?_)
      | (with_reducible refine Keeps.foldl_fst _ ?_ fun _ _ _ => ?_) | (with_reducible apply Keeps.fst_ite)
      | ((with_reducible apply Keeps.put_mast); rfl; first | (with_reducible assumption) | ((with_reducible apply Keeps.after (State.celWrite_keeps _ _ _ _)); rfl) | ((with_reducible apply Keeps.after (State.count_keeps _ _ _ _)); rfl) | ((with_reducible apply Keeps.after (State.dumpZero_keeps _ _ _)); rfl) | ((with_reducible apply Keeps.after (State.pulse_keeps _ _)); rfl) | ((with_reducible apply Keeps.after (State.putB_keeps _ _ _ _)); rfl) | ((with_reducible apply Keeps.after (State.viewWrite_keeps _ _ _ _)); rfl) | (with_reducible refine Keeps.each ?_ fun _ _ _ => ?_) | (with_reducible refine Keeps.foldl _ ?_ fun _ _ _ => ?_) | (with_reducible refine Keeps.foldl_fst _ ?_ fun _ _ _ => ?_) | (with_reducible apply Keeps.fst_ite))
      | (dsimp only) | split)

theorem State.dumpCfgWrite_keeps (s : State) : ∀ a1 a2, Keeps [.regs] s (State.dumpCfgWrite s a1 a2) := by
  intro a1 a2
  have h : Keeps [.regs] s s := .refl s
  unfold State.dumpCfgWrite
  repeat' (first
      | (with_reducible assumption) | ((with_reducible apply Keeps.after (State.plainWrite_keeps _ _ _)); rfl)
      | ((with_reducible apply Keeps.after (State.setB_keeps _ _ _)); rfl) | (with_reducible refine Keeps.ite ?_ ?_)
      | (dsimp only) | split)

theorem State.cntRegWrite_keeps (s : State) : ∀ a1 a2, Keeps [.regs, .mast, .bell] s (State.cntRegWrite s a1 a2) := by
  intro a1 a2
  have h : Keeps [.regs, .mast, .bell] s s := .refl s
  unfold State.cntRegWrite
  repeat' (first
      | (with_reducible assumption) | ((with_reducible apply Keeps.after (State.dirSelect_keeps _ _)); rfl)
      | ((with_reducible apply Keeps.after (State.dumpCfgWrite_keeps _ _ _)); rfl)
      | ((with_reducible apply Keeps.after (State.extClear_keeps _ _ _)); rfl)
      | ((with_reducible apply Keeps.after (State.plainWrite_keeps _ _ _)); rfl)
      | ((with_reducible apply Keeps.after (State.setB_keeps _ _ _)); rfl)
      | ((with_reducible apply Keeps.after (State.snapshot_keeps _ _ _)); rfl)
      | (with_reducible refine Keeps.ite ?_ ?_) | (dsimp only) | split)

/-! ## AtticOps -/

theorem State.flashPut_keeps (s : State) : ∀ a1 a2, Keeps [.attic] s (State.flashPut s a1 a2) := by
  intro a1 a2
  have h : Keeps [.attic] s s := .refl s
  unfold State.flashPut
  repeat' (first
      | (with_reducible assumption)
      | ((with_reducible apply Keeps.put_attic); rfl; (first | exact fun h => h | exact Memory.wf_write _ _ _ _ | exact Memory.wf_erase _ _ _ _); (first | exact fun h => h | exact Memory.wf_write _ _ _ _ | exact Memory.wf_erase _ _ _ _); exact ⟨rfl, rfl, rfl⟩; first | (with_reducible assumption))
      | (dsimp only))

theorem State.flashProgram_keeps (s : State) : ∀ a1 a2, Keeps [.attic] s (State.flashProgram s a1 a2) := by
  intro a1 a2
  have h : Keeps [.attic] s s := .refl s
  unfold State.flashProgram
  repeat' (first
      | (with_reducible assumption) | ((with_reducible apply Keeps.after (State.flashPut_keeps _ _ _)); rfl)
      | (dsimp only))

theorem State.flashErase_keeps (s : State) : ∀ a1 a2, Keeps [.attic] s (State.flashErase s a1 a2) := by
  intro a1 a2
  have h : Keeps [.attic] s s := .refl s
  unfold State.flashErase
  repeat' (first
      | (with_reducible assumption)
      | ((with_reducible apply Keeps.put_attic); rfl; (first | exact fun h => h | exact Memory.wf_write _ _ _ _ | exact Memory.wf_erase _ _ _ _); (first | exact fun h => h | exact Memory.wf_write _ _ _ _ | exact Memory.wf_erase _ _ _ _); exact ⟨rfl, rfl, rfl⟩; first | (with_reducible assumption))
      | (dsimp only))

theorem State.flashSpoil_keeps (s : State) : ∀ a1 a2, Keeps [.freeCtr, .attic] s (State.flashSpoil s a1 a2) := by
  intro a1 a2
  have h : Keeps [.freeCtr, .attic] s s := .refl s
  unfold State.flashSpoil
  repeat' (first
      | (with_reducible assumption) | ((with_reducible apply Keeps.after (State.flashPut_keeps _ _ _)); rfl)
      | ((with_reducible apply Keeps.after (State.free_keeps _ _)); rfl)
      | ((with_reducible apply Keeps.pair_snd); with_reducible assumption) | (dsimp only))

theorem State.ctlWrite_keeps (s : State) : ∀ a1, Keeps [.attic] s (State.ctlWrite s a1) := by
  intro a1
  have h : Keeps [.attic] s s := .refl s
  unfold State.ctlWrite
  repeat' (first
      | (with_reducible assumption) | ((with_reducible apply Keeps.after (State.flashErase_keeps _ _ _)); rfl)
      | ((with_reducible apply Keeps.after (State.flashProgram_keeps _ _ _)); rfl) | (dsimp only) | split)

theorem State.fuseShow_keeps (s : State) : Keeps [.regs] s (State.fuseShow s) := by
  have h : Keeps [.regs] s s := .refl s
  unfold State.fuseShow
  repeat' (first
      | (with_reducible assumption) | ((with_reducible apply Keeps.after (State.wrN_keeps _ _ _)); rfl)
      | (dsimp only))

/-! ## Cellar -/

theorem execCellarRead_keeps (s : State) : ∀ a0 a1 a2 a3, ∃ t, (execCellarRead a0 a1 a2 a3 s) = .next t ∧ Keeps [.regs,
    .rdata, .ecc, .mast, .cel] s t := by
  intro a0 a1 a2 a3
  have h : Keeps [.regs, .rdata, .ecc, .mast, .cel] s s := .refl s
  unfold execCellarRead
  repeat' (first | (with_reducible apply Keeps.next) | (with_reducible apply Keeps.next_ite) | dsimp only | split)
  all_goals repeat' (first
      | (with_reducible assumption) | ((with_reducible apply Keeps.after (State.answer_keeps _ _)); rfl)
      | ((with_reducible apply Keeps.after (State.celRead_keeps _ _ _ _)); rfl)
      | ((with_reducible apply Keeps.after (State.eccFlag_keeps _ _ _ _)); rfl)
      | ((with_reducible apply Keeps.pair); with_reducible assumption) | (with_reducible apply Keeps.fst_ite)
      | (dsimp only) | split)

theorem execCellarWrite_keeps (s : State) : ∀ a0 a1 a2 a3, ∃ t, (execCellarWrite a0 a1 a2 a3 s) = .next t ∧ Keeps [.regs,
    .ecc, .mast, .cel, .outbox] s t := by
  intro a0 a1 a2 a3
  have h : Keeps [.regs, .ecc, .mast, .cel, .outbox] s s := .refl s
  unfold execCellarWrite
  repeat' (first | (with_reducible apply Keeps.next) | (with_reducible apply Keeps.next_ite) | dsimp only | split)
  all_goals repeat' (first
      | (with_reducible assumption) | ((with_reducible apply Keeps.after (State.celWrite1_keeps _ _ _ _ _)); rfl)
      | (with_reducible refine Keeps.each ?_ fun _ _ _ => ?_) | (with_reducible apply Keeps.fst_ite) | (dsimp only))

theorem execBankRefresh_keeps (s : State) : ∀ a0 a1 a2, ∃ t, (execBankRefresh a0 a1 a2 s) = .next t ∧ Keeps [.regs,
    .mast, .cel] s t := by
  intro a0 a1 a2
  have h : Keeps [.regs, .mast, .cel] s s := .refl s
  unfold execBankRefresh
  repeat' (first | (with_reducible apply Keeps.next) | (with_reducible apply Keeps.next_ite) | dsimp only | split)
  all_goals repeat' (first
      | (with_reducible assumption) | ((with_reducible apply Keeps.after (State.count_keeps _ _ _ _)); rfl)
      | (with_reducible refine Keeps.ite ?_ ?_) | (with_reducible apply Keeps.fst_ite)
      | ((with_reducible apply Keeps.put_cel); rfl; (first | exact fun h => h | exact Memory.wf_write _ _ _ _ | exact Memory.wf_erase _ _ _ _); first | (with_reducible assumption) | ((with_reducible apply Keeps.after (State.count_keeps _ _ _ _)); rfl) | (with_reducible refine Keeps.ite ?_ ?_) | (with_reducible apply Keeps.fst_ite))
      | (dsimp only) | split)

theorem State.selfRefresh_keeps (s : State) : ∀ a1, Keeps [.regs, .mast, .cel] s (State.selfRefresh s a1) := by
  intro a1
  have h : Keeps [.regs, .mast, .cel] s s := .refl s
  unfold State.selfRefresh
  repeat' (first
      | (with_reducible assumption) | ((with_reducible apply Keeps.after (State.count_keeps _ _ _ _)); rfl)
      | ((with_reducible apply Keeps.after (State.wf_keeps _ _ _ _ _)); rfl)
      | ((with_reducible apply Keeps.put_cel); rfl; (first | exact fun h => h | exact Memory.wf_write _ _ _ _ | exact Memory.wf_erase _ _ _ _); first | (with_reducible assumption) | ((with_reducible apply Keeps.after (State.count_keeps _ _ _ _)); rfl) | ((with_reducible apply Keeps.after (State.wf_keeps _ _ _ _ _)); rfl))
      | (dsimp only) | split)

theorem execSelfRefreshEntry_keeps (s : State) : ∀ a0, ∃ t, (execSelfRefreshEntry a0 s) = .next t ∧ Keeps [.regs,
    .mast, .cel] s t := by
  intro a0
  have h : Keeps [.regs, .mast, .cel] s s := .refl s
  unfold execSelfRefreshEntry
  repeat' (first | (with_reducible apply Keeps.next) | (with_reducible apply Keeps.next_ite) | dsimp only | split)
  all_goals repeat' (first
      | (with_reducible assumption) | ((with_reducible apply Keeps.after (State.selfRefresh_keeps _ _)); rfl)
      | (with_reducible refine Keeps.ite ?_ ?_) | (with_reducible apply Keeps.fst_ite) | (dsimp only) | split)

theorem execSelfRefreshExit_keeps (s : State) : ∀ a0, ∃ t, (execSelfRefreshExit a0 s) = .next t ∧ Keeps [.regs,
    .mast] s t := by
  intro a0
  have h : Keeps [.regs, .mast] s s := .refl s
  unfold execSelfRefreshExit
  repeat' (first | (with_reducible apply Keeps.next) | (with_reducible apply Keeps.next_ite) | dsimp only | split)
  all_goals repeat' (first
      | (with_reducible assumption) | ((with_reducible apply Keeps.after (State.count_keeps _ _ _ _)); rfl)
      | ((with_reducible apply Keeps.after (State.wf_keeps _ _ _ _ _)); rfl)
      | (with_reducible refine Keeps.ite ?_ ?_) | (with_reducible apply Keeps.fst_ite) | (dsimp only) | split)

theorem execScrubWake_keeps (s : State) : ∀ a0, ∃ t, (execScrubWake a0 s) = .next t ∧ Keeps [.regs, .mast] s t := by
  intro a0
  have h : Keeps [.regs, .mast] s s := .refl s
  unfold execScrubWake
  repeat' (first | (with_reducible apply Keeps.next) | (with_reducible apply Keeps.next_ite) | dsimp only | split)
  all_goals repeat' (first
      | (with_reducible assumption) | ((with_reducible apply Keeps.after (State.count_keeps _ _ _ _)); rfl)
      | ((with_reducible apply Keeps.after (State.wf_keeps _ _ _ _ _)); rfl)
      | (with_reducible refine Keeps.ite ?_ ?_) | (with_reducible apply Keeps.fst_ite) | (dsimp only) | split)

theorem execStackTemperatureChange_keeps (s : State) : ∀ a0 a1, ∃ t, (execStackTemperatureChange a0 a1 s) = .next t ∧ Keeps [.regs] s t := by
  intro a0 a1
  have h : Keeps [.regs] s s := .refl s
  unfold execStackTemperatureChange
  repeat' (first | (with_reducible apply Keeps.next) | (with_reducible apply Keeps.next_ite) | dsimp only | split)
  all_goals repeat' (first
      | (with_reducible assumption) | ((with_reducible apply Keeps.after (State.putB_keeps _ _ _ _)); rfl)
      | ((with_reducible apply Keeps.after (State.wf_keeps _ _ _ _ _)); rfl)
      | (with_reducible refine Keeps.ite ?_ ?_) | (with_reducible apply Keeps.fst_ite) | (dsimp only) | split)

theorem State.throttle_keeps (s : State) : ∀ a1 a2, Keeps [.regs, .mast, .cel] s (State.throttle s a1 a2) := by
  intro a1 a2
  have h : Keeps [.regs, .mast, .cel] s s := .refl s
  unfold State.throttle
  repeat' (first
      | (with_reducible assumption) | ((with_reducible apply Keeps.after (State.celLatch_keeps _ _ _ _ _)); rfl)
      | ((with_reducible apply Keeps.after (State.count_keeps _ _ _ _)); rfl)
      | ((with_reducible apply Keeps.after (State.setB_keeps _ _ _)); rfl)
      | ((with_reducible apply Keeps.put_cel); rfl; (first | exact fun h => h | exact Memory.wf_write _ _ _ _ | exact Memory.wf_erase _ _ _ _); first | (with_reducible assumption) | ((with_reducible apply Keeps.after (State.celLatch_keeps _ _ _ _ _)); rfl) | ((with_reducible apply Keeps.after (State.count_keeps _ _ _ _)); rfl) | ((with_reducible apply Keeps.after (State.setB_keeps _ _ _)); rfl))
      | (dsimp only))

theorem execActivationWindowEnd_keeps (s : State) : ∃ t, (execActivationWindowEnd s) = .next t ∧ Keeps [.regs, .mast,
    .cel] s t := by
  have h : Keeps [.regs, .mast, .cel] s s := .refl s
  unfold execActivationWindowEnd
  repeat' (first | (with_reducible apply Keeps.next) | (with_reducible apply Keeps.next_ite) | dsimp only | split)
  all_goals repeat' (first
      | (with_reducible assumption) | ((with_reducible apply Keeps.after (State.throttle_keeps _ _ _)); rfl)
      | (with_reducible refine Keeps.each ?_ fun _ _ _ => ?_)
      | (with_reducible refine Keeps.foldl _ ?_ fun _ _ _ => ?_)
      | (with_reducible refine Keeps.foldl_fst _ ?_ fun _ _ _ => ?_) | (with_reducible refine Keeps.ite ?_ ?_)
      | (with_reducible apply Keeps.fst_ite)
      | ((with_reducible apply Keeps.put_cel); rfl; (first | exact fun h => h | exact Memory.wf_write _ _ _ _ | exact Memory.wf_erase _ _ _ _); first | (with_reducible assumption) | ((with_reducible apply Keeps.after (State.throttle_keeps _ _ _)); rfl) | (with_reducible refine Keeps.each ?_ fun _ _ _ => ?_) | (with_reducible refine Keeps.foldl _ ?_ fun _ _ _ => ?_) | (with_reducible refine Keeps.foldl_fst _ ?_ fun _ _ _ => ?_) | (with_reducible refine Keeps.ite ?_ ?_) | (with_reducible apply Keeps.fst_ite))
      | (dsimp only) | split)

theorem execCaParityAlert_keeps (s : State) : ∀ a0 a1, ∃ t, (execCaParityAlert a0 a1 s) = .next t ∧ Keeps [.regs,
    .mast, .cel] s t := by
  intro a0 a1
  have h : Keeps [.regs, .mast, .cel] s s := .refl s
  unfold execCaParityAlert
  repeat' (first | (with_reducible apply Keeps.next) | (with_reducible apply Keeps.next_ite) | dsimp only | split)
  all_goals repeat' (first
      | (with_reducible assumption) | ((with_reducible apply Keeps.after (State.channelFail_keeps _ _ _)); rfl)
      | ((with_reducible apply Keeps.after (State.countBy_keeps _ _ _ _ _)); rfl)
      | ((with_reducible apply Keeps.after (State.count_keeps _ _ _ _)); rfl)
      | ((with_reducible apply Keeps.after (State.report_keeps _ _ _ _)); rfl)
      | ((with_reducible apply Keeps.after (State.setB_keeps _ _ _)); rfl)
      | (with_reducible refine Keeps.foldl _ ?_ fun _ _ _ => ?_)
      | (with_reducible refine Keeps.foldl_fst _ ?_ fun _ _ _ => ?_) | (with_reducible refine Keeps.ite ?_ ?_)
      | (with_reducible apply Keeps.fst_ite)
      | ((with_reducible apply Keeps.put_cel); rfl; (first | exact fun h => h | exact Memory.wf_write _ _ _ _ | exact Memory.wf_erase _ _ _ _); first | (with_reducible assumption) | ((with_reducible apply Keeps.after (State.channelFail_keeps _ _ _)); rfl) | ((with_reducible apply Keeps.after (State.countBy_keeps _ _ _ _ _)); rfl) | ((with_reducible apply Keeps.after (State.count_keeps _ _ _ _)); rfl) | ((with_reducible apply Keeps.after (State.report_keeps _ _ _ _)); rfl) | ((with_reducible apply Keeps.after (State.setB_keeps _ _ _)); rfl) | (with_reducible refine Keeps.foldl _ ?_ fun _ _ _ => ?_) | (with_reducible refine Keeps.foldl_fst _ ?_ fun _ _ _ => ?_) | (with_reducible refine Keeps.ite ?_ ?_) | (with_reducible apply Keeps.fst_ite))
      | (dsimp only) | split)

theorem execPatrolScrub_keeps (s : State) : ∀ a0 a1 a2, ∃ t, (execPatrolScrub a0 a1 a2 s) = .next t ∧ Keeps [.regs,
    .ecc, .mast, .cel] s t := by
  intro a0 a1 a2
  have h : Keeps [.regs, .ecc, .mast, .cel] s s := .refl s
  unfold execPatrolScrub
  repeat' (first | (with_reducible apply Keeps.next) | (with_reducible apply Keeps.next_ite) | dsimp only | split)
  all_goals repeat' (first
      | (with_reducible assumption) | ((with_reducible apply Keeps.after (State.celCheck_keeps _ _ _)); rfl)
      | ((with_reducible apply Keeps.after (State.eccFlag_keeps _ _ _ _)); rfl)
      | ((with_reducible apply Keeps.after (State.wrN_keeps _ _ _)); rfl)
      | (with_reducible refine Keeps.each ?_ fun _ _ _ => ?_) | (with_reducible refine Keeps.ite ?_ ?_)
      | (with_reducible apply Keeps.fst_ite)
      | ((with_reducible apply Keeps.put_cel); rfl; (first | exact fun h => h | exact Memory.wf_write _ _ _ _ | exact Memory.wf_erase _ _ _ _); first | (with_reducible assumption) | ((with_reducible apply Keeps.after (State.celCheck_keeps _ _ _)); rfl) | ((with_reducible apply Keeps.after (State.eccFlag_keeps _ _ _ _)); rfl) | ((with_reducible apply Keeps.after (State.wrN_keeps _ _ _)); rfl) | (with_reducible refine Keeps.each ?_ fun _ _ _ => ?_) | (with_reducible refine Keeps.ite ?_ ?_) | (with_reducible apply Keeps.fst_ite))
      | (dsimp only) | split)

theorem State.celPartWrite_keeps (s : State) : ∀ a1, Keeps [.regs] s (State.celPartWrite s a1) := by
  intro a1
  have h : Keeps [.regs] s s := .refl s
  unfold State.celPartWrite
  repeat' (first
      | (with_reducible assumption) | ((with_reducible apply Keeps.after (State.setB_keeps _ _ _)); rfl)
      | ((with_reducible apply Keeps.after (State.wr_keeps _ _ _)); rfl) | (with_reducible refine Keeps.ite ?_ ?_)
      | (dsimp only) | split)

theorem execCelPartWrite_keeps (s : State) : ∀ a0, ∃ t, (execCelPartWrite a0 s) = .next t ∧ Keeps [.regs] s t := by
  intro a0
  have h : Keeps [.regs] s s := .refl s
  unfold execCelPartWrite
  repeat' (first | (with_reducible apply Keeps.next) | (with_reducible apply Keeps.next_ite) | dsimp only | split)
  all_goals repeat' (first
      | (with_reducible assumption) | ((with_reducible apply Keeps.after (State.celPartWrite_keeps _ _)); rfl)
      | (with_reducible apply Keeps.fst_ite) | (dsimp only))

theorem State.celLockWrite_keeps (s : State) : ∀ a1, Keeps [.regs] s (State.celLockWrite s a1) := by
  intro a1
  have h : Keeps [.regs] s s := .refl s
  unfold State.celLockWrite
  repeat' (first
      | (with_reducible assumption) | ((with_reducible apply Keeps.after (State.setB_keeps _ _ _)); rfl)
      | (with_reducible refine Keeps.ite ?_ ?_) | (dsimp only) | split)

theorem execCelLockWrite_keeps (s : State) : ∀ a0, ∃ t, (execCelLockWrite a0 s) = .next t ∧ Keeps [.regs] s t := by
  intro a0
  have h : Keeps [.regs] s s := .refl s
  unfold execCelLockWrite
  repeat' (first | (with_reducible apply Keeps.next) | (with_reducible apply Keeps.next_ite) | dsimp only | split)
  all_goals repeat' (first
      | (with_reducible assumption) | ((with_reducible apply Keeps.after (State.celLockWrite_keeps _ _)); rfl)
      | (with_reducible apply Keeps.fst_ite) | (dsimp only))

theorem State.celRegWrite_keeps (s : State) : ∀ a1 a2, Keeps [.regs] s (State.celRegWrite s a1 a2) := by
  intro a1 a2
  have h : Keeps [.regs] s s := .refl s
  unfold State.celRegWrite
  repeat' (first
      | (with_reducible assumption) | ((with_reducible apply Keeps.after (State.celLockWrite_keeps _ _)); rfl)
      | ((with_reducible apply Keeps.after (State.celPartWrite_keeps _ _)); rfl)
      | ((with_reducible apply Keeps.after (State.plainWrite_keeps _ _ _)); rfl)
      | ((with_reducible apply Keeps.after (State.setB_keeps _ _ _)); rfl) | (with_reducible refine Keeps.ite ?_ ?_)
      | (dsimp only) | split)

/-! ## Boot -/

theorem Keeps.all {s t : State} (hq : t.pending = s.pending) (ho : t.outbox = s.outbox) (hs : s.sound → t.sound)
    (hf : t.attic.fuseSvn = s.attic.fuseSvn ∧ t.attic.testFuse = s.attic.testFuse ∧ t.attic.keys = s.attic.keys) :
    Keeps allParts s t :=
  ⟨fun p hp => absurd (by cases p <;> decide) hp, hq, ⟨[], by simp [ho]⟩, hs, .of_attic hf⟩

theorem State.blank_keeps (s : State) : Keeps allParts s (State.blank s) :=
  Keeps.all rfl rfl (fun h => ⟨rfl, rfl, h.2.2.1, rfl, rfl⟩) ⟨rfl, rfl, rfl⟩

theorem State.bootRegs_keeps (s : State) : ∀ a1 a2, Keeps [.regs] s (State.bootRegs s a1 a2) := by
  intro a1 a2
  have h : Keeps [.regs] s s := .refl s
  unfold State.bootRegs
  repeat' (first
      | (with_reducible assumption) | ((with_reducible apply Keeps.after (State.fuseShow_keeps _)); rfl)
      | ((with_reducible apply Keeps.after (State.wf_keeps _ _ _ _ _)); rfl)
      | ((with_reducible apply Keeps.after (State.wrN_keeps _ _ _)); rfl) | (dsimp only))

theorem State.flashCut_keeps (s : State) : Keeps [.freeCtr, .attic] s (State.flashCut s) := by
  have h : Keeps [.freeCtr, .attic] s s := .refl s
  unfold State.flashCut
  repeat' (first
      | (with_reducible assumption) | ((with_reducible apply Keeps.after (State.flashSpoil_keeps _ _ _)); rfl)
      | (dsimp only) | split)

theorem State.coldStart_keeps (s : State) : ∀ a1 a2 a3, Keeps allParts s (State.coldStart s a1 a2 a3) := by
  intro a1 a2 a3
  have h : Keeps allParts s s := .refl s
  unfold State.coldStart
  repeat' (first
      | (with_reducible assumption) | ((with_reducible apply Keeps.after (State.blank_keeps _)); rfl)
      | ((with_reducible apply Keeps.after (State.bootRegs_keeps _ _ _)); rfl)
      | ((with_reducible apply Keeps.after (State.flashCut_keeps _)); rfl)
      | ((with_reducible apply Keeps.put_attic); rfl; (first | exact fun h => h | exact Memory.wf_write _ _ _ _ | exact Memory.wf_erase _ _ _ _); (first | exact fun h => h | exact Memory.wf_write _ _ _ _ | exact Memory.wf_erase _ _ _ _); exact ⟨rfl, rfl, rfl⟩; first | (with_reducible assumption) | ((with_reducible apply Keeps.after (State.blank_keeps _)); rfl) | ((with_reducible apply Keeps.after (State.bootRegs_keeps _ _ _)); rfl) | ((with_reducible apply Keeps.after (State.flashCut_keeps _)); rfl))
      | (dsimp only))

theorem execColdStart_keeps (s : State) : ∀ a0 a1 a2, ∃ t, (execColdStart a0 a1 a2 s) = .next t ∧ Keeps allParts s t := by
  intro a0 a1 a2
  have h : Keeps allParts s s := .refl s
  unfold execColdStart
  repeat' (first | (with_reducible apply Keeps.next) | (with_reducible apply Keeps.next_ite) | dsimp only | split)
  all_goals repeat' (first
      | (with_reducible assumption) | ((with_reducible apply Keeps.after (State.coldStart_keeps _ _ _ _)); rfl)
      | (with_reducible apply Keeps.fst_ite) | (dsimp only))

theorem execVddAonLoss_keeps (s : State) : ∃ t, (execVddAonLoss s) = .next t ∧ Keeps allParts s t := by
  have h : Keeps allParts s s := .refl s
  unfold execVddAonLoss
  repeat' (first | (with_reducible apply Keeps.next) | (with_reducible apply Keeps.next_ite) | dsimp only | split)
  all_goals repeat' (first
      | (with_reducible assumption) | ((with_reducible apply Keeps.after (State.coldStart_keeps _ _ _ _)); rfl)
      | (with_reducible apply Keeps.fst_ite) | (dsimp only))

theorem State.restart_keeps (s : State) : Keeps allParts s (State.restart s) := by
  have h1 : Keeps allParts s (let b := s.blank
      { b with
        time := s.time
        mast := { b.mast with
          log := s.mast.log, recov := s.mast.recov, mons := s.mast.mons, injectKey := s.mast.injectKey }
        attic := { b.attic with sbDyn := s.attic.sbDyn } }) :=
    s.blank_keeps.trans (Keeps.all rfl rfl (fun h => ⟨h.1, h.2.1, h.2.2.1, h.2.2.2.1, h.2.2.2.2⟩) ⟨rfl, rfl, rfl⟩)
  have fin : ∀ (l : List Nat) (t : State), Keeps allParts s t → Keeps allParts s
      (((l.foldl (fun (u : State) a => u.wr a (s.rd a)) t).putB mstStatus 29 (s.rb mstStatus 29)).bootRegs 1 1) := by
    intro l t k
    refine Keeps.trans ?_ ((State.bootRegs_keeps _ _ _).mono rfl)
    refine Keeps.trans ?_ ((State.putB_keeps _ _ _ _).mono rfl)
    exact Keeps.foldl _ k fun _ _ g => g.trans ((State.wr_keeps _ _ _).mono rfl)
  exact fin _ _ h1

theorem State.deviceRestart_keeps (s : State) : Keeps allParts s (State.deviceRestart s) := by
  have h : Keeps allParts s s := .refl s
  unfold State.deviceRestart
  repeat' (first
      | (with_reducible assumption) | ((with_reducible apply Keeps.after (State.restart_keeps _)); rfl)
      | (with_reducible refine Keeps.ite ?_ ?_)
      | ((with_reducible apply Keeps.put_attic); rfl; (first | exact fun h => h | exact Memory.wf_write _ _ _ _ | exact Memory.wf_erase _ _ _ _); (first | exact fun h => h | exact Memory.wf_write _ _ _ _ | exact Memory.wf_erase _ _ _ _); exact ⟨rfl, rfl, rfl⟩; first | (with_reducible assumption) | ((with_reducible apply Keeps.after (State.restart_keeps _)); rfl) | (with_reducible refine Keeps.ite ?_ ?_))
      | (dsimp only) | split)

theorem execDeviceRestart_keeps (s : State) : ∃ t, (execDeviceRestart s) = .next t ∧ Keeps allParts s t := by
  have h : Keeps allParts s s := .refl s
  unfold execDeviceRestart
  repeat' (first | (with_reducible apply Keeps.next) | (with_reducible apply Keeps.next_ite) | dsimp only | split)
  all_goals repeat' (first
      | (with_reducible assumption) | ((with_reducible apply Keeps.after (State.deviceRestart_keeps _)); rfl)
      | (with_reducible apply Keeps.fst_ite) | (dsimp only))

theorem State.undoSlot_keeps (s : State) : Keeps allParts s (State.undoSlot s) :=
  Keeps.all rfl rfl (fun h => ⟨rfl, rfl, h.2.2.1, rfl, rfl⟩) ⟨rfl, rfl, rfl⟩

theorem State.setStage_keeps (s : State) : ∀ a1, Keeps [.regs] s (State.setStage s a1) := by
  intro a1
  have h : Keeps [.regs] s s := .refl s
  unfold State.setStage
  repeat' (first
      | (with_reducible assumption) | ((with_reducible apply Keeps.after (State.wf_keeps _ _ _ _ _)); rfl)
      | (dsimp only))

theorem State.setBoot_keeps (s : State) : ∀ a1, Keeps [.attic] s (State.setBoot s a1) := by
  intro a1
  have h : Keeps [.attic] s s := .refl s
  unfold State.setBoot
  repeat' (first
      | (with_reducible assumption)
      | ((with_reducible apply Keeps.put_attic); rfl; (first | exact fun h => h | exact Memory.wf_write _ _ _ _ | exact Memory.wf_erase _ _ _ _); (first | exact fun h => h | exact Memory.wf_write _ _ _ _ | exact Memory.wf_erase _ _ _ _); exact ⟨rfl, rfl, rfl⟩; first | (with_reducible assumption))
      | (dsimp only))

theorem State.slotDefect_keeps (s : State) : ∀ a1 a2, Keeps [.regs, .mast] s (State.slotDefect s a1 a2) := by
  intro a1 a2
  have h : Keeps [.regs, .mast] s s := .refl s
  unfold State.slotDefect
  repeat' (first
      | (with_reducible assumption) | ((with_reducible apply Keeps.after (State.count_keeps _ _ _ _)); rfl)
      | ((with_reducible apply Keeps.after (State.wf_keeps _ _ _ _ _)); rfl) | (dsimp only))

theorem State.bootDefect_keeps (s : State) : ∀ a1, Keeps allParts s (State.bootDefect s a1) := by
  intro a1
  have h : Keeps allParts s s := .refl s
  unfold State.bootDefect
  repeat' (first
      | (with_reducible assumption) | ((with_reducible apply Keeps.after (State.putB_keeps _ _ _ _)); rfl)
      | ((with_reducible apply Keeps.after (State.report_keeps _ _ _ _)); rfl)
      | ((with_reducible apply Keeps.after (State.setBoot_keeps _ _)); rfl)
      | ((with_reducible apply Keeps.after (State.setStage_keeps _ _)); rfl)
      | ((with_reducible apply Keeps.after (State.slotDefect_keeps _ _ _)); rfl)
      | ((with_reducible apply Keeps.after (State.undoSlot_keeps _)); rfl)
      | ((with_reducible apply Keeps.after (State.wf_keeps _ _ _ _ _)); rfl)
      | (with_reducible refine Keeps.ite ?_ ?_) | (dsimp only) | split)

theorem State.flashStage_keeps (s : State) : ∀ a1 a2, Keeps allParts s (State.flashStage s a1 a2) := by
  intro a1 a2
  have h : Keeps allParts s s := .refl s
  unfold State.flashStage
  repeat' (first
      | (with_reducible assumption) | ((with_reducible apply Keeps.after (State.bootDefect_keeps _ _)); rfl)
      | ((with_reducible apply Keeps.after (State.flashProgram_keeps _ _ _)); rfl)
      | ((with_reducible apply Keeps.after (State.setBoot_keeps _ _)); rfl)
      | ((with_reducible apply Keeps.after (State.setStage_keeps _ _)); rfl)
      | ((with_reducible apply Keeps.after (State.slotDefect_keeps _ _ _)); rfl)
      | (with_reducible refine Keeps.foldl _ ?_ fun _ _ _ => ?_)
      | (with_reducible refine Keeps.foldl_fst _ ?_ fun _ _ _ => ?_) | (with_reducible refine Keeps.ite ?_ ?_)
      | (dsimp only) | split)

theorem State.authStage_keeps (s : State) : Keeps allParts s (State.authStage s) := by
  have h : Keeps allParts s s := .refl s
  unfold State.authStage
  repeat' (first
      | (with_reducible assumption) | ((with_reducible apply Keeps.after (State.bootDefect_keeps _ _)); rfl)
      | ((with_reducible apply Keeps.after (State.putB_keeps _ _ _ _)); rfl)
      | ((with_reducible apply Keeps.after (State.setStage_keeps _ _)); rfl)
      | ((with_reducible apply Keeps.after (State.wf_keeps _ _ _ _ _)); rfl)
      | ((with_reducible apply Keeps.after (State.wrN_keeps _ _ _)); rfl) | (with_reducible refine Keeps.ite ?_ ?_)
      | (dsimp only) | split)

theorem State.cellarStage_keeps (s : State) : ∀ a1, Keeps allParts s (State.cellarStage s a1) := by
  intro a1
  have h : Keeps allParts s s := .refl s
  unfold State.cellarStage
  repeat' (first
      | (with_reducible assumption) | ((with_reducible apply Keeps.after (State.bootDefect_keeps _ _)); rfl)
      | ((with_reducible apply Keeps.after (State.celLockWrite_keeps _ _)); rfl)
      | ((with_reducible apply Keeps.after (State.celPartWrite_keeps _ _)); rfl)
      | ((with_reducible apply Keeps.after (State.setStage_keeps _ _)); rfl)
      | ((with_reducible apply Keeps.after (State.wf_keeps _ _ _ _ _)); rfl)
      | ((with_reducible apply Keeps.after (State.wr_keeps _ _ _)); rfl)
      | (with_reducible refine Keeps.each ?_ fun _ _ _ => ?_) | (with_reducible refine Keeps.ite ?_ ?_)
      | (first | ((with_reducible apply Keeps.put_attic); rfl; (first | exact fun h => h | exact Memory.wf_write _ _ _ _ | exact Memory.wf_erase _ _ _ _); (first | exact fun h => h | exact Memory.wf_write _ _ _ _ | exact Memory.wf_erase _ _ _ _); exact ⟨rfl, rfl, rfl⟩; first | (with_reducible assumption) | ((with_reducible apply Keeps.after (State.bootDefect_keeps _ _)); rfl) | ((with_reducible apply Keeps.after (State.celLockWrite_keeps _ _)); rfl) | ((with_reducible apply Keeps.after (State.celPartWrite_keeps _ _)); rfl) | ((with_reducible apply Keeps.after (State.setStage_keeps _ _)); rfl) | ((with_reducible apply Keeps.after (State.wf_keeps _ _ _ _ _)); rfl) | ((with_reducible apply Keeps.after (State.wr_keeps _ _ _)); rfl) | (with_reducible refine Keeps.each ?_ fun _ _ _ => ?_) | (with_reducible refine Keeps.ite ?_ ?_)) | ((with_reducible apply Keeps.put_crw); rfl; first | (with_reducible assumption) | ((with_reducible apply Keeps.after (State.bootDefect_keeps _ _)); rfl) | ((with_reducible apply Keeps.after (State.celLockWrite_keeps _ _)); rfl) | ((with_reducible apply Keeps.after (State.celPartWrite_keeps _ _)); rfl) | ((with_reducible apply Keeps.after (State.setStage_keeps _ _)); rfl) | ((with_reducible apply Keeps.after (State.wf_keeps _ _ _ _ _)); rfl) | ((with_reducible apply Keeps.after (State.wr_keeps _ _ _)); rfl) | (with_reducible refine Keeps.each ?_ fun _ _ _ => ?_) | (with_reducible refine Keeps.ite ?_ ?_)) | ((with_reducible apply Keeps.put_attic_crw); rfl; rfl; (first | exact fun h => h | exact Memory.wf_write _ _ _ _ | exact Memory.wf_erase _ _ _ _); (first | exact fun h => h | exact Memory.wf_write _ _ _ _ | exact Memory.wf_erase _ _ _ _); exact ⟨rfl, rfl, rfl⟩; first | (with_reducible assumption) | ((with_reducible apply Keeps.after (State.bootDefect_keeps _ _)); rfl) | ((with_reducible apply Keeps.after (State.celLockWrite_keeps _ _)); rfl) | ((with_reducible apply Keeps.after (State.celPartWrite_keeps _ _)); rfl) | ((with_reducible apply Keeps.after (State.setStage_keeps _ _)); rfl) | ((with_reducible apply Keeps.after (State.wf_keeps _ _ _ _ _)); rfl) | ((with_reducible apply Keeps.after (State.wr_keeps _ _ _)); rfl) | (with_reducible refine Keeps.each ?_ fun _ _ _ => ?_) | (with_reducible refine Keeps.ite ?_ ?_)))
      | (dsimp only) | split)

theorem State.loadThr_keeps (s : State) : ∀ a1, Keeps [.regs, .ecc, .mast, .cel, .attic, .cup, .pipe, .stw, .crw,
    .outbox] s (State.loadThr s a1) := by
  intro a1
  have h : Keeps [.regs, .ecc, .mast, .cel, .attic, .cup, .pipe, .stw, .crw, .outbox] s s := .refl s
  unfold State.loadThr
  repeat' (first
      | (with_reducible assumption) | ((with_reducible apply Keeps.after (State.setBoot_keeps _ _)); rfl)
      | ((with_reducible apply Keeps.after (State.ucPut_keeps _ _ _ _)); rfl)
      | (with_reducible refine Keeps.each ?_ fun _ _ _ => ?_)
      | ((with_reducible apply Keeps.pair); with_reducible assumption) | (with_reducible apply Keeps.fst_ite)
      | (dsimp only))

theorem State.loadIs_keeps (s : State) : ∀ a1, Keeps [.lft] s (State.loadIs s a1) := by
  intro a1
  have h : Keeps [.lft] s s := .refl s
  unfold State.loadIs
  repeat' (first
      | (with_reducible assumption) | (with_reducible refine Keeps.each ?_ fun _ _ _ => ?_)
      | (with_reducible refine Keeps.foldl _ ?_ fun _ _ _ => ?_)
      | (with_reducible refine Keeps.foldl_fst _ ?_ fun _ _ _ => ?_)
      | ((with_reducible apply Keeps.put_lft); rfl; (first | exact fun h => h | exact Memory.wf_write _ _ _ _ | exact Memory.wf_erase _ _ _ _); (first | exact fun h => h | exact Memory.wf_write _ _ _ _ | exact Memory.wf_erase _ _ _ _); first | (with_reducible assumption) | (with_reducible refine Keeps.each ?_ fun _ _ _ => ?_) | (with_reducible refine Keeps.foldl _ ?_ fun _ _ _ => ?_) | (with_reducible refine Keeps.foldl_fst _ ?_ fun _ _ _ => ?_))
      | (dsimp only))

theorem State.loadShared_keeps (s : State) : ∀ a1, Keeps [.lft] s (State.loadShared s a1) := by
  intro a1
  have h : Keeps [.lft] s s := .refl s
  unfold State.loadShared
  repeat' (first
      | (with_reducible assumption) | (with_reducible refine Keeps.each ?_ fun _ _ _ => ?_)
      | ((with_reducible apply Keeps.put_lft); rfl; (first | exact fun h => h | exact Memory.wf_write _ _ _ _ | exact Memory.wf_erase _ _ _ _); (first | exact fun h => h | exact Memory.wf_write _ _ _ _ | exact Memory.wf_erase _ _ _ _); first | (with_reducible assumption) | (with_reducible refine Keeps.each ?_ fun _ _ _ => ?_))
      | (dsimp only))

theorem State.applySection_keeps (s : State) : ∀ a1 a2, Keeps [.regs, .ecc, .mast, .cel, .attic, .cup, .lft, .pipe,
    .stw, .crw, .outbox] s (State.applySection s a1 a2) := by
  intro a1 a2
  have h : Keeps [.regs, .ecc, .mast, .cel, .attic, .cup, .lft, .pipe, .stw, .crw, .outbox] s s := .refl s
  unfold State.applySection
  repeat' (first
      | (with_reducible assumption) | ((with_reducible apply Keeps.after (State.celApply_keeps _ _ _ _ _)); rfl)
      | ((with_reducible apply Keeps.after (State.loadIs_keeps _ _)); rfl)
      | ((with_reducible apply Keeps.after (State.loadShared_keeps _ _)); rfl)
      | ((with_reducible apply Keeps.after (State.loadThr_keeps _ _)); rfl)
      | ((with_reducible apply Keeps.after (State.setBoot_keeps _ _)); rfl)
      | ((with_reducible apply Keeps.put_attic); rfl; (first | exact fun h => h | exact Memory.wf_write _ _ _ _ | exact Memory.wf_erase _ _ _ _); (first | exact fun h => h | exact Memory.wf_write _ _ _ _ | exact Memory.wf_erase _ _ _ _); exact ⟨rfl, rfl, rfl⟩; first | (with_reducible assumption) | ((with_reducible apply Keeps.after (State.celApply_keeps _ _ _ _ _)); rfl) | ((with_reducible apply Keeps.after (State.loadIs_keeps _ _)); rfl) | ((with_reducible apply Keeps.after (State.loadShared_keeps _ _)); rfl) | ((with_reducible apply Keeps.after (State.loadThr_keeps _ _)); rfl) | ((with_reducible apply Keeps.after (State.setBoot_keeps _ _)); rfl))
      | (dsimp only) | split)

theorem State.loadSections_keeps (n : Nat) (s : State) : Keeps allParts s (State.loadSections n s) := by
  induction n generalizing s with
  | zero => exact .refl s
  | succ n ih =>
    have h : Keeps allParts s s := .refl s
    unfold State.loadSections
    repeat' (first
        | with_reducible assumption | ((with_reducible apply Keeps.after (ih _)); rfl)
        | ((with_reducible apply Keeps.after (State.applySection_keeps _ _ _)); rfl)
        | ((with_reducible apply Keeps.after (State.bootDefect_keeps _ _)); rfl)
        | ((with_reducible apply Keeps.after (State.count_keeps _ _ _ _)); rfl)
        | ((with_reducible apply Keeps.after (State.setBoot_keeps _ _)); rfl)
        | (with_reducible refine Keeps.ite ?_ ?_) | (dsimp only) | split)

theorem State.toRecord_keeps (s : State) : Keeps allParts s (State.toRecord s) := by
  have h : Keeps allParts s s := .refl s
  unfold State.toRecord
  repeat' (first
      | (with_reducible assumption) | ((with_reducible apply Keeps.after (State.loadSections_keeps _ _)); rfl)
      | (dsimp only))

theorem execReservedLoftStart_keeps (s : State) : ∃ t, (execReservedLoftStart s) = .next t ∧ Keeps [.regs, .ecc,
    .mast, .cel, .attic, .cup, .lft, .outbox] s t := by
  have h : Keeps [.regs, .ecc, .mast, .cel, .attic, .cup, .lft, .outbox] s s := .refl s
  unfold execReservedLoftStart
  repeat' (first | (with_reducible apply Keeps.next) | (with_reducible apply Keeps.next_ite) | dsimp only | split)
  all_goals repeat' (first
      | (with_reducible assumption) | ((with_reducible apply Keeps.after (State.setBoot_keeps _ _)); rfl)
      | ((with_reducible apply Keeps.after (State.startReserved_keeps _)); rfl)
      | (with_reducible refine Keeps.ite ?_ ?_) | (with_reducible apply Keeps.fst_ite) | (dsimp only) | split)

theorem State.startStage_keeps (s : State) : Keeps [.regs, .ecc, .mast, .bell, .cel, .attic, .cup, .lft,
    .outbox] s (State.startStage s) := by
  have h : Keeps [.regs, .ecc, .mast, .bell, .cel, .attic, .cup, .lft, .outbox] s s := .refl s
  unfold State.startStage
  repeat' (first
      | (with_reducible assumption) | ((with_reducible apply Keeps.after (State.count_keeps _ _ _ _)); rfl)
      | ((with_reducible apply Keeps.after (State.engineStart_keeps _ _)); rfl)
      | ((with_reducible apply Keeps.after (State.gateLoft_keeps _ _)); rfl)
      | ((with_reducible apply Keeps.after (State.pulse_keeps _ _)); rfl)
      | ((with_reducible apply Keeps.after (State.putB_keeps _ _ _ _)); rfl)
      | ((with_reducible apply Keeps.after (State.setB_keeps _ _ _)); rfl)
      | ((with_reducible apply Keeps.after (State.setStage_keeps _ _)); rfl)
      | ((with_reducible apply Keeps.after (State.setThr_keeps _ _ _)); rfl)
      | ((with_reducible apply Keeps.after (State.startReserved_keeps _)); rfl)
      | ((with_reducible apply Keeps.after (State.wf_keeps _ _ _ _ _)); rfl)
      | ((with_reducible apply Keeps.after (State.wrN_keeps _ _ _)); rfl)
      | (with_reducible refine Keeps.each ?_ fun _ _ _ => ?_) | (with_reducible refine Keeps.ite ?_ ?_)
      | ((with_reducible apply Keeps.put_attic); rfl; (first | exact fun h => h | exact Memory.wf_write _ _ _ _ | exact Memory.wf_erase _ _ _ _); (first | exact fun h => h | exact Memory.wf_write _ _ _ _ | exact Memory.wf_erase _ _ _ _); exact ⟨rfl, rfl, rfl⟩; first | (with_reducible assumption) | ((with_reducible apply Keeps.after (State.count_keeps _ _ _ _)); rfl) | ((with_reducible apply Keeps.after (State.engineStart_keeps _ _)); rfl) | ((with_reducible apply Keeps.after (State.gateLoft_keeps _ _)); rfl) | ((with_reducible apply Keeps.after (State.pulse_keeps _ _)); rfl) | ((with_reducible apply Keeps.after (State.putB_keeps _ _ _ _)); rfl) | ((with_reducible apply Keeps.after (State.setB_keeps _ _ _)); rfl) | ((with_reducible apply Keeps.after (State.setStage_keeps _ _)); rfl) | ((with_reducible apply Keeps.after (State.setThr_keeps _ _ _)); rfl) | ((with_reducible apply Keeps.after (State.startReserved_keeps _)); rfl) | ((with_reducible apply Keeps.after (State.wf_keeps _ _ _ _ _)); rfl) | ((with_reducible apply Keeps.after (State.wrN_keeps _ _ _)); rfl) | (with_reducible refine Keeps.each ?_ fun _ _ _ => ?_) | (with_reducible refine Keeps.ite ?_ ?_))
      | (dsimp only) | split)

theorem execBootStageEnd_keeps (s : State) : ∀ a0 a1, ∃ t, (execBootStageEnd a0 a1 s) = .next t ∧ Keeps allParts s t := by
  intro a0 a1
  have h : Keeps allParts s s := .refl s
  unfold execBootStageEnd
  repeat' (first | (with_reducible apply Keeps.next) | (with_reducible apply Keeps.next_ite) | dsimp only | split)
  all_goals repeat' (first
      | (with_reducible assumption) | ((with_reducible apply Keeps.after (State.authStage_keeps _)); rfl)
      | ((with_reducible apply Keeps.after (State.cellarStage_keeps _ _)); rfl)
      | ((with_reducible apply Keeps.after (State.flashStage_keeps _ _ _)); rfl)
      | ((with_reducible apply Keeps.after (State.setStage_keeps _ _)); rfl)
      | ((with_reducible apply Keeps.after (State.startStage_keeps _)); rfl)
      | ((with_reducible apply Keeps.after (State.toRecord_keeps _)); rfl) | (with_reducible refine Keeps.ite ?_ ?_)
      | (with_reducible apply Keeps.fst_ite) | (dsimp only) | split)

end Sys2Proof.Machine
end

