-- ==== Sys2Proof/Laws/KeepsAttic.lean ====
section
/-! SUPPORT. What each function of the model can do to the state, one law for each: Attic, Bellboard and the check values. -/

namespace Sys2Proof.Machine

/-! ## Attic -/

theorem State.flCmdWrite_keeps (s : State) : ∀ a1, Keeps [.regs, .attic] s (State.flCmdWrite s a1) := by
  intro a1
  have h : Keeps [.regs, .attic] s s := .refl s
  unfold State.flCmdWrite
  repeat' (first
      | (with_reducible assumption) | ((with_reducible apply Keeps.after (State.plainWrite_keeps _ _ _)); rfl)
      | ((with_reducible apply Keeps.after (State.setB_keeps _ _ _)); rfl)
      | ((with_reducible apply Keeps.after (State.wf_keeps _ _ _ _ _)); rfl)
      | (with_reducible refine Keeps.ite ?_ ?_)
      | ((with_reducible apply Keeps.put_attic); rfl; (first | exact fun h => h | exact Memory.wf_write _ _ _ _ | exact Memory.wf_erase _ _ _ _); (first | exact fun h => h | exact Memory.wf_write _ _ _ _ | exact Memory.wf_erase _ _ _ _); exact ⟨rfl, rfl, rfl⟩; first | (with_reducible assumption) | ((with_reducible apply Keeps.after (State.plainWrite_keeps _ _ _)); rfl) | ((with_reducible apply Keeps.after (State.setB_keeps _ _ _)); rfl) | ((with_reducible apply Keeps.after (State.wf_keeps _ _ _ _ _)); rfl) | (with_reducible refine Keeps.ite ?_ ?_))
      | (dsimp only) | split)

theorem execFlRead_keeps (s : State) : ∀ a0, ∃ t, (execFlRead a0 s) = .next t ∧ Keeps [.regs, .attic] s t := by
  intro a0
  have h : Keeps [.regs, .attic] s s := .refl s
  unfold execFlRead
  repeat' (first | (with_reducible apply Keeps.next) | (with_reducible apply Keeps.next_ite) | dsimp only | split)
  all_goals repeat' (first
      | (with_reducible assumption) | ((with_reducible apply Keeps.after (State.flCmdWrite_keeps _ _)); rfl)
      | (with_reducible apply Keeps.fst_ite) | (dsimp only))

theorem execFlProgram_keeps (s : State) : ∀ a0, ∃ t, (execFlProgram a0 s) = .next t ∧ Keeps [.regs, .attic] s t := by
  intro a0
  have h : Keeps [.regs, .attic] s s := .refl s
  unfold execFlProgram
  repeat' (first | (with_reducible apply Keeps.next) | (with_reducible apply Keeps.next_ite) | dsimp only | split)
  all_goals repeat' (first
      | (with_reducible assumption) | ((with_reducible apply Keeps.after (State.flCmdWrite_keeps _ _)); rfl)
      | (with_reducible apply Keeps.fst_ite) | (dsimp only))

theorem execFlErase4k_keeps (s : State) : ∀ a0, ∃ t, (execFlErase4k a0 s) = .next t ∧ Keeps [.regs, .attic] s t := by
  intro a0
  have h : Keeps [.regs, .attic] s s := .refl s
  unfold execFlErase4k
  repeat' (first | (with_reducible apply Keeps.next) | (with_reducible apply Keeps.next_ite) | dsimp only | split)
  all_goals repeat' (first
      | (with_reducible assumption) | ((with_reducible apply Keeps.after (State.flCmdWrite_keeps _ _)); rfl)
      | (with_reducible apply Keeps.fst_ite) | (dsimp only))

theorem execFlErase64k_keeps (s : State) : ∀ a0, ∃ t, (execFlErase64k a0 s) = .next t ∧ Keeps [.regs,
    .attic] s t := by
  intro a0
  have h : Keeps [.regs, .attic] s s := .refl s
  unfold execFlErase64k
  repeat' (first | (with_reducible apply Keeps.next) | (with_reducible apply Keeps.next_ite) | dsimp only | split)
  all_goals repeat' (first
      | (with_reducible assumption) | ((with_reducible apply Keeps.after (State.flCmdWrite_keeps _ _)); rfl)
      | (with_reducible apply Keeps.fst_ite) | (dsimp only))

theorem State.flPerform_keeps (s : State) : ∀ a1 a2 a3, Keeps [.regs, .freeCtr,
    .attic] s (State.flPerform s a1 a2 a3) := by
  intro a1 a2 a3
  have h : Keeps [.regs, .freeCtr, .attic] s s := .refl s
  unfold State.flPerform
  repeat' (first
      | (with_reducible assumption) | ((with_reducible apply Keeps.after (State.flashErase_keeps _ _ _)); rfl)
      | ((with_reducible apply Keeps.after (State.flashProgram_keeps _ _ _)); rfl)
      | ((with_reducible apply Keeps.after (State.flashSpoil_keeps _ _ _)); rfl)
      | ((with_reducible apply Keeps.after (State.wrWide_keeps _ _ _ _)); rfl) | (dsimp only) | split)

theorem execFlashCommandEnd_keeps (s : State) : ∀ a0, ∃ t, (execFlashCommandEnd a0 s) = .next t ∧ Keeps allParts s t := by
  intro a0
  have h : Keeps allParts s s := .refl s
  unfold execFlashCommandEnd
  repeat' (first | (with_reducible apply Keeps.next) | (with_reducible apply Keeps.next_ite) | dsimp only | split)
  all_goals repeat' (first
      | (with_reducible assumption) | ((with_reducible apply Keeps.after (State.flPerform_keeps _ _ _ _)); rfl)
      | ((with_reducible apply Keeps.after (State.pulse_keeps _ _)); rfl)
      | ((with_reducible apply Keeps.after (State.putB_keeps _ _ _ _)); rfl)
      | ((with_reducible apply Keeps.after (State.restart_keeps _)); rfl)
      | ((with_reducible apply Keeps.after (State.wf_keeps _ _ _ _ _)); rfl)
      | (with_reducible refine Keeps.ite ?_ ?_) | (with_reducible apply Keeps.fst_ite)
      | ((with_reducible apply Keeps.put_attic); rfl; (first | exact fun h => h | exact Memory.wf_write _ _ _ _ | exact Memory.wf_erase _ _ _ _); (first | exact fun h => h | exact Memory.wf_write _ _ _ _ | exact Memory.wf_erase _ _ _ _); exact ⟨rfl, rfl, rfl⟩; first | (with_reducible assumption) | ((with_reducible apply Keeps.after (State.flPerform_keeps _ _ _ _)); rfl) | ((with_reducible apply Keeps.after (State.pulse_keeps _ _)); rfl) | ((with_reducible apply Keeps.after (State.putB_keeps _ _ _ _)); rfl) | ((with_reducible apply Keeps.after (State.restart_keeps _)); rfl) | ((with_reducible apply Keeps.after (State.wf_keeps _ _ _ _ _)); rfl) | (with_reducible refine Keeps.ite ?_ ?_) | (with_reducible apply Keeps.fst_ite))
      | (dsimp only) | split)

theorem Keeps.put_fuses {l : List Part} {s t : State} {n : Nat} {ks : List KeySlot} (hl : l.contains .attic = true)
    (hn : t.attic.fuseSvn ≤ n)
    (hk : ∀ i, i < 4 →
      ((t.attic.keys.getD i KeySlot.reset).isSet = true → (ks.getD i KeySlot.reset).isSet = true ∧
        (ks.getD i KeySlot.reset).hash = (t.attic.keys.getD i KeySlot.reset).hash) ∧
      ((t.attic.keys.getD i KeySlot.reset).revoked = true → (ks.getD i KeySlot.reset).revoked = true))
    (h : Keeps l s t) : Keeps l s { t with attic := { t.attic with fuseSvn := n, keys := ks } } := by
  refine h.trans ⟨fun p hp => ?_, rfl, List.prefix_refl _, fun k => ⟨k.1, k.2.1, k.2.2.1, k.2.2.2⟩, hn, id, hk⟩
  cases p <;> first | rfl | exact absurd (by simpa using hl) hp

theorem getD_map_upto {α : Type} (f : Nat → α) (d : α) (n i : Nat) (h : i < n) : ((upto n).map f).getD i d = f i := by
  simp [upto, List.getD_eq_getElem?_getD, h]

/-- The keys after the fuse actions, one by one. -/
theorem fuseKeys_stand (ks : List KeySlot) (prov : Bool) (hp : prov = true → ks.any (·.isSet) = false) (h0 : Nat)
    (more : List Nat) (rv ky i : Nat) (hi : i < 4) :
    let keys1 := if prov then (upto 4).map fun i =>
        let old := ks.getD i KeySlot.reset
        if i = 0 then { old with hash := h0, isSet := true }
        else match more[i - 1]? with
          | some h => { old with hash := h, isSet := true }
          | none => old
      else ks
    let keys2 := (upto 4).map fun i =>
      let k := keys1.getD i KeySlot.reset
      if rv.testBit i ∧ i ≠ ky then { k with revoked := true } else k
    ((ks.getD i KeySlot.reset).isSet = true → (keys2.getD i KeySlot.reset).isSet = true ∧
        (keys2.getD i KeySlot.reset).hash = (ks.getD i KeySlot.reset).hash) ∧
      ((ks.getD i KeySlot.reset).revoked = true → (keys2.getD i KeySlot.reset).revoked = true) := by
  intro keys1 keys2
  have e2 : keys2.getD i KeySlot.reset = (if rv.testBit i ∧ i ≠ ky then { keys1.getD i KeySlot.reset with revoked := true }
      else keys1.getD i KeySlot.reset) := getD_map_upto _ _ 4 i hi
  have e1 : ((ks.getD i KeySlot.reset).isSet = true → (keys1.getD i KeySlot.reset).isSet = true ∧
        (keys1.getD i KeySlot.reset).hash = (ks.getD i KeySlot.reset).hash) ∧
      ((ks.getD i KeySlot.reset).revoked = true → (keys1.getD i KeySlot.reset).revoked = true) := by
    cases prov with
    | false => exact ⟨fun h => ⟨h, rfl⟩, id⟩
    | true =>
      have hn : ¬ (ks.getD i KeySlot.reset).isSet = true := by
        intro h
        rw [List.getD_eq_getElem?_getD] at h
        cases g : ks[i]? with
        | none => rw [g] at h; cases h
        | some k =>
          rw [g] at h
          have hm : k ∈ ks := List.mem_of_getElem? g
          have := hp rfl
          rw [List.any_eq_false] at this
          exact this k hm h
      refine ⟨fun h => absurd h hn, fun h => ?_⟩
      have e : keys1 = (upto 4).map (fun i =>
          let old := ks.getD i KeySlot.reset
          if i = 0 then { old with hash := h0, isSet := true }
          else match more[i - 1]? with
            | some h => { old with hash := h, isSet := true }
            | none => old) := rfl
      rw [e, getD_map_upto _ _ 4 i hi]
      dsimp only
      split
      · exact h
      · split <;> exact h
  rw [e2]
  split
  · exact ⟨e1.1, fun _ => rfl⟩
  · exact e1

theorem State.fuseAct_keeps (s : State) (c : Nat) : Keeps [.regs, .attic] s (State.fuseAct s c) := by
  unfold State.fuseAct
  refine Keeps.trans (Keeps.put_fuses rfl ?_ ?_ (.refl s)) ((State.fuseShow_keeps _).mono rfl)
  · split
    · exact Nat.le_max_left _ _
    · exact Nat.le_refl _
  · intro i hi
    refine fuseKeys_stand s.attic.keys _ (fun h => ?_) _ _ _ _ i hi
    rw [Bool.and_eq_true] at h
    simpa using h.2

theorem State.fuseFail_keeps (s : State) (c : Nat) : Keeps [.regs, .freeCtr, .attic] s (State.fuseFail s c) := by
  have hf := (s.fuseAct_keeps c).fuses
  have h2 : Keeps [.regs, .freeCtr, .attic] s ((s.free 8).2.free 1).2 :=
    ((State.free_keeps _ _).mono rfl).trans ((State.free_keeps _ _).mono rfl)
  have ea : ((s.free 8).2.free 1).2.attic = s.attic := rfl
  unfold State.fuseFail
  dsimp only
  refine Keeps.trans ?_ ((State.fuseShow_keeps _).mono rfl)
  revert h2 ea
  generalize ((s.free 8).2.free 1).2 = u
  generalize ((s.free 8).2.free 1).1 = b
  generalize (s.free 8).1 = n
  intro h2 ea
  rw [← ea]
  refine Keeps.put_fuses rfl (Nat.le_add_right _ _) (fun i hi => ?_) h2
  rw [ea]
  split
  · exact hf.2.2 i hi
  · exact ⟨fun h => ⟨h, rfl⟩, id⟩

theorem State.ctlFail_keeps (s : State) : Keeps [.freeCtr, .attic] s (State.ctlFail s) := by
  have h : Keeps [.freeCtr, .attic] s s := .refl s
  unfold State.ctlFail
  repeat' (first
      | (with_reducible assumption) | ((with_reducible apply Keeps.after (State.flashSpoil_keeps _ _ _)); rfl)
      | (dsimp only) | split)

theorem State.confirm_keeps (s : State) : ∀ a1 a2, Keeps [.regs, .freeCtr, .attic] s (State.confirm s a1 a2).1 := by
  intro a1 a2
  have h : Keeps [.regs, .freeCtr, .attic] s s := .refl s
  unfold State.confirm
  repeat' (first
      | (with_reducible assumption) | ((with_reducible apply Keeps.after (State.ctlFail_keeps _)); rfl)
      | ((with_reducible apply Keeps.after (State.ctlWrite_keeps _ _)); rfl)
      | ((with_reducible apply Keeps.after (State.fuseAct_keeps _ _)); rfl)
      | ((with_reducible apply Keeps.after (State.fuseFail_keeps _ _)); rfl)
      | ((with_reducible apply Keeps.after (State.putB_keeps _ _ _ _)); rfl)
      | (with_reducible refine Keeps.ite ?_ ?_) | (with_reducible apply Keeps.fst_ite) | (dsimp only) | split)

theorem State.slotCtlWrite_keeps (s : State) : ∀ a1 a2 a3, Keeps [.regs, .freeCtr, .mast, .bell,
    .attic] s (State.slotCtlWrite s a1 a2 a3) := by
  intro a1 a2 a3
  have h : Keeps [.regs, .freeCtr, .mast, .bell, .attic] s s := .refl s
  unfold State.slotCtlWrite
  repeat' (first
      | (with_reducible assumption) | ((with_reducible apply Keeps.after (State.confirm_keeps _ _ _)); rfl)
      | ((with_reducible apply Keeps.after (State.ctlFail_keeps _)); rfl)
      | ((with_reducible apply Keeps.after (State.ctlWrite_keeps _ _)); rfl)
      | ((with_reducible apply Keeps.after (State.plainWrite_keeps _ _ _)); rfl)
      | ((with_reducible apply Keeps.after (State.pulse_keeps _ _)); rfl)
      | ((with_reducible apply Keeps.after (State.putB_keeps _ _ _ _)); rfl)
      | ((with_reducible apply Keeps.after (State.slotDefect_keeps _ _ _)); rfl)
      | ((with_reducible apply Keeps.after (State.wf_keeps _ _ _ _ _)); rfl)
      | ((with_reducible apply Keeps.pair); with_reducible assumption) | (with_reducible refine Keeps.ite ?_ ?_)
      | (with_reducible apply Keeps.fst_ite) | (dsimp only) | split)

theorem execSlotTry_keeps (s : State) : ∀ a0 a1, ∃ t, (execSlotTry a0 a1 s) = .next t ∧ Keeps [.regs, .freeCtr,
    .mast, .bell, .attic] s t := by
  intro a0 a1
  have h : Keeps [.regs, .freeCtr, .mast, .bell, .attic] s s := .refl s
  unfold execSlotTry
  repeat' (first | (with_reducible apply Keeps.next) | (with_reducible apply Keeps.next_ite) | dsimp only | split)
  all_goals repeat' (first
      | (with_reducible assumption) | ((with_reducible apply Keeps.after (State.slotCtlWrite_keeps _ _ _ _)); rfl)
      | (with_reducible apply Keeps.fst_ite) | (dsimp only))

theorem execSlotConfirm_keeps (s : State) : ∀ a0 a1 a2, ∃ t, (execSlotConfirm a0 a1 a2 s) = .next t ∧ Keeps [.regs,
    .freeCtr, .mast, .bell, .attic] s t := by
  intro a0 a1 a2
  have h : Keeps [.regs, .freeCtr, .mast, .bell, .attic] s s := .refl s
  unfold execSlotConfirm
  repeat' (first | (with_reducible apply Keeps.next) | (with_reducible apply Keeps.next_ite) | dsimp only | split)
  all_goals repeat' (first
      | (with_reducible assumption) | ((with_reducible apply Keeps.after (State.slotCtlWrite_keeps _ _ _ _)); rfl)
      | (with_reducible apply Keeps.fst_ite) | (dsimp only))

theorem execSlotRevert_keeps (s : State) : ∀ a0 a1, ∃ t, (execSlotRevert a0 a1 s) = .next t ∧ Keeps [.regs, .freeCtr,
    .mast, .bell, .attic] s t := by
  intro a0 a1
  have h : Keeps [.regs, .freeCtr, .mast, .bell, .attic] s s := .refl s
  unfold execSlotRevert
  repeat' (first | (with_reducible apply Keeps.next) | (with_reducible apply Keeps.next_ite) | dsimp only | split)
  all_goals repeat' (first
      | (with_reducible assumption) | ((with_reducible apply Keeps.after (State.slotCtlWrite_keeps _ _ _ _)); rfl)
      | (with_reducible apply Keeps.fst_ite) | (dsimp only))

theorem execAutoConfirm_keeps (s : State) : ∀ a0 a1, ∃ t, (execAutoConfirm a0 a1 s) = .next t ∧ Keeps [.regs,
    .freeCtr, .attic] s t := by
  intro a0 a1
  have h : Keeps [.regs, .freeCtr, .attic] s s := .refl s
  unfold execAutoConfirm
  repeat' (first | (with_reducible apply Keeps.next) | (with_reducible apply Keeps.next_ite) | dsimp only | split)
  all_goals repeat' (first
      | (with_reducible assumption) | ((with_reducible apply Keeps.after (State.confirm_keeps _ _ _)); rfl)
      | ((with_reducible apply Keeps.pair); with_reducible assumption) | (with_reducible refine Keeps.ite ?_ ?_)
      | (with_reducible apply Keeps.fst_ite) | (dsimp only) | split)

theorem execTimeTick_keeps (s : State) : ∃ t, execTimeTick s = .next t ∧ Keeps [.regs, .time, .cycles, .mast, .bell,
    .attic] s t := by
  have h0 : Keeps [.regs, .time, .cycles, .mast, .bell,
      .attic] s { s with cycles := s.cycles + 1 } := Keeps.put_cycles rfl (.refl s)
  have ea : ∀ u v, Keeps [.regs, .mast, .bell] u v → v.attic = u.attic := fun u v k => k.same .attic (by decide)
  unfold execTimeTick
  dsimp only
  split
  · refine ⟨_, rfl, ?_⟩
    refine Keeps.trans ?_ ((State.pulse_keeps _ _).mono rfl)
    have k : Keeps [.regs, .mast, .bell] { s with cycles := s.cycles + 1 }
        ((({ s with cycles := s.cycles + 1 }.putB atcTimeStatus 31 false).setB atcTimeStatus 30).count evAtcTimeStep 0 0) :=
      (((State.putB_keeps _ _ _ _).mono rfl).trans ((State.setB_keeps _ _ _).mono rfl)).trans ((State.count_keeps _ _ _ _).mono rfl)
    have e := ea _ _ k
    dsimp only at e
    have k1 := h0.trans (k.mono rfl)
    revert k1 e
    generalize (({ s with cycles := s.cycles + 1 }.putB atcTimeStatus 31 false).setB atcTimeStatus 30).count evAtcTimeStep 0 0 = t
    intro e k1
    rw [← e]
    exact Keeps.put_time_attic rfl rfl (fun h => h) (fun h => h) ⟨rfl, rfl, rfl⟩ k1
  · refine ⟨_, rfl, ?_⟩
    have fin : ∀ (d : Bool) (x : Nat) (y : Int), Keeps [.regs, .time, .cycles, .mast, .bell,
        .attic] s { ({ s with cycles := s.cycles + 1 }.putB atcTimeStatus 31 d) with
        time := x, attic := { s.attic with slew := y } } := by
      intro d x y
      have k : Keeps [.regs, .mast,
          .bell] { s with cycles := s.cycles + 1 } ({ s with cycles := s.cycles + 1 }.putB atcTimeStatus 31 d) :=
        (State.putB_keeps _ _ _ _).mono rfl
      have e := ea _ _ k
      dsimp only at e
      have k1 := h0.trans (k.mono rfl)
      revert k1 e
      generalize { s with cycles := s.cycles + 1 }.putB atcTimeStatus 31 d = t
      intro e k1
      rw [← e]
      exact Keeps.put_time_attic rfl rfl (fun h => h) (fun h => h) ⟨rfl, rfl, rfl⟩ k1
    exact fin _ _ _

theorem State.timeAdjWrite_keeps (s : State) : ∀ a1, Keeps [.regs, .attic] s (State.timeAdjWrite s a1) := by
  intro a1
  have h : Keeps [.regs, .attic] s s := .refl s
  unfold State.timeAdjWrite
  repeat' (first
      | (with_reducible assumption) | ((with_reducible apply Keeps.after (State.putB_keeps _ _ _ _)); rfl)
      | ((with_reducible apply Keeps.put_attic); rfl; (first | exact fun h => h | exact Memory.wf_write _ _ _ _ | exact Memory.wf_erase _ _ _ _); (first | exact fun h => h | exact Memory.wf_write _ _ _ _ | exact Memory.wf_erase _ _ _ _); exact ⟨rfl, rfl, rfl⟩; first | (with_reducible assumption) | ((with_reducible apply Keeps.after (State.putB_keeps _ _ _ _)); rfl))
      | (dsimp only))

theorem execTimeAdjWrite_keeps (s : State) : ∀ a0, ∃ t, (execTimeAdjWrite a0 s) = .next t ∧ Keeps [.regs,
    .attic] s t := by
  intro a0
  have h : Keeps [.regs, .attic] s s := .refl s
  unfold execTimeAdjWrite
  repeat' (first | (with_reducible apply Keeps.next) | (with_reducible apply Keeps.next_ite) | dsimp only | split)
  all_goals repeat' (first
      | (with_reducible assumption) | ((with_reducible apply Keeps.after (State.timeAdjWrite_keeps _ _)); rfl)
      | (with_reducible apply Keeps.fst_ite) | (dsimp only))

theorem State.timeIncrWrite_keeps (s : State) : ∀ a1, Keeps [.regs] s (State.timeIncrWrite s a1) := by
  intro a1
  have h : Keeps [.regs] s s := .refl s
  unfold State.timeIncrWrite
  repeat' (first
      | (with_reducible assumption) | ((with_reducible apply Keeps.after (State.wr_keeps _ _ _)); rfl)
      | (with_reducible refine Keeps.ite ?_ ?_) | (dsimp only) | split)

theorem execTimeIncrWrite_keeps (s : State) : ∀ a0, ∃ t, (execTimeIncrWrite a0 s) = .next t ∧ Keeps [.regs] s t := by
  intro a0
  have h : Keeps [.regs] s s := .refl s
  unfold execTimeIncrWrite
  repeat' (first | (with_reducible apply Keeps.next) | (with_reducible apply Keeps.next_ite) | dsimp only | split)
  all_goals repeat' (first
      | (with_reducible assumption) | ((with_reducible apply Keeps.after (State.timeIncrWrite_keeps _ _)); rfl)
      | (with_reducible apply Keeps.fst_ite) | (dsimp only))

theorem State.timeSetPair_keeps (s : State) : ∀ a1, Keeps [.attic] s (State.timeSetPair s a1) := by
  intro a1
  have h : Keeps [.attic] s s := .refl s
  unfold State.timeSetPair
  repeat' (first
      | (with_reducible assumption)
      | ((with_reducible apply Keeps.put_attic); rfl; (first | exact fun h => h | exact Memory.wf_write _ _ _ _ | exact Memory.wf_erase _ _ _ _); (first | exact fun h => h | exact Memory.wf_write _ _ _ _ | exact Memory.wf_erase _ _ _ _); exact ⟨rfl, rfl, rfl⟩; first | (with_reducible assumption))
      | (dsimp only))

theorem State.wakeStack_keeps (s : State) : ∀ a1, Keeps [.regs, .mast] s (State.wakeStack s a1) := by
  intro a1
  have h : Keeps [.regs, .mast] s s := .refl s
  unfold State.wakeStack
  repeat' (first
      | (with_reducible assumption) | ((with_reducible apply Keeps.after (State.count_keeps _ _ _ _)); rfl)
      | ((with_reducible apply Keeps.after (State.wf_keeps _ _ _ _ _)); rfl)
      | (with_reducible refine Keeps.ite ?_ ?_) | (dsimp only) | split)

theorem State.shutterBegin_keeps (s : State) : Keeps [.regs, .mast, .pipe, .stw, .sht,
    .outbox] s (State.shutterBegin s) := by
  have h : Keeps [.regs, .mast, .pipe, .stw, .sht, .outbox] s s := .refl s
  unfold State.shutterBegin
  repeat' (first
      | (with_reducible assumption) | ((with_reducible apply Keeps.after (State.portCfgWrite_keeps _ _ _)); rfl)
      | ((with_reducible apply Keeps.after (State.wf_keeps _ _ _ _ _)); rfl)
      | (with_reducible refine Keeps.each ?_ fun _ _ _ => ?_) | (with_reducible refine Keeps.ite ?_ ?_)
      | (dsimp only) | split)

theorem State.powerWrite_keeps (s : State) : ∀ a1, Keeps [.regs, .ecc, .mast, .cel, .cup, .pipe, .stw, .sht, .crw,
    .outbox] s (State.powerWrite s a1) := by
  intro a1
  have h : Keeps [.regs, .ecc, .mast, .cel, .cup, .pipe, .stw, .sht, .crw, .outbox] s s := .refl s
  unfold State.powerWrite
  repeat' (first
      | (with_reducible assumption) | ((with_reducible apply Keeps.after (State.gateLoft_keeps _ _)); rfl)
      | ((with_reducible apply Keeps.after (State.setB_keeps _ _ _)); rfl)
      | ((with_reducible apply Keeps.after (State.shutterBegin_keeps _)); rfl)
      | ((with_reducible apply Keeps.after (State.wakeLoft_keeps _ _)); rfl)
      | ((with_reducible apply Keeps.after (State.wakeSlice_keeps _ _)); rfl)
      | ((with_reducible apply Keeps.after (State.wakeStack_keeps _ _)); rfl)
      | ((with_reducible apply Keeps.after (State.wf_keeps _ _ _ _ _)); rfl)
      | (with_reducible refine Keeps.each ?_ fun _ _ _ => ?_) | (with_reducible refine Keeps.ite ?_ ?_)
      | (dsimp only) | split)

theorem execPowerTargetWrite_keeps (s : State) : ∀ a0, ∃ t, (execPowerTargetWrite a0 s) = .next t ∧ Keeps [.regs,
    .ecc, .mast, .cel, .cup, .pipe, .stw, .sht, .crw, .outbox] s t := by
  intro a0
  have h : Keeps [.regs, .ecc, .mast, .cel, .cup, .pipe, .stw, .sht, .crw, .outbox] s s := .refl s
  unfold execPowerTargetWrite
  repeat' (first | (with_reducible apply Keeps.next) | (with_reducible apply Keeps.next_ite) | dsimp only | split)
  all_goals repeat' (first
      | (with_reducible assumption) | ((with_reducible apply Keeps.after (State.powerWrite_keeps _ _)); rfl)
      | (with_reducible apply Keeps.fst_ite) | (dsimp only))

theorem State.shutter_keeps (s : State) : Keeps allParts s (State.shutter s) := by
  have fin : ∀ t, Keeps allParts s t → Keeps allParts s (((State.each ((((t.wf atcPwrStatus 15 0 0).wr atcGatedLoftsLo 0).wr atcGatedLoftsHi 0).putB cntDumpCtl 31 false) (upto 4) fun u k => u.wf (celStkStatus k) 31 30 2).count evAtcShutter 0 0).countBy
        evAtcShutterDiscard 0 0 s.heldCount) := by
    intro t k
    refine Keeps.trans ?_ ((State.countBy_keeps _ _ _ _ _).mono rfl)
    refine Keeps.trans ?_ ((State.count_keeps _ _ _ _).mono rfl)
    refine Keeps.each ?_ fun _ _ g => g.trans ((State.wf_keeps _ _ _ _ _).mono rfl)
    refine Keeps.trans ?_ ((State.putB_keeps _ _ _ _).mono rfl)
    refine Keeps.trans ?_ ((State.wr_keeps _ _ _).mono rfl)
    refine Keeps.trans ?_ ((State.wr_keeps _ _ _).mono rfl)
    exact k.trans ((State.wf_keeps _ _ _ _ _).mono rfl)
  unfold State.shutter
  dsimp only
  refine fin _ ?_
  refine (s.dwyReset_keeps.mono rfl).trans ?_
  generalize s.dwyReset = u
  exact Keeps.all rfl rfl (fun h => ⟨h.1, rfl, h.2.2.1, rfl, rfl⟩) ⟨rfl, rfl, rfl⟩

theorem execShutterComplete_keeps (s : State) : ∃ t, (execShutterComplete s) = .next t ∧ Keeps allParts s t := by
  have h : Keeps allParts s s := .refl s
  unfold execShutterComplete
  repeat' (first | (with_reducible apply Keeps.next) | (with_reducible apply Keeps.next_ite) | dsimp only | split)
  all_goals repeat' (first
      | (with_reducible assumption) | ((with_reducible apply Keeps.after (State.shutter_keeps _)); rfl)
      | (with_reducible refine Keeps.ite ?_ ?_) | (with_reducible apply Keeps.fst_ite) | (dsimp only) | split)

theorem execShutteredWake_keeps (s : State) : ∀ a0, ∃ t, (execShutteredWake a0 s) = .next t ∧ Keeps [.regs,
    .attic] s t := by
  intro a0
  have h : Keeps [.regs, .attic] s s := .refl s
  unfold execShutteredWake
  repeat' (first | (with_reducible apply Keeps.next) | (with_reducible apply Keeps.next_ite) | dsimp only | split)
  all_goals repeat' (first
      | (with_reducible assumption) | ((with_reducible apply Keeps.after (State.setStage_keeps _ _)); rfl)
      | ((with_reducible apply Keeps.after (State.wf_keeps _ _ _ _ _)); rfl)
      | ((with_reducible apply Keeps.after (State.wrN_keeps _ _ _)); rfl)
      | ((with_reducible apply Keeps.after (State.wr_keeps _ _ _)); rfl) | (with_reducible refine Keeps.ite ?_ ?_)
      | (with_reducible apply Keeps.fst_ite)
      | ((with_reducible apply Keeps.put_attic); rfl; (first | exact fun h => h | exact Memory.wf_write _ _ _ _ | exact Memory.wf_erase _ _ _ _); (first | exact fun h => h | exact Memory.wf_write _ _ _ _ | exact Memory.wf_erase _ _ _ _); exact ⟨rfl, rfl, rfl⟩; first | (with_reducible assumption) | ((with_reducible apply Keeps.after (State.setStage_keeps _ _)); rfl) | ((with_reducible apply Keeps.after (State.wf_keeps _ _ _ _ _)); rfl) | ((with_reducible apply Keeps.after (State.wrN_keeps _ _ _)); rfl) | ((with_reducible apply Keeps.after (State.wr_keeps _ _ _)); rfl) | (with_reducible refine Keeps.ite ?_ ?_) | (with_reducible apply Keeps.fst_ite))
      | (dsimp only) | split)

theorem execSliceGate_keeps (s : State) : ∀ a0, ∃ t, (execSliceGate a0 s) = .next t ∧ Keeps [.regs, .mast] s t := by
  intro a0
  have h : Keeps [.regs, .mast] s s := .refl s
  unfold execSliceGate
  repeat' (first | (with_reducible apply Keeps.next) | (with_reducible apply Keeps.next_ite) | dsimp only | split)
  all_goals repeat' (first
      | (with_reducible assumption) | ((with_reducible apply Keeps.after (State.count_keeps _ _ _ _)); rfl)
      | ((with_reducible apply Keeps.after (State.setB_keeps _ _ _)); rfl) | (with_reducible refine Keeps.ite ?_ ?_)
      | (with_reducible apply Keeps.fst_ite) | (dsimp only) | split)

theorem execPeriodicScrubWake_keeps (s : State) : ∃ t, (execPeriodicScrubWake s) = .next t ∧ Keeps [.regs,
    .mast] s t := by
  have h : Keeps [.regs, .mast] s s := .refl s
  unfold execPeriodicScrubWake
  repeat' (first | (with_reducible apply Keeps.next) | (with_reducible apply Keeps.next_ite) | dsimp only | split)
  all_goals repeat' (first
      | (with_reducible assumption) | ((with_reducible apply Keeps.after (State.count_keeps _ _ _ _)); rfl)
      | (with_reducible refine Keeps.each ?_ fun _ _ _ => ?_) | (with_reducible refine Keeps.ite ?_ ?_)
      | (with_reducible apply Keeps.fst_ite) | (dsimp only) | split)

theorem execSliceRestart_keeps (s : State) : ∀ a0, ∃ t, (execSliceRestart a0 s) = .next t ∧ Keeps [.regs, .ecc,
    .mast, .cel, .cup, .lft, .pipe, .stw, .sht, .crw, .outbox] s t := by
  intro a0
  have h : Keeps [.regs, .ecc, .mast, .cel, .cup, .lft, .pipe, .stw, .sht, .crw, .outbox] s s := .refl s
  unfold execSliceRestart
  repeat' (first | (with_reducible apply Keeps.next) | (with_reducible apply Keeps.next_ite) | dsimp only | split)
  all_goals repeat' (first
      | (with_reducible assumption) | ((with_reducible apply Keeps.after (State.sliceRestart_keeps _ _)); rfl)
      | (with_reducible apply Keeps.fst_ite) | (dsimp only))

theorem State.resetWrite_keeps (s : State) : ∀ a1, Keeps allParts s (State.resetWrite s a1) := by
  intro a1
  have h : Keeps allParts s s := .refl s
  unfold State.resetWrite
  repeat' (first
      | (with_reducible assumption) | ((with_reducible apply Keeps.after (State.deviceRestart_keeps _)); rfl)
      | ((with_reducible apply Keeps.after (State.sliceRestart_keeps _ _)); rfl)
      | (with_reducible refine Keeps.ite ?_ ?_) | (dsimp only) | split)

theorem execDynamicAddressAssign_keeps (s : State) : ∀ a0, ∃ t, (execDynamicAddressAssign a0 s) = .next t ∧ Keeps [.attic] s t := by
  intro a0
  have h : Keeps [.attic] s s := .refl s
  unfold execDynamicAddressAssign
  repeat' (first | (with_reducible apply Keeps.next) | (with_reducible apply Keeps.next_ite) | dsimp only | split)
  all_goals repeat' (first
      | (with_reducible assumption) | (with_reducible apply Keeps.fst_ite)
      | ((with_reducible apply Keeps.put_attic); rfl; (first | exact fun h => h | exact Memory.wf_write _ _ _ _ | exact Memory.wf_erase _ _ _ _); (first | exact fun h => h | exact Memory.wf_write _ _ _ _ | exact Memory.wf_erase _ _ _ _); exact ⟨rfl, rfl, rfl⟩; first | (with_reducible assumption) | (with_reducible apply Keeps.fst_ite))
      | (dsimp only))

theorem execJtagAccess_keeps (ir : Nat) (tdi : List Bool) (s : State) :
    execJtagAccess ir tdi s = .refused .jtagBeyond ∨ ∃ t, execJtagAccess ir tdi s = .next t ∧ Keeps [.rdata,
        .freeCtr, .attic] s t := by
  have h : Keeps [.rdata, .freeCtr, .attic] s s := .refl s
  unfold execJtagAccess
  split
  · exact .inr ⟨_, rfl, Keeps.put_rdata_attic rfl rfl (fun h => h) (fun h => h) ⟨rfl, rfl, rfl⟩ h⟩
  · split
    · exact .inr ⟨_, rfl, Keeps.put_rdata_attic rfl rfl (fun h => h) (fun h => h) ⟨rfl, rfl, rfl⟩ h⟩
    · split
      · exact .inr ⟨_, rfl, Keeps.put_rdata_attic rfl rfl (fun h => h) (fun h => h) ⟨rfl, rfl, rfl⟩
          (Keeps.put_freeCtr rfl h)⟩
      · split
        · exact .inl rfl
        · exact .inr ⟨_, rfl, h⟩

theorem State.atcRegWrite_keeps (s : State) : ∀ a1 a2, Keeps allParts s (State.atcRegWrite s a1 a2) := by
  intro a1 a2
  have h : Keeps allParts s s := .refl s
  unfold State.atcRegWrite
  repeat' (first
      | (with_reducible assumption) | ((with_reducible apply Keeps.after (State.flCmdWrite_keeps _ _)); rfl)
      | ((with_reducible apply Keeps.after (State.plainWrite_keeps _ _ _)); rfl)
      | ((with_reducible apply Keeps.after (State.powerWrite_keeps _ _)); rfl)
      | ((with_reducible apply Keeps.after (State.resetWrite_keeps _ _)); rfl)
      | ((with_reducible apply Keeps.after (State.setB_keeps _ _ _)); rfl)
      | ((with_reducible apply Keeps.after (State.slotCtlWrite_keeps _ _ _ _)); rfl)
      | ((with_reducible apply Keeps.after (State.timeAdjWrite_keeps _ _)); rfl)
      | ((with_reducible apply Keeps.after (State.timeIncrWrite_keeps _ _)); rfl)
      | (with_reducible refine Keeps.ite ?_ ?_) | (dsimp only) | split)

/-! ## Bellboard -/

theorem execSourceAssert_keeps (s : State) : ∀ a0, ∃ t, (execSourceAssert a0 s) = .next t ∧ Keeps [.regs,
    .bell] s t := by
  intro a0
  have h : Keeps [.regs, .bell] s s := .refl s
  unfold execSourceAssert
  repeat' (first | (with_reducible apply Keeps.next) | (with_reducible apply Keeps.next_ite) | dsimp only | split)
  all_goals repeat' (first
      | (with_reducible assumption) | ((with_reducible apply Keeps.after (State.condPrune_keeps _)); rfl)
      | ((with_reducible apply Keeps.after (State.putPending_keeps _ _ _)); rfl)
      | (with_reducible refine Keeps.ite ?_ ?_) | (with_reducible apply Keeps.fst_ite)
      | ((with_reducible apply Keeps.put_bell); rfl; first | (with_reducible assumption) | ((with_reducible apply Keeps.after (State.condPrune_keeps _)); rfl) | ((with_reducible apply Keeps.after (State.putPending_keeps _ _ _)); rfl) | (with_reducible refine Keeps.ite ?_ ?_) | (with_reducible apply Keeps.fst_ite))
      | (dsimp only) | split)

theorem execBellPull_keeps (s : State) : ∀ a0, ∃ t, (execBellPull a0 s) = .next t ∧ Keeps [.regs, .mast] s t := by
  intro a0
  have h : Keeps [.regs, .mast] s s := .refl s
  unfold execBellPull
  repeat' (first | (with_reducible apply Keeps.next) | (with_reducible apply Keeps.next_ite) | dsimp only | split)
  all_goals repeat' (first
      | (with_reducible assumption) | ((with_reducible apply Keeps.after (State.bellPull_keeps _ _)); rfl)
      | (with_reducible apply Keeps.fst_ite) | (dsimp only))

theorem State.bellParity_keeps (s : State) : ∀ a1, Keeps [.regs, .mast] s (State.bellParity s a1) := by
  intro a1
  have h : Keeps [.regs, .mast] s s := .refl s
  unfold State.bellParity
  repeat' (first
      | (with_reducible assumption) | ((with_reducible apply Keeps.after (State.count_keeps _ _ _ _)); rfl)
      | ((with_reducible apply Keeps.after (State.putB_keeps _ _ _ _)); rfl)
      | ((with_reducible apply Keeps.after (State.putPending_keeps _ _ _)); rfl)
      | ((with_reducible apply Keeps.after (State.report_keeps _ _ _ _)); rfl)
      | ((with_reducible apply Keeps.after (State.setB_keeps _ _ _)); rfl)
      | (with_reducible refine Keeps.each ?_ fun _ _ _ => ?_) | (with_reducible refine Keeps.ite ?_ ?_)
      | (dsimp only) | split)

theorem execArbitrate_keeps (s : State) : ∀ a0 a1, ∃ t, (execArbitrate a0 a1 s) = .next t ∧ Keeps [.regs, .ecc,
    .mast, .bell] s t := by
  intro a0 a1
  have h : Keeps [.regs, .ecc, .mast, .bell] s s := .refl s
  unfold execArbitrate
  repeat' (first | (with_reducible apply Keeps.next) | (with_reducible apply Keeps.next_ite) | dsimp only | split)
  all_goals repeat' (first
      | (with_reducible assumption) | ((with_reducible apply Keeps.after (State.bellParity_keeps _ _)); rfl)
      | ((with_reducible apply Keeps.after (State.claim_keeps _ _ _)); rfl)
      | ((with_reducible apply Keeps.after (State.count_keeps _ _ _ _)); rfl)
      | ((with_reducible apply Keeps.after (State.raiseVector_keeps _ _ _)); rfl)
      | ((with_reducible apply Keeps.after (State.routeCheck_keeps _ _)); rfl)
      | (with_reducible refine Keeps.each ?_ fun _ _ _ => ?_) | (with_reducible refine Keeps.ite ?_ ?_)
      | (with_reducible apply Keeps.fst_ite)
      | ((with_reducible apply Keeps.put_bell); rfl; first | (with_reducible assumption) | ((with_reducible apply Keeps.after (State.bellParity_keeps _ _)); rfl) | ((with_reducible apply Keeps.after (State.claim_keeps _ _ _)); rfl) | ((with_reducible apply Keeps.after (State.count_keeps _ _ _ _)); rfl) | ((with_reducible apply Keeps.after (State.raiseVector_keeps _ _ _)); rfl) | ((with_reducible apply Keeps.after (State.routeCheck_keeps _ _)); rfl) | (with_reducible refine Keeps.each ?_ fun _ _ _ => ?_) | (with_reducible refine Keeps.ite ?_ ?_) | (with_reducible apply Keeps.fst_ite))
      | (dsimp only) | split)

theorem State.eoiWrite_keeps (s : State) : ∀ a1 a2, Keeps [.regs, .mast] s (State.eoiWrite s a1 a2) := by
  intro a1 a2
  have h : Keeps [.regs, .mast] s s := .refl s
  unfold State.eoiWrite
  repeat' (first
      | (with_reducible assumption) | ((with_reducible apply Keeps.after (State.complete_keeps _ _)); rfl)
      | ((with_reducible apply Keeps.after (State.count_keeps _ _ _ _)); rfl)
      | (with_reducible refine Keeps.ite ?_ ?_) | (dsimp only) | split)

theorem execEoiWrite_keeps (s : State) : ∀ a0 a1, ∃ t, (execEoiWrite a0 a1 s) = .next t ∧ Keeps [.regs,
    .mast] s t := by
  intro a0 a1
  have h : Keeps [.regs, .mast] s s := .refl s
  unfold execEoiWrite
  repeat' (first | (with_reducible apply Keeps.next) | (with_reducible apply Keeps.next_ite) | dsimp only | split)
  all_goals repeat' (first
      | (with_reducible assumption) | ((with_reducible apply Keeps.after (State.eoiWrite_keeps _ _ _)); rfl)
      | (with_reducible apply Keeps.fst_ite) | (dsimp only))

theorem execMsixSend_keeps (s : State) : ∀ a0 a1, ∃ t, (execMsixSend a0 a1 s) = .next t ∧ Keeps [.regs, .mast, .bell,
    .outbox] s t := by
  intro a0 a1
  have h : Keeps [.regs, .mast, .bell, .outbox] s s := .refl s
  unfold execMsixSend
  repeat' (first | (with_reducible apply Keeps.next) | (with_reducible apply Keeps.next_ite) | dsimp only | split)
  all_goals repeat' (first
      | (with_reducible assumption) | ((with_reducible apply Keeps.after (State.count_keeps _ _ _ _)); rfl)
      | ((with_reducible apply Keeps.after (State.emit_keeps _ _)); rfl) | (with_reducible refine Keeps.ite ?_ ?_)
      | (with_reducible apply Keeps.fst_ite)
      | ((with_reducible apply Keeps.put_bell); rfl; first | (with_reducible assumption) | ((with_reducible apply Keeps.after (State.count_keeps _ _ _ _)); rfl) | ((with_reducible apply Keeps.after (State.emit_keeps _ _)); rfl) | (with_reducible refine Keeps.ite ?_ ?_) | (with_reducible apply Keeps.fst_ite))
      | (dsimp only) | split)

theorem State.routeWrite_keeps (s : State) : ∀ a1 a2, Keeps [.regs, .ecc, .bell] s (State.routeWrite s a1 a2) := by
  intro a1 a2
  have h : Keeps [.regs, .ecc, .bell] s s := .refl s
  unfold State.routeWrite
  repeat' (first
      | (with_reducible assumption) | ((with_reducible apply Keeps.after (State.eccClear_keeps _ _ _)); rfl)
      | ((with_reducible apply Keeps.after (State.inject_keeps _ _ _ _ _ _)); rfl)
      | ((with_reducible apply Keeps.after (State.setB_keeps _ _ _)); rfl)
      | ((with_reducible apply Keeps.after (State.wr_keeps _ _ _)); rfl) | (with_reducible refine Keeps.ite ?_ ?_)
      | ((with_reducible apply Keeps.put_bell); rfl; first | (with_reducible assumption) | ((with_reducible apply Keeps.after (State.eccClear_keeps _ _ _)); rfl) | ((with_reducible apply Keeps.after (State.inject_keeps _ _ _ _ _ _)); rfl) | ((with_reducible apply Keeps.after (State.setB_keeps _ _ _)); rfl) | ((with_reducible apply Keeps.after (State.wr_keeps _ _ _)); rfl) | (with_reducible refine Keeps.ite ?_ ?_))
      | (dsimp only) | split)

theorem execRouteWrite_keeps (s : State) : ∀ a0 a1, ∃ t, (execRouteWrite a0 a1 s) = .next t ∧ Keeps [.regs, .ecc,
    .bell] s t := by
  intro a0 a1
  have h : Keeps [.regs, .ecc, .bell] s s := .refl s
  unfold execRouteWrite
  repeat' (first | (with_reducible apply Keeps.next) | (with_reducible apply Keeps.next_ite) | dsimp only | split)
  all_goals repeat' (first
      | (with_reducible assumption) | ((with_reducible apply Keeps.after (State.routeWrite_keeps _ _ _)); rfl)
      | (with_reducible apply Keeps.fst_ite) | (dsimp only))

theorem execRouteScrub_keeps (s : State) : ∀ a0 a1, ∃ t, (execRouteScrub a0 a1 s) = .next t ∧ Keeps [.regs, .ecc,
    .mast, .bell] s t := by
  intro a0 a1
  have h : Keeps [.regs, .ecc, .mast, .bell] s s := .refl s
  unfold execRouteScrub
  repeat' (first | (with_reducible apply Keeps.next) | (with_reducible apply Keeps.next_ite) | dsimp only | split)
  all_goals repeat' (first
      | (with_reducible assumption) | ((with_reducible apply Keeps.after (State.eccFlag_keeps _ _ _ _)); rfl)
      | ((with_reducible apply Keeps.after (State.routeCheck_keeps _ _)); rfl)
      | (with_reducible apply Keeps.fst_ite) | (dsimp only))

theorem State.belRegWrite_keeps (s : State) : ∀ a1 a2, Keeps [.regs, .ecc, .mast,
    .bell] s (State.belRegWrite s a1 a2) := by
  intro a1 a2
  have h : Keeps [.regs, .ecc, .mast, .bell] s s := .refl s
  unfold State.belRegWrite
  repeat' (first
      | (with_reducible assumption) | ((with_reducible apply Keeps.after (State.bellPull_keeps _ _)); rfl)
      | ((with_reducible apply Keeps.after (State.plainWrite_keeps _ _ _)); rfl)
      | ((with_reducible apply Keeps.after (State.routeWrite_keeps _ _ _)); rfl)
      | (with_reducible refine Keeps.ite ?_ ?_) | (dsimp only) | split)

/-! ## Check -/

theorem State.verified_keeps (s : State) : ∀ a1, Keeps [.pipe] s (State.verified s a1) := by
  intro a1
  have h : Keeps [.pipe] s s := .refl s
  unfold State.verified
  repeat' (first
      | (with_reducible assumption) | ((with_reducible apply Keeps.after (State.setFab_keeps _ _ _)); rfl)
      | (dsimp only))

theorem State.strip_keeps (s : State) : ∀ a1 a2, Keeps [.regs, .mast, .pipe] s (State.strip s a1 a2) := by
  intro a1 a2
  have h : Keeps [.regs, .mast, .pipe] s s := .refl s
  unfold State.strip
  repeat' (first
      | (with_reducible assumption) | ((with_reducible apply Keeps.after (State.count_keeps _ _ _ _)); rfl)
      | ((with_reducible apply Keeps.after (State.setFrame_keeps _ _ _)); rfl) | (dsimp only))

theorem State.verifyDiscard_keeps (s : State) : ∀ a1 a2 a3, Keeps [.regs, .ecc, .mast, .cel, .cup, .lft, .pipe, .stw,
    .crw, .outbox] s (State.verifyDiscard s a1 a2 a3) := by
  intro a1 a2 a3
  have h : Keeps [.regs, .ecc, .mast, .cel, .cup, .lft, .pipe, .stw, .crw, .outbox] s s := .refl s
  unfold State.verifyDiscard
  repeat' (first
      | (with_reducible assumption) | ((with_reducible apply Keeps.after (State.befall_keeps _ _ _ _)); rfl)
      | ((with_reducible apply Keeps.after (State.endIngress_keeps _ _ _)); rfl)
      | (with_reducible refine Keeps.ite ?_ ?_) | (dsimp only) | split)

theorem State.verifyFail_keeps (s : State) : ∀ a1 a2, Keeps [.regs, .ecc, .mast, .cel, .cup, .lft, .pipe, .stw, .crw,
    .outbox] s (State.verifyFail s a1 a2) := by
  intro a1 a2
  have h : Keeps [.regs, .ecc, .mast, .cel, .cup, .lft, .pipe, .stw, .crw, .outbox] s s := .refl s
  unfold State.verifyFail
  repeat' (first
      | (with_reducible assumption) | ((with_reducible apply Keeps.after (State.count_keeps _ _ _ _)); rfl)
      | ((with_reducible apply Keeps.after (State.strip_keeps _ _ _)); rfl)
      | ((with_reducible apply Keeps.after (State.verified_keeps _ _)); rfl)
      | ((with_reducible apply Keeps.after (State.verifyDiscard_keeps _ _ _ _)); rfl)
      | (with_reducible refine Keeps.ite ?_ ?_) | (dsimp only) | split)

theorem execCheckVerify_keeps (s : State) : ∀ a0, ∃ t, (execCheckVerify a0 s) = .next t ∧ Keeps [.regs, .ecc, .mast,
    .cel, .cup, .lft, .pipe, .stw, .crw, .outbox] s t := by
  intro a0
  have h : Keeps [.regs, .ecc, .mast, .cel, .cup, .lft, .pipe, .stw, .crw, .outbox] s s := .refl s
  unfold execCheckVerify
  repeat' (first | (with_reducible apply Keeps.next) | (with_reducible apply Keeps.next_ite) | dsimp only | split)
  all_goals repeat' (first
      | (with_reducible assumption) | ((with_reducible apply Keeps.after (State.count_keeps _ _ _ _)); rfl)
      | ((with_reducible apply Keeps.after (State.strip_keeps _ _ _)); rfl)
      | ((with_reducible apply Keeps.after (State.verified_keeps _ _)); rfl)
      | ((with_reducible apply Keeps.after (State.verifyFail_keeps _ _ _)); rfl)
      | (with_reducible refine Keeps.ite ?_ ?_) | (with_reducible apply Keeps.fst_ite) | (dsimp only) | split)

theorem execCheckAppend_keeps (s : State) : ∀ a0, ∃ t, (execCheckAppend a0 s) = .next t ∧ Keeps [.regs, .mast, .pipe,
    .stw, .sht] s t := by
  intro a0
  have h : Keeps [.regs, .mast, .pipe, .stw, .sht] s s := .refl s
  unfold execCheckAppend
  repeat' (first | (with_reducible apply Keeps.next) | (with_reducible apply Keeps.next_ite) | dsimp only | split)
  all_goals repeat' (first
      | (with_reducible assumption) | ((with_reducible apply Keeps.after (State.copyEnd_keeps _ _ _)); rfl)
      | ((with_reducible apply Keeps.after (State.copyGone_keeps _ _)); rfl)
      | ((with_reducible apply Keeps.after (State.count_keeps _ _ _ _)); rfl)
      | ((with_reducible apply Keeps.after (State.setCopy_keeps _ _ _)); rfl)
      | (with_reducible refine Keeps.ite ?_ ?_) | (with_reducible apply Keeps.fst_ite) | (dsimp only) | split)

theorem State.profileWrite_keeps (s : State) : ∀ a1 a2, Keeps [.regs] s (State.profileWrite s a1 a2) := by
  intro a1 a2
  have h : Keeps [.regs] s s := .refl s
  unfold State.profileWrite
  repeat' (first
      | (with_reducible assumption) | ((with_reducible apply Keeps.after (State.plainWrite_keeps _ _ _)); rfl)
      | ((with_reducible apply Keeps.after (State.setB_keeps _ _ _)); rfl) | (with_reducible refine Keeps.ite ?_ ?_)
      | (dsimp only) | split)

theorem execCheckProfileWrite_keeps (s : State) : ∀ a0 a1, ∃ t, (execCheckProfileWrite a0 a1 s) = .next t ∧ Keeps [.regs] s t := by
  intro a0 a1
  have h : Keeps [.regs] s s := .refl s
  unfold execCheckProfileWrite
  repeat' (first | (with_reducible apply Keeps.next) | (with_reducible apply Keeps.next_ite) | dsimp only | split)
  all_goals repeat' (first
      | (with_reducible assumption) | ((with_reducible apply Keeps.after (State.profileWrite_keeps _ _ _)); rfl)
      | (with_reducible apply Keeps.fst_ite) | (dsimp only))

theorem State.chkRegWrite_keeps (s : State) : ∀ a1 a2, Keeps [.regs] s (State.chkRegWrite s a1 a2) := by
  intro a1 a2
  have h : Keeps [.regs] s s := .refl s
  unfold State.chkRegWrite
  repeat' (first
      | (with_reducible assumption) | ((with_reducible apply Keeps.after (State.plainWrite_keeps _ _ _)); rfl)
      | ((with_reducible apply Keeps.after (State.profileWrite_keeps _ _ _)); rfl)
      | ((with_reducible apply Keeps.after (State.setB_keeps _ _ _)); rfl) | (with_reducible refine Keeps.ite ?_ ?_)
      | (dsimp only) | split)

end Sys2Proof.Machine
end

