-- ==== Sys2Proof/Laws/KeepsBus.lean ====
section
/-! SUPPORT. What each function of the model can do to the state, one law for each: register access, the Lofts rows and the notices. -/

namespace Sys2Proof.Machine

/-! ## Bus -/

theorem State.regRead_keeps (s : State) : ∀ a1, Keeps [.regs, .latch, .rdata, .bell,
    .pipe] s (State.regRead s a1) := by
  intro a1
  have h : Keeps [.regs, .latch, .rdata, .bell, .pipe] s s := .refl s
  unfold State.regRead
  repeat' (first
      | (with_reducible assumption) | ((with_reducible apply Keeps.after (State.answer_keeps _ _)); rfl)
      | ((with_reducible apply Keeps.after (State.clearRc_keeps _ _)); rfl)
      | ((with_reducible apply Keeps.after (State.condPrune_keeps _)); rfl)
      | ((with_reducible apply Keeps.after (State.grantRead_keeps _ _ _)); rfl)
      | ((with_reducible apply Keeps.after (State.tsTagRead_keeps _ _)); rfl)
      | (with_reducible refine Keeps.ite ?_ ?_)
      | ((with_reducible apply Keeps.put_latch); rfl; first | (with_reducible assumption) | ((with_reducible apply Keeps.after (State.answer_keeps _ _)); rfl) | ((with_reducible apply Keeps.after (State.clearRc_keeps _ _)); rfl) | ((with_reducible apply Keeps.after (State.condPrune_keeps _)); rfl) | ((with_reducible apply Keeps.after (State.grantRead_keeps _ _ _)); rfl) | ((with_reducible apply Keeps.after (State.tsTagRead_keeps _ _)); rfl) | (with_reducible refine Keeps.ite ?_ ?_))
      | (dsimp only) | split)

theorem State.unitWrite_keeps (s : State) : ∀ a1 a2, Keeps allParts s (State.unitWrite s a1 a2) := by
  intro a1 a2
  have h : Keeps allParts s s := .refl s
  unfold State.unitWrite
  repeat' (first
      | (with_reducible assumption) | ((with_reducible apply Keeps.after (State.atcRegWrite_keeps _ _ _)); rfl)
      | ((with_reducible apply Keeps.after (State.belRegWrite_keeps _ _ _)); rfl)
      | ((with_reducible apply Keeps.after (State.celRegWrite_keeps _ _ _)); rfl)
      | ((with_reducible apply Keeps.after (State.chkRegWrite_keeps _ _ _)); rfl)
      | ((with_reducible apply Keeps.after (State.cntRegWrite_keeps _ _ _)); rfl)
      | ((with_reducible apply Keeps.after (State.crwRegWrite_keeps _ _ _)); rfl)
      | ((with_reducible apply Keeps.after (State.cupRegWrite_keeps _ _ _)); rfl)
      | ((with_reducible apply Keeps.after (State.dbgCmdWrite_keeps _ _)); rfl)
      | ((with_reducible apply Keeps.after (State.dwyRegWrite_keeps _ _ _)); rfl)
      | ((with_reducible apply Keeps.after (State.eoiWrite_keeps _ _ _)); rfl)
      | ((with_reducible apply Keeps.after (State.galRegWrite_keeps _ _ _)); rfl)
      | ((with_reducible apply Keeps.after (State.hlwRegWrite_keeps _ _ _)); rfl)
      | ((with_reducible apply Keeps.after (State.lftRegWrite_keeps _ _ _)); rfl)
      | ((with_reducible apply Keeps.after (State.lrdRegWrite_keeps _ _ _)); rfl)
      | ((with_reducible apply Keeps.after (State.mstRegWrite_keeps _ _ _)); rfl)
      | ((with_reducible apply Keeps.after (State.pchRegWrite_keeps _ _ _)); rfl)
      | ((with_reducible apply Keeps.after (State.shtRegWrite_keeps _ _ _)); rfl)
      | ((with_reducible apply Keeps.after (State.stwRegWrite_keeps _ _ _)); rfl)
      | ((with_reducible apply Keeps.after (State.thrRegWrite_keeps _ _ _)); rfl)
      | (with_reducible refine Keeps.ite ?_ ?_) | (dsimp only) | split)

theorem State.pairWrite_keeps (s : State) : ∀ a1 a2, Keeps allParts s (State.pairWrite s a1 a2) := by
  intro a1 a2
  have h : Keeps allParts s s := .refl s
  unfold State.pairWrite
  repeat' (first
      | (with_reducible assumption) | ((with_reducible apply Keeps.after (State.holdBaseWrite_keeps _ _)); rfl)
      | ((with_reducible apply Keeps.after (State.injKeyWrite_keeps _ _)); rfl)
      | ((with_reducible apply Keeps.after (State.timeSetPair_keeps _ _)); rfl)
      | ((with_reducible apply Keeps.after (State.unitWrite_keeps _ _ _)); rfl)
      | (with_reducible refine Keeps.ite ?_ ?_) | (dsimp only) | split)

theorem State.regWrite_keeps (s : State) : ∀ a1 a2, Keeps allParts s (State.regWrite s a1 a2) := by
  intro a1 a2
  have h : Keeps allParts s s := .refl s
  unfold State.regWrite
  repeat' (first
      | (with_reducible assumption) | ((with_reducible apply Keeps.after (State.condPrune_keeps _)); rfl)
      | ((with_reducible apply Keeps.after (State.pairWrite_keeps _ _ _)); rfl)
      | ((with_reducible apply Keeps.after (State.unitWrite_keeps _ _ _)); rfl)
      | (with_reducible refine Keeps.ite ?_ ?_)
      | ((with_reducible apply Keeps.put_held); rfl; first | (with_reducible assumption) | ((with_reducible apply Keeps.after (State.condPrune_keeps _)); rfl) | ((with_reducible apply Keeps.after (State.pairWrite_keeps _ _ _)); rfl) | ((with_reducible apply Keeps.after (State.unitWrite_keeps _ _ _)); rfl) | (with_reducible refine Keeps.ite ?_ ?_))
      | (dsimp only) | split)

theorem State.reservedAccess_keeps (s : State) : Keeps [.mast] s (State.reservedAccess s) := by
  have h : Keeps [.mast] s s := .refl s
  unfold State.reservedAccess
  repeat' (first
      | (with_reducible assumption)
      | ((with_reducible apply Keeps.put_mast); rfl; first | (with_reducible assumption)) | (dsimp only))

theorem State.accessError_keeps (s : State) : ∀ a1 a2, Keeps [.regs, .mast] s (State.accessError s a1 a2) := by
  intro a1 a2
  have h : Keeps [.regs, .mast] s s := .refl s
  unfold State.accessError
  repeat' (first
      | (with_reducible assumption) | ((with_reducible apply Keeps.after (State.report_keeps _ _ _ _)); rfl)
      | (dsimp only))

theorem State.msixWrite_keeps (s : State) : ∀ a1 a2 a3, Keeps [.dwy] s (State.msixWrite s a1 a2 a3) := by
  intro a1 a2 a3
  have h : Keeps [.dwy] s s := .refl s
  unfold State.msixWrite
  repeat' (first
      | (with_reducible assumption)
      | ((with_reducible apply Keeps.put_dwy); rfl; first | (with_reducible assumption)) | (dsimp only))

theorem State.busRead_keeps (s : State) : ∀ a1 a2 a3, Keeps [.regs, .latch, .rdata, .mast, .bell,
    .pipe] s (State.busRead s a1 a2 a3) := by
  intro a1 a2 a3
  have h : Keeps [.regs, .latch, .rdata, .mast, .bell, .pipe] s s := .refl s
  unfold State.busRead
  repeat' (first
      | (with_reducible assumption) | ((with_reducible apply Keeps.after (State.accessError_keeps _ _ _)); rfl)
      | ((with_reducible apply Keeps.after (State.answer_keeps _ _)); rfl)
      | ((with_reducible apply Keeps.after (State.regRead_keeps _ _)); rfl)
      | ((with_reducible apply Keeps.after (State.reservedAccess_keeps _)); rfl)
      | (with_reducible refine Keeps.ite ?_ ?_) | (dsimp only) | split)

theorem State.busWrite_keeps (s : State) : ∀ a1 a2 a3, Keeps allParts s (State.busWrite s a1 a2 a3) := by
  intro a1 a2 a3
  have h : Keeps allParts s s := .refl s
  unfold State.busWrite
  repeat' (first
      | (with_reducible assumption) | ((with_reducible apply Keeps.after (State.accessError_keeps _ _ _)); rfl)
      | ((with_reducible apply Keeps.after (State.msixWrite_keeps _ _ _ _)); rfl)
      | ((with_reducible apply Keeps.after (State.regWrite_keeps _ _ _)); rfl)
      | ((with_reducible apply Keeps.after (State.reservedAccess_keeps _)); rfl)
      | (with_reducible refine Keeps.ite ?_ ?_) | (dsimp only) | split)

theorem State.write32_keeps (s : State) : ∀ a1 a2, Keeps allParts s (State.write32 s a1 a2) := by
  intro a1 a2
  have h : Keeps allParts s s := .refl s
  unfold State.write32
  repeat' (first
      | (with_reducible assumption) | ((with_reducible apply Keeps.after (State.busWrite_keeps _ _ _ _)); rfl)
      | (dsimp only))

theorem execRegisterWrite_keeps (s : State) : ∀ a0 a1, ∃ t, (execRegisterWrite a0 a1 s) = .next t ∧ Keeps allParts s t := by
  intro a0 a1
  have h : Keeps allParts s s := .refl s
  unfold execRegisterWrite
  repeat' (first | (with_reducible apply Keeps.next) | (with_reducible apply Keeps.next_ite) | dsimp only | split)
  all_goals repeat' (first
      | (with_reducible assumption) | ((with_reducible apply Keeps.after (State.write32_keeps _ _ _)); rfl)
      | (with_reducible apply Keeps.fst_ite) | (dsimp only))

theorem execMisalignedRegisterAccess_keeps (s : State) : ∀ a0 a1 a2 a3, ∃ t, (execMisalignedRegisterAccess a0 a1 a2 a3 s) = .next t ∧ Keeps allParts s t := by
  intro a0 a1 a2 a3
  have h : Keeps allParts s s := .refl s
  unfold execMisalignedRegisterAccess
  repeat' (first | (with_reducible apply Keeps.next) | (with_reducible apply Keeps.next_ite) | dsimp only | split)
  all_goals repeat' (first
      | (with_reducible assumption) | ((with_reducible apply Keeps.after (State.busRead_keeps _ _ _ _)); rfl)
      | ((with_reducible apply Keeps.after (State.busWrite_keeps _ _ _ _)); rfl)
      | (with_reducible refine Keeps.ite ?_ ?_) | (with_reducible apply Keeps.fst_ite) | (dsimp only) | split)

theorem execReservedOffsetAccess_keeps (s : State) : ∀ a0 a1, ∃ t, (execReservedOffsetAccess a0 a1 s) = .next t ∧ Keeps allParts s t := by
  intro a0 a1
  have h : Keeps allParts s s := .refl s
  unfold execReservedOffsetAccess
  repeat' (first | (with_reducible apply Keeps.next) | (with_reducible apply Keeps.next_ite) | dsimp only | split)
  all_goals repeat' (first
      | (with_reducible assumption) | ((with_reducible apply Keeps.after (State.busRead_keeps _ _ _ _)); rfl)
      | ((with_reducible apply Keeps.after (State.write32_keeps _ _ _)); rfl)
      | (with_reducible refine Keeps.ite ?_ ?_) | (with_reducible apply Keeps.fst_ite) | (dsimp only) | split)

theorem execPairLowerRead_keeps (s : State) : ∀ a0, ∃ t, (execPairLowerRead a0 s) = .next t ∧ Keeps [.regs, .latch,
    .rdata, .mast, .bell, .pipe] s t := by
  intro a0
  have h : Keeps [.regs, .latch, .rdata, .mast, .bell, .pipe] s s := .refl s
  unfold execPairLowerRead
  repeat' (first | (with_reducible apply Keeps.next) | (with_reducible apply Keeps.next_ite) | dsimp only | split)
  all_goals repeat' (first
      | (with_reducible assumption) | ((with_reducible apply Keeps.after (State.busRead_keeps _ _ _ _)); rfl)
      | (with_reducible refine Keeps.ite ?_ ?_) | (with_reducible apply Keeps.fst_ite) | (dsimp only) | split)

theorem execPairUpperWrite_keeps (s : State) : ∀ a0 a1, ∃ t, (execPairUpperWrite a0 a1 s) = .next t ∧ Keeps allParts s t := by
  intro a0 a1
  have h : Keeps allParts s s := .refl s
  unfold execPairUpperWrite
  repeat' (first | (with_reducible apply Keeps.next) | (with_reducible apply Keeps.next_ite) | dsimp only | split)
  all_goals repeat' (first
      | (with_reducible assumption) | ((with_reducible apply Keeps.after (State.write32_keeps _ _ _)); rfl)
      | (with_reducible refine Keeps.ite ?_ ?_) | (with_reducible apply Keeps.fst_ite) | (dsimp only) | split)

theorem execRcFieldRead_keeps (s : State) : ∀ a0, ∃ t, (execRcFieldRead a0 s) = .next t ∧ Keeps [.regs, .latch,
    .rdata, .mast, .bell, .pipe] s t := by
  intro a0
  have h : Keeps [.regs, .latch, .rdata, .mast, .bell, .pipe] s s := .refl s
  unfold execRcFieldRead
  repeat' (first | (with_reducible apply Keeps.next) | (with_reducible apply Keeps.next_ite) | dsimp only | split)
  all_goals repeat' (first
      | (with_reducible assumption) | ((with_reducible apply Keeps.after (State.busRead_keeps _ _ _ _)); rfl)
      | (with_reducible refine Keeps.ite ?_ ?_) | (with_reducible apply Keeps.fst_ite) | (dsimp only) | split)

theorem execSetRegisterWrite_keeps (s : State) : ∀ a0 a1, ∃ t, (execSetRegisterWrite a0 a1 s) = .next t ∧ Keeps allParts s t := by
  intro a0 a1
  have h : Keeps allParts s s := .refl s
  unfold execSetRegisterWrite
  repeat' (first | (with_reducible apply Keeps.next) | (with_reducible apply Keeps.next_ite) | dsimp only | split)
  all_goals repeat' (first
      | (with_reducible assumption) | ((with_reducible apply Keeps.after (State.write32_keeps _ _ _)); rfl)
      | (with_reducible refine Keeps.ite ?_ ?_) | (with_reducible apply Keeps.fst_ite) | (dsimp only) | split)

theorem execClrRegisterWrite_keeps (s : State) : ∀ a0 a1, ∃ t, (execClrRegisterWrite a0 a1 s) = .next t ∧ Keeps allParts s t := by
  intro a0 a1
  have h : Keeps allParts s s := .refl s
  unfold execClrRegisterWrite
  repeat' (first | (with_reducible apply Keeps.next) | (with_reducible apply Keeps.next_ite) | dsimp only | split)
  all_goals repeat' (first
      | (with_reducible assumption) | ((with_reducible apply Keeps.after (State.write32_keeps _ _ _)); rfl)
      | (with_reducible apply Keeps.fst_ite) | (dsimp only) | split)

theorem execCounterRead_keeps (s : State) : ∃ t, (execCounterRead s) = .next t ∧ Keeps [.regs, .latch, .rdata, .mast,
    .bell, .pipe] s t := by
  have h : Keeps [.regs, .latch, .rdata, .mast, .bell, .pipe] s s := .refl s
  unfold execCounterRead
  repeat' (first | (with_reducible apply Keeps.next) | (with_reducible apply Keeps.next_ite) | dsimp only | split)
  all_goals repeat' (first
      | (with_reducible assumption) | ((with_reducible apply Keeps.after (State.busRead_keeps _ _ _ _)); rfl)
      | (with_reducible apply Keeps.fst_ite) | (dsimp only))

theorem execDumpCfgWrite_keeps (s : State) : ∀ a0 a1, ∃ t, (execDumpCfgWrite a0 a1 s) = .next t ∧ Keeps allParts s t := by
  intro a0 a1
  have h : Keeps allParts s s := .refl s
  unfold execDumpCfgWrite
  repeat' (first | (with_reducible apply Keeps.next) | (with_reducible apply Keeps.next_ite) | dsimp only | split)
  all_goals repeat' (first
      | (with_reducible assumption) | ((with_reducible apply Keeps.after (State.write32_keeps _ _ _)); rfl)
      | (with_reducible refine Keeps.ite ?_ ?_) | (with_reducible apply Keeps.fst_ite) | (dsimp only) | split)

theorem execTimeSetWrite_keeps (s : State) : ∀ a0, ∃ t, (execTimeSetWrite a0 s) = .next t ∧ Keeps allParts s t := by
  intro a0
  have h : Keeps allParts s s := .refl s
  unfold execTimeSetWrite
  repeat' (first | (with_reducible apply Keeps.next) | (with_reducible apply Keeps.next_ite) | dsimp only | split)
  all_goals repeat' (first
      | (with_reducible assumption) | ((with_reducible apply Keeps.after (State.write32_keeps _ _ _)); rfl)
      | (with_reducible apply Keeps.fst_ite) | (dsimp only))

theorem execSidebandAccess_keeps (s : State) : ∀ a0 a1 a2 a3, ∃ t, (execSidebandAccess a0 a1 a2 a3 s) = .next t ∧ Keeps allParts s t := by
  intro a0 a1 a2 a3
  have h : Keeps allParts s s := .refl s
  unfold execSidebandAccess
  repeat' (first | (with_reducible apply Keeps.next) | (with_reducible apply Keeps.next_ite) | dsimp only | split)
  all_goals repeat' (first
      | (with_reducible assumption) | ((with_reducible apply Keeps.after (State.busRead_keeps _ _ _ _)); rfl)
      | ((with_reducible apply Keeps.after (State.write32_keeps _ _ _)); rfl)
      | (with_reducible refine Keeps.ite ?_ ?_) | (with_reducible apply Keeps.fst_ite) | (dsimp only) | split)

theorem State.cfgWrite_keeps (s : State) : ∀ a1 a2, Keeps allParts s (State.cfgWrite s a1 a2) := by
  intro a1 a2
  have h : Keeps allParts s s := .refl s
  unfold State.cfgWrite
  repeat' (first
      | (with_reducible assumption) | ((with_reducible apply Keeps.after (State.regWrite_keeps _ _ _)); rfl)
      | ((with_reducible apply Keeps.after (State.reservedAccess_keeps _)); rfl)
      | (with_reducible refine Keeps.ite ?_ ?_) | (dsimp only) | split)

theorem State.cfgRead_keeps (s : State) : ∀ a1, Keeps [.regs, .latch, .rdata, .mast, .bell,
    .pipe] s (State.cfgRead s a1) := by
  intro a1
  have h : Keeps [.regs, .latch, .rdata, .mast, .bell, .pipe] s s := .refl s
  unfold State.cfgRead
  repeat' (first
      | (with_reducible assumption) | ((with_reducible apply Keeps.after (State.answer_keeps _ _)); rfl)
      | ((with_reducible apply Keeps.after (State.regRead_keeps _ _)); rfl)
      | ((with_reducible apply Keeps.after (State.reservedAccess_keeps _)); rfl)
      | (with_reducible refine Keeps.ite ?_ ?_) | (dsimp only) | split)

theorem State.cfgNext_keeps (s : State) : Keeps [.attic] s (State.cfgNext s) := by
  have h : Keeps [.attic] s s := .refl s
  unfold State.cfgNext
  repeat' (first
      | (with_reducible assumption) | ((with_reducible apply Keeps.after (State.setBoot_keeps _ _)); rfl)
      | (dsimp only))

theorem State.cfgWait_keeps (s : State) : Keeps [.attic] s (State.cfgWait s) := by
  have h : Keeps [.attic] s s := .refl s
  unfold State.cfgWait
  repeat' (first
      | (with_reducible assumption) | ((with_reducible apply Keeps.after (State.setBoot_keeps _ _)); rfl)
      | (dsimp only))

theorem execConfigRecord_keeps (s : State) : ∃ t, (execConfigRecord s) = .next t ∧ Keeps allParts s t := by
  have h : Keeps allParts s s := .refl s
  unfold execConfigRecord
  repeat' (first | (with_reducible apply Keeps.next) | (with_reducible apply Keeps.next_ite) | dsimp only | split)
  all_goals repeat' (first
      | (with_reducible assumption) | ((with_reducible apply Keeps.after (State.bootDefect_keeps _ _)); rfl)
      | ((with_reducible apply Keeps.after (State.cfgNext_keeps _)); rfl)
      | ((with_reducible apply Keeps.after (State.cfgRead_keeps _ _)); rfl)
      | ((with_reducible apply Keeps.after (State.cfgWait_keeps _)); rfl)
      | ((with_reducible apply Keeps.after (State.cfgWrite_keeps _ _ _)); rfl)
      | ((with_reducible apply Keeps.after (State.toRecord_keeps _)); rfl) | (with_reducible refine Keeps.ite ?_ ?_)
      | (with_reducible apply Keeps.fst_ite) | (dsimp only) | split)

theorem execPollTimeout_keeps (s : State) : ∃ t, (execPollTimeout s) = .next t ∧ Keeps allParts s t := by
  have h : Keeps allParts s s := .refl s
  unfold execPollTimeout
  repeat' (first | (with_reducible apply Keeps.next) | (with_reducible apply Keeps.next_ite) | dsimp only | split)
  all_goals repeat' (first
      | (with_reducible assumption) | ((with_reducible apply Keeps.after (State.bootDefect_keeps _ _)); rfl)
      | (with_reducible refine Keeps.ite ?_ ?_) | (with_reducible apply Keeps.fst_ite) | (dsimp only) | split)

theorem execDelayExpire_keeps (s : State) : ∃ t, (execDelayExpire s) = .next t ∧ Keeps [.attic] s t := by
  have h : Keeps [.attic] s s := .refl s
  unfold execDelayExpire
  repeat' (first | (with_reducible apply Keeps.next) | (with_reducible apply Keeps.next_ite) | dsimp only | split)
  all_goals repeat' (first
      | (with_reducible assumption) | ((with_reducible apply Keeps.after (State.cfgNext_keeps _)); rfl)
      | (with_reducible refine Keeps.ite ?_ ?_) | (with_reducible apply Keeps.fst_ite) | (dsimp only) | split)

/-! ## Lofts -/

theorem busPort_rd (a n : Nat) (s : State) : Keeps allParts s (busPort.rd a n s).1 := (State.busRead_keeps s 0 a n).mono rfl

theorem busPort_wr (a : Nat) (b : List Byte) (s : State) : Keeps allParts s (busPort.wr a b s) :=
  (State.busWrite_keeps s 0 a b).mono rfl

theorem State.lofts_keeps (s : State) (t op : Nat) (f : LFields) : Keeps allParts s (State.lofts s t op f) :=
  State.issue_keeps rfl fun u k => k.trans (lftBody_keeps rfl busPort busPort_rd busPort_wr op u t f)

theorem execNop_keeps (s : State) (t : Nat) (f : LFields) : ∃ u, execNop t f s = .next u ∧ Keeps allParts s u :=
  ⟨_, rfl, s.lofts_keeps t 0x00 f⟩

theorem execAdd_keeps (s : State) (t : Nat) (f : LFields) : ∃ u, execAdd t f s = .next u ∧ Keeps allParts s u :=
  ⟨_, rfl, s.lofts_keeps t 0x01 f⟩

theorem execSub_keeps (s : State) (t : Nat) (f : LFields) : ∃ u, execSub t f s = .next u ∧ Keeps allParts s u :=
  ⟨_, rfl, s.lofts_keeps t 0x02 f⟩

theorem execAnd_keeps (s : State) (t : Nat) (f : LFields) : ∃ u, execAnd t f s = .next u ∧ Keeps allParts s u :=
  ⟨_, rfl, s.lofts_keeps t 0x03 f⟩

theorem execOr_keeps (s : State) (t : Nat) (f : LFields) : ∃ u, execOr t f s = .next u ∧ Keeps allParts s u :=
  ⟨_, rfl, s.lofts_keeps t 0x04 f⟩

theorem execXor_keeps (s : State) (t : Nat) (f : LFields) : ∃ u, execXor t f s = .next u ∧ Keeps allParts s u :=
  ⟨_, rfl, s.lofts_keeps t 0x05 f⟩

theorem execShl_keeps (s : State) (t : Nat) (f : LFields) : ∃ u, execShl t f s = .next u ∧ Keeps allParts s u :=
  ⟨_, rfl, s.lofts_keeps t 0x06 f⟩

theorem execShr_keeps (s : State) (t : Nat) (f : LFields) : ∃ u, execShr t f s = .next u ∧ Keeps allParts s u :=
  ⟨_, rfl, s.lofts_keeps t 0x07 f⟩

theorem execSar_keeps (s : State) (t : Nat) (f : LFields) : ∃ u, execSar t f s = .next u ∧ Keeps allParts s u :=
  ⟨_, rfl, s.lofts_keeps t 0x08 f⟩

theorem execMul_keeps (s : State) (t : Nat) (f : LFields) : ∃ u, execMul t f s = .next u ∧ Keeps allParts s u :=
  ⟨_, rfl, s.lofts_keeps t 0x09 f⟩

theorem execMulh_keeps (s : State) (t : Nat) (f : LFields) : ∃ u, execMulh t f s = .next u ∧ Keeps allParts s u :=
  ⟨_, rfl, s.lofts_keeps t 0x0A f⟩

theorem execSlt_keeps (s : State) (t : Nat) (f : LFields) : ∃ u, execSlt t f s = .next u ∧ Keeps allParts s u :=
  ⟨_, rfl, s.lofts_keeps t 0x0B f⟩

theorem execSltu_keeps (s : State) (t : Nat) (f : LFields) : ∃ u, execSltu t f s = .next u ∧ Keeps allParts s u :=
  ⟨_, rfl, s.lofts_keeps t 0x0C f⟩

theorem execBext_keeps (s : State) (t : Nat) (f : LFields) : ∃ u, execBext t f s = .next u ∧ Keeps allParts s u :=
  ⟨_, rfl, s.lofts_keeps t 0x0D f⟩

theorem execBins_keeps (s : State) (t : Nat) (f : LFields) : ∃ u, execBins t f s = .next u ∧ Keeps allParts s u :=
  ⟨_, rfl, s.lofts_keeps t 0x0E f⟩

theorem execPopc_keeps (s : State) (t : Nat) (f : LFields) : ∃ u, execPopc t f s = .next u ∧ Keeps allParts s u :=
  ⟨_, rfl, s.lofts_keeps t 0x0F f⟩

theorem execClz_keeps (s : State) (t : Nat) (f : LFields) : ∃ u, execClz t f s = .next u ∧ Keeps allParts s u :=
  ⟨_, rfl, s.lofts_keeps t 0x10 f⟩

theorem execAddi_keeps (s : State) (t : Nat) (f : LFields) : ∃ u, execAddi t f s = .next u ∧ Keeps allParts s u :=
  ⟨_, rfl, s.lofts_keeps t 0x11 f⟩

theorem execAndi_keeps (s : State) (t : Nat) (f : LFields) : ∃ u, execAndi t f s = .next u ∧ Keeps allParts s u :=
  ⟨_, rfl, s.lofts_keeps t 0x12 f⟩

theorem execOri_keeps (s : State) (t : Nat) (f : LFields) : ∃ u, execOri t f s = .next u ∧ Keeps allParts s u :=
  ⟨_, rfl, s.lofts_keeps t 0x13 f⟩

theorem execXori_keeps (s : State) (t : Nat) (f : LFields) : ∃ u, execXori t f s = .next u ∧ Keeps allParts s u :=
  ⟨_, rfl, s.lofts_keeps t 0x14 f⟩

theorem execShli_keeps (s : State) (t : Nat) (f : LFields) : ∃ u, execShli t f s = .next u ∧ Keeps allParts s u :=
  ⟨_, rfl, s.lofts_keeps t 0x15 f⟩

theorem execShri_keeps (s : State) (t : Nat) (f : LFields) : ∃ u, execShri t f s = .next u ∧ Keeps allParts s u :=
  ⟨_, rfl, s.lofts_keeps t 0x16 f⟩

theorem execSari_keeps (s : State) (t : Nat) (f : LFields) : ∃ u, execSari t f s = .next u ∧ Keeps allParts s u :=
  ⟨_, rfl, s.lofts_keeps t 0x17 f⟩

theorem execLi_keeps (s : State) (t : Nat) (f : LFields) : ∃ u, execLi t f s = .next u ∧ Keeps allParts s u :=
  ⟨_, rfl, s.lofts_keeps t 0x18 f⟩

theorem execLih_keeps (s : State) (t : Nat) (f : LFields) : ∃ u, execLih t f s = .next u ∧ Keeps allParts s u :=
  ⟨_, rfl, s.lofts_keeps t 0x19 f⟩

theorem execBswap_keeps (s : State) (t : Nat) (f : LFields) : ∃ u, execBswap t f s = .next u ∧ Keeps allParts s u :=
  ⟨_, rfl, s.lofts_keeps t 0x1A f⟩

theorem execBeq_keeps (s : State) (t : Nat) (f : LFields) : ∃ u, execBeq t f s = .next u ∧ Keeps allParts s u :=
  ⟨_, rfl, s.lofts_keeps t 0x20 f⟩

theorem execBne_keeps (s : State) (t : Nat) (f : LFields) : ∃ u, execBne t f s = .next u ∧ Keeps allParts s u :=
  ⟨_, rfl, s.lofts_keeps t 0x21 f⟩

theorem execBlt_keeps (s : State) (t : Nat) (f : LFields) : ∃ u, execBlt t f s = .next u ∧ Keeps allParts s u :=
  ⟨_, rfl, s.lofts_keeps t 0x22 f⟩

theorem execBge_keeps (s : State) (t : Nat) (f : LFields) : ∃ u, execBge t f s = .next u ∧ Keeps allParts s u :=
  ⟨_, rfl, s.lofts_keeps t 0x23 f⟩

theorem execBltu_keeps (s : State) (t : Nat) (f : LFields) : ∃ u, execBltu t f s = .next u ∧ Keeps allParts s u :=
  ⟨_, rfl, s.lofts_keeps t 0x24 f⟩

theorem execBgeu_keeps (s : State) (t : Nat) (f : LFields) : ∃ u, execBgeu t f s = .next u ∧ Keeps allParts s u :=
  ⟨_, rfl, s.lofts_keeps t 0x25 f⟩

theorem execJal_keeps (s : State) (t : Nat) (f : LFields) : ∃ u, execJal t f s = .next u ∧ Keeps allParts s u :=
  ⟨_, rfl, s.lofts_keeps t 0x26 f⟩

theorem execJalr_keeps (s : State) (t : Nat) (f : LFields) : ∃ u, execJalr t f s = .next u ∧ Keeps allParts s u :=
  ⟨_, rfl, s.lofts_keeps t 0x27 f⟩

theorem execLd_keeps (s : State) (t : Nat) (f : LFields) : ∃ u, execLd t f s = .next u ∧ Keeps allParts s u :=
  ⟨_, rfl, s.lofts_keeps t 0x30 f⟩

theorem execLds_keeps (s : State) (t : Nat) (f : LFields) : ∃ u, execLds t f s = .next u ∧ Keeps allParts s u :=
  ⟨_, rfl, s.lofts_keeps t 0x31 f⟩

theorem execSt_keeps (s : State) (t : Nat) (f : LFields) : ∃ u, execSt t f s = .next u ∧ Keeps allParts s u :=
  ⟨_, rfl, s.lofts_keeps t 0x32 f⟩

theorem execAmoAdd_keeps (s : State) (t : Nat) (f : LFields) : ∃ u, execAmoAdd t f s = .next u ∧ Keeps allParts s u :=
  ⟨_, rfl, s.lofts_keeps t 0x33 f⟩

theorem execAmoSwap_keeps (s : State) (t : Nat) (f : LFields) : ∃ u, execAmoSwap t f s = .next u ∧ Keeps allParts s u :=
  ⟨_, rfl, s.lofts_keeps t 0x34 f⟩

theorem execAmoCas_keeps (s : State) (t : Nat) (f : LFields) : ∃ u, execAmoCas t f s = .next u ∧ Keeps allParts s u :=
  ⟨_, rfl, s.lofts_keeps t 0x35 f⟩

theorem execTkNext_keeps (s : State) (t : Nat) (f : LFields) : ∃ u, execTkNext t f s = .next u ∧ Keeps allParts s u :=
  ⟨_, rfl, s.lofts_keeps t 0x40 f⟩

theorem execPktRd_keeps (s : State) (t : Nat) (f : LFields) : ∃ u, execPktRd t f s = .next u ∧ Keeps allParts s u :=
  ⟨_, rfl, s.lofts_keeps t 0x41 f⟩

theorem execPktWr_keeps (s : State) (t : Nat) (f : LFields) : ∃ u, execPktWr t f s = .next u ∧ Keeps allParts s u :=
  ⟨_, rfl, s.lofts_keeps t 0x42 f⟩

theorem execTkEmit_keeps (s : State) (t : Nat) (f : LFields) : ∃ u, execTkEmit t f s = .next u ∧ Keeps allParts s u :=
  ⟨_, rfl, s.lofts_keeps t 0x43 f⟩

theorem execTkReinject_keeps (s : State) (t : Nat) (f : LFields) : ∃ u, execTkReinject t f s = .next u ∧ Keeps allParts s u :=
  ⟨_, rfl, s.lofts_keeps t 0x44 f⟩

theorem execTkHost_keeps (s : State) (t : Nat) (f : LFields) : ∃ u, execTkHost t f s = .next u ∧ Keeps allParts s u :=
  ⟨_, rfl, s.lofts_keeps t 0x45 f⟩

theorem execTkDone_keeps (s : State) (t : Nat) (f : LFields) : ∃ u, execTkDone t f s = .next u ∧ Keeps allParts s u :=
  ⟨_, rfl, s.lofts_keeps t 0x46 f⟩

theorem execTbl_keeps (s : State) (t : Nat) (f : LFields) : ∃ u, execTbl t f s = .next u ∧ Keeps allParts s u :=
  ⟨_, rfl, s.lofts_keeps t 0x50 f⟩

theorem execChk_keeps (s : State) (t : Nat) (f : LFields) : ∃ u, execChk t f s = .next u ∧ Keeps allParts s u :=
  ⟨_, rfl, s.lofts_keeps t 0x51 f⟩

theorem execDma_keeps (s : State) (t : Nat) (f : LFields) : ∃ u, execDma t f s = .next u ∧ Keeps allParts s u :=
  ⟨_, rfl, s.lofts_keeps t 0x52 f⟩

theorem execLbPut_keeps (s : State) (t : Nat) (f : LFields) : ∃ u, execLbPut t f s = .next u ∧ Keeps allParts s u :=
  ⟨_, rfl, s.lofts_keeps t 0x60 f⟩

theorem execLbSend_keeps (s : State) (t : Nat) (f : LFields) : ∃ u, execLbSend t f s = .next u ∧ Keeps allParts s u :=
  ⟨_, rfl, s.lofts_keeps t 0x61 f⟩

theorem execLbDrop_keeps (s : State) (t : Nat) (f : LFields) : ∃ u, execLbDrop t f s = .next u ∧ Keeps allParts s u :=
  ⟨_, rfl, s.lofts_keeps t 0x62 f⟩

theorem execLbRecv_keeps (s : State) (t : Nat) (f : LFields) : ∃ u, execLbRecv t f s = .next u ∧ Keeps allParts s u :=
  ⟨_, rfl, s.lofts_keeps t 0x63 f⟩

theorem execWfe_keeps (s : State) (t : Nat) (f : LFields) : ∃ u, execWfe t f s = .next u ∧ Keeps allParts s u :=
  ⟨_, rfl, s.lofts_keeps t 0x70 f⟩

theorem execEvSet_keeps (s : State) (t : Nat) (f : LFields) : ∃ u, execEvSet t f s = .next u ∧ Keeps allParts s u :=
  ⟨_, rfl, s.lofts_keeps t 0x71 f⟩

theorem execEvClr_keeps (s : State) (t : Nat) (f : LFields) : ∃ u, execEvClr t f s = .next u ∧ Keeps allParts s u :=
  ⟨_, rfl, s.lofts_keeps t 0x72 f⟩

theorem execTmr_keeps (s : State) (t : Nat) (f : LFields) : ∃ u, execTmr t f s = .next u ∧ Keeps allParts s u :=
  ⟨_, rfl, s.lofts_keeps t 0x73 f⟩

theorem execTime_keeps (s : State) (t : Nat) (f : LFields) : ∃ u, execTime t f s = .next u ∧ Keeps allParts s u :=
  ⟨_, rfl, s.lofts_keeps t 0x74 f⟩

theorem execThrWreg_keeps (s : State) (t : Nat) (f : LFields) : ∃ u, execThrWreg t f s = .next u ∧ Keeps allParts s u :=
  ⟨_, rfl, s.lofts_keeps t 0x75 f⟩

theorem execThrRreg_keeps (s : State) (t : Nat) (f : LFields) : ∃ u, execThrRreg t f s = .next u ∧ Keeps allParts s u :=
  ⟨_, rfl, s.lofts_keeps t 0x76 f⟩

theorem execThrStart_keeps (s : State) (t : Nat) (f : LFields) : ∃ u, execThrStart t f s = .next u ∧ Keeps allParts s u :=
  ⟨_, rfl, s.lofts_keeps t 0x77 f⟩

theorem execThrStop_keeps (s : State) (t : Nat) (f : LFields) : ∃ u, execThrStop t f s = .next u ∧ Keeps allParts s u :=
  ⟨_, rfl, s.lofts_keeps t 0x78 f⟩

theorem execThrReset_keeps (s : State) (t : Nat) (f : LFields) : ∃ u, execThrReset t f s = .next u ∧ Keeps allParts s u :=
  ⟨_, rfl, s.lofts_keeps t 0x79 f⟩

theorem execThrStat_keeps (s : State) (t : Nat) (f : LFields) : ∃ u, execThrStat t f s = .next u ∧ Keeps allParts s u :=
  ⟨_, rfl, s.lofts_keeps t 0x7A f⟩

theorem execBell_keeps (s : State) (t : Nat) (f : LFields) : ∃ u, execBell t f s = .next u ∧ Keeps allParts s u :=
  ⟨_, rfl, s.lofts_keeps t 0x7B f⟩

theorem execVret_keeps (s : State) (t : Nat) (f : LFields) : ∃ u, execVret t f s = .next u ∧ Keeps allParts s u :=
  ⟨_, rfl, s.lofts_keeps t 0x7C f⟩

theorem execTrap_keeps (s : State) (t : Nat) (f : LFields) : ∃ u, execTrap t f s = .next u ∧ Keeps allParts s u :=
  ⟨_, rfl, s.lofts_keeps t 0x7D f⟩

theorem execBrk_keeps (s : State) (t : Nat) (f : LFields) : ∃ u, execBrk t f s = .next u ∧ Keeps allParts s u :=
  ⟨_, rfl, s.lofts_keeps t 0x7E f⟩

theorem execStop_keeps (s : State) (t : Nat) (f : LFields) : ∃ u, execStop t f s = .next u ∧ Keeps allParts s u :=
  ⟨_, rfl, s.lofts_keeps t 0x7F f⟩

/-! ## Notice -/

theorem State.setTokens_keeps (s : State) : ∀ a1 a2, Keeps [.crw] s (State.setTokens s a1 a2) := by
  intro a1 a2
  have h : Keeps [.crw] s s := .refl s
  unfold State.setTokens
  repeat' (first
      | (with_reducible assumption)
      | ((with_reducible apply Keeps.put_crw); rfl; first | (with_reducible assumption)) | (dsimp only))

theorem State.sendNotice_keeps (s : State) : ∀ a1 a2 a3 a4 a5 a6 a7 a8 a9 a10 a11, Keeps [.regs, .mast, .pipe,
    .crw] s (State.sendNotice s a1 a2 a3 a4 a5 a6 a7 a8 a9 a10 a11) := by
  intro a1 a2 a3 a4 a5 a6 a7 a8 a9 a10 a11
  have h : Keeps [.regs, .mast, .pipe, .crw] s s := .refl s
  unfold State.sendNotice
  repeat' (first
      | (with_reducible assumption) | ((with_reducible apply Keeps.after (State.count_keeps _ _ _ _)); rfl)
      | ((with_reducible apply Keeps.after (State.directEnter_keeps _ _ _ _ _ _)); rfl)
      | ((with_reducible apply Keeps.after (State.setTokens_keeps _ _ _)); rfl)
      | ((with_reducible apply Keeps.pair); with_reducible assumption) | (with_reducible refine Keeps.ite ?_ ?_)
      | (with_reducible apply Keeps.fst_ite) | (dsimp only) | split)

theorem execNoticeDecide_keeps (s : State) : ∀ a0, ∃ t, (execNoticeDecide a0 s) = .next t ∧ Keeps [.regs, .mast,
    .pipe, .crw] s t := by
  intro a0
  have h : Keeps [.regs, .mast, .pipe, .crw] s s := .refl s
  unfold execNoticeDecide
  repeat' (first | (with_reducible apply Keeps.next) | (with_reducible apply Keeps.next_ite) | dsimp only | split)
  all_goals repeat' (first
      | (with_reducible assumption)
      | ((with_reducible apply Keeps.after (State.sendNotice_keeps _ _ _ _ _ _ _ _ _ _ _ _)); rfl)
      | ((with_reducible apply Keeps.after (State.setFrame_keeps _ _ _)); rfl)
      | ((with_reducible apply Keeps.after (State.tidy_keeps _ _)); rfl) | (with_reducible refine Keeps.ite ?_ ?_)
      | (with_reducible apply Keeps.fst_ite) | (dsimp only) | split)

theorem execNoticeTokenRefill_keeps (s : State) : ∀ a0, ∃ t, (execNoticeTokenRefill a0 s) = .next t ∧ Keeps [.crw] s t := by
  intro a0
  have h : Keeps [.crw] s s := .refl s
  unfold execNoticeTokenRefill
  repeat' (first | (with_reducible apply Keeps.next) | (with_reducible apply Keeps.next_ite) | dsimp only | split)
  all_goals repeat' (first
      | (with_reducible assumption) | ((with_reducible apply Keeps.after (State.setTokens_keeps _ _ _)); rfl)
      | (with_reducible apply Keeps.fst_ite) | (dsimp only))

theorem execCopyOutcome_keeps (s : State) : ∀ a0, ∃ t, (execCopyOutcome a0 s) = .next t ∧ Keeps [.regs, .mast, .pipe,
    .stw, .crw] s t := by
  intro a0
  have h : Keeps [.regs, .mast, .pipe, .stw, .crw] s s := .refl s
  unfold execCopyOutcome
  repeat' (first | (with_reducible apply Keeps.next) | (with_reducible apply Keeps.next_ite) | dsimp only | split)
  all_goals repeat' (first
      | (with_reducible assumption) | ((with_reducible apply Keeps.after (State.copyGone_keeps _ _)); rfl)
      | ((with_reducible apply Keeps.after (State.count_keeps _ _ _ _)); rfl)
      | ((with_reducible apply Keeps.after (State.sendNotice_keeps _ _ _ _ _ _ _ _ _ _ _ _)); rfl)
      | ((with_reducible apply Keeps.after (State.setCopy_keeps _ _ _)); rfl)
      | (with_reducible refine Keeps.ite ?_ ?_) | (with_reducible apply Keeps.fst_ite) | (dsimp only) | split)

end Sys2Proof.Machine
end

