-- ==== Sys2Proof/Laws/State.lean ====
section
/-! SUPPORT. The registers and the small updates of the state: what a register reads as after a write, bit fields, and
one law for each piece that an update leaves alone. -/

namespace Sys2Proof.Machine

/-! ## Pieces that an update leaves alone -/

@[simp] theorem State.wr_held (s : State) (a : Nat) (v : Word) : (s.wr a v).held = s.held := rfl
@[simp] theorem State.wr_latch (s : State) (a : Nat) (v : Word) : (s.wr a v).latch = s.latch := rfl
@[simp] theorem State.wr_rdata (s : State) (a : Nat) (v : Word) : (s.wr a v).rdata = s.rdata := rfl
@[simp] theorem State.wr_time (s : State) (a : Nat) (v : Word) : (s.wr a v).time = s.time := rfl
@[simp] theorem State.wr_cycles (s : State) (a : Nat) (v : Word) : (s.wr a v).cycles = s.cycles := rfl
@[simp] theorem State.wr_freeCtr (s : State) (a : Nat) (v : Word) : (s.wr a v).freeCtr = s.freeCtr := rfl
@[simp] theorem State.wr_ecc (s : State) (a : Nat) (v : Word) : (s.wr a v).ecc = s.ecc := rfl
@[simp] theorem State.wr_mast (s : State) (a : Nat) (v : Word) : (s.wr a v).mast = s.mast := rfl
@[simp] theorem State.wr_bell (s : State) (a : Nat) (v : Word) : (s.wr a v).bell = s.bell := rfl
@[simp] theorem State.wr_cel (s : State) (a : Nat) (v : Word) : (s.wr a v).cel = s.cel := rfl
@[simp] theorem State.wr_attic (s : State) (a : Nat) (v : Word) : (s.wr a v).attic = s.attic := rfl
@[simp] theorem State.wr_cup (s : State) (a : Nat) (v : Word) : (s.wr a v).cup = s.cup := rfl
@[simp] theorem State.wr_dwy (s : State) (a : Nat) (v : Word) : (s.wr a v).dwy = s.dwy := rfl
@[simp] theorem State.wr_lft (s : State) (a : Nat) (v : Word) : (s.wr a v).lft = s.lft := rfl
@[simp] theorem State.wr_pipe (s : State) (a : Nat) (v : Word) : (s.wr a v).pipe = s.pipe := rfl
@[simp] theorem State.wr_hlw (s : State) (a : Nat) (v : Word) : (s.wr a v).hlw = s.hlw := rfl
@[simp] theorem State.wr_gal (s : State) (a : Nat) (v : Word) : (s.wr a v).gal = s.gal := rfl
@[simp] theorem State.wr_lrd (s : State) (a : Nat) (v : Word) : (s.wr a v).lrd = s.lrd := rfl
@[simp] theorem State.wr_stw (s : State) (a : Nat) (v : Word) : (s.wr a v).stw = s.stw := rfl
@[simp] theorem State.wr_sht (s : State) (a : Nat) (v : Word) : (s.wr a v).sht = s.sht := rfl
@[simp] theorem State.wr_crw (s : State) (a : Nat) (v : Word) : (s.wr a v).crw = s.crw := rfl
@[simp] theorem State.wr_outbox (s : State) (a : Nat) (v : Word) : (s.wr a v).outbox = s.outbox := rfl
@[simp] theorem State.wr_pending (s : State) (a : Nat) (v : Word) : (s.wr a v).pending = s.pending := rfl

@[simp] theorem State.wf_held (s : State) (a h l v : Nat) : (s.wf a h l v).held = s.held := rfl
@[simp] theorem State.wf_latch (s : State) (a h l v : Nat) : (s.wf a h l v).latch = s.latch := rfl
@[simp] theorem State.wf_rdata (s : State) (a h l v : Nat) : (s.wf a h l v).rdata = s.rdata := rfl
@[simp] theorem State.wf_time (s : State) (a h l v : Nat) : (s.wf a h l v).time = s.time := rfl
@[simp] theorem State.wf_cycles (s : State) (a h l v : Nat) : (s.wf a h l v).cycles = s.cycles := rfl
@[simp] theorem State.wf_freeCtr (s : State) (a h l v : Nat) : (s.wf a h l v).freeCtr = s.freeCtr := rfl
@[simp] theorem State.wf_ecc (s : State) (a h l v : Nat) : (s.wf a h l v).ecc = s.ecc := rfl
@[simp] theorem State.wf_mast (s : State) (a h l v : Nat) : (s.wf a h l v).mast = s.mast := rfl
@[simp] theorem State.wf_bell (s : State) (a h l v : Nat) : (s.wf a h l v).bell = s.bell := rfl
@[simp] theorem State.wf_cel (s : State) (a h l v : Nat) : (s.wf a h l v).cel = s.cel := rfl
@[simp] theorem State.wf_attic (s : State) (a h l v : Nat) : (s.wf a h l v).attic = s.attic := rfl
@[simp] theorem State.wf_cup (s : State) (a h l v : Nat) : (s.wf a h l v).cup = s.cup := rfl
@[simp] theorem State.wf_dwy (s : State) (a h l v : Nat) : (s.wf a h l v).dwy = s.dwy := rfl
@[simp] theorem State.wf_lft (s : State) (a h l v : Nat) : (s.wf a h l v).lft = s.lft := rfl
@[simp] theorem State.wf_pipe (s : State) (a h l v : Nat) : (s.wf a h l v).pipe = s.pipe := rfl
@[simp] theorem State.wf_hlw (s : State) (a h l v : Nat) : (s.wf a h l v).hlw = s.hlw := rfl
@[simp] theorem State.wf_gal (s : State) (a h l v : Nat) : (s.wf a h l v).gal = s.gal := rfl
@[simp] theorem State.wf_lrd (s : State) (a h l v : Nat) : (s.wf a h l v).lrd = s.lrd := rfl
@[simp] theorem State.wf_stw (s : State) (a h l v : Nat) : (s.wf a h l v).stw = s.stw := rfl
@[simp] theorem State.wf_sht (s : State) (a h l v : Nat) : (s.wf a h l v).sht = s.sht := rfl
@[simp] theorem State.wf_crw (s : State) (a h l v : Nat) : (s.wf a h l v).crw = s.crw := rfl
@[simp] theorem State.wf_outbox (s : State) (a h l v : Nat) : (s.wf a h l v).outbox = s.outbox := rfl
@[simp] theorem State.wf_pending (s : State) (a h l v : Nat) : (s.wf a h l v).pending = s.pending := rfl

@[simp] theorem State.wrN_held (s : State) (a v : Nat) : (s.wrN a v).held = s.held := rfl
@[simp] theorem State.wrN_latch (s : State) (a v : Nat) : (s.wrN a v).latch = s.latch := rfl
@[simp] theorem State.wrN_rdata (s : State) (a v : Nat) : (s.wrN a v).rdata = s.rdata := rfl
@[simp] theorem State.wrN_time (s : State) (a v : Nat) : (s.wrN a v).time = s.time := rfl
@[simp] theorem State.wrN_cycles (s : State) (a v : Nat) : (s.wrN a v).cycles = s.cycles := rfl
@[simp] theorem State.wrN_freeCtr (s : State) (a v : Nat) : (s.wrN a v).freeCtr = s.freeCtr := rfl
@[simp] theorem State.wrN_ecc (s : State) (a v : Nat) : (s.wrN a v).ecc = s.ecc := rfl
@[simp] theorem State.wrN_mast (s : State) (a v : Nat) : (s.wrN a v).mast = s.mast := rfl
@[simp] theorem State.wrN_bell (s : State) (a v : Nat) : (s.wrN a v).bell = s.bell := rfl
@[simp] theorem State.wrN_cel (s : State) (a v : Nat) : (s.wrN a v).cel = s.cel := rfl
@[simp] theorem State.wrN_attic (s : State) (a v : Nat) : (s.wrN a v).attic = s.attic := rfl
@[simp] theorem State.wrN_cup (s : State) (a v : Nat) : (s.wrN a v).cup = s.cup := rfl
@[simp] theorem State.wrN_dwy (s : State) (a v : Nat) : (s.wrN a v).dwy = s.dwy := rfl
@[simp] theorem State.wrN_lft (s : State) (a v : Nat) : (s.wrN a v).lft = s.lft := rfl
@[simp] theorem State.wrN_pipe (s : State) (a v : Nat) : (s.wrN a v).pipe = s.pipe := rfl
@[simp] theorem State.wrN_hlw (s : State) (a v : Nat) : (s.wrN a v).hlw = s.hlw := rfl
@[simp] theorem State.wrN_gal (s : State) (a v : Nat) : (s.wrN a v).gal = s.gal := rfl
@[simp] theorem State.wrN_lrd (s : State) (a v : Nat) : (s.wrN a v).lrd = s.lrd := rfl
@[simp] theorem State.wrN_stw (s : State) (a v : Nat) : (s.wrN a v).stw = s.stw := rfl
@[simp] theorem State.wrN_sht (s : State) (a v : Nat) : (s.wrN a v).sht = s.sht := rfl
@[simp] theorem State.wrN_crw (s : State) (a v : Nat) : (s.wrN a v).crw = s.crw := rfl
@[simp] theorem State.wrN_outbox (s : State) (a v : Nat) : (s.wrN a v).outbox = s.outbox := rfl
@[simp] theorem State.wrN_pending (s : State) (a v : Nat) : (s.wrN a v).pending = s.pending := rfl

@[simp] theorem State.setB_held (s : State) (a i : Nat) : (s.setB a i).held = s.held := rfl
@[simp] theorem State.setB_latch (s : State) (a i : Nat) : (s.setB a i).latch = s.latch := rfl
@[simp] theorem State.setB_rdata (s : State) (a i : Nat) : (s.setB a i).rdata = s.rdata := rfl
@[simp] theorem State.setB_time (s : State) (a i : Nat) : (s.setB a i).time = s.time := rfl
@[simp] theorem State.setB_cycles (s : State) (a i : Nat) : (s.setB a i).cycles = s.cycles := rfl
@[simp] theorem State.setB_freeCtr (s : State) (a i : Nat) : (s.setB a i).freeCtr = s.freeCtr := rfl
@[simp] theorem State.setB_ecc (s : State) (a i : Nat) : (s.setB a i).ecc = s.ecc := rfl
@[simp] theorem State.setB_mast (s : State) (a i : Nat) : (s.setB a i).mast = s.mast := rfl
@[simp] theorem State.setB_bell (s : State) (a i : Nat) : (s.setB a i).bell = s.bell := rfl
@[simp] theorem State.setB_cel (s : State) (a i : Nat) : (s.setB a i).cel = s.cel := rfl
@[simp] theorem State.setB_attic (s : State) (a i : Nat) : (s.setB a i).attic = s.attic := rfl
@[simp] theorem State.setB_cup (s : State) (a i : Nat) : (s.setB a i).cup = s.cup := rfl
@[simp] theorem State.setB_dwy (s : State) (a i : Nat) : (s.setB a i).dwy = s.dwy := rfl
@[simp] theorem State.setB_lft (s : State) (a i : Nat) : (s.setB a i).lft = s.lft := rfl
@[simp] theorem State.setB_pipe (s : State) (a i : Nat) : (s.setB a i).pipe = s.pipe := rfl
@[simp] theorem State.setB_hlw (s : State) (a i : Nat) : (s.setB a i).hlw = s.hlw := rfl
@[simp] theorem State.setB_gal (s : State) (a i : Nat) : (s.setB a i).gal = s.gal := rfl
@[simp] theorem State.setB_lrd (s : State) (a i : Nat) : (s.setB a i).lrd = s.lrd := rfl
@[simp] theorem State.setB_stw (s : State) (a i : Nat) : (s.setB a i).stw = s.stw := rfl
@[simp] theorem State.setB_sht (s : State) (a i : Nat) : (s.setB a i).sht = s.sht := rfl
@[simp] theorem State.setB_crw (s : State) (a i : Nat) : (s.setB a i).crw = s.crw := rfl
@[simp] theorem State.setB_outbox (s : State) (a i : Nat) : (s.setB a i).outbox = s.outbox := rfl
@[simp] theorem State.setB_pending (s : State) (a i : Nat) : (s.setB a i).pending = s.pending := rfl

@[simp] theorem State.putB_held (s : State) (a i : Nat) (b : Bool) : (s.putB a i b).held = s.held := rfl
@[simp] theorem State.putB_latch (s : State) (a i : Nat) (b : Bool) : (s.putB a i b).latch = s.latch := rfl
@[simp] theorem State.putB_rdata (s : State) (a i : Nat) (b : Bool) : (s.putB a i b).rdata = s.rdata := rfl
@[simp] theorem State.putB_time (s : State) (a i : Nat) (b : Bool) : (s.putB a i b).time = s.time := rfl
@[simp] theorem State.putB_cycles (s : State) (a i : Nat) (b : Bool) : (s.putB a i b).cycles = s.cycles := rfl
@[simp] theorem State.putB_freeCtr (s : State) (a i : Nat) (b : Bool) : (s.putB a i b).freeCtr = s.freeCtr := rfl
@[simp] theorem State.putB_ecc (s : State) (a i : Nat) (b : Bool) : (s.putB a i b).ecc = s.ecc := rfl
@[simp] theorem State.putB_mast (s : State) (a i : Nat) (b : Bool) : (s.putB a i b).mast = s.mast := rfl
@[simp] theorem State.putB_bell (s : State) (a i : Nat) (b : Bool) : (s.putB a i b).bell = s.bell := rfl
@[simp] theorem State.putB_cel (s : State) (a i : Nat) (b : Bool) : (s.putB a i b).cel = s.cel := rfl
@[simp] theorem State.putB_attic (s : State) (a i : Nat) (b : Bool) : (s.putB a i b).attic = s.attic := rfl
@[simp] theorem State.putB_cup (s : State) (a i : Nat) (b : Bool) : (s.putB a i b).cup = s.cup := rfl
@[simp] theorem State.putB_dwy (s : State) (a i : Nat) (b : Bool) : (s.putB a i b).dwy = s.dwy := rfl
@[simp] theorem State.putB_lft (s : State) (a i : Nat) (b : Bool) : (s.putB a i b).lft = s.lft := rfl
@[simp] theorem State.putB_pipe (s : State) (a i : Nat) (b : Bool) : (s.putB a i b).pipe = s.pipe := rfl
@[simp] theorem State.putB_hlw (s : State) (a i : Nat) (b : Bool) : (s.putB a i b).hlw = s.hlw := rfl
@[simp] theorem State.putB_gal (s : State) (a i : Nat) (b : Bool) : (s.putB a i b).gal = s.gal := rfl
@[simp] theorem State.putB_lrd (s : State) (a i : Nat) (b : Bool) : (s.putB a i b).lrd = s.lrd := rfl
@[simp] theorem State.putB_stw (s : State) (a i : Nat) (b : Bool) : (s.putB a i b).stw = s.stw := rfl
@[simp] theorem State.putB_sht (s : State) (a i : Nat) (b : Bool) : (s.putB a i b).sht = s.sht := rfl
@[simp] theorem State.putB_crw (s : State) (a i : Nat) (b : Bool) : (s.putB a i b).crw = s.crw := rfl
@[simp] theorem State.putB_outbox (s : State) (a i : Nat) (b : Bool) : (s.putB a i b).outbox = s.outbox := rfl
@[simp] theorem State.putB_pending (s : State) (a i : Nat) (b : Bool) : (s.putB a i b).pending = s.pending := rfl

@[simp] theorem State.wr64_held (s : State) (a v : Nat) : (s.wr64 a v).held = s.held := rfl
@[simp] theorem State.wr64_latch (s : State) (a v : Nat) : (s.wr64 a v).latch = s.latch := rfl
@[simp] theorem State.wr64_rdata (s : State) (a v : Nat) : (s.wr64 a v).rdata = s.rdata := rfl
@[simp] theorem State.wr64_time (s : State) (a v : Nat) : (s.wr64 a v).time = s.time := rfl
@[simp] theorem State.wr64_cycles (s : State) (a v : Nat) : (s.wr64 a v).cycles = s.cycles := rfl
@[simp] theorem State.wr64_freeCtr (s : State) (a v : Nat) : (s.wr64 a v).freeCtr = s.freeCtr := rfl
@[simp] theorem State.wr64_ecc (s : State) (a v : Nat) : (s.wr64 a v).ecc = s.ecc := rfl
@[simp] theorem State.wr64_mast (s : State) (a v : Nat) : (s.wr64 a v).mast = s.mast := rfl
@[simp] theorem State.wr64_bell (s : State) (a v : Nat) : (s.wr64 a v).bell = s.bell := rfl
@[simp] theorem State.wr64_cel (s : State) (a v : Nat) : (s.wr64 a v).cel = s.cel := rfl
@[simp] theorem State.wr64_attic (s : State) (a v : Nat) : (s.wr64 a v).attic = s.attic := rfl
@[simp] theorem State.wr64_cup (s : State) (a v : Nat) : (s.wr64 a v).cup = s.cup := rfl
@[simp] theorem State.wr64_dwy (s : State) (a v : Nat) : (s.wr64 a v).dwy = s.dwy := rfl
@[simp] theorem State.wr64_lft (s : State) (a v : Nat) : (s.wr64 a v).lft = s.lft := rfl
@[simp] theorem State.wr64_pipe (s : State) (a v : Nat) : (s.wr64 a v).pipe = s.pipe := rfl
@[simp] theorem State.wr64_hlw (s : State) (a v : Nat) : (s.wr64 a v).hlw = s.hlw := rfl
@[simp] theorem State.wr64_gal (s : State) (a v : Nat) : (s.wr64 a v).gal = s.gal := rfl
@[simp] theorem State.wr64_lrd (s : State) (a v : Nat) : (s.wr64 a v).lrd = s.lrd := rfl
@[simp] theorem State.wr64_stw (s : State) (a v : Nat) : (s.wr64 a v).stw = s.stw := rfl
@[simp] theorem State.wr64_sht (s : State) (a v : Nat) : (s.wr64 a v).sht = s.sht := rfl
@[simp] theorem State.wr64_crw (s : State) (a v : Nat) : (s.wr64 a v).crw = s.crw := rfl
@[simp] theorem State.wr64_outbox (s : State) (a v : Nat) : (s.wr64 a v).outbox = s.outbox := rfl
@[simp] theorem State.wr64_pending (s : State) (a v : Nat) : (s.wr64 a v).pending = s.pending := rfl

@[simp] theorem State.pulse_regs (s : State) (src : Nat) : (s.pulse src).regs = s.regs := rfl
@[simp] theorem State.pulse_held (s : State) (src : Nat) : (s.pulse src).held = s.held := rfl
@[simp] theorem State.pulse_latch (s : State) (src : Nat) : (s.pulse src).latch = s.latch := rfl
@[simp] theorem State.pulse_rdata (s : State) (src : Nat) : (s.pulse src).rdata = s.rdata := rfl
@[simp] theorem State.pulse_time (s : State) (src : Nat) : (s.pulse src).time = s.time := rfl
@[simp] theorem State.pulse_cycles (s : State) (src : Nat) : (s.pulse src).cycles = s.cycles := rfl
@[simp] theorem State.pulse_freeCtr (s : State) (src : Nat) : (s.pulse src).freeCtr = s.freeCtr := rfl
@[simp] theorem State.pulse_ecc (s : State) (src : Nat) : (s.pulse src).ecc = s.ecc := rfl
@[simp] theorem State.pulse_mast (s : State) (src : Nat) : (s.pulse src).mast = s.mast := rfl
@[simp] theorem State.pulse_cel (s : State) (src : Nat) : (s.pulse src).cel = s.cel := rfl
@[simp] theorem State.pulse_attic (s : State) (src : Nat) : (s.pulse src).attic = s.attic := rfl
@[simp] theorem State.pulse_cup (s : State) (src : Nat) : (s.pulse src).cup = s.cup := rfl
@[simp] theorem State.pulse_dwy (s : State) (src : Nat) : (s.pulse src).dwy = s.dwy := rfl
@[simp] theorem State.pulse_lft (s : State) (src : Nat) : (s.pulse src).lft = s.lft := rfl
@[simp] theorem State.pulse_pipe (s : State) (src : Nat) : (s.pulse src).pipe = s.pipe := rfl
@[simp] theorem State.pulse_hlw (s : State) (src : Nat) : (s.pulse src).hlw = s.hlw := rfl
@[simp] theorem State.pulse_gal (s : State) (src : Nat) : (s.pulse src).gal = s.gal := rfl
@[simp] theorem State.pulse_lrd (s : State) (src : Nat) : (s.pulse src).lrd = s.lrd := rfl
@[simp] theorem State.pulse_stw (s : State) (src : Nat) : (s.pulse src).stw = s.stw := rfl
@[simp] theorem State.pulse_sht (s : State) (src : Nat) : (s.pulse src).sht = s.sht := rfl
@[simp] theorem State.pulse_crw (s : State) (src : Nat) : (s.pulse src).crw = s.crw := rfl
@[simp] theorem State.pulse_outbox (s : State) (src : Nat) : (s.pulse src).outbox = s.outbox := rfl
@[simp] theorem State.pulse_pending (s : State) (src : Nat) : (s.pulse src).pending = s.pending := rfl

@[simp] theorem State.emit_regs (s : State) (e : Emission) : (s.emit e).regs = s.regs := rfl
@[simp] theorem State.emit_held (s : State) (e : Emission) : (s.emit e).held = s.held := rfl
@[simp] theorem State.emit_latch (s : State) (e : Emission) : (s.emit e).latch = s.latch := rfl
@[simp] theorem State.emit_rdata (s : State) (e : Emission) : (s.emit e).rdata = s.rdata := rfl
@[simp] theorem State.emit_time (s : State) (e : Emission) : (s.emit e).time = s.time := rfl
@[simp] theorem State.emit_cycles (s : State) (e : Emission) : (s.emit e).cycles = s.cycles := rfl
@[simp] theorem State.emit_freeCtr (s : State) (e : Emission) : (s.emit e).freeCtr = s.freeCtr := rfl
@[simp] theorem State.emit_ecc (s : State) (e : Emission) : (s.emit e).ecc = s.ecc := rfl
@[simp] theorem State.emit_mast (s : State) (e : Emission) : (s.emit e).mast = s.mast := rfl
@[simp] theorem State.emit_bell (s : State) (e : Emission) : (s.emit e).bell = s.bell := rfl
@[simp] theorem State.emit_cel (s : State) (e : Emission) : (s.emit e).cel = s.cel := rfl
@[simp] theorem State.emit_attic (s : State) (e : Emission) : (s.emit e).attic = s.attic := rfl
@[simp] theorem State.emit_cup (s : State) (e : Emission) : (s.emit e).cup = s.cup := rfl
@[simp] theorem State.emit_dwy (s : State) (e : Emission) : (s.emit e).dwy = s.dwy := rfl
@[simp] theorem State.emit_lft (s : State) (e : Emission) : (s.emit e).lft = s.lft := rfl
@[simp] theorem State.emit_pipe (s : State) (e : Emission) : (s.emit e).pipe = s.pipe := rfl
@[simp] theorem State.emit_hlw (s : State) (e : Emission) : (s.emit e).hlw = s.hlw := rfl
@[simp] theorem State.emit_gal (s : State) (e : Emission) : (s.emit e).gal = s.gal := rfl
@[simp] theorem State.emit_lrd (s : State) (e : Emission) : (s.emit e).lrd = s.lrd := rfl
@[simp] theorem State.emit_stw (s : State) (e : Emission) : (s.emit e).stw = s.stw := rfl
@[simp] theorem State.emit_sht (s : State) (e : Emission) : (s.emit e).sht = s.sht := rfl
@[simp] theorem State.emit_crw (s : State) (e : Emission) : (s.emit e).crw = s.crw := rfl
@[simp] theorem State.emit_pending (s : State) (e : Emission) : (s.emit e).pending = s.pending := rfl

@[simp] theorem State.answer_regs (s : State) (v : Nat) : (s.answer v).regs = s.regs := rfl
@[simp] theorem State.answer_held (s : State) (v : Nat) : (s.answer v).held = s.held := rfl
@[simp] theorem State.answer_latch (s : State) (v : Nat) : (s.answer v).latch = s.latch := rfl
@[simp] theorem State.answer_time (s : State) (v : Nat) : (s.answer v).time = s.time := rfl
@[simp] theorem State.answer_cycles (s : State) (v : Nat) : (s.answer v).cycles = s.cycles := rfl
@[simp] theorem State.answer_freeCtr (s : State) (v : Nat) : (s.answer v).freeCtr = s.freeCtr := rfl
@[simp] theorem State.answer_ecc (s : State) (v : Nat) : (s.answer v).ecc = s.ecc := rfl
@[simp] theorem State.answer_mast (s : State) (v : Nat) : (s.answer v).mast = s.mast := rfl
@[simp] theorem State.answer_bell (s : State) (v : Nat) : (s.answer v).bell = s.bell := rfl
@[simp] theorem State.answer_cel (s : State) (v : Nat) : (s.answer v).cel = s.cel := rfl
@[simp] theorem State.answer_attic (s : State) (v : Nat) : (s.answer v).attic = s.attic := rfl
@[simp] theorem State.answer_cup (s : State) (v : Nat) : (s.answer v).cup = s.cup := rfl
@[simp] theorem State.answer_dwy (s : State) (v : Nat) : (s.answer v).dwy = s.dwy := rfl
@[simp] theorem State.answer_lft (s : State) (v : Nat) : (s.answer v).lft = s.lft := rfl
@[simp] theorem State.answer_pipe (s : State) (v : Nat) : (s.answer v).pipe = s.pipe := rfl
@[simp] theorem State.answer_hlw (s : State) (v : Nat) : (s.answer v).hlw = s.hlw := rfl
@[simp] theorem State.answer_gal (s : State) (v : Nat) : (s.answer v).gal = s.gal := rfl
@[simp] theorem State.answer_lrd (s : State) (v : Nat) : (s.answer v).lrd = s.lrd := rfl
@[simp] theorem State.answer_stw (s : State) (v : Nat) : (s.answer v).stw = s.stw := rfl
@[simp] theorem State.answer_sht (s : State) (v : Nat) : (s.answer v).sht = s.sht := rfl
@[simp] theorem State.answer_crw (s : State) (v : Nat) : (s.answer v).crw = s.crw := rfl
@[simp] theorem State.answer_outbox (s : State) (v : Nat) : (s.answer v).outbox = s.outbox := rfl
@[simp] theorem State.answer_pending (s : State) (v : Nat) : (s.answer v).pending = s.pending := rfl

/-! ## Registers -/

theorem State.rd_congr {s t : State} (h : t.regs = s.regs) (a : Nat) : t.rd a = s.rd a := by
  unfold State.rd
  rw [h]

theorem State.rd_wr (s : State) (a : Nat) (v : Word) (b : Nat) : (s.wr a v).rd b = if b = a then v else s.rd b := by
  unfold State.rd State.wr
  dsimp only
  split
  · subst b
    exact tget_tset_same _ _ _ _
  · rename_i h
    rw [tget_tset_ne _ _ _ _ _ _ h]

@[simp] theorem State.rd_wr_same (s : State) (a : Nat) (v : Word) : (s.wr a v).rd a = v := by simp [State.rd_wr]

theorem State.rd_wr_ne (s : State) {a b : Nat} (v : Word) (h : b ≠ a) : (s.wr a v).rd b = s.rd b := by
  simp [State.rd_wr, h]

@[simp] theorem State.rd_pulse (s : State) (k a : Nat) : (s.pulse k).rd a = s.rd a := rfl
@[simp] theorem State.rd_emit (s : State) (e : Emission) (a : Nat) : (s.emit e).rd a = s.rd a := rfl
@[simp] theorem State.rd_answer (s : State) (v a : Nat) : (s.answer v).rd a = s.rd a := rfl

/-! ## Bit fields -/

theorem getLsbD_setFld (w : Word) (hi lo v i : Nat) (_h : lo ≤ hi) (_hh : hi < 32) (hi' : i < 32) :
    (setFld w hi lo v).getLsbD i = if lo ≤ i ∧ i ≤ hi then v.testBit (i - lo) else w.getLsbD i := by
  have e : ∀ k, ((2 ^ (hi + 1 - lo) - 1) * 2 ^ lo).testBit k = decide (lo ≤ k ∧ k ≤ hi) := by
    intro k
    rw [Nat.testBit_mul_two_pow, Nat.testBit_two_pow_sub_one]
    by_cases a : lo ≤ k
    · by_cases b : k ≤ hi
      · have : k - lo < hi + 1 - lo := by omega
        simp [a, b, this]
      · have : ¬ k - lo < hi + 1 - lo := by omega
        simp [a, b, this]
    · simp [a]
  unfold setFld
  simp only [BitVec.getLsbD_or, BitVec.getLsbD_and, BitVec.getLsbD_not, BitVec.getLsbD_ofNat, e, Nat.testBit_mul_two_pow,
    hi', decide_true, Bool.true_and]
  by_cases a : lo ≤ i ∧ i ≤ hi
  · simp [a]
  · simp [a]

theorem testBit_bits (v hi lo i : Nat) : (bits v hi lo).testBit i = (decide (i < hi + 1 - lo) && v.testBit (lo + i)) := by
  unfold bits
  rw [Nat.testBit_mod_two_pow, Nat.testBit_div_two_pow, Nat.add_comm i lo]

theorem testBit_putBits (v hi lo x i : Nat) (h : lo ≤ hi) :
    (putBits v hi lo x).testBit i = if lo ≤ i ∧ i ≤ hi then x.testBit (i - lo) else v.testBit i := by
  have e : putBits v hi lo x = 2 ^ lo * (2 ^ (hi + 1 - lo) * (v / 2 ^ lo / 2 ^ (hi + 1 - lo)) + x % 2 ^ (hi + 1 - lo)) + v % 2 ^ lo := by
    unfold putBits bits
    have a := Nat.div_add_mod v (2 ^ lo)
    have b := Nat.div_add_mod (v / 2 ^ lo) (2 ^ (hi + 1 - lo))
    have c : 2 ^ lo * (v / 2 ^ lo) = 2 ^ lo * (2 ^ (hi + 1 - lo) * (v / 2 ^ lo / 2 ^ (hi + 1 - lo))) +
        v / 2 ^ lo % 2 ^ (hi + 1 - lo) * 2 ^ lo := by
      rw [Nat.mul_comm (v / 2 ^ lo % _), ← Nat.mul_add, b]
    rw [Nat.mul_add, Nat.mul_comm (2 ^ lo) (x % _)]
    omega
  rw [e, Nat.testBit_two_pow_mul_add _ (Nat.mod_lt _ (Nat.two_pow_pos _)),
    Nat.testBit_two_pow_mul_add _ (Nat.mod_lt _ (Nat.two_pow_pos _)), Nat.testBit_mod_two_pow, Nat.testBit_mod_two_pow,
    Nat.testBit_div_two_pow, Nat.testBit_div_two_pow]
  by_cases a : i < lo
  · have : ¬ (lo ≤ i ∧ i ≤ hi) := by omega
    simp [a, this]
  · by_cases b : i - lo < hi + 1 - lo
    · have : lo ≤ i ∧ i ≤ hi := by omega
      simp [a, b, this]
    · have c : ¬ (lo ≤ i ∧ i ≤ hi) := by omega
      have d : i - lo - (hi + 1 - lo) + (hi + 1 - lo) + lo = i := by omega
      simp [a, b, c, d]

theorem testBit_fld (w : Word) (hi lo i : Nat) : (fld w hi lo).testBit i = (decide (i < hi + 1 - lo) && w.getLsbD (lo + i)) :=
  testBit_bits _ _ _ _

theorem fld_setFld_same (w : Word) (hi lo v : Nat) (h : lo ≤ hi) (hh : hi < 32) :
    fld (setFld w hi lo v) hi lo = v % 2 ^ (hi + 1 - lo) := by
  refine Nat.eq_of_testBit_eq fun i => ?_
  rw [testBit_fld, Nat.testBit_mod_two_pow]
  by_cases a : i < hi + 1 - lo
  · rw [getLsbD_setFld _ _ _ _ _ h hh (by omega)]
    have : lo ≤ lo + i ∧ lo + i ≤ hi := by omega
    simp [a, this]
  · simp [a]

theorem fld_setFld_ne (w : Word) (hi lo v hi' lo' : Nat) (h : lo ≤ hi) (hh : hi < 32) (hh' : hi' < 32)
    (d : hi' < lo ∨ hi < lo') : fld (setFld w hi lo v) hi' lo' = fld w hi' lo' := by
  refine Nat.eq_of_testBit_eq fun i => ?_
  rw [testBit_fld, testBit_fld]
  by_cases a : i < hi' + 1 - lo'
  · rw [getLsbD_setFld _ _ _ _ _ h hh (by omega)]
    have : ¬ (lo ≤ lo' + i ∧ lo' + i ≤ hi) := by omega
    simp [this]
  · simp [a]

/-! ## Fields of registers -/

theorem State.rf_wf (s : State) (a hi lo v : Nat) (h : lo ≤ hi) (hh : hi < 32) :
    (s.wf a hi lo v).rf a hi lo = v % 2 ^ (hi + 1 - lo) := by
  unfold State.rf State.wf
  rw [State.rd_wr_same]
  exact fld_setFld_same _ _ _ _ h hh

theorem State.rf_wf_ne (s : State) (a hi lo v hi' lo' : Nat) (h : lo ≤ hi) (hh : hi < 32) (hh' : hi' < 32)
    (d : hi' < lo ∨ hi < lo') : (s.wf a hi lo v).rf a hi' lo' = s.rf a hi' lo' := by
  unfold State.rf State.wf
  rw [State.rd_wr_same]
  exact fld_setFld_ne _ _ _ _ _ _ h hh hh' d

theorem State.rd_wf_ne (s : State) {a b : Nat} (hi lo v : Nat) (h : b ≠ a) : (s.wf a hi lo v).rd b = s.rd b :=
  s.rd_wr_ne _ h

theorem State.rd_wrN_ne (s : State) {a b : Nat} (v : Nat) (h : b ≠ a) : (s.wrN a v).rd b = s.rd b := s.rd_wr_ne _ h

@[simp] theorem State.rd_wrN (s : State) (a v : Nat) : (s.wrN a v).rd a = BitVec.ofNat 32 v := s.rd_wr_same _ _

theorem State.rb_wf (s : State) (a hi lo v i : Nat) (h : lo ≤ hi) (hh : hi < 32) (hi' : i < 32) :
    (s.wf a hi lo v).rb a i = if lo ≤ i ∧ i ≤ hi then v.testBit (i - lo) else s.rb a i := by
  unfold State.rb State.wf
  rw [State.rd_wr_same]
  exact getLsbD_setFld _ _ _ _ _ h hh hi'

theorem State.rb_setB (s : State) (a i : Nat) (h : i < 32) : (s.setB a i).rb a i = true := by
  unfold State.setB
  rw [State.rb_wf _ _ _ _ _ _ (Nat.le_refl _) h h]
  simp

theorem State.rb_setB_ne (s : State) (a i j : Nat) (h : i < 32) (hj : j < 32) (d : j ≠ i) :
    (s.setB a i).rb a j = s.rb a j := by
  unfold State.setB
  rw [State.rb_wf _ _ _ _ _ _ (Nat.le_refl _) h hj]
  have : ¬ (i ≤ j ∧ j ≤ i) := by omega
  simp [this]

theorem State.rb_putB (s : State) (a i : Nat) (b : Bool) (h : i < 32) : (s.putB a i b).rb a i = b := by
  unfold State.putB
  rw [State.rb_wf _ _ _ _ _ _ (Nat.le_refl _) h h]
  cases b <;> simp [nat]

theorem State.rb_putB_ne (s : State) (a i j : Nat) (b : Bool) (h : i < 32) (hj : j < 32) (d : j ≠ i) :
    (s.putB a i b).rb a j = s.rb a j := by
  unfold State.putB
  rw [State.rb_wf _ _ _ _ _ _ (Nat.le_refl _) h hj]
  have : ¬ (i ≤ j ∧ j ≤ i) := by omega
  simp [this]

theorem State.rd_setB_ne (s : State) {a b : Nat} (i : Nat) (h : b ≠ a) : (s.setB a i).rd b = s.rd b := s.rd_wr_ne _ h
theorem State.rd_putB_ne (s : State) {a b : Nat} (i : Nat) (x : Bool) (h : b ≠ a) : (s.putB a i x).rd b = s.rd b :=
  s.rd_wr_ne _ h
theorem State.rf_wr_ne (s : State) {a b : Nat} (v : Word) (hi lo : Nat) (h : b ≠ a) : (s.wr a v).rf b hi lo = s.rf b hi lo := by
  unfold State.rf
  rw [State.rd_wr_ne _ _ h]
theorem State.rb_wr_ne (s : State) {a b : Nat} (v : Word) (i : Nat) (h : b ≠ a) : (s.wr a v).rb b i = s.rb b i := by
  unfold State.rb
  rw [State.rd_wr_ne _ _ h]

/-! ## Counters -/

/-- The address is no WRAP register of the counters. -/
def offWrap (a : Nat) : Bool := decide (a < cntWrap 0 ∨ cntWrap 32768 ≤ a)

theorem State.rd_countBy (s : State) (e o i n : Nat) {a : Nat} (h : offWrap a = true) :
    (s.countBy e o i n).rd a = s.rd a := by
  have w : ∀ (t : State) p, p < 2 ^ 20 → (t.setWrap p).rd a = t.rd a := by
    intro t p hp
    refine t.rd_setB_ne _ fun e => ?_
    unfold offWrap at h
    rw [decide_eq_true_iff] at h
    unfold cntWrap at *
    omega
  have hp : pairOf (ctrKey e o i) < 2 ^ 20 := by
    unfold pairOf
    exact Nat.mod_lt _ (by decide)
  unfold State.countBy
  dsimp only
  repeat' split
  all_goals first | rfl | exact w _ _ hp

theorem State.rd_count (s : State) (e o i : Nat) {a : Nat} (h : offWrap a = true) : (s.count e o i).rd a = s.rd a :=
  s.rd_countBy e o i 1 h

theorem State.rd_report (s : State) (src inst : Nat) (info : Word) {a : Nat} (h : offWrap a = true) :
    (s.report src inst info).rd a = s.rd a := by
  unfold State.report
  dsimp only
  split
  · exact State.rd_count _ _ _ _ h
  · rfl

end Sys2Proof.Machine
end

