-- ==== Sys2Proof/Laws/Lofts.lean ====
section
/-! SUPPORT. The lofts: instruction words, what setThr changes, an issue slot whose word is good, and the instructions that
end at once. -/

namespace Sys2Proof.Machine

/-! ## Threads -/

theorem State.thr_of_lft {s t : State} (h : t.lft = s.lft) (k : Nat) : t.thr k = s.thr k := by
  unfold State.thr
  rw [h]

theorem State.eng_of_lft {s t : State} (h : t.lft = s.lft) (e : Nat) : t.eng e = s.eng e := by
  unfold State.eng
  rw [h]

theorem State.lft_gateLoft (s : State) (l : Nat) : (s.gateLoft l).lft = s.lft := by
  unfold State.gateLoft
  split <;> rfl

/-- What setThr does to the lofts: the thread is the one given; an engine may lose its dlFired. -/
theorem State.setThr_lft (s : State) (t : Nat) (th : Thread) :
    ∃ g, (s.setThr t th).lft = { s.lft with threads := tput s.lft.threads t th, engines := g } ∧
      ∀ e, (tget Engine.init g e).flags = (s.eng e).flags := by
  unfold State.setThr
  dsimp only
  split
  · exact ⟨_, rfl, fun _ => rfl⟩
  · split
    · split
      · refine ⟨_, rfl, fun e => ?_⟩
        by_cases h : e = t / 8
        · subst h
          rw [tget_tput_same]
          rfl
        · rw [tget_tput_ne _ _ _ _ _ h]
          rfl
      · exact ⟨_, rfl, fun _ => rfl⟩
    · split
      · refine ⟨_, State.lft_gateLoft _ _, fun e => ?_⟩
        by_cases h : e = t / 8
        · subst h
          rw [tget_tput_same]
          rfl
        · rw [tget_tput_ne _ _ _ _ _ h]
          rfl
      · exact ⟨_, State.lft_gateLoft _ _, fun _ => rfl⟩

@[simp] theorem State.thr_setThr (s : State) (t : Nat) (th : Thread) : (s.setThr t th).thr t = th := by
  obtain ⟨g, e, _⟩ := s.setThr_lft t th
  unfold State.thr
  rw [e]
  exact tget_tput_same _ _ _ _

theorem State.thr_setThr_ne (s : State) {t k : Nat} (th : Thread) (h : k ≠ t) : (s.setThr t th).thr k = s.thr k := by
  obtain ⟨g, e, _⟩ := s.setThr_lft t th
  unfold State.thr
  rw [e]
  exact tget_tput_ne _ _ _ _ _ h

@[simp] theorem State.flags_setThr (s : State) (t : Nat) (th : Thread) (e : Nat) :
    ((s.setThr t th).eng e).flags = (s.eng e).flags := by
  obtain ⟨g, h, k⟩ := s.setThr_lft t th
  unfold State.eng
  rw [h]
  exact k e

/-- A thread whose state is not 1 may gate its loft; one that is RUNNABLE changes LFT_ENG_STATUS alone. -/
theorem State.rd_setThr (s : State) (t : Nat) (th : Thread) (h : th.state = 1) {a : Nat}
    (ha : a ≠ lftEngStatus (t / 8)) : (s.setThr t th).rd a = s.rd a := by
  unfold State.setThr
  dsimp only
  split
  · rfl
  · repeat' split
    all_goals first
      | exact (State.rd_putB_ne _ _ _ ha).trans (State.rd_putB_ne _ _ _ ha)
      | exact absurd h ‹_›

theorem onlyThread.refl (s : State) (t : Nat) : onlyThread s s t :=
  ⟨fun _ _ => rfl, fun _ => rfl, rfl, rfl, rfl, rfl, rfl, fun _ _ _ _ => rfl, onlyIn.refl _ _⟩

theorem onlyIn.trans {l : List Part} {s t u : State} (h : onlyIn l s t) (k : onlyIn l t u) : onlyIn l s u :=
  fun p hp => p.same_trans (h p hp) (k p hp)

theorem onlyThread.trans {s t u : State} {k : Nat} (h : onlyThread s t k) (g : onlyThread t u k) : onlyThread s u k := by
  obtain ⟨h1, h2, h3, h4, h5, h6, h7, h8, h9⟩ := h
  obtain ⟨g1, g2, g3, g4, g5, g6, g7, g8, g9⟩ := g
  exact ⟨fun i hi => (g1 i hi).trans (h1 i hi), fun e => (g2 e).trans (h2 e), g3.trans h3, g4.trans h4, g5.trans h5,
    g6.trans h6, g7.trans h7, fun a x y z => (g8 a x y z).trans (h8 a x y z), h9.trans g9⟩

theorem onlyThread.setThr (s : State) (t : Nat) (th : Thread) (h : th.state = 1) : onlyThread s (s.setThr t th) t := by
  obtain ⟨g, e, _⟩ := s.setThr_lft t th
  refine ⟨fun k hk => s.thr_setThr_ne th hk, fun e => s.flags_setThr t th e, ?_, ?_, ?_, ?_, ?_,
    fun a ha _ _ => s.rd_setThr t th h ha, ((State.setThr_keeps s t th).mono rfl).same⟩
  all_goals rw [e]

/-! ## An issue slot -/

theorem bits_lt (v hi lo : Nat) : bits v hi lo < 2 ^ (hi + 1 - lo) := Nat.mod_lt _ (Nat.two_pow_pos _)

theorem lftEncode_toNat (op : Nat) (h : op < 256) (f : LFields) : (lftEncode op f).toNat =
    op * 2 ^ 56 + f.d.toNat * 2 ^ 51 + f.a.toNat * 2 ^ 46 + f.b.toNat * 2 ^ 41 + f.imm.toNat := by
  unfold lftEncode
  rw [BitVec.toNat_ofNat]
  refine Nat.mod_eq_of_lt ?_
  have := f.d.isLt
  have := f.a.isLt
  have := f.b.isLt
  have := f.imm.isLt
  omega

theorem lftEncode_op (op : Nat) (h : op < 256) (f : LFields) : bits (lftEncode op f).toNat 63 56 = op := by
  rw [lftEncode_toNat op h]
  have := f.d.isLt
  have := f.a.isLt
  have := f.b.isLt
  have := f.imm.isLt
  unfold bits
  omega

theorem State.thr_count (s : State) (e o i t : Nat) : (s.count e o i).thr t = s.thr t :=
  State.thr_of_lft ((State.count_keeps s e o i).same .lft (by decide)) t

theorem onlyThread.count (s : State) (e o i t : Nat) : onlyThread s (s.count e o i) t := by
  have k := (State.count_keeps s e o i)
  have hl := k.same .lft (by decide)
  simp only [Part.same] at hl
  refine ⟨fun _ _ => State.thr_of_lft hl _, fun _ => by rw [State.eng_of_lft hl], ?_, ?_, ?_, ?_, ?_,
    fun a _ _ h => s.rd_count e o i ?_, (k.mono rfl).same⟩
  · rw [hl]
  · rw [hl]
  · rw [hl]
  · rw [hl]
  · rw [hl]
  · unfold offWrap
    exact decide_eq_true h

theorem onlyThread.lftCheck (s : State) (m : EccMem) (i t : Nat) (h : s.eccOf m i ≠ .uncorr) :
    onlyThread s (s.lftCheck m i).1 t ∧ (s.lftCheck m i).1.lft = s.lft ∧ (s.lftCheck m i).2 = true := by
  have k := State.lftCheck_keeps s m i
  have hl : (s.lftCheck m i).1.lft = s.lft := k.same .lft (by decide)
  refine ⟨⟨fun _ _ => State.thr_of_lft hl _, fun _ => by rw [State.eng_of_lft hl], ?_, ?_, ?_, ?_, ?_, ?_, (k.mono rfl).same⟩,
    hl, ?_⟩
  · rw [hl]
  · rw [hl]
  · rw [hl]
  · rw [hl]
  · rw [hl]
  · intro a _ ha hw
    have w : offWrap a = true := by
      unfold offWrap
      exact decide_eq_true hw
    unfold State.lftCheck
    dsimp only
    split
    · rfl
    · rw [State.rd_count _ _ _ _ w, State.rd_report _ _ _ _ w, State.rd_setB_ne _ _ ha]
      rfl
    · rename_i e
      exact absurd e h
  · unfold State.lftCheck
    dsimp only
    split
    · rfl
    · rfl
    · rename_i e
      exact absurd e h

/-- The thread after the fetch, and what else the fetch may have changed. -/
theorem State.fetched_spec (s : State) (t op : Nat) (f : LFields) (h : s.issues t op f) :
    (s.fetched t).thr t = { s.thr t with tail := false } ∧ onlyThread s (s.fetched t) t := by
  obtain ⟨hm, _, _, hq⟩ := h
  have hst : (s.thr t).state = 1 := by
    unfold State.mayIssue at hm
    rw [Bool.and_eq_true] at hm
    simpa using hm.1
  unfold State.fetched
  dsimp only
  by_cases ha : t = atcThread
  · rw [if_pos ha, if_pos ha]
    exact ⟨by simp, onlyThread.setThr _ _ _ hst⟩
  · rw [if_neg ha] at hq
    rw [if_neg ha, if_neg ha]
    obtain ⟨k1, hl, _⟩ := onlyThread.lftCheck s _ _ t hq
    have e : ((s.lftCheck .lftIs (t / 64 * 32768 + (s.thr t).pc)).1.count evLftIssue (t / 8) 0).thr t = s.thr t :=
      (State.thr_count _ _ _ _ _).trans (State.thr_of_lft hl t)
    rw [e]
    exact ⟨by simp, (k1.trans (onlyThread.count _ _ _ _ _)).trans (onlyThread.setThr _ _ _ hst)⟩

theorem State.wordAt_fetched (s : State) (t op : Nat) (f : LFields) (h : s.issues t op f) :
    (s.fetched t).wordAt t = s.wordAt t := by
  obtain ⟨h1, h2⟩ := s.fetched_spec t op f h
  have hi : (s.fetched t).lft.istore = s.lft.istore := h2.2.2.2.2.1
  have ha : (s.fetched t).attic = s.attic := h2.2.2.2.2.2.2.2.2 .attic (by decide)
  unfold State.wordAt
  rw [h1, hi, ha]

/-- An issue slot whose instruction issues is the instruction's effect on the state after the fetch. -/
theorem State.lofts_issues (s : State) (t op : Nat) (f : LFields) (h : s.issues t op f) (hop : op < 256)
    (hd : opDefined op = true) : s.lofts t op f = lftBody busPort op (s.fetched t) t f := by
  have hw := s.wordAt_fetched t op f h
  obtain ⟨hm, he, hf, hq⟩ := h
  have ho : bits (s.wordAt t).toNat 63 56 = op := by rw [he]; exact lftEncode_op op hop f
  have hpc : ¬ (t = atcThread ∧ 16384 ≤ (s.thr t).pc) := by
    rintro ⟨a, b⟩
    rw [if_pos a] at hq
    omega
  have hwi : s.wordIs t op f = true := by
    unfold State.wordIs
    dsimp only
    rw [if_neg hpc, ho, if_pos hd, he]
    simp
  unfold State.lofts State.issue
  rw [hm, hwi]
  simp only [Bool.and_self, if_true]
  unfold State.issueWord
  dsimp only
  rw [if_neg hpc]
  have hq2 : (if t = atcThread then (s, true) else s.lftCheck .lftIs (t / 64 * 32768 + (s.thr t).pc)).2 = true := by
    by_cases ha : t = atcThread
    · rw [if_pos ha]
    · rw [if_neg ha] at hq ⊢
      exact (onlyThread.lftCheck s _ _ t hq).2.2
  rw [hq2]
  simp only [Bool.not_true, if_neg Bool.false_ne_true]
  have hr : (t == atcThread && !atcRuns op f) = false := by
    by_cases ha : t = atcThread
    · rw [if_pos ha] at hq
      rw [hq.2]
      simp
    · simp [ha]
  have e : ∀ u, (!opDefined (bits (u : Word64).toNat 63 56) || !fieldsOk op f || (t == atcThread && !atcRuns op f)) =
      !opDefined (bits u.toNat 63 56) := by
    intro u
    rw [hf, hr]
    simp
  unfold State.fetched at hw
  dsimp only at hw
  rw [e, hw, ho, hd]
  simp only [Bool.not_true, if_neg Bool.false_ne_true]
  rfl

/-! ## Instructions that end at once -/

theorem Thread.get_set (th : Thread) (d : Nat) (v : Word64) (i : Nat) :
    (th.set d v).get i = if i = d ∧ d ≠ 0 then v else th.get i := by
  unfold Thread.set Thread.get
  by_cases hd : d = 0
  · simp [hd]
  · rw [if_neg hd]
    by_cases hi : i = 0
    · subst hi
      have : ¬ (0 = d ∧ d ≠ 0) := fun h => hd h.1.symm
      simp [this]
    · rw [if_neg hi, if_neg hi]
      by_cases e : i = d
      · subst e
        simp [hd]
      · simp [e, tget_tset_ne _ _ _ _ _ _ e]

theorem Thread.set_eq (th : Thread) (d : Nat) (v : Word64) : ∃ x, th.set d v = { th with x := x } := by
  unfold Thread.set
  split
  · exact ⟨th.x, rfl⟩
  · exact ⟨_, rfl⟩

theorem Thread.get_pc (th : Thread) (p i : Nat) : ({ th with pc := p } : Thread).get i = th.get i := rfl

theorem State.state_fetched (s : State) (t op : Nat) (f : LFields) (h : s.issues t op f) :
    ((s.fetched t).thr t).state = 1 := by
  have hst : (s.thr t).state = 1 := by
    have hm := h.1
    unfold State.mayIssue at hm
    rw [Bool.and_eq_true] at hm
    simpa using hm.1
  rw [(s.fetched_spec t op f h).1]
  exact hst

theorem State.goOn_eq (s : State) (t : Nat) : s.goOn t = s.goTo t ((s.thr t).pc + 1) := rfl

/-- A thread that takes a value into xd and goes to instruction `p`, from a state `v` that the fetch and a good read of
memory leave. -/
theorem retires_from {s v : State} {t : Nat} (h1 : v.thr t = { s.thr t with tail := false }) (h2 : onlyThread s v t)
    (hst : (s.thr t).state = 1) (d : Nat) (x : Word64) (p : Nat) :
    retires s ((v.setThr t ((v.thr t).set d x)).goTo t p) t d x (p % 32768) := by
  obtain ⟨y, hy⟩ := Thread.set_eq (v.thr t) d x
  have hst1 : (v.thr t).state = 1 := by
    rw [h1]
    exact hst
  have hst2 : ((v.thr t).set d x).state = 1 := by
    rw [hy]
    exact hst1
  unfold State.goTo
  rw [State.thr_setThr]
  refine ⟨⟨y, ?_⟩, fun i => ?_, ?_⟩
  · rw [State.thr_setThr, hy, h1]
  · rw [State.thr_setThr]
    refine (Thread.get_pc _ _ _).trans ?_
    rw [Thread.get_set, h1]
    rfl
  · exact (h2.trans (onlyThread.setThr _ _ _ hst2)).trans (onlyThread.setThr _ _ _ hst2)

theorem retires_result_from {s v : State} {t : Nat} (h1 : v.thr t = { s.thr t with tail := false })
    (h2 : onlyThread s v t) (hst : (s.thr t).state = 1) (f : LFields) (x : Word64) :
    retires s (v.result t f x) t f.d.toNat x (s.nextPc t) := by
  have k := retires_from h1 h2 hst f.d.toNat x ((s.thr t).pc + 1)
  unfold State.result
  rw [State.goOn_eq, State.thr_setThr]
  obtain ⟨y, hy⟩ := Thread.set_eq (v.thr t) f.d.toNat x
  have e : ((v.thr t).set f.d.toNat x).pc = (s.thr t).pc := by
    rw [hy, h1]
  rw [e]
  exact k

theorem State.issues_state (s : State) (t op : Nat) (f : LFields) (h : s.issues t op f) : (s.thr t).state = 1 := by
  have hm := h.1
  unfold State.mayIssue at hm
  rw [Bool.and_eq_true] at hm
  simpa using hm.1

theorem retires_goTo (s : State) (t op : Nat) (f : LFields) (h : s.issues t op f) (d : Nat) (v : Word64) (p : Nat) :
    retires s (((s.fetched t).setThr t (((s.fetched t).thr t).set d v)).goTo t p) t d v (p % 32768) :=
  retires_from (s.fetched_spec t op f h).1 (s.fetched_spec t op f h).2 (s.issues_state t op f h) d v p

theorem retires_result (s : State) (t op : Nat) (f : LFields) (h : s.issues t op f) (v : Word64) :
    retires s ((s.fetched t).result t f v) t f.d.toNat v (s.nextPc t) :=
  retires_result_from (s.fetched_spec t op f h).1 (s.fetched_spec t op f h).2 (s.issues_state t op f h) f v

/-- A thread that writes no register and goes to instruction `p`. -/
theorem retires_jump (s : State) (t op : Nat) (f : LFields) (h : s.issues t op f) (p : Nat) :
    retires s ((s.fetched t).goTo t p) t 0 0 (p % 32768) := by
  obtain ⟨h1, h2⟩ := s.fetched_spec t op f h
  have hst := s.state_fetched t op f h
  unfold State.goTo
  refine ⟨⟨(s.thr t).x, ?_⟩, fun i => ?_, ?_⟩
  · rw [State.thr_setThr, h1]
  · rw [State.thr_setThr, h1]
    simp [Thread.get]
  · exact h2.trans (onlyThread.setThr _ _ _ hst)

theorem State.xa_fetched (s : State) (t op : Nat) (f : LFields) (h : s.issues t op f) : (s.fetched t).xa t f = s.xa t f := by
  unfold State.xa
  rw [(s.fetched_spec t op f h).1]
  rfl

theorem State.xb_fetched (s : State) (t op : Nat) (f : LFields) (h : s.issues t op f) : (s.fetched t).xb t f = s.xb t f := by
  unfold State.xb
  rw [(s.fetched_spec t op f h).1]
  rfl

theorem State.xd_fetched (s : State) (t op : Nat) (f : LFields) (h : s.issues t op f) : (s.fetched t).xd t f = s.xd t f := by
  unfold State.xd
  rw [(s.fetched_spec t op f h).1]
  rfl

theorem State.pc_fetched (s : State) (t op : Nat) (f : LFields) (h : s.issues t op f) :
    ((s.fetched t).thr t).pc = (s.thr t).pc := by
  rw [(s.fetched_spec t op f h).1]

theorem State.attic_fetched (s : State) (t op : Nat) (f : LFields) (h : s.issues t op f) : (s.fetched t).attic = s.attic :=
  (s.fetched_spec t op f h).2.2.2.2.2.2.2.2.2 .attic (by decide)

/-! ## Memory -/

theorem State.ticket_fetched (s : State) (t op : Nat) (f : LFields) (h : s.issues t op f) (k : Nat) :
    ((s.fetched t).thr k).ticket = (s.thr k).ticket := by
  obtain ⟨h1, h2⟩ := s.fetched_spec t op f h
  by_cases e : k = t
  · subst e
    rw [h1]
  · rw [h2.1 k e]

theorem State.rd_fetched (s : State) (t op : Nat) (f : LFields) (h : s.issues t op f) {a : Nat}
    (h1 : a ≠ lftEngStatus (t / 8)) (h2 : a ≠ lftErr) (h3 : noWrap a) : (s.fetched t).rd a = s.rd a :=
  (s.fetched_spec t op f h).2.2.2.2.2.2.2.2.1 a h1 h2 h3

/-- The fetch does not move what a thread may reach. -/
theorem State.lftRef_fetched (s : State) (t op : Nat) (f : LFields) (h : s.issues t op f) (a n : Nat) (rd wr : Bool) :
    (s.fetched t).lftRef t a n rd wr = s.lftRef t a n rd wr := by
  have l : ∀ e b, (s.fetched t).locRef e b = s.locRef e b := by
    intro e b
    unfold State.locRef
    dsimp only
    rw [s.ticket_fetched t op f h]
  have p : t ≠ atcThread → ∀ k i, k < 16 → (s.fetched t).rb (lftPagePerm (t / 64) k) i = s.rb (lftPagePerm (t / 64) k) i := by
    intro ht k i hk
    have hm := h.1
    unfold State.mayIssue at hm
    rw [if_neg ht] at hm
    simp only [Bool.and_eq_true, decide_eq_true_eq] at hm
    have := hm.2.1.1.1
    unfold State.rb
    rw [s.rd_fetched t op f h]
    · unfold lftPagePerm lftEngStatus
      omega
    · unfold lftPagePerm lftErr
      omega
    · unfold noWrap cntWrap lftPagePerm
      omega
  unfold State.lftRef
  dsimp only
  rw [l, l]
  split
  · rfl
  · rename_i ht
    split
    · rfl
    · split
      · rfl
      · split
        · rename_i hb
          rw [p ht _ _ (by omega), p ht _ _ (by omega)]
        · rfl

end Sys2Proof.Machine
end

