-- ==== Sys2Proof/WellFormed.lean ====
section
/-! DEFINITION. Which commands name something that the part has: the instance an event happens to lies in its range, and a
register address lies in BAR0 or a function page. A command outside is no event of the part, and the model says nothing
about one (DESIGN CHOICE, unsafe: log entry 3). -/

namespace Sys2Proof

/-- The operands of a command lie in the ranges that the spec gives their instances. -/
def Instr.wf (i : Instr) : Bool :=
  match i with
  | .registerWrite a0 _ => decide (a0 < 0x28000000)
  | .misalignedRegisterAccess fn0 _ a0 _ => decide (fn0 < 64 ∧ a0 < 0x28000000)
  | .reservedOffsetAccess _ a0 => decide (a0 < 0x28000000)
  | .pairLowerRead a0 => decide (a0 < 0x28000000)
  | .pairUpperWrite a0 _ => decide (a0 < 0x28000000)
  | .rcFieldRead a0 => decide (a0 < 0x28000000)
  | .setRegisterWrite a0 _ => decide (a0 < 0x28000000)
  | .clrRegisterWrite a0 _ => decide (a0 < 0x28000000)
  | .frameReceive n0 _ _ _ _ _ => decide (n0 < 512)
  | .sliceWake sl0 => decide (sl0 < 16)
  | .frameBegin n0 => decide (n0 < 512)
  | .frameEnd n0 => decide (n0 < 512)
  | .linkUp n0 => decide (n0 < 512)
  | .linkDown n0 => decide (n0 < 512)
  | .autoNegotiation n0 _ => decide (n0 < 512)
  | .linkTraining n0 => decide (n0 < 512)
  | .laneRateWrite o0 _ => decide (o0 < 64)
  | .portCfgWrite n0 _ => decide (n0 < 512)
  | .portMtuWrite n0 _ => decide (n0 < 512)
  | .pfcReceive n0 vec0 _ => decide (n0 < 512 ∧ vec0 < 256)
  | .pauseReceive n0 time0 => decide (n0 < 512 ∧ time0 < 65536)
  | .pauseTimerExpire n0 k0 => decide (n0 < 512 ∧ k0 < 16)
  | .pfcGenerate n0 => decide (n0 < 512)
  | .pfcRefresh n0 => decide (n0 < 512)
  | .tsTagRead n0 => decide (n0 < 512)
  | .helloReceive n0 _ => decide (n0 < 512)
  | .partnerHoldExpire n0 => decide (n0 < 512)
  | .partnerStatePost n0 => decide (n0 < 512)
  | .helloSend n0 => decide (n0 < 512)
  | .helloReply n0 => decide (n0 < 512)
  | .headAccept _ => true
  | .parseComplete _ _ => true
  | .ucWrite _ => true
  | .ucRead _ => true
  | .storeScrub sl0 a0 _ => decide (sl0 < 16 ∧ a0 < 8192)
  | .stageLookup _ _ => true
  | .remoteAnswerArrive _ k0 => decide (k0 < 24)
  | .parkRelease _ => true
  | .headSlotArbitrate sl0 => decide (sl0 < 16)
  | .reentryAgeLimit sl0 => decide (sl0 < 16)
  | .chainEnd _ => true
  | .stageCfgWrite sl0 st0 _ => decide (sl0 < 16 ∧ st0 < 24)
  | .genOpen => true
  | .genCommit => true
  | .genAbort => true
  | .drainEnd => true
  | .drainTimeout => true
  | .settlingEnd => true
  | .actionWrite _ => true
  | .actionRead _ => true
  | .definitionWrite _ => true
  | .definitionRead _ => true
  | .exactInsert _ => true
  | .exactDelete _ => true
  | .exactSearch _ => true
  | .portDefaultWrite n0 c0 _ => decide (n0 < 512 ∧ c0 < 4)
  | .stageSramScrub sl0 a0 _ => decide (sl0 < 16 ∧ a0 < 262144)
  | .galInsert _ => true
  | .galDelete _ => true
  | .galFind _ => true
  | .galProbe _ => true
  | .galJobStart _ => true
  | .galJobAbort _ => true
  | .galJobRecord => true
  | .galScrubVisit sl0 bank0 row0 _ => decide (sl0 < 16 ∧ bank0 < 64 ∧ row0 < 2048)
  | .galRepair sl0 bank0 row0 _ => decide (sl0 < 16 ∧ bank0 < 64 ∧ row0 < 2048)
  | .lrdTableCfgWrite t0 _ => decide (t0 < 64)
  | .lrdAgeWrite t0 _ => decide (t0 < 64)
  | .larderSearch _ _ => true
  | .cellarSearchRelease => true
  | .learnRequestApply => true
  | .sweepVisit t0 _ => decide (t0 < 64)
  | .lrdInsert _ => true
  | .lrdDelete _ => true
  | .lrdRead _ => true
  | .lrdCompareReplace _ => true
  | .lrdTouch _ => true
  | .lrdJobStart _ => true
  | .lrdJobAbort _ => true
  | .lrdJobStep => true
  | .lrdScrub _ _ => true
  | .lrdEccFree => true
  | .lrdTemplateWrite _ t0 _ => decide (t0 < 64)
  | .crowsnestCall => true
  | .callTimeout _ _ => true
  | .cacheMissFill _ => true
  | .crwCacheScrub _ _ => true
  | .rosterWrite _ => true
  | .rosterRead _ => true
  | .setHealth _ => true
  | .setLoad _ => true
  | .groupRead _ => true
  | .groupWrite _ => true
  | .probe _ => true
  | .rank _ => true
  | .crwCfgWrite _ => true
  | .buildStart _ => true
  | .buildAbort _ => true
  | .buildGroup _ => true
  | .loadSampleReceive sl0 => decide (sl0 < 16)
  | .migBegin _ => true
  | .migFinish _ => true
  | .migAbort _ => true
  | .migStep => true
  | .migDrainEnd => true
  | .migDrainTimeout => true
  | .migMark _ => true
  | .noticeDecide _ => true
  | .noticeTokenRefill sl0 => decide (sl0 < 16)
  | .copyOutcome _ => true
  | .checkVerify _ => true
  | .checkAppend _ => true
  | .checkProfileWrite p0 _ => decide (p0 < 64)
  | .voqAdmit _ => true
  | .spillWrite sl0 q0 => decide (sl0 < 16 ∧ q0 < 4224)
  | .spillReadback sl0 q0 _ => decide (sl0 < 16 ∧ q0 < 4224)
  | .grantRound grants => grants.all fun g => decide (g.1 < 16 ∧ g.2 < 4224)
  | .cellArrive src0 q0 _ => decide (src0 < 16 ∧ q0 < 4224)
  | .copyFinishReport _ e0 => decide (e0 < 16)
  | .downHoldExpire n0 => decide (n0 < 512)
  | .stwSetWrite _ => true
  | .stwSetRead _ => true
  | .stwGroupWrite _ => true
  | .stwGroupRead _ => true
  | .stwMemberWrite _ => true
  | .stwMemberRead _ => true
  | .flush _ => true
  | .hashProfileCommit k0 _ => decide (k0 < 8)
  | .pantryScrub sl0 _ _ => decide (sl0 < 16)
  | .refillTick => true
  | .policerWrite _ => true
  | .policerRead _ => true
  | .schedDecision n0 => decide (n0 < 512)
  | .shaperRateWrite j0 _ => decide (j0 < 0x2200)
  | .shaperBurstWrite j0 _ => decide (j0 < 0x2200)
  | .sampleInstant => true
  | .sheetScrub _ sl0 _ _ => decide (sl0 < 16)
  | .nop t0 _ => decide (t0 < 4097)
  | .add t0 _ => decide (t0 < 4097)
  | .sub t0 _ => decide (t0 < 4097)
  | .and t0 _ => decide (t0 < 4097)
  | .or t0 _ => decide (t0 < 4097)
  | .xor t0 _ => decide (t0 < 4097)
  | .shl t0 _ => decide (t0 < 4097)
  | .shr t0 _ => decide (t0 < 4097)
  | .sar t0 _ => decide (t0 < 4097)
  | .mul t0 _ => decide (t0 < 4097)
  | .mulh t0 _ => decide (t0 < 4097)
  | .slt t0 _ => decide (t0 < 4097)
  | .sltu t0 _ => decide (t0 < 4097)
  | .bext t0 _ => decide (t0 < 4097)
  | .bins t0 _ => decide (t0 < 4097)
  | .popc t0 _ => decide (t0 < 4097)
  | .clz t0 _ => decide (t0 < 4097)
  | .addi t0 _ => decide (t0 < 4097)
  | .andi t0 _ => decide (t0 < 4097)
  | .ori t0 _ => decide (t0 < 4097)
  | .xori t0 _ => decide (t0 < 4097)
  | .shli t0 _ => decide (t0 < 4097)
  | .shri t0 _ => decide (t0 < 4097)
  | .sari t0 _ => decide (t0 < 4097)
  | .li t0 _ => decide (t0 < 4097)
  | .lih t0 _ => decide (t0 < 4097)
  | .bswap t0 _ => decide (t0 < 4097)
  | .beq t0 _ => decide (t0 < 4097)
  | .bne t0 _ => decide (t0 < 4097)
  | .blt t0 _ => decide (t0 < 4097)
  | .bge t0 _ => decide (t0 < 4097)
  | .bltu t0 _ => decide (t0 < 4097)
  | .bgeu t0 _ => decide (t0 < 4097)
  | .jal t0 _ => decide (t0 < 4097)
  | .jalr t0 _ => decide (t0 < 4097)
  | .ld t0 _ => decide (t0 < 4097)
  | .lds t0 _ => decide (t0 < 4097)
  | .st t0 _ => decide (t0 < 4097)
  | .amoAdd t0 _ => decide (t0 < 4097)
  | .amoSwap t0 _ => decide (t0 < 4097)
  | .amoCas t0 _ => decide (t0 < 4097)
  | .tkNext t0 _ => decide (t0 < 4097)
  | .pktRd t0 _ => decide (t0 < 4097)
  | .pktWr t0 _ => decide (t0 < 4097)
  | .tkEmit t0 _ => decide (t0 < 4097)
  | .tkReinject t0 _ => decide (t0 < 4097)
  | .tkHost t0 _ => decide (t0 < 4097)
  | .tkDone t0 _ => decide (t0 < 4097)
  | .tbl t0 _ => decide (t0 < 4097)
  | .chk t0 _ => decide (t0 < 4097)
  | .dma t0 _ => decide (t0 < 4097)
  | .lbPut t0 _ => decide (t0 < 4097)
  | .lbSend t0 _ => decide (t0 < 4097)
  | .lbDrop t0 _ => decide (t0 < 4097)
  | .lbRecv t0 _ => decide (t0 < 4097)
  | .wfe t0 _ => decide (t0 < 4097)
  | .evSet t0 _ => decide (t0 < 4097)
  | .evClr t0 _ => decide (t0 < 4097)
  | .tmr t0 _ => decide (t0 < 4097)
  | .time t0 _ => decide (t0 < 4097)
  | .thrWreg t0 _ => decide (t0 < 4097)
  | .thrRreg t0 _ => decide (t0 < 4097)
  | .thrStart t0 _ => decide (t0 < 4097)
  | .thrStop t0 _ => decide (t0 < 4097)
  | .thrReset t0 _ => decide (t0 < 4097)
  | .thrStat t0 _ => decide (t0 < 4097)
  | .bell t0 _ => decide (t0 < 4097)
  | .vret t0 _ => decide (t0 < 4097)
  | .trap t0 _ => decide (t0 < 4097)
  | .brk t0 _ => decide (t0 < 4097)
  | .stop t0 _ => decide (t0 < 4097)
  | .wInstructionComplete t0 => decide (t0 < 4097)
  | .timerDeadline t0 => decide (t0 < 4097)
  | .ticketEnqueue _ => true
  | .waitDeadlock e0 => decide (e0 < 512)
  | .breakpointHalt t0 => decide (t0 < 4096)
  | .engineStop e0 => decide (e0 < 512)
  | .engineRestart e0 => decide (e0 < 512)
  | .dbgHalt => true
  | .dbgResume => true
  | .dbgStep => true
  | .dbgRead reg0 => decide (reg0 < 64)
  | .dbgWrite reg0 => decide (reg0 < 64)
  | .dbgHaltEngine => true
  | .dbgResumeEngine => true
  | .hostIsWrite _ => true
  | .hostIsRead _ => true
  | .hostShWrite _ => true
  | .hostShRead _ => true
  | .hostThrStart t0 => decide (t0 < 4096)
  | .hostThrStop t0 => decide (t0 < 4096)
  | .hostThrReset t0 => decide (t0 < 4096)
  | .loftWake l0 => decide (l0 < 64)
  | .loftsScrub m0 _ _ => decide (m0 < 3)
  | .crwReserveWrite _ => true
  | .poolValidWrite k0 _ => decide (k0 < 8)
  | .poolFormatDone k0 => decide (k0 < 8)
  | .bufferRequest _ => true
  | .cacheRefill k0 => decide (k0 < 8)
  | .grantQueueTimeout _ => true
  | .bufferFree f0 _ => decide (f0 < 64)
  | .bufferShare f0 _ => decide (f0 < 64)
  | .grantRegisterRead f0 k0 => decide (f0 < 64 ∧ k0 < 8)
  | .grantRegisterRefill f0 k0 => decide (f0 < 64 ∧ k0 < 8)
  | .reclaimStart _ => true
  | .reclaimVisit => true
  | .cupboardScrub k0 _ _ => decide (k0 < 8)
  | .hostLinkTrain _ _ _ _ => true
  | .perstReset _ => true
  | .functionLevelReset f0 => decide (f0 < 64)
  | .sqDoorbell q0 _ => decide (q0 < 16384)
  | .cqCiWrite q0 _ => decide (q0 < 16384)
  | .entryFetch q0 _ => decide (q0 < 16384)
  | .nopEntry q0 => decide (q0 < 16384)
  | .sendPipeline q0 => decide (q0 < 16384)
  | .sendDirect q0 => decide (q0 < 16384)
  | .ticketEntry q0 => decide (q0 < 16384)
  | .recvEntry q0 => decide (q0 < 16384)
  | .completionWrite q0 => decide (q0 < 16384)
  | .completionSignal q0 => decide (q0 < 16384)
  | .qpPause q0 => decide (q0 < 16384)
  | .qpResume q0 => decide (q0 < 16384)
  | .qpReset q0 => decide (q0 < 16384)
  | .haltClear => true
  | .formatGenWrite f0 _ => decide (f0 < 64)
  | .qpEnable q0 _ => decide (q0 < 16384)
  | .fnQpWrite f0 _ => decide (f0 < 64)
  | .hostSleepEnter f0 _ => decide (f0 < 64)
  | .hostWake f0 => decide (f0 < 64)
  | .hostMemAccess _ range0 _ _ _ _ => decide (range0 < 2)
  | .sourceAssert src0 => decide (src0 < 4096)
  | .bellPull _ => true
  | .arbitrate t0 _ => decide (t0 < 577)
  | .vectorCommit e0 => decide (e0 < 512)
  | .atticVector => true
  | .msixSend fn0 vec0 => decide (fn0 < 64 ∧ vec0 < 2048)
  | .eoiWrite fn0 _ => decide (fn0 < 64)
  | .routeWrite src0 _ => decide (src0 < 4096)
  | .routeScrub src0 _ => decide (src0 < 4096)
  | .cellarRead req0 _ _ _ => decide (req0 < 256)
  | .cellarWrite req0 _ _ _ => decide (req0 < 256)
  | .bankRefresh stack0 pch0 bank0 => decide (stack0 < 4 ∧ pch0 < 32 ∧ bank0 < 64)
  | .selfRefreshEntry k0 => decide (k0 < 4)
  | .selfRefreshExit k0 => decide (k0 < 4)
  | .activationWindowEnd => true
  | .caParityAlert stack0 ch0 => decide (stack0 < 4 ∧ ch0 < 16)
  | .patrolScrub stack0 pch0 _ => decide (stack0 < 4 ∧ pch0 < 32)
  | .scrubWake k0 => decide (k0 < 4)
  | .celPartWrite _ => true
  | .celLockWrite _ => true
  | .coldStart slotStrap0 flashStrap0 _ => decide (slotStrap0 < 4 ∧ flashStrap0 < 4)
  | .vddAonLoss => true
  | .bootStageEnd _ _ => true
  | .configRecord => true
  | .pollTimeout => true
  | .delayExpire => true
  | .reservedLoftStart => true
  | .flRead _ => true
  | .flProgram _ => true
  | .flErase4k _ => true
  | .flErase64k _ => true
  | .slotTry tries0 _ => decide (tries0 < 8)
  | .slotConfirm tries0 _ _ => decide (tries0 < 8)
  | .slotRevert tries0 _ => decide (tries0 < 8)
  | .autoConfirm _ _ => true
  | .timeTick => true
  | .timeAdjWrite _ => true
  | .timeSetWrite _ => true
  | .timeIncrWrite _ => true
  | .powerTargetWrite _ => true
  | .shutterComplete => true
  | .shutteredWake cause0 => decide (cause0 < 3)
  | .sliceGate sl0 => decide (sl0 < 16)
  | .periodicScrubWake => true
  | .deviceRestart => true
  | .sliceRestart sl0 => decide (sl0 < 16)
  | .sidebandAccess addr0 _ off0 _ => decide (addr0 < 128 ∧ off0 < 65536)
  | .reportPresent src0 inst0 _ => decide (src0 < 256 ∧ inst0 < 65536)
  | .reportTake => true
  | .safeEnterWrite => true
  | .safeExitWrite => true
  | .safeAutoExit => true
  | .isolationRelease _ => true
  | .monitorDetect src0 inst0 _ => decide (src0 < 256 ∧ inst0 < 65536)
  | .selfCheck _ _ => true
  | .aliveToggle => true
  | .injectOneBit _ => true
  | .injectTwoBits _ => true
  | .injectReport _ => true
  | .injectParity _ => true
  | .logSelect _ => true
  | .counterSnapshot => true
  | .snapWrite => true
  | .dumpComplete => true
  | .counterRead => true
  | .counterDirectorySelect _ => true
  | .dumpCfgWrite _ _ => true
  | .counterScrub _ _ _ _ => true
  | .monitorClear src0 inst0 => decide (src0 < 256 ∧ inst0 < 65536)
  | .stackTemperatureChange k0 temp0 => decide (k0 < 4 ∧ temp0 < 256)
  | .configRequest f0 _ _ => decide (f0 < 64)
  | .flashCommandEnd _ => true
  | .hostDmaCompletion q0 _ _ => decide (q0 < 16384)
  | .backInvalidateResponse _ => true
  | .jtagAccess _ _ => true
  | .dynamicAddressAssign _ => true

end Sys2Proof
end

