-- ==== Sys2Proof/Tests/Slice0.lean ====
section
/-! SUPPORT. Small tests of one step each, and for every statement states and operands that meet what its clauses assume,
with what the command then gives where that can be evaluated (a free value cannot). -/

namespace Sys2Proof.Tests

open Sys2Proof Sys2Proof.Machine

set_option maxRecDepth 20000
set_option Elab.async false

/-- The outcome is a next state with property `p`. -/
def gives (o : Host.Outcome State Fault Refusal) (p : State → Bool) : Bool :=
  match o with
  | .next u => p u
  | _ => false

/-- Every item holds. -/
abbrev checks (l : List Bool) : Prop := l.all id = true

/-- The outcome is the next state `s`. -/
def stays (o : Host.Outcome State Fault Refusal) (s : State) : Bool := gives o fun u => decide (u = s)

/-! ## Lofts -/

/-- Fields of a Lofts instruction word. -/
def fl (d a b imm : Nat) : LFields := ⟨BitVec.ofNat 5 d, BitVec.ofNat 5 a, BitVec.ofNat 5 b, BitVec.ofNat 41 imm⟩

/-- Thread `t` is RUNNABLE in a running engine, with an instruction word at its pc; `x1` and `x2` are its registers 1 and 2. -/
def loft (t op : Nat) (f : LFields) (x1 x2 pc : Nat) : State :=
  let s := State.reset.wf (lftEngStatus (t / 8)) 31 30 0
  { s with
    lft := { s.lft with
      threads := [(t, { Thread.init with state := 1, pc := pc, x := [(1, BitVec.ofNat 64 x1), (2, BitVec.ofNat 64 x2)] })]
      istore := [(t / 64 * 32768 + pc, lftEncode op f)] } }

/-- Thread `t` as another value. -/
def withThr (s : State) (t : Nat) (g : Thread → Thread) : State :=
  { s with lft := { s.lft with threads := tput s.lft.threads t (g (s.thr t)) } }

/-- What `State.issues` says, decided. -/
def issuing (s : State) (t op : Nat) (f : LFields) : Bool :=
  s.mayIssue t && decide (s.wordAt t = lftEncode op f) && fieldsOk op f &&
    (if t = atcThread then decide ((s.thr t).pc < 16384) && atcRuns op f
     else decide (s.eccOf .lftIs (t / 64 * 32768 + (s.thr t).pc) ≠ .uncorr))

theorem issuing_iff (s : State) (t op : Nat) (f : LFields) : issuing s t op f = true ↔ s.issues t op f := by
  unfold issuing State.issues
  split <;> simp [and_assoc]



/-! ## The step, invariants, words -/

/-- Every byte memory lists a byte, fuses are blown, and these commands wait. -/
def stocked (l : List Instr) : State :=
  { State.reset with
    cel := { State.reset.cel with mem := [(5, 1)] }
    attic := { State.reset.attic with mem := [(5, 1)], flash := [(5, 1)], fuseSvn := 3, testFuse := true, keys := [⟨7, true, true⟩, KeySlot.reset, KeySlot.reset, KeySlot.reset] }
    lft := { State.reset.lft with localMem := [(5, 1)], shared := [(5, 1)] }
    pending := l }

theorem witness_StepRunsFrontCommand : gives (step (stocked [.cellarWrite 0x10 (64 * 2 ^ 30) [9, 0] false, .vddAonLoss])) (fun u => u.cel.mem == [(5, 1), (64 * 2 ^ 30, 9)] && u.pending == [.vddAonLoss]) = true ∧
    stays (step State.reset) State.reset = true := by decide +kernel

theorem witness_StepKeepsMemoriesCanonical : (stocked [.vddAonLoss]).sound ∧ completes (step (stocked [.vddAonLoss])) = true := by
  unfold State.sound
  decide +kernel

theorem witness_FusesNeverUnblow : gives (step (stocked [.vddAonLoss])) (fun u => u.stage == 1 && u.attic.fuseSvn == 3 &&
    u.attic.testFuse && (u.attic.keys.getD 0 KeySlot.reset).revoked) = true := by decide +kernel

theorem witness_LoftsWordsRoundTrip : lftEncode 255 (fl 31 31 31 (2 ^ 41 - 1)) = 2 ^ 64 - 1 ∧ lftFields (2 ^ 64 - 1) = fl 31 31 31 (2 ^ 41 - 1) ∧
    lftEncode 0 (fl 1 0 0 0) = 2 ^ 51 := by decide +kernel


/-! ## Well-formedness -/

/-! Every check refuses the first value beyond its range, and takes the last one in it. -/

theorem test_ill_formed_1 : ([
    .registerWrite 0x28000000 0, .misalignedRegisterAccess 64 false 0 0, .misalignedRegisterAccess 0 false 0x28000000 0,
    .reservedOffsetAccess false 0x28000000, .pairLowerRead 0x28000000, .pairUpperWrite 0x28000000 0, .rcFieldRead 0x28000000,
    .setRegisterWrite 0x28000000 0, .clrRegisterWrite 0x28000000 0, .frameReceive 512 [] false 0 0 0, .sliceWake 16, .frameBegin 512, .frameEnd 512,
    .linkUp 512, .linkDown 512, .autoNegotiation 512 false, .linkTraining 512, .laneRateWrite 64 0, .portCfgWrite 512 0, .portMtuWrite 512 0,
    .pfcReceive 512 0 [], .pfcReceive 0 256 [], .pauseReceive 512 0, .pauseReceive 0 65536, .pauseTimerExpire 512 0, .pauseTimerExpire 0 16,
    .pfcGenerate 512, .pfcRefresh 512, .tsTagRead 512, .helloReceive 512 [], .partnerHoldExpire 512, .partnerStatePost 512, .helloSend 512,
    .helloReply 512, .storeScrub 16 0 .ok, .storeScrub 0 8192 .ok, .remoteAnswerArrive 0 24, .headSlotArbitrate 16, .reentryAgeLimit 16,
    .stageCfgWrite 16 0 0, .stageCfgWrite 0 24 0, .portDefaultWrite 512 0 0, .portDefaultWrite 0 4 0, .stageSramScrub 16 0 .ok,
    .stageSramScrub 0 262144 .ok, .galScrubVisit 16 0 0 false, .galScrubVisit 0 64 0 false, .galScrubVisit 0 0 2048 false, .galRepair 16 0 0 .ok,
    .galRepair 0 64 0 .ok, .galRepair 0 0 2048 .ok, .lrdTableCfgWrite 64 0, .lrdAgeWrite 64 0, .sweepVisit 64 0, .lrdTemplateWrite false 64 0,
    .loadSampleReceive 16, .noticeTokenRefill 16, .checkProfileWrite 64 0, .spillWrite 16 0, .spillWrite 0 4224] : List Instr).all (fun i => !i.wf) = true := by decide +kernel

theorem test_ill_formed_2 : ([
    .spillReadback 16 0 false, .spillReadback 0 4224 false, .cellArrive 16 0 false, .cellArrive 0 4224 false, .copyFinishReport 0 16,
    .downHoldExpire 512, .hashProfileCommit 8 0, .pantryScrub 16 0 .ok, .schedDecision 512, .shaperRateWrite 0x2200 0, .shaperBurstWrite 0x2200 0,
    .sheetScrub false 16 0 .ok, .nop 4097 (fl 0 0 0 0), .add 4097 (fl 0 0 0 0), .sub 4097 (fl 0 0 0 0), .and 4097 (fl 0 0 0 0), .or 4097 (fl 0 0 0 0),
    .xor 4097 (fl 0 0 0 0), .shl 4097 (fl 0 0 0 0), .shr 4097 (fl 0 0 0 0), .sar 4097 (fl 0 0 0 0), .mul 4097 (fl 0 0 0 0), .mulh 4097 (fl 0 0 0 0),
    .slt 4097 (fl 0 0 0 0), .sltu 4097 (fl 0 0 0 0), .bext 4097 (fl 0 0 0 0), .bins 4097 (fl 0 0 0 0), .popc 4097 (fl 0 0 0 0), .clz 4097 (fl 0 0 0 0),
    .addi 4097 (fl 0 0 0 0), .andi 4097 (fl 0 0 0 0), .ori 4097 (fl 0 0 0 0), .xori 4097 (fl 0 0 0 0), .shli 4097 (fl 0 0 0 0),
    .shri 4097 (fl 0 0 0 0), .sari 4097 (fl 0 0 0 0), .li 4097 (fl 0 0 0 0), .lih 4097 (fl 0 0 0 0), .bswap 4097 (fl 0 0 0 0), .beq 4097 (fl 0 0 0 0),
    .bne 4097 (fl 0 0 0 0), .blt 4097 (fl 0 0 0 0), .bge 4097 (fl 0 0 0 0), .bltu 4097 (fl 0 0 0 0), .bgeu 4097 (fl 0 0 0 0), .jal 4097 (fl 0 0 0 0),
    .jalr 4097 (fl 0 0 0 0), .ld 4097 (fl 0 0 0 0), .lds 4097 (fl 0 0 0 0), .st 4097 (fl 0 0 0 0), .amoAdd 4097 (fl 0 0 0 0),
    .amoSwap 4097 (fl 0 0 0 0), .amoCas 4097 (fl 0 0 0 0), .tkNext 4097 (fl 0 0 0 0), .pktRd 4097 (fl 0 0 0 0), .pktWr 4097 (fl 0 0 0 0),
    .tkEmit 4097 (fl 0 0 0 0), .tkReinject 4097 (fl 0 0 0 0), .tkHost 4097 (fl 0 0 0 0), .tkDone 4097 (fl 0 0 0 0)] : List Instr).all (fun i => !i.wf) = true := by decide +kernel

theorem test_ill_formed_3 : ([
    .tbl 4097 (fl 0 0 0 0), .chk 4097 (fl 0 0 0 0), .dma 4097 (fl 0 0 0 0), .lbPut 4097 (fl 0 0 0 0), .lbSend 4097 (fl 0 0 0 0),
    .lbDrop 4097 (fl 0 0 0 0), .lbRecv 4097 (fl 0 0 0 0), .wfe 4097 (fl 0 0 0 0), .evSet 4097 (fl 0 0 0 0), .evClr 4097 (fl 0 0 0 0),
    .tmr 4097 (fl 0 0 0 0), .time 4097 (fl 0 0 0 0), .thrWreg 4097 (fl 0 0 0 0), .thrRreg 4097 (fl 0 0 0 0), .thrStart 4097 (fl 0 0 0 0),
    .thrStop 4097 (fl 0 0 0 0), .thrReset 4097 (fl 0 0 0 0), .thrStat 4097 (fl 0 0 0 0), .bell 4097 (fl 0 0 0 0), .vret 4097 (fl 0 0 0 0),
    .trap 4097 (fl 0 0 0 0), .brk 4097 (fl 0 0 0 0), .stop 4097 (fl 0 0 0 0), .wInstructionComplete 4097, .timerDeadline 4097, .waitDeadlock 512,
    .breakpointHalt 4096, .engineStop 512, .engineRestart 512, .dbgRead 64, .dbgWrite 64, .hostThrStart 4096, .hostThrStop 4096, .hostThrReset 4096,
    .loftWake 64, .loftsScrub 3 0 .ok, .poolValidWrite 8 0, .poolFormatDone 8, .cacheRefill 8, .bufferFree 64 0, .bufferShare 64 0,
    .grantRegisterRead 64 0, .grantRegisterRead 0 8, .grantRegisterRefill 64 0, .grantRegisterRefill 0 8, .cupboardScrub 8 0 .ok,
    .functionLevelReset 64, .sqDoorbell 16384 0, .cqCiWrite 16384 0, .entryFetch 16384 [], .nopEntry 16384, .sendPipeline 16384, .sendDirect 16384,
    .ticketEntry 16384, .recvEntry 16384, .completionWrite 16384, .completionSignal 16384, .qpPause 16384, .qpResume 16384, .qpReset 16384] : List Instr).all (fun i => !i.wf) = true := by decide +kernel

theorem test_ill_formed_4 : ([
    .formatGenWrite 64 0, .qpEnable 16384 0, .fnQpWrite 64 0, .hostSleepEnter 64 false, .hostWake 64, .hostMemAccess false 2 0 none 0 false,
    .sourceAssert 4096, .arbitrate 577 [], .vectorCommit 512, .msixSend 64 0, .msixSend 0 2048, .eoiWrite 64 0, .routeWrite 4096 0,
    .routeScrub 4096 .ok, .cellarRead 256 0 0 .ok, .cellarWrite 256 0 [] false, .bankRefresh 4 0 0, .bankRefresh 0 32 0, .bankRefresh 0 0 64,
    .selfRefreshEntry 4, .selfRefreshExit 4, .caParityAlert 4 0, .caParityAlert 0 16, .patrolScrub 4 0 .ok, .patrolScrub 0 32 .ok, .scrubWake 4,
    .coldStart 4 0 false, .coldStart 0 4 false, .slotTry 8 false, .slotConfirm 8 false false, .slotRevert 8 false, .shutteredWake 3, .sliceGate 16,
    .sliceRestart 16, .sidebandAccess 128 false 0 0, .sidebandAccess 0 false 65536 0, .reportPresent 256 0 0, .reportPresent 0 65536 0,
    .monitorDetect 256 0 0, .monitorDetect 0 65536 0, .monitorClear 256 0, .monitorClear 0 65536, .stackTemperatureChange 4 0,
    .stackTemperatureChange 0 256, .configRequest 64 .msixEnable none, .hostDmaCompletion 16384 0 none, .grantRound [(15, 0), (16, 0)],
    .grantRound [(0, 4224)]] : List Instr).all (fun i => !i.wf) = true := by decide +kernel

theorem test_well_formed_1 : ([
    .registerWrite 0x27FFFFFF 0, .misalignedRegisterAccess 63 false 0 0, .misalignedRegisterAccess 0 false 0x27FFFFFF 0,
    .reservedOffsetAccess false 0x27FFFFFF, .pairLowerRead 0x27FFFFFF, .pairUpperWrite 0x27FFFFFF 0, .rcFieldRead 0x27FFFFFF,
    .setRegisterWrite 0x27FFFFFF 0, .clrRegisterWrite 0x27FFFFFF 0, .frameReceive 511 [] false 0 0 0, .sliceWake 15, .frameBegin 511, .frameEnd 511,
    .linkUp 511, .linkDown 511, .autoNegotiation 511 false, .linkTraining 511, .laneRateWrite 63 0, .portCfgWrite 511 0, .portMtuWrite 511 0,
    .pfcReceive 511 0 [], .pfcReceive 0 255 [], .pauseReceive 511 0, .pauseReceive 0 65535, .pauseTimerExpire 511 0, .pauseTimerExpire 0 15,
    .pfcGenerate 511, .pfcRefresh 511, .tsTagRead 511, .helloReceive 511 [], .partnerHoldExpire 511, .partnerStatePost 511, .helloSend 511,
    .helloReply 511, .storeScrub 15 0 .ok, .storeScrub 0 8191 .ok, .remoteAnswerArrive 0 23, .headSlotArbitrate 15, .reentryAgeLimit 15,
    .stageCfgWrite 15 0 0, .stageCfgWrite 0 23 0, .portDefaultWrite 511 0 0, .portDefaultWrite 0 3 0, .stageSramScrub 15 0 .ok,
    .stageSramScrub 0 262143 .ok, .galScrubVisit 15 0 0 false, .galScrubVisit 0 63 0 false, .galScrubVisit 0 0 2047 false, .galRepair 15 0 0 .ok,
    .galRepair 0 63 0 .ok, .galRepair 0 0 2047 .ok, .lrdTableCfgWrite 63 0, .lrdAgeWrite 63 0, .sweepVisit 63 0, .lrdTemplateWrite false 63 0,
    .loadSampleReceive 15, .noticeTokenRefill 15, .checkProfileWrite 63 0, .spillWrite 15 0, .spillWrite 0 4223] : List Instr).all (fun i => i.wf) = true := by decide +kernel

theorem test_well_formed_2 : ([
    .spillReadback 15 0 false, .spillReadback 0 4223 false, .cellArrive 15 0 false, .cellArrive 0 4223 false, .copyFinishReport 0 15,
    .downHoldExpire 511, .hashProfileCommit 7 0, .pantryScrub 15 0 .ok, .schedDecision 511, .shaperRateWrite 0x21FF 0, .shaperBurstWrite 0x21FF 0,
    .sheetScrub false 15 0 .ok, .nop 4096 (fl 0 0 0 0), .add 4096 (fl 0 0 0 0), .sub 4096 (fl 0 0 0 0), .and 4096 (fl 0 0 0 0), .or 4096 (fl 0 0 0 0),
    .xor 4096 (fl 0 0 0 0), .shl 4096 (fl 0 0 0 0), .shr 4096 (fl 0 0 0 0), .sar 4096 (fl 0 0 0 0), .mul 4096 (fl 0 0 0 0), .mulh 4096 (fl 0 0 0 0),
    .slt 4096 (fl 0 0 0 0), .sltu 4096 (fl 0 0 0 0), .bext 4096 (fl 0 0 0 0), .bins 4096 (fl 0 0 0 0), .popc 4096 (fl 0 0 0 0), .clz 4096 (fl 0 0 0 0),
    .addi 4096 (fl 0 0 0 0), .andi 4096 (fl 0 0 0 0), .ori 4096 (fl 0 0 0 0), .xori 4096 (fl 0 0 0 0), .shli 4096 (fl 0 0 0 0),
    .shri 4096 (fl 0 0 0 0), .sari 4096 (fl 0 0 0 0), .li 4096 (fl 0 0 0 0), .lih 4096 (fl 0 0 0 0), .bswap 4096 (fl 0 0 0 0), .beq 4096 (fl 0 0 0 0),
    .bne 4096 (fl 0 0 0 0), .blt 4096 (fl 0 0 0 0), .bge 4096 (fl 0 0 0 0), .bltu 4096 (fl 0 0 0 0), .bgeu 4096 (fl 0 0 0 0), .jal 4096 (fl 0 0 0 0),
    .jalr 4096 (fl 0 0 0 0), .ld 4096 (fl 0 0 0 0), .lds 4096 (fl 0 0 0 0), .st 4096 (fl 0 0 0 0), .amoAdd 4096 (fl 0 0 0 0),
    .amoSwap 4096 (fl 0 0 0 0), .amoCas 4096 (fl 0 0 0 0), .tkNext 4096 (fl 0 0 0 0), .pktRd 4096 (fl 0 0 0 0), .pktWr 4096 (fl 0 0 0 0),
    .tkEmit 4096 (fl 0 0 0 0), .tkReinject 4096 (fl 0 0 0 0), .tkHost 4096 (fl 0 0 0 0), .tkDone 4096 (fl 0 0 0 0)] : List Instr).all (fun i => i.wf) = true := by decide +kernel

theorem test_well_formed_3 : ([
    .tbl 4096 (fl 0 0 0 0), .chk 4096 (fl 0 0 0 0), .dma 4096 (fl 0 0 0 0), .lbPut 4096 (fl 0 0 0 0), .lbSend 4096 (fl 0 0 0 0),
    .lbDrop 4096 (fl 0 0 0 0), .lbRecv 4096 (fl 0 0 0 0), .wfe 4096 (fl 0 0 0 0), .evSet 4096 (fl 0 0 0 0), .evClr 4096 (fl 0 0 0 0),
    .tmr 4096 (fl 0 0 0 0), .time 4096 (fl 0 0 0 0), .thrWreg 4096 (fl 0 0 0 0), .thrRreg 4096 (fl 0 0 0 0), .thrStart 4096 (fl 0 0 0 0),
    .thrStop 4096 (fl 0 0 0 0), .thrReset 4096 (fl 0 0 0 0), .thrStat 4096 (fl 0 0 0 0), .bell 4096 (fl 0 0 0 0), .vret 4096 (fl 0 0 0 0),
    .trap 4096 (fl 0 0 0 0), .brk 4096 (fl 0 0 0 0), .stop 4096 (fl 0 0 0 0), .wInstructionComplete 4096, .timerDeadline 4096, .waitDeadlock 511,
    .breakpointHalt 4095, .engineStop 511, .engineRestart 511, .dbgRead 63, .dbgWrite 63, .hostThrStart 4095, .hostThrStop 4095, .hostThrReset 4095,
    .loftWake 63, .loftsScrub 2 0 .ok, .poolValidWrite 7 0, .poolFormatDone 7, .cacheRefill 7, .bufferFree 63 0, .bufferShare 63 0,
    .grantRegisterRead 63 0, .grantRegisterRead 0 7, .grantRegisterRefill 63 0, .grantRegisterRefill 0 7, .cupboardScrub 7 0 .ok,
    .functionLevelReset 63, .sqDoorbell 16383 0, .cqCiWrite 16383 0, .entryFetch 16383 [], .nopEntry 16383, .sendPipeline 16383, .sendDirect 16383,
    .ticketEntry 16383, .recvEntry 16383, .completionWrite 16383, .completionSignal 16383, .qpPause 16383, .qpResume 16383, .qpReset 16383] : List Instr).all (fun i => i.wf) = true := by decide +kernel

theorem test_well_formed_4 : ([
    .formatGenWrite 63 0, .qpEnable 16383 0, .fnQpWrite 63 0, .hostSleepEnter 63 false, .hostWake 63, .hostMemAccess false 1 0 none 0 false,
    .sourceAssert 4095, .arbitrate 576 [], .vectorCommit 511, .msixSend 63 0, .msixSend 0 2047, .eoiWrite 63 0, .routeWrite 4095 0,
    .routeScrub 4095 .ok, .cellarRead 255 0 0 .ok, .cellarWrite 255 0 [] false, .bankRefresh 3 0 0, .bankRefresh 0 31 0, .bankRefresh 0 0 63,
    .selfRefreshEntry 3, .selfRefreshExit 3, .caParityAlert 3 0, .caParityAlert 0 15, .patrolScrub 3 0 .ok, .patrolScrub 0 31 .ok, .scrubWake 3,
    .coldStart 3 0 false, .coldStart 0 3 false, .slotTry 7 false, .slotConfirm 7 false false, .slotRevert 7 false, .shutteredWake 2, .sliceGate 15,
    .sliceRestart 15, .sidebandAccess 127 false 0 0, .sidebandAccess 0 false 65535 0, .reportPresent 255 0 0, .reportPresent 0 65535 0,
    .monitorDetect 255 0 0, .monitorDetect 0 65535 0, .monitorClear 255 0, .monitorClear 0 65535, .stackTemperatureChange 3 0,
    .stackTemperatureChange 0 255, .configRequest 63 .msixEnable none, .hostDmaCompletion 16383 0 none, .grantRound [(15, 4223)]] : List Instr).all (fun i => i.wf) = true := by decide +kernel


set_option exponentiation.threshold 400

/-! ## An image in the flash -/

/-- Bytes listed from an address on. -/
def cellsAt (a : Nat) : List Byte → List Host.Cell
  | [] => []
  | b :: bs => (a, b) :: cellsAt (a + 1) bs

theorem tfind_cellsAt (bs : List Byte) (a k : Nat) : tfind (cellsAt a bs) (a + k) = bs[k]? := by
  induction bs generalizing a k with
  | nil => rfl
  | cons b bs ih =>
    cases k with
    | zero => simp [cellsAt, tfind]
    | succ k =>
      have h := ih (a + 1) k
      rw [show a + 1 + k = a + (k + 1) by omega] at h
      simp [cellsAt, tfind, h]

/-- What a read finds of listed bytes. -/
theorem memRead_cellsAt (d : Byte) (bs : List Byte) (a o n : Nat) (h : o + n ≤ bs.length) :
    memRead d (cellsAt a bs) (a + o) n = slice bs o n := by
  unfold memRead slice
  apply List.map_congr_left
  intro i hi
  have := List.mem_range.mp hi
  rw [Nat.add_assoc, tget, tfind_cellsAt, List.getD_eq_getElem?_getD, List.getElem?_eq_getElem (by omega)]
  rfl

theorem slice_left (xs ys : List Byte) (o n : Nat) (h : o + n ≤ xs.length) : slice (xs ++ ys) o n = slice xs o n := by
  unfold slice
  apply List.map_congr_left
  intro i hi
  have := List.mem_range.mp hi
  simp [List.getD_eq_getElem?_getD, List.getElem?_append_left (show o + i < xs.length by omega)]

theorem slice_right (xs ys : List Byte) (o n : Nat) (h : xs.length ≤ o) : slice (xs ++ ys) o n = slice ys (o - xs.length) n := by
  unfold slice
  apply List.map_congr_left
  intro i hi
  simp [List.getD_eq_getElem?_getD, List.getElem?_append_right (show xs.length ≤ o + i by omega), show o + i - xs.length = o - xs.length + i by omega]

theorem slice_whole (l : List Byte) : slice l 0 l.length = l := by
  apply List.ext_getElem
  · simp [slice, upto]
  · intro i h1 h2
    simp [slice, upto, List.getD_eq_getElem?_getD, h2]

theorem leNat_natLe_mod (n v : Nat) : leNat (natLe n v) = v % 256 ^ n := by
  induction n generalizing v with
  | zero => simp [natLe, leNat, Nat.mod_one]
  | succ n ih => rw [natLe, leNat, ih, BitVec.toNat_ofNat, show 256 ^ (n + 1) = 256 * 256 ^ n from Nat.pow_succ', Nat.mod_mul (a := 256)]

theorem beNat_sha (b : List Byte) : beNat (natBe 48 (Config.sha384 b)) = Config.sha384 b := by
  simp only [beNat, natBe, List.reverse_reverse, leNat_natLe_mod]
  exact Nat.mod_eq_of_lt (Config.sha384Bits b).isLt

theorem natLe_length (n v : Nat) : (natLe n v).length = n := by
  induction n generalizing v with
  | zero => rfl
  | succ n ih => simp [natLe, ih]

/-- A CONFIG record. -/
def recBytes (op addr value mask : Nat) : List Byte := natLe 4 op ++ natLe 4 addr ++ natLe 4 value ++ natLe 4 mask

/-- The header of an image of one section, and the entry of that section up to its hash: CONFIG, 16 bytes at 512, its digests at 1024. -/
def imageHead : List Byte :=
  natLe 4 0x5852594C ++ natLe 2 1 ++ natLe 2 256 ++ natLe 2 0x7140 ++ natLe 2 0 ++ natLe 2 65535 ++ natLe 2 1 ++ natLe 4 0x77 ++
    natLe 16 0 ++ natLe 4 2048 ++ List.replicate 216 0 ++ natLe 4 1 ++ natLe 4 512 ++ natLe 4 16 ++ natLe 4 1024

/-- The bytes of the image whose section holds `r`. -/
def imageOf (r : List Byte) : List Byte :=
  let l := natBe 48 (Config.sha384 r)
  imageHead ++ (natBe 48 (Config.sha384 l) ++ (List.replicate 192 0 ++ (r ++ (List.replicate 496 0 ++ l))))

/-- The image stands in slot `c`, the boot is in this stage and slot A is in hand. -/
def imaged (c stage : Nat) (r : List Byte) : State :=
  let s := State.reset.wf atcBootStatus 31 28 stage
  { s with attic := { s.attic with flash := cellsAt (s.slotAt c) (imageOf r), boot := { s.attic.boot with order := [c] } } }

theorem imageHead_length : imageHead.length = 272 := by decide +kernel

theorem recBytes_length (op addr value mask : Nat) : (recBytes op addr value mask).length = 16 := by simp [recBytes, natLe_length]

theorem imageOf_length (r : List Byte) (h : r.length = 16) : (imageOf r).length = 1072 := by
  simp [imageOf, imageHead_length, natBe, natLe_length, h]

/-- A field of the image. -/
theorem imaged_img (c stage : Nat) (r : List Byte) (h : r.length = 16) (o n : Nat) (hn : o + n ≤ 1072) :
    (imaged c stage r).img c o n = slice (imageOf r) o n := by
  apply memRead_cellsAt
  rw [imageOf_length r h]
  exact hn

theorem imaged_head (c stage : Nat) (r : List Byte) (h : r.length = 16) (o n : Nat) (hn : o + n ≤ 272) :
    (imaged c stage r).img c o n = slice imageHead o n := by
  rw [imaged_img c stage r h o n (by omega)]
  apply slice_left
  rw [imageHead_length]
  exact hn

theorem imaged_hash (c stage : Nat) (r : List Byte) (h : r.length = 16) :
    (imaged c stage r).img c 272 48 = natBe 48 (Config.sha384 (natBe 48 (Config.sha384 r))) := by
  rw [imaged_img c stage r h 272 48 (by omega), imageOf, slice_right _ _ _ _ (by simp [imageHead_length]), imageHead_length,
    slice_left _ _ _ _ (by simp [natBe, natLe_length])]
  exact (congrArg _ (by simp [natBe, natLe_length])).trans (slice_whole _)

theorem imaged_bytes (c stage : Nat) (r : List Byte) (h : r.length = 16) : (imaged c stage r).img c 512 16 = r := by
  rw [imaged_img c stage r h 512 16 (by omega), imageOf, slice_right _ _ _ _ (by simp [imageHead_length]), imageHead_length,
    slice_right _ _ _ _ (by simp [natBe, natLe_length]), slice_right _ _ _ _ (by simp [natBe, natLe_length]), slice_left _ _ _ _ (by simp [natBe, natLe_length, h])]
  simp only [natBe, natLe_length, List.length_reverse, List.length_replicate]
  rw [← h]
  exact slice_whole r

theorem imaged_digests (c stage : Nat) (r : List Byte) (h : r.length = 16) : (imaged c stage r).img c 1024 48 = natBe 48 (Config.sha384 r) := by
  rw [imaged_img c stage r h 1024 48 (by omega), imageOf, slice_right _ _ _ _ (by simp [imageHead_length]), imageHead_length,
    slice_right _ _ _ _ (by simp [natBe, natLe_length]), slice_right _ _ _ _ (by simp [natBe, natLe_length]), slice_right _ _ _ _ (by simp [natBe, natLe_length, h]),
    slice_right _ _ _ _ (by simp [natBe, natLe_length, h])]
  simp only [natBe, natLe_length, List.length_reverse, List.length_replicate, h]
  exact (congrArg (slice _ 0) (by simp [natLe_length])).trans (slice_whole _)

theorem imaged_sect (c stage : Nat) (r : List Byte) (h : r.length = 16) :
    (imaged c stage r).sect c 0 = ⟨1, 0, 512, 16, 1024, Config.sha384 (natBe 48 (Config.sha384 r))⟩ := by
  have f (o n : Nat) (hn : o + n ≤ 272) : (imaged c stage r).imgN c o n = leNat (slice imageHead o n) := congrArg leNat (imaged_head c stage r h o n hn)
  rw [State.sect, f _ _ (by omega), f _ _ (by omega), f _ _ (by omega), f _ _ (by omega), f _ _ (by omega), imaged_hash c stage r h, beNat_sha]
  have e : [leNat (slice imageHead 256 1), leNat (slice imageHead 257 1), leNat (slice imageHead 260 4), leNat (slice imageHead 264 4),
      leNat (slice imageHead 268 4)] = [1, 0, 512, 16, 1024] := by decide +kernel
  simp only [List.cons.injEq] at e
  simp [e]

/-- The section passes its digests and its form. -/
theorem imaged_sectCheck (c stage : Nat) (r : List Byte) (h : r.length = 16) :
    (imaged c stage r).sectCheck c ((imaged c stage r).sect c 0) = 0 := by
  rw [imaged_sect c stage r h]
  have hb : (imaged c stage r).sectBytes c ⟨1, 0, 512, 16, 1024, Config.sha384 (natBe 48 (Config.sha384 r))⟩ = r := imaged_bytes c stage r h
  have hd : (imaged c stage r).img c 1024 (48 * 1) = natBe 48 (Config.sha384 r) := imaged_digests c stage r h
  have hw : slice (natBe 48 (Config.sha384 r)) 0 48 = natBe 48 (Config.sha384 r) :=
    (congrArg (slice _ 0) (by simp [natBe, natLe_length])).trans (slice_whole _)
  have ht : r.take 65536 = r := List.take_of_length_le (by omega)
  simp [State.sectCheck, State.digestOk, State.formCheck, Sect.blocks, hb, hd, hw, ht, beNat_sha, upto, List.range_succ]

/-- Stage SECTIONS, the section's first record reached. -/
theorem imaged_toRecord (c : Nat) (r : List Byte) (h : r.length = 16) : (imaged c 6 r).toRecord = imaged c 6 r := by
  have hs : (imaged c 6 r).imgSects c = 1 := (congrArg leNat (imaged_head c 6 r h 14 2 (by omega))).trans (by decide +kernel)
  have hc : (imaged c 6 r).bootSlot = c := rfl
  have hx : (imaged c 6 r).bootSect = (imaged c 6 r).sect c 0 := rfl
  have hk : (imaged c 6 r).sectCheck c ((imaged c 6 r).sect c 0) = 0 := imaged_sectCheck c 6 r h
  rw [State.toRecord, State.loadSections]
  simp only [hc, hs, hx, hk]
  rw [imaged_sect c 6 r h]
  have h1 : (imaged c 6 r).attic.boot = { Boot.reset with order := [c] } := rfl
  simp [State.skipSection, h1, Boot.reset]

/-- The one record of the image is in hand. -/
theorem imaged_record (c op addr value mask : Nat) (ho : op < 2 ^ 32) (ha : addr < 2 ^ 32) (hv : value < 2 ^ 32) (hm : mask < 2 ^ 32) :
    let s := imaged c 6 (recBytes op addr value mask)
    s.toRecord = s ∧ s.stage = 6 ∧ s.sectionsDone = false ∧ s.attic.boot.order = [c] ∧ s.cfgNow = ⟨op, addr, value, mask⟩ := by
  intro s
  have h := recBytes_length op addr value mask
  have hs : s.imgSects c = 1 := (congrArg leNat (imaged_head c 6 _ h 14 2 (by omega))).trans (by decide +kernel)
  have hx : s.bootSect = ⟨1, 0, 512, 16, 1024, _⟩ := imaged_sect c 6 _ h
  have hb : s.sectBytes c s.bootSect = recBytes op addr value mask := by rw [hx]; exact imaged_bytes c 6 _ h
  refine ⟨imaged_toRecord c _ h, ?_, ?_, rfl, ?_⟩
  · exact (show (State.reset.wf atcBootStatus 31 28 6).rf atcBootStatus 31 28 = 6 by decide +kernel)
  · have e : s.bootSlot = c := rfl
    simp [State.sectionsDone, e, hs]; rfl
  · have e : s.bootSlot = c := rfl
    rw [State.cfgNow, e, hb]
    have f (k : Nat) (hk : k < 2 ^ 32) : leNat (natLe 4 k) = k := by rw [leNat_natLe_mod]; exact Nat.mod_eq_of_lt hk
    have g : cfgRec (recBytes op addr value mask) s.attic.boot.record =
      ⟨leNat (natLe 4 op), leNat (natLe 4 addr), leNat (natLe 4 value), leNat (natLe 4 mask)⟩ := rfl
    rw [g, f _ ho, f _ ha, f _ hv, f _ hm]

/-- Every check of AUTH, where signatures verify (no proof can see whether one does). -/
theorem imaged_auth (c stage : Nat) (r : List Byte) (h : r.length = 16) (sig : ∀ k d g, Config.ecdsaOk k d g = true) :
    (imaged c stage r).authCheck c = 0 := by
  have f (o n : Nat) (hn : o + n ≤ 272) : (imaged c stage r).imgN c o n = leNat (slice imageHead o n) := congrArg leNat (imaged_head c stage r h o n hn)
  have e : ([(0, 4), (4, 2), (6, 2), (8, 2), (10, 2), (12, 2), (14, 2), (20, 1), (21, 1), (22, 2), (32, 1), (33, 3), (36, 4), (40, 1), (41, 7),
      (144, 112), (258, 2)].map fun p => leNat (slice imageHead p.1 p.2)) = [0x5852594C, 1, 256, 0x7140, 0, 65535, 1, 0, 0, 0, 0, 0, 2048, 0, 0, 0, 0] := by
    decide +kernel
  simp only [List.map_cons, List.map_nil, List.cons.injEq, and_true] at e
  have hl : (imaged c stage r).slotLen = 33488896 := by
    have e : (imaged c stage r).attic.flashLog2 = 26 := rfl
    simp [State.slotLen, State.flashSize, slotHead, e]
  have hd : (imaged c stage r).rdN atcDevid % 65536 ≤ 65535 := by omega
  have hk : (imaged c stage r).attic.keys = [KeySlot.reset, KeySlot.reset, KeySlot.reset, KeySlot.reset] := rfl
  have hv : (imaged c stage r).attic.fuseSvn = 0 := rfl
  have hx := imaged_sect c stage r h
  have hh : (imaged c stage r).headerCheck c = 0 := by
    simp [State.headerCheck, State.imgLen, State.sects, State.imgSects, f, e, hl, hd, hx, upto, firstDefect, Sect.blocks, List.range_succ]
  have hs : (imaged c stage r).signCheck c = 0 := by
    simp [State.signCheck, State.imgSvn, State.imgKey, f, e, hk, hv, sig, firstDefect, KeySlot.reset]
  simp [State.authCheck, hh, hs, State.sects, State.imgSects, State.entryOk, f, e, hx, upto, firstDefect, List.range_succ]

theorem imaged_full (c stage op addr value mask : Nat) (ho : op < 2 ^ 32) (ha : addr < 2 ^ 32) (hv : value < 2 ^ 32) (hm : mask < 2 ^ 32)
    (sig : ∀ k d g, Config.ecdsaOk k d g = true) (hc : (CfgRec.mk op addr value mask).check = 0) :
    (imaged c stage (recBytes op addr value mask)).fullCheck c = 0 := by
  have h := recBytes_length op addr value mask
  have hs : (imaged c stage (recBytes op addr value mask)).imgSects c = 1 := (congrArg leNat (imaged_head c stage _ h 14 2 (by omega))).trans (by decide +kernel)
  have hx := imaged_sect c stage _ h
  have hk := imaged_sectCheck c stage _ h
  have hb : (imaged c stage (recBytes op addr value mask)).sectBytes c ((imaged c stage (recBytes op addr value mask)).sect c 0) = recBytes op addr value mask := by
    rw [hx]; exact imaged_bytes c stage _ h
  have g : cfgRec (recBytes op addr value mask) 0 = ⟨leNat (natLe 4 op), leNat (natLe 4 addr), leNat (natLe 4 value), leNat (natLe 4 mask)⟩ := rfl
  have f (k : Nat) (hk : k < 2 ^ 32) : leNat (natLe 4 k) = k := by rw [leNat_natLe_mod]; exact Nat.mod_eq_of_lt hk
  rw [f _ ho, f _ ha, f _ hv, f _ hm] at g
  have ha := imaged_auth c stage _ h sig
  rw [State.fullCheck, ha]
  simp [State.sects, hs, upto, List.range_succ, hk, hb, firstDefect]
  simp [hx, g, hc, firstDefect, List.range_succ]

theorem witness_LoftsRegisterArithmetic : checks [
    [1, 2, 3, 4, 5, 6, 7, 8, 9, 10, 11, 12].all fun op => issuing (loft 9 op (fl 3 1 2 0) 7 (2 ^ 64 - 1) 32767) 9 op (fl 3 1 2 0),
    gives (exec (.add 9 (fl 3 1 2 0)) (loft 9 1 (fl 3 1 2 0) 7 (2 ^ 64 - 1) 32767)) (fun u =>
      ((u.thr 9).get 3 == 6) && (u.thr 9).pc == 0),
    gives (exec (.sar 9 (fl 0 1 2 0)) (loft 9 8 (fl 0 1 2 0) (2 ^ 63) 65 5)) (fun u => (u.thr 9).get 0 == 0),
    gives (exec (.mulh 9 (fl 3 1 2 0)) (loft 9 10 (fl 3 1 2 0) (2 ^ 63) 6 5)) (fun u => (u.thr 9).get 3 == 3),
    gives (exec (.slt 9 (fl 3 1 2 0)) (loft 9 11 (fl 3 1 2 0) (2 ^ 63) 6 5)) (fun u => (u.thr 9).get 3 == 1)] := by decide +kernel

theorem witness_LoftsBitFieldsAndImmediates : checks [
    [(0x0D, 64 * 8 + 4), (0x0E, 64 * 4 + 60), (0x0F, 0), (0x10, 0), (0x11, 1), (0x12, 2 ^ 41 - 1), (0x13, 5),
        (0x14, 5), (0x15, 63), (0x16, 63), (0x17, 63), (0x18, 2 ^ 40), (0x19, 2 ^ 41 - 1), (0x1A, 3)].all fun p =>
      let f := fl 3 (if p.1 = 0x18 ∨ p.1 = 0x19 then 0 else 1) 0 p.2; issuing (loft 9 p.1 f 0xF12 0 0) 9 p.1 f,
    gives (exec (.bext 9 (fl 3 1 0 (64 * 8 + 4))) (loft 9 0x0D (fl 3 1 0 (64 * 8 + 4)) 0xF12 0 0)) (fun u =>
      (u.thr 9).get 3 == 0xF1),
    gives (exec (.bswap 9 (fl 3 1 0 1)) (loft 9 0x1A (fl 3 1 0 1) 0x123456 0 0)) (fun u => (u.thr 9).get 3 == 0x5634),
    gives (exec (.li 9 (fl 3 0 0 (2 ^ 40))) (loft 9 0x18 (fl 3 0 0 (2 ^ 40)) 0 0 0)) (fun u =>
      (u.thr 9).get 3 == 0xFFFFFF0000000000),
    gives (exec (.clz 9 (fl 3 1 0 0)) (loft 9 0x10 (fl 3 1 0 0) 0 0 0)) (fun u => (u.thr 9).get 3 == 64)] := by decide +kernel

theorem witness_LoftsBranchesAndJumps : checks [
    [0x20, 0x21, 0x22, 0x23, 0x24, 0x25].all fun op =>
      issuing (loft 9 op (fl 0 1 2 (2 ^ 41 - 4)) 7 7 5) 9 op (fl 0 1 2 (2 ^ 41 - 4)),
    issuing (loft 9 0 (fl 0 0 0 0) 7 7 5) 9 0 (fl 0 0 0 0),
    issuing (loft 9 0x26 (fl 3 0 0 8) 7 7 5) 9 0x26 (fl 3 0 0 8),
    issuing (loft 9 0x27 (fl 3 1 0 8) 7 7 5) 9 0x27 (fl 3 1 0 8),
    gives (exec (.beq 9 (fl 0 1 2 (2 ^ 41 - 4))) (loft 9 0x20 (fl 0 1 2 (2 ^ 41 - 4)) 7 7 5)) (fun u => (u.thr 9).pc == 1),
    gives (exec (.jalr 9 (fl 3 1 0 8)) (loft 9 0x27 (fl 3 1 0 8) 32767 0 5)) (fun u =>
      (u.thr 9).pc == 7 && (u.thr 9).get 3 == 6)] := by decide +kernel

/-- An instruction with the size field SZ (2 to the power SZ bytes) and an offset. -/
def flm (d a b sz off : Nat) : LFields := fl d a b (off % 2 ^ 39 + sz * 2 ^ 39)


/-- What a load, store or atomic of thread `t` at `x1` with data `x2` assumes for place `r`. -/
def reaches (t op : Nat) (f : LFields) (n : Nat) (rd wr : Bool) (r : LftRef) (s : State) : Bool :=
  issuing s t op f && decide ((s.xa t f + f.offset).toNat % n = 0 ∧
    s.lftRef t (s.xa t f + f.offset).toNat n rd wr = some r ∧ s.ecc = [])

/-- The Attic controller runs an instruction word at its pc 0. -/
def ctrl (op : Nat) (f : LFields) (x1 x2 : Nat) : State :=
  let s := State.reset.wf atcCtrl 31 30 1
  { s with
    lft := { s.lft with
      threads := [(4096, { Thread.init with state := 1, x := [(1, BitVec.ofNat 64 x1), (2, BitVec.ofNat 64 x2)] })] }
    attic := { s.attic with mem := memWrite 0 [] 0 (natLe 8 (lftEncode op f).toNat) } }

theorem witness_LoftsLoadsStoresAtomics : checks [
    reaches 9 0x30 (flm 3 1 0 3 8) 8 true false (.loc (65536 + 8192 + 0x17F8)) (loft 9 0x30 (flm 3 1 0 3 8) 0x17F0 0 0),
    reaches 9 0x31 (flm 3 1 0 0 0) 1 true false (.sh 0x3EFFF) (loft 9 0x31 (flm 3 1 0 0 0) 0x7EFFF 0 0),
    reaches 8 0x32 (flm 0 1 2 2 0) 4 false true (.loc (65536 + 0xFFFC)) (loft 8 0x32 (flm 0 1 2 2 0) 0x1FFFC 5 0),
    [0x33, 0x34, 0x35].all fun op => issuing (loft 9 op (fl 3 1 2 0) 16 5 0) 9 op (fl 3 1 2 0) &&
      decide ((loft 9 op (fl 3 1 2 0) 16 5 0).lftRef 9 16 8 true true = some (.loc (65536 + 8192 + 16))),
    issuing (ctrl 0x30 (flm 3 1 0 2 0) 0x8000000C 0) 4096 0x30 (flm 3 1 0 2 0),
    (ctrl 0x30 (flm 3 1 0 2 0) 0x80000004 0).lftRef 4096 0x80000004 4 true false = some (.reg 4),
    issuing (ctrl 0x32 (flm 0 1 2 2 0) 0x8000000C 0) 4096 0x32 (flm 0 1 2 2 0),
    gives (exec (.ld 4096 (flm 3 1 0 2 0)) (ctrl 0x30 (flm 3 1 0 2 0) 0x80000004 0)) (fun u =>
      (u.thr 4096).get 3 == 0x71400101),
    gives (exec (.st 8 (flm 0 1 2 2 0)) (loft 8 0x32 (flm 0 1 2 2 0) 0x1FFFC 0x12345678 0)) (fun u =>
      u.lft.localMem == [(131068, 0x78), (131069, 0x56), (131070, 0x34), (131071, 0x12)]),
    gives (exec (.lds 9 (flm 3 1 0 0 0)) { loft 9 0x31 (flm 3 1 0 0 0) 0x40000 0 0 with
      lft := { (loft 9 0x31 (flm 3 1 0 0 0) 0x40000 0 0).lft with shared := [(0, 0x80)] } }) (fun u =>
      (u.thr 9).get 3 == 0xFFFFFFFFFFFFFF80)] := by decide +kernel

theorem witness_LoftsMemoryFaults : checks [
    issuing (loft 9 0x30 (flm 3 1 0 3 0) 4 0 0) 9 0x30 (flm 3 1 0 3 0),
    (loft 9 0x30 (flm 3 1 0 3 0) 0x2000 0 0).lftRef 9 0x2000 8 true false = none,
    issuing (loft 9 0x32 (flm 0 1 2 3 0) 0x7F000 0 0) 9 0x32 (flm 0 1 2 3 0),
    (loft 9 0x32 (flm 0 1 2 3 0) 0x7F000 0 0).lftRef 9 0x7F000 8 false true = none,
    issuing (loft 9 0x33 (fl 3 1 2 0) 12 0 0) 9 0x33 (fl 3 1 2 0),
    gives (exec (.ld 9 (flm 3 1 0 3 0)) (loft 9 0x30 (flm 3 1 0 3 0) 4 0 0)) (fun u =>
      (u.thr 9).finfo == 0x402 && (u.thr 9).state == 4),
    gives (exec (.ld 8 (flm 3 1 0 3 0)) (loft 8 0x30 (flm 3 1 0 3 0) 0x20000 0 0)) (fun u =>
      (u.thr 8).finfo == 0x2000003 && (u.thr 8).state == 0 && u.rf (lftEngStatus 1) 31 30 == 1),
    gives (exec (.ld 9 (flm 3 1 0 3 0)) ((loft 9 0x30 (flm 3 1 0 3 0) 8 0 0).eccFlag .lftLocal 9217 .uncorr)) (fun u =>
      (u.thr 9).finfo == 0x809),
    gives (exec (.amoAdd 9 (fl 3 1 2 0)) (loft 9 0x33 (fl 3 1 2 0) 12 0 0)) (fun u => (u.thr 9).finfo == 0xC02),
    gives (exec (.st 9 (flm 0 1 2 3 0)) (loft 9 0x32 (flm 0 1 2 3 0) 0x7F000 0 0)) (fun u =>
      (u.thr 9).finfo == 0x7F00003)] := by decide +kernel

/-- A ticket in a buffer of the pools partition, and thread `t` that holds it. -/
def heldTicket (s : State) (t : Nat) : State :=
  let k : Ticket := { Ticket.init with buf := 96 * 2 ^ 30, cap := 1280, dataLen := 100, headLen := 64, inPort := 33 }
  withThr { s with lft := { s.lft with tickets := [(5, k)] } } t fun x => { x with ticket := some 5 }

theorem witness_LoftsTicketInstructions : checks [
    [(0x40, fl 3 0 0 0), (0x41, fl 3 1 2 100), (0x42, fl 3 1 2 1280), (0x43, fl 3 1 0 0), (0x44, fl 3 1 0 0),
        (0x45, fl 3 1 0 0), (0x46, fl 3 0 0 0)].all fun p =>
      issuing (heldTicket (loft 9 p.1 p.2 0 0 0) 9) 9 p.1 p.2 && ((heldTicket (loft 9 p.1 p.2 0 0 0) 9).thr 9).ticket == some 5,
    issuing (loft 9 0x40 (fl 3 0 0 0) 0 0 0) 9 0x40 (fl 3 0 0 0),
    ((heldTicket (loft 9 0x41 (fl 3 1 2 100) 0 0 0) 9).lftRefs 9 0 100 false true).isSome,
    (((heldTicket (loft 9 0x41 (fl 3 1 2 100) 0 0 0) 9).fetched 9).celRead 0x13 (96 * 2 ^ 30 + 768) 100).2.isSome,
    (((heldTicket (loft 9 0x42 (fl 3 1 2 1280) 0 0 0) 9).fetched 9).refsRead
      (((heldTicket (loft 9 0x42 (fl 3 1 2 1280) 0 0 0) 9).lftRefs 9 0 1280 true false).getD [])).2.isSome,
    gives (exec (.tkNext 9 (fl 3 0 0 0)) (loft 9 0x40 (fl 3 0 0 0) 0 0 0)) (fun u => (u.thr 9).get 3 == bit63),
    gives (exec (.tkNext 9 (fl 3 0 0 0)) (withThr (heldTicket (loft 9 0x40 (fl 3 0 0 0) 0 0 0) 9) 9 fun x =>
      { x with ticket := none, queue := [5] })) (fun u => (u.thr 9).ticket == some 5 && (u.thr 9).queue == []),
    gives (exec (.tkNext 9 (fl 3 0 0 0)) (heldTicket (loft 9 0x40 (fl 3 0 0 0) 0 0 0) 9)) (fun u => (u.thr 9).finfo == 5),
    gives (exec (.pktRd 9 (fl 3 1 2 101)) (heldTicket (loft 9 0x41 (fl 3 1 2 101) 0 0 0) 9)) (fun u =>
      (u.thr 9).wait == some ⟨3, 1, none⟩),
    gives (exec (.tkDone 9 (fl 3 0 0 0)) (heldTicket (loft 9 0x46 (fl 3 0 0 0) 0 0 0) 9)) (fun u =>
      (u.thr 9).wait == some ⟨3, 0, none⟩ && u.lft.tickets == []),
    gives (exec (.tkDone 9 (fl 3 0 0 0)) (loft 9 0x46 (fl 3 0 0 0) 0 0 0)) (fun u => (u.thr 9).finfo == 5),
    gives (exec (.tkReinject 9 (fl 3 1 0 0)) (heldTicket (loft 9 0x44 (fl 3 1 0 0) 0 0 0) 9)) (fun u =>
      (u.thr 9).wait == some ⟨3, 0, none⟩ && u.lft.tickets == []),
    gives (exec (.tkEmit 9 (fl 3 1 0 0)) (heldTicket (loft 9 0x43 (fl 3 1 0 0) 1 0 0) 9)) (fun u =>
      (u.thr 9).wait == some ⟨3, 0, none⟩ && u.lft.tickets == [])] := by decide +kernel


/-- Bytes put into engine-local memory. -/
def withLocal (s : State) (a : Nat) (bs : List Byte) : State :=
  { s with lft := { s.lft with localMem := memWrite 0 s.lft.localMem a bs } }

/-- Every register WRAP as it was, and all but the named parts: what two states agree in, decided on the parts a test names. -/
def waitsIn (u : State) (t d v : Nat) : Bool := (u.thr t).state == 2 && decide ((u.thr t).wait = some ⟨d, BitVec.ofNat 64 v, none⟩)

theorem witness_LoftsUnitsAndLetterboxes : checks [
    issuing (loft 9 0x50 (fl 3 1 0 0) 16 0 0) 9 0x50 (fl 3 1 0 0),
    ((loft 9 0x50 (fl 3 1 0 0) 16 0 0).lftRefs 9 16 208 true true).isSome,
    gives (exec (.tbl 9 (fl 3 1 0 0)) (withLocal (loft 9 0x50 (fl 3 1 0 0) 16 0 0) (65536 + 8192 + 16) (natLe 4 7))) (fun u =>
      (u.thr 9).state == 2 && ((u.thr 9).wait.map (·.d)) == some 3),
    issuing (loft 9 0x51 (fl 3 1 2 63) 0 5 0) 9 0x51 (fl 3 1 2 63),
    gives (exec (.chk 9 (fl 3 1 2 63)) ((loft 9 0x51 (fl 3 1 2 63) 0 9 0).wrN (chkProfCfg 63) 0x80000001)) (fun u =>
      (u.thr 9).state == 2),
    issuing (loft 9 0x52 (fl 3 1 0 0) 16 0 0) 9 0x52 (fl 3 1 0 0),
    gives (exec (.dma 9 (fl 3 1 0 0)) ((withLocal (loft 9 0x52 (fl 3 1 0 0) 16 0 0) (65536 + 8192 + 16)
      (natLe 8 (64 * 2 ^ 30) ++ natLe 4 64 ++ natLe 4 (65536 + 8) ++ List.replicate 32 0 ++ [0xAB])).wf (lftLoftCfg 0) 6 4 7)) (fun u =>
      u.cel.mem == [(64 * 2 ^ 30, 0xAB)] && waitsIn u 9 3 0),
    gives (exec (.dma 9 (fl 3 1 0 0)) (let s := (withLocal (loft 9 0x52 (fl 3 1 0 0) 16 0 0) (65536 + 8192 + 16)
      (natLe 8 (64 * 2 ^ 30) ++ natLe 4 64 ++ natLe 4 4096)).wf (lftLoftCfg 0) 6 4 7
      { s with cel := { s.cel with mem := [(64 * 2 ^ 30 + 4095, 0x7F)] } })) (fun u =>
      tget 0 u.lft.localMem (65536 + 8192 + 64 + 4095) == 0x7F && waitsIn u 9 3 0),
    gives (exec (.lbPut 9 (fl 0 1 0 7)) (loft 9 0x60 (fl 0 1 0 7) 16 0 0)) (fun u => (u.thr 9).staging == [(7, 16)] &&
      (u.thr 9).pc == 1),
    gives (exec (.lbDrop 9 (fl 0 0 0 0)) (withThr (loft 9 0x62 (fl 0 0 0 0) 16 0 0) 9 fun x => { x with staging := [(7, 16)] }))
      (fun u => (u.thr 9).staging == [] && (u.thr 9).pc == 1),
    gives (exec (.lbSend 9 (fl 3 1 0 8)) (withThr ((loft 9 0x61 (fl 3 1 0 8) 10 0 0)) 9 fun x => { x with staging := [(7, 16)] }))
      (fun u => (u.thr 10).letters == [⟨9, [0, 0, 0, 0, 0, 0, 0, 16]⟩] && waitsIn u 9 3 0),
    gives (exec (.lbSend 9 (fl 3 1 0 1)) (withThr (loft 9 0x61 (fl 3 1 0 1) 10 0 0) 10 fun x =>
      { x with letters := List.replicate 4 ⟨1, []⟩ })) (fun u => (u.thr 10).letters.length == 4 && waitsIn u 9 3 1),
    gives (exec (.lbRecv 9 (fl 3 1 0 0)) (loft 9 0x63 (fl 3 1 0 0) 8 0 0)) (fun u => (u.thr 9).get 3 == bit63),
    gives (exec (.lbRecv 9 (fl 3 1 0 0)) (withThr (loft 9 0x63 (fl 3 1 0 0) 8 0 0) 9 fun x =>
      { x with letters := [⟨4095, [1, 2]⟩, ⟨1, []⟩] })) (fun u => (u.thr 9).get 3 == 0x20FFF && (u.thr 9).letters == [⟨1, []⟩])] := by decide +kernel

theorem witness_LoftsWaitingTimeAndStops : checks [
    issuing (loft 9 0x70 (fl 3 0 0 (2 ^ 19 - 1)) 0 0 0) 9 0x70 (fl 3 0 0 (2 ^ 19 - 1)),
    gives (exec (.wfe 9 (fl 3 0 0 1)) (loft 9 0x70 (fl 3 0 0 1) 0 0 0)) (fun u => (u.thr 9).state == 2 && (u.thr 9).pc == 0 &&
      decide ((u.thr 9).wait = some ⟨3, 0, some 1⟩)),
    gives (exec (.wfe 9 (fl 3 0 0 5)) (let s := loft 9 0x70 (fl 3 0 0 5) 0 0 0
      { s with lft := { s.lft with engines := [(1, { Engine.init with flags := 4 })] } })) (fun u => (u.thr 9).get 3 == 4),
    gives (exec (.evSet 9 (fl 0 0 0 0x8001)) (loft 9 0x71 (fl 0 0 0 0x8001) 0 0 0)) (fun u => (u.eng 1).flags == 0x8001),
    gives (exec (.evClr 9 (fl 0 0 0 0x8001)) (let s := loft 9 0x72 (fl 0 0 0 0x8001) 0 0 0
      { s with lft := { s.lft with engines := [(1, { Engine.init with flags := 0xFFFF })] } })) (fun u => (u.eng 1).flags == 0x7FFE),
    gives (exec (.tmr 9 (fl 0 1 0 0)) (loft 9 0x73 (fl 0 1 0 0) 99 0 0)) (fun u => (u.thr 9).timer == 99),
    gives (exec (.time 9 (fl 3 0 0 0)) { loft 9 0x74 (fl 3 0 0 0) 0 0 0 with time := 7 * 2 ^ 24 + 5 }) (fun u =>
      (u.thr 9).get 3 == 7),
    gives (exec (.bell 9 (fl 0 1 0 0)) (loft 9 0x7B (fl 0 1 0 0) 1023 0 0)) (fun u => u.isPending 4095 && (u.thr 9).pc == 1),
    gives (exec (.vret 8 (fl 0 0 0 0)) (withThr (loft 8 0x7C (fl 0 0 0 0) 0 0 0) 8 fun x => { x with inVector := true, vret := 77 }))
      (fun u => (u.thr 8).pc == 77 && (u.thr 8).tail),
    gives (exec (.vret 8 (fl 0 0 0 0)) (loft 8 0x7C (fl 0 0 0 0) 0 0 0)) (fun u => (u.thr 8).finfo == 4),
    gives (exec (.trap 9 (fl 0 0 0 5)) (loft 9 0x7D (fl 0 0 0 5) 0 0 0)) (fun u => (u.thr 9).finfo == 0x507),
    gives (exec (.brk 9 (fl 0 0 0 0)) (loft 9 0x7E (fl 0 0 0 0) 0 0 0)) (fun u => (u.thr 9).finfo == 8),
    gives (exec (.brk 9 (fl 0 0 0 0)) ((loft 9 0x7E (fl 0 0 0 0) 0 0 0).setB lftDbgSel 31)) (fun u => (u.thr 9).state == 3),
    gives (exec (.stop 9 (fl 0 0 0 0)) (loft 9 0x7F (fl 0 0 0 0) 0 0 0)) (fun u => (u.thr 9).state == 0 && (u.thr 9).pc == 1),
    gives (exec (.stop 4096 (fl 0 0 0 0)) (ctrl 0x7F (fl 0 0 0 0) 0 0)) (fun u => (u.thr 4096).state == 0)] := by decide +kernel

theorem witness_LoftsThreadControl : checks [
    (loft 8 0x75 (fl 3 1 2 31) 15 0 0).isMaster 8 15, !(loft 9 0x77 (fl 3 1 0 0) 15 0 0).isMaster 9 15,
    [(0x75, fl 3 1 2 31), (0x76, fl 3 1 0 31), (0x77, fl 3 1 0 0), (0x78, fl 3 1 0 0), (0x79, fl 3 1 0 0), (0x7A, fl 3 1 0 0)].all
      fun p => issuing (loft 8 p.1 p.2 15 5 0) 8 p.1 p.2,
    gives (exec (.thrWreg 8 (fl 3 1 2 31)) (loft 8 0x75 (fl 3 1 2 31) 15 5 0)) (fun u => (u.thr 15).get 31 == 5 && waitsIn u 8 3 0),
    gives (exec (.thrRreg 8 (fl 3 1 0 31)) (withThr (loft 8 0x76 (fl 3 1 0 31) 15 5 0) 15 fun x => { x with x := [(31, 9)] }))
      (fun u => waitsIn u 8 3 9),
    gives (exec (.thrStart 8 (fl 3 1 0 0)) (loft 8 0x77 (fl 3 1 0 0) 15 5 0)) (fun u => (u.thr 15).state == 1 && waitsIn u 8 3 0),
    gives (exec (.thrStop 8 (fl 3 1 0 0)) (withThr (loft 8 0x78 (fl 3 1 0 0) 15 5 0) 15 fun x => { x with state := 1 }))
      (fun u => (u.thr 15).state == 0 && waitsIn u 8 3 0),
    gives (exec (.thrReset 8 (fl 3 1 0 0)) (withThr (loft 8 0x79 (fl 3 1 0 0) 15 5 0) 15 fun x => { x with pc := 9, queue := [4] }))
      (fun u => decide (u.thr 15 = { Thread.init with queue := [4] }) && waitsIn u 8 3 0),
    gives (exec (.thrStat 8 (fl 3 1 0 0)) (loft 8 0x7A (fl 3 1 0 0) 15 5 0)) (fun u =>
      waitsIn u 8 3 ((loft 8 0x7A (fl 3 1 0 0) 15 5 0).thr 15).status.toNat),
    gives (exec (.thrStart 9 (fl 3 1 0 0)) (loft 9 0x77 (fl 3 1 0 0) 15 0 0)) (fun u => waitsIn u 9 3 1)] := by decide +kernel

theorem witness_LoftsEngineEvents : checks [
    gives (exec (.wInstructionComplete 9) (withThr (loft 9 0 (fl 0 0 0 0) 0 0 32767) 9 fun x =>
      { x with state := 2, wait := some ⟨3, 8, none⟩ })) (fun u => (u.thr 9).pc == 0 && (u.thr 9).get 3 == 8 && (u.thr 9).state == 1),
    gives (exec (.timerDeadline 9) { withThr (loft 9 0 (fl 0 0 0 0) 0 0 0) 9 (fun x =>
      { x with state := 2, timer := 5, wait := some ⟨3, 0, some (2 ^ 18)⟩ }) with time := 5 * 2 ^ 24 }) (fun u =>
      (u.thr 9).pc == 1 && (u.thr 9).state == 1 && decide ((u.thr 9).wait = none)),
    gives (exec (.ticketEnqueue 5) (let s := ((loft 9 0 (fl 0 0 0 0) 0 0 0).wrN (lftProg 0) 0x80000000).wrN (lftGroup 0) (0x80001009)
      { s with lft := { s.lft with tickets := [(5, { Ticket.init with buf := 1 })] } })) (fun u => (u.thr 9).queue == [5]),
    gives (exec (.breakpointHalt 9) (((loft 9 0 (fl 0 0 0 0) 0 0 7).setB lftDbgSel 31).wrN (lftDbgBp 0) (2 ^ 31 + 2 ^ 16 + 7)))
      (fun u => (u.thr 9).state == 3),
    gives (exec (.engineStop 1) (loft 9 0 (fl 0 0 0 0) 0 0 7)) (fun u => (u.thr 9).state == 0 && u.rf (lftEngStatus 1) 31 30 == 1),
    gives (exec (.engineRestart 1) (State.reset.wrN (lftEngCfg 1) (2 ^ 31 + 77))) (fun u => (u.thr 8).pc == 77 &&
      (u.thr 8).state == 1 && u.rf (lftEngStatus 1) 31 30 == 0),
    gives (exec (.loftWake 0) (withThr (State.reset.setB (gatedLoft 0) 0) 9 fun x => { x with letters := [⟨1, []⟩] })) (fun u =>
      !(u.loftGated 0)),
    gives (exec (.loftsScrub 2 4 .corr) State.reset) (fun u => u.rb lftErr 1 && u.eccOf .lftIs 4 == .ok),
    gives (exec (.crwReserveWrite (BitVec.ofNat 32 (4 * 65536 + 60))) State.reset) (fun u => u.rf lftCrwCfg 18 16 == 4 &&
      u.rf lftCrwCfg 5 0 == 60 && u.rdN crwBuildInfo == 256),
    gives (exec (.waitDeadlock 1) (withThr (((loft 9 0 (fl 0 0 0 0) 0 0 0).wrN (lftEngCfg 1) 0x10000).putB (belMask 16) 1 false) 9 fun x =>
      { x with state := 2, wait := some ⟨0, 0, some 1⟩ })) (fun u => (u.eng 1).dlFired)] := by decide +kernel

theorem witness_LoftsHostCommands : checks [
    gives (exec (.hostIsWrite 32760) ((State.reset.wrN lftCmdLoftsLo 3).wrN (lftData 0) 7)) (fun u =>
      u.lft.istore == [(32760, 7), (65528, 7)] && u.rf lftCmdStatus 31 24 == 0),
    gives (exec (.hostIsRead 32760) { State.reset.wrN lftCmdLoftsLo 2 with lft := { State.reset.lft with istore := [(65535, 9)] } })
      (fun u => u.lftWord 7 == 9 && u.rf lftCmdStatus 31 24 == 0),
    gives (exec (.hostShWrite 4095) ((State.reset.wrN lftCmdLoftsLo 1).wrN (lftData 15) 0xAA000000)) (fun u =>
      u.lft.shared == [(262143, 0xAA)]),
    gives (exec (.hostShRead 4095) { State.reset.wrN lftCmdLoftsLo 1 with lft := { State.reset.lft with shared := [(262143, 0xAA)] } })
      (fun u => u.lftWord 7 == 0xAA00000000000000),
    gives (exec (.hostThrStart 4095) ((State.reset.wf (lftEngStatus 511) 31 30 0).wrN (lftData 0) 32767)) (fun u =>
      (u.thr 4095).pc == 32767 && (u.thr 4095).state == 1),
    gives (exec (.hostThrStop 9) (loft 9 0 (fl 0 0 0 0) 0 0 7)) (fun u => (u.thr 9).state == 0 && u.rf lftCmdStatus 31 24 == 0),
    gives (exec (.hostThrReset 9) (withThr State.reset 9 fun x => { x with state := 4, pc := 7 })) (fun u =>
      (u.thr 9).state == 0 && (u.thr 9).pc == 0)] := by decide +kernel

theorem witness_LoftsDebugger : checks [
    gives (exec .dbgHalt ((loft 9 0 (fl 0 0 0 0) 0 0 7).wrN lftDbgSel (2 ^ 31 + 9))) (fun u => (u.thr 9).state == 3 &&
      u.rf lftDbgStatus 31 24 == 0),
    gives (exec .dbgResume (withThr ((loft 9 0 (fl 0 0 0 0) 0 0 7).wrN lftDbgSel 9) 9 fun x => { x with state := 3 })) (fun u =>
      (u.thr 9).state == 1),
    gives (exec .dbgStep (withThr ((loft 9 1 (fl 3 1 2 0) 4 5 7).wrN lftDbgSel 9) 9 fun x => { x with state := 3 })) (fun u =>
      (u.thr 9).state == 3 && (u.thr 9).pc == 8 && (u.thr 9).get 3 == 9),
    gives (exec (.dbgRead 31) (withThr (State.reset.wrN lftDbgSel 9) 9 fun x => { x with state := 3, x := [(31, 0x8000000000000000)] }))
      (fun u => u.rd64 lftDbgDataLo == 2 ^ 63),
    gives (exec (.dbgWrite 31) ((withThr (State.reset.wrN lftDbgSel 9) 9 fun x => { x with state := 3 }).wrN lftDbgDataHi 1))
      (fun u => (u.thr 9).get 31 == 0x100000000),
    gives (exec .dbgHaltEngine ((loft 9 0 (fl 0 0 0 0) 0 0 7).wrN lftDbgSel 15)) (fun u => (u.thr 9).state == 3),
    gives (exec .dbgResumeEngine (withThr ((loft 9 0 (fl 0 0 0 0) 0 0 7).wrN lftDbgSel 15) 9 fun x => { x with state := 3 })) (fun u =>
      (u.thr 9).state == 1),
    gives (exec .dbgHalt (((loft 9 0 (fl 0 0 0 0) 0 0 7).wrN lftDbgSel 9).wrN lftCrwCfg 0x10000)) (fun u => (u.thr 9).state == 1 &&
      u.rf lftDbgStatus 31 24 == 2)] := by decide +kernel


/-! ## Registers, Bellboard, Porch -/

/-- The part has reached DONE. -/
def live : State := State.reset.wf atcBootStatus 31 28 8

/-- Port `n` is enabled and its link is up. -/
def up (n : Nat) : State := (live.wrN (pchPortStatus n) 0x31).wrN (pchPortCfg n) 1

/-- The two outcomes are the same. -/
def same (o p : Host.Outcome State Fault Refusal) : Bool := gives o fun u => gives p fun t => decide (u = t)

theorem witness_MisalignedAndReservedAccesses : checks [
    gives (exec (.misalignedRegisterAccess 3 false 0x1FFFFFFE 2) State.reset) (fun u => u.rdata == 0xFFFF &&
      u.mast.waiting == [⟨0x30, 0, 0x1FFFFFFE, 0⟩]),
    gives (exec (.misalignedRegisterAccess 3 true 2 4) State.reset) (fun u => u.mast.waiting == [⟨0x30, 0, 2, 0⟩] &&
      u.regs == State.reset.regs),
    State.reset.noReg 0xC, State.reset.noReg 0x11000000, State.reset.noReg 0x1FFFFFFC, !State.reset.noReg 0,
    gives (exec (.reservedOffsetAccess false 0x11000000) { State.reset with rdata := 5 }) (fun u => u.rdata == 0 &&
      u.mast.reservedAccesses == 1),
    gives (exec (.reservedOffsetAccess true 0xC) State.reset) (fun u => u.mast.reservedAccesses == 1),
    (State.reset.busWrite 0 atcTimeIncr [0, 0, 0, 0x28]).rd atcTimeIncr == 0x28000000] := by decide +kernel

theorem witness_RegisterAccessCodes : checks [
    gives (exec (.registerWrite (lftData 15) 7) live) (fun u => u.rd (lftData 15) == 7),
    gives (exec (.registerWrite (lftData 15) 7) (live.setB lftCmd 31)) (fun u => u.rd (lftData 15) == 0),
    gives (exec (.registerWrite 0x10000000 7) live) (fun u => u.rd 0x10000000 == 0x10000),
    kindAt atcTimeLo == some .pairLo,
    gives (exec (.pairLowerRead atcTimeLo) { live with time := (2 ^ 32 + 5) * 2 ^ 24 }) (fun u => u.rdata == 5 &&
      (u.busRead 0 atcTimeHi 4).rdata == 1),
    gives (exec (.registerWrite lftDbgDataLo 5) live) (fun t => gives (exec (.pairUpperWrite lftDbgDataHi 9) t) fun u =>
      u.rd64 lftDbgDataLo == 9 * 2 ^ 32 + 5 && u.held == []),
    gives (exec (.rcFieldRead celErr) (live.wrN celErr 0x7F)) (fun u => u.rdata == 0x7F && u.rd celErr == 0),
    gives (exec (.setRegisterWrite (belPend 127) 0x80000001) (live.wrN (belPend 127) 2)) (fun u => u.rd (belPend 127) == 0x80000003),
    gives (exec (.clrRegisterWrite (belMaskClr 0) 1) live) (fun u => u.rd (belMask 0) == 0xFFFFFFFE)] := by decide +kernel

/-- Source `n` is routed to a target, unmasked and pending. -/
def pends (s : State) (n kind index prio vec : Nat) : State :=
  ((s.wrN (belRoute n) (prio * 2 ^ 28 + kind * 2 ^ 25 + index * 2 ^ 16 + vec)).putB (belMask (n / 32)) (n % 32) false).putB
    (belPend (n / 32)) (n % 32) true

theorem witness_BellboardSourcesAndArbitration : checks [
    gives (exec (.sourceAssert 4095) (live.pulse 4095)) (fun u => u.isPending 4095 && !(shas u.bell.pulses 4095)),
    gives (exec (.sourceAssert 1282) (live.wf mstStatus 31 30 1)) (fun u => u.isPending 1282 && shas u.bell.condSeen 1282),
    gives (exec (.bellPull 1023) live) (fun u => u.isPending 4095 && !(u.isPending 4094)),
    gives (exec (.bellPull 1023) (live.putB (belPend 127) 31 true)) (fun u => u.mast.ctrs == [(ctrKey evBelBellCoalesced 0 0, 1, 0)]),
    gives (exec (.bellPull 1024) live) (fun u => u.mast.ctrs == [(ctrKey evBelBellBad 0 0, 1, 0)]),
    let s := pends (pends (pends live 3072 3 1 2 0) 4095 3 1 2 9) 3100 3 1 1 0
    s.winner 514 == some 3072 && gives (exec (.arbitrate 514 []) s) (fun u => u.isActive 3072 && !(u.isPending 3072) &&
      u.rd (belTgt 514) == 0x80000C00),
    let s := pends (live.wf (lftEngStatus 5) 31 30 0) 3072 1 5 2 7
    s.winner 5 == some 3072 && gives (exec (.arbitrate 5 []) s) (fun u => u.bell.arb == [(5, 3072)]) &&
      gives (exec (.arbitrate 5 []) { s with bell := { s.bell with arb := [(5, 9)] } }) (fun u => u.bell.arb == [(5, 3072)] &&
        u.mast.ctrs == [(ctrKey evBelSwitch 5 0, 1, 0)]),
    gives (exec (.arbitrate 5 []) { live with bell := { live.bell with arb := [(5, 9)] } }) (fun u => u.bell.arb == []),
    (live.winner 5).isNone] := by decide +kernel

theorem witness_BellboardVectorsRoutesAndCompletion : checks [
    let s := pends (loft 8 0 (fl 0 0 0 0) 0 0 77) 3072 1 1 2 32767
    gives (exec (.vectorCommit 1) { s with bell := { s.bell with arb := [(1, 3072)] } }) (fun u => (u.thr 8).pc == 32767 &&
      (u.thr 8).vret == 77 && (u.thr 8).inVector && u.isActive 3072 && u.rd (belTgt 1) == 0x80000C00),
    let s := pends (ctrl 0 (fl 0 0 0 0) 0 0) 3072 2 0 2 9
    gives (exec .atticVector { s with bell := { s.bell with arb := [(512, 3072)] } }) (fun u => (u.thr 4096).pc == 9 &&
      u.isActive 3072),
    stays (exec (.vectorCommit 1) live) live,
    let f : DwyFn := { DwyFn.init 0 with msixEn := true, busMaster := true }
    let s := { live with
      bell := { live.bell with msix := [7] }, dwy := { live.dwy with fns := [(0, f)], msix := [(7, ⟨99, 5, false⟩)] } }
    gives (exec (.msixSend 0 7) s) (fun u => u.outbox == [.msix 0 7 99 5] && u.bell.msix == []) &&
      let t := { s.wrN (belFnMod 0) 5 with bell := { s.bell with msixLast := [(7, 10)] }, time := 5009 * 2 ^ 24 }
      stays (exec (.msixSend 0 7) t) t,
    let s := (live.wrN (belTgt 513) 0x80000FFF).putB (belActive 127) 31 true
    gives (exec (.eoiWrite 0 0xFFF) s) (fun u => !(u.isActive 4095) && u.rd (belTgt 513) == 0) &&
      same (exec (.eoiWrite 0 0xFFE) s) (.next (s.count evBelEoiBad 0 0)),
    gives (exec (.routeWrite 4095 0xF63F07FF) live) (fun u => u.rd (belRoute 4095) == 0xF63F07FF),
    same (exec (.routeWrite 4095 0xF63F0800) live) (.next (live.setB belErr 0)),
    same (exec (.routeWrite 4095 0xF8000000) live) (.next (live.setB belErr 0)),
    stays (exec (.routeScrub 4095 .ok) live) live,
    gives (exec (.routeScrub 4095 .corr) live) (fun u => u.rb belErr 1 && u.ecc == []),
    gives (exec (.routeScrub 4095 .uncorr) live) (fun u => u.rb belErr 2 && u.rdN belErrLoc == 4095 && (u.targetOf 4095).isNone)] := by decide +kernel


/-- A frame of `n` bytes with its FCS, good or inverted. -/
def wire (n : Nat) (bad : Bool) : List Byte := List.replicate (n - 4) 0xAA ++ fcsOf (List.replicate (n - 4) 0xAA) bad

theorem witness_PorchReceiveAndLinks : checks [
    stays (exec (.frameReceive 3 (wire 64 false) false 64 0 0) live) live,
    gives (exec (.frameReceive 3 (wire 64 false) false 64 0 0) (up 3)) (fun u => (u.sl 0).headQ == [u.pipe.nextFid - 1] &&
      (u.frame (u.pipe.nextFid - 1)).units == unitsOf 64 && !(u.frame (u.pipe.nextFid - 1)).bad),
    gives (exec (.frameReceive 3 (wire 64 true) false 64 0 0) (up 3)) (fun u => (u.frame (u.pipe.nextFid - 1)).bad),
    gives (exec (.frameReceive 3 (wire 63 false) false 63 0 0) (up 3)) (fun u => u.pipe.frames == [] &&
      (u.port 3).rx.isNone),
    stays (exec (.sliceWake 15) live) live,
    gives (exec (.sliceWake 15) (live.setB atcPwrStatus 15)) (fun u => !(u.sliceGated 15)),
    let s := (live.setB atcPwrStatus 0).newFrame { Frame.init with len := 64 }
    gives (exec (.sliceWake 0) (s.1.setSl 0 { Slice.init with wake := [s.2] })) (fun u => (u.sl 0).headQ == [s.2] &&
      (u.frame s.2).units == unitsOf 64),
    gives (exec (.linkUp 3) ((live.wrN (pchPortStatus 3) 0x20).wrN (pchPortCfg 3) 9)) (fun u => u.linkUp 3 &&
      u.rb (pchPortStatus 3) 3),
    stays (exec (.linkUp 3) (up 3)) (up 3), stays (exec (.linkDown 3) live) live,
    gives (exec (.linkDown 3) (up 3)) (fun u => !(u.linkUp 3) && u.rb (pchPortErr 3) 5),
    same (exec (.autoNegotiation 3 true) ((live.wrN (pchPortStatus 3) 0x20).wrN (pchPortCfg 3) 0x21))
      (.next (((live.wrN (pchPortStatus 3) 0x20).wrN (pchPortCfg 3) 0x21).setB (pchPortStatus 3) 1)),
    gives (exec (.autoNegotiation 3 false) ((live.wrN (pchPortStatus 3) 0x22).wrN (pchPortCfg 3) 0x21)) (fun u =>
      !(u.rb (pchPortStatus 3) 1) && u.rb (pchPortErr 3) 4),
    gives (exec (.linkTraining 3) ((live.wrN (pchPortStatus 3) 0x20).wrN (pchPortCfg 3) 0x41)) (fun u =>
      u.rb (pchPortStatus 3) 2),
    stays (exec (.linkTraining 3) live) live] := by decide +kernel

theorem witness_PorchConfigurationAndFlowControl : checks [
    stays (exec (.laneRateWrite 63 0) live) live,
    gives (exec (.laneRateWrite 63 5) live) (fun u => u.rb (pchOctCfg 63) 4),
    gives (exec (.laneRateWrite 0 4) (up 7)) (fun u => u.rb (pchOctCfg 0) 4 && u.rf (pchOctCfg 0) 2 0 == 0),
    gives (exec (.laneRateWrite 63 4) live) (fun u => u.rf (pchOctCfg 63) 2 0 == 4),
    stays (exec (.portCfgWrite 3 3) (up 3)) (up 3),
    gives (exec (.portCfgWrite 3 0) (up 3)) (fun u => !(u.portEnabled 3) && !(u.linkUp 3)),
    gives (exec (.portCfgWrite 511 0) ((up 511).setPort 511 { Port.init with tx := some ⟨0, 64, 0, true, 0⟩ })) (fun u =>
      (u.port 511).disableDue && u.portEnabled 511),
    (live.wrN (pchOctCfg 63) 4).portCfgOk 511 || (live.wrN (pchOctCfg 63) 1).portCfgOk 511,
    gives (exec (.portCfgWrite 511 1) (live.wrN (pchOctCfg 63) 1)) (fun u => u.portEnabled 511 && u.rb (pchPortCfg 511) 0),
    same (exec (.portCfgWrite 511 1) live) (.next (live.setB (pchPortErr 511) 0)),
    gives (exec (.portCfgWrite 511 0x7FE) live) (fun u => u.rf (pchPortCfg 511) 10 1 == 0x3FF),
    gives (exec (.portMtuWrite 511 16384) live) (fun u => u.mtu 511 == 16384),
    same (exec (.portMtuWrite 511 16385) live) (.next (live.setB (pchPortErr 511) 1)),
    same (exec (.portMtuWrite 511 63) live) (.next (live.setB (pchPortErr 511) 1)),
    stays (exec (.pfcReceive 3 255 []) live) live,
    gives (exec (.pfcReceive 3 0x81 [5, 6, 7, 8, 9, 10, 11, 0]) (((up 3).wrN (pchPortCfg 3) 0x81).wrN (pchPfcCfg 3) 0xFF00FFFF)) (fun u =>
      (u.port 3).pause == [(0, 5)] && u.tcPaused 3 0),
    gives (exec (.pfcReceive 3 0x81 [5]) (up 3)) (fun u => (u.port 3).pause == []),
    gives (exec (.pauseReceive 3 9) ((up 3).wrN (pchPortCfg 3) 0x101)) (fun u => u.tcPaused 3 7 && (u.port 3).pause.length == 8),
    gives (exec (.pauseTimerExpire 3 15) ((up 3).setPort 3 { Port.init with pause := [(15, 9)] })) (fun u => (u.port 3).pause == []),
    stays (exec (.pfcGenerate 3) (up 3)) (up 3),
    let s := ((up 3).wrN (pchPfcCfg 3) 0xFFFF1234).setPort 3 { Port.init with pfcDue := 0x81, xoff := 0x80 }
    gives (exec (.pfcGenerate 3) (s.wrN (pchPortCfg 3) 0x81)) (fun u => match u.outbox with
        | [.frame 3 bs false] => bs.length == 64 && beAt bs 16 2 == 0x81 && beAt bs 18 2 == 0 && beAt bs 32 2 == 0x1234
        | _ => false) &&
      gives (exec (.pfcGenerate 3) (s.wrN (pchPortCfg 3) 0x101)) (fun u => match u.outbox with
        | [.frame 3 bs false] => bs.length == 64 && beAt bs 14 2 == 1 && beAt bs 16 2 == 0x1234
        | _ => false),
    gives (exec (.pfcRefresh 3) (((up 3).wrN (pchPfcState 3) 0x8000).setPort 3 { Port.init with xoff := 0x81 })) (fun u =>
      (u.port 3).pfcDue == 0x80)] := by decide +kernel

/-- A hello: version 1, flags, sequence 7, interval 10 ms, multiplier 3, health 1. -/
def hello (flags : Nat) : List Byte :=
  List.replicate 14 0 ++ natBe 2 0x4B48 ++ natBe 1 1 ++ natBe 1 flags ++ natBe 4 7 ++ natBe 2 5 ++ natBe 2 10 ++ natBe 1 3 ++ natBe 1 1 ++
    natBe 2 0 ++ natBe 4 9 ++ natBe 8 77 ++ List.replicate 8 0

/-- A port with a frame and its copy chosen to send, of `n` bytes without FCS. -/
def sending (n : Nat) (begun : Bool) : State :=
  let s := (up 3).newFrame { Frame.init with data := List.replicate n 0xAA, len := n, complete := true, fab := { Fab.init with declared := n + 4 } }
  (s.1.setCopy 1 { Copy.init with fid := s.2, port := 3, st := if begun then 2 else 1 }).setPort 3
    { Port.init with tx := some ⟨1, n + 4, 0, begun, 0⟩ }

theorem witness_PorchHellosStampsAndTransmission : checks [
    gives (exec (.tsTagRead 511) live) (fun u => u.rdata == 0),
    gives (exec (.tsTagRead 511) (live.setPort 511 { Port.init with ts := [(5, 2 ^ 64 - 1), (6, 2)] })) (fun u =>
      u.rdata == 0x80000005 && u.rd64 (pchTsLo 511) == 2 ^ 64 - 1 && (u.port 511).ts == [(6, 2)]),
    helloOk (hello 0 |>.drop 14), !(helloOk (List.replicate 36 0)), stays (exec (.helloReceive 3 (hello 0)) live) live,
    gives (exec (.helloReceive 3 (List.replicate 50 0)) (up 3)) (fun u => u.mast.ctrs == [(ctrKey evPchHelloMalformed 3 0, 1, 0)]),
    gives (exec (.helloReceive 3 (hello 1)) (up 3)) (fun u => (u.port 3).peer.up && (u.port 3).peer.node == 77 &&
      (u.port 3).peerSeq == some 7 && (u.port 3).holdMs == 30 && (u.port 3).posts.length == 1 && (u.port 3).replyDue),
    gives (exec (.helloReceive 3 (hello 8)) ((up 3).setPort 3 { Port.init with peer := { Peer.init with up := true, node := 77 } })) (fun u =>
      !(u.port 3).peer.up),
    gives (exec (.helloReceive 3 (hello 0)) ({ up 3 with time := 99999 * 2 ^ 24 }.setPort 3 { Port.init with lastHelloNs := some 0 })) (fun u =>
      u.mast.ctrs == [(ctrKey evPchHelloRateDrop 3 0, 1, 0)]),
    stays (exec (.partnerHoldExpire 3) live) live,
    gives (exec (.partnerHoldExpire 3) (live.setPort 3 { Port.init with peer := { Peer.init with up := true } })) (fun u =>
      !(u.port 3).peer.up && (u.port 3).posts.length == 1),
    gives (exec (.partnerStatePost 3) (live.setPort 3 { Port.init with posts := [Peer.init] })) (fun u => (u.port 3).posts == [] &&
      (tfind u.crw.peers 3).isSome),
    gives (exec (.helloSend 3) ((up 3).setPort 3 { Port.init with helloSeq := 2 ^ 32 - 1, helloDue := 2 })) (fun u => match u.outbox with
      | [.frame 3 bs false] => bs.length == 64 && beAt bs 12 2 == 0x88B5 && beAt bs 17 1 == 3 && beAt bs 18 4 == 2 ^ 32 - 1 &&
        (u.port 3).helloSeq == 0
      | _ => false),
    stays (exec (.helloSend 3) ((up 3).wrN (pchHelloCfg 3) 0)) ((up 3).wrN (pchHelloCfg 3) 0),
    gives (exec (.helloReply 3) ((up 3).setPort 3 { Port.init with replyDue := true })) (fun u => u.outbox.length == 1 &&
      !(u.port 3).replyDue),
    stays (exec (.helloReply 3) (up 3)) (up 3), stays (exec (.frameBegin 3) (up 3)) (up 3), stays (exec (.frameEnd 3) (up 3)) (up 3),
    gives (exec (.frameBegin 3) (sending 60 false)) (fun u => (u.copy 1).st == 2 && (u.port 3).tx == some ⟨1, 64, 0, true, (sending 60 false).txStamp 3⟩),
    gives (exec (.frameBegin 3) (sending 1600 false)) (fun u => (u.port 3).tx.isNone),
    gives (exec (.frameEnd 3) (sending 60 true)) (fun u => (u.port 3).tx.isNone && u.outbox == [.frame 3 (wire 64 false) false]),
    gives (exec (.frameEnd 3) ((sending 60 true).setPort 3 { (sending 60 true).port 3 with disableDue := true })) (fun u =>
      !(u.portEnabled 3))] := by decide +kernel


/-! ## Threshold and Hallway -/

/-- Frame 1 stands on port 3 (slice 0), 60 bytes long without FCS, with head `h`. -/
def onHead (s : State) (h : Head) : State :=
  (s.newFrame { Frame.init with port := 3, data := List.replicate 60 0xAA, len := 64, head := h }).1

/-- Frame 1's head has a slot, in a slice that takes heads. -/
def slotted (entry : Nat) : State :=
  (onHead ((live.wrN (thrPortCfg 3) 0x7F1FFF).wrN (hlwPortCfg 3) 0xEFE) { Head.init with pos := .slot, entry := entry }).setSl 0
    { Slice.init with slots := [1, 7] }

/-- A word that ends a parse COMPLETE, one that fails a check of R82, a head that such a word parses. -/
def ucDone : BitVec 256 := BitVec.ofNat 256 (2 ^ 227)
def ucBad : BitVec 256 := BitVec.ofNat 256 (5 * 2 ^ 227)
def parsing (running : Bool) : State :=
  let s := (onHead live { Head.init with pos := .parsing, start := 8191, running := running }).setB (hlwSliceCtl 0) 0
  { s with pipe := { s.pipe with store := [(8191, ucDone)] } }

/-- THR_UC_DATA holds a word. -/
def ucData (w : BitVec 256) : State := live.wrWide (thrUcData 0) 8 w.toNat

theorem witness_ThresholdHeadsAndStore : checks [
    stays (exec (.headAccept 1) (onHead live Head.init)) (onHead live Head.init),
    (slotted 2).takesHeads 0,
    gives (exec (.headAccept 1) (slotted 1)) (fun u => (u.head 1).pos == .chain && (u.sl 0).slots == [7]),
    gives (exec (.headAccept 1) (slotted 2)) (fun u => (u.head 1).pos == .parsing && (u.head 1).start == 0x1FFF &&
      (u.head 1).profile == 0x7F && (u.head 1).get 519 512 == 0xFE && (u.head 1).tc == 7 && u.pipe.nextSeq == 2 &&
      (u.head 1).seq == 1),
    stays (exec (.parseComplete 1 (some (0, .corr))) (slotted 2)) (slotted 2),
    gives (exec (.parseComplete 1 none) (parsing false)) (fun u => (u.head 1).pos == .chain && (u.head 1).get 99 98 == 2 &&
      (u.head 1).ending == some (.cause 4)),
    gives (exec (.parseComplete 1 none) ((parsing false).wrN (hlwSliceCtl 0) 0)) (fun u => (u.head 1).ending == some (.cause 14)),
    gives (exec (.parseComplete 1 none) (parsing true)) (fun u => (u.head 1).pos == .chain && (u.head 1).get 99 98 == 0 &&
      decide ((u.head 1).ending = none) && (u.head 1).hv == hvZero),
    let p := ucStep ucDone ⟨List.replicate 60 0xAA, 60, [], 0⟩ (Parse.start 8191)
    decide (p.2 = some (0, 0)),
    gives (exec (.ucWrite 0x8001) (live.setB thrUcCmd 31)) (fun u => u.rb thrUcStatus 1),
    ucCheck ucBad == 1 && gives (exec (.ucWrite 0x8001) (ucData ucBad)) (fun u => u.pipe.store == [] && u.rf thrUcStatus 15 8 == 1),
    ucCheck ucDone == 0 && gives (exec (.ucWrite 0x1FFF8001) (ucData ucDone)) (fun u =>
      decide (u.pipe.store = [(8191, ucDone), (15 * 8192 + 8191, ucDone)])),
    let s := parsing true
    gives (exec (.ucRead 0x1FFF0001) s) (fun u => u.rdWide (thrUcData 0) 8 == ucDone.toNat),
    stays (exec (.storeScrub 15 8191 .ok) live) live,
    gives (exec (.storeScrub 15 8191 .corr) live) (fun u => u.rb (thrSliceErr 15) 0 && u.ecc == []),
    gives (exec (.storeScrub 15 8191 .uncorr) live) (fun u => u.rb (thrSliceErr 15) 1 && u.rf (thrSliceErr 15) 28 16 == 8191 &&
      u.eccOf .thr (15 * 8192 + 8191) == .uncorr)] := by decide +kernel

/-- A definition of a valid table: form, base, continuation and what else it holds; its key is byte 0 of the header vector. -/
def tdef (form base cont join lo : Nat) : BitVec 256 :=
  BitVec.ofNat 256 (1 + lo * 2 ^ 128 + 2 ^ 192 + base * 2 ^ 204 + form * 2 ^ 240 + join * 2 ^ 243 + cont * 2 ^ 248)

/-- An action word: NEXT and a destination. -/
def toDest (next dk dest : Nat) : BitVec 128 := BitVec.ofNat 128 (next * 2 ^ 120 + dk * 2 ^ 113 + dest * 2 ^ 97)

/-- Stage 0 of slice 0 has a kind and all the SRAM, table 0 a definition, SRAM word 6 an action. -/
def chainAt (s : State) (kind : Nat) (d : BitVec 256) (a : BitVec 128) : State :=
  { s.wrN (hlwStageCfg 0 0) (256 * 2 ^ 16 + kind) with hlw := { s.hlw with defs := [(0, d)], sram := [(6, a)] } }

/-- A head in the chain with NEXT `t`. -/
def nexts (t : Nat) : Head := { (Head.init.put 519 512 t) with pos := .chain, hv := [1] }

theorem witness_HallwayChains : checks [
    stays (exec (.stageLookup 1 none) (slotted 2)) (slotted 2),
    gives (exec (.stageLookup 1 none) (onHead live (nexts 0xFF))) (fun u => (u.head 1).ending == some (.cause 1)),
    gives (exec (.stageLookup 1 none) (onHead live ((nexts 0xFF).put 99 98 1))) (fun u => (u.head 1).ending == some (.cause 3)),
    gives (exec (.stageLookup 1 none) (onHead live ((nexts 0xFF).put 530 528 1))) (fun u => (u.head 1).ending == some .dest),
    gives (exec (.stageLookup 1 none) (onHead live { nexts 7 with stage := 1 })) (fun u => (u.head 1).ending == some (.cause 10)),
    let s := chainAt (onHead live (nexts 0)) 1 (tdef 1 5 0 0 1) (toDest 8 1 511)
    defKey (s.head 1) (tdef 1 5 0 0 1) == [1] && gives (exec (.stageLookup 1 none) s) (fun u => (u.head 1).get 519 512 == 8 &&
      (u.head 1).stage == 1 && (u.head 1).get 530 528 == 1 && (u.head 1).get 547 532 == 511 && decide ((u.head 1).ending = none)),
    let s := chainAt (onHead live (nexts 0)) 3 (tdef 1 0 0xFF 6 0xFF) 0
    gives (exec (.stageLookup 1 none) s) (fun u => (u.head 1).get 519 512 == 0xFF &&
      (u.head 1).remote == [⟨1, 0, 6, false, 0xFF, [1], false, none, none⟩]),
    stays (exec (.remoteAnswerArrive 1 6) live) live,
    let s := onHead live { nexts 0xFF with remote := [⟨1, 0, 6, false, 0, [], true, some .miss, none⟩] }
    gives (exec (.remoteAnswerArrive 1 6) s) (fun u => (u.head 1).remote == [⟨1, 0, 6, false, 0, [], true, none, some .miss⟩]),
    stays (exec (.parkRelease 1) (slotted 2)) (slotted 2),
    let h (a : Option Answer) : Head := { nexts 0xFF with pos := .parked, remote := [⟨1, 0, 6, false, 0, [], true, none, a⟩] }
    let s (a : Option Answer) : State := (onHead live (h a)).setSl 0 { Slice.init with park := [1] }
    stays (exec (.parkRelease 1) (s none)) (s none) && gives (exec (.parkRelease 1) (s (some .miss))) (fun u =>
      (u.head 1).pos == .reentry && (u.head 1).entry == 1 && (u.sl 0).reentry == [1] && (u.sl 0).park == []),
    let s := (onHead live { nexts 0xFF with pos := .parkedOut, ending := some .drop }).setSl 0 { Slice.init with park := [1] }
    gives (exec (.parkRelease 1) s) (fun u => !(u.hasFrame 1) || ((u.frame 1).isOver && (u.frame 1).units == 0)),
    let s := (onHead live { nexts 0xFF with pos := .parkedOut, ending := some .drop, seq := 5 }).setSl 0 { Slice.init with park := [1] }
    let t := (s.newFrame { Frame.init with port := 3, head := { nexts 0 with seq := 4 } }).1
    stays (exec (.parkRelease 1) t) t,
    let s := live.setSl 15 { Slice.init with headQ := [4, 5, 6, 7], reentry := [8, 9] }
    gives (exec (.headSlotArbitrate 15) s) (fun u => (u.sl 15).slots == [4, 5, 6] && (u.sl 15).headQ == [7] &&
        (u.sl 15).reentry == [8, 9] && (u.head 4).pos == .slot) &&
      gives (exec (.reentryAgeLimit 15) s) (fun t => gives (exec (.headSlotArbitrate 15) t) fun u => (u.sl 15).slots == [4, 5, 8] &&
        (u.sl 15).reentry == [9]),
    stays (exec (.headSlotArbitrate 0) (slotted 2)) (slotted 2), stays (exec (.reentryAgeLimit 0) live) live,
    stays (exec (.chainEnd 1) (onHead live (nexts 0))) (onHead live (nexts 0)),
    gives (exec (.chainEnd 1) (onHead live { nexts 0xFF with ending := some (.lofts 511) })) (fun u =>
      match tfind u.lft.tickets 1 with
      | some k => k.prog == 511 && k.fid == 1 && k.inPort == 3 && k.buf == 0 && k.src == 0
      | none => false),
    gives (exec (.chainEnd 1) (onHead live { (nexts 0xFF).put 521 520 2 with ending := some (.again 3 0) })) (fun u =>
      (u.head 1).pos == .reentry && (u.head 1).pass == 3 && (u.head 1).entry == 0 && (u.sl 0).reentry == [1]),
    gives (exec (.chainEnd 1) (onHead live { nexts 0xFF with ending := some .drop })) (fun u =>
      !(u.hasFrame 1) || ((u.frame 1).isOver && (u.frame 1).units == 0)),
    let s := onHead live { nexts 0xFF with ending := some .drop, seq := 5 }
    let t := (s.newFrame { Frame.init with port := 3, head := { nexts 0 with seq := 4 } }).1
    t.orderWaits 1 && stays (exec (.chainEnd 1) t) t] := by decide +kernel


/-- Slices 0 and 15 are named, stage 0 of both has a kind and the SRAM, HLW_DATA holds `d`. -/
def hall (kind d : Nat) : State :=
  ((([0, 15].foldl (fun s k => s.wrN (hlwStageCfg k 0) (256 * 2 ^ 16 + kind)) live)).wrN hlwCmdSlices 0x8001).wrWide (hlwData 0) 8 d

/-- The same batch open, or what else HLW_GEN_STATUS holds. -/
def genIn (s : State) (st : Nat) : State := s.putGenState st

/-- An EXACT table 0 in slices 0 and 15, two buckets of SRAM word 0 on; HLW_DATA holds key 0xABC and an action. -/
def exactAt : State :=
  let d := tdef 2 0 0xFF 0 0
  let s := hall 1 ((toDest 8 1 3).toNat + 0xABC * 2 ^ 128)
  { s with hlw := { s.hlw with defs := [(0, d), (192 * 15, d)] } }

theorem witness_HallwayTableCommands : checks [
    [Instr.actionWrite 0, .actionRead 0, .definitionWrite 0, .definitionRead 0, .exactInsert 0, .exactDelete 0, .exactSearch 0].all fun c =>
      same (exec c (live.setB hlwCmd 31)) (.next ((live.setB hlwCmd 31).setB hlwCmdStatus 16)),
    gives (exec (.actionWrite 0x3FFFF) (hall 1 (toDest 8 1 511).toNat)) (fun u => u.rf hlwCmdStatus 31 24 == 0 &&
      decide (u.hlw.sram = [(0x3FFFF, toDest 8 1 511), (15 * 2 ^ 18 + 0x3FFFF, toDest 8 1 511)])),
    gives (exec (.actionWrite 0x4003FFFF) ((genIn (hall 1 (toDest 8 1 511).toNat) 1).wrN hlwGenStaged 262142)) (fun u =>
      u.rf hlwCmdStatus 31 24 == 0 && u.hlw.sram == [] && u.stagedCount == 262144 && u.hlw.newSram.length == 2),
    gives (exec (.actionWrite 5) (hall 1 (toDest 8 1 512).toNat)) (fun u => u.rf hlwCmdStatus 31 24 == 1 &&
      u.rf hlwCmdStatus 15 0 == 0x8001 && u.hlw.sram == []),
    let s := hall 1 0
    gives (exec (.actionRead 6) { s with hlw := { s.hlw with sram := [(6, toDest 8 1 9)] } }) (fun u =>
      u.rdWide (hlwData 0) 4 == (toDest 8 1 9).toNat),
    (hall 1 0).defOk 15 7 (tdef 1 0 0xFF 0 1),
    gives (exec (.definitionWrite 7) (hall 1 (tdef 1 0 0xFF 0 1).toNat)) (fun u => u.rf hlwCmdStatus 31 24 == 0 &&
      decide (u.hlw.defs = [(7, tdef 1 0 0xFF 0 1), (192 * 15 + 7, tdef 1 0 0xFF 0 1)])),
    gives (exec (.definitionWrite 191) (hall 1 (tdef 1 0 0xFF 0 1).toNat)) (fun u => u.rf hlwCmdStatus 31 24 == 2 &&
      u.rf hlwCmdStatus 15 0 == 0x8001 && u.hlw.defs == []),
    gives (exec (.definitionRead 0) exactAt) (fun u => u.rf hlwCmdStatus 31 24 == 0 &&
      u.rdWide (hlwData 0) 8 == (tdef 2 0 0xFF 0 0).toNat),
    gives (exec (.exactInsert 0) exactAt) (fun u => u.rf hlwCmdStatus 31 24 == 0 && u.hlw.sram.length == 4 &&
      gives (exec (.exactInsert 0) (u.wrWide (hlwData 0) 4 (toDest 8 1 4).toNat)) (fun t => t.rf hlwCmdStatus 31 24 == 5 &&
        t.hlw.sram.length == 4 && gives (exec (.exactSearch 0) t) fun q => q.rf hlwCmdStatus 31 24 == 0 &&
          q.rdWide (hlwData 0) 4 == (toDest 8 1 4).toNat) &&
      gives (exec (.exactDelete 0) u) (fun t => t.rf hlwCmdStatus 31 24 == 0 && t.hlw.sram.length == 2)),
    gives (exec (.exactDelete 0) exactAt) (fun u => u.rf hlwCmdStatus 31 24 == 4 && u.hlw.sram == []),
    gives (exec (.exactSearch 0) exactAt) (fun u => u.rf hlwCmdStatus 31 24 == 4)] := by decide +kernel

theorem witness_HallwayGenerationsAndConfiguration : checks [
    gives (exec .genOpen live) (fun u => u.genState == 1),
    same (exec .genOpen (genIn live 2)) (.next ((genIn live 2).setB hlwGenStatus 3)),
    same (exec .genCommit live) (.next (live.setB hlwGenStatus 3)), same (exec .genAbort live) (.next (live.setB hlwGenStatus 3)),
    gives (exec .genCommit (genIn live 1)) (fun u => u.genState == 0 && u.genPar == 0),
    gives (exec .genCommit ((genIn live 1).wrN hlwGenStaged 262144)) (fun u => u.genState == 2 && u.genPar == 1 && u.hlw.committed),
    gives (exec .genAbort ((genIn live 1).wrN hlwGenStaged 7)) (fun u => u.genState == 3 && u.stagedCount == 0),
    gives (exec .drainEnd (genIn live 2)) (fun u => u.genState == 3), stays (exec .drainEnd live) live,
    let s := (genIn (onHead live (nexts 0)) 2).putB hlwGenStatus 16 true
    s.oldHead (s.frame 1) && stays (exec .drainEnd s) s && gives (exec .drainTimeout s) (fun u => u.genState == 3 &&
      u.rb hlwGenStatus 4 && (u.head 1).ending == some (.cause 13) && (u.head 1).pos == .chain),
    stays (exec .drainTimeout live) live, stays (exec .settlingEnd live) live,
    same (exec .settlingEnd (genIn live 3)) (.next ((genIn live 3).putGenState 0)),
    let s := genIn live 3
    gives (exec .settlingEnd { s with hlw := { s.hlw with committed := true, sram := [(5, 1)], newSram := [(5, 0), (7, 9)], newDefs := [(3071, 4)] } }) (fun u => u.genState == 0 && !u.hlw.committed && u.hlw.newSram == [] &&
      decide (u.hlw.sram = [(7, 9)]) && decide (u.hlw.defs = [(3071, 4)])),
    same (exec (.stageCfgWrite 15 23 5) live) (.next (live.setB (hlwSliceErr 15) 2)),
    same (exec (.stageCfgWrite 0 1 0x01000001) ((hall 1 0).setB (hlwSliceCtl 0) 0)) (.next (((hall 1 0).setB (hlwSliceCtl 0) 0).setB (hlwSliceErr 0) 2)),
    same (exec (.stageCfgWrite 0 1 0x00010001) (hall 1 0)) (.next ((hall 1 0).setB (hlwSliceErr 0) 2)),
    stays (exec (.stageCfgWrite 15 0 0x01000001) exactAt) exactAt,
    gives (exec (.stageCfgWrite 15 0 0x01000002) exactAt) (fun u => u.stageKind 15 0 == 2 &&
      !(dValid (u.defOf 15 0 false)) && dValid (u.defOf 0 0 false)),
    defaultOk (toDest 0xFF 1 511), !(defaultOk (toDest 0 1 511)),
    let w := (toDest 0xFF 1 511).toNat
    gives (exec (.portDefaultWrite 511 3 (BitVec.ofNat 32 (w / 2 ^ 96))) { live with held := [(hlwPortDflt 2047 0, BitVec.ofNat 32 w)] }) (fun u =>
      u.rdWide (hlwPortDflt 2047 0) 4 % 2 ^ 32 == w % 2 ^ 32 && u.rdWide (hlwPortDflt 2047 0) 4 / 2 ^ 96 == w / 2 ^ 96 &&
        u.held == []),
    gives (exec (.portDefaultWrite 511 3 0x00FFFFFF) live) (fun u => u.rf hlwCmdStatus 31 24 == 1),
    stays (exec (.stageSramScrub 15 0x3FFFF .ok) live) live,
    gives (exec (.stageSramScrub 15 0x3FFFF .corr) live) (fun u => u.rb (hlwSliceErr 15) 0 && u.ecc == []),
    gives (exec (.stageSramScrub 15 0x3FFFF .uncorr) live) (fun u => u.rb (hlwSliceErr 15) 1 &&
      u.rf (hlwSliceErr 15) 29 12 == 0x3FFFF)] := by decide +kernel


/-! ## Gallery and Larder -/

/-- Slice 15's table 0 is a GALLERY table of bank 0, the named slice is 15, GAL_KEY and GAL_MASK hold 5 and 15. -/
def gall (ents : Tbl GalEnt) : State :=
  let s := (((live.wrN (hlwStageCfg 15 0) 0x01000002).wrN galCmdSlices 0x8000).wrWide (galKey 0) 20 5).wrWide (galMask 0) 20 15
  { s with hlw := { s.hlw with defs := [(2880, tdef 1 0 0xFF 0 64)] }, gal := { s.gal with ents := ents } }

/-- An entry of value 5 and mask 15 that every head sees, the place of slot `i`. -/
def galE (result : Nat) : GalEnt := ⟨0, 5, 15, result, true, true, false, false⟩
def galAt (i : Nat) : Nat := 2 ^ 17 * 15 + i

/-- Bytes of the tables partition. -/
def tablesHold (s : State) (a : Nat) (bs : List Byte) : State := { s with cel := { s.cel with mem := memWrite 0 s.cel.mem (64 * 2 ^ 30 + a) bs } }

/-- A bulk-load job of records at the start of the tables partition. -/
def loading (s : State) (count : Nat) (stop : Bool) : State :=
  { s with gal := { s.gal with job := some ⟨64 * 2 ^ 30, count, 0, 0, 0xFFFFFFFF, 0, 77, stop, 64 * 2 ^ 30 + 4096, false⟩ } }

theorem witness_GalleryEntriesAndJobs : checks [
    same (exec (.galInsert 0) (live.setB galCmd 31)) (.next ((live.setB galCmd 31).setB galCmdStatus 16)),
    gives (exec (.galInsert 0) ((gall []).wrN galResult 0x3FFFF)) (fun u => u.rf galCmdStatus 31 24 == 0 &&
      decide (u.gal.ents = [(galAt 0, galE 0x3FFFF)])),
    gives (exec (.galInsert 0) ((gall [(galAt 7, galE 1)]).wrN galResult 9)) (fun u => u.rf galCmdStatus 31 24 == 1 &&
      decide (u.gal.ents = [(galAt 7, galE 9)])),
    gives (exec (.galInsert 0) (gall [(galAt 7, { galE 1 with value := 4, mask := 15 }), (galAt 8, { galE 1 with value := 1, mask := 3 })])) (fun u =>
      u.rf galCmdStatus 31 24 == 0 && u.gal.ents.length == 3),
    gives (exec (.galDelete 0) (gall [(galAt 7, galE 1), (galAt 8, { galE 1 with value := 4 })])) (fun u =>
      u.rf galCmdStatus 31 24 == 0 && tkeys u.gal.ents == [galAt 8]),
    gives (exec (.galDelete 0) (gall [])) (fun u => u.rf galCmdStatus 31 24 == 2),
    gives (exec (.galFind 0) (gall [(galAt 2047, galE 9)])) (fun u => u.rf galCmdStatus 31 24 == 0 &&
      u.rd galResult == 0x80000009 && u.rd galSlot == BitVec.ofNat 32 (4 * 2 ^ 22 + 2047)),
    gives (exec (.galFind 0) (gall [])) (fun u => u.rf galCmdStatus 31 24 == 2 && !(u.rb galResult 31)),
    gives (exec (.galProbe 0) ((gall [(galAt 2047, galE 9)]).wrWide (galKey 0) 20 0xF5)) (fun u => u.rf galCmdStatus 31 24 == 0 &&
      u.rd galResult == 0x80000009),
    gives (exec (.galProbe 0) (gall [])) (fun u => u.rf galCmdStatus 31 24 == 2),
    gives (exec (.galJobStart 0) ((live.wrN galJobAddrLo 32).wrN galJobAddrHi 16)) (fun u => u.rb galJobCtl 27 && decide (u.gal.job = none)),
    gives (exec (.galJobStart 0x1000004D) (((live.wrN galJobAddrHi 16).wrN galJobStatusHi 16).wrN galJobCount 1048576)) (fun u =>
      u.gal.job == some ⟨64 * 2 ^ 30, 1048576, 0, 0, 0xFFFFFFFF, 0, 77, true, 64 * 2 ^ 30, false⟩ && u.rb galJobCtl 31),
    gives (exec (.galJobStart 77) (((live.wrN galJobAddrHi 16).wrN galJobStatusHi 16).wrN galJobCount 0)) (fun u =>
      decide (u.gal.job = none) && shas u.bell.pulses 1920),
    gives (exec (.galJobAbort 0) live) (fun u => decide (u.gal = live.gal)),
    gives (exec (.galJobAbort 0) (loading live 2 false)) (fun u => decide (u.gal.job = none) && shas u.bell.pulses 1920),
    stays (exec .galJobRecord live) live,
    let bs := natLe 80 5 ++ natLe 80 15 ++ natLe 4 (2 ^ 30 + 0x8000) ++ natLe 4 9
    gives (exec .galJobRecord (loading (tablesHold (gall []) 0 bs) 2 true)) (fun u => decide (u.gal.ents = [(galAt 0, galE 9)]) &&
      u.gal.job.map (·.done) == some 1),
    gives (exec .galJobRecord (loading (tablesHold (gall []) 160 (natLe 4 (3 * 2 ^ 30))) 2 true)) (fun u => decide (u.gal.job = none) &&
      shas u.bell.pulses 1920 && u.gal.ents == []),
    gives (exec .galJobRecord (loading (tablesHold (gall []) 160 (natLe 4 (3 * 2 ^ 30))) 2 false)) (fun u => u.gal.job.map (·.failed) == some 1 &&
      u.gal.job.map (·.first) == some 0 && u.gal.job.map (·.last) == some 0x0B),
    gives (exec .galJobRecord (loading (gall []) 1 false)) (fun u => decide (u.gal.job = none) && shas u.bell.pulses 1920),
    stays (exec (.galScrubVisit 15 63 2047 false) live) live, stays (exec (.galScrubVisit 15 63 2047 true) (live.wrN galScrubCtl 0)) (live.wrN galScrubCtl 0),
    gives (exec (.galScrubVisit 15 63 2047 true) ((gall []).wrN galScrubCtl 1)) (fun u => u.rf (galSliceErr 15) 22 17 == 63 &&
      u.rf (galSliceErr 15) 16 6 == 2047 && u.gal.ents == []),
    let s := (gall [(galAt 7, galE 1)]).wrN galScrubCtl 1
    (s.galHolder 15 0 7).isSome && gives (exec (.galScrubVisit 15 0 7 true) s) (fun u => u.gal.ents == [(galAt 7, { galE 1 with hidden := true })] &&
      gives (exec (.galRepair 15 0 7 .ok) u) (fun t => t.gal.ents == [(galAt 7, galE 1)] && t.rb (galSliceErr 15) 1) &&
      gives (exec (.galRepair 15 0 7 .uncorr) u) (fun t => decide (t.gal = u.gal) && t.rb (galSliceErr 15) 2)),
    stays (exec (.galRepair 15 63 2047 .uncorr) live) live] := by decide +kernel

/-- Table 63 is a valid Shelf table of narrow keys of 8 bytes with 512 buckets, in role `role`; LRD_KEY and LRD_ACT hold a key and an action. -/
def lard (role : Nat) (ents : Tbl LrdEnt) : State :=
  let s := ((live.wrN (lrdTblCfg 63) (2 ^ 31 + 8 * 2 ^ 22 + 9 * 2 ^ 17 + role * 2 ^ 14)).wrN (lrdKey 0) 0x01020304).wrWide (lrdAct 0) 4
    (toDest 8 1 3).toNat
  { s with lrd := { s.lrd with ents := ents } }

/-- The key, its first candidate bucket's slot `i`, an entry. -/
def lKey : List Byte := [1, 2, 3, 4, 0, 0, 0, 0]
def lPos (i : Nat) : Nat := lrdPos 63 ((lard 0 []).ltBuckets 63 lKey |>.headD 0) i
def lEnt (st : Nat) : LrdEnt := ⟨lKey, toDest 8 1 3, BitVec.ofNat 32 (3 * 2 ^ 30 + st)⟩

/-- Both buckets of the key are full of entries of other keys, and a walk of the table runs. -/
def lFull : State :=
  let s := lard 0 []
  let e : LrdEnt := { lEnt 0 with key := [9, 0, 0, 0, 0, 0, 0, 0] }
  { s with lrd := { s.lrd with
      ents := ((s.ltBuckets 63 lKey).flatMap fun b => (upto 4).map (lrdPos 63 b)).foldl (fun m k => tput m k e) []
      job := some ⟨1, 63, 0, 512, 0, 0, 8, 0, 0, 0, 0, 0, 0, 0⟩ } }

theorem witness_LarderCommands : checks [
    [Instr.lrdInsert 0, .lrdDelete 0, .lrdRead 0, .lrdCompareReplace 0, .lrdTouch 0].all fun c =>
      same (exec c (live.setB lrdCmd 31)) (.next ((live.setB lrdCmd 31).setB lrdCmdStatus 0)),
    (lard 0 []).ltKey 63 (lard 0 []).lrdCmdKey == lKey,
    gives (exec (.lrdInsert 63) (lard 0 [])) (fun u => u.rf lrdCmdStatus 31 24 == 0 && decide (u.lrd.ents = [(lPos 0, lEnt 0)])),
    gives (exec (.lrdInsert 63) lFull) (fun u => u.rf lrdCmdStatus 31 24 == 3 && decide (u.lrd = lFull.lrd)),
    gives (exec (.lrdInsert 63) ((lard 0 [(lPos 3, lEnt 0)]).wrWide (lrdAct 0) 4 (toDest 8 1 4).toNat)) (fun u => u.rf lrdCmdStatus 31 24 == 1 &&
      decide (u.lrd.ents = [(lPos 3, { lEnt 0 with act := toDest 8 1 4 })])),
    gives (exec (.lrdInsert 63) ((lard 0 []).wrWide (lrdAct 0) 4 (toDest 8 1 512).toNat)) (fun u => u.rf lrdCmdStatus 31 24 == 4),
    gives (exec (.lrdDelete 63) (lard 0 [(lPos 3, lEnt 0)])) (fun u => u.rf lrdCmdStatus 31 24 == 0 && u.lrd.ents == []),
    [Instr.lrdDelete 63, .lrdRead 63, .lrdCompareReplace 63, .lrdTouch 63].all fun c =>
      gives (exec c (lard 0 [])) (fun u => u.rf lrdCmdStatus 31 24 == 2 && u.lrd.ents == []),
    gives (exec (.lrdRead 63) ((lard 0 [(lPos 3, lEnt 0x123)]).wrWide (lrdAct 0) 4 0)) (fun u => u.rf lrdCmdStatus 31 24 == 0 &&
      u.rdWide (lrdAct 0) 4 == (toDest 8 1 3).toNat && u.rd lrdEnt == (lEnt 0x123).st),
    gives (exec (.lrdCompareReplace 63) (((lard 0 [(lPos 3, lEnt 0)]).wrWide (lrdCmp 0) 4 (toDest 8 1 3).toNat).wrWide (lrdAct 0) 4
      (toDest 8 1 5).toNat)) (fun u => u.rf lrdCmdStatus 31 24 == 0 && decide (u.lrd.ents = [(lPos 3, { lEnt 0 with act := toDest 8 1 5 })])),
    gives (exec (.lrdCompareReplace 63) (lard 0 [(lPos 3, lEnt 0)])) (fun u => u.rf lrdCmdStatus 31 24 == 7 &&
      u.rdWide (lrdCmp 0) 4 == (toDest 8 1 3).toNat),
    gives (exec (.lrdTouch 63) (lard 0 [(lPos 3, lEnt (2 ^ 29))])) (fun u => decide (u.lrd.ents = [(lPos 3, lEnt (2 ^ 29))])),
    gives (exec (.lrdTouch 63) (lard 0 [(lPos 3, lEnt 0)])) (fun u => u.rf lrdCmdStatus 31 24 == 0 && decide (u.lrd.ents = [(lPos 3, lEnt (2 ^ 28))])),
    [Instr.lrdInsert 0x4000003F, .lrdDelete 0x4000003F, .lrdCompareReplace 0x4000003F].all fun c =>
      gives (exec c (lard 0 [])) (fun u => u.rf lrdCmdStatus 31 24 == 10),
    !((lard 0 []).ltCellar 63)] := by decide +kernel

/-- A lookup of table `t` that a head has outstanding, its JOIN 6. -/
def looks (s : State) (t : Nat) : State :=
  onHead s { nexts 0xFF with remote := [⟨1, 0, 6, false, t, [1, 2, 3, 4], false, none, none⟩] }

/-- Table 62 is a valid Cellar table of narrow keys with 1,024 buckets. -/
def lardCel : State := ((live.wrN (lrdTblCfg 62) (2 ^ 31 + 2 ^ 29 + 8 * 2 ^ 22 + 10 * 2 ^ 17)).wrN (lrdTblBaseHi 62) 16)

/-- What frame 1's lookup has found. -/
def foundIn (u : State) (a : Answer) : Bool := (u.head 1).remote.map (·.found) == [some a] && (u.head 1).remote.all (·.taken)

/-- A learn request for the key waits. -/
def learns (s : State) (dest : Nat) : State := { s with lrd := { s.lrd with learnQ := [⟨63, lKey, 1, dest⟩] } }

theorem witness_LarderSearchesAndLearning : checks [
    stays (exec (.larderSearch 1 6) live) live,
    gives (exec (.larderSearch 1 6) (looks live 63)) (fun u => foundIn u .error),
    gives (exec (.larderSearch 1 6) (looks (lard 0 [(lPos 3, lEnt 0)]) 63)) (fun u => foundIn u (.hit (toDest 8 1 3))),
    gives (exec (.larderSearch 1 6) (looks (lard 0 []) 63)) (fun u => foundIn u .miss),
    gives (exec (.larderSearch 1 6) (looks lardCel 62)) (fun u => decide (u.lrd.cq = [⟨1, 1, 62, [1, 2, 3, 4], 3, 0⟩]) &&
      (u.head 1).remote.all (·.taken)),
    stays (exec .cellarSearchRelease live) live,
    let b := (lardCel.ltBuckets 62 lKey).headD 0
    let s := tablesHold (looks lardCel 62) (256 * b + 224) (slotBytes 8 (some (lEnt 0)))
    gives (exec .cellarSearchRelease { s with lrd := { s.lrd with cq := [⟨1, 1, 62, [1, 2, 3, 4], 3, 0⟩] } }) (fun u =>
      u.lrd.cq == [] && foundIn u (.hit (toDest 8 1 3))),
    stays (exec .learnRequestApply live) live,
    gives (exec .learnRequestApply (learns (lard 1 []) 7)) (fun u => u.lrd.ents.map (fun p => (p.1, p.2.dest, p.2.hit)) == [(lPos 0, (1, 7), true)]),
    gives (exec .learnRequestApply { learns (lard 1 []) 7 with lrd := { lFull.lrd with learnQ := [⟨63, lKey, 1, 7⟩] } }) (fun u =>
      decide (u.lrd = { lFull.lrd with learnQ := [] })),
    gives (exec .learnRequestApply (learns (lard 1 [(lPos 3, lEnt 0)]) 3)) (fun u => u.lrd.ents == [(lPos 3, lEnt (2 ^ 28))]),
    [2 ^ 29, 2 ^ 19].all fun st => gives (exec .learnRequestApply (learns (lard 1 [(lPos 3, lEnt st)]) 7)) (fun u =>
      u.lrd.ents == [(lPos 3, lEnt st)]),
    gives (exec .learnRequestApply (learns (lard 1 [(lPos 3, lEnt (15 * 2 ^ 20 + 3 * 2 ^ 24))]) 7)) (fun u =>
      u.lrd.ents.map (fun p => (p.2.dest, p.2.hit, p.2.age, p.2.moves)) == [((1, 7), true, 0, 15)]),
    stays (exec (.sweepVisit 63 511) (lard 1 [])) (lard 1 []),
    let s := (lard 1 [(lrdPos 63 511 0, lEnt 0), (lrdPos 63 511 1, lEnt (2 ^ 28 + 2 ^ 24)), (lrdPos 63 511 3, lEnt (2 ^ 29))]).wrN (lrdTblAge 63) 0x00011000
    gives (exec (.sweepVisit 63 511) s) (fun u => u.lrd.ents == [(lrdPos 63 511 1, lEnt 0), (lrdPos 63 511 3, lEnt (2 ^ 29))]),
    stays (exec (.sweepVisit 63 512) ((lard 1 []).wrN (lrdTblAge 63) 0x00011000)) ((lard 1 []).wrN (lrdTblAge 63) 0x00011000),
    let s := lard 1 [(lPos 0, lEnt 0), (lPos 3, lEnt 0)]
    gives (exec .lrdEccFree { s with lrd := { s.lrd with toFree := [lPos 3] } }) (fun u => u.lrd.ents == [(lPos 0, lEnt 0)] && u.lrd.toFree == []),
    stays (exec (.lrdTableCfgWrite 63 0xFFFFFFFF) (lard 1 [])) (lard 1 []),
    gives (exec (.lrdTableCfgWrite 63 (BitVec.ofNat 32 (8 * 2 ^ 22 + 9 * 2 ^ 17 + 2 ^ 14))) (lard 1 [(lPos 0, lEnt 0)])) (fun u => !(u.ltValid 63) &&
      u.lrd.ents == []),
    gives (exec (.lrdTableCfgWrite 63 (BitVec.ofNat 32 (2 ^ 31 + 8 * 2 ^ 22 + 9 * 2 ^ 17))) live) (fun u => u.ltValid 63),
    gives (exec (.lrdTableCfgWrite 63 0x80000000) live) (fun u => !(u.ltValid 63) && u.rb lrdErr 2),
    ageOk 0x00011100 && gives (exec (.lrdAgeWrite 63 0x00011100) live) (fun u => u.rf (lrdTblAge 63) 31 8 == 0x111),
    !(ageOk 0x00010000) && same (exec (.lrdAgeWrite 63 0x00010000) live) (.next (live.setB lrdErr 2)),
    let w := (toDest 8 0 0).toNat
    gives (exec (.lrdTemplateWrite true 63 (BitVec.ofNat 32 (w / 2 ^ 96))) live) (fun u => u.rdWide (lrdLrnAct 63 0) 4 == w),
    let w := (toDest 8 1 0).toNat
    gives (exec (.lrdTemplateWrite false 63 (BitVec.ofNat 32 (w / 2 ^ 96))) live) (fun u => u.rdWide (lrdFullAct 63 0) 4 == w) &&
      gives (exec (.lrdTemplateWrite true 63 (BitVec.ofNat 32 (w / 2 ^ 96))) live) (fun u => u.rb lrdErr 2)] := by decide +kernel

/-- A job of Larder on table 63, at bucket `next`. -/
def ljob (s : State) (kind next limit : Nat) : State :=
  { s with lrd := { s.lrd with job := some ⟨kind, 63, next, 512, 64 * 2 ^ 30, 64 * 2 ^ 30 + 4096, limit, 0, 0, 0, 77, 0, BitVec.ofNat 32 (3 * 2 ^ 29), 0⟩ } }

theorem witness_LarderJobsAndScrub : checks [
    gives (exec (.lrdJobStart 0x003F004D) (lard 0 [])) (fun u => u.rb lrdJobCtl 28 && decide (u.lrd = (lard 0 []).lrd)),
    let s := (((lard 0 []).wrN lrdJobStatusHi 16).wrN lrdJobOutHi 16).wrN lrdJobLimit 1048576
    gives (exec (.lrdJobStart 0x043F004D) (s.wrN lrdJobFiltKey 0)) (fun u => decide (u.lrd.job = none) && shas u.bell.pulses 1921) &&
      gives (exec (.lrdJobStart 0x043F004D) ((s.wrN lrdJobFiltKey 0x20000000).wrN lrdJobStart 511)) (fun u =>
        u.lrd.job == some ⟨1, 63, 511, 512, 64 * 2 ^ 30, 64 * 2 ^ 30, 1048576, 0, 0, 0, 77, 0, 0x20000000, 0⟩ && u.rb lrdJobCtl 31) &&
      gives (exec (.lrdJobStart 0x043F004D) ((s.wrN lrdJobFiltKey 0x20000000).wrN lrdJobLimit 7)) (fun u => u.rb lrdJobCtl 28),
    gives (exec (.lrdJobStart 0x0C3F004D) (lard 1 [])) (fun u => u.lrd.job.map (·.kind) == some 3),
    gives (exec (.lrdJobAbort 0) live) (fun u => decide (u.lrd = live.lrd)),
    gives (exec (.lrdJobAbort 0) (ljob (lard 0 []) 1 0 8)) (fun u => decide (u.lrd.job = none) && shas u.bell.pulses 1921),
    stays (exec .lrdJobStep live) live,
    gives (exec .lrdJobStep (ljob ((lard 0 []).eccFlag .lrdShelf 0 .uncorr) 1 0 8)) (fun u => u.lrd.job.map (fun j => (j.ecc, j.next)) == some (1, 1)),
    gives (exec .lrdJobStep (ljob ((lard 1 []).eccFlag .lrdShelf 0 .uncorr) 3 0 8)) (fun u => u.lrd.job.map (fun j => (j.ecc, j.next)) == some (1, 1)),
    gives (exec .lrdJobStep (ljob ((lard 1 [(lrdPos 63 5 0, lEnt 0)]).wrN (lrdTblAge 63) 0x00011000) 3 5 8)) (fun u => u.lrd.ents == [] &&
      u.lrd.job.map (fun j => (j.count, j.next)) == some (1, 6)),
    gives (exec .lrdJobStep (ljob (lard 0 [(lrdPos 63 511 0, lEnt 0)]) 1 511 8)) (fun u => decide (u.lrd.job = none) && shas u.bell.pulses 1921 &&
      memRead 0 u.cel.mem (64 * 2 ^ 30) 4 == [1, 2, 3, 4]),
    gives (exec .lrdJobStep (ljob (lard 0 [(lrdPos 63 5 0, lEnt 0)]) 1 5 0)) (fun u => decide (u.lrd.job = none) && shas u.bell.pulses 1921 &&
      u.lrd.ents.length == 1),
    let s := ljob (lard 0 [(lrdPos 63 5 0, lEnt 0), (lrdPos 63 5 1, { lEnt 0 with key := [7] })]) 2 5 0
    gives (exec .lrdJobStep { s with lrd := { s.lrd with staged := [(63, [7])] } }) (fun u => tkeys u.lrd.ents == [lrdPos 63 5 1] &&
      u.lrd.job.map (fun j => (j.count, j.skips)) == some (1, 1)),
    (lard 0 []).shelfPlace 3 == some (lrdPos 63 0 3) && (lard 0 []).shelfUnit (lrdPos 63 0 3) == 3,
    stays (exec (.lrdScrub 3 .ok) (lard 0 [])) (lard 0 []),
    gives (exec (.lrdScrub 3 .corr) (lard 0 [])) (fun u => u.rb lrdErr 0 && u.ecc == []),
    gives (exec (.lrdScrub 3 .uncorr) (lard 0 [])) (fun u => u.rb lrdErr 1 && u.lrd.toFree == [lrdPos 63 0 3]),
    decide (live.shelfPlace 1572863 = none) && stays (exec (.lrdScrub 1572863 .ok) live) live] := by decide +kernel


/-! ## Crowsnest -/

/-- CRW_CFG: 2^10 groups, one level, two replicas, no stripe, lists of three. -/
def crowCfg (run levels : Nat) : Nat := run * 2 ^ 31 + 10 * 2 ^ 26 + levels * 2 ^ 23 + 2 * 2 ^ 19 + 3 * 2 ^ 9

/-- Crowsnest runs or not: two roster entries at the start of the tables partition, records 4 MiB on; targets 0 and 1 in service, on ports
5 and 6. -/
def crow (run : Nat) : State :=
  let s := (((((live.wrN crwCfg (crowCfg run 1)).wrN crwRosterBaseHi 16).wrN crwRosterCount 2).wrN crwPgtBaseHi 16).wrN crwPgtBaseLo 0x400000)
  let t (p : Nat) : CrwTgt := { CrwTgt.none with valid := true, vers := 2, hsrc := true, kind := 1, dest := p, health := 0 }
  { s with crw := { s.crw with roster := [(0, t 5), (1, t 6)] } }

/-- A version-1 shim of operation `op` with key ABCD, and a head that calls with it. -/
def shim1 (op : Nat) : List Byte := natBe 2 0x4B50 ++ [1, 7] ++ natBe 1 op ++ [0, 0, 4] ++ List.replicate 16 0 ++ [65, 66, 67, 68]
def caller (ver op : Nat) : Head :=
  { (nexts 0xFF).put 218 216 ver with
    hv := List.replicate 320 0 ++ shim1 op ++ List.replicate 164 0, remote := [⟨9, 0, 8, true, 0, [], false, none, none⟩] }

/-- The group of that key; a record of it: targets 1 and 0, epoch 7. -/
def crowG : Nat := (crow 1).groupOf (keyHash ((crow 1).rd64 crwKseedLo) [65, 66, 67, 68])
def crowRec (g st : Nat) (pend : List Nat) (mig : Nat) : List Byte := recSeal g (recBody (if st = 0 then [] else [1, 0]) pend 7 st mig)
def caches (s : State) (g : Nat) (b : List Byte) : State := s.setCache (g % 8192) [(g, b)]

/-- Frame 1's call has this class and reason. -/
def verdictIs (u : State) (cls reason : Nat) : Bool := match (u.head 1).remote.map Remote.found with
  | [some (.crow c place _ _)] => c == cls && bits place.toNat 33 31 == cls && bits place.toNat 41 34 == reason
  | _ => false

/-- Its members. -/
def placedAt (u : State) : List Member := (u.head 1).remote.flatMap fun r => match r.found with
  | some (.crow _ _ ms _) => ms
  | _ => []

/-- Bytes of Cellar at a group's record. -/
def crowCel (s : State) (g : Nat) (b : List Byte) : State := tablesHold s (0x400000 + 128 * g) b

theorem witness_CrowsnestCalls : checks [
    stays (exec (.callTimeout 1 8) live) live,
    gives (exec (.callTimeout 1 8) (onHead (crow 1) (caller 1 1))) (fun u => verdictIs u 6 0x30),
    stays (exec .crowsnestCall live) live,
    gives (exec .crowsnestCall (onHead (crow 0) (caller 1 1))) (fun u => verdictIs u 3 2 && u.crw.rr == 0),
    gives (exec .crowsnestCall (onHead (crow 1) (caller 0 1))) (fun u => verdictIs u 7 0x41),
    (crow 1).shimCheck 1 (shim1 1) == 0 && (crow 1).shimCheck 1 (shim1 6) == 0x12,
    gives (exec .crowsnestCall (onHead (crow 1) (caller 1 6))) (fun u => verdictIs u 5 0x12),
    gives (exec .crowsnestCall (onHead (crow 1) (caller 1 4))) (fun u => verdictIs u 7 0x40),
    gives (exec .crowsnestCall (caches (onHead (crow 1) (caller 1 1)) crowG (crowRec crowG 0 [] 0))) (fun u => verdictIs u 3 1),
    let s := caches (onHead (crow 1) (caller 1 1)) crowG (crowRec crowG 1 [] 0)
    s.readPick [1, 0] 2 == some 0 && (s.placedVersion 1 (shim1 1) false).2 == 0 && gives (exec .crowsnestCall s) (fun u => verdictIs u 1 0 &&
      placedAt u == [⟨1, 6, 0, false, (s.placedVersion 1 (shim1 1) false).1⟩]),
    gives (exec .crowsnestCall (onHead (crow 1) (caller 1 1))) (fun u => u.crw.missQ == [(crowG, [(1, 9)])] &&
      (u.head 1).remote.all (·.taken) &&
      gives (exec (.cacheMissFill crowG) (crowCel u crowG (crowRec crowG 1 [] 0))) (fun t => verdictIs t 1 0 && t.crw.missQ == [] &&
        t.cached crowG == some (crowRec crowG 1 [] 0)) &&
      gives (exec (.cacheMissFill crowG) u) (fun t => (t.head 1).remote.map (·.found) == [some .error])),
    stays (exec (.cacheMissFill 1023) live) live, stays (exec (.crwCacheScrub 1023 .uncorr) live) live,
    gives (exec (.crwCacheScrub 1023 .corr) (caches live 1023 [1])) (fun u => u.rb crwErr 0 && u.cached 1023 == some [1]),
    gives (exec (.crwCacheScrub 1023 .uncorr) (caches live 1023 [1])) (fun u => u.rb crwErr 1 && decide (u.cached 1023 = none)),
    stays (exec (.loadSampleReceive 15) live) live,
    gives (exec (.loadSampleReceive 15) { live with crw := { live.crw with flying := [(15, 7 :: List.replicate 254 0 ++ [9])], loads := [(3840, 1), (3841, 5), (9, 9)] } })
      (fun u => tget 0 u.crw.loads 3840 == 7 && tget 0 u.crw.loads 4095 == 9 && tget 0 u.crw.loads 3841 == 0 && tget 0 u.crw.loads 9 == 9)] := by decide +kernel

/-- A roster entry: weight, flags (VALID, HSRC, version 1), its level-1 domain, port `p`. -/
def entry (w dom p : Nat) : List Byte :=
  natLe 2 w ++ natLe 2 (1 + 8 + 16) ++ natLe 2 dom ++ List.replicate 6 0 ++ natLe 4 (1 + p * 8) ++ List.replicate 16 0

/-- CRW_DATA holds bytes. -/
def crowData (s : State) (b : List Byte) : State := s.putCrwBuf b

/-- A command of Crowsnest answers `r` on a state. -/
def answers (c : Instr) (s : State) (r : Nat) : Bool := gives (exec c s) fun u => u.rf crwCmdStatus 31 24 == r

theorem witness_CrowsnestCommands : checks [
    [Instr.rosterWrite 0, .rosterRead 0, .setHealth 0, .setLoad 0, .groupRead 0, .groupWrite 0, .probe 0, .rank 0].all fun c =>
      same (exec c (live.setB crwCmd 31)) (.next ((live.setB crwCmd 31).setB crwCmdStatus 0)),
    [Instr.rosterWrite 2, .rosterRead 2, .setHealth 2, .setLoad 2, .groupRead 1024, .groupWrite 1024, .rank 1024, .probe 0, .probe 169].all fun c =>
      answers c (crow 0) 1,
    (crow 0).entOk (entry 5 9 511) && !((crow 0).entOk (entry 5 9 512)),
    gives (exec (.rosterWrite 1) (crowData (crow 0) (entry 5 9 511))) (fun u => u.rf crwCmdStatus 31 24 == 0 &&
      u.tgt 1 == tgtOf (entry 5 9 511) && (u.tgt 1).dest == 511 && u.tgt 0 == (crow 0).tgt 0),
    answers (.rosterWrite 1) (crowData (crow 0) (entry 5 9 512)) 2,
    let s := crow 0
    answers (.rosterWrite 1) { s with crw := { s.crw with build := some ⟨true, 0, 1, 0, [], 0, 0, 0, 0, 0, 0, 0, []⟩ } } 4,
    gives (exec (.rosterRead 1) (tablesHold (crow 0) 32 (entry 5 9 511))) (fun u => u.rf crwCmdStatus 31 24 == 0 && u.crwBuf 32 == entry 5 9 511),
    answers (.rosterRead 1) ((crow 0).wrN crwRosterBaseHi 0) 6,
    gives (exec (.setHealth 1) (crowData (crow 0) [4, 0, 0, 0])) (fun u => (u.tgt 1).health == 4 && u.rf crwCmdStatus 31 24 == 0),
    answers (.setHealth 1) (crowData (crow 0) [5, 0, 0, 0]) 7,
    let s := crow 0
    let t := { s with crw := { s.crw with roster := [(0, { s.tgt 0 with hsrc := false }), (1, { s.tgt 1 with kind := 3 })] } }
    answers (.setHealth 0) t 3 && answers (.setLoad 0) t 3 && gives (exec (.setLoad 1) (crowData t [255, 255, 0, 0])) (fun u =>
      tfind u.crw.setLoads 1 == some 65535 && u.rf crwCmdStatus 31 24 == 0),
    answers (.setHealth 1) (live.wrN crwRosterCount 2) 8 && answers (.setLoad 1) (live.wrN crwRosterCount 2) 8,
    gives (exec (.groupRead 1023) (caches (crow 0) 1023 (crowRec 1023 1 [] 0))) (fun u => u.rf crwCmdStatus 31 24 == 0 &&
      u.crwBuf 128 == crowRec 1023 1 [] 0),
    answers (.groupRead 1023) (crow 0) 6,
    let b := recBody [1, 0] [] 7 1 0
    (crow 0).groupOk b && gives (exec (.groupWrite 1023) (caches (crowData (crow 0) b) 1023 [])) (fun u => u.rf crwCmdStatus 31 24 == 0 &&
      u.cached 1023 == some (recSeal 1023 b) && memRead 0 u.cel.mem (64 * 2 ^ 30 + 0x400000 + 128 * 1023) 128 == recSeal 1023 b),
    answers (.groupWrite 1023) (crowData (crow 0) (recBody [2] [] 7 1 0)) 5,
    let s := tablesHold (crow 0) 0 (entry 5 9 5 ++ entry 5 8 6)
    gives (exec (.rank 1023) s) (fun u => u.rf crwCmdStatus 31 24 == 0 && u.rdN (crwData 12) == 2 &&
      u.crwBuf 48 == listBytes (s.ranked [⟨0, 5, [9]⟩, ⟨1, 5, [8]⟩] 1023)),
    answers (.rank 1023) ((crow 0).wrN crwRosterBaseHi 0) 6,
    gives (exec (.probe 4) (crowData (crow 0) [65, 66, 67, 68])) (fun u => u.rdN (crwData 2) == crowG),
    gives (exec (.probe 168) (crow 0)) (fun u => u.rf crwCmdStatus 31 24 == 0),
    same (exec (.crwCfgWrite 0) (crow 1)) (.next ((crow 1).setB crwErr 3)),
    same (exec (.crwCfgWrite 0x80000000) (crow 0)) (.next ((crow 0).setB crwErr 3)),
    (crow 0).crwCfgOk (BitVec.ofNat 32 (crowCfg 1 1)) && gives (exec (.crwCfgWrite (BitVec.ofNat 32 (crowCfg 1 1))) (crow 0)) (fun u => u.crwRun)] := by decide +kernel

/-- A build of two groups is under way; a migration job at group `next`. -/
def builds (s : State) (initial : Bool) (count : Nat) : State :=
  { s with crw := { s.crw with build := some ⟨initial, 1022, count, 1022, [], 0, 0, 0, 64 * 2 ^ 30, 77, 0, 0, [⟨0, 5, [9]⟩, ⟨1, 5, [8]⟩]⟩ } }
def migs (s : State) (op next : Nat) (draining : Bool) : State :=
  { s with crw := { s.crw with mig := some ⟨op, 77, 64 * 2 ^ 30, next, 1024, 0, draining, 0⟩ } }

theorem witness_CrowsnestBuildsAndMigrations : checks [
    gives (exec (.buildStart 0) (builds (crow 0) true 2)) (fun u => u.rf crwBuildCtl 23 16 == 1 && u.rb crwBuildCtl 28),
    gives (exec (.buildStart 0x08000000) (crow 1)) (fun u => u.rf crwBuildCtl 23 16 == 2),
    gives (exec (.buildStart 0) ((crow 0).wf crwMigStatus 2 0 2)) (fun u => u.rf crwBuildCtl 23 16 == 2),
    let s := ((crow 0).wrN crwBuildFirst 1022).wrN crwBuildCount 2
    gives (exec (.buildStart 0) (s.wrN crwBuildCount 3)) (fun u => u.rf crwBuildCtl 23 16 == 3) &&
      gives (exec (.buildStart 0) (s.wrN crwBuildStatusHi 16)) (fun u => u.rf crwBuildCtl 23 16 == 6) &&
      gives (exec (.buildStart 0) ((tablesHold s 0 (entry 5 9 5 ++ entry 5 8 6)).wrN crwBuildInfo 0)) (fun u => u.rf crwBuildCtl 23 16 == 0x0B) &&
      gives (exec (.buildStart 0x0800004D) (let t := (tablesHold s 0 (entry 5 9 5 ++ entry 5 8 6)).wrN crwBuildInfo 256
        { t with attic := { t.attic with boot := { t.attic.boot with reservedStarted := true } } })) (fun u => u.rb crwBuildCtl 31 &&
          u.crw.build == some ⟨true, 1022, 2, 1022, [], 0, 0, 0, 0, 77, 0, 0, [⟨0, 5, [9]⟩, ⟨1, 5, [8]⟩]⟩),
    gives (exec (.buildAbort 0) (crow 0)) (fun u => decide (u.crw = (crow 0).crw)),
    gives (exec (.buildAbort 0) (builds (crow 0) true 2)) (fun u => decide (u.crw.build = none) && shas u.bell.pulses 1922),
    stays (exec (.buildGroup 0) live) live, stays (exec (.buildGroup 1024) (builds (crow 0) true 2)) (builds (crow 0) true 2),
    let s := caches (builds (crow 0) true 2) 1023 (crowRec 1023 1 [] 0x103)
    gives (exec (.buildGroup 1023) s) (fun u => u.crw.build.map (fun b => (b.done, b.low, b.ahead)) == some (1, 1022, [1023]) &&
        (u.cached 1023).map (fun b => (rMig b, rState b, rCur b)) == some (0x103, 1, s.ranked [⟨0, 5, [9]⟩, ⟨1, 5, [8]⟩] 1023) &&
        stays (exec (.buildGroup 1023) u) u) &&
      gives (exec (.buildGroup 1022) (caches (builds (crow 0) true 1) 1022 (crowRec 1022 1 [] 0))) (fun u => decide (u.crw.build = none) &&
        shas u.bell.pulses 1922),
    gives (exec (.buildGroup 1022) (builds (crow 0) false 2)) (fun u => decide (u.crw.build = none) && shas u.bell.pulses 1922),
    gives (exec (.migBegin 0) (crow 0)) (fun u => u.rb crwMigCtl 28 && u.rf crwMigCtl 23 16 == 7),
    gives (exec (.migFinish 0) (crow 1)) (fun u => u.rb crwMigCtl 28), gives (exec (.migAbort 0) (crow 1)) (fun u => u.rb crwMigCtl 28),
    gives (exec (.migBegin 77) (crow 1)) (fun u => u.migPhase == 1 && u.crw.mig == some ⟨1, 77, 0, 0, 1024, 0, false, 0⟩),
    gives (exec (.migFinish 77) ((crow 1).wf crwMigStatus 2 0 2)) (fun u => u.migPhase == 3 && u.rb crwMigCtl 31),
    gives (exec (.migAbort 77) ((crow 1).wf crwMigStatus 2 0 2)) (fun u => u.migPhase == 4 && u.rb crwMigCtl 31),
    [Instr.migStep, .migDrainEnd, .migDrainTimeout].all fun c => stays (exec c live) live,
    let s := caches (migs (crow 1) 1 1022 false) 1022 (crowRec 1022 1 [0, 1] 0)
    gives (exec .migStep s) (fun u => (u.cached 1022).map rState == some 2 && u.rdN crwMigLeft == 1 &&
      u.crw.mig.map (fun j => (j.next, j.moved, j.draining)) == some (1023, 1, false)),
    let s := caches (migs ((crow 1).wrN crwMigLeft 1) 3 1023 false) 1023 (crowRec 1023 2 [0, 1] 0x201)
    gives (exec .migStep s) (fun u => (u.cached 1023).map rState == some 1 && u.rdN crwMigLeft == 0 && u.markBit &&
      u.crw.mig.map (fun j => (j.next, j.moved, j.draining, j.oldBit)) == some (1024, 1, true, 0)),
    stays (exec .migStep (migs (crow 1) 1 1024 true)) (migs (crow 1) 1 1024 true),
    gives (exec .migDrainEnd (migs ((crow 1).wrN crwEpoch 0xFFFFFFFE) 2 1024 true)) (fun u => u.migPhase == 0 && u.rdN crwEpoch == 0xFFFFFFFF &&
      shas u.bell.pulses 1923 && decide (u.crw.mig = none)),
    gives (exec .migDrainEnd (migs (crow 1) 1 1024 true)) (fun u => u.migPhase == 2),
    let s := (migs (crow 1) 1 1024 true).wrN (crwMigInflight 0) 1
    stays (exec .migDrainEnd s) s && gives (exec .migDrainTimeout s) (fun u => u.migPhase == 2 && decide (u.crw.mig = none)),
    stays (exec .migDrainTimeout (migs (crow 1) 1 1024 true)) (migs (crow 1) 1 1024 true),
    gives (exec (.migMark 0) (crow 1)) (fun u => u.rf crwMigStatus 10 8 == 1),
    let s := (crow 1).wf crwMigStatus 2 0 2
    gives (exec (.migMark 1024) s) (fun u => u.rf crwMigStatus 10 8 == 3) && gives (exec (.migMark 1023) s) (fun u => u.rf crwMigStatus 10 8 == 4) &&
      gives (exec (.migMark 1023) (caches s 1023 (crowRec 1023 1 [] 0))) (fun u => u.rf crwMigStatus 10 8 == 2) &&
      gives (exec (.migMark 1023) ((caches s 1023 (crowRec 1023 2 [0, 1] 0x201)).wrN crwMigLeft 0x7FFFFF)) (fun u => u.rf crwMigStatus 10 8 == 0 &&
        u.crw.marked && u.rdN crwMigLeft == 0x7FFFFE && (u.cached 1023).map (fun b => (rState b, rMig b)) == some (3, 0x203))] := by decide +kernel


/-! ## Notices and check units -/

/-- A frame with IPv4 at 14, UDP at 34 and a version-1 shim of operation `op` at 42, `d` behind it; its head. -/
def kvData (op : Nat) (d : List Byte) : List Byte :=
  List.replicate 6 0x22 ++ List.replicate 6 0x44 ++ natBe 2 0x800 ++
    natBe 1 0x45 ++ natBe 1 0 ++ natBe 2 (56 + d.length) ++ natBe 4 0 ++ natBe 1 64 ++ natBe 1 17 ++ natBe 2 0 ++ natBe 4 7 ++ natBe 4 9 ++
    natBe 2 5 ++ natBe 2 6 ++ natBe 2 (36 + d.length) ++ natBe 2 0 ++ shim1 op ++ d
def kvHead (op : Nat) : Head :=
  { ((((Head.init.put 157 148 14).put 167 158 34).put 207 198 42).put 218 216 1).put 557 552 63 with
    hv := List.replicate 320 0 ++ shim1 op ++ List.replicate 164 0 }
def kvFrame (op : Nat) (d : List Byte) : Frame :=
  { Frame.init with port := 3, data := kvData op d, orig := kvData op d, len := (kvData op d).length + 4, head := kvHead op }

/-- Notices of every type are enabled with RATE 1; frame 1 waits for its decision after a refusal. -/
def noticing (x : Frame) : State := (((live.wrN crwNoticeCfg 0x381F).wrN crwNoticeRate 1).newFrame x).1
def refusedFrame : Frame := { kvFrame 1 [1, 2, 3, 4] with settled := true, events := [(1, 0x51)], head := kvHead 1 }

/-- Frame 1's copy on port 3 has ended with result `r`. -/
def lostCopy (r : Nat) : State :=
  let s := noticing { kvFrame 1 [1, 2, 3, 4] with isOver := true, settled := true, noticed := true }
  { s with stw := { s.stw with copies := [(5, { Copy.init with
      fid := 1, dst := 0, port := 3, counts := true, st := 3, result := r, member := some ⟨7, 3, 2, true, 1⟩ })] } }

theorem witness_NoticesAndCopyOutcomes : checks [
    stays (exec (.noticeDecide 1) live) live,
    gives (exec (.noticeDecide 1) (noticing { refusedFrame with events := [] })) (fun u => u.pipe.nextFid == 2 &&
      (!(u.hasFrame 1) || (u.frame 1).noticed)),
    gives (exec (.noticeDecide 1) ((noticing refusedFrame).wrN crwNoticeRate 0)) (fun u => u.pipe.nextFid == 2 && (u.frame 1).noticed),
    gives (exec (.noticeDecide 1) ((noticing refusedFrame).setTokens 0 999999)) (fun u => u.pipe.nextFid == 2 && u.noticeTokens 0 == 999999),
    gives (exec (.noticeDecide 1) (noticing refusedFrame)) (fun u => u.pipe.nextFid == 3 && u.noticeTokens 0 == 63000000 &&
      (u.frame 2).fab.queues == [31] && beAt (u.frame 2).data 0 6 == 0x444444444444 && beAt (u.frame 2).data 71 2 == 0x151 &&
      (u.frame 2).len == (u.frame 2).data.length + 4 && (u.frame 1).noticed),
    gives (exec (.noticeTokenRefill 15) ((live.wrN crwNoticeRate 65535).setTokens 15 60000000)) (fun u => u.noticeTokens 15 == 64000000),
    gives (exec (.noticeTokenRefill 15) ((live.wrN crwNoticeRate 1).setTokens 15 0)) (fun u => u.noticeTokens 15 == 128),
    stays (exec (.copyOutcome 5) live) live,
    gives (exec (.copyOutcome 5) (lostCopy 0)) (fun u => u.pipe.nextFid == 2 && (decide (tfind u.stw.copies 5 = none) || (u.copy 5).told)),
    gives (exec (.copyOutcome 5) ((lostCopy 16).wrN crwNoticeCfg 0)) (fun u => u.pipe.nextFid == 2),
    gives (exec (.copyOutcome 5) (lostCopy 16)) (fun u => u.pipe.nextFid == 3 && u.noticeTokens 0 == 63000000 && (u.frame 2).fab.queues == [31] &&
      (u.frame 2).port == 3 && beAt (u.frame 2).data 71 1 == 3 && beAt (u.frame 2).data 94 4 == 0x00070290)] := by decide +kernel

/-- Profile 63: 32 bits, polynomial 0x04C11DB7, no fold. -/
def prof63 (cfg : Nat) : State := (live.wrN (chkProfCfg 63) cfg).wrN (chkProfPolyLo 63) 0x04C11DB7

/-- Frame 1 waits for its verdict, with trailer `t` behind four bytes of data. -/
def verifying (cfg op t : Nat) : State :=
  let x := kvFrame op ([1, 2, 3, 4] ++ natBe 4 t)
  ((prof63 cfg).newFrame { x with fab := { x.fab with verify := 1 } }).1
def goodTrailer : Nat := ((prof63 0x80000004).profile 63).check [1, 2, 3, 4] 0

/-- Copy 5 of frame 1 has its cells and waits for its trailer. -/
def appending (cfg : Nat) : State :=
  let s := ((prof63 cfg).newFrame (kvFrame 2 [1, 2, 3, 4])).1
  { s with stw := { s.stw with
      copies := [(5, { Copy.init with fid := 1, dst := 0, port := 3, chk := 1 })], eg := [(16, ⟨1, 0, 31, 100, 100, 0, 2, 0⟩)] } }

theorem witness_CheckUnits : checks [
    stays (exec (.checkVerify 1) live) live,
    let s := (verifying 0x80000004 2 0)
    let t := s.setFrame 1 { s.frame 1 with bad := true }
    gives (exec (.checkVerify 1) t) (fun u => (u.fab 1).verify == 2 && (u.frame 1).data == (s.frame 1).data),
    gives (exec (.checkVerify 1) (verifying 0x80000004 2 goodTrailer)) (fun u => (u.fab 1).verify == 2 && (u.frame 1).data.length == 74 &&
      beAt (u.frame 1).data 16 2 == 60 && beAt (u.frame 1).data 38 2 == 40),
    gives (exec (.checkVerify 1) (verifying 0x80000004 2 (goodTrailer + 1))) (fun u => (u.frame 1).isOver && (u.frame 1).fab.queues == [] &&
      (u.frame 1).events == [(5, 0x60)]),
    gives (exec (.checkVerify 1) (verifying 0x80040004 4 0)) (fun u => !(u.hasFrame 1) || (u.frame 1).isOver),
    gives (exec (.checkVerify 1) (verifying 0x80000004 4 0)) (fun u => (u.fab 1).verify == 2 && (u.frame 1).data.length == 74 &&
      (u.frame 1).data.getD 47 0 == 8),
    stays (exec (.checkAppend 5) live) live,
    gives (exec (.checkAppend 5) (appending 0x80000004)) (fun u => (u.copy 5).chk == 2 && (u.copy 5).bytes.length == 78 &&
      beAt (u.copy 5).bytes 74 4 == goodTrailer && beAt (u.copy 5).bytes 16 2 == 64),
    gives (exec (.checkAppend 5) (appending 0x00000004)) (fun u => decide (tfind u.stw.copies 5 = none) ||
      ((u.copy 5).st == 3 && (u.copy 5).result == 0x16)),
    gives (exec (.checkProfileWrite 63 0x80040004) (prof63 0x80000004)) (fun u => u.rb (chkProfCfg 63) 18 && u.rb (chkProfCfg 63) 31),
    gives (exec (.checkProfileWrite 63 0x80040003) (prof63 0x80000004)) (fun u => u.rb chkErr 0 && u.rdN (chkProfCfg 63) == 0x80000004),
    gives (exec (.checkProfileWrite 63 0x80020108) (prof63 0)) (fun u => u.rf (chkProfCfg 63) 17 16 == 2 && u.rb (chkProfCfg 63) 31),
    gives (exec (.checkProfileWrite 63 0x80000003) (prof63 0)) (fun u => u.rb chkErr 0 && u.rdN (chkProfCfg 63) == 0),
    gives (exec (.checkProfileWrite 63 0x00030000) (prof63 0)) (fun u => u.rf (chkProfCfg 63) 17 16 == 3)] := by decide +kernel


/-! ## Stairwell -/

/-- A frame of `n` bytes without FCS at slice 0, for queue 4095 (port 511, class 7), holding its units. -/
def forQ (n : Nat) (admitted : Bool) : Frame :=
  { Frame.init with
    port := 3, data := List.replicate n 0xAA, orig := List.replicate n 0xAA, len := n + 4, units := unitsOf (n + 4)
    fab := { Fab.init with tc := 7, dest := 511, declared := n + 4, queues := [4095], ports := [(511, none)],
                           admitted := admitted, owed := if admitted then [15] else [] } }
def offering (s : State) (x : Frame) : State := (s.newFrame x).1

/-- Class 7 never fits on die (depth against 0 free units); it may spill or not. -/
def tight (spill : Bool) : State := (live.wf (stwTcCfg 7) 3 0 0).putB (stwTcCfg 7) 16 spill
def bigQ : Frame := { forQ 60 false with units := 241664 }

/-- Queue 4095 of slice 0 in a state with a frame in its spill order. -/
def spilling (r : SpillRec) (x : Frame) : State :=
  (offering live x).setVoq 0 4095 { Voq.init with st := 1, spill := [r], blocks := if r.written then [0] else [], fill := if r.written then 60 else 0 }

theorem witness_StairwellAdmissionAndSpill : checks [
    stays (exec (.voqAdmit 1) live) live,
    gives (exec (.voqAdmit 1) (offering live { forQ 60 false with bad := true })) (fun u => !(u.hasFrame 1)),
    gives (exec (.voqAdmit 1) (offering live (forQ 60 false))) (fun u => (u.voq 0 4095).die == [1] && (u.fab 1).admitted && (u.frame 1).settled &&
      (u.fab 1).owed == [15]),
    gives (exec (.voqAdmit 1) (offering (tight true) bigQ)) (fun u => (u.voq 0 4095).die == [] && (u.voq 0 4095).spill.map (·.fid) == [1] &&
      (u.voq 0 4095).st != 0 && (u.fab 1).admitted),
    gives (exec (.voqAdmit 1) ((offering (tight true) bigQ).setVoq 0 4095 { Voq.init with st := 2, spill := [⟨9, true, false, [], 64⟩] })) (fun u =>
      (u.voq 0 4095).st == 2 && (u.voq 0 4095).latch == [1]),
    gives (exec (.voqAdmit 1) (offering ((tight false).setB (stwPortCfg 3) 7) bigQ)) (fun u => (u.voq 0 4095).die == [1]),
    gives (exec (.voqAdmit 1) (offering (tight false) bigQ)) (fun u => !(u.hasFrame 1) || (u.frame 1).isOver),
    gives (exec (.voqAdmit 1) (offering (tight false) { bigQ with head := kvHead 1 })) (fun u => (u.frame 1).isOver &&
      [(1, 0x51), (1, 0x52)].any fun e => (u.frame 1).events == [e]),
    stays (exec (.spillWrite 15 4095) live) live,
    let s := spilling ⟨1, false, false, [], 128⟩ (forQ 60 true)
    gives (exec (.spillWrite 0 4095) s) (fun u => (u.voq 0 4095).spill.map (fun r => (r.written, r.pieces)) == [(true, [(0, 60)])] &&
      (u.frame 1).units == 0 && memRead 0 u.cel.mem 0 60 == List.replicate 60 0xAA),
    stays (exec (.spillReadback 0 4095 true) ((spilling ⟨1, false, true, [(0, 60)], 128⟩ (forQ 60 true)).setVoq 0 4095
      { Voq.init with spill := [⟨1, false, true, [(0, 60)], 128⟩] })) ((spilling ⟨1, false, true, [(0, 60)], 128⟩ (forQ 60 true)).setVoq 0 4095
      { Voq.init with spill := [⟨1, false, true, [(0, 60)], 128⟩] }),
    gives (exec (.spillReadback 0 4095 false) (spilling ⟨1, true, false, [], 128⟩ (forQ 60 true))) (fun u => (u.voq 0 4095).die == [1] &&
      (u.voq 0 4095).spill == []),
    let s := spilling ⟨1, false, true, [(0, 60)], 128⟩ { forQ 60 true with units := 0, data := [] }
    let t := { s with cel := { s.cel with mem := memWrite 0 [] 0 (List.replicate 60 0xBB) } }
    gives (exec (.spillReadback 0 4095 false) t) (fun u => (u.voq 0 4095).die == [1] && (u.frame 1).data == List.replicate 60 0xBB &&
        (u.frame 1).units == 2 && (u.voq 0 4095).blocks == []) &&
      gives (exec (.spillReadback 0 4095 false) { t with cel := { t.cel with poison := [1] } }) (fun u => !(u.hasFrame 1) && u.rb stwErr 3 &&
        u.rdN stwErrLoc == 4095) &&
      gives (exec (.spillReadback 0 4095 true) t) (fun u => !(u.hasFrame 1) && u.rb stwErr 3 && (u.voq 0 4095).st == 0 &&
        (u.voq 0 4095).blocks == [])] := by decide +kernel

/-- Frame 1 stands at the head of queue 4095 of slice 0, `sent` of its cell space gone. -/
def crossing (n sent : Nat) : State :=
  let s := ((offering live (forQ n true)).setB (pchPortStatus 511) 5).setVoq 0 4095 { Voq.init with die := [1], sent := sent }
  if sent = 0 then s else { s with stw := { s.stw with egCur := [(4095, 0)], eg := [(31, ⟨1, 15, 4095, 16 + n + 4, sent, 4, 0, 0⟩)] } }

/-- A cell of frame 1 is on its way, `got` bytes of it having come. -/
def onWay (n got : Nat) : State :=
  let s := offering live (forQ 600 true)
  { s with stw := { s.stw with cells := [⟨0, 15, 4095, [(1, n)]⟩], eg := [(31, ⟨1, 15, 4095, 620, got, 11, 0, 0⟩)] } }

/-- A copy of frame 1 that has been begun at slice 15. -/
def finished : State :=
  let s := offering live { forQ 60 true with mark := some true, sets := [], complete := true }
  { s with stw := { s.stw with
      copies := [(7, { Copy.init with fid := 1, dst := 15, port := 511, tc := 7, st := 2 })], eg := [(31, ⟨1, 15, 4095, 80, 80, 0, 2, 0⟩)] } }

/-- Copies 7 and 8 wait in the queue of port 511, class 7; the second has been begun. -/
def waiting2 : State :=
  let s := offering live (forQ 60 true)
  let y : Copy := { Copy.init with fid := 1, dst := 15, port := 511, tc := 7, counts := true }
  { s with stw := { s.stw with copies := [(7, y), (8, { y with st := 2 })], egq := [(4095, [7, 8])] } }

theorem witness_StairwellCrossbarAndEgress : checks [
    stays (exec (.grantRound []) live) live,
    (crossing 600 0).turnOf 4095 == some 0 && decide ((crossing 600 0).ctUrgent 15 = none),
    gives (exec (.grantRound [(0, 4095)]) (crossing 600 0)) (fun u => u.stw.cells == [⟨0, 15, 4095, [(1, 256)]⟩] && (u.voq 0 4095).sent == 256 &&
      u.stw.egCur == [(4095, 0)] && u.egFrame 1 15 == some ⟨1, 15, 4095, 620, 0, 11, 0, 0⟩),
    gives (exec (.grantRound [(0, 4095)]) { crossing 600 0 with stw := { (crossing 600 0).stw with egCur := [(4095, 9)] } }) (fun u =>
      u.stw.cells == []),
    gives (exec (.grantRound [(0, 4095)]) (crossing 600 364)) (fun u => u.stw.cells == [⟨0, 15, 4095, [(1, 256)]⟩] && (u.voq 0 4095).die == [] &&
      u.stw.egCur == [] && u.stw.rr == [(4095, 0)] && (u.fab 1).queues == []),
    stays (exec (.cellArrive 0 4095 true) live) live,
    gives (exec (.cellArrive 0 4095 true) (onWay 256 0)) (fun u => u.rb stwErr 4 && u.stw.cells == []),
    gives (exec (.cellArrive 0 4095 false) (onWay 256 0)) (fun u => u.egList 4095 == [1] && (u.copy 1).fid == 1 && (u.copy 1).port == 511 &&
      (u.copy 1).units == unitsOf 604),
    gives (exec (.cellArrive 0 4095 false) (onWay 256 256)) (fun u => u.egFrame 1 15 == some ⟨1, 15, 4095, 620, 512, 3, 8, 0⟩ && u.stw.copies == []),
    stays (exec (.copyFinishReport 1 15) live) live,
    gives (exec (.copyFinishReport 1 15) finished) (fun u => (u.fab 1).owed == [] && (u.frame 1).isOver && (u.frame 1).mark == none),
    stays (exec (.downHoldExpire 3) (up 3)) (up 3),
    gives (exec (.downHoldExpire 511) waiting2) (fun u => (tfind u.pipe.lastHold 511).isSome && (u.copy 7).st == 3 && (u.copy 7).result == 0x10 &&
      (u.copy 8).st == 2),
    stays (exec (.pantryScrub 15 0 .ok) live) live,
    gives (exec (.pantryScrub 15 0 .corr) live) (fun u => u.rb stwErr 1),
    gives (exec (.pantryScrub 15 99 .uncorr) live) (fun u => u.rb stwErr 2 && u.rf stwErrLoc 19 16 == 15),
    gives (exec (.pantryScrub 0 1 .uncorr) (crossing 60 0)) (fun u => u.rb stwErr 2 && (!(u.hasFrame 1) || (u.frame 1).isOver))] := by decide +kernel

/-- STW_DATA holds `d`. -/
def stwHolds (d : Nat) : State := live.wrWide (stwData 0) 18 d

theorem witness_StairwellCommandsAndProfiles : checks [
    [Instr.stwSetWrite 0, .stwSetRead 0, .stwGroupWrite 0, .stwGroupRead 0, .stwMemberWrite 0, .stwMemberRead 0, .flush 0].all fun c =>
      same (exec c (live.setB stwCmd 31)) (.next ((live.setB stwCmd 31).setB stwCmdStatus 0)),
    [Instr.stwSetWrite 1024, .stwSetRead 1024, .stwGroupWrite 4096, .stwGroupRead 4096].all fun c => gives (exec c live) fun u =>
      u.rf stwCmdStatus 31 24 == 1,
    gives (exec (.stwSetWrite 1023) (stwHolds (2 ^ 574))) (fun u => u.rf stwCmdStatus 31 24 == 2 && u.stw.sets == []),
    gives (exec (.stwSetWrite 1023) (stwHolds (2 ^ 575 + 2 ^ 511 + 7))) (fun u => u.rf stwCmdStatus 31 24 == 0 &&
      decide (tfind u.stw.sets 1023 = some ⟨BitVec.ofNat 512 (2 ^ 511 + 7), [0, 0, 0, 0x8000]⟩) &&
      gives (exec (.stwSetRead 1023) (u.wrN (stwData 0) 0)) (fun t => t.rdWide (stwData 0) 18 == 2 ^ 575 + 2 ^ 511 + 7)),
    gives (exec (.stwGroupWrite 4095) (stwHolds (65 * 2 ^ 16))) (fun u => u.rf stwCmdStatus 31 24 == 2),
    gives (exec (.stwGroupWrite 4095) (stwHolds (64 * 2 ^ 16 + 16321))) (fun u => u.rf stwCmdStatus 31 24 == 2),
    gives (exec (.stwGroupWrite 4095) (stwHolds (5 * 2 ^ 32 + 2 ^ 31 + 64 * 2 ^ 16 + 16320))) (fun u => u.rf stwCmdStatus 31 24 == 0 &&
      tfind u.stw.groups 4095 == some ⟨true, 64, 16320, 5⟩ &&
      gives (exec (.stwGroupRead 4095) (u.wrN (stwData 0) 0)) (fun t => t.rdWide (stwData 0) 3 == 5 * 2 ^ 32 + 2 ^ 31 + 64 * 2 ^ 16 + 16320)),
    gives (exec (.stwMemberWrite 16383) (stwHolds 512)) (fun u => u.rf stwCmdStatus 31 24 == 2),
    gives (exec (.stwMemberWrite 16383) (stwHolds (2 ^ 79 + 2 ^ 32 + 2 ^ 31 + 511))) (fun u => u.rf stwCmdStatus 31 24 == 0 &&
      tfind u.stw.members 16383 == some ⟨true, 511, 2 ^ 47 + 1⟩ &&
      gives (exec (.stwMemberRead 16383) (u.wrN (stwData 0) 0)) (fun t => t.rdWide (stwData 0) 3 == 2 ^ 79 + 2 ^ 32 + 2 ^ 31 + 511)),
    gives (exec (.flush 0) (stwHolds 512)) (fun u => u.rf stwCmdStatus 31 24 == 2),
    gives (exec (.flush 0) (stwHolds 511)) (fun u => u.rf stwCmdStatus 31 24 == 0),
    gives (exec (.flush 0) (waiting2.wrN (stwData 0) (128 * 2 ^ 16 + 511))) (fun u => u.rf stwCmdStatus 31 24 == 0 && (u.copy 7).st == 3 &&
      (u.copy 7).result == 0x11 && (u.copy 8).st == 2),
    gives (exec (.hashProfileCommit 7 0x80000000) { live with held := [(stwHashPiece 7 0, 0x00040004), (stwHashPiece 7 3, 0x00100010)] }) (fun u =>
      u.rb (stwHashCtl 7) 31 && u.rdN (stwHashPiece 7 0) == 0x00040004 && u.rdN (stwHashPiece 7 3) == 0x00100010 && u.held == []),
    gives (exec (.hashProfileCommit 7 0) { live with held := [(stwHashPiece 7 0, 0x00100010), (stwHashPiece 7 3, 0x00100010)] }) (fun u =>
      u.rb stwErr 0 && u.rdN (stwHashPiece 7 0) == 0 && u.held == [])] := by decide +kernel


/-! ## Sheet -/

/-- A policer: two-rate mode, with its buckets. -/
def pol2 (tc te tick : Nat) : Pol := ⟨[0x80000000, 10, 20, 3, 4], tc, te, tick, false⟩

/-- SHT_DATA holds a policer's words; slices 0 and 15 are named. -/
def polData (w0 w1 w2 w3 w4 : Nat) : State :=
  [(0, w0), (1, w1), (2, w2), (3, w3), (4, w4)].foldl (fun (s : State) p => s.wrN (shtData p.1) p.2) (live.wrN shtCmdSlices 0x8001)

/-- Tick 1,000 of device time. -/
def at1000 (s : State) : State := { s with time := 128000 * 2 ^ 24 }

theorem witness_SheetPolicersAndBuckets : checks [
    [(0, 0, 5), (196600, 262100, 9)].all fun p => [0, 1, 2].all fun m =>
      let q : Pol := { pol2 p.1 p.2.1 p.2.2 with cfg := [BitVec.ofNat 32 (m * 2 ^ 30), 65537, 99999, 3, 4] }
      [9, 10, 13].all fun t => q.refill (t + 1) == (q.refill t).refill (t + 1),
    let s := at1000 ((live.wrN (shtQshapeRate 4095) 7).wrN (shtQshapeBurst 4095) 1)
    gives (exec .refillTick { s with sht := { s.sht with pols := [(262143, pol2 0 0 990)], shps := [(4095, { Shp.init with tokens := -100, tick := 990 }),
        (8191, { Shp.init with tokens := -5, tick := 990 })] } }) (fun u => u.sht.pols == [(262143, pol2 100 200 1000)] &&
      (u.shp 4095).tokens == -30 && (u.shp 8191).tokens == -5 && (u.shp 8191).tick == 1000),
    [Instr.policerWrite 0, .policerRead 0].all fun c => same (exec c (live.setB shtCmd 31)) (.next ((live.setB shtCmd 31).setB shtCmdStatus 0)),
    [(0xC0000000, 0, 0, 0, 0), (1, 0, 0, 0, 0), (0, 0, 0, 0x01000000, 0), (0, 0, 0, 0, 0x01000000), (0x40000000, 1, 0, 0, 0),
        (0x80000000, 1, 1, 1, 0), (0x80000000, 2, 1, 1, 1), (0x40000000, 1, 1, 1, 1)].all fun w =>
      gives (exec (.policerWrite 5) (polData w.1 w.2.1 w.2.2.1 w.2.2.2.1 w.2.2.2.2)) fun u => u.rf shtCmdStatus 31 24 == 1 && u.sht.pols == [],
    gives (exec (.policerWrite 0x3FFF) (at1000 (polData 0x80000000 10 20 3 4))) (fun u => u.rf shtCmdStatus 31 24 == 0 &&
      u.sht.pols == [(16383, pol2 196608 262144 1000), (15 * 16384 + 16383, pol2 196608 262144 1000)]),
    let s := at1000 (polData 0 0 0 0 0)
    gives (exec (.policerRead 0x3FFF) { s with sht := { s.sht with pols := [(16383, pol2 131072 65536 1000)] } }) (fun u => u.rf shtCmdStatus 31 24 == 0 &&
      (upto 7).map (fun i => u.rdN (shtData i)) == [0x80000000, 10, 20, 3, 4, 2, 1]),
    gives (exec (.policerRead 0x3FFF) ((polData 7 7 7 7 7).eccFlag .policer 16383 .uncorr)) (fun u => u.rf shtCmdStatus 31 24 == 2 &&
      (u.pol 0 16383).bad && u.rb shtErr 2 && u.rdN (shtData 0) == 7),
    stays (exec (.sheetScrub false 15 16383 .ok) live) live, stays (exec (.sheetScrub true 0 0x21FF .ok) live) live,
    gives (exec (.sheetScrub false 15 16383 .corr) live) (fun u => u.rb shtErr 1 && u.ecc == []),
    gives (exec (.sheetScrub false 15 16383 .uncorr) live) (fun u => u.rb shtErr 2 && (u.pol 15 16383).bad && u.rdN shtErrLoc == 15 * 2 ^ 24 + 16383),
    gives (exec (.sheetScrub true 0 0x21FF .corr) live) (fun u => u.rb shtErr 1)] := by decide +kernel

theorem shaper_scrub_uncorrectable : (match execSheetScrub true 0 0x21FF .uncorr live with
    | .next u => u.rb shtErr 3 && (u.shp 0x21FF).bad
    | _ => false) = true := by
  rfl

/-- Copy `k` waits at class `c` of port 3, all its cells having come, in a state whose port 3 is up. -/
def queued3 (s : State) (k c : Nat) : State :=
  let r := s.newFrame { Frame.init with port := 3, data := List.replicate 60 0xAA, len := 64, fab := { Fab.init with declared := 64, owed := [0] } }
  { r.1 with stw := { r.1.stw with
      copies := tput r.1.stw.copies k { Copy.init with fid := r.2, dst := 0, port := 3, tc := c, units := 2 }
      egq := tput r.1.stw.egq (24 + c) [k]
      eg := tput r.1.stw.eg (16 * r.2) ⟨r.2, 0, 24 + c, 80, 80, 0, 2, 0⟩ } }

/-- No queue of any port has a head. -/
theorem portClean_id (s : State) (n : Nat) (h : s.stw.egq = []) : s.portClean n = s := by
  have e : ∀ c, (s.egList (8 * n + c)).length = 0 := by intro c; simp [State.egList, h, tget, tfind]
  have step : ∀ l : List Nat, s.each l (fun t c => State.queueClean n c (t.egList (8 * n + c)).length t) = s := by
    intro l
    induction l with
    | nil => rfl
    | cons c l ih => simpa [State.each, e, State.queueClean] using ih
  exact step (upto 8)

theorem witness_SheetShapersDecisionsAndSamples_idle (n : Nat) : live.portClean n = live := portClean_id live n rfl

theorem witness_SheetShapersDecisionsAndSamples : checks [
    gives (exec (.shaperRateWrite 0x21FF 9) live) (fun u => u.held == [(shpRateReg 0x21FF, 9)] &&
      gives (exec (.shaperBurstWrite 0x21FF 7) u) (fun t => t.rd (shpRateReg 0x21FF) == 9 && t.rf (shpBurstReg 0x21FF) 23 0 == 7 && t.held == [] &&
        (t.shp 0x21FF).cut)),
    gives (exec (.shaperBurstWrite 4095 0xFFFFFF) live) (fun u => u.rf (shpBurstReg 4095) 23 0 == 0xFFFFFF),
    stays (exec (.schedDecision 3) (sending 60 false)) (sending 60 false),
    stays (exec (.schedDecision 3) ((queued3 (up 3) 1 7).wf mstStatus 31 30 1)) ((queued3 (up 3) 1 7).wf mstStatus 31 30 1),
    gives (exec (.schedDecision 511) waiting2) (fun u => (u.copy 7).result == 0x10 && (u.copy 7).st == 3 && decide ((u.port 511).tx = none)),
    stays (exec (.schedDecision 3) (up 3)) (up 3), decide ((up 3).portClean 3 = up 3),
    let s := queued3 (up 3) 1 0
    let t := { s with stw := { s.stw with eg := [(16, ⟨1, 0, 24, 80, 79, 1, 1, 0⟩)] } }
    decide (t.portClean 3 = t) && gives (exec (.schedDecision 3) t) (fun u => decide (u.pipe = t.pipe ∧ u.stw = t.stw)),
    [7, 6, 5, 0].all fun c => let s := queued3 (up 3) 1 c
      decide (s.portClean 3 = s) && gives (exec (.schedDecision 3) s) (fun u => ((u.port 3).tx.map fun t => (t.copy, t.declared)) == some (1, 64) &&
        (u.copy 1).st == 1 && u.egList (24 + c) == []),
    gives (exec (.schedDecision 3) (queued3 (queued3 (up 3) 1 6) 2 7)) (fun u => ((u.port 3).tx.map (·.copy)) == some 2 && u.egList 30 == [1]),
    let s := live.wf atcPwrStatus 15 0 0x7FFF
    gives (exec .sampleInstant s) (fun u => u.crw.flying == [(15, List.replicate 256 0)] && u.sht.sampN == 0),
    let s := (live.wf atcPwrStatus 15 0 0x7FFF).wrN shtSampCtl 16
    gives (exec .sampleInstant s) (fun u => u.sht.sampN == 1 && u.sht.seq == 0 && u.rf shtSampWidx 16 0 == 0),
    let s := (((live.wf atcPwrStatus 15 0 0x7FFF).wrN shtSampCtl 16).wrN shtSampRecords 16).wrN shtSampWidx 15
    gives (exec .sampleInstant { s with sht := { s.sht with sampN := 15, seq := 2 ^ 32 - 1 } }) (fun u => u.sht.sampN == 16 && u.sht.seq == 0 &&
      u.rf shtSampWidx 16 0 == 0)] := by decide +kernel


/-! ## Cupboard -/

/-- Pool 7: `n` buffers of 2^`log2` bytes at 97 GiB, its ring at 98 GiB, the owner records at 100 GiB; not valid. -/
def poolRegs (s : State) (n log2 : Nat) : State :=
  [(cupCtlBaseHi, 25), (cupPoolCfg 7, log2), (cupPoolCount 7, n), (cupPoolBaseHi 7, 24), (cupPoolBaseLo 7, 0x40000000), (cupPoolRingHi 7, 24),
    (cupPoolRingLo 7, 0x80000000)].foldl (fun (s : State) p => s.wrN p.1 p.2) s

/-- Pool 7 is READY with four buffers of 2^`log2` bytes and this free store. -/
def ready (s : State) (log2 : Nat) (p : Pool) : State :=
  let t := ((poolRegs s 4 log2).setB (cupPoolCfg 7) 31).wf (cupPoolStatus 7) 31 30 2
  { t with cup := { t.cup with pools := [(7, p)] } }

/-- Buffer `i` of pool 7 and its handle with generation `g`. -/
def bufAt (log2 i : Nat) : Nat := 97 * 2 ^ 30 + i * 2 ^ log2
def handle (log2 i g : Nat) : Nat := g * 2 ^ 24 + (2 ^ 30 + i * 2 ^ log2) / 1024

/-- Buffer `i` of 1,024 bytes is allocated with this owner record. -/
def owned (i : Nat) (r : OwnerRec) : State :=
  (ready live 10 { Pool.empty with alloc := [i], cache := [0] }).ownerWrite (bufAt 10 i) r

theorem witness_CupboardPoolsAndReclaim : checks [
    let s := poolRegs live 4 10
    s.poolOk 7 && gives (exec (.poolValidWrite 7 0x8000000A) s) (fun u => u.poolValid 7 && u.rf (cupPoolStatus 7) 31 30 == 1 && !(u.poolReady 7)) &&
      same (exec (.poolValidWrite 7 0x8000000B) s) (.next (s.setB cupErr 0)) &&
      gives (exec (.poolValidWrite 7 0x40000011) s) (fun u => u.rf (cupPoolCfg 7) 4 0 == 17 && u.rb (cupPoolCfg 7) 30 && !(u.poolValid 7)),
    [(0, 10), (2097153, 10), (4, 9), (4, 18)].all fun p => let s := poolRegs live p.1 p.2
      same (exec (.poolValidWrite 7 (BitVec.ofNat 32 (2 ^ 31 + p.2))) s) (.next (s.setB cupErr 0)),
    let s := ready live 10 { Pool.empty with cache := [0, 1, 2, 3] }
    stays (exec (.poolValidWrite 7 0x8000000A) s) s && same (exec (.poolValidWrite 7 0x8000000B) s) (.next (s.setB cupErr 0)) &&
      gives (exec (.poolValidWrite 7 10) s) (fun u => !(u.poolValid 7) && (u.pool 7).free == 0),
    let s := ready live 10 { Pool.empty with cache := [0, 1, 2], alloc := [3] }
    same (exec (.poolValidWrite 7 10) s) (.next (s.setB cupErr 0)),
    stays (exec (.poolFormatDone 7) live) live,
    gives (exec (.poolFormatDone 7) (((poolRegs live 4 10).setB (cupPoolCfg 7) 31).wf (cupPoolStatus 7) 31 30 1)) (fun u => u.poolReady 7 &&
      (u.pool 7).free == 4 && (u.pool 7).cache == [0, 1, 2, 3] && u.rf (cupPoolStatus 7) 21 0 == 4),
    stays (exec (.cacheRefill 7) (ready live 10 Pool.empty)) (ready live 10 Pool.empty),
    let s := ready live 10 { Pool.empty with cnt := 2, head := 3 }
    gives (exec (.cacheRefill 7) ((s.celWrite 0x13 (98 * 2 ^ 30 + 12) (natLe 4 3)).celWrite 0x13 (98 * 2 ^ 30) (natLe 4 1))) (fun u =>
        (u.pool 7).cache == [3, 1] && (u.pool 7).cnt == 0 && (u.pool 7).head == 1) &&
      gives (exec (.cacheRefill 7) { s with cel := { s.cel with poison := [98 * 2 ^ 25] } }) (fun u => (u.pool 7).cache == [] && u.rb cupErr 3),
    stays (exec (.cupboardScrub 7 65535 .ok) live) live,
    gives (exec (.cupboardScrub 7 65535 .corr) live) (fun u => u.rb cupErr 1 && u.ecc == []),
    gives (exec (.cupboardScrub 7 65535 .uncorr) live) (fun u => u.rb cupErr 2 && shas (u.pool 7).oos 65535 && u.rdN cupErrLoc == 7 * 2 ^ 21 + 65535),
    gives (exec (.cupboardScrub 7 65536 .corr) live) (fun u => u.rb cupErr 1),
    same (exec (.reclaimStart 0) live) (.next (live.setB cupErr 0)),
    same (exec (.reclaimStart 0x2000) (live.setB cupReclaim 31)) (.next ((live.setB cupReclaim 31).setB cupErr 0)),
    gives (exec (.reclaimStart 0x403F) live) (fun u => u.rb cupReclaim 31 && u.rf cupReclaim 15 0 == 0x403F && u.rdN cupReclaimCount == 0),
    stays (exec .reclaimVisit live) live,
    gives (exec .reclaimVisit (live.setB cupReclaim 31)) (fun u => !(u.rb cupReclaim 31) && shas u.bell.pulses 1924),
    let s := { (owned 3 ⟨0x403F, 0, 9, 0, 0⟩).setB cupReclaim 31 with cup := { (owned 3 ⟨0x403F, 0, 9, 0, 0⟩).cup with reclaimPos := 3 } }
    s.bufferAt 3 == some (7, 3) && gives (exec .reclaimVisit (s.wf cupReclaim 15 0 0x403F)) (fun u => (u.pool 7).alloc == [] &&
        (u.pool 7).cache == [0, 3] && u.rdN cupReclaimCount == 1 && u.cup.reclaimPos == 4) &&
      gives (exec .reclaimVisit (s.wf cupReclaim 15 0 0x403E)) (fun u => (u.pool 7).alloc == [3] && u.rdN cupReclaimCount == 0)] := by decide +kernel

theorem cupboard_scrub_uncorrectable : (match execCupboardScrub 7 65536 .uncorr live with
    | .next u => u.rb cupErr 2
    | _ => false) = true := by
  rfl

/-- Ticket 5 asks for frame 1 of slice 0 from source `src`; pool 7 holds these indices of buffers of 2,048 bytes. -/
def asking (src : Nat) (cache : List Nat) : State :=
  let s := ((ready live 11 { Pool.empty with cache := cache, alloc := (upto 4).filter fun i => !(shas cache i) }).newFrame
    { Frame.init with port := 3, data := List.replicate 60 0xAA, orig := List.replicate 60 0xAA, len := 64, settled := true }).1
  { s with lft := { s.lft with tickets := [(5, { Ticket.init with src := src, fid := 1, cap := 64 })] } }

/-- The same with ticket 5, or others, waiting in slice 0's queue. -/
def queueing (s : State) (l : List Nat) : State := (s.wf cupCfg 15 0 9).setGrantQ 0 l

/-- Ticket 5 and its frame are gone. -/
def noTicket (u : State) : Bool := decide (tfind u.lft.tickets 5 = none) && (!(u.hasFrame 1) || (u.frame 1).isOver)

theorem witness_CupboardRequestsAndTickets : checks [
    stays (exec (.bufferRequest 5) live) live,
    let s := asking 2 [2]
    gives (exec (.bufferRequest 5) s) (fun u => (u.ticket 5).buf == bufAt 11 2 && (u.ticket 5).pool == 7) &&
      gives (exec (.bufferRequest 5) (asking 2 [])) (fun u => decide (tfind u.lft.tickets 5 = none)),
    let s := asking 2 [2]
    let t := { s with lft := { s.lft with tickets := [(5, { Ticket.init with src := 2, fid := 1, owed := 4 })] } }
    stays (exec (.bufferRequest 5) t) t,
    let s := asking 0 [2]
    gives (exec (.bufferRequest 5) (s.setFrame 1 { s.frame 1 with bad := true })) noTicket,
    gives (exec (.bufferRequest 5) (asking 0 [2])) (fun u => (u.ticket 5).buf == bufAt 11 2 && (u.ticket 5).dataLen == 60 &&
      (!(u.hasFrame 1) || (u.frame 1).isOver) && memRead 0 u.cel.mem (bufAt 11 2 + 768) 60 == List.replicate 60 0xAA),
    gives (exec (.bufferRequest 5) (queueing (asking 0 []) [])) (fun u => u.grantQ 0 == [5]),
    gives (exec (.bufferRequest 5) (queueing (asking 0 [2]) [6])) (fun u => u.grantQ 0 == [6, 5]),
    gives (exec (.bufferRequest 5) (queueing (asking 0 [2]) (List.replicate 64 6))) noTicket,
    gives (exec (.bufferRequest 5) ((asking 0 []).wf cupCfg 15 0 0)) noTicket,
    stays (exec (.bufferRequest 5) (queueing (asking 0 []) [5])) (queueing (asking 0 []) [5]),
    gives (exec (.bufferRequest 5) (queueing (asking 0 [2]) [5, 6])) (fun u => (u.ticket 5).buf == bufAt 11 2 && u.grantQ 0 == [6] && u.cup.rr == 0),
    stays (exec (.grantQueueTimeout 5) (asking 0 [])) (asking 0 []),
    gives (exec (.grantQueueTimeout 5) (queueing (asking 0 []) [6, 5])) (fun u => noTicket u && u.grantQ 0 == [6])] := by decide +kernel

/-- Function 63's last operation gave `r`. -/
def fnGave (r : Nat) (u : State) : Bool := u.rf (cupFnStatus 63) 3 0 == r && (decide (r = 0 ∨ 8 < r) || u.rb (cupFnErr 63) r)

/-- A free of buffer 3 by function 63 with its generation, 9. -/
def frees (r : OwnerRec) (p : State → Bool) : Bool := gives (exec (.bufferFree 63 (BitVec.ofNat 32 (handle 10 3 9))) (owned 3 r)) p

theorem witness_CupboardFunctionPages : checks [
    gives (exec (.bufferFree 63 0) live) (fnGave 1),
    gives (exec (.bufferFree 63 (BitVec.ofNat 32 (handle 10 3 9))) (ready live 11 Pool.empty)) (fnGave 2),
    gives (exec (.bufferFree 63 (BitVec.ofNat 32 (handle 10 3 9))) (ready live 10 Pool.empty)) (fnGave 3),
    gives (exec (.bufferFree 63 (BitVec.ofNat 32 (handle 10 3 8))) (owned 3 ⟨0x403F, 0, 9, 0, 0⟩)) (fnGave 4),
    frees ⟨0x403F, 0, 9, 0, 0⟩ (fun u => fnGave 0 u && (u.pool 7).alloc == [] && (u.pool 7).free == 2),
    frees ⟨0x403E, 0, 9, 0, 0⟩ (fun u => fnGave 5 u && (u.pool 7).alloc == [3]),
    frees ⟨0x403F, 0x403F, 9, 0, 1⟩ (fun u => fnGave 0 u && (u.pool 7).alloc == []),
    frees ⟨0x403F, 0x403F, 9, 255, 1⟩ (fun u => fnGave 9 u && (u.pool 7).alloc == [3] && (u.ownerRead (bufAt 10 3)).2.map (·.mode) == some 2),
    frees ⟨0x403E, 0x403E, 9, 0, 1⟩ (fnGave 6),
    frees ⟨0x403E, 0x403E, 9, 1, 2⟩ (fun u => fnGave 0 u && (u.pool 7).alloc == []),
    frees ⟨0x403E, 0x403E, 9, 1, 1⟩ (fun u => fnGave 0 u && (u.pool 7).alloc == [3] && (u.ownerRead (bufAt 10 3)).2.map (·.holds) == some 0),
    gives (exec (.bufferShare 63 0xFF002001) live) (fnGave 1),
    let s (r : OwnerRec) : State := (owned 3 r).wrN (cupFnShareRef 63) (handle 10 3 9)
    gives (exec (.bufferShare 63 0xFF002001) (s ⟨0x403E, 0, 9, 0, 0⟩)) (fnGave 5) &&
      gives (exec (.bufferShare 63 0x00002001) (s ⟨0x403F, 0, 9, 0, 0⟩)) (fnGave 7) &&
      gives (exec (.bufferShare 63 0xFF002001) (s ⟨0x403F, 0, 9, 0, 1⟩)) (fnGave 7) &&
      gives (exec (.bufferShare 63 0xFF002001) (s ⟨0x403F, 0, 9, 0, 0⟩)) (fun u => fnGave 0 u &&
        (u.ownerRead (bufAt 10 3)).2 == some ⟨0x2001, 0x2001, 9, 255, 1⟩),
    gives (exec (.grantRegisterRead 63 7) (live.wrN (cupFnGrant 63 7) 0x09000003)) (fun u => u.rdata == 0x09000003 && u.rd (cupFnGrant 63 7) == 0),
    gives (exec (.grantRegisterRead 63 7) live) (fun u => u.rdata == 0 && u.rb (cupFnStatus 63) 7),
    stays (exec (.grantRegisterRefill 63 7) live) live,
    gives (exec (.grantRegisterRefill 63 7) (ready live 10 { Pool.empty with cache := [3] })) (fun u => u.rdN (cupFnGrant 63 7) == handle 10 3 1 &&
      (u.pool 7).alloc == [3]),
    let s := ready live 10 { Pool.empty with cache := [3], alloc := [3] }
    gives (exec (.grantRegisterRefill 63 7) s) (fun u => u.rdN (cupFnGrant 63 7) == 0)] := by decide +kernel


/-! ## Doorway: taking entries -/

/-- Queue 16383, of function 63, with this value of DWY_QP_CFG below EN, this state and these contents; rings of 16. -/
def dqueue (s : State) (cfg st : Nat) (x : DwyQ) : State :=
  let t := [(dwyFnQp 63, 2 ^ 16 + 16383), (dwyQpCfg 16383, 2 ^ 31 + cfg), (dwySqBaseLo 16383, 0x1000), (dwyCqBaseLo 16383, 0x2000),
    (dwyIdxBaseLo 16383, 0x3000), (dwyQpPort 16383, 510)].foldl (fun (s : State) p => s.wrN p.1 p.2) s
  ((t.setQState 16383 st).setDq 16383 x).setFn 63 { DwyFn.init 63 with enabled := true, busMaster := true }

/-- DWY_QP_CFG of a kind, its rings of 16 entries. -/
def kindOf (k : Nat) : Nat := k * 2 ^ 28 + 0x440000

/-- A generation 2 entry: TYPE, LEN, then words 2 and 4; and one with BUF 1. -/
def ent (typ len w2 w4 : Nat) : List Word := [BitVec.ofNat 32 (len * 2 ^ 16 + typ), 7, BitVec.ofNat 32 w2, 0, BitVec.ofNat 32 w4] ++ List.replicate 11 0
def entB (typ len w2 w4 : Nat) : List Word := ent typ len w2 w4 |>.set 0 (BitVec.ofNat 32 (len * 2 ^ 16 + 0x400 + typ))

/-- The last SQ index: taking its entry takes SQ_CI to 0. -/
def lastIdx (s : State) : State := s.wrN (dwySqCi 16383) 65535

/-- Queue 16383 RUNNING with one entry fetched. -/
def fetched (s : State) (kind : Nat) (ws : List Word) : State := lastIdx (dqueue s (kindOf kind) 1 { DwyQ.init with prefetch := [ws] })

/-- The entry was taken, and the queue owes these. -/
def took (l : Taken → Bool) (n : Nat) (u : State) : Bool :=
  (u.dq 16383).prefetch.isEmpty && u.sqCi 16383 == 0 && (u.dq 16383).taken.length == n && (u.dq 16383).taken.all l

/-- A direct SEND to port 511, class 7, from port 511. -/
def toPort : Nat := 7 * 2 ^ 29 + 511 * 2 ^ 13 + 2 ^ 10 + 511 * 2 + 1

theorem witness_DoorwayEntriesTakenAndFetched : checks [
    stays (exec (.nopEntry 16383) (dqueue live (kindOf 1) 1 DwyQ.init)) (dqueue live (kindOf 1) 1 DwyQ.init),
    let s := dqueue live (kindOf 1) 3 { DwyQ.init with prefetch := [ent 0 0 0 0] }
    stays (exec (.nopEntry 16383) s) s,
    let s := dqueue live (kindOf 1) 1 { DwyQ.init with prefetch := [ent 0 0 0 0], taken := List.replicate 80 ((entry2 []).taken 0) }
    stays (exec (.nopEntry 16383) s) s && !(s.cmplRoom 16383),
    let s := dqueue live (kindOf 1) 1 { DwyQ.init with prefetch := [ent 0 0 0 0], taken := List.replicate 79 ((entry2 []).taken 0) }
    s.cmplRoom 16383 && gives (exec (.nopEntry 16383) s) (fun u => (u.dq 16383).taken.length == 80),
    let s := fetched live 1 (ent 0 0 0 0)
    stays (exec (.recvEntry 16383) s) s && gives (exec (.nopEntry 16383) s) (took (fun t => t.idx == 65535 && t.wait == 0 && t.status == 0) 1),
    gives (exec (.nopEntry 16383) (fetched live 1 (ent 4 0 0 0))) (fun u => u.qState 16383 == 4 && u.rf (dwyQpStatus 16383) 23 16 == 1 &&
      u.sqCi 16383 == 65535 && (u.dq 16383).prefetch == [] && (u.dq 16383).taken.map (·.status) == [1] && u.rb (dwyFnErr 63) 1),
    gives (exec (.sendPipeline 16383) (fetched live 1 (ent 1 59 0 0))) (fun u => u.qState 16383 == 4),
    gives (exec (.ticketEntry 16383) (fetched live 1 (ent 2 60 0 0))) (fun u => u.qState 16383 == 4),
    gives (exec (.nopEntry 16383) ((fetched live 1 (ent 4 0 0 0)).wf (dwyFnFmt 63) 1 0 1)) (fun u => u.rb dwyHalt 31 && (u.dq 16383).taken == [] &&
      u.qState 16383 == 5 && u.sqCi 16383 == 65535 && u.rdN dwyHaltLoc == 65535 * 2 ^ 16 + 16383),
    gives (exec (.recvEntry 16383) (fetched live 3 (ent 3 2048 64 0) |>.setB (dwyQpCfg 16383) 25)) (fun u => took (fun _ => true) 0 u &&
      (u.dq 16383).recv == [(65535, ent 3 2048 64 0)]),
    let s := (fetched live 1 (ent 1 60 64 0)).setSl 0 { Slice.init with reentry := List.replicate 256 1 }
    stays (exec (.sendPipeline 16383) s) s,
    let s := (fetched live 1 (ent 1 60 64 0)).setFn 63 { DwyFn.init 63 with enabled := true }
    stays (exec (.sendPipeline 16383) s) s,
    gives (exec (.sendPipeline 16383) (fetched live 1 (ent 1 60 64 0))) (fun u => u.sqCi 16383 == 65535 && (u.dq 16383).waited && (u.dq 16383).taken == []),
    let s := ready live 11 { Pool.empty with cache := [2] }
    (s.fitPool 60 == some 7) && gives (exec (.sendPipeline 16383) (fetched s 1 (ent 1 60 64 0))) (fun u =>
        took (fun t => t.wait == 1 && t.buf == bufAt 11 2 && t.inPort == 510) 1 u && u.outbox == [.hostRead 64 60]) &&
      gives (exec (.sendDirect 16383) (fetched s 1 (ent 1 60 64 toPort))) (took (fun t => t.wait == 1) 1) &&
      gives (exec (.ticketEntry 16383) (fetched s 2 (ent 2 1 64 0))) (took (fun t => t.wait == 1 && t.typ == 2) 1),
    gives (exec (.sendPipeline 16383) (fetched live 1 (entB 1 60 1 0))) (took (fun t => t.status == 0x11) 1),
    let s := fetched (owned 3 ⟨0x403F, 0, 9, 0, 0⟩) 1 (entB 1 60 (handle 10 3 9) 511)
    (s.sendHandle 63 (handle 10 3 9)).2 == .inr (bufAt 10 3) && gives (exec (.sendPipeline 16383) (s.setDq 16383 { s.dq 16383 with prefetch :=
        [entB 1 60 (handle 10 3 9) 0x3FE] })) (fun u => took (fun t => t.wait == 0 && t.status == 0) 1 u && (u.frame 1).data.length == 60 &&
        (u.frame 1).port == 511 && (u.head 1).pos == .reentry),
    let s := fetched (up 511 |>.wf atcBootStatus 31 28 8) 1 (entB 1 60 (handle 10 3 9) toPort)
    gives (exec (.sendDirect 16383) { s with cel := (fetched (owned 3 ⟨0x403F, 0, 9, 0, 0⟩) 1 []).cel }) (took (fun t => t.status == 0x11) 1),
    let s := (fetched (owned 3 ⟨0x403F, 0, 9, 0, 0⟩) 1 (entB 1 60 (handle 10 3 9) toPort)).wrN (pchPortStatus 511) 0x31 |>.wrN (pchPortCfg 511) 1
    gives (exec (.sendDirect 16383) s) (fun u => took (fun t => t.status == 0) 1 u && (u.frame 1).port == 511 && (u.frame 1).fab.queues == [4095]),
    let s := fetched (owned 3 ⟨0x403E, 0, 9, 0, 0⟩) 2 (entB 2 60 (handle 10 3 9) 0)
    gives (exec (.ticketEntry 16383) s) (took (fun t => t.status == 0x15) 1),
    let s := fetched (owned 3 ⟨0x403E, 0x403E, 9, 1, 2⟩) 2 (entB 2 60 (handle 10 3 9) 0xFFFF)
    gives (exec (.ticketEntry 16383) s) (fun u => took (fun t => t.wait == 2 && t.ticket == s.lft.nextTicket) 1 u &&
      (u.ticket s.lft.nextTicket).src == 3 && (u.ticket s.lft.nextTicket).prog == 0xFFFF && (u.ticket s.lft.nextTicket).qp == 16383 &&
      (u.ticket s.lft.nextTicket).buf == bufAt 10 3 && (u.ticket s.lft.nextTicket).shared && u.lft.nextTicket == s.lft.nextTicket + 1),
    let s := dqueue live (kindOf 1) 1 DwyQ.init
    stays (exec (.entryFetch 16383 []) s) s,
    let s := (dqueue live (kindOf 1) 1 DwyQ.init).wrN (dwySqPi 16383) 1
    gives (exec (.entryFetch 16383 [5]) s) (fun u => (u.dq 16383).prefetch == [5#32 :: List.replicate 15 0] && u.outbox == [.hostRead 0x1000 64]) &&
      stays (exec (.entryFetch 16383 [5]) (s.setFn 63 (DwyFn.init 63))) (s.setFn 63 (DwyFn.init 63)),
    let s := (dqueue live (kindOf 1 + 2 ^ 27) 1 DwyQ.init |>.wrN (dwySqBaseHi 16383) 26).wrN (dwySqPi 16383) 1
    gives (exec (.entryFetch 16383 []) (s.celWrite 0x14 (104 * 2 ^ 30 + 0x1000) [3])) (fun u => (u.dq 16383).prefetch == [3#32 :: List.replicate 15 0]) &&
      gives (exec (.entryFetch 16383 []) { s with cel := { s.cel with poison := [104 * 2 ^ 25 + 128] } }) (fun u => u.dwy == s.dwy),
    let w (typ w4 : Nat) : Taken := { (entry2 []).taken 3 with words := ent typ 60 64 w4, gen := 2, wait := 1, buf := bufAt 10 3, inPort := 510 }
    let s (t : Taken) : State := dqueue (owned 3 ⟨0, 0, 9, 0, 0⟩) (kindOf 1) 1 { DwyQ.init with taken := [t] }
    stays (exec (.hostDmaCompletion 16383 4 none) (s (w 1 0))) (s (w 1 0)) &&
      gives (exec (.hostDmaCompletion 16383 3 none) (s (w 1 0))) (fun u => (u.dq 16383).taken.map (·.status) == [2] && (u.pool 7).alloc == []) &&
      gives (exec (.hostDmaCompletion 16383 3 (some ([], true))) (s (w 2 0))) (fun u => (u.dq 16383).taken.map (·.status) == [2]) &&
      gives (exec (.hostDmaCompletion 16383 3 (some (List.replicate 60 0xAA, false))) (s (w 2 0))) (fun u =>
        (u.dq 16383).taken.map (fun t => (t.wait, t.ticket)) == [(2, u.lft.nextTicket - 1)] &&
        (u.ticket (u.lft.nextTicket - 1)).buf == bufAt 10 3 && (u.ticket (u.lft.nextTicket - 1)).dataLen == 60) &&
      gives (exec (.hostDmaCompletion 16383 3 (some (List.replicate 60 0xAA, false))) (s (w 1 0x3FE))) (fun u =>
        (u.dq 16383).taken.map (fun t => (t.wait, t.status)) == [(0, 0)] && (u.frame 1).data == List.replicate 60 0xAA && (u.frame 1).port == 511 &&
        (u.head 1).pos == .reentry) &&
      (let t := (s (w 1 0)).setSl 0 { Slice.init with reentry := List.replicate 256 1 }
       stays (exec (.hostDmaCompletion 16383 3 (some ([], false))) t) t)] := by decide +kernel


/-! ## Doorway: completions, indices, queues -/

/-- A taken entry that has ended, with status `st`, and one that waits for host memory. -/
def endedE (st : Nat) : Taken := { (entry2 []).taken 9 with words := ent 0 0 0 0, gen := 2, status := st, tag := 7 }
def waitingE : Taken := { endedE 0 with wait := 1 }
/-- One that asks for no completion. -/
def silentE : Taken := { endedE 0 with words := (ent 0 0 0 0).set 0 0x200 }

/-- Queue 16383 in state `st` with these taken entries and held completions; the mirror is due; CQ_PI is 65535. -/
def dueQ (st : Nat) (l : List Taken) (h : List Cmpl) : State :=
  (dqueue live (kindOf 1) st { DwyQ.init with taken := l, held := h, mirrorDue := true }).wrN (dwyCqPi 16383) 65535 |>.wrN (dwyCqCi 16383) 65535

/-- The host of function 63 is asleep. -/
def hostAsleep (s : State) : State := s.setFn 63 { s.fn 63 with asleep := true, pmeEn := true }

theorem witness_DoorwayCompletionsAndIndices : checks [
    stays (exec (.completionWrite 16383) (hostAsleep (dueQ 1 [waitingE] []))) (hostAsleep (dueQ 1 [waitingE] [])),
    gives (exec (.completionWrite 16383) (dueQ 1 [] [])) (fun u => u.outbox == [.hostWrite 0x3000 [0, 0, 0xFF, 0xFF, 0, 0, 0, 0]] &&
      !(u.dq 16383).mirrorDue),
    gives (exec (.completionWrite 16383) (dueQ 6 [endedE 0, waitingE] [])) (fun u => (u.dq 16383).taken == [waitingE] && u.qState 16383 == 6),
    gives (exec (.completionWrite 16383) (dueQ 6 [endedE 0] [])) (fun u => u.qState 16383 == 0 && !(u.qEn 16383) && u.cqPi 16383 == 0 &&
      u.cqCi 16383 == 0 && u.outbox == []),
    gives (exec (.completionWrite 16383) (dueQ 1 [silentE] [])) (fun u => silentE.suppressed && (u.dq 16383).taken == [] && u.cqPi 16383 == 65535),
    gives (exec (.completionWrite 16383) (dueQ 1 [endedE 3] [])) (fun u => u.cqPi 16383 == 0 && (u.dq 16383).taken == [] && u.outbox ==
      [.hostWrite (0x2000 + 16 * 15) ([3, 0, 0, 0, 7] ++ List.replicate 7 0 ++ [9, 0, 0, 0]), .hostWrite 0x3000 [0, 0, 0, 0, 0, 0, 0, 0]]),
    gives (exec (.completionWrite 16383) ((dueQ 1 [endedE 3] []).wrN (dwyCqCi 16383) 65519)) (fun u => u.cqPi 16383 == 65535 &&
      (u.dq 16383).held.length == 1 && u.rb (dwyQpStatus 16383) 28 && u.rf (dwyQpStatus 16383) 6 0 == 1 && (u.dq 16383).taken == []),
    gives (exec (.completionWrite 16383) (hostAsleep (dueQ 1 [endedE 3] []))) (fun u => (u.dq 16383).held.length == 1 && u.cqPi 16383 == 65535),
    gives (exec (.completionWrite 16383) (dueQ 1 [endedE 3] [⟨[], 0, none⟩])) (fun u => (u.dq 16383).held.length == 2 && u.cqPi 16383 == 65535),
    let s (ns : Nat) : State := { (dqueue live (kindOf 1 + 2 ^ 24 + 2047) 1 { DwyQ.init with since := 1, sinceNs := 5 }).wrN (dwyCqMod 16383) 0x10000 with
      time := ns * 2 ^ 24 }
    stays (exec (.completionSignal 16383) (s 1004)) (s 1004) &&
      gives (exec (.completionSignal 16383) (s 1005)) (fun u => (u.dq 16383).since == 0 && !(u.dq 16383).sigPending && shas u.bell.msix (2048 * 63 + 2047)) &&
      gives (exec (.completionSignal 16383) (hostAsleep (s 1005))) (fun u => (u.dq 16383).since == 0 && (u.dq 16383).sigPending && u.bell == (s 0).bell),
    let s := (dueQ 1 [] []).wrN (dwySqCi 16383) 65535
    gives (exec (.sqDoorbell 16383 15) s) (fun u => u.sqPi 16383 == 15 && u.qState 16383 == 1 && u.dwy == s.dwy),
    gives (exec (.sqDoorbell 16383 65535) (dqueue live (kindOf 3) 1 DwyQ.init)) (fun u => u.sqPi 16383 == 65535),
    stays (exec (.sqDoorbell 16383 3) (dueQ 6 [] [])) (dueQ 6 [] []),
    stays (exec (.sqDoorbell 16383 17) (dueQ 4 [] [])) (dueQ 4 [] []),
    gives (exec (.sqDoorbell 16383 17) (dueQ 3 [] [])) (fun u => u.qState 16383 == 4 && u.rf (dwyQpStatus 16383) 23 16 == 2 && u.sqPi 16383 == 0 &&
      u.rb (dwyFnErr 63) 1),
    gives (exec (.sqDoorbell 16383 17) ((dueQ 1 [] []).wf (dwyFnFmt 63) 1 0 1)) (fun u => u.rb dwyHalt 31 && u.sqPi 16383 == 0),
    gives (exec (.cqCiWrite 16383 65535) live) (fun u => u.cqCi 16383 == 65535 && u.dwy == live.dwy),
    same (exec (.cqCiWrite 16383 65518) (dueQ 1 [] [])) (.next ((dueQ 1 [] []).setB (dwyFnErr 63) 3)),
    gives (exec (.cqCiWrite 16383 65519) ((dueQ 1 [] []).setDq 16383 DwyQ.init)) (fun u => u.cqCi 16383 == 65519 && u.cqPi 16383 == 65535 &&
      !(u.rb (dwyQpStatus 16383) 27) && u.outbox == []),
    gives (exec (.cqCiWrite 16383 65520) (dueQ 1 [] [⟨[1, 2], 0, none⟩])) (fun u => u.cqCi 16383 == 65520 && (u.dq 16383).held == [] &&
      u.cqPi 16383 == 0 && u.outbox.head? == some (.hostWrite (0x2000 + 16 * 15) [1, 2]))] := by decide +kernel

/-- Queue 16383 of function 63, DISABLED, the same otherwise. -/
def idleQ : State := (dqueue live (kindOf 1) 0 DwyQ.init).putB (dwyQpCfg 16383) 31 false

/-- The outcome is `s` with ERR.CFG of function 63 set, and nothing else. -/
def cfgErr (o : Host.Outcome State Fault Refusal) (s : State) : Bool := same o (.next (s.setB (dwyFnErr 63) 0))

theorem witness_DoorwayQueuesAndGenerations : checks [
    gives (exec (.qpPause 16383) (dueQ 1 [] [])) (fun u => u.qState 16383 == 3 && u.dwy == (dueQ 1 [] []).dwy),
    stays (exec (.qpPause 16383) (dueQ 4 [] [])) (dueQ 4 [] []),
    gives (exec (.qpResume 16383) ((dueQ 4 [] []).wf (dwyQpStatus 16383) 23 16 2)) (fun u => u.qState 16383 == 1 && u.rf (dwyQpStatus 16383) 23 16 == 0),
    gives (exec (.qpResume 16383) ((dueQ 3 [] []).setDq 16383 { DwyQ.init with prefetch := [[]] })) (fun u => u.dq 16383 == DwyQ.init),
    same (exec (.qpResume 16383) (dueQ 5 [] [])) (.next ((dueQ 5 [] []).setB (dwyFnErr 63) 0)),
    stays (exec (.qpReset 16383) (dueQ 0 [] [])) (dueQ 0 [] []),
    gives (exec (.qpReset 16383) (dueQ 4 [endedE 0] [⟨[], 0, none⟩])) (fun u => u.qState 16383 == 0 && !(u.qEn 16383) && u.cqPi 16383 == 0 &&
      u.cqCi 16383 == 0 && u.dq 16383 == DwyQ.init),
    gives (exec (.qpReset 16383) (dueQ 1 [endedE 0, waitingE] [])) (fun u => u.qState 16383 == 6 && (u.dq 16383).taken == [waitingE]),
    cfgErr (exec (.qpEnable 16383 (BitVec.ofNat 32 (2 ^ 31 + kindOf 2))) (dueQ 1 [] [])) (dueQ 1 [] []),
    stays (exec (.qpEnable 16383 (BitVec.ofNat 32 (2 ^ 31 + kindOf 1))) (dueQ 1 [] [])) (dueQ 1 [] []),
    let s := (dueQ 6 [] []).putB (dwyQpCfg 16383) 31 false
    cfgErr (exec (.qpEnable 16383 (BitVec.ofNat 32 (2 ^ 31 + kindOf 1))) s) s,
    [2 ^ 31 + kindOf 0, 2 ^ 31 + kindOf 4, 2 ^ 31 + 2 ^ 28 + 0x340000, 2 ^ 31 + 2 ^ 28 + 0xD40000, 2 ^ 31 + 2 ^ 28 + 0x430000,
      2 ^ 31 + 2 ^ 28 + 0x4D0000, 2 ^ 31 + kindOf 1 + 2 ^ 25].all fun v => cfgErr (exec (.qpEnable 16383 (BitVec.ofNat 32 v)) idleQ) idleQ,
    [dwySqBaseLo 16383, dwyCqBaseLo 16383, dwyIdxBaseLo 16383].all fun a => let s := idleQ.wrN a 0x1020
      cfgErr (exec (.qpEnable 16383 (BitVec.ofNat 32 (2 ^ 31 + kindOf 1))) s) s,
    same (exec (.qpEnable 16383 (BitVec.ofNat 32 (2 ^ 31 + kindOf 1))) (idleQ.wr (dwyFnQp 63) 0))
      (.next ((idleQ.wr (dwyFnQp 63) 0).setB (dwyFnErr 0) 0)),
    idleQ.qpOk 16383 (BitVec.ofNat 32 (2 ^ 31 + 3 * 2 ^ 28 + 0xCC0000 + 2 ^ 25)) &&
      gives (exec (.qpEnable 16383 (BitVec.ofNat 32 (2 ^ 31 + 3 * 2 ^ 28 + 0xCC0000 + 2 ^ 25))) (idleQ.wrN (dwyCqPi 16383) 5)) (fun u => u.qEn 16383 &&
        u.qState 16383 == 1 && u.qKind 16383 == 3 && u.cqPi 16383 == 0 && u.dq 16383 == { DwyQ.init with prev := 1 }) &&
      gives (exec (.qpEnable 16383 (BitVec.ofNat 32 (2 ^ 31 + kindOf 1))) (idleQ.setB dwyHalt 31)) (fun u => u.qState 16383 == 5),
    gives (exec (.qpEnable 16383 (BitVec.ofNat 32 (kindOf 7))) idleQ) (fun u => !(u.qEn 16383) && u.qKind 16383 == 7),
    stays (exec .haltClear live) live,
    let s := ((dueQ 5 [] []).setDq 16383 { DwyQ.init with prev := 3 }).setB dwyHalt 31
    gives (exec .haltClear s) (fun u => !(u.rb dwyHalt 31) && u.qState 16383 == 3) &&
      gives (exec .haltClear (s.wrN dwyHaltLoc 16383)) (fun u => u.qState 16383 == 4) &&
      gives (exec .haltClear (s.setQState 16383 6)) (fun u => u.qState 16383 == 6),
    same (exec (.fnQpWrite 1 0x00023FFF) live) (.next (live.setB (dwyFnErr 1) 0)),
    same (exec (.fnQpWrite 1 0x00013FFF) idleQ) (.next (idleQ.setB (dwyFnErr 1) 0)),
    same (exec (.fnQpWrite 63 0x00013FFE) (dueQ 1 [] [])) (.next ((dueQ 1 [] []).setB (dwyFnErr 63) 0)),
    gives (exec (.fnQpWrite 1 0x00013FFE) idleQ) (fun u => u.rdN (dwyFnQp 1) == 0x00013FFE && u.rf (dwyFnId 1) 30 16 == 1),
    gives (exec (.fnQpWrite 1 0x40000000) live) (fun u => u.rf (dwyFnQp 1) 30 16 == 16384),
    same (exec (.formatGenWrite 63 3) live) (.next (live.setB (dwyFnErr 63) 2)),
    same (exec (.formatGenWrite 63 1) (dueQ 1 [] [])) (.next ((dueQ 1 [] []).setB (dwyFnErr 63) 2)),
    gives (exec (.formatGenWrite 63 1) idleQ) (fun u => u.fnGen 63 == 1 && u.dwy == idleQ.dwy)] := by decide +kernel


/-! ## Doorway: link, sleep, resets, window -/

/-- PERST_N is high and the boot has come to stage 5 or beyond. -/
def released (stage : Nat) : State := let s := State.reset.wf atcBootStatus 31 28 stage
  { s with attic := { s.attic with perstN := true } }

/-- The link is up in this mode. -/
def linkUp (s : State) (mode : Nat) : State := s.wrN dwyLinkStatus (2 ^ 31 + mode * 64 + 5 * 8 + 4)

/-- Everything PERST_N low resets is as it leaves it. -/
def deadLink (u : State) : Bool := !(u.rb dwyLinkStatus 31) && !(u.rb dwyHalt 31) && u.dwy.tracker.isEmpty && !u.dwy.linkL2 &&
  (upto 64).all fun f => !(u.fn f).asleep && !(u.fn f).busMaster && (decide (f < 2) || !(u.fn f).enabled)

/-- Function 63's queue holds one completion, with its mirror and signal due; the function sleeps. -/
def sleepingQ (h : List Cmpl) : State :=
  let x : DwyQ := { DwyQ.init with held := h, mirrorDue := true, sigPending := true, prefetch := [[]], recv := [(1, [])] }
  hostAsleep (dqueue live (kindOf 1 + 2 ^ 24 + 2047) 1 x)

theorem witness_DoorwayLinkSleepAndResets : checks [
    stays (exec (.hostLinkTrain 2 6 4 true) (released 4)) (released 4), stays (exec (.hostLinkTrain 2 6 4 true) live) live,
    (released 5).rf dwyLinkCap 7 0 == 0xB4 && gives (exec (.hostLinkTrain 2 6 4 true) (released 5)) (fun u => u.rb dwyLinkStatus 31 &&
        u.rf dwyLinkStatus 7 0 == 0xB4 && u.rb dwyLinkStatus 8) &&
      gives (exec (.hostLinkTrain 1 6 0 true) (released 8)) (fun u => u.rf dwyLinkStatus 7 0 == 0x68) &&
      gives (exec (.hostLinkTrain 0 5 4 true) (released 8)) (fun u => u.rf dwyLinkStatus 8 0 == 0x2C) &&
      gives (exec (.hostLinkTrain 2 2 4 true) (released 8)) (fun u => u.rf dwyLinkStatus 8 0 == 0x14) &&
      gives (exec (.hostLinkTrain 2 1 4 true) (released 8)) (fun u => u.rf dwyLinkStatus 8 0 == 0x0C),
    let s := (linkUp (hostAsleep (dueQ 1 [waitingE] [])) 2).setB dwyHalt 31
    let t := { s with dwy := { s.dwy with tracker := [3], linkL2 := true } }
    gives (exec (.perstReset .low) t) (fun u => deadLink u && !u.attic.perstN) &&
      gives (exec (.perstReset .linkLoss) { t with attic := { t.attic with perstN := true } }) (fun u => deadLink u && u.attic.perstN),
    gives (exec (.perstReset .high) { live with cycles := 77 }) (fun u => u.attic.perstN && u.dwy.perstRose == 77),
    stays (exec (.perstReset .linkLoss) live) live,
    stays (exec (.functionLevelReset 63) live) live,
    let s := { (sleepingQ [⟨[], 0, none⟩]).setB (dwyFnErr 63) 3 with
      dwy := { (sleepingQ [⟨[], 0, none⟩]).dwy with msix := [(2048 * 63 + 2047, ⟨64, 3, false⟩)] } }
    gives (exec (.functionLevelReset 63) s) (fun u => u.rd (dwyFnErr 63) == 0 && u.fn 63 == { DwyFn.init 63 with enabled := true } && u.dwy.msix == [] &&
      u.rd (dwyFnQp 63) == s.rd (dwyFnQp 63) && u.dq 16383 == DwyQ.init && u.rdN (cupFnGrant 63 7) == 0),
    gives (exec (.functionLevelReset 1) (dueQ 1 [] [])) (fun u => !(u.fn 63).enabled && (u.fn 1).enabled),
    stays (exec (.hostSleepEnter 63 true) live) live,
    gives (exec (.hostSleepEnter 63 true) (dueQ 1 [] [])) (fun u => (u.fn 63).asleep && u.dwy.linkL2),
    gives (exec (.hostWake 63) { live with dwy := { live.dwy with linkL2 := true } }) (fun u => !u.dwy.linkL2 && u.attic.wakeN),
    (sleepingQ []).fnQueues 63 == [16383] && gives (exec (.hostWake 63) (sleepingQ [])) (fun u => !(u.fn 63).asleep &&
      !(u.dq 16383).sigPending && !(u.dq 16383).mirrorDue && shas u.bell.msix (2048 * 63 + 2047)),
    gives (exec (.hostWake 63) (sleepingQ [⟨[1], 0, none⟩])) (fun u => (u.dq 16383).held == [] && u.cqPi 16383 == 1),
    stays (exec (.configRequest 63 .msixEnable none) (dueQ 1 [] [])) (dueQ 1 [] []),
    stays (exec (.configRequest 63 .msixEnable none) (linkUp live 0)) (linkUp live 0),
    let s (stage cyc : Nat) : State := { (linkUp (sleepingQ []) 0).wf atcBootStatus 31 28 stage with cycles := cyc }
    gives (exec (.configRequest 63 .msixEnable (some true)) (s 7 22499999)) (fun u => u.outbox == [.config 63 true] && !(u.fn 63).msixEn) &&
      gives (exec (.configRequest 63 .msixEnable (some true)) (s 7 22500000)) (fun u => u.outbox == [.config 63 false] && (u.fn 63).msixEn) &&
      gives (exec (.configRequest 63 .msixEnable none) (s 8 0)) (fun u => u.rdata == 0) &&
      gives (exec (.configRequest 63 .busMaster none) (s 10 0)) (fun u => u.rdata == 1) &&
      gives (exec (.configRequest 63 .msixMask (some true)) (s 9 0)) (fun u => (u.fn 63).msixMask) &&
      gives (exec (.configRequest 63 .pmeEnable (some false)) (s 9 0)) (fun u => !(u.fn 63).pmeEn) &&
      gives (exec (.configRequest 63 .busMaster (some false)) (s 9 0)) (fun u => !(u.fn 63).busMaster) &&
      gives (exec (.configRequest 63 .vfEnable (some true)) (s 9 0)) (fun u => u.outbox == [.config 63 false] && !(u.fn 2).enabled) &&
      gives (exec (.configRequest 1 .vfEnable (some true)) (s 9 0)) (fun u => (upto 64).all fun f => (u.fn f).enabled)] := by decide +kernel

/-- The host partition begins at 104 GiB, the pools at 96 GiB. -/
def hostBase : Nat := 104 * 2 ^ 30

theorem witness_DoorwayWindowAndLines : checks [
    let s := linkUp live 2
    s.windowAddr false 0 0 32 == some hostBase && s.windowAddr false 1 (2 ^ 33 - 32) 32 == some (hostBase - 32) && s.windowAddr false 1 (2 ^ 33 - 31) 32 == none &&
      s.windowAddr false 2 0 32 == none && s.windowAddr true 0 0 32 == none && s.windowAddr false 0 (2 ^ 36) 32 == none &&
      live.windowAddr false 0 0 32 == none && (linkUp live 0).windowAddr false 0 0 32 == none &&
      (linkUp live 0).windowAddr true 0 (2 ^ 35) 32 == some (96 * 2 ^ 30),
    stays (exec (.hostMemAccess false 0 0 (some ([1], false)) 0 false) live) live,
    gives (exec (.hostMemAccess false 0 0 none 2 false) live) (fun u => u.rdata == 0xFFFF),
    let s := (linkUp live 2).celWrite 0x14 (hostBase - 1) (List.replicate 34 0xEE)
    gives (exec (.hostMemAccess false 0 0 (some (natLe 32 0x1234, false)) 0 false) s) (fun u => memRead 0 u.cel.mem (hostBase - 1) 34 ==
        0xEE :: natLe 32 0x1234 ++ [0xEE] && u.cel.poison == []) &&
      gives (exec (.hostMemAccess false 0 0 (some (natLe 32 0x1234, true)) 0 false) s) (fun u => u.cel.poison == [hostBase / 32]),
    let s := (linkUp live 2).celWrite 0x14 hostBase (natLe 32 (2 ^ 255 + 7))
    gives (exec (.hostMemAccess false 0 0 none 32 true) s) (fun u => u.rdata == 2 ^ 255 + 7 && u.dwy.tracker == [hostBase / 64]) &&
      gives (exec (.hostMemAccess false 0 0 none 32 false) { s with cel := { s.cel with poison := [hostBase / 32] } }) (fun u => u.rdata == 2 ^ 256 &&
        u.dwy == s.dwy),
    let s := { linkUp live 2 with dwy := { (linkUp live 2).dwy with tracker := [hostBase / 64, 5] } }
    gives (exec (.backInvalidateResponse (hostBase / 64)) s) (fun u => u.dwy.tracker == [5] && u.cel == s.cel) &&
      gives (exec (.cellarWrite 0x14 hostBase [1] false) s) (fun u => u.cel.held.map (·.lines) == [[hostBase / 64]] && u.cel.mem == []),
    let w (l : List Nat) : State := { live with cel := { live.cel with held := [⟨0x14, hostBase, natLe 32 (2 ^ 255 + 1), false, l⟩] } }
    gives (exec (.backInvalidateResponse 9) (w [9])) (fun u => u.cel.held == [] && u.cel.mem == [(hostBase, 1), (hostBase + 31, 0x80)]) &&
      gives (exec (.backInvalidateResponse 9) (w [9, 8])) (fun u => u.cel.held.map (·.lines) == [[8]] && u.cel.mem == [])] := by decide +kernel


/-! ## Cellar -/

/-- The last 256-byte block of the tables partition, read by Larder. -/
def lastBlock : Nat := 96 * 2 ^ 30 - 256

/-- It holds bytes 1 to 32 at its start. -/
def filled : State := live.celWrite 0x10 lastBlock ((upto 32).map fun k => BitVec.ofNat 8 (k + 1))

/-- The host holds the first line of the pools partition in CXL 3.1 mode. -/
def lineHeld : State := { linkUp live 2 with dwy := { (linkUp live 2).dwy with tracker := [96 * 2 ^ 24] } }

theorem witness_CellarRequestsOfARequester : checks [
    gives (exec (.cellarRead 0x10 (lastBlock + 256) 1 .ok) live) (fun u => u.rdata == 0 && u.rb celErr 3 && u.rd64 celErrAddrLo == 96 * 2 ^ 30 &&
      u.rf celErrInfo 31 24 == 0x10 && u.rf celErrInfo 23 21 == 2 && u.cel == live.cel),
    !(live.reach 0x10 (lastBlock + 255) 2) && live.reach 0x10 lastBlock 256,
    gives (exec (.cellarRead 0x10 lastBlock 32 .ok) (filled.putB (celStkChfail (celStack lastBlock)) (celPch lastBlock / 2) true)) (fun u =>
      u.rdata == 0 && u.cel == filled.cel),
    gives (exec (.cellarRead 0x10 lastBlock 2 .ok) filled) (fun u => u.rdata == 0x201 && u.ecc == filled.ecc),
    gives (exec (.cellarRead 0x10 lastBlock 256 .ok) (filled.wf (celStkStatus (celStack lastBlock)) 31 30 2)) (fun u =>
      u.rdata % 65536 == 0x201 && u.rf (celStkStatus (celStack lastBlock)) 31 30 == 3),
    gives (exec (.cellarRead 0x10 lastBlock 2 .corr) filled) (fun u => u.rdata == 0x201 && u.rb celErr 1 && u.eccOf .cellar (lastBlock / 32) == .ok),
    gives (exec (.cellarRead 0x10 lastBlock 2 .uncorr) filled) (fun u => u.rdata == 0 && u.rb celErr 2 && u.cel.poison == [lastBlock / 32]),
    let s := { filled with cel := { filled.cel with poison := [lastBlock / 32 + 7] } }
    gives (exec (.cellarRead 0x10 lastBlock 256 .ok) s) (fun u => u.rdata == 0 && u.cel.poison == s.cel.poison) &&
      gives (exec (.cellarRead 0x10 lastBlock 224 .ok) s) (fun u => u.rdata % 256 == 1),
    gives (exec (.cellarWrite 0x10 (lastBlock + 256) [1] false) live) (fun u => u.rb celErr 3 && u.cel == live.cel),
    let s := filled.putB (celStkChfail (celStack lastBlock)) (celPch lastBlock / 2) true
    gives (exec (.cellarWrite 0x10 lastBlock [9] false) s) (fun u => u.cel == s.cel),
    let s := { filled.eccFlag .cellar (lastBlock / 32) .corr with cel := { filled.cel with poison := [lastBlock / 32, lastBlock / 32 + 1] } }
    gives (exec (.cellarWrite 0x10 lastBlock (List.replicate 33 0xEE) false) s) (fun u => memRead 0 u.cel.mem lastBlock 34 == List.replicate 33 0xEE ++ [0] &&
      u.cel.poison == [lastBlock / 32 + 1] && u.eccOf .cellar (lastBlock / 32) == .ok),
    gives (exec (.cellarWrite 0x10 (lastBlock + 255) [0xEE] true) filled) (fun u => memRead 0 u.cel.mem (lastBlock + 255) 1 == [0xEE] &&
      u.cel.poison == [lastBlock / 32 + 7]),
    gives (exec (.cellarWrite 0x13 (96 * 2 ^ 30 + 63) [1] false) lineHeld) (fun u => u.cel.mem == [] && u.cel.held ==
      [⟨0x13, 96 * 2 ^ 30 + 63, [1], false, [96 * 2 ^ 24]⟩]),
    gives (exec (.cellarWrite 0x13 (96 * 2 ^ 30 + 64) [1] false) lineHeld) (fun u => u.cel.held == [] && u.cel.mem == [(96 * 2 ^ 30 + 64, 1)]),
    gives (exec (.cellarWrite 0x13 (96 * 2 ^ 30 + 63) [1, 2] false) lineHeld) (fun t => gives (exec (.cellarWrite 0x13 (96 * 2 ^ 30 + 64) [3] false) t)
      (fun u => u.cel.held.length == 2 && u.cel.mem == []))] := by decide +kernel

/-- Bank 63 of pseudo-channel 31 of stack 3, the last; its row 5 is open with 33 activations counted. -/
def lastBank : State := { live with cel := { live.cel with openRow := [(7, 1), (8191, 5)], raa := [(8191, 33)] } }

/-- The power state is Dozing and stacks enter self-refresh on their own. -/
def dozing (s : State) : State := (s.wf atcPwrStatus 31 30 1).wf celSrCfg 15 0 1

theorem witness_CellarStacksAndRegisters : checks [
    stays (exec (.bankRefresh 3 31 63) (lastBank.wf (celStkStatus 3) 31 30 3)) (lastBank.wf (celStkStatus 3) 31 30 3),
    gives (exec (.bankRefresh 3 31 63) lastBank) (fun u => u.cel.openRow == [(7, 1)] && u.cel.raa == [(8191, 1)]),
    stays (exec (.selfRefreshEntry 3) (lastBank.wf celSrCfg 15 0 1)) (lastBank.wf celSrCfg 15 0 1),
    let s := (dozing lastBank).wf celSrCfg 15 0 0
    stays (exec (.selfRefreshEntry 3) s) s,
    gives (exec (.selfRefreshEntry 3) (dozing lastBank)) (fun u => u.rf (celStkStatus 3) 31 30 == 2 && u.cel.openRow == [(7, 1)]),
    gives (exec (.selfRefreshExit 3) (lastBank.wf (celStkStatus 3) 31 30 2)) (fun u => u.rf (celStkStatus 3) 31 30 == 0),
    stays (exec (.scrubWake 3) live) live,
    gives (exec (.scrubWake 3) (lastBank.wf (celStkStatus 3) 31 30 2)) (fun u => u.rf (celStkStatus 3) 31 30 == 0),
    [(85, true), (84, true), (80, true), (79, false), (255, true)].all fun p =>
      gives (execStackTemperatureChange 3 p.1 (live.setB (celStkStatus 3) 29)) (fun u => u.rf (celStkStatus 3) 23 16 == p.1 && u.rb (celStkStatus 3) 29 == p.2),
    gives (exec (.stackTemperatureChange 3 84) live) (fun u => !(u.rb (celStkStatus 3) 29)) &&
      gives (exec (.stackTemperatureChange 3 85) live) (fun u => u.rb (celStkStatus 3) 29),
    let s (limit : Nat) : State := { live.wrN celActCfg (limit * 2 ^ 24 + 0x1000 + 100) with
      cel := { live.cel with acts := [(8191 * 256 + 0x10, 3), (8191 * 256 + 0x14, 4)], throttles := [⟨7, 0x10, 0⟩, ⟨7, 0x10, 1⟩] } }
    gives (exec .activationWindowEnd (s 7)) (fun u => u.cel.acts == [] && u.cel.throttles == [⟨7, 0x10, 1⟩] && !(u.rb celErr 6)) &&
      gives (exec .activationWindowEnd (s 6)) (fun u => u.rb celErr 6 && u.cel.throttles.any fun t => t == ⟨8191, 0x14, 100⟩) &&
      gives (exec .activationWindowEnd (s 0)) (fun u => u.cel.throttles == [⟨7, 0x10, 1⟩] && u.cel.acts == []),
    let s (n t0 ns : Nat) : State := { live with time := ns * 2 ^ 24, cel := { live.cel with alerts := [(63, (n, t0))] } }
    gives (exec (.caParityAlert 3 15) live) (fun u => u.rb celErr 4 && tget (0, 0) u.cel.alerts 63 == (1, 0)) &&
      gives (exec (.caParityAlert 3 15) (s 2 7 1000006)) (fun u => u.cel.alerts == [(63, (3, 7))] && u.rdN (celStkChfail 3) == 0) &&
      gives (exec (.caParityAlert 3 15) (s 3 7 1000006)) (fun u => u.rb (celStkChfail 3) 15 && u.rb celErr 5 && u.cel.alerts == [(63, (4, 7))]) &&
      gives (exec (.caParityAlert 3 15) (s 3 7 1000007)) (fun u => u.rdN (celStkChfail 3) == 0 && u.cel.alerts == [(63, (1, 1000007))]),
    let s := live.putB celScrubCtl 0 false
    stays (exec (.patrolScrub 3 31 .corr) s) s,
    let s := live.setB celScrubCtl 0
    [0, 4194303].all fun i =>
      let t := { s with cel := { s.cel with scrubPos := [(127, i)] } }
      gives (execPatrolScrub 3 31 .corr t) (fun u => u.rb celErr 1 && u.cel.scrubPos == [(127, i + 1)] && u.cel.poison == []) &&
        gives (execPatrolScrub 3 31 .uncorr t) (fun u => u.rb celErr 2 && u.cel.poison == [scrubAddr 3 31 i / 32]) &&
        gives (execPatrolScrub 3 31 .ok t) (fun u => u.ecc == t.ecc && u.cel.poison == []),
    gives (exec (.patrolScrub 3 31 .ok) (live.setB celScrubCtl 0)) (fun u => u.cel.scrubPos == [(127, 1)]),
    [0x01000000, 0x00008100, 0x00000181, 0x00210100, 0x21000100, 0x20200140, 0x2020013F].all fun v => let w := BitVec.ofNat 32 v
      let o := execCelPartWrite w live
      if v = 0x2020013F then gives o (fun u => u.rd celPart == w) else same o (.next (live.setB celErr 0)),
    gives (exec (.celPartWrite 0x2020013F) live) (fun u => u.rd celPart == 0x2020013F) && gives (exec (.celPartWrite 0x8000) live) (fun u => u.rd celPart == 0x8000),
    same (exec (.celPartWrite 0x20203F01) (live.setB celLock 0)) (.next ((live.setB celLock 0).setB celErr 0)),
    same (exec (.celLockWrite 2) (live.setB celLock 0)) (.next ((live.setB celLock 0).setB celErr 0)),
    gives (exec (.celLockWrite 1) live) (fun u => u.rb celLock 0)] := by decide +kernel


/-! ## The stated rules of Porch and Hallway -/

theorem witness_PfcQuantaBelowTheLimitAreRefused : checks [
    !(live.windowShut (pchPfcCfg 511)) && gives (exec (.registerWrite (pchPfcCfg 511) 1024) live) (fun u => u.rf (pchPfcCfg 511) 15 0 == 1024) &&
      gives (exec (.registerWrite (pchPfcCfg 511) 65535) live) (fun u => u.rf (pchPfcCfg 511) 15 0 == 65535),
    [1023, 0].all fun v => gives (execRegisterWrite (pchPfcCfg 511) v live) (fun u => u.rd (pchPfcCfg 511) == live.rd (pchPfcCfg 511) &&
      u.rdN (pchPortErr 511) == 4),
    gives (exec (.registerWrite (pchPfcCfg 511) 1023) live) (fun u => u.rdN (pchPortErr 511) == 4)] := by decide +kernel

/-- Words 0 to 2 of the last port default are held. -/
def dfltHeld (w0 w1 w2 : Word) : State :=
  { live with held := [(hlwPortDflt 2047 0, w0), (hlwPortDflt 2047 1, w1), (hlwPortDflt 2047 2, w2)] }

theorem witness_PortDefaultsAreWrittenWhole : checks [
    [0, 1, 2].all fun w => !(live.windowShut (hlwPortDflt 2047 w)) && gives (execRegisterWrite (hlwPortDflt 2047 w) 5 live) (fun u =>
      tfind u.held (hlwPortDflt 2047 w) == some 5 && u.rd (hlwPortDflt 2047 w) == live.rd (hlwPortDflt 2047 w)),
    gives (exec (.registerWrite (hlwPortDflt 2047 2) 5) live) (fun u => u.held == [(hlwPortDflt 2047 2, 5)]),
    gives (exec (.portDefaultWrite 511 3 0xFF000000) (dfltHeld 9 0 0)) (fun u => u.rd (hlwPortDflt 2047 0) == 9 && u.rd (hlwPortDflt 2047 3) == 0xFF000000 &&
      u.rf hlwCmdStatus 31 24 == 0),
    gives (exec (.portDefaultWrite 511 3 0xFE000000) (dfltHeld 9 0 0)) (fun u => u.rf hlwCmdStatus 31 24 == 1 &&
      u.rd (hlwPortDflt 2047 0) == live.rd (hlwPortDflt 2047 0))] := by decide +kernel


/-! ## Masthead -/

/-- These reports wait. -/
def waits (s : State) (l : List Report) : State := { s with mast := { s.mast with waiting := l } }

/-- Source `src` has this configuration, and one report of instance 3 waits before another source's. -/
def reporting (s : State) (src cfg : Nat) : State := waits (s.wrN (mstSrcCfg src) cfg) [⟨src, 3, 9, 5⟩, ⟨0x34, 0, 0, 0⟩]

/-- The log's newest entry has these two first words. -/
def logged (w0 w1 : Nat) (u : State) : Bool := match u.mast.log.getLast? with
  | some e => e.words.take 2 == [BitVec.ofNat 32 w0, BitVec.ofNat 32 w1]
  | none => false

/-- Safe state. -/
def inSafeState (st : Nat) : State := live.wf mstStatus 31 30 st

theorem witness_MastheadReportsLogAndMonitors : checks [
    stays (exec (.reportPresent 1 0 0) live) live, stays (exec (.reportPresent 0x36 0 0) live) live, stays (exec (.reportPresent 0x35 65536 0) live) live,
    gives (exec (.reportPresent 0x35 65535 7) (waits live [⟨0x10, 2, 0, 0⟩])) (fun u => u.mast.waiting == [⟨0x10, 2, 0, 0⟩, ⟨0x35, 65535, 7, 0⟩]),
    gives (exec (.reportPresent 0x10 2 7) (waits live [⟨0x10, 2, 0, 65535⟩])) (fun u => u.mast.waiting == [⟨0x10, 2, 0, 65535⟩]),
    gives (exec (.reportPresent 0x10 2 7) (waits live [⟨0x10, 2, 5, 0⟩])) (fun u => u.mast.waiting == [⟨0x10, 2, 5, 1⟩]),
    stays (exec .reportTake live) live,
    gives (exec .reportTake (reporting live 0x10 0)) (fun u => u.mast.waiting == [⟨0x34, 0, 0, 0⟩] && logged (3 * 2 ^ 16 + 0x10) 9 u &&
      u.rdN mstLogNext == 1 && u.rdN mstNotify == 0 && !u.mast.firstHeld),
    gives (exec .reportTake (reporting live 0x10 (2 ^ 29))) (fun u => u.rdN mstNotify == 1 && u.mast.waiting == [⟨0x34, 0, 0, 0⟩]),
    gives (exec .reportTake ((reporting live 0x10 (2 ^ 29 + 2 * 2 ^ 26 + 2)).wf mstEscWindow 15 0 1)) (fun u => logged (3 * 2 ^ 16 + 1 * 2 ^ 11 + 0x10) 9 u),
    gives (exec .reportTake { reporting live 0x10 (2 ^ 29 + 2 * 2 ^ 26 + 2) with mast :=
        { (reporting live 0x10 (2 ^ 29 + 2 * 2 ^ 26 + 2)).mast with esc := [(0x10, 1)] } }) (fun u =>
      logged (3 * 2 ^ 16 + 2 ^ 14 + 2 * 2 ^ 11 + 0x10) 9 u && u.rb mstIsoStatus 3 && shas u.bell.pulses 1281),
    gives (exec .reportTake (reporting live 5 (2 * 2 ^ 29))) (fun u => u.rb mstIsoStatus 27 && u.rb mstNotify 2 && shas u.bell.pulses 1281),
    gives (exec .reportTake (reporting live 4 (2 * 2 ^ 29))) (fun u => u.rb mstIsoStatus 16),
    gives (exec .reportTake (reporting live 0x2C (2 * 2 ^ 29))) (fun u => u.rb (celStkChfail 0) 3),
    gives (exec .reportTake (reporting live 0x24 (2 * 2 ^ 29))) (fun u => u.rf (lftEngStatus 3) 31 30 == 1 && u.rb mstNotify 2),
    gives (exec .reportTake (reporting live 0x26 (2 * 2 ^ 29))) (fun u => u.rf mstStatus 31 30 == 1 && u.rb mstNotify 1 && u.rf mstStatus 7 0 == 0x26),
    gives (exec .reportTake (reporting live 8 (3 * 2 ^ 29))) (fun u => u.rf mstStatus 31 30 == 1 && u.rf mstStatus 7 0 == 8 && !u.mast.alivePin &&
      u.mast.firstHeld && u.rdN (mstFirst 0) == 3 * 2 ^ 16 + 3 * 2 ^ 11 + 3 * 2 ^ 8 + 8 && u.rdN (mstFirst 4) == 5),
    let s := reporting live 8 (3 * 2 ^ 29)
    gives (exec .reportTake { s with mast := { s.mast with recov := List.replicate 8 0, firstHeld := true } }) (fun u => u.rf mstStatus 31 30 == 2 &&
      u.rdN (mstFirst 0) == 0),
    gives (exec .reportTake { reporting (inSafeState 1) 8 (3 * 2 ^ 29) with cycles := 44 }) (fun u => u.mast.quietFrom == 44 && u.rf mstStatus 7 0 == 0 &&
      u.rd mstStatus == (inSafeState 1).rd mstStatus),
    gives (exec .reportTake { (reporting live 0x10 0).wrN mstLogNext (2 ^ 32 - 1) with mast :=
        { (reporting live 0x10 0).mast with log := [⟨2 ^ 32 - 257, [], false⟩, ⟨2 ^ 32 - 2, [], true⟩] } }) (fun u => u.rdN mstLogNext == 0 &&
      u.mast.log.map (·.n) == [2 ^ 32 - 2, 2 ^ 32 - 1] && u.rb mstErr 1)] := by decide +kernel

theorem witness_MastheadReportsLogAndMonitors2 : checks [
    let s := { live with mast := { live.mast with log := [⟨2 ^ 31 - 1, [7, 8], false⟩] } }
    gives (exec (.logSelect 0x7FFFFFFF) s) (fun u => u.rdN mstLogSel == 2 ^ 32 - 1 && u.rdN (mstLogData 0) == 7 && u.rdN (mstLogData 7) == 0) &&
      gives (exec (.logSelect 5) s) (fun u => u.rdN mstLogSel == 5),
    stays (exec (.monitorDetect 1 0 0) live) live, stays (exec (.monitorDetect 9 0 0) live) live,
    gives (exec (.monitorDetect 8 65535 7) live) (fun u => u.mast.mons == [(8, 65535)] && u.rdN mstMon == 16 && u.mast.waiting == [⟨8, 65535, 7, 0⟩]),
    gives (exec (.monitorDetect 2 0 7) live) (fun u => u.rdN mstMon == 1) && gives (exec (.monitorDetect 4 0 7) live) (fun u => u.rdN mstMon == 2),
    let s := { (inSafeState 1).wrN mstMon 18 with cycles := 44, mast := { live.mast with mons := [(8, 65535), (4, 0)] } }
    stays (exec (.monitorDetect 4 0 0) s) s && gives (exec (.monitorClear 4 0) s) (fun u => u.rdN mstMon == 16 && u.mast.quietFrom == 0) &&
      gives (exec (.monitorClear 4 0) { s with mast := { s.mast with mons := [(4, 0)] } }) (fun u => u.rdN mstMon == 0 && u.mast.quietFrom == 44),
    stays (exec (.selfCheck false false) live) live,
    gives (exec (.selfCheck true false) live) (fun u => u.rf mstStatus 31 30 == 2 && !(u.rb mstStatus 28) && u.mast.checkerFired && u.rf mstStatus 7 0 == 0),
    gives (exec (.selfCheck false true) ((inSafeState 1).wf mstStatus 7 0 8)) (fun u => u.rf mstStatus 31 30 == 2 && u.rf mstStatus 7 0 == 8),
    gives (exec .aliveToggle (live.setB mstStatus 28)) (fun u => u.mast.alivePin != live.mast.alivePin),
    gives (exec .aliveToggle ((inSafeState 1).setB mstStatus 28)) (fun u => !u.mast.alivePin),
    gives (exec (.isolationRelease 0xFF010000) ((live.wrN mstIsoStatus 0x81018001))) (fun u => u.rdN mstIsoStatus == 0x8001),
    gives (exec (.isolationRelease 0x8000) ((live.wrN mstIsoStatus 0x8001))) (fun u => u.rdN mstIsoStatus == 1),
    stays (exec (.injectOneBit 5) live) live, stays (exec (.injectReport 5) live) live,
    let s := live.setB mstStatus 29
    gives (exec (.injectOneBit 0xFFFFFF) s) (fun u => u.rf mstInjCtl 26 0 == 0x1FFFFFF) && gives (exec (.injectTwoBits 0) s) (fun u => u.rf mstInjCtl 26 0 == 0x2000000) &&
      gives (exec (.injectParity 0) s) (fun u => u.rf mstInjCtl 26 24 == 4) &&
      gives (exec (.injectReport 0x35FFFF) s) (fun u => u.rf mstInjCtl 26 24 == 0 && u.mast.waiting.map (fun r => (r.src, r.inst)) == [(0x35, 65535)]) &&
      gives (exec (.injectReport 0x36FFFF) s) (fun u => u.mast.waiting == [])] := by decide +kernel

/-- The dump ring: one slot at the start of the tables. -/
def ringAt (n : Nat) (s : State) : State := (s.wf cntDumpCfg 31 24 n).wr64 cntDumpBaseLo (64 * 2 ^ 30)
def snapOf (s : State) : State := { s with mast := { s.mast with snap := some ⟨5, true, false, 0, 1, 64 * 2 ^ 30, [], []⟩ } }

theorem witness_SafeStateSnapshotsAndCounters : checks [
    stays (exec .safeEnterWrite (inSafeState 2)) (inSafeState 2),
    gives (exec .safeEnterWrite (((live.setB mstStatus 28).wf (lftEngStatus 511) 31 30 0).setPort 511 { live.port 511 with xoff := 255 })) (fun u =>
      u.rf mstStatus 31 30 == 1 && u.rf mstStatus 7 0 == 1 && !(u.rb mstStatus 28) && u.rf (lftEngStatus 511) 31 30 == 1 && (u.port 511).xoff == 0),
    let s (old : Nat) : State := { live.wrN mstRecovCfg 1 with time := (10 ^ 9 + 5) * 2 ^ 24, mast := { live.mast with recov := List.replicate 7 100 ++ [old] } }
    gives (exec .safeEnterWrite (s 5)) (fun u => u.rf mstStatus 31 30 == 2) && gives (exec .safeEnterWrite (s 4)) (fun u => u.rf mstStatus 31 30 == 1),
    stays (exec .safeExitWrite live) live,
    same (exec .safeExitWrite (inSafeState 2)) (.next ((inSafeState 2).setB mstSafeCtl 2)),
    same (exec .safeExitWrite ((inSafeState 1).wrN mstMon 16)) (.next (((inSafeState 1).wrN mstMon 16).setB mstSafeCtl 2)),
    let s := ((inSafeState 1).wrN mstIsoStatus 0x8000).wf mstRecov 31 16 65535
    s.inSafe && s.rf mstStatus 31 30 != 2 && s.rdN mstMon == 0,
    let s (cyc : Nat) : State := { ((inSafeState 1).setB mstSafeCfg 31).wf mstSafeCfg 15 0 10 with cycles := cyc }
    stays (exec .safeAutoExit (s 249999)) (s 249999) && (s 250000).rdN mstMon == 0 && (s 250000).rf mstStatus 31 30 == 1 &&
      (s 250000).rb mstSafeCfg 31 && (s 250000).mast.quietFrom + (s 250000).rf mstSafeCfg 15 0 * 25000 == (s 250000).cycles &&
      stays (exec .safeAutoExit ((s 250000).putB mstSafeCfg 31 false)) ((s 250000).putB mstSafeCfg 31 false),
    gives (exec .counterRead live) (fun u => u.rdata == 0 && tfind u.latch cntRdHi == some 0),
    dirShape 31 65535 == none && gives (exec (.counterDirectorySelect 0x1FFFFF) live) (fun u => u.rdN cntDirBase == 0 && u.rf cntDirSel 20 0 == 0x1FFFFF),
    dirShape 1 0 != none,
    let s := { live with mast := { live.mast with ctrs := [(ctrKey evMstReport 0 8, (7, 1)), (5, (2, 2))] } }
    stays (exec (.counterScrub evMstReport 0 8 .ok) s) s,
    let s := ringAt 1 live
    same (exec .snapWrite (snapOf s)) (.next ((snapOf s).setB cntDumpCtl 30)) &&
      gives (exec .snapWrite s) (fun u => u.rb cntDumpCtl 31 && (u.mast.snap.map fun x => (x.manual, x.slots, x.base)) == some (true, 1, 64 * 2 ^ 30)) &&
      gives (exec .snapWrite (s.wr64 cntDumpBaseLo 64)) (fun u => u.rb cntDumpCtl 29 && u.mast.snap == none && u.mast.snapSkipped && shas u.bell.pulses 1285),
    let s (ns : Nat) : State := { (ringAt 1 live).wf cntDumpCfg 13 0 10000 with time := ns * 2 ^ 24 }
    stays (exec .counterSnapshot (s 9999999999)) (s 9999999999) && stays (exec .counterSnapshot live) live &&
      gives (exec .counterSnapshot (s 10000000005)) (fun u => (u.mast.snap.map fun x => (x.time, x.manual)) == some (10000000000, false) &&
        u.mast.snapPeriod == 10000000000) &&
      gives (exec .counterSnapshot (snapOf (s 10000000000))) (fun u => u.mast.snapSkipped && u.mast.snap == (snapOf live).mast.snap) &&
      gives (exec .counterSnapshot ((s 10000000000).wr64 cntDumpBaseLo 0)) (fun u => u.rb cntDumpCtl 29 && u.mast.snapSkipped),
    stays (exec .dumpComplete live) live,
    let s := snapOf live
    s.dumpArea (64 * 2 ^ 30) (1 * dumpSlot) 4096 && s.cel.held == [] && !(s.rb dwyLinkStatus 31) && ((upto 4).all fun k => s.rd (celStkChfail k) == 0) &&
      ((upto 64).all fun v => !(s.rb (cntViewCfg v) 31)),
    gives (exec (.dumpCfgWrite cntDumpCfg 0xFF002710) (live.wf cntDumpCfg 13 0 0)) (fun u => u.rf cntDumpCfg 31 24 == 255 && u.rf cntDumpCfg 13 0 == 10000),
    gives (exec (.dumpCfgWrite cntDumpCfg 0xFF002711) live) (fun u => u.rb mstErr 0 && u.rd cntDumpCfg == live.rd cntDumpCfg),
    gives (exec (.dumpCfgWrite cntDumpCfg 0x00002710) live) (fun u => u.rb mstErr 0),
    gives (exec (.dumpCfgWrite cntDumpCfg 0x02000001) ((ringAt 1 live).setB cntDumpCtl 31)) (fun u => u.rb mstErr 0),
    gives (exec (.dumpCfgWrite cntDumpCfg 0x01000001) ((ringAt 1 live).setB cntDumpCtl 31)) (fun u => !(u.rb mstErr 0) && u.rf cntDumpCfg 13 0 == 1),
    gives (exec (.dumpCfgWrite cntDumpBaseLo 0x1000) (live.wf cntDumpCfg 13 0 0)) (fun u => u.held == [(cntDumpBaseLo, 0x1000)] &&
      gives (exec (.dumpCfgWrite cntDumpBaseHi 16) u) (fun t => t.rd64 cntDumpBaseLo == 2 ^ 36 + 0x1000) &&
      gives (exec (.dumpCfgWrite cntDumpBaseHi 16) (u.setB cntDumpCtl 31)) (fun t => t.rb mstErr 0 && t.rd64 cntDumpBaseLo == live.rd64 cntDumpBaseLo))] := by
  decide +kernel


/-! ## Attic -/

/-- The boot is in this stage with this order of slots and these straps. -/
def booting (stage : Nat) (order : List Nat) (strap : Nat) : State := let s := State.reset.wf atcBootStatus 31 28 stage
  { s with attic := { s.attic with strapSlot := strap, boot := { s.attic.boot with order := order } } }

/-- A control record stands in half `c`. -/
def withRec (s : State) (c : Nat) (r : CtlRec) : State := s.flashPut (s.half c) r.bytes

/-- What a failed check of slot `c` leaves. -/
def defects (c : Nat) (rest : List Nat) (d : Nat) (u : State) : Bool := u.rf atcBootErr (8 * c + 7) (8 * c) == d &&
  if rest.isEmpty then u.stage == 9 && u.mast.waiting.any fun r => r.src == 0x31 else u.stage == 3 && u.attic.boot.order == rest

/-- A flash command is in hand. -/
def flashing (op a : Nat) (deferred : Bool) : State := let s := live.setB atcFlCmd 31
  { s with attic := { s.attic with flCmd := some (op, a), restartDeferred := deferred } }

theorem witness_ResetsAndBootStages : checks [
    gives (exec (.coldStart 3 2 true) live) (fun u => u.stage == 1 && u.attic.strapSlot == 3 && u.attic.strapFlash == 2 && u.attic.testPin &&
      u.rdN atcStraps == 14 && u.rf atcBootStatus 23 20 == 0 && u.mast == State.reset.mast),
    gives (exec .vddAonLoss { live with attic := { live.attic with strapSlot := 1, fuseSvn := 5 } }) (fun u => u.stage == 1 && u.attic.strapSlot == 1 && u.attic.fuseSvn == 5),
    gives (exec .deviceRestart (flashing 4 0 false)) (fun u => u.attic.restartDeferred && u.stage == 8),
    gives (exec .deviceRestart { (live.wrN mstLogNext 9).setB mstStatus 29 with time := 77, mast := { live.mast with log := [⟨8, [], false⟩], recov := [5] } }) (fun u =>
      u.stage == 1 && u.rf atcBootStatus 23 20 == 1 && u.time == 77 && u.mast.log.map (·.n) == [8] && u.mast.recov == [5] && u.rdN mstLogNext == 9 && u.rb mstStatus 29),
    let s := { (live.setPort 511 { live.port 511 with xoff := 255 }).wrN mstIsoStatus 0x8000 with sht := { live.sht with
      pols := [(16384 * 15 + 3, { Pol.init with cfg := [0, 0, 0, 9, 7] })], dwrr := [(15 * 32 + 31, Dwrr.init)] } }
    gives (exec (.sliceRestart 15) s) (fun u => (u.port 511).xoff == 0 && (u.sht.pols.all fun p => p.2.tc == 9 * 65536 && p.2.te == 7 * 65536) && u.sht.dwrr == [] &&
      u.rdN mstIsoStatus == 0x8000),
    let s := (booting 1 [] 0).setB mstMon 3
    stays (exec (.bootStageEnd true true) s) s && stays (exec (.bootStageEnd true true) live) live,
    gives (exec (.bootStageEnd true true) (booting 1 [] 3)) (fun u => u.stage == 10) && gives (exec (.bootStageEnd true true) (booting 1 [] 0)) (fun u => u.stage == 2),
    gives (exec (.bootStageEnd false true) (booting 2 [] 0)) (fun u => u.stage == 9),
    gives (exec (.bootStageEnd true true) (booting 2 [] 1)) (fun u => u.stage == 3 && u.attic.boot.order == [0]) &&
      gives (exec (.bootStageEnd true true) (booting 2 [] 2)) (fun u => u.attic.boot.order == [1]) &&
      gives (exec (.bootStageEnd true true) (booting 2 [] 0)) (fun u => u.attic.boot.order == [0, 1] && u.attic.flash == []),
    let s (tries tally : Nat) : State := withRec (booting 2 [] 0) 1 ⟨4, 1, some 0, tries, tally⟩
    (s 3 (2 ^ 64 - 4)).recHalf == some 1 && gives (exec (.bootStageEnd true true) (s 3 (2 ^ 64 - 4))) (fun u => u.attic.boot.order == [0, 1] &&
        u.flashRead (2 ^ 25 + 12) 1 == [0xF8]) &&
      gives (exec (.bootStageEnd true false) (s 3 (2 ^ 64 - 4))) (fun u => u.attic.boot.order == [1]) &&
      gives (exec (.bootStageEnd true true) (s 2 (2 ^ 64 - 4))) (fun u => u.attic.boot.order == [1, 0]),
    (booting 3 [0] 0).authCheck 0 == 2 && gives (exec (.bootStageEnd true true) (booting 3 [0] 0)) (defects 0 [] 2) &&
      gives (exec (.bootStageEnd true true) (booting 3 [1, 0] 0)) (defects 1 [0] 2)] := by decide +kernel

theorem witness_ResetsAndBootStages_late : checks [
    stays (exec (.bootStageEnd false true) (booting 4 [0] 0)) (booting 4 [0] 0), gives (exec (.bootStageEnd true true) (booting 4 [0] 0)) (fun u => u.stage == 5),
    gives (exec (.bootStageEnd false true) (booting 5 [1, 0] 0)) (defects 1 [0] 0x0E),
    gives (exec (.bootStageEnd true true) (booting 5 [1, 0] 0)) (fun u => u.stage == 6 && u.rb celLock 0 && u.rf (celStkStatus 3) 31 30 == 0),
    let s := (booting 6 [0] 0).flashPut 0x1000E [0, 0]
    s.sectionsDone && gives (exec (.bootStageEnd true true) s) (fun u => u.stage == 7) && s.toRecord.sectionsDone && gives (exec .configRecord s) (fun u => u.stage == 6),
    let s := (booting 7 [0] 0).flashPut 0x10020 [1]
    gives (exec (.bootStageEnd true true) { s with attic := { s.attic with boot := { s.attic.boot with wake := true } } }) (fun u => u.stage == 8 &&
      shas u.bell.pulses 1344 && shas u.bell.pulses 1347 && u.rf atcPwrStatus 31 30 == 1 && u.rb mstStatus 28),
    stays (exec .configRecord live) live, stays (exec .pollTimeout live) live, stays (exec .delayExpire live) live, stays (exec .reservedLoftStart live) live,
    let s := ((booting 6 [0] 0).flashPut 0x1000E [0, 0]).wrN lftCrwCfg (1 * 2 ^ 16 + 63)
    s.reservedReady && s.rf lftCrwCfg 5 0 == 63 && s.rf lftCrwCfg 18 16 == 1 && gives (exec .reservedLoftStart s) (fun u => u.attic.boot.reservedStarted &&
      u.rf (lftEngStatus 511) 31 30 != 1)] := by decide +kernel

/-- A record of each OP, and a malformed one, is reached in SECTIONS; a POLL and a DELAY wait. -/
theorem witness_ResetsAndBootStages_record : ∀ p ∈ ([(⟨1, mstEscWindow, 5, 0⟩, 0), (⟨1, 0x10FFFFFC, 5, 0⟩, 0), (⟨2, mstEscWindow, 0, 5⟩, 0), (⟨3, 0, 1000000, 0⟩, 0),
      (⟨3, 0, 0, 0⟩, 10), (⟨1, celLock, 1, 0⟩, 11)] : List (CfgRec × Nat)),
    let s := imaged 0 6 (recBytes p.1.op p.1.addr p.1.value p.1.mask)
    s.stage = 6 ∧ s.toRecord.stage = 6 ∧ s.toRecord.sectionsDone = false ∧ s.toRecord.cfgNow = p.1 ∧ p.1.check = p.2 ∧
      s.toRecord.attic.boot.order = [0] := by
  intro p hp
  have hb : (p.1.op < 2 ^ 32 ∧ p.1.addr < 2 ^ 32 ∧ p.1.value < 2 ^ 32 ∧ p.1.mask < 2 ^ 32) ∧ p.1.check = p.2 := by
    revert p
    decide +kernel
  obtain ⟨⟨h1, h2, h3, h4⟩, h5⟩ := hb
  obtain ⟨a, b, c, d, e⟩ := imaged_record 0 _ _ _ _ h1 h2 h3 h4
  intro s
  rw [show s.toRecord = s from a]
  exact ⟨b, b, c, e, h5, d⟩

/-- AUTH finds nothing wrong with slot B where signatures verify, which no proof can see. -/
theorem witness_ResetsAndBootStages_auth (sig : ∀ k d g, Config.ecdsaOk k d g = true) :
    (imaged 1 3 (recBytes 3 0 1 0)).authCheck 1 = 0 := imaged_auth 1 3 _ rfl sig

/-- Waiting at a POLL or a DELAY of slot A. -/
def atRecord (op : Nat) : State := let s := (booting 6 [0] 0).flashPut 0x10100 (natLe 4 1 ++ natLe 4 512 ++ natLe 4 16 ++ natLe 4 1024)
  let t := s.flashPut 0x10200 (recBytes op mstEscWindow 5 0)
  { t with attic := { t.attic with boot := { t.attic.boot with waiting := true } } }

theorem witness_ResetsAndBootStages_waits : checks [
    (atRecord 2).cfgNow.op == 2 && gives (exec .pollTimeout (atRecord 2)) (defects 0 [] 0x0C), stays (exec .pollTimeout (atRecord 3)) (atRecord 3),
    gives (exec .delayExpire (atRecord 3)) (fun u => u.attic.boot.record == 1 && !u.attic.boot.waiting)] := by decide +kernel

/-- The outcome of a flash command that is refused. -/
def refusedFl (r : Nat) (u : State) : Bool := u.rf atcFlStatus 31 24 == r && !(u.rb atcFlCmd 31)

/-- Slot A is booted in DONE; on trial or not; what its image says. -/
def onSlotA (trial : Bool) (flags : Nat) : State :=
  (live.putB atcBootStatus 26 trial).flashPut 0x10010 ([0, 0, 0, 0, 7, 1, BitVec.ofNat 8 flags, 0, 5, 0, 0, 0] ++ List.replicate 12 0 ++ [0x0F])

/-- The newest control record. -/
def newest (u : State) : CtlRec := u.recNow

theorem witness_FlashSlotsAndDeviceTime : checks [
    same (exec (.flErase64k 0x800000) (flashing 4 0 false)) (.next ((flashing 4 0 false).setB atcFlStatus 0)),
    gives (exec (.flRead 256) (booting 7 [0] 0)) (refusedFl 5), gives (exec (.flRead 0x800080) live) (refusedFl 2),
    gives (exec (.flErase4k (2 ^ 26)) live) (refusedFl 3), gives (exec (.flProgram 0) live) (refusedFl 1), gives (exec (.flProgram 0x10000) live) (refusedFl 1),
    gives (exec (.flErase64k (2 ^ 26 - 65536)) live) (fun u => u.rb atcFlCmd 31 && u.attic.flCmd == some (4, 2 ^ 26 - 65536)),
    stays (exec (.flashCommandEnd true) live) live,
    let s (op : Nat) (d : Bool) : State := (flashing op (2 ^ 26 - 65536) d).flashPut (2 ^ 26 - 65536) [1, 2, 3]
    gives (exec (.flashCommandEnd true) (s 1 false)) (fun u => u.rdN (atcFlData 0) == 0xFF030201 && u.rdN (atcFlData 63) == 2 ^ 32 - 1 && u.attic.flCmd == none &&
        u.rf atcFlStatus 31 24 == 0 && shas u.bell.pulses 1348) &&
      gives (exec (.flashCommandEnd false) (s 1 false)) (fun u => u.rf atcFlStatus 31 24 == 4 && u.attic.flash == (s 1 false).attic.flash) &&
      gives (exec (.flashCommandEnd true) (((s 2 false).wrN (atcFlData 0) 0xFFFFFF02).wrN (atcFlData 63) 0xFEFFFFFF)) (fun u =>
        u.flashRead (2 ^ 26 - 65536) 5 == [0, 2, 3, 0xFF, 0] && u.flashRead (2 ^ 26 - 65536 + 255) 2 == [0xFE, 0xFF]) &&
      gives (exec (.flashCommandEnd true) (s 4 false)) (fun u => u.attic.flash == []) &&
      gives (exec (.flashCommandEnd true) (s 3 true)) (fun u => u.stage == 1 && u.rf atcBootStatus 23 20 == 1 && u.attic.flash == []),
    let s := live.setB atcSlotCtl 31
    stays (exec (.slotTry 3 true) s) s && stays (exec (.slotConfirm 3 true true) s) s && stays (exec (.slotRevert 3 true) s) s,
    gives (exec (.slotTry 8 true) live) (fun u => u.rf atcSlotCtl 23 16 == 4 && shas u.bell.pulses 1349) && gives (exec (.slotConfirm 8 true true) live) (fun u =>
      u.rf atcSlotCtl 23 16 == 4) && gives (exec (.slotRevert 8 true) live) (fun u => u.rf atcSlotCtl 23 16 == 4),
    live.fullCheck 1 == 2 && gives (exec (.slotTry 7 true) live) (fun u => u.rf atcSlotCtl 23 16 == 2 && u.rf atcBootErr 15 8 == 2 && u.attic == live.attic),
    gives (exec (.slotConfirm 7 true true) (booting 9 [0] 0)) (fun u => u.rf atcSlotCtl 23 16 == 1) && gives (exec (.slotRevert 7 true) (booting 10 [0] 0)) (fun u =>
      u.rf atcSlotCtl 23 16 == 1) && gives (exec (.slotRevert 7 true) live) (fun u => u.rf atcSlotCtl 23 16 == 1),
    gives (exec (.slotConfirm 7 false true) (onSlotA true 0)) (fun u => u.rf atcSlotCtl 23 16 == 3 && u.attic.fuseSvn == 0),
    gives (exec (.slotConfirm 7 true true) (onSlotA true 0)) (fun u => u.rf atcSlotCtl 23 16 == 0 && !(u.rb atcBootStatus 26) && (newest u).active == 0 &&
      (newest u).seq == 1 && (newest u).try? == none),
    gives (exec (.slotConfirm 7 true true) (onSlotA false 1)) (fun u => u.rf atcSlotCtl 23 16 == 0 && u.attic.fuseSvn == 7 &&
      u.attic.keys.map (·.revoked) == [true, false, true, true]),
    let s := withRec (live.setB atcBootStatus 26) 0 ⟨2 ^ 31, 1, some 0, 3, 2 ^ 64 - 4⟩
    gives (exec (.slotRevert 7 true) s) (fun u => u.rf atcSlotCtl 23 16 == 0 && !(u.rb atcBootStatus 26) && newest u == ⟨2 ^ 31 + 1, 1, none, 3, 2 ^ 64 - 4⟩) &&
      gives (exec (.slotRevert 7 false) s) (fun u => u.rf atcSlotCtl 23 16 == 3),
    let s (cyc : Nat) : State := { onSlotA true 0 with cycles := cyc }
    stays (exec (.autoConfirm true true) (s 124999999)) (s 124999999) && gives (exec (.autoConfirm true true) (s 125000000)) (fun u => !(u.rb atcBootStatus 26) &&
      (newest u).seq == 1),
    let s (slew : Int) (set : Option Nat) : State := { live.wrN atcTimeIncr 0x28000000 with time := 2 ^ 88 - 1, attic := { live.attic with slew := slew, timeSet := set } }
    gives (exec .timeTick (s 41943040 none)) (fun u => u.time == 0x28000000 + 41943040 - 1 && u.attic.slew == 0 && !(u.rb atcTimeStatus 31) && u.cycles == 1) &&
      gives (exec .timeTick (s 41943041 none)) (fun u => u.attic.slew == 1 && u.rb atcTimeStatus 31) &&
      gives (exec .timeTick (s (-41943041) none)) (fun u => u.attic.slew == -1 && u.time == 0x28000000 - 41943040 - 1) &&
      gives (exec .timeTick (s 9 (some 5))) (fun u => u.time == 5 * 2 ^ 24 && u.attic.slew == 0 && u.rb atcTimeStatus 30 && shas u.bell.pulses 1350),
    gives (exec (.timeAdjWrite 0xFFFFFFFF) live) (fun u => u.attic.slew == -2 ^ 24 && u.rb atcTimeStatus 31) && gives (exec (.timeAdjWrite 0) live) (fun u =>
      !(u.rb atcTimeStatus 31)),
    gives (exec (.timeSetWrite 9) { live with held := [(atcTimeSetLo, 5)] }) (fun u => u.attic.timeSet == some (9 * 2 ^ 32 + 5)),
    gives (exec (.timeIncrWrite 0x2799999A) live) (fun u => u.rdN atcTimeIncr == 0x2799999A) && gives (exec (.timeIncrWrite 0x28666666) live) (fun u =>
      u.rdN atcTimeIncr == 0x28666666),
    stays (exec (.timeIncrWrite 0x27999999) live) live, stays (exec (.timeIncrWrite 0x28666667) live) live] := by decide +kernel

/-- SLOT_TRY finds nothing wrong with slot B where signatures verify. -/
theorem witness_FlashSlotsAndDeviceTime_try (sig : ∀ k d g, Config.ecdsaOk k d g = true) :
    let s := imaged 1 8 (recBytes 1 mstEscWindow 5 0)
    s.rb atcSlotCtl 31 = false ∧ s.rf atcBootStatus 27 27 = 0 ∧ s.fullCheck 1 = 0 := by
  intro s
  refine ⟨?_, ?_, imaged_full 1 8 1 mstEscWindow 5 0 (by decide) (by decide) (by decide) (by decide) sig (by decide +kernel)⟩
  · exact (show (State.reset.wf atcBootStatus 31 28 8).rb atcSlotCtl 31 = false by decide +kernel)
  · exact (show (State.reset.wf atcBootStatus 31 28 8).rf atcBootStatus 27 27 = 0 by decide +kernel)

/-- The part is fully Shuttered. -/
def dark (s : State) : State := { s.wf atcPwrStatus 31 30 2 with attic := { s.attic with saved := some ⟨1, 2, 3, true⟩ } }

theorem witness_PowerStatesSidebandAndJtag : checks [
    stays (exec (.powerTargetWrite 3) live) live, gives (exec (.powerTargetWrite 1) (dark live)) (fun u => u.rf atcPwrCtl 1 0 == 1 && u.shuttered),
    same (exec (.powerTargetWrite 0) (live.wf atcPwrStatus 31 30 2)) (.next ((live.wf atcPwrStatus 31 30 2).setB atcPwrStatus 29)),
    same (exec (.powerTargetWrite 2) (inSafeState 1)) (.next ((inSafeState 1).setB atcPwrStatus 29)),
    same (exec (.powerTargetWrite 2) (live.wf crwMigStatus 2 0 1)) (.next ((live.wf crwMigStatus 2 0 1).setB atcPwrStatus 29)),
    gives (exec (.powerTargetWrite 2) (up 511)) (fun u => u.rf atcPwrStatus 31 30 == 2 && u.rf atcPwrCtl 1 0 == 2 && !(u.rb (pchPortCfg 511) 0)),
    gives (exec (.powerTargetWrite 1) live) (fun u => u.rf atcPwrStatus 31 30 == 1 && u.rf atcPwrCtl 1 0 == 1),
    gives (exec (.powerTargetWrite 0) ((live.wf atcPwrStatus 31 30 1).setB atcPwrStatus 15 |>.wf (celStkStatus 3) 31 30 2)) (fun u => u.rf atcPwrStatus 31 30 == 0 &&
      !(u.rb atcPwrStatus 15) && u.rf (celStkStatus 3) 31 30 == 0),
    stays (exec .shutterComplete live) live,
    gives (exec .shutterComplete ((live.wf atcPwrStatus 31 30 2).setB atcPwrStatus 15)) (fun u => u.shuttered && u.rf atcPwrStatus 15 0 == 0 &&
      u.rf (celStkStatus 3) 31 30 == 2),
    stays (exec (.shutteredWake 1) (dark live)) (dark live), stays (exec (.shutteredWake 0) (dark live)) (dark live), stays (exec (.shutteredWake 3) (dark live)) (dark live),
    let s (ns : Nat) : State := { (dark live).wrN atcWakeTimeLo 9 with time := ns * 2 ^ 24 }
    stays (exec (.shutteredWake 0) (s 8)) (s 8) && gives (exec (.shutteredWake 0) (s 9)) (fun u => u.stage == 2 && u.rf atcBootStatus 23 20 == 2 &&
      u.rf atcPwrStatus 31 30 == 3 && u.attic.boot.wake && u.attic.boot.order == [0]),
    gives (exec (.shutteredWake 1) { dark live with attic := { (dark live).attic with perstN := true } }) (fun u => u.rdN atcWakeSrc == 1 && u.stage == 2),
    gives (exec (.shutteredWake 2) ((dark live).wf atcPwrCtl 1 0 1)) (fun u => u.rdN atcWakeSrc == 2),
    stays (exec (.shutteredWake 2) ((dark live).wf atcPwrCtl 1 0 2)) ((dark live).wf atcPwrCtl 1 0 2),
    stays (exec (.sliceGate 15) live) live, stays (exec (.sliceGate 16) (live.wf atcPwrStatus 31 30 1)) (live.wf atcPwrStatus 31 30 1),
    gives (exec (.sliceGate 15) (live.wf atcPwrStatus 31 30 1)) (fun u => u.sliceGated 15 && !(u.sliceGated 14)),
    stays (exec .periodicScrubWake live) live, gives (exec .periodicScrubWake (live.setB atcPwrStatus 15)) (fun u => u.sliceGated 15),
    stays (exec (.sidebandAccess 0x5D true (atcFlData 63) 9) live) live, gives (exec (.sidebandAccess 0x5C true (0x10000 + atcFlData 63) 9) live) (fun u => u.rdN (atcFlData 63) == 9),
    gives (exec (.sidebandAccess 0x5C false (atcFlData 63) 0) (live.wrN (atcFlData 63) 9)) (fun u => u.rdata == 9),
    gives (exec (.dynamicAddressAssign (some 0xFF)) live) (fun u => u.sbAnswers 0x7F && !(u.sbAnswers 0x5C)),
    gives (exec (.dynamicAddressAssign none) { live with attic := { live.attic with sbDyn := some 9 } }) (fun u => u.sbAnswers 0x5C && !(u.sbAnswers 9)),
    gives (exec (.jtagAccess 1 (List.replicate 32 false)) live) (fun u => u.rdata == 0x17140001 && u.attic.jtagIr == 1),
    gives (exec (.jtagAccess 0 [true, true, false]) live) (fun u => u.rdata == 6 && u.attic.jtagDr == [true, true, false]),
    gives (exec (.jtagAccess 4 [true]) live) (fun u => u.rdata == 0) && gives (exec (.jtagAccess 5 []) live) (fun u => u.rdata == 0),
    gives (exec (.jtagAccess 2 [true]) live) (fun u => u.attic.jtagIr == 2) && gives (exec (.jtagAccess 3 [true]) live) (fun u => u.attic.jtagIr == 3),
    (match exec (.jtagAccess 6 []) live with
      | .refused .jtagBeyond => true
      | _ => false),
    let s := { live with attic := { live.attic with keys := [⟨5, true, false⟩, KeySlot.reset, KeySlot.reset, KeySlot.reset] } }
    stays (exec (.jtagAccess 6 []) s) s && (match exec (.jtagAccess 6 []) (s.setB atcBootStatus 24) with
      | .refused .jtagBeyond => true
      | _ => false)] := by decide +kernel

end Sys2Proof.Tests
end

/-! PROOFS. Register accesses of PF0 BAR0 (R4 to R13): the rows of the register map, the bus and the register operations
by kind, and the statements on reserved accesses and access codes. -/

namespace Sys2Proof.Machine

/-! ## The register map (R4, R10) -/

/-- Where a row holds an address: it is the address of its indices (i, j). -/
theorem RegRow.eq_of_hit {r : RegRow} {a i j : Nat} (h : r.hit a = some (i, j)) :
    a = r.base + i * r.st + j * r.st2 ∧ i < r.n ∧ j < r.n2 := by
  unfold RegRow.hit at h
  by_cases below : a < r.base
  · simp [below] at h
  · simp only [below, if_false, Option.ite_none_right_eq_some, Option.some.injEq, Prod.mk.injEq] at h
    obtain ⟨⟨hi, hj, place⟩, rfl, rfl⟩ := h
    have fits : (if r.n = 1 then 0 else (a - r.base) / r.st) * r.st ≤ a - r.base := by
      split
      · simp
      · exact Nat.div_mul_le_self _ _
    exact ⟨by omega, hi, hj⟩

theorem mem_rowsOf_of_regAt {a i j : Nat} {r : RegRow} (h : regAt a = some (r, i, j)) :
    r ∈ rowsOf a ∧ r.hit a = some (i, j) := by
  obtain ⟨q, hq, hit⟩ := List.exists_of_findSome?_eq_some h
  obtain ⟨p, hp, e⟩ := Option.map_eq_some_iff.1 hit
  cases e
  exact ⟨hq, hp⟩

theorem kindAt_eq_some {a : Nat} {k : RegKind} (h : kindAt a = some k) :
    ∃ r i j, regAt a = some (r, i, j) ∧ r.kind = k := by
  obtain ⟨⟨r, i, j⟩, hr, hk⟩ := Option.map_eq_some_iff.1 h
  exact ⟨r, i, j, hr, hk⟩

theorem kindAt_of_regAt {a i j : Nat} {r : RegRow} (h : regAt a = some (r, i, j)) : kindAt a = some r.kind := by
  simp [kindAt, h]

/-- Windows 0x11 to 0x1F are reserved (R4). -/
theorem regAt_reservedWindow {a : Nat} (lo : 0x11000000 ≤ a) (hi : a < 0x20000000) : regAt a = none := by
  have rows : rowsOf a = [] := by
    have low : ¬ 0x20000000 ≤ a := by omega
    have window : 0x11 ≤ a / 0x1000000 := by omega
    unfold rowsOf
    rw [if_neg low]
    split
    case h_18 => rfl
    all_goals omega
  simp [regAt, rows]

/-- The registers that grant buffers to a function are no halves of a pair (R379). -/
theorem not_grant_of_pair {a : Nat} {k : RegKind} (h : kindAt a = some k) (pair : k = .pairLo ∨ k = .pairHi) :
    ¬(cupFnGrant 0 0 ≤ a ∧ a < cupFnGrant 64 0 ∧ (a - cupFnGrant 0 0) % 0x100 < 0x20) := by
  rintro ⟨lo, hi, -⟩
  obtain ⟨r, i, j, hr, hk⟩ := kindAt_eq_some h
  obtain ⟨mem, hit⟩ := mem_rowsOf_of_regAt hr
  obtain ⟨place, hi', hj⟩ := RegRow.eq_of_hit hit
  simp only [cupFnGrant] at lo hi
  have window : a / 0x1000000 = 0x0F := by omega
  have rows : rowsOf a = rowsCupboard := by
    simp only [rowsOf, if_neg (show ¬ 0x20000000 ≤ a by omega), window]
  have pairs : ∀ q ∈ rowsCupboard, q.kind = .pairLo ∨ q.kind = .pairHi →
      q.base + q.n * q.st + q.n2 * q.st2 < 0x0F010000 := by decide
  have bound := pairs r (rows ▸ mem) (hk ▸ pair)
  have := Nat.mul_le_mul_right r.st (Nat.le_of_lt hi')
  have := Nat.mul_le_mul_right r.st2 (Nat.le_of_lt hj)
  omega

/-- The VERSION registers of windows 0x00 to 0x10. -/
theorem regAt_version : ∀ w ≤ 16, regAt (w * 0x1000000) =
    some ({ base := w * 0x1000000, rst := 0x10000 }, 0, 0) := by
  decide

theorem regAt_lftData : ∀ i < 16, regAt (lftData i) =
    some ({ base := 0x0e000020, n := 16, st := 0x4, rw := 0xffffffff }, i, 0) := by
  decide

theorem regAt_lftDbgDataLo :
    regAt lftDbgDataLo = some ({ base := 0x0e000310, rw := 0xffffffff, kind := .pairLo }, 0, 0) := rfl

theorem regAt_lftDbgDataHi :
    regAt lftDbgDataHi = some ({ base := 0x0e000314, rw := 0xffffffff, kind := .pairHi }, 0, 0) := rfl

theorem regAt_belPend : ∀ k < 128, regAt (belPend k) =
    some ({ base := 0x04001000, n := 128, st := 0x4, rw := 0xffffffff, kind := .set }, k, 0) := by
  decide +kernel

theorem regAt_belPendClr : ∀ k < 128, regAt (belPendClr k) =
    some ({ base := 0x04001200, n := 128, st := 0x4, rw := 0xffffffff, kind := .clr 0x200 }, k, 0) := by
  decide +kernel

theorem regAt_belMask : ∀ k < 128, regAt (belMask k) =
    some ({ base := 0x04001400, n := 128, st := 0x4, rw := 0xffffffff, rst := 0xffffffff, kind := .set }, k, 0) := by
  decide +kernel

theorem regAt_belMaskClr : ∀ k < 128, regAt (belMaskClr k) =
    some ({ base := 0x04001600, n := 128, st := 0x4, rw := 0xffffffff, rst := 0xffffffff, kind := .clr 0x200 }, k, 0) := by
  decide +kernel

/-! ## What a write of the RW bits leaves -/

/-- The mask of a register whose 32 bits are all of one kind. -/
theorem and_fullMask (x : Word) : x &&& 0xffffffff#32 = x := BitVec.and_allOnes

/-- Every bit of the register is RW. -/
theorem State.plainWrite_of_rw_all {a i j : Nat} {r : RegRow} (s : State) (v : Word) (h : regAt a = some (r, i, j))
    (rw_all : r.rw = 0xffffffff) : s.plainWrite a v = s.wr a v := by
  simp [State.plainWrite, h, rw_all, and_fullMask]

/-- No bit of the register is RW. -/
theorem State.rd_plainWrite_of_rw_none {a i j : Nat} {r : RegRow} (s : State) (v : Word) (b : Nat)
    (h : regAt a = some (r, i, j)) (rw_none : r.rw = 0) : (s.plainWrite a v).rd b = s.rd b := by
  simp +contextual [State.plainWrite, h, rw_none, State.rd_wr, and_fullMask]

theorem State.clearRc_eq {a i j : Nat} {r : RegRow} (s : State) (h : regAt a = some (r, i, j)) :
    s.clearRc a = s.wr a (s.rd a &&& ~~~(BitVec.ofNat 32 r.rc)) := by
  simp [State.clearRc, h]

/-- What a condition's bookkeeping forgets is no register. -/
@[simp] theorem State.rd_condPrune (s : State) (a : Nat) : s.condPrune.rd a = s.rd a := rfl

/-! ## Aligned 32-bit accesses of PF0 BAR0 (R4 to R6) -/

theorem State.noReg_of_regAt {a i j : Nat} {r : RegRow} (s : State) (h : regAt a = some (r, i, j))
    (o : s.windowShut a = false) : s.noReg a = false := by
  simp [State.noReg, h, o]

/-- A window before 0x05 is never shut (R482). -/
theorem State.windowShut_low (s : State) {a : Nat} (h : a < 0x5000000) : s.windowShut a = false := by
  have before : ¬(0x5000000 ≤ a ∧ a < 0x11000000) := by omega
  rw [State.windowShut, decide_eq_false before, Bool.and_false]

/-- Whether a window is open is read from the registers alone. -/
theorem State.windowShut_congr {s t : State} (h : t.regs = s.regs) (a : Nat) : t.windowShut a = s.windowShut a := by
  simp only [State.windowShut, State.stage, State.rf, State.rd_congr h]

theorem State.busRead_misaligned (s : State) (fn : Nat) {a n : Nat} (ha : a < 0x20000000) (h : ¬(n = 4 ∧ a % 4 = 0)) :
    s.busRead fn a n = (s.accessError 0 a).answer (2 ^ (8 * n) - 1) := by
  simp [State.busRead, ha, h]

theorem State.busWrite_misaligned (s : State) (fn : Nat) {a : Nat} {bs : List Byte} (ha : a < 0x20000000)
    (h : ¬(bs.length = 4 ∧ a % 4 = 0)) : s.busWrite fn a bs = s.accessError 0 a := by
  simp [State.busWrite, ha, h]

theorem State.busRead_reserved (s : State) (fn : Nat) {a : Nat} (ha : a < 0x20000000) (al : a % 4 = 0)
    (h : s.noReg a = true) : s.busRead fn a 4 = s.reservedAccess.answer 0 := by
  simp [State.busRead, ha, al, h]

theorem State.busWrite_reserved (s : State) (fn : Nat) {a : Nat} {bs : List Byte} (ha : a < 0x20000000) (al : a % 4 = 0)
    (len : bs.length = 4) (h : s.noReg a = true) : s.busWrite fn a bs = s.reservedAccess := by
  simp [State.busWrite, ha, al, len, h]

theorem State.busRead_register (s : State) (fn : Nat) {a : Nat} (ha : a < 0x20000000) (al : a % 4 = 0)
    (h : s.noReg a = false) : s.busRead fn a 4 = s.regRead a := by
  simp [State.busRead, ha, al, h]

theorem State.busWrite_register (s : State) (fn : Nat) {a : Nat} {bs : List Byte} (ha : a < 0x20000000) (al : a % 4 = 0)
    (len : bs.length = 4) (h : s.noReg a = false) : s.busWrite fn a bs = s.regWrite a (BitVec.ofNat 32 (leNat bs)) := by
  simp [State.busWrite, ha, al, len, h]

/-- The four bytes of a word spell it again. -/
theorem ofNat_leNat_natLe (v : Word) : BitVec.ofNat 32 (leNat (natLe 4 v.toNat)) = v := by
  apply BitVec.eq_of_toNat_eq
  have := v.isLt
  simp only [natLe, leNat, BitVec.toNat_ofNat]
  omega

theorem State.write32_register (s : State) {a i j : Nat} {r : RegRow} (v : Word) (ha : a < 0x20000000) (al : a % 4 = 0)
    (h : regAt a = some (r, i, j)) (o : s.windowShut a = false) : s.write32 a v = s.regWrite a v := by
  rw [State.write32, State.busWrite_register s 0 ha al (by simp [natLe]) (s.noReg_of_regAt h o), ofNat_leNat_natLe]

/-! ## Reads of registers by kind (R11, R13) -/

section
variable {a i j : Nat} {r : RegRow} (s : State) (h : regAt a = some (r, i, j))
  (noTag : runIdx a (pchTsTag 0) 0x80 512 = none)
include h

section
include noTag

theorem State.regRead_pairLo (k : r.kind = .pairLo) : s.regRead a =
    { s.answer (s.shows a) with latch := tput s.latch (a + 4) (BitVec.ofNat 32 (s.shows (a + 4))) } := by
  have noGrant := not_grant_of_pair (kindAt_of_regAt h) (.inl k)
  simp only [State.regRead, noTag, if_neg noGrant, h, k]

theorem State.regRead_pairHi_latched {v : Word} (k : r.kind = .pairHi) (latched : tfind s.latch a = some v) :
    s.regRead a = { s.answer v.toNat with latch := tdel s.latch a } := by
  have noGrant := not_grant_of_pair (kindAt_of_regAt h) (.inr k)
  simp only [State.regRead, noTag, if_neg noGrant, h, k, latched]

theorem State.regRead_rc (k : r.kind = .plain) (rc : r.rc ≠ 0)
    (noGrant : ¬(cupFnGrant 0 0 ≤ a ∧ a < cupFnGrant 64 0 ∧ (a - cupFnGrant 0 0) % 0x100 < 0x20)) :
    s.regRead a = ((s.answer (s.shows a)).wr a (s.rd a &&& ~~~(BitVec.ofNat 32 r.rc))).condPrune := by
  simp only [State.regRead, noTag, if_neg noGrant, h, k, if_neg rc, State.clearRc_eq _ h, State.rd_answer]

end

/-! ## Writes of registers by kind (R11, R12) -/

theorem State.regWrite_plain (v : Word) (k : r.kind = .plain) : s.regWrite a v = (s.unitWrite a v).condPrune := by
  simp only [State.regWrite, h, k]

theorem State.regWrite_pairLo (v : Word) (k : r.kind = .pairLo) :
    s.regWrite a v = { s with held := tput s.held a v } := by
  simp only [State.regWrite, h, k]

theorem State.regWrite_pairHi (v : Word) (k : r.kind = .pairHi) : s.regWrite a v =
    ({ s with held := tdel s.held (a - 4) }.pairWrite (a - 4)
      ((tget (s.rd (a - 4)) s.held (a - 4)).toNat + 2 ^ 32 * v.toNat)).condPrune := by
  simp only [State.regWrite, h, k]

theorem State.regWrite_set (v : Word) (k : r.kind = .set) :
    s.regWrite a v = (s.unitWrite a (s.rd a ||| v)).condPrune := by
  simp only [State.regWrite, h, k]

theorem State.regWrite_clr {back : Nat} (v : Word) (k : r.kind = .clr back) (w : a / 0x1000000 ≠ 2) :
    s.regWrite a v = (s.unitWrite (a - back) (s.rd (a - back) &&& ~~~v)).condPrune := by
  simp only [State.regWrite, h, k, if_neg w]

end

/-! ## Which unit takes a write -/

/-- Gallery holds back its data registers alone while a command runs. -/
theorem State.galRegWrite_version (s : State) (v : Word) : s.galRegWrite galVersion v = s.plainWrite galVersion v := by
  simp [State.galRegWrite, galVersion, galCmd, galJobCtl, galResult, galKey, galMask]

/-- Larder holds back its data registers alone while a command runs. -/
theorem State.lrdRegWrite_version (s : State) (v : Word) : s.lrdRegWrite lrdVersion v = s.plainWrite lrdVersion v := by
  simp [State.lrdRegWrite, lrdVersion, lrdCmd, lrdJobCtl, lrdEnt, lrdKey, lrdCmp, lrdTblCfg]

/-- Crowsnest holds back its data registers alone while a command runs. -/
theorem State.crwRegWrite_version (s : State) (v : Word) : s.crwRegWrite crwVersion v = s.plainWrite crwVersion v := by
  simp [State.crwRegWrite, crwVersion, crwCfg, crwCmd, crwBuildCtl, crwMigCtl, crwMigMark, crwMigCfg, crwData]

/-- No unit has a use of its own for a write of its VERSION register. -/
theorem State.unitWrite_version (s : State) {w : Nat} (v : Word) (hw : w ≤ 16) :
    s.unitWrite (w * 0x1000000) v = s.plainWrite (w * 0x1000000) v := by
  match w, hw with
  | 8, _ => exact s.galRegWrite_version v
  | 9, _ => exact s.lrdRegWrite_version v
  | 10, _ => exact s.crwRegWrite_version v
  | 0, _ | 1, _ | 2, _ | 3, _ | 4, _ | 5, _ | 6, _ | 7, _ => rfl
  | 11, _ | 12, _ | 13, _ | 14, _ | 15, _ | 16, _ => rfl
  | n + 17, beyond => omega

/-- A register of Bellboard below the routes, but for BEL_BELL_PULL, takes a write as it is. -/
theorem State.unitWrite_bellboard (s : State) {a : Nat} (v : Word) (lo : belBellPull < a) (hi : a < belRoute 0) :
    s.unitWrite a v = s.plainWrite a v := by
  simp only [belBellPull, belRoute] at lo hi
  have window : a / 0x1000000 = 0x04 := by omega
  have bell : s.unitWrite a v = s.belRegWrite a v := by
    simp only [State.unitWrite, if_neg (show ¬ 0x20000000 ≤ a by omega), window]
  have pull : a ≠ belBellPull := by unfold belBellPull; omega
  have route : ¬(belRoute 0 ≤ a ∧ a < belRoute 4096) := by unfold belRoute; omega
  rw [bell, State.belRegWrite, if_neg pull, if_neg route]

theorem State.unitWrite_lftData (s : State) {i : Nat} (v : Word) (hi : i < 16) : s.unitWrite (lftData i) v =
    if s.rb lftCmd 31 then s.setB lftCmdStatus 0 else s.wr (lftData i) v := by
  have window : lftData i / 0x1000000 = 0x0E := by unfold lftData; omega
  have noPage : ¬ 0x20000000 ≤ lftData i := by unfold lftData; omega
  have noDbg : lftData i ≠ lftDbgCmd := by unfold lftData lftDbgCmd; omega
  have noCmd : lftData i ≠ lftCmd := by unfold lftData lftCmd; omega
  have isData : lftData 0 ≤ lftData i ∧ lftData i < lftData 16 := by unfold lftData; omega
  simp only [State.unitWrite, if_neg noPage, window, if_neg noDbg, State.lftRegWrite, if_neg noCmd, if_pos isData,
    s.plainWrite_of_rw_all v (regAt_lftData i hi) rfl]

theorem State.unitWrite_lftDbgDataLo (s : State) (v : Word) : s.unitWrite lftDbgDataLo v = s.wr lftDbgDataLo v :=
  s.plainWrite_of_rw_all v regAt_lftDbgDataLo rfl

theorem State.unitWrite_lftDbgDataHi (s : State) (v : Word) : s.unitWrite lftDbgDataHi v = s.wr lftDbgDataHi v :=
  s.plainWrite_of_rw_all v regAt_lftDbgDataHi rfl

/-- The two halves of the debugger's data register are written together (R11, R374). -/
theorem State.pairWrite_lftDbgData (s : State) (v w : Word) : s.pairWrite lftDbgDataLo (v.toNat + 2 ^ 32 * w.toNat) =
    (s.wr lftDbgDataLo v).wr lftDbgDataHi w := by
  have lower : BitVec.ofNat 32 (v.toNat + 2 ^ 32 * w.toNat) = v := by
    apply BitVec.eq_of_toNat_eq
    have := v.isLt
    simp only [BitVec.toNat_ofNat]
    omega
  have upper : BitVec.ofNat 32 ((v.toNat + 2 ^ 32 * w.toNat) / 2 ^ 32) = w := by
    apply BitVec.eq_of_toNat_eq
    have := v.isLt
    have := w.isLt
    simp only [BitVec.toNat_ofNat]
    omega
  have plain : lftDbgDataLo ≠ atcTimeSetLo ∧ lftDbgDataLo ≠ mstInjKeyLo ∧ lftDbgDataLo ≠ dwyHoldBaseLo := by decide
  obtain ⟨noTime, noKey, noHold⟩ := plain
  rw [State.pairWrite, if_neg noTime, if_neg noKey, if_neg noHold, lower, upper, State.unitWrite_lftDbgDataLo]
  exact State.unitWrite_lftDbgDataHi _ w

/-! ## The commands of register accesses -/

theorem exec_registerWrite (a : Nat) (v : Word) (s : State) : exec (.registerWrite a v) s = .next (s.write32 a v) := rfl

theorem exec_misalignedRegisterAccess (fn : Nat) (write : Bool) {a size : Nat} (s : State) (h : ¬(size = 4 ∧ a % 4 = 0)) :
    exec (.misalignedRegisterAccess fn write a size) s =
      .next (if write then s.busWrite fn a (List.replicate size 0) else s.busRead fn a size) := if_neg h

theorem exec_reservedOffsetAccess (write : Bool) {a : Nat} (s : State) (h : s.noReg a = true) :
    exec (.reservedOffsetAccess write a) s = .next (if write then s.write32 a 0 else s.busRead 0 a 4) :=
  if_neg (by simp [h])

section
variable {a i j : Nat} {r : RegRow} (s : State) (h : regAt a = some (r, i, j))
include h

theorem exec_pairLowerRead (k : r.kind = .pairLo) : exec (.pairLowerRead a) s = .next (s.busRead 0 a 4) :=
  if_pos (k ▸ kindAt_of_regAt h)

theorem exec_pairUpperWrite (v : Word) (k : r.kind = .pairHi) : exec (.pairUpperWrite a v) s = .next (s.write32 a v) :=
  if_pos (k ▸ kindAt_of_regAt h)

theorem exec_rcFieldRead (rc : r.rc ≠ 0) : exec (.rcFieldRead a) s = .next (s.busRead 0 a 4) := by
  show execRcFieldRead a s = _
  simp only [execRcFieldRead, h, if_neg rc]

theorem exec_setRegisterWrite (v : Word) (k : r.kind = .set) :
    exec (.setRegisterWrite a v) s = .next (s.write32 a v) := if_pos (k ▸ kindAt_of_regAt h)

theorem exec_clrRegisterWrite (v : Word) {back : Nat} (k : r.kind = .clr back) :
    exec (.clrRegisterWrite a v) s = .next (s.write32 a v) := by
  show execClrRegisterWrite a v s = _
  simp only [execClrRegisterWrite, kindAt_of_regAt h, k]

end

/-! ## Clauses on the access codes (R11 to R13) -/

/-- LFT_DATA takes a write while no command of LFT_CMD runs, and is held back meanwhile (R374). -/
theorem State.write32_lftData (s : State) {i : Nat} (v : Word) (hi : i < 16) (o : s.windowShut (lftData i) = false) :
    s.write32 (lftData i) v = (if s.rb lftCmd 31 then s.setB lftCmdStatus 0 else s.wr (lftData i) v).condPrune := by
  rw [s.write32_register v (by unfold lftData; omega) (by unfold lftData; omega) (regAt_lftData i hi) o,
    s.regWrite_plain (regAt_lftData i hi) v rfl, s.unitWrite_lftData v hi]

theorem State.write32_version (s : State) {w : Nat} (v : Word) (hw : w ≤ 16) (o : s.windowShut (w * 0x1000000) = false) :
    s.write32 (w * 0x1000000) v = (s.plainWrite (w * 0x1000000) v).condPrune := by
  rw [s.write32_register v (by omega) (by omega) (regAt_version w hw) o, s.regWrite_plain (regAt_version w hw) v rfl,
    s.unitWrite_version v hw]

/-- The write of one register takes effect there alone. -/
theorem State.wr_condPrune_effect (s : State) (a : Nat) (v : Word) : (s.wr a v).condPrune.rd a = v ∧
    (∀ b, b ≠ a → (s.wr a v).condPrune.rd b = s.rd b) ∧ onlyIn [.regs, .bell] s (s.wr a v).condPrune :=
  ⟨s.rd_wr_same a v, fun _ hb => s.rd_wr_ne v hb,
    ((State.condPrune_keeps _).after rfl ((s.wr_keeps a v).mono rfl)).same⟩

/-- A SET register of Bellboard whose 32 bits are RW. -/
theorem exec_setRegisterWrite_bellboard (s : State) {a i j : Nat} {r : RegRow} (v : Word)
    (h : regAt a = some (r, i, j)) (k : r.kind = .set) (rw_all : r.rw = 0xffffffff)
    (place : belBellPull < a ∧ a < belRoute 0 ∧ a % 4 = 0) :
    ∃ t, exec (.setRegisterWrite a v) s = .next t ∧ t.rd a = s.rd a ||| v ∧
      (∀ b, b ≠ a → t.rd b = s.rd b) ∧ onlyIn [.regs, .bell] s t := by
  obtain ⟨lo, hi, al⟩ := place
  have low : a < 0x5000000 := Nat.lt_trans hi (by decide)
  refine ⟨_, exec_setRegisterWrite s h v k, ?_⟩
  rw [s.write32_register v (by omega) al h (s.windowShut_low low), s.regWrite_set h v k,
    s.unitWrite_bellboard _ lo hi, s.plainWrite_of_rw_all _ h rw_all]
  exact s.wr_condPrune_effect _ _

/-- A CLR register of Bellboard at `a`, whose SET register at `b` has 32 RW bits. -/
theorem exec_clrRegisterWrite_bellboard (s : State) {a b back i j i' j' : Nat} {r q : RegRow} (v : Word)
    (h : regAt a = some (r, i, j)) (k : r.kind = .clr back) (h' : regAt b = some (q, i', j'))
    (rw_all : q.rw = 0xffffffff) (place : a = b + back ∧ belBellPull < b ∧ a < belRoute 0 ∧ a % 4 = 0) :
    ∃ t, exec (.clrRegisterWrite a v) s = .next t ∧ t.rd b = s.rd b &&& ~~~v ∧
      (∀ x, x ≠ b → t.rd x = s.rd x) ∧ onlyIn [.regs, .bell] s t := by
  obtain ⟨apart, lo, hi, al⟩ := place
  have low : a < 0x5000000 := Nat.lt_trans hi (by decide)
  have window : a / 0x1000000 ≠ 2 := by
    unfold belBellPull at lo
    omega
  have setReg : a - back = b := by omega
  refine ⟨_, exec_clrRegisterWrite s h v k, ?_⟩
  rw [s.write32_register v (by omega) al h (s.windowShut_low low), s.regWrite_clr h v k window, setReg,
    s.unitWrite_bellboard _ lo (by omega), s.plainWrite_of_rw_all _ h' rw_all]
  exact s.wr_condPrune_effect _ _

/-- Both halves of a pair read back as one number (R11). -/
theorem State.rd64_wr_wr (s : State) (lo : Nat) (v w : Word) :
    ((s.wr lo v).wr (lo + 4) w).rd64 lo = v.toNat + 2 ^ 32 * w.toNat := by
  simp [State.rd64, State.rdN, State.rd_wr]

/-- A read of a lower register answers it and latches its upper one (R11). -/
theorem State.busRead_pairLo (s : State) {a i j : Nat} {r : RegRow} (h : regAt a = some (r, i, j)) (k : r.kind = .pairLo)
    (ha : a < 0x20000000) (al : a % 4 = 0) (o : s.windowShut a = false)
    (noTag : runIdx a (pchTsTag 0) 0x80 512 = none) : (s.busRead 0 a 4).rdata = s.shows a ∧
      (s.busRead 0 a 4).latch = tput s.latch (a + 4) (BitVec.ofNat 32 (s.shows (a + 4))) ∧
      onlyIn [.latch, .rdata] s (s.busRead 0 a 4) := by
  rw [s.busRead_register 0 ha al (s.noReg_of_regAt h o), s.regRead_pairLo h noTag k]
  exact ⟨rfl, rfl, (Keeps.put_latch rfl ((s.answer_keeps _).mono rfl)).same⟩

/-- A read of an upper register that is latched (R11). -/
theorem State.busRead_pairHi_latched (s : State) {a i j : Nat} {r : RegRow} {v : Word} (h : regAt a = some (r, i, j))
    (k : r.kind = .pairHi) (ha : a < 0x20000000) (al : a % 4 = 0) (o : s.windowShut a = false)
    (noTag : runIdx a (pchTsTag 0) 0x80 512 = none) (latched : tfind s.latch a = some v) :
    s.busRead 0 a 4 = { s.answer v.toNat with latch := tdel s.latch a } := by
  rw [s.busRead_register 0 ha al (s.noReg_of_regAt h o), s.regRead_pairHi_latched h noTag k latched]

/-- LFT_DBG_DATA takes both halves at the write of its upper one, the lower from what is held (R11). -/
theorem State.write32_lftDbgDataHi (s : State) {v : Word} (w : Word) (o : s.windowShut lftDbgDataHi = false)
    (lower : tfind s.held lftDbgDataLo = some v) : s.write32 lftDbgDataHi w =
      ((({ s with held := tdel s.held lftDbgDataLo } : State).wr lftDbgDataLo v).wr lftDbgDataHi w).condPrune := by
  have half : tget (s.rd (lftDbgDataHi - 4)) s.held (lftDbgDataHi - 4) = v := by
    show (tfind s.held lftDbgDataLo).getD _ = v
    rw [lower, Option.getD_some]
  rw [s.write32_register w (by decide) (by decide) regAt_lftDbgDataHi o,
    s.regWrite_pairHi regAt_lftDbgDataHi w rfl, half]
  exact congrArg State.condPrune (State.pairWrite_lftDbgData _ v w)

end Sys2Proof.Machine

section
open Sys2Proof Sys2Proof.Machine

/-- Settles O19: each clause is the branch of the bus that its access falls into. -/
theorem misalignedAndReservedAccesses : Obligations.MisalignedAndReservedAccesses := by
  unfold Obligations.MisalignedAndReservedAccesses
  refine ⟨fun fn a size s ha bad => ⟨?read, ?write, fun b => ?frame⟩, fun a s ha al hole => ⟨?noRead, ?noWrite⟩,
    fun a s lo hi => ?window, fun a bs s ha al len reg => s.busWrite_register 0 ha al len reg⟩
  case read =>
    rw [exec_misalignedRegisterAccess fn false s bad, if_neg Bool.false_ne_true, s.busRead_misaligned fn ha bad]
    rfl
  case write =>
    have bad' : ¬((List.replicate size (0 : Byte)).length = 4 ∧ a % 4 = 0) := by simpa using bad
    rw [exec_misalignedRegisterAccess fn true s bad, if_pos rfl, s.busWrite_misaligned fn ha bad']
    rfl
  case frame =>
    by_cases h : noWrap b
    · exact .inl (s.rd_report _ _ _ (decide_eq_true h))
    · exact .inr h
  case noRead =>
    rw [exec_reservedOffsetAccess false s hole, if_neg Bool.false_ne_true, s.busRead_reserved 0 ha al hole]
    rfl
  case noWrite =>
    rw [exec_reservedOffsetAccess true s hole, if_pos rfl, State.write32, s.busWrite_reserved 0 ha al rfl hole]
    rfl
  case window => simp [State.noReg, regAt_reservedWindow lo hi]

/-- Settles O20: the write or read of each access code is one equation of the bus, and its effect is read off it. -/
theorem registerAccessCodes : Obligations.RegisterAccessCodes := by
  unfold Obligations.RegisterAccessCodes
  refine ⟨?idle, ?busy, ?version, ?lowerRead, ?lowerWrite, ?pair, ?rc, ?setClr⟩
  case idle =>
    intro i v s hi o idle
    refine ⟨_, exec_registerWrite _ v s, ?_⟩
    rw [s.write32_lftData v hi o, if_neg (by simp [idle])]
    exact s.wr_condPrune_effect (lftData i) v
  case busy =>
    intro i v s hi o busy
    refine ⟨_, exec_registerWrite _ v s, ?_⟩
    rw [s.write32_lftData v hi o, if_pos busy]
    exact (s.wr_condPrune_effect lftCmdStatus _).2
  case version =>
    intro w v s hw o
    refine ⟨_, exec_registerWrite _ v s, fun b => ?_⟩
    rw [s.write32_version v hw o, State.rd_condPrune]
    exact s.rd_plainWrite_of_rw_none v b (regAt_version w hw) rfl
  case lowerRead =>
    intro a s kind ha al o noTag
    obtain ⟨r, i, j, row, k⟩ := kindAt_eq_some kind
    refine ⟨_, exec_pairLowerRead s row k, ?_⟩
    obtain ⟨answered, latch, frame⟩ := s.busRead_pairLo row k (by omega) al o noTag
    generalize s.busRead 0 a 4 = t at answered latch frame ⊢
    have latched : tfind t.latch (a + 4) = some (BitVec.ofNat 32 (s.shows (a + 4))) := by
      rw [latch, tfind_tput_same]
    refine ⟨answered, frame, latched, fun kind' ha' o' noTag' => ?_⟩
    obtain ⟨q, i', j', row', k'⟩ := kindAt_eq_some kind'
    have regs : t.regs = s.regs := frame .regs (by decide)
    rw [← State.windowShut_congr regs] at o'
    rw [t.busRead_pairHi_latched row' k' (by omega) (by omega) o' noTag' latched]
    exact ⟨BitVec.toNat_ofNat _ _, tfind_tdel_same _ _⟩
  case lowerWrite =>
    intro a v s kind ha al o
    obtain ⟨r, i, j, row, k⟩ := kindAt_eq_some kind
    rw [exec_registerWrite, s.write32_register v (by omega) al row o, s.regWrite_pairLo row v k]
  case pair =>
    intro v w s o
    have lower : s.write32 lftDbgDataLo v = { s with held := tput s.held lftDbgDataLo v } := by
      rw [s.write32_register v (by decide) (by decide) regAt_lftDbgDataLo o,
        s.regWrite_pairLo regAt_lftDbgDataLo v rfl]
    have oHi : s.windowShut lftDbgDataHi = false := by simpa [State.windowShut, lftDbgDataLo, lftDbgDataHi] using o
    refine ⟨_, _, (exec_registerWrite _ v s).trans (congrArg _ lower),
      exec_pairUpperWrite _ regAt_lftDbgDataHi w rfl, ?_⟩
    have heldLo : tfind ({ s with held := tput s.held lftDbgDataLo v } : State).held lftDbgDataLo = some v :=
      tfind_tput_same _ _ _
    rw [State.write32_lftDbgDataHi _ w ((State.windowShut_congr (by rfl) _).trans oHi) heldLo]
    refine ⟨?_, rfl, fun b noLo noHi => ?_, tfind_tdel_same _ _⟩
    · exact State.rd64_wr_wr _ lftDbgDataLo v w
    · exact (State.rd_wr_ne _ _ noHi).trans (State.rd_wr_ne _ _ noLo)
  case rc =>
    intro a i j r s row rc k ha al o noTag noGrant
    refine ⟨_, exec_rcFieldRead s row rc, ?_⟩
    rw [s.busRead_register 0 (by omega) al (s.noReg_of_regAt row o), s.regRead_rc row noTag k rc noGrant]
    refine ⟨rfl, State.rd_wr_same _ _ _, fun b hb => State.rd_wr_ne _ _ hb, ?_⟩
    exact ((State.condPrune_keeps _).after rfl ((State.wr_keeps _ _ _).after rfl ((s.answer_keeps _).mono rfl))).same
  case setClr =>
    intro k v s hk
    refine ⟨exec_setRegisterWrite_bellboard s v (regAt_belPend k hk) rfl rfl ?pend,
      exec_setRegisterWrite_bellboard s v (regAt_belMask k hk) rfl rfl ?mask,
      exec_clrRegisterWrite_bellboard s v (regAt_belPendClr k hk) rfl (regAt_belPend k hk) rfl ?pendClr,
      exec_clrRegisterWrite_bellboard s v (regAt_belMaskClr k hk) rfl (regAt_belMask k hk) rfl ?maskClr⟩
    all_goals
      simp only [belBellPull, belRoute, belPend, belPendClr, belMask, belMaskClr]
      omega

end

/-! PROOFS. Frames that arrive at Porch, gated slices that wake, and links that come up and go down (R29, R36 to R41,
R123, R277). -/

namespace Sys2Proof.Machine

/-! ## The records of the pipeline -/

section
variable (s : State)

theorem State.hasFrame_setFrame (f : Nat) (x : Frame) : (s.setFrame f x).hasFrame f = true := by
  simp [State.hasFrame, State.setFrame, tfind_tput_same]

@[simp] theorem State.frame_setFrame (f : Nat) (x : Frame) : (s.setFrame f x).frame f = x := tget_tput_same _ _ _ _

@[simp] theorem State.frame_newFrame (x : Frame) : (s.newFrame x).1.frame s.pipe.nextFid = x := tget_tput_same _ _ _ _

@[simp] theorem State.port_setPort (n : Nat) (x : Port) : (s.setPort n x).port n = x := tget_tput_same _ _ _ _

@[simp] theorem State.sl_setSl (k : Nat) (x : Slice) : (s.setSl k x).sl k = x := tget_tput_same _ _ _ _

@[simp] theorem State.frame_setSl (k f : Nat) (x : Slice) : (s.setSl k x).frame f = s.frame f := rfl
@[simp] theorem State.frame_setPort (n f : Nat) (x : Port) : (s.setPort n x).frame f = s.frame f := rfl
@[simp] theorem State.sl_setFrame (f k : Nat) (x : Frame) : (s.setFrame f x).sl k = s.sl k := rfl
@[simp] theorem State.sl_setPort (n k : Nat) (x : Port) : (s.setPort n x).sl k = s.sl k := rfl
@[simp] theorem State.rd_setSl (k a : Nat) (x : Slice) : (s.setSl k x).rd a = s.rd a := rfl
@[simp] theorem State.rd_setPort (n a : Nat) (x : Port) : (s.setPort n x).rd a = s.rd a := rfl

end

theorem State.port_congr {s t : State} (h : t.pipe = s.pipe) (n : Nat) : t.port n = s.port n :=
  congrArg (fun p : Pipe => tget Port.init p.ports n) h

theorem State.sl_congr {s t : State} (h : t.pipe = s.pipe) (k : Nat) : t.sl k = s.sl k :=
  congrArg (fun p : Pipe => tget Slice.init p.slices k) h

/-- The record of a frame whose head is held somewhere stays. -/
theorem State.tidy_of_head {s : State} {f : Nat} (h : (s.frame f).head.pos ≠ .none) : s.tidy f = s :=
  if_neg fun gone => h gone.1

/-! ## What counts leave -/

/-- Every register but the WRAP registers of the counters stands (R524). -/
def regsStand (s t : State) : Prop := ∀ a, offWrap a = true → t.rd a = s.rd a

theorem regsStand.trans {s t u : State} (h : regsStand s t) (k : regsStand t u) : regsStand s u :=
  fun a ha => (k a ha).trans (h a ha)

theorem regsStand.of_keeps {l : List Part} {s t : State} (h : Keeps l s t) (no : .regs ∉ l) : regsStand s t :=
  fun a _ => State.rd_congr (h.same .regs no) a

theorem regsStand.ite {s t u : State} {c : Prop} [Decidable c] (h : regsStand s t) (k : regsStand s u) :
    regsStand s (if c then t else u) := by
  split <;> assumption

theorem regsStand.countBy (s : State) (e o i n : Nat) : regsStand s (s.countBy e o i n) :=
  fun _ ha => s.rd_countBy e o i n ha

theorem regsStand.count (s : State) (e o i : Nat) : regsStand s (s.count e o i) := regsStand.countBy s e o i 1

theorem offWrap_of_window {a : Nat} (h : 0x3000000 ≤ a) : offWrap a = true := by
  unfold offWrap cntWrap
  exact decide_eq_true (.inr (by omega))

theorem regsStand.rb {s t : State} (h : regsStand s t) {a : Nat} (i : Nat) (ha : offWrap a = true) :
    t.rb a i = s.rb a i := by
  rw [State.rb, State.rb, h a ha]

theorem regsStand.rf {s t : State} (h : regsStand s t) {a : Nat} (hi lo : Nat) (ha : offWrap a = true) :
    t.rf a hi lo = s.rf a hi lo := by
  rw [State.rf, State.rf, h a ha]

/-! ## Units of the Pantry (R274, R277) -/

/-- The free units of a slice are read from its frames and from registers of Porch and Stairwell. -/
theorem State.freeUnits_congr {s t : State} (frames : t.pipe.frames = s.pipe.frames)
    (regs : ∀ a, 0x3000000 ≤ a → t.rd a = s.rd a) (k : Nat) : t.freeUnits k = s.freeUnits k := by
  have enabled (n : Nat) : t.portEnabled n = s.portEnabled n := by
    rw [State.portEnabled, State.portEnabled, State.rb, State.rb, regs _ (by unfold pchPortStatus; omega)]
  have headroom (n : Nat) : t.rd (stwPortHeadroom n) = s.rd (stwPortHeadroom n) :=
    regs _ (by unfold stwPortHeadroom; omega)
  have share : t.rd stwBufCfg = s.rd stwBufCfg := regs _ (by decide)
  simp only [State.freeUnits, State.ingressUnits, State.headroomSum, State.framesOf, State.rf, enabled, headroom, share,
    frames]

/-- An entry of measure 0 adds nothing to the sum over the entries that `q` picks. -/
theorem sum_filter_tput_le {α : Type} (t : Tbl α) (k : Nat) (v : α) (q : Nat × α → Bool) (g : Nat × α → Nat)
    (zero : g (k, v) = 0) : (((tput t k v).filter q).map g).sum ≤ ((t.filter q).map g).sum := by
  have skip (l : Tbl α) : ((((k, v) :: l).filter q).map g).sum = ((l.filter q).map g).sum := by
    by_cases picked : q (k, v) <;> simp [picked, zero]
  induction t with
  | nil => exact Nat.le_of_eq (skip [])
  | cons p t ih =>
    obtain ⟨j, w⟩ := p
    unfold tput
    split
    · exact Nat.le_of_eq (skip _)
    · split
      · rw [skip]
        by_cases picked : q (j, w) <;> simp [picked]
      · by_cases picked : q (j, w) <;> simpa [picked] using ih

theorem State.freeUnits_newFrame (s : State) {x : Frame} (none : x.units = 0) (k : Nat) :
    s.freeUnits k ≤ (s.newFrame x).1.freeUnits k := by
  have held : (((s.newFrame x).1.framesOf k).map (·.2.units)).sum ≤ ((s.framesOf k).map (·.2.units)).sum :=
    sum_filter_tput_le s.pipe.frames s.pipe.nextFid x _ _ none
  exact Nat.sub_le_sub_left held _

/-- Units that the shared pool has are taken from it alone. -/
theorem State.takeUnits_shared {s : State} {f u : Nat} (h : u ≤ s.freeUnits (s.frame f).slice) :
    s.takeUnits f u = some (s.setFrame f { s.frame f with units := (s.frame f).units + u }) := by
  simp [State.takeUnits, Nat.min_eq_left h]

/-! ## Frames that arrive whole (R40, R41, R45, R277) -/

/-- A frame that has entered slice `n / 32` and has no units yet. -/
def Frame.arriving (n len : Nat) (data : List Byte) (ts : Nat) : Frame :=
  { Frame.init with
    port := n, len := len, data := data, orig := data, complete := false, rxTs := ts
    head := { Head.init with pos := .queued } }

/-- A frame that enters the head queue of its slice with units of the shared pool. -/
def State.queueArrival (s : State) (n len got : Nat) (data : List Byte) (ts : Nat) : State :=
  let f := s.pipe.nextFid
  let x := Frame.arriving n len data ts
  ((s.newFrame x).1.setFrame f { x with units := unitsOf got }).setSl (n / 32)
    { s.sl (n / 32) with headQ := (s.sl (n / 32)).headQ ++ [f] }

theorem State.frameEnter_queued {s : State} {n got : Nat} (len : Nat) (data : List Byte) (ts : Nat)
    (safe : s.inSafe = false) (whole : s.isoSlice (n / 32) = false) (awake : s.sliceGated (n / 32) = false)
    (room : (s.sl (n / 32)).headQ.length < 2048) (units : unitsOf got ≤ s.freeUnits (n / 32)) :
    s.frameEnter n len got data ts = (s.queueArrival n len got data ts, some s.pipe.nextFid) := by
  have shut : s.rxShut n = none := by simp [State.rxShut, safe, whole]
  have taken : (s.newFrame (Frame.arriving n len data ts)).1.takeUnits s.pipe.nextFid (unitsOf got) = some
      ((s.newFrame (Frame.arriving n len data ts)).1.setFrame s.pipe.nextFid
        { Frame.arriving n len data ts with units := unitsOf got }) := by
    rw [State.takeUnits_shared, State.frame_newFrame]
    · simp [Frame.arriving, Frame.init]
    · rw [State.frame_newFrame]
      exact Nat.le_trans units (s.freeUnits_newFrame rfl _)
  simp only [State.frameEnter, shut, awake, Bool.false_eq_true, if_false, if_neg (Nat.not_le.2 room)]
  split
  · next short => exact absurd (short.symm.trans taken) (by simp)
  · next t found =>
    cases found.symm.trans taken
    rfl

/-- The FEC codewords of an arrival counted (R45). -/
def State.fecCount (s : State) (n fecC fecU : Nat) : State :=
  (s.countBy evPchFecCorrected n 0 fecC).countBy evPchFecUncorrectable n 0 fecU

theorem State.fecCount_keeps (s : State) (n fecC fecU : Nat) : Keeps [.regs, .mast] s (s.fecCount n fecC fecU) :=
  (State.countBy_keeps _ _ _ _ _).after rfl (s.countBy_keeps _ _ _ _)

theorem State.fecCount_eq (s : State) (n fecC fecU : Nat) :
    (s.countBy evPchFecCorrected n 0 fecC).countBy evPchFecUncorrectable n 0 fecU = s.fecCount n fecC fecU := rfl

theorem State.port_fecCount (s : State) (n fecC fecU k : Nat) : (s.fecCount n fecC fecU).port k = s.port k :=
  State.port_congr ((s.fecCount_keeps n fecC fecU).same .pipe (by decide)) k

theorem regsStand.fecCount (s : State) (n fecC fecU : Nat) : regsStand s (s.fecCount n fecC fecU) :=
  (regsStand.countBy s _ _ _ _).trans (regsStand.countBy _ _ _ _ _)

theorem regsStand.rxCount (s : State) (n total : Nat) (all : List Byte) (err : Bool) :
    regsStand s (s.rxCount n total all err).1 := by
  have counted (t : State) {c : Prop} [Decidable c] (e : Nat) : regsStand t (if c then t.count e n 0 else t) :=
    .ite (.count t e n 0) fun _ _ => rfl
  have refused : regsStand s (if (err || all.drop (total - 4) == fcsOf (all.take (total - 4)) true) = true then
      s.count evPchRxPoison n 0 else if (!(all.drop (total - 4) == fcsOf (all.take (total - 4)) false)) = true then
      s.count evPchRxFcsErr n 0 else s) := .ite (.count s _ _ _) (counted s _)
  unfold State.rxCount
  dsimp only
  split
  · exact refused.trans (counted _ _)
  · exact refused.trans ((counted _ _).trans ((regsStand.count _ _ _ _).trans (.countBy _ _ _ _ _)))

/-- A frame within the MTU is bad if and only if its FCS is the poisoned one or not the good one (R41, R42). -/
theorem State.rxCount_bad {s : State} {n total : Nat} {all : List Byte} (fits : total ≤ s.mtu n) :
    (s.rxCount n total all false).2 = (all.drop (total - 4) == fcsOf (all.take (total - 4)) true ||
      !(all.drop (total - 4) == fcsOf (all.take (total - 4)) false)) := by
  unfold State.rxCount
  simp only [Bool.false_or, decide_eq_false (Nat.not_lt.2 fits), Bool.or_false]
  split
  · next h => exact h.symm
  · next h => exact (Bool.not_eq_true _ ▸ h).symm

section
variable {s : State} {n : Nat} {bytes : List Byte}
  (enabled : s.portEnabled n = true) (up : s.linkUp n = true) (idle : (s.port n).rx = none)
include enabled up idle

/-- A whole frame that Porch keeps enters its slice (R40, R41). -/
theorem execFrameReceive_whole {fecC fecU f : Nat} {t : State} (long : 64 ≤ bytes.length)
    (fits : bytes.length ≤ s.mtu n) (kept : consumed bytes = false) (bad : Bool) (q : State)
    (count : (s.fecCount n fecC fecU).rxCount n bytes.length bytes false = (q, bad))
    (enters : q.frameEnter n bytes.length bytes.length (bytes.take (bytes.length - 4))
      ((s.fecCount n fecC fecU).rxStamp n) = (t, some f))
    (held : (t.frame f).head.pos ≠ .none) :
    execFrameReceive n bytes false bytes.length fecC fecU s = .next
      ((t.setFrame f { t.frame f with complete := true, bad := bad }).setPort n { t.port n with rx := none }) := by
  have idle' : ((s.fecCount n fecC fecU).port n).rx = none := by rw [State.port_fecCount, idle]
  have mtu : (s.fecCount n fecC fecU).mtu n = s.mtu n :=
    (regsStand.fecCount s n fecC fecU).rf _ _ (offWrap_of_window (by unfold pchPortMtu; omega))
  have notRunt : ¬ bytes.length < 64 := Nat.not_lt.2 long
  have tidied : (t.setFrame f { t.frame f with complete := true, bad := bad }).tidy f =
      t.setFrame f { t.frame f with complete := true, bad := bad } :=
    State.tidy_of_head (by simpa using held)
  simp only [execFrameReceive, enabled, up, State.fecCount_eq, idle', mtu, Nat.min_eq_left fits, Option.getD_none,
    List.nil_append, List.take_length, kept, count, State.rxPlace, enters, State.rxWhole, State.rxTidy, tidied, notRunt,
    Bool.and_self, Bool.not_true, Bool.false_eq_true, if_false, decide_true, decide_false, Nat.le_refl, Bool.not_false,
    if_true, Bool.true_or, Bool.and_false, Nat.min_self, Bool.false_and, Bool.or_self]
  rfl

/-- A runt is counted and leaves no frame (R41). -/
theorem execFrameReceive_runt (err : Bool) (fecC fecU : Nat) (short : bytes.length < 64) :
    execFrameReceive n bytes err bytes.length fecC fecU s = .next
      (((s.fecCount n fecC fecU).count evPchRxRunt n 0).setPort n
        { ((s.fecCount n fecC fecU).count evPchRxRunt n 0).port n with rx := none }) := by
  have idle' : ((s.fecCount n fecC fecU).port n).rx = none := by rw [State.port_fecCount, idle]
  simp [execFrameReceive, enabled, up, State.fecCount_eq, idle', short, State.rxPlace, State.rxWhole, State.rxTidy]

end

theorem State.frame_queueArrival (s : State) (n len got : Nat) (data : List Byte) (ts : Nat) :
    (s.queueArrival n len got data ts).frame s.pipe.nextFid =
      { Frame.arriving n len data ts with units := unitsOf got } := by
  simp [State.queueArrival]

theorem State.headQ_queueArrival (s : State) (n len got : Nat) (data : List Byte) (ts : Nat) :
    ((s.queueArrival n len got data ts).sl (n / 32)).headQ = (s.sl (n / 32)).headQ ++ [s.pipe.nextFid] := by
  simp [State.queueArrival]

/-! ## A gated slice wakes (R29, R123) -/

/-- Slice sl runs again with an empty wake buffer. -/
def State.ungate (s : State) (sl : Nat) : State :=
  (s.putB atcPwrStatus sl false).setSl sl { s.sl sl with wake := [] }

@[simp] theorem State.sl_ungate (s : State) (sl : Nat) : (s.ungate sl).sl sl = { s.sl sl with wake := [] } :=
  State.sl_setSl _ _ _

@[simp] theorem State.frame_ungate (s : State) (sl f : Nat) : (s.ungate sl).frame f = s.frame f := rfl

theorem State.sliceGated_ungate (s : State) {sl : Nat} (h : sl < 16) : (s.ungate sl).sliceGated sl = false :=
  s.rb_putB _ _ _ (by omega)

theorem State.freeUnits_ungate (s : State) (sl k : Nat) : (s.ungate sl).freeUnits k = s.freeUnits k := by
  refine State.freeUnits_congr (by rfl) (fun a ha => ?_) k
  have off : a ≠ atcPwrStatus := by
    unfold atcPwrStatus
    omega
  rw [State.ungate, State.rd_setSl, State.rd_putB_ne _ _ _ off]

theorem State.wakeSlice_empty {s : State} {sl : Nat} (gated : s.sliceGated sl = true) (empty : (s.sl sl).wake = []) :
    s.wakeSlice sl = s.ungate sl := by
  simp [State.wakeSlice, gated, empty, State.each, State.ungate]

/-- The one frame of a wake buffer joins the head queue with units of the shared pool. -/
theorem State.wakeSlice_one {s : State} {sl f : Nat} (gated : s.sliceGated sl = true) (one : (s.sl sl).wake = [f])
    (room : (s.sl sl).headQ.length < 2048) (units : unitsOf (s.frame f).len ≤ s.freeUnits (s.frame f).slice) :
    s.wakeSlice sl = (((s.ungate sl).setFrame f
        { s.frame f with units := (s.frame f).units + unitsOf (s.frame f).len }).setHead f
          { (s.frame f).head with pos := .queued }).setSl sl
      { s.sl sl with wake := [], headQ := (s.sl sl).headQ ++ [f] } := by
  have taken : (s.ungate sl).takeUnits f (unitsOf (s.frame f).len) = some ((s.ungate sl).setFrame f
      { s.frame f with units := (s.frame f).units + unitsOf (s.frame f).len }) :=
    State.takeUnits_shared (by rw [State.frame_ungate, State.freeUnits_ungate]; exact units)
  have fold : (s.putB atcPwrStatus sl false).setSl sl { s.sl sl with wake := [] } = s.ungate sl := rfl
  have full : ¬ 2048 ≤ (s.sl sl).headQ.length := Nat.not_le.2 room
  simp [State.wakeSlice, gated, one, fold, State.each, full, taken, State.head]

/-! ## Links (R37 to R39) -/

theorem State.rb_setB_of {s : State} {a i j : Nat} (hi : i < 32) (hj : j < 32) (h : s.rb a j = true) :
    (s.setB a i).rb a j = true := by
  by_cases e : j = i
  · exact e ▸ s.rb_setB a j hj
  · rw [s.rb_setB_ne a i j hi hj e, h]

/-- PCH_PORT_STATUS of a port whose link has come up, FEC_LOCK where it has a FEC (R37). -/
def State.showLinkUp (s : State) (n : Nat) : State :=
  let t := (s.setB (pchPortStatus n) 0).setB (pchPortStatus n) 4
  if s.rf (pchPortCfg n) 4 3 ≠ 0 then t.setB (pchPortStatus n) 3 else t

theorem State.showLinkUp_keeps (s : State) (n : Nat) : Keeps [.regs] s (s.showLinkUp n) := by
  have both : Keeps [.regs] s ((s.setB (pchPortStatus n) 0).setB (pchPortStatus n) 4) :=
    (s.setB_keeps _ _).trans (State.setB_keeps _ _ _)
  exact .ite (both.trans (State.setB_keeps _ _ _)) both

theorem State.linkUp_showLinkUp (s : State) (n : Nat) : (s.showLinkUp n).linkUp n = true ∧
    (s.showLinkUp n).rb (pchPortStatus n) 4 = true ∧
    (s.rf (pchPortCfg n) 4 3 ≠ 0 → (s.showLinkUp n).rb (pchPortStatus n) 3 = true) := by
  have link : ((s.setB (pchPortStatus n) 0).setB (pchPortStatus n) 4).rb (pchPortStatus n) 0 = true :=
    State.rb_setB_of (by decide) (by decide) (s.rb_setB _ 0 (by decide))
  have ready : ((s.setB (pchPortStatus n) 0).setB (pchPortStatus n) 4).rb (pchPortStatus n) 4 = true :=
    State.rb_setB _ _ 4 (by decide)
  unfold State.showLinkUp
  split
  · exact ⟨State.rb_setB_of (by decide) (by decide) link, State.rb_setB_of (by decide) (by decide) ready,
      fun _ => State.rb_setB _ _ 3 (by decide)⟩
  · next noFec => exact ⟨link, ready, fun fec => absurd fec noFec⟩

/-- A link comes up: XOFF that stands is sent anew, and a hello with REPLY_REQ where the port sends hellos (R39,
R61). -/
theorem execLinkUp_ready {s : State} {n : Nat} (enabled : s.portEnabled n = true) (down : s.linkUp n = false)
    (whole : s.isoChiplet (n / 64) = false)
    (negotiated : s.rb (pchPortCfg n) 5 = false ∨ s.rb (pchPortStatus n) 1 = true)
    (trained : s.rb (pchPortCfg n) 6 = false ∨ s.rb (pchPortStatus n) 2 = true) :
    execLinkUp n s = .next
      (let t := (s.showLinkUp n).setPort n { s.port n with
        pfcDue := Nat.lor (s.port n).pfcDue (s.port n).xoff
        helloDue := if s.rf (pchHelloCfg n) 15 0 ≠ 0 then 2 else 0
        downSince := 0 }
      { t with pipe := { t.pipe with lastHold := tdel t.pipe.lastHold n } }) := by
  have port : (s.showLinkUp n).port n = s.port n :=
    State.port_congr ((s.showLinkUp_keeps n).same .pipe (by decide)) n
  have shown : (if s.rf (pchPortCfg n) 4 3 ≠ 0 then ((s.setB (pchPortStatus n) 0).setB (pchPortStatus n) 4).setB
      (pchPortStatus n) 3 else (s.setB (pchPortStatus n) 0).setB (pchPortStatus n) 4) = s.showLinkUp n := rfl
  have ready : (s.portEnabled n && !s.linkUp n && !s.isoChiplet (n / 64) &&
      (!s.rb (pchPortCfg n) 5 || s.rb (pchPortStatus n) 1) &&
      (!s.rb (pchPortCfg n) 6 || s.rb (pchPortStatus n) 2)) = true := by
    simpa [enabled, down, whole] using And.intro negotiated trained
  simp only [execLinkUp, ready, Bool.not_true, Bool.false_eq_true, if_false, shown, port]

theorem execLinkUp_unready {s : State} {n : Nat}
    (h : s.portEnabled n = false ∨ s.linkUp n = true ∨ s.isoChiplet (n / 64) = true) : execLinkUp n s = .next s := by
  rcases h with disabled | up | isolated
  · simp [execLinkUp, disabled]
  · simp [execLinkUp, up]
  · simp [execLinkUp, isolated]

/-! ## The partner and the pause of a port whose link goes down (R39, R49, R59) -/

theorem State.pipe_pauseShow (s : State) (n : Nat) : (s.pauseShow n).pipe = s.pipe :=
  (s.pauseShow_keeps n).same .pipe (by decide)

theorem State.rd_pauseShow_ne (s : State) {n a : Nat} (h : a ≠ pchPfcState n) : (s.pauseShow n).rd a = s.rd a :=
  s.rd_wf_ne _ _ _ h

/-- With no timer running no class is paused (R49). -/
theorem State.rf_pauseShow_of_idle {s : State} {n : Nat} (idle : (s.port n).pause = []) :
    (s.pauseShow n).rf (pchPfcState n) 7 0 = 0 := by
  have zero (c : Nat) : nat ((tfind (s.port n).pause (8 + c)).isSome || (upto 8).any fun p =>
      (tfind (s.port n).pause p).isSome && s.rf (pchPfcMap n) (3 * p + 2) (3 * p) == c) * 2 ^ c = 0 := by
    rw [idle, ← Nat.zero_mul (2 ^ c)]
    rfl
  unfold State.pauseShow
  simp only [zero]
  rw [State.rf_wf _ _ _ _ _ (by decide) (by decide)]
  rfl

theorem State.rd_peerShow_ne (s : State) {n a : Nat} (state : a ≠ pchPeerState n) (target : a ≠ pchPeerTarget n) :
    (s.peerShow n).rd a = s.rd a := by
  rw [State.peerShow, State.rd_wrN_ne _ _ target, State.rd_wrN_ne _ _ state]

/-- A partner that goes down is posted; nothing else of the port changes. -/
theorem State.port_peerDown (s : State) (n : Nat) : ∃ posts,
    (s.peerDown n).port n = { s.port n with peer := { (s.port n).peer with up := false }, posts := posts } := by
  unfold State.peerDown State.peerSet
  dsimp only
  split
  · next same => exact ⟨_, congrArg (fun p => { s.port n with peer := p }) same⟩
  · refine ⟨(s.port n).posts ++ [{ (s.port n).peer with up := false }],
      (State.port_congr (s := s.setPort n _) ?_ n).trans (s.port_setPort n _)⟩
    split
    · exact (State.count_keeps _ _ _ _).same .pipe (by decide)
    · rfl

theorem State.rd_peerDown (s : State) {n a : Nat} (state : a ≠ pchPeerState n) (target : a ≠ pchPeerTarget n)
    (off : offWrap a = true) : (s.peerDown n).rd a = s.rd a := by
  have shown (x : Port) : ((s.setPort n x).peerShow n).rd a = s.rd a := State.rd_peerShow_ne _ state target
  unfold State.peerDown State.peerSet
  dsimp only
  split
  · rfl
  · split
    · rw [State.rd_count _ _ _ _ off, shown]
    · exact shown _

/-- PCH_PORT_STATUS and PCH_PORT_ERR of a port whose link has gone down (R39). -/
def State.showLinkDown (s : State) (n : Nat) : State :=
  (((s.putB (pchPortStatus n) 0 false).putB (pchPortStatus n) 4 false).putB (pchPortStatus n) 3 false).setB
    (pchPortErr n) 5

/-- A frame that was arriving is closed as lost. -/
def State.closeArrival (s : State) (rx : Option RxPart) : State :=
  match rx with
  | some r =>
    (match r.fid with
     | some f => (s.setFrame f { s.frame f with complete := true, lost := true, bad := true }).tidy f
     | none => s)
  | none => s

theorem State.closeArrival_keeps (s : State) (rx : Option RxPart) : Keeps [.pipe] s (s.closeArrival rx) := by
  unfold State.closeArrival
  split
  · split
    · exact (s.setFrame_keeps _ _).trans (State.tidy_keeps _ _)
    · exact .refl s
  · exact .refl s

/-- A copy whose transmission has begun ends as aborted. -/
def State.abortFlight (s : State) (n : Nat) (tx : Option Tx) : State :=
  match tx with
  | some t =>
    if t.begun then ((s.count evPchTxLinkAbort n 0).copyEnd t.copy 0x15).copyGone t.copy
    else s
  | none => s

theorem regsStand.abortFlight (s : State) (n : Nat) (tx : Option Tx) : regsStand s (s.abortFlight n tx) := by
  have ended (t : State) (c r : Nat) : regsStand t ((t.copyEnd c r).copyGone c) :=
    (regsStand.of_keeps (t.copyEnd_keeps c r) (by decide)).trans
      (regsStand.of_keeps (State.copyGone_keeps _ c) (by decide))
  unfold State.abortFlight
  split
  · exact .ite ((regsStand.count s _ _ _).trans (ended _ _ _)) fun _ _ => rfl
  · exact fun _ _ => rfl

/-- The state in which what arrives and what is in flight at a port whose link goes down have been ended (R39). -/
def State.cutLink (s : State) (n : Nat) : State :=
  (((s.showLinkDown n).count evPchLinkDown n 0).closeArrival (s.port n).rx).abortFlight n (s.port n).tx

theorem regsStand.cutLink (s : State) (n : Nat) : regsStand (s.showLinkDown n) (s.cutLink n) :=
  (regsStand.count _ _ _ _).trans
    ((regsStand.of_keeps (State.closeArrival_keeps _ _) (by decide)).trans (regsStand.abortFlight _ _ _))

/-- The port forgets what came and went, its timers and its partner (R39). -/
theorem State.portLinkDown_of_up {s : State} {n : Nat} (up : s.linkUp n = true) :
    s.portLinkDown n = (((s.cutLink n).setPort n { (s.cutLink n).port n with
      rx := none, pause := [], downSince := s.ns, helloDue := 0, replyDue := false
      tx := if s.txBusy n then none else (s.port n).tx }).pauseShow n).peerDown n := by
  unfold State.portLinkDown
  rw [if_neg (by simp [up])]
  rfl

theorem State.portLinkDown_of_down {s : State} {n : Nat} (down : s.linkUp n = false) : s.portLinkDown n = s :=
  if_pos (by simp [down])

theorem State.linkUp_showLinkDown (s : State) (n : Nat) :
    (s.showLinkDown n).linkUp n = false ∧ (s.showLinkDown n).rb (pchPortErr n) 5 = true := by
  have apart : pchPortStatus n ≠ pchPortErr n := by
    unfold pchPortStatus pchPortErr
    omega
  refine ⟨?_, State.rb_setB _ _ 5 (by decide)⟩
  rw [State.linkUp, State.showLinkDown, State.rb, State.rd_setB_ne _ _ apart]
  change State.rb _ _ 0 = false
  rw [State.rb_putB_ne _ _ _ _ _ (by decide) (by decide) (by decide),
    State.rb_putB_ne _ _ _ _ _ (by decide) (by decide) (by decide), State.rb_putB _ _ _ _ (by decide)]

/-- What a port whose link has gone down is left with (R39). -/
theorem State.portLinkDown_effect {s : State} {n : Nat} (up : s.linkUp n = true) :
    let u := s.portLinkDown n
    u.linkUp n = false ∧ u.rb (pchPortErr n) 5 = true ∧ u.rf (pchPfcState n) 7 0 = 0 ∧
      (u.port n).rx = none ∧ (u.port n).pause = [] ∧ (u.port n).peer.up = false ∧ (u.port n).downSince = s.ns ∧
      (u.port n).tx = if s.txBusy n then none else (s.port n).tx := by
  intro u
  let x : Port := { (s.cutLink n).port n with
    rx := none, pause := [], downSince := s.ns, helloDue := 0, replyDue := false
    tx := if s.txBusy n then none else (s.port n).tx }
  let t := ((s.cutLink n).setPort n x).pauseShow n
  have result : u = t.peerDown n := State.portLinkDown_of_up up
  have forgets : t.port n = x := (State.port_congr (State.pipe_pauseShow _ n) n).trans (State.port_setPort _ n x)
  have stands (a : Nat) (pause : a ≠ pchPfcState n) (peer : a ≠ pchPeerState n) (target : a ≠ pchPeerTarget n)
      (window : 0x3000000 ≤ a) : u.rd a = (s.showLinkDown n).rd a := by
    have off := offWrap_of_window window
    rw [result, State.rd_peerDown _ peer target off, State.rd_pauseShow_ne _ pause, State.rd_setPort,
      regsStand.cutLink s n a off]
  have status : u.rd (pchPortStatus n) = (s.showLinkDown n).rd (pchPortStatus n) := by
    apply stands <;> simp only [pchPortStatus, pchPfcState, pchPeerState, pchPeerTarget] <;> omega
  have err : u.rd (pchPortErr n) = (s.showLinkDown n).rd (pchPortErr n) := by
    apply stands <;> simp only [pchPortErr, pchPfcState, pchPeerState, pchPeerTarget] <;> omega
  have paused : u.rf (pchPfcState n) 7 0 = 0 := by
    have apart : pchPfcState n ≠ pchPeerState n ∧ pchPfcState n ≠ pchPeerTarget n ∧ 0x3000000 ≤ pchPfcState n := by
      unfold pchPfcState pchPeerState pchPeerTarget
      omega
    obtain ⟨peer, target, window⟩ := apart
    rw [State.rf, result, State.rd_peerDown _ peer target (offWrap_of_window window)]
    exact State.rf_pauseShow_of_idle (by rw [State.port_setPort])
  obtain ⟨link, reported⟩ := s.linkUp_showLinkDown n
  obtain ⟨posts, port⟩ := t.port_peerDown n
  rw [← result, forgets] at port
  refine ⟨?_, ?_, paused, ?_⟩
  · rw [State.linkUp, State.rb, status]
    exact link
  · rw [State.rb, err]
    exact reported
  · rw [port]
    exact ⟨rfl, rfl, rfl, rfl, rfl⟩

/-! ## The commands of Porch's receive side and links -/

/-- A whole frame that Porch keeps stands in the head queue of a slice that has room for it (R40, R41, R123, R277). -/
theorem execFrameReceive_queues {s : State} {n : Nat} {bytes : List Byte} (fecC fecU : Nat)
    (enabled : s.portEnabled n = true) (up : s.linkUp n = true) (idle : (s.port n).rx = none)
    (long : 64 ≤ bytes.length) (fits : bytes.length ≤ s.mtu n) (kept : consumed bytes = false)
    (safe : s.inSafe = false) (whole : s.isoSlice (n / 32) = false) (awake : s.sliceGated (n / 32) = false)
    (room : (s.sl (n / 32)).headQ.length < 2048) (units : unitsOf bytes.length ≤ s.freeUnits (n / 32)) :
    ∃ u ts, execFrameReceive n bytes false bytes.length fecC fecU s = .next u ∧
      u.hasFrame s.pipe.nextFid = true ∧ u.frame s.pipe.nextFid =
        { Frame.arriving n bytes.length (bytes.take (bytes.length - 4)) ts with
          units := unitsOf bytes.length
          complete := true
          bad := bytes.drop (bytes.length - 4) == fcsOf (bytes.take (bytes.length - 4)) true ||
            !(bytes.drop (bytes.length - 4) == fcsOf (bytes.take (bytes.length - 4)) false) } ∧
      (u.sl (n / 32)).headQ = (s.sl (n / 32)).headQ ++ [s.pipe.nextFid] ∧
      u.pipe.nextFid = s.pipe.nextFid + 1 ∧ (u.port n).rx = none := by
  let s0 := s.fecCount n fecC fecU
  obtain ⟨q, bad, count⟩ : ∃ q bad, s0.rxCount n bytes.length bytes false = (q, bad) := ⟨_, _, rfl⟩
  have mtu : s0.mtu n = s.mtu n :=
    (regsStand.fecCount s n fecC fecU).rf _ _ (offWrap_of_window (by unfold pchPortMtu; omega))
  have fits0 : bytes.length ≤ s0.mtu n := mtu ▸ fits
  have verdict := State.rxCount_bad (all := bytes) fits0
  have regs : regsStand s q := by
    simpa [count] using (regsStand.fecCount s n fecC fecU).trans (.rxCount s0 n bytes.length bytes false)
  have pipe : q.pipe = s.pipe := by
    have kept := (s0.rxCount_keeps n bytes.length bytes false).after rfl (s.fecCount_keeps n fecC fecU)
    rw [count] at kept
    exact kept.same .pipe (by decide)
  have slices : q.sl (n / 32) = s.sl (n / 32) := State.sl_congr pipe _
  have number : q.pipe.nextFid = s.pipe.nextFid := congrArg Pipe.nextFid pipe
  have free : q.freeUnits (n / 32) = s.freeUnits (n / 32) :=
    State.freeUnits_congr (congrArg Pipe.frames pipe) (fun a ha => regs a (offWrap_of_window ha)) _
  have safe' : q.inSafe = false := by
    rw [State.inSafe, regs.rf (a := mstStatus) 31 30 (by decide)]
    exact safe
  have whole' : q.isoSlice (n / 32) = false := by
    rw [State.isoSlice, regs.rb (a := mstIsoStatus) _ (by decide)]
    exact whole
  have awake' : q.sliceGated (n / 32) = false := by
    rw [State.sliceGated, regs.rb (a := atcPwrStatus) _ (by decide)]
    exact awake
  rw [← slices] at room
  rw [← free] at units
  have enters := State.frameEnter_queued (got := bytes.length) bytes.length (bytes.take (bytes.length - 4))
    (s0.rxStamp n) safe' whole' awake' room units
  have frame := q.frame_queueArrival n bytes.length bytes.length (bytes.take (bytes.length - 4)) (s0.rxStamp n)
  have held : ((q.queueArrival n bytes.length bytes.length (bytes.take (bytes.length - 4)) (s0.rxStamp n)).frame
      q.pipe.nextFid).head.pos ≠ .none := by
    rw [frame]
    exact HeadAt.noConfusion
  have step := execFrameReceive_whole enabled up idle long fits kept bad q count enters held
  rw [count] at verdict
  refine ⟨_, s0.rxStamp n, step, ?_, ?_, ?_, ?_, ?_⟩
  · rw [← number]
    exact State.hasFrame_setFrame _ _ _
  · rw [← number, State.frame_setPort, State.frame_setFrame, frame, ← verdict]
  · rw [State.sl_setPort, State.sl_setFrame, State.headQ_queueArrival, slices, number]
  · rw [← number]
    rfl
  · rw [State.port_setPort]

end Sys2Proof.Machine

section
open Sys2Proof Sys2Proof.Machine

/-- Settles O23: each command is read off the one case of its definition that its premises leave. -/
theorem porchReceiveAndLinks : Obligations.PorchReceiveAndLinks := by
  unfold Obligations.PorchReceiveAndLinks
  refine ⟨fun n bytes err total c1 c2 s => ⟨?shut, ?frame, ?runt⟩, fun sl f s hsl => ⟨?awake, ?wakes, ?wakesOne⟩,
    fun n s => ⟨?linkUp, execLinkUp_unready, ?stillDown, ?linkDown, ?negotiation, ?noNegotiation, ?training,
      ?noTraining⟩⟩
  case shut =>
    show _ → execFrameReceive n bytes err total c1 c2 s = _
    rintro (disabled | down)
    · simp [execFrameReceive, disabled]
    · simp [execFrameReceive, down]
  case frame =>
    rintro enabled up idle rfl long fits kept safe whole awake room units
    obtain ⟨u, ts, step, has, frame, queue, number, rx⟩ :=
      execFrameReceive_queues c1 c2 enabled up idle long fits kept safe whole awake room units
    refine ⟨u, step, has, ?_⟩
    rw [frame]
    refine ⟨rfl, rfl, rfl, rfl, queue, number, rx, fun good unpoisoned => ?_, fun spoilt => ?_⟩
    · simp [good, good ▸ unpoisoned]
    · simp [spoilt]
  case runt =>
    rintro enabled up idle rfl short
    refine ⟨_, execFrameReceive_runt enabled up idle err c1 c2 short, ?_⟩
    have kept : Keeps [.regs, .mast] s ((s.fecCount n c1 c2).count evPchRxRunt n 0) :=
      (s.fecCount_keeps n c1 c2).trans (State.count_keeps _ _ _ _)
    have pipe : ((s.fecCount n c1 c2).count evPchRxRunt n 0).pipe = s.pipe := kept.same .pipe (by decide)
    have frames := congrArg Pipe.frames pipe
    have slices := congrArg Pipe.slices pipe
    exact ⟨frames, slices, by rw [State.port_setPort],
      ((State.setPort_keeps _ _ _).after rfl (kept.mono rfl)).same⟩
  case awake => exact fun awake => congrArg Host.Outcome.next (if_pos (by simp [awake]))
  case wakes =>
    intro gated empty
    refine ⟨_, rfl, ?_⟩
    rw [State.wakeSlice_empty gated empty]
    exact s.sliceGated_ungate hsl
  case wakesOne =>
    intro gated one room units
    refine ⟨_, congrArg Host.Outcome.next (State.wakeSlice_one gated one room units), s.sliceGated_ungate hsl, ?_⟩
    simp [State.setHead]
  case linkUp =>
    intro enabled down whole negotiated trained
    have step := execLinkUp_ready enabled down whole negotiated trained
    obtain ⟨link, ready, fec⟩ := s.linkUp_showLinkUp n
    obtain ⟨u, stepped, keeps⟩ := execLinkUp_keeps s n
    rw [step] at stepped
    cases stepped
    have port := (s.showLinkUp n).port_setPort n { s.port n with
      pfcDue := Nat.lor (s.port n).pfcDue (s.port n).xoff
      helloDue := if s.rf (pchHelloCfg n) 15 0 ≠ 0 then 2 else 0
      downSince := 0 }
    exact ⟨_, step, link, ready, fec, congrArg Port.pfcDue port, congrArg Port.helloDue port, keeps.same⟩
  case stillDown => exact fun down => congrArg Host.Outcome.next (State.portLinkDown_of_down down)
  case linkDown =>
    intro up
    obtain ⟨link, err, paused, rx, pause, peer, since, tx⟩ := State.portLinkDown_effect up
    refine ⟨_, rfl, link, err, rx, pause, peer, since, paused, fun x flies begun => ?_⟩
    have busy : s.txBusy n = true := by rw [State.txBusy, flies]; exact begun
    rw [tx, if_pos busy]
  case negotiation =>
    intro enabled on down
    have result (ok : Bool) : execAutoNegotiation n ok s = .next (if ok then s.setB (pchPortStatus n) 1
        else (s.putB (pchPortStatus n) 1 false).setB (pchPortErr n) 4) := if_pos (by simp [enabled, on, down])
    have apart : pchPortStatus n ≠ pchPortErr n := by
      unfold pchPortStatus pchPortErr
      omega
    refine ⟨result true, _, result false, ?_, State.rb_setB _ _ 4 (by decide),
      ((s.putB_keeps _ _ _).trans (State.setB_keeps _ _ _)).same⟩
    rw [if_neg Bool.false_ne_true, State.rb, State.rd_setB_ne _ _ apart]
    exact s.rb_putB _ 1 false (by decide)
  case noNegotiation =>
    rintro ok (disabled | off | up) <;> exact if_neg (by simp [*])
  case training =>
    intro enabled on ready
    refine if_pos ?_
    simpa [enabled, on] using ready
  case noTraining =>
    rintro (disabled | off) <;> exact if_neg (by simp [*])

end

/-! PROOFS. Power targets (R490, R493): a port whose EN and whose status differ keeps its EN through a Shuttered
entry. -/

namespace Sys2Proof.Machine

/-! ## Ports with EN that are not enabled (R36, R39, R493) -/

/-- Steps that each leave the state leave it in a row. -/
theorem State.each_eq_self {α : Type} {s : State} {f : State → α → State} {l : List α} (h : ∀ x ∈ l, f s x = s) :
    s.each l f = s := by
  unfold State.each
  induction l with
  | nil => rfl
  | cons x l ih =>
    rw [List.foldl_cons, h x List.mem_cons_self]
    exact ih fun y hy => h y (List.mem_cons_of_mem x hy)

theorem regAt_pchPortStatus : ∀ n < 512, regAt (pchPortStatus n) =
    some ({ base := 0x05010010, n := 512, st := 0x80 }, n, 0) := by
  decide +kernel

/-- A Shuttered entry turns off the ports that are enabled (R493); with none it touches no PCH_PORT_CFG. -/
theorem State.shutterBegin_of_none_enabled {s : State} (h : ∀ n < 512, s.portEnabled n = false) :
    s.shutterBegin = (s.wf atcPwrCtl 1 0 2).wf atcPwrStatus 31 30 2 := by
  refine State.each_eq_self fun n hn => if_neg ?_
  have off : pchPortStatus n ≠ atcPwrStatus ∧ pchPortStatus n ≠ atcPwrCtl := by
    unfold pchPortStatus atcPwrStatus atcPwrCtl
    omega
  rw [State.portEnabled, State.rb, State.rd_wf_ne _ _ _ _ off.1, State.rd_wf_ne _ _ _ _ off.2]
  exact Bool.eq_false_iff.1 (h n (List.mem_range.1 hn))

/-- A Shuttered target begins the entry outside Shuttered with no job running and no safe state (R490, R493). -/
theorem State.powerWrite_shutter {s : State} {v : Word} (target : fld v 1 0 = 2) (awake : s.shuttered = false)
    (status : s.rf atcPwrStatus 31 30 < 2) (idle : s.jobsRun = false) (normal : s.inSafe = false) :
    s.powerWrite v = s.shutterBegin := by
  simp [State.powerWrite, target, awake, Nat.not_le.2 status, idle, normal]

/-- EN stands in PCH_PORT_CFG of port 0, whose PCH_PORT_STATUS does not say that it is enabled. PORT_CFG_WRITE
does not bring this about (R36). -/
def enWithoutEnabled : State := State.reset.setB (pchPortCfg 0) 0

theorem enWithoutEnabled_none_enabled : ∀ n < 512, enWithoutEnabled.portEnabled n = false := by
  intro n hn
  have off : pchPortStatus n ≠ pchPortCfg 0 := by
    unfold pchPortStatus pchPortCfg
    omega
  have reset : State.reset.rd (pchPortStatus n) = 0 := by
    show regReset (pchPortStatus n) = 0
    simp [regReset, regAt_pchPortStatus n hn, RegRow.resetVal]
  rw [State.portEnabled, State.rb, enWithoutEnabled, State.rd_setB_ne _ _ off, reset]
  rfl

end Sys2Proof.Machine

section
open Sys2Proof Sys2Proof.Machine

/-- Refutes O60: a Shuttered entry turns off only ports that PCH_PORT_STATUS calls enabled, so that EN of a port whose
status does not say so still stands after the write of target 2. The statement takes every state, this one included. -/
theorem not_powerStatesSidebandAndJtag : ¬ Obligations.PowerStatesSidebandAndJtag := by
  unfold Obligations.PowerStatesSidebandAndJtag
  rintro ⟨targets, -⟩
  obtain ⟨-, -, -, -, shutters, -⟩ := targets 2 enWithoutEnabled
  have target : fld 2 1 0 = 2 := by decide
  have status : enWithoutEnabled.rf atcPwrStatus 31 30 < 2 := by decide
  have idle : enWithoutEnabled.jobsRun = false := by decide
  have normal : enWithoutEnabled.inSafe = false := by decide
  have awake : enWithoutEnabled.shuttered = false := by decide
  obtain ⟨u, out, -, -, off⟩ := shutters target status idle normal
  have result : u = (enWithoutEnabled.wf atcPwrCtl 1 0 2).wf atcPwrStatus 31 30 2 := by
    have step : exec (.powerTargetWrite 2) enWithoutEnabled = .next (enWithoutEnabled.powerWrite 2) := rfl
    rw [step, State.powerWrite_shutter target awake status idle normal,
      State.shutterBegin_of_none_enabled enWithoutEnabled_none_enabled] at out
    exact (Host.Outcome.next.inj out).symm
  have stands : u.rb (pchPortCfg 0) 0 = true := by
    rw [result, State.rb, State.rd_wf_ne _ _ _ _ (by decide), State.rd_wf_ne _ _ _ _ (by decide)]
    exact State.reset.rb_setB (pchPortCfg 0) 0 (by decide)
  exact absurd (off 0 (by decide)) (by simp [stands])

end

/-! PROOFS. Porch's registers that a write can be refused for, and pause in both directions (R32, R36, R40, R47 to
R51). -/

namespace Sys2Proof.Machine

/-! ## Rows of Porch's window (R62) -/

theorem regAt_pchPortCfg : ∀ n < 512, regAt (pchPortCfg n) =
    some ({ base := 0x05010000, n := 512, st := 0x80, rw := 0x7ff }, n, 0) := by
  decide +kernel

theorem regAt_pchPortMtu : ∀ n < 512, regAt (pchPortMtu n) =
    some ({ base := 0x05010004, n := 512, st := 0x80, rw := 0x7fff, rst := 0x5ee }, n, 0) := by
  decide +kernel

theorem regAt_pchPfcCfg : ∀ n < 512, regAt (pchPfcCfg n) =
    some ({ base := 0x05010018, n := 512, st := 0x80, rw := 0xffffffff, rst := 0xff00ffff }, n, 0) := by
  decide +kernel

/-! ## Fields and bits that a plain write takes (R12) -/

section
variable {a i j : Nat} {r : RegRow} (s : State) (h : regAt a = some (r, i, j))
include h

theorem State.rb_plainWrite (v : Word) {k : Nat} (hk : k < 32) :
    (s.plainWrite a v).rb a k = if r.rw.testBit k then v.getLsbD k else s.rb a k := by
  simp only [State.plainWrite, h, State.rb, State.rd_wr_same, BitVec.getLsbD_or, BitVec.getLsbD_and,
    BitVec.getLsbD_not, BitVec.getLsbD_ofNat, decide_eq_true hk, Bool.true_and]
  cases r.rw.testBit k <;> simp

theorem State.rf_plainWrite (v : Word) {hi lo : Nat} (hh : hi < 32)
    (rw_bits : ∀ k < 32, lo ≤ k → k ≤ hi → r.rw.testBit k = true) : (s.plainWrite a v).rf a hi lo = fld v hi lo := by
  refine Nat.eq_of_testBit_eq fun k => ?_
  rw [State.rf, testBit_fld, testBit_fld]
  by_cases inside : k < hi + 1 - lo
  · have bit := s.rb_plainWrite h v (k := lo + k) (by omega)
    rw [if_pos (rw_bits _ (by omega) (by omega) (by omega))] at bit
    rw [← State.rb, bit]
  · simp [inside]

end

theorem State.rd_plainWrite_ne (s : State) {a b : Nat} (v : Word) (h : b ≠ a) : (s.plainWrite a v).rd b = s.rd b := by
  unfold State.plainWrite
  split
  · exact s.rd_wr_ne _ h
  · rfl

/-- An error bit set leaves the register's other bits. -/
theorem State.rd_setB (s : State) (a i : Nat) (h : i < 32) : (s.setB a i).rd a = s.rd a ||| BitVec.ofNat 32 (2 ^ i) := by
  refine BitVec.eq_of_getLsbD_eq fun k hk => ?_
  rw [BitVec.getLsbD_or, BitVec.getLsbD_ofNat, Nat.testBit_two_pow, decide_eq_true hk, Bool.true_and]
  by_cases same : k = i
  · subst same
    have bit : (s.setB a k).rb a k = true := s.rb_setB a k h
    rw [State.rb] at bit
    simp [bit]
  · have bit : (s.setB a i).rb a k = s.rb a k := s.rb_setB_ne a i k h hk same
    rw [State.rb, State.rb] at bit
    simp [bit, Ne.symm same]

/-! ## PCH_PFC_CFG (R51) -/

/-- A write of PCH_PFC_CFG whose QUANTA is too small is discarded (R51). -/
theorem State.unitWrite_pchPfcCfg (s : State) {n : Nat} (v : Word) (hn : n < 512) : s.unitWrite (pchPfcCfg n) v =
    if fld v 15 0 < 1024 then s.setB (pchPortErr n) 2 else s.wr (pchPfcCfg n) v := by
  have noPage : ¬ 0x20000000 ≤ pchPfcCfg n := by unfold pchPfcCfg; omega
  have window : pchPfcCfg n / 0x1000000 = 0x05 := by unfold pchPfcCfg; omega
  have ofPorts : pchPortCfg 0 ≤ pchPfcCfg n ∧ pchPfcCfg n < pchPortCfg 512 := by unfold pchPfcCfg pchPortCfg; omega
  have port : (pchPfcCfg n - pchPortCfg 0) / 0x80 = n := by unfold pchPfcCfg pchPortCfg; omega
  have noCfg : pchPfcCfg n ≠ pchPortCfg n := by unfold pchPfcCfg pchPortCfg; omega
  have noMtu : pchPfcCfg n ≠ pchPortMtu n := by unfold pchPfcCfg pchPortMtu; omega
  simp only [State.unitWrite, if_neg noPage, window, State.pchRegWrite, if_pos ofPorts, port, if_neg noCfg,
    if_neg noMtu, if_true, s.plainWrite_of_rw_all v (regAt_pchPfcCfg n hn) rfl]

theorem State.write32_pchPfcCfg (s : State) {n : Nat} (v : Word) (hn : n < 512)
    (o : s.windowShut (pchPfcCfg n) = false) : s.write32 (pchPfcCfg n) v =
      (if fld v 15 0 < 1024 then s.setB (pchPortErr n) 2 else s.wr (pchPfcCfg n) v).condPrune := by
  have low : pchPfcCfg n < 0x20000000 := by unfold pchPfcCfg; omega
  have aligned : pchPfcCfg n % 4 = 0 := by unfold pchPfcCfg; omega
  rw [s.write32_register v low aligned (regAt_pchPfcCfg n hn) o, s.regWrite_plain (regAt_pchPfcCfg n hn) v rfl,
    s.unitWrite_pchPfcCfg v hn]

end Sys2Proof.Machine

section
open Sys2Proof Sys2Proof.Machine

/-- Settles O54: a write of PCH_PFC_CFG is the write of that register, or sets one bit of PCH_PORT_ERR. -/
theorem pfcQuantaBelowTheLimitAreRefused : Obligations.PfcQuantaBelowTheLimitAreRefused := by
  unfold Obligations.PfcQuantaBelowTheLimitAreRefused
  refine fun n v s hn o => ⟨?width, fun large => ⟨_, exec_registerWrite _ v s, ?taken⟩,
    fun small => ⟨_, exec_registerWrite _ v s, ?refused⟩⟩
  case width => exact Nat.le_of_lt_succ (Nat.mod_lt _ (by decide))
  case taken =>
    rw [s.write32_pchPfcCfg v hn o, if_neg (Nat.not_lt.2 large)]
    obtain ⟨value, others, frame⟩ := s.wr_condPrune_effect (pchPfcCfg n) v
    exact ⟨by rw [State.rf, value], others, frame⟩
  case refused =>
    rw [s.write32_pchPfcCfg v hn o, if_pos small]
    obtain ⟨-, others, frame⟩ := s.wr_condPrune_effect (pchPortErr n) (setFld (s.rd (pchPortErr n)) 2 2 1)
    have apart : pchPfcCfg n ≠ pchPortErr n := by unfold pchPfcCfg pchPortErr; omega
    exact ⟨others _ apart, s.rd_setB (pchPortErr n) 2 (by decide), others, frame⟩

end

/-! PROOFS. The configuration of Porch's octets and ports, and pause in both directions (R32, R36, R40, R47 to R50). -/

namespace Sys2Proof.Machine

/-! ## Bytes of a frame -/

theorem length_natLe (n v : Nat) : (natLe n v).length = n := by
  induction n generalizing v with
  | zero => rfl
  | succ n ih => rw [natLe, List.length_cons, ih]

@[simp] theorem length_natBe (n v : Nat) : (natBe n v).length = n := by rw [natBe, List.length_reverse, length_natLe]

theorem leNat_natLe {n v : Nat} (h : v < 256 ^ n) : leNat (natLe n v) = v := by
  induction n generalizing v with
  | zero => exact (Nat.lt_one_iff.1 h).symm
  | succ n ih =>
    have high : v / 256 < 256 ^ n := Nat.div_lt_of_lt_mul (by rwa [Nat.pow_succ'] at h)
    rw [natLe, leNat, ih high, BitVec.toNat_ofNat]
    exact Nat.mod_add_div v 256

theorem beAt_append_left {xs : List Byte} (ys : List Byte) {i k : Nat} (h : i + k ≤ xs.length) :
    beAt (xs ++ ys) i k = beAt xs i k := by
  refine congrArg beNat (List.map_congr_left fun j hj => ?_)
  have := List.mem_range.1 hj
  have inside : i + j < xs.length := by omega
  rw [List.getD_eq_getElem?_getD, List.getD_eq_getElem?_getD, List.getElem?_append_left inside]

theorem beAt_append_right {xs : List Byte} (ys : List Byte) {l : Nat} (h : xs.length = l) (i k : Nat) :
    beAt (xs ++ ys) (l + i) k = beAt ys i k := by
  subst h
  refine congrArg beNat (List.map_congr_left fun j _ => ?_)
  have beyond : xs.length ≤ xs.length + (i + j) := Nat.le_add_right _ _
  rw [List.getD_eq_getElem?_getD, List.getD_eq_getElem?_getD, Nat.add_assoc, List.getElem?_append_right beyond,
    Nat.add_sub_cancel_left]

/-- A number that fits its bytes reads back from the head of a string. -/
theorem beAt_natBe_append {k v : Nat} (h : v < 256 ^ k) (ys : List Byte) : beAt (natBe k v ++ ys) 0 k = v := by
  have whole : slice (natBe k v) 0 k = natBe k v := by
    apply List.ext_getElem
    · simp [slice, upto]
    · intro i _ hi
      simp [slice, upto, List.getElem?_eq_getElem hi]
  rw [beAt_append_left ys (by simp), beAt, whole, natBe, beNat, List.reverse_reverse, leNat_natLe h]

theorem beAt_natBe {k v : Nat} (h : v < 256 ^ k) : beAt (natBe k v) 0 k = v := by
  simpa using beAt_natBe_append h []

theorem State.rf_lt (s : State) (a hi lo : Nat) : s.rf a hi lo < 2 ^ (hi + 1 - lo) :=
  Nat.mod_lt _ (Nat.two_pow_pos _)

/-! ## MAC Control frames (R48) -/

/-- The MAC Control frame of 64 bytes, FCS included, that carries `payload` from the address `mac`. -/
def macControl (mac payload : List Byte) : List Byte :=
  let body := natBe 6 0x0180C2000001 ++ mac ++ natBe 2 0x8808 ++ payload
  let frame := body ++ List.replicate (60 - body.length) 0
  frame ++ fcsOf frame false

theorem macControl_eq (mac payload : List Byte) : ∃ rest,
    macControl mac payload = natBe 6 0x0180C2000001 ++ (mac ++ (natBe 2 0x8808 ++ (payload ++ rest))) := by
  unfold macControl
  simp only [List.append_assoc]
  exact ⟨_, rfl⟩

section
variable {mac : List Byte} (address : mac.length = 6) (payload : List Byte)

theorem beAt_macControl_destination : beAt (macControl mac payload) 0 6 = 0x0180C2000001 := by
  obtain ⟨rest, split⟩ := macControl_eq mac payload
  rw [split]
  exact beAt_natBe_append (by decide) _

include address

theorem length_macControl (fits : payload.length ≤ 46) : (macControl mac payload).length = 64 := by
  simp only [macControl, fcsOf, List.length_append, length_natBe, length_natLe, List.length_replicate, address]
  omega

theorem beAt_macControl_type : beAt (macControl mac payload) 12 2 = 0x8808 := by
  obtain ⟨rest, split⟩ := macControl_eq mac payload
  rw [split, beAt_append_right _ (length_natBe 6 _) 6 2, beAt_append_right _ address 0 2]
  exact beAt_natBe_append (by decide) _

theorem beAt_macControl_payload {i k : Nat} (inside : i + k ≤ payload.length) :
    beAt (macControl mac payload) (14 + i) k = beAt payload i k := by
  obtain ⟨rest, split⟩ := macControl_eq mac payload
  have place : 14 + i = 6 + (6 + (2 + i)) := by omega
  rw [split, place, beAt_append_right _ (length_natBe 6 _), beAt_append_right _ address,
    beAt_append_right _ (length_natBe 2 _), beAt_append_left _ inside]

end

/-- The times of a PFC frame's priorities, in order. -/
def pfcTimes (m : Nat) (time : Nat → Nat) : List Byte := (upto m).flatMap fun p => natBe 2 (time p)

theorem pfcTimes_succ (m : Nat) (time : Nat → Nat) : pfcTimes (m + 1) time = pfcTimes m time ++ natBe 2 (time m) := by
  simp [pfcTimes, upto, List.range_succ]

theorem length_pfcTimes (m : Nat) (time : Nat → Nat) : (pfcTimes m time).length = 2 * m := by
  induction m with
  | zero => rfl
  | succ m ih => rw [pfcTimes_succ, List.length_append, ih, length_natBe, Nat.mul_succ]

theorem beAt_pfcTimes {m p : Nat} {time : Nat → Nat} (hp : p < m) (fits : time p < 256 ^ 2) :
    beAt (pfcTimes m time) (2 * p) 2 = time p := by
  induction m with
  | zero => omega
  | succ m ih =>
    rw [pfcTimes_succ]
    by_cases last : p = m
    · subst last
      rw [← Nat.add_zero (2 * p), beAt_append_right _ (length_pfcTimes p time), beAt_natBe fits]
    · rw [beAt_append_left _ (by rw [length_pfcTimes]; omega), ih (by omega)]

/-! ## Generated PFC and PAUSE frames (R50) -/

/-- The priorities whose XOFF or XON is to be sent. -/
def State.pfcVec (s : State) (n : Nat) : Nat := Nat.land (s.port n).pfcDue (s.rf (pchPfcCfg n) 23 16)

/-- The time that a generated PFC frame carries for priority p. -/
def State.pfcTime (s : State) (n p : Nat) : Nat :=
  if (s.pfcVec n).testBit p ∧ (s.port n).xoff.testBit p then s.rf (pchPfcCfg n) 15 0 else 0

/-- The time that a generated PAUSE frame carries. -/
def State.pauseTime (s : State) (n : Nat) : Nat :=
  if Nat.land (s.port n).xoff (s.rf (pchPfcCfg n) 23 16) = 0 then 0 else s.rf (pchPfcCfg n) 15 0

/-- What a generated frame carries, by the port's mode. -/
def State.pausePayload (s : State) (n : Nat) : List Byte :=
  if s.rf (pchPortCfg n) 8 7 = 1 then natBe 2 0x0101 ++ natBe 2 (s.pfcVec n) ++ pfcTimes 8 (s.pfcTime n)
  else natBe 2 0x0001 ++ natBe 2 (s.pauseTime n)

section
variable (s : State) (n : Nat)

theorem State.pfcVec_lt : s.pfcVec n < 256 := Nat.lt_of_le_of_lt Nat.and_le_right (s.rf_lt (pchPfcCfg n) 23 16)

theorem State.pfcTime_lt (p : Nat) : s.pfcTime n p < 256 ^ 2 := by
  unfold State.pfcTime
  split
  · exact s.rf_lt (pchPfcCfg n) 15 0
  · decide

theorem State.pauseTime_lt : s.pauseTime n < 256 ^ 2 := by
  unfold State.pauseTime
  split
  · decide
  · exact s.rf_lt (pchPfcCfg n) 15 0

theorem State.length_portMac : (s.portMac n).length = 6 := length_natBe 6 _

end

/-- The fields of a PFC frame's payload. -/
theorem State.pausePayload_pfc {s : State} {n : Nat} (mode : s.rf (pchPortCfg n) 8 7 = 1) :
    (s.pausePayload n).length = 20 ∧ beAt (s.pausePayload n) 0 2 = 0x0101 ∧ beAt (s.pausePayload n) 2 2 = s.pfcVec n ∧
      ∀ p < 8, beAt (s.pausePayload n) (4 + 2 * p) 2 = s.pfcTime n p := by
  have vec : s.pfcVec n < 256 ^ 2 := Nat.lt_trans (s.pfcVec_lt n) (by decide)
  rw [State.pausePayload, if_pos mode, List.append_assoc]
  refine ⟨by simp [length_pfcTimes], beAt_natBe_append (by decide) _, ?_, fun p hp => ?_⟩
  · rw [beAt_append_right _ (length_natBe 2 _) 0 2, beAt_natBe_append vec]
  · have place : 4 + 2 * p = 2 + (2 + 2 * p) := by omega
    rw [place, beAt_append_right _ (length_natBe 2 _), beAt_append_right _ (length_natBe 2 _),
      beAt_pfcTimes hp (s.pfcTime_lt n p)]

/-- The fields of a PAUSE frame's payload. -/
theorem State.pausePayload_pause {s : State} {n : Nat} (mode : s.rf (pchPortCfg n) 8 7 = 2) :
    (s.pausePayload n).length = 4 ∧ beAt (s.pausePayload n) 0 2 = 0x0001 ∧
      beAt (s.pausePayload n) 2 2 = s.pauseTime n := by
  rw [State.pausePayload, if_neg (by simp [mode])]
  refine ⟨by simp, beAt_natBe_append (by decide) _, ?_⟩
  rw [beAt_append_right _ (length_natBe 2 _) 0 2, beAt_natBe (s.pauseTime_lt n)]

theorem State.pfcGenerate_of_nothing {s : State} {n : Nat}
    (h : s.pfcVec n = 0 ∨ s.linkUp n = false ∨ s.txBusy n = true) : s.pfcGenerate n = s := by
  refine if_pos ?_
  rcases h with nothing | down | busy
  · refine .inl ?_
    split
    · exact nothing
    · rfl
  · exact .inr (.inl (by simp [down]))
  · exact .inr (.inr busy)

/-- The state in which a port's generated frame has left, before it is counted. -/
def State.pauseSent (s : State) (n shown : Nat) : State :=
  ((s.setPort n { s.port n with pfcDue := (s.port n).pfcDue - s.pfcVec n }).wf (pchPfcState n) 15 8 shown).emit
    (.frame n (macControl (s.portMac n) (s.pausePayload n)) false)

section
variable {s : State} {n : Nat} (mode : s.rf (pchPortCfg n) 8 7 = 1 ∨ s.rf (pchPortCfg n) 8 7 = 2)
  (due : s.pfcVec n ≠ 0) (up : s.linkUp n = true) (idle : s.txBusy n = false)
include mode due up idle

/-- A due frame leaves; only registers and counters change after that. -/
theorem State.pfcGenerate_keeps_sent : ∃ shown, Keeps [.regs, .mast] (s.pauseSent n shown) (s.pfcGenerate n) := by
  have ready : ¬(Nat.land (s.port n).pfcDue (s.rf (pchPfcCfg n) 23 16) = 0 ∨ (!s.linkUp n) = true ∨
      s.txBusy n = true) := by
    rw [← State.pfcVec]
    simp [due, up, idle]
  unfold State.pfcGenerate
  dsimp only
  rw [if_pos mode, if_neg ready]
  have counted (t : State) : Keeps [.regs, .mast] t ((t.count evPchTxFrames n 0).countBy evPchTxBytes n 0 64) :=
    (State.count_keeps _ _ _ _).trans (State.countBy_keeps _ _ _ _ _)
  exact ⟨_, .ite ((counted (s.pauseSent n _)).each fun u p h => h.trans (u.count_keeps _ _ _)) (counted _)⟩

theorem State.pfcGenerate_sends :
    (s.pfcGenerate n).outbox = s.outbox ++ [.frame n (macControl (s.portMac n) (s.pausePayload n)) false] ∧
      ((s.pfcGenerate n).port n).pfcDue = (s.port n).pfcDue - s.pfcVec n := by
  obtain ⟨shown, keeps⟩ := State.pfcGenerate_keeps_sent mode due up idle
  have out : (s.pfcGenerate n).outbox = _ := keeps.same .outbox (by decide)
  have port := State.port_congr (keeps.same .pipe (by decide)) n
  have sent : (s.pauseSent n shown).port n =
      { s.port n with pfcDue := (s.port n).pfcDue - s.pfcVec n } := s.port_setPort n _
  exact ⟨out, by rw [port, sent]⟩

end

/-! ## Pause timers (R49) -/

theorem State.tfind_pauseLoad (s : State) (n k quanta j : Nat) : tfind ((s.pauseLoad n k quanta).port n).pause j =
    if j = k then (if quanta = 0 then none else some quanta) else tfind (s.port n).pause j := by
  rw [State.pauseLoad, State.port_setPort]
  by_cases same : j = k
  · subst same
    split <;> simp [tfind_tdel_same, tfind_tput_same]
  · split <;> simp [tfind_tdel_ne _ _ _ same, tfind_tput_ne _ _ _ _ same]

/-- The timers that a list of loads leaves. -/
theorem State.tfind_each_pauseLoad (s : State) (n : Nat) (l : List Nat) (quanta : Nat → Nat) (j : Nat) :
    tfind ((s.each l fun t k => t.pauseLoad n k (quanta k)).port n).pause j =
      if j ∈ l then (if quanta j = 0 then none else some (quanta j)) else tfind (s.port n).pause j := by
  induction l generalizing s with
  | nil => rfl
  | cons k l ih =>
    have head : (s.each (k :: l) fun t k => t.pauseLoad n k (quanta k)) =
        (s.pauseLoad n k (quanta k)).each l fun t k => t.pauseLoad n k (quanta k) := rfl
    rw [head, ih, State.tfind_pauseLoad]
    by_cases same : j = k
    · simp [same]
    · simp [same]

/-- A timer that maps to class c of port n runs. -/
def State.classHeld (s : State) (n c : Nat) : Bool :=
  (tfind (s.port n).pause (8 + c)).isSome || (upto 8).any fun p =>
    (tfind (s.port n).pause p).isSome && s.rf (pchPfcMap n) (3 * p + 2) (3 * p) == c

/-- The number whose lowest m bits are given. -/
def sumBits (f : Nat → Bool) (m : Nat) : Nat := ((upto m).map fun k => nat (f k) * 2 ^ k).sum

theorem sumBits_succ (f : Nat → Bool) (m : Nat) : sumBits f (m + 1) = 2 ^ m * nat (f m) + sumBits f m := by
  simp only [sumBits, upto, List.range_succ, List.map_append, List.sum_append, List.map_singleton, List.sum_singleton]
  rw [Nat.mul_comm, Nat.add_comm]

theorem nat_lt_two (b : Bool) : nat b < 2 := by cases b <;> decide

theorem sumBits_lt (f : Nat → Bool) (m : Nat) : sumBits f m < 2 ^ m := by
  induction m with
  | zero => exact Nat.zero_lt_one
  | succ m ih =>
    have := Nat.mul_le_mul_left (2 ^ m) (Nat.le_of_lt_succ (nat_lt_two (f m)))
    rw [sumBits_succ, Nat.pow_succ]
    omega

theorem testBit_sumBits (f : Nat → Bool) {m c : Nat} (hc : c < m) : (sumBits f m).testBit c = f c := by
  induction m with
  | zero => omega
  | succ m ih =>
    rw [sumBits_succ, Nat.testBit_two_pow_mul_add _ (sumBits_lt f m)]
    by_cases below : c < m
    · rw [if_pos below, ih below]
    · have top : c = m := by omega
      subst top
      cases f c <;> simp [nat]

/-- PCH_PFC_STATE shows class c paused exactly while a timer that maps to it runs (R49). -/
theorem State.tcPaused_pauseShow (s : State) (n : Nat) {c : Nat} (hc : c < 8) :
    (s.pauseShow n).tcPaused n c = (s.pauseShow n).classHeld n c := by
  have shows : s.pauseShow n = s.wf (pchPfcState n) 7 0 (sumBits (s.classHeld n) 8) := rfl
  have apart : pchPfcMap n ≠ pchPfcState n := by unfold pchPfcMap pchPfcState; omega
  have held : (s.pauseShow n).classHeld n c = s.classHeld n c := by
    simp only [State.classHeld, State.port_congr (s.pipe_pauseShow n), State.rf, s.rd_pauseShow_ne apart]
  rw [held, State.tcPaused, shows, State.rb_wf _ _ _ _ _ _ (by decide) (by decide) (by omega),
    if_pos ⟨Nat.zero_le c, Nat.le_of_lt_succ hc⟩, Nat.sub_zero, testBit_sumBits _ hc]

/-- The timers after a PFC frame in the mode that takes it (R47 to R49). -/
theorem State.pfcReceive_eq {s : State} {n : Nat} (mode : s.rf (pchPortCfg n) 8 7 = 1) (vec : Nat) (times : List Nat) :
    ∃ t, Keeps [.regs, .mast] s t ∧ s.pfcReceive n vec times = (t.each
      (((upto 8).filter vec.testBit).filter fun p => s.rb (pchPfcCfg n) (24 + p)) fun t p =>
        t.pauseLoad n p (times.getD p 0)).pauseShow n := by
  refine ⟨s.each ((upto 8).filter vec.testBit) fun t p => t.count evPchPfcRx n p, ?_, if_neg (by simp [mode])⟩
  exact Keeps.each (.refl s) fun u p h => h.trans (u.count_keeps _ _ _)

theorem State.tfind_pause_pfcReceive {s : State} {n p : Nat} (mode : s.rf (pchPortCfg n) 8 7 = 1) (vec : Nat)
    (times : List Nat) (hp : p < 8) : tfind ((s.pfcReceive n vec times).port n).pause p =
      if vec.testBit p = true ∧ s.rb (pchPfcCfg n) (24 + p) = true then
        (if times.getD p 0 = 0 then none else some (times.getD p 0))
      else tfind (s.port n).pause p := by
  obtain ⟨t, keeps, result⟩ := State.pfcReceive_eq mode vec times
  have port := State.port_congr (keeps.same .pipe (by decide)) n
  rw [result, State.port_congr (State.pipe_pauseShow _ n), State.tfind_each_pauseLoad _ _ _ fun k => times.getD k 0, port]
  simp only [List.mem_filter, upto, List.mem_range, hp, true_and]

/-- A PAUSE frame in the mode that takes it loads the timer of every class (R47, R49). -/
theorem State.pauseReceive_eq {s : State} {n : Nat} (mode : s.rf (pchPortCfg n) 8 7 = 2) (time : Nat) :
    s.pauseReceive n time =
      (s.each ((upto 8).map (8 + ·)) fun t k => t.pauseLoad n k time).pauseShow n := by
  rw [State.each, List.foldl_map]
  exact if_neg (by simp [mode])

theorem State.tfind_pause_pauseReceive {s : State} {n : Nat} (mode : s.rf (pchPortCfg n) 8 7 = 2) (time j : Nat) :
    tfind ((s.pauseReceive n time).port n).pause j =
      if 8 ≤ j ∧ j < 16 then (if time = 0 then none else some time) else tfind (s.port n).pause j := by
  have classes : j ∈ (upto 8).map (8 + ·) ↔ 8 ≤ j ∧ j < 16 := by
    simp only [upto, List.mem_map, List.mem_range]
    constructor
    · rintro ⟨c, hc, rfl⟩
      omega
    · rintro ⟨lo, hi⟩
      exact ⟨j - 8, by omega, by omega⟩
  rw [State.pauseReceive_eq mode, State.port_congr (State.pipe_pauseShow _ n),
    State.tfind_each_pauseLoad _ _ _ fun _ => time]
  simp only [classes]

/-! ## Ports that are disabled (R36) -/

theorem regsStand.sendHello (s : State) (n : Nat) (reply leaving : Bool) :
    regsStand s (s.sendHello n reply leaving) := by
  intro a ha
  unfold State.sendHello
  dsimp only
  rw [State.rd_countBy _ _ _ _ _ ha, State.rd_count _ _ _ _ ha, State.rd_count _ _ _ _ ha, State.rd_emit,
    State.rd_setPort]

/-- The configuration of a port stands when its link goes down. -/
theorem State.rd_pchPortCfg_portLinkDown (s : State) (n : Nat) :
    (s.portLinkDown n).rd (pchPortCfg n) = s.rd (pchPortCfg n) := by
  by_cases up : s.linkUp n = true
  · have off : offWrap (pchPortCfg n) = true := offWrap_of_window (by unfold pchPortCfg; omega)
    have apart : pchPortCfg n ≠ pchPeerState n ∧ pchPortCfg n ≠ pchPeerTarget n ∧ pchPortCfg n ≠ pchPfcState n ∧
        pchPortCfg n ≠ pchPortErr n ∧ pchPortCfg n ≠ pchPortStatus n := by
      unfold pchPortCfg pchPeerState pchPeerTarget pchPfcState pchPortErr pchPortStatus
      omega
    obtain ⟨peer, target, pause, err, status⟩ := apart
    rw [State.portLinkDown_of_up up, State.rd_peerDown _ peer target off, State.rd_pauseShow_ne _ pause,
      State.rd_setPort, regsStand.cutLink s n _ off, State.showLinkDown, State.rd_setB_ne _ _ err,
      State.rd_putB_ne _ _ _ status, State.rd_putB_ne _ _ _ status, State.rd_putB_ne _ _ _ status]
  · rw [State.portLinkDown_of_down (Bool.not_eq_true _ ▸ up)]

theorem State.portDisable_effect (s : State) (n : Nat) : (s.portDisable n).portEnabled n = false ∧
    (s.portDisable n).linkUp n = false ∧ (s.portDisable n).rd (pchPortCfg n) = s.rd (pchPortCfg n) := by
  have cleared (t : State) (i : Nat) (hi : i < 6) : (t.wf (pchPortStatus n) 5 0 0).rb (pchPortStatus n) i = false := by
    rw [State.rb_wf _ _ _ _ _ _ (by decide) (by decide) (by omega), if_pos (by omega), Nat.zero_testBit]
  refine ⟨cleared _ 5 (by decide), cleared _ 0 (by decide), ?_⟩
  have apart : pchPortCfg n ≠ pchPortStatus n := by unfold pchPortCfg pchPortStatus; omega
  have left : regsStand s (if s.linkUp n ∧ s.rf (pchHelloCfg n) 15 0 ≠ 0 then s.sendHello n false true else s) :=
    .ite (regsStand.sendHello s n _ _) fun _ _ => rfl
  rw [State.portDisable, State.rd_setPort, State.rd_wf_ne _ _ _ _ apart, State.rd_pchPortCfg_portLinkDown]
  exact left _ (offWrap_of_window (by unfold pchPortCfg; omega))

/-! ## Writes of PCH_PORT_CFG (R36) -/

section
variable {s : State} {n : Nat} {v : Word}

theorem State.portCfgWrite_refused (enabled : s.rb (pchPortCfg n) 0 = true)
    (other : v.getLsbD 0 = true ∨ fld v 10 1 ≠ s.rf (pchPortCfg n) 10 1) : s.portCfgWrite n v = s := by
  have kept : v.getLsbD 0 = true ∨ (!decide (fld v 10 1 = s.rf (pchPortCfg n) 10 1)) = true := by simpa using other
  exact (if_pos enabled).trans (if_pos kept)

theorem State.portCfgWrite_disables (enabled : s.rb (pchPortCfg n) 0 = true) (off : v.getLsbD 0 = false)
    (same : fld v 10 1 = s.rf (pchPortCfg n) 10 1) : s.portCfgWrite n v =
      if s.txBusy n then (s.wf (pchPortCfg n) 0 0 0).setPort n { s.port n with disableDue := true }
      else (s.wf (pchPortCfg n) 0 0 0).portDisable n := by
  have taken : ¬(v.getLsbD 0 = true ∨ (!decide (fld v 10 1 = s.rf (pchPortCfg n) 10 1)) = true) := by
    rw [off, same]
    simp
  exact (if_pos enabled).trans (if_neg taken)

theorem State.portCfgWrite_enables (disabled : s.rb (pchPortCfg n) 0 = false) (on : v.getLsbD 0 = true)
    (same : fld v 10 1 = s.rf (pchPortCfg n) 10 1) (ok : s.portCfgOk n = true) : s.portCfgWrite n v =
      ((s.setB (pchPortCfg n) 0).wrN (pchPortStatus n) 0x20).setPort n
        { s.port n with disableDue := false, downSince := s.ns } := by
  have taken : (decide (fld v 10 1 = s.rf (pchPortCfg n) 10 1) && s.portCfgOk n) = true := by simp [same, ok]
  exact (if_neg (by simp [disabled])).trans ((if_pos on).trans (if_pos taken))

theorem State.portCfgWrite_bad (disabled : s.rb (pchPortCfg n) 0 = false) (on : v.getLsbD 0 = true)
    (bad : fld v 10 1 ≠ s.rf (pchPortCfg n) 10 1 ∨ s.portCfgOk n = false) :
    s.portCfgWrite n v = s.setB (pchPortErr n) 0 := by
  have refused : ¬(decide (fld v 10 1 = s.rf (pchPortCfg n) 10 1) && s.portCfgOk n) = true := by
    rcases bad with other | unfit
    · simp [other]
    · simp [unfit]
  exact (if_neg (by simp [disabled])).trans ((if_pos on).trans (if_neg refused))

theorem State.portCfgWrite_configures (disabled : s.rb (pchPortCfg n) 0 = false) (off : v.getLsbD 0 = false) :
    s.portCfgWrite n v = s.plainWrite (pchPortCfg n) v :=
  (if_neg (by simp [disabled])).trans (if_neg (by rw [off]; exact Bool.false_ne_true))

/-- A port's EN goes at once, and the port is disabled then or when its frame ends. -/
theorem State.portCfgWrite_disables_effect (enabled : s.rb (pchPortCfg n) 0 = true) (off : v.getLsbD 0 = false)
    (same : fld v 10 1 = s.rf (pchPortCfg n) 10 1) :
    let u := s.portCfgWrite n v
    u.rb (pchPortCfg n) 0 = false ∧ (s.txBusy n = false → u.portEnabled n = false ∧ u.linkUp n = false) ∧
      (s.txBusy n = true → (u.port n).disableDue = true ∧ u.portEnabled n = s.portEnabled n) := by
  have cleared : (s.wf (pchPortCfg n) 0 0 0).rb (pchPortCfg n) 0 = false := by
    rw [s.rb_wf _ _ _ _ _ (by decide) (by decide) (by decide), if_pos (by decide), Nat.zero_testBit]
  intro u
  have result : u = _ := State.portCfgWrite_disables enabled off same
  rw [result]
  by_cases busy : s.txBusy n = true
  · have apart : pchPortStatus n ≠ pchPortCfg n := by unfold pchPortStatus pchPortCfg; omega
    have status : ((s.wf (pchPortCfg n) 0 0 0).setPort n { s.port n with disableDue := true }).portEnabled n =
        s.portEnabled n := by
      rw [State.portEnabled, State.rb, State.rd_setPort, s.rd_wf_ne _ _ _ apart]
      rfl
    rw [if_pos busy]
    exact ⟨cleared, fun idle => absurd busy (by simp [idle]), fun _ => ⟨by rw [State.port_setPort], status⟩⟩
  · obtain ⟨disabled, down, cfg⟩ := (s.wf (pchPortCfg n) 0 0 0).portDisable_effect n
    rw [if_neg busy]
    exact ⟨by rwa [State.rb, cfg], fun _ => ⟨disabled, down⟩, fun flies => absurd flies busy⟩

/-- A port that has been enabled has no link yet (R36, R39). -/
theorem State.portCfgWrite_enables_effect (disabled : s.rb (pchPortCfg n) 0 = false) (on : v.getLsbD 0 = true)
    (same : fld v 10 1 = s.rf (pchPortCfg n) 10 1) (ok : s.portCfgOk n = true) :
    let u := s.portCfgWrite n v
    u.rb (pchPortCfg n) 0 = true ∧ u.portEnabled n = true ∧ u.linkUp n = false ∧ (u.port n).downSince = s.ns ∧
      onlyIn [.regs, .pipe] s u := by
  have apart : pchPortCfg n ≠ pchPortStatus n := by unfold pchPortStatus pchPortCfg; omega
  intro u
  have result : u = _ := State.portCfgWrite_enables disabled on same ok
  have status : u.rd (pchPortStatus n) = 0x20#32 := by rw [result, State.rd_setPort, State.rd_wrN]
  refine ⟨?_, by rw [State.portEnabled, State.rb, status]; rfl, by rw [State.linkUp, State.rb, status]; rfl, ?_, ?_⟩
  · rw [result, State.rb, State.rd_setPort, State.rd_wrN_ne _ _ apart]
    exact s.rb_setB _ 0 (by decide)
  · rw [result, State.port_setPort]
  · rw [result]
    exact ((State.setPort_keeps _ _ _).after rfl
      ((State.wrN_keeps _ _ _).after rfl ((s.setB_keeps _ _).mono rfl))).same

end

/-! ## Writes of PCH_OCT_CFG (R32) -/

section
variable {s : State} {o : Nat} {v : Word}

theorem State.laneRateWrite_bad (other : fld v 2 0 ≠ s.rf (pchOctCfg o) 2 0)
    (bad : 5 ≤ fld v 2 0 ∨ ∃ i, i < 8 ∧ s.rb (pchPortCfg (8 * o + i)) 0 = true) :
    s.laneRateWrite o v = s.setB (pchOctCfg o) 4 := by
  have refused : 5 ≤ fld v 2 0 ∨ (upto 8).any (fun i => s.rb (pchPortCfg (8 * o + i)) 0) = true := by
    simpa [upto] using bad
  exact (if_neg other).trans (if_pos refused)

/-- A lane rate is taken while no port of the octet is enabled. -/
theorem State.laneRateWrite_taken (valid : fld v 2 0 < 5)
    (idle : ∀ i, i < 8 → s.rb (pchPortCfg (8 * o + i)) 0 = false) :
    (s.laneRateWrite o v).rf (pchOctCfg o) 2 0 = fld v 2 0 ∧
      ∀ b, b ≠ pchOctCfg o → (s.laneRateWrite o v).rd b = s.rd b := by
  by_cases same : fld v 2 0 = s.rf (pchOctCfg o) 2 0
  · have result : s.laneRateWrite o v = s := if_pos same
    rw [result]
    exact ⟨same.symm, fun _ _ => rfl⟩
  · have allowed : ¬(5 ≤ fld v 2 0 ∨ (upto 8).any (fun i => s.rb (pchPortCfg (8 * o + i)) 0) = true) := by
      simpa [upto] using And.intro valid idle
    have result : s.laneRateWrite o v = s.wf (pchOctCfg o) 2 0 (fld v 2 0) := (if_neg same).trans (if_neg allowed)
    rw [result, s.rf_wf _ _ _ _ (by decide) (by decide)]
    exact ⟨Nat.mod_eq_of_lt (Nat.lt_trans valid (by decide)), fun b hb => s.rd_wf_ne _ _ _ hb⟩

end

/-! ## The commands of Porch's configuration -/

theorem exec_laneRateWrite (o : Nat) (v : Word) (s : State) :
    exec (.laneRateWrite o v) s = .next (s.laneRateWrite o v) := rfl

theorem exec_portCfgWrite (n : Nat) (v : Word) (s : State) :
    exec (.portCfgWrite n v) s = .next (s.portCfgWrite n v) := rfl

theorem exec_portMtuWrite (n : Nat) (v : Word) (s : State) :
    exec (.portMtuWrite n v) s = .next (s.portMtuWrite n v) := rfl

theorem exec_pfcReceive {s : State} {n : Nat} (vec : Nat) (times : List Nat) (up : s.linkUp n = true) :
    exec (.pfcReceive n vec times) s = .next (s.pfcReceive n vec times) := if_pos up

theorem exec_pauseReceive {s : State} {n : Nat} (time : Nat) (up : s.linkUp n = true) :
    exec (.pauseReceive n time) s = .next (s.pauseReceive n time) := if_pos up

theorem exec_pfcGenerate (n : Nat) (s : State) : exec (.pfcGenerate n) s = .next (s.pfcGenerate n) := rfl

end Sys2Proof.Machine

section
open Sys2Proof Sys2Proof.Machine

/-- Settles O24: each write falls into one branch of its definition, timers are loaded one at a time, and a generated
frame is read back field by field. -/
theorem porchConfigurationAndFlowControl : Obligations.PorchConfigurationAndFlowControl := by
  unfold Obligations.PorchConfigurationAndFlowControl
  refine ⟨fun o v s ho => ⟨?sameRate, ?badRate, ?rate⟩,
    fun n v s hn => ⟨?refused, ?disables, ?enables, ?badCfg, ?configures, ?mtu, ?badMtu⟩,
    fun n vec time k times s => ⟨?down, ?pfc, ?noPfc, ?pause, ?noPause, ?expires⟩,
    fun n s => ⟨?nothingDue, ?sendsPfc, ?sendsPause, rfl⟩⟩
  case sameRate => exact fun same => congrArg _ (if_pos same)
  case badRate => exact fun other bad => congrArg _ (State.laneRateWrite_bad other bad)
  case rate =>
    intro valid idle
    obtain ⟨rate, others⟩ := State.laneRateWrite_taken valid idle
    exact ⟨_, exec_laneRateWrite o v s, rate, others, (s.laneRateWrite_keeps o v).same⟩
  case refused => exact fun enabled other => congrArg _ (State.portCfgWrite_refused enabled other)
  case disables =>
    exact fun enabled off same =>
      ⟨_, exec_portCfgWrite n v s, State.portCfgWrite_disables_effect enabled off same⟩
  case enables =>
    exact fun disabled on same ok =>
      ⟨_, exec_portCfgWrite n v s, State.portCfgWrite_enables_effect disabled on same ok⟩
  case badCfg => exact fun disabled on bad => congrArg _ (State.portCfgWrite_bad disabled on bad)
  case configures =>
    intro disabled off
    refine ⟨_, exec_portCfgWrite n v s, ?_⟩
    rw [State.portCfgWrite_configures disabled off]
    refine ⟨s.rf_plainWrite (regAt_pchPortCfg n hn) v (by decide) (by decide), ?_, fun b hb => s.rd_plainWrite_ne v hb,
      (s.plainWrite_keeps _ _).same⟩
    exact (s.rb_plainWrite (regAt_pchPortCfg n hn) v (by decide)).trans off
  case mtu =>
    intro least most
    refine ⟨_, (exec_portMtuWrite n v s).trans (congrArg _ (if_pos ⟨least, most⟩)), ?_,
      fun b hb => s.rd_plainWrite_ne v hb, (s.plainWrite_keeps _ _).same⟩
    exact s.rf_plainWrite (regAt_pchPortMtu n hn) v (by decide) (by decide)
  case badMtu => exact fun out => congrArg _ (if_neg (by omega))
  case down =>
    intro down
    have gone : ¬ s.linkUp n = true := by simp [down]
    exact ⟨if_neg gone, if_neg gone⟩
  case pfc =>
    intro up mode
    obtain ⟨t, -, result⟩ := State.pfcReceive_eq mode vec times
    refine ⟨_, exec_pfcReceive vec times up, fun c hc => ?_, (s.pfcReceive_keeps n vec times).same,
      fun p hp => State.tfind_pause_pfcReceive mode vec times hp⟩
    rw [result]
    exact State.tcPaused_pauseShow _ n hc
  case noPfc => exact fun up mode => (exec_pfcReceive vec times up).trans (congrArg _ (if_pos mode))
  case pause =>
    intro up mode
    refine ⟨_, exec_pauseReceive time up, fun c hc => ?_, fun c hc => ?_, fun p hp => ?_⟩
    · rw [State.pauseReceive_eq mode]
      exact State.tcPaused_pauseShow _ n hc
    · rw [State.tfind_pause_pauseReceive mode, if_pos (by omega)]
    · rw [State.tfind_pause_pauseReceive mode, if_neg (by omega)]
  case noPause => exact fun up mode => (exec_pauseReceive time up).trans (congrArg _ (if_pos mode))
  case expires =>
    have port : (((s.setPort n { s.port n with pause := tdel (s.port n).pause k }).pauseShow n).port n).pause =
        tdel (s.port n).pause k := by
      rw [State.port_congr (State.pipe_pauseShow _ n), State.port_setPort]
    refine ⟨_, rfl, fun c hc => State.tcPaused_pauseShow _ n hc, ?_, fun j hj => ?_, ?_⟩
    · rw [port, tfind_tdel_same]
    · rw [port, tfind_tdel_ne _ _ _ hj]
    · exact ((State.pauseShow_keeps _ n).after rfl ((s.setPort_keeps n _).mono rfl)).same
  case nothingDue => exact fun h => congrArg _ (State.pfcGenerate_of_nothing h)
  case sendsPfc =>
    intro due up idle mode
    obtain ⟨out, left⟩ := State.pfcGenerate_sends (.inl mode) due up idle
    obtain ⟨length, opcode, vec, times⟩ := State.pausePayload_pfc mode
    have field {i : Nat} (inside : i + 2 ≤ 20) :=
      beAt_macControl_payload (s.length_portMac n) (s.pausePayload n) (length ▸ inside)
    refine ⟨_, _, exec_pfcGenerate n s, out, length_macControl (s.length_portMac n) _ (by omega),
      beAt_macControl_destination _, beAt_macControl_type (s.length_portMac n) _,
      (field (i := 0) (by omega)).trans opcode, (field (i := 2) (by omega)).trans vec, fun p hp => ?_, left⟩
    have place : 18 + 2 * p = 14 + (4 + 2 * p) := by omega
    rw [place, field (by omega), times p hp]
    rfl
  case sendsPause =>
    intro due up idle mode
    obtain ⟨out, -⟩ := State.pfcGenerate_sends (.inr mode) due up idle
    obtain ⟨length, opcode, time⟩ := State.pausePayload_pause mode
    have field {i : Nat} (inside : i + 2 ≤ 4) :=
      beAt_macControl_payload (s.length_portMac n) (s.pausePayload n) (length ▸ inside)
    exact ⟨_, _, exec_pfcGenerate n s, out, length_macControl (s.length_portMac n) _ (by omega),
      beAt_macControl_type (s.length_portMac n) _, (field (i := 0) (by omega)).trans opcode,
      (field (i := 2) (by omega)).trans time⟩

end

/-! PROOFS. Heads that Threshold takes and parses, and its microcode store (R64 to R93, R114, R125, R126). -/

namespace Sys2Proof.Machine

/-! ## The metadata word (R86, R120) -/

section
variable (h : Head) {hi lo hi' lo' : Nat} (v : Nat)

theorem Head.testBit_get (i : Nat) :
    (h.get hi lo).testBit i = (decide (i < hi + 1 - lo) && h.md.getLsbD (lo + i)) := testBit_bits _ _ _ _

theorem Head.getLsbD_put {i : Nat} (le : lo ≤ hi) (hi' : i < 1024) :
    (h.put hi lo v).md.getLsbD i = if lo ≤ i ∧ i ≤ hi then v.testBit (i - lo) else h.md.getLsbD i := by
  simp only [Head.put, BitVec.getLsbD_ofNat, hi', decide_true, Bool.true_and]
  exact testBit_putBits _ _ _ _ _ le

/-- A field that lies within the bits put is the same field of what was put. -/
theorem Head.get_put_within (le : lo ≤ lo') (ge : hi' ≤ hi) (le' : lo' ≤ hi') (top : hi < 1024) :
    (h.put hi lo v).get hi' lo' = bits v (hi' - lo) (lo' - lo) := by
  refine Nat.eq_of_testBit_eq fun i => ?_
  have width : hi' - lo + 1 - (lo' - lo) = hi' + 1 - lo' := by omega
  rw [Head.testBit_get, testBit_bits, width]
  by_cases inside : i < hi' + 1 - lo'
  · have place : lo' + i - lo = lo' - lo + i := by omega
    rw [h.getLsbD_put v (by omega) (by omega), if_pos (by omega), place]
  · simp [inside]

theorem Head.get_put_apart (le : lo ≤ hi) (top : hi' < 1024) (apart : hi' < lo ∨ hi < lo') :
    (h.put hi lo v).get hi' lo' = h.get hi' lo' := by
  refine Nat.eq_of_testBit_eq fun i => ?_
  rw [Head.testBit_get, Head.testBit_get]
  by_cases inside : i < hi' + 1 - lo'
  · rw [h.getLsbD_put v le (by omega), if_neg (by omega)]
  · simp [inside]

theorem Head.get_put_same (le : lo ≤ hi) (top : hi < 1024) (fits : v < 2 ^ (hi + 1 - lo)) :
    (h.put hi lo v).get hi lo = v := by
  rw [h.get_put_within v (Nat.le_refl _) (Nat.le_refl _) le top, Nat.sub_self, bits, Nat.pow_zero, Nat.div_one,
    Nat.sub_zero]
  rw [Nat.sub_add_comm le] at fits
  exact Nat.mod_eq_of_lt fits

end

/-- A field put into the metadata word leaves the rest of the head. -/
theorem Head.put_only_md {g h : Head} (stands : ∃ md, g = { h with md }) (hi lo v : Nat) :
    ∃ md, g.put hi lo v = { h with md } := by
  obtain ⟨md, rfl⟩ := stands
  exact ⟨_, rfl⟩

/-! ## The stage region of a first pass (R114) -/

section
variable (s : State) (h : Head) (n : Nat)

theorem State.firstPass_only_md : ∃ md, s.firstPass h n = { h with md } := by
  unfold State.firstPass
  dsimp only
  iterate 8 refine Head.put_only_md ?_ _ _ _
  exact ⟨_, rfl⟩

/-- NEXT, the class, the generation and the cause of a head that begins its first pass at its port's start. -/
theorem State.stageRegion_firstPass (entry : h.entry ≠ 4) :
    (s.firstPass h n).get 519 512 = s.rf (hlwPortCfg n) 7 0 ∧ (s.firstPass h n).tc = s.rf (hlwPortCfg n) 11 9 ∧
      (s.firstPass h n).gen = s.genPar ∧ (s.firstPass h n).cause = 0 := by
  have next := s.rf_lt (hlwPortCfg n) 7 0
  have tc := s.rf_lt (hlwPortCfg n) 11 9
  have gen : s.genPar < 2 ^ (522 + 1 - 522) := s.rf_lt hlwGenStatus 16 16
  unfold State.firstPass Head.tc Head.gen Head.cause
  dsimp only
  rw [if_neg entry]
  refine ⟨?_, ?_, ?_, ?_⟩
  · rw [Head.get_put_apart, Head.get_put_apart, Head.get_put_apart, Head.get_put_same] <;> omega
  · rw [Head.get_put_apart, Head.get_put_apart, Head.get_put_same] <;> omega
  · rw [Head.get_put_apart, Head.get_put_same] <;> omega
  · rw [Head.get_put_apart, Head.get_put_apart, Head.get_put_apart, Head.get_put_apart, Head.get_put_apart,
      Head.get_put_apart, Head.get_put_apart, Head.get_put_within] <;> decide

end

/-! ## Records that counts and frees leave -/

section
variable (s : State)

theorem State.frame_congr {s t : State} (h : t.pipe = s.pipe) (f : Nat) : t.frame f = s.frame f :=
  congrArg (fun p : Pipe => tget Frame.init p.frames f) h

@[simp] theorem State.frame_setHead (f : Nat) (h : Head) : (s.setHead f h).frame f = { s.frame f with head := h } :=
  s.frame_setFrame f _

@[simp] theorem State.head_setHead (f : Nat) (h : Head) : (s.setHead f h).head f = h :=
  congrArg Frame.head (s.frame_setHead f h)

theorem State.pipe_count (e o i : Nat) : (s.count e o i).pipe = s.pipe := (s.count_keeps e o i).same .pipe (by decide)

/-- The free of a frame's buffer leaves its head, the slices and the sequence numbers. -/
theorem State.freeBuf_effect (f : Nat) : (s.freeBuf f).head f = s.head f ∧ (∀ k, (s.freeBuf f).sl k = s.sl k) ∧
    (s.freeBuf f).pipe.nextSeq = s.pipe.nextSeq := by
  unfold State.freeBuf
  dsimp only
  split
  · exact ⟨rfl, fun _ => rfl, rfl⟩
  · have pipe : (s.hwFree (s.frame f).buf).pipe = s.pipe := (s.hwFree_keeps _).same .pipe (by decide)
    refine ⟨?_, fun k => ?_, ?_⟩
    · rw [State.head, State.frame_setFrame]
      rfl
    · rw [State.sl_setFrame, State.sl_congr pipe]
    · rw [State.setFrame, pipe]

end

/-! ## HEAD_ACCEPT (R64, R69) -/

/-- An injected parity error is due on the next head of slice sl. -/
def State.parityDue (s : State) (sl : Nat) : Bool :=
  s.rb mstStatus 29 && s.rf mstInjCtl 26 24 == 4 && s.rf mstInjCtl 15 0 == sl

/-- A head leaves its slot: the slot empties, an injected parity error that is due is used up, and a sequence number
is taken. -/
def State.leaveSlot (s : State) (f sl : Nat) : State :=
  let s1 := s.setSl sl { s.sl sl with slots := (s.sl sl).slots.filter (· != f) }
  { (if s.parityDue sl then s1.wf mstInjCtl 26 24 0 else s1) with
    pipe := { s1.pipe with nextSeq := s1.pipe.nextSeq + 1 } }

theorem State.slots_leaveSlot (s : State) (f sl : Nat) :
    ((s.leaveSlot f sl).sl sl).slots = (s.sl sl).slots.filter (· != f) :=
  congrArg Slice.slots (s.sl_setSl sl _)

/-- What a head takes for its parse. -/
def State.parseBegun (s : State) (x : Frame) : Head :=
  { x.head with
    pos := .parsing
    parityBad := x.head.parityBad || s.parityDue x.slice
    start := if x.head.entry = 2 then s.rf (thrPortCfg x.port) 12 0 else x.head.start
    profile := s.rf (thrPortCfg x.port) 23 16
    consts := (upto 16).map fun c => s.rf (thrConst c) 15 0
    running := s.rb (thrSliceCtl x.slice) 0 }

/-- A head that begins its parse; on a first pass it has its stage region and its sequence number. -/
def State.accepted (s : State) (x : Frame) : Head :=
  if x.head.entry = 2 ∨ x.head.entry = 4 then
    { s.firstPass (s.parseBegun x) x.port with seq := s.pipe.nextSeq }
  else s.parseBegun x

theorem State.accepted_effect (s : State) {x : Frame} (entry : x.head.entry = 2) :
    let h := s.accepted x
    h.pos = .parsing ∧ h.seq = s.pipe.nextSeq ∧ h.start = s.rf (thrPortCfg x.port) 12 0 ∧
      h.profile = s.rf (thrPortCfg x.port) 23 16 ∧ h.running = s.rb (thrSliceCtl x.slice) 0 ∧
      h.get 519 512 = s.rf (hlwPortCfg x.port) 7 0 ∧ h.tc = s.rf (hlwPortCfg x.port) 11 9 ∧ h.gen = s.genPar ∧
      h.cause = 0 := by
  have first : s.accepted x = { s.firstPass (s.parseBegun x) x.port with seq := s.pipe.nextSeq } := if_pos (.inl entry)
  have own : (s.parseBegun x).entry ≠ 4 := by
    rw [State.parseBegun, entry]
    decide
  have region := s.stageRegion_firstPass _ x.port own
  obtain ⟨md, stands⟩ := s.firstPass_only_md (s.parseBegun x) x.port
  rw [stands] at first region
  intro h
  rw [show h = _ from first]
  exact ⟨rfl, rfl, if_pos entry, rfl, rfl, region⟩

section
variable {s : State} {f : Nat}

theorem execHeadAccept_waits (waits : (s.frame f).head.pos ≠ .slot ∨ s.takesHeads (s.frame f).slice = false) :
    execHeadAccept f s = .next s :=
  if_pos (waits.imp_right fun shut => by simp [shut])

variable (slot : (s.frame f).head.pos = .slot) (takes : s.takesHeads (s.frame f).slice = true)
include slot takes

/-- A head that re-enters at a stage goes to its chain. -/
theorem execHeadAccept_reenters (entry : (s.frame f).head.entry < 2) : execHeadAccept f s =
    .next ((s.leaveSlot f (s.frame f).slice).setHead f { (s.frame f).head with
      pos := .chain, parityBad := (s.frame f).head.parityBad || s.parityDue (s.frame f).slice }) :=
  (if_neg (by simp [slot, takes])).trans (if_pos entry)

theorem execHeadAccept_parses (entry : ¬(s.frame f).head.entry < 2) : execHeadAccept f s =
    .next ((((s.leaveSlot f (s.frame f).slice).setHead f (s.accepted (s.frame f))).freeBuf f).count evThrHeads
      (s.frame f).slice 0) :=
  (if_neg (by simp [slot, takes])).trans (if_neg entry)

end

/-! ## The end of a parse (R70, R86) -/

/-- The status of a parse stands in the parse region. -/
theorem Head.status_parseRegion (h : Head) {x : Frame} (p : Parse) {hlen st : Nat} (reason : Nat) (port : x.port < 512)
    (len : x.len < 2 ^ 15) (hlen_lt : hlen < 1024) (st_lt : st < 4) :
    (h.parseRegion x p hlen st reason).get 99 98 = st := by
  have within (region : Nat) (hv : List Byte) : ({ h.put 511 0 region with hv } : Head).get 99 98 = bits region 99 98 :=
    h.get_put_within region (by decide) (by decide) (by decide) (by decide)
  rw [Head.parseRegion, within, bits]
  have stamp : x.rxTs % 2 ^ 64 < 2 ^ 64 := Nat.mod_lt _ (by decide)
  omega

theorem Frame.length_headBytes (x : Frame) : x.headBytes.length < 1024 := by
  have short : x.headBytes.length ≤ min 512 (x.len - 4) := List.length_take_le _ _
  omega

/-- A parse ends: the parse region stands in the metadata word and the end is counted. -/
def State.closeParse (s : State) (f : Nat) (p : Parse) (st reason : Nat) : State :=
  let x := s.frame f
  let s2 := s.setHead f (x.head.parseRegion x p x.headBytes.length st reason)
  let s3 := s2.count (if st = 0 then evThrComplete else if st = 1 then evThrSlow else evThrFail) x.slice 0
  let s4 := if reason ≠ 0 then s3.count evThrReason x.slice (reason - 1) else s3
  let s5 := if p.csumBad then s4.count evThrCsumBad x.slice 0 else s4
  if 40 < p.steps then s5.count evThrStepsHigh x.slice 0 else s5

theorem State.closeParse_keeps (s : State) (f : Nat) (p : Parse) (st reason : Nat) :
    let x := s.frame f
    Keeps [.regs, .mast] (s.setHead f (x.head.parseRegion x p x.headBytes.length st reason))
      (s.closeParse f p st reason) := by
  have count {t u : State} {c : Prop} [Decidable c] (e o i : Nat) (h : Keeps [.regs, .mast] t u) :
      Keeps [.regs, .mast] t (if c then u.count e o i else u) := .ite (h.trans (u.count_keeps e o i)) h
  exact count _ _ _ (count _ _ _ (count _ _ _ (State.count_keeps _ _ _ _)))

/-- A finished parse leaves its status and its header vector in the head, and the rest of the frame as it was. -/
theorem State.frame_closeParse {s : State} {f st : Nat} (p : Parse) (reason : Nat) (port : (s.frame f).port < 512)
    (len : (s.frame f).len < 2 ^ 15) (st_lt : st < 4) :
    ∃ h, (s.closeParse f p st reason).frame f = { s.frame f with head := h } ∧ h.get 99 98 = st ∧ h.hv = p.hv ∧
      h.ending = (s.frame f).head.ending := by
  refine ⟨_, ?_, (s.frame f).head.status_parseRegion p reason port len (s.frame f).length_headBytes st_lt, ?_, ?_⟩
  · rw [State.frame_congr ((s.closeParse_keeps f p st reason).same .pipe (by decide)), State.frame_setHead]
  · rw [Head.parseRegion]
  · rw [Head.parseRegion, Head.put]

theorem regsStand.closeParse (s : State) (f : Nat) (p : Parse) (st reason : Nat) :
    regsStand s (s.closeParse f p st reason) := by
  have count {t : State} {c : Prop} [Decidable c] (e o i : Nat) (h : regsStand s t) :
      regsStand s (if c then t.count e o i else t) := .ite (h.trans (.count t e o i)) h
  exact count _ _ _ (count _ _ _ (count _ _ _ (regsStand.count (s.setHead f _) _ _ _)))

/-- A parser that is off ends the parse with status FAIL and reason 7. -/
theorem State.parseHead_off {s : State} {f : Nat} (off : (s.frame f).head.running = false) :
    s.parseHead f = s.closeParse f { Parse.start 0 with steps := 1 } 2 7 := by
  simp only [State.parseHead, off, Bool.false_eq_true, if_false]
  rfl

theorem State.ucRead_ok {s : State} {k : Nat} (good : s.eccOf .thr k = .ok) : s.ucRead k = (s, true) := by
  simp only [State.ucRead, good]

/-- A first word that ends the parse COMPLETE ends it with status 0. -/
theorem State.parseHead_firstWord {s : State} {f : Nat} {q : Parse} (on : (s.frame f).head.running = true)
    (good : s.eccOf .thr ((s.frame f).slice * 8192 + (s.frame f).head.start) = .ok)
    (complete : ucStep (s.ucWord ((s.frame f).slice * 8192 + (s.frame f).head.start))
      ⟨(s.frame f).headBytes, (s.frame f).len - 4, (s.frame f).head.consts, (s.frame f).head.profile⟩
      (Parse.start (s.frame f).head.start) = (q, some (0, 0))) :
    s.parseHead f = s.closeParse f q 0 0 := by
  have run (i : ParseIn) (h : ucStep (s.ucWord ((s.frame f).slice * 8192 + (s.frame f).head.start)) i
      (Parse.start (s.frame f).head.start) = (q, some (0, 0))) :
      parseRun (s.frame f).slice i 48 s (Parse.start (s.frame f).head.start) = (s, q, 0, 0) := by
    have addr : (Parse.start (s.frame f).head.start).addr = (s.frame f).head.start := rfl
    simp only [parseRun, addr, State.ucRead_ok good, h]
  simp only [State.parseHead, on, if_true, run _ complete]
  rfl

/-! ## The entry into the chain (R96, R125, R126) -/

/-- How the chain of a parsed head of status st ends at once, where it does. -/
def State.endingAtEntry (s : State) (x : Frame) (st : Nat) : Option Ending :=
  if !(s.rb (hlwSliceCtl x.slice) 0) then some (.cause 14)
  else if 2 ≤ st then some (.cause 4)
  else if st = 1 ∧ !(s.rb (hlwPortCfg x.port) 8) then some (.cause 3)
  else none

theorem State.endingAtEntry_congr {s t : State} {x y : Frame} (regs : regsStand s t) (port : y.port = x.port)
    (st : Nat) : t.endingAtEntry y st = s.endingAtEntry x st := by
  have slice : y.slice = x.slice := congrArg (· / 32) port
  rw [State.endingAtEntry, State.endingAtEntry, slice, port,
    regs.rb 0 (offWrap_of_window (a := hlwSliceCtl x.slice) (by unfold hlwSliceCtl; omega)),
    regs.rb 8 (offWrap_of_window (a := hlwPortCfg x.port) (by unfold hlwPortCfg; omega))]

theorem State.endingAtEntry_fail (s : State) (x : Frame) : s.endingAtEntry x 2 =
    some (.cause (if s.rb (hlwSliceCtl x.slice) 0 = true then 4 else 14)) := by
  cases on : s.rb (hlwSliceCtl x.slice) 0 <;> simp [State.endingAtEntry, on]

theorem State.endingAtEntry_complete {s : State} {x : Frame} (on : s.rb (hlwSliceCtl x.slice) 0 = true) :
    s.endingAtEntry x 0 = none := by
  simp [State.endingAtEntry, on]

theorem State.frame_chainEnter {s : State} {f : Nat} (going : (s.frame f).head.ending = none) :
    (s.chainEnter f).frame f = { s.frame f with
      head := { (s.frame f).head with
        pos := .chain, stage := 0, remote := [], crow := false, members := []
        ending := s.endingAtEntry (s.frame f) ((s.frame f).head.get 99 98) } } := by
  rw [State.chainEnter, State.frame_setHead]
  simp only [going, Option.isSome_none, Bool.false_eq_true, if_false]
  rfl

theorem execParseComplete_waits {s : State} {f : Nat} (upset : Option (Nat × Ecc))
    (waits : (s.frame f).head.pos ≠ .parsing) : execParseComplete f upset s = .next s := if_pos waits

theorem execParseComplete_enters {s : State} {f : Nat} (parsing : (s.frame f).head.pos = .parsing) :
    execParseComplete f none s = .next ((s.parseHead f).chainEnter f) := if_neg fun waits => waits parsing

/-- A parsed head stands in its chain with its status and header vector, and its frame's bytes stand. -/
theorem State.enters_effect {s : State} {f st : Nat} (p : Parse) (reason : Nat) (port : (s.frame f).port < 512)
    (len : (s.frame f).len < 2 ^ 15) (st_lt : st < 4) (going : (s.frame f).head.ending = none) :
    let u := (s.closeParse f p st reason).chainEnter f
    (u.head f).pos = .chain ∧ (u.head f).get 99 98 = st ∧ (u.head f).hv = p.hv ∧
      (u.head f).ending = s.endingAtEntry (s.frame f) st ∧ (u.head f).stage = 0 ∧
      (u.frame f).data = (s.frame f).data := by
  intro u
  obtain ⟨h, closed, status, hv, ending⟩ := State.frame_closeParse p reason port len st_lt
  have entered : u.frame f = _ :=
    State.frame_chainEnter (s := s.closeParse f p st reason) (by rw [closed, ending, going])
  rw [closed, State.endingAtEntry_congr (regsStand.closeParse s f p st reason) rfl, status] at entered
  rw [State.head, entered]
  exact ⟨rfl, status, hv, rfl, rfl, rfl⟩

/-! ## Errors that stand in a word (R92, R93) -/

theorem State.eccOf_congr {s t : State} (h : t.ecc = s.ecc) (m : EccMem) (i : Nat) : t.eccOf m i = s.eccOf m i := by
  rw [State.eccOf, State.eccOf, h]

theorem State.eccOf_cons (s : State) (m : EccMem) (i : Nat) (u : Bool) (l : List (EccMem × Nat × Bool)) :
    { s with ecc := (m, i, u) :: l }.eccOf m i = if u then .uncorr else .corr := by
  simp [State.eccOf]

section
variable {s : State} {m : EccMem} {i : Nat}

theorem State.eccOf_eq_ok_iff : s.eccOf m i = .ok ↔ ∀ p ∈ s.ecc, ¬(p.1 = m ∧ p.2.1 = i) := by
  have none : s.eccOf m i = .ok ↔ (s.ecc.find? fun p => p.1 == m && p.2.1 == i) = none := by
    unfold State.eccOf
    split
    · next h => simp [h]
    · next h => split <;> simp [h]
  simp [none]

theorem State.eccOf_eccClear_of_ok {n : EccMem} {j : Nat} (good : s.eccOf n j = .ok) :
    (s.eccClear m i).eccOf n j = .ok := by
  rw [State.eccOf_eq_ok_iff] at good ⊢
  exact fun p hp => good p (List.mem_filter.1 hp).1

theorem State.eccOf_eccClear_same : (s.eccClear m i).eccOf m i = .ok := by
  rw [State.eccOf_eq_ok_iff]
  rintro p hp ⟨rfl, rfl⟩
  have kept := (List.mem_filter.1 hp).2
  rw [beq_self_eq_true, beq_self_eq_true] at kept
  exact Bool.false_ne_true kept

/-- An error that comes to a good word stands in it. -/
theorem State.eccOf_eccFlag (good : s.eccOf m i = .ok) (e : Ecc) : (s.eccFlag m i e).eccOf m i = e := by
  cases e
  case ok => exact good
  case corr =>
    simp only [State.eccFlag, good]
    exact State.eccOf_cons ..
  case uncorr => exact State.eccOf_cons ..

end

/-! ## The check of a store word (R92, R93) -/

section
variable {s : State} {k : Nat}

theorem State.eccOf_ucRead (m : EccMem) (i : Nat) : (s.ucRead k).1.eccOf m i = s.eccOf m i :=
  State.eccOf_congr ((s.ucRead_keeps k).same .ecc (by decide)) m i

/-- The error register of a slice stands when a report is made and the event counted. -/
theorem State.rd_thrSliceErr_report_count (src inst e : Nat) (info : Word) (sl : Nat) :
    ((s.report src inst info).count e inst 0).rd (thrSliceErr sl) = s.rd (thrSliceErr sl) := by
  have off : offWrap (thrSliceErr sl) = true := offWrap_of_window (by unfold thrSliceErr; omega)
  rw [State.rd_count _ _ _ _ off, State.rd_report _ _ _ _ off]

/-- A correctable error sets bit 0 of its slice's error register. -/
theorem State.rb_ucRead_corr (corr : s.eccOf .thr k = .corr) :
    (s.ucRead k).1.rb (thrSliceErr (k / 8192)) 0 = true := by
  simp only [State.ucRead, corr]
  rw [State.rb, State.rd_thrSliceErr_report_count]
  exact s.rb_setB _ 0 (by decide)

/-- An uncorrectable error sets bit 1 of its slice's error register and leaves its address there. -/
theorem State.rb_ucRead_uncorr (uncorr : s.eccOf .thr k = .uncorr) :
    (s.ucRead k).1.rb (thrSliceErr (k / 8192)) 1 = true ∧
      (s.ucRead k).1.rf (thrSliceErr (k / 8192)) 28 16 = k % 8192 := by
  simp only [State.ucRead, uncorr]
  rw [State.rb, State.rf, State.rd_thrSliceErr_report_count]
  constructor
  · refine (State.rb_wf _ _ _ _ _ 1 (by decide) (by decide) (by decide)).trans ?_
    exact s.rb_setB _ 1 (by decide)
  · refine (State.rf_wf _ _ _ _ _ (by decide) (by decide)).trans ?_
    exact Nat.mod_mod _ _

/-- What a scrub of a good word comes to, where the check finds `e`. -/
theorem execStoreScrub_finds {sl a : Nat} (good : s.eccOf .thr (sl * 8192 + a) = .ok) (e : Ecc) :
    ∃ u, execStoreScrub sl a e s = .next u ∧ onlyIn [.regs, .ecc, .mast] s u ∧ u =
      let s1 := ((s.eccFlag .thr (sl * 8192 + a) e).ucRead (sl * 8192 + a)).1
      if e = .corr then s1.eccClear .thr (sl * 8192 + a) else s1 := by
  obtain ⟨u, step, keeps⟩ := execStoreScrub_keeps s sl a e
  refine ⟨u, step, keeps.same, ?_⟩
  rw [execStoreScrub, State.eccOf_ucRead, State.eccOf_eccFlag good] at step
  exact (Host.Outcome.next.inj step).symm

end

/-! ## Numbers over several registers -/

theorem State.rdWide_congr {s t : State} {a n : Nat} (same : ∀ i < n, t.rd (a + 4 * i) = s.rd (a + 4 * i)) :
    t.rdWide a n = s.rdWide a n := by
  unfold State.rdWide upto
  have read : ∀ i ∈ List.range n, t.rdN (a + 4 * i) = s.rdN (a + 4 * i) := fun i hi => by
    rw [State.rdN, State.rdN, same i (List.mem_range.1 hi)]
  generalize List.range n = l at read
  induction l with
  | nil => rfl
  | cons i l ih =>
    rw [List.foldr_cons, List.foldr_cons, read i List.mem_cons_self, ih fun j hj => read j (List.mem_cons_of_mem i hj)]

/-- Registers that hold the words of a number, lowest first, hold the number. -/
theorem foldr_words (word : Nat → Nat) (v n acc : Nat) (words : ∀ i < n, word i = v / 2 ^ (32 * i) % 2 ^ 32) :
    (List.range n).foldr (fun i acc => word i + 2 ^ 32 * acc) acc = v % 2 ^ (32 * n) + 2 ^ (32 * n) * acc := by
  induction n generalizing acc with
  | zero => simp [Nat.mod_one]
  | succ n ih =>
    rw [List.range_succ, List.foldr_append, List.foldr_cons, List.foldr_nil,
      ih _ fun i hi => words i (Nat.lt_succ_of_lt hi), words n (Nat.lt_succ_self n), Nat.mul_succ, Nat.pow_add,
      Nat.mod_mul, Nat.mul_add, Nat.add_assoc, Nat.mul_assoc]

theorem State.rdN_wrWide (s : State) (a v : Nat) {i n : Nat} (hi : i < n) :
    (s.wrWide a n v).rdN (a + 4 * i) = v / 2 ^ (32 * i) % 2 ^ 32 := by
  induction n with
  | zero => exact absurd hi (Nat.not_lt_zero i)
  | succ n ih =>
    rw [State.wrWide, upto, List.range_succ, List.foldl_append, List.foldl_cons, List.foldl_nil, State.rdN]
    by_cases last : i = n
    · rw [last, State.rd_wrN, BitVec.toNat_ofNat]
    · rw [State.rd_wrN_ne _ _ (by omega)]
      exact ih (by omega)

/-- A number written over registers that have room for it is read back. -/
theorem State.rdWide_wrWide (s : State) (a n v : Nat) (fits : v < 2 ^ (32 * n)) : (s.wrWide a n v).rdWide a n = v := by
  have words := foldr_words (fun i => (s.wrWide a n v).rdN (a + 4 * i)) v n 0 fun i hi => s.rdN_wrWide a v hi
  rw [Nat.mod_eq_of_lt fits, Nat.mul_zero, Nat.add_zero] at words
  exact words

/-! ## A word in the store (R89) -/

/-- A word is written whole into the store, and no error stands in it. -/
def State.storeWord (s : State) (k : Nat) (w : BitVec 256) : State :=
  let t := s.eccClear .thr k
  { t with pipe := { t.pipe with store := tset 0 t.pipe.store k w } }

theorem State.storeWord_keeps (s : State) (k : Nat) (w : BitVec 256) : Keeps [.ecc, .pipe] s (s.storeWord k w) :=
  Keeps.put_pipe rfl ((s.eccClear_keeps .thr k).mono rfl)

@[simp] theorem State.rd_storeWord (s : State) (k : Nat) (w : BitVec 256) (b : Nat) :
    (s.storeWord k w).rd b = s.rd b := rfl

theorem State.ucWord_storeWord (s : State) (k : Nat) (w : BitVec 256) (j : Nat) :
    (s.storeWord k w).ucWord j = if j = k then w else s.ucWord j := by
  by_cases same : j = k
  · rw [if_pos same, same]
    exact tget_tset_same _ _ _ _
  · rw [if_neg same]
    exact tget_tset_ne _ _ _ _ _ _ same

theorem State.each_cons {α : Type} (s : State) (x : α) (l : List α) (step : State → α → State) :
    s.each (x :: l) step = (step s x).each l step := rfl

section
variable {s : State} {a : Nat} {w : BitVec 256} {l : List Nat}

theorem State.each_storeWord_keeps : Keeps [.ecc, .pipe] s (s.each l fun t sl => t.storeWord (sl * 8192 + a) w) :=
  .each (.refl s) fun t _ h => h.trans (t.storeWord_keeps _ w)

/-- The word stands at its address in the store of every slice named, and other words stand as before. -/
theorem State.ucWord_each_storeWord (j : Nat) : (s.each l fun t sl => t.storeWord (sl * 8192 + a) w).ucWord j =
    if ∃ sl ∈ l, j = sl * 8192 + a then w else s.ucWord j := by
  induction l generalizing s with
  | nil => simp [State.each]
  | cons sl l ih =>
    rw [State.each_cons, ih, State.ucWord_storeWord]
    by_cases here : j = sl * 8192 + a <;> simp [here]

/-- A good word stays good, and a word that is written becomes good. -/
theorem State.eccOf_each_storeWord {j : Nat} (good : s.eccOf .thr j = .ok ∨ ∃ sl ∈ l, j = sl * 8192 + a) :
    (s.each l fun t sl => t.storeWord (sl * 8192 + a) w).eccOf .thr j = .ok := by
  induction l generalizing s with
  | nil => simpa [State.each] using good
  | cons sl l ih =>
    refine ih (s := s.storeWord (sl * 8192 + a) w) ?_
    rcases good with good | ⟨sl', named, rfl⟩
    · exact .inl (State.eccOf_eccClear_of_ok good)
    · rcases List.mem_cons.1 named with rfl | later
      · exact .inl State.eccOf_eccClear_same
      · exact .inr ⟨sl', later, rfl⟩

end

/-! ## THR_UC_CMD (R89, R90) -/

theorem mem_maskSlices {m k : Nat} : k ∈ maskSlices m ↔ k < 16 ∧ m.testBit k = true := by
  simp [maskSlices, upto]

theorem State.wakeSlice_awake {s : State} {sl : Nat} (awake : s.sliceGated sl = false) : s.wakeSlice sl = s :=
  if_pos (by simp [awake])

theorem State.inject_idle {s : State} {win lo hi i : Nat} {m : EccMem} (idle : s.rf mstInjCtl 26 24 = 0) :
    s.inject win lo hi m i = s := by
  rw [State.inject, idle]
  exact if_neg (by simp)

section
variable {s : State} {a mask : Nat} {w : BitVec 256}

/-- A word that fails a check of R82 is refused with its reason. -/
theorem State.ucPut_refused (bad : ucCheck w ≠ 0) :
    (s.ucPut a mask w).1 = ((s.setB thrUcStatus 0).wf thrUcStatus 15 8 (ucCheck w)).count evThrUcReject 0 0 :=
  congrArg Prod.fst (if_pos bad)

theorem ucCheck_lt (w : BitVec 256) : ucCheck w < 10 := by
  unfold ucCheck
  dsimp only
  repeat' split
  all_goals decide

theorem State.ucPut_refused_keeps (bad : ucCheck w ≠ 0) : Keeps [.regs, .mast] s (s.ucPut a mask w).1 := by
  rw [State.ucPut_refused bad]
  exact (State.count_keeps _ _ _ _).after rfl ((State.wf_keeps _ _ _ _ _).after rfl ((s.setB_keeps _ _).mono rfl))

theorem State.thrUcStatus_ucPut_refused (bad : ucCheck w ≠ 0) :
    (s.ucPut a mask w).1.rb thrUcStatus 0 = true ∧ (s.ucPut a mask w).1.rf thrUcStatus 15 8 = ucCheck w := by
  have off : offWrap thrUcStatus = true := by decide
  rw [State.ucPut_refused bad, State.rb, State.rf, State.rd_count _ _ _ _ off]
  constructor
  · refine (State.rb_wf _ _ _ _ _ 0 (by decide) (by decide) (by decide)).trans ?_
    exact s.rb_setB _ 0 (by decide)
  · refine (State.rf_wf _ _ _ _ _ (by decide) (by decide)).trans ?_
    exact Nat.mod_eq_of_lt (Nat.lt_trans (ucCheck_lt w) (by decide))

/-- A word that passes is put into the store of slice sl. -/
def State.ucPutSlice (s : State) (a : Nat) (w : BitVec 256) (sl : Nat) : State :=
  ((s.wakeSlice sl).storeWord (sl * 8192 + a) w).inject 0x06 0x20 0x40 .thr (sl * 8192 + a)

theorem State.ucPut_accepted (good : ucCheck w = 0) :
    (s.ucPut a mask w).1 = s.each (maskSlices mask) fun t sl => t.ucPutSlice a w sl :=
  congrArg Prod.fst (if_neg fun bad => bad good)

/-- While the slices are awake and no injection is due, the word is written and nothing else happens. -/
theorem State.each_ucPutSlice {l : List Nat} (idle : s.rf mstInjCtl 26 24 = 0)
    (awake : ∀ sl ∈ l, s.sliceGated sl = false) :
    (s.each l fun t sl => t.ucPutSlice a w sl) = s.each l fun t sl => t.storeWord (sl * 8192 + a) w := by
  induction l generalizing s with
  | nil => rfl
  | cons sl l ih =>
    have step : s.ucPutSlice a w sl = s.storeWord (sl * 8192 + a) w := by
      rw [State.ucPutSlice, State.wakeSlice_awake (awake sl List.mem_cons_self), State.inject_idle]
      rwa [State.rf, State.rd_storeWord]
    rw [State.each_cons, State.each_cons, step, ih]
    · rwa [State.rf, State.rd_storeWord]
    · intro k hk
      rw [State.sliceGated, State.rb, State.rd_storeWord]
      exact awake k (List.mem_cons_of_mem sl hk)

end

section
variable {s : State} {v : Word}

theorem State.ucCmdWrite_busy (busy : s.rb thrUcCmd 31 = true) : s.ucCmdWrite v = s.setB thrUcStatus 1 := if_pos busy

variable (idle : s.rb thrUcCmd 31 = false) (named : fld v 15 0 ≠ 0)
include idle named

theorem State.ucCmdWrite_write (op : fld v 30 29 = 1) : s.ucCmdWrite v = ((s.plainWrite thrUcCmd v).ucPut (fld v 28 16)
    (fld v 15 0) (BitVec.ofNat 256 (s.rdWide (thrUcData 0) 8))).1 := by
  have data : (s.plainWrite thrUcCmd v).rdWide (thrUcData 0) 8 = s.rdWide (thrUcData 0) 8 :=
    State.rdWide_congr fun i _ => s.rd_plainWrite_ne v (by unfold thrUcData thrUcCmd; omega)
  simp [State.ucCmdWrite, idle, op, named, data]

theorem State.ucCmdWrite_read (op : fld v 30 29 = 2)
    (awake : s.sliceGated ((maskSlices (fld v 15 0)).headD 0) = false) : s.ucCmdWrite v =
      (s.plainWrite thrUcCmd v).wrWide (thrUcData 0) 8
        (s.ucWord ((maskSlices (fld v 15 0)).headD 0 * 8192 + fld v 28 16)).toNat := by
  have gate : (s.plainWrite thrUcCmd v).sliceGated ((maskSlices (fld v 15 0)).headD 0) = false := by
    rwa [State.sliceGated, State.rb, s.rd_plainWrite_ne v (by decide)]
  have store (k : Nat) : (s.plainWrite thrUcCmd v).ucWord k = s.ucWord k :=
    congrArg (fun p : Pipe => tget 0 p.store k) ((s.plainWrite_keeps thrUcCmd v).same .pipe (by decide))
  simp only [State.ucCmdWrite, idle, op, named, State.wakeSlice_awake gate, store]
  rfl

end

/-- An operation code put into a command leaves its slices and its address. -/
theorem fld_setFld_op (v : Word) {op : Nat} (fits : op < 4) : fld (setFld v 30 29 op) 30 29 = op ∧
    fld (setFld v 30 29 op) 15 0 = fld v 15 0 ∧ fld (setFld v 30 29 op) 28 16 = fld v 28 16 := by
  refine ⟨?_, ?_, ?_⟩
  · rw [fld_setFld_same _ _ _ _ (by decide) (by decide)]
    exact Nat.mod_eq_of_lt fits
  · exact fld_setFld_ne _ _ _ _ _ _ (by decide) (by decide) (by decide) (by decide)
  · exact fld_setFld_ne _ _ _ _ _ _ (by decide) (by decide) (by decide) (by decide)

section
variable {s : State} {v : Word} (idle : s.rb thrUcCmd 31 = false) (named : fld v 15 0 ≠ 0)
include idle named

theorem execUcWrite_idle : execUcWrite v s = .next ((s.plainWrite thrUcCmd (setFld v 30 29 1)).ucPut (fld v 28 16)
    (fld v 15 0) (BitVec.ofNat 256 (s.rdWide (thrUcData 0) 8))).1 := by
  obtain ⟨op, slices, address⟩ := fld_setFld_op v (op := 1) (by decide)
  rw [← slices] at named
  rw [execUcWrite, State.ucCmdWrite_write idle named op, slices, address]

theorem execUcRead_idle (awake : s.sliceGated ((maskSlices (fld v 15 0)).headD 0) = false) : execUcRead v s =
    .next ((s.plainWrite thrUcCmd (setFld v 30 29 2)).wrWide (thrUcData 0) 8
      (s.ucWord ((maskSlices (fld v 15 0)).headD 0 * 8192 + fld v 28 16)).toNat) := by
  obtain ⟨op, slices, address⟩ := fld_setFld_op v (op := 2) (by decide)
  rw [← slices] at named awake
  rw [execUcRead, State.ucCmdWrite_read idle named op awake, slices, address]

end

end Sys2Proof.Machine

section
open Sys2Proof Sys2Proof.Machine

/-- Settles O26: a head is followed from its slot over its parse into its chain, a command of the store through its one
branch, and a scrub through what the check finds. -/
theorem thresholdHeadsAndStore : Obligations.ThresholdHeadsAndStore := by
  unfold Obligations.ThresholdHeadsAndStore
  refine ⟨fun f s => ⟨?waits, ?reenters, ?parses⟩, fun f s => ⟨?notParsing, ?off, ?complete⟩,
    fun v s => ⟨?busy, ?refused, ?written, ?read⟩, fun sl a s ha good => ⟨?clean, ?corrected, ?reported⟩⟩
  case waits => exact execHeadAccept_waits
  case reenters =>
    intro slot takes entry
    refine ⟨_, execHeadAccept_reenters slot takes entry, ?_, s.slots_leaveSlot f _⟩
    rw [State.head_setHead]
  case parses =>
    intro slot takes entry
    let t := (s.leaveSlot f (s.frame f).slice).setHead f (s.accepted (s.frame f))
    have pipe : ((t.freeBuf f).count evThrHeads (s.frame f).slice 0).pipe = (t.freeBuf f).pipe :=
      State.pipe_count _ _ _ _
    obtain ⟨head, slices, number⟩ := t.freeBuf_effect f
    obtain ⟨pos, seq, start, profile, running, next, tc, gen, cause⟩ := s.accepted_effect entry
    refine ⟨_, execHeadAccept_parses slot takes (by omega), ?_⟩
    rw [State.head, State.frame_congr pipe, ← State.head, head, State.head_setHead, State.sl_congr pipe, slices]
    refine ⟨pos, seq, ?_, start, profile, running, next, tc, gen, cause, s.slots_leaveSlot f _⟩
    exact (congrArg Pipe.nextSeq pipe).trans number
  case notParsing => exact fun upset => execParseComplete_waits upset
  case off =>
    intro parsing off going port len
    obtain ⟨pos, status, -, ending, -, data⟩ :=
      State.enters_effect (s := s) { Parse.start 0 with steps := 1 } 7 port len (st := 2) (by decide) going
    refine ⟨_, (execParseComplete_enters parsing).trans (by rw [State.parseHead_off off]), pos, status, ?_, data⟩
    rw [ending, State.endingAtEntry_fail]
  case complete =>
    intro q parsing running going port len good on complete
    obtain ⟨pos, status, hv, ending, stage, data⟩ :=
      State.enters_effect (s := s) q 0 port len (st := 0) (by decide) going
    refine ⟨_, (execParseComplete_enters parsing).trans (by rw [State.parseHead_firstWord running good complete]),
      pos, status, hv, ?_, stage, data⟩
    rw [ending, State.endingAtEntry_complete on]
  case busy => exact fun busy => ⟨congrArg _ (State.ucCmdWrite_busy busy), congrArg _ (State.ucCmdWrite_busy busy)⟩
  case refused =>
    intro idle named bad
    obtain ⟨flag, reason⟩ := State.thrUcStatus_ucPut_refused (s := s.plainWrite thrUcCmd (setFld v 30 29 1))
      (a := fld v 28 16) (mask := fld v 15 0) bad
    have keeps := ((s.plainWrite_keeps thrUcCmd (setFld v 30 29 1)).mono rfl).trans
      (State.ucPut_refused_keeps (a := fld v 28 16) (mask := fld v 15 0) bad)
    refine ⟨_, execUcWrite_idle idle named, ?_, flag, reason, keeps.same⟩
    exact congrArg Pipe.store (keeps.same .pipe (by decide))
  case written =>
    intro idle named good inject awake
    let t := s.plainWrite thrUcCmd (setFld v 30 29 1)
    have regs {b : Nat} (h : b ≠ thrUcCmd) : t.rd b = s.rd b := s.rd_plainWrite_ne _ h
    have kept := s.plainWrite_keeps thrUcCmd (setFld v 30 29 1)
    have inject' : t.rf mstInjCtl 26 24 = 0 := by rwa [State.rf, regs (by decide)]
    have awake' : ∀ k ∈ maskSlices (fld v 15 0), t.sliceGated k = false := fun k hk => by
      rw [State.sliceGated, State.rb, regs (by decide)]
      exact awake k (mem_maskSlices.1 hk).1 (mem_maskSlices.1 hk).2
    refine ⟨_, execUcWrite_idle idle named, ?_⟩
    rw [State.ucPut_accepted good, State.each_ucPutSlice inject' awake']
    refine ⟨fun k hk bit => ?_, fun j other => ?_, (State.each_storeWord_keeps.after rfl (kept.mono rfl)).same⟩
    · have here := mem_maskSlices.2 ⟨hk, bit⟩
      exact ⟨(State.ucWord_each_storeWord _).trans (if_pos ⟨k, here, rfl⟩),
        State.eccOf_each_storeWord (.inr ⟨k, here, rfl⟩)⟩
    · refine (State.ucWord_each_storeWord j).trans ((if_neg ?_).trans ?_)
      · rintro ⟨k, hk, at_k⟩
        exact other k (mem_maskSlices.1 hk).1 (mem_maskSlices.1 hk).2 at_k
      · exact congrArg (fun p : Pipe => tget 0 p.store j) (kept.same .pipe (by decide))
  case read =>
    intro idle named awake
    exact ⟨_, execUcRead_idle idle named awake, State.rdWide_wrWide _ _ _ _ (BitVec.isLt _),
      ((State.wrWide_keeps _ _ _ _).after rfl (s.plainWrite_keeps _ _)).same⟩
  case clean =>
    obtain ⟨u, step, -, rfl⟩ := execStoreScrub_finds good .ok
    exact step.trans (congrArg (fun r : State × Bool => Host.Outcome.next r.1) (State.ucRead_ok good))
  case corrected =>
    obtain ⟨u, step, only, rfl⟩ := execStoreScrub_finds good .corr
    have flag := State.rb_ucRead_corr (State.eccOf_eccFlag good .corr)
    have slice : (sl * 8192 + a) / 8192 = sl := by omega
    rw [slice] at flag
    exact ⟨_, step, State.eccOf_eccClear_same, flag, only⟩
  case reported =>
    obtain ⟨u, step, only, rfl⟩ := execStoreScrub_finds good .uncorr
    have found := State.eccOf_eccFlag good .uncorr
    obtain ⟨flag, address⟩ := State.rb_ucRead_uncorr found
    have slice : (sl * 8192 + a) / 8192 = sl := by omega
    rw [slice] at flag address
    exact ⟨_, step, (State.eccOf_ucRead _ _).trans found, flag, address.trans (by omega), only⟩

end

/-! PROOFS. The calls of Crowsnest: how they are answered, its record cache and its load samples (R199, R210 to R219,
R325). -/

namespace Sys2Proof.Machine

/-! ## A lookup of a head that changes (R108) -/

section
variable (s : State) (f id : Nat)

@[simp] theorem State.head_setRemote (g : Remote → Remote) : (s.setRemote f id g).head f =
    { s.head f with remote := (s.head f).remote.map fun q => if q.id = id then g q else q } :=
  s.head_setHead f _

/-- The lookup has been answered with a class and a reason, for the members `ms`, and nothing else of the head's lookups
changed. -/
def State.answered (u : State) (cls reason : Nat) (ms : List Member) : Prop := ∃ place : BitVec 128,
  (u.head f).remote = ((s.head f).remote.map fun q =>
    if q.id = id then { q with taken := true, found := some (.crow cls place ms []) } else q) ∧
  bits place.toNat 33 31 = cls ∧ bits place.toNat 41 34 = reason

/-- A call that is taken up before it is answered is answered all the same. -/
theorem State.answered_of_taken {s t u : State} {f id cls reason : Nat} {ms : List Member}
    (taken : (t.head f).remote = (s.head f).remote.map fun q => if q.id = id then { q with taken := true } else q)
    (h : t.answered f id u cls reason ms) : s.answered f id u cls reason ms := by
  obtain ⟨place, remote, hc, hr⟩ := h
  refine ⟨place, ?_, hc, hr⟩
  rw [remote, taken, List.map_map]
  refine List.map_congr_left fun q _ => ?_
  by_cases h : q.id = id <;> simp [h]

end

/-! ## The word of an answer (R216) -/

/-- Class and reason stand in the word where the fields below them fit. -/
theorem bits_placeWord {kind dest chkEn prof count cls reason : Nat} (hk : kind < 8) (hd : dest < 65536)
    (he : chkEn < 2) (hp : prof < 64) (hn : count < 32) (hc : cls < 8) (hr : reason < 256)
    (g epoch target st inVer pos stale outVer list mark : Nat) :
    let p := placeWord kind dest chkEn prof count cls reason g epoch target st inVer pos stale outVer list mark
    bits p.toNat 33 31 = cls ∧ bits p.toNat 41 34 = reason := by
  simp only [placeWord, bits, BitVec.toNat_ofNat]
  omega

/-! ## Answers of at most one member (R213 to R222) -/

/-- The verdict needs no placement set and reports nothing, and its numbers fit their fields. -/
structure Verdict.plain (v : Verdict) : Prop where
  few : v.members.length < 2
  ports : ∀ m ∈ v.members, m.dest < 512
  silent : v.report = []
  cls : v.cls < 8
  reason : v.reason < 256
  prof : v.prof = 0

theorem Verdict.plain_refusal {cls reason : Nat} (stale : Bool) (hc : cls < 8) (hr : reason < 256) :
    (refusal cls reason stale).plain :=
  ⟨by simp [refusal], by simp [refusal], rfl, hc, hr, rfl⟩

/-- The placement set of an answer that needs one. -/
def State.answerSet (s : State) (v : Verdict) : State × Option Nat :=
  if 2 ≤ v.members.length then s.setAlloc v.members else (s, none)

/-- No placement set is free for an answer that needs one. -/
def State.setsFull (s : State) (v : Verdict) : Bool := decide (2 ≤ v.members.length) && (s.answerSet v).2.isNone

/-- The verdict as it is answered. -/
def State.answerVerdict (s : State) (v : Verdict) : Verdict := if s.setsFull v then refusal 6 0x31 v.stale else v

/-- The frame holds the placement set of its answer. -/
def State.holdSet (s : State) (f : Nat) (set : Option Nat) : State :=
  match set with
  | some k =>
    { s with crw := { s.crw with sets := tmod ⟨[], 0⟩ s.crw.sets k fun p => { p with refs := p.refs + 1 } } }.setFrame
      f { s.frame f with sets := k :: (s.frame f).sets }
  | none => s

theorem State.holdSet_none (s : State) (f : Nat) : s.holdSet f none = s := rfl

/-- The PLACE area of an answer. -/
def State.answerPlace (s : State) (f : Nat) (set : Option Nat) (rc : Option (Nat × List Byte)) (v : Verdict) :
    BitVec 128 :=
  let first : Member := v.members.headD ⟨0, 0, 0, false, 0⟩
  let many := decide (2 ≤ v.members.length)
  let st := match rc with | some (_, r) => rState r | none => 0
  placeWord (if v.members.isEmpty then 0 else if many then 2 else if first.dest < 512 then 1 else 3)
    (match set with
      | some k => 0xC000 + k
      | none => if first.dest < 512 then first.dest else first.dest - 512)
    (nat v.chkEn) v.prof v.members.length v.cls v.reason (match rc with | some (g, _) => g | none => 0)
    (match rc with
      | some (_, r) => if st = 0 then 0 else if st = 1 then rEpoch r else (rEpoch r + 1) % 2 ^ 32
      | none => 0) first.target st ((s.head f).shimVer % 4) first.pos (nat v.stale)
    (if many then 0 else first.outVer) (nat first.pend) (nat (decide (v.cls ≤ 2) && s.rb crwMigStatus 3))

/-- The answer is counted by class and reason, by a stale epoch and by the members `l` that the verdict reports. -/
def State.answerCounted (s : State) (sl : Nat) (l : List (Nat × Nat × Nat)) (v : Verdict) : State :=
  let s1 := s.count evCrwClass sl v.cls
  let s2 := if v.reason ≠ 0 then s1.count evCrwReason 0 v.reason else s1
  (if v.stale then s2.count evCrwEpochStale 0 0 else s2).each l fun t e =>
    if e.2.2 % 128 = 2 then t.count evCrwSubstitute 0 0
    else if e.2.2 % 128 = 3 then t.count evCrwDownMissing 0 0 else t

/-- The answer has been counted, and a version-3 frame of a stale epoch is told so. -/
def State.answerNoted (s : State) (f : Nat) (x : Frame) (l : List (Nat × Nat × Nat)) (v : Verdict) : State :=
  let t := s.answerCounted x.slice l v
  if v.stale ∧ decide (v.cls ≤ 2) ∧ x.head.shimVer = 3 then
    t.setFrame f { t.frame f with events := (t.frame f).events ++ [(4, 0)] }
  else t

theorem State.crwAnswer_eq (s : State) (f id : Nat) (rc : Option (Nat × List Byte)) (v : Verdict) :
    s.crwAnswer f id rc v =
      let w := s.answerVerdict v
      let set := (s.answerSet v).2
      (((((if s.setsFull v then s else (s.answerSet v).1).takeMark f w.cls).holdSet f set).answerNoted f (s.frame f)
        v.report w).remoteFound f id
          (.crow w.cls (s.answerPlace f set rc w) w.members (if decide (w.cls ≤ 2) then w.report else []))) :=
  rfl

section
variable (s : State) (f : Nat)

theorem State.head_congr {s t : State} (h : t.pipe = s.pipe) (f : Nat) : t.head f = s.head f :=
  congrArg Frame.head (State.frame_congr h f)

theorem State.answerCounted_keeps (sl : Nat) (l : List (Nat × Nat × Nat)) (v : Verdict) :
    Keeps [.regs, .mast] s (s.answerCounted sl l v) := by
  have counted {t : State} (e o i : Nat) (h : Keeps [.regs, .mast] s t) : Keeps [.regs, .mast] s (t.count e o i) :=
    (t.count_keeps e o i).after rfl h
  have byClass := s.count_keeps evCrwClass sl v.cls
  have byReason : Keeps [.regs, .mast] s (if v.reason ≠ 0 then _ else _) :=
    .ite (counted evCrwReason 0 v.reason byClass) byClass
  have byEpoch : Keeps [.regs, .mast] s (if v.stale then _ else _) := .ite (counted evCrwEpochStale 0 0 byReason) byReason
  exact byEpoch.each fun _ _ h => .ite (counted _ _ _ h) (.ite (counted _ _ _ h) h)

theorem State.answerNoted_keeps (x : Frame) (l : List (Nat × Nat × Nat)) (v : Verdict) :
    Keeps [.regs, .mast, .pipe] s (s.answerNoted f x l v) :=
  have counted := (s.answerCounted_keeps x.slice l v).mono rfl
  .ite ((State.setFrame_keeps _ f _).after rfl counted) counted

theorem State.head_dropMark : (s.dropMark f).head f = s.head f := by
  unfold State.dropMark
  split
  · rfl
  · rw [State.head, State.frame_setFrame, State.head]

theorem State.head_takeMark (cls : Nat) : (s.takeMark f cls).head f = s.head f := by
  unfold State.takeMark
  dsimp only
  split
  · exact s.head_dropMark f
  · rw [State.head, State.frame_setFrame]
    exact s.head_dropMark f

theorem State.head_answerNoted (x : Frame) (l : List (Nat × Nat × Nat)) (v : Verdict) :
    (s.answerNoted f x l v).head f = s.head f := by
  have counted := State.head_congr ((s.answerCounted_keeps x.slice l v).same .pipe (by decide)) f
  unfold State.answerNoted
  dsimp only
  split
  · rw [State.head, State.frame_setFrame]
    exact counted
  · exact counted

theorem State.crwAnswer_plain (id : Nat) (rc : Option (Nat × List Byte)) {v : Verdict} (plain : v.plain) :
    s.crwAnswer f id rc v = ((s.takeMark f v.cls).answerNoted f (s.frame f) [] v).remoteFound f id
      (.crow v.cls (s.answerPlace f none rc v) v.members []) := by
  have one : ¬ 2 ≤ v.members.length := Nat.not_le.2 plain.few
  have set : s.answerSet v = (s, none) := if_neg one
  have free : s.setsFull v = false := by rw [State.setsFull, decide_eq_false one, Bool.false_and]
  have same : s.answerVerdict v = v := by rw [State.answerVerdict, free, if_neg Bool.false_ne_true]
  simp only [State.crwAnswer_eq, set, free, same, plain.silent, ite_self, State.holdSet_none]

theorem State.answered_crwAnswer (id : Nat) (rc : Option (Nat × List Byte)) {v : Verdict} (plain : v.plain) :
    s.answered f id (s.crwAnswer f id rc v) v.cls v.reason v.members := by
  refine ⟨s.answerPlace f none rc v, ?_, ?_⟩
  · rw [s.crwAnswer_plain f id rc plain, State.remoteFound, State.head_setRemote, State.head_answerNoted,
      State.head_takeMark]
  · have port : (v.members.headD ⟨0, 0, 0, false, 0⟩).dest < 512 := by
      cases h : v.members with
      | nil => decide
      | cons m l => exact plain.ports m (h ▸ List.mem_cons_self)
    have few := plain.few
    refine bits_placeWord ?_ ?_ (nat_lt_two _) (by rw [plain.prof]; decide) (by omega) plain.cls plain.reason ..
    · repeat' split
      all_goals decide
    · exact Nat.lt_of_le_of_lt (Nat.le_of_eq (if_pos port)) (by omega)

/-- Such an answer changes nothing of Crowsnest. -/
theorem State.crwAnswer_plain_keeps (id : Nat) (rc : Option (Nat × List Byte)) {v : Verdict} (plain : v.plain) :
    Keeps [.regs, .mast, .pipe] s (s.crwAnswer f id rc v) := by
  rw [s.crwAnswer_plain f id rc plain]
  exact (State.remoteFound_keeps _ f id _).after rfl
    ((State.answerNoted_keeps _ f _ _ v).after rfl ((s.takeMark_keeps f v.cls).mono rfl))

end

/-! ## What a read choice and a version depend on (R204, R219, R224) -/

/-- The targets, their loads and the registers stand: reads are placed in `t` as in `s`. -/
structure placesAlike (s t : State) : Prop where
  regs : regsStand s t
  stw : t.stw = s.stw
  roster : t.crw.roster = s.crw.roster
  peers : t.crw.peers = s.crw.peers
  loads : t.crw.loads = s.crw.loads
  setLoads : t.crw.setLoads = s.crw.setLoads

section
variable {s t : State} (alike : placesAlike s t)
include alike

theorem placesAlike.tgt (id : Nat) : t.tgt id = s.tgt id := by rw [State.tgt, State.tgt, alike.roster]

theorem placesAlike.crwPeer (n : Nat) : t.crwPeer n = s.crwPeer n := by rw [State.crwPeer, State.crwPeer, alike.peers]

theorem placesAlike.live (id : Nat) : t.live id = s.live id := by
  simp only [State.live, alike.tgt, alike.crwPeer]

theorem placesAlike.egressOf (id : Nat) : t.egressOf id = s.egressOf id := by
  rw [State.egressOf, State.egressOf, alike.tgt]

theorem placesAlike.readLoad (id : Nat) : t.readLoad id = s.readLoad id := by
  have cfg := alike.regs.rf (a := crwReadCfg) 18 16 (by decide)
  have pen := alike.regs.rf (a := crwReadPen) 15 0 (by decide)
  simp only [State.readLoad, alike.tgt, alike.live, alike.loads, alike.setLoads, cfg, pen]

theorem placesAlike.readOk (id : Nat) : t.readOk id = s.readOk id := by rw [State.readOk, State.readOk, alike.live]

theorem placesAlike.readPick (l : List Nat) (n : Nat) : t.readPick l n = s.readPick l n := by
  have cfg := alike.regs.rf (a := crwReadCfg) 15 0 (by decide)
  simp only [State.readPick, alike.readOk, alike.readLoad, cfg]

theorem placesAlike.crwReplicas : t.crwReplicas = s.crwReplicas := alike.regs.rf 22 19 (by decide)

theorem placesAlike.portVers (n : Nat) : t.portVers n = s.portVers n := by
  have hello := alike.regs.rf (a := pchHelloCfg n) 22 20 (offWrap_of_window (by unfold pchHelloCfg; omega))
  have versions := alike.regs.rf (a := pchHelloGlobal) 15 0 (by decide)
  simp only [State.portVers, alike.crwPeer, hello, versions]

theorem placesAlike.placedVersion (id : Nat) (b : List Byte) (chkEn : Bool) :
    t.placedVersion id b chkEn = s.placedVersion id b chkEn := by
  have xlate (n : Nat) := alike.regs.rb (a := crwPortXlate n) 0 (offWrap_of_window (by unfold crwPortXlate; omega))
  have append (n : Nat) := alike.regs.rb (a := chkPortCfg n) 0 (offWrap_of_window (by unfold chkPortCfg; omega))
  have group (g : Nat) : t.firstPort g = s.firstPort g := by rw [State.firstPort, State.firstPort, alike.stw]
  simp only [State.placedVersion, alike.tgt, alike.portVers, xlate, append, group]

end

/-! ## What a record makes of a read (R218 to R220, R226) -/

/-- A record that is EMPTY refuses. -/
theorem State.verdict_empty (s : State) (b : List Byte) {r : List Byte} (empty : rState r = 0) :
    s.verdict b r = refusal 3 1 false := if_pos empty

theorem State.readPick_nil (s : State) (n : Nat) : s.readPick [] n = none := by
  rw [State.readPick, List.length_nil, Nat.min_zero]
  rfl

/-- The verdict that places a whole object at position `i` of a STABLE record. -/
def State.getVerdict (s : State) (b r : List Byte) (i : Nat) : Verdict :=
  let t := (rCur r).getD i 0xFFFF
  ⟨1, 0, false, [⟨t, s.egressOf t, i, false, (s.placedVersion t b false).1⟩], [], false, 0⟩

theorem State.plain_getVerdict {s : State} {b r : List Byte} {i : Nat}
    (port : s.egressOf ((rCur r).getD i 0xFFFF) < 512) : (s.getVerdict b r i).plain :=
  ⟨Nat.one_lt_two, by simpa [State.getVerdict] using port, rfl, show 1 < 8 by decide, show 0 < 256 by decide, rfl⟩

theorem placesAlike.getVerdict {s t : State} (alike : placesAlike s t) (b r : List Byte) (i : Nat) :
    t.getVerdict b r i = s.getVerdict b r i := by
  simp only [State.getVerdict, alike.egressOf, alike.placedVersion]

/-- A whole-object GET of a STABLE record, with no epoch, goes to the target of the read choice. -/
theorem State.verdict_get (s : State) {b r : List Byte} {i : Nat} (stable : rState r = 1) (get : shimOp b = 1)
    (noEpoch : shimEpoch b = 0) (whole : shimFrag b = 0xFF) (anyVersion : (shimRflags b).testBit 1 = false)
    (pick : s.readPick (rCur r) (if (shimRflags b).testBit 3 then 1 else s.crwReplicas) = some i)
    (made : (s.placedVersion ((rCur r).getD i 0xFFFF) b false).2 = 0) : s.verdict b r = s.getVerdict b r i := by
  have listed : (rCur r).isEmpty = false := by
    rw [List.isEmpty_eq_false_iff]
    intro nil
    rw [nil, s.readPick_nil] at pick
    cases pick
  have read : s.verdict b r = s.readVerdict b r false := by simp [State.verdict, stable, get, noEpoch]
  rw [List.getD_eq_getElem?_getD] at made
  rw [read]
  simp [State.readVerdict, State.getVerdict, State.withVersions, versionCheck, stable, whole, listed, pick, anyVersion,
    made]

/-! ## The record cache (R210) -/

/-- What has been taken out by its index is not found. -/
theorem find?_filter_ne {α : Type} (l : List (Nat × α)) (g : Nat) :
    (l.filter fun p => p.1 != g).find? (fun p => p.1 == g) = none := by
  simp

section
variable {s t : State} {g : Nat}

theorem State.cached_congr (h : t.crw.cache = s.crw.cache) (g : Nat) : t.cached g = s.cached g := by
  rw [State.cached, State.cached, h]

theorem State.cached_setCache (s : State) (g : Nat) (l : List (Nat × List Byte)) :
    (s.setCache (g % 8192) l).cached g = (l.find? fun p => p.1 == g).map (·.2) := by
  rw [State.cached, State.setCache, tget_tput_same]

theorem State.cached_cacheFill (s : State) (g : Nat) (b : List Byte) : (s.cacheFill g b).cached g = some b := by
  rw [State.cacheFill, State.cached_setCache, List.take_succ_cons, List.find?_cons, beq_self_eq_true]
  rfl

theorem State.missQ_cacheFill (s : State) (g : Nat) (b : List Byte) : (s.cacheFill g b).crw.missQ = s.crw.missQ := by
  unfold State.cacheFill
  dsimp only
  split <;> rfl

theorem State.cached_cacheDrop (s : State) (g : Nat) : (s.cacheDrop g).cached g = none := by
  rw [State.cacheDrop, State.cached_setCache, find?_filter_ne]
  rfl

/-- Bit `i` of CRW_ERR is set, and the error of group `g` is reported and counted. -/
def State.cacheErrorTold (s : State) (i src e g : Nat) : State :=
  ((s.setB crwErr i).report src 0 (BitVec.ofNat 32 g)).count e 0 0

theorem State.cacheErrorTold_keeps (s : State) (i src e g : Nat) :
    Keeps [.regs, .mast] s (s.cacheErrorTold i src e g) :=
  (State.count_keeps _ _ _ _).after rfl ((State.report_keeps _ _ _ _).after rfl ((State.setB_keeps _ _ _).mono rfl))

theorem State.rb_cacheErrorTold (s : State) {i : Nat} (src e g : Nat) (hi : i < 32) :
    (s.cacheErrorTold i src e g).rb crwErr i = true := by
  have off : offWrap crwErr = true := by decide
  rw [State.cacheErrorTold, State.rb, State.rd_count _ _ _ _ off, State.rd_report _ _ _ _ off]
  exact s.rb_setB _ _ hi

/-- A correctable error is corrected and set in CRW_ERR; the record stays. -/
theorem State.cacheCheck_corr (corr : s.eccOf .crwCache g = .corr) : let u := s.cacheCheck g
    u.rb crwErr 0 = true ∧ u.crw = s.crw ∧ u.eccOf .crwCache g = .ok ∧ onlyIn [.regs, .ecc, .mast] s u := by
  have result : s.cacheCheck g = (s.eccClear .crwCache g).cacheErrorTold 0 0x18 evCrwEccCorr g := by
    simp only [State.cacheCheck, corr]
    rfl
  have told := (s.eccClear .crwCache g).cacheErrorTold_keeps 0 0x18 evCrwEccCorr g
  rw [result]
  refine ⟨State.rb_cacheErrorTold _ _ _ _ (by decide), told.same .crw (by decide), ?_,
    (told.after rfl ((s.eccClear_keeps _ _).mono rfl)).same⟩
  rw [State.eccOf_congr (told.same .ecc (by decide)), State.eccOf_eccClear_same]

/-- A record with an uncorrectable error is dropped, and the error set in CRW_ERR. -/
theorem State.cacheCheck_uncorr (uncorr : s.eccOf .crwCache g = .uncorr) :
    (s.cacheCheck g).rb crwErr 1 = true ∧ (s.cacheCheck g).cached g = none := by
  have result : s.cacheCheck g = (s.cacheDrop g).cacheErrorTold 1 0x19 evCrwEccUncorr g := by
    simp only [State.cacheCheck, uncorr]
    rfl
  have told := (s.cacheDrop g).cacheErrorTold_keeps 1 0x19 evCrwEccUncorr g
  rw [result]
  refine ⟨State.rb_cacheErrorTold _ _ _ _ (by decide), ?_⟩
  rw [State.cached_congr (congrArg Crw.cache (told.same .crw (by decide))), State.cached_cacheDrop]

end

/-! ## A call taken up (R199, R211 to R214) -/

theorem State.shimCheck_lt (s : State) (ver : Nat) (b : List Byte) : s.shimCheck ver b < 256 := by
  unfold State.shimCheck
  dsimp only
  repeat' split
  all_goals decide

/-- The state in which a call that has been taken up is answered. -/
def State.callTaken (s : State) (f id : Nat) : State :=
  (s.count evCrwCalls 0 0).setRemote f id fun r => { r with taken := true }

section
variable {s : State} {f id : Nat}

theorem State.callTaken_keeps (s : State) (f id : Nat) : Keeps [.regs, .mast, .pipe] s (s.callTaken f id) :=
  (State.setRemote_keeps _ f id _).after rfl ((s.count_keeps _ _ _).mono rfl)

theorem State.head_callTaken (s : State) (f id : Nat) : (s.callTaken f id).head f =
    { s.head f with remote := (s.head f).remote.map fun q => if q.id = id then { q with taken := true } else q } := by
  rw [State.callTaken, State.head_setRemote, State.head_congr (s.pipe_count _ _ _)]

theorem State.shim_callTaken (s : State) (f id : Nat) : ((s.callTaken f id).head f).shim = (s.head f).shim := by
  rw [s.head_callTaken]
  rfl

theorem State.shimVer_callTaken (s : State) (f id : Nat) : ((s.callTaken f id).head f).shimVer = (s.head f).shimVer := by
  rw [s.head_callTaken]
  rfl

theorem State.regsStand_callTaken (s : State) (f id : Nat) : regsStand s (s.callTaken f id) :=
  (regsStand.count s _ _ _).trans fun _ _ => rfl

theorem State.crw_callTaken (s : State) (f id : Nat) : (s.callTaken f id).crw = s.crw :=
  (s.callTaken_keeps f id).same .crw (by decide)

theorem State.crwRun_callTaken (s : State) (f id : Nat) : (s.callTaken f id).crwRun = s.crwRun :=
  (s.regsStand_callTaken f id).rb 31 (by decide)

theorem State.shimCheck_callTaken (s : State) (f id ver : Nat) (b : List Byte) :
    (s.callTaken f id).shimCheck ver b = s.shimCheck ver b := by
  have stripe : (s.callTaken f id).crwStripe = s.crwStripe := (s.regsStand_callTaken f id).rf 18 14 (by decide)
  simp only [State.shimCheck, stripe]

/-- The group of a head's key. -/
def State.callGroup (s : State) (f : Nat) : Nat :=
  s.groupOf (keyHash (s.rd64 crwKseedLo) (shimKey (s.head f).shim))

theorem State.callGroup_callTaken (s : State) (f id : Nat) : (s.callTaken f id).callGroup f = s.callGroup f := by
  have stand := s.regsStand_callTaken f id
  have log2 : (s.callTaken f id).crwLog2 = s.crwLog2 := stand.rf 30 26 (by decide)
  have lo := stand crwKseedLo (by decide)
  have hi := stand (crwKseedLo + 4) (by decide)
  simp only [State.callGroup, State.groupOf, State.rd64, State.rdN, log2, lo, hi, s.shim_callTaken]

/-- A call that has passed its checks meets the record of group `g`, or waits for it. -/
def State.crwLookup (t : State) (f id g : Nat) : State :=
  let t1 := if (t.cached g).isSome then t.cacheCheck g else t
  match t1.cached g with
  | some r => ((t1.cacheUse g).count evCrwCacheHit 0 0).placeAnswer f id g r
  | none =>
    let t2 := t1.count evCrwCacheMiss 0 0
    if t2.crw.missQ.any fun p => p.1 == g then
      { t2 with crw := { t2.crw with missQ := t2.crw.missQ.map fun p =>
        if p.1 = g then (g, p.2 ++ [(f, id)]) else p } }
    else if 4096 ≤ t2.crw.missQ.length then t2.crwAnswer f id none (refusal 6 0x32 false)
    else { t2 with crw := { t2.crw with missQ := t2.crw.missQ ++ [(g, [(f, id)])] } }

/-- What becomes of a call that has been taken up in `t`, by the checks of `s`. -/
def State.callStep (s t : State) (f id : Nat) : State :=
  let h := s.head f
  if !s.crwRun then t.crwAnswer f id none (refusal 3 0x02 false)
  else if h.shimVer = 0 then t.crwAnswer f id none (refusal 7 0x41 false)
  else if s.shimCheck h.shimVer h.shim ≠ 0 then
    t.crwAnswer f id none (refusal 5 (s.shimCheck h.shimVer h.shim) false)
  else if 4 ≤ shimOp h.shim then t.crwAnswer f id none (refusal 7 0x40 false)
  else t.crwLookup f id (s.callGroup f)

/-- The checks of a call read what stands when it is taken up. -/
theorem State.crwCall_eq (s : State) (f id : Nat) : s.crwCall f id = s.callStep (s.callTaken f id) f id := by
  unfold State.callStep
  dsimp only
  rw [← s.callGroup_callTaken f id, ← s.crwRun_callTaken f id, ← s.shim_callTaken f id, ← s.shimVer_callTaken f id,
    ← s.shimCheck_callTaken f id]
  rfl

/-- The state in which a call that has been taken up is answered from a cached record. -/
def State.callHit (s : State) (f id g : Nat) : State := ((s.callTaken f id).cacheUse g).count evCrwCacheHit 0 0

theorem State.callHit_keeps (s : State) (f id g : Nat) : Keeps [.regs, .mast, .pipe, .crw] s (s.callHit f id g) :=
  (State.count_keeps _ _ _ _).after rfl
    ((State.cacheUse_keeps _ g).after rfl ((s.callTaken_keeps f id).mono rfl))

theorem State.crw_callHit (s : State) (f id g : Nat) : ∃ cache, (s.callHit f id g).crw = { s.crw with cache } := by
  have counted : (s.callHit f id g).crw = ((s.callTaken f id).cacheUse g).crw :=
    (State.count_keeps _ _ _ _).same .crw (by decide)
  rw [counted, ← s.crw_callTaken f id]
  exact ⟨_, rfl⟩

theorem State.head_callHit (s : State) (f id g : Nat) : (s.callHit f id g).head f = (s.callTaken f id).head f :=
  State.head_congr (State.pipe_count _ _ _ _) f

theorem State.placesAlike_callHit (s : State) (f id g : Nat) : placesAlike s (s.callHit f id g) := by
  obtain ⟨cache, crw⟩ := s.crw_callHit f id g
  have stand : regsStand (s.callTaken f id) (s.callHit f id g) :=
    regsStand.count ((s.callTaken f id).cacheUse g) evCrwCacheHit 0 0
  refine ⟨(s.regsStand_callTaken f id).trans stand, (s.callHit_keeps f id g).same .stw (by decide), ?_, ?_, ?_, ?_⟩
  all_goals rw [crw]

theorem State.crwLookup_cached {g : Nat} {r : List Byte} (cached : s.cached g = some r)
    (good : s.eccOf .crwCache g = .ok) (run : s.crwRun = true) : (s.callTaken f id).crwLookup f id g =
      (s.callHit f id g).crwAnswer f id (some (g, r)) ((s.callHit f id g).verdict (s.head f).shim r) := by
  have ecc : (s.callTaken f id).eccOf .crwCache g = .ok :=
    (State.eccOf_congr ((s.callTaken_keeps f id).same .ecc (by decide)) _ _).trans good
  have check : (s.callTaken f id).cacheCheck g = s.callTaken f id := by simp only [State.cacheCheck, ecc]
  have record : (s.callTaken f id).cached g = some r :=
    (State.cached_congr (congrArg Crw.cache (s.crw_callTaken f id)) g).trans cached
  have running : (s.callHit f id g).crwRun = true :=
    ((s.placesAlike_callHit f id g).regs.rb 31 (by decide)).trans run
  have shim : ((s.callHit f id g).head f).shim = (s.head f).shim := by rw [s.head_callHit, s.shim_callTaken]
  have found : (s.callTaken f id).crwLookup f id g = (s.callHit f id g).placeAnswer f id g r := by
    simp only [State.crwLookup, record, Option.isSome_some, if_true, check]
    rfl
  rw [found, State.placeAnswer, running, shim]
  rfl

theorem State.crwLookup_absent {g : Nat} (absent : s.cached g = none)
    (first : (s.crw.missQ.any fun p => p.1 == g) = false) (room : s.crw.missQ.length < 4096) : s.crwLookup f id g =
      let t := s.count evCrwCacheMiss 0 0
      { t with crw := { s.crw with missQ := s.crw.missQ ++ [(g, [(f, id)])] } } := by
  have crw : (s.count evCrwCacheMiss 0 0).crw = s.crw := (s.count_keeps _ _ _).same .crw (by decide)
  have fits : ¬ 4096 ≤ s.crw.missQ.length := Nat.not_le.2 room
  simp only [State.crwLookup, absent, Option.isSome_none, Bool.false_eq_true, if_false, crw, first, if_neg fits]

end

/-! ## CALL_TIMEOUT (R212) -/

section
variable {s : State} {f j : Nat}

theorem exec_callTimeout_idle (idle : ((s.head f).remote.find? fun r => r.join == j && r.crow && !r.taken) = none) :
    exec (.callTimeout f j) s = .next s := by
  change execCallTimeout f j s = _
  rw [execCallTimeout, idle]

theorem exec_callTimeout {r : Remote}
    (call : ((s.head f).remote.find? fun r => r.join == j && r.crow && !r.taken) = some r) :
    exec (.callTimeout f j) s = .next (s.crwAnswer f r.id none (refusal 6 0x30 false)) := by
  change execCallTimeout f j s = _
  rw [execCallTimeout, call]

end

/-! ## CROWSNEST_CALL (R212) -/

/-- The turn of slice `k`. -/
def State.turnTo (s : State) (k : Nat) : State := { s with crw := { s.crw with rr := k } }

/-- The next slice that has a call, and its oldest call as (lookup, frame). -/
def State.nextCall (s : State) : Option (Nat × Nat × Nat) :=
  ((upto 16).map fun i => (s.crw.rr + 1 + i) % 16).findSome? fun k => (oldestCall (s.callsOf k)).map fun c => (k, c)

theorem State.nextCall_eq_none {s : State} (empty : ∀ k, k < 16 → s.callsOf k = []) : s.nextCall = none := by
  refine List.findSome?_eq_none_iff.2 fun k hk => ?_
  obtain ⟨i, -, rfl⟩ := List.mem_map.1 hk
  rw [empty _ (Nat.mod_lt _ (by decide))]
  rfl

/-- The checks of a call read nothing of whose turn it is. -/
theorem State.crwCall_turnTo (s : State) (k f id : Nat) :
    (s.turnTo k).crwCall f id = s.callStep ((s.turnTo k).callTaken f id) f id :=
  (s.turnTo k).crwCall_eq f id

section
variable {s : State} {k id f : Nat}

theorem exec_crowsnestCall_idle (idle : s.nextCall = none) : exec .crowsnestCall s = .next s := by
  change execCrowsnestCall s = _
  unfold State.nextCall at idle
  simp only [execCrowsnestCall, idle]

variable (turn : s.nextCall = some (k, id, f))
include turn

theorem exec_crowsnestCall : exec .crowsnestCall s = .next ((s.turnTo k).crwCall f id) := by
  change execCrowsnestCall s = _
  unfold State.nextCall at turn
  simp only [execCrowsnestCall, turn, State.turnTo]

/-- A call that is answered at once, from a state `t` in which it has been taken up. -/
theorem crowsnestCall_answers {t : State} {rc : Option (Nat × List Byte)} {v : Verdict} (plain : v.plain)
    (call : (s.turnTo k).crwCall f id = t.crwAnswer f id rc v) (rr : t.crw.rr = k)
    (head : t.head f = ((s.turnTo k).callTaken f id).head f) : ∃ u, exec .crowsnestCall s = .next u ∧ u.crw.rr = k ∧
      s.answered f id u v.cls v.reason v.members := by
  refine ⟨_, exec_crowsnestCall turn, ?_, ?_⟩
  · rw [call, (t.crwAnswer_plain_keeps f id rc plain).same .crw (by decide), rr]
  · rw [call]
    refine State.answered_of_taken ?_ (t.answered_crwAnswer f id rc plain)
    rw [head, State.head_callTaken]
    rfl

/-- A call that is refused. -/
theorem crowsnestCall_refuses {rc : Option (Nat × List Byte)} {cls reason : Nat} (hc : cls < 8) (hr : reason < 256)
    (call : (s.turnTo k).crwCall f id = ((s.turnTo k).callTaken f id).crwAnswer f id rc (refusal cls reason false)) :
    ∃ u, exec .crowsnestCall s = .next u ∧ u.crw.rr = k ∧ s.answered f id u cls reason [] :=
  crowsnestCall_answers turn (Verdict.plain_refusal false hc hr) call
    (congrArg Crw.rr ((s.turnTo k).crw_callTaken f id)) rfl

end

section
variable {s : State} {k id f : Nat} (turn : s.nextCall = some (k, id, f)) (run : s.crwRun = true)
  (version : (s.head f).shimVer ≠ 0) (passes : s.shimCheck (s.head f).shimVer (s.head f).shim = 0)
  (placed : shimOp (s.head f).shim < 4)
include run version passes placed

/-- A call that passes its checks looks for its record. -/
theorem State.crwCall_lookup : (s.turnTo k).crwCall f id =
    ((s.turnTo k).callTaken f id).crwLookup f id (s.callGroup f) := by
  have op : ¬ 4 ≤ shimOp (s.head f).shim := Nat.not_le.2 placed
  simp only [State.crwCall_turnTo, State.callStep, run, Bool.not_true, Bool.false_eq_true, if_false, if_neg version,
    passes, ne_eq, not_true_eq_false, if_neg op]

include turn

theorem crowsnestCall_waits (absent : s.cached (s.callGroup f) = none)
    (first : (s.crw.missQ.any fun p => p.1 == s.callGroup f) = false) (room : s.crw.missQ.length < 4096) :
    ∃ u, exec .crowsnestCall s = .next u ∧
      u.crw = { s.crw with rr := k, missQ := s.crw.missQ ++ [(s.callGroup f, [(f, id)])] } ∧
      (u.head f).remote = (s.head f).remote.map fun q => if q.id = id then { q with taken := true } else q := by
  have crw := (s.turnTo k).crw_callTaken f id
  refine ⟨_, exec_crowsnestCall turn, ?_⟩
  rw [State.crwCall_lookup run version passes placed, State.crwLookup_absent
    ((State.cached_congr (congrArg Crw.cache crw) _).trans absent) (crw ▸ first) (crw ▸ room), crw]
  refine ⟨rfl, ?_⟩
  have head := State.head_congr (State.pipe_count ((s.turnTo k).callTaken f id) evCrwCacheMiss 0 0) f
  exact congrArg Head.remote (head.trans ((s.turnTo k).head_callTaken f id))

/-- A call whose record is cached and good is answered by the verdict of that record, reached in a state that places reads
as before. -/
theorem crowsnestCall_hits {r : List Byte} {v : Verdict} (cached : s.cached (s.callGroup f) = some r)
    (good : s.eccOf .crwCache (s.callGroup f) = .ok) (plain : v.plain)
    (decides : ∀ t, placesAlike s t → t.verdict (s.head f).shim r = v) :
    ∃ u, exec .crowsnestCall s = .next u ∧ u.crw.rr = k ∧ s.answered f id u v.cls v.reason v.members := by
  obtain ⟨cache, crw⟩ := (s.turnTo k).crw_callHit f id (s.callGroup f)
  have stands := (s.turnTo k).placesAlike_callHit f id (s.callGroup f)
  have alike : placesAlike s ((s.turnTo k).callHit f id (s.callGroup f)) :=
    ⟨stands.regs, stands.stw, stands.roster, stands.peers, stands.loads, stands.setLoads⟩
  have lookup := State.crwLookup_cached (s := s.turnTo k) (f := f) (id := id) cached good run
  have call := (State.crwCall_lookup run version passes placed).trans lookup
  have verdict := decides _ alike
  refine crowsnestCall_answers turn plain (call.trans (congrArg _ verdict)) ?_ (State.head_callHit _ f id _)
  rw [crw]
  rfl

end

/-! ## CACHE_MISS_FILL (R211) -/

/-- Of the record cache and the calls that wait for a record, all stands. -/
def recordsStand (s t : State) : Prop := t.crw.cache = s.crw.cache ∧ t.crw.missQ = s.crw.missQ

theorem recordsStand.trans {s t u : State} (h : recordsStand s t) (k : recordsStand t u) : recordsStand s u :=
  ⟨k.1.trans h.1, k.2.trans h.2⟩

theorem recordsStand.after {l : List Part} {s t u : State} (k : Keeps l t u) (no : .crw ∉ l) (h : recordsStand s t) :
    recordsStand s u := by
  rw [recordsStand, k.same .crw no]
  exact h

theorem recordsStand.ite {s t u : State} {c : Prop} [Decidable c] (h : recordsStand s t) (k : recordsStand s u) :
    recordsStand s (if c then t else u) := by
  split <;> assumption

theorem recordsStand.each {α : Type} {f : State → α → State} (step : ∀ t x, recordsStand t (f t x)) (l : List α)
    (s : State) : recordsStand s (s.each l f) := by
  induction l generalizing s with
  | nil => exact ⟨rfl, rfl⟩
  | cons x l ih => exact (step s x).trans (ih (f s x))

theorem recordsStand.setAlloc (s : State) (ms : List Member) : recordsStand s (s.setAlloc ms).1 := by
  have taken {t : State} (h : recordsStand s t) : recordsStand s (t.count evCrwSetAlloc 0 0) :=
    .after (t.count_keeps _ _ _) (by decide) h
  unfold State.setAlloc
  dsimp only
  split
  · exact ⟨rfl, rfl⟩
  · split
    · exact taken ⟨rfl, rfl⟩
    · split
      · exact taken ⟨rfl, rfl⟩
      · exact ⟨rfl, rfl⟩

theorem recordsStand.crwAnswer (s : State) (f id : Nat) (rc : Option (Nat × List Byte)) (v : Verdict) :
    recordsStand s (s.crwAnswer f id rc v) := by
  have set : recordsStand s (s.answerSet v).1 := by
    unfold State.answerSet
    split
    · exact recordsStand.setAlloc s v.members
    · exact ⟨rfl, rfl⟩
  have held (t : State) (set : Option Nat) : recordsStand t (t.holdSet f set) := by
    cases set <;> exact ⟨rfl, rfl⟩
  rw [State.crwAnswer_eq]
  refine .after (State.remoteFound_keeps ..) (by decide) (.after (State.answerNoted_keeps ..) (by decide) ?_)
  refine .trans (.after (State.takeMark_keeps ..) (by decide) ?_) (held _ _)
  exact .ite ⟨rfl, rfl⟩ set

theorem recordsStand.placeAnswer (s : State) (f id g : Nat) (r : List Byte) :
    recordsStand s (s.placeAnswer f id g r) :=
  .ite (.crwAnswer ..) (.crwAnswer ..)

/-- The calls that wait for the record of group `g` wait no longer. -/
def State.missTaken (s : State) (g : Nat) : State :=
  { s with crw := { s.crw with missQ := s.crw.missQ.filter fun p => p.1 != g } }

section
variable {s w : State} {g k : Nat} {calls : List (Nat × Nat)}

theorem exec_cacheMissFill_idle (idle : (s.crw.missQ.find? fun p => p.1 == g) = none) :
    exec (.cacheMissFill g) s = .next s := by
  change execCacheMissFill g s = _
  simp only [execCacheMissFill, idle]

variable (waits : (s.crw.missQ.find? fun p => p.1 == g) = some (k, calls))
include waits

theorem exec_cacheMissFill_arrives {b : List Byte} (arrives : (s.missTaken g).recFromCellar g = (w, some b)) :
    exec (.cacheMissFill g) s = .next ((w.cacheFill g b).each calls fun t c =>
      if t.callWaits c.1 c.2 then t.placeAnswer c.1 c.2 g b else t) := by
  change execCacheMissFill g s = _
  unfold State.missTaken at arrives
  simp only [execCacheMissFill, waits, arrives]

theorem exec_cacheMissFill_fails (fails : (s.missTaken g).recFromCellar g = (w, none)) :
    exec (.cacheMissFill g) s = .next (w.each calls fun t c =>
      if t.callWaits c.1 c.2 then t.remoteFound c.1 c.2 .error else t) := by
  change execCacheMissFill g s = _
  unfold State.missTaken at fails
  simp only [execCacheMissFill, waits, fails]

theorem cacheMissFill_caches {b : List Byte} (arrives : (s.missTaken g).recFromCellar g = (w, some b)) :
    ∃ u, exec (.cacheMissFill g) s = .next u ∧ u.cached g = some b ∧
      (u.crw.missQ.find? fun p => p.1 == g) = none := by
  have read := ((s.missTaken g).recFromCellar_keeps g).same .crw (by decide)
  rw [arrives] at read
  obtain ⟨cache, missQ⟩ : recordsStand (w.cacheFill g b) ((w.cacheFill g b).each calls fun t c =>
      if t.callWaits c.1 c.2 then t.placeAnswer c.1 c.2 g b else t) :=
    .each (fun t c => .ite (.placeAnswer ..) ⟨rfl, rfl⟩) _ _
  refine ⟨_, exec_cacheMissFill_arrives waits arrives, ?_, ?_⟩
  · rw [State.cached_congr cache, State.cached_cacheFill]
  · rw [missQ, State.missQ_cacheFill, congrArg Crw.missQ read]
    exact find?_filter_ne s.crw.missQ g

theorem cacheMissFill_errs {f id : Nat} (fails : (s.missTaken g).recFromCellar g = (w, none)) (one : calls = [(f, id)])
    (call : s.callWaits f id = true) : ∃ u, exec (.cacheMissFill g) s = .next u ∧
      (u.head f).remote = (s.head f).remote.map fun q =>
        if q.id = id then { q with taken := true, found := some .error } else q := by
  have pipe : w.pipe = s.pipe := by
    have read := ((s.missTaken g).recFromCellar_keeps g).same .pipe (by decide)
    rw [fails] at read
    exact read
  have waiting : w.callWaits f id = true := by
    rw [State.callWaits, State.hasFrame, State.head_congr pipe, pipe]
    exact call
  refine ⟨_, exec_cacheMissFill_fails waits fails, ?_⟩
  rw [one, State.each_cons, if_pos waiting]
  change ((w.remoteFound f id .error).head f).remote = _
  rw [State.remoteFound, State.head_setRemote, State.head_congr pipe]

end

/-! ## CRW_CACHE_SCRUB (R210) -/

section
variable {s : State} {g : Nat}

theorem exec_crwCacheScrub_absent (absent : s.cached g = none) (e : Ecc) : exec (.crwCacheScrub g e) s = .next s := by
  have nothing : ¬ (s.cached g).isSome = true := by rw [absent]; decide
  exact congrArg _ (if_neg nothing)

theorem exec_crwCacheScrub_cached (cached : (s.cached g).isSome = true) (e : Ecc) :
    exec (.crwCacheScrub g e) s = .next ((s.eccFlag .crwCache g e).cacheCheck g) := congrArg _ (if_pos cached)

theorem crwCacheScrub_corrects (cached : (s.cached g).isSome = true) (good : s.eccOf .crwCache g = .ok) :
    ∃ u, exec (.crwCacheScrub g .corr) s = .next u ∧ u.rb crwErr 0 = true ∧ u.crw = s.crw ∧
      u.eccOf .crwCache g = .ok ∧ onlyIn [.regs, .ecc, .mast] s u := by
  have flagged := s.eccFlag_keeps .crwCache g .corr
  obtain ⟨bit, crw, ecc, only⟩ := State.cacheCheck_corr (State.eccOf_eccFlag good .corr)
  exact ⟨_, exec_crwCacheScrub_cached cached .corr, bit, crw.trans (flagged.same .crw (by decide)), ecc,
    (flagged.same.mono rfl).trans only⟩

theorem crwCacheScrub_drops (cached : (s.cached g).isSome = true) (good : s.eccOf .crwCache g = .ok) :
    ∃ u, exec (.crwCacheScrub g .uncorr) s = .next u ∧ u.rb crwErr 1 = true ∧ u.cached g = none ∧
      onlyIn [.regs, .ecc, .mast, .crw] s u := by
  obtain ⟨bit, dropped⟩ := State.cacheCheck_uncorr (State.eccOf_eccFlag good .uncorr)
  exact ⟨_, exec_crwCacheScrub_cached cached .uncorr, bit, dropped,
    ((State.cacheCheck_keeps _ g).after rfl ((s.eccFlag_keeps .crwCache g .uncorr).mono rfl)).same⟩

end

/-! ## LOAD_SAMPLE_RECEIVE (R325) -/

/-- Values put at consecutive indices of a table. -/
theorem tget_foldl_tset (t : Tbl Nat) (base : Nat) (v : Nat → Nat) (n j : Nat) :
    tget 0 ((upto n).foldl (fun m i => tset 0 m (base + i) (v i)) t) j =
      if base ≤ j ∧ j < base + n then v (j - base) else tget 0 t j := by
  induction n with
  | zero =>
    rw [if_neg (by omega)]
    rfl
  | succ n ih =>
    rw [upto, List.range_succ, List.foldl_append, ← upto, List.foldl_cons, List.foldl_nil]
    by_cases last : j = base + n
    · subst last
      rw [tget_tset_same, if_pos (by omega), Nat.add_sub_cancel_left]
    · have range : (base ≤ j ∧ j < base + (n + 1)) = (base ≤ j ∧ j < base + n) := propext (by omega)
      rw [tget_tset_ne _ _ _ _ _ _ last, ih]
      simp only [range]

theorem loadSampleReceive_replaces {s : State} {sl : Nat} {l : List Nat} (flies : tfind s.crw.flying sl = some l) :
    ∃ u, exec (.loadSampleReceive sl) s = .next u ∧
      (∀ i, i < 256 → tget 0 u.crw.loads (256 * sl + i) = l.getD i 0) ∧
      (∀ j, j < 256 * sl ∨ 256 * sl + 256 ≤ j → tget 0 u.crw.loads j = tget 0 s.crw.loads j) ∧
      tfind u.crw.flying sl = none ∧ onlyIn [.crw] s u := by
  obtain ⟨u, step, keeps⟩ := execLoadSampleReceive_keeps s sl
  have result : u = { s with crw := { s.crw with
      loads := (upto 256).foldl (fun m i => tset 0 m (256 * sl + i) (l.getD i 0)) s.crw.loads
      flying := tdel s.crw.flying sl } } := by
    rw [execLoadSampleReceive, flies] at step
    exact (Host.Outcome.next.inj step).symm
  have loads (j : Nat) : tget 0 u.crw.loads j =
      if 256 * sl ≤ j ∧ j < 256 * sl + 256 then l.getD (j - 256 * sl) 0 else tget 0 s.crw.loads j := by
    simpa only [result] using tget_foldl_tset s.crw.loads (256 * sl) (fun i => l.getD i 0) 256 j
  refine ⟨u, step, fun i hi => ?_, fun j out => ?_, ?_, keeps.same⟩
  · rw [loads, if_pos (by omega), Nat.add_sub_cancel_left]
  · rw [loads, if_neg (by omega)]
  · rw [result]
    exact tfind_tdel_same _ _

end Sys2Proof.Machine

section
open Sys2Proof Sys2Proof.Machine

/-- Settles O34: every answer that needs no placement set is told by one lemma, and what a call meets is read from the
state before it. -/
theorem crowsnestCalls : Obligations.CrowsnestCalls := by
  unfold Obligations.CrowsnestCalls
  refine ⟨fun f j s => ⟨?noCall, ?timeout⟩, fun s empty => exec_crowsnestCall_idle (State.nextCall_eq_none empty),
    fun k id f s turn => ⟨?stopped, ?noShim, ?badShim, fun run version passes => ⟨?notPlaced, fun r placed cached good =>
      ⟨?empty, ?get⟩, ?absent⟩⟩,
    fun g s => ⟨exec_cacheMissFill_idle, fun k calls waits =>
      ⟨fun w b => cacheMissFill_caches waits, fun w f id => cacheMissFill_errs waits⟩,
      fun e absent => exec_crwCacheScrub_absent absent e, fun cached good =>
        ⟨crwCacheScrub_corrects cached good, crwCacheScrub_drops cached good⟩⟩,
    fun sl s => ⟨?noSample, fun l => loadSampleReceive_replaces⟩⟩
  case noCall => exact exec_callTimeout_idle
  case timeout =>
    intro r call
    have plain := Verdict.plain_refusal (cls := 6) (reason := 0x30) false (by decide) (by decide)
    exact ⟨_, exec_callTimeout call, s.answered_crwAnswer f r.id none plain, (s.crwAnswer_keeps f r.id none _).same⟩
  case stopped =>
    intro stopped
    refine crowsnestCall_refuses (rc := none) turn (by decide) (by decide) ?_
    simp [State.crwCall_turnTo, State.callStep, stopped]
  case noShim =>
    intro run noShim
    refine crowsnestCall_refuses (rc := none) turn (by decide) (by decide) ?_
    simp [State.crwCall_turnTo, State.callStep, run, noShim]
  case badShim =>
    intro run version fails
    refine crowsnestCall_refuses (rc := none) turn (by decide) (s.shimCheck_lt _ _) ?_
    simp [State.crwCall_turnTo, State.callStep, run, version, fails]
  case notPlaced =>
    intro op
    refine crowsnestCall_refuses (rc := none) turn (by decide) (by decide) ?_
    simp [State.crwCall_turnTo, State.callStep, run, version, passes, op]
  case empty =>
    exact fun empty => crowsnestCall_hits turn run version passes placed cached good
      (Verdict.plain_refusal false (by decide) (by decide)) fun t _ => t.verdict_empty _ empty
  case get =>
    rintro i _ stable get noEpoch whole anyVersion pick rfl made port
    refine crowsnestCall_hits (v := s.getVerdict (s.head f).shim r i) turn run version passes placed cached good
      (State.plain_getVerdict port) fun t alike => ?_
    rw [← alike.readPick, ← alike.crwReplicas] at pick
    rw [← alike.placedVersion] at made
    rw [t.verdict_get stable get noEpoch whole anyVersion pick made, alike.getVerdict]
  case absent => exact crowsnestCall_waits turn run version passes
  case noSample =>
    intro nothing
    change execLoadSampleReceive sl s = _
    rw [execLoadSampleReceive, nothing]

end

/-! PROOFS. Notices, their tokens, and the outcomes of copies (R239 to R247). -/

namespace Sys2Proof.Machine

/-! ## Records of frames that go (R290) -/

/-- The pipeline of `t` is that of `s`, but for the record of frame f, which may be gone. -/
def pruned (f : Nat) (s t : State) : Prop :=
  t.pipe = s.pipe ∨ t.pipe = { s.pipe with frames := tdel s.pipe.frames f }

section
variable {s t : State} {f : Nat}

theorem pruned.nextFid (h : pruned f s t) : t.pipe.nextFid = s.pipe.nextFid := by
  rcases h with same | gone
  · rw [same]
  · rw [gone]

theorem pruned.frame_ne (h : pruned f s t) {g : Nat} (ne : g ≠ f) : t.frame g = s.frame g := by
  rcases h with same | gone
  · exact State.frame_congr same g
  · rw [State.frame, gone, tget, tfind_tdel_ne _ _ _ ne]
    rfl

theorem pruned.frame (h : pruned f s t) : t.hasFrame f = false ∨ t.frame f = s.frame f := by
  rcases h with same | gone
  · exact .inr (State.frame_congr same f)
  · exact .inl (by rw [State.hasFrame, gone, tfind_tdel_same]; rfl)

theorem State.tidy_pruned (s : State) (f : Nat) : pruned f s (s.tidy f) := by
  unfold State.tidy
  dsimp only
  split
  · exact .inr rfl
  · exact .inl rfl

theorem State.egTidy_pruned (s : State) (f e : Nat) : pruned f s (s.egTidy f e) := by
  unfold State.egTidy
  split
  · exact s.tidy_pruned f
  · split
    · exact .inl rfl
    · exact State.tidy_pruned _ f

theorem State.copyGone_pruned (s : State) (c : Nat) : pruned (s.copy c).fid s (s.copyGone c) := by
  unfold State.copyGone
  dsimp only
  split
  · exact State.egTidy_pruned _ _ _
  · exact .inl rfl

theorem State.frame_setFrame_ne (s : State) {f g : Nat} (x : Frame) (ne : g ≠ f) :
    (s.setFrame f x).frame g = s.frame g := tget_tput_ne _ _ _ _ _ ne

end

/-! ## Copies (R239, R290) -/

section
variable (s : State) (c : Nat)

@[simp] theorem State.copy_setCopy (y : Copy) : (s.setCopy c y).copy c = y := tget_tput_same _ _ _ _

theorem State.copy_setCopy_ne {k : Nat} (y : Copy) (ne : k ≠ c) : (s.setCopy c y).copy k = s.copy k :=
  tget_tput_ne _ _ _ _ _ ne

theorem State.copy_congr {s t : State} (h : t.stw.copies = s.stw.copies) (k : Nat) : t.copy k = s.copy k := by
  rw [State.copy, State.copy, h]

theorem State.copies_egTidy (f e : Nat) : (s.egTidy f e).stw.copies = s.stw.copies := by
  have tidied (t : State) : (t.tidy f).stw = t.stw := (t.tidy_keeps f).same .stw (by decide)
  unfold State.egTidy
  split
  · rw [tidied]
  · split
    · rfl
    · rw [tidied]

/-- A copy leaves the table or stays as it is. -/
theorem State.copy_copyGone :
    (tfind (s.copyGone c).stw.copies c).isNone = true ∨ (s.copyGone c).copy c = s.copy c := by
  unfold State.copyGone
  dsimp only
  split
  · left
    rw [State.copies_egTidy, tfind_tdel_same]
    rfl
  · exact .inr rfl

end

/-! ## Tokens (R247) -/

section
variable (s : State)

theorem State.noticeTokens_congr {s t : State} (h : t.crw = s.crw) (k : Nat) : t.noticeTokens k = s.noticeTokens k := by
  rw [State.noticeTokens, State.noticeTokens, h]

@[simp] theorem State.noticeTokens_setTokens (sl v : Nat) : (s.setTokens sl v).noticeTokens sl = v :=
  tget_tset_same _ _ _ _

theorem State.noticeTokens_setTokens_ne {sl k : Nat} (v : Nat) (ne : k ≠ sl) :
    (s.setTokens sl v).noticeTokens k = s.noticeTokens k := tget_tset_ne _ _ _ _ _ _ ne

end

/-! ## Frames that enter Stairwell directly (R246, R270) -/

section
variable (s : State) (x : Frame) (kind c hash : Nat) (ports : List (Nat × Option Member))

theorem State.nextFid_directEnter : (s.directEnter x kind c hash ports).1.pipe.nextFid = s.pipe.nextFid + 1 := rfl

theorem State.frame_directEnter : (s.directEnter x kind c hash ports).1.frame s.pipe.nextFid =
    { x with
      rxTs := s.ns
      head := { x.head with seq := s.pipe.nextSeq }
      fab := { Fab.init with
        kind := kind, tc := c, hash := hash, ports := ports, queues := queuesOf kind c ports
        dest := (ports.headD (0, none)).1 } } := by
  exact (State.frame_setHead _ _ _).trans
    (congrArg (fun y : Frame => { y with head := { y.head with seq := s.pipe.nextSeq } }) (s.frame_newFrame _))

theorem State.frame_directEnter_ne {g : Nat} (ne : g ≠ s.pipe.nextFid) :
    (s.directEnter x kind c hash ports).1.frame g = s.frame g :=
  (State.frame_setFrame_ne _ _ ne).trans (tget_tput_ne _ _ _ _ _ ne)

end

/-! ## NOTICE_BUILD (R244, R246, R247) -/

/-- A notice that is shorter than a frame is filled up with zeros. -/
def padded (bs : List Byte) : List Byte := bs ++ List.replicate (60 - bs.length) 0

/-- The frame that carries a notice. -/
def Frame.ofNotice (via : Nat) (bs : List Byte) : Frame :=
  { Frame.init with
    port := via, origin := 5, data := bs, orig := bs, len := bs.length + 4, settled := true, noticed := true }

/-- A token is taken for a notice, which is counted. -/
def State.noticePaid (s : State) (sl typ : Nat) : State :=
  (s.setTokens sl (s.noticeTokens sl - 1000000)).count evCrwNoticeSent sl (typ - 1)

/-- A notice enters Stairwell whole, for port `inp` in the notice class. -/
def State.noticeSent (s : State) (sl via inp typ : Nat) (bs : List Byte) : State :=
  ((s.noticePaid sl typ).directEnter (Frame.ofNotice via bs) 0 (s.rf crwNoticeCfg 13 11) 0 [(inp, none)]).1

section
variable {s : State} {h : Head} {d src shim bs : List Byte} {sl via inp typ reason port : Nat} {es : List NoticeEntry}
  (bytes : padded (s.noticeBytes h d src shim inp (s.noticeBody h shim typ reason port es)) = bs)
include bytes

/-- A notice that cannot be built, or finds no token, is counted and nothing else. -/
theorem State.sendNotice_unsent
    (unsent : ¬(h.layers.marked = true ∧ ipKnown d h.layers.ip = true ∧ bs.length + 4 ≤ s.mtu inp) ∨
      s.rf crwNoticeRate 15 0 = 0 ∨ s.noticeTokens sl < 1000000) :
    ∃ e, s.sendNotice sl via h d src shim inp typ reason port es = s.count e sl 0 := by
  subst bytes
  by_cases unbuilt : (!h.layers.marked) = true ∨ (!ipKnown d h.layers.ip) = true ∨
      s.mtu inp < (padded (s.noticeBytes h d src shim inp (s.noticeBody h shim typ reason port es))).length + 4
  · exact ⟨_, if_pos unbuilt⟩
  · have built := unbuilt
    simp only [Bool.not_eq_true', not_or, Bool.not_eq_false, Nat.not_lt] at built
    exact ⟨_, (if_neg unbuilt).trans (if_pos (unsent.resolve_left fun no => no built))⟩

theorem State.sendNotice_sent
    (built : h.layers.marked = true ∧ ipKnown d h.layers.ip = true ∧ bs.length + 4 ≤ s.mtu inp)
    (rate : s.rf crwNoticeRate 15 0 ≠ 0) (token : 1000000 ≤ s.noticeTokens sl) :
    s.sendNotice sl via h d src shim inp typ reason port es = s.noticeSent sl via inp typ bs := by
  subst bytes
  obtain ⟨marked, known, fits⟩ := built
  refine (if_neg ?_).trans ((if_neg ?_).trans rfl)
  · simpa [marked, known, padded] using fits
  · exact fun no => no.elim rate (Nat.not_lt.2 token)

end

section
variable (s : State) (sl via inp typ : Nat) (bs : List Byte)

theorem State.noticePaid_keeps : Keeps [.regs, .mast, .crw] s (s.noticePaid sl typ) :=
  (State.count_keeps _ _ _ _).after rfl ((s.setTokens_keeps _ _).mono rfl)

theorem State.pipe_noticePaid : (s.noticePaid sl typ).pipe = s.pipe :=
  (s.noticePaid_keeps sl typ).same .pipe (by decide)

theorem State.noticeSent_keeps : Keeps [.regs, .mast, .pipe, .crw] s (s.noticeSent sl via inp typ bs) :=
  (State.directEnter_keeps _ _ _ _ _ _).after rfl ((s.noticePaid_keeps sl typ).mono rfl)

theorem State.crw_noticeSent : (s.noticeSent sl via inp typ bs).crw =
    (s.setTokens sl (s.noticeTokens sl - 1000000)).crw :=
  ((State.directEnter_keeps _ _ _ _ _ _).same .crw (by decide)).trans
    ((State.count_keeps _ _ _ _).same .crw (by decide))

/-- The slice has paid one token, and no other slice has. -/
theorem State.noticeTokens_noticeSent :
    (s.noticeSent sl via inp typ bs).noticeTokens sl = s.noticeTokens sl - 1000000 ∧
      ∀ k, k ≠ sl → (s.noticeSent sl via inp typ bs).noticeTokens k = s.noticeTokens k := by
  have paid := State.noticeTokens_congr (s.crw_noticeSent sl via inp typ bs)
  exact ⟨by rw [paid, State.noticeTokens_setTokens], fun k ne => by rw [paid, s.noticeTokens_setTokens_ne _ ne]⟩

theorem State.nextFid_noticeSent : (s.noticeSent sl via inp typ bs).pipe.nextFid = s.pipe.nextFid + 1 := by
  rw [State.noticeSent, State.nextFid_directEnter, State.pipe_noticePaid]

/-- The notice stands as a new frame that is offered to one queue. -/
theorem State.frame_noticeSent : let x := (s.noticeSent sl via inp typ bs).frame s.pipe.nextFid
    x.data = bs ∧ x.len = bs.length + 4 ∧ x.port = via ∧ x.fab.queues = [8 * inp + s.rf crwNoticeCfg 13 11] ∧
      x.events = [] := by
  intro x
  have frame := (s.noticePaid sl typ).frame_directEnter (Frame.ofNotice via bs) 0 (s.rf crwNoticeCfg 13 11) 0
    [(inp, none)]
  rw [State.pipe_noticePaid] at frame
  rw [show x = _ from frame]
  exact ⟨rfl, rfl, rfl, rfl, rfl⟩

theorem State.frame_noticeSent_ne {g : Nat} (ne : g ≠ s.pipe.nextFid) :
    (s.noticeSent sl via inp typ bs).frame g = s.frame g := by
  have pipe := s.pipe_noticePaid sl typ
  rw [State.noticeSent, State.frame_directEnter_ne _ _ _ _ _ _ (by rwa [pipe]), State.frame_congr pipe]

end

/-! ## NOTICE_DECIDE (R243) -/

/-- The decision on frame f has been made. -/
def State.decided (s : State) (f : Nat) : State := (s.setFrame f { s.frame f with noticed := true }).tidy f

section
variable (s : State) (f : Nat)

theorem State.decided_keeps : Keeps [.pipe] s (s.decided f) := (State.tidy_keeps _ _).after rfl (s.setFrame_keeps _ _)

theorem State.nextFid_decided : (s.decided f).pipe.nextFid = s.pipe.nextFid := (State.tidy_pruned _ f).nextFid

theorem State.frame_decided_ne {g : Nat} (ne : g ≠ f) : (s.decided f).frame g = s.frame g :=
  ((State.tidy_pruned _ f).frame_ne ne).trans (s.frame_setFrame_ne _ ne)

theorem State.frame_decided (has : (s.decided f).hasFrame f = true) :
    (s.decided f).frame f = { s.frame f with noticed := true } := by
  rcases (State.tidy_pruned (s.setFrame f { s.frame f with noticed := true }) f).frame with gone | stands
  · exact absurd has (by rw [State.decided, gone]; decide)
  · exact stands.trans (s.frame_setFrame f _)

end

section
variable {s : State} {f : Nat}

theorem exec_noticeDecide_idle
    (idle : s.hasFrame f = false ∨ (s.frame f).settled = false ∨ (s.frame f).noticed = true) :
    exec (.noticeDecide f) s = .next s :=
  if_pos (by simpa using idle)

/-- The event of frame f that causes its notice, if one is enabled. -/
def State.noticeWinner (s : State) (f : Nat) : Option (Nat × Nat) :=
  winEvent ((s.frame f).events.filter fun e => s.noticeOn e.1)

/-- The notice of a type and a reason that frame f causes. -/
def State.frameNotice (s : State) (f typ reason : Nat) : List Byte :=
  let x := s.frame f
  padded (s.noticeBytes x.head x.orig (slice x.orig 6 6) x.head.shim x.port
    (s.noticeBody x.head x.head.shim typ reason x.port (if typ = 2 then x.head.reportEntries else [])))

/-- The notice of frame f can be built and fits its port. -/
def State.noticeBuilt (s : State) (f typ reason : Nat) : Prop :=
  let x := s.frame f
  x.head.layers.marked = true ∧ ipKnown x.orig x.head.layers.ip = true ∧
    (s.frameNotice f typ reason).length + 4 ≤ s.mtu x.port

/-- The notice that frame f causes, if any, has been sent or counted. -/
def State.frameNotified (s : State) (f : Nat) : State :=
  match s.noticeWinner f with
  | none => s
  | some (t, r) =>
    let x := s.frame f
    s.sendNotice x.slice x.port x.head x.orig (slice x.orig 6 6) x.head.shim x.port t r x.port
      (if t = 2 then x.head.reportEntries else [])

variable (has : s.hasFrame f = true) (settled : (s.frame f).settled = true)
  (undecided : (s.frame f).noticed = false)
include has settled undecided

theorem exec_noticeDecide_due : exec (.noticeDecide f) s = .next ((s.frameNotified f).decided f) :=
  if_neg (by simp [has, settled, undecided])

theorem exec_noticeDecide_quiet (quiet : s.noticeWinner f = none) :
    exec (.noticeDecide f) s = .next (s.decided f) := by
  rw [exec_noticeDecide_due has settled undecided, State.frameNotified, quiet]

/-- A frame whose notice is not sent is decided all the same. -/
theorem exec_noticeDecide_unsent {t r : Nat} (wins : s.noticeWinner f = some (t, r)) (unsent : ¬s.noticeBuilt f t r ∨
    s.rf crwNoticeRate 15 0 = 0 ∨ s.noticeTokens (s.frame f).slice < 1000000) :
    ∃ e, exec (.noticeDecide f) s = .next ((s.count e (s.frame f).slice 0).decided f) := by
  obtain ⟨e, counted⟩ := State.sendNotice_unsent (s := s) (via := (s.frame f).port) rfl unsent
  rw [exec_noticeDecide_due has settled undecided, State.frameNotified, wins]
  exact ⟨e, congrArg (fun u : State => Host.Outcome.next (u.decided f)) counted⟩

theorem exec_noticeDecide_sent {t r : Nat} (wins : s.noticeWinner f = some (t, r)) (built : s.noticeBuilt f t r)
    (rate : s.rf crwNoticeRate 15 0 ≠ 0) (token : 1000000 ≤ s.noticeTokens (s.frame f).slice) :
    exec (.noticeDecide f) s = .next
      ((s.noticeSent (s.frame f).slice (s.frame f).port (s.frame f).port t (s.frameNotice f t r)).decided f) := by
  have sent := State.sendNotice_sent (s := s) (via := (s.frame f).port) rfl built rate token
  rw [exec_noticeDecide_due has settled undecided, State.frameNotified, wins]
  exact congrArg (fun u : State => Host.Outcome.next (u.decided f)) sent

end

/-! ## What a notice is built from (R244) -/

section
variable {s t : State} (regs : regsStand s t)
include regs

theorem regsStand.rdN {a : Nat} (ha : offWrap a = true) : t.rdN a = s.rdN a := by rw [State.rdN, State.rdN, regs a ha]

theorem regsStand.rd64 {a : Nat} (ha : 0x3000000 ≤ a) : t.rd64 a = s.rd64 a := by
  rw [State.rd64, State.rd64, regs.rdN (offWrap_of_window ha), regs.rdN (offWrap_of_window (by omega))]

theorem regsStand.mtu (n : Nat) : t.mtu n = s.mtu n :=
  regs.rf _ _ (offWrap_of_window (by unfold pchPortMtu; omega))

theorem regsStand.portMac (n : Nat) : t.portMac n = s.portMac n := by
  rw [State.portMac, State.portMac, regs.rf _ _ (offWrap_of_window (by unfold pchPortMacHi; omega)),
    regs.rdN (offWrap_of_window (by unfold pchPortMacLo; omega))]

theorem regsStand.noticeBody (h : Head) (shim : List Byte) (typ reason port : Nat) (es : List NoticeEntry) :
    t.noticeBody h shim typ reason port es = s.noticeBody h shim typ reason port es := by
  rw [State.noticeBody, State.noticeBody, regs.rd64 (by decide)]

theorem regsStand.noticeBytes (h : Head) (d src shim : List Byte) (inp : Nat) (body : List Byte) :
    t.noticeBytes h d src shim inp body = s.noticeBytes h d src shim inp body := by
  rw [State.noticeBytes, State.noticeBytes, regs.rf (a := crwNoticeCfg) 10 5 (by decide), regs.portMac]

end

/-! ## COPY_OUTCOME (R239 to R241) -/

section
variable {s : State} {c : Nat}

theorem exec_copyOutcome_idle (idle : ¬((s.copy c).st = 3 ∧ (s.copy c).told = false ∧ (s.copy c).counts = true)) :
    exec (.copyOutcome c) s = .next s := by
  refine if_pos (Classical.byContradiction fun due => idle ?_)
  simpa using due

/-- The outcome of copy c has been told. -/
def State.outcomeTold (s : State) (c : Nat) : State := s.setCopy c { s.copy c with told := true }

/-- The outcome of copy c, lost, has been told and counted. -/
def State.lossTold (s : State) (c : Nat) : State :=
  (s.outcomeTold c).count evCrwCopyOutcome (s.copy c).port ((s.copy c).result - 0x10)

theorem State.lossTold_keeps (s : State) (c : Nat) : Keeps [.regs, .mast, .stw] s (s.lossTold c) :=
  (State.count_keeps _ _ _ _).after rfl ((s.setCopy_keeps _ _).mono rfl)

theorem regsStand.lossTold (s : State) (c : Nat) : regsStand s (s.lossTold c) :=
  regsStand.count (s.outcomeTold c) _ _ _

/-- Of a copy whose outcome is told, the table keeps nothing or that it is told. -/
theorem State.told_copyGone {t : State} (told : (t.copy c).told = true) :
    (tfind (t.copyGone c).stw.copies c).isNone = true ∨ ((t.copyGone c).copy c).told = true :=
  (t.copy_copyGone c).imp_right fun same => by rw [same, told]

theorem State.told_of_stw {t : State} (same : t.stw = (s.outcomeTold c).stw) : (t.copy c).told = true := by
  rw [State.copy_congr (congrArg Stw.copies same), State.outcomeTold, State.copy_setCopy]

/-- The entry of the SHORTFALL notice of copy c. -/
def State.shortfallEntry (s : State) (c : Nat) : NoticeEntry :=
  let y := s.copy c
  let m := y.member.getD ⟨0, 0, 0, false, 0⟩
  (m.target, m.pos, y.result + if m.pend = true then 128 else 0)

/-- The shim in the frame of copy c. -/
def State.copyShim (s : State) (c : Nat) : List Byte :=
  let x := s.frame (s.copy c).fid
  slice x.data x.head.layers.shim 192

/-- The SHORTFALL notice of copy c. -/
def State.shortfall (s : State) (c : Nat) : List Byte :=
  let x := s.frame (s.copy c).fid
  padded (s.noticeBytes x.head x.data (slice x.orig 6 6) (s.copyShim c) x.port
    (s.noticeBody x.head (s.copyShim c) 3 0 (s.copy c).port [s.shortfallEntry c]))

/-- The loss of copy c has been told and counted, and its notice, if it causes one, sent or counted. -/
def State.lossNotified (s : State) (c : Nat) : State :=
  let y := s.copy c
  let x := s.frame y.fid
  if s.rb crwNoticeCfg 1 ∧ x.head.isRequest then
    (s.lossTold c).sendNotice y.dst y.port x.head x.data (slice x.orig 6 6) (s.copyShim c) x.port 3 0 y.port
      [s.shortfallEntry c]
  else s.lossTold c

variable (ended : (s.copy c).st = 3) (untold : (s.copy c).told = false) (counts : (s.copy c).counts = true)
include ended untold counts

theorem exec_copyOutcome_arrived (arrived : (s.copy c).result < 16) :
    exec (.copyOutcome c) s = .next ((s.outcomeTold c).copyGone c) :=
  (if_neg (by simp [ended, untold, counts])).trans (if_pos arrived)

variable (lost : 16 ≤ (s.copy c).result)
include lost

theorem exec_copyOutcome_lost : exec (.copyOutcome c) s = .next ((s.lossNotified c).copyGone c) := by
  have mark (b : Bool) (r : Nat) : r + 128 * nat b = r + if b = true then 128 else 0 := by cases b <;> rfl
  refine (if_neg (by simp [ended, untold, counts])).trans ((if_neg (Nat.not_lt.2 lost)).trans ?_)
  rw [State.lossNotified, State.shortfallEntry, ← mark]
  rfl

theorem exec_copyOutcome_quiet
    (quiet : s.rb crwNoticeCfg 1 = false ∨ (s.frame (s.copy c).fid).head.isRequest = false) :
    exec (.copyOutcome c) s = .next ((s.lossTold c).copyGone c) := by
  rw [exec_copyOutcome_lost ended untold counts lost, State.lossNotified, if_neg]
  rcases quiet with off | other
  · simp [off]
  · simp [other]

theorem exec_copyOutcome_shortfall (on : s.rb crwNoticeCfg 1 = true)
    (request : (s.frame (s.copy c).fid).head.isRequest = true)
    (built : (s.frame (s.copy c).fid).head.layers.marked = true ∧
      ipKnown (s.frame (s.copy c).fid).data (s.frame (s.copy c).fid).head.layers.ip = true ∧
      (s.shortfall c).length + 4 ≤ s.mtu (s.frame (s.copy c).fid).port)
    (rate : s.rf crwNoticeRate 15 0 ≠ 0) (token : 1000000 ≤ s.noticeTokens (s.copy c).dst) :
    exec (.copyOutcome c) s = .next (((s.lossTold c).noticeSent (s.copy c).dst (s.copy c).port
      (s.frame (s.copy c).fid).port 3 (s.shortfall c)).copyGone c) := by
  have regs := regsStand.lossTold s c
  have tokens := State.noticeTokens_congr ((s.lossTold_keeps c).same .crw (by decide)) (s.copy c).dst
  rw [exec_copyOutcome_lost ended untold counts lost, State.lossNotified, if_pos ⟨on, request⟩]
  rw [← regs.mtu] at built
  rw [← regs.rf (a := crwNoticeRate) 15 0 (by decide)] at rate
  rw [← tokens] at token
  refine congrArg (fun u : State => Host.Outcome.next (u.copyGone c)) (State.sendNotice_sent ?_ built rate token)
  rw [regs.noticeBytes, regs.noticeBody]
  rfl

end

end Sys2Proof.Machine

section
open Sys2Proof Sys2Proof.Machine

/-- Settles O37: a decision and an outcome are each read off the one state that their premises leave, and the notice
off the frame that NOTICE_BUILD makes. -/
theorem noticesAndCopyOutcomes : Obligations.NoticesAndCopyOutcomes := by
  unfold Obligations.NoticesAndCopyOutcomes
  refine ⟨fun f s => ⟨exec_noticeDecide_idle, fun has settled undecided => ⟨?quiet, ?unsent, ?sent⟩⟩,
    fun sl s => ⟨_, rfl, ?refill, ?others, (s.setTokens_keeps _ _).same⟩,
    fun c s => ⟨exec_copyOutcome_idle, ?arrived, ?quietLoss, ?shortfall⟩⟩
  case quiet =>
    intro quiet
    exact ⟨_, exec_noticeDecide_quiet has settled undecided quiet, fun g ne => s.frame_decided_ne f ne,
      s.frame_decided f, (s.decided_keeps f).same⟩
  case unsent =>
    intro t r wins unsent
    obtain ⟨e, step⟩ := exec_noticeDecide_unsent has settled undecided wins unsent
    have pipe := s.pipe_count e (s.frame f).slice 0
    refine ⟨_, step, ?_, fun g ne => ?_, ?_⟩
    · rw [State.nextFid_decided, pipe]
    · rw [State.frame_decided_ne _ _ ne, State.frame_congr pipe]
    · exact ((State.decided_keeps _ f).after rfl ((s.count_keeps e _ 0).mono rfl)).same
  case sent =>
    intro t r wins built rate token own
    let x := s.frame f
    let v := s.noticeSent x.slice x.port x.port t (s.frameNotice f t r)
    have crw : (v.decided f).crw = v.crw := (v.decided_keeps f).same .crw (by decide)
    obtain ⟨paid, others⟩ := s.noticeTokens_noticeSent x.slice x.port x.port t (s.frameNotice f t r)
    obtain ⟨data, len, -, queues, events⟩ := s.frame_noticeSent x.slice x.port x.port t (s.frameNotice f t r)
    have notice : (v.decided f).frame s.pipe.nextFid = v.frame s.pipe.nextFid := v.frame_decided_ne f (Ne.symm own)
    refine ⟨_, exec_noticeDecide_sent has settled undecided wins built rate token,
      (State.noticeTokens_congr crw _).trans paid,
      fun k ne => (State.noticeTokens_congr crw k).trans (others k ne),
      (v.nextFid_decided f).trans (s.nextFid_noticeSent _ _ _ _ _), ?_, ?_, ?_, ?_, fun g ne new => ?_, ?_⟩
    · exact (congrArg Frame.data notice).trans data
    · exact (congrArg Frame.len notice).trans len
    · exact (congrArg (·.fab.queues) notice).trans queues
    · exact (congrArg Frame.events notice).trans events
    · exact (v.frame_decided_ne f ne).trans (s.frame_noticeSent_ne _ _ _ _ _ new)
    · exact ((v.decided_keeps f).after rfl (s.noticeSent_keeps _ _ _ _ _)).same
  case refill => rw [State.noticeTokens_setTokens, Nat.mul_comm 128]; rfl
  case others => exact fun k ne => s.noticeTokens_setTokens_ne _ ne
  case arrived =>
    rintro ⟨ended, untold, counts⟩ arrived
    exact ⟨_, exec_copyOutcome_arrived ended untold counts arrived, State.told_copyGone (State.told_of_stw rfl),
      (State.copyGone_pruned _ c).nextFid, ((State.copyGone_keeps _ c).after rfl ((s.setCopy_keeps _ _).mono rfl)).same⟩
  case quietLoss =>
    rintro ⟨ended, untold, counts⟩ lost quiet
    have counted := (s.outcomeTold c).count_keeps evCrwCopyOutcome (s.copy c).port ((s.copy c).result - 0x10)
    exact ⟨_, exec_copyOutcome_quiet ended untold counts lost quiet,
      State.told_copyGone (State.told_of_stw (counted.same .stw (by decide))),
      (State.copyGone_pruned _ c).nextFid.trans (congrArg Pipe.nextFid (counted.same .pipe (by decide))),
      ((State.copyGone_keeps _ c).after rfl ((s.lossTold_keeps c).mono rfl)).same⟩
  case shortfall =>
    rintro ⟨ended, untold, counts⟩ lost on request marked known fits rate token own
    let x := s.frame (s.copy c).fid
    let t := s.lossTold c
    let v := t.noticeSent (s.copy c).dst (s.copy c).port x.port 3 (s.shortfall c)
    have stw : v.stw = (s.outcomeTold c).stw :=
      ((t.noticeSent_keeps _ _ _ _ _).same .stw (by decide)).trans ((State.count_keeps _ _ _ _).same .stw (by decide))
    have fid : (v.copy c).fid = (s.copy c).fid := by
      rw [State.copy_congr (congrArg Stw.copies stw), State.outcomeTold, State.copy_setCopy]
    have gone : pruned (s.copy c).fid v (v.copyGone c) := fid ▸ v.copyGone_pruned c
    have crw : (v.copyGone c).crw = v.crw := (v.copyGone_keeps c).same .crw (by decide)
    have number : t.pipe.nextFid = s.pipe.nextFid :=
      congrArg Pipe.nextFid ((s.lossTold_keeps c).same .pipe (by decide))
    have tokens : t.noticeTokens (s.copy c).dst = s.noticeTokens (s.copy c).dst :=
      State.noticeTokens_congr ((s.lossTold_keeps c).same .crw (by decide)) _
    obtain ⟨paid, -⟩ := t.noticeTokens_noticeSent (s.copy c).dst (s.copy c).port x.port 3 (s.shortfall c)
    obtain ⟨data, -, port, queues, -⟩ :=
      t.frame_noticeSent (s.copy c).dst (s.copy c).port x.port 3 (s.shortfall c)
    rw [number] at data port queues
    rw [tokens] at paid
    have notice := gone.frame_ne (Ne.symm own)
    refine ⟨_, exec_copyOutcome_shortfall ended untold counts lost on request ⟨marked, known, fits⟩ rate token,
      State.told_copyGone (State.told_of_stw stw), (State.noticeTokens_congr crw _).trans paid, ?_, ?_, ?_, ?_⟩
    · rw [gone.nextFid, State.nextFid_noticeSent, number]
    · exact (congrArg Frame.data notice).trans data
    · exact (congrArg Frame.port notice).trans port
    · refine (congrArg (·.fab.queues) notice).trans (queues.trans ?_)
      rw [(regsStand.lossTold s c).rf (a := crwNoticeCfg) 13 11 (by decide)]

end

/-! PROOFS. The check units: the verdict on a frame, the trailer of a copy, and the profiles (R257 to R267). -/

namespace Sys2Proof.Machine

/-! ## Frames that are discarded before they cross (R223, R278, R290) -/

/-- What decides whether a frame still owes a notice. -/
def Frame.noticeState (x : Frame) : List (Nat × Nat) × Bool × Bool := (x.events, x.noticed, x.settled)

/-- Frame f owes the notice in `t` that it owes in `s`. -/
def noticeStands (f : Nat) (s t : State) : Prop := (t.frame f).noticeState = (s.frame f).noticeState

section
variable {f : Nat} {s t u : State}

theorem noticeStands.fields (h : noticeStands f s t) : (t.frame f).events = (s.frame f).events ∧
    (t.frame f).noticed = (s.frame f).noticed ∧ (t.frame f).settled = (s.frame f).settled := by
  simpa only [noticeStands, Frame.noticeState, Prod.mk.injEq] using h

theorem noticeStands.trans (h : noticeStands f s t) (k : noticeStands f t u) : noticeStands f s u := Eq.trans k h

theorem State.frame_of_frames (h : t.pipe.frames = s.pipe.frames) (g : Nat) : t.frame g = s.frame g := by
  rw [State.frame, State.frame, h]

theorem noticeStands.of_frame (h : t.frame f = s.frame f) : noticeStands f s t := congrArg Frame.noticeState h

theorem noticeStands.setFrame (t : State) {x : Frame} (h : x.noticeState = (s.frame f).noticeState) :
    noticeStands f s (t.setFrame f x) := (congrArg Frame.noticeState (t.frame_setFrame f x)).trans h

end

section
variable (s : State) (f : Nat)

theorem noticeStands.dropMark : noticeStands f s (s.dropMark f) := by
  unfold State.dropMark
  split
  · rfl
  · exact .setFrame _ rfl

theorem noticeStands.frameRelease : noticeStands f s (s.frameRelease f) :=
  have sets : noticeStands f s (s.dropSets f fun _ => false) := .setFrame _ rfl
  sets.trans (.dropMark _ f)

theorem State.frames_each {α : Type} {g : State → α → State} (step : ∀ u x, (g u x).pipe.frames = u.pipe.frames)
    (t : State) (l : List α) : (t.each l g).pipe.frames = t.pipe.frames :=
  List.foldlRecOn (motive := fun u : State => u.pipe.frames = t.pipe.frames) l g rfl
    fun u stands x _ => (step u x).trans stands

/-- XOFF and XON change ports alone. -/
theorem State.frames_xoffUpdate (n : Nat) : (s.xoffUpdate n).pipe.frames = s.pipe.frames := by
  refine State.frames_each (fun u c => ?_) s _
  unfold State.xoffClass
  dsimp only
  repeat' split
  · rfl
  · rfl
  · refine State.frames_each (fun t p => ?_) u _
    split
    · rfl
    · rw [State.pipe_count]
      rfl
  · refine State.frames_each (fun t p => ?_) u _
    split
    · rfl
    · rfl
  · rfl

theorem noticeStands.freeFrameUnits : noticeStands f s (s.freeFrameUnits f) := by
  unfold State.freeFrameUnits
  dsimp only
  split
  · rfl
  · have freed : noticeStands f s (s.setFrame f { s.frame f with units := 0, hr := 0, counted := none }) :=
      .setFrame _ rfl
    exact freed.trans (.of_frame (State.frame_of_frames (State.frames_xoffUpdate _ _) f))

theorem noticeStands.freeBuf : noticeStands f s (s.freeBuf f) := by
  unfold State.freeBuf
  dsimp only
  split
  · rfl
  · exact .setFrame _ rfl

/-- No list of its slice and no queue names frame f. -/
def State.leaveLists (s : State) (f : Nat) : State :=
  let k := (s.frame f).slice
  let t := s.setSl k ((s.sl k).without f)
  { t with stw := { t.stw with voqs := t.stw.voqs.map fun (p : Nat × Voq) => (p.1, p.2.without f) } }

theorem State.frame_leaveLists (g : Nat) : (s.leaveLists f).frame g = s.frame g := rfl

/-- What frame f holds has been released, and no list or queue names it. -/
def State.released (s : State) (f : Nat) : State := (((s.frameRelease f).freeFrameUnits f).freeBuf f).leaveLists f

theorem noticeStands.released : noticeStands f s (s.released f) :=
  ((noticeStands.frameRelease s f).trans (.freeFrameUnits _ f)).trans
    ((noticeStands.freeBuf _ f).trans (.of_frame (State.frame_leaveLists _ f f)))

/-- A frame that is over, with no head and in no queue. -/
def Frame.closed (x : Frame) : Frame :=
  { x with
    isOver := true, head := { x.head with pos := .none, remote := [] }, fab := { x.fab with queues := [], owed := [] } }

theorem Frame.noticeState_closed (x : Frame) : x.closed.noticeState = x.noticeState := rfl

/-- A frame that is discarded. -/
def State.closeFrame (s : State) (f : Nat) : State :=
  (s.released f).setFrame f ((s.released f).frame f).closed

end

/-- The record of a frame that owes a notice stays. -/
theorem State.tidy_of_owed {s : State} {f : Nat} (events : (s.frame f).events ≠ [])
    (undecided : (s.frame f).noticed = false) (settled : (s.frame f).settled = true) : s.tidy f = s := by
  refine if_neg fun goes => ?_
  obtain ⟨-, -, -, -, -, paid, -⟩ := goes
  simp [events, undecided, settled] at paid

section
variable {s : State} {f : Nat} (has : s.hasFrame f = true)
include has

theorem State.discardFrame_eq : s.discardFrame f = (s.closeFrame f).tidy f := by
  simp only [State.discardFrame, has, Bool.not_true, Bool.false_eq_true, if_false, State.closeFrame, State.released,
    State.leaveLists, Frame.closed]

theorem State.discardFrame_gone : (s.discardFrame f).hasFrame f = false ∨
    (((s.discardFrame f).frame f).isOver = true ∧ ((s.discardFrame f).frame f).fab.queues = []) := by
  rw [State.discardFrame_eq has]
  refine ((s.closeFrame f).tidy_pruned f).frame.imp_right fun stands => ?_
  rw [stands, State.closeFrame, State.frame_setFrame]
  exact ⟨rfl, rfl⟩

theorem State.events_discardFrame (events : (s.frame f).events ≠ []) (undecided : (s.frame f).noticed = false)
    (settled : (s.frame f).settled = true) : ((s.discardFrame f).frame f).events = (s.frame f).events := by
  have closed : noticeStands f s (s.closeFrame f) :=
    (noticeStands.released s f).trans (.setFrame _ (Frame.noticeState_closed _))
  obtain ⟨same, noticed, ended⟩ := closed.fields
  rw [State.discardFrame_eq has, State.tidy_of_owed (by rw [same]; exact events) (by rw [noticed, undecided])
    (by rw [ended, settled]), same]

end

/-! ## Frames whose ingress ends without crossing (R243) -/

section
variable (s : State) (f : Nat)

theorem State.frame_settle (why : Nat) : (s.settle f why).frame f = { s.frame f with settled := true } :=
  s.frame_setFrame f _

theorem State.hasFrame_settle (why : Nat) : (s.settle f why).hasFrame f = true := s.hasFrame_setFrame f _

theorem State.endIngress_gone (why : Nat) : (s.endIngress f why).hasFrame f = false ∨
    (((s.endIngress f why).frame f).isOver = true ∧ ((s.endIngress f why).frame f).fab.queues = []) :=
  State.discardFrame_gone (s.hasFrame_settle f why)

end

/-- The record of a frame that owes a notice stays with its events when its ingress ends. -/
theorem State.events_endIngress {s : State} {f : Nat} (events : (s.frame f).events ≠ [])
    (undecided : (s.frame f).noticed = false) (why : Nat) :
    ((s.endIngress f why).frame f).events = (s.frame f).events := by
  have settled := s.frame_settle f why
  rw [State.endIngress, State.events_discardFrame (s.hasFrame_settle f why), settled]
  · rwa [settled]
  · rwa [settled]
  · rw [settled]

theorem State.frame_befall {s : State} {f : Nat} (request : (s.frame f).head.isRequest = true) (typ reason : Nat) :
    (s.befall f typ reason).frame f = { s.frame f with events := (s.frame f).events ++ [(typ, reason)] } := by
  rw [State.befall, if_pos request, State.frame_setFrame]

/-! ## The verdict on a frame (R261, R264, R265) -/

section
variable {s t : State} (regs : regsStand s t)
include regs

theorem regsStand.profile (p : Nat) : t.profile p = s.profile p := by
  have cfg : offWrap (chkProfCfg p) = true := offWrap_of_window (by unfold chkProfCfg; omega)
  have poly : 0x3000000 ≤ chkProfPolyLo p := by unfold chkProfPolyLo; omega
  have init : 0x3000000 ≤ chkProfInitLo p := by unfold chkProfInitLo; omega
  simp only [State.profile, regs.rb _ cfg, regs.rf _ _ cfg, regs.rd64 poly, regs.rd64 init]

end

section
variable (s : State) (f : Nat)

theorem State.frame_verified :
    (s.verified f).frame f = { s.frame f with fab := { (s.frame f).fab with verify := 2 } } := s.frame_setFrame f _

theorem State.frame_strip (err : Bool) : let x := s.frame f
    let d := stripTrailer x.data x.head.layers x.head.shimVer (s.profile x.head.chkProfile).width err
    (s.strip f err).frame f = { x with data := d, len := max 64 (d.length + 4) } :=
  (State.frame_congr (State.pipe_count _ _ _ _) f).trans (s.frame_setFrame f _)

/-- Frame f without its trailer, its verdict given. -/
def State.stripVerified (s : State) (f : Nat) (err : Bool) : State := (s.strip f err).verified f

theorem State.stripVerified_keeps (err : Bool) : Keeps [.regs, .mast, .pipe] s (s.stripVerified f err) :=
  (State.verified_keeps _ f).after rfl (s.strip_keeps f err)

end

/-- A frame that is stripped after a count has the data that R261 gives and its verdict, and its bytes as received. -/
theorem State.frame_stripVerified (s : State) (f e o i : Nat) (err : Bool) : let x := s.frame f
    let y := ((s.count e o i).stripVerified f err).frame f
    y.data = stripTrailer x.data x.head.layers x.head.shimVer (s.profile x.head.chkProfile).width err ∧
      y.fab.verify = 2 ∧ y.orig = x.orig := by
  have frame : (s.count e o i).frame f = s.frame f := State.frame_congr (s.pipe_count e o i) f
  intro x y
  have result : y = _ := State.frame_verified _ f
  rw [result, State.frame_strip, frame, (regsStand.count s e o i).profile]
  exact ⟨rfl, rfl, rfl⟩

/-- A failed verify that discards its frame. -/
theorem State.verifyDiscard_gone (s : State) (f reason : Nat) (notice : Bool) :
    let u := s.verifyDiscard f reason notice
    u.hasFrame f = false ∨ ((u.frame f).isOver = true ∧ (u.frame f).fab.queues = []) := State.endIngress_gone _ f 3

theorem State.events_verifyDiscard {s : State} {f : Nat} (request : (s.frame f).head.isRequest = true)
    (undecided : (s.frame f).noticed = false) (reason : Nat) :
    ((s.verifyDiscard f reason true).frame f).events = (s.frame f).events ++ [(5, reason)] := by
  have befallen := State.frame_befall request 5 reason
  rw [State.verifyDiscard, if_pos rfl, State.events_endIngress, befallen]
  · rw [befallen]
    simp
  · rwa [befallen]

/-! ## CHECK_VERIFY -/

section
variable {s : State} {f : Nat}

theorem exec_checkVerify_idle (idle : ¬((s.frame f).fab.verify = 1 ∧ (s.frame f).complete = true ∧
    (s.frame f).isOver = false)) : exec (.checkVerify f) s = .next s := by
  refine if_pos (Classical.byContradiction fun due => idle ?_)
  simpa using due

variable (waits : (s.frame f).fab.verify = 1) (complete : (s.frame f).complete = true)
  (lives : (s.frame f).isOver = false)
include waits complete lives

theorem exec_checkVerify_bad (bad : (s.frame f).bad = true) : exec (.checkVerify f) s = .next (s.verified f) :=
  (if_neg (by simp [waits, complete, lives])).trans (if_pos bad)

variable (good : (s.frame f).bad = false)
include good

theorem exec_checkVerify_good : exec (.checkVerify f) s = .next (if s.verifyReason (s.frame f) = 0 then
    (s.count evChkVerifyPass (s.frame f).head.chkProfile 0).stripVerified f false
    else s.verifyFail f (s.verifyReason (s.frame f))) :=
  (if_neg (by simp [waits, complete, lives])).trans (if_neg (by simp [good]))

theorem exec_checkVerify_passes (passes : s.verifyReason (s.frame f) = 0) : exec (.checkVerify f) s = .next
    ((s.count evChkVerifyPass (s.frame f).head.chkProfile 0).stripVerified f false) := by
  rw [exec_checkVerify_good waits complete lives good, if_pos passes]

variable (fails : s.verifyReason (s.frame f) ≠ 0)
include fails

/-- The failure has been counted by its profile and reason. -/
def State.failCounted (s : State) (f : Nat) : State :=
  s.count evChkVerifyFail (s.frame f).head.chkProfile (s.verifyReason (s.frame f) - 0x60)

theorem exec_checkVerify_put (put : shimOp (s.frame f).head.shim = 2) : exec (.checkVerify f) s = .next
    ((s.failCounted f).verifyDiscard f (s.verifyReason (s.frame f))
      !(s.profile (s.frame f).head.chkProfile).silent) := by
  rw [exec_checkVerify_good waits complete lives good, if_neg fails]
  exact congrArg _ (if_pos put)

variable (other : shimOp (s.frame f).head.shim ≠ 2)
include other

theorem exec_checkVerify_discards
    (silent : (s.profile (s.frame f).head.chkProfile).silent = true ∨ s.verifyReason (s.frame f) = 0x64) :
    exec (.checkVerify f) s = .next ((s.failCounted f).verifyDiscard f (s.verifyReason (s.frame f)) false) := by
  rw [exec_checkVerify_good waits complete lives good, if_neg fails]
  exact congrArg _ ((if_neg other).trans (if_pos silent))

theorem exec_checkVerify_marks (loud : (s.profile (s.frame f).head.chkProfile).silent = false)
    (layers : s.verifyReason (s.frame f) ≠ 0x64) : exec (.checkVerify f) s = .next
      (((s.failCounted f).stripVerified f true).count evChkRespMarked (s.frame f).port 0) := by
  rw [exec_checkVerify_good waits complete lives good, if_neg fails]
  exact congrArg _ ((if_neg other).trans (if_neg (by simp [loud, layers])))

end

/-! ## CHECK_APPEND (R262) -/

section
variable {s : State} {c : Nat}

/-- Every cell of copy c's frame has come to its egress slice. -/
def State.cellsCome (s : State) (c : Nat) : Bool :=
  match s.egFrame (s.copy c).fid (s.copy c).dst with
  | some g => decide (g.want ≤ g.got)
  | none => false

theorem State.cellsCome_iff : s.cellsCome c = true ↔
    ∃ g, s.egFrame (s.copy c).fid (s.copy c).dst = some g ∧ g.want ≤ g.got := by
  unfold State.cellsCome
  split
  · next g found => simp [found]
  · next none => simp [none]

/-- The append unit of copy c has the copy's cells. -/
def State.appendDue (s : State) (c : Nat) : Prop :=
  (s.copy c).chk = 1 ∧ (s.copy c).st < 2 ∧ ∃ g, s.egFrame (s.copy c).fid (s.copy c).dst = some g ∧ g.want ≤ g.got

/-- The trailer of copy c can be made. -/
def State.trailerKnown (s : State) (c : Nat) : Prop :=
  let x := s.frame (s.copy c).fid
  (s.profile x.head.chkProfile).valid = true ∧ x.head.layers.marked = true ∧ ipKnown x.data x.head.layers.ip = true

/-- What the trailer of copy c makes of the copy. -/
def State.withTrailer (s : State) (c : Nat) : Copy :=
  let x := s.frame (s.copy c).fid
  { s.copy c with
    chk := 2, bytes := appendTrailer x.data x.head.layers x.head.shimVer (s.profile x.head.chkProfile) }

/-- Copy c ends with result CHECK, and its failure is counted. -/
def State.appendFailed (s : State) (c : Nat) : State :=
  (s.count evChkAppendFail (s.copy c).dst 0).copyEnd c 0x16

theorem State.appendDue_iff :
    s.appendDue c ↔ ¬((s.copy c).chk ≠ 1 ∨ 2 ≤ (s.copy c).st ∨ (!s.cellsCome c) = true) := by
  rw [State.appendDue, ← State.cellsCome_iff]
  simp

theorem exec_checkAppend_idle (idle : ¬s.appendDue c) : exec (.checkAppend c) s = .next s :=
  if_pos (Classical.byContradiction fun due => idle (State.appendDue_iff.2 due))

theorem exec_checkAppend_known (due : s.appendDue c) (known : s.trailerKnown c) : exec (.checkAppend c) s = .next
    ((s.setCopy c (s.withTrailer c)).count evChkAppend (s.copy c).dst 0) := by
  obtain ⟨valid, marked, ip⟩ := known
  exact (if_neg (State.appendDue_iff.1 due)).trans (if_neg (by simp [valid, marked, ip]))

theorem exec_checkAppend_unknown (due : s.appendDue c) (unknown : ¬s.trailerKnown c) : exec (.checkAppend c) s = .next
    ((s.appendFailed c).copyGone c) := by
  refine (if_neg (State.appendDue_iff.1 due)).trans (if_pos (Classical.byContradiction fun known => unknown ?_))
  simpa [State.trailerKnown] using known

theorem State.copy_copyEnd (s : State) (c r : Nat) :
    ((s.copyEnd c r).copy c).st = 3 ∧ ((s.copyEnd c r).copy c).result = r := by
  rw [State.copyEnd, State.copy_setCopy]
  exact ⟨rfl, rfl⟩

theorem State.appendFailed_keeps (s : State) (c : Nat) : Keeps [.regs, .mast, .stw, .sht] s (s.appendFailed c) :=
  (State.copyEnd_keeps _ c _).after rfl ((s.count_keeps _ _ _).mono rfl)

end

/-! ## CHECK_PROFILE_WRITE (R263, R266, R267) -/

theorem regAt_chkProfCfg : ∀ p < 64, regAt (chkProfCfg p) =
    some ({ base := 0x0b000100, n := 64, st := 0x20, rw := 0x8007030f }, p, 0) := by
  decide +kernel

section
variable {s : State} {p : Nat} {v : Word}

/-- The fields of a profile are well formed when `v` is written with its polynomial and start value as they stand. -/
def State.profileOk (s : State) (p : Nat) (v : Word) : Prop :=
  (1 ≤ fld v 3 0 ∧ fld v 3 0 ≤ 8) ∧ fld v 17 16 ≠ 3 ∧ s.rd64 (chkProfPolyLo p) % 2 = 1 ∧
    s.rd64 (chkProfPolyLo p) < 2 ^ (8 * fld v 3 0) ∧ s.rd64 (chkProfInitLo p) < 2 ^ (8 * fld v 3 0)

/-- The check of the fields as a profile write makes it. -/
def State.profileGood (s : State) (p : Nat) (v : Word) : Bool :=
  decide (1 ≤ fld v 3 0 ∧ fld v 3 0 ≤ 8) && fld v 17 16 != 3 && s.rd64 (chkProfPolyLo p) % 2 == 1 &&
    decide (s.rd64 (chkProfPolyLo p) < 2 ^ (8 * fld v 3 0) ∧ s.rd64 (chkProfInitLo p) < 2 ^ (8 * fld v 3 0))

theorem State.profileOk_iff : s.profileOk p v ↔ s.profileGood p v = true := by
  simp [State.profileOk, State.profileGood, and_assoc]

/-- The fields that are fixed while VALID is 1 are written as they stand. -/
def State.profileSame (s : State) (p : Nat) (v : Word) : Prop :=
  fld v 17 16 = s.rf (chkProfCfg p) 17 16 ∧ fld v 9 8 = s.rf (chkProfCfg p) 9 8 ∧
    fld v 3 0 = s.rf (chkProfCfg p) 3 0

theorem State.profileSame_iff : s.profileSame p v ↔ profFixed v = profFixed (s.rd (chkProfCfg p)) := by
  rw [profFixed, profFixed, Prod.mk.injEq, Prod.mk.injEq]
  rfl

/-- The write of a profile keeps to R267. -/
def State.profileAllows (s : State) (p : Nat) (v : Word) : Prop :=
  if s.rb (chkProfCfg p) 31 = true then s.profileSame p v else v.getLsbD 31 = false ∨ s.profileOk p v

theorem State.profileAllows_valid (valid : s.rb (chkProfCfg p) 31 = true) :
    s.profileAllows p v ↔ s.profileSame p v := by
  rw [State.profileAllows, if_pos valid]

theorem State.profileAllows_invalid (invalid : s.rb (chkProfCfg p) 31 = false) :
    s.profileAllows p v ↔ v.getLsbD 31 = false ∨ s.profileOk p v := by
  rw [State.profileAllows, if_neg (by simp [invalid])]

theorem State.profileWrite_allowed (h : s.profileAllows p v) : s.profileWrite p v = s.plainWrite (chkProfCfg p) v := by
  cases valid : s.rb (chkProfCfg p) 31
  case true => exact (if_pos valid).trans (if_pos (State.profileSame_iff.1 ((State.profileAllows_valid valid).1 h)))
  case false =>
    refine (if_neg (by simp [valid])).trans (if_neg fun bad => ?_)
    obtain ⟨sets, unfit⟩ : v.getLsbD 31 = true ∧ (!s.profileGood p v) = true := bad
    rcases (State.profileAllows_invalid valid).1 h with clear | ok
    · exact absurd sets (by rw [clear]; exact Bool.false_ne_true)
    · exact absurd unfit (by rw [State.profileOk_iff.1 ok]; exact Bool.false_ne_true)

theorem State.profileWrite_refused (h : ¬s.profileAllows p v) : s.profileWrite p v = s.setB chkErr 0 := by
  cases valid : s.rb (chkProfCfg p) 31
  case true =>
    rw [State.profileAllows_valid valid, State.profileSame_iff] at h
    exact (if_pos valid).trans (if_neg h)
  case false =>
    rw [State.profileAllows_invalid valid, State.profileOk_iff, not_or, Bool.not_eq_false, Bool.not_eq_true] at h
    obtain ⟨sets, unfit⟩ := h
    have bad : v.getLsbD 31 = true ∧ (!s.profileGood p v) = true := ⟨sets, by rw [unfit]; rfl⟩
    exact (if_neg (by simp [valid])).trans (if_pos bad)

/-- A profile takes every field of its register. -/
theorem checkProfileWrite_takes (hp : p < 64) (h : s.profileAllows p v) : let a := chkProfCfg p
    ∃ u, exec (.checkProfileWrite p v) s = .next u ∧ u.rb a 31 = v.getLsbD 31 ∧ u.rb a 18 = v.getLsbD 18 ∧
      u.rf a 17 16 = fld v 17 16 ∧ u.rb a 9 = v.getLsbD 9 ∧ u.rb a 8 = v.getLsbD 8 ∧ u.rf a 3 0 = fld v 3 0 ∧
      (∀ b, b ≠ a → u.rd b = s.rd b) ∧ onlyIn [.regs] s u := by
  intro a
  have row := regAt_chkProfCfg p hp
  exact ⟨_, congrArg Host.Outcome.next (State.profileWrite_allowed h), s.rb_plainWrite row v (by decide),
    s.rb_plainWrite row v (by decide), s.rf_plainWrite row v (by decide) (by decide),
    s.rb_plainWrite row v (by decide), s.rb_plainWrite row v (by decide),
    s.rf_plainWrite row v (by decide) (by decide), fun b ne => s.rd_plainWrite_ne v ne, (s.plainWrite_keeps a v).same⟩

theorem checkProfileWrite_refuses (h : ¬s.profileAllows p v) : ∃ u, exec (.checkProfileWrite p v) s = .next u ∧
    u.rb chkErr 0 = true ∧ (∀ b, b ≠ chkErr → u.rd b = s.rd b) ∧ onlyIn [.regs] s u :=
  ⟨_, congrArg Host.Outcome.next (State.profileWrite_refused h), s.rb_setB chkErr 0 (by decide),
    fun b ne => s.rd_setB_ne 0 ne, (s.setB_keeps chkErr 0).same⟩

end

end Sys2Proof.Machine

section
open Sys2Proof Sys2Proof.Machine

/-- Settles O38: a verdict and an append are each read off the one state that their premises leave, and a profile
write is the write of its register, or sets CFG_REJECT. -/
theorem checkUnits : Obligations.CheckUnits := by
  unfold Obligations.CheckUnits
  refine ⟨fun f s => ⟨exec_checkVerify_idle, ?bad, ?passes, ?put, ?discards, ?marks⟩,
    fun c s => ⟨exec_checkAppend_idle, ?known, ?unknown⟩,
    fun p v s hp => ⟨?same, ?changed, ?taken, ?malformed⟩⟩
  case bad =>
    rintro ⟨waits, complete, lives⟩ bad
    exact ⟨_, exec_checkVerify_bad waits complete lives bad, s.frame_verified f, (s.verified_keeps f).same⟩
  case passes =>
    rintro ⟨waits, complete, lives⟩ good passes
    obtain ⟨data, verify, orig⟩ :=
      s.frame_stripVerified f evChkVerifyPass (s.frame f).head.chkProfile 0 false
    exact ⟨_, exec_checkVerify_passes waits complete lives good passes, data, verify, orig,
      ((State.stripVerified_keeps _ f _).after rfl ((s.count_keeps _ _ _).mono rfl)).same⟩
  case put =>
    rintro ⟨waits, complete, lives⟩ good fails put
    refine ⟨_, exec_checkVerify_put waits complete lives good fails put, State.verifyDiscard_gone _ f _ _,
      fun loud request undecided => ?_⟩
    have frame : (s.failCounted f).frame f = s.frame f := State.frame_congr (s.pipe_count _ _ _) f
    rw [loud, Bool.not_false, State.events_verifyDiscard, frame]
    · rwa [frame]
    · rwa [frame]
  case discards =>
    rintro ⟨waits, complete, lives⟩ good fails other silent
    exact ⟨_, exec_checkVerify_discards waits complete lives good fails other silent,
      State.verifyDiscard_gone _ f _ _⟩
  case marks =>
    rintro ⟨waits, complete, lives⟩ good fails other loud layers
    let t := (s.failCounted f).stripVerified f true
    obtain ⟨data, verify, -⟩ := s.frame_stripVerified f evChkVerifyFail (s.frame f).head.chkProfile
      (s.verifyReason (s.frame f) - 0x60) true
    have frame := State.frame_congr (t.pipe_count evChkRespMarked (s.frame f).port 0) f
    refine ⟨_, exec_checkVerify_marks waits complete lives good fails other loud layers, ?_, ?_, ?_⟩
    · exact (congrArg Frame.data frame).trans data
    · exact (congrArg (·.fab.verify) frame).trans verify
    · exact ((State.count_keeps _ _ _ _).after rfl
        ((State.stripVerified_keeps _ f _).after rfl ((s.count_keeps _ _ _).mono rfl))).same
  case known =>
    intro due known
    let t := s.setCopy c (s.withTrailer c)
    have stands := State.copy_congr (congrArg Stw.copies
      ((t.count_keeps evChkAppend (s.copy c).dst 0).same .stw (by decide)))
    exact ⟨_, exec_checkAppend_known due known, (stands c).trans (s.copy_setCopy c _),
      fun k ne => (stands k).trans (s.copy_setCopy_ne c _ ne),
      ((t.count_keeps _ _ _).after rfl ((s.setCopy_keeps _ _).mono rfl)).same⟩
  case unknown =>
    intro due unknown
    refine ⟨_, exec_checkAppend_unknown due unknown, (State.copy_copyGone _ c).imp_right fun same => ?_,
      ((State.copyGone_keeps _ c).after rfl ((s.appendFailed_keeps c).mono rfl)).same⟩
    rw [same]
    exact State.copy_copyEnd _ c 0x16
  case same => exact fun valid same => checkProfileWrite_takes hp ((State.profileAllows_valid valid).2 same)
  case changed =>
    exact fun valid changed => checkProfileWrite_refuses (mt (State.profileAllows_valid valid).1 changed)
  case taken => exact fun invalid ok => checkProfileWrite_takes hp ((State.profileAllows_invalid invalid).2 ok)
  case malformed =>
    intro invalid sets bad
    refine checkProfileWrite_refuses fun allowed => ?_
    rcases (State.profileAllows_invalid invalid).1 allowed with clear | ok
    · exact absurd sets (by rw [clear]; exact Bool.false_ne_true)
    · exact bad ok

end

/-! PROOFS. The words of the Lofts instructions, and the instructions that end in their issue slot by register,
immediate and pc alone (R332 to R334, R339, R340). -/

namespace Sys2Proof.Machine

/-! ## Instruction words (R339) -/

/-- The fields of an encoded word are the fields. -/
theorem lftFields_lftEncode {op : Nat} (h : op < 256) (f : LFields) : lftFields (lftEncode op f) = f := by
  obtain ⟨d, a, b, imm⟩ := f
  have fields := lftEncode_toNat op h ⟨d, a, b, imm⟩
  simp only at fields
  have := d.isLt
  have := a.isLt
  have := b.isLt
  have := imm.isLt
  rw [lftFields, fields]
  congr 1 <;> refine BitVec.eq_of_toNat_eq ?_ <;> rw [BitVec.toNat_ofNat, bits] <;> omega

theorem lftEncode_inj {o p : Nat} {f g : LFields} (ho : o < 256) (hp : p < 256) (same : lftEncode o f = lftEncode p g) :
    o = p ∧ f = g := by
  constructor
  · rw [← lftEncode_op o ho f, same, lftEncode_op p hp g]
  · rw [← lftFields_lftEncode ho f, same, lftFields_lftEncode hp g]

/-! ## An instruction that issues -/

section
variable {c : Instr} {s : State} {t op : Nat} {f : LFields}

/-- The immediate of an instruction that issues is in its range. -/
theorem State.issues.immOk (h : s.issues t op f) : immOk op f.imm.toNat = true := by
  obtain ⟨-, -, fields, -⟩ := h
  rw [fieldsOk, Bool.and_eq_true] at fields
  exact fields.2

/-- A thread other than the Attic controller that issues is one of the 4,096, and its engine runs. -/
theorem State.issues.of_loft (h : s.issues t op f) (ht : t ≠ atcThread) : t < 4096 ∧ s.engRunning (t / 8) = true := by
  obtain ⟨may, -⟩ := h
  simp only [State.mayIssue, if_neg ht, Bool.and_eq_true, decide_eq_true_eq] at may
  obtain ⟨-, ⟨⟨lt, runs⟩, -⟩, -⟩ := may
  exact ⟨lt, runs⟩

variable (row : exec c s = .next (s.lofts t op f)) (defined : op < 256 ∧ opDefined op = true) (h : s.issues t op f)
include row defined h

/-- The command of an instruction that issues is the instruction's effect on the state after the fetch. -/
theorem exec_of_issues {b : LBody} (body : lftBody busPort op = b) : exec c s = .next (b (s.fetched t) t f) := by
  rw [row, s.lofts_issues t op f h defined.1 defined.2, body]

theorem exec_retires_result {v : Word64}
    (body : lftBody busPort op (s.fetched t) t f = (s.fetched t).result t f v) :
    ∃ u, exec c s = .next u ∧ retires s u t f.d.toNat v (s.nextPc t) :=
  ⟨_, (exec_of_issues row defined h rfl).trans (congrArg _ body), retires_result s t op f h v⟩

theorem exec_retires_alu (g : Word64 → Word64 → Word64) (body : lftBody busPort op = lftAlu g) :
    ∃ u, exec c s = .next u ∧ retires s u t f.d.toNat (g (s.xa t f) (s.xb t f)) (s.nextPc t) := by
  refine exec_retires_result row defined h ?_
  rw [body, lftAlu, s.xa_fetched t op f h, s.xb_fetched t op f h]

theorem exec_retires_aluImm (g : Word64 → Word64 → Word64) (body : lftBody busPort op = lftAluImm g) :
    ∃ u, exec c s = .next u ∧ retires s u t f.d.toNat (g (s.xa t f) (f.imm.signExtend 64)) (s.nextPc t) := by
  refine exec_retires_result row defined h ?_
  rw [body, lftAluImm, s.xa_fetched t op f h, LFields.simm]

theorem exec_retires_jump {p q : Nat}
    (body : lftBody busPort op (s.fetched t) t f = (s.fetched t).goTo t p) (target : p % 32768 = q) :
    ∃ u, exec c s = .next u ∧ retires s u t 0 0 q :=
  ⟨_, (exec_of_issues row defined h rfl).trans (congrArg _ body), target ▸ retires_jump s t op f h p⟩

/-- A branch goes to pc plus the signed immediate where its condition holds, and on where it does not. -/
theorem exec_retires_branch {P : Prop} [Decidable P] (cond : Word64 → Word64 → Bool)
    (body : lftBody busPort op = lftBranch cond) (taken : cond (s.xa t f) (s.xb t f) = true ↔ P) :
    ∃ u, exec c s = .next u ∧ retires s u t 0 0
      (if P then (BitVec.ofNat 64 (s.thr t).pc + f.imm.signExtend 64).toNat % 32768 else s.nextPc t) := by
  have effect : lftBody busPort op (s.fetched t) t f = (s.fetched t).goTo t
      (if P then (BitVec.ofNat 64 (s.thr t).pc + f.imm.signExtend 64).toNat else (s.thr t).pc + 1) := by
    simp only [body, lftBranch, s.xa_fetched t op f h, s.xb_fetched t op f h, taken, State.goOn, s.pc_fetched t op f h,
      LFields.simm]
    split <;> rfl
  refine exec_retires_jump row defined h effect ?_
  split <;> rfl

/-- A branch that is taken where `P` fails. -/
theorem exec_retires_branch_unless {P : Prop} [Decidable P] (cond : Word64 → Word64 → Bool)
    (body : lftBody busPort op = lftBranch cond) (taken : cond (s.xa t f) (s.xb t f) = true ↔ ¬P) :
    ∃ u, exec c s = .next u ∧ retires s u t 0 0
      (if P then s.nextPc t else (BitVec.ofNat 64 (s.thr t).pc + f.imm.signExtend 64).toNat % 32768) := by
  simpa only [ite_not] using exec_retires_branch row defined h cond body taken

theorem exec_retires_link {target : Word64}
    (body : lftBody busPort op (s.fetched t) t f = (s.fetched t).link t f target) :
    ∃ u, exec c s = .next u ∧
      retires s u t f.d.toNat (BitVec.ofNat 64 (s.nextPc t)) (target.toNat % 32768) := by
  refine ⟨_, (exec_of_issues row defined h rfl).trans (congrArg _ body), ?_⟩
  rw [State.link, s.pc_fetched t op f h]
  exact retires_goTo s t op f h f.d.toNat _ _

end

/-! ## The values that R340 gives -/

theorem ofNat_toNat_mul (x y : Word64) : BitVec.ofNat 64 (x.toNat * y.toNat) = x * y := by
  rw [BitVec.ofNat_mul, BitVec.ofNat_toNat, BitVec.ofNat_toNat, BitVec.setWidth_eq, BitVec.setWidth_eq]

theorem opSlt_eq (x y : Word64) : opSlt x y = if x.toInt < y.toInt then 1 else 0 := by
  simp only [opSlt, BitVec.slt, decide_eq_true_eq]

theorem opSltu_eq (x y : Word64) : opSltu x y = if x.toNat < y.toNat then 1 else 0 := by
  simp only [opSltu, BitVec.ult, decide_eq_true_eq]

/-- BINS: LEN bits of `x` stand in `w` from POS, and other bits of `w` stand. -/
theorem getLsbD_putBits (w x : Word64) {pos len i : Nat} (some : 1 ≤ len) (hi : i < 64) :
    (BitVec.ofNat 64 (putBits w.toNat (pos + len - 1) pos x.toNat)).getLsbD i =
      if pos ≤ i ∧ i < pos + len then x.getLsbD (i - pos) else w.getLsbD i := by
  have inside : pos ≤ i ∧ i ≤ pos + len - 1 ↔ pos ≤ i ∧ i < pos + len := by omega
  rw [BitVec.getLsbD_ofNat, testBit_putBits _ _ _ _ _ (by omega), decide_eq_true hi, Bool.true_and]
  simp only [inside]
  rfl

/-- CLZ looks for the highest bit that is set. -/
theorem leadingZeros_eq_findIdx (x : Word64) :
    leadingZeros x = (List.range 64).findIdx fun i => x.getLsbD (63 - i) := by
  simp only [leadingZeros, upto, List.takeWhile_eq_take_findIdx_not, Bool.not_not, List.length_take]
  exact Nat.min_eq_left List.findIdx_le_length

theorem leadingZeros_spec (x : Word64) : leadingZeros x ≤ 64 ∧ (∀ i < leadingZeros x, x.getLsbD (63 - i) = false) ∧
    (leadingZeros x < 64 → x.getLsbD (63 - leadingZeros x) = true) := by
  rw [leadingZeros_eq_findIdx]
  refine ⟨?_, fun i hi => ?_, fun lt => ?_⟩
  · simpa using List.findIdx_le_length (xs := List.range 64)
  · simpa using List.not_of_lt_findIdx hi
  · have one := List.findIdx_getElem (p := fun i => x.getLsbD (63 - i)) (w := lt.trans_eq List.length_range.symm)
    rwa [List.getElem_range] at one

/-- A shift count below 64 is its own sign extension. -/
theorem toNat_signExtend_mod {n : BitVec 41} (h : n.toNat < 64) : (n.signExtend 64).toNat % 64 = n.toNat := by
  have positive : n.msb = false := by
    rw [BitVec.msb_eq_false_iff_two_mul_lt]
    omega
  rw [BitVec.signExtend_eq_setWidth_of_msb_false positive, BitVec.toNat_setWidth]
  omega

/-- LIH: the low 23 bits of xd stay, and the immediate stands above them. -/
theorem getLsbD_lih (x : Word64) (n : BitVec 41) {i : Nat} (hi : i < 64) :
    ((x &&& 0x7FFFFF#64) ||| (BitVec.ofNat 64 n.toNat <<< 23)).getLsbD i =
      if i < 23 then x.getLsbD i else n.getLsbD (i - 23) := by
  have mask : (0x7FFFFF#64).getLsbD i = decide (i < 23) := by
    have low : 0x7FFFFF = 2 ^ 23 - 1 := by decide
    rw [BitVec.getLsbD_ofNat, low, Nat.testBit_two_pow_sub_one, decide_eq_true hi, Bool.true_and]
  rw [BitVec.getLsbD_or, BitVec.getLsbD_and, mask, BitVec.getLsbD_shiftLeft, BitVec.getLsbD_ofNat, decide_eq_true hi]
  by_cases low : i < 23
  · simp [low]
  · have room : i - 23 < 64 := by omega
    simp [low, room, BitVec.testBit_toNat]

end Sys2Proof.Machine

section
open Sys2Proof Sys2Proof.Machine

/-- Settles O6: the fields of a word lie apart, so that each is read back from it. -/
theorem loftsWordsRoundTrip : Obligations.LoftsWordsRoundTrip :=
  ⟨fun op f h => ⟨lftEncode_op op h f, lftFields_lftEncode h f⟩, fun _ _ _ _ ho hp same => lftEncode_inj ho hp same⟩

/-- Settles O7: each instruction is `lftAlu` of its operation. -/
theorem loftsRegisterArithmetic : Obligations.LoftsRegisterArithmetic := by
  intro t f s
  refine ⟨fun h => exec_retires_alu rfl (by decide) h (· + ·) rfl,
    fun h => exec_retires_alu rfl (by decide) h (· - ·) rfl,
    fun h => exec_retires_alu rfl (by decide) h (· &&& ·) rfl,
    fun h => exec_retires_alu rfl (by decide) h (· ||| ·) rfl,
    fun h => exec_retires_alu rfl (by decide) h (· ^^^ ·) rfl, fun h => exec_retires_alu rfl (by decide) h opShl rfl,
    fun h => exec_retires_alu rfl (by decide) h opShr rfl, fun h => exec_retires_alu rfl (by decide) h opSar rfl, ?mul,
    fun h => exec_retires_alu rfl (by decide) h opMulh rfl, ?slt, ?sltu⟩
  case mul =>
    intro h
    rw [ofNat_toNat_mul]
    exact exec_retires_alu rfl (by decide) h (· * ·) rfl
  case slt =>
    intro h
    rw [← opSlt_eq]
    exact exec_retires_alu rfl (by decide) h opSlt rfl
  case sltu =>
    intro h
    rw [← opSltu_eq]
    exact exec_retires_alu rfl (by decide) h opSltu rfl

/-- Settles O8: each instruction is its value put into xd; what BINS, CLZ and LIH leave is read bit by bit. -/
theorem loftsBitFieldsAndImmediates : Obligations.LoftsBitFieldsAndImmediates := by
  intro t f s
  refine ⟨?bext, ?bins, ?popc, ?clz, fun h => exec_retires_aluImm rfl (by decide) h (· + ·) rfl,
    fun h => exec_retires_aluImm rfl (by decide) h (· &&& ·) rfl,
    fun h => exec_retires_aluImm rfl (by decide) h (· ||| ·) rfl,
    fun h => exec_retires_aluImm rfl (by decide) h (· ^^^ ·) rfl, ?shli, ?shri, ?sari,
    fun h => exec_retires_result rfl (by decide) h rfl, ?lih, ?bswap⟩
  case bext =>
    intro h
    rw [← s.xa_fetched t _ f h]
    exact exec_retires_result rfl (by decide) h rfl
  case bins =>
    intro h
    have range := h.immOk
    simp only [immOk, if_true, or_true, decide_eq_true_eq] at range
    rw [← s.xa_fetched t _ f h, ← s.xd_fetched t _ f h]
    obtain ⟨u, step, after⟩ := exec_retires_result (c := .bins t f) rfl (by decide) h rfl
    exact ⟨u, _, step, after, fun i hi => getLsbD_putBits _ _ range.2.1 hi⟩
  case popc =>
    intro h
    rw [← s.xa_fetched t _ f h]
    exact exec_retires_result rfl (by decide) h rfl
  case clz =>
    intro h
    rw [← s.xa_fetched t _ f h]
    obtain ⟨u, step, after⟩ := exec_retires_result (c := .clz t f) rfl (by decide) h rfl
    exact ⟨u, _, step, after, leadingZeros_spec _⟩
  case shli =>
    intro h
    have count := toNat_signExtend_mod (n := f.imm) (by simpa [immOk] using h.immOk)
    have := exec_retires_aluImm (c := .shli t f) rfl (by decide) h opShl rfl
    rwa [opShl, count] at this
  case shri =>
    intro h
    have count := toNat_signExtend_mod (n := f.imm) (by simpa [immOk] using h.immOk)
    have := exec_retires_aluImm (c := .shri t f) rfl (by decide) h opShr rfl
    rwa [opShr, count] at this
  case sari =>
    intro h
    have count := toNat_signExtend_mod (n := f.imm) (by simpa [immOk] using h.immOk)
    have := exec_retires_aluImm (c := .sari t f) rfl (by decide) h opSar rfl
    rwa [opSar, count] at this
  case lih =>
    intro h
    rw [← s.xd_fetched t _ f h]
    obtain ⟨u, step, after⟩ := exec_retires_result (c := .lih t f) rfl (by decide) h rfl
    exact ⟨u, _, step, after, fun i hi => getLsbD_lih _ _ hi⟩
  case bswap =>
    intro h
    have small : f.uimm % 4 = f.imm.toNat := Nat.mod_eq_of_lt (by simpa [immOk] using h.immOk : f.imm.toNat < 4)
    rw [← s.xa_fetched t _ f h, ← small]
    exact exec_retires_result rfl (by decide) h rfl

/-- Settles O9: a branch is `lftBranch` of its condition, a jump is `State.link` to its target. -/
theorem loftsBranchesAndJumps : Obligations.LoftsBranchesAndJumps := by
  intro t f s
  refine ⟨?nop, ?beq, ?bne, ?blt, ?bge, ?bltu, ?bgeu, ?jal, ?jalr⟩
  case nop =>
    intro h
    refine exec_retires_jump rfl (by decide) h rfl ?_
    rw [s.pc_fetched t _ f h]
    rfl
  case beq => exact fun h => exec_retires_branch rfl (by decide) h (· == ·) rfl beq_iff_eq
  case bne => exact fun h => exec_retires_branch_unless rfl (by decide) h (· != ·) rfl bne_iff_ne
  case blt => exact fun h => exec_retires_branch rfl (by decide) h BitVec.slt rfl BitVec.slt_iff_toInt_lt
  case bge =>
    exact fun h => exec_retires_branch_unless rfl (by decide) h (fun x y => !x.slt y) rfl
      (by rw [Bool.not_eq_true', ← Bool.not_eq_true, BitVec.slt_iff_toInt_lt])
  case bltu => exact fun h => exec_retires_branch rfl (by decide) h BitVec.ult rfl BitVec.ult_iff_lt
  case bgeu =>
    exact fun h => exec_retires_branch_unless rfl (by decide) h (fun x y => !x.ult y) rfl
      (by rw [Bool.not_eq_true', ← Bool.not_eq_true, BitVec.ult_iff_lt, BitVec.lt_def])
  case jal =>
    intro h
    rw [← s.pc_fetched t _ f h]
    exact exec_retires_link rfl (by decide) h rfl
  case jalr =>
    intro h
    rw [← s.xa_fetched t _ f h]
    exact exec_retires_link rfl (by decide) h rfl

end

/-! PROOFS. Loads, stores and atomics of the lofts: the place that an access names, what a good read and a write of it
leave (R336 to R339, R346, R367, R498). -/

namespace Sys2Proof

theorem LFields.size_cases (f : LFields) : f.size = 1 ∨ f.size = 2 ∨ f.size = 4 ∨ f.size = 8 := by
  unfold LFields.size
  have lt : f.uimm / 2 ^ 39 % 4 < 4 := Nat.mod_lt _ (by decide)
  generalize f.uimm / 2 ^ 39 % 4 = k at lt
  interval_cases k <;> decide

theorem LFields.size_pos (f : LFields) : 0 < f.size := Nat.two_pow_pos _

end Sys2Proof

namespace Sys2Proof.Machine

/-! ## Errors that a check leaves (R367) -/

/-- A word found good has no error, and other words stand. -/
theorem State.eccOf_eccClear (s : State) (m n : EccMem) (i j : Nat) :
    (s.eccClear m i).eccOf n j = if n = m ∧ j = i then .ok else s.eccOf n j := by
  by_cases same : n = m ∧ j = i
  · obtain ⟨rfl, rfl⟩ := same
    rw [if_pos ⟨rfl, rfl⟩, State.eccOf_eccClear_same]
  · have other (p : EccMem × Nat × Bool) :
        decide ((!(p.1 == m && p.2.1 == i)) = true ∧ (p.1 == n && p.2.1 == j) = true) = (p.1 == n && p.2.1 == j) := by
      cases there : p.1 == n && p.2.1 == j
      · simp
      · rw [Bool.and_eq_true, beq_iff_eq, beq_iff_eq] at there
        simpa [there] using not_and_or.1 same
    simp only [if_neg same, State.eccOf, State.eccClear, List.find?_filter, other]

/-- A check makes no word uncorrectable. -/
theorem State.eccOf_lftCheck (s : State) (m : EccMem) (i : Nat) {n : EccMem} {j : Nat} (good : s.eccOf n j ≠ .uncorr) :
    (s.lftCheck m i).1.eccOf n j ≠ .uncorr := by
  have told (u : State) (src inst e : Nat) (info : Word) :
      ((u.report src inst info).count e inst 0).eccOf n j = u.eccOf n j :=
    State.eccOf_congr (((State.count_keeps _ _ _ _).after rfl (State.report_keeps u _ _ _)).same .ecc (by decide)) n j
  unfold State.lftCheck
  dsimp only
  split
  case h_1 => exact good
  case h_2 =>
    have cleared : ((s.eccClear m i).setB lftErr 1).eccOf n j = (s.eccClear m i).eccOf n j := rfl
    rw [told, cleared, State.eccOf_eccClear]
    split
    · decide
    · exact good
  case h_3 =>
    rw [told]
    exact good

/-- The fetch makes no word uncorrectable. -/
theorem State.eccOf_fetched (s : State) (t : Nat) {n : EccMem} {j : Nat} (good : s.eccOf n j ≠ .uncorr) :
    (s.fetched t).eccOf n j ≠ .uncorr := by
  have put (u : State) (th : Thread) : (u.setThr t th).eccOf n j = u.eccOf n j :=
    State.eccOf_congr ((u.setThr_keeps t th).same .ecc (by decide)) n j
  have counted (u : State) (e i : Nat) : (u.count e i 0).eccOf n j = u.eccOf n j :=
    State.eccOf_congr ((u.count_keeps e i 0).same .ecc (by decide)) n j
  unfold State.fetched
  dsimp only
  rw [put]
  split
  · exact good
  · rw [counted]
    exact s.eccOf_lftCheck _ _ good

theorem State.wordGood_fetched {s : State} {r : LftRef} (t : Nat) (good : s.wordGood r) : (s.fetched t).wordGood r := by
  cases r with
  | loc a => exact s.eccOf_fetched t good
  | sh a => exact s.eccOf_fetched t good
  | atc a => trivial
  | reg a => exact good
  | noInbox => trivial

/-! ## Memories that stand -/

/-- The memories that threads reach are in `u` as in `s`. -/
def memoriesStand (s u : State) : Prop :=
  u.lft.localMem = s.lft.localMem ∧ u.lft.shared = s.lft.shared ∧ u.attic.mem = s.attic.mem

theorem memoriesStand.trans {s t u : State} (h : memoriesStand s t) (k : memoriesStand t u) : memoriesStand s u :=
  ⟨k.1.trans h.1, k.2.1.trans h.2.1, k.2.2.trans h.2.2⟩

theorem onlyThread.memories {s u : State} {t : Nat} (h : onlyThread s u t) : memoriesStand s u := by
  obtain ⟨-, -, locals, shared, -, -, -, -, only⟩ := h
  exact ⟨locals, shared, congrArg Attic.mem (only .attic (by decide))⟩

theorem memoriesStand.setThr (s : State) (t : Nat) (th : Thread) : memoriesStand s (s.setThr t th) := by
  obtain ⟨g, lofts, -⟩ := s.setThr_lft t th
  exact ⟨by rw [lofts], by rw [lofts], congrArg Attic.mem ((s.setThr_keeps t th).same .attic (by decide))⟩

theorem State.refBytes_congr {s u : State} (h : memoriesStand s u) (r : LftRef) (n : Nat) :
    u.refBytes r n = s.refBytes r n := by
  obtain ⟨locals, shared, attic⟩ := h
  cases r with
  | loc a => exact congrArg (memRead 0 · a n) locals
  | sh a => exact congrArg (memRead 0 · a n) shared
  | atc a => exact congrArg (memRead 0 · a n) attic
  | reg a => rfl
  | noInbox => rfl

/-! ## The place of an aligned access (R336, R337) -/

/-- `n` bytes at the place lie in one 64-bit word. -/
def LftRef.inWord (r : LftRef) (n : Nat) : Prop :=
  match r with
  | .loc a => a % 8 + n ≤ 8
  | .sh a => a % 8 + n ≤ 8
  | _ => True

theorem State.inWord_locRef {s : State} {e a n : Nat} {r : LftRef} (place : some (s.locRef e a) = some r)
    (fits : a % 8 + n ≤ 8) : r.inWord n := by
  rw [← Option.some.inj place]
  unfold State.locRef
  dsimp only
  split
  · trivial
  · simp only [LftRef.inWord]
    omega

/-- An aligned access of 1, 2, 4 or 8 bytes lies in one word. -/
theorem State.inWord_lftRef {s : State} {t a n : Nat} {rd wr : Bool} {r : LftRef}
    (size : n = 1 ∨ n = 2 ∨ n = 4 ∨ n = 8) (aligned : a % n = 0) (reach : s.lftRef t a n rd wr = some r) :
    r.inWord n := by
  have fits : a % 8 + n ≤ 8 := by
    rcases size with rfl | rfl | rfl | rfl <;> omega
  have own : (t % 8 * 0x2000 + a) % 8 + n ≤ 8 := by omega
  have shared : (t / 64 * 262144 + (a - 0x40000)) % 8 + n ≤ 8 ∨ a < 0x40000 := by omega
  have engine : (a - 0x10000) % 8 + n ≤ 8 ∨ a < 0x10000 := by omega
  simp only [State.lftRef] at reach
  split at reach
  case isTrue =>
    split at reach
    · rw [← Option.some.inj reach]
      trivial
    · split at reach
      · rw [← Option.some.inj reach]
        trivial
      · exact nomatch reach
  case isFalse =>
    split at reach
    · exact State.inWord_locRef reach own
    · split at reach
      case isTrue within =>
        exact State.inWord_locRef reach (engine.resolve_right (by omega))
      case isFalse =>
        split at reach
        case isTrue within =>
          split at reach
          · rw [← Option.some.inj reach]
            exact shared.resolve_right (by omega)
          · exact nomatch reach
        case isFalse => exact nomatch reach

/-! ## A good read -/

/-- The one word of an access is checked, its bytes are read, and nothing of the lofts changes. -/
theorem State.refRead_good {s : State} {r : LftRef} {n : Nat} (t : Nat) (some_bytes : 0 < n) (fits : r.inWord n)
    (good : s.wordGood r) : onlyThread s (s.refRead r n).1 t ∧ (s.refRead r n).1.lft = s.lft ∧
      (s.refRead r n).2 = some (s.refBytes r n) := by
  have one (a : Nat) (h : a % 8 + n ≤ 8) : (a + n - 1) / 8 + 1 - a / 8 = 1 := by omega
  have single (m : EccMem) (i : Nat) : s.lftChecks m i 1 = s.lftCheck m i := rfl
  cases r with
  | loc a =>
    obtain ⟨thread, lofts, reads⟩ := onlyThread.lftCheck s .lftLocal (a / 8) t good
    simp only [State.refRead, one a fits, single, reads, if_true]
    exact ⟨thread, lofts, trivial⟩
  | sh a =>
    obtain ⟨thread, lofts, reads⟩ := onlyThread.lftCheck s .lftShared (a / 8) t good
    simp only [State.refRead, one a fits, single, reads, if_true]
    exact ⟨thread, lofts, trivial⟩
  | atc a => exact ⟨.refl s t, rfl, rfl⟩
  | reg a => exact good.elim
  | noInbox => exact ⟨.refl s t, rfl, rfl⟩

/-! ## Bytes written -/

theorem tookBytes_memWrite (m : Tbl Byte) (a : Nat) (bs : List Byte) : tookBytes m (memWrite 0 m a bs) (some a) bs := by
  intro x
  dsimp only
  split
  case isTrue inside =>
    have at_x : x = a + (x - a) := by omega
    have lt : x - a < bs.length := by omega
    conv_lhs => rw [at_x]
    rw [tget_memWrite_in _ _ _ _ _ lt, List.getD_eq_getElem _ _ lt]
  case isFalse outside => exact tget_memWrite_out _ _ _ _ _ (by omega)

theorem tookBytes_none (m : Tbl Byte) (bs : List Byte) : tookBytes m m none bs := fun _ => rfl

/-- What a write of bytes does to the lofts and to Attic. -/
theorem State.refWrite_lft_attic (s : State) (r : LftRef) (bs : List Byte) :
    (s.refWrite r bs).lft = (match r with
      | .loc a => { s.lft with localMem := memWrite 0 s.lft.localMem a bs }
      | .sh a => { s.lft with shared := memWrite 0 s.lft.shared a bs }
      | _ => s.lft) ∧
    (s.refWrite r bs).attic = match r with
      | .atc a => { s.attic with mem := memWrite 0 s.attic.mem a bs }
      | _ => s.attic := by
  have cleared (u : State) (m : EccMem) (a : Nat) (l : List Nat) :
      Keeps [.ecc] u (u.each l fun v i => v.eccClear m (a + i)) :=
    .each (.refl u) fun v i k => k.trans (v.eccClear_keeps m (a + i))
  cases r with
  | loc a =>
    simp only [State.refWrite]
    split
    · exact ⟨(cleared _ _ _ _).same .lft (by decide), (cleared _ _ _ _).same .attic (by decide)⟩
    · exact ⟨rfl, rfl⟩
  | sh a =>
    simp only [State.refWrite]
    split
    · exact ⟨(cleared _ _ _ _).same .lft (by decide), (cleared _ _ _ _).same .attic (by decide)⟩
    · exact ⟨rfl, rfl⟩
  | atc a => exact ⟨rfl, rfl⟩
  | reg a => exact ⟨rfl, rfl⟩
  | noInbox => exact ⟨rfl, rfl⟩

/-- The bytes written stand at their place and nowhere else. -/
theorem State.stored_refWrite (s : State) (r : LftRef) (bs : List Byte) : stored s (s.refWrite r bs) r bs := by
  obtain ⟨lofts, attic⟩ := s.refWrite_lft_attic r bs
  unfold stored
  rw [lofts, attic]
  cases r with
  | loc a => exact ⟨tookBytes_memWrite _ _ _, tookBytes_none _ _, tookBytes_none _ _⟩
  | sh a => exact ⟨tookBytes_none _ _, tookBytes_memWrite _ _ _, tookBytes_none _ _⟩
  | atc a => exact ⟨tookBytes_none _ _, tookBytes_none _ _, tookBytes_memWrite _ _ _⟩
  | reg a => exact ⟨tookBytes_none _ _, tookBytes_none _ _, tookBytes_none _ _⟩
  | noInbox => exact ⟨tookBytes_none _ _, tookBytes_none _ _, tookBytes_none _ _⟩

theorem State.thr_refWrite (s : State) (r : LftRef) (bs : List Byte) (k : Nat) : (s.refWrite r bs).thr k = s.thr k := by
  have threads : (s.refWrite r bs).lft.threads = s.lft.threads := by
    rw [(s.refWrite_lft_attic r bs).1]
    cases r <;> rfl
  rw [State.thr, State.thr, threads]

/-! ## Values read (R337) -/

theorem leNat_lt (bs : List Byte) : leNat bs < 256 ^ bs.length := by
  induction bs with
  | nil => exact Nat.one_pos
  | cons b bs ih =>
    have := b.isLt
    rw [leNat, List.length_cons, Nat.pow_succ']
    omega

theorem natLe_leNat {bs : List Byte} {n : Nat} (length : bs.length = n) : natLe n (leNat bs) = bs := by
  induction bs generalizing n with
  | nil =>
    subst length
    rfl
  | cons b bs ih =>
    subst length
    have lt := b.isLt
    have low : BitVec.ofNat 8 (leNat (b :: bs)) = b := BitVec.eq_of_toNat_eq (by rw [BitVec.toNat_ofNat, leNat]; omega)
    have high : leNat (b :: bs) / 256 = leNat bs := by rw [leNat]; omega
    rw [List.length_cons, natLe, low, high, ih rfl]

theorem State.length_refBytes (s : State) (r : LftRef) (n : Nat) : (s.refBytes r n).length = n := by
  cases r <;> simp [State.refBytes, memRead, upto]

theorem loadValue_zeroExtends (n v : Nat) : loadValue false n v = BitVec.ofNat 64 v := if_neg (by simp)

theorem loadValue_signExtends {n v : Nat} (some_bytes : 0 < n) (le : n ≤ 8) (fits : v < 256 ^ n) :
    loadValue true n v = (BitVec.ofNat (8 * n) v).signExtend 64 := by
  have lt : v < 2 ^ (8 * n) := by rwa [Nat.pow_mul]
  have top : 2 ^ (8 * n) ≤ 2 ^ 64 := Nat.pow_le_pow_right (by decide) (by omega)
  have sign : (BitVec.ofNat (8 * n) v).msb = v.testBit (8 * n - 1) := by
    rw [BitVec.msb_eq_getLsbD_last, BitVec.getLsbD_ofNat, decide_eq_true (by omega), Bool.true_and]
  refine BitVec.eq_of_toNat_eq ?_
  rw [BitVec.toNat_signExtend, sign, BitVec.toNat_setWidth, BitVec.toNat_ofNat, Nat.mod_eq_of_lt lt,
    Nat.mod_eq_of_lt (lt.trans_le top)]
  cases negative : v.testBit (8 * n - 1)
  · simpa [loadValue, negative] using lt.trans_le top
  · simp only [loadValue, negative, and_self, if_true, BitVec.toNat_ofNat]
    rw [Nat.mod_eq_of_lt (by omega), Nat.add_comm]

/-! ## Loads and stores (R337, R498) -/

theorem State.access_good {s : State} {t n : Nat} {addr : Word64} {rd wr : Bool} {r : LftRef}
    (aligned : addr.toNat % n = 0) (reach : s.lftRef t addr.toNat n rd wr = some r) :
    s.access t addr n rd wr = .inr r := by
  simp [State.access, aligned, reach]

/-- A load of a word without an uncorrectable error. -/
theorem lftLoad_good {p : RegPort} {signed : Bool} {s : State} {t : Nat} {f : LFields} {r : LftRef}
    (aligned : (s.xa t f + f.offset).toNat % f.size = 0)
    (reach : s.lftRef t (s.xa t f + f.offset).toNat f.size true false = some r) (good : s.wordGood r) :
    lftLoad p signed s t f =
      (s.refRead r f.size).1.result t f (loadValue signed f.size (leNat (s.refBytes r f.size))) := by
  have fits := State.inWord_lftRef f.size_cases aligned reach
  obtain ⟨-, -, reads⟩ := State.refRead_good t f.size_pos fits good
  have read : s.refRead r f.size = ((s.refRead r f.size).1, some (s.refBytes r f.size)) := Prod.ext rfl reads
  rw [lftLoad, State.access_good aligned reach]
  cases r with
  | reg a => exact good.elim
  | _ =>
    dsimp only
    rw [read]

theorem lftLoad_reg {p : RegPort} {s : State} {t a : Nat} {f : LFields}
    (aligned : (s.xa t f + f.offset).toNat % f.size = 0)
    (reach : s.lftRef t (s.xa t f + f.offset).toNat f.size true false = some (.reg a)) :
    lftLoad p false s t f = (p.rd a f.size s).1.result t f (BitVec.ofNat 64 (p.rd a f.size s).2) := by
  rw [lftLoad, State.access_good aligned reach, ← loadValue_zeroExtends f.size]

theorem lftStore_mem {p : RegPort} {s : State} {t : Nat} {f : LFields} {r : LftRef}
    (aligned : (s.xa t f + f.offset).toNat % f.size = 0)
    (reach : s.lftRef t (s.xa t f + f.offset).toNat f.size false true = some r) (good : s.wordGood r) :
    lftStore p s t f = (s.refWrite r (natLe f.size (s.xb t f).toNat)).goOn t := by
  rw [lftStore, State.access_good aligned reach]
  cases r with
  | reg a => exact good.elim
  | _ => rfl

theorem lftStore_reg {p : RegPort} {s : State} {t a : Nat} {f : LFields}
    (aligned : (s.xa t f + f.offset).toNat % f.size = 0)
    (reach : s.lftRef t (s.xa t f + f.offset).toNat f.size false true = some (.reg a)) :
    lftStore p s t f = (p.wr a (natLe f.size (s.xb t f).toNat) s).goOn t := by
  rw [lftStore, State.access_good aligned reach]

/-- What an atomic operation writes: a word, or nothing. -/
def State.putWord (s : State) (r : LftRef) : Option Word64 → State
  | some v => s.refWrite r (natLe 8 v.toNat)
  | none => s

/-- An atomic operation of a word without an uncorrectable error (R338). -/
theorem lftAmo_good {new : Word64 → Word64 → Word64 → Option Word64} {s : State} {t : Nat} {f : LFields} {r : LftRef}
    (aligned : (s.xa t f).toNat % 8 = 0) (reach : s.lftRef t (s.xa t f).toNat 8 true true = some r)
    (good : s.wordGood r) : lftAmo new s t f =
      ((s.refRead r 8).1.putWord r (new (BitVec.ofNat 64 (leNat (s.refBytes r 8))) (s.xb t f) (s.xd t f))).result t f
        (BitVec.ofNat 64 (leNat (s.refBytes r 8))) := by
  have fits := State.inWord_lftRef (by decide) aligned reach
  obtain ⟨-, lofts, reads⟩ := State.refRead_good t (by decide) fits good
  have read : s.refRead r 8 = ((s.refRead r 8).1, some (s.refBytes r 8)) := Prod.ext rfl reads
  have regs := State.thr_of_lft lofts t
  have xb : (s.refRead r 8).1.xb t f = s.xb t f := by rw [State.xb, State.xb, regs]
  have xd : (s.refRead r 8).1.xd t f = s.xd t f := by rw [State.xd, State.xd, regs]
  rw [lftAmo, State.access_good aligned reach, ← xb, ← xd]
  cases r with
  | reg a => exact good.elim
  | _ =>
    dsimp only
    rw [read]
    rfl

/-! ## The thread goes on after an access -/

theorem State.thr_goOn (s : State) (t : Nat) :
    (s.goOn t).thr t = { s.thr t with pc := ((s.thr t).pc + 1) % 32768 } := s.thr_setThr t _

theorem State.thr_goOn_ne (s : State) {t k : Nat} (ne : k ≠ t) : (s.goOn t).thr k = s.thr k := s.thr_setThr_ne _ ne

theorem State.thr_result (s : State) (t : Nat) (f : LFields) (v : Word64) :
    (s.result t f v).thr t = { (s.thr t).set f.d.toNat v with pc := ((s.thr t).pc + 1) % 32768 } := by
  obtain ⟨x, regs⟩ := (s.thr t).set_eq f.d.toNat v
  rw [State.result, State.thr_goOn, State.thr_setThr, regs]

theorem State.thr_result_ne (s : State) {t k : Nat} (f : LFields) (v : Word64) (ne : k ≠ t) :
    (s.result t f v).thr k = s.thr k := (State.thr_goOn_ne _ ne).trans (s.thr_setThr_ne _ ne)

theorem memoriesStand.goOn (s : State) (t : Nat) : memoriesStand s (s.goOn t) := memoriesStand.setThr s t _

theorem memoriesStand.result (s : State) (t : Nat) (f : LFields) (v : Word64) : memoriesStand s (s.result t f v) :=
  (memoriesStand.setThr s t _).trans (memoriesStand.goOn _ t)

/-- What is stored stays stored over steps that leave the memories. -/
theorem stored.between {s v w u : State} {r : LftRef} {bs : List Byte} (before : memoriesStand s v)
    (h : stored v w r bs) (after : memoriesStand w u) : stored s u r bs := by
  obtain ⟨locals, shared, attic⟩ := before
  obtain ⟨locals', shared', attic'⟩ := after
  unfold stored at h ⊢
  rwa [locals', shared', attic', ← locals, ← shared, ← attic]

/-- A place that is left alone holds the bytes that are read there. -/
theorem State.stored_self (s : State) (r : LftRef) (n : Nat) : stored s s r (s.refBytes r n) := by
  have reread (m : Tbl Byte) (a : Nat) : tookBytes m m (some a) (memRead 0 m a n) := by
    intro x
    dsimp only
    split
    case isTrue inside =>
      have lt : x - a < n := by simpa [memRead, upto] using (show x - a < (memRead 0 m a n).length by omega)
      have at_x : a + (x - a) = x := by omega
      simp [memRead, upto, lt, at_x]
    case isFalse => rfl
  cases r with
  | loc a => exact ⟨reread _ a, tookBytes_none _ _, tookBytes_none _ _⟩
  | sh a => exact ⟨tookBytes_none _ _, reread _ a, tookBytes_none _ _⟩
  | atc a => exact ⟨tookBytes_none _ _, tookBytes_none _ _, reread _ a⟩
  | reg a => exact ⟨tookBytes_none _ _, tookBytes_none _ _, tookBytes_none _ _⟩
  | noInbox => exact ⟨tookBytes_none _ _, tookBytes_none _ _, tookBytes_none _ _⟩

/-- The 64-bit word of a place, as the bytes that stand there. -/
theorem State.natLe_refWord (s : State) (r : LftRef) :
    natLe 8 (BitVec.ofNat 64 (leNat (s.refBytes r 8))).toNat = s.refBytes r 8 := by
  have length := s.length_refBytes r 8
  have lt := leNat_lt (s.refBytes r 8)
  rw [length] at lt
  rw [BitVec.toNat_ofNat, Nat.mod_eq_of_lt (lt.trans_eq (by decide)), natLe_leNat length]

/-- What stands at the place after an atomic operation: the word written, or the old one. -/
theorem State.stored_putWord (s : State) (r : LftRef) (new : Option Word64) :
    stored s (s.putWord r new) r (natLe 8 (new.getD (BitVec.ofNat 64 (leNat (s.refBytes r 8)))).toNat) := by
  cases new with
  | some v => exact s.stored_refWrite r _
  | none =>
    rw [Option.getD_none, s.natLe_refWord r]
    exact s.stored_self r 8

theorem State.thr_putWord (s : State) (r : LftRef) (new : Option Word64) (k : Nat) :
    (s.putWord r new).thr k = s.thr k := by
  cases new with
  | some v => exact s.thr_refWrite r _ k
  | none => rfl

/-! ## The commands (R337, R338, R498) -/

section
variable {c : Instr} {s : State} {t op : Nat} {f : LFields} (row : exec c s = .next (s.lofts t op f))
  (defined : op < 256 ∧ opDefined op = true) (h : s.issues t op f)
include row defined h

theorem exec_load_retires {r : LftRef} {signed : Bool} (body : lftBody busPort op = lftLoad busPort signed)
    (aligned : (s.xa t f + f.offset).toNat % f.size = 0)
    (reach : s.lftRef t (s.xa t f + f.offset).toNat f.size true false = some r) (good : s.wordGood r) :
    ∃ u, exec c s = .next u ∧
      retires s u t f.d.toNat (loadValue signed f.size (leNat (s.refBytes r f.size))) (s.nextPc t) := by
  obtain ⟨thread, only⟩ := s.fetched_spec t op f h
  have fits := State.inWord_lftRef f.size_cases aligned reach
  obtain ⟨readOnly, lofts, -⟩ := State.refRead_good t f.size_pos fits (State.wordGood_fetched t good)
  have bytes := State.refBytes_congr only.memories r f.size
  rw [← s.xa_fetched t op f h] at aligned reach
  rw [← s.lftRef_fetched t op f h] at reach
  have effect := lftLoad_good (p := busPort) (signed := signed) aligned reach (State.wordGood_fetched t good)
  rw [bytes] at effect
  refine ⟨_, (exec_of_issues row defined h body).trans (congrArg _ effect),
    retires_result_from ?_ (only.trans readOnly) (s.issues_state t op f h) f _⟩
  rw [State.thr_of_lft lofts, thread]

theorem exec_store {r : LftRef} (body : lftBody busPort op = lftStore busPort)
    (aligned : (s.xa t f + f.offset).toNat % f.size = 0)
    (reach : s.lftRef t (s.xa t f + f.offset).toNat f.size false true = some r) (good : s.wordGood r) :
    ∃ u, exec c s = .next u ∧ stored s u r (natLe f.size (s.xb t f).toNat) ∧
      u.thr t = { s.thr t with pc := s.nextPc t, tail := false } ∧ (∀ k, k ≠ t → u.thr k = s.thr k) ∧
      onlyIn [.regs, .ecc, .mast, .lft, .attic] s u := by
  obtain ⟨thread, only⟩ := s.fetched_spec t op f h
  rw [← s.xa_fetched t op f h] at aligned reach
  rw [← s.lftRef_fetched t op f h] at reach
  have effect := lftStore_mem (p := busPort) aligned reach (State.wordGood_fetched t good)
  rw [s.xb_fetched t op f h] at effect
  refine ⟨_, (exec_of_issues row defined h body).trans (congrArg _ effect),
    stored.between only.memories (State.stored_refWrite _ r _) (memoriesStand.goOn _ t), ?_, fun k ne => ?_, ?_⟩
  · rw [State.thr_goOn, State.thr_refWrite, thread]
    rfl
  · rw [State.thr_goOn_ne _ ne, State.thr_refWrite, only.1 k ne]
  · obtain ⟨-, -, -, -, -, -, -, -, parts⟩ := only
    exact (parts.mono rfl).trans ((((State.refWrite_keeps _ _ _).mono rfl).trans
      ((State.setThr_keeps _ _ _).mono rfl)).same)

theorem exec_amo {r : LftRef} {new : Word64 → Word64 → Word64 → Option Word64} (body : lftBody busPort op = lftAmo new)
    (aligned : (s.xa t f).toNat % 8 = 0) (reach : s.lftRef t (s.xa t f).toNat 8 true true = some r)
    (good : s.wordGood r) :
    let old := BitVec.ofNat 64 (leNat (s.refBytes r 8))
    ∃ u, exec c s = .next u ∧ stored s u r (natLe 8 ((new old (s.xb t f) (s.xd t f)).getD old).toNat) ∧
      (∀ i, (u.thr t).get i = if i = f.d.toNat ∧ f.d.toNat ≠ 0 then old else (s.thr t).get i) ∧
      (u.thr t).pc = s.nextPc t ∧ (∀ k, k ≠ t → u.thr k = s.thr k) := by
  intro old
  obtain ⟨thread, only⟩ := s.fetched_spec t op f h
  have fits := State.inWord_lftRef (by decide) aligned reach
  obtain ⟨readOnly, lofts, -⟩ := State.refRead_good t (by decide) fits (State.wordGood_fetched t good)
  have before := only.trans readOnly
  have bytes := State.refBytes_congr only.memories r 8
  have bytesRead := State.refBytes_congr before.memories r 8
  rw [← s.xa_fetched t op f h] at aligned reach
  rw [← s.lftRef_fetched t op f h] at reach
  have effect := lftAmo_good (new := new) aligned reach (State.wordGood_fetched t good)
  rw [bytes, s.xb_fetched t op f h, s.xd_fetched t op f h] at effect
  have put := State.stored_putWord ((s.fetched t).refRead r 8).1 r (new old (s.xb t f) (s.xd t f))
  rw [bytesRead] at put
  have here : ((((s.fetched t).refRead r 8).1.putWord r (new old (s.xb t f) (s.xd t f)))).thr t =
      { s.thr t with tail := false } := by rw [State.thr_putWord, State.thr_of_lft lofts, thread]
  refine ⟨_, (exec_of_issues row defined h body).trans (congrArg _ effect),
    stored.between before.memories put (memoriesStand.result _ t f _), fun i => ?_, ?_, fun k ne => ?_⟩
  · rw [State.thr_result, here]
    exact Thread.get_set _ _ _ _
  · rw [State.thr_result, here]
    rfl
  · rw [State.thr_result_ne _ _ _ ne, State.thr_putWord, before.1 k ne]

end

end Sys2Proof.Machine

section
open Sys2Proof Sys2Proof.Machine

/-- Settles O10: an access names one place, whose one word is checked; what is written there is what is stored, and the
fetch and the check leave every memory. -/
theorem loftsLoadsStoresAtomics : Obligations.LoftsLoadsStoresAtomics := by
  intro t f s r at' old
  refine ⟨?ld, ?lds, fun h => exec_store rfl (by decide) h rfl,
    fun h => exec_amo (new := fun old b _ => some (old + b)) rfl (by decide) h rfl,
    fun h => exec_amo (new := fun _ b _ => some b) rfl (by decide) h rfl, ?cas, ?ldReg, ?stReg⟩
  case ld =>
    intro h aligned reach good
    rw [← loadValue_zeroExtends f.size]
    exact exec_load_retires rfl (by decide) h rfl aligned reach good
  case lds =>
    intro h aligned reach good
    have lt := leNat_lt (s.refBytes r f.size)
    rw [State.length_refBytes] at lt
    have le : f.size ≤ 8 := by rcases f.size_cases with e | e | e | e <;> omega
    rw [← loadValue_signExtends f.size_pos le lt]
    exact exec_load_retires rfl (by decide) h rfl aligned reach good
  case cas =>
    intro h aligned reach good
    have cas : (if old = s.xd t f then some (s.xb t f) else none).getD old =
        if old = s.xd t f then s.xb t f else old := by
      split <;> rfl
    rw [← cas]
    exact exec_amo (new := fun old b d => if old = d then some b else none) rfl (by decide) h rfl aligned reach good
  case ldReg =>
    intro a h aligned reach
    rw [← s.lftRef_fetched t _ f h] at reach
    simp only [at', ← s.xa_fetched t _ f h] at aligned reach
    exact (exec_of_issues rfl (by decide) h rfl).trans (congrArg _ (lftLoad_reg aligned reach))
  case stReg =>
    intro a h aligned reach
    rw [← s.lftRef_fetched t _ f h] at reach
    simp only [at', ← s.xa_fetched t _ f h] at aligned reach
    rw [← s.xb_fetched t _ f h]
    exact (exec_of_issues rfl (by decide) h rfl).trans (congrArg _ (lftStore_reg aligned reach))

end

/-! PROOFS. Waiting, event flags, time, bells, vector return, faults, breakpoints and stops of the lofts (R335, R360,
R362, R364, R365, R370, R435, R498). -/

namespace Sys2Proof.Machine

/-! ## What a thread's change leaves of the registers (R361, R371) -/

theorem lftEngStatus_ne_gatedLoft (e l : Nat) : lftEngStatus e ≠ gatedLoft l := by
  simp only [gatedLoft, lftEngStatus, atcGatedLoftsLo, atcGatedLoftsHi]
  split <;> omega

theorem State.rd_gateLoft (s : State) {l a : Nat} (ne : a ≠ gatedLoft l) : (s.gateLoft l).rd a = s.rd a := by
  unfold State.gateLoft
  split
  · exact s.rd_setB_ne _ ne
  · rfl

theorem State.rd_wakeLoft (s : State) {l a : Nat} (ne : a ≠ gatedLoft l) (off : offWrap a = true) :
    (s.wakeLoft l).rd a = s.rd a := by
  unfold State.wakeLoft
  split
  · rw [State.rd_count _ _ _ _ off, State.rd_putB_ne _ _ _ ne]
  · rfl

/-- A check writes LFT_ERR and LFT_ERR_LOC alone. -/
theorem State.rd_lftCheck (s : State) (m : EccMem) (i : Nat) {a : Nat} (err : a ≠ lftErr) (loc : a ≠ lftErrLoc)
    (off : offWrap a = true) : (s.lftCheck m i).1.rd a = s.rd a := by
  unfold State.lftCheck
  dsimp only
  split
  · rfl
  · rw [State.rd_count _ _ _ _ off, State.rd_report _ _ _ _ off, State.rd_setB_ne _ _ err]
    rfl
  · rw [State.rd_count _ _ _ _ off, State.rd_report _ _ _ _ off, State.rd_wr_ne _ _ loc, State.rd_setB_ne _ _ err]

/-- The status of its engine shows whether a thread is FAULTED and whether it is HALTED. -/
def State.showThr (s : State) (t : Nat) (th : Thread) : State :=
  (s.putB (lftEngStatus (t / 8)) (8 + t % 8) (th.state == 4)).putB (lftEngStatus (t / 8)) (t % 8) (th.state == 3)

/-- What a thread's change does to the registers. -/
theorem State.setThr_regs (s : State) {t : Nat} (th : Thread) (loft : t ≠ atcThread) :
    ∃ u : State, u.regs = (s.showThr t th).regs ∧
      s.setThr t th = if th.state = 1 then u else u.gateLoft (t / 64) := by
  unfold State.setThr
  dsimp only
  rw [if_neg loft]
  refine ⟨_, ?_, rfl⟩
  split <;> rfl

/-- A thread's change shows in the status of its engine, and may gate its loft. -/
theorem State.rd_setThr_ne (s : State) {t a : Nat} (th : Thread) (status : a ≠ lftEngStatus (t / 8))
    (gate : a ≠ gatedLoft (t / 64)) : (s.setThr t th).rd a = s.rd a := by
  by_cases attic : t = atcThread
  · exact State.rd_congr (congrArg State.regs (if_pos attic)) a
  · obtain ⟨u, regs, eq⟩ := s.setThr_regs th attic
    have shown : u.rd a = s.rd a :=
      (State.rd_congr regs a).trans ((State.rd_putB_ne _ _ _ status).trans (s.rd_putB_ne _ _ status))
    rw [eq]
    split
    · exact shown
    · exact (u.rd_gateLoft gate).trans shown

/-- A bit of a status register leaves the engine's STATE. -/
theorem State.engState_putB (s : State) (a e i : Nat) (b : Bool) (lt : i < 30) :
    (s.putB a i b).rf (lftEngStatus e) 31 30 = s.rf (lftEngStatus e) 31 30 := by
  by_cases same : lftEngStatus e = a
  · subst same
    exact s.rf_wf_ne _ _ _ _ _ _ (Nat.le_refl i) (by omega) (by decide) (.inr lt)
  · exact s.rf_wr_ne _ _ _ same

/-- A thread's change leaves the STATE of every engine. -/
theorem State.engState_setThr (s : State) (t e : Nat) (th : Thread) :
    (s.setThr t th).rf (lftEngStatus e) 31 30 = s.rf (lftEngStatus e) 31 30 := by
  by_cases attic : t = atcThread
  · exact congrArg (fld · 31 30) (State.rd_congr (congrArg State.regs (if_pos attic)) _)
  · obtain ⟨u, regs, eq⟩ := s.setThr_regs th attic
    have shown : u.rf (lftEngStatus e) 31 30 = s.rf (lftEngStatus e) 31 30 := by
      rw [State.rf, State.rd_congr regs, ← State.rf, State.showThr, State.engState_putB _ _ _ _ _ (by omega),
        State.engState_putB _ _ _ _ _ (by omega)]
    rw [eq]
    split
    · exact shown
    · rw [State.rf, u.rd_gateLoft (lftEngStatus_ne_gatedLoft e _)]
      exact shown

theorem offWrap_lftEngStatus (e : Nat) : offWrap (lftEngStatus e) = true :=
  offWrap_of_window (by unfold lftEngStatus; omega)

/-! ## Engines that stop (R365) -/

theorem State.thr_freeTicket (s : State) (id k : Nat) : (s.freeTicket id).thr k = s.thr k := by
  have drop (u : State) : (u.dropTicket id).thr k = u.thr k := rfl
  unfold State.freeTicket
  dsimp only
  rw [drop]
  split
  · rfl
  · exact State.thr_of_lft ((s.hwFree_keeps _).same .lft (by decide)) k

theorem State.thr_countBy (s : State) (e o i n k : Nat) : (s.countBy e o i n).thr k = s.thr k :=
  State.thr_of_lft ((s.countBy_keeps e o i n).same .lft (by decide)) k

theorem State.thr_complete (s : State) (tgt k : Nat) : (s.complete tgt).thr k = s.thr k :=
  State.thr_of_lft ((s.complete_keeps tgt).same .lft (by decide)) k

/-- Completing a target of Bellboard changes registers of window 0x04 and WRAP registers alone. -/
theorem State.rd_complete (s : State) {tgt a : Nat} (small : tgt < 0x10000) (beyond : 0x5000000 ≤ a) :
    (s.complete tgt).rd a = s.rd a := by
  have src : s.rf (belTgt tgt) 11 0 < 4096 := s.rf_lt _ _ _
  have active : a ≠ belActive (s.rf (belTgt tgt) 11 0 / 32) := by unfold belActive; omega
  have pend : a ≠ belPend (s.rf (belTgt tgt) 11 0 / 32) := by unfold belPend; omega
  have target : a ≠ belTgt tgt := by unfold belTgt; omega
  have claimed : (((s.putB (belActive (s.rf (belTgt tgt) 11 0 / 32)) (s.rf (belTgt tgt) 11 0 % 32) false).wrN
      (belTgt tgt) 0)).rd a = s.rd a := by rw [State.rd_wrN_ne _ _ target, State.rd_putB_ne _ _ _ active]
  unfold State.complete
  dsimp only
  split
  · rfl
  · split
    · rw [State.rd_count _ _ _ _ (offWrap_of_window (by omega)), State.putPending, State.rd_putB_ne _ _ _ pend, claimed]
    · exact claimed

/-- A thread whose engine has stopped. -/
def Thread.ofStoppedEngine (th : Thread) : Thread :=
  { th with letters := [], staging := [], ticket := none, queue := [], state := 0, wait := none, inVector := false,
            tail := false }

/-- Thread `t` of engine `e` ends: its tickets are dead and its messages are gone. -/
def State.endThread (s : State) (e t : Nat) : State :=
  let th := s.thr t
  let ids := (match th.ticket with | some id => [id] | none => []) ++ th.queue
  let s1 := s.each ids fun v id => (v.count evLftTicketDead (v.progGroup (v.ticket id).prog) 0).freeTicket id
  (s1.countBy evLftLbDiscard e 0 th.letters.length).setThr t th.ofStoppedEngine

theorem State.thr_each_freeTicket (s : State) (ids : List Nat) (k : Nat) :
    (s.each ids fun v id => (v.count evLftTicketDead (v.progGroup (v.ticket id).prog) 0).freeTicket id).thr k =
      s.thr k := by
  induction ids generalizing s with
  | nil => rfl
  | cons id ids ih => rw [State.each_cons, ih, State.thr_freeTicket, State.thr_count]

theorem State.thr_endThread (s : State) (e t k : Nat) :
    (s.endThread e t).thr k = if k = t then (s.thr t).ofStoppedEngine else s.thr k := by
  by_cases same : k = t
  · subst same
    rw [if_pos rfl]
    exact State.thr_setThr _ _ _
  · rw [if_neg same]
    refine (State.thr_setThr_ne _ _ same).trans ?_
    rw [State.thr_countBy, State.thr_each_freeTicket]

theorem State.thr_each_endThread (s : State) (e : Nat) {l : List Nat} (nodup : l.Nodup) (k : Nat) :
    (s.each l fun u i => u.endThread e (e * 8 + i)).thr k =
      if ∃ i ∈ l, k = e * 8 + i then (s.thr k).ofStoppedEngine else s.thr k := by
  induction l generalizing s with
  | nil => simp [State.each]
  | cons i l ih =>
    obtain ⟨fresh, rest⟩ := List.nodup_cons.1 nodup
    rw [State.each_cons, ih _ rest, State.thr_endThread]
    by_cases here : k = e * 8 + i
    · subst here
      simp [fresh]
    · simp [here]

/-- What stopping an engine that runs comes to. -/
theorem State.engineStop_of_runs {s : State} {e : Nat} (runs : s.rf (lftEngStatus e) 31 30 ≠ 1) (cause : Nat) :
    s.engineStop e cause =
      let s1 := s.each (upto 8) fun u i => u.endThread e (e * 8 + i)
      let s2 := ((s1.wf (lftEngStatus e) 31 30 1).wf (lftEngStatus e) 23 16 cause).complete e
      (s2.report 0x24 e (s2.rd (lftEngStatus e))).count evLftEngineStop e 0 := by
  rw [State.engineStop, if_neg runs]
  rfl

/-- An engine that has stopped shows it, and its threads are STOPPED with neither tickets nor messages. -/
theorem State.engineStop_stops {s : State} {e : Nat} (lt : e < 512) (runs : s.rf (lftEngStatus e) 31 30 ≠ 1)
    (cause : Nat) : (s.engineStop e cause).rf (lftEngStatus e) 31 30 = 1 ∧
      ∀ i < 8, (s.engineStop e cause).thr (e * 8 + i) = (s.thr (e * 8 + i)).ofStoppedEngine := by
  rw [State.engineStop_of_runs runs cause]
  have off := offWrap_lftEngStatus e
  refine ⟨?_, fun i hi => ?_⟩
  · rw [State.rf, State.rd_count _ _ _ _ off, State.rd_report _ _ _ _ off,
      State.rd_complete _ (by omega) (by unfold lftEngStatus; omega)]
    refine (State.rf_wf_ne _ _ _ _ _ _ _ (by decide) (by decide) (by decide) (by decide)).trans ?_
    exact State.rf_wf _ _ _ _ _ (by decide) (by decide)
  · have reported (u : State) (info : Word) (k : Nat) :
        ((u.report 0x24 e info).count evLftEngineStop e 0).thr k = u.thr k :=
      State.thr_of_lft (((State.count_keeps _ _ _ _).after rfl (u.report_keeps _ _ _)).same .lft (by decide)) k
    have shown (u : State) (hi lo v k : Nat) : (u.wf (lftEngStatus e) hi lo v).thr k = u.thr k := rfl
    rw [reported, State.thr_complete, shown, shown, upto, State.thr_each_endThread _ _ List.nodup_range]
    exact if_pos ⟨i, List.mem_range.2 hi, rfl⟩

/-! ## Faults (R362, R498) -/

/-- A thread that faults is FAULTED with its code; with a supervisor stops its engine, with the Attic controller the
controller. -/
theorem State.thrFault_faults {s : State} {t : Nat} (runs : t ≠ atcThread → t < 4096 ∧ s.engRunning (t / 8) = true)
    (code detail : Nat) : faults (s.thrFault t code detail) t code detail := by
  unfold State.thrFault faults
  dsimp only
  by_cases attic : t = atcThread
  · have off : offWrap atcCtrl = true := by decide
    have reported (u : State) (info : Word) : (u.report 0x32 0 info).thr t = u.thr t :=
      State.thr_of_lft ((u.report_keeps _ _ _).same .lft (by decide)) t
    have written (u : State) (hi lo v : Nat) : (u.wf atcCtrl hi lo v).thr t = u.thr t := rfl
    simp only [if_pos attic, reported, written, State.thr_setThr, true_and]
    rw [State.rf, State.rd_report _ _ _ _ off]
    refine (State.rf_wf_ne _ _ _ _ _ _ _ (by decide) (by decide) (by decide) (by decide)).trans ?_
    exact State.rf_wf _ _ _ _ _ (by decide) (by decide)
  · obtain ⟨lt, run⟩ := runs attic
    simp only [if_neg attic]
    by_cases supervisor : t % 8 = 0
    · have index : t / 8 * 8 + 0 = t := by omega
      have runs' : ((s.setThr t { s.thr t with
          state := 4, wait := none, finfo := BitVec.ofNat 64 (code + detail * 256) }).count evLftFault (t / 8)
          (code - 1)).rf (lftEngStatus (t / 8)) 31 30 ≠ 1 := by
        rw [State.rf, State.rd_count _ _ _ _ (offWrap_lftEngStatus _), ← State.rf, State.engState_setThr]
        simpa [State.engRunning] using run
      obtain ⟨stops, threads⟩ := State.engineStop_stops (by omega) runs' 1
      have here := threads 0 (by decide)
      rw [index, State.thr_count, State.thr_setThr] at here
      simp only [if_pos supervisor, here, stops, Thread.ofStoppedEngine, and_self]
    · simp only [if_neg supervisor, State.thr_count, State.thr_setThr, true_and]

/-! ## What the fetch leaves -/

section
variable {s : State} {t op : Nat} {f : LFields} (h : s.issues t op f)
include h

/-- The fetch of a thread other than the Attic controller leaves its engine running. -/
theorem State.engRunning_fetched (loft : t ≠ atcThread) : t < 4096 ∧ (s.fetched t).engRunning (t / 8) = true := by
  obtain ⟨lt, runs⟩ := h.of_loft loft
  refine ⟨lt, ?_⟩
  unfold State.fetched
  dsimp only
  rw [State.engRunning, if_neg loft, if_neg loft, State.engState_setThr, State.rf,
    State.rd_count _ _ _ _ (offWrap_lftEngStatus _), State.rd_lftCheck _ _ _ (by unfold lftEngStatus lftErr; omega)
    (by unfold lftEngStatus lftErrLoc; omega) (offWrap_lftEngStatus _)]
  exact runs

theorem State.events_fetched : (s.fetched t).events t = s.events t := by
  obtain ⟨thread, -, flags, -, -, -, -, -, -, only⟩ := s.fetched_spec t op f h
  have time : (s.fetched t).ns = s.ns := congrArg (· / 2 ^ 24 % 2 ^ 64) (only .time (by decide))
  simp only [State.events, thread, flags, time]

/-- LFT_DBG_SEL stands over the fetch. -/
theorem State.armed_fetched (loft : t ≠ atcThread) : (s.fetched t).rb lftDbgSel 31 = s.rb lftDbgSel 31 := by
  have lt := (h.of_loft loft).1
  have status : lftDbgSel ≠ lftEngStatus (t / 8) := by unfold lftDbgSel lftEngStatus; omega
  rw [State.rb, s.rd_fetched t op f h status (by decide) (.inr (by decide)), State.rb]

end

/-! ## The commands (R335, R360 to R364, R370) -/

section
variable {c : Instr} {s : State} {t op : Nat} {f : LFields} (row : exec c s = .next (s.lofts t op f))
  (defined : op < 256 ∧ opDefined op = true) (h : s.issues t op f)
include row defined h

theorem exec_faults {code detail : Nat}
    (body : lftBody busPort op (s.fetched t) t f = (s.fetched t).thrFault t code detail) :
    ∃ u, exec c s = .next u ∧ faults u t code detail :=
  ⟨_, (exec_of_issues row defined h rfl).trans (congrArg _ body),
    State.thrFault_faults (fun loft => s.engRunning_fetched h loft) code detail⟩

/-- An instruction that changes its thread alone. -/
theorem exec_setThr {th : Thread} (body : lftBody busPort op (s.fetched t) t f = (s.fetched t).setThr t th) :
    ∃ u, exec c s = .next u ∧ u.thr t = th :=
  ⟨_, (exec_of_issues row defined h rfl).trans (congrArg _ body), State.thr_setThr _ _ _⟩

end

theorem State.flags_setFlags (s : State) (e v k : Nat) :
    ((s.setFlags e v).eng k).flags = if k = e then v else (s.eng k).flags := by
  unfold State.setFlags State.eng
  split
  case isTrue same => rw [same, tget_tput_same]
  case isFalse ne => rw [tget_tput_ne _ _ _ _ _ ne]

theorem State.thr_setFlags (s : State) (e v k : Nat) : (s.setFlags e v).thr k = s.thr k := rfl

theorem onlyThread.goOn {s : State} {t : Nat} (runnable : (s.thr t).state = 1) : onlyThread s (s.goOn t) t :=
  onlyThread.setThr s t _ runnable

/-- The flags of the engine change and the thread goes on. -/
theorem State.setFlags_goOn (s : State) (t e v : Nat) :
    (((s.setFlags e v).goOn t).thr t).pc = ((s.thr t).pc + 1) % 32768 ∧
    (((s.setFlags e v).goOn t).eng e).flags = v ∧
    ∀ k, k ≠ e → (((s.setFlags e v).goOn t).eng k).flags = (s.eng k).flags := by
  have flags (k : Nat) : (((s.setFlags e v).goOn t).eng k).flags = ((s.setFlags e v).eng k).flags :=
    State.flags_setThr ..
  refine ⟨by rw [State.thr_goOn, State.thr_setFlags], ?_, fun k ne => ?_⟩
  · rw [flags, State.flags_setFlags, if_pos rfl]
  · rw [flags, State.flags_setFlags, if_neg ne]

end Sys2Proof.Machine

section
open Sys2Proof Sys2Proof.Machine

/-- Settles O14: each instruction is followed from the state after the fetch, which has the thread, the engine's flags
and the time of the state before. -/
theorem loftsWaitingTimeAndStops : Obligations.LoftsWaitingTimeAndStops := by
  intro t f s
  refine ⟨?event, ?noEvent, ?evSet, ?evClr, ?tmr, ?time, ?bell, ?vret, ?noVector, ?trap, ?brk, ?armed, ?stop⟩
  case event =>
    intro h present
    rw [← s.events_fetched h] at present ⊢
    exact exec_retires_result rfl (by decide) h (if_pos present)
  case noEvent =>
    intro h absent
    rw [← s.events_fetched h] at absent
    obtain ⟨thread, -⟩ := s.fetched_spec t _ f h
    obtain ⟨u, step, th⟩ := exec_setThr (c := .wfe t f) rfl (by decide) h (if_neg (not_not.2 absent))
    exact ⟨u, step, th.trans (by rw [thread]; rfl)⟩
  case evSet =>
    intro loft h
    obtain ⟨thread, -, flags, -⟩ := s.fetched_spec t _ f h
    obtain ⟨pc, here, others⟩ :=
      (s.fetched t).setFlags_goOn t (t / 8) (Nat.lor ((s.fetched t).eng (t / 8)).flags f.uimm)
    exact ⟨_, exec_of_issues rfl (by decide) h rfl, pc.trans (by rw [thread]; rfl), here.trans (by rw [flags]; rfl),
      fun e ne => (others e ne).trans (flags e)⟩
  case evClr =>
    intro loft h
    obtain ⟨thread, -, flags, -⟩ := s.fetched_spec t _ f h
    have fits : f.uimm % 65536 = f.imm.toNat := Nat.mod_eq_of_lt (by simpa [immOk] using h.immOk : f.imm.toNat < 65536)
    obtain ⟨pc, here, others⟩ :=
      (s.fetched t).setFlags_goOn t (t / 8) (Nat.land ((s.fetched t).eng (t / 8)).flags (65535 - f.uimm % 65536))
    exact ⟨_, exec_of_issues rfl (by decide) h rfl, pc.trans (by rw [thread]; rfl), here.trans (by rw [flags, fits]),
      fun e ne => (others e ne).trans (flags e)⟩
  case tmr =>
    intro h
    obtain ⟨thread, only⟩ := s.fetched_spec t _ f h
    have runnable := s.state_fetched t _ f h
    let timed := (s.fetched t).setThr t { (s.fetched t).thr t with timer := ((s.fetched t).xa t f).toNat }
    have timedThread : timed.thr t = _ := State.thr_setThr _ _ _
    have timedOnly : onlyThread (s.fetched t) timed t := onlyThread.setThr _ _ _ runnable
    refine ⟨timed.goOn t, exec_of_issues rfl (by decide) h rfl, (only.trans timedOnly).trans (onlyThread.goOn ?_), ?_⟩
    · rw [timedThread]
      exact runnable
    · rw [State.thr_goOn, timedThread, s.xa_fetched t _ f h, thread]
      rfl
  case time =>
    intro h
    have only := (s.fetched_spec t _ f h).2.2.2.2.2.2.2.2.2
    have time : (s.fetched t).ns = s.ns := congrArg (· / 2 ^ 24 % 2 ^ 64) (only .time (by decide))
    rw [← time]
    exact exec_retires_result rfl (by decide) h rfl
  case bell =>
    intro h
    rw [← s.xa_fetched t _ f h]
    exact exec_of_issues rfl (by decide) h rfl
  case vret =>
    intro h inVector may
    obtain ⟨thread, -⟩ := s.fetched_spec t _ f h
    have returns : ¬((!((s.fetched t).thr t).inVector) = true ∨ (t ≠ atcThread ∧ t % 8 ≠ 0)) := by
      rw [thread, inVector]
      rintro (bad | ⟨loft, worker⟩)
      · exact Bool.false_ne_true bad
      · exact may.elim loft worker
    refine ⟨_, (exec_of_issues rfl (by decide) h rfl).trans (congrArg _ (if_neg returns)), ?_⟩
    rw [State.thr_complete, State.goTo, State.thr_setThr, State.thr_setThr, thread]
  case noVector =>
    intro h outside
    refine exec_faults rfl (by decide) h (if_pos (.inl ?_))
    rw [(s.fetched_spec t _ f h).1, outside]
    rfl
  case trap => exact fun h => exec_faults rfl (by decide) h rfl
  case brk =>
    intro h unarmed
    refine exec_faults rfl (by decide) h (if_neg ?_)
    rintro ⟨loft, armed⟩
    rw [s.armed_fetched h loft, unarmed.resolve_left loft] at armed
    exact Bool.false_ne_true armed
  case armed =>
    intro h loft armed
    rw [← s.armed_fetched h loft] at armed
    obtain ⟨u, step, th⟩ := exec_setThr (c := .brk t f) rfl (by decide) h (if_pos ⟨loft, armed⟩)
    exact ⟨u, step, th.trans (by rw [(s.fetched_spec t _ f h).1])⟩
  case stop =>
    intro h
    refine ⟨_, exec_of_issues rfl (by decide) h rfl, (State.thr_setThr _ _ _).trans ?_⟩
    rw [State.thr_goOn, (s.fetched_spec t _ f h).1]
    rfl

end

/-! PROOFS. The host's commands to the lofts: LFT_CMD, its lofts and its data, and threads that the host starts, stops
and resets (R355, R356, R373). -/

namespace Sys2Proof.Machine

/-! ## LFT_CMD (R373) -/

/-- The command has been taken into LFT_CMD. -/
def State.commanded (s : State) (op a : Nat) : State := s.plainWrite lftCmd (lftCmdWord op a)

section
variable (s : State) (op a : Nat)

theorem State.commanded_keeps : Keeps [.regs] s (s.commanded op a) := s.plainWrite_keeps _ _

theorem State.rd_commanded {b : Nat} (ne : b ≠ lftCmd) : (s.commanded op a).rd b = s.rd b := s.rd_plainWrite_ne _ ne

theorem State.lft_commanded : (s.commanded op a).lft = s.lft := (s.commanded_keeps op a).same .lft (by decide)

theorem State.cmdLofts_commanded : (s.commanded op a).cmdLofts = s.cmdLofts := by
  simp only [State.cmdLofts, State.rd64, State.rdN, s.rd_commanded op a (show lftCmdLoftsLo ≠ lftCmd by decide),
    s.rd_commanded op a (show lftCmdLoftsLo + 4 ≠ lftCmd by decide)]

theorem State.loftReserved_commanded (l : Nat) : (s.commanded op a).loftReserved l = s.loftReserved l := by
  rw [State.loftReserved, State.loftReserved, State.rf, State.rf, State.rf, State.rf,
    s.rd_commanded op a (show lftCrwCfg ≠ lftCmd by decide)]

theorem State.lftWord_commanded (j : Nat) : (s.commanded op a).lftWord j = s.lftWord j := by
  have lo : lftData (2 * j) ≠ lftCmd := by unfold lftData lftCmd; omega
  have hi : lftData (2 * j) + 4 ≠ lftCmd := by unfold lftData lftCmd; omega
  simp only [State.lftWord, State.rd64, State.rdN, s.rd_commanded op a lo, s.rd_commanded op a hi]

end

theorem fld_lftCmdWord {op a : Nat} (hop : op < 8) (ha : a < 32768) :
    fld (lftCmdWord op a) 30 27 = op ∧ fld (lftCmdWord op a) 14 0 = a := by
  unfold fld lftCmdWord bits
  rw [BitVec.toNat_ofNat]
  constructor <;> omega

section
variable {c : Instr} {s r : State} {op a : Nat} (row : exec c s = .next (s.lftCmdWrite (lftCmdWord op a)))
  (idle : s.rb lftCmd 31 = false) (hop : 0 < op ∧ op < 8) (ha : a < 32768)
include row idle hop ha

/-- A command that is done shows RESULT 0. -/
theorem exec_hostCommand (done : (s.commanded op a).lftCmdOp op a = (r, 0)) :
    exec c s = .next (r.wf lftCmdStatus 31 24 0) := by
  obtain ⟨code, address⟩ := fld_lftCmdWord hop.2 ha
  have known : ¬8 ≤ op := by omega
  have busy : ¬s.rb lftCmd 31 = true := by rw [idle]; exact Bool.false_ne_true
  rw [State.commanded] at done
  rw [row]
  simp only [State.lftCmdWrite, if_neg busy, code, address, if_neg known, if_neg hop.1.ne', done]

end

theorem State.result_zero (r : State) : (r.wf lftCmdStatus 31 24 0).rf lftCmdStatus 31 24 = 0 :=
  r.rf_wf _ _ _ _ (by decide) (by decide)

/-! ## Commands to several lofts -/

theorem State.each_upto_succ (s : State) (n : Nat) (f : State → Nat → State) :
    s.each (upto (n + 1)) f = f (s.each (upto n) f) n := by
  rw [State.each, upto, List.range_succ, List.foldl_append]
  rfl

/-- The same part of two lofts lies in two places. -/
theorem loftParts_apart {width a n l i j : Nat} (fits : a + n ≤ width) (ne : l ≠ i) (hj : j < n) :
    l * width + a + j < i * width + a ∨ i * width + a + n ≤ l * width + a + j := by
  rcases Nat.lt_or_gt_of_ne ne with below | above
  · have := Nat.mul_le_mul_right width below
    rw [Nat.succ_mul] at this
    omega
  · have := Nat.mul_le_mul_right width above
    rw [Nat.succ_mul] at this
    omega

/-- A table of which a command fills the same part in each loft that it names: what each step writes is what each loft
holds in the end, and all else stands. `stands` is what the steps need of the state. -/
theorem State.each_loft_fills {α : Type} {d : α} {table : State → Tbl α} {step : State → Nat → State}
    {stands : State → Prop} {width a n : Nat} {w : Nat → α} (fits : a + n ≤ width)
    (keeps : ∀ t l, stands t → stands (step t l))
    (fills : ∀ t l x, stands t → tget d (table (step t l)) x =
      if l * width + a ≤ x ∧ x < l * width + a + n then w (x - (l * width + a)) else tget d (table t) x)
    (s : State) (ok : stands s) (lofts : List Nat) :
    (∀ l ∈ lofts, ∀ j < n, tget d (table (s.each lofts step)) (l * width + a + j) = w j) ∧
      ∀ x, (∀ l ∈ lofts, x < l * width + a ∨ l * width + a + n ≤ x) →
        tget d (table (s.each lofts step)) x = tget d (table s) x := by
  induction lofts generalizing s with
  | nil => exact ⟨fun l hl => (nomatch hl), fun x _ => rfl⟩
  | cons k ks ih =>
    obtain ⟨filled, stand⟩ := ih (step s k) (keeps s k ok)
    rw [State.each_cons]
    refine ⟨fun l hl j hj => ?_, fun x outside => ?_⟩
    · by_cases later : l ∈ ks
      · exact filled l later j hj
      · have here : l = k := (List.mem_cons.1 hl).resolve_right later
        subst here
        rw [stand _ fun i hi => loftParts_apart (l := l) fits (fun same => later (same ▸ hi)) hj, fills s l _ ok,
          if_pos (by omega), Nat.add_sub_cancel_left]
    · rw [stand x fun i hi => outside i (List.mem_cons_of_mem k hi), fills s k x ok]
      exact if_neg (by have := outside k List.mem_cons_self; omega)

/-! ## Instruction stores (R373) -/

/-- No injected error waits for a write. -/
def State.injectsNone (s : State) : Prop := s.rf mstInjCtl 26 24 = 0

theorem State.injectsNone_commanded {s : State} (idle : s.injectsNone) (op a : Nat) :
    (s.commanded op a).injectsNone := by
  rwa [State.injectsNone, State.rf, s.rd_commanded op a (by decide)]

theorem State.injectsNone_wakeLoft {s : State} (idle : s.injectsNone) (l : Nat) : (s.wakeLoft l).injectsNone := by
  have gate : mstInjCtl ≠ gatedLoft l := by
    unfold gatedLoft
    split <;> decide
  rwa [State.injectsNone, State.rf, s.rd_wakeLoft gate (by decide)]

theorem State.isWrite_idle {s : State} (idle : s.injectsNone) (l i : Nat) (v : Word64) : s.isWrite l i v =
    { s.eccClear .lftIs (l * 32768 + i) with
      lft := { s.lft with istore := tset 0 s.lft.istore (l * 32768 + i) v } } :=
  State.inject_idle idle

/-- Words written one after another into an instruction store. -/
theorem State.each_isWrite {s : State} (idle : s.injectsNone) (l a n : Nat) (w : Nat → Word64) :
    (s.each (upto n) fun u j => u.isWrite l (a + j) (w j)).injectsNone ∧
      ∀ x, tget 0 (s.each (upto n) fun u j => u.isWrite l (a + j) (w j)).lft.istore x =
        if l * 32768 + a ≤ x ∧ x < l * 32768 + a + n then w (x - (l * 32768 + a)) else tget 0 s.lft.istore x := by
  induction n with
  | zero => exact ⟨idle, fun x => (if_neg (by omega)).symm⟩
  | succ n ih =>
    obtain ⟨still, written⟩ := ih
    rw [State.each_upto_succ, State.isWrite_idle still]
    refine ⟨still, fun x => ?_⟩
    dsimp only
    by_cases last : x = l * 32768 + (a + n)
    · subst last
      have index : l * 32768 + (a + n) - (l * 32768 + a) = n := by omega
      rw [tget_tset_same, if_pos (by omega), index]
    · rw [tget_tset_ne _ _ _ _ _ _ last, written]
      have inside : l * 32768 + a ≤ x ∧ x < l * 32768 + a + n ↔
          l * 32768 + a ≤ x ∧ x < l * 32768 + a + (n + 1) := by omega
      simp only [inside]

/-- The eight words of LFT_DATA are written into the instruction store of loft `l`, which wakes. -/
def State.isWriteLoft (s : State) (a : Nat) (w : Nat → Word64) (l : Nat) : State :=
  (s.wakeLoft l).each (upto 8) fun u j => u.isWrite l (a + j) (w j)

theorem State.lft_wakeLoft (s : State) (l : Nat) : (s.wakeLoft l).lft = s.lft :=
  (s.wakeLoft_keeps l).same .lft (by decide)

theorem State.lftCmdOp_isWrite {s : State} {a : Nat} (named : s.cmdLofts ≠ []) (aligned : a % 8 = 0)
    (free : ∀ l ∈ s.cmdLofts, s.loftReserved l = false) :
    s.lftCmdOp 1 a = (s.each s.cmdLofts fun t l => t.isWriteLoft a s.lftWord l, 0) := by
  have unreserved : s.cmdLofts.any s.loftReserved = false := by simpa using free
  simp [State.lftCmdOp, named, aligned, unreserved, State.isWriteLoft]

theorem State.each_isWriteLoft {s : State} (idle : s.injectsNone) {a : Nat} (fits : a + 8 ≤ 32768) (w : Nat → Word64)
    (lofts : List Nat) :
    (∀ l ∈ lofts, ∀ j < 8, tget 0 (s.each lofts fun t l => t.isWriteLoft a w l).lft.istore (l * 32768 + a + j) = w j) ∧
      ∀ x, (∀ l ∈ lofts, x < l * 32768 + a ∨ l * 32768 + a + 8 ≤ x) →
        tget 0 (s.each lofts fun t l => t.isWriteLoft a w l).lft.istore x = tget 0 s.lft.istore x := by
  refine State.each_loft_fills (table := fun u => u.lft.istore) (stands := State.injectsNone) fits (fun t l ok => ?_)
    (fun t l x ok => ?_) s idle lofts
  · exact (State.each_isWrite (State.injectsNone_wakeLoft ok l) l a 8 w).1
  · have written := (State.each_isWrite (State.injectsNone_wakeLoft ok l) l a 8 w).2 x
    rwa [State.lft_wakeLoft] at written

/-! ## Words read and checked (R367, R373) -/

/-- Words without an uncorrectable error are read whole, and the check makes no word uncorrectable. -/
theorem State.lftChecks_good {s : State} {m : EccMem} {i n : Nat} (good : ∀ j < n, s.eccOf m (i + j) ≠ .uncorr) :
    (s.lftChecks m i n).2 = true ∧ ∀ k, s.eccOf m k ≠ .uncorr → (s.lftChecks m i n).1.eccOf m k ≠ .uncorr := by
  induction n with
  | zero => exact ⟨rfl, fun _ h => h⟩
  | succ n ih =>
    obtain ⟨reads, stay⟩ := ih fun j hj => good j (Nat.lt_succ_of_lt hj)
    have next : s.lftChecks m i (n + 1) = (((s.lftChecks m i n).1.lftCheck m (i + n)).1,
        (s.lftChecks m i n).2 && ((s.lftChecks m i n).1.lftCheck m (i + n)).2) := by
      rw [State.lftChecks, upto, List.range_succ, List.foldl_append]
      rfl
    have last := stay _ (good n (Nat.lt_succ_self n))
    rw [next]
    refine ⟨?_, fun k h => State.eccOf_lftCheck _ _ _ (stay k h)⟩
    rw [reads, Bool.true_and]
    exact (onlyThread.lftCheck _ m (i + n) 0 last).2.2

theorem State.rd64_wr64 (s : State) (a v : Nat) : (s.wr64 a v).rd64 a = v % 2 ^ 64 := by
  refine (s.rd64_wr_wr a _ _).trans ?_
  rw [BitVec.toNat_ofNat, BitVec.toNat_ofNat]
  omega

theorem State.rd64_wr64_ne (s : State) {a b : Nat} (v : Nat) (apart : b + 4 < a ∨ a + 4 < b) :
    (s.wr64 a v).rd64 b = s.rd64 b := by
  have stands (k : Nat) (h : k ≠ a ∧ k ≠ a + 4) : (s.wr64 a v).rd k = s.rd k :=
    (State.rd_wrN_ne _ _ h.2).trans (s.rd_wrN_ne _ h.1)
  simp only [State.rd64, State.rdN, stands b (by omega), stands (b + 4) (by omega)]

/-- Words put into LFT_DATA one after another. -/
theorem State.lftWord_each_wr64 (s : State) (w : Nat → Word64) {n j : Nat} (hj : j < n) :
    (s.each (upto n) fun t j => t.wr64 (lftData (2 * j)) (w j).toNat).lftWord j = w j := by
  induction n with
  | zero => exact absurd hj (Nat.not_lt_zero j)
  | succ n ih =>
    rw [State.each_upto_succ, State.lftWord]
    by_cases last : j = n
    · rw [last, State.rd64_wr64, Nat.mod_eq_of_lt (w n).isLt, BitVec.ofNat_toNat, BitVec.setWidth_eq]
    · rw [State.rd64_wr64_ne _ _ (by unfold lftData; omega)]
      exact ih (by omega)

/-- A read of eight words without an uncorrectable error puts them into LFT_DATA. -/
theorem State.cmdRead_good {s : State} {m : EccMem} {i : Nat} (good : ∀ j < 8, s.eccOf m (i + j) ≠ .uncorr)
    (word : Nat → Word64) : ∃ r, s.cmdRead m i ((upto 8).map word) = (r, 0) ∧ (∀ j < 8, r.lftWord j = word j) ∧
      Keeps [.regs, .ecc, .mast] s r := by
  obtain ⟨reads, -⟩ := State.lftChecks_good good
  refine ⟨_, if_pos reads, fun j hj => ?_, .each (s.lftChecks_keeps m i 8) fun u j k => (u.wr64_keeps _ _).after rfl k⟩
  refine (State.lftWord_each_wr64 _ (fun j => ((upto 8).map word).getD j 0) hj).trans ?_
  simp [upto, hj]

theorem State.lftWord_wf_status (s : State) (v j : Nat) : (s.wf lftCmdStatus 31 24 v).lftWord j = s.lftWord j := by
  have lo : lftData (2 * j) ≠ lftCmdStatus := by unfold lftData lftCmdStatus; omega
  have hi : lftData (2 * j) + 4 ≠ lftCmdStatus := by unfold lftData lftCmdStatus; omega
  simp only [State.lftWord, State.rd64, State.rdN, s.rd_wf_ne 31 24 v lo, s.rd_wf_ne 31 24 v hi]

/-- A command that reads: its words stand in LFT_DATA, and nothing but registers, error records and counts changes. -/
theorem exec_hostRead {c : Instr} {s : State} {op a : Nat} (row : exec c s = .next (s.lftCmdWrite (lftCmdWord op a)))
    (idle : s.rb lftCmd 31 = false) (hop : 0 < op ∧ op < 8) (ha : a < 32768) {m : EccMem} {l i : Nat}
    {word : Nat → Word64} (good : ∀ j < 8, s.eccOf m (i + j) ≠ .uncorr)
    (reads : (s.commanded op a).lftCmdOp op a = ((s.commanded op a).wakeLoft l).cmdRead m i ((upto 8).map word)) :
    ∃ u, exec c s = .next u ∧ u.rf lftCmdStatus 31 24 = 0 ∧ (∀ j, j < 8 → u.lftWord j = word j) ∧
      onlyIn [.regs, .ecc, .mast] s u := by
  have before : Keeps [.regs, .mast] s ((s.commanded op a).wakeLoft l) :=
    (State.wakeLoft_keeps _ l).after rfl ((s.commanded_keeps op a).mono rfl)
  obtain ⟨r, done, words, keeps⟩ := State.cmdRead_good (m := m) (i := i)
    (fun j hj => by rw [State.eccOf_congr (before.same .ecc (by decide))]; exact good j hj) word
  exact ⟨_, exec_hostCommand row idle hop ha (reads.trans done), r.result_zero,
    fun j hj => (r.lftWord_wf_status 0 j).trans (words j hj),
    ((State.wf_keeps _ _ _ _ _).after rfl ((before.mono rfl).trans keeps)).same⟩

/-! ## Shared memory (R373) -/

/-- The bytes of the eight words of LFT_DATA. -/
def State.cmdBytes (s : State) : List Byte := (upto 8).flatMap fun j => natLe 8 (s.lftWord j).toNat

theorem State.length_cmdBytes (s : State) : s.cmdBytes.length = 64 := by
  simp only [State.cmdBytes, List.length_flatMap, length_natLe]
  rfl

theorem State.cmdBytes_commanded (s : State) (op a : Nat) : (s.commanded op a).cmdBytes = s.cmdBytes := by
  simp only [State.cmdBytes, s.lftWord_commanded op a]

/-- 64 bytes written into the shared memory of a loft. -/
def State.shWriteLoft (s : State) (a : Nat) (bs : List Byte) (l : Nat) : State :=
  ((s.wakeLoft l).refWrite (.sh (l * 262144 + 64 * a)) bs).inject 0x0E 0x20 0x60 .lftShared (l * 32768 + 8 * a)

/-- HOST_SH_WRITE (R373). -/
theorem State.lftCmdOp_shWrite {s : State} {a : Nat} (named : s.cmdLofts ≠ []) (ha : a < 4096)
    (free : ∀ l ∈ s.cmdLofts, s.loftReserved l = false) :
    s.lftCmdOp 3 a = (s.each s.cmdLofts fun t l => t.shWriteLoft a s.cmdBytes l, 0) := by
  have unreserved : s.cmdLofts.any s.loftReserved = false := by simpa using free
  simp [State.lftCmdOp, named, ha, unreserved, State.shWriteLoft, State.cmdBytes]

theorem State.shWriteLoft_idle {s : State} (idle : s.injectsNone) (a : Nat) (bs : List Byte) (l : Nat) :
    (s.shWriteLoft a bs l).injectsNone ∧
      s.shWriteLoft a bs l = (s.wakeLoft l).refWrite (.sh (l * 262144 + 64 * a)) bs := by
  have quiet : ((s.wakeLoft l).refWrite (.sh (l * 262144 + 64 * a)) bs).injectsNone := by
    have awake := State.injectsNone_wakeLoft idle l
    rwa [State.injectsNone, State.rf, State.rd_congr ((State.refWrite_keeps _ _ _).same .regs (by decide))]
  have same : s.shWriteLoft a bs l = (s.wakeLoft l).refWrite (.sh (l * 262144 + 64 * a)) bs := State.inject_idle quiet
  exact ⟨same ▸ quiet, same⟩

theorem State.each_shWriteLoft {s : State} (idle : s.injectsNone) {a : Nat} (fits : a < 4096) {bs : List Byte}
    (length : bs.length = 64) (lofts : List Nat) :
    (∀ l ∈ lofts, ∀ j < 64, tget 0 (s.each lofts fun t l => t.shWriteLoft a bs l).lft.shared (l * 262144 + 64 * a + j) =
        bs.getD j 0) ∧
      ∀ x, (∀ l ∈ lofts, x < l * 262144 + 64 * a ∨ l * 262144 + 64 * a + 64 ≤ x) →
        tget 0 (s.each lofts fun t l => t.shWriteLoft a bs l).lft.shared x = tget 0 s.lft.shared x := by
  refine State.each_loft_fills (table := fun u => u.lft.shared) (stands := State.injectsNone) (by omega)
    (fun t l ok => (State.shWriteLoft_idle ok a bs l).1) (fun t l x ok => ?_) s idle lofts
  have bytes := ((t.wakeLoft l).stored_refWrite (.sh (l * 262144 + 64 * a)) bs).2.1 x
  rw [length, State.lft_wakeLoft] at bytes
  rw [(State.shWriteLoft_idle ok a bs l).2, bytes]

theorem memRead_eq {m : Tbl Byte} {a n : Nat} {bs : List Byte} (length : bs.length = n)
    (same : ∀ j < n, tget 0 m (a + j) = bs.getD j 0) : memRead 0 m a n = bs := by
  subst length
  refine List.ext_getElem (by simp [memRead, upto]) fun j hj hk => ?_
  simp only [memRead, upto, List.getElem_map, List.getElem_range]
  rw [same j hk, List.getD_eq_getElem _ _ hk]

/-! ## Threads (R355, R356, R373) -/

/-- What a command that names a thread has before it when it acts. -/
theorem State.commanded_woken (s : State) (op t : Nat) :
    (∀ k, ((s.commanded op t).wakeLoft (t / 64)).thr k = s.thr k) ∧
      ∀ a, a ≠ lftCmd → 0x3000000 ≤ a → ((s.commanded op t).wakeLoft (t / 64)).rd a = s.rd a := by
  refine ⟨fun k => State.thr_of_lft ((State.lft_wakeLoft _ _).trans (s.lft_commanded op t)) k, fun a ne beyond => ?_⟩
  have gate : a ≠ gatedLoft (t / 64) := by
    unfold gatedLoft atcGatedLoftsLo atcGatedLoftsHi
    split <;> omega
  rw [State.rd_wakeLoft _ gate (offWrap_of_window beyond), s.rd_commanded op t ne]

theorem State.thrReserved_commanded (s : State) (op a k : Nat) : (s.commanded op a).thrReserved k = s.thrReserved k :=
  s.loftReserved_commanded op a _

/-- The commands that name a thread of a loft that is not reserved. -/
theorem State.lftCmdOp_thread {s : State} {t : Nat} (ht : t < 4096) (free : s.thrReserved t = false) :
    let s0 := s.wakeLoft (t / 64)
    (s.lftCmdOp 5 t = if (s0.thr t).state = 0 then
        (s0.setThr t { s0.thr t with pc := s0.rf (lftData 0) 14 0 }).thrStart t else (s0, 2)) ∧
      s.lftCmdOp 6 t = s0.thrStop t ∧ s.lftCmdOp 7 t = s0.thrResetOp t := by
  simp [State.lftCmdOp, ht, free]

theorem State.thrStart_stopped {s : State} {t : Nat} (stopped : (s.thr t).state = 0)
    (runs : s.engRunning (t / 8) = true) : s.thrStart t = (s.setThr t { s.thr t with state := 1 }, 0) :=
  if_pos ⟨stopped, runs⟩

theorem State.thrStop_runnable {s : State} {t : Nat} (runnable : (s.thr t).state = 1) (free : (s.thr t).wait = none) :
    s.thrStop t = (s.setThr t { s.thr t with state := 0 }, 0) := by
  simp [State.thrStop, State.endCurrent, runnable, free]

theorem State.thr_threadReset (s : State) (t k : Nat) : (s.threadReset t).thr k =
    if k = t then { Thread.init with queue := (s.thr t).queue, state := 0 } else s.thr k := by
  have freed (u : State) : (match (s.thr t).ticket with
      | some id => (u.freeTicket id).count evLftTicketAbandoned (t / 8) 0
      | none => u).thr k = u.thr k := by
    split
    · rw [State.thr_count, State.thr_freeTicket]
    · rfl
  have whole (u : State) : (if t % 8 = 0 ∧ t ≠ atcThread then u.complete (t / 8) else u).thr k = u.thr k := by
    split
    · exact u.thr_complete _ k
    · rfl
  unfold State.threadReset
  dsimp only
  refine (whole _).trans ?_
  by_cases same : k = t
  · subst same
    rw [if_pos rfl]
    exact State.thr_setThr _ _ _
  · rw [if_neg same, State.thr_setThr_ne _ _ same]
    refine (freed _).trans (s.thr_countBy _ _ _ _ _)

/-! ## The commands -/

section
variable {s : State} (idle : s.rb lftCmd 31 = false)
include idle

theorem exec_hostIsWrite {a : Nat} (ha : a < 32768) (aligned : a % 8 = 0) (named : s.cmdLofts ≠ [])
    (free : ∀ l ∈ s.cmdLofts, s.loftReserved l = false) (injects : s.injectsNone) :
    ∃ u, exec (.hostIsWrite a) s = .next u ∧ u.rf lftCmdStatus 31 24 = 0 ∧
      (∀ l ∈ s.cmdLofts, ∀ j, j < 8 → tget 0 u.lft.istore (l * 32768 + (a + j)) = s.lftWord j) ∧
      (∀ x, (∀ l ∈ s.cmdLofts, x < l * 32768 + a ∨ l * 32768 + a + 8 ≤ x) →
        tget 0 u.lft.istore x = tget 0 s.lft.istore x) := by
  have effect := State.lftCmdOp_isWrite (s := s.commanded 1 a) (a := a) (by rwa [s.cmdLofts_commanded]) aligned
    (by simpa only [s.cmdLofts_commanded, s.loftReserved_commanded] using free)
  have words : (s.commanded 1 a).lftWord = s.lftWord := funext (s.lftWord_commanded 1 a)
  rw [s.cmdLofts_commanded, words] at effect
  obtain ⟨filled, stand⟩ :=
    State.each_isWriteLoft (State.injectsNone_commanded injects 1 a) (a := a) (by omega) s.lftWord s.cmdLofts
  rw [s.lft_commanded] at stand
  simp only [Nat.add_assoc _ a] at filled
  exact ⟨_, exec_hostCommand rfl idle (by decide) ha effect, State.result_zero _, filled, stand⟩

theorem exec_hostShWrite {a : Nat} (ha : a < 4096) (named : s.cmdLofts ≠ [])
    (free : ∀ l ∈ s.cmdLofts, s.loftReserved l = false) (injects : s.injectsNone) :
    ∃ u, exec (.hostShWrite a) s = .next u ∧ u.rf lftCmdStatus 31 24 = 0 ∧
      (∀ l ∈ s.cmdLofts, memRead 0 u.lft.shared (l * 262144 + 64 * a) 64 = s.cmdBytes) ∧
      (∀ x, (∀ l ∈ s.cmdLofts, x < l * 262144 + 64 * a ∨ l * 262144 + 64 * a + 64 ≤ x) →
        tget 0 u.lft.shared x = tget 0 s.lft.shared x) := by
  have effect := State.lftCmdOp_shWrite (s := s.commanded 3 a) (a := a) (by rwa [s.cmdLofts_commanded]) ha
    (by simpa only [s.cmdLofts_commanded, s.loftReserved_commanded] using free)
  rw [s.cmdLofts_commanded, s.cmdBytes_commanded] at effect
  obtain ⟨filled, stand⟩ :=
    State.each_shWriteLoft (State.injectsNone_commanded injects 3 a) ha s.length_cmdBytes s.cmdLofts
  rw [s.lft_commanded] at stand
  exact ⟨_, exec_hostCommand rfl idle (by decide) (by omega) effect, State.result_zero _,
    fun l hl => memRead_eq s.length_cmdBytes (filled l hl), stand⟩

variable {t : Nat} (ht : t < 4096)
include ht

/-- A command that leaves thread `t` as `th` and every other thread as it was. -/
theorem exec_hostThread {c : Instr} {op : Nat} (row : exec c s = .next (s.lftCmdWrite (lftCmdWord op t)))
    (hop : 0 < op ∧ op < 8) {r : State} {th : Thread} (done : (s.commanded op t).lftCmdOp op t = (r, 0))
    (thread : r.thr t = th) (others : ∀ k, k ≠ t → r.thr k = s.thr k) :
    ∃ u, exec c s = .next u ∧ u.rf lftCmdStatus 31 24 = 0 ∧ u.thr t = th ∧ ∀ k, k ≠ t → u.thr k = s.thr k :=
  ⟨_, exec_hostCommand row idle hop (by omega) done, r.result_zero, thread, others⟩

variable (free : s.thrReserved t = false)
include free

theorem exec_hostThrStart (stopped : (s.thr t).state = 0) (runs : s.engRunning (t / 8) = true) :
    ∃ u, exec (.hostThrStart t) s = .next u ∧ u.rf lftCmdStatus 31 24 = 0 ∧
      u.thr t = { s.thr t with pc := s.rf (lftData 0) 14 0, state := 1 } ∧ ∀ k, k ≠ t → u.thr k = s.thr k := by
  obtain ⟨threads, regs⟩ := s.commanded_woken 5 t
  obtain ⟨effect, -, -⟩ := State.lftCmdOp_thread ht ((s.thrReserved_commanded 5 t t).trans free)
  have status : ((s.commanded 5 t).wakeLoft (t / 64)).rf (lftEngStatus (t / 8)) 31 30 =
      s.rf (lftEngStatus (t / 8)) 31 30 := by
    rw [State.rf, regs _ (by unfold lftEngStatus lftCmd; omega) (by unfold lftEngStatus; omega), State.rf]
  have pc : ((s.commanded 5 t).wakeLoft (t / 64)).rf (lftData 0) 14 0 = s.rf (lftData 0) 14 0 := by
    rw [State.rf, regs _ (by decide) (by decide), State.rf]
  have halted := stopped
  rw [← threads t] at halted
  rw [if_pos halted, pc, State.thrStart_stopped (by rwa [State.thr_setThr])
    (by rwa [State.engRunning, State.engState_setThr, status])] at effect
  refine exec_hostThread idle ht rfl (by decide) effect ?_ fun k ne => ?_
  · rw [State.thr_setThr, State.thr_setThr, threads]
  · rw [State.thr_setThr_ne _ _ ne, State.thr_setThr_ne _ _ ne, threads]

theorem exec_hostThrStop (runnable : (s.thr t).state = 1) (still : (s.thr t).wait = none) :
    ∃ u, exec (.hostThrStop t) s = .next u ∧ u.rf lftCmdStatus 31 24 = 0 ∧
      u.thr t = { s.thr t with state := 0 } ∧ ∀ k, k ≠ t → u.thr k = s.thr k := by
  obtain ⟨threads, -⟩ := s.commanded_woken 6 t
  obtain ⟨-, effect, -⟩ := State.lftCmdOp_thread ht ((s.thrReserved_commanded 6 t t).trans free)
  rw [← threads t] at runnable still
  rw [State.thrStop_runnable runnable still] at effect
  refine exec_hostThread idle ht rfl (by decide) effect ?_ fun k ne => ?_
  · rw [State.thr_setThr, threads]
  · rw [State.thr_setThr_ne _ _ ne, threads]

theorem exec_hostThrReset (still : (s.thr t).state = 0 ∨ (s.thr t).state = 4) :
    ∃ u, exec (.hostThrReset t) s = .next u ∧ u.rf lftCmdStatus 31 24 = 0 ∧
      u.thr t = { Thread.init with queue := (s.thr t).queue, state := 0 } ∧ ∀ k, k ≠ t → u.thr k = s.thr k := by
  obtain ⟨threads, -⟩ := s.commanded_woken 7 t
  obtain ⟨-, -, effect⟩ := State.lftCmdOp_thread ht ((s.thrReserved_commanded 7 t t).trans free)
  rw [← threads t] at still
  rw [State.thrResetOp, if_pos still] at effect
  refine exec_hostThread idle ht rfl (by decide) effect ?_ fun k ne => ?_
  · rw [State.thr_threadReset, if_pos rfl, threads]
  · rw [State.thr_threadReset, if_neg ne, threads]

end

end Sys2Proof.Machine

section
open Sys2Proof Sys2Proof.Machine

/-- Settles O17: a command is its operation on the state that has taken it, where LFT_DATA, the lofts named and the
threads are as before, and a write fills the same part of each loft named. -/
theorem loftsHostCommands : Obligations.LoftsHostCommands := by
  refine ⟨fun a s idle ha aligned named free injects => exec_hostIsWrite idle ha aligned named free injects, ?isRead,
    fun a s idle ha named free injects => exec_hostShWrite idle ha named free injects, ?shRead,
    fun t s idle ht free stopped runs => exec_hostThrStart idle ht free stopped runs,
    fun t s idle ht free runnable still => exec_hostThrStop idle ht free runnable still,
    fun t s idle ht free still => exec_hostThrReset idle ht free still⟩
  case isRead =>
    intro a l rest s idle ha aligned lofts good
    have cmd := s.cmdLofts_commanded 2 a
    rw [lofts] at cmd
    refine exec_hostRead rfl idle (by decide) ha good (l := l) ?_
    rw [← s.lft_commanded 2 a]
    simp [State.lftCmdOp, cmd, aligned]
  case shRead =>
    intro a l rest s idle ha lofts good
    have cmd := s.cmdLofts_commanded 4 a
    rw [lofts] at cmd
    refine exec_hostRead rfl idle (by decide) (by omega) good (l := l) ?_
    rw [← s.lft_commanded 4 a]
    simp [State.lftCmdOp, cmd, ha]

end

/-! PROOFS. Every command and every step of the queue: it ends in a next state, keeps every byte memory canonical, unblows
no fuse, takes back no emission, and does the command at the front (R446, R469, R475, R486, R554). -/

namespace Sys2Proof.Machine

/-! ## What every command keeps -/

/-- A command ends in a next state, which came from `s` by what a function of the model may do. -/
def Completes (s : State) (o : Host.Outcome State Fault Refusal) : Prop := ∃ t, o = .next t ∧ Keeps allParts s t

theorem mem_allParts (p : Part) : p ∈ allParts := by cases p <;> decide

/-- What keeps all but some pieces keeps all but every piece. -/
theorem Keeps.widen {l : List Part} {s t : State} (h : Keeps l s t) : Keeps allParts s t :=
  h.mono (List.all_eq_true.2 fun p _ => by simpa using mem_allParts p)

theorem Completes.of_keeps {l : List Part} {s : State} {o : Host.Outcome State Fault Refusal}
    (h : ∃ t, o = .next t ∧ Keeps l s t) : Completes s o := h.imp fun _ ⟨e, k⟩ => ⟨e, k.widen⟩

/-- Every command but JTAG_ACCESS completes: the law of its own meaning says so. -/
theorem exec_completes : ∀ (c : Instr) (s : State), (∀ ir tdi, c ≠ .jtagAccess ir tdi) → Completes s (exec c s)
  | .registerWrite a v, s, _ => .of_keeps (execRegisterWrite_keeps s a v)
  | .misalignedRegisterAccess fn write a size, s, _ => .of_keeps (execMisalignedRegisterAccess_keeps s fn write a size)
  | .reservedOffsetAccess write a, s, _ => .of_keeps (execReservedOffsetAccess_keeps s write a)
  | .pairLowerRead a, s, _ => .of_keeps (execPairLowerRead_keeps s a)
  | .pairUpperWrite a v, s, _ => .of_keeps (execPairUpperWrite_keeps s a v)
  | .rcFieldRead a, s, _ => .of_keeps (execRcFieldRead_keeps s a)
  | .setRegisterWrite a v, s, _ => .of_keeps (execSetRegisterWrite_keeps s a v)
  | .clrRegisterWrite a v, s, _ => .of_keeps (execClrRegisterWrite_keeps s a v)
  | .frameReceive n bytes err total fecC fecU, s, _ => .of_keeps (execFrameReceive_keeps s n bytes err total fecC fecU)
  | .sliceWake sl, s, _ => .of_keeps (execSliceWake_keeps s sl)
  | .frameBegin n, s, _ => .of_keeps (execFrameBegin_keeps s n)
  | .frameEnd n, s, _ => .of_keeps (execFrameEnd_keeps s n)
  | .linkUp n, s, _ => .of_keeps (execLinkUp_keeps s n)
  | .linkDown n, s, _ => .of_keeps (execLinkDown_keeps s n)
  | .autoNegotiation n ok, s, _ => .of_keeps (execAutoNegotiation_keeps s n ok)
  | .linkTraining n, s, _ => .of_keeps (execLinkTraining_keeps s n)
  | .laneRateWrite o v, s, _ => .of_keeps (execLaneRateWrite_keeps s o v)
  | .portCfgWrite n v, s, _ => .of_keeps (execPortCfgWrite_keeps s n v)
  | .portMtuWrite n v, s, _ => .of_keeps (execPortMtuWrite_keeps s n v)
  | .pfcReceive n vec times, s, _ => .of_keeps (execPfcReceive_keeps s n vec times)
  | .pauseReceive n time, s, _ => .of_keeps (execPauseReceive_keeps s n time)
  | .pauseTimerExpire n k, s, _ => .of_keeps (execPauseTimerExpire_keeps s n k)
  | .pfcGenerate n, s, _ => .of_keeps (execPfcGenerate_keeps s n)
  | .pfcRefresh n, s, _ => .of_keeps (execPfcRefresh_keeps s n)
  | .tsTagRead n, s, _ => .of_keeps (execTsTagRead_keeps s n)
  | .helloReceive n frame, s, _ => .of_keeps (execHelloReceive_keeps s n frame)
  | .partnerHoldExpire n, s, _ => .of_keeps (execPartnerHoldExpire_keeps s n)
  | .partnerStatePost n, s, _ => .of_keeps (execPartnerStatePost_keeps s n)
  | .helloSend n, s, _ => .of_keeps (execHelloSend_keeps s n)
  | .helloReply n, s, _ => .of_keeps (execHelloReply_keeps s n)
  | .headAccept f, s, _ => .of_keeps (execHeadAccept_keeps s f)
  | .parseComplete f upset, s, _ => .of_keeps (execParseComplete_keeps s f upset)
  | .ucWrite v, s, _ => .of_keeps (execUcWrite_keeps s v)
  | .ucRead v, s, _ => .of_keeps (execUcRead_keeps s v)
  | .storeScrub sl a e, s, _ => .of_keeps (execStoreScrub_keeps s sl a e)
  | .stageLookup f upset, s, _ => .of_keeps (execStageLookup_keeps s f upset)
  | .remoteAnswerArrive f k, s, _ => .of_keeps (execRemoteAnswerArrive_keeps s f k)
  | .parkRelease f, s, _ => .of_keeps (execParkRelease_keeps s f)
  | .headSlotArbitrate sl, s, _ => .of_keeps (execHeadSlotArbitrate_keeps s sl)
  | .reentryAgeLimit sl, s, _ => .of_keeps (execReentryAgeLimit_keeps s sl)
  | .chainEnd f, s, _ => .of_keeps (execChainEnd_keeps s f)
  | .stageCfgWrite sl st v, s, _ => .of_keeps (execStageCfgWrite_keeps s sl st v)
  | .genOpen, s, _ => .of_keeps (execGenOpen_keeps s)
  | .genCommit, s, _ => .of_keeps (execGenCommit_keeps s)
  | .genAbort, s, _ => .of_keeps (execGenAbort_keeps s)
  | .drainEnd, s, _ => .of_keeps (execDrainEnd_keeps s)
  | .drainTimeout, s, _ => .of_keeps (execDrainTimeout_keeps s)
  | .settlingEnd, s, _ => .of_keeps (execSettlingEnd_keeps s)
  | .actionWrite v, s, _ => .of_keeps (execActionWrite_keeps s v)
  | .actionRead v, s, _ => .of_keeps (execActionRead_keeps s v)
  | .definitionWrite v, s, _ => .of_keeps (execDefinitionWrite_keeps s v)
  | .definitionRead v, s, _ => .of_keeps (execDefinitionRead_keeps s v)
  | .exactInsert v, s, _ => .of_keeps (execExactInsert_keeps s v)
  | .exactDelete v, s, _ => .of_keeps (execExactDelete_keeps s v)
  | .exactSearch v, s, _ => .of_keeps (execExactSearch_keeps s v)
  | .portDefaultWrite n c v, s, _ => .of_keeps (execPortDefaultWrite_keeps s n c v)
  | .stageSramScrub sl a e, s, _ => .of_keeps (execStageSramScrub_keeps s sl a e)
  | .galInsert v, s, _ => .of_keeps (execGalInsert_keeps s v)
  | .galDelete v, s, _ => .of_keeps (execGalDelete_keeps s v)
  | .galFind v, s, _ => .of_keeps (execGalFind_keeps s v)
  | .galProbe v, s, _ => .of_keeps (execGalProbe_keeps s v)
  | .galJobStart v, s, _ => .of_keeps (execGalJobStart_keeps s v)
  | .galJobAbort v, s, _ => .of_keeps (execGalJobAbort_keeps s v)
  | .galJobRecord, s, _ => .of_keeps (execGalJobRecord_keeps s)
  | .galScrubVisit sl bank row bad, s, _ => .of_keeps (execGalScrubVisit_keeps s sl bank row bad)
  | .galRepair sl bank row e, s, _ => .of_keeps (execGalRepair_keeps s sl bank row e)
  | .lrdTableCfgWrite t v, s, _ => .of_keeps (execLrdTableCfgWrite_keeps s t v)
  | .lrdAgeWrite t v, s, _ => .of_keeps (execLrdAgeWrite_keeps s t v)
  | .larderSearch f j, s, _ => .of_keeps (execLarderSearch_keeps s f j)
  | .cellarSearchRelease, s, _ => .of_keeps (execCellarSearchRelease_keeps s)
  | .learnRequestApply, s, _ => .of_keeps (execLearnRequestApply_keeps s)
  | .sweepVisit t b, s, _ => .of_keeps (execSweepVisit_keeps s t b)
  | .lrdInsert v, s, _ => .of_keeps (execLrdInsert_keeps s v)
  | .lrdDelete v, s, _ => .of_keeps (execLrdDelete_keeps s v)
  | .lrdRead v, s, _ => .of_keeps (execLrdRead_keeps s v)
  | .lrdCompareReplace v, s, _ => .of_keeps (execLrdCompareReplace_keeps s v)
  | .lrdTouch v, s, _ => .of_keeps (execLrdTouch_keeps s v)
  | .lrdJobStart v, s, _ => .of_keeps (execLrdJobStart_keeps s v)
  | .lrdJobAbort v, s, _ => .of_keeps (execLrdJobAbort_keeps s v)
  | .lrdJobStep, s, _ => .of_keeps (execLrdJobStep_keeps s)
  | .lrdScrub u e, s, _ => .of_keeps (execLrdScrub_keeps s u e)
  | .lrdEccFree, s, _ => .of_keeps (execLrdEccFree_keeps s)
  | .lrdTemplateWrite lrn t v, s, _ => .of_keeps (execLrdTemplateWrite_keeps s lrn t v)
  | .crowsnestCall, s, _ => .of_keeps (execCrowsnestCall_keeps s)
  | .callTimeout f j, s, _ => .of_keeps (execCallTimeout_keeps s f j)
  | .cacheMissFill g, s, _ => .of_keeps (execCacheMissFill_keeps s g)
  | .crwCacheScrub g e, s, _ => .of_keeps (execCrwCacheScrub_keeps s g e)
  | .rosterWrite v, s, _ => .of_keeps (execRosterWrite_keeps s v)
  | .rosterRead v, s, _ => .of_keeps (execRosterRead_keeps s v)
  | .setHealth v, s, _ => .of_keeps (execSetHealth_keeps s v)
  | .setLoad v, s, _ => .of_keeps (execSetLoad_keeps s v)
  | .groupRead v, s, _ => .of_keeps (execGroupRead_keeps s v)
  | .groupWrite v, s, _ => .of_keeps (execGroupWrite_keeps s v)
  | .probe v, s, _ => .of_keeps (execProbe_keeps s v)
  | .rank v, s, _ => .of_keeps (execRank_keeps s v)
  | .crwCfgWrite v, s, _ => .of_keeps (execCrwCfgWrite_keeps s v)
  | .buildStart v, s, _ => .of_keeps (execBuildStart_keeps s v)
  | .buildAbort v, s, _ => .of_keeps (execBuildAbort_keeps s v)
  | .buildGroup g, s, _ => .of_keeps (execBuildGroup_keeps s g)
  | .loadSampleReceive sl, s, _ => .of_keeps (execLoadSampleReceive_keeps s sl)
  | .migBegin v, s, _ => .of_keeps (execMigBegin_keeps s v)
  | .migFinish v, s, _ => .of_keeps (execMigFinish_keeps s v)
  | .migAbort v, s, _ => .of_keeps (execMigAbort_keeps s v)
  | .migStep, s, _ => .of_keeps (execMigStep_keeps s)
  | .migDrainEnd, s, _ => .of_keeps (execMigDrainEnd_keeps s)
  | .migDrainTimeout, s, _ => .of_keeps (execMigDrainTimeout_keeps s)
  | .migMark v, s, _ => .of_keeps (execMigMark_keeps s v)
  | .noticeDecide f, s, _ => .of_keeps (execNoticeDecide_keeps s f)
  | .noticeTokenRefill sl, s, _ => .of_keeps (execNoticeTokenRefill_keeps s sl)
  | .copyOutcome c, s, _ => .of_keeps (execCopyOutcome_keeps s c)
  | .checkVerify f, s, _ => .of_keeps (execCheckVerify_keeps s f)
  | .checkAppend c, s, _ => .of_keeps (execCheckAppend_keeps s c)
  | .checkProfileWrite p v, s, _ => .of_keeps (execCheckProfileWrite_keeps s p v)
  | .voqAdmit f, s, _ => .of_keeps (execVoqAdmit_keeps s f)
  | .spillWrite sl q, s, _ => .of_keeps (execSpillWrite_keeps s sl q)
  | .spillReadback sl q chainBad, s, _ => .of_keeps (execSpillReadback_keeps s sl q chainBad)
  | .grantRound grants, s, _ => .of_keeps (execGrantRound_keeps s grants)
  | .cellArrive src q crcBad, s, _ => .of_keeps (execCellArrive_keeps s src q crcBad)
  | .copyFinishReport f e, s, _ => .of_keeps (execCopyFinishReport_keeps s f e)
  | .downHoldExpire n, s, _ => .of_keeps (execDownHoldExpire_keeps s n)
  | .stwSetWrite v, s, _ => .of_keeps (execStwSetWrite_keeps s v)
  | .stwSetRead v, s, _ => .of_keeps (execStwSetRead_keeps s v)
  | .stwGroupWrite v, s, _ => .of_keeps (execStwGroupWrite_keeps s v)
  | .stwGroupRead v, s, _ => .of_keeps (execStwGroupRead_keeps s v)
  | .stwMemberWrite v, s, _ => .of_keeps (execStwMemberWrite_keeps s v)
  | .stwMemberRead v, s, _ => .of_keeps (execStwMemberRead_keeps s v)
  | .flush v, s, _ => .of_keeps (execFlush_keeps s v)
  | .hashProfileCommit k v, s, _ => .of_keeps (execHashProfileCommit_keeps s k v)
  | .pantryScrub sl f e, s, _ => .of_keeps (execPantryScrub_keeps s sl f e)
  | .refillTick, s, _ => .of_keeps (execRefillTick_keeps s)
  | .policerWrite v, s, _ => .of_keeps (execPolicerWrite_keeps s v)
  | .policerRead v, s, _ => .of_keeps (execPolicerRead_keeps s v)
  | .schedDecision n, s, _ => .of_keeps (execSchedDecision_keeps s n)
  | .shaperRateWrite j v, s, _ => .of_keeps (execShaperRateWrite_keeps s j v)
  | .shaperBurstWrite j v, s, _ => .of_keeps (execShaperBurstWrite_keeps s j v)
  | .sampleInstant, s, _ => .of_keeps (execSampleInstant_keeps s)
  | .sheetScrub shaper sl ix e, s, _ => .of_keeps (execSheetScrub_keeps s shaper sl ix e)
  | .nop t f, s, _ => .of_keeps (execNop_keeps s t f)
  | .add t f, s, _ => .of_keeps (execAdd_keeps s t f)
  | .sub t f, s, _ => .of_keeps (execSub_keeps s t f)
  | .and t f, s, _ => .of_keeps (execAnd_keeps s t f)
  | .or t f, s, _ => .of_keeps (execOr_keeps s t f)
  | .xor t f, s, _ => .of_keeps (execXor_keeps s t f)
  | .shl t f, s, _ => .of_keeps (execShl_keeps s t f)
  | .shr t f, s, _ => .of_keeps (execShr_keeps s t f)
  | .sar t f, s, _ => .of_keeps (execSar_keeps s t f)
  | .mul t f, s, _ => .of_keeps (execMul_keeps s t f)
  | .mulh t f, s, _ => .of_keeps (execMulh_keeps s t f)
  | .slt t f, s, _ => .of_keeps (execSlt_keeps s t f)
  | .sltu t f, s, _ => .of_keeps (execSltu_keeps s t f)
  | .bext t f, s, _ => .of_keeps (execBext_keeps s t f)
  | .bins t f, s, _ => .of_keeps (execBins_keeps s t f)
  | .popc t f, s, _ => .of_keeps (execPopc_keeps s t f)
  | .clz t f, s, _ => .of_keeps (execClz_keeps s t f)
  | .addi t f, s, _ => .of_keeps (execAddi_keeps s t f)
  | .andi t f, s, _ => .of_keeps (execAndi_keeps s t f)
  | .ori t f, s, _ => .of_keeps (execOri_keeps s t f)
  | .xori t f, s, _ => .of_keeps (execXori_keeps s t f)
  | .shli t f, s, _ => .of_keeps (execShli_keeps s t f)
  | .shri t f, s, _ => .of_keeps (execShri_keeps s t f)
  | .sari t f, s, _ => .of_keeps (execSari_keeps s t f)
  | .li t f, s, _ => .of_keeps (execLi_keeps s t f)
  | .lih t f, s, _ => .of_keeps (execLih_keeps s t f)
  | .bswap t f, s, _ => .of_keeps (execBswap_keeps s t f)
  | .beq t f, s, _ => .of_keeps (execBeq_keeps s t f)
  | .bne t f, s, _ => .of_keeps (execBne_keeps s t f)
  | .blt t f, s, _ => .of_keeps (execBlt_keeps s t f)
  | .bge t f, s, _ => .of_keeps (execBge_keeps s t f)
  | .bltu t f, s, _ => .of_keeps (execBltu_keeps s t f)
  | .bgeu t f, s, _ => .of_keeps (execBgeu_keeps s t f)
  | .jal t f, s, _ => .of_keeps (execJal_keeps s t f)
  | .jalr t f, s, _ => .of_keeps (execJalr_keeps s t f)
  | .ld t f, s, _ => .of_keeps (execLd_keeps s t f)
  | .lds t f, s, _ => .of_keeps (execLds_keeps s t f)
  | .st t f, s, _ => .of_keeps (execSt_keeps s t f)
  | .amoAdd t f, s, _ => .of_keeps (execAmoAdd_keeps s t f)
  | .amoSwap t f, s, _ => .of_keeps (execAmoSwap_keeps s t f)
  | .amoCas t f, s, _ => .of_keeps (execAmoCas_keeps s t f)
  | .tkNext t f, s, _ => .of_keeps (execTkNext_keeps s t f)
  | .pktRd t f, s, _ => .of_keeps (execPktRd_keeps s t f)
  | .pktWr t f, s, _ => .of_keeps (execPktWr_keeps s t f)
  | .tkEmit t f, s, _ => .of_keeps (execTkEmit_keeps s t f)
  | .tkReinject t f, s, _ => .of_keeps (execTkReinject_keeps s t f)
  | .tkHost t f, s, _ => .of_keeps (execTkHost_keeps s t f)
  | .tkDone t f, s, _ => .of_keeps (execTkDone_keeps s t f)
  | .tbl t f, s, _ => .of_keeps (execTbl_keeps s t f)
  | .chk t f, s, _ => .of_keeps (execChk_keeps s t f)
  | .dma t f, s, _ => .of_keeps (execDma_keeps s t f)
  | .lbPut t f, s, _ => .of_keeps (execLbPut_keeps s t f)
  | .lbSend t f, s, _ => .of_keeps (execLbSend_keeps s t f)
  | .lbDrop t f, s, _ => .of_keeps (execLbDrop_keeps s t f)
  | .lbRecv t f, s, _ => .of_keeps (execLbRecv_keeps s t f)
  | .wfe t f, s, _ => .of_keeps (execWfe_keeps s t f)
  | .evSet t f, s, _ => .of_keeps (execEvSet_keeps s t f)
  | .evClr t f, s, _ => .of_keeps (execEvClr_keeps s t f)
  | .tmr t f, s, _ => .of_keeps (execTmr_keeps s t f)
  | .time t f, s, _ => .of_keeps (execTime_keeps s t f)
  | .thrWreg t f, s, _ => .of_keeps (execThrWreg_keeps s t f)
  | .thrRreg t f, s, _ => .of_keeps (execThrRreg_keeps s t f)
  | .thrStart t f, s, _ => .of_keeps (execThrStart_keeps s t f)
  | .thrStop t f, s, _ => .of_keeps (execThrStop_keeps s t f)
  | .thrReset t f, s, _ => .of_keeps (execThrReset_keeps s t f)
  | .thrStat t f, s, _ => .of_keeps (execThrStat_keeps s t f)
  | .bell t f, s, _ => .of_keeps (execBell_keeps s t f)
  | .vret t f, s, _ => .of_keeps (execVret_keeps s t f)
  | .trap t f, s, _ => .of_keeps (execTrap_keeps s t f)
  | .brk t f, s, _ => .of_keeps (execBrk_keeps s t f)
  | .stop t f, s, _ => .of_keeps (execStop_keeps s t f)
  | .wInstructionComplete t, s, _ => .of_keeps (execWInstructionComplete_keeps s t)
  | .timerDeadline t, s, _ => .of_keeps (execTimerDeadline_keeps s t)
  | .ticketEnqueue id, s, _ => .of_keeps (execTicketEnqueue_keeps s id)
  | .waitDeadlock e, s, _ => .of_keeps (execWaitDeadlock_keeps s e)
  | .breakpointHalt t, s, _ => .of_keeps (execBreakpointHalt_keeps s t)
  | .engineStop e, s, _ => .of_keeps (execEngineStop_keeps s e)
  | .engineRestart e, s, _ => .of_keeps (execEngineRestart_keeps s e)
  | .dbgHalt, s, _ => .of_keeps (execDbgHalt_keeps s)
  | .dbgResume, s, _ => .of_keeps (execDbgResume_keeps s)
  | .dbgStep, s, _ => .of_keeps (execDbgStep_keeps s)
  | .dbgRead reg, s, _ => .of_keeps (execDbgRead_keeps s reg)
  | .dbgWrite reg, s, _ => .of_keeps (execDbgWrite_keeps s reg)
  | .dbgHaltEngine, s, _ => .of_keeps (execDbgHaltEngine_keeps s)
  | .dbgResumeEngine, s, _ => .of_keeps (execDbgResumeEngine_keeps s)
  | .hostIsWrite addr, s, _ => .of_keeps (execHostIsWrite_keeps s addr)
  | .hostIsRead addr, s, _ => .of_keeps (execHostIsRead_keeps s addr)
  | .hostShWrite addr, s, _ => .of_keeps (execHostShWrite_keeps s addr)
  | .hostShRead addr, s, _ => .of_keeps (execHostShRead_keeps s addr)
  | .hostThrStart t, s, _ => .of_keeps (execHostThrStart_keeps s t)
  | .hostThrStop t, s, _ => .of_keeps (execHostThrStop_keeps s t)
  | .hostThrReset t, s, _ => .of_keeps (execHostThrReset_keeps s t)
  | .loftWake l, s, _ => .of_keeps (execLoftWake_keeps s l)
  | .loftsScrub m ix e, s, _ => .of_keeps (execLoftsScrub_keeps s m ix e)
  | .crwReserveWrite v, s, _ => .of_keeps (execCrwReserveWrite_keeps s v)
  | .poolValidWrite k v, s, _ => .of_keeps (execPoolValidWrite_keeps s k v)
  | .poolFormatDone k, s, _ => .of_keeps (execPoolFormatDone_keeps s k)
  | .bufferRequest id, s, _ => .of_keeps (execBufferRequest_keeps s id)
  | .cacheRefill k, s, _ => .of_keeps (execCacheRefill_keeps s k)
  | .grantQueueTimeout id, s, _ => .of_keeps (execGrantQueueTimeout_keeps s id)
  | .bufferFree f v, s, _ => .of_keeps (execBufferFree_keeps s f v)
  | .bufferShare f v, s, _ => .of_keeps (execBufferShare_keeps s f v)
  | .grantRegisterRead f k, s, _ => .of_keeps (execGrantRegisterRead_keeps s f k)
  | .grantRegisterRefill f k, s, _ => .of_keeps (execGrantRegisterRefill_keeps s f k)
  | .reclaimStart v, s, _ => .of_keeps (execReclaimStart_keeps s v)
  | .reclaimVisit, s, _ => .of_keeps (execReclaimVisit_keeps s)
  | .cupboardScrub k w e, s, _ => .of_keeps (execCupboardScrub_keeps s k w e)
  | .hostLinkTrain mode speed width lopt, s, _ => .of_keeps (execHostLinkTrain_keeps s mode speed width lopt)
  | .perstReset e, s, _ => .of_keeps (execPerstReset_keeps e s)
  | .functionLevelReset f, s, _ => .of_keeps (execFunctionLevelReset_keeps s f)
  | .sqDoorbell q v, s, _ => .of_keeps (execSqDoorbell_keeps s q v)
  | .cqCiWrite q v, s, _ => .of_keeps (execCqCiWrite_keeps s q v)
  | .entryFetch q words, s, _ => .of_keeps (execEntryFetch_keeps s q words)
  | .nopEntry q, s, _ => .of_keeps (execNopEntry_keeps s q)
  | .sendPipeline q, s, _ => .of_keeps (execSendPipeline_keeps s q)
  | .sendDirect q, s, _ => .of_keeps (execSendDirect_keeps s q)
  | .ticketEntry q, s, _ => .of_keeps (execTicketEntry_keeps s q)
  | .recvEntry q, s, _ => .of_keeps (execRecvEntry_keeps s q)
  | .completionWrite q, s, _ => .of_keeps (execCompletionWrite_keeps s q)
  | .completionSignal q, s, _ => .of_keeps (execCompletionSignal_keeps s q)
  | .qpPause q, s, _ => .of_keeps (execQpPause_keeps s q)
  | .qpResume q, s, _ => .of_keeps (execQpResume_keeps s q)
  | .qpReset q, s, _ => .of_keeps (execQpReset_keeps s q)
  | .haltClear, s, _ => .of_keeps (execHaltClear_keeps s)
  | .formatGenWrite f v, s, _ => .of_keeps (execFormatGenWrite_keeps s f v)
  | .qpEnable q v, s, _ => .of_keeps (execQpEnable_keeps s q v)
  | .fnQpWrite f v, s, _ => .of_keeps (execFnQpWrite_keeps s f v)
  | .hostSleepEnter f l2, s, _ => .of_keeps (execHostSleepEnter_keeps s f l2)
  | .hostWake f, s, _ => .of_keeps (execHostWake_keeps s f)
  | .hostMemAccess bar4 range off write len hold, s, _ => .of_keeps (execHostMemAccess_keeps s bar4 range off write len hold)
  | .sourceAssert src, s, _ => .of_keeps (execSourceAssert_keeps s src)
  | .bellPull v, s, _ => .of_keeps (execBellPull_keeps s v)
  | .arbitrate t parity, s, _ => .of_keeps (execArbitrate_keeps s t parity)
  | .vectorCommit e, s, _ => .of_keeps (execVectorCommit_keeps s e)
  | .atticVector, s, _ => .of_keeps (execAtticVector_keeps s)
  | .msixSend fn vec, s, _ => .of_keeps (execMsixSend_keeps s fn vec)
  | .eoiWrite fn v, s, _ => .of_keeps (execEoiWrite_keeps s fn v)
  | .routeWrite src v, s, _ => .of_keeps (execRouteWrite_keeps s src v)
  | .routeScrub src e, s, _ => .of_keeps (execRouteScrub_keeps s src e)
  | .cellarRead req addr len e, s, _ => .of_keeps (execCellarRead_keeps s req addr len e)
  | .cellarWrite req addr data poison, s, _ => .of_keeps (execCellarWrite_keeps s req addr data poison)
  | .bankRefresh stack pch bank, s, _ => .of_keeps (execBankRefresh_keeps s stack pch bank)
  | .selfRefreshEntry k, s, _ => .of_keeps (execSelfRefreshEntry_keeps s k)
  | .selfRefreshExit k, s, _ => .of_keeps (execSelfRefreshExit_keeps s k)
  | .activationWindowEnd, s, _ => .of_keeps (execActivationWindowEnd_keeps s)
  | .caParityAlert stack ch, s, _ => .of_keeps (execCaParityAlert_keeps s stack ch)
  | .patrolScrub stack pch e, s, _ => .of_keeps (execPatrolScrub_keeps s stack pch e)
  | .scrubWake k, s, _ => .of_keeps (execScrubWake_keeps s k)
  | .celPartWrite v, s, _ => .of_keeps (execCelPartWrite_keeps s v)
  | .celLockWrite v, s, _ => .of_keeps (execCelLockWrite_keeps s v)
  | .coldStart slotStrap flashStrap testMode, s, _ => .of_keeps (execColdStart_keeps s slotStrap flashStrap testMode)
  | .vddAonLoss, s, _ => .of_keeps (execVddAonLoss_keeps s)
  | .bootStageEnd ok progOk, s, _ => .of_keeps (execBootStageEnd_keeps s ok progOk)
  | .configRecord, s, _ => .of_keeps (execConfigRecord_keeps s)
  | .pollTimeout, s, _ => .of_keeps (execPollTimeout_keeps s)
  | .delayExpire, s, _ => .of_keeps (execDelayExpire_keeps s)
  | .reservedLoftStart, s, _ => .of_keeps (execReservedLoftStart_keeps s)
  | .flRead a, s, _ => .of_keeps (execFlRead_keeps s a)
  | .flProgram a, s, _ => .of_keeps (execFlProgram_keeps s a)
  | .flErase4k a, s, _ => .of_keeps (execFlErase4k_keeps s a)
  | .flErase64k a, s, _ => .of_keeps (execFlErase64k_keeps s a)
  | .slotTry tries ok, s, _ => .of_keeps (execSlotTry_keeps s tries ok)
  | .slotConfirm tries ok fuseOk, s, _ => .of_keeps (execSlotConfirm_keeps s tries ok fuseOk)
  | .slotRevert tries ok, s, _ => .of_keeps (execSlotRevert_keeps s tries ok)
  | .autoConfirm ok fuseOk, s, _ => .of_keeps (execAutoConfirm_keeps s ok fuseOk)
  | .timeTick, s, _ => .of_keeps (execTimeTick_keeps s)
  | .timeAdjWrite v, s, _ => .of_keeps (execTimeAdjWrite_keeps s v)
  | .timeSetWrite v, s, _ => .of_keeps (execTimeSetWrite_keeps s v)
  | .timeIncrWrite v, s, _ => .of_keeps (execTimeIncrWrite_keeps s v)
  | .powerTargetWrite v, s, _ => .of_keeps (execPowerTargetWrite_keeps s v)
  | .shutterComplete, s, _ => .of_keeps (execShutterComplete_keeps s)
  | .shutteredWake cause, s, _ => .of_keeps (execShutteredWake_keeps s cause)
  | .sliceGate sl, s, _ => .of_keeps (execSliceGate_keeps s sl)
  | .periodicScrubWake, s, _ => .of_keeps (execPeriodicScrubWake_keeps s)
  | .deviceRestart, s, _ => .of_keeps (execDeviceRestart_keeps s)
  | .sliceRestart sl, s, _ => .of_keeps (execSliceRestart_keeps s sl)
  | .sidebandAccess addr write off v, s, _ => .of_keeps (execSidebandAccess_keeps s addr write off v)
  | .reportPresent src inst info, s, _ => .of_keeps (execReportPresent_keeps s src inst info)
  | .reportTake, s, _ => .of_keeps (execReportTake_keeps s)
  | .safeEnterWrite, s, _ => .of_keeps (execSafeEnterWrite_keeps s)
  | .safeExitWrite, s, _ => .of_keeps (execSafeExitWrite_keeps s)
  | .safeAutoExit, s, _ => .of_keeps (execSafeAutoExit_keeps s)
  | .isolationRelease v, s, _ => .of_keeps (execIsolationRelease_keeps s v)
  | .monitorDetect src inst info, s, _ => .of_keeps (execMonitorDetect_keeps s src inst info)
  | .selfCheck parityBad heartbeatLost, s, _ => .of_keeps (execSelfCheck_keeps s parityBad heartbeatLost)
  | .aliveToggle, s, _ => .of_keeps (execAliveToggle_keeps s)
  | .injectOneBit v, s, _ => .of_keeps (execInjectOneBit_keeps s v)
  | .injectTwoBits v, s, _ => .of_keeps (execInjectTwoBits_keeps s v)
  | .injectReport v, s, _ => .of_keeps (execInjectReport_keeps s v)
  | .injectParity v, s, _ => .of_keeps (execInjectParity_keeps s v)
  | .logSelect v, s, _ => .of_keeps (execLogSelect_keeps s v)
  | .counterSnapshot, s, _ => .of_keeps (execCounterSnapshot_keeps s)
  | .snapWrite, s, _ => .of_keeps (execSnapWrite_keeps s)
  | .dumpComplete, s, _ => .of_keeps (execDumpComplete_keeps s)
  | .counterRead, s, _ => .of_keeps (execCounterRead_keeps s)
  | .counterDirectorySelect v, s, _ => .of_keeps (execCounterDirectorySelect_keeps s v)
  | .dumpCfgWrite a v, s, _ => .of_keeps (execDumpCfgWrite_keeps s a v)
  | .counterScrub ev o ix e, s, _ => .of_keeps (execCounterScrub_keeps s ev o ix e)
  | .monitorClear src inst, s, _ => .of_keeps (execMonitorClear_keeps s src inst)
  | .stackTemperatureChange k temp, s, _ => .of_keeps (execStackTemperatureChange_keeps s k temp)
  | .configRequest f field write, s, _ => .of_keeps (execConfigRequest_keeps s f field write)
  | .flashCommandEnd ok, s, _ => .of_keeps (execFlashCommandEnd_keeps s ok)
  | .hostDmaCompletion q idx data, s, _ => .of_keeps (execHostDmaCompletion_keeps s q idx data)
  | .backInvalidateResponse line, s, _ => .of_keeps (execBackInvalidateResponse_keeps s line)
  | .dynamicAddressAssign a, s, _ => .of_keeps (execDynamicAddressAssign_keeps s a)
  | .jtagAccess ir tdi, _, h => absurd rfl (h ir tdi)

/-- JTAG_ACCESS completes, or it is refused where R475 hands it to the debug unit (R554). -/
theorem exec_jtagAccess_completes (ir : Nat) (tdi : List Bool) (s : State) :
    Completes s (exec (.jtagAccess ir tdi) s) ∨
      (6 ≤ ir ∧ (s.rb atcBootStatus 24 = true ∨ ∀ k ∈ s.attic.keys, k.isSet = false) ∧
        exec (.jtagAccess ir tdi) s = .refused .jtagBeyond) := by
  rcases execJtagAccess_keeps ir tdi s with refused | completes
  · refine .inr ⟨?_, ?_, refused⟩ <;> unfold execJtagAccess at refused <;> grind
  · exact .inl (.of_keeps completes)

/-- A command that answers a next state keeps what the laws keep. -/
theorem exec_keeps {c : Instr} {s t : State} (out : exec c s = .next t) : Keeps allParts s t := by
  have next : Completes s (exec c s) := by
    by_cases jtag : ∃ ir tdi, c = .jtagAccess ir tdi
    · obtain ⟨ir, tdi, rfl⟩ := jtag
      rcases exec_jtagAccess_completes ir tdi s with completes | ⟨-, -, refused⟩
      · exact completes
      · rw [refused] at out
        cases out
    · exact exec_completes c s fun ir tdi h => jtag ⟨ir, tdi, h⟩
  obtain ⟨u, out', keeps⟩ := next
  rw [out] at out'
  cases out'
  exact keeps

/-! ## What every step keeps -/

/-- A step is the command at the front done on the rest, or nothing. -/
theorem step_cases {s t : State} (h : step s = .next t) :
    t = s ∨ ∃ c rest, s.pending = c :: rest ∧ exec c { s with pending := rest } = .next t := by
  unfold step at h
  split at h
  · exact .inl (Host.Outcome.next.inj h).symm
  · next c rest queue => exact .inr ⟨c, rest, queue, h⟩

theorem step_keeps_sound {s t : State} (h : step s = .next t) (sound : s.sound) : t.sound := by
  rcases step_cases h with rfl | ⟨c, rest, -, out⟩
  · exact sound
  · exact (exec_keeps out).sound sound

theorem step_keeps_fuses {s t : State} (h : step s = .next t) : fusesStand s t := by
  rcases step_cases h with rfl | ⟨c, rest, -, out⟩
  · exact .refl t
  · exact (exec_keeps out).fuses

end Sys2Proof.Machine

section
open Sys2Proof Sys2Proof.Machine

/-- Settles O1: a step is defined by the front of the queue. -/
theorem stepRunsFrontCommand : Obligations.StepRunsFrontCommand := by
  refine ⟨fun c rest s => rfl, fun s empty => ?_⟩
  unfold step
  rw [empty]

/-- Settles O2: each command completes by its own law, and JTAG_ACCESS, which need not, is the exception. -/
theorem everyCommandCompletes : Obligations.EveryCommandCompletes := by
  intro c s
  by_cases jtag : ∃ ir tdi, c = .jtagAccess ir tdi
  · obtain ⟨ir, tdi, rfl⟩ := jtag
    rcases exec_jtagAccess_completes ir tdi s with ⟨t, out, keeps⟩ | ⟨beyond, allowed, refused⟩
    · exact .inl ⟨t, out, keeps.queue, keeps.out⟩
    · exact .inr ⟨ir, tdi, rfl, beyond, allowed, refused⟩
  · obtain ⟨t, out, keeps⟩ := exec_completes c s fun ir tdi h => jtag ⟨ir, tdi, h⟩
    exact .inl ⟨t, out, keeps.queue, keeps.out⟩

/-- Settles O3: every command that completes keeps the canonical form, and the queue holds no memory. -/
theorem stepKeepsMemoriesCanonical : Obligations.StepKeepsMemoriesCanonical :=
  fun _ _ sound h => step_keeps_sound h sound

/-- Settles O4: the memories of the reset state list nothing. -/
theorem resetIsCanonical : Obligations.ResetIsCanonical :=
  ⟨⟨Memory.wf_nil 0, Memory.wf_nil 0, Memory.wf_nil flashErased, Memory.wf_nil 0, Memory.wf_nil 0⟩, rfl⟩

/-- Settles O5: every command that completes leaves every blown fuse blown, and the queue holds no fuse. -/
theorem fusesNeverUnblow : Obligations.FusesNeverUnblow :=
  fun _ _ h => step_keeps_fuses h

end

/-! PROOFS. Which registers a function may write, said as a relation between two states; members of sets of numbers; and
what holds after the steps of a list. -/

namespace Sys2Proof.Machine

/-! ## Members of sets of numbers -/

theorem shas_iff {l : List Nat} {k : Nat} : shas l k = true ↔ k ∈ l := by simp [shas]

theorem shas_eq_false_iff {l : List Nat} {k : Nat} : shas l k = false ↔ k ∉ l := by
  rw [← shas_iff, Bool.not_eq_true]

theorem mem_sadd {l : List Nat} {j k : Nat} : j ∈ sadd l k ↔ j = k ∨ j ∈ l := by
  induction l with
  | nil => simp [sadd]
  | cons i t ih => grind [sadd]

theorem mem_sdel {l : List Nat} {j k : Nat} : j ∈ sdel l k ↔ j ∈ l ∧ j ≠ k := by simp [sdel]

theorem shas_sadd (l : List Nat) (k j : Nat) : shas (sadd l k) j = (j == k || shas l j) := by
  rw [Bool.eq_iff_iff, shas_iff, mem_sadd, Bool.or_eq_true, shas_iff, beq_iff_eq]

theorem shas_sdel (l : List Nat) (k j : Nat) : shas (sdel l k) j = (j != k && shas l j) := by
  rw [Bool.eq_iff_iff, shas_iff, mem_sdel, Bool.and_eq_true, shas_iff, bne_iff_ne, and_comm]

@[simp] theorem shas_sadd_same (l : List Nat) (k : Nat) : shas (sadd l k) k = true := by simp [shas_sadd]

@[simp] theorem shas_sdel_same (l : List Nat) (k : Nat) : shas (sdel l k) k = false := by simp [shas_sdel]

theorem shas_sadd_ne (l : List Nat) {k j : Nat} (ne : j ≠ k) : shas (sadd l k) j = shas l j := by
  simp [shas_sadd, ne]

theorem shas_sdel_ne (l : List Nat) {k j : Nat} (ne : j ≠ k) : shas (sdel l k) j = shas l j := by
  simp [shas_sdel, ne]

theorem mem_upto {n i : Nat} : i ∈ upto n ↔ i < n := List.mem_range

/-! ## Steps of a list -/

@[simp] theorem State.each_nil {α : Type} (s : State) (f : State → α → State) : s.each [] f = s := rfl

theorem State.each_append {α : Type} (s : State) (l m : List α) (f : State → α → State) :
    s.each (l ++ m) f = (s.each l f).each m f := List.foldl_append

/-- What each step of a list keeps holds after them all. -/
theorem State.each_invariant {α : Type} {P : State → Prop} {s : State} {l : List α} {f : State → α → State} (h : P s)
    (step : ∀ t, ∀ x ∈ l, P t → P (f t x)) : P (s.each l f) :=
  List.foldlRecOn l f h fun t ht x hx => step t x hx ht

/-- What one step of a list brings about and the others keep holds after them all. -/
theorem State.each_reaches {α : Type} {P : State → Prop} {s : State} {l : List α} {f : State → α → State} {x : α}
    (mem : x ∈ l) (gets : ∀ t, P (f t x)) (keeps : ∀ t, ∀ y ∈ l, P t → P (f t y)) : P (s.each l f) := by
  obtain ⟨before, after, rfl⟩ := List.append_of_mem mem
  rw [State.each_append, State.each_cons]
  exact State.each_invariant (gets _) fun t y hy => keeps t y (by simp [hy])

/-- What no step of a list changes stands. -/
theorem State.each_stands {α β : Type} {g : State → β} {s : State} {l : List α} {f : State → α → State}
    (step : ∀ t, ∀ x ∈ l, g (f t x) = g t) : g (s.each l f) = g s :=
  State.each_invariant (P := fun t => g t = g s) rfl fun t x hx ht => (step t x hx).trans ht

/-! ## What a count and a report leave -/

@[simp] theorem State.held_countBy (s : State) (e o i n : Nat) : (s.countBy e o i n).held = s.held :=
  (s.countBy_keeps e o i n).same .held (by decide)

@[simp] theorem State.latch_countBy (s : State) (e o i n : Nat) : (s.countBy e o i n).latch = s.latch :=
  (s.countBy_keeps e o i n).same .latch (by decide)

@[simp] theorem State.rdata_countBy (s : State) (e o i n : Nat) : (s.countBy e o i n).rdata = s.rdata :=
  (s.countBy_keeps e o i n).same .rdata (by decide)

@[simp] theorem State.time_countBy (s : State) (e o i n : Nat) : (s.countBy e o i n).time = s.time :=
  (s.countBy_keeps e o i n).same .time (by decide)

@[simp] theorem State.cycles_countBy (s : State) (e o i n : Nat) : (s.countBy e o i n).cycles = s.cycles :=
  (s.countBy_keeps e o i n).same .cycles (by decide)

@[simp] theorem State.freeCtr_countBy (s : State) (e o i n : Nat) : (s.countBy e o i n).freeCtr = s.freeCtr :=
  (s.countBy_keeps e o i n).same .freeCtr (by decide)

@[simp] theorem State.ecc_countBy (s : State) (e o i n : Nat) : (s.countBy e o i n).ecc = s.ecc :=
  (s.countBy_keeps e o i n).same .ecc (by decide)

@[simp] theorem State.bell_countBy (s : State) (e o i n : Nat) : (s.countBy e o i n).bell = s.bell :=
  (s.countBy_keeps e o i n).same .bell (by decide)

@[simp] theorem State.cel_countBy (s : State) (e o i n : Nat) : (s.countBy e o i n).cel = s.cel :=
  (s.countBy_keeps e o i n).same .cel (by decide)

@[simp] theorem State.attic_countBy (s : State) (e o i n : Nat) : (s.countBy e o i n).attic = s.attic :=
  (s.countBy_keeps e o i n).same .attic (by decide)

@[simp] theorem State.cup_countBy (s : State) (e o i n : Nat) : (s.countBy e o i n).cup = s.cup :=
  (s.countBy_keeps e o i n).same .cup (by decide)

@[simp] theorem State.dwy_countBy (s : State) (e o i n : Nat) : (s.countBy e o i n).dwy = s.dwy :=
  (s.countBy_keeps e o i n).same .dwy (by decide)

@[simp] theorem State.lft_countBy (s : State) (e o i n : Nat) : (s.countBy e o i n).lft = s.lft :=
  (s.countBy_keeps e o i n).same .lft (by decide)

@[simp] theorem State.pipe_countBy (s : State) (e o i n : Nat) : (s.countBy e o i n).pipe = s.pipe :=
  (s.countBy_keeps e o i n).same .pipe (by decide)

@[simp] theorem State.crw_countBy (s : State) (e o i n : Nat) : (s.countBy e o i n).crw = s.crw :=
  (s.countBy_keeps e o i n).same .crw (by decide)

@[simp] theorem State.outbox_countBy (s : State) (e o i n : Nat) : (s.countBy e o i n).outbox = s.outbox :=
  (s.countBy_keeps e o i n).same .outbox (by decide)

@[simp] theorem State.held_count (s : State) (e o i : Nat) : (s.count e o i).held = s.held := s.held_countBy e o i 1

@[simp] theorem State.latch_count (s : State) (e o i : Nat) : (s.count e o i).latch = s.latch := s.latch_countBy e o i 1

@[simp] theorem State.rdata_count (s : State) (e o i : Nat) : (s.count e o i).rdata = s.rdata := s.rdata_countBy e o i 1

@[simp] theorem State.time_count (s : State) (e o i : Nat) : (s.count e o i).time = s.time := s.time_countBy e o i 1

@[simp] theorem State.cycles_count (s : State) (e o i : Nat) : (s.count e o i).cycles = s.cycles := s.cycles_countBy e o i 1

@[simp] theorem State.freeCtr_count (s : State) (e o i : Nat) : (s.count e o i).freeCtr = s.freeCtr := s.freeCtr_countBy e o i 1

@[simp] theorem State.ecc_count (s : State) (e o i : Nat) : (s.count e o i).ecc = s.ecc := s.ecc_countBy e o i 1

@[simp] theorem State.bell_count (s : State) (e o i : Nat) : (s.count e o i).bell = s.bell := s.bell_countBy e o i 1

@[simp] theorem State.cel_count (s : State) (e o i : Nat) : (s.count e o i).cel = s.cel := s.cel_countBy e o i 1

@[simp] theorem State.attic_count (s : State) (e o i : Nat) : (s.count e o i).attic = s.attic := s.attic_countBy e o i 1

@[simp] theorem State.cup_count (s : State) (e o i : Nat) : (s.count e o i).cup = s.cup := s.cup_countBy e o i 1

@[simp] theorem State.dwy_count (s : State) (e o i : Nat) : (s.count e o i).dwy = s.dwy := s.dwy_countBy e o i 1

@[simp] theorem State.lft_count (s : State) (e o i : Nat) : (s.count e o i).lft = s.lft := s.lft_countBy e o i 1

@[simp] theorem State.crw_count (s : State) (e o i : Nat) : (s.count e o i).crw = s.crw := s.crw_countBy e o i 1

@[simp] theorem State.outbox_count (s : State) (e o i : Nat) : (s.count e o i).outbox = s.outbox := s.outbox_countBy e o i 1

@[simp] theorem State.held_report (s : State) (src inst : Nat) (info : Word) :
    (s.report src inst info).held = s.held := (s.report_keeps src inst info).same .held (by decide)

@[simp] theorem State.latch_report (s : State) (src inst : Nat) (info : Word) :
    (s.report src inst info).latch = s.latch := (s.report_keeps src inst info).same .latch (by decide)

@[simp] theorem State.rdata_report (s : State) (src inst : Nat) (info : Word) :
    (s.report src inst info).rdata = s.rdata := (s.report_keeps src inst info).same .rdata (by decide)

@[simp] theorem State.time_report (s : State) (src inst : Nat) (info : Word) :
    (s.report src inst info).time = s.time := (s.report_keeps src inst info).same .time (by decide)

@[simp] theorem State.cycles_report (s : State) (src inst : Nat) (info : Word) :
    (s.report src inst info).cycles = s.cycles := (s.report_keeps src inst info).same .cycles (by decide)

@[simp] theorem State.freeCtr_report (s : State) (src inst : Nat) (info : Word) :
    (s.report src inst info).freeCtr = s.freeCtr := (s.report_keeps src inst info).same .freeCtr (by decide)

@[simp] theorem State.ecc_report (s : State) (src inst : Nat) (info : Word) :
    (s.report src inst info).ecc = s.ecc := (s.report_keeps src inst info).same .ecc (by decide)

@[simp] theorem State.bell_report (s : State) (src inst : Nat) (info : Word) :
    (s.report src inst info).bell = s.bell := (s.report_keeps src inst info).same .bell (by decide)

@[simp] theorem State.cel_report (s : State) (src inst : Nat) (info : Word) :
    (s.report src inst info).cel = s.cel := (s.report_keeps src inst info).same .cel (by decide)

@[simp] theorem State.attic_report (s : State) (src inst : Nat) (info : Word) :
    (s.report src inst info).attic = s.attic := (s.report_keeps src inst info).same .attic (by decide)

@[simp] theorem State.cup_report (s : State) (src inst : Nat) (info : Word) :
    (s.report src inst info).cup = s.cup := (s.report_keeps src inst info).same .cup (by decide)

@[simp] theorem State.dwy_report (s : State) (src inst : Nat) (info : Word) :
    (s.report src inst info).dwy = s.dwy := (s.report_keeps src inst info).same .dwy (by decide)

@[simp] theorem State.lft_report (s : State) (src inst : Nat) (info : Word) :
    (s.report src inst info).lft = s.lft := (s.report_keeps src inst info).same .lft (by decide)

@[simp] theorem State.pipe_report (s : State) (src inst : Nat) (info : Word) :
    (s.report src inst info).pipe = s.pipe := (s.report_keeps src inst info).same .pipe (by decide)

@[simp] theorem State.crw_report (s : State) (src inst : Nat) (info : Word) :
    (s.report src inst info).crw = s.crw := (s.report_keeps src inst info).same .crw (by decide)

@[simp] theorem State.outbox_report (s : State) (src inst : Nat) (info : Word) :
    (s.report src inst info).outbox = s.outbox := (s.report_keeps src inst info).same .outbox (by decide)

/-! ## Errors that come to a word -/

/-- An error that comes to one word leaves the others. -/
theorem State.eccOf_eccFlag_ne (s : State) (m n : EccMem) (i j : Nat) (e : Ecc) (ne : ¬(n = m ∧ j = i)) :
    (s.eccFlag m i e).eccOf n j = s.eccOf n j := by
  have other (t : State) (u : Bool) : ({ t with ecc := (m, i, u) :: t.ecc } : State).eccOf n j = t.eccOf n j := by
    have apart : (m == n && i == j) = false := by
      rw [Bool.eq_false_iff, Ne, Bool.and_eq_true, beq_iff_eq, beq_iff_eq]
      rintro ⟨rfl, rfl⟩
      exact ne ⟨rfl, rfl⟩
    simp [State.eccOf, apart]
  unfold State.eccFlag
  split
  · rfl
  · split
    · exact other s false
    · rfl
  · rw [other, State.eccOf_eccClear, if_neg ne]

/-! ## Reads of the same registers -/

section
variable {s t : State} (h : t.regs = s.regs)
include h

theorem State.rf_congr (a hi lo : Nat) : t.rf a hi lo = s.rf a hi lo := by rw [State.rf, State.rf, State.rd_congr h]

theorem State.rb_congr (a i : Nat) : t.rb a i = s.rb a i := by rw [State.rb, State.rb, State.rd_congr h]

theorem State.rdN_congr (a : Nat) : t.rdN a = s.rdN a := by rw [State.rdN, State.rdN, State.rd_congr h]

theorem State.rd64_congr (a : Nat) : t.rd64 a = s.rd64 a := by rw [State.rd64, State.rd64, State.rdN_congr h, State.rdN_congr h]

end

/-! ## Registers that a function may write -/

/-- No register was written but those of `w` and the WRAP registers of the counters (R524). -/
def writesOnly (w : Nat → Prop) (s t : State) : Prop := ∀ a, offWrap a = true → ¬w a → t.rd a = s.rd a

/-- The registers of window `n` (R4). -/
def inWindow (n a : Nat) : Prop := a / 0x1000000 = n

section
variable {w : Nat → Prop} {s t u : State}

theorem writesOnly.refl (w : Nat → Prop) (s : State) : writesOnly w s s := fun _ _ _ => rfl

theorem writesOnly.trans (h : writesOnly w s t) (k : writesOnly w t u) : writesOnly w s u :=
  fun a off out => (k a off out).trans (h a off out)

theorem writesOnly.mono {v : Nat → Prop} (h : writesOnly v s t) (le : ∀ a, v a → w a) : writesOnly w s t :=
  fun a off out => h a off fun x => out (le a x)

theorem writesOnly.regs (h : writesOnly w s t) (e : u.regs = t.regs) : writesOnly w s u :=
  fun a off out => (State.rd_congr e a).trans (h a off out)

/-- What changes no registers writes none. -/
theorem writesOnly.keeps {l : List Part} (h : writesOnly w s t) (k : Keeps l t u) (no : .regs ∉ l) : writesOnly w s u :=
  h.regs (k.same .regs no)

theorem writesOnly.of_regsStand (h : regsStand s t) : writesOnly w s t := fun a off _ => h a off

theorem writesOnly.ite {c : Prop} [Decidable c] (h : writesOnly w s t) (k : writesOnly w s u) :
    writesOnly w s (if c then t else u) := by split <;> assumption

theorem writesOnly.each {α : Type} {l : List α} {f : State → α → State} (h : writesOnly w s t)
    (step : ∀ u, ∀ x ∈ l, writesOnly w u (f u x)) : writesOnly w s (t.each l f) :=
  State.each_invariant h fun u x hx k => k.trans (step u x hx)

variable {a : Nat}

theorem writesOnly.wr (h : writesOnly w s t) (may : w a) (v : Word) : writesOnly w s (t.wr a v) :=
  fun b off out => (State.rd_wr_ne t v (by rintro rfl; exact out may)).trans (h b off out)

theorem writesOnly.wrN (h : writesOnly w s t) (may : w a) (v : Nat) : writesOnly w s (t.wrN a v) := h.wr may _

theorem writesOnly.wf (h : writesOnly w s t) (may : w a) (hi lo v : Nat) : writesOnly w s (t.wf a hi lo v) := h.wr may _

theorem writesOnly.setB (h : writesOnly w s t) (may : w a) (i : Nat) : writesOnly w s (t.setB a i) := h.wr may _

theorem writesOnly.putB (h : writesOnly w s t) (may : w a) (i : Nat) (b : Bool) : writesOnly w s (t.putB a i b) :=
  h.wr may _

theorem writesOnly.wr64 (h : writesOnly w s t) (lower : w a) (upper : w (a + 4)) (v : Nat) :
    writesOnly w s (t.wr64 a v) := (h.wrN lower _).wrN upper _

theorem writesOnly.countBy (h : writesOnly w s t) (e o i n : Nat) : writesOnly w s (t.countBy e o i n) :=
  h.trans (.of_regsStand (.countBy t e o i n))

theorem writesOnly.count (h : writesOnly w s t) (e o i : Nat) : writesOnly w s (t.count e o i) := h.countBy e o i 1

theorem writesOnly.report (h : writesOnly w s t) (src inst : Nat) (info : Word) :
    writesOnly w s (t.report src inst info) := h.trans fun _ off _ => t.rd_report src inst info off

theorem writesOnly.rd (h : writesOnly w s t) (out : ¬w a) (off : offWrap a = true) : t.rd a = s.rd a := h a off out

theorem writesOnly.rdN (h : writesOnly w s t) (out : ¬w a) (off : offWrap a = true) : t.rdN a = s.rdN a :=
  congrArg BitVec.toNat (h a off out)

theorem writesOnly.rf (h : writesOnly w s t) (hi lo : Nat) (out : ¬w a) (off : offWrap a = true) :
    t.rf a hi lo = s.rf a hi lo := by rw [State.rf, State.rf, h a off out]

theorem writesOnly.rb (h : writesOnly w s t) (i : Nat) (out : ¬w a) (off : offWrap a = true) : t.rb a i = s.rb a i := by
  rw [State.rb, State.rb, h a off out]

theorem writesOnly.rd64 (h : writesOnly w s t) (lower : ¬w a) (upper : ¬w (a + 4)) (off : offWrap a = true)
    (off' : offWrap (a + 4) = true) : t.rd64 a = s.rd64 a := by
  rw [State.rd64, State.rd64, h.rdN lower off, h.rdN upper off']

end

end Sys2Proof.Machine

/-! PROOFS. Requests to Cellar (R442 to R459): which registers they write, what one burst and one request of a read or of a
write do, and the writes that wait. -/

namespace Sys2Proof.Machine

/-! ## Registers that requests to Cellar write (R462) -/

/-- CEL_ERR, CEL_ERR_INFO, CEL_ERR_ADDR and the stacks' CEL_STK_STATUS. -/
def celWrites (a : Nat) : Prop := (celErr ≤ a ∧ a ≤ celErrAddrHi) ∨ ∃ k < 4, a = celStkStatus k

theorem celWrites_ge {a : Nat} (h : celWrites a) : 0x10000030 ≤ a ∧ a < 0x10000140 := by
  unfold celWrites celErr celErrAddrHi celStkStatus at h
  rcases h with ⟨lo, hi⟩ | ⟨k, hk, rfl⟩ <;> omega

theorem not_celWrites_of_lt {a : Nat} (h : a < 0x10000030) : ¬celWrites a := fun k => by have := celWrites_ge k; omega

theorem not_celWrites_of_ge {a : Nat} (h : 0x10000140 ≤ a) : ¬celWrites a := fun k => by have := celWrites_ge k; omega

theorem not_celWrites_celStkChfail (k : Nat) : ¬celWrites (celStkChfail k) := by
  unfold celWrites celErr celErrAddrHi celStkStatus celStkChfail
  rintro (⟨lo, hi⟩ | ⟨j, hj, e⟩) <;> omega

theorem celStack_lt (a : Nat) : celStack a < 4 := bits_lt a 9 8
theorem celPch_lt (a : Nat) : celPch a < 32 := bits_lt a 14 10

theorem celWrites_celErr : celWrites celErr := .inl (by decide)
theorem celWrites_celErrInfo : celWrites celErrInfo := .inl (by decide)
theorem celWrites_celErrAddrLo : celWrites celErrAddrLo := .inl (by decide)
theorem celWrites_celErrAddrHi : celWrites (celErrAddrLo + 4) := .inl (by decide)
theorem celWrites_celStkStatus (a : Nat) : celWrites (celStkStatus (celStack a)) := .inr ⟨_, celStack_lt a, rfl⟩

section
variable (s : State)

theorem State.celLatch_writes (req kind a bank : Nat) : writesOnly celWrites s (s.celLatch req kind a bank) :=
  ((writesOnly.refl _ s).wr celWrites_celErrInfo _).wr64 celWrites_celErrAddrLo celWrites_celErrAddrHi _

theorem State.celRefuse_writes (req a : Nat) : writesOnly celWrites s (s.celRefuse req a) :=
  ((((writesOnly.refl _ s).setB celWrites_celErr 3).trans (State.celLatch_writes _ _ _ _ _)).report _ _ _).count _ _ _

theorem State.celCheck_writes (req burst : Nat) : writesOnly celWrites s (s.celCheck req burst) := by
  have clear := (writesOnly.refl celWrites s).keeps (s.eccClear_keeps .cellar burst) (by decide)
  unfold State.celCheck
  dsimp only
  split
  · exact .refl _ s
  · exact ((clear.setB celWrites_celErr 1).report _ _ _).count _ _ _
  · refine ((writesOnly.trans ?_ (State.celLatch_writes _ _ _ _ _)).report _ _ _).count _ _ _
    exact (clear.regs rfl).setB celWrites_celErr 2

theorem State.celActivate_stands (req a : Nat) : regsStand s (s.celActivate req a) := by
  unfold State.celActivate
  dsimp only
  split
  · exact .count s _ _ _
  · have missed (t : State) (same : t.regs = s.regs) : regsStand s (t.count evCelRowMiss (celStack a) 0) :=
      regsStand.trans (fun _ _ => State.rd_congr same _) (.count t _ _ _)
    split
    · refine .trans (missed _ ?_) (.count _ _ _ _)
      rfl
    · refine missed _ ?_
      rfl

theorem State.celTouch_writes (write : Bool) (req a n : Nat) : writesOnly celWrites s (s.celTouch write req a n) := by
  unfold State.celTouch
  dsimp only
  refine writesOnly.regs (writesOnly.trans ?_ (.of_regsStand (State.celActivate_stands _ _ _))) rfl
  exact .ite (((writesOnly.refl _ s).wf (celWrites_celStkStatus a) _ _ _).count _ _ _) (.refl _ s)

theorem State.celRead1_writes (req a n : Nat) : writesOnly celWrites s (s.celRead1 req a n).1 := by
  have counted := (writesOnly.refl celWrites s).count evCelRd req 0
  unfold State.celRead1
  dsimp only
  split
  · dsimp only
    exact (counted.trans (State.celRefuse_writes _ req a)).count evCelPoisonRead req 0
  · split
    · exact counted.count evCelPoisonRead req 0
    · have checked := (counted.trans (State.celTouch_writes _ false req a n)).each
        (l := (upto ((a + n - 1) / 32 + 1 - a / 32)).map (· + a / 32)) fun t b _ => t.celCheck_writes req b
      split
      · dsimp only
        exact checked.count evCelPoisonRead req 0
      · exact checked

theorem State.celReads_writes (req : Nat) (l : List (Nat × Nat)) : writesOnly celWrites s (State.celReads req l s).1 := by
  induction l generalizing s with
  | nil => exact .refl _ s
  | cons p l ih => exact (s.celRead1_writes req p.1 p.2).trans (ih _)

theorem State.celRead_writes (req a n : Nat) : writesOnly celWrites s (s.celRead req a n).1 := s.celReads_writes req _

theorem State.celBurstWrite_writes (req : Nat) (poison : Bool) (a n burst : Nat) :
    writesOnly celWrites s (s.celBurstWrite req poison a n burst) := by
  refine writesOnly.regs (.ite ?_ ((s.celCheck_writes req burst).count _ _ _)) rfl
  exact (writesOnly.refl _ s).keeps (s.eccClear_keeps _ _) (by decide)

theorem State.celApply_writes (req a : Nat) (bytes : List Byte) (poison : Bool) :
    writesOnly celWrites s (s.celApply req a bytes poison) :=
  ((writesOnly.refl _ s).each fun t b _ => t.celBurstWrite_writes req poison a bytes.length b).regs rfl

theorem State.backInvalidate_stands (line : Nat) : regsStand s (s.backInvalidate line) := .count _ _ _ _

theorem State.celWrite1_writes (req a : Nat) (bytes : List Byte) (poison : Bool) :
    writesOnly celWrites s (s.celWrite1 req a bytes poison) := by
  have counted := (writesOnly.refl celWrites s).count evCelWr req 0
  unfold State.celWrite1
  dsimp only
  refine .ite (counted.trans (State.celRefuse_writes _ _ _)) (.ite counted (.ite ?_ ?_))
  · exact (counted.trans (State.celTouch_writes _ _ _ _ _)).trans (State.celApply_writes _ _ _ _ _)
  · refine writesOnly.regs ((counted.trans (State.celTouch_writes _ true req a bytes.length)).each fun t l _ => ?_) rfl
    exact .of_regsStand (t.backInvalidate_stands l)

theorem State.celWrite_writes (req a : Nat) (bytes : List Byte) : writesOnly celWrites s (s.celWrite req a bytes) :=
  (writesOnly.refl _ s).each fun t p _ => t.celWrite1_writes req p.1 _ false

theorem State.heldRelease_writes : writesOnly celWrites s s.heldRelease := by
  refine writesOnly.each ((writesOnly.refl celWrites s).regs rfl) fun t h _ => .ite (t.celApply_writes _ _ _ _) ?_
  exact (writesOnly.refl _ t).regs rfl

end

/-! ## A burst is checked (R458, R459) -/

section
variable {s : State} {req burst : Nat}

theorem State.celCheck_ok (good : s.eccOf .cellar burst = .ok) : s.celCheck req burst = s := by
  rw [State.celCheck, good]

theorem State.cel_celLatch (s : State) (req kind a bank : Nat) : (s.celLatch req kind a bank).cel = s.cel := by
  rw [State.celLatch, State.wr64_cel, State.wr_cel]

theorem State.cel_celCheck (s : State) (req burst : Nat) : (s.celCheck req burst).cel = { s.cel with
    poison := if s.eccOf .cellar burst = .uncorr then sadd s.cel.poison burst else s.cel.poison } := by
  unfold State.celCheck
  dsimp only
  split
  · next h => simp [h]
  · next h => simp [h, State.eccClear]
  · next h => simp [h, State.eccClear, State.cel_celLatch]

/-- A check leaves no error in its burst and other words as they are. -/
theorem State.eccOf_celCheck (s : State) (req burst : Nat) (m : EccMem) (i : Nat) :
    (s.celCheck req burst).eccOf m i = if m = .cellar ∧ i = burst then .ok else s.eccOf m i := by
  have cleared : (s.celCheck req burst).eccOf m i =
      if s.eccOf .cellar burst = .ok then s.eccOf m i else (s.eccClear .cellar burst).eccOf m i := by
    unfold State.celCheck
    dsimp only
    split
    · next h => simp [h]
    · next h =>
      rw [h, if_neg (by decide)]
      refine State.eccOf_congr ?_ m i
      simp
    · next h =>
      rw [h, if_neg (by decide)]
      refine State.eccOf_congr ?_ m i
      simp [State.celLatch]
  rw [cleared]
  split
  · next good =>
    split
    · next here => rw [here.1, here.2, good]
    · rfl
  · exact s.eccOf_eccClear .cellar m burst i

theorem State.celCheck_corr (corr : s.eccOf .cellar burst = .corr) : (s.celCheck req burst).rb celErr 1 = true := by
  unfold State.celCheck
  rw [corr]
  dsimp only
  rw [State.rb, State.rd_count _ _ _ _ (by decide), State.rd_report _ _ _ _ (by decide)]
  exact State.rb_setB _ _ _ (by decide)

theorem State.celCheck_uncorr (uncorr : s.eccOf .cellar burst = .uncorr) :
    (s.celCheck req burst).rb celErr 2 = true := by
  unfold State.celCheck
  rw [uncorr]
  dsimp only
  rw [State.rb, State.rd_count _ _ _ _ (by decide), State.rd_report _ _ _ _ (by decide), State.celLatch, State.wr64,
    State.rd_wrN_ne _ _ (by decide), State.rd_wrN_ne _ _ (by decide), State.rd_wr_ne _ _ (by decide)]
  exact State.rb_setB _ _ _ (by decide)

end

/-! ## The bursts of a request -/

/-- The bursts that the bytes a ≤ x < a + n lie in. -/
def bursts (a n : Nat) : List Nat := (upto ((a + n - 1) / 32 + 1 - a / 32)).map (· + a / 32)

theorem mem_bursts {a n b : Nat} (pos : 0 < n) : b ∈ bursts a n ↔ a / 32 ≤ b ∧ b ≤ (a + n - 1) / 32 := by
  simp only [bursts, List.mem_map, mem_upto]
  constructor
  · rintro ⟨i, hi, rfl⟩
    omega
  · exact fun h => ⟨b - a / 32, by omega, by omega⟩

/-- The first burst comes first, and no other is it. -/
theorem bursts_eq_cons {a n : Nat} (pos : 0 < n) : ∃ rest, bursts a n = a / 32 :: rest ∧ ∀ b ∈ rest, b ≠ a / 32 := by
  obtain ⟨k, hk⟩ : ∃ k, (a + n - 1) / 32 + 1 - a / 32 = k + 1 := ⟨(a + n - 1) / 32 - a / 32, by omega⟩
  refine ⟨(List.range k).map fun i => i + 1 + a / 32, ?_, ?_⟩
  · simp [bursts, hk, upto, List.range_succ_eq_map, Function.comp_def]
  · simp only [List.mem_map, List.mem_range]
    rintro b ⟨i, -, rfl⟩
    omega

/-- A request that stays in its 256-byte block is one piece. -/
theorem pieces_of_block {a n fuel : Nat} (pos : 0 < n) (block : a % 256 + n ≤ 256) :
    pieces 256 (fuel + 2) a n = [(a, n)] := by
  have whole : min n (256 - a % 256) = n := by omega
  simp [pieces, whole, Nat.ne_of_gt pos]

/-! ## Reads (R446, R448, R457) -/

section
variable {s : State} {req a n : Nat}

/-- A request has reached its controller. -/
def State.celReached (s : State) (write : Bool) (req a n : Nat) : State :=
  (s.count (if write then evCelWr else evCelRd) req 0).celTouch write req a n

theorem State.celReached_keeps (s : State) (write : Bool) (req a n : Nat) :
    Keeps [.regs, .mast, .cel] s (s.celReached write req a n) :=
  (State.celTouch_keeps _ _ _ _ _).after rfl ((s.count_keeps _ _ _).mono rfl)

theorem State.celReached_writes (s : State) (write : Bool) (req a n : Nat) :
    writesOnly celWrites s (s.celReached write req a n) :=
  ((writesOnly.refl celWrites s).count _ req 0).trans (State.celTouch_writes _ write req a n)

theorem State.cel_celTouch (s : State) (write : Bool) (req a n : Nat) : ∃ openRow raa acts retry,
    (s.celTouch write req a n).cel = { s.cel with openRow, raa, acts, retry } := by
  have active (t : State) : ∃ openRow raa acts, (t.celActivate req a).cel = { t.cel with openRow, raa, acts } := by
    unfold State.celActivate
    dsimp only
    split
    · exact ⟨_, _, _, t.cel_count _ _ _⟩
    · split <;> simp only [State.cel_count] <;> exact ⟨_, _, _, rfl⟩
  have woken (c : Prop) [Decidable c] (u : State) (same : u.cel = s.cel) : (if c then u else s).cel = s.cel := by
    split <;> simp [same]
  unfold State.celTouch
  dsimp only
  obtain ⟨openRow, raa, acts, e⟩ := active (if s.rf (celStkStatus (celStack a)) 31 30 = 1 ∨
    s.rf (celStkStatus (celStack a)) 31 30 = 2 then (s.wf (celStkStatus (celStack a)) 31 30 3).count evCelSrWake
      (celStack a) 0 else s)
  rw [e, woken _ _ (by simp)]
  exact ⟨_, _, _, _, rfl⟩

theorem State.cel_celReached (s : State) (write : Bool) (req a n : Nat) : ∃ openRow raa acts retry,
    (s.celReached write req a n).cel = { s.cel with openRow, raa, acts, retry } := by
  obtain ⟨openRow, raa, acts, retry, e⟩ := (s.count (if write then evCelWr else evCelRd) req 0).cel_celTouch write req a n
  exact ⟨openRow, raa, acts, retry, by rw [State.celReached, e, State.cel_count]⟩

/-- A stack in self-refresh starts its exit when a request reaches it (R453). -/
theorem State.celReached_wakes (write : Bool) (asleep : s.rf (celStkStatus (celStack a)) 31 30 = 1 ∨
    s.rf (celStkStatus (celStack a)) 31 30 = 2) :
    (s.celReached write req a n).rf (celStkStatus (celStack a)) 31 30 = 3 := by
  have off : offWrap (celStkStatus (celStack a)) = true := offWrap_of_window (by unfold celStkStatus; omega)
  have counted := (regsStand.count s (if write then evCelWr else evCelRd) req 0).rf 31 30 off
  unfold State.celReached State.celTouch
  dsimp only
  rw [if_pos (counted.symm ▸ asleep)]
  refine (State.rf_congr (by rfl) _ 31 30).trans (((State.celActivate_stands _ req a).rf 31 30 off).trans ?_)
  rw [(regsStand.count _ _ _ _).rf 31 30 off]
  exact State.rf_wf _ _ _ _ _ (by decide) (by decide)

/-- What a request may reach is read from CEL_PART and the lofts' configuration (R444, R446). -/
theorem State.part_writes {t : State} {w : Nat → Prop} (h : writesOnly w s t) (out : ¬w celPart) (p : Nat) :
    t.part p = s.part p := by
  unfold State.part
  simp only [h.rf _ _ out (by decide)]

theorem State.inPart_writes {t : State} {w : Nat → Prop} (h : writesOnly w s t) (out : ¬w celPart) (p a n : Nat) :
    t.inPart p a n = s.inPart p a n := by rw [State.inPart, State.inPart, State.part_writes h out]

theorem State.reach_writes {t : State} {w : Nat → Prop} (h : writesOnly w s t) (out : ¬w celPart)
    (lofts : ∀ l, ¬w (lftLoftCfg l)) : t.reach req a n = s.reach req a n := by
  have off (l : Nat) : offWrap (lftLoftCfg l) = true := offWrap_of_window (by unfold lftLoftCfg; omega)
  simp only [State.reach, State.inTablesOrHost, State.inPart_writes h out, State.part_writes h out,
    h.rb _ (lofts _) (off _)]

theorem State.reach_regsStand {t : State} (h : regsStand s t) : t.reach req a n = s.reach req a n :=
  State.reach_writes (w := fun _ => False) (.of_regsStand h) id fun _ => id

theorem State.chFailed_writes {t : State} (h : writesOnly celWrites s t) (a : Nat) : t.chFailed a = s.chFailed a :=
  h.rb _ (not_celWrites_celStkChfail _) (offWrap_of_window (by unfold celStkChfail; omega))

theorem State.celView_congr {t : State} (mem : t.cel.mem = s.cel.mem) (held : t.cel.held = s.cel.held) (req : Nat) :
    t.celView req = s.celView req := by rw [State.celView, State.celView, mem, held]

/-- The bursts of a read have been checked. -/
def State.celChecked (s : State) (req a n : Nat) : State :=
  (s.celReached false req a n).each (bursts a n) fun t b => t.celCheck req b

theorem State.celRead1_refused (refused : s.reach req a n = false) :
    s.celRead1 req a n = (((s.count evCelRd req 0).celRefuse req a).count evCelPoisonRead req 0, none) := by
  rw [State.celRead1, refused, Bool.not_false, if_pos rfl]

theorem State.celRead1_failed (reached : s.reach req a n = true) (failed : s.chFailed a = true) :
    s.celRead1 req a n = ((s.count evCelRd req 0).count evCelPoisonRead req 0, none) := by
  rw [State.celRead1, reached, Bool.not_true, if_neg Bool.false_ne_true, if_pos failed]

theorem State.celRead1_reaches (reached : s.reach req a n = true) (up : s.chFailed a = false) :
    s.celRead1 req a n = (if (bursts a n).any fun b => shas (s.celChecked req a n).cel.poison b then
        ((s.celChecked req a n).count evCelPoisonRead req 0, none)
      else (s.celChecked req a n, some (memRead 0 ((s.celChecked req a n).celView req) a n))) := by
  rw [State.celRead1, reached, up]
  rfl

theorem State.celRead_block (pos : 0 < n) (block : a % 256 + n ≤ 256) : s.celRead req a n = s.celRead1 req a n := by
  rw [State.celRead, pieces_of_block pos block]
  simp only [State.celReads]
  generalize s.celRead1 req a n = p
  obtain ⟨t, _ | bs⟩ := p <;> simp

/-- Where only the first burst may be in error, it alone is checked. -/
theorem State.celChecked_first (pos : 0 < n)
    (good : ∀ b, a / 32 ≤ b → b ≤ (a + n - 1) / 32 → b ≠ a / 32 → s.eccOf .cellar b = .ok) :
    s.celChecked req a n = (s.celReached false req a n).celCheck req (a / 32) := by
  obtain ⟨rest, cons, others⟩ := bursts_eq_cons (a := a) pos
  rw [State.celChecked, cons, State.each_cons]
  refine State.each_eq_self fun b hb => State.celCheck_ok ?_
  have touched := (mem_bursts pos).1 (cons ▸ List.mem_cons_of_mem _ hb)
  rw [State.eccOf_celCheck, if_neg fun h => others b hb h.2,
    State.eccOf_congr ((s.celReached_keeps false req a n).same .ecc (by decide))]
  exact good b touched.1 touched.2 (others b hb)

end

/-! ## Writes (R446, R447, R448, R457) -/

section
variable {s : State} {req a n : Nat}

theorem State.celWrite1_refused {bs : List Byte} (poison : Bool) (refused : s.reach req a bs.length = false) :
    s.celWrite1 req a bs poison = (s.count evCelWr req 0).celRefuse req a := by
  rw [State.celWrite1, refused, Bool.not_false, if_pos rfl]

theorem State.celWrite1_failed {bs : List Byte} (poison : Bool) (reached : s.reach req a bs.length = true)
    (failed : s.chFailed a = true) : s.celWrite1 req a bs poison = s.count evCelWr req 0 := by
  rw [State.celWrite1, reached, Bool.not_true, if_neg Bool.false_ne_true, if_pos failed]

/-- The lines that the host holds are read from CEL_PART, DWY_LINK_STATUS and the tracker (R397). -/
theorem State.hostLines_writes {t : State} (h : writesOnly celWrites s t) (same : t.dwy = s.dwy) (a n : Nat) :
    t.hostLines a n = s.hostLines a n := by
  have link : ¬celWrites dwyLinkStatus := not_celWrites_of_lt (by decide)
  rw [State.hostLines, State.hostLines, h.rb _ link (by decide), h.rf _ _ link (by decide), same,
    State.inPart_writes h (not_celWrites_of_lt (by decide)), State.inPart_writes h (not_celWrites_of_lt (by decide))]

theorem State.heldOverlap_congr {t : State} (same : t.cel.held = s.cel.held) (req a n : Nat) :
    t.heldOverlap req a n = s.heldOverlap req a n := by rw [State.heldOverlap, State.heldOverlap, same]

/-- The lines for which a write of a requester waits: the host window's own writes wait for none. -/
def State.waitLines (s : State) (req a n : Nat) : List Nat := if req = 0x15 then [] else s.hostLines a n

/-- A write waits behind the lines that the host holds. -/
def State.celHold (s : State) (req a : Nat) (bs : List Byte) (poison : Bool) (lines : List Nat) : State :=
  let t := s.each lines State.backInvalidate
  { t with cel := { t.cel with held := t.cel.held ++ [⟨req, a, bs, poison, lines⟩] } }

theorem State.celWrite1_reaches {bs : List Byte} (poison : Bool) (reached : s.reach req a bs.length = true)
    (up : s.chFailed a = false) : s.celWrite1 req a bs poison =
      if (s.waitLines req a bs.length).isEmpty && !(s.heldOverlap req a bs.length) then
        (s.celReached true req a bs.length).celApply req a bs poison
      else (s.celReached true req a bs.length).celHold req a bs poison (s.waitLines req a bs.length) := by
  have lines : (s.celReached true req a bs.length).hostLines a bs.length = s.hostLines a bs.length :=
    State.hostLines_writes (s.celReached_writes _ _ _ _) ((s.celReached_keeps _ _ _ _).same .dwy (by decide)) _ _
  have waits : (s.celReached true req a bs.length).heldOverlap req a bs.length = s.heldOverlap req a bs.length := by
    obtain ⟨openRow, raa, acts, retry, e⟩ := s.cel_celReached true req a bs.length
    exact State.heldOverlap_congr (by rw [e]) _ _ _
  rw [State.waitLines, ← lines, ← waits]
  rw [State.celWrite1, reached, up]
  rfl

/-! ## A write takes effect (R447, R459) -/

theorem State.cel_celBurstWrite (t : State) (req : Nat) (poison : Bool) (a n b : Nat) :
    ∃ p, (t.celBurstWrite req poison a n b).cel = { t.cel with poison := p } ∧
      (∀ c, c ≠ b → shas p c = shas t.cel.poison c) ∧ (poison = true → shas p b = true) ∧
      (poison = false → a ≤ 32 * b → 32 * b + 32 ≤ a + n → shas p b = false) := by
  by_cases whole : a ≤ b * 32 ∧ b * 32 + 32 ≤ a + n
  · refine ⟨if poison then sadd t.cel.poison b else sdel t.cel.poison b, ?_, fun c ne => ?_, fun on => ?_,
      fun off _ _ => ?_⟩
    · simp [State.celBurstWrite, whole, State.eccClear]
    · split
      · exact shas_sadd_ne _ ne
      · exact shas_sdel_ne _ ne
    · rw [if_pos on, shas_sadd_same]
    · rw [off, if_neg Bool.false_ne_true, shas_sdel_same]
  · have checked := t.cel_celCheck req b
    generalize hp : (if t.eccOf .cellar b = .uncorr then sadd t.cel.poison b else t.cel.poison) = p at checked
    have others (c : Nat) (ne : c ≠ b) : shas p c = shas t.cel.poison c := by
      rw [← hp]
      split
      · exact shas_sadd_ne _ ne
      · rfl
    refine ⟨if poison || shas p b then sadd p b else sdel p b, ?_, fun c ne => ?_, fun on => ?_, fun _ lo hi => ?_⟩
    · simp [State.celBurstWrite, whole, checked]
    · split
      · exact (shas_sadd_ne _ ne).trans (others c ne)
      · exact (shas_sdel_ne _ ne).trans (others c ne)
    · simp [on]
    · exact absurd ⟨by omega, by omega⟩ whole

theorem State.eccOf_celBurstWrite (t : State) (req : Nat) (poison : Bool) (a n b c : Nat) :
    (t.celBurstWrite req poison a n b).eccOf .cellar c = if c = b then .ok else t.eccOf .cellar c := by
  have same (u : State) : ({ u with cel := { u.cel with poison := (t.celBurstWrite req poison a n b).cel.poison } } :
      State).eccOf .cellar c = u.eccOf .cellar c := rfl
  by_cases whole : a ≤ b * 32 ∧ b * 32 + 32 ≤ a + n
  · refine Eq.trans (State.eccOf_congr ?_ _ _) ((t.eccOf_eccClear .cellar .cellar b c).trans (by simp))
    simp [State.celBurstWrite, whole]
  · refine Eq.trans (State.eccOf_congr ?_ _ _) ((t.eccOf_celCheck req b .cellar c).trans (by simp))
    simp [State.celBurstWrite, whole]

/-- The memory is what the write makes it. -/
theorem State.mem_celApply (s : State) (req a : Nat) (bs : List Byte) (poison : Bool) :
    (s.celApply req a bs poison).cel.mem = memWrite 0 s.cel.mem a bs := by
  have stands : (s.each (bursts a bs.length) fun t b => t.celBurstWrite req poison a bs.length b).cel.mem = s.cel.mem :=
    State.each_stands (g := fun t => t.cel.mem) fun t b _ => by
      obtain ⟨p, e, -⟩ := t.cel_celBurstWrite req poison a bs.length b
      rw [e]
  rw [← stands]
  rfl

theorem State.held_celApply (s : State) (req a : Nat) (bs : List Byte) (poison : Bool) :
    (s.celApply req a bs poison).cel.held = s.cel.held :=
  State.each_stands (g := fun t => t.cel.held) (l := bursts a bs.length)
    (f := fun t b => t.celBurstWrite req poison a bs.length b) fun t b _ => by
      obtain ⟨p, e, -⟩ := t.cel_celBurstWrite req poison a bs.length b
      rw [e]

/-- Poison and errors of the bursts that a write touches, and of the others (R447, R459). -/
theorem State.celApply_bursts (s : State) (req a : Nat) (bs : List Byte) (poison : Bool) (pos : 0 < bs.length) :
    let u := s.celApply req a bs poison
    let touches (b : Nat) : Prop := a / 32 ≤ b ∧ b ≤ (a + bs.length - 1) / 32
    (poison = true → ∀ b, touches b → shas u.cel.poison b = true) ∧
    (poison = false → ∀ b, a ≤ 32 * b → 32 * b + 32 ≤ a + bs.length →
      shas u.cel.poison b = false ∧ u.eccOf .cellar b = .ok) ∧
    (∀ b, ¬touches b → shas u.cel.poison b = shas s.cel.poison b ∧ u.eccOf .cellar b = s.eccOf .cellar b) := by
  dsimp only
  have burst (t : State) (b : Nat) := t.cel_celBurstWrite req poison a bs.length b
  have error (t : State) (b c : Nat) := t.eccOf_celBurstWrite req poison a bs.length b c
  refine ⟨fun on b touched => ?_, fun off b lo hi => ?_, fun b apart => ?_⟩
  · refine State.each_reaches (P := fun t => shas t.cel.poison b = true) ((mem_bursts pos).2 touched) (fun t => ?_)
      fun t c _ ht => ?_
    · obtain ⟨p, e, -, sets, -⟩ := burst t b
      rw [e]
      exact sets on
    · obtain ⟨p, e, others, sets, -⟩ := burst t c
      rw [e]
      by_cases same : b = c
      · exact same ▸ sets on
      · exact (others b same).trans ht
  · have touched : b ∈ bursts a bs.length := (mem_bursts pos).2 ⟨by omega, by omega⟩
    refine ⟨State.each_reaches (P := fun t => shas t.cel.poison b = false) touched (fun t => ?_) fun t c _ ht => ?_,
      State.each_reaches (P := fun t => t.eccOf .cellar b = .ok) touched (fun t => ?_) fun t c _ ht => ?_⟩
    · obtain ⟨p, e, -, -, clears⟩ := burst t b
      rw [e]
      exact clears off lo hi
    · obtain ⟨p, e, others, -, clears⟩ := burst t c
      rw [e]
      by_cases same : b = c
      · exact same ▸ clears off (same ▸ lo) (same ▸ hi)
      · exact (others b same).trans ht
    · rw [error, if_pos rfl]
    · rw [error]
      split
      · rfl
      · exact ht
  · have ne (c : Nat) (hc : c ∈ bursts a bs.length) : b ≠ c := by
      rintro rfl
      exact apart ((mem_bursts pos).1 hc)
    refine ⟨State.each_stands (g := fun t => shas t.cel.poison b) fun t c hc => ?_,
      State.each_stands (g := fun t => t.eccOf .cellar b) fun t c hc => ?_⟩
    · obtain ⟨p, e, others, -⟩ := burst t c
      rw [e]
      exact others b (ne c hc)
    · rw [error, if_neg (ne c hc)]

end

end Sys2Proof.Machine

/-! PROOFS. One request of a Cellar read or write (R446 to R448, R457 to R459). -/

namespace Sys2Proof.Machine

/-! ## A request outside its requester's partitions (R446) -/

section
variable (s : State) (req a : Nat)

theorem State.celRefuse_keeps_cel : (s.celRefuse req a).cel = s.cel := (s.celRefuse_keeps req a).same .cel (by decide)

/-- The word that a refusal latches names the requester and the kind. -/
theorem fld_celInfo_refused : fld (celInfo req 2 a 0) 31 24 = req % 256 ∧ fld (celInfo req 2 a 0) 23 21 = 2 := by
  have stack := celStack_lt a
  have pch := celPch_lt a
  simp only [fld, bits, celInfo, BitVec.toNat_ofNat]
  omega

/-- A refusal sets ACCESS and latches the address, the requester and the kind. -/
theorem State.celRefuse_latches (short : a < 2 ^ 64) : let u := s.celRefuse req a
    u.rb celErr 3 = true ∧ u.rd64 celErrAddrLo = a ∧ u.rf celErrInfo 31 24 = req % 256 ∧ u.rf celErrInfo 23 21 = 2 := by
  have told (t : State) : regsStand t ((t.report 0x2A req (celInfo req 2 a 0)).count evCelAccessRefused req 0) :=
    regsStand.trans (fun _ off => t.rd_report _ _ _ off) (.count _ _ _ _)
  have info : (s.celRefuse req a).rd celErrInfo = celInfo req 2 a 0 := by
    refine (told _ _ (by decide)).trans ?_
    rw [State.celLatch, State.wr64, State.rd_wrN_ne _ _ (by decide), State.rd_wrN_ne _ _ (by decide), State.rd_wr_same]
  refine ⟨?_, ?_, ?_, ?_⟩
  · refine ((told _).rb 3 (by decide)).trans ?_
    rw [State.rb, State.celLatch, State.wr64, State.rd_wrN_ne _ _ (by decide), State.rd_wrN_ne _ _ (by decide),
      State.rd_wr_ne _ _ (by decide)]
    exact State.rb_setB _ _ _ (by decide)
  · refine ((told _).rd64 (by decide)).trans ?_
    rw [State.celLatch, State.rd64_wr64, Nat.mod_eq_of_lt short]
  · rw [State.rf, info]
    exact (fld_celInfo_refused req a).1
  · rw [State.rf, info]
    exact (fld_celInfo_refused req a).2

end

/-! ## CELLAR_READ (R448) -/

section
variable {s : State} {req addr len : Nat} {e : Ecc}

/-- The word of the read as its first check finds it. -/
def State.celFlagged (s : State) (addr : Nat) (e : Ecc) : State := s.eccFlag .cellar (addr / 32) e

theorem State.celFlagged_keeps (s : State) (addr : Nat) (e : Ecc) : Keeps [.ecc] s (s.celFlagged addr e) :=
  s.eccFlag_keeps _ _ _

theorem exec_cellarRead (pos : 0 < len) (block : addr % 256 + len ≤ 256) : exec (.cellarRead req addr len e) s =
    .next (((s.celFlagged addr e).celRead1 req addr len).1.answer
      (match ((s.celFlagged addr e).celRead1 req addr len).2 with | some bs => leNat bs | none => 0)) := by
  rw [← State.celRead_block pos block]
  rfl

theorem exec_cellarRead_keeps {u : State} (pos : 0 < len) (block : addr % 256 + len ≤ 256)
    (out : exec (.cellarRead req addr len e) s = .next u) : onlyIn [.regs, .rdata, .ecc, .mast, .cel] s u := by
  rw [exec_cellarRead pos block] at out
  cases out
  exact ((State.answer_keeps _ _).after rfl ((State.celRead1_keeps _ _ _ _).after rfl
    ((s.celFlagged_keeps addr e).mono rfl))).same

/-- A read that reaches its controller, of whose bursts only the first may be in error, checks that one alone. -/
theorem State.celChecked_flagged (pos : 0 < len)
    (sound : ∀ b, addr / 32 ≤ b ∧ b ≤ (addr + len - 1) / 32 → s.eccOf .cellar b = .ok) :
    (s.celFlagged addr e).celChecked req addr len =
      ((s.celFlagged addr e).celReached false req addr len).celCheck req (addr / 32) ∧
    ((s.celFlagged addr e).celReached false req addr len).eccOf .cellar (addr / 32) = e := by
  have reached := ((s.celFlagged addr e).celReached_keeps false req addr len).same .ecc (by decide)
  refine ⟨State.celChecked_first pos fun b lo hi ne => ?_, ?_⟩
  · exact (State.eccOf_eccFlag_ne s _ _ _ _ _ fun h => ne h.2).trans (sound b ⟨lo, hi⟩)
  · rw [State.eccOf_congr reached]
    exact State.eccOf_eccFlag (sound _ ⟨Nat.le_refl _, by omega⟩) e

/-- What Cellar holds after such a check: memory, held writes and poison, but for an uncorrectable first burst. -/
theorem State.cel_celChecked_flagged (pos : 0 < len)
    (sound : ∀ b, addr / 32 ≤ b ∧ b ≤ (addr + len - 1) / 32 → s.eccOf .cellar b = .ok) :
    let u := (s.celFlagged addr e).celChecked req addr len
    u.cel.mem = s.cel.mem ∧ u.cel.held = s.cel.held ∧
      u.cel.poison = if e = .uncorr then sadd s.cel.poison (addr / 32) else s.cel.poison := by
  obtain ⟨first, found⟩ := State.celChecked_flagged (req := req) (e := e) pos sound
  obtain ⟨openRow, raa, acts, retry, cel⟩ := (s.celFlagged addr e).cel_celReached false req addr len
  have same : (s.celFlagged addr e).cel = s.cel := (s.celFlagged_keeps addr e).same .cel (by decide)
  dsimp only
  rw [first, State.cel_celCheck, found, cel, same]
  exact ⟨rfl, rfl, rfl⟩

/-- Whether such a read meets poison. -/
theorem State.any_poison_celChecked_flagged (pos : 0 < len)
    (sound : ∀ b, addr / 32 ≤ b ∧ b ≤ (addr + len - 1) / 32 → s.eccOf .cellar b = .ok) :
    ((bursts addr len).any fun b => shas ((s.celFlagged addr e).celChecked req addr len).cel.poison b) = true ↔
      e = .uncorr ∨ ∃ b, (addr / 32 ≤ b ∧ b ≤ (addr + len - 1) / 32) ∧ shas s.cel.poison b = true := by
  obtain ⟨-, -, poison⟩ := State.cel_celChecked_flagged (req := req) (e := e) pos sound
  rw [poison, List.any_eq_true]
  simp only [mem_bursts pos]
  by_cases bad : e = .uncorr
  · simp only [bad, if_true, true_or, iff_true]
    exact ⟨addr / 32, ⟨Nat.le_refl _, by omega⟩, shas_sadd_same _ _⟩
  · simp only [bad, if_false, false_or]


theorem State.celFlagged_reach (s : State) (addr : Nat) (e : Ecc) (req len : Nat) :
    (s.celFlagged addr e).reach req addr len = s.reach req addr len :=
  State.reach_regsStand fun _ _ => State.rd_congr ((s.celFlagged_keeps addr e).same .regs (by decide)) _

theorem State.celFlagged_chFailed (s : State) (addr : Nat) (e : Ecc) :
    (s.celFlagged addr e).chFailed addr = s.chFailed addr :=
  State.chFailed_writes (.regs (.refl _ s) ((s.celFlagged_keeps addr e).same .regs (by decide))) _

theorem State.celFlagged_cel (s : State) (addr : Nat) (e : Ecc) : (s.celFlagged addr e).cel = s.cel :=
  (s.celFlagged_keeps addr e).same .cel (by decide)

theorem State.rdata_answer (s : State) (v : Nat) : (s.answer v).rdata = v := rfl

theorem State.answer_stands (s : State) (v : Nat) : regsStand s (s.answer v) := fun _ _ => rfl

theorem State.cel_answer (s : State) (v : Nat) : (s.answer v).cel = s.cel := (s.answer_keeps v).same .cel (by decide)

theorem exec_cellarRead_none {t : State} (pos : 0 < len) (block : addr % 256 + len ≤ 256)
    (out : (s.celFlagged addr e).celRead1 req addr len = (t, none)) :
    exec (.cellarRead req addr len e) s = .next (t.answer 0) := by rw [exec_cellarRead pos block, out]

/-- A read that is refused answers poison, sets ACCESS and latches the address; nothing of Cellar changes. -/
theorem exec_cellarRead_refused (pos : 0 < len) (block : addr % 256 + len ≤ 256) (short : addr < 2 ^ 64)
    (refused : s.reach req addr len = false) : ∃ u, exec (.cellarRead req addr len e) s = .next u ∧ u.rdata = 0 ∧
      u.rb celErr 3 = true ∧ u.rd64 celErrAddrLo = addr ∧ u.rf celErrInfo 31 24 = req % 256 ∧
      u.rf celErrInfo 23 21 = 2 ∧ u.cel = s.cel := by
  have out := State.celRead1_refused ((s.celFlagged_reach addr e req len).trans refused)
  have cel : (((s.celFlagged addr e).count evCelRd req 0).celRefuse req addr).cel = s.cel := by
    rw [State.celRefuse_keeps_cel, State.cel_count, State.celFlagged_cel]
  generalize (s.celFlagged addr e).count evCelRd req 0 = t at out cel
  obtain ⟨access, latched, by_, kind⟩ := t.celRefuse_latches req addr short
  generalize t.celRefuse req addr = v at *
  have after (t : State) : regsStand t ((t.count evCelPoisonRead req 0).answer 0) :=
    (regsStand.count t _ _ _).trans (State.answer_stands _ _)
  refine ⟨_, exec_cellarRead_none pos block out, ?_⟩
  refine ⟨State.rdata_answer _ _, ((after _).rb 3 (by decide)).trans access, ((after _).rd64 (by decide)).trans latched,
    ((after _).rf 31 24 (by decide)).trans by_, ((after _).rf 23 21 (by decide)).trans kind, ?_⟩
  rw [State.cel_answer, State.cel_count, cel]

/-- A read on a failed channel answers poison. -/
theorem exec_cellarRead_failed (pos : 0 < len) (block : addr % 256 + len ≤ 256) (reached : s.reach req addr len = true)
    (failed : s.chFailed addr = true) : ∃ u, exec (.cellarRead req addr len e) s = .next u ∧ u.rdata = 0 ∧
      u.cel = s.cel := by
  have out := State.celRead1_failed ((s.celFlagged_reach addr e req len).trans reached)
    ((s.celFlagged_chFailed addr e).trans failed)
  refine ⟨_, exec_cellarRead_none pos block out, ?_⟩
  refine ⟨State.rdata_answer _ _, ?_⟩
  rw [State.cel_answer, State.cel_count, State.cel_count, State.celFlagged_cel]

/-- A read that reaches its controller meets poison: it answers poison, and Cellar is as the check leaves it. -/
theorem exec_cellarRead_poisoned (pos : 0 < len) (block : addr % 256 + len ≤ 256) (reached : s.reach req addr len = true)
    (up : s.chFailed addr = false)
    (bad : ((bursts addr len).any fun b => shas ((s.celFlagged addr e).celChecked req addr len).cel.poison b) = true) :
    ∃ u, exec (.cellarRead req addr len e) s = .next u ∧ u.rdata = 0 ∧
      u.cel = ((s.celFlagged addr e).celChecked req addr len).cel ∧
      regsStand ((s.celFlagged addr e).celChecked req addr len) u := by
  have out := State.celRead1_reaches ((s.celFlagged_reach addr e req len).trans reached)
    ((s.celFlagged_chFailed addr e).trans up)
  rw [if_pos bad] at out
  refine ⟨_, exec_cellarRead_none pos block out, ?_⟩
  refine ⟨State.rdata_answer _ _, ?_, (regsStand.count _ evCelPoisonRead req 0).trans (State.answer_stands _ _)⟩
  rw [State.cel_answer, State.cel_count]

/-- A read that reaches its controller meets no poison: it answers the bytes, and only the check changes the state. -/
theorem exec_cellarRead_clean (pos : 0 < len) (block : addr % 256 + len ≤ 256) (reached : s.reach req addr len = true)
    (up : s.chFailed addr = false)
    (good : ((bursts addr len).any fun b => shas ((s.celFlagged addr e).celChecked req addr len).cel.poison b) = false) :
    exec (.cellarRead req addr len e) s = .next (((s.celFlagged addr e).celChecked req addr len).answer
      (leNat (memRead 0 (((s.celFlagged addr e).celChecked req addr len).celView req) addr len))) := by
  have out := State.celRead1_reaches ((s.celFlagged_reach addr e req len).trans reached)
    ((s.celFlagged_chFailed addr e).trans up)
  rw [good, if_neg Bool.false_ne_true] at out
  rw [exec_cellarRead pos block, out]

/-- What every read of one block leaves (R448): memory and the writes that wait, and all but five parts. -/
def State.readLeaves (s : State) (req addr len : Nat) (e : Ecc) (P : State → Prop) : Prop :=
  ∃ u, exec (.cellarRead req addr len e) s = .next u ∧ u.cel.mem = s.cel.mem ∧ u.cel.held = s.cel.held ∧
    onlyIn [.regs, .rdata, .ecc, .mast, .cel] s u ∧ P u

variable {P : State → Prop} (pos : 0 < len) (block : addr % 256 + len ≤ 256)
include pos block

theorem State.readLeaves_of {u : State} (out : exec (.cellarRead req addr len e) s = .next u)
    (mem : u.cel.mem = s.cel.mem) (held : u.cel.held = s.cel.held) (h : P u) : s.readLeaves req addr len e P :=
  ⟨u, out, mem, held, exec_cellarRead_keeps pos block out, h⟩

variable (reached : s.reach req addr len = true) (up : s.chFailed addr = false)
  (sound : ∀ b, addr / 32 ≤ b ∧ b ≤ (addr + len - 1) / 32 → s.eccOf .cellar b = .ok)
include reached up sound

/-- A read of bursts without poison whose first is not uncorrectable answers the bytes, and its check mends that burst. -/
theorem exec_cellarRead_answers (clean : ∀ b, addr / 32 ≤ b ∧ b ≤ (addr + len - 1) / 32 → shas s.cel.poison b = false)
    (mends : e ≠ .uncorr) : let t := (s.celFlagged addr e).celReached false req addr len
    s.readLeaves req addr len e fun u => u.rdata = leNat (memRead 0 (s.celView req) addr len) ∧
      u.cel.poison = s.cel.poison ∧ u = (t.celCheck req (addr / 32)).answer u.rdata := by
  obtain ⟨first, found⟩ := State.celChecked_flagged (req := req) (e := e) pos sound
  obtain ⟨mem, held, poison⟩ := State.cel_celChecked_flagged (req := req) (e := e) pos sound
  rw [if_neg mends] at poison
  have good : ((bursts addr len).any fun b => shas ((s.celFlagged addr e).celChecked req addr len).cel.poison b) = false :=
    Bool.eq_false_iff.2 fun bad => by
      rcases (State.any_poison_celChecked_flagged pos sound).1 bad with h | ⟨b, touched, h⟩
      · exact mends h
      · exact Bool.false_ne_true ((clean b touched).symm.trans h)
  have out := exec_cellarRead_clean pos block reached up good
  rw [State.celView_congr mem held] at out
  rw [first] at out mem held poison
  refine State.readLeaves_of pos block out ?_ ?_ ⟨State.rdata_answer _ _, ?_, ?_⟩
  · exact (congrArg Cel.mem (State.cel_answer _ _)).trans mem
  · exact (congrArg Cel.held (State.cel_answer _ _)).trans held
  · exact (congrArg Cel.poison (State.cel_answer _ _)).trans poison
  · rw [State.rdata_answer]

/-- A read that meets poison, or whose first burst is uncorrectable, answers poison. -/
theorem exec_cellarRead_answersPoison
    (bad : e = .uncorr ∨ ∃ b, (addr / 32 ≤ b ∧ b ≤ (addr + len - 1) / 32) ∧ shas s.cel.poison b = true) :
    s.readLeaves req addr len e fun u => u.rdata = 0 ∧
      u.cel.poison = (if e = .uncorr then sadd s.cel.poison (addr / 32) else s.cel.poison) ∧
      (e = .uncorr → u.rb celErr 2 = true) := by
  obtain ⟨first, found⟩ := State.celChecked_flagged (req := req) (e := e) pos sound
  obtain ⟨mem, held, poison⟩ := State.cel_celChecked_flagged (req := req) (e := e) pos sound
  obtain ⟨u, out, zero, cel, regs⟩ := exec_cellarRead_poisoned pos block reached up
    ((State.any_poison_celChecked_flagged (req := req) (e := e) pos sound).2 bad)
  refine State.readLeaves_of pos block out (cel ▸ mem) (cel ▸ held) ⟨zero, cel ▸ poison, fun un => ?_⟩
  rw [first] at regs
  exact (regs.rb 2 (by decide)).trans (State.celCheck_uncorr (found.trans un))

end

/-- The byte at an address of a memory after a write. -/
theorem tget_memWrite (d : Byte) (m : Tbl Byte) (a : Nat) (bs : List Byte) (x : Nat) :
    tget d (memWrite d m a bs) x = if a ≤ x ∧ x < a + bs.length then bs.getD (x - a) 0 else tget d m x := by
  split
  · next h =>
    have inside : x - a < bs.length := by omega
    obtain ⟨i, rfl⟩ : ∃ i, x = a + i := ⟨x - a, by omega⟩
    rw [tget_memWrite_in _ _ _ _ _ (by omega), List.getD_eq_getElem _ _ inside]
    simp
  · next h => exact tget_memWrite_out _ _ _ _ _ (by omega)

/-! ## CELLAR_WRITE (R447, R448, R459) -/

section
variable {s : State} {req addr : Nat} {data : List Byte} {poison : Bool}

theorem exec_cellarWrite (pos : 0 < data.length) (block : addr % 256 + data.length ≤ 256) :
    exec (.cellarWrite req addr data poison) s = .next (s.celWrite1 req addr data poison) := by
  have whole : exec (.cellarWrite req addr data poison) s = execCellarWrite req addr data poison s := rfl
  rw [whole, execCellarWrite, pieces_of_block pos block, State.each_cons, State.each_nil, Nat.sub_self, List.drop_zero,
    List.take_length]

theorem State.celHold_keeps (t : State) (req a : Nat) (bs : List Byte) (poison : Bool) (lines : List Nat) :
    Keeps [.regs, .mast, .cel, .outbox] t (t.celHold req a bs poison lines) ∧
      (t.celHold req a bs poison lines).cel = { t.cel with held := t.cel.held ++ [⟨req, a, bs, poison, lines⟩] } := by
  have stands : (t.each lines State.backInvalidate).cel = t.cel :=
    State.each_stands (g := State.cel) fun u l _ => (u.backInvalidate_keeps l).same .cel (by decide)
  have told : Keeps [.regs, .mast, .cel, .outbox] t (t.each lines State.backInvalidate) :=
    Keeps.each (.refl t) fun u l h => (u.backInvalidate_keeps l).after rfl h
  refine ⟨told.put_cel rfl id, ?_⟩
  rw [State.celHold, stands]

variable (pos : 0 < data.length) (block : addr % 256 + data.length ≤ 256)
include pos block

/-- A write that is refused sets ACCESS and latches the address; nothing of Cellar changes. -/
theorem exec_cellarWrite_refused (short : addr < 2 ^ 64) (refused : s.reach req addr data.length = false) :
    ∃ u, exec (.cellarWrite req addr data poison) s = .next u ∧ u.rb celErr 3 = true ∧ u.rd64 celErrAddrLo = addr ∧
      u.cel = s.cel ∧ onlyIn [.regs, .mast] s u := by
  obtain ⟨access, latched, -⟩ := (s.count evCelWr req 0).celRefuse_latches req addr short
  refine ⟨_, exec_cellarWrite pos block, ?_⟩
  rw [State.celWrite1_refused poison refused]
  refine ⟨access, latched, (State.celRefuse_keeps_cel _ _ _).trans (State.cel_count _ _ _ _), ?_⟩
  exact ((State.celRefuse_keeps _ req addr).after rfl ((s.count_keeps evCelWr req 0).mono rfl)).same

/-- A write on a failed channel is discarded. -/
theorem exec_cellarWrite_failed (reached : s.reach req addr data.length = true) (failed : s.chFailed addr = true) :
    ∃ u, exec (.cellarWrite req addr data poison) s = .next u ∧ u.cel = s.cel ∧ onlyIn [.regs, .mast] s u := by
  refine ⟨_, exec_cellarWrite pos block, ?_⟩
  rw [State.celWrite1_failed poison reached failed]
  exact ⟨State.cel_count _ _ _ _, ((s.count_keeps evCelWr req 0).mono rfl).same⟩

variable (reached : s.reach req addr data.length = true) (up : s.chFailed addr = false)
include reached up

/-- A write that nothing holds back replaces exactly its bytes. -/
theorem exec_cellarWrite_applies
    (free : ((s.waitLines req addr data.length).isEmpty && !(s.heldOverlap req addr data.length)) = true) :
    let t := s.celReached true req addr data.length
    exec (.cellarWrite req addr data poison) s = .next (t.celApply req addr data poison) ∧
      (∀ x, tget 0 (t.celApply req addr data poison).cel.mem x =
        if addr ≤ x ∧ x < addr + data.length then data.getD (x - addr) 0 else tget 0 s.cel.mem x) ∧
      (t.celApply req addr data poison).cel.held = s.cel.held ∧ t.cel.poison = s.cel.poison ∧ t.ecc = s.ecc ∧
      onlyIn [.regs, .ecc, .mast, .cel] s (t.celApply req addr data poison) := by
  obtain ⟨openRow, raa, acts, retry, cel⟩ := s.cel_celReached true req addr data.length
  have kept := s.celReached_keeps true req addr data.length
  refine ⟨?_, fun x => ?_, ?_, ?_, kept.same .ecc (by decide), ?_⟩
  · rw [exec_cellarWrite pos block, State.celWrite1_reaches poison reached up, if_pos free]
  · rw [State.mem_celApply, cel]
    exact tget_memWrite _ _ _ _ _
  · rw [State.held_celApply, cel]
  · rw [cel]
  · exact ((State.celApply_keeps _ _ _ _ _).after rfl (kept.mono rfl)).same

/-- A write that host lines or waiting writes hold back waits in order. -/
theorem exec_cellarWrite_waits
    (busy : ((s.waitLines req addr data.length).isEmpty && !(s.heldOverlap req addr data.length)) = false) :
    ∃ u, exec (.cellarWrite req addr data poison) s = .next u ∧ u.cel.mem = s.cel.mem ∧
      u.cel.held = s.cel.held ++ [⟨req, addr, data, poison, s.waitLines req addr data.length⟩] ∧
      u.cel.poison = s.cel.poison ∧ onlyIn [.regs, .mast, .cel, .outbox] s u := by
  obtain ⟨openRow, raa, acts, retry, cel⟩ := s.cel_celReached true req addr data.length
  have kept := s.celReached_keeps true req addr data.length
  obtain ⟨waits, held⟩ := (s.celReached true req addr data.length).celHold_keeps req addr data poison
    (s.waitLines req addr data.length)
  refine ⟨_, exec_cellarWrite pos block, ?_⟩
  rw [State.celWrite1_reaches poison reached up, busy, if_neg Bool.false_ne_true, held, cel]
  exact ⟨rfl, rfl, rfl, (waits.after rfl (kept.mono rfl)).same⟩

end

end Sys2Proof.Machine

section
open Sys2Proof Sys2Proof.Machine

/-- Settles O52: a request of one block is one piece, and each piece is refused, meets a failed channel or reaches its
controller, where a read checks its bursts and a write takes effect or waits. -/
theorem cellarRequestsOfARequester : Obligations.CellarRequestsOfARequester := by
  unfold Obligations.CellarRequestsOfARequester
  refine ⟨fun req addr len e s inBlock fits => ?_, fun req addr data poison s inBlock fits => ?_⟩
  · obtain ⟨pos, block⟩ := inBlock
    have short : addr < 2 ^ 64 := by omega
    refine ⟨fun refused => ?_, fun reached failed => ?_, fun reached up sound clean good => ?_,
      fun reached up sound clean corr => ?_, fun reached up sound un => ?_, fun reached up sound good bad => ?_⟩
    · obtain ⟨u, out, zero, access, latched, by_, kind, cel⟩ := exec_cellarRead_refused (e := e) pos block short refused
      exact State.readLeaves_of pos block out (congrArg _ cel) (congrArg _ cel) ⟨zero, access, latched, by_, kind, cel⟩
    · obtain ⟨u, out, zero, cel⟩ := exec_cellarRead_failed (e := e) pos block reached failed
      exact State.readLeaves_of pos block out (congrArg _ cel) (congrArg _ cel) ⟨zero, cel⟩
    · obtain ⟨u, out, mem, held, only, data, poison, is⟩ :=
        exec_cellarRead_answers pos block reached up sound clean (e := e) (by rw [good]; decide)
      obtain ⟨-, found⟩ := State.celChecked_flagged (req := req) (e := e) pos sound
      have flagged : s.celFlagged addr e = s := by rw [good]; rfl
      rw [State.celCheck_ok (found.trans good), flagged] at is
      have stands : regsStand (s.celReached false req addr len) u := is ▸ State.answer_stands _ _
      refine ⟨u, out, mem, held, only, data, ?_, poison, fun asleep => ?_⟩
      · rw [is]
        exact (s.celReached_keeps false req addr len).same .ecc (by decide)
      · exact (stands.rf 31 30 (offWrap_of_window (by unfold celStkStatus; omega))).trans
          (State.celReached_wakes false asleep)
    · obtain ⟨u, out, mem, held, only, data, poison, is⟩ :=
        exec_cellarRead_answers pos block reached up sound clean (e := e) (by rw [corr]; decide)
      obtain ⟨-, found⟩ := State.celChecked_flagged (req := req) (e := e) pos sound
      generalize (s.celFlagged addr e).celReached false req addr len = t at is found
      refine ⟨u, out, mem, held, only, data, ?_, ?_, poison⟩
      · rw [is]
        exact ((State.answer_stands _ _).rb 1 (by decide)).trans (State.celCheck_corr (found.trans corr))
      · rw [is, State.answer]
        exact (t.eccOf_celCheck req _ .cellar _).trans (if_pos ⟨rfl, rfl⟩)
    · obtain ⟨u, out, mem, held, only, zero, poison, flagged⟩ :=
        exec_cellarRead_answersPoison pos block reached up sound (.inl un)
      rw [if_pos un] at poison
      refine ⟨u, out, mem, held, only, zero, flagged un, ?_, fun b ne => ?_⟩
      · rw [poison, shas_sadd_same]
      · rw [poison, shas_sadd_ne _ ne]
    · have met : ∃ b, (addr / 32 ≤ b ∧ b ≤ (addr + len - 1) / 32) ∧ shas s.cel.poison b = true := by
        simpa [and_assoc] using bad
      obtain ⟨u, out, mem, held, only, zero, poison, -⟩ :=
        exec_cellarRead_answersPoison (e := e) pos block reached up sound (.inr met)
      rw [good, if_neg (by decide)] at poison
      exact ⟨u, out, mem, held, only, zero, poison⟩
  · obtain ⟨pos, block⟩ := inBlock
    refine ⟨exec_cellarWrite_refused pos block (by omega), exec_cellarWrite_failed pos block,
      fun reached up free => ?_, fun reached up busy => ?_⟩
    · obtain ⟨out, bytes, held, poisoned, ecc, only⟩ :=
        exec_cellarWrite_applies (poison := poison) pos block reached up free
      obtain ⟨marks, mends, others⟩ := (s.celReached true req addr data.length).celApply_bursts req addr data poison pos
      refine ⟨_, out, bytes, held, marks, mends, fun b apart => ?_, only⟩
      obtain ⟨same, error⟩ := others b apart
      exact ⟨same.trans (by rw [poisoned]), error.trans (State.eccOf_congr ecc _ _)⟩
    · exact exec_cellarWrite_waits pos block reached up busy

end

/-! PROOFS. Refresh, self-refresh, activation windows, command parity, patrol scrub, CEL_PART and CEL_LOCK (R444, R445,
R451 to R460). -/

namespace Sys2Proof.Machine

/-- What a command changes, from its own frame. -/
theorem onlyIn_of_next {l : List Part} {s u : State} {x : Host.Outcome State Fault Refusal}
    (kept : ∃ t, x = .next t ∧ Keeps l s t) (out : x = .next u) : onlyIn l s u := by
  obtain ⟨t, e, keeps⟩ := kept
  obtain rfl : t = u := by
    have same := e.symm.trans out
    injection same
  exact keeps.same

/-- A field reads as what was written, where it fits. -/
theorem State.rf_wf_fits (s : State) (a : Nat) {hi lo v : Nat} (h : lo ≤ hi) (hh : hi < 32) (fits : v < 2 ^ (hi + 1 - lo)) :
    (s.wf a hi lo v).rf a hi lo = v := (s.rf_wf a hi lo v h hh).trans (Nat.mod_eq_of_lt fits)

theorem offWrap_celStkStatus (k : Nat) : offWrap (celStkStatus k) = true :=
  offWrap_of_window (by unfold celStkStatus; omega)

theorem offWrap_celStkChfail (k : Nat) : offWrap (celStkChfail k) = true :=
  offWrap_of_window (by unfold celStkChfail; omega)

/-! ## Refresh and self-refresh (R451 to R453, R461) -/

section
variable (s : State) (k : Nat)

theorem execBankRefresh_idle (pch bank : Nat) (idle : s.rf (celStkStatus k) 31 30 ≠ 0) :
    execBankRefresh k pch bank s = .next s := if_pos idle

theorem execBankRefresh_active (pch bank : Nat) (active : s.rf (celStkStatus k) 31 30 = 0) :
    ∃ u, execBankRefresh k pch bank s = .next u ∧
      let b := (k * 32 + pch) * 64 + bank
      tfind u.cel.openRow b = none ∧ tget 0 u.cel.raa b = tget 0 s.cel.raa b - s.cel.raaimt ∧ u.cel.mem = s.cel.mem ∧
      (∀ c, c ≠ b → tfind u.cel.openRow c = tfind s.cel.openRow c ∧ tget 0 u.cel.raa c = tget 0 s.cel.raa c) ∧
      onlyIn [.regs, .mast, .cel] s u := by
  have out : execBankRefresh k pch bank s = _ := if_neg (not_not.2 active)
  refine ⟨_, out, ?_, ?_, ?_, fun c ne => ⟨?_, ?_⟩, onlyIn_of_next (execBankRefresh_keeps s k pch bank) out⟩
  all_goals rw [State.cel_count]
  · exact tfind_tdel_same _ _
  · exact tget_tset_same _ _ _ _
  · exact tfind_tdel_ne _ _ _ ne
  · exact tget_tset_ne _ _ _ _ _ _ ne

theorem State.selfRefresh_enters : let u := s.selfRefresh k
    u.rf (celStkStatus k) 31 30 = 2 ∧
      u.cel = { s.cel with openRow := tclear s.cel.openRow (k * 2048) (k * 2048 + 2048) } := by
  refine ⟨?_, ?_⟩
  · rw [State.selfRefresh, stackBanks]
    dsimp only
    rw [(regsStand.count _ _ _ _).rf 31 30 (offWrap_celStkStatus k),
      State.rf_wf_ne _ _ _ _ _ _ _ (by decide) (by decide) (by decide) (.inr (by decide)),
      State.rf_wf_fits _ _ (by decide) (by decide) (by decide)]
  · rw [State.selfRefresh, stackBanks]
    dsimp only
    rw [State.cel_count]
    rfl

/-- The banks of the stack have their rows closed, the others stand. -/
theorem tfind_selfRefresh (b : Nat) : tfind (s.selfRefresh k).cel.openRow b =
    if b / 2048 = k then none else tfind s.cel.openRow b := by
  rw [(s.selfRefresh_enters k).2, tfind_tclear]
  by_cases own : b / 2048 = k
  · rw [if_pos own, if_pos (by omega)]
  · rw [if_neg own, if_neg (by omega)]

theorem execSelfRefreshExit_active : ∃ u, execSelfRefreshExit k s = .next u ∧ u.rf (celStkStatus k) 31 30 = 0 ∧
    onlyIn [.regs, .mast] s u := by
  have out : execSelfRefreshExit k s = _ := rfl
  refine ⟨_, out, ?_, onlyIn_of_next (execSelfRefreshExit_keeps s k) out⟩
  have active : (s.wf (celStkStatus k) 31 30 0).rf (celStkStatus k) 31 30 = 0 :=
    State.rf_wf _ _ _ _ _ (by decide) (by decide)
  split
  · exact ((regsStand.count _ _ _ _).rf 31 30 (offWrap_celStkStatus k)).trans active
  · exact active

theorem execScrubWake_wakes (asleep : s.rf (celStkStatus k) 31 30 = 2) : ∃ u, execScrubWake k s = .next u ∧
    u.rf (celStkStatus k) 31 30 = 0 ∧ onlyIn [.regs, .mast] s u := by
  have out : execScrubWake k s = _ := if_pos asleep
  refine ⟨_, out, ?_, onlyIn_of_next (execScrubWake_keeps s k) out⟩
  rw [(regsStand.count _ _ _ _).rf 31 30 (offWrap_celStkStatus k),
    State.rf_wf_ne _ _ _ _ _ _ _ (by decide) (by decide) (by decide) (.inr (by decide)),
    State.rf_wf_fits _ _ (by decide) (by decide) (by decide)]

/-- A temperature is shown, and HOT follows its bounds. -/
theorem execStackTemperatureChange_shows (temp : Nat) (fits : temp < 256) : let st := celStkStatus k
    ∃ u, execStackTemperatureChange k temp s = .next u ∧ u.rf st 23 16 = temp ∧
      (85 ≤ temp → u.rb st 29 = true) ∧ (temp < 80 → u.rb st 29 = false) ∧
      (80 ≤ temp → temp < 85 → u.rb st 29 = s.rb st 29) ∧ (∀ a, a ≠ st → u.rd a = s.rd a) ∧ onlyIn [.regs] s u := by
  dsimp only
  have out : execStackTemperatureChange k temp s = _ := rfl
  have only := onlyIn_of_next (execStackTemperatureChange_keeps s k temp) out
  have shown : (s.wf (celStkStatus k) 23 16 temp).rf (celStkStatus k) 23 16 = temp :=
    State.rf_wf_fits _ _ (by decide) (by decide) fits
  have shownAfter (b : Bool) : ((s.wf (celStkStatus k) 23 16 temp).putB (celStkStatus k) 29 b).rf (celStkStatus k) 23 16 =
      temp := by
    rw [State.putB, State.rf_wf_ne _ _ _ _ _ _ _ (by decide) (by decide) (by decide) (.inl (by decide)), shown]
  have apart (a : Nat) (ne : a ≠ celStkStatus k) (t : State) (b : Bool) :
      (t.putB (celStkStatus k) 29 b).rd a = t.rd a := State.rd_wf_ne _ _ _ _ ne
  have others (a : Nat) (ne : a ≠ celStkStatus k) : (s.wf (celStkStatus k) 23 16 temp).rd a = s.rd a :=
    State.rd_wf_ne _ _ _ _ ne
  refine ⟨_, out, ?_⟩
  revert only
  split
  · next hot =>
    exact fun only => ⟨shownAfter true, fun _ => State.rb_putB _ _ _ _ (by decide), fun cool => by omega,
      fun _ warm => by omega, fun a ne => (apart a ne _ _).trans (others a ne), only⟩
  · next warm =>
    split
    · next cool =>
      exact fun only => ⟨shownAfter false, fun hot => absurd hot warm, fun _ => State.rb_putB _ _ _ _ (by decide),
        fun least => by omega, fun a ne => (apart a ne _ _).trans (others a ne), only⟩
    · next between =>
      refine fun only => ⟨shown, fun hot => absurd hot warm, fun cool => absurd cool between, fun _ _ => ?_, others, only⟩
      rw [State.rb_wf _ _ _ _ _ _ (by decide) (by decide) (by decide), if_neg (by decide)]

end

/-! ## Activation windows (R455) -/

theorem heaviest_mem {l : List (Nat × Nat)} (some_ : l ≠ []) : heaviest l ∈ l := by
  induction l with
  | nil => exact absurd rfl some_
  | cons p l ih =>
    rw [heaviest]
    split
    · next less =>
      refine List.mem_cons_of_mem _ (ih ?_)
      rintro rfl
      exact absurd less (Nat.not_lt_zero _)
    · exact List.mem_cons_self

theorem le_heaviest {l : List (Nat × Nat)} {p : Nat × Nat} (h : p ∈ l) : p.2 ≤ (heaviest l).2 := by
  induction l with
  | nil => exact absurd h List.not_mem_nil
  | cons q l ih =>
    rw [heaviest]
    rcases List.mem_cons.1 h with rfl | tail
    · split <;> omega
    · have := ih tail
      split <;> omega

/-- The banks that an activation window has seen. -/
theorem mem_actBanks (acts : List Nat) (b : Nat) (l : List Nat) :
    b ∈ acts.foldl (fun l k => sadd l (k / 256)) l ↔ b ∈ l ∨ ∃ k ∈ acts, k / 256 = b := by
  induction acts generalizing l with
  | nil => simp
  | cons k acts ih =>
    rw [List.foldl_cons, ih, mem_sadd]
    simp only [List.mem_cons, exists_eq_or_imp]
    tauto

theorem bankActs_ne_nil {acts : Tbl Nat} {b : Nat} (h : bankActs acts b ≠ []) :
    ∃ k ∈ tkeys acts, k / 256 = b := by
  obtain ⟨q, hq⟩ := List.exists_mem_of_ne_nil _ h
  simp only [bankActs, List.mem_map, List.mem_filter, beq_iff_eq] at hq
  obtain ⟨p, ⟨listed, own⟩, -⟩ := hq
  exact ⟨p.1, List.mem_map_of_mem listed, own⟩

section
variable (s : State) (b req : Nat)

theorem State.throttle_writes : writesOnly celWrites s (s.throttle b req) := by
  refine (writesOnly.trans ?_ (State.celLatch_writes _ _ _ _ _)).count _ _ _
  exact ((writesOnly.refl celWrites s).regs rfl).setB celWrites_celErr 6

theorem State.cel_throttle : (s.throttle b req).cel = { s.cel with throttles :=
    ⟨b, req, s.ns / 1000 + s.rf celActCfg 11 0⟩ :: s.cel.throttles.filter fun t => !(t.bank == b && t.req == req) } := by
  rw [State.throttle]
  dsimp only
  rw [State.cel_count, State.cel_celLatch, State.setB_cel]

theorem State.throttle_flags : (s.throttle b req).rb celErr 6 = true := by
  rw [State.throttle]
  dsimp only
  rw [(regsStand.count _ _ _ _).rb 6 (by decide), State.rb, State.celLatch, State.wr64,
    State.rd_wrN_ne _ _ (by decide), State.rd_wrN_ne _ _ (by decide), State.rd_wr_ne _ _ (by decide)]
  exact State.rb_setB _ _ _ (by decide)

/-- When a throttle that begins now ends, in µs. -/
def State.throttleEnd (s : State) : Nat := s.ns / 1000 + s.rf celActCfg 11 0

theorem State.throttleEnd_throttle : (s.throttle b req).throttleEnd = s.throttleEnd := by
  rw [State.throttleEnd, State.throttleEnd, (s.throttle_writes b req).rf 11 0 (not_celWrites_of_lt (by decide)) (by decide),
    State.ns, State.ns, (s.throttle_keeps b req).same .time (by decide)]

variable (h : Nat → Nat) (l : List Nat)

/-- Banks throttled one after another: each has its throttle, no other bank gains one. -/
theorem State.each_throttle : let u := s.each l fun t b => t.throttle b (h b)
    u.cel = { s.cel with throttles := u.cel.throttles } ∧ (u.throttleEnd = s.throttleEnd) ∧
      (∀ b ∈ l, u.rb celErr 6 = true ∧ ⟨b, h b, s.throttleEnd⟩ ∈ u.cel.throttles) ∧
      (∀ t ∈ u.cel.throttles, t ∈ s.cel.throttles ∨ t.bank ∈ l) := by
  have ends (u : State) (b : Nat) := u.throttleEnd_throttle b (h b)
  have stop : (s.each l fun t b => t.throttle b (h b)).throttleEnd = s.throttleEnd :=
    State.each_stands (g := State.throttleEnd) fun t b _ => ends t b
  refine ⟨?_, stop, fun b hb => ⟨?_, ?_⟩, ?_⟩
  · refine State.each_invariant (P := fun u => u.cel = { s.cel with throttles := u.cel.throttles }) rfl fun t b _ ht => ?_
    rw [State.cel_throttle, ht]
  · exact State.each_reaches (P := fun u => u.rb celErr 6 = true) hb (fun t => t.throttle_flags _ _)
      fun t c _ _ => t.throttle_flags _ _
  · rw [← stop]
    refine State.each_reaches (P := fun u => ⟨b, h b, u.throttleEnd⟩ ∈ u.cel.throttles) hb (fun t => ?_) fun t c _ ht => ?_
    · rw [ends, State.cel_throttle]
      exact List.mem_cons_self
    · rw [ends, State.cel_throttle]
      by_cases same : b = c
      · subst same
        exact List.mem_cons_self
      · exact List.mem_cons_of_mem _ (List.mem_filter.2 ⟨ht, by simp [same]⟩)
  · refine State.each_invariant (P := fun u => ∀ t ∈ u.cel.throttles, t ∈ s.cel.throttles ∨ t.bank ∈ l)
      (fun t ht => .inl ht) fun u c hc hu t ht => ?_
    rw [State.cel_throttle] at ht
    rcases List.mem_cons.1 ht with rfl | tail
    · exact .inr hc
    · exact hu t (List.mem_of_mem_filter tail)

end

/-- The banks that a window's end finds over LIMIT. -/
def State.overrun (s : State) : List Nat := ((tkeys s.cel.acts).foldl (fun l k => sadd l (k / 256)) []).filter fun b =>
  s.rf celActCfg 31 24 < ((bankActs s.cel.acts b).map (·.2)).sum

theorem State.mem_overrun (s : State) (b : Nat) :
    b ∈ s.overrun ↔ s.rf celActCfg 31 24 < ((bankActs s.cel.acts b).map (·.2)).sum := by
  rw [State.overrun, List.mem_filter, decide_eq_true_iff, mem_actBanks, and_iff_right_of_imp]
  refine fun more => .inr (bankActs_ne_nil fun none => ?_)
  rw [none] at more
  exact absurd more (Nat.not_lt_zero _)

/-- Those banks have each throttled a requester. -/
def State.windowThrottled (s : State) : State := if s.rf celActCfg 31 24 = 0 then s
  else s.each s.overrun fun t b => t.throttle b (heaviest (bankActs s.cel.acts b)).1

/-- The window is over: its counts start again, and throttles that have ended go. -/
def State.windowClosed (t : State) (us : Nat) : State := { t with cel := { t.cel with
  acts := []
  throttles := t.cel.throttles.filter fun t => decide (us < t.untilUs) } }

theorem execActivationWindowEnd_eq (s : State) :
    execActivationWindowEnd s = .next (s.windowThrottled.windowClosed (s.ns / 1000)) := rfl

/-- A window's end: throttles for the banks over LIMIT, and the counts start again. -/
theorem execActivationWindowEnd_throttles (s : State) :
    let limit := s.rf celActCfg 31 24
    let us := s.ns / 1000
    let beyond (b : Nat) : Prop := limit < ((bankActs s.cel.acts b).map (·.2)).sum
    ∃ u, execActivationWindowEnd s = .next u ∧ u.cel.acts = [] ∧ u.cel.mem = s.cel.mem ∧
      onlyIn [.regs, .mast, .cel] s u ∧
      (limit = 0 → u.cel.throttles = s.cel.throttles.filter fun t => decide (us < t.untilUs)) ∧
      (∀ b, limit ≠ 0 → beyond b → u.rb celErr 6 = true ∧ (s.rf celActCfg 11 0 ≠ 0 → ∃ r n, (r, n) ∈ bankActs s.cel.acts b ∧
        (∀ p ∈ bankActs s.cel.acts b, p.2 ≤ n) ∧ ⟨b, r, us + s.rf celActCfg 11 0⟩ ∈ u.cel.throttles)) ∧
      (∀ t ∈ u.cel.throttles, t ∈ s.cel.throttles ∨ (limit ≠ 0 ∧ beyond t.bank)) := by
  intro limit us beyond
  obtain ⟨cel, -, gains, gained⟩ := s.each_throttle (fun b => (heaviest (bankActs s.cel.acts b)).1) s.overrun
  have off (none : limit = 0) : s.windowThrottled = s := if_pos none
  have on (some_ : limit ≠ 0) : s.windowThrottled = s.each s.overrun _ := if_neg some_
  refine ⟨_, execActivationWindowEnd_eq s, rfl, ?_, onlyIn_of_next (execActivationWindowEnd_keeps s)
    (execActivationWindowEnd_eq s), fun none => ?_, fun b some_ more => ⟨?_, fun lasts => ?_⟩, fun t ht => ?_⟩
  · by_cases none : limit = 0
    · exact congrArg (·.cel.mem) (off none)
    · exact (congrArg (·.cel.mem) (on none)).trans (congrArg Cel.mem cel)
  · exact congrArg (fun v => v.cel.throttles.filter fun t => decide (us < t.untilUs)) (off none)
  · exact (congrArg (·.rb celErr 6) (on some_)).trans (gains b ((s.mem_overrun b).2 more)).1
  · have heard : bankActs s.cel.acts b ≠ [] := fun none => by
      have excess : limit < ((bankActs s.cel.acts b).map (·.2)).sum := more
      rw [none] at excess
      exact absurd excess (Nat.not_lt_zero _)
    refine ⟨_, (heaviest (bankActs s.cel.acts b)).2, heaviest_mem heard, fun p hp => le_heaviest hp,
      List.mem_filter.2 ⟨?_, decide_eq_true (Nat.lt_add_of_pos_right (Nat.pos_of_ne_zero lasts))⟩⟩
    rw [on some_]
    exact (gains b ((s.mem_overrun b).2 more)).2
  · have before : t ∈ s.windowThrottled.cel.throttles := List.mem_of_mem_filter ht
    by_cases none : limit = 0
    · exact .inl (off none ▸ before)
    · rw [on none] at before
      exact (gained t before).imp_right fun hb => ⟨none, (s.mem_overrun _).1 hb⟩

/-! ## Command parity (R456, R457) -/

section
variable (s : State) (k ch : Nat)

/-- The alerts of a channel with one more counted: a new window of 1 ms starts where none runs. -/
def State.alertCount (s : State) (k ch : Nat) : Nat × Nat :=
  if (tget (0, 0) s.cel.alerts (k * 16 + ch)).1 = 0 ∨ (tget (0, 0) s.cel.alerts (k * 16 + ch)).2 + 1000000 ≤ s.ns then (1, s.ns)
  else ((tget (0, 0) s.cel.alerts (k * 16 + ch)).1 + 1, (tget (0, 0) s.cel.alerts (k * 16 + ch)).2)

/-- An alert's commands have been replayed into `rows`, and it is counted. -/
def State.alertReplayed (s : State) (k ch : Nat) (rows : Tbl Nat) : State :=
  { s with cel := { s.cel with openRow := rows, alerts := tput s.cel.alerts (k * 16 + ch) (s.alertCount k ch) } }

/-- An alert is told. -/
def State.alertTold (s : State) (k ch cmds : Nat) : State :=
  (((s.setB celErr 4).report 0x2B k (celInfo 0 0 (k * 256 + ch * 2048) 0)).count evCelCaAlert k 0).countBy
    evCelCaReplayCmds k 0 cmds

theorem execCaParityAlert_eq : ∃ rows cmds, execCaParityAlert k ch s = .next (if 4 ≤ (s.alertCount k ch).1 then
    ((s.alertReplayed k ch rows).alertTold k ch cmds).channelFail k ch
    else (s.alertReplayed k ch rows).alertTold k ch cmds) := ⟨_, _, rfl⟩

theorem State.cel_alertTold (cmds : Nat) : (s.alertTold k ch cmds).cel = s.cel := by
  rw [State.alertTold, State.cel_countBy, State.cel_count, State.cel_report, State.setB_cel]

theorem State.alertTold_writes (cmds : Nat) : writesOnly celWrites s (s.alertTold k ch cmds) :=
  ((((writesOnly.refl celWrites s).setB celWrites_celErr 4).report _ _ _).count _ _ _).countBy _ _ _ _

theorem State.alertTold_flags (cmds : Nat) : (s.alertTold k ch cmds).rb celErr 4 = true := by
  rw [State.alertTold, (regsStand.countBy _ _ _ _ _).rb 4 (by decide), (regsStand.count _ _ _ _).rb 4 (by decide), State.rb,
    State.rd_report _ _ _ _ (by decide)]
  exact State.rb_setB _ _ _ (by decide)

/-- A failed channel is marked and told; CEL_ERR keeps its other bits. -/
theorem State.channelFail_flags (fits : ch < 32) : let u := s.channelFail k ch
    u.rb (celStkChfail k) ch = true ∧ u.rb celErr 5 = true ∧ u.rb celErr 4 = s.rb celErr 4 ∧ u.cel = s.cel := by
  have low (a : Nat) (h : a < celErrInfo ∨ celErrAddrHi < a) (off : offWrap a = true) :
      (s.channelFail k ch).rd a = ((s.setB (celStkChfail k) ch).setB celErr 5).rd a := by
    unfold celErrInfo celErrAddrHi at h
    rw [State.channelFail, State.rd_report _ _ _ _ off, State.celLatch, State.wr64,
      State.rd_wrN_ne _ _ (by unfold celErrAddrLo; omega), State.rd_wrN_ne _ _ (by unfold celErrAddrLo; omega),
      State.rd_wr_ne _ _ (by unfold celErrInfo; omega)]
  have mark : celStkChfail k ≠ celErr := by unfold celStkChfail celErr; omega
  refine ⟨?_, ?_, ?_, ?_⟩
  · rw [State.rb, low _ (.inr (by unfold celStkChfail celErrAddrHi; omega)) (offWrap_celStkChfail k), State.setB,
      State.rd_wf_ne _ _ _ _ mark]
    exact State.rb_setB _ _ _ fits
  · rw [State.rb, low _ (.inl (by decide)) (by decide)]
    exact State.rb_setB _ _ _ (by decide)
  · rw [State.rb, low _ (.inl (by decide)) (by decide), ← State.rb, State.rb_setB_ne _ _ _ _ (by decide) (by decide) (by decide),
      State.rb, State.setB, State.rd_wf_ne _ _ _ _ mark.symm, ← State.rb]
  · exact (s.channelFail_keeps k ch).same .cel (by decide)

end

/-- An alert is counted and told, and the fourth within 1 ms fails its channel. -/
theorem execCaParityAlert_tells (s : State) (k ch : Nat) (channel : ch < 16) :
    let n := (tget (0, 0) s.cel.alerts (k * 16 + ch)).1
    let t0 := (tget (0, 0) s.cel.alerts (k * 16 + ch)).2
    let again : Prop := n ≠ 0 ∧ s.ns < t0 + 1000000
    ∃ u, execCaParityAlert k ch s = .next u ∧ u.rb celErr 4 = true ∧ u.cel.mem = s.cel.mem ∧
      u.cel.poison = s.cel.poison ∧ u.cel.retry = s.cel.retry ∧ onlyIn [.regs, .mast, .cel] s u ∧
      (again → tget (0, 0) u.cel.alerts (k * 16 + ch) = (n + 1, t0)) ∧
      (¬again → tget (0, 0) u.cel.alerts (k * 16 + ch) = (1, s.ns)) ∧
      (again → 3 ≤ n → u.rb (celStkChfail k) ch = true ∧ u.rb celErr 5 = true) ∧
      (again → n < 3 → u.rd (celStkChfail k) = s.rd (celStkChfail k)) ∧
      (¬again → u.rd (celStkChfail k) = s.rd (celStkChfail k)) := by
  intro n t0 again
  obtain ⟨rows, cmds, out⟩ := execCaParityAlert_eq s k ch
  have counted (h : again) : s.alertCount k ch = (n + 1, t0) := if_neg (by simp only [n, t0, again] at h ⊢; omega)
  have restarted (h : ¬again) : s.alertCount k ch = (1, s.ns) := if_pos (by simp only [n, t0, again] at h ⊢; omega)
  have mark := ((s.alertReplayed k ch rows).alertTold_writes k ch cmds).rd (not_celWrites_celStkChfail k)
    (offWrap_celStkChfail k)
  have told := (s.alertReplayed k ch rows).alertTold_flags k ch cmds
  have cel := (s.alertReplayed k ch rows).cel_alertTold k ch cmds
  have stood : (s.alertReplayed k ch rows).rd (celStkChfail k) = s.rd (celStkChfail k) := rfl
  rw [stood] at mark
  generalize (s.alertReplayed k ch rows).alertTold k ch cmds = v at *
  obtain ⟨failed, flagged, kept, same⟩ := v.channelFail_flags k ch (by omega)
  have only {u} := onlyIn_of_next (u := u) (execCaParityAlert_keeps s k ch)
  by_cases fails : 4 ≤ (s.alertCount k ch).1
  · rw [if_pos fails] at out
    have within : again ∧ 3 ≤ n := by
      by_cases h : again
      · rw [counted h] at fails
        exact ⟨h, by omega⟩
      · rw [restarted h] at fails
        omega
    refine ⟨_, out, kept.trans told, ?_, ?_, ?_, only out, fun h => ?_, fun h => absurd within.1 h,
      fun _ _ => ⟨failed, flagged⟩, fun _ few => absurd within.2 (by omega), fun h => absurd within.1 h⟩
    all_goals rw [same, cel]; dsimp only [State.alertReplayed]
    rw [tget_tput_same, counted h]
  · rw [if_neg fails] at out
    refine ⟨_, out, told, ?_, ?_, ?_, only out, fun h => ?_, fun h => ?_, fun h many => ?_, fun _ _ => mark, fun _ => mark⟩
    · rw [cel]
      rfl
    · rw [cel]
      rfl
    · rw [cel]
      rfl
    · rw [cel, State.alertReplayed, tget_tput_same, counted h]
    · rw [cel, State.alertReplayed, tget_tput_same, restarted h]
    · rw [counted h] at fails
      omega

/-! ## Patrol scrub (R460) -/

/-- Eight bursts of which only the first may be in error: it alone is checked. -/
theorem State.each_celCheck_first (s : State) (b : Nat) (good : ∀ j, j < 8 → j ≠ 0 → s.eccOf .cellar (b + j) = .ok) :
    (s.each (upto 8) fun t j => t.celCheck 0x18 (b + j)) = s.celCheck 0x18 b := by
  have cons : upto 8 = 0 :: [1, 2, 3, 4, 5, 6, 7] := rfl
  rw [cons, State.each_cons]
  refine State.each_eq_self fun j hj => State.celCheck_ok ?_
  have few : j ≠ 0 ∧ j < 8 := by
    simp only [List.mem_cons, List.not_mem_nil, or_false] at hj
    omega
  rw [State.eccOf_celCheck, if_neg (by omega)]
  exact good j few.2 few.1

/-- A pseudo-channel's scrub goes on after block `i`. -/
def State.scrubNext (t : State) (p i : Nat) : State :=
  { t with cel := { t.cel with scrubPos := tput t.cel.scrubPos p (i + 1) } }.wrN celScrubStatus
    (scrubPasses (tput t.cel.scrubPos p (i + 1)))

theorem State.cel_scrubNext (t : State) (p i : Nat) :
    (t.scrubNext p i).cel = { t.cel with scrubPos := tput t.cel.scrubPos p (i + 1) } := State.wrN_cel _ _ _

theorem State.rd_scrubNext_ne (t : State) (p i : Nat) {a : Nat} (ne : a ≠ celScrubStatus) :
    (t.scrubNext p i).rd a = t.rd a := State.rd_wrN_ne _ _ ne

theorem State.eccOf_scrubNext (t : State) (p i : Nat) (m : EccMem) (b : Nat) :
    (t.scrubNext p i).eccOf m b = t.eccOf m b := State.eccOf_congr (State.wrN_ecc _ _ _) m b

/-- A scrub of a block whose first burst alone may be in error. -/
theorem State.scrub_checks (s : State) (b p i : Nat) (e : Ecc) (sound : ∀ j, j < 8 → s.eccOf .cellar (b + j) = .ok) :
    let u := ((s.eccFlag .cellar b e).each (upto 8) fun t j => t.celCheck 0x18 (b + j)).scrubNext p i
    tget 0 u.cel.scrubPos p = i + 1 ∧ u.cel.mem = s.cel.mem ∧ u.eccOf .cellar b = .ok ∧
      (e ≠ .uncorr → u.cel.poison = s.cel.poison) ∧ (e = .corr → u.rb celErr 1 = true) ∧
      (e = .uncorr → u.rb celErr 2 = true ∧ shas u.cel.poison b = true) := by
  dsimp only
  have found : (s.eccFlag .cellar b e).eccOf .cellar b = e := State.eccOf_eccFlag (sound 0 (by decide)) e
  have cel : (s.eccFlag .cellar b e).cel = s.cel := (s.eccFlag_keeps _ _ _).same .cel (by decide)
  rw [State.each_celCheck_first (s.eccFlag .cellar b e) b fun j few ne =>
    (State.eccOf_eccFlag_ne s _ _ _ _ _ fun h => ne (by omega)).trans (sound j few)]
  have checked := (s.eccFlag .cellar b e).cel_celCheck 0x18 b
  rw [found, cel] at checked
  have gone := (s.eccFlag .cellar b e).eccOf_celCheck 0x18 b .cellar b
  have corr (h : e = .corr) := State.celCheck_corr (req := 0x18) (found.trans h)
  have uncorr (h : e = .uncorr) := State.celCheck_uncorr (req := 0x18) (found.trans h)
  generalize (s.eccFlag .cellar b e).celCheck 0x18 b = v at checked gone corr uncorr
  have err : (v.scrubNext p i).rd celErr = v.rd celErr := v.rd_scrubNext_ne p i (by decide)
  rw [State.cel_scrubNext, checked, State.eccOf_scrubNext, State.rb, State.rb, err]
  refine ⟨tget_tput_same _ _ _ _, rfl, gone.trans (if_pos ⟨rfl, rfl⟩), fun mends => if_neg mends, corr, fun h =>
    ⟨uncorr h, ?_⟩⟩
  dsimp only
  rw [if_pos h, shas_sadd_same]

theorem execPatrolScrub_off (k pch : Nat) (e : Ecc) (s : State) (off : s.rb celScrubCtl 0 = false) :
    execPatrolScrub k pch e s = .next s := if_pos (by rw [off]; rfl)

theorem execPatrolScrub_on (k pch : Nat) (e : Ecc) (s : State) (on : s.rb celScrubCtl 0 = true) :
    execPatrolScrub k pch e s = .next (((s.eccFlag .cellar (scrubAddr k pch (tget 0 s.cel.scrubPos (k * 32 + pch)) / 32) e).each
      (upto 8) fun t j => t.celCheck 0x18 (scrubAddr k pch (tget 0 s.cel.scrubPos (k * 32 + pch)) / 32 + j)).scrubNext
        (k * 32 + pch) (tget 0 s.cel.scrubPos (k * 32 + pch))) := if_neg (by rw [on]; decide)

/-! ## CEL_PART and CEL_LOCK (R444, R445) -/

/-- Sizes that R444 allows. -/
def partFits (v : Word) : Prop := fld v 7 0 ≤ 128 ∧ 1 ≤ fld v 15 8 ∧ fld v 15 8 ≤ 128 ∧ fld v 23 16 ≤ 32 ∧ fld v 31 24 ≤ 32 ∧
  fld v 7 0 + fld v 15 8 + fld v 23 16 + fld v 31 24 ≤ 128

section
variable {s : State} {v : Word}

theorem State.celPartWrite_refused (h : s.rb celLock 0 = true ∨ ¬partFits v) : s.celPartWrite v = s.setB celErr 0 := by
  refine if_neg ?_
  rw [Bool.and_eq_true, decide_eq_true_iff]
  rintro ⟨unlocked, fits⟩
  rcases h with locked | not
  · rw [locked] at unlocked
    exact Bool.false_ne_true unlocked
  · exact not fits

theorem State.celPartWrite_taken (unlocked : s.rb celLock 0 = false) (fits : partFits v) :
    s.celPartWrite v = s.wr celPart v := by
  refine if_pos ?_
  rw [Bool.and_eq_true, decide_eq_true_iff, unlocked]
  exact ⟨rfl, fits⟩

theorem State.celLockWrite_clear (h : v.getLsbD 0 = false) : s.celLockWrite v = s.setB celErr 0 := by
  rw [State.celLockWrite, h, if_neg Bool.false_ne_true]

theorem State.celLockWrite_set (h : v.getLsbD 0 = true) : s.celLockWrite v = s.setB celLock 0 := by
  rw [State.celLockWrite, h, if_pos rfl]

end

end Sys2Proof.Machine

section
open Sys2Proof Sys2Proof.Machine

/-- Settles O53: each command of a stack, a channel or a register by its own equation; a window's end by what the
throttles of its banks add up to. -/
theorem cellarStacksAndRegisters : Obligations.CellarStacksAndRegisters := by
  unfold Obligations.CellarStacksAndRegisters
  refine ⟨fun k pch bank s _ => ⟨execBankRefresh_idle s k pch bank, execBankRefresh_active s k pch bank⟩,
    fun k s _ => ⟨fun not => if_neg not, fun active idle dozing => ?_, execSelfRefreshExit_active s k, fun awake => if_neg awake,
      execScrubWake_wakes s k, execStackTemperatureChange_shows s k⟩,
    execActivationWindowEnd_throttles, fun k ch s _ channel => execCaParityAlert_tells s k ch channel,
    fun k pch e s => ⟨execPatrolScrub_off k pch e s, fun on sound => ?_⟩, fun v s => ⟨fun refused => ?_, fun unlocked fits => ?_,
      fun clear => ?_, fun set => ?_⟩⟩
  · obtain ⟨asleep, cel⟩ := s.selfRefresh_enters k
    refine ⟨_, if_pos ⟨active, idle, dozing⟩, asleep, fun b own => ?_, fun b other => ?_, ?_, (s.selfRefresh_keeps k).same⟩
    · rw [tfind_selfRefresh, if_pos own]
    · rw [tfind_selfRefresh, if_neg other]
    · rw [cel]
  · have out := execPatrolScrub_on k pch e s on
    obtain ⟨next, mem, clean, poison, corr, uncorr⟩ := State.scrub_checks s _ _ _ e sound
    exact ⟨_, out, next, mem, clean, onlyIn_of_next (execPatrolScrub_keeps s k pch e) out, poison, corr, uncorr⟩
  · exact congrArg Host.Outcome.next (State.celPartWrite_refused (refused.imp_right fun not fits => not (by
      obtain ⟨spill, least, tables, pools, host, sum⟩ := fits
      exact ⟨least, tables, spill, pools, host, sum⟩)))
  · refine ⟨_, congrArg Host.Outcome.next (State.celPartWrite_taken unlocked ?_), s.rd_wr_same _ _,
      fun a ne => s.rd_wr_ne v ne, (s.wr_keeps _ _).same⟩
    obtain ⟨least, tables, spill, pools, host, sum⟩ := fits
    exact ⟨spill, least, tables, pools, host, sum⟩
  · exact congrArg Host.Outcome.next (State.celLockWrite_clear clear)
  · exact ⟨_, congrArg Host.Outcome.next (State.celLockWrite_set set), s.rb_setB _ _ (by decide),
      fun a ne => State.rd_wf_ne _ _ _ _ ne, (s.setB_keeps _ _).same⟩

end

/-! PROOFS. The memory window and the lines that the host holds (R395 to R397, R446 to R448). -/

namespace Sys2Proof.Machine

/-! ## Addresses of the window (R395) -/

section
variable {s : State} {bar4 : Bool} {range off n a : Nat}

theorem gib_64 : gib 64 = 68719476736 := rfl

theorem State.windowAddr_none (h : s.rb dwyLinkStatus 31 = false ∨ (bar4 = true ∧ ¬s.rf dwyLinkStatus 7 6 = 0) ∨
    (bar4 = false ∧ s.rf dwyLinkStatus 7 6 = 0) ∨ (bar4 = false ∧ 2 ≤ range) ∨ 68719476736 ≤ off) :
    s.windowAddr bar4 range off n = none := by
  refine if_neg fun open_ => ?_
  rw [Bool.and_eq_true, Bool.and_eq_true, decide_eq_true_iff, gib_64] at open_
  obtain ⟨⟨up, mode⟩, decoder, inside, -⟩ := open_
  rcases h with down | ⟨rfl, cxl⟩ | ⟨rfl, pcie⟩ | ⟨rfl, none⟩ | beyond
  · exact Bool.false_ne_true (down.symm.trans up)
  · exact cxl (by simpa using mode)
  · exact absurd pcie (by simpa using mode)
  · exact absurd decoder (Nat.not_lt.2 none)
  · omega

theorem State.windowAddr_cxl (up : s.rb dwyLinkStatus 31 = true) (cxl : ¬s.rf dwyLinkStatus 7 6 = 0) (decoder : range < 2)
    (fits : off + n ≤ (s.part (if range = 0 then 3 else 2)).2) (inside : off < 68719476736) :
    s.windowAddr false range off n = some ((s.part (if range = 0 then 3 else 2)).1 + off) := by
  refine if_pos ?_
  rw [Bool.and_eq_true, Bool.and_eq_true, decide_eq_true_iff, gib_64]
  exact ⟨⟨up, by simpa using cxl⟩, decoder, inside, fits⟩

/-- An address of the window lies with its bytes in the pools or the host window, which Doorway may reach. -/
theorem State.reach_windowAddr (h : s.windowAddr bar4 range off n = some a) : s.reach 0x15 a n = true := by
  unfold State.windowAddr at h
  dsimp only at h
  rw [Option.ite_none_right_eq_some, Bool.and_eq_true, decide_eq_true_iff, Option.some.injEq] at h
  obtain ⟨⟨-, -, -, fits⟩, rfl⟩ := h
  have inside (p : Nat) (o : Nat) (le : o + n ≤ (s.part p).2) : s.inPart p ((s.part p).1 + o) n = true :=
    decide_eq_true ⟨Nat.le_add_right _ _, by omega⟩
  have may : s.reach 0x15 = fun a n => s.inPart 2 a n || s.inPart 3 a n := rfl
  rw [may]
  dsimp only
  generalize hr : (if (if bar4 = true then (if off < gib 32 then 0 else 1) else range) = 0 then 3 else 2) = p at fits ⊢
  have two : p = 3 ∨ p = 2 := hr ▸ ite_eq_or_eq _ _ _
  rcases two with rfl | rfl
  · rw [inside 3 _ fits, Bool.or_true]
  · rw [inside 2 _ fits, Bool.true_or]

theorem exec_hostMemAccess_write {bs : List Byte} {poison : Bool} (len : Nat) (hold : Bool)
    (h : s.windowAddr bar4 range off bs.length = some a) :
    exec (.hostMemAccess bar4 range off (some (bs, poison)) len hold) s = exec (.cellarWrite 0x15 a bs poison) s := by
  have out : exec (.hostMemAccess bar4 range off (some (bs, poison)) len hold) s =
      execHostMemAccess bar4 range off (some (bs, poison)) len hold s := rfl
  rw [out, execHostMemAccess, h]
  rfl

theorem exec_hostMemAccess_write_none {bs : List Byte} {poison : Bool} (len : Nat) (hold : Bool)
    (h : s.windowAddr bar4 range off bs.length = none) :
    exec (.hostMemAccess bar4 range off (some (bs, poison)) len hold) s = .next s := by
  have out : exec (.hostMemAccess bar4 range off (some (bs, poison)) len hold) s =
      execHostMemAccess bar4 range off (some (bs, poison)) len hold s := rfl
  rw [out, execHostMemAccess, h]

theorem exec_hostMemAccess_read_none (len : Nat) (hold : Bool) (h : s.windowAddr bar4 range off len = none) :
    exec (.hostMemAccess bar4 range off none len hold) s = .next { s with rdata := 2 ^ (8 * len) - 1 } := by
  have out : exec (.hostMemAccess bar4 range off none len hold) s = execHostMemAccess bar4 range off none len hold s := rfl
  rw [out, execHostMemAccess, h]
  rfl

/-- A write of one burst that the host may make replaces its bytes, and its poison is the burst's. -/
theorem exec_hostMemAccess_writes {bs : List Byte} {poison : Bool} (len : Nat) (hold : Bool)
    (h : s.windowAddr bar4 range off 32 = some a) (whole : bs.length = 32) (aligned : a % 32 = 0)
    (up : s.chFailed a = false) (alone : s.heldOverlap 0x15 a 32 = false) (sound : s.sound) :
    ∃ u, exec (.hostMemAccess bar4 range off (some (bs, poison)) len hold) s = .next u ∧
      (∀ k, k < 32 → tget 0 u.cel.mem (a + k) = bs.getD k 0) ∧
      (∀ b, b < a ∨ a + 32 ≤ b → tget 0 u.cel.mem b = tget 0 s.cel.mem b) ∧
      shas u.cel.poison (a / 32) = poison ∧ u.sound ∧ onlyIn [.regs, .ecc, .mast, .cel] s u := by
  have reached : s.reach 0x15 a bs.length = true := whole ▸ State.reach_windowAddr h
  have pos : 0 < bs.length := by omega
  obtain ⟨out, bytes, -, -, -, only⟩ := exec_cellarWrite_applies (poison := poison) (req := 0x15) pos (by omega) reached up
    (by rw [whole, alone]; rfl)
  obtain ⟨marks, mends, -⟩ := (s.celReached true 0x15 a bs.length).celApply_bursts 0x15 a bs poison pos
  refine ⟨_, (exec_hostMemAccess_write len hold (whole ▸ h)).trans out, fun k hk => ?_, fun b apart => ?_, ?_, ?_, only⟩
  · rw [bytes, if_pos (by omega), Nat.add_sub_cancel_left]
  · rw [bytes, if_neg (by omega)]
  · cases poison
    · exact (mends rfl (a / 32) (by omega) (by omega)).1
    · exact marks rfl (a / 32) ⟨Nat.le_refl _, by omega⟩
  · obtain ⟨t, e, kept⟩ := execCellarWrite_keeps s 0x15 a bs poison
    obtain rfl : t = _ := by
      have same := e.symm.trans out
      injection same
    exact kept.sound sound

end

/-! ## Lines that the host keeps (R397) -/

section
variable (s : State)

theorem State.trackLine_tracks (l : Nat) : l ∈ (s.trackLine l).dwy.tracker := by
  unfold State.trackLine
  dsimp only
  split <;> exact List.mem_append_right _ List.mem_cons_self

theorem State.trackLine_rdata (l : Nat) : (s.trackLine l).rdata = s.rdata :=
  (s.trackLine_keeps l).same .rdata (by decide)

theorem State.trackLine_cel (l : Nat) : (s.trackLine l).cel = s.cel := (s.trackLine_keeps l).same .cel (by decide)

variable {s} {range off a : Nat}

/-- A read of one sound burst: the bytes, or poison where the burst holds poison. -/
theorem State.celRead_burst (reached : s.reach 0x15 a 32 = true) (aligned : a % 32 = 0) (up : s.chFailed a = false)
    (good : s.eccOf .cellar (a / 32) = .ok) (alone : s.cel.held = []) :
    (s.celRead 0x15 a 32).2 = (if shas s.cel.poison (a / 32) = true then none else some (memRead 0 s.cel.mem a 32)) ∧
      (s.celRead 0x15 a 32).1.cel.mem = s.cel.mem := by
  have one : bursts a 32 = [a / 32] := by
    have few : (a + 32 - 1) / 32 + 1 - a / 32 = 1 := by omega
    rw [bursts, few]
    exact congrArg (· :: []) (Nat.zero_add _)
  obtain ⟨openRow, raa, acts, retry, cel⟩ := s.cel_celReached false 0x15 a 32
  have checked : s.celChecked 0x15 a 32 = s.celReached false 0x15 a 32 := by
    rw [State.celChecked, one, State.each_cons, State.each_nil]
    exact State.celCheck_ok ((State.eccOf_congr ((s.celReached_keeps false 0x15 a 32).same .ecc (by decide)) _ _).trans good)
  have view : (s.celReached false 0x15 a 32).celView 0x15 = s.cel.mem := by
    rw [State.celView, cel, alone]
    rfl
  rw [State.celRead_block (by decide) (by omega), State.celRead1_reaches reached up, checked, one, view]
  have poisoned : ([a / 32].any fun b => shas (s.celReached false 0x15 a 32).cel.poison b) = shas s.cel.poison (a / 32) := by
    rw [cel]
    exact Bool.or_false _
  rw [poisoned]
  cases shas s.cel.poison (a / 32)
  · refine ⟨rfl, ?_⟩
    rw [if_neg Bool.false_ne_true, cel]
  · refine ⟨rfl, ?_⟩
    rw [if_pos rfl, State.cel_count, cel]

/-- The state after a read of the window before its line is tracked. -/
def State.windowRead (s : State) (a len : Nat) : State := (s.celRead 0x15 a len).1.answer (match (s.celRead 0x15 a len).2 with
  | some bs => leNat bs
  | none => 2 ^ (8 * len))

theorem exec_hostMemAccess_read (len : Nat) (hold : Bool) (h : s.windowAddr false range off len = some a) :
    exec (.hostMemAccess false range off none len hold) s = .next (if hold && s.rf dwyLinkStatus 7 6 == 2 then
      (s.windowRead a len).each ((upto ((a + len + 63) / 64 - a / 64)).map (· + a / 64)) State.trackLine
      else s.windowRead a len) := by
  have out : exec (.hostMemAccess false range off none len hold) s = execHostMemAccess false range off none len hold s := rfl
  rw [out, execHostMemAccess, h]
  dsimp only
  rw [Bool.not_false, Bool.and_true]
  split <;> rfl

theorem exec_hostMemAccess_reads (hold : Bool) (h : s.windowAddr false range off 32 = some a) (aligned : a % 32 = 0)
    (up : s.chFailed a = false) (good : s.eccOf .cellar (a / 32) = .ok) (alone : s.cel.held = []) :
    ∃ u, exec (.hostMemAccess false range off none 32 hold) s = .next u ∧
      u.rdata = (if shas s.cel.poison (a / 32) = true then 2 ^ 256 else leNat (memRead 0 s.cel.mem a 32)) ∧
      u.cel.mem = s.cel.mem ∧ (hold = false → u.dwy = s.dwy) ∧
      (hold = true → s.rf dwyLinkStatus 7 6 = 2 → (a / 64) ∈ u.dwy.tracker) := by
  obtain ⟨answer, mem⟩ := State.celRead_burst (State.reach_windowAddr h) aligned up good alone
  have rdata : (s.windowRead a 32).rdata =
      (if shas s.cel.poison (a / 32) = true then 2 ^ 256 else leNat (memRead 0 s.cel.mem a 32)) := by
    rw [State.windowRead, State.rdata_answer, answer]
    cases shas s.cel.poison (a / 32) <;> rfl
  have kept : (s.windowRead a 32).cel.mem = s.cel.mem := by rw [State.windowRead, State.cel_answer, mem]
  have tracker : (s.windowRead a 32).dwy = s.dwy :=
    (((s.celRead 0x15 a 32).1.answer_keeps _).same .dwy (by decide)).trans ((s.celRead_keeps 0x15 a 32).same .dwy (by decide))
  have one : (upto ((a + 32 + 63) / 64 - a / 64)).map (· + a / 64) = [a / 64] := by
    have few : (a + 32 + 63) / 64 - a / 64 = 1 := by omega
    rw [few]
    exact congrArg (· :: []) (Nat.zero_add _)
  have out := exec_hostMemAccess_read 32 hold h
  rw [one, State.each_cons, State.each_nil] at out
  refine ⟨_, out, ?_, ?_, fun off => ?_, fun on cxl => ?_⟩
  · split
    · rw [State.trackLine_rdata, rdata]
    · exact rdata
  · split
    · rw [State.trackLine_cel, kept]
    · exact kept
  · rw [off, Bool.false_and, if_neg Bool.false_ne_true, tracker]
  · rw [on, cxl, if_pos (by rfl)]
    exact State.trackLine_tracks _ _

end

/-! ## A line comes back (R397) -/

section
variable (s : State) (line : Nat)

/-- The host has given up a line: it is tracked no more, and no write waits for it. -/
def State.lineBack (s : State) (line : Nat) : State := { s with
  dwy := { s.dwy with tracker := s.dwy.tracker.filter (· != line) }
  cel := { s.cel with held := s.cel.held.map fun (h : HeldWrite) => { h with lines := h.lines.filter (· != line) } } }

theorem exec_backInvalidateResponse : exec (.backInvalidateResponse line) s = .next (s.lineBack line).heldRelease := rfl

/-- Cellar with nothing waiting. -/
def State.heldNone (s : State) : State := { s with cel := { s.cel with held := [] } }

theorem State.heldRelease_nil {s : State} (none : s.cel.held = []) : s.heldRelease = s.heldNone := by
  rw [State.heldRelease, none]
  rfl

/-- The one write that waits takes effect once no line holds it back. -/
theorem State.heldRelease_one {s : State} {h : HeldWrite} (one : s.cel.held = [h]) : s.heldRelease =
    if h.lines.isEmpty then s.heldNone.celApply h.req h.addr h.bytes h.poison
    else { s.heldNone with cel := { s.cel with held := [h] } } := by
  rw [State.heldRelease, one]
  dsimp only
  rw [State.each_cons, State.each_nil]
  cases h.lines.isEmpty <;> rfl

end

end Sys2Proof.Machine

section
open Sys2Proof Sys2Proof.Machine

/-- Settles O51: an access of the window is a request of Doorway, and a response releases the writes that wait. -/
theorem doorwayWindowAndLines : Obligations.DoorwayWindowAndLines := by
  unfold Obligations.DoorwayWindowAndLines
  refine ⟨fun bar4 hold range off len w s => ⟨State.windowAddr_none, ?_, fun none => ?_⟩,
    fun bar4 range off a bs poison hold len s h whole aligned up alone sound =>
      exec_hostMemAccess_writes len hold h whole aligned up alone sound,
    fun range off a hold s h aligned up good alone => exec_hostMemAccess_reads hold h aligned up good alone,
    fun line s => ⟨fun none => ?_, fun h one free sound aligned whole => ?_, fun h one busy => ?_⟩⟩
  · rintro rfl up cxl decoder fits inside
    exact State.windowAddr_cxl up cxl decoder fits inside
  · cases w with
    | none => exact exec_hostMemAccess_read_none len hold none
    | some p => exact exec_hostMemAccess_write_none len hold none
  · have empty : (s.lineBack line).cel.held = [] := by rw [State.lineBack, none]; rfl
    have out := exec_backInvalidateResponse s line
    rw [State.heldRelease_nil empty] at out
    have cel : ((s.lineBack line).heldNone).cel = s.cel := by
      rw [State.heldNone, State.lineBack, ← none]
    refine ⟨_, out, rfl, cel, fun p hp => ?_⟩
    cases p with
    | dwy => exact absurd (by decide) hp
    | cel => exact cel
    | _ => rfl
  · have waits : (s.lineBack line).cel.held = [{ h with lines := [] }] := by
      rw [State.lineBack, one]
      simp [free]
    have out := exec_backInvalidateResponse s line
    rw [State.heldRelease_one waits, if_pos (by rfl)] at out
    refine ⟨_, out, State.held_celApply _ _ _ _ _, fun k hk => ?_, fun b apart => ?_⟩
    · rw [State.mem_celApply, tget_memWrite, if_pos (by dsimp only; omega), Nat.add_sub_cancel_left]
    · rw [State.mem_celApply, tget_memWrite, if_neg (by dsimp only; omega)]
      rfl
  · have waits : (s.lineBack line).cel.held = [{ h with lines := h.lines.filter (· != line) }] := by
      rw [State.lineBack, one]
      rfl
    have stillBusy : (h.lines.filter (· != line)).isEmpty = false := by
      obtain ⟨l, listed, ne⟩ := busy
      rw [List.isEmpty_eq_false_iff_exists_mem]
      exact ⟨l, List.mem_filter.2 ⟨listed, by simpa using ne⟩⟩
    have out := exec_backInvalidateResponse s line
    rw [State.heldRelease_one waits, if_neg (by dsimp only; rw [stillBusy]; exact Bool.false_ne_true)] at out
    exact ⟨_, out, rfl, rfl⟩

end

/-! PROOFS. Cupboard's free store, owner records and grants (R376 to R386): which registers they write and what they
leave of the pools. -/

namespace Sys2Proof.Machine

/-! ## Registers that Cupboard's operations write -/

/-- What requests to Cellar write, CUP_ERR, CUP_ERR_LOC and the pools' CUP_POOL_STATUS. -/
def cupWrites (a : Nat) : Prop := celWrites a ∨ a = cupErr ∨ a = cupErrLoc ∨ ∃ k < 8, a = cupPoolStatus k

theorem cupWrites_celWrites {a : Nat} (h : celWrites a) : cupWrites a := .inl h
theorem cupWrites_cupErr : cupWrites cupErr := .inr (.inl rfl)
theorem cupWrites_cupErrLoc : cupWrites cupErrLoc := .inr (.inr (.inl rfl))
theorem cupWrites_cupPoolStatus {k : Nat} (hk : k < 8) : cupWrites (cupPoolStatus k) := .inr (.inr (.inr ⟨k, hk, rfl⟩))

/-- Registers of Cupboard outside the three are not written. -/
theorem not_cupWrites {a : Nat} (low : a < 0x10000030) (err : a ≠ cupErr ∧ a ≠ cupErrLoc)
    (status : ∀ k < 8, a ≠ cupPoolStatus k) : ¬cupWrites a := by
  rintro (cel | here | here | ⟨k, hk, here⟩)
  · exact not_celWrites_of_lt low cel
  · exact err.1 here
  · exact err.2 here
  · exact status k hk here

/-- The words of a pool's row other than its status. -/
theorem not_cupWrites_poolWord (k : Nat) {d : Nat} (hk : k < 8) (hd : d < 9) : ¬cupWrites (cupPoolCfg k + 4 * d) := by
  refine not_cupWrites ?_ ⟨?_, ?_⟩ fun j hj => ?_
  all_goals simp only [cupPoolCfg, cupErr, cupErrLoc, cupPoolStatus]; omega

theorem not_cupWrites_cupPoolCfg {k : Nat} (hk : k < 8) : ¬cupWrites (cupPoolCfg k) :=
  not_cupWrites_poolWord k (d := 0) hk (by decide)

theorem not_cupWrites_cupFnGrant {f k : Nat} (hf : f < 64) (hk : k < 8) : ¬cupWrites (cupFnGrant f k) := by
  refine not_cupWrites ?_ ⟨?_, ?_⟩ fun j hj => ?_
  all_goals simp only [cupFnGrant, cupErr, cupErrLoc, cupPoolStatus]; omega

theorem not_cupWrites_cupReclaim : ¬cupWrites cupReclaim := by
  refine not_cupWrites (by decide) ⟨by decide, by decide⟩ fun j hj => ?_
  simp only [cupReclaim, cupPoolStatus]
  omega

theorem not_cupWrites_cupReclaimCount : ¬cupWrites cupReclaimCount := by
  refine not_cupWrites (by decide) ⟨by decide, by decide⟩ fun j hj => ?_
  simp only [cupReclaimCount, cupPoolStatus]
  omega

theorem offWrap_cupPool (k d : Nat) : offWrap (cupPoolCfg k + 4 * d) = true :=
  offWrap_of_window (by unfold cupPoolCfg; omega)

theorem offWrap_cupPoolStatus (k : Nat) : offWrap (cupPoolStatus k) = true :=
  offWrap_of_window (by unfold cupPoolStatus; omega)

section
variable {s t : State} {k : Nat}

/-- A pool's fields read the same where only such registers were written. -/
theorem writesOnly.pool (h : writesOnly cupWrites s t) (hk : k < 8) : t.poolValid k = s.poolValid k ∧
    t.poolCount k = s.poolCount k ∧ t.poolLog2 k = s.poolLog2 k ∧ t.poolBase k = s.poolBase k ∧
    t.poolRing k = s.poolRing k := by
  have word (d : Nat) (hd : d < 9) : t.rd (cupPoolCfg k + 4 * d) = s.rd (cupPoolCfg k + 4 * d) :=
    h.rd (not_cupWrites_poolWord k hk hd) (offWrap_cupPool k d)
  have field {a d : Nat} (hd : d < 9) (is : a = cupPoolCfg k + 4 * d) : t.rd a = s.rd a := is ▸ word d hd
  have cfg : t.rd (cupPoolCfg k) = s.rd (cupPoolCfg k) := word 0 (by decide)
  have count : t.rd (cupPoolCount k) = s.rd (cupPoolCount k) :=
    field (d := 3) (by decide) (by unfold cupPoolCount cupPoolCfg; omega)
  have base : t.rd (cupPoolBaseLo k) = s.rd (cupPoolBaseLo k) ∧ t.rd (cupPoolBaseLo k + 4) = s.rd (cupPoolBaseLo k + 4) :=
    ⟨field (d := 1) (by decide) (by unfold cupPoolBaseLo cupPoolCfg; omega),
      field (d := 2) (by decide) (by unfold cupPoolBaseLo cupPoolCfg; omega)⟩
  have ring : t.rd (cupPoolRingLo k) = s.rd (cupPoolRingLo k) ∧ t.rd (cupPoolRingLo k + 4) = s.rd (cupPoolRingLo k + 4) :=
    ⟨field (d := 4) (by decide) (by unfold cupPoolRingLo cupPoolCfg; omega),
      field (d := 5) (by decide) (by unfold cupPoolRingLo cupPoolCfg; omega)⟩
  refine ⟨?_, ?_, ?_, ?_, ?_⟩
  · rw [State.poolValid, State.poolValid, State.rb, State.rb, cfg]
  · rw [State.poolCount, State.poolCount, State.rf, State.rf, count]
  · rw [State.poolLog2, State.poolLog2, State.rf, State.rf, cfg]
  · rw [State.poolBase, State.poolBase, State.rd64, State.rd64, State.rdN, State.rdN, State.rdN, State.rdN, base.1, base.2]
  · rw [State.poolRing, State.poolRing, State.rd64, State.rd64, State.rdN, State.rdN, State.rdN, State.rdN, ring.1, ring.2]

theorem writesOnly.bufAddr (h : writesOnly cupWrites s t) (hk : k < 8) (i : Nat) : t.bufAddr k i = s.bufAddr k i := by
  obtain ⟨-, -, log2, base, -⟩ := h.pool hk
  rw [State.bufAddr, State.bufAddr, log2, base]

end

/-! ## What an operation of the free store leaves -/

/-- Only such registers were written, and a reclaim stands where it stood. -/
def cupStep (s t : State) : Prop := writesOnly cupWrites s t ∧ t.cup.reclaimPos = s.cup.reclaimPos

/-- The same buffers are allocated. -/
def allocStands (s t : State) : Prop := ∀ k, (t.pool k).alloc = (s.pool k).alloc

section
variable {s t u : State}

theorem cupStep.refl (s : State) : cupStep s s := ⟨.refl _ s, rfl⟩

theorem cupStep.trans (h : cupStep s t) (k : cupStep t u) : cupStep s u := ⟨h.1.trans k.1, k.2.trans h.2⟩

theorem cupStep.of_same (h : writesOnly cupWrites s t) (same : t.cup = s.cup) : cupStep s t := ⟨h, by rw [same]⟩

/-- A request to Cellar. -/
theorem cupStep.cel (h : writesOnly celWrites s t) (same : t.cup = s.cup) : cupStep s t :=
  .of_same (h.mono fun _ => cupWrites_celWrites) same

theorem cupStep.regsStand (h : regsStand s t) (same : t.cup = s.cup) : cupStep s t := .of_same (.of_regsStand h) same

theorem allocStands.refl (s : State) : allocStands s s := fun _ => rfl

theorem allocStands.trans (h : allocStands s t) (k : allocStands t u) : allocStands s u := fun j => (k j).trans (h j)

theorem State.pool_congr (same : t.cup = s.cup) (k : Nat) : t.pool k = s.pool k := by rw [State.pool, State.pool, same]

theorem allocStands.of_same (same : t.cup = s.cup) : allocStands s t := fun k => by rw [State.pool_congr same]

end

/-! ## A pool is replaced, and its levels follow (R381) -/

section
variable (s : State) (k : Nat) (p : Pool)

/-- A level entered or left. -/
def State.levelStep (k free : Nat) (t : State) (l : Nat) : State :=
  if !(t.poolLevel k l) && decide (t.poolThr k l ≠ 0 ∧ free < t.poolThr k l) then
    (t.setB (cupPoolStatus k) (27 + l)).count evCupLevelEntry k l
  else if t.poolLevel k l && decide (t.poolThr k l + 64 ≤ free) then t.putB (cupPoolStatus k) (27 + l) false
  else t

theorem State.levels_eq : s.levels k =
    (s.wf (cupPoolStatus k) 21 0 (s.pool k).free).each (upto 3) (State.levelStep k (s.pool k).free) := rfl

theorem State.levelStep_writes (free l : Nat) : writesOnly (· = cupPoolStatus k) s (State.levelStep k free s l) := by
  unfold State.levelStep
  have same := writesOnly.refl (· = cupPoolStatus k) s
  exact .ite ((same.setB rfl _).count _ _ _) (.ite (same.putB rfl _ _) same)

/-- A level moves its own bit of the status alone. -/
theorem State.rf_levelStep (free l hi lo : Nat) (hl : l < 3) (hh : hi < 32) (apart : hi < 27 ∨ 29 < lo) :
    (State.levelStep k free s l).rf (cupPoolStatus k) hi lo = s.rf (cupPoolStatus k) hi lo := by
  unfold State.levelStep
  split
  · rw [(regsStand.count _ _ _ _).rf hi lo (offWrap_cupPoolStatus k), State.setB,
      State.rf_wf_ne _ _ _ _ _ _ _ (Nat.le_refl _) (by omega) hh (by omega)]
  · split
    · rw [State.putB, State.rf_wf_ne _ _ _ _ _ _ _ (Nat.le_refl _) (by omega) hh (by omega)]
    · rfl

theorem State.levels_writes : writesOnly (· = cupPoolStatus k) s (s.levels k) := by
  rw [State.levels_eq]
  exact ((writesOnly.refl (· = cupPoolStatus k) s).wf rfl _ _ _).each fun t l _ => t.levelStep_writes k _ l

/-- FREE shows what is free, and STATE stands. -/
theorem State.levels_status (hi lo : Nat) (hh : hi < 32) (apart : hi < 27 ∨ 29 < lo) :
    (s.levels k).rf (cupPoolStatus k) hi lo =
      (s.wf (cupPoolStatus k) 21 0 (s.pool k).free).rf (cupPoolStatus k) hi lo := by
  rw [State.levels_eq]
  exact State.each_stands (g := fun t => t.rf (cupPoolStatus k) hi lo) fun t l hl =>
    t.rf_levelStep k _ l hi lo (mem_upto.1 hl) hh apart

theorem State.setPool_writes : writesOnly (· = cupPoolStatus k) s (s.setPool k p) :=
  ((writesOnly.refl _ s).regs rfl).trans (State.levels_writes _ k)

theorem State.cup_setPool : (s.setPool k p).cup = { s.cup with pools := tput s.cup.pools k p } :=
  ({ s with cup := { s.cup with pools := tput s.cup.pools k p } } : State).levels_keeps k |>.same .cup (by decide)

theorem State.pool_setPool_same : (s.setPool k p).pool k = p := by
  rw [State.pool, State.cup_setPool, tget_tput_same]

theorem State.pool_setPool_ne {j : Nat} (ne : j ≠ k) : (s.setPool k p).pool j = s.pool j := by
  rw [State.pool, State.cup_setPool, tget_tput_ne _ _ _ _ _ ne, State.pool]

theorem State.setPool_step (hk : k < 8) : cupStep s (s.setPool k p) :=
  ⟨(s.setPool_writes k p).mono fun _ => (· ▸ cupWrites_cupPoolStatus hk), by rw [State.cup_setPool]⟩

theorem State.setPool_alloc (same : p.alloc = (s.pool k).alloc) : allocStands s (s.setPool k p) := fun j => by
  by_cases h : j = k
  · rw [h, State.pool_setPool_same, same]
  · rw [State.pool_setPool_ne _ _ _ h]

/-- FREE shows a new pool's free buffers; STATE stands. -/
theorem State.setPool_shows (fits : p.free < 2 ^ 22) : (s.setPool k p).rf (cupPoolStatus k) 21 0 = p.free ∧
    (s.setPool k p).rf (cupPoolStatus k) 31 30 = s.rf (cupPoolStatus k) 31 30 := by
  have free : ({ s with cup := { s.cup with pools := tput s.cup.pools k p } } : State).pool k = p := tget_tput_same _ _ _ _
  refine ⟨?_, ?_⟩
  · rw [State.setPool, State.levels_status _ _ _ _ (by decide) (.inl (by decide)), free]
    exact State.rf_wf_fits _ _ (by decide) (by decide) fits
  · rw [State.setPool, State.levels_status _ _ _ _ (by decide) (.inr (by decide)),
      State.rf_wf_ne _ _ _ _ _ _ _ (by decide) (by decide) (by decide) (.inr (by decide))]
    rfl

end

/-! ## The bitmap's code (R389) -/

section
variable {s : State} {k w : Nat}

theorem State.bitmapCheck_ok (good : s.eccOf .cupBitmap (k * 65536 + w) = .ok) : s.bitmapCheck k w = s := by
  rw [State.bitmapCheck, good]

theorem State.bitmapCheck_corr (corr : s.eccOf .cupBitmap (k * 65536 + w) = .corr) : s.bitmapCheck k w =
    (((s.eccClear .cupBitmap (k * 65536 + w)).setB cupErr 1).report 0x25 k (BitVec.ofNat 32 (k * 2 ^ 21 + w))).count
      evCupEccCorr 0 0 := by rw [State.bitmapCheck, corr]

/-- An uncorrectable word's buffers are out of service. -/
def State.wordOut (s : State) (k w : Nat) : State :=
  (s.eccClear .cupBitmap (k * 65536 + w)).setPool k { s.pool k with oos := sadd (s.pool k).oos w }

theorem State.bitmapCheck_uncorr (uncorr : s.eccOf .cupBitmap (k * 65536 + w) = .uncorr) : s.bitmapCheck k w =
    ((((s.wordOut k w).setB cupErr 2).wr cupErrLoc (BitVec.ofNat 32 (k * 2 ^ 21 + w))).report 0x26 k
      (BitVec.ofNat 32 (k * 2 ^ 21 + w))).count evCupEccUncorr 0 0 := by
  rw [State.bitmapCheck, uncorr]
  rfl

theorem State.bitmapCheck_step (s : State) (w : Nat) (hk : k < 8) :
    cupStep s (s.bitmapCheck k w) ∧ allocStands s (s.bitmapCheck k w) := by
  have clear : (s.eccClear .cupBitmap (k * 65536 + w)).cup = s.cup :=
    (s.eccClear_keeps _ _).same .cup (by decide)
  have cleared : writesOnly cupWrites s (s.eccClear .cupBitmap (k * 65536 + w)) :=
    (writesOnly.refl _ s).keeps (s.eccClear_keeps _ _) (by decide)
  rcases h : s.eccOf .cupBitmap (k * 65536 + w) with _ | _ | _
  · rw [State.bitmapCheck_ok h]
    exact ⟨.refl s, .refl s⟩
  · rw [State.bitmapCheck_corr h]
    have same : ((((s.eccClear .cupBitmap (k * 65536 + w)).setB cupErr 1).report 0x25 k
        (BitVec.ofNat 32 (k * 2 ^ 21 + w))).count evCupEccCorr 0 0).cup = s.cup := by
      rw [State.cup_count, State.cup_report, State.setB_cup, clear]
    exact ⟨.of_same (((cleared.setB cupWrites_cupErr 1).report _ _ _).count _ _ _) same, .of_same same⟩
  · rw [State.bitmapCheck_uncorr h]
    have told (t : State) : cupStep t ((((t.setB cupErr 2).wr cupErrLoc (BitVec.ofNat 32 (k * 2 ^ 21 + w))).report 0x26 k
        (BitVec.ofNat 32 (k * 2 ^ 21 + w))).count evCupEccUncorr 0 0) ∧ ((((t.setB cupErr 2).wr cupErrLoc
        (BitVec.ofNat 32 (k * 2 ^ 21 + w))).report 0x26 k (BitVec.ofNat 32 (k * 2 ^ 21 + w))).count evCupEccUncorr 0 0).cup =
          t.cup := by
      have same : ((((t.setB cupErr 2).wr cupErrLoc (BitVec.ofNat 32 (k * 2 ^ 21 + w))).report 0x26 k
          (BitVec.ofNat 32 (k * 2 ^ 21 + w))).count evCupEccUncorr 0 0).cup = t.cup := by
        rw [State.cup_count, State.cup_report, State.wr_cup, State.setB_cup]
      exact ⟨.of_same (((((writesOnly.refl _ t).setB cupWrites_cupErr 2).wr cupWrites_cupErrLoc _).report _ _ _).count _ _ _)
        same, same⟩
    have out : cupStep s (s.wordOut k w) := (cupStep.of_same cleared clear).trans (State.setPool_step _ _ _ hk)
    have alloc : allocStands s (s.wordOut k w) := (allocStands.of_same clear).trans
      (State.setPool_alloc _ _ _ (by rw [State.pool_congr clear]))
    exact ⟨out.trans (told _).1, alloc.trans (.of_same (told _).2)⟩

end

/-! ## The ring and the cache (R380) -/

section
variable (s : State) (k : Nat)

theorem State.celRead_cup (req a n : Nat) : (s.celRead req a n).1.cup = s.cup :=
  (s.celRead_keeps req a n).same .cup (by decide)

theorem State.celWrite_cup (req a : Nat) (bs : List Byte) : (s.celWrite req a bs).cup = s.cup :=
  (s.celWrite_keeps req a bs).same .cup (by decide)

theorem State.ringRead_cup (h n : Nat) : (s.ringRead k h n).1.cup = s.cup :=
  (s.ringRead_keeps k h n).same .cup (by decide)

theorem State.ringRead_writes (h n : Nat) : writesOnly celWrites s (s.ringRead k h n).1 := by
  unfold State.ringRead
  dsimp only
  split
  · exact s.celRead_writes _ _ _
  · exact (s.celRead_writes _ _ _).trans (State.celRead_writes _ _ _ _)

/-- The pool after a refill of `n` indices that brought `got`. -/
def Pool.refilled (p : Pool) (count n : Nat) (got : List Nat) : Pool :=
  { p with cache := p.cache ++ got, head := (p.head + n) % count, cnt := p.cnt - n }

/-- The indices that a ring's bytes hold. -/
def ringIndices (n : Nat) (bs : List Byte) : List Nat := (upto n).map fun i => leNat (slice bs (4 * i) 4)

theorem length_ringIndices (n : Nat) (bs : List Byte) : (ringIndices n bs).length = n := by
  simp [ringIndices, upto]

theorem State.cacheRefill_none (h : (s.pool k).cnt = 0) : s.cacheRefill k = s := by
  refine if_pos ?_
  rw [h]
  rfl

/-- A refill whose read answers brings the indices; one that answers poison loses them. -/
theorem State.cacheRefill_reads (h : (s.pool k).cnt ≠ 0) : let n := min 64 (s.pool k).cnt
    let r := s.ringRead k (s.pool k).head n
    s.cacheRefill k = match r.2 with
      | some bs => r.1.setPool k ((s.pool k).refilled (s.poolCount k) n (ringIndices n bs))
      | none => (((r.1.setPool k ((s.pool k).refilled (s.poolCount k) n [])).setB cupErr 3).report 0x27 k
          (BitVec.ofNat 32 (k * 2 ^ 21))).countBy evCupRingBad k 0 n := by
  intro n r
  have some_ : n ≠ 0 := by omega
  have pos : s.cacheRefill k = _ := if_neg some_
  rw [pos]
  rcases e : r.2 with _ | bs
  · exact if_neg (Ne.symm some_)
  · exact if_pos (length_ringIndices n bs)

theorem State.cacheRefill_step (hk : k < 8) : cupStep s (s.cacheRefill k) ∧ allocStands s (s.cacheRefill k) := by
  by_cases none : (s.pool k).cnt = 0
  · rw [s.cacheRefill_none k none]
    exact ⟨.refl s, .refl s⟩
  have read := s.ringRead_writes k (s.pool k).head (min 64 (s.pool k).cnt)
  have same := s.ringRead_cup k (s.pool k).head (min 64 (s.pool k).cnt)
  have out := s.cacheRefill_reads k none
  dsimp only at out
  have put (got : List Nat) : cupStep s ((s.ringRead k (s.pool k).head (min 64 (s.pool k).cnt)).1.setPool k
      ((s.pool k).refilled (s.poolCount k) (min 64 (s.pool k).cnt) got)) ∧
      allocStands s ((s.ringRead k (s.pool k).head (min 64 (s.pool k).cnt)).1.setPool k
        ((s.pool k).refilled (s.poolCount k) (min 64 (s.pool k).cnt) got)) :=
    ⟨(cupStep.cel read same).trans (State.setPool_step _ _ _ hk),
      (allocStands.of_same same).trans (State.setPool_alloc _ _ _ (by rw [State.pool_congr same]; rfl))⟩
  rw [out]
  split
  · exact put _
  · obtain ⟨step, alloc⟩ := put []
    generalize (s.ringRead k (s.pool k).head (min 64 (s.pool k).cnt)).1.setPool k _ = t at *
    have cup : (((t.setB cupErr 3).report 0x27 k (BitVec.ofNat 32 (k * 2 ^ 21))).countBy evCupRingBad k 0
        (min 64 (s.pool k).cnt)).cup = t.cup := by rw [State.cup_countBy, State.cup_report, State.setB_cup]
    exact ⟨step.trans (.of_same ((((writesOnly.refl _ t).setB cupWrites_cupErr 3).report _ _ _).countBy _ _ _ _) cup),
      alloc.trans (.of_same cup)⟩

end

end Sys2Proof.Machine

/-! PROOFS. Grants, the checks on a handle, frees and shares (R379 to R386). -/

namespace Sys2Proof.Machine

/-! ## Owner records (R383) -/

section
variable (s : State)

theorem State.ownerRead_step (buf : Nat) : cupStep s (s.ownerRead buf).1 ∧ allocStands s (s.ownerRead buf).1 := by
  have same := s.celRead_cup 0x13 (s.ownerAddr buf) 8
  exact ⟨.cel (s.celRead_writes _ _ _) same, .of_same same⟩

theorem State.ownerWrite_cup (buf : Nat) (r : OwnerRec) : (s.ownerWrite buf r).cup = s.cup := s.celWrite_cup _ _ _

theorem State.ownerWrite_step (buf : Nat) (r : OwnerRec) : cupStep s (s.ownerWrite buf r) :=
  .cel (s.celWrite_writes _ _ _) (s.ownerWrite_cup buf r)

theorem State.count_cupStep (e o i : Nat) : cupStep s (s.count e o i) := .regsStand (.count s e o i) (s.cup_count e o i)

end

/-! ## The next index (R380) -/

section
variable {s t u : State} {k i : Nat}

/-- A step that leaves the same buffers allocated. -/
def cupKeeps (s t : State) : Prop := cupStep s t ∧ allocStands s t

theorem cupKeeps.refl (s : State) : cupKeeps s s := ⟨.refl s, .refl s⟩

theorem cupKeeps.trans (h : cupKeeps s t) (g : cupKeeps t u) : cupKeeps s u := ⟨h.1.trans g.1, h.2.trans g.2⟩

/-- Buffer `i` of pool `k` is there and not allocated. -/
def State.freeIndex (s : State) (k i : Nat) : Prop := i < s.poolCount k ∧ shas (s.pool k).alloc i = false

theorem cupKeeps.freeIndex (h : cupKeeps s t) (hk : k < 8) : t.freeIndex k i ↔ s.freeIndex k i := by
  obtain ⟨-, count, -⟩ := h.1.1.pool hk
  rw [State.freeIndex, State.freeIndex, count, h.2]

/-- The front of a cache that holds an index goes. -/
def State.popCache (s : State) (k : Nat) (rest : List Nat) : State := s.setPool k { s.pool k with cache := rest }

/-- A cache that is empty is refilled first. -/
def State.fillCache (s : State) (k : Nat) : State := if (s.pool k).cache.isEmpty then s.cacheRefill k else s

/-- An index is discarded and reported. -/
def State.ringBad (s : State) (k i : Nat) : State :=
  ((s.setB cupErr 3).report 0x27 k (BitVec.ofNat 32 (k * 2 ^ 21 + i / 64))).count evCupRingBad k 0

theorem State.takeIndex_zero (s : State) (k : Nat) : State.takeIndex k 0 s = (s, none) := rfl

theorem State.takeIndex_succ (s : State) (k fuel : Nat) : State.takeIndex k (fuel + 1) s =
    match ((s.fillCache k).pool k).cache with
    | [] => (s.fillCache k, none)
    | i :: rest =>
      if s.poolCount k ≤ i ∨ shas ((((s.fillCache k).popCache k rest).bitmapCheck k (i / 64)).pool k).alloc i then
        State.takeIndex k fuel ((((s.fillCache k).popCache k rest).bitmapCheck k (i / 64)).ringBad k i)
      else if shas ((((s.fillCache k).popCache k rest).bitmapCheck k (i / 64)).pool k).oos (i / 64) then
        State.takeIndex k fuel (((s.fillCache k).popCache k rest).bitmapCheck k (i / 64))
      else ((((s.fillCache k).popCache k rest).bitmapCheck k (i / 64)), some i) := by
  rw [State.takeIndex]
  rfl

theorem State.fillCache_keeps (s : State) (hk : k < 8) : cupKeeps s (s.fillCache k) := by
  unfold State.fillCache
  split
  · exact s.cacheRefill_step k hk
  · exact .refl s

theorem State.popCache_keeps (s : State) (rest : List Nat) (hk : k < 8) : cupKeeps s (s.popCache k rest) :=
  ⟨s.setPool_step k _ hk, s.setPool_alloc k _ rfl⟩

theorem State.ringBad_keeps (s : State) (k i : Nat) : cupKeeps s (s.ringBad k i) := by
  have same : (s.ringBad k i).cup = s.cup := by
    rw [State.ringBad, State.cup_count, State.cup_report, State.setB_cup]
  exact ⟨.of_same ((((writesOnly.refl _ s).setB cupWrites_cupErr 3).report _ _ _).count _ _ _) same, .of_same same⟩

/-- An index that is taken is free, and no buffer becomes allocated. -/
theorem State.takeIndex_takes (hk : k < 8) (fuel : Nat) (s : State) : cupKeeps s (State.takeIndex k fuel s).1 ∧
    ∀ i, (State.takeIndex k fuel s).2 = some i → s.freeIndex k i := by
  induction fuel generalizing s with
  | zero =>
    rw [State.takeIndex_zero]
    exact ⟨.refl s, fun i h => absurd h (by simp)⟩
  | succ fuel ih =>
    rw [State.takeIndex_succ]
    have filled := s.fillCache_keeps hk
    split
    · exact ⟨filled, fun i h => absurd h (by simp)⟩
    · next i rest cache =>
      have checked : cupKeeps s (((s.fillCache k).popCache k rest).bitmapCheck k (i / 64)) :=
        (filled.trans (State.popCache_keeps _ rest hk)).trans (State.bitmapCheck_step _ (i / 64) hk)
      generalize ((s.fillCache k).popCache k rest).bitmapCheck k (i / 64) = t at checked ⊢
      have again (u : State) (h : cupKeeps s u) : cupKeeps s (State.takeIndex k fuel u).1 ∧
          ∀ j, (State.takeIndex k fuel u).2 = some j → s.freeIndex k j :=
        ⟨h.trans (ih u).1, fun j e => (h.freeIndex hk).1 ((ih u).2 j e)⟩
      split
      · exact again _ (checked.trans (State.ringBad_keeps _ _ _))
      · next good =>
        split
        · exact again _ checked
        · refine ⟨checked, fun j e => ?_⟩
          obtain rfl := Option.some.inj e
          rw [not_or, Bool.not_eq_true] at good
          refine ⟨Nat.lt_of_not_le good.1, ?_⟩
          rw [← checked.2 k]
          exact good.2

/-! ## Grants (R379 to R382) -/

/-- The generation after one (R383). -/
def nextGen (g : Nat) : Nat := if g = 255 then 1 else g + 1

/-- Buffer `i` becomes allocated. -/
def State.allocate (s : State) (k i : Nat) : State :=
  s.setPool k { s.pool k with alloc := sadd (s.pool k).alloc i }

/-- The buffer at `buf`, number `i` of pool `k`, is granted. -/
def State.granted (s : State) (owner k i buf : Nat) (r : OwnerRec) : State :=
  ((s.allocate k i).ownerWrite buf ⟨owner, 0, nextGen r.gen, 0, 0⟩).count evCupGrant k 0

theorem State.grantFrom_zero (s : State) (owner k : Nat) : State.grantFrom owner k 0 s = (s, none) := rfl

theorem State.grantFrom_succ (s : State) (owner k fuel : Nat) : State.grantFrom owner k (fuel + 1) s =
    match State.takeIndex k ((s.pool k).free + 1) s with
    | (s1, none) => (s1, none)
    | (s1, some i) =>
      match s1.ownerRead (s1.bufAddr k i) with
      | (s2, none) => State.grantFrom owner k fuel s2
      | (s2, some r) => (s2.granted owner k i (s1.bufAddr k i) r, some (s1.bufAddr k i)) := by
  rw [State.grantFrom]
  rfl

theorem State.granted_cup (s : State) (owner k i buf : Nat) (r : OwnerRec) :
    (s.granted owner k i buf r).cup = (s.allocate k i).cup := by
  rw [State.granted, State.cup_count, State.ownerWrite_cup]

theorem State.granted_step (s : State) (owner i buf : Nat) (r : OwnerRec) (hk : k < 8) :
    cupStep s (s.granted owner k i buf r) :=
  ((s.setPool_step k _ hk).trans (State.ownerWrite_step _ _ _)).trans (State.count_cupStep _ _ _ _)

theorem State.granted_alloc (s : State) (owner k i buf : Nat) (r : OwnerRec) :
    shas ((s.granted owner k i buf r).pool k).alloc i = true := by
  rw [State.pool_congr (s.granted_cup owner k i buf r), State.allocate, State.pool_setPool_same, shas_sadd_same]

/-- What a grant hands out is a buffer of the pool that was free, now allocated; without one nothing becomes
allocated. -/
def grantsFrom (k : Nat) (s : State) (r : State × Option Nat) : Prop := cupStep s r.1 ∧
  (r.2 = none → allocStands s r.1) ∧
  ∀ buf, r.2 = some buf → ∃ i, buf = s.bufAddr k i ∧ s.freeIndex k i ∧ shas (r.1.pool k).alloc i = true

theorem grantsFrom.after {r : State × Option Nat} (h : cupKeeps s t) (hk : k < 8) (g : grantsFrom k t r) :
    grantsFrom k s r := by
  obtain ⟨step, none, some_⟩ := g
  refine ⟨h.1.trans step, fun e => h.2.trans (none e), fun buf e => ?_⟩
  obtain ⟨i, is, free, alloc⟩ := some_ buf e
  exact ⟨i, is.trans (h.1.1.bufAddr hk i), (h.freeIndex hk).1 free, alloc⟩

theorem State.grantFrom_grants (owner : Nat) (hk : k < 8) (fuel : Nat) (s : State) :
    grantsFrom k s (State.grantFrom owner k fuel s) := by
  induction fuel generalizing s with
  | zero => exact ⟨.refl s, fun _ => .refl s, fun buf e => absurd e (by rw [State.grantFrom_zero]; simp)⟩
  | succ fuel ih =>
    rw [State.grantFrom_succ]
    obtain ⟨kept, free⟩ := State.takeIndex_takes hk ((s.pool k).free + 1) s
    generalize State.takeIndex k ((s.pool k).free + 1) s = x at kept free ⊢
    obtain ⟨t, _ | i⟩ := x
    · exact ⟨kept.1, fun _ => kept.2, fun buf e => absurd e (by simp)⟩
    · have read : cupKeeps t (t.ownerRead (t.bufAddr k i)).1 := t.ownerRead_step (t.bufAddr k i)
      dsimp only
      generalize t.ownerRead (t.bufAddr k i) = y at read ⊢
      obtain ⟨u, _ | r⟩ := y
      · exact (ih u).after (kept.trans read) hk
      · refine ⟨(kept.trans read).1.trans (u.granted_step owner i _ r hk), fun e => absurd e (by simp), fun buf e => ?_⟩
        obtain rfl := Option.some.inj e
        exact ⟨i, kept.1.1.bufAddr hk i, free i rfl, u.granted_alloc owner k i _ r⟩

/-- A request that passes along the chain: what it hands out is a free buffer of that pool or of a larger one. -/
def grantsChain (k : Nat) (s : State) (r : State × Option (Nat × Nat)) : Prop := cupStep s r.1 ∧
  ∀ p buf, r.2 = some (p, buf) → k ≤ p ∧ p < 8 ∧ ∃ i, buf = s.bufAddr p i ∧ s.freeIndex p i ∧ shas (r.1.pool p).alloc i = true

theorem State.nextPool_spec {s : State} {k j : Nat} (h : s.nextPool k = some j) : k < j ∧ j < 8 := by
  have found := List.find?_some h
  rw [Bool.and_eq_true, decide_eq_true_iff] at found
  exact ⟨found.1, mem_upto.1 (List.mem_of_find?_eq_some h)⟩

/-- The first pool's own try. -/
def State.grantTry (s : State) (w : CupAsker) (owner k : Nat) : State × Option Nat :=
  if s.poolReady k && !(s.levelRefuses k w) then State.grantFrom owner k ((s.pool k).free + 1) s else (s, none)

theorem State.grantTry_grants (s : State) (w : CupAsker) (owner : Nat) (hk : k < 8) :
    grantsFrom k s (s.grantTry w owner k) := by
  unfold State.grantTry
  split
  · exact State.grantFrom_grants owner hk _ s
  · exact ⟨.refl s, fun _ => .refl s, fun buf e => absurd e (by simp)⟩

theorem State.grantChain_succ (w : CupAsker) (owner fuel k : Nat) (s : State) :
    State.grantChain w owner (fuel + 1) k s =
      match s.grantTry w owner k with
      | (s1, some buf) => (s1, some (k, buf))
      | (s1, none) =>
        if s1.rb (cupPoolCfg k) 30 then
          match s1.nextPool k with
          | some j => State.grantChain w owner fuel j (s1.count evCupUp k 0)
          | none => (s1, none)
        else (s1, none) := by
  rw [State.grantChain]
  rfl

theorem State.grantChain_grants (w : CupAsker) (owner fuel : Nat) (hk : k < 8) (s : State) :
    grantsChain k s (State.grantChain w owner fuel k s) := by
  induction fuel generalizing s k with
  | zero => exact ⟨.refl s, fun p buf e => absurd e (by rw [State.grantChain]; simp)⟩
  | succ fuel ih =>
    rw [State.grantChain_succ]
    obtain ⟨step, same, some_⟩ := s.grantTry_grants w owner hk
    generalize s.grantTry w owner k = x at step same some_ ⊢
    obtain ⟨t, _ | buf⟩ := x
    · have nothing : grantsChain k s (t, none) := ⟨step, fun p buf e => absurd e (by simp)⟩
      dsimp only
      split
      · split
        · next j next =>
          obtain ⟨larger, few⟩ := State.nextPool_spec next
          have counted : cupKeeps s (t.count evCupUp k 0) :=
            ⟨step.trans (t.count_cupStep _ _ _), (same rfl).trans (.of_same (t.cup_count _ _ _))⟩
          obtain ⟨on, hands⟩ := ih few (t.count evCupUp k 0)
          refine ⟨counted.1.trans on, fun p buf e => ?_⟩
          obtain ⟨le, hp, i, is, free, alloc⟩ := hands p buf e
          exact ⟨by omega, hp, i, is.trans (counted.1.1.bufAddr hp i), (counted.freeIndex hp).1 free, alloc⟩
        · exact nothing
      · exact nothing
    · refine ⟨step, fun p b e => ?_⟩
      obtain ⟨rfl, rfl⟩ := Prod.mk.inj (Option.some.inj e)
      obtain ⟨i, is, free, alloc⟩ := some_ buf rfl
      exact ⟨Nat.le_refl _, hk, i, is, free, alloc⟩

end

end Sys2Proof.Machine

/-! PROOFS. The function pages (R378, R385 to R387, R390). -/

namespace Sys2Proof.Machine

/-! ## The checks on a handle (R386) -/

section
variable {s s1 : State} {a k i : Nat} {gen : Option Nat}

theorem State.poolOf_lt {b : Bool} (h : s.poolOf a = some (k, i, b)) : k < 8 := by
  obtain ⟨j, hj, e⟩ := List.exists_of_findSome?_eq_some h
  dsimp only at e
  split at e
  · obtain ⟨rfl, -⟩ := Prod.mk.inj (Option.some.inj e)
    exact mem_upto.1 hj
  · exact absurd e (by simp)

theorem State.cupCheck_range (h : s.poolOf a = none) : s.cupCheck a gen = (s, .inl 1) := by
  rw [State.cupCheck, h]

theorem State.cupCheck_align (h : s.poolOf a = some (k, i, false)) : s.cupCheck a gen = (s, .inl 2) := by
  rw [State.cupCheck, h]
  rfl

theorem State.cupCheck_aligned (h : s.poolOf a = some (k, i, true)) : s.cupCheck a gen =
    if shas ((s.bitmapCheck k (i / 64)).pool k).oos (i / 64) then (s.bitmapCheck k (i / 64), .inl 8)
    else if !(shas ((s.bitmapCheck k (i / 64)).pool k).alloc i) then (s.bitmapCheck k (i / 64), .inl 3)
    else match (s.bitmapCheck k (i / 64)).ownerRead a with
      | (s2, none) => (s2, .inl 8)
      | (s2, some r) =>
        match gen with
        | some g => if g = r.gen then (s2, .inr (k, i, r)) else (s2, .inl 4)
        | none => (s2, .inr (k, i, r)) := by
  rw [State.cupCheck, h]
  rfl

theorem State.cupCheck_double (h : s.poolOf a = some (k, i, true))
    (good : s.eccOf .cupBitmap (k * 65536 + i / 64) = .ok) (inService : shas (s.pool k).oos (i / 64) = false)
    (free : shas (s.pool k).alloc i = false) : s.cupCheck a gen = (s, .inl 3) := by
  rw [State.cupCheck_aligned h, State.bitmapCheck_ok good, inService, free]
  rfl

/-- A check writes only such registers, allocates and frees nothing, and names a pool. -/
theorem State.cupCheck_spec (s : State) (a : Nat) (gen : Option Nat) : cupKeeps s (s.cupCheck a gen).1 ∧
    ∀ k i r, (s.cupCheck a gen).2 = .inr (k, i, r) → k < 8 := by
  rcases h : s.poolOf a with _ | ⟨k, i, _ | _⟩
  · rw [State.cupCheck_range h]
    exact ⟨.refl s, fun k i r e => absurd e (by simp)⟩
  · rw [State.cupCheck_align h]
    exact ⟨.refl s, fun k i r e => absurd e (by simp)⟩
  · have hk := State.poolOf_lt h
    have checked : cupKeeps s (s.bitmapCheck k (i / 64)) := s.bitmapCheck_step (i / 64) hk
    rw [State.cupCheck_aligned h]
    generalize s.bitmapCheck k (i / 64) = t at checked ⊢
    have refused (n : Nat) : cupKeeps s ((t, .inl n) : State × (Nat ⊕ (Nat × Nat × OwnerRec))).1 ∧
        ∀ k i r, ((t, .inl n) : State × (Nat ⊕ (Nat × Nat × OwnerRec))).2 = .inr (k, i, r) → k < 8 :=
      ⟨checked, fun k i r e => absurd e (by simp)⟩
    split
    · exact refused 8
    · split
      · exact refused 3
      · have read : cupKeeps s (t.ownerRead a).1 := checked.trans (t.ownerRead_step a)
        generalize t.ownerRead a = y at read ⊢
        obtain ⟨u, _ | r⟩ := y
        · exact ⟨read, fun k i r e => absurd e (by simp)⟩
        · have passed : cupKeeps s ((u, .inr (k, i, r)) : State × (Nat ⊕ (Nat × Nat × OwnerRec))).1 ∧
              ∀ p j q, ((u, .inr (k, i, r)) : State × (Nat ⊕ (Nat × Nat × OwnerRec))).2 = .inr (p, j, q) → p < 8 := by
            refine ⟨read, fun p j q e => ?_⟩
            obtain ⟨rfl, -⟩ := Prod.mk.inj (Sum.inr.inj e)
            exact hk
          rcases gen with _ | g
          · exact passed
          · dsimp only
            split
            · exact passed
            · exact ⟨read, fun p j q e => absurd e (by simp)⟩

end

/-! ## A buffer returns (R380, R385) -/

section
variable (s : State) (k : Nat)

/-- The pool after 64 indices left its cache for the ring. -/
def Pool.spilled (p : Pool) (count : Nat) : Pool :=
  { p with cache := p.cache.take (p.cache.length - 64), tail := (p.tail + 64) % count, cnt := p.cnt + 64 }

/-- The last 64 indices of a cache are written to the ring. -/
def State.ringWritten (s : State) (k : Nat) : State := (upto 64).foldl (fun (t : State) i =>
  t.celWrite 0x13 (s.poolRing k + 4 * (((s.pool k).tail + i) % s.poolCount k))
    (natLe 4 (((s.pool k).cache.drop ((s.pool k).cache.length - 64)).getD i 0))) s

theorem State.cacheSpill_eq : s.cacheSpill k = if (s.pool k).cache.length ≤ 448 then s
    else (s.ringWritten k).setPool k ((s.pool k).spilled (s.poolCount k)) := rfl

theorem State.ringWritten_step : cupStep s (s.ringWritten k) := by
  have written := (writesOnly.refl celWrites s).each (l := upto 64)
    (f := fun t i => t.celWrite 0x13 (s.poolRing k + 4 * (((s.pool k).tail + i) % s.poolCount k))
      (natLe 4 (((s.pool k).cache.drop ((s.pool k).cache.length - 64)).getD i 0))) fun t i _ => t.celWrite_writes _ _ _
  exact .cel written (State.each_stands (g := State.cup) fun t i _ => t.celWrite_cup _ _ _)

/-- A spill changes neither what is free nor what is allocated. -/
theorem State.cacheSpill_pool : ((s.cacheSpill k).pool k).free = (s.pool k).free ∧
    ((s.cacheSpill k).pool k).alloc = (s.pool k).alloc := by
  rw [State.cacheSpill_eq]
  split
  · exact ⟨rfl, rfl⟩
  · next many =>
    rw [State.pool_setPool_same]
    refine ⟨?_, rfl⟩
    simp only [Pool.free, Pool.spilled, List.length_take]
    omega

theorem State.cacheSpill_step (hk : k < 8) : cupStep s (s.cacheSpill k) := by
  rw [State.cacheSpill_eq]
  split
  · exact .refl s
  · exact (s.ringWritten_step k).trans (State.setPool_step _ _ _ hk)

variable (i : Nat) (r : OwnerRec)

/-- Buffer `i` goes back to its cache. -/
def State.backInCache (s : State) (k i : Nat) : State :=
  s.setPool k { s.pool k with alloc := sdel (s.pool k).alloc i, cache := (s.pool k).cache ++ [i] }

theorem State.bufReturn_eq : s.bufReturn k i r =
    (((s.ownerWrite (s.bufAddr k i) ⟨0, 0, r.gen, 0, 0⟩).backInCache k i).cacheSpill k).count evCupFree k 0 := rfl

/-- A buffer that returns is allocated no more and one more is free. -/
theorem State.bufReturn_frees : shas ((s.bufReturn k i r).pool k).alloc i = false ∧
    ((s.bufReturn k i r).pool k).free = (s.pool k).free + 1 := by
  have same : (s.ownerWrite (s.bufAddr k i) ⟨0, 0, r.gen, 0, 0⟩).pool k = s.pool k :=
    State.pool_congr (s.ownerWrite_cup _ _) k
  obtain ⟨free, alloc⟩ := ((s.ownerWrite (s.bufAddr k i) ⟨0, 0, r.gen, 0, 0⟩).backInCache k i).cacheSpill_pool k
  rw [State.bufReturn_eq, State.pool_congr (State.cup_count _ _ _ _), free, alloc, State.backInCache, State.pool_setPool_same, same]
  refine ⟨shas_sdel_same _ _, ?_⟩
  simp only [Pool.free, List.length_append, List.length_singleton]
  omega

theorem State.bufReturn_step (hk : k < 8) : cupStep s (s.bufReturn k i r) := by
  rw [State.bufReturn_eq]
  exact (((s.ownerWrite_step _ _).trans (State.setPool_step _ _ _ hk)).trans (State.cacheSpill_step _ _ hk)).trans
    (State.count_cupStep _ _ _ _)

end

/-! ## Frees and shares (R385) -/

section
variable {s s1 : State} {agent a k i : Nat} {gen : Option Nat} {r : OwnerRec}

theorem State.cupFree_refused {n : Nat} (h : s.cupCheck a gen = (s1, .inl n)) : s.cupFree agent a gen = (s1, n) := by
  rw [State.cupFree, h]

theorem State.cupFree_passed (h : s.cupCheck a gen = (s1, .inr (k, i, r))) : s.cupFree agent a gen =
    if r.mode = 0 then if r.owner = agent then (s1.bufReturn k i r, 0) else (s1, 5)
    else if r.last = agent then
      if r.holds = 0 then (s1.bufReturn k i r, 0) else (s1.ownerWrite a { r with mode := 2 }, 9)
    else if r.holds = 0 then (s1, 6)
    else if r.holds = 1 ∧ r.mode = 2 then (s1.bufReturn k i r, 0)
    else (s1.ownerWrite a { r with holds := r.holds - 1 }, 0) := by
  rw [State.cupFree, h]

theorem State.cupShare_refused {l h n : Nat} (c : s.cupCheck a gen = (s1, .inl n)) :
    s.cupShare agent a gen l h = (s1, n) := by
  rw [State.cupShare, c]

theorem State.cupShare_passed {l h : Nat} (c : s.cupCheck a gen = (s1, .inr (k, i, r))) :
    s.cupShare agent a gen l h = if r.owner ≠ agent then (s1, 5) else if r.mode ≠ 0 ∨ h = 0 then (s1, 7)
      else (s1.ownerWrite a { r with owner := l, last := l, holds := h, mode := 1 }, 0) := by
  rw [State.cupShare, c]

/-- A free writes only such registers. -/
theorem State.cupFree_step (s : State) (agent a : Nat) (gen : Option Nat) : cupStep s (s.cupFree agent a gen).1 := by
  obtain ⟨checked, few⟩ := s.cupCheck_spec a gen
  rcases h : s.cupCheck a gen with ⟨t, n | ⟨k, i, r⟩⟩
  · rw [State.cupFree_refused h]
    rw [h] at checked
    exact checked.1
  · rw [State.cupFree_passed h]
    rw [h] at checked few
    have hk := few k i r rfl
    have back : cupStep s (t.bufReturn k i r) := checked.1.trans (t.bufReturn_step k i r hk)
    have wrote (q : OwnerRec) : cupStep s (t.ownerWrite a q) := checked.1.trans (t.ownerWrite_step a q)
    split
    · split
      · exact back
      · exact checked.1
    · split
      · split
        · exact back
        · exact wrote _
      · split
        · exact checked.1
        · split
          · exact back
          · exact wrote _

end

/-! ## What a function is told (R387) -/

section
variable (s : State) (f r : Nat)

theorem State.fnResult_cup : (s.fnResult f r).cup = s.cup := (s.fnResult_keeps f r).same .cup (by decide)
theorem State.fnResult_cel : (s.fnResult f r).cel = s.cel := (s.fnResult_keeps f r).same .cel (by decide)

/-- The result stands in STATUS and, where it is an error, its bit in ERR. -/
theorem State.fnResult_tells (few : r < 16) : (s.fnResult f r).rf (cupFnStatus f) 3 0 = r ∧
    (1 ≤ r → r ≤ 8 → (s.fnResult f r).rb (cupFnErr f) r = true) := by
  have off : offWrap (cupFnStatus f) = true := offWrap_of_window (by unfold cupFnStatus; omega)
  have off' : offWrap (cupFnErr f) = true := offWrap_of_window (by unfold cupFnErr; omega)
  have apart : cupFnStatus f ≠ cupFnErr f := by unfold cupFnStatus cupFnErr; omega
  have told : (s.wf (cupFnStatus f) 3 0 r).rf (cupFnStatus f) 3 0 = r := State.rf_wf_fits _ _ (by decide) (by decide) few
  unfold State.fnResult
  dsimp only
  split
  · refine ⟨?_, fun _ _ => ?_⟩
    · rw [(regsStand.count _ _ _ _).rf 3 0 off, State.setB, State.rf, State.rd_wf_ne _ _ _ _ apart]
      exact told
    · rw [(regsStand.count _ _ _ _).rb r off']
      exact State.rb_setB _ _ _ (by omega)
  · next not =>
    exact ⟨told, fun lo hi => absurd ⟨lo, hi⟩ not⟩

/-- A function's result and its error bit. -/
def State.fnTold (u : State) (f r : Nat) : Prop :=
  u.rf (cupFnStatus f) 3 0 = r ∧ (1 ≤ r → r ≤ 8 → u.rb (cupFnErr f) r = true)

variable {s f r} {v : Word}

theorem State.exec_bufferFree {t : State} (h : s.cupFree (ownerFn f) (s.handleAddr v.toNat) (some (fld v 31 24)) = (t, r)) :
    exec (.bufferFree f v) s = .next (t.fnResult f r) := by
  have out : exec (.bufferFree f v) s = .next (s.fnFree f v) := rfl
  rw [out, State.fnFree, h]

theorem State.exec_bufferShare {t : State} (h : s.cupShare (ownerFn f) (s.handleAddr (s.rdN (cupFnShareRef f)))
    (some (s.rdN (cupFnShareRef f) / 2 ^ 24)) (fld v 15 0) (fld v 31 24) = (t, r)) :
    exec (.bufferShare f v) s = .next (t.fnResult f r) := by
  have out : exec (.bufferShare f v) s = .next (s.fnShare f v) := rfl
  rw [out, State.fnShare, h]

theorem State.fnTold_fnResult (t : State) (few : r < 16) : (t.fnResult f r).fnTold f r := t.fnResult_tells f r few

/-- A free that is refused changes nothing but what the function is told. -/
theorem exec_bufferFree_refused (h : s.cupCheck (s.handleAddr v.toNat) (some (fld v 31 24)) = (s, .inl r)) (few : r < 16) :
    ∃ u, exec (.bufferFree f v) s = .next u ∧ u.fnTold f r ∧ onlyIn [.regs, .mast] s u :=
  ⟨_, State.exec_bufferFree (State.cupFree_refused h), State.fnTold_fnResult _ few, (s.fnResult_keeps f r).same⟩

/-- A free that passes its checks (R385). -/
theorem exec_bufferFree_passed {s1 : State} {k i : Nat} {q : OwnerRec}
    (h : s.cupCheck (s.handleAddr v.toNat) (some (fld v 31 24)) = (s1, .inr (k, i, q))) :
    let freed : Prop := ∃ u, exec (.bufferFree f v) s = .next u ∧ u.fnTold f 0 ∧ shas (u.pool k).alloc i = false ∧
      (u.pool k).free = (s1.pool k).free + 1
    let kept (n : Nat) : Prop := ∃ u, exec (.bufferFree f v) s = .next u ∧ u.fnTold f n ∧ u.cup = s1.cup
    (q.mode = 0 → q.owner = ownerFn f → freed) ∧
    (q.mode = 0 → q.owner ≠ ownerFn f → kept 5) ∧
    (q.mode ≠ 0 → q.last = ownerFn f → q.holds = 0 → freed) ∧
    (q.mode ≠ 0 → q.last = ownerFn f → q.holds ≠ 0 → kept 9) ∧
    (q.mode ≠ 0 → q.last ≠ ownerFn f → q.holds = 0 → kept 6) ∧
    (q.mode = 2 → q.last ≠ ownerFn f → q.holds = 1 → freed) ∧
    (q.mode ≠ 0 → q.last ≠ ownerFn f → 1 < q.holds ∨ (q.holds = 1 ∧ q.mode ≠ 2) →
      ∃ u, exec (.bufferFree f v) s = .next u ∧ u.fnTold f 0 ∧ u.cup = s1.cup ∧
        u.cel = (s1.ownerWrite (s.handleAddr v.toNat) { q with holds := q.holds - 1 }).cel) := by
  intro freed kept
  have free {t : State} {n : Nat} (e : s.cupFree (ownerFn f) (s.handleAddr v.toNat) (some (fld v 31 24)) = (t, n)) :
      exec (.bufferFree f v) s = .next (t.fnResult f n) := State.exec_bufferFree e
  have passed := State.cupFree_passed (agent := ownerFn f) h
  have back (e : s.cupFree (ownerFn f) (s.handleAddr v.toNat) (some (fld v 31 24)) = (s1.bufReturn k i q, 0)) : freed := by
    obtain ⟨cleared, more⟩ := s1.bufReturn_frees k i q
    refine ⟨_, free e, State.fnTold_fnResult _ (by decide), ?_, ?_⟩
    · rw [State.pool_congr (State.fnResult_cup _ _ _)]
      exact cleared
    · rw [State.pool_congr (State.fnResult_cup _ _ _)]
      exact more
  have stays {t : State} {n : Nat} (few : n < 16) (same : t.cup = s1.cup)
      (e : s.cupFree (ownerFn f) (s.handleAddr v.toNat) (some (fld v 31 24)) = (t, n)) : kept n :=
    ⟨_, free e, State.fnTold_fnResult _ few, (State.fnResult_cup _ _ _).trans same⟩
  refine ⟨fun plain own => back ?_, fun plain other => stays (t := s1) (by decide) rfl ?_, fun shared last none => back ?_,
    fun shared last some_ => ?_,
    fun shared other none => stays (t := s1) (by decide) rfl ?_, fun pending other one => back ?_,
    fun shared other some_ => ?_⟩
  · rw [passed, if_pos plain, if_pos own]
  · rw [passed, if_pos plain, if_neg other]
  · rw [passed, if_neg shared, if_pos last, if_pos none]
  · rw [if_neg shared, if_pos last, if_neg some_] at passed
    exact stays (by decide) (s1.ownerWrite_cup _ _) passed
  · rw [passed, if_neg shared, if_neg other, if_pos none]
  · rw [passed, if_neg (by omega), if_neg other, if_neg (by omega), if_pos ⟨one, pending⟩]
  · rw [if_neg shared, if_neg other, if_neg (by omega), if_neg (by omega)] at passed
    exact ⟨_, free passed, State.fnTold_fnResult _ (by decide),
      (State.fnResult_cup _ _ _).trans (s1.ownerWrite_cup _ _), State.fnResult_cel _ _ _⟩

/-- A share that passes its checks (R385). -/
theorem exec_bufferShare_passed {s1 : State} {k i : Nat} {q : OwnerRec}
    (h : s.cupCheck (s.handleAddr (s.rdN (cupFnShareRef f))) (some (s.rdN (cupFnShareRef f) / 2 ^ 24)) = (s1, .inr (k, i, q))) :
    (q.owner ≠ ownerFn f → ∃ u, exec (.bufferShare f v) s = .next u ∧ u.fnTold f 5 ∧ u.cel = s1.cel ∧ u.cup = s1.cup) ∧
    (q.owner = ownerFn f → q.mode ≠ 0 ∨ fld v 31 24 = 0 → ∃ u, exec (.bufferShare f v) s = .next u ∧ u.fnTold f 7 ∧
      u.cel = s1.cel ∧ u.cup = s1.cup) ∧
    (q.owner = ownerFn f → q.mode = 0 → fld v 31 24 ≠ 0 → ∃ u, exec (.bufferShare f v) s = .next u ∧ u.fnTold f 0 ∧
      u.cup = s1.cup ∧ u.cel = (s1.ownerWrite (s.handleAddr (s.rdN (cupFnShareRef f)))
        ⟨fld v 15 0, fld v 15 0, q.gen, fld v 31 24, 1⟩).cel) := by
  have passed := State.cupShare_passed (agent := ownerFn f) (l := fld v 15 0) (h := fld v 31 24) h
  refine ⟨fun other => ?_, fun own not => ?_, fun own plain some_ => ?_⟩
  · rw [if_pos other] at passed
    exact ⟨_, State.exec_bufferShare passed, State.fnTold_fnResult _ (by decide), State.fnResult_cel _ _ _,
      State.fnResult_cup _ _ _⟩
  · rw [if_neg (not_not.2 own), if_pos not] at passed
    exact ⟨_, State.exec_bufferShare passed, State.fnTold_fnResult _ (by decide), State.fnResult_cel _ _ _,
      State.fnResult_cup _ _ _⟩
  · rw [if_neg (not_not.2 own), if_neg (by rw [plain]; omega)] at passed
    exact ⟨_, State.exec_bufferShare passed, State.fnTold_fnResult _ (by decide),
      (State.fnResult_cup _ _ _).trans (s1.ownerWrite_cup _ _), State.fnResult_cel _ _ _⟩

end

/-! ## Grant registers (R390) -/

section
variable (s : State) {f k : Nat}

theorem State.grantRead_reads (f k : Nat) : ∃ u, exec (.grantRegisterRead f k) s = .next u ∧ u.rdata = s.rdN (cupFnGrant f k) ∧
    (k < 8 → u.rdN (cupFnGrant f k) = 0) ∧ (s.rdN (cupFnGrant f k) = 0 → u.rb (cupFnStatus f) 7 = true) ∧
    (∀ b, b ≠ cupFnGrant f k → b ≠ cupFnStatus f → u.rd b = s.rd b) ∧ onlyIn [.regs, .rdata] s u := by
  have out : exec (.grantRegisterRead f k) s = .next (s.grantRead f k) := rfl
  have cleared : ((s.answer (s.rdN (cupFnGrant f k))).wr (cupFnGrant f k) 0).rdN (cupFnGrant f k) = 0 := by
    rw [State.rdN, State.rd_wr_same]
    rfl
  refine ⟨_, out, ?_, fun hk => ?_, fun none => ?_, fun b ne ne' => ?_, (s.grantRead_keeps f k).same⟩
  · unfold State.grantRead
    dsimp only
    split <;> rfl
  · unfold State.grantRead
    dsimp only
    split
    · rw [State.rdN, State.setB, State.rd_wf_ne _ _ _ _ (by unfold cupFnGrant cupFnStatus; omega), ← State.rdN, cleared]
    · exact cleared
  · rw [State.grantRead, if_pos none]
    exact State.rb_setB _ _ _ (by decide)
  · have other : ((s.answer (s.rdN (cupFnGrant f k))).wr (cupFnGrant f k) 0).rd b = s.rd b := State.rd_wr_ne _ _ ne
    unfold State.grantRead
    dsimp only
    split
    · rw [State.setB, State.rd_wf_ne _ _ _ _ ne', other]
    · exact other

/-- An empty register of a pool that may grant. -/
def State.refills (s : State) (f k : Nat) : Bool :=
  s.rdN (cupFnGrant f k) = 0 && s.poolReady k && !(s.poolLevel k 1) && decide (0 < (s.pool k).free)

theorem exec_grantRegisterRefill_idle (h : s.refills f k = false) : exec (.grantRegisterRefill f k) s = .next s := by
  have out : exec (.grantRegisterRefill f k) s = execGrantRegisterRefill f k s := rfl
  rw [out, execGrantRegisterRefill]
  exact if_neg (Bool.eq_false_iff.1 h)

theorem exec_grantRegisterRefill_due (h : s.refills f k = true) : exec (.grantRegisterRefill f k) s =
    match State.grantChain .grantReg (ownerFn f) 8 k s with
    | (s1, some (_, buf)) => .next (s1.wrN (cupFnGrant f k) (s1.handleOf buf))
    | (s1, none) => .next s1 := by
  have out : exec (.grantRegisterRefill f k) s = execGrantRegisterRefill f k s := rfl
  rw [out, execGrantRegisterRefill]
  exact if_pos h

end

end Sys2Proof.Machine

section
open Sys2Proof Sys2Proof.Machine

/-- Settles O46: a free and a share by what the checks of R386 answer, a refill by what the chain of pools grants. -/
theorem cupboardFunctionPages : Obligations.CupboardFunctionPages := by
  unfold Obligations.CupboardFunctionPages
  refine ⟨fun f v s _ => ⟨fun none => ?_, fun k i odd => ?_, fun k i whole good inService free => ?_,
    fun s1 k i r passed => exec_bufferFree_passed passed⟩,
    fun f v s _ => ⟨fun s1 r refused few => ?_, fun s1 k i r passed => exec_bufferShare_passed passed⟩,
    fun f k s hf hk => ⟨?_, fun idle => ?_, fun empty ready below some_ => ⟨fun p buf granted => ?_, fun none => ?_⟩⟩⟩
  · exact exec_bufferFree_refused (State.cupCheck_range none) (by decide)
  · exact exec_bufferFree_refused (State.cupCheck_align odd) (by decide)
  · exact exec_bufferFree_refused (State.cupCheck_double whole good inService free) (by decide)
  · exact ⟨_, State.exec_bufferShare (State.cupShare_refused refused), State.fnTold_fnResult _ (by omega),
      State.fnResult_cup _ _ _⟩
  · obtain ⟨u, out, answer, cleared, empty, others, only⟩ := s.grantRead_reads f k
    exact ⟨u, out, answer, cleared hk, empty, others, only⟩
  · refine exec_grantRegisterRefill_idle s (Bool.eq_false_iff.2 fun due => ?_)
    simp only [State.refills, Bool.and_eq_true, decide_eq_true_iff, Bool.not_eq_true'] at due
    obtain ⟨⟨⟨empty, ready⟩, below⟩, some_⟩ := due
    rcases idle with full | not | tight | none
    · exact full empty
    · exact Bool.false_ne_true (not.symm.trans ready)
    · exact Bool.false_ne_true (below.symm.trans tight)
    · omega
  · have due : s.refills f k = true := by simp [State.refills, empty, ready, below, Nat.pos_of_ne_zero some_]
    obtain ⟨step, hands⟩ := State.grantChain_grants .grantReg (ownerFn f) 8 hk s
    have out := exec_grantRegisterRefill_due s due
    generalize State.grantChain .grantReg (ownerFn f) 8 k s = x at step hands out granted ⊢
    obtain ⟨t, y⟩ := x
    obtain rfl : y = some (p, buf) := granted
    obtain ⟨le, -, i, is, ⟨count, free⟩, alloc⟩ := hands p buf rfl
    refine ⟨_, i, out, is, count, free, ?_, le, ?_⟩
    · rw [State.pool_congr (State.wrN_cup _ _ _)]
      exact alloc
    · rw [State.rdN, State.rd_wrN, BitVec.toNat_ofNat]
  · have due : s.refills f k = true := by simp [State.refills, empty, ready, below, Nat.pos_of_ne_zero some_]
    obtain ⟨step, -⟩ := State.grantChain_grants .grantReg (ownerFn f) 8 hk s
    have out := exec_grantRegisterRefill_due s due
    generalize State.grantChain .grantReg (ownerFn f) 8 k s = x at step out none
    obtain ⟨t, y⟩ := x
    obtain rfl : y = Option.none := none
    refine ⟨_, out, ?_⟩
    rw [step.1.rdN (not_cupWrites_cupFnGrant hf hk) (offWrap_of_window (by unfold cupFnGrant; omega)), empty]

end

/-! PROOFS. Pools made valid, formatted, refilled and scrubbed; the reclaim (R376, R377, R380, R389, R391). -/

namespace Sys2Proof.Machine

/-! ## CUP_POOL_CFG (R376, R377) -/

theorem regAt_cupPoolCfg : ∀ k < 8, regAt (cupPoolCfg k) =
    some ({ base := 0x0f000100, n := 8, st := 0x40, rw := 0xc000001f, rst := 0x40000000, rstf := some .cupPoolCfgReset },
      k, 0) := by decide +kernel

section
variable (s : State) (k : Nat) (v : Word)

/-- The fields of a write other than VALID are those that stand. -/
def State.cfgSame (s : State) (k : Nat) (v : Word) : Prop :=
  fld v 30 30 = s.rf (cupPoolCfg k) 30 30 ∧ fld v 4 0 = s.rf (cupPoolCfg k) 4 0

/-- R377's own conditions on a pool, without those on the other pools. -/
def State.poolIll (s : State) (k : Nat) : Prop :=
  let n := s.poolCount k
  let buffers : Nat × Nat := (s.poolBase k, n * 2 ^ s.poolLog2 k)
  let ring : Nat × Nat := (s.poolRing k, 4 * n)
  let inside (r : Nat × Nat) : Prop := (s.part 2).1 ≤ r.1 ∧ r.1 + r.2 ≤ (s.part 2).1 + (s.part 2).2
  n = 0 ∨ 2097152 < n ∨ s.poolLog2 k < 10 ∨ 17 < s.poolLog2 k ∨ s.poolBase k % 2 ^ s.poolLog2 k ≠ 0 ∨
    s.poolRing k % 256 ≠ 0 ∨ ¬inside buffers ∨ ¬inside ring ∨ overlaps buffers s.ownerArea = true ∨
    overlaps ring s.ownerArea = true

/-- The pools other than `k` that are valid. -/
def State.otherPools (s : State) (k : Nat) : List Nat := (upto 8).filter fun j => j != k && s.poolValid j

theorem State.poolOk_iff : s.poolOk k = true ↔
    (s.poolCount k ≠ 0 ∧ s.poolCount k + ((s.otherPools k).map s.poolCount).sum ≤ 2097152 ∧ 10 ≤ s.poolLog2 k ∧
      s.poolLog2 k ≤ 17 ∧ s.poolBase k % 2 ^ s.poolLog2 k = 0 ∧ s.poolRing k % 256 = 0) ∧
    ((s.otherPools k).all fun j => if j < k then decide (s.poolLog2 j < s.poolLog2 k) else decide (s.poolLog2 k < s.poolLog2 j)) =
      true ∧
    ∀ r ∈ s.poolRegions k, s.inPart 2 r.1 r.2 = true ∧
      ∀ t ∈ s.ownerArea :: (s.otherPools k).flatMap s.poolRegions, overlaps r t = false := by
  have unfolded : s.poolOk k = (decide (s.poolCount k ≠ 0 ∧ s.poolCount k + ((s.otherPools k).map s.poolCount).sum ≤ 2097152 ∧
      10 ≤ s.poolLog2 k ∧ s.poolLog2 k ≤ 17 ∧ s.poolBase k % 2 ^ s.poolLog2 k = 0 ∧ s.poolRing k % 256 = 0) &&
      ((s.otherPools k).all fun j => if j < k then decide (s.poolLog2 j < s.poolLog2 k)
        else decide (s.poolLog2 k < s.poolLog2 j)) &&
      (s.poolRegions k).all fun r => s.inPart 2 r.1 r.2 &&
        (s.ownerArea :: (s.otherPools k).flatMap s.poolRegions).all fun t => !(overlaps r t)) := rfl
  rw [unfolded, Bool.and_eq_true, Bool.and_eq_true, decide_eq_true_iff, and_assoc, List.all_eq_true (l := s.poolRegions k)]
  simp only [Bool.and_eq_true, List.all_eq_true, Bool.not_eq_true']

theorem State.poolRegions_eq : s.poolRegions k =
    [(s.poolBase k, s.poolCount k * 2 ^ s.poolLog2 k), (s.poolRing k, 4 * s.poolCount k)] := rfl

theorem State.poolOk_ill (ill : s.poolIll k) : s.poolOk k = false := by
  rw [Bool.eq_false_iff, Ne, State.poolOk_iff]
  rintro ⟨⟨some_, sum, least, most, base, ring⟩, -, regions⟩
  rw [State.poolRegions_eq] at regions
  obtain ⟨inBuffers, buffers⟩ := regions _ List.mem_cons_self
  obtain ⟨inRing, rings⟩ := regions _ (List.mem_cons_of_mem _ List.mem_cons_self)
  have own := buffers _ List.mem_cons_self
  have ownRing := rings _ List.mem_cons_self
  have insideBuffers := of_decide_eq_true inBuffers
  have insideRing := of_decide_eq_true inRing
  rcases ill with none | many | small | large | odd | oddRing | out | outRing | hit | hitRing
  · exact some_ none
  · omega
  · omega
  · omega
  · exact odd base
  · exact oddRing ring
  · exact out insideBuffers
  · exact outRing insideRing
  · exact Bool.false_ne_true (own.symm.trans hit)
  · exact Bool.false_ne_true (ownRing.symm.trans hitRing)

theorem State.poolOk_alone (well : ¬s.poolIll k) (alone : ¬∃ j, j < 8 ∧ j ≠ k ∧ s.poolValid j = true) :
    s.poolOk k = true := by
  have none : s.otherPools k = [] := List.filter_eq_nil_iff.2 fun j hj other => by
    rw [Bool.and_eq_true, bne_iff_ne] at other
    exact alone ⟨j, mem_upto.1 hj, other.1, other.2⟩
  rw [State.poolOk_iff, none]
  simp only [State.poolIll, not_or, not_not, Bool.not_eq_true] at well
  obtain ⟨some_, most, least, large, base, ring, inBuffers, inRing, buffers, rings⟩ := well
  refine ⟨⟨some_, ?_, Nat.le_of_not_lt least, Nat.le_of_not_lt large, base, ring⟩, rfl, fun r hr => ?_⟩
  · exact Nat.le_of_not_lt most
  · have alone : ∀ t ∈ s.ownerArea :: [].flatMap s.poolRegions, t = s.ownerArea := by simp
    rw [State.poolRegions_eq, List.mem_cons, List.mem_singleton] at hr
    rcases hr with rfl | rfl
    · exact ⟨decide_eq_true inBuffers, fun t ht => alone t ht ▸ buffers⟩
    · exact ⟨decide_eq_true inRing, fun t ht => alone t ht ▸ rings⟩

/-- A write that keeps the other fields, as the model tells it. -/
theorem State.cfgSame_iff : (fld v 30 30 == s.rf (cupPoolCfg k) 30 30 && fld v 4 0 == s.poolLog2 k) = true ↔
    s.cfgSame k v := by
  rw [Bool.and_eq_true, beq_iff_eq, beq_iff_eq]
  rfl

end

section
variable {s : State} {k : Nat} {v : Word}

theorem State.poolCfgWrite_same (valid : s.poolValid k = true) (on : v.getLsbD 31 = true) (same : s.cfgSame k v) :
    s.poolCfgWrite k v = s := by
  rw [State.poolCfgWrite, valid, on, (s.cfgSame_iff k v).2 same]
  rfl

theorem State.poolCfgWrite_reject (h : (s.poolValid k = true ∧ v.getLsbD 31 = true ∧ ¬s.cfgSame k v) ∨
    (s.poolValid k = true ∧ v.getLsbD 31 = false ∧
      (¬s.cfgSame k v ∨ (s.pool k).free < s.poolCount k ∨ s.rf (cupPoolStatus k) 31 30 ≠ 2)) ∨
    (s.poolValid k = false ∧ v.getLsbD 31 = true ∧ (¬s.cfgSame k v ∨ s.poolIll k))) :
    s.poolCfgWrite k v = s.setB cupErr 0 := by
  have differ (not : ¬s.cfgSame k v) :
      (fld v 30 30 == s.rf (cupPoolCfg k) 30 30 && fld v 4 0 == s.poolLog2 k) = false :=
    Bool.eq_false_iff.2 fun h => not ((s.cfgSame_iff k v).1 h)
  unfold State.poolCfgWrite
  dsimp only
  rcases h with ⟨valid, on, not⟩ | ⟨valid, off, why⟩ | ⟨invalid, on, why⟩
  · rw [valid, on, differ not]
    rfl
  · rw [if_pos valid, off, if_neg Bool.false_ne_true, if_pos (why.imp_left fun not => by rw [differ not]; rfl)]
  · rw [invalid, if_neg Bool.false_ne_true, on, if_pos rfl, if_neg]
    rw [Bool.and_eq_true, (s.cfgSame_iff k v)]
    rintro ⟨same, ok⟩
    rcases why with not | ill
    · exact not same
    · exact Bool.false_ne_true ((s.poolOk_ill k ill).symm.trans ok)

theorem State.poolCfgWrite_retires (valid : s.poolValid k = true) (off : v.getLsbD 31 = false) (same : s.cfgSame k v)
    (back : s.poolCount k ≤ (s.pool k).free) (ready : s.rf (cupPoolStatus k) 31 30 = 2) : s.poolCfgWrite k v =
      { (s.putB (cupPoolCfg k) 31 false).wr (cupPoolStatus k) 0 with
        cup := { s.cup with pools := tput s.cup.pools k Pool.empty } } := by
  unfold State.poolCfgWrite
  dsimp only
  rw [if_pos valid, off, if_neg Bool.false_ne_true, if_neg]
  rw [(s.cfgSame_iff k v).2 same]
  rintro (h | h | h)
  · exact Bool.false_ne_true h
  · omega
  · exact h ready

theorem State.poolCfgWrite_valid (invalid : s.poolValid k = false) (on : v.getLsbD 31 = true) (same : s.cfgSame k v)
    (ok : s.poolOk k = true) : s.poolCfgWrite k v = (s.setB (cupPoolCfg k) 31).wf (cupPoolStatus k) 31 30 1 := by
  unfold State.poolCfgWrite
  dsimp only
  rw [invalid, if_neg Bool.false_ne_true, on, if_pos rfl, (s.cfgSame_iff k v).2 same, ok]
  rfl

theorem State.poolCfgWrite_plain (invalid : s.poolValid k = false) (off : v.getLsbD 31 = false) :
    s.poolCfgWrite k v = s.plainWrite (cupPoolCfg k) v := by
  rw [State.poolCfgWrite, invalid, off]
  rfl

theorem cupPoolStatus_ne_cupPoolCfg (j k : Nat) : cupPoolStatus j ≠ cupPoolCfg k := by
  unfold cupPoolStatus cupPoolCfg
  omega

/-- A pool that retires: VALID and STATE clear, nothing of it left. -/
theorem exec_poolValidWrite_retires (valid : s.poolValid k = true) (off : v.getLsbD 31 = false) (same : s.cfgSame k v)
    (back : s.poolCount k ≤ (s.pool k).free) (ready : s.rf (cupPoolStatus k) 31 30 = 2) :
    ∃ u, exec (.poolValidWrite k v) s = .next u ∧ u.poolValid k = false ∧ u.poolReady k = false ∧ (u.pool k).free = 0 ∧
      (∀ j, j ≠ k → u.pool j = s.pool j) ∧ onlyIn [.regs, .cup] s u := by
  have out : exec (.poolValidWrite k v) s = execPoolValidWrite k v s := rfl
  have only {u} := onlyIn_of_next (u := u) (execPoolValidWrite_keeps s k v)
  rw [execPoolValidWrite, State.poolCfgWrite_retires valid off same back ready] at only out
  have cleared (c : Cup) : ({ (s.putB (cupPoolCfg k) 31 false).wr (cupPoolStatus k) 0 with cup := c } : State).poolValid k =
      false := by
    refine Eq.trans (State.rb_wr_ne _ _ _ (cupPoolStatus_ne_cupPoolCfg k k).symm) ?_
    exact State.rb_putB _ _ _ _ (by decide)
  refine ⟨_, out, cleared _, ?_, ?_, fun j ne => ?_, only rfl⟩
  · rw [State.poolReady, cleared, Bool.false_and]
  · exact congrArg Pool.free (tget_tput_same _ _ _ _)
  · exact tget_tput_ne _ _ _ _ _ ne

/-- A pool that becomes valid is being formatted. -/
theorem exec_poolValidWrite_valid (invalid : s.poolValid k = false) (on : v.getLsbD 31 = true) (same : s.cfgSame k v)
    (ok : s.poolOk k = true) : ∃ u, exec (.poolValidWrite k v) s = .next u ∧ u.poolValid k = true ∧
      u.rf (cupPoolStatus k) 31 30 = 1 ∧ u.poolReady k = false ∧ onlyIn [.regs] s u := by
  have out : exec (.poolValidWrite k v) s = execPoolValidWrite k v s := rfl
  rw [execPoolValidWrite, State.poolCfgWrite_valid invalid on same ok] at out
  have status : ((s.setB (cupPoolCfg k) 31).wf (cupPoolStatus k) 31 30 1).rf (cupPoolStatus k) 31 30 = 1 :=
    State.rf_wf_fits _ _ (by decide) (by decide) (by decide)
  refine ⟨_, out, ?_, status, ?_, ((State.wf_keeps _ _ _ _ _).after rfl (s.setB_keeps _ _)).same⟩
  · refine Eq.trans (State.rb_wr_ne _ _ _ (cupPoolStatus_ne_cupPoolCfg k k).symm) ?_
    exact State.rb_setB _ _ _ (by decide)
  · rw [State.poolReady, status]
    exact Bool.and_false _

/-- The other fields of a pool that is not valid take what is written. -/
theorem exec_poolValidWrite_plain (hk : k < 8) (invalid : s.poolValid k = false) (off : v.getLsbD 31 = false) :
    ∃ u, exec (.poolValidWrite k v) s = .next u ∧ u.poolValid k = false ∧ u.rf (cupPoolCfg k) 30 30 = fld v 30 30 ∧
      u.rf (cupPoolCfg k) 4 0 = fld v 4 0 ∧ onlyIn [.regs] s u := by
  have out : exec (.poolValidWrite k v) s = execPoolValidWrite k v s := rfl
  rw [execPoolValidWrite, State.poolCfgWrite_plain invalid off] at out
  have row := regAt_cupPoolCfg k hk
  refine ⟨_, out, ?_, s.rf_plainWrite row v (by decide) (by decide), s.rf_plainWrite row v (by decide) (by decide),
    (s.plainWrite_keeps _ v).same⟩
  rw [State.poolValid, s.rb_plainWrite row v (by decide), if_pos (by decide), off]

end

/-! ## Formatting (R377) -/

section
variable (s : State) (k : Nat)

/-- The ring, the owner records and the bitmap of a pool written anew. -/
def State.formatted (s : State) (k : Nat) : State :=
  ((s.celWrite 0x13 (s.poolRing k) ((upto (s.poolCount k)).flatMap (natLe 4))).each (upto (s.poolCount k))
    fun t i => t.ownerWrite (t.bufAddr k i) ⟨0, 0, 1, 0, 0⟩).each (upto ((s.poolCount k + 63) / 64))
      fun t w => t.eccClear .cupBitmap (k * 65536 + w)

/-- A pool as formatting leaves it. -/
def Pool.fresh (n : Nat) : Pool :=
  { cache := upto (min 512 n), head := min 512 n % n, tail := 0, cnt := n - min 512 n, alloc := [], oos := [] }

theorem Pool.free_fresh (n : Nat) : (Pool.fresh n).free = n := by
  simp only [Pool.free, Pool.fresh, upto, List.length_range]
  omega

theorem State.poolFormat_eq : s.poolFormat k =
    ((s.formatted k).wf (cupPoolStatus k) 31 30 2).setPool k (Pool.fresh (s.poolCount k)) := rfl

theorem State.formatted_step : cupStep s (s.formatted k) ∧ (s.formatted k).cup = s.cup := by
  have ring : cupStep s (s.celWrite 0x13 (s.poolRing k) ((upto (s.poolCount k)).flatMap (natLe 4))) :=
    .cel (s.celWrite_writes _ _ _) (s.celWrite_cup _ _ _)
  have same : (s.formatted k).cup = s.cup := by
    refine Eq.trans (State.each_stands (g := State.cup) fun t w _ => (t.eccClear_keeps _ _).same .cup (by decide)) ?_
    exact Eq.trans (State.each_stands (g := State.cup) fun t i _ => t.ownerWrite_cup _ _) (s.celWrite_cup _ _ _)
  refine ⟨.of_same ?_ same, same⟩
  refine (ring.1.each fun t i _ => (t.ownerWrite_step _ _).1).each fun t w _ => ?_
  exact (writesOnly.refl _ t).keeps (t.eccClear_keeps _ _) (by decide)

theorem exec_poolFormatDone_idle (h : s.poolValid k = false ∨ s.rf (cupPoolStatus k) 31 30 ≠ 1) :
    exec (.poolFormatDone k) s = .next s := by
  have out : exec (.poolFormatDone k) s = execPoolFormatDone k s := rfl
  rw [out, execPoolFormatDone, if_neg]
  rw [Bool.and_eq_true, beq_iff_eq]
  rintro ⟨valid, status⟩
  rcases h with not | not
  · exact Bool.false_ne_true (not.symm.trans valid)
  · exact not status

/-- When formatting ends the pool is READY with every buffer free. -/
theorem exec_poolFormatDone_ready (hk : k < 8) (valid : s.poolValid k = true) (formatting : s.rf (cupPoolStatus k) 31 30 = 1) :
    ∃ u, exec (.poolFormatDone k) s = .next u ∧ u.poolReady k = true ∧ u.pool k = Pool.fresh (s.poolCount k) ∧
      u.rf (cupPoolStatus k) 21 0 = s.poolCount k ∧ (∀ j, j ≠ k → u.pool j = s.pool j) := by
  have out : exec (.poolFormatDone k) s = execPoolFormatDone k s := rfl
  rw [execPoolFormatDone, valid, formatting, if_pos (by rfl), State.poolFormat_eq] at out
  obtain ⟨step, same⟩ := s.formatted_step k
  have fits : (Pool.fresh (s.poolCount k)).free < 2 ^ 22 := by
    rw [Pool.free_fresh]
    exact s.rf_lt _ _ _
  obtain ⟨free, state⟩ := ((s.formatted k).wf (cupPoolStatus k) 31 30 2).setPool_shows k _ fits
  have ready : ((s.formatted k).wf (cupPoolStatus k) 31 30 2).rf (cupPoolStatus k) 31 30 = 2 :=
    State.rf_wf_fits _ _ (by decide) (by decide) (by decide)
  have on : cupStep s (((s.formatted k).wf (cupPoolStatus k) 31 30 2).setPool k (Pool.fresh (s.poolCount k))) :=
    (step.trans (.of_same ((writesOnly.refl _ _).wf (cupWrites_cupPoolStatus hk) _ _ _) rfl)).trans (State.setPool_step _ _ _ hk)
  refine ⟨_, out, ?_, State.pool_setPool_same _ _ _, free.trans (Pool.free_fresh _), fun j ne => ?_⟩
  · rw [State.poolReady, (on.1.pool hk).1, valid, state, ready]
    rfl
  · rw [State.pool_setPool_ne _ _ _ ne]
    exact State.pool_congr same j

end

/-! ## CACHE_REFILL (R380) -/

section
variable (s : State) (k : Nat)

theorem exec_cacheRefill_idle (h : s.poolReady k = false ∨ 128 ≤ (s.pool k).cache.length ∨ (s.pool k).cnt = 0) :
    exec (.cacheRefill k) s = .next s := by
  have out : exec (.cacheRefill k) s = execCacheRefill k s := rfl
  rw [out, execCacheRefill]
  split
  · next due =>
    rw [Bool.and_eq_true, decide_eq_true_iff] at due
    rcases h with not | many | none
    · exact absurd (not.symm.trans due.1) Bool.false_ne_true
    · omega
    · rw [s.cacheRefill_none k none]
  · rfl

theorem exec_cacheRefill_due (ready : s.poolReady k = true) (low : (s.pool k).cache.length < 128) :
    exec (.cacheRefill k) s = .next (s.cacheRefill k) := by
  have out : exec (.cacheRefill k) s = execCacheRefill k s := rfl
  rw [out, execCacheRefill, ready, decide_eq_true low]
  rfl

end

/-! ## CUPBOARD_SCRUB (R389) -/

section
variable (s : State) (k w : Nat)

theorem exec_cupboardScrub_bitmap (hw : w < 65536) (e : Ecc) :
    exec (.cupboardScrub k w e) s = .next ((s.eccFlag .cupBitmap (k * 65536 + w) e).bitmapCheck k w) := by
  have out : exec (.cupboardScrub k w e) s = execCupboardScrub k w e s := rfl
  rw [out, execCupboardScrub, if_pos hw]

theorem exec_cupboardScrub_cache (e : Ecc) :
    exec (.cupboardScrub k (65536 + w) e) s = .next (s.cupCacheCheck k w e) := by
  have out : exec (.cupboardScrub k (65536 + w) e) s = execCupboardScrub k (65536 + w) e s := rfl
  rw [out, execCupboardScrub, if_neg (by omega), Nat.add_sub_cancel_left]

variable {s k w}

/-- A correctable word is corrected and flagged. -/
theorem exec_cupboardScrub_corrects (hw : w < 65536) (good : s.eccOf .cupBitmap (k * 65536 + w) = .ok) :
    ∃ u, exec (.cupboardScrub k w .corr) s = .next u ∧ u.rb cupErr 1 = true ∧
      u.eccOf .cupBitmap (k * 65536 + w) = .ok ∧ onlyIn [.regs, .ecc, .mast] s u := by
  have found := State.eccOf_eccFlag good .corr
  have flagged := s.eccFlag_keeps .cupBitmap (k * 65536 + w) .corr
  refine ⟨_, exec_cupboardScrub_bitmap s k w hw .corr, ?_⟩
  rw [State.bitmapCheck_corr found]
  generalize s.eccFlag .cupBitmap (k * 65536 + w) .corr = t at flagged
  refine ⟨?_, ?_, ?_⟩
  · rw [(regsStand.count _ _ _ _).rb 1 (by decide), State.rb, State.rd_report _ _ _ _ (by decide)]
    exact State.rb_setB _ _ _ (by decide)
  · refine Eq.trans (State.eccOf_congr ?_ _ _) ((t.eccOf_eccClear .cupBitmap .cupBitmap (k * 65536 + w) (k * 65536 + w)).trans
      (if_pos ⟨rfl, rfl⟩))
    rw [State.ecc_count, State.ecc_report, State.setB_ecc]
  · exact ((State.count_keeps _ _ _ _).after rfl ((State.report_keeps _ _ _ _).after rfl ((State.setB_keeps _ _ _).after rfl
      ((t.eccClear_keeps _ _).after rfl (flagged.mono rfl))))).same

/-- An uncorrectable word is out of service, with its location. -/
theorem exec_cupboardScrub_takesOut (hk : k < 8) (hw : w < 65536) (good : s.eccOf .cupBitmap (k * 65536 + w) = .ok) :
    ∃ u, exec (.cupboardScrub k w .uncorr) s = .next u ∧ u.rb cupErr 2 = true ∧ shas (u.pool k).oos w = true ∧
      (u.pool k).alloc = (s.pool k).alloc ∧ u.rdN cupErrLoc = 2097152 * k + w ∧
      onlyIn [.regs, .ecc, .mast, .cup] s u := by
  have found := State.eccOf_eccFlag good .uncorr
  have flagged := s.eccFlag_keeps .cupBitmap (k * 65536 + w) .uncorr
  have out := exec_cupboardScrub_bitmap s k w hw .uncorr
  rw [State.bitmapCheck_uncorr found] at out
  generalize s.eccFlag .cupBitmap (k * 65536 + w) .uncorr = t at flagged out
  have pool (v : State) : (((((v.setB cupErr 2).wr cupErrLoc (BitVec.ofNat 32 (k * 2 ^ 21 + w))).report 0x26 k
      (BitVec.ofNat 32 (k * 2 ^ 21 + w))).count evCupEccUncorr 0 0)).pool k = v.pool k := by
    refine State.pool_congr ?_ k
    rw [State.cup_count, State.cup_report, State.wr_cup, State.setB_cup]
  have clear : (t.eccClear .cupBitmap (k * 65536 + w)).pool k = s.pool k :=
    State.pool_congr (((t.eccClear_keeps _ _).same .cup (by decide)).trans (flagged.same .cup (by decide))) k
  have before : t.pool k = s.pool k := State.pool_congr (flagged.same .cup (by decide)) k
  have only : Keeps [.regs, .ecc, .mast, .cup] s (t.wordOut k w) :=
    (State.setPool_keeps _ _ _).after rfl ((t.eccClear_keeps _ _).after rfl (flagged.mono rfl))
  refine ⟨_, out, ?_, ?_, ?_, ?_, ?_⟩
  · rw [(regsStand.count _ _ _ _).rb 2 (by decide), State.rb, State.rd_report _ _ _ _ (by decide),
      State.rd_wr_ne _ _ (by decide)]
    exact State.rb_setB _ _ _ (by decide)
  · rw [pool, State.wordOut, State.pool_setPool_same, shas_sadd_same]
  · rw [pool, State.wordOut, State.pool_setPool_same, before]
  · rw [(regsStand.count _ _ _ _).rdN (by decide), State.rdN, State.rd_report _ _ _ _ (by decide), State.rd_wr_same,
      BitVec.toNat_ofNat, Nat.mod_eq_of_lt (by omega)]
    omega
  · exact ((State.count_keeps _ _ _ _).after rfl ((State.report_keeps _ _ _ _).after rfl ((State.wr_keeps _ _ _).after rfl
      ((State.setB_keeps _ _ _).after rfl only)))).same

theorem State.cupCacheCheck_corr : (s.cupCacheCheck k w .corr).rb cupErr 1 = true ∧
    onlyIn [.regs, .mast] s (s.cupCacheCheck k w .corr) := by
  refine ⟨?_, ?_⟩
  · rw [State.cupCacheCheck, (regsStand.count _ _ _ _).rb 1 (by decide), State.rb, State.rd_report _ _ _ _ (by decide)]
    exact State.rb_setB _ _ _ (by decide)
  · exact ((State.count_keeps _ _ _ _).after rfl ((State.report_keeps _ _ _ _).after rfl
      ((s.setB_keeps cupErr 1).mono rfl))).same

theorem State.cupCacheCheck_uncorr : let u := s.cupCacheCheck k w .uncorr
    u.rb cupErr 2 = true ∧ (u.pool k).cache.length = (s.pool k).cache.length ∧
      onlyIn [.regs, .freeCtr, .mast, .cup] s u := by
  refine ⟨?_, ?_, (s.cupCacheCheck_keeps k w .uncorr).same⟩
  · rw [State.cupCacheCheck]
    dsimp only
    rw [(regsStand.count _ _ _ _).rb 2 (by decide), State.rb, State.rd_report _ _ _ _ (by decide)]
    exact State.rb_setB _ _ _ (by decide)
  · rw [State.cupCacheCheck]
    dsimp only
    rw [State.pool, State.cup_count, State.cup_report, State.setB_cup]
    dsimp only
    rw [tget_tput_same]
    exact List.length_set

end

end Sys2Proof.Machine

/-! PROOFS. The reclaim (R391). -/

namespace Sys2Proof.Machine

section
variable {s : State} {v : Word}

/-- The fields that a start keeps of its word. -/
theorem fld_startWord (v : Word) : fld (setFld v 30 30 1) 15 13 = fld v 15 13 ∧ fld (setFld v 30 30 1) 15 0 = fld v 15 0 ∧
    (setFld v 30 30 1).getLsbD 30 = true := by
  refine ⟨fld_setFld_ne _ _ _ _ _ _ (by decide) (by decide) (by decide) (.inl (by decide)),
    fld_setFld_ne _ _ _ _ _ _ (by decide) (by decide) (by decide) (.inl (by decide)), ?_⟩
  rw [getLsbD_setFld _ _ _ _ _ (by decide) (by decide) (by decide)]
  rfl

theorem State.reclaimWrite_refused (h : s.rb cupReclaim 31 = true ∨ (fld v 15 13 ≠ 1 ∧ fld v 15 13 ≠ 2)) :
    s.reclaimWrite (setFld v 30 30 1) = s.setB cupErr 0 := by
  obtain ⟨kind, -, start⟩ := fld_startWord v
  unfold State.reclaimWrite
  dsimp only
  rw [kind, start]
  by_cases running : s.rb cupReclaim 31 = true
  · rw [if_pos running]
  · rw [if_neg running, if_neg (by decide), if_neg (by have := h.resolve_left running; omega)]

/-- The owner is taken, RUNNING set and the count cleared. -/
def State.reclaimRuns (s : State) (owner : Nat) : State :=
  ((s.wf cupReclaim 15 0 owner).setB cupReclaim 31).wrN cupReclaimCount 0

/-- The reclaim starts at the first buffer. -/
def State.reclaimStarted (s : State) (owner : Nat) : State :=
  { s.reclaimRuns owner with cup := { (s.reclaimRuns owner).cup with reclaimPos := 0 } }

theorem State.reclaimWrite_starts (idle : s.rb cupReclaim 31 = false) (agent : fld v 15 13 = 1 ∨ fld v 15 13 = 2) :
    s.reclaimWrite (setFld v 30 30 1) = s.reclaimStarted (fld v 15 0) := by
  obtain ⟨kind, owner, start⟩ := fld_startWord v
  unfold State.reclaimWrite
  dsimp only
  rw [kind, owner, start, idle, if_neg Bool.false_ne_true, if_neg (by decide), if_pos agent]
  rfl

theorem State.reclaimStarted_shows (owner : Nat) (fits : owner < 2 ^ 16) : let u := s.reclaimStarted owner
    u.rb cupReclaim 31 = true ∧ u.rf cupReclaim 15 0 = owner ∧ u.rdN cupReclaimCount = 0 ∧
      u.cup = { s.cup with reclaimPos := 0 } := by
  have reclaim : (s.reclaimStarted owner).rd cupReclaim = ((s.wf cupReclaim 15 0 owner).setB cupReclaim 31).rd cupReclaim :=
    (State.rd_congr (s := s.reclaimRuns owner) (by rfl) _).trans (State.rd_wrN_ne _ _ (by decide))
  have count : (s.reclaimStarted owner).rd cupReclaimCount = BitVec.ofNat 32 0 :=
    (State.rd_congr (s := s.reclaimRuns owner) (by rfl) _).trans (State.rd_wrN _ _ _)
  refine ⟨?_, ?_, ?_, rfl⟩
  · rw [State.rb, reclaim]
    exact State.rb_setB _ _ _ (by decide)
  · rw [State.rf, reclaim, ← State.rf, State.setB,
      State.rf_wf_ne _ _ _ _ _ _ _ (by decide) (by decide) (by decide) (.inl (by decide))]
    exact State.rf_wf_fits _ _ (by decide) (by decide) fits
  · rw [State.rdN, count]
    rfl

end

/-! ## A visit -/

section
variable (s : State)

/-- The reclaim goes on to the next buffer. -/
def State.reclaimNext (s : State) : State := { s with cup := { s.cup with reclaimPos := s.cup.reclaimPos + 1 } }

theorem exec_reclaimVisit_idle (idle : s.rb cupReclaim 31 = false) : exec .reclaimVisit s = .next s := by
  have out : exec .reclaimVisit s = execReclaimVisit s := rfl
  rw [out, execReclaimVisit, idle]
  rfl

theorem exec_reclaimVisit_ends (running : s.rb cupReclaim 31 = true) (none : s.bufferAt s.cup.reclaimPos = none) :
    exec .reclaimVisit s = .next ((s.putB cupReclaim 31 false).pulse 1924) := by
  have out : exec .reclaimVisit s = execReclaimVisit s := rfl
  rw [out, execReclaimVisit, running, none]
  rfl

theorem exec_reclaimVisit_visits {k i : Nat} (running : s.rb cupReclaim 31 = true)
    (some_ : s.bufferAt s.cup.reclaimPos = some (k, i)) :
    exec .reclaimVisit s = .next (s.reclaimOne k i).reclaimNext := by
  have out : exec .reclaimVisit s = execReclaimVisit s := rfl
  rw [out, execReclaimVisit, running, some_]
  rfl

/-- One more buffer is counted. -/
def State.reclaimCounted (s : State) : State := s.wrN cupReclaimCount (s.rdN cupReclaimCount + 1)

variable {s} {k i p j : Nat} {s1 : State} {r : OwnerRec}

theorem State.reclaimOne_refused {n : Nat} (h : s.cupCheck (s.bufAddr k i) none = (s1, .inl n)) : s.reclaimOne k i = s1 := by
  rw [State.reclaimOne, h]

theorem State.reclaimOne_passed (h : s.cupCheck (s.bufAddr k i) none = (s1, .inr (p, j, r))) : s.reclaimOne k i =
    let owner := s.rf cupReclaim 15 0
    let q := s1.cupFree owner (s.bufAddr k i) none
    if (if r.mode = 0 then r.owner else r.last) = owner then
      if q.2 = 0 ∨ q.2 = 9 then q.1.reclaimCounted else q.1
    else s1 := by
  rw [State.reclaimOne, h]
  rfl

/-- A visit writes of the reclaim's registers the count alone, and moves no position. -/
theorem State.reclaimOne_stands (s : State) (k i : Nat) :
    (s.reclaimOne k i).rd cupReclaim = s.rd cupReclaim ∧ (s.reclaimOne k i).cup.reclaimPos = s.cup.reclaimPos := by
  have stands {t : State} (h : cupStep s t) :
      t.rd cupReclaim = s.rd cupReclaim ∧ t.cup.reclaimPos = s.cup.reclaimPos :=
    ⟨h.1.rd not_cupWrites_cupReclaim (by decide), h.2⟩
  obtain ⟨checked, -⟩ := s.cupCheck_spec (s.bufAddr k i) none
  rcases h : s.cupCheck (s.bufAddr k i) none with ⟨t, n | ⟨p, j, r⟩⟩
  · rw [State.reclaimOne_refused h]
    rw [h] at checked
    exact stands checked.1
  · rw [State.reclaimOne_passed h]
    rw [h] at checked
    have freed := checked.1.trans (t.cupFree_step (s.rf cupReclaim 15 0) (s.bufAddr k i) none)
    dsimp only at freed ⊢
    generalize t.cupFree (s.rf cupReclaim 15 0) (s.bufAddr k i) none = q at freed ⊢
    have counted : q.1.reclaimCounted.rd cupReclaim = s.rd cupReclaim ∧
        q.1.reclaimCounted.cup.reclaimPos = s.cup.reclaimPos :=
      ⟨(State.rd_wrN_ne _ _ (by decide)).trans (stands freed).1, (stands freed).2⟩
    by_cases own : (if r.mode = 0 then r.owner else r.last) = s.rf cupReclaim 15 0
    · rw [if_pos own]
      split
      · exact counted
      · exact stands freed
    · rw [if_neg own]
      exact stands checked.1

/-- A visit of a plain buffer frees it and counts it where the owner owns it, else leaves it as its check does. -/
theorem State.reclaimOne_plain {s2 : State} (first : s.cupCheck (s.bufAddr k i) none = (s1, .inr (p, j, r)))
    (again : s1.cupCheck (s.bufAddr k i) none = (s2, .inr (p, j, r))) (plain : r.mode = 0) :
    (r.owner = s.rf cupReclaim 15 0 → s.reclaimOne k i = (s2.bufReturn p j r).reclaimCounted) ∧
    (r.owner ≠ s.rf cupReclaim 15 0 → s.reclaimOne k i = s1) := by
  have passed := State.reclaimOne_passed first
  have free := State.cupFree_passed (agent := s.rf cupReclaim 15 0) again
  rw [passed]
  dsimp only
  rw [if_pos plain] at free ⊢
  refine ⟨fun own => ?_, fun other => if_neg other⟩
  rw [if_pos own] at free ⊢
  rw [free, if_pos (.inl rfl)]

end

/-- A visit of a plain buffer, with the count it leaves. -/
theorem State.reclaimOne_counts {s s1 s2 : State} {k i p j : Nat} {r : OwnerRec}
    (first : s.cupCheck (s.bufAddr k i) none = (s1, .inr (p, j, r)))
    (again : s1.cupCheck (s.bufAddr k i) none = (s2, .inr (p, j, r))) (plain : r.mode = 0) :
    (r.owner = s.rf cupReclaim 15 0 → shas ((s.reclaimOne k i).pool p).alloc j = false ∧
      ((s.reclaimOne k i).pool p).free = (s2.pool p).free + 1 ∧
      (s.reclaimOne k i).rdN cupReclaimCount = (s.rdN cupReclaimCount + 1) % 2 ^ 32) ∧
    (r.owner ≠ s.rf cupReclaim 15 0 → ((s.reclaimOne k i).pool p).alloc = (s1.pool p).alloc ∧
      (s.reclaimOne k i).rdN cupReclaimCount = s.rdN cupReclaimCount) := by
  obtain ⟨frees, stays⟩ := State.reclaimOne_plain first again plain
  have checked := (s.cupCheck_spec (s.bufAddr k i) none).1.1
  rw [first] at checked
  refine ⟨fun own => ?_, fun other => ?_⟩
  · obtain ⟨cleared, more⟩ := s2.bufReturn_frees p j r
    obtain ⟨checkedAgain, few⟩ := s1.cupCheck_spec (s.bufAddr k i) none
    rw [again] at checkedAgain few
    have kept : (s2.bufReturn p j r).rdN cupReclaimCount = s.rdN cupReclaimCount :=
      ((checked.trans checkedAgain.1).trans (s2.bufReturn_step p j r (few p j r rfl))).1.rdN
        not_cupWrites_cupReclaimCount (by decide)
    rw [frees own, State.reclaimCounted, State.pool_congr (State.wrN_cup _ _ _)]
    refine ⟨cleared, more, ?_⟩
    rw [State.rdN, State.rd_wrN, BitVec.toNat_ofNat, kept]
  · rw [stays other]
    exact ⟨rfl, checked.1.rdN not_cupWrites_cupReclaimCount (by decide)⟩

/-! ## Refills (R380) -/

section
variable {s : State} {k : Nat} (ready : s.poolReady k = true) (low : (s.pool k).cache.length < 128)
  (some_ : (s.pool k).cnt ≠ 0)
include ready low some_

/-- A refill whose read answers. -/
theorem exec_cacheRefill_fills {bs : List Byte}
    (read : (s.ringRead k (s.pool k).head (min 64 (s.pool k).cnt)).2 = some bs) :
    ∃ u, exec (.cacheRefill k) s = .next u ∧
      (u.pool k).cache = (s.pool k).cache ++ ringIndices (min 64 (s.pool k).cnt) bs ∧
      (u.pool k).cnt = (s.pool k).cnt - min 64 (s.pool k).cnt ∧
      (u.pool k).head = ((s.pool k).head + min 64 (s.pool k).cnt) % s.poolCount k ∧ (u.pool k).free = (s.pool k).free ∧
      (u.pool k).alloc = (s.pool k).alloc := by
  have filled := s.cacheRefill_reads k some_
  dsimp only at filled
  rw [read] at filled
  refine ⟨_, exec_cacheRefill_due s k ready low, ?_⟩
  rw [filled]
  dsimp only
  rw [State.pool_setPool_same]
  refine ⟨rfl, rfl, rfl, ?_, rfl⟩
  simp only [Pool.free, Pool.refilled, List.length_append, length_ringIndices]
  omega

/-- A refill whose read answers poison. -/
theorem exec_cacheRefill_loses (lost : (s.ringRead k (s.pool k).head (min 64 (s.pool k).cnt)).2 = none) :
    ∃ u, exec (.cacheRefill k) s = .next u ∧ (u.pool k).cache = (s.pool k).cache ∧
      (u.pool k).cnt = (s.pool k).cnt - min 64 (s.pool k).cnt ∧ u.rb cupErr 3 = true := by
  have filled := s.cacheRefill_reads k some_
  dsimp only at filled
  rw [lost] at filled
  refine ⟨_, exec_cacheRefill_due s k ready low, ?_⟩
  rw [filled]
  dsimp only
  rw [State.pool, State.cup_countBy, State.cup_report, State.setB_cup, ← State.pool, State.pool_setPool_same]
  refine ⟨List.append_nil _, rfl, ?_⟩
  rw [(regsStand.countBy _ _ _ _ _).rb 3 (by decide), State.rb, State.rd_report _ _ _ _ (by decide)]
  exact State.rb_setB _ _ _ (by decide)

end

end Sys2Proof.Machine

section
open Sys2Proof Sys2Proof.Machine

/-- Settles O44: each command by what the pool's registers and its free store let it do. -/
theorem cupboardPoolsAndReclaim : Obligations.CupboardPoolsAndReclaim := by
  unfold Obligations.CupboardPoolsAndReclaim
  refine ⟨fun k v s hk => ?_, fun k s hk => ?_, fun k w s hk hw good => ?_, fun v s => ?_, fun s => ?_⟩
  · refine ⟨fun valid on same => congrArg Host.Outcome.next (State.poolCfgWrite_same valid on same),
      fun valid on not => congrArg Host.Outcome.next (State.poolCfgWrite_reject (.inl ⟨valid, on, not⟩)),
      fun valid off why => congrArg Host.Outcome.next (State.poolCfgWrite_reject (.inr (.inl ⟨valid, off, why⟩))),
      fun valid off same back ready => exec_poolValidWrite_retires valid off same back ready,
      fun invalid on why => congrArg Host.Outcome.next (State.poolCfgWrite_reject (.inr (.inr ⟨invalid, on, why⟩))),
      fun invalid on same well alone => exec_poolValidWrite_valid invalid on same (s.poolOk_alone k well alone),
      fun invalid off => exec_poolValidWrite_plain hk invalid off⟩
  · refine ⟨exec_poolFormatDone_idle s k, fun valid formatting => ?_, exec_cacheRefill_idle s k,
      fun ready low some_ => ⟨fun bs read => ?_, fun lost => ?_⟩⟩
    · obtain ⟨u, out, ready, pool, shown, others⟩ := exec_poolFormatDone_ready s k hk valid formatting
      exact ⟨u, out, ready, by rw [pool, Pool.free_fresh], by rw [pool]; rfl, by rw [pool]; rfl, by rw [pool]; rfl, shown,
        others⟩
    · exact exec_cacheRefill_fills ready low some_ read
    · exact exec_cacheRefill_loses ready low some_ lost
  · have good : s.eccOf .cupBitmap (k * 65536 + w) = .ok := Nat.mul_comm 65536 k ▸ good
    rw [Nat.mul_comm 65536 k]
    refine ⟨?_, exec_cupboardScrub_corrects hw good, exec_cupboardScrub_takesOut hk hw good, ?_, ?_⟩
    · rw [exec_cupboardScrub_bitmap s k w hw .ok]
      exact congrArg Host.Outcome.next (State.bitmapCheck_ok good)
    · exact ⟨_, exec_cupboardScrub_cache s k w .corr, State.cupCacheCheck_corr⟩
    · exact ⟨_, exec_cupboardScrub_cache s k w .uncorr, State.cupCacheCheck_uncorr⟩
  · have out : exec (.reclaimStart v) s = .next (s.reclaimWrite (setFld v 30 30 1)) := rfl
    refine ⟨fun refused => ?_, fun idle agent => ?_⟩
    · rw [out, State.reclaimWrite_refused refused]
    · have only := onlyIn_of_next (execReclaimStart_keeps s v) out
      rw [State.reclaimWrite_starts idle agent] at out only
      obtain ⟨running, owner, count, cup⟩ := State.reclaimStarted_shows (s := s) (fld v 15 0) (bits_lt _ 15 0)
      exact ⟨_, out, running, owner, count, cup, only⟩
  · refine ⟨exec_reclaimVisit_idle s, fun running none => ?_, fun k i running some_ => ?_⟩
    · refine ⟨_, exec_reclaimVisit_ends s running none, s.rb_putB _ _ _ (by decide), shas_sadd_same _ _, ?_⟩
      exact ((State.pulse_keeps _ _).after rfl ((s.putB_keeps _ _ _).mono rfl)).same
    · obtain ⟨reclaim, pos⟩ := s.reclaimOne_stands k i
      refine ⟨_, exec_reclaimVisit_visits s running some_, ?_, congrArg (· + 1) pos, fun s1 s2 p j r first again plain => ?_⟩
      · exact (congrArg (·.getLsbD 31) reclaim).trans running
      · exact State.reclaimOne_counts first again plain

end

/-! PROOFS. Sources that become pending, the source that wins, and what a target claims (R427 to R432). -/

namespace Sys2Proof.Machine

/-! ## PENDING and ACTIVE, a bit for each source (R429) -/

theorem offWrap_belPend (k : Nat) : offWrap (belPend k) = true := offWrap_of_window (by unfold belPend; omega)
theorem offWrap_belActive (k : Nat) : offWrap (belActive k) = true := offWrap_of_window (by unfold belActive; omega)
theorem offWrap_belTgt (t : Nat) : offWrap (belTgt t) = true := offWrap_of_window (by unfold belTgt; omega)
theorem offWrap_belRoute (n : Nat) : offWrap (belRoute n) = true := offWrap_of_window (by unfold belRoute; omega)

theorem belPend_inj {j k : Nat} (h : belPend j = belPend k) : j = k := by unfold belPend at h; omega

section
variable (s : State) {n k : Nat}

/-- A bit put in the word of a bitmap of sources, read at every source. -/
theorem State.rb_putB_source (base : Nat → Nat) (inj : ∀ i j, base i = base j → i = j) (n k : Nat) (b : Bool) :
    (s.putB (base (n / 32)) (n % 32) b).rb (base (k / 32)) (k % 32) =
      if k = n then b else s.rb (base (k / 32)) (k % 32) := by
  by_cases same : k = n
  · rw [if_pos same, same]
    exact State.rb_putB _ _ _ _ (by omega)
  · rw [if_neg same]
    by_cases word : k / 32 = n / 32
    · rw [word]
      exact State.rb_putB_ne _ _ _ _ _ (by omega) (by omega) (by omega)
    · exact State.rb_wr_ne _ _ _ fun h => word (inj _ _ h)

theorem State.isPending_putPending (n k : Nat) (b : Bool) :
    (s.putPending n b).isPending k = if k = n then b else s.isPending k :=
  s.rb_putB_source belPend (fun _ _ => belPend_inj) n k b

theorem State.isActive_putActive (n k : Nat) (b : Bool) :
    (s.putB (belActive (n / 32)) (n % 32) b).isActive k = if k = n then b else s.isActive k :=
  s.rb_putB_source belActive (fun i j h => by unfold belActive at h; omega) n k b

variable {s} {t : State}

theorem State.isPending_congr (h : t.regs = s.regs) (k : Nat) : t.isPending k = s.isPending k := State.rb_congr h _ _

theorem writesOnly.isPending {w : Nat → Prop} (h : writesOnly w s t) (out : ¬w (belPend (k / 32))) :
    t.isPending k = s.isPending k := h.rb _ out (offWrap_belPend _)

theorem writesOnly.isActive {w : Nat → Prop} (h : writesOnly w s t) (out : ¬w (belActive (k / 32))) :
    t.isActive k = s.isActive k := h.rb _ out (offWrap_belActive _)

end

/-! ## SOURCE_ASSERT (R427) -/

section
variable {s : State} {n : Nat}

theorem State.condPrune_regs (s : State) : s.condPrune.regs = s.regs := rfl

/-- A condition is read from the registers. -/
theorem State.cond_condPrune (s : State) (n : Nat) : s.condPrune.cond n = s.cond n := rfl

/-- The pulse of a source is taken. -/
def State.pulseTaken (s : State) (n : Nat) : State :=
  { s.condPrune with bell := { s.condPrune.bell with pulses := sdel s.bell.pulses n } }

/-- The condition of a source has been seen. -/
def State.condTaken (s : State) (n : Nat) : State :=
  { s.condPrune with bell := { s.condPrune.bell with condSeen := sadd s.condPrune.bell.condSeen n } }

theorem exec_sourceAssert_pulse (pulse : shas s.bell.pulses n = true) :
    exec (.sourceAssert n) s = .next ((s.pulseTaken n).putPending n true) := by
  have out : exec (.sourceAssert n) s = execSourceAssert n s := rfl
  rw [out, execSourceAssert]
  exact if_pos pulse

theorem exec_sourceAssert_rise (quiet : shas s.bell.pulses n = false) (stands : s.cond n = true)
    (new : shas s.bell.condSeen n = false) :
    exec (.sourceAssert n) s = .next ((s.condTaken n).putPending n true) := by
  have out : exec (.sourceAssert n) s = execSourceAssert n s := rfl
  have unseen : shas s.condPrune.bell.condSeen n = false := by
    rw [shas_eq_false_iff] at new ⊢
    exact fun h => new (List.mem_of_mem_filter h)
  have quiet' : ¬shas s.condPrune.bell.pulses n = true := Bool.eq_false_iff.1 quiet
  rw [out, execSourceAssert]
  dsimp only
  rw [if_neg quiet', s.cond_condPrune, stands, unseen]
  rfl

theorem State.isPending_asserted {t : State} (regs : t.regs = s.regs) :
    (t.putPending n true).isPending n = true ∧
      ∀ k, k < 4096 → k ≠ n → (t.putPending n true).isPending k = s.isPending k := by
  refine ⟨?_, fun k _ ne => ?_⟩
  · rw [State.isPending_putPending, if_pos rfl]
  · rw [State.isPending_putPending, if_neg ne, State.isPending_congr regs]

end

/-! ## BELL_PULL (R428) -/

section
variable {s : State} {v : Word}

theorem fld_bell (h : v.toNat < 1024) : fld v 31 10 = 0 ∧ fld v 9 0 = v.toNat := by
  unfold fld bits
  omega

theorem fld_bell_high (h : 1024 ≤ v.toNat) : fld v 31 10 ≠ 0 := by
  have := v.isLt
  unfold fld bits
  omega

theorem exec_bellPull_bad (h : 1024 ≤ v.toNat) : exec (.bellPull v) s = .next (s.count evBelBellBad 0 0) :=
  congrArg Host.Outcome.next (if_pos (fld_bell_high h))

theorem exec_bellPull_again (h : v.toNat < 1024) (waits : s.isPending (3072 + v.toNat) = true) :
    exec (.bellPull v) s = .next (s.count evBelBellCoalesced 0 0) := by
  obtain ⟨high, low⟩ := fld_bell h
  refine congrArg Host.Outcome.next ((if_neg (not_not.2 high)).trans ?_)
  dsimp only
  rw [low, if_pos waits]

theorem exec_bellPull_new (h : v.toNat < 1024) (quiet : s.isPending (3072 + v.toNat) = false) :
    exec (.bellPull v) s = .next (s.putPending (3072 + v.toNat) true) := by
  obtain ⟨high, low⟩ := fld_bell h
  refine congrArg Host.Outcome.next ((if_neg (not_not.2 high)).trans ?_)
  dsimp only
  rw [low, quiet, if_neg Bool.false_ne_true]

end

/-! ## Arbitration (R431): a pending source is listed -/

section
variable {s : State} {n k : Nat}

/-- The pending sources that one register shows. -/
def sourcesOf (p : Nat × Word) : List Nat :=
  if belPend 0 ≤ p.1 ∧ p.1 < belPend 0 + 0x200 then
    ((upto 32).filter fun i => p.2.getLsbD i).map fun i => (p.1 - belPend 0) / 4 * 32 + i
  else []

theorem State.pendingSources_eq (s : State) : s.pendingSources = s.regs.flatMap sourcesOf := rfl

theorem mem_sourcesOf {p : Nat × Word} : n ∈ sourcesOf p ↔
    (belPend 0 ≤ p.1 ∧ p.1 < belPend 0 + 0x200) ∧ n / 32 = (p.1 - belPend 0) / 4 ∧ p.2.getLsbD (n % 32) = true := by
  unfold sourcesOf
  split
  · next h =>
    simp only [List.mem_map, List.mem_filter, mem_upto, h, and_self, true_and]
    constructor
    · rintro ⟨i, ⟨hi, on⟩, rfl⟩
      have word : ((p.1 - belPend 0) / 4 * 32 + i) / 32 = (p.1 - belPend 0) / 4 := by omega
      have bit : ((p.1 - belPend 0) / 4 * 32 + i) % 32 = i := by omega
      rw [word, bit]
      exact ⟨rfl, on⟩
    · exact fun ⟨word, on⟩ => ⟨n % 32, ⟨by omega, on⟩, by omega⟩
  · next h =>
    exact ⟨fun x => absurd x List.not_mem_nil, fun x => absurd x.1 h⟩

/-- The sources of one register rise. -/
theorem sourcesOf_sorted (p : Nat × Word) : (sourcesOf p).Pairwise (· < ·) := by
  unfold sourcesOf
  split
  · exact ((List.pairwise_lt_range (n := 32)).filter _).map _ fun i j h => by omega
  · exact List.Pairwise.nil

theorem regReset_belPend (h : k < 128) : regReset (belPend k) = 0 := by
  rw [regReset, regAt_belPend k h]
  rfl

theorem mem_of_tfind {α : Type} {t : Tbl α} {i : Nat} {x : α} (h : tfind t i = some x) : (i, x) ∈ t := by
  induction t with
  | nil => exact absurd h (by simp [tfind])
  | cons p t ih =>
    rw [tfind] at h
    split at h
    · next same =>
      obtain rfl := Option.some.inj h
      exact same ▸ List.mem_cons_self
    · exact List.mem_cons_of_mem _ (ih h)

/-- The register that shows a pending source is listed with its bit set. -/
theorem State.pending_listed (small : n < 4096) (h : s.isPending n = true) :
    ∃ p ∈ s.regs, p.1 = belPend (n / 32) ∧ p.2.getLsbD (n % 32) = true := by
  rw [State.isPending, State.rb, State.rd, tget, regReset_belPend (by omega)] at h
  rcases found : tfind s.regs (belPend (n / 32)) with _ | w
  · rw [found] at h
    simp at h
  · rw [found] at h
    exact ⟨(belPend (n / 32), w), mem_of_tfind found, rfl, h⟩

theorem State.mem_pendingSources (small : n < 4096) (h : s.isPending n = true) : n ∈ s.pendingSources := by
  obtain ⟨p, listed, at_, on⟩ := State.pending_listed small h
  rw [State.pendingSources_eq, List.mem_flatMap]
  refine ⟨p, listed, mem_sourcesOf.2 ⟨?_, ?_, on⟩⟩
  · rw [at_]
    unfold belPend
    omega
  · rw [at_]
    unfold belPend
    omega

/-! ## Arbitration (R431): which candidate wins -/

/-- The better of the best so far and a further source: the higher PRIO, the earlier of equals. -/
def State.better (s : State) (best : Option Nat) (src : Nat) : Option Nat :=
  match best with
  | none => some src
  | some b => if s.rf (belRoute b) 31 28 < s.rf (belRoute src) 31 28 then some src else some b

theorem State.winner_eq (s : State) (t : Nat) :
    s.winner t = (s.pendingSources.filter (s.candidate t)).foldl s.better none := rfl

/-- PRIO of a source. -/
def State.prio (s : State) (n : Nat) : Nat := s.rf (belRoute n) 31 28

/-- The best of a list is its first source of the highest PRIO. -/
theorem State.foldl_better (s : State) (b : Nat) (l : List Nat) : ∃ n, l.foldl s.better (some b) = some n ∧
    ((n = b ∧ ∀ k ∈ l, s.prio k ≤ s.prio b) ∨ (s.prio b < s.prio n ∧ (∀ k ∈ l, s.prio k ≤ s.prio n) ∧
      ∃ before after, l = before ++ n :: after ∧ ∀ k ∈ before, s.prio k < s.prio n)) := by
  induction l generalizing b with
  | nil => exact ⟨b, rfl, .inl ⟨rfl, fun k hk => absurd hk List.not_mem_nil⟩⟩
  | cons c l ih =>
    by_cases less : s.prio b < s.prio c
    · have step : s.better (some b) c = some c := if_pos less
      rw [List.foldl_cons, step]
      obtain ⟨n, best, h⟩ := ih c
      refine ⟨n, best, .inr ?_⟩
      rcases h with ⟨rfl, all⟩ | ⟨more, all, before, after, split, lower⟩
      · exact ⟨less, List.forall_mem_cons.2 ⟨Nat.le_refl _, all⟩, [], l, rfl, fun k hk => absurd hk List.not_mem_nil⟩
      · exact ⟨by omega, List.forall_mem_cons.2 ⟨by omega, all⟩, c :: before, after, by rw [split]; rfl,
          List.forall_mem_cons.2 ⟨more, lower⟩⟩
    · have step : s.better (some b) c = some b := if_neg less
      rw [List.foldl_cons, step]
      obtain ⟨n, best, h⟩ := ih b
      refine ⟨n, best, ?_⟩
      rcases h with ⟨rfl, all⟩ | ⟨more, all, before, after, split, lower⟩
      · exact .inl ⟨rfl, List.forall_mem_cons.2 ⟨Nat.le_of_not_lt less, all⟩⟩
      · exact .inr ⟨more, List.forall_mem_cons.2 ⟨by omega, all⟩, c :: before, after, by rw [split]; rfl,
          List.forall_mem_cons.2 ⟨by omega, lower⟩⟩

/-- A winner is the first of the candidates of the highest PRIO. -/
theorem State.winner_spec {t : Nat} (h : s.winner t = some n) :
    (∀ k ∈ s.pendingSources.filter (s.candidate t), s.prio k ≤ s.prio n) ∧
      ∃ before after, s.pendingSources.filter (s.candidate t) = before ++ n :: after ∧
        ∀ k ∈ before, s.prio k < s.prio n := by
  rw [State.winner_eq] at h
  rcases hl : s.pendingSources.filter (s.candidate t) with _ | ⟨b, l⟩
  · rw [hl] at h
    exact absurd h (by simp)
  · rw [hl, List.foldl_cons] at h
    obtain ⟨m, best, spec⟩ := s.foldl_better b l
    obtain rfl : m = n := Option.some.inj (best.symm.trans h)
    rcases spec with ⟨rfl, all⟩ | ⟨more, all, before, after, split, lower⟩
    · exact ⟨List.forall_mem_cons.2 ⟨Nat.le_refl _, all⟩, [], l, rfl, fun k hk => absurd hk List.not_mem_nil⟩
    · exact ⟨List.forall_mem_cons.2 ⟨Nat.le_of_lt more, all⟩, b :: before, after, by rw [split]; rfl,
        List.forall_mem_cons.2 ⟨more, lower⟩⟩

theorem State.winner_none {t : Nat} (h : s.winner t = none) : s.pendingSources.filter (s.candidate t) = [] := by
  rw [State.winner_eq] at h
  rcases hl : s.pendingSources.filter (s.candidate t) with _ | ⟨b, l⟩
  · rfl
  · rw [hl, List.foldl_cons] at h
    obtain ⟨m, best, -⟩ := s.foldl_better b l
    exact absurd (best.symm.trans h) (by simp)

/-- In registers that rise, a pending source of a lower number is listed before. -/
theorem sourcesOf_before {regs : Tbl Word} {before after : List Nat} (order : regs.Pairwise fun p q => p.1 < q.1)
    (split : regs.flatMap sourcesOf = before ++ n :: after) (lower : k < n)
    (listed : ∃ p ∈ regs, p.1 = belPend (k / 32) ∧ k ∈ sourcesOf p) : k ∈ before := by
  induction regs generalizing before with
  | nil =>
    obtain ⟨p, hp, -⟩ := listed
    exact absurd hp List.not_mem_nil
  | cons q regs ih =>
    rw [List.pairwise_cons] at order
    rw [List.flatMap_cons, List.append_eq_append_iff] at split
    obtain ⟨p, hp, at_, shows⟩ := listed
    rcases split with ⟨mid, rfl, rest⟩ | ⟨mid, here, rest⟩
    · -- The winner stands beyond the first register.
      rcases List.mem_cons.1 hp with rfl | tail
      · exact List.mem_append_left _ shows
      · exact List.mem_append_right _ (ih order.2 rest ⟨p, tail, at_, shows⟩)
    · rcases mid with _ | ⟨m, mid⟩
      · -- It stands first beyond the first register.
        rw [List.append_nil] at here
        rw [List.nil_append] at rest
        rcases List.mem_cons.1 hp with rfl | tail
        · exact here ▸ shows
        · exact absurd (ih order.2 (before := []) rest.symm ⟨p, tail, at_, shows⟩) List.not_mem_nil
      · -- It is shown by the first register, which therefore shows the lower source too.
        obtain ⟨rfl, -⟩ := List.cons.inj rest
        have winner : n ∈ sourcesOf q := here ▸ List.mem_append_right _ List.mem_cons_self
        obtain ⟨window, word, -⟩ := mem_sourcesOf.1 winner
        have first : p = q := by
          rcases List.mem_cons.1 hp with same | tail
          · exact same
          · have later := order.1 p tail
            rw [at_] at later
            unfold belPend at later window word
            omega
        have sorted := sourcesOf_sorted q
        rw [here, List.pairwise_append] at sorted
        rw [first, here, List.mem_append, List.mem_cons] at shows
        rcases shows with early | rfl | late
        · exact early
        · exact absurd lower (Nat.lt_irrefl _)
        · have rises := (List.pairwise_cons.1 sorted.2.1).1 k late
          omega

/-- Of candidates of equal PRIO the winner has the lowest number. -/
theorem State.winner_lowest {t : Nat} (order : rising s.regs = true) (h : s.winner t = some n) (small : k < 4096)
    (cand : s.candidate t k = true) (equal : s.prio k = s.prio n) : n ≤ k := by
  refine Nat.le_of_not_lt fun lower => ?_
  obtain ⟨-, before, after, split, less⟩ := State.winner_spec h
  obtain ⟨l1, l2, whole, is1, is2⟩ := List.filter_eq_append_iff.1 split
  obtain ⟨l3, l4, whole2, none, on, is4⟩ := List.filter_eq_cons_iff.1 is2
  have pending : s.isPending k = true := by
    rw [State.candidate] at cand
    simp only [Bool.and_eq_true] at cand
    exact cand.1.1.1.1
  obtain ⟨p, listed, at_, bit⟩ := State.pending_listed small pending
  have shows : k ∈ sourcesOf p := mem_sourcesOf.2 ⟨by rw [at_]; unfold belPend; omega, by rw [at_]; unfold belPend; omega, bit⟩
  rw [whole2, ← List.append_assoc] at whole
  have early : k ∈ l1 ++ l3 :=
    sourcesOf_before ((rising_iff _).1 order) (s.pendingSources_eq ▸ whole) lower ⟨p, listed, at_, shows⟩
  rcases List.mem_append.1 early with h1 | h3
  · have ahead : k ∈ before := is1 ▸ List.mem_filter.2 ⟨h1, cand⟩
    exact absurd (less k ahead) (by rw [equal]; exact Nat.lt_irrefl _)
  · exact absurd cand (none k h3)

theorem State.mem_candidates {t : Nat} (small : k < 4096) (cand : s.candidate t k = true) :
    k ∈ s.pendingSources.filter (s.candidate t) := by
  refine List.mem_filter.2 ⟨State.mem_pendingSources small ?_, cand⟩
  rw [State.candidate] at cand
  simp only [Bool.and_eq_true] at cand
  exact cand.1.1.1.1

end

/-! ## ARBITRATE (R431, R436) -/

section
variable {s : State} {t n : Nat}

/-- Route words without an error stand. -/
theorem State.routeCheck_ok (h : s.eccOf .belRoute n = .ok) : s.routeCheck n = s := by
  rw [State.routeCheck, h]

/-- The result that reaches a target. -/
def State.arbPut (s : State) (t n : Nat) : State := { s with bell := { s.bell with arb := tput s.bell.arb t n } }

variable (sound : ∀ k, k ∈ s.pendingSources → s.eccOf .belRoute k = .ok)
include sound

theorem exec_arbitrate_eq : exec (.arbitrate t []) s = match s.winner t with
    | none => .next { s with bell := { s.bell with arb := tdel s.bell.arb t } }
    | some src =>
      if 513 ≤ t then .next ((s.claim t src).raiseVector (t - 513) (s.rf (belRoute src) 15 0))
      else .next ((match tfind s.bell.arb t with
        | some old => if old ≠ src then s.count evBelSwitch t 0 else s
        | none => s).arbPut t src) := by
  have out : exec (.arbitrate t []) s = execArbitrate t [] s := rfl
  have checked : s.each s.pendingSources State.routeCheck = s := State.each_eq_self fun k hk => State.routeCheck_ok (sound k hk)
  have parity : s.bellParity [] = s := rfl
  rw [out, execArbitrate, parity]
  dsimp only
  rw [checked]
  rfl

theorem exec_arbitrate_none (none : s.winner t = none) :
    exec (.arbitrate t []) s = .next { s with bell := { s.bell with arb := tdel s.bell.arb t } } := by
  rw [exec_arbitrate_eq sound, none]

theorem exec_arbitrate_first (target : t < 513) (won : s.winner t = some n)
    (same : tfind s.bell.arb t = none ∨ tfind s.bell.arb t = some n) :
    exec (.arbitrate t []) s = .next (s.arbPut t n) := by
  rw [exec_arbitrate_eq sound, won]
  dsimp only
  rw [if_neg (Nat.not_le.2 target)]
  rcases same with none | one
  · rw [none]
  · rw [one]
    dsimp only
    rw [if_neg (not_not.2 rfl)]

theorem exec_arbitrate_switch {m : Nat} (target : t < 513) (won : s.winner t = some n)
    (old : tfind s.bell.arb t = some m) (ne : m ≠ n) :
    exec (.arbitrate t []) s = .next ((s.count evBelSwitch t 0).arbPut t n) := by
  rw [exec_arbitrate_eq sound, won, old]
  dsimp only
  rw [if_neg (Nat.not_le.2 target), if_pos ne]

theorem exec_arbitrate_host (target : 513 ≤ t) (won : s.winner t = some n) :
    exec (.arbitrate t []) s = .next ((s.claim t n).raiseVector (t - 513) (s.rf (belRoute n) 15 0)) := by
  rw [exec_arbitrate_eq sound, won]
  dsimp only
  rw [if_pos target]

end

/-! ## A claim (R432) -/

section
variable (s : State) {t n : Nat}

/-- The registers of a claim. -/
def State.claimed (s : State) (t n : Nat) : State :=
  ((s.putPending n false).setB (belActive (n / 32)) (n % 32)).wrN (belTgt t) (2 ^ 31 + n)

theorem State.claim_eq (t n : Nat) : s.claim t n = (s.claimed t n).count evBelClaim n 0 := rfl

theorem State.rd_claim (t n : Nat) {a : Nat} (off : offWrap a = true) : (s.claim t n).rd a = (s.claimed t n).rd a := by
  rw [State.claim_eq, State.rd_count _ _ _ _ off]

theorem State.claim_target (t n : Nat) : (s.claim t n).rd (belTgt t) = BitVec.ofNat 32 (2 ^ 31 + n) :=
  (s.rd_claim t n (offWrap_belTgt t)).trans (State.rd_wrN _ _ _)

theorem State.claim_marks (small : n < 4096) : (s.claim t n).isPending n = false ∧ (s.claim t n).isActive n = true := by
  refine ⟨?_, ?_⟩
  · rw [State.isPending, State.rb, s.rd_claim t n (offWrap_belPend _), State.claimed,
      State.rd_wrN_ne _ _ (by unfold belPend belTgt; omega), State.setB,
      State.rd_wf_ne _ _ _ _ (by unfold belPend belActive; omega), ← State.rb, ← State.isPending, State.isPending_putPending,
      if_pos rfl]
  · rw [State.isActive, State.rb, s.rd_claim t n (offWrap_belActive _), State.claimed,
      State.rd_wrN_ne _ _ (by unfold belActive belTgt; omega)]
    exact State.rb_setB _ _ _ (by omega)

/-- A claimed target shows its source. -/
theorem claimWord (small : n < 4096) : (BitVec.ofNat 32 (2 ^ 31 + n)).getLsbD 31 = true ∧
    fld (BitVec.ofNat 32 (2 ^ 31 + n)) 11 0 = n := by
  refine ⟨?_, ?_⟩
  · rw [BitVec.getLsbD_ofNat, decide_eq_true (by decide), Bool.true_and, Nat.testBit_two_pow_add_eq,
      Nat.testBit_lt_two_pow (by omega)]
    rfl
  · unfold fld bits
    rw [BitVec.toNat_ofNat]
    omega

theorem State.claim_shows (small : n < 4096) : (s.claim t n).rb (belTgt t) 31 = true ∧
    (s.claim t n).rf (belTgt t) 11 0 = n := by
  rw [State.rb, State.rf, s.claim_target t n]
  exact claimWord small

end

end Sys2Proof.Machine

section
open Sys2Proof Sys2Proof.Machine

/-- Settles O21: a source by the bit it sets, the winner as the first candidate of the highest PRIO in the order of the
registers, and a claim by the registers it writes. -/
theorem bellboardSourcesAndArbitration : Obligations.BellboardSourcesAndArbitration := by
  unfold Obligations.BellboardSourcesAndArbitration
  refine ⟨fun n s _ pulse => ?_, fun n s _ quiet stands new => ?_, fun v s => ⟨fun bell quiet => ?_,
      fun bell waits => exec_bellPull_again bell waits, fun bad => exec_bellPull_bad bad⟩, fun t n s won => ⟨?_, fun k small cand => ?_,
      fun order k small cand equal => State.winner_lowest order won small cand equal⟩, fun t s none k small => ?_,
    fun t s sound => ⟨fun _ none => exec_arbitrate_none sound none,
      fun n target won same => exec_arbitrate_first sound target won same, fun n m target won old ne => ?_,
      fun n target won => exec_arbitrate_host sound target won⟩, fun t n s _ small => ?_⟩
  · obtain ⟨pending, others⟩ := State.isPending_asserted (s := s) (t := s.pulseTaken n) (n := n) rfl
    refine ⟨_, exec_sourceAssert_pulse pulse, pending, shas_sdel_same _ _, others, ?_⟩
    exact onlyIn_of_next (execSourceAssert_keeps s n) (exec_sourceAssert_pulse pulse)
  · obtain ⟨pending, others⟩ := State.isPending_asserted (s := s) (t := s.condTaken n) (n := n) rfl
    refine ⟨_, exec_sourceAssert_rise quiet stands new, pending, shas_sadd_same _ _, others, ?_⟩
    exact onlyIn_of_next (execSourceAssert_keeps s n) (exec_sourceAssert_rise quiet stands new)
  · refine ⟨_, exec_bellPull_new bell quiet, ?_, fun k _ ne => ?_, (s.putPending_keeps _ _).same⟩
    · rw [State.isPending_putPending, if_pos rfl]
    · rw [State.isPending_putPending, if_neg ne]
  · obtain ⟨-, before, after, split, -⟩ := State.winner_spec won
    exact (List.mem_filter.1 (split ▸ List.mem_append_right _ List.mem_cons_self)).2
  · exact (State.winner_spec won).1 k (State.mem_candidates small cand)
  · refine Bool.eq_false_iff.2 fun cand => ?_
    exact List.not_mem_nil (State.winner_none none ▸ State.mem_candidates small cand)
  · refine ⟨_, exec_arbitrate_switch sound target won old ne, ?_, rfl, rfl⟩
    rw [State.arbPut, State.bell_count]
  · obtain ⟨idle, active⟩ := s.claim_marks (t := t) small
    obtain ⟨taken, source⟩ := s.claim_shows (t := t) small
    exact ⟨idle, active, taken, source⟩

end

/-! PROOFS. Vectors, MSI-X messages, completion and route words (R430 to R440). -/

namespace Sys2Proof.Machine

/-! ## A thread takes a vector (R364, R432, R435) -/

section
variable {s : State} {tgt t n : Nat}

theorem State.takeVector_none (h : tfind s.bell.arb tgt = none) : s.takeVector tgt t = s := by rw [State.takeVector, h]

/-- The thread that goes on at a vector. -/
def Thread.vectored (th : Thread) (vec : Nat) : Thread :=
  { th with vret := th.pc, pc := vec, state := 1, wait := none, inVector := true }

/-- The result that reached the target is taken from it. -/
def State.arbTaken (s : State) (tgt : Nat) : State := { s with bell := { s.bell with arb := tdel s.bell.arb tgt } }

/-- A thread that is RUNNABLE outside a vector claims the result that reached its target. -/
theorem State.takeVector_takes (h : tfind s.bell.arb tgt = some n) (runs : (s.thr t).state = 1)
    (outside : (s.thr t).inVector = false) (front : (s.thr t).tail = false) (cand : s.candidate tgt n = true)
    (awake : t = atcThread ∨ s.loftGated (t / 64) = false) : s.takeVector tgt t =
      ((s.arbTaken tgt).claim tgt n).setThr t ((s.thr t).vectored (s.rf (belRoute n) 14 0)) := by
  have stays : (if t = atcThread then s.arbTaken tgt else (s.arbTaken tgt).wakeLoft (t / 64)) = s.arbTaken tgt := by
    rcases awake with attic | open_
    · exact if_pos attic
    · split
      · rfl
      · refine if_neg ?_
        exact Bool.eq_false_iff.1 open_
  have tail : { s.thr t with
      vret := (s.thr t).pc, pc := s.rf (belRoute n) 14 0, state := 1, wait := none, inVector := true, tail := false } =
      (s.thr t).vectored (s.rf (belRoute n) 14 0) := by rw [Thread.vectored, front]
  unfold State.takeVector
  rw [h]
  dsimp only
  rw [if_pos (by rw [runs, outside, cand]; rfl), front, tail]
  exact congrArg (fun u : State => (u.claim tgt n).setThr t ((s.thr t).vectored (s.rf (belRoute n) 14 0))) stays

/-- What a vector leaves: the thread at its routine, the source claimed, the target occupied. -/
theorem State.vector_shows (target : tgt < 513) (small : n < 4096) (th : Thread) :
    let u := ((s.arbTaken tgt).claim tgt n).setThr t th
    tfind u.bell.arb tgt = none ∧ u.thr t = th ∧ u.isPending n = false ∧ u.isActive n = true ∧
      u.rd (belTgt tgt) = BitVec.ofNat 32 (2 ^ 31 + n) := by
  obtain ⟨idle, active⟩ := (s.arbTaken tgt).claim_marks (t := tgt) small
  have bell {a : Nat} (lo : 0x04000000 ≤ a) (hi : a < 0x05000000) :
      (((s.arbTaken tgt).claim tgt n).setThr t th).rd a = ((s.arbTaken tgt).claim tgt n).rd a :=
    State.rd_setThr_ne _ _ (by unfold lftEngStatus; omega) (by unfold gatedLoft atcGatedLoftsLo atcGatedLoftsHi; split <;> omega)
  refine ⟨?_, State.thr_setThr _ _ _, ?_, ?_, ?_⟩
  · have same : (((s.arbTaken tgt).claim tgt n).setThr t th).bell = (s.arbTaken tgt).bell :=
      ((State.setThr_keeps _ _ _).same .bell (by decide)).trans ((State.claim_keeps _ _ _).same .bell (by decide))
    rw [same]
    exact tfind_tdel_same _ _
  · rw [State.isPending, State.rb, bell (by unfold belPend; omega) (by unfold belPend; omega)]
    exact idle
  · rw [State.isActive, State.rb, bell (by unfold belActive; omega) (by unfold belActive; omega)]
    exact active
  · rw [bell (by unfold belTgt; omega) (by unfold belTgt; omega)]
    exact State.claim_target _ _ _

/-- An engine's supervisor, or the Attic controller, takes its vector. -/
theorem State.takeVector_shows (target : tgt < 513) (small : n < 4096) (h : tfind s.bell.arb tgt = some n)
    (runs : (s.thr t).state = 1) (outside : (s.thr t).inVector = false) (front : (s.thr t).tail = false)
    (cand : s.candidate tgt n = true) (awake : t = atcThread ∨ s.loftGated (t / 64) = false) : let u := s.takeVector tgt t
    tfind u.bell.arb tgt = none ∧ u.thr t = (s.thr t).vectored (s.rf (belRoute n) 14 0) ∧ u.isPending n = false ∧
      u.isActive n = true ∧ u.rd (belTgt tgt) = BitVec.ofNat 32 (2 ^ 31 + n) := by
  rw [State.takeVector_takes h runs outside front cand awake]
  exact State.vector_shows target small _

theorem exec_vectorCommit (e : Nat) : exec (.vectorCommit e) s = .next (s.takeVector e (e * 8)) := rfl

theorem exec_atticVector : exec .atticVector s = .next (s.takeVector 512 atcThread) := rfl

end

/-! ## MSIX_SEND (R437) -/

section
variable {s : State} {fn vec : Nat}

/-- The moderation gap of a vector has passed. -/
def State.gapOver (s : State) (fn vec : Nat) : Bool :=
  s.rf (belFnMod fn) 15 0 == 0 || s.rb (dwyFnPm fn) 0 ||
    (match tfind s.bell.msixLast (fn * 2048 + vec) with
     | none => true
     | some t => decide (t + s.rf (belFnMod fn) 15 0 * 1000 ≤ s.ns))

/-- Enables, masks and sleep let a raised vector be sent. -/
def State.msixOpen (s : State) (fn vec : Nat) : Bool :=
  shas s.bell.msix (fn * 2048 + vec) && (s.fn fn).msixEn && (s.fn fn).busMaster && !(s.fn fn).msixMask &&
    !(tget ⟨0, 0, true⟩ s.dwy.msix (fn * 2048 + vec)).masked && !(s.fn fn).asleep

/-- A vector has been sent. -/
def State.msixSent (s : State) (fn vec : Nat) : State :=
  let e := tget ⟨0, 0, true⟩ s.dwy.msix (fn * 2048 + vec)
  ({ s with bell := { s.bell with
      msix := sdel s.bell.msix (fn * 2048 + vec)
      msixLast := tput s.bell.msixLast (fn * 2048 + vec) s.ns } }.emit (.msix fn vec e.addr e.data)).count evBelMsixSent fn 0

theorem exec_msixSend : exec (.msixSend fn vec) s =
    if s.msixOpen fn vec && s.gapOver fn vec then .next (s.msixSent fn vec) else .next s := rfl

theorem State.gapOver_of (h : s.rf (belFnMod fn) 15 0 = 0 ∨ s.rb (dwyFnPm fn) 0 = true ∨
    (∀ x, tfind s.bell.msixLast (fn * 2048 + vec) = some x → x + s.rf (belFnMod fn) 15 0 * 1000 ≤ s.ns)) :
    s.gapOver fn vec = true := by
  unfold State.gapOver
  rw [Bool.or_eq_true, Bool.or_eq_true, beq_iff_eq]
  rcases h with off | asleep | past
  · exact .inl (.inl off)
  · exact .inl (.inr asleep)
  · refine .inr ?_
    rcases e : tfind s.bell.msixLast (fn * 2048 + vec) with _ | x
    · rfl
    · exact decide_eq_true (past x e)

theorem State.gapOver_not {x : Nat} (on : s.rf (belFnMod fn) 15 0 ≠ 0) (awake : s.rb (dwyFnPm fn) 0 = false)
    (last : tfind s.bell.msixLast (fn * 2048 + vec) = some x) (early : s.ns < x + s.rf (belFnMod fn) 15 0 * 1000) :
    s.gapOver fn vec = false := by
  have running : (s.rf (belFnMod fn) 15 0 == 0) = false := by simpa using on
  unfold State.gapOver
  rw [running, awake, last]
  exact decide_eq_false (Nat.not_le.2 early)

theorem State.msixSent_shows (s : State) (fn vec : Nat) : let u := s.msixSent fn vec
    let e := tget ⟨0, 0, true⟩ s.dwy.msix (fn * 2048 + vec)
    shas u.bell.msix (fn * 2048 + vec) = false ∧ tfind u.bell.msixLast (fn * 2048 + vec) = some s.ns ∧
      u.outbox = s.outbox ++ [.msix fn vec e.addr e.data] := by
  dsimp only
  rw [State.msixSent, State.bell_count, State.outbox_count]
  exact ⟨shas_sdel_same _ _, tfind_tput_same _ _ _, rfl⟩

end

/-! ## Completion (R434, R436) -/

section
variable {s : State} {fn n : Nat} {v : Word}

/-- The source of a target is active no more, and the target is free. -/
def State.freed (s : State) (t n : Nat) : State := (s.putB (belActive (n / 32)) (n % 32) false).wrN (belTgt t) 0

theorem State.complete_eq (t : Nat) (occupied : s.rb (belTgt t) 31 = true) (is : s.rf (belTgt t) 11 0 = n) :
    s.complete t = if (s.freed t n).cond n && !((s.freed t n).isPending n)
      then ((s.freed t n).putPending n true).count evBelRearm n 0 else s.freed t n := by
  unfold State.complete
  rw [occupied, is]
  rfl

theorem State.rd_freed {t a : Nat} (active : a ≠ belActive (n / 32)) (target : a ≠ belTgt t) :
    (s.freed t n).rd a = s.rd a := (State.rd_wrN_ne _ _ target).trans (State.rd_wf_ne _ _ _ _ active)

theorem State.freed_sources {t : Nat} (k : Nat) (small : k < 4096) :
    (s.freed t n).isPending k = s.isPending k ∧ (s.freed t n).isActive k = if k = n then false else s.isActive k := by
  refine ⟨?_, ?_⟩
  · have apart : belPend (k / 32) ≠ belActive (n / 32) := by unfold belPend belActive; omega
    have target : belPend (k / 32) ≠ belTgt t := by unfold belPend belTgt; omega
    rw [State.isPending, State.rb, State.rd_freed apart target]
    rfl
  · have target : belActive (k / 32) ≠ belTgt t := by unfold belActive belTgt; omega
    rw [State.isActive, State.rb, State.freed, State.rd_wrN_ne _ _ target]
    exact s.isActive_putActive n k false

/-- What a completion leaves, whether or not the source is presented again. -/
theorem State.complete_shows {t : Nat} (low : t < 1024) (small : n < 4096) (occupied : s.rb (belTgt t) 31 = true)
    (is : s.rf (belTgt t) 11 0 = n) : let u := s.complete t
    u.isActive n = false ∧ u.rd (belTgt t) = 0 ∧
      (∀ k, k < 4096 → k ≠ n → u.isActive k = s.isActive k ∧ u.isPending k = s.isPending k) ∧
      (s.isPending n = true → u.isPending n = true) ∧ ((s.freed t n).cond n = true → u.isPending n = true) := by
  intro u
  have is_ : u = _ := State.complete_eq t occupied is
  have target : (s.freed t n).rd (belTgt t) = 0 := State.rd_wrN _ _ _
  by_cases again : ((s.freed t n).cond n && !((s.freed t n).isPending n)) = true
  · rw [if_pos again] at is_
    have rd {a : Nat} (off : offWrap a = true) (other : a ≠ belPend (n / 32)) : u.rd a = (s.freed t n).rd a := by
      rw [is_, State.rd_count _ _ _ _ off]
      exact State.rd_wf_ne _ _ _ _ other
    have pend (k : Nat) : u.isPending k = if k = n then true else (s.freed t n).isPending k := by
      rw [is_, State.isPending, State.rb, State.rd_count _ _ _ _ (offWrap_belPend _)]
      exact State.isPending_putPending _ _ _ _
    have act (k : Nat) (small : k < 4096) : u.isActive k = (s.freed t n).isActive k := by
      rw [State.isActive, State.rb, rd (offWrap_belActive _) (by unfold belActive belPend; omega)]
      rfl
    refine ⟨?_, ?_, fun k hk ne => ⟨?_, ?_⟩, fun _ => ?_, fun _ => ?_⟩
    · rw [act n small, (State.freed_sources n small).2, if_pos rfl]
    · rw [rd (offWrap_belTgt _) (by unfold belTgt belPend; omega), target]
    · rw [act k hk, (State.freed_sources k hk).2, if_neg ne]
    · rw [pend, if_neg ne, (State.freed_sources k hk).1]
    · rw [pend, if_pos rfl]
    · rw [pend, if_pos rfl]
  · rw [if_neg again] at is_
    refine ⟨?_, ?_, fun k hk ne => ⟨?_, ?_⟩, fun waits => ?_, fun stands => ?_⟩
    · rw [is_, (State.freed_sources n small).2, if_pos rfl]
    · rw [is_, target]
    · rw [is_, (State.freed_sources k hk).2, if_neg ne]
    · rw [is_, (State.freed_sources k hk).1]
    · rw [is_, (State.freed_sources n small).1, waits]
    · rw [is_]
      rw [stands, Bool.true_and, Bool.not_eq_true, Bool.not_eq_false'] at again
      exact again

theorem exec_eoiWrite_completes (occupied : s.rb (belTgt (513 + fn)) 31 = true)
    (is : s.rf (belTgt (513 + fn)) 11 0 = fld v 11 0) : exec (.eoiWrite fn v) s = .next (s.complete (513 + fn)) := by
  refine congrArg Host.Outcome.next (if_pos ?_)
  rw [occupied, is, Bool.true_and, beq_iff_eq]

theorem exec_eoiWrite_bad (h : s.rb (belTgt (513 + fn)) 31 = false ∨ s.rf (belTgt (513 + fn)) 11 0 ≠ fld v 11 0) :
    exec (.eoiWrite fn v) s = .next (s.count evBelEoiBad fn 0) := by
  refine congrArg Host.Outcome.next (if_neg ?_)
  rw [Bool.and_eq_true, beq_iff_eq]
  rintro ⟨occupied, is⟩
  rcases h with free | other
  · exact Bool.false_ne_true (free.symm.trans occupied)
  · exact other is

end

/-! ## Route words (R430, R439) -/

section
variable {s : State} {n : Nat} {v : Word}

/-- A route word that keeps a fixed source's target. -/
def routeFixed (n : Nat) (v : Word) : Bool := match fixedTarget n with
  | some (fk, ft) => decide (fld v 27 25 = fk ∧ fld v 24 16 = ft)
  | none => true

/-- A route word that is well formed. -/
def routeFormed (v : Word) : Bool := decide (fld v 27 25 ≤ 3 ∧ (fld v 27 25 = 2 → fld v 24 16 = 0) ∧
  (fld v 27 25 = 3 → fld v 24 16 < 64) ∧ (fld v 27 25 = 1 → fld v 15 0 ≤ 32767) ∧ (fld v 27 25 = 3 → fld v 15 0 ≤ 2047))

/-- A route is written, and its source routed again. -/
def State.routed (s : State) (n : Nat) (v : Word) : State :=
  ({ s with bell := { s.bell with unrouted := sdel s.bell.unrouted n } }.eccClear .belRoute n).wr (belRoute n) v

theorem routeFixed_iff : routeFixed n v = true ↔
    fixedTarget n = none ∨ fixedTarget n = some (fld v 27 25, fld v 24 16) := by
  unfold routeFixed
  rcases h : fixedTarget n with _ | ⟨fk, ft⟩
  · exact ⟨fun _ => .inl rfl, fun _ => rfl⟩
  · dsimp only
    rw [decide_eq_true_iff, Option.some.injEq, Prod.mk.injEq, eq_comm (a := fk), eq_comm (a := ft)]
    exact ⟨.inr, fun x => x.resolve_left (Option.some_ne_none _)⟩

theorem State.routeWrite_taken (idle : s.rf mstInjCtl 26 24 = 0) (fixed : routeFixed n v = true)
    (formed : routeFormed v = true) :
    s.routeWrite n v = s.routed n v := by
  have stands : (s.routed n v).rf mstInjCtl 26 24 = 0 := by
    rw [State.routed, State.rf_wr_ne _ _ _ _ (by unfold mstInjCtl belRoute; omega)]
    exact idle
  have cond : (routeFixed n v && routeFormed v) = true := by rw [fixed, formed]; rfl
  exact (if_pos cond).trans (State.inject_idle stands)

theorem State.routeWrite_refused (h : routeFixed n v = false ∨ routeFormed v = false) : s.routeWrite n v = s.setB belErr 0 := by
  have cond : ¬(routeFixed n v && routeFormed v) = true := by
    rw [Bool.and_eq_true]
    rintro ⟨fixed, formed⟩
    rcases h with moved | ill
    · exact Bool.false_ne_true (moved.symm.trans fixed)
    · exact Bool.false_ne_true (ill.symm.trans formed)
  exact if_neg cond

theorem State.routed_shows (s : State) (n : Nat) (v : Word) : let u := s.routed n v
    u.rd (belRoute n) = v ∧ shas u.bell.unrouted n = false ∧ u.eccOf .belRoute n = .ok ∧
      (∀ b, b ≠ belRoute n → u.rd b = s.rd b) ∧ onlyIn [.regs, .ecc, .bell] s u := by
  refine ⟨State.rd_wr_same _ _ _, shas_sdel_same _ _, ?_, fun b ne => State.rd_wr_ne _ _ ne, ?_⟩
  · refine Eq.trans (State.eccOf_congr (State.wr_ecc _ _ _) _ _) ?_
    rw [State.eccOf_eccClear, if_pos ⟨rfl, rfl⟩]
  · exact ((State.wr_keeps _ _ _).after rfl ((State.eccClear_keeps _ _ _).after rfl (Keeps.put_bell rfl (.refl s)))).same

/-! ## ROUTE_SCRUB -/

theorem exec_routeScrub (e : Ecc) : exec (.routeScrub n e) s = .next ((s.eccFlag .belRoute n e).routeCheck n) := rfl

/-- A correctable route word is corrected. -/
theorem exec_routeScrub_corrects (good : s.eccOf .belRoute n = .ok) :
    ∃ u, exec (.routeScrub n .corr) s = .next u ∧ u.rb belErr 1 = true ∧ u.eccOf .belRoute n = .ok ∧
      u.targetOf n = s.targetOf n ∧ onlyIn [.regs, .ecc, .mast] s u := by
  have found := State.eccOf_eccFlag good .corr
  have flagged := s.eccFlag_keeps .belRoute n .corr
  refine ⟨_, exec_routeScrub .corr, ?_⟩
  rw [State.routeCheck, found]
  dsimp only
  generalize s.eccFlag .belRoute n .corr = t at flagged
  have only : Keeps [.regs, .ecc, .mast] s ((((t.eccClear .belRoute n).setB belErr 1).report 0x2D 0 (BitVec.ofNat 32 n)).count
      evBelEccCorr 0 0) :=
    (State.count_keeps _ _ _ _).after rfl ((State.report_keeps _ _ _ _).after rfl ((State.setB_keeps _ _ _).after rfl
      ((t.eccClear_keeps _ _).after rfl (flagged.mono rfl))))
  refine ⟨?_, ?_, ?_, only.same⟩
  · rw [(regsStand.count _ _ _ _).rb 1 (by decide), State.rb, State.rd_report _ _ _ _ (by decide)]
    exact State.rb_setB _ _ _ (by decide)
  · refine Eq.trans (State.eccOf_congr ?_ _ _) ((t.eccOf_eccClear .belRoute .belRoute n n).trans (if_pos ⟨rfl, rfl⟩))
    rw [State.ecc_count, State.ecc_report, State.setB_ecc]
  · have route : ((((t.eccClear .belRoute n).setB belErr 1).report 0x2D 0 (BitVec.ofNat 32 n)).count evBelEccCorr 0 0).rd
        (belRoute n) = s.rd (belRoute n) := by
      rw [State.rd_count _ _ _ _ (offWrap_belRoute n), State.rd_report _ _ _ _ (offWrap_belRoute n), State.setB,
        State.rd_wf_ne _ _ _ _ (by unfold belRoute belErr; omega),
        State.rd_congr ((t.eccClear_keeps _ _).same .regs (by decide)), State.rd_congr (flagged.same .regs (by decide))]
    rw [State.targetOf, State.targetOf, State.rf, State.rf, route, only.same .bell (by decide)]
    rfl

/-- A source with an uncorrectable route word has no target. -/
theorem exec_routeScrub_unroutes (small : n < 4096) (good : s.eccOf .belRoute n = .ok) :
    ∃ u, exec (.routeScrub n .uncorr) s = .next u ∧ u.rb belErr 2 = true ∧ u.rdN belErrLoc = n ∧
      u.targetOf n = none ∧ onlyIn [.regs, .ecc, .mast, .bell] s u := by
  have found := State.eccOf_eccFlag good .uncorr
  have flagged := s.eccFlag_keeps .belRoute n .uncorr
  have checked := (s.eccFlag .belRoute n .uncorr).routeCheck_keeps n
  refine ⟨_, exec_routeScrub .uncorr, ?_⟩
  revert checked
  rw [State.routeCheck, found]
  dsimp only
  generalize s.eccFlag .belRoute n .uncorr = t at flagged
  refine fun checked => ⟨?_, ?_, ?_, (checked.after rfl (flagged.mono rfl)).same⟩
  · rw [(regsStand.count _ _ _ _).rb 2 (by decide), State.rb, State.rd_report _ _ _ _ (by decide),
      State.rd_wrN_ne _ _ (by decide)]
    exact State.rb_setB _ _ _ (by decide)
  · rw [(regsStand.count _ _ _ _).rdN (by decide), State.rdN, State.rd_report _ _ _ _ (by decide), State.rd_wrN,
      BitVec.toNat_ofNat, Nat.mod_eq_of_lt (by omega)]
  · rw [State.targetOf, State.bell_count, State.bell_report, State.wrN_bell, State.setB_bell]
    dsimp only
    rw [shas_sadd_same, if_pos rfl]

end

end Sys2Proof.Machine

section
open Sys2Proof Sys2Proof.Machine

/-- Settles O22: a vector by the claim it makes, a message by its gates, an EOI by the completion, a route by its form. -/
theorem bellboardVectorsRoutesAndCompletion : Obligations.BellboardVectorsRoutesAndCompletion := by
  unfold Obligations.BellboardVectorsRoutesAndCompletion
  refine ⟨fun e n s he arb runs outside front cand small awake => ?_, fun n s arb runs outside front cand small => ?_,
    fun t s none => ?_, fun fn vec s raised enabled master open_ awake unmasked => ⟨fun gap => ?_,
      fun x on up last early => ?_⟩, fun fn n v s hf => ⟨fun occupied is named => ?_, fun bad => exec_eoiWrite_bad bad⟩,
    fun n v s _ idle => ⟨fun fixed formed => ?_, fun refused => ?_⟩, fun n s small good => ⟨?_, exec_routeScrub_corrects good,
      exec_routeScrub_unroutes small good⟩⟩
  · obtain ⟨gone, thread, idle, active, target⟩ :=
      State.takeVector_shows (t := e * 8) (by omega) small arb runs outside front cand (.inr awake)
    exact ⟨_, exec_vectorCommit e, gone, thread, idle, active, target⟩
  · obtain ⟨-, thread, idle, active, target⟩ :=
      State.takeVector_shows (t := atcThread) (by decide) small arb runs outside front cand (.inl rfl)
    exact ⟨_, exec_atticVector, thread, idle, active, target⟩
  · rw [exec_vectorCommit, State.takeVector_none none]
  · have free : s.msixOpen fn vec = true := by
      rw [State.msixOpen, raised, enabled, master, open_, awake, unmasked]
      rfl
    obtain ⟨sent, time, told⟩ := s.msixSent_shows fn vec
    have out := exec_msixSend (s := s) (fn := fn) (vec := vec)
    rw [free, State.gapOver_of gap, if_pos (by rfl)] at out
    exact ⟨_, out, sent, time, told, onlyIn_of_next (execMsixSend_keeps s fn vec) out⟩
  · rw [exec_msixSend, State.gapOver_not on up last early, Bool.and_false, if_neg Bool.false_ne_true]
  · have small : n < 4096 := by
      rw [← is]
      exact s.rf_lt _ _ _
    obtain ⟨idle, target, others, waits, again⟩ := State.complete_shows (by omega) small occupied is
    exact ⟨_, exec_eoiWrite_completes occupied (is.trans named.symm), idle, target, others, waits, again,
      (s.complete_keeps _).same⟩
  · have out : exec (.routeWrite n v) s = .next (s.routeWrite n v) := rfl
    rw [State.routeWrite_taken idle (routeFixed_iff.2 fixed) (decide_eq_true (by omega))] at out
    exact ⟨_, out, s.routed_shows n v⟩
  · refine congrArg Host.Outcome.next (State.routeWrite_refused ?_)
    rcases refused with ⟨p, fixed, ne⟩ | ill
    · refine .inl (Bool.eq_false_iff.2 fun ok => ?_)
      rcases routeFixed_iff.1 ok with none | same
      · exact absurd (fixed.symm.trans none) (by simp)
      · exact ne (Option.some.inj (fixed.symm.trans same))
    · exact .inr (decide_eq_false (by omega))
  · rw [exec_routeScrub]
    exact congrArg Host.Outcome.next (State.routeCheck_ok good)

end

/-! PROOFS. Doorway's registers and queues: the rows of a queue's registers, its state, what a write of one queue
leaves of another (R398 to R400). -/

namespace Sys2Proof.Machine

/-! ## Rows of the register map -/

section
variable {r : RegRow} {a : Nat}

theorem RegRow.hit_of_ne (one : r.n = 1) (flat : r.n2 = 1) (ne : a ≠ r.base) : r.hit a = none := by
  unfold RegRow.hit
  simp only [one, flat, if_true]
  split
  · rfl
  · exact if_neg (by omega)

theorem RegRow.hit_of_past (many : r.n ≠ 1) (past : r.n * r.st ≤ a - r.base) (pos : 0 < r.st) : r.hit a = none := by
  unfold RegRow.hit
  have out : r.n ≤ (a - r.base) / r.st := (Nat.le_div_iff_mul_le pos).2 past
  simp only [many, if_false]
  split
  · rfl
  · exact if_neg (by omega)

theorem RegRow.hit_of_off (many : r.n ≠ 1) (flat : r.n2 = 1) (off : (a - r.base) % r.st ≠ 0) : r.hit a = none := by
  unfold RegRow.hit
  have e := Nat.div_add_mod (a - r.base) r.st
  rw [Nat.mul_comm] at e
  simp only [many, flat, if_false, if_true]
  split
  · rfl
  · exact if_neg (by omega)

theorem RegRow.hit_at {i : Nat} (many : r.n ≠ 1) (flat : r.n2 = 1) (pos : 0 < r.st) (lt : i < r.n) :
    r.hit (r.base + r.st * i) = some (i, 0) := by
  unfold RegRow.hit
  have e : (r.base + r.st * i - r.base) / r.st = i := by rw [Nat.add_sub_cancel_left, Nat.mul_div_cancel_left _ pos]
  have z : r.base + r.st * i - r.base - i * r.st = 0 := by rw [Nat.mul_comm]; omega
  simp only [many, flat, if_false, if_true, e, z]
  rw [if_neg (by omega), if_pos (by omega)]

/-- The first row of a list that an address hits. -/
theorem findSome_hit {l m : List RegRow} {p : Nat × Nat} (miss : ∀ x ∈ l, x.hit a = none) (hit : r.hit a = some p) :
    (l ++ r :: m).findSome? (fun x => (x.hit a).map fun p => (x, p.1, p.2)) = some (r, p.1, p.2) := by
  rw [List.findSome?_append, List.findSome?_eq_none_iff.2 fun x hx => by rw [miss x hx]; rfl, List.findSome?_cons, hit]
  rfl

end

theorem rowsOf_doorway {a : Nat} (lo : 0x3000000 ≤ a) (hi : a < 0x4000000) : rowsOf a = rowsDoorway := by
  have w : a / 0x1000000 = 3 := by omega
  rw [rowsOf, if_neg (by omega), w]
  rfl

/-- The rows of window 0x03 ahead of the queues' registers. -/
theorem doorwayHead_misses {a : Nat} (lo : 0x3100000 ≤ a) : ∀ x ∈ rowsDoorway.take 10, x.hit a = none := by
  have shape : ∀ x ∈ rowsDoorway.take 10, (x.n = 1 ∧ x.n2 = 1 ∧ x.base < 0x3100000) ∨
      (x.n ≠ 1 ∧ 0 < x.st ∧ x.base + x.n * x.st ≤ 0x3100000) := by decide
  intro x hx
  rcases shape x hx with ⟨one, flat, below⟩ | ⟨many, pos, past⟩
  · exact RegRow.hit_of_ne one flat (by omega)
  · exact RegRow.hit_of_past many (by omega) pos

/-- A queue register's row: the offset `k` of the row in a queue's 64 bytes tells the rows apart. -/
theorem regAt_queue {q k n : Nat} {r : RegRow} (small : q < 16384) (split : rowsDoorway.drop 10 =
      (rowsDoorway.drop 10).take n ++ r :: (rowsDoorway.drop 10).drop (n + 1))
    (apart : ∀ x ∈ (rowsDoorway.drop 10).take n, x.n = 16384 ∧ x.n2 = 1 ∧ x.st = 0x40 ∧ 0x03100000 ≤ x.base ∧
      x.base < 0x03100000 + k) (kLt : k < 64) (rn : r.n = 16384) (flat : r.n2 = 1) (st : r.st = 0x40)
    (base : r.base = 0x03100000 + k) : regAt (0x03100000 + k + 0x40 * q) = some (r, q, 0) := by
  have hit : r.hit (0x03100000 + k + 0x40 * q) = some (q, 0) := by
    have := RegRow.hit_at (r := r) (i := q) (by omega) flat (by omega) (by omega)
    rwa [base, st] at this
  have miss : ∀ x ∈ rowsDoorway.take 10 ++ (rowsDoorway.drop 10).take n, x.hit (0x03100000 + k + 0x40 * q) = none := by
    intro x hx
    rcases List.mem_append.1 hx with head | row
    · exact doorwayHead_misses (by omega) x head
    · obtain ⟨xn, xflat, xst, xlo, xhi⟩ := apart x row
      exact RegRow.hit_of_off (by omega) xflat (by rw [xst]; omega)
  have rows : rowsDoorway = (rowsDoorway.take 10 ++ (rowsDoorway.drop 10).take n) ++ r ::
      (rowsDoorway.drop 10).drop (n + 1) := by rw [List.append_assoc, ← split, List.take_append_drop]
  rw [regAt, rowsOf_doorway (by omega) (by omega), rows, findSome_hit miss hit]

theorem regAt_dwyQpCfg {q : Nat} (small : q < 16384) : regAt (dwyQpCfg q) =
    some ({ base := 0x03100000, n := 16384, st := 0x40, rw := 0xffff07ff }, q, 0) :=
  regAt_queue (k := 0) (n := 0) small rfl (by decide) (by decide) rfl rfl rfl rfl

theorem regAt_dwySqPi {q : Nat} (small : q < 16384) : regAt (dwySqPi q) =
    some ({ base := 0x03100028, n := 16384, st := 0x40, rw := 0xffff }, q, 0) :=
  regAt_queue (k := 0x28) (n := 10) small rfl (by decide) (by decide) rfl rfl rfl rfl

theorem regAt_dwyCqCi {q : Nat} (small : q < 16384) : regAt (dwyCqCi q) =
    some ({ base := 0x03100034, n := 16384, st := 0x40, rw := 0xffff }, q, 0) :=
  regAt_queue (k := 0x34) (n := 13) small rfl (by decide) (by decide) rfl rfl rfl rfl

theorem regAt_dwyFnQp : ∀ f < 64, regAt (dwyFnQp f) =
    some ({ base := 0x03000100, n := 64, st := 0x4, rw := 0x7fff3fff }, f, 0) := by decide +kernel

/-! ## Queues and functions -/

section
variable (s : State) (q : Nat)

theorem offWrap_doorway {a : Nat} (h : 0x3000000 ≤ a) : offWrap a = true := offWrap_of_window h

@[simp] theorem State.dq_setDq (x : DwyQ) : (s.setDq q x).dq q = x := tget_tput_same _ _ _ _

theorem State.dq_setDq_ne {p : Nat} (x : DwyQ) (ne : p ≠ q) : (s.setDq q x).dq p = s.dq p := tget_tput_ne _ _ _ _ _ ne

@[simp] theorem State.fn_setFn (x : DwyFn) : (s.setFn q x).fn q = x := tget_tput_same _ _ _ _

theorem State.fn_setFn_ne {g : Nat} (x : DwyFn) (ne : g ≠ q) : (s.setFn q x).fn g = s.fn g := by
  unfold State.fn State.setFn
  exact tget_tput_ne _ _ _ _ _ ne

@[simp] theorem State.regs_setDq (x : DwyQ) : (s.setDq q x).regs = s.regs := rfl

@[simp] theorem State.rd_setDq (x : DwyQ) (a : Nat) : (s.setDq q x).rd a = s.rd a := rfl

@[simp] theorem State.fns_setDq (x : DwyQ) : (s.setDq q x).dwy.fns = s.dwy.fns := rfl

@[simp] theorem State.outbox_setDq (x : DwyQ) : (s.setDq q x).outbox = s.outbox := rfl

theorem State.dq_congr {t : State} (h : t.dwy = s.dwy) (p : Nat) : t.dq p = s.dq p := by rw [State.dq, State.dq, h]

theorem State.fn_congr {t : State} (h : t.dwy = s.dwy) (f : Nat) : t.fn f = s.fn f := by rw [State.fn, State.fn, h]

theorem State.qState_setQState {st : Nat} (fits : st < 8) : (s.setQState q st).qState q = st :=
  s.rf_wf_fits _ (by decide) (by decide) fits

theorem State.rd_setQState_ne {a st : Nat} (ne : a ≠ dwyQpStatus q) : (s.setQState q st).rd a = s.rd a :=
  s.rd_wf_ne _ _ _ ne

theorem State.qState_setQState_ne {p st : Nat} (ne : p ≠ q) : (s.setQState q st).qState p = s.qState p := by
  rw [State.qState, State.rf, s.rd_setQState_ne q (by unfold dwyQpStatus; omega)]
  rfl

/-- The rest of the status word stands while the queue's state changes. -/
theorem State.rf_setQState {st hi lo : Nat} (below : hi < 29) : (s.setQState q st).rf (dwyQpStatus q) hi lo =
    s.rf (dwyQpStatus q) hi lo := s.rf_wf_ne _ _ _ _ _ _ (by decide) (by decide) (by omega) (.inl below)

/-- The function of a queue is told by the ranges of R398. -/
theorem State.fnOfQ_congr {s t : State} (h : ∀ f < 64, t.rd (dwyFnQp f) = s.rd (dwyFnQp f)) (q : Nat) :
    t.fnOfQ q = s.fnOfQ q := by
  unfold State.fnOfQ
  refine List.find?_congr fun f hf => ?_
  rw [State.rf, State.rf, State.rf, State.rf, h f (mem_upto.1 hf)]

end

end Sys2Proof.Machine

/-! PROOFS. Queues are paused, resumed, reset, enabled, halted and given to functions (R398 to R423). -/

namespace Sys2Proof.Machine

/-! ## Pause and resume (R409, R410) -/

section
variable {q : Nat} {s : State}

theorem exec_qpPause (q : Nat) (s : State) : exec (.qpPause q) s = .next (s.qPause q) := rfl

theorem exec_qpResume (q : Nat) (s : State) : exec (.qpResume q) s = .next (s.qResume q) := rfl

theorem exec_qpReset (q : Nat) (s : State) : exec (.qpReset q) s = .next (s.qReset q) := rfl

theorem exec_qpPause_running (run : s.qState q = 1) : ∃ u, exec (.qpPause q) s = .next u ∧ u.qState q = 3 ∧
    onlyIn [.regs] s u := by
  refine ⟨s.setQState q 3, ?_, s.qState_setQState q (by decide), (s.wf_keeps _ _ _ _).same⟩
  rw [exec_qpPause, State.qPause, if_pos run]

/-- A queue that resumes: what was prefetched is dropped and CAUSE is clear. -/
def State.resumed (s : State) (q : Nat) : State :=
  ((s.setDq q { s.dq q with prefetch := [], waited := false }).wf (dwyQpStatus q) 23 16 0).setQState q 1

theorem State.qResume_runs (rests : s.qState q = 3 ∨ s.qState q = 4) : s.qResume q = s.resumed q := if_pos rests

theorem State.resumed_shows (q : Nat) (s : State) : (s.resumed q).qState q = 1 ∧
    (s.resumed q).rf (dwyQpStatus q) 23 16 = 0 ∧ (s.resumed q).dq q = { s.dq q with prefetch := [], waited := false } ∧
    (s.resumed q).sqCi q = s.sqCi q := by
  refine ⟨State.qState_setQState _ q (by decide), ?_, s.dq_setDq q _, ?_⟩
  · rw [State.resumed, State.rf_setQState _ q (by decide), State.rf_wf_fits _ _ (by decide) (by decide) (by decide)]
  · have apart : dwySqCi q ≠ dwyQpStatus q := by unfold dwySqCi dwyQpStatus; omega
    rw [State.sqCi, State.rf, State.resumed, State.rd_setQState_ne _ q apart, State.rd_wf_ne _ _ _ _ apart]
    rfl

theorem exec_qpResume_resting (rests : s.qState q = 3 ∨ s.qState q = 4) : ∃ u, exec (.qpResume q) s = .next u ∧
    u.qState q = 1 ∧ u.rf (dwyQpStatus q) 23 16 = 0 ∧ u.dq q = { s.dq q with prefetch := [], waited := false } ∧
    u.sqCi q = s.sqCi q ∧ onlyIn [.regs, .dwy] s u := by
  obtain ⟨runs, cause, queue, taken⟩ := s.resumed_shows q
  have out : exec (.qpResume q) s = .next (s.resumed q) := by rw [exec_qpResume, State.qResume_runs rests]
  exact ⟨_, out, runs, cause, queue, taken, onlyIn_of_next (execQpResume_keeps s q) out⟩

end

/-! ## Reset (R419) -/

/-- The reset of a queue is over: DISABLED, its indices 0, EN clear. -/
def resetOver (q : Nat) (u : State) : Prop :=
  u.qState q = 0 ∧ u.qEn q = false ∧ u.sqPi q = 0 ∧ u.sqCi q = 0 ∧ u.cqPi q = 0 ∧ u.cqCi q = 0

/-- A queue's registers once its last entry is discarded. -/
def State.resetClears (s : State) (q : Nat) : State :=
  let s1 := ((((s.wr (dwySqPi q) 0).wr (dwySqCi q) 0).wr (dwyCqPi q) 0).wr (dwyCqCi q) 0).putB (dwyQpCfg q) 31 false
  (s1.wf (dwyQpStatus q) 27 0 0).setQState q 0

section
variable {q : Nat} {s : State}

theorem State.resetDone_waits (h : s.qState q ≠ 6 ∨ (s.dq q).taken ≠ []) : s.resetDone q = s := by
  refine if_pos (h.imp_right fun some_ => ?_)
  rw [List.isEmpty_eq_false_iff.2 some_]
  rfl

theorem State.resetDone_ends (resets : s.qState q = 6) (none_ : (s.dq q).taken = []) :
    s.resetDone q = s.resetClears q := by
  refine if_neg ?_
  rw [resets, none_]
  decide

theorem State.resetClears_over (q : Nat) (s : State) : resetOver q (s.resetClears q) := by
  refine ⟨State.qState_setQState _ q (by decide), ?_, ?_, ?_, ?_, ?_⟩
  · have apart : dwyQpCfg q ≠ dwyQpStatus q := by unfold dwyQpCfg dwyQpStatus; omega
    rw [State.qEn, State.rb, State.resetClears, State.rd_setQState_ne _ q apart, State.rd_wf_ne _ _ _ _ apart]
    exact State.rb_putB _ _ _ _ (by decide)
  all_goals
    simp [State.sqPi, State.sqCi, State.cqPi, State.cqCi, State.rf, State.resetClears, State.setQState, State.wf,
      State.putB, State.rd_wr, dwySqPi, dwySqCi, dwyCqPi, dwyCqCi, dwyQpStatus, dwyQpCfg]
    rfl

theorem State.dq_resetClears (q p : Nat) (s : State) : (s.resetClears q).dq p = s.dq p := State.dq_congr _ rfl p

theorem State.dwy_cmplDiscard (q buf : Nat) (s : State) : (s.cmplDiscard q buf).dwy = s.dwy :=
  (s.cmplDiscard_keeps q buf).same .dwy (by decide)

/-- What is discarded of a queue in reset: what it held and the entries that have ended. -/
def State.qDiscards (s : State) (q : Nat) : State :=
  let x := s.dq q
  let s1 := s.setDq q { DwyQ.init with taken := x.taken.filter (·.wait != 0) }
  (s1.each x.held fun t c => t.cmplDiscard q c.buf).each (x.taken.filter (·.wait == 0)) fun t e => t.cmplDiscard q e.buf

theorem State.qReset_eq (busy : s.qState q ≠ 0) : s.qReset q = ((s.qDiscards q).setQState q 6).resetDone q := if_neg busy

theorem State.dwy_qDiscards (q : Nat) (s : State) : (s.qDiscards q).dwy =
    (s.setDq q { DwyQ.init with taken := (s.dq q).taken.filter (·.wait != 0) }).dwy := by
  unfold State.qDiscards
  dsimp only
  rw [State.each_stands (g := State.dwy) fun t x _ => t.dwy_cmplDiscard q x.buf,
    State.each_stands (g := State.dwy) fun t x _ => t.dwy_cmplDiscard q x.buf]

theorem State.dq_qDiscards (q : Nat) (s : State) : (s.qDiscards q).dq q =
    { DwyQ.init with taken := (s.dq q).taken.filter (·.wait != 0) } := by
  rw [State.dq_congr _ (s.dwy_qDiscards q)]
  exact s.dq_setDq q _

/-- Whatever a queue held, its reset keeps only the entries that wait. -/
theorem State.dq_qReset (busy : s.qState q ≠ 0) : (s.qReset q).dq q =
    { DwyQ.init with taken := (s.dq q).taken.filter (·.wait != 0) } := by
  have resetting : ((s.qDiscards q).setQState q 6).dq q = _ := s.dq_qDiscards q
  rw [State.qReset_eq busy, ← resetting]
  by_cases none_ : (((s.qDiscards q).setQState q 6).dq q).taken = []
  · rw [State.resetDone_ends (State.qState_setQState _ q (by decide)) none_, State.dq_resetClears]
  · rw [State.resetDone_waits (.inr none_)]

theorem exec_qpReset_ends (busy : s.qState q ≠ 0) (ended : ∀ t ∈ (s.dq q).taken, t.wait = 0) :
    ∃ u, exec (.qpReset q) s = .next u ∧ resetOver q u ∧ u.dq q = DwyQ.init := by
  have waiting : (s.dq q).taken.filter (·.wait != 0) = [] :=
    List.filter_eq_nil_iff.2 fun t ht => by simp [ended t ht]
  have queue : ((s.qDiscards q).setQState q 6).dq q = _ := s.dq_qDiscards q
  rw [waiting] at queue
  refine ⟨_, exec_qpReset q s, ?_, ?_⟩
  · rw [State.qReset_eq busy, State.resetDone_ends (State.qState_setQState _ q (by decide)) (by rw [queue])]
    exact State.resetClears_over q _
  · rw [State.dq_qReset busy, waiting]
    rfl

theorem exec_qpReset_waits (busy : s.qState q ≠ 0) (waits : ∃ t ∈ (s.dq q).taken, t.wait ≠ 0) :
    ∃ u, exec (.qpReset q) s = .next u ∧ u.qState q = 6 ∧
      u.dq q = { DwyQ.init with taken := (s.dq q).taken.filter (·.wait != 0) } := by
  refine ⟨_, exec_qpReset q s, ?_, State.dq_qReset busy⟩
  have queue : ((s.qDiscards q).setQState q 6).dq q = _ := s.dq_qDiscards q
  rw [State.qReset_eq busy, State.resetDone_waits (.inr ?_)]
  · exact State.qState_setQState _ q (by decide)
  · obtain ⟨t, mem, wait⟩ := waits
    rw [queue]
    exact List.ne_nil_of_mem (List.mem_filter.2 ⟨mem, bne_iff_ne.2 wait⟩)

end

/-! ## Enabling a queue (R423) -/

section
variable {q : Nat} {v : Word} {s : State}

theorem exec_qpEnable (q : Nat) (v : Word) (s : State) : exec (.qpEnable q v) s = .next (s.qpCfgWrite q v) := rfl

/-- What R423 refuses whatever the generation and the window. -/
theorem State.qpOk_ill (ill : s.fnOfQ q = none ∨ fld v 30 28 = 0 ∨ 3 < fld v 30 28 ∨ fld v 19 16 < 4 ∨
      12 < fld v 19 16 ∨ ((fld v 30 28 = 1 ∨ fld v 30 28 = 2 ∨ v.getLsbD 25 = true) ∧
        (fld v 23 20 < 4 ∨ 12 < fld v 23 20 ∨ s.rd64 (dwySqBaseLo q) % 64 ≠ 0)) ∨
      (v.getLsbD 25 = true ∧ fld v 30 28 ≠ 3) ∨ s.rd64 (dwyCqBaseLo q) % 64 ≠ 0 ∨ s.rd64 (dwyIdxBaseLo q) % 64 ≠ 0) :
    s.qpOk q v = false := by
  rw [← Bool.not_eq_true]
  intro ok
  simp only [State.qpOk, Bool.and_eq_true, Bool.or_eq_true, Bool.not_eq_true', decide_eq_true_eq, beq_iff_eq,
    Bool.and_eq_false_imp] at ok
  obtain ⟨⟨⟨⟨⟨⟨⟨⟨⟨⟨some_, -⟩, kind⟩, sqLog⟩, cqLog⟩, copy⟩, -⟩, sqBase⟩, cqBase⟩, -⟩, -⟩ := ok
  rcases ill with none_ | rest
  · rw [none_] at some_
    exact absurd some_ (by decide)
  · grind

/-- A queue that is enabled: its configuration, its indices at 0, its bookkeeping new. -/
def State.enabledQ (s : State) (q : Nat) (v : Word) : State :=
  let s1 := ((((s.plainWrite (dwyQpCfg q) v).wr (dwySqPi q) 0).wr (dwySqCi q) 0).wr (dwyCqPi q) 0).wr (dwyCqCi q) 0
  (s1.setDq q { DwyQ.init with prev := 1 }).setQState q (if s.rb dwyHalt 31 then 5 else 1)

/-- A write of DWY_QP_CFG, case by case. -/
theorem State.qpCfgWrite_eq (s : State) (q : Nat) (v : Word) : s.qpCfgWrite q v =
    if s.qEn q then
      if !(v &&& 0x7FFF07FF == s.rd (dwyQpCfg q) &&& 0x7FFF07FF) then s.setB (dwyFnErr (s.fnOf q)) 0
      else if v.getLsbD 31 then s else s.qReset q
    else if !(v.getLsbD 31) then s.plainWrite (dwyQpCfg q) v
    else if s.qState q ≠ 0 ∨ !(s.qpOk q v) then s.setB (dwyFnErr (s.fnOf q)) 0
    else s.enabledQ q v := rfl

theorem State.qpCfgWrite_differs (on : s.qEn q = true)
    (differs : ¬ v &&& 0x7FFF07FF = s.rd (dwyQpCfg q) &&& 0x7FFF07FF) :
    s.qpCfgWrite q v = s.setB (dwyFnErr (s.fnOf q)) 0 := by
  rw [State.qpCfgWrite_eq, if_pos on, if_pos (by simpa using differs)]

theorem State.qpCfgWrite_again (on : s.qEn q = true) (same : v &&& 0x7FFF07FF = s.rd (dwyQpCfg q) &&& 0x7FFF07FF)
    (stays : v.getLsbD 31 = true) : s.qpCfgWrite q v = s := by
  rw [State.qpCfgWrite_eq, if_pos on, if_neg (by simpa using same), if_pos stays]

theorem State.qpCfgWrite_refused (off : s.qEn q = false) (on : v.getLsbD 31 = true)
    (no : s.qState q ≠ 0 ∨ s.qpOk q v = false) : s.qpCfgWrite q v = s.setB (dwyFnErr (s.fnOf q)) 0 := by
  rw [State.qpCfgWrite_eq, if_neg (by simp [off]), if_neg (by simp [on]), if_pos (by simpa using no)]

theorem State.qpCfgWrite_enables (off : s.qEn q = false) (on : v.getLsbD 31 = true) (idle : s.qState q = 0)
    (ok : s.qpOk q v = true) : s.qpCfgWrite q v = s.enabledQ q v := by
  rw [State.qpCfgWrite_eq, if_neg (by simp [off]), if_neg (by simp [on]), if_neg (by simp [idle, ok])]

theorem State.qpCfgWrite_off (off : s.qEn q = false) (stays : v.getLsbD 31 = false) :
    s.qpCfgWrite q v = s.plainWrite (dwyQpCfg q) v := by
  rw [State.qpCfgWrite_eq, if_neg (by simp [off]), stays]
  rfl

theorem State.rd_enabledQ_cfg : (s.enabledQ q v).rd (dwyQpCfg q) = (s.plainWrite (dwyQpCfg q) v).rd (dwyQpCfg q) := by
  rw [State.enabledQ, State.rd_setQState_ne _ q (by unfold dwyQpCfg dwyQpStatus; omega), State.rd_setDq,
    State.rd_wr_ne _ _ (by unfold dwyQpCfg dwyCqCi; omega), State.rd_wr_ne _ _ (by unfold dwyQpCfg dwyCqPi; omega),
    State.rd_wr_ne _ _ (by unfold dwyQpCfg dwySqCi; omega), State.rd_wr_ne _ _ (by unfold dwyQpCfg dwySqPi; omega)]

/-- A plain write of DWY_QP_CFG shows EN and KIND. -/
theorem State.plainWrite_cfg (small : q < 16384) (s : State) (v : Word) :
    (s.plainWrite (dwyQpCfg q) v).qEn q = v.getLsbD 31 ∧ (s.plainWrite (dwyQpCfg q) v).qKind q = fld v 30 28 :=
  ⟨s.rb_plainWrite (regAt_dwyQpCfg small) v (by decide),
    s.rf_plainWrite (regAt_dwyQpCfg small) v (by decide) (by decide)⟩

theorem State.enabledQ_shows (small : q < 16384) (s : State) (v : Word) : (s.enabledQ q v).qEn q = v.getLsbD 31 ∧
    (s.enabledQ q v).qState q = (if s.rb dwyHalt 31 = true then 5 else 1) ∧ (s.enabledQ q v).qKind q = fld v 30 28 ∧
    (s.enabledQ q v).sqPi q = 0 ∧ (s.enabledQ q v).sqCi q = 0 ∧ (s.enabledQ q v).cqPi q = 0 ∧
    (s.enabledQ q v).cqCi q = 0 ∧ (s.enabledQ q v).dq q = { DwyQ.init with prev := 1 } := by
  obtain ⟨en, kind⟩ := s.plainWrite_cfg small v
  have cfg := State.rd_enabledQ_cfg (s := s) (q := q) (v := v)
  refine ⟨?_, State.qState_setQState _ q (by split <;> decide), ?_, ?_, ?_, ?_, ?_, State.dq_setDq _ q _⟩
  · rwa [State.qEn, State.rb, cfg]
  · rwa [State.qKind, State.rf, cfg]
  all_goals
    simp [State.sqPi, State.sqCi, State.cqPi, State.cqCi, State.rf, State.enabledQ, State.setQState, State.wf,
      State.rd_wr, dwySqPi, dwySqCi, dwyCqPi, dwyCqCi, dwyQpStatus]
    rfl

theorem State.onlyIn_enabledQ (s : State) (q : Nat) (v : Word) : onlyIn [.regs, .dwy] s (s.enabledQ q v) := by
  have plain : Keeps [.regs, .dwy] s (s.plainWrite (dwyQpCfg q) v) := (s.plainWrite_keeps _ _).mono rfl
  unfold State.enabledQ
  exact ((State.wf_keeps _ _ _ _ _).after rfl ((State.setDq_keeps _ _ _).after rfl ((State.wr_keeps _ _ _).after rfl
    ((State.wr_keeps _ _ _).after rfl ((State.wr_keeps _ _ _).after rfl
      ((State.wr_keeps _ _ _).after rfl plain)))))).same

end

/-! ## HALT_CLEAR (R411) -/

section
variable {s : State}

/-- What a halted queue returns to. -/
def State.unhalt (bad : Nat) (t : State) (q : Nat) : State :=
  if t.qState q = 5 then t.setQState q (if q = bad then 4 else (t.dq q).prev) else t

theorem State.haltClear_eq (halted : s.rb dwyHalt 31 = true) : s.haltClear =
    (s.each (tkeys s.dwy.queues) (State.unhalt (s.rf dwyHaltLoc 13 0))).putB dwyHalt 31 false :=
  if_neg (by simp [halted])

theorem State.dwy_unhalt (bad : Nat) (t : State) (q : Nat) : (t.unhalt bad q).dwy = t.dwy := by
  unfold State.unhalt
  split <;> rfl

theorem State.qState_unhalt_ne (bad : Nat) (t : State) {q p : Nat} (ne : p ≠ q) :
    (State.unhalt bad t q).qState p = t.qState p := by
  unfold State.unhalt
  split
  · exact t.qState_setQState_ne q ne
  · rfl

theorem State.qState_unhalt_running (bad : Nat) {t : State} {q : Nat} (not : t.qState q ≠ 5) :
    State.unhalt bad t q = t := if_neg not

theorem State.qState_unhalt_halted (bad : Nat) {t : State} {q : Nat} (halted : t.qState q = 5)
    (fits : q = bad ∨ (t.dq q).prev < 8) : (State.unhalt bad t q).qState q = if q = bad then 4 else (t.dq q).prev := by
  rw [State.unhalt, if_pos halted]
  refine t.qState_setQState q ?_
  split
  · decide
  · exact fits.resolve_left ‹_›

/-- A queue that is not HALTED stands while the others return. -/
theorem State.qState_unhalts {bad q n : Nat} (l : List Nat) (t : State) (run : n ≠ 5) (h : t.qState q = n) :
    (t.each l (State.unhalt bad)).qState q = n := by
  refine State.each_invariant (P := fun u => u.qState q = n) h fun u p _ hu => ?_
  by_cases e : p = q
  · subst e
    rwa [State.qState_unhalt_running bad (by omega)]
  · rw [State.qState_unhalt_ne bad u (Ne.symm e), hu]

/-- A halted queue of the list returns to its state once. -/
theorem State.qState_unhalts_mem {bad q n : Nat} (l : List Nat) (t : State) (mem : q ∈ l) (halted : t.qState q = 5)
    (run : n ≠ 5) (back : ∀ u : State, u.dwy = t.dwy → u.qState q = 5 → (State.unhalt bad u q).qState q = n) :
    (t.each l (State.unhalt bad)).qState q = n := by
  induction l generalizing t with
  | nil => exact absurd mem (by simp)
  | cons p l ih =>
    rw [State.each_cons]
    by_cases e : p = q
    · subst e
      exact State.qState_unhalts l _ run (back t rfl halted)
    · refine ih _ ((List.mem_cons.1 mem).resolve_left (Ne.symm e)) ?_ fun u hu => back u (hu.trans (State.dwy_unhalt _ _ _))
      rw [State.qState_unhalt_ne bad t (Ne.symm e), halted]

theorem State.qState_putB_halt (t : State) (q : Nat) : (t.putB dwyHalt 31 false).qState q = t.qState q := by
  rw [State.qState, State.rf, State.rd_putB_ne _ _ _ (by unfold dwyQpStatus dwyHalt; omega)]
  rfl

theorem State.qState_haltClear (halted : s.rb dwyHalt 31 = true) {q : Nat} (mem : q ∈ tkeys s.dwy.queues) :
    (s.qState q = 5 → q = s.rf dwyHaltLoc 13 0 → s.haltClear.qState q = 4) ∧
    (s.qState q = 5 → q ≠ s.rf dwyHaltLoc 13 0 → (s.dq q).prev < 8 → (s.dq q).prev ≠ 5 →
      s.haltClear.qState q = (s.dq q).prev) ∧
    (s.qState q ≠ 5 → s.haltClear.qState q = s.qState q) := by
  rw [State.haltClear_eq halted, State.qState_putB_halt]
  refine ⟨fun stops offending => ?_, fun stops other fits run => ?_, fun run => State.qState_unhalts _ _ run rfl⟩
  · refine State.qState_unhalts_mem _ s mem stops (by decide) fun u _ h => ?_
    rw [State.qState_unhalt_halted _ h (.inl offending), if_pos offending]
  · refine State.qState_unhalts_mem _ s mem stops run fun u same h => ?_
    rw [State.qState_unhalt_halted _ h (.inr (by rwa [State.dq_congr s same])), if_neg other, State.dq_congr s same]

theorem exec_haltClear (s : State) : exec .haltClear s = .next s.haltClear := rfl

theorem exec_haltClear_idle (idle : s.rb dwyHalt 31 = false) : exec .haltClear s = .next s := by
  rw [exec_haltClear, State.haltClear, idle]
  rfl

/-- Only registers change when the halt is cleared. -/
theorem State.onlyIn_haltClear (halted : s.rb dwyHalt 31 = true) : onlyIn [.regs] s s.haltClear := by
  have step (t : State) (q : Nat) : Keeps [.regs] t (State.unhalt (s.rf dwyHaltLoc 13 0) t q) := by
    unfold State.unhalt
    split
    · exact t.wf_keeps _ _ _ _
    · exact .refl t
  rw [State.haltClear_eq halted]
  exact ((State.putB_keeps _ _ _ _).after rfl (State.each_invariant (P := Keeps [.regs] s) (.refl s)
    fun t q _ h => (step t q).after rfl h)).same

end

/-! ## Ranges and generations (R398, R403) -/

section
variable {f : Nat} {v : Word} {s : State}

theorem exec_fnQpWrite (f : Nat) (v : Word) (s : State) : exec (.fnQpWrite f v) s = .next (s.fnQpWrite f v) := rfl

theorem exec_formatGenWrite (f : Nat) (v : Word) (s : State) : exec (.formatGenWrite f v) s = .next (s.fnFmtWrite f v) :=
  rfl

/-- Another function's range overlaps the one that is written. -/
def State.fnQpClash (s : State) (f : Nat) (v : Word) : Bool :=
  (upto 64).any fun g => g != f &&
    overlaps (fld v 13 0, fld v 30 16) (s.rf (dwyFnQp g) 13 0, s.rf (dwyFnQp g) 30 16) &&
    decide (fld v 30 16 ≠ 0 ∧ s.rf (dwyFnQp g) 30 16 ≠ 0)

theorem State.fnQpClash_iff : s.fnQpClash f v = true ↔ ∃ g, g < 64 ∧ g ≠ f ∧ fld v 30 16 ≠ 0 ∧
    s.rf (dwyFnQp g) 30 16 ≠ 0 ∧ fld v 13 0 < s.rf (dwyFnQp g) 13 0 + s.rf (dwyFnQp g) 30 16 ∧
    s.rf (dwyFnQp g) 13 0 < fld v 13 0 + fld v 30 16 := by
  simp only [State.fnQpClash, List.any_eq_true, mem_upto, overlaps, Bool.and_eq_true, bne_iff_ne, decide_eq_true_eq]
  exact exists_congr fun g => by tauto

theorem State.fnQpWrite_eq (s : State) (f : Nat) (v : Word) : s.fnQpWrite f v =
    if 16384 < fld v 13 0 + fld v 30 16 ∨ s.fnQpClash f v ∨ s.fnBusy f then s.setB (dwyFnErr f) 0
    else (s.plainWrite (dwyFnQp f) v).wf (dwyFnId f) 30 16 (fld v 30 16) := rfl

theorem fnQp_ne_fnId (f : Nat) (small : f < 64) : dwyFnQp f ≠ dwyFnId f := by unfold dwyFnQp dwyFnId; omega

/-- A range that stands apart, ends in time and is idle is written, and shown in DWY_FN_ID. -/
theorem exec_fnQpWrite_fits (small : f < 64) (inside : ¬16384 < fld v 13 0 + fld v 30 16) (apart : s.fnQpClash f v = false)
    (idle : s.fnBusy f = false) : ∃ u, exec (.fnQpWrite f v) s = .next u ∧ u.rf (dwyFnQp f) 13 0 = fld v 13 0 ∧
      u.rf (dwyFnQp f) 30 16 = fld v 30 16 ∧ u.rf (dwyFnId f) 30 16 = fld v 30 16 ∧
      (∀ a, a ≠ dwyFnQp f → a ≠ dwyFnId f → u.rd a = s.rd a) ∧ onlyIn [.regs] s u := by
  have out : exec (.fnQpWrite f v) s =
      .next ((s.plainWrite (dwyFnQp f) v).wf (dwyFnId f) 30 16 (fld v 30 16)) := by
    rw [exec_fnQpWrite, State.fnQpWrite_eq, if_neg (by simp [inside, apart, idle])]
  have row := regAt_dwyFnQp f small
  have ne := fnQp_ne_fnId f small
  refine ⟨_, out, ?_, ?_, ?_, fun a ha hb => ?_, onlyIn_of_next ⟨_, rfl, ?_⟩ rfl⟩
  · rw [State.rf, State.rd_wf_ne _ _ _ _ ne]
    exact s.rf_plainWrite row v (by decide) (by decide)
  · rw [State.rf, State.rd_wf_ne _ _ _ _ ne]
    exact s.rf_plainWrite row v (by decide) (by decide)
  · exact State.rf_wf_fits _ _ (by decide) (by decide) (bits_lt _ _ _)
  · rw [State.rd_wf_ne _ _ _ _ hb, s.rd_plainWrite_ne v ha]
  · exact (State.wf_keeps _ _ _ _ _).after rfl (s.plainWrite_keeps _ _)

theorem exec_fnQpWrite_refused (no : 16384 < fld v 13 0 + fld v 30 16 ∨ s.fnQpClash f v = true ∨ s.fnBusy f = true) :
    exec (.fnQpWrite f v) s = .next (s.setB (dwyFnErr f) 0) := by
  rw [exec_fnQpWrite, State.fnQpWrite_eq, if_pos no]

theorem exec_formatGenWrite_refused (no : fld v 1 0 = 0 ∨ fld v 1 0 = 3 ∨ s.fnBusy f = true) :
    exec (.formatGenWrite f v) s = .next (s.setB (dwyFnErr f) 2) := by
  rw [exec_formatGenWrite, State.fnFmtWrite]
  exact congrArg _ (if_pos no)

theorem exec_formatGenWrite_fits (gen : fld v 1 0 = 1 ∨ fld v 1 0 = 2) (idle : s.fnBusy f = false) :
    ∃ u, exec (.formatGenWrite f v) s = .next u ∧ u.fnGen f = fld v 1 0 ∧ (∀ a, a ≠ dwyFnFmt f → u.rd a = s.rd a) ∧
      onlyIn [.regs] s u := by
  refine ⟨s.wf (dwyFnFmt f) 1 0 (fld v 1 0), ?_, ?_, fun a ne => s.rd_wf_ne _ _ _ ne, (s.wf_keeps _ _ _ _).same⟩
  · rw [exec_formatGenWrite, State.fnFmtWrite]
    refine congrArg _ (if_neg ?_)
    rintro (zero | three | busy)
    · omega
    · omega
    · exact absurd busy (by simp [idle])
  · exact State.rf_wf_fits _ _ (by decide) (by decide) (bits_lt _ _ _)

end

end Sys2Proof.Machine

section
open Sys2Proof Sys2Proof.Machine

/-- Settles O49: pause, resume, reset, enable, halt, ranges and generations, each by the one branch of its write. -/
theorem doorwayQueuesAndGenerations : Obligations.DoorwayQueuesAndGenerations := by
  refine ⟨fun q s small => ⟨exec_qpPause_running, fun rests => ?_, exec_qpResume_resting, fun notPaused notStopped => ?_,
    fun off => ?_, fun busy ended => ?_, fun busy waits => ?_⟩, fun q v s small => ⟨fun on differs => ?_,
    fun on same stays => ?_, fun off on no => ?_, fun off on idle ok => ?_, fun off stays => ?_⟩,
    fun s => ⟨exec_haltClear_idle, fun halted => ?_⟩, fun f v s small => ⟨fun bad => ?_, fun good => ?_,
    exec_formatGenWrite_refused, exec_formatGenWrite_fits⟩⟩
  · rw [exec_qpPause, State.qPause, if_neg rests]
  · rw [exec_qpResume, State.qResume, if_neg (by omega)]
  · rw [exec_qpReset, State.qReset, if_pos off]
  · obtain ⟨u, out, ⟨off, en, sqPi, sqCi, cqPi, cqCi⟩, queue⟩ := exec_qpReset_ends busy ended
    exact ⟨u, out, off, en, sqPi, sqCi, cqPi, cqCi, by rw [queue]; rfl, by rw [queue]; rfl, by rw [queue]; rfl,
      by rw [queue]; rfl⟩
  · obtain ⟨u, out, resets, queue⟩ := exec_qpReset_waits busy waits
    exact ⟨u, out, resets, by rw [queue]; rfl, by rw [queue]; rfl, by rw [queue]⟩
  · exact congrArg _ (State.qpCfgWrite_differs on differs)
  · exact congrArg _ (State.qpCfgWrite_again on same stays)
  · exact congrArg _ (State.qpCfgWrite_refused off on (no.imp_right State.qpOk_ill))
  · obtain ⟨en, runs, kind, indices⟩ := s.enabledQ_shows small v
    have out : exec (.qpEnable q v) s = .next (s.enabledQ q v) :=
      congrArg _ (State.qpCfgWrite_enables off on idle ok)
    obtain ⟨sqPi, sqCi, cqPi, cqCi, queue⟩ := indices
    exact ⟨_, out, en.trans on, runs, kind, sqPi, sqCi, cqPi, cqCi, queue, s.onlyIn_enabledQ q v⟩
  · obtain ⟨en, kind⟩ := s.plainWrite_cfg small v
    have out : exec (.qpEnable q v) s = .next (s.plainWrite (dwyQpCfg q) v) :=
      congrArg Host.Outcome.next (State.qpCfgWrite_off off stays)
    exact ⟨_, out, en.trans stays, kind, (s.plainWrite_keeps _ _).same⟩
  · exact ⟨_, exec_haltClear s, by
      rw [State.haltClear_eq halted]
      exact State.rb_putB _ _ _ _ (by decide), State.onlyIn_haltClear halted, fun q _ mem => State.qState_haltClear halted mem⟩
  · exact exec_fnQpWrite_refused (bad.imp_right (.imp_left State.fnQpClash_iff.2))
  · rw [← State.fnQpClash_iff] at good
    simp only [not_or, Bool.not_eq_true] at good
    exact exec_fnQpWrite_fits small good.1 good.2.1 good.2.2

end

/-! PROOFS. What Doorway writes for the host: completion slots, index mirrors and signals (R401, R412 to R418). -/

namespace Sys2Proof.Machine

/-! ## Where the host is -/

section
variable {s t : State} {q : Nat}

theorem State.fnOf_congr (ranges : ∀ f < 64, t.rd (dwyFnQp f) = s.rd (dwyFnQp f)) (q : Nat) : t.fnOf q = s.fnOf q := by
  rw [State.fnOf, State.fnOf, State.fnOfQ_congr ranges]

theorem State.fnOf_lt (s : State) (q : Nat) : s.fnOf q < 64 := by
  unfold State.fnOf
  rcases h : s.fnOfQ q with _ | f
  · decide
  · exact mem_upto.1 (List.mem_of_find?_eq_some h)

theorem State.fnAway_congr (fns : t.dwy.fns = s.dwy.fns) (f : Nat) : t.fnAway f = s.fnAway f := by
  rw [State.fnAway, State.fnAway, State.fn, State.fn, fns]

/-- Doorway's registers that a step leaves say the same of a queue's configuration. -/
theorem State.cqAway_congr (fns : t.dwy.fns = s.dwy.fns) (ranges : ∀ f < 64, t.rd (dwyFnQp f) = s.rd (dwyFnQp f))
    (cfg : t.rd (dwyQpCfg q) = s.rd (dwyQpCfg q)) : t.cqAway q = s.cqAway q := by
  rw [State.cqAway, State.cqAway, State.fnOf_congr ranges, State.fnAway_congr fns, State.cqWindow, State.cqWindow, State.rb,
    State.rb, cfg]

theorem State.cqAway_of_host (window : s.cqWindow q = false) (here : s.fnAway (s.fnOf q) = false) : s.cqAway q = false := by
  rw [State.cqAway, window, here]
  rfl

theorem State.cqAway_of_away (window : s.cqWindow q = false) (away : s.fnAway (s.fnOf q) = true) : s.cqAway q = true := by
  rw [State.cqAway, window, away]
  rfl

end

/-- Outside what Cellar writes stand all of Doorway's registers. -/
theorem not_celWrites_doorway {a : Nat} (h : a < 0x04000000) : ¬celWrites a := not_celWrites_of_lt (by omega)

section
variable {s t : State} {w : Nat → Prop}

/-- The ranges of the functions stand where no write reaches them. -/
theorem writesOnly.ranges (h : writesOnly w s t) (out : ∀ f < 64, ¬w (dwyFnQp f)) :
    ∀ f < 64, t.rd (dwyFnQp f) = s.rd (dwyFnQp f) :=
  fun f hf => h.rd (out f hf) (offWrap_doorway (by unfold dwyFnQp; omega))

end

/-! ## Slots and mirrors (R401, R412) -/

section
variable {s : State} {q : Nat}

theorem State.cqWrite_writes (s : State) (q a : Nat) (bs : List Byte) : writesOnly celWrites s (s.cqWrite q a bs) := by
  unfold State.cqWrite
  exact .ite (s.celWrite_writes _ _ _) ((writesOnly.refl _ s).regs rfl)

theorem State.cqWrite_host (window : s.cqWindow q = false) (a : Nat) (bs : List Byte) :
    s.cqWrite q a bs = s.emit (.hostWrite a bs) := if_neg (by simp [window])

theorem State.dwy_cqWrite (s : State) (q a : Nat) (bs : List Byte) : (s.cqWrite q a bs).dwy = s.dwy :=
  (s.cqWrite_keeps q a bs).same .dwy (by decide)

theorem State.mirrorWrite_idle (h : (s.dq q).mirrorDue = false ∨ s.cqAway q = true) : s.mirrorWrite q = s := by
  refine if_pos ?_
  rcases h with h | h <;> simp [h]

/-- The two indices of a mirror. -/
def State.mirrorBytes (s : State) (q : Nat) : List Byte := natLe 2 (s.sqCi q) ++ natLe 2 (s.cqPi q) ++ natLe 4 0

theorem State.mirrorWrite_due (due : (s.dq q).mirrorDue = true) (near : s.cqAway q = false) : s.mirrorWrite q =
    (s.cqWrite q (s.rd64 (dwyIdxBaseLo q)) (s.mirrorBytes q)).setDq q { s.dq q with mirrorDue := false } := by
  refine if_neg ?_
  rw [due, near]
  decide

theorem State.mirrorWrite_writes (s : State) (q : Nat) : writesOnly celWrites s (s.mirrorWrite q) := by
  unfold State.mirrorWrite
  exact .ite (.refl _ s) ((s.cqWrite_writes _ _ _).regs rfl)

theorem State.dq_mirrorWrite (s : State) (q : Nat) :
    (s.mirrorWrite q).dq q = { s.dq q with mirrorDue := (s.dq q).mirrorDue && s.cqAway q } := by
  by_cases idle : (s.dq q).mirrorDue = false ∨ s.cqAway q = true
  · rw [State.mirrorWrite_idle idle]
    rcases x : s.dq q with ⟨⟩
    rw [x] at idle
    rcases idle with h | h
    · dsimp only at h
      simp [h]
    · simp [h]
  · simp only [not_or, Bool.not_eq_false, Bool.not_eq_true] at idle
    rw [State.mirrorWrite_due idle.1 idle.2, State.dq_setDq, idle.1, idle.2]
    rfl

theorem State.fns_mirrorWrite (s : State) (q : Nat) : (s.mirrorWrite q).dwy.fns = s.dwy.fns := by
  unfold State.mirrorWrite
  split
  · rfl
  · rw [State.fns_setDq, State.dwy_cqWrite]

/-- A mirror that is due goes to the host. -/
theorem State.mirrorWrite_host (due : (s.dq q).mirrorDue = true) (window : s.cqWindow q = false)
    (here : s.fnAway (s.fnOf q) = false) :
    (s.mirrorWrite q).outbox = s.outbox ++ [.hostWrite (s.rd64 (dwyIdxBaseLo q)) (s.mirrorBytes q)] ∧
      (s.mirrorWrite q).regs = s.regs := by
  rw [State.mirrorWrite_due due (State.cqAway_of_host window here), State.cqWrite_host window]
  exact ⟨rfl, rfl⟩

/-- The registers of a queue stand under its mirror. -/
theorem State.rd_mirrorWrite (s : State) (q : Nat) {a : Nat} (lo : 0x3000000 ≤ a) (hi : a < 0x04000000) :
    (s.mirrorWrite q).rd a = s.rd a :=
  (s.mirrorWrite_writes q).rd (not_celWrites_doorway hi) (offWrap_doorway lo)

end

/-! ## Signals (R416 to R418) -/

section
variable {s : State} {q : Nat}

theorem State.raiseVector_stands (s : State) (f vec : Nat) : regsStand s (s.raiseVector f vec) := by
  unfold State.raiseVector
  dsimp only
  split
  · exact .count s _ _ _
  · exact fun _ _ => rfl

theorem State.shas_raiseVector (s : State) (f vec : Nat) :
    shas (s.raiseVector f vec).bell.msix (2048 * f + vec) = true := by
  unfold State.raiseVector
  rw [Nat.mul_comm 2048 f]
  dsimp only
  split
  · rwa [State.bell_count]
  · exact shas_sadd_same _ _

/-- A signal that can be sent raises the queue's vector. -/
theorem State.qSignal_here (here : s.fnAway (s.fnOf q) = false) : s.qSignal q =
    ((s.setDq q { s.dq q with since := 0, sigPending := false }).raiseVector (s.fnOf q)
      (s.rf (dwyQpCfg q) 10 0)).count evDwySignal (s.fnOf q) 0 := if_neg (by simp [here])

/-- A signal that must wait for the host. -/
def State.signalWaits (s : State) (q : Nat) : State :=
  (s.setDq q { s.dq q with since := 0, sigPending := true }).count evDwySignalDeferred (s.fnOf q) 0

theorem State.qSignal_away (away : s.fnAway (s.fnOf q) = true) : s.qSignal q =
    if !(s.fn (s.fnOf q)).asleep || !(s.fn (s.fnOf q)).pmeEn then s.signalWaits q
    else if (s.signalWaits q).dwy.linkL2 then
      State.count { s.signalWaits q with attic := { (s.signalWaits q).attic with wakeN := false } } evDwyPme (s.fnOf q) 0
    else ((s.signalWaits q).emit (.pme (s.fnOf q))).count evDwyPme (s.fnOf q) 0 := if_pos away

theorem State.dwy_signalWaits (s : State) (q : Nat) :
    (s.signalWaits q).dwy = (s.setDq q { s.dq q with since := 0, sigPending := true }).dwy := State.dwy_count _ _ _ _

theorem State.qSignal_away_shows (away : s.fnAway (s.fnOf q) = true) : regsStand s (s.qSignal q) ∧
    (s.qSignal q).dwy = (s.setDq q { s.dq q with since := 0, sigPending := true }).dwy ∧ (s.qSignal q).bell = s.bell := by
  have waits : regsStand s (s.signalWaits q) := .count (s.setDq q _) _ _ _
  have bell : (s.signalWaits q).bell = s.bell := State.bell_count _ _ _ _
  rw [State.qSignal_away away]
  split
  · exact ⟨waits, s.dwy_signalWaits q, bell⟩
  · split
    · refine ⟨waits.trans (.count { s.signalWaits q with attic := _ } _ _ _), ?_, ?_⟩
      · rw [State.dwy_count]
        exact s.dwy_signalWaits q
      · rw [State.bell_count]
        exact bell
    · refine ⟨waits.trans (.count ((s.signalWaits q).emit _) _ _ _), ?_, ?_⟩
      · rw [State.dwy_count]
        exact s.dwy_signalWaits q
      · rw [State.bell_count]
        exact bell

theorem State.qSignal_here_shows (here : s.fnAway (s.fnOf q) = false) : regsStand s (s.qSignal q) ∧
    (s.qSignal q).dwy = (s.setDq q { s.dq q with since := 0, sigPending := false }).dwy ∧
    (s.qSignal q).outbox = s.outbox ∧ shas (s.qSignal q).bell.msix (2048 * s.fnOf q + s.rf (dwyQpCfg q) 10 0) = true := by
  rw [State.qSignal_here here]
  refine ⟨(State.raiseVector_stands (s.setDq q _) _ _).trans (.count _ _ _ _), ?_, ?_, ?_⟩
  · rw [State.dwy_count]
    exact (State.raiseVector_keeps _ _ _).same .dwy (by decide)
  · rw [State.outbox_count]
    exact (State.raiseVector_keeps _ _ _).same .outbox (by decide)
  · rw [State.bell_count]
    exact State.shas_raiseVector _ _ _

/-- What a signal, sent or pending, leaves of a queue: all but the moderation of R416. -/
def signalStep (q : Nat) (s t : State) : Prop :=
  regsStand s t ∧ t.dwy.fns = s.dwy.fns ∧
    ∃ since sinceNs sigPending, t.dq q = { s.dq q with since := since, sinceNs := sinceNs, sigPending := sigPending }

theorem signalStep.trans {s t u : State} (h : signalStep q s t) (k : signalStep q t u) : signalStep q s u := by
  obtain ⟨regs, fns, a, b, c, queue⟩ := h
  obtain ⟨regs', fns', a', b', c', queue'⟩ := k
  exact ⟨regs.trans regs', fns'.trans fns, a', b', c', by rw [queue', queue]⟩

theorem State.qSignal_step (s : State) (q : Nat) : signalStep q s (s.qSignal q) := by
  cases away : s.fnAway (s.fnOf q)
  · obtain ⟨regs, dwy, -, -⟩ := State.qSignal_here_shows away
    exact ⟨regs, by rw [dwy]; rfl, _, _, _, (State.dq_congr _ dwy q).trans (s.dq_setDq q _)⟩
  · obtain ⟨regs, dwy, -⟩ := State.qSignal_away_shows away
    exact ⟨regs, by rw [dwy]; rfl, _, _, _, (State.dq_congr _ dwy q).trans (s.dq_setDq q _)⟩

/-- A completion counted for the moderation. -/
def State.signalCounted (s : State) (q : Nat) : State :=
  s.setDq q { s.dq q with
    since := (s.dq q).since + 1, sinceNs := if (s.dq q).since = 0 then s.ns else (s.dq q).sinceNs }

theorem State.signalCounted_step (s : State) (q : Nat) : signalStep q s (s.signalCounted q) :=
  ⟨fun _ _ => rfl, rfl, _, _, _, s.dq_setDq q _⟩

theorem State.moderate_eq (s : State) (q : Nat) : s.moderate q =
    if !(s.rb (dwyQpCfg q) 24) then s
    else if s.rb (dwyFnPm (s.fnOf q)) 0 ∨ s.rf (dwyCqMod q) 31 16 = 0 ∨
        (s.rf (dwyCqMod q) 15 0 ≠ 0 ∧ s.rf (dwyCqMod q) 15 0 ≤ (s.dq q).since + 1) then (s.signalCounted q).qSignal q
    else s.signalCounted q := rfl

theorem State.moderate_step (s : State) (q : Nat) : signalStep q s (s.moderate q) := by
  rw [State.moderate_eq]
  split
  · exact ⟨fun _ _ => rfl, rfl, _, _, _, rfl⟩
  · split
    · exact (s.signalCounted_step q).trans (State.qSignal_step _ q)
    · exact s.signalCounted_step q

theorem State.outbox_moderate (here : s.fnAway (s.fnOf q) = false) : (s.moderate q).outbox = s.outbox := by
  rw [State.moderate_eq]
  split
  · rfl
  · split
    · exact (State.qSignal_here_shows (s := s.signalCounted q) here).2.2.1
    · rfl

/-- COMPLETION_SIGNAL is due. -/
def State.signalDue (s : State) (q : Nat) : Prop :=
  s.rb (dwyQpCfg q) 24 = true ∧ (s.dq q).since ≠ 0 ∧ s.rf (dwyCqMod q) 31 16 ≠ 0 ∧
    (s.dq q).sinceNs + 1000 * s.rf (dwyCqMod q) 31 16 ≤ s.ns

theorem exec_completionSignal_due (due : s.signalDue q) : exec (.completionSignal q) s = .next (s.qSignal q) := by
  obtain ⟨on, since, time, past⟩ := due
  refine if_pos ?_
  rw [on, Bool.true_and, decide_eq_true_eq, Nat.mul_comm]
  exact ⟨since, time, past⟩

theorem exec_completionSignal_early (early : ¬s.signalDue q) : exec (.completionSignal q) s = .next s := by
  refine if_neg fun on => early ?_
  rw [Bool.and_eq_true, decide_eq_true_eq, Nat.mul_comm] at on
  exact on

end

end Sys2Proof.Machine

/-! PROOFS. A malformed entry or an index beyond its ring stops a queue, or halts Doorway (R410, R411). -/

namespace Sys2Proof.Machine

section
variable {s : State} {q cause : Nat} {e : Taken}

/-- The queue with its CAUSE. -/
def State.caused (s : State) (q cause : Nat) : State :=
  (s.count evDwyMalformed (s.fnOf q) 0).wf (dwyQpStatus q) 23 16 cause

theorem State.rd_caused {a : Nat} (ne : a ≠ dwyQpStatus q) (off : offWrap a = true) : (s.caused q cause).rd a = s.rd a := by
  rw [State.caused, State.rd_wf_ne _ _ _ _ ne, State.rd_count _ _ _ _ off]

theorem State.dwy_caused (s : State) (q cause : Nat) : (s.caused q cause).dwy = s.dwy := State.dwy_count _ _ _ _

theorem State.qState_caused (s : State) (q cause p : Nat) : (s.caused q cause).qState p = s.qState p := by
  have off : offWrap (dwyQpStatus p) = true := offWrap_doorway (by unfold dwyQpStatus; omega)
  by_cases same : p = q
  · subst same
    rw [State.qState, State.caused, State.rf_wf_ne _ _ _ _ _ _ _ (by decide) (by decide) (by decide) (.inr (by decide)),
      State.rf, State.rd_count _ _ _ _ off]
    rfl
  · rw [State.qState, State.rf, State.rd_caused (by unfold dwyQpStatus; omega) off]
    rfl

/-! ## A queue stops (generation 2) -/

/-- A queue that stops: nothing prefetched, one MALFORMED completion more, ERR.STOP. -/
def State.queueStopped (s : State) (q cause : Nat) (e : Taken) : State :=
  let x := s.dq q
  (((s.caused q cause).setDq q { x with prefetch := [], taken := x.taken ++ [{ e with status := 1, words := [] }] }).setQState
    q 4).setB (dwyFnErr (s.fnOf q)) 1

theorem State.dwyStop_stops (gen : s.fnGen (s.fnOf q) ≠ 1) : s.dwyStop q cause e = s.queueStopped q cause e := by
  have x : (s.caused q cause).dq q = s.dq q := State.dq_congr _ (s.dwy_caused q cause) q
  unfold State.dwyStop
  dsimp only
  rw [if_neg gen, State.queueStopped, ← x]
  rfl

theorem State.queueStopped_shows (fits : cause < 256) (small : q < 16384) (s : State) (e : Taken) :
    let u := s.queueStopped q cause e
    u.qState q = 4 ∧ u.rf (dwyQpStatus q) 23 16 = cause ∧ u.rb (dwyFnErr (s.fnOf q)) 1 = true ∧
      u.dq q = { s.dq q with prefetch := [], taken := (s.dq q).taken ++ [{ e with status := 1, words := [] }] } ∧
      ∀ a, a ≠ dwyQpStatus q → a ≠ dwyFnErr (s.fnOf q) → offWrap a = true → u.rd a = s.rd a := by
  have apart : dwyQpStatus q ≠ dwyFnErr (s.fnOf q) := by unfold dwyQpStatus dwyFnErr; omega
  refine ⟨?_, ?_, State.rb_setB _ _ _ (by decide), State.dq_setDq _ q _, fun a ha hb off => ?_⟩
  · rw [State.qState, State.rf, State.queueStopped, State.rd_setB_ne _ _ apart]
    exact State.qState_setQState _ q (by decide)
  · rw [State.rf, State.queueStopped, State.rd_setB_ne _ _ apart, ← State.rf, State.rf_setQState _ q (by decide)]
    exact State.rf_wf_fits _ _ (by decide) (by decide) fits
  · rw [State.queueStopped, State.rd_setB_ne _ _ hb, State.rd_setQState_ne _ q ha, State.rd_setDq, State.rd_caused ha off]

/-! ## Doorway halts (generation 1) -/

/-- One queue is halted, unless it is disabled, halted or in reset. -/
def State.haltQ (t : State) (q : Nat) : State :=
  if t.qState q = 0 ∨ t.qState q = 5 ∨ t.qState q = 6 then t
  else (t.setDq q { t.dq q with prev := t.qState q }).setQState q 5

theorem State.haltAll_eq (s : State) : s.haltAll = s.each (tkeys s.dwy.queues) State.haltQ := rfl

theorem State.qState_haltQ_ne (t : State) {p : Nat} (ne : p ≠ q) : (t.haltQ q).qState p = t.qState p := by
  unfold State.haltQ
  split
  · rfl
  · exact State.qState_setQState_ne _ q ne

theorem State.qState_haltQ {t : State} (on : t.qState q ≠ 0) (runs : t.qState q ≠ 6) : (t.haltQ q).qState q = 5 := by
  unfold State.haltQ
  split
  · omega
  · exact State.qState_setQState _ q (by decide)

theorem State.dq_haltQ (t : State) (q p : Nat) : ∃ prev, (t.haltQ q).dq p = { t.dq p with prev := prev } := by
  unfold State.haltQ
  split
  · exact ⟨_, rfl⟩
  · by_cases same : p = q
    · subst same
      exact ⟨_, State.dq_setDq _ p _⟩
    · exact ⟨(t.dq p).prev, State.dq_setDq_ne _ _ _ same⟩

theorem State.rd_haltQ (t : State) {a : Nat} (ne : a ≠ dwyQpStatus q) : (t.haltQ q).rd a = t.rd a := by
  unfold State.haltQ
  split
  · rfl
  · exact State.rd_setQState_ne _ q ne

theorem State.rd_haltAll (s : State) {a : Nat} (ne : ∀ p, a ≠ dwyQpStatus p) : s.haltAll.rd a = s.rd a :=
  State.each_stands (g := fun t => t.rd a) fun t p _ => t.rd_haltQ (ne p)

theorem State.dq_haltAll (s : State) (p : Nat) : ∃ prev, s.haltAll.dq p = { s.dq p with prev := prev } := by
  rw [State.haltAll_eq]
  refine State.each_invariant (P := fun t => ∃ prev, t.dq p = { s.dq p with prev := prev }) ⟨_, rfl⟩ fun t k _ h => ?_
  obtain ⟨prev, e⟩ := h
  obtain ⟨prev', e'⟩ := t.dq_haltQ k p
  exact ⟨prev', by rw [e', e]⟩

/-- A queue of a list that runs is HALTED after it. -/
theorem State.qState_haltQs {p : Nat} (l : List Nat) (t : State) (mem : p ∈ l) (on : t.qState p ≠ 0) (runs : t.qState p ≠ 6) :
    (t.each l State.haltQ).qState p = 5 := by
  induction l generalizing t with
  | nil => exact absurd mem (by simp)
  | cons k l ih =>
    rw [State.each_cons]
    by_cases same : p = k
    · subst same
      refine State.each_invariant (P := fun u => u.qState p = 5) (State.qState_haltQ on runs) fun u j _ h => ?_
      by_cases e : p = j
      · subst e
        exact State.qState_haltQ (by omega) (by omega)
      · rw [u.qState_haltQ_ne e, h]
    · have stands := t.qState_haltQ_ne same
      exact ih _ ((List.mem_cons.1 mem).resolve_left same) (stands ▸ on) (stands ▸ runs)

/-- Doorway halted by queue q. -/
def State.dwyHalted (s : State) (q cause idx : Nat) : State :=
  ((((s.caused q cause).haltAll.wrN dwyHaltLoc (idx * 2 ^ 16 + q)).setB dwyHalt 31).count evDwyHalted 0 0).pulse
    (1024 + s.fnOf q)

theorem State.dwyStop_halts (gen : s.fnGen (s.fnOf q) = 1) : s.dwyStop q cause e = s.dwyHalted q cause e.idx := if_pos gen

theorem State.rd_dwyHalted_ne (s : State) {a idx : Nat} (status : ∀ p, a ≠ dwyQpStatus p) (halt : a ≠ dwyHalt)
    (loc : a ≠ dwyHaltLoc) (off : offWrap a = true) : (s.dwyHalted q cause idx).rd a = s.rd a := by
  rw [State.dwyHalted, State.rd_pulse, State.rd_count _ _ _ _ off, State.rd_setB_ne _ _ halt, State.rd_wrN_ne _ _ loc,
    State.rd_haltAll _ status, State.rd_caused (status q) off]

theorem State.rb_dwyHalted (s : State) (q cause idx : Nat) : (s.dwyHalted q cause idx).rb dwyHalt 31 = true := by
  rw [State.dwyHalted, State.rb, State.rd_pulse, State.rd_count _ _ _ _ (by decide), ← State.rb]
  exact State.rb_setB _ _ _ (by decide)

theorem State.taken_dwyHalted (s : State) (q cause idx p : Nat) : ((s.dwyHalted q cause idx).dq p).taken = (s.dq p).taken := by
  obtain ⟨prev, e⟩ := (s.caused q cause).dq_haltAll p
  have same : (s.dwyHalted q cause idx).dq p = (s.caused q cause).haltAll.dq p := by
    refine State.dq_congr _ ?_ p
    rw [State.dwyHalted, State.pulse_dwy, State.dwy_count]
    rfl
  rw [same, e, State.dq_congr _ (s.dwy_caused q cause) p]

theorem State.qState_dwyHalted (s : State) {p : Nat} (idx : Nat) (mem : p ∈ tkeys s.dwy.queues) (on : s.qState p ≠ 0)
    (runs : s.qState p ≠ 6) : (s.dwyHalted q cause idx).qState p = 5 := by
  have off : offWrap (dwyQpStatus p) = true := offWrap_doorway (by unfold dwyQpStatus; omega)
  have same := s.qState_caused q cause p
  rw [State.qState, State.rf, State.dwyHalted, State.rd_pulse, State.rd_count _ _ _ _ off,
    State.rd_setB_ne _ _ (by unfold dwyQpStatus dwyHalt; omega), State.rd_wrN_ne _ _ (by unfold dwyQpStatus dwyHaltLoc; omega),
    State.haltAll_eq, s.dwy_caused q cause]
  exact State.qState_haltQs _ _ mem (same ▸ on) (same ▸ runs)

end

end Sys2Proof.Machine

/-! PROOFS. Completions are written, held or discarded, and the indices that the host writes (R400, R401, R412 to
R414). -/

namespace Sys2Proof.Machine

/-! ## A completion goes to its slot -/

section
variable {s : State} {q : Nat}

/-- The emission of a completion: 16 bytes at the slot of CQ_PI. -/
def State.slotEntry (s : State) (q : Nat) (bs : List Byte) : Emission :=
  .hostWrite (s.rd64 (dwyCqBaseLo q) + 16 * (s.cqPi q % s.cqSize q)) bs

/-- A completion's slot written, and CQ_PI past it. -/
def State.slotWritten (s : State) (q : Nat) (bs : List Byte) : State :=
  ((s.emit (s.slotEntry q bs)).wrN (dwyCqPi q) ((s.cqPi q + 1) % 65536)).count evDwyCmpl q 0

theorem State.dwy_slotWritten (s : State) (q : Nat) (bs : List Byte) : (s.slotWritten q bs).dwy = s.dwy :=
  State.dwy_count _ _ _ _

/-- The slot written and the mirror due. -/
def State.slotPosted (s : State) (q : Nat) (bs : List Byte) : State :=
  (s.slotWritten q bs).setDq q { s.dq q with mirrorDue := true }

theorem State.cmplPost_plain (window : s.cqWindow q = false) (bs : List Byte) :
    s.cmplPost q ⟨bs, 0, none⟩ = (s.slotPosted q bs).moderate q := by
  have same : (s.slotWritten q bs).dq q = s.dq q := State.dq_congr s (s.dwy_slotWritten q bs) q
  unfold State.cmplPost
  dsimp only
  rw [if_pos rfl, State.cqWrite_host window, State.slotPosted, ← same]
  rfl

/-- What a plain completion leaves: its slot written, CQ_PI past it, the mirror due. -/
theorem State.cmplPost_shows (window : s.cqWindow q = false) (here : s.fnAway (s.fnOf q) = false) (bs : List Byte) :
    let u := s.cmplPost q ⟨bs, 0, none⟩
    writesOnly (· = dwyCqPi q) s u ∧ u.cqPi q = (s.cqPi q + 1) % 65536 ∧ u.dwy.fns = s.dwy.fns ∧
      u.outbox = s.outbox ++ [s.slotEntry q bs] ∧ (u.dq q).taken = (s.dq q).taken ∧ (u.dq q).held = (s.dq q).held ∧
      (u.dq q).mirrorDue = true := by
  have posted : writesOnly (· = dwyCqPi q) s (s.slotPosted q bs) :=
    ((((writesOnly.refl (· = dwyCqPi q) s).regs (u := s.emit (s.slotEntry q bs)) rfl).wrN rfl _).count _ _ _).regs rfl
  have fns : (s.slotPosted q bs).dwy.fns = s.dwy.fns := by
    rw [State.slotPosted, State.fns_setDq, State.dwy_slotWritten]
  have away : (s.slotPosted q bs).fnAway ((s.slotPosted q bs).fnOf q) = false := by
    rw [State.fnOf_congr (posted.ranges fun f _ => by unfold dwyFnQp dwyCqPi; omega), State.fnAway_congr fns, here]
  have off : offWrap (dwyCqPi q) = true := offWrap_doorway (by unfold dwyCqPi; omega)
  have pi : (s.slotPosted q bs).cqPi q = (s.cqPi q + 1) % 65536 := by
    rw [State.cqPi, State.rf, State.slotPosted, State.rd_setDq, State.slotWritten, State.rd_count _ _ _ _ off,
      State.rd_wrN]
    simp only [fld, bits, BitVec.toNat_ofNat]
    omega
  obtain ⟨regs, fns', _, _, _, queue⟩ := (s.slotPosted q bs).moderate_step q
  have queue' : (s.slotPosted q bs).dq q = { s.dq q with mirrorDue := true } := State.dq_setDq _ q _
  rw [queue'] at queue
  rw [State.cmplPost_plain window]
  refine ⟨posted.trans (.of_regsStand regs), ?_, fns'.trans fns, ?_, by rw [queue], by rw [queue], by rw [queue]⟩
  · rw [State.cqPi, regs.rf _ _ off]
    exact pi
  · rw [State.outbox_moderate away, State.slotPosted, State.outbox_setDq, State.slotWritten, State.outbox_count]
    rfl

/-! ## A completion is given -/

theorem State.dwy_cqFullSet (s : State) (q : Nat) : (s.cqFullSet q).dwy = s.dwy := State.dwy_count _ _ _ _

theorem State.cmplGive_eq (s : State) (q : Nat) (c : Cmpl) : s.cmplGive q c =
    if (s.dq q).held.isEmpty && !(s.cmplAway q c) && decide (s.cqFree q ≠ 0) then s.cmplPost q c
    else
      let s1 := ((s.setDq q { s.dq q with held := (s.dq q).held ++ [c] }).showHeld q).count evDwyHeld q 0
      let s2 := if s.cmplAway q c then s1.setB (dwyQpStatus q) 27 else s1
      if !(s.cmplAway q c) && s.cqFree q == 0 && (s.dq q).held.isEmpty then s2.cqFullSet q else s2 := rfl

/-- A completion is held, its number shown. -/
def State.cmplHeld (s : State) (q : Nat) (c : Cmpl) : State :=
  ((s.setDq q { s.dq q with held := (s.dq q).held ++ [c] }).showHeld q).count evDwyHeld q 0

theorem State.dwy_cmplHeld (s : State) (q : Nat) (c : Cmpl) :
    (s.cmplHeld q c).dwy = (s.setDq q { s.dq q with held := (s.dq q).held ++ [c] }).dwy := State.dwy_count _ _ _ _

theorem State.dq_cmplHeld (s : State) (q : Nat) (c : Cmpl) :
    (s.cmplHeld q c).dq q = { s.dq q with held := (s.dq q).held ++ [c] } := by
  rw [State.dq_congr _ (s.dwy_cmplHeld q c)]
  exact State.dq_setDq _ q _

theorem State.cmplHeld_writes (s : State) (q : Nat) (c : Cmpl) : writesOnly (· = dwyQpStatus q) s (s.cmplHeld q c) := by
  exact (((writesOnly.refl (· = dwyQpStatus q) s).regs (u := s.setDq q _) rfl).wf rfl _ _ _).count _ _ _

/-- What is held changes the queue's status alone. -/
theorem State.cmplGive_holds {c : Cmpl} (no : (s.dq q).held ≠ [] ∨ s.cmplAway q c = true ∨ s.cqFree q = 0) :
    (s.cmplGive q c).dq q = { s.dq q with held := (s.dq q).held ++ [c] } ∧
      writesOnly (· = dwyQpStatus q) s (s.cmplGive q c) ∧ (s.cmplGive q c).dwy.fns = s.dwy.fns := by
  have hold : ¬((s.dq q).held.isEmpty && !(s.cmplAway q c) && decide (s.cqFree q ≠ 0)) = true := by
    rcases no with held | away | full
    · simp [held]
    · simp [away]
    · simp [full]
  have queue := s.dq_cmplHeld q c
  have regs := s.cmplHeld_writes q c
  have fns : (s.cmplHeld q c).dwy.fns = s.dwy.fns := by rw [s.dwy_cmplHeld q c, State.fns_setDq]
  have away : ∃ t : State, (if s.cmplAway q c then (s.cmplHeld q c).setB (dwyQpStatus q) 27 else s.cmplHeld q c) = t ∧
      t.dwy = (s.cmplHeld q c).dwy ∧ writesOnly (· = dwyQpStatus q) s t := by
    split
    · exact ⟨_, rfl, rfl, regs.setB rfl _⟩
    · exact ⟨_, rfl, rfl, regs⟩
  obtain ⟨t, e, dwy, regs'⟩ := away
  rw [State.cmplGive_eq, if_neg hold, ← State.cmplHeld]
  dsimp only
  rw [e]
  split
  · refine ⟨?_, (regs'.setB rfl _).count _ _ _, ?_⟩
    · rw [State.dq_congr t (t.dwy_cqFullSet q), State.dq_congr _ dwy, queue]
    · rw [t.dwy_cqFullSet q, dwy, fns]
  · exact ⟨by rw [State.dq_congr _ dwy, queue], regs', (congrArg Dwy.fns dwy).trans fns⟩

/-- The number of completions held is shown. -/
theorem State.rf_showHeld {n : Nat} (count : (s.dq q).held.length = n) (fits : n < 128) :
    (s.showHeld q).rf (dwyQpStatus q) 6 0 = n := by
  rw [State.showHeld, count]
  exact State.rf_wf_fits _ _ (by decide) (by decide) fits

theorem State.rf_cmplHeld {c : Cmpl} (none_ : (s.dq q).held = []) : (s.cmplHeld q c).rf (dwyQpStatus q) 6 0 = 1 := by
  have off : offWrap (dwyQpStatus q) = true := offWrap_doorway (by unfold dwyQpStatus; omega)
  rw [State.rf, State.cmplHeld, State.rd_count _ _ _ _ off, ← State.rf]
  refine State.rf_showHeld ?_ (by decide)
  rw [State.dq_setDq, none_]
  rfl

theorem State.cqFullSet_shows (s : State) (q : Nat) : (s.cqFullSet q).rb (dwyQpStatus q) 28 = true ∧
    (s.cqFullSet q).rf (dwyQpStatus q) 6 0 = s.rf (dwyQpStatus q) 6 0 := by
  have off : offWrap (dwyQpStatus q) = true := offWrap_doorway (by unfold dwyQpStatus; omega)
  rw [State.cqFullSet, State.rb, State.rf, State.rd_count _ _ _ _ off, ← State.rb, ← State.rf]
  refine ⟨State.rb_setB _ _ _ (by decide), ?_⟩
  exact State.rf_wf_ne _ _ _ _ _ _ _ (by decide) (by decide) (by decide) (.inl (by decide))

/-- The first completion that finds its CQ full raises CQ_FULL. -/
theorem State.cmplGive_full {c : Cmpl} (none_ : (s.dq q).held = []) (near : s.cmplAway q c = false)
    (full : s.cqFree q = 0) : (s.cmplGive q c).rb (dwyQpStatus q) 28 = true ∧
      (s.cmplGive q c).rf (dwyQpStatus q) 6 0 = 1 := by
  have give : s.cmplGive q c = (s.cmplHeld q c).cqFullSet q := by
    have hold : ¬((s.dq q).held.isEmpty && !(s.cmplAway q c) && decide (s.cqFree q ≠ 0)) = true := by simp [full]
    rw [State.cmplGive_eq, if_neg hold, ← State.cmplHeld]
    dsimp only
    rw [if_neg (Bool.eq_false_iff.1 near), if_pos (by rw [near, full, none_]; rfl)]
  obtain ⟨rises, held⟩ := (s.cmplHeld q c).cqFullSet_shows q
  rw [give, held, State.rf_cmplHeld none_]
  exact ⟨rises, rfl⟩

end

/-! ## COMPLETION_WRITE (R412) -/

section
variable {s : State} {q : Nat}

/-- The oldest taken entry leaves the queue. -/
def State.untaken (s : State) (q : Nat) : State := s.setDq q { s.dq q with taken := (s.dq q).taken.drop 1 }

/-- An entry's STATUS other than DONE is counted. -/
def State.statusCounted (s : State) (q st : Nat) : State :=
  if st ≠ 0 then s.count evDwyStatus (s.fnOf q) (statusIdx st) else s

theorem State.statusCounted_stands (s : State) (q st : Nat) : regsStand s (s.statusCounted q st) ∧
    (s.statusCounted q st).dwy = s.dwy ∧ (s.statusCounted q st).outbox = s.outbox := by
  unfold State.statusCounted
  split
  · exact ⟨.count s _ _ _, s.dwy_count _ _ _, s.outbox_count _ _ _⟩
  · exact ⟨fun _ _ => rfl, rfl, rfl⟩

/-- The queue as its oldest entry completes. -/
def State.completing (s : State) (q : Nat) (t : Taken) : State := (s.untaken q).statusCounted q t.status

section
variable {t : Taken}

theorem State.completing_stands (s : State) (q : Nat) (t : Taken) : regsStand s (s.completing q t) ∧
    (s.completing q t).dq q = { s.dq q with taken := (s.dq q).taken.drop 1 } ∧
    (s.completing q t).dwy.fns = s.dwy.fns ∧ (s.completing q t).outbox = s.outbox := by
  obtain ⟨regs, dwy, out⟩ := (s.untaken q).statusCounted_stands q t.status
  refine ⟨fun a off => regs a off, ?_, ?_, out⟩
  · rw [State.completing, State.dq_congr _ dwy]
    exact s.dq_setDq q _
  · rw [State.completing, dwy, State.untaken, State.fns_setDq]

theorem exec_completionWrite_ended (head : (s.dq q).taken.head? = some t) (ended : t.wait = 0) :
    exec (.completionWrite q) s = .next (if s.qState q = 6 then ((s.untaken q).cmplDiscard q t.buf).resetDone q
      else if t.suppressed then (s.completing q t).mirrorWrite q
      else ((s.completing q t).cmplGive q ⟨t.bytes (s.qGen q), t.buf, t.copy⟩).mirrorWrite q) := by
  obtain ⟨rest, e⟩ : ∃ rest, (s.dq q).taken = t :: rest := List.head?_eq_some_iff.1 head
  have drop : s.untaken q = s.setDq q { s.dq q with taken := rest } := by rw [State.untaken, e]; rfl
  change execCompletionWrite q s = _
  unfold execCompletionWrite State.completing State.statusCounted
  dsimp only
  rw [e]
  dsimp only
  rw [if_neg (by simp [ended]), drop]
  split
  · rfl
  · split <;> rfl

theorem exec_completionWrite_waits (none_ : (s.dq q).taken = [] ∨ ∃ t, (s.dq q).taken.head? = some t ∧ t.wait ≠ 0) :
    exec (.completionWrite q) s = .next (s.mirrorWrite q) := by
  change execCompletionWrite q s = _
  unfold execCompletionWrite
  dsimp only
  rcases none_ with e | ⟨t, head, wait⟩
  · rw [e]
  · obtain ⟨rest, e⟩ : ∃ rest, (s.dq q).taken = t :: rest := List.head?_eq_some_iff.1 head
    rw [e]
    exact if_pos wait

theorem exec_completionWrite_reset (head : (s.dq q).taken.head? = some t) (ended : t.wait = 0) (resets : s.qState q = 6)
    (bare : t.buf = 0) : ∃ u, exec (.completionWrite q) s = .next u ∧ (u.dq q).taken = (s.dq q).taken.drop 1 ∧
      u.outbox = s.outbox ∧ ((s.dq q).taken.drop 1 = [] → resetOver q u) := by
  have off : offWrap (dwyQpStatus q) = true := offWrap_doorway (by unfold dwyQpStatus; omega)
  have gone : (s.untaken q).cmplDiscard q t.buf = (s.untaken q).count evDwyCmplDiscard ((s.untaken q).fnOf q) 0 := by
    rw [State.cmplDiscard, if_pos bare]
  have queue : ((s.untaken q).cmplDiscard q t.buf).dq q = { s.dq q with taken := (s.dq q).taken.drop 1 } := by
    rw [State.dq_congr _ ((s.untaken q).dwy_cmplDiscard q t.buf)]
    exact s.dq_setDq q _
  have state : ((s.untaken q).cmplDiscard q t.buf).qState q = 6 := by
    rw [gone, State.qState, State.rf, State.rd_count _ _ _ _ off]
    exact resets
  have outbox : ((s.untaken q).cmplDiscard q t.buf).outbox = s.outbox := by
    rw [gone, State.outbox_count]
    rfl
  have out : exec (.completionWrite q) s = .next (((s.untaken q).cmplDiscard q t.buf).resetDone q) := by
    rw [exec_completionWrite_ended head ended, if_pos resets]
  refine ⟨_, out, ?_⟩
  by_cases last : (s.dq q).taken.drop 1 = []
  · rw [State.resetDone_ends state (by rw [queue]; exact last), State.dq_resetClears, queue]
    exact ⟨rfl, outbox, fun _ => State.resetClears_over q _⟩
  · rw [State.resetDone_waits (.inr (by rw [queue]; exact last)), queue]
    exact ⟨rfl, outbox, fun e => absurd e last⟩

/-- Nothing that completes without a slot moves CQ_PI. -/
theorem State.cqPi_mirrorWrite (s : State) (small : q < 16384) : (s.mirrorWrite q).cqPi q = s.cqPi q := by
  rw [State.cqPi, State.rf, s.rd_mirrorWrite q (by unfold dwyCqPi; omega) (by unfold dwyCqPi; omega)]
  rfl

theorem exec_completionWrite_suppressed (small : q < 16384) (head : (s.dq q).taken.head? = some t) (ended : t.wait = 0)
    (runs : s.qState q ≠ 6) (quiet : t.suppressed = true) : ∃ u, exec (.completionWrite q) s = .next u ∧
      (u.dq q).taken = (s.dq q).taken.drop 1 ∧ u.cqPi q = s.cqPi q := by
  have out : exec (.completionWrite q) s = .next ((s.completing q t).mirrorWrite q) := by
    rw [exec_completionWrite_ended head ended, if_neg runs, if_pos quiet]
  obtain ⟨regs, queue, -, -⟩ := s.completing_stands q t
  refine ⟨_, out, by rw [State.dq_mirrorWrite, queue], ?_⟩
  rw [State.cqPi_mirrorWrite _ small, State.cqPi, regs.rf _ _ (offWrap_doorway (by unfold dwyCqPi; omega))]
  rfl

/-- What decides where a completion goes is the same as its entry leaves the queue. -/
theorem State.completing_same (s : State) (q : Nat) (t : Taken) : (s.completing q t).cqFree q = s.cqFree q ∧
    (s.completing q t).cqWindow q = s.cqWindow q ∧
    (s.completing q t).fnAway ((s.completing q t).fnOf q) = s.fnAway (s.fnOf q) := by
  obtain ⟨regs, -, fns, -⟩ := s.completing_stands q t
  have same {a : Nat} (lo : 0x3000000 ≤ a) : (s.completing q t).rd a = s.rd a := regs a (offWrap_doorway lo)
  refine ⟨?_, ?_, ?_⟩
  · simp only [State.cqFree, State.cqSize, State.cqPi, State.cqCi, State.rf]
    rw [same (by unfold dwyQpCfg; omega), same (by unfold dwyCqPi; omega), same (by unfold dwyCqCi; omega)]
  · rw [State.cqWindow, State.rb, same (by unfold dwyQpCfg; omega)]
    rfl
  · rw [State.fnOf_congr fun f _ => same (by unfold dwyFnQp; omega), State.fnAway_congr fns]

theorem State.cmplAway_congr {s u : State} (window : u.cqWindow q = s.cqWindow q)
    (away : u.fnAway (u.fnOf q) = s.fnAway (s.fnOf q)) (c : Cmpl) : u.cmplAway q c = s.cmplAway q c := by
  simp only [State.cmplAway, State.cqAway, window, away]

theorem exec_completionWrite_held (small : q < 16384) (head : (s.dq q).taken.head? = some t) (ended : t.wait = 0)
    (runs : s.qState q ≠ 6) (loud : t.suppressed = false)
    (no : (s.dq q).held ≠ [] ∨ s.cmplAway q ⟨t.bytes (s.qGen q), t.buf, t.copy⟩ = true ∨ s.cqFree q = 0) :
    ∃ u, exec (.completionWrite q) s = .next u ∧ (u.dq q).taken = (s.dq q).taken.drop 1 ∧
      (u.dq q).held = (s.dq q).held ++ [⟨t.bytes (s.qGen q), t.buf, t.copy⟩] ∧ u.cqPi q = s.cqPi q ∧
      u.rd (dwyQpStatus q) =
        ((s.completing q t).cmplGive q ⟨t.bytes (s.qGen q), t.buf, t.copy⟩).rd (dwyQpStatus q) := by
  have out : exec (.completionWrite q) s =
      .next (((s.completing q t).cmplGive q ⟨t.bytes (s.qGen q), t.buf, t.copy⟩).mirrorWrite q) := by
    rw [exec_completionWrite_ended head ended, if_neg runs, if_neg (by simp [loud])]
  obtain ⟨regs, queue, -, -⟩ := s.completing_stands q t
  obtain ⟨free, window, away⟩ := s.completing_same q t
  have off : offWrap (dwyCqPi q) = true := offWrap_doorway (by unfold dwyCqPi; omega)
  obtain ⟨queue', writes, -⟩ := State.cmplGive_holds (s := s.completing q t) (q := q)
    (c := ⟨t.bytes (s.qGen q), t.buf, t.copy⟩) (by rwa [queue, State.cmplAway_congr window away, free])
  rw [queue] at queue'
  refine ⟨_, out, by rw [State.dq_mirrorWrite, queue'], by rw [State.dq_mirrorWrite, queue'], ?_,
    State.rd_mirrorWrite _ q (by unfold dwyQpStatus; omega) (by unfold dwyQpStatus; omega)⟩
  rw [State.cqPi_mirrorWrite _ small, State.cqPi, writes.rf _ _ (by unfold dwyCqPi dwyQpStatus; omega) off,
    regs.rf _ _ off]
  rfl

theorem exec_completionWrite_full (small : q < 16384) (head : (s.dq q).taken.head? = some t) (ended : t.wait = 0)
    (runs : s.qState q ≠ 6) (loud : t.suppressed = false) (window : s.cqWindow q = false)
    (here : s.fnAway (s.fnOf q) = false) (none_ : (s.dq q).held = []) (full : s.cqFree q = 0) :
    ∃ u, exec (.completionWrite q) s = .next u ∧ (u.dq q).taken = (s.dq q).taken.drop 1 ∧
      (u.dq q).held = [⟨t.bytes (s.qGen q), t.buf, t.copy⟩] ∧ u.cqPi q = s.cqPi q ∧
      u.rb (dwyQpStatus q) 28 = true ∧ u.rf (dwyQpStatus q) 6 0 = 1 := by
  obtain ⟨u, out, taken, held, pi, status⟩ :=
    exec_completionWrite_held small head ended runs loud (.inr (.inr full))
  obtain ⟨-, queue, -, -⟩ := s.completing_stands q t
  obtain ⟨free, window', away⟩ := s.completing_same q t
  have near : (s.completing q t).cmplAway q ⟨t.bytes (s.qGen q), t.buf, t.copy⟩ = false := by
    rw [State.cmplAway, State.cqAway, window', window, away, here]
    simp
  obtain ⟨cqFull, held'⟩ := State.cmplGive_full (s := s.completing q t) (q := q) (by rw [queue]; exact none_) near
    (free.trans full)
  refine ⟨u, out, taken, by rw [held, none_]; rfl, pi, ?_, ?_⟩
  · rw [State.rb, status]
    exact cqFull
  · rw [State.rf, status]
    exact held'

theorem exec_completionWrite_slot (small : q < 16384) (head : (s.dq q).taken.head? = some t) (ended : t.wait = 0)
    (runs : s.qState q ≠ 6) (loud : t.suppressed = false) (window : s.cqWindow q = false)
    (here : s.fnAway (s.fnOf q) = false) (none_ : (s.dq q).held = []) (free : s.cqFree q ≠ 0) (bare : t.buf = 0)
    (plain : t.copy = none) : ∃ u, exec (.completionWrite q) s = .next u ∧ (u.dq q).taken = (s.dq q).taken.drop 1 ∧
      u.cqPi q = (s.cqPi q + 1) % 65536 ∧ (u.dq q).mirrorDue = false ∧ u.outbox = s.outbox ++
        [s.slotEntry q (t.bytes (s.qGen q)), .hostWrite (s.rd64 (dwyIdxBaseLo q))
          (natLe 2 (s.sqCi q) ++ natLe 2 ((s.cqPi q + 1) % 65536) ++ natLe 4 0)] := by
  obtain ⟨regs, queue, fns, outbox⟩ := s.completing_stands q t
  obtain ⟨free', window', away⟩ := s.completing_same q t
  have near : (s.completing q t).cmplAway q ⟨t.bytes (s.qGen q), t.buf, t.copy⟩ = false := by
    rw [State.cmplAway, State.cqAway, window', window, away, here]
    simp
  have give : (s.completing q t).cmplGive q ⟨t.bytes (s.qGen q), t.buf, t.copy⟩ =
      (s.completing q t).cmplPost q ⟨t.bytes (s.qGen q), 0, none⟩ := by
    rw [State.cmplGive_eq, if_pos (by rw [queue, none_, near, free']; simp [free]), bare, plain]
  have out : exec (.completionWrite q) s =
      .next (((s.completing q t).cmplPost q ⟨t.bytes (s.qGen q), 0, none⟩).mirrorWrite q) := by
    rw [exec_completionWrite_ended head ended, if_neg runs, if_neg (by simp [loud]), give]
  obtain ⟨writes, pi, fns', outbox', taken, -, due⟩ := State.cmplPost_shows (window'.trans window) (away.trans here)
    (t.bytes (s.qGen q))
  generalize posted : (s.completing q t).cmplPost q ⟨t.bytes (s.qGen q), 0, none⟩ = p at *
  have same {a : Nat} (lo : 0x3000000 ≤ a) : (s.completing q t).rd a = s.rd a := regs a (offWrap_doorway lo)
  have stands {a : Nat} (lo : 0x3000000 ≤ a) (ne : a ≠ dwyCqPi q) : p.rd a = s.rd a :=
    (writes.rd ne (offWrap_doorway lo)).trans (same lo)
  have slot : (s.completing q t).slotEntry q (t.bytes (s.qGen q)) = s.slotEntry q (t.bytes (s.qGen q)) := by
    simp only [State.slotEntry, State.cqPi, State.cqSize, State.rf, State.rd64, State.rdN]
    rw [same (by unfold dwyCqBaseLo; omega), same (by unfold dwyCqBaseLo; omega), same (by unfold dwyCqPi; omega),
      same (by unfold dwyQpCfg; omega)]
  have cqPi : (s.completing q t).cqPi q = s.cqPi q := by
    rw [State.cqPi, State.rf, same (by unfold dwyCqPi; omega)]
    rfl
  have window'' : p.cqWindow q = false := by
    rw [State.cqWindow, State.rb, stands (by unfold dwyQpCfg; omega) (by unfold dwyQpCfg dwyCqPi; omega)]
    exact window
  have here'' : p.fnAway (p.fnOf q) = false := by
    rw [State.fnOf_congr fun f _ => stands (by unfold dwyFnQp; omega) (by unfold dwyFnQp dwyCqPi; omega),
      State.fnAway_congr (fns'.trans fns), here]
  obtain ⟨mirror, -⟩ := State.mirrorWrite_host due window'' here''
  refine ⟨_, out, ?_, ?_, ?_, ?_⟩
  · rw [State.dq_mirrorWrite, taken, queue]
  · rw [State.cqPi_mirrorWrite _ small, pi, cqPi]
  · rw [State.dq_mirrorWrite, State.cqAway_of_host window'' here'']
    simp
  · have sqCi : p.sqCi q = s.sqCi q := by
      rw [State.sqCi, State.rf, stands (by unfold dwySqCi; omega) (by unfold dwySqCi dwyCqPi; omega)]
      rfl
    have base : p.rd64 (dwyIdxBaseLo q) = s.rd64 (dwyIdxBaseLo q) := by
      rw [State.rd64, State.rdN, State.rdN, stands (by unfold dwyIdxBaseLo; omega) (by unfold dwyIdxBaseLo dwyCqPi; omega),
        stands (by unfold dwyIdxBaseLo; omega) (by unfold dwyIdxBaseLo dwyCqPi; omega)]
      rfl
    rw [mirror, outbox', outbox, slot, State.mirrorBytes, pi, cqPi, sqCi, base, List.append_assoc]
    rfl

end

end

end Sys2Proof.Machine

/-! PROOFS. The doorbell and the CQ index, which the host writes (R400, R402, R414). -/

namespace Sys2Proof.Machine

section
variable {s : State} {q : Nat} {v : Word}

/-! ## SQ_DOORBELL -/

/-- The queue takes no entries: it is off, or receives by reference. -/
def State.noSq (s : State) (q : Nat) : Prop := s.qEn q = false ∨ (s.qKind q = 3 ∧ s.qCopy q = false)

/-- The index written lies beyond the ring. -/
def State.sqBeyond (s : State) (q : Nat) (v : Word) : Prop := s.sqSize q < (fld v 15 0 + 65536 - s.sqCi q) % 65536

theorem exec_sqDoorbell (q : Nat) (v : Word) (s : State) : exec (.sqDoorbell q v) s = .next (s.sqPiWrite q v) := rfl

theorem State.sqPiWrite_eq (s : State) (q : Nat) (v : Word) : s.sqPiWrite q v =
    if !(s.qEn q) ∨ (s.qKind q = 3 ∧ !(s.qCopy q)) then s.plainWrite (dwySqPi q) v
    else if s.qState q = 6 then s
    else if s.sqSize q < (fld v 15 0 + 65536 - s.sqCi q) % 65536 then
      if s.qState q = 1 ∨ s.qState q = 3 then s.dwyStop q 2 (Entry.taken (entry2 []) (s.sqCi q)) else s
    else s.plainWrite (dwySqPi q) v := rfl

theorem State.noSq_iff : (!(s.qEn q) ∨ (s.qKind q = 3 ∧ !(s.qCopy q))) ↔ s.noSq q := by
  simp only [Bool.not_eq_true', State.noSq]

theorem State.sqPiWrite_plain (free : s.noSq q ∨ (s.qState q ≠ 6 ∧ ¬s.sqBeyond q v)) :
    s.sqPiWrite q v = s.plainWrite (dwySqPi q) v := by
  rw [State.sqPiWrite_eq]
  split
  · rfl
  · rename_i has
    obtain ⟨runs, inside⟩ := free.resolve_left (fun h => has (State.noSq_iff.2 h))
    rw [if_neg runs]
    exact if_neg inside

theorem State.sqPiWrite_none (has : ¬s.noSq q)
    (no : s.qState q = 6 ∨ (s.sqBeyond q v ∧ s.qState q ≠ 1 ∧ s.qState q ≠ 3)) : s.sqPiWrite q v = s := by
  rw [State.sqPiWrite_eq, if_neg (fun h => has (State.noSq_iff.1 h))]
  rcases no with resets | ⟨beyond, notRunning, notPaused⟩
  · exact if_pos resets
  · split
    · rfl
    · exact (if_pos beyond).trans (if_neg (by omega))

theorem State.sqPiWrite_stops (has : ¬s.noSq q) (runs : s.qState q = 1 ∨ s.qState q = 3) (beyond : s.sqBeyond q v) :
    s.sqPiWrite q v = s.dwyStop q 2 (Entry.taken (entry2 []) (s.sqCi q)) := by
  rw [State.sqPiWrite_eq, if_neg (fun h => has (State.noSq_iff.1 h)), if_neg (by omega)]
  exact (if_pos beyond).trans (if_pos runs)

theorem State.plainWrite_sqPi (small : q < 16384) (s : State) (v : Word) :
    (s.plainWrite (dwySqPi q) v).sqPi q = fld v 15 0 :=
  s.rf_plainWrite (regAt_dwySqPi small) v (by decide) (by decide)

theorem exec_sqDoorbell_stops (small : q < 16384) (has : ¬s.noSq q) (runs : s.qState q = 1 ∨ s.qState q = 3)
    (beyond : s.sqBeyond q v) (gen : s.fnGen (s.fnOf q) ≠ 1) : ∃ u, exec (.sqDoorbell q v) s = .next u ∧
      u.qState q = 4 ∧ u.rf (dwyQpStatus q) 23 16 = 2 ∧ u.sqPi q = s.sqPi q ∧ (u.dq q).prefetch = [] ∧
      u.rb (dwyFnErr (s.fnOf q)) 1 = true := by
  have out : exec (.sqDoorbell q v) s = .next (s.queueStopped q 2 (Entry.taken (entry2 []) (s.sqCi q))) := by
    rw [exec_sqDoorbell, State.sqPiWrite_stops has runs beyond, State.dwyStop_stops gen]
  obtain ⟨stops, cause, err, queue, regs⟩ :=
    State.queueStopped_shows (by decide : 2 < 256) small s (Entry.taken (entry2 []) (s.sqCi q))
  refine ⟨_, out, stops, cause, ?_, by rw [queue], err⟩
  rw [State.sqPi, State.rf, regs _ (by unfold dwySqPi dwyQpStatus; omega) (by unfold dwySqPi dwyFnErr; omega)
    (offWrap_doorway (by unfold dwySqPi; omega))]
  rfl

theorem exec_sqDoorbell_halts (has : ¬s.noSq q) (runs : s.qState q = 1 ∨ s.qState q = 3)
    (beyond : s.sqBeyond q v) (gen : s.fnGen (s.fnOf q) = 1) : ∃ u, exec (.sqDoorbell q v) s = .next u ∧
      u.rb dwyHalt 31 = true ∧ u.sqPi q = s.sqPi q := by
  have out : exec (.sqDoorbell q v) s = .next (s.dwyHalted q 2 (s.sqCi q)) := by
    rw [exec_sqDoorbell, State.sqPiWrite_stops has runs beyond, State.dwyStop_halts gen]
    rfl
  refine ⟨_, out, s.rb_dwyHalted q 2 _, ?_⟩
  rw [State.sqPi, State.rf, s.rd_dwyHalted_ne (fun p => by unfold dwySqPi dwyQpStatus; omega)
    (by unfold dwySqPi dwyHalt; omega) (by unfold dwySqPi dwyHaltLoc; omega)
    (offWrap_doorway (by unfold dwySqPi; omega))]
  rfl

/-! ## A write of DWY_CQ_CI -/

/-- The index written lies beyond what the part has written. -/
def State.cqBeyond (s : State) (q : Nat) (v : Word) : Prop := s.cqSize q < (s.cqPi q + 65536 - fld v 15 0) % 65536

theorem exec_cqCiWrite (q : Nat) (v : Word) (s : State) : exec (.cqCiWrite q v) s = .next (s.cqCiWrite q v) := rfl

theorem State.cqCiWrite_off (off : s.qEn q = false) : s.cqCiWrite q v = s.plainWrite (dwyCqCi q) v :=
  if_pos (by simp [off])

theorem State.cqCiWrite_beyond (on : s.qEn q = true) (beyond : s.cqBeyond q v) :
    s.cqCiWrite q v = s.setB (dwyFnErr (s.fnOf q)) 3 := (if_neg (by simp [on])).trans (if_pos beyond)

theorem State.cqCiWrite_inside (on : s.qEn q = true) (inside : ¬s.cqBeyond q v) :
    s.cqCiWrite q v = (State.heldFlush q 64 (s.plainWrite (dwyCqCi q) v)).mirrorWrite q :=
  (if_neg (by simp [on])).trans (if_neg inside)

theorem State.plainWrite_cqCi (small : q < 16384) (s : State) (v : Word) :
    (s.plainWrite (dwyCqCi q) v).cqCi q = fld v 15 0 :=
  s.rf_plainWrite (regAt_dwyCqCi small) v (by decide) (by decide)

/-- With nothing held, the queue's HELD mark falls. -/
theorem State.heldFlush_none (fuel : Nat) (none_ : (s.dq q).held = []) :
    State.heldFlush q (fuel + 1) s = s.wf (dwyQpStatus q) 27 27 0 := by
  rw [State.heldFlush, none_]

/-- A held completion that can be written goes to its slot, and the rest after it. -/
theorem State.heldFlush_cons (fuel : Nat) {c : Cmpl} {rest : List Cmpl} (held : (s.dq q).held = c :: rest)
    (near : s.cmplAway q c = false) (free : s.cqFree q ≠ 0) : State.heldFlush q (fuel + 1) s =
      State.heldFlush q fuel (((s.setDq q { s.dq q with held := rest }).showHeld q).cmplPost q c) := by
  rw [State.heldFlush, held]
  exact if_neg (by simp [near, free])

theorem State.rb_markFalls (s : State) (q : Nat) : (s.wf (dwyQpStatus q) 27 27 0).rb (dwyQpStatus q) 27 = false := by
  rw [State.rb_wf _ _ _ _ _ _ (by decide) (by decide) (by decide)]
  rfl

theorem exec_cqCiWrite_idle (small : q < 16384) (on : s.qEn q = true) (inside : ¬s.cqBeyond q v)
    (none_ : (s.dq q).held = []) (quiet : (s.dq q).mirrorDue = false) : ∃ u, exec (.cqCiWrite q v) s = .next u ∧
      u.cqCi q = fld v 15 0 ∧ u.cqPi q = s.cqPi q ∧ u.rb (dwyQpStatus q) 27 = false ∧ onlyIn [.regs] s u := by
  have queue : (s.plainWrite (dwyCqCi q) v).dq q = s.dq q :=
    State.dq_congr s ((s.plainWrite_keeps _ _).same .dwy (by decide)) q
  have queue' : ((s.plainWrite (dwyCqCi q) v).wf (dwyQpStatus q) 27 27 0).dq q = s.dq q := queue
  have out : exec (.cqCiWrite q v) s = .next ((s.plainWrite (dwyCqCi q) v).wf (dwyQpStatus q) 27 27 0) := by
    rw [exec_cqCiWrite, State.cqCiWrite_inside on inside, State.heldFlush_none 63 (queue ▸ none_),
      State.mirrorWrite_idle (.inl (queue' ▸ quiet))]
  refine ⟨_, out, ?_, ?_, State.rb_markFalls _ q, ?_⟩
  · rw [State.cqCi, State.rf, State.rd_wf_ne _ _ _ _ (by unfold dwyCqCi dwyQpStatus; omega)]
    exact s.plainWrite_cqCi small v
  · rw [State.cqPi, State.rf, State.rd_wf_ne _ _ _ _ (by unfold dwyCqPi dwyQpStatus; omega),
      s.rd_plainWrite_ne v (by unfold dwyCqPi dwyCqCi; omega)]
    rfl
  · exact ((State.wf_keeps _ _ _ _ _).after rfl (s.plainWrite_keeps _ _)).same

/-- A held completion as the index that frees its slot arrives. -/
def State.unheld (s : State) (q : Nat) (v : Word) : State :=
  let t := s.plainWrite (dwyCqCi q) v
  (t.setDq q { t.dq q with held := [] }).showHeld q

theorem State.unheld_stands (s : State) (q : Nat) (v : Word) {a : Nat} (status : a ≠ dwyQpStatus q) (ci : a ≠ dwyCqCi q) :
    (s.unheld q v).rd a = s.rd a := by
  rw [State.unheld, State.showHeld, State.rd_wf_ne _ _ _ _ status, State.rd_setDq, s.rd_plainWrite_ne v ci]

theorem State.unheld_dq (s : State) (q : Nat) (v : Word) : (s.unheld q v).dq q = { s.dq q with held := [] } := by
  have same : (s.plainWrite (dwyCqCi q) v).dq q = s.dq q :=
    State.dq_congr s ((s.plainWrite_keeps _ _).same .dwy (by decide)) q
  have queue : (s.unheld q v).dq q = { (s.plainWrite (dwyCqCi q) v).dq q with held := [] } := State.dq_setDq _ q _
  rw [queue, same]

theorem State.unheld_parts (s : State) (q : Nat) (v : Word) : (s.unheld q v).dwy.fns = s.dwy.fns ∧
    (s.unheld q v).outbox = s.outbox :=
  have dwy : (s.plainWrite (dwyCqCi q) v).dwy = s.dwy := (s.plainWrite_keeps _ _).same .dwy (by decide)
  ⟨Eq.trans (b := (s.plainWrite (dwyCqCi q) v).dwy.fns) rfl (congrArg Dwy.fns dwy),
    (s.plainWrite_keeps (dwyCqCi q) v).same .outbox (by decide)⟩

theorem State.cqCi_unheld (small : q < 16384) (s : State) (v : Word) : (s.unheld q v).cqCi q = fld v 15 0 := by
  rw [State.cqCi, State.rf, State.unheld, State.showHeld, State.rd_wf_ne _ _ _ _ (by unfold dwyCqCi dwyQpStatus; omega)]
  exact s.plainWrite_cqCi small v

theorem exec_cqCiWrite_frees {bs : List Byte} (small : q < 16384) (on : s.qEn q = true) (inside : ¬s.cqBeyond q v)
    (held : (s.dq q).held = [⟨bs, 0, none⟩]) (near : s.cmplAway q ⟨bs, 0, none⟩ = false) (window : s.cqWindow q = false)
    (free : (s.cqPi q + 65536 - fld v 15 0) % 65536 < s.cqSize q) : ∃ u, exec (.cqCiWrite q v) s = .next u ∧
      u.cqCi q = fld v 15 0 ∧ (u.dq q).held = [] ∧ u.cqPi q = (s.cqPi q + 1) % 65536 ∧
      u.rb (dwyQpStatus q) 27 = false ∧ (u.outbox.drop s.outbox.length).head? = some (s.slotEntry q bs) := by
  have here : s.fnAway (s.fnOf q) = false := by
    simp only [State.cmplAway, State.cqAway, window] at near
    simpa using near
  have plain {a : Nat} (ci : a ≠ dwyCqCi q) : (s.plainWrite (dwyCqCi q) v).rd a = s.rd a := s.rd_plainWrite_ne v ci
  have regs {a : Nat} (status : a ≠ dwyQpStatus q) (ci : a ≠ dwyCqCi q) := s.unheld_stands q v status ci
  obtain ⟨fns, outbox⟩ := s.unheld_parts q v
  have dwy : (s.plainWrite (dwyCqCi q) v).dwy = s.dwy := (s.plainWrite_keeps _ _).same .dwy (by decide)
  have near' : (s.plainWrite (dwyCqCi q) v).cmplAway q ⟨bs, 0, none⟩ = false := by
    rw [State.cmplAway_congr (s := s) ?_ ?_, near]
    · rw [State.cqWindow, State.rb, plain (by unfold dwyQpCfg dwyCqCi; omega)]
      rfl
    · rw [State.fnOf_congr fun f _ => plain (by unfold dwyFnQp dwyCqCi; omega), State.fnAway_congr (congrArg Dwy.fns dwy)]
  have free' : (s.plainWrite (dwyCqCi q) v).cqFree q ≠ 0 := by
    have size : (s.plainWrite (dwyCqCi q) v).cqSize q = s.cqSize q := by
      rw [State.cqSize, State.rf, plain (by unfold dwyQpCfg dwyCqCi; omega)]
      rfl
    have pi : (s.plainWrite (dwyCqCi q) v).cqPi q = s.cqPi q := by
      rw [State.cqPi, State.rf, plain (by unfold dwyCqPi dwyCqCi; omega)]
      rfl
    rw [State.cqFree, size, pi, s.plainWrite_cqCi small v, idxSub]
    omega
  obtain ⟨writes, pi, fns', outbox', -, held', -⟩ := State.cmplPost_shows (s := s.unheld q v) (q := q)
    (by rw [State.cqWindow, State.rb, regs (by unfold dwyQpCfg dwyQpStatus; omega) (by unfold dwyQpCfg dwyCqCi; omega)]
        exact window)
    (by rw [State.fnOf_congr fun f _ => regs (by unfold dwyFnQp dwyQpStatus; omega) (by unfold dwyFnQp dwyCqCi; omega),
          State.fnAway_congr fns, here]) bs
  have queue : (s.plainWrite (dwyCqCi q) v).dq q = s.dq q := State.dq_congr s dwy q
  have out : exec (.cqCiWrite q v) s =
      .next (State.mirrorWrite (State.heldFlush q 63 ((s.unheld q v).cmplPost q ⟨bs, 0, none⟩)) q) := by
    rw [exec_cqCiWrite, State.cqCiWrite_inside on inside, State.heldFlush_cons 63 (queue ▸ held) near' free']
    rfl
  generalize posted : (s.unheld q v).cmplPost q ⟨bs, 0, none⟩ = p at *
  rw [s.unheld_dq q v] at held'
  rw [State.heldFlush_none 62 held'] at out
  have mirror {a : Nat} (lo : 0x3100000 ≤ a) (hi : a < 0x3200000) :=
    State.rd_mirrorWrite (p.wf (dwyQpStatus q) 27 27 0) q (a := a) (by omega) (by omega)
  have slot : (s.unheld q v).slotEntry q bs = s.slotEntry q bs := by
    simp only [State.slotEntry, State.cqPi, State.cqSize, State.rf, State.rd64, State.rdN]
    rw [regs (by unfold dwyCqBaseLo dwyQpStatus; omega) (by unfold dwyCqBaseLo dwyCqCi; omega),
      regs (by unfold dwyCqBaseLo dwyQpStatus; omega) (by unfold dwyCqBaseLo dwyCqCi; omega),
      regs (by unfold dwyCqPi dwyQpStatus; omega) (by unfold dwyCqPi dwyCqCi; omega),
      regs (by unfold dwyQpCfg dwyQpStatus; omega) (by unfold dwyQpCfg dwyCqCi; omega)]
  refine ⟨_, out, ?_, ?_, ?_, ?_, ?_⟩
  · rw [State.cqCi, State.rf, mirror (by unfold dwyCqCi; omega) (by unfold dwyCqCi; omega),
      State.rd_wf_ne _ _ _ _ (by unfold dwyCqCi dwyQpStatus; omega), ← State.rf,
      writes.rf _ _ (by unfold dwyCqCi dwyCqPi; omega) (offWrap_doorway (by unfold dwyCqCi; omega))]
    exact s.cqCi_unheld small v
  · rw [State.dq_mirrorWrite]
    exact held'
  · rw [State.cqPi, State.rf, mirror (by unfold dwyCqPi; omega) (by unfold dwyCqPi; omega),
      State.rd_wf_ne _ _ _ _ (by unfold dwyCqPi dwyQpStatus; omega), ← State.rf, ← State.cqPi, pi, State.cqPi, State.rf,
      regs (by unfold dwyCqPi dwyQpStatus; omega) (by unfold dwyCqPi dwyCqCi; omega)]
    rfl
  · rw [State.rb, mirror (by unfold dwyQpStatus; omega) (by unfold dwyQpStatus; omega)]
    exact State.rb_markFalls p q
  · obtain ⟨more, e⟩ := (State.mirrorWrite_keeps (p.wf (dwyQpStatus q) 27 27 0) q).out
    rw [State.wf_outbox, outbox', outbox, slot] at e
    rw [← e, List.append_assoc, List.drop_left]
    rfl

end

end Sys2Proof.Machine

section
open Sys2Proof Sys2Proof.Machine

/-- Settles O48: completions, signals, doorbells and CQ indices, each by the one branch that its hypotheses leave. -/
theorem doorwayCompletionsAndIndices : Obligations.DoorwayCompletionsAndIndices := by
  refine ⟨fun q s small => ⟨fun none_ idle => ?_, fun none_ due host => ?_, fun t head ended resets bare => ?_,
    fun t head ended runs => ⟨?_, ?_, ?_, ?_⟩, fun early => exec_completionSignal_early early, fun due here => ?_,
    fun due away => ?_⟩, fun q v s small => ⟨fun free => ?_, fun has no => ?_, ?_, ?_⟩,
    fun q v s small => ⟨fun off => ?_, fun on beyond => ?_, ?_, ?_⟩⟩
  · rw [exec_completionWrite_waits none_, State.mirrorWrite_idle idle]
  · have out := exec_completionWrite_waits none_
    obtain ⟨window, here⟩ := host
    obtain ⟨mirror, regs⟩ := State.mirrorWrite_host due window here
    refine ⟨_, out, mirror, ?_, ?_⟩
    · rw [State.dq_mirrorWrite, State.cqAway_of_host window here]
      simp
    · rw [State.mirrorWrite_due due (State.cqAway_of_host window here), State.cqWrite_host window]
      exact ((State.setDq_keeps _ _ _).after rfl ((State.emit_keeps s _).mono rfl)).same
  · exact exec_completionWrite_reset head ended resets bare
  · exact exec_completionWrite_suppressed small head ended runs
  · intro loud host none_ free bare plain
    exact exec_completionWrite_slot small head ended runs loud host.1 host.2 none_ free bare plain
  · intro loud host none_ full
    exact exec_completionWrite_full small head ended runs loud host.1 host.2 none_ full
  · intro loud no
    have no' : (s.dq q).held ≠ [] ∨ s.cmplAway q ⟨t.bytes (s.qGen q), t.buf, t.copy⟩ = true ∨ s.cqFree q = 0 :=
      no.elim (fun away => .inr (.inl (by rw [State.cmplAway, away, Bool.true_or]))) .inl
    obtain ⟨u, out, taken, held, pi, -⟩ := exec_completionWrite_held small head ended runs loud no'
    exact ⟨u, out, taken, held, pi⟩
  · have out := exec_completionSignal_due due
    obtain ⟨-, dwy, -, raised⟩ := State.qSignal_here_shows here
    exact ⟨_, out, by rw [State.dq_congr _ dwy, State.dq_setDq], by rw [State.dq_congr _ dwy, State.dq_setDq], raised⟩
  · have out := exec_completionSignal_due due
    obtain ⟨-, dwy, bell⟩ := State.qSignal_away_shows away
    exact ⟨_, out, by rw [State.dq_congr _ dwy, State.dq_setDq], by rw [State.dq_congr _ dwy, State.dq_setDq], bell⟩
  · have out : exec (.sqDoorbell q v) s = .next (s.plainWrite (dwySqPi q) v) := by
      rw [exec_sqDoorbell, State.sqPiWrite_plain free]
    exact ⟨_, out, s.plainWrite_sqPi small v, fun a ne => s.rd_plainWrite_ne v ne, (s.plainWrite_keeps _ _).same⟩
  · rw [exec_sqDoorbell, State.sqPiWrite_none has no]
  · exact fun has runs beyond gen => exec_sqDoorbell_stops small has runs beyond gen
  · exact fun has runs beyond gen => exec_sqDoorbell_halts has runs beyond gen
  · have out : exec (.cqCiWrite q v) s = .next (s.plainWrite (dwyCqCi q) v) := by
      rw [exec_cqCiWrite, State.cqCiWrite_off off]
    exact ⟨_, out, s.plainWrite_cqCi small v, (s.plainWrite_keeps _ _).same⟩
  · rw [exec_cqCiWrite, State.cqCiWrite_beyond on beyond]
  · exact fun on inside none_ quiet => exec_cqCiWrite_idle small on inside none_ quiet
  · rintro ⟨bs, buf, copy⟩ on inside held near plain bare window free
    subst plain bare
    exact exec_cqCiWrite_frees small on inside held near window free

end

/-! PROOFS. What a function level reset, and the reset of Doorway, leave (R420, R421). -/

namespace Sys2Proof.Machine

/-! ## The registers a function's reset writes -/

/-- The registers of queues, of Bellboard, of the function and of its grants. -/
def fnResetWrites (f a : Nat) : Prop :=
  (0x03100000 ≤ a ∧ a < 0x05000000) ∨ (dwyFnFmt f ≤ a ∧ a < dwyFnErr f + 4) ∨ cupWrites a ∨ ∃ k < 8, a = cupFnGrant f k

theorem fnResetWrites_queue {f a : Nat} (lo : 0x03100000 ≤ a) (hi : a < 0x05000000) : fnResetWrites f a := .inl ⟨lo, hi⟩

theorem not_fnResetWrites_low {f a : Nat} (h : a < 0x03100000) : ¬fnResetWrites f a := by
  rintro (range | fn | cup | ⟨k, hk, grant⟩)
  · omega
  · unfold dwyFnFmt at fn
    omega
  · refine not_cupWrites (by omega) ⟨?_, ?_⟩ (fun k hk => ?_) cup
    all_goals simp only [cupErr, cupErrLoc, cupPoolStatus]; omega
  · unfold cupFnGrant at grant
    omega

section
variable {s t : State} {f q : Nat}

theorem State.rd_resetRegs (s : State) (lo hi a : Nat) :
    (s.resetRegs lo hi).rd a = if lo ≤ a ∧ a < hi then regReset a else s.rd a := by
  unfold State.rd State.resetRegs tget
  dsimp only
  rw [tfind_tclear]
  split <;> rfl

theorem writesOnly.resetRegs {w : Nat → Prop} (h : writesOnly w s t) {lo hi : Nat} (may : ∀ a, lo ≤ a → a < hi → w a) :
    writesOnly w s (t.resetRegs lo hi) := fun a off out => by
  rw [State.rd_resetRegs, if_neg fun range => out (may a range.1 range.2), h a off out]

theorem State.hwFree_writes (s : State) (a : Nat) : writesOnly cupWrites s (s.hwFree a) := by
  obtain ⟨checked, -⟩ := s.cupCheck_spec a none
  unfold State.hwFree
  rcases h : s.cupCheck a none with ⟨u, r | ⟨k, i, r⟩⟩
  · rw [h] at checked
    exact checked.1.1
  · rw [h] at checked
    exact checked.1.1.trans (u.cupFree_step _ _ _).1

/-- A discarded completion writes what a buffer's free writes. -/
theorem State.cmplDiscard_writes (s : State) (q buf : Nat) : writesOnly cupWrites s (s.cmplDiscard q buf) := by
  unfold State.cmplDiscard
  exact (writesOnly.ite (.refl _ s) (s.hwFree_writes buf)).count _ _ _

/-- A queue's registers, and what frees of buffers write. -/
def qResetWrites (q a : Nat) : Prop := (dwyQpCfg q ≤ a ∧ a < dwyQpCfg q + 0x40) ∨ cupWrites a

theorem State.qDiscards_writes (s : State) (q : Nat) : writesOnly (qResetWrites q) s (s.qDiscards q) := by
  have discards (t : State) (buf : Nat) : writesOnly (qResetWrites q) t (t.cmplDiscard q buf) :=
    (t.cmplDiscard_writes q buf).mono fun _ => .inr
  unfold State.qDiscards
  exact (((writesOnly.refl _ s).regs (u := s.setDq q _) rfl).each fun t c _ => discards t c.buf).each
    fun t e _ => discards t e.buf

theorem State.resetClears_writes (s : State) (q : Nat) : writesOnly (qResetWrites q) s (s.resetClears q) := by
  have row {a : Nat} (lo : dwyQpCfg q ≤ a) (hi : a < dwyQpCfg q + 0x40) : qResetWrites q a := .inl ⟨lo, hi⟩
  unfold State.resetClears State.setQState
  refine ((((((((writesOnly.refl _ s).wr ?_ _).wr ?_ _).wr ?_ _).wr ?_ _).putB ?_ _ _).wf ?_ _ _ _).wf ?_ _ _ _)
  all_goals
    refine row ?_ ?_ <;> simp only [dwyQpCfg, dwySqPi, dwySqCi, dwyCqPi, dwyCqCi, dwyQpStatus] <;> omega

theorem State.qReset_writes (s : State) (q : Nat) : writesOnly (qResetWrites q) s (s.qReset q) := by
  have status : qResetWrites q (dwyQpStatus q) := .inl (by unfold dwyQpCfg dwyQpStatus; omega)
  by_cases off : s.qState q = 0
  · rw [State.qReset, if_pos off]
    exact .refl _ s
  · rw [State.qReset_eq off]
    have resetting := (s.qDiscards_writes q).wf status 31 29 6
    by_cases done : ((s.qDiscards q).setQState q 6).qState q = 6 ∧ (((s.qDiscards q).setQState q 6).dq q).taken = []
    · rw [State.resetDone_ends done.1 done.2]
      exact resetting.trans (State.resetClears_writes _ q)
    · rw [State.resetDone_waits ((not_and_or.1 done).imp id id)]
      exact resetting

/-- The queues of a function lie within its range. -/
theorem State.fnOfQ_range (h : s.fnOfQ q = some f) : f < 64 ∧ q < 65536 := by
  have found := List.find?_some h
  have mem := mem_upto.1 (List.mem_of_find?_eq_some h)
  have base : s.rf (dwyFnQp f) 13 0 < 2 ^ (13 + 1 - 0) := bits_lt _ _ _
  have count : s.rf (dwyFnQp f) 30 16 < 2 ^ (30 + 1 - 16) := bits_lt _ _ _
  rw [decide_eq_true_eq] at found
  exact ⟨mem, by omega⟩

theorem State.mem_fnQueues : q ∈ s.fnQueues f ↔ q ∈ tkeys s.dwy.queues ∧ s.fnOfQ q = some f := by
  rw [State.fnQueues, List.mem_filter, beq_iff_eq]

theorem qResetWrites_fn {a : Nat} (range : q < 65536) (h : qResetWrites q a) : fnResetWrites f a := by
  rcases h with row | cup
  · unfold dwyQpCfg at row
    exact fnResetWrites_queue (by omega) (by omega)
  · exact .inr (.inr (.inl cup))

theorem State.complete_writes (s : State) {tgt : Nat} (small : tgt < 1024) :
    writesOnly (fun a => 0x04000000 ≤ a ∧ a < 0x05000000) s (s.complete tgt) := by
  have src : s.rf (belTgt tgt) 11 0 < 2 ^ (11 + 1 - 0) := bits_lt _ _ _
  have freed := ((writesOnly.refl (fun a => 0x04000000 ≤ a ∧ a < 0x05000000) s).putB (a := belActive (s.rf (belTgt tgt) 11 0 / 32))
    (by unfold belActive; omega) (s.rf (belTgt tgt) 11 0 % 32) false).wrN (a := belTgt tgt) (by unfold belTgt; omega) 0
  unfold State.complete
  dsimp only
  split
  · exact .refl _ s
  · split
    · exact (freed.putB (a := belPend (s.rf (belTgt tgt) 11 0 / 32)) (by unfold belPend; omega) _ _).count _ _ _
    · exact freed

theorem State.bellFnReset_writes (s : State) (hf : f < 64) :
    writesOnly (fun a => 0x04000000 ≤ a ∧ a < 0x05000000) s (s.bellFnReset f) :=
  (s.complete_writes (by omega)).regs rfl

/-! ## A function level reset, part by part -/

/-- The queues of a function reset. -/
def State.fnQueuesReset (s : State) (f : Nat) : State := s.each (s.fnQueues f) State.qReset

/-- Their registers at reset but for the state of each. -/
def State.fnRegsReset (s : State) (f : Nat) : State :=
  let s1 := s.fnQueuesReset f
  let b := s.rf (dwyFnQp f) 13 0
  let s2 := s1.resetRegs (dwyQpCfg b) (dwyQpCfg (b + s.rf (dwyFnQp f) 30 16))
  s2.each (s.fnQueues f) fun t q => t.setQState q (s1.qState q)

/-- The function's own registers at reset, its generation the default one. -/
def State.fnOwnReset (s : State) (f : Nat) : State :=
  (((s.fnRegsReset f).bellFnReset f).wf (dwyFnFmt f) 1 0
    (if (s.rd64 dwyFmtDefaultLo).testBit f then 1 else 2)).resetRegs (dwyFnPm f) (dwyFnErr f + 4)

/-- Its configuration space and its MSI-X table at reset. -/
def State.fnSpaceReset (s : State) (f : Nat) : State :=
  let s5 := (s.fnOwnReset f).setFn f { DwyFn.init f with enabled := (s.fn f).enabled }
  { s5 with dwy := { s5.dwy with msix := tclear s5.dwy.msix (f * 2048) (f * 2048 + 2048) } }

/-- A buffer that a grant register holds goes back. -/
def State.grantReturn (f : Nat) (t : State) (k : Nat) : State :=
  let h := t.rdN (cupFnGrant f k)
  if h = 0 then t else (t.cupFree (ownerFn f) (t.handleAddr h) (some (h / 2 ^ 24))).1.wr (cupFnGrant f k) 0

theorem State.fnReset_eq (s : State) (f : Nat) :
    s.fnReset f = (s.fnSpaceReset f).each (upto 8) (State.grantReturn f) := rfl

/-! ## What it writes -/

theorem State.fnQueuesReset_writes (s : State) (f : Nat) : writesOnly (fnResetWrites f) s (s.fnQueuesReset f) := by
  refine (writesOnly.refl _ s).each fun t q mem => (t.qReset_writes q).mono fun a => ?_
  exact qResetWrites_fn (State.fnOfQ_range (State.mem_fnQueues.1 mem).2).2

theorem State.fnRegsReset_writes (s : State) (f : Nat) : writesOnly (fnResetWrites f) s (s.fnRegsReset f) := by
  have base : s.rf (dwyFnQp f) 13 0 < 2 ^ (13 + 1 - 0) := bits_lt _ _ _
  have count : s.rf (dwyFnQp f) 30 16 < 2 ^ (30 + 1 - 16) := bits_lt _ _ _
  have window : writesOnly (fnResetWrites f) s ((s.fnQueuesReset f).resetRegs (dwyQpCfg (s.rf (dwyFnQp f) 13 0))
      (dwyQpCfg (s.rf (dwyFnQp f) 13 0 + s.rf (dwyFnQp f) 30 16))) :=
    (s.fnQueuesReset_writes f).resetRegs fun a lo hi => by
      unfold dwyQpCfg at lo hi
      exact fnResetWrites_queue (by omega) (by omega)
  refine window.each fun t q mem => (writesOnly.refl _ t).wf ?_ _ _ _
  have small := (State.fnOfQ_range (State.mem_fnQueues.1 mem).2).2
  exact fnResetWrites_queue (by unfold dwyQpStatus; omega) (by unfold dwyQpStatus; omega)

theorem State.fnOwnReset_writes (s : State) (hf : f < 64) : writesOnly (fnResetWrites f) s (s.fnOwnReset f) := by
  have bell := ((s.fnRegsReset f).bellFnReset_writes hf).mono (w := fnResetWrites f) fun a h =>
    fnResetWrites_queue (by omega) (by omega)
  have fmt : fnResetWrites f (dwyFnFmt f) := .inr (.inl (by unfold dwyFnFmt dwyFnErr; omega))
  refine (((s.fnRegsReset_writes f).trans bell).wf fmt _ _ _).resetRegs fun a lo hi => .inr (.inl ⟨?_, hi⟩)
  unfold dwyFnPm at lo
  unfold dwyFnFmt
  omega

theorem State.grantReturn_writes (t : State) {k : Nat} (hk : k < 8) :
    writesOnly (fnResetWrites f) t (t.grantReturn f k) := by
  unfold State.grantReturn
  exact .ite (.refl _ t) (((t.cupFree_step _ _ _).1.mono fun a h => .inr (.inr (.inl h))).wr (.inr (.inr (.inr ⟨k, hk, rfl⟩))) _)

theorem State.regs_fnSpaceReset (s : State) (f : Nat) : (s.fnSpaceReset f).regs = (s.fnOwnReset f).regs := rfl

theorem State.fnReset_writes (s : State) (hf : f < 64) : writesOnly (fnResetWrites f) s (s.fnReset f) := by
  rw [State.fnReset_eq]
  exact ((s.fnOwnReset_writes hf).regs (s.regs_fnSpaceReset f)).each fun t k mem => t.grantReturn_writes (mem_upto.1 mem)

/-! ## What it leaves of Doorway beyond the registers -/

theorem State.dwy_resetDone (s : State) (q : Nat) : (s.resetDone q).dwy = s.dwy := by
  by_cases done : s.qState q = 6 ∧ (s.dq q).taken = []
  · rw [State.resetDone_ends done.1 done.2]
    rfl
  · rw [State.resetDone_waits ((not_and_or.1 done).imp id id)]

/-- A queue's reset changes the queue alone. -/
theorem State.dwy_qReset (s : State) (q : Nat) : (s.qReset q).dwy = s.dwy ∨ (s.qReset q).dwy =
    (s.setDq q { DwyQ.init with taken := (s.dq q).taken.filter (·.wait != 0) }).dwy := by
  by_cases off : s.qState q = 0
  · exact .inl (by rw [State.qReset, if_pos off])
  · right
    rw [State.qReset_eq off, State.dwy_resetDone]
    exact s.dwy_qDiscards q

/-- Nothing of the queue waits to be taken, written or received. -/
def State.emptied (s : State) (q : Nat) : Prop := (s.dq q).prefetch = [] ∧ (s.dq q).held = [] ∧ (s.dq q).recv = []

theorem State.emptied_congr (h : t.dwy = s.dwy) (q : Nat) : t.emptied q ↔ s.emptied q := by
  rw [State.emptied, State.emptied, State.dq_congr s h]

theorem State.emptied_qReset_same (busy : s.qState q ≠ 0) : (s.qReset q).emptied q := by
  rw [State.emptied, State.dq_qReset busy]
  exact ⟨rfl, rfl, rfl⟩

theorem State.emptied_qReset {p : Nat} (h : s.emptied q) : (s.qReset p).emptied q := by
  rcases s.dwy_qReset p with same | put
  · exact (State.emptied_congr same q).2 h
  · rw [State.emptied, State.dq_congr _ put]
    by_cases e : q = p
    · subst e
      rw [State.dq_setDq]
      exact ⟨rfl, rfl, rfl⟩
    · rwa [State.dq_setDq_ne _ _ _ e]

theorem State.qState_qReset_ne {p : Nat} (small : q < 16384) (ne : q ≠ p) : (s.qReset p).qState q = s.qState q := by
  refine (s.qReset_writes p).rf _ _ ?_ (offWrap_doorway (by unfold dwyQpStatus; omega))
  rintro (row | cup)
  · unfold dwyQpCfg dwyQpStatus at row
    omega
  · refine not_cupWrites ?_ ⟨?_, ?_⟩ (fun k hk => ?_) cup
    all_goals simp only [dwyQpStatus, cupErr, cupErrLoc, cupPoolStatus]; omega

/-- A busy queue of a list that is reset is emptied. -/
theorem State.emptied_qResets (small : q < 16384) (l : List Nat) (s : State) (mem : q ∈ l) (busy : s.qState q ≠ 0) :
    (s.each l State.qReset).emptied q := by
  induction l generalizing s with
  | nil => exact absurd mem (by simp)
  | cons p l ih =>
    rw [State.each_cons]
    by_cases e : q = p
    · subst e
      exact State.each_invariant (P := fun u => u.emptied q) (State.emptied_qReset_same busy)
        fun u k _ h => State.emptied_qReset h
    · exact ih _ ((List.mem_cons.1 mem).resolve_left e) (by rwa [State.qState_qReset_ne small e])

theorem State.dwy_fnOwnReset (s : State) (f : Nat) : (s.fnOwnReset f).dwy = (s.fnQueuesReset f).dwy := by
  have regs : (s.fnRegsReset f).dwy = (s.fnQueuesReset f).dwy := State.each_stands (g := State.dwy) fun _ _ _ => rfl
  rw [← regs]
  exact (State.bellFnReset_keeps _ f).same .dwy (by decide)

theorem State.fnQueuesReset_stands (s : State) (f : Nat) : (s.fnQueuesReset f).dwy.fns = s.dwy.fns ∧
    (s.fnQueuesReset f).dwy.msix = s.dwy.msix := by
  have step (t : State) (q : Nat) : (t.qReset q).dwy.fns = t.dwy.fns ∧ (t.qReset q).dwy.msix = t.dwy.msix := by
    rcases t.dwy_qReset q with same | put
    · rw [same]
      exact ⟨rfl, rfl⟩
    · rw [put]
      exact ⟨rfl, rfl⟩
  exact ⟨State.each_stands (g := fun t => t.dwy.fns) fun t q _ => (step t q).1,
    State.each_stands (g := fun t => t.dwy.msix) fun t q _ => (step t q).2⟩

theorem State.dwy_fnReset (s : State) (f : Nat) : (s.fnReset f).dwy = (s.fnSpaceReset f).dwy := by
  rw [State.fnReset_eq]
  refine State.each_stands (g := State.dwy) fun t k _ => ?_
  dsimp only [State.grantReturn]
  split
  · rfl
  · exact (State.cupFree_keeps _ _ _ _).same .dwy (by decide)

theorem State.fn_fnReset (s : State) (f : Nat) :
    (s.fnReset f).fn f = { DwyFn.init f with enabled := (s.fn f).enabled } := by
  rw [State.fn_congr _ (s.dwy_fnReset f)]
  exact State.fn_setFn _ f _

theorem State.fn_fnReset_ne (s : State) {f g : Nat} (ne : g ≠ f) : (s.fnReset f).fn g = s.fn g := by
  have same : (s.fnSpaceReset f).fn g = (s.fnOwnReset f).fn g := State.fn_setFn_ne _ f _ ne
  rw [State.fn_congr _ (s.dwy_fnReset f), same, State.fn, s.dwy_fnOwnReset f, (s.fnQueuesReset_stands f).1]
  rfl

theorem State.msix_fnReset (s : State) (f k : Nat) : tfind (s.fnReset f).dwy.msix k =
    if f * 2048 ≤ k ∧ k < f * 2048 + 2048 then none else tfind s.dwy.msix k := by
  have same : (s.fnSpaceReset f).dwy.msix = tclear (s.fnOwnReset f).dwy.msix (f * 2048) (f * 2048 + 2048) := rfl
  rw [s.dwy_fnReset f, same, tfind_tclear, s.dwy_fnOwnReset f, (s.fnQueuesReset_stands f).2]

theorem State.dq_fnReset (s : State) (f p : Nat) : (s.fnReset f).dq p = (s.fnQueuesReset f).dq p := by
  have same : (s.fnSpaceReset f).dq p = (s.fnOwnReset f).dq p := rfl
  rw [State.dq_congr _ (s.dwy_fnReset f), same, State.dq_congr _ (s.dwy_fnOwnReset f)]

theorem State.emptied_fnReset (h : s.emptied q) (f : Nat) : (s.fnReset f).emptied q := by
  rw [State.emptied, s.dq_fnReset f]
  exact State.each_invariant (P := fun u => u.emptied q) h fun u k _ h => State.emptied_qReset h

theorem State.emptied_fnReset_of (small : q < 16384) (fn : s.fnOfQ q = some f) (mem : q ∈ tkeys s.dwy.queues)
    (busy : s.qState q ≠ 0) : (s.fnReset f).emptied q := by
  rw [State.emptied, s.dq_fnReset f]
  exact State.emptied_qResets small _ s (State.mem_fnQueues.2 ⟨mem, fn⟩) busy

/-! ## Its error register and its grants -/

theorem regReset_dwyFnErr : ∀ f < 64, regReset (dwyFnErr f) = 0 := by decide +kernel

theorem not_cupWrites_dwyFnErr (f : Nat) : ¬cupWrites (dwyFnErr f) := by
  rintro (cel | err | loc | ⟨k, hk, status⟩)
  · have := celWrites_ge cel
    unfold dwyFnErr at this
    omega
  · unfold dwyFnErr cupErr at err
    omega
  · unfold dwyFnErr cupErrLoc at loc
    omega
  · unfold dwyFnErr cupPoolStatus at status
    omega

theorem State.rd_fnReset_err (s : State) (hf : f < 64) : (s.fnReset f).rd (dwyFnErr f) = 0 := by
  have off : offWrap (dwyFnErr f) = true := offWrap_doorway (by unfold dwyFnErr; omega)
  have zero : (s.fnOwnReset f).rd (dwyFnErr f) = 0 := by
    rw [State.fnOwnReset, State.rd_resetRegs, if_pos (by unfold dwyFnPm dwyFnErr; omega), regReset_dwyFnErr f hf]
  have stands : (s.fnReset f).rd (dwyFnErr f) = (s.fnOwnReset f).rd (dwyFnErr f) := by
    rw [State.fnReset_eq]
    refine State.each_stands (g := fun t => t.rd (dwyFnErr f)) fun t k mem => ?_
    dsimp only [State.grantReturn]
    split
    · rfl
    · rw [State.rd_wr_ne _ _ (by have := mem_upto.1 mem; unfold dwyFnErr cupFnGrant; omega)]
      exact (t.cupFree_step _ _ _).1.rd (not_cupWrites_dwyFnErr f) off
  rw [stands, zero]

theorem State.rdN_grantReturn (t : State) (f k : Nat) : (t.grantReturn f k).rdN (cupFnGrant f k) = 0 := by
  dsimp only [State.grantReturn]
  split
  · assumption
  · rw [State.rdN, State.rd_wr_same]
    rfl

theorem State.rdN_fnReset_grant (s : State) (hf : f < 64) {k : Nat} (hk : k < 8) :
    (s.fnReset f).rdN (cupFnGrant f k) = 0 := by
  have off : offWrap (cupFnGrant f k) = true := offWrap_of_window (by unfold cupFnGrant; omega)
  rw [State.fnReset_eq]
  refine State.each_reaches (P := fun t => t.rdN (cupFnGrant f k) = 0) (x := k) (mem_upto.2 hk)
    (fun t => t.rdN_grantReturn f k) fun t j mem h => ?_
  by_cases same : j = k
  · subst same
    exact t.rdN_grantReturn f j
  · dsimp only [State.grantReturn]
    split
    · exact h
    · rw [State.rdN, State.rd_wr_ne _ _ (by unfold cupFnGrant; omega),
        (t.cupFree_step _ _ _).1.rd (not_cupWrites_cupFnGrant hf hk) off]
      exact h

/-! ## VF Enable falls -/

/-- One VF goes. -/
def State.vfOff (t : State) (f : Nat) : State :=
  if (t.fn f).enabled then (t.fnReset f).setFn f { (t.fnReset f).fn f with enabled := false } else t

/-- The virtual functions. -/
def vfs : List Nat := (upto 62).map (· + 2)

theorem mem_vfs {g : Nat} : g ∈ vfs ↔ 2 ≤ g ∧ g < 64 := by
  simp only [vfs, List.mem_map, mem_upto]
  exact ⟨fun ⟨k, hk, e⟩ => by omega, fun h => ⟨g - 2, by omega, by omega⟩⟩

theorem State.vfsOff_eq (s : State) : s.vfsOff = s.each vfs State.vfOff := rfl

theorem State.vfOff_cases (t : State) (f : Nat) : t.vfOff f = t ∨
    t.vfOff f = (t.fnReset f).setFn f { (t.fnReset f).fn f with enabled := false } := by
  unfold State.vfOff
  by_cases on : (t.fn f).enabled = true
  · exact .inr (if_pos on)
  · exact .inl (if_neg on)

theorem State.dq_setFn (t : State) (f : Nat) (x : DwyFn) (q : Nat) : (t.setFn f x).dq q = t.dq q := rfl

theorem State.regs_setFn (t : State) (f : Nat) (x : DwyFn) : (t.setFn f x).regs = t.regs := rfl

theorem State.msix_setFn (t : State) (f : Nat) (x : DwyFn) : (t.setFn f x).dwy.msix = t.dwy.msix := rfl

theorem State.fn_vfOff_ne (t : State) {f g : Nat} (ne : g ≠ f) : (t.vfOff f).fn g = t.fn g := by
  unfold State.vfOff
  split
  · rw [State.fn_setFn_ne _ _ _ ne, t.fn_fnReset_ne ne]
  · rfl

theorem State.fn_vfOff (t : State) (f : Nat) : ((t.vfOff f).fn f).enabled = false := by
  unfold State.vfOff
  split
  · rw [State.fn_setFn]
  · rename_i off
    exact Bool.eq_false_iff.2 off

theorem State.fn_vfsOff_vf (s : State) {g : Nat} (lo : 2 ≤ g) (hi : g < 64) : (s.vfsOff.fn g).enabled = false := by
  rw [State.vfsOff_eq]
  refine State.each_reaches (P := fun t => (t.fn g).enabled = false) (mem_vfs.2 ⟨lo, hi⟩) (fun t => t.fn_vfOff g)
    fun t f _ h => ?_
  by_cases same : g = f
  · subst same
    exact t.fn_vfOff g
  · rwa [t.fn_vfOff_ne same]

theorem State.fn_vfsOff_pf (s : State) {g : Nat} (lo : g < 2) : s.vfsOff.fn g = s.fn g := by
  rw [State.vfsOff_eq]
  exact State.each_stands (g := fun t => t.fn g) fun t f mem => t.fn_vfOff_ne (by have := mem_vfs.1 mem; omega)

/-- What the virtual functions' resets write. -/
def vfsWrites (a : Nat) : Prop := ∃ g, 2 ≤ g ∧ g < 64 ∧ fnResetWrites g a

theorem State.vfsOff_writes (s : State) : writesOnly vfsWrites s s.vfsOff := by
  rw [State.vfsOff_eq]
  refine (writesOnly.refl _ s).each fun t f mem => ?_
  obtain ⟨lo, hi⟩ := mem_vfs.1 mem
  have reset := (t.fnReset_writes hi).mono (w := vfsWrites) fun a h => ⟨f, lo, hi, h⟩
  rcases t.vfOff_cases f with same | goes
  · rw [same]
    exact .refl _ t
  · rw [goes]
    exact reset.regs (State.regs_setFn _ f _)

theorem State.emptied_vfsOff (h : s.emptied q) : s.vfsOff.emptied q := by
  rw [State.vfsOff_eq]
  refine State.each_invariant (P := fun u => u.emptied q) h fun u f _ h => ?_
  rcases u.vfOff_cases f with same | goes
  · rw [same]
    exact h
  · rw [goes, State.emptied, State.dq_setFn]
    exact State.emptied_fnReset h f

theorem State.msix_vfsOff {k : Nat} (h : tfind s.dwy.msix k = none) : tfind s.vfsOff.dwy.msix k = none := by
  rw [State.vfsOff_eq]
  refine State.each_invariant (P := fun u => tfind u.dwy.msix k = none) h fun u f _ h => ?_
  have reset : tfind (u.fnReset f).dwy.msix k = none := by
    rw [State.msix_fnReset]
    split
    · rfl
    · exact h
  rcases u.vfOff_cases f with same | goes
  · rw [same]
    exact h
  · rw [goes, State.msix_setFn]
    exact reset

/-- The virtual functions' resets leave function 1 its registers. -/
theorem not_vfsWrites_err : ¬vfsWrites (dwyFnErr 1) := by
  rintro ⟨g, lo, hi, range | fn | cup | ⟨k, hk, grant⟩⟩
  · unfold dwyFnErr at range
    omega
  · unfold dwyFnFmt dwyFnErr at fn
    omega
  · exact not_cupWrites_dwyFnErr 1 cup
  · unfold dwyFnErr cupFnGrant at grant
    omega

theorem not_vfsWrites_grant {k : Nat} (hk : k < 8) : ¬vfsWrites (cupFnGrant 1 k) := by
  rintro ⟨g, lo, hi, range | fn | cup | ⟨j, hj, grant⟩⟩
  · unfold cupFnGrant at range
    omega
  · unfold dwyFnFmt dwyFnErr cupFnGrant at fn
    omega
  · exact not_cupWrites_cupFnGrant (by decide) hk cup
  · unfold cupFnGrant at grant
    omega

theorem not_vfsWrites_low {a : Nat} (h : a < 0x03100000) : ¬vfsWrites a :=
  fun ⟨_, _, _, w⟩ => not_fnResetWrites_low h w

end

end Sys2Proof.Machine

/-! PROOFS. The link trains, Doorway and its functions are reset, sleep, wake and are configured (R394, R418 to R421,
R482). -/

namespace Sys2Proof.Machine

/-! ## HOST_LINK_TRAIN (R394, R482) -/

section
variable {s : State} {mode speed width : Nat} {lopt : Bool}

/-- The link can be trained. -/
def State.linkReady (s : State) : Prop :=
  s.rb dwyLinkStatus 31 = false ∧ s.attic.perstN = true ∧ 5 ≤ s.rf atcBootStatus 31 28 ∧
    s.rb mstIsoStatus 16 = false ∧ s.rf atcPwrStatus 31 30 ≠ 2

/-- The speed that both ends offer. -/
def State.linkSpeed (s : State) (speed : Nat) : Nat := min (s.rf dwyLinkCap 5 3) (max 1 (min speed 6))

/-- The mode that both ends offer and the speed carries: 2 from speed 5 on, 1 from speed 3 on. -/
def linkMode (offered speed : Nat) : Nat :=
  if offered = 2 ∧ 5 ≤ speed then 2 else if 1 ≤ offered ∧ 3 ≤ speed then 1 else 0

/-- DWY_LINK_STATUS of a trained link. -/
def linkWord (lopt : Bool) (mode speed width : Nat) : Nat :=
  2 ^ 31 + nat (lopt && mode == 2) * 2 ^ 8 + mode * 2 ^ 6 + (if mode = 1 then min 5 speed else speed) * 8 + width

/-- The link trained. -/
def State.linkTrained (s : State) (mode speed width : Nat) (lopt : Bool) : State :=
  s.wrN dwyLinkStatus (linkWord lopt (linkMode (min (s.rf dwyLinkCap 7 6) mode) (s.linkSpeed speed)) (s.linkSpeed speed)
    (min (s.rf dwyLinkCap 2 0) width))

theorem exec_hostLinkTrain (mode speed width : Nat) (lopt : Bool) (s : State) :
    exec (.hostLinkTrain mode speed width lopt) s =
      if s.rb dwyLinkStatus 31 ∨ !s.attic.perstN ∨ s.rf atcBootStatus 31 28 < 5 ∨ s.rb mstIsoStatus 16 ∨
        s.rf atcPwrStatus 31 30 = 2 then .next s else .next (s.linkTrained mode speed width lopt) := rfl

theorem State.linkReady_iff : ¬(s.rb dwyLinkStatus 31 = true ∨ (!s.attic.perstN) = true ∨ s.rf atcBootStatus 31 28 < 5 ∨
    s.rb mstIsoStatus 16 = true ∨ s.rf atcPwrStatus 31 30 = 2) ↔ s.linkReady := by
  simp only [State.linkReady, not_or, Bool.not_eq_true, Bool.not_eq_true', Bool.not_eq_false, Nat.not_lt, ne_eq]

theorem exec_hostLinkTrain_not (no : ¬s.linkReady) : exec (.hostLinkTrain mode speed width lopt) s = .next s := by
  rw [exec_hostLinkTrain, if_pos (by by_contra h; exact no (State.linkReady_iff.1 h))]

theorem exec_hostLinkTrain_trains (ready : s.linkReady) :
    exec (.hostLinkTrain mode speed width lopt) s = .next (s.linkTrained mode speed width lopt) := by
  rw [exec_hostLinkTrain, if_neg (State.linkReady_iff.2 ready)]

/-- The fields of a trained link's word. -/
theorem linkWord_fields {m sp w : Nat} (hm : m ≤ 2) (hs : sp ≤ 6) (hw : w ≤ 4) : linkWord lopt m sp w < 2 ^ 32 ∧
    bits (linkWord lopt m sp w) 7 6 = m ∧ bits (linkWord lopt m sp w) 5 3 = (if m = 1 then min 5 sp else sp) ∧
    bits (linkWord lopt m sp w) 2 0 = w ∧ (linkWord lopt m sp w).testBit 31 = true := by
  have bit : nat (lopt && m == 2) ≤ 1 := by cases (lopt && m == 2) <;> decide
  have settled : (if m = 1 then min 5 sp else sp) ≤ 6 := by split <;> omega
  unfold linkWord bits
  generalize (if m = 1 then min 5 sp else sp) = v at *
  generalize nat (lopt && m == 2) = b at *
  refine ⟨by omega, by omega, by omega, by omega, ?_⟩
  rw [Nat.testBit_eq_decide_div_mod_eq]
  exact decide_eq_true (by omega)

theorem State.linkTrained_shows (slow : 1 ≤ speed) (fast : speed ≤ 6) (modes : mode ≤ 2) (cap : 1 ≤ s.rf dwyLinkCap 5 3)
    (wide : width ≤ 4) : let u := s.linkTrained mode speed width lopt
    let sp := min (s.rf dwyLinkCap 5 3) speed
    u.rb dwyLinkStatus 31 = true ∧ u.rf dwyLinkStatus 2 0 = min (s.rf dwyLinkCap 2 0) width ∧
      (5 ≤ sp → u.rf dwyLinkStatus 7 6 = min (s.rf dwyLinkCap 7 6) mode ∧
        u.rf dwyLinkStatus 5 3 = (if min (s.rf dwyLinkCap 7 6) mode = 1 then 5 else sp)) ∧
      (sp < 3 → u.rf dwyLinkStatus 7 6 = 0 ∧ u.rf dwyLinkStatus 5 3 = sp) := by
  intro u sp
  have settled : s.linkSpeed speed = sp := by
    dsimp only [State.linkSpeed, sp]
    omega
  have offered : min (s.rf dwyLinkCap 7 6) mode ≤ 2 := by omega
  generalize hm : linkMode (min (s.rf dwyLinkCap 7 6) mode) sp = m
  have highest : m ≤ 2 ∧ (5 ≤ sp → m = min (s.rf dwyLinkCap 7 6) mode) ∧ (sp < 3 → m = 0) := by
    unfold linkMode at hm
    split at hm
    · omega
    · split at hm <;> omega
  obtain ⟨hm2, fastMode, slowMode⟩ := highest
  obtain ⟨fits, mode', speed', width', up⟩ := linkWord_fields (lopt := lopt) hm2
    (show sp ≤ 6 by dsimp only [sp]; omega) (show min (s.rf dwyLinkCap 2 0) width ≤ 4 by omega)
  have word : u.rd dwyLinkStatus = BitVec.ofNat 32 (linkWord lopt m sp (min (s.rf dwyLinkCap 2 0) width)) := by
    dsimp only [u]
    rw [State.linkTrained, State.rd_wrN, settled, hm]
  have field (hi lo : Nat) : u.rf dwyLinkStatus hi lo = bits (linkWord lopt m sp (min (s.rf dwyLinkCap 2 0) width)) hi lo := by
    rw [State.rf, word, fld, BitVec.toNat_ofNat, Nat.mod_eq_of_lt fits]
  refine ⟨?_, (field 2 0).trans width', fun h => ?_, fun h => ?_⟩
  · rw [State.rb, word, BitVec.getLsbD_ofNat, up]
    rfl
  · rw [field, field, mode', speed', ← fastMode h]
    refine ⟨rfl, ?_⟩
    split <;> omega
  · rw [field, field, mode', speed', slowMode h]
    exact ⟨rfl, rfl⟩

end

/-! ## PERST_RESET (R421) -/

section
variable {s : State}

/-- PERST_N low. -/
def State.perstFell (t : State) : State := { t with attic := { t.attic with perstN := false } }

/-- PERST_N high. -/
def State.perstRisen (s : State) : State :=
  { s with attic := { s.attic with perstN := true, wakeN := true }, dwy := { s.dwy with perstRose := s.cycles } }

theorem exec_perstReset_low (s : State) : exec (.perstReset .low) s = .next s.dwyReset.perstFell := rfl

theorem exec_perstReset_high (s : State) : exec (.perstReset .high) s = .next s.perstRisen := rfl

theorem State.onlyIn_perstRisen (s : State) : onlyIn [.dwy, .attic] s s.perstRisen := by
  intro p out
  cases p
  case dwy => exact absurd out (by decide)
  case attic => exact absurd out (by decide)
  all_goals rfl

theorem exec_perstReset_linkLoss (s : State) :
    exec (.perstReset .linkLoss) s = .next (if s.rb dwyLinkStatus 31 then s.dwyReset else s) := rfl

/-- The functions as Doorway is reset. -/
def State.dwyFnsReset (s : State) : State :=
  let s1 := if s.rb dwyLinkStatus 31 then s.count evDwyLinkDown 0 0 else s
  let s2 := (s1.wr dwyHalt 0).wr dwyHaltLoc 0
  ((s2.fnReset 0).fnReset 1).vfsOff

/-- The host's functions and lines are forgotten. -/
def State.hostForgotten (t : State) : State :=
  { t with
    dwy := { t.dwy with tracker := [], fns := [], linkL2 := false }
    cel := { t.cel with held := t.cel.held.map fun (h : HeldWrite) => { h with lines := [] } } }

/-- Doorway as its link falls. -/
def State.dwyDown (s : State) : State := (s.dwyFnsReset.wr dwyLinkStatus 0).hostForgotten

theorem State.regs_hostForgotten (t : State) : t.hostForgotten.regs = t.regs := rfl

theorem State.dwy_hostForgotten (t : State) :
    t.hostForgotten.dwy = { t.dwy with tracker := [], fns := [], linkL2 := false } := rfl

theorem State.dwyReset_eq (s : State) : s.dwyReset = s.dwyDown.heldRelease := by
  unfold State.dwyReset State.dwyDown State.dwyFnsReset
  dsimp only
  generalize State.wr _ dwyLinkStatus 0 = t
  rfl

theorem State.rd_dwyFnsReset_halt (s : State) : s.dwyFnsReset.rd dwyHalt = 0 := by
  have off : offWrap dwyHalt = true := by decide
  generalize h1 : (if s.rb dwyLinkStatus 31 then s.count evDwyLinkDown 0 0 else s) = s1
  generalize h2 : (s1.wr dwyHalt 0).wr dwyHaltLoc 0 = s2
  have cleared : s2.rd dwyHalt = 0 := by
    rw [← h2, State.rd_wr_ne _ _ (by decide), State.rd_wr_same]
  have eq : s.dwyFnsReset = ((s2.fnReset 0).fnReset 1).vfsOff := by
    rw [← h2, ← h1]
    rfl
  rw [eq, State.vfsOff_writes _ _ off (not_vfsWrites_low (by decide)),
    State.fnReset_writes _ (by decide) _ off (not_fnResetWrites_low (by decide)),
    State.fnReset_writes _ (by decide) _ off (not_fnResetWrites_low (by decide)), cleared]

/-- Link and halt clear, no function asleep or bus master, no VF enabled, the tracker empty, frames as they were. -/
def linkDead (s u : State) : Prop :=
  u.rb dwyLinkStatus 31 = false ∧ u.rb dwyHalt 31 = false ∧ u.dwy.tracker = [] ∧ u.dwy.linkL2 = false ∧
    u.pipe = s.pipe ∧ ∀ f, f < 64 → (u.fn f).asleep = false ∧ (u.fn f).busMaster = false ∧
      (2 ≤ f → (u.fn f).enabled = false)

theorem linkDead.fell {t : State} (h : linkDead s t) : linkDead s t.perstFell := h

/-- What Doorway's reset leaves. -/
theorem State.dwyReset_dead (s : State) : linkDead s s.dwyReset := by
  have regs {a : Nat} (low : a < 0x04000000) (off : offWrap a = true) :
      s.dwyReset.rd a = (s.dwyFnsReset.wr dwyLinkStatus 0).rd a := by
    rw [s.dwyReset_eq, s.dwyDown.heldRelease_writes _ off (not_celWrites_doorway low), State.dwyDown,
      State.rd_congr (State.regs_hostForgotten _)]
  have dwy : s.dwyReset.dwy = { s.dwyDown.dwy with tracker := [], fns := [], linkL2 := false } := by
    rw [s.dwyReset_eq, s.dwyDown.heldRelease_keeps.same .dwy (by decide), State.dwyDown, State.dwy_hostForgotten]
  have fns : s.dwyReset.dwy.fns = [] := by rw [dwy]
  refine ⟨?_, ?_, by rw [dwy], by rw [dwy], s.dwyReset_keeps.same .pipe (by decide), fun f _ => ?_⟩
  · rw [State.rb, regs (by decide) (by decide), State.rd_wr_same]
    decide
  · rw [State.rb, regs (by decide) (by decide), State.rd_wr_ne _ _ (by decide), s.rd_dwyFnsReset_halt]
    decide
  · have init : s.dwyReset.fn f = DwyFn.init f := by
      rw [State.fn, fns]
      rfl
    rw [init]
    exact ⟨rfl, rfl, fun lo => decide_eq_false (by omega)⟩

end

/-! ## FUNCTION_LEVEL_RESET (R420) -/

section
variable {s : State} {f : Nat}

theorem exec_functionLevelReset (f : Nat) (s : State) : exec (.functionLevelReset f) s =
    if !(s.fn f).enabled then .next s else .next (if f = 1 then (s.fnReset f).vfsOff else s.fnReset f) := rfl

/-- The state after a function level reset. -/
def State.levelReset (s : State) (f : Nat) : State := if f = 1 then (s.fnReset f).vfsOff else s.fnReset f

/-- What the reset of a physical function's virtual functions leaves stands after the function's own reset. -/
theorem State.levelReset_keeps {P : State → Prop} (own : P (s.fnReset f)) (vfs : f = 1 → P (s.fnReset f) → P (s.fnReset f).vfsOff) :
    P (s.levelReset f) := by
  unfold State.levelReset
  split
  · exact vfs ‹_› own
  · exact own

theorem State.rd_levelReset {a : Nat} (off : offWrap a = true) (out : f = 1 → ¬vfsWrites a) :
    (s.levelReset f).rd a = (s.fnReset f).rd a :=
  State.levelReset_keeps (P := fun u => u.rd a = (s.fnReset f).rd a) rfl fun one _ =>
    State.vfsOff_writes _ _ off (out one)

theorem exec_functionLevelReset_on (hf : f < 64) (on : (s.fn f).enabled = true) :
    ∃ u, exec (.functionLevelReset f) s = .next u ∧ u.rd (dwyFnErr f) = 0 ∧
      (u.fn f).enabled = true ∧ (u.fn f).msixEn = false ∧ (u.fn f).busMaster = false ∧ (u.fn f).asleep = false ∧
      (∀ v, v < 2048 → tfind u.dwy.msix (2048 * f + v) = none) ∧
      (∀ k, k < 8 → u.rdN (cupFnGrant f k) = 0) ∧ u.rd (dwyFnQp f) = s.rd (dwyFnQp f) ∧
      (∀ q, q < 16384 → s.fnOfQ q = some f → q ∈ tkeys s.dwy.queues → s.qState q ≠ 0 → (u.dq q).prefetch = [] ∧
        (u.dq q).held = [] ∧ (u.dq q).recv = []) ∧
      (f = 1 → ∀ g, 2 ≤ g → g < 64 → (u.fn g).enabled = false) := by
  have out : exec (.functionLevelReset f) s = .next (s.levelReset f) := by
    rw [exec_functionLevelReset, if_neg (by simp [on])]
    rfl
  have fn : (s.levelReset f).fn f = { DwyFn.init f with enabled := (s.fn f).enabled } := by
    refine State.levelReset_keeps (P := fun u => u.fn f = _) (s.fn_fnReset f) fun one h => ?_
    rw [State.fn_vfsOff_pf _ (by omega), h]
  have low : dwyFnQp f < 0x03100000 := by unfold dwyFnQp; omega
  have qp : offWrap (dwyFnQp f) = true := offWrap_doorway (by unfold dwyFnQp; omega)
  refine ⟨_, out, ?_, by rw [fn, on], by rw [fn]; rfl, by rw [fn]; rfl, by rw [fn]; rfl, fun v hv => ?_,
    fun k hk => ?_, ?_, fun q hq isQ mem busy => ?_, ?_⟩
  · rw [State.rd_levelReset (offWrap_doorway (by unfold dwyFnErr; omega)) (by rintro rfl; exact not_vfsWrites_err),
      s.rd_fnReset_err hf]
  · refine State.levelReset_keeps (P := fun u => tfind u.dwy.msix (2048 * f + v) = none) ?_ fun _ h => State.msix_vfsOff h
    rw [s.msix_fnReset f, if_pos (by omega)]
  · rw [State.rdN, State.rd_levelReset (offWrap_of_window (by unfold cupFnGrant; omega))
      (by rintro rfl; exact not_vfsWrites_grant hk), ← State.rdN, s.rdN_fnReset_grant hf hk]
  · rw [State.rd_levelReset qp (fun _ => not_vfsWrites_low low), s.fnReset_writes hf _ qp (not_fnResetWrites_low low)]
  · have emptied : (s.levelReset f).emptied q := State.levelReset_keeps (P := fun u => u.emptied q)
      (State.emptied_fnReset_of hq isQ mem busy) fun _ h => State.emptied_vfsOff h
    exact emptied
  · rintro rfl g lo hi
    rw [State.levelReset, if_pos rfl, State.fn_vfsOff_vf _ lo hi]

end

end Sys2Proof.Machine

/-! PROOFS. Functions sleep, wake and are configured (R418, R420, R482). -/

namespace Sys2Proof.Machine

/-! ## Nothing of Doorway but its queues -/

/-- Of Doorway beyond its registers only the queues changed. -/
def queuesOnly (s t : State) : Prop := ∃ l, t.dwy = { s.dwy with queues := l }

section
variable {s t u : State} {q f : Nat}

theorem queuesOnly.of_same (h : t.dwy = s.dwy) : queuesOnly s t := ⟨_, h⟩

theorem queuesOnly.trans (h : queuesOnly s t) (k : queuesOnly t u) : queuesOnly s u := by
  obtain ⟨l, e⟩ := h
  obtain ⟨l', e'⟩ := k
  exact ⟨l', by rw [e', e]⟩

theorem queuesOnly.setDq (s : State) (q : Nat) (x : DwyQ) : queuesOnly s (s.setDq q x) := ⟨_, rfl⟩

theorem queuesOnly.fn (h : queuesOnly s t) (f : Nat) : t.fn f = s.fn f := by
  obtain ⟨l, e⟩ := h
  rw [State.fn, e]
  rfl

theorem queuesOnly.linkL2 (h : queuesOnly s t) : t.dwy.linkL2 = s.dwy.linkL2 := by
  obtain ⟨l, e⟩ := h
  rw [e]

theorem State.qSignal_queues (s : State) (q : Nat) : queuesOnly s (s.qSignal q) := by
  cases away : s.fnAway (s.fnOf q)
  · exact ⟨_, (State.qSignal_here_shows away).2.1⟩
  · exact ⟨_, (State.qSignal_away_shows away).2.1⟩

theorem State.moderate_queues (s : State) (q : Nat) : queuesOnly s (s.moderate q) := by
  have counted : queuesOnly s (s.signalCounted q) := .setDq s q _
  rw [State.moderate_eq]
  split
  · exact .of_same rfl
  · split
    · exact counted.trans (State.qSignal_queues _ q)
    · exact counted

theorem State.mirrorWrite_queues (s : State) (q : Nat) : queuesOnly s (s.mirrorWrite q) := by
  unfold State.mirrorWrite
  split
  · exact .of_same rfl
  · exact (queuesOnly.of_same (s.dwy_cqWrite _ _ _)).trans (.setDq _ q _)

/-- The data that a completion covers, then its buffer's owner. -/
def State.cmplData (s : State) (q : Nat) (c : Cmpl) : State :=
  let s1 := match c.copy with
    | some (a, d) => s.emit (.hostWrite a d)
    | none => s
  if c.buf = 0 then s1 else s1.ownerPass c.buf (ownerFn (s1.fnOf q))

/-- The completion's slot. -/
def State.cmplSlot (s : State) (q : Nat) (bs : List Byte) : State :=
  let s3 := s.cqWrite q (s.rd64 (dwyCqBaseLo q) + 16 * (s.cqPi q % s.cqSize q)) bs
  (s3.wrN (dwyCqPi q) ((s3.cqPi q + 1) % 65536)).count evDwyCmpl q 0

theorem State.cmplPost_eq (s : State) (q : Nat) (c : Cmpl) : s.cmplPost q c =
    (((s.cmplData q c).cmplSlot q c.bytes).setDq q
      { ((s.cmplData q c).cmplSlot q c.bytes).dq q with mirrorDue := true }).moderate q := rfl

theorem State.dwy_cmplData (s : State) (q : Nat) (c : Cmpl) : (s.cmplData q c).dwy = s.dwy := by
  have emitted : (match c.copy with
    | some (a, d) => s.emit (.hostWrite a d)
    | none => s).dwy = s.dwy := by split <;> rfl
  unfold State.cmplData
  dsimp only
  split
  · exact emitted
  · exact ((State.ownerPass_keeps _ _ _).same .dwy (by decide)).trans emitted

theorem State.dwy_cmplSlot (s : State) (q : Nat) (bs : List Byte) : (s.cmplSlot q bs).dwy = s.dwy := by
  rw [State.cmplSlot, State.dwy_count, State.wrN_dwy, State.dwy_cqWrite]

theorem State.cmplPost_queues (s : State) (q : Nat) (c : Cmpl) : queuesOnly s (s.cmplPost q c) := by
  have slot : ((s.cmplData q c).cmplSlot q c.bytes).dwy = s.dwy := by rw [State.dwy_cmplSlot, State.dwy_cmplData]
  rw [State.cmplPost_eq]
  exact ((queuesOnly.of_same slot).trans (.setDq _ q _)).trans (State.moderate_queues _ q)

theorem State.dwy_showHeld (s : State) (q : Nat) : (s.showHeld q).dwy = s.dwy := rfl

theorem State.heldFlush_queues (q fuel : Nat) (s : State) : queuesOnly s (State.heldFlush q fuel s) := by
  induction fuel generalizing s with
  | zero => exact .of_same rfl
  | succ fuel ih =>
    rw [State.heldFlush]
    split
    · exact .of_same rfl
    · split
      · exact .of_same rfl
      · refine queuesOnly.trans ?_ (ih _)
        have unheld := queuesOnly.setDq s q { s.dq q with held := ‹List Cmpl› }
        exact (unheld.trans (.of_same (State.dwy_showHeld _ q))).trans (State.cmplPost_queues _ q _)

/-- One queue of a function that returns to the host. -/
def State.queueCatchUp (t : State) (q : Nat) : State :=
  let t1 := State.heldFlush q 64 t
  let t2 := if (t1.dq q).held.isEmpty then t1 else (t1.wf (dwyQpStatus q) 27 27 0).cqFullSet q
  let t3 := t2.mirrorWrite q
  if (t3.dq q).sigPending then t3.qSignal q else t3

theorem State.fnCatchUp_eq (s : State) (f : Nat) : s.fnCatchUp f = s.each (s.fnQueues f) State.queueCatchUp := rfl

theorem State.queueCatchUp_queues (t : State) (q : Nat) : queuesOnly t (t.queueCatchUp q) := by
  have flushed := State.heldFlush_queues q 64 t
  unfold State.queueCatchUp
  dsimp only
  generalize State.heldFlush q 64 t = t1 at *
  have full : queuesOnly t1 (if (t1.dq q).held.isEmpty then t1 else (t1.wf (dwyQpStatus q) 27 27 0).cqFullSet q) := by
    split
    · exact .of_same rfl
    · exact .of_same (State.dwy_cqFullSet _ q)
  generalize (if (t1.dq q).held.isEmpty then t1 else (t1.wf (dwyQpStatus q) 27 27 0).cqFullSet q) = t2 at *
  have mirrored := (flushed.trans full).trans (t2.mirrorWrite_queues q)
  split
  · exact mirrored.trans (State.qSignal_queues _ q)
  · exact mirrored

theorem State.fnCatchUp_queues (s : State) (f : Nat) : queuesOnly s (s.fnCatchUp f) := by
  rw [State.fnCatchUp_eq]
  exact State.each_invariant (P := queuesOnly s) (.of_same rfl) fun t q _ h => h.trans (t.queueCatchUp_queues q)

/-- A queue with nothing held that returns to the host: its mirror and its signal go out. -/
theorem State.queueCatchUp_shows (small : q < 16384) (none_ : (t.dq q).held = []) (here : t.fnAway (t.fnOf q) = false) :
    let u := t.queueCatchUp q
    (u.dq q).sigPending = false ∧ (u.dq q).mirrorDue = false ∧
      ((t.dq q).sigPending = true → shas u.bell.msix (2048 * t.fnOf q + t.rf (dwyQpCfg q) 10 0) = true) := by
  intro u
  generalize h1 : t.wf (dwyQpStatus q) 27 27 0 = t1
  have queue : t1.dq q = t.dq q := by rw [← h1]; rfl
  have mark {a : Nat} (ne : a ≠ dwyQpStatus q) : t1.rd a = t.rd a := by rw [← h1, State.rd_wf_ne _ _ _ _ ne]
  have fns : t1.dwy.fns = t.dwy.fns := by rw [← h1]; rfl
  have mirrored {a : Nat} (lo : 0x3000000 ≤ a) (hi : a < 0x04000000) (ne : a ≠ dwyQpStatus q) :
      (t1.mirrorWrite q).rd a = t.rd a := (t1.rd_mirrorWrite q lo hi).trans (mark ne)
  have here1 : t1.fnAway (t1.fnOf q) = false := by
    rw [State.fnOf_congr fun f _ => mark (by unfold dwyFnQp dwyQpStatus; omega), State.fnAway_congr fns, here]
  have fnOf2 : (t1.mirrorWrite q).fnOf q = t.fnOf q := State.fnOf_congr (fun f _ => mirrored
    (by unfold dwyFnQp; omega) (by unfold dwyFnQp; omega) (by unfold dwyFnQp dwyQpStatus; omega)) q
  have here2 : (t1.mirrorWrite q).fnAway ((t1.mirrorWrite q).fnOf q) = false := by
    rw [fnOf2, State.fnAway_congr ((t1.fns_mirrorWrite q).trans fns), here]
  have near1 : t1.cqAway q = false := by
    rw [State.cqAway, here1, Bool.and_false]
  have queue2 : (t1.mirrorWrite q).dq q = { t.dq q with mirrorDue := false } := by
    rw [t1.dq_mirrorWrite q, queue, near1, Bool.and_false]
  have eq : u = if ((t1.mirrorWrite q).dq q).sigPending then (t1.mirrorWrite q).qSignal q else t1.mirrorWrite q := by
    dsimp only [u, State.queueCatchUp]
    rw [State.heldFlush_none 63 none_, h1, queue, none_]
    rfl
  rw [queue2] at eq
  dsimp only at eq
  cases pending : (t.dq q).sigPending
  · rw [pending] at eq
    rw [eq]
    refine ⟨?_, ?_, fun h => absurd h (by decide)⟩
    · rw [if_neg (by decide), queue2]
      exact pending
    · rw [if_neg (by decide), queue2]
  · rw [pending, if_pos rfl] at eq
    obtain ⟨-, dwy, -, raised⟩ := State.qSignal_here_shows here2
    have queue3 : ((t1.mirrorWrite q).qSignal q).dq q = _ := (State.dq_congr _ dwy q).trans (State.dq_setDq _ q _)
    have cfg : (t1.mirrorWrite q).rf (dwyQpCfg q) 10 0 = t.rf (dwyQpCfg q) 10 0 := by
      rw [State.rf, mirrored (by unfold dwyQpCfg; omega) (by unfold dwyQpCfg; omega) (by unfold dwyQpCfg dwyQpStatus; omega)]
      rfl
    rw [fnOf2, cfg] at raised
    rw [eq]
    refine ⟨by rw [queue3], by rw [queue3, queue2], fun _ => raised⟩

end

/-! ## Sleep and wake (R418) -/

section
variable {s : State} {f : Nat} {l2 : Bool}

/-- A function asleep. -/
def State.sleeping (s : State) (f : Nat) (l2 : Bool) : State :=
  { s.setFn f { s.fn f with asleep := true } with
    dwy := { (s.setFn f { s.fn f with asleep := true }).dwy with linkL2 := l2 } }

theorem exec_hostSleepEnter (f : Nat) (l2 : Bool) (s : State) : exec (.hostSleepEnter f l2) s =
    if !(s.fn f).enabled then .next s else .next (s.sleeping f l2) := rfl

theorem exec_hostSleepEnter_on (on : (s.fn f).enabled = true) : ∃ u, exec (.hostSleepEnter f l2) s = .next u ∧
    u.fn f = { s.fn f with asleep := true } ∧ (∀ g, g ≠ f → u.fn g = s.fn g) ∧ u.dwy.linkL2 = l2 ∧ onlyIn [.dwy] s u := by
  have out : exec (.hostSleepEnter f l2) s = .next (s.sleeping f l2) := by
    rw [exec_hostSleepEnter, if_neg (by simp [on])]
  exact ⟨_, out, s.fn_setFn f _, fun g ne => s.fn_setFn_ne f _ ne, rfl, onlyIn_of_next (execHostSleepEnter_keeps s f l2) out⟩

/-- A function back in D0. -/
def State.awake (s : State) (f : Nat) : State :=
  let s1 := s.setFn f { s.fn f with asleep := false }
  { s1 with dwy := { s1.dwy with linkL2 := false }, attic := { s1.attic with wakeN := true } }

theorem exec_hostWake (f : Nat) (s : State) : exec (.hostWake f) s =
    .next (if ((s.awake f).fn f).enabled && ((s.awake f).fn f).busMaster then (s.awake f).fnCatchUp f else s.awake f) := rfl

theorem State.fn_awake (s : State) (f : Nat) : (s.awake f).fn f = { s.fn f with asleep := false } := s.fn_setFn f _

theorem State.regs_awake (s : State) (f : Nat) : (s.awake f).regs = s.regs := rfl

theorem State.queues_awake (s : State) (f : Nat) : (s.awake f).dwy.queues = s.dwy.queues := rfl

theorem exec_hostWake_away (no : (s.fn f).enabled = false ∨ (s.fn f).busMaster = false) :
    exec (.hostWake f) s = .next (s.awake f) := by
  rw [exec_hostWake, s.fn_awake f]
  refine congrArg _ (if_neg ?_)
  rcases no with off | off <;> simp [off]

theorem exec_hostWake_here (on : (s.fn f).enabled = true) (master : (s.fn f).busMaster = true) :
    exec (.hostWake f) s = .next ((s.awake f).fnCatchUp f) := by
  rw [exec_hostWake, s.fn_awake f]
  exact congrArg _ (if_pos (by simp [on, master]))

theorem State.onlyIn_awake (s : State) (f : Nat) : onlyIn [.dwy, .attic] s (s.awake f) := by
  intro p out
  cases p
  case dwy => exact absurd out (by decide)
  case attic => exact absurd out (by decide)
  all_goals rfl

theorem exec_hostWake_wakes (f : Nat) (s : State) : ∃ u, exec (.hostWake f) s = .next u ∧ (u.fn f).asleep = false ∧
    u.dwy.linkL2 = false ∧
    ((s.fn f).enabled = false ∨ (s.fn f).busMaster = false → onlyIn [.dwy, .attic] s u ∧ u.dwy.queues = s.dwy.queues) ∧
    (∀ q, (s.fn f).enabled = true → (s.fn f).busMaster = true → s.fnQueues f = [q] → q < 16384 → (s.dq q).held = [] →
      (u.dq q).sigPending = false ∧ (u.dq q).mirrorDue = false ∧
      ((s.dq q).sigPending = true → shas u.bell.msix (2048 * f + s.rf (dwyQpCfg q) 10 0) = true)) := by
  by_cases no : (s.fn f).enabled = false ∨ (s.fn f).busMaster = false
  · refine ⟨_, exec_hostWake_away no, by rw [s.fn_awake f], rfl, fun _ => ⟨s.onlyIn_awake f, s.queues_awake f⟩,
      fun q on master => ?_⟩
    rw [on, master] at no
    exact absurd no (by decide)
  · simp only [not_or, Bool.not_eq_false] at no
    obtain ⟨on, master⟩ := no
    have kept := (s.awake f).fnCatchUp_queues f
    refine ⟨_, exec_hostWake_here on master, by rw [kept.fn f, s.fn_awake f], by rw [kept.linkL2]; rfl, fun off => ?_,
      fun q _ _ alone small none_ => ?_⟩
    · rw [on, master] at off
      exact absurd off (by decide)
    · have ranges : ∀ q, (s.awake f).fnOfQ q = s.fnOfQ q := State.fnOfQ_congr fun g _ => State.rd_congr (s.regs_awake f) _
      have queue : (s.awake f).dq q = s.dq q := by rw [State.dq, s.queues_awake f]; rfl
      have alone' : (s.awake f).fnQueues f = [q] := by
        rw [State.fnQueues, s.queues_awake f]
        simp only [ranges]
        exact alone
      have isQ : s.fnOfQ q = some f := (State.mem_fnQueues.1 (alone ▸ List.mem_singleton.2 rfl)).2
      have fnOf : (s.awake f).fnOf q = f := by rw [State.fnOf, ranges, isQ]; rfl
      have here : (s.awake f).fnAway ((s.awake f).fnOf q) = false := by
        rw [fnOf, State.fnAway, s.fn_awake f, master]
        rfl
      have caught := State.queueCatchUp_shows small (by rw [queue]; exact none_) here
      rw [fnOf, queue, State.rf_congr (s.regs_awake f)] at caught
      rw [State.fnCatchUp_eq, alone', State.each_cons, State.each_nil]
      exact caught

end

/-! ## Configuration requests (R420, R482) -/

section
variable {s : State} {f : Nat} {c : CfgField} {w : Option Bool} {b : Bool}

/-- The function takes configuration requests. -/
def State.cfgLive (s : State) (f : Nat) : Prop := s.rb dwyLinkStatus 31 = true ∧ (s.fn f).enabled = true

/-- The boot has not ended, and 900 ms have not passed. -/
def State.cfgRetry (s : State) : Prop :=
  s.rf atcBootStatus 31 28 ≠ 8 ∧ s.rf atcBootStatus 31 28 ≠ 9 ∧ s.rf atcBootStatus 31 28 ≠ 10 ∧
    s.cycles < s.dwy.perstRose + 22500000

theorem exec_configRequest_dead (dead : ¬s.cfgLive f) : exec (.configRequest f c w) s = .next s := by
  refine if_pos ?_
  by_contra h
  simp only [not_or, Bool.not_eq_true', Bool.not_eq_false] at h
  exact dead h

theorem exec_configRequest_retry (live : s.cfgLive f) (retry : s.cfgRetry) :
    exec (.configRequest f c w) s = .next (s.emit (.config f true)) := by
  refine (if_neg (by simp [live.1, live.2])).trans (if_pos ?_)
  exact decide_eq_true retry

/-- A request that is taken is answered, then carried out. -/
def State.cfgTaken (s : State) (f : Nat) : State := s.emit (.config f false)

/-- What a request reads. -/
def State.cfgBit (s : State) (f : Nat) : CfgField → Bool
  | .msixEnable => (s.fn f).msixEn
  | .msixMask => (s.fn f).msixMask
  | .busMaster => (s.fn f).busMaster
  | .pmeEnable => (s.fn f).pmeEn
  | .vfEnable => f == 1 && (s.fn 2).enabled

/-- What a request writes. -/
def State.cfgWritten (s : State) (f : Nat) (b : Bool) : CfgField → State
  | .msixEnable => (s.cfgTaken f).setFn f { s.fn f with msixEn := b }
  | .msixMask => (s.cfgTaken f).setFn f { s.fn f with msixMask := b }
  | .busMaster =>
    if b && !(s.fn f).asleep then ((s.cfgTaken f).setFn f { s.fn f with busMaster := b }).fnCatchUp f
    else (s.cfgTaken f).setFn f { s.fn f with busMaster := b }
  | .pmeEnable => (s.cfgTaken f).setFn f { s.fn f with pmeEn := b }
  | .vfEnable =>
    if f ≠ 1 then s.cfgTaken f
    else if b then (s.cfgTaken f).each vfs fun t g => t.setFn g { t.fn g with enabled := true }
    else (s.cfgTaken f).vfsOff

theorem exec_configRequest_reads (live : s.cfgLive f) (ready : ¬s.cfgRetry) :
    exec (.configRequest f c none) s = .next ((s.cfgTaken f).answer (nat (s.cfgBit f c))) := by
  refine (if_neg (by simp [live.1, live.2])).trans ((if_neg (by simpa [State.cfgRetry] using ready)).trans ?_)
  cases c <;> rfl

theorem exec_configRequest_writes (live : s.cfgLive f) (ready : ¬s.cfgRetry) :
    exec (.configRequest f c (some b)) s = .next (s.cfgWritten f b c) := by
  refine (if_neg (by simp [live.1, live.2])).trans ((if_neg (by simpa [State.cfgRetry] using ready)).trans ?_)
  cases c <;> rfl

theorem exec_configRequest_read (live : s.cfgLive f) (ready : ¬s.cfgRetry) (c : CfgField) :
    ∃ u, exec (.configRequest f c none) s = .next u ∧ u.rdata = (if s.cfgBit f c = true then 1 else 0) ∧
      onlyIn [.rdata, .outbox] s u := by
  refine ⟨_, exec_configRequest_reads live ready, ?_, ?_⟩
  · exact (rfl : _ = nat (s.cfgBit f c)).trans (by cases s.cfgBit f c <;> rfl)
  · exact ((State.answer_keeps _ _).after rfl ((s.emit_keeps _).mono rfl)).same

/-- A bit of the function's own configuration space is written. -/
theorem State.cfgSet_shows (s : State) (f : Nat) (x : DwyFn) : let u := (s.cfgTaken f).setFn f x
    u.fn f = x ∧ (∀ g, g ≠ f → u.fn g = s.fn g) ∧ u.outbox = s.outbox ++ [.config f false] ∧
      onlyIn [.dwy, .outbox] s u :=
  ⟨State.fn_setFn _ f x, fun _ ne => State.fn_setFn_ne _ f x ne, rfl,
    ((State.setFn_keeps _ f x).after rfl ((s.emit_keeps _).mono rfl)).same⟩

/-- VF Enable rises. -/
theorem State.vfsOn_shows (s : State) (f : Nat) :
    let u := (s.cfgTaken f).each vfs fun t g => t.setFn g { t.fn g with enabled := true }
    onlyIn [.dwy, .outbox] s u ∧ ∀ g, 2 ≤ g → g < 64 → (u.fn g).enabled = true := by
  refine ⟨?_, fun g lo hi => ?_⟩
  · exact (State.each_invariant (P := Keeps [.dwy, .outbox] s) ((s.emit_keeps _).mono rfl)
      fun t g _ h => (State.setFn_keeps _ g _).after rfl h).same
  · refine State.each_reaches (P := fun t => (t.fn g).enabled = true) (mem_vfs.2 ⟨lo, hi⟩)
      (fun t => by rw [State.fn_setFn]) fun t k _ h => ?_
    by_cases same : g = k
    · subst same
      rw [State.fn_setFn]
    · rwa [State.fn_setFn_ne _ _ _ same]

end

end Sys2Proof.Machine

section
open Sys2Proof Sys2Proof.Machine

/-- Settles O50: the link's training, the resets, sleep, wake and configuration, from what each reset writes and which
queues it empties. -/
theorem doorwayLinkSleepAndResets : Obligations.DoorwayLinkSleepAndResets := by
  refine ⟨fun mode speed width lopt s => ⟨fun no => exec_hostLinkTrain_not no, fun ready slow fast modes cap wide => ?_⟩,
    fun s => ⟨?_, ?_, fun down => ?_, fun up => ?_⟩, fun f s small => ⟨fun off => ?_, exec_functionLevelReset_on small⟩,
    fun f s small => ⟨fun l2 off => ?_, fun l2 on => exec_hostSleepEnter_on on, exec_hostWake_wakes f s⟩,
    fun f s small => ⟨fun c w dead => exec_configRequest_dead dead, fun c w live retry => ?_, fun live ready =>
      ⟨exec_configRequest_read live ready .msixEnable, exec_configRequest_read live ready .busMaster, fun b => ?_,
        fun b => ?_, fun b => ?_, ?_, fun one => ?_, fun other b => ?_⟩⟩⟩
  · obtain ⟨up, wide', fastest, slowest⟩ := State.linkTrained_shows (s := s) (lopt := lopt) slow fast modes cap wide
    exact ⟨_, exec_hostLinkTrain_trains ready, up, wide', fun a ne => s.rd_wrN_ne _ ne, fastest, slowest,
      (s.wrN_keeps _ _).same⟩
  · exact ⟨_, exec_perstReset_low s, rfl, s.dwyReset_dead.fell⟩
  · exact ⟨_, exec_perstReset_high s, rfl, rfl, s.onlyIn_perstRisen⟩
  · rw [exec_perstReset_linkLoss, if_neg (by simp [down])]
  · refine ⟨s.dwyReset, ?_, ?_, s.dwyReset_dead⟩
    · rw [exec_perstReset_linkLoss, if_pos up]
    · rw [s.dwyReset_keeps.same .attic (by decide)]
  · rw [exec_functionLevelReset, if_pos (by simp [off])]
  · rw [exec_hostSleepEnter, if_pos (by simp [off])]
  · exact ⟨_, exec_configRequest_retry live retry, rfl, (s.emit_keeps _).same⟩
  · exact ⟨_, exec_configRequest_writes live ready, s.cfgSet_shows f _⟩
  · obtain ⟨fn, -, -, kept⟩ := s.cfgSet_shows f { s.fn f with msixMask := b }
    exact ⟨_, exec_configRequest_writes live ready, fn, kept⟩
  · obtain ⟨fn, -, -, kept⟩ := s.cfgSet_shows f { s.fn f with pmeEn := b }
    exact ⟨_, exec_configRequest_writes live ready, fn, kept⟩
  · obtain ⟨fn, -, -, kept⟩ := s.cfgSet_shows f { s.fn f with busMaster := false }
    exact ⟨_, exec_configRequest_writes live ready, fn, kept⟩
  · subst one
    exact ⟨_, exec_configRequest_writes live ready, s.vfsOn_shows 1⟩
  · refine ⟨s.cfgTaken f, ?_, (s.emit_keeps _).same⟩
    rw [exec_configRequest_writes live ready, State.cfgWritten, if_pos other]

end

/-! PROOFS. The step that takes an entry of a queue (R402, R406, R414). -/

namespace Sys2Proof.Machine

/-! ## What reads of Cellar and Cupboard leave of Doorway -/

/-- Doorway's registers and queues, the frames and the tickets stand. -/
def doorStands (s t : State) : Prop := writesOnly cupWrites s t ∧ t.dwy = s.dwy ∧ t.pipe = s.pipe ∧ t.lft = s.lft

section
variable {s t u : State} {l : List Part}

theorem doorStands.refl (s : State) : doorStands s s := ⟨.refl _ s, rfl, rfl, rfl⟩

theorem doorStands.trans (h : doorStands s t) (k : doorStands t u) : doorStands s u :=
  ⟨h.1.trans k.1, k.2.1.trans h.2.1, k.2.2.1.trans h.2.2.1, k.2.2.2.trans h.2.2.2⟩

theorem doorStands.of_keeps (regs : writesOnly cupWrites s t) (k : Keeps l s t)
    (no : Part.dwy ∉ l ∧ Part.pipe ∉ l ∧ Part.lft ∉ l) : doorStands s t :=
  ⟨regs, k.same .dwy no.1, k.same .pipe no.2.1, k.same .lft no.2.2⟩

/-- Frees and grants leave Doorway's window. -/
theorem not_cupWrites_doorway {a : Nat} (hi : a < 0x04000000) : ¬cupWrites a := by
  refine not_cupWrites (by omega) ⟨?_, ?_⟩ fun k hk => ?_
  all_goals simp only [cupErr, cupErrLoc, cupPoolStatus]; omega

/-- A register of Doorway's window stands. -/
theorem doorStands.rd (h : doorStands s t) {a : Nat} (lo : 0x3000000 ≤ a) (hi : a < 0x04000000) : t.rd a = s.rd a :=
  h.1.rd (not_cupWrites_doorway hi) (offWrap_doorway lo)

theorem State.cupCheck_door (s : State) (a : Nat) (gen : Option Nat) : doorStands s (s.cupCheck a gen).1 :=
  .of_keeps (s.cupCheck_spec a gen).1.1.1 (s.cupCheck_keeps a gen) (by decide)

theorem State.celRead_door (s : State) (req a n : Nat) : doorStands s (s.celRead req a n).1 :=
  .of_keeps ((s.celRead_writes req a n).mono fun _ => cupWrites_celWrites) (s.celRead_keeps req a n) (by decide)

theorem State.celWrite_door (s : State) (req a : Nat) (bs : List Byte) : doorStands s (s.celWrite req a bs) :=
  .of_keeps ((s.celWrite_writes req a bs).mono fun _ => cupWrites_celWrites) (s.celWrite_keeps req a bs) (by decide)

theorem State.hwFree_door (s : State) (a : Nat) : doorStands s (s.hwFree a) :=
  .of_keeps (s.hwFree_writes a) (s.hwFree_keeps a) (by decide)

theorem State.ownerPass_writes (s : State) (buf owner : Nat) : writesOnly cupWrites s (s.ownerPass buf owner) := by
  have read := (s.ownerRead_step buf).1.1
  unfold State.ownerPass
  split
  · rename_i s1 r e
    rw [e] at read
    exact .ite (read.trans (State.ownerWrite_step _ _ _).1) read
  · rename_i s1 e
    rwa [e] at read

theorem State.ownerPass_door (s : State) (buf owner : Nat) : doorStands s (s.ownerPass buf owner) :=
  .of_keeps (s.ownerPass_writes buf owner) (s.ownerPass_keeps buf owner) (by decide)

theorem State.cupGrant_door {k : Nat} (s : State) (w : CupAsker) (owner n : Nat) (fit : s.fitPool n = some k) :
    doorStands s (s.cupGrant w owner n).1 := by
  have small : k < 8 := mem_upto.1 (List.mem_of_find?_eq_some fit)
  refine .of_keeps ?_ (s.cupGrant_keeps w owner n) (by decide)
  have eq : s.cupGrant w owner n = ((State.grantChain w owner 8 k s).1, true, (State.grantChain w owner 8 k s).2) := by
    rw [State.cupGrant, fit]
  rw [eq]
  exact (State.grantChain_grants w owner 8 small s).1.1

end

/-! ## An entry passes and is owed -/

/-- The queue has taken its next entry and owes `l` more completions. -/
def sqTook (q : Nat) (s : State) (l : List Taken) (u : State) : Prop :=
  (u.dq q).prefetch = (s.dq q).prefetch.drop 1 ∧ u.sqCi q = (s.sqCi q + 1) % 65536 ∧
    (u.dq q).taken = (s.dq q).taken ++ l

section
variable {s t u : State} {q : Nat} {l : List Taken}

theorem State.dwy_sqPass (s : State) (q : Nat) : (s.sqPass q).dwy =
    (s.setDq q { s.dq q with prefetch := (s.dq q).prefetch.drop 1, mirrorDue := true, waited := false }).dwy :=
  State.dwy_count _ _ _ _

theorem State.dq_sqPass (s : State) (q : Nat) : (s.sqPass q).dq q =
    { s.dq q with prefetch := (s.dq q).prefetch.drop 1, mirrorDue := true, waited := false } := by
  rw [State.dq_congr _ (s.dwy_sqPass q)]
  exact s.dq_setDq q _

theorem State.sqCi_sqPass (s : State) (q : Nat) : (s.sqPass q).sqCi q = (s.sqCi q + 1) % 65536 := by
  rw [State.sqCi, State.rf, State.sqPass, State.rd_count _ _ _ _ (offWrap_doorway (by unfold dwySqCi; omega)),
    State.rd_setDq, State.rd_wrN]
  simp only [fld, bits, BitVec.toNat_ofNat]
  omega

/-- After reads of Cellar and Cupboard the entry passes. -/
theorem sqTook.pass (regs : writesOnly cupWrites s t) (dwy : t.dwy = s.dwy) (small : q < 16384) :
    sqTook q s [] (t.sqPass q) := by
  have index : t.sqCi q = s.sqCi q :=
    regs.rf _ _ (not_cupWrites_doorway (by unfold dwySqCi; omega)) (offWrap_doorway (by unfold dwySqCi; omega))
  have queue := State.dq_congr s dwy q
  exact ⟨by rw [t.dq_sqPass q, queue], by rw [t.sqCi_sqPass q, index],
    by rw [t.dq_sqPass q, queue, List.append_nil]⟩

/-- A passed entry owes its completion. -/
theorem sqTook.owe (h : sqTook q s [] u) (k : Taken) : sqTook q s [k] (u.owe q k) := by
  obtain ⟨prefetch, ci, taken⟩ := h
  refine ⟨?_, ci, ?_⟩
  · rw [State.owe, State.dq_setDq]
    exact prefetch
  · rw [State.owe, State.dq_setDq, taken, List.append_nil]

/-- What writes no register of Doorway and leaves its queues leaves what was taken. -/
theorem sqTook.after (h : sqTook q s l t) (regs : writesOnly cupWrites t u) (dwy : u.dwy = t.dwy) (small : q < 16384) :
    sqTook q s l u := by
  obtain ⟨prefetch, ci, taken⟩ := h
  have index : u.sqCi q = t.sqCi q :=
    regs.rf _ _ (not_cupWrites_doorway (by unfold dwySqCi; omega)) (offWrap_doorway (by unfold dwySqCi; omega))
  exact ⟨by rw [State.dq_congr t dwy, prefetch], by rw [index, ci], by rw [State.dq_congr t dwy, taken]⟩

theorem State.sqPass_stands (s : State) (q : Nat) : (s.sqPass q).pipe = s.pipe ∧ (s.sqPass q).lft = s.lft ∧
    (s.sqPass q).outbox = s.outbox :=
  ⟨State.pipe_countBy _ _ _ _ _, State.lft_count _ _ _ _, State.outbox_count _ _ _ _⟩

end

/-! ## The next entry of a queue -/

section
variable {s : State} {q : Nat} {mine : Entry → Bool} {act : State → Entry → List Word → State} {ws : List Word}
  {rest : List (List Word)}

theorem State.cmplRoom_iff (s : State) (q : Nat) : s.cmplRoom q = true ↔
    (s.dq q).taken.length + (s.dq q).recv.length < s.cqFree q + (64 - (s.dq q).held.length) := decide_eq_true_iff

theorem State.takeEntry_cons (front : (s.dq q).prefetch = ws :: rest) : s.takeEntry q mine act =
    if s.qState q ≠ 1 ∨ !(mine (s.entryOf q ws)) ∨ !(s.cmplRoom q) then s
    else if (s.entryOf q ws).bad || !(s.typeOk q (s.entryOf q ws).typ) then
      s.dwyStop q 1 ((s.entryOf q ws).taken (s.sqCi q))
    else act s (s.entryOf q ws) ws := by
  rw [State.takeEntry, front]

theorem State.takeEntry_idle (idle : (s.dq q).prefetch = [] ∨ s.qState q ≠ 1 ∨ s.cmplRoom q = false) :
    s.takeEntry q mine act = s := by
  rcases front : (s.dq q).prefetch with _ | ⟨ws, rest⟩
  · rw [State.takeEntry, front]
  · rw [State.takeEntry_cons front, if_pos]
    rw [front] at idle
    rcases idle with h | h | h
    · exact absurd h (by simp)
    · exact .inl h
    · exact .inr (.inr (by simp [h]))

theorem State.takeEntry_other (front : (s.dq q).prefetch = ws :: rest) (other : mine (s.entryOf q ws) = false) :
    s.takeEntry q mine act = s := by
  rw [State.takeEntry_cons front, if_pos (.inr (.inl (by simp [other])))]

theorem State.takeEntry_bad (front : (s.dq q).prefetch = ws :: rest) (runs : s.qState q = 1) (room : s.cmplRoom q = true)
    (own : mine (s.entryOf q ws) = true)
    (bad : (s.entryOf q ws).bad = true ∨ s.typeOk q (s.entryOf q ws).typ = false) :
    s.takeEntry q mine act = s.dwyStop q 1 ((s.entryOf q ws).taken (s.sqCi q)) := by
  rw [State.takeEntry_cons front, if_neg (by simp [runs, own, room]), if_pos (by simpa using bad)]

theorem State.takeEntry_acts (front : (s.dq q).prefetch = ws :: rest) (runs : s.qState q = 1) (room : s.cmplRoom q = true)
    (own : mine (s.entryOf q ws) = true)
    (good : ¬((s.entryOf q ws).bad = true ∨ s.typeOk q (s.entryOf q ws).typ = false)) :
    s.takeEntry q mine act = act s (s.entryOf q ws) ws := by
  rw [State.takeEntry_cons front, if_neg (by simp [runs, own, room]), if_neg (by simpa using good)]

end

end Sys2Proof.Machine

/-! PROOFS. A SEND's frame goes to its slice, a TICKET's buffer becomes a host ticket (R345, R349, R407). -/

namespace Sys2Proof.Machine

section
variable {s t : State}

/-! ## Frames that are there stand as others come -/

theorem State.frame_newFrame_ne (s : State) (x : Frame) {g : Nat} (ne : g ≠ s.pipe.nextFid) :
    (s.newFrame x).1.frame g = s.frame g := tget_tput_ne _ _ _ _ _ ne

/-- Mirror copies are frames of their own. -/
theorem State.mirrorsOf_stands (s : State) (f set : Nat) : regsStand s (s.mirrorsOf f set) ∧
    ∀ g < s.pipe.nextFid, (s.mirrorsOf f set).frame g = s.frame g := by
  have step : regsStand s (s.mirrorsOf f set) ∧
      ∀ g < s.pipe.nextFid, (s.mirrorsOf f set).frame g = s.frame g ∧ g < (s.mirrorsOf f set).pipe.nextFid := by
    unfold State.mirrorsOf
    refine State.each_invariant (P := fun t => regsStand s t ∧ ∀ g < s.pipe.nextFid, t.frame g = s.frame g ∧ g < t.pipe.nextFid)
      ⟨fun _ _ => rfl, fun g lt => ⟨rfl, lt⟩⟩ fun t m _ h => ?_
    obtain ⟨regs, frames⟩ := h
    dsimp only
    split
    · refine ⟨regs.trans (.count t _ _ _), fun g lt => ?_⟩
      obtain ⟨same, fid⟩ := frames g lt
      rw [State.frame_congr (t.pipe_count _ _ _), t.pipe_count]
      exact ⟨same, fid⟩
    · refine ⟨fun a off => regs a off, fun g lt => ?_⟩
      obtain ⟨same, fid⟩ := frames g lt
      exact ⟨(t.frame_newFrame_ne _ (Nat.ne_of_lt fid)).trans same, Nat.lt_succ_of_lt fid⟩
  exact ⟨step.1, fun g lt => (step.2 g lt).1⟩

/-! ## A frame handed to Stairwell directly -/

/-- A port as destination is one copy to it. -/
theorem State.resolve_port {h : Head} {dest : Nat} (s : State) (f16 : Nat) (kind : h.get 530 528 = 1)
    (is : h.get 547 532 = dest) (small : dest < 512) : ∃ one, s.resolve h f16 = .copies 0 none [(dest, one)] := by
  unfold State.resolve
  dsimp only
  rw [if_pos kind, is, if_pos small]
  exact ⟨_, rfl⟩

/-- The frame that is handed over, before its copies are known. -/
def Handed.frame (x : Handed) (kind dest tc : Nat) : Frame :=
  { Frame.init with
    port := x.port, data := x.data, orig := x.data, len := x.data.length + 4, origin := 3, buf := x.buf,
    settled := true, noticed := true, head := ((x.head.put 530 528 kind).put 547 532 dest).put 550 548 tc }

theorem State.handDirect_eq (s : State) (x : Handed) (kind dest tc : Nat) (host : Bool) :
    s.handDirect x kind dest tc host = (s.free 16).2.handRouted x (x.frame kind dest tc) tc (s.free 16).1 dest host
      ((s.free 16).2.resolve (x.frame kind dest tc).head (s.free 16).1) := rfl

/-- A head carries the destination put into it. -/
theorem Handed.frame_dest (x : Handed) {kind dest tc : Nat} (kinds : kind < 8) (dests : dest < 65536) :
    (x.frame kind dest tc).head.get 530 528 = kind ∧ (x.frame kind dest tc).head.get 547 532 = dest := by
  unfold Handed.frame
  dsimp only
  constructor
  · rw [Head.get_put_apart _ _ (by decide) (by decide) (by decide), Head.get_put_apart _ _ (by decide) (by decide) (by decide),
      Head.get_put_same _ _ (by decide) (by decide) (by omega)]
  · rw [Head.get_put_apart _ _ (by decide) (by decide) (by decide), Head.get_put_same _ _ (by decide) (by decide) (by omega)]

/-- The frame of one copy enters Stairwell. -/
def State.handOne (s : State) (x : Handed) (y : Frame) (tc hash dest : Nat) (one : Option Member) : State :=
  let e := s.directEnter y 0 tc hash [(dest, one)]
  let s1 := e.1.setSl (x.port / 32) { e.1.sl (x.port / 32) with hostQ := (e.1.sl (x.port / 32)).hostQ ++ [e.2] }
  let z := s1.frame e.2
  let s2 := if z.head.chkEn ∧ !z.head.checkable then s1.count evChkSkip (x.port / 32) 0 else s1
  (s2.setFab e.2 { z.fab with dest := dest, verify := nat (z.head.chkEn && z.head.checkable && s2.hasTrailer z) }).mirrorsOf
    e.2 (z.head.get 567 560)

theorem State.handRouted_port (s : State) (x : Handed) (y : Frame) (tc hash dest : Nat) (one : Option Member)
    (same : y.data = x.data) :
    s.handRouted x y tc hash dest true (.copies 0 none [(dest, one)]) = s.handOne x y tc hash dest one := by
  have data : { y with data := x.data } = y := by rw [← same]
  unfold State.handRouted State.handOne
  dsimp only
  rw [data]
  rfl

/-- What stands of the frame and of the registers. -/
theorem State.handOne_shows (s : State) (x : Handed) (y : Frame) (tc hash dest : Nat) (one : Option Member) :
    let u := s.handOne x y tc hash dest one
    (u.frame s.pipe.nextFid).data = y.data ∧ (u.frame s.pipe.nextFid).port = y.port ∧
      (u.frame s.pipe.nextFid).fab.queues = [8 * dest + tc] := by
  intro u
  have entered := s.frame_directEnter y 0 tc hash [(dest, one)]
  have fid := s.nextFid_directEnter y 0 tc hash [(dest, one)]
  have name : (s.directEnter y 0 tc hash [(dest, one)]).2 = s.pipe.nextFid := rfl
  dsimp only [u, State.handOne]
  rw [name]
  generalize (s.directEnter y 0 tc hash [(dest, one)]).1 = e at *
  generalize hs1 : e.setSl (x.port / 32) { e.sl (x.port / 32) with hostQ := (e.sl (x.port / 32)).hostQ ++ [s.pipe.nextFid] } = s1
  have frame1 : s1.frame s.pipe.nextFid = e.frame s.pipe.nextFid := by rw [← hs1, State.frame_setSl]
  have fid1 : s1.pipe.nextFid = s.pipe.nextFid + 1 := by rw [← hs1]; exact fid
  generalize hz : s1.frame s.pipe.nextFid = z at *
  generalize hs2 : (if z.head.chkEn ∧ !z.head.checkable then s1.count evChkSkip (x.port / 32) 0 else s1) = s2
  have pipe2 : s2.pipe = s1.pipe := by
    rw [← hs2]
    split
    · exact s1.pipe_count _ _ _
    · rfl
  generalize hf : s2.setFab s.pipe.nextFid
    { z.fab with dest := dest, verify := nat (z.head.chkEn && z.head.checkable && s2.hasTrailer z) } = s3
  have fid3 : s.pipe.nextFid < s3.pipe.nextFid := by
    have : s3.pipe.nextFid = s2.pipe.nextFid := by rw [← hf]; rfl
    rw [this, pipe2, fid1]
    exact Nat.lt_succ_self _
  have frame3 : s3.frame s.pipe.nextFid = { z with fab :=
      { z.fab with dest := dest, verify := nat (z.head.chkEn && z.head.checkable && s2.hasTrailer z) } } := by
    rw [← hf, State.setFab, State.frame_setFrame, State.frame_congr pipe2, hz]
  rw [(s3.mirrorsOf_stands _ _).2 _ fid3, frame3, frame1, entered]
  exact ⟨rfl, rfl, rfl⟩

theorem State.handRouted_writes (s : State) (x : Handed) (y : Frame) (tc hash dest : Nat) (host : Bool) (r : Resolved) :
    writesOnly cupWrites s (s.handRouted x y tc hash dest host r) := by
  have dropped (t : State) : writesOnly cupWrites t (t.handDrop y) := by
    unfold State.handDrop
    exact .ite (.refl _ t) (t.hwFree_writes _)
  have counted (e : Nat) : writesOnly cupWrites s (s.count e (x.port / 32) 0) := (writesOnly.refl _ s).count _ _ _
  unfold State.handRouted
  cases r with
  | bad => exact (counted _).trans (dropped _)
  | noGroup => exact (counted _).trans (dropped _)
  | empty => exact (counted _).trans (dropped _)
  | copies k nh ports =>
    dsimp only
    generalize { y with data := _ } = y1
    have entered : writesOnly cupWrites s (s.directEnter y1 k tc hash ports).1 :=
      (writesOnly.refl _ s).keeps (State.directEnter_keeps s y1 k tc hash ports) (by decide)
    generalize s.directEnter y1 k tc hash ports = e at *
    have queued : writesOnly cupWrites s (if host then e.1.setSl (x.port / 32)
        { e.1.sl (x.port / 32) with hostQ := (e.1.sl (x.port / 32)).hostQ ++ [e.2] } else e.1) :=
      .ite (entered.regs rfl) entered
    generalize (if host then e.1.setSl (x.port / 32)
        { e.1.sl (x.port / 32) with hostQ := (e.1.sl (x.port / 32)).hostQ ++ [e.2] } else e.1) = s1 at *
    have skipped : writesOnly cupWrites s (if (s1.frame e.2).head.chkEn ∧ !(s1.frame e.2).head.checkable
        then s1.count evChkSkip (x.port / 32) 0 else s1) := .ite (queued.count _ _ _) queued
    generalize (if (s1.frame e.2).head.chkEn ∧ !(s1.frame e.2).head.checkable
        then s1.count evChkSkip (x.port / 32) 0 else s1) = s2 at *
    have fab : writesOnly cupWrites s (s2.setFab e.2 { (s1.frame e.2).fab with
        dest := dest
        verify := nat ((s1.frame e.2).head.chkEn && (s1.frame e.2).head.checkable && s2.hasTrailer (s1.frame e.2)) }) :=
      skipped.regs rfl
    exact fab.trans (.of_regsStand (State.mirrorsOf_stands _ _ _).1)

theorem State.handDirect_writes (s : State) (x : Handed) (kind dest tc : Nat) (host : Bool) :
    writesOnly cupWrites s (s.handDirect x kind dest tc host) := by
  rw [State.handDirect_eq]
  exact ((writesOnly.refl _ s).regs (u := (s.free 16).2) rfl).trans (State.handRouted_writes _ _ _ _ _ _ _ _)

theorem State.handDirect_port (s : State) (x : Handed) {dest tc : Nat} (small : dest < 512) :
    let u := s.handDirect x 1 dest tc true
    (u.frame s.pipe.nextFid).data = x.data ∧ (u.frame s.pipe.nextFid).port = x.port ∧
      (u.frame s.pipe.nextFid).fab.queues = [8 * dest + tc] := by
  obtain ⟨kind, is⟩ := x.frame_dest (tc := tc) (by decide : 1 < 8) (by omega : dest < 65536)
  obtain ⟨one, copies⟩ := (s.free 16).2.resolve_port (s.free 16).1 kind is small
  rw [State.handDirect_eq, copies, State.handRouted_port _ _ _ _ _ _ _ rfl]
  exact (s.free 16).2.handOne_shows x (x.frame 1 dest tc) tc (s.free 16).1 dest one

/-! ## A frame handed over as a head -/

theorem State.frame_enterReentry (s : State) (f : Nat) :
    (s.enterReentry f).frame f = { s.frame f with head := { s.head f with pos := .reentry } } := by
  unfold State.enterReentry
  dsimp only
  rw [State.frame_setSl, State.frame_setHead]

theorem State.handHead_shows (s : State) (x : Handed) (origin entry start rxTs : Nat) :
    let u := s.handHead x origin entry start rxTs
    (u.frame s.pipe.nextFid).data = x.data ∧ (u.frame s.pipe.nextFid).port = x.port ∧
      (u.head s.pipe.nextFid).pos = .reentry := by
  intro u
  have frame : u.frame s.pipe.nextFid = _ := (State.frame_enterReentry _ _).trans
    (congrArg (fun y : Frame => { y with head := { y.head with pos := .reentry } }) (s.frame_newFrame _))
  rw [State.head, frame]
  exact ⟨rfl, rfl, rfl⟩

/-! ## A SEND's frame (R384, R407) -/

/-- The frame `nf` of a SEND: a head at its re-entry queue, or a copy on its way to a port's queue. -/
def handsOn (e : Entry) (d : List Byte) (nf : Nat) (u : State) : Prop :=
  (e.direct = false → (u.frame nf).data = d ∧ (u.frame nf).port = e.port ∧ (u.head nf).pos = .reentry) ∧
    (e.direct = true → e.kind = 1 → e.dest < 512 → (u.frame nf).data = d ∧ (u.frame nf).port = e.port ∧
      (u.frame nf).fab.queues = [8 * e.dest + e.tc])

/-- A SEND hands on from its buffer's new owner. -/
theorem State.sendHand_direct {e : Entry} (s : State) (buf : Nat) (d : List Byte) (direct : e.direct = true) :
    s.sendHand e buf d = (s.ownerPass buf (ownerSlice (e.port / 32))).handDirect ⟨e.port, d, e.directMd, buf⟩ e.kind e.dest
      e.tc true := if_pos direct

theorem State.sendHand_head {e : Entry} (s : State) (buf : Nat) (d : List Byte) (direct : e.direct = false) :
    s.sendHand e buf d = (s.ownerPass buf (ownerSlice (e.port / 32))).handHead ⟨e.port, d, 0, buf⟩ 2 2 0
      (s.ownerPass buf (ownerSlice (e.port / 32))).ns := if_neg (by simp [direct])

theorem State.sendHand_frame (s : State) (e : Entry) (buf : Nat) (d : List Byte) :
    handsOn e d s.pipe.nextFid (s.sendHand e buf d) := by
  have fid : (s.ownerPass buf (ownerSlice (e.port / 32))).pipe.nextFid = s.pipe.nextFid :=
    congrArg Pipe.nextFid (s.ownerPass_door buf (ownerSlice (e.port / 32))).2.2.1
  refine ⟨fun direct => ?_, fun direct kind small => ?_⟩
  · rw [s.sendHand_head buf d direct, ← fid]
    exact State.handHead_shows _ ⟨e.port, d, 0, buf⟩ 2 2 0 _
  · rw [s.sendHand_direct buf d direct, kind, ← fid]
    exact State.handDirect_port _ ⟨e.port, d, e.directMd, buf⟩ small

theorem State.sendHand_writes (s : State) (e : Entry) (buf : Nat) (d : List Byte) :
    writesOnly cupWrites s (s.sendHand e buf d) := by
  have passed := s.ownerPass_writes buf (ownerSlice (e.port / 32))
  cases direct : e.direct
  · rw [s.sendHand_head buf d direct]
    exact passed.keeps (State.handHead_keeps _ _ _ _ _ _) (by decide)
  · rw [s.sendHand_direct buf d direct]
    exact passed.trans (State.handDirect_writes _ _ _ _ _ _)

theorem State.sendHand_dwy (s : State) (e : Entry) (buf : Nat) (d : List Byte) : (s.sendHand e buf d).dwy = s.dwy :=
  (s.sendHand_keeps e buf d).same .dwy (by decide)

/-! ## A host ticket (R341, R345) -/

/-- The ticket of a TICKET entry. -/
def State.hostRecord (s : State) (q : Nat) (e : Entry) (port buf : Nat) (shared : Bool) : Ticket :=
  let pool := match s.poolOf buf with
    | some (k, _, _) => k
    | none => 0
  { Ticket.init with
    src := 3, prog := e.prog, flow16 := e.flow, inPort := port, rxTs := (s.free 64).1, qp := q, pool := pool, buf := buf,
    cap := 2 ^ s.poolLog2 pool - 768, shared := shared, dataLen := e.len, headLen := min 512 e.len }

theorem State.hostTicket_eq (s : State) (q : Nat) (e : Entry) (port buf : Nat) (shared : Bool) (head : List Byte) :
    s.hostTicket q e port buf shared head = ((s.free 64).2.celWrite 0x14 buf
      ((s.hostRecord q e port buf shared).record head)).newTicket (s.hostRecord q e port buf shared) := rfl

theorem State.ticket_newTicket (s : State) (k : Ticket) : (s.newTicket k).1.ticket s.lft.nextTicket = k ∧
    (s.newTicket k).2 = s.lft.nextTicket ∧ (s.newTicket k).1.lft.nextTicket = s.lft.nextTicket + 1 :=
  ⟨tget_tput_same _ _ _ _, rfl, rfl⟩

theorem State.ticket_congr {s t : State} (h : t.lft = s.lft) (id : Nat) : t.ticket id = s.ticket id := by
  rw [State.ticket, State.ticket, h]

theorem State.lft_setDq (s : State) (q : Nat) (x : DwyQ) : (s.setDq q x).lft = s.lft := rfl

theorem State.newTicket_stands (s : State) (k : Ticket) : (s.newTicket k).1.regs = s.regs ∧
    (s.newTicket k).1.dwy = s.dwy := ⟨rfl, rfl⟩

/-- The ticket stands in the table; Doorway and its registers stand. -/
theorem State.hostTicket_shows (s : State) (q : Nat) (e : Entry) (port buf : Nat) (shared : Bool) (head : List Byte) :
    let r := s.hostTicket q e port buf shared head
    r.2 = s.lft.nextTicket ∧ r.1.ticket s.lft.nextTicket = s.hostRecord q e port buf shared ∧
      r.1.lft.nextTicket = s.lft.nextTicket + 1 ∧ writesOnly cupWrites s r.1 ∧ r.1.dwy = s.dwy := by
  rw [State.hostTicket_eq]
  generalize s.hostRecord q e port buf shared = k
  have drawn : writesOnly cupWrites s (s.free 64).2 := (writesOnly.refl _ s).regs rfl
  have drawnDwy : (s.free 64).2.dwy = s.dwy := rfl
  have drawnLft : (s.free 64).2.lft = s.lft := rfl
  generalize (s.free 64).2 = t at *
  obtain ⟨regs, dwy, -, lft⟩ := t.celWrite_door 0x14 buf (k.record head)
  generalize t.celWrite 0x14 buf (k.record head) = v at *
  obtain ⟨is, name, next⟩ := v.ticket_newTicket k
  obtain ⟨regs', dwy'⟩ := v.newTicket_stands k
  rw [lft, drawnLft] at is name next
  exact ⟨name, is, next, (drawn.trans regs).regs regs', dwy'.trans (dwy.trans drawnDwy)⟩

end

end Sys2Proof.Machine

/-! PROOFS. Entries are taken and acted on by type, fetched, and their data comes back (R402 to R414). -/

namespace Sys2Proof.Machine

/-! ## The taking steps -/

/-- The taking steps and what of an entry each is for. -/
noncomputable def takers (q : Nat) (e : Entry) : List (Instr × Bool) :=
  [(.nopEntry q, e.typ == 0 || decide (3 < e.typ)), (.ticketEntry q, e.typ == 2), (.recvEntry q, e.typ == 3),
    (.sendPipeline q, e.typ == 1 && !e.direct), (.sendDirect q, e.typ == 1 && e.direct)]

section
variable {s : State} {q : Nat} {ws : List Word} {rest : List (List Word)}

theorem exec_taker {p : Instr × Bool} {e : Entry} (mem : p ∈ takers q e) (s : State) :
    ∃ mine act, exec p.1 s = .next (s.takeEntry q mine act) ∧ mine e = p.2 := by
  simp only [takers, List.mem_cons, List.not_mem_nil, or_false] at mem
  rcases mem with rfl | rfl | rfl | rfl | rfl
  all_goals exact ⟨_, _, rfl, rfl⟩

/-- Without an entry, a running queue or room, no step takes anything. -/
theorem exec_takers_idle (idle : (s.dq q).prefetch = [] ∨ s.qState q ≠ 1 ∨ s.cmplRoom q = false) :
    ∀ c ∈ [Instr.nopEntry q, .sendPipeline q, .sendDirect q, .ticketEntry q, .recvEntry q], exec c s = .next s := by
  intro c mem
  simp only [List.mem_cons, List.not_mem_nil, or_false] at mem
  rcases mem with rfl | rfl | rfl | rfl | rfl
  all_goals exact congrArg Host.Outcome.next (State.takeEntry_idle idle)

theorem exec_taker_other (front : (s.dq q).prefetch = ws :: rest) {p : Instr × Bool} (mem : p ∈ takers q (s.entryOf q ws))
    (other : p.2 = false) : exec p.1 s = .next s := by
  obtain ⟨mine, act, out, own⟩ := exec_taker mem s
  rw [out, State.takeEntry_other front (own.trans other)]

section
variable (front : (s.dq q).prefetch = ws :: rest) (runs : s.qState q = 1) (room : s.cmplRoom q = true)
include front runs room

theorem exec_taker_stops {p : Instr × Bool} (mem : p ∈ takers q (s.entryOf q ws)) (own : p.2 = true)
    (bad : (s.entryOf q ws).bad = true ∨ s.typeOk q (s.entryOf q ws).typ = false) (gen : s.fnGen (s.fnOf q) ≠ 1)
    (small : q < 16384) : ∃ u, exec p.1 s = .next u ∧ u.qState q = 4 ∧ u.rf (dwyQpStatus q) 23 16 = 1 ∧
      u.sqCi q = s.sqCi q ∧ (u.dq q).prefetch = [] ∧
      (u.dq q).taken = (s.dq q).taken ++ [{ (s.entryOf q ws).taken (s.sqCi q) with status := 1 }] ∧
      u.rb (dwyFnErr (s.fnOf q)) 1 = true := by
  obtain ⟨mine, act, out, mine_⟩ := exec_taker mem s
  rw [State.takeEntry_bad front runs room (mine_.trans own) bad, State.dwyStop_stops gen] at out
  obtain ⟨stops, cause, err, queue, regs⟩ :=
    State.queueStopped_shows (by decide : 1 < 256) small s ((s.entryOf q ws).taken (s.sqCi q))
  refine ⟨_, out, stops, cause, ?_, by rw [queue], by rw [queue]; rfl, err⟩
  rw [State.sqCi, State.rf, regs _ (by unfold dwySqCi dwyQpStatus; omega) (by unfold dwySqCi dwyFnErr; omega)
    (offWrap_doorway (by unfold dwySqCi; omega))]
  rfl

theorem exec_taker_halts {p : Instr × Bool} (mem : p ∈ takers q (s.entryOf q ws)) (own : p.2 = true)
    (bad : (s.entryOf q ws).bad = true ∨ s.typeOk q (s.entryOf q ws).typ = false) (gen : s.fnGen (s.fnOf q) = 1) :
    ∃ u, exec p.1 s = .next u ∧ u.rb dwyHalt 31 = true ∧ (u.dq q).taken = (s.dq q).taken ∧ u.sqCi q = s.sqCi q ∧
      ∀ k, k < 16384 → k ∈ tkeys s.dwy.queues → s.qState k ≠ 0 → s.qState k ≠ 6 → u.qState k = 5 := by
  obtain ⟨mine, act, out, mine_⟩ := exec_taker mem s
  rw [State.takeEntry_bad front runs room (mine_.trans own) bad, State.dwyStop_halts gen] at out
  refine ⟨_, out, s.rb_dwyHalted q 1 _, s.taken_dwyHalted q 1 _ q, ?_,
    fun k _ mem on runs => s.qState_dwyHalted _ mem on runs⟩
  rw [State.sqCi, State.rf, s.rd_dwyHalted_ne (fun p => by unfold dwySqCi dwyQpStatus; omega)
    (by unfold dwySqCi dwyHalt; omega) (by unfold dwySqCi dwyHaltLoc; omega)
    (offWrap_doorway (by unfold dwySqCi; omega))]
  rfl

variable (good : ¬((s.entryOf q ws).bad = true ∨ s.typeOk q (s.entryOf q ws).typ = false))
include good

/-! ## NOP and RECV (R407, R415) -/

theorem exec_nopEntry_takes (small : q < 16384) (nop : (s.entryOf q ws).typ = 0) : ∃ u, exec (.nopEntry q) s = .next u ∧
    sqTook q s [s.takenOf q (s.entryOf q ws) ws] u ∧ onlyIn [.regs, .mast, .dwy] s u := by
  have out : exec (.nopEntry q) s = .next ((s.sqPass q).owe q (s.takenOf q (s.entryOf q ws) ws)) :=
    congrArg Host.Outcome.next (State.takeEntry_acts front runs room (by rw [nop]; rfl) good)
  exact ⟨_, out, (sqTook.pass (.refl _ s) rfl small).owe _,
    ((State.setDq_keeps _ _ _).after rfl ((s.sqPass_keeps q).mono rfl)).same⟩

theorem exec_recvEntry_takes (small : q < 16384) (recv : (s.entryOf q ws).typ = 3) : ∃ u, exec (.recvEntry q) s = .next u ∧
    sqTook q s [] u ∧ (u.dq q).recv = (s.dq q).recv ++ [(s.sqCi q, ws)] ∧ onlyIn [.regs, .mast, .dwy] s u := by
  have out : exec (.recvEntry q) s = .next ((s.sqPass q).setDq q
      { (s.sqPass q).dq q with recv := (s.dq q).recv ++ [(s.sqCi q, ws)] }) :=
    congrArg Host.Outcome.next (State.takeEntry_acts front runs room (by rw [recv]; rfl) good)
  obtain ⟨prefetch, ci, taken⟩ := sqTook.pass (.refl _ s) rfl small
  exact ⟨_, out, ⟨by rw [State.dq_setDq]; exact prefetch, ci, by rw [State.dq_setDq]; exact taken⟩, by rw [State.dq_setDq],
    ((State.setDq_keeps _ _ _).after rfl ((s.sqPass_keeps q).mono rfl)).same⟩

/-- The steps of a SEND take it. -/
theorem exec_send {p : Instr × Bool} (mem : p ∈ [(Instr.sendPipeline q, (s.entryOf q ws).typ == 1 && !(s.entryOf q ws).direct),
      (.sendDirect q, (s.entryOf q ws).typ == 1 && (s.entryOf q ws).direct)]) (own : p.2 = true) :
    exec p.1 s = .next (s.takeSend q (s.entryOf q ws) ws) := by
  simp only [List.mem_cons, List.not_mem_nil, or_false] at mem
  rcases mem with rfl | rfl
  all_goals exact congrArg Host.Outcome.next (State.takeEntry_acts front runs room own good)

theorem exec_ticketEntry (ticket : (s.entryOf q ws).typ = 2) :
    exec (.ticketEntry q) s = .next (s.takeTicket q (s.entryOf q ws) ws) :=
  congrArg Host.Outcome.next (State.takeEntry_acts front runs room (by rw [ticket]; rfl) good)

end

/-! ## An entry whose data comes from host memory -/

section
variable {e : Entry} {n : Nat}

theorem State.takeDraw_away (away : s.fnAway (s.fnOf q) = true) : s.takeDraw q e ws n = s := if_pos away

theorem State.takeDraw_none (here : s.fnAway (s.fnOf q) = false) (none_ : s.fitPool n = none) :
    s.takeDraw q e ws n = s.poolWait q := by
  unfold State.takeDraw
  dsimp only
  rw [if_neg (by simp [here]), none_]
  rfl

theorem State.poolWait_waits (s : State) (small : q < 16384) : (s.poolWait q).sqCi q = s.sqCi q ∧
    ((s.poolWait q).dq q).taken = (s.dq q).taken ∧ ((s.poolWait q).dq q).waited = true := by
  unfold State.poolWait
  split
  · exact ⟨rfl, rfl, ‹_›⟩
  · have queue : ((s.setDq q { s.dq q with waited := true }).count evDwyFetchWaitPool (s.fnOf q) 0).dq q =
        { s.dq q with waited := true } := by
      rw [State.dq_congr _ (State.dwy_count _ _ _ _)]
      exact s.dq_setDq q _
    refine ⟨?_, by rw [queue], by rw [queue]⟩
    rw [State.sqCi, State.rf, State.rd_count _ _ _ _ (offWrap_doorway (by unfold dwySqCi; omega))]
    rfl

/-- What a drawn entry is recorded as. -/
def State.drawnOf (s : State) (q : Nat) (e : Entry) (ws : List Word) (buf : Nat) : Taken :=
  { s.takenOf q e ws with wait := 1, buf := buf, inPort := s.qPort q }

theorem State.takeDraw_draws {k b buf : Nat} (here : s.fnAway (s.fnOf q) = false) (fit : s.fitPool n = some k)
    (can : s.chainCan .doorway 8 k = true) (grant : (s.cupGrant .doorway (ownerFn (s.fnOf q)) n).2 = (true, some (b, buf))) :
    s.takeDraw q e ws n = ((((s.cupGrant .doorway (ownerFn (s.fnOf q)) n).1.sqPass q).owe q
      (s.drawnOf q e ws buf)).emit (.hostRead e.addr e.len)) := by
  have whole : s.cupGrant .doorway (ownerFn (s.fnOf q)) n =
      ((s.cupGrant .doorway (ownerFn (s.fnOf q)) n).1, true, some (b, buf)) := Prod.ext rfl grant
  unfold State.takeDraw
  dsimp only
  rw [if_neg (by simp [here]), if_neg (by rw [fit]; dsimp only; rw [can]; decide), whole]
  rfl

theorem State.takeDraw_took {k b buf : Nat} (small : q < 16384) (here : s.fnAway (s.fnOf q) = false)
    (fit : s.fitPool n = some k) (can : s.chainCan .doorway 8 k = true)
    (grant : (s.cupGrant .doorway (ownerFn (s.fnOf q)) n).2 = (true, some (b, buf))) :
    sqTook q s [s.drawnOf q e ws buf] (s.takeDraw q e ws n) ∧ (s.takeDraw q e ws n).outbox =
      (s.cupGrant .doorway (ownerFn (s.fnOf q)) n).1.outbox ++ [.hostRead e.addr e.len] := by
  have door := s.cupGrant_door .doorway (ownerFn (s.fnOf q)) n fit
  have took := (sqTook.pass door.1 door.2.1 small).owe (s.drawnOf q e ws buf)
  rw [State.takeDraw_draws here fit can grant]
  refine ⟨took.after ((writesOnly.refl _ _).regs rfl) rfl small, ?_⟩
  exact congrArg (· ++ [Emission.hostRead e.addr e.len]) (State.sqPass_stands _ q).2.2

/-! ## SEND (R407) -/

theorem State.takeSend_full (full : s.sendRoom e = false) : s.takeSend q e ws = s := if_pos (by simp [full])

theorem State.takeSend_draws (room : s.sendRoom e = true) (host : e.buf = false) :
    s.takeSend q e ws = s.takeDraw q e ws e.len := by
  unfold State.takeSend
  dsimp only
  rw [if_neg (by simp [room]), if_pos (by simp [host])]

/-- A SEND of a buffer, once no earlier one waits for host memory. -/
theorem State.takeSend_buf (room : s.sendRoom e = true) (own : e.buf = true) (first : ∀ v ∈ (s.dq q).taken, v.wait ≠ 1) :
    s.takeSend q e ws = match s.sendHandle (s.fnOf q) e.handle with
      | (s1, .inl r) => (s1.sqPass q).owe q { s.takenOf q e ws with status := 0x10 + r }
      | (s1, .inr buf) =>
        match s1.celRead 0x14 buf e.len with
        | (s2, none) => (s2.sqPass q).owe q { s.takenOf q e ws with status := 3 }
        | (s2, some d) => ((s2.sqPass q).owe q (s.takenOf q e ws)).sendHand e buf d := by
  have none_ : ((s.dq q).taken.any fun u => u.wait == 1) = false := by
    rw [List.any_eq_false]
    exact fun v mem => by simpa using first v mem
  unfold State.takeSend
  dsimp only
  rw [if_neg (by simp [room]), if_neg (by simp [own]), none_, if_neg (by decide)] <;> rfl

theorem State.sendHandle_door (s : State) (f h : Nat) : doorStands s (s.sendHandle f h).1 := by
  have checked := s.cupCheck_door (s.handleAddr h) (some (h / 2 ^ 24))
  unfold State.sendHandle
  rcases c : s.cupCheck (s.handleAddr h) (some (h / 2 ^ 24)) with ⟨t, r | ⟨k, i, r⟩⟩
  all_goals
    rw [c] at checked
    exact checked

theorem State.takeSend_refused {r : Nat} (small : q < 16384) (room : s.sendRoom e = true) (own : e.buf = true)
    (first : ∀ v ∈ (s.dq q).taken, v.wait ≠ 1) (no : (s.sendHandle (s.fnOf q) e.handle).2 = .inl r) :
    sqTook q s [{ s.takenOf q e ws with status := 16 + r }] (s.takeSend q e ws) := by
  have whole : s.sendHandle (s.fnOf q) e.handle = ((s.sendHandle (s.fnOf q) e.handle).1, .inl r) := Prod.ext rfl no
  have door := s.sendHandle_door (s.fnOf q) e.handle
  rw [State.takeSend_buf room own first, whole]
  exact (sqTook.pass door.1 door.2.1 small).owe _

theorem State.takeSend_hands {buf : Nat} {d : List Byte} (small : q < 16384) (room : s.sendRoom e = true)
    (own : e.buf = true) (first : ∀ v ∈ (s.dq q).taken, v.wait ≠ 1)
    (yes : (s.sendHandle (s.fnOf q) e.handle).2 = .inr buf)
    (read : ((s.sendHandle (s.fnOf q) e.handle).1.celRead 0x14 buf e.len).2 = some d) :
    sqTook q s [s.takenOf q e ws] (s.takeSend q e ws) ∧ handsOn e d s.pipe.nextFid (s.takeSend q e ws) := by
  have door := s.sendHandle_door (s.fnOf q) e.handle
  have whole : s.sendHandle (s.fnOf q) e.handle = ((s.sendHandle (s.fnOf q) e.handle).1, .inr buf) := Prod.ext rfl yes
  have eq := State.takeSend_buf (ws := ws) room own first
  rw [whole] at eq
  generalize (s.sendHandle (s.fnOf q) e.handle).1 = s1 at *
  have whole' : s1.celRead 0x14 buf e.len = ((s1.celRead 0x14 buf e.len).1, some d) := Prod.ext rfl read
  have door' := door.trans (s1.celRead_door 0x14 buf e.len)
  dsimp only at eq
  rw [whole'] at eq
  generalize (s1.celRead 0x14 buf e.len).1 = s2 at *
  dsimp only at eq
  have fid : ((s2.sqPass q).owe q (s.takenOf q e ws)).pipe.nextFid = s.pipe.nextFid :=
    congrArg Pipe.nextFid ((s2.sqPass_stands q).1.trans door'.2.2.1)
  have took := (sqTook.pass door'.1 door'.2.1 small).owe (s.takenOf q e ws)
  rw [eq, ← fid]
  exact ⟨took.after (State.sendHand_writes _ e buf d) (State.sendHand_dwy _ e buf d) small,
    State.sendHand_frame _ e buf d⟩

/-! ## TICKET (R407) -/

theorem State.ticketHandle_door (s : State) (f h : Nat) : doorStands s (s.ticketHandle f h).1 := by
  have checked := s.cupCheck_door (s.handleAddr h) (some (h / 2 ^ 24))
  unfold State.ticketHandle
  rcases c : s.cupCheck (s.handleAddr h) (some (h / 2 ^ 24)) with ⟨t, r | ⟨k, i, r⟩⟩
  all_goals
    rw [c] at checked
    exact checked

theorem State.takeTicket_buf (own : e.buf = true) :
    s.takeTicket q e ws = match s.ticketHandle (s.fnOf q) e.handle with
      | (s1, .inl r) => (s1.sqPass q).owe q { s.takenOf q e ws with status := 0x10 + r }
      | (s1, .inr (buf, shared)) =>
        match s1.celRead 0x14 (buf + 768) (min 512 e.len) with
        | (s2, none) => (s2.sqPass q).owe q { s.takenOf q e ws with status := 3 }
        | (s2, some d) =>
          ((s2.hostTicket q e (s.qPort q) buf shared d).1.sqPass q).owe q
            { s.takenOf q e ws with wait := 2, ticket := (s2.hostTicket q e (s.qPort q) buf shared d).2 } := by
  unfold State.takeTicket
  dsimp only
  rw [if_neg (by simp [own])] <;> rfl

theorem State.takeTicket_refused {r : Nat} (small : q < 16384) (own : e.buf = true)
    (no : (s.ticketHandle (s.fnOf q) e.handle).2 = .inl r) :
    sqTook q s [{ s.takenOf q e ws with status := 16 + r }] (s.takeTicket q e ws) := by
  have whole : s.ticketHandle (s.fnOf q) e.handle = ((s.ticketHandle (s.fnOf q) e.handle).1, .inl r) := Prod.ext rfl no
  have door := s.ticketHandle_door (s.fnOf q) e.handle
  rw [State.takeTicket_buf own, whole]
  exact (sqTook.pass door.1 door.2.1 small).owe _

/-- A handle that passes becomes a host ticket, whose program and owner are the entry's. -/
theorem State.takeTicket_makes {buf : Nat} {shared : Bool} {d : List Byte} (small : q < 16384) (own : e.buf = true)
    (yes : (s.ticketHandle (s.fnOf q) e.handle).2 = .inr (buf, shared))
    (read : ((s.ticketHandle (s.fnOf q) e.handle).1.celRead 0x14 (buf + 768) (min 512 e.len)).2 = some d) :
    let u := s.takeTicket q e ws
    sqTook q s [{ s.takenOf q e ws with wait := 2, ticket := s.lft.nextTicket }] u ∧
      (∃ t : State, u.ticket s.lft.nextTicket = t.hostRecord q e (s.qPort q) buf shared) ∧
      u.lft.nextTicket = s.lft.nextTicket + 1 := by
  intro u
  have door := s.ticketHandle_door (s.fnOf q) e.handle
  have whole : s.ticketHandle (s.fnOf q) e.handle = ((s.ticketHandle (s.fnOf q) e.handle).1, .inr (buf, shared)) :=
    Prod.ext rfl yes
  have eq : u = _ := State.takeTicket_buf own
  rw [whole] at eq
  generalize (s.ticketHandle (s.fnOf q) e.handle).1 = s1 at *
  have whole' : s1.celRead 0x14 (buf + 768) (min 512 e.len) =
      ((s1.celRead 0x14 (buf + 768) (min 512 e.len)).1, some d) := Prod.ext rfl read
  have door' := door.trans (s1.celRead_door 0x14 (buf + 768) (min 512 e.len))
  dsimp only at eq
  rw [whole'] at eq
  generalize (s1.celRead 0x14 (buf + 768) (min 512 e.len)).1 = s2 at *
  dsimp only at eq
  obtain ⟨name, record, next, regs, dwy⟩ := s2.hostTicket_shows q e (s.qPort q) buf shared d
  rw [door'.2.2.2] at name record next
  have took := (sqTook.pass (door'.1.trans regs) (dwy.trans door'.2.1) small).owe
    { s.takenOf q e ws with wait := 2, ticket := s.lft.nextTicket }
  rw [name] at eq
  have lft : u.lft = (s2.hostTicket q e (s.qPort q) buf shared d).1.lft := by
    rw [eq, State.owe, State.lft_setDq, (State.sqPass_stands _ q).2.1]
  refine ⟨?_, ⟨s2, ?_⟩, ?_⟩
  · rw [eq]
    exact took
  · rw [State.ticket_congr lft, record]
  · rw [lft, next]

/-! ## ENTRY_FETCH (R408) -/

/-- A posted entry can be fetched. -/
def State.fetchDue (s : State) (q : Nat) : Prop :=
  s.qState q = 1 ∧ (s.qKind q ≠ 3 ∨ s.qCopy q = true) ∧ (s.dq q).prefetch.length < s.sqPosted q ∧
    (s.dq q).prefetch.length < 64

/-- The words of an entry. -/
def State.entryWords (s : State) (q : Nat) : Nat := if s.qGen q = 1 then 8 else 16

/-- Where the next entry stands. -/
def State.entryAddr (s : State) (q : Nat) : Nat :=
  s.rd64 (dwySqBaseLo q) + 4 * s.entryWords q * ((s.sqCi q + (s.dq q).prefetch.length) % 65536 % s.sqSize q)

/-- A queue with one entry more prefetched. -/
def State.entryFetched (t s : State) (q : Nat) (words : List Word) : State :=
  t.setDq q { s.dq q with prefetch := (s.dq q).prefetch ++ [words] }

theorem exec_entryFetch (q : Nat) (words : List Word) (s : State) : exec (.entryFetch q words) s =
    if s.qState q ≠ 1 ∨ (s.qKind q = 3 ∧ !(s.qCopy q)) ∨ s.sqPosted q ≤ (s.dq q).prefetch.length ∨
        64 ≤ (s.dq q).prefetch.length then .next s
    else if s.sqWindow q then
      match s.celRead 0x14 (s.entryAddr q) (4 * s.entryWords q) with
      | (s1, some bs) =>
        .next (s1.entryFetched s q ((upto (s.entryWords q)).map fun k => BitVec.ofNat 32 (leNat (slice bs (4 * k) 4))))
      | (s1, none) => .next s1
    else if s.fnAway (s.fnOf q) then .next s
    else .next ((s.emit (.hostRead (s.entryAddr q) (4 * s.entryWords q))).entryFetched s q
      ((upto (s.entryWords q)).map fun k => words.getD k 0)) := rfl

theorem State.fetchDue_iff : ¬(s.qState q ≠ 1 ∨ (s.qKind q = 3 ∧ !(s.qCopy q)) ∨ s.sqPosted q ≤ (s.dq q).prefetch.length ∨
    64 ≤ (s.dq q).prefetch.length) ↔ s.fetchDue q := by
  cases copy : s.qCopy q <;> simp [State.fetchDue, copy, not_or]

variable {words : List Word}

theorem exec_entryFetch_idle (no : ¬s.fetchDue q ∨ (s.sqWindow q = false ∧ s.fnAway (s.fnOf q) = true)) :
    exec (.entryFetch q words) s = .next s := by
  rw [exec_entryFetch]
  split
  · rfl
  · rename_i due
    obtain ⟨host, away⟩ := no.resolve_left (fun h => h (State.fetchDue_iff.1 due))
    rw [if_neg (by simp [host]), if_pos away]

theorem exec_entryFetch_host (due : s.fetchDue q) (host : s.sqWindow q = false) (here : s.fnAway (s.fnOf q) = false) :
    ∃ u, exec (.entryFetch q words) s = .next u ∧
      (u.dq q).prefetch = (s.dq q).prefetch ++ [(upto (s.entryWords q)).map fun k => words.getD k 0] ∧
      u.outbox = s.outbox ++ [.hostRead (s.entryAddr q) (4 * s.entryWords q)] ∧ onlyIn [.dwy, .outbox] s u := by
  have out : exec (.entryFetch q words) s = .next ((s.emit (.hostRead (s.entryAddr q) (4 * s.entryWords q))).entryFetched s q
      ((upto (s.entryWords q)).map fun k => words.getD k 0)) := by
    rw [exec_entryFetch, if_neg (State.fetchDue_iff.2 due), if_neg (by simp [host]), if_neg (by simp [here])]
  exact ⟨_, out, by rw [State.entryFetched, State.dq_setDq], rfl,
    ((State.setDq_keeps _ _ _).after rfl ((s.emit_keeps _).mono rfl)).same⟩

theorem exec_entryFetch_window (due : s.fetchDue q) (window : s.sqWindow q = true) :
    exec (.entryFetch q words) s = match s.celRead 0x14 (s.entryAddr q) (4 * s.entryWords q) with
      | (s1, some bs) =>
        .next (s1.entryFetched s q ((upto (s.entryWords q)).map fun k => BitVec.ofNat 32 (leNat (slice bs (4 * k) 4))))
      | (s1, none) => .next s1 := by
  rw [exec_entryFetch, if_neg (State.fetchDue_iff.2 due), if_pos window]

theorem exec_entryFetch_poisoned (due : s.fetchDue q) (window : s.sqWindow q = true)
    (bad : (s.celRead 0x14 (s.entryAddr q) (4 * s.entryWords q)).2 = none) :
    ∃ u, exec (.entryFetch q words) s = .next u ∧ u.dwy = s.dwy := by
  have whole : s.celRead 0x14 (s.entryAddr q) (4 * s.entryWords q) =
      ((s.celRead 0x14 (s.entryAddr q) (4 * s.entryWords q)).1, none) := Prod.ext rfl bad
  refine ⟨_, ?_, (s.celRead_door 0x14 (s.entryAddr q) (4 * s.entryWords q)).2.1⟩
  rw [exec_entryFetch_window due window, whole]

theorem exec_entryFetch_reads {bs : List Byte} (due : s.fetchDue q) (window : s.sqWindow q = true)
    (good : (s.celRead 0x14 (s.entryAddr q) (4 * s.entryWords q)).2 = some bs) :
    ∃ u, exec (.entryFetch q words) s = .next u ∧ (u.dq q).prefetch = (s.dq q).prefetch ++
      [(upto (s.entryWords q)).map fun k => BitVec.ofNat 32 (leNat (slice bs (4 * k) 4))] := by
  have whole : s.celRead 0x14 (s.entryAddr q) (4 * s.entryWords q) =
      ((s.celRead 0x14 (s.entryAddr q) (4 * s.entryWords q)).1, some bs) := Prod.ext rfl good
  have out : exec (.entryFetch q words) s = .next ((s.celRead 0x14 (s.entryAddr q) (4 * s.entryWords q)).1.entryFetched s q
      ((upto (s.entryWords q)).map fun k => BitVec.ofNat 32 (leNat (slice bs (4 * k) 4)))) := by
    rw [exec_entryFetch_window due window, whole]
  exact ⟨_, out, by rw [State.entryFetched, State.dq_setDq]⟩

end

/-! ## HOST_DMA_COMPLETION (R407, R413) -/

section
variable {idx : Nat} {data : Option (List Byte × Bool)} {t : Taken} {bs : List Byte}

/-- The oldest entry that waits for host memory. -/
def State.waiting (s : State) (q : Nat) : Option Taken := (s.dq q).taken.find? fun t => t.wait == 1

/-- The entry that waited has failed. -/
def State.dmaFails (s : State) (q : Nat) (t : Taken) : State :=
  (s.setDq q { s.dq q with
    taken := setWaiting (fun u => { u with wait := 0, status := 2, buf := 0 }) (s.dq q).taken }).hwFree t.buf

/-- The data of a TICKET makes a host ticket. -/
def State.dmaTicket (s : State) (q : Nat) (t : Taken) (bs : List Byte) : State :=
  let d := slice bs 0 t.entry.len
  let r := (s.celWrite 0x14 (t.buf + 768) d).hostTicket q t.entry t.inPort t.buf false d
  r.1.setDq q { s.dq q with
    taken := setWaiting (fun u => { u with wait := 2, buf := 0, ticket := r.2 }) (s.dq q).taken }

/-- The data of a SEND's frame goes on. -/
def State.dmaSend (s : State) (q : Nat) (t : Taken) (bs : List Byte) : State :=
  let d := slice bs 0 t.entry.len
  let s1 := (s.celWrite 0x14 t.buf d).sendHand t.entry t.buf d
  s1.setDq q { s1.dq q with taken := setWaiting (fun u => { u with wait := 0, buf := 0 }) (s.dq q).taken }

theorem exec_hostDmaCompletion (q idx : Nat) (data : Option (List Byte × Bool)) (s : State) :
    exec (.hostDmaCompletion q idx data) s = match s.waiting q with
      | none => .next s
      | some t =>
        if t.idx ≠ idx then .next s
        else match data with
          | none => .next (s.dmaFails q t)
          | some (bytes, poison) =>
            if poison then .next (s.dmaFails q t)
            else if t.entry.typ = 2 then .next (s.dmaTicket q t bytes)
            else if !(s.sendRoom t.entry) then .next s
            else .next (s.dmaSend q t bytes) := rfl

theorem exec_hostDmaCompletion_none (no : ∀ t, s.waiting q = some t → t.idx ≠ idx) :
    exec (.hostDmaCompletion q idx data) s = .next s := by
  rw [exec_hostDmaCompletion]
  rcases h : s.waiting q with _ | t
  · rfl
  · exact if_pos (no t h)

section
variable (waits : s.waiting q = some t) (own : t.idx = idx)
include waits own

theorem exec_hostDmaCompletion_fails (bad : data = none ∨ ∃ bs, data = some (bs, true)) :
    ∃ u, exec (.hostDmaCompletion q idx data) s = .next u ∧
      (u.dq q).taken = setWaiting (fun v => { v with wait := 0, status := 2, buf := 0 }) (s.dq q).taken := by
  have out : exec (.hostDmaCompletion q idx data) s = .next (s.dmaFails q t) := by
    rw [exec_hostDmaCompletion, waits]
    dsimp only
    rw [if_neg (by simp [own])]
    rcases bad with rfl | ⟨bs, rfl⟩ <;> rfl
  refine ⟨_, out, ?_⟩
  rw [State.dmaFails, State.dq_congr _ (State.hwFree_door _ t.buf).2.1, State.dq_setDq]

theorem exec_hostDmaCompletion_ticket (ticket : t.entry.typ = 2) :
    ∃ u, exec (.hostDmaCompletion q idx (some (bs, false))) s = .next u ∧
      (u.dq q).taken = setWaiting (fun v => { v with wait := 2, buf := 0, ticket := s.lft.nextTicket }) (s.dq q).taken ∧
      ∃ v : State, u.ticket s.lft.nextTicket = v.hostRecord q t.entry t.inPort t.buf false := by
  have out : exec (.hostDmaCompletion q idx (some (bs, false))) s = .next (s.dmaTicket q t bs) := by
    rw [exec_hostDmaCompletion, waits]
    dsimp only
    rw [if_neg (by simp [own]), if_neg (by decide), if_pos ticket]
  have door := s.celWrite_door 0x14 (t.buf + 768) (slice bs 0 t.entry.len)
  generalize written : s.celWrite 0x14 (t.buf + 768) (slice bs 0 t.entry.len) = v at *
  obtain ⟨name, record, -⟩ := v.hostTicket_shows q t.entry t.inPort t.buf false (slice bs 0 t.entry.len)
  rw [door.2.2.2] at name record
  refine ⟨_, out, ?_, v, ?_⟩
  · rw [State.dmaTicket, State.dq_setDq, written, name]
  · rw [State.dmaTicket, written, State.ticket_congr (State.lft_setDq _ _ _), record]

theorem exec_hostDmaCompletion_full (send : t.entry.typ ≠ 2) (full : s.sendRoom t.entry = false) :
    exec (.hostDmaCompletion q idx (some (bs, false))) s = .next s := by
  rw [exec_hostDmaCompletion, waits]
  dsimp only
  rw [if_neg (by simp [own]), if_neg (by decide), if_neg send, if_pos (by simp [full])]

theorem exec_hostDmaCompletion_hands (send : t.entry.typ ≠ 2) (room : s.sendRoom t.entry = true) :
    ∃ u, exec (.hostDmaCompletion q idx (some (bs, false))) s = .next u ∧
      (u.dq q).taken = setWaiting (fun v => { v with wait := 0, buf := 0 }) (s.dq q).taken ∧
      handsOn t.entry (slice bs 0 t.entry.len) s.pipe.nextFid u := by
  have out : exec (.hostDmaCompletion q idx (some (bs, false))) s = .next (s.dmaSend q t bs) := by
    rw [exec_hostDmaCompletion, waits]
    dsimp only
    rw [if_neg (by simp [own]), if_neg (by decide), if_neg send, if_neg (by simp [room])]
  have fid : (s.celWrite 0x14 t.buf (slice bs 0 t.entry.len)).pipe.nextFid = s.pipe.nextFid :=
    congrArg Pipe.nextFid (s.celWrite_door 0x14 t.buf (slice bs 0 t.entry.len)).2.2.1
  have frame := State.sendHand_frame (s.celWrite 0x14 t.buf (slice bs 0 t.entry.len)) t.entry t.buf
    (slice bs 0 t.entry.len)
  rw [fid] at frame
  refine ⟨_, out, ?_, ?_⟩
  · rw [State.dmaSend, State.dq_setDq]
  · rw [State.dmaSend]
    exact frame

end

end

end

end Sys2Proof.Machine

section
open Sys2Proof Sys2Proof.Machine

/-- Settles O47: each taking step by the branch its hypotheses leave, then the fetch and the data that comes back. -/
theorem doorwayEntriesTakenAndFetched : Obligations.DoorwayEntriesTakenAndFetched := by
  refine ⟨fun q s small => ⟨fun idle => ?_, fun ws rest front runs room => ?_⟩, fun q words s small =>
    ⟨fun no => ?_, ?_, fun due window => ⟨?_, ?_⟩⟩, fun q idx s => ⟨fun data no => exec_hostDmaCompletion_none no,
    fun t waits own => ⟨fun data bad => exec_hostDmaCompletion_fails waits own bad, fun bs ticket => ?_,
    fun bs send full => exec_hostDmaCompletion_full waits own send full, fun bs send room direct => ?_⟩⟩⟩
  · refine exec_takers_idle (idle.imp_right (.imp_right fun h => ?_))
    exact Bool.eq_false_iff.2 fun room => h ((s.cmplRoom_iff q).1 room)
  · have room' := (s.cmplRoom_iff q).2 room
    have drop : (s.dq q).prefetch.drop 1 = rest := by rw [front]; rfl
    have took {u : State} {l : List Taken} (h : sqTook q s l u) : (u.dq q).prefetch = rest ∧
        u.sqCi q = (s.sqCi q + 1) % 65536 ∧ (u.dq q).taken = (s.dq q).taken ++ l := ⟨h.1.trans drop, h.2⟩
    refine ⟨fun p mem other => exec_taker_other front mem other,
      fun p mem own bad gen => exec_taker_stops front runs room' mem own bad gen small,
      fun p mem own bad gen => exec_taker_halts front runs room' mem own bad gen, fun good nop => ?_, fun good recv => ?_,
      fun p mem own good => ?_, fun good ticket own => ?_⟩
    · obtain ⟨u, out, h, kept⟩ := exec_nopEntry_takes front runs room' good small nop
      exact ⟨u, out, took h, kept⟩
    · obtain ⟨u, out, h, list, kept⟩ := exec_recvEntry_takes front runs room' good small recv
      exact ⟨u, out, took h, list, kept⟩
    · have out := exec_send front runs room' good mem own
      refine ⟨fun full => ?_, fun slot host => ⟨fun away => ?_, fun here none_ => ?_, fun k b buf here fit can grant => ?_⟩,
        fun slot buffer first => ⟨fun r no => ?_, fun buf d yes read => ?_⟩⟩
      · rw [out, State.takeSend_full full]
      · rw [out, State.takeSend_draws slot host, State.takeDraw_away away]
      · rw [State.takeSend_draws slot host, State.takeDraw_none here none_] at out
        exact ⟨_, out, s.poolWait_waits small⟩
      · rw [State.takeSend_draws slot host] at out
        obtain ⟨h, outbox⟩ := State.takeDraw_took (e := s.entryOf q ws) (ws := ws) small here fit can grant
        exact ⟨_, out, took h, outbox⟩
      · exact ⟨_, out, took (State.takeSend_refused small slot buffer first no)⟩
      · obtain ⟨h, frame⟩ := State.takeSend_hands (ws := ws) small slot buffer first yes read
        exact ⟨_, out, took h, frame⟩
    · have out := exec_ticketEntry front runs room' good ticket
      refine ⟨fun r no => ⟨_, out, took (State.takeTicket_refused small own no)⟩, fun buf sh d yes read => ?_⟩
      obtain ⟨h, ⟨t, record⟩, next⟩ := State.takeTicket_makes (ws := ws) small own yes read
      exact ⟨_, out, took h, by rw [record]; rfl, by rw [record]; rfl, by rw [record]; rfl, by rw [record]; rfl,
        by rw [record]; rfl, next⟩
  · exact exec_entryFetch_idle no
  · exact fun due host here => exec_entryFetch_host due host here
  · exact fun bad => exec_entryFetch_poisoned due window bad
  · exact fun bs good => exec_entryFetch_reads due window good
  · obtain ⟨u, out, taken, v, record⟩ := exec_hostDmaCompletion_ticket (bs := bs) waits own ticket
    exact ⟨u, out, taken, by rw [record]; rfl, by rw [record]; rfl, by rw [record]; rfl, by rw [record]; rfl⟩
  · obtain ⟨u, out, taken, frame, -⟩ := exec_hostDmaCompletion_hands (bs := bs) waits own send room
    exact ⟨u, out, taken, frame direct⟩

end

/-! PROOFS. The boot flash: what it holds after a write, an erasure and a program, and its commands (R464, R484). -/

namespace Sys2Proof.Machine

/-! ## Bytes of a memory -/

/-- The byte at an address of a memory after an erasure. -/
theorem tget_memErase (d : Byte) (m : Tbl Byte) (a n x : Nat) :
    tget d (memErase m a n) x = if a ≤ x ∧ x < a + n then d else tget d m x := by
  rw [tget, memErase, tfind_tclear]
  split
  · rfl
  · rfl

theorem length_memRead (d : Byte) (m : Tbl Byte) (a n : Nat) : (memRead d m a n).length = n := by simp [memRead, upto]

theorem getElem_memRead (d : Byte) (m : Tbl Byte) (a n j : Nat) (hj : j < (memRead d m a n).length) :
    (memRead d m a n)[j] = tget d m (a + j) := by simp [memRead, upto]

/-- What a memory holds from an address on, where its bytes are known. -/
theorem memRead_of_bytes {d : Byte} {m : Tbl Byte} {a n : Nat} {bs : List Byte} (length : bs.length = n)
    (same : ∀ j (hj : j < bs.length), tget d m (a + j) = bs[j]) : memRead d m a n = bs :=
  List.ext_getElem ((length_memRead d m a n).trans length.symm) fun j _ hk =>
    (getElem_memRead d m a n j _).trans (same j hk)

/-- Byte j of a number. -/
theorem getElem_natLe (n v j : Nat) (hj : j < (natLe n v).length) : (natLe n v)[j] = BitVec.ofNat 8 (v / 256 ^ j) := by
  induction n generalizing v j with
  | zero => exact absurd hj (by simp [natLe])
  | succ n ih =>
    cases j with
    | zero => simp [natLe]
    | succ j =>
      have below : j < (natLe n (v / 256)).length := by simpa [natLe] using hj
      have byte := ih (v / 256) j below
      rw [Nat.div_div_eq_div_mul, ← Nat.pow_succ'] at byte
      simpa [natLe] using byte

theorem leNat_drop (bs : List Byte) (k : Nat) : leNat (bs.drop k) = leNat bs / 256 ^ k := by
  induction k generalizing bs with
  | zero => simp
  | succ k ih =>
    cases bs with
    | nil => simp [leNat]
    | cons b bs =>
      have := b.isLt
      have rest : leNat (b :: bs) / 256 = leNat bs := by rw [leNat]; omega
      rw [List.drop_succ_cons, ih, Nat.pow_succ', ← Nat.div_div_eq_div_mul, rest]

theorem leNat_take (bs : List Byte) (k : Nat) : leNat (bs.take k) = leNat bs % 256 ^ k := by
  induction k generalizing bs with
  | zero => simp [leNat, Nat.mod_one]
  | succ k ih =>
    cases bs with
    | nil => simp [leNat]
    | cons b bs =>
      have := b.isLt
      have rest : (b.toNat + 256 * leNat bs) / 256 = leNat bs := by omega
      rw [List.take_succ_cons, leNat, leNat, ih, Nat.pow_succ', Nat.mod_mul, rest]
      omega

theorem drop_take_memRead (d : Byte) (m : Tbl Byte) (a : Nat) {k n l : Nat} (le : k + n ≤ l) :
    ((memRead d m a l).drop k).take n = memRead d m (a + k) n := by
  refine List.ext_getElem (by simp [length_memRead]; omega) fun j _ _ => ?_
  rw [List.getElem_take, List.getElem_drop, getElem_memRead, getElem_memRead, Nat.add_assoc]

/-! ## The flash -/

section
variable (s : State) (a : Nat) (bs : List Byte)

/-- The byte at an address of the flash. -/
def State.flashAt (s : State) (x : Nat) : Byte := tget flashErased s.attic.flash x

theorem State.flashAt_flashErase (n x : Nat) :
    (s.flashErase a n).flashAt x = if a ≤ x ∧ x < a + n then flashErased else s.flashAt x :=
  tget_memErase flashErased s.attic.flash a n x

theorem State.flashAt_flashPut (x : Nat) :
    (s.flashPut a bs).flashAt x = if a ≤ x ∧ x < a + bs.length then bs.getD (x - a) 0 else s.flashAt x :=
  tget_memWrite flashErased s.attic.flash a bs x

theorem State.length_flashRead (n : Nat) : (s.flashRead a n).length = n := length_memRead _ _ _ _

/-- A program leaves the bytes beyond it. -/
theorem State.flashAt_flashProgram_out {x : Nat} (out : x < a ∨ a + bs.length ≤ x) :
    (s.flashProgram a bs).flashAt x = s.flashAt x := by
  rw [State.flashProgram, State.flashAt_flashPut, if_neg]
  rw [List.length_zipWith, State.length_flashRead, Nat.min_self]
  omega

/-- A program clears bits of the bytes it reaches. -/
theorem State.flashAt_flashProgram_in {j : Nat} (hj : j < bs.length) :
    (s.flashProgram a bs).flashAt (a + j) = s.flashAt (a + j) &&& bs[j] := by
  have length : (List.zipWith (· &&& ·) (s.flashRead a bs.length) bs).length = bs.length := by
    rw [List.length_zipWith, State.length_flashRead, Nat.min_self]
  have inside : a + j - a = j := by omega
  rw [State.flashProgram, State.flashAt_flashPut, if_pos (by omega), inside,
    List.getD_eq_getElem _ _ (by omega), List.getElem_zipWith]
  exact congrArg (· &&& bs[j]) (getElem_memRead _ _ _ _ _ _)

/-- A program of erased bytes writes what it is given. -/
theorem State.flashRead_program_erased (n : Nat) (le : bs.length ≤ n) :
    ((s.flashErase a n).flashProgram a bs).flashRead a bs.length = bs := by
  refine memRead_of_bytes rfl fun j hj => ?_
  have byte := (s.flashErase a n).flashAt_flashProgram_in a bs hj
  rw [State.flashAt_flashErase, if_pos (by omega)] at byte
  exact byte.trans (BitVec.allOnes_and (x := bs[j]))

/-- What fails leaves the bytes beyond it. -/
theorem State.flashAt_flashSpoil (n : Nat) {x : Nat} (out : x < a ∨ a + n ≤ x) :
    (s.flashSpoil a n).flashAt x = s.flashAt x := by
  rw [State.flashSpoil, State.flashAt_flashPut, if_neg (by rw [length_natLe]; omega)]
  rfl

end

/-! ## A flash command is given (R484) -/

theorem regAt_atcFlCmd : regAt atcFlCmd = some ({ base := 0x00000030, rw := 0x7fffffff }, 0, 0) := rfl

/-- The fields of the word that a flash command writes. -/
theorem fld_flWord {op a : Nat} (hop : op < 8) (ha : a < 2 ^ 28) :
    fld (flWord op a) 30 28 = op ∧ fld (flWord op a) 27 0 = a := by
  unfold fld flWord bits
  rw [BitVec.toNat_ofNat]
  constructor <;> omega

section
variable {s : State} {op a : Nat}

/-- OP and ADDR of a flash command in their register. -/
def State.flGiven (s : State) (op a : Nat) : State := s.plainWrite atcFlCmd (flWord op a)

/-- A flash command comes to be in hand. -/
def State.inHand (g : State) (op a : Nat) : State :=
  { g.setB atcFlCmd 31 with attic := { g.attic with flCmd := some (op, a) } }

theorem State.inHand_shows (g : State) (op a : Nat) : let u := g.inHand op a
    u.rb atcFlCmd 31 = true ∧ u.attic = { g.attic with flCmd := some (op, a) } ∧ onlyIn [.regs, .attic] g u := by
  refine ⟨g.rb_setB atcFlCmd 31 (by decide), rfl, fun p out => ?_⟩
  cases p with
  | regs | attic => exact absurd (by decide) out
  | _ => rfl

/-- What a flash command does that finds none in hand. -/
theorem State.flCmdWrite_idle (hop : 0 < op ∧ op < 5) (ha : a < 2 ^ 28) (idle : s.rb atcFlCmd 31 = false) :
    s.flCmdWrite (flWord op a) =
      if !(s.stage = 8 ∨ s.stage = 9 ∨ s.stage = 10) then (s.flGiven op a).wf atcFlStatus 31 24 5
      else if a % flUnit op ≠ 0 then (s.flGiven op a).wf atcFlStatus 31 24 2
      else if s.flashSize < a + flUnit op then (s.flGiven op a).wf atcFlStatus 31 24 3
      else if s.flProtected a (flUnit op) then (s.flGiven op a).wf atcFlStatus 31 24 1
      else (s.flGiven op a).inHand op a := by
  obtain ⟨code, addr⟩ := fld_flWord (op := op) (by omega) ha
  rw [State.flGiven]
  generalize flWord op a = v at *
  rw [State.flCmdWrite, code, addr, idle, if_neg Bool.false_ne_true, if_neg (by omega)]
  dsimp only
  rw [if_neg (by omega)]
  rfl

theorem State.flGiven_idle (idle : s.rb atcFlCmd 31 = false) : (s.flGiven op a).rb atcFlCmd 31 = false :=
  (s.rb_plainWrite regAt_atcFlCmd _ (by decide)).trans idle

theorem State.attic_flGiven (s : State) (op a : Nat) : (s.flGiven op a).attic = s.attic :=
  (s.plainWrite_keeps _ _).same .attic (by decide)

theorem State.flGiven_keeps (s : State) (op a : Nat) : Keeps [.regs] s (s.flGiven op a) := s.plainWrite_keeps _ _

/-- A flash command that is refused. -/
theorem State.flGiven_refused (idle : s.rb atcFlCmd 31 = false) {r : Nat} (hr : r < 256) :
    let u := (s.flGiven op a).wf atcFlStatus 31 24 r
    u.rf atcFlStatus 31 24 = r ∧ u.rb atcFlCmd 31 = false ∧ onlyIn [.regs] s u := by
  refine ⟨State.rf_wf_fits _ _ (by decide) (by decide) hr, ?_, ?_⟩
  · rw [State.rb, State.rd_wf_ne _ _ _ _ (by decide)]
    exact State.flGiven_idle idle
  · exact ((s.plainWrite_keeps _ _).trans ((s.flGiven op a).wf_keeps _ _ _ _)).same

end

/-! ## A flash command ends (R484) -/

theorem State.rdWide_succ (s : State) (a n : Nat) : s.rdWide a (n + 1) = s.rdN a + 2 ^ 32 * s.rdWide (a + 4) n := by
  unfold State.rdWide upto
  rw [List.range_succ_eq_map, List.foldr_cons, List.foldr_map]
  have step (i : Nat) : a + 4 * (i + 1) = a + 4 + 4 * i := by omega
  simp only [step, Nat.mul_zero, Nat.add_zero]

/-- Word i of a number that stands over registers. -/
theorem State.rdWide_word (s : State) (a : Nat) {i n : Nat} (hi : i < n) :
    s.rdWide a n / 2 ^ (32 * i) % 2 ^ 32 = s.rdN (a + 4 * i) := by
  induction n generalizing a i with
  | zero => exact absurd hi (Nat.not_lt_zero i)
  | succ n ih =>
    have first : s.rdN a < 2 ^ 32 := (s.rd a).isLt
    rw [State.rdWide_succ]
    cases i with
    | zero =>
      rw [Nat.mul_zero, Nat.pow_zero, Nat.div_one, Nat.add_mul_mod_self_left, Nat.mod_eq_of_lt first,
        Nat.add_zero]
    | succ i =>
      have rest : (s.rdN a + 2 ^ 32 * s.rdWide (a + 4) n) / 2 ^ 32 = s.rdWide (a + 4) n := by omega
      have place : a + 4 + 4 * i = a + 4 * (i + 1) := by omega
      rw [show 32 * (i + 1) = 32 + 32 * i by omega, Nat.pow_add, ← Nat.div_div_eq_div_mul, rest, ih (a + 4) (by omega), place]

/-- Byte j of a number that stands over registers. -/
theorem State.byte_rdWide (s : State) (a n j : Nat) (hj : j / 4 < n) :
    BitVec.ofNat 8 (s.rdWide a n / 256 ^ j) = BitVec.ofNat 8 (s.rdN (a + 4 * (j / 4)) / 2 ^ (8 * (j % 4))) := by
  have word := s.rdWide_word a hj
  have place : (256 : Nat) ^ j = 2 ^ (32 * (j / 4)) * 2 ^ (8 * (j % 4)) := by
    rw [← Nat.pow_add, show (256 : Nat) = 2 ^ 8 from rfl, ← Nat.pow_mul]
    congr 1
    omega
  refine BitVec.eq_of_toNat_eq ?_
  rw [BitVec.toNat_ofNat, BitVec.toNat_ofNat, place, ← Nat.div_div_eq_div_mul, ← word]
  generalize s.rdWide a n / 2 ^ (32 * (j / 4)) = y
  have small : j % 4 = 0 ∨ j % 4 = 1 ∨ j % 4 = 2 ∨ j % 4 = 3 := by omega
  rcases small with e | e | e | e <;> rw [e] <;> omega

section
variable (s : State) (op a : Nat) (ok : Bool)

/-- What a flash command leaves beyond its unit. -/
theorem State.flashAt_flPerform_out {x : Nat} (out : x < a ∨ a + flUnit op ≤ x) :
    (s.flPerform op a ok).flashAt x = s.flashAt x := by
  have erased (n : Nat) (beyond : x < a ∨ a + n ≤ x) : (s.flashErase a n).flashAt x = s.flashAt x := by
    rw [State.flashAt_flashErase, if_neg (by omega)]
  unfold State.flPerform
  split
  · rfl
  · exact s.flashAt_flashProgram_out a _ (by rw [length_natLe]; exact out)
  · rfl
  · exact s.flashAt_flashSpoil a 256 out
  · exact erased _ out
  · exact s.flashAt_flashSpoil a _ out

/-- A word of what a read of the flash gives. -/
theorem State.rd_flPerform_read {j : Nat} (hj : j < 64) :
    ((s.flPerform 1 a true).rd (atcFlData j)).toNat = leNat (s.flashRead (a + 4 * j) 4) := by
  have word := s.rdN_wrWide (atcFlData 0) (leNat (s.flashRead a 256)) hj
  have place : atcFlData 0 + 4 * j = atcFlData j := by unfold atcFlData; omega
  have power : (2 : Nat) ^ (32 * j) = 256 ^ (4 * j) := by
    rw [show (256 : Nat) = 2 ^ 8 from rfl, ← Nat.pow_mul]
    congr 1
    omega
  rw [place, power, ← leNat_drop, show (2 : Nat) ^ 32 = 256 ^ 4 from rfl, ← leNat_take, State.flashRead,
    drop_take_memRead _ _ _ (by omega)] at word
  exact word

/-- A byte that is programmed loses the bits that are 0 in ATC_FL_DATA. -/
theorem State.flashAt_flPerform_program {j : Nat} (hj : j < 256) :
    (s.flPerform 2 a true).flashAt (a + j) =
      s.flashAt (a + j) &&& BitVec.ofNat 8 ((s.rd (atcFlData (j / 4))).toNat / 2 ^ (8 * (j % 4))) := by
  have inside : j < (natLe 256 (s.rdWide (atcFlData 0) 64)).length := by rwa [length_natLe]
  have byte := s.flashAt_flashProgram_in a _ inside
  have place : atcFlData 0 + 4 * (j / 4) = atcFlData (j / 4) := by unfold atcFlData; omega
  rw [getElem_natLe, s.byte_rdWide _ _ _ (by omega), place] at byte
  exact byte

theorem State.flashAt_flPerform_erase (h : op = 3 ∨ op = 4) {x : Nat} (lo : a ≤ x) (hi : x < a + flUnit op) :
    (s.flPerform op a true).flashAt x = flashErased := by
  have erases : s.flPerform op a true = s.flashErase a (flUnit op) := by
    rcases h with rfl | rfl <;> rfl
  rw [erases, State.flashAt_flashErase, if_pos ⟨lo, hi⟩]

theorem State.attic_flPerform_read : (s.flPerform 1 a ok).attic = s.attic := by
  cases ok
  · rfl
  · exact (s.wrWide_keeps _ _ _).same .attic (by decide)

/-- What stands as a command has ended, but for a restart that waited for it. -/
def State.flEnded (s : State) (op a : Nat) (ok : Bool) : State :=
  let s1 := (((s.flPerform op a ok).putB atcFlCmd 31 false).wf atcFlStatus 31 24 (if ok then 0 else 4)).pulse 1348
  { s1 with attic := { s1.attic with flCmd := none, restartDeferred := false } }

theorem exec_flashCommandEnd {s : State} {op a : Nat} (h : s.attic.flCmd = some (op, a)) (ok : Bool) :
    exec (.flashCommandEnd ok) s =
      .next (if s.attic.restartDeferred then (s.flEnded op a ok).restart else s.flEnded op a ok) := by
  have whole : exec (.flashCommandEnd ok) s = execFlashCommandEnd ok s := rfl
  rw [whole, execFlashCommandEnd, h]
  rfl

theorem State.flash_flEnded : (s.flEnded op a ok).attic.flash = (s.flPerform op a ok).attic.flash := rfl

theorem State.rd_flEnded {b : Nat} (cmd : b ≠ atcFlCmd) (status : b ≠ atcFlStatus) :
    (s.flEnded op a ok).rd b = (s.flPerform op a ok).rd b := by
  have shown := ((s.flPerform op a ok).putB atcFlCmd 31 false).rd_wf_ne 31 24 (if ok then 0 else 4) status
  exact shown.trans ((s.flPerform op a ok).rd_putB_ne 31 false cmd)

theorem State.flEnded_shows : let u := s.flEnded op a ok
    u.rb atcFlCmd 31 = false ∧ shas u.bell.pulses 1348 = true ∧ u.rf atcFlStatus 31 24 = if ok then 0 else 4 := by
  refine ⟨?_, shas_sadd_same _ _, ?_⟩
  · have idle := (s.flPerform op a ok).rb_putB atcFlCmd 31 false (by decide)
    have shown := ((s.flPerform op a ok).putB atcFlCmd 31 false).rd_wf_ne 31 24 (if ok then 0 else 4)
      (show atcFlCmd ≠ atcFlStatus by decide)
    rw [State.rb, ← shown] at idle
    exact idle
  · have fits : (if ok then 0 else 4) < 2 ^ (31 + 1 - 24) := by cases ok <;> decide
    exact State.rf_wf_fits _ atcFlStatus (by decide) (by decide) fits

end

end Sys2Proof.Machine

/-! PROOFS. What a cold start and a device restart leave (R495, R497). -/

namespace Sys2Proof.Machine

/-! ## The registers that straps, fuses and the flash give (R501) -/

/-- The registers that every start of the part writes. -/
def bootShown : List Nat := [atcStraps, atcFuse, atcFlStatus, atcBootStatus]

section
variable (s : State)

theorem State.rd_fuseShow_ne {a : Nat} (ne : a ≠ atcFuse) : s.fuseShow.rd a = s.rd a := s.rd_wrN_ne _ ne

theorem State.rd_bootRegs_ne (stage cause : Nat) {a : Nat} (out : a ∉ bootShown) :
    (s.bootRegs stage cause).rd a = s.rd a := by
  simp only [bootShown, List.mem_cons, List.not_mem_nil, or_false, not_or] at out
  obtain ⟨straps, fuse, flash, status⟩ := out
  rw [State.bootRegs, State.rd_wrN_ne _ _ status, State.rd_wf_ne _ _ _ _ flash, State.rd_fuseShow_ne _ fuse,
    State.rd_wrN_ne _ _ straps]

/-- A start shows its stage and its cause. -/
theorem State.bootRegs_shows {stage cause : Nat} (hs : stage < 16) (hc : cause < 16) :
    let u := s.bootRegs stage cause
    u.stage = stage ∧ u.rf atcBootStatus 23 20 = cause := by
  have shown : (s.bootRegs stage cause).rd atcBootStatus = BitVec.ofNat 32 (stage * 2 ^ 28 + cause * 2 ^ 20) :=
    State.rd_wrN _ _ _
  simp only [State.stage, State.rf, shown, fld, bits, BitVec.toNat_ofNat]
  omega

end

/-! ## A cold start -/

section
variable (s : State) (sl fl : Nat) (tm : Bool)

/-- The part at reset, with the flash as the cut of a command leaves it, and the pins. -/
def State.coldBlank (s : State) (sl fl : Nat) (tm : Bool) : State :=
  let b := s.flashCut.blank
  { b with attic := { b.attic with testPin := tm, strapSlot := sl % 4, strapFlash := fl % 4 } }

theorem State.coldStart_eq : s.coldStart sl fl tm = (s.coldBlank sl fl tm).bootRegs 1 0 := rfl

/-- What the cut of a flash command leaves of the fuses, and of the flash where none was in hand. -/
theorem State.attic_flashCut : s.flashCut.attic.fuseSvn = s.attic.fuseSvn ∧ s.flashCut.attic.keys = s.attic.keys ∧
    s.flashCut.attic.testFuse = s.attic.testFuse ∧ (s.attic.flCmd = none → s.flashCut.attic.flash = s.attic.flash) := by
  have spoilt (a n : Nat) : (s.flashSpoil a n).attic.fuseSvn = s.attic.fuseSvn ∧
      (s.flashSpoil a n).attic.keys = s.attic.keys ∧ (s.flashSpoil a n).attic.testFuse = s.attic.testFuse :=
    ⟨rfl, rfl, rfl⟩
  have cut (a n op : Nat) (h : s.attic.flCmd = some (op, a)) : (s.flashSpoil a n).attic.fuseSvn = s.attic.fuseSvn ∧
      (s.flashSpoil a n).attic.keys = s.attic.keys ∧ (s.flashSpoil a n).attic.testFuse = s.attic.testFuse ∧
      (s.attic.flCmd = none → (s.flashSpoil a n).attic.flash = s.attic.flash) := by
    obtain ⟨svn, keys, fuse⟩ := spoilt a n
    exact ⟨svn, keys, fuse, fun none => absurd (h.symm.trans none) (by simp)⟩
  unfold State.flashCut
  split
  · next h => exact cut _ _ _ h
  · next h => exact cut _ _ _ h
  · next h => exact cut _ _ _ h
  · exact ⟨rfl, rfl, rfl, fun _ => rfl⟩

theorem State.onlyIn_coldBlank :
    onlyIn [.regs, .cycles, .freeCtr, .attic, .dwy, .outbox] State.reset (s.coldBlank sl fl tm) := fun p out => by
  cases p with
  | regs | cycles | freeCtr | attic | dwy | outbox => exact absurd (by decide) out
  | _ => rfl

theorem State.attic_coldStart : (s.coldStart sl fl tm).attic = (s.coldBlank sl fl tm).attic :=
  ((s.coldBlank sl fl tm).bootRegs_keeps 1 0).same .attic (by decide)

theorem State.coldStart_shows : let u := s.coldStart sl fl tm
    onlyIn [.regs, .cycles, .freeCtr, .attic, .dwy, .outbox] State.reset u ∧
    (∀ a, a ∉ bootShown → u.rd a = State.reset.rd a) ∧ u.stage = 1 ∧ u.rf atcBootStatus 23 20 = 0 ∧
    u.attic.strapSlot = sl % 4 ∧ u.attic.strapFlash = fl % 4 ∧ u.attic.testPin = tm ∧
    u.attic.fuseSvn = s.attic.fuseSvn ∧ u.attic.keys = s.attic.keys ∧ u.attic.testFuse = s.attic.testFuse ∧
    (s.attic.flCmd = none → u.attic.flash = s.attic.flash) := by
  obtain ⟨svn, keys, fuse, flash⟩ := s.attic_flashCut
  obtain ⟨stage, cause⟩ := (s.coldBlank sl fl tm).bootRegs_shows (stage := 1) (cause := 0) (by decide) (by decide)
  intro u
  have attic : u.attic = (s.coldBlank sl fl tm).attic := s.attic_coldStart sl fl tm
  refine ⟨(s.onlyIn_coldBlank sl fl tm).trans ((State.bootRegs_keeps _ 1 0).mono rfl).same, fun a out => ?_, stage, cause, ?_⟩
  · exact State.rd_bootRegs_ne _ 1 0 out
  · rw [attic]
    exact ⟨rfl, rfl, rfl, svn, keys, fuse, flash⟩

end

/-! ## A device restart -/

section
variable (s : State)

/-- The registers that a restart keeps. -/
def restartKeeps : List Nat := [atcTimeIncr, mstLogNext, mstRecov, mstMon]

/-- The part at reset, with what a restart keeps beyond its registers. -/
def State.restartBlank (s : State) : State :=
  let b := s.blank
  { b with
    time := s.time
    mast := { b.mast with
      log := s.mast.log, recov := s.mast.recov, mons := s.mast.mons, injectKey := s.mast.injectKey }
    attic := { b.attic with sbDyn := s.attic.sbDyn } }

/-- The registers that a restart keeps, put back. -/
def State.restartRegs (s t : State) : State := t.each restartKeeps fun u a => u.wr a (s.rd a)

theorem State.restart_eq : s.restart = ((s.restartRegs s.restartBlank).putB mstStatus 29 (s.rb mstStatus 29)).bootRegs 1 1 :=
  rfl

theorem State.restartRegs_keeps (t : State) : Keeps [.regs] t (s.restartRegs t) :=
  State.each_invariant (P := Keeps [.regs] t) (.refl t) fun u a _ h => h.trans (u.wr_keeps a (s.rd a))

theorem State.rd_restartRegs (t : State) (a : Nat) :
    (s.restartRegs t).rd a = if a ∈ restartKeeps then s.rd a else t.rd a := by
  unfold State.restartRegs
  generalize restartKeeps = l
  induction l generalizing t with
  | nil => rfl
  | cons b l ih =>
    rw [State.each_cons, ih, State.rd_wr]
    by_cases mem : a ∈ l
    · rw [if_pos mem, if_pos (List.mem_cons_of_mem b mem)]
    · rw [if_neg mem]
      by_cases same : a = b
      · rw [if_pos same, same, if_pos List.mem_cons_self]
      · rw [if_neg same, if_neg (by simp [same, mem])]

theorem State.restart_keepsBlank : Keeps [.regs] s.restartBlank s.restart :=
  ((s.restartRegs_keeps _).trans (State.putB_keeps _ _ _ _)).trans (State.bootRegs_keeps _ 1 1)

theorem State.attic_restart : s.restart.attic = s.restartBlank.attic := s.restart_keepsBlank.same .attic (by decide)

theorem State.onlyIn_restartBlank :
    onlyIn [.regs, .time, .cycles, .freeCtr, .mast, .attic, .dwy, .outbox] State.reset s.restartBlank := fun p out => by
  cases p with
  | regs | time | cycles | freeCtr | mast | attic | dwy | outbox => exact absurd (by decide) out
  | _ => rfl

theorem State.restart_stage : s.restart.stage = 1 ∧ s.restart.rf atcBootStatus 23 20 = 1 :=
  State.bootRegs_shows _ (by decide) (by decide)

theorem State.rd_restart_kept {a : Nat} (kept : a ∈ restartKeeps) : s.restart.rd a = s.rd a := by
  have apart : ∀ b ∈ restartKeeps, b ∉ bootShown ∧ b ≠ mstStatus := by decide
  rw [State.restart_eq, State.rd_bootRegs_ne _ _ _ (apart a kept).1, State.rd_putB_ne _ _ _ (apart a kept).2,
    State.rd_restartRegs, if_pos kept]

theorem State.rd_restart_blank {a : Nat} (shown : a ∉ bootShown) (kept : a ∉ restartKeeps) (status : a ≠ mstStatus) :
    s.restart.rd a = State.reset.rd a := by
  rw [State.restart_eq, State.rd_bootRegs_ne _ _ _ shown, State.rd_putB_ne _ _ _ status, State.rd_restartRegs, if_neg kept]
  rfl

theorem State.restart_testMode : s.restart.rb mstStatus 29 = s.rb mstStatus 29 := by
  rw [State.restart_eq, State.rb, State.rd_bootRegs_ne _ _ _ (by decide)]
  exact State.rb_putB _ mstStatus 29 _ (by decide)

end

end Sys2Proof.Machine

/-! PROOFS. Trying, confirming and reverting a slot (R485, R486). -/

namespace Sys2Proof.Machine

/-! ## What the flash alone says -/

section
variable {s t : State} (h : t.attic = s.attic)
include h

theorem State.imgN_congr (c o n : Nat) : t.imgN c o n = s.imgN c o n := by
  simp only [State.imgN, State.img, State.flashRead, State.slotAt, State.half, State.flashSize, h]

theorem State.img_congr (c o n : Nat) : t.img c o n = s.img c o n := by
  simp only [State.img, State.flashRead, State.slotAt, State.half, State.flashSize, h]

theorem State.half_congr (c : Nat) : t.half c = s.half c := by simp only [State.half, State.flashSize, h]

theorem State.ctlRec_congr (c : Nat) : t.ctlRec c = s.ctlRec c := by
  have read : t.flashRead (t.half c) 64 = s.flashRead (s.half c) 64 := by
    rw [State.flashRead, State.flashRead, State.half_congr h, h]
  rw [State.ctlRec, State.ctlRec, read]

theorem State.recHalf_congr : t.recHalf = s.recHalf := by simp only [State.recHalf, State.ctlRec_congr h]

theorem State.recNow_congr : t.recNow = s.recNow := by
  have records : t.ctlRec = s.ctlRec := funext (State.ctlRec_congr h)
  simp only [State.recNow, State.recHalf_congr h, records]

theorem State.sects_congr (c : Nat) : t.sects c = s.sects c := by
  have entry : t.sect c = s.sect c := funext fun i => by simp only [State.sect, State.imgN_congr h, State.img_congr h]
  simp only [State.sects, State.imgSects, State.imgN_congr h, entry]

theorem State.sectCheck_congr (c : Nat) (x : Sect) : t.sectCheck c x = s.sectCheck c x := by
  have bytes : t.sectBytes c x = s.sectBytes c x := State.img_congr h c x.off x.len
  have form : t.formCheck c x = s.formCheck c x := by
    rw [State.formCheck, State.formCheck, bytes, State.imgN_congr h]
  have digest : t.digestOk c x = s.digestOk c x := by
    rw [State.digestOk, State.digestOk, bytes, State.img_congr h]
  rw [State.sectCheck, State.sectCheck, form, digest]

theorem State.entryOk_congr (c i : Nat) : t.entryOk c i = s.entryOk c i := by
  have entry : t.sect c i = s.sect c i := by simp only [State.sect, State.imgN_congr h, State.img_congr h]
  rw [State.entryOk, State.entryOk, entry, State.imgN_congr h]

theorem State.signCheck_congr (c : Nat) : t.signCheck c = s.signCheck c := by
  have numbers : t.imgN c = s.imgN c := funext₂ (State.imgN_congr h c)
  have bytes : t.img c = s.img c := funext₂ (State.img_congr h c)
  rw [State.signCheck, State.signCheck, State.imgKey, State.imgKey, State.imgSects, State.imgSects, State.imgSvn,
    State.imgSvn, numbers, bytes, h]

/-- The check of a header reads the image and the identity of the part. -/
theorem State.headerCheck_congr (same : t.rd atcDevid = s.rd atcDevid) (c : Nat) : t.headerCheck c = s.headerCheck c := by
  have numbers : t.imgN c = s.imgN c := funext₂ (State.imgN_congr h c)
  rw [State.headerCheck, State.headerCheck, State.imgLen, State.imgLen, State.slotLen, State.slotLen, State.flashSize,
    State.flashSize, State.rdN, State.rdN, numbers, State.sects_congr h, h, same]

theorem State.authCheck_congr (same : t.rd atcDevid = s.rd atcDevid) (c : Nat) : t.authCheck c = s.authCheck c := by
  have entries : t.entryOk c = s.entryOk c := funext (State.entryOk_congr h c)
  have checks : t.sectCheck c = s.sectCheck c := funext (State.sectCheck_congr h c)
  rw [State.authCheck, State.authCheck, State.headerCheck_congr h same, State.signCheck_congr h, State.sects_congr h,
    State.imgSects, State.imgSects, State.imgN_congr h, entries, checks]

theorem State.fullCheck_congr (same : t.rd atcDevid = s.rd atcDevid) (c : Nat) : t.fullCheck c = s.fullCheck c := by
  have checks : t.sectCheck c = s.sectCheck c := funext (State.sectCheck_congr h c)
  have bytes : t.sectBytes c = s.sectBytes c := funext fun x => State.img_congr h c _ _
  simp only [State.fullCheck, State.authCheck_congr h same, State.sects_congr h, checks, bytes]

end

/-! ## A record is written (R466, R485) -/

section
variable (s : State)

/-- Where the next control record goes. -/
def State.recAt (s : State) : Nat := s.half (s.recHalf.elim 0 (1 - ·))

/-- Record `r` stands in flash with the next SEQ; beyond its block the flash is as in `s`. -/
def recorded (r : CtlRec) (s u : State) : Prop :=
  u.flashRead s.recAt 64 = { r with seq := s.recNow.seq + 1 }.bytes ∧
    ∀ x, x < s.recAt ∨ s.recAt + 0x10000 ≤ x → tget flashErased u.attic.flash x = tget flashErased s.attic.flash x

theorem length_bytes (r : CtlRec) : r.bytes.length = 64 := by simp [CtlRec.bytes, length_natLe]

theorem State.ctlWrite_eq (r : CtlRec) :
    s.ctlWrite r = (s.flashErase s.recAt 0x10000).flashProgram s.recAt { r with seq := s.recNow.seq + 1 }.bytes := by
  unfold State.ctlWrite State.recAt
  cases s.recHalf <;> rfl

theorem State.ctlWrite_recorded (r : CtlRec) : recorded r s (s.ctlWrite r) := by
  have length := length_bytes { r with seq := s.recNow.seq + 1 }
  refine ⟨?_, fun x out => ?_⟩
  · have written := s.flashRead_program_erased s.recAt { r with seq := s.recNow.seq + 1 }.bytes 0x10000 (by omega)
    rw [length, ← s.ctlWrite_eq r] at written
    exact written
  · have stands := (s.flashErase s.recAt 0x10000).flashAt_flashProgram_out s.recAt
      { r with seq := s.recNow.seq + 1 }.bytes (x := x) (by omega)
    rw [← s.ctlWrite_eq r, State.flashAt_flashErase, if_neg (by omega)] at stands
    exact stands

/-- What is recorded is seen in the flash alone. -/
theorem recorded.of_flash {r : CtlRec} {s t u : State} (h : recorded r s t) (same : u.attic.flash = t.attic.flash) :
    recorded r s u := by
  obtain ⟨bytes, beyond⟩ := h
  exact ⟨by rw [State.flashRead, same]; exact bytes, fun x out => by rw [same]; exact beyond x out⟩

/-- The record is the one of any state with the same flash. -/
theorem recorded.from {r : CtlRec} {s t u : State} (h : recorded r t u) (same : t.attic = s.attic) : recorded r s u := by
  obtain ⟨bytes, beyond⟩ := h
  have place : t.recAt = s.recAt := by rw [State.recAt, State.recAt, State.recHalf_congr same, State.half_congr same]
  rw [place, State.recNow_congr same] at bytes
  rw [place, same] at beyond
  exact ⟨bytes, beyond⟩

end

/-! ## Fuse actions (R475, R486) -/

section
variable (s : State) (c : Nat)

theorem State.fuseAct_shows : let u := s.fuseAct c
    u.attic.flash = s.attic.flash ∧
    u.attic.fuseSvn = (if s.imgFlag c 0 then max s.attic.fuseSvn (s.imgSvn c) else s.attic.fuseSvn) ∧
    ∀ j < 4, (s.imgN c 40 1).testBit j = true → j ≠ s.imgKey c → (u.attic.keys.getD j KeySlot.reset).revoked = true := by
  have shown (t : State) : t.fuseShow.attic = t.attic := t.fuseShow_keeps.same .attic (by decide)
  unfold State.fuseAct
  dsimp only
  rw [shown]
  refine ⟨rfl, rfl, fun j hj revoked other => ?_⟩
  dsimp only
  rw [List.getD_eq_getElem _ _ (by simpa [upto] using hj), List.getElem_map]
  simp only [upto, List.getElem_range]
  rw [if_pos ⟨revoked, other⟩]

theorem State.rd_fuseAct {a : Nat} (ne : a ≠ atcFuse) : (s.fuseAct c).rd a = s.rd a := State.rd_fuseShow_ne _ ne

/-- A record that cannot be written blows no fuse. -/
theorem State.fuseSvn_ctlFail : s.ctlFail.attic.fuseSvn = s.attic.fuseSvn := rfl

theorem State.flash_fuseFail : (s.fuseFail c).attic.flash = s.attic.flash := by
  have shown (t : State) : t.fuseShow.attic = t.attic := t.fuseShow_keeps.same .attic (by decide)
  unfold State.fuseFail
  dsimp only
  rw [shown]

end

/-! ## The fields of a slot command -/

theorem regAt_atcSlotCtl : ∃ r, regAt atcSlotCtl = some (r, 0, 0) := ⟨_, rfl⟩

theorem fld_slotWord {op tries : Nat} (hop : op < 4) :
    fld (slotWord op tries) 26 24 = tries % 8 ∧ fld (slotWord op tries) 30 29 = op := by
  unfold fld slotWord bits
  rw [BitVec.toNat_ofNat]
  constructor <;> omega

section
variable {s : State} {tries : Nat} {ok fo : Bool}

/-- OP and TRIES in their register. -/
def State.slotGiven (s : State) (op tries : Nat) : State := s.plainWrite atcSlotCtl (slotWord op tries)

/-- A slot command ends with its RESULT. -/
def State.slotRes (t : State) (r : Nat) : State := (t.wf atcSlotCtl 23 16 r).pulse 1349

theorem State.attic_slotGiven (s : State) (op tries : Nat) : (s.slotGiven op tries).attic = s.attic :=
  (s.plainWrite_keeps _ _).same .attic (by decide)

theorem State.rd_slotGiven (s : State) (op tries : Nat) {a : Nat} (ne : a ≠ atcSlotCtl) :
    (s.slotGiven op tries).rd a = s.rd a := s.rd_plainWrite_ne _ ne

theorem State.attic_slotRes (t : State) (r : Nat) : (t.slotRes r).attic = t.attic := rfl

theorem State.rd_slotRes (t : State) (r : Nat) {a : Nat} (ne : a ≠ atcSlotCtl) : (t.slotRes r).rd a = t.rd a :=
  t.rd_wf_ne _ _ _ ne

theorem State.slotRes_shows (t : State) {r : Nat} (hr : r < 256) :
    (t.slotRes r).rf atcSlotCtl 23 16 = r ∧ shas (t.slotRes r).bell.pulses 1349 = true :=
  ⟨State.rf_wf_fits t atcSlotCtl (by decide) (by decide) hr, shas_sadd_same _ _⟩

theorem State.slotCtlWrite_busy (v : Word) (busy : s.rb atcSlotCtl 31 = true) : s.slotCtlWrite v ok fo = s := by
  rw [State.slotCtlWrite]
  dsimp only
  rw [if_pos busy]

section
variable (idle : s.rb atcSlotCtl 31 = false)
include idle

theorem State.slotCtlWrite_noTries {v : Word} (none : fld v 26 24 = 0) : s.slotCtlWrite v ok fo = s.slotRes 4 := by
  unfold State.slotCtlWrite State.slotRes
  dsimp only
  rw [if_neg (by simp [idle]), if_pos none]

variable {v : Word} (some : fld v 26 24 ≠ 0)
include some

theorem State.slotCtlWrite_try (code : fld v 30 29 = 1) : s.slotCtlWrite v ok fo =
    let t := s.plainWrite atcSlotCtl v
    let c := 1 - t.rf atcBootStatus 27 27
    if t.fullCheck c ≠ 0 then (t.slotDefect c (t.fullCheck c)).slotRes 2
    else if ok then (t.ctlWrite { t.recNow with try? := .some c, tries := fld v 26 24, tally := 2 ^ 64 - 1 }).slotRes 0
    else t.ctlFail.slotRes 3 := by
  unfold State.slotCtlWrite State.slotRes
  dsimp only
  rw [if_neg (by simp [idle]), if_neg some, code] <;> rfl

theorem State.slotCtlWrite_confirm (code : fld v 30 29 = 2) : s.slotCtlWrite v ok fo =
    let t := s.plainWrite atcSlotCtl v
    if t.stage ≠ 8 then t.slotRes 1 else (t.confirm ok fo).1.slotRes (t.confirm ok fo).2 := by
  unfold State.slotCtlWrite State.slotRes
  dsimp only
  rw [if_neg (by simp [idle]), if_neg some, code] <;> rfl

theorem State.slotCtlWrite_revert (code : fld v 30 29 = 3) : s.slotCtlWrite v ok fo =
    let t := s.plainWrite atcSlotCtl v
    if t.stage ≠ 8 ∨ t.recNow.try? = none then t.slotRes 1
    else if ok then ((t.ctlWrite { t.recNow with try? := none }).putB atcBootStatus 26 false).slotRes 0
    else t.ctlFail.slotRes 3 := by
  unfold State.slotCtlWrite State.slotRes
  dsimp only
  rw [if_neg (by simp [idle]), if_neg some, code] <;> rfl

end

/-! ## CONFIRM -/

/-- The record that a confirmation writes. -/
def State.confirmRec (s : State) : CtlRec :=
  { s.recNow with active := s.rf atcBootStatus 27 27, try? := none, tally := 2 ^ 64 - 1 }

theorem State.confirm_failed (trial : s.rb atcBootStatus 26 = true) : s.confirm false fo = (s.ctlFail, 3) := by
  rw [State.confirm, if_pos (by simp [trial])]

theorem State.confirm_trial (trial : s.rb atcBootStatus 26 = true) : s.confirm true true =
    (((s.ctlWrite s.confirmRec).putB atcBootStatus 26 false).fuseAct (s.rf atcBootStatus 27 27), 0) := by
  rw [State.confirm]
  dsimp only
  rw [if_neg (by simp), if_pos trial, if_pos rfl, State.confirmRec]

theorem State.confirm_booted (booted : s.rb atcBootStatus 26 = false) : s.confirm ok fo =
    if fo then (s.fuseAct (s.rf atcBootStatus 27 27), 0) else (s.fuseFail (s.rf atcBootStatus 27 27), 5) := by
  rw [State.confirm]
  dsimp only
  have inTrial : ¬s.rb atcBootStatus 26 = true := by simp [booted]
  rw [if_neg fun h => inTrial h.1, if_neg inTrial]

/-- A confirmation that succeeds in a trial ends it and records the slot as the active one. -/
theorem State.confirm_trial_shows (trial : s.rb atcBootStatus 26 = true) : let u := (s.confirm true true).1
    u.rb atcBootStatus 26 = false ∧ recorded s.confirmRec s u := by
  rw [State.confirm_trial trial]
  refine ⟨?_, ?_⟩
  · rw [State.rb, State.rd_fuseAct _ _ (by decide)]
    exact State.rb_putB _ _ _ _ (by decide)
  · exact (s.ctlWrite_recorded s.confirmRec).of_flash (State.fuseAct_shows _ _).1

end

/-! ## The slot commands -/

/-- The defect of a slot, and nothing of Attic beyond its registers. -/
theorem State.slotDefect_shows (s : State) {c : Nat} (hc : c < 2) (d : Nat) : let u := s.slotDefect c d
    u.rf atcBootErr (8 * c + 7) (8 * c) = d % 256 ∧ u.attic = s.attic ∧
      ∀ a, a ≠ atcBootErr → offWrap a = true → u.rd a = s.rd a := by
  refine ⟨?_, (s.slotDefect_keeps c d).same .attic (by decide), fun a ne off => ?_⟩
  · have counted := (s.wf atcBootErr (8 * c + 7) (8 * c) d).rd_count evAtcSlotDefect c 0 (show offWrap atcBootErr = true from rfl)
    rw [State.slotDefect, State.rf, counted]
    have width : 8 * c + 7 + 1 - 8 * c = 8 := by omega
    have written := s.rf_wf atcBootErr (8 * c + 7) (8 * c) d (by omega) (by omega)
    rw [width] at written
    exact written
  · rw [State.slotDefect, State.rd_count _ _ _ _ off, State.rd_wf_ne _ _ _ _ ne]

/-- A slot command ends with RESULT `r`, its pulse and what `P` says. -/
def slotEnds (s : State) (r : Nat) (o : Host.Outcome State Fault Refusal) (P : State → Prop) : Prop :=
  ∃ u, o = .next u ∧ u.rf atcSlotCtl 23 16 = r ∧ shas u.bell.pulses 1349 = true ∧
    onlyIn [.regs, .freeCtr, .mast, .bell, .attic] s u ∧ P u

section
variable {s : State} {tries : Nat} {ok fo : Bool}

theorem slotEnds_of {v : Word} {t : State} {r : Nat} {P : State → Prop}
    (out : s.slotCtlWrite v ok fo = t.slotRes r) (small : r < 256) (holds : P (t.slotRes r)) :
    slotEnds s r (.next (s.slotCtlWrite v ok fo)) P := by
  obtain ⟨result, pulsed⟩ := t.slotRes_shows small
  exact ⟨_, rfl, out ▸ result, out ▸ pulsed, (s.slotCtlWrite_keeps v ok fo).same, out ▸ holds⟩

variable (idle : s.rb atcSlotCtl 31 = false)
include idle

/-- A slot command without tries. -/
theorem slotEnds_noTries {op : Nat} (hop : op < 4) (none : tries % 8 = 0) :
    slotEnds s 4 (.next (s.slotCtlWrite (slotWord op tries) ok fo)) fun u => u.attic = s.attic :=
  slotEnds_of (State.slotCtlWrite_noTries idle ((fld_slotWord hop).1.trans none)) (by decide) rfl

variable (some : tries % 8 ≠ 0)
include some

omit idle in
theorem tries_slotWord {op : Nat} (hop : op < 4) : fld (slotWord op tries) 26 24 ≠ 0 :=
  fun none => some ((fld_slotWord hop).1.symm.trans none)

/-- TRY (R485). -/
theorem slotTry_ends {c : Nat} (other : 1 - s.rf atcBootStatus 27 27 = c) :
    let o := Host.Outcome.next (s.slotCtlWrite (slotWord 1 tries) ok fo)
    (s.fullCheck c ≠ 0 → slotEnds s 2 o fun u => u.attic = s.attic ∧
      u.rf atcBootErr (8 * c + 7) (8 * c) = s.fullCheck c % 256) ∧
    (s.fullCheck c = 0 → ok = true → slotEnds s 0 o fun u =>
      recorded { s.recNow with try? := .some c, tries := tries % 8, tally := 2 ^ 64 - 1 } s u) ∧
    (s.fullCheck c = 0 → ok = false → slotEnds s 3 o fun _ => True) := by
  intro o
  have whole := State.slotCtlWrite_try (ok := ok) (fo := fo) idle (tries_slotWord some (by decide)) (fld_slotWord (by decide)).2
  have attic := s.attic_slotGiven 1 tries
  have booted : (s.slotGiven 1 tries).rf atcBootStatus 27 27 = s.rf atcBootStatus 27 27 := by
    rw [State.rf, State.rf, s.rd_slotGiven 1 tries (by decide)]
  have checked := State.fullCheck_congr attic (s.rd_slotGiven 1 tries (by decide)) c
  have records := State.recNow_congr attic
  rw [← State.slotGiven] at whole
  dsimp only at whole
  rw [(fld_slotWord (by decide)).1, booted, other, checked, records] at whole
  generalize s.slotGiven 1 tries = t at *
  have hc : c < 2 := by omega
  refine ⟨fun bad => ?_, fun good fits => ?_, fun good fails => ?_⟩
  · obtain ⟨shown, same, -⟩ := t.slotDefect_shows hc (s.fullCheck c)
    refine slotEnds_of (whole.trans (if_pos bad)) (by decide) ⟨same.trans attic, ?_⟩
    rw [State.rf, State.rd_slotRes _ _ (by decide)]
    exact shown
  · rw [if_neg (not_not.2 good), if_pos fits] at whole
    exact slotEnds_of whole (by decide) (((t.ctlWrite_recorded _).from attic).of_flash rfl)
  · rw [if_neg (not_not.2 good), if_neg (by simp [fails])] at whole
    exact slotEnds_of whole (by decide) trivial

/-- CONFIRM outside DONE, or REVERT there or without a trial in the record. -/
theorem slotEnds_refused (away : s.stage ≠ 8) :
    slotEnds s 1 (.next (s.slotCtlWrite (slotWord 2 tries) ok fo)) fun u => u.attic = s.attic := by
  have whole := State.slotCtlWrite_confirm (ok := ok) (fo := fo) idle (tries_slotWord some (by decide)) (fld_slotWord (by decide)).2
  have stage : (s.slotGiven 2 tries).stage = s.stage := by
    rw [State.stage, State.stage, State.rf, State.rf, s.rd_slotGiven 2 tries (by decide)]
  rw [← State.slotGiven] at whole
  dsimp only at whole
  rw [stage, if_pos away] at whole
  exact slotEnds_of whole (by decide) (s.attic_slotGiven 2 tries)

/-- CONFIRM in DONE (R485, R486). -/
theorem slotConfirm_ends {c : Nat} (booted : s.rf atcBootStatus 27 27 = c) (done : s.stage = 8) :
    let o := Host.Outcome.next (s.slotCtlWrite (slotWord 2 tries) ok fo)
    (s.rb atcBootStatus 26 = true → ok = false → slotEnds s 3 o fun u => u.attic.fuseSvn = s.attic.fuseSvn) ∧
    (s.rb atcBootStatus 26 = true → ok = true → fo = true → slotEnds s 0 o fun u => u.rb atcBootStatus 26 = false ∧
      recorded { s.recNow with active := c, try? := none, tally := 2 ^ 64 - 1 } s u) ∧
    (s.rb atcBootStatus 26 = false → fo = true → slotEnds s 0 o fun u => u.attic.flash = s.attic.flash ∧
      u.attic.fuseSvn = (if s.imgFlag c 0 then max s.attic.fuseSvn (s.imgSvn c) else s.attic.fuseSvn) ∧
      ∀ j, j < 4 → (s.imgN c 40 1).testBit j = true → j ≠ s.imgKey c →
        (u.attic.keys.getD j KeySlot.reset).revoked = true) ∧
    (s.rb atcBootStatus 26 = false → fo = false → slotEnds s 5 o fun u => u.attic.flash = s.attic.flash) := by
  intro o
  have whole := State.slotCtlWrite_confirm (ok := ok) (fo := fo) idle (tries_slotWord some (by decide)) (fld_slotWord (by decide)).2
  have attic := s.attic_slotGiven 2 tries
  have status := s.rd_slotGiven 2 tries (show atcBootStatus ≠ atcSlotCtl by decide)
  rw [← State.slotGiven] at whole
  generalize s.slotGiven 2 tries = t at *
  have stage : t.stage = 8 := by rw [State.stage, State.rf, status]; exact done
  have trial : t.rb atcBootStatus 26 = s.rb atcBootStatus 26 := by rw [State.rb, State.rb, status]
  have slot : t.rf atcBootStatus 27 27 = c := by rw [State.rf, status]; exact booted
  have record : t.confirmRec = { s.recNow with active := c, try? := none, tally := 2 ^ 64 - 1 } := by
    rw [State.confirmRec, State.recNow_congr attic, slot]
  dsimp only at whole
  rw [if_neg (not_not.2 stage)] at whole
  refine ⟨fun on fails => ?_, fun on fits fuses => ?_, fun off fuses => ?_, fun off fuses => ?_⟩
  · subst fails
    rw [State.confirm_failed (trial.trans on)] at whole
    exact slotEnds_of whole (by decide) (t.fuseSvn_ctlFail.trans (congrArg Attic.fuseSvn attic))
  · subst fits fuses
    obtain ⟨ends, written⟩ := State.confirm_trial_shows (trial.trans on)
    have result : (t.confirm true true).2 = 0 := by rw [State.confirm_trial (trial.trans on)]
    rw [result] at whole
    refine slotEnds_of whole (by decide) ⟨?_, ?_⟩
    · rw [State.rb, State.rd_slotRes _ _ (by decide)]
      exact ends
    · rw [record] at written
      exact (written.from attic).of_flash rfl
  · subst fuses
    obtain ⟨flash, svn, keys⟩ := t.fuseAct_shows c
    rw [State.confirm_booted (trial.trans off), if_pos rfl, slot] at whole
    refine slotEnds_of whole (by decide) ⟨flash.trans (congrArg Attic.flash attic), ?_, fun j hj revoked other => ?_⟩
    · rw [State.attic_slotRes, svn, State.imgFlag, State.imgSvn, State.imgN_congr attic, State.imgN_congr attic, attic]
      rfl
    · rw [← State.imgN_congr attic] at revoked
      rw [State.imgKey, ← State.imgN_congr attic] at other
      exact keys j hj revoked other
  · subst fuses
    rw [State.confirm_booted (trial.trans off), if_neg Bool.false_ne_true, slot] at whole
    exact slotEnds_of whole (by decide) ((t.flash_fuseFail c).trans (congrArg Attic.flash attic))

/-- REVERT (R485). -/
theorem slotRevert_ends : let o := Host.Outcome.next (s.slotCtlWrite (slotWord 3 tries) ok fo)
    (s.stage ≠ 8 ∨ s.recNow.try? = none → slotEnds s 1 o fun u => u.attic = s.attic) ∧
    (s.stage = 8 → s.recNow.try? ≠ none → ok = false → slotEnds s 3 o fun _ => True) ∧
    (s.stage = 8 → s.recNow.try? ≠ none → ok = true → slotEnds s 0 o fun u => u.rb atcBootStatus 26 = false ∧
      recorded { s.recNow with try? := none } s u) := by
  intro o
  have whole := State.slotCtlWrite_revert (ok := ok) (fo := fo) idle (tries_slotWord some (by decide)) (fld_slotWord (by decide)).2
  have attic := s.attic_slotGiven 3 tries
  have status := s.rd_slotGiven 3 tries (show atcBootStatus ≠ atcSlotCtl by decide)
  rw [← State.slotGiven] at whole
  generalize s.slotGiven 3 tries = t at *
  have stage : t.stage = s.stage := by rw [State.stage, State.stage, State.rf, State.rf, status]
  dsimp only at whole
  rw [stage, State.recNow_congr attic] at whole
  refine ⟨fun bad => ?_, fun done trial fails => ?_, fun done trial fits => ?_⟩
  · exact slotEnds_of (whole.trans (if_pos bad)) (by decide) attic
  · rw [if_neg (not_or.2 ⟨not_not.2 done, trial⟩), if_neg (by simp [fails])] at whole
    exact slotEnds_of whole (by decide) trivial
  · rw [if_neg (not_or.2 ⟨not_not.2 done, trial⟩), if_pos fits] at whole
    refine slotEnds_of whole (by decide) ⟨?_, ((t.ctlWrite_recorded _).from attic).of_flash rfl⟩
    rw [State.rb, State.rd_slotRes _ _ (by decide)]
    exact State.rb_putB _ _ _ _ (by decide)

end

end Sys2Proof.Machine

/-! PROOFS. How device time runs, slews and is set (R487, R488). -/

namespace Sys2Proof.Machine

section
variable (s : State)

/-! ## One Attic cycle -/

/-- Device time steps to a value that was set. -/
def State.timeStepped (s : State) (v : Nat) : State :=
  { ((({ s with cycles := s.cycles + 1 }.putB atcTimeStatus 31 false).setB atcTimeStatus 30).count evAtcTimeStep 0 0) with
    time := v * 2 ^ 24
    attic := { s.attic with timeSet := none, slew := 0 } }.pulse 1350

/-- What is left of a slew after one cycle. -/
def slewLeft (z : Int) : Int := z - max (-slewMax) (min slewMax z)

/-- Device time gains INCR and a share of a slew. -/
def State.timeGained (s : State) : State :=
  { { s with cycles := s.cycles + 1 }.putB atcTimeStatus 31 (slewLeft s.attic.slew != 0) with
    time := (Int.toNat (s.time + s.rdN atcTimeIncr + max (-slewMax) (min slewMax s.attic.slew))) % 2 ^ 88
    attic := { s.attic with slew := slewLeft s.attic.slew } }

theorem exec_timeTick_set {v : Nat} (set : s.attic.timeSet = some v) : exec .timeTick s = .next (s.timeStepped v) := by
  have whole : exec .timeTick s = execTimeTick s := rfl
  rw [whole, execTimeTick, set]
  rfl

theorem exec_timeTick_runs (unset : s.attic.timeSet = none) : exec .timeTick s = .next s.timeGained := by
  have whole : exec .timeTick s = execTimeTick s := rfl
  rw [whole, execTimeTick, unset]
  rfl

theorem State.timeStepped_shows (v : Nat) : let u := s.timeStepped v
    u.cycles = s.cycles + 1 ∧ u.attic = { s.attic with timeSet := none, slew := 0 } ∧ u.rb atcTimeStatus 31 = false ∧
      u.time = v * 2 ^ 24 ∧ u.rb atcTimeStatus 30 = true ∧ shas u.bell.pulses 1350 = true := by
  have marked := (({ s with cycles := s.cycles + 1 }.putB atcTimeStatus 31 false).setB atcTimeStatus 30).rd_count
    evAtcTimeStep 0 0 (show offWrap atcTimeStatus = true from rfl)
  refine ⟨State.cycles_count _ _ _ _, rfl, ?_, rfl, ?_, shas_sadd_same _ _⟩
  · refine (congrArg (·.getLsbD 31) marked).trans ?_
    refine (State.rb_setB_ne _ atcTimeStatus 30 31 (by decide) (by decide) (by decide)).trans ?_
    exact State.rb_putB _ atcTimeStatus 31 false (by decide)
  · exact (congrArg (·.getLsbD 30) marked).trans (State.rb_setB _ atcTimeStatus 30 (by decide))

theorem State.timeGained_status : s.timeGained.rb atcTimeStatus 31 = decide (slewLeft s.attic.slew ≠ 0) :=
  (State.rb_putB _ atcTimeStatus 31 _ (by decide)).trans (by rw [Bool.eq_iff_iff, bne_iff_ne, decide_eq_true_iff])

/-- A slew takes at most 2.5 ns of a cycle. -/
theorem slewLeft_spec (z : Int) : (z.natAbs ≤ 41943040 → slewLeft z = 0) ∧
    (41943040 < z → slewLeft z = z - 41943040) ∧ (z < -41943040 → slewLeft z = z + 41943040) := by
  unfold slewLeft slewMax
  omega

theorem State.time_timeGained :
    let sum : Int := s.time + s.rdN atcTimeIncr + (s.attic.slew - slewLeft s.attic.slew)
    0 ≤ sum → (s.timeGained.time : Int) = sum % 2 ^ 88 := by
  intro sum pos
  have gain : sum = s.time + s.rdN atcTimeIncr + max (-slewMax) (min slewMax s.attic.slew) := by
    show (s.time : Int) + s.rdN atcTimeIncr + (s.attic.slew - slewLeft s.attic.slew) = _
    unfold slewLeft
    omega
  have shown : s.timeGained.time = sum.toNat % 2 ^ 88 := by rw [gain]; rfl
  rw [shown, Int.natCast_emod, Int.toNat_of_nonneg pos]
  rfl

/-! ## The registers of device time -/

/-- A slew in units of 2⁻²⁴ ns is none where the word written is 0. -/
theorem slew_ne_zero (v : Word) : (v.toInt * 2 ^ 24 != 0) = (v != 0#32) := by
  have zero : v.toInt = 0 ↔ v = 0#32 := ⟨fun h => BitVec.eq_of_toInt_eq (h.trans BitVec.toInt_zero.symm), fun h => h ▸ rfl⟩
  rw [Bool.eq_iff_iff, bne_iff_ne, bne_iff_ne, Ne, Ne, ← zero]
  omega

theorem State.timeAdjWrite_shows (v : Word) : let u := s.timeAdjWrite v
    u.attic = { s.attic with slew := v.toInt * 2 ^ 24 } ∧ u.rb atcTimeStatus 31 = (v != 0#32) ∧
      onlyIn [.regs, .attic] s u :=
  ⟨rfl, (State.rb_putB s atcTimeStatus 31 _ (by decide)).trans (slew_ne_zero v), (s.timeAdjWrite_keeps v).same⟩

theorem regAt_atcTimeSetHi : regAt atcTimeSetHi = some ({ base := 0x0000030c, kind := .pairHi }, 0, 0) := rfl

/-- The upper half of a value set applies the pair (R11, R488). -/
theorem State.write32_atcTimeSetHi {w : Word} (v : Word) (lower : tfind s.held atcTimeSetLo = some w) :
    s.write32 atcTimeSetHi v =
      ({ s with held := tdel s.held atcTimeSetLo }.timeSetPair (w.toNat + 2 ^ 32 * v.toNat)).condPrune := by
  have half : tget (s.rd (atcTimeSetHi - 4)) s.held (atcTimeSetHi - 4) = w := by
    show (tfind s.held atcTimeSetLo).getD _ = w
    rw [lower, Option.getD_some]
  rw [s.write32_register v (by decide) (by decide) regAt_atcTimeSetHi (s.windowShut_low (by decide)),
    s.regWrite_pairHi regAt_atcTimeSetHi v rfl, half]
  rfl

end

/-! ## Flash commands -/

section
variable {op a : Nat} {c : Instr} {s : State}

/-- The commands of the flash with their codes. -/
def isFlCommand (op a : Nat) (c : Instr) : Prop :=
  (op, c) ∈ [(1, .flRead a), (2, .flProgram a), (3, .flErase4k a), (4, .flErase64k a)]

theorem exec_flRead : exec (.flRead a) s = execFlRead a s := rfl
theorem exec_flProgram : exec (.flProgram a) s = execFlProgram a s := rfl
theorem exec_flErase4k : exec (.flErase4k a) s = execFlErase4k a s := rfl
theorem exec_flErase64k : exec (.flErase64k a) s = execFlErase64k a s := rfl

theorem exec_flCommand (row : isFlCommand op a c) : (0 < op ∧ op < 5) ∧ exec c s = .next (s.flCmdWrite (flWord op a)) := by
  simp only [isFlCommand, List.mem_cons, Prod.mk.injEq, List.not_mem_nil, or_false] at row
  rcases row with ⟨rfl, rfl⟩ | ⟨rfl, rfl⟩ | ⟨rfl, rfl⟩ | ⟨rfl, rfl⟩
  · exact ⟨by decide, by rw [exec_flRead, execFlRead]⟩
  · exact ⟨by decide, by rw [exec_flProgram, execFlProgram]⟩
  · exact ⟨by decide, by rw [exec_flErase4k, execFlErase4k]⟩
  · exact ⟨by decide, by rw [exec_flErase64k, execFlErase64k]⟩

theorem State.flCmdWrite_busy (v : Word) (busy : s.rb atcFlCmd 31 = true) : s.flCmdWrite v = s.setB atcFlStatus 0 := by
  rw [State.flCmdWrite]
  dsimp only
  rw [if_pos busy]

theorem flCommand_busy (row : isFlCommand op a c) (busy : s.rb atcFlCmd 31 = true) :
    exec c s = .next (s.setB atcFlStatus 0) := by
  rw [(exec_flCommand row).2, State.flCmdWrite_busy _ busy]

theorem flCommand_idle (row : isFlCommand op a c) (small : a < 2 ^ 28) (idle : s.rb atcFlCmd 31 = false) :
    let n := flUnit op
    let stageOk : Prop := s.stage = 8 ∨ s.stage = 9 ∨ s.stage = 10
    let refused (r : Nat) : Prop := ∃ u, exec c s = .next u ∧ u.rf atcFlStatus 31 24 = r ∧
      u.rb atcFlCmd 31 = false ∧ onlyIn [.regs] s u
    (¬stageOk → refused 5) ∧ (stageOk → a % n ≠ 0 → refused 2) ∧
      (stageOk → a % n = 0 → s.flashSize < a + n → refused 3) ∧
      (stageOk → a % n = 0 → a + n ≤ s.flashSize → s.flProtected a n = true → refused 1) ∧
      (stageOk → a % n = 0 → a + n ≤ s.flashSize → s.flProtected a n = false → ∃ u, exec c s = .next u ∧
        u.rb atcFlCmd 31 = true ∧ u.attic = { s.attic with flCmd := some (op, a) } ∧ onlyIn [.regs, .attic] s u) := by
  intro n stageOk refused
  obtain ⟨code, out⟩ := exec_flCommand (s := s) row
  rw [State.flCmdWrite_idle code small idle] at out
  have refusal (r : Nat) (hr : r < 256) (e : exec c s = .next ((s.flGiven op a).wf atcFlStatus 31 24 r)) : refused r :=
    ⟨_, e, State.flGiven_refused idle hr⟩
  have open_ (ok : stageOk) : ¬(!decide (s.stage = 8 ∨ s.stage = 9 ∨ s.stage = 10)) = true := by simp [stageOk] at ok; simp [ok]
  refine ⟨fun away => ?_, fun ok odd => ?_, fun ok even beyond => ?_, fun ok even fits guarded => ?_,
    fun ok even fits free => ?_⟩
  · rw [if_pos (by simpa [stageOk] using away)] at out
    exact refusal 5 (by decide) out
  · rw [if_neg (open_ ok), if_pos odd] at out
    exact refusal 2 (by decide) out
  · rw [if_neg (open_ ok), if_neg (not_not.2 even), if_pos beyond] at out
    exact refusal 3 (by decide) out
  · rw [if_neg (open_ ok), if_neg (not_not.2 even), if_neg (by omega), if_pos guarded] at out
    exact refusal 1 (by decide) out
  · rw [if_neg (open_ ok), if_neg (not_not.2 even), if_neg (by omega), if_neg (by simp [n] at free; simp [free])] at out
    obtain ⟨held, attic, frame⟩ := (s.flGiven op a).inHand_shows op a
    rw [s.attic_flGiven] at attic
    exact ⟨_, out, held, attic, onlyIn.trans ((s.flGiven_keeps op a).mono rfl).same frame⟩

/-- What the end of a flash command leaves (R484). -/
theorem flashCommandEnd_ends (cmd : s.attic.flCmd = some (op, a)) (ok : Bool) :
    let n := flUnit op
    let at1 (u : State) (x : Nat) : Byte := tget flashErased u.attic.flash x
    ∃ u, exec (.flashCommandEnd ok) s = .next u ∧ u.attic.flCmd = none ∧
      (∀ x, x < a ∨ a + n ≤ x → at1 u x = at1 s x) ∧
      (s.attic.restartDeferred = true → u.stage = 1 ∧ u.rf atcBootStatus 23 20 = 1) ∧
      (s.attic.restartDeferred = false → u.rb atcFlCmd 31 = false ∧ shas u.bell.pulses 1348 = true ∧
        u.rf atcFlStatus 31 24 = (if ok then 0 else 4) ∧
        (op = 1 → u.attic.flash = s.attic.flash ∧ (ok = true →
          ∀ j, j < 64 → (u.rd (atcFlData j)).toNat = leNat (s.flashRead (a + 4 * j) 4))) ∧
        (op = 2 → ok = true → ∀ j, j < 256 →
          at1 u (a + j) = at1 s (a + j) &&& BitVec.ofNat 8 ((s.rd (atcFlData (j / 4))).toNat / 2 ^ (8 * (j % 4)))) ∧
        (op = 3 ∨ op = 4 → ok = true → ∀ x, a ≤ x → x < a + n → at1 u x = flashErased)) := by
  intro n at1
  have whole := exec_flashCommandEnd cmd ok
  have beyond (x : Nat) (out : x < a ∨ a + n ≤ x) : (s.flEnded op a ok).flashAt x = s.flashAt x :=
    s.flashAt_flPerform_out op a ok out
  cases later : s.attic.restartDeferred
  · rw [later, if_neg Bool.false_ne_true] at whole
    obtain ⟨idle, pulsed, result⟩ := s.flEnded_shows op a ok
    refine ⟨_, whole, rfl, beyond, fun on => absurd on Bool.false_ne_true, fun _ => ⟨idle, pulsed, result, ?_, ?_, ?_⟩⟩
    · rintro rfl
      refine ⟨(s.flash_flEnded 1 a ok).trans (congrArg Attic.flash (s.attic_flPerform_read a ok)), ?_⟩
      rintro rfl j hj
      have apart : atcFlData j ≠ atcFlCmd ∧ atcFlData j ≠ atcFlStatus := by unfold atcFlData atcFlCmd atcFlStatus; omega
      rw [s.rd_flEnded 1 a true apart.1 apart.2]
      exact s.rd_flPerform_read a hj
    · rintro rfl rfl j hj
      have byte := s.flashAt_flPerform_program a hj
      rw [State.flashAt, ← s.flash_flEnded 2 a true] at byte
      exact byte
    · rintro erase rfl x lo hi
      exact s.flashAt_flPerform_erase op a erase lo hi
  · rw [later, if_pos rfl] at whole
    have attic := (s.flEnded op a ok).attic_restart
    refine ⟨_, whole, ?_, fun x out => ?_, fun _ => State.restart_stage _, fun off => absurd off (by simp)⟩
    · rw [attic]
      rfl
    · refine Eq.trans ?_ (beyond x out)
      show tget flashErased (s.flEnded op a ok).restart.attic.flash x = _
      rw [attic]
      rfl

end

/-! ## Slot commands -/

section
variable {s : State} {tries : Nat} {ok fo : Bool}

theorem slotCommands_busy (busy : s.rb atcSlotCtl 31 = true) : exec (.slotTry tries ok) s = .next s ∧
    exec (.slotConfirm tries ok fo) s = .next s ∧ exec (.slotRevert tries ok) s = .next s :=
  ⟨congrArg Host.Outcome.next (State.slotCtlWrite_busy _ busy), congrArg Host.Outcome.next (State.slotCtlWrite_busy _ busy),
    congrArg Host.Outcome.next (State.slotCtlWrite_busy _ busy)⟩

theorem slotCommands_noTries (idle : s.rb atcSlotCtl 31 = false) (none : tries % 8 = 0) :
    let still (u : State) : Prop := u.attic = s.attic
    slotEnds s 4 (exec (.slotTry tries ok) s) still ∧ slotEnds s 4 (exec (.slotConfirm tries ok fo) s) still ∧
      slotEnds s 4 (exec (.slotRevert tries ok) s) still :=
  ⟨slotEnds_noTries idle (by decide) none, slotEnds_noTries idle (by decide) none, slotEnds_noTries idle (by decide) none⟩

theorem slotCommands_end (idle : s.rb atcSlotCtl 31 = false) (some : tries % 8 ≠ 0) :
    let c := s.rf atcBootStatus 27 27
    let trial := s.rb atcBootStatus 26
    let ends := slotEnds s
    let still (u : State) : Prop := u.attic = s.attic
    let tr := exec (.slotTry tries ok) s
    let co := exec (.slotConfirm tries ok fo) s
    let re := exec (.slotRevert tries ok) s
    (s.fullCheck (1 - c) ≠ 0 → ends 2 tr fun u => still u ∧
        u.rf atcBootErr (8 * (1 - c) + 7) (8 * (1 - c)) = s.fullCheck (1 - c) % 256) ∧
      (s.fullCheck (1 - c) = 0 → ok = true → ends 0 tr fun u =>
        recorded { s.recNow with try? := .some (1 - c), tries := tries % 8, tally := 2 ^ 64 - 1 } s u) ∧
      (s.fullCheck (1 - c) = 0 → ok = false → ends 3 tr fun _ => True) ∧
      (s.stage ≠ 8 → ends 1 co still ∧ ends 1 re still) ∧
      (s.stage = 8 → trial = true → ok = false → ends 3 co fun u => u.attic.fuseSvn = s.attic.fuseSvn) ∧
      (s.stage = 8 → trial = true → ok = true → fo = true → ends 0 co fun u => u.rb atcBootStatus 26 = false ∧
        recorded { s.recNow with active := c, try? := none, tally := 2 ^ 64 - 1 } s u) ∧
      (s.stage = 8 → trial = false → fo = true → ends 0 co fun u => u.attic.flash = s.attic.flash ∧
        u.attic.fuseSvn = (if s.imgFlag c 0 then max s.attic.fuseSvn (s.imgSvn c) else s.attic.fuseSvn) ∧
        ∀ j, j < 4 → (s.imgN c 40 1).testBit j = true → j ≠ s.imgKey c →
          (u.attic.keys.getD j KeySlot.reset).revoked = true) ∧
      (s.stage = 8 → trial = false → fo = false → ends 5 co fun u => u.attic.flash = s.attic.flash) ∧
      (s.stage = 8 → s.recNow.try? = none → ends 1 re still) ∧
      (s.stage = 8 → s.recNow.try? ≠ none → ok = false → ends 3 re fun _ => True) ∧
      (s.stage = 8 → s.recNow.try? ≠ none → ok = true → ends 0 re fun u => u.rb atcBootStatus 26 = false ∧
        recorded { s.recNow with try? := none } s u) := by
  obtain ⟨defect, tried, failed⟩ := slotTry_ends (ok := ok) (fo := true) idle some rfl
  obtain ⟨refused, reFailed, reverted⟩ := slotRevert_ends (ok := ok) (fo := true) idle some
  have confirmed := fun done => slotConfirm_ends (ok := ok) (fo := fo) idle some rfl done
  exact ⟨defect, tried, failed, fun away => ⟨slotEnds_refused idle some away, refused (.inl away)⟩,
    fun done => (confirmed done).1, fun done => (confirmed done).2.1, fun done => (confirmed done).2.2.1,
    fun done => (confirmed done).2.2.2, fun _ untried => refused (.inr untried), reFailed, reverted⟩

/-- A trial that has lasted is confirmed by itself (R486). -/
theorem autoConfirm_due : let c := s.rf atcBootStatus 27 27
    let wait := s.imgN c 24 4
    let due : Prop := s.stage = 8 ∧ s.rb atcBootStatus 26 = true ∧ s.inSafe = false ∧ wait ≠ 0 ∧
      s.attic.doneFrom + wait * 25000000 ≤ s.cycles
    (¬due → exec (.autoConfirm ok fo) s = .next s) ∧
    (due → ∃ u, exec (.autoConfirm ok fo) s = .next u ∧ onlyIn [.regs, .freeCtr, .attic] s u ∧
      (ok = true → fo = true → u.rb atcBootStatus 26 = false ∧
        recorded { s.recNow with active := c, try? := none, tally := 2 ^ 64 - 1 } s u)) := by
  intro c wait due
  have same : (s.stage = 8 ∧ s.rb atcBootStatus 26 ∧ !s.inSafe ∧ wait ≠ 0 ∧
      s.attic.doneFrom + wait * 25000000 ≤ s.cycles) ↔ due := by simp [due]
  have whole : exec (.autoConfirm ok fo) s = execAutoConfirm ok fo s := rfl
  refine ⟨fun early => ?_, fun late => ⟨_, ?_, (s.confirm_keeps ok fo).same, ?_⟩⟩
  · rw [whole, execAutoConfirm]
    rw [if_neg fun h => early (same.1 h)]
  · rw [whole, execAutoConfirm]
    rw [if_pos (same.2 late)]
  · rintro rfl rfl
    exact State.confirm_trial_shows late.2.1

end

/-! ## Device time -/

theorem timeTick_ends (s : State) : ∃ u, exec .timeTick s = .next u ∧ u.cycles = s.cycles + 1 ∧ u.attic.timeSet = none ∧
    u.rb atcTimeStatus 31 = decide (u.attic.slew ≠ 0) ∧ onlyIn [.regs, .time, .cycles, .mast, .bell, .attic] s u ∧
    (∀ v, s.attic.timeSet = some v → u.time = v * 2 ^ 24 ∧ u.attic.slew = 0 ∧ u.rb atcTimeStatus 30 = true ∧
      shas u.bell.pulses 1350 = true) ∧
    (s.attic.timeSet = none →
      let z := s.attic.slew
      let sum : Int := s.time + s.rdN atcTimeIncr + (z - u.attic.slew)
      (z.natAbs ≤ 41943040 → u.attic.slew = 0) ∧ (41943040 < z → u.attic.slew = z - 41943040) ∧
      (z < -41943040 → u.attic.slew = z + 41943040) ∧ (0 ≤ sum → (u.time : Int) = sum % 2 ^ 88)) := by
  have kept : ∃ t, exec .timeTick s = .next t ∧ _ := execTimeTick_keeps s
  cases h : s.attic.timeSet with
  | none =>
    have out := exec_timeTick_runs s h
    obtain ⟨all, low, high⟩ := slewLeft_spec s.attic.slew
    exact ⟨_, out, rfl, h, s.timeGained_status, onlyIn_of_next kept out, fun v set => absurd set (by simp),
      fun _ => ⟨all, low, high, s.time_timeGained⟩⟩
  | some v =>
    have out := exec_timeTick_set s h
    obtain ⟨cycles, attic, slewing, time, stepped, pulsed⟩ := s.timeStepped_shows v
    refine ⟨_, out, cycles, congrArg Attic.timeSet attic, ?_, onlyIn_of_next kept out, ?_, fun none => absurd none (by simp)⟩
    · rw [slewing, attic]
      rfl
    · rintro v' same
      obtain rfl := Option.some.inj same
      exact ⟨time, congrArg Attic.slew attic, stepped, pulsed⟩

theorem timeRegisters (v w : Word) (s : State) :
    (∃ u, exec (.timeAdjWrite v) s = .next u ∧ u.attic = { s.attic with slew := v.toInt * 2 ^ 24 } ∧
      u.rb atcTimeStatus 31 = (v != 0#32) ∧ onlyIn [.regs, .attic] s u) ∧
    (tfind s.held atcTimeSetLo = some w → ∃ u, exec (.timeSetWrite v) s = .next u ∧
      u.attic = { s.attic with timeSet := some (w.toNat + 2 ^ 32 * v.toNat) } ∧ onlyIn [.held, .bell, .attic] s u) ∧
    (0x2799999A ≤ v.toNat → v.toNat ≤ 0x28666666 → ∃ u, exec (.timeIncrWrite v) s = .next u ∧ u.rd atcTimeIncr = v ∧
      (∀ a, a ≠ atcTimeIncr → u.rd a = s.rd a) ∧ onlyIn [.regs] s u) ∧
    (v.toNat < 0x2799999A ∨ 0x28666666 < v.toNat → exec (.timeIncrWrite v) s = .next s) := by
  refine ⟨⟨_, rfl, s.timeAdjWrite_shows v⟩, fun lower => ?_, fun lo hi => ?_, fun out => ?_⟩
  · refine ⟨_, congrArg Host.Outcome.next (s.write32_atcTimeSetHi v lower), rfl, fun p out => ?_⟩
    cases p with
    | held | bell | attic => exact absurd (by decide) out
    | _ => rfl
  · have written : exec (.timeIncrWrite v) s = .next (s.wr atcTimeIncr v) :=
      congrArg Host.Outcome.next (if_pos ⟨lo, hi⟩)
    exact ⟨_, written, s.rd_wr_same _ _, fun a ne => s.rd_wr_ne _ ne, (s.wr_keeps _ _).same⟩
  · exact congrArg Host.Outcome.next (if_neg (by omega))

end Sys2Proof.Machine

section
open Sys2Proof Sys2Proof.Machine

/-- Settles O59: a flash command that none precedes is refused or in hand, and its end is what it does to the flash; a
slot command ends with its RESULT and the record it wrote; device time gains, slews or steps by its cycle. -/
theorem flashSlotsAndDeviceTime : Obligations.FlashSlotsAndDeviceTime := by
  unfold Obligations.FlashSlotsAndDeviceTime
  refine ⟨?given, ?idle, ?ends, ?slots, ?tick, ?registers⟩
  case given => exact fun op a c s row small => ⟨flCommand_busy row, flCommand_idle row small⟩
  case idle =>
    intro ok s none
    have whole : exec (.flashCommandEnd ok) s = execFlashCommandEnd ok s := rfl
    rw [whole, execFlashCommandEnd, none]
  case ends => exact fun ok op a s cmd => flashCommandEnd_ends cmd ok
  case slots =>
    exact fun tries ok fo s => ⟨slotCommands_busy, fun idle none => slotCommands_noTries idle none,
      fun idle some => slotCommands_end idle some, autoConfirm_due⟩
  case tick => exact timeTick_ends
  case registers => exact timeRegisters

end

/-! PROOFS. Which registers an engine's stop and start and a slice's restart may write: none of Masthead. -/

namespace Sys2Proof.Machine

/-! ## Engines -/

/-- What stopping or starting engine `e` may write. -/
def engineWrites (e a : Nat) : Prop :=
  a = lftEngStatus e ∨ a = atcGatedLoftsLo ∨ a = atcGatedLoftsHi ∨ cupWrites a ∨ (0x04000000 ≤ a ∧ a < 0x05000000)

theorem engineWrites_gatedLoft (e l : Nat) : engineWrites e (gatedLoft l) := by
  unfold gatedLoft
  split
  · exact .inr (.inl rfl)
  · exact .inr (.inr (.inl rfl))

theorem cupWrites_ge {a : Nat} (h : cupWrites a) : 0x05000000 ≤ a := by
  rcases h with cel | here | here | ⟨k, hk, here⟩
  · have := celWrites_ge cel
    omega
  · exact here ▸ by decide
  · exact here ▸ by decide
  · subst here
    unfold cupPoolStatus
    omega

/-- Of the registers before 0x03000000 only those of the gated lofts. -/
theorem engineWrites_low {e a : Nat} (h : engineWrites e a) (low : a < 0x03000000) :
    a = atcGatedLoftsLo ∨ a = atcGatedLoftsHi := by
  rcases h with here | here | here | cup | bell
  · unfold lftEngStatus at here
    omega
  · exact .inl here
  · exact .inr here
  · have := cupWrites_ge cup
    omega
  · omega

section
variable (s : State)

theorem State.gateLoft_writes (l : Nat) : writesOnly (· = gatedLoft l) s (s.gateLoft l) := by
  unfold State.gateLoft
  exact .ite ((writesOnly.refl (· = gatedLoft l) s).setB rfl _) (.refl _ s)

/-- A thread's state shows in its engine's status, and its loft may gate. -/
theorem State.setThr_writes (t : Nat) (th : Thread) :
    writesOnly (fun a => a = lftEngStatus (t / 8) ∨ a = gatedLoft (t / 64)) s (s.setThr t th) := by
  have put : writesOnly (fun a => a = lftEngStatus (t / 8) ∨ a = gatedLoft (t / 64)) s
      { s with lft := { s.lft with threads := tput s.lft.threads t th } } := (writesOnly.refl _ s).regs rfl
  unfold State.setThr
  dsimp only
  split
  · exact put
  · have shown := (put.putB (a := lftEngStatus (t / 8)) (.inl rfl) (8 + t % 8) (th.state == 4)).putB
      (a := lftEngStatus (t / 8)) (.inl rfl) (t % 8) (th.state == 3)
    generalize State.putB (State.putB _ _ _ _) _ _ _ = u at *
    have fired (e : Nat) (x : Engine) (c : Prop) [Decidable c] :
        writesOnly (fun a => a = lftEngStatus (t / 8) ∨ a = gatedLoft (t / 64)) s
          (if c then { u with lft := { u.lft with engines := tput u.lft.engines e x } } else u) :=
      .ite (shown.regs rfl) shown
    exact .ite (fired _ _ _) ((fired _ _ _).trans ((State.gateLoft_writes _ _).mono fun _ h => .inr h))

theorem State.setThr_engine (t : Nat) (th : Thread) : writesOnly (engineWrites (t / 8)) s (s.setThr t th) :=
  (s.setThr_writes t th).mono fun a h => h.elim .inl fun gated => gated ▸ engineWrites_gatedLoft _ _

theorem State.freeTicket_writes (id : Nat) : writesOnly cupWrites s (s.freeTicket id) := by
  unfold State.freeTicket
  exact (writesOnly.ite (.refl _ s) (s.hwFree_writes _)).keeps (State.dropTicket_keeps _ id) (by decide)

theorem State.freeTicket_engine (e id : Nat) : writesOnly (engineWrites e) s (s.freeTicket id) :=
  (s.freeTicket_writes id).mono fun _ h => .inr (.inr (.inr (.inl h)))

theorem State.complete_engine {e : Nat} (small : e < 1024) : writesOnly (engineWrites e) s (s.complete e) :=
  (s.complete_writes small).mono fun _ h => .inr (.inr (.inr (.inr h)))

theorem State.setThr_own {e i : Nat} (hi : i < 8) (th : Thread) :
    writesOnly (engineWrites e) s (s.setThr (e * 8 + i) th) := by
  have own : (e * 8 + i) / 8 = e := by omega
  have set := s.setThr_engine (e * 8 + i) th
  rwa [own] at set

theorem State.endThread_writes {e i : Nat} (hi : i < 8) :
    writesOnly (engineWrites e) s (s.endThread e (e * 8 + i)) := by
  have freed (ids : List Nat) : writesOnly (engineWrites e) s
      (s.each ids fun v id => (v.count evLftTicketDead (v.progGroup (v.ticket id).prog) 0).freeTicket id) :=
    (writesOnly.refl _ s).each fun v id _ => ((writesOnly.refl _ v).count _ _ _).trans (State.freeTicket_engine _ e id)
  exact ((freed _).countBy _ _ _ _).trans (State.setThr_own _ hi _)

theorem State.engineStop_writes {e : Nat} (small : e < 512) (cause : Nat) :
    writesOnly (engineWrites e) s (s.engineStop e cause) := by
  by_cases runs : s.rf (lftEngStatus e) 31 30 = 1
  · rw [State.engineStop, if_pos runs]
    exact .refl _ s
  · rw [State.engineStop_of_runs runs]
    have threads : writesOnly (engineWrites e) s (s.each (upto 8) fun u i => u.endThread e (e * 8 + i)) :=
      (writesOnly.refl _ s).each fun u i hi => u.endThread_writes (mem_upto.1 hi)
    dsimp only
    generalize s.each _ _ = t at *
    have stopped := (threads.wf (a := lftEngStatus e) (.inl rfl) 31 30 1).wf (a := lftEngStatus e) (.inl rfl) 23 16 cause
    exact ((stopped.trans (State.complete_engine _ (by omega))).report _ _ _).count _ _ _

theorem State.threadReset_writes {t : Nat} (small : t / 8 < 1024) :
    writesOnly (engineWrites (t / 8)) s (s.threadReset t) := by
  have letters := (writesOnly.refl (engineWrites (t / 8)) s).countBy evLftLbDiscard (t / 8) 0 (s.thr t).letters.length
  unfold State.threadReset
  dsimp only
  have dropped : writesOnly (engineWrites (t / 8)) s (match (s.thr t).ticket with
      | some id => ((s.countBy evLftLbDiscard (t / 8) 0 (s.thr t).letters.length).freeTicket id).count
          evLftTicketAbandoned (t / 8) 0
      | none => s.countBy evLftLbDiscard (t / 8) 0 (s.thr t).letters.length) := by
    split
    · exact (letters.trans (State.freeTicket_engine _ _ _)).count _ _ _
    · exact letters
  have reset := dropped.trans (State.setThr_engine _ t { Thread.init with queue := (s.thr t).queue, state := 0 })
  exact .ite (reset.trans (State.complete_engine _ small)) reset

theorem State.engineStart_writes {e : Nat} (small : e < 1024) : writesOnly (engineWrites e) s (s.engineStart e) := by
  have threads : writesOnly (engineWrites e) s (s.each (upto 8) fun u i => u.threadReset (e * 8 + i)) := by
    refine (writesOnly.refl _ s).each fun u i hi => ?_
    have own : (e * 8 + i) / 8 = e := by have := mem_upto.1 hi; omega
    have reset := State.threadReset_writes u (t := e * 8 + i) (by omega)
    rwa [own] at reset
  unfold State.engineStart
  dsimp only
  generalize s.each _ _ = t at *
  have cleared := threads.regs (u := { t with
    ecc := t.ecc.filter fun p => !(p.1 == EccMem.lftLocal && p.2.1 / 8192 == e)
    lft := { t.lft with
      localMem := memErase t.lft.localMem (e * 65536) 65536
      engines := tput t.lft.engines e Engine.init } }) rfl
  generalize ({ t with
    ecc := t.ecc.filter fun p => !(p.1 == EccMem.lftLocal && p.2.1 / 8192 == e)
    lft := { t.lft with
      localMem := memErase t.lft.localMem (e * 65536) 65536
      engines := tput t.lft.engines e Engine.init } } : State) = u at *
  have shown := (cleared.wf (a := lftEngStatus e) (.inl rfl) 31 30 (if u.loftReserved (e / 8) then 2 else 0)).wf
    (a := lftEngStatus e) (.inl rfl) 23 16 0
  exact .ite (shown.trans (State.setThr_own _ (i := 0) (by decide) _)) shown

end

end Sys2Proof.Machine

/-! PROOFS. Which registers a slice's restart may write (R496). -/

namespace Sys2Proof.Machine

/-- What discarding a slice's frames may write. -/
def sliceWrites (a : Nat) : Prop := a = atcPwrStatus ∨ 0x03000000 ≤ a

theorem not_sliceWrites {a : Nat} (low : a < 0x03000000) (ne : a ≠ atcPwrStatus) : ¬sliceWrites a := by
  unfold sliceWrites
  omega

theorem sliceWrites_cup {a : Nat} (h : cupWrites a) : sliceWrites a := .inr (by have := cupWrites_ge h; omega)

/-- Stewards' tables are no registers. -/
theorem writesOnly.stw {w : Nat → Prop} {s t : State} (h : writesOnly w s t) (x : Stw) :
    writesOnly w s { t with stw := x } := h.regs rfl

theorem writesOnly.emptied {w : Nat → Prop} {s t : State} (h : writesOnly w s t) (c : Cup) (x : Stw) (p : Pipe) :
    writesOnly w s { t with cup := c, stw := x, pipe := p } := h.regs rfl

section
variable (s : State)

/-! ## A frame leaves its slice -/

theorem State.dropMark_writes (f : Nat) : writesOnly sliceWrites s (s.dropMark f) := by
  unfold State.dropMark
  split
  · exact .refl _ s
  · next b _ =>
    have released := (writesOnly.refl sliceWrites s).wrN (a := crwMigInflight (nat b))
      (.inr (by unfold crwMigInflight; omega)) (s.rdN (crwMigInflight (nat b)) - 1)
    exact released.regs rfl

theorem State.frameRelease_writes (f : Nat) : writesOnly sliceWrites s (s.frameRelease f) :=
  ((writesOnly.refl _ s).keeps (s.dropSets_keeps f fun _ => false) (by decide)).trans (State.dropMark_writes _ f)

theorem State.xoffClass_writes (n c : Nat) : writesOnly sliceWrites s (s.xoffClass n c) := by
  unfold State.xoffClass
  dsimp only
  refine .ite (.refl _ s) (.ite (.ite (.refl _ s) ?_) (.ite ?_ (.refl _ s)))
  · refine (writesOnly.refl _ s).each fun t p _ => .ite (.refl _ t) ?_
    refine writesOnly.count ?_ _ _ _
    exact writesOnly.regs (.refl _ t) rfl
  · refine (writesOnly.refl _ s).each fun t p _ => .ite ?_ (.refl _ t)
    exact writesOnly.regs (.refl _ t) rfl

theorem State.freeFrameUnits_writes (f : Nat) : writesOnly sliceWrites s (s.freeFrameUnits f) := by
  unfold State.freeFrameUnits
  dsimp only
  refine .ite (.refl _ s) ?_
  exact writesOnly.each (writesOnly.regs (.refl _ s) rfl) fun u c _ => u.xoffClass_writes _ c

theorem State.freeBuf_writes (f : Nat) : writesOnly sliceWrites s (s.freeBuf f) := by
  unfold State.freeBuf
  dsimp only
  refine .ite (.refl _ s) ?_
  exact ((s.hwFree_writes _).mono fun _ => sliceWrites_cup).keeps (State.setFrame_keeps _ f _) (by decide)

theorem State.discardFrame_writes (f : Nat) : writesOnly sliceWrites s (s.discardFrame f) := by
  have left := ((s.frameRelease_writes f).trans (State.freeFrameUnits_writes _ f)).trans (State.freeBuf_writes _ f)
  unfold State.discardFrame
  dsimp only
  generalize ((s.frameRelease f).freeFrameUnits f).freeBuf f = t at *
  refine .ite (.refl _ s) (writesOnly.keeps (left.regs ?_) (State.tidy_keeps _ f) (by decide))
  rfl

theorem State.endIngress_writes (f by_ : Nat) : writesOnly sliceWrites s (s.endIngress f by_) :=
  ((writesOnly.refl _ s).keeps (s.settle_keeps f by_) (by decide)).trans (State.discardFrame_writes _ f)

theorem State.inError_writes (f : Nat) : writesOnly sliceWrites s (s.inError f) := by
  have ended (l : List Nat) : writesOnly sliceWrites s (s.each l fun t e => t.egError f e 3) :=
    (writesOnly.refl _ s).each fun t e _ => (writesOnly.refl _ t).keeps (t.egError_keeps f e 3) (by decide)
  unfold State.inError
  dsimp only
  split
  · exact .ite (s.discardFrame_writes f) (s.endIngress_writes f 3)
  · have crossed := ended ((s.frame f).fab.owed.filter fun e => (s.egFrame f e).isSome)
    generalize s.each _ _ = t at *
    exact (crossed.regs rfl).trans (State.freeFrameUnits_writes _ f)

theorem State.frameCast_writes (f : Nat) : writesOnly sliceWrites s (s.frameCast f) := by
  unfold State.frameCast
  refine .ite (.refl _ s) (writesOnly.trans ?_ (State.inError_writes _ f))
  exact writesOnly.regs (.refl _ s) rfl

/-! ## Egress -/

theorem State.egEnqueue_writes (f e : Nat) : writesOnly sliceWrites s (s.egEnqueue f e) := by
  unfold State.egEnqueue
  dsimp only
  refine (writesOnly.refl _ s).each fun t p _ => .ite ?_ ?_
  · refine writesOnly.count (writesOnly.keeps ?_ (State.copyEnd_keeps _ _ _) (by decide)) _ _ _
    exact writesOnly.regs (.refl _ t) rfl
  · exact writesOnly.regs (.refl _ t) rfl

/-- A frame on its way into an egress slice leaves it. -/
theorem State.egDrop_writes (g : EgFrame) : writesOnly sliceWrites s (s.egDrop g) := by
  unfold State.egDrop
  dsimp only
  split
  · have left (l : List (Nat × Copy)) : writesOnly sliceWrites s (s.each l fun t p =>
        { t.egLeave p.1 with stw := { (t.egLeave p.1).stw with copies := tdel (t.egLeave p.1).stw.copies p.1 } }) :=
      (writesOnly.refl _ s).each fun t p _ =>
        writesOnly.regs ((writesOnly.refl _ t).keeps (t.egLeave_keeps p.1) (by decide)) rfl
    exact ((left _).stw _).stw _
  · have bad (c : Prop) [Decidable c] : writesOnly sliceWrites s (if c then s.inError g.fid else s) :=
      .ite (s.inError_writes _) (.refl _ s)
    have queued (t : State) (h : writesOnly sliceWrites s t) (c : Prop) [Decidable c] :
        writesOnly sliceWrites s (if c then t.egEnqueue g.fid g.dst else t) := .ite (h.trans (t.egEnqueue_writes _ _)) h
    have ended (t : State) (h : writesOnly sliceWrites s t) : writesOnly sliceWrites s (t.egError g.fid g.dst 3) :=
      h.keeps (t.egError_keeps g.fid g.dst 3) (by decide)
    exact (ended _ (queued _ (bad _) _)).stw _

/-! ## A slice wakes, is discarded and restarts -/

theorem State.wakeSlice_writes (sl : Nat) : writesOnly sliceWrites s (s.wakeSlice sl) := by
  unfold State.wakeSlice
  dsimp only
  refine .ite (.refl _ s) (writesOnly.each ?_ fun t f _ => .ite ?_ ?_)
  · exact ((writesOnly.refl _ s).putB (a := atcPwrStatus) (.inl rfl) sl false).regs rfl
  · exact ((writesOnly.refl _ t).count _ _ _).trans (State.discardFrame_writes _ f)
  · split
    · exact ((writesOnly.refl _ t).count _ _ _).trans (State.discardFrame_writes _ f)
    · next u took =>
      have taken := (writesOnly.refl sliceWrites t).keeps (t.takeUnits_keeps _ _ u took) (by decide)
      exact taken.regs rfl

theorem State.sliceDiscard_writes {lost : State → Nat → State} (told : ∀ t n, writesOnly sliceWrites t (lost t n)) (sl : Nat) :
    writesOnly sliceWrites s (s.sliceDiscard lost sl) := by
  unfold State.sliceDiscard
  dsimp only
  refine writesOnly.each (writesOnly.emptied (writesOnly.each (writesOnly.each (writesOnly.each (s.wakeSlice_writes sl)
    fun t n _ => ?_) fun t f _ => t.frameCast_writes f) fun t p _ => ?_) _ _ _) fun t g _ => t.egDrop_writes g
  · split
    · exact writesOnly.trans (writesOnly.regs (.refl _ t) rfl) (told _ n)
    · exact .refl _ t
  · exact (writesOnly.refl _ t).keeps (t.dropTicket_keeps _) (by decide)

theorem State.sliceRestart_writes (sl : Nat) : writesOnly sliceWrites s (s.sliceRestart sl) :=
  ((s.sliceDiscard_writes (fun t _ => (writesOnly.refl _ t).count _ _ _) sl).keeps (State.sliceRefill_keeps _ sl)
    (by decide)).count _ _ _

end

end Sys2Proof.Machine

/-! PROOFS. What units leave of Masthead: only counters move and reports come to wait (R503, R524). -/

namespace Sys2Proof.Machine

/-- Masthead but for its counters and the reports that wait. -/
def Mast.rest (m : Mast) : Mast := { m with ctrs := [], waiting := [] }

/-- Of Masthead beyond its registers only counters and waiting reports changed. -/
structure tallied (s t : State) : Prop where
  rest : t.mast.rest = s.mast.rest

section
variable {s t u : State}

theorem tallied.refl (s : State) : tallied s s := ⟨rfl⟩

theorem tallied.trans (h : tallied s t) (k : tallied t u) : tallied s u := ⟨k.rest.trans h.rest⟩

theorem tallied.same (h : tallied s t) (e : u.mast = t.mast) : tallied s u := ⟨(congrArg Mast.rest e).trans h.rest⟩

theorem tallied.keeps {l : List Part} (h : tallied s t) (k : Keeps l t u) (no : .mast ∉ l) : tallied s u :=
  h.same (k.same .mast no)

theorem tallied.ite {c : Prop} [Decidable c] (h : tallied s t) (k : tallied s u) : tallied s (if c then t else u) := by
  split <;> assumption

theorem tallied.each {α : Type} {l : List α} {f : State → α → State} (h : tallied s t)
    (step : ∀ u, ∀ x ∈ l, tallied u (f u x)) : tallied s (t.each l f) :=
  State.each_invariant h fun u x hx k => k.trans (step u x hx)

theorem tallied.countBy (h : tallied s t) (e o i n : Nat) : tallied s (t.countBy e o i n) := by
  refine h.trans ?_
  have counted (l : Tbl (Nat × Nat)) : tallied t { t with mast := { t.mast with ctrs := l } } := ⟨rfl⟩
  have wrapped (l : Tbl (Nat × Nat)) (p : Nat) : tallied t ({ t with mast := { t.mast with ctrs := l } }.setWrap p) := ⟨rfl⟩
  unfold State.countBy
  dsimp only
  exact .ite (counted _) (.ite (.ite (counted _) (wrapped _ _)) (wrapped _ _))

theorem tallied.count (h : tallied s t) (e o i : Nat) : tallied s (t.count e o i) := h.countBy e o i 1

theorem tallied.report (h : tallied s t) (src inst : Nat) (info : Word) : tallied s (t.report src inst info) := by
  refine h.trans ?_
  have waits (l : List Report) : tallied t { t with mast := { t.mast with waiting := l } } := ⟨rfl⟩
  unfold State.report
  exact .ite ((waits _).count _ _ _) (waits _)

theorem tallied.wr (h : tallied s t) (a : Nat) (v : Word) : tallied s (t.wr a v) := h.same (t.wr_mast a v)
theorem tallied.wrN (h : tallied s t) (a v : Nat) : tallied s (t.wrN a v) := h.wr a _
theorem tallied.wf (h : tallied s t) (a hi lo v : Nat) : tallied s (t.wf a hi lo v) := h.wr a _
theorem tallied.setB (h : tallied s t) (a i : Nat) : tallied s (t.setB a i) := h.wr a _
theorem tallied.putB (h : tallied s t) (a i : Nat) (b : Bool) : tallied s (t.putB a i b) := h.wr a _
theorem tallied.wr64 (h : tallied s t) (a v : Nat) : tallied s (t.wr64 a v) := (h.wrN a _).wrN _ _

/-- Errors that stand in words are nothing of Masthead. -/
theorem tallied.ecc (h : tallied s t) (l : List (EccMem × Nat × Bool)) : tallied s { t with ecc := l } := h.same rfl
theorem tallied.cel (h : tallied s t) (c : Cel) : tallied s { t with cel := c } := h.same rfl
theorem tallied.eccClear (h : tallied s t) (m : EccMem) (i : Nat) : tallied s (t.eccClear m i) := h.ecc _

theorem tallied.log (h : tallied s t) : t.mast.log = s.mast.log := by
  have same := congrArg Mast.log h.rest
  exact same
theorem tallied.firstHeld (h : tallied s t) : t.mast.firstHeld = s.mast.firstHeld := by
  have same := congrArg Mast.firstHeld h.rest
  exact same
theorem tallied.quietFrom (h : tallied s t) : t.mast.quietFrom = s.mast.quietFrom := by
  have same := congrArg Mast.quietFrom h.rest
  exact same
theorem tallied.recov (h : tallied s t) : t.mast.recov = s.mast.recov := by
  have same := congrArg Mast.recov h.rest
  exact same

end

section
variable (s : State)

/-! ## Cellar -/

theorem State.celLatch_tallied (req kind a bank : Nat) : tallied s (s.celLatch req kind a bank) :=
  ((tallied.refl s).wr _ _).wr64 _ _

theorem State.celRefuse_tallied (req a : Nat) : tallied s (s.celRefuse req a) :=
  ((((tallied.refl s).setB _ _).trans (State.celLatch_tallied _ _ _ _ _)).report _ _ _).count _ _ _

theorem State.celCheck_tallied (req burst : Nat) : tallied s (s.celCheck req burst) := by
  unfold State.celCheck
  dsimp only
  split
  · exact .refl s
  · exact ((((tallied.refl s).eccClear _ _).setB _ _).report _ _ _).count _ _ _
  · exact (((((((tallied.refl s).eccClear _ _).cel _).setB _ _).trans (State.celLatch_tallied _ _ _ _ _))).report _ _ _).count
      _ _ _

theorem State.celActivate_tallied (req a : Nat) : tallied s (s.celActivate req a) := by
  unfold State.celActivate
  dsimp only
  exact .ite ((tallied.refl s).count _ _ _) (.ite ((((tallied.refl s).cel _).count _ _ _).count _ _ _)
    (((tallied.refl s).cel _).count _ _ _))

theorem State.celTouch_tallied (write : Bool) (req a n : Nat) : tallied s (s.celTouch write req a n) := by
  unfold State.celTouch
  dsimp only
  exact tallied.cel (tallied.trans (.ite (((tallied.refl s).wf _ _ _ _).count _ _ _) (.refl s))
    (State.celActivate_tallied _ req a)) _

theorem State.celRead1_tallied (req a n : Nat) : tallied s (s.celRead1 req a n).1 := by
  have counted := (tallied.refl s).count evCelRd req 0
  unfold State.celRead1
  dsimp only
  split
  · dsimp only
    exact (counted.trans (State.celRefuse_tallied _ req a)).count evCelPoisonRead req 0
  · split
    · exact counted.count evCelPoisonRead req 0
    · have checked := (counted.trans (State.celTouch_tallied _ false req a n)).each
        (l := (upto ((a + n - 1) / 32 + 1 - a / 32)).map (· + a / 32)) fun t b _ => t.celCheck_tallied req b
      split
      · dsimp only
        exact checked.count evCelPoisonRead req 0
      · exact checked

theorem State.celReads_tallied (req : Nat) (l : List (Nat × Nat)) : tallied s (State.celReads req l s).1 := by
  induction l generalizing s with
  | nil => exact .refl s
  | cons p l ih => exact (s.celRead1_tallied req p.1 p.2).trans (ih _)

theorem State.celRead_tallied (req a n : Nat) : tallied s (s.celRead req a n).1 := s.celReads_tallied req _

theorem State.celBurstWrite_tallied (req : Nat) (poison : Bool) (a n burst : Nat) :
    tallied s (s.celBurstWrite req poison a n burst) := by
  exact tallied.cel (.ite ((tallied.refl s).eccClear _ _) ((s.celCheck_tallied req burst).count _ _ _)) _

theorem State.celApply_tallied (req a : Nat) (bytes : List Byte) (poison : Bool) :
    tallied s (s.celApply req a bytes poison) :=
  ((tallied.refl s).each fun t b _ => t.celBurstWrite_tallied req poison a bytes.length b).cel _

theorem State.backInvalidate_tallied (line : Nat) : tallied s (s.backInvalidate line) := by
  have emitted := (tallied.refl s).keeps (s.emit_keeps (.backInvalidate line)) (by decide)
  exact emitted.count _ _ _

theorem State.celWrite1_tallied (req a : Nat) (bytes : List Byte) (poison : Bool) :
    tallied s (s.celWrite1 req a bytes poison) := by
  have counted := (tallied.refl s).count evCelWr req 0
  unfold State.celWrite1
  dsimp only
  refine .ite (counted.trans (State.celRefuse_tallied _ _ _)) (.ite counted (.ite ?_ ?_))
  · exact (counted.trans (State.celTouch_tallied _ _ _ _ _)).trans (State.celApply_tallied _ _ _ _ _)
  · exact tallied.cel ((counted.trans (State.celTouch_tallied _ true req a bytes.length)).each
      fun t l _ => t.backInvalidate_tallied l) _

theorem State.celWrite_tallied (req a : Nat) (bytes : List Byte) : tallied s (s.celWrite req a bytes) :=
  (tallied.refl s).each fun t p _ => t.celWrite1_tallied req p.1 _ false

theorem State.heldRelease_tallied : tallied s s.heldRelease := by
  exact tallied.each ((tallied.refl s).cel _) fun t h _ => .ite (t.celApply_tallied _ _ _ _) ((tallied.refl t).cel _)

theorem State.channelFail_tallied (stack ch : Nat) : tallied s (s.channelFail stack ch) :=
  ((((tallied.refl s).setB _ _).setB _ _).trans (State.celLatch_tallied _ _ _ _ _)).report _ _ _

/-! ## Cupboard -/

theorem State.levels_tallied (k : Nat) : tallied s (s.levels k) := by
  unfold State.levels
  dsimp only
  exact ((tallied.refl s).wf _ _ _ _).each fun t l _ => .ite (((tallied.refl t).setB _ _).count _ _ _)
    (.ite ((tallied.refl t).putB _ _ _) (.refl t))

theorem State.setPool_tallied (k : Nat) (p : Pool) : tallied s (s.setPool k p) :=
  (tallied.same (.refl s) rfl : tallied s { s with cup := { s.cup with pools := tput s.cup.pools k p } }).trans
    (State.levels_tallied _ k)

theorem State.bitmapCheck_tallied (k w : Nat) : tallied s (s.bitmapCheck k w) := by
  cases h : s.eccOf .cupBitmap (k * 65536 + w)
  · rw [State.bitmapCheck, h]
    exact .refl s
  · rw [State.bitmapCheck_corr h]
    exact ((((tallied.refl s).eccClear _ _).setB _ _).report _ _ _).count _ _ _
  · rw [State.bitmapCheck_uncorr h]
    have out : tallied s (s.wordOut k w) := ((tallied.refl s).eccClear _ _).trans (State.setPool_tallied _ k _)
    exact (((out.setB _ _).wr _ _).report _ _ _).count _ _ _

theorem State.cupCheck_tallied (a : Nat) (gen : Option Nat) : tallied s (s.cupCheck a gen).1 := by
  unfold State.cupCheck
  split
  · exact .refl s
  · next k i aligned _ =>
    split
    · exact .refl s
    · have checked := s.bitmapCheck_tallied k (i / 64)
      dsimp only
      split
      · exact checked
      · split
        · exact checked
        · have read := checked.trans (State.celRead_tallied (s.bitmapCheck k (i / 64)) 0x13
            ((s.bitmapCheck k (i / 64)).ownerAddr a) 8)
          split
          · next e =>
            rw [← congrArg Prod.fst e]
            exact read
          · next e =>
            have first := congrArg Prod.fst e
            dsimp only at first
            split
            · split <;> exact first ▸ read
            · exact first ▸ read

theorem State.ownerWrite_tallied (buf : Nat) (r : OwnerRec) : tallied s (s.ownerWrite buf r) := s.celWrite_tallied _ _ _

theorem State.cacheSpill_tallied (k : Nat) : tallied s (s.cacheSpill k) := by
  unfold State.cacheSpill
  dsimp only
  refine .ite (.refl s) (tallied.trans ?_ (State.setPool_tallied _ _ _))
  exact tallied.each (l := upto 64) (.refl s) fun t i _ => t.celWrite_tallied _ _ _

theorem State.bufReturn_tallied (k i : Nat) (r : OwnerRec) : tallied s (s.bufReturn k i r) :=
  (((s.ownerWrite_tallied _ _).trans (State.setPool_tallied _ k _)).trans (State.cacheSpill_tallied _ k)).count _ _ _

theorem State.cupFree_tallied (agent a : Nat) (gen : Option Nat) : tallied s (s.cupFree agent a gen).1 := by
  have checked := s.cupCheck_tallied a gen
  unfold State.cupFree
  rcases h : s.cupCheck a gen with ⟨t, r | ⟨k, i, r⟩⟩ <;> rw [h] at checked
  · exact checked
  · have back : tallied s (t.bufReturn k i r) := tallied.trans checked (t.bufReturn_tallied k i r)
    have wrote (q : OwnerRec) : tallied s (t.ownerWrite a q) := tallied.trans checked (t.ownerWrite_tallied a q)
    dsimp only
    split
    · split
      · exact back
      · exact checked
    · split
      · split
        · exact back
        · exact wrote _
      · split
        · exact checked
        · split
          · exact back
          · exact wrote _

theorem State.hwFree_tallied (a : Nat) : tallied s (s.hwFree a) := by
  have checked := s.cupCheck_tallied a none
  unfold State.hwFree
  rcases h : s.cupCheck a none with ⟨t, r | ⟨k, i, r⟩⟩ <;> rw [h] at checked
  · exact checked
  · exact tallied.trans checked (t.cupFree_tallied _ _ _)

end

end Sys2Proof.Machine

/-! PROOFS. What stopping engines, restarting slices and resetting Doorway leave of Masthead (R496, R508, R513). -/

namespace Sys2Proof.Machine

section
variable {s t : State}

theorem tallied.regs (h : tallied s t) {u : State} (k : Keeps [.regs] t u) : tallied s u := h.keeps k (by decide)
theorem tallied.pipe (h : tallied s t) (p : Pipe) : tallied s { t with pipe := p } := h.same rfl
theorem tallied.dwy (h : tallied s t) (d : Dwy) : tallied s { t with dwy := d } := h.same rfl
theorem tallied.bell (h : tallied s t) (b : Bell) : tallied s { t with bell := b } := h.same rfl
theorem tallied.resetRegs (h : tallied s t) (lo hi : Nat) : tallied s (t.resetRegs lo hi) := h.same rfl
theorem tallied.hostForgotten (h : tallied s t) : tallied s t.hostForgotten := h.same rfl
theorem tallied.stw (h : tallied s t) (x : Stw) : tallied s { t with stw := x } := h.same rfl

end

section
variable (s : State)

/-! ## Engines -/

theorem State.freeTicket_tallied (id : Nat) : tallied s (s.freeTicket id) :=
  (tallied.ite (.refl s) (s.hwFree_tallied _)).keeps (State.dropTicket_keeps _ id) (by decide)

theorem State.setThr_tallied (t : Nat) (th : Thread) : tallied s (s.setThr t th) :=
  (tallied.refl s).keeps (s.setThr_keeps t th) (by decide)

theorem State.complete_tallied (tgt : Nat) : tallied s (s.complete tgt) := by
  have freed := ((tallied.refl s).putB (belActive (s.rf (belTgt tgt) 11 0 / 32)) (s.rf (belTgt tgt) 11 0 % 32) false).wrN
    (belTgt tgt) 0
  unfold State.complete
  dsimp only
  exact .ite (.refl s) (.ite ((freed.putB _ _ _).count _ _ _) freed)

theorem State.endThread_tallied (e t : Nat) : tallied s (s.endThread e t) := by
  have freed (ids : List Nat) : tallied s
      (s.each ids fun v id => (v.count evLftTicketDead (v.progGroup (v.ticket id).prog) 0).freeTicket id) :=
    (tallied.refl s).each fun v id _ => ((tallied.refl v).count _ _ _).trans (State.freeTicket_tallied _ id)
  exact ((freed _).countBy _ _ _ _).trans (State.setThr_tallied _ _ _)

theorem State.engineStop_tallied (e cause : Nat) : tallied s (s.engineStop e cause) := by
  by_cases runs : s.rf (lftEngStatus e) 31 30 = 1
  · rw [State.engineStop, if_pos runs]
    exact .refl s
  · rw [State.engineStop_of_runs runs]
    have threads := (tallied.refl s).each (l := upto 8) fun u i _ => u.endThread_tallied e (e * 8 + i)
    dsimp only
    generalize s.each _ _ = t at *
    exact ((((threads.wf _ _ _ _).wf _ _ _ _).trans (State.complete_tallied _ e)).report _ _ _).count _ _ _

theorem State.threadReset_tallied (t : Nat) : tallied s (s.threadReset t) := by
  have letters := (tallied.refl s).countBy evLftLbDiscard (t / 8) 0 (s.thr t).letters.length
  unfold State.threadReset
  dsimp only
  have dropped : tallied s (match (s.thr t).ticket with
      | some id => ((s.countBy evLftLbDiscard (t / 8) 0 (s.thr t).letters.length).freeTicket id).count
          evLftTicketAbandoned (t / 8) 0
      | none => s.countBy evLftLbDiscard (t / 8) 0 (s.thr t).letters.length) := by
    split
    · exact (letters.trans (State.freeTicket_tallied _ _)).count _ _ _
    · exact letters
  have reset := dropped.trans (State.setThr_tallied _ t { Thread.init with queue := (s.thr t).queue, state := 0 })
  exact .ite (reset.trans (State.complete_tallied _ _)) reset

theorem State.engineStart_tallied (e : Nat) : tallied s (s.engineStart e) := by
  have threads := (tallied.refl s).each (l := upto 8) fun u i _ => u.threadReset_tallied (e * 8 + i)
  unfold State.engineStart
  dsimp only
  generalize s.each _ _ = t at *
  have cleared (x : List (EccMem × Nat × Bool)) (l : Lft) : tallied s { t with ecc := x, lft := l } := threads.same rfl
  have shown := (((cleared (t.ecc.filter fun p => !(p.1 == EccMem.lftLocal && p.2.1 / 8192 == e))
    { t.lft with
      localMem := memErase t.lft.localMem (e * 65536) 65536
      engines := tput t.lft.engines e Engine.init }).wf (lftEngStatus e) 31 30
        (if t.loftReserved (e / 8) then 2 else 0)).wf (lftEngStatus e) 23 16 0)
  exact .ite (shown.trans (State.setThr_tallied _ _ _)) shown

theorem State.startReserved_tallied : tallied s s.startReserved :=
  (tallied.refl s).each fun t _ _ => .ite (t.engineStart_tallied _) (.refl t)

/-! ## Frames and slices -/

theorem State.xoffClass_tallied (n c : Nat) : tallied s (s.xoffClass n c) := by
  unfold State.xoffClass
  dsimp only
  refine .ite (.refl s) (.ite (.ite (.refl s) ?_) (.ite ?_ (.refl s)))
  · exact (tallied.refl s).each fun t p _ =>
      .ite (.refl t) (((tallied.refl t).keeps (t.setPort_keeps n _) (by decide)).count _ _ _)
  · exact (tallied.refl s).each fun t p _ => .ite ((tallied.refl t).keeps (t.setPort_keeps n _) (by decide)) (.refl t)

theorem State.freeFrameUnits_tallied (f : Nat) : tallied s (s.freeFrameUnits f) := by
  unfold State.freeFrameUnits
  dsimp only
  exact .ite (.refl s) (tallied.each ((tallied.refl s).keeps (s.setFrame_keeps f _) (by decide))
    fun u c _ => u.xoffClass_tallied _ c)

theorem State.discardFrame_tallied (f : Nat) : tallied s (s.discardFrame f) := by
  have left := ((tallied.refl s).keeps (s.frameRelease_keeps f) (by decide)).trans (State.freeFrameUnits_tallied _ f)
  unfold State.discardFrame State.freeBuf
  dsimp only
  generalize (s.frameRelease f).freeFrameUnits f = t at *
  have freed : tallied s (if (t.frame f).buf = 0 then t
      else (t.hwFree (t.frame f).buf).setFrame f { t.frame f with buf := 0 }) :=
    .ite left ((left.trans (t.hwFree_tallied _)).keeps (State.setFrame_keeps _ f _) (by decide))
  generalize (if (t.frame f).buf = 0 then t
    else (t.hwFree (t.frame f).buf).setFrame f { t.frame f with buf := 0 }) = u at *
  exact .ite (.refl s) ((((freed.keeps (u.setSl_keeps _ _) (by decide)).stw _).keeps (State.setFrame_keeps _ f _)
    (by decide)).keeps (State.tidy_keeps _ f) (by decide))

theorem State.inError_tallied (f : Nat) : tallied s (s.inError f) := by
  have ended := (tallied.refl s).each (l := (s.frame f).fab.owed.filter fun e => (s.egFrame f e).isSome)
    fun t e _ => (tallied.refl t).keeps (t.egError_keeps f e 3) (by decide)
  unfold State.inError
  dsimp only
  refine .ite (.ite (s.discardFrame_tallied f) ?_) ?_
  · exact ((tallied.refl s).keeps (s.settle_keeps f 3) (by decide)).trans (State.discardFrame_tallied _ f)
  · generalize s.each _ _ = t at *
    exact ((ended.stw _).keeps (State.setFrame_keeps _ f _) (by decide)).trans (State.freeFrameUnits_tallied _ f)

theorem State.frameCast_tallied (f : Nat) : tallied s (s.frameCast f) :=
  .ite (.refl s) (((tallied.refl s).keeps (s.setFrame_keeps f _) (by decide)).trans (State.inError_tallied _ f))

theorem State.egEnqueue_tallied (f e : Nat) : tallied s (s.egEnqueue f e) := by
  unfold State.egEnqueue
  dsimp only
  exact (tallied.refl s).each fun t p _ =>
    .ite ((((tallied.refl t).stw _).keeps (State.copyEnd_keeps _ _ _) (by decide)).count _ _ _) (((tallied.refl t).stw _).stw _)

theorem State.egDrop_tallied (g : EgFrame) : tallied s (s.egDrop g) := by
  unfold State.egDrop
  dsimp only
  have bad (c : Prop) [Decidable c] : tallied s (if c then s.inError g.fid else s) := .ite (s.inError_tallied _) (.refl s)
  have queued (t : State) (h : tallied s t) (c : Prop) [Decidable c] :
      tallied s (if c then t.egEnqueue g.fid g.dst else t) := .ite (h.trans (t.egEnqueue_tallied _ _)) h
  have ended (t : State) (h : tallied s t) : tallied s (t.egError g.fid g.dst 3) :=
    h.keeps (t.egError_keeps g.fid g.dst 3) (by decide)
  have left (l : List (Nat × Copy)) : tallied s (s.each l fun t p =>
      { t.egLeave p.1 with stw := { (t.egLeave p.1).stw with copies := tdel (t.egLeave p.1).stw.copies p.1 } }) :=
    (tallied.refl s).each fun t p _ => ((tallied.refl t).keeps (t.egLeave_keeps p.1) (by decide)).stw _
  split
  · exact ((left _).stw _).stw _
  · exact (ended _ (queued _ (bad _) _)).stw _

theorem State.wakeSlice_tallied (sl : Nat) : tallied s (s.wakeSlice sl) := by
  unfold State.wakeSlice
  dsimp only
  refine .ite (.refl s) (tallied.each ?_ fun t f _ => .ite ?_ ?_)
  · exact ((tallied.refl s).putB _ _ _).keeps (State.setSl_keeps _ _ _) (by decide)
  · exact ((tallied.refl t).count _ _ _).trans (State.discardFrame_tallied _ f)
  · split
    · exact ((tallied.refl t).count _ _ _).trans (State.discardFrame_tallied _ f)
    · next u took =>
      have taken := (tallied.refl t).keeps (t.takeUnits_keeps _ _ u took) (by decide)
      exact (taken.keeps (u.setHead_keeps _ _) (by decide)).keeps (State.setSl_keeps _ _ _) (by decide)

theorem State.sliceDiscard_tallied {lost : State → Nat → State} (told : ∀ t n, tallied t (lost t n)) (sl : Nat) :
    tallied s (s.sliceDiscard lost sl) := by
  have emptied {t : State} (h : tallied s t) (c : Cup) (x : Stw) (p : Pipe) :
      tallied s { t with cup := c, stw := x, pipe := p } := h.same rfl
  unfold State.sliceDiscard
  dsimp only
  refine tallied.each (emptied (tallied.each (tallied.each (tallied.each (s.wakeSlice_tallied sl)
    fun t n _ => ?_) fun t f _ => t.frameCast_tallied f) fun t p _ => ?_) _ _ _) fun t g _ => t.egDrop_tallied g
  · split
    · exact ((tallied.refl t).keeps (t.setPort_keeps n _) (by decide)).trans (told _ n)
    · exact .refl t
  · exact (tallied.refl t).keeps (t.dropTicket_keeps _) (by decide)

theorem State.sliceRestart_tallied (sl : Nat) : tallied s (s.sliceRestart sl) :=
  ((s.sliceDiscard_tallied (fun t _ => (tallied.refl t).count _ _ _) sl).keeps (State.sliceRefill_keeps _ sl)
    (by decide)).count _ _ _

/-! ## Ports -/

theorem State.peerDown_tallied (n : Nat) : tallied s (s.peerDown n) := by
  have shown (x : Port) : tallied s ((s.setPort n x).peerShow n) :=
    ((tallied.refl s).keeps (s.setPort_keeps n x) (by decide)).keeps (State.peerShow_keeps _ n) (by decide)
  unfold State.peerDown State.peerSet
  dsimp only
  exact .ite (.refl s) (.ite ((shown _).count _ _ _) (shown _))

theorem State.cutLink_tallied (n : Nat) : tallied s (s.cutLink n) := by
  have told : tallied s ((s.showLinkDown n).count evPchLinkDown n 0) :=
    (((((tallied.refl s).putB _ _ _).putB _ _ _).putB _ _ _).setB _ _).count _ _ _
  have closed := told.keeps (State.closeArrival_keeps _ (s.port n).rx) (by decide)
  unfold State.cutLink State.abortFlight
  split
  · exact .ite (((closed.count _ _ _).keeps (State.copyEnd_keeps _ _ _) (by decide)).keeps (State.copyGone_keeps _ _)
      (by decide)) closed
  · exact closed

theorem State.portLinkDown_tallied (n : Nat) : tallied s (s.portLinkDown n) := by
  cases up : s.linkUp n
  · rw [State.portLinkDown_of_down up]
    exact .refl s
  · rw [State.portLinkDown_of_up up]
    exact (((s.cutLink_tallied n).keeps (State.setPort_keeps _ n _) (by decide)).keeps (State.pauseShow_keeps _ n)
      (by decide)).trans (State.peerDown_tallied _ n)

/-! ## Doorway -/

theorem State.cmplDiscard_tallied (q buf : Nat) : tallied s (s.cmplDiscard q buf) :=
  (tallied.ite (.refl s) (s.hwFree_tallied buf)).count _ _ _

theorem State.qReset_tallied (q : Nat) : tallied s (s.qReset q) := by
  by_cases off : s.qState q = 0
  · rw [State.qReset, if_pos off]
    exact .refl s
  · rw [State.qReset_eq off]
    have discards : tallied s (s.qDiscards q) :=
      (((tallied.refl s).dwy _).each fun t c _ => t.cmplDiscard_tallied q c.buf).each
          fun t e _ => t.cmplDiscard_tallied q e.buf
    exact (discards.keeps (State.setQState_keeps _ q 6) (by decide)).keeps (State.resetDone_keeps _ q) (by decide)

theorem State.grantReturn_tallied (f k : Nat) : tallied s (State.grantReturn f s k) :=
  .ite (.refl s) ((s.cupFree_tallied _ _ _).wr _ _)

theorem State.fnReset_tallied (f : Nat) : tallied s (s.fnReset f) := by
  have queues : tallied s (s.fnQueuesReset f) := (tallied.refl s).each fun t q _ => t.qReset_tallied q
  have regs : tallied s (s.fnRegsReset f) := (queues.resetRegs _ _).each fun t q _ =>
    (tallied.refl t).keeps (t.setQState_keeps q _) (by decide)
  have bell : tallied s ((s.fnRegsReset f).bellFnReset f) := (regs.trans (State.complete_tallied _ (513 + f))).bell _
  have own : tallied s (s.fnOwnReset f) := (bell.wf _ _ _ _).resetRegs _ _
  rw [State.fnReset_eq]
  exact tallied.each ((own.dwy _).dwy _) fun t k _ => t.grantReturn_tallied f k

theorem State.vfsOff_tallied : tallied s s.vfsOff := by
  rw [State.vfsOff_eq]
  refine (tallied.refl s).each fun t f _ => ?_
  rcases t.vfOff_cases f with same | goes
  · rw [same]
    exact .refl t
  · rw [goes]
    exact (t.fnReset_tallied f).dwy _

theorem State.dwyReset_tallied : tallied s s.dwyReset := by
  have down : tallied s (if s.rb dwyLinkStatus 31 then s.count evDwyLinkDown 0 0 else s) :=
    .ite ((tallied.refl s).count _ _ _) (.refl s)
  have functions : tallied s s.dwyFnsReset :=
    ((((down.wr dwyHalt 0).wr dwyHaltLoc 0).trans (State.fnReset_tallied _ 0)).trans (State.fnReset_tallied _ 1)).trans
      (State.vfsOff_tallied _)
  have forgotten : tallied s s.dwyDown := (functions.wr dwyLinkStatus 0).hostForgotten
  rw [s.dwyReset_eq]
  exact forgotten.trans (State.heldRelease_tallied _)

end

end Sys2Proof.Machine

/-! PROOFS. What isolation, safe state and its exit leave of Masthead's registers (R508, R513, R515). -/

namespace Sys2Proof.Machine

/-- The registers outside Masthead's windows. -/
def unitWrites (a : Nat) : Prop := a < 0x01000000 ∨ 0x03000000 ≤ a

theorem not_unitWrites {a : Nat} (lo : 0x01000000 ≤ a) (hi : a < 0x03000000) : ¬unitWrites a := by
  unfold unitWrites
  omega

theorem sliceWrites.unit {a : Nat} (h : sliceWrites a) : unitWrites a := by
  rcases h with rfl | h
  · exact .inl (by decide)
  · exact .inr h

theorem engineWrites.unit {e a : Nat} (h : engineWrites e a) : unitWrites a := by
  by_cases low : a < 0x03000000
  · rcases engineWrites_low h low with here | here
    · exact .inl (here ▸ by decide)
    · exact .inl (here ▸ by decide)
  · exact .inr (Nat.le_of_not_lt low)

section
variable (s : State)

/-! ## The units that an isolation reaches -/

theorem State.portLinkDown_writes (n : Nat) : writesOnly unitWrites s (s.portLinkDown n) := by
  intro a off out
  by_cases up : s.linkUp n = true
  · have low : a < 0x03000000 := by
      unfold unitWrites at out
      omega
    have apart : a ≠ pchPeerState n ∧ a ≠ pchPeerTarget n ∧ a ≠ pchPfcState n ∧ a ≠ pchPortErr n ∧ a ≠ pchPortStatus n := by
      unfold pchPeerState pchPeerTarget pchPfcState pchPortErr pchPortStatus
      omega
    obtain ⟨peer, target, pause, err, status⟩ := apart
    rw [State.portLinkDown_of_up up, State.rd_peerDown _ peer target off, State.rd_pauseShow_ne _ pause,
      State.rd_setPort, regsStand.cutLink s n _ off, State.showLinkDown, State.rd_setB_ne _ _ err,
      State.rd_putB_ne _ _ _ status, State.rd_putB_ne _ _ _ status, State.rd_putB_ne _ _ _ status]
  · rw [State.portLinkDown_of_down (Bool.not_eq_true _ ▸ up)]

theorem State.dwyReset_writes : writesOnly unitWrites s s.dwyReset := by
  have door {a : Nat} (out : ¬unitWrites a) : a < 0x03000000 := by
    unfold unitWrites at out
    omega
  have function (t : State) {f : Nat} (hf : f < 64) : writesOnly unitWrites t (t.fnReset f) := fun a off out =>
    t.fnReset_writes hf a off (not_fnResetWrites_low (by have := door out; omega))
  have virtual (t : State) : writesOnly unitWrites t t.vfsOff := fun a off out =>
    t.vfsOff_writes a off (not_vfsWrites_low (by have := door out; omega))
  have down : writesOnly unitWrites s (if s.rb dwyLinkStatus 31 then s.count evDwyLinkDown 0 0 else s) :=
    .ite ((writesOnly.refl _ s).count _ _ _) (.refl _ s)
  have functions : writesOnly unitWrites s s.dwyFnsReset :=
    ((((down.wr (a := dwyHalt) (.inr (by decide)) 0).wr (a := dwyHaltLoc) (.inr (by decide)) 0).trans
      (function _ (by decide))).trans (function _ (by decide))).trans (virtual _)
  have forgotten : writesOnly unitWrites s s.dwyDown :=
    (functions.wr (a := dwyLinkStatus) (.inr (by decide)) 0).regs (State.regs_hostForgotten _)
  rw [s.dwyReset_eq]
  exact forgotten.trans ((State.heldRelease_writes _).mono fun a h => .inr (by have := celWrites_ge h; omega))

theorem State.channelFail_writes {k ch : Nat} : writesOnly unitWrites s (s.channelFail k ch) := by
  have marked := ((writesOnly.refl unitWrites s).setB (a := celStkChfail k) (.inr (by unfold celStkChfail; omega)) ch).setB
    (a := celErr) (.inr (by decide)) 5
  exact (marked.trans ((State.celLatch_writes _ _ _ _ _).mono fun a h => .inr (by have := celWrites_ge h; omega))).report _ _ _

theorem State.engineStop_unit {e : Nat} (small : e < 512) (cause : Nat) : writesOnly unitWrites s (s.engineStop e cause) :=
  (s.engineStop_writes small cause).mono fun _ => engineWrites.unit

theorem State.engineStart_unit {e : Nat} (small : e < 1024) : writesOnly unitWrites s (s.engineStart e) :=
  (s.engineStart_writes small).mono fun _ => engineWrites.unit

theorem State.sliceDiscard_unit {lost : State → Nat → State} (told : ∀ t n, writesOnly sliceWrites t (lost t n)) (sl : Nat) :
    writesOnly unitWrites s (s.sliceDiscard lost sl) := (s.sliceDiscard_writes told sl).mono fun _ => sliceWrites.unit

theorem State.sliceRestart_unit (sl : Nat) : writesOnly unitWrites s (s.sliceRestart sl) :=
  (s.sliceRestart_writes sl).mono fun _ => sliceWrites.unit

/-! ## The reset of a safe-state exit -/

theorem State.startReserved_unit : writesOnly unitWrites s s.startReserved := by
  have first : s.rf lftCrwCfg 5 0 < 64 := s.rf_lt _ _ _
  have lofts : s.rf lftCrwCfg 18 16 < 8 := s.rf_lt _ _ _
  refine (writesOnly.refl _ s).each fun t i mem => .ite (t.engineStart_unit ?_) (.refl _ t)
  have := mem_upto.1 mem
  omega

theorem State.safeExitReset_unit : writesOnly unitWrites s s.safeExitReset := by
  refine writesOnly.trans (writesOnly.each ((writesOnly.refl _ s).each fun t sl _ => t.sliceRestart_unit sl)
    fun t e mem => .ite (t.engineStart_unit ?_) (.refl _ t)) (State.startReserved_unit _)
  have := mem_upto.1 mem
  omega

theorem State.safeExitReset_tallied : tallied s s.safeExitReset :=
  (tallied.each ((tallied.refl s).each fun t sl _ => t.sliceRestart_tallied sl)
    fun t e _ => .ite (t.engineStart_tallied e) (.refl t)).trans (State.startReserved_tallied _)

theorem State.time_safeExitReset : s.safeExitReset.time = s.time :=
  s.safeExitReset_keeps.same .time (by decide)

end

end Sys2Proof.Machine

/-! PROOFS. Safe state entered: what stops, what stands (R513, R514). -/

namespace Sys2Proof.Machine

/-- What safe state may write. -/
def safeWrites (a : Nat) : Prop := a = mstStatus ∨ unitWrites a

theorem not_safeWrites {a : Nat} (lo : 0x01000000 ≤ a) (hi : a < 0x03000000) (ne : a ≠ mstStatus) : ¬safeWrites a := by
  have := not_unitWrites lo hi
  rintro (here | unit)
  · exact ne here
  · exact this unit

theorem celWrites.unit {a : Nat} (h : celWrites a) : unitWrites a := .inr (by have := celWrites_ge h; omega)

/-- What a job's or a build's abort may write. -/
def abortWrites (a : Nat) : Prop := a = galJobCtl ∨ a = lrdJobCtl ∨ a = crwBuildCtl ∨ celWrites a

theorem abortWrites.unit {a : Nat} (h : abortWrites a) : unitWrites a := by
  rcases h with rfl | rfl | rfl | cel
  · exact .inr (by decide)
  · exact .inr (by decide)
  · exact .inr (by decide)
  · exact cel.unit

theorem not_abortWrites_engStatus (e : Nat) (small : e < 512) : ¬abortWrites (lftEngStatus e) := by
  rintro (here | here | here | cel)
  · unfold lftEngStatus galJobCtl at here; omega
  · unfold lftEngStatus lrdJobCtl at here; omega
  · unfold lftEngStatus crwBuildCtl at here; omega
  · have := celWrites_ge cel
    unfold lftEngStatus at this
    omega

theorem not_engineWrites_engStatus {e y : Nat} (ne : e ≠ y) (he : e < 512) : ¬engineWrites y (lftEngStatus e) := by
  rintro (here | here | here | cup | bell)
  · unfold lftEngStatus at here; omega
  · unfold lftEngStatus atcGatedLoftsLo at here; omega
  · unfold lftEngStatus atcGatedLoftsHi at here; omega
  · rcases cup with cel | here | here | ⟨k, hk, here⟩
    · have := celWrites_ge cel
      unfold lftEngStatus at this
      omega
    · unfold lftEngStatus cupErr at here; omega
    · unfold lftEngStatus cupErrLoc at here; omega
    · unfold lftEngStatus cupPoolStatus at here; omega
  · unfold lftEngStatus at bell; omega

section
variable (s : State)

/-! ## Engines, jobs and builds -/

/-- An engine shows STOPPED after it was stopped, whatever it did before. -/
theorem State.engineStop_stopped {e : Nat} (small : e < 512) (cause : Nat) :
    (s.engineStop e cause).rf (lftEngStatus e) 31 30 = 1 := by
  by_cases stopped : s.rf (lftEngStatus e) 31 30 = 1
  · rw [State.engineStop, if_pos stopped]
    exact stopped
  · exact (State.engineStop_stops small stopped cause).1

theorem State.stopEngines_stopped {e : Nat} (small : e < 512) (cause : Nat) :
    (s.stopEngines cause).rf (lftEngStatus e) 31 30 = 1 := by
  refine State.each_reaches (P := fun t => t.rf (lftEngStatus e) 31 30 = 1) (mem_upto.2 small)
    (fun t => t.engineStop_stopped small cause) fun t y hy stopped => ?_
  by_cases same : e = y
  · exact same ▸ t.engineStop_stopped small cause
  · rw [(t.engineStop_writes (mem_upto.1 hy) cause).rf _ _ (not_engineWrites_engStatus same small) (offWrap_lftEngStatus e)]
    exact stopped

theorem State.stopEngines_unit (cause : Nat) : writesOnly unitWrites s (s.stopEngines cause) :=
  (writesOnly.refl _ s).each fun t _ mem => t.engineStop_unit (mem_upto.1 mem) cause

theorem State.stopEngines_tallied (cause : Nat) : tallied s (s.stopEngines cause) :=
  (tallied.refl s).each fun t e _ => t.engineStop_tallied e cause

theorem State.jobStatus_writes (req a w0 w1 w2 w3 : Nat) :
    writesOnly abortWrites s (s.jobStatus req a w0 w1 w2 w3) :=
  (s.celWrite_writes req a _).mono fun _ h => .inr (.inr (.inr h))

theorem State.jobStatus_tallied (req a w0 w1 w2 w3 : Nat) : tallied s (s.jobStatus req a w0 w1 w2 w3) :=
  s.celWrite_tallied req a _

theorem State.galAbort_writes : writesOnly abortWrites s s.galAbort := by
  unfold State.galAbort
  split
  · next j _ =>
    exact ((s.jobStatus_writes _ _ _ _ _ _).putB (a := galJobCtl) (.inl rfl) _ _).regs rfl
  · exact .refl _ s

theorem State.lrdAbort_writes : writesOnly abortWrites s s.lrdAbort := by
  unfold State.lrdAbort
  split
  · exact ((s.jobStatus_writes _ _ _ _ _ _).putB (a := lrdJobCtl) (.inr (.inl rfl)) _ _).regs rfl
  · exact .refl _ s

theorem State.buildAbort_writes : writesOnly abortWrites s s.buildAbort := by
  unfold State.buildAbort
  split
  · exact ((s.jobStatus_writes _ _ _ _ _ _).putB (a := crwBuildCtl) (.inr (.inr (.inl rfl))) _ _).regs rfl
  · exact .refl _ s

theorem State.galAbort_tallied : tallied s s.galAbort := by
  unfold State.galAbort
  split
  · exact ((s.jobStatus_tallied _ _ _ _ _ _).putB galJobCtl 31 false).same rfl
  · exact .refl s

theorem State.lrdAbort_tallied : tallied s s.lrdAbort := by
  unfold State.lrdAbort
  split
  · exact ((s.jobStatus_tallied _ _ _ _ _ _).putB lrdJobCtl 31 false).same rfl
  · exact .refl s

theorem State.buildAbort_tallied : tallied s s.buildAbort := by
  unfold State.buildAbort
  split
  · exact ((s.jobStatus_tallied _ _ _ _ _ _).putB crwBuildCtl 31 false).same rfl
  · exact .refl s

/-- Engines stopped, jobs and builds aborted. -/
def State.workStops : State := (((s.stopEngines 4).galAbort).lrdAbort).buildAbort

theorem State.aborts_writes : writesOnly abortWrites (s.stopEngines 4) s.workStops :=
  ((State.galAbort_writes _).trans (State.lrdAbort_writes _)).trans (State.buildAbort_writes _)

theorem State.workStops_unit : writesOnly unitWrites s s.workStops :=
  (s.stopEngines_unit 4).trans (s.aborts_writes.mono fun _ => abortWrites.unit)

theorem State.workStops_tallied : tallied s s.workStops :=
  (((s.stopEngines_tallied 4).trans (State.galAbort_tallied _)).trans (State.lrdAbort_tallied _)).trans
    (State.buildAbort_tallied _)

theorem State.workStops_stopped {e : Nat} (small : e < 512) : s.workStops.rf (lftEngStatus e) 31 30 = 1 :=
  (s.aborts_writes.rf _ _ (not_abortWrites_engStatus e small) (offWrap_lftEngStatus e)).trans
    (s.stopEngines_stopped small 4)

theorem State.cycles_workStops : s.workStops.cycles = s.cycles := by
  have kept : Keeps [.regs, .ecc, .mast, .bell, .cel, .cup, .lft, .gal, .lrd, .crw, .outbox] s s.workStops :=
    (((s.stopEngines_keeps 4).mono rfl).trans ((State.galAbort_keeps _).mono rfl)).trans
      (((State.lrdAbort_keeps _).mono rfl).trans ((State.buildAbort_keeps _).mono rfl))
  exact kept.same .cycles (by decide)

/-! ## XOFF -/

theorem State.portXon_xoff (n : Nat) : ((s.portXon n).port n).xoff = 0 := by
  unfold State.portXon
  dsimp only
  split
  · assumption
  · exact congrArg Port.xoff (State.port_setPort _ _ _)

theorem State.portXon_port_ne {n k : Nat} (ne : k ≠ n) : (s.portXon n).port k = s.port k := by
  unfold State.portXon
  dsimp only
  split
  · rfl
  · exact tget_tput_ne _ _ _ _ _ ne

theorem State.allXon_xoff {l : List Nat} {n : Nat} (mem : n ∈ l) : ((s.each l State.portXon).port n).xoff = 0 :=
  State.each_reaches (P := fun t => (t.port n).xoff = 0) mem (fun t => t.portXon_xoff n) fun t k _ open_ => by
    by_cases same : n = k
    · exact same ▸ t.portXon_xoff n
    · rw [t.portXon_port_ne same]
      exact open_

theorem State.allXon_keeps (l : List Nat) : Keeps [.pipe] s (s.each l State.portXon) :=
  Keeps.each (Keeps.refl _) fun t n k => k.trans (t.portXon_keeps n)

/-! ## All that safe state stops -/

/-- The quiet period starts anew. -/
def State.quietNow : State :=
  { s with mast := { s.mast with quietFrom := s.cycles }, attic := { s.attic with doneFrom := s.cycles } }

theorem State.regs_quietNow : s.quietNow.regs = s.regs := rfl
theorem State.port_quietNow (n : Nat) : s.quietNow.port n = s.port n := rfl
theorem State.mast_quietNow : s.quietNow.mast = { s.mast with quietFrom := s.cycles } := rfl

theorem State.safeStops_eq : s.safeStops = (s.workStops.aliveLow.each (upto 512) State.portXon).quietNow := by
  rw [State.safeStops, State.workStops, State.quietNow]

theorem State.aliveLow_writes : writesOnly (· = mstStatus) s s.aliveLow :=
  ((writesOnly.refl (· = mstStatus) s).putB (a := mstStatus) rfl 28 false).regs rfl

theorem State.regs_allXon (l : List Nat) : (s.each l State.portXon).regs = s.regs := (s.allXon_keeps l).same .regs (by decide)
theorem State.mast_allXon (l : List Nat) : (s.each l State.portXon).mast = s.mast := (s.allXon_keeps l).same .mast (by decide)
theorem State.cycles_allXon (l : List Nat) : (s.each l State.portXon).cycles = s.cycles :=
  (s.allXon_keeps l).same .cycles (by decide)

theorem State.mast_lowOpen (l : List Nat) : (s.aliveLow.each l State.portXon).quietNow.mast =
    { s.mast with alivePin := false, quietFrom := s.cycles } := by
  rw [State.mast_quietNow, State.mast_allXon, State.cycles_allXon]
  rfl

theorem State.rb_aliveLow : s.aliveLow.rb mstStatus 28 = false :=
  (State.rb_congr (s := s.putB mstStatus 28 false) rfl _ _).trans (State.rb_putB _ _ _ _ (by decide))

theorem State.rf_aliveLow {hi lo : Nat} (small : hi < 32) (apart : hi < 28 ∨ 28 < lo) :
    s.aliveLow.rf mstStatus hi lo = s.rf mstStatus hi lo :=
  (State.rf_congr (s := s.putB mstStatus 28 false) rfl _ _ _).trans
    (State.rf_wf_ne _ _ _ _ _ _ _ (by decide) (by decide) small (by omega))

theorem State.regs_safeStops : s.safeStops.regs = s.workStops.aliveLow.regs := by
  rw [State.safeStops_eq, State.regs_quietNow, State.regs_allXon]

/-- Masthead as safe state leaves it, but for the counts and reports of what stopped. -/
def Mast.lowFrom (m : Mast) (c : Nat) : Mast := { m with alivePin := false, quietFrom := c }

theorem Mast.log_lowFrom (m : Mast) (c : Nat) : (m.lowFrom c).log = m.log := rfl
theorem Mast.firstHeld_lowFrom (m : Mast) (c : Nat) : (m.lowFrom c).firstHeld = m.firstHeld := rfl
theorem Mast.checkerFired_lowFrom (m : Mast) (c : Nat) : (m.lowFrom c).checkerFired = m.checkerFired := rfl

theorem tallied.checkerFired {s t : State} (h : tallied s t) : t.mast.checkerFired = s.mast.checkerFired := by
  have same := congrArg Mast.checkerFired h.rest
  exact same

theorem State.mast_safeStops : s.safeStops.mast = s.workStops.mast.lowFrom s.cycles := by
  rw [State.safeStops_eq, State.mast_lowOpen, State.cycles_workStops, Mast.lowFrom]

theorem State.safeStops_writes : writesOnly safeWrites s s.safeStops :=
  ((s.workStops_unit.mono fun _ => .inr).trans (s.workStops.aliveLow_writes.mono fun _ => .inl)).regs s.regs_safeStops

/-- Safe state's stops: every engine STOPPED, FAULT_ALIVE low, no port in XOFF. -/
theorem State.safeStops_shows :
    (s.safeStops.rb mstStatus 28 = false ∧ s.safeStops.mast.alivePin = false ∧ s.safeStops.mast.quietFrom = s.cycles) ∧
      (∀ e, e < 512 → s.safeStops.rf (lftEngStatus e) 31 30 = 1) ∧ (∀ n, n < 512 → (s.safeStops.port n).xoff = 0) := by
  refine ⟨⟨?_, ?_, ?_⟩, fun e small => ?_, fun n small => ?_⟩
  · rw [State.rb_congr s.regs_safeStops, State.rb_aliveLow]
  · rw [State.mast_safeStops, Mast.lowFrom]
  · rw [State.mast_safeStops, Mast.lowFrom]
  · rw [State.rf_congr s.regs_safeStops, (s.workStops.aliveLow_writes).rf _ _ (fun here => by
      unfold lftEngStatus mstStatus at here; omega) (offWrap_lftEngStatus e)]
    exact s.workStops_stopped small
  · rw [State.safeStops_eq, State.port_quietNow]
    exact State.allXon_xoff _ (mem_upto.2 small)

/-- Of MST_STATUS only FAULT_ALIVE's bit moves. -/
theorem State.rf_mstStatus_safeStops {hi lo : Nat} (small : hi < 32) (apart : hi < 28 ∨ 28 < lo) :
    s.safeStops.rf mstStatus hi lo = s.rf mstStatus hi lo := by
  rw [State.rf_congr s.regs_safeStops, State.rf_aliveLow _ small apart]
  exact s.workStops_unit.rf _ _ (not_unitWrites (by decide) (by decide)) (by decide)

/-- Masthead's log, its first fatal entry and its recoveries stand. -/
theorem State.mast_safeStops_stands : s.safeStops.mast.log = s.mast.log ∧ s.safeStops.mast.firstHeld = s.mast.firstHeld ∧
    s.safeStops.mast.checkerFired = s.mast.checkerFired := by
  have stands := s.workStops_tallied
  rw [State.mast_safeStops, Mast.log_lowFrom, Mast.firstHeld_lowFrom, Mast.checkerFired_lowFrom]
  exact ⟨stands.log, stands.firstHeld, stands.checkerFired⟩

end

end Sys2Proof.Machine

/-! PROOFS. Safe state entered by a report or by software, and left (R513 to R516). -/

namespace Sys2Proof.Machine

section
variable (s : State)

/-! ## Entry -/

/-- Safe state's entry marked in MST_STATUS and counted. -/
def State.safeMarked (st src : Nat) : State := ((s.wf mstStatus 31 30 st).wf mstStatus 7 0 src).count evMstSafeEntry 0 0

theorem State.safeEnter_of_safe {s : State} (safe : s.inSafe = true) (src : Nat) : s.safeEnter src = s := by
  rw [State.safeEnter, if_pos safe]

theorem State.safeEnter_of_normal {s : State} (normal : s.inSafe = false) (src : Nat) :
    s.safeEnter src = (s.safeMarked (if 8 ≤ s.recoveries then 2 else 1) src).safeStops := by
  rw [State.safeEnter, if_neg (by simp [normal]), State.safeMarked]

theorem State.rf_safeMarked_state (st src : Nat) (small : st < 4) : (s.safeMarked st src).rf mstStatus 31 30 = st := by
  have marked : ((s.wf mstStatus 31 30 st).wf mstStatus 7 0 src).rf mstStatus 31 30 = st := by
    rw [State.rf_wf_ne _ _ _ _ _ _ _ (by decide) (by decide) (by decide) (by decide)]
    exact s.rf_wf_fits _ (by decide) (by decide) small
  exact (congrArg (fld · 31 30) (State.rd_count _ _ _ _ (by decide))).trans marked

theorem State.rf_safeMarked_source (st src : Nat) (small : src < 256) : (s.safeMarked st src).rf mstStatus 7 0 = src := by
  have marked : ((s.wf mstStatus 31 30 st).wf mstStatus 7 0 src).rf mstStatus 7 0 = src :=
    State.rf_wf_fits _ _ (by decide) (by decide) small
  exact (congrArg (fld · 7 0) (State.rd_count _ _ _ _ (by decide))).trans marked

theorem State.safeMarked_writes (st src : Nat) : writesOnly safeWrites s (s.safeMarked st src) :=
  (((writesOnly.refl _ s).wf (a := mstStatus) (.inl rfl) _ _ _).wf (a := mstStatus) (.inl rfl) _ _ _).count _ _ _

theorem State.safeMarked_tallied (st src : Nat) : tallied s (s.safeMarked st src) :=
  (((tallied.refl s).wf _ _ _ _).wf _ _ _ _).count _ _ _

theorem State.cycles_safeMarked (st src : Nat) : (s.safeMarked st src).cycles = s.cycles := by
  rw [State.safeMarked, State.cycles_count]
  rfl

theorem State.safeEnter_writes (src : Nat) : writesOnly safeWrites s (s.safeEnter src) := by
  cases h : s.inSafe
  · rw [State.safeEnter_of_normal h]
    exact (s.safeMarked_writes _ _).trans (State.safeStops_writes _)
  · rw [State.safeEnter_of_safe h]
    exact .refl _ s

theorem State.safeEnter_logStands (src : Nat) :
    (s.safeEnter src).mast.log = s.mast.log ∧ (s.safeEnter src).mast.firstHeld = s.mast.firstHeld := by
  cases h : s.inSafe
  · rw [State.safeEnter_of_normal h]
    generalize (if 8 ≤ s.recoveries then 2 else 1) = st
    obtain ⟨log, first, -⟩ := (s.safeMarked st src).mast_safeStops_stands
    have marked := s.safeMarked_tallied st src
    exact ⟨log.trans marked.log, first.trans marked.firstHeld⟩
  · rw [State.safeEnter_of_safe h]
    exact ⟨rfl, rfl⟩

/-- Entered in NORMAL: SAFE, or SAFE_LATCHED after 8 recoveries in the window, with its source. -/
theorem State.safeEnter_enters {s : State} (normal : s.inSafe = false) {src : Nat} (small : src < 256) :
    (s.safeEnter src).rf mstStatus 31 30 = (if 8 ≤ s.recoveries then 2 else 1) ∧
      (s.safeEnter src).rf mstStatus 7 0 = src := by
  have fits : (if 8 ≤ s.recoveries then 2 else 1) < 4 := by split <;> decide
  rw [State.safeEnter_of_normal normal]
  generalize (if 8 ≤ s.recoveries then 2 else 1) = st at *
  rw [State.rf_mstStatus_safeStops _ (by decide) (.inr (by decide)),
    State.rf_mstStatus_safeStops _ (by decide) (.inl (by decide))]
  exact ⟨s.rf_safeMarked_state st src fits, s.rf_safeMarked_source st src small⟩

theorem State.safeEnter_stops {s : State} (normal : s.inSafe = false) (src : Nat) :
    ((s.safeEnter src).rb mstStatus 28 = false ∧ (s.safeEnter src).mast.alivePin = false ∧
        (s.safeEnter src).mast.quietFrom = s.cycles) ∧
      (∀ e, e < 512 → (s.safeEnter src).rf (lftEngStatus e) 31 30 = 1) ∧
      (∀ n, n < 512 → ((s.safeEnter src).port n).xoff = 0) := by
  rw [State.safeEnter_of_normal normal]
  generalize (if 8 ≤ s.recoveries then 2 else 1) = st
  have stops := (s.safeMarked st src).safeStops_shows
  rwa [s.cycles_safeMarked] at stops

/-! ## Exit -/

/-- MST_STATUS in NORMAL and the recovery in MST_RECOV. -/
def State.normalAgain (alive : Bool) : State :=
  let s1 := (s.wf mstStatus 31 30 0).putB mstStatus 28 alive
  s1.wf mstRecov 31 16 (min 65535 (s1.rf mstRecov 31 16 + 1))

/-- The exit reset done, and NORMAL after it. -/
def State.safeLeft : State := s.safeExitReset.normalAgain (s.rf atcBootStatus 31 28 == 8)

/-- A recovery recorded, counted and signalled. -/
def State.recovered : State :=
  ({ s with mast := { s.mast with recov := (s.ns :: s.mast.recov).take 8 } }.count evMstRecovery 0 0).pulse 1283

theorem State.safeExit_eq : s.safeExit = s.safeLeft.recovered := by
  rw [State.safeExit, State.recovered, State.safeLeft, State.normalAgain]

theorem State.recovered_writes (w : Nat → Prop) : writesOnly w s s.recovered := by
  have noted : writesOnly w s { s with mast := { s.mast with recov := (s.ns :: s.mast.recov).take 8 } } :=
    (writesOnly.refl w s).regs rfl
  exact (noted.count _ _ _).regs rfl

theorem State.recov_recovered : s.recovered.mast.recov = (s.ns :: s.mast.recov).take 8 := by
  have counted (t : State) : ((t.count evMstRecovery 0 0).pulse 1283).mast.recov = t.mast.recov := by
    have stands := ((tallied.refl t).count evMstRecovery 0 0).rest
    have same := congrArg Mast.recov stands
    exact same
  exact counted _

theorem State.pulses_recovered : shas s.recovered.bell.pulses 1283 = true := shas_sadd_same _ _

/-- The registers of an exit but for those of the units it restarts. -/
theorem State.rd_safeExitReset {a : Nat} (lo : 0x01000000 ≤ a) (hi : a < 0x02000000) : s.safeExitReset.rd a = s.rd a :=
  s.safeExitReset_unit a (decide_eq_true (.inl (by unfold cntWrap; omega))) (not_unitWrites lo (by omega))

theorem State.rf_normalAgain_state (b : Bool) : (s.normalAgain b).rf mstStatus 31 30 = 0 := by
  rw [State.normalAgain, State.rf, State.rd_wf_ne _ _ _ _ (by decide), ← State.rf]
  refine (State.rf_wf_ne _ _ _ _ _ _ _ (by decide) (by decide) (by decide) (by decide)).trans ?_
  exact s.rf_wf_fits _ (by decide) (by decide) (by decide)

theorem State.rf_normalAgain_recov (b : Bool) :
    (s.normalAgain b).rf mstRecov 31 16 = min 65535 (s.rf mstRecov 31 16 + 1) := by
  have before : ((s.wf mstStatus 31 30 0).putB mstStatus 28 b).rf mstRecov 31 16 = s.rf mstRecov 31 16 := by
    rw [State.rf, State.rd_putB_ne _ _ _ (by decide), State.rd_wf_ne _ _ _ _ (by decide), State.rf]
  rw [State.normalAgain, State.rf_wf_fits _ _ (by decide) (by decide) (by omega), before]

theorem State.rd_normalAgain_isoStatus (b : Bool) : (s.normalAgain b).rd mstIsoStatus = s.rd mstIsoStatus := by
  rw [State.normalAgain, State.rd_wf_ne _ _ _ _ (by decide), State.rd_putB_ne _ _ _ (by decide),
    State.rd_wf_ne _ _ _ _ (by decide)]

theorem State.ns_normalAgain (b : Bool) : (s.normalAgain b).ns = s.ns := rfl

theorem State.mast_normalAgain (b : Bool) : (s.normalAgain b).mast = s.mast := rfl

theorem State.rf_safeLeft_recov : s.safeLeft.rf mstRecov 31 16 = min 65535 (s.rf mstRecov 31 16 + 1) := by
  rw [State.safeLeft, State.rf_normalAgain_recov, State.rf, s.rd_safeExitReset (by decide) (by decide), State.rf]

theorem State.ns_safeLeft : s.safeLeft.ns = s.ns := by
  rw [State.safeLeft, State.ns_normalAgain, State.ns, State.time_safeExitReset, State.ns]

theorem State.recov_safeLeft : s.safeLeft.mast.recov = s.mast.recov := by
  rw [State.safeLeft, State.mast_normalAgain, s.safeExitReset_tallied.recov]

/-- Safe state is left: NORMAL, the recovery recorded and signalled, no isolation released. -/
theorem State.safeExit_leaves : s.safeExit.rf mstStatus 31 30 = 0 ∧
    s.safeExit.mast.recov = (s.ns :: s.mast.recov).take 8 ∧
    s.safeExit.rf mstRecov 31 16 = min 65535 (s.rf mstRecov 31 16 + 1) ∧ shas s.safeExit.bell.pulses 1283 = true ∧
    s.safeExit.rd mstIsoStatus = s.rd mstIsoStatus := by
  have stands {a : Nat} (off : offWrap a = true) : s.safeLeft.recovered.rd a = s.safeLeft.rd a :=
    s.safeLeft.recovered_writes (fun _ => False) a off id
  rw [State.safeExit_eq]
  refine ⟨?_, ?_, ?_, State.pulses_recovered _, ?_⟩
  · rw [State.rf, stands (by decide), ← State.rf, State.safeLeft, State.rf_normalAgain_state]
  · rw [State.recov_recovered, State.ns_safeLeft, State.recov_safeLeft]
  · rw [State.rf, stands (by decide), ← State.rf, State.rf_safeLeft_recov]
  · rw [stands (by decide), State.safeLeft, State.rd_normalAgain_isoStatus, s.rd_safeExitReset (by decide) (by decide)]

/-! ## The commands -/

theorem exec_safeEnterWrite : exec .safeEnterWrite s = .next (s.safeEnter 1) := rfl

theorem exec_safeExitWrite_normal {s : State} (normal : s.inSafe = false) : exec .safeExitWrite s = .next s := by
  have ctl : s.safeCtlWrite 2 = s := by
    rw [State.safeCtlWrite, if_pos (by simp [normal])]
  exact congrArg _ ctl

theorem exec_safeExitWrite_refused {s : State} (held : s.rf mstStatus 31 30 = 2 ∨ (s.inSafe = true ∧ s.rd mstMon ≠ 0)) :
    exec .safeExitWrite s = .next (s.setB mstSafeCtl 2) := by
  have safe : s.inSafe = true := by
    rcases held with latched | ⟨safe, -⟩
    · simp [State.inSafe, latched]
    · exact safe
  have ctl : s.safeCtlWrite 2 = s.setB mstSafeCtl 2 := by
    rw [State.safeCtlWrite, if_neg (by simp [safe]), if_pos (held.imp_right And.right)]
  exact congrArg _ ctl

theorem exec_safeExitWrite_left {s : State} (safe : s.inSafe = true) (free : s.rf mstStatus 31 30 ≠ 2)
    (clear : s.rd mstMon = 0) : exec .safeExitWrite s = .next s.safeExit := by
  have ctl : s.safeCtlWrite 2 = s.safeExit := by
    rw [State.safeCtlWrite, if_neg (by simp [safe]), if_neg (by simp [free, clear])]
  exact congrArg _ ctl

theorem exec_safeAutoExit_left {s : State} (safe : s.rf mstStatus 31 30 = 1) (auto : s.rb mstSafeCfg 31 = true)
    (clear : s.rd mstMon = 0) (quiet : s.mast.quietFrom + s.rf mstSafeCfg 15 0 * 25000 ≤ s.cycles) :
    exec .safeAutoExit s = .next s.safeExit :=
  if_pos ⟨safe, auto, clear, quiet⟩

theorem exec_safeAutoExit_stays {s : State} (held : s.rf mstStatus 31 30 ≠ 1 ∨ s.rb mstSafeCfg 31 = false ∨
    s.rd mstMon ≠ 0 ∨ s.cycles < s.mast.quietFrom + s.rf mstSafeCfg 15 0 * 25000) :
    exec .safeAutoExit s = .next s := by
  refine if_neg fun ⟨safe, auto, clear, quiet⟩ => ?_
  rcases held with h | h | h | h
  · exact h safe
  · exact absurd (auto.symm.trans h) (by decide)
  · exact h clear
  · omega

end

end Sys2Proof.Machine

/-! PROOFS. Reports that wait: put in their place or merged (R503). -/

namespace Sys2Proof.Machine

/-- No report of the source and place waits. -/
def State.untold (s : State) (src inst : Nat) : Prop := ∀ r ∈ s.mast.waiting, ¬(r.src = src ∧ r.inst = inst)

theorem mergeReport_untold {r : Report} {l : List Report} (new : ∀ q ∈ l, ¬(q.src = r.src ∧ q.inst = r.inst)) :
    (mergeReport r l).2 = false ∧ ∀ q, q ∈ (mergeReport r l).1 ↔ q = r ∨ q ∈ l := by
  induction l with
  | nil => simp [mergeReport]
  | cons p t ih =>
    obtain ⟨unmerged, members⟩ := ih fun q hq => new q (List.mem_cons_of_mem _ hq)
    rw [mergeReport, if_neg (new p List.mem_cons_self)]
    split
    · simp
    · refine ⟨unmerged, fun q => ?_⟩
      simp only [List.mem_cons, members]
      tauto

theorem mergeReport_told {r q : Report} {before after : List Report} (src : q.src = r.src) (inst : q.inst = r.inst)
    (below : ∀ p ∈ before, p.src < r.src ∨ (p.src = r.src ∧ p.inst < r.inst)) :
    mergeReport r (before ++ q :: after) = (before ++ { q with merged := min 65535 (q.merged + 1) } :: after, true) := by
  induction before with
  | nil => rw [List.nil_append, mergeReport, if_pos ⟨src, inst⟩, List.nil_append]
  | cons p t ih =>
    have less := below p List.mem_cons_self
    rw [List.cons_append, mergeReport, if_neg (by omega), if_neg (by omega),
      ih fun x hx => below x (List.mem_cons_of_mem _ hx), List.cons_append]

section
variable (s : State)

theorem State.waiting_countBy (e o i n : Nat) : (s.countBy e o i n).mast.waiting = s.mast.waiting := by
  have counted (l : Tbl (Nat × Nat)) : ({ s with mast := { s.mast with ctrs := l } } : State).mast.waiting = s.mast.waiting :=
    rfl
  have wrapped (l : Tbl (Nat × Nat)) (p : Nat) :
      (({ s with mast := { s.mast with ctrs := l } } : State).setWrap p).mast.waiting = s.mast.waiting := rfl
  unfold State.countBy
  dsimp only
  split
  · exact counted _
  · split
    · split
      · exact counted _
      · exact wrapped _ _
    · exact wrapped _ _

theorem State.waiting_count (e o i : Nat) : (s.count e o i).mast.waiting = s.mast.waiting := s.waiting_countBy e o i 1

theorem State.waiting_report (src inst : Nat) (info : Word) :
    (s.report src inst info).mast.waiting = (mergeReport ⟨src, inst, info, 0⟩ s.mast.waiting).1 := by
  unfold State.report
  dsimp only
  split
  · rw [State.waiting_count]
  · rfl

theorem State.ctrs_report_untold {s : State} {src inst : Nat} (new : s.untold src inst) (info : Word) :
    (s.report src inst info).mast.ctrs = s.mast.ctrs := by
  obtain ⟨unmerged, -⟩ := mergeReport_untold (r := ⟨src, inst, info, 0⟩) new
  rw [State.report]
  dsimp only
  rw [unmerged]
  rfl

theorem State.mem_waiting_report {s : State} {src inst : Nat} (new : s.untold src inst) (info : Word) (q : Report) :
    q ∈ (s.report src inst info).mast.waiting ↔ q = ⟨src, inst, info, 0⟩ ∨ q ∈ s.mast.waiting := by
  rw [State.waiting_report]
  exact (mergeReport_untold (r := ⟨src, inst, info, 0⟩) new).2 q

theorem State.report_waits {s : State} {src inst : Nat} (new : s.untold src inst) (info : Word) :
    ⟨src, inst, info, 0⟩ ∈ (s.report src inst info).mast.waiting :=
  (State.mem_waiting_report new info _).2 (.inl rfl)

theorem exec_reportPresent_none {src inst : Nat} (no : srcReserved src = true ∨ 65536 ≤ inst) (info : Word) :
    exec (.reportPresent src inst info) s = .next s := congrArg _ (if_pos no)

theorem exec_reportPresent {src inst : Nat} (told : srcReserved src = false) (small : inst < 65536) (info : Word) :
    exec (.reportPresent src inst info) s = .next (s.report src inst info) :=
  congrArg _ (if_neg (by simp [told, small]))

end

end Sys2Proof.Machine

/-! PROOFS. Counters read, found in the directory and scrubbed; the dump's registers (R525 to R528, R533). -/

namespace Sys2Proof.Machine

section
variable (s : State)

/-! ## COUNTER_READ -/

theorem regAt_cntRdLo : regAt cntRdLo = some ({ base := cntRdLo, kind := .pairLo }, 0, 0) := rfl

theorem State.shows_cntRdLo : s.shows cntRdLo = (pairValue s.mast.ctrs (s.rf cntRdSel 19 0)).1 := rfl

theorem State.shows_cntRdHi : s.shows (cntRdLo + 4) = (pairValue s.mast.ctrs (s.rf cntRdSel 19 0)).2 := rfl

theorem exec_counterRead : ∃ u, exec .counterRead s = .next u ∧
    u.rdata = (pairValue s.mast.ctrs (s.rf cntRdSel 19 0)).1 ∧
    tfind u.latch cntRdHi = some (BitVec.ofNat 32 (pairValue s.mast.ctrs (s.rf cntRdSel 19 0)).2) ∧
    onlyIn [.rdata, .latch] s u := by
  obtain ⟨read, latched, kept⟩ := s.busRead_pairLo regAt_cntRdLo rfl (by decide) (by decide)
    (s.windowShut_low (by decide)) (by decide)
  refine ⟨_, rfl, read.trans s.shows_cntRdLo, ?_, kept.mono (by decide)⟩
  rw [latched, s.shows_cntRdHi]
  exact tfind_tput_same _ _ _

/-! ## CNT_DIR_SEL -/

theorem regAt_cntDirSel : regAt cntDirSel = some ({ base := cntDirSel, rw := 0x1fffff }, 0, 0) := rfl

/-- What CNT_DIR_BASE and CNT_DIR_SHAPE show of a directory entry. -/
def dirWords (w o : Nat) : Nat × Nat :=
  match dirShape w o with
  | some (x, y) => (2 ^ 31 + Config.counterBase (w * 256 + o) % 2 ^ 20, x * 2 ^ 16 + y)
  | none => (0, 0)

theorem dirWords_none {w o : Nat} (h : dirShape w o = none) : dirWords w o = (0, 0) := by rw [dirWords, h]

theorem dirWords_some {w o x y : Nat} (h : dirShape w o = some (x, y)) :
    dirWords w o = (2 ^ 31 + Config.counterBase (w * 256 + o) % 2 ^ 20, x * 2 ^ 16 + y) := by rw [dirWords, h]

theorem State.dirSelect_eq (v : Word) : s.dirSelect v =
    ((s.plainWrite cntDirSel v).wrN cntDirBase (dirWords (fld v 20 16) (fld v 15 0)).1).wrN cntDirShape
      (dirWords (fld v 20 16) (fld v 15 0)).2 := by
  unfold State.dirSelect
  dsimp only
  split
  · next h => rw [dirWords_some h]
  · next h => rw [dirWords_none h]

theorem State.rb_of_rdN {s : State} {a n : Nat} (h : s.rdN a = n) (i : Nat) : s.rb a i = n.testBit i := by
  rw [← h, State.rb, State.rdN, BitVec.testBit_toNat]

theorem State.rf_of_rdN {s : State} {a n : Nat} (h : s.rdN a = n) (hi lo : Nat) : s.rf a hi lo = bits n hi lo := by
  rw [← h, State.rf, State.rdN, fld]

theorem State.dirSelect_shows (v : Word) : (s.dirSelect v).rf cntDirSel 20 0 = fld v 20 0 ∧
    (s.dirSelect v).rdN cntDirBase = (dirWords (fld v 20 16) (fld v 15 0)).1 % 2 ^ 32 ∧
    (s.dirSelect v).rdN cntDirShape = (dirWords (fld v 20 16) (fld v 15 0)).2 % 2 ^ 32 := by
  rw [State.dirSelect_eq]
  generalize dirWords (fld v 20 16) (fld v 15 0) = p
  refine ⟨?_, ?_, ?_⟩
  · rw [State.rf, State.rd_wrN_ne _ _ (by decide), State.rd_wrN_ne _ _ (by decide), ← State.rf]
    exact s.rf_plainWrite regAt_cntDirSel v (by decide) (by decide)
  · rw [State.rdN, State.rd_wrN_ne _ _ (by decide), State.rd_wrN]
    exact BitVec.toNat_ofNat _ _
  · rw [State.rdN, State.rd_wrN]
    exact BitVec.toNat_ofNat _ _

theorem counterDirectorySelect_shows (v : Word) (s : State) :
    ∃ u, exec (.counterDirectorySelect v) s = .next u ∧ onlyIn [.regs] s u ∧ u.rf cntDirSel 20 0 = fld v 20 0 ∧
      (dirShape (fld v 20 16) (fld v 15 0) = none → u.rb cntDirBase 31 = false ∧ u.rdN cntDirShape = 0) ∧
      (∀ x y, dirShape (fld v 20 16) (fld v 15 0) = some (x, y) → u.rb cntDirBase 31 = true ∧
        u.rf cntDirBase 19 0 = Config.counterBase (fld v 20 16 * 256 + fld v 15 0) % 2 ^ 20 ∧
        u.rdN cntDirShape = (x * 2 ^ 16 + y) % 2 ^ 32) := by
  obtain ⟨sel, base, shape⟩ := s.dirSelect_shows v
  refine ⟨_, rfl, (s.dirSelect_keeps v).same, sel, fun absent => ?_, fun x y present => ?_⟩
  · rw [dirWords_none absent] at base shape
    exact ⟨State.rb_of_rdN base 31, shape⟩
  · rw [dirWords_some present] at base shape
    have small : Config.counterBase (fld v 20 16 * 256 + fld v 15 0) % 2 ^ 20 < 2 ^ 20 := Nat.mod_lt _ (by decide)
    generalize Config.counterBase (fld v 20 16 * 256 + fld v 15 0) % 2 ^ 20 = b at *
    rw [Nat.mod_eq_of_lt (by omega)] at base
    refine ⟨(State.rb_of_rdN base 31).trans ?_, (State.rf_of_rdN base 19 0).trans ?_, shape⟩
    · rw [Nat.testBit_two_pow_add_eq, Nat.testBit_lt_two_pow (by omega)]
      rfl
    · unfold bits
      omega

/-! ## COUNTER_SCRUB -/

theorem exec_counterScrub_ok (ev o k : Nat) {s : State} (good : s.eccOf .counter (ctrKey ev o k) = .ok) :
    exec (.counterScrub ev o k .ok) s = .next s := by
  have whole : exec (.counterScrub ev o k .ok) s = execCounterScrub ev o k .ok s := rfl
  rw [whole, execCounterScrub]
  dsimp only
  rw [State.eccFlag, good]

/-- A correctable error in a pair mended and reported. -/
def State.pairMended (key p die : Nat) : State :=
  ((s.eccFlag .counter key .corr).eccClear .counter key).report 0x34 die (BitVec.ofNat 32 p)

/-- A pair starts again at 0. -/
def State.pairZero (key : Nat) : State := { s with mast := { s.mast with ctrs := tdel s.mast.ctrs key } }

/-- A pair with an uncorrectable error starts again. -/
def State.pairDropped (key : Nat) : State := ((s.eccFlag .counter key .uncorr).eccClear .counter key).pairZero key

theorem exec_counterScrub_corr (ev o k : Nat) {s : State} (good : s.eccOf .counter (ctrKey ev o k) = .ok) :
    exec (.counterScrub ev o k .corr) s =
      .next (s.pairMended (ctrKey ev o k) (pairOf (ctrKey ev o k)) (dieOf ev o)) := by
  have whole : exec (.counterScrub ev o k .corr) s = execCounterScrub ev o k .corr s := rfl
  have stands := State.eccOf_eccFlag good .corr
  rw [whole, execCounterScrub]
  dsimp only
  rw [stands, State.pairMended]

theorem exec_counterScrub_uncorr (ev o k : Nat) {s : State} (good : s.eccOf .counter (ctrKey ev o k) = .ok) :
    exec (.counterScrub ev o k .uncorr) s = .next (((s.pairDropped (ctrKey ev o k)).setWrap (pairOf (ctrKey ev o k))).report
      0x35 (dieOf ev o) (BitVec.ofNat 32 (pairOf (ctrKey ev o k)))) := by
  have whole : exec (.counterScrub ev o k .uncorr) s = execCounterScrub ev o k .uncorr s := rfl
  have stands := State.eccOf_eccFlag good .uncorr
  rw [whole, execCounterScrub, State.pairDropped]
  generalize ctrKey ev o k = key at *
  generalize s.eccFlag .counter key .uncorr = t at *
  generalize pairOf key = p
  simp only [stands, State.pairZero]

theorem State.mast_eccFlag (m : EccMem) (i : Nat) (e : Ecc) : (s.eccFlag m i e).mast = s.mast :=
  (s.eccFlag_keeps m i e).same .mast (by decide)

theorem State.mast_eccClear (m : EccMem) (i : Nat) : (s.eccClear m i).mast = s.mast := rfl

theorem State.mast_pairDropped (key : Nat) :
    (s.pairDropped key).mast = { s.mast with ctrs := tdel s.mast.ctrs key } := by
  have zero (t : State) : (t.pairZero key).mast = { t.mast with ctrs := tdel t.mast.ctrs key } := rfl
  rw [State.pairDropped, zero, State.mast_eccClear, State.mast_eccFlag]

theorem State.eccOf_pairDropped (key : Nat) : (s.pairDropped key).eccOf .counter key = .ok :=
  State.eccOf_eccClear_same

/-- A pair's error mended: reported where none of the source waits. -/
theorem State.pairMended_shows (key p die : Nat) : (s.pairMended key p die).eccOf .counter key = .ok ∧
    ((∀ r ∈ s.mast.waiting, r.src ≠ 0x34) → (s.pairMended key p die).mast.ctrs = s.mast.ctrs ∧
      ⟨0x34, die, BitVec.ofNat 32 p, 0⟩ ∈ (s.pairMended key p die).mast.waiting) := by
  have same : ((s.eccFlag .counter key .corr).eccClear .counter key).mast = s.mast := s.mast_eccFlag _ _ _
  have mended : ((s.eccFlag .counter key .corr).eccClear .counter key).eccOf .counter key = .ok := State.eccOf_eccClear_same
  rw [State.pairMended]
  generalize (s.eccFlag .counter key .corr).eccClear .counter key = t at *
  refine ⟨?_, fun none => ?_⟩
  · rw [State.eccOf, State.ecc_report, ← State.eccOf]
    exact mended
  · have new : t.untold 0x34 die := fun r hr told => none r (same ▸ hr) told.1
    exact ⟨(State.ctrs_report_untold new _).trans (congrArg Mast.ctrs same), State.report_waits new _⟩

theorem tget_tdel_same {α : Type} (d : α) (l : Tbl α) (k : Nat) : tget d (tdel l k) k = d := by
  rw [tget, tfind_tdel_same]
  rfl

theorem tget_tdel_ne {α : Type} (d : α) (l : Tbl α) {k j : Nat} (ne : j ≠ k) : tget d (tdel l k) j = tget d l j := by
  rw [tget, tget, tfind_tdel_ne _ _ _ ne]

theorem State.rb_setWrap_stays {w i : Nat} (small : i < 32) (p : Nat) (h : s.rb (cntWrap w) i = true) :
    (s.setWrap p).rb (cntWrap w) i = true := by
  rw [State.setWrap]
  by_cases same : cntWrap w = cntWrap (p / 32)
  · by_cases bit : i = p % 32
    · rw [same, bit]
      exact s.rb_setB _ _ (Nat.mod_lt _ (by decide))
    · rw [← same, s.rb_setB_ne _ _ _ (Nat.mod_lt _ (by decide)) small bit]
      exact h
  · rw [State.rb, s.rd_setB_ne _ same]
    exact h

/-- A count sets WRAP bits and clears none. -/
theorem State.rb_countBy_stays {w i : Nat} (small : i < 32) (e o j n : Nat) (h : s.rb (cntWrap w) i = true) :
    (s.countBy e o j n).rb (cntWrap w) i = true := by
  have counted (l : Tbl (Nat × Nat)) : ({ s with mast := { s.mast with ctrs := l } } : State).rb (cntWrap w) i = true := h
  have wrapped (l : Tbl (Nat × Nat)) (p : Nat) :
      (({ s with mast := { s.mast with ctrs := l } } : State).setWrap p).rb (cntWrap w) i = true :=
    State.rb_setWrap_stays _ small p (counted l)
  unfold State.countBy
  dsimp only
  split
  · exact counted _
  · split
    · split
      · exact counted _
      · exact wrapped _ _
    · exact wrapped _ _

theorem State.rb_report_stays {w i : Nat} (small : i < 32) (src inst : Nat) (info : Word) (h : s.rb (cntWrap w) i = true) :
    (s.report src inst info).rb (cntWrap w) i = true := by
  have waits (l : List Report) : ({ s with mast := { s.mast with waiting := l } } : State).rb (cntWrap w) i = true := h
  unfold State.report
  dsimp only
  split
  · exact State.rb_countBy_stays _ small _ _ _ _ (waits _)
  · exact waits _

/-- A pair restarted: WRAP set, its counter 0, the others as they were. -/
theorem State.pairRestart_shows (key p die : Nat) (info : Word) :
    let u := ((s.pairDropped key).setWrap p).report 0x35 die info
    u.eccOf .counter key = .ok ∧ u.rb (cntWrap (p / 32)) (p % 32) = true ∧
      ((∀ r ∈ s.mast.waiting, r.src ≠ 0x35) → tget (0, 0) u.mast.ctrs key = (0, 0) ∧
        (∀ j, j ≠ key → tget (0, 0) u.mast.ctrs j = tget (0, 0) s.mast.ctrs j) ∧
        ⟨0x35, die, info, 0⟩ ∈ u.mast.waiting) := by
  have mast := s.mast_pairDropped key
  have good := s.eccOf_pairDropped key
  generalize s.pairDropped key = t at *
  refine ⟨?_, ?_, fun none => ?_⟩
  · rw [State.eccOf, State.ecc_report, ← State.eccOf]
    exact good
  · exact State.rb_report_stays _ (Nat.mod_lt _ (by decide)) _ _ _ (t.rb_setB _ _ (Nat.mod_lt _ (by decide)))
  · have new : (t.setWrap p).untold 0x35 die := fun r hr told => none r (by
      have here : r ∈ t.mast.waiting := hr
      rwa [mast] at here) told.1
    have ctrs : (((t.setWrap p).report 0x35 die info)).mast.ctrs = tdel s.mast.ctrs key :=
      (State.ctrs_report_untold new info).trans (congrArg Mast.ctrs mast)
    rw [ctrs]
    exact ⟨tget_tdel_same _ _ _, fun j ne => tget_tdel_ne _ _ ne, State.report_waits new _⟩

theorem counterScrub_finds (ev o k : Nat) (s : State) :
    let key := ctrKey ev o k
    let p := pairOf key
    s.eccOf .counter key = .ok →
    exec (.counterScrub ev o k .ok) s = .next s ∧
    (∃ u, exec (.counterScrub ev o k .corr) s = .next u ∧ u.eccOf .counter key = .ok ∧
      onlyIn [.regs, .ecc, .mast] s u ∧
      ((∀ r ∈ s.mast.waiting, r.src ≠ 0x34) → u.mast.ctrs = s.mast.ctrs ∧
        ⟨0x34, dieOf ev o, BitVec.ofNat 32 p, 0⟩ ∈ u.mast.waiting)) ∧
    (∃ u, exec (.counterScrub ev o k .uncorr) s = .next u ∧ u.eccOf .counter key = .ok ∧
      u.rb (cntWrap (p / 32)) (p % 32) = true ∧ onlyIn [.regs, .ecc, .mast] s u ∧
      ((∀ r ∈ s.mast.waiting, r.src ≠ 0x35) → tget (0, 0) u.mast.ctrs key = (0, 0) ∧
        (∀ j, j ≠ key → tget (0, 0) u.mast.ctrs j = tget (0, 0) s.mast.ctrs j) ∧
        ⟨0x35, dieOf ev o, BitVec.ofNat 32 p, 0⟩ ∈ u.mast.waiting)) := by
  intro key p good
  have kept (x : Ecc) : ∃ t, exec (.counterScrub ev o k x) s = .next t ∧ _ := execCounterScrub_keeps s ev o k x
  have corr := exec_counterScrub_corr ev o k good
  have uncorr := exec_counterScrub_uncorr ev o k good
  obtain ⟨mended, told⟩ := s.pairMended_shows key p (dieOf ev o)
  obtain ⟨clean, wrap, restarted⟩ := s.pairRestart_shows key p (dieOf ev o) (BitVec.ofNat 32 p)
  exact ⟨exec_counterScrub_ok ev o k good, ⟨_, corr, mended, onlyIn_of_next (kept _) corr, told⟩,
    ⟨_, uncorr, clean, wrap, onlyIn_of_next (kept _) uncorr, restarted⟩⟩

/-! ## The dump's registers -/

theorem regAt_cntDumpCfg : regAt cntDumpCfg = some ({ base := cntDumpCfg, rw := 0xff003fff, rst := 0x0200000a }, 0, 0) := rfl
theorem regAt_cntDumpBaseLo : regAt cntDumpBaseLo = some ({ base := cntDumpBaseLo, rw := 0xffffffff, kind := .pairLo }, 0, 0) :=
  rfl
theorem regAt_cntDumpBaseHi : regAt cntDumpBaseHi = some ({ base := cntDumpBaseHi, rw := 0xffffffff, kind := .pairHi }, 0, 0) :=
  rfl

/-- The ring may be changed. -/
def State.ringIdle : Bool := s.rf cntDumpCfg 13 0 == 0 && !(s.rb cntDumpCtl 31)

theorem State.ringIdle_iff : s.ringIdle = true ↔ s.rf cntDumpCfg 13 0 = 0 ∧ s.rb cntDumpCtl 31 = false := by
  simp [State.ringIdle]

theorem State.dumpCfgWrite_cfg (v : Word) : s.dumpCfgWrite cntDumpCfg v =
    if fld v 31 24 ≠ 0 ∧ fld v 13 0 ≤ 10000 ∧ (fld v 31 24 = s.rf cntDumpCfg 31 24 ∨ s.ringIdle = true)
    then s.plainWrite cntDumpCfg v else s.setB mstErr 0 := by
  unfold State.dumpCfgWrite
  rw [← State.ringIdle]
  dsimp only
  rw [if_pos rfl]
  refine if_congr ?_ rfl rfl
  simp [and_assoc]

theorem State.dumpCfgWrite_half {a : Nat} (half : a ≠ cntDumpCfg) (v : Word) :
    s.dumpCfgWrite a v = if s.ringIdle then s.plainWrite a v else s.setB mstErr 0 := by
  unfold State.dumpCfgWrite
  rw [← State.ringIdle]
  dsimp only
  rw [if_neg half]

theorem State.unitWrite_dumpCfg {a : Nat} (h : a = cntDumpCfg ∨ a = cntDumpBaseLo ∨ a = cntDumpBaseHi) (v : Word) :
    s.unitWrite a v = s.dumpCfgWrite a v := by
  have here : s.cntRegWrite a v = s.dumpCfgWrite a v := if_pos h
  rw [← here]
  rcases h with rfl | rfl | rfl <;> rfl

theorem exec_dumpCfgWrite_cfg (v : Word) :
    exec (.dumpCfgWrite cntDumpCfg v) s = .next (s.dumpCfgWrite cntDumpCfg v).condPrune := by
  have whole : exec (.dumpCfgWrite cntDumpCfg v) s = .next (s.write32 cntDumpCfg v) := congrArg id (if_pos (.inl rfl))
  rw [whole, s.write32_register v (by decide) (by decide) regAt_cntDumpCfg (s.windowShut_low (by decide)),
    s.regWrite_plain regAt_cntDumpCfg v rfl, s.unitWrite_dumpCfg (.inl rfl)]

theorem exec_dumpCfgWrite_lo (v : Word) :
    exec (.dumpCfgWrite cntDumpBaseLo v) s = .next { s with held := tput s.held cntDumpBaseLo v } := by
  have whole : exec (.dumpCfgWrite cntDumpBaseLo v) s = .next (s.write32 cntDumpBaseLo v) :=
    congrArg id (if_pos (.inr (.inl rfl)))
  rw [whole, s.write32_register v (by decide) (by decide) regAt_cntDumpBaseLo (s.windowShut_low (by decide)),
    s.regWrite_pairLo regAt_cntDumpBaseLo v rfl]

/-- Both halves of the dump's base written. -/
def State.baseWrite (lo hi : Word) : State := (s.dumpCfgWrite cntDumpBaseLo lo).dumpCfgWrite cntDumpBaseHi hi

theorem State.pairWrite_dumpBase (v : Nat) : s.pairWrite cntDumpBaseLo v =
    s.baseWrite (BitVec.ofNat 32 v) (BitVec.ofNat 32 (v / 2 ^ 32)) := by
  have halves : s.pairWrite cntDumpBaseLo v =
      (s.unitWrite cntDumpBaseLo (BitVec.ofNat 32 v)).unitWrite cntDumpBaseHi (BitVec.ofNat 32 (v / 2 ^ 32)) := by
    rw [State.pairWrite, if_neg (by decide), if_neg (by decide), if_neg (by decide)]
    rfl
  rw [halves, State.unitWrite_dumpCfg _ (.inr (.inl rfl)), State.unitWrite_dumpCfg _ (.inr (.inr rfl)), State.baseWrite]

theorem exec_dumpCfgWrite_hi {s : State} {w : Word} (lower : tfind s.held cntDumpBaseLo = some w) (v : Word) :
    exec (.dumpCfgWrite cntDumpBaseHi v) s =
      .next (({ s with held := tdel s.held cntDumpBaseLo } : State).baseWrite w v).condPrune := by
  have whole : exec (.dumpCfgWrite cntDumpBaseHi v) s = .next (s.write32 cntDumpBaseHi v) :=
    congrArg id (if_pos (.inr (.inr rfl)))
  have half : tget (s.rd (cntDumpBaseHi - 4)) s.held (cntDumpBaseHi - 4) = w := by
    show (tfind s.held cntDumpBaseLo).getD _ = w
    rw [lower, Option.getD_some]
  have low : BitVec.ofNat 32 (w.toNat + 2 ^ 32 * v.toNat) = w := by
    apply BitVec.eq_of_toNat_eq
    rw [BitVec.toNat_ofNat]
    have := w.isLt
    omega
  have high : BitVec.ofNat 32 ((w.toNat + 2 ^ 32 * v.toNat) / 2 ^ 32) = v := by
    apply BitVec.eq_of_toNat_eq
    rw [BitVec.toNat_ofNat]
    have := w.isLt
    have := v.isLt
    omega
  have lo : cntDumpBaseHi - 4 = cntDumpBaseLo := rfl
  rw [whole, s.write32_register v (by decide) (by decide) regAt_cntDumpBaseHi (s.windowShut_low (by decide)),
    s.regWrite_pairHi regAt_cntDumpBaseHi v rfl, half, lo, State.pairWrite_dumpBase, low, high]

/-- A refused write marks MST_ERR and nothing else. -/
theorem State.setB_mstErr_shows : (s.setB mstErr 0).condPrune.rb mstErr 0 = true ∧
    ∀ a, a ≠ mstErr → (s.setB mstErr 0).condPrune.rd a = s.rd a := by
  refine ⟨?_, fun a ne => ?_⟩
  · rw [State.rb, State.rd_condPrune]
    exact s.rb_setB _ _ (by decide)
  · rw [State.rd_condPrune, s.rd_setB_ne _ ne]

theorem State.ringIdle_congr {s t : State} (cfg : t.rd cntDumpCfg = s.rd cntDumpCfg)
    (ctl : t.rd cntDumpCtl = s.rd cntDumpCtl) : t.ringIdle = s.ringIdle := by
  rw [State.ringIdle, State.ringIdle, State.rf, cfg, ← State.rf, State.rb, ctl, ← State.rb]

theorem State.baseWrite_idle {s : State} (idle : s.ringIdle = true) (lo hi : Word) :
    s.baseWrite lo hi = (s.wr cntDumpBaseLo lo).wr (cntDumpBaseLo + 4) hi := by
  have still : (s.plainWrite cntDumpBaseLo lo).ringIdle = true :=
    (State.ringIdle_congr (s.rd_plainWrite_ne _ (by decide)) (s.rd_plainWrite_ne _ (by decide))).trans idle
  have first : s.dumpCfgWrite cntDumpBaseLo lo = s.plainWrite cntDumpBaseLo lo := by
    rw [State.dumpCfgWrite_half _ (by decide), if_pos idle]
  rw [State.baseWrite, first, State.dumpCfgWrite_half _ (by decide), if_pos still,
    s.plainWrite_of_rw_all _ regAt_cntDumpBaseLo rfl, State.plainWrite_of_rw_all _ _ regAt_cntDumpBaseHi rfl]
  rfl

theorem State.baseWrite_busy {s : State} (busy : s.ringIdle = false) (lo hi : Word) :
    s.baseWrite lo hi = (s.setB mstErr 0).setB mstErr 0 := by
  have still : (s.setB mstErr 0).ringIdle = false :=
    (State.ringIdle_congr (s.rd_setB_ne _ (by decide)) (s.rd_setB_ne _ (by decide))).trans busy
  have first : s.dumpCfgWrite cntDumpBaseLo lo = s.setB mstErr 0 := by
    rw [State.dumpCfgWrite_half _ (by decide), if_neg (by simp [busy])]
  rw [State.baseWrite, first, State.dumpCfgWrite_half _ (by decide), if_neg (by simp [still])]

theorem State.baseWrite_frame (lo hi : Word) : onlyIn [.regs, .held, .bell] s
    (({ s with held := tdel s.held cntDumpBaseLo } : State).baseWrite lo hi).condPrune := by
  have dropped : Keeps [.regs, .held, .bell] s { s with held := tdel s.held cntDumpBaseLo } :=
    Keeps.put_held rfl (Keeps.refl _)
  have written (t : State) : Keeps [.regs] t (t.baseWrite lo hi) :=
    (t.dumpCfgWrite_keeps cntDumpBaseLo lo).trans (State.dumpCfgWrite_keeps _ cntDumpBaseHi hi)
  exact ((dropped.trans ((written _).mono rfl)).trans ((State.condPrune_keeps _).mono rfl)).same

theorem dumpCfgWrite_rules (v w : Word) (s : State) :
    let idle : Prop := s.rf cntDumpCfg 13 0 = 0 ∧ s.rb cntDumpCtl 31 = false
    let ok : Prop := fld v 31 24 ≠ 0 ∧ fld v 13 0 ≤ 10000 ∧ (fld v 31 24 = s.rf cntDumpCfg 31 24 ∨ idle)
    let rejects (o : Host.Outcome State Fault Refusal) : Prop := ∃ u, o = .next u ∧ u.rb mstErr 0 = true ∧
      (∀ a, a ≠ mstErr → u.rd a = s.rd a) ∧ onlyIn [.regs, .held, .bell] s u
    (ok → ∃ u, exec (.dumpCfgWrite cntDumpCfg v) s = .next u ∧ u.rf cntDumpCfg 31 24 = fld v 31 24 ∧
      u.rf cntDumpCfg 13 0 = fld v 13 0 ∧ (∀ a, a ≠ cntDumpCfg → u.rd a = s.rd a) ∧ onlyIn [.regs, .bell] s u) ∧
    (¬ok → rejects (exec (.dumpCfgWrite cntDumpCfg v) s)) ∧
    (exec (.dumpCfgWrite cntDumpBaseLo v) s = .next { s with held := tput s.held cntDumpBaseLo v }) ∧
    (tfind s.held cntDumpBaseLo = some w → (¬idle → rejects (exec (.dumpCfgWrite cntDumpBaseHi v) s)) ∧
      (idle → ∃ u, exec (.dumpCfgWrite cntDumpBaseHi v) s = .next u ∧
        u.rd64 cntDumpBaseLo = w.toNat + 2 ^ 32 * v.toNat ∧
        (∀ a, a ≠ cntDumpBaseLo → a ≠ cntDumpBaseHi → u.rd a = s.rd a) ∧ onlyIn [.regs, .held, .bell] s u)) := by
  intro idle ok rejects
  have takes : s.ringIdle = true ↔ idle := s.ringIdle_iff
  have cfg := exec_dumpCfgWrite_cfg s v
  have kept : onlyIn [.regs, .bell] s (s.dumpCfgWrite cntDumpCfg v).condPrune :=
    ((s.dumpCfgWrite_keeps _ v).mono rfl |>.trans ((State.condPrune_keeps _).mono rfl)).same
  rw [s.dumpCfgWrite_cfg] at kept cfg
  simp only [takes] at kept cfg
  refine ⟨fun fits => ?_, fun misfit => ?_, exec_dumpCfgWrite_lo s v, fun lower => ⟨fun busy => ?_, fun free => ?_⟩⟩
  · rw [if_pos fits] at kept cfg
    refine ⟨_, cfg, ?_, ?_, fun a ne => ?_, kept⟩
    · rw [State.rf, State.rd_condPrune, ← State.rf]
      exact s.rf_plainWrite regAt_cntDumpCfg v (by decide) (by decide)
    · rw [State.rf, State.rd_condPrune, ← State.rf]
      exact s.rf_plainWrite regAt_cntDumpCfg v (by decide) (by decide)
    · rw [State.rd_condPrune, s.rd_plainWrite_ne _ ne]
  · rw [if_neg misfit] at kept cfg
    obtain ⟨marked, others⟩ := s.setB_mstErr_shows
    exact ⟨_, cfg, marked, others, kept.mono (by decide)⟩
  · have out := exec_dumpCfgWrite_hi lower v
    have dropped : ({ s with held := tdel s.held cntDumpBaseLo } : State).ringIdle = false :=
      Bool.eq_false_iff.2 fun yes => busy (takes.1 yes)
    rw [State.baseWrite_busy dropped] at out
    have dropped_frame := s.baseWrite_frame w v
    rw [State.baseWrite_busy dropped] at dropped_frame
    obtain ⟨marked, others⟩ := State.setB_mstErr_shows (({ s with held := tdel s.held cntDumpBaseLo } : State).setB mstErr 0)
    exact ⟨_, out, marked, fun a ne => (others a ne).trans (State.rd_setB_ne _ _ ne), dropped_frame⟩
  · have out := exec_dumpCfgWrite_hi lower v
    have dropped : ({ s with held := tdel s.held cntDumpBaseLo } : State).ringIdle = true := takes.2 free
    rw [State.baseWrite_idle dropped] at out
    refine ⟨_, out, ?_, fun a low high => ?_, ?_⟩
    · rw [State.rd64_congr (State.condPrune_regs _)]
      exact State.rd64_wr_wr _ _ _ _
    · exact ((State.rd_condPrune _ a).trans (State.rd_wr_ne _ _ high)).trans (State.rd_wr_ne _ _ low)
    · exact State.baseWrite_idle dropped w v ▸ s.baseWrite_frame w v

end

end Sys2Proof.Machine

/-! PROOFS. Snapshots of the counters: taken, refused and skipped (R527, R529). -/

namespace Sys2Proof.Machine

section
variable (s : State)

/-- A snapshot not taken: counted, signalled and kept for the next one's header. -/
def State.snapSkip : State :=
  { (s.count evCntDumpSkip 0 0).pulse 1285 with mast := { (s.count evCntDumpSkip 0 0).mast with snapSkipped := true } }

/-- The ring of dumps lies where it may. -/
def State.ringFits : Bool := s.dumpArea (s.rd64 cntDumpBaseLo) (s.rf cntDumpCfg 31 24 * dumpSlot) 4096

/-- The snapshot of time `t`. -/
def State.snapOf (t : Nat) (manual : Bool) : Snap :=
  { time := t, manual := manual, skipped := s.mast.snapSkipped, period := s.rf cntDumpCfg 13 0,
    slots := s.rf cntDumpCfg 31 24, base := s.rd64 cntDumpBaseLo, ctrs := s.mast.ctrs,
    wraps := (s.regs.filter fun (p : Nat × Word) => decide (cntWrap 0 ≤ p.1 ∧ p.1 < cntWrap 32768)).map
      fun (p : Nat × Word) => ((p.1 - cntWrap 0) / 4, p.2) }

def State.snapTake (t : Nat) (manual : Bool) : State :=
  { s.setB cntDumpCtl 31 with mast := { s.mast with snap := some (s.snapOf t manual), snapSkipped := false } }

theorem State.snapshot_busy {s : State} (busy : s.mast.snap ≠ none) (t : Nat) (manual : Bool) :
    s.snapshot t manual = if manual then s.setB cntDumpCtl 30 else s.snapSkip := by
  rw [State.snapshot, if_pos (Option.isSome_iff_ne_none.2 busy), State.snapSkip]

theorem State.snapshot_unfit {s : State} (free : s.mast.snap = none) (unfit : s.ringFits = false) (t : Nat)
    (manual : Bool) : s.snapshot t manual = s.snapSkip.setB cntDumpCtl 29 := by
  rw [State.ringFits] at unfit
  rw [State.snapshot, if_neg (by simp [free]), if_pos (by simp [unfit]), State.snapSkip]

theorem State.snapshot_taken {s : State} (free : s.mast.snap = none) (fits : s.ringFits = true) (t : Nat)
    (manual : Bool) : s.snapshot t manual = s.snapTake t manual := by
  rw [State.ringFits] at fits
  rw [State.snapshot, if_neg (by simp [free]), if_neg (by simp [fits]), State.snapTake, State.snapOf]

theorem State.snap_count (e o i : Nat) : (s.count e o i).mast.snap = s.mast.snap ∧
    (s.count e o i).mast.snapPeriod = s.mast.snapPeriod := by
  have rest := ((tallied.refl s).count e o i).rest
  have snap := congrArg Mast.snap rest
  have period := congrArg Mast.snapPeriod rest
  exact ⟨snap, period⟩

theorem State.snapSkip_shows : s.snapSkip.mast.snap = s.mast.snap ∧ s.snapSkip.mast.snapSkipped = true ∧
    shas s.snapSkip.bell.pulses 1285 = true :=
  ⟨(s.snap_count _ _ _).1, rfl, shas_sadd_same _ _⟩

theorem State.snapPeriod_snapshot (t : Nat) (manual : Bool) :
    (s.snapshot t manual).mast.snapPeriod = s.mast.snapPeriod := by
  by_cases busy : s.mast.snap = none
  · cases fits : s.ringFits
    · rw [State.snapshot_unfit busy fits]
      exact (s.snap_count _ _ _).2
    · rw [State.snapshot_taken busy fits]
      rfl
  · rw [State.snapshot_busy busy]
    split
    · rfl
    · exact (s.snap_count _ _ _).2

theorem exec_snapWrite : exec .snapWrite s = .next (s.snapshot s.ns true) := rfl

/-- The end of the period reached is noted. -/
def State.periodReached (t : Nat) : State := { s with mast := { s.mast with snapPeriod := t } }

theorem exec_counterSnapshot_early {s : State} {per at_ : Nat} (h : s.rf cntDumpCfg 13 0 * 1000000 = per)
    (multiple : s.ns / per * per = at_) (early : ¬(per ≠ 0 ∧ s.mast.snapPeriod < at_)) : exec .counterSnapshot s = .next s := by
  have whole : exec .counterSnapshot s = execCounterSnapshot s := rfl
  rw [whole, execCounterSnapshot, h, multiple]
  exact if_pos (by omega)

theorem exec_counterSnapshot_due {s : State} {per at_ : Nat} (h : s.rf cntDumpCfg 13 0 * 1000000 = per)
    (multiple : s.ns / per * per = at_) (due : per ≠ 0 ∧ s.mast.snapPeriod < at_) : exec .counterSnapshot s =
      .next ((s.periodReached at_).snapshot at_ false) := by
  have whole : exec .counterSnapshot s = execCounterSnapshot s := rfl
  rw [whole, execCounterSnapshot, h, multiple]
  exact if_neg (by omega)

/-- The snapshot of `s` taken at time `t`. -/
def snapTaken (s : State) (t : Nat) (manual : Bool) (u : State) : Prop :=
  u.rb cntDumpCtl 31 = true ∧ u.mast.snapSkipped = false ∧
    ∃ x, u.mast.snap = some x ∧ x.time = t ∧ x.manual = manual ∧ x.skipped = s.mast.snapSkipped ∧
      x.period = s.rf cntDumpCfg 13 0 ∧ x.slots = s.rf cntDumpCfg 31 24 ∧ x.base = s.rd64 cntDumpBaseLo ∧
      x.ctrs = s.mast.ctrs

/-- A snapshot of `s` skipped. -/
def snapSkipped (s u : State) : Prop :=
  u.mast.snap = s.mast.snap ∧ u.mast.snapSkipped = true ∧ shas u.bell.pulses 1285 = true

theorem State.snapTake_taken (t : Nat) (manual : Bool) : snapTaken s t manual (s.snapTake t manual) :=
  ⟨s.rb_setB _ _ (by decide), rfl, s.snapOf t manual, rfl, rfl, rfl, rfl, rfl, rfl, rfl, rfl⟩

theorem State.snapTake_taken_period (p t : Nat) (manual : Bool) :
    snapTaken s t manual ((s.periodReached p).snapTake t manual) := (s.periodReached p).snapTake_taken t manual

theorem State.snapSkip_ctl : (s.snapSkip.setB cntDumpCtl 29).rb cntDumpCtl 29 = true := State.rb_setB _ _ _ (by decide)

theorem State.snapSkip_skipped : snapSkipped s s.snapSkip := s.snapSkip_shows

theorem State.snapSkip_skipped_period (p : Nat) : snapSkipped s (s.periodReached p).snapSkip :=
  (s.periodReached p).snapSkip_shows

theorem State.snapTake_frame (t : Nat) (manual : Bool) : onlyIn [.regs, .mast] s (s.snapTake t manual) :=
  (Keeps.put_mast rfl ((s.setB_keeps cntDumpCtl 31).mono rfl)).same

theorem snapWrite_busy {s : State} (busy : s.mast.snap ≠ none) : exec .snapWrite s = .next (s.setB cntDumpCtl 30) := by
  rw [exec_snapWrite, State.snapshot_busy busy, if_pos rfl]

theorem snapWrite_takes {s : State} (free : s.mast.snap = none) (fits : s.ringFits = true) :
    ∃ u, exec .snapWrite s = .next u ∧ snapTaken s s.ns true u ∧ onlyIn [.regs, .mast] s u := by
  rw [exec_snapWrite, State.snapshot_taken free fits]
  exact ⟨_, rfl, s.snapTake_taken _ _, s.snapTake_frame _ _⟩

theorem snapWrite_skips {s : State} (free : s.mast.snap = none) (unfit : s.ringFits = false) :
    ∃ u, exec .snapWrite s = .next u ∧ snapSkipped s u ∧ u.rb cntDumpCtl 29 = true ∧ onlyIn [.regs, .mast, .bell] s u := by
  have kept := s.snapshot_keeps s.ns true
  rw [State.snapshot_unfit free unfit] at kept
  rw [exec_snapWrite, State.snapshot_unfit free unfit]
  exact ⟨_, rfl, s.snapSkip_shows, s.snapSkip_ctl, kept.same⟩

/-- At the end of a period: the snapshot taken, or skipped where one is written or the ring does not fit. -/
theorem counterSnapshot_due {s : State} {per at_ : Nat} (h : s.rf cntDumpCfg 13 0 * 1000000 = per)
    (multiple : s.ns / per * per = at_) (due : per ≠ 0 ∧ s.mast.snapPeriod < at_) :
    ∃ u, exec .counterSnapshot s = .next u ∧ u.mast.snapPeriod = at_ ∧ onlyIn [.regs, .mast, .bell] s u ∧
      (s.mast.snap ≠ none → snapSkipped s u) ∧ (s.mast.snap = none → s.ringFits = true → snapTaken s at_ false u) ∧
      (s.mast.snap = none → s.ringFits = false → snapSkipped s u ∧ u.rb cntDumpCtl 29 = true) := by
  have out := exec_counterSnapshot_due h multiple due
  have same : (s.periodReached at_).ringFits = s.ringFits := rfl
  refine ⟨_, out, State.snapPeriod_snapshot _ _ _, onlyIn_of_next (execCounterSnapshot_keeps s) out, fun busy => ?_,
    fun free fits => ?_, fun free unfit => ?_⟩
  · rw [State.snapshot_busy (s := s.periodReached at_) busy]
    exact s.snapSkip_skipped_period at_
  · rw [State.snapshot_taken (s := s.periodReached at_) free (same.trans fits)]
    exact s.snapTake_taken_period at_ at_ false
  · rw [State.snapshot_unfit (s := s.periodReached at_) free (same.trans unfit)]
    exact ⟨s.snapSkip_skipped_period at_, State.snapSkip_ctl _⟩

theorem snapshots_rules (s : State) :
    let ring : Bool := s.dumpArea (s.rd64 cntDumpBaseLo) (s.rf cntDumpCfg 31 24 * dumpSlot) 4096
    let per := s.rf cntDumpCfg 13 0 * 1000000
    let T := s.ns / per * per
    let due : Prop := per ≠ 0 ∧ s.mast.snapPeriod < T
    let taken (t : Nat) (manual : Bool) (u : State) : Prop := u.rb cntDumpCtl 31 = true ∧ u.mast.snapSkipped = false ∧
      ∃ x, u.mast.snap = some x ∧ x.time = t ∧ x.manual = manual ∧ x.skipped = s.mast.snapSkipped ∧
        x.period = s.rf cntDumpCfg 13 0 ∧ x.slots = s.rf cntDumpCfg 31 24 ∧ x.base = s.rd64 cntDumpBaseLo ∧
        x.ctrs = s.mast.ctrs
    let skipped (u : State) : Prop := u.mast.snap = s.mast.snap ∧ u.mast.snapSkipped = true ∧
      shas u.bell.pulses 1285 = true
    (s.mast.snap ≠ none → exec .snapWrite s = .next (s.setB cntDumpCtl 30)) ∧
    (s.mast.snap = none → ring = true → ∃ u, exec .snapWrite s = .next u ∧ taken s.ns true u ∧
      onlyIn [.regs, .mast] s u) ∧
    (s.mast.snap = none → ring = false → ∃ u, exec .snapWrite s = .next u ∧ skipped u ∧ u.rb cntDumpCtl 29 = true ∧
      onlyIn [.regs, .mast, .bell] s u) ∧
    (¬due → exec .counterSnapshot s = .next s) ∧
    (due → ∃ u, exec .counterSnapshot s = .next u ∧ u.mast.snapPeriod = T ∧ onlyIn [.regs, .mast, .bell] s u ∧
      (s.mast.snap ≠ none → skipped u) ∧ (s.mast.snap = none → ring = true → taken T false u) ∧
      (s.mast.snap = none → ring = false → skipped u ∧ u.rb cntDumpCtl 29 = true)) :=
  ⟨snapWrite_busy, snapWrite_takes, snapWrite_skips, exec_counterSnapshot_early rfl rfl, counterSnapshot_due rfl rfl⟩

end

end Sys2Proof.Machine

/-! PROOFS. Writes of the counter dump into an area that it may write and that nothing holds back (R447, R529). -/

namespace Sys2Proof.Machine

/-- A requester's write into the area takes effect at once: it lies in the requester's partitions, no channel has failed,
no host holds lines and no write waits. -/
structure dumpOpen (s : State) (lo n : Nat) : Prop where
  area : s.inTablesOrHost lo n = true
  up : ∀ k, k < 4 → s.rd (celStkChfail k) = 0#32
  host : s.rb dwyLinkStatus 31 = false
  free : s.cel.held = []

section
variable {s t : State} {lo n : Nat}

theorem State.inTablesOrHost_part (h : s.inTablesOrHost lo n = true) {a len : Nat} (low : lo ≤ a)
    (high : a + len ≤ lo + n) : s.inTablesOrHost a len = true := by
  simp only [State.inTablesOrHost, State.inPart, Bool.or_eq_true, decide_eq_true_eq] at *
  omega

theorem State.reach_dump (a len : Nat) : s.reach 0x17 a len = s.inTablesOrHost a len := rfl

theorem dumpOpen.chFailed (h : dumpOpen s lo n) (a : Nat) : s.chFailed a = false := by
  rw [State.chFailed, State.rb, h.up _ (celStack_lt a)]
  simp

theorem dumpOpen.waits (h : dumpOpen s lo n) (a len : Nat) : s.waitLines 0x17 a len = [] := by
  rw [State.waitLines, if_neg (by decide), State.hostLines, if_neg (by simp [h.host])]

theorem dumpOpen.overlap (h : dumpOpen s lo n) (a len : Nat) : s.heldOverlap 0x17 a len = false := by
  rw [State.heldOverlap, h.free, List.any_nil]

theorem dumpOpen.kept (h : dumpOpen s lo n) (writes : writesOnly celWrites s t) (free : t.cel.held = []) : dumpOpen t lo n where
  area := by
    have out : ¬celWrites celPart := not_celWrites_of_lt (by decide)
    rw [State.inTablesOrHost, State.inPart_writes writes out, State.inPart_writes writes out, ← State.inTablesOrHost]
    exact h.area
  up k hk := (writes _ (offWrap_of_window (by unfold celStkChfail; omega)) (not_celWrites_celStkChfail k)).trans (h.up k hk)
  host := (writes.rb _ (not_celWrites_of_lt (by decide)) (by decide)).trans h.host
  free := free

/-- A piece of a dump's write. -/
theorem dumpOpen.celWrite1 (h : dumpOpen s lo n) {a : Nat} {bs : List Byte} (low : lo ≤ a) (high : a + bs.length ≤ lo + n) :
    dumpOpen (s.celWrite1 0x17 a bs false) lo n ∧ (s.celWrite1 0x17 a bs false).cel.mem = memWrite 0 s.cel.mem a bs := by
  have reached : s.reach 0x17 a bs.length = true := State.inTablesOrHost_part h.area low high
  have now : s.celWrite1 0x17 a bs false = (s.celReached true 0x17 a bs.length).celApply 0x17 a bs false := by
    rw [State.celWrite1_reaches false reached (h.chFailed a), h.waits, h.overlap]
    rfl
  obtain ⟨openRow, raa, acts, retry, e⟩ := s.cel_celReached true 0x17 a bs.length
  have writes := s.celWrite1_writes 0x17 a bs false
  rw [now] at writes ⊢
  refine ⟨h.kept writes ?_, ?_⟩
  · rw [State.held_celApply, e]
    exact h.free
  · rw [State.mem_celApply, e]

/-- The pieces of a write, from an address on. -/
theorem dumpOpen.pieces (bs : List Byte) (first : Nat) (fuel : Nat) :
    ∀ {s : State} {a len : Nat}, dumpOpen s lo n → first ≤ a → a - first + len ≤ bs.length → lo ≤ a → a + len ≤ lo + n →
      len ≤ 256 * fuel - a % 256 →
      let u := s.each (Machine.pieces 256 fuel a len) fun t p => t.celWrite1 0x17 p.1 ((bs.drop (p.1 - first)).take p.2) false
      dumpOpen u lo n ∧ ∀ x, tget 0 u.cel.mem x = if a ≤ x ∧ x < a + len then bs.getD (x - first) 0 else tget 0 s.cel.mem x := by
  induction fuel with
  | zero =>
    intro s a len h _ _ _ _ enough
    refine ⟨h, fun x => ?_⟩
    rw [if_neg (by omega)]
    rfl
  | succ fuel ih =>
    intro s a len h after fits low high enough
    by_cases none : len = 0
    · rw [Machine.pieces, if_pos none]
      refine ⟨h, fun x => ?_⟩
      rw [if_neg (by omega)]
      rfl
    · rw [Machine.pieces, if_neg none]
      generalize hk : min len (256 - a % 256) = k
      have bounds : 0 < k ∧ k ≤ len ∧ (k < len → (a + k) % 256 = 0) := by omega
      obtain ⟨pos, most, aligned⟩ := bounds
      have length : ((bs.drop (a - first)).take k).length = k := by
        rw [List.length_take, List.length_drop]
        omega
      obtain ⟨next, mem⟩ := h.celWrite1 (a := a) (bs := (bs.drop (a - first)).take k) low (by omega)
      obtain ⟨rest, bytes⟩ := ih (a := a + k) (len := len - k) next (by omega) (by omega) (by omega) (by omega) (by omega)
      dsimp only
      rw [State.each_cons]
      refine ⟨rest, fun x => (bytes x).trans ?_⟩
      rw [mem, tget_memWrite, length]
      by_cases inside : a ≤ x ∧ x < a + k
      · rw [if_neg (by omega), if_pos inside, if_pos (by omega)]
        have place : x - first = a - first + (x - a) := by omega
        rw [place, List.getD_eq_getElem?_getD, List.getD_eq_getElem?_getD, List.getElem?_take_of_lt (by omega),
          List.getElem?_drop]
      · by_cases later : a + k ≤ x ∧ x < a + k + (len - k)
        · rw [if_pos later, if_pos (by omega)]
        · rw [if_neg later, if_neg inside, if_neg (by omega)]

/-- A write of the dump in its area: it stands at once, byte by byte. -/
theorem dumpOpen.celWrite (h : dumpOpen s lo n) {a : Nat} {bs : List Byte} (low : lo ≤ a) (high : a + bs.length ≤ lo + n) :
    dumpOpen (s.celWrite 0x17 a bs) lo n ∧ ∀ x, tget 0 (s.celWrite 0x17 a bs).cel.mem x =
      if a ≤ x ∧ x < a + bs.length then bs.getD (x - a) 0 else tget 0 s.cel.mem x :=
  dumpOpen.pieces bs a (bs.length / 256 + 2) h (Nat.le_refl a) (by omega) low high (by omega)

end

end Sys2Proof.Machine

/-! PROOFS. DUMP_COMPLETE: the dump of a snapshot in its slot (R529, R530). -/

namespace Sys2Proof.Machine

/-! ## The bytes of a dump -/

/-- The four pairs of burst b, as the dump writes them. -/
def Snap.burst (x : Snap) (b : Nat) : List Byte :=
  (upto 4).flatMap fun i => natLe 4 (pairValue x.ctrs (4 * b + i)).1 ++ natLe 4 (pairValue x.ctrs (4 * b + i)).2

/-- A pair as the dump writes it. -/
def Snap.pairBytes (x : Snap) (k : Nat) : List Byte := natLe 4 (pairValue x.ctrs k).1 ++ natLe 4 (pairValue x.ctrs k).2

/-- The bursts that hold a pair that has counted. -/
def Snap.bursts (x : Snap) : List Nat := x.ctrs.foldl (fun l p => sadd l (pairOf p.1 / 4)) []

theorem Snap.length_pairBytes (x : Snap) (k : Nat) : (x.pairBytes k).length = 8 := by
  rw [Snap.pairBytes, List.length_append, length_natLe, length_natLe]

/-- The bytes of chunk i of a list of chunks that are equally long. -/
theorem getD_flatMap_chunk {f : Nat → List Byte} {w : Nat} (len : ∀ k, (f k).length = w) {j : Nat} (hj : j < w)
    (l : List Nat) : ∀ {i : Nat} (hi : i < l.length), (l.flatMap f).getD (w * i + j) 0 = (f l[i]).getD j 0 := by
  induction l with
  | nil => exact fun hi => absurd hi (Nat.not_lt_zero _)
  | cons k l ih =>
    intro i hi
    rw [List.flatMap_cons]
    cases i with
    | zero =>
      rw [Nat.mul_zero, Nat.zero_add, List.getD_append _ _ _ _ (by rw [len]; exact hj), List.getElem_cons_zero]
    | succ i =>
      have later : w * (i + 1) + j - w = w * i + j := by
        rw [Nat.mul_succ]
        omega
      have after : w ≤ w * (i + 1) + j := by
        rw [Nat.mul_succ]
        omega
      rw [List.getD_append_right _ _ _ _ (by rw [len]; exact after), len, later, ih (Nat.lt_of_succ_lt_succ hi),
        List.getElem_cons_succ]

theorem Snap.burst_eq (x : Snap) (b : Nat) : x.burst b = (upto 4).flatMap fun i => x.pairBytes (4 * b + i) := rfl

theorem Snap.length_burst (x : Snap) (b : Nat) : (x.burst b).length = 32 := by
  rw [Snap.burst_eq, List.length_flatMap]
  simp only [Snap.length_pairBytes]
  rfl

theorem Snap.getD_burst (x : Snap) (b : Nat) {i j : Nat} (hi : i < 4) (hj : j < 8) :
    (x.burst b).getD (8 * i + j) 0 = (x.pairBytes (4 * b + i)).getD j 0 := by
  have chunk := getD_flatMap_chunk (fun i => x.length_pairBytes (4 * b + i)) hj (upto 4) (i := i) (by simpa [upto] using hi)
  rw [Snap.burst_eq, chunk]
  simp only [upto, List.getElem_range]

theorem mem_foldl_sadd {α : Type} (f : α → Nat) (l : List α) (m : List Nat) (k : Nat) :
    k ∈ l.foldl (fun m p => sadd m (f p)) m ↔ k ∈ m ∨ ∃ p ∈ l, f p = k := by
  induction l generalizing m with
  | nil => simp
  | cons p l ih =>
    rw [List.foldl_cons, ih, mem_sadd]
    simp only [List.mem_cons, exists_eq_or_imp]
    grind

theorem Snap.mem_bursts (x : Snap) (b : Nat) : b ∈ x.bursts ↔ ∃ p ∈ x.ctrs, pairOf p.1 / 4 = b := by
  rw [Snap.bursts, mem_foldl_sadd]
  simp

theorem pairOf_lt (k : Nat) : pairOf k < 2 ^ 20 := Nat.mod_lt _ (Nat.two_pow_pos _)

theorem Snap.bursts_lt (x : Snap) {b : Nat} (h : b ∈ x.bursts) : b < 2 ^ 18 := by
  obtain ⟨p, -, rfl⟩ := (x.mem_bursts b).1 h
  have := pairOf_lt p.1
  omega

/-- A pair outside those bursts has not counted. -/
theorem Snap.pairBytes_idle (x : Snap) {k : Nat} (out : k / 4 ∉ x.bursts) (j : Nat) : (x.pairBytes k).getD j 0 = 0 := by
  have none : x.ctrs.find? (fun p => pairOf p.1 == k) = Option.none := by
    rw [List.find?_eq_none]
    rintro p hp same
    exact out ((x.mem_bursts _).2 ⟨p, hp, by rw [beq_iff_eq.1 same]⟩)
  have zero : pairValue x.ctrs k = (0, 0) := by rw [pairValue, none]
  rw [Snap.pairBytes, zero]
  have bytes : natLe 4 0 ++ natLe 4 0 = List.replicate 8 (0#8 : Byte) := rfl
  rw [bytes]
  simp only [List.getD_eq_getElem?_getD, List.getElem?_replicate]
  split <;> rfl

/-- SEQ, the manual and skipped flags, and the time at the head of a header. -/
theorem Snap.header_eq (x : Snap) (seq : Nat) : ∃ rest, rest.length = 560 ∧
    x.header seq = natLe 4 seq ++ (natLe 4 (nat x.manual + 2 * nat x.skipped) ++ (natLe 8 x.time ++ rest)) := by
  refine ⟨_, ?_, by simp only [Snap.header, List.append_assoc]; rfl⟩
  simp only [List.length_append, length_natLe, List.length_replicate, List.length_flatMap, List.map_const', List.sum_replicate,
    List.length_map, upto, List.length_range]
  rfl

theorem Snap.length_header (x : Snap) (seq : Nat) : (x.header seq).length = 576 := by
  obtain ⟨rest, length, e⟩ := x.header_eq seq
  rw [e, List.length_append, List.length_append, List.length_append, length_natLe, length_natLe, length_natLe, length]

theorem Snap.getD_header_seq (x : Snap) (seq : Nat) {j : Nat} (hj : j < 4) :
    (x.header seq).getD j 0 = (natLe 4 seq).getD j 0 := by
  obtain ⟨rest, -, e⟩ := x.header_eq seq
  rw [e, List.getD_append _ _ _ _ (by rw [length_natLe]; exact hj)]

theorem Snap.getD_header_time (x : Snap) (seq : Nat) {j : Nat} (hj : j < 8) :
    (x.header seq).getD (8 + j) 0 = (natLe 8 x.time).getD j 0 := by
  obtain ⟨rest, -, e⟩ := x.header_eq seq
  rw [e, List.getD_append_right _ _ _ _ (by rw [length_natLe]; omega),
    List.getD_append_right _ _ _ _ (by rw [length_natLe, length_natLe]; omega),
    List.getD_append _ _ _ _ (by rw [length_natLe, length_natLe, length_natLe]; omega), length_natLe, length_natLe]
  congr 1
  omega

/-- The end of a slot's header. -/
def seqEnd (seq : Nat) : List Byte := List.replicate 28 0 ++ natLe 4 seq

theorem length_seqEnd (seq : Nat) : (seqEnd seq).length = 32 := by
  rw [seqEnd, List.length_append, List.length_replicate, length_natLe]

theorem getD_seqEnd (seq : Nat) {j : Nat} : (seqEnd seq).getD (28 + j) 0 = (natLe 4 seq).getD j 0 := by
  rw [seqEnd, List.getD_append_right _ _ _ _ (by rw [List.length_replicate]; omega), List.length_replicate]
  congr 1
  omega

/-! ## The writes of a dump -/

section
variable {s t : State} {lo n : Nat}

theorem dumpOpen.count (h : dumpOpen s lo n) (e o i k : Nat) : dumpOpen (s.countBy e o i k) lo n :=
  h.kept ((writesOnly.refl _ s).countBy e o i k) (by rw [State.cel_countBy]; exact h.free)

theorem State.dumpZero_writes (s : State) (a len : Nat) : writesOnly celWrites s (s.dumpZero a len) := by
  have zeroed : writesOnly celWrites s (s.celZero a len) := (writesOnly.refl _ s).regs rfl
  exact (zeroed.countBy _ _ _ _).regs rfl

/-- The slot overwritten with zeros. -/
theorem dumpOpen.dumpZero (h : dumpOpen s lo n) (a len : Nat) : dumpOpen (s.dumpZero a len) lo n ∧
    ∀ y, tget 0 (s.dumpZero a len).cel.mem y = if a ≤ y ∧ y < a + len then 0 else tget 0 s.cel.mem y := by
  have counted : ((s.celZero a len).countBy evCelWr 0x17 0 (len / 256)).cel = (s.celZero a len).cel := State.cel_countBy _ _ _ _ _
  have mem : (s.dumpZero a len).cel.mem = memErase s.cel.mem a len := congrArg Cel.mem counted
  have held : (s.dumpZero a len).cel.held = s.cel.held := by
    have same := congrArg Cel.held counted
    exact same
  refine ⟨h.kept (s.dumpZero_writes a len) (held.trans h.free), fun x => ?_⟩
  rw [mem, tget_memErase]

/-- The bursts of pairs, one after another. -/
theorem dumpOpen.bursts (x : Snap) {p0 : Nat} (low : lo ≤ p0) (l : List Nat) (inside : ∀ b ∈ l, p0 + 32 * b + 32 ≤ lo + n) :
    ∀ {s : State}, dumpOpen s lo n → let u := s.each l fun t b => t.celWrite 0x17 (p0 + 32 * b) (x.burst b)
      dumpOpen u lo n ∧ ∀ y, tget 0 u.cel.mem y =
        if p0 ≤ y ∧ (y - p0) / 32 ∈ l then (x.burst ((y - p0) / 32)).getD ((y - p0) % 32) 0 else tget 0 s.cel.mem y := by
  induction l with
  | nil =>
    intro s h
    refine ⟨h, fun y => ?_⟩
    rw [if_neg (by simp)]
    rfl
  | cons b l ih =>
    intro s h
    obtain ⟨next, first⟩ := h.celWrite (a := p0 + 32 * b) (bs := x.burst b) (by omega)
      (by rw [Snap.length_burst]; exact inside b List.mem_cons_self)
    obtain ⟨rest, bytes⟩ := ih (fun c hc => inside c (List.mem_cons_of_mem _ hc)) next
    dsimp only
    rw [State.each_cons]
    refine ⟨rest, fun y => (bytes y).trans ?_⟩
    by_cases later : p0 ≤ y ∧ (y - p0) / 32 ∈ l
    · rw [if_pos later, if_pos ⟨later.1, List.mem_cons_of_mem _ later.2⟩]
    · rw [if_neg later, first, Snap.length_burst]
      by_cases here : p0 + 32 * b ≤ y ∧ y < p0 + 32 * b + 32
      · have burst : (y - p0) / 32 = b := by omega
        rw [if_pos here, if_pos ⟨by omega, by rw [burst]; exact List.mem_cons_self⟩, burst]
        congr 1
        omega
      · have other : ¬(p0 ≤ y ∧ (y - p0) / 32 ∈ b :: l) := by
          rintro ⟨after, mem⟩
          rcases List.mem_cons.1 mem with same | mem
          · omega
          · exact later ⟨after, mem⟩
        rw [if_neg here, if_neg other]

end

/-! ## The dump as a whole -/

section
variable (s : State) (x : Snap)

/-- The slot of the dump that is next. -/
def State.dumpAt : Nat := x.base + s.mast.dumpSeq % x.slots * dumpSlot

/-- The slot written, SEQ last. -/
def State.dumpWritten (seq slot : Nat) : State :=
  (((s.dumpZero slot dumpSlot).celWrite 0x17 slot (x.header seq)).each x.bursts fun t b =>
    t.celWrite 0x17 (slot + 4096 + 32 * b) (x.burst b)).celWrite 0x17 (slot + 4064) (seqEnd seq)

/-- The dump ended: no snapshot stands, SEQ steps, a pulse. -/
def State.dumpEnded (seq : Nat) : State :=
  { s.putB cntDumpCtl 31 false with mast := { s.mast with snap := none, dumpSeq := (seq + 1) % 2 ^ 32 } }.pulse 1284

theorem exec_dumpComplete_none {s : State} (none : s.mast.snap = Option.none) : exec .dumpComplete s = .next s := by
  have whole : exec .dumpComplete s = execDumpComplete s := rfl
  rw [whole, execDumpComplete, none]

theorem exec_dumpComplete {s : State} {x : Snap} (taken : s.mast.snap = some x) : exec .dumpComplete s =
    .next (((((s.dumpWritten x s.mast.dumpSeq (s.dumpAt x)).count evCntDump 0 0).each (upto 64) fun t v =>
      t.viewWrite x s.mast.dumpSeq v)).dumpEnded s.mast.dumpSeq) := by
  have whole : exec .dumpComplete s = execDumpComplete s := rfl
  rw [whole, execDumpComplete, taken]
  rfl

/-- A dump's slot as it is written. -/
def Snap.slotByte (seq slot : Nat) (old : Nat → Byte) (y : Nat) : Byte :=
  if slot + 4064 ≤ y ∧ y < slot + 4064 + 32 then (seqEnd seq).getD (y - (slot + 4064)) 0
  else if slot + 4096 ≤ y ∧ (y - (slot + 4096)) / 32 ∈ x.bursts then
    (x.burst ((y - (slot + 4096)) / 32)).getD ((y - (slot + 4096)) % 32) 0
  else if slot ≤ y ∧ y < slot + 576 then (x.header seq).getD (y - slot) 0
  else if slot ≤ y ∧ y < slot + dumpSlot then 0 else old y

variable {s x} {lo n seq slot : Nat}

theorem dumpOpen.dumpWritten (h : dumpOpen s lo n) (low : lo ≤ slot) (high : slot + dumpSlot ≤ lo + n) :
    dumpOpen (s.dumpWritten x seq slot) lo n ∧
      ∀ y, tget 0 (s.dumpWritten x seq slot).cel.mem y = x.slotByte seq slot (tget 0 s.cel.mem) y := by
  have size : dumpSlot = 8392704 := rfl
  obtain ⟨open1, zero⟩ := h.dumpZero slot dumpSlot
  obtain ⟨open2, head⟩ := open1.celWrite (a := slot) (bs := x.header seq) low (by rw [Snap.length_header]; omega)
  obtain ⟨open3, pairs⟩ := dumpOpen.bursts (p0 := slot + 4096) x (by omega) x.bursts (fun b hb => by
    have := x.bursts_lt hb
    omega) open2
  obtain ⟨open4, tail⟩ := open3.celWrite (a := slot + 4064) (bs := seqEnd seq) (by omega) (by rw [length_seqEnd]; omega)
  refine ⟨open4, fun y => (tail y).trans ?_⟩
  rw [length_seqEnd, pairs, head, zero, Snap.length_header, Snap.slotByte]

theorem dumpOpen.ofRing (area : s.inTablesOrHost lo n = true) (up : ∀ k, k < 4 → s.rd (celStkChfail k) = 0#32)
    (host : s.rb dwyLinkStatus 31 = false) (free : s.cel.held = []) : dumpOpen s lo n := ⟨area, up, host, free⟩

/-! ## What the slot holds -/

theorem Snap.slotByte_seq {old : Nat → Byte} {j : Nat} (hj : j < 4) :
    x.slotByte seq slot old (slot + j) = (natLe 4 seq).getD j 0 := by
  rw [Snap.slotByte, if_neg (by omega), if_neg (by omega), if_pos (by omega), Nat.add_sub_cancel_left, Snap.getD_header_seq _ _ hj]

theorem Snap.slotByte_time {old : Nat → Byte} {j : Nat} (hj : j < 8) :
    x.slotByte seq slot old (slot + 8 + j) = (natLe 8 x.time).getD j 0 := by
  have place : slot + 8 + j - slot = 8 + j := by omega
  rw [Snap.slotByte, if_neg (by omega), if_neg (by omega), if_pos (by omega), place, Snap.getD_header_time _ _ hj]

theorem Snap.slotByte_end {old : Nat → Byte} {j : Nat} (hj : j < 4) :
    x.slotByte seq slot old (slot + 4092 + j) = (natLe 4 seq).getD j 0 := by
  have place : slot + 4092 + j - (slot + 4064) = 28 + j := by omega
  rw [Snap.slotByte, if_pos (by omega), place, getD_seqEnd]

theorem Snap.slotByte_pair {old : Nat → Byte} {k j : Nat} (hk : k < 1048576) (hj : j < 8) :
    x.slotByte seq slot old (slot + 4096 + 8 * k + j) = (x.pairBytes k).getD j 0 := by
  have size : dumpSlot = 8392704 := rfl
  have burst : (slot + 4096 + 8 * k + j - (slot + 4096)) / 32 = k / 4 := by omega
  have place : (slot + 4096 + 8 * k + j - (slot + 4096)) % 32 = 8 * (k % 4) + j := by omega
  rw [Snap.slotByte, if_neg (by omega), burst, place]
  by_cases counted : k / 4 ∈ x.bursts
  · rw [if_pos ⟨by omega, counted⟩, Snap.getD_burst _ _ (by omega) hj, Nat.div_add_mod]
  · rw [if_neg (fun h => counted h.2), if_neg (by omega), if_pos (by omega), Snap.pairBytes_idle x counted]

theorem Snap.slotByte_outside {old : Nat → Byte} {y : Nat} (out : y < slot ∨ slot + dumpSlot ≤ y) :
    x.slotByte seq slot old y = old y := by
  have size : dumpSlot = 8392704 := rfl
  have unwritten : ¬(slot + 4096 ≤ y ∧ (y - (slot + 4096)) / 32 ∈ x.bursts) := by
    rintro ⟨after, mem⟩
    have := x.bursts_lt mem
    omega
  rw [Snap.slotByte, if_neg (by omega), if_neg unwritten, if_neg (by omega), if_neg (by omega)]

theorem memRead_of_getD {m : Tbl Byte} {a len : Nat} {bs : List Byte} (length : bs.length = len)
    (same : ∀ j, j < len → tget 0 m (a + j) = bs.getD j 0) : memRead 0 m a len = bs :=
  memRead_of_bytes length fun j hj => (same j (length ▸ hj)).trans (List.getD_eq_getElem _ _ hj)

/-! ## The views, and the end -/

/-- A disabled view writes nothing. -/
theorem State.viewWrite_disabled {v : Nat} (off : s.rb (cntViewCfg v) 31 = false) (seq : Nat) : s.viewWrite x seq v = s := by
  rw [State.viewWrite, if_pos (by rw [off]; rfl)]

theorem State.views_disabled (off : ∀ v, v < 64 → s.rb (cntViewCfg v) 31 = false) (seq : Nat) :
    (s.each (upto 64) fun t v => t.viewWrite x seq v) = s :=
  State.each_invariant (P := (· = s)) rfl fun t v mem same => by
    rw [same]
    exact State.viewWrite_disabled (off v (mem_upto.1 mem)) seq

theorem State.dumpEnded_shows (t : State) (seq : Nat) : (t.dumpEnded seq).mast.snap = none ∧
    (t.dumpEnded seq).mast.dumpSeq = (seq + 1) % 2 ^ 32 ∧ (t.dumpEnded seq).rb cntDumpCtl 31 = false ∧
    shas (t.dumpEnded seq).bell.pulses 1284 = true ∧ (t.dumpEnded seq).cel = t.cel :=
  ⟨rfl, rfl, (State.rb_congr (s := t.putB cntDumpCtl 31 false) rfl _ _).trans (t.rb_putB cntDumpCtl 31 false (by decide)),
    shas_sadd_same _ _, rfl⟩

theorem State.dumpWritten_writes (s : State) (x : Snap) (seq slot : Nat) : writesOnly celWrites s (s.dumpWritten x seq slot) := by
  have head := (s.dumpZero_writes slot dumpSlot).trans ((s.dumpZero slot dumpSlot).celWrite_writes 0x17 slot (x.header seq))
  have pairs := head.each (l := x.bursts) (f := fun t b => t.celWrite 0x17 (slot + 4096 + 32 * b) (x.burst b))
    fun t b _ => t.celWrite_writes _ _ _
  exact pairs.trans (State.celWrite_writes _ _ _ _)

theorem State.viewsOff_dumpWritten (off : ∀ v, v < 64 → s.rb (cntViewCfg v) 31 = false) (seq slot : Nat) :
    ∀ v, v < 64 → ((s.dumpWritten x seq slot).count evCntDump 0 0).rb (cntViewCfg v) 31 = false := by
  intro v small
  have writes := (s.dumpWritten_writes x seq slot).count evCntDump 0 0
  have place : offWrap (cntViewCfg v) = true := decide_eq_true (.inl (by unfold cntViewCfg cntWrap; omega))
  rw [writes.rb _ (not_celWrites_of_lt (by unfold cntViewCfg; omega)) place]
  exact off v small

theorem State.slot_inside (s : State) (x : Snap) (some_ : x.slots ≠ 0) :
    x.base ≤ s.dumpAt x ∧ s.dumpAt x + dumpSlot ≤ x.base + x.slots * dumpSlot := by
  have under : s.mast.dumpSeq % x.slots + 1 ≤ x.slots := Nat.mod_lt _ (Nat.pos_of_ne_zero some_)
  have room := Nat.mul_le_mul_right dumpSlot under
  rw [Nat.add_mul, Nat.one_mul] at room
  unfold State.dumpAt
  exact ⟨Nat.le_add_right _ _, by omega⟩

end

end Sys2Proof.Machine

/-! PROOFS. Safe state, counters, snapshots and dumps: O57 (R491, R513 to R516, R523 to R533). -/

namespace Sys2Proof.Machine

/-- A dump written whole: every byte of its slot, and none beyond it. -/
theorem dumpComplete_writes (x : Snap) (s : State) (taken : s.mast.snap = some x) :
    let slot := x.base + s.mast.dumpSeq % x.slots * dumpSlot
    ∃ u, exec .dumpComplete s = .next u ∧ u.mast.snap = none ∧ u.mast.dumpSeq = (s.mast.dumpSeq + 1) % 2 ^ 32 ∧
      u.rb cntDumpCtl 31 = false ∧ shas u.bell.pulses 1284 = true ∧
      onlyIn [.regs, .ecc, .mast, .bell, .cel, .outbox] s u ∧
      (x.slots ≠ 0 → s.dumpArea x.base (x.slots * dumpSlot) 4096 = true →
        (∀ k, k < 4 → s.rd (celStkChfail k) = 0#32) → s.rb dwyLinkStatus 31 = false → s.cel.held = [] →
        (∀ v, v < 64 → s.rb (cntViewCfg v) 31 = false) →
        memRead 0 u.cel.mem slot 4 = natLe 4 s.mast.dumpSeq ∧
        memRead 0 u.cel.mem (slot + 4092) 4 = natLe 4 s.mast.dumpSeq ∧
        memRead 0 u.cel.mem (slot + 8) 8 = natLe 8 x.time ∧
        (∀ k, k < 1048576 → memRead 0 u.cel.mem (slot + 4096 + 8 * k) 8 =
          natLe 4 (pairValue x.ctrs k).1 ++ natLe 4 (pairValue x.ctrs k).2) ∧
        (∀ y, y < slot ∨ slot + dumpSlot ≤ y → tget 0 u.cel.mem y = tget 0 s.cel.mem y)) := by
  have out := exec_dumpComplete taken
  have kept := onlyIn_of_next (execDumpComplete_keeps s) out
  obtain ⟨none, seq, idle, pulsed, cel⟩ := State.dumpEnded_shows
    (((s.dumpWritten x s.mast.dumpSeq (s.dumpAt x)).count evCntDump 0 0).each (upto 64) fun t v =>
      t.viewWrite x s.mast.dumpSeq v) s.mast.dumpSeq
  refine ⟨_, out, none, seq, idle, pulsed, kept, fun some_ area up host free off => ?_⟩
  obtain ⟨low, high⟩ := s.slot_inside x some_
  have tables : s.inTablesOrHost x.base (x.slots * dumpSlot) = true := (Bool.and_eq_true _ _ ▸ area).2
  obtain ⟨-, bytes⟩ := (dumpOpen.ofRing tables up host free).dumpWritten (x := x) (seq := s.mast.dumpSeq) low high
  rw [State.views_disabled (State.viewsOff_dumpWritten off _ _)] at cel ⊢
  have mem : (((s.dumpWritten x s.mast.dumpSeq (s.dumpAt x)).count evCntDump 0 0).dumpEnded s.mast.dumpSeq).cel.mem =
      (s.dumpWritten x s.mast.dumpSeq (s.dumpAt x)).cel.mem := congrArg Cel.mem (cel.trans (State.cel_count _ _ _ _))
  rw [mem]
  refine ⟨memRead_of_getD (length_natLe _ _) fun j hj => ?_, memRead_of_getD (length_natLe _ _) fun j hj => ?_,
    memRead_of_getD (length_natLe _ _) fun j hj => ?_, fun k hk => memRead_of_getD (x.length_pairBytes k) fun j hj => ?_,
    fun y outside => ?_⟩
  · exact (bytes _).trans (Snap.slotByte_seq hj)
  · exact (bytes _).trans (Snap.slotByte_end hj)
  · exact (bytes _).trans (Snap.slotByte_time hj)
  · exact (bytes _).trans (Snap.slotByte_pair hk hj)
  · exact (bytes y).trans (Snap.slotByte_outside outside)

theorem safeEnterWrite_enters (s : State) : (s.inSafe = true → exec .safeEnterWrite s = .next s) ∧
    (s.inSafe = false → ∃ u, exec .safeEnterWrite s = .next u ∧
      u.rf mstStatus 31 30 = (if 8 ≤ s.recoveries then 2 else 1) ∧ u.rf mstStatus 7 0 = 1 ∧
      u.rb mstStatus 28 = false ∧ u.mast.alivePin = false ∧ u.mast.quietFrom = s.cycles ∧
      (∀ e, e < 512 → u.rf (lftEngStatus e) 31 30 = 1) ∧ (∀ n, n < 512 → (u.port n).xoff = 0)) := by
  refine ⟨fun safe => ?_, fun normal => ?_⟩
  · rw [exec_safeEnterWrite, State.safeEnter_of_safe safe]
  · obtain ⟨state, source⟩ := State.safeEnter_enters normal (show 1 < 256 by decide)
    obtain ⟨⟨low, pin, quiet⟩, engines, ports⟩ := State.safeEnter_stops normal 1
    exact ⟨_, exec_safeEnterWrite s, state, source, low, pin, quiet, engines, ports⟩

theorem safeExit_rules (s : State) :
    let left (o : Host.Outcome State Fault Refusal) : Prop := ∃ u, o = .next u ∧ u.rf mstStatus 31 30 = 0 ∧
      u.mast.recov = (s.ns :: s.mast.recov).take 8 ∧ u.rf mstRecov 31 16 = min 65535 (s.rf mstRecov 31 16 + 1) ∧
      shas u.bell.pulses 1283 = true ∧ u.rd mstIsoStatus = s.rd mstIsoStatus
    (s.inSafe = false → exec .safeExitWrite s = .next s) ∧
    (s.rf mstStatus 31 30 = 2 ∨ (s.inSafe = true ∧ s.rd mstMon ≠ 0) →
      exec .safeExitWrite s = .next (s.setB mstSafeCtl 2)) ∧
    (s.inSafe = true → s.rf mstStatus 31 30 ≠ 2 → s.rd mstMon = 0 → left (exec .safeExitWrite s)) ∧
    (s.rf mstStatus 31 30 ≠ 1 ∨ s.rb mstSafeCfg 31 = false ∨ s.rd mstMon ≠ 0 ∨
        s.cycles < s.mast.quietFrom + s.rf mstSafeCfg 15 0 * 25000 → exec .safeAutoExit s = .next s) ∧
    (s.rf mstStatus 31 30 = 1 → s.rb mstSafeCfg 31 = true → s.rd mstMon = 0 →
      s.mast.quietFrom + s.rf mstSafeCfg 15 0 * 25000 ≤ s.cycles → left (exec .safeAutoExit s)) :=
  ⟨exec_safeExitWrite_normal, exec_safeExitWrite_refused,
    fun safe free clear => ⟨_, exec_safeExitWrite_left safe free clear, s.safeExit_leaves⟩, exec_safeAutoExit_stays,
    fun safe auto clear quiet => ⟨_, exec_safeAutoExit_left safe auto clear quiet, s.safeExit_leaves⟩⟩

end Sys2Proof.Machine

section
open Sys2Proof Sys2Proof.Machine

/-- Settles O57: safe state by its entry and exit, the counters by their reads, the dump by the bytes of its slot. -/
theorem safeStateSnapshotsAndCounters : Obligations.SafeStateSnapshotsAndCounters := by
  unfold Obligations.SafeStateSnapshotsAndCounters
  exact ⟨safeEnterWrite_enters, safeExit_rules, exec_counterRead, counterDirectorySelect_shows, counterScrub_finds,
    snapshots_rules, fun s none => exec_dumpComplete_none none, dumpComplete_writes, dumpCfgWrite_rules⟩

end

/-! PROOFS. What an isolation and a report's action bring about (R507, R508, R509). -/

namespace Sys2Proof.Machine

/-- What an isolation may write. -/
def isoWrites (a : Nat) : Prop := a = mstIsoStatus ∨ unitWrites a

theorem not_isoWrites {a : Nat} (lo : 0x01000000 ≤ a) (hi : a < 0x03000000) (ne : a ≠ mstIsoStatus) : ¬isoWrites a := by
  rintro (here | unit)
  · exact ne here
  · exact not_unitWrites lo hi unit

section
variable (s : State)

/-! ## The kinds of isolation -/

section
variable {s} {src : Nat}

theorem State.isolate_engine (kind : isoKind src = .engine) (inst : Nat) :
    s.isolate src inst = if inst < 512 then s.engineStop inst 4 else s := by rw [State.isolate, kind]

theorem State.isolate_loft (kind : isoKind src = .loft) (inst : Nat) :
    s.isolate src inst = if inst < 64 then s.each (upto 8) fun t j => t.engineStop (8 * inst + j) 4 else s := by
  rw [State.isolate, kind]

theorem State.isolate_slice (kind : isoKind src = .slice) (inst : Nat) : s.isolate src inst =
    if inst < 16 then (s.setB mstIsoStatus inst).sliceDiscard (fun t n => t.count evMstIsoDiscard n 0) inst else s := by
  rw [State.isolate, kind]

theorem State.isolate_channel (kind : isoKind src = .channel) (inst : Nat) : s.isolate src inst =
    if inst < 64 ∧ !(s.rb (celStkChfail (inst / 16)) (inst % 16)) then s.channelFail (inst / 16) (inst % 16) else s := by
  rw [State.isolate, kind]

theorem State.isolate_chiplet (kind : isoKind src = .chiplet) (inst : Nat) : s.isolate src inst =
    if inst < 8 then (s.setB mstIsoStatus (24 + inst)).each (upto 64) fun t i => t.portLinkDown (64 * inst + i) else s := by
  rw [State.isolate, kind]

theorem State.isolate_doorway (kind : isoKind src = .doorway) (inst : Nat) :
    s.isolate src inst = (s.setB mstIsoStatus 16).dwyReset := by rw [State.isolate, kind]

theorem State.isolate_none (kind : isoKind src = .none) (inst : Nat) : s.isolate src inst = s := by rw [State.isolate, kind]

end

/-! ## What an isolation leaves -/

theorem State.engineStop_iso {e : Nat} (small : e < 512) (cause : Nat) : writesOnly isoWrites s (s.engineStop e cause) :=
  (s.engineStop_unit small cause).mono fun _ => .inr

theorem State.isoMarked_writes (i : Nat) : writesOnly isoWrites s (s.setB mstIsoStatus i) :=
  (writesOnly.refl _ s).setB (a := mstIsoStatus) (.inl rfl) i

theorem State.isolate_writes (src inst : Nat) : writesOnly isoWrites s (s.isolate src inst) := by
  cases kind : isoKind src with
  | engine =>
    rw [State.isolate_engine kind]
    split
    · next small => exact s.engineStop_iso small 4
    · exact .refl _ s
  | loft =>
    rw [State.isolate_loft kind]
    split
    · exact (writesOnly.refl _ s).each fun t j mem => t.engineStop_iso (by have := mem_upto.1 mem; omega) 4
    · exact .refl _ s
  | slice =>
    rw [State.isolate_slice kind]
    exact .ite ((s.isoMarked_writes inst).trans ((State.sliceDiscard_unit _ (fun t n => (writesOnly.refl _ t).count _ _ _)
      inst).mono fun _ => .inr)) (.refl _ s)
  | channel =>
    rw [State.isolate_channel kind]
    exact .ite (s.channelFail_writes.mono fun _ => .inr) (.refl _ s)
  | chiplet =>
    rw [State.isolate_chiplet kind]
    exact .ite ((s.isoMarked_writes _).each fun t i _ => (t.portLinkDown_writes _).mono fun _ => .inr) (.refl _ s)
  | doorway =>
    rw [State.isolate_doorway kind]
    exact (s.isoMarked_writes _).trans ((State.dwyReset_writes _).mono fun _ => .inr)
  | none =>
    rw [State.isolate_none kind]
    exact .refl _ s

theorem State.isolate_tallied (src inst : Nat) : tallied s (s.isolate src inst) := by
  have marked (i : Nat) : tallied s (s.setB mstIsoStatus i) := (tallied.refl s).setB _ _
  cases kind : isoKind src with
  | engine =>
    rw [State.isolate_engine kind]
    exact .ite (s.engineStop_tallied _ _) (.refl s)
  | loft =>
    rw [State.isolate_loft kind]
    exact .ite ((tallied.refl s).each fun t j _ => t.engineStop_tallied _ _) (.refl s)
  | slice =>
    rw [State.isolate_slice kind]
    exact .ite ((marked _).trans (State.sliceDiscard_tallied _ (fun t n => (tallied.refl t).count _ _ _) _)) (.refl s)
  | channel =>
    rw [State.isolate_channel kind]
    exact .ite (s.channelFail_tallied _ _) (.refl s)
  | chiplet =>
    rw [State.isolate_chiplet kind]
    exact .ite ((marked _).each fun t i _ => t.portLinkDown_tallied _) (.refl s)
  | doorway =>
    rw [State.isolate_doorway kind]
    exact (marked _).trans (State.dwyReset_tallied _)
  | none =>
    rw [State.isolate_none kind]
    exact .refl s

/-! ## What an isolation shows -/

theorem State.rb_isoMarked {t : State} {i : Nat} (small : i < 32) (unit : writesOnly unitWrites (s.setB mstIsoStatus i) t) :
    t.rb mstIsoStatus i = true :=
  (unit.rb _ (not_unitWrites (by decide) (by decide)) (by decide)).trans (s.rb_setB _ _ small)

/-- What is isolated shows it: in MST_ISO_STATUS, as a failed channel, or as a stopped engine. -/
theorem State.isolate_shows (src inst : Nat) : let u := s.isolate src inst
    (isoKind src = .slice → inst < 16 → u.rb mstIsoStatus inst = true) ∧
    (isoKind src = .chiplet → inst < 8 → u.rb mstIsoStatus (24 + inst) = true) ∧
    (isoKind src = .doorway → u.rb mstIsoStatus 16 = true) ∧
    (isoKind src = .channel → inst < 64 → u.rb (celStkChfail (inst / 16)) (inst % 16) = true) ∧
    (isoKind src = .engine → inst < 512 → u.rf (lftEngStatus inst) 31 30 = 1) := by
  refine ⟨fun kind small => ?_, fun kind small => ?_, fun kind => ?_, fun kind small => ?_, fun kind small => ?_⟩
  · rw [State.isolate_slice kind, if_pos small]
    exact s.rb_isoMarked (by omega) (State.sliceDiscard_unit _ (fun t n => (writesOnly.refl _ t).count _ _ _) inst)
  · rw [State.isolate_chiplet kind, if_pos small]
    exact s.rb_isoMarked (by omega) ((writesOnly.refl _ _).each fun t i _ => t.portLinkDown_writes _)
  · rw [State.isolate_doorway kind]
    exact s.rb_isoMarked (by decide) (State.dwyReset_writes _)
  · rw [State.isolate_channel kind]
    by_cases failed : s.rb (celStkChfail (inst / 16)) (inst % 16) = true
    · rw [if_neg (by simp [failed])]
      exact failed
    · rw [if_pos ⟨small, by simp [failed]⟩]
      exact (s.channelFail_flags _ _ (by omega)).1
  · rw [State.isolate_engine kind, if_pos small]
    exact s.engineStop_stopped small 4

end

end Sys2Proof.Machine

/-! PROOFS. A report taken: counted in its window, given its action, and logged (R507, R522). -/

namespace Sys2Proof.Machine

/-! ## The count of the escalation window and the action -/

section
variable (s : State) (src : Nat)

/-- The escalation window of now. -/
def State.escNow : Nat := s.ns / (max 1 (s.rf mstEscWindow 15 0) * 1000000)

/-- The counts of the window `w`, where it is still the last one. -/
def State.escOf (w : Nat) : Tbl Nat := if w = s.mast.escWindow then s.mast.esc else []

/-- The counts of the window written with one more of the source. -/
def State.escPut (w : Nat) : State :=
  { s with mast := { s.mast with esc := tput (s.escOf w) src (tget 0 (s.escOf w) src + 1), escWindow := w } }

theorem State.escCount_eq : s.escCount src = (s.escPut src s.escNow, tget 0 (s.escOf s.escNow) src + 1) := by
  rw [State.escCount, State.escPut, State.escNow, State.escOf]

theorem State.tget_escOf (w : Nat) : tget 0 (s.escOf w) src = if w = s.mast.escWindow then tget 0 s.mast.esc src else 0 := by
  rw [State.escOf]
  split
  · rfl
  · rfl

/-- The report counted in its window. -/
def State.escCounted : State := s.escPut src s.escNow

/-- How many of the source the escalation window holds, with this one. -/
def State.escNumber : Nat := (if s.escNow = s.mast.escWindow then tget 0 s.mast.esc src else 0) + 1

theorem State.escCount_counted : s.escCount src = (s.escCounted src, s.escNumber src) := by
  rw [State.escCount_eq, State.tget_escOf, State.escCounted, State.escNumber]

theorem State.escPut_stands (w : Nat) : (s.escPut src w).regs = s.regs ∧ (s.escPut src w).ns = s.ns ∧
    (s.escPut src w).cycles = s.cycles ∧ (s.escPut src w).mast.log = s.mast.log ∧
    (s.escPut src w).mast.firstHeld = s.mast.firstHeld ∧ (s.escPut src w).mast.waiting = s.mast.waiting ∧
    (s.escPut src w).mast.recov = s.mast.recov ∧ Keeps [.mast] s (s.escPut src w) :=
  ⟨rfl, rfl, rfl, rfl, rfl, rfl, rfl, Keeps.put_mast rfl (Keeps.refl _)⟩

/-- The source's limit has been reached and its escalated action is the higher. -/
def State.escalates (n : Nat) : Bool :=
  decide (s.rf (mstSrcCfg src) 15 0 ≠ 0 ∧ s.rf (mstSrcCfg src) 15 0 ≤ n ∧
    s.rf (mstSrcCfg src) 31 29 < s.rf (mstSrcCfg src) 28 26)

/-- The action that the source's configuration names. -/
def State.actionNamed (n : Nat) : Nat :=
  if s.escalates src n then s.rf (mstSrcCfg src) 28 26 else s.rf (mstSrcCfg src) 31 29

/-- The action of the report: what cannot be isolated makes the part safe (R508). -/
def State.actionOf (n : Nat) : Nat :=
  if s.actionNamed src n = 2 ∧ isoKind src = .none then 3 else s.actionNamed src n

theorem State.actionFor_eq (n : Nat) : s.actionFor src n = (s.actionOf src n, s.escalates src n) := by
  unfold State.actionFor State.actionOf State.actionNamed State.escalates
  dsimp only
  by_cases up : s.rf (mstSrcCfg src) 15 0 ≠ 0 ∧ s.rf (mstSrcCfg src) 15 0 ≤ n ∧
      s.rf (mstSrcCfg src) 31 29 < s.rf (mstSrcCfg src) 28 26
  · rw [if_pos up, decide_eq_true up]
    simp only [if_true]
    split <;> rfl
  · rw [if_neg up, decide_eq_false up]
    simp only [Bool.false_eq_true, if_false]
    split <;> rfl

theorem State.actionFor_congr {s t : State} (same : t.regs = s.regs) (src n : Nat) : t.actionFor src n = s.actionFor src n := by
  unfold State.actionFor
  simp only [State.rf_congr same]

end

/-! ## The log -/

section
variable (s : State) (r : Report) (act : Nat) (up : Bool)

/-- The words of a report's entry. -/
def State.reportWords : List Word :=
  [r.inst * 2 ^ 16 + nat up * 2 ^ 14 + act * 2 ^ 11 + srcClass r.src * 2 ^ 8 + r.src, r.info.toNat, s.ns % 2 ^ 32,
    s.ns / 2 ^ 32, r.merged, 0, 0, 0].map (BitVec.ofNat 32 ·)

/-- An entry put into the log. -/
def State.logPut (words : List Word) : State :=
  let n := s.rdN mstLogNext
  let overrun := s.mast.log.any fun (e : LogEntry) => e.n + 256 == n && !e.read
  let log : List LogEntry := (s.mast.log.filter fun (e : LogEntry) => e.n + 256 != n) ++ [⟨n, words, false⟩]
  let s1 := { s with mast := { s.mast with log := log } }
  (if overrun then s1.setB mstErr 1 else s1).wrN mstLogNext (n + 1)

/-- The first fatal entry held in MST_FIRST. -/
def State.firstPut (words : List Word) : State :=
  let s3 := s.each (upto 8) fun u i => u.wr (mstFirst i) (words.getD i 0)
  { s3 with mast := { s3.mast with firstHeld := true } }

theorem State.logReport_eq : s.logReport r act up =
    if srcClass r.src = 3 ∧ !(s.logPut (s.reportWords r act up)).mast.firstHeld
    then (s.logPut (s.reportWords r act up)).firstPut (s.reportWords r act up)
    else s.logPut (s.reportWords r act up) := by
  rw [State.logReport, State.logPut, State.reportWords, State.firstPut]

/-- What the log writes. -/
def logWrites (a : Nat) : Prop := a = mstErr ∨ a = mstLogNext ∨ ∃ j, a = mstFirst j ∧ j < 8

theorem State.logPut_writes (words : List Word) : writesOnly logWrites s (s.logPut words) := by
  have put (l : List LogEntry) : writesOnly logWrites s { s with mast := { s.mast with log := l } } :=
    (writesOnly.refl logWrites s).regs rfl
  unfold State.logPut
  dsimp only
  exact writesOnly.wrN (.ite ((put _).setB (a := mstErr) (.inl rfl) 1) (put _)) (a := mstLogNext) (.inr (.inl rfl)) _

theorem State.logPut_shows (words : List Word) : (∀ e, e ∈ (s.logPut words).mast.log ↔
      e = ⟨s.rdN mstLogNext, words, false⟩ ∨ (e ∈ s.mast.log ∧ e.n + 256 ≠ s.rdN mstLogNext)) ∧
    (s.logPut words).rdN mstLogNext = (s.rdN mstLogNext + 1) % 2 ^ 32 ∧
    (s.logPut words).mast.firstHeld = s.mast.firstHeld ∧ (s.logPut words).mast.waiting = s.mast.waiting ∧
    (s.logPut words).mast.recov = s.mast.recov ∧ (s.logPut words).mast.quietFrom = s.mast.quietFrom ∧
    ∀ j, (s.logPut words).rd (mstFirst j) = s.rd (mstFirst j) := by
  unfold State.logPut
  dsimp only
  generalize s.rdN mstLogNext = n
  have mast (l : List LogEntry) (c : Bool) : ((if c then ({ s with mast := { s.mast with log := l } } : State).setB mstErr 1
      else { s with mast := { s.mast with log := l } }).wrN mstLogNext (n + 1)).mast = { s.mast with log := l } := by
    cases c <;> rfl
  have first (l : List LogEntry) (c : Bool) (j : Nat) :
      ((if c then ({ s with mast := { s.mast with log := l } } : State).setB mstErr 1
      else { s with mast := { s.mast with log := l } }).wrN mstLogNext (n + 1)).rd (mstFirst j) = s.rd (mstFirst j) := by
    have apart : mstFirst j ≠ mstLogNext ∧ mstFirst j ≠ mstErr := by
      unfold mstFirst mstLogNext mstErr
      omega
    rw [State.rd_wrN_ne _ _ apart.1]
    cases c
    · rfl
    · exact State.rd_setB_ne _ _ apart.2
  rw [mast]
  refine ⟨fun e => ?_, ?_, rfl, rfl, rfl, rfl, first _ _⟩
  · simp only [List.mem_append, List.mem_filter, List.mem_singleton, bne_iff_ne]
    tauto
  · rw [State.rdN, State.rd_wrN]
    exact BitVec.toNat_ofNat _ _

theorem State.firstPut_writes (words : List Word) : writesOnly logWrites s (s.firstPut words) :=
  ((writesOnly.refl logWrites s).each fun t j mem => writesOnly.wr (.refl _ t) (.inr (.inr ⟨j, rfl, mem_upto.1 mem⟩)) _).regs
    rfl

theorem State.wr_mstFirst_all (words : List Word) {j : Nat} (hj : j < 8) :
    (s.each (upto 8) fun u i => u.wr (mstFirst i) (words.getD i 0)).rd (mstFirst j) = words.getD j 0 := by
  refine State.each_reaches (P := fun t => t.rd (mstFirst j) = words.getD j 0) (mem_upto.2 hj)
    (fun t => t.rd_wr_same _ _) fun t i _ holds => ?_
  by_cases same : j = i
  · rw [same]
    exact t.rd_wr_same _ _
  · rw [t.rd_wr_ne _ (by unfold mstFirst; omega)]
    exact holds

theorem State.firstPut_shows (words : List Word) : (s.firstPut words).mast = { s.mast with firstHeld := true } ∧
    (∀ j, j < 8 → (s.firstPut words).rd (mstFirst j) = words.getD j 0) ∧
    (s.firstPut words).rdN mstLogNext = s.rdN mstLogNext := by
  have mast : (s.each (upto 8) fun u i => u.wr (mstFirst i) (words.getD i 0)).mast = s.mast :=
    State.each_stands (g := State.mast) fun t i _ => rfl
  have next : (s.each (upto 8) fun u i => u.wr (mstFirst i) (words.getD i 0)).rdN mstLogNext = s.rdN mstLogNext :=
    State.each_stands (g := fun t => t.rdN mstLogNext) fun t i _ => by
      rw [State.rdN, t.rd_wr_ne _ (by unfold mstFirst mstLogNext; omega), State.rdN]
  refine ⟨?_, fun j hj => s.wr_mstFirst_all words hj, next⟩
  rw [State.firstPut]
  dsimp only
  rw [mast]

/-- An entry logged, the first of class fatal held, and what the log leaves. -/
theorem State.logReport_shows : let u := s.logReport r act up
    let words := s.reportWords r act up
    ((∀ e, e ∈ u.mast.log ↔ e = ⟨s.rdN mstLogNext, words, false⟩ ∨ (e ∈ s.mast.log ∧ e.n + 256 ≠ s.rdN mstLogNext)) ∧
      u.rdN mstLogNext = (s.rdN mstLogNext + 1) % 2 ^ 32) ∧
    ((srcClass r.src = 3 → s.mast.firstHeld = false → u.mast.firstHeld = true ∧
        ∀ j, j < 8 → u.rd (mstFirst j) = words.getD j 0) ∧
      (srcClass r.src ≠ 3 ∨ s.mast.firstHeld = true → ∀ j, j < 8 → u.rd (mstFirst j) = s.rd (mstFirst j))) ∧
    (u.mast.waiting = s.mast.waiting ∧ u.mast.recov = s.mast.recov ∧ u.mast.quietFrom = s.mast.quietFrom) ∧
    writesOnly logWrites s u := by
  intro u words
  obtain ⟨log, next, held, waiting, recov, quiet, first⟩ := s.logPut_shows words
  have writes := s.logPut_writes words
  have whole : u = _ := s.logReport_eq r act up
  clear_value u
  by_cases puts : srcClass r.src = 3 ∧ s.mast.firstHeld = false
  · rw [if_pos ⟨puts.1, by rw [held, puts.2]; rfl⟩] at whole
    obtain ⟨mast, entry, nextStands⟩ := (s.logPut words).firstPut_shows words
    rw [whole, mast]
    refine ⟨⟨log, nextStands.trans next⟩, ⟨fun _ _ => ⟨rfl, entry⟩, fun no => ?_⟩, ⟨waiting, recov, quiet⟩,
      writes.trans (State.firstPut_writes _ _)⟩
    rcases no with other | taken
    · exact absurd puts.1 other
    · exact absurd (puts.2.symm.trans taken) (by decide)
  · rw [if_neg fun h => puts ⟨h.1, by rw [← held]; simpa using h.2⟩] at whole
    rw [whole]
    exact ⟨⟨log, next⟩, ⟨fun fatal none => absurd ⟨fatal, none⟩ puts, fun _ j _ => first j⟩, ⟨waiting, recov, quiet⟩, writes⟩

end

end Sys2Proof.Machine

/-! PROOFS. REPORT_TAKE: the report logged and its action taken (R507, R508, R522). -/

namespace Sys2Proof.Machine

/-! ## The state in which a report's action acts -/

/-- The report is logged and nothing else of it has happened. -/
structure reportLogged (s t : State) (r : Report) (act : Nat) (up : Bool) : Prop where
  log : ∀ e, e ∈ t.mast.log ↔ e = ⟨s.rdN mstLogNext, s.reportWords r act up, false⟩ ∨
    (e ∈ s.mast.log ∧ e.n + 256 ≠ s.rdN mstLogNext)
  next : t.rdN mstLogNext = (s.rdN mstLogNext + 1) % 2 ^ 32
  first : srcClass r.src = 3 → s.mast.firstHeld = false → t.mast.firstHeld = true ∧
    ∀ j, j < 8 → t.rd (mstFirst j) = (s.reportWords r act up).getD j 0
  later : srcClass r.src ≠ 3 ∨ s.mast.firstHeld = true → ∀ j, j < 8 → t.rd (mstFirst j) = s.rd (mstFirst j)
  waiting : t.mast.waiting = s.mast.waiting
  recov : t.mast.recov = s.mast.recov
  writes : writesOnly logWrites s t
  frame : onlyIn [.regs, .mast] s t

section
variable {s t u : State} {r : Report} {act : Nat} {up : Bool}

theorem offWrap_mstFirst (j : Nat) (h : j < 8) : offWrap (mstFirst j) = true :=
  decide_eq_true (.inl (by unfold mstFirst cntWrap; omega))

/-- What only counts leaves the report logged. -/
theorem reportLogged.counted (h : reportLogged s t r act up) (e o i : Nat) : reportLogged s (t.count e o i) r act up where
  log e' := by
    rw [((tallied.refl t).count e o i).log]
    exact h.log e'
  next := by
    rw [State.rdN, State.rd_count _ _ _ _ (by decide)]
    exact h.next
  first fatal none := by
    obtain ⟨held, words⟩ := h.first fatal none
    exact ⟨((tallied.refl t).count e o i).firstHeld.trans held, fun j hj =>
      (State.rd_count _ _ _ _ (offWrap_mstFirst j hj)).trans (words j hj)⟩
  later other j hj := (State.rd_count _ _ _ _ (offWrap_mstFirst j hj)).trans (h.later other j hj)
  waiting := (t.waiting_count e o i).trans h.waiting
  recov := ((tallied.refl t).count e o i).recov.trans h.recov
  writes := h.writes.count e o i
  frame := h.frame.trans (((t.count_keeps e o i).mono rfl).same)

/-- So does the start of a new quiet period. -/
theorem reportLogged.quiet (h : reportLogged s t r act up) (c : Nat) :
    reportLogged s { t with mast := { t.mast with quietFrom := c } } r act up where
  log := h.log
  next := h.next
  first := h.first
  later := h.later
  waiting := h.waiting
  recov := h.recov
  writes := h.writes.regs rfl
  frame := h.frame.trans (Keeps.put_mast rfl (Keeps.refl (l := [.regs, .mast]) t)).same

theorem State.logReport_keeps' (s : State) (r : Report) (act : Nat) (up : Bool) :
    Keeps [.regs, .mast] s (s.logReport r act up) := (s.logReport_keeps r act up).mono rfl

/-- A report logged in its window's count. -/
theorem State.logReport_logged (s : State) (r : Report) (act : Nat) (up : Bool) :
    reportLogged s ((s.escCounted r.src).logReport r act up) r act up := by
  obtain ⟨regs, ns, -, log, held, waiting, recov, frame⟩ := s.escPut_stands r.src s.escNow
  rw [State.escCounted]
  generalize s.escPut r.src s.escNow = c at *
  obtain ⟨⟨entries, next⟩, ⟨first, later⟩, ⟨waits, recovs, -⟩, writes⟩ := c.logReport_shows r act up
  have words : c.reportWords r act up = s.reportWords r act up := by rw [State.reportWords, State.reportWords, ns]
  rw [words, State.rdN_congr regs, log] at entries
  rw [words, held] at first
  rw [held] at later
  exact {
    log := entries
    next := by rw [next, State.rdN_congr regs]
    first := first
    later := fun other j hj => (later other j hj).trans (State.rd_congr regs _)
    waiting := waits.trans waiting
    recov := recovs.trans recov
    writes := ((writesOnly.refl _ s).regs regs).trans writes
    frame := ((frame.mono rfl).trans (c.logReport_keeps' r act up)).same }

/-! ## Taking a report -/

/-- The report counted, logged and counted as a report; in safe state it starts the quiet period anew. -/
def State.reportReady (s : State) (r : Report) (act : Nat) (up : Bool) : State :=
  let s1 := ((s.escCounted r.src).logReport r act up).count evMstReport 0 r.src
  if s1.inSafe ∧ 1 ≤ srcClass r.src then { s1 with mast := { s1.mast with quietFrom := s1.cycles } } else s1

theorem State.takeReport_eq (s : State) (r : Report) : s.takeReport r =
    let n := s.escNumber r.src
    let act := s.actionOf r.src n
    (s.reportReady r act (s.escalates r.src n)).reportAction r act (act == 3 && s.actionNamed r.src n == 2) := by
  obtain ⟨regs, -⟩ := s.escPut_stands r.src s.escNow
  have named (n : Nat) : (if s.escalates r.src n then s.rf (mstSrcCfg r.src) 28 26 == 2 else s.rf (mstSrcCfg r.src) 31 29 == 2) =
      (s.actionNamed r.src n == 2) := by
    rw [State.actionNamed]
    split <;> rfl
  have action := (State.actionFor_congr (s := s) (t := s.escCounted r.src) regs r.src (s.escNumber r.src)).trans
    (s.actionFor_eq r.src _)
  rw [State.takeReport, State.escCount_counted]
  dsimp only
  rw [action]
  dsimp only
  rw [named, State.reportReady]

theorem State.inSafe_logged (h : reportLogged s t r act up) : t.inSafe = s.inSafe := by
  have out : ¬logWrites mstStatus := by
    rintro (here | here | ⟨j, here, hj⟩)
    · exact absurd here (by decide)
    · exact absurd here (by decide)
    · unfold mstStatus mstFirst at here
      omega
  rw [State.inSafe, State.inSafe, h.writes.rf _ _ out (by decide)]

theorem State.reportReady_logged (s : State) (r : Report) (act : Nat) (up : Bool) :
    reportLogged s (s.reportReady r act up) r act up ∧
      (s.inSafe = true → 1 ≤ srcClass r.src → (s.reportReady r act up).mast.quietFrom = s.cycles) := by
  have logged := (s.logReport_logged r act up).counted evMstReport 0 r.src
  have safe := State.inSafe_logged logged
  have cycles : (((s.escCounted r.src).logReport r act up).count evMstReport 0 r.src).cycles = s.cycles :=
    logged.frame .cycles (by decide)
  rw [State.reportReady]
  generalize ((s.escCounted r.src).logReport r act up).count evMstReport 0 r.src = c at *
  dsimp only
  split
  · exact ⟨logged.quiet _, fun _ _ => cycles⟩
  · next not => exact ⟨logged, fun h k => absurd ⟨safe.trans h, k⟩ not⟩

/-! ## The action -/

/-- What a report's action may write. -/
def actWrites (a : Nat) : Prop := a = mstNotify ∨ a = mstIsoStatus ∨ safeWrites a

theorem not_actWrites {a : Nat} (lo : 0x01000000 ≤ a) (hi : a < 0x03000000)
    (ne : a ≠ mstNotify ∧ a ≠ mstIsoStatus ∧ a ≠ mstStatus) : ¬actWrites a := by
  obtain ⟨notify, iso, status⟩ := ne
  rintro (here | here | here)
  · exact notify here
  · exact iso here
  · exact not_safeWrites lo hi status here

theorem State.notified_writes (t : State) (k : Nat) : writesOnly actWrites t (t.setB mstNotify k) :=
  (writesOnly.refl _ t).setB (a := mstNotify) (.inl rfl) k

/-- The class bit set and what the report names isolated. -/
def State.isolated (t : State) (r : Report) : State := ((t.setB mstNotify (srcClass r.src)).isolate r.src r.inst).pulse 1281

theorem State.isolated_writes (t : State) (r : Report) : writesOnly actWrites t (t.isolated r) := by
  have done := (t.notified_writes (srcClass r.src)).trans ((State.isolate_writes _ r.src r.inst).mono fun a h =>
    .inr (h.imp_right .inr))
  exact done.regs rfl

theorem State.isolated_tallied (t : State) (r : Report) : tallied t (t.isolated r) :=
  (((tallied.refl t).setB _ _).trans (State.isolate_tallied _ _ _)).same rfl

theorem State.reportAction_writes (t : State) (r : Report) (act : Nat) (fromIsolate : Bool) :
    writesOnly actWrites t (t.reportAction r act fromIsolate) := by
  match act with
  | 0 => exact .refl _ t
  | 1 => exact t.notified_writes _
  | 2 => exact t.isolated_writes r
  | 3 =>
    exact writesOnly.trans (.ite (t.notified_writes _) (.refl _ t))
      ((State.safeEnter_writes _ r.src).mono fun _ h => .inr (.inr h))
  | _ + 4 => exact .refl _ t

theorem State.reportAction_logStands (t : State) (r : Report) (act : Nat) (fromIsolate : Bool) :
    (t.reportAction r act fromIsolate).mast.log = t.mast.log ∧
      (t.reportAction r act fromIsolate).mast.firstHeld = t.mast.firstHeld := by
  match act with
  | 0 => exact ⟨rfl, rfl⟩
  | 1 => exact ⟨rfl, rfl⟩
  | 2 => exact ⟨(t.isolated_tallied r).log, (t.isolated_tallied r).firstHeld⟩
  | 3 =>
    have marked : (if fromIsolate then t.setB mstNotify (srcClass r.src) else t).mast = t.mast := by
      split
      · rfl
      · rfl
    obtain ⟨log, held⟩ := (if fromIsolate then t.setB mstNotify (srcClass r.src) else t).safeEnter_logStands r.src
    rw [marked] at log held
    exact ⟨log, held⟩
  | _ + 4 => exact ⟨rfl, rfl⟩

end

end Sys2Proof.Machine

/-! PROOFS. REPORT_TAKE, action by action (R507, R508, R513). -/

namespace Sys2Proof.Machine

/-- The reports that wait replaced. -/
def State.withWaiting (s : State) (l : List Report) : State := { s with mast := { s.mast with waiting := l } }

theorem exec_reportTake_none {s : State} (none : s.mast.waiting = []) : exec .reportTake s = .next s := by
  have whole : exec .reportTake s = execReportTake s := rfl
  rw [whole, execReportTake, none]

theorem exec_reportTake {s : State} {r : Report} {rest : List Report} (waits : s.mast.waiting = r :: rest) :
    exec .reportTake s = .next ((s.withWaiting rest).takeReport r) := by
  have whole : exec .reportTake s = execReportTake s := rfl
  rw [whole, execReportTake, waits]
  rfl

theorem srcClass_lt (src : Nat) : srcClass src < 4 := by
  unfold srcClass
  split
  · decide
  · split
    · decide
    · split <;> decide

theorem not_logWrites {a : Nat} (h : a ≠ mstErr ∧ a ≠ mstLogNext ∧ (a < mstFirst 0 ∨ mstFirst 7 < a)) : ¬logWrites a := by
  obtain ⟨err, next, first⟩ := h
  rintro (here | here | ⟨j, here, hj⟩)
  · exact err here
  · exact next here
  · unfold mstFirst at *
    omega

section
variable {s t : State} {r : Report} {act : Nat} {up : Bool} (logged : reportLogged s t r act up)
include logged

theorem reportLogged.recoveries : t.recoveries = s.recoveries := by
  have ns : t.ns = s.ns := by
    have time : t.time = s.time := logged.frame .time (by decide)
    rw [State.ns, State.ns, time]
  rw [State.recoveries, State.recoveries, logged.recov, ns, logged.writes.rf _ _ (not_logWrites (by decide)) (by decide)]

/-- What the log and the count left, a report's action leaves. -/
theorem reportLogged.acted (fi : Bool) : let u := t.reportAction r act fi
    (∀ e, e ∈ u.mast.log ↔ e = ⟨s.rdN mstLogNext, s.reportWords r act up, false⟩ ∨
      (e ∈ s.mast.log ∧ e.n + 256 ≠ s.rdN mstLogNext)) ∧
    u.rdN mstLogNext = (s.rdN mstLogNext + 1) % 2 ^ 32 ∧
    (srcClass r.src = 3 → s.mast.firstHeld = false → u.mast.firstHeld = true ∧
      ∀ j, j < 8 → u.rd (mstFirst j) = (s.reportWords r act up).getD j 0) ∧
    (srcClass r.src ≠ 3 ∨ s.mast.firstHeld = true → ∀ j, j < 8 → u.rd (mstFirst j) = s.rd (mstFirst j)) := by
  obtain ⟨log, held⟩ := t.reportAction_logStands r act fi
  have writes := t.reportAction_writes r act fi
  have first (j : Nat) (hj : j < 8) : (t.reportAction r act fi).rd (mstFirst j) = t.rd (mstFirst j) :=
    writes _ (offWrap_mstFirst j hj) (not_actWrites (by unfold mstFirst; omega) (by unfold mstFirst; omega)
      (by unfold mstFirst mstNotify mstIsoStatus mstStatus; omega))
  refine ⟨fun e => ?_, ?_, fun fatal none => ?_, fun other j hj => (first j hj).trans (logged.later other j hj)⟩
  · rw [log]
    exact logged.log e
  · exact (writes.rdN (not_actWrites (by decide) (by decide) (by decide)) (by decide)).trans logged.next
  · obtain ⟨holds, words⟩ := logged.first fatal none
    exact ⟨held.trans holds, fun j hj => (first j hj).trans (words j hj)⟩

theorem reportLogged.acted_none (fi : Bool) : let u := t.reportAction r 0 fi
    u.mast.waiting = s.mast.waiting ∧ u.rd mstNotify = s.rd mstNotify ∧ onlyIn [.regs, .mast] s u :=
  ⟨logged.waiting, logged.writes _ (by decide) (not_logWrites (by decide)), logged.frame⟩

theorem reportLogged.acted_notify (fi : Bool) : let u := t.reportAction r 1 fi
    u.mast.waiting = s.mast.waiting ∧ u.rb mstNotify (srcClass r.src) = true ∧ onlyIn [.regs, .mast] s u :=
  ⟨logged.waiting, t.rb_setB _ _ (Nat.lt_trans (srcClass_lt _) (by decide)),
    logged.frame.trans ((t.setB_keeps _ _).mono rfl).same⟩

omit logged in
theorem State.isolated_shows (t : State) (r : Report) : let u := t.isolated r
    u.rb mstNotify (srcClass r.src) = true ∧ shas u.bell.pulses 1281 = true ∧
      (isoKind r.src = .slice → r.inst < 16 → u.rb mstIsoStatus r.inst = true) ∧
      (isoKind r.src = .chiplet → r.inst < 8 → u.rb mstIsoStatus (24 + r.inst) = true) ∧
      (isoKind r.src = .doorway → u.rb mstIsoStatus 16 = true) ∧
      (isoKind r.src = .channel → r.inst < 64 → u.rb (celStkChfail (r.inst / 16)) (r.inst % 16) = true) ∧
      (isoKind r.src = .engine → r.inst < 512 → u.rf (lftEngStatus r.inst) 31 30 = 1) := by
  have marked : (t.setB mstNotify (srcClass r.src)).rb mstNotify (srcClass r.src) = true :=
    t.rb_setB _ _ (Nat.lt_trans (srcClass_lt _) (by decide))
  have shows := State.isolate_shows (t.setB mstNotify (srcClass r.src)) r.src r.inst
  have notify := (State.isolate_writes (t.setB mstNotify (srcClass r.src)) r.src r.inst).rb (srcClass r.src) (a := mstNotify)
    (not_isoWrites (by decide) (by decide) (by decide)) (by decide)
  exact ⟨notify.trans marked, shas_sadd_same _ _, shows⟩

/-- The state in which a report makes the part safe. -/
def State.safeMarkedBy (t : State) (k : Nat) (fi : Bool) : State := if fi then t.setB mstNotify k else t

omit logged in
theorem State.safeMarkedBy_stands (t : State) (k : Nat) (fi : Bool) : (t.safeMarkedBy k fi).rd mstStatus = t.rd mstStatus ∧
    (t.safeMarkedBy k fi).recoveries = t.recoveries ∧ (t.safeMarkedBy k fi).mast = t.mast := by
  cases fi
  · exact ⟨rfl, rfl, rfl⟩
  · have cfg : (t.setB mstNotify k).rf mstRecovCfg 15 0 = t.rf mstRecovCfg 15 0 := by
      rw [State.rf, t.rd_setB_ne _ (by decide), State.rf]
    have same (c : Nat) (h : (t.setB mstNotify k).rf mstRecovCfg 15 0 = c) : (t.setB mstNotify k).recoveries =
        (t.mast.recov.filter fun x => decide (t.ns ≤ x + c * 1000000000)).length := by
      rw [State.recoveries, h]
      rfl
    refine ⟨t.rd_setB_ne _ (by decide), ?_, rfl⟩
    exact (same _ cfg).trans (by rw [State.recoveries])

theorem reportLogged.acted_safe (fi : Bool) : let u := t.reportAction r 3 fi
    (fi = true → u.rb mstNotify (srcClass r.src) = true) ∧
    (r.src < 256 → s.inSafe = false → u.rf mstStatus 31 30 = (if 8 ≤ s.recoveries then 2 else 1) ∧
      u.rf mstStatus 7 0 = r.src ∧ u.mast.alivePin = false) ∧
    (s.inSafe = true → u.rd mstStatus = s.rd mstStatus) := by
  have whole : t.reportAction r 3 fi = (t.safeMarkedBy (srcClass r.src) fi).safeEnter r.src := rfl
  obtain ⟨status, recoveries, -⟩ := t.safeMarkedBy_stands (srcClass r.src) fi
  have safe : (t.safeMarkedBy (srcClass r.src) fi).inSafe = s.inSafe := by
    rw [State.inSafe, State.rf, status, ← State.rf, ← State.inSafe, State.inSafe_logged logged]
  rw [whole]
  refine ⟨fun yes => ?_, fun small normal => ?_, fun held => ?_⟩
  · have marked : (t.safeMarkedBy (srcClass r.src) fi).rb mstNotify (srcClass r.src) = true := by
      rw [yes]
      exact t.rb_setB _ _ (Nat.lt_trans (srcClass_lt _) (by decide))
    exact ((State.safeEnter_writes _ r.src).rb _ (not_safeWrites (by decide) (by decide) (by decide)) (by decide)).trans marked
  · obtain ⟨state, source⟩ := State.safeEnter_enters (safe.trans normal) small
    obtain ⟨⟨-, pin, -⟩, -⟩ := State.safeEnter_stops (safe.trans normal) r.src
    rw [recoveries, logged.recoveries] at state
    exact ⟨state, source, pin⟩
  · rw [State.safeEnter_of_safe (safe.trans held)]
    exact status.trans (logged.writes _ (by decide) (not_logWrites (by decide)))

/-- In safe state no action moves the start of the quiet period. -/
theorem reportLogged.acted_quiet (fi : Bool) (safe : s.inSafe = true) :
    (t.reportAction r act fi).mast.quietFrom = t.mast.quietFrom := by
  match act with
  | 0 => rfl
  | 1 => rfl
  | 2 => exact (t.isolated_tallied r).quietFrom
  | 3 =>
    have whole : t.reportAction r 3 fi = (t.safeMarkedBy (srcClass r.src) fi).safeEnter r.src := rfl
    obtain ⟨status, -, mast⟩ := t.safeMarkedBy_stands (srcClass r.src) fi
    have still : (t.safeMarkedBy (srcClass r.src) fi).inSafe = true := by
      rw [State.inSafe, State.rf, status, ← State.rf, ← State.inSafe, State.inSafe_logged logged, safe]
    rw [whole, State.safeEnter_of_safe still, mast]
  | _ + 4 => rfl

end

/-- What is read of a state does not hang on the reports that wait. -/
theorem State.withWaiting_reads (s : State) (l : List Report) (r : Report) (act : Nat) (up : Bool) (n src : Nat) :
    (s.withWaiting l).escNumber src = s.escNumber src ∧ (s.withWaiting l).actionOf src n = s.actionOf src n ∧
      (s.withWaiting l).escalates src n = s.escalates src n ∧ (s.withWaiting l).actionNamed src n = s.actionNamed src n ∧
      (s.withWaiting l).reportWords r act up = s.reportWords r act up := by
  have read (a hi lo : Nat) : (s.withWaiting l).rf a hi lo = s.rf a hi lo := rfl
  have now : (s.withWaiting l).ns = s.ns := rfl
  have window : (s.withWaiting l).mast.escWindow = s.mast.escWindow ∧ (s.withWaiting l).mast.esc = s.mast.esc := ⟨rfl, rfl⟩
  have esc : (s.withWaiting l).escNow = s.escNow := by
    simp only [State.escNow, read, now]
  have up_ : (s.withWaiting l).escalates src n = s.escalates src n := by
    simp only [State.escalates, read]
  have named : (s.withWaiting l).actionNamed src n = s.actionNamed src n := by
    simp only [State.actionNamed, read, up_]
  refine ⟨?_, ?_, up_, named, ?_⟩
  · rw [State.escNumber, State.escNumber, esc, window.1, window.2]
  · simp only [State.actionOf, named]
  · simp only [State.reportWords, now]

theorem reportTake_takes (r : Report) (rest : List Report) (s : State) (waits : s.mast.waiting = r :: rest) {n named act : Nat}
    {up : Bool} (number : s.escNumber r.src = n) (ups : s.escalates r.src n = up) (names : s.actionNamed r.src n = named)
    (acts : s.actionOf r.src n = act) : ∃ u, exec .reportTake s = .next u ∧
      (∀ e, e ∈ u.mast.log ↔ e = ⟨s.rdN mstLogNext, s.reportWords r act up, false⟩ ∨
        (e ∈ s.mast.log ∧ e.n + 256 ≠ s.rdN mstLogNext)) ∧
      u.rdN mstLogNext = (s.rdN mstLogNext + 1) % 2 ^ 32 ∧
      (srcClass r.src = 3 → s.mast.firstHeld = false → u.mast.firstHeld = true ∧
        ∀ j, j < 8 → u.rd (mstFirst j) = (s.reportWords r act up).getD j 0) ∧
      (srcClass r.src ≠ 3 ∨ s.mast.firstHeld = true → ∀ j, j < 8 → u.rd (mstFirst j) = s.rd (mstFirst j)) ∧
      (act = 0 → u.mast.waiting = rest ∧ u.rd mstNotify = s.rd mstNotify ∧ onlyIn [.regs, .mast] s u) ∧
      (act = 1 → u.mast.waiting = rest ∧ u.rb mstNotify (srcClass r.src) = true ∧ onlyIn [.regs, .mast] s u) ∧
      (act = 2 → u.rb mstNotify (srcClass r.src) = true ∧ shas u.bell.pulses 1281 = true ∧
        (isoKind r.src = .slice → r.inst < 16 → u.rb mstIsoStatus r.inst = true) ∧
        (isoKind r.src = .chiplet → r.inst < 8 → u.rb mstIsoStatus (24 + r.inst) = true) ∧
        (isoKind r.src = .doorway → u.rb mstIsoStatus 16 = true) ∧
        (isoKind r.src = .channel → r.inst < 64 → u.rb (celStkChfail (r.inst / 16)) (r.inst % 16) = true) ∧
        (isoKind r.src = .engine → r.inst < 512 → u.rf (lftEngStatus r.inst) 31 30 = 1)) ∧
      (act = 3 → r.src < 256 → (named = 2 → u.rb mstNotify (srcClass r.src) = true) ∧
        (s.inSafe = false → u.rf mstStatus 31 30 = (if 8 ≤ s.recoveries then 2 else 1) ∧ u.rf mstStatus 7 0 = r.src ∧
          u.mast.alivePin = false) ∧
        (s.inSafe = true → u.rd mstStatus = s.rd mstStatus)) ∧
      (s.inSafe = true → 1 ≤ srcClass r.src → u.mast.quietFrom = s.cycles) := by
  obtain ⟨number', -, -, -, words⟩ := s.withWaiting_reads rest r act up n r.src
  obtain ⟨-, acts', ups', names', -⟩ := s.withWaiting_reads rest r act up n r.src
  rw [number] at number'
  rw [acts] at acts'
  rw [ups] at ups'
  rw [names] at names'
  have out := exec_reportTake waits
  rw [State.takeReport_eq] at out
  dsimp only at out
  rw [number', acts', ups', names'] at out
  have put : onlyIn [.regs, .mast] s (s.withWaiting rest) := (Keeps.put_mast rfl (Keeps.refl (l := [.regs, .mast]) s)).same
  obtain ⟨logged, quiet⟩ := (s.withWaiting rest).reportReady_logged r act up
  generalize (s.withWaiting rest).reportReady r act up = t at *
  generalize hfi : (act == 3 && named == 2) = fi at out
  obtain ⟨log, next, first, later⟩ := logged.acted fi
  rw [words] at log first
  refine ⟨_, out, log, next, first, later, ?_, ?_, ?_, ?_, fun safe k => (logged.acted_quiet fi safe).trans (quiet safe k)⟩
  · rintro rfl
    obtain ⟨waiting, notify, frame⟩ := logged.acted_none fi
    exact ⟨waiting, notify, put.trans frame⟩
  · rintro rfl
    obtain ⟨waiting, notify, frame⟩ := logged.acted_notify fi
    exact ⟨waiting, notify, put.trans frame⟩
  · rintro rfl
    exact t.isolated_shows r
  · rintro rfl small
    obtain ⟨notify, enters, stays⟩ := logged.acted_safe fi
    refine ⟨fun isolate => notify ?_, enters small, stays⟩
    rw [← hfi, isolate]
    rfl

end Sys2Proof.Machine

/-! PROOFS. The log read, monitors, the self-check, FAULT_ALIVE, isolations released and injection (R508, R511, R517 to R522). -/

namespace Sys2Proof.Machine

section
variable (s : State)

/-! ## LOG_SELECT -/

/-- The words of an entry copied to MST_LOG_DATA. -/
def State.logCopied (words : List Word) : State := s.each (upto 8) fun t i => t.wr (mstLogData i) (words.getD i 0)

theorem State.logCopied_data (words : List Word) {j : Nat} (hj : j < 8) :
    (s.logCopied words).rd (mstLogData j) = words.getD j 0 := by
  refine State.each_reaches (P := fun t => t.rd (mstLogData j) = words.getD j 0) (mem_upto.2 hj)
    (fun t => t.rd_wr_same _ _) fun t i _ holds => ?_
  by_cases same : j = i
  · rw [same]
    exact t.rd_wr_same _ _
  · rw [t.rd_wr_ne _ (by unfold mstLogData; omega)]
    exact holds

/-- MST_LOG_SEL shows VALID and the entry's number; the entry has been read. -/
def State.logSelected (n : Nat) (e : LogEntry) : State :=
  let s1 := s.logCopied e.words
  { s1.wrN mstLogSel (2 ^ 31 + n) with mast := { s1.mast with
    log := s1.mast.log.map fun (x : LogEntry) => if x.n = n then { x with read := true } else x } }

theorem State.logSelect_none {v : Word} (absent : s.mast.log.find? (fun e => e.n == fld v 30 0) = none) :
    s.logSelect v = s.wrN mstLogSel (fld v 30 0) := by
  rw [State.logSelect]
  dsimp only
  rw [absent]

theorem State.logSelect_some {v : Word} {e : LogEntry} (held : s.mast.log.find? (fun e => e.n == fld v 30 0) = some e) :
    s.logSelect v = s.logSelected (fld v 30 0) e := by
  rw [State.logSelect, State.logSelected, State.logCopied]
  dsimp only
  rw [held]

theorem State.rd_logSelected (n : Nat) (e : LogEntry) (a : Nat) :
    (s.logSelected n e).rd a = ((s.logCopied e.words).wrN mstLogSel (2 ^ 31 + n)).rd a := rfl

theorem State.selWord {t : State} {n a : Nat} (small : n < 2 ^ 31) {top : Bool}
    (word : t.rd a = BitVec.ofNat 32 (nat top * 2 ^ 31 + n)) : t.rb a 31 = top ∧ t.rf a 30 0 = n := by
  have toNat : t.rdN a = nat top * 2 ^ 31 + n := by
    rw [State.rdN, word, BitVec.toNat_ofNat]
    have bit : nat top ≤ 1 := by cases top <;> decide
    exact Nat.mod_eq_of_lt (by omega)
  refine ⟨(State.rb_of_rdN toNat 31).trans ?_, (State.rf_of_rdN toNat 30 0).trans ?_⟩
  · cases top
    · exact Nat.testBit_lt_two_pow (by simpa [nat] using small)
    · simp only [nat, if_true, Nat.one_mul]
      rw [Nat.testBit_two_pow_add_eq, Nat.testBit_lt_two_pow small]
      rfl
  · unfold bits
    omega

theorem logSelect_rules (v : Word) (s : State) :
    (∀ e, s.mast.log.find? (fun e => e.n == fld v 30 0) = some e → ∃ u, exec (.logSelect v) s = .next u ∧
      u.rb mstLogSel 31 = true ∧ u.rf mstLogSel 30 0 = fld v 30 0 ∧
      (∀ j, j < 8 → u.rd (mstLogData j) = e.words.getD j 0) ∧ onlyIn [.regs, .mast] s u) ∧
    (s.mast.log.find? (fun e => e.n == fld v 30 0) = none → ∃ u, exec (.logSelect v) s = .next u ∧
      u.rb mstLogSel 31 = false ∧ u.rf mstLogSel 30 0 = fld v 30 0 ∧ onlyIn [.regs] s u) := by
  have whole : exec (.logSelect v) s = .next (s.logSelect v) := rfl
  have small : fld v 30 0 < 2 ^ 31 := bits_lt _ _ _
  have kept := (s.logSelect_keeps v).same
  rw [whole]
  refine ⟨fun e held => ⟨_, rfl, ?_⟩, fun absent => ⟨_, rfl, ?_⟩⟩
  · rw [State.logSelect_some s held] at kept ⊢
    have sel : (s.logSelected (fld v 30 0) e).rd mstLogSel = BitVec.ofNat 32 (nat true * 2 ^ 31 + fld v 30 0) := by
      rw [State.rd_logSelected, State.rd_wrN]
      rfl
    obtain ⟨valid, number⟩ := State.selWord small sel
    refine ⟨valid, number, fun j hj => ?_, kept⟩
    rw [State.rd_logSelected, State.rd_wrN_ne _ _ (by unfold mstLogData mstLogSel; omega)]
    exact s.logCopied_data _ hj
  · rw [State.logSelect_none s absent]
    have sel : (s.wrN mstLogSel (fld v 30 0)).rd mstLogSel = BitVec.ofNat 32 (nat false * 2 ^ 31 + fld v 30 0) := by
      rw [State.rd_wrN]
      simp only [nat, Bool.false_eq_true, if_false, Nat.zero_mul, Nat.zero_add]
    obtain ⟨valid, number⟩ := State.selWord small sel
    exact ⟨valid, number, (s.wrN_keeps _ _).same⟩

/-! ## Monitors -/

/-- The number of the conditions that a predicate names. -/
def monSum (p : Nat → Bool) : Nat := (((upto 5).filter p).map (2 ^ ·)).sum

theorem testBit_monSum (p : Nat → Bool) {b : Nat} (hb : b < 5) : (monSum p % 2 ^ 32).testBit b = p b := by
  have terms : monSum p = nat (p 0) + 2 * nat (p 1) + 4 * nat (p 2) + 8 * nat (p 3) + 16 * nat (p 4) := by
    rw [monSum, show upto 5 = [0, 1, 2, 3, 4] from rfl]
    cases h0 : p 0 <;> cases h1 : p 1 <;> cases h2 : p 2 <;> cases h3 : p 3 <;> cases h4 : p 4 <;>
      simp [List.filter, h0, h1, h2, h3, h4, nat]
  have table : ∀ p0 p1 p2 p3 p4 : Bool, ∀ b < 5, ((nat p0 + 2 * nat p1 + 4 * nat p2 + 8 * nat p3 + 16 * nat p4) %
      2 ^ 32).testBit b = [p0, p1, p2, p3, p4].getD b false := by decide
  rw [terms, table _ _ _ _ _ b hb]
  obtain rfl | rfl | rfl | rfl | rfl : b = 0 ∨ b = 1 ∨ b = 2 ∨ b = 3 ∨ b = 4 := by omega
  · rfl
  · rfl
  · rfl
  · rfl
  · rfl

/-- MST_MON shows each condition that stands. -/
def monsShown (t : State) : Prop := ∀ b, b < 5 → t.rb mstMon b = t.mast.mons.any fun m => monBit m.1 == some b

theorem State.monShow_eq : s.monShow = s.wrN mstMon (monSum fun b => s.mast.mons.any fun m => monBit m.1 == some b) := rfl

theorem State.monShow_shows : monsShown s.monShow := by
  intro b hb
  have word : s.monShow.rdN mstMon = monSum (fun b => s.mast.mons.any fun m => monBit m.1 == some b) % 2 ^ 32 := by
    rw [State.monShow_eq, State.rdN, State.rd_wrN]
    exact BitVec.toNat_ofNat _ _
  rw [State.rb_of_rdN word, testBit_monSum _ hb]
  rfl

/-- The conditions that stand replaced. -/
def State.withMons (l : List (Nat × Nat)) : State := { s with mast := { s.mast with mons := l } }

theorem exec_monitorDetect_none {src inst : Nat} (no : src < 2 ∨ 8 < src ∨ 65536 ≤ inst ∨ (src, inst) ∈ s.mast.mons)
    (info : Word) : exec (.monitorDetect src inst info) s = .next s := by
  have whole : exec (.monitorDetect src inst info) s = execMonitorDetect src inst info s := rfl
  rw [whole, execMonitorDetect]
  refine if_pos ?_
  simpa using no

theorem exec_monitorDetect {src inst : Nat} (lo : 2 ≤ src) (hi : src ≤ 8) (small : inst < 65536)
    (new : ¬(src, inst) ∈ s.mast.mons) (info : Word) : exec (.monitorDetect src inst info) s =
      .next ((s.withMons ((src, inst) :: s.mast.mons)).monShow.report src inst info) := by
  have whole : exec (.monitorDetect src inst info) s = execMonitorDetect src inst info s := rfl
  rw [whole, execMonitorDetect]
  refine if_neg ?_
  have none : s.mast.mons.any (· == (src, inst)) = false := by
    rw [List.any_eq_false]
    rintro m hm same
    exact new (beq_iff_eq.1 same ▸ hm)
  rw [none]
  simp only [Bool.false_eq_true, or_false, not_or]
  omega

theorem tallied.mons {s t : State} (h : tallied s t) : t.mast.mons = s.mast.mons := by
  have same := congrArg Mast.mons h.rest
  exact same

theorem monsShown.report {t : State} (h : monsShown t) (src inst : Nat) (info : Word) : monsShown (t.report src inst info) := by
  intro b hb
  rw [State.rb, State.rd_report _ _ _ _ (by decide), ((tallied.refl t).report src inst info).mons]
  exact h b hb

theorem monitorDetect_rules {src inst : Nat} (lo : 2 ≤ src) (hi : src ≤ 8) (small : inst < 65536)
    (new : ¬(src, inst) ∈ s.mast.mons) (info : Word) : ∃ u, exec (.monitorDetect src inst info) s = .next u ∧
      u.mast.mons = (src, inst) :: s.mast.mons ∧ monsShown u ∧
      (s.untold src inst → ⟨src, inst, info, 0⟩ ∈ u.mast.waiting) ∧ onlyIn [.regs, .mast] s u := by
  have out := exec_monitorDetect s lo hi small new info
  have mons := (tallied.refl (s.withMons ((src, inst) :: s.mast.mons)).monShow).report src inst info |>.mons
  refine ⟨_, out, mons, (State.monShow_shows _).report src inst info, fun untold => ?_, ?_⟩
  · exact State.report_waits (s := (s.withMons ((src, inst) :: s.mast.mons)).monShow) untold info
  · exact onlyIn_of_next (execMonitorDetect_keeps s src inst info) out

/-- The condition cleared and MST_MON shown again. -/
def State.monCleared (src inst : Nat) : State := (s.withMons (s.mast.mons.filter (· != (src, inst)))).monShow

theorem exec_monitorClear (src inst : Nat) : exec (.monitorClear src inst) s =
    .next (if s.rd mstMon ≠ 0 ∧ (s.monCleared src inst).rd mstMon = 0 ∧ (s.monCleared src inst).inSafe = true then
      { s.monCleared src inst with mast := { (s.monCleared src inst).mast with quietFrom := (s.monCleared src inst).cycles } }
      else s.monCleared src inst) := by
  have whole : exec (.monitorClear src inst) s = execMonitorClear src inst s := rfl
  rw [whole, execMonitorClear, ← State.withMons, ← State.monCleared]
  dsimp only
  refine congrArg _ (if_congr ?_ rfl rfl)
  simp only [bne_iff_ne, ne_eq]

theorem State.monCleared_stands (src inst : Nat) : (s.monCleared src inst).inSafe = s.inSafe ∧
    (s.monCleared src inst).cycles = s.cycles ∧
    (s.monCleared src inst).mast.mons = s.mast.mons.filter (· != (src, inst)) ∧
    (s.monCleared src inst).mast.waiting = s.mast.waiting ∧
    (s.monCleared src inst).mast.quietFrom = s.mast.quietFrom := by
  have status : (s.monCleared src inst).rd mstStatus = s.rd mstStatus := State.rd_wrN_ne _ _ (by decide)
  refine ⟨?_, rfl, rfl, rfl, rfl⟩
  rw [State.inSafe, State.rf, status, ← State.rf, State.inSafe]

theorem monitorClear_rules (src inst : Nat) : ∃ u, exec (.monitorClear src inst) s = .next u ∧
    u.mast.mons = s.mast.mons.filter (· != (src, inst)) ∧ monsShown u ∧ u.mast.waiting = s.mast.waiting ∧
    onlyIn [.regs, .mast] s u ∧
    u.mast.quietFrom = if s.rd mstMon ≠ 0 ∧ u.rd mstMon = 0 ∧ s.inSafe = true then s.cycles else s.mast.quietFrom := by
  have out := exec_monitorClear s src inst
  have frame := onlyIn_of_next (execMonitorClear_keeps s src inst) out
  have shows : monsShown (s.monCleared src inst) := State.monShow_shows _
  obtain ⟨safe, cycles, mons, waiting, quietFrom⟩ := s.monCleared_stands src inst
  rw [safe, cycles] at out frame
  generalize s.monCleared src inst = t at *
  by_cases quiet : s.rd mstMon ≠ 0 ∧ t.rd mstMon = 0 ∧ s.inSafe = true
  · rw [if_pos quiet] at out frame
    exact ⟨_, out, mons, shows, waiting, frame, (if_pos quiet).symm⟩
  · rw [if_neg quiet] at out frame
    exact ⟨_, out, mons, shows, waiting, frame,
      quietFrom.trans (if_neg quiet).symm⟩

/-! ## SELF_CHECK and FAULT_ALIVE -/

/-- A failed check noted and reported. -/
def State.checkReported : State :=
  ({ (s.free 32).2 with mast := { (s.free 32).2.mast with checkerFired := true } } : State).report 0 0
    (BitVec.ofNat 32 (s.free 32).1)

theorem exec_selfCheck_good : exec (.selfCheck false false) s = .next s := rfl

theorem exec_selfCheck_failed {p h : Bool} (bad : p = true ∨ h = true) : exec (.selfCheck p h) s =
    .next (if s.checkReported.inSafe then (s.checkReported.wf mstStatus 31 30 2).aliveLow
      else (s.checkReported.safeMarked 2 0).safeStops) := by
  have whole : exec (.selfCheck p h) s = execSelfCheck p h s := rfl
  have fails : ¬((!p) = true ∧ (!h) = true) := by
    rcases bad with rfl | rfl
    · exact fun k => absurd k.1 (by decide)
    · exact fun k => absurd k.2 (by decide)
  rw [whole, execSelfCheck, if_neg fails, State.checkReported, State.safeMarked]

theorem State.checkReported_stands : s.checkReported.rd mstStatus = s.rd mstStatus ∧
    s.checkReported.mast.checkerFired = true := by
  have fired : ({ (s.free 32).2 with mast := { (s.free 32).2.mast with checkerFired := true } } : State).mast.checkerFired =
    true := rfl
  exact ⟨State.rd_report _ _ _ _ (by decide), ((tallied.refl _).report _ _ _).checkerFired.trans fired⟩

theorem selfCheck_rules (p h : Bool) (s : State) : (p = false → h = false → exec (.selfCheck p h) s = .next s) ∧
    (p = true ∨ h = true → ∃ u, exec (.selfCheck p h) s = .next u ∧ u.rf mstStatus 31 30 = 2 ∧
      u.rb mstStatus 28 = false ∧ u.mast.alivePin = false ∧ u.mast.checkerFired = true ∧
      u.rf mstStatus 7 0 = if s.inSafe then s.rf mstStatus 7 0 else 0) := by
  refine ⟨?_, fun bad => ⟨_, exec_selfCheck_failed s bad, ?_⟩⟩
  · rintro rfl rfl
    exact exec_selfCheck_good s
  · obtain ⟨status, fired⟩ := s.checkReported_stands
    have safe : s.checkReported.inSafe = s.inSafe := by
      rw [State.inSafe, State.rf, status, ← State.rf, State.inSafe]
    have source : s.checkReported.rf mstStatus 7 0 = s.rf mstStatus 7 0 := by rw [State.rf, status, State.rf]
    rw [safe]
    generalize s.checkReported = t at *
    by_cases held : s.inSafe = true
    · rw [if_pos held, if_pos held]
      refine ⟨?_, State.rb_aliveLow _, rfl, fired, ?_⟩
      · rw [State.rf_aliveLow _ (by decide) (.inr (by decide))]
        exact t.rf_wf_fits _ (by decide) (by decide) (by decide)
      · rw [State.rf_aliveLow _ (by decide) (.inl (by decide)), t.rf_wf_ne _ _ _ _ _ _ (by decide) (by decide) (by decide)
          (by decide)]
        exact source
    · rw [if_neg held, if_neg held]
      obtain ⟨⟨low, pin, -⟩, -⟩ := (t.safeMarked 2 0).safeStops_shows
      obtain ⟨-, -, still⟩ := (t.safeMarked 2 0).mast_safeStops_stands
      refine ⟨?_, low, pin, still.trans ((t.safeMarked_tallied 2 0).checkerFired.trans fired), ?_⟩
      · rw [State.rf_mstStatus_safeStops _ (by decide) (.inr (by decide))]
        exact t.rf_safeMarked_state 2 0 (by decide)
      · rw [State.rf_mstStatus_safeStops _ (by decide) (.inl (by decide))]
        exact t.rf_safeMarked_source 2 0 (by decide)

/-- FAULT_ALIVE as given. -/
def State.withPin (b : Bool) : State := { s with mast := { s.mast with alivePin := b } }

theorem exec_aliveToggle : exec .aliveToggle s =
    .next (s.withPin (s.rb mstStatus 28 && !s.inSafe && !s.mast.checkerFired && !s.mast.alivePin)) := rfl

theorem aliveToggle_rules (s : State) : ∃ u, exec .aliveToggle s = .next u ∧ onlyIn [.mast] s u ∧
    u.mast = { s.mast with alivePin := u.mast.alivePin } ∧
    (s.rb mstStatus 28 = true → s.inSafe = false → s.mast.checkerFired = false → u.mast.alivePin = !s.mast.alivePin) ∧
    (s.rb mstStatus 28 = false ∨ s.inSafe = true ∨ s.mast.checkerFired = true → u.mast.alivePin = false) := by
  have pin (b : Bool) : (s.withPin b).mast.alivePin = b := rfl
  refine ⟨_, exec_aliveToggle s, (Keeps.put_mast rfl (Keeps.refl _)).same, rfl, fun on normal good => ?_, fun held => ?_⟩
  · rw [pin, on, normal, good]
    cases s.mast.alivePin
    · rfl
    · rfl
  · rw [pin]
    rcases held with h | h | h
    · rw [h]
      rfl
    · rw [h, Bool.not_true, Bool.and_false]
      rfl
    · rw [h, Bool.not_true, Bool.and_false]
      rfl

/-! ## ISOLATION_RELEASE -/

theorem State.slicesRestart_isoStatus (l : List Nat) : (s.each l State.sliceRestart).rd mstIsoStatus = s.rd mstIsoStatus :=
  ((writesOnly.refl unitWrites s).each fun t sl _ => t.sliceRestart_unit sl) _ (by decide)
    (not_unitWrites (by decide) (by decide))

theorem isolationRelease_rules (v : Word) (s : State) : ∃ u, exec (.isolationRelease v) s = .next u ∧
    u.rd mstIsoStatus = s.rd mstIsoStatus &&& ~~~v ∧
    (fld (s.rd mstIsoStatus &&& v) 15 0 = 0 → (∀ a, a ≠ mstIsoStatus → u.rd a = s.rd a) ∧ onlyIn [.regs] s u) := by
  have whole : exec (.isolationRelease v) s = .next (s.isoRelease v) := rfl
  refine ⟨_, whole, ?_, fun none => ?_⟩
  · rw [State.isoRelease]
    rw [State.slicesRestart_isoStatus, State.rd_wr_same]
  · have slices : maskSlices 0 = [] := rfl
    rw [State.isoRelease]
    rw [none, slices, State.each_nil]
    exact ⟨fun a ne => s.rd_wr_ne _ ne, (s.wr_keeps _ _).same⟩

/-! ## Injection -/

theorem regAt_mstInjCtl : regAt mstInjCtl = some ({ base := mstInjCtl, rw := 0x7ffffff }, 0, 0) := rfl

theorem fld_kind {v : Word} {k : Nat} (hk : k < 8) : fld (setFld v 26 24 k) 26 24 = k :=
  (fld_setFld_same v 26 24 k (by decide) (by decide)).trans (Nat.mod_eq_of_lt (by simpa using hk))

theorem fld_setKind (v : Word) (k : Nat) {hi : Nat} (lo : Nat) (small : hi < 24) :
    fld (setFld v 26 24 k) hi lo = fld v hi lo :=
  fld_setFld_ne v 26 24 k hi lo (by decide) (by decide) (by omega) (.inl small)

/-- Outside test mode a write of MST_INJ_CTL changes nothing. -/
theorem State.injCtlWrite_off {s : State} (off : s.rb mstStatus 29 = false) (w : Word) : s.injCtlWrite w = s := by
  rw [State.injCtlWrite, State.testMode, off]
  rfl

/-- A KIND of 1, 2 or 4 stands until an event takes it. -/
theorem State.injCtlWrite_arms {s : State} (on : s.rb mstStatus 29 = true) {w : Word} {k : Nat} (kind : fld w 26 24 = k)
    (hk : k ≠ 3 ∧ k < 5) : s.injCtlWrite w = s.plainWrite mstInjCtl w := by
  rw [State.injCtlWrite, State.testMode, on, kind]
  dsimp only
  rw [if_neg (by decide), if_neg (by omega), if_neg hk.1]

theorem State.plainWrite_injCtl_shows (w : Word) {k f : Nat} (kind : fld w 26 24 = k) (rest : fld w 23 0 = f) :
    (s.plainWrite mstInjCtl w).rf mstInjCtl 26 24 = k ∧ (s.plainWrite mstInjCtl w).rf mstInjCtl 23 0 = f ∧
      (∀ a, a ≠ mstInjCtl → (s.plainWrite mstInjCtl w).rd a = s.rd a) ∧ onlyIn [.regs] s (s.plainWrite mstInjCtl w) :=
  ⟨(s.rf_plainWrite regAt_mstInjCtl w (by decide) (by decide)).trans kind,
    (s.rf_plainWrite regAt_mstInjCtl w (by decide) (by decide)).trans rest, fun _ ne => s.rd_plainWrite_ne _ ne,
    (s.plainWrite_keeps _ _).same⟩

/-- A report injected: told where its source reports, and KIND 0 again. -/
def State.injReported (w : Word) (src inst : Nat) : State :=
  let x := (s.plainWrite mstInjCtl w).free 32
  (if srcReserved src then s.plainWrite mstInjCtl w else x.2.report src inst (BitVec.ofNat 32 x.1)).wf mstInjCtl 26 24 0

theorem State.injCtlWrite_report {s : State} (on : s.rb mstStatus 29 = true) {w : Word} {src inst : Nat}
    (kind : fld w 26 24 = 3) (source : fld w 23 16 = src) (number : fld w 15 0 = inst) :
    s.injCtlWrite w = s.injReported w src inst := by
  rw [State.injCtlWrite, State.testMode, on, kind, source, number, State.injReported]
  dsimp only
  rw [if_neg (by decide), if_neg (by decide), if_pos rfl]

theorem State.injReported_shows (w : Word) (src inst : Nat) : (s.injReported w src inst).rf mstInjCtl 26 24 = 0 ∧
    onlyIn [.regs, .freeCtr, .mast] s (s.injReported w src inst) ∧
    (srcReserved src = true → (s.injReported w src inst).mast.waiting = s.mast.waiting) ∧
    (srcReserved src = false → s.untold src inst →
      ∃ info, ⟨src, inst, info, 0⟩ ∈ (s.injReported w src inst).mast.waiting) := by
  have waits (t : State) : (t.wf mstInjCtl 26 24 0).mast.waiting = t.mast.waiting := rfl
  have mast : (s.plainWrite mstInjCtl w).mast = s.mast := (s.plainWrite_keeps _ _).same .mast (by decide)
  have plain := s.plainWrite_keeps mstInjCtl w
  rw [State.injReported]
  generalize s.plainWrite mstInjCtl w = t at *
  rw [waits]
  refine ⟨State.rf_wf_fits _ _ (by decide) (by decide) (by decide), ?_, fun silent => ?_, fun tells new => ?_⟩
  · have told : Keeps [.regs, .freeCtr, .mast] t ((t.free 32).2.report src inst (BitVec.ofNat 32 (t.free 32).1)) :=
      ((t.free_keeps 32).mono rfl).trans ((State.report_keeps _ _ _ _).mono rfl)
    have either : Keeps [.regs, .freeCtr, .mast] t (if srcReserved src = true then t
        else (t.free 32).2.report src inst (BitVec.ofNat 32 (t.free 32).1)) := .ite (.refl t) told
    exact ((plain.mono rfl).trans (either.trans ((State.wf_keeps _ _ _ _ _).mono rfl))).same
  · rw [if_pos silent, mast]
  · rw [if_neg (by simp [tells])]
    exact ⟨_, State.report_waits (s := (t.free 32).2) (fun r hr => new r (mast ▸ hr)) _⟩

end

end Sys2Proof.Machine

/-! PROOFS. Masthead's reports, log and monitors: O56 (R503 to R522). -/

namespace Sys2Proof.Machine

theorem reportPresent_rules (src inst : Nat) (info : Word) (s : State) :
    (srcReserved src = true ∨ 65536 ≤ inst → exec (.reportPresent src inst info) s = .next s) ∧
    (srcReserved src = false → inst < 65536 → ∃ u, exec (.reportPresent src inst info) s = .next u ∧
      (s.untold src inst → ∀ q, q ∈ u.mast.waiting ↔ q = ⟨src, inst, info, 0⟩ ∨ q ∈ s.mast.waiting) ∧
      (∀ before q after, s.mast.waiting = before ++ q :: after → q.src = src → q.inst = inst →
        (∀ p ∈ before, p.src < src ∨ (p.src = src ∧ p.inst < inst)) →
        u.mast.waiting = before ++ { q with merged := min 65535 (q.merged + 1) } :: after) ∧
      onlyIn [.regs, .mast] s u) := by
  refine ⟨fun no => exec_reportPresent_none s no info, fun tells small => ⟨_, exec_reportPresent s tells small info,
    fun new q => State.mem_waiting_report new info q, fun before q after waits source number below => ?_,
    (s.report_keeps src inst info).same⟩⟩
  rw [State.waiting_report, waits, mergeReport_told (r := ⟨src, inst, info, 0⟩) source number below]

theorem injection_rules (v : Word) (s : State) (on : s.rb mstStatus 29 = true) :
    let armed (k : Nat) (o : Host.Outcome State Fault Refusal) : Prop := ∃ u, o = .next u ∧ u.rf mstInjCtl 26 24 = k ∧
      u.rf mstInjCtl 23 0 = fld v 23 0 ∧ (∀ a, a ≠ mstInjCtl → u.rd a = s.rd a) ∧ onlyIn [.regs] s u
    armed 1 (exec (.injectOneBit v) s) ∧ armed 2 (exec (.injectTwoBits v) s) ∧ armed 4 (exec (.injectParity v) s) ∧
    (∃ u, exec (.injectReport v) s = .next u ∧ u.rf mstInjCtl 26 24 = 0 ∧ onlyIn [.regs, .freeCtr, .mast] s u ∧
      (srcReserved (fld v 23 16) = true → u.mast.waiting = s.mast.waiting) ∧
      (srcReserved (fld v 23 16) = false → s.untold (fld v 23 16) (fld v 15 0) →
        ∃ info, ⟨fld v 23 16, fld v 15 0, info, 0⟩ ∈ u.mast.waiting)) := by
  intro armed
  have arms (k : Nat) (hk : k ≠ 3 ∧ k < 5) : armed k (.next (s.injCtlWrite (setFld v 26 24 k))) := by
    rw [State.injCtlWrite_arms on (fld_kind (by omega)) hk]
    exact ⟨_, rfl, s.plainWrite_injCtl_shows _ (fld_kind (by omega)) (fld_setKind v k 0 (by decide))⟩
  refine ⟨arms 1 (by decide), arms 2 (by decide), arms 4 (by decide), ?_⟩
  have whole : exec (.injectReport v) s = .next (s.injCtlWrite (setFld v 26 24 3)) := rfl
  rw [whole, State.injCtlWrite_report on (fld_kind (by decide)) (fld_setKind v 3 16 (by decide))
    (fld_setKind v 3 0 (by decide))]
  exact ⟨_, rfl, s.injReported_shows _ _ _⟩

theorem injection_off (v : Word) (s : State) (off : s.rb mstStatus 29 = false) :
    exec (.injectOneBit v) s = .next s ∧ exec (.injectTwoBits v) s = .next s ∧ exec (.injectReport v) s = .next s ∧
      exec (.injectParity v) s = .next s :=
  have stays (w : Word) := congrArg Host.Outcome.next (State.injCtlWrite_off off w)
  ⟨stays _, stays _, stays _, stays _⟩

end Sys2Proof.Machine

section
open Sys2Proof Sys2Proof.Machine

/-- Settles O56: reports by the order in which they wait, their log and action by what each writes, and the rest command by
command. -/
theorem mastheadReportsLogAndMonitors : Obligations.MastheadReportsLogAndMonitors := by
  unfold Obligations.MastheadReportsLogAndMonitors
  exact ⟨reportPresent_rules, fun s none => exec_reportTake_none none,
    fun r rest s waits => reportTake_takes r rest s waits rfl rfl rfl rfl, logSelect_rules,
    fun src inst info s => ⟨fun no => exec_monitorDetect_none s no info,
      fun lo hi small new => monitorDetect_rules s lo hi small new info, monitorClear_rules s src inst⟩,
    selfCheck_rules, aliveToggle_rules, isolationRelease_rules, injection_off, injection_rules⟩

end

/-! PROOFS. Cold start, device restart and slice restart (R495 to R497, R544). -/

namespace Sys2Proof.Machine

section
variable (s : State)

/-! ## The resets of the part -/

theorem coldStart_rules (sl fl : Nat) (tm : Bool) (s : State) : ∃ u, exec (.coldStart sl fl tm) s = .next u ∧
    onlyIn [.regs, .cycles, .freeCtr, .attic, .dwy, .outbox] State.reset u ∧
    (∀ a, a ∉ [atcStraps, atcFuse, atcFlStatus, atcBootStatus] → u.rd a = State.reset.rd a) ∧
    u.stage = 1 ∧ u.rf atcBootStatus 23 20 = 0 ∧ u.attic.strapSlot = sl % 4 ∧ u.attic.strapFlash = fl % 4 ∧
    u.attic.testPin = tm ∧ u.attic.fuseSvn = s.attic.fuseSvn ∧ u.attic.keys = s.attic.keys ∧
    u.attic.testFuse = s.attic.testFuse ∧ (s.attic.flCmd = none → u.attic.flash = s.attic.flash) :=
  ⟨_, rfl, s.coldStart_shows sl fl tm⟩

theorem vddAonLoss_rules (s : State) : ∃ u, exec .vddAonLoss s = .next u ∧
    exec (.coldStart s.attic.strapSlot s.attic.strapFlash s.attic.testPin) s = .next u ∧ u.stage = 1 ∧
    u.attic.fuseSvn = s.attic.fuseSvn := by
  obtain ⟨-, -, stage, -, -, -, -, svn, -⟩ := s.coldStart_shows s.attic.strapSlot s.attic.strapFlash s.attic.testPin
  exact ⟨_, rfl, rfl, stage, svn⟩

theorem exec_deviceRestart_deferred {s : State} (held : s.attic.flCmd ≠ none) : exec .deviceRestart s =
    .next { s with attic := { s.attic with restartDeferred := true } } := by
  have whole : exec .deviceRestart s = .next s.deviceRestart := rfl
  rw [whole, State.deviceRestart, if_pos (Option.isSome_iff_ne_none.2 held)]

theorem exec_deviceRestart_now {s : State} (free : s.attic.flCmd = none) : exec .deviceRestart s = .next s.restart := by
  have whole : exec .deviceRestart s = .next s.deviceRestart := rfl
  rw [whole, State.deviceRestart, free]
  rfl

theorem State.mast_restart : s.restart.mast = s.restartBlank.mast := s.restart_keepsBlank.same .mast (by decide)

theorem deviceRestart_rules (s : State) :
    (s.attic.flCmd ≠ none → ∃ u, exec .deviceRestart s = .next u ∧ u.attic.restartDeferred = true ∧ onlyIn [.attic] s u) ∧
    (s.attic.flCmd = none → ∃ u, exec .deviceRestart s = .next u ∧
      onlyIn [.regs, .time, .cycles, .freeCtr, .mast, .attic, .dwy, .outbox] State.reset u ∧ u.time = s.time ∧
      u.mast.log = s.mast.log ∧ u.mast.recov = s.mast.recov ∧ u.mast.waiting = [] ∧ u.mast.ctrs = [] ∧
      (∀ a, a ∈ [atcTimeIncr, mstLogNext, mstRecov, mstMon] → u.rd a = s.rd a) ∧
      (∀ a, a ∉ [atcTimeIncr, mstLogNext, mstRecov, mstMon, mstStatus, atcStraps, atcFuse, atcFlStatus, atcBootStatus] →
        u.rd a = State.reset.rd a) ∧ u.rb mstStatus 29 = s.rb mstStatus 29 ∧ u.stage = 1 ∧ u.rf atcBootStatus 23 20 = 1 ∧
      u.attic.flash = s.attic.flash ∧ u.attic.keys = s.attic.keys ∧ u.attic.sbDyn = s.attic.sbDyn) := by
  refine ⟨fun held => ⟨_, exec_deviceRestart_deferred held, rfl, ?_⟩, fun free => ⟨_, exec_deviceRestart_now free, ?_⟩⟩
  · intro p out
    cases p with
    | attic => exact absurd (by decide) out
    | _ => rfl
  · obtain ⟨stage, cause⟩ := s.restart_stage
    have time : s.restart.time = s.time := s.restart_keepsBlank.same .time (by decide)
    refine ⟨(s.onlyIn_restartBlank).trans (s.restart_keepsBlank.mono rfl).same, time, ?_⟩
    rw [s.mast_restart, s.attic_restart]
    refine ⟨rfl, rfl, rfl, rfl, fun a kept => s.rd_restart_kept kept, fun a out => ?_, s.restart_testMode, stage, cause, rfl,
      rfl, rfl⟩
    simp only [List.mem_cons, List.not_mem_nil, or_false, not_or] at out
    obtain ⟨incr, next, recov, mon, status, straps, fuse, flash, boot⟩ := out
    exact s.rd_restart_blank (by simp [bootShown, straps, fuse, flash, boot]) (by simp [restartKeeps, incr, next, recov, mon])
      status

/-! ## A slice's restart -/

/-- A slice's buckets full and its deficits clear. -/
def State.slicePoured (sl : Nat) : State :=
  let pols := s.sht.pols.map fun (p : Nat × Pol) =>
    if p.1 / 16384 = sl then (p.1, { p.2 with tc := p.2.cbs, te := p.2.ebs, tick := s.tick }) else p
  let shps := s.sht.shps.map fun (p : Nat × Shp) =>
    if shpSlice p.1 = sl then (p.1, { p.2 with tokens := (s.shpBurst p.1 : Int), tick := s.tick, fill := false, cut := false })
    else p
  let dwrr := s.sht.dwrr.filter fun (p : Nat × Dwrr) => p.1 / 32 != sl
  { s with sht := { s.sht with pols := pols, shps := shps, dwrr := dwrr } }

theorem State.sliceRefill_eq (sl : Nat) : s.sliceRefill sl = (s.slicePoured sl).each (slicePorts sl) State.portXon := by
  rw [State.sliceRefill, State.slicePoured]

theorem State.pols_slicePoured {sl : Nat} {p : Nat × Pol} (mem : p ∈ (s.slicePoured sl).sht.pols) (here : p.1 / 16384 = sl) :
    p.2.tc = p.2.cbs ∧ p.2.te = p.2.ebs := by
  obtain ⟨q, -, e⟩ := List.mem_map.1 mem
  dsimp only at e
  by_cases own : q.1 / 16384 = sl
  · rw [if_pos own] at e
    rw [← e]
    exact ⟨rfl, rfl⟩
  · rw [if_neg own] at e
    exact absurd (e ▸ here) own

theorem tfind_none_of_ne {α : Type} {l : Tbl α} {k : Nat} (out : ∀ p ∈ l, p.1 ≠ k) : tfind l k = none := by
  induction l with
  | nil => rfl
  | cons p l ih =>
    rw [tfind, if_neg fun same => out p List.mem_cons_self same.symm]
    exact ih fun q hq => out q (List.mem_cons_of_mem _ hq)

theorem State.dwrr_slicePoured {sl k : Nat} (here : k / 32 = sl) : tfind (s.slicePoured sl).sht.dwrr k = none :=
  tfind_none_of_ne fun p mem same => by
    obtain ⟨-, other⟩ := List.mem_filter.1 mem
    simp only [same, here, bne_self_eq_false, Bool.false_eq_true] at other

/-- A restarted slice: XON everywhere, buckets full, deficits clear. -/
theorem State.sliceRefill_shows (sl : Nat) : let u := s.sliceRefill sl
    (∀ n, n / 32 = sl → (u.port n).xoff = 0) ∧
    (∀ p ∈ u.sht.pols, p.1 / 16384 = sl → p.2.tc = p.2.cbs ∧ p.2.te = p.2.ebs) ∧
    (∀ k, k / 32 = sl → tfind u.sht.dwrr k = none) := by
  have sht : ((s.slicePoured sl).each (slicePorts sl) State.portXon).sht = (s.slicePoured sl).sht :=
    (State.allXon_keeps _ _).same .sht (by decide)
  rw [State.sliceRefill_eq]
  dsimp only
  rw [sht]
  refine ⟨fun n here => ?_, fun p mem here => s.pols_slicePoured mem here, fun k here => s.dwrr_slicePoured here⟩
  refine State.allXon_xoff _ (List.mem_map.2 ⟨n % 32, mem_upto.2 (Nat.mod_lt _ (by decide)), ?_⟩)
  omega

theorem sliceRestart_rules (sl : Nat) (s : State) (small : sl < 16) : ∃ u, exec (.sliceRestart sl) s = .next u ∧
    (∀ n, n / 32 = sl → (u.port n).xoff = 0) ∧
    (∀ p ∈ u.sht.pols, p.1 / 16384 = sl → p.2.tc = p.2.cbs ∧ p.2.te = p.2.ebs) ∧
    (∀ k, k / 32 = sl → tfind u.sht.dwrr k = none) ∧ u.rd mstIsoStatus = s.rd mstIsoStatus ∧
    onlyIn [.regs, .ecc, .mast, .cel, .cup, .lft, .pipe, .stw, .sht, .crw, .outbox] s u := by
  have out : exec (.sliceRestart sl) s = .next (s.sliceRestart sl) := by
    have whole : exec (.sliceRestart sl) s = .next (s.sliceRestart (sl % 16)) := rfl
    rw [whole, Nat.mod_eq_of_lt small]
  have iso := s.sliceRestart_unit sl mstIsoStatus (by decide) (not_unitWrites (by decide) (by decide))
  have frame := onlyIn_of_next (execSliceRestart_keeps s sl) out
  refine ⟨_, out, ?_⟩
  rw [State.sliceRestart] at iso frame ⊢
  obtain ⟨open_, full, clear⟩ := State.sliceRefill_shows
    (s.sliceDiscard (fun t n => t.count evAtcRestartDiscard (n / 32) 0) sl) sl
  generalize State.sliceRefill _ sl = t at *
  have sht : (t.count evAtcSliceRestart sl 0).sht = t.sht := (t.count_keeps _ _ _).same .sht (by decide)
  have pipe : (t.count evAtcSliceRestart sl 0).pipe = t.pipe := (t.count_keeps _ _ _).same .pipe (by decide)
  have port (n : Nat) : (t.count evAtcSliceRestart sl 0).port n = t.port n := by rw [State.port, State.port, pipe]
  rw [sht]
  exact ⟨fun n here => (congrArg Port.xoff (port n)).trans (open_ n here), full, clear, iso, frame⟩

end

end Sys2Proof.Machine

/-! PROOFS. A slot found defective: its work undone, the next slot in hand or boot FAILED (R480, R532). -/

namespace Sys2Proof.Machine

/-- Slot `c` failed with defect `d`: recorded, and the slots of `rest` go on from AUTH, or boot has FAILED. -/
def slotFailed (c : Nat) (rest : List Nat) (d : Nat) (s u : State) : Prop :=
  u.rf atcBootErr (8 * c + 7) (8 * c) = d % 256 ∧ u.attic.flash = s.attic.flash ∧
    (rest = [] → u.stage = 9 ∧ ∃ r, r ∈ u.mast.waiting ∧ r.src = 0x31) ∧
    (rest ≠ [] → u.stage = 3 ∧ u.attic.boot.order = rest ∧ u.attic.boot.sect = 0 ∧ u.attic.boot.record = 0)

section
variable (s : State)

/-- A table keeps what a filter of its indices lets through. -/
theorem tfind_filter_index {α : Type} (keep : Nat → Bool) (l : Tbl α) {k : Nat} (kept : keep k = true) :
    tfind (l.filter fun p => keep p.1) k = tfind l k := by
  induction l with
  | nil => rfl
  | cons p l ih =>
    by_cases same : k = p.1
    · rw [List.filter_cons, if_pos (by rw [← same]; exact kept), tfind, tfind, if_pos same, if_pos same]
    · by_cases through : keep p.1 = true
      · rw [List.filter_cons, if_pos through, tfind, tfind, if_neg same, if_neg same, ih]
      · rw [List.filter_cons, if_neg through, tfind, if_neg same, ih]

/-- The registers that stand where a slot's work is undone. -/
def undoKeeps (a : Nat) : Bool := decide (a < 0x3000000) && !(mastConfig a)

theorem State.rd_undoSlot {a : Nat} (kept : undoKeeps a = true) : s.undoSlot.rd a = s.rd a := by
  have regs : s.undoSlot.regs = s.regs.filter fun p => undoKeeps p.1 := rfl
  rw [State.rd, State.rd, regs, tget, tget, tfind_filter_index undoKeeps s.regs kept]

theorem State.flash_undoSlot : s.undoSlot.attic.flash = s.attic.flash := rfl

/-- The state after a defect, before its outcome: the next slot at its first section. -/
def State.nextSlot (c d : Nat) (rest : List Nat) : State :=
  (s.slotDefect c d).undoSlot.setBoot { Boot.reset with order := rest, wake := s.attic.boot.wake }

/-- Power goes back to running where the defect came on the way out of Shuttered. -/
def State.powerBack : State :=
  if s.rf atcPwrStatus 31 30 = 3 then (s.wf atcPwrStatus 31 30 0).wf atcPwrCtl 1 0 0 else s

theorem State.bootDefect_last {c : Nat} (order : s.attic.boot.order = [c]) (d : Nat) : s.bootDefect d =
    (((s.nextSlot c d []).powerBack.setStage 9).putB mstStatus 28 false).report 0x31 0 ((s.nextSlot c d []).powerBack.rd atcBootErr) := by
  rw [State.bootDefect, order]
  rfl

theorem State.bootDefect_more {c : Nat} {rest : List Nat} (order : s.attic.boot.order = c :: rest) (more : rest ≠ []) (d : Nat) :
    s.bootDefect d = (s.nextSlot c d rest).setStage 3 := by
  rw [State.bootDefect, order]
  exact if_neg (by simpa using more)

theorem State.stage_setStage {n : Nat} (small : n < 16) : (s.setStage n).stage = n :=
  s.rf_wf_fits atcBootStatus (by decide) (by decide) small

theorem State.rd_setStage_ne {a : Nat} (ne : a ≠ atcBootStatus) (n : Nat) : (s.setStage n).rd a = s.rd a :=
  s.rd_wf_ne _ _ _ ne

theorem State.stage_congr {s t : State} (same : t.rd atcBootStatus = s.rd atcBootStatus) : t.stage = s.stage := by
  rw [State.stage, State.rf, same, ← State.rf, State.stage]

theorem State.rf_nextSlot {c : Nat} (hc : c < 2) (d : Nat) (rest : List Nat) :
    (s.nextSlot c d rest).rf atcBootErr (8 * c + 7) (8 * c) = d % 256 := by
  obtain ⟨marked, -⟩ := s.slotDefect_shows hc d
  have undone : (s.nextSlot c d rest).rd atcBootErr = (s.slotDefect c d).rd atcBootErr :=
    State.rd_undoSlot (s.slotDefect c d) (a := atcBootErr) (by decide)
  rw [State.rf, undone]
  exact marked

theorem State.flash_nextSlot (c d : Nat) (rest : List Nat) : (s.nextSlot c d rest).attic.flash = s.attic.flash := by
  have attic : (s.slotDefect c d).attic = s.attic := (s.slotDefect_keeps c d).same .attic (by decide)
  have flash := congrArg Attic.flash attic
  exact flash

theorem State.boot_nextSlot (c d : Nat) (rest : List Nat) :
    (s.nextSlot c d rest).attic.boot = { Boot.reset with order := rest, wake := s.attic.boot.wake } := rfl

theorem State.rd_powerBack {a : Nat} (ne : a ≠ atcPwrStatus ∧ a ≠ atcPwrCtl) : s.powerBack.rd a = s.rd a := by
  rw [State.powerBack]
  split
  · rw [State.rd_wf_ne _ _ _ _ ne.2, State.rd_wf_ne _ _ _ _ ne.1]
  · rfl

theorem State.attic_powerBack : s.powerBack.attic = s.attic := by
  rw [State.powerBack]
  split
  · rfl
  · rfl

/-- A report presented waits, on its own or merged. -/
theorem State.report_told (src inst : Nat) (info : Word) : ∃ r, r ∈ (s.report src inst info).mast.waiting ∧ r.src = src := by
  have merged (l : List Report) : ∃ r, r ∈ (mergeReport ⟨src, inst, info, 0⟩ l).1 ∧ r.src = src := by
    induction l with
    | nil => exact ⟨_, List.mem_cons_self, rfl⟩
    | cons q t ih =>
      rw [mergeReport]
      split
      · next same => exact ⟨_, List.mem_cons_self, same.1⟩
      · split
        · exact ⟨_, List.mem_cons_self, rfl⟩
        · obtain ⟨r, mem, source⟩ := ih
          exact ⟨r, List.mem_cons_of_mem _ mem, source⟩
  rw [State.waiting_report]
  exact merged _

theorem State.bootDefect_fails {c : Nat} {rest : List Nat} (order : s.attic.boot.order = c :: rest) (hc : c < 2) (d : Nat) :
    slotFailed c rest d s (s.bootDefect d) := by
  have recorded := s.rf_nextSlot hc d rest
  have flash := s.flash_nextSlot c d rest
  have boot := s.boot_nextSlot c d rest
  by_cases last : rest = []
  · subst last
    rw [s.bootDefect_last order]
    generalize s.nextSlot c d [] = t at *
    have err : ((t.powerBack.setStage 9).putB mstStatus 28 false).rd atcBootErr = t.rd atcBootErr := by
      rw [State.rd_putB_ne _ _ _ (by decide), State.rd_setStage_ne _ (by decide), State.rd_powerBack _ (by decide)]
    have stage : ((t.powerBack.setStage 9).putB mstStatus 28 false).stage = 9 :=
      (State.stage_congr (State.rd_putB_ne _ _ _ (by decide))).trans (State.stage_setStage _ (by decide))
    have attic : ((t.powerBack.setStage 9).putB mstStatus 28 false).attic = t.attic := t.attic_powerBack
    generalize (t.powerBack.setStage 9).putB mstStatus 28 false = v at *
    refine ⟨?_, ?_, fun _ => ⟨?_, v.report_told _ _ _⟩, fun more => absurd rfl more⟩
    · rw [State.rf, State.rd_report _ _ _ _ (by decide), err, ← State.rf]
      exact recorded
    · rw [State.attic_report, attic]
      exact flash
    · rw [State.stage_congr (v.rd_report _ _ _ (by decide))]
      exact stage
  · rw [s.bootDefect_more order last]
    generalize s.nextSlot c d rest = t at *
    have attic : (t.setStage 3).attic = t.attic := rfl
    refine ⟨?_, (congrArg Attic.flash attic).trans flash, fun none => absurd none last, fun _ => ⟨t.stage_setStage (by decide), ?_⟩⟩
    · rw [State.rf, t.rd_setStage_ne (by decide), ← State.rf]
      exact recorded
    · rw [attic, boot]
      exact ⟨rfl, rfl, rfl⟩

end

end Sys2Proof.Machine

/-! PROOFS. The boot stages up to CELLAR (R467, R477, R478). -/

namespace Sys2Proof.Machine

section
variable {s : State}

/-! ## A stage ends -/

theorem exec_bootStageEnd_held (held : s.rb mstMon 3 = true) (ok pg : Bool) : exec (.bootStageEnd ok pg) s = .next s := by
  have whole : exec (.bootStageEnd ok pg) s = execBootStageEnd ok pg s := rfl
  rw [whole, execBootStageEnd, if_pos held]

/-- What the end of stage n does. -/
def State.stageEnd (s : State) (ok pg : Bool) (n : Nat) : State :=
  match n with
  | 1 => if s.attic.strapSlot = 3 then s.setStage 10 else s.setStage 2
  | 2 => s.flashStage ok pg
  | 3 => s.authStage
  | 4 => if ok then s.setStage 5 else s
  | 5 => s.cellarStage ok
  | 6 => if s.toRecord.stage = 6 ∧ s.toRecord.sectionsDone then s.toRecord.setStage 7 else s.toRecord
  | 7 => s.startStage
  | _ => s

theorem exec_bootStageEnd (powered : s.rb mstMon 3 = false) {n : Nat} (stage : s.stage = n) (ok pg : Bool) :
    exec (.bootStageEnd ok pg) s = .next (s.stageEnd ok pg n) := by
  have whole : exec (.bootStageEnd ok pg) s = execBootStageEnd ok pg s := rfl
  rw [whole, execBootStageEnd, if_neg (by simp [powered]), stage]
  rfl

theorem State.stage_lt (s : State) : s.stage < 16 := s.rf_lt atcBootStatus 31 28

/-- No stage is in hand. -/
theorem State.stageEnd_none (s : State) (ok pg : Bool) {n : Nat} (out : n = 0 ∨ 8 ≤ n) : s.stageEnd ok pg n = s := by
  rcases out with rfl | out
  · rfl
  · obtain ⟨k, rfl⟩ : ∃ k, n = k + 8 := ⟨n - 8, by omega⟩
    rfl

theorem State.setStage_frame (s : State) (n : Nat) : onlyIn [.regs] s (s.setStage n) := (s.wf_keeps _ _ _ _).same

/-! ## FLASH -/

/-- The slots ordered, and AUTH in hand. -/
def State.slotsOrdered (s t : State) (l : List Nat) : State := (t.setBoot { s.attic.boot with order := l }).setStage 3

theorem State.slotsOrdered_shows (s t : State) (l : List Nat) : (s.slotsOrdered t l).stage = 3 ∧
    (s.slotsOrdered t l).attic.boot.order = l ∧ (s.slotsOrdered t l).attic.flash = t.attic.flash ∧
    Keeps [.regs, .mast, .attic] t (s.slotsOrdered t l) :=
  ⟨State.stage_setStage _ (by decide), rfl, rfl,
    ((State.setBoot_keeps _ _).mono rfl).trans ((State.wf_keeps _ _ _ _ _).mono rfl)⟩

/-- A trial with no try left takes the active slot; one whose tally bit does not take is defective. -/
def State.flashTrial (s : State) (r : CtlRec) (c : Nat) (pg : Bool) : State :=
  if tallyZeros r.tally < r.tries then
    if pg then s.slotsOrdered (s.flashProgram (s.half (s.recHalf.getD 0) + 12) (natLe 8 (tallyNext r.tally))) [c, r.active]
    else (s.slotsOrdered s [r.active]).slotDefect c 1
  else s.slotsOrdered s [r.active, 1 - r.active]

section
variable (cold : s.attic.boot.wake = false) (pg : Bool)
include cold

theorem State.flashStage_strap0 (strap : s.attic.strapSlot = 1) : s.flashStage true pg = s.slotsOrdered s [0] := by
  rw [State.flashStage, cold, if_pos strap]
  rfl

theorem State.flashStage_strap1 (strap : s.attic.strapSlot = 2) : s.flashStage true pg = s.slotsOrdered s [1] := by
  rw [State.flashStage, cold, if_neg (show ¬s.attic.strapSlot = 1 by omega), if_pos strap]
  rfl

theorem State.flashStage_plain (strap : s.attic.strapSlot ≠ 1 ∧ s.attic.strapSlot ≠ 2) (none : s.recNow.try? = none) :
    s.flashStage true pg = s.slotsOrdered s [s.recNow.active, 1 - s.recNow.active] := by
  rw [State.flashStage, cold, if_neg strap.1, if_neg strap.2, none]
  rfl

theorem State.flashStage_trial (strap : s.attic.strapSlot ≠ 1 ∧ s.attic.strapSlot ≠ 2) {c : Nat}
    (tried : s.recNow.try? = some c) : s.flashStage true pg = s.flashTrial s.recNow c pg := by
  rw [State.flashStage, cold, if_neg strap.1, if_neg strap.2, tried]
  rfl

end

theorem State.rd_slotDefect_status (t : State) (c d : Nat) : (t.slotDefect c d).rd atcBootStatus = t.rd atcBootStatus := by
  rw [State.slotDefect, State.rd_count _ _ _ _ (by decide), State.rd_wf_ne _ _ _ _ (by decide)]

theorem State.flashTrial_shows (s : State) (r : CtlRec) (c : Nat) (pg : Bool) : (s.flashTrial r c pg).stage = 3 ∧
    ((s.flashTrial r c pg).attic.boot.order =
      if tallyZeros r.tally < r.tries then (if pg then [c, r.active] else [r.active]) else [r.active, 1 - r.active]) ∧
    Keeps [.regs, .mast, .attic] s (s.flashTrial r c pg) := by
  rw [State.flashTrial]
  by_cases left : tallyZeros r.tally < r.tries
  · rw [if_pos left, if_pos left]
    cases pg
    · obtain ⟨stage, order, -, kept⟩ := s.slotsOrdered_shows s [r.active]
      simp only [Bool.false_eq_true, if_false]
      generalize s.slotsOrdered s [r.active] = t at *
      have attic : (t.slotDefect c 1).attic = t.attic := (t.slotDefect_keeps c 1).same .attic (by decide)
      exact ⟨(State.stage_congr (t.rd_slotDefect_status c 1)).trans stage, by rw [attic, order],
        kept.trans ((t.slotDefect_keeps c 1).mono rfl)⟩
    · simp only [if_true]
      obtain ⟨stage, order, -, kept⟩ := s.slotsOrdered_shows
        (s.flashProgram (s.half (s.recHalf.getD 0) + 12) (natLe 8 (tallyNext r.tally))) [c, r.active]
      exact ⟨stage, order, ((s.flashProgram_keeps _ _).mono rfl).trans kept⟩
  · obtain ⟨stage, order, -, kept⟩ := s.slotsOrdered_shows s [r.active, 1 - r.active]
    rw [if_neg left, if_neg left]
    exact ⟨stage, order, kept⟩

/-- The flash answers: the order of the slots by straps and control record, and AUTH in hand. -/
theorem State.flashStage_orders (cold : s.attic.boot.wake = false) (pg : Bool) : let u := s.flashStage true pg
    u.stage = 3 ∧ onlyIn [.regs, .mast, .attic] s u ∧ u.attic.boot.order ≠ [] ∧
      (s.attic.strapSlot = 1 → u.attic.boot.order = [0]) ∧ (s.attic.strapSlot = 2 → u.attic.boot.order = [1]) ∧
      (s.attic.strapSlot ≠ 1 → s.attic.strapSlot ≠ 2 → s.recNow.try? = none →
        u.attic.boot.order = [s.recNow.active, 1 - s.recNow.active] ∧ u.attic.flash = s.attic.flash) ∧
      (∀ c, s.attic.strapSlot ≠ 1 → s.attic.strapSlot ≠ 2 → s.recNow.try? = some c → u.attic.boot.order =
        if tallyZeros s.recNow.tally < s.recNow.tries then (if pg then [c, s.recNow.active] else [s.recNow.active])
        else [s.recNow.active, 1 - s.recNow.active]) := by
  by_cases strap0 : s.attic.strapSlot = 1
  · obtain ⟨stage, order, -, kept⟩ := s.slotsOrdered_shows s [0]
    rw [State.flashStage_strap0 cold pg strap0]
    exact ⟨stage, kept.same, by rw [order]; decide, fun _ => order, fun other => by omega, fun no => absurd strap0 no,
      fun _ no => absurd strap0 no⟩
  · by_cases strap1 : s.attic.strapSlot = 2
    · obtain ⟨stage, order, -, kept⟩ := s.slotsOrdered_shows s [1]
      rw [State.flashStage_strap1 cold pg strap1]
      exact ⟨stage, kept.same, by rw [order]; decide, fun no => absurd no strap0, fun _ => order,
        fun _ no => absurd strap1 no, fun _ _ no => absurd strap1 no⟩
    · cases tried : s.recNow.try? with
      | none =>
        obtain ⟨stage, order, flash, kept⟩ := s.slotsOrdered_shows s [s.recNow.active, 1 - s.recNow.active]
        rw [State.flashStage_plain cold pg ⟨strap0, strap1⟩ tried]
        exact ⟨stage, kept.same, by rw [order]; exact List.cons_ne_nil _ _, fun no => absurd no strap0,
          fun no => absurd no strap1, fun _ _ _ => ⟨order, flash⟩, fun _ _ _ some_ => absurd some_ (by simp)⟩
      | some c =>
        obtain ⟨stage, order, kept⟩ := s.flashTrial_shows s.recNow c pg
        rw [State.flashStage_trial cold pg ⟨strap0, strap1⟩ tried]
        refine ⟨stage, kept.same, ?_, fun no => absurd no strap0, fun no => absurd no strap1,
          fun _ _ none => absurd none (by simp), fun c' _ _ same => ?_⟩
        · rw [order]
          split
          · split
            · exact List.cons_ne_nil _ _
            · exact List.cons_ne_nil _ _
          · exact List.cons_ne_nil _ _
        · rw [← Option.some.inj same]
          exact order

theorem State.flashStage_dead (s : State) (pg : Bool) : s.flashStage false pg =
    (s.flashStage true pg).attic.boot.order.foldl (fun (t : State) _ => t.bootDefect 1) (s.flashStage true pg) := by
  rw [State.flashStage, State.flashStage, if_neg (by decide), if_pos rfl]

theorem State.bootDefect_last_stage {c : Nat} (order : s.attic.boot.order = [c]) (d : Nat) : (s.bootDefect d).stage = 9 := by
  rw [s.bootDefect_last order]
  generalize (s.nextSlot c d []).powerBack = t
  refine (State.stage_congr (State.rd_report _ _ _ _ (by decide))).trans ?_
  exact (State.stage_congr (State.rd_putB_ne _ _ _ (by decide))).trans (t.stage_setStage (by decide))

theorem State.bootDefect_more_order {c : Nat} {rest : List Nat} (order : s.attic.boot.order = c :: rest) (more : rest ≠ [])
    (d : Nat) : (s.bootDefect d).attic.boot.order = rest := by
  rw [s.bootDefect_more order more]
  rfl

/-- Every slot of the order defective: boot has FAILED. -/
theorem State.bootDefects_fail (d : Nat) (l : List Nat) : ∀ {t : State}, t.attic.boot.order = l → l ≠ [] →
    (l.foldl (fun (t : State) _ => t.bootDefect d) t).stage = 9 := by
  induction l with
  | nil => exact fun _ none => absurd rfl none
  | cons c rest ih =>
    intro t order _
    rw [List.foldl_cons]
    by_cases last : rest = []
    · subst last
      exact State.bootDefect_last_stage order d
    · exact ih (State.bootDefect_more_order order last d) last

theorem State.flashStage_fails (cold : s.attic.boot.wake = false) (pg : Bool) : (s.flashStage false pg).stage = 9 := by
  obtain ⟨-, -, some_, -⟩ := State.flashStage_orders cold pg
  rw [State.flashStage_dead]
  exact State.bootDefects_fail 1 _ rfl some_

/-! ## AUTH -/

/-- What AUTH shows of a slot that passes. -/
def State.authShown (s : State) (c : Nat) (trial : Bool) : State :=
  let s1 := ((s.wf atcBootStatus 27 27 c).putB atcBootStatus 26 trial).putB atcBootStatus 25 (!(s.attic.keys.any (·.isSet)))
  ((s1.putB atcBootStatus 24 (s.imgFlag c 2)).wrN atcBootImage (s.imgN c 16 4)).setStage 4

theorem State.authStage_defect {c : Nat} {rest : List Nat} (order : s.attic.boot.order = c :: rest)
    (bad : s.authCheck c ≠ 0) : s.authStage = s.bootDefect (s.authCheck c) := by
  have head : s.attic.boot.order.headD 0 = c := by rw [order, List.headD_cons]
  rw [State.authStage, head]
  exact if_pos bad

theorem State.authStage_passed {c : Nat} {rest : List Nat} (order : s.attic.boot.order = c :: rest)
    (good : s.authCheck c = 0) : ∃ trial, s.authStage = s.authShown c trial := by
  have head : s.attic.boot.order.headD 0 = c := by rw [order, List.headD_cons]
  rw [State.authStage, head]
  exact ⟨_, if_neg (not_not.2 good)⟩

theorem State.imgN_lt (s : State) (c o n : Nat) : s.imgN c o n < 256 ^ n := by
  have lt := leNat_lt (s.img c o n)
  rwa [State.img, State.flashRead, length_memRead, ← State.flashRead, ← State.img, ← State.imgN] at lt

theorem State.rf_putB_ne (s : State) (a i : Nat) (b : Bool) {hi lo : Nat} (small : i < 32) (fits : hi < 32)
    (apart : hi < i ∨ i < lo) : (s.putB a i b).rf a hi lo = s.rf a hi lo :=
  s.rf_wf_ne a i i (nat b) hi lo (Nat.le_refl i) small fits apart

theorem State.authShown_shows (s : State) {c : Nat} (hc : c < 2) (trial : Bool) : let u := s.authShown c trial
    u.stage = 4 ∧ onlyIn [.regs] s u ∧ u.rf atcBootStatus 27 27 = c ∧ u.rdN atcBootImage = s.imgN c 16 4 ∧
      u.rb atcBootStatus 25 = !(s.attic.keys.any (·.isSet)) := by
  have short := s.imgN_lt c 16 4
  generalize hw : (((s.wf atcBootStatus 27 27 c).putB atcBootStatus 26 trial).putB atcBootStatus 25
    (!(s.attic.keys.any (·.isSet)))).putB atcBootStatus 24 (s.imgFlag c 2) = w
  have whole : s.authShown c trial = (w.wrN atcBootImage (s.imgN c 16 4)).setStage 4 := by
    rw [← hw]
    rfl
  have slot : w.rf atcBootStatus 27 27 = c := by
    rw [← hw, State.rf_putB_ne _ _ _ _ (by decide) (by decide) (.inr (by decide)),
      State.rf_putB_ne _ _ _ _ (by decide) (by decide) (.inr (by decide)),
      State.rf_putB_ne _ _ _ _ (by decide) (by decide) (.inr (by decide))]
    exact s.rf_wf_fits _ (by decide) (by decide) (by simpa using hc)
  have keys : w.rb atcBootStatus 25 = !(s.attic.keys.any (·.isSet)) := by
    rw [← hw, State.rb_putB_ne _ _ _ _ _ (by decide) (by decide) (by decide)]
    exact State.rb_putB _ _ _ _ (by decide)
  have image : (w.wrN atcBootImage (s.imgN c 16 4)).rd atcBootImage = BitVec.ofNat 32 (s.imgN c 16 4) := State.rd_wrN _ _ _
  have status : (w.wrN atcBootImage (s.imgN c 16 4)).rd atcBootStatus = w.rd atcBootStatus := State.rd_wrN_ne _ _ (by decide)
  have written : Keeps [.regs] s w := by
    rw [← hw]
    exact (((s.wf_keeps _ _ _ _).trans (State.putB_keeps _ _ _ _)).trans (State.putB_keeps _ _ _ _)).trans
      (State.putB_keeps _ _ _ _)
  have kept := (written.trans (w.wrN_keeps atcBootImage (s.imgN c 16 4))).trans (State.wf_keeps _ atcBootStatus 31 28 4)
  dsimp only
  rw [whole]
  generalize w.wrN atcBootImage (s.imgN c 16 4) = v at *
  refine ⟨v.stage_setStage (by decide), kept.same, ?_, ?_, ?_⟩
  · refine (v.rf_wf_ne atcBootStatus 31 28 4 27 27 (by decide) (by decide) (by decide) (by decide)).trans ?_
    rw [State.rf, status, ← State.rf]
    exact slot
  · rw [State.rdN, v.rd_setStage_ne (by decide), image, BitVec.toNat_ofNat]
    exact Nat.mod_eq_of_lt short
  · refine (v.rb_wf atcBootStatus 31 28 4 25 (by decide) (by decide) (by decide)).trans ?_
    rw [if_neg (by decide), State.rb, status, ← State.rb]
    exact keys

end

end Sys2Proof.Machine

/-! PROOFS. The stages CELLAR and SECTIONS, and the stages' rules up to START (R477, R478). -/

namespace Sys2Proof.Machine

section
variable (s : State)

/-! ## CELLAR -/

/-- CEL_PART written and locked, where it is not locked yet. -/
def State.cellarLocked (c : Nat) : State :=
  if s.rb celLock 0 then s else (s.celPartWrite (BitVec.ofNat 32 (s.imgN c 28 4))).celLockWrite 1

/-- Every stack active. -/
def State.stacksUp : State := s.each (upto 4) fun t k => t.wf (celStkStatus k) 31 30 0

theorem State.cellarLocked_keeps (c : Nat) : Keeps [.regs] s (s.cellarLocked c) :=
  .ite (.refl s) ((s.celPartWrite_keeps _).trans (State.celLockWrite_keeps _ _))

theorem State.rb_cellarLocked (c : Nat) : (s.cellarLocked c).rb celLock 0 = true := by
  rw [State.cellarLocked]
  split
  · assumption
  · exact State.rb_setB _ celLock 0 (by decide)

theorem State.cellarLocked_locked {s : State} (locked : s.rb celLock 0 = true) (c : Nat) : s.cellarLocked c = s := if_pos locked

theorem State.stacksUp_keeps : Keeps [.regs] s s.stacksUp := Keeps.each (.refl s) fun t _ kept => kept.trans (t.wf_keeps _ _ _ _)

theorem State.rd_stacksUp {a : Nat} (ne : ∀ k, k < 4 → a ≠ celStkStatus k) : s.stacksUp.rd a = s.rd a :=
  State.each_stands (g := fun t => t.rd a) fun t k mem => t.rd_wf_ne _ _ _ (ne k (mem_upto.1 mem))

theorem State.rf_stacksUp {k : Nat} (hk : k < 4) : s.stacksUp.rf (celStkStatus k) 31 30 = 0 := by
  have up (t : State) : (t.wf (celStkStatus k) 31 30 0).rf (celStkStatus k) 31 30 = 0 :=
    t.rf_wf_fits _ (by decide) (by decide) (by decide)
  refine State.each_reaches (P := fun t => t.rf (celStkStatus k) 31 30 = 0) (mem_upto.2 hk) up fun t j _ zero => ?_
  by_cases same : k = j
  · exact same ▸ up t
  · rw [State.rf, t.rd_wf_ne _ _ _ (by unfold celStkStatus; omega)]
    exact zero

theorem State.cellarStage_failed : s.cellarStage false = s.bootDefect 0x0E := by
  rw [State.cellarStage, Bool.not_false, if_pos rfl]

theorem State.cellarStage_passed (saved : s.attic.saved = none) :
    s.cellarStage true = (s.cellarLocked s.bootSlot).stacksUp.setStage 6 := by
  have attic : (s.cellarLocked s.bootSlot).stacksUp.attic = s.attic :=
    ((s.cellarLocked_keeps _).trans (State.stacksUp_keeps _)).same .attic (by decide)
  have none : (s.cellarLocked s.bootSlot).stacksUp.attic.saved = none := attic ▸ saved
  have whole : s.cellarStage true = (match (s.cellarLocked s.bootSlot).stacksUp.attic.saved with
    | some x =>
      let t := (((s.cellarLocked s.bootSlot).stacksUp.wr crwEpoch x.epoch).wf crwMigStatus 3 0 (fld x.migStatus 3 0)).wr
        crwMigLeft x.left
      { t with attic := { t.attic with saved := Option.none }, crw := { t.crw with marked := x.marked } }
    | Option.none => (s.cellarLocked s.bootSlot).stacksUp).setStage 6 := rfl
  rw [whole, none]

theorem State.cellarStage_shows (saved : s.attic.saved = none) : let u := s.cellarStage true
    (u.stage = 6 ∧ onlyIn [.regs] s u) ∧ u.rb celLock 0 = true ∧
      (∀ k, k < 4 → u.rf (celStkStatus k) 31 30 = 0) ∧ (s.rb celLock 0 = true → u.rd celPart = s.rd celPart) := by
  have other {a : Nat} (lo : celStkStatus 3 < a ∨ a < celStkStatus 0) (ne : a ≠ atcBootStatus) (t : State) :
      (t.stacksUp.setStage 6).rd a = t.rd a := by
    rw [State.rd_setStage_ne _ ne, t.rd_stacksUp fun k hk => by unfold celStkStatus at *; omega]
  have kept := ((s.cellarLocked_keeps s.bootSlot).trans (State.stacksUp_keeps _)).trans
    (State.wf_keeps (s.cellarLocked s.bootSlot).stacksUp atcBootStatus 31 28 6)
  dsimp only
  rw [s.cellarStage_passed saved]
  refine ⟨⟨State.stage_setStage _ (by decide), kept.same⟩, ?_, fun k hk => ?_, fun locked => ?_⟩
  · rw [State.rb, other (by decide) (by decide), ← State.rb]
    exact s.rb_cellarLocked _
  · rw [State.rf, State.rd_setStage_ne _ (by unfold celStkStatus atcBootStatus; omega), ← State.rf]
    exact State.rf_stacksUp _ hk
  · rw [other (by decide) (by decide), State.cellarLocked_locked locked]

/-! ## SECTIONS -/

/-- Where every section has been applied, none is applied again. -/
theorem State.toRecord_done {s : State} (done : s.sectionsDone = true) : s.toRecord = s := by
  have ends : s.imgSects s.bootSlot ≤ s.attic.boot.sect := of_decide_eq_true done
  have whole : s.toRecord = State.loadSections (64 + 1) s := rfl
  rw [whole, State.loadSections]
  exact if_pos ends

/-! ## The rules of the stages before START -/

section
variable {s} (powered : s.rb mstMon 3 = false)
include powered

theorem bootStageEnd_rom (ok pg : Bool) (stage : s.stage = 1) : ∃ u, exec (.bootStageEnd ok pg) s = .next u ∧
    u.stage = (if s.attic.strapSlot = 3 then 10 else 2) ∧ onlyIn [.regs] s u := by
  refine ⟨_, exec_bootStageEnd powered stage ok pg, ?_, ?_⟩
  · rw [State.stageEnd]
    split
    · exact s.stage_setStage (by decide)
    · exact s.stage_setStage (by decide)
  · rw [State.stageEnd]
    split
    · exact s.setStage_frame 10
    · exact s.setStage_frame 2

theorem bootStageEnd_flash (ok pg : Bool) (stage : s.stage = 2) (cold : s.attic.boot.wake = false) :
    (ok = false → ∃ u, exec (.bootStageEnd ok pg) s = .next u ∧ u.stage = 9) ∧
    (ok = true → ∃ u, exec (.bootStageEnd ok pg) s = .next u ∧ u.stage = 3 ∧ onlyIn [.regs, .mast, .attic] s u ∧
      (s.attic.strapSlot = 1 → u.attic.boot.order = [0]) ∧ (s.attic.strapSlot = 2 → u.attic.boot.order = [1]) ∧
      (s.attic.strapSlot ≠ 1 → s.attic.strapSlot ≠ 2 → s.recNow.try? = none →
        u.attic.boot.order = [s.recNow.active, 1 - s.recNow.active] ∧ u.attic.flash = s.attic.flash) ∧
      (∀ c, s.attic.strapSlot ≠ 1 → s.attic.strapSlot ≠ 2 → s.recNow.try? = some c → u.attic.boot.order =
        if tallyZeros s.recNow.tally < s.recNow.tries then (if pg then [c, s.recNow.active] else [s.recNow.active])
        else [s.recNow.active, 1 - s.recNow.active])) := by
  have out := exec_bootStageEnd powered stage ok pg
  refine ⟨?_, ?_⟩
  · rintro rfl
    exact ⟨_, out, State.flashStage_fails cold pg⟩
  · rintro rfl
    obtain ⟨next, kept, -, orders⟩ := State.flashStage_orders cold pg
    exact ⟨_, out, next, kept, orders⟩

theorem bootStageEnd_auth (ok pg : Bool) {c : Nat} {rest : List Nat} (stage : s.stage = 3)
    (order : s.attic.boot.order = c :: rest) (hc : c < 2) :
    (s.authCheck c = 0 → ∃ u, exec (.bootStageEnd ok pg) s = .next u ∧ (u.stage = 4 ∧ onlyIn [.regs] s u) ∧
      u.rf atcBootStatus 27 27 = c ∧ u.rdN atcBootImage = s.imgN c 16 4 ∧
      u.rb atcBootStatus 25 = !(s.attic.keys.any (·.isSet))) ∧
    (s.authCheck c ≠ 0 → ∃ u, exec (.bootStageEnd ok pg) s = .next u ∧ slotFailed c rest (s.authCheck c) s u) := by
  have out : exec (.bootStageEnd ok pg) s = .next s.authStage := exec_bootStageEnd powered stage ok pg
  rw [out]
  refine ⟨fun good => ?_, fun bad => ?_⟩
  · obtain ⟨trial, e⟩ := State.authStage_passed order good
    obtain ⟨next, kept, slot, image, keys⟩ := s.authShown_shows hc trial
    rw [e]
    exact ⟨_, rfl, ⟨next, kept⟩, slot, image, keys⟩
  · rw [State.authStage_defect order bad]
    exact ⟨_, rfl, s.bootDefect_fails order hc _⟩

theorem bootStageEnd_clocks (ok pg : Bool) (stage : s.stage = 4) :
    (ok = false → exec (.bootStageEnd ok pg) s = .next s) ∧
    (ok = true → ∃ u, exec (.bootStageEnd ok pg) s = .next u ∧ u.stage = 5 ∧ onlyIn [.regs] s u) := by
  have out := exec_bootStageEnd powered stage ok pg
  refine ⟨?_, ?_⟩
  · rintro rfl
    exact out
  · rintro rfl
    exact ⟨_, out, s.stage_setStage (by decide), s.setStage_frame 5⟩

theorem bootStageEnd_cellar (ok pg : Bool) {c : Nat} {rest : List Nat} (stage : s.stage = 5)
    (order : s.attic.boot.order = c :: rest) (hc : c < 2) :
    (ok = false → ∃ u, exec (.bootStageEnd ok pg) s = .next u ∧ slotFailed c rest 0x0E s u) ∧
    (ok = true → s.attic.saved = none → ∃ u, exec (.bootStageEnd ok pg) s = .next u ∧
      (u.stage = 6 ∧ onlyIn [.regs] s u) ∧ u.rb celLock 0 = true ∧
      (∀ k, k < 4 → u.rf (celStkStatus k) 31 30 = 0) ∧ (s.rb celLock 0 = true → u.rd celPart = s.rd celPart)) := by
  have out := exec_bootStageEnd powered stage ok pg
  refine ⟨?_, ?_⟩
  · rintro rfl
    have fails : s.stageEnd false pg 5 = s.bootDefect 0x0E := s.cellarStage_failed
    rw [fails] at out
    exact ⟨_, out, s.bootDefect_fails order hc _⟩
  · rintro rfl saved
    exact ⟨_, out, s.cellarStage_shows saved⟩

theorem bootStageEnd_sections (ok pg : Bool) (stage : s.stage = 6) : (∃ u, exec (.bootStageEnd ok pg) s = .next u) ∧
    (s.sectionsDone = true → ∃ u, exec (.bootStageEnd ok pg) s = .next u ∧ u.stage = 7 ∧ onlyIn [.regs] s u) := by
  have out := exec_bootStageEnd powered stage ok pg
  refine ⟨⟨_, out⟩, fun done => ?_⟩
  have next : s.stageEnd ok pg 6 = s.setStage 7 := by
    rw [State.stageEnd, State.toRecord_done done, if_pos ⟨stage, done⟩]
  rw [next] at out
  exact ⟨_, out, s.stage_setStage (by decide), s.setStage_frame 7⟩

end

end

end Sys2Proof.Machine

/-! PROOFS. START, and the start of the reserved lofts (R479, R481). -/

namespace Sys2Proof.Machine

section
variable (s : State)

/-! ## What START starts -/

/-- RUN of slice `sl`. -/
def State.sliceUp (sl : Nat) : State := (s.setB (thrSliceCtl sl) 0).setB (hlwSliceCtl sl) 0

/-- Engine `e` started where it has BOOT, is not reserved and is STOPPED. -/
def State.bootEngine (e : Nat) : State :=
  if s.rb (lftEngCfg e) 31 ∧ !(s.loftReserved (e / 8)) ∧ s.rf (lftEngStatus e) 31 30 = 1 then s.engineStart e else s

/-- RUN of the slices loaded and the engines with BOOT. -/
def State.bootEngines : State := (s.each (maskSlices s.attic.boot.thrSlices) State.sliceUp).each (upto 512) State.bootEngine

/-- What a BOOT engine needs, and the reserved lofts where they have not started. -/
def State.enginesUp : State :=
  if s.attic.boot.reservedStarted then s.bootEngines else s.bootEngines.startReserved

/-- The Attic controller started where the image has code for it. -/
def State.controllerUp (code : Bool) : State :=
  if code then (s.setThr atcThread { Thread.init with state := 1 }).wrN atcCtrl (2 ^ 30) else s.wrN atcCtrl (2 ^ 31)

/-- The milliseconds that boot took. -/
def State.bootMs : Nat := (s.cycles - s.attic.bootFrom) * 40 / 1000000

/-- Power, stage and time shown, and boot's end signalled. -/
def State.bootShows (ms power : Nat) : State :=
  (((((s.wf atcPwrCtl 1 0 power).wf atcPwrStatus 31 30 power).wf atcBootStatus 15 0 (min 65535 ms)).setStage 8).pulse 1344).count
    evAtcBoot 0 0

/-- A wake signalled. -/
def State.wakeShows (wake : Bool) : State := if wake then s.pulse 1347 else s

/-- Boot done from here on. -/
def State.bootDone (c : Nat) (bt : Boot) : State :=
  { s with attic := { s.attic with doneFrom := s.cycles, boot := { bt with wake := false, order := [c] } } }

/-- START, but for the lofts that gate. -/
def State.started : State :=
  let s8 := (((s.enginesUp.controllerUp s.attic.boot.code).bootShows s.bootMs (s.imgN s.bootSlot 32 1)).wakeShows
    s.attic.boot.wake).bootDone s.bootSlot s.attic.boot
  s8.putB mstStatus 28 (!s8.inSafe)

theorem State.startStage_eq : s.startStage =
    if s.imgN s.bootSlot 32 1 = 1 then s.started.each (upto 64) State.gateLoft else s.started := by
  have slice : State.sliceUp = fun t sl => (t.setB (thrSliceCtl sl) 0).setB (hlwSliceCtl sl) 0 := rfl
  have engine : State.bootEngine = fun t e =>
    if t.rb (lftEngCfg e) 31 ∧ !(t.loftReserved (e / 8)) ∧ t.rf (lftEngStatus e) 31 30 = 1 then t.engineStart e else t := rfl
  rw [State.startStage, State.started, State.bootDone, State.wakeShows, State.bootShows, State.bootMs, State.controllerUp,
    State.enginesUp, State.bootEngines, slice, engine]

/-! ## What START leaves of Masthead and of time -/

theorem State.sliceUp_unit (sl : Nat) : writesOnly unitWrites s (s.sliceUp sl) :=
  ((writesOnly.refl _ s).setB (.inr (by unfold thrSliceCtl; omega)) 0).setB (.inr (by unfold hlwSliceCtl; omega)) 0

theorem State.bootEngine_unit {e : Nat} (small : e < 1024) : writesOnly unitWrites s (s.bootEngine e) :=
  .ite (s.engineStart_unit small) (.refl _ s)

theorem State.bootEngines_unit : writesOnly unitWrites s s.bootEngines :=
  ((writesOnly.refl unitWrites s).each fun t sl _ => t.sliceUp_unit sl).each fun t _ mem =>
    t.bootEngine_unit (Nat.lt_trans (mem_upto.1 mem) (by decide))

theorem State.enginesUp_unit : writesOnly unitWrites s s.enginesUp :=
  .ite s.bootEngines_unit (s.bootEngines_unit.trans (State.startReserved_unit _))

theorem State.controllerUp_unit (code : Bool) : writesOnly unitWrites s (s.controllerUp code) := by
  have thread : writesOnly unitWrites s (s.setThr atcThread { Thread.init with state := 1 }) :=
    (writesOnly.refl unitWrites s).regs (by rw [State.setThr]; rfl)
  exact .ite (thread.wrN (a := atcCtrl) (.inl (by decide)) _) ((writesOnly.refl _ s).wrN (a := atcCtrl) (.inl (by decide)) _)

theorem State.sliceUp_keeps (sl : Nat) : Keeps [.regs, .ecc, .mast, .cel, .cup, .lft, .outbox] s (s.sliceUp sl) :=
  ((s.setB_keeps _ _).mono rfl).trans ((State.setB_keeps _ _ _).mono rfl)

theorem State.bootEngine_keeps (e : Nat) : Keeps [.regs, .ecc, .mast, .cel, .cup, .lft, .outbox] s (s.bootEngine e) :=
  .ite ((s.engineStart_keeps e).mono rfl) (.refl s)

theorem State.bootEngines_keeps : Keeps [.regs, .ecc, .mast, .cel, .cup, .lft, .outbox] s s.bootEngines :=
  Keeps.each (Keeps.each (.refl s) fun t sl kept => kept.trans (t.sliceUp_keeps sl)) fun t e kept =>
    kept.trans (t.bootEngine_keeps e)

theorem State.enginesUp_keeps : Keeps [.regs, .ecc, .mast, .cel, .cup, .lft, .outbox] s s.enginesUp :=
  .ite s.bootEngines_keeps (s.bootEngines_keeps.trans ((State.startReserved_keeps _).mono rfl))

theorem State.controllerUp_keeps (code : Bool) : Keeps [.regs, .lft] s (s.controllerUp code) :=
  .ite (((s.setThr_keeps _ _).mono rfl).trans ((State.wrN_keeps _ _ _).mono rfl)) ((s.wrN_keeps _ _).mono rfl)

/-! ## What START shows -/

theorem State.cycles_pulse (k : Nat) : (s.pulse k).cycles = s.cycles := rfl

theorem State.pulses_pulse (k : Nat) : shas (s.pulse k).bell.pulses k = true := shas_sadd_same _ _

theorem State.bootShows_shows (ms power : Nat) : let u := s.bootShows ms power
    u.stage = 8 ∧ u.rf atcPwrStatus 31 30 = power % 4 ∧ u.rd mstStatus = s.rd mstStatus ∧
      shas u.bell.pulses 1344 = true ∧ u.cycles = s.cycles := by
  generalize hv : ((s.wf atcPwrCtl 1 0 power).wf atcPwrStatus 31 30 power).wf atcBootStatus 15 0 (min 65535 ms) = v
  have whole : s.bootShows ms power = ((v.setStage 8).pulse 1344).count evAtcBoot 0 0 := by
    rw [State.bootShows, hv]
  have pulsed (a : Nat) (off : offWrap a = true) : (((v.setStage 8).pulse 1344).count evAtcBoot 0 0).rd a = (v.setStage 8).rd a :=
    (State.rd_count _ _ _ _ off).trans ((v.setStage 8).rd_pulse 1344 a)
  have power_ : v.rf atcPwrStatus 31 30 = power % 4 := by
    rw [← hv, State.rf, State.rd_wf_ne _ _ _ _ (by decide), ← State.rf]
    exact State.rf_wf _ _ _ _ _ (by decide) (by decide)
  have status : v.rd mstStatus = s.rd mstStatus := by
    rw [← hv, State.rd_wf_ne _ _ _ _ (by decide), State.rd_wf_ne _ _ _ _ (by decide), State.rd_wf_ne _ _ _ _ (by decide)]
  have cycles : v.cycles = s.cycles := by
    rw [← hv]
    exact (((State.wf_keeps _ _ _ _ _).trans (State.wf_keeps _ _ _ _ _)).trans (State.wf_keeps _ _ _ _ _)).same .cycles (by decide)
  have staged : (v.setStage 8).cycles = v.cycles := (v.setStage_keeps 8).same .cycles (by decide)
  dsimp only
  rw [whole]
  refine ⟨(State.stage_congr (pulsed _ (by decide))).trans (v.stage_setStage (by decide)), ?_, ?_, ?_, ?_⟩
  · rw [State.rf, pulsed _ (by decide), v.rd_setStage_ne (by decide), ← State.rf]
    exact power_
  · rw [pulsed _ (by decide), v.rd_setStage_ne (by decide)]
    exact status
  · rw [State.bell_count]
    exact (v.setStage 8).pulses_pulse 1344
  · exact (State.cycles_count _ _ _ _).trans (((v.setStage 8).cycles_pulse 1344).trans (staged.trans cycles))

theorem State.wakeShows_shows (wake : Bool) : (s.wakeShows wake).regs = s.regs ∧ (s.wakeShows wake).cycles = s.cycles ∧
    (∀ k, shas s.bell.pulses k = true → shas (s.wakeShows wake).bell.pulses k = true) ∧
    (wake = true → shas (s.wakeShows wake).bell.pulses 1347 = true) := by
  cases wake
  · exact ⟨rfl, rfl, fun _ h => h, fun no => absurd no (by decide)⟩
  · refine ⟨rfl, rfl, fun k h => ?_, fun _ => shas_sadd_same _ _⟩
    have added : (s.wakeShows true).bell.pulses = sadd s.bell.pulses 1347 := rfl
    rw [added, shas_sadd, h, Bool.or_true]

theorem State.started_shows : let u := s.started
    u.stage = 8 ∧ shas u.bell.pulses 1344 = true ∧ u.rf atcPwrStatus 31 30 = s.imgN s.bootSlot 32 1 % 4 ∧
      u.rb mstStatus 28 = !s.inSafe ∧ u.attic.doneFrom = s.cycles ∧
      (s.attic.boot.wake = true → shas u.bell.pulses 1347 = true) := by
  have writes := s.enginesUp_unit.trans (State.controllerUp_unit s.enginesUp s.attic.boot.code)
  have upTime : (s.enginesUp.controllerUp s.attic.boot.code).cycles = s.cycles :=
    (State.controllerUp_keeps _ _).same .cycles (by decide) |>.trans (s.enginesUp_keeps.same .cycles (by decide))
  rw [State.started]
  generalize s.enginesUp.controllerUp s.attic.boot.code = t at *
  generalize s.bootMs = ms
  generalize s.imgN s.bootSlot 32 1 = power
  generalize s.bootSlot = c
  have safe : t.rd mstStatus = s.rd mstStatus := writes _ (by decide) (not_unitWrites (by decide) (by decide))
  obtain ⟨stage, powers, status, pulse, cycles⟩ := t.bootShows_shows ms power
  generalize t.bootShows ms power = v at *
  obtain ⟨regs, wakeTime, pulses, wakes⟩ := v.wakeShows_shows s.attic.boot.wake
  generalize v.wakeShows s.attic.boot.wake = w at *
  have put (b : Bool) (a : Nat) (ne : a ≠ mstStatus) : ((w.bootDone c s.attic.boot).putB mstStatus 28 b).rd a = v.rd a :=
    ((w.bootDone c s.attic.boot).rd_putB_ne _ _ ne).trans (State.rd_congr regs a)
  have still : (w.bootDone c s.attic.boot).inSafe = s.inSafe := by
    have same : (w.bootDone c s.attic.boot).rd mstStatus = s.rd mstStatus := ((State.rd_congr regs _).trans status).trans safe
    rw [State.inSafe, State.rf, same, ← State.rf, State.inSafe]
  dsimp only
  rw [still]
  refine ⟨(State.stage_congr (put _ _ (by decide))).trans stage, pulses _ pulse, ?_, ?_, ?_, wakes⟩
  · rw [State.rf, put _ _ (by decide), ← State.rf]
    exact powers
  · exact State.rb_putB _ _ _ _ (by decide)
  · exact (wakeTime.trans cycles).trans upTime

theorem State.gateLofts_writes (l : List Nat) :
    writesOnly (fun a => a = atcGatedLoftsLo ∨ a = atcGatedLoftsHi) s (s.each l State.gateLoft) := by
  refine (writesOnly.refl _ s).each fun t k _ => (t.gateLoft_writes k).mono fun a here => ?_
  rw [here, gatedLoft]
  split
  · exact .inl rfl
  · exact .inr rfl

theorem State.gateLofts_keeps (l : List Nat) : Keeps [.regs] s (s.each l State.gateLoft) :=
  Keeps.each (.refl s) fun t k kept => kept.trans (t.gateLoft_keeps k)

theorem bootStageEnd_start {s : State} (powered : s.rb mstMon 3 = false) (ok pg : Bool) (stage : s.stage = 7) :
    ∃ u, exec (.bootStageEnd ok pg) s = .next u ∧ u.stage = 8 ∧ shas u.bell.pulses 1344 = true ∧
      u.rf atcPwrStatus 31 30 = s.imgN s.bootSlot 32 1 % 4 ∧ u.rb mstStatus 28 = !s.inSafe ∧
      u.attic.doneFrom = s.cycles ∧ (s.attic.boot.wake = true → shas u.bell.pulses 1347 = true) := by
  have out : exec (.bootStageEnd ok pg) s = .next s.startStage := exec_bootStageEnd powered stage ok pg
  have shows := s.started_shows
  refine ⟨_, out, ?_⟩
  rw [State.startStage_eq]
  generalize s.started = t at *
  split
  · have kept := t.gateLofts_keeps (upto 64)
    have writes := t.gateLofts_writes (upto 64)
    have bell := kept.same .bell (by decide)
    have attic := kept.same .attic (by decide)
    generalize t.each (upto 64) State.gateLoft = u at *
    obtain ⟨stage', pulse, power, alive, done, wakes⟩ := shows
    dsimp only [Part.same] at bell attic
    rw [bell, attic, State.stage_congr (writes _ (by decide) (by decide)), writes.rf _ _ (by decide) (by decide),
      writes.rb _ (by decide) (by decide)]
    exact ⟨stage', pulse, power, alive, done, wakes⟩
  · exact shows

/-! ## RESERVED_LOFT_START -/

/-- STATE of an engine that is written 2 or 0, its cause cleared. -/
theorem State.engState_started (e : Nat) (b : Bool) :
    ((s.wf (lftEngStatus e) 31 30 (if b then 2 else 0)).wf (lftEngStatus e) 23 16 0).rf (lftEngStatus e) 31 30 ≠ 1 := by
  rw [State.rf_wf_ne _ _ _ _ _ _ _ (by decide) (by decide) (by decide) (.inr (by decide))]
  cases b <;> rw [s.rf_wf_fits _ (by decide) (by decide) (by decide)] <;> decide

/-- An engine that starts is no longer STOPPED. -/
theorem State.engineStart_runs (e : Nat) : (s.engineStart e).rf (lftEngStatus e) 31 30 ≠ 1 := by
  unfold State.engineStart
  extract_lets s1 _ s2 s3
  have runs : s3.rf (lftEngStatus e) 31 30 ≠ 1 := s2.engState_started e _
  split
  · rw [State.engState_setThr]
    exact runs
  · exact runs

/-- One engine of the reserved lofts. -/
def State.startOne (e : Nat) : State := if s.rf (lftEngStatus e) 31 30 = 1 then s.engineStart e else s

theorem State.startReserved_eq : s.startReserved =
    s.each (upto (8 * s.rf lftCrwCfg 18 16)) fun t i => t.startOne (8 * s.rf lftCrwCfg 5 0 + i) := rfl

theorem State.startOne_runs (e : Nat) : (s.startOne e).rf (lftEngStatus e) 31 30 ≠ 1 := by
  by_cases stopped : s.rf (lftEngStatus e) 31 30 = 1
  · rw [State.startOne, if_pos stopped]
    exact s.engineStart_runs e
  · rw [State.startOne, if_neg stopped]
    exact stopped

/-- An engine that runs keeps running while another starts. -/
theorem State.startOne_leaves {e y : Nat} (he : e < 512) (hy : y < 1024) (runs : s.rf (lftEngStatus e) 31 30 ≠ 1) :
    (s.startOne y).rf (lftEngStatus e) 31 30 ≠ 1 := by
  by_cases same : e = y
  · subst same
    exact s.startOne_runs e
  · have writes : writesOnly (engineWrites y) s (s.startOne y) := .ite (s.engineStart_writes hy) (.refl _ s)
    rw [writes.rf _ _ (not_engineWrites_engStatus same he) (offWrap_lftEngStatus e)]
    exact runs

theorem State.startReserved_runs {e : Nat} (from_ : s.rf lftCrwCfg 5 0 ≤ e / 8)
    (upTo : e / 8 < s.rf lftCrwCfg 5 0 + s.rf lftCrwCfg 18 16) (he : e < 512) :
    s.startReserved.rf (lftEngStatus e) 31 30 ≠ 1 := by
  have first : s.rf lftCrwCfg 5 0 < 64 := s.rf_lt _ 5 0
  have number : s.rf lftCrwCfg 18 16 < 8 := s.rf_lt _ 18 16
  rw [State.startReserved_eq]
  generalize s.rf lftCrwCfg 5 0 = f at *
  generalize s.rf lftCrwCfg 18 16 = n at *
  have here : e - 8 * f ∈ upto (8 * n) := mem_upto.2 (by omega)
  have index : 8 * f + (e - 8 * f) = e := by omega
  refine State.each_reaches here (fun t => ?_) fun t y mem runs => t.startOne_leaves he ?_ runs
  · rw [index]
    exact t.startOne_runs e
  · have := mem_upto.1 mem
    omega

theorem reservedLoftStart_rules (s : State) :
    (¬(s.stage = 6 ∧ s.reservedReady = true) → exec .reservedLoftStart s = .next s) ∧
    (s.stage = 6 → s.reservedReady = true → ∃ u, exec .reservedLoftStart s = .next u ∧
      u.attic.boot.reservedStarted = true ∧
      (∀ e, s.rf lftCrwCfg 5 0 ≤ e / 8 → e / 8 < s.rf lftCrwCfg 5 0 + s.rf lftCrwCfg 18 16 → e < 512 →
        u.rf (lftEngStatus e) 31 30 ≠ 1) ∧
      onlyIn [.regs, .ecc, .mast, .cel, .attic, .cup, .lft, .outbox] s u) := by
  refine ⟨fun not_ => if_neg not_, fun stage ready => ?_⟩
  have out : exec .reservedLoftStart s =
    .next (s.startReserved.setBoot { s.attic.boot with reservedStarted := true }) := if_pos ⟨stage, ready⟩
  refine ⟨_, out, rfl, fun e from_ upTo he => ?_, onlyIn_of_next (execReservedLoftStart_keeps s) out⟩
  exact s.startReserved_runs from_ upTo he

end

end Sys2Proof.Machine

/-! PROOFS. CONFIG records, their time-outs and delays (R473), and the boot's rules together. -/

namespace Sys2Proof.Machine

/-! ## CONFIG records -/

/-- The record in hand has ended, or stays waiting. -/
def recordGoes (w : Bool) (x u : State) : Prop :=
  onlyIn [.attic] x u ∧ u.attic.boot.waiting = w ∧ u.attic.boot.record = x.attic.boot.record + nat (!w)

theorem State.cfgNext_goes (s : State) : recordGoes false s s.cfgNext := ⟨(s.setBoot_keeps _).same, rfl, rfl⟩

theorem State.cfgWait_goes (s : State) : recordGoes true s s.cfgWait := ⟨(s.setBoot_keeps _).same, rfl, rfl⟩

theorem recordGoes_ite (c : Prop) [Decidable c] (x : State) :
    recordGoes (decide ¬c) x (if c then x.cfgNext else x.cfgWait) := by
  by_cases hit : c
  · rw [if_pos hit, decide_eq_false (not_not.2 hit)]
    exact x.cfgNext_goes
  · rw [if_neg hit, decide_eq_true hit]
    exact x.cfgWait_goes

/-- What a record reached does: a defect, a write, a poll or a wait. -/
def State.recordStep (t : State) : State :=
  if t.cfgNow.check ≠ 0 then t.bootDefect t.cfgNow.check
  else if t.cfgNow.op = 1 then (t.cfgWrite t.cfgNow.addr t.cfgNow.value).cfgNext
  else if t.cfgNow.op = 2 then
    if Nat.land (t.cfgRead t.cfgNow.addr).rdata t.cfgNow.mask = t.cfgNow.value then (t.cfgRead t.cfgNow.addr).cfgNext
    else (t.cfgRead t.cfgNow.addr).cfgWait
  else t.cfgWait

section
variable {t : State}

theorem State.recordStep_defect (bad : t.cfgNow.check ≠ 0) : t.recordStep = t.bootDefect t.cfgNow.check := if_pos bad

section
variable (good : t.cfgNow.check = 0)
include good

theorem State.recordStep_write (op : t.cfgNow.op = 1) :
    t.recordStep = (t.cfgWrite t.cfgNow.addr t.cfgNow.value).cfgNext := by
  rw [State.recordStep, if_neg (not_not.2 good), if_pos op]

theorem State.recordStep_known (op : t.cfgNow.op = 1) (known : (regAt t.cfgNow.addr).isNone = false) :
    recordGoes false (t.regWrite t.cfgNow.addr (BitVec.ofNat 32 t.cfgNow.value)) t.recordStep := by
  rw [State.recordStep_write good op, State.cfgWrite, if_neg (by simp [known])]
  exact State.cfgNext_goes _

theorem State.recordStep_unknown (op : t.cfgNow.op = 1) (unknown : (regAt t.cfgNow.addr).isNone = true) :
    onlyIn [.mast, .attic] t t.recordStep ∧
      t.recordStep.mast = { t.mast with reservedAccesses := t.mast.reservedAccesses + 1 } := by
  rw [State.recordStep_write good op, State.cfgWrite, if_pos unknown]
  exact ⟨((t.reservedAccess_keeps.mono rfl).trans ((State.setBoot_keeps _ _).mono rfl)).same, rfl⟩

theorem State.recordStep_poll (op : t.cfgNow.op = 2) :
    recordGoes (decide (Nat.land (t.cfgRead t.cfgNow.addr).rdata t.cfgNow.mask ≠ t.cfgNow.value))
      (t.cfgRead t.cfgNow.addr) t.recordStep := by
  have twice : ¬(t.cfgNow.op = 1) := by omega
  rw [State.recordStep, if_neg (not_not.2 good), if_neg twice, if_pos op]
  exact recordGoes_ite _ _

theorem State.recordStep_delay (op : t.cfgNow.op = 3) : t.recordStep = t.cfgWait := by
  rw [State.recordStep, if_neg (not_not.2 good), if_neg (by omega), if_neg (by omega)]

end

end

section
variable {s : State}

/-- A branch between two outcomes is the outcome of the branch. -/
theorem outcome_ite {c : Prop} [Decidable c] {x : Host.Outcome State Fault Refusal} (u : State) {v : State}
    (right : x = .next v) : (if c then .next u else x) = .next (if c then u else v) := by
  subst right
  exact (apply_ite _ c u v).symm

theorem exec_configRecord_none (off : s.stage ≠ 6) : exec .configRecord s = .next s := if_pos off

theorem exec_configRecord_through (stage : s.stage = 6) (through : s.toRecord.stage ≠ 6 ∨ s.toRecord.sectionsDone = true) :
    exec .configRecord s = .next s.toRecord := (if_neg (not_not.2 stage)).trans (if_pos through)

theorem exec_configRecord_record (here : s.stage = 6 ∧ s.toRecord.stage = 6 ∧ s.toRecord.sectionsDone = false) :
    exec .configRecord s = .next s.toRecord.recordStep := by
  obtain ⟨stage, still, more⟩ := here
  have whole : exec .configRecord s = execConfigRecord s := rfl
  rw [whole, execConfigRecord, if_neg (not_not.2 stage)]
  generalize s.toRecord = t at *
  have inHand : ¬(t.stage ≠ 6 ∨ t.sectionsDone = true) := by simp [still, more]
  dsimp only
  rw [if_neg inHand, State.recordStep]
  refine outcome_ite _ (outcome_ite _ ?_)
  split
  · rfl
  · rfl

end

theorem configRecord_rules (s : State) :
    let t := s.toRecord
    let r := t.cfgNow
    let here : Prop := s.stage = 6 ∧ t.stage = 6 ∧ t.sectionsDone = false
    (s.stage ≠ 6 → exec .configRecord s = .next s) ∧
    (s.stage = 6 → t.stage ≠ 6 ∨ t.sectionsDone = true → exec .configRecord s = .next t) ∧
    (∀ c rest, here → t.attic.boot.order = c :: rest → c < 2 → r.check ≠ 0 → ∃ u, exec .configRecord s = .next u ∧
      slotFailed c rest r.check t u) ∧
    (here → r.check = 0 → r.op = 1 → (regAt r.addr).isNone = false → ∃ u, exec .configRecord s = .next u ∧
      recordGoes false (t.regWrite r.addr (BitVec.ofNat 32 r.value)) u) ∧
    (here → r.check = 0 → r.op = 1 → (regAt r.addr).isNone = true → ∃ u, exec .configRecord s = .next u ∧
      onlyIn [.mast, .attic] t u ∧ u.mast = { t.mast with reservedAccesses := t.mast.reservedAccesses + 1 }) ∧
    (here → r.check = 0 → r.op = 2 → ∃ u, exec .configRecord s = .next u ∧
      recordGoes (decide (Nat.land (t.cfgRead r.addr).rdata r.mask ≠ r.value)) (t.cfgRead r.addr) u) ∧
    (here → r.check = 0 → r.op = 3 → ∃ u, exec .configRecord s = .next u ∧ recordGoes true t u) := by
  have reached := exec_configRecord_record (s := s)
  refine ⟨exec_configRecord_none, exec_configRecord_through, ?_⟩
  generalize s.toRecord = t at *
  refine ⟨fun c rest due order hc bad => ⟨_, reached due, ?_⟩,
    fun due good op known => ⟨_, reached due, State.recordStep_known good op known⟩,
    fun due good op unknown => ⟨_, reached due, State.recordStep_unknown good op unknown⟩,
    fun due good op => ⟨_, reached due, State.recordStep_poll good op⟩, fun due good op => ⟨_, reached due, ?_⟩⟩
  · rw [State.recordStep_defect bad]
    exact t.bootDefect_fails order hc _
  · rw [State.recordStep_delay good op]
    exact t.cfgWait_goes

theorem pollTimeout_rules (s : State) :
    let polls : Prop := s.stage = 6 ∧ s.attic.boot.waiting = true ∧ s.cfgNow.op = 2
    let delays : Prop := s.stage = 6 ∧ s.attic.boot.waiting = true ∧ s.cfgNow.op = 3
    (¬polls → exec .pollTimeout s = .next s) ∧
    (∀ c rest, polls → s.attic.boot.order = c :: rest → c < 2 → ∃ u, exec .pollTimeout s = .next u ∧
      slotFailed c rest 0x0C s u) ∧
    (¬delays → exec .delayExpire s = .next s) ∧
    (delays → ∃ u, exec .delayExpire s = .next u ∧ onlyIn [.attic] s u ∧
      u.attic.boot.record = s.attic.boot.record + 1 ∧ u.attic.boot.waiting = false) := by
  intro polls delays
  refine ⟨fun not_ => if_neg not_, fun c rest due order hc => ⟨_, if_pos due, s.bootDefect_fails order hc 0x0C⟩,
    fun not_ => if_neg not_, fun due => ⟨_, if_pos due, ?_⟩⟩
  obtain ⟨kept, waiting, record⟩ := s.cfgNext_goes
  exact ⟨kept, record, waiting⟩

/-! ## The stages together -/

theorem bootStageEnd_idle (ok pg : Bool) {s : State} (idle : s.rb mstMon 3 = true ∨ s.stage = 0 ∨ 8 ≤ s.stage) :
    exec (.bootStageEnd ok pg) s = .next s := by
  cases held : s.rb mstMon 3
  · have out : s.stage = 0 ∨ 8 ≤ s.stage := idle.resolve_left (by simp [held])
    rw [exec_bootStageEnd held rfl ok pg, s.stageEnd_none ok pg out]
  · exact exec_bootStageEnd_held held ok pg

end Sys2Proof.Machine

section
open Sys2Proof Sys2Proof.Machine

/-- Settles O58: each reset by what it keeps of State.reset, each boot stage and each record by its own rule, every
check that fails through the one rule of a defect. -/
theorem resetsAndBootStages : Obligations.ResetsAndBootStages := by
  unfold Obligations.ResetsAndBootStages
  refine ⟨coldStart_rules, vddAonLoss_rules, deviceRestart_rules, sliceRestart_rules, fun ok pg s => ?_,
    configRecord_rules, pollTimeout_rules, reservedLoftStart_rules⟩
  exact ⟨bootStageEnd_idle ok pg, fun powered stage => bootStageEnd_rom powered ok pg stage,
    fun powered stage cold => bootStageEnd_flash powered ok pg stage cold,
    fun c rest powered stage order hc => bootStageEnd_auth powered ok pg stage order hc,
    fun powered stage => bootStageEnd_clocks powered ok pg stage,
    fun c rest powered stage order hc => bootStageEnd_cellar powered ok pg stage order hc,
    fun powered stage => bootStageEnd_sections powered ok pg stage,
    fun powered stage => bootStageEnd_start powered ok pg stage⟩

end
